-- ==== Sys2Proof/Word.lean ====
section
/-! DEFINITION. The words the stack is made of: bytes, register dwords, the 64-bit and 128-bit words of headers and
slots, and the 64-byte line. -/

namespace Sys2Proof

abbrev Byte := BitVec 8
/-- A register dword (R412). -/
abbrev Word := BitVec 32
abbrev Word64 := BitVec 64
/-- One slot of a flit (R77). -/
abbrev Slot := BitVec 128
/-- The 64 data bytes of a line, byte 0 in bits 7 to 0. -/
abbrev LineData := BitVec 512

end Sys2Proof
end

