-- ==== Sys2Proof/Syntax.lean ====
section
/-! DEFINITION. The commands of the stack: one constructor of `Instr` per row of the manual's table of operations and
events, with the operands that the sender gives: what a path writes, what arrives on a lane or a pin, and what a
measurement or a check found. -/

namespace Sys2Proof

/-- The access path of a register access (R413, DEV.ACC_ERR.PATH). -/
inductive Path where
  | pcie | inband | gondola
  deriving DecidableEq, Repr

/-- A direction of the Dravfaic Link: `rx` host to stack, `tx` stack to host. -/
inductive Dir where
  | rx | tx
  deriving DecidableEq, Repr

/-- The two clocks that the clock monitor checks (R346). -/
inductive MonClock where
  | xo | link
  deriving DecidableEq, Repr

/-- The PLLs of R343, in the order of CLK_STAT.PLL_LOCK. -/
inductive Pll where
  | core | channel | engine | gondola | link | pcie
  deriving DecidableEq, Repr

/-- A via of a pseudo-channel: its class (false DQ, true CA) and its physical number, spares last (R275). -/
structure ViaId where
  ca : Bool
  via : BitVec 6
  deriving DecidableEq, Repr

/-- What adaptation moves on a receive lane (R36, R37): the CTLE's peaking and gain, and for each DFE tap the net number of
sign-sign LMS updates. -/
structure Adapt where
  ctle : Option (BitVec 4 × BitVec 4)
  lms : List (Fin 12 × Int)
  deriving DecidableEq, Repr

/-- Markers that a receive lane took (R31, R32), oldest first: how far each came from its expected UI, and its symbols 16 to
31 as 32 bits. -/
abbrev MarkRun := List (Int × BitVec 32)

/-- The marker of a receive lane that did not come as expected: another word or another UI, or none at all (R32). -/
structure MarkIn where
  g : Fin 8
  l : Fin 10
  got : Option (Int × BitVec 32)
  deriving DecidableEq, Repr

/-- What the end of a training state found on the lanes (R44): per direction the lanes that fail the state, the lanes
with inverted polarity (R33), the last markers of the lanes on which they were not three good ones with the lane's own identity
(R32, R33), the skew of groups and lanes (R46), what adaptation moved (R36, R37), and the last bits that each receive lane's
descrambler took in (R28). -/
structure TrainIn where
  failRx : List (Fin 8 × Fin 10)
  failTx : List (Fin 8 × Fin 10)
  inverted : List (Fin 8 × Fin 10)
  marks : List (Fin 8 × Fin 10 × MarkRun)
  skew : List (Fin 8 × BitVec 8)
  laneSkew : List (Fin 8 × Fin 10 × BitVec 8)
  adapt : List (Fin 8 × Fin 10 × Adapt)
  line : List (Fin 8 × Fin 10 × BitVec 58)
  deriving DecidableEq, Repr

/-- What a TSV training or verify of one pseudo-channel found: the vias that fail verify, whether the CK pair and the
CKE vias pass (R468), and the trained words of R400 (word index within the pseudo-channel's 58, value). -/
structure TsvIn where
  failed : List ViaId
  ckFailed : Bool
  cal : List (BitVec 6 × BitVec 32)
  /-- tRCD of the dies by stack ID as the mode registers give it at boot, 0.1 ns (R204) -/
  trcd : List (BitVec 8)
  deriving DecidableEq, Repr

/-- What the BIST of a fenced unit found: the MISR value of its logic, and whether a word of its own SRAM failed (R389, R390). -/
structure SliceResult where
  sig : BitVec 64
  memFail : Bool
  deriving DecidableEq, Repr

/-- A unit that failed startup BIST twice (R393). -/
inductive BistFail where
  | controller (k : Fin 36)
  | engine (e : Fin 36)
  /-- the memory BIST of a unit's own SRAM: controller queues, engine scratch (R390) -/
  | controllerSram (k : Fin 36)
  | engineSram (e : Fin 36)
  | phy (c : Fin 32)
  | sramMacro (m : Fin 640)
  | cacheBank (b : Fin 16)
  | laneGroup (d : Dir) (g : Fin 8)
  | laneLoop (g : Fin 8) (l : Fin 10)
  | spareVia (c : Fin 32) (pch : Bool) (v : ViaId)
  | adcRef
  | block
  deriving DecidableEq, Repr

/-- An OTP word whose array reads differ from its stored 39 bits: the reads at NORMAL, PGM and BLANK (R370). -/
structure OtpRead where
  word : BitVec 12
  normal : BitVec 39
  pgm : BitVec 39
  blank : BitVec 39
  deriving DecidableEq, Repr

/-- What the operation of a boot step found (R361); each step takes its own fields. -/
structure BootIn where
  straps : BitVec 4
  railsOut : List (Fin 7)
  otp : List OtpRead
  secBistOk : Bool
  flashId : BitVec 24
  /-- visible capacity in the firmware's configuration record (R455) -/
  cfgCap : Option (BitVec 2)
  /-- register writes of the firmware's configuration (address, value) -/
  cfgWrites : List (BitVec 22 × BitVec 32)
  tsv : List (Fin 32 × Bool × TsvIn)
  diesAbsent : List (Fin 16)
  dieIds : List (Fin 17 × BitVec 128)
  bist : List BistFail
  deriving DecidableEq, Repr

/-- What a burst on the TSVs met: the location that answered when it is not the one addressed (frame, offset), and the
bits of the 72-byte word in error. -/
structure BurstIn where
  other : Option (BitVec 21 × BitVec 10)
  flips : BitVec 576
  deriving DecidableEq, Repr

/-- Bits in error of a tag entry, and of its sector header with the header's code above it, as they are read (R169, R170). -/
structure TagErr where
  entry : BitVec 32
  header : BitVec 29
  deriving DecidableEq, Repr

/-- What the reads that one command makes inside the stack met, where they did not read clean: parcels whose remap entry is
uncorrectable (R139); tag entries, as quadrant, set and way (R170); bits in error of words on the cache die, by line index
(R176); and DRAM words, by frame and offset, with the burst of the read and that of the re-read (R187). What the command
does not read has no effect. -/
structure LookupIn where
  lost : List (BitVec 21)
  tags : List (Fin 4 × BitVec 14 × Fin 16 × TagErr)
  cache : List (BitVec 31 × BitVec 576)
  words : List (BitVec 21 × BitVec 10 × BurstIn × BurstIn)
  deriving DecidableEq, Repr

/-- The access that met a cache bank timeout (R179). -/
inductive CacheAccess where
  | read | atomic | drain | writeback
  deriving DecidableEq, Repr

/-- A patrol walker: a pseudo-channel's rows or a cache bank's sectors (R220). -/
inductive ScrubUnit where
  | rows (c : Fin 32) (pch : Bool)
  | sectors (b : Fin 16)
  deriving DecidableEq, Repr

/-- How an engine fails (R249). -/
inductive EngineFaultKind where
  | scratchUncorr | sequencerParity
  deriving DecidableEq, Repr

/-- Occurrences that a block finds in itself and that no other command brings (R274): a parity error or completion timeout
inside a channel controller; corrections, or uncorrectable words, in a base SRAM macro. -/
inductive Found where
  | ctrlFault (k : Fin 36)
  | sramCorr (macro_ : Fin 640) (n : BitVec 16)
  | sramUncorr (macro_ : Fin 640) (n : BitVec 16)
  deriving DecidableEq, Repr

/-- An event that has an energy coefficient, at the unit where it happens (R317, R319): DRAM commands to a die in channels of a
quadrant, the active clocks of an engine, accesses to a cache bank, active UI of a lane group, core clocks of a crossbar. -/
inductive ActEvent where
  | activate (d : Fin 16) (q : Fin 4)
  | readColumn (d : Fin 16) (q : Fin 4)
  | writeColumn (d : Fin 16) (q : Fin 4)
  | refresh (d : Fin 16) (q : Fin 4)
  | engineClock (e : Fin 36)
  | bankAccess (b : Fin 16)
  | laneUI (d : Dir) (g : Fin 8)
  | coreClock (q : Fin 4)
  deriving DecidableEq, Repr

/-- Unit activity of one estimator step: how many events of one kind the activity counter of a unit has counted. -/
structure Activity where
  event : ActEvent
  count : BitVec 32
  deriving DecidableEq, Repr

/-- How the environment ends a programming operation (R372): every bit verified, a bit never verified after 8 pulses,
or a condition failed after the first pulse; the bits that read as programmed. -/
inductive OtpEnd where
  | verified
  | verifyFail (stored : BitVec 39)
  | aborted (stored : BitVec 39)
  deriving DecidableEq, Repr

/-- A PCIe configuration request (R406) on the modelled fields of configuration space. -/
inductive CfgReq where
  | read (dword : BitVec 10)
  | writeBar (bar : Fin 6) (v : BitVec 32)
  | writeCommand (memEn busMaster : Bool)
  | writeMsix (enable funcMask : Bool)
  | writeDState (d3hot : Bool)
  /-- the AER status registers: of uncorrectable errors, or of correctable ones; a 1 written clears its bit (R417) -/
  | readAer (correctable : Bool)
  | clearAer (correctable : Bool) (v : BitVec 32)
  /-- the Device Serial Number capability, low or high dword (R406) -/
  | readSerial (high : Bool)
  deriving DecidableEq, Repr

/-- A write of a register dword by a path. -/
structure RegWrite where
  path : Path
  value : Word
  deriving DecidableEq, Repr

/-- The commands. One constructor per row of `opcode_table.json`. -/
inductive Instr where
  -- power, reset and boot
  | vauxPowerOn
  | vauxDrop
  | railOutOfWindow (rail : Fin 7) (mv : BitVec 12)
  | resetNAssert
  | resetNDeassert
  | perstNAssert
  | perstNDeassert
  | rstCmdOrderly (path : Path) (key : BitVec 16)
  | rstCmdImmediate (path : Path) (key : BitVec 16)
  | orderlyResetDone (m : LookupIn)
  | orderlyResetTimeout
  | bootStepComplete (b : BootIn)
  | bootRailWaitExpiry
  | xoWaitExpiry
  | xoJudgeWindowEnd (count : BitVec 16)
  | clockMonitorWindowEnd (clk : MonClock) (count : BitVec 16)
  | xoAmpReenable
  | drogueTimeout
  | refPcieSet (w : RegWrite)
  | pllUnlock (pll : Pll)
  | regbusDivWrite (w : RegWrite)
  | fmcStart (w : RegWrite)
  | fmcDone (count : BitVec 31)
  | toscTrack (count : BitVec 23)
  | gateRequest (path : Path) (page : BitVec 10) (busy : Bool)
  | gateDenied (page : BitVec 10)
  | gateOpen (path : Path) (page : BitVec 10)
  | blockReset (path : Path) (page : BitVec 10)
  | pgEnableWrite (path : Path) (page : BitVec 10) (en : Bool)
  -- link lanes and training
  | trainingStart
  | trainingStateDone (t : TrainIn)
  | trainingTimeout (t : TrainIn)
  | markerLockLost (g : Fin 8) (l : Fin 10)
  | refLaneHoldoverEnd
  | eqReq (g : Fin 8) (arg : BitVec 12)
  | eqAck (g : Fin 8) (arg : BitVec 12)
  | param (g : Fin 8) (arg : BitVec 12)
  | train (g : Fin 8) (arg : BitVec 12)
  | eidle (g : Fin 8)
  | exit (g : Fin 8) (block : BitVec 2)
  | groupReady (d : Dir) (g : Fin 8) (skew : BitVec 8) (line : List (Fin 10 × BitVec 58))
  | padFrameInsert
  | pad
  | keepaliveSend (g : Fin 8)
  | keepalive (g : Fin 8) (adapt : List (Fin 10 × Adapt))
  | keepaliveMissed (g : Fin 8)
  | spareCmdStart (path : Path) (g : Fin 8) (lane : BitVec 4)
  | spareCmdAbort (path : Path) (g : Fin 8)
  | shadowReq (g : Fin 8) (lane : BitVec 4)
  | shadowAck (g : Fin 8) (lane : BitVec 4)
  | sparingAckTimeout (g : Fin 8)
  | sparingAdaptDone (g : Fin 8)
  | sparingAdaptTimeout (g : Fin 8)
  | sparingCompareDone (g : Fin 8) (mismatches : BitVec 16)
  | switch (d : Dir) (g : Fin 8) (arg : BitVec 12)
  | release (d : Dir) (g : Fin 8)
  | injOne (path : Path) (g : Fin 8) (l : Fin 10)
  | injBurst (path : Path) (g : Fin 8) (l : Fin 10) (len : BitVec 6)
  | marginStart (g : Fin 8) (l : Fin 10) (w : RegWrite)
  | marginDone (g : Fin 8) (l : Fin 10) (errors : Word)
  | eyeUpdate (g : Fin 8) (l : Fin 10) (eye : BitVec 30) (a : Adapt)
  -- link frames, flits and replay
  | frameTransmit (test : List (Fin 8 × Fin 10 × List (BitVec 2)))
  | flitReceive (flit : BitVec 1920) (marks : List MarkIn)
  | ackTimeout
  | replayHoldExpiry
  | stallTimeout
  | retrain (w : RegWrite)
  | recover (w : RegWrite)
  | llReset (w : RegWrite)
  | widthAutoWindow (d : Dir)
  -- transactions
  | badHeader (tc : BitVec 3)
  | requestAdmit (tc : BitVec 3) (m : LookupIn)
  | rdReq (tag : BitVec 12) (m : LookupIn)
  | wrReq (tag : BitVec 12) (m : LookupIn)
  | wrReqPoison (tag : BitVec 12) (m : LookupIn)
  | atomReq (tag : BitVec 12) (m : LookupIn)
  | fenceReq (tag : BitVec 12)
  | fencePerformed (tag : BitVec 12)
  | hintPin (tag : BitVec 12) (m : LookupIn)
  | hintUnpin (tag : BitVec 12) (m : LookupIn)
  | hintRelease (tag : BitVec 12) (m : LookupIn)
  | hintPrefetch (tag : BitVec 12) (m : LookupIn)
  | hintNocache (tag : BitVec 12) (m : LookupIn)
  | hintCache (tag : BitVec 12) (m : LookupIn)
  | workReq (tag : BitVec 12) (m : LookupIn)
  | cfgRd (tag : BitVec 12)
  | cfgWr (tag : BitVec 12)
  | responseSend (tag : BitVec 12)
  | eventSend
  -- placement
  | epochTick
  | heatDecay
  | migrationCopyDone (slot : Fin 64) (m : LookupIn)
  | migrationRecopyPassDone (slot : Fin 64) (m : LookupIn)
  | migrationSwitch (slot : Fin 64) (m : LookupIn)
  | migrationCloseTimeout (slot : Fin 64) (ns : BitVec 16)
  | frameZeroStart
  | frameZeroDone (frame : BitVec 21)
  | tableRepairDone (parcel : BitVec 21) (failA failB : Bool)
  | deficitGraceExpiry
  | autoWdrSet (w : RegWrite)
  | spareResWrite (pinLimit : Bool) (w : RegWrite)
  | wdrCmdReinstate (w : RegWrite)
  | locQuery (w : RegWrite)
  | wdrFind (w : RegWrite)
  | ckptNow (w : RegWrite)
  | checkpointTimer
  | checkpointDone
  | keelRebuildDone (mirrorB : Bool)
  -- cache die
  | writeDrain (line : BitVec 31) (m : LookupIn)
  | bgWriteback (q : Fin 4) (m : LookupIn)
  | flush (w : RegWrite)
  | invalidate (w : RegWrite)
  | cacheEnableWrite (w : RegWrite)
  | bankCmdRetire (path : Path) (bank : Fin 16)
  | bankScanDone (bank : Fin 16) (m : LookupIn)
  | cacheBankTimeout (bank : Fin 16) (a : CacheAccess) (line : BitVec 31) (again : Bool)
  | cacheDieNotResponding
  -- DRAM channels
  | dramSchedule (c : Fin 32) (pch : Bool) (trackerBad : Bool)
  | readDataReturn (c : Fin 32) (pch : Bool) (first : BurstIn) (again : BurstIn) (m : LookupIn)
  | correctionWriteback (c : Fin 32) (pch : Bool)
  | powerDownEntry (c : Fin 32) (pch : Bool)
  | refreshSlot (c : Fin 32) (pch : Bool) (bank : Fin 64)
  | refreshDue (c : Fin 32) (pch : Bool) (bank : Fin 64)
  | refreshStepDown (die : Fin 16)
  | controllerSwap (old new : Fin 36)
  | controllerSwapDone (old : Fin 36)
  | periodicTrainingDue (c : Fin 32) (pch : Bool)
  | phyRetrain (c : Fin 32) (w : RegWrite)
  | periodicTrainingDone (c : Fin 32) (pch : Bool) (t : TsvIn)
  | remapCmd (c : Fin 32) (w : RegWrite)
  | remapVerifyDone (c : Fin 32) (pch : Bool) (pass : Bool)
  | rowRepairCmd (c : Fin 32) (w : RegWrite)
  | rowRepairDone (c : Fin 32)
  -- refresh and scrub
  | scrubRowDue (u : ScrubUnit) (flips : List (Fin 4 × BitVec 576))
  | scrubLate (c : Fin 32) (pch : Bool)
  | scrubCmd (w : RegWrite)
  | scrubCmdDone
  -- engines
  | workBegin (e : Fin 36)
  | precheckDone (e : Fin 36) (m : LookupIn)
  | chunkCommit (e : Fin 36) (m : LookupIn) (scratch : BitVec 16)
  | commitRecordApply (q : Fin 4) (m : LookupIn)
  | engineFault (e : Fin 36) (kind : EngineFaultKind)
  | engineHang (e : Fin 36)
  | cancel (q : Fin 4) (w : RegWrite)
  | sparePowerUp (engine : Bool) (unit : Fin 36)
  -- Bridle
  | masterWindowStart (mid : Fin 64)
  | regCtlWrite (mid : Fin 64) (budget : Bool) (w : RegWrite)
  | holdRelease
  | holdLimitExpiry (tag : BitVec 12)
  | delivCompute
  | guarWindowStart
  | tcLatTargetWrite (tc : Fin 8) (w : RegWrite)
  | urgPinAssert (pin : Fin 4)
  | urgPinDeassert (pin : Fin 4)
  | urgPinStuck (pin : Fin 4)
  -- faults and sparing
  | countedDelivery (found : Option Found)
  | levelChange (page : BitVec 10) (bit : Fin 32)
  | recordRecover (rec : Fin 64)
  | bucketLeak (type : Fin 9)
  | retestStart (bist : Bool)
  | retestDone (bist : Bool) (pass : Bool)
  | alertClr (w : RegWrite)
  | resQuery (w : RegWrite)
  | lendSlice (q : Fin 4)
  | repairRecordCommit
  | repairAppend
  | healthFall
  -- heat, power and wear
  | housekeepingRound (codes : List (BitVec 12))
  | estimatorStep (activity : List Activity)
  | thermalTrip
  | capWindowStart
  | dvfsUpHoldExpiry
  | dvfsClockSwitch
  | dvfsVsettleTimeout
  | vddUndervolt
  | vddFaultClear
  | wearSaveHourly (failed : Bool)
  | saveNow (w : RegWrite) (failed : Bool)
  -- OTP, security and attestation
  | program (path : Path) (key : BitVec 16)
  | genSecret (path : Path) (key : BitVec 16)
  | lifeNext (path : Path) (key : BitVec 16)
  | lifeVoid (path : Path) (key : BitVec 16)
  | otpProgramDone (how : OtpEnd)
  | otpReread (reads : List OtpRead)
  | scanEnable (readBackZero : Bool)
  | stickyLockSet (reg : Fin 19) (w : RegWrite)
  | getVersion
  | getCapabilities
  | negotiateAlgorithms
  | getDigests
  | getCertificate (offset length : BitVec 16)
  | challenge (nonce : BitVec 256)
  | getMeasurements (nonce : BitVec 256) (sign : Bool)
  -- self-test and calibration
  | rotationSliceDue (engine : Bool) (q : Fin 4)
  | sliceBistDone (engine : Bool) (q : Fin 4) (sig : SliceResult)
  | sliceTimeout (engine : Bool) (q : Fin 4)
  | sliceRetry (engine : Bool) (q : Fin 4)
  | bistCmd (w : RegWrite)
  | spareLaneCheck (g : Fin 8) (rxFail txFail : Bool)
  | spareViaCheck (c : Fin 32) (pch : Bool) (v : ViaId) (fail : Bool)
  | calBlkWrite (w : RegWrite)
  | calDataWrite (w : RegWrite)
  | commit (path : Path)
  | discard (path : Path)
  | calApply
  -- register access
  | registerWrite (addr : BitVec 22) (be : BitVec 4) (w : RegWrite)
  | aliasSet (addr : BitVec 22) (be : BitVec 4) (w : RegWrite)
  | aliasClear (addr : BitVec 22) (be : BitVec 4) (w : RegWrite)
  | aliasToggle (addr : BitVec 22) (be : BitVec 4) (w : RegWrite)
  | rlLowRead (path : Path) (addr : BitVec 22)
  | pairLowWrite (addr : BitVec 22) (be : BitVec 4) (w : RegWrite)
  | pairHighWrite (addr : BitVec 22) (be : BitVec 4) (w : RegWrite)
  -- management port
  | windowRead (offset : BitVec 27) (len : BitVec 13) (m : LookupIn)
  | windowWrite (offset : BitVec 27) (bytes : List (Option Byte)) (poisoned : Bool) (m : LookupIn)
  | msixPendingSend (vector : Fin 64)
  | getInfo (path : Path) (ch : Fin 2)
  | logRead (path : Path) (ch : Fin 2)
  | flashRead (path : Path) (ch : Fin 2)
  | imageErase (path : Path) (ch : Fin 2)
  | imageWrite (path : Path) (ch : Fin 2)
  | imageVerify (path : Path) (ch : Fin 2)
  | imagePromote (path : Path) (ch : Fin 2)
  | healthRead (path : Path) (ch : Fin 2)
  | lifeChallenge (path : Path) (ch : Fin 2)
  | lifeAdvance (path : Path) (ch : Fin 2)
  | mailboxDone (ch : Fin 2) (flashOk : Bool)
  | rawCmd (w : RegWrite)
  | eventLogWrite (flashOk : Bool)
  -- performance monitor
  | freezeWrite (w : RegWrite)
  | snapshot (w : RegWrite)
  | userSnapshot (path : Path)
  | clear (path : Path)
  | clearAll (path : Path)
  | ringSelWrite (w : RegWrite)
  -- further events
  | cdrLockLoss (g : Fin 8) (l : Fin 10)
  | refclkPresenceChange (present : Bool)
  | widthCtlWrite (w : RegWrite)
  | dvfsTargetWrite (w : RegWrite)
  | testModeWrite (g : Fin 8) (w : RegWrite)
  | localTimingWrite (w : RegWrite)
  | urgPinGlitch (pin : Fin 4)
  | pcieConfigRequest (c : CfgReq)
  deriving DecidableEq, Repr

end Sys2Proof
end

