-- ==== Sys2Proof/Decode.lean ====
section
/-! DEFINITION. Decoding of a command from a word. The manual's table of operations and events gives its rows no bits:
a command is something that a path, a pin or a lane does, so no word spells one. -/

namespace Sys2Proof

/-- The command that a word of the table's bits spells: none, since no row gives bits. -/
def decodeTableWord (_nbits _w : Nat) : Option Instr := none

end Sys2Proof
end

