-- ==== Sys2Proof/Config.lean ====
section
/-! DEFINITION. What the manual leaves to the part or leaves open. Each constant has no body: nothing can be proved of
its value, so a theorem that holds here holds whatever it is. -/

namespace Sys2Proof.Config

/-- Free values: the value of the n-th choice that the manual leaves open (assumption 4). -/
opaque freeWord : Nat → BitVec 32
opaque freeLine : Nat → BitVec 512
opaque freeBits : Nat → BitVec 576

/-- PCI-SIG vendor identifier of Zangezen (R406, R427). -/
opaque vendorId : BitVec 16

/-- How the key derivation encodes the number of an iteration and the length of its output, which SP 800-108 leaves to its use
(R381). -/
opaque kdfCounter : (iteration : Nat) → List Nat
opaque kdfLength : List Nat

/-- Digests that the boot ROM holds: the manufacturing key's and its own (R382, R383). -/
opaque mfgDigest : BitVec 384
opaque romDigest : BitVec 384

/-- The alias certificate: public key, and the DeviceID key's signature of it (R381). -/
opaque aliasCert : (publicKey : BitVec 768) → (sig : BitVec 768) → List (BitVec 8)

/-- The n-th word of the random generator (R381, R423). -/
opaque random : Nat → BitVec 384

/-- Converted value of a sensor's code in 0.125 °C, with the sensor's offset and gain as the TRIM words give them, or the ROM
defaults without them; their place and form in the region the manual does not give (R315, R366, R373). -/
opaque sensorEighths : (trim : List (BitVec 32)) → (sensor : Nat) → (code : BitVec 12) → Int

/-- Where the model starts a node when no sensor that R319 names reads (R319). -/
opaque modelStart : (node : Nat) → Rat

/-- Voltage in mV and current in 10 mA of a rail from the codes of its monitors (R314, R338). -/
opaque railMilli : (rail : Nat) → (code : BitVec 12) → BitVec 12
opaque railTens : (rail : Nat) → (code : BitVec 12) → BitVec 13

/-- Expected code of the bandgap reference that the TRIM words give, or the ROM default without them (R391, R398). -/
opaque bandgapCode : (trim : List (BitVec 32)) → BitVec 12

/-- Offset code and gain of the ADC correction from a round's bandgap and ground codes, whose computation the manual does
not give (R400). -/
opaque adcCorrection : (bandgap ground : BitVec 12) → (word : Nat) → BitVec 32

/-- MISR signature of a controller (false) or an engine (true) for a test set, held in the boot ROM (R389). -/
opaque bistSig : (engine : Bool) → (set : Nat) → BitVec 64

/-- Coefficient set of the boot ROM (R319). -/
opaque romCoef : Nat → BitVec 32

/-- 2^x and e^x as the estimator evaluates them (R317, R335). -/
opaque pow2 : Rat → Rat
opaque exp : Rat → Rat

/-- Modelled rise across the cold-plate contact at a package power in mW (R318). -/
opaque contactRise : Rat → Rat

/-- Does the vector unit detect tininess before rounding (IEEE 754-2019, 7.5, leaves the choice to the part)? -/
opaque tinyBeforeRounding : Bool

/-- Does 0 × ∞ + quiet NaN raise invalid (IEEE 754-2019, 7.2, leaves it to the part)? -/
opaque fmaZeroInfNanInvalid : Bool

/-- The fixed permutation and mask of the device-unique secret, and its inverse (R381). -/
opaque scramble : BitVec 256 → BitVec 256
opaque unscramble : BitVec 256 → BitVec 256

/-- TOSC trim code that the TRIM words give, or the ROM default without them (R361, R366). -/
opaque toscTrim : (trim : List (BitVec 32)) → BitVec 8

end Sys2Proof.Config
end

