-- ==== Sys2Proof/Machine/Operands.lean ====
section
/-! DEFINITION. Operand forms of the engines: element types, integer elements, and exact floating-point arithmetic of
IEEE 754-2019 for fp16, bf16, fp32 and fp64 (R229, R235, R236). A finite value is a signed integer times a power of two,
so every operation is computed exactly and rounded once. -/

namespace Sys2Proof.Machine

/-! ### Element types (R229) -/

/-- Size of an element type in bytes. -/
def etSize (t : Nat) : Nat :=
  if t = 0 ∨ t = 1 then 1 else if t = 2 ∨ t = 3 ∨ t = 8 ∨ t = 9 then 2 else if t = 4 ∨ t = 5 ∨ t = 10 then 4 else 8
def etBits (t : Nat) : Nat := 8 * etSize t
/-- Codes 0x0 to 0x7 are integers, even codes signed; 0x8 to 0xB are floating-point. -/
def etFloat (t : Nat) : Bool := decide (8 ≤ t)
def etSigned (t : Nat) : Bool := decide (t < 8 ∧ t % 2 = 0)

/-- Two's complement value of the low `n` bits. -/
def toSigned (n v : Nat) : Int := let x := v % 2 ^ n; if x < 2 ^ (n - 1) then (x : Int) else (x : Int) - (2 ^ n : Nat)
/-- The low `n` bits of an integer. -/
def wrapTo (n : Nat) (v : Int) : Nat := (v % ((2 ^ n : Nat) : Int)).toNat
/-- Value of an integer element. -/
def intVal (t v : Nat) : Int := if etSigned t then toSigned (etBits t) v else ((v % 2 ^ etBits t : Nat) : Int)
/-- Least and greatest value of an integer type. -/
def intMin (t : Nat) : Int := if etSigned t then -((2 ^ (etBits t - 1) : Nat) : Int) else 0
def intMax (t : Nat) : Int :=
  if etSigned t then ((2 ^ (etBits t - 1) : Nat) : Int) - 1 else ((2 ^ etBits t : Nat) : Int) - 1

/-! ### Exception flags (R235, R241): bits of EXC -/

def excInvalid : Nat := 1
def excOverflow : Nat := 2
def excUnderflow : Nat := 4
def excInexact : Nat := 8
def excIovf : Nat := 16

/-! ### Floating-point formats (R235) -/

/-- Exponent bits of a format: bf16, fp16, fp32, fp64. -/
def fExp (t : Nat) : Nat := if t = 8 then 8 else if t = 9 then 5 else if t = 10 then 8 else 11
/-- Fraction bits. -/
def fFrac (t : Nat) : Nat := if t = 8 then 7 else if t = 9 then 10 else if t = 10 then 23 else 52
def fBias (t : Nat) : Nat := 2 ^ (fExp t - 1) - 1
/-- Exponent of the least bit of a subnormal. -/
def fLow (t : Nat) : Int := 1 - (fBias t : Int) - (fFrac t : Int)

/-- The canonical quiet NaN. -/
def fNaN (t : Nat) : Nat := (2 ^ fExp t - 1) * 2 ^ fFrac t + 2 ^ (fFrac t - 1)
def fInf (t : Nat) (neg : Bool) : Nat := neg.toNat * 2 ^ (fExp t + fFrac t) + (2 ^ fExp t - 1) * 2 ^ fFrac t
def fZero (t : Nat) (neg : Bool) : Nat := neg.toNat * 2 ^ (fExp t + fFrac t)
/-- The greatest finite value. -/
def fMaxFinite (t : Nat) (neg : Bool) : Nat := fInf t neg - 1

/-- A floating-point datum: a finite value is (−1)^neg × m × 2^e. -/
inductive Flt where
  | nan (signalling : Bool)
  | inf (neg : Bool)
  | fin (neg : Bool) (m : Nat) (e : Int)
  deriving DecidableEq, Repr

/-- Read a datum. -/
def fltOf (t v : Nat) : Flt :=
  let neg := v.testBit (fExp t + fFrac t)
  let e := v / 2 ^ fFrac t % 2 ^ fExp t
  let f := v % 2 ^ fFrac t
  if e = 2 ^ fExp t - 1 then (if f = 0 then .inf neg else .nan (!f.testBit (fFrac t - 1)))
  else if e = 0 then .fin neg f (fLow t)
  else .fin neg (f + 2 ^ fFrac t) (fLow t + ((e - 1 : Nat) : Int))

def Flt.isNaN : Flt → Bool | .nan _ => true | _ => false
def Flt.isSig : Flt → Bool | .nan b => b | _ => false
def Flt.isNeg : Flt → Bool | .nan _ => false | .inf n => n | .fin n _ _ => n

/-- Number of bits of a natural. -/
def bitLen (n : Nat) : Nat := if n = 0 then 0 else Nat.log2 n + 1

/-- Round the magnitude m × 2^e to a multiple of 2^q: the multiple and whether it is inexact. -/
def roundTo (rm : Nat) (neg : Bool) (m : Nat) (e q : Int) : Nat × Bool :=
  if q ≤ e then (m * 2 ^ (e - q).toNat, false)
  else
    let k := (q - e).toNat
    let d := m / 2 ^ k
    let r := m % 2 ^ k
    let up := if r = 0 then false
      else if rm = 0 then decide (2 ^ k < 2 * r ∨ (2 * r = 2 ^ k ∧ d % 2 = 1))
      else if rm = 1 then false
      else if rm = 2 then !neg
      else neg
    (if up then d + 1 else d, decide (r ≠ 0))

/-- The exponent of the least result bit for a magnitude m × 2^e, without bound below. -/
def ulpExp (t m : Nat) (e : Int) : Int := e + (bitLen m : Int) - ((fFrac t + 1 : Nat) : Int)

/-- Round an exact value to a format: the datum and the flags (R235). Tininess is detected before or after rounding as
the part does it (IEEE 754-2019 leaves the choice). -/
def fRound (t rm : Nat) (neg : Bool) (m : Nat) (e : Int) : Nat × Nat :=
  if m = 0 then (fZero t neg, 0)
  else
    let u := ulpExp t m e
    let q := max u (fLow t)
    let r := roundTo rm neg m e q
    let free := roundTo rm neg m e u
    let minNorm := 2 ^ fFrac t
    -- tiny before rounding: the exact value lies below the least normal number; after: so does the rounded one
    let before := decide (u < fLow t)
    let after := decide (u < fLow t) && !(decide (u + 1 = fLow t) && decide (2 ^ (fFrac t + 1) ≤ free.1))
    let tiny := if Config.tinyBeforeRounding then before else after
    let sgn := neg.toNat * 2 ^ (fExp t + fFrac t)
    let fl := (if r.2 then excInexact else 0) + (if r.2 && tiny then excUnderflow else 0)
    if r.1 = 0 then (sgn, fl)
    else
      let norm := if 2 * minNorm ≤ r.1 then (r.1 / 2, q + 1) else (r.1, q)
      let be := if norm.1 < minNorm then 0 else (norm.2 - fLow t).toNat + 1
      if 2 ^ fExp t - 1 ≤ be then
        let big := decide (rm = 0) || (decide (rm = 2) && !neg) || (decide (rm = 3) && neg)
        (if big then fInf t neg else fMaxFinite t neg, excOverflow + excInexact)
      else (sgn + be * 2 ^ fFrac t + norm.1 % minNorm, fl)

/-- Sign of an exact zero sum. -/
def zeroNeg (rm : Nat) (a b : Bool) : Bool := if a = b then a else decide (rm = 3)

/-- Exact sum of two finite values as a signed integer at a common exponent. -/
def finSum (n1 : Bool) (m1 : Nat) (e1 : Int) (n2 : Bool) (m2 : Nat) (e2 : Int) : Int × Int :=
  let e := min e1 e2
  let a : Int := ((m1 * 2 ^ (e1 - e).toNat : Nat) : Int)
  let b : Int := ((m2 * 2 ^ (e2 - e).toNat : Nat) : Int)
  ((if n1 then -a else a) + (if n2 then -b else b), e)

/-- Sum of two data (R235). -/
def fAddF (t rm : Nat) (a b : Flt) : Nat × Nat :=
  let sig := if a.isSig || b.isSig then excInvalid else 0
  match a, b with
  | .nan _, _ => (fNaN t, sig)
  | _, .nan _ => (fNaN t, sig)
  | .inf x, .inf y => if x = y then (fInf t x, 0) else (fNaN t, excInvalid)
  | .inf x, _ => (fInf t x, 0)
  | _, .inf y => (fInf t y, 0)
  | .fin n1 m1 e1, .fin n2 m2 e2 =>
    let r := finSum n1 m1 e1 n2 m2 e2
    if r.1 = 0 then (fZero t (zeroNeg rm n1 n2), 0)
    else fRound t rm (decide (r.1 < 0)) r.1.natAbs r.2

/-- Product of two data. -/
def fMulF (t rm : Nat) (a b : Flt) : Nat × Nat :=
  let sig := if a.isSig || b.isSig then excInvalid else 0
  let n := a.isNeg ^^ b.isNeg
  match a, b with
  | .nan _, _ => (fNaN t, sig)
  | _, .nan _ => (fNaN t, sig)
  | .inf _, .fin _ 0 _ => (fNaN t, excInvalid)
  | .fin _ 0 _, .inf _ => (fNaN t, excInvalid)
  | .inf _, _ => (fInf t n, 0)
  | _, .inf _ => (fInf t n, 0)
  | .fin _ m1 e1, .fin _ m2 e2 => fRound t rm n (m1 * m2) (e1 + e2)

/-- Fused multiply-add a × b + c with one rounding. Whether 0 × ∞ + a quiet NaN is invalid is the part's choice. -/
def fFmaF (t rm : Nat) (a b c : Flt) : Nat × Nat :=
  let sig := if a.isSig || b.isSig || c.isSig then excInvalid else 0
  let n := a.isNeg ^^ b.isNeg
  let zi := match a, b with
    | .inf _, .fin _ 0 _ => true
    | .fin _ 0 _, .inf _ => true
    | _, _ => false
  if a.isNaN || b.isNaN then (fNaN t, sig)
  else if zi then
    (fNaN t, if !c.isNaN || c.isSig || Config.fmaZeroInfNanInvalid then excInvalid else 0)
  else if c.isNaN then (fNaN t, sig)
  else match a, b, c with
    | .fin _ m1 e1, .fin _ m2 e2, .fin n3 m3 e3 =>
      let r := finSum n (m1 * m2) (e1 + e2) n3 m3 e3
      if r.1 = 0 then (fZero t (zeroNeg rm n n3), 0)
      else fRound t rm (decide (r.1 < 0)) r.1.natAbs r.2
    | .fin _ _ _, .fin _ _ _, .inf y => (fInf t y, 0)
    | _, _, .inf y => if n = y then (fInf t y, 0) else (fNaN t, excInvalid)
    | _, _, _ => (fInf t n, 0)

def fAdd (t rm a b : Nat) : Nat × Nat := fAddF t rm (fltOf t a) (fltOf t b)
def fMul (t rm a b : Nat) : Nat × Nat := fMulF t rm (fltOf t a) (fltOf t b)
def fFma (t rm a b c : Nat) : Nat × Nat := fFmaF t rm (fltOf t a) (fltOf t b) (fltOf t c)

/-- Order of two data that are not NaN: less. −0 and +0 are equal here. -/
def fLtF (a b : Flt) : Bool :=
  match a, b with
  | .nan _, _ => false
  | _, .nan _ => false
  | .inf x, .inf y => x && !y
  | .inf x, _ => x
  | _, .inf y => !y
  | .fin n1 m1 e1, .fin n2 m2 e2 => decide (0 < (finSum n2 m2 e2 (!n1) m1 e1).1)

/-- Equality of data that are not NaN. -/
def fEqF (a b : Flt) : Bool := !a.isNaN && !b.isNaN && !fLtF a b && !fLtF b a

/-- The order of MIN and MAX: as `fLtF`, with −0 below +0 (R236). -/
def fBelow (a b : Flt) : Bool := fLtF a b || (fEqF a b && a.isNeg && !b.isNeg)

/-- The raw pattern of a datum in another format, exact or rounded (R236). -/
def fConvert (src dst rm v : Nat) : Nat × Nat :=
  match fltOf src v with
  | .nan b => (fNaN dst, if b then excInvalid else 0)
  | .inf n => (fInf dst n, 0)
  | .fin n m e => fRound dst rm n m e

/-- Conversion of an integer to a floating-point type. -/
def intToFlt (dst rm : Nat) (v : Int) : Nat × Nat := fRound dst rm (decide (v < 0)) v.natAbs 0

/-- Saturate an integer to an integer type; `fl` is the flag of saturation. -/
def satInt (dst fl : Nat) (v : Int) (exact : Nat) : Nat × Nat :=
  if v < intMin dst then (wrapTo (etBits dst) (intMin dst), fl)
  else if intMax dst < v then (wrapTo (etBits dst) (intMax dst), fl)
  else (wrapTo (etBits dst) v, exact)

/-- Conversion of a floating-point datum to an integer type: rounds by RMODE and saturates (R236). -/
def fltToInt (src dst rm v : Nat) : Nat × Nat :=
  match fltOf src v with
  | .nan _ => (0, excInvalid)
  | .inf n => (wrapTo (etBits dst) (if n then intMin dst else intMax dst), excInvalid)
  | .fin n m e =>
    let r := roundTo rm n m e 0
    satInt dst excInvalid (if n then -(r.1 : Int) else (r.1 : Int)) (if r.2 then excInexact else 0)

/-- CONVERT of one element (R230, R236). -/
def convertElem (src dst rm v : Nat) : Nat × Nat :=
  if etFloat src then (if etFloat dst then fConvert src dst rm v else fltToInt src dst rm v)
  else if etFloat dst then intToFlt dst rm (intVal src v)
  else satInt dst excIovf (intVal src v) 0

end Sys2Proof.Machine
end

