-- ==== Sys2Proof/Machine/Flags.lean ====
section
/-! DEFINITION. The arithmetic of the engines with the exception flags of each step: predicates, additions, products,
fused multiply-adds, minima and maxima, histogram bins, checksums and CRCs (R230 to R237). -/

namespace Sys2Proof.Machine

/-- The accumulator type of SUM and DOT (R236): int64, uint64, fp32 or fp64. -/
def accType (t : Nat) : Nat :=
  if t = 11 then 11 else if etFloat t then 10 else if etSigned t then 6 else 7

/-- Lanes of SUM and DOT (R237). -/
def accLanes (t : Nat) : Nat := if accType t = 10 then 16 else 8

/-- An integer result in `t`, wrapping, with IOVF on a wrap. -/
def wrapInt (t : Nat) (v : Int) : Nat × Nat :=
  (wrapTo (etBits t) v, if intMin t ≤ v ∧ v ≤ intMax t then 0 else excIovf)

/-- Sum of two elements of one type (R236). -/
def addElem (t rm a b : Nat) : Nat × Nat :=
  if etFloat t then fAdd t rm a b else wrapInt t (intVal t a + intVal t b)

/-- Product of two elements. -/
def mulElem (t rm a b : Nat) : Nat × Nat :=
  if etFloat t then fMul t rm a b else wrapInt t (intVal t a * intVal t b)

/-- a × b + c of one type. -/
def fmaElem (t rm a b c : Nat) : Nat × Nat :=
  if etFloat t then fFma t rm a b c else wrapInt t (intVal t a * intVal t b + intVal t c)

/-- Add an element into a lane of SUM: inputs are exact in the accumulator's type. -/
def accAdd (t rm acc a : Nat) : Nat × Nat :=
  let u := accType t
  if etFloat t then fAddF u rm (fltOf u acc) (fltOf t a) else wrapInt u (intVal u acc + intVal t a)

/-- Add a product into a lane of DOT. -/
def accFma (t rm acc a b : Nat) : Nat × Nat :=
  let u := accType t
  if etFloat t then fFmaF u rm (fltOf t a) (fltOf t b) (fltOf u acc)
  else wrapInt u (intVal u acc + intVal t a * intVal t b)

/-- One halving of the lanes: lane j becomes lane j plus lane j + w (R237). -/
def foldLanes (u rm w : Nat) (l : List Nat) : List Nat × Nat :=
  (List.range w).foldl (fun p j =>
    let r := addElem u rm (l.getD j 0) (l.getD (j + w) 0)
    (p.1 ++ [r.1], p.2 ||| r.2)) ([], 0)

/-- Lane 0 after all halvings, with the flags. -/
def reduceLanes (u rm : Nat) : Nat → List Nat → Nat → Nat × Nat
  | 0, l, fl => (l.headD 0, fl)
  | n + 1, l, fl =>
    let r := foldLanes u rm (2 ^ n) l
    reduceLanes u rm n r.1 (fl ||| r.2)

/-- Result of SUM and DOT. -/
def accResult (t rm : Nat) (lanes : List Nat) : Nat × Nat :=
  reduceLanes (accType t) rm (if accType t = 10 then 4 else 3) lanes 0

/-- The predicate of a SUBOP code (R231). -/
def predHolds (t code a imm : Nat) : Bool :=
  let m := 2 ^ etBits t
  if code = 6 then decide ((a % m) &&& (imm % m) ≠ 0)
  else if code = 7 then decide ((a % m) &&& (imm % m) = 0)
  else
    let nan := etFloat t && ((fltOf t a).isNaN || (fltOf t imm).isNaN)
    let lt := if etFloat t then fLtF (fltOf t a) (fltOf t imm) else decide (intVal t a < intVal t imm)
    let gt := if etFloat t then fLtF (fltOf t imm) (fltOf t a) else decide (intVal t imm < intVal t a)
    let eq := !lt && !gt && !nan
    match code with
    | 0 => eq
    | 1 => !eq
    | 2 => lt
    | 3 => lt || eq
    | 4 => gt
    | _ => gt || eq

/-- An element orders before another for MIN (`hi` false) or MAX (R236). -/
def betterElem (t : Nat) (hi : Bool) (a b : Nat) : Bool :=
  if etFloat t then (if hi then fBelow (fltOf t b) (fltOf t a) else fBelow (fltOf t a) (fltOf t b))
  else if hi then decide (intVal t b < intVal t a) else decide (intVal t a < intVal t b)

def elemNaN (t a : Nat) : Bool := etFloat t && (fltOf t a).isNaN

/-- MIN or MAX of two elements for ATOM_BATCH: NaN is ignored (R233, R236). -/
def minMaxElem (t : Nat) (hi : Bool) (a b : Nat) : Nat :=
  if elemNaN t a then (if elemNaN t b then fNaN t else b)
  else if elemNaN t b then a
  else if betterElem t hi b a then b else a

/-- Result of MIN or MAX extended to 64 bits (R236). -/
def extend64 (t v : Nat) : Nat := if etSigned t then wrapTo 64 (intVal t v) else v

/-- An update of ATOM_BATCH (R233): new value and flags. -/
def atomBatchOp (t rm op old a : Nat) : Nat × Nat :=
  match op with
  | 0 => if etFloat t then fAdd t rm old a else (wrapTo (etBits t) (intVal t old + intVal t a), 0)
  | 1 => (minMaxElem t false old a, 0)
  | 2 => (minMaxElem t true old a, 0)
  | 3 => (old &&& a, 0)
  | 4 => (old ||| a, 0)
  | 5 => (old ^^^ a, 0)
  | _ => (a, 0)

/-- The bin of a HISTOGRAM element (R232). -/
def histBin (t sh a imm : Nat) : Int := (intVal t a - intVal t imm) / ((2 ^ sh : Nat) : Int)

/-- One bit of a reflected CRC. -/
def crcBit (poly c : Nat) : Nat := if c % 2 = 1 then (c / 2) ^^^ poly else c / 2
/-- One byte of a reflected CRC-32C (SUBOP 0) or CRC-32 (R234). -/
def crcByte (subop c b : Nat) : Nat :=
  let poly := if subop = 0 then 0x82F63B78 else 0xEDB88320
  (List.range 8).foldl (fun x _ => crcBit poly x) (c ^^^ (b % 256))

end Sys2Proof.Machine
end

