-- ==== Sys2Proof/Machine/Map.lean ====
section
/-! DEFINITION. Sparse maps with a default, as lists in one canonical form: keys strictly rising and no entry equal to
what an unlisted key reads as. Equal maps are then equal lists. All indexed state of the stack is held so: DRAM bytes,
tags, table entries, registers. -/

namespace Sys2Proof.Machine

/-- A sparse map: key and value pairs. -/
abbrev SMap (α : Type) := List (Nat × α)

namespace SMap

/-- The value at key `k`; a key that is not listed reads as `d k`. -/
def get {α : Type} (d : Nat → α) : SMap α → Nat → α
  | [], k => d k
  | (k', v) :: m, k => if k = k' then v else get d m k

/-- Insert or replace the entry of `k`, keys kept rising. -/
def put {α : Type} (k : Nat) (v : α) : SMap α → SMap α
  | [] => [(k, v)]
  | (k', v') :: m =>
    if k < k' then (k, v) :: (k', v') :: m
    else if k = k' then (k, v) :: m
    else (k', v') :: put k v m

/-- Remove the entry of `k`. -/
def del {α : Type} (k : Nat) : SMap α → SMap α
  | [] => []
  | (k', v') :: m => if k = k' then del k m else (k', v') :: del k m

/-- Write `v` at `k`: writing what an unlisted key reads as removes the entry. -/
def set {α : Type} [DecidableEq α] (d : Nat → α) (k : Nat) (v : α) (m : SMap α) : SMap α :=
  if v = d k then del k m else put k v m

/-- Keys strictly rising, each above `lo`, no entry equal to its default. -/
def wfFrom {α : Type} [DecidableEq α] (d : Nat → α) : Nat → SMap α → Bool
  | _, [] => true
  | lo, (k, v) :: m => decide (lo ≤ k) && decide (v ≠ d k) && wfFrom d (k + 1) m

/-- The canonical form. -/
def wf {α : Type} [DecidableEq α] (d : Nat → α) (m : SMap α) : Bool := wfFrom d 0 m

/-- Change the value at `k` by `f`. -/
def upd {α : Type} [DecidableEq α] (d : Nat → α) (k : Nat) (f : α → α) (m : SMap α) : SMap α :=
  set d k (f (get d m k)) m

/-- Drop every entry whose key meets `p`: those keys then read as the default. -/
def erase {α : Type} (p : Nat → Bool) (m : SMap α) : SMap α := m.filter fun e => !p e.1

/-- Write each pair of the list in turn. -/
def setAll {α : Type} [DecidableEq α] (d : Nat → α) : List (Nat × α) → SMap α → SMap α
  | [], m => m
  | (k, v) :: r, m => setAll d r (set d k v m)

end SMap
end Sys2Proof.Machine
end

