-- ==== Sys2Proof/Machine/RegNames.lean ====
section
/-! DEFINITION. The registers and fields of the register map by the manual's names (the page chapters' register
tables, R463 for the page indices). `R.<PAGE>_<REGISTER>` is the BAR0 byte address (R407); an instanced page or
an arrayed register takes its instance first and its array index second. `F.<PAGE>_<REGISTER>_<FIELD>` is the
field's place in its word. -/

namespace Sys2Proof.Machine

/-- A field: the place of its lowest bit and its width. -/
structure Fld where
  lsb : Nat
  width : Nat
  deriving DecidableEq, Repr

namespace R

/-! ### TXG page (R63) -/
abbrev TXG_GRP_CTL (n : Nat) : Nat := 0x80040 + 0x1000 * n
abbrev TXG_GRP_STAT (n : Nat) : Nat := 0x80044 + 0x1000 * n
abbrev TXG_PAD_CNT (n : Nat) : Nat := 0x8004C + 0x1000 * n
abbrev TXG_TXL_EQ (n i : Nat) : Nat := 0x80080 + 0x1000 * n + 16 * i
abbrev TXG_TXL_CTL (n i : Nat) : Nat := 0x80084 + 0x1000 * n + 16 * i
abbrev TXG_TXL_INJ (n i : Nat) : Nat := 0x80088 + 0x1000 * n + 16 * i
abbrev TXG_TXL_USER (n i : Nat) : Nat := 0x8008C + 0x1000 * n + 16 * i

/-! ### RXG page (R64) -/
abbrev RXG_GRP_CTL (n : Nat) : Nat := 0x88040 + 0x1000 * n
abbrev RXG_GRP_STAT (n : Nat) : Nat := 0x88044 + 0x1000 * n
abbrev RXG_SPARE_CFG (n : Nat) : Nat := 0x88048 + 0x1000 * n
abbrev RXG_SPARE_CMD (n : Nat) : Nat := 0x8804C + 0x1000 * n
abbrev RXG_SPARE_STAT (n : Nat) : Nat := 0x88050 + 0x1000 * n
abbrev RXG_RXL_CTL (n i : Nat) : Nat := 0x88100 + 0x1000 * n + 64 * i
abbrev RXG_RXL_STAT (n i : Nat) : Nat := 0x88104 + 0x1000 * n + 64 * i
abbrev RXG_RXL_CTLE (n i : Nat) : Nat := 0x88108 + 0x1000 * n + 64 * i
abbrev RXG_RXL_DFE_A (n i : Nat) : Nat := 0x8810C + 0x1000 * n + 64 * i
abbrev RXG_RXL_DFE_B (n i : Nat) : Nat := 0x88110 + 0x1000 * n + 64 * i
abbrev RXG_RXL_DFE_C (n i : Nat) : Nat := 0x88114 + 0x1000 * n + 64 * i
abbrev RXG_RXL_ERR_LO (n i : Nat) : Nat := 0x88118 + 0x1000 * n + 64 * i
abbrev RXG_RXL_ERR_HI (n i : Nat) : Nat := 0x8811C + 0x1000 * n + 64 * i
abbrev RXG_RXL_CORR (n i : Nat) : Nat := 0x88120 + 0x1000 * n + 64 * i
abbrev RXG_RXL_EYE (n i : Nat) : Nat := 0x88124 + 0x1000 * n + 64 * i
abbrev RXG_RXL_MARGIN (n i : Nat) : Nat := 0x88128 + 0x1000 * n + 64 * i
abbrev RXG_RXL_MARGIN_CNT (n i : Nat) : Nat := 0x8812C + 0x1000 * n + 64 * i

/-! ### LINK page (R97) -/
abbrev LINK_LL_CTL : Nat := 0xE040
abbrev LINK_LL_STAT : Nat := 0xE044
abbrev LINK_LL_STAT2 : Nat := 0xE048
abbrev LINK_WIDTH_CTL : Nat := 0xE04C
abbrev LINK_WIDTH_STAT : Nat := 0xE050
abbrev LINK_GROUP_USABLE : Nat := 0xE054
abbrev LINK_FLITS_LO : Nat := 0xE060
abbrev LINK_FLITS_HI : Nat := 0xE064
abbrev LINK_CORR_FLITS : Nat := 0xE068
abbrev LINK_UNCORR_FLITS : Nat := 0xE06C
abbrev LINK_CRC_FAIL : Nat := 0xE070
abbrev LINK_NAK_SENT : Nat := 0xE074
abbrev LINK_DUP_FLITS : Nat := 0xE078
abbrev LINK_REPLAYS : Nat := 0xE07C
abbrev LINK_REPLAYED_FLITS : Nat := 0xE080
abbrev LINK_STALE_ACK : Nat := 0xE084
abbrev LINK_STALLS : Nat := 0xE088
abbrev LINK_RECOVERS : Nat := 0xE08C
abbrev LINK_RETRAINS : Nat := 0xE090
abbrev LINK_WIDTH_CHANGES : Nat := 0xE094
abbrev LINK_LL_INITS : Nat := 0xE098
abbrev LINK_CRED_ADV (i : Nat) : Nat := 0xE0C0 + 4 * i
abbrev LINK_CRED_TX (i : Nat) : Nat := 0xE0E0 + 4 * i

/-! ### XACT page (R131) -/
abbrev XACT_XACT_CTL : Nat := 0xF040
abbrev XACT_VIS_LIMIT : Nat := 0xF044
abbrev XACT_CFG_MID_EN_LO : Nat := 0xF048
abbrev XACT_CFG_MID_EN_HI : Nat := 0xF04C
abbrev XACT_XACT_STAT : Nat := 0xF050
abbrev XACT_EVT_SEQ : Nat := 0xF054
abbrev XACT_REQS_LO : Nat := 0xF060
abbrev XACT_REQS_HI : Nat := 0xF064
abbrev XACT_BAD_HDR : Nat := 0xF068
abbrev XACT_TAG_DUP : Nat := 0xF06C
abbrev XACT_MALFORMED : Nat := 0xF070
abbrev XACT_RANGE_ERR : Nat := 0xF074
abbrev XACT_WITHDRAWN_ERR : Nat := 0xF078
abbrev XACT_REFUSED : Nat := 0xF07C
abbrev XACT_POISON_RD : Nat := 0xF080
abbrev XACT_POISON_WR : Nat := 0xF084
abbrev XACT_POISON_NEW : Nat := 0xF088
abbrev XACT_FENCES : Nat := 0xF08C
abbrev XACT_EVT_SENT : Nat := 0xF090
abbrev XACT_EVT_DROPPED : Nat := 0xF094
abbrev XACT_CFG_DENIED : Nat := 0xF098
abbrev XACT_BAD_HDR_LO : Nat := 0xF0A0
abbrev XACT_BAD_HDR_HI : Nat := 0xF0A4

/-! ### PLACE page (R166) -/
abbrev PLACE_POL_CTL : Nat := 0xC040
abbrev PLACE_MIG_CTL : Nat := 0xC044
abbrev PLACE_MIG_CTL2 : Nat := 0xC048
abbrev PLACE_THERM_CTL : Nat := 0xC04C
abbrev PLACE_CACHE_CTL : Nat := 0xC050
abbrev PLACE_PIN_LIMIT : Nat := 0xC054
abbrev PLACE_SPARE_RES : Nat := 0xC058
abbrev PLACE_WDR_CTL : Nat := 0xC05C
abbrev PLACE_WDR_CMD : Nat := 0xC060
abbrev PLACE_LOC_QUERY : Nat := 0xC064
abbrev PLACE_LOC_RESULT : Nat := 0xC068
abbrev PLACE_LOC_RESULT2 : Nat := 0xC06C
abbrev PLACE_WDR_FIND : Nat := 0xC070
abbrev PLACE_WDR_FOUND : Nat := 0xC074
abbrev PLACE_CHAN_SEL : Nat := 0xC078
abbrev PLACE_CHAN_PARCELS : Nat := 0xC07C
abbrev PLACE_CHAN_HEAT : Nat := 0xC080
abbrev PLACE_PARCELS_PLACED : Nat := 0xC090
abbrev PLACE_PARCELS_RELEASED : Nat := 0xC094
abbrev PLACE_PARCELS_WITHDRAWN : Nat := 0xC098
abbrev PLACE_PARCELS_PINNED : Nat := 0xC09C
abbrev PLACE_FRAMES_FREE : Nat := 0xC0A0
abbrev PLACE_FRAMES_RETIRED : Nat := 0xC0A4
abbrev PLACE_EVAC_PENDING : Nat := 0xC0A8
abbrev PLACE_DEFICIT : Nat := 0xC0AC
abbrev PLACE_DEFICIT_TIMER : Nat := 0xC0B0
abbrev PLACE_MIG_ACTIVE : Nat := 0xC0B4
abbrev PLACE_MIGRATIONS : Nat := 0xC0C0
abbrev PLACE_EVACUATIONS : Nat := 0xC0C4
abbrev PLACE_MIG_ABORTS : Nat := 0xC0C8
abbrev PLACE_RECOPY_LINES : Nat := 0xC0CC
abbrev PLACE_PIN_MOVES : Nat := 0xC0D0
abbrev PLACE_EPOCH_OVERRUN : Nat := 0xC0D4
abbrev PLACE_TABLE_REPAIRS : Nat := 0xC0D8
abbrev PLACE_CKPTS : Nat := 0xC0DC
abbrev PLACE_JOURNAL_LO : Nat := 0xC0E0
abbrev PLACE_JOURNAL_HI : Nat := 0xC0E4
abbrev PLACE_EPOCH_LO : Nat := 0xC0E8
abbrev PLACE_EPOCH_HI : Nat := 0xC0EC
abbrev PLACE_JOURNAL_CTL : Nat := 0xC0F0
abbrev PLACE_KEEL_STAT : Nat := 0xC0F4

/-! ### CACHE page (R181) -/
abbrev CACHE_CACHE_CTL : Nat := 0xD040
abbrev CACHE_DIRTY_CTL : Nat := 0xD044
abbrev CACHE_BANK_MAP : Nat := 0xD048
abbrev CACHE_CACHE_STAT : Nat := 0xD04C
abbrev CACHE_DIRTY_LINES (i : Nat) : Nat := 0xD050 + 4 * i
abbrev CACHE_HITS_LO : Nat := 0xD080
abbrev CACHE_HITS_HI : Nat := 0xD084
abbrev CACHE_MISSES_LO : Nat := 0xD088
abbrev CACHE_MISSES_HI : Nat := 0xD08C
abbrev CACHE_FILLS : Nat := 0xD090
abbrev CACHE_WRITEBACKS : Nat := 0xD094
abbrev CACHE_EVICTIONS : Nat := 0xD098
abbrev CACHE_PREFETCHES : Nat := 0xD09C
abbrev CACHE_TAG_CORR : Nat := 0xD0A0
abbrev CACHE_TAG_REBUILT : Nat := 0xD0A4
abbrev CACHE_TAG_LOST : Nat := 0xD0A8
abbrev CACHE_DATA_CORR : Nat := 0xD0AC
abbrev CACHE_CLEAN_REFETCH : Nat := 0xD0B0
abbrev CACHE_DIRTY_POISONED : Nat := 0xD0B4
abbrev CACHE_MIG_FLUSHES : Nat := 0xD0B8

/-! ### CDIE page (R182) -/
abbrev CDIE_DIE_ID (i : Nat) : Nat := 0x1D0040 + 4 * i
abbrev CDIE_CDIE_STAT : Nat := 0x1D0050
abbrev CDIE_BANK_CMD : Nat := 0x1D0054
abbrev CDIE_BANK_STAT (i : Nat) : Nat := 0x1D0080 + 4 * i
abbrev CDIE_BANK_CORR (i : Nat) : Nat := 0x1D00C0 + 4 * i
abbrev CDIE_BANK_UNCORR (i : Nat) : Nat := 0x1D0100 + 4 * i
abbrev CDIE_BANK_TIMEOUTS (i : Nat) : Nat := 0x1D0140 + 4 * i

/-! ### CHC page (R208) -/
abbrev CHC_SCHED_CTL (n : Nat) : Nat := 0x100040 + 0x1000 * n
abbrev CHC_CHAN_MAP (n : Nat) : Nat := 0x100044 + 0x1000 * n
abbrev CHC_TIMING0 (n : Nat) : Nat := 0x100048 + 0x1000 * n
abbrev CHC_TIMING1 (n : Nat) : Nat := 0x10004C + 0x1000 * n
abbrev CHC_TIMING2 (n : Nat) : Nat := 0x100050 + 0x1000 * n
abbrev CHC_TIMING3 (n : Nat) : Nat := 0x100054 + 0x1000 * n
abbrev CHC_ECC_CTL (n : Nat) : Nat := 0x100058 + 0x1000 * n
abbrev CHC_QUEUE_STAT (n : Nat) : Nat := 0x100060 + 0x1000 * n
abbrev CHC_MODE_STAT (n : Nat) : Nat := 0x100064 + 0x1000 * n
abbrev CHC_BANK_SEL (n : Nat) : Nat := 0x100068 + 0x1000 * n
abbrev CHC_BANK_STATE (n : Nat) : Nat := 0x10006C + 0x1000 * n
abbrev CHC_READS_LO (n : Nat) : Nat := 0x100080 + 0x1000 * n
abbrev CHC_READS_HI (n : Nat) : Nat := 0x100084 + 0x1000 * n
abbrev CHC_WRITES_LO (n : Nat) : Nat := 0x100088 + 0x1000 * n
abbrev CHC_WRITES_HI (n : Nat) : Nat := 0x10008C + 0x1000 * n
abbrev CHC_ACTIVATES (n : Nat) : Nat := 0x100090 + 0x1000 * n
abbrev CHC_ROW_HITS (n : Nat) : Nat := 0x100094 + 0x1000 * n
abbrev CHC_CONFLICTS (n : Nat) : Nat := 0x100098 + 0x1000 * n
abbrev CHC_STREAK_CAPS (n : Nat) : Nat := 0x10009C + 0x1000 * n
abbrev CHC_URGENT (n : Nat) : Nat := 0x1000A0 + 0x1000 * n
abbrev CHC_WRITE_MODES (n : Nat) : Nat := 0x1000A4 + 0x1000 * n
abbrev CHC_FWD_READS (n : Nat) : Nat := 0x1000A8 + 0x1000 * n
abbrev CHC_ECC_CORR (n : Nat) : Nat := 0x1000AC + 0x1000 * n
abbrev CHC_ECC_UNCORR (n : Nat) : Nat := 0x1000B0 + 0x1000 * n
abbrev CHC_ECC_ADDR (n : Nat) : Nat := 0x1000B4 + 0x1000 * n
abbrev CHC_ECC_RETRY_OK (n : Nat) : Nat := 0x1000B8 + 0x1000 * n
abbrev CHC_PD_ENTRIES (n : Nat) : Nat := 0x1000BC + 0x1000 * n

/-! ### CHP page (R209) -/
abbrev CHP_PHY_CTL (n : Nat) : Nat := 0x140040 + 0x1000 * n
abbrev CHP_PHY_STAT (n : Nat) : Nat := 0x140044 + 0x1000 * n
abbrev CHP_TSV_REMAP (n i : Nat) : Nat := 0x140048 + 0x1000 * n + 4 * i
abbrev CHP_CA_REMAP (n i : Nat) : Nat := 0x140050 + 0x1000 * n + 4 * i
abbrev CHP_REMAP_CMD (n : Nat) : Nat := 0x140058 + 0x1000 * n
abbrev CHP_REMAP_STAT (n : Nat) : Nat := 0x14005C + 0x1000 * n
abbrev CHP_CAL_SEL (n : Nat) : Nat := 0x140060 + 0x1000 * n
abbrev CHP_CAL_VAL (n : Nat) : Nat := 0x140064 + 0x1000 * n
abbrev CHP_VREF (n i : Nat) : Nat := 0x140068 + 0x1000 * n + 4 * i
abbrev CHP_VREF2 (n i : Nat) : Nat := 0x140070 + 0x1000 * n + 4 * i
abbrev CHP_CAL_COUNT (n : Nat) : Nat := 0x140078 + 0x1000 * n
abbrev CHP_CAL_TIME_LO (n : Nat) : Nat := 0x14007C + 0x1000 * n
abbrev CHP_CAL_TIME_HI (n : Nat) : Nat := 0x140080 + 0x1000 * n
abbrev CHP_BANK_RET_LO (n i : Nat) : Nat := 0x140084 + 0x1000 * n + 8 * i
abbrev CHP_BANK_RET_HI (n i : Nat) : Nat := 0x140088 + 0x1000 * n + 8 * i
abbrev CHP_ROW_REPAIR_CMD (n : Nat) : Nat := 0x140094 + 0x1000 * n
abbrev CHP_ROW_REPAIR_STAT (n : Nat) : Nat := 0x140098 + 0x1000 * n
abbrev CHP_FAIL_MAP (n i : Nat) : Nat := 0x1400A0 + 0x1000 * n + 4 * i
abbrev CHP_FAIL_MAP2 (n i : Nat) : Nat := 0x1400A8 + 0x1000 * n + 4 * i
abbrev CHP_TSV_CORR_A (n i : Nat) : Nat := 0x140100 + 0x1000 * n + 4 * i
abbrev CHP_TSV_CORR_B (n i : Nat) : Nat := 0x140190 + 0x1000 * n + 4 * i

/-! ### DDIE page (R210) -/
abbrev DDIE_DIE_ID (n i : Nat) : Nat := 0x1C0040 + 0x1000 * n + 4 * i
abbrev DDIE_DIE_STAT (n : Nat) : Nat := 0x1C0050 + 0x1000 * n
abbrev DDIE_TRCD_DIE (n : Nat) : Nat := 0x1C0054 + 0x1000 * n
abbrev DDIE_MAPPED_OUT (n : Nat) : Nat := 0x1C0058 + 0x1000 * n
abbrev DDIE_CORR (n : Nat) : Nat := 0x1C0060 + 0x1000 * n
abbrev DDIE_UNCORR (n : Nat) : Nat := 0x1C0064 + 0x1000 * n
abbrev DDIE_ADDR_ERR (n : Nat) : Nat := 0x1C0068 + 0x1000 * n
abbrev DDIE_ROWS_REPAIRED (n : Nat) : Nat := 0x1C006C + 0x1000 * n

/-! ### RFM page (R224) -/
abbrev RFM_REF_CTL : Nat := 0x17040
abbrev RFM_RH_CTL : Nat := 0x17044
abbrev RFM_REF_STEP : Nat := 0x17048
abbrev RFM_TRK_SEL : Nat := 0x1704C
abbrev RFM_TRK_STAT : Nat := 0x17050
abbrev RFM_REF_LO : Nat := 0x17060
abbrev RFM_REF_HI : Nat := 0x17064
abbrev RFM_TNR_LO : Nat := 0x17068
abbrev RFM_TNR_HI : Nat := 0x1706C
abbrev RFM_REF_DUE : Nat := 0x17070
abbrev RFM_SPILL_TNR : Nat := 0x17074
abbrev RFM_SPILL_WINDOWS : Nat := 0x17078
abbrev RFM_TRACKER_ERR : Nat := 0x1707C

/-! ### SCRUB page (R225) -/
abbrev SCRUB_SCRUB_CTL : Nat := 0x16040
abbrev SCRUB_SCRUB_CMD : Nat := 0x16044
abbrev SCRUB_SCRUB_STAT : Nat := 0x16048
abbrev SCRUB_LAST_PASS_S : Nat := 0x1604C
abbrev SCRUB_PASSES : Nat := 0x16050
abbrev SCRUB_CACHE_PASSES : Nat := 0x16054
abbrev SCRUB_WORDS_LO : Nat := 0x16058
abbrev SCRUB_WORDS_HI : Nat := 0x1605C
abbrev SCRUB_CORRECTED : Nat := 0x16060
abbrev SCRUB_UNCORRECTABLE : Nat := 0x16064
abbrev SCRUB_FREE_REZEROED : Nat := 0x16068
abbrev SCRUB_KEEL_REPAIRED : Nat := 0x1606C
abbrev SCRUB_CACHE_CORRECTED : Nat := 0x16070
abbrev SCRUB_CACHE_INVALIDATED : Nat := 0x16074

/-! ### ENG page (R252) -/
abbrev ENG_ENG_CTL (n : Nat) : Nat := 0x180040 + 0x1000 * n
abbrev ENG_ENG_STAT (n : Nat) : Nat := 0x180044 + 0x1000 * n
abbrev ENG_CUR_WORK (n : Nat) : Nat := 0x180048 + 0x1000 * n
abbrev ENG_CUR_CHUNK (n : Nat) : Nat := 0x18004C + 0x1000 * n
abbrev ENG_CUR_TOTAL (n : Nat) : Nat := 0x180050 + 0x1000 * n
abbrev ENG_WORKS (n : Nat) : Nat := 0x180060 + 0x1000 * n
abbrev ENG_CHUNKS_LO (n : Nat) : Nat := 0x180064 + 0x1000 * n
abbrev ENG_CHUNKS_HI (n : Nat) : Nat := 0x180068 + 0x1000 * n
abbrev ENG_LINES_LO (n : Nat) : Nat := 0x18006C + 0x1000 * n
abbrev ENG_LINES_HI (n : Nat) : Nat := 0x180070 + 0x1000 * n
abbrev ENG_TAKEOVERS (n : Nat) : Nat := 0x180074 + 0x1000 * n
abbrev ENG_SCRATCH_CORR (n : Nat) : Nat := 0x180078 + 0x1000 * n
abbrev ENG_SCRATCH_UNCORR (n : Nat) : Nat := 0x18007C + 0x1000 * n
abbrev ENG_HANGS (n : Nat) : Nat := 0x180080 + 0x1000 * n

/-! ### QUAD page (R253) -/
abbrev QUAD_QUAD_CTL (n : Nat) : Nat := 0x40040 + 0x1000 * n
abbrev QUAD_WORK_STAT (n : Nat) : Nat := 0x40044 + 0x1000 * n
abbrev QUAD_CANCEL (n : Nat) : Nat := 0x40048 + 0x1000 * n
abbrev QUAD_CANCEL_STAT (n : Nat) : Nat := 0x4004C + 0x1000 * n
abbrev QUAD_ABORT_REC0 (n : Nat) : Nat := 0x40050 + 0x1000 * n
abbrev QUAD_ABORT_REC1 (n : Nat) : Nat := 0x40054 + 0x1000 * n
abbrev QUAD_ABORT_ELEM_LO (n : Nat) : Nat := 0x40058 + 0x1000 * n
abbrev QUAD_ABORT_ELEM_HI (n : Nat) : Nat := 0x4005C + 0x1000 * n
abbrev QUAD_ABORT_ADDR_LO (n : Nat) : Nat := 0x40060 + 0x1000 * n
abbrev QUAD_ABORT_ADDR_HI (n : Nat) : Nat := 0x40064 + 0x1000 * n
abbrev QUAD_WORKS_ACCEPTED (n : Nat) : Nat := 0x40080 + 0x1000 * n
abbrev QUAD_WORKS_DONE (n : Nat) : Nat := 0x40084 + 0x1000 * n
abbrev QUAD_WORKS_ABORTED (n : Nat) : Nat := 0x40088 + 0x1000 * n
abbrev QUAD_WORKS_STOPPED (n : Nat) : Nat := 0x4008C + 0x1000 * n
abbrev QUAD_TAKEOVERS (n : Nat) : Nat := 0x40090 + 0x1000 * n
abbrev QUAD_RECORDS_DISCARDED (n : Nat) : Nat := 0x40094 + 0x1000 * n
abbrev QUAD_PLANNED_MOVES (n : Nat) : Nat := 0x40098 + 0x1000 * n
abbrev QUAD_XQUAD_TAKEOVERS (n : Nat) : Nat := 0x4009C + 0x1000 * n
abbrev QUAD_SKIPPED (n : Nat) : Nat := 0x400A0 + 0x1000 * n

/-! ### BRIDLE page (R271) -/
abbrev BRIDLE_BR_CTL : Nat := 0xB040
abbrev BRIDLE_BR_STAT : Nat := 0xB044
abbrev BRIDLE_DELIV_DRAM : Nat := 0xB048
abbrev BRIDLE_DELIV_LINK : Nat := 0xB04C
abbrev BRIDLE_GUAR_CAP : Nat := 0xB050
abbrev BRIDLE_GUAR_SUM : Nat := 0xB054
abbrev BRIDLE_HOLD_CTL : Nat := 0xB058
abbrev BRIDLE_MID_SEL : Nat := 0xB05C
abbrev BRIDLE_MID_STAT : Nat := 0xB060
abbrev BRIDLE_MID_REMAIN : Nat := 0xB064
abbrev BRIDLE_TC_GUAR (i : Nat) : Nat := 0xB080 + 4 * i
abbrev BRIDLE_TC_LAT (i : Nat) : Nat := 0xB0A0 + 4 * i
abbrev BRIDLE_TC_HONOUR (i : Nat) : Nat := 0xB0C0 + 4 * i
abbrev BRIDLE_TC_RATE (i : Nat) : Nat := 0xB0E0 + 4 * i
abbrev BRIDLE_HOLDS : Nat := 0xB100
abbrev BRIDLE_HOLD_LIMITS : Nat := 0xB104
abbrev BRIDLE_REFUSED_REQS : Nat := 0xB108
abbrev BRIDLE_EXCESS_HOLDS : Nat := 0xB10C
abbrev BRIDLE_SHORT_ENTRIES : Nat := 0xB110
abbrev BRIDLE_LATE_REQS : Nat := 0xB114
abbrev BRIDLE_REG_CTL (i : Nat) : Nat := 0xB200 + 8 * i
abbrev BRIDLE_REG_BUDGET (i : Nat) : Nat := 0xB204 + 8 * i

/-! ### SIDE page (R272) -/
abbrev SIDE_PIN_CTL : Nat := 0x12040
abbrev SIDE_PIN_STAT : Nat := 0x12044
abbrev SIDE_URG_CFG (i : Nat) : Nat := 0x12050 + 4 * i
abbrev SIDE_URG_MAP_LO (i : Nat) : Nat := 0x12060 + 8 * i
abbrev SIDE_URG_MAP_HI (i : Nat) : Nat := 0x12064 + 8 * i
abbrev SIDE_ASSERTS (i : Nat) : Nat := 0x12080 + 4 * i
abbrev SIDE_GLITCHES (i : Nat) : Nat := 0x12090 + 4 * i
abbrev SIDE_STUCKS (i : Nat) : Nat := 0x120A0 + 4 * i

/-! ### FCOL page (R295) -/
abbrev FCOL_FC_CTL : Nat := 0x2040
abbrev FCOL_FC_STAT : Nat := 0x2044
abbrev FCOL_TS_LO : Nat := 0x2048
abbrev FCOL_TS_HI : Nat := 0x204C
abbrev FCOL_TS_SET_LO : Nat := 0x2050
abbrev FCOL_TS_SET_HI : Nat := 0x2054
abbrev FCOL_REACT_SEL : Nat := 0x2058
abbrev FCOL_REACT_VAL : Nat := 0x205C
abbrev FCOL_BKT_SEL : Nat := 0x2060
abbrev FCOL_BKT_CFG : Nat := 0x2064
abbrev FCOL_BKT_CFG2 : Nat := 0x2068
abbrev FCOL_KIND_SEL : Nat := 0x206C
abbrev FCOL_KIND_CFG : Nat := 0x2070
abbrev FCOL_RES_QUERY : Nat := 0x2074
abbrev FCOL_RES_LEVEL : Nat := 0x2078
abbrev FCOL_ALERT_CLR : Nat := 0x207C
abbrev FCOL_ALERT_PEND0 : Nat := 0x2080
abbrev FCOL_ALERT_PEND1 : Nat := 0x2084
abbrev FCOL_REC_SEL : Nat := 0x2088
abbrev FCOL_REC_SRC : Nat := 0x208C
abbrev FCOL_REC_MERGE : Nat := 0x2090
abbrev FCOL_REC_TS_LO : Nat := 0x2094
abbrev FCOL_REC_TS_HI : Nat := 0x2098
abbrev FCOL_REC_DETAIL (i : Nat) : Nat := 0x20A0 + 4 * i
abbrev FCOL_RAISES : Nat := 0x2100
abbrev FCOL_MERGES : Nat := 0x2104
abbrev FCOL_RECOVERIES : Nat := 0x2108
abbrev FCOL_DECLARATIONS : Nat := 0x210C
abbrev FCOL_RETESTS : Nat := 0x2110
abbrev FCOL_RETEST_FAILS : Nat := 0x2114
abbrev FCOL_RETEST_SKIPPED : Nat := 0x2118
abbrev FCOL_NMAS : Nat := 0x211C
abbrev FCOL_BLOCK_RESETS : Nat := 0x2120
abbrev FCOL_FAULT_RESETS : Nat := 0x2124
abbrev FCOL_OVERFLOWS : Nat := 0x2128
abbrev FCOL_ROW_EVICTS : Nat := 0x212C

/-! ### THERM page (R337) -/
abbrev THERM_THR_DRAM : Nat := 0x5040
abbrev THERM_THR_BASE : Nat := 0x5044
abbrev THERM_SUSPECT_CTL : Nat := 0x5048
abbrev THERM_SUSPECT_CTL2 : Nat := 0x504C
abbrev THERM_MODEL_CTL : Nat := 0x5050
abbrev THERM_THERM_STAT : Nat := 0x5054
abbrev THERM_THERM_STAT2 : Nat := 0x5058
abbrev THERM_NODE_SEL : Nat := 0x505C
abbrev THERM_NODE_VAL : Nat := 0x5060
abbrev THERM_NODE_VAL2 : Nat := 0x5064
abbrev THERM_SENSOR_SEL : Nat := 0x5068
abbrev THERM_SENSOR_VAL : Nat := 0x506C
abbrev THERM_LAYER_VENT (i : Nat) : Nat := 0x5080 + 4 * i
abbrev THERM_COEF_SEL : Nat := 0x50D0
abbrev THERM_COEF_VAL : Nat := 0x50D4
abbrev THERM_SUSPECT_ENTRIES : Nat := 0x50E0
abbrev THERM_BROKEN_ENTRIES : Nat := 0x50E4
abbrev THERM_THROTTLE_LO : Nat := 0x50E8
abbrev THERM_THROTTLE_HI : Nat := 0x50EC

/-! ### PWR page (R338) -/
abbrev PWR_CAP_CTL : Nat := 0x4040
abbrev PWR_DVFS_CTL : Nat := 0x4044
abbrev PWR_DVFS_STAT : Nat := 0x4048
abbrev PWR_PKG_POWER : Nat := 0x404C
abbrev PWR_CAP_STAT : Nat := 0x4050
abbrev PWR_MODEL_CORR : Nat := 0x4054
abbrev PWR_RAIL_MON (i : Nat) : Nat := 0x4060 + 4 * i
abbrev PWR_PD_ON (i : Nat) : Nat := 0x4080 + 4 * i
abbrev PWR_ENERGY_LO : Nat := 0x4090
abbrev PWR_ENERGY_HI : Nat := 0x4094
abbrev PWR_CAP_LIMITED_MS : Nat := 0x4098
abbrev PWR_TRANSITIONS : Nat := 0x409C
abbrev PWR_VDD_FAULTS : Nat := 0x40A0

/-! ### STACK page (R339) -/
abbrev STACK_WEAR_CTL : Nat := 0x13040
abbrev STACK_WEAR_STAT : Nat := 0x13044
abbrev STACK_IF_SEL : Nat := 0x13048
abbrev STACK_IF_DAMAGE_LO : Nat := 0x1304C
abbrev STACK_IF_DAMAGE_HI : Nat := 0x13050
abbrev STACK_IF_CYCLES : Nat := 0x13054
abbrev STACK_IF_NOW : Nat := 0x13058
abbrev STACK_IF_RESIDUE : Nat := 0x1305C
abbrev STACK_LIFE : Nat := 0x13060
abbrev STACK_AGE_LO : Nat := 0x13064
abbrev STACK_AGE_HI : Nat := 0x13068
abbrev STACK_SAVES : Nat := 0x1306C
abbrev STACK_SAVE_FAILS : Nat := 0x13070

/-! ### CLK page (R364) -/
abbrev CLK_CLK_CTL : Nat := 0x3040
abbrev CLK_CLK_STAT : Nat := 0x3044
abbrev CLK_XO_MEAS : Nat := 0x3048
abbrev CLK_MON_CTL : Nat := 0x304C
abbrev CLK_FMC_CTL : Nat := 0x3050
abbrev CLK_FMC_RESULT : Nat := 0x3054
abbrev CLK_RST_CMD : Nat := 0x3058
abbrev CLK_RESET_CAUSE : Nat := 0x305C
abbrev CLK_BOOT_STAT : Nat := 0x3060
abbrev CLK_BOOT_TIME : Nat := 0x3064
abbrev CLK_GATE_LAST : Nat := 0x3068
abbrev CLK_XO_TRIPS : Nat := 0x3070
abbrev CLK_LINK_CLK_TRIPS : Nat := 0x3074
abbrev CLK_DROGUE_ENTRIES : Nat := 0x3078
abbrev CLK_DROGUE_LAST_MS : Nat := 0x307C
abbrev CLK_GATE_DENIALS : Nat := 0x3080

/-! ### FUSE page (R386) -/
abbrev FUSE_DIE_ID (i : Nat) : Nat := 0x6040 + 4 * i
abbrev FUSE_SERIAL_LO : Nat := 0x6050
abbrev FUSE_SERIAL_HI : Nat := 0x6054
abbrev FUSE_LIFE_STAT : Nat := 0x6058
abbrev FUSE_SLOT_STAT : Nat := 0x605C
abbrev FUSE_INTEG_STAT : Nat := 0x6060
abbrev FUSE_MARGINAL_CNT : Nat := 0x6064
abbrev FUSE_CORR_WORDS : Nat := 0x6068
abbrev FUSE_READ_ADDR : Nat := 0x606C
abbrev FUSE_READ_DATA : Nat := 0x6070
abbrev FUSE_READ_STAT : Nat := 0x6074
abbrev FUSE_PROG_ADDR : Nat := 0x6078
abbrev FUSE_PROG_DATA : Nat := 0x607C
abbrev FUSE_PROG_CMD : Nat := 0x6080
abbrev FUSE_PROG_STAT : Nat := 0x6084
abbrev FUSE_APPEND_STAT : Nat := 0x6088
abbrev FUSE_REREADS : Nat := 0x608C
abbrev FUSE_DRIFTS : Nat := 0x6090
abbrev FUSE_PROG_WORDS : Nat := 0x6094
abbrev FUSE_VERIFY_FAILS : Nat := 0x6098

/-! ### LOCK page (R387) -/
abbrev LOCK_PROG_LOCK : Nat := 0x7040
abbrev LOCK_DBG_LOCK : Nat := 0x7044
abbrev LOCK_LOCK_STAT : Nat := 0x7048
abbrev LOCK_PAGE_LOCK (i : Nat) : Nat := 0x7080 + 4 * i

/-! ### SEC page (R388) -/
abbrev SEC_SEC_STAT : Nat := 0x15040
abbrev SEC_MIN_SVN : Nat := 0x15044
abbrev SEC_FW_MEAS (i : Nat) : Nat := 0x15080 + 4 * i
abbrev SEC_DEVID_DIGEST (i : Nat) : Nat := 0x150C0 + 4 * i
abbrev SEC_ZEROIZE_CNT : Nat := 0x15100
abbrev SEC_AUTH_FAILS : Nat := 0x15104
abbrev SEC_SIGNS : Nat := 0x15108

/-! ### BIST page (R404) -/
abbrev BIST_BIST_CTL : Nat := 0x8040
abbrev BIST_BIST_CMD : Nat := 0x8044
abbrev BIST_BIST_STAT : Nat := 0x8048
abbrev BIST_ADC_CTL : Nat := 0x804C
abbrev BIST_ROT_STAT (i : Nat) : Nat := 0x8050 + 4 * i
abbrev BIST_UNIT_SEL : Nat := 0x8060
abbrev BIST_UNIT_RESULT : Nat := 0x8064
abbrev BIST_UNIT_TIME_LO : Nat := 0x8068
abbrev BIST_UNIT_TIME_HI : Nat := 0x806C
abbrev BIST_SIG_LO : Nat := 0x8070
abbrev BIST_SIG_HI : Nat := 0x8074
abbrev BIST_BOOT_FAILS : Nat := 0x8078
abbrev BIST_SLICES : Nat := 0x80A0
abbrev BIST_SLICE_FAILS : Nat := 0x80A4
abbrev BIST_ABANDONED : Nat := 0x80A8
abbrev BIST_DEFERRED : Nat := 0x80AC
abbrev BIST_UNTESTED : Nat := 0x80B0
abbrev BIST_LOOP_RUNS : Nat := 0x80B4
abbrev BIST_LOOP_FAILS : Nat := 0x80B8
abbrev BIST_LOOP_SKIPPED : Nat := 0x80BC
abbrev BIST_CONT_RUNS : Nat := 0x80C0
abbrev BIST_CONT_FAILS : Nat := 0x80C4
abbrev BIST_ADC_BAD_ROUNDS : Nat := 0x80C8

/-! ### CAL page (R405) -/
abbrev CAL_CAL_BLK : Nat := 0x9040
abbrev CAL_CAL_IDX : Nat := 0x9044
abbrev CAL_CAL_DATA : Nat := 0x9048
abbrev CAL_CAL_CMD : Nat := 0x904C
abbrev CAL_CAL_STAT : Nat := 0x9050
abbrev CAL_CAL_COUNT : Nat := 0x9054
abbrev CAL_CAL_TIME_LO : Nat := 0x9058
abbrev CAL_CAL_TIME_HI : Nat := 0x905C
abbrev CAL_TOSC_CTL : Nat := 0x9060
abbrev CAL_TOSC_STAT : Nat := 0x9064
abbrev CAL_COMMITS : Nat := 0x9068
abbrev CAL_COMMIT_ERRORS : Nat := 0x906C

/-! ### DEV page (R425) -/
abbrev DEV_DEV_CTL : Nat := 0x40
abbrev DEV_ACC_ERR : Nat := 0x44
abbrev DEV_ACC_ERR_CNT : Nat := 0x48
abbrev DEV_SCRATCH (i : Nat) : Nat := 0x50 + 4 * i

/-! ### MGMT page (R426) -/
abbrev MGMT_MB_CMD (n : Nat) : Nat := 0x1040 + 0x140 * n
abbrev MGMT_MB_STAT (n : Nat) : Nat := 0x1044 + 0x140 * n
abbrev MGMT_MB_IN (n i : Nat) : Nat := 0x1080 + 0x140 * n + 4 * i
abbrev MGMT_MB_OUT (n i : Nat) : Nat := 0x1100 + 0x140 * n + 4 * i
abbrev MGMT_MB_IRQ : Nat := 0x12C0
abbrev MGMT_GONDOLA_STAT : Nat := 0x12C4
abbrev MGMT_COMMANDS : Nat := 0x12C8
abbrev MGMT_MB_REFUSED : Nat := 0x12CC

/-! ### PCIEM page (R427) -/
abbrev PCIEM_WIN_CTL : Nat := 0x10040
abbrev PCIEM_WIN_BASE : Nat := 0x10044
abbrev PCIEM_WIN_STAT : Nat := 0x10048
abbrev PCIEM_PCIE_STAT : Nat := 0x1004C
abbrev PCIEM_CFG_ID : Nat := 0x10050
abbrev PCIEM_WIN_READS : Nat := 0x10060
abbrev PCIEM_WIN_WRITES : Nat := 0x10064
abbrev PCIEM_WIN_ABORTS : Nat := 0x10068
abbrev PCIEM_WIN_POISON_RD : Nat := 0x1006C
abbrev PCIEM_WIN_POISON_DROP : Nat := 0x10070
abbrev PCIEM_MSIX_SENT : Nat := 0x10074
abbrev PCIEM_L1_ENTRIES : Nat := 0x10078

/-! ### SPI page (R428) -/
abbrev SPI_SPI_CTL : Nat := 0x11040
abbrev SPI_SPI_STAT : Nat := 0x11044
abbrev SPI_FLASH_ID : Nat := 0x11048
abbrev SPI_RAW_CMD : Nat := 0x1104C
abbrev SPI_RAW_ADDR : Nat := 0x11050
abbrev SPI_RAW_DATA (i : Nat) : Nat := 0x11080 + 4 * i
abbrev SPI_READ_KB : Nat := 0x110C0
abbrev SPI_PROGRAMS : Nat := 0x110C4
abbrev SPI_ERASES : Nat := 0x110C8
abbrev SPI_FLASH_ERRORS : Nat := 0x110CC
abbrev SPI_LOG_NEXT : Nat := 0x110D0

/-! ### HEALTH page (R429) -/
abbrev HEALTH_HEALTH_STAT : Nat := 0x14040
abbrev HEALTH_HEALTH_COND : Nat := 0x14044
abbrev HEALTH_REC_LANE : Nat := 0x14048
abbrev HEALTH_REC_CHAN : Nat := 0x1404C
abbrev HEALTH_REC_OTHER : Nat := 0x14050
abbrev HEALTH_LEND (i : Nat) : Nat := 0x14054 + 4 * i
abbrev HEALTH_UNAVAIL_LO : Nat := 0x14070
abbrev HEALTH_UNAVAIL_HI : Nat := 0x14074
abbrev HEALTH_UNAVAIL_EVENTS : Nat := 0x14078
abbrev HEALTH_LAST_UNAVAIL : Nat := 0x1407C
abbrev HEALTH_STATE_CHANGES : Nat := 0x14080
abbrev HEALTH_FIELD_REPAIRS : Nat := 0x14084

/-! ### PERF page (R443) -/
abbrev PERF_PERF_CTL : Nat := 0xA040
abbrev PERF_PERF_STAT : Nat := 0xA044
abbrev PERF_SNAP_TS_LO : Nat := 0xA048
abbrev PERF_SNAP_TS_HI : Nat := 0xA04C
abbrev PERF_SNAP_COUNT : Nat := 0xA050
abbrev PERF_PC_SEL : Nat := 0xA054
abbrev PERF_PC_CFG : Nat := 0xA058
abbrev PERF_PC_VAL_LO : Nat := 0xA05C
abbrev PERF_PC_VAL_HI : Nat := 0xA060
abbrev PERF_PC_SNAP_LO : Nat := 0xA064
abbrev PERF_PC_SNAP_HI : Nat := 0xA068
abbrev PERF_PC_CMD : Nat := 0xA06C
abbrev PERF_SAMP_CTL : Nat := 0xA080
abbrev PERF_SAMP_MID_LO : Nat := 0xA084
abbrev PERF_SAMP_MID_HI : Nat := 0xA088
abbrev PERF_SAMP_SEED : Nat := 0xA08C
abbrev PERF_RING_WR : Nat := 0xA090
abbrev PERF_RING_RD : Nat := 0xA094
abbrev PERF_RING_SEL : Nat := 0xA098
abbrev PERF_RING_SEL_STAT : Nat := 0xA09C
abbrev PERF_SAMPLES_LO : Nat := 0xA0A0
abbrev PERF_SAMPLES_HI : Nat := 0xA0A4
abbrev PERF_SAMP_LOST : Nat := 0xA0A8
abbrev PERF_SAMP_BUSY : Nat := 0xA0AC
abbrev PERF_USER_MAP (i : Nat) : Nat := 0xA0C0 + 4 * i
abbrev PERF_RING_WORD (i : Nat) : Nat := 0xA100 + 4 * i

/-! ### PERFU page (R444) -/
abbrev PERFU_USER_STAT : Nat := 0x200040
abbrev PERFU_USER_CMD : Nat := 0x200044
abbrev PERFU_SNAP_TS_LO : Nat := 0x200048
abbrev PERFU_SNAP_TS_HI : Nat := 0x20004C
abbrev PERFU_USER_VAL_LO (i : Nat) : Nat := 0x200080 + 8 * i
abbrev PERFU_USER_VAL_HI (i : Nat) : Nat := 0x200084 + 8 * i
abbrev PERFU_USER_SNAP_LO (i : Nat) : Nat := 0x200100 + 8 * i
abbrev PERFU_USER_SNAP_HI (i : Nat) : Nat := 0x200104 + 8 * i

/-! ### The common header (R408), of the page whose index is `pg` -/
abbrev PG_ID (pg : Nat) : Nat := 0x1000 * pg + 0x0
abbrev PG_VER (pg : Nat) : Nat := 0x1000 * pg + 0x4
abbrev PG_CAP (pg : Nat) : Nat := 0x1000 * pg + 0x8
abbrev PG_CTL (pg : Nat) : Nat := 0x1000 * pg + 0xC
abbrev PG_STAT (pg : Nat) : Nat := 0x1000 * pg + 0x10
abbrev PG_EVT_STAT (pg : Nat) : Nat := 0x1000 * pg + 0x14
abbrev PG_EVT_MASK (pg : Nat) : Nat := 0x1000 * pg + 0x18
abbrev PG_LOCK (pg : Nat) : Nat := 0x1000 * pg + 0x1C

end R

namespace F

/-! ### TXG page (R63) -/
abbrev TXG_GRP_CTL_PARK_ALLOW : Fld := ⟨0, 1⟩
abbrev TXG_GRP_CTL_RELEASE : Fld := ⟨1, 1⟩
abbrev TXG_GRP_CTL_LOCAL_TIMING : Fld := ⟨2, 1⟩
abbrev TXG_GRP_CTL_TEST_MODE : Fld := ⟨3, 1⟩
abbrev TXG_GRP_CTL_KEEPALIVE_MS : Fld := ⟨4, 4⟩
abbrev TXG_GRP_STAT_STATE : Fld := ⟨0, 4⟩
abbrev TXG_GRP_STAT_SPARE : Fld := ⟨4, 4⟩
abbrev TXG_GRP_STAT_RETIRED : Fld := ⟨8, 10⟩
abbrev TXG_GRP_STAT_PARKED : Fld := ⟨18, 1⟩
abbrev TXG_GRP_STAT_POWERED_OFF : Fld := ⟨19, 1⟩
abbrev TXG_GRP_STAT_LOOP_TIMED : Fld := ⟨20, 1⟩
abbrev TXG_GRP_STAT_SHADOW : Fld := ⟨21, 1⟩
abbrev TXG_PAD_CNT_COUNT : Fld := ⟨0, 32⟩
abbrev TXG_TXL_EQ_PRE2 : Fld := ⟨0, 3⟩
abbrev TXG_TXL_EQ_PRE1 : Fld := ⟨8, 5⟩
abbrev TXG_TXL_EQ_MAIN : Fld := ⟨16, 6⟩
abbrev TXG_TXL_EQ_POST1 : Fld := ⟨24, 5⟩
abbrev TXG_TXL_CTL_POL_INV : Fld := ⟨0, 1⟩
abbrev TXG_TXL_CTL_PATSEL : Fld := ⟨1, 3⟩
abbrev TXG_TXL_CTL_PAT_EN : Fld := ⟨4, 1⟩
abbrev TXG_TXL_CTL_FAR_LOOP : Fld := ⟨5, 1⟩
abbrev TXG_TXL_CTL_EQ_OVR : Fld := ⟨6, 1⟩
abbrev TXG_TXL_INJ_INJ_ONE : Fld := ⟨0, 1⟩
abbrev TXG_TXL_INJ_INJ_BURST : Fld := ⟨1, 1⟩
abbrev TXG_TXL_INJ_BURST_LEN : Fld := ⟨2, 6⟩
abbrev TXG_TXL_USER_PATTERN : Fld := ⟨0, 32⟩

/-! ### RXG page (R64) -/
abbrev RXG_GRP_CTL_PARK_ALLOW : Fld := ⟨0, 1⟩
abbrev RXG_GRP_CTL_RELEASE : Fld := ⟨1, 1⟩
abbrev RXG_GRP_CTL_ADAPT_FREEZE : Fld := ⟨2, 1⟩
abbrev RXG_GRP_CTL_ADAPT_STEP : Fld := ⟨3, 4⟩
abbrev RXG_GRP_CTL_CTLE_TRACK : Fld := ⟨7, 1⟩
abbrev RXG_GRP_STAT_STATE : Fld := ⟨0, 4⟩
abbrev RXG_GRP_STAT_SPARE : Fld := ⟨4, 4⟩
abbrev RXG_GRP_STAT_RETIRED : Fld := ⟨8, 10⟩
abbrev RXG_GRP_STAT_MARKER_LOCK : Fld := ⟨18, 1⟩
abbrev RXG_GRP_STAT_PARKED : Fld := ⟨19, 1⟩
abbrev RXG_GRP_STAT_STALE : Fld := ⟨20, 1⟩
abbrev RXG_GRP_STAT_CLK_REF : Fld := ⟨21, 1⟩
abbrev RXG_GRP_STAT_SKEW_UI : Fld := ⟨24, 8⟩
abbrev RXG_SPARE_CFG_SPARE_LANE : Fld := ⟨0, 4⟩
abbrev RXG_SPARE_CMD_START : Fld := ⟨0, 1⟩
abbrev RXG_SPARE_CMD_LANE : Fld := ⟨1, 4⟩
abbrev RXG_SPARE_CMD_ABORT : Fld := ⟨5, 1⟩
abbrev RXG_SPARE_STAT_PHASE : Fld := ⟨0, 4⟩
abbrev RXG_SPARE_STAT_LANE : Fld := ⟨4, 4⟩
abbrev RXG_SPARE_STAT_MISMATCH : Fld := ⟨8, 16⟩
abbrev RXG_RXL_CTL_POL_INV : Fld := ⟨0, 1⟩
abbrev RXG_RXL_CTL_PATSEL : Fld := ⟨1, 3⟩
abbrev RXG_RXL_CTL_CHK_EN : Fld := ⟨4, 1⟩
abbrev RXG_RXL_CTL_NEAR_LOOP : Fld := ⟨5, 1⟩
abbrev RXG_RXL_CTL_DFE_OVR : Fld := ⟨6, 1⟩
abbrev RXG_RXL_CTL_CTLE_OVR : Fld := ⟨7, 1⟩
abbrev RXG_RXL_STAT_CDR_LOCK : Fld := ⟨0, 1⟩
abbrev RXG_RXL_STAT_MARK_LOCK : Fld := ⟨1, 1⟩
abbrev RXG_RXL_STAT_SHADOW : Fld := ⟨2, 1⟩
abbrev RXG_RXL_STAT_RETIRED : Fld := ⟨3, 1⟩
abbrev RXG_RXL_STAT_SPARE : Fld := ⟨4, 1⟩
abbrev RXG_RXL_STAT_CHK_SYNC : Fld := ⟨5, 1⟩
abbrev RXG_RXL_STAT_LANE_ID : Fld := ⟨8, 8⟩
abbrev RXG_RXL_STAT_SKEW : Fld := ⟨16, 8⟩
abbrev RXG_RXL_CTLE_PEAK : Fld := ⟨0, 4⟩
abbrev RXG_RXL_CTLE_GAIN : Fld := ⟨8, 4⟩
abbrev RXG_RXL_DFE_A_TAPS_1_4 : Fld := ⟨0, 32⟩
abbrev RXG_RXL_DFE_B_TAPS_5_8 : Fld := ⟨0, 32⟩
abbrev RXG_RXL_DFE_C_TAPS_9_12 : Fld := ⟨0, 32⟩
abbrev RXG_RXL_ERR_LO_ERR_LO : Fld := ⟨0, 32⟩
abbrev RXG_RXL_ERR_HI_ERR_HI : Fld := ⟨0, 32⟩
abbrev RXG_RXL_CORR_CORR : Fld := ⟨0, 32⟩
abbrev RXG_RXL_EYE_UPPER : Fld := ⟨0, 8⟩
abbrev RXG_RXL_EYE_MIDDLE : Fld := ⟨8, 8⟩
abbrev RXG_RXL_EYE_LOWER : Fld := ⟨16, 8⟩
abbrev RXG_RXL_EYE_WIDTH : Fld := ⟨24, 6⟩
abbrev RXG_RXL_MARGIN_START : Fld := ⟨0, 1⟩
abbrev RXG_RXL_MARGIN_VOFF : Fld := ⟨1, 8⟩
abbrev RXG_RXL_MARGIN_HOFF : Fld := ⟨9, 7⟩
abbrev RXG_RXL_MARGIN_EYE : Fld := ⟨16, 2⟩
abbrev RXG_RXL_MARGIN_DWELL : Fld := ⟨18, 6⟩
abbrev RXG_RXL_MARGIN_DONE : Fld := ⟨31, 1⟩
abbrev RXG_RXL_MARGIN_CNT_ERRORS : Fld := ⟨0, 32⟩

/-! ### LINK page (R97) -/
abbrev LINK_LL_CTL_RETRAIN : Fld := ⟨0, 1⟩
abbrev LINK_LL_CTL_RECOVER : Fld := ⟨1, 1⟩
abbrev LINK_LL_CTL_LL_RESET : Fld := ⟨2, 1⟩
abbrev LINK_LL_CTL_REPLAY_HOLD : Fld := ⟨4, 12⟩
abbrev LINK_LL_CTL_REPLAY_MAX : Fld := ⟨16, 4⟩
abbrev LINK_LL_CTL_ACK_TIMEOUT : Fld := ⟨20, 12⟩
abbrev LINK_LL_STAT_LINK_STATE : Fld := ⟨0, 4⟩
abbrev LINK_LL_STAT_RX_STATE : Fld := ⟨4, 2⟩
abbrev LINK_LL_STAT_TX_STATE : Fld := ⟨6, 2⟩
abbrev LINK_LL_STAT_TX_SEQ : Fld := ⟨8, 12⟩
abbrev LINK_LL_STAT_RX_SEQ : Fld := ⟨20, 12⟩
abbrev LINK_LL_STAT2_ACK_SEQ : Fld := ⟨0, 12⟩
abbrev LINK_LL_STAT2_STORED : Fld := ⟨12, 12⟩
abbrev LINK_LL_STAT2_CRED_CFG_BAD : Fld := ⟨24, 1⟩
abbrev LINK_LL_STAT2_ERR_CAUSE : Fld := ⟨25, 3⟩
abbrev LINK_WIDTH_CTL_RX_TARGET : Fld := ⟨0, 2⟩
abbrev LINK_WIDTH_CTL_TX_TARGET : Fld := ⟨2, 2⟩
abbrev LINK_WIDTH_CTL_RX_AUTO : Fld := ⟨4, 1⟩
abbrev LINK_WIDTH_CTL_TX_AUTO : Fld := ⟨5, 1⟩
abbrev LINK_WIDTH_CTL_AUTO_LOW : Fld := ⟨6, 7⟩
abbrev LINK_WIDTH_CTL_AUTO_HIGH : Fld := ⟨13, 7⟩
abbrev LINK_WIDTH_CTL_AUTO_WINDOW : Fld := ⟨20, 4⟩
abbrev LINK_WIDTH_CTL_HOST_REQ_EN : Fld := ⟨24, 1⟩
abbrev LINK_WIDTH_STAT_RX_STEP : Fld := ⟨0, 2⟩
abbrev LINK_WIDTH_STAT_TX_STEP : Fld := ⟨2, 2⟩
abbrev LINK_WIDTH_STAT_HOST_FLOOR_RX : Fld := ⟨4, 2⟩
abbrev LINK_WIDTH_STAT_HOST_FLOOR_TX : Fld := ⟨6, 2⟩
abbrev LINK_WIDTH_STAT_RX_BUSY : Fld := ⟨8, 1⟩
abbrev LINK_WIDTH_STAT_TX_BUSY : Fld := ⟨9, 1⟩
abbrev LINK_WIDTH_STAT_RX_GROUPS : Fld := ⟨16, 8⟩
abbrev LINK_WIDTH_STAT_TX_GROUPS : Fld := ⟨24, 8⟩
abbrev LINK_GROUP_USABLE_RX_USABLE : Fld := ⟨0, 8⟩
abbrev LINK_GROUP_USABLE_TX_USABLE : Fld := ⟨8, 8⟩
abbrev LINK_FLITS_LO_FLITS_LO : Fld := ⟨0, 32⟩
abbrev LINK_FLITS_HI_FLITS_HI : Fld := ⟨0, 32⟩
abbrev LINK_CORR_FLITS_COUNT : Fld := ⟨0, 32⟩
abbrev LINK_UNCORR_FLITS_COUNT : Fld := ⟨0, 32⟩
abbrev LINK_CRC_FAIL_COUNT : Fld := ⟨0, 32⟩
abbrev LINK_NAK_SENT_COUNT : Fld := ⟨0, 32⟩
abbrev LINK_DUP_FLITS_COUNT : Fld := ⟨0, 32⟩
abbrev LINK_REPLAYS_COUNT : Fld := ⟨0, 32⟩
abbrev LINK_REPLAYED_FLITS_COUNT : Fld := ⟨0, 32⟩
abbrev LINK_STALE_ACK_COUNT : Fld := ⟨0, 32⟩
abbrev LINK_STALLS_COUNT : Fld := ⟨0, 32⟩
abbrev LINK_RECOVERS_COUNT : Fld := ⟨0, 32⟩
abbrev LINK_RETRAINS_COUNT : Fld := ⟨0, 32⟩
abbrev LINK_WIDTH_CHANGES_COUNT : Fld := ⟨0, 32⟩
abbrev LINK_LL_INITS_COUNT : Fld := ⟨0, 32⟩
abbrev LINK_CRED_ADV_HDR : Fld := ⟨0, 14⟩
abbrev LINK_CRED_ADV_DATA : Fld := ⟨16, 14⟩
abbrev LINK_CRED_TX_HDR : Fld := ⟨0, 16⟩
abbrev LINK_CRED_TX_DATA : Fld := ⟨16, 16⟩

/-! ### XACT page (R131) -/
abbrev XACT_XACT_CTL_CFG_EN : Fld := ⟨0, 1⟩
abbrev XACT_XACT_CTL_EVT_EN : Fld := ⟨1, 1⟩
abbrev XACT_XACT_CTL_EVT_TC : Fld := ⟨2, 3⟩
abbrev XACT_XACT_CTL_TAG_CHECK : Fld := ⟨5, 1⟩
abbrev XACT_VIS_LIMIT_LIMIT : Fld := ⟨0, 31⟩
abbrev XACT_CFG_MID_EN_LO_MIDS_LO : Fld := ⟨0, 32⟩
abbrev XACT_CFG_MID_EN_HI_MIDS_HI : Fld := ⟨0, 32⟩
abbrev XACT_XACT_STAT_TAGS_OUT : Fld := ⟨0, 13⟩
abbrev XACT_XACT_STAT_EVT_QUEUED : Fld := ⟨13, 7⟩
abbrev XACT_XACT_STAT_RSP_CREDIT_WAIT : Fld := ⟨20, 1⟩
abbrev XACT_EVT_SEQ_NEXT : Fld := ⟨0, 12⟩
abbrev XACT_REQS_LO_REQS_LO : Fld := ⟨0, 32⟩
abbrev XACT_REQS_HI_REQS_HI : Fld := ⟨0, 32⟩
abbrev XACT_BAD_HDR_COUNT : Fld := ⟨0, 32⟩
abbrev XACT_TAG_DUP_COUNT : Fld := ⟨0, 32⟩
abbrev XACT_MALFORMED_COUNT : Fld := ⟨0, 32⟩
abbrev XACT_RANGE_ERR_COUNT : Fld := ⟨0, 32⟩
abbrev XACT_WITHDRAWN_ERR_COUNT : Fld := ⟨0, 32⟩
abbrev XACT_REFUSED_COUNT : Fld := ⟨0, 32⟩
abbrev XACT_POISON_RD_COUNT : Fld := ⟨0, 32⟩
abbrev XACT_POISON_WR_COUNT : Fld := ⟨0, 32⟩
abbrev XACT_POISON_NEW_COUNT : Fld := ⟨0, 32⟩
abbrev XACT_FENCES_COUNT : Fld := ⟨0, 32⟩
abbrev XACT_EVT_SENT_COUNT : Fld := ⟨0, 32⟩
abbrev XACT_EVT_DROPPED_COUNT : Fld := ⟨0, 32⟩
abbrev XACT_CFG_DENIED_COUNT : Fld := ⟨0, 32⟩
abbrev XACT_BAD_HDR_LO_HDR_LO : Fld := ⟨0, 32⟩
abbrev XACT_BAD_HDR_HI_HDR_HI : Fld := ⟨0, 32⟩

/-! ### PLACE page (R166) -/
abbrev PLACE_POL_CTL_POLICY_EN : Fld := ⟨0, 1⟩
abbrev PLACE_POL_CTL_THERM_EN : Fld := ⟨1, 1⟩
abbrev PLACE_POL_CTL_BAL_EN : Fld := ⟨2, 1⟩
abbrev PLACE_POL_CTL_CACHE_EN : Fld := ⟨3, 1⟩
abbrev PLACE_POL_CTL_HEAT_SAMPLE : Fld := ⟨4, 4⟩
abbrev PLACE_POL_CTL_MOVES_MAX : Fld := ⟨8, 9⟩
abbrev PLACE_POL_CTL_BAL_PCT : Fld := ⟨17, 7⟩
abbrev PLACE_MIG_CTL_MIG_BW_PCT : Fld := ⟨0, 7⟩
abbrev PLACE_MIG_CTL_EVAC_BW_PCT : Fld := ⟨7, 7⟩
abbrev PLACE_MIG_CTL_EVAC_MIN_PCT : Fld := ⟨14, 4⟩
abbrev PLACE_MIG_CTL_RECOPY_MAX : Fld := ⟨18, 4⟩
abbrev PLACE_MIG_CTL_CLOSE_LINES : Fld := ⟨22, 10⟩
abbrev PLACE_MIG_CTL2_CLOSE_MAX : Fld := ⟨0, 12⟩
abbrev PLACE_MIG_CTL2_MIG_SLOTS : Fld := ⟨12, 7⟩
abbrev PLACE_THERM_CTL_WARM_C : Fld := ⟨0, 8⟩
abbrev PLACE_THERM_CTL_COOL_C : Fld := ⟨8, 8⟩
abbrev PLACE_CACHE_CTL_CACHE_ON : Fld := ⟨0, 8⟩
abbrev PLACE_CACHE_CTL_CACHE_OFF : Fld := ⟨8, 8⟩
abbrev PLACE_PIN_LIMIT_LIMIT : Fld := ⟨0, 21⟩
abbrev PLACE_SPARE_RES_RESERVE : Fld := ⟨0, 16⟩
abbrev PLACE_WDR_CTL_GRACE_MS : Fld := ⟨0, 16⟩
abbrev PLACE_WDR_CTL_AUTO_WDR : Fld := ⟨16, 1⟩
abbrev PLACE_WDR_CMD_PARCEL : Fld := ⟨0, 21⟩
abbrev PLACE_WDR_CMD_COUNT : Fld := ⟨21, 10⟩
abbrev PLACE_WDR_CMD_REINSTATE : Fld := ⟨31, 1⟩
abbrev PLACE_LOC_QUERY_PARCEL : Fld := ⟨0, 21⟩
abbrev PLACE_LOC_RESULT_ENTRY : Fld := ⟨0, 28⟩
abbrev PLACE_LOC_RESULT_DONE : Fld := ⟨31, 1⟩
abbrev PLACE_LOC_RESULT2_HEAT : Fld := ⟨0, 8⟩
abbrev PLACE_LOC_RESULT2_CHANNEL : Fld := ⟨8, 5⟩
abbrev PLACE_LOC_RESULT2_PCH : Fld := ⟨13, 1⟩
abbrev PLACE_LOC_RESULT2_DIE : Fld := ⟨14, 4⟩
abbrev PLACE_LOC_RESULT2_BANK : Fld := ⟨18, 4⟩
abbrev PLACE_LOC_RESULT2_SLOT : Fld := ⟨22, 9⟩
abbrev PLACE_WDR_FIND_START : Fld := ⟨0, 21⟩
abbrev PLACE_WDR_FOUND_PARCEL : Fld := ⟨0, 21⟩
abbrev PLACE_WDR_FOUND_NONE : Fld := ⟨30, 1⟩
abbrev PLACE_WDR_FOUND_DONE : Fld := ⟨31, 1⟩
abbrev PLACE_CHAN_SEL_CHANNEL : Fld := ⟨0, 5⟩
abbrev PLACE_CHAN_PARCELS_COUNT : Fld := ⟨0, 17⟩
abbrev PLACE_CHAN_HEAT_SUM : Fld := ⟨0, 24⟩
abbrev PLACE_PARCELS_PLACED_COUNT : Fld := ⟨0, 21⟩
abbrev PLACE_PARCELS_RELEASED_COUNT : Fld := ⟨0, 21⟩
abbrev PLACE_PARCELS_WITHDRAWN_COUNT : Fld := ⟨0, 21⟩
abbrev PLACE_PARCELS_PINNED_COUNT : Fld := ⟨0, 21⟩
abbrev PLACE_FRAMES_FREE_COUNT : Fld := ⟨0, 22⟩
abbrev PLACE_FRAMES_RETIRED_COUNT : Fld := ⟨0, 22⟩
abbrev PLACE_EVAC_PENDING_COUNT : Fld := ⟨0, 22⟩
abbrev PLACE_DEFICIT_COUNT : Fld := ⟨0, 22⟩
abbrev PLACE_DEFICIT_OPEN : Fld := ⟨31, 1⟩
abbrev PLACE_DEFICIT_TIMER_MS : Fld := ⟨0, 16⟩
abbrev PLACE_MIG_ACTIVE_SLOTS : Fld := ⟨0, 7⟩
abbrev PLACE_MIGRATIONS_COUNT : Fld := ⟨0, 32⟩
abbrev PLACE_EVACUATIONS_COUNT : Fld := ⟨0, 32⟩
abbrev PLACE_MIG_ABORTS_COUNT : Fld := ⟨0, 32⟩
abbrev PLACE_RECOPY_LINES_COUNT : Fld := ⟨0, 32⟩
abbrev PLACE_PIN_MOVES_COUNT : Fld := ⟨0, 32⟩
abbrev PLACE_EPOCH_OVERRUN_COUNT : Fld := ⟨0, 32⟩
abbrev PLACE_TABLE_REPAIRS_COUNT : Fld := ⟨0, 32⟩
abbrev PLACE_CKPTS_COUNT : Fld := ⟨0, 32⟩
abbrev PLACE_JOURNAL_LO_JOURNAL_LO : Fld := ⟨0, 32⟩
abbrev PLACE_JOURNAL_HI_JOURNAL_HI : Fld := ⟨0, 32⟩
abbrev PLACE_EPOCH_LO_EPOCH_LO : Fld := ⟨0, 32⟩
abbrev PLACE_EPOCH_HI_EPOCH_HI : Fld := ⟨0, 32⟩
abbrev PLACE_JOURNAL_CTL_CKPT_S : Fld := ⟨0, 16⟩
abbrev PLACE_JOURNAL_CTL_CKPT_NOW : Fld := ⟨16, 1⟩
abbrev PLACE_KEEL_STAT_MIRROR_A_OK : Fld := ⟨0, 1⟩
abbrev PLACE_KEEL_STAT_MIRROR_B_OK : Fld := ⟨1, 1⟩
abbrev PLACE_KEEL_STAT_RELOCATING : Fld := ⟨2, 1⟩
abbrev PLACE_KEEL_STAT_RETAINED : Fld := ⟨3, 1⟩
abbrev PLACE_KEEL_STAT_VIS_CAP : Fld := ⟨4, 2⟩

/-! ### CACHE page (R181) -/
abbrev CACHE_CACHE_CTL_ENABLE : Fld := ⟨0, 1⟩
abbrev CACHE_CACHE_CTL_CLEAN_EN : Fld := ⟨1, 1⟩
abbrev CACHE_CACHE_CTL_NOCACHE_FLUSH : Fld := ⟨2, 1⟩
abbrev CACHE_CACHE_CTL_FLUSH : Fld := ⟨3, 1⟩
abbrev CACHE_CACHE_CTL_INVALIDATE : Fld := ⟨4, 1⟩
abbrev CACHE_CACHE_CTL_BG_BW_PCT : Fld := ⟨8, 4⟩
abbrev CACHE_CACHE_CTL_BANK_TIMEOUT : Fld := ⟨16, 8⟩
abbrev CACHE_DIRTY_CTL_DIRTY_HIGH : Fld := ⟨0, 10⟩
abbrev CACHE_DIRTY_CTL_DIRTY_LOW : Fld := ⟨16, 10⟩
abbrev CACHE_BANK_MAP_ACTIVE : Fld := ⟨0, 16⟩
abbrev CACHE_BANK_MAP_RETIRED : Fld := ⟨16, 16⟩
abbrev CACHE_CACHE_STAT_ENABLED : Fld := ⟨0, 1⟩
abbrev CACHE_CACHE_STAT_FLUSHING : Fld := ⟨1, 1⟩
abbrev CACHE_CACHE_STAT_DIE_RETIRED : Fld := ⟨2, 1⟩
abbrev CACHE_CACHE_STAT_PD_OFF : Fld := ⟨3, 1⟩
abbrev CACHE_DIRTY_LINES_COUNT : Fld := ⟨0, 21⟩
abbrev CACHE_HITS_LO_HITS_LO : Fld := ⟨0, 32⟩
abbrev CACHE_HITS_HI_HITS_HI : Fld := ⟨0, 32⟩
abbrev CACHE_MISSES_LO_MISSES_LO : Fld := ⟨0, 32⟩
abbrev CACHE_MISSES_HI_MISSES_HI : Fld := ⟨0, 32⟩
abbrev CACHE_FILLS_COUNT : Fld := ⟨0, 32⟩
abbrev CACHE_WRITEBACKS_COUNT : Fld := ⟨0, 32⟩
abbrev CACHE_EVICTIONS_COUNT : Fld := ⟨0, 32⟩
abbrev CACHE_PREFETCHES_COUNT : Fld := ⟨0, 32⟩
abbrev CACHE_TAG_CORR_COUNT : Fld := ⟨0, 32⟩
abbrev CACHE_TAG_REBUILT_COUNT : Fld := ⟨0, 32⟩
abbrev CACHE_TAG_LOST_COUNT : Fld := ⟨0, 32⟩
abbrev CACHE_DATA_CORR_COUNT : Fld := ⟨0, 32⟩
abbrev CACHE_CLEAN_REFETCH_COUNT : Fld := ⟨0, 32⟩
abbrev CACHE_DIRTY_POISONED_COUNT : Fld := ⟨0, 32⟩
abbrev CACHE_MIG_FLUSHES_COUNT : Fld := ⟨0, 32⟩

/-! ### CDIE page (R182) -/
abbrev CDIE_DIE_ID_IDENT : Fld := ⟨0, 32⟩
abbrev CDIE_CDIE_STAT_RESPONDING : Fld := ⟨0, 1⟩
abbrev CDIE_CDIE_STAT_RETIRED : Fld := ⟨1, 1⟩
abbrev CDIE_BANK_CMD_BANK : Fld := ⟨0, 4⟩
abbrev CDIE_BANK_CMD_RETIRE : Fld := ⟨4, 1⟩
abbrev CDIE_BANK_STAT_STATE : Fld := ⟨0, 2⟩
abbrev CDIE_BANK_STAT_MAPPED_OUT : Fld := ⟨2, 1⟩
abbrev CDIE_BANK_CORR_COUNT : Fld := ⟨0, 32⟩
abbrev CDIE_BANK_UNCORR_COUNT : Fld := ⟨0, 32⟩
abbrev CDIE_BANK_TIMEOUTS_COUNT : Fld := ⟨0, 32⟩

/-! ### CHC page (R208) -/
abbrev CHC_SCHED_CTL_STREAK_MAX : Fld := ⟨0, 5⟩
abbrev CHC_SCHED_CTL_WR_HIGH : Fld := ⟨8, 6⟩
abbrev CHC_SCHED_CTL_WR_LOW : Fld := ⟨14, 6⟩
abbrev CHC_SCHED_CTL_URG_LEVEL : Fld := ⟨20, 2⟩
abbrev CHC_SCHED_CTL_PD_EN : Fld := ⟨22, 1⟩
abbrev CHC_SCHED_CTL_PD_IDLE : Fld := ⟨23, 8⟩
abbrev CHC_CHAN_MAP_CHANNEL : Fld := ⟨0, 5⟩
abbrev CHC_CHAN_MAP_ACTIVE : Fld := ⟨5, 1⟩
abbrev CHC_CHAN_MAP_SWAPPING : Fld := ⟨6, 1⟩
abbrev CHC_TIMING0_TRL : Fld := ⟨0, 6⟩
abbrev CHC_TIMING0_TWL : Fld := ⟨8, 6⟩
abbrev CHC_TIMING0_TRCDW : Fld := ⟨16, 6⟩
abbrev CHC_TIMING0_TRP : Fld := ⟨24, 6⟩
abbrev CHC_TIMING1_TRAS : Fld := ⟨0, 7⟩
abbrev CHC_TIMING1_TRC : Fld := ⟨8, 7⟩
abbrev CHC_TIMING1_TRTP : Fld := ⟨16, 4⟩
abbrev CHC_TIMING1_TWR : Fld := ⟨24, 5⟩
abbrev CHC_TIMING2_TRRD : Fld := ⟨0, 4⟩
abbrev CHC_TIMING2_TFAW : Fld := ⟨8, 5⟩
abbrev CHC_TIMING2_TWTR : Fld := ⟨16, 4⟩
abbrev CHC_TIMING2_TRDWR : Fld := ⟨20, 4⟩
abbrev CHC_TIMING2_TWRRD : Fld := ⟨24, 4⟩
abbrev CHC_TIMING3_TRFCPB : Fld := ⟨0, 9⟩
abbrev CHC_TIMING3_TXP : Fld := ⟨12, 4⟩
abbrev CHC_TIMING3_TXS : Fld := ⟨16, 12⟩
abbrev CHC_ECC_CTL_CORR_MAX : Fld := ⟨0, 2⟩
abbrev CHC_ECC_CTL_RETRY_EN : Fld := ⟨2, 1⟩
abbrev CHC_QUEUE_STAT_RDQ_A : Fld := ⟨0, 7⟩
abbrev CHC_QUEUE_STAT_RDQ_B : Fld := ⟨8, 7⟩
abbrev CHC_QUEUE_STAT_WRQ_A : Fld := ⟨16, 7⟩
abbrev CHC_QUEUE_STAT_WRQ_B : Fld := ⟨24, 7⟩
abbrev CHC_MODE_STAT_WRITE_MODE_A : Fld := ⟨0, 1⟩
abbrev CHC_MODE_STAT_WRITE_MODE_B : Fld := ⟨1, 1⟩
abbrev CHC_MODE_STAT_PD_A : Fld := ⟨2, 1⟩
abbrev CHC_MODE_STAT_PD_B : Fld := ⟨3, 1⟩
abbrev CHC_MODE_STAT_SELF_REFRESH : Fld := ⟨4, 1⟩
abbrev CHC_BANK_SEL_PCH : Fld := ⟨0, 1⟩
abbrev CHC_BANK_SEL_SID : Fld := ⟨1, 2⟩
abbrev CHC_BANK_SEL_BANK : Fld := ⟨3, 4⟩
abbrev CHC_BANK_STATE_STATE : Fld := ⟨0, 3⟩
abbrev CHC_BANK_STATE_ROW : Fld := ⟨3, 15⟩
abbrev CHC_BANK_STATE_STREAK : Fld := ⟨18, 5⟩
abbrev CHC_READS_LO_READS_LO : Fld := ⟨0, 32⟩
abbrev CHC_READS_HI_READS_HI : Fld := ⟨0, 32⟩
abbrev CHC_WRITES_LO_WRITES_LO : Fld := ⟨0, 32⟩
abbrev CHC_WRITES_HI_WRITES_HI : Fld := ⟨0, 32⟩
abbrev CHC_ACTIVATES_COUNT : Fld := ⟨0, 32⟩
abbrev CHC_ROW_HITS_COUNT : Fld := ⟨0, 32⟩
abbrev CHC_CONFLICTS_COUNT : Fld := ⟨0, 32⟩
abbrev CHC_STREAK_CAPS_COUNT : Fld := ⟨0, 32⟩
abbrev CHC_URGENT_COUNT : Fld := ⟨0, 32⟩
abbrev CHC_WRITE_MODES_COUNT : Fld := ⟨0, 32⟩
abbrev CHC_FWD_READS_COUNT : Fld := ⟨0, 32⟩
abbrev CHC_ECC_CORR_COUNT : Fld := ⟨0, 32⟩
abbrev CHC_ECC_UNCORR_COUNT : Fld := ⟨0, 32⟩
abbrev CHC_ECC_ADDR_COUNT : Fld := ⟨0, 32⟩
abbrev CHC_ECC_RETRY_OK_COUNT : Fld := ⟨0, 32⟩
abbrev CHC_PD_ENTRIES_COUNT : Fld := ⟨0, 32⟩

/-! ### CHP page (R209) -/
abbrev CHP_PHY_CTL_RETRAIN : Fld := ⟨0, 1⟩
abbrev CHP_PHY_CTL_PERIODIC_EN : Fld := ⟨1, 1⟩
abbrev CHP_PHY_CTL_RETRAIN_MS : Fld := ⟨2, 8⟩
abbrev CHP_PHY_CTL_RETRAIN_DT : Fld := ⟨10, 5⟩
abbrev CHP_PHY_CTL_TRAIN_FREEZE : Fld := ⟨15, 1⟩
abbrev CHP_PHY_STAT_TRAINED_A : Fld := ⟨0, 1⟩
abbrev CHP_PHY_STAT_TRAINED_B : Fld := ⟨1, 1⟩
abbrev CHP_PHY_STAT_TRAINING : Fld := ⟨2, 1⟩
abbrev CHP_PHY_STAT_RETIRED_A : Fld := ⟨3, 1⟩
abbrev CHP_PHY_STAT_RETIRED_B : Fld := ⟨4, 1⟩
abbrev CHP_PHY_STAT_CHAN_RETIRED : Fld := ⟨5, 1⟩
abbrev CHP_PHY_STAT_DQ_SPARES_A : Fld := ⟨6, 3⟩
abbrev CHP_PHY_STAT_DQ_SPARES_B : Fld := ⟨9, 3⟩
abbrev CHP_PHY_STAT_CA_SPARES_A : Fld := ⟨12, 2⟩
abbrev CHP_PHY_STAT_CA_SPARES_B : Fld := ⟨14, 2⟩
abbrev CHP_TSV_REMAP_SPARE0 : Fld := ⟨0, 8⟩
abbrev CHP_TSV_REMAP_SPARE1 : Fld := ⟨8, 8⟩
abbrev CHP_TSV_REMAP_SPARE2 : Fld := ⟨16, 8⟩
abbrev CHP_TSV_REMAP_SPARE3 : Fld := ⟨24, 8⟩
abbrev CHP_CA_REMAP_SPARE0 : Fld := ⟨0, 8⟩
abbrev CHP_CA_REMAP_SPARE1 : Fld := ⟨8, 8⟩
abbrev CHP_REMAP_CMD_PCH : Fld := ⟨0, 1⟩
abbrev CHP_REMAP_CMD_VIA : Fld := ⟨1, 6⟩
abbrev CHP_REMAP_CMD_CLASS : Fld := ⟨7, 1⟩
abbrev CHP_REMAP_CMD_START : Fld := ⟨8, 1⟩
abbrev CHP_REMAP_STAT_BUSY : Fld := ⟨0, 1⟩
abbrev CHP_REMAP_STAT_FAILED : Fld := ⟨1, 1⟩
abbrev CHP_CAL_SEL_PCH : Fld := ⟨0, 1⟩
abbrev CHP_CAL_SEL_VIA : Fld := ⟨1, 6⟩
abbrev CHP_CAL_SEL_GROUP : Fld := ⟨7, 2⟩
abbrev CHP_CAL_VAL_READ_DESKEW : Fld := ⟨0, 6⟩
abbrev CHP_CAL_VAL_WRITE_DESKEW : Fld := ⟨8, 6⟩
abbrev CHP_CAL_VAL_EYE_WIDTH : Fld := ⟨16, 6⟩
abbrev CHP_CAL_VAL_EYE_HEIGHT : Fld := ⟨24, 6⟩
abbrev CHP_VREF_READ_REF : Fld := ⟨0, 7⟩
abbrev CHP_VREF_WRITE_REF_SID0 : Fld := ⟨8, 7⟩
abbrev CHP_VREF_WRITE_REF_SID1 : Fld := ⟨16, 7⟩
abbrev CHP_VREF_WRITE_REF_SID2 : Fld := ⟨24, 7⟩
abbrev CHP_VREF2_WRITE_REF_SID3 : Fld := ⟨0, 7⟩
abbrev CHP_VREF2_WCK_PHASE : Fld := ⟨8, 7⟩
abbrev CHP_CAL_COUNT_COUNT : Fld := ⟨0, 32⟩
abbrev CHP_CAL_TIME_LO_TIME_LO : Fld := ⟨0, 32⟩
abbrev CHP_CAL_TIME_HI_TIME_HI : Fld := ⟨0, 32⟩
abbrev CHP_BANK_RET_LO_BANKS_LO : Fld := ⟨0, 32⟩
abbrev CHP_BANK_RET_HI_BANKS_HI : Fld := ⟨0, 32⟩
abbrev CHP_ROW_REPAIR_CMD_ROW : Fld := ⟨0, 15⟩
abbrev CHP_ROW_REPAIR_CMD_BANK : Fld := ⟨15, 4⟩
abbrev CHP_ROW_REPAIR_CMD_SID : Fld := ⟨19, 2⟩
abbrev CHP_ROW_REPAIR_CMD_PCH : Fld := ⟨21, 1⟩
abbrev CHP_ROW_REPAIR_CMD_START : Fld := ⟨22, 1⟩
abbrev CHP_ROW_REPAIR_STAT_BUSY : Fld := ⟨0, 1⟩
abbrev CHP_ROW_REPAIR_STAT_FAILED : Fld := ⟨1, 1⟩
abbrev CHP_ROW_REPAIR_STAT_ROWS_LEFT : Fld := ⟨2, 3⟩
abbrev CHP_FAIL_MAP_DQ_FAILED : Fld := ⟨0, 32⟩
abbrev CHP_FAIL_MAP2_DQ_FAILED_HI : Fld := ⟨0, 4⟩
abbrev CHP_FAIL_MAP2_CA_FAILED : Fld := ⟨4, 14⟩
abbrev CHP_FAIL_MAP2_DQ_SPARE_FAILED : Fld := ⟨18, 4⟩
abbrev CHP_FAIL_MAP2_CA_SPARE_FAILED : Fld := ⟨22, 2⟩
abbrev CHP_TSV_CORR_A_COUNT : Fld := ⟨0, 32⟩
abbrev CHP_TSV_CORR_B_COUNT : Fld := ⟨0, 32⟩

/-! ### DDIE page (R210) -/
abbrev DDIE_DIE_ID_IDENT : Fld := ⟨0, 32⟩
abbrev DDIE_DIE_STAT_PRESENT : Fld := ⟨0, 1⟩
abbrev DDIE_DIE_STAT_RETIRING : Fld := ⟨1, 1⟩
abbrev DDIE_DIE_STAT_RETIRED : Fld := ⟨2, 1⟩
abbrev DDIE_DIE_STAT_SELF_REFRESH : Fld := ⟨3, 1⟩
abbrev DDIE_DIE_STAT_SID : Fld := ⟨4, 2⟩
abbrev DDIE_TRCD_DIE_TENTHS : Fld := ⟨0, 8⟩
abbrev DDIE_MAPPED_OUT_BANKS : Fld := ⟨0, 9⟩
abbrev DDIE_CORR_COUNT : Fld := ⟨0, 32⟩
abbrev DDIE_UNCORR_COUNT : Fld := ⟨0, 32⟩
abbrev DDIE_ADDR_ERR_COUNT : Fld := ⟨0, 32⟩
abbrev DDIE_ROWS_REPAIRED_COUNT : Fld := ⟨0, 10⟩

/-! ### RFM page (R224) -/
abbrev RFM_REF_CTL_REF_SLACK : Fld := ⟨0, 3⟩
abbrev RFM_REF_CTL_FORCE_STEP : Fld := ⟨3, 2⟩
abbrev RFM_REF_CTL_HYST_C : Fld := ⟨8, 4⟩
abbrev RFM_RH_CTL_RH_THRESH : Fld := ⟨0, 12⟩
abbrev RFM_RH_CTL_RH_EN : Fld := ⟨12, 1⟩
abbrev RFM_REF_STEP_DIE_STEP : Fld := ⟨0, 32⟩
abbrev RFM_TRK_SEL_CHANNEL : Fld := ⟨0, 5⟩
abbrev RFM_TRK_SEL_PCH : Fld := ⟨5, 1⟩
abbrev RFM_TRK_SEL_SID : Fld := ⟨6, 2⟩
abbrev RFM_TRK_SEL_BANK : Fld := ⟨8, 4⟩
abbrev RFM_TRK_STAT_SPILL : Fld := ⟨0, 12⟩
abbrev RFM_TRK_STAT_VALID : Fld := ⟨12, 7⟩
abbrev RFM_TRK_STAT_MAX_COUNT : Fld := ⟨19, 12⟩
abbrev RFM_TRK_STAT_SPILL_COND : Fld := ⟨31, 1⟩
abbrev RFM_REF_LO_REF_LO : Fld := ⟨0, 32⟩
abbrev RFM_REF_HI_REF_HI : Fld := ⟨0, 32⟩
abbrev RFM_TNR_LO_TNR_LO : Fld := ⟨0, 32⟩
abbrev RFM_TNR_HI_TNR_HI : Fld := ⟨0, 32⟩
abbrev RFM_REF_DUE_COUNT : Fld := ⟨0, 32⟩
abbrev RFM_SPILL_TNR_COUNT : Fld := ⟨0, 32⟩
abbrev RFM_SPILL_WINDOWS_COUNT : Fld := ⟨0, 32⟩
abbrev RFM_TRACKER_ERR_COUNT : Fld := ⟨0, 32⟩

/-! ### SCRUB page (R225) -/
abbrev SCRUB_SCRUB_CTL_EN : Fld := ⟨0, 1⟩
abbrev SCRUB_SCRUB_CTL_CACHE_EN : Fld := ⟨1, 1⟩
abbrev SCRUB_SCRUB_CTL_PERIOD_H : Fld := ⟨2, 8⟩
abbrev SCRUB_SCRUB_CMD_FRAME : Fld := ⟨0, 21⟩
abbrev SCRUB_SCRUB_CMD_COUNT : Fld := ⟨21, 10⟩
abbrev SCRUB_SCRUB_CMD_START : Fld := ⟨31, 1⟩
abbrev SCRUB_SCRUB_STAT_CMD_BUSY : Fld := ⟨0, 1⟩
abbrev SCRUB_SCRUB_STAT_BEHIND : Fld := ⟨1, 1⟩
abbrev SCRUB_SCRUB_STAT_PROGRESS : Fld := ⟨2, 10⟩
abbrev SCRUB_LAST_PASS_S_SECONDS : Fld := ⟨0, 20⟩
abbrev SCRUB_PASSES_COUNT : Fld := ⟨0, 32⟩
abbrev SCRUB_CACHE_PASSES_COUNT : Fld := ⟨0, 32⟩
abbrev SCRUB_WORDS_LO_WORDS_LO : Fld := ⟨0, 32⟩
abbrev SCRUB_WORDS_HI_WORDS_HI : Fld := ⟨0, 32⟩
abbrev SCRUB_CORRECTED_COUNT : Fld := ⟨0, 32⟩
abbrev SCRUB_UNCORRECTABLE_COUNT : Fld := ⟨0, 32⟩
abbrev SCRUB_FREE_REZEROED_COUNT : Fld := ⟨0, 32⟩
abbrev SCRUB_KEEL_REPAIRED_COUNT : Fld := ⟨0, 32⟩
abbrev SCRUB_CACHE_CORRECTED_COUNT : Fld := ⟨0, 32⟩
abbrev SCRUB_CACHE_INVALIDATED_COUNT : Fld := ⟨0, 32⟩

/-! ### ENG page (R252) -/
abbrev ENG_ENG_CTL_EN : Fld := ⟨0, 1⟩
abbrev ENG_ENG_CTL_WQ_DEPTH : Fld := ⟨1, 3⟩
abbrev ENG_ENG_CTL_HANG_US : Fld := ⟨16, 16⟩
abbrev ENG_ENG_STAT_STATE : Fld := ⟨0, 3⟩
abbrev ENG_ENG_STAT_SPARE : Fld := ⟨3, 1⟩
abbrev ENG_ENG_STAT_QUEUED : Fld := ⟨4, 3⟩
abbrev ENG_ENG_STAT_TAKEOVER : Fld := ⟨7, 1⟩
abbrev ENG_CUR_WORK_TAG : Fld := ⟨0, 12⟩
abbrev ENG_CUR_WORK_MID : Fld := ⟨12, 6⟩
abbrev ENG_CUR_WORK_TC : Fld := ⟨18, 3⟩
abbrev ENG_CUR_WORK_EOP : Fld := ⟨21, 6⟩
abbrev ENG_CUR_WORK_VALID : Fld := ⟨31, 1⟩
abbrev ENG_CUR_CHUNK_COMMITTED : Fld := ⟨0, 28⟩
abbrev ENG_CUR_TOTAL_CHUNKS : Fld := ⟨0, 28⟩
abbrev ENG_WORKS_COUNT : Fld := ⟨0, 32⟩
abbrev ENG_CHUNKS_LO_CHUNKS_LO : Fld := ⟨0, 32⟩
abbrev ENG_CHUNKS_HI_CHUNKS_HI : Fld := ⟨0, 32⟩
abbrev ENG_LINES_LO_LINES_LO : Fld := ⟨0, 32⟩
abbrev ENG_LINES_HI_LINES_HI : Fld := ⟨0, 32⟩
abbrev ENG_TAKEOVERS_COUNT : Fld := ⟨0, 32⟩
abbrev ENG_SCRATCH_CORR_COUNT : Fld := ⟨0, 32⟩
abbrev ENG_SCRATCH_UNCORR_COUNT : Fld := ⟨0, 32⟩
abbrev ENG_HANGS_COUNT : Fld := ⟨0, 32⟩

/-! ### QUAD page (R253) -/
abbrev QUAD_QUAD_CTL_WORK_EN : Fld := ⟨0, 1⟩
abbrev QUAD_QUAD_CTL_XQUAD_EN : Fld := ⟨1, 1⟩
abbrev QUAD_WORK_STAT_DESCS : Fld := ⟨0, 7⟩
abbrev QUAD_WORK_STAT_RECORDS : Fld := ⟨7, 6⟩
abbrev QUAD_WORK_STAT_ENG_USABLE : Fld := ⟨13, 9⟩
abbrev QUAD_WORK_STAT_SPARE_FREE : Fld := ⟨22, 1⟩
abbrev QUAD_CANCEL_TAG : Fld := ⟨0, 12⟩
abbrev QUAD_CANCEL_START : Fld := ⟨12, 1⟩
abbrev QUAD_CANCEL_STAT_BUSY : Fld := ⟨0, 1⟩
abbrev QUAD_CANCEL_STAT_FOUND : Fld := ⟨1, 1⟩
abbrev QUAD_CANCEL_STAT_STOPPED : Fld := ⟨2, 1⟩
abbrev QUAD_ABORT_REC0_TAG : Fld := ⟨0, 12⟩
abbrev QUAD_ABORT_REC0_MID : Fld := ⟨12, 6⟩
abbrev QUAD_ABORT_REC0_TC : Fld := ⟨18, 3⟩
abbrev QUAD_ABORT_REC0_CCODE : Fld := ⟨21, 8⟩
abbrev QUAD_ABORT_REC1_CTAG : Fld := ⟨0, 12⟩
abbrev QUAD_ABORT_ELEM_LO_ELEM_LO : Fld := ⟨0, 32⟩
abbrev QUAD_ABORT_ELEM_HI_ELEM_HI : Fld := ⟨0, 32⟩
abbrev QUAD_ABORT_ADDR_LO_ADDR_LO : Fld := ⟨0, 32⟩
abbrev QUAD_ABORT_ADDR_HI_ADDR_HI : Fld := ⟨0, 32⟩
abbrev QUAD_WORKS_ACCEPTED_COUNT : Fld := ⟨0, 32⟩
abbrev QUAD_WORKS_DONE_COUNT : Fld := ⟨0, 32⟩
abbrev QUAD_WORKS_ABORTED_COUNT : Fld := ⟨0, 32⟩
abbrev QUAD_WORKS_STOPPED_COUNT : Fld := ⟨0, 32⟩
abbrev QUAD_TAKEOVERS_COUNT : Fld := ⟨0, 32⟩
abbrev QUAD_RECORDS_DISCARDED_COUNT : Fld := ⟨0, 32⟩
abbrev QUAD_PLANNED_MOVES_COUNT : Fld := ⟨0, 32⟩
abbrev QUAD_XQUAD_TAKEOVERS_COUNT : Fld := ⟨0, 32⟩
abbrev QUAD_SKIPPED_COUNT : Fld := ⟨0, 32⟩

/-! ### BRIDLE page (R271) -/
abbrev BRIDLE_BR_CTL_EN : Fld := ⟨0, 1⟩
abbrev BRIDLE_BR_CTL_GUAR_EN : Fld := ⟨1, 1⟩
abbrev BRIDLE_BR_CTL_BG_RESERVE_PCT : Fld := ⟨8, 6⟩
abbrev BRIDLE_BR_CTL_BE_MIN_PCT : Fld := ⟨14, 6⟩
abbrev BRIDLE_BR_CTL_GUAR_WINDOW_US : Fld := ⟨20, 10⟩
abbrev BRIDLE_BR_STAT_HELD : Fld := ⟨0, 15⟩
abbrev BRIDLE_BR_STAT_SHORT : Fld := ⟨15, 1⟩
abbrev BRIDLE_BR_STAT_BEHIND : Fld := ⟨16, 8⟩
abbrev BRIDLE_BR_STAT_LATE : Fld := ⟨24, 8⟩
abbrev BRIDLE_DELIV_DRAM_RATE : Fld := ⟨0, 16⟩
abbrev BRIDLE_DELIV_LINK_TX : Fld := ⟨0, 16⟩
abbrev BRIDLE_DELIV_LINK_RX : Fld := ⟨16, 16⟩
abbrev BRIDLE_GUAR_CAP_CAP : Fld := ⟨0, 16⟩
abbrev BRIDLE_GUAR_SUM_PROGRAMMED : Fld := ⟨0, 16⟩
abbrev BRIDLE_GUAR_SUM_HONOURED : Fld := ⟨16, 16⟩
abbrev BRIDLE_HOLD_CTL_HOLD_MAX : Fld := ⟨0, 10⟩
abbrev BRIDLE_HOLD_CTL_DELIV_LOW_PCT : Fld := ⟨16, 7⟩
abbrev BRIDLE_MID_SEL_MID : Fld := ⟨0, 6⟩
abbrev BRIDLE_MID_STAT_HELD : Fld := ⟨0, 10⟩
abbrev BRIDLE_MID_STAT_SPENT : Fld := ⟨10, 1⟩
abbrev BRIDLE_MID_STAT_URGENT : Fld := ⟨11, 1⟩
abbrev BRIDLE_MID_STAT_STUCK_CAPPED : Fld := ⟨12, 1⟩
abbrev BRIDLE_MID_STAT_AT_LIMIT : Fld := ⟨13, 1⟩
abbrev BRIDLE_MID_REMAIN_REMAIN : Fld := ⟨0, 25⟩
abbrev BRIDLE_TC_GUAR_GUAR : Fld := ⟨0, 16⟩
abbrev BRIDLE_TC_GUAR_RANK : Fld := ⟨16, 3⟩
abbrev BRIDLE_TC_LAT_TARGET : Fld := ⟨0, 12⟩
abbrev BRIDLE_TC_LAT_MEAS : Fld := ⟨16, 12⟩
abbrev BRIDLE_TC_LAT_LEVEL : Fld := ⟨28, 2⟩
abbrev BRIDLE_TC_HONOUR_HONOURED : Fld := ⟨0, 16⟩
abbrev BRIDLE_TC_HONOUR_SHORT : Fld := ⟨16, 16⟩
abbrev BRIDLE_TC_RATE_RATE : Fld := ⟨0, 16⟩
abbrev BRIDLE_HOLDS_COUNT : Fld := ⟨0, 32⟩
abbrev BRIDLE_HOLD_LIMITS_COUNT : Fld := ⟨0, 32⟩
abbrev BRIDLE_REFUSED_REQS_COUNT : Fld := ⟨0, 32⟩
abbrev BRIDLE_EXCESS_HOLDS_COUNT : Fld := ⟨0, 32⟩
abbrev BRIDLE_SHORT_ENTRIES_COUNT : Fld := ⟨0, 32⟩
abbrev BRIDLE_LATE_REQS_COUNT : Fld := ⟨0, 32⟩
abbrev BRIDLE_REG_CTL_MODE : Fld := ⟨0, 2⟩
abbrev BRIDLE_REG_CTL_WINDOW_US : Fld := ⟨2, 10⟩
abbrev BRIDLE_REG_BUDGET_BUDGET : Fld := ⟨0, 24⟩

/-! ### SIDE page (R272) -/
abbrev SIDE_PIN_CTL_GLITCH : Fld := ⟨0, 8⟩
abbrev SIDE_PIN_CTL_STUCK_US : Fld := ⟨8, 16⟩
abbrev SIDE_PIN_CTL_PIN_EN : Fld := ⟨24, 4⟩
abbrev SIDE_PIN_STAT_RAW : Fld := ⟨0, 4⟩
abbrev SIDE_PIN_STAT_ASSERTED : Fld := ⟨4, 4⟩
abbrev SIDE_PIN_STAT_STUCK : Fld := ⟨8, 4⟩
abbrev SIDE_URG_CFG_PRIO : Fld := ⟨0, 2⟩
abbrev SIDE_URG_CFG_EXTRA_PCT : Fld := ⟨2, 8⟩
abbrev SIDE_URG_MAP_LO_MIDS_LO : Fld := ⟨0, 32⟩
abbrev SIDE_URG_MAP_HI_MIDS_HI : Fld := ⟨0, 32⟩
abbrev SIDE_ASSERTS_COUNT : Fld := ⟨0, 32⟩
abbrev SIDE_GLITCHES_COUNT : Fld := ⟨0, 32⟩
abbrev SIDE_STUCKS_COUNT : Fld := ⟨0, 32⟩

/-! ### FCOL page (R295) -/
abbrev FCOL_FC_CTL_QUIET_MS : Fld := ⟨0, 8⟩
abbrev FCOL_FC_CTL_MERGE_EVT : Fld := ⟨8, 1⟩
abbrev FCOL_FC_STAT_OPEN : Fld := ⟨0, 7⟩
abbrev FCOL_FC_STAT_OVERFLOW : Fld := ⟨7, 1⟩
abbrev FCOL_FC_STAT_ALERT : Fld := ⟨8, 1⟩
abbrev FCOL_FC_STAT_PRE_RESET_ALERT : Fld := ⟨9, 1⟩
abbrev FCOL_FC_STAT_RETEST_Q : Fld := ⟨10, 5⟩
abbrev FCOL_FC_STAT_RETEST_BUSY : Fld := ⟨15, 1⟩
abbrev FCOL_TS_LO_TS_LO : Fld := ⟨0, 32⟩
abbrev FCOL_TS_HI_TS_HI : Fld := ⟨0, 32⟩
abbrev FCOL_TS_SET_LO_SET_LO : Fld := ⟨0, 32⟩
abbrev FCOL_TS_SET_HI_SET_HI : Fld := ⟨0, 32⟩
abbrev FCOL_REACT_SEL_PAGE : Fld := ⟨0, 10⟩
abbrev FCOL_REACT_SEL_BIT : Fld := ⟨16, 5⟩
abbrev FCOL_REACT_VAL_CLASS : Fld := ⟨0, 3⟩
abbrev FCOL_REACT_VAL_INT : Fld := ⟨3, 1⟩
abbrev FCOL_REACT_VAL_NMA : Fld := ⟨4, 1⟩
abbrev FCOL_REACT_VAL_BLOCK_RESET : Fld := ⟨5, 1⟩
abbrev FCOL_REACT_VAL_CHIP_RESET : Fld := ⟨6, 1⟩
abbrev FCOL_REACT_VAL_EXT_PIN : Fld := ⟨7, 1⟩
abbrev FCOL_REACT_VAL_VECTOR : Fld := ⟨8, 6⟩
abbrev FCOL_BKT_SEL_TYPE : Fld := ⟨0, 4⟩
abbrev FCOL_BKT_CFG_CAP : Fld := ⟨0, 24⟩
abbrev FCOL_BKT_CFG2_LEAK : Fld := ⟨0, 16⟩
abbrev FCOL_BKT_CFG2_LEAK_EXP : Fld := ⟨16, 5⟩
abbrev FCOL_KIND_SEL_KIND : Fld := ⟨0, 5⟩
abbrev FCOL_KIND_CFG_WEIGHT : Fld := ⟨0, 24⟩
abbrev FCOL_RES_QUERY_RESOURCE : Fld := ⟨0, 32⟩
abbrev FCOL_RES_LEVEL_LEVEL : Fld := ⟨0, 24⟩
abbrev FCOL_RES_LEVEL_RETESTING : Fld := ⟨29, 1⟩
abbrev FCOL_RES_LEVEL_DECLARED : Fld := ⟨30, 1⟩
abbrev FCOL_RES_LEVEL_DONE : Fld := ⟨31, 1⟩
abbrev FCOL_ALERT_CLR_RECORD : Fld := ⟨0, 6⟩
abbrev FCOL_ALERT_CLR_ALL : Fld := ⟨6, 1⟩
abbrev FCOL_ALERT_CLR_START : Fld := ⟨7, 1⟩
abbrev FCOL_ALERT_PEND0_RECORDS : Fld := ⟨0, 32⟩
abbrev FCOL_ALERT_PEND1_RECORDS : Fld := ⟨0, 32⟩
abbrev FCOL_REC_SEL_RECORD : Fld := ⟨0, 6⟩
abbrev FCOL_REC_SRC_PAGE : Fld := ⟨0, 10⟩
abbrev FCOL_REC_SRC_SOURCE : Fld := ⟨10, 6⟩
abbrev FCOL_REC_SRC_OPEN : Fld := ⟨16, 1⟩
abbrev FCOL_REC_SRC_ALERT : Fld := ⟨17, 1⟩
abbrev FCOL_REC_SRC_VALID : Fld := ⟨18, 1⟩
abbrev FCOL_REC_SRC_CLASS : Fld := ⟨19, 3⟩
abbrev FCOL_REC_MERGE_COUNT : Fld := ⟨0, 32⟩
abbrev FCOL_REC_TS_LO_TS_LO : Fld := ⟨0, 32⟩
abbrev FCOL_REC_TS_HI_TS_HI : Fld := ⟨0, 32⟩
abbrev FCOL_REC_DETAIL_DETAIL : Fld := ⟨0, 32⟩
abbrev FCOL_RAISES_COUNT : Fld := ⟨0, 32⟩
abbrev FCOL_MERGES_COUNT : Fld := ⟨0, 32⟩
abbrev FCOL_RECOVERIES_COUNT : Fld := ⟨0, 32⟩
abbrev FCOL_DECLARATIONS_COUNT : Fld := ⟨0, 32⟩
abbrev FCOL_RETESTS_COUNT : Fld := ⟨0, 32⟩
abbrev FCOL_RETEST_FAILS_COUNT : Fld := ⟨0, 32⟩
abbrev FCOL_RETEST_SKIPPED_COUNT : Fld := ⟨0, 32⟩
abbrev FCOL_NMAS_COUNT : Fld := ⟨0, 32⟩
abbrev FCOL_BLOCK_RESETS_COUNT : Fld := ⟨0, 32⟩
abbrev FCOL_FAULT_RESETS_COUNT : Fld := ⟨0, 32⟩
abbrev FCOL_OVERFLOWS_COUNT : Fld := ⟨0, 32⟩
abbrev FCOL_ROW_EVICTS_COUNT : Fld := ⟨0, 32⟩

/-! ### THERM page (R337) -/
abbrev THERM_THR_DRAM_START_C : Fld := ⟨0, 8⟩
abbrev THERM_THR_DRAM_FULL_C : Fld := ⟨8, 8⟩
abbrev THERM_THR_DRAM_TRIP_C : Fld := ⟨16, 8⟩
abbrev THERM_THR_BASE_START_C : Fld := ⟨0, 8⟩
abbrev THERM_THR_BASE_FULL_C : Fld := ⟨8, 8⟩
abbrev THERM_THR_BASE_TRIP_C : Fld := ⟨16, 8⟩
abbrev THERM_SUSPECT_CTL_DISAGREE_C : Fld := ⟨0, 4⟩
abbrev THERM_SUSPECT_CTL_DISAGREE_ROUNDS : Fld := ⟨4, 12⟩
abbrev THERM_SUSPECT_CTL_GUARD_C : Fld := ⟨16, 4⟩
abbrev THERM_SUSPECT_CTL_AGREE_C : Fld := ⟨20, 4⟩
abbrev THERM_SUSPECT_CTL2_AGREE_ROUNDS : Fld := ⟨0, 16⟩
abbrev THERM_MODEL_CTL_TRIP_STEPS : Fld := ⟨0, 4⟩
abbrev THERM_MODEL_CTL_COOLANT_C : Fld := ⟨8, 8⟩
abbrev THERM_THERM_STAT_HOTTEST : Fld := ⟨0, 12⟩
abbrev THERM_THERM_STAT_HOTTEST_NODE : Fld := ⟨12, 7⟩
abbrev THERM_THERM_STAT2_SUSPECT : Fld := ⟨0, 7⟩
abbrev THERM_THERM_STAT2_BROKEN : Fld := ⟨8, 7⟩
abbrev THERM_THERM_STAT2_MODEL_READY : Fld := ⟨15, 1⟩
abbrev THERM_THERM_STAT2_BOUND_FALLBACK : Fld := ⟨16, 1⟩
abbrev THERM_THERM_STAT2_TRIP_LATCHED : Fld := ⟨17, 1⟩
abbrev THERM_NODE_SEL_NODE : Fld := ⟨0, 7⟩
abbrev THERM_NODE_VAL_MODEL : Fld := ⟨0, 12⟩
abbrev THERM_NODE_VAL_READING : Fld := ⟨16, 12⟩
abbrev THERM_NODE_VAL_STATUS : Fld := ⟨28, 2⟩
abbrev THERM_NODE_VAL2_SENSOR : Fld := ⟨0, 12⟩
abbrev THERM_NODE_VAL2_POWER : Fld := ⟨12, 12⟩
abbrev THERM_SENSOR_SEL_SENSOR : Fld := ⟨0, 7⟩
abbrev THERM_SENSOR_VAL_CODE : Fld := ⟨0, 12⟩
abbrev THERM_SENSOR_VAL_TEMP : Fld := ⟨16, 12⟩
abbrev THERM_SENSOR_VAL_STATUS : Fld := ⟨28, 2⟩
abbrev THERM_LAYER_VENT_HOT : Fld := ⟨0, 12⟩
abbrev THERM_LAYER_VENT_THERMAL : Fld := ⟨16, 9⟩
abbrev THERM_COEF_SEL_INDEX : Fld := ⟨0, 12⟩
abbrev THERM_COEF_VAL_VALUE : Fld := ⟨0, 32⟩
abbrev THERM_SUSPECT_ENTRIES_COUNT : Fld := ⟨0, 32⟩
abbrev THERM_BROKEN_ENTRIES_COUNT : Fld := ⟨0, 32⟩
abbrev THERM_THROTTLE_LO_US_LO : Fld := ⟨0, 32⟩
abbrev THERM_THROTTLE_HI_US_HI : Fld := ⟨0, 32⟩

/-! ### PWR page (R338) -/
abbrev PWR_CAP_CTL_CAP_W : Fld := ⟨0, 7⟩
abbrev PWR_CAP_CTL_WINDOW_MS : Fld := ⟨8, 7⟩
abbrev PWR_CAP_CTL_GUARD_W : Fld := ⟨16, 4⟩
abbrev PWR_DVFS_CTL_TARGET : Fld := ⟨0, 2⟩
abbrev PWR_DVFS_CTL_P3_ALLOW : Fld := ⟨2, 1⟩
abbrev PWR_DVFS_CTL_VSETTLE_US : Fld := ⟨8, 8⟩
abbrev PWR_DVFS_CTL_UP_HOLD_MS : Fld := ⟨16, 8⟩
abbrev PWR_DVFS_STAT_POINT : Fld := ⟨0, 2⟩
abbrev PWR_DVFS_STAT_CEILING : Fld := ⟨2, 2⟩
abbrev PWR_DVFS_STAT_VSEL : Fld := ⟨4, 2⟩
abbrev PWR_DVFS_STAT_BUSY : Fld := ⟨6, 1⟩
abbrev PWR_DVFS_STAT_VDD_FAULT : Fld := ⟨7, 1⟩
abbrev PWR_PKG_POWER_LAST_WINDOW : Fld := ⟨0, 16⟩
abbrev PWR_PKG_POWER_NOW : Fld := ⟨16, 16⟩
abbrev PWR_CAP_STAT_FRACTION : Fld := ⟨0, 9⟩
abbrev PWR_CAP_STAT_LIMITING : Fld := ⟨9, 1⟩
abbrev PWR_CAP_STAT_USED_MJ : Fld := ⟨16, 16⟩
abbrev PWR_MODEL_CORR_K : Fld := ⟨0, 16⟩
abbrev PWR_RAIL_MON_MV : Fld := ⟨0, 12⟩
abbrev PWR_RAIL_MON_CURRENT : Fld := ⟨16, 13⟩
abbrev PWR_RAIL_MON_OUT : Fld := ⟨31, 1⟩
abbrev PWR_PD_ON_ON : Fld := ⟨0, 32⟩
abbrev PWR_ENERGY_LO_MJ_LO : Fld := ⟨0, 32⟩
abbrev PWR_ENERGY_HI_MJ_HI : Fld := ⟨0, 32⟩
abbrev PWR_CAP_LIMITED_MS_COUNT : Fld := ⟨0, 32⟩
abbrev PWR_TRANSITIONS_COUNT : Fld := ⟨0, 32⟩
abbrev PWR_VDD_FAULTS_COUNT : Fld := ⟨0, 32⟩

/-! ### STACK page (R339) -/
abbrev STACK_WEAR_CTL_HYST_C : Fld := ⟨0, 4⟩
abbrev STACK_WEAR_CTL_MIN_RANGE_C : Fld := ⟨8, 5⟩
abbrev STACK_WEAR_CTL_ALARM_PCT : Fld := ⟨16, 7⟩
abbrev STACK_WEAR_CTL_SAVE_NOW : Fld := ⟨23, 1⟩
abbrev STACK_WEAR_CTL_PERSIST_EN : Fld := ⟨24, 1⟩
abbrev STACK_WEAR_STAT_WORST_IF : Fld := ⟨0, 5⟩
abbrev STACK_WEAR_STAT_WORST_PCT : Fld := ⟨8, 7⟩
abbrev STACK_WEAR_STAT_ALARM : Fld := ⟨15, 1⟩
abbrev STACK_WEAR_STAT_RESTORED : Fld := ⟨16, 2⟩
abbrev STACK_WEAR_STAT_SAVE_BUSY : Fld := ⟨18, 1⟩
abbrev STACK_IF_SEL_INTERFACE : Fld := ⟨0, 5⟩
abbrev STACK_IF_DAMAGE_LO_DAMAGE_LO : Fld := ⟨0, 32⟩
abbrev STACK_IF_DAMAGE_HI_DAMAGE_HI : Fld := ⟨0, 32⟩
abbrev STACK_IF_CYCLES_HALVES : Fld := ⟨0, 32⟩
abbrev STACK_IF_NOW_TEMP : Fld := ⟨0, 12⟩
abbrev STACK_IF_NOW_MAX_RANGE : Fld := ⟨16, 12⟩
abbrev STACK_IF_RESIDUE_POINTS : Fld := ⟨0, 7⟩
abbrev STACK_LIFE_YEARS_LEFT : Fld := ⟨0, 16⟩
abbrev STACK_AGE_LO_AGE_LO : Fld := ⟨0, 32⟩
abbrev STACK_AGE_HI_AGE_HI : Fld := ⟨0, 32⟩
abbrev STACK_SAVES_COUNT : Fld := ⟨0, 32⟩
abbrev STACK_SAVE_FAILS_COUNT : Fld := ⟨0, 32⟩

/-! ### CLK page (R364) -/
abbrev CLK_CLK_CTL_REGBUS_DIV : Fld := ⟨0, 4⟩
abbrev CLK_CLK_CTL_DROGUE_MS : Fld := ⟨8, 8⟩
abbrev CLK_CLK_CTL_XO_WAIT_MS : Fld := ⟨16, 8⟩
abbrev CLK_CLK_CTL_LINK_REF_EN : Fld := ⟨24, 1⟩
abbrev CLK_CLK_CTL_REF_PCIE : Fld := ⟨25, 1⟩
abbrev CLK_CLK_STAT_XO_OK : Fld := ⟨0, 1⟩
abbrev CLK_CLK_STAT_XO_RESTART : Fld := ⟨1, 1⟩
abbrev CLK_CLK_STAT_AON_XO : Fld := ⟨2, 1⟩
abbrev CLK_CLK_STAT_REF_SRC : Fld := ⟨3, 2⟩
abbrev CLK_CLK_STAT_DROGUE : Fld := ⟨5, 1⟩
abbrev CLK_CLK_STAT_DROGUE_EXPIRED : Fld := ⟨6, 1⟩
abbrev CLK_CLK_STAT_REFCLK_PRESENT : Fld := ⟨7, 1⟩
abbrev CLK_CLK_STAT_TOSC_TRIMMED : Fld := ⟨8, 1⟩
abbrev CLK_CLK_STAT_PLL_LOCK : Fld := ⟨9, 6⟩
abbrev CLK_CLK_STAT_XO_GOOD : Fld := ⟨15, 3⟩
abbrev CLK_XO_MEAS_COUNT : Fld := ⟨0, 16⟩
abbrev CLK_MON_CTL_MON_TOL_PCT : Fld := ⟨0, 4⟩
abbrev CLK_MON_CTL_LINK_MON_EN : Fld := ⟨4, 1⟩
abbrev CLK_FMC_CTL_MEAS_SEL : Fld := ⟨0, 4⟩
abbrev CLK_FMC_CTL_REF_SEL : Fld := ⟨4, 4⟩
abbrev CLK_FMC_CTL_WINDOW : Fld := ⟨8, 20⟩
abbrev CLK_FMC_CTL_START : Fld := ⟨31, 1⟩
abbrev CLK_FMC_RESULT_COUNT : Fld := ⟨0, 31⟩
abbrev CLK_FMC_RESULT_DONE : Fld := ⟨31, 1⟩
abbrev CLK_RST_CMD_ORDERLY : Fld := ⟨0, 1⟩
abbrev CLK_RST_CMD_IMMEDIATE : Fld := ⟨1, 1⟩
abbrev CLK_RST_CMD_KEY : Fld := ⟨16, 16⟩
abbrev CLK_RESET_CAUSE_POR : Fld := ⟨0, 1⟩
abbrev CLK_RESET_CAUSE_PIN : Fld := ⟨1, 1⟩
abbrev CLK_RESET_CAUSE_SW_ORDERLY : Fld := ⟨2, 1⟩
abbrev CLK_RESET_CAUSE_SW_IMMEDIATE : Fld := ⟨3, 1⟩
abbrev CLK_RESET_CAUSE_FAULT : Fld := ⟨4, 1⟩
abbrev CLK_RESET_CAUSE_CLEAN : Fld := ⟨8, 1⟩
abbrev CLK_BOOT_STAT_STEP : Fld := ⟨0, 4⟩
abbrev CLK_BOOT_STAT_STALLED : Fld := ⟨4, 1⟩
abbrev CLK_BOOT_TIME_LINK_MS : Fld := ⟨0, 16⟩
abbrev CLK_BOOT_TIME_PCIE_MS : Fld := ⟨16, 16⟩
abbrev CLK_GATE_LAST_PAGE : Fld := ⟨0, 10⟩
abbrev CLK_XO_TRIPS_COUNT : Fld := ⟨0, 32⟩
abbrev CLK_LINK_CLK_TRIPS_COUNT : Fld := ⟨0, 32⟩
abbrev CLK_DROGUE_ENTRIES_COUNT : Fld := ⟨0, 32⟩
abbrev CLK_DROGUE_LAST_MS_MS : Fld := ⟨0, 32⟩
abbrev CLK_GATE_DENIALS_COUNT : Fld := ⟨0, 32⟩

/-! ### FUSE page (R386) -/
abbrev FUSE_DIE_ID_IDENT : Fld := ⟨0, 32⟩
abbrev FUSE_SERIAL_LO_SERIAL_LO : Fld := ⟨0, 32⟩
abbrev FUSE_SERIAL_HI_SERIAL_HI : Fld := ⟨0, 32⟩
abbrev FUSE_LIFE_STAT_STATE : Fld := ⟨0, 3⟩
abbrev FUSE_LIFE_STAT_PENDING : Fld := ⟨3, 1⟩
abbrev FUSE_SLOT_STAT_SLOTS : Fld := ⟨0, 30⟩
abbrev FUSE_INTEG_STAT_FAILED : Fld := ⟨0, 8⟩
abbrev FUSE_INTEG_STAT_MARGINAL : Fld := ⟨8, 8⟩
abbrev FUSE_INTEG_STAT_TRIM_DEFAULT : Fld := ⟨16, 1⟩
abbrev FUSE_MARGINAL_CNT_MARGINAL : Fld := ⟨0, 12⟩
abbrev FUSE_MARGINAL_CNT_FAILED : Fld := ⟨16, 12⟩
abbrev FUSE_CORR_WORDS_COUNT : Fld := ⟨0, 12⟩
abbrev FUSE_READ_ADDR_WORD : Fld := ⟨0, 12⟩
abbrev FUSE_READ_DATA_DATA : Fld := ⟨0, 32⟩
abbrev FUSE_READ_STAT_MARGINAL : Fld := ⟨0, 1⟩
abbrev FUSE_READ_STAT_CORRECTED : Fld := ⟨1, 1⟩
abbrev FUSE_READ_STAT_FAILED : Fld := ⟨2, 1⟩
abbrev FUSE_READ_STAT_BLANK : Fld := ⟨3, 1⟩
abbrev FUSE_READ_STAT_DONE : Fld := ⟨31, 1⟩
abbrev FUSE_PROG_ADDR_WORD : Fld := ⟨0, 12⟩
abbrev FUSE_PROG_DATA_DATA : Fld := ⟨0, 32⟩
abbrev FUSE_PROG_CMD_PROGRAM : Fld := ⟨0, 1⟩
abbrev FUSE_PROG_CMD_GEN_SECRET : Fld := ⟨1, 1⟩
abbrev FUSE_PROG_CMD_LIFE_NEXT : Fld := ⟨2, 1⟩
abbrev FUSE_PROG_CMD_LIFE_VOID : Fld := ⟨3, 1⟩
abbrev FUSE_PROG_CMD_KEY : Fld := ⟨16, 16⟩
abbrev FUSE_PROG_STAT_BUSY : Fld := ⟨0, 1⟩
abbrev FUSE_PROG_STAT_RESULT : Fld := ⟨1, 3⟩
abbrev FUSE_PROG_STAT_COND_OK : Fld := ⟨4, 1⟩
abbrev FUSE_APPEND_STAT_USED : Fld := ⟨0, 11⟩
abbrev FUSE_APPEND_STAT_PENDING : Fld := ⟨11, 7⟩
abbrev FUSE_APPEND_STAT_FULL : Fld := ⟨18, 1⟩
abbrev FUSE_REREADS_COUNT : Fld := ⟨0, 32⟩
abbrev FUSE_DRIFTS_COUNT : Fld := ⟨0, 32⟩
abbrev FUSE_PROG_WORDS_COUNT : Fld := ⟨0, 32⟩
abbrev FUSE_VERIFY_FAILS_COUNT : Fld := ⟨0, 32⟩

/-! ### LOCK page (R387) -/
abbrev LOCK_PROG_LOCK_REGIONS : Fld := ⟨0, 8⟩
abbrev LOCK_DBG_LOCK_TAP_RESTRICT : Fld := ⟨0, 1⟩
abbrev LOCK_DBG_LOCK_SCAN_OFF : Fld := ⟨1, 1⟩
abbrev LOCK_LOCK_STAT_BOOT_LOCKED : Fld := ⟨0, 1⟩
abbrev LOCK_PAGE_LOCK_PAGES : Fld := ⟨0, 32⟩

/-! ### SEC page (R388) -/
abbrev SEC_SEC_STAT_SECRET_LOADED : Fld := ⟨0, 1⟩
abbrev SEC_SEC_STAT_KEYS_VALID : Fld := ⟨1, 1⟩
abbrev SEC_SEC_STAT_ATTEST_EN : Fld := ⟨2, 1⟩
abbrev SEC_SEC_STAT_SCAN_CLEARED : Fld := ⟨3, 1⟩
abbrev SEC_SEC_STAT_FW_SIGNER : Fld := ⟨4, 2⟩
abbrev SEC_SEC_STAT_FW_IMAGE : Fld := ⟨6, 1⟩
abbrev SEC_SEC_STAT_OWNER_REQUIRED : Fld := ⟨7, 1⟩
abbrev SEC_SEC_STAT_FW_SVN : Fld := ⟨16, 16⟩
abbrev SEC_MIN_SVN_SVN : Fld := ⟨0, 16⟩
abbrev SEC_FW_MEAS_DIGEST : Fld := ⟨0, 32⟩
abbrev SEC_DEVID_DIGEST_DIGEST : Fld := ⟨0, 32⟩
abbrev SEC_ZEROIZE_CNT_COUNT : Fld := ⟨0, 32⟩
abbrev SEC_AUTH_FAILS_COUNT : Fld := ⟨0, 32⟩
abbrev SEC_SIGNS_COUNT : Fld := ⟨0, 32⟩

/-! ### BIST page (R404) -/
abbrev BIST_BIST_CTL_ROT_EN : Fld := ⟨0, 1⟩
abbrev BIST_BIST_CTL_ANA_EN : Fld := ⟨1, 1⟩
abbrev BIST_BIST_CTL_PERIOD_H : Fld := ⟨2, 8⟩
abbrev BIST_BIST_CTL_ROT_SET : Fld := ⟨10, 2⟩
abbrev BIST_BIST_CTL_BOOT_SET : Fld := ⟨12, 2⟩
abbrev BIST_BIST_CTL_BOOT_CHECKS : Fld := ⟨14, 6⟩
abbrev BIST_BIST_CTL_LOOP_H : Fld := ⟨20, 4⟩
abbrev BIST_BIST_CTL_CONT_H : Fld := ⟨24, 4⟩
abbrev BIST_BIST_CMD_UNIT : Fld := ⟨0, 6⟩
abbrev BIST_BIST_CMD_CLASS : Fld := ⟨6, 1⟩
abbrev BIST_BIST_CMD_SET : Fld := ⟨7, 2⟩
abbrev BIST_BIST_CMD_START : Fld := ⟨9, 1⟩
abbrev BIST_BIST_STAT_BUSY : Fld := ⟨0, 1⟩
abbrev BIST_BIST_STAT_PASS : Fld := ⟨1, 1⟩
abbrev BIST_BIST_STAT_FAIL : Fld := ⟨2, 1⟩
abbrev BIST_BIST_STAT_ABANDONED : Fld := ⟨3, 1⟩
abbrev BIST_BIST_STAT_BOOT_DONE : Fld := ⟨4, 1⟩
abbrev BIST_ADC_CTL_ADC_TOL : Fld := ⟨0, 8⟩
abbrev BIST_ADC_CTL_BG_CODE : Fld := ⟨8, 12⟩
abbrev BIST_ADC_CTL_GND_CODE : Fld := ⟨20, 12⟩
abbrev BIST_ROT_STAT_CTRL_SLOT : Fld := ⟨0, 4⟩
abbrev BIST_ROT_STAT_ENG_SLOT : Fld := ⟨4, 4⟩
abbrev BIST_ROT_STAT_CTRL_ACTIVE : Fld := ⟨8, 1⟩
abbrev BIST_ROT_STAT_ENG_ACTIVE : Fld := ⟨9, 1⟩
abbrev BIST_ROT_STAT_CTRL_GAP : Fld := ⟨10, 1⟩
abbrev BIST_UNIT_SEL_UNIT : Fld := ⟨0, 6⟩
abbrev BIST_UNIT_SEL_CLASS : Fld := ⟨6, 1⟩
abbrev BIST_UNIT_RESULT_LAST : Fld := ⟨0, 2⟩
abbrev BIST_UNIT_RESULT_FAILED_ONCE : Fld := ⟨2, 1⟩
abbrev BIST_UNIT_RESULT_HOURS : Fld := ⟨8, 24⟩
abbrev BIST_UNIT_TIME_LO_TIME_LO : Fld := ⟨0, 32⟩
abbrev BIST_UNIT_TIME_HI_TIME_HI : Fld := ⟨0, 32⟩
abbrev BIST_SIG_LO_SIG_LO : Fld := ⟨0, 32⟩
abbrev BIST_SIG_HI_SIG_HI : Fld := ⟨0, 32⟩
abbrev BIST_BOOT_FAILS_CTRLS : Fld := ⟨0, 6⟩
abbrev BIST_BOOT_FAILS_ENGINES : Fld := ⟨8, 6⟩
abbrev BIST_BOOT_FAILS_MACROS : Fld := ⟨16, 6⟩
abbrev BIST_BOOT_FAILS_CACHE_BANKS : Fld := ⟨22, 5⟩
abbrev BIST_BOOT_FAILS_LANES : Fld := ⟨27, 1⟩
abbrev BIST_BOOT_FAILS_BLOCK : Fld := ⟨28, 1⟩
abbrev BIST_SLICES_COUNT : Fld := ⟨0, 32⟩
abbrev BIST_SLICE_FAILS_COUNT : Fld := ⟨0, 32⟩
abbrev BIST_ABANDONED_COUNT : Fld := ⟨0, 32⟩
abbrev BIST_DEFERRED_COUNT : Fld := ⟨0, 32⟩
abbrev BIST_UNTESTED_COUNT : Fld := ⟨0, 32⟩
abbrev BIST_LOOP_RUNS_COUNT : Fld := ⟨0, 32⟩
abbrev BIST_LOOP_FAILS_COUNT : Fld := ⟨0, 32⟩
abbrev BIST_LOOP_SKIPPED_COUNT : Fld := ⟨0, 32⟩
abbrev BIST_CONT_RUNS_COUNT : Fld := ⟨0, 32⟩
abbrev BIST_CONT_FAILS_COUNT : Fld := ⟨0, 32⟩
abbrev BIST_ADC_BAD_ROUNDS_COUNT : Fld := ⟨0, 32⟩

/-! ### CAL page (R405) -/
abbrev CAL_CAL_BLK_BLOCK : Fld := ⟨0, 8⟩
abbrev CAL_CAL_IDX_INDEX : Fld := ⟨0, 7⟩
abbrev CAL_CAL_DATA_VALUE : Fld := ⟨0, 32⟩
abbrev CAL_CAL_CMD_COMMIT : Fld := ⟨0, 1⟩
abbrev CAL_CAL_CMD_DISCARD : Fld := ⟨1, 1⟩
abbrev CAL_CAL_STAT_STAGED : Fld := ⟨0, 1⟩
abbrev CAL_CAL_STAT_PENDING : Fld := ⟨1, 1⟩
abbrev CAL_CAL_STAT_ERROR : Fld := ⟨2, 3⟩
abbrev CAL_CAL_STAT_WORDS : Fld := ⟨8, 7⟩
abbrev CAL_CAL_COUNT_COUNT : Fld := ⟨0, 32⟩
abbrev CAL_CAL_TIME_LO_TIME_LO : Fld := ⟨0, 32⟩
abbrev CAL_CAL_TIME_HI_TIME_HI : Fld := ⟨0, 32⟩
abbrev CAL_TOSC_CTL_TRACK_EN : Fld := ⟨0, 1⟩
abbrev CAL_TOSC_CTL_TRACK_S : Fld := ⟨8, 8⟩
abbrev CAL_TOSC_STAT_TRIM : Fld := ⟨0, 8⟩
abbrev CAL_TOSC_STAT_LAST_COUNT : Fld := ⟨8, 23⟩
abbrev CAL_COMMITS_COUNT : Fld := ⟨0, 32⟩
abbrev CAL_COMMIT_ERRORS_COUNT : Fld := ⟨0, 32⟩

/-! ### DEV page (R425) -/
abbrev DEV_DEV_CTL_PERF_USER_EN : Fld := ⟨0, 1⟩
abbrev DEV_ACC_ERR_PAGE : Fld := ⟨0, 10⟩
abbrev DEV_ACC_ERR_DWORD : Fld := ⟨10, 10⟩
abbrev DEV_ACC_ERR_WRITE : Fld := ⟨20, 1⟩
abbrev DEV_ACC_ERR_CAUSE : Fld := ⟨21, 3⟩
abbrev DEV_ACC_ERR_PATH : Fld := ⟨24, 2⟩
abbrev DEV_ACC_ERR_CNT_COUNT : Fld := ⟨0, 32⟩
abbrev DEV_SCRATCH_VALUE : Fld := ⟨0, 32⟩

/-! ### MGMT page (R426) -/
abbrev MGMT_MB_CMD_OPCODE : Fld := ⟨0, 8⟩
abbrev MGMT_MB_CMD_GO : Fld := ⟨31, 1⟩
abbrev MGMT_MB_STAT_BUSY : Fld := ⟨0, 1⟩
abbrev MGMT_MB_STAT_DONE : Fld := ⟨1, 1⟩
abbrev MGMT_MB_STAT_RESULT : Fld := ⟨8, 8⟩
abbrev MGMT_MB_STAT_OUT_LEN : Fld := ⟨16, 6⟩
abbrev MGMT_MB_IN_DATA : Fld := ⟨0, 32⟩
abbrev MGMT_MB_OUT_DATA : Fld := ⟨0, 32⟩
abbrev MGMT_MB_IRQ_VECTOR : Fld := ⟨0, 6⟩
abbrev MGMT_MB_IRQ_IRQ_EN0 : Fld := ⟨6, 1⟩
abbrev MGMT_MB_IRQ_IRQ_EN1 : Fld := ⟨7, 1⟩
abbrev MGMT_GONDOLA_STAT_FW_RUNNING : Fld := ⟨0, 1⟩
abbrev MGMT_GONDOLA_STAT_ON_TOSC : Fld := ⟨1, 1⟩
abbrev MGMT_COMMANDS_COUNT : Fld := ⟨0, 32⟩
abbrev MGMT_MB_REFUSED_COUNT : Fld := ⟨0, 32⟩

/-! ### PCIEM page (R427) -/
abbrev PCIEM_WIN_CTL_WIN_EN : Fld := ⟨0, 1⟩
abbrev PCIEM_WIN_CTL_WIN_MID : Fld := ⟨1, 6⟩
abbrev PCIEM_WIN_CTL_WIN_TC : Fld := ⟨7, 3⟩
abbrev PCIEM_WIN_BASE_PARCEL : Fld := ⟨0, 21⟩
abbrev PCIEM_WIN_STAT_AVAILABLE : Fld := ⟨0, 1⟩
abbrev PCIEM_WIN_STAT_LAST_META : Fld := ⟨1, 4⟩
abbrev PCIEM_WIN_STAT_LAST_POISON : Fld := ⟨5, 1⟩
abbrev PCIEM_PCIE_STAT_SPEED : Fld := ⟨0, 4⟩
abbrev PCIEM_PCIE_STAT_WIDTH : Fld := ⟨4, 6⟩
abbrev PCIEM_PCIE_STAT_DL_UP : Fld := ⟨10, 1⟩
abbrev PCIEM_PCIE_STAT_IN_L1 : Fld := ⟨11, 1⟩
abbrev PCIEM_PCIE_STAT_DSTATE : Fld := ⟨12, 2⟩
abbrev PCIEM_CFG_ID_VENDOR : Fld := ⟨0, 16⟩
abbrev PCIEM_CFG_ID_DEVICE : Fld := ⟨16, 16⟩
abbrev PCIEM_WIN_READS_COUNT : Fld := ⟨0, 32⟩
abbrev PCIEM_WIN_WRITES_COUNT : Fld := ⟨0, 32⟩
abbrev PCIEM_WIN_ABORTS_COUNT : Fld := ⟨0, 32⟩
abbrev PCIEM_WIN_POISON_RD_COUNT : Fld := ⟨0, 32⟩
abbrev PCIEM_WIN_POISON_DROP_COUNT : Fld := ⟨0, 32⟩
abbrev PCIEM_MSIX_SENT_COUNT : Fld := ⟨0, 32⟩
abbrev PCIEM_L1_ENTRIES_COUNT : Fld := ⟨0, 32⟩

/-! ### SPI page (R428) -/
abbrev SPI_SPI_CTL_CLK_DIV : Fld := ⟨0, 4⟩
abbrev SPI_SPI_CTL_ADDR4 : Fld := ⟨4, 1⟩
abbrev SPI_SPI_CTL_HOST_RAW : Fld := ⟨5, 1⟩
abbrev SPI_SPI_STAT_BUSY : Fld := ⟨0, 1⟩
abbrev SPI_SPI_STAT_RAW_ACTIVE : Fld := ⟨1, 1⟩
abbrev SPI_SPI_STAT_PRESENT : Fld := ⟨2, 1⟩
abbrev SPI_SPI_STAT_GONDOLA_WAIT : Fld := ⟨3, 1⟩
abbrev SPI_SPI_STAT_RAW_DONE : Fld := ⟨4, 1⟩
abbrev SPI_FLASH_ID_JEDEC_ID : Fld := ⟨0, 24⟩
abbrev SPI_RAW_CMD_OPCODE : Fld := ⟨0, 8⟩
abbrev SPI_RAW_CMD_LANES : Fld := ⟨8, 2⟩
abbrev SPI_RAW_CMD_DUMMY : Fld := ⟨10, 5⟩
abbrev SPI_RAW_CMD_LEN : Fld := ⟨15, 7⟩
abbrev SPI_RAW_CMD_WRITE : Fld := ⟨22, 1⟩
abbrev SPI_RAW_CMD_ADDR_EN : Fld := ⟨23, 1⟩
abbrev SPI_RAW_CMD_START : Fld := ⟨31, 1⟩
abbrev SPI_RAW_ADDR_ADDR : Fld := ⟨0, 32⟩
abbrev SPI_RAW_DATA_DATA : Fld := ⟨0, 32⟩
abbrev SPI_READ_KB_COUNT : Fld := ⟨0, 32⟩
abbrev SPI_PROGRAMS_COUNT : Fld := ⟨0, 32⟩
abbrev SPI_ERASES_COUNT : Fld := ⟨0, 32⟩
abbrev SPI_FLASH_ERRORS_COUNT : Fld := ⟨0, 32⟩
abbrev SPI_LOG_NEXT_INDEX : Fld := ⟨0, 15⟩

/-! ### HEALTH page (R429) -/
abbrev HEALTH_HEALTH_STAT_STATE : Fld := ⟨0, 2⟩
abbrev HEALTH_HEALTH_STAT_FIELD_REPAIR : Fld := ⟨2, 1⟩
abbrev HEALTH_HEALTH_STAT_RECOVERING : Fld := ⟨3, 1⟩
abbrev HEALTH_HEALTH_COND_CONDS : Fld := ⟨0, 32⟩
abbrev HEALTH_REC_LANE_GROUPS : Fld := ⟨0, 16⟩
abbrev HEALTH_REC_CHAN_CHANNELS : Fld := ⟨0, 32⟩
abbrev HEALTH_REC_OTHER_QUADS : Fld := ⟨0, 4⟩
abbrev HEALTH_REC_OTHER_POOLS : Fld := ⟨4, 4⟩
abbrev HEALTH_REC_OTHER_CACHE : Fld := ⟨8, 1⟩
abbrev HEALTH_REC_OTHER_DIES : Fld := ⟨16, 16⟩
abbrev HEALTH_LEND_ACTIVE : Fld := ⟨0, 1⟩
abbrev HEALTH_LEND_ORPHAN : Fld := ⟨1, 5⟩
abbrev HEALTH_LEND_LENDER : Fld := ⟨6, 6⟩
abbrev HEALTH_UNAVAIL_LO_US_LO : Fld := ⟨0, 32⟩
abbrev HEALTH_UNAVAIL_HI_US_HI : Fld := ⟨0, 32⟩
abbrev HEALTH_UNAVAIL_EVENTS_COUNT : Fld := ⟨0, 32⟩
abbrev HEALTH_LAST_UNAVAIL_US : Fld := ⟨0, 32⟩
abbrev HEALTH_STATE_CHANGES_COUNT : Fld := ⟨0, 32⟩
abbrev HEALTH_FIELD_REPAIRS_COUNT : Fld := ⟨0, 32⟩

/-! ### PERF page (R443) -/
abbrev PERF_PERF_CTL_FREEZE : Fld := ⟨0, 1⟩
abbrev PERF_PERF_CTL_SNAPSHOT : Fld := ⟨1, 1⟩
abbrev PERF_PERF_CTL_SNAP_ON_NMA : Fld := ⟨2, 1⟩
abbrev PERF_PERF_CTL_FREEZE_ON_NMA : Fld := ⟨3, 1⟩
abbrev PERF_PERF_CTL_FREEZE_RING : Fld := ⟨4, 1⟩
abbrev PERF_PERF_CTL_USER_SNAP_EN : Fld := ⟨5, 1⟩
abbrev PERF_PERF_STAT_FROZEN : Fld := ⟨0, 1⟩
abbrev PERF_PERF_STAT_SNAP_VALID : Fld := ⟨1, 1⟩
abbrev PERF_SNAP_TS_LO_TS_LO : Fld := ⟨0, 32⟩
abbrev PERF_SNAP_TS_HI_TS_HI : Fld := ⟨0, 32⟩
abbrev PERF_SNAP_COUNT_COUNT : Fld := ⟨0, 32⟩
abbrev PERF_PC_SEL_PAGE : Fld := ⟨0, 10⟩
abbrev PERF_PC_SEL_CTR : Fld := ⟨10, 2⟩
abbrev PERF_PC_CFG_EVENT : Fld := ⟨0, 10⟩
abbrev PERF_PC_CFG_MODE : Fld := ⟨10, 1⟩
abbrev PERF_PC_CFG_EVENT_OK : Fld := ⟨11, 1⟩
abbrev PERF_PC_VAL_LO_VAL_LO : Fld := ⟨0, 32⟩
abbrev PERF_PC_VAL_HI_VAL_HI : Fld := ⟨0, 16⟩
abbrev PERF_PC_SNAP_LO_SNAP_LO : Fld := ⟨0, 32⟩
abbrev PERF_PC_SNAP_HI_SNAP_HI : Fld := ⟨0, 16⟩
abbrev PERF_PC_CMD_CLEAR : Fld := ⟨0, 1⟩
abbrev PERF_PC_CMD_CLEAR_ALL : Fld := ⟨1, 1⟩
abbrev PERF_SAMP_CTL_EN : Fld := ⟨0, 1⟩
abbrev PERF_SAMP_CTL_K : Fld := ⟨1, 5⟩
abbrev PERF_SAMP_CTL_RING_MODE : Fld := ⟨6, 1⟩
abbrev PERF_SAMP_CTL_OPC_RD : Fld := ⟨8, 1⟩
abbrev PERF_SAMP_CTL_OPC_WR : Fld := ⟨9, 1⟩
abbrev PERF_SAMP_CTL_OPC_ATOM : Fld := ⟨10, 1⟩
abbrev PERF_SAMP_CTL_TC_MASK : Fld := ⟨16, 8⟩
abbrev PERF_SAMP_MID_LO_MIDS_LO : Fld := ⟨0, 32⟩
abbrev PERF_SAMP_MID_HI_MIDS_HI : Fld := ⟨0, 32⟩
abbrev PERF_SAMP_SEED_SEED : Fld := ⟨0, 32⟩
abbrev PERF_RING_WR_INDEX : Fld := ⟨0, 12⟩
abbrev PERF_RING_RD_INDEX : Fld := ⟨0, 12⟩
abbrev PERF_RING_SEL_INDEX : Fld := ⟨0, 12⟩
abbrev PERF_RING_SEL_STAT_DONE : Fld := ⟨0, 1⟩
abbrev PERF_SAMPLES_LO_SAMPLES_LO : Fld := ⟨0, 32⟩
abbrev PERF_SAMPLES_HI_SAMPLES_HI : Fld := ⟨0, 32⟩
abbrev PERF_SAMP_LOST_COUNT : Fld := ⟨0, 32⟩
abbrev PERF_SAMP_BUSY_COUNT : Fld := ⟨0, 32⟩
abbrev PERF_USER_MAP_PAGE : Fld := ⟨0, 10⟩
abbrev PERF_USER_MAP_CTR : Fld := ⟨10, 2⟩
abbrev PERF_USER_MAP_VALID : Fld := ⟨31, 1⟩
abbrev PERF_RING_WORD_DATA : Fld := ⟨0, 32⟩

/-! ### PERFU page (R444) -/
abbrev PERFU_USER_STAT_MAPPED : Fld := ⟨0, 16⟩
abbrev PERFU_USER_STAT_FROZEN : Fld := ⟨16, 1⟩
abbrev PERFU_USER_STAT_SNAP_VALID : Fld := ⟨17, 1⟩
abbrev PERFU_USER_CMD_SNAPSHOT : Fld := ⟨0, 1⟩
abbrev PERFU_SNAP_TS_LO_TS_LO : Fld := ⟨0, 32⟩
abbrev PERFU_SNAP_TS_HI_TS_HI : Fld := ⟨0, 32⟩
abbrev PERFU_USER_VAL_LO_VAL_LO : Fld := ⟨0, 32⟩
abbrev PERFU_USER_VAL_HI_VAL_HI : Fld := ⟨0, 16⟩
abbrev PERFU_USER_SNAP_LO_SNAP_LO : Fld := ⟨0, 32⟩
abbrev PERFU_USER_SNAP_HI_SNAP_HI : Fld := ⟨0, 16⟩

/-! ### The common header (R408) -/
abbrev PG_CTL_ENABLE : Fld := ⟨0, 1⟩
abbrev PG_CTL_BLOCK_RESET : Fld := ⟨1, 1⟩
abbrev PG_CTL_GATE_REQ : Fld := ⟨2, 1⟩
abbrev PG_STAT_READY : Fld := ⟨0, 1⟩
abbrev PG_STAT_GATED : Fld := ⟨1, 1⟩
abbrev PG_STAT_IN_RESET : Fld := ⟨2, 1⟩
abbrev PG_STAT_SPARED : Fld := ⟨3, 1⟩
abbrev PG_STAT_RETIRED : Fld := ⟨4, 1⟩
abbrev PG_STAT_UNDER_TEST : Fld := ⟨5, 1⟩

end F
end Sys2Proof.Machine
end

