-- ==== Sys2Proof/Machine/RegTable.lean ====
section
/-! DEFINITION. The register tables of the manual's page chapters as data: for every register its page row (R463),
offset, array shape, and each field's place, access code and value after chip reset. Reset values that the manual
gives per instance, by fuse, by ROM or by a table of another rule stand as 0 here; `RegFile.lean` and the view of the
register supply them. -/

namespace Sys2Proof.Machine

/-- Access codes of the register tables (Scope, "Notation"). -/
inductive Acc where
  | rw | ro | rwl | cmd | rl | hw
  deriving DecidableEq, Repr

/-- A field of a register table. -/
structure FieldDesc where
  lsb : Nat
  width : Nat
  acc : Acc
  reset : Nat
  deriving DecidableEq, Repr

/-- A register of a register table: first page index of its row, number of instances, offset in the page, number of
array elements and their stride in bytes, and its fields. -/
structure RegDesc where
  page : Nat
  insts : Nat
  off : Nat
  count : Nat
  stride : Nat
  fields : List FieldDesc
  deriving DecidableEq, Repr

/-- TXG (R63). -/
def regTableTxg : List RegDesc := [
  ⟨0x80, 8, 0x40, 1, 4, [⟨0, 1, .rw, 1⟩, ⟨1, 1, .rw, 0⟩, ⟨2, 1, .rw, 0⟩, ⟨3, 1, .rw, 0⟩, ⟨4, 4, .rw, 0xA⟩]⟩,
  ⟨0x80, 8, 0x44, 1, 4, [⟨0, 4, .hw, 0⟩, ⟨4, 4, .hw, 9⟩, ⟨8, 10, .hw, 0⟩, ⟨18, 1, .hw, 0⟩, ⟨19, 1, .hw, 0⟩, ⟨20, 1, .hw, 0⟩, ⟨21, 1, .hw, 0⟩]⟩,
  ⟨0x80, 8, 0x4C, 1, 4, [⟨0, 32, .hw, 0⟩]⟩,
  ⟨0x80, 8, 0x80, 10, 16, [⟨0, 3, .hw, 0⟩, ⟨8, 5, .hw, 6⟩, ⟨16, 6, .hw, 0x33⟩, ⟨24, 5, .hw, 6⟩]⟩,
  ⟨0x80, 8, 0x84, 10, 16, [⟨0, 1, .rw, 0⟩, ⟨1, 3, .rw, 0⟩, ⟨4, 1, .rw, 0⟩, ⟨5, 1, .rw, 0⟩, ⟨6, 1, .rw, 0⟩]⟩,
  ⟨0x80, 8, 0x88, 10, 16, [⟨0, 1, .cmd, 0⟩, ⟨1, 1, .cmd, 0⟩, ⟨2, 6, .cmd, 0⟩]⟩,
  ⟨0x80, 8, 0x8C, 10, 16, [⟨0, 32, .rw, 0⟩]⟩]

/-- RXG (R64). -/
def regTableRxg : List RegDesc := [
  ⟨0x88, 8, 0x40, 1, 4, [⟨0, 1, .rw, 1⟩, ⟨1, 1, .rw, 0⟩, ⟨2, 1, .rw, 0⟩, ⟨3, 4, .rw, 4⟩, ⟨7, 1, .rw, 0⟩]⟩,
  ⟨0x88, 8, 0x44, 1, 4, [⟨0, 4, .hw, 0⟩, ⟨4, 4, .hw, 9⟩, ⟨8, 10, .hw, 0⟩, ⟨18, 1, .hw, 0⟩, ⟨19, 1, .hw, 0⟩, ⟨20, 1, .hw, 0⟩, ⟨21, 1, .hw, 0⟩, ⟨24, 8, .hw, 0⟩]⟩,
  ⟨0x88, 8, 0x48, 1, 4, [⟨0, 4, .rw, 9⟩]⟩,
  ⟨0x88, 8, 0x4C, 1, 4, [⟨0, 1, .cmd, 0⟩, ⟨1, 4, .cmd, 0⟩, ⟨5, 1, .cmd, 0⟩]⟩,
  ⟨0x88, 8, 0x50, 1, 4, [⟨0, 4, .hw, 0⟩, ⟨4, 4, .hw, 0⟩, ⟨8, 16, .hw, 0⟩]⟩,
  ⟨0x88, 8, 0x100, 10, 64, [⟨0, 1, .hw, 0⟩, ⟨1, 3, .rw, 0⟩, ⟨4, 1, .rw, 0⟩, ⟨5, 1, .rw, 0⟩, ⟨6, 1, .rw, 0⟩, ⟨7, 1, .rw, 0⟩]⟩,
  ⟨0x88, 8, 0x104, 10, 64, [⟨0, 1, .hw, 0⟩, ⟨1, 1, .hw, 0⟩, ⟨2, 1, .hw, 0⟩, ⟨3, 1, .hw, 0⟩, ⟨4, 1, .hw, 0⟩, ⟨5, 1, .hw, 0⟩, ⟨8, 8, .hw, 0⟩, ⟨16, 8, .hw, 0⟩]⟩,
  ⟨0x88, 8, 0x108, 10, 64, [⟨0, 4, .hw, 8⟩, ⟨8, 4, .hw, 8⟩]⟩,
  ⟨0x88, 8, 0x10C, 10, 64, [⟨0, 32, .hw, 0⟩]⟩,
  ⟨0x88, 8, 0x110, 10, 64, [⟨0, 32, .hw, 0⟩]⟩,
  ⟨0x88, 8, 0x114, 10, 64, [⟨0, 32, .hw, 0⟩]⟩,
  ⟨0x88, 8, 0x118, 10, 64, [⟨0, 32, .rl, 0⟩]⟩,
  ⟨0x88, 8, 0x11C, 10, 64, [⟨0, 32, .hw, 0⟩]⟩,
  ⟨0x88, 8, 0x120, 10, 64, [⟨0, 32, .hw, 0⟩]⟩,
  ⟨0x88, 8, 0x124, 10, 64, [⟨0, 8, .hw, 0⟩, ⟨8, 8, .hw, 0⟩, ⟨16, 8, .hw, 0⟩, ⟨24, 6, .hw, 0⟩]⟩,
  ⟨0x88, 8, 0x128, 10, 64, [⟨0, 1, .cmd, 0⟩, ⟨1, 8, .rw, 0⟩, ⟨9, 7, .rw, 0⟩, ⟨16, 2, .rw, 0⟩, ⟨18, 6, .rw, 0x18⟩, ⟨31, 1, .hw, 0⟩]⟩,
  ⟨0x88, 8, 0x12C, 10, 64, [⟨0, 32, .hw, 0⟩]⟩]

/-- LINK (R97). -/
def regTableLink : List RegDesc := [
  ⟨0xE, 1, 0x40, 1, 4, [⟨0, 1, .cmd, 0⟩, ⟨1, 1, .cmd, 0⟩, ⟨2, 1, .cmd, 0⟩, ⟨4, 12, .rw, 0x100⟩, ⟨16, 4, .rw, 4⟩, ⟨20, 12, .rw, 0xC8⟩]⟩,
  ⟨0xE, 1, 0x44, 1, 4, [⟨0, 4, .hw, 0⟩, ⟨4, 2, .hw, 0⟩, ⟨6, 2, .hw, 0⟩, ⟨8, 12, .hw, 0⟩, ⟨20, 12, .hw, 0⟩]⟩,
  ⟨0xE, 1, 0x48, 1, 4, [⟨0, 12, .hw, 0⟩, ⟨12, 12, .hw, 0⟩, ⟨24, 1, .hw, 0⟩, ⟨25, 3, .hw, 0⟩]⟩,
  ⟨0xE, 1, 0x4C, 1, 4, [⟨0, 2, .rw, 0⟩, ⟨2, 2, .rw, 0⟩, ⟨4, 1, .rw, 0⟩, ⟨5, 1, .rw, 0⟩, ⟨6, 7, .rw, 0x14⟩, ⟨13, 7, .rw, 0x3C⟩, ⟨20, 4, .rw, 6⟩, ⟨24, 1, .rw, 1⟩]⟩,
  ⟨0xE, 1, 0x50, 1, 4, [⟨0, 2, .hw, 0⟩, ⟨2, 2, .hw, 0⟩, ⟨4, 2, .hw, 3⟩, ⟨6, 2, .hw, 3⟩, ⟨8, 1, .hw, 0⟩, ⟨9, 1, .hw, 0⟩, ⟨16, 8, .hw, 0⟩, ⟨24, 8, .hw, 0⟩]⟩,
  ⟨0xE, 1, 0x54, 1, 4, [⟨0, 8, .hw, 0⟩, ⟨8, 8, .hw, 0⟩]⟩,
  ⟨0xE, 1, 0x60, 1, 4, [⟨0, 32, .rl, 0⟩]⟩,
  ⟨0xE, 1, 0x64, 1, 4, [⟨0, 32, .hw, 0⟩]⟩,
  ⟨0xE, 1, 0x68, 1, 4, [⟨0, 32, .hw, 0⟩]⟩,
  ⟨0xE, 1, 0x6C, 1, 4, [⟨0, 32, .hw, 0⟩]⟩,
  ⟨0xE, 1, 0x70, 1, 4, [⟨0, 32, .hw, 0⟩]⟩,
  ⟨0xE, 1, 0x74, 1, 4, [⟨0, 32, .hw, 0⟩]⟩,
  ⟨0xE, 1, 0x78, 1, 4, [⟨0, 32, .hw, 0⟩]⟩,
  ⟨0xE, 1, 0x7C, 1, 4, [⟨0, 32, .hw, 0⟩]⟩,
  ⟨0xE, 1, 0x80, 1, 4, [⟨0, 32, .hw, 0⟩]⟩,
  ⟨0xE, 1, 0x84, 1, 4, [⟨0, 32, .hw, 0⟩]⟩,
  ⟨0xE, 1, 0x88, 1, 4, [⟨0, 32, .hw, 0⟩]⟩,
  ⟨0xE, 1, 0x8C, 1, 4, [⟨0, 32, .hw, 0⟩]⟩,
  ⟨0xE, 1, 0x90, 1, 4, [⟨0, 32, .hw, 0⟩]⟩,
  ⟨0xE, 1, 0x94, 1, 4, [⟨0, 32, .hw, 0⟩]⟩,
  ⟨0xE, 1, 0x98, 1, 4, [⟨0, 32, .hw, 0⟩]⟩,
  ⟨0xE, 1, 0xC0, 8, 4, [⟨0, 14, .rw, 0x800⟩, ⟨16, 14, .rw, 0x1400⟩]⟩,
  ⟨0xE, 1, 0xE0, 8, 4, [⟨0, 16, .hw, 0⟩, ⟨16, 16, .hw, 0⟩]⟩]

/-- XACT (R131). -/
def regTableXact : List RegDesc := [
  ⟨0xF, 1, 0x40, 1, 4, [⟨0, 1, .rw, 1⟩, ⟨1, 1, .rw, 1⟩, ⟨2, 3, .rw, 7⟩, ⟨5, 1, .rw, 1⟩]⟩,
  ⟨0xF, 1, 0x44, 1, 4, [⟨0, 31, .hw, 0x78000000⟩]⟩,
  ⟨0xF, 1, 0x48, 1, 4, [⟨0, 32, .rw, 1⟩]⟩,
  ⟨0xF, 1, 0x4C, 1, 4, [⟨0, 32, .rw, 0⟩]⟩,
  ⟨0xF, 1, 0x50, 1, 4, [⟨0, 13, .hw, 0⟩, ⟨13, 7, .hw, 0⟩, ⟨20, 1, .hw, 0⟩]⟩,
  ⟨0xF, 1, 0x54, 1, 4, [⟨0, 12, .hw, 0⟩]⟩,
  ⟨0xF, 1, 0x60, 1, 4, [⟨0, 32, .rl, 0⟩]⟩,
  ⟨0xF, 1, 0x64, 1, 4, [⟨0, 32, .hw, 0⟩]⟩,
  ⟨0xF, 1, 0x68, 1, 4, [⟨0, 32, .hw, 0⟩]⟩,
  ⟨0xF, 1, 0x6C, 1, 4, [⟨0, 32, .hw, 0⟩]⟩,
  ⟨0xF, 1, 0x70, 1, 4, [⟨0, 32, .hw, 0⟩]⟩,
  ⟨0xF, 1, 0x74, 1, 4, [⟨0, 32, .hw, 0⟩]⟩,
  ⟨0xF, 1, 0x78, 1, 4, [⟨0, 32, .hw, 0⟩]⟩,
  ⟨0xF, 1, 0x7C, 1, 4, [⟨0, 32, .hw, 0⟩]⟩,
  ⟨0xF, 1, 0x80, 1, 4, [⟨0, 32, .hw, 0⟩]⟩,
  ⟨0xF, 1, 0x84, 1, 4, [⟨0, 32, .hw, 0⟩]⟩,
  ⟨0xF, 1, 0x88, 1, 4, [⟨0, 32, .hw, 0⟩]⟩,
  ⟨0xF, 1, 0x8C, 1, 4, [⟨0, 32, .hw, 0⟩]⟩,
  ⟨0xF, 1, 0x90, 1, 4, [⟨0, 32, .hw, 0⟩]⟩,
  ⟨0xF, 1, 0x94, 1, 4, [⟨0, 32, .hw, 0⟩]⟩,
  ⟨0xF, 1, 0x98, 1, 4, [⟨0, 32, .hw, 0⟩]⟩,
  ⟨0xF, 1, 0xA0, 1, 4, [⟨0, 32, .rl, 0⟩]⟩,
  ⟨0xF, 1, 0xA4, 1, 4, [⟨0, 32, .hw, 0⟩]⟩]

/-- PLACE (R166). -/
def regTablePlaceA : List RegDesc := [
  ⟨0xC, 1, 0x40, 1, 4, [⟨0, 1, .rw, 1⟩, ⟨1, 1, .rw, 1⟩, ⟨2, 1, .rw, 1⟩, ⟨3, 1, .rw, 1⟩, ⟨4, 4, .rw, 8⟩, ⟨8, 9, .rw, 0x100⟩, ⟨17, 7, .rw, 0x19⟩]⟩,
  ⟨0xC, 1, 0x44, 1, 4, [⟨0, 7, .rw, 5⟩, ⟨7, 7, .rw, 0xA⟩, ⟨14, 4, .rw, 2⟩, ⟨18, 4, .rw, 4⟩, ⟨22, 10, .rw, 0x20⟩]⟩,
  ⟨0xC, 1, 0x48, 1, 4, [⟨0, 12, .rw, 0x7D0⟩, ⟨12, 7, .rw, 0x40⟩]⟩,
  ⟨0xC, 1, 0x4C, 1, 4, [⟨0, 8, .rw, 0x5A⟩, ⟨8, 8, .rw, 0x50⟩]⟩,
  ⟨0xC, 1, 0x50, 1, 4, [⟨0, 8, .rw, 0x20⟩, ⟨8, 8, .rw, 8⟩]⟩,
  ⟨0xC, 1, 0x54, 1, 4, [⟨0, 21, .rw, 0x20000⟩]⟩,
  ⟨0xC, 1, 0x58, 1, 4, [⟨0, 16, .rw, 0x40⟩]⟩,
  ⟨0xC, 1, 0x5C, 1, 4, [⟨0, 16, .rw, 0x3E8⟩, ⟨16, 1, .rw, 1⟩]⟩,
  ⟨0xC, 1, 0x60, 1, 4, [⟨0, 21, .cmd, 0⟩, ⟨21, 10, .cmd, 0⟩, ⟨31, 1, .cmd, 0⟩]⟩,
  ⟨0xC, 1, 0x64, 1, 4, [⟨0, 21, .cmd, 0⟩]⟩,
  ⟨0xC, 1, 0x68, 1, 4, [⟨0, 28, .hw, 0⟩, ⟨31, 1, .hw, 0⟩]⟩,
  ⟨0xC, 1, 0x6C, 1, 4, [⟨0, 8, .hw, 0⟩, ⟨8, 5, .hw, 0⟩, ⟨13, 1, .hw, 0⟩, ⟨14, 4, .hw, 0⟩, ⟨18, 4, .hw, 0⟩, ⟨22, 9, .hw, 0⟩]⟩,
  ⟨0xC, 1, 0x70, 1, 4, [⟨0, 21, .cmd, 0⟩]⟩,
  ⟨0xC, 1, 0x74, 1, 4, [⟨0, 21, .hw, 0⟩, ⟨30, 1, .hw, 0⟩, ⟨31, 1, .hw, 0⟩]⟩,
  ⟨0xC, 1, 0x78, 1, 4, [⟨0, 5, .rw, 0⟩]⟩,
  ⟨0xC, 1, 0x7C, 1, 4, [⟨0, 17, .hw, 0⟩]⟩,
  ⟨0xC, 1, 0x80, 1, 4, [⟨0, 24, .hw, 0⟩]⟩,
  ⟨0xC, 1, 0x90, 1, 4, [⟨0, 21, .hw, 0⟩]⟩,
  ⟨0xC, 1, 0x94, 1, 4, [⟨0, 21, .hw, 0⟩]⟩,
  ⟨0xC, 1, 0x98, 1, 4, [⟨0, 21, .hw, 0⟩]⟩,
  ⟨0xC, 1, 0x9C, 1, 4, [⟨0, 21, .hw, 0⟩]⟩,
  ⟨0xC, 1, 0xA0, 1, 4, [⟨0, 22, .hw, 0⟩]⟩,
  ⟨0xC, 1, 0xA4, 1, 4, [⟨0, 22, .hw, 0⟩]⟩,
  ⟨0xC, 1, 0xA8, 1, 4, [⟨0, 22, .hw, 0⟩]⟩]

/-- PLACE (R166). -/
def regTablePlaceB : List RegDesc := [
  ⟨0xC, 1, 0xAC, 1, 4, [⟨0, 22, .hw, 0⟩, ⟨31, 1, .hw, 0⟩]⟩,
  ⟨0xC, 1, 0xB0, 1, 4, [⟨0, 16, .hw, 0⟩]⟩,
  ⟨0xC, 1, 0xB4, 1, 4, [⟨0, 7, .hw, 0⟩]⟩,
  ⟨0xC, 1, 0xC0, 1, 4, [⟨0, 32, .hw, 0⟩]⟩,
  ⟨0xC, 1, 0xC4, 1, 4, [⟨0, 32, .hw, 0⟩]⟩,
  ⟨0xC, 1, 0xC8, 1, 4, [⟨0, 32, .hw, 0⟩]⟩,
  ⟨0xC, 1, 0xCC, 1, 4, [⟨0, 32, .hw, 0⟩]⟩,
  ⟨0xC, 1, 0xD0, 1, 4, [⟨0, 32, .hw, 0⟩]⟩,
  ⟨0xC, 1, 0xD4, 1, 4, [⟨0, 32, .hw, 0⟩]⟩,
  ⟨0xC, 1, 0xD8, 1, 4, [⟨0, 32, .hw, 0⟩]⟩,
  ⟨0xC, 1, 0xDC, 1, 4, [⟨0, 32, .hw, 0⟩]⟩,
  ⟨0xC, 1, 0xE0, 1, 4, [⟨0, 32, .rl, 0⟩]⟩,
  ⟨0xC, 1, 0xE4, 1, 4, [⟨0, 32, .hw, 0⟩]⟩,
  ⟨0xC, 1, 0xE8, 1, 4, [⟨0, 32, .rl, 0⟩]⟩,
  ⟨0xC, 1, 0xEC, 1, 4, [⟨0, 32, .hw, 0⟩]⟩,
  ⟨0xC, 1, 0xF0, 1, 4, [⟨0, 16, .rw, 0x3C⟩, ⟨16, 1, .cmd, 0⟩]⟩,
  ⟨0xC, 1, 0xF4, 1, 4, [⟨0, 1, .hw, 0⟩, ⟨1, 1, .hw, 0⟩, ⟨2, 1, .hw, 0⟩, ⟨3, 1, .hw, 0⟩, ⟨4, 2, .hw, 0⟩]⟩]

/-- CACHE (R181). -/
def regTableCache : List RegDesc := [
  ⟨0xD, 1, 0x40, 1, 4, [⟨0, 1, .rw, 1⟩, ⟨1, 1, .rw, 1⟩, ⟨2, 1, .rw, 1⟩, ⟨3, 1, .cmd, 0⟩, ⟨4, 1, .cmd, 0⟩, ⟨8, 4, .rw, 0xA⟩, ⟨16, 8, .rw, 0x64⟩]⟩,
  ⟨0xD, 1, 0x44, 1, 4, [⟨0, 10, .rw, 0x100⟩, ⟨16, 10, .rw, 0x80⟩]⟩,
  ⟨0xD, 1, 0x48, 1, 4, [⟨0, 16, .hw, 0xFFFF⟩, ⟨16, 16, .hw, 0⟩]⟩,
  ⟨0xD, 1, 0x4C, 1, 4, [⟨0, 1, .hw, 0⟩, ⟨1, 1, .hw, 0⟩, ⟨2, 1, .hw, 0⟩, ⟨3, 1, .hw, 0⟩]⟩,
  ⟨0xD, 1, 0x50, 4, 4, [⟨0, 21, .hw, 0⟩]⟩,
  ⟨0xD, 1, 0x80, 1, 4, [⟨0, 32, .rl, 0⟩]⟩,
  ⟨0xD, 1, 0x84, 1, 4, [⟨0, 32, .hw, 0⟩]⟩,
  ⟨0xD, 1, 0x88, 1, 4, [⟨0, 32, .rl, 0⟩]⟩,
  ⟨0xD, 1, 0x8C, 1, 4, [⟨0, 32, .hw, 0⟩]⟩,
  ⟨0xD, 1, 0x90, 1, 4, [⟨0, 32, .hw, 0⟩]⟩,
  ⟨0xD, 1, 0x94, 1, 4, [⟨0, 32, .hw, 0⟩]⟩,
  ⟨0xD, 1, 0x98, 1, 4, [⟨0, 32, .hw, 0⟩]⟩,
  ⟨0xD, 1, 0x9C, 1, 4, [⟨0, 32, .hw, 0⟩]⟩,
  ⟨0xD, 1, 0xA0, 1, 4, [⟨0, 32, .hw, 0⟩]⟩,
  ⟨0xD, 1, 0xA4, 1, 4, [⟨0, 32, .hw, 0⟩]⟩,
  ⟨0xD, 1, 0xA8, 1, 4, [⟨0, 32, .hw, 0⟩]⟩,
  ⟨0xD, 1, 0xAC, 1, 4, [⟨0, 32, .hw, 0⟩]⟩,
  ⟨0xD, 1, 0xB0, 1, 4, [⟨0, 32, .hw, 0⟩]⟩,
  ⟨0xD, 1, 0xB4, 1, 4, [⟨0, 32, .hw, 0⟩]⟩,
  ⟨0xD, 1, 0xB8, 1, 4, [⟨0, 32, .hw, 0⟩]⟩]

/-- CDIE (R182). -/
def regTableCdie : List RegDesc := [
  ⟨0x1D0, 1, 0x40, 4, 4, [⟨0, 32, .ro, 0⟩]⟩,
  ⟨0x1D0, 1, 0x50, 1, 4, [⟨0, 1, .hw, 0⟩, ⟨1, 1, .hw, 0⟩]⟩,
  ⟨0x1D0, 1, 0x54, 1, 4, [⟨0, 4, .cmd, 0⟩, ⟨4, 1, .cmd, 0⟩]⟩,
  ⟨0x1D0, 1, 0x80, 16, 4, [⟨0, 2, .hw, 0⟩, ⟨2, 1, .hw, 0⟩]⟩,
  ⟨0x1D0, 1, 0xC0, 16, 4, [⟨0, 32, .hw, 0⟩]⟩,
  ⟨0x1D0, 1, 0x100, 16, 4, [⟨0, 32, .hw, 0⟩]⟩,
  ⟨0x1D0, 1, 0x140, 16, 4, [⟨0, 32, .hw, 0⟩]⟩]

/-- CHC (R208). -/
def regTableChcA : List RegDesc := [
  ⟨0x100, 36, 0x40, 1, 4, [⟨0, 5, .rw, 0x10⟩, ⟨8, 6, .rw, 0x30⟩, ⟨14, 6, .rw, 0x10⟩, ⟨20, 2, .rw, 2⟩, ⟨22, 1, .rw, 1⟩, ⟨23, 8, .rw, 0x40⟩]⟩,
  ⟨0x100, 36, 0x44, 1, 4, [⟨0, 5, .hw, 0⟩, ⟨5, 1, .hw, 0⟩, ⟨6, 1, .hw, 0⟩]⟩,
  ⟨0x100, 36, 0x48, 1, 4, [⟨0, 6, .rwl, 0x28⟩, ⟨8, 6, .rwl, 0xC⟩, ⟨16, 6, .rwl, 0x16⟩, ⟨24, 6, .rwl, 0x12⟩]⟩,
  ⟨0x100, 36, 0x4C, 1, 4, [⟨0, 7, .rwl, 0x22⟩, ⟨8, 7, .rwl, 0x34⟩, ⟨16, 4, .rwl, 6⟩, ⟨24, 5, .rwl, 0x12⟩]⟩,
  ⟨0x100, 36, 0x50, 1, 4, [⟨0, 4, .rwl, 4⟩, ⟨8, 5, .rwl, 0x10⟩, ⟨16, 4, .rwl, 9⟩, ⟨20, 4, .rwl, 2⟩, ⟨24, 4, .rwl, 2⟩]⟩,
  ⟨0x100, 36, 0x54, 1, 4, [⟨0, 9, .rwl, 0xB4⟩, ⟨12, 4, .rwl, 8⟩, ⟨16, 12, .rwl, 0xD8⟩]⟩,
  ⟨0x100, 36, 0x58, 1, 4, [⟨0, 2, .rwl, 3⟩, ⟨2, 1, .rwl, 1⟩]⟩,
  ⟨0x100, 36, 0x60, 1, 4, [⟨0, 7, .hw, 0⟩, ⟨8, 7, .hw, 0⟩, ⟨16, 7, .hw, 0⟩, ⟨24, 7, .hw, 0⟩]⟩,
  ⟨0x100, 36, 0x64, 1, 4, [⟨0, 1, .hw, 0⟩, ⟨1, 1, .hw, 0⟩, ⟨2, 1, .hw, 0⟩, ⟨3, 1, .hw, 0⟩, ⟨4, 1, .hw, 0⟩]⟩,
  ⟨0x100, 36, 0x68, 1, 4, [⟨0, 1, .rw, 0⟩, ⟨1, 2, .rw, 0⟩, ⟨3, 4, .rw, 0⟩]⟩,
  ⟨0x100, 36, 0x6C, 1, 4, [⟨0, 3, .hw, 0⟩, ⟨3, 15, .hw, 0⟩, ⟨18, 5, .hw, 0⟩]⟩,
  ⟨0x100, 36, 0x80, 1, 4, [⟨0, 32, .rl, 0⟩]⟩,
  ⟨0x100, 36, 0x84, 1, 4, [⟨0, 32, .hw, 0⟩]⟩,
  ⟨0x100, 36, 0x88, 1, 4, [⟨0, 32, .rl, 0⟩]⟩,
  ⟨0x100, 36, 0x8C, 1, 4, [⟨0, 32, .hw, 0⟩]⟩,
  ⟨0x100, 36, 0x90, 1, 4, [⟨0, 32, .hw, 0⟩]⟩,
  ⟨0x100, 36, 0x94, 1, 4, [⟨0, 32, .hw, 0⟩]⟩,
  ⟨0x100, 36, 0x98, 1, 4, [⟨0, 32, .hw, 0⟩]⟩,
  ⟨0x100, 36, 0x9C, 1, 4, [⟨0, 32, .hw, 0⟩]⟩,
  ⟨0x100, 36, 0xA0, 1, 4, [⟨0, 32, .hw, 0⟩]⟩,
  ⟨0x100, 36, 0xA4, 1, 4, [⟨0, 32, .hw, 0⟩]⟩,
  ⟨0x100, 36, 0xA8, 1, 4, [⟨0, 32, .hw, 0⟩]⟩,
  ⟨0x100, 36, 0xAC, 1, 4, [⟨0, 32, .hw, 0⟩]⟩,
  ⟨0x100, 36, 0xB0, 1, 4, [⟨0, 32, .hw, 0⟩]⟩]

/-- CHC (R208). -/
def regTableChcB : List RegDesc := [
  ⟨0x100, 36, 0xB4, 1, 4, [⟨0, 32, .hw, 0⟩]⟩,
  ⟨0x100, 36, 0xB8, 1, 4, [⟨0, 32, .hw, 0⟩]⟩,
  ⟨0x100, 36, 0xBC, 1, 4, [⟨0, 32, .hw, 0⟩]⟩]

/-- CHP (R209). -/
def regTableChp : List RegDesc := [
  ⟨0x140, 32, 0x40, 1, 4, [⟨0, 1, .cmd, 0⟩, ⟨1, 1, .rw, 1⟩, ⟨2, 8, .rw, 0x64⟩, ⟨10, 5, .rw, 4⟩, ⟨15, 1, .rw, 0⟩]⟩,
  ⟨0x140, 32, 0x44, 1, 4, [⟨0, 1, .hw, 0⟩, ⟨1, 1, .hw, 0⟩, ⟨2, 1, .hw, 0⟩, ⟨3, 1, .hw, 0⟩, ⟨4, 1, .hw, 0⟩, ⟨5, 1, .hw, 0⟩, ⟨6, 3, .hw, 4⟩, ⟨9, 3, .hw, 4⟩, ⟨12, 2, .hw, 2⟩, ⟨14, 2, .hw, 2⟩]⟩,
  ⟨0x140, 32, 0x48, 2, 4, [⟨0, 8, .hw, 0xFF⟩, ⟨8, 8, .hw, 0xFF⟩, ⟨16, 8, .hw, 0xFF⟩, ⟨24, 8, .hw, 0xFF⟩]⟩,
  ⟨0x140, 32, 0x50, 2, 4, [⟨0, 8, .hw, 0xFF⟩, ⟨8, 8, .hw, 0xFF⟩]⟩,
  ⟨0x140, 32, 0x58, 1, 4, [⟨0, 1, .cmd, 0⟩, ⟨1, 6, .cmd, 0⟩, ⟨7, 1, .cmd, 0⟩, ⟨8, 1, .cmd, 0⟩]⟩,
  ⟨0x140, 32, 0x5C, 1, 4, [⟨0, 1, .hw, 0⟩, ⟨1, 1, .hw, 0⟩]⟩,
  ⟨0x140, 32, 0x60, 1, 4, [⟨0, 1, .rw, 0⟩, ⟨1, 6, .rw, 0⟩, ⟨7, 2, .rw, 0⟩]⟩,
  ⟨0x140, 32, 0x64, 1, 4, [⟨0, 6, .rw, 0⟩, ⟨8, 6, .rw, 0⟩, ⟨16, 6, .hw, 0⟩, ⟨24, 6, .hw, 0⟩]⟩,
  ⟨0x140, 32, 0x68, 2, 4, [⟨0, 7, .rw, 0⟩, ⟨8, 7, .rw, 0⟩, ⟨16, 7, .rw, 0⟩, ⟨24, 7, .rw, 0⟩]⟩,
  ⟨0x140, 32, 0x70, 2, 4, [⟨0, 7, .rw, 0⟩, ⟨8, 7, .rw, 0⟩]⟩,
  ⟨0x140, 32, 0x78, 1, 4, [⟨0, 32, .hw, 0⟩]⟩,
  ⟨0x140, 32, 0x7C, 1, 4, [⟨0, 32, .rl, 0⟩]⟩,
  ⟨0x140, 32, 0x80, 1, 4, [⟨0, 32, .hw, 0⟩]⟩,
  ⟨0x140, 32, 0x84, 2, 8, [⟨0, 32, .hw, 0⟩]⟩,
  ⟨0x140, 32, 0x88, 2, 8, [⟨0, 32, .hw, 0⟩]⟩,
  ⟨0x140, 32, 0x94, 1, 4, [⟨0, 15, .cmd, 0⟩, ⟨15, 4, .cmd, 0⟩, ⟨19, 2, .cmd, 0⟩, ⟨21, 1, .cmd, 0⟩, ⟨22, 1, .cmd, 0⟩]⟩,
  ⟨0x140, 32, 0x98, 1, 4, [⟨0, 1, .hw, 0⟩, ⟨1, 1, .hw, 0⟩, ⟨2, 3, .hw, 0⟩]⟩,
  ⟨0x140, 32, 0xA0, 2, 4, [⟨0, 32, .hw, 0⟩]⟩,
  ⟨0x140, 32, 0xA8, 2, 4, [⟨0, 4, .hw, 0⟩, ⟨4, 14, .hw, 0⟩, ⟨18, 4, .hw, 0⟩, ⟨22, 2, .hw, 0⟩]⟩,
  ⟨0x140, 32, 0x100, 36, 4, [⟨0, 32, .hw, 0⟩]⟩,
  ⟨0x140, 32, 0x190, 36, 4, [⟨0, 32, .hw, 0⟩]⟩]

/-- DDIE (R210). -/
def regTableDdie : List RegDesc := [
  ⟨0x1C0, 16, 0x40, 4, 4, [⟨0, 32, .ro, 0⟩]⟩,
  ⟨0x1C0, 16, 0x50, 1, 4, [⟨0, 1, .hw, 0⟩, ⟨1, 1, .hw, 0⟩, ⟨2, 1, .hw, 0⟩, ⟨3, 1, .hw, 0⟩, ⟨4, 2, .hw, 0⟩]⟩,
  ⟨0x1C0, 16, 0x54, 1, 4, [⟨0, 8, .hw, 0xB4⟩]⟩,
  ⟨0x1C0, 16, 0x58, 1, 4, [⟨0, 9, .hw, 0⟩]⟩,
  ⟨0x1C0, 16, 0x60, 1, 4, [⟨0, 32, .hw, 0⟩]⟩,
  ⟨0x1C0, 16, 0x64, 1, 4, [⟨0, 32, .hw, 0⟩]⟩,
  ⟨0x1C0, 16, 0x68, 1, 4, [⟨0, 32, .hw, 0⟩]⟩,
  ⟨0x1C0, 16, 0x6C, 1, 4, [⟨0, 10, .hw, 0⟩]⟩]

/-- RFM (R224). -/
def regTableRfm : List RegDesc := [
  ⟨0x17, 1, 0x40, 1, 4, [⟨0, 3, .rw, 4⟩, ⟨3, 2, .rw, 0⟩, ⟨8, 4, .rw, 2⟩]⟩,
  ⟨0x17, 1, 0x44, 1, 4, [⟨0, 12, .rwl, 0x800⟩, ⟨12, 1, .rwl, 1⟩]⟩,
  ⟨0x17, 1, 0x48, 1, 4, [⟨0, 32, .hw, 0⟩]⟩,
  ⟨0x17, 1, 0x4C, 1, 4, [⟨0, 5, .rw, 0⟩, ⟨5, 1, .rw, 0⟩, ⟨6, 2, .rw, 0⟩, ⟨8, 4, .rw, 0⟩]⟩,
  ⟨0x17, 1, 0x50, 1, 4, [⟨0, 12, .hw, 0⟩, ⟨12, 7, .hw, 0⟩, ⟨19, 12, .hw, 0⟩, ⟨31, 1, .hw, 0⟩]⟩,
  ⟨0x17, 1, 0x60, 1, 4, [⟨0, 32, .rl, 0⟩]⟩,
  ⟨0x17, 1, 0x64, 1, 4, [⟨0, 32, .hw, 0⟩]⟩,
  ⟨0x17, 1, 0x68, 1, 4, [⟨0, 32, .rl, 0⟩]⟩,
  ⟨0x17, 1, 0x6C, 1, 4, [⟨0, 32, .hw, 0⟩]⟩,
  ⟨0x17, 1, 0x70, 1, 4, [⟨0, 32, .hw, 0⟩]⟩,
  ⟨0x17, 1, 0x74, 1, 4, [⟨0, 32, .hw, 0⟩]⟩,
  ⟨0x17, 1, 0x78, 1, 4, [⟨0, 32, .hw, 0⟩]⟩,
  ⟨0x17, 1, 0x7C, 1, 4, [⟨0, 32, .hw, 0⟩]⟩]

/-- SCRUB (R225). -/
def regTableScrub : List RegDesc := [
  ⟨0x16, 1, 0x40, 1, 4, [⟨0, 1, .rw, 1⟩, ⟨1, 1, .rw, 1⟩, ⟨2, 8, .rw, 0x18⟩]⟩,
  ⟨0x16, 1, 0x44, 1, 4, [⟨0, 21, .cmd, 0⟩, ⟨21, 10, .cmd, 0⟩, ⟨31, 1, .cmd, 0⟩]⟩,
  ⟨0x16, 1, 0x48, 1, 4, [⟨0, 1, .hw, 0⟩, ⟨1, 1, .hw, 0⟩, ⟨2, 10, .hw, 0⟩]⟩,
  ⟨0x16, 1, 0x4C, 1, 4, [⟨0, 20, .hw, 0⟩]⟩,
  ⟨0x16, 1, 0x50, 1, 4, [⟨0, 32, .hw, 0⟩]⟩,
  ⟨0x16, 1, 0x54, 1, 4, [⟨0, 32, .hw, 0⟩]⟩,
  ⟨0x16, 1, 0x58, 1, 4, [⟨0, 32, .rl, 0⟩]⟩,
  ⟨0x16, 1, 0x5C, 1, 4, [⟨0, 32, .hw, 0⟩]⟩,
  ⟨0x16, 1, 0x60, 1, 4, [⟨0, 32, .hw, 0⟩]⟩,
  ⟨0x16, 1, 0x64, 1, 4, [⟨0, 32, .hw, 0⟩]⟩,
  ⟨0x16, 1, 0x68, 1, 4, [⟨0, 32, .hw, 0⟩]⟩,
  ⟨0x16, 1, 0x6C, 1, 4, [⟨0, 32, .hw, 0⟩]⟩,
  ⟨0x16, 1, 0x70, 1, 4, [⟨0, 32, .hw, 0⟩]⟩,
  ⟨0x16, 1, 0x74, 1, 4, [⟨0, 32, .hw, 0⟩]⟩]

/-- ENG (R252). -/
def regTableEng : List RegDesc := [
  ⟨0x180, 36, 0x40, 1, 4, [⟨0, 1, .rw, 1⟩, ⟨1, 3, .rw, 4⟩, ⟨16, 16, .rw, 0x64⟩]⟩,
  ⟨0x180, 36, 0x44, 1, 4, [⟨0, 3, .hw, 0⟩, ⟨3, 1, .hw, 0⟩, ⟨4, 3, .hw, 0⟩, ⟨7, 1, .hw, 0⟩]⟩,
  ⟨0x180, 36, 0x48, 1, 4, [⟨0, 12, .hw, 0⟩, ⟨12, 6, .hw, 0⟩, ⟨18, 3, .hw, 0⟩, ⟨21, 6, .hw, 0⟩, ⟨31, 1, .hw, 0⟩]⟩,
  ⟨0x180, 36, 0x4C, 1, 4, [⟨0, 28, .hw, 0⟩]⟩,
  ⟨0x180, 36, 0x50, 1, 4, [⟨0, 28, .hw, 0⟩]⟩,
  ⟨0x180, 36, 0x60, 1, 4, [⟨0, 32, .hw, 0⟩]⟩,
  ⟨0x180, 36, 0x64, 1, 4, [⟨0, 32, .rl, 0⟩]⟩,
  ⟨0x180, 36, 0x68, 1, 4, [⟨0, 32, .hw, 0⟩]⟩,
  ⟨0x180, 36, 0x6C, 1, 4, [⟨0, 32, .rl, 0⟩]⟩,
  ⟨0x180, 36, 0x70, 1, 4, [⟨0, 32, .hw, 0⟩]⟩,
  ⟨0x180, 36, 0x74, 1, 4, [⟨0, 32, .hw, 0⟩]⟩,
  ⟨0x180, 36, 0x78, 1, 4, [⟨0, 32, .hw, 0⟩]⟩,
  ⟨0x180, 36, 0x7C, 1, 4, [⟨0, 32, .hw, 0⟩]⟩,
  ⟨0x180, 36, 0x80, 1, 4, [⟨0, 32, .hw, 0⟩]⟩]

/-- QUAD (R253). -/
def regTableQuad : List RegDesc := [
  ⟨0x40, 4, 0x40, 1, 4, [⟨0, 1, .rw, 1⟩, ⟨1, 1, .rw, 1⟩]⟩,
  ⟨0x40, 4, 0x44, 1, 4, [⟨0, 7, .hw, 0⟩, ⟨7, 6, .hw, 0⟩, ⟨13, 9, .hw, 0⟩, ⟨22, 1, .hw, 0⟩]⟩,
  ⟨0x40, 4, 0x48, 1, 4, [⟨0, 12, .cmd, 0⟩, ⟨12, 1, .cmd, 0⟩]⟩,
  ⟨0x40, 4, 0x4C, 1, 4, [⟨0, 1, .hw, 0⟩, ⟨1, 1, .hw, 0⟩, ⟨2, 1, .hw, 0⟩]⟩,
  ⟨0x40, 4, 0x50, 1, 4, [⟨0, 12, .hw, 0⟩, ⟨12, 6, .hw, 0⟩, ⟨18, 3, .hw, 0⟩, ⟨21, 8, .hw, 0⟩]⟩,
  ⟨0x40, 4, 0x54, 1, 4, [⟨0, 12, .hw, 0⟩]⟩,
  ⟨0x40, 4, 0x58, 1, 4, [⟨0, 32, .rl, 0⟩]⟩,
  ⟨0x40, 4, 0x5C, 1, 4, [⟨0, 32, .hw, 0⟩]⟩,
  ⟨0x40, 4, 0x60, 1, 4, [⟨0, 32, .rl, 0⟩]⟩,
  ⟨0x40, 4, 0x64, 1, 4, [⟨0, 32, .hw, 0⟩]⟩,
  ⟨0x40, 4, 0x80, 1, 4, [⟨0, 32, .hw, 0⟩]⟩,
  ⟨0x40, 4, 0x84, 1, 4, [⟨0, 32, .hw, 0⟩]⟩,
  ⟨0x40, 4, 0x88, 1, 4, [⟨0, 32, .hw, 0⟩]⟩,
  ⟨0x40, 4, 0x8C, 1, 4, [⟨0, 32, .hw, 0⟩]⟩,
  ⟨0x40, 4, 0x90, 1, 4, [⟨0, 32, .hw, 0⟩]⟩,
  ⟨0x40, 4, 0x94, 1, 4, [⟨0, 32, .hw, 0⟩]⟩,
  ⟨0x40, 4, 0x98, 1, 4, [⟨0, 32, .hw, 0⟩]⟩,
  ⟨0x40, 4, 0x9C, 1, 4, [⟨0, 32, .hw, 0⟩]⟩,
  ⟨0x40, 4, 0xA0, 1, 4, [⟨0, 32, .hw, 0⟩]⟩]

/-- BRIDLE (R271). -/
def regTableBridle : List RegDesc := [
  ⟨0xB, 1, 0x40, 1, 4, [⟨0, 1, .rw, 1⟩, ⟨1, 1, .rw, 1⟩, ⟨8, 6, .rw, 2⟩, ⟨14, 6, .rw, 5⟩, ⟨20, 10, .rw, 0xA⟩]⟩,
  ⟨0xB, 1, 0x44, 1, 4, [⟨0, 15, .hw, 0⟩, ⟨15, 1, .hw, 0⟩, ⟨16, 8, .hw, 0⟩, ⟨24, 8, .hw, 0⟩]⟩,
  ⟨0xB, 1, 0x48, 1, 4, [⟨0, 16, .hw, 0⟩]⟩,
  ⟨0xB, 1, 0x4C, 1, 4, [⟨0, 16, .hw, 0⟩, ⟨16, 16, .hw, 0⟩]⟩,
  ⟨0xB, 1, 0x50, 1, 4, [⟨0, 16, .hw, 0⟩]⟩,
  ⟨0xB, 1, 0x54, 1, 4, [⟨0, 16, .hw, 0⟩, ⟨16, 16, .hw, 0⟩]⟩,
  ⟨0xB, 1, 0x58, 1, 4, [⟨0, 10, .rw, 0x200⟩, ⟨16, 7, .rw, 0x50⟩]⟩,
  ⟨0xB, 1, 0x5C, 1, 4, [⟨0, 6, .rw, 0⟩]⟩,
  ⟨0xB, 1, 0x60, 1, 4, [⟨0, 10, .hw, 0⟩, ⟨10, 1, .hw, 0⟩, ⟨11, 1, .hw, 0⟩, ⟨12, 1, .hw, 0⟩, ⟨13, 1, .hw, 0⟩]⟩,
  ⟨0xB, 1, 0x64, 1, 4, [⟨0, 25, .hw, 0⟩]⟩,
  ⟨0xB, 1, 0x80, 8, 4, [⟨0, 16, .rw, 0⟩, ⟨16, 3, .rw, 0⟩]⟩,
  ⟨0xB, 1, 0xA0, 8, 4, [⟨0, 12, .rw, 0⟩, ⟨16, 12, .hw, 0⟩, ⟨28, 2, .hw, 0⟩]⟩,
  ⟨0xB, 1, 0xC0, 8, 4, [⟨0, 16, .hw, 0⟩, ⟨16, 16, .hw, 0⟩]⟩,
  ⟨0xB, 1, 0xE0, 8, 4, [⟨0, 16, .hw, 0⟩]⟩,
  ⟨0xB, 1, 0x100, 1, 4, [⟨0, 32, .hw, 0⟩]⟩,
  ⟨0xB, 1, 0x104, 1, 4, [⟨0, 32, .hw, 0⟩]⟩,
  ⟨0xB, 1, 0x108, 1, 4, [⟨0, 32, .hw, 0⟩]⟩,
  ⟨0xB, 1, 0x10C, 1, 4, [⟨0, 32, .hw, 0⟩]⟩,
  ⟨0xB, 1, 0x110, 1, 4, [⟨0, 32, .hw, 0⟩]⟩,
  ⟨0xB, 1, 0x114, 1, 4, [⟨0, 32, .hw, 0⟩]⟩,
  ⟨0xB, 1, 0x200, 64, 8, [⟨0, 2, .rw, 0⟩, ⟨2, 10, .rw, 0xA⟩]⟩,
  ⟨0xB, 1, 0x204, 64, 8, [⟨0, 24, .rw, 0⟩]⟩]

/-- SIDE (R272). -/
def regTableSide : List RegDesc := [
  ⟨0x12, 1, 0x40, 1, 4, [⟨0, 8, .rw, 2⟩, ⟨8, 16, .rw, 0x64⟩, ⟨24, 4, .rw, 0xF⟩]⟩,
  ⟨0x12, 1, 0x44, 1, 4, [⟨0, 4, .hw, 0⟩, ⟨4, 4, .hw, 0⟩, ⟨8, 4, .hw, 0⟩]⟩,
  ⟨0x12, 1, 0x50, 4, 4, [⟨0, 2, .rw, 3⟩, ⟨2, 8, .rw, 0x64⟩]⟩,
  ⟨0x12, 1, 0x60, 4, 8, [⟨0, 32, .rw, 0⟩]⟩,
  ⟨0x12, 1, 0x64, 4, 8, [⟨0, 32, .rw, 0⟩]⟩,
  ⟨0x12, 1, 0x80, 4, 4, [⟨0, 32, .hw, 0⟩]⟩,
  ⟨0x12, 1, 0x90, 4, 4, [⟨0, 32, .hw, 0⟩]⟩,
  ⟨0x12, 1, 0xA0, 4, 4, [⟨0, 32, .hw, 0⟩]⟩]

/-- FCOL (R295). -/
def regTableFcolA : List RegDesc := [
  ⟨0x2, 1, 0x40, 1, 4, [⟨0, 8, .rw, 0xA⟩, ⟨8, 1, .rw, 1⟩]⟩,
  ⟨0x2, 1, 0x44, 1, 4, [⟨0, 7, .hw, 0⟩, ⟨7, 1, .hw, 0⟩, ⟨8, 1, .hw, 0⟩, ⟨9, 1, .hw, 0⟩, ⟨10, 5, .hw, 0⟩, ⟨15, 1, .hw, 0⟩]⟩,
  ⟨0x2, 1, 0x48, 1, 4, [⟨0, 32, .rl, 0⟩]⟩,
  ⟨0x2, 1, 0x4C, 1, 4, [⟨0, 32, .hw, 0⟩]⟩,
  ⟨0x2, 1, 0x50, 1, 4, [⟨0, 32, .rw, 0⟩]⟩,
  ⟨0x2, 1, 0x54, 1, 4, [⟨0, 32, .rw, 0⟩]⟩,
  ⟨0x2, 1, 0x58, 1, 4, [⟨0, 10, .rw, 0⟩, ⟨16, 5, .rw, 0⟩]⟩,
  ⟨0x2, 1, 0x5C, 1, 4, [⟨0, 3, .rwl, 0⟩, ⟨3, 1, .rwl, 0⟩, ⟨4, 1, .rwl, 0⟩, ⟨5, 1, .rwl, 0⟩, ⟨6, 1, .rwl, 0⟩, ⟨7, 1, .rwl, 0⟩, ⟨8, 6, .rwl, 0⟩]⟩,
  ⟨0x2, 1, 0x60, 1, 4, [⟨0, 4, .rw, 0⟩]⟩,
  ⟨0x2, 1, 0x64, 1, 4, [⟨0, 24, .rwl, 0⟩]⟩,
  ⟨0x2, 1, 0x68, 1, 4, [⟨0, 16, .rwl, 0⟩, ⟨16, 5, .rwl, 0⟩]⟩,
  ⟨0x2, 1, 0x6C, 1, 4, [⟨0, 5, .rw, 0⟩]⟩,
  ⟨0x2, 1, 0x70, 1, 4, [⟨0, 24, .rwl, 0⟩]⟩,
  ⟨0x2, 1, 0x74, 1, 4, [⟨0, 32, .cmd, 0⟩]⟩,
  ⟨0x2, 1, 0x78, 1, 4, [⟨0, 24, .hw, 0⟩, ⟨29, 1, .hw, 0⟩, ⟨30, 1, .hw, 0⟩, ⟨31, 1, .hw, 0⟩]⟩,
  ⟨0x2, 1, 0x7C, 1, 4, [⟨0, 6, .cmd, 0⟩, ⟨6, 1, .cmd, 0⟩, ⟨7, 1, .cmd, 0⟩]⟩,
  ⟨0x2, 1, 0x80, 1, 4, [⟨0, 32, .hw, 0⟩]⟩,
  ⟨0x2, 1, 0x84, 1, 4, [⟨0, 32, .hw, 0⟩]⟩,
  ⟨0x2, 1, 0x88, 1, 4, [⟨0, 6, .rw, 0⟩]⟩,
  ⟨0x2, 1, 0x8C, 1, 4, [⟨0, 10, .hw, 0⟩, ⟨10, 6, .hw, 0⟩, ⟨16, 1, .hw, 0⟩, ⟨17, 1, .hw, 0⟩, ⟨18, 1, .hw, 0⟩, ⟨19, 3, .hw, 0⟩]⟩,
  ⟨0x2, 1, 0x90, 1, 4, [⟨0, 32, .hw, 0⟩]⟩,
  ⟨0x2, 1, 0x94, 1, 4, [⟨0, 32, .rl, 0⟩]⟩,
  ⟨0x2, 1, 0x98, 1, 4, [⟨0, 32, .hw, 0⟩]⟩,
  ⟨0x2, 1, 0xA0, 10, 4, [⟨0, 32, .hw, 0⟩]⟩]

/-- FCOL (R295). -/
def regTableFcolB : List RegDesc := [
  ⟨0x2, 1, 0x100, 1, 4, [⟨0, 32, .hw, 0⟩]⟩,
  ⟨0x2, 1, 0x104, 1, 4, [⟨0, 32, .hw, 0⟩]⟩,
  ⟨0x2, 1, 0x108, 1, 4, [⟨0, 32, .hw, 0⟩]⟩,
  ⟨0x2, 1, 0x10C, 1, 4, [⟨0, 32, .hw, 0⟩]⟩,
  ⟨0x2, 1, 0x110, 1, 4, [⟨0, 32, .hw, 0⟩]⟩,
  ⟨0x2, 1, 0x114, 1, 4, [⟨0, 32, .hw, 0⟩]⟩,
  ⟨0x2, 1, 0x118, 1, 4, [⟨0, 32, .hw, 0⟩]⟩,
  ⟨0x2, 1, 0x11C, 1, 4, [⟨0, 32, .hw, 0⟩]⟩,
  ⟨0x2, 1, 0x120, 1, 4, [⟨0, 32, .hw, 0⟩]⟩,
  ⟨0x2, 1, 0x124, 1, 4, [⟨0, 32, .hw, 0⟩]⟩,
  ⟨0x2, 1, 0x128, 1, 4, [⟨0, 32, .hw, 0⟩]⟩,
  ⟨0x2, 1, 0x12C, 1, 4, [⟨0, 32, .hw, 0⟩]⟩]

/-- THERM (R337). -/
def regTableTherm : List RegDesc := [
  ⟨0x5, 1, 0x40, 1, 4, [⟨0, 8, .rwl, 0x5F⟩, ⟨8, 8, .rwl, 0x69⟩, ⟨16, 8, .ro, 0x6E⟩]⟩,
  ⟨0x5, 1, 0x44, 1, 4, [⟨0, 8, .rwl, 0x64⟩, ⟨8, 8, .rwl, 0x6E⟩, ⟨16, 8, .ro, 0x73⟩]⟩,
  ⟨0x5, 1, 0x48, 1, 4, [⟨0, 4, .rwl, 6⟩, ⟨4, 12, .rwl, 0x64⟩, ⟨16, 4, .rwl, 3⟩, ⟨20, 4, .rwl, 3⟩]⟩,
  ⟨0x5, 1, 0x4C, 1, 4, [⟨0, 16, .rwl, 0x3E8⟩]⟩,
  ⟨0x5, 1, 0x50, 1, 4, [⟨0, 4, .rwl, 0xA⟩, ⟨8, 8, .rw, 0x2D⟩]⟩,
  ⟨0x5, 1, 0x54, 1, 4, [⟨0, 12, .hw, 0⟩, ⟨12, 7, .hw, 0⟩]⟩,
  ⟨0x5, 1, 0x58, 1, 4, [⟨0, 7, .hw, 0⟩, ⟨8, 7, .hw, 0⟩, ⟨15, 1, .hw, 0⟩, ⟨16, 1, .hw, 0⟩, ⟨17, 1, .hw, 0⟩]⟩,
  ⟨0x5, 1, 0x5C, 1, 4, [⟨0, 7, .rw, 0⟩]⟩,
  ⟨0x5, 1, 0x60, 1, 4, [⟨0, 12, .hw, 0⟩, ⟨16, 12, .hw, 0⟩, ⟨28, 2, .hw, 0⟩]⟩,
  ⟨0x5, 1, 0x64, 1, 4, [⟨0, 12, .hw, 0⟩, ⟨12, 12, .hw, 0⟩]⟩,
  ⟨0x5, 1, 0x68, 1, 4, [⟨0, 7, .rw, 0⟩]⟩,
  ⟨0x5, 1, 0x6C, 1, 4, [⟨0, 12, .hw, 0⟩, ⟨16, 12, .hw, 0⟩, ⟨28, 2, .hw, 0⟩]⟩,
  ⟨0x5, 1, 0x80, 18, 4, [⟨0, 12, .hw, 0⟩, ⟨16, 9, .hw, 0x100⟩]⟩,
  ⟨0x5, 1, 0xD0, 1, 4, [⟨0, 12, .rw, 0⟩]⟩,
  ⟨0x5, 1, 0xD4, 1, 4, [⟨0, 32, .rwl, 0⟩]⟩,
  ⟨0x5, 1, 0xE0, 1, 4, [⟨0, 32, .hw, 0⟩]⟩,
  ⟨0x5, 1, 0xE4, 1, 4, [⟨0, 32, .hw, 0⟩]⟩,
  ⟨0x5, 1, 0xE8, 1, 4, [⟨0, 32, .rl, 0⟩]⟩,
  ⟨0x5, 1, 0xEC, 1, 4, [⟨0, 32, .hw, 0⟩]⟩]

/-- PWR (R338). -/
def regTablePwr : List RegDesc := [
  ⟨0x4, 1, 0x40, 1, 4, [⟨0, 7, .rw, 0x5A⟩, ⟨8, 7, .rw, 0xA⟩, ⟨16, 4, .rw, 2⟩]⟩,
  ⟨0x4, 1, 0x44, 1, 4, [⟨0, 2, .rw, 0⟩, ⟨2, 1, .rw, 0⟩, ⟨8, 8, .rw, 0x32⟩, ⟨16, 8, .rw, 1⟩]⟩,
  ⟨0x4, 1, 0x48, 1, 4, [⟨0, 2, .hw, 0⟩, ⟨2, 2, .hw, 0⟩, ⟨4, 2, .hw, 0⟩, ⟨6, 1, .hw, 0⟩, ⟨7, 1, .hw, 0⟩]⟩,
  ⟨0x4, 1, 0x4C, 1, 4, [⟨0, 16, .hw, 0⟩, ⟨16, 16, .hw, 0⟩]⟩,
  ⟨0x4, 1, 0x50, 1, 4, [⟨0, 9, .hw, 0x100⟩, ⟨9, 1, .hw, 0⟩, ⟨16, 16, .hw, 0⟩]⟩,
  ⟨0x4, 1, 0x54, 1, 4, [⟨0, 16, .hw, 0x1000⟩]⟩,
  ⟨0x4, 1, 0x60, 7, 4, [⟨0, 12, .hw, 0⟩, ⟨16, 13, .hw, 0⟩, ⟨31, 1, .hw, 0⟩]⟩,
  ⟨0x4, 1, 0x80, 4, 4, [⟨0, 32, .hw, 0⟩]⟩,
  ⟨0x4, 1, 0x90, 1, 4, [⟨0, 32, .rl, 0⟩]⟩,
  ⟨0x4, 1, 0x94, 1, 4, [⟨0, 32, .hw, 0⟩]⟩,
  ⟨0x4, 1, 0x98, 1, 4, [⟨0, 32, .hw, 0⟩]⟩,
  ⟨0x4, 1, 0x9C, 1, 4, [⟨0, 32, .hw, 0⟩]⟩,
  ⟨0x4, 1, 0xA0, 1, 4, [⟨0, 32, .hw, 0⟩]⟩]

/-- STACK (R339). -/
def regTableStack : List RegDesc := [
  ⟨0x13, 1, 0x40, 1, 4, [⟨0, 4, .rw, 2⟩, ⟨8, 5, .rwl, 0x14⟩, ⟨16, 7, .rwl, 0x50⟩, ⟨23, 1, .cmd, 0⟩, ⟨24, 1, .rw, 1⟩]⟩,
  ⟨0x13, 1, 0x44, 1, 4, [⟨0, 5, .hw, 0⟩, ⟨8, 7, .hw, 0⟩, ⟨15, 1, .hw, 0⟩, ⟨16, 2, .hw, 0⟩, ⟨18, 1, .hw, 0⟩]⟩,
  ⟨0x13, 1, 0x48, 1, 4, [⟨0, 5, .rw, 0⟩]⟩,
  ⟨0x13, 1, 0x4C, 1, 4, [⟨0, 32, .rl, 0⟩]⟩,
  ⟨0x13, 1, 0x50, 1, 4, [⟨0, 32, .hw, 0⟩]⟩,
  ⟨0x13, 1, 0x54, 1, 4, [⟨0, 32, .hw, 0⟩]⟩,
  ⟨0x13, 1, 0x58, 1, 4, [⟨0, 12, .hw, 0⟩, ⟨16, 12, .hw, 0⟩]⟩,
  ⟨0x13, 1, 0x5C, 1, 4, [⟨0, 7, .hw, 0⟩]⟩,
  ⟨0x13, 1, 0x60, 1, 4, [⟨0, 16, .hw, 0xFFFF⟩]⟩,
  ⟨0x13, 1, 0x64, 1, 4, [⟨0, 32, .rl, 0⟩]⟩,
  ⟨0x13, 1, 0x68, 1, 4, [⟨0, 32, .hw, 0⟩]⟩,
  ⟨0x13, 1, 0x6C, 1, 4, [⟨0, 32, .hw, 0⟩]⟩,
  ⟨0x13, 1, 0x70, 1, 4, [⟨0, 32, .hw, 0⟩]⟩]

/-- CLK (R364). -/
def regTableClk : List RegDesc := [
  ⟨0x3, 1, 0x40, 1, 4, [⟨0, 4, .rw, 4⟩, ⟨8, 8, .rw, 0x32⟩, ⟨16, 8, .rw, 0xC8⟩, ⟨24, 1, .rw, 1⟩, ⟨25, 1, .rw, 0⟩]⟩,
  ⟨0x3, 1, 0x44, 1, 4, [⟨0, 1, .hw, 0⟩, ⟨1, 1, .hw, 0⟩, ⟨2, 1, .hw, 0⟩, ⟨3, 2, .hw, 0⟩, ⟨5, 1, .hw, 0⟩, ⟨6, 1, .hw, 0⟩, ⟨7, 1, .hw, 0⟩, ⟨8, 1, .hw, 0⟩, ⟨9, 6, .hw, 0⟩, ⟨15, 3, .hw, 0⟩]⟩,
  ⟨0x3, 1, 0x48, 1, 4, [⟨0, 16, .hw, 0⟩]⟩,
  ⟨0x3, 1, 0x4C, 1, 4, [⟨0, 4, .rw, 0xA⟩, ⟨4, 1, .rw, 1⟩]⟩,
  ⟨0x3, 1, 0x50, 1, 4, [⟨0, 4, .rw, 0⟩, ⟨4, 4, .rw, 0⟩, ⟨8, 20, .rw, 0x30D40⟩, ⟨31, 1, .cmd, 0⟩]⟩,
  ⟨0x3, 1, 0x54, 1, 4, [⟨0, 31, .hw, 0⟩, ⟨31, 1, .hw, 0⟩]⟩,
  ⟨0x3, 1, 0x58, 1, 4, [⟨0, 1, .cmd, 0⟩, ⟨1, 1, .cmd, 0⟩, ⟨16, 16, .cmd, 0⟩]⟩,
  ⟨0x3, 1, 0x5C, 1, 4, [⟨0, 1, .hw, 1⟩, ⟨1, 1, .hw, 0⟩, ⟨2, 1, .hw, 0⟩, ⟨3, 1, .hw, 0⟩, ⟨4, 1, .hw, 0⟩, ⟨8, 1, .hw, 0⟩]⟩,
  ⟨0x3, 1, 0x60, 1, 4, [⟨0, 4, .hw, 1⟩, ⟨4, 1, .hw, 0⟩]⟩,
  ⟨0x3, 1, 0x64, 1, 4, [⟨0, 16, .hw, 0⟩, ⟨16, 16, .hw, 0⟩]⟩,
  ⟨0x3, 1, 0x68, 1, 4, [⟨0, 10, .hw, 0⟩]⟩,
  ⟨0x3, 1, 0x70, 1, 4, [⟨0, 32, .hw, 0⟩]⟩,
  ⟨0x3, 1, 0x74, 1, 4, [⟨0, 32, .hw, 0⟩]⟩,
  ⟨0x3, 1, 0x78, 1, 4, [⟨0, 32, .hw, 0⟩]⟩,
  ⟨0x3, 1, 0x7C, 1, 4, [⟨0, 32, .hw, 0⟩]⟩,
  ⟨0x3, 1, 0x80, 1, 4, [⟨0, 32, .hw, 0⟩]⟩]

/-- FUSE (R386). -/
def regTableFuse : List RegDesc := [
  ⟨0x6, 1, 0x40, 4, 4, [⟨0, 32, .ro, 0⟩]⟩,
  ⟨0x6, 1, 0x50, 1, 4, [⟨0, 32, .rl, 0⟩]⟩,
  ⟨0x6, 1, 0x54, 1, 4, [⟨0, 32, .hw, 0⟩]⟩,
  ⟨0x6, 1, 0x58, 1, 4, [⟨0, 3, .hw, 0⟩, ⟨3, 1, .hw, 0⟩]⟩,
  ⟨0x6, 1, 0x5C, 1, 4, [⟨0, 30, .hw, 0⟩]⟩,
  ⟨0x6, 1, 0x60, 1, 4, [⟨0, 8, .hw, 0⟩, ⟨8, 8, .hw, 0⟩, ⟨16, 1, .hw, 0⟩]⟩,
  ⟨0x6, 1, 0x64, 1, 4, [⟨0, 12, .hw, 0⟩, ⟨16, 12, .hw, 0⟩]⟩,
  ⟨0x6, 1, 0x68, 1, 4, [⟨0, 12, .hw, 0⟩]⟩,
  ⟨0x6, 1, 0x6C, 1, 4, [⟨0, 12, .rw, 0⟩]⟩,
  ⟨0x6, 1, 0x70, 1, 4, [⟨0, 32, .hw, 0⟩]⟩,
  ⟨0x6, 1, 0x74, 1, 4, [⟨0, 1, .hw, 0⟩, ⟨1, 1, .hw, 0⟩, ⟨2, 1, .hw, 0⟩, ⟨3, 1, .hw, 0⟩, ⟨31, 1, .hw, 0⟩]⟩,
  ⟨0x6, 1, 0x78, 1, 4, [⟨0, 12, .rw, 0⟩]⟩,
  ⟨0x6, 1, 0x7C, 1, 4, [⟨0, 32, .rw, 0⟩]⟩,
  ⟨0x6, 1, 0x80, 1, 4, [⟨0, 1, .cmd, 0⟩, ⟨1, 1, .cmd, 0⟩, ⟨2, 1, .cmd, 0⟩, ⟨3, 1, .cmd, 0⟩, ⟨16, 16, .cmd, 0⟩]⟩,
  ⟨0x6, 1, 0x84, 1, 4, [⟨0, 1, .hw, 0⟩, ⟨1, 3, .hw, 0⟩, ⟨4, 1, .hw, 0⟩]⟩,
  ⟨0x6, 1, 0x88, 1, 4, [⟨0, 11, .hw, 0⟩, ⟨11, 7, .hw, 0⟩, ⟨18, 1, .hw, 0⟩]⟩,
  ⟨0x6, 1, 0x8C, 1, 4, [⟨0, 32, .hw, 0⟩]⟩,
  ⟨0x6, 1, 0x90, 1, 4, [⟨0, 32, .hw, 0⟩]⟩,
  ⟨0x6, 1, 0x94, 1, 4, [⟨0, 32, .hw, 0⟩]⟩,
  ⟨0x6, 1, 0x98, 1, 4, [⟨0, 32, .hw, 0⟩]⟩]

/-- LOCK (R387). -/
def regTableLock : List RegDesc := [
  ⟨0x7, 1, 0x40, 1, 4, [⟨0, 8, .rw, 0⟩]⟩,
  ⟨0x7, 1, 0x44, 1, 4, [⟨0, 1, .rw, 0⟩, ⟨1, 1, .rw, 0⟩]⟩,
  ⟨0x7, 1, 0x48, 1, 4, [⟨0, 1, .hw, 0⟩]⟩,
  ⟨0x7, 1, 0x80, 17, 4, [⟨0, 32, .rw, 0⟩]⟩]

/-- SEC (R388). -/
def regTableSec : List RegDesc := [
  ⟨0x15, 1, 0x40, 1, 4, [⟨0, 1, .hw, 0⟩, ⟨1, 1, .hw, 0⟩, ⟨2, 1, .hw, 0⟩, ⟨3, 1, .hw, 0⟩, ⟨4, 2, .hw, 0⟩, ⟨6, 1, .hw, 0⟩, ⟨7, 1, .hw, 0⟩, ⟨16, 16, .hw, 0⟩]⟩,
  ⟨0x15, 1, 0x44, 1, 4, [⟨0, 16, .hw, 0⟩]⟩,
  ⟨0x15, 1, 0x80, 12, 4, [⟨0, 32, .hw, 0⟩]⟩,
  ⟨0x15, 1, 0xC0, 12, 4, [⟨0, 32, .hw, 0⟩]⟩,
  ⟨0x15, 1, 0x100, 1, 4, [⟨0, 32, .hw, 0⟩]⟩,
  ⟨0x15, 1, 0x104, 1, 4, [⟨0, 32, .hw, 0⟩]⟩,
  ⟨0x15, 1, 0x108, 1, 4, [⟨0, 32, .hw, 0⟩]⟩]

/-- BIST (R404). -/
def regTableBist : List RegDesc := [
  ⟨0x8, 1, 0x40, 1, 4, [⟨0, 1, .rw, 1⟩, ⟨1, 1, .rw, 1⟩, ⟨2, 8, .rw, 0x18⟩, ⟨10, 2, .rw, 1⟩, ⟨12, 2, .rwl, 2⟩, ⟨14, 6, .rwl, 0x3F⟩, ⟨20, 4, .rw, 1⟩, ⟨24, 4, .rw, 1⟩]⟩,
  ⟨0x8, 1, 0x44, 1, 4, [⟨0, 6, .cmd, 0⟩, ⟨6, 1, .cmd, 0⟩, ⟨7, 2, .cmd, 0⟩, ⟨9, 1, .cmd, 0⟩]⟩,
  ⟨0x8, 1, 0x48, 1, 4, [⟨0, 1, .hw, 0⟩, ⟨1, 1, .hw, 0⟩, ⟨2, 1, .hw, 0⟩, ⟨3, 1, .hw, 0⟩, ⟨4, 1, .hw, 0⟩]⟩,
  ⟨0x8, 1, 0x4C, 1, 4, [⟨0, 8, .rw, 8⟩, ⟨8, 12, .hw, 0⟩, ⟨20, 12, .hw, 0⟩]⟩,
  ⟨0x8, 1, 0x50, 4, 4, [⟨0, 4, .hw, 0⟩, ⟨4, 4, .hw, 0⟩, ⟨8, 1, .hw, 0⟩, ⟨9, 1, .hw, 0⟩, ⟨10, 1, .hw, 0⟩]⟩,
  ⟨0x8, 1, 0x60, 1, 4, [⟨0, 6, .rw, 0⟩, ⟨6, 1, .rw, 0⟩]⟩,
  ⟨0x8, 1, 0x64, 1, 4, [⟨0, 2, .hw, 0⟩, ⟨2, 1, .hw, 0⟩, ⟨8, 24, .hw, 0⟩]⟩,
  ⟨0x8, 1, 0x68, 1, 4, [⟨0, 32, .rl, 0⟩]⟩,
  ⟨0x8, 1, 0x6C, 1, 4, [⟨0, 32, .hw, 0⟩]⟩,
  ⟨0x8, 1, 0x70, 1, 4, [⟨0, 32, .rl, 0⟩]⟩,
  ⟨0x8, 1, 0x74, 1, 4, [⟨0, 32, .hw, 0⟩]⟩,
  ⟨0x8, 1, 0x78, 1, 4, [⟨0, 6, .hw, 0⟩, ⟨8, 6, .hw, 0⟩, ⟨16, 6, .hw, 0⟩, ⟨22, 5, .hw, 0⟩, ⟨27, 1, .hw, 0⟩, ⟨28, 1, .hw, 0⟩]⟩,
  ⟨0x8, 1, 0xA0, 1, 4, [⟨0, 32, .hw, 0⟩]⟩,
  ⟨0x8, 1, 0xA4, 1, 4, [⟨0, 32, .hw, 0⟩]⟩,
  ⟨0x8, 1, 0xA8, 1, 4, [⟨0, 32, .hw, 0⟩]⟩,
  ⟨0x8, 1, 0xAC, 1, 4, [⟨0, 32, .hw, 0⟩]⟩,
  ⟨0x8, 1, 0xB0, 1, 4, [⟨0, 32, .hw, 0⟩]⟩,
  ⟨0x8, 1, 0xB4, 1, 4, [⟨0, 32, .hw, 0⟩]⟩,
  ⟨0x8, 1, 0xB8, 1, 4, [⟨0, 32, .hw, 0⟩]⟩,
  ⟨0x8, 1, 0xBC, 1, 4, [⟨0, 32, .hw, 0⟩]⟩,
  ⟨0x8, 1, 0xC0, 1, 4, [⟨0, 32, .hw, 0⟩]⟩,
  ⟨0x8, 1, 0xC4, 1, 4, [⟨0, 32, .hw, 0⟩]⟩,
  ⟨0x8, 1, 0xC8, 1, 4, [⟨0, 32, .hw, 0⟩]⟩]

/-- CAL (R405). -/
def regTableCal : List RegDesc := [
  ⟨0x9, 1, 0x40, 1, 4, [⟨0, 8, .rw, 0⟩]⟩,
  ⟨0x9, 1, 0x44, 1, 4, [⟨0, 7, .rw, 0⟩]⟩,
  ⟨0x9, 1, 0x48, 1, 4, [⟨0, 32, .rw, 0⟩]⟩,
  ⟨0x9, 1, 0x4C, 1, 4, [⟨0, 1, .cmd, 0⟩, ⟨1, 1, .cmd, 0⟩]⟩,
  ⟨0x9, 1, 0x50, 1, 4, [⟨0, 1, .hw, 0⟩, ⟨1, 1, .hw, 0⟩, ⟨2, 3, .hw, 0⟩, ⟨8, 7, .hw, 0⟩]⟩,
  ⟨0x9, 1, 0x54, 1, 4, [⟨0, 32, .hw, 0⟩]⟩,
  ⟨0x9, 1, 0x58, 1, 4, [⟨0, 32, .rl, 0⟩]⟩,
  ⟨0x9, 1, 0x5C, 1, 4, [⟨0, 32, .hw, 0⟩]⟩,
  ⟨0x9, 1, 0x60, 1, 4, [⟨0, 1, .rw, 1⟩, ⟨8, 8, .rw, 0x3C⟩]⟩,
  ⟨0x9, 1, 0x64, 1, 4, [⟨0, 8, .hw, 0x80⟩, ⟨8, 23, .hw, 0⟩]⟩,
  ⟨0x9, 1, 0x68, 1, 4, [⟨0, 32, .hw, 0⟩]⟩,
  ⟨0x9, 1, 0x6C, 1, 4, [⟨0, 32, .hw, 0⟩]⟩]

/-- DEV (R425). -/
def regTableDev : List RegDesc := [
  ⟨0x0, 1, 0x40, 1, 4, [⟨0, 1, .rw, 0⟩]⟩,
  ⟨0x0, 1, 0x44, 1, 4, [⟨0, 10, .hw, 0⟩, ⟨10, 10, .hw, 0⟩, ⟨20, 1, .hw, 0⟩, ⟨21, 3, .hw, 0⟩, ⟨24, 2, .hw, 0⟩]⟩,
  ⟨0x0, 1, 0x48, 1, 4, [⟨0, 32, .hw, 0⟩]⟩,
  ⟨0x0, 1, 0x50, 4, 4, [⟨0, 32, .rw, 0⟩]⟩]

/-- MGMT (R426). -/
def regTableMgmt : List RegDesc := [
  ⟨0x1, 1, 0x40, 1, 4, [⟨0, 8, .rw, 0⟩, ⟨31, 1, .cmd, 0⟩]⟩,
  ⟨0x1, 1, 0x180, 1, 4, [⟨0, 8, .rw, 0⟩, ⟨31, 1, .cmd, 0⟩]⟩,
  ⟨0x1, 1, 0x44, 1, 4, [⟨0, 1, .hw, 0⟩, ⟨1, 1, .hw, 0⟩, ⟨8, 8, .hw, 0⟩, ⟨16, 6, .hw, 0⟩]⟩,
  ⟨0x1, 1, 0x184, 1, 4, [⟨0, 1, .hw, 0⟩, ⟨1, 1, .hw, 0⟩, ⟨8, 8, .hw, 0⟩, ⟨16, 6, .hw, 0⟩]⟩,
  ⟨0x1, 1, 0x80, 32, 4, [⟨0, 32, .rw, 0⟩]⟩,
  ⟨0x1, 1, 0x1C0, 32, 4, [⟨0, 32, .rw, 0⟩]⟩,
  ⟨0x1, 1, 0x100, 32, 4, [⟨0, 32, .hw, 0⟩]⟩,
  ⟨0x1, 1, 0x240, 32, 4, [⟨0, 32, .hw, 0⟩]⟩,
  ⟨0x1, 1, 0x2C0, 1, 4, [⟨0, 6, .rw, 6⟩, ⟨6, 1, .rw, 0⟩, ⟨7, 1, .rw, 0⟩]⟩,
  ⟨0x1, 1, 0x2C4, 1, 4, [⟨0, 1, .hw, 0⟩, ⟨1, 1, .hw, 0⟩]⟩,
  ⟨0x1, 1, 0x2C8, 1, 4, [⟨0, 32, .hw, 0⟩]⟩,
  ⟨0x1, 1, 0x2CC, 1, 4, [⟨0, 32, .hw, 0⟩]⟩]

/-- PCIEM (R427). -/
def regTablePciem : List RegDesc := [
  ⟨0x10, 1, 0x40, 1, 4, [⟨0, 1, .rw, 1⟩, ⟨1, 6, .rw, 0x3F⟩, ⟨7, 3, .rw, 0⟩]⟩,
  ⟨0x10, 1, 0x44, 1, 4, [⟨0, 21, .rw, 0⟩]⟩,
  ⟨0x10, 1, 0x48, 1, 4, [⟨0, 1, .hw, 0⟩, ⟨1, 4, .hw, 0⟩, ⟨5, 1, .hw, 0⟩]⟩,
  ⟨0x10, 1, 0x4C, 1, 4, [⟨0, 4, .hw, 0⟩, ⟨4, 6, .hw, 0⟩, ⟨10, 1, .hw, 0⟩, ⟨11, 1, .hw, 0⟩, ⟨12, 2, .hw, 0⟩]⟩,
  ⟨0x10, 1, 0x50, 1, 4, [⟨0, 16, .hw, 0⟩, ⟨16, 16, .hw, 0x5616⟩]⟩,
  ⟨0x10, 1, 0x60, 1, 4, [⟨0, 32, .hw, 0⟩]⟩,
  ⟨0x10, 1, 0x64, 1, 4, [⟨0, 32, .hw, 0⟩]⟩,
  ⟨0x10, 1, 0x68, 1, 4, [⟨0, 32, .hw, 0⟩]⟩,
  ⟨0x10, 1, 0x6C, 1, 4, [⟨0, 32, .hw, 0⟩]⟩,
  ⟨0x10, 1, 0x70, 1, 4, [⟨0, 32, .hw, 0⟩]⟩,
  ⟨0x10, 1, 0x74, 1, 4, [⟨0, 32, .hw, 0⟩]⟩,
  ⟨0x10, 1, 0x78, 1, 4, [⟨0, 32, .hw, 0⟩]⟩]

/-- SPI (R428). -/
def regTableSpi : List RegDesc := [
  ⟨0x11, 1, 0x40, 1, 4, [⟨0, 4, .rw, 4⟩, ⟨4, 1, .rw, 0⟩, ⟨5, 1, .rw, 0⟩]⟩,
  ⟨0x11, 1, 0x44, 1, 4, [⟨0, 1, .hw, 0⟩, ⟨1, 1, .hw, 0⟩, ⟨2, 1, .hw, 0⟩, ⟨3, 1, .hw, 0⟩, ⟨4, 1, .hw, 0⟩]⟩,
  ⟨0x11, 1, 0x48, 1, 4, [⟨0, 24, .hw, 0⟩]⟩,
  ⟨0x11, 1, 0x4C, 1, 4, [⟨0, 8, .cmd, 0⟩, ⟨8, 2, .cmd, 0⟩, ⟨10, 5, .cmd, 0⟩, ⟨15, 7, .cmd, 0⟩, ⟨22, 1, .cmd, 0⟩, ⟨23, 1, .cmd, 0⟩, ⟨31, 1, .cmd, 0⟩]⟩,
  ⟨0x11, 1, 0x50, 1, 4, [⟨0, 32, .rw, 0⟩]⟩,
  ⟨0x11, 1, 0x80, 16, 4, [⟨0, 32, .rw, 0⟩]⟩,
  ⟨0x11, 1, 0xC0, 1, 4, [⟨0, 32, .hw, 0⟩]⟩,
  ⟨0x11, 1, 0xC4, 1, 4, [⟨0, 32, .hw, 0⟩]⟩,
  ⟨0x11, 1, 0xC8, 1, 4, [⟨0, 32, .hw, 0⟩]⟩,
  ⟨0x11, 1, 0xCC, 1, 4, [⟨0, 32, .hw, 0⟩]⟩,
  ⟨0x11, 1, 0xD0, 1, 4, [⟨0, 15, .hw, 0⟩]⟩]

/-- HEALTH (R429). -/
def regTableHealth : List RegDesc := [
  ⟨0x14, 1, 0x40, 1, 4, [⟨0, 2, .hw, 0⟩, ⟨2, 1, .hw, 0⟩, ⟨3, 1, .hw, 0⟩]⟩,
  ⟨0x14, 1, 0x44, 1, 4, [⟨0, 32, .hw, 0⟩]⟩,
  ⟨0x14, 1, 0x48, 1, 4, [⟨0, 16, .hw, 0⟩]⟩,
  ⟨0x14, 1, 0x4C, 1, 4, [⟨0, 32, .hw, 0⟩]⟩,
  ⟨0x14, 1, 0x50, 1, 4, [⟨0, 4, .hw, 0⟩, ⟨4, 4, .hw, 0⟩, ⟨8, 1, .hw, 0⟩, ⟨16, 16, .hw, 0⟩]⟩,
  ⟨0x14, 1, 0x54, 4, 4, [⟨0, 1, .hw, 0⟩, ⟨1, 5, .hw, 0⟩, ⟨6, 6, .hw, 0⟩]⟩,
  ⟨0x14, 1, 0x70, 1, 4, [⟨0, 32, .rl, 0⟩]⟩,
  ⟨0x14, 1, 0x74, 1, 4, [⟨0, 32, .hw, 0⟩]⟩,
  ⟨0x14, 1, 0x78, 1, 4, [⟨0, 32, .hw, 0⟩]⟩,
  ⟨0x14, 1, 0x7C, 1, 4, [⟨0, 32, .hw, 0⟩]⟩,
  ⟨0x14, 1, 0x80, 1, 4, [⟨0, 32, .hw, 0⟩]⟩,
  ⟨0x14, 1, 0x84, 1, 4, [⟨0, 32, .hw, 0⟩]⟩]

/-- PERF (R443). -/
def regTablePerfA : List RegDesc := [
  ⟨0xA, 1, 0x40, 1, 4, [⟨0, 1, .rw, 0⟩, ⟨1, 1, .cmd, 0⟩, ⟨2, 1, .rw, 0⟩, ⟨3, 1, .rw, 0⟩, ⟨4, 1, .rw, 0⟩, ⟨5, 1, .rw, 0⟩]⟩,
  ⟨0xA, 1, 0x44, 1, 4, [⟨0, 1, .hw, 0⟩, ⟨1, 1, .hw, 0⟩]⟩,
  ⟨0xA, 1, 0x48, 1, 4, [⟨0, 32, .rl, 0⟩]⟩,
  ⟨0xA, 1, 0x4C, 1, 4, [⟨0, 32, .hw, 0⟩]⟩,
  ⟨0xA, 1, 0x50, 1, 4, [⟨0, 32, .hw, 0⟩]⟩,
  ⟨0xA, 1, 0x54, 1, 4, [⟨0, 10, .rw, 0⟩, ⟨10, 2, .rw, 0⟩]⟩,
  ⟨0xA, 1, 0x58, 1, 4, [⟨0, 10, .rw, 0⟩, ⟨10, 1, .rw, 0⟩, ⟨11, 1, .hw, 0⟩]⟩,
  ⟨0xA, 1, 0x5C, 1, 4, [⟨0, 32, .rl, 0⟩]⟩,
  ⟨0xA, 1, 0x60, 1, 4, [⟨0, 16, .hw, 0⟩]⟩,
  ⟨0xA, 1, 0x64, 1, 4, [⟨0, 32, .rl, 0⟩]⟩,
  ⟨0xA, 1, 0x68, 1, 4, [⟨0, 16, .hw, 0⟩]⟩,
  ⟨0xA, 1, 0x6C, 1, 4, [⟨0, 1, .cmd, 0⟩, ⟨1, 1, .cmd, 0⟩]⟩,
  ⟨0xA, 1, 0x80, 1, 4, [⟨0, 1, .rw, 0⟩, ⟨1, 5, .rw, 0xC⟩, ⟨6, 1, .rw, 0⟩, ⟨8, 1, .rw, 1⟩, ⟨9, 1, .rw, 1⟩, ⟨10, 1, .rw, 1⟩, ⟨16, 8, .rw, 0xFF⟩]⟩,
  ⟨0xA, 1, 0x84, 1, 4, [⟨0, 32, .rw, 0xFFFFFFFF⟩]⟩,
  ⟨0xA, 1, 0x88, 1, 4, [⟨0, 32, .rw, 0xFFFFFFFF⟩]⟩,
  ⟨0xA, 1, 0x8C, 1, 4, [⟨0, 32, .rw, 1⟩]⟩,
  ⟨0xA, 1, 0x90, 1, 4, [⟨0, 12, .hw, 0⟩]⟩,
  ⟨0xA, 1, 0x94, 1, 4, [⟨0, 12, .rw, 0⟩]⟩,
  ⟨0xA, 1, 0x98, 1, 4, [⟨0, 12, .rw, 0⟩]⟩,
  ⟨0xA, 1, 0x9C, 1, 4, [⟨0, 1, .hw, 0⟩]⟩,
  ⟨0xA, 1, 0xA0, 1, 4, [⟨0, 32, .rl, 0⟩]⟩,
  ⟨0xA, 1, 0xA4, 1, 4, [⟨0, 32, .hw, 0⟩]⟩,
  ⟨0xA, 1, 0xA8, 1, 4, [⟨0, 32, .hw, 0⟩]⟩,
  ⟨0xA, 1, 0xAC, 1, 4, [⟨0, 32, .hw, 0⟩]⟩]

/-- PERF (R443). -/
def regTablePerfB : List RegDesc := [
  ⟨0xA, 1, 0xC0, 16, 4, [⟨0, 10, .rw, 0⟩, ⟨10, 2, .rw, 0⟩, ⟨31, 1, .rw, 0⟩]⟩,
  ⟨0xA, 1, 0x100, 32, 4, [⟨0, 32, .hw, 0⟩]⟩]

/-- PERFU (R444). -/
def regTablePerfu : List RegDesc := [
  ⟨0x200, 1, 0x40, 1, 4, [⟨0, 16, .hw, 0⟩, ⟨16, 1, .hw, 0⟩, ⟨17, 1, .hw, 0⟩]⟩,
  ⟨0x200, 1, 0x44, 1, 4, [⟨0, 1, .cmd, 0⟩]⟩,
  ⟨0x200, 1, 0x48, 1, 4, [⟨0, 32, .rl, 0⟩]⟩,
  ⟨0x200, 1, 0x4C, 1, 4, [⟨0, 32, .hw, 0⟩]⟩,
  ⟨0x200, 1, 0x80, 16, 8, [⟨0, 32, .rl, 0⟩]⟩,
  ⟨0x200, 1, 0x84, 16, 8, [⟨0, 16, .hw, 0⟩]⟩,
  ⟨0x200, 1, 0x100, 16, 8, [⟨0, 32, .rl, 0⟩]⟩,
  ⟨0x200, 1, 0x104, 16, 8, [⟨0, 16, .hw, 0⟩]⟩]

/-- The register table of the page row whose first index is `p`. -/
def regTable (p : Nat) : List RegDesc :=
  match p with
  | 0x80 => regTableTxg
  | 0x88 => regTableRxg
  | 0xE => regTableLink
  | 0xF => regTableXact
  | 0xC => regTablePlaceA ++ regTablePlaceB
  | 0xD => regTableCache
  | 0x1D0 => regTableCdie
  | 0x100 => regTableChcA ++ regTableChcB
  | 0x140 => regTableChp
  | 0x1C0 => regTableDdie
  | 0x17 => regTableRfm
  | 0x16 => regTableScrub
  | 0x180 => regTableEng
  | 0x40 => regTableQuad
  | 0xB => regTableBridle
  | 0x12 => regTableSide
  | 0x2 => regTableFcolA ++ regTableFcolB
  | 0x5 => regTableTherm
  | 0x4 => regTablePwr
  | 0x13 => regTableStack
  | 0x3 => regTableClk
  | 0x6 => regTableFuse
  | 0x7 => regTableLock
  | 0x15 => regTableSec
  | 0x8 => regTableBist
  | 0x9 => regTableCal
  | 0x0 => regTableDev
  | 0x1 => regTableMgmt
  | 0x10 => regTablePciem
  | 0x11 => regTableSpi
  | 0x14 => regTableHealth
  | 0xA => regTablePerfA ++ regTablePerfB
  | 0x200 => regTablePerfu
  | _ => []

end Sys2Proof.Machine
end

