-- ==== Sys2Proof/Machine/RegFile.lean ====
section
/-! DEFINITION. The register map as a function of the BAR0 byte address: page rows (R463), the common header (R408),
which field holds which bit, and the value of every register after chip reset (R9). -/

namespace Sys2Proof.Machine

/-- A row of the register page index (R463): first index, instances, PG_ID.LEVEL, PG_CAP and the boot step at which
the page is released. -/
structure PageRow where
  first : Nat
  insts : Nat
  level : Nat
  cap : Nat
  released : Nat
  deriving DecidableEq, Repr

/-- The page rows of R463, without the two MSI-X pages. -/
def pageRows : List PageRow := [
  ⟨0x000, 1, 0, 0x10, 3⟩, ⟨0x001, 1, 0, 0x10, 3⟩, ⟨0x002, 1, 0, 0x10, 3⟩, ⟨0x003, 1, 0, 0x10, 3⟩,
  ⟨0x004, 1, 0, 0x10, 3⟩, ⟨0x005, 1, 0, 0x10, 3⟩, ⟨0x006, 1, 0, 0x10, 3⟩, ⟨0x007, 1, 0, 0x10, 3⟩,
  ⟨0x008, 1, 0, 0x03, 6⟩, ⟨0x009, 1, 0, 0x03, 6⟩, ⟨0x00A, 1, 0, 0x03, 6⟩, ⟨0x00B, 1, 0, 0x00, 6⟩,
  ⟨0x00C, 1, 0, 0x00, 6⟩, ⟨0x00D, 1, 0, 0x00, 6⟩, ⟨0x00E, 1, 0, 0x00, 6⟩, ⟨0x00F, 1, 0, 0x00, 6⟩,
  ⟨0x010, 1, 0, 0x02, 3⟩, ⟨0x011, 1, 0, 0x03, 3⟩, ⟨0x012, 1, 0, 0x13, 3⟩, ⟨0x013, 1, 0, 0x10, 3⟩,
  ⟨0x014, 1, 0, 0x10, 3⟩, ⟨0x015, 1, 0, 0x10, 3⟩, ⟨0x016, 1, 0, 0x03, 6⟩, ⟨0x017, 1, 0, 0x00, 6⟩,
  ⟨0x040, 4, 1, 0x00, 6⟩, ⟨0x080, 8, 0, 0x01, 6⟩, ⟨0x088, 8, 0, 0x01, 6⟩, ⟨0x100, 36, 2, 0x0F, 6⟩,
  ⟨0x140, 32, 0, 0x00, 6⟩, ⟨0x180, 36, 2, 0x0F, 6⟩, ⟨0x1C0, 16, 0, 0x00, 6⟩, ⟨0x1D0, 1, 0, 0x00, 6⟩,
  ⟨0x200, 1, 0, 0x03, 6⟩]

/-- The row of a page index, none when it is not assigned (R8). -/
def pageRow (pg : Nat) : Option PageRow := pageRows.find? fun r => r.first ≤ pg && pg < r.first + r.insts

/-- The MSI-X table and pending-bit pages (R407). -/
def isMsixPage (pg : Nat) : Bool := pg == 0x3FE || pg == 0x3FF

/-- The page index of an address. -/
def pageOf (a : Nat) : Nat := a / 0x1000

/-- The offset in the page. -/
def offOf (a : Nat) : Nat := a % 0x1000

/-- The register of a row's table at an offset. -/
def findReg (first off : Nat) : Option RegDesc :=
  (regTable first).find? fun r =>
    r.off ≤ off && (off - r.off) % r.stride == 0 && (off - r.off) / r.stride < r.count

/-- The fields of the common header (R408). -/
def headerFields (off : Nat) : List FieldDesc :=
  if off = 0x0C then [⟨0, 1, .rw, 1⟩, ⟨1, 1, .cmd, 0⟩, ⟨2, 1, .rw, 0⟩]
  else if off = 0x10 then [⟨0, 6, .hw, 4⟩]
  else if off = 0x14 then [⟨0, 32, .ro, 0⟩]
  else if off = 0x18 then [⟨0, 32, .rw, 0⟩]
  else if off = 0x1C then [⟨0, 1, .ro, 0⟩]
  else if off = 0x00 ∨ off = 0x04 ∨ off = 0x08 then [⟨0, 32, .ro, 0⟩]
  else []

/-- The fields of the register at an address; none of them where no register stands (R7). LOCAL_TIMING and PAD_CNT
exist in TXG[0] only (R63). -/
def fieldsAt (a : Nat) : List FieldDesc :=
  match pageRow (pageOf a) with
  | none => []
  | some r =>
    if offOf a < 0x40 then headerFields (offOf a)
    else match findReg r.first (offOf a) with
      | none => []
      | some d =>
        if r.first = 0x080 ∧ pageOf a ≠ 0x080 ∧ (d.off = 0x40 ∨ d.off = 0x4C) then
          d.fields.filter fun f => f.lsb != (if d.off = 0x40 then 2 else 0)
        else d.fields

/-- The word that fields hold after reset. -/
def fieldsReset (l : List FieldDesc) : Nat := l.foldl (fun n f => n + f.reset % 2 ^ f.width * 2 ^ f.lsb) 0

/-- The bits of the fields whose access code meets `p`. -/
def fieldsMask (p : Acc → Bool) (l : List FieldDesc) : Nat :=
  l.foldl (fun n f => if p f.acc then n + (2 ^ f.width - 1) * 2 ^ f.lsb else n) 0

/-- PG_ID, PG_VER and PG_CAP (R408), DEV.PG_VER by R5. -/
def headerConst (r : PageRow) (pg off : Nat) : Nat :=
  if off = 0x00 then r.first + (pg - r.first) * 2 ^ 10 + r.level * 2 ^ 16
  else if off = 0x04 then (if pg = 0 then 0x00011021 else 0x00010000)
  else r.cap

/-- Reset values that the tables give per instance: CHC.CHAN_MAP (R208, R11), ENG.ENG_STAT.SPARE (R252) and
DDIE.DIE_STAT.SID (R210). -/
def instReset (first i off : Nat) : Nat :=
  if first = 0x100 ∧ off = 0x44 then
    8 * (i / 9) + (if i % 9 = 8 then 0 else i % 9) + (if i % 9 = 8 then 0 else 2 ^ 5)
  else if first = 0x180 ∧ off = 0x44 then (if i % 9 = 8 then 2 ^ 3 else 0)
  else if first = 0x1C0 ∧ off = 0x50 then i / 4 * 2 ^ 4
  else 0

/-- The value of the register at an address after chip reset (R9). -/
def regReset (a : Nat) : Word :=
  match pageRow (pageOf a) with
  | none => 0
  | some r =>
    let off := offOf a
    if off < 0x0C then BitVec.ofNat 32 (headerConst r (pageOf a) off)
    else if off < 0x40 then BitVec.ofNat 32 (fieldsReset (headerFields off))
    else match findReg r.first off with
      | none => 0
      | some d => BitVec.ofNat 32 (fieldsReset d.fields + instReset r.first (pageOf a - r.first) off)

/-- The counter registers of R431, as first page index, offset, number and stride: the fields that count occurrences,
RXL_CORR, and the low words of pairs that count occurrences. -/
def counterRegs : List (Nat × Nat × Nat × Nat) := [
  (0x0, 0x48, 1, 4), (0x1, 0x2C8, 2, 4), (0x2, 0x100, 12, 4), (0x3, 0x70, 3, 4), (0x3, 0x80, 1, 4),
  (0x4, 0x98, 3, 4), (0x5, 0xE0, 2, 4), (0x6, 0x68, 1, 4), (0x6, 0x8C, 4, 4), (0x8, 0xA0, 11, 4), (0x9, 0x54, 1, 4),
  (0x9, 0x68, 2, 4), (0xA, 0x50, 1, 4), (0xA, 0xA0, 1, 4), (0xA, 0xA8, 2, 4), (0xB, 0x100, 6, 4), (0xC, 0xC0, 9, 4),
  (0xC, 0xE8, 1, 4), (0xD, 0x80, 1, 4), (0xD, 0x88, 1, 4), (0xD, 0x90, 11, 4), (0xE, 0x60, 1, 4), (0xE, 0x68, 13, 4),
  (0xF, 0x60, 1, 4), (0xF, 0x68, 13, 4), (0x10, 0x60, 7, 4), (0x11, 0xC0, 4, 4), (0x12, 0x80, 12, 4),
  (0x13, 0x6C, 2, 4), (0x14, 0x78, 1, 4), (0x14, 0x80, 1, 4), (0x15, 0x100, 3, 4), (0x16, 0x50, 3, 4),
  (0x16, 0x60, 6, 4), (0x17, 0x60, 1, 4), (0x17, 0x68, 1, 4), (0x17, 0x70, 4, 4), (0x40, 0x80, 9, 4),
  (0x80, 0x4C, 1, 4), (0x88, 0x118, 10, 64), (0x88, 0x120, 10, 64), (0x100, 0x80, 1, 4), (0x100, 0x88, 1, 4),
  (0x100, 0x90, 12, 4), (0x140, 0x78, 1, 4), (0x140, 0x100, 72, 4), (0x180, 0x60, 2, 4), (0x180, 0x6C, 1, 4),
  (0x180, 0x74, 4, 4), (0x1C0, 0x60, 3, 4), (0x1D0, 0xC0, 48, 4)]

/-- The dword index names a counter register of the page. -/
def isCounter (pg dword : Nat) : Bool :=
  counterRegs.any fun r => (pageRow pg).any (·.first == r.1) && decide (r.2.1 ≤ 4 * dword) && (4 * dword - r.2.1) % r.2.2.2 == 0
    && decide ((4 * dword - r.2.1) / r.2.2.2 < r.2.2.1)

/-- The value of a field of a word. -/
def Fld.get (f : Fld) (w : Word) : Nat := (w >>> f.lsb).toNat % 2 ^ f.width

/-- The bits of a field. -/
def Fld.mask (f : Fld) : Word := BitVec.ofNat 32 ((2 ^ f.width - 1) * 2 ^ f.lsb)

/-- A word with one field replaced; the value is cut to the field's width. -/
def Fld.set (f : Fld) (n : Nat) (w : Word) : Word :=
  (w &&& ~~~f.mask) ||| BitVec.ofNat 32 (n % 2 ^ f.width * 2 ^ f.lsb)

end Sys2Proof.Machine
end

