-- ==== Sys2Proof/Machine/State.lean ====
section
/-! DEFINITION. The state of the stack as plain data, and the state right after a VAUX power-on.

Every register of the register map lives in `regs`, keyed by its BAR0 byte address; a register that the manual shows
as a window on other state (a selected entry, a status) is computed when it is read. The other structures hold what
the manual gives the blocks beside their registers. Maps are `SMap`s in canonical form. -/

namespace Sys2Proof.Machine

/-- The reasons for which a step can stop with a fault. No command of the stack does: an access that the manual calls
an error is recorded in DEV.ACC_ERR and completes (R413). -/
inductive Fault where
  /-- Raised by no command; safe. -/
  | none
  deriving DecidableEq, Repr

/-- The reasons for which a command is refused. -/
inductive Refusal where
  /-- The command has no meaning in this model yet (raised by its arm of `exec` alone); safe. -/
  | notModelled (mnemonic : String)
  deriving DecidableEq, Repr

/-! ### Clocks, reset and boot -/

/-- What the clock, reset and power controllers hold beside CLK and PWR (R340 to R363). -/
structure ClkState where
  /-- VAUX is above its power-on level -/
  vaux : Bool := true
  /-- RESET_N is asserted, after its filter (R357) -/
  resetN : Bool := false
  /-- the chip is held in reset: RESET_N is asserted and its reset has been performed (R357) -/
  held : Bool := false
  /-- PERST_N is low (R359) -/
  perstN : Bool := false
  /-- the orderly reset that runs, as its RESET_CAUSE bit (R358) -/
  orderly : Option Nat := none
  /-- nanoseconds of the always-on clock since VAUX power-on or the last chip reset -/
  up : Nat := 0
  /-- `up` at which the boot time starts: power good, or RESET_N deasserted (R361; assumption 141) -/
  bootFrom : Nat := 0
  /-- PCIE_MS has been recorded (R364) -/
  pcieTimed : Bool := false
  /-- the crystal oscillator runs: from boot step 6 on, over chip resets (R340, R360) -/
  xoOn : Bool := false
  /-- XO has been judged stable since the chip reset (R349) -/
  judged : Bool := false
  /-- `up` at Drogue entry (R349) -/
  drogueAt : Nat := 0
  /-- consecutive bad monitor windows of XO and of the recovered clock (R346) -/
  xoBad : Nat := 0
  linkBad : Nat := 0
  /-- the crystal amplifier is disabled (R347) -/
  ampOff : Bool := false
  /-- the link PLL holds after losing its reference lane (R40) -/
  holdover : Bool := false
  /-- channel 1 of the frequency counter runs (R344) -/
  fmcBusy : Bool := false
  /-- pages whose gate close waits for an idle bus interface (R355) -/
  gateWait : List Nat := []
  /-- pages that a request of the power controller has gated, and those whose request was refused, with `up` at which it is made
  again (R355) -/
  hwGates : List Nat := []
  hwRetry : List (Nat × Nat) := []
  /-- DRAM is initialised: boot step 11 has ended (R163) -/
  dramInit : Bool := false
  /-- PLLs that lost lock with a valid reference (R364) -/
  unlocked : List Nat := []
  /-- strap pins sampled at boot step 3 (R455) -/
  straps : Nat := 0
  /-- boot step 3 waits for a rail to come into its window (R452) -/
  railWait : Bool := false
  deriving DecidableEq, Repr

/-! ### The fault collector -/

/-- A delivery of counted occurrences that has not reached the collector (R277, R283). -/
structure Delivery where
  kind : Nat
  resource : Word
  count : Nat
  /-- occurrences that add weight (R289) -/
  weighted : Nat
  addr : Word64
  access : Nat
  mid : Option Nat
  tc : Option Nat
  outcome : Nat
  /-- timestamp of the first occurrence (R277) -/
  ts : Word64 := 0
  deriving DecidableEq, Repr

/-- A record of the fault collector (R283). -/
structure Rec where
  page : Nat := 0
  source : Nat := 0
  isOpen : Bool := false
  alert : Bool := false
  valid : Bool := false
  cls : Nat := 0
  merges : Word := 0
  ts : Word64 := 0
  lastTs : Word64 := 0
  addr : Word64 := 0
  access : Nat := 0
  mid : Option Nat := none
  tc : Option Nat := none
  resource : Word := 0
  bucket : Word := 0
  value : Word := 0
  /-- the entry of the reaction map at its opening (R280) -/
  entry : Word := 0
  deriving DecidableEq, Repr

/-- A confirming retest: the kind that started it and the resource (R290). -/
structure Retest where
  kind : Nat
  resource : Word
  deriving DecidableEq, Repr

/-- What the fault collector holds beside FCOL (R273 to R294). -/
structure FcolState where
  /-- the 64 records -/
  recs : SMap Rec := []
  /-- reaction map, keyed 32 × first page index + bit -/
  react : SMap Word := []
  /-- BKT_CFG and BKT_CFG2 by bucket type -/
  caps : SMap Word := []
  leaks : SMap Word := []
  /-- KIND_CFG by kind -/
  weights : SMap Word := []
  /-- bucket levels by resource identifier -/
  levels : SMap Nat := []
  /-- rows that hold an entry of the ROW table -/
  rows : List Word := []
  /-- level source bits as last seen, keyed 32 × page + bit -/
  seen : SMap Bool := []
  deliv : List Delivery := []
  retestQ : List Retest := []
  /-- the running retest of SCRUB_CMD and of the on-demand BIST path -/
  runScrub : Option Retest := none
  runBist : Option Retest := none
  declared : List Word := []
  /-- resources handed to the sparing ladder in this delivery -/
  handed : List Word := []
  /-- ALERT_N is driven low, and `clk.up` at its assertion (R294) -/
  alertN : Bool := false
  alertAt : Nat := 0
  /-- counters that level sources watch for a rise within QUIET_MS: `up` + 1 at their last rise -/
  rose : SMap Nat := []
  /-- pages whose block reset a reaction has asked for, and a CHIP_RESET reaction that waits to start (R279) -/
  resets : List Nat := []
  chipReset : Bool := false
  deriving DecidableEq, Repr

/-! ### The performance monitor -/

/-- A request that the sampler follows: its arrival number and the entry under construction (R437, R438). -/
structure Sample where
  id : Nat
  ts : Word64
  /-- `up` of its arrival -/
  at_ : Nat := 0
  header : Word64
  whr : Nat := 0
  unit : Nat := 0
  point : Nat := 0
  stamps : List Nat := [0, 0, 0, 0, 0, 0, 0]
  tagsOut : Nat := 0
  rdq : Nat := 0
  wrq : Nat := 0
  status : Nat := 0
  deriving DecidableEq, Repr

/-- What the performance monitor holds beside PERF (R430 to R440). -/
structure PerfState where
  /-- counters, snapshots and configurations, keyed 4 × page + counter -/
  ctrs : SMap (BitVec 48) := []
  snaps : SMap (BitVec 48) := []
  cfgs : SMap Word := []
  lfsr : Word := 1
  /-- eligible requests left of the sampling interval -/
  interval : Nat := 1
  inFlight : List Sample := []
  /-- the sample ring: 128-byte entries by index -/
  ring : SMap (BitVec 1024) := []
  seq : Word64 := 0
  deriving DecidableEq, Repr

/-! ### The link -/

/-- A flit held for replay: the fields that a resend keeps (R82). -/
structure Stored where
  seq : BitVec 12
  map : BitVec 26
  cred : BitVec 36
  slots : List Slot
  deriving DecidableEq, Repr

/-- A transaction waiting to enter sequenced flits: its header, the data slots not yet placed, and whether the header
is placed. -/
structure TxItem where
  header : Word64
  data : List Slot
  hdrSent : Bool := false
  /-- the arrival number of the request it answers; none for an event -/
  req : Option Nat := none
  deriving DecidableEq, Repr

/-- A transaction in the receive buffer (R86): header word, descriptor bytes of an extended header, the data slots
received and those still to come, whether the header stood in a header slot half, and its header credits. -/
structure RxItem where
  header : Word64
  ext : Option (BitVec 384)
  data : List Slot
  left : Nat
  /-- it came in a header slot half, not in an extension group (R102) -/
  half : Bool := true
  /-- timestamp, `up` and number of its arrival; `up` when it was decoded and stayed in the buffer (R258) -/
  ts : Word64 := 0
  at_ : Nat := 0
  num : Nat := 0
  decoded : Option Nat := none
  deriving DecidableEq, Repr

/-- Hitless sparing driven by the host for a transmit group (R53, R56). -/
structure TxShadow where
  lane : Nat
  switched : Bool
  deriving DecidableEq, Repr

/-- What the lanes and the link layer hold beside TXG, RXG and LINK. -/
structure LinkState where
  /-- failed attempts of the training that runs (R44) -/
  attempts : Nat := 0
  /-- the training-failure event has been raised and no retrain command came since -/
  failed : Bool := false
  trained : Bool := false
  /-- the training that runs began from DETECT, so every lane is tried again (R301) -/
  fresh : Bool := false
  /-- lanes (10 × group + lane) that this training has retired, receive and transmit -/
  badRx : List Nat := []
  badTx : List Nat := []
  /-- lanes retired for good by sparing or declaration -/
  deadRx : List Nat := []
  deadTx : List Nat := []
  /-- groups whose logic failed startup BIST (R393), as 8 × direction + group -/
  noGroup : List Nat := []
  /-- data-carrying lanes in rank order (R68), keyed 8 × direction + group -/
  lanes : SMap (List Nat) := []
  /-- the host's TRAIN state code and readiness by group (R44) -/
  hostTrain : SMap Nat := []
  /-- the host's PARAM word by group and how often it came equal (R29) -/
  hostParam : SMap Nat := []
  paramSeen : SMap Nat := []
  /-- precoding of the two directions (R29) -/
  precodeRx : Bool := false
  precodeTx : Bool := false
  /-- receive groups whose CDR, CTLE and DFE are frozen for an exit burst (R47) -/
  frozen : List Nat := []
  /-- EXIT markers seen in order of a joining group's burst (R49) -/
  exits : SMap Nat := []
  /-- joining groups that are deskewed and ready, keyed 8 × direction + group -/
  ready : List Nat := []
  /-- the EQ_ACK last received, by group -/
  eqAck : SMap Nat := []
  /-- the stack's receivers are ready to leave EQ (R44) -/
  eqReady : Bool := false
  /-- spare lane that PARAM gave each group, keyed 8 × direction + group (R52) -/
  spares : SMap Nat := []
  /-- the reference lane that clocks the transmitter (R39, R40) -/
  ref : Option (Nat × Nat) := none
  /-- control fields that the next markers of a transmit group carry: its requests about the receive direction, and its
  answers about its own (R34) -/
  ctl : SMap Nat := []
  ack : SMap Nat := []
  /-- control field of the last marker sent on a transmit group -/
  markers : SMap Nat := []
  shadowTx : SMap (Option TxShadow) := []
  /-- lanes on which an injection waits: symbols left (R58), keyed 10 × group + lane -/
  inject : SMap Nat := []
  /-- margin points that run, keyed 10 × group + lane -/
  margins : List Nat := []
  /-- scrambler register and last symbol sent of each transmit lane (R28) -/
  scrambler : SMap (BitVec 58) := []
  lastSym : SMap Nat := []
  /-- symbols of the last frame on each transmit lane -/
  symOut : SMap (List Nat) := []
  /-- descrambler register of each receive lane, and the symbol it took last (R28, R29) -/
  descr : SMap (BitVec 58) := []
  rxLast : SMap Nat := []
  /-- consecutive good and bad markers of each receive lane in ACTIVE (R32) -/
  markGood : SMap Nat := []
  markBad : SMap Nat := []
  /-- millivolts of each DFE tap beyond its register, keyed 12 × lane + tap (R37) -/
  tapRest : SMap Rat := []
  /-- pattern generator of each transmit lane: PRBS register and UI sent (R57) -/
  prbsTx : SMap Nat := []
  patUi : SMap Nat := []
  /-- pattern checker of each receive lane: PRBS register and bits loaded (R57) -/
  prbsRx : SMap Nat := []
  prbsGot : SMap Nat := []
  /-- data UI sent on each lane since the last marker (R30) -/
  uiSince : Nat := 0
  /-- flits held for replay, oldest first; index of the next to resend (R80) -/
  stored : List Stored := []
  replayAt : Nat := 0
  /-- start SEQ whose hold timer runs (R80) -/
  hold : Option (BitVec 12) := none
  runSeq : BitVec 12 := 0
  runCount : Nat := 0
  /-- start SEQ of a replay that has not resent a flit yet, and RECOVER requested at the end of the frame (R80) -/
  replayNew : Option (BitVec 12) := none
  recoverDue : Bool := false
  lastFreed : Option (BitVec 12) := none
  /-- a sequenced flit has been accepted since initialisation -/
  accepted : Bool := false
  /-- credits granted in total since initialisation, keyed 2 × class + kind, and the sequenced flits in which the host may
  still grant (R85, R89; assumption 17) -/
  granted : SMap Nat := []
  grantLeft : Nat := 256
  /-- initialisation: 0 not running, 1 sending LL_INIT, 2 waiting for a flit with LL_INIT clear (R96) -/
  initStep : Nat := 0
  initSent : Nat := 0
  gotInit : Bool := false
  /-- credits to return to the host, keyed 2 × class + kind -/
  credRet : SMap Nat := []
  /-- credits that the host holds towards the stack, by class -/
  hostHdr : SMap Nat := []
  hostData : SMap Nat := []
  txq : List TxItem := []
  /-- receive buffer by class, oldest first -/
  rx : SMap (List RxItem) := []
  /-- classes of the data-carrying headers that await data, oldest first (R78) -/
  await : List Nat := []
  /-- index in its frame of the next flit to arrive, and data UI received since the last marker (R93) -/
  rxFlit : Nat := 0
  rxUi : Nat := 0
  /-- flits of the last frame sent -/
  frame : List (BitVec 1920) := []
  /-- width change running in a direction: target step and frames of countdown left (R92); keyed by direction -/
  widthTo : SMap (Option Nat) := []
  widthCount : Nat := 0
  /-- width step of a direction that the receiver saw a countdown end for, taken at the next frame (R92) -/
  rxSwitch : Option Nat := none
  /-- frames until that switch (R92) -/
  rxCount : Nat := 0
  /-- groups that the running width change leads to, keyed by direction (R92) -/
  widthSet : SMap (List Nat) := []
  /-- powered-off groups that a widening has powered up, as 8 × direction + group (R92) -/
  wake : List Nat := []
  /-- events that the lanes raise and that are not in the event queue yet: page and lane (R44, R54) -/
  raised : List (Nat × Nat) := []
  /-- the automatic step of a direction (R91) -/
  autoStep : SMap Nat := []
  /-- slots seen in the window and those not empty, keyed by direction -/
  slotsAll : SMap Nat := []
  slotsUsed : SMap Nat := []
  /-- host width command pending in every flit -/
  hostCmd : Option Nat := none
  deriving DecidableEq, Repr

/-! ### Lines and the transaction layer -/

/-- A line: its data and its metadata byte (R185): [3:0] META, 4 POISON, 5 STACK_POISON, 6 ZEROED. -/
structure Line where
  data : LineData
  md : BitVec 8
  deriving DecidableEq, Repr

/-- A zeroed line (R138). -/
def Line.zeroed : Line := ⟨0, 0x40⟩

/-- How far a request has come: in the Bridle's hold area; released and not yet performed; waiting for lines from
DRAM; waiting as queued or running work; performed or refused, with its response not yet placed. -/
inductive Stage where
  | held | ready | reading | working | done
  deriving DecidableEq, Repr

/-- A request of the transaction layer, in arrival order. -/
structure Req where
  id : Nat
  header : Word64
  ext : Option (BitVec 384) := none
  data : List Slot := []
  stage : Stage := .ready
  status : Nat := 0
  rinfo : Nat := 0
  payload : List Slot := []
  /-- lines of a read by their place in the access, as they return -/
  lines : List (Option Line) := []
  /-- no response is sent: a link-layer initialisation came between (R96) -/
  silent : Bool := false
  /-- the work has begun (R117), so the request is performed -/
  begun : Bool := false
  /-- its header credits are not yet returned (R239) -/
  owes : Bool := false
  /-- Bridle priority, and whether the Bridle held the request (R257, R260) -/
  prio : Nat := 0
  wasHeld : Bool := false
  /-- `up` of its decode (R261) -/
  decoded : Nat := 0
  deriving DecidableEq, Repr

/-- An event in the queue: severity and the 64 bytes of its record (R126). -/
structure Event where
  nma : Bool
  kind : Nat
  ts : Word64
  page : Nat
  source : Nat
  merges : Word
  detail : BitVec 320
  deriving DecidableEq, Repr

/-- What the transaction layer holds beside XACT. -/
structure XactState where
  reqs : List Req := []
  /-- number of the next header to arrive -/
  nextId : Nat := 0
  events : List Event := []
  /-- events dropped since the last one sent (R126) -/
  lost : Word := 0
  /-- `up` + 1 at which a response or event began to wait for host credits -/
  starved : Nat := 0
  deriving DecidableEq, Repr

/-- What the Bridle holds beside BRIDLE and SIDE. -/
structure BridleState where
  /-- REG_CTL and REG_BUDGET in effect, and the remaining budget in bytes, by master (R256) -/
  ctl : SMap Word := []
  budget : SMap Word := []
  remain : SMap Int := []
  /-- BR_CTL as the running guarantee window began with it (R271); none before the first window -/
  window : Option Word := none
  winAt : Nat := 0
  /-- allowance and released bytes of each class in the window, the excess pool in bytes (R268) -/
  allow : SMap Nat := []
  sent : SMap Nat := []
  pool : Int := 0
  /-- consecutive windows that a class ended behind -/
  behindFor : SMap Nat := []
  /-- running mean latency of each class, ns (R261) -/
  mean : SMap Rat := []
  deriving DecidableEq, Repr

/-! ### Placement, the write data buffer and the cache die -/

/-- The phase of a migration (R146). -/
inductive MigPhase where
  | copy | recopy | close
  deriving DecidableEq, Repr

/-- A running migration: parcel, source and destination frame, dirty lines, passes done, whether it is an evacuation,
and the control values it started with (R146, R166). -/
structure Mig where
  parcel : Nat
  src : Nat
  dst : Nat
  evac : Bool
  phase : MigPhase
  dirty : List Nat
  passes : Nat
  recopyMax : Nat
  closeLines : Nat
  /-- CLOSE_MAX as it started, ns -/
  closeMax : Nat
  /-- lines that the running recopy pass copies -/
  pass : List Nat := []
  /-- it makes room in a die set for a keel frame (R160) -/
  keel : Bool := false
  deriving DecidableEq, Repr

/-- What the placement engine holds beside PLACE. -/
structure PlaceState where
  /-- visible capacity: 0 120 GiB, 1 116 GiB, 2 112 GiB (R129) -/
  cap : Nat := 0
  /-- the table has been laid out or restored since chip reset -/
  laid : Bool := false
  /-- remap table entries by parcel (R136); an unlisted parcel n is PLACED in frame n -/
  table : SMap Word := []
  /-- frame map codes by frame (R137); unlisted frames follow the layout of R135 -/
  frames : SMap Nat := []
  heat : SMap Nat := []
  /-- parcels placed in each bank, keyed frame mod 4,096, above those of the layout without retired frames -/
  bankDelta : SMap Int := []
  /-- heat sum of each channel at the last epoch -/
  chanHeat : SMap Nat := []
  /-- policy moves of this epoch that have not started: parcel and whether it is a thermal move; and those started -/
  moveQ : List (Nat × Bool) := []
  moved : Nat := 0
  /-- bytes of DRAM traffic in this epoch of policy moves, evacuation and the cache's background work (R145, R173, R269),
  and of evacuation out of each retiring pseudo-channel (R303) -/
  polUsed : Nat := 0
  evacUsed : Nat := 0
  bgUsed : Nat := 0
  pchUsed : SMap Nat := []
  /-- the epoch whose halving of the heat counters is done (R141) -/
  decayed : Nat := 0
  /-- migration slots -/
  mig : SMap (Option Mig) := []
  /-- frames to be zeroed, and frames being zeroed (R138) -/
  zeroQ : List Nat := []
  zeroing : List Nat := []
  evacQ : List Nat := []
  /-- parcels whose policy move aborted in this epoch (R149) -/
  noRetry : List Nat := []
  /-- keel frames still to be relocated (R160) and the frame of each mirror place, keyed 4,096 × mirror + place -/
  keelQ : List Nat := []
  keel : SMap Nat := []
  /-- places given up under R158, to be found a frame when their mirror is rebuilt -/
  keelLost : List Nat := []
  /-- resources being retired, as resource identifiers (R154) -/
  retiring : List Word := []
  /-- entries of parcels in REPAIRING as the keel area yields them (R139) -/
  repair : SMap (Option Word) := []
  /-- the journal of each mirror, newest record first, and the next JSEQ (R161) -/
  journal : SMap (List (BitVec 128)) := []
  jseq : Nat := 0
  /-- records written since the last checkpoint (R162) -/
  sinceCkpt : Nat := 0
  /-- checkpoint slots of each mirror, keyed 2 × mirror + slot: table and frame map images, and their JSEQ (R162) -/
  ckptTable : SMap (SMap Word) := []
  ckptFrames : SMap (SMap Nat) := []
  ckptSeq : SMap Nat := []
  ckptBusy : Bool := false
  /-- an orderly reset has kept the DRAM, and the last valid record is its clean mark (R163) -/
  clean : Bool := false
  /-- a deficit's grace has expired with AUTO_WDR clear (R158) -/
  expired : Bool := false
  /-- `clk.up` at the opening of the deficit and the grace it opened with, ms (R157) -/
  openedAt : Nat := 0
  grace : Nat := 0
  /-- the Bridle's shortfall and the policy registers as the epoch began with them (R166, R270) -/
  shortfall : Bool := false
  knobs : SMap Word := []
  deriving DecidableEq, Repr

/-- A line in the write data buffer (R16). -/
structure WdbEntry where
  li : Nat
  line : Line
  /-- the scan of a retiring bank has placed it: it goes on to DRAM at the background rate (R178) -/
  scan : Bool := false
  deriving DecidableEq, Repr

/-- A flush of the cache die (R180, R181): of CACHE_CTL.FLUSH, of INVALIDATE, or of a cleared ENABLE. -/
inductive FlushJob where
  | flush | invalidate | disable
  deriving DecidableEq, Repr

/-- What the cache die controller holds beside CACHE and CDIE. -/
structure CacheState where
  /-- tag entries, bits [24:0], keyed 16 × (16,384 × quadrant + set) + way: bit 25 is 0 and `tagEcc` is their ECC (R169);
  with them the sector headers in the banks, entry bits [22:0] (R170) -/
  tags : SMap (BitVec 25) := []
  hdrs : SMap (BitVec 23) := []
  /-- cached lines, keyed 4 × the key of their way + line -/
  data : SMap Line := []
  /-- banks that timed out since the last completed access (R179) -/
  timedOut : List Nat := []
  /-- background write-back runs in a quadrant (R173) -/
  bg : SMap Bool := []
  /-- sectors in order of fill, oldest first, as keys of ways, for R173 -/
  order : List Nat := []
  /-- parcels to flush because of NOCACHE (R175) -/
  flushQ : List Nat := []
  /-- sectors that PREFETCH hints asked for, as line index div 4 -/
  prefetchQ : List Nat := []
  /-- the flush that runs, and the quadrants that it has done (R180, R181) -/
  job : Option FlushJob := none
  jobDone : List Nat := []
  /-- line and bank of accesses that missed in a bank after a timeout, which allocate nothing there (R179) -/
  shun : List (Nat × Nat) := []
  /-- lines whose read asks for a fill that must wait for its DRAM reads, with the line as it was read (R171, R197, R202) -/
  fillQ : List (Nat × Option Line) := []
  deriving DecidableEq, Repr

/-! ### The channels -/

/-- A bank of a pseudo-channel (R193): its state code, open row and streak, and the clocks of its last activate, read
column command, end of write data, precharge and refresh. -/
structure BankSt where
  st : Nat := 0
  row : Nat := 0
  streak : Nat := 0
  act : Nat := 0
  rd : Nat := 0
  wrEnd : Nat := 0
  pre : Nat := 0
  ref : Nat := 0
  deriving DecidableEq, Repr

/-- A line request at a channel controller: frame, offset, the line of a write, the request and place in it of a read,
its Bridle priority, its age, and whether the row was activated for it. -/
structure DReq where
  write : Bool
  f : Nat
  o : Nat
  line : Line := Line.zeroed
  req : Nat := 0
  idx : Nat := 0
  prio : Nat := 0
  seq : Nat := 0
  acted : Bool := false
  /-- its bank held another row open (R438) -/
  conf : Bool := false
  /-- a newer write to the line has been performed since the read was issued (R189) -/
  stale : Bool := false
  /-- a patrol or SCRUB_CMD read (R220), and one that has become an ordinary request (R223) -/
  scrub : Bool := false
  late : Bool := false
  /-- a scrub read of the running SCRUB_CMD (R222) -/
  cmd : Bool := false
  deriving DecidableEq, Repr

/-- An activate: its clock and stack ID. -/
structure Act where
  at_ : Nat
  sid : Nat
  deriving DecidableEq, Repr

/-- A refresh that waits for its bank: regular, or targeted at a row's neighbours (R213, R216). -/
structure Refresh where
  bank : Nat
  due : Bool
  row : Option Nat := none
  deriving DecidableEq, Repr

/-- A pseudo-channel: its clock in channel clocks, banks, queues and what its scheduler remembers. The clock starts at
1,000, later than every timing parameter after clock 0, so a bank that has had no command is free at once. -/
structure PCh where
  now : Nat := 1000
  banks : SMap BankSt := []
  rq : List DReq := []
  wq : List DReq := []
  /-- reads whose column command is issued, oldest first, each with the line stored then -/
  flight : List DReq := []
  /-- corrected words to write back (R189) -/
  corr : List DReq := []
  /-- scrub reads that wait for a bank without requests (R223) -/
  scrub : List DReq := []
  writeMode : Bool := false
  acts : List Act := []
  /-- column commands to each stack ID in the running 1 µs interval, and its number (R324) -/
  cols : SMap Nat := []
  colAt : Nat := 0
  /-- reserved bursts of the data bus: first clock, clock after the last, write or read, stack ID (R192) -/
  bus : List (Nat × Nat × Bool × Nat) := []
  refs : List Refresh := []
  /-- refresh counter of each bank, in slots of 16 rows (R211) -/
  refCtr : SMap Nat := []
  pd : Bool := false
  /-- in power-down, the dies are awake for commands that are no requests (R200) -/
  awake : Bool := false
  /-- no command before this clock (tXP, tXS, the bus gap of R205) -/
  wake : Nat := 0
  /-- a training runs; its values that wait for the bus gap (R205), and the vias to remap with the spare (R206) -/
  training : Bool := false
  apply : Option (List (Nat × Word)) := none
  /-- words written through CAL_VAL that wait for the bus gap (R209) -/
  calVal : List (Nat × Word) := []
  /-- `up` + 1 of the last training, and the readings of the four dies' nodes at it (R205, R468) -/
  trainedAt : Nat := 0
  trainedT : List Rat := []
  deriving DecidableEq, Repr

/-- An entry of an activation tracker (R215); parity is kept good. -/
structure TrkEnt where
  row : Nat := 0
  count : Nat := 0
  valid : Bool := false
  deriving DecidableEq, Repr

/-- A bank's activation tracker. -/
structure Tracker where
  ents : List TrkEnt := List.replicate 64 {}
  spill : Nat := 0
  deriving DecidableEq, Repr

/-- A remap that runs on a channel (R206): pseudo-channel, class, logical via and the spare tried; `verified` once the
spare has passed. -/
structure Remap where
  p : Nat
  ca : Bool
  via : Nat
  spare : Nat
  verified : Bool := false
  deriving DecidableEq, Repr

/-- A row repair that runs on a channel (R207). -/
structure RowRep where
  p : Nat
  sid : Nat
  bank : Nat
  row : Nat
  deriving DecidableEq, Repr

/-- A SCRUB_CMD that runs (R222). -/
structure ScrubRun where
  first : Nat
  count : Nat
  retest : Bool
  /-- rows of the range gone, 64 to a frame -/
  next : Nat := 0
  deriving DecidableEq, Repr

/-- What the channels, their PHYs, refresh and scrub hold beside CHC, CHP, DDIE, RFM and SCRUB. -/
structure DramState where
  pch : SMap PCh := []
  /-- number of the next request to arrive at a controller -/
  seq : Nat := 0
  /-- trackers keyed 64 × pseudo-channel + bank -/
  trk : SMap Tracker := []
  /-- trained words (R400), keyed 58 × pseudo-channel + index -/
  cal : SMap Word := []
  remap : SMap (Option Remap) := []
  remapQ : List (Nat × Nat × Bool × Nat) := []
  repair : SMap (Option RowRep) := []
  /-- spare rows used, keyed 64 × pseudo-channel + bank -/
  rowsUsed : SMap Nat := []
  /-- running controller swaps: the old controller and the one that takes its channel (R202) -/
  swaps : List (Nat × Nat) := []
  /-- next row (or sector) of each patrol walker: pseudo-channels, then 64 + cache bank -/
  walk : SMap Nat := []
  /-- walkers that have finished the running pass -/
  walked : List Nat := []
  scrubRun : Option ScrubRun := none
  /-- `clk.up` at the start of the running DRAM pass -/
  passAt : Nat := 0
  /-- pseudo-channels whose dies are in self-refresh (R201, R214) -/
  selfRefresh : List Nat := []
  /-- pseudo-channels whose training came due while a commit was pending (R403) -/
  trainQ : List Nat := []
  deriving DecidableEq, Repr

/-! ### Engines -/

/-- A work descriptor (R228): the fields of D0 to D4. -/
structure Desc where
  eop : Nat
  etype : Nat
  xtype : Nat
  subop : Nat
  rmode : Nat
  noHeat : Bool
  noAlloc : Bool
  precheck : Bool
  ctag : Nat
  /-- elements, 1 to 2^28 -/
  count : Nat
  strideA : Int
  srcA : Nat
  paramB : Nat
  srcB : Nat
  strideD : Int
  dst : Nat
  imm : Nat
  deriving DecidableEq, Repr

/-- The running state of a work, which the work table keeps between chunks (R227). -/
structure Run where
  /-- lanes of SUM and DOT -/
  lanes : List Nat := []
  /-- counts: predicate matches, or histogram elements below and above; CHECKSUM's and CRC's registers -/
  cnt : Nat := 0
  cnt2 : Nat := 0
  /-- best element of MIN and MAX with its index, first NaN, first match of FIND or BCMP -/
  best : Option (Nat × Nat) := none
  nanAt : Option Nat := none
  found : Option (Nat × Nat) := none
  exc : Nat := 0
  resPoison : Bool := false
  poisonLines : Nat := 0
  skipped : Nat := 0
  /-- first fault or skip: element and byte address -/
  fault : Option (Nat × Nat) := none
  deriving DecidableEq, Repr

/-- The phase of an accepted work (R239, R240). -/
inductive WorkPhase where
  | queued | precheck | running
  deriving DecidableEq, Repr

/-- An accepted work in the work table of a quadrant (R227, R239). -/
structure Work where
  /-- arrival number of its WorkReq -/
  req : Nat
  header : Word64
  d : Desc
  quad : Nat
  engine : Option Nat
  phase : WorkPhase := .queued
  committed : Nat := 0
  run : Run := {}
  /-- the precheck has ended -/
  checked : Bool := false
  retries : Nat := 0
  /-- it resumes after a failure; it waits to be handed over by a planned move -/
  takeover : Bool := false
  moving : Bool := false
  /-- the engine whose slice has ended and to which the work goes back (R395, R396) -/
  home : Option Nat := none
  /-- quadrants whose CANCEL stops it at the next chunk boundary (4: the orderly reset) -/
  stopBy : List Nat := []
  /-- why it waits without an engine: 0 it does not, 1 a planned move, 2 a failure (R250, R307) -/
  wait : Nat := 0
  /-- line reads of the precheck or of the chunk under way that the Bridle has let pass (R259) -/
  paid : Nat := 0
  /-- every chunk is committed, or it has stopped: completion code -/
  ended : Option Nat := none
  startedAt : Nat := 0
  deriving DecidableEq, Repr

/-- An entry of a commit record (R241). -/
inductive Entry where
  /-- bytes of a line (mask and data), derived from poison or not; its elements with their byte addresses, without those that
  SKIPPED counts already (R246) -/
  | write (li : Nat) (mask data : LineData) (poison : Bool) (elems : List (Nat × Nat))
  /-- an ATOM_BATCH update, with its element unless SKIPPED counts it already (R246) -/
  | upd (addr value : Nat) (poison : Bool) (elems : List Nat)
  /-- a HISTOGRAM fetch-add: one for each of its elements -/
  | add (addr : Nat) (elems : List Nat)
  deriving DecidableEq, Repr

/-- An accepted commit record: its work, and the entries not yet applied. -/
structure CommitRec where
  req : Nat
  quad : Nat
  entries : List Entry
  deriving DecidableEq, Repr

/-- What the engines and commit units hold beside ENG and QUAD. -/
structure EngState where
  works : List Work := []
  records : List CommitRec := []
  /-- the slot whose role an engine has, 8 for the quadrant's spare (R11) -/
  slots : SMap Nat := []
  deriving DecidableEq, Repr

/-! ### Heat, power and wear -/

/-- Rainflow counter of an interface (R333); damage in reference cycles, ranges and points in °C. -/
structure Wear where
  damage : Rat := 0
  cycles : Nat := 0
  maxRange : Rat := 0
  residue : List Rat := []
  /-- the last extreme and the temperature of the last round -/
  now : Rat := 0
  /-- running direction: rising, and the extreme so far -/
  rising : Bool := true
  ext : Rat := 0
  started : Bool := false
  /-- damage at the hours of the last 168 -/
  hist : List Rat := []
  deriving DecidableEq, Repr

/-- What the thermal estimator, the Vent, the power cap and the wear counters hold beside THERM, PWR and STACK. -/
structure ThermState where
  codes : SMap Nat := []
  /-- converted temperature of each sensor, °C -/
  temps : SMap Rat := []
  sampled : Bool := false
  broken : List Nat := []
  suspect : List Nat := []
  /-- consecutive rounds: valid of a broken sensor, in disagreement, in agreement -/
  goodFor : SMap Nat := []
  offFor : SMap Nat := []
  nearFor : SMap Nat := []
  /-- model temperature of each node, °C, and its power in the last step, mW -/
  model : SMap Rat := []
  power : SMap Rat := []
  coef : SMap Word := []
  hotSteps : SMap Nat := []
  /-- thermal fraction of each layer and F_P -/
  frac : SMap Rat := []
  fp : Rat := 1
  /-- modelled power of the last step and its variable part, mW -/
  pkg : Rat := 0
  variable_ : Rat := 0
  k : Rat := 1
  /-- energy used in the running window and since reset, µJ; steps of the window gone; window in force, ms, and cap
  less guard, mW -/
  used : Rat := 0
  energy : Rat := 0
  stepsGone : Nat := 0
  window : Nat := 10
  budget : Rat := 88000
  /-- modelled energy of the round, µJ, and steps of it -/
  roundUsed : Rat := 0
  roundSteps : Nat := 0
  /-- DVFS: the point that the ceiling asks for and waits UP_HOLD_MS, and the transition that runs -/
  upWait : Bool := false
  trans : Option (Nat × Nat) := none
  retry : Bool := false
  wear : SMap Wear := []
  /-- equivalent seconds (R335), rounds since the last save, and AGE at the hours of the last 168 -/
  age : Rat := 0
  ageHist : List Rat := []
  savedSeq : Nat := 0
  /-- hour count of the health ring (R336) -/
  hours : Nat := 0
  /-- since the last hour: peak readings of base, cache and DRAM, sum of base readings and rounds, and the energy,
  throttled and cap-limited totals as it began -/
  peaks : List Rat := []
  sumBase : Rat := 0
  rounds : Nat := 0
  energyAt : Rat := 0
  throttledAt : Nat := 0
  cappedAt : Nat := 0
  /-- hourly records, keyed by hour mod 16,256 -/
  ring : SMap (BitVec 512) := []
  /-- wear records in the keel mirrors, as their bytes: copies 0 and 1 of mirror A at 0 and 1, of mirror B at 2 and 3 -/
  keelSave : SMap (List Nat) := []
  /-- the last save had a failed copy (R336) -/
  saveFailed : Bool := false
  deriving DecidableEq, Repr

/-! ### Sparing and repair -/

/-- A repair domain that recovers, with the resources declared in it, in order (R297, R298). -/
structure Recovery where
  domain : Nat
  res : List Word
  deriving DecidableEq, Repr

/-- What the sparing ladders hold beside HEALTH (R296 to R313). -/
structure SpareState where
  recs : List Recovery := []
  /-- records of completed steps that are not written yet (R310) -/
  commits : List (Word × Word) := []
  /-- the merged list of repair records (R380) -/
  merged : List (Word × Word) := []
  /-- the records of REPAIR_MFG, read at boot step 7 -/
  mfg : List (Word × Word) := []
  /-- base SRAM macros replaced, with their spare macros -/
  macros : List (Nat × Nat) := []
  /-- retired controllers whose orphaned channel's declaration waits for a retest (R306) -/
  orphanWait : List Nat := []
  /-- pseudo-channels whose lines cannot be read: no command path or no controller (R303, R306) -/
  unreadable : List Nat := []
  /-- rows that wait for their frame's evacuation before their repair or retirement -/
  rows : List Word := []
  /-- a field repair is in effect although no record is written yet -/
  repaired : Bool := false
  /-- health conditions as last shown, kept until HEALTH_FALL (R312) -/
  conds : Nat := 0
  /-- `clk.up` at which the running outage began, negative when a reset came since (R313) -/
  outage : Option Int := none
  /-- the link is down because software asked for a retrain or reset (R311, R313) -/
  planned : Bool := false
  /-- the link has not come up since a power-up or a reset that R313 does not count -/
  starting : Bool := true
  /-- quadrants whose lender now serves the orphaned channel (R306) -/
  lendTurn : List Nat := []
  /-- spare controllers whose domain is on (R23) -/
  ctrlOn : List Nat := []
  deriving DecidableEq, Repr

/-! ### OTP and security -/

/-- The programming operation that runs: words left, the first being programmed, and whether it belongs to the repair
appender (R372, R379, R381). -/
structure OtpOp where
  words : List (Nat × Word)
  append : Bool
  deriving DecidableEq, Repr

/-- What the OTP controller holds beside FUSE (R365 to R380). -/
structure OtpState where
  /-- the array: the 39 stored bits of each word, as programmed -/
  array : SMap (BitVec 39) := []
  /-- words that an aborted operation has reached after its first pulse: not blank, whatever their bits read (R372) -/
  partly : List Nat := []
  /-- values in use (R370) -/
  shadow : SMap Word := []
  marginal : List Nat := []
  failed : List Nat := []
  corrected : List Nat := []
  op : Option OtpOp := none
  /-- records that wait for the conditions, at most 64 (R379) -/
  queue : List (Word × Word) := []
  /-- `clk.up` + 1 when the queue became non-empty -/
  waitFrom : Nat := 0
  tmin : Option Rat := none
  tmax : Option Rat := none
  rereadAt : Nat := 0
  deriving DecidableEq, Repr

/-- An answer of the SPDM responder (R383); MODEL'S OWN form, the wire format is that of SPDM 1.2. -/
inductive Spdm where
  | version
  | capabilities
  | algorithms
  | digests (chain : BitVec 384)
  | certificate (bytes : List Byte)
  | challengeAuth (sig : BitVec 768)
  | measurements (blocks : List (BitVec 384)) (sig : Option (BitVec 768))
  | unspecified
  deriving DecidableEq, Repr

/-- What the SEC block and the responder hold beside SEC (R381 to R385). -/
structure SecState where
  secret : Option (BitVec 256) := none
  /-- the private keys of the key unit: DeviceID and alias (R381) -/
  devid : Option (BitVec 384) := none
  alias_ : Option (BitVec 384) := none
  /-- the KDF's last output and the signing engine's last nonce (R384) -/
  kdf : BitVec 448 := 0
  signNonce : BitVec 384 := 0
  /-- the key buffer in Gondola memory, at most 16 KiB: the alias certificate (R381, R384; DESIGN CHOICE, assumption 143) -/
  keyBuf : List Byte := []
  /-- the block's logic BIST at boot step 5 has passed (R381) -/
  bistOk : Bool := false
  /-- the last read-back of a clearing failed -/
  zeroFail : Bool := false
  /-- internal scan is enabled -/
  scan : Bool := false
  /-- digest of the KEYS slot that authenticated the image -/
  keyDigest : BitVec 384 := 0
  /-- public key of the running image -/
  pubKey : BitVec 768 := 0
  /-- third measurement block, taken at boot step 8 -/
  lockMeas : BitVec 384 := 0
  /-- words drawn from the random generator -/
  draws : Nat := 0
  /-- the answer sent last, and the requests and answers of the running exchange that a signature covers -/
  answer : Option Spdm := none
  deriving DecidableEq, Repr

/-! ### Self-test and calibration -/

/-- A BIST slice that runs (R395, R399). -/
structure Slice where
  engine : Bool
  q : Nat
  slot : Nat
  unit : Nat
  set : Nat
  /-- the repeat after a failure (R397) -/
  second : Bool
  /-- run by BIST_CMD; run for a retest of the collector -/
  cmd : Bool
  retest : Bool
  /-- the spare stands in for the unit -/
  swapped : Bool
  /-- it waits for its conditions (R396), not only for another slice -/
  deferred : Bool := false
  /-- works of an engine without a spare that come back to it after the slice (R396) -/
  lent : List Nat := []
  deriving DecidableEq, Repr

/-- What the BIST sequencer holds beside BIST (R389 to R399). -/
structure BistState where
  slice : Option Slice := none
  /-- slices that wait: deferred, or behind another (R394, R396) -/
  waiting : List Slice := []
  /-- UNIT_RESULT LAST and FAILED_ONCE, keyed 64 × class + unit; `clk.up` and timestamp of the last pass -/
  results : SMap Nat := []
  passUp : SMap Nat := []
  passTs : SMap Word64 := []
  /-- `clk.up` + 1 when R398 last retired a spare via -/
  viaOutAt : Nat := 0
  /-- failures in a row of the spare lane and spare via checks -/
  laneBad : SMap Nat := []
  viaBad : SMap Nat := []
  /-- bad and good reference rounds in a row, and ADC_REF (R398) -/
  adcBad : Nat := 0
  adcGood : Nat := 0
  adcRef : Bool := false
  /-- units whose declaration is being handled -/
  failing : List Word := []
  /-- receive groups whose spare R398 has retired -/
  loopOut : List Nat := []
  deriving DecidableEq, Repr

/-- What the calibration sequencer holds beside CAL (R400 to R403). -/
structure CalState where
  /-- staged words of the selected block, and the words of a commit that waits, with its block -/
  staged : SMap (Option Word) := []
  pend : List (Nat × Word) := []
  pendBlk : Nat := 0
  /-- blocks of channels that a commit has restored during boot step 9 (R403) -/
  restored : List Nat := []
  /-- applications and their last times by block code, without CHP -/
  counts : SMap Word := []
  times : SMap Word64 := []
  /-- ADC offset and gain, adjustment of each sensor -/
  adc : SMap Word := []
  sensor : SMap Word := []
  deriving DecidableEq, Repr

/-! ### Management -/

/-- An entry of the event log that waits to be written (R420): its kind, the event record, further bytes. -/
structure LogItem where
  kind : Nat
  ev : BitVec 512
  extra : List (Nat × Nat) := []
  urgent : Bool := false
  deriving DecidableEq, Repr

/-- A completion of the memory window: bytes of whole lines, or a poisoned line alone, or Completer Abort (R415). -/
inductive Cpl where
  | data (bytes : List Byte)
  | poisoned (bytes : List Byte)
  | abort
  deriving DecidableEq, Repr

/-- What the management port and the Gondola hold beside MGMT, PCIEM, SPI and DEV (R406 to R428). -/
structure MgmtState where
  /-- MSI-X table dwords and pending vectors (R407, R416) -/
  msix : SMap Word := []
  pend : List Nat := []
  msixEn : Bool := false
  funcMask : Bool := false
  busMaster : Bool := false
  memEn : Bool := false
  /-- base address registers -/
  bars : SMap Word := []
  /-- AER status of uncorrectable and of correctable errors (R417) -/
  aerUncorr : Word := 0
  aerCorr : Word := 0
  /-- the flash; an unlisted byte is erased and reads 0xFF -/
  flash : SMap Byte := []
  flashKiB : Nat := 0
  /-- bytes read from the flash that READ_KB has not counted yet -/
  readLeft : Nat := 0
  /-- running mailbox command by channel, and the channels whose flash commands run, in order (R422) -/
  run : SMap (Option Nat) := []
  order : List Nat := []
  /-- image 1 has passed verify since it was last written -/
  verified : Bool := false
  nonce : Option (BitVec 256) := none
  logQ : List LogItem := []
  logSeq : Nat := 0
  /-- place of the next event log entry, which the Gondola finds again in the flash (R420) -/
  logAt : Nat := 0
  /-- highest sequence number of the repair mirror, the active half and its entries used (R420) -/
  mirSeq : Nat := 0
  mirHalf : Nat := 0
  mirUsed : Nat := 0
  /-- the flash is write-enabled for the raw path -/
  wren : Bool := false
  /-- firmware version word of the running image -/
  fwVersion : Word := 0
  /-- MODEL'S OWN: what the last register read, window read or configuration read returned -/
  out : Word := 0
  cpl : List Cpl := []
  deriving DecidableEq, Repr

/-- The state of the stack. -/
structure State where
  /-- commands that wait, first in first out -/
  pending : List Instr := []
  /-- MODEL'S OWN: the number of free values taken so far; `Config.freeWord` and the like are applied to it -/
  free : Nat := 0
  /-- fault collector timestamp, ns (R277) -/
  ts : Word64 := 0
  /-- every register, keyed by BAR0 byte address; unlisted ones hold `regReset` -/
  regs : SMap Word := []
  /-- shadows of the RL pairs, keyed by the low word's address (R411) -/
  shadows : SMap Word := []
  /-- low words of writable pairs held pending, keyed by the low word's address (R411) -/
  pairLow : SMap (Option Word) := []
  clk : ClkState := {}
  fcol : FcolState := {}
  perf : PerfState := {}
  link : LinkState := {}
  xact : XactState := {}
  bridle : BridleState := {}
  place : PlaceState := {}
  /-- the write data buffer, oldest first, one entry per line -/
  wdb : List WdbEntry := []
  cache : CacheState := {}
  /-- the stored bytes of DRAM: byte i of line o of frame F at 65 × (1,024 F + o) + i, bytes 0 to 63 the data and byte
  64 the metadata byte (R185); what is not listed reads as a zeroed line -/
  dram : List Host.Cell := []
  ch : DramState := {}
  therm : ThermState := {}
  eng : EngState := {}
  spare : SpareState := {}
  otp : OtpState := {}
  sec : SecState := {}
  bist : BistState := {}
  cal : CalState := {}
  mgmt : MgmtState := {}
  deriving DecidableEq, Repr

/-- The machine right after a VAUX power-on with RESET_N and PERST_N high: boot step 1 is in progress (R361). -/
def State.reset : State := {}

end Sys2Proof.Machine
end

