-- ==== Sys2Proof/Machine/Chunk.lean ====
section
/-! DEFINITION. Work descriptors and the execution of one chunk of a work as a function of what its reads return
(R228 to R237, R240 to R246). -/

namespace Sys2Proof.Machine

/-! ### Descriptors (R102, R228) -/

/-- The descriptor in bytes 8 to 47 of an extended header, each word most significant byte first. -/
def descOf (x : BitVec 384) : Desc :=
  let d0 := (x.extractLsb' 256 64).toNat
  let d1 := (x.extractLsb' 192 64).toNat
  let d2 := (x.extractLsb' 128 64).toNat
  let d3 := (x.extractLsb' 64 64).toNat
  let d4 := (x.extractLsb' 0 64).toNat
  { eop := d0 / 2 ^ 58, etype := d0 / 2 ^ 54 % 16, xtype := d0 / 2 ^ 50 % 16, subop := d0 / 2 ^ 46 % 16,
    rmode := d0 / 2 ^ 44 % 4, noHeat := d0.testBit 43, noAlloc := d0.testBit 42, precheck := d0.testBit 41,
    ctag := d0 / 2 ^ 28 % 4096, count := d0 % 2 ^ 28 + 1,
    strideA := toSigned 27 (d1 / 2 ^ 37), srcA := d1 % 2 ^ 37, paramB := d2 / 2 ^ 37, srcB := d2 % 2 ^ 37,
    strideD := toSigned 27 (d3 / 2 ^ 37), dst := d3 % 2 ^ 37, imm := d4 }

namespace Desc

/-- Element size, size of the second type, and size of a destination element. -/
def sz (d : Desc) : Nat := etSize d.etype
def sx (d : Desc) : Nat := etSize d.xtype
def sd (d : Desc) : Nat := if d.eop = 3 ∨ d.eop = 17 then d.sx else d.sz

/-- Operations that use an operand (R230). -/
def usesA (d : Desc) : Bool := decide (d.eop ≠ 1)
def usesB (d : Desc) : Bool := [11, 12, 13, 14, 15, 24].contains d.eop
def usesIdx (d : Desc) : Bool := [6, 7, 21].contains d.eop
def usesDst (d : Desc) : Bool := decide (d.eop ≤ 7) || [12, 13, 14, 15, 16, 17, 20, 21].contains d.eop
def usesX (d : Desc) : Bool := [3, 6, 7, 17, 21].contains d.eop
def usesPred (d : Desc) : Bool := decide (15 ≤ d.eop ∧ d.eop ≤ 19)

/-- The immediate as an element. -/
def immE (d : Desc) : Nat := d.imm % 2 ^ etBits d.etype

/-- The element type is allowed for the operation. -/
def typeOk (d : Desc) : Bool :=
  if d.eop = 20 then decide (d.etype ≤ 7)
  else if d.eop = 22 then decide (d.etype = 5)
  else if d.eop = 23 ∨ d.eop = 24 then decide (d.etype = 1)
  else decide (d.etype ≤ 11)

/-- The second type is allowed where it is used: an index type, or any for CONVERT. -/
def xtypeOk (d : Desc) : Bool :=
  if d.eop = 3 then decide (d.xtype ≤ 11) else !d.usesX || decide (d.xtype = 5 ∨ d.xtype = 7)

/-- SUBOP is not reserved where it is used. -/
def subopOk (d : Desc) : Bool :=
  if d.usesPred then decide (d.subop ≤ 5 ∨ (d.subop ≤ 7 ∧ d.etype ≤ 7))
  else if d.eop = 21 then decide (d.subop ≤ 2 ∨ d.subop = 6 ∨ (d.subop ≤ 5 ∧ d.etype ≤ 7))
  else if d.eop = 23 then decide (d.subop ≤ 1)
  else true

/-- Addresses and strides that the operation uses are multiples of their element's size. -/
def alignOk (d : Desc) : Bool :=
  let dd := if d.eop = 20 then 8 else d.sd
  (!d.usesA || decide (d.srcA % d.sz = 0))
    && (!d.usesB || decide (d.srcB % d.sz = 0))
    && (!d.usesIdx || decide (d.srcB % d.sx = 0))
    && (!d.usesDst || decide (d.dst % dd = 0))
    && (d.eop != 4 || decide (d.strideA % (d.sz : Int) = 0))
    && (d.eop != 5 || decide (d.strideD % (d.sz : Int) = 0))

/-- A valid descriptor (R238). -/
def valid (d : Desc) : Bool :=
  decide (1 ≤ d.eop ∧ d.eop ≤ 24) && d.typeOk && d.xtypeOk && d.subopOk && d.alignOk

/-- The extents that are checked at decode (R238): first byte and length. -/
def extents (d : Desc) : List (Int × Nat) :=
  let n := d.count
  let a := if d.eop = 4 then
      [((d.srcA : Int), d.sz), ((d.srcA : Int) + ((n - 1 : Nat) : Int) * d.strideA, d.sz)]
    else if d.usesA && d.eop != 6 then [((d.srcA : Int), n * d.sz)] else []
  let b := if d.usesB then [((d.srcB : Int), n * d.sz)] else if d.usesIdx then [((d.srcB : Int), n * d.sx)] else []
  let w := if d.eop = 5 then
      [((d.dst : Int), d.sz), ((d.dst : Int) + ((n - 1 : Nat) : Int) * d.strideD, d.sz)]
    else if d.eop = 20 then [((d.dst : Int), 8 * (d.paramB + 1))]
    else if d.usesDst && d.eop != 7 && d.eop != 21 then [((d.dst : Int), n * d.sd)] else []
  a ++ b ++ w

/-- The contiguous ranges that work placement counts (R164): operands reached through an index are not. -/
def placed (d : Desc) : List (Nat × Nat) :=
  let n := d.count
  (if d.usesA && d.eop != 4 && d.eop != 6 then [(d.srcA, n * d.sz)] else [])
    ++ (if d.usesB then [(d.srcB, n * d.sz)] else if d.usesIdx then [(d.srcB, n * d.sx)] else [])
    ++ (if d.eop = 20 then [(d.dst, 8 * (d.paramB + 1))]
        else if d.usesDst && d.eop != 5 && d.eop != 7 && d.eop != 21 then [(d.dst, n * d.sd)] else [])

/-- Elements of a chunk (R240). -/
def chunkLen (d : Desc) : Nat :=
  if d.eop = 20 ∨ d.eop = 21 then 512
  else 4096 / max (if d.usesX then d.sx else 1) (if d.eop = 3 then max d.sz d.sx else d.sz)

/-- Chunks of the work. -/
def chunks (d : Desc) : Nat := (d.count + d.chunkLen - 1) / d.chunkLen

/-- The elements of chunk `j`. -/
def chunkElems (d : Desc) (j : Nat) : List Nat :=
  (List.range (min d.chunkLen (d.count - j * d.chunkLen))).map (j * d.chunkLen + ·)

/-- Elements committed by the first `j` chunks. -/
def doneElems (d : Desc) (j : Nat) : Nat := min d.count (j * d.chunkLen)

/-- Two extents overlap. -/
def meet (a b : Int × Nat) : Bool := decide (a.1 < b.1 + b.2 ∧ b.1 < a.1 + a.2)

/-- The written extent of a contiguous or strided destination. -/
def writeExtent (d : Desc) : List (Int × Nat) :=
  if d.eop = 5 then
    let last : Int := (d.dst : Int) + ((d.count - 1 : Nat) : Int) * d.strideD
    [(min (d.dst : Int) last, (max (d.dst : Int) last - min (d.dst : Int) last).toNat + d.sz)]
  else if d.eop = 20 then [((d.dst : Int), 8 * (d.paramB + 1))]
  else if d.usesDst && d.eop != 7 && d.eop != 21 then [((d.dst : Int), d.count * d.sd)] else []

/-- The extents that the work reads. -/
def readExtents (d : Desc) : List (Int × Nat) :=
  let n := d.count
  let a := if d.eop = 4 then
      let last : Int := (d.srcA : Int) + ((n - 1 : Nat) : Int) * d.strideA
      [(min (d.srcA : Int) last, (max (d.srcA : Int) last - min (d.srcA : Int) last).toNat + d.sz)]
    else if d.usesA && d.eop != 6 then [((d.srcA : Int), n * d.sz)] else []
  a ++ (if d.usesB then [((d.srcB : Int), n * d.sz)] else if d.usesIdx then [((d.srcB : Int), n * d.sx)] else [])

/-- A written extent overlaps one that the work reads (R244). -/
def overlaps (d : Desc) : Bool := d.writeExtent.any fun w => d.readExtents.any fun r => meet w r

/-- The running state before chunk 0. -/
def initRun (d : Desc) : Run :=
  { lanes := if d.eop = 8 ∨ d.eop = 11 then List.replicate (accLanes d.etype) 0 else [],
    cnt := if d.eop = 22 then d.imm % 2 ^ 32 else if d.eop = 23 then 2 ^ 32 - 1 - d.imm % 2 ^ 32 else 0,
    cnt2 := if d.eop = 22 then d.imm / 2 ^ 32 else 0 }

end Desc

/-! ### Reading elements (R243, R245, R246) -/

/-- A line as an engine finds it: completion code of the operand fault, 0 for none. -/
structure ELine where
  data : LineData
  poison : Bool
  fault : Nat
  deriving DecidableEq, Repr

/-- An element that was read. -/
structure EVal where
  v : Nat
  poison : Bool
  fault : Nat
  addr : Int
  deriving DecidableEq, Repr

/-- Read the element of `n` bytes at a byte address. -/
def readElem (rd : Int → ELine) (a : Int) (n : Nat) : EVal :=
  let l := rd a
  ⟨l.data.toNat / 2 ^ (8 * (a % 64).toNat) % 2 ^ (8 * n), l.poison, l.fault, a⟩

/-- What one element does: the new running state, a write (address, size, value, poison), an update of ATOM_BATCH, a
counter of HISTOGRAM, and its faults and skips (code and address). -/
structure StepOut where
  run : Run
  put : Option (Int × Nat × Nat × Bool) := none
  upd : Option (Int × Nat × Bool) := none
  add : Option Int := none
  issues : List (Nat × Int) := []
  deriving DecidableEq, Repr

def EVal.issue (x : EVal) : List (Nat × Int) := if x.fault ≠ 0 then [(x.fault, x.addr)] else []

/-- Addresses of element `i`. -/
def Desc.addrA (d : Desc) (i : Nat) : Int :=
  if d.eop = 4 then (d.srcA : Int) + (i : Int) * d.strideA else (d.srcA : Int) + ((i * d.sz : Nat) : Int)
def Desc.addrB (d : Desc) (i : Nat) : Int := (d.srcB : Int) + ((i * d.sz : Nat) : Int)
def Desc.addrX (d : Desc) (i : Nat) : Int := (d.srcB : Int) + ((i * d.sx : Nat) : Int)
def Desc.addrD (d : Desc) (i : Nat) : Int :=
  if d.eop = 5 then (d.dst : Int) + (i : Int) * d.strideD else (d.dst : Int) + ((i * d.sd : Nat) : Int)
/-- The target that an index names. -/
def Desc.target (d : Desc) (base x : Nat) : Int := (base : Int) + ((x * d.sz : Nat) : Int)

/-- Element moves: FILL, COPY, CONVERT, GATHER_S, SCATTER_S, GATHER_I and SCATTER_I. `fv` is the value of a gathered
element whose index cannot be used. -/
def moveStep (d : Desc) (rd : Int → ELine) (fv : Nat) (r : Run) (i : Nat) : StepOut :=
  if d.eop = 1 then { run := r, put := some (d.addrD i, d.sz, d.immE, false) }
  else if d.usesIdx then
    let x := readElem rd (d.addrX i) d.sx
    if x.poison || x.fault != 0 then
      { run := r, issues := [(x.fault, x.addr)],
        put := if d.eop = 6 then some (d.addrD i, d.sz, fv, true) else none }
    else if d.eop = 6 then
      let a := readElem rd (d.target d.srcA x.v) d.sz
      { run := r, put := some (d.addrD i, d.sz, a.v, a.poison), issues := a.issue }
    else
      let a := readElem rd (d.addrA i) d.sz
      { run := r, put := some (d.target d.dst x.v, d.sz, a.v, a.poison), issues := a.issue }
  else
    let a := readElem rd (d.addrA i) d.sz
    if d.eop = 3 then
      let c := convertElem d.etype d.xtype d.rmode a.v
      { run := { r with exc := r.exc ||| c.2 }, put := some (d.addrD i, d.sd, c.1, a.poison), issues := a.issue }
    else { run := r, put := some (d.addrD i, d.sd, a.v, a.poison), issues := a.issue }

/-- Element-wise arithmetic: VADD, VMUL, AXPY and SELECT. -/
def mapStep (d : Desc) (rd : Int → ELine) (r : Run) (i : Nat) : StepOut :=
  let a := readElem rd (d.addrA i) d.sz
  let b := readElem rd (d.addrB i) d.sz
  let iss := a.issue ++ b.issue
  if d.eop = 15 then
    let p := predHolds d.etype d.subop a.v d.immE
    { run := r, put := some (d.addrD i, d.sz, if p then a.v else b.v, a.poison || (!p && b.poison)), issues := iss }
  else
    let c := if d.eop = 12 then addElem d.etype d.rmode a.v b.v
      else if d.eop = 13 then mulElem d.etype d.rmode a.v b.v
      else fmaElem d.etype d.rmode d.immE a.v b.v
    { run := { r with exc := r.exc ||| c.2 }, put := some (d.addrD i, d.sz, c.1, a.poison || b.poison), issues := iss }

/-- Scalar reductions: SUM, MIN, MAX, DOT, COUNT, FIND, CHECKSUM, CRC and BCMP. -/
def reduceStep (d : Desc) (rd : Int → ELine) (r : Run) (i : Nat) : StepOut :=
  let a := readElem rd (d.addrA i) d.sz
  let two := d.usesB
  let b := readElem rd (d.addrB i) d.sz
  let r0 := { r with resPoison := r.resPoison || a.poison || (two && b.poison) }
  let iss := a.issue ++ (if two then b.issue else [])
  let r1 : Run :=
    if d.eop = 8 ∨ d.eop = 11 then
      let j := i % accLanes d.etype
      let c := if d.eop = 8 then accAdd d.etype d.rmode (r.lanes.getD j 0) a.v
        else accFma d.etype d.rmode (r.lanes.getD j 0) a.v b.v
      { r0 with lanes := r.lanes.set j c.1, exc := r.exc ||| c.2 }
    else if d.eop = 9 ∨ d.eop = 10 then
      if elemNaN d.etype a.v then { r0 with nanAt := r.nanAt.or (some i) }
      else match r.best with
        | none => { r0 with best := some (a.v, i) }
        | some (v, _) => if betterElem d.etype (decide (d.eop = 10)) a.v v then { r0 with best := some (a.v, i) } else r0
    else if d.eop = 18 then (if predHolds d.etype d.subop a.v d.immE then { r0 with cnt := r.cnt + 1 } else r0)
    else if d.eop = 19 then
      (if r.found.isNone && predHolds d.etype d.subop a.v d.immE then { r0 with found := some (i, 0) } else r0)
    else if d.eop = 22 then
      let x := (r.cnt + a.v) % (2 ^ 32 - 1)
      { r0 with cnt := x, cnt2 := (r.cnt2 + x) % (2 ^ 32 - 1) }
    else if d.eop = 23 then { r0 with cnt := crcByte d.subop r.cnt a.v }
    else if r.found.isNone && a.v != b.v then { r0 with found := some (i, a.v + 256 * b.v) }
    else r0
  { run := r1, issues := iss }

/-- FILTER, FILTER_IDX, HISTOGRAM and ATOM_BATCH. -/
def selectStep (d : Desc) (rd : Int → ELine) (r : Run) (i : Nat) : StepOut :=
  let a := readElem rd (d.addrA i) d.sz
  if d.eop = 16 ∨ d.eop = 17 then
    let r0 := { r with resPoison := r.resPoison || a.poison }
    if predHolds d.etype d.subop a.v d.immE then
      { run := { r0 with cnt := r.cnt + 1 },
        put := some (d.addrD r.cnt, d.sd, if d.eop = 16 then a.v else i, a.poison), issues := a.issue }
    else { run := r0, issues := a.issue }
  else if d.eop = 20 then
    if a.poison then { run := r, issues := [(a.fault, a.addr)] }
    else
      let b := histBin d.etype d.subop a.v d.immE
      if b < 0 then { run := { r with cnt := r.cnt + 1 } }
      else if (d.paramB : Int) < b then { run := { r with cnt2 := r.cnt2 + 1 } }
      else { run := r, add := some ((d.dst : Int) + 8 * b) }
  else
    let x := readElem rd (d.addrX i) d.sx
    if x.poison || x.fault != 0 then { run := r, issues := [(x.fault, x.addr)] }
    else { run := r, upd := some (d.target d.dst x.v, a.v, a.poison), issues := a.issue }

/-- One element of the work. -/
def elemStep (d : Desc) (rd : Int → ELine) (fv : Nat → Nat) (r : Run) (i : Nat) : StepOut :=
  if d.eop ≤ 7 then moveStep d rd (fv i) r i
  else if 12 ≤ d.eop ∧ d.eop ≤ 15 then mapStep d rd r i
  else if d.eop = 16 ∨ d.eop = 17 ∨ d.eop = 20 ∨ d.eop = 21 then selectStep d rd r i
  else reduceStep d rd r i

/-! ### Commit records (R241) -/

/-- Bits of a field of `n` bytes at byte `o` of a line. -/
def fieldMask (o n : Nat) : LineData := BitVec.ofNat 512 ((2 ^ (8 * n) - 1) * 2 ^ (8 * o))

/-- Merge a write into the entry of its line. -/
def mergeEntry (li : Nat) (m v : LineData) (p : Bool) (i : List (Nat × Nat)) : List Entry → List Entry
  | [] => [.write li m v p i]
  | .write lj m' v' p' js :: r =>
    if lj = li then .write li (m' ||| m) ((v' &&& ~~~m) ||| v) (p' || p) (js ++ i) :: r
    else .write lj m' v' p' js :: mergeEntry li m v p i r
  | e :: r => e :: mergeEntry li m v p i r

/-- Count a fetch-add of one counter of the chunk. -/
def mergeAdd (a i : Nat) : List Entry → List Entry
  | [] => [.add a [i]]
  | .add b js :: r => if b = a then .add b (js ++ [i]) :: r else .add b js :: mergeAdd a i r
  | e :: r => e :: mergeAdd a i r

/-- A chunk under construction; `abort` is the first operand fault: code, element, address. -/
structure ChunkSt where
  run : Run
  out : List Entry := []
  abort : Option (Nat × Nat × Int) := none
  deriving DecidableEq, Repr

/-- Note an element's faults and skips (R245, R246). -/
def ChunkSt.note (c : ChunkSt) (i : Nat) (iss : List (Nat × Int)) : ChunkSt :=
  match iss with
  | [] => c
  | x :: _ =>
    let ab := (iss.find? fun y => y.1 != 0).map fun y => (y.1, i, y.2)
    { c with
      run := { c.run with skipped := c.run.skipped + 1, fault := c.run.fault.or (some (i, (x.2 % (2 ^ 64 : Nat)).toNat)) }
      abort := c.abort.or ab }

/-- Take the effects of one element into the record; `wf` is the operand fault of a written address. An element whose read has
been counted as a skip is not among those that a dropped entry skips (R246). -/
def ChunkSt.take (d : Desc) (wf : Int → Nat) (c : ChunkSt) (i : Nat) (o : StepOut) : ChunkSt :=
  let bad := fun (a : Int) => if wf a ≠ 0 then [(wf a, a)] else []
  let c := { c with run := o.run }
  match o.put, o.upd, o.add with
  | some (a, n, v, p), _, _ =>
    let f := bad a
    let c := c.note i (o.issues ++ f)
    if f.isEmpty then
      let li := (a / 64).toNat
      let k := (a % 64).toNat
      let m := fieldMask k n
      let v := BitVec.ofNat 512 (v % 2 ^ (8 * n) * 2 ^ (8 * k))
      let el := if o.issues.isEmpty then [(i, a.toNat)] else []
      if d.eop = 5 ∨ d.eop = 7 then { c with out := c.out ++ [.write li m v p el] }
      else { c with out := mergeEntry li m v p el c.out }
    else c
  | none, some (a, v, p), _ =>
    let f := bad a
    let c := c.note i (o.issues ++ f)
    if f.isEmpty then { c with out := c.out ++ [.upd a.toNat v p (if o.issues.isEmpty then [i] else [])] } else c
  | none, none, some a =>
    let f := bad a
    let c := c.note i (o.issues ++ f)
    if f.isEmpty then { c with out := mergeAdd a.toNat i c.out } else c
  | none, none, none => c.note i o.issues

/-- Execute a chunk. -/
def runChunk (d : Desc) (rd : Int → ELine) (wf : Int → Nat) (fv : Nat → Nat) (r : Run) (j : Nat) : ChunkSt :=
  (d.chunkElems j).foldl (fun c i => c.take d wf i (elemStep d rd fv c.run i)) { run := r }

/-! ### Addresses (R240) -/

/-- The addresses that element `i` reads. -/
def readAddrs (d : Desc) (rd : Int → ELine) (i : Nat) : List Int :=
  let x := readElem rd (d.addrX i) d.sx
  (if d.usesIdx then [d.addrX i] else [])
    ++ (if d.eop = 6 then (if x.poison || x.fault != 0 then [] else [d.target d.srcA x.v])
        else if d.usesA then [d.addrA i] else [])
    ++ (if d.usesB then [d.addrB i] else [])

/-- The addresses that element `i` may write. -/
def writeAddrs (d : Desc) (rd : Int → ELine) (i : Nat) : List Int :=
  if d.eop = 7 ∨ d.eop = 21 then
    let x := readElem rd (d.addrX i) d.sx
    if x.poison || x.fault != 0 then [] else [d.target d.dst x.v]
  else if d.eop = 20 then
    let a := readElem rd (d.addrA i) d.sz
    let b := histBin d.etype d.subop a.v d.immE
    if a.poison || decide (b < 0 ∨ (d.paramB : Int) < b) then [] else [(d.dst : Int) + 8 * b]
  else if d.usesDst then [d.addrD i] else []

/-- The first operand fault that the precheck finds: code, element and address. -/
def precheck (d : Desc) (rd : Int → ELine) (wf : Int → Nat) : Option (Nat × Nat × Int) :=
  (List.range d.count).findSome? fun i =>
    ((readAddrs d rd i).map fun a => ((rd a).fault, i, a)) ++ ((writeAddrs d rd i).map fun a => (wf a, i, a))
      |>.find? fun x => x.1 != 0

/-! ### Results (R230, R236, R248) -/

/-- RESULT, RESULT2 and the flags that the last step raises. -/
def Desc.result (d : Desc) (r : Run) : Nat × Nat × Nat :=
  let ones := 2 ^ 64 - 1
  if d.eop = 8 ∨ d.eop = 11 then
    let x := accResult d.etype d.rmode r.lanes
    (x.1, 0, x.2)
  else if d.eop = 9 ∨ d.eop = 10 then
    match r.best with
    | some (v, i) => (extend64 d.etype v, i, 0)
    | none => (fNaN d.etype, r.nanAt.getD 0, 0)
  else if d.eop = 16 ∨ d.eop = 17 ∨ d.eop = 18 then (r.cnt, 0, 0)
  else if d.eop = 19 then ((r.found.map (·.1)).getD ones, 0, 0)
  else if d.eop = 20 then (r.cnt, r.cnt2, 0)
  else if d.eop = 22 then (r.cnt2 * 2 ^ 32 + r.cnt, 0, 0)
  else if d.eop = 23 then (2 ^ 32 - 1 - r.cnt, 0, 0)
  else if d.eop = 24 then ((r.found.map (·.1)).getD ones, (r.found.map (·.2)).getD 0, 0)
  else (0, 0, 0)

end Sys2Proof.Machine
end

