-- ==== Sys2Proof/Machine/Ops.lean ====
section
/-! DEFINITION. The named operations over registers, counters and reports that every command uses. -/

namespace Sys2Proof.Machine

/-- Insert before the first element that it may stand before. -/
def insertBy {α : Type} (le : α → α → Bool) (a : α) : List α → List α
  | [] => [a]
  | b :: l => if le a b then a :: b :: l else b :: insertBy le a l

/-- The list in the order of `le`; elements that it does not tell apart keep their order. -/
def sortBy {α : Type} (l : List α) (le : α → α → Bool) : List α := l.foldr (insertBy le) []

namespace State

/-! ### Registers -/

/-- The stored word of a register. -/
def rd (s : State) (a : Nat) : Word := SMap.get regReset s.regs a

/-- Store a register's word. -/
def wr (s : State) (a : Nat) (v : Word) : State := { s with regs := SMap.set regReset a v s.regs }

/-- A field of a register. -/
def fld (s : State) (a : Nat) (f : Fld) : Nat := f.get (s.rd a)

/-- A one-bit field of a register. -/
def on (s : State) (a : Nat) (f : Fld) : Bool := decide (s.fld a f ≠ 0)

/-- Set a field of a register. -/
def put (s : State) (a : Nat) (f : Fld) (n : Nat) : State := s.wr a (f.set n (s.rd a))

/-- Set a one-bit field of a register. -/
def flag (s : State) (a : Nat) (f : Fld) (b : Bool) : State := s.put a f b.toNat

/-- Set bit `i` of a field that is a bit map. -/
def setBit (s : State) (a : Nat) (f : Fld) (i : Nat) (b : Bool) : State :=
  let v := s.fld a f
  s.put a f (if v.testBit i = b then v else v ^^^ 2 ^ i)

/-- Bit `i` of a field that is a bit map. -/
def bit (s : State) (a : Nat) (f : Fld) (i : Nat) : Bool := (s.fld a f).testBit i

/-! ### Counters (R431: an increment is also an event of the page's performance counters) -/

/-- Add to one performance counter (R432: 48 bits, wraps). -/
def perfAdd (s : State) (k n : Nat) : State :=
  { s with perf := { s.perf with ctrs := SMap.upd (fun _ => 0) k (· + BitVec.ofNat 48 n) s.perf.ctrs } }

/-- Add to each counter of the page whose configuration meets `p` (R431, R433). -/
def perfEvent (s : State) (pg : Nat) (p : Word → Bool) (n : Nat) : State :=
  if s.on R.PERF_PERF_STAT F.PERF_PERF_STAT_FROZEN then s
  else [0, 1, 2, 3].foldl (fun t i =>
    if p (SMap.get (fun _ => 0) s.perf.cfgs (4 * pg + i)) then t.perfAdd (4 * pg + i) n else t) s

/-- The increments of the counter register at `a`, for the page counters (EVENT kind 2) and for the level sources that
watch a counter for a rise within QUIET_MS. -/
def counted (s : State) (a n : Nat) : State :=
  let t := s.perfEvent (pageOf a) (fun c => c.toNat % 1024 == 512 + offOf a / 4 && isCounter (pageOf a) (offOf a / 4)) n
  { t with fcol := { t.fcol with rose := SMap.set (fun _ => 0) a (s.clk.up + 1) t.fcol.rose } }

/-- Add to a 32-bit counter register, which wraps. -/
def inc (s : State) (a : Nat) (n : Nat := 1) : State :=
  if n = 0 then s else (s.wr a (s.rd a + BitVec.ofNat 32 n)).counted a n

/-- The 64-bit value of the pair whose low word is at `a`. -/
def rd64 (s : State) (a : Nat) : Word64 := s.rd (a + 4) ++ s.rd a

/-- Store the 64-bit value of the pair whose low word is at `a`. -/
def wr64 (s : State) (a : Nat) (v : Word64) : State :=
  (s.wr a (v.extractLsb' 0 32)).wr (a + 4) (v.extractLsb' 32 32)

/-- Add to the 64-bit counter pair whose low word is at `a`. -/
def inc64 (s : State) (a : Nat) (n : Nat := 1) : State :=
  if n = 0 then s else (s.wr64 a (s.rd64 a + BitVec.ofNat 64 n)).counted a n

/-- Add to a counter field narrower than its word, saturating. -/
def incSat (s : State) (a : Nat) (f : Fld) (n : Nat := 1) : State :=
  let m := min n (2 ^ f.width - 1 - s.fld a f)
  if m = 0 then s else (s.put a f (s.fld a f + m)).counted a m

/-! ### Free values -/

/-- A value that the manual leaves open, as a word; the next one is another. -/
def freeWord (s : State) : Word × State := (Config.freeWord s.free, { s with free := s.free + 1 })

/-! ### Reports to the fault collector -/

/-- Hand counted occurrences to the collector: occurrences of one resource that it has not taken yet go in one
delivery, with the capture and the timestamp of the first (R277). -/
def deliver (s : State) (d : Delivery) : State :=
  let rec go : List Delivery → List Delivery
    | [] => [{ d with ts := s.ts }]
    | e :: l =>
      if e.kind = d.kind ∧ e.resource = d.resource then
        { e with count := e.count + d.count, weighted := e.weighted + d.weighted } :: l
      else e :: go l
  { s with fcol := { s.fcol with deliv := go s.fcol.deliv } }

/-- A delivery of `n` occurrences with no request behind them. -/
def report (s : State) (kind : Nat) (resource : Word) (n : Nat := 1) (access : Nat := 0) (addr : Word64 := 0) : State :=
  s.deliver ⟨kind, resource, n, n, addr, access, none, none, 0, 0⟩

/-! ### Conditions of the whole stack -/

/-- The boot step in progress; 13 when the link is ready (R361). -/
def bootStep (s : State) : Nat := s.fld R.CLK_BOOT_STAT F.CLK_BOOT_STAT_STEP

/-- Drogue mode (R349). -/
def drogue (s : State) : Bool := s.on R.CLK_CLK_STAT F.CLK_CLK_STAT_DROGUE

/-- A thermal trip is latched (R326). -/
def tripped (s : State) : Bool := s.on R.THERM_THERM_STAT2 F.THERM_THERM_STAT2_TRIP_LATCHED

/-- The chip is in reset: VAUX is down, or it is held by RESET_N (R357). -/
def inReset (s : State) : Bool := !s.clk.vaux || s.clk.held

/-- The stack runs: out of reset, not in Drogue mode and with no trip latched. -/
def running (s : State) : Bool := !s.inReset && !s.drogue && !s.tripped

/-- The BARs answer: the endpoint is not held by PERST_N, is not in D3hot, and Memory Enable is set (R359, R406). That a BAR
is placed at the address of a request is what the request's arrival says (assumption 81). -/
def barOpen (s : State) : Bool :=
  s.clk.vaux && !s.clk.perstN && s.mgmt.memEn && decide (s.fld R.PCIEM_PCIE_STAT F.PCIEM_PCIE_STAT_DSTATE = 0)

/-- The base clocks run, so commands of core-domain blocks act: boot step 6 is past (R361). -/
def released (s : State) : Bool := s.running && decide (6 ≤ s.bootStep)

/-- What a block of a clock domain that stops does, while its clock runs: not before boot step 6, nor in Drogue mode, in reset
or after a trip (R326, R349, R361). -/
def clocked (s : State) (f : State → State) : State := if s.released then f s else s

end State

/-! ### Resource identifiers (R275) -/

/-- A lane: direction false receive, true transmit. -/
def resLane (tx : Bool) (g l : Nat) : Word := BitVec.ofNat 32 (1 * 2 ^ 28 + tx.toNat * 2 ^ 8 + g * 2 ^ 4 + l)
def resVia (c : Nat) (b ca : Bool) (v : Nat) : Word :=
  BitVec.ofNat 32 (2 * 2 ^ 28 + c * 2 ^ 8 + b.toNat * 2 ^ 7 + ca.toNat * 2 ^ 6 + v)
def resRow (c p sid bank row : Nat) : Word :=
  BitVec.ofNat 32 (3 * 2 ^ 28 + c * 2 ^ 22 + p * 2 ^ 21 + sid * 2 ^ 19 + bank * 2 ^ 15 + row)
def resBank (c p sid bank : Nat) : Word :=
  BitVec.ofNat 32 (4 * 2 ^ 28 + c * 2 ^ 22 + p * 2 ^ 21 + sid * 2 ^ 19 + bank * 2 ^ 15)
def resDie (d : Nat) : Word := BitVec.ofNat 32 (5 * 2 ^ 28 + d)
def resCtrl (k : Nat) : Word := BitVec.ofNat 32 (6 * 2 ^ 28 + k)
def resEng (e : Nat) : Word := BitVec.ofNat 32 (7 * 2 ^ 28 + e)
def resCbank (b : Nat) : Word := BitVec.ofNat 32 (8 * 2 ^ 28 + b)
def resCacheDie : Word := BitVec.ofNat 32 (9 * 2 ^ 28)
def resMacro (m : Nat) : Word := BitVec.ofNat 32 (10 * 2 ^ 28 + m)
def resMid (m : Nat) : Word := BitVec.ofNat 32 (11 * 2 ^ 28 + m)
def resLinkDir (tx : Bool) : Word := BitVec.ofNat 32 (12 * 2 ^ 28 + tx.toNat)
def resQuad (q : Nat) : Word := BitVec.ofNat 32 (13 * 2 ^ 28 + q)

/-- The type of a resource identifier. -/
def resType (r : Word) : Nat := r.toNat / 2 ^ 28

end Sys2Proof.Machine
end

