-- ==== Sys2Proof/Machine/Readings.lean ====
section
/-! DEFINITION. Node and die readings of the thermal estimator, the thermal fractions, and what other blocks ask of
them (R316, R320 to R323). -/

namespace Sys2Proof.Machine

/-- Dies, DRAM 0 to 15. -/
def dies : List Nat := [0, 1, 2, 3, 4, 5, 6, 7, 8, 9, 10, 11, 12, 13, 14, 15]

/-- The sensors of a node (R316). -/
def nodeSensors (i : Nat) : List Nat :=
  if 72 ≤ i ∧ i < 96 then [i - 72]
  else if 4 ≤ i ∧ i < 8 then [24 + 2 * (i - 4), 25 + 2 * (i - 4)]
  else if 8 ≤ i ∧ i < 72 then [32 + (i - 8)]
  else []

/-- The node of a sensor. -/
def sensorNode (n : Nat) : Nat := if n < 24 then 72 + n else if n < 32 then 4 + (n - 24) / 2 else 8 + (n - 32)

/-- The layer of a node: 0 base die, 1 cache die, 2 + d DRAM die d. -/
def nodeLayer (i : Nat) : Nat := if i < 72 then i / 4 else 0

/-- The nodes of a layer. -/
def layerNodes (l : Nat) : List Nat :=
  (if l = 0 then (List.range 24).map (72 + ·) else []) ++ [4 * l, 4 * l + 1, 4 * l + 2, 4 * l + 3]

/-- The largest of the values, or `d` of none. -/
def maxRat (d : Rat) : List Rat → Rat
  | [] => d
  | x :: l => l.foldl max x

namespace State

/-- Throttle start of a layer, °C (R322). -/
def ventStart (s : State) (l : Nat) : Nat :=
  if 2 ≤ l then min 95 (s.fld R.THERM_THR_DRAM F.THERM_THR_DRAM_START_C)
  else min 100 (s.fld R.THERM_THR_BASE F.THERM_THR_BASE_START_C)

/-- Throttle full of a layer, °C: above start, at most the default (R322). -/
def ventFull (s : State) (l : Nat) : Nat :=
  let f := if 2 ≤ l then min 105 (s.fld R.THERM_THR_DRAM F.THERM_THR_DRAM_FULL_C)
    else min 110 (s.fld R.THERM_THR_BASE F.THERM_THR_BASE_FULL_C)
  if f ≤ s.ventStart l then s.ventStart l + 1 else f

/-- Latched shutdown of a layer, °C (R322). -/
def ventTrip (l : Nat) : Nat := if 2 ≤ l then 110 else 115

/-- The estimator runs: MODEL_READY (R319). -/
def modelReady (s : State) : Bool := s.on R.THERM_THERM_STAT2 F.THERM_THERM_STAT2_MODEL_READY

/-- Temperature of a sensor, °C. -/
def sensorT (s : State) (n : Nat) : Rat := SMap.get (fun _ => 0) s.therm.temps n

/-- Model temperature of a node, °C. -/
def modelT (s : State) (i : Nat) : Rat := SMap.get (fun _ => 0) s.therm.model i

/-- The live sensors of a node: those not broken, once sampled (R320). -/
def liveSensors (s : State) (i : Nat) : List Nat :=
  if s.therm.sampled then (nodeSensors i).filter fun n => !s.therm.broken.contains n else []

/-- The reading of a node (R320); before MODEL_READY, sensors alone (R319). -/
def nodeReading (s : State) (i : Nat) : Rat :=
  let guard : Rat := if (nodeSensors i).any s.therm.suspect.contains
    then (s.fld R.THERM_SUSPECT_CTL F.THERM_SUSPECT_CTL_GUARD_C : Nat) else 0
  let m := if s.modelReady then [s.modelT i + guard] else []
  let b : List Rat := if (nodeSensors i).any s.therm.broken.contains then [(s.ventFull (nodeLayer i) : Nat)] else []
  maxRat 0 (m ++ (s.liveSensors i).map s.sensorT ++ b)

/-- A node has a reading: from the model, or from its sensors before MODEL_READY (R319, R320). -/
def hasReading (s : State) (i : Nat) : Bool := s.modelReady || (s.therm.sampled && !(nodeSensors i).isEmpty)

/-- The hottest reading of a layer (R320). -/
def layerReading (s : State) (l : Nat) : Rat := maxRat 0 (((layerNodes l).filter s.hasReading).map s.nodeReading)

/-- The reading of a DRAM die. -/
def dieReading (s : State) (d : Nat) : Rat := s.layerReading (2 + d)

/-- Thermal fraction of a temperature between two points (R323). -/
def ventFraction (start full : Nat) (t : Rat) : Rat :=
  if t ≤ (start : Rat) then 1
  else if (full : Rat) ≤ t then 1 / 4
  else 1 - 3 / 4 * (t - (start : Rat)) / ((full : Rat) - (start : Rat))

/-- Thermal fraction of a layer as the last step left it. -/
def layerFraction (s : State) (l : Nat) : Rat := SMap.get (fun _ => 1) s.therm.frac l

/-- Effective fraction of a layer: the lesser of its thermal fraction and F_P (R323). -/
def effFraction (s : State) (l : Nat) : Rat := min (s.layerFraction l) s.therm.fp

/-- A placement policy knob as the running epoch began with it (R166). -/
def knob (s : State) (a : Nat) (f : Fld) : Nat := f.get (SMap.get regReset s.place.knobs a)

/-- A die is warm: at or above WARM_C (R143). -/
def dieWarm (s : State) (d : Nat) : Bool := decide ((s.knob R.PLACE_THERM_CTL F.PLACE_THERM_CTL_WARM_C : Nat) ≤ s.dieReading d)

/-- A die is cool enough to receive a thermal move: below COOL_C (R143). -/
def dieCool (s : State) (d : Nat) : Bool := decide (s.dieReading d < (s.knob R.PLACE_THERM_CTL F.PLACE_THERM_CTL_COOL_C : Nat))

/-- A die is at its throttle-full point (R145). -/
def dieFull (s : State) (d : Nat) : Bool := decide ((s.ventFull (2 + d) : Nat) ≤ s.dieReading d)

/-- A die is throttled (R145). -/
def dieThrottled (s : State) (d : Nat) : Bool := decide (s.layerFraction (2 + d) < 1)

end State
end Sys2Proof.Machine
end

