-- ==== Sys2Proof/Machine/Code.lean ====
section
/-! DEFINITION. The codes of the stack: the field GF(2^8) of R71 and R186, Reed-Solomon parity and decoding, the CRCs
of R31, R72 and R368, and bytes of wide words. Symbols and bytes are naturals below 256. -/

namespace Sys2Proof.Machine

/-! ### Bytes -/

/-- The `n` bytes of a number, most significant first. -/
def bytesBE : Nat → Nat → List Nat
  | 0, _ => []
  | n + 1, v => v / 256 ^ n % 256 :: bytesBE n v

/-- The `n` bytes of a number, least significant first. -/
def bytesLE : Nat → Nat → List Nat
  | 0, _ => []
  | n + 1, v => v % 256 :: bytesLE n (v / 256)

/-- The number that bytes spell, most significant first. -/
def natBE (l : List Nat) : Nat := l.foldl (fun n b => n * 256 + b % 256) 0

/-- The number that bytes spell, least significant first. -/
def natLE : List Nat → Nat
  | [] => 0
  | b :: l => b % 256 + 256 * natLE l

/-! ### SEC-DED of a word (R169, R170, R365)

The extended Hamming code: data bit `i` stands at the `i`-th position that is no power of two, the `r` check bits at the powers
of two, and a bit over all makes the parity even. The manual names the property and not the code (DESIGN CHOICE, assumption 131):
the choice shows only in words with three or more bits in error. -/

/-- Positions of `n` data bits. -/
def hamPos (n r : Nat) : List Nat :=
  ((List.range (2 ^ r)).filter fun p => decide (3 ≤ p) && !((List.range r).any fun i => p == 2 ^ i)).take n

/-- The parity of the low `n` bits. -/
def parityOf (n v : Nat) : Bool := (List.range n).foldl (fun b i => b ^^ v.testBit i) false

/-- Check bits of `n` data bits: `r` of the Hamming code, then the parity bit. -/
def eccCheck (n r d : Nat) : Nat :=
  let h := (hamPos n r).zipIdx.foldl (fun x p => if d.testBit p.2 then x ^^^ p.1 else x) 0
  h + 2 ^ r * (parityOf n d ^^ parityOf r h).toNat

/-- What a word that has been read comes to. -/
inductive Ecc where
  | clean (d : Nat)
  | fixed (d : Nat)
  | bad
  deriving DecidableEq, Repr

/-- Correct one bit in error and detect two. -/
def eccDecode (n r d c : Nat) : Ecc :=
  let syn := (eccCheck n r d ^^^ c) % 2 ^ r
  if parityOf n d == parityOf (r + 1) c then (if syn = 0 then .clean d else .bad)
  else if syn = 0 || (List.range r).any (fun i => syn == 2 ^ i) then .fixed d
  else match (hamPos n r).idxOf? syn with
    | some i => .fixed (d ^^^ 2 ^ i)
    | none => .bad

/-! ### The field -/

/-- Multiplication by α = 0x02 modulo x^8 + x^4 + x^3 + x^2 + 1 (R71). -/
def gfDouble (a : Nat) : Nat := if a < 128 then 2 * a else (2 * a - 256) ^^^ 0x1D

/-- Product of two symbols, over the low `n` bits of `b`. -/
def gfMulN : Nat → Nat → Nat → Nat
  | 0, _, _ => 0
  | n + 1, a, b => (if b % 2 = 1 then a else 0) ^^^ gfMulN n (gfDouble a) (b / 2)

def gfMul (a b : Nat) : Nat := gfMulN 8 a b

def gfPow (a : Nat) : Nat → Nat
  | 0 => 1
  | n + 1 => gfMul a (gfPow a n)

/-- The inverse: a^254. -/
def gfInv (a : Nat) : Nat :=
  let a2 := gfMul a a
  let a4 := gfMul a2 a2
  let a8 := gfMul a4 a4
  let a16 := gfMul a8 a8
  let a32 := gfMul a16 a16
  let a64 := gfMul a32 a32
  let a128 := gfMul a64 a64
  gfMul a128 (gfMul a64 (gfMul a32 (gfMul a16 (gfMul a8 (gfMul a4 a2)))))

/-- α^n. -/
def gfAlpha (n : Nat) : Nat := gfPow 2 (n % 255)

/-! ### Polynomials, constant term first -/

def polyAdd : List Nat → List Nat → List Nat
  | [], q => q
  | p, [] => p
  | a :: p, b :: q => (a ^^^ b) :: polyAdd p q

def polyScale (c : Nat) (p : List Nat) : List Nat := p.map (gfMul c)

def polyMul : List Nat → List Nat → List Nat
  | [], _ => []
  | a :: p, q => polyAdd (polyScale a q) (0 :: polyMul p q)

def polyEval (p : List Nat) (x : Nat) : Nat := p.foldr (fun c acc => c ^^^ gfMul x acc) 0

/-- The formal derivative. -/
def polyDeriv : List Nat → List Nat
  | [] => []
  | _ :: p => (List.range p.length).map fun i => if i % 2 = 0 then p.getD i 0 else 0

/-! ### Reed-Solomon codes with roots α^0 to α^(n-1), first symbol highest in degree -/

/-- The generator polynomial, constant term first. -/
def rsGen (n : Nat) : List Nat := (List.range n).foldl (fun g i => polyMul g [gfAlpha i, 1]) [1]

/-- The parity symbols of a message, first symbol highest in degree (R71, R186). -/
def rsParity (n : Nat) (msg : List Nat) : List Nat :=
  let g := ((rsGen n).take n).reverse
  msg.foldl (fun r m =>
    let f := m ^^^ r.headD 0
    polyAdd (r.drop 1 ++ [0]) (polyScale f g)) (List.replicate n 0)

/-- The syndromes of a codeword. -/
def rsSyndromes (n : Nat) (cw : List Nat) : List Nat :=
  (List.range n).map fun i => cw.foldl (fun acc c => gfMul (gfAlpha i) acc ^^^ c) 0

/-- Berlekamp and Massey's shortest register for the syndromes: locator, previous locator, length, gap and previous
discrepancy. -/
def rsLocator (syn : List Nat) : List Nat :=
  let step := fun (st : List Nat × List Nat × Nat × Nat × Nat) (k : Nat) =>
    let (c, b, l, m, d0) := st
    let d := (List.range (l + 1)).foldl (fun acc i =>
      if i ≤ k then acc ^^^ gfMul (c.getD i 0) (syn.getD (k - i) 0) else acc) 0
    if d = 0 then (c, b, l, m + 1, d0)
    else
      let c' := polyAdd c (polyScale (gfMul d (gfInv d0)) (List.replicate m 0 ++ b))
      if 2 * l ≤ k then (c', c, k + 1 - l, 1, d) else (c', b, l, m + 1, d0)
  let c := ((List.range syn.length).foldl step ([1], [1], 0, 1, 1)).1
  -- without zero terms of high degree
  (c.reverse.dropWhile (· == 0)).reverse

/-- What a decoder finds: nothing wrong; the located errors (index from the first symbol, value to add); or failure. -/
inductive RsResult where
  | clean
  | located (errs : List (Nat × Nat))
  | failure
  deriving DecidableEq, Repr

/-- A codeword with located errors removed. -/
def rsApply (errs : List (Nat × Nat)) (cw : List Nat) : List Nat :=
  (List.range cw.length).map fun i =>
    errs.foldl (fun c e => if e.1 = i then c ^^^ e.2 else c) (cw.getD i 0)

/-- Decode a codeword with `n` parity symbols, locating at most `t` errors over all its symbols. A correction counts only when
it leaves a codeword. -/
def rsDecode (n t : Nat) (cw : List Nat) : RsResult :=
  let syn := rsSyndromes n cw
  if syn.all (· == 0) then .clean
  else
    let loc := rsLocator syn
    let deg := loc.length - 1
    if t < deg then .failure
    else
      let len := cw.length
      -- degree p is in error when α^-p is a root of the locator
      let degs := (List.range len).filter fun p => polyEval loc (gfAlpha (255 - p % 255)) == 0
      if degs.length ≠ deg then .failure
      else
        let om := (polyMul syn loc).take n
        let dl := polyDeriv loc
        let errs := degs.reverse.map fun p =>
          let xi := gfAlpha (255 - p % 255)
          (len - 1 - p, gfMul (gfAlpha p) (gfMul (polyEval om xi) (gfInv (polyEval dl xi))))
        if (rsSyndromes n (rsApply errs cw)).all (· == 0) then .located errs else .failure

/-! ### CRCs -/

/-- Run a CRC of `w` bits over bytes, each most significant bit first. -/
def crcMsb (w poly : Nat) (init : Nat) (bytes : List Nat) : Nat :=
  bytes.foldl (fun r b =>
    (List.range 8).foldl (fun r i =>
      let top := (r.testBit (w - 1)) != (b.testBit (7 - i))
      let r' := 2 * r % 2 ^ w
      if top then r' ^^^ poly else r') r) init

/-- The CRC-24 of a flit body (R72). -/
def crc24 (bytes : List Nat) : Nat := crcMsb 24 0x5D6DCB 0xFFFFFF bytes

/-- The CRC-8 of a marker (R31). -/
def crc8 (bytes : List Nat) : Nat := crcMsb 8 0x07 0xFF bytes

/-- CRC-32C (R161, R368): polynomial 0x1EDC_6F41, initial value all ones and final inversion. Bits enter and leave
least significant first, as the CRC of that name is defined (PRESUMED, assumption 12). -/
def crc32c (bytes : List Nat) : Nat :=
  bytes.foldl (fun r b =>
    (List.range 8).foldl (fun r _ => if r % 2 = 1 then (r / 2) ^^^ 0x82F63B78 else r / 2) (r ^^^ (b % 256))) 0xFFFFFFFF
    ^^^ 0xFFFFFFFF

end Sys2Proof.Machine
end

