-- ==== Sys2Proof/Machine/Storage.lean ====
section
/-! DEFINITION. The storage of lines: DRAM bytes behind frames, the check word of a stored line and its decoding, the
frame address and the metadata byte (R133, R134, R183 to R190). -/

namespace Sys2Proof.Machine

/-! ### Frame numbers (R133) -/

def fChan (f : Nat) : Nat := f % 32
def fPch (f : Nat) : Nat := f / 32 % 2
def fSid (f : Nat) : Nat := f / 64 % 4
def fBank (f : Nat) : Nat := f / 256 % 16
def fSlot (f : Nat) : Nat := f / 4096 % 512
/-- The die of a frame (R133). -/
def fDie (f : Nat) : Nat := 4 * fSid f + fChan f % 4
/-- The quadrant of a frame. -/
def fQuad (f : Nat) : Nat := fChan f / 8
/-- The row of a line of a frame (R134). -/
def fRow (f o : Nat) : Nat := 64 * fSlot f + o / 16
/-- The bank index within the pseudo-channel. -/
def fBankIx (f : Nat) : Nat := 16 * fSid f + fBank f
/-- The pseudo-channel, 2 × channel + (0 A, 1 B). -/
def fPc (f : Nat) : Nat := 2 * fChan f + fPch f

/-- Does a resource (R275) hold the frame? -/
def resHolds (r : Word) (f : Nat) : Bool :=
  let t := resType r
  let c := r.toNat / 2 ^ 22 % 32
  let p := r.toNat / 2 ^ 21 % 2
  let sid := r.toNat / 2 ^ 19 % 4
  let b := r.toNat / 2 ^ 15 % 16
  if t = 3 then decide (fChan f = c ∧ fPch f = p ∧ fSid f = sid ∧ fBank f = b ∧ fSlot f = r.toNat % 2 ^ 15 / 64)
  else if t = 4 then decide (fChan f = c ∧ fPch f = p ∧ fSid f = sid ∧ fBank f = b)
  else if t = 5 then decide (fDie f = r.toNat % 16)
  else if t = 14 then decide (fChan f = c ∧ fPch f = p)
  else if t = 15 then decide (fChan f = c)
  else false

/-- MODEL'S OWN: identifiers of a pseudo-channel and of a channel, in the two type codes that R275 reserves, used
inside the model alone to name what is being retired (R303, R304). -/
def resPch (c p : Nat) : Word := BitVec.ofNat 32 (14 * 2 ^ 28 + c * 2 ^ 22 + p * 2 ^ 21)
def resChan (c : Nat) : Word := BitVec.ofNat 32 (15 * 2 ^ 28 + c * 2 ^ 22)

/-! ### Metadata byte (R185) -/

def mdMeta (m : BitVec 8) : Nat := m.toNat % 16
def mdPoison (m : BitVec 8) : Bool := m.getLsbD 4
/-- A metadata byte: META, POISON, STACK_POISON and ZEROED. -/
def mkMd (hm : Nat) (poison stack zeroed : Bool) : BitVec 8 :=
  BitVec.ofNat 8 (hm % 16 + poison.toNat * 16 + stack.toNat * 32 + zeroed.toNat * 64)

def Line.poisoned (l : Line) : Bool := mdPoison l.md
def Line.hostMeta (l : Line) : Nat := mdMeta l.md
/-- The line as a WrReq writes it (R188). -/
def Line.written (d : LineData) (hm : Nat) (poison : Bool) : Line := ⟨d, mkMd hm poison false false⟩
/-- The line as the stack poisons it, keeping its data bytes (R188). -/
def Line.lost (d : LineData) : Line := ⟨d, mkMd 0 true true false⟩
/-- The line with data replaced by an atomic operation or an engine write: META and POISON stay, ZEROED clears
(R107, R188). -/
def Line.updated (l : Line) (d : LineData) : Line := ⟨d, l.md &&& 0xBF⟩

/-! ### Bytes of DRAM -/

/-- What a byte that nothing has written reads as: a zeroed line (R138, R188). -/
def dramDefault (k : Nat) : Byte := if k % 65 = 64 then 0x40 else 0

/-- The first byte of a line's 65. -/
def lineKey (f o : Nat) : Nat := 65 * (1024 * f + o)

/-- The bytes of a line, the metadata byte last. -/
def lineBytes (k : Nat) (l : Line) : List (Nat × Byte) :=
  ((List.range 64).map fun i => (k + i, l.data.extractLsb' (8 * i) 8)) ++ [(k + 64, l.md)]

/-- The data of 64 bytes, byte 0 lowest. -/
def dataOf (get : Nat → Byte) : Nat → Nat
  | 0 => 0
  | n + 1 => dataOf get n + (get n).toNat * 256 ^ n

namespace State

/-- One byte of DRAM. -/
def dramByte (s : State) (k : Nat) : Byte := SMap.get dramDefault s.dram k

/-- The line stored at offset `o` of frame `f`. -/
def dramRead (s : State) (f o : Nat) : Line :=
  ⟨BitVec.ofNat 512 (dataOf (fun i => s.dramByte (lineKey f o + i)) 64), s.dramByte (lineKey f o + 64)⟩

/-- Store a line at offset `o` of frame `f`. -/
def dramWrite (s : State) (f o : Nat) (l : Line) : State :=
  { s with dram := SMap.setAll dramDefault (lineBytes (lineKey f o) l) s.dram }

/-- Zero every line of a frame (R138). -/
def dramZero (s : State) (f : Nat) : State :=
  { s with dram := SMap.erase (fun k => decide (lineKey f 0 ≤ k ∧ k < lineKey (f + 1) 0)) s.dram }

/-- Copy a line between frames with its metadata and poison (R146, R188). -/
def dramCopy (s : State) (src dst o : Nat) : State := s.dramWrite dst o (s.dramRead src o)

end State

/-! ### The check word (R186, R187) -/

/-- The 65 stored message bytes of a line. -/
def messageOf (l : Line) : List Nat := bytesLE 64 l.data.toNat ++ [l.md.toNat]

/-- The 76 symbols of the codeword of a line at a 32-bit storage location. -/
def codewordAt (loc : Nat) (l : Line) : List Nat :=
  let m := bytesBE 4 loc ++ messageOf l
  m ++ rsParity 7 m

/-- The line that 65 message bytes spell. -/
def lineOfBytes (b : List Nat) : Line := ⟨BitVec.ofNat 512 (natLE (b.take 64)), BitVec.ofNat 8 (b.getD 64 0)⟩

/-- Outcome of decoding a stored word (R187). -/
inductive Decoded where
  | clean (l : Line)
  | corrected (l : Line) (bytes : List Nat)
  | address
  | uncorrectable (raw : Line)
  deriving DecidableEq, Repr

/-- Decode the 72 stored bytes of the location `loc` as the controller decodes them, correcting at most `cmax`
symbols. -/
def decodeWord (cmax loc : Nat) (stored : List Nat) : Decoded :=
  let cw := bytesBE 4 loc ++ stored
  match rsDecode 7 3 cw with
  | .clean => .clean (lineOfBytes stored)
  | .located errs =>
    if cmax < errs.length then .uncorrectable (lineOfBytes stored)
    else if errs.any fun e => e.1 < 4 then .address
    else .corrected (lineOfBytes ((rsApply errs cw).drop 4)) (errs.map fun e => e.1 - 4)
  | .failure => .uncorrectable (lineOfBytes stored)

/-- The 72 bytes that arrive when location `loc` holding `l` is read with the bit errors `flips` (byte 0 lowest). -/
def burstBytes (loc : Nat) (l : Line) (flips : BitVec 576) : List Nat :=
  let w := (codewordAt loc l).drop 4
  (List.range 72).map fun i => w.getD i 0 ^^^ (flips.extractLsb' (8 * i) 8).toNat

end Sys2Proof.Machine
end

