-- ==== Sys2Proof/Machine/Table.lean ====
section
/-! DEFINITION. The remap table and the frame map, their journal and checkpoints, the counts and the deficit, the
choice of frames, and the boot layout (R129, R132 to R138, R142, R144, R153, R156 to R163, R469). -/

namespace Sys2Proof.Machine

/-! ### Parcels and entries (R132, R136) -/

/-- Parcels at a visible capacity code. -/
def parcelCount (cap : Nat) : Nat := if cap = 1 then 1900544 else if cap = 2 then 1835008 else 1966080

/-- Slots of a bank that hold parcels at the layout without retired frames (R135). -/
def capSlots (cap : Nat) : Nat := if cap = 1 then 464 else if cap = 2 then 448 else 480

def frameTotal : Nat := 2097152

/-- The frame map code of a frame at the layout without retired frames (R135, R137). -/
def layoutCode (cap f : Nat) : Nat :=
  if 510 ≤ fSlot f then 2 else if fSlot f < capSlots cap then 1 else 0

/-- The entry of a parcel at the layout without retired frames: PLACED in its home frame. -/
def homeEntry (n : Nat) : Word := BitVec.ofNat 32 n

def eFrame (w : Word) : Nat := w.toNat % 2 ^ 21
def eState (w : Word) : Nat := w.toNat / 2 ^ 21 % 8
def ePin (w : Word) : Bool := w.getLsbD 24
def eNocache (w : Word) : Bool := w.getLsbD 25
def eElig (w : Word) : Bool := w.getLsbD 26
def eEvac (w : Word) : Bool := w.getLsbD 27

/-- An entry from its fields. -/
def mkEntry (frame st : Nat) (pin nocache elig evac : Bool) : Word :=
  BitVec.ofNat 32 (frame % 2 ^ 21 + st % 8 * 2 ^ 21 + pin.toNat * 2 ^ 24 + nocache.toNat * 2 ^ 25
    + elig.toNat * 2 ^ 26 + evac.toNat * 2 ^ 27)

/-- An entry with another frame and state, flags kept. -/
def eWith (w : Word) (frame st : Nat) : Word := mkEntry frame st (ePin w) (eNocache w) (eElig w) (eEvac w)

/-- The entry of a WITHDRAWN parcel (R469). -/
def eWithdrawn : Word := mkEntry 0 4 false false false false

/-- A parcel of this entry holds a frame. -/
def eHeld (w : Word) : Bool := decide (eState w ≤ 2)

namespace State

def cap (s : State) : Nat := s.place.cap

/-- The visible parcels. -/
def parcels (s : State) : Nat := parcelCount s.cap

/-- The entry of a parcel. -/
def entry (s : State) (n : Nat) : Word := SMap.get homeEntry s.place.table n

/-- The entry that a parcel has, or will have when its repair ends (R139). -/
def live (s : State) (n : Nat) : Word :=
  let w := s.entry n
  if eState w = 5 then (SMap.get (fun _ => none) s.place.repair n).getD w else w

/-- The parcel that occupies a frame. -/
def parcelOf (s : State) (f : Nat) : Option Nat :=
  match s.place.table.find? fun e => decide (e.1 < s.parcels ∧ eFrame (s.live e.1) = f) && eHeld (s.live e.1) with
  | some e => some e.1
  | none => if f < s.parcels ∧ (s.place.table.all fun e => decide (e.1 ≠ f)) then some f else none

/-- The frame map code of a frame: 0 FREE, 1 USED, 2 KEEL, 3 RETIRED. -/
def frameCode (s : State) (f : Nat) : Nat := SMap.get (layoutCode s.cap) s.place.frames f

/-- The heat counter of a frame (R142). -/
def frameHeat (s : State) (f : Nat) : Nat := SMap.get (fun _ => 0) s.place.heat f

def setHeat (s : State) (f h : Nat) : State :=
  { s with place := { s.place with heat := SMap.set (fun _ => 0) f h s.place.heat } }

/-- The heat of a parcel: 0 without a frame. -/
def parcelHeat (s : State) (n : Nat) : Nat := if eHeld (s.live n) then s.frameHeat (eFrame (s.live n)) else 0

/-- The frame lies on a resource being retired (R154). -/
def onRetiring (s : State) (f : Nat) : Bool := s.place.retiring.any fun r => resHolds r f

/-- The frame counts as free: FREE or being zeroed, on no resource being retired (R156). -/
def countsFree (s : State) (f : Nat) : Bool :=
  (decide (s.frameCode f = 0) || s.place.zeroQ.contains f || s.place.zeroing.contains f) && !s.onRetiring f

/-! ### Mirrors, journal and counts (R156 to R161) -/

def mirrorOk (s : State) (b : Bool) : Bool :=
  s.on R.PLACE_KEEL_STAT (if b then F.PLACE_KEEL_STAT_MIRROR_B_OK else F.PLACE_KEEL_STAT_MIRROR_A_OK)

def setMirror (s : State) (b ok : Bool) : State :=
  s.flag R.PLACE_KEEL_STAT (if b then F.PLACE_KEEL_STAT_MIRROR_B_OK else F.PLACE_KEEL_STAT_MIRROR_A_OK) ok

/-- A journal record (R161). -/
def recordOf (jseq ty parcel frame flags : Nat) : BitVec 128 :=
  let top := jseq % 2 ^ 32 * 2 ^ 64 + ty % 16 * 2 ^ 60 + parcel % 2 ^ 21 * 2 ^ 39 + frame % 2 ^ 21 * 2 ^ 18
    + flags % 256 * 2 ^ 10
  BitVec.ofNat 128 (top * 2 ^ 32 + crc32c (bytesBE 12 top))

/-- The journal of a mirror, newest record first. -/
def journalOf (s : State) (b : Bool) : List (BitVec 128) := SMap.get (fun _ => []) s.place.journal b.toNat

/-- Records of the ring, and half of it (R160, R162). -/
def ringRecords : Nat := 15663104

/-- Append a record to the journal of every valid mirror (R161). Half a ring of records since the last checkpoint starts
one (R162). -/
def journal (s : State) (ty parcel frame flags : Nat) : State :=
  let bs := [false, true].filter s.mirrorOk
  if bs.isEmpty then s
  else
    let r := recordOf s.place.jseq ty parcel frame flags
    { s with place := { s.place with
        journal := SMap.setAll (fun _ => []) (bs.map fun (b : Bool) => (b.toNat, (r :: s.journalOf b).take ringRecords)) s.place.journal
        jseq := (s.place.jseq + 1) % 2 ^ 32, clean := decide (ty = 7), sinceCkpt := s.place.sinceCkpt + 1
        ckptBusy := s.place.ckptBusy || decide (s.place.sinceCkpt + 1 = ringRecords / 2) } }.inc64 R.PLACE_JOURNAL_LO

/-- SPARE_RES in force: at least the migration slots (R166). -/
def migSlots (s : State) : Nat := min 64 (max 1 (s.fld R.PLACE_MIG_CTL2 F.PLACE_MIG_CTL2_MIG_SLOTS))
def spareRes (s : State) : Nat := max (s.fld R.PLACE_SPARE_RES F.PLACE_SPARE_RES_RESERVE) s.migSlots

/-- The deficit of R156. -/
def deficitNow (s : State) : Nat :=
  s.fld R.PLACE_EVAC_PENDING F.PLACE_EVAC_PENDING_COUNT + s.place.keelQ.length + s.spareRes
    - s.fld R.PLACE_FRAMES_FREE F.PLACE_FRAMES_FREE_COUNT

/-- Recompute the deficit; it opens above 0 and closes at 0 (R156 to R158). -/
def updDeficit (s : State) : State :=
  if !s.place.laid then s
  else
    let d := s.deficitNow
    let wasOpen := s.on R.PLACE_DEFICIT F.PLACE_DEFICIT_OPEN
    let s := s.put R.PLACE_DEFICIT F.PLACE_DEFICIT_COUNT d
    if d = 0 then
      { s with place := { s.place with expired := false } }.flag R.PLACE_DEFICIT F.PLACE_DEFICIT_OPEN false
    else if wasOpen then s
    else
      { s with place := { s.place with
          expired := false, openedAt := s.clk.up,
          grace := s.fld R.PLACE_WDR_CTL F.PLACE_WDR_CTL_GRACE_MS } }.flag R.PLACE_DEFICIT F.PLACE_DEFICIT_OPEN true

/-- Grace left of an open deficit, ms (R157, R158). -/
def deficitTimer (s : State) : Nat :=
  if s.on R.PLACE_DEFICIT F.PLACE_DEFICIT_OPEN && !s.place.expired then
    s.place.grace - (s.clk.up - s.place.openedAt) / 1000000
  else 0

/-- Move a count register by the change of a condition. -/
def tally (s : State) (a : Nat) (f : Fld) (was is : Bool) : State :=
  if was = is then s else s.put a f (if is then s.fld a f + 1 else s.fld a f - 1)

/-- Parcels placed in a bank of frames, keyed frame mod 4,096. -/
def bankParcels (s : State) (b : Nat) : Nat :=
  if s.place.laid then ((capSlots s.cap : Int) + SMap.get (fun _ => (0 : Int)) s.place.bankDelta b).toNat else 0

def bumpBank (s : State) (w : Word) (d : Int) : State :=
  if eHeld w then
    { s with place := { s.place with
        bankDelta := SMap.upd (fun _ => (0 : Int)) (eFrame w % 4096) (· + d) s.place.bankDelta } }
  else s

/-- The counts that an entry enters (R166). -/
def tallyEntry (s : State) (a b : Word) : State :=
  let s := s.tally R.PLACE_PARCELS_PLACED F.PLACE_PARCELS_PLACED_COUNT (decide (eState a ≤ 2)) (decide (eState b ≤ 2))
  let s := s.tally R.PLACE_PARCELS_RELEASED F.PLACE_PARCELS_RELEASED_COUNT (decide (eState a = 3)) (decide (eState b = 3))
  let s := s.tally R.PLACE_PARCELS_WITHDRAWN F.PLACE_PARCELS_WITHDRAWN_COUNT (decide (eState a = 4)) (decide (eState b = 4))
  let s := s.tally R.PLACE_PARCELS_PINNED F.PLACE_PARCELS_PINNED_COUNT (ePin a) (ePin b)
  let s := s.tally R.PLACE_EVAC_PENDING F.PLACE_EVAC_PENDING_COUNT (eEvac a) (eEvac b)
  (s.bumpBank a (-1)).bumpBank b 1

/-- Store an entry without a journal record. -/
def putEntry (s : State) (n : Nat) (w : Word) : State :=
  let a := s.entry n
  ({ s with place := { s.place with table := SMap.set homeEntry n w s.place.table } }.tallyEntry a w).updDeficit

/-- Change an entry, with its journal record of type `ty` (R161). -/
def setEntry (s : State) (ty n : Nat) (w : Word) : State :=
  (s.journal ty n (eFrame w) (w.toNat / 2 ^ 24 % 16)).putEntry n w

/-- Recount one frame after a change `t` of what `s` held. -/
def tallyFrame (t s : State) (f : Nat) : State :=
  let t := t.tally R.PLACE_FRAMES_FREE F.PLACE_FRAMES_FREE_COUNT (s.countsFree f) (t.countsFree f)
  (t.tally R.PLACE_FRAMES_RETIRED F.PLACE_FRAMES_RETIRED_COUNT (decide (s.frameCode f = 3))
    (decide (t.frameCode f = 3))).updDeficit

/-- The type of the journal record that restores an entry: map, release or withdraw (R161). -/
def recordType (w : Word) : Nat := if eState w = 3 then 2 else if eState w = 4 then 3 else 0

/-- Set flags of a parcel's entry, and of the entry that its repair will yield (R139). -/
def setFlags (s : State) (n : Nat) (m : Word) : State :=
  let s := { s with place := { s.place with
    repair := s.place.repair.map fun (e : Nat × Option Word) => if e.1 = n then (e.1, e.2.map (· ||| m)) else e } }
  s.setEntry 1 n (s.entry n ||| m)

/-- Set the frame map code of a frame, with its journal record, whose PARCEL field is 0 (R161; DESIGN CHOICE, assumption 117). -/
def setFrame (s : State) (f code : Nat) : State :=
  let t := s.journal 5 0 f (code % 4 * 16)
  let t := { t with place := { t.place with frames := SMap.set (layoutCode s.cap) f code t.place.frames } }
  t.tallyFrame s f

/-- Queue a frame for zeroing (R138): it stays USED and counts as free. -/
def queueZero (s : State) (f : Nat) : State :=
  let t := { s with place := { s.place with zeroQ := s.place.zeroQ ++ [f] } }
  (t.setHeat f 0).tallyFrame s f

/-- The zeroing of a frame overtakes the corrections of its words (R189). -/
def dropCorr (s : State) (f : Nat) : State :=
  let p := SMap.get (fun _ => ({} : PCh)) s.ch.pch (fPc f)
  let p := { p with corr := p.corr.filter fun r => r.f != f }
  { s with ch := { s.ch with pch := SMap.set (fun _ => ({} : PCh)) (fPc f) p s.ch.pch } }

/-- Reads of a frame still wait or are in flight, or writes of its last parcel that were issued before (R138, R148). -/
def frameBusy (s : State) (f : Nat) : Bool :=
  let p := SMap.get (fun _ => ({} : PCh)) s.ch.pch (fPc f)
  (p.rq ++ p.wq ++ p.flight).any fun r => r.f == f

/-- The zeroing of a frame ends: it becomes FREE unless its resource is being retired (R138). -/
def zeroDone (s : State) (f : Nat) : State :=
  if s.place.zeroing.contains f && !s.frameBusy f then
    let t := (s.dropCorr f).dramZero f
    let t := { t with place := { t.place with zeroing := t.place.zeroing.erase f } }
    let t := t.tallyFrame s f
    if t.onRetiring f then t else t.setFrame f 0
  else s

/-! ### Choice of frames (R144, R145, R153) -/

/-- The first element of least key. -/
def minBy (key : Nat → Rat) : List Nat → Option Nat
  | [] => none
  | a :: l => some (l.foldl (fun b x => if key x < key b then x else b) a)

/-- Keep the elements whose `part` is the chosen one: the one of least key, the lower number on ties. -/
def choose (part : Nat → Nat) (key : Nat → Rat) : List Nat → List Nat
  | [] => []
  | a :: l =>
    let f := l.foldl (fun b x => if key x < key b ∨ (key x = key b ∧ part x < part b) then x else b) a
    (a :: l).filter fun x => decide (part x = part f)

/-- All frames. -/
def allFrames : List Nat := List.range frameTotal

/-- Parcels placed on a pseudo-channel and on a channel. -/
def pchParcels (s : State) (c p : Nat) : Nat :=
  (List.range 64).foldl (fun n b => n + s.bankParcels (c + 32 * p + 64 * b)) 0
def chanParcels (s : State) (c : Nat) : Nat := s.pchParcels c 0 + s.pchParcels c 1

/-- Heat sum of a channel at the last epoch. -/
def chanHeatSum (s : State) (c : Nat) : Nat := SMap.get (fun _ => 0) s.place.chanHeat c

/-- The frame that R144 chooses among those that meet `ok`. -/
def pickFrame (s : State) (ok : Nat → Bool) : Option Nat :=
  let l := allFrames.filter ok
  let l := choose fChan (fun f => (s.chanHeatSum (fChan f) : Nat)) l
  let l := choose fDie (fun f => s.dieReading (fDie f)) l
  let l := choose fPch (fun f => (s.pchParcels (fChan f) (fPch f) : Nat)) l
  let l := choose fBank (fun f => (s.bankParcels (f % 4096) : Nat)) l
  minBy (fun f => (fSlot f : Nat)) l

/-- A FREE frame on no resource being retired. -/
def freeFrame (s : State) (f : Nat) : Bool := decide (s.frameCode f = 0) && !s.onRetiring f

/-- No throttled die while some die is throttle-full (R145). -/
def notThrottled (s : State) (f : Nat) : Bool := !(dies.any s.dieFull && s.dieThrottled (fDie f))

/-- The destination of a move (R144): thermal moves need a cool die; an evacuation may take a warm one at need. -/
def destination (s : State) (thermal evac : Bool) : Option Nat :=
  let ok := fun f => s.freeFrame f && !s.dieWarm (fDie f) && s.notThrottled f && (!thermal || s.dieCool (fDie f))
  match s.pickFrame ok with
  | some f => some f
  | none => if evac then s.pickFrame fun f => s.freeFrame f && s.notThrottled f else none

/-- FREE frames on no retiring resource. -/
def freeCount (s : State) : Nat :=
  s.fld R.PLACE_FRAMES_FREE F.PLACE_FRAMES_FREE_COUNT
    - ((s.place.zeroQ ++ s.place.zeroing).filter fun f => !s.onRetiring f).length

/-- The frame for a write to a RELEASED parcel (R153): a FREE frame above SPARE_RES, cool dies first. -/
def writeFrame (s : State) : Option Nat :=
  if s.freeCount ≤ s.spareRes then none
  else match s.pickFrame fun f => s.freeFrame f && !s.dieWarm (fDie f) && s.notThrottled f with
    | some f => some f
    | none => s.pickFrame s.freeFrame

/-- Frames being zeroed would provide a frame above SPARE_RES (R153). -/
def zeroingHelps (s : State) : Bool :=
  decide (s.spareRes < s.fld R.PLACE_FRAMES_FREE F.PLACE_FRAMES_FREE_COUNT)

/-! ### Heat (R142) -/

/-- A line access that counts: with probability 2^-HEAT_SAMPLE, the parcel's heat rises. The LFSR's sequence is not
given, so its draw is a free value (assumption 4). -/
def heatAccess (s : State) (n : Nat) : State :=
  if eHeld (s.entry n) then
    let r := s.freeWord
    let f := eFrame (s.entry n)
    if r.1.toNat % 2 ^ s.knob R.PLACE_POL_CTL F.PLACE_POL_CTL_HEAT_SAMPLE = 0 then
      r.2.setHeat f (min 255 (s.frameHeat f + 1))
    else r.2
  else s

/-! ### Keel area (R160) -/

/-- The home frame of a place of a mirror: slots 510 and 511 on the mirror's dies, in frame order. -/
def keelHome (k : Nat) : Nat :=
  let m := k / 4096 % 2
  let i := k % 4096
  let j := i % 2048
  j % 64 + (2 * m + j / 64 % 2) * 64 + j / 128 * 256 + (510 + i / 2048) * 4096

/-- The frame of a place of a mirror. -/
def keelFrame (s : State) (k : Nat) : Nat := SMap.get keelHome s.place.keel k

/-- The mirror of a frame's die set. -/
def dieSet (f : Nat) : Bool := decide (2 ≤ fSid f)

/-- Relocate one keel frame to the lowest-numbered FREE frame of its die set (R160). -/
def keelMove (s : State) (k : Nat) (f : Nat) : State :=
  let t := s.setFrame f 2
  { t with place := { t.place with
      keel := SMap.set keelHome k f t.place.keel, keelQ := t.place.keelQ.erase k } }.updDeficit

/-- A FREE frame in the die set of a keel place. -/
def keelTarget (s : State) (k : Nat) : Option Nat :=
  allFrames.find? fun f => s.freeFrame f && (dieSet f == decide (4096 ≤ k))

/-- Relocate what can be relocated at once. -/
def keelRelocate (s : State) : State :=
  let t := s.place.keelQ.foldl (fun t k => match t.keelTarget k with | none => t | some f => t.keelMove k f) s
  t.flag R.PLACE_KEEL_STAT F.PLACE_KEEL_STAT_RELOCATING
    (!t.place.keelQ.isEmpty || !t.mirrorOk false || !t.mirrorOk true)

/-! ### Retirement (R154) -/

/-- The frames of a resource. -/
def framesOf (r : Word) : List Nat := allFrames.filter (resHolds r)

/-- Declare a resource for retirement (R154): EVAC on its parcels, its keel frames queued, its free frames out of the
count; a die takes its mirror out (R162). -/
def declareRetire (s : State) (r : Word) : State :=
  if s.place.retiring.contains r then s
  else
    let fs := (framesOf r).filter fun f => !s.onRetiring f
    let free := (fs.filter s.countsFree).length
    let s := { s with place := { s.place with retiring := s.place.retiring ++ [r] } }
    let s := s.put R.PLACE_FRAMES_FREE F.PLACE_FRAMES_FREE_COUNT (s.fld R.PLACE_FRAMES_FREE F.PLACE_FRAMES_FREE_COUNT - free)
    let s := fs.foldl (fun t f => match t.parcelOf f with
      | none => t
      | some n => t.setFlags n 0x08000000) s
    let ks := (List.range 8192).filter fun k => resHolds r (s.keelFrame k)
    let s := { s with place := { s.place with keelQ := s.place.keelQ ++ ks.filter fun k => !s.place.keelQ.contains k } }
    let s := if resType r = 5 then s.setMirror (decide (8 ≤ r.toNat % 16)) false else s
    s.updDeficit.keelRelocate

/-- The last parcel and keel frame have left a resource: its frames are RETIRED (R154). -/
def retireReady (s : State) (r : Word) : Bool :=
  !(s.place.keelQ.any fun k => resHolds r (s.keelFrame k))
    && (framesOf r).all fun f => (s.parcelOf f).isNone && s.place.mig.all fun e => decide (e.2.map Mig.dst ≠ some f)

/-- Mark every frame of a resource RETIRED. -/
def retireFrames (s : State) (r : Word) : State :=
  let t := (framesOf r).foldl (fun t f => t.setFrame f 3) s
  { t with place := { t.place with
      retiring := t.place.retiring.erase r
      zeroQ := t.place.zeroQ.filter fun f => !resHolds r f
      zeroing := t.place.zeroing.filter fun f => !resHolds r f } }.updDeficit

/-! ### The boot layout (R135) -/

/-- Lay out a keel place whose frame is retired: a free spare-slot frame of the die set, else the home frame of the
highest-numbered parcel there. -/
def layKeel (s : State) (k : Nat) : State :=
  if s.frameCode (s.keelFrame k) ≠ 3 then s
  else match s.keelTarget k with
    | some f => { s with place := { s.place with
        keel := SMap.set keelHome k f s.place.keel, frames := SMap.set (layoutCode s.cap) f 2 s.place.frames } }
    | none =>
      match (List.range s.parcels).reverse.find? fun f => s.frameCode f == 1 && (dieSet f == decide (4096 ≤ k)) with
      | none => s
      | some f => { s with place := { s.place with
          keel := SMap.set keelHome k f s.place.keel, frames := SMap.set (layoutCode s.cap) f 2 s.place.frames } }

/-- The spare-slot frame that takes the place of home frame `n`: one of its own channel, otherwise the lowest. -/
def spareFor (s : State) (n : Nat) : Option Nat :=
  let spare := allFrames.filter fun f => s.frameCode f == 0
  match spare.find? fun f => fChan f == fChan n with | some f => some f | none => spare.head?

/-- Place a parcel whose home frame is retired or taken (R135 step 3). -/
def layParcel (wdr : List Word) (s : State) (n : Nat) : State :=
  if s.frameCode n = 1 then s
  else if wdr.any fun r => resHolds r n then
    { s with place := { s.place with table := SMap.set homeEntry n eWithdrawn s.place.table } }
  else
    match s.spareFor n with
    | some f => { s with place := { s.place with
        table := SMap.set homeEntry n (BitVec.ofNat 32 f) s.place.table
        frames := SMap.set (layoutCode s.cap) f 1 s.place.frames } }
    | none => { s with place := { s.place with table := SMap.set homeEntry n eWithdrawn s.place.table } }

/-- The counts of R166 from the table and the frame map. -/
def recount (s : State) : State :=
  let es := (List.range s.parcels).map s.entry
  let n := fun (p : Word → Bool) => (es.filter p).length
  let s := s.put R.PLACE_PARCELS_PLACED F.PLACE_PARCELS_PLACED_COUNT (n fun w => decide (eState w ≤ 2))
  let s := s.put R.PLACE_PARCELS_RELEASED F.PLACE_PARCELS_RELEASED_COUNT (n fun w => decide (eState w = 3))
  let s := s.put R.PLACE_PARCELS_WITHDRAWN F.PLACE_PARCELS_WITHDRAWN_COUNT (n fun w => decide (eState w = 4))
  let s := s.put R.PLACE_PARCELS_PINNED F.PLACE_PARCELS_PINNED_COUNT (n ePin)
  let s := s.put R.PLACE_EVAC_PENDING F.PLACE_EVAC_PENDING_COUNT (n eEvac)
  let delta := (es.zipIdx).foldl (fun m e =>
    let m := if e.1 = homeEntry e.2 then m else SMap.upd (fun _ => (0 : Int)) (e.2 % 4096) (· - 1) m
    if e.1 = homeEntry e.2 || !eHeld e.1 then m else SMap.upd (fun _ => (0 : Int)) (eFrame e.1 % 4096) (· + 1) m) []
  let s := { s with place := { s.place with laid := true, bankDelta := delta } }
  let s := s.put R.PLACE_FRAMES_FREE F.PLACE_FRAMES_FREE_COUNT (allFrames.filter s.countsFree).length
  (s.put R.PLACE_FRAMES_RETIRED F.PLACE_FRAMES_RETIRED_COUNT (allFrames.filter fun f => s.frameCode f == 3).length).updDeficit

/-- Fields of KEEL_STAT and VIS_LIMIT that the boot sets. -/
def layStat (s : State) (retained : Bool) : State :=
  let s := (s.flag R.PLACE_KEEL_STAT F.PLACE_KEEL_STAT_RETAINED retained).put R.PLACE_KEEL_STAT F.PLACE_KEEL_STAT_VIS_CAP s.cap
  s.put R.XACT_VIS_LIMIT F.XACT_VIS_LIMIT_LIMIT (1024 * s.parcels)

/-- TABLE_LAYOUT: lay the table out for the retired resources of the repair records, every line zero (R135, R163). -/
def tableLayout (s : State) (gone wdr : List Word) : State :=
  let fs := (allFrames.filter fun f => gone.any fun r => resHolds r f)
  let s := { s with
    dram := []
    place := { s.place with
      table := [], heat := [], mig := [], zeroQ := [], zeroing := [], evacQ := [], keelQ := [], keel := [], keelLost := [],
      retiring := [], journal := [], jseq := 0, sinceCkpt := 0, ckptTable := [], ckptFrames := [], ckptSeq := [], clean := false, repair := [],
      frames := SMap.setAll (layoutCode s.cap) (fs.map fun f => (f, 3)) [] } }
  let s := (s.setMirror false true).setMirror true true
  let s := (List.range 8192).foldl layKeel s
  ((List.range s.parcels).foldl (layParcel wdr) s).recount.layStat false

/-! ### Checkpoints and restore (R162, R163) -/

/-- JSEQ of the checkpoint in a slot: of the newer of its two copies. -/
def slotSeq (s : State) (slot : Nat) : Nat :=
  max (SMap.get (fun _ => 0) s.place.ckptSeq slot) (SMap.get (fun _ => 0) s.place.ckptSeq (2 + slot))

/-- A checkpoint completes: the table and the frame map go to the older slot of every valid mirror, and a checkpoint
record names it in its PARCEL field (R161, R162; DESIGN CHOICE, assumption 117). -/
def checkpoint (s : State) : State :=
  let slot := if s.slotSeq 0 ≤ s.slotSeq 1 then 0 else 1
  let ks := ([false, true].filter s.mirrorOk).map fun (b : Bool) => 2 * b.toNat + slot
  let s := { s with place := { s.place with
    ckptTable := SMap.setAll (fun _ => []) (ks.map fun k => (k, s.place.table)) s.place.ckptTable
    ckptFrames := SMap.setAll (fun _ => []) (ks.map fun k => (k, s.place.frames)) s.place.ckptFrames
    ckptSeq := SMap.setAll (fun _ => 0) (ks.map fun k => (k, s.place.jseq + 1)) s.place.ckptSeq
    ckptBusy := false, sinceCkpt := 0 } }
  let s := (s.journal 6 slot 0 0).inc R.PLACE_CKPTS
  { s with place := { s.place with sinceCkpt := 0 } }

/-- A mirror is rebuilt in full from the other (R162). -/
def copyMirror (s : State) (b : Bool) : State :=
  let at_ := fun (c : Bool) (i : Nat) => 2 * c.toNat + i
  { s with
      place := { s.place with
        journal := SMap.set (fun _ => []) b.toNat (s.journalOf (!b)) s.place.journal
        ckptTable := SMap.setAll (fun _ => []) ([0, 1].map fun i =>
          (at_ b i, SMap.get (fun _ => []) s.place.ckptTable (at_ (!b) i))) s.place.ckptTable
        ckptFrames := SMap.setAll (fun _ => []) ([0, 1].map fun i =>
          (at_ b i, SMap.get (fun _ => []) s.place.ckptFrames (at_ (!b) i))) s.place.ckptFrames
        ckptSeq := SMap.setAll (fun _ => 0) ([0, 1].map fun i =>
          (at_ b i, SMap.get (fun _ => 0) s.place.ckptSeq (at_ (!b) i))) s.place.ckptSeq }
      therm := { s.therm with keelSave := SMap.setAll (fun _ => []) ([0, 1].map fun i =>
          (at_ b i, SMap.get (fun _ => []) s.therm.keelSave (at_ (!b) i))) s.therm.keelSave } }

/-- The last record of a mirror's journal is the clean mark that ended the last orderly reset (R163). -/
def mirrorClean (s : State) (b : Bool) : Bool :=
  match (s.journalOf b).head? with
  | none => false
  | some r => decide (r.toNat / 2 ^ 92 % 16 = 7 ∧ (r.toNat / 2 ^ 96 + 1) % 2 ^ 32 = s.place.jseq)

/-- TABLE_RESTORE: the table as the checkpoint and the journal give it, which is the table that the orderly reset left.
A mirror whose journal ends in the clean mark is valid. A USED frame that no entry names is zeroed in service (R163). -/
def tableRestore (s : State) : State :=
  let zq := allFrames.filter fun f => s.frameCode f == 1 && (s.parcelOf f).isNone
  let s := { s with place := { s.place with mig := [], zeroQ := zq, zeroing := [], clean := false } }
  (s.recount.layStat true).flag R.PLACE_KEEL_STAT F.PLACE_KEEL_STAT_RELOCATING (!(s.mirrorOk false && s.mirrorOk true))

end State
end Sys2Proof.Machine
end

