-- ==== Sys2Proof/Machine/Lines.lean ====
section
/-! DEFINITION. Where a line's newest data is: the write data buffer, the write queue of its channel controller, and
its frame; and the ways in which the stack stores a line (R16, R106, R140, R147, R188, R197). -/

namespace Sys2Proof.Machine

/-- The parcel of a line (R132). -/
def liParcel (li : Nat) : Nat := li / 1024
/-- The offset of a line in its parcel. -/
def liOff (li : Nat) : Nat := li % 1024

/-- Does a request name this storage location? -/
def DReq.at_ (r : DReq) (f o : Nat) : Bool := decide (r.f = f ∧ r.o = o)

namespace State

/-! ### Pseudo-channels -/

def pch (s : State) (i : Nat) : PCh := SMap.get (fun _ => ({} : PCh)) s.ch.pch i
def setPch (s : State) (i : Nat) (p : PCh) : State :=
  { s with ch := { s.ch with pch := SMap.set (fun _ => ({} : PCh)) i p s.ch.pch } }

/-- The newest queued write to a storage location. -/
def queuedWrite (s : State) (f o : Nat) : Option DReq :=
  ((s.pch (fPc f)).wq.filter fun r => DReq.at_ r f o).getLast?

/-- The line at a storage location as a read that arrives now finds it (R197). -/
def frameLine (s : State) (f o : Nat) : Line :=
  match s.queuedWrite f o with | some r => r.line | none => s.dramRead f o

/-! ### Migrations that watch a frame -/

/-- The running migration of a parcel: its slot. -/
def migOf (s : State) (n : Nat) : Option (Nat × Mig) :=
  match s.place.mig.find? fun e => decide (e.2.map Mig.parcel = some n) with
  | some (k, some m) => some (k, m)
  | _ => none

def setMig (s : State) (k : Nat) (m : Option Mig) : State :=
  let s := { s with place := { s.place with mig := SMap.set (fun _ => none) k m s.place.mig } }
  s.put R.PLACE_MIG_ACTIVE F.PLACE_MIG_ACTIVE_SLOTS s.place.mig.length

/-- A write reaches a frame: the line is marked dirty when the frame is the source of a migration (R147, R199). -/
def markDirty (s : State) (f o : Nat) : State :=
  match s.place.mig.find? fun e => decide (e.2.map Mig.src = some f) with
  | some (k, some m) => if m.dirty.contains o then s else s.setMig k (some { m with dirty := o :: m.dirty })
  | _ => s

/-! ### The write data buffer -/

/-- The write data buffer's copy of a line. -/
def wdbLine (s : State) (li : Nat) : Option Line := (s.wdb.find? fun e => decide (e.li = li)).map WdbEntry.line

/-- Put a line into the write data buffer, over an older copy (R16). -/
def wdbPut (s : State) (li : Nat) (l : Line) : State :=
  if s.wdb.any fun e => decide (e.li = li) then
    { s with wdb := s.wdb.map fun e => if e.li = li then { e with line := l, scan := false } else e }
  else { s with wdb := s.wdb ++ [{ li := li, line := l }] }

/-- The scan of a bank puts a line into the buffer unless it holds a newer one (R178). -/
def wdbScan (s : State) (li : Nat) (l : Line) : State :=
  if (s.wdbLine li).isSome then s else { s with wdb := s.wdb ++ [{ li := li, line := l, scan := true }] }

/-- The buffer's copy of a line came from the scan of a bank. -/
def wdbScanned (s : State) (li : Nat) : Bool := s.wdb.any fun e => decide (e.li = li) && e.scan

/-- Put a line into the write data buffer unless it holds a newer one. -/
def wdbKeep (s : State) (li : Nat) (l : Line) : State := if (s.wdbLine li).isSome then s else s.wdbPut li l

/-- Bytes of the 6 MiB of write data buffers in use: lines, and the data of requests in the receive space (R16, R87,
R254). What else an entry takes the manual does not say (assumption 102). -/
def bufferUsed (s : State) : Nat :=
  64 * s.wdb.length + 16 * (s.xact.reqs.foldl (fun n r => n + (if r.stage = .done then 0 else r.data.length)) 0)

/-- The write data buffer has room for more bytes. -/
def bufferRoom (s : State) (n : Nat) : Bool := decide (s.bufferUsed + n ≤ 6 * 2 ^ 20)

/-- Discard a parcel's lines from the write data buffer. -/
def wdbDrop (s : State) (n : Nat) : State := { s with wdb := s.wdb.filter fun e => decide (liParcel e.li ≠ n) }

/-- Lines of a parcel in the write data buffer. -/
def wdbCount (s : State) (n : Nat) : Nat := (s.wdb.filter fun e => decide (liParcel e.li = n)).length

/-- Count a line that the stack poisons because its contents are lost (R106); `addr` is the capture's ADDR. -/
def poisonNew (s : State) (addr access : Nat) : State :=
  (s.inc R.XACT_POISON_NEW).report 6 0 1 access (BitVec.ofNat 64 addr)

/-! ### Repair records (R310, R378) -/

/-- A step of this action on the resource is recorded, or completed and not yet written. -/
def recorded (s : State) (r : Word) (action : Nat) : Bool :=
  (s.spare.mfg ++ s.spare.merged ++ s.spare.commits).any fun e => e.1 == r && decide (e.2.toNat / 2 ^ 28 = action)

/-- A step of the ladder completes: its record waits to be written (R310, R378). -/
def recordStep (s : State) (r : Word) (action arg : Nat) : State :=
  let open_ := s.fld R.PLACE_DEFICIT F.PLACE_DEFICIT_COUNT
  { s with spare := { s.spare with
      repaired := true
      commits := s.spare.commits ++ [(r, BitVec.ofNat 32 (action % 16 * 2 ^ 28 + (if open_ = 0 then 0 else 2 ^ 27)
        + arg % 16 * 2 ^ 20 + s.therm.hours % 2 ^ 20))] } }

end State
end Sys2Proof.Machine
end

