-- ==== Sys2Proof/Machine/Words.lean ====
section
/-! DEFINITION. Words of DRAM at their controllers: which controller serves a channel, the order of accesses to one line,
the decoding of a read word with its re-read and its counts, and the stack's own reads and writes of lines (R186 to R190,
R197, R198, R202). -/

namespace Sys2Proof.Machine
namespace State

/-! ### Controllers and channels (R11, R306) -/

/-- The controller that serves a channel. -/
def ctrlOf (s : State) (c : Nat) : Option Nat :=
  let q := c / 8
  let ks := (List.range 9).map (9 * q + ·)
  match ks.find? fun k => s.on (R.CHC_CHAN_MAP k) F.CHC_CHAN_MAP_ACTIVE
      && decide (s.fld (R.CHC_CHAN_MAP k) F.CHC_CHAN_MAP_CHANNEL = c) with
  | some k => some k
  | none =>
    if s.on (R.HEALTH_LEND q) F.HEALTH_LEND_ACTIVE && decide (s.fld (R.HEALTH_LEND q) F.HEALTH_LEND_ORPHAN = c) then
      some (s.fld (R.HEALTH_LEND q) F.HEALTH_LEND_LENDER)
    else none

/-- The page of the controller that serves a channel, or of its slot when none does. -/
def ctrlPage (s : State) (c : Nat) : Nat := (s.ctrlOf c).getD (9 * (c / 8) + c % 8)


/-- A swap holds new requests to the channel of a frame: the channel of the old controller, or the orphaned one that it had
(R202, R306). -/
def chanHeld (s : State) (f : Nat) : Bool :=
  s.ch.swaps.any fun x => decide (s.fld (R.CHC_CHAN_MAP x.1) F.CHC_CHAN_MAP_CHANNEL = fChan f)

/-- SWAPPING of both controllers of a swap. -/
def swapFlags (s : State) (x : Nat × Nat) (b : Bool) : State :=
  (s.flag (R.CHC_CHAN_MAP x.1) F.CHC_CHAN_MAP_SWAPPING b).flag (R.CHC_CHAN_MAP x.2) F.CHC_CHAN_MAP_SWAPPING b

/-- Swaps of a controller that have not taken effect are cancelled (R298). -/
def swapCancel (s : State) (k : Nat) : State :=
  let l := s.ch.swaps.filter fun x => x.1 == k || x.2 == k
  l.foldl (fun t x => t.swapFlags x false) { s with ch := { s.ch with swaps := s.ch.swaps.filter fun x => !l.contains x } }

/-- A row repair holds the bank of a frame (R207). -/
def bankHeld (s : State) (f : Nat) : Bool :=
  (SMap.get (fun _ => none) s.ch.repair (fChan f)).any fun (r : RowRep) =>
    decide (r.p = fPch f ∧ r.sid = fSid f ∧ r.bank = fBank f)

/-- Accesses of the stack itself to a frame are held, by a swap or a row repair (R202, R207). -/
def frameHeld (s : State) (f : Nat) : Bool := s.chanHeld f || s.bankHeld f

/-- A read of a storage location has arrived at its controller and has no verdict yet: what arrives later waits (R197). -/
def lineBusy (s : State) (f o : Nat) : Bool :=
  let p := s.pch (fPc f)
  (p.rq ++ p.flight).any fun r => DReq.at_ r f o

/-- A frame whose lines cannot be read: its pseudo-channel has no command path or no controller, or its die is absent
(R155, R303, R305, R306). -/
def unreadable (s : State) (f : Nat) : Bool :=
  s.spare.unreadable.contains (fPc f) || (decide (9 < s.bootStep) && !s.on (R.DDIE_DIE_STAT (fDie f)) F.DDIE_DIE_STAT_PRESENT)

/-- Count the free spares of a via class of a pseudo-channel into PHY_STAT. -/
def spareField (pc : Nat) (ca : Bool) : Fld :=
  if ca then (if pc % 2 = 0 then F.CHP_PHY_STAT_CA_SPARES_A else F.CHP_PHY_STAT_CA_SPARES_B)
  else (if pc % 2 = 0 then F.CHP_PHY_STAT_DQ_SPARES_A else F.CHP_PHY_STAT_DQ_SPARES_B)

/-- The via that a spare replaces; 0xFF none. -/
def spareUse (s : State) (pc : Nat) (ca : Bool) (i : Nat) : Nat :=
  let a := if ca then R.CHP_CA_REMAP (pc / 2) (pc % 2) else R.CHP_TSV_REMAP (pc / 2) (pc % 2)
  s.fld a ⟨8 * i, 8⟩

def setSpareUse (s : State) (pc : Nat) (ca : Bool) (i v : Nat) : State :=
  let a := if ca then R.CHP_CA_REMAP (pc / 2) (pc % 2) else R.CHP_TSV_REMAP (pc / 2) (pc % 2)
  s.put a ⟨8 * i, 8⟩ v

/-- Spares of a class. -/
def spareNums (ca : Bool) : List Nat := if ca then [0, 1] else [0, 1, 2, 3]

/-- The physical via that carries a logical via (R275). -/
def physVia (s : State) (pc : Nat) (ca : Bool) (t : Nat) : Nat :=
  match (spareNums ca).find? fun i => s.spareUse pc ca i == t with
  | some i => (if ca then 14 else 36) + i
  | none => t


/-! ### Writes, and the order of accesses to one line (R189, R197) -/

/-- Room in the queues of the pseudo-channel of a frame, to which no swap holds requests (R194, R202). -/
def readRoom (s : State) (f n : Nat) : Bool := decide ((s.pch (fPc f)).rq.length + n ≤ 64) && !s.chanHeld f
def writeRoom (s : State) (f : Nat) : Bool := decide ((s.pch (fPc f)).wq.length < 64) && !s.chanHeld f

/-- A write arrives at a controller. -/
def sendWrite (s : State) (f o : Nat) (l : Line) : State :=
  let p := s.pch (fPc f)
  let r : DReq := { write := true, f := f, o := o, line := l, seq := s.ch.seq }
  let s := s.setPch (fPc f) { p with wq := p.wq ++ [r] }
  { s with ch := { s.ch with seq := s.ch.seq + 1 } }

/-- A newer write to the line of an issued read is queued or performed (R189). -/
def superseded (s : State) (r : DReq) : Bool :=
  r.stale || (s.pch (fPc r.f)).wq.any fun x => DReq.at_ x r.f r.o

/-- A word is written: corrections of its line are dropped, and reads of it in flight are older than it (R189, R199). -/
def putWord (s : State) (f o : Nat) (l : Line) : State :=
  let p := s.pch (fPc f)
  let s := s.setPch (fPc f) { p with
    corr := p.corr.filter fun r => !DReq.at_ r f o
    flight := p.flight.map fun r => if DReq.at_ r f o then { r with stale := true } else r }
  ((s.dramWrite f o l).markDirty f o).inc64 (R.CHC_WRITES_LO (s.ctrlPage (fChan f)))

/-- Perform a queued request: a write stores its line; a read takes the line with it into flight. -/
def performQueued (s : State) (r : DReq) : State :=
  let p := s.pch (fPc r.f)
  if r.write then (s.setPch (fPc r.f) { p with wq := p.wq.erase r }).putWord r.f r.o r.line
  else (s.setPch (fPc r.f) { p with
      rq := p.rq.erase r, flight := p.flight ++ [{ r with line := s.dramRead r.f r.o }] }).inc64
    (R.CHC_READS_LO (s.ctrlPage (fChan r.f)))

/-- Perform the queued requests that `which` accepts, in order of arrival. -/
def performAll (s : State) (pc : Nat) (which : DReq → Bool) : State :=
  (sortBy (((s.pch pc).rq ++ (s.pch pc).wq).filter which) fun a b => decide (a.seq ≤ b.seq)).foldl performQueued s

/-- An access of the stack itself writes a line at its controller, after the requests to the line that arrived before it
(R197). -/
def storeFrame (s : State) (f o : Nat) (l : Line) : State :=
  (s.performAll (fPc f) fun r => DReq.at_ r f o).putWord f o l

/-- Store a line in its parcel's frame as a write-back does: held in the buffer during Close (R140); nothing without a
frame. -/
def storeLine (s : State) (li : Nat) (l : Line) : State :=
  let w := s.live (liParcel li)
  if eState w = 2 then s.wdbKeep li l
  else if eHeld w then s.storeFrame (eFrame w) (liOff li) l
  else s

/-- The poison write of a lost word enters the write queue at the verdict (R197). A full queue leaves it no place, so it
is then performed at once, ahead of the reads that came after the lost one (assumption 101). -/
def poisonWrite (s : State) (f o : Nat) (l : Line) : State :=
  if (s.pch (fPc f)).wq.length < 64 then s.sendWrite f o l else s.putWord f o l

/-- The bytes that arrive for a location: its own word, or that of the location that answered. -/
def burst (s : State) (f o : Nat) (l : Line) (b : BurstIn) : List Nat :=
  match b.other with
  | none => burstBytes (1024 * f + o) l b.flips
  | some p => burstBytes (1024 * p.1.toNat + p.2.toNat) (s.dramRead p.1.toNat p.2.toNat) b.flips

/-- What a read of a word comes to after the re-read of R187. -/
structure ReadOut where
  line : Line
  bytes : List Nat := []
  addrErr : Bool := false
  retryOk : Bool := false
  lost : Bool := false
  deriving DecidableEq, Repr

/-- The word is handled as Uncorrectable. -/
def lostOut (addr : Bool) (raw : Line) : ReadOut := { line := raw, addrErr := addr, lost := true }

/-- Decode a read of a word and its re-read (R187). -/
def decodeRead (cmax : Nat) (retry : Bool) (loc : Nat) (first again : List Nat) : ReadOut :=
  match decodeWord cmax loc first with
  | .clean l => { line := l }
  | .corrected l b => { line := l, bytes := b }
  | .address =>
    if !retry then lostOut true (lineOfBytes first)
    else match decodeWord cmax loc again with
      | .clean l => { line := l, addrErr := true }
      | .corrected l b => { line := l, bytes := b, addrErr := true }
      | _ => lostOut true (lineOfBytes again)
  | .uncorrectable raw =>
    if !retry then lostOut false raw
    else match decodeWord cmax loc again with
      | .clean l => { line := l, retryOk := true }
      | .corrected l b => { line := l, bytes := b, retryOk := true }
      | _ => lostOut false (lineOfBytes again)

/-- Count the corrected bytes against their vias (R190). -/
def countVias (s : State) (pc : Nat) (bytes : List Nat) (d : Delivery) : State :=
  bytes.foldl (fun u j =>
    let t := j / 2
    let a := if pc % 2 = 0 then R.CHP_TSV_CORR_A (pc / 2) t else R.CHP_TSV_CORR_B (pc / 2) t
    (u.incSat a F.CHP_TSV_CORR_A_COUNT).deliver
      { d with kind := 10, resource := resVia (pc / 2) (decide (pc % 2 = 1)) false (u.physVia pc false t) }) s

/-- A delivery for an outcome at a storage location. -/
def outcomeOf (f o access code : Nat) (addr : Word64) : Delivery :=
  ⟨7, resRow (fChan f) (fPch f) (fSid f) (fBank f) (fRow f o), 1, 1, addr, access, none, none, code, 0⟩

/-- Queue the write-back of a corrected word (R189), unless the pseudo-channel is retiring (R303). -/
def queueCorrection (s : State) (f o : Nat) (l : Line) : State :=
  let p := s.pch (fPc f)
  if s.place.retiring.any fun r => decide (resType r = 14 ∨ resType r = 15) && resHolds r f then s
  else s.setPch (fPc f) { p with
    corr := (p.corr.filter fun r => !DReq.at_ r f o) ++ [{ write := true, f := f, o := o, line := l }] }

/-- Count the outcome of a read word in the controller, the die and the collector (R187, R190, R210, R289). -/
def countOutcome (s : State) (f o : Nat) (out : ReadOut) (d : Delivery) : State :=
  let k := s.ctrlPage (fChan f)
  let die := fDie f
  let s := if out.addrErr then
      ((s.inc (R.CHC_ECC_ADDR k)).incSat (R.DDIE_ADDR_ERR die) F.DDIE_ADDR_ERR_COUNT).deliver
        { d with kind := 9, resource := resBank (fChan f) (fPch f) (fSid f) (fBank f), outcome := 2 }
    else s
  let s := if out.retryOk then s.inc (R.CHC_ECC_RETRY_OK k) else s
  let s := if out.bytes.isEmpty then s
    else
      let w := if (s.pch (fPc f)).corr.any fun r => DReq.at_ r f o then 0 else 1
      ((((s.inc (R.CHC_ECC_CORR k)).incSat (R.DDIE_CORR die) F.DDIE_CORR_COUNT).deliver
        { d with kind := 7, weighted := w, outcome := 1 }).countVias (fPc f) out.bytes d)
  if out.lost then
    ((s.inc (R.CHC_ECC_UNCORR k)).incSat (R.DDIE_UNCORR die) F.DDIE_UNCORR_COUNT).deliver { d with kind := 8, outcome := 3 }
  else s

/-! ### Periodic training (R205, R403, R468) -/

/-- A pseudo-channel is retired. -/
def pchRetired (s : State) (pc : Nat) : Bool :=
  s.on (R.CHP_PHY_STAT (pc / 2)) (if pc % 2 = 0 then F.CHP_PHY_STAT_RETIRED_A else F.CHP_PHY_STAT_RETIRED_B)

def syncTraining (s : State) (c : Nat) : State :=
  s.flag (R.CHP_PHY_STAT c) F.CHP_PHY_STAT_TRAINING ((s.pch (2 * c)).training || (s.pch (2 * c + 1)).training)

/-- A commit waits on the channel's calibration block (R403). -/
def calPending (s : State) (code : Nat) : Bool :=
  s.on R.CAL_CAL_STAT F.CAL_CAL_STAT_PENDING && decide (s.cal.pendBlk = code)

/-- Start a periodic training of a pseudo-channel (R205); one that comes due while a commit to the channel's block is
pending waits until the commit has applied (R403). -/
def trainStart (s : State) (c p : Nat) : State :=
  if s.released && s.clk.dramInit && !s.on (R.CHP_PHY_CTL c) F.CHP_PHY_CTL_TRAIN_FREEZE && !s.pchRetired (2 * c + p) then
    if s.calPending (0x10 + c) then
      if s.ch.trainQ.contains (2 * c + p) then s
      else { s with ch := { s.ch with trainQ := s.ch.trainQ ++ [2 * c + p] } }
    else (s.setPch (2 * c + p) { s.pch (2 * c + p) with training := true }).syncTraining c
  else s

/-- The readings of the estimator nodes of a pseudo-channel's four dies (R205, R316). -/
def dieNodes (s : State) (pc : Nat) : List Rat :=
  [0, 1, 2, 3].map fun i => s.nodeReading (4 * (2 + (4 * i + pc / 2 % 4)) + pc / 16)

/-- A die's node has moved by RETRAIN_DT since the last training (R205). -/
def tempDue (s : State) (pc : Nat) : Bool :=
  let dt : Rat := (max 1 (s.fld (R.CHP_PHY_CTL (pc / 2)) F.CHP_PHY_CTL_RETRAIN_DT) : Nat)
  let old := (s.pch pc).trainedT
  !old.isEmpty && ((s.dieNodes pc).zip old).any fun x => decide (dt ≤ x.1 - x.2 ∨ dt ≤ x.2 - x.1)

/-- The readings have changed: the trainings that temperature calls for start (R205, R320). -/
def tempTrain (s : State) : State :=
  s.ch.pch.foldl (fun t e =>
    if e.1 < 64 && !e.2.training && t.on (R.CHP_PHY_CTL (e.1 / 2)) F.CHP_PHY_CTL_PERIODIC_EN && t.tempDue e.1 then
      t.trainStart (e.1 / 2) (e.1 % 2) else t) s

/-- An address error starts a training of the pseudo-channel unless one has completed within 10 ms (R468). -/
def addrTraining (s : State) (pc : Nat) : State :=
  let p := s.pch pc
  if p.training || (decide (p.trainedAt ≠ 0) && decide (s.clk.up < p.trainedAt + 10000000)) then s
  else s.trainStart (pc / 2) (pc % 2)

/-- CORR_MAX and RETRY_EN of the controller that serves a frame. -/
def corrMax (s : State) (f : Nat) : Nat := max 1 (s.fld (R.CHC_ECC_CTL (s.ctrlPage (fChan f))) F.CHC_ECC_CTL_CORR_MAX)
def retryEn (s : State) (f : Nat) : Bool := s.on (R.CHC_ECC_CTL (s.ctrlPage (fChan f))) F.CHC_ECC_CTL_RETRY_EN


/-- The word is read a second time (R187). -/
def ReadOut.reread (out : ReadOut) (retry : Bool) : Bool := retry && (out.addrErr || out.retryOk || out.lost)

/-- ADDR of an access to line `li` at a storage location: the line for one that names it, else the location (R283). -/
def capAddr (li f o access : Nat) : Nat := if access ≤ 5 then li else 1024 * f + o

/-- Read a word of DRAM for the stack itself: the word that stands there, unless the command says what the read met, or no
command reaches it; its outcome counts as that of any word read (R187, R208, R210, R303). `addr` is the capture's ADDR. -/
def readWord (s : State) (m : LookupIn) (f o access : Nat) (addr : Nat := 1024 * f + o) : ReadOut × State :=
  let l := s.dramRead f o
  let k := s.ctrlPage (fChan f)
  if s.unreadable f then
    let out := lostOut false l
    (out, s.countOutcome f o out (outcomeOf f o access 3 (BitVec.ofNat 64 addr)))
  else match m.words.find? fun e => decide (e.1.toNat = f ∧ e.2.1.toNat = o) with
  | none => ({ line := l }, s.inc64 (R.CHC_READS_LO k))
  | some e =>
    let out := decodeRead (s.corrMax f) (s.retryEn f) (1024 * f + o) (s.burst f o l e.2.2.1) (s.burst f o l e.2.2.2)
    let s := s.inc64 (R.CHC_READS_LO k) (if out.reread (s.retryEn f) then 2 else 1)
    let s := s.countOutcome f o out (outcomeOf f o access 0 (BitVec.ofNat 64 addr))
    (out, if out.addrErr then s.addrTraining (fPc f) else s)

/-- Read a line of a frame for the stack itself (R106, R187, R189, R197): from a queued write, or from DRAM, with the poison
write or the write-back that its outcome asks for. -/
def fetchFrame (s : State) (m : LookupIn) (f o li access : Nat) : Line × State :=
  match s.queuedWrite f o with
  | some w => (w.line, s.inc (R.CHC_FWD_READS (s.ctrlPage (fChan f))))
  | none =>
    let a := s.readWord m f o access (capAddr li f o access)
    if a.1.lost then
      (Line.lost a.1.line.data, (a.2.poisonWrite f o (Line.lost a.1.line.data)).poisonNew (capAddr li f o access) access)
    else (a.1.line, if a.1.bytes.isEmpty then a.2 else a.2.queueCorrection f o a.1.line)

/-- The line as its frame holds it; a released parcel reads zero. -/
def homeLine (s : State) (li : Nat) : Line :=
  let w := s.live (liParcel li)
  if eHeld w then s.frameLine (eFrame w) (liOff li) else Line.zeroed

/-- Read a line that is not valid on the cache die from its parcel's frame; a parcel without one reads zero. -/
def fetchHome (s : State) (m : LookupIn) (li access : Nat) : Line × State :=
  let w := s.live (liParcel li)
  if eHeld w then s.fetchFrame m (eFrame w) (liOff li) li access else (Line.zeroed, s)

end State
end Sys2Proof.Machine
end

