-- ==== Sys2Proof/Machine/Cache.lean ====
section
/-! DEFINITION. The cache die: tags, look-up, allocation, write-back, flushes, bank retirement and the loss of the die
(R167 to R182). -/

namespace Sys2Proof.Machine

/-! ### Sets, tags and ways (R167 to R169) -/

/-- The set of a line index. -/
def cSet (li : Nat) : Nat := (li / 4 % 16384) ^^^ (li / 65536 % 16384)
/-- The tag of a line index. -/
def cTag (li : Nat) : Nat := li / 65536 % 32768
/-- The key of a way. -/
def wayKey (q set way : Nat) : Nat := 16 * (16384 * q + set) + way
/-- The line index of line `i` of the sector with this tag in this set. -/
def sectorLine (set tag i : Nat) : Nat := tag * 65536 + ((set ^^^ (tag % 16384)) * 4 + i)

def tTag (t : BitVec 25) : Nat := t.toNat % 32768
def tValid (t : BitVec 25) : Nat := t.toNat / 2 ^ 15 % 16
def tDirty (t : BitVec 25) : Nat := t.toNat / 2 ^ 19 % 16
def tAge (t : BitVec 25) : Nat := t.toNat / 2 ^ 23
def mkTag (tag valid dirty age : Nat) : BitVec 25 :=
  BitVec.ofNat 25 (tag % 32768 + valid % 16 * 2 ^ 15 + dirty % 16 * 2 ^ 19 + age % 4 * 2 ^ 23)

/-- The bits set in a four-bit mask. -/
def popcount4 (n : Nat) : Nat := (n.testBit 0).toNat + (n.testBit 1).toNat + (n.testBit 2).toNat + (n.testBit 3).toNat

/-- The four lines of a sector. -/
def lines4 : List Nat := [0, 1, 2, 3]

/-- The ways of a set. -/
def ways : List Nat := [0, 1, 2, 3, 4, 5, 6, 7, 8, 9, 10, 11, 12, 13, 14, 15]

/-- The cache bank of a way of a quadrant (R167). -/
def wayBank (q w : Nat) : Nat := 4 * q + w / 4

/-- Bank, quadrant and set of a way's key. -/
def keyQuad (k : Nat) : Nat := k / 262144
def keySet (k : Nat) : Nat := k / 16 % 16384
def keyBank (k : Nat) : Nat := wayBank (keyQuad k) (k % 16)

/-- The storage location of a line of a way, whose four bytes are the address symbols of its check word (R186). -/
def cacheLoc (k i : Nat) : Nat := keyBank k * 2 ^ 18 + keySet k * 2 ^ 4 + k % 4 * 4 + i
/-- The ECC field of a tag entry, and the code of a sector header (R169, R170). -/
def tagEcc (t : BitVec 25) : Nat := eccCheck 25 5 t.toNat
def hdrEcc (h : BitVec 23) : Nat := eccCheck 23 5 h.toNat

/-- The word of a line on the cache die with bits in error, decoded (R176, R187): up to three bytes are corrected, as CORR_MAX starts
with at a controller, and no word is read again, for the cache die has neither CORR_MAX nor RETRY_EN (DESIGN CHOICE, assumption
133). -/
def decodeBank (k i : Nat) (l : Line) (flips : BitVec 576) : Decoded :=
  decodeWord 3 (cacheLoc k i) (burstBytes (cacheLoc k i) l flips)
/-- Its stored line as it comes. -/
def rawBank (k i : Nat) (l : Line) (flips : BitVec 576) : Line := lineOfBytes (burstBytes (cacheLoc k i) l flips)

namespace State

/-! ### State of banks and of the die -/

def bankState (s : State) (b : Nat) : Nat := s.fld (R.CDIE_BANK_STAT b) F.CDIE_BANK_STAT_STATE
def bankActive (s : State) (b : Nat) : Bool := decide (s.bankState b = 0)
def cacheOn (s : State) : Bool := s.on R.CACHE_CACHE_STAT F.CACHE_CACHE_STAT_ENABLED
def quadHasBank (s : State) (q : Nat) : Bool := lines4.any fun i => s.bankActive (4 * q + i)

/-- The tag entry of a way. -/
def tag (s : State) (k : Nat) : BitVec 25 := SMap.get (fun _ => 0) s.cache.tags k

/-- The line held in a way. -/
def cacheData (s : State) (k i : Nat) : Line := SMap.get (fun _ => Line.zeroed) s.cache.data (4 * k + i)

/-- Store a tag entry and its sector header (R170); DIRTY_LINES follows, and a way without valid lines leaves the order of
fills. -/
def setTag (s : State) (k : Nat) (t : BitVec 25) : State :=
  let old := s.tag k
  let a := R.CACHE_DIRTY_LINES (keyQuad k)
  let n := s.fld a F.CACHE_DIRTY_LINES_COUNT + popcount4 (tDirty t) - popcount4 (tDirty old)
  let s := if tDirty t = tDirty old then s else s.put a F.CACHE_DIRTY_LINES_COUNT n
  let ord := if tValid t = 0 then s.cache.order.filter (· ≠ k)
    else if tValid old = 0 then s.cache.order ++ [k] else s.cache.order
  { s with cache := { s.cache with
      tags := SMap.set (fun _ => 0) k t s.cache.tags
      hdrs := SMap.set (fun _ => 0) k (t.extractLsb' 0 23) s.cache.hdrs, order := ord } }

def setData (s : State) (k i : Nat) (l : Line) : State :=
  { s with cache := { s.cache with data := SMap.set (fun _ => Line.zeroed) (4 * k + i) l s.cache.data } }

/-- The ways that hold a sector's line's tag with any valid line, in banks that still serve hits (R178). -/
def sectorWay (s : State) (q li : Nat) : Option Nat :=
  ways.find? fun w =>
    let t := s.tag (wayKey q (cSet li) w)
    decide (tValid t ≠ 0 ∧ tTag t = cTag li ∧ s.bankState (wayBank q w) ≤ 1)

/-- The key of the way in which a line is valid. -/
def hitWay (s : State) (q li : Nat) : Option Nat :=
  match s.sectorWay q li with
  | none => none
  | some w => let k := wayKey q (cSet li) w
              if (tValid (s.tag k)).testBit (li % 4) then some k else none

/-- The quadrant in which a line is searched (R168). -/
def liQuad (s : State) (li : Nat) : Nat := fQuad (eFrame (s.live (liParcel li)))

/-- The way of a line that is valid on the cache die, by the parcel's frame. -/
def cached (s : State) (li : Nat) : Option Nat :=
  if eHeld (s.live (liParcel li)) then s.hitWay (s.liQuad li) li else none

/-- The parcel moves between quadrants, so nothing is allocated for it (R177). -/
def crossMove (s : State) (n : Nat) : Bool :=
  match s.migOf n with | none => false | some (_, m) => decide (fQuad m.src ≠ fQuad m.dst)

/-- A flush that ends in the disabling of the cache runs, so nothing is allocated (R180). -/
def disabling (s : State) : Bool := decide (s.cache.job = some .disable)

/-- A line is eligible for allocation, apart from NO_ALLOC (R171). -/
def eligible (s : State) (li : Nat) : Bool :=
  let w := s.live (liParcel li)
  s.cacheOn && !s.disabling && eElig w && !eNocache w && eHeld w && s.quadHasBank (s.liQuad li)
    && !s.crossMove (liParcel li)

/-! ### Tag errors (R170, R181) -/

/-- The sector header of a way (R170). -/
def tagHdr (s : State) (k : Nat) : BitVec 23 := SMap.get (fun _ => 0) s.cache.hdrs k

/-- A tag entry as a look-up reads it with bits in error (R169). -/
def readTag (s : State) (k : Nat) (e : TagErr) : Ecc :=
  eccDecode 25 5 (s.tag k ^^^ e.entry.extractLsb' 0 25).toNat (tagEcc (s.tag k) ^^^ (e.entry.extractLsb' 26 6).toNat)

/-- A sector header as it is read with bits in error (R170). -/
def readHdr (s : State) (k : Nat) (e : TagErr) : Ecc :=
  eccDecode 23 5 (s.tagHdr k ^^^ e.header.extractLsb' 0 23).toNat (hdrEcc (s.tagHdr k) ^^^ (e.header.extractLsb' 23 6).toNat)

/-- A tag entry is rebuilt from its sector header with AGE 3. -/
def rebuildTag (s : State) (k h : Nat) : State := (s.setTag k (BitVec.ofNat 25 (h + 3 * 2 ^ 23))).inc R.CACHE_TAG_REBUILT

/-- A tag entry that a look-up reads with bits in error: as it decodes, corrected, or uncorrectable; then rebuilt from its sector
header, or, when that does not read either, its way invalidated and the loss reported with quadrant, set and way. -/
def repairTag (s : State) (q set w : Nat) (e : TagErr) : State :=
  let k := wayKey q set w
  match s.readTag k e with
  | .clean d => if d = (s.tag k).toNat then s else s.setTag k (BitVec.ofNat 25 d)
  | .fixed d => (s.setTag k (BitVec.ofNat 25 d)).inc R.CACHE_TAG_CORR
  | .bad => match s.readHdr k e with
    | .clean h => s.rebuildTag k h
    | .fixed h => s.rebuildTag k h
    | .bad => ((s.setTag k 0).inc R.CACHE_TAG_LOST).report 14 (resQuad q) 1 8

/-- The entries of the sets that `looked` accepts are read and checked (R170). -/
def checkTags (s : State) (m : LookupIn) (looked : Nat → Nat → Bool) : State :=
  if s.cacheOn then
    (m.tags.filter fun e => looked e.1.val e.2.1.toNat).foldl (fun u e =>
      u.repairTag e.1.val e.2.1.toNat e.2.2.1.val e.2.2.2) s
  else s

/-- Count the line look-ups that miss (R181). -/
def countMisses (s : State) (lis : List Nat) : State :=
  s.inc64 R.CACHE_MISSES_LO (lis.filter fun li => eHeld (s.live (liParcel li)) && (s.cached li).isNone).length

/-- The tag look-ups of these lines (R15, R170). -/
def tagLookups (s : State) (m : LookupIn) (lis : List Nat) : State :=
  s.checkTags m fun q set => lis.any fun li =>
    eHeld (s.live (liParcel li)) && s.liQuad li == q && cSet li == set

/-! ### Errors of cached lines (R176, R179, R186) -/

/-- An access to a bank completes, which ends a period of R179. -/
def bankAnswers (s : State) : State := { s with cache := { s.cache with timedOut := [] } }

/-- ADDR of an access to a line of a way: the line for one that names it, 0 for the bank's own (R283). -/
def bankAddr (s : State) (k i access : Nat) : Word64 :=
  if access ≤ 5 then BitVec.ofNat 64 (sectorLine (keySet k) (tTag (s.tag k)) i) else 0

/-- Count a corrected line of a bank; its correction weight follows R289: the repair in the bank is done at once. -/
def bankCorrected (s : State) (k i access : Nat) : State :=
  ((s.inc R.CACHE_DATA_CORR).incSat (R.CDIE_BANK_CORR (keyBank k)) F.CDIE_BANK_CORR_COUNT).report 11
    (resCbank (keyBank k)) 1 access (s.bankAddr k i access)

/-- Mark a line of a way invalid. -/
def dropLine (s : State) (k i : Nat) : State :=
  let t := s.tag k
  s.setTag k (mkTag (tTag t) (tValid t &&& (15 - 2 ^ i)) (tDirty t &&& (15 - 2 ^ i)) (tAge t))

/-- A dirty cached line is lost: it is stored poisoned and invalidated (R176, R179). -/
def dirtyLost (s : State) (k i access : Nat) (l : Line) : State :=
  let li := sectorLine (keySet k) (tTag (s.tag k)) i
  let a := capAddr li (eFrame (s.live (liParcel li))) (liOff li) access
  let s := (s.dropLine k i).storeLine li l
  ((s.inc R.CACHE_DIRTY_POISONED).report 15 (resQuad (keyQuad k)) 1 access (BitVec.ofNat 64 a)).poisonNew a access

/-- An uncorrectable line of a bank, read as `raw`: a clean one is to be fetched again, a dirty one is lost (R176). -/
def bankUncorrectable (s : State) (k i access : Nat) (raw : Line) : State :=
  let s := (s.incSat (R.CDIE_BANK_UNCORR (keyBank k)) F.CDIE_BANK_UNCORR_COUNT).report 12 (resCbank (keyBank k)) 1 access
    (s.bankAddr k i access)
  if (tDirty (s.tag k)).testBit i then s.dirtyLost k i access (Line.lost raw.data)
  else (s.dropLine k i).inc R.CACHE_CLEAN_REFETCH

/-- The bits in error of a line's word on the cache die. -/
def bankFlips (m : LookupIn) (li : Nat) : Option (BitVec 576) :=
  (m.cache.find? fun e => decide (e.1.toNat = li)).map (·.2)

/-- What the decoder's answer makes of a line read from a bank whose bits come as `raw` (R176): the line where it is
readable, the line as it came, and the repair in the bank of a corrected one. -/
def bankDecoded (s : State) (k i access : Nat) (raw : Line) : Decoded → Option Line × Line × State
  | .clean x => (some x, x, s)
  | .corrected x _ => (some x, x, (s.setData k i x).bankCorrected k i access)
  | _ => (none, raw, s)

/-- A line of a way as it is read from its bank: as it stands, corrected (and repaired in the bank), or none with the
line as it came, uncorrectable (R176). -/
def bankWord (s : State) (k i access : Nat) (flips : Option (BitVec 576)) : Option Line × Line × State :=
  let l := s.cacheData k i
  let s := s.bankAnswers
  match flips with
  | none => (some l, l, s)
  | some b => s.bankDecoded k i access (rawBank k i l b) (decodeBank k i l b)

/-- Read a line that is valid in a way (R176): an uncorrectable clean line is read again from DRAM, and a dirty one is
lost, with POISON for its reader. -/
def bankGet (s : State) (m : LookupIn) (k li access : Nat) : Line × State :=
  let a := s.bankWord k (li % 4) access (bankFlips m li)
  match a.1 with
  | some l => (l, a.2.2)
  | none =>
    let t := a.2.2.bankUncorrectable k (li % 4) access a.2.1
    if (tDirty (s.tag k)).testBit (li % 4) then (Line.lost a.2.1.data, t) else t.fetchHome m li access

/-! ### Write-back, eviction and allocation (R172, R173) -/

/-- Read the dirty lines of a way and hand each to `put`; one that is lost is stored poisoned. -/
def readDirty (s : State) (m : LookupIn) (k : Nat) (put : Nat → Line → State → State) : State :=
  lines4.foldl (fun u i =>
    if (tDirty (u.tag k)).testBit i then
      let li := sectorLine (keySet k) (tTag (u.tag k)) i
      let a := u.bankGet m k li 8
      if (tDirty (a.2.tag k)).testBit i then put li a.1 a.2 else a.2
    else u) s

/-- The frame to which the dirty lines of a way are written back. -/
def wayFrame (s : State) (k : Nat) : Nat :=
  eFrame (s.live (liParcel (sectorLine (keySet k) (tTag (s.tag k)) 0)))

/-- Write the dirty lines of a way back and mark them clean: the buffer takes them when the parcel is in Close. While a
swap holds the channel, or a row repair the bank, they wait (R202, R207). -/
def cleanWay (s : State) (m : LookupIn) (k : Nat) : State :=
  if tDirty (s.tag k) = 0 || s.frameHeld (s.wayFrame k) then s
  else
    let s := s.readDirty m k fun li l u => (u.storeLine li l).inc R.CACHE_WRITEBACKS
    s.setTag k (mkTag (tTag (s.tag k)) (tValid (s.tag k)) 0 (tAge (s.tag k)))

/-- The write data buffer has room for the dirty lines of a way. -/
def evictRoom (s : State) (k : Nat) : Bool := s.bufferRoom (64 * popcount4 (tDirty (s.tag k)))

/-- Put the dirty lines of a way into the write data buffer as drains and drop the sector (R172, R178). -/
def evictWay (s : State) (m : LookupIn) (k : Nat) : State :=
  (s.readDirty m k fun li l u => u.wdbKeep li l).setTag k 0

/-- Raise the AGE of every way of a set in active banks by 1, to at most 3. -/
def ageSet (s : State) (q set : Nat) : State :=
  ways.foldl (fun u w =>
    if u.bankActive (wayBank q w) then
      let t := u.tag (wayKey q set w)
      u.setTag (wayKey q set w) (mkTag (tTag t) (tValid t) (tDirty t) (min 3 (tAge t + 1)))
    else u) s

/-- The way that the search of R172 takes among ways of active banks, and the state after its ageing rounds. -/
def victim (act : List Nat) : Nat → Nat → Nat → State → Option (Nat × State)
  | 0, _, _, _ => none
  | n + 1, q, set, s =>
    match act.find? fun w => tValid (s.tag (wayKey q set w)) == 0 with
    | some w => some (w, s)
    | none =>
      match act.find? fun w => tAge (s.tag (wayKey q set w)) == 3 with
      | some w => some (w, s)
      | none => victim act n q set (s.ageSet q set)

/-- Allocate a way for the sector of a line (R172): its key, with the way's old sector evicted. None in a bank in which
the access has timed out (R179), and none while the buffer has no room for what it would evict. -/
def allocate (s : State) (m : LookupIn) (q li : Nat) : Option (Nat × State) :=
  let act := ways.filter fun w => s.bankActive (wayBank q w) && !s.cache.shun.contains (li, wayBank q w)
  match victim act 5 q (cSet li) s with
  | none => none
  | some (w, s) =>
    let k := wayKey q (cSet li) w
    if tValid (s.tag k) = 0 then some (k, s)
    else if s.evictRoom k then some (k, (s.evictWay m k).inc R.CACHE_EVICTIONS) else none

/-- Fill a whole sector, clean, with an AGE; lines already valid stay, a line just read is `known`, and the others are
read from DRAM (R171, R174, R187). -/
def fillSector (s : State) (m : LookupIn) (k li age : Nat) (known : Option Line) : State :=
  let old := s.tag k
  let v := if tTag old = cTag li then tValid old else 0
  let d := if tTag old = cTag li then tDirty old else 0
  let s := lines4.foldl (fun u i =>
    if v.testBit i then u
    else match (if i = li % 4 then known else none) with
      | some l => u.setData k i l
      | none => let a := u.fetchHome m (li / 4 * 4 + i) 8
                a.2.setData k i a.1) s
  s.bankAnswers.setTag k (mkTag (cTag li) 15 d age)

/-- The access to a line is over, so its time-out no longer keeps it out of a bank (R179). -/
def unshun (s : State) (li : Nat) : State :=
  { s with cache := { s.cache with shun := s.cache.shun.filter fun e => decide (e.1 ≠ li) } }

/-- A read that DRAM has served fills the cache, with the line read when it is still the newest (R171). -/
def fillRead (s : State) (m : LookupIn) (li : Nat) (known : Option Line) : State :=
  let q := s.liQuad li
  match s.sectorWay q li with
  | some w =>
    let k := wayKey q (cSet li) w
    let t := s.tag k
    if (tValid t).testBit (li % 4) || !s.bankActive (wayBank q w) || s.cache.shun.contains (li, wayBank q w) then s
    else
      let a := match known with | some l => (l, s) | none => s.fetchHome m li 8
      ((a.2.setData k (li % 4) a.1).bankAnswers).setTag k
        (mkTag (tTag t) (tValid t ||| 2 ^ (li % 4)) (tDirty t) (tAge t))
  | none =>
    match s.allocate m q li with
    | none => s
    | some (k, s) => (s.fillSector m k li 2 known).inc R.CACHE_FILLS

/-- The fill of a line or of its sector waits: its DRAM reads are held, or come after reads without a verdict (R197, R202, R207). -/
def fillWaits (s : State) (li : Nat) (known : Option Line) : Bool :=
  let f := eFrame (s.live (liParcel li))
  let ls := if (s.sectorWay (s.liQuad li) li).isSome then [li] else lines4.map (li / 4 * 4 + ·)
  s.frameHeld f || ls.any fun x => (decide (x ≠ li) || known.isNone) && s.lineBusy f (liOff x)

/-- What a read that DRAM has served does to the cache (R171). -/
def fillAfterRead (s : State) (m : LookupIn) (li : Nat) (known : Option Line) (noAlloc : Bool) : State :=
  if noAlloc || !s.eligible li then s.unshun li
  else if s.fillWaits li known then { s with cache := { s.cache with fillQ := s.cache.fillQ ++ [(li, known)] } }
  else (s.fillRead m li known).unshun li

/-- The fills that have waited are tried again; a line read earlier counts as read while it is still the newest. -/
def runFills (s : State) (m : LookupIn) : State :=
  s.cache.fillQ.foldl (fun t x =>
    { t with cache := { t.cache with fillQ := t.cache.fillQ.erase x } }.fillAfterRead m x.1
      (x.2.filter fun l => decide (t.homeLine x.1 = l)) false) s

/-- Write a line into a way, valid and dirty. -/
def writeWay (s : State) (k li : Nat) (l : Line) (valid dirty age : Nat) : State :=
  ((s.setData k (li % 4) l).bankAnswers).setTag k
    (mkTag (cTag li) (valid ||| 2 ^ (li % 4)) (dirty ||| 2 ^ (li % 4)) age)

/-- Replace a line that is valid on the cache die, which becomes dirty (R114, R171). -/
def writeHit (s : State) (k li : Nat) (l : Line) : State :=
  let t := s.tag k
  s.writeWay k li l (tValid t) (tDirty t) (tAge t)

/-- A sector that stands in a bank being retired leaves it. -/
def leaveBank (s : State) (m : LookupIn) (q li : Nat) (w : Option Nat) : State :=
  match w with
  | some w => if !s.bankActive (wayBank q w) then s.evictWay m (wayKey q (cSet li) w) else s
  | none => s

/-- A drain meets the cache (R171): taken there, or (none) to be written to DRAM. A sector in a bank that is retiring
is evicted first (R178); a drain that has timed out in the sector's bank misses and allocates nothing (R179). -/
def drainToCache (s : State) (m : LookupIn) (li : Nat) (l : Line) : State × Bool :=
  let q := s.liQuad li
  let w0 := s.sectorWay q li
  let shut := w0.any fun w => s.cache.shun.contains (li, wayBank q w)
  let retiring := match w0 with | some w => !s.bankActive (wayBank q w) | none => false
  let s := s.leaveBank m q li w0
  if shut && !retiring then (s.unshun li, false)
  else match (if retiring then none else w0) with
  | some w =>
    let k := wayKey q (cSet li) w
    let t := s.tag k
    ((s.writeWay k li l (tValid t) (tDirty t) 0).unshun li, true)
  | none =>
    if s.eligible li then
      match s.allocate m q li with
      | none => (s.unshun li, false)
      | some (k, s) => ((s.writeWay k li l 0 0 2).unshun li, true)
    else (s.unshun li, false)

/-! ### Flushes and invalidation (R173, R175, R177, R180) -/

/-- The ways that hold a parcel's sectors in a quadrant. -/
def parcelWays (s : State) (q n : Nat) : List Nat :=
  (s.cache.tags.filter fun e => decide (keyQuad e.1 = q ∧ tValid e.2 ≠ 0)
    && decide (liParcel (sectorLine (keySet e.1) (tTag e.2) 0) = n)).map (·.1)

/-- Write a way's dirty lines back, then invalidate it. -/
def flushWay (s : State) (m : LookupIn) (k : Nat) : State :=
  let s := s.cleanWay m k
  if tDirty (s.tag k) = 0 then s.setTag k 0 else s

/-- Write back and invalidate a parcel's sectors in a quadrant, its 256 sets being searched (R175, R177). -/
def flushParcel (s : State) (m : LookupIn) (q n : Nat) : State :=
  let s := s.tagLookups m ((List.range 256).map fun i => 1024 * n + 4 * i)
  (s.parcelWays q n).foldl (fun u k => u.flushWay m k) s

/-- Invalidate a parcel's sectors without write-back (R175). -/
def dropParcel (s : State) (q n : Nat) : State := (s.parcelWays q n).foldl (fun u k => u.setTag k 0) s

/-- Every way with a valid line. -/
def validWays (s : State) : List Nat := (s.cache.tags.filter fun e => decide (tValid e.2 ≠ 0)).map (·.1)

/-- Write back every dirty line, as the orderly reset does (R163, R180). -/
def flushAll (s : State) (m : LookupIn) : State :=
  let s := s.checkTags m fun _ _ => true
  s.validWays.foldl (fun u k => u.cleanWay m k) s

/-- FLUSHING: a flush, an invalidation or a bank scan runs (R181). -/
def setFlushing (s : State) : State :=
  s.flag R.CACHE_CACHE_STAT F.CACHE_CACHE_STAT_FLUSHING
    (s.cache.job.isSome || ways.any fun b => decide (s.bankState b = 1))

/-- A flush starts; one that asks for more takes the place of one that runs (R180, R181). -/
def flushStart (s : State) (j : FlushJob) : State :=
  if !s.cacheOn then s
  else
    let j := match s.cache.job, j with
      | some .disable, _ => .disable
      | some .invalidate, .flush => .invalidate
      | _, j => j
    { s with cache := { s.cache with job := some j, jobDone := [] } }.setFlushing

/-- The flush that runs has ended: the cache is disabled when it was for a cleared ENABLE and ENABLE is still clear. -/
def flushEnd (s : State) : State :=
  let off := s.disabling && !s.on R.CACHE_CACHE_CTL F.CACHE_CACHE_CTL_ENABLE
  let s := { s with cache := { s.cache with job := none, jobDone := [] } }.setFlushing
  if off then
    (s.flag R.CACHE_CACHE_STAT F.CACHE_CACHE_STAT_ENABLED false).flag R.CACHE_CACHE_STAT F.CACHE_CACHE_STAT_PD_OFF true
  else s

/-- Clearing ENABLE flushes and invalidates every bank and then powers PD125 off; setting it again powers the die with
every tag invalid (R180). -/
def cacheEnable (s : State) (b : Bool) : State :=
  if b then
    if s.cacheOn || s.on R.CACHE_CACHE_STAT F.CACHE_CACHE_STAT_DIE_RETIRED then s
    else (s.flag R.CACHE_CACHE_STAT F.CACHE_CACHE_STAT_ENABLED true).flag R.CACHE_CACHE_STAT F.CACHE_CACHE_STAT_PD_OFF false
  else s.flushStart .disable

/-! ### Retirement of banks and of the die (R178 to R180) -/

/-- Start the retirement of a bank. -/
def bankRetire (s : State) (b : Nat) : State :=
  if s.bankState b = 0 then (s.put (R.CDIE_BANK_STAT b) F.CDIE_BANK_STAT_STATE 1).setFlushing else s

/-- The scan of a retiring bank: its ways are evicted while the write data buffer has room (R178). -/
def bankScan (s : State) (m : LookupIn) (b : Nat) : State :=
  let s := s.checkTags m fun q _ => q == b / 4
  (s.validWays.filter fun k => keyBank k == b).foldl (fun u k =>
    if u.evictRoom k then (u.readDirty m k fun li l v => v.wdbScan li l).setTag k 0 else u) s

/-- The scan ends when no way of the bank is valid: its dirty lines are in the write data buffer, and it is retired. -/
def bankScanDone (s : State) (m : LookupIn) (b : Nat) : State :=
  if s.bankState b = 1 then
    let s := s.bankScan m b
    if s.validWays.any fun k => keyBank k == b then s
    else
      let s := s.put (R.CDIE_BANK_STAT b) F.CDIE_BANK_STAT_STATE 2
      let s := (s.setBit R.CACHE_BANK_MAP F.CACHE_BANK_MAP_ACTIVE b false).setBit R.CACHE_BANK_MAP F.CACHE_BANK_MAP_RETIRED b true
      s.setFlushing
  else s

/-- The die is not responding: dirty lines are stored poisoned with zero data, every tag is invalid and the cache is
disabled (R179). -/
def dieLost (s : State) : State :=
  let s := s.validWays.foldl (fun u k => lines4.foldl (fun v i =>
    if (tDirty (v.tag k)).testBit i then v.dirtyLost k i 8 (Line.lost 0) else v) u) s
  let s := s.validWays.foldl (fun u k => u.setTag k 0) s
  { s with cache := { s.cache with job := none, jobDone := [] } }.setFlushing.flag R.CACHE_CACHE_STAT
    F.CACHE_CACHE_STAT_ENABLED false

/-- A bank access that gets no completion (R179). -/
def bankTimeout (s : State) (b : Nat) (a : CacheAccess) (li : Nat) (again : Bool) : State :=
  let s := (s.incSat (R.CDIE_BANK_TIMEOUTS b) F.CDIE_BANK_TIMEOUTS_COUNT).report 13 (resCbank b) 1 8 (BitVec.ofNat 64 li)
  let s := { s with cache := { s.cache with
    timedOut := if s.cache.timedOut.contains b then s.cache.timedOut else b :: s.cache.timedOut } }
  let miss := { s with cache := { s.cache with shun := (li, b) :: s.cache.shun.filter (· ≠ (li, b)) } }
  match s.cached li with
  | none => miss
  | some k =>
    if keyBank k ≠ b then miss
    else
      let i := li % 4
      match a, s.wdbLine li with
      | .drain, some l => ({ s with wdb := s.wdb.filter fun e => decide (e.li ≠ li) }.dropLine k i).storeLine li l
      | _, _ =>
        if !(tDirty (s.tag k)).testBit i then s.dropLine k i
        else if again then s.dirtyLost k i 8 (Line.lost 0) else s

/-- The cache die is retired: PD125 goes off, and the step is recorded (R180, R308, R310). -/
def dieRetire (s : State) : State :=
  if s.on R.CACHE_CACHE_STAT F.CACHE_CACHE_STAT_DIE_RETIRED then s
  else
    let s := (s.flag R.CACHE_CACHE_STAT F.CACHE_CACHE_STAT_DIE_RETIRED true).flag R.CDIE_CDIE_STAT F.CDIE_CDIE_STAT_RETIRED true
    let s := (s.flag R.CACHE_CACHE_STAT F.CACHE_CACHE_STAT_ENABLED false).flag R.CACHE_CACHE_STAT F.CACHE_CACHE_STAT_PD_OFF true
    s.recordStep resCacheDie 3 0

/-- BANK_SCAN_DONE: the retirement is recorded, and with the last active bank the die is retired (R308, R310). -/
def bankRetired (s : State) (m : LookupIn) (b : Nat) : State :=
  if s.bankState b = 1 then
    let s := s.bankScanDone m b
    if s.bankState b = 1 then s
    else
      let s := s.recordStep (resCbank b) 3 0
      if ways.all fun i => decide (s.bankState i = 2) then s.dieRetire else s
  else s

/-- 10 µs pass in which no active bank completes an access, every active bank having timed out (R179). -/
def dieStill (s : State) : Bool := s.cacheOn && (ways.filter s.bankActive).all s.cache.timedOut.contains

/-- The die no longer answers: RESPONDING clears, and the controller stops using it (R179). -/
def dieSilent (s : State) : State :=
  if s.dieStill then s.flag R.CDIE_CDIE_STAT F.CDIE_CDIE_STAT_RESPONDING false else s

/-- Its dirty lines are lost, and the die is retired (R179, R308). -/
def dieDead (s : State) : State :=
  if s.cacheOn && !s.on R.CDIE_CDIE_STAT F.CDIE_CDIE_STAT_RESPONDING then s.dieLost.dieRetire else s

/-! ### Reads and atomics -/

/-- The newest data of a line, wherever it is (R16, R15, R140). -/
def currentLine (s : State) (li : Nat) : Line :=
  match s.wdbLine li with
  | some l => l
  | none =>
    match s.cached li with
    | some k => s.cacheData k (li % 4)
    | none => s.homeLine li

/-- Read the newest data of a line for an access of the stack, wherever it is (R15, R16, R140, R176, R187). -/
def readCurrent (s : State) (m : LookupIn) (li access : Nat) : Line × State :=
  match s.wdbLine li with
  | some l => (l, s)
  | none =>
    match s.cached li with
    | some k => s.bankGet m k li access
    | none => s.fetchHome m li access

/-- A hit sets AGE 0 and counts; a completed access ends a period of R179. -/
def touchHit (s : State) (k : Nat) : State :=
  let t := s.tag k
  (s.setTag k (mkTag (tTag t) (tValid t) (tDirty t) 0)).inc64 R.CACHE_HITS_LO |>.bankAnswers

/-- Read a line as a miss: from its frame, with a fill (R171, R174). -/
def readMiss (s : State) (m : LookupIn) (li access : Nat) (noAlloc : Bool) : Line × State :=
  let a := s.fetchHome m li access
  (a.1, a.2.fillAfterRead m li (some a.1) noAlloc)

/-- Read one line for an engine or the memory window through the tags, as a host read does: the write data buffer's copy, a
hit, or a miss; a parcel without a frame reads zero (R16, R171, R176, R243, R415). -/
def readThrough (s : State) (m : LookupIn) (li access : Nat) (noAlloc : Bool) : Line × State :=
  let s := (s.tagLookups m [li]).countMisses [li]
  match s.wdbLine li with
  | some l => (l, s)
  | none =>
    if !eHeld (s.live (liParcel li)) then (Line.zeroed, s)
    else match s.cached li with
      | none => s.readMiss m li access noAlloc
      | some k =>
        let a := s.bankWord k (li % 4) access (bankFlips m li)
        match a.1 with
        | some l => (l, a.2.2.touchHit k)
        | none =>
          let t := a.2.2.bankUncorrectable k (li % 4) access a.2.1
          if (tDirty (s.tag k)).testBit (li % 4) then (Line.lost a.2.1.data, t) else t.readMiss m li access noAlloc

/-- Replace a line by a stack-internal write (an engine's, or an atomic operation's): in the buffer, on the cache die,
or at its controller, where it lives (R114, R140). -/
def updateLine (s : State) (li : Nat) (l : Line) : State :=
  if (s.wdbLine li).isSome then s.wdbPut li l
  else match s.cached li with
    | some k => s.writeHit k li l
    | none => if eState (s.live (liParcel li)) = 2 then s.wdbPut li l else s.storeLine li l

end State
end Sys2Proof.Machine
end

