-- ==== Sys2Proof/Machine/Dram.lean ====
section
/-! DEFINITION. The channel controllers: bank states, the scheduler, refresh and activation tracking, and the return of
read data with the check word decoded (R183 to R201, R211 to R219, R223). -/

namespace Sys2Proof.Machine

/-- Timing parameters of R191 in channel clocks. -/
structure Tim where
  rl : Nat
  wl : Nat
  /-- tRCD of the dies by stack ID, hundredths of a clock -/
  rcd : List Nat
  rcdw : Nat
  rp : Nat
  ras : Nat
  rc : Nat
  rtp : Nat
  wr : Nat
  rrd : Nat
  faw : Nat
  wtr : Nat
  rdwr : Nat
  wrrd : Nat
  rfc : Nat
  xp : Nat
  /-- column commands that each stack ID's die may take in 1 µs (R324) -/
  cols : List Nat
  deriving DecidableEq, Repr

/-- Stack ID, bank index and row of a request. -/
def DReq.sid (r : DReq) : Nat := fSid r.f
def DReq.bank (r : DReq) : Nat := fBankIx r.f
def DReq.row (r : DReq) : Nat := fRow r.f r.o
def DReq.die (r : DReq) : Nat := fDie r.f

/-- The bank of a pseudo-channel. -/
def PCh.bank (p : PCh) (b : Nat) : BankSt := SMap.get (fun _ => ({} : BankSt)) p.banks b
def PCh.setBank (p : PCh) (b : Nat) (x : BankSt) : PCh :=
  { p with banks := SMap.set (fun _ => ({} : BankSt)) b x p.banks }

/-- A row command of a clock. -/
inductive RowCmd where
  | act (r : DReq)
  | pre (bank : Nat) (conflict : Bool)
  | ref (x : Refresh)
  deriving DecidableEq, Repr

/-! ### Timing (R191 to R193) -/

namespace PCh

/-- The bank's state after the time that has passed (R193). -/
def ripen (t : Tim) (now : Nat) (b : BankSt) : BankSt :=
  if b.st = 1 ∧ b.act + t.rcdw ≤ now then { b with st := 2 }
  else if b.st = 3 ∧ b.pre + t.rp ≤ now then { b with st := 0 }
  else if b.st = 4 ∧ b.ref + t.rfc ≤ now then { b with st := 0 }
  else b

/-- One clock passes; bank states follow. -/
def tick (t : Tim) (p : PCh) : PCh :=
  { p with now := p.now + 1, banks := p.banks.map fun e => (e.1, ripen t (p.now + 1) e.2) }

/-- An activate is allowed now (R191, R193, R213). -/
def canAct (t : Tim) (p : PCh) (r : DReq) : Bool :=
  let b := p.bank r.bank
  let same := p.acts.filter fun a => a.sid == r.sid
  decide (b.st = 0 ∧ b.act + t.rc ≤ p.now ∧ b.pre + t.rp ≤ p.now)
    && same.all (fun a => decide (a.at_ + t.rrd ≤ p.now))
    && p.acts.all (fun a => decide (a.at_ + 1 ≤ p.now))
    && decide ((same.filter fun a => decide (p.now < a.at_ + t.faw)).length < 4)
    && !p.refs.any fun x => x.due && x.bank == r.bank

/-- A precharge is allowed now (R193). -/
def canPre (t : Tim) (p : PCh) (b : Nat) : Bool :=
  let x := p.bank b
  decide (x.st = 2 ∧ x.act + t.ras ≤ p.now ∧ x.rd + t.rtp ≤ p.now ∧ x.wrEnd + t.wr ≤ p.now)

/-- A refresh is allowed now. -/
def canRef (t : Tim) (p : PCh) (b : Nat) : Bool :=
  let x := p.bank b
  decide (x.st = 0 ∧ x.pre + t.rp ≤ p.now)

/-- Start of the column access of a read that is issued now, in hundredths of a clock: now, or when the die's tRCD has
elapsed from the activate (R192). -/
def colStart (t : Tim) (p : PCh) (r : DReq) : Nat := max (100 * p.now) (100 * (p.bank r.bank).act + t.rcd.getD r.sid 0)

/-- The clock slots that the burst of a read issued now overlaps: the first, and the one after the last. -/
def readSlots (t : Tim) (p : PCh) (r : DReq) : Nat × Nat :=
  ((p.colStart t r + 100 * t.rl) / 100, (p.colStart t r + 100 * (t.rl + 2) + 99) / 100)

/-- The clock slots of the burst of a write issued now. -/
def writeSlots (t : Tim) (p : PCh) : Nat × Nat := (p.now + t.wl, p.now + t.wl + 2)

/-- Idle clocks of the bus after one burst and before another, each write or read at a stack ID (R191). -/
def turn (t : Tim) (wr1 : Bool) (sid1 : Nat) (wr2 : Bool) (sid2 : Nat) : Nat :=
  if wr1 && !wr2 && sid1 != sid2 then t.wrrd else if !wr1 && wr2 then t.rdwr else 0

/-- A burst fits among the reserved ones (R192). -/
def busFits (t : Tim) (p : PCh) (slots : Nat × Nat) (wr : Bool) (sid : Nat) : Bool :=
  p.bus.all fun b => decide (slots.2 + turn t wr sid b.2.2.1 b.2.2.2 ≤ b.1
    ∨ b.2.1 + turn t b.2.2.1 b.2.2.2 wr sid ≤ slots.1)

/-- Reserve the slots of a burst; bursts that are over longer than any turnaround are forgotten. -/
def reserve (p : PCh) (slots : Nat × Nat) (wr : Bool) (sid : Nat) : PCh :=
  { p with bus := (slots.1, slots.2, wr, sid) :: p.bus.filter fun b => decide (p.now ≤ b.2.1 + 16) }

/-- End of the last write data at a stack ID. -/
def sidWrEnd (p : PCh) (sid : Nat) : Nat :=
  p.banks.foldl (fun n e => if e.1 / 16 = sid then max n e.2.wrEnd else n) 0

/-- The die of a request may take one more column command in this 1 µs interval (R324). -/
def colOpen (t : Tim) (p : PCh) (r : DReq) : Bool :=
  decide (p.now / 1200 ≠ p.colAt) || decide (SMap.get (fun _ => 0) p.cols r.sid < t.cols.getD r.sid 600)

/-- Count a column command to a stack ID. -/
def countCol (p : PCh) (sid : Nat) : PCh :=
  let l := if p.now / 1200 = p.colAt then p.cols else []
  { p with colAt := p.now / 1200, cols := SMap.upd (fun _ => 0) sid (· + 1) l }

/-- A refresh of the bank is due, and goes ahead of every request (R213). -/
def refreshWaits (p : PCh) (b : Nat) : Bool := p.refs.any fun x => x.due && x.bank == b

/-- A read column command is allowed now. -/
def canRead (t : Tim) (p : PCh) (r : DReq) : Bool :=
  let b := p.bank r.bank
  decide ((b.st = 1 ∨ b.st = 2) ∧ b.row = r.row ∧ b.act + 1 ≤ p.now) && !p.refreshWaits r.bank
    && p.busFits t (p.readSlots t r) false r.sid
    && decide (p.sidWrEnd r.sid + (if p.sidWrEnd r.sid = 0 then 0 else t.wtr) ≤ p.now)

/-- A write column command is allowed now. Its data ends tWTR before a posted read of its stack ID starts (assumption
103). -/
def canWrite (t : Tim) (p : PCh) (r : DReq) : Bool :=
  let b := p.bank r.bank
  decide (b.st = 2 ∧ b.row = r.row) && !p.refreshWaits r.bank && p.busFits t (p.writeSlots t) true r.sid
    && p.bus.all fun x => x.2.2.1 || decide (x.2.2.2 ≠ r.sid ∨ x.1 < (p.writeSlots t).1
      ∨ (p.writeSlots t).2 + t.wtr + t.rl ≤ x.1)

/-- A column command of a request is allowed now. -/
def canCol (t : Tim) (p : PCh) (r : DReq) : Bool :=
  (if r.write then p.canWrite t r else p.canRead t r) && p.colOpen t r

/-! ### The scheduler (R194 to R197, R223) -/

/-- A request waits behind an older one to its line, queued or in flight (R197). -/
def behind (p : PCh) (r : DReq) : Bool :=
  ((p.rq ++ p.wq).any fun x => DReq.at_ x r.f r.o && decide (x.seq < r.seq)) || p.flight.any fun x => DReq.at_ x r.f r.o

/-- The requests of the current mode; urgent reads join in write mode unless the write queue is full (R194, R197). -/
def modeAll (urg : Nat) (p : PCh) : List DReq :=
  if p.writeMode then p.wq ++ (if 64 ≤ p.wq.length then [] else p.rq.filter fun r => decide (urg ≤ r.prio)) else p.rq

/-- Those that wait behind no other request to their line. -/
def modeSet (urg : Nat) (p : PCh) : List DReq := (p.modeAll urg).filter fun r => !p.behind r

/-- An older request to another row of the bank waits, of whichever mode (R196). -/
def olderOther (p : PCh) (r : DReq) : Bool :=
  (p.rq ++ p.wq).any fun x => decide (x.bank = r.bank ∧ x.row ≠ r.row ∧ x.seq < r.seq)

/-- The bank is capped. -/
def capped (smax : Nat) (p : PCh) (b : Nat) : Bool := decide (smax ≤ (p.bank b).streak)

/-- The oldest of a list. -/
def oldest : List DReq → Option DReq
  | [] => none
  | a :: t => some (t.foldl (fun b x => if x.seq < b.seq then x else b) a)

/-- The request that R195 chooses among candidates: of the urgent ones if any, the oldest hit of an open row in a bank that
is not capped, else the oldest. -/
def pick (smax urg : Nat) (p : PCh) (set : List DReq) : Option DReq :=
  let u := set.filter fun r => decide (urg ≤ r.prio)
  let l := if u.isEmpty then set else u
  let hits := l.filter fun r => decide ((p.bank r.bank).st = 2 ∧ (p.bank r.bank).row = r.row) && !p.capped smax r.bank
  oldest (if hits.isEmpty then l else hits)

/-- A request's row command, if one is a candidate now (R195): `queued` are the requests of the mode, of which none may hit the open
row; a request beyond the die's share of column commands is no candidate (R324). -/
def rowCandidate (t : Tim) (smax : Nat) (queued : List DReq) (p : PCh) (r : DReq) : Option RowCmd :=
  let b := p.bank r.bank
  if !p.colOpen t r then none
  else if b.st = 0 then if p.canAct t r then some (.act r) else none
  else if b.st = 2 ∧ b.row ≠ r.row then
    let hit := queued.any fun x => decide (x.bank = r.bank ∧ x.row = b.row)
    if (!hit || p.capped smax r.bank) && p.canPre t r.bank then some (.pre r.bank true) else none
  else none

/-- Requests of the other mode that wait behind a capped streak: the precharge that they need is a candidate too, as R196
says of the older request (assumption 48). -/
def cappedOthers (smax : Nat) (set : List DReq) (p : PCh) : List DReq :=
  (p.rq ++ p.wq).filter fun r => !set.contains r && p.capped smax r.bank && decide ((p.bank r.bank).st = 2)
    && decide ((p.bank r.bank).row ≠ r.row) && !p.behind r

/-- The command that a refresh needs now. -/
def refCandidate (t : Tim) (p : PCh) (x : Refresh) : Option RowCmd :=
  if p.canRef t x.bank then some (.ref x) else if p.canPre t x.bank then some (.pre x.bank false) else none

/-- A bank with a queued request. -/
def busyBank (p : PCh) (b : Nat) : Bool := (p.rq ++ p.wq).any fun r => r.bank == b

/-- Scrub reads of banks without a queued request, then correction write-backs (R223 ranks 4 and 5). -/
def background (p : PCh) : List DReq := (p.scrub.filter fun r => !p.busyBank r.bank) ++ p.corr

/-- The row command of this clock, in the ranks of R223: due refreshes, requests, pending refreshes and scrub accesses,
correction write-backs (R213). -/
def chooseRow (t : Tim) (smax urg : Nat) (p : PCh) : Option RowCmd :=
  match (p.refs.filter Refresh.due).findSome? (p.refCandidate t) with
  | some c => some c
  | none =>
    let all := p.modeAll urg
    let set := p.modeSet urg
    match p.pick smax urg ((set ++ p.cappedOthers smax set).filter fun r => (p.rowCandidate t smax all r).isSome) with
    | some r => p.rowCandidate t smax all r
    | none =>
      match (p.refs.filter fun x => !x.due && !p.busyBank x.bank).findSome? (p.refCandidate t) with
      | some c => some c
      | none => (p.background).findSome? (p.rowCandidate t smax all)

/-- The column command of this clock, in the same ranks. A capped bank takes none to its open row ahead of the older
request (R196). -/
def chooseCol (t : Tim) (smax urg : Nat) (p : PCh) : Option DReq :=
  match p.pick smax urg ((p.modeSet urg).filter fun r => p.canCol t r && !(p.capped smax r.bank && p.olderOther r)) with
  | some r => some r
  | none => p.background.find? fun r => p.canCol t r

/-- Which mode the pseudo-channel works in (R194). -/
def nextMode (hi lo : Nat) (p : PCh) : Bool :=
  if p.writeMode then !(p.wq.isEmpty || (decide (p.wq.length ≤ lo) && !p.rq.isEmpty))
  else decide (hi ≤ p.wq.length) && !p.wq.isEmpty || (p.rq.isEmpty && !p.wq.isEmpty)

/-- The pseudo-channel after a row command. -/
def afterRow (p : PCh) : RowCmd → PCh
  | .act r =>
    let b := p.bank r.bank
    let mark := fun (x : DReq) => if x = r then { x with acted := true } else x
    { p.setBank r.bank { b with st := 1, row := r.row, act := p.now } with
      acts := (⟨p.now, r.sid⟩ :: p.acts).take 16
      rq := p.rq.map mark, wq := p.wq.map mark, scrub := p.scrub.map mark, corr := p.corr.map mark }
  | .pre b conflict =>
    let row := (p.bank b).row
    let mark := fun (x : DReq) => if conflict ∧ x.bank = b ∧ x.row ≠ row then { x with conf := true } else x
    { p.setBank b { p.bank b with st := 3, pre := p.now, streak := 0 } with rq := p.rq.map mark, wq := p.wq.map mark }
  | .ref x =>
    { p.setBank x.bank { p.bank x.bank with st := 4, ref := p.now } with
      refs := p.refs.erase x
      refCtr := if x.row.isSome then p.refCtr else SMap.upd (fun _ => 0) x.bank (fun n => (n + 1) % 2048) p.refCtr }

/-- The pseudo-channel after a column command. -/
def afterCol (t : Tim) (p : PCh) (r : DReq) : PCh :=
  let b := p.bank r.bank
  let streak := if p.olderOther r then b.streak + 1 else b.streak
  if r.write then
    { (p.setBank r.bank { b with streak := streak, wrEnd := (p.writeSlots t).2 }).reserve (p.writeSlots t) true r.sid with
      wq := p.wq.erase r }
  else
    { (p.setBank r.bank { b with streak := streak, rd := (p.colStart t r + 99) / 100 }).reserve (p.readSlots t r) false
        r.sid with
      rq := p.rq.erase r, scrub := p.scrub.erase r }

/-- Late scrub reads become ordinary requests of the oldest age, as many as the read queue has room for (R194, R223). -/
def promote (p : PCh) : PCh :=
  let l := (p.scrub.filter DReq.late).take (64 - p.rq.length)
  { p with scrub := l.foldl List.erase p.scrub, rq := l ++ p.rq }

end PCh

namespace State

def pchTrained (s : State) (pc : Nat) : Bool :=
  s.on (R.CHP_PHY_STAT (pc / 2)) (if pc % 2 = 0 then F.CHP_PHY_STAT_TRAINED_A else F.CHP_PHY_STAT_TRAINED_B)

/-- A bank of a pseudo-channel is retired, or its die is (R193, R214). -/
def bankGone (s : State) (pc b : Nat) : Bool :=
  s.on (R.DDIE_DIE_STAT (4 * (b / 16) + pc / 2 % 4)) F.DDIE_DIE_STAT_RETIRED || (if b < 32 then s.rd (R.CHP_BANK_RET_LO (pc / 2) (pc % 2)) else s.rd (R.CHP_BANK_RET_HI (pc / 2) (pc % 2))).getLsbD (b % 32)

/-- The pseudo-channel takes commands: DRAM is initialised, it is not retired, not in self-refresh and not without a command path
(R303). -/
def pchLive (s : State) (pc : Nat) : Bool :=
  s.released && s.clk.dramInit && !s.ch.selfRefresh.contains pc && !s.pchRetired pc && !s.spare.unreadable.contains pc

/-- The timing parameters of controller `k` for channel `c`, and the tRCD of the channel's dies by stack ID: tenths of a
nanosecond at 1.2 clocks a nanosecond (R191, R192). -/
def timing (s : State) (k c : Nat) : Tim :=
  { rl := s.fld (R.CHC_TIMING0 k) F.CHC_TIMING0_TRL, wl := s.fld (R.CHC_TIMING0 k) F.CHC_TIMING0_TWL,
    rcd := [0, 1, 2, 3].map fun i => s.fld (R.DDIE_TRCD_DIE (4 * i + c % 4)) F.DDIE_TRCD_DIE_TENTHS * 12,
    rcdw := s.fld (R.CHC_TIMING0 k) F.CHC_TIMING0_TRCDW, rp := s.fld (R.CHC_TIMING0 k) F.CHC_TIMING0_TRP,
    ras := s.fld (R.CHC_TIMING1 k) F.CHC_TIMING1_TRAS, rc := s.fld (R.CHC_TIMING1 k) F.CHC_TIMING1_TRC,
    rtp := s.fld (R.CHC_TIMING1 k) F.CHC_TIMING1_TRTP, wr := s.fld (R.CHC_TIMING1 k) F.CHC_TIMING1_TWR,
    rrd := s.fld (R.CHC_TIMING2 k) F.CHC_TIMING2_TRRD, faw := s.fld (R.CHC_TIMING2 k) F.CHC_TIMING2_TFAW,
    wtr := s.fld (R.CHC_TIMING2 k) F.CHC_TIMING2_TWTR, rdwr := s.fld (R.CHC_TIMING2 k) F.CHC_TIMING2_TRDWR,
    wrrd := s.fld (R.CHC_TIMING2 k) F.CHC_TIMING2_TWRRD, rfc := s.fld (R.CHC_TIMING3 k) F.CHC_TIMING3_TRFCPB,
    xp := s.fld (R.CHC_TIMING3 k) F.CHC_TIMING3_TXP,
    cols := [0, 1, 2, 3].map fun i => (600 * s.effFraction (2 + 4 * i + c % 4)).floor.toNat }

/-- A streak cap of 1 to 16 (R208). -/
def streakMax (s : State) (k : Nat) : Nat := min 16 (max 1 (s.fld (R.CHC_SCHED_CTL k) F.CHC_SCHED_CTL_STREAK_MAX))
def urgLevel (s : State) (k : Nat) : Nat := s.fld (R.CHC_SCHED_CTL k) F.CHC_SCHED_CTL_URG_LEVEL

/-! ### Arrival at a controller (R197) -/

/-- A read arrives: answered from a queued write (FWD_READS), or queued; one that no command can serve waits for its verdict alone
(R303). -/
def sendRead (s : State) (f o req idx prio : Nat) : Option Line × State :=
  match s.queuedWrite f o with
  | some w => (some w.line, s.inc (R.CHC_FWD_READS (s.ctrlPage (fChan f))))
  | none =>
    let p := s.pch (fPc f)
    let r : DReq := { write := false, f := f, o := o, req := req, idx := idx, prio := prio, seq := s.ch.seq }
    let s := s.setPch (fPc f) (if s.unreadable f then { p with flight := p.flight ++ [{ r with line := s.dramRead f o }] }
      else { p with rq := p.rq ++ [r] })
    (none, { s with ch := { s.ch with seq := s.ch.seq + 1 } })

/-! ### Activation tracking (R215 to R219) -/

/-- Activations that trigger a tnr (R217). -/
def rhThresh (s : State) : Nat := min 2048 (max 256 (s.fld R.RFM_RH_CTL F.RFM_RH_CTL_RH_THRESH))

def tracker (s : State) (k : Nat) : Tracker := SMap.get (fun _ => ({} : Tracker)) s.ch.trk k
def setTracker (s : State) (k : Nat) (t : Tracker) : State :=
  { s with ch := { s.ch with trk := SMap.set (fun _ => ({} : Tracker)) k t s.ch.trk } }

end State

/-- The tracker's steps on an activate of row `r` (R216): the tracker, and whether a tnr of the row is due. -/
def trackStep (thresh : Nat) (t : Tracker) (r : Nat) : Tracker × Bool :=
  let fin := fun (i : Nat) (c : Nat) =>
    ({ t with ents := t.ents.set i ⟨r, if thresh ≤ c then t.spill else c, true⟩ }, decide (thresh ≤ c))
  match t.ents.findIdx? fun e => e.valid && e.row == r with
  | some i => fin i ((t.ents.getD i {}).count + 1)
  | none =>
    match t.ents.findIdx? fun e => !e.valid || e.count == t.spill with
    | some i => fin i (t.spill + 1)
    | none => if t.spill < thresh - 1 then ({ t with spill := t.spill + 1 }, false) else (t, true)

namespace State

/-- The bank is in the spill condition (R218). -/
def spillCond (s : State) (k : Nat) : Bool := decide (s.rhThresh - 1 ≤ (s.tracker k).spill)

/-- An activate runs the bank's tracker; `bad` says that an entry reads with a parity error (R216, R219). A tnr is due at once;
it does not count in REF_DUE, which the model keeps for regular refreshes (DESIGN CHOICE, assumption 130). -/
def trackActivate (s : State) (pc bank row : Nat) (bad : Bool) : State :=
  if !s.on R.RFM_RH_CTL F.RFM_RH_CTL_RH_EN then s
  else
    let k := 64 * pc + bank
    let was := s.spillCond k
    let s := if bad then
        ((s.setTracker k { spill := s.rhThresh - 1 }).inc R.RFM_TRACKER_ERR).report 16
          (resBank (pc / 2) (pc % 2) (bank / 16) (bank % 16)) 1 9
      else s
    let st := trackStep s.rhThresh (s.tracker k) row
    let s := s.setTracker k st.1
    let s := if !was && s.spillCond k then s.inc R.RFM_SPILL_WINDOWS else s
    if st.2 then
      let p := s.pch pc
      s.setPch pc { p with refs := p.refs ++ [⟨bank, true, some row⟩] }
    else s

/-! ### Effects of the commands -/

/-- Count an activate and track it. -/
def rowEffect (s : State) (pc k : Nat) (bad : Bool) : RowCmd → State
  | .act r => (s.inc (R.CHC_ACTIVATES k)).trackActivate pc r.bank r.row bad
  | .pre _ conflict => if conflict then s.inc (R.CHC_CONFLICTS k) else s
  | .ref x =>
    match x.row with
    | none =>
      let s := s.inc64 R.RFM_REF_LO
      if SMap.get (fun _ => 0) (s.pch pc).refCtr x.bank = 0 then s.setTracker (64 * pc + x.bank) {} else s
    | some _ =>
      let s := s.inc64 R.RFM_TNR_LO
      if s.spillCond (64 * pc + x.bank) then s.inc R.RFM_SPILL_TNR else s

/-- Values or a remap wait for the bus gap (R205, R206, R209). -/
def gapWaits (s : State) (pc : Nat) : Bool :=
  let p := s.pch pc
  p.apply.isSome || !p.calVal.isEmpty
    || ((SMap.get (fun _ => none) s.ch.remap (pc / 2)).any fun r => decide (r.p = pc % 2) && r.verified)

/-- A gap of 8 clocks opens on the data bus after the bursts reserved so far; no command is issued before its end (R205). -/
def openGap (s : State) (pc : Nat) : State :=
  let p := s.pch pc
  let g := p.bus.foldl (fun n b => max n b.2.1) p.now
  s.setPch pc { p with wake := max p.wake (g + 8) }

/-- A trained set of values is applied in the bus gap after a refresh (R205, R209). -/
def applyTraining (s : State) (pc : Nat) : State :=
  let p := s.pch pc
  let s := { s with ch := { s.ch with
      cal := SMap.setAll (fun _ => 0) (p.calVal.map fun (v : Nat × Word) => (58 * pc + v.1, v.2)) s.ch.cal } }
  let p := { p with calVal := [] }
  let s := s.setPch pc p
  match p.apply with
  | none => s
  | some vals =>
    let s := s.setPch pc { p with apply := none }
    let s := { s with ch := { s.ch with
        cal := SMap.setAll (fun _ => 0) (vals.map fun (v : Nat × Word) => (58 * pc + v.1, v.2)) s.ch.cal } }
    (s.incSat (R.CHP_CAL_COUNT (pc / 2)) F.CHP_CAL_COUNT_COUNT).wr64 (R.CHP_CAL_TIME_LO (pc / 2)) s.ts

/-- A spare's last verify failed. -/
def spareFailed (s : State) (pc : Nat) (ca : Bool) (i : Nat) : Bool :=
  s.bit (R.CHP_FAIL_MAP2 (pc / 2) (pc % 2))
    (if ca then F.CHP_FAIL_MAP2_CA_SPARE_FAILED else F.CHP_FAIL_MAP2_DQ_SPARE_FAILED) i

/-- A spare is free (R206). -/
def spareFree (s : State) (pc : Nat) (ca : Bool) (i : Nat) : Bool :=
  decide (s.spareUse pc ca i = 255) && !s.spareFailed pc ca i
    && !s.recorded (resVia (pc / 2) (decide (pc % 2 = 1)) ca ((if ca then 14 else 36) + i)) 3
    && !s.recorded (resVia (pc / 2) (decide (pc % 2 = 1)) ca ((if ca then 14 else 36) + i)) 1

/-- The spares count as PHY_STAT shows it. -/
def countSpares (s : State) (pc : Nat) (ca : Bool) : State :=
  s.put (R.CHP_PHY_STAT (pc / 2)) (spareField pc ca) ((spareNums ca).filter (s.spareFree pc ca)).length

/-- Spare `i` takes over logical via `v`, in place of the spare that carried it before. -/
def takeSpare (s : State) (pc : Nat) (ca : Bool) (i v : Nat) : State :=
  let s := (spareNums ca).foldl (fun u n => if u.spareUse pc ca n = v then u.setSpareUse pc ca n 255 else u) s
  (s.setSpareUse pc ca i v).countSpares pc ca

/-- A verified remap switches in the bus gap after a refresh; its record follows (R206, R310). -/
def applyRemap (s : State) (pc : Nat) : State :=
  match SMap.get (fun _ => none) s.ch.remap (pc / 2) with
  | some r =>
    if r.p = pc % 2 ∧ r.verified then
      let old := s.physVia pc r.ca r.via
      let s := s.takeSpare pc r.ca r.spare r.via
      let s := s.recordStep (resVia (pc / 2) (decide (pc % 2 = 1)) r.ca old) 1 r.spare
      let s := { s with ch := { s.ch with remap := SMap.set (fun _ => none) (pc / 2) none s.ch.remap } }
      (s.flag (R.CHP_REMAP_STAT (pc / 2)) F.CHP_REMAP_STAT_BUSY false).flag (R.CHP_REMAP_STAT (pc / 2))
        F.CHP_REMAP_STAT_FAILED false
    else s
  | none => s

/-- Issue a row command. -/
def issueRow (s : State) (pc k : Nat) (bad : Bool) (c : RowCmd) : State :=
  let s := s.setPch pc ((s.pch pc).afterRow c)
  let s := s.rowEffect pc k bad c
  match c with
  | .ref _ => if s.gapWaits pc then ((s.openGap pc).applyTraining pc).applyRemap pc else s
  | _ => s

/-- Issue a column command: a write is performed; a read is in flight with the line that it reads. -/
def issueCol (s : State) (pc k : Nat) (t : Tim) (r : DReq) : State :=
  let p := s.pch pc
  let p' := (p.afterCol t r).countCol r.sid
  let s := if s.streakMax k = (p'.bank r.bank).streak ∧ (p.bank r.bank).streak ≠ s.streakMax k then s.inc (R.CHC_STREAK_CAPS k) else s
  let s := if r.acted then s else s.inc (R.CHC_ROW_HITS k)
  let s := if (p.rq ++ p.wq).contains r && decide (s.urgLevel k ≤ r.prio) then s.inc (R.CHC_URGENT k) else s
  if r.write then (s.setPch pc p').putWord r.f r.o r.line
  else
    (s.setPch pc { p' with flight := p'.flight ++ [{ r with line := s.dramRead r.f r.o }] }).inc64 (R.CHC_READS_LO k)

/-- The mode for this clock (R194). -/
def chooseMode (s : State) (pc k : Nat) : State :=
  let p := s.pch pc
  let hi := s.fld (R.CHC_SCHED_CTL k) F.CHC_SCHED_CTL_WR_HIGH
  let m := p.nextMode hi (min hi (s.fld (R.CHC_SCHED_CTL k) F.CHC_SCHED_CTL_WR_LOW))
  let s := if m && !p.writeMode then s.inc (R.CHC_WRITE_MODES k) else s
  s.setPch pc { p with writeMode := m }

/-- Work that is no request and is to be issued (R200). -/
def sideWork (p : PCh) : Bool := !p.refs.isEmpty || !p.scrub.isEmpty || !p.corr.isEmpty || p.training

/-- In power-down a request wakes the dies for good; other work wakes them for its commands. The first command waits tXP
(R200). -/
def wakePch (s : State) (pc : Nat) (t : Tim) : State :=
  let p := s.pch pc
  if !p.pd then s
  else
    let wake := if p.awake then p.wake else max p.wake (p.now + t.xp)
    if !(p.rq.isEmpty && p.wq.isEmpty) then s.setPch pc { p with pd := false, awake := false, wake := wake }
    else if sideWork p then s.setPch pc { p with awake := true, wake := wake }
    else s.setPch pc { p with awake := false }

/-- The row command of this clock, then the column command. -/
def issueBoth (s : State) (pc k : Nat) (t : Tim) (bad : Bool) : State :=
  if (s.pch pc).now < (s.pch pc).wake then s
  else
    let s := match (s.pch pc).chooseRow t (s.streakMax k) (s.urgLevel k) with
      | none => s | some c => s.issueRow pc k bad c
    if (s.pch pc).now < (s.pch pc).wake then s
    else match (s.pch pc).chooseCol t (s.streakMax k) (s.urgLevel k) with
    | none => s | some r => s.issueCol pc k t r

/-- One command clock of a pseudo-channel (R195). -/
def dramClock (s : State) (c p : Nat) (bad : Bool) : State :=
  let pc := 2 * c + p
  match s.ctrlOf c with
  | none => s
  | some k =>
    if !s.pchLive pc then s
    else
      let t := s.timing k c
      let s := s.setPch pc ((s.pch pc).tick t).promote
      ((s.wakePch pc t).chooseMode pc k).issueBoth pc k t bad

/-- Both queues have been empty for PD_IDLE clocks (R200). -/
def pdEntry (s : State) (c p : Nat) : State :=
  let pc := 2 * c + p
  let x := s.pch pc
  match s.ctrlOf c with
  | none => s
  | some k =>
    if s.pchLive pc && x.rq.isEmpty && x.wq.isEmpty && !x.pd && s.on (R.CHC_SCHED_CTL k) F.CHC_SCHED_CTL_PD_EN then
      (s.setPch pc { x with pd := true, awake := false }).inc (R.CHC_PD_ENTRIES k)
    else s

/-! ### Refresh (R211 to R214) -/

/-- A bank's refresh slot arrives. -/
def refSlot (s : State) (c p b : Nat) : State :=
  let pc := 2 * c + p
  if s.pchLive pc && !s.bankGone pc b then
    let x := s.pch pc
    s.setPch pc { x with refs := x.refs ++ [⟨b, false, none⟩] }
  else s

/-- The oldest pending refresh of a bank becomes due. -/
def markDue (b : Nat) : List Refresh → List Refresh
  | [] => []
  | x :: l => if x.bank = b ∧ !x.due then { x with due := true } :: l else x :: markDue b l

/-- A pending refresh becomes due (R213). -/
def refDue (s : State) (c p b : Nat) : State :=
  let pc := 2 * c + p
  let x := s.pch pc
  if s.pchLive pc && x.refs.any fun r => r.bank == b && !r.due then
    (s.setPch pc { x with refs := markDue b x.refs }).inc R.RFM_REF_DUE
  else s

/-- DIE_STAT.SELF_REFRESH: a pseudo-channel of the die is in self-refresh (R210). -/
def syncSelfRefresh (s : State) : State :=
  dies.foldl (fun t d => t.flag (R.DDIE_DIE_STAT d) F.DDIE_DIE_STAT_SELF_REFRESH
    (t.ch.selfRefresh.any fun pc => pc / 2 % 4 == d % 4)) s

/-- A pseudo-channel enters self-refresh: targeted neighbour refreshes that are due are issued (R217), queued writes are
completed, with the reads that arrived before them (R197), and every bank is precharged (R201). Regular refreshes that are pending
are not issued first, since the dies refresh themselves from then on (DESIGN CHOICE, assumption 130). -/
def selfRefreshIn (s : State) (pc : Nat) : State :=
  let s := ((s.pch pc).refs.filter fun x => x.row.isSome).foldl (fun t x =>
    t.rowEffect pc (t.ctrlPage (pc / 2)) false (.ref x)) s
  let wq := (s.pch pc).wq
  let s := s.performAll pc fun r => r.write || wq.any fun w => DReq.at_ w r.f r.o && decide (r.seq < w.seq)
  s.setPch pc { s.pch pc with banks := [], acts := [], bus := [], refs := [], pd := false, awake := false }

/-- Every die enters self-refresh. -/
def enterSelfRefresh (s : State) : State :=
  let s := (List.range 64).foldl selfRefreshIn s
  { s with ch := { s.ch with selfRefresh := List.range 64 } }.syncSelfRefresh

/-- Pseudo-channels leave self-refresh: the first command waits tXS. T0 is set, so the slots of the sweep come as
REFRESH_SLOT events (R201, R211). -/
def exitSelfRefresh (s : State) (pcs : List Nat) : State :=
  let s := pcs.foldl (fun t pc =>
    let x := t.pch pc
    t.setPch pc { x with wake := x.now + t.fld (R.CHC_TIMING3 (t.ctrlPage (pc / 2))) F.CHC_TIMING3_TXS }) s
  { s with ch := { s.ch with selfRefresh := s.ch.selfRefresh.filter fun pc => !pcs.contains pc } }.syncSelfRefresh

/-! ### Return of read data (R187 to R190) -/

/-- What a read from a frame's parcel finds for its line after the word's outcome: the line to use, with the poison
write or the cache's copy in place of a lost one (R106, R176, R187, R189). -/
def settleRead (s : State) (r : DReq) (li : Option Nat) (out : ReadOut) (access : Nat) : Line × State :=
  if out.lost then
    match li.bind s.cached with
    | some k =>
      let i := li.getD 0 % 4
      (s.cacheData k i, s.writeHit k (li.getD 0) (s.cacheData k i))
    | none =>
      let l := Line.lost out.line.data
      if s.superseded r then (l, s)
      else (l, (s.poisonWrite r.f r.o l).poisonNew (capAddr (li.getD (1024 * r.f + r.o)) r.f r.o access) access)
  else if out.bytes.isEmpty || s.superseded r then (out.line, s)
  else (out.line, s.queueCorrection r.f r.o out.line)


end State
end Sys2Proof.Machine
end

