-- ==== Sys2Proof/Machine/Symbols.lean ====
section
/-! DEFINITION. The symbols of a lane: scrambling, Gray mapping and precoding with their inverses, alignment markers and
test patterns (R28 to R34, R57). A PAM4 symbol is its value 0 to 3, for the levels −3, −1, +1 and +3. -/

namespace Sys2Proof.Machine

/-! ### Transmit steps and their inverses (R28, R29) -/

/-- Scramble a lane's bits, first in time first, with x^58 + x^39 + 1 (R28). -/
def scramble : BitVec 58 → List Bool → List Bool × BitVec 58
  | r, [] => ([], r)
  | r, b :: l =>
    let o := b ^^ r.getLsbD 57 ^^ r.getLsbD 38
    let p := scramble ((r <<< 1) ||| (if o then 1 else 0)) l
    (o :: p.1, p.2)

/-- Undo `scramble`: the register takes in the received bits (R28). -/
def descramble : BitVec 58 → List Bool → List Bool × BitVec 58
  | r, [] => ([], r)
  | r, b :: l =>
    let p := descramble ((r <<< 1) ||| (if b then 1 else 0)) l
    ((b ^^ r.getLsbD 57 ^^ r.getLsbD 38) :: p.1, p.2)

/-- Gray mapping of bit pairs, b1 first (R28). -/
def graySyms : List Bool → List Nat
  | b1 :: b0 :: l => (if b1 then (if b0 then 2 else 3) else (if b0 then 1 else 0)) :: graySyms l
  | _ => []

/-- The bit pairs of symbols, b1 first (R28). -/
def grayBits : List Nat → List Bool
  | [] => []
  | n :: l => decide (2 ≤ n) :: decide (n = 1 ∨ n = 2) :: grayBits l

/-- Precoding: t(n) = (s(n) − t(n−1)) mod 4 (R29). -/
def precode : Nat → List Nat → List Nat
  | _, [] => []
  | t, n :: l => let o := (n + 4 - t % 4) % 4; o :: precode o l

/-- The receiver's s(n) = (t(n) + t(n−1)) mod 4 (R29). -/
def unprecode : Nat → List Nat → List Nat
  | _, [] => []
  | t, n :: l => (n + t) % 4 :: unprecode n l

/-- The symbol whose Gray pair has b0 inverted (R58). -/
def flipB0 (n : Nat) : Nat := if n = 0 then 1 else if n = 1 then 0 else if n = 2 then 3 else 2

/-- Inverted polarity: every level negated. -/
def negSyms (l : List Nat) : List Nat := l.map fun n => 3 - n

/-- The bits of bytes, most significant first (R67). -/
def msbBits (bytes : List Nat) : List Bool := (bytes.map fun b => (List.range 8).map fun i => b.testBit (7 - i)).flatten

/-- Bytes from bits, most significant first. -/
def bitsBytes : List Bool → List Nat
  | a :: b :: c :: d :: e :: f :: g :: h :: l =>
    [a, b, c, d, e, f, g, h].foldl (fun n x => 2 * n + x.toNat) 0 :: bitsBytes l
  | _ => []

/-! ### Markers (R31 to R34) -/

/-- The 32 bits of symbols 16 to 31 of a marker: identity, control field, check (R31). -/
def markerWord (tx : Bool) (g l ctl : Nat) : BitVec 32 :=
  let id := tx.toNat * 128 + g * 16 + l
  BitVec.ofNat 32 (id * 2 ^ 24 + ctl % 2 ^ 16 * 2 ^ 8 + crc8 [id, ctl / 256 % 256, ctl % 256])

/-- The fields of such a word, and whether its check is correct. -/
def markerId (w : BitVec 32) : Nat := w.toNat / 2 ^ 24
def markerField (w : BitVec 32) : Nat := w.toNat / 2 ^ 8 % 2 ^ 16
def markerGood (w : BitVec 32) : Bool :=
  decide (w.toNat % 256 = crc8 [markerId w, markerField w / 256, markerField w % 256])

/-- The symbols of a marker on a lane (R31): comma run, identity, control field and check. -/
def markerSyms (tx : Bool) (g l ctl : Nat) : List Nat :=
  List.replicate 8 3 ++ List.replicate 8 0 ++ graySyms (msbBits (bytesBE 4 (markerWord tx g l ctl).toNat))

/-- The value that most of a list carry; the first of them in the list when two do (R34). -/
def majority (l : List Nat) : Option Nat :=
  l.foldl (fun best v =>
    match best with
    | none => some v
    | some b => if l.count b < l.count v then some v else some b) none

/-! ### Test patterns (R57) -/

/-- Length of a pattern's register: PRBS7, PRBS13, PRBS31; 0 for a code that names no PRBS. -/
def prbsLen (sel : Nat) : Nat := if sel = 1 then 7 else if sel = 2 then 13 else if sel = 3 then 31 else 0

/-- The next bit of a PRBS: x^7 + x^6 + 1, x^13 + x^12 + x^2 + x + 1, x^31 + x^28 + 1 (PRESUMED, assumption 25). -/
def prbsBit (sel r : Nat) : Bool :=
  if sel = 1 then r.testBit 6 ^^ r.testBit 5
  else if sel = 2 then r.testBit 12 ^^ r.testBit 11 ^^ r.testBit 1 ^^ r.testBit 0
  else r.testBit 30 ^^ r.testBit 27

/-- The register after a bit. -/
def prbsShift (sel r : Nat) (b : Bool) : Nat := (2 * r + b.toNat) % 2 ^ prbsLen sel

/-- `n` bits of a PRBS; a register of zeros starts from ones. -/
def prbsBits (sel : Nat) : Nat → Nat → List Bool × Nat
  | 0, r => ([], r)
  | n + 1, r =>
    let r := if r % 2 ^ prbsLen sel = 0 then 2 ^ prbsLen sel - 1 else r
    let b := prbsBit sel r
    let p := prbsBits sel n (prbsShift sel r b)
    (b :: p.1, p.2)

/-- A checker after received bits: its register, the bits that it has loaded, and the errors (R57). It loads the register
from the stream and then compares (assumption 25). -/
def checkBits (sel : Nat) : List Bool → Nat → Nat → Nat → Nat × Nat × Nat
  | [], r, got, err => (r, got, err)
  | b :: l, r, got, err =>
    if got < prbsLen sel then checkBits sel l (prbsShift sel r b) (got + 1) err
    else
      let p := prbsBit sel r
      checkBits sel l (prbsShift sel r p) got (if p = b then err else err + 1)

/-- Symbol `i` of the square wave: four UI at +3, four at −3 (assumption 25). -/
def squareSym (i : Nat) : Nat := if i % 8 < 4 then 3 else 0

/-- Symbol `i` of the 32-bit user pattern, bit 31 first (R63). -/
def userSym (w : Nat) (i : Nat) : Nat :=
  (graySyms [w.testBit (31 - 2 * (i % 16)), w.testBit (30 - 2 * (i % 16))]).headD 0

end Sys2Proof.Machine
end

