-- ==== Sys2Proof/Machine/Lanes.lean ====
section
/-! DEFINITION. The lanes of the Dravfaic Link: lane groups, training states, the width of a direction and hitless
sparing (R26 to R64, R68, R69, R91, R94). Directions are `Dir.rx`, host to stack, and `Dir.tx`, stack to host. -/

namespace Sys2Proof.Machine

/-- Lane groups of a direction. -/
def groups : List Nat := [0, 1, 2, 3, 4, 5, 6, 7]

/-- Lanes of a group. -/
def lanesOfGroup : List Nat := [0, 1, 2, 3, 4, 5, 6, 7, 8, 9]

/-- The place of a direction's data in per-direction maps. -/
def dirIx (d : Dir) : Nat := match d with | .rx => 0 | .tx => 1

/-- Frame length in UI at a width step (R48, R66). -/
def frameUI (step : Nat) : Nat := 160 * 2 ^ step

/-- Active groups at a width step: 8, 4, 2 or 1. -/
def stepGroups (step : Nat) : Nat := 8 / 2 ^ step

namespace State

/-! ### Group and lane fields of both pages -/

def grpStat (_ : State) (d : Dir) (g : Nat) : Nat :=
  match d with | .rx => R.RXG_GRP_STAT g | .tx => R.TXG_GRP_STAT g

/-- Training state code of a group. STATE, SPARE and RETIRED have the same places in both pages. -/
def grpState (s : State) (d : Dir) (g : Nat) : Nat := s.fld (s.grpStat d g) F.RXG_GRP_STAT_STATE
def setGrpState (s : State) (d : Dir) (g n : Nat) : State := s.put (s.grpStat d g) F.RXG_GRP_STAT_STATE n
def spareLane (s : State) (d : Dir) (g : Nat) : Nat := s.fld (s.grpStat d g) F.RXG_GRP_STAT_SPARE
def setSpare (s : State) (d : Dir) (g n : Nat) : State := s.put (s.grpStat d g) F.RXG_GRP_STAT_SPARE n
def retiredLane (s : State) (d : Dir) (g l : Nat) : Bool := s.bit (s.grpStat d g) F.RXG_GRP_STAT_RETIRED l

def parked (s : State) (d : Dir) (g : Nat) : Bool :=
  match d with
  | .rx => s.on (R.RXG_GRP_STAT g) F.RXG_GRP_STAT_PARKED
  | .tx => s.on (R.TXG_GRP_STAT g) F.TXG_GRP_STAT_PARKED

def setParked (s : State) (d : Dir) (g : Nat) (b : Bool) : State :=
  match d with
  | .rx => s.flag (R.RXG_GRP_STAT g) F.RXG_GRP_STAT_PARKED b
  | .tx => s.flag (R.TXG_GRP_STAT g) F.TXG_GRP_STAT_PARKED b

def parkAllow (s : State) (d : Dir) (g : Nat) : Bool :=
  match d with
  | .rx => s.on (R.RXG_GRP_CTL g) F.RXG_GRP_CTL_PARK_ALLOW
  | .tx => s.on (R.TXG_GRP_CTL g) F.TXG_GRP_CTL_PARK_ALLOW

def stale (s : State) (d : Dir) (g : Nat) : Bool :=
  match d with | .rx => s.on (R.RXG_GRP_STAT g) F.RXG_GRP_STAT_STALE | .tx => false

/-- The data-carrying lanes of a group in rank order (R68). -/
def dataLanes (s : State) (d : Dir) (g : Nat) : List Nat :=
  SMap.get (fun _ => [0, 1, 2, 3, 4, 5, 6, 7, 8]) s.link.lanes (8 * dirIx d + g)

def setDataLanes (s : State) (d : Dir) (g : Nat) (l : List Nat) : State :=
  { s with link := { s.link with
      lanes := SMap.set (fun _ => [0, 1, 2, 3, 4, 5, 6, 7, 8]) (8 * dirIx d + g) l s.link.lanes } }

/-- The state code of the link (R44). -/
def linkState (s : State) : Nat := s.fld R.LINK_LL_STAT F.LINK_LL_STAT_LINK_STATE

/-- The link is ACTIVE. -/
def linkActive (s : State) : Bool := decide (s.linkState = 7)

/-- The request that the next markers of a transmit group carry (R34). -/
def setCtl (s : State) (g code arg : Nat) : State :=
  { s with link := { s.link with ctl := SMap.set (fun _ => 0) g (code * 4096 + arg) s.link.ctl } }

/-- The answer that the next markers of a transmit group carry (R34); 0 for none. -/
def setAck (s : State) (g code arg : Nat) : State :=
  { s with link := { s.link with ack := SMap.set (fun _ => 0) g (code * 4096 + arg) s.link.ack } }

/-- The lanes raise an event that no level source carries (R44, R54; assumption 98). -/
def raiseEvent (s : State) (page lane : Nat) : State :=
  { s with link := { s.link with raised := s.link.raised ++ [(page, lane)] } }

/-! ### Symbols on transmit lanes (R28 to R31, R58, R63) -/

/-- Put symbols on a transmit lane: waiting injections invert b0, and POL_INV the levels (R58, R63). -/
def emit (s : State) (g l : Nat) (syms : List Nat) : State :=
  let key := 10 * g + l
  let n := SMap.get (fun _ => 0) s.link.inject key
  let out := (syms.take n).map flipB0 ++ syms.drop n
  let out := if s.on (R.TXG_TXL_CTL g l) F.TXG_TXL_CTL_POL_INV then negSyms out else out
  { s with link := { s.link with
      inject := SMap.set (fun _ => 0) key (n - syms.length) s.link.inject
      symOut := SMap.upd (fun _ => []) key (· ++ out) s.link.symOut } }

/-- A transmit lane drives nothing any more. -/
def quiet (s : State) (g l : Nat) : State :=
  { s with link := { s.link with symOut := SMap.set (fun _ => []) (10 * g + l) [] s.link.symOut } }

/-- Drive symbols on a transmit lane, and on the spare that shadows it a symbol-exact copy, with the scrambler and the last
symbol that go with it (R53). -/
def drive (s : State) (g l : Nat) (syms : List Nat) : State :=
  let s := s.emit g l syms
  match SMap.get (fun _ => none) s.link.shadowTx g with
  | some x =>
    let sp := 10 * g + s.spareLane .tx g
    if x.lane = l ∧ !x.switched then
      { s with link := { s.link with
          scrambler := SMap.set (fun _ => 0) sp (SMap.get (fun _ => 0) s.link.scrambler (10 * g + l)) s.link.scrambler
          lastSym := SMap.set (fun _ => 0) sp (SMap.get (fun _ => 0) s.link.lastSym (10 * g + l)) s.link.lastSym } }.emit
        g (s.spareLane .tx g) syms
    else s
  | none => s

/-- Scramble, map and precode a transmit lane's bits: its symbols, with the scrambler and the last symbol kept (R28, R29). -/
def laneSyms (s : State) (g l last : Nat) (bits : List Bool) : List Nat × State :=
  let key := 10 * g + l
  let sc := scramble (SMap.get (fun _ => 0) s.link.scrambler key) bits
  let syms := graySyms sc.1
  let syms := if s.link.precodeTx then precode last syms else syms
  (syms, { s with link := { s.link with
      scrambler := SMap.set (fun _ => 0) key sc.2 s.link.scrambler
      lastSym := SMap.set (fun _ => 0) key (syms.getLastD 0) s.link.lastSym } })

/-- A block on a transmit lane: a marker, then scrambled bits (R30, R31). -/
def blockSyms (s : State) (g l ctl : Nat) (bits : List Bool) : List Nat × State :=
  let r := s.laneSyms g l 0 bits
  (markerSyms true g l ctl ++ r.1, r.2)

/-- A burst of four blocks of 512 UI of a transmit group: EXIT markers number their blocks (R49, R50). Idle is zeros
(assumption 99). -/
def laneBurst (s : State) (g code : Nat) : State :=
  let c := fun (n : Nat) => code * 4096 + (if code = 10 then n else 0)
  let s := (s.dataLanes .tx g).foldl (fun t l =>
    let r := [0, 1, 2, 3].foldl (fun (x : List Nat × State) n =>
      let y := x.2.blockSyms g l (c n) (List.replicate 960 false)
      (x.1 ++ y.1, y.2)) ([], t)
    (r.2.quiet g l).emit g l r.1) s
  { s with link := { s.link with markers := SMap.set (fun _ => 0) g (c 3) s.link.markers } }

/-! ### Usable groups and width (R45, R68, R69) -/

/-- A parked group that both pages release is powered off: the manual allows it, and this stack does it (DESIGN CHOICE,
R22, R51). It powers up when its direction needs it again. -/
def groupOff (s : State) (d : Dir) (g : Nat) : Bool :=
  s.parked d g && s.on (R.TXG_GRP_CTL g) F.TXG_GRP_CTL_RELEASE && s.on (R.RXG_GRP_CTL g) F.RXG_GRP_CTL_RELEASE
    && !s.link.wake.contains (8 * dirIx d + g)

/-- A group is usable: trained, not STALE, with nine data-carrying lanes (R69). -/
def usable (s : State) (d : Dir) (g : Nat) : Bool :=
  s.bit R.LINK_GROUP_USABLE (match d with | .rx => F.LINK_GROUP_USABLE_RX_USABLE | .tx => F.LINK_GROUP_USABLE_TX_USABLE) g

def setUsable (s : State) (d : Dir) (g : Nat) (b : Bool) : State :=
  s.setBit R.LINK_GROUP_USABLE
    (match d with | .rx => F.LINK_GROUP_USABLE_RX_USABLE | .tx => F.LINK_GROUP_USABLE_TX_USABLE) g b

/-- A sparing runs in the group (R55). -/
def sparingRuns (s : State) (d : Dir) (g : Nat) : Bool :=
  match d with
  | .rx => let p := s.fld (R.RXG_SPARE_STAT g) F.RXG_SPARE_STAT_PHASE; decide (1 ≤ p ∧ p ≤ 5)
  | .tx => s.on (R.TXG_GRP_STAT g) F.TXG_GRP_STAT_SHADOW

/-- Groups of a direction that are never parked now: PARK_ALLOW clear, or a sparing runs (R69, R91). -/
def mustRun (s : State) (d : Dir) : List Nat :=
  groups.filter fun g => s.usable d g && (!s.parkAllow d g || s.sparingRuns d g)

/-- Usable groups of a direction. -/
def usableGroups (s : State) (d : Dir) : List Nat := groups.filter (s.usable d)

/-- The groups that a width of `n` groups takes: those that must run, then the lowest-numbered others (R69). -/
def pickGroups (s : State) (d : Dir) (n : Nat) : List Nat :=
  let must := (s.mustRun d).take n
  let take := ((s.usableGroups d).filter fun g => !(s.mustRun d).contains g).take (n - must.length)
  groups.filter fun g => must.contains g || take.contains g

/-- How many groups no width may be smaller than: those with PARK_ALLOW 0, and those in which a sparing runs (R69, R91). -/
def leastGroups (s : State) (d : Dir) : Nat :=
  (groups.filter fun g => !s.parkAllow d g || (s.usable d g && s.sparingRuns d g)).length

/-- The groups of a direction at a width step, none when the step is not available (R69). -/
def groupsAt (s : State) (d : Dir) (step : Nat) : Option (List Nat) :=
  let n := stepGroups step
  if n < s.leastGroups d ∨ (s.usableGroups d).length < n then none else some (s.pickGroups d n)

/-- The step used for a wanted one: it, else the next wider available, else the next narrower (R69). -/
def availStep (s : State) (d : Dir) (want : Nat) : Option Nat :=
  let ok := fun n => (s.groupsAt d n).isSome
  match ((List.range (want + 1)).reverse.find? ok) with
  | some n => some n
  | none => ([0, 1, 2, 3].filter (want < ·)).find? ok

def curStep (s : State) (d : Dir) : Nat :=
  match d with
  | .rx => s.fld R.LINK_WIDTH_STAT F.LINK_WIDTH_STAT_RX_STEP
  | .tx => s.fld R.LINK_WIDTH_STAT F.LINK_WIDTH_STAT_TX_STEP

def activeGroups (s : State) (d : Dir) : List Nat :=
  let m := match d with
    | .rx => s.fld R.LINK_WIDTH_STAT F.LINK_WIDTH_STAT_RX_GROUPS
    | .tx => s.fld R.LINK_WIDTH_STAT F.LINK_WIDTH_STAT_TX_GROUPS
  groups.filter m.testBit

/-- A lane may be the reference: a non-spare, non-retired data lane, which a lane that a sparing has switched out no longer
is (R39, R40). -/
def mayRef (s : State) (g l : Nat) : Bool :=
  decide (l ≠ s.spareLane .rx g) && !s.retiredLane .rx g l && (s.dataLanes .rx g).contains l

/-- The reference lane by rule: the lowest non-spare, non-retired lane of the lowest-numbered active receive group (R39). -/
def refLane (s : State) : Option (Nat × Nat) :=
  match (s.activeGroups .rx).head? with
  | none => none
  | some g => (lanesOfGroup.find? (s.mayRef g)).map fun l => (g, l)

/-- The transmitter takes a reference lane, or none; CLK_REF marks its group (R39). -/
def setRef (s : State) (r : Option (Nat × Nat)) : State :=
  let s := { s with link := { s.link with ref := r } }
  groups.foldl (fun t g => t.flag (R.RXG_GRP_STAT g) F.RXG_GRP_STAT_CLK_REF (decide (r.map Prod.fst = some g))) s

/-- The link clock monitor stops: its count of bad windows ends (R346). -/
def monStop (s : State) : State := { s with clk := { s.clk with linkBad := 0 } }

/-- The transmitter is loop-timed or on the local PLL, as every TXG page reports (R39, R41). -/
def setLoopTimed (s : State) (b : Bool) : State :=
  groups.foldl (fun t g => t.flag (R.TXG_GRP_STAT g) F.TXG_GRP_STAT_LOOP_TIMED b) s.monStop

def loopTimed (s : State) : Bool := s.on (R.TXG_GRP_STAT 0) F.TXG_GRP_STAT_LOOP_TIMED

/-- The reference lane after a change of the active receive groups: when its group is parked the link PLL holds, and
otherwise the rule names it (R39, R40). -/
def widthRef (s : State) : State :=
  match s.link.ref with
  | some r =>
    if s.linkActive && s.loopTimed && !(s.activeGroups .rx).contains r.1 then
      { s with clk := { s.clk with holdover := true } }.monStop
    else s.setRef s.refLane
  | none => s.setRef s.refLane

/-- A transmit group enters electrical idle: its last marker carries EIDLE (R47). -/
def sendEidle (s : State) (g : Nat) : State :=
  let s := (s.dataLanes .tx g).foldl (fun t l => t.drive g l (markerSyms true g l (9 * 4096))) s
  { s with link := { s.link with markers := SMap.set (fun _ => 0) g (9 * 4096) s.link.markers } }

/-- A group stops or starts carrying frames (R47, R48). -/
def parkGroup (s : State) (d : Dir) (gs : List Nat) (g : Nat) : State :=
  if gs.contains g then s.setParked d g false
  else if !s.usable d g || s.parked d g then s
  else match d with
    | .rx => s.setParked .rx g true
    | .tx => (s.setParked .tx g true).sendEidle g

/-- Take a width step with its groups: WIDTH_STAT, and parking of the other trained groups (R48, R92). -/
def takeWidth (s : State) (d : Dir) (step : Nat) (gs : List Nat) : State :=
  let m := gs.foldl (fun n g => n + 2 ^ g) 0
  let s := match d with
    | .rx => (s.put R.LINK_WIDTH_STAT F.LINK_WIDTH_STAT_RX_STEP step).put R.LINK_WIDTH_STAT F.LINK_WIDTH_STAT_RX_GROUPS m
    | .tx => (s.put R.LINK_WIDTH_STAT F.LINK_WIDTH_STAT_TX_STEP step).put R.LINK_WIDTH_STAT F.LINK_WIDTH_STAT_TX_GROUPS m
  let s := groups.foldl (fun t g => t.parkGroup d gs g) s
  let s := { s with link := { s.link with wake := s.link.wake.filter fun k => decide (k / 8 ≠ dirIx d) } }
  match d with | .rx => s.widthRef | .tx => s

/-- The step that a direction should have: the widest of the software target or the automatic step and the host's
floor (R91), before R69. -/
def wantedStep (s : State) (d : Dir) : Nat :=
  let target := match d with
    | .rx => s.fld R.LINK_WIDTH_CTL F.LINK_WIDTH_CTL_RX_TARGET
    | .tx => s.fld R.LINK_WIDTH_CTL F.LINK_WIDTH_CTL_TX_TARGET
  let auto := match d with
    | .rx => s.on R.LINK_WIDTH_CTL F.LINK_WIDTH_CTL_RX_AUTO
    | .tx => s.on R.LINK_WIDTH_CTL F.LINK_WIDTH_CTL_TX_AUTO
  let floor := match d with
    | .rx => s.fld R.LINK_WIDTH_STAT F.LINK_WIDTH_STAT_HOST_FLOOR_RX
    | .tx => s.fld R.LINK_WIDTH_STAT F.LINK_WIDTH_STAT_HOST_FLOOR_TX
  let a := if auto then min target (SMap.get (fun _ => 0) s.link.autoStep (dirIx d)) else target
  if s.on R.LINK_WIDTH_CTL F.LINK_WIDTH_CTL_HOST_REQ_EN then min a floor else a

def widthBusy (s : State) (d : Dir) : Bool :=
  match d with
  | .rx => s.on R.LINK_WIDTH_STAT F.LINK_WIDTH_STAT_RX_BUSY
  | .tx => s.on R.LINK_WIDTH_STAT F.LINK_WIDTH_STAT_TX_BUSY

/-- The groups that a running change switches to: those of the step as things stand, so that a group in which a sparing has
begun stays active, where each of them carries frames or is ready to; else those that the change began with. None when the
step is no longer available (R69, R91, R94). -/
def switchSet (s : State) (d : Dir) (n : Nat) : Option (List Nat) :=
  (s.groupsAt d n).map fun gs =>
    if gs.all fun g => (s.activeGroups d).contains g || s.link.ready.contains (8 * dirIx d + g) then gs
    else SMap.get (fun _ => []) s.link.widthSet (dirIx d)

/-- A width change of a direction begins: its groups are fixed, powered-off joining groups power up, and on the transmit
side the other joining groups get their exit bursts (R92). -/
def startWidth (s : State) (d : Dir) (n : Nat) : State :=
  let gs := (s.groupsAt d n).getD []
  let joined := gs.filter fun g => !(s.activeGroups d).contains g
  let off := joined.filter (s.groupOff d)
  let s := { s with link := { s.link with
      widthTo := SMap.set (fun _ => none) (dirIx d) (some n) s.link.widthTo
      widthSet := SMap.set (fun _ => []) (dirIx d) gs s.link.widthSet
      wake := off.map (8 * dirIx d + ·) ++ s.link.wake } }
  match d with
  | .rx => { s.flag R.LINK_WIDTH_STAT F.LINK_WIDTH_STAT_RX_BUSY true with link := { s.link with hostCmd := some n } }
  | .tx =>
    let s := { s.flag R.LINK_WIDTH_STAT F.LINK_WIDTH_STAT_TX_BUSY true with link := { s.link with widthCount := 0 } }
    (joined.filter fun g => !off.contains g).foldl (fun t g => t.laneBurst g 10) s

/-- Decide the width of a direction (R91, R94): when the decided step is not the current one, or its groups are not the active
ones (R69, assumption 124), and no change runs, the change starts. For host to stack the host's transmitter is commanded by
W_REQ; for stack to host the countdown follows in the next frames. -/
def decideWidth (s : State) (d : Dir) : State :=
  if !s.linkActive || s.widthBusy d then s
  else match s.availStep d (s.wantedStep d) with
    | none => s
    | some n => if n = s.curStep d ∧ s.groupsAt d n = some (s.activeGroups d) then s else s.startWidth d n

/-- A running change of a direction ends without its switch, and the width is decided anew. -/
def dropChange (s : State) (d : Dir) : State :=
  let s := s.flag R.LINK_WIDTH_STAT
    (match d with | .rx => F.LINK_WIDTH_STAT_RX_BUSY | .tx => F.LINK_WIDTH_STAT_TX_BUSY) false
  let l := s.link
  let l := { l with widthTo := SMap.set (fun _ => none) (dirIx d) none l.widthTo }
  let l := match d with | .rx => { l with hostCmd := none } | .tx => { l with widthCount := 0 }
  { s with link := l }.decideWidth d

/-- The width of a direction after a sparing has begun or ended there: a change to a step that is no longer available ends
unless its countdown runs, and the width is decided anew (R91, R94). -/
def sparingWidth (s : State) (d : Dir) : State :=
  let counting := match d with | .rx => s.link.rxSwitch.isSome | .tx => decide (0 < s.link.widthCount)
  match SMap.get (fun _ => none) s.link.widthTo (dirIx d) with
  | some n => if (s.groupsAt d n).isNone && !counting then s.dropChange d else s
  | none => s.decideWidth d

/-! ### Training (R44 to R46) -/

/-- A group takes the link's state, but for a group in TEST and for a group in OFF, which joins when training starts
from DETECT (R44). Outside ACTIVE no group is parked: every group trains, or none does (R44, R48). -/
def groupTo (s : State) (was n : Nat) (d : Dir) (g : Nat) : State :=
  let c := s.grpState d g
  if c = 9 ∨ (c = 0 ∧ was ≠ 0 ∧ 1 < n) then s
  else (if n = 7 then s else s.setParked d g false).setGrpState d g n

/-- No lane holds a lock and no group is trained, outside a training that has got there (R32, R69). -/
def clearTrained (s : State) : State :=
  let s := groups.foldl (fun t g =>
    let t := ((t.flag (R.RXG_GRP_STAT g) F.RXG_GRP_STAT_MARKER_LOCK false).setUsable .rx g false).setUsable .tx g false
    lanesOfGroup.foldl (fun u l =>
      (u.flag (R.RXG_RXL_STAT g l) F.RXG_RXL_STAT_CDR_LOCK false).flag (R.RXG_RXL_STAT g l) F.RXG_RXL_STAT_MARK_LOCK false) t) s
  { s.setRef none with link := { s.link with
      ref := none, eqReady := false, markGood := [], markBad := [], hostTrain := [], hostParam := [], paramSeen := [] } }

/-- Put the link and every group that trains with it into a state. -/
def setLinkState (s : State) (n : Nat) : State :=
  let was := s.linkState
  let s := groups.foldl (fun (t : State) g => (t.groupTo was n .rx g).groupTo was n .tx g)
    (s.monStop.put R.LINK_LL_STAT F.LINK_LL_STAT_LINK_STATE n)
  if n ≤ 2 then s.clearTrained else s

/-- The failing lane is retired and the group has no spare (R53). -/
def laneRetired (s : State) (d : Dir) (g lane : Nat) : State :=
  let s := (s.setBit (s.grpStat d g) F.RXG_GRP_STAT_RETIRED lane true).setSpare d g 15
  match d with
  | .rx =>
    let s := lanesOfGroup.foldl (fun u i =>
      (u.flag (R.RXG_RXL_STAT g i) F.RXG_RXL_STAT_SHADOW false).flag (R.RXG_RXL_STAT g i) F.RXG_RXL_STAT_SPARE false) s
    let s := s.flag (R.RXG_RXL_STAT g lane) F.RXG_RXL_STAT_RETIRED true
    { s with link := { s.link with deadRx := (10 * g + lane) :: s.link.deadRx } }
  | .tx => { s with link := { s.link with deadTx := (10 * g + lane) :: s.link.deadTx } }

/-- A receive sparing that has switched is done: its lane is retired, which raises the lane-spared event (R53, R298). -/
def spareTaken (s : State) (g : Nat) : State :=
  let l := s.fld (R.RXG_SPARE_STAT g) F.RXG_SPARE_STAT_LANE
  ((s.laneRetired .rx g l).put (R.RXG_SPARE_STAT g) F.RXG_SPARE_STAT_PHASE 0).raiseEvent (0x088 + g) l

/-- A transmit lane that its spare has replaced is retired. -/
def txTaken (s : State) (g : Nat) : State :=
  match SMap.get (fun _ => none) s.link.shadowTx g with
  | some x => if x.switched then s.laneRetired .tx g x.lane else s
  | none => s

/-- Every sparing ends: RECOVER or a training does that (R55). A lane that the spare has replaced stays out (R298), the others
end as aborted. -/
def abortSparings (s : State) : State :=
  groups.foldl (fun t g =>
    let p := t.fld (R.RXG_SPARE_STAT g) F.RXG_SPARE_STAT_PHASE
    let t := if p = 5 then t.spareTaken g
      else if 1 ≤ p ∧ p ≤ 4 then t.put (R.RXG_SPARE_STAT g) F.RXG_SPARE_STAT_PHASE 6 else t
    let t := (t.txTaken g).flag (R.TXG_GRP_STAT g) F.TXG_GRP_STAT_SHADOW false
    lanesOfGroup.foldl (fun u l => u.flag (R.RXG_RXL_STAT g l) F.RXG_RXL_STAT_SHADOW false)
      { t with link := { t.link with shadowTx := SMap.set (fun _ => none) g none t.link.shadowTx } })
    { s with link := { s.link with ctl := [], ack := [] } }

/-- No width change runs any more. -/
def dropWidthChange (s : State) : State :=
  let s := (s.flag R.LINK_WIDTH_STAT F.LINK_WIDTH_STAT_RX_BUSY false).flag R.LINK_WIDTH_STAT F.LINK_WIDTH_STAT_TX_BUSY false
  { s with link := { s.link with
      widthTo := [], widthSet := [], widthCount := 0, hostCmd := none, rxSwitch := none, rxCount := 0 } }

/-- Lanes of a direction that are out for good or out of this training. -/
def laneBad (s : State) (d : Dir) (g l : Nat) : Bool :=
  match d with
  | .rx => s.link.badRx.contains (10 * g + l) || s.link.deadRx.contains (10 * g + l)
  | .tx => s.link.badTx.contains (10 * g + l) || s.link.deadTx.contains (10 * g + l)

/-- Lanes of a group that are out. -/
def badLanes (s : State) (d : Dir) (g : Nat) : List Nat := lanesOfGroup.filter (s.laneBad d g)

/-- A receive spare that R398 has retired. -/
def loopOut (s : State) (d : Dir) (g : Nat) : Bool := decide (d = .rx) && s.bist.loopOut.contains g

/-- The spare lane that SPARE_CFG asks for (R52, R64). -/
def spareCfg (s : State) (g : Nat) : Nat :=
  let c := s.fld (R.RXG_SPARE_CFG g) F.RXG_SPARE_CFG_SPARE_LANE
  if 9 < c then 9 else c

/-- The spare lane that PARAM gave a group, lane 9 before (R52). -/
def paramSpare (s : State) (d : Dir) (g : Nat) : Nat := SMap.get (fun _ => 9) s.link.spares (8 * dirIx d + g)

/-- Show a group's retired lanes and its spare (R44). -/
def showLanes (s : State) (d : Dir) (g : Nat) (bad : List Nat) (sp : Nat) : State :=
  let s := (s.put (s.grpStat d g) F.RXG_GRP_STAT_RETIRED (bad.foldl (fun n l => n + 2 ^ l) 0)).setSpare d g sp
  match d with
  | .tx => s
  | .rx => lanesOfGroup.foldl (fun u l =>
      (u.flag (R.RXG_RXL_STAT g l) F.RXG_RXL_STAT_RETIRED (bad.contains l)).flag
        (R.RXG_RXL_STAT g l) F.RXG_RXL_STAT_SPARE (decide (l = sp))) s

/-- The RETIRED bits, the spare and the data-carrying lanes of a group after the lanes that training retired (R44): the
spare takes the place of a retired lane; a retired spare leaves the group without one, and so does a receive spare that R398
has retired. Ranks follow the lane numbers (R68). -/
def placeGroup (s : State) (d : Dir) (g : Nat) : State :=
  let bad := s.badLanes d g
  let good := lanesOfGroup.filter fun l => !bad.contains l
  let sp := s.paramSpare d g
  let out := s.loopOut d g
  (s.showLanes d g bad (if bad.length = 0 ∧ !out then sp else 15)).setDataLanes d g
    (if bad.length = 0 ∨ out then good.filter (· ≠ sp) else good)

/-- Place the spares of a direction. RECOVER leaves a group as it is in which no lane has failed meanwhile: its lanes keep
their ranks (R68). -/
def placeSpares (s : State) (d : Dir) : State :=
  groups.foldl (fun t g =>
    if t.linkState = 8 ∧ t.badLanes d g = lanesOfGroup.filter (t.retiredLane d g) ∧ (t.spareLane d g = 15 ∨ !t.loopOut d g) then t
    else t.placeGroup d g) s

/-- Which groups are usable, from their lanes (R69). -/
def findUsable (s : State) (d : Dir) : State :=
  groups.foldl (fun t g =>
    t.setUsable d g (decide ((t.dataLanes d g).length = 9) && !t.stale d g && !t.link.noGroup.contains (8 * dirIx d + g)
      && decide (t.grpState d g ≠ 9 ∧ t.grpState d g ≠ 0))) s

/-- Start training from a state (1 DETECT, 2 COARSE): on the local PLL, sparings aborted, the attempts counted afresh
(R41, R44, R55). RETRAINS counts trainings after the first (R97). -/
def startTraining (s : State) (from_ : Nat) : State :=
  let s := if s.link.trained then s.inc R.LINK_RETRAINS else s
  let s := (s.abortSparings.dropWidthChange.setLoopTimed false).setLinkState from_
  let s := if from_ = 1 then
      { s with bist := { s.bist with loopOut := [] }, link := { s.link with deadRx := [], deadTx := [], fresh := true } }
    else s
  let s := { s with link := { s.link with
      attempts := 0, failed := false, trained := true, badRx := [], badTx := [],
      hostTrain := [], hostParam := [], paramSeen := [], exits := [], ready := [] } }
  (s.placeSpares .rx).placeSpares .tx

/-- Enter RECOVER from ACTIVE (R44 state 8, R97 RECOVERS): markers are locked again there. -/
def enterRecover (s : State) : State :=
  if s.linkActive then
    let s := ((s.abortSparings.dropWidthChange).setLinkState 8).inc R.LINK_RECOVERS
    let s := groups.foldl (fun t g =>
      lanesOfGroup.foldl (fun u l => u.flag (R.RXG_RXL_STAT g l) F.RXG_RXL_STAT_MARK_LOCK false)
        (t.flag (R.RXG_GRP_STAT g) F.RXG_GRP_STAT_MARKER_LOCK false)) s
    { s with link := { s.link with ref := none, markGood := [], markBad := [], exits := [], ready := [], recoverDue := false } }
  else s

/-- Widest step that the usable groups of a direction fill, with the groups that carry it (R45, R69). -/
def widest (s : State) (d : Dir) : Option (Nat × List Nat) :=
  ([0, 1, 2, 3].find? fun n => decide (stepGroups n ≤ (s.usableGroups d).length)).map fun n => (n, s.pickGroups d (stepGroups n))

/-- An attempt fails: back to COARSE, on the local PLL, with the lanes that passed; after the fourth the training-failure event
is raised, the link waits in DETECT and a boot at step 12 counts as stalled (R41, R44, R363). -/
def attemptFails (s : State) : State :=
  let n := s.link.attempts + 1
  let s := { s with link := { s.link with attempts := n } }.setLoopTimed false
  if n < 4 then s.setLinkState 2
  else
    let s := { s with link := { s.link with failed := true } }.raiseEvent 0x00E 0
    let s := s.setLinkState 1
    if s.bootStep = 12 then s.flag R.CLK_BOOT_STAT F.CLK_BOOT_STAT_STALLED true else s

/-- Start or restart a replay at the oldest stored flit, whose SEQ is `start`; with nothing stored it ends at once (R80). -/
def startReplay (s : State) (start : BitVec 12) : State :=
  let s := { s with link := { s.link with replayAt := 0, hold := some start, replayNew := some start } }
  if s.link.stored.isEmpty then s.put R.LINK_LL_STAT F.LINK_LL_STAT_TX_STATE 0
  else s.put R.LINK_LL_STAT F.LINK_LL_STAT_TX_STATE 1

/-- A replay resends its first flit, so it counts; the REPLAY_MAX-th in a row from one SEQ requests RECOVER, which the link
enters after the frame (R80, R97). -/
def countReplay (s : State) : State :=
  match s.link.replayNew with
  | none => s
  | some q =>
    let n := if s.link.runSeq = q then s.link.runCount + 1 else 1
    let due := decide (max 1 (s.fld R.LINK_LL_CTL F.LINK_LL_CTL_REPLAY_MAX) ≤ n)
    let s := { s with link := { s.link with
        replayNew := none, runSeq := q, runCount := if due then 0 else n, recoverDue := s.link.recoverDue || due } }
    (s.inc R.LINK_REPLAYS).report 2 (resLinkDir true) 1 12

/-- When ACTIVE is entered again the transmitter starts in REPLAY from its oldest stored flit; ERROR stands (R90, R95). -/
def resumeReplay (s : State) : State :=
  match s.link.stored with
  | [] => s
  | f :: _ => if s.fld R.LINK_LL_STAT F.LINK_LL_STAT_TX_STATE = 3 then s else s.startReplay f.seq

/-- Enter ACTIVE: groups, widths, clocking and the link-layer state (R39, R41, R45, R95). Training fails when a direction
has no usable group. -/
def enterActive (s : State) : State :=
  let s := ((s.placeSpares .rx).placeSpares .tx)
  let s := (s.findUsable .rx).findUsable .tx
  match s.widest .rx, s.widest .tx with
  | some nr, some nt =>
    let s := (s.setLinkState 7).setLoopTimed (!s.on (R.TXG_GRP_CTL 0) F.TXG_GRP_CTL_LOCAL_TIMING)
    let s := { s with clk := { s.clk with holdover := false }, link := { s.link with ref := none } }
    let s := s.takeWidth .rx nr.1 nr.2
    let s := s.takeWidth .tx nt.1 nt.2
    let s := groups.foldl (fun t g =>
      t.flag (R.RXG_GRP_STAT g) F.RXG_GRP_STAT_MARKER_LOCK ((t.activeGroups .rx).contains g)) s
    let s := { s with link := { s.link with
        uiSince := 0, rxFlit := 0, rxUi := 0, ctl := [], ack := [], frozen := [], lastSym := [], rxLast := [] } }
    (s.resumeReplay.decideWidth .rx).decideWidth .tx
  | _, _ => s.attemptFails

/-- The lanes that a list names, as keys. -/
def laneKeys (l : List (Fin 8 × Fin 10)) : List Nat := l.map fun p => 10 * p.1.val + p.2.val

/-- Lanes that a state's check failed are out of this training, and a spare takes the place of each (R44). -/
def failLanes (s : State) (rx tx : List Nat) : State :=
  let s := { s with link := { s.link with badRx := s.link.badRx ++ rx, badTx := s.link.badTx ++ tx } }
  (s.placeSpares .rx).placeSpares .tx

/-- The receive groups that train with the link. -/
def trainGroups (s : State) : List Nat :=
  groups.filter fun g => decide (s.grpState .rx g = s.linkState) && decide ((s.badLanes .rx g).length < 10)

/-- Set a lane status bit on every receive lane of this training. -/
def lockLanes (s : State) (f : Fld) : State :=
  s.trainGroups.foldl (fun t g => lanesOfGroup.foldl (fun u l =>
    u.flag (R.RXG_RXL_STAT g l) f (!u.laneBad .rx g l)) t) s

/-- The last three markers of a run have a correct check and came within 1 UI (R32). -/
def markLock (r : MarkRun) : Bool :=
  let l := r.reverse.take 3
  decide (l.length = 3) && l.all fun m => markerGood m.2 && decide (-1 ≤ m.1 ∧ m.1 ≤ 1)

/-- The identity of the last marker of a run with a correct check, markers with a reserved code left out (R33, R34). -/
def markIdentity (r : MarkRun) : Option Nat :=
  (r.reverse.find? fun m => markerGood m.2 && decide (markerField m.2 / 4096 < 13)).map fun m => markerId m.2

/-- The markers of a lane do not meet R32 and R33: no lock, or the identity of another place. -/
def markFails (x : Fin 8 × Fin 10 × MarkRun) : Bool :=
  !markLock x.2.2 || decide (markIdentity x.2.2 ≠ some (16 * x.1.val + x.2.1.val))

/-- Receive lanes that fail MARK or RECOVER: those named, and those whose markers fail. -/
def markFailed (t : TrainIn) : List Nat :=
  laneKeys t.failRx ++ (t.marks.filter markFails).map fun x => 10 * x.1.val + x.2.1.val

/-- What the MARK state finds: locks, polarity, lane identities, skew (R32, R33, R46). A STALE group is relocked with the
others, for it rejoins through RECOVER (R50). -/
def markFound (s : State) (t : TrainIn) : State :=
  let s := s.lockLanes F.RXG_RXL_STAT_MARK_LOCK
  let s := s.trainGroups.foldl (fun u g => lanesOfGroup.foldl (fun v l =>
    let v := v.flag (R.RXG_RXL_CTL g l) F.RXG_RXL_CTL_POL_INV
      (t.inverted.any fun p => decide (p.1.val = g ∧ p.2.val = l))
    if v.laneBad .rx g l then v else v.put (R.RXG_RXL_STAT g l) F.RXG_RXL_STAT_LANE_ID (16 * g + l)) u) s
  let s := t.marks.foldl (fun u x =>
    match markIdentity x.2.2 with
    | none => u
    | some i => u.put (R.RXG_RXL_STAT x.1.val x.2.1.val) F.RXG_RXL_STAT_LANE_ID i) s
  let s := groups.foldl (fun u g => u.flag (R.RXG_GRP_STAT g) F.RXG_GRP_STAT_STALE false) s
  let s := t.skew.foldl (fun u p => u.put (R.RXG_GRP_STAT p.1.val) F.RXG_GRP_STAT_SKEW_UI p.2.toNat) s
  t.laneSkew.foldl (fun u p => u.put (R.RXG_RXL_STAT p.1.val p.2.1.val) F.RXG_RXL_STAT_SKEW p.2.2.toNat) s

/-- The bits that each receive lane's descrambler took in last (R28). -/
def takeLine (s : State) (g l : Nat) (r : BitVec 58) : State :=
  { s with link := { s.link with descr := SMap.set (fun _ => 0) (10 * g + l) r s.link.descr } }

/-- The stack's own PARAM argument for the receive group (R29, R34): its receiver requests precoding, and names its spare
and its timing. -/
def ownParam (s : State) (g : Nat) : Nat :=
  1 + 2 * s.paramSpare .rx g + 32 * (s.on (R.TXG_GRP_CTL 0) F.TXG_GRP_CTL_LOCAL_TIMING).toNat

/-- PARAM begins: the stack's spares are those that it announces (R52). -/
def enterParam (s : State) : State :=
  groups.foldl (fun (t : State) g =>
    { t with link := { t.link with spares := SMap.set (fun _ => 9) g (t.spareCfg g) t.link.spares } }) (s.setLinkState 5)

/-- The host has sent TRAIN with bit 4 set on every group that trains (R44). -/
def hostReady (s : State) : Bool :=
  !s.trainGroups.isEmpty && s.trainGroups.all fun g =>
    decide (SMap.get (fun _ => 0) s.link.hostTrain g % 32 = 16 + s.linkState)

/-- The host has sent PARAM twice with equal values on every group that trains (R44). -/
def paramDone (s : State) : Bool :=
  !s.trainGroups.isEmpty && s.trainGroups.all fun g => decide (2 ≤ SMap.get (fun _ => 0) s.link.paramSeen g)

/-- What PARAM agrees: precoding of each direction as its receiver requests, the host's spares, and loop timing unless
LOCAL_TIMING is set (R29, R41, R52). -/
def paramAgreed (s : State) : State :=
  let tx := s.trainGroups.any fun g => decide (SMap.get (fun _ => 0) s.link.hostParam g % 2 = 1)
  let s := { s with link := { s.link with precodeRx := true, precodeTx := tx } }
  let s := s.trainGroups.foldl (fun (t : State) g =>
    let c := SMap.get (fun _ => 0) t.link.hostParam g / 2 % 16
    { t with link := { t.link with spares := SMap.set (fun _ => 9) (8 + g) (if 9 < c then 9 else c) t.link.spares } }) s
  s.setLoopTimed (!s.on (R.TXG_GRP_CTL 0) F.TXG_GRP_CTL_LOCAL_TIMING)

/-- The groups whose lanes all could carry frames, from the lanes in training. -/
def detected (s : State) : Bool :=
  groups.any fun g => decide (s.grpState .rx g = 1)
    && decide (9 ≤ (lanesOfGroup.filter fun l => !s.laneBad .rx g l).length)

/-- EQ ends when both receivers are ready (R44). -/
def eqLeaves (s : State) : State := if s.linkState = 4 ∧ s.link.eqReady ∧ s.hostReady then s.enterParam else s

/-- The leave condition of the link's training state is met on the stack's side: the lanes that failed it are out, and the
next state begins (R44). EQ also waits for the host's readiness, and PARAM ends only when the host's values have come twice. -/
def trainingDone (s : State) (t : TrainIn) : State :=
  let n := s.linkState
  let rx := laneKeys t.failRx
  let tx := laneKeys t.failTx
  if n = 1 then
    if s.link.failed then s
    else let s := s.failLanes rx tx; if s.detected then s.setLinkState 2 else s
  else if n = 2 then ((s.failLanes rx tx).lockLanes F.RXG_RXL_STAT_CDR_LOCK).setLinkState 3
  else if n = 3 then ((s.failLanes (markFailed t) tx).markFound t).setLinkState 4
  else if n = 4 then
    let s := s.failLanes rx tx
    { s with link := { s.link with eqReady := true } }.eqLeaves
  else if n = 5 then if s.paramDone then ((s.failLanes rx tx).paramAgreed).setLinkState 6 else s
  else if n = 6 then
    (t.line.foldl (fun u x => u.takeLine x.1.val x.2.1.val x.2.2) (s.failLanes rx tx)).enterActive
  else if n = 8 then
    (t.line.foldl (fun u x => u.takeLine x.1.val x.2.1.val x.2.2)
      (((s.failLanes (markFailed t) tx).markFound t).lockLanes F.RXG_RXL_STAT_CDR_LOCK)).enterActive
  else s

/-- A training state times out (R44): the lanes that have not passed it are out. RECOVER goes on to COARSE, as a training whose
attempts count afresh, with the lanes that were in service and have passed; the others fail the attempt. -/
def trainingTimedOut (s : State) (t : TrainIn) : State :=
  let n := s.linkState
  if n = 8 then
    let u := s.startTraining 2
    { u with link := { u.link with badRx := s.link.badRx, badTx := s.link.badTx } }.failLanes (laneKeys t.failRx) (laneKeys t.failTx)
  else if 2 ≤ n ∧ n ≤ 6 then (s.failLanes (laneKeys t.failRx) (laneKeys t.failTx)).attemptFails
  else s

/-! ### Adaptation of the receivers (R36, R37) -/

/-- The register and the byte of a DFE tap. -/
def tapAddr (g l i : Nat) : Nat :=
  if i < 4 then R.RXG_RXL_DFE_A g l else if i < 8 then R.RXG_RXL_DFE_B g l else R.RXG_RXL_DFE_C g l

def tapFld (i : Nat) : Fld := ⟨8 * (i % 4), 8⟩

/-- Millivolts of a tap's register, a signed byte. -/
def tapMv (s : State) (g l i : Nat) : Int :=
  let n := s.fld (tapAddr g l i) (tapFld i)
  if n < 128 then (n : Int) else (n : Int) - 256

/-- Range of a tap: tap 1 ±127 mV, the others ±63 mV (R37). -/
def tapRange (i : Nat) : Int := if i = 0 then 127 else 63

def setTap (s : State) (g l i : Nat) (v : Int) : State := s.put (tapAddr g l i) (tapFld i) ((v + 256) % 256).toNat

/-- A tap moves by a net number of sign-sign LMS updates of 2^-(ADAPT_STEP+6) of full scale each (R37). -/
def lmsTap (s : State) (g l i : Nat) (n : Int) : State :=
  let key := 12 * (10 * g + l) + i
  let m : Rat := tapRange i
  let step : Rat := m / (2 ^ (s.fld (R.RXG_GRP_CTL g) F.RXG_GRP_CTL_ADAPT_STEP + 6) : Nat)
  let v : Rat := max (-m) (min m ((s.tapMv g l i : Rat) + SMap.get (fun _ => 0) s.link.tapRest key + n * step))
  let s := s.setTap g l i v.floor
  { s with link := { s.link with tapRest := SMap.set (fun _ => 0) key (v - v.floor) s.link.tapRest } }

/-- What adaptation moves on a receive lane: the CTLE where it adapts and is not overridden, the taps unless they are held
(R36, R37). -/
def takeAdapt (s : State) (g l : Nat) (a : Adapt) (ctle dfe : Bool) : State :=
  let c := R.RXG_RXL_CTL g l
  let s := match a.ctle with
    | some (p, n) =>
      if ctle && !s.on c F.RXG_RXL_CTL_CTLE_OVR then
        (s.put (R.RXG_RXL_CTLE g l) F.RXG_RXL_CTLE_PEAK p.toNat).put (R.RXG_RXL_CTLE g l) F.RXG_RXL_CTLE_GAIN n.toNat
      else s
    | none => s
  if dfe && !s.on c F.RXG_RXL_CTL_DFE_OVR && !s.on (R.RXG_GRP_CTL g) F.RXG_GRP_CTL_ADAPT_FREEZE then
    a.lms.foldl (fun t x => t.lmsTap g l x.1.val x.2) s
  else s

/-! ### Loss of lock and the reference lane (R32, R40) -/

/-- The reference lane by the rule of R39 among the lanes that hold both locks. -/
def newRef (s : State) : Option (Nat × Nat) :=
  (((s.activeGroups .rx).map fun g => lanesOfGroup.map fun l => (g, l)).flatten).find? fun p =>
    s.mayRef p.1 p.2
      && s.on (R.RXG_RXL_STAT p.1 p.2) F.RXG_RXL_STAT_MARK_LOCK && s.on (R.RXG_RXL_STAT p.1 p.2) F.RXG_RXL_STAT_CDR_LOCK

/-- The reference lane is lost, so the link PLL holds; on the local PLL the rule names another at once (R40, R41). -/
def refLost (s : State) (g l : Nat) : State :=
  if !s.linkActive || decide (s.link.ref ≠ some (g, l)) then s
  else if s.loopTimed then { s with clk := { s.clk with holdover := true } }.monStop
  else s.setRef s.newRef

/-- Loss of lock beyond sparing: an active group has more data lanes without marker lock than a spare could replace, so
the link leaves ACTIVE, to RECOVER, which relocks markers (R44, DEDUCED). -/
def lockBeyond (s : State) (g : Nat) : State :=
  let lost := ((s.dataLanes .rx g).filter fun l => !s.on (R.RXG_RXL_STAT g l) F.RXG_RXL_STAT_MARK_LOCK).length
  if (s.activeGroups .rx).contains g && decide ((if s.spareLane .rx g = 15 then 0 else 1) < lost) then s.enterRecover else s

/-- A lane loses marker lock (R32); in ACTIVE it is a LANE_LOCK occurrence (R274). -/
def markerLost (s : State) (g l : Nat) : State :=
  if s.on (R.RXG_RXL_STAT g l) F.RXG_RXL_STAT_MARK_LOCK then
    let s := s.flag (R.RXG_RXL_STAT g l) F.RXG_RXL_STAT_MARK_LOCK false
    let s := if (s.activeGroups .rx).contains g then s.flag (R.RXG_GRP_STAT g) F.RXG_GRP_STAT_MARKER_LOCK false else s
    if s.linkActive then ((s.report 1 (resLane false g l) 1 12).refLost g l).lockBeyond g else s
  else s

/-- A lane loses CDR lock (R40). -/
def cdrLost (s : State) (g l : Nat) : State :=
  if s.on (R.RXG_RXL_STAT g l) F.RXG_RXL_STAT_CDR_LOCK then
    (s.flag (R.RXG_RXL_STAT g l) F.RXG_RXL_STAT_CDR_LOCK false).refLost g l
  else s

/-- The holdover ends: on a new reference lane, or on the local PLL (R40, R41). Without XO the local PLL has the recovered
clock for its reference, so the link stays loop-timed and the clock monitor judges it (DEDUCED, R346, R349). -/
def holdoverEnds (s : State) : State :=
  if s.clk.holdover then
    let s := { s with clk := { s.clk with holdover := false } }
    match s.newRef with
    | some r => s.setRef (some r)
    | none =>
      let s := { s with link := { s.link with ref := none } }
      if s.on R.CLK_CLK_STAT F.CLK_CLK_STAT_XO_OK then s.setLoopTimed false else s
  else s

/-! ### Hitless sparing (R52 to R56) -/

/-- Start sparing receive lane `l` of group `g`: the link is ACTIVE, no sparing runs there, the group has a spare and
the lane is one of its data lanes (R53). -/
def spareStart (s : State) (g l : Nat) : State :=
  if s.linkActive && !s.sparingRuns .rx g && decide (s.spareLane .rx g ≠ 15) && (s.dataLanes .rx g).contains l then
    let s := s.put (R.RXG_SPARE_STAT g) F.RXG_SPARE_STAT_PHASE 1
    let s := s.put (R.RXG_SPARE_STAT g) F.RXG_SPARE_STAT_LANE l
    let s := s.put (R.RXG_SPARE_STAT g) F.RXG_SPARE_STAT_MISMATCH 0
    (s.setCtl g 5 l).sparingWidth .rx
  else s

/-- End a sparing before Switch in a phase: 6 aborted, 7 failed, which ends with RELEASE and raises the sparing-failed event
(R54, R55). -/
def spareEnd (s : State) (g phase : Nat) : State :=
  let l := s.fld (R.RXG_SPARE_STAT g) F.RXG_SPARE_STAT_LANE
  let s := s.put (R.RXG_SPARE_STAT g) F.RXG_SPARE_STAT_PHASE phase
  let s := lanesOfGroup.foldl (fun u i => u.flag (R.RXG_RXL_STAT g i) F.RXG_RXL_STAT_SHADOW false) s
  (if phase = 7 then (s.setCtl g 8 l).raiseEvent (0x088 + g) l else s.setCtl g 0 0).sparingWidth .rx

/-- The sparing's SWITCH: the spare takes the failing lane's rank (R53, R68). -/
def spareSwitch (s : State) (d : Dir) (g lane : Nat) : State :=
  s.setDataLanes d g ((s.dataLanes d g).map fun l => if l = lane then s.spareLane d g else l)

/-! ### Transmit equalisation (R35) -/

/-- The coefficients (pre1, main, post1) of a preset; pre2 is 0. -/
def presetOf : Nat → Nat × Nat × Nat
  | 0 => (0, 63, 0) | 1 => (0, 57, 6) | 2 => (0, 51, 12) | 3 => (6, 51, 6)
  | 4 => (6, 45, 12) | 5 => (8, 43, 12) | 6 => (4, 47, 12) | _ => (10, 41, 12)

/-- Coefficients within their limits and with magnitudes that sum to at most 63. -/
def firOk (pre2 pre1 main post1 : Int) : Bool :=
  decide (0 ≤ pre2 ∧ pre2 ≤ 7 ∧ 0 ≤ pre1 ∧ pre1 ≤ 24 ∧ 24 ≤ main ∧ main ≤ 63 ∧ 0 ≤ post1 ∧ post1 ≤ 24
    ∧ pre2 + pre1 + main + post1 ≤ 63)

/-- The word of TXL_EQ with these coefficients. -/
def firWord (pre2 pre1 main post1 : Int) : Word :=
  F.TXG_TXL_EQ_POST1.set post1.toNat (F.TXG_TXL_EQ_MAIN.set main.toNat
    (F.TXG_TXL_EQ_PRE1.set pre1.toNat (F.TXG_TXL_EQ_PRE2.set pre2.toNat 0)))

/-- Apply an EQ_REQ to a transmit lane: the new TXL_EQ word, or none when it is refused. Taps beyond post1 name no
coefficient and are refused (assumption 16). -/
def firRequest (s : State) (g l tap action preset : Nat) : Option Word :=
  let a := R.TXG_TXL_EQ g l
  let c : Int × Int × Int × Int := (s.fld a F.TXG_TXL_EQ_PRE2, s.fld a F.TXG_TXL_EQ_PRE1, s.fld a F.TXG_TXL_EQ_MAIN,
    s.fld a F.TXG_TXL_EQ_POST1)
  let e : Int := if action = 1 then 1 else if action = 2 then -1 else 0
  let n : Int × Int × Int × Int :=
    if action = 3 then (0, (presetOf preset).1, (presetOf preset).2.1, (presetOf preset).2.2)
    else if tap = 0 then (c.1 + e, c.2.1, c.2.2.1, c.2.2.2)
    else if tap = 1 then (c.1, c.2.1 + e, c.2.2.1, c.2.2.2)
    else if tap = 2 then (c.1, c.2.1, c.2.2.1 + e, c.2.2.2)
    else (c.1, c.2.1, c.2.2.1, c.2.2.2 + e)
  if s.on (R.TXG_TXL_CTL g l) F.TXG_TXL_CTL_EQ_OVR then none
  else if 3 < tap ∧ action ≠ 3 then none
  else if firOk n.1 n.2.1 n.2.2.1 n.2.2.2 then some (firWord n.1 n.2.1 n.2.2.1 n.2.2.2)
  else none

/-- A received EQ_REQ: applied or refused, and answered with EQ_ACK, which copies the request but for its bit 11; that bit, the
top bit of a preset in the request, shows the limit in the answer (R34, R35; DESIGN CHOICE, assumption 99). -/
def eqRequest (s : State) (g arg : Nat) : State :=
  let l := arg % 16
  if s.linkState ≠ 4 ∨ 9 < l then s
  else match s.firRequest g l (arg / 16 % 8) (arg / 128 % 4) (arg / 512 % 8) with
    | some w => (s.wr (R.TXG_TXL_EQ g l) w).setAck g 3 (arg % 2048)
    | none => s.setAck g 3 (arg % 2048 + 2048)

end State
end Sys2Proof.Machine
end

