-- ==== Sys2Proof/Machine/Link.lean ====
section
/-! DEFINITION. Frames, flits, replay, credits and link-layer initialisation (R65 to R97). -/

namespace Sys2Proof.Machine

/-! ### Headers (R98) -/

def hOpc (h : Word64) : Nat := h.toNat / 2 ^ 58
def hTc (h : Word64) : Nat := h.toNat / 2 ^ 55 % 8
def hMid (h : Word64) : Nat := h.toNat / 2 ^ 49 % 64
def hTag (h : Word64) : Nat := h.toNat / 2 ^ 37 % 4096
def hLen (h : Word64) : Nat := h.toNat / 2 ^ 35 % 4
def hArg (h : Word64) : Nat := h.toNat / 2 ^ 31 % 16
def hAddr (h : Word64) : Nat := h.toNat % 2 ^ 31

/-- Data slots that follow a request header: LEN on WrReq, 64 bytes on AtomReq and CfgWr; LEN code 3 counts as 256
bytes (R100). -/
def reqDataSlots (h : Word64) : Nat :=
  if hOpc h = 2 ∨ hOpc h = 3 then (if hLen h = 0 then 4 else if hLen h = 1 then 8 else 16)
  else if hOpc h = 4 ∨ hOpc h = 9 then 4 else 0

/-! ### Flit layout (R66, R71 to R75) -/

/-- Slot `i` of a flit, slot 0 first. -/
def flitSlot (f : BitVec 1920) (i : Nat) : Slot := f.extractLsb' (1920 - 128 * (i + 1)) 128

/-- The link-control slot's fields, apart from the CRC. -/
structure Ctl0 where
  kind : Nat
  llInit : Bool
  seq : BitVec 12
  ackType : Nat
  ackSeq : BitVec 12
  wStep : Nat
  wCount : Nat
  wReq : Option (Bool × Nat)
  map : BitVec 26
  cred : BitVec 36
  deriving DecidableEq, Repr

/-- Read slot 0 (R74). -/
def ctl0Of (w : Slot) : Ctl0 :=
  { kind := (w.extractLsb' 126 2).toNat, llInit := w.getLsbD 125, seq := w.extractLsb' 112 12,
    ackType := (w.extractLsb' 110 2).toNat, ackSeq := w.extractLsb' 98 12, wStep := (w.extractLsb' 96 2).toNat,
    wCount := (w.extractLsb' 92 4).toNat,
    wReq := if w.getLsbD 91 then some (w.getLsbD 90, (w.extractLsb' 88 2).toNat) else none,
    map := w.extractLsb' 62 26, cred := w.extractLsb' 26 36 }

/-- Slot 0 with its CRC field 0 (R74). -/
def ctl0Word (c : Ctl0) : Slot :=
  let n := c.kind % 4 * 2 ^ 126 + c.llInit.toNat * 2 ^ 125 + c.seq.toNat * 2 ^ 112 + c.ackType % 4 * 2 ^ 110
    + c.ackSeq.toNat * 2 ^ 98 + c.wStep % 4 * 2 ^ 96 + c.wCount % 16 * 2 ^ 92
    + (match c.wReq with | none => 0 | some (d, n) => 2 ^ 91 + d.toNat * 2 ^ 90 + n % 4 * 2 ^ 88)
    + c.map.toNat * 2 ^ 62 + c.cred.toNat * 2 ^ 26
  BitVec.ofNat 128 n

/-- The type of slot `i`, 1 to 13: 0 empty, 1 header, 2 data, 3 extension. -/
def slotType (map : BitVec 26) (i : Nat) : Nat := (map.extractLsb' (26 - 2 * i) 2).toNat

/-- The bytes of a flit body that the CRC covers (R72). -/
def crcBytes (bytes : List Nat) : List Nat := bytes.take 13 ++ (bytes.drop 16).take 208

/-- A flit from its control fields and slots 1 to 13: CRC and parity are computed (R71, R72). -/
def makeFlit (c : Ctl0) (slots : List Slot) : BitVec 1920 :=
  let body0 := bytesBE 16 (ctl0Word c).toNat ++ ((List.range 13).map fun i => bytesBE 16 (slots.getD i 0).toNat).flatten
  let body := body0.take 13 ++ bytesBE 3 (crc24 (crcBytes body0)) ++ body0.drop 16
  BitVec.ofNat 1920 (natBE (body ++ rsParity 16 body))

/-- What a received flit decodes to: the corrected bytes with the indices of the corrected ones, and whether the CRC
matches; none when the RS decoder fails (R73). -/
def readFlit (f : BitVec 1920) : Option (List Nat × List Nat × Bool) :=
  let cw := bytesBE 240 f.toNat
  let fin := fun (b : List Nat) (e : List Nat) =>
    some (b, e, natBE ((b.drop 13).take 3) == crc24 (crcBytes b))
  match rsDecode 16 8 cw with
  | .clean => fin cw []
  | .located errs => fin (rsApply errs cw) (errs.map (·.1))
  | .failure => none

namespace State

/-! ### Credits (R84 to R87) -/

def rxState (s : State) : Nat := s.fld R.LINK_LL_STAT F.LINK_LL_STAT_RX_STATE
def txState (s : State) : Nat := s.fld R.LINK_LL_STAT F.LINK_LL_STAT_TX_STATE
def setRxState (s : State) (n : Nat) : State := s.put R.LINK_LL_STAT F.LINK_LL_STAT_RX_STATE n
def setTxState (s : State) (n : Nat) : State := s.put R.LINK_LL_STAT F.LINK_LL_STAT_TX_STATE n
def txSeq (s : State) : BitVec 12 := BitVec.ofNat 12 (s.fld R.LINK_LL_STAT F.LINK_LL_STAT_TX_SEQ)
def rxSeq (s : State) : BitVec 12 := BitVec.ofNat 12 (s.fld R.LINK_LL_STAT F.LINK_LL_STAT_RX_SEQ)

/-- Headers of a class that stand in the stream and are not placed yet, and the data credits that they will take. -/
def owedHdr (s : State) (tc : Nat) : Nat := (s.link.txq.filter fun i => !i.hdrSent && hTc i.header == tc).length
def owedData (s : State) (tc : Nat) : Nat :=
  (s.link.txq.filter fun i => !i.hdrSent && hTc i.header == tc).foldl (fun n i => n + i.data.length / 4) 0

/-- Host credits for a transaction of a class with `n` data slots, beside what the stream takes before it (R84). -/
def credOk (s : State) (tc n : Nat) : Bool :=
  decide (s.owedHdr tc + 1 ≤ s.fld (R.LINK_CRED_TX tc) F.LINK_CRED_TX_HDR
    ∧ s.owedData tc + n / 4 ≤ s.fld (R.LINK_CRED_TX tc) F.LINK_CRED_TX_DATA)

/-- Take the credits of a transaction with `n` data slots, at the moment its header is placed (R84). -/
def takeCred (s : State) (tc n : Nat) : State :=
  let s := s.put (R.LINK_CRED_TX tc) F.LINK_CRED_TX_HDR (s.fld (R.LINK_CRED_TX tc) F.LINK_CRED_TX_HDR - 1)
  s.put (R.LINK_CRED_TX tc) F.LINK_CRED_TX_DATA (s.fld (R.LINK_CRED_TX tc) F.LINK_CRED_TX_DATA - n / 4)

def evtTc (s : State) : Nat := s.fld R.XACT_XACT_CTL F.XACT_XACT_CTL_EVT_TC
def evtEn (s : State) : Bool := s.on R.XACT_XACT_CTL F.XACT_XACT_CTL_EVT_EN

/-- The first event that may be sent (R127). -/
def nextEvent (s : State) : Option Event := s.xact.events.find? fun e => e.nma || s.evtEn

/-- A response or event waits for host credits (XACT_STAT.RSP_CREDIT_WAIT). -/
def creditWait (s : State) : Bool :=
  (s.xact.reqs.any fun r => decide (r.stage = .done) && !s.credOk (hTc r.header) r.payload.length)
    || (s.nextEvent.isSome && !s.credOk s.evtTc 4)

/-- Note since when something waits, wherever a response, an event or a credit comes or goes (R131 RSP_STARVED). -/
def noteWait (s : State) : State :=
  { s with xact := { s.xact with
    starved := if s.creditWait then (if s.xact.starved = 0 then s.clk.up + 1 else s.xact.starved) else 0 } }

/-- The transmitter takes new sequenced flits: in ACTIVE, in SEND and outside initialisation (R80, R96). -/
def sendOpen (s : State) : Bool := decide (s.linkState = 7 ∧ s.txState = 0 ∧ s.rxState ≠ 3)

/-- Credits to return to the host in the next sequenced flits. -/
def returnCredits (s : State) (tc hdr data : Nat) : State :=
  { s with link := { s.link with
      credRet := SMap.upd (fun _ => 0) (2 * tc) (· + hdr) (SMap.upd (fun _ => 0) (2 * tc + 1) (· + data) s.link.credRet) } }

/-- Up to three credit entries for the next sequenced flit: (class, kind, count), and the rest (R74, R85). The lowest class comes
first, and its header credits before its data credits (DESIGN CHOICE, assumption 100). -/
def takeEntries (s : State) : List (Nat × Nat × Nat) × State :=
  let picks := (s.link.credRet.take 3).map fun e => (e.1 / 2, e.1 % 2, min e.2 127)
  let s := picks.foldl (fun t p =>
    let l := t.link
    let l := { l with credRet := SMap.upd (fun _ => 0) (2 * p.1 + p.2.1) (· - p.2.2) l.credRet }
    let l := if p.2.1 = 0 then { l with hostHdr := SMap.upd (fun _ => 0) p.1 (· + p.2.2) l.hostHdr }
      else { l with hostData := SMap.upd (fun _ => 0) p.1 (· + p.2.2) l.hostData }
    { t with link := l }) s
  (picks, s)

/-- The credit field of slot 0 for a list of entries. -/
def credField (l : List (Nat × Nat × Nat)) : BitVec 36 :=
  let e := fun i => match l[i]? with
    | none => 0
    | some (tc, k, n) => 2 ^ 11 + tc % 8 * 2 ^ 8 + k % 2 * 2 ^ 7 + n % 128
  BitVec.ofNat 36 (e 0 * 2 ^ 24 + e 1 * 2 ^ 12 + e 2)

/-! ### Link-layer initialisation (R96) -/

/-- Start link-layer initialisation: the link-layer state is cleared, responses not yet placed or held for replay are
discarded, and the initial counts are 0 (R85, R96). -/
def llInit (s : State) : State :=
  let s := (((s.setRxState 3).setTxState 0).put R.LINK_LL_STAT F.LINK_LL_STAT_TX_SEQ 0).put R.LINK_LL_STAT
    F.LINK_LL_STAT_RX_SEQ 0
  let s := (((s.put R.LINK_LL_STAT2 F.LINK_LL_STAT2_ACK_SEQ 0).put R.LINK_LL_STAT2 F.LINK_LL_STAT2_STORED 0).put
    R.LINK_LL_STAT2 F.LINK_LL_STAT2_ERR_CAUSE 0)
  let s := groups.foldl (fun t i => t.wr (R.LINK_CRED_TX i) 0) s
  let s := (s.put R.XACT_EVT_SEQ F.XACT_EVT_SEQ_NEXT 0).inc R.LINK_LL_INITS
  let s : State := { s with
    link := { s.link with
      stored := [], replayAt := 0, hold := none, runSeq := 0, runCount := 0, lastFreed := none, accepted := false,
      replayNew := none, granted := [], grantLeft := 256, initStep := 1, initSent := 0, gotInit := false, credRet := [], hostHdr := [], hostData := [], txq := [],
      rx := [], await := [] }
    xact := { s.xact with
      reqs := (s.xact.reqs.filter fun r => decide (r.stage ≠ .done)).map fun r => { r with silent := true, owes := false } } }
  s.noteWait

/-- The sums of the advertised credits fit the receive buffer (R86). -/
def credFits (s : State) : Bool :=
  let h := groups.foldl (fun n t => n + s.fld (R.LINK_CRED_ADV t) F.LINK_CRED_ADV_HDR) 0
  let d := groups.foldl (fun n t => n + s.fld (R.LINK_CRED_ADV t) F.LINK_CRED_ADV_DATA) 0
  decide (h ≤ 16384 ∧ d ≤ 40960)

/-- Initialisation ends: SEQ from 0 and the initial grant (R86, R96). -/
def llReady (s : State) : State :=
  let ok := s.credFits
  let s := (s.setRxState 0).flag R.LINK_LL_STAT2 F.LINK_LL_STAT2_CRED_CFG_BAD (!ok)
  let s := { s with link := { s.link with initStep := 0 } }
  groups.foldl (fun t c =>
    t.returnCredits c (if ok then t.fld (R.LINK_CRED_ADV c) F.LINK_CRED_ADV_HDR else 2048)
      (if ok then t.fld (R.LINK_CRED_ADV c) F.LINK_CRED_ADV_DATA else 5120)) s

/-- Step 2 of R96 ends after 64 flits and a flit with LL_INIT set. -/
def initAdvance (s : State) : State :=
  if s.link.initStep = 1 ∧ 64 ≤ s.link.initSent ∧ s.link.gotInit then
    { s with link := { s.link with initStep := 2 } }
  else s

/-! ### The transmitter side (R80) -/

/-- Record the number of stored flits. -/
def setStored (s : State) (l : List Stored) : State :=
  { s with link := { s.link with stored := l } }.put R.LINK_LL_STAT2 F.LINK_LL_STAT2_STORED l.length

/-- Free the stored flits up to and including SEQ `a` (R80). -/
def freeTo (s : State) (a : BitVec 12) : State :=
  let n := (s.link.stored.takeWhile fun f => decide (f.seq ≠ a)).length + 1
  let gone := s.link.stored.take n
  let s := s.setStored (s.link.stored.drop n)
  let s := { s with link := { s.link with
      lastFreed := some a, replayAt := s.link.replayAt - n,
      hold := if gone.any fun f => decide (s.link.hold = some f.seq) then none else s.link.hold } }
  if s.txState = 2 then s.setTxState 0
  else if s.txState = 1 ∧ s.link.stored.length ≤ s.link.replayAt then s.setTxState 0
  else s

/-- A received ACK or NAK (R80). In ERROR nothing is replayed. -/
def ackReceived (s : State) (nak : Bool) (a : BitVec 12) : State :=
  let s := s.put R.LINK_LL_STAT2 F.LINK_LL_STAT2_ACK_SEQ a.toNat
  let known := s.link.stored.any fun f => decide (f.seq = a)
  if !known && decide (s.link.lastFreed ≠ some a) then s.inc R.LINK_STALE_ACK
  else
    let s := if known then s.freeTo a else s
    if nak && decide (s.txState ≠ 3) && decide (s.link.hold ≠ some (a + 1)) then s.startReplay (a + 1) else s

/-! ### The receiver side (R79) -/

/-- A link-layer protocol error: both machines go to ERROR (R90). -/
def protoError (s : State) (cause : Nat) : State :=
  (((s.setRxState 2).setTxState 3).put R.LINK_LL_STAT2 F.LINK_LL_STAT2_ERR_CAUSE cause).report 23 (resLinkDir false) 1 12

/-- Take a header into the receive buffer: its credits must have been granted (R84, R90). -/
def takeHeader (s : State) (h : Word64) (ext : Option (BitVec 384)) : Option State :=
  let tc := hTc h
  let nh := if ext.isSome then 6 else 1
  let slots := if ext.isSome then 0 else reqDataSlots h
  let ch := SMap.get (fun _ => 0) s.link.hostHdr tc
  let cd := SMap.get (fun _ => 0) s.link.hostData tc
  if ch < nh ∨ cd < slots / 4 then none
  else some { s with
   xact := { s.xact with nextId := s.xact.nextId + 1 }
   link := { s.link with
    hostHdr := SMap.set (fun _ => 0) tc (ch - nh) s.link.hostHdr
    hostData := SMap.set (fun _ => 0) tc (cd - slots / 4) s.link.hostData
    rx := SMap.upd (fun _ => []) tc (· ++ [{ header := h, ext := ext, data := [], left := slots, half := ext.isNone, ts := s.ts, at_ := s.clk.up, num := s.xact.nextId }]) s.link.rx
    await := if slots = 0 then s.link.await else s.link.await ++ [tc] } }

/-- Give a data slot to the oldest header of a class that still awaits data. -/
def giveData (d : Slot) : List RxItem → List RxItem
  | [] => []
  | i :: l => if 0 < i.left then { i with data := i.data ++ [d], left := i.left - 1 } :: l else i :: giveData d l

/-- Take a data slot (R78): none when no header awaits data. -/
def takeData (s : State) (d : Slot) : Option State :=
  match s.link.await with
  | [] => none
  | tc :: r =>
    let l := giveData d (SMap.get (fun _ => []) s.link.rx tc)
    let open_ := (SMap.get (fun _ => []) s.link.rx tc).find? fun i => decide (0 < i.left)
    let fin := match open_ with | some i => decide (i.left = 1) | none => true
    some { s with link := { s.link with
      rx := SMap.set (fun _ => []) tc l s.link.rx, await := if fin then r else tc :: r } }

/-- Deliver slots `i` to 13 of an accepted flit; `n` counts the slots left. The error of R90 when one is found. -/
def takeSlots (c : Ctl0) (sl : Nat → Slot) : Nat → Nat → State → Except Nat State
  | 0, _, s => .ok s
  | n + 1, i, s =>
    match slotType c.map i with
    | 0 => takeSlots c sl n (i + 1) s
    | 1 =>
      let hi := (sl i).extractLsb' 64 64
      let lo := (sl i).extractLsb' 0 64
      let one := fun (h : Word64) (s : State) => if h = 0 then some s else s.takeHeader h none
      match (one hi s).bind (one lo) with
      | none => .error 4
      | some s => takeSlots c sl n (i + 1) s
    | 2 =>
      match s.takeData (sl i) with
      | none => .error 3
      | some s => takeSlots c sl n (i + 1) s
    | _ =>
      match n with
      | m + 2 =>
        if slotType c.map (i + 1) = 3 ∧ slotType c.map (i + 2) = 3 then
          match s.takeHeader ((sl i).extractLsb' 64 64) (some (sl i ++ sl (i + 1) ++ sl (i + 2))) with
          | none => .error 4
          | some s => takeSlots c sl m (i + 3) s
        else .error 2
      | _ => .error 2

/-- One credit entry of an accepted flit (R85). In the first 256 sequenced flits after initialisation it adds to the amount
granted; later it is a return, and a count above that amount or above 16 bits is an overflow (R89; assumption 17). -/
def takeCredit (e : BitVec 12) (s : State) : Except Nat State :=
  let tc := (e.extractLsb' 8 3).toNat
  let n := (e.extractLsb' 0 7).toNat
  if !e.getLsbD 11 || n == 0 then .ok s
  else
    let k := 2 * tc + (if e.getLsbD 7 then 1 else 0)
    let f := if e.getLsbD 7 then F.LINK_CRED_TX_DATA else F.LINK_CRED_TX_HDR
    let v := s.fld (R.LINK_CRED_TX tc) f + n
    let g := SMap.get (fun _ => 0) s.link.granted k + (if 0 < s.link.grantLeft then n else 0)
    if 65535 < v ∨ (s.link.grantLeft = 0 ∧ g < v) then .error 5
    else .ok ({ s with link := { s.link with granted := SMap.set (fun _ => 0) k g s.link.granted } }.put
      (R.LINK_CRED_TX tc) f v)

/-- Take the three credit entries of an accepted flit (R85). -/
def takeCredits (c : Ctl0) (s : State) : Except Nat State :=
  [0, 1, 2].foldl (fun r i => r.bind (takeCredit (c.cred.extractLsb' (24 - 12 * i) 12))) (.ok s)

/-- Count the slots of the automatic width mode (R91). -/
def countSlots (s : State) (d : Dir) (all used : Nat) : State :=
  { s with link := { s.link with
      slotsAll := SMap.upd (fun _ => 0) (dirIx d) (· + all) s.link.slotsAll
      slotsUsed := SMap.upd (fun _ => 0) (dirIx d) (· + used) s.link.slotsUsed } }

def usedSlots (map : BitVec 26) : Nat := ((List.range 13).filter fun i => slotType map (i + 1) ≠ 0).length

/-- A good sequenced flit with the expected SEQ is accepted, or shows a protocol error (R79, R90). -/
def acceptFlit (s : State) (c : Ctl0) (sl : Nat → Slot) : State :=
  match (takeSlots c sl 13 1 s).bind (takeCredits c) with
  | .error e => s.protoError e
  | .ok s =>
    let s := (s.setRxState 0).put R.LINK_LL_STAT F.LINK_LL_STAT_RX_SEQ (c.seq + 1).toNat
    let s := { s with link := { s.link with accepted := true, grantLeft := s.link.grantLeft - 1 } }.inc64 R.LINK_FLITS_LO
    (s.countSlots .rx 0 (usedSlots c.map)).noteWait

/-- The physical lane that carried byte `j` of the current receive frame (R67, R68). -/
def laneOfByte (s : State) (j : Nat) : Option (Nat × Nat) :=
  let gs := s.activeGroups .rx
  let L := j % (9 * max 1 gs.length)
  match gs[L / 9]? with
  | none => none
  | some g => ((s.dataLanes .rx g)[L % 9]?).map fun l => (g, l)

/-- Corrected bytes count against their lanes (R73). -/
def countCorr (s : State) (f : Nat) (bytes : List Nat) : State :=
  bytes.foldl (fun t i =>
    match s.laneOfByte (240 * f + i) with
    | none => t
    | some (g, l) => (t.inc (R.RXG_RXL_CORR g l)).report 0 (resLane false g l) 1 12) s

/-- The width switch that a good flit announces: its step and the frames left, or that none is pending (R74, R92). Counts that
no rule gives are ignored. -/
def rxAnnounced (s : State) (step count : Nat) : State :=
  if count = 0 then { s with link := { s.link with rxSwitch := none, rxCount := 0 } }
  else if count ≤ 8 then { s with link := { s.link with rxSwitch := some step, rxCount := count } }
  else s

/-- The fields that every good flit carries (R76): ACK or NAK, the host's width switch, and its floor. -/
def linkFields (s : State) (c : Ctl0) : State :=
  let s := if c.ackType = 1 then s.ackReceived false c.ackSeq else if c.ackType = 2 then s.ackReceived true c.ackSeq else s
  let s := s.rxAnnounced c.wStep c.wCount
  match c.wReq with
  | none => s
  | some (false, n) => (s.put R.LINK_WIDTH_STAT F.LINK_WIDTH_STAT_HOST_FLOOR_RX n).decideWidth .rx
  | some (true, n) => (s.put R.LINK_WIDTH_STAT F.LINK_WIDTH_STAT_HOST_FLOOR_TX n).decideWidth .tx

/-- The announced switch of the receive direction is due: it takes place, or sends the direction to RECOVER (R92, R93). -/
def rxSwitchDue (s : State) (n : Nat) : State :=
  let s := { s with link := { s.link with rxSwitch := none, rxCount := 0 } }
  let to_ := if SMap.get (fun _ => none) s.link.widthTo 0 = some n then s.switchSet .rx n else s.groupsAt .rx n
  match to_ with
  | none => s.enterRecover
  | some gs =>
    let old := s.activeGroups .rx
    let joined := gs.filter fun g => !old.contains g
    let ui := s.link.rxUi
    if ui % frameUI (min (s.curStep .rx) n) = 0 ∧ ui % frameUI (max (s.curStep .rx) n) = 0
        ∧ joined.all (fun g => s.link.ready.contains g) then
      let s := ((s.takeWidth .rx n gs).flag R.LINK_WIDTH_STAT F.LINK_WIDTH_STAT_RX_BUSY false).inc R.LINK_WIDTH_CHANGES
      let s := { s with link := { s.link with
          hostCmd := none, widthTo := SMap.set (fun _ => none) 0 none s.link.widthTo,
          ready := s.link.ready.filter (8 ≤ ·), exits := [] } }
      s.decideWidth .rx
    else s.enterRecover

/-- The receive direction ends a frame, and an announced switch comes nearer (R92). -/
def rxFrameEnd (s : State) : State :=
  let s := { s with link := { s.link with rxUi := (s.link.rxUi + frameUI (s.curStep .rx)) % 10240 } }
  match s.link.rxSwitch with
  | none => s
  | some n => if s.link.rxCount ≤ 1 then s.rxSwitchDue n else { s with link := { s.link with rxCount := s.link.rxCount - 1 } }

/-- A bad flit: NAK_WAIT from NORMAL (R79). The host's replay that answers it is a REPLAY occurrence (R274). -/
def badFlit (s : State) : State :=
  if s.rxState = 0 then ((s.setRxState 1).inc R.LINK_NAK_SENT).report 2 (resLinkDir false) 1 12 else s

/-- A good flit outside initialisation (R79), whose fields of R76 have been taken. -/
def goodFlit (s : State) (c : Ctl0) (sl : Nat → Slot) : State :=
  if s.rxState = 2 then s
  else if 2 ≤ c.kind then s.protoError 1
  else if c.kind = 0 then s
  else if c.seq = s.rxSeq then s.acceptFlit c sl
  else if s.rxState = 0 then s.inc R.LINK_DUP_FLITS
  else s

/-- The handshake of R96 on a good flit, then its ordinary processing. -/
def initFlit (s : State) (c : Ctl0) (sl : Nat → Slot) : State :=
  if s.rxState = 3 then
    if c.llInit then { s with link := { s.link with gotInit := true } }.initAdvance
    else if s.link.initStep = 2 then s.llReady.goodFlit c sl
    else s
  else if c.llInit then
    let s := s.llInit
    { s with link := { s.link with gotInit := true } }
  else s.goodFlit c sl

/-- The bits of a lane's share of a flit, with what the lane keeps for the next: polarity, precoding, Gray mapping and
scrambling are undone in that order (R28, R29, R33). -/
def undoLane (s : State) (g l : Nat) (syms : List Nat) : List Bool × State :=
  let key := 10 * g + l
  let syms := if s.on (R.RXG_RXL_CTL g l) F.RXG_RXL_CTL_POL_INV then negSyms syms else syms
  let vals := if s.link.precodeRx then unprecode (SMap.get (fun _ => 0) s.link.rxLast key) syms else syms
  let r := descramble (SMap.get (fun _ => 0) s.link.descr key) (grayBits vals)
  (r.1, { s with link := { s.link with
      descr := SMap.set (fun _ => 0) key r.2 s.link.descr
      rxLast := SMap.set (fun _ => 0) key (syms.getLastD 0) s.link.rxLast } })

/-- The four symbols of a byte, first in time in the highest bits. -/
def byteSyms (b : Nat) : List Nat := [b / 64 % 4, b / 16 % 4, b / 4 % 4, b % 4]

/-- The byte indices in flit `f` of a frame that logical lane `k` of `w` carries, in the lane's order (R67). -/
def laneBytes (f w k : Nat) : List Nat := (List.range 240).filter fun i => (240 * f + i) % w = k

/-- A flit from the symbols received: each byte of `sym` is the four symbols that came in that byte's place (R67, R68). -/
def undoFlit (s : State) (f : Nat) (sym : BitVec 1920) : BitVec 1920 × State :=
  let raw := bytesBE 240 sym.toNat
  let gs := s.activeGroups .rx
  let w := 9 * max 1 gs.length
  let phys := (gs.map fun g => (s.dataLanes .rx g).map fun l => (g, l)).flatten
  let r := (List.range phys.length).foldl (fun (x : List (Nat × Nat) × State) k =>
    let p := phys.getD k (0, 0)
    let ix := laneBytes f w k
    let u := x.2.undoLane p.1 p.2 (ix.map fun i => byteSyms (raw.getD i 0)).flatten
    (ix.zip (bitsBytes u.1) ++ x.1, u.2)) ([], s)
  (BitVec.ofNat 1920 (r.1.foldl (fun n e => n + e.2 * 256 ^ (239 - e.1)) 0), r.2)

/-- A flit that the lanes have delivered is decoded and checked (R73, R79). For the share of slots that the automatic width mode
takes, a good flit brings 13 slots, of which only an accepted one can use any, and a bad flit brings none (R91; DESIGN
CHOICE, assumption 139). -/
def takeFlit (s : State) (flit : BitVec 1920) : State :=
  match readFlit flit with
  | none => (s.inc R.LINK_UNCORR_FLITS).badFlit
  | some (bytes, errs, crcOk) =>
    let s := s.countCorr s.link.rxFlit errs
    if !crcOk then (s.inc R.LINK_CRC_FAIL).badFlit
    else
      let s := if errs.isEmpty then s else s.inc R.LINK_CORR_FLITS
      let w : BitVec 1920 := BitVec.ofNat 1920 (natBE bytes)
      let c := ctl0Of (flitSlot w 0)
      let s := s.countSlots .rx 13 0
      (if c.kind < 2 then s.linkFields c else s).initFlit c (flitSlot w)

/-- The next flit of the frame is due, and after the twelfth the frame ends (R66). -/
def nextFlit (s : State) : State :=
  let f := s.link.rxFlit
  let s := { s with link := { s.link with rxFlit := (f + 1) % 12 } }
  if f = 11 then s.rxFrameEnd else s

/-- A flit arrives as symbols on the active receive lanes. -/
def flitReceive (s : State) (sym : BitVec 1920) : State :=
  if !s.linkActive || s.drogue then s
  else
    let u := s.undoFlit s.link.rxFlit sym
    (u.2.takeFlit u.1).nextFlit

/-! ### Building frames (R66 to R70, R75, R82) -/

/-- The transactions whose headers went into a flit: what waited before it and after it. -/
def headsOf (old new : List TxItem) : List TxItem :=
  (old.filter fun i => !i.hdrSent).take ((old.filter fun i => !i.hdrSent).length - (new.filter fun i => !i.hdrSent).length)

/-- Drop the transactions at the front that are placed whole. -/
def dropSent (l : List TxItem) : List TxItem := l.dropWhile fun i => i.hdrSent && i.data.isEmpty

/-- Fill one slot from the transactions that wait: its type, its content and what is left (R77, R78). Two headers that stand next
to each other share a slot, and a transaction's data goes before further headers (DESIGN CHOICE, assumption 100). -/
def packOne : List TxItem → Nat × Slot × List TxItem
  | [] => (0, 0, [])
  | a :: r =>
    if a.hdrSent then
      match a.data with
      | [] => (0, 0, r)
      | d :: ds => (2, d, dropSent ({ a with data := ds } :: r))
    else
      match r with
      | b :: r' =>
        if b.hdrSent then (1, a.header ++ (0 : Word64), dropSent ({ a with hdrSent := true } :: r))
        else (1, a.header ++ b.header, dropSent ({ a with hdrSent := true } :: { b with hdrSent := true } :: r'))
      | [] => (1, a.header ++ (0 : Word64), dropSent [{ a with hdrSent := true }])

/-- Fill `n` slots: their types as a number of 2n bits, their contents and what is left. -/
def packSlots : Nat → List TxItem → Nat × List Slot × List TxItem
  | 0, l => (0, [], l)
  | n + 1, l =>
    let p := packOne l
    let r := packSlots n p.2.2
    (p.1 * 4 ^ n + r.1, p.2.1 :: r.2.1, r.2.2)

/-- The control fields of the next outgoing flit that are current at sending (R74, R82). While RX_STATE is ERROR there is no
acknowledgement, ACK_TYPE 0 (DESIGN CHOICE, assumption 138). -/
def currentCtl (s : State) : Ctl0 :=
  { kind := 0, llInit := false, seq := s.txSeq,
    ackType := if !s.link.accepted then 0 else if s.rxState = 1 then 2 else if s.rxState = 0 then 1 else 0,
    ackSeq := s.rxSeq - 1,
    wStep := if s.link.widthCount = 0 then s.curStep .tx
      else (SMap.get (fun _ => none) s.link.widthTo 1).getD (s.curStep .tx),
    wCount := s.link.widthCount,
    wReq := s.link.hostCmd.map fun n => (false, n),
    map := 0, cred := 0 }

/-- A flit that carries a stored one's contents (R82). -/
def storedFlit (s : State) (f : Stored) : BitVec 1920 :=
  makeFlit { s.currentCtl with kind := 1, seq := f.seq, map := f.map, cred := f.cred } f.slots

/-- Build the next outgoing flit (R80, R96). -/
def buildFlit (s : State) : BitVec 1920 × State :=
  let null := makeFlit s.currentCtl []
  if s.rxState = 3 then
    (makeFlit { s.currentCtl with llInit := decide (s.link.initStep = 1) } [],
      { s with link := { s.link with initSent := s.link.initSent + 1 } }.initAdvance)
  else if s.txState = 1 then
    match s.link.stored[s.link.replayAt]? with
    | none => (null, s.setTxState 0)
    | some f =>
      let fl := s.storedFlit f
      let s := { s with link := { s.link with replayAt := s.link.replayAt + 1 } }.countReplay.inc R.LINK_REPLAYED_FLITS
      let s := s.countSlots .tx 0 (usedSlots f.map)
      (fl, if s.link.stored.length ≤ s.link.replayAt then s.setTxState 0 else s)
  else if s.txState = 0 then
    if 4095 ≤ s.link.stored.length then (null, (s.setTxState 2).inc R.LINK_STALLS)
    else if s.link.txq.isEmpty && s.link.credRet.isEmpty then (null, s)
    else
      let p := packSlots 13 s.link.txq
      let e := s.takeEntries
      let s := e.2
      let f : Stored := ⟨s.txSeq, BitVec.ofNat 26 p.1, credField e.1, p.2.1⟩
      let fl := s.storedFlit f
      let s := (headsOf s.link.txq p.2.2).foldl (fun t i => t.takeCred (hTc i.header) i.data.length) s
      let s := { s with link := { s.link with txq := p.2.2 } }
      let s := (s.noteWait.setStored (s.link.stored ++ [f])).countSlots .tx 0 (usedSlots f.map)
      (fl, s.put R.LINK_LL_STAT F.LINK_LL_STAT_TX_SEQ (f.seq + 1).toNat)
  else (null, s)

/-- Build `n` flits in order. -/
def buildFlits : Nat → State → List (BitVec 1920) × State
  | 0, s => ([], s)
  | n + 1, s =>
    let r := s.buildFlit
    let l := buildFlits n r.2
    (r.1 :: l.1, l.2)

/-! ### Lanes of a frame (R28, R29, R58, R67) -/

/-- Send a frame's bytes on logical lane `k` of `w` (R28, R29, R67). -/
def sendLane (bytes : List Nat) (w : Nat) (s : State) (k g l : Nat) : State :=
  let mine := (List.range (2880 / w)).map fun i => bytes.getD (k + i * w) 0
  let r := s.laneSyms g l (SMap.get (fun _ => 0) s.link.lastSym (10 * g + l)) (msbBits mine)
  r.2.drive g l r.1

/-- Send a frame's flits on every logical lane. -/
def sendLanes (s : State) (flits : List (BitVec 1920)) : State :=
  let bytes := (flits.map fun f => bytesBE 240 f.toNat).flatten
  let gs := s.activeGroups .tx
  let w := 9 * max 1 gs.length
  let phys := (gs.map fun g => (s.dataLanes .tx g).map fun l => (g, l)).flatten
  (List.range phys.length).foldl (fun t k => let p := phys.getD k (0, 0); sendLane bytes w t k p.1 p.2) s

/-- The control field of the next marker of a transmit group in ACTIVE: a pending request or answer, by turns when both are
pending, else NORMAL with the spare and the width step (R34; assumption 99). -/
def markerCtl (s : State) (g : Nat) : Nat :=
  let c := SMap.get (fun _ => 0) s.link.ctl g
  let a := SMap.get (fun _ => 0) s.link.ack g
  if c < 4096 ∧ a < 4096 then s.spareLane .tx g + 16 * s.curStep .tx
  else if a < 4096 then c
  else if c < 4096 then a
  else if SMap.get (fun _ => 0) s.link.markers g / 4096 = c / 4096 then a
  else c

/-- A marker with a control field goes out on lanes of a transmit group; a SWITCH counts down (R31, R53). -/
def groupMarker (s : State) (g c : Nat) (lanes : List Nat) : State :=
  let s := lanes.foldl (fun t l => t.drive g l (markerSyms true g l c)) s
  let l := s.link
  let l := { l with markers := SMap.set (fun _ => 0) g c l.markers }
  { s with link := if c / 4096 = 7 ∧ 0 < c / 16 % 256 then { l with ctl := SMap.set (fun _ => 0) g (c - 16) l.ctl } else l }

/-- A marker goes out on every active transmit group, and the precoders start again from 0 (R30, R31). -/
def sendMarkers (s : State) : State :=
  let s := (s.activeGroups .tx).foldl (fun t g => t.groupMarker g (t.markerCtl g) (t.dataLanes .tx g)) s
  { s with link := { s.link with lastSym := [], uiSince := 0 } }

/-- A stack-to-host width change at a frame boundary: the countdown starts when the joining groups are ready and the
switch will fall on a common boundary, counts down, and switches (R92, R93). -/
def txWidthFrame (s : State) : State :=
  match SMap.get (fun _ => none) s.link.widthTo 1 with
  | none => s
  | some n =>
    let gs := SMap.get (fun _ => []) s.link.widthSet 1
    let cur := s.curStep .tx
    if s.link.widthCount = 0 then
      if (s.groupsAt .tx n).isNone then s.dropChange .tx else
      let joined := gs.filter fun g => !(s.activeGroups .tx).contains g
      if joined.all (fun g => s.link.ready.contains (8 + g))
          ∧ (s.link.uiSince + 8 * frameUI cur) % 10240 % frameUI (max cur n) = 0 then
        { s with link := { s.link with widthCount := 8 } }
      else s
    else if s.link.widthCount = 1 then match s.switchSet .tx n with
     | none => s.enterRecover
     | some gs =>
      let s := (s.takeWidth .tx n gs).flag R.LINK_WIDTH_STAT F.LINK_WIDTH_STAT_TX_BUSY false
      let s := { s with link := { s.link with
          widthCount := 0, widthTo := SMap.set (fun _ => none) 1 none s.link.widthTo,
          ready := s.link.ready.filter (· < 8) } }
      (s.inc R.LINK_WIDTH_CHANGES).decideWidth .tx
    else { s with link := { s.link with widthCount := s.link.widthCount - 1 } }

/-- Remember the flits of a frame that went out and the UI it took. -/
def noteFrame (s : State) (fl : List (BitVec 1920)) (ui : Nat) : State :=
  { s with link := { s.link with frame := fl, uiSince := s.link.uiSince + ui } }

/-- The end of a sent frame: a width change goes on, and a marker falls due (R30, R92). -/
def frameEnd (s : State) : State :=
  let s := s.txWidthFrame
  if 10240 ≤ s.link.uiSince then s.sendMarkers else s

/-- No lane has driven anything in this period yet. -/
def clearOut (s : State) : State := { s with link := { s.link with symOut := [] } }

/-- Put built flits on the lanes. -/
def sendFrame (r : List (BitVec 1920) × State) (ui : Nat) : State :=
  (((r.2.countSlots .tx 156 0).clearOut.sendLanes r.1).noteFrame r.1 ui).frameEnd

/-! ### Training periods and lanes under test (R30, R34, R44, R57 to R60) -/

/-- The control field that the markers of a training group carry: the answer to an EQ_REQ, which goes out once; the stack's own
PARAM; a request of its receivers in EQ until they are ready, whose argument is the adaptation's and so free; else TRAIN with
the state and its readiness to leave it (R34, R35, R44; assumption 99). -/
def trainCtl (s : State) (g : Nat) : Nat × State :=
  let a := SMap.get (fun _ => 0) s.link.ack g
  let n := s.linkState
  if 4096 ≤ a then (a, s.setAck g 0 0)
  else if n = 5 then (4 * 4096 + s.ownParam g, s)
  else if n = 4 ∧ !s.link.eqReady then
    let r := s.freeWord
    (2 * 4096 + r.1.toNat / 16 % 256 * 16 + r.1.toNat % 16 % 10, r.2)
  else (4096 + (if n = 4 then 16 else 0) + n, s)

/-- `n` bits of a lane's PRBS generator, with the generator advanced. -/
def prbsOf (s : State) (key sel n : Nat) : List Bool × State :=
  let r := prbsBits sel n (SMap.get (fun _ => 0) s.link.prbsTx key)
  (r.1, { s with link := { s.link with prbsTx := SMap.set (fun _ => 0) key r.2 s.link.prbsTx } })

/-- A lane under test: its group is in TEST, or it is the spare while no sparing runs (R60). -/
def testLane (s : State) (d : Dir) (g l : Nat) : Bool :=
  decide (s.grpState d g = 9) || (decide (s.spareLane d g = l) && !s.sparingRuns d g)

/-- The test facility that drives a transmit lane: near-end loopback, far-end loopback, or a pattern (R57, R59, R60). The near-end
loopback needs both lanes under test (assumption 25). -/
def nearLoop (s : State) (g l : Nat) : Bool :=
  s.testLane .rx g l && s.testLane .tx g l && s.on (R.RXG_RXL_CTL g l) F.RXG_RXL_CTL_NEAR_LOOP
def farLoop (s : State) (g l : Nat) : Bool := s.testLane .tx g l && s.on (R.TXG_TXL_CTL g l) F.TXG_TXL_CTL_FAR_LOOP
def patternOn (s : State) (g l : Nat) : Bool :=
  s.testLane .tx g l && s.on (R.TXG_TXL_CTL g l) F.TXG_TXL_CTL_PAT_EN
    && decide (1 ≤ s.fld (R.TXG_TXL_CTL g l) F.TXG_TXL_CTL_PATSEL ∧ s.fld (R.TXG_TXL_CTL g l) F.TXG_TXL_CTL_PATSEL ≤ 5)

/-- A transmit lane sends its part of a training period of 1,024 UI: scrambled idle, PRBS31 in VERIFY and RECOVER, and but for
DETECT a marker (R30, R44; assumption 99). -/
def trainLane (c : Nat) (s : State) (g l : Nat) : State :=
  let n := s.linkState
  let ui := if n = 1 then 1024 else 992
  let b := if n = 6 ∨ n = 8 then s.prbsOf (10 * g + l) 3 (2 * ui) else (List.replicate (2 * ui) false, s)
  let last := if n = 1 then SMap.get (fun _ => 0) s.link.lastSym (10 * g + l) else 0
  let r := b.2.laneSyms g l last b.1
  r.2.emit g l (if n = 1 then r.1 else r.1 ++ markerSyms true g l c)

/-- Every transmit group that trains sends a period, on its lanes that are still in training and carry no pattern. In OFF the
transmitters are in electrical idle (R44). -/
def trainPeriod (s : State) : State :=
  (groups.filter fun g => decide (s.grpState .tx g = s.linkState ∧ s.linkState ≠ 0)).foldl (fun t g =>
    let c := if t.linkState = 1 then (0, t) else t.trainCtl g
    let u := (lanesOfGroup.filter fun l => !c.2.laneBad .tx g l && !c.2.farLoop g l && !c.2.patternOn g l).foldl
      (fun v l => trainLane c.1 v g l) c.2
    if t.linkState = 1 then u else { u with link := { u.link with markers := SMap.set (fun _ => 0) g c.1 u.link.markers } }) s

/-- `n` symbols of a lane's pattern generator: PRBS patterns Gray-coded without precoding, the square wave or the user
pattern (R57, R63). -/
def patternSyms (s : State) (g l n : Nat) : List Nat × State :=
  let key := 10 * g + l
  let sel := s.fld (R.TXG_TXL_CTL g l) F.TXG_TXL_CTL_PATSEL
  let at_ := SMap.get (fun _ => 0) s.link.patUi key
  let s := { s with link := { s.link with patUi := SMap.set (fun _ => 0) key (at_ + n) s.link.patUi } }
  if sel ≤ 3 then
    let b := s.prbsOf key sel (2 * n)
    (graySyms b.1, b.2)
  else
    ((List.range n).map fun i =>
      if sel = 4 then squareSym (at_ + i) else userSym (s.rd (R.TXG_TXL_USER g l)).toNat (at_ + i), s)

/-- The pattern checker of a receive lane runs: it is enabled with one of the three PRBS patterns, on a lane under test (R57, R60;
other codes of PATSEL name no pattern of the checker and run none: DESIGN CHOICE, assumption 25). -/
def checkerRuns (s : State) (g l : Nat) : Bool :=
  let a := R.RXG_RXL_CTL g l
  s.on a F.RXG_RXL_CTL_CHK_EN && decide (1 ≤ s.fld a F.RXG_RXL_CTL_PATSEL ∧ s.fld a F.RXG_RXL_CTL_PATSEL ≤ 3)
    && s.testLane .rx g l

/-- A checker takes the symbols of a period: its errors are counted, and it reports whether it is synchronised (R57). -/
def check (s : State) (g l : Nat) (syms : List Nat) : State :=
  if !s.checkerRuns g l then s
  else
    let key := 10 * g + l
    let sel := s.fld (R.RXG_RXL_CTL g l) F.RXG_RXL_CTL_PATSEL
    let syms := if s.on (R.RXG_RXL_CTL g l) F.RXG_RXL_CTL_POL_INV then negSyms syms else syms
    let r := checkBits sel (grayBits syms) (SMap.get (fun _ => 0) s.link.prbsRx key)
      (SMap.get (fun _ => 0) s.link.prbsGot key) 0
    let s := { s with link := { s.link with
        prbsRx := SMap.set (fun _ => 0) key r.1 s.link.prbsRx
        prbsGot := SMap.set (fun _ => 0) key r.2.1 s.link.prbsGot } }
    (s.inc64 (R.RXG_RXL_ERR_LO g l) r.2.2).flag (R.RXG_RXL_STAT g l) F.RXG_RXL_STAT_CHK_SYNC (decide (prbsLen sel ≤ r.2.1))

/-- The symbols that came in on a receive lane in the period. -/
def cameIn (test : List (Fin 8 × Fin 10 × List (BitVec 2))) (g l : Nat) : List Nat :=
  (test.filter fun x => decide (x.1.val = g ∧ x.2.1.val = l)).flatMap fun x => x.2.2.map BitVec.toNat

/-- A lane's test facilities over a period of `ui`: what it sends in place of mission data, where that goes, and its checker. -/
def testPeriod (test : List (Fin 8 × Fin 10 × List (BitVec 2))) (ui : Nat) (s : State) (g l : Nat) : State :=
  let s := if s.farLoop g l then (s.quiet g l).emit g l (cameIn test g l)
    else if s.patternOn g l then let r := s.patternSyms g l ui; (r.2.quiet g l).emit g l r.1
    else s
  if s.nearLoop g l then (s.check g l (SMap.get (fun _ => []) s.link.symOut (10 * g + l))).quiet g l
  else s.check g l (cameIn test g l)

/-- Every lane's test facilities over a period; a powered-off group has none. -/
def testLanes (s : State) (test : List (Fin 8 × Fin 10 × List (BitVec 2))) (ui : Nat) : State :=
  groups.foldl (fun t g => lanesOfGroup.foldl (fun u l => testPeriod test ui u g l) t) s

/-- The transmitter sends one frame of 12 flits at the current width, or outside ACTIVE a training period of 1,024 UI; lanes under
test go through the same time (R30, R57, R66). `test` is what came in meanwhile on lanes under test. -/
def frameTransmit (s : State) (test : List (Fin 8 × Fin 10 × List (BitVec 2))) : State :=
  if s.drogue then s
  else if s.linkActive then
    let ui := frameUI (s.curStep .tx)
    let t := (sendFrame (buildFlits 12 s) ui).testLanes test ui
    if t.link.recoverDue then t.enterRecover else t
  else s.clearOut.trainPeriod.testLanes test 1024

/-! ### Timers of the link layer (R80, R91) -/

/-- No ACK advance within ACK_TIMEOUT: replay from the oldest stored flit (R80). -/
def ackTimeout (s : State) : State :=
  match s.link.stored with
  | [] => s
  | f :: _ => if s.linkActive && (s.txState == 0 || s.txState == 2) then s.startReplay f.seq else s

/-- The end of an automatic-mode window of a direction: the automatic step is never narrower than the target (R91). -/
def autoWindow (s : State) (d : Dir) : State :=
  let on := match d with
    | .rx => s.on R.LINK_WIDTH_CTL F.LINK_WIDTH_CTL_RX_AUTO
    | .tx => s.on R.LINK_WIDTH_CTL F.LINK_WIDTH_CTL_TX_AUTO
  let all := SMap.get (fun _ => 0) s.link.slotsAll (dirIx d)
  let used := SMap.get (fun _ => 0) s.link.slotsUsed (dirIx d)
  let target := match d with
    | .rx => s.fld R.LINK_WIDTH_CTL F.LINK_WIDTH_CTL_RX_TARGET
    | .tx => s.fld R.LINK_WIDTH_CTL F.LINK_WIDTH_CTL_TX_TARGET
  let cur := min target (SMap.get (fun _ => 0) s.link.autoStep (dirIx d))
  let lo := s.fld R.LINK_WIDTH_CTL F.LINK_WIDTH_CTL_AUTO_LOW
  let hi := s.fld R.LINK_WIDTH_CTL F.LINK_WIDTH_CTL_AUTO_HIGH
  let next := if hi * all < 100 * used then cur - 1 else if 100 * used < lo * all then min target (cur + 1) else cur
  let s := { s with link := { s.link with
      slotsAll := SMap.set (fun _ => 0) (dirIx d) 0 s.link.slotsAll
      slotsUsed := SMap.set (fun _ => 0) (dirIx d) 0 s.link.slotsUsed } }
  if on && s.linkActive then
    { s with link := { s.link with autoStep := SMap.set (fun _ => 0) (dirIx d) next s.link.autoStep } }.decideWidth d
  else s

end State
end Sys2Proof.Machine
end

