-- ==== Sys2Proof/Machine/Sampler.lean ====
section
/-! DEFINITION. The request sampler of the performance monitor: tagging, stamps and ring entries (R436 to R441). Stamps
are in channel clocks of the model's timestamp. -/

namespace Sys2Proof.Machine

/-- One step of the interval LFSR x^32 + x^22 + x^2 + x + 1 (R436): shifted left, the feedback entering at bit 0. -/
def lfsrStep (v : Word) : Word :=
  (v <<< 1) ||| (if v.getLsbD 31 ^^ v.getLsbD 21 ^^ v.getLsbD 1 ^^ v.getLsbD 0 then 1 else 0)

/-- 1,200 channel clocks per µs. -/
def clocksOf (ns : Nat) : Nat := ns * 12 / 10

namespace State

/-- Change the sample of a request. -/
def sample (s : State) (id : Nat) (f : Sample → Sample) : State :=
  { s with perf := { s.perf with inFlight := s.perf.inFlight.map fun x => if x.id = id then f x else x } }

/-- Stamp point `n` of a request's sample, once (R437). -/
def stamp (s : State) (id n : Nat) : State :=
  s.sample id fun x =>
    if x.stamps.getD (n - 1) 0 = 0 then { x with stamps := x.stamps.set (n - 1) (clocksOf (s.clk.up - x.at_)) } else x

/-- A request is eligible for sampling (R436). -/
def eligibleSample (s : State) (h : Word64) : Bool :=
  let o := hOpc h
  s.on R.PERF_SAMP_CTL F.PERF_SAMP_CTL_EN
    && ((decide (o = 1) && s.on R.PERF_SAMP_CTL F.PERF_SAMP_CTL_OPC_RD)
      || (decide (o = 2 ∨ o = 3) && s.on R.PERF_SAMP_CTL F.PERF_SAMP_CTL_OPC_WR)
      || (decide (o = 4) && s.on R.PERF_SAMP_CTL F.PERF_SAMP_CTL_OPC_ATOM))
    && s.bit R.PERF_SAMP_CTL F.PERF_SAMP_CTL_TC_MASK (hTc h)
    && (if hMid h < 32 then s.rd R.PERF_SAMP_MID_LO else s.rd R.PERF_SAMP_MID_HI).getLsbD (hMid h % 32)

/-- The interval after a tag, stepping the LFSR (R436). -/
def nextInterval (s : State) : State :=
  let k := min 24 (s.fld R.PERF_SAMP_CTL F.PERF_SAMP_CTL_K)
  if k = 0 then { s with perf := { s.perf with interval := 1 } }
  else
    let l := lfsrStep s.perf.lfsr
    { s with perf := { s.perf with lfsr := l, interval := 2 ^ (k - 1) + l.toNat % 2 ^ k } }

/-- SAMPLE_TAG: a request that the transaction layer decodes is considered (R436). -/
def sampleTag (s : State) (id : Nat) (h ingress : Word64) (at_ : Nat) : State :=
  if !s.eligibleSample h then s
  else if 1 < s.perf.interval then { s with perf := { s.perf with interval := s.perf.interval - 1 } }
  else if s.on R.PERF_PERF_STAT F.PERF_PERF_STAT_FROZEN && s.on R.PERF_PERF_CTL F.PERF_PERF_CTL_FREEZE_RING then s
  else
    let s := s.nextInterval
    if 64 ≤ s.perf.inFlight.length then s.inc R.PERF_SAMP_BUSY
    else
      { s with perf := { s.perf with inFlight := s.perf.inFlight ++
          [{ id := id, ts := ingress, at_ := at_, header := h, tagsOut := s.xact.reqs.length,
             point := s.fld R.PWR_DVFS_STAT F.PWR_DVFS_STAT_POINT }] } }

/-- Set bits of the WHERE field. -/
def sampleWhere (s : State) (id bits : Nat) : State := s.sample id fun x => { x with whr := x.whr ||| bits }

/-- A sampled request passes the Bridle with a priority: stamp 1 and the operating point of that moment (R437, R438). -/
def samplePass (s : State) (id p : Nat) : State :=
  (s.stamp id 1).sample id fun x => { x with whr := x.whr ||| p * 2 ^ 28, point := s.fld R.PWR_DVFS_STAT F.PWR_DVFS_STAT_POINT }

/-- The target of a sampled access: controller, location and queue fill at stamp 4. -/
def sampleUnit (s : State) (id f : Nat) : State :=
  let p := s.pch (fPc f)
  s.sample id fun x => { x with
    unit := s.ctrlPage (fChan f) + 64 * fPch f + 128 * fSid f + 512 * fBank f, rdq := p.rq.length, wrq := p.wq.length }

/-- The bytes of a ring entry (R438), as one little-endian number. -/
def ringEntry (x : Sample) (seq : Nat) : BitVec 1024 :=
  let st := (List.range 7).foldl (fun n i => n + x.stamps.getD i 0 % 2 ^ 32 * 2 ^ (8 * (24 + 4 * i))) 0
  BitVec.ofNat 1024 (x.ts.toNat + x.header.toNat * 2 ^ 64 + x.whr % 2 ^ 32 * 2 ^ 128 + x.unit % 2 ^ 16 * 2 ^ 160
    + x.status % 256 * 2 ^ 176 + x.point % 256 * 2 ^ 184 + st + x.tagsOut % 2 ^ 16 * 2 ^ (8 * 52)
    + x.rdq % 256 * 2 ^ (8 * 54) + x.wrq % 256 * 2 ^ (8 * 55) + seq % 2 ^ 64 * 2 ^ (8 * 56))

/-- No free entry in stop mode (R439). -/
def ringFull (s : State) : Bool :=
  s.on R.PERF_SAMP_CTL F.PERF_SAMP_CTL_RING_MODE
    && decide ((s.fld R.PERF_RING_WR F.PERF_RING_WR_INDEX + 1) % 4096 = s.fld R.PERF_RING_RD F.PERF_RING_RD_INDEX)

/-- RING_ENTRY_WRITE: the response frame of a tagged request leaves (R438, R439). -/
def sampleDone (s : State) (id : Nat) : State :=
  match (s.stamp id 7).perf.inFlight.find? fun x => decide (x.id = id) with
  | none => s
  | some x =>
    let s := { s with perf := { s.perf with inFlight := s.perf.inFlight.filter fun y => decide (y.id ≠ id) } }
    if s.ringFull then s.inc R.PERF_SAMP_LOST
    else
      let i := s.fld R.PERF_RING_WR F.PERF_RING_WR_INDEX
      let s := { s with perf := { s.perf with
        ring := SMap.set (fun _ => 0) i (ringEntry x s.perf.seq.toNat) s.perf.ring, seq := s.perf.seq + 1 } }
      (s.put R.PERF_RING_WR F.PERF_RING_WR_INDEX ((i + 1) % 4096)).inc64 R.PERF_SAMPLES_LO

/-- A tagged request that receives no response (R438). -/
def sampleLost (s : State) (id : Nat) : State :=
  if s.perf.inFlight.any fun x => decide (x.id = id) then
    { s with perf := { s.perf with inFlight := s.perf.inFlight.filter fun y => decide (y.id ≠ id) } }.inc R.PERF_SAMP_LOST
  else s

/-- The frame that leaves carries the end of responses: those that waited before and are placed whole now (R438). -/
def samplesLeave (s t : State) : State :=
  let before := s.link.txq.filterMap TxItem.req
  let after := t.link.txq.filterMap TxItem.req
  (before.filter fun i => !after.contains i).foldl (fun u i => u.sampleDone i) t

end State
end Sys2Proof.Machine
end

