-- ==== Sys2Proof/Machine/Shares.lean ====
section
/-! DEFINITION. Shares of the DRAM bandwidth: what the Bridle publishes, which class is behind, and the budgets of
migration, zeroing and the cache's background work in an epoch (R138, R145, R173, R265 to R269, R303). -/

namespace Sys2Proof.Machine
namespace State

/-! ### What the Bridle publishes (R265 to R268) -/

/-- BR_CTL in force. -/
def bridleCtl (s : State) : Word := s.bridle.window.getD (regReset R.BRIDLE_BR_CTL)
def guarOn (s : State) : Bool := decide (F.BRIDLE_BR_CTL_GUAR_EN.get s.bridleCtl = 1)

/-- The guarantee window, µs. -/
def guarWindow (s : State) : Nat := min 1000 (max 1 (F.BRIDLE_BR_CTL_GUAR_WINDOW_US.get s.bridleCtl))
def bgReserve (s : State) : Nat := min 25 (F.BRIDLE_BR_CTL_BG_RESERVE_PCT.get s.bridleCtl)
def beMin (s : State) : Nat := min 25 (F.BRIDLE_BR_CTL_BE_MIN_PCT.get s.bridleCtl)
def delivDram (s : State) : Nat := s.fld R.BRIDLE_DELIV_DRAM F.BRIDLE_DELIV_DRAM_RATE
def honoured (s : State) (t : Nat) : Nat := s.fld (R.BRIDLE_TC_HONOUR t) F.BRIDLE_TC_HONOUR_HONOURED
def allowance (s : State) (t : Nat) : Nat := SMap.get (fun _ => 0) s.bridle.allow t
def classSent (s : State) (t : Nat) : Nat := SMap.get (fun _ => 0) s.bridle.sent t

def classes : List Nat := [0, 1, 2, 3, 4, 5, 6, 7]

/-- A class is behind (R268). -/
def behind (s : State) (t : Nat) : Bool :=
  s.guarOn && decide (s.allowance t ≠ 0)
    && (!(SMap.get (fun _ => []) s.link.rx t).isEmpty || s.xact.reqs.any (fun r => hTc r.header == t && r.stage != .done))
    && decide (s.classSent t * (1000 * s.guarWindow) < s.allowance t * (s.clk.up - s.bridle.winAt))

/-- Refresh share of a die: 0.025, 0.05 or 0.10 by its step (R212). -/
def refShare (s : State) (d : Nat) : Rat :=
  let st := s.fld R.RFM_REF_STEP F.RFM_REF_STEP_DIE_STEP / 4 ^ d % 4
  if st = 0 then 1 / 40 else if st = 1 then 1 / 20 else 1 / 10

/-! ### Budgets of an epoch, in bytes (R145, R173, R269; assumption 104) -/

/-- Bytes that `pct` percent of DELIV_DRAM carry in an epoch of 1 ms. -/
def shareBytes (s : State) (pct : Nat) : Nat := s.delivDram * 1000 * pct

/-- Percent of policy moves, of evacuation in or out of a shortfall, and of the cache's background work. -/
def polPct (s : State) : Nat :=
  if s.place.shortfall then 0 else min 50 (s.knob R.PLACE_MIG_CTL F.PLACE_MIG_CTL_MIG_BW_PCT)
def evacMin (s : State) : Nat := max 1 (s.knob R.PLACE_MIG_CTL F.PLACE_MIG_CTL_EVAC_MIN_PCT)
def evacPct (s : State) : Nat :=
  if s.place.shortfall then s.evacMin else min 50 (s.knob R.PLACE_MIG_CTL F.PLACE_MIG_CTL_EVAC_BW_PCT)
def bgPct (s : State) : Nat := max 1 (s.fld R.CACHE_CACHE_CTL F.CACHE_CACHE_CTL_BG_BW_PCT)

/-- What background work together may draw while a class is behind (R269). -/
def scaled (s : State) : Nat := s.shareBytes (max s.bgReserve s.evacMin)

/-- What evacuation leaves of it to policy moves, by their normal share. -/
def polPart (s : State) : Nat := (s.scaled - s.place.evacUsed) * s.polPct / max 1 (s.polPct + s.bgPct)

/-- The cache has background work: a write-back, a flush or a PREFETCH fill. -/
def bgWaits (s : State) : Bool :=
  !s.cache.prefetchQ.isEmpty || !s.cache.flushQ.isEmpty || s.cache.job.isSome || s.cache.bg.any (·.2)

/-- Bytes that evacuation may use in this epoch: behind, what the other two have not drawn of the common limit. -/
def evacShare (s : State) : Nat :=
  if classes.any s.behind then min (s.shareBytes s.evacPct) (s.scaled - s.place.polUsed - s.place.bgUsed)
  else s.shareBytes s.evacPct

/-- Bytes that policy moves may use: behind, a part that the cache's work cannot use passes to them. -/
def polShare (s : State) : Nat :=
  if !classes.any s.behind then s.shareBytes s.polPct
  else
    let left := s.scaled - s.place.evacUsed - s.place.bgUsed
    min (s.shareBytes s.polPct) (if s.bgWaits then min s.polPart left else left)

/-- Bytes that background write-back, flushes and PREFETCH fills may use. -/
def bgShare (s : State) : Nat :=
  if !classes.any s.behind then s.shareBytes s.bgPct
  else min (s.shareBytes s.bgPct) (s.scaled - s.place.evacUsed
    - (if s.place.moveQ.isEmpty then s.place.polUsed else max s.place.polUsed s.polPart))

/-- Traffic of one move, of one line copied, and of one frame zeroed. -/
def moveBytes : Nat := 131072
def lineBytes : Nat := 128
def zeroBytes : Nat := 65536

def evacFits (s : State) (n : Nat) : Bool := decide (s.place.evacUsed + n ≤ s.evacShare)
def polFits (s : State) (n : Nat) : Bool := decide (s.place.polUsed + n ≤ s.polShare)
def bgFits (s : State) (n : Nat) : Bool := decide (s.place.bgUsed + n ≤ s.bgShare)

/-- Charge traffic of an evacuation, or of a policy move. -/
def chargeMove (s : State) (evac : Bool) (n : Nat) : State :=
  if evac then { s with place := { s.place with evacUsed := s.place.evacUsed + n } }
  else { s with place := { s.place with polUsed := s.place.polUsed + n } }
def chargeBg (s : State) (n : Nat) : State := { s with place := { s.place with bgUsed := s.place.bgUsed + n } }

/-- Half of the data-bus slots of a retiring pseudo-channel in an epoch, as bytes read (R303). -/
def halfBus (s : State) (pc : Nat) : Nat :=
  let ds := [0, 1, 2, 3].map fun i => 4 * i + pc / 2 % 4
  let r := (ds.map s.refShare).foldl (· + ·) 0 / 4
  ((19200000 : Rat) * (7 / 8 - r)).floor.toNat

/-- The frame lies in a pseudo-channel that is being retired whole. -/
def pchRetiring (s : State) (f : Nat) : Bool :=
  s.place.retiring.any fun r => decide (resType r = 14 ∨ resType r = 15) && resHolds r f

/-- A retiring pseudo-channel has slots left for one more evacuation out of it. -/
def pchFits (s : State) (f : Nat) : Bool :=
  !s.pchRetiring f || decide (SMap.get (fun _ => 0) s.place.pchUsed (fPc f) + 65536 ≤ s.halfBus (fPc f))

def chargePch (s : State) (f : Nat) : State :=
  if s.pchRetiring f then { s with place := { s.place with
    pchUsed := SMap.upd (fun _ => 0) (fPc f) (· + 65536) s.place.pchUsed } } else s

/-- A frame leaves the zeroing queue to be zeroed, when the migration budget has room: the share of policy moves, else
that of evacuation (R138). -/
def zeroStart (s : State) : State :=
  match s.place.zeroQ with
  | [] => s
  | f :: q =>
    if !s.polFits zeroBytes && !s.evacFits zeroBytes then s
    else
      let s := s.chargeMove (!s.polFits zeroBytes) zeroBytes
      { s with place := { s.place with zeroQ := q, zeroing := s.place.zeroing ++ [f] } }

end State
end Sys2Proof.Machine
end

