-- ==== Sys2Proof/Machine/Bridle.lean ====
section
/-! DEFINITION. The Bridle: budgets, holding and refusal at the port, priorities, urgency pins, the deliverable bandwidth
and the guarantees (R254 to R272). -/

namespace Sys2Proof.Machine

/-- Bytes charged for a request (R255); LEN code 3 counts as 256 bytes. -/
def chargeOf (h : Word64) : Nat :=
  let o := hOpc h
  if o = 1 ∨ o = 2 ∨ o = 3 then (if hLen h = 0 then 64 else if hLen h = 1 then 128 else 256)
  else if o = 4 then 64 else 0

/-- Configuration accesses are never refused (R255). -/
def isCfg (h : Word64) : Bool := decide (hOpc h = 8 ∨ hOpc h = 9)

/-- Core clock at an operating point, in units of 0.1 GHz (R331). -/
def coreTenths (p : Nat) : Nat := if p = 0 then 20 else if p = 1 then 16 else if p = 2 then 12 else 8

namespace State

/-! ### Masters and pins (R256, R262 to R264) -/

def effCtl (s : State) (m : Nat) : Word := SMap.get (fun m => regReset (R.BRIDLE_REG_CTL m)) s.bridle.ctl m
def effBudget (s : State) (m : Nat) : Nat := F.BRIDLE_REG_BUDGET_BUDGET.get (SMap.get (fun _ => 0) s.bridle.budget m)
def effMode (s : State) (m : Nat) : Nat := F.BRIDLE_REG_CTL_MODE.get (s.effCtl m)
def remain (s : State) (m : Nat) : Int := SMap.get (fun _ => 0) s.bridle.remain m
def setRemain (s : State) (m : Nat) (v : Int) : State :=
  { s with bridle := { s.bridle with remain := SMap.set (fun _ => 0) m v s.bridle.remain } }

/-- REG_CTL and REG_BUDGET take effect. -/
def latchMaster (s : State) (m : Nat) : State :=
  { s with bridle := { s.bridle with
      ctl := SMap.set (fun m => regReset (R.BRIDLE_REG_CTL m)) m (s.rd (R.BRIDLE_REG_CTL m)) s.bridle.ctl
      budget := SMap.set (fun _ => 0) m (s.rd (R.BRIDLE_REG_BUDGET m)) s.bridle.budget } }

/-- The Bridle's budgets and holding are in force (BR_CTL.EN). -/
def bridleOn (s : State) : Bool := decide (F.BRIDLE_BR_CTL_EN.get s.bridleCtl = 1)

def pins : List Nat := [0, 1, 2, 3]

/-- A pin is asserted and in use. -/
def pinOn (s : State) (p : Nat) : Bool :=
  s.bit R.SIDE_PIN_STAT F.SIDE_PIN_STAT_ASSERTED p && s.bit R.SIDE_PIN_CTL F.SIDE_PIN_CTL_PIN_EN p
def pinStuck (s : State) (p : Nat) : Bool := s.bit R.SIDE_PIN_STAT F.SIDE_PIN_STAT_STUCK p

/-- A pin names a master. -/
def pinNames (s : State) (p m : Nat) : Bool :=
  (if m < 32 then s.rd (R.SIDE_URG_MAP_LO p) else s.rd (R.SIDE_URG_MAP_HI p)).getLsbD (m % 32)

/-- A stuck pin names the master (R264). -/
def stuckNames (s : State) (m : Nat) : Bool := pins.any fun p => s.pinStuck p && s.pinNames p m

/-- The pins that grant a master extra budget and exemption: none while a stuck pin names it (R263, R264). -/
def grantPins (s : State) (m : Nat) : List Nat :=
  if s.stuckNames m then [] else pins.filter fun p => s.pinOn p && s.pinNames p m

/-- Urgency level of a master: the highest of its asserted pins, at most 1 while a stuck pin names it (R263, R264). -/
def urgency (s : State) (m : Nat) : Nat :=
  let n := pins.foldl (fun n p =>
    if s.pinOn p && s.pinNames p m then max n (s.fld (R.SIDE_URG_CFG p) F.SIDE_URG_CFG_PRIO) else n) 0
  if s.stuckNames m then min 1 n else n

/-- Extra budget of a master in bytes. -/
def extraBytes (s : State) (m : Nat) : Nat :=
  let pct := (s.grantPins m).foldl (fun n p => max n (s.fld (R.SIDE_URG_CFG p) F.SIDE_URG_CFG_EXTRA_PCT)) 0
  s.effBudget m * 256 * pct / 100

/-- A master's window starts: the budget is refilled, an overdraft is repaid (R256, R263). -/
def windowStart (s : State) (m : Nat) : State :=
  if s.effMode m = 0 then s
  else
    let s := s.latchMaster m
    s.setRemain m ((s.effBudget m * 256 : Nat) + min (s.remain m) 0 + (s.extraBytes m : Nat))

/-! ### Guarantees (R267, R268) -/

/-- A request of a class is guaranteed now. -/
def guaranteed (s : State) (t : Nat) : Bool := s.guarOn && decide (s.classSent t < s.allowance t)

/-- A request is excess (R268). -/
def isExcess (s : State) (h : Word64) : Bool :=
  s.guarOn && decide (chargeOf h ≠ 0) && !s.guaranteed (hTc h) && (s.grantPins (hMid h)).isEmpty

/-- An excess request is held now. -/
def excessHold (s : State) (h : Word64) : Bool := s.isExcess h && decide (s.bridle.pool ≤ 0) && classes.any s.behind

/-! ### Priority (R260, R261) -/

def latLevel (s : State) (t : Nat) : Nat := s.fld (R.BRIDLE_TC_LAT t) F.BRIDLE_TC_LAT_LEVEL

/-- The priority that the sources give a request now. -/
def prioOf (s : State) (h : Word64) : Nat :=
  max (s.latLevel (hTc h)) (max (if s.guaranteed (hTc h) && s.behind (hTc h) then 1 else 0) (s.urgency (hMid h)))

/-- Priorities of released requests rise with their sources and never fall; the channel queues follow (R260). Which of several
released requests is looked up first is the choice of the commands (assumption 128). -/
def raisePrio (s : State) : State :=
  let rs := s.xact.reqs.map fun r => if r.stage = .held then r else { r with prio := max r.prio (s.prioOf r.header) }
  let up := fun (q : DReq) =>
    if q.write || q.scrub then q else match rs.find? fun r => decide (r.id = q.req) with
      | some r => { q with prio := max q.prio r.prio }
      | none => q
  { s with
    xact := { s.xact with reqs := rs }
    ch := { s.ch with pch := s.ch.pch.map fun e => (e.1, { e.2 with rq := e.2.rq.map up }) } }

/-- The latency level of a class from its mean (R261). -/
def setLevel (s : State) (t : Nat) : State :=
  let target := s.fld (R.BRIDLE_TC_LAT t) F.BRIDLE_TC_LAT_TARGET * 4
  let m := SMap.get (fun _ => (0 : Rat)) s.bridle.mean t
  let lv := if target = 0 then 0
    else if m * 2 < (target : Rat) then 0 else if m * 4 < 3 * (target : Rat) then 1 else if m < (target : Rat) then 2 else 3
  let late := decide (target ≠ 0 ∧ (target : Rat) ≤ m)
  let s := s.put (R.BRIDLE_TC_LAT t) F.BRIDLE_TC_LAT_LEVEL lv
  (s.put (R.BRIDLE_TC_LAT t) F.BRIDLE_TC_LAT_MEAS (min 4095 (m / 4).floor.toNat)).setBit R.BRIDLE_BR_STAT
    F.BRIDLE_BR_STAT_LATE t late

/-- A completed request enters its class's mean (R261). -/
def latencyDone (s : State) (r : Req) : State :=
  let o := hOpc r.header
  if o = 1 ∨ o = 2 ∨ o = 3 ∨ o = 4 then
    let t := hTc r.header
    let lat := s.clk.up - r.decoded
    let m := SMap.get (fun _ => (0 : Rat)) s.bridle.mean t
    let s := { s with bridle := { s.bridle with
      mean := SMap.set (fun _ => (0 : Rat)) t (m + ((lat : Rat) - m) / 16) s.bridle.mean } }
    let target := s.fld (R.BRIDLE_TC_LAT t) F.BRIDLE_TC_LAT_TARGET * 4
    let s := if target ≠ 0 ∧ target < lat then s.inc R.BRIDLE_LATE_REQS else s
    (s.setLevel t).raisePrio
  else s

/-! ### The port (R254, R257, R258) -/

def heldOf (s : State) (m : Nat) : Nat := (s.xact.reqs.filter fun r => r.stage == .held && hMid r.header == m).length
def heldAll (s : State) : Nat := (s.xact.reqs.filter fun r => r.stage == .held).length
def holdMax (s : State) : Nat := max 1 (s.fld R.BRIDLE_HOLD_CTL F.BRIDLE_HOLD_CTL_HOLD_MAX)

/-- The master is at its limit (R258). -/
def atLimit (s : State) (m : Nat) : Bool := decide (s.holdMax ≤ s.heldOf m ∨ 16384 ≤ s.heldAll)

/-- The same master and class. -/
def samePair (a b : Word64) : Bool := hMid a == hMid b && hTc a == hTc b

/-- A budget holds a request. -/
def budgetHold (s : State) (h : Word64) : Bool :=
  let mode := s.effMode (hMid h)
  decide (chargeOf h ≠ 0 ∧ (mode = 1 ∨ mode = 2) ∧ s.remain (hMid h) ≤ 0)

/-- Count the bytes of a release: to the master while budgets are in force, to the class, and for excess to the pool (R256, R268,
R271 EN). -/
def charge (s : State) (h : Word64) (bytes : Nat) (excess : Bool) : State :=
  let m := hMid h
  let s := if s.bridleOn && decide (s.effMode m = 1 ∨ s.effMode m = 2) then s.setRemain m (s.remain m - bytes) else s
  { s with bridle := { s.bridle with
      sent := SMap.upd (fun _ => 0) (hTc h) (· + bytes) s.bridle.sent
      pool := if excess then s.bridle.pool - bytes else s.bridle.pool } }

/-- Change a request by its number. -/
def updReq (s : State) (id : Nat) (f : Req → Req) : State :=
  { s with xact := { s.xact with reqs := s.xact.reqs.map fun r => if r.id = id then f r else r } }

/-- Release a request to the placement look-up. -/
def releaseReq (s : State) (r : Req) : State :=
  let p := s.prioOf r.header
  let s := s.charge r.header (chargeOf r.header) (s.isExcess r.header)
  let s := s.updReq r.id fun x => { x with stage := .ready, prio := p }
  s.samplePass r.id p

/-- What the port does with a request (R254, R257, R258). -/
inductive Port where
  | pass | hold | refuse | stay
  deriving DecidableEq, Repr

def portOf (s : State) (h : Word64) : Port :=
  let m := hMid h
  let earlier := s.xact.reqs.any fun r => r.stage == .held && samePair r.header h
  if !s.bridleOn && !earlier then .pass
  else if s.bridleOn ∧ s.effMode m = 3 ∧ !isCfg h then .refuse
  else if earlier || s.budgetHold h || s.excessHold h then
    if !s.atLimit m then .hold
    else if s.bridleOn ∧ s.effMode m = 2 ∧ !isCfg h then .refuse
    else .stay
  else .pass

/-- A held request's conditions have cleared and it heads its queue. -/
def canRelease (s : State) (r : Req) : Bool :=
  r.stage == .held
    && !s.xact.reqs.any (fun x => x.stage == .held && samePair x.header r.header && decide (x.id < r.id))
    && (!s.bridleOn || (!s.budgetHold r.header && !s.excessHold r.header))

/-- The head to release next: the highest priority, then the oldest. -/
def nextRelease (s : State) : Option Req :=
  let l := s.xact.reqs.filter s.canRelease
  match l with
  | [] => none
  | a :: t => some (t.foldl (fun b x => if s.prioOf b.header < s.prioOf x.header then x else b) a)

/-- Release up to `n` held requests. -/
def releaseUpTo : Nat → State → State
  | 0, s => s
  | n + 1, s => match s.nextRelease with | none => s | some r => releaseUpTo n (s.releaseReq r)

/-- HOLD_RELEASE: up to 8 per core clock. -/
def holdRelease (s : State) : State := if s.released then releaseUpTo 8 s.raisePrio else s

/-- HOLD_LIMIT_EXPIRY: a head held for 1 ms is released whatever its conditions (R257). -/
def holdLimit (s : State) (tag : Nat) : State :=
  match s.xact.reqs.find? fun r => r.stage == .held && hTag r.header == tag with
  | none => s
  | some r =>
    if s.xact.reqs.any fun x => x.stage == .held && samePair x.header r.header && decide (x.id < r.id) then s
    else (s.releaseReq r).inc R.BRIDLE_HOLD_LIMITS

/-! ### The pins (R262 to R264) -/

/-- URG_PIN_ASSERT. -/
def pinAssert (s : State) (p : Nat) : State :=
  let s := s.setBit R.SIDE_PIN_STAT F.SIDE_PIN_STAT_RAW p true
  if !s.bit R.SIDE_PIN_CTL F.SIDE_PIN_CTL_PIN_EN p || s.bit R.SIDE_PIN_STAT F.SIDE_PIN_STAT_ASSERTED p then s
  else
    let before := (List.range 64).map s.extraBytes
    let s := (s.setBit R.SIDE_PIN_STAT F.SIDE_PIN_STAT_ASSERTED p true).inc (R.SIDE_ASSERTS p)
    let s := (List.range 64).foldl (fun t m =>
      if s.pinNames p m ∧ s.effMode m ≠ 0 then t.setRemain m (t.remain m + ((s.extraBytes m - before.getD m 0 : Nat) : Int)) else t) s
    s.raisePrio

/-- URG_PIN_DEASSERT. -/
def pinDeassert (s : State) (p : Nat) : State :=
  ((s.setBit R.SIDE_PIN_STAT F.SIDE_PIN_STAT_RAW p false).setBit R.SIDE_PIN_STAT F.SIDE_PIN_STAT_ASSERTED p false).setBit
    R.SIDE_PIN_STAT F.SIDE_PIN_STAT_STUCK p false

/-- URG_PIN_STUCK. -/
def pinStick (s : State) (p : Nat) : State :=
  if s.pinOn p && !s.pinStuck p then (s.setBit R.SIDE_PIN_STAT F.SIDE_PIN_STAT_STUCK p true).inc (R.SIDE_STUCKS p) else s

/-- A pin taken out of use counts as deasserted; one taken into use while its filtered input is low is asserted (R262). -/
def pinEnable (s : State) : State :=
  pins.foldl (fun t p => if t.bit R.SIDE_PIN_CTL F.SIDE_PIN_CTL_PIN_EN p then
      (if t.bit R.SIDE_PIN_STAT F.SIDE_PIN_STAT_RAW p then t.pinAssert p else t)
    else (t.setBit R.SIDE_PIN_STAT F.SIDE_PIN_STAT_ASSERTED p false).setBit R.SIDE_PIN_STAT F.SIDE_PIN_STAT_STUCK p false) s

/-! ### Deliverable bandwidth and honoured guarantees (R265 to R267) -/

/-- Allowed fraction of a die: 0 when retired (R265, R323). -/
def dieShare (s : State) (d : Nat) : Rat :=
  if s.on (R.DDIE_DIE_STAT d) F.DDIE_DIE_STAT_RETIRED then 0 else s.effFraction (2 + d)

/-- Rate of a pseudo-channel in GB/s (R265, R306). -/
def pchRate (s : State) (pc : Nat) : Rat :=
  let c := pc / 2
  let ds := [0, 1, 2, 3].map fun i => 4 * i + c % 4
  let r := (ds.map s.refShare).foldl (· + ·) 0 / 4
  let v := (ds.map s.dieShare).foldl (· + ·) 0 / 4
  let n := ((List.range 64).filter fun b => s.spillCond (64 * pc + b)).length
  let q := c / 8
  let lent := s.on (R.HEALTH_LEND q) F.HEALTH_LEND_ACTIVE
    && (decide (s.fld (R.HEALTH_LEND q) F.HEALTH_LEND_ORPHAN = c) || decide (s.ctrlOf c = some (s.fld (R.HEALTH_LEND q) F.HEALTH_LEND_LENDER)))
  if s.pchRetired pc then 0
  else (384 / 10 : Rat) * (7 / 8 - r) * v * (1 - (n : Rat) / 96) * (if lent then 1 / 2 else 1)

/-- DELIV_DRAM in units of 0.1 GB/s (R265). -/
def delivNow (s : State) : Nat :=
  let spine : Rat := (512 * coreTenths (s.fld R.PWR_DVFS_STAT F.PWR_DVFS_STAT_POINT) : Nat) / 10
  let quad := fun q => ((List.range 16).map fun i => s.pchRate (16 * q + i)).foldl (· + ·) 0
  (([0, 1, 2, 3].map fun q => min (quad q) spine).foldl (· + ·) 0 * 10).floor.toNat

/-- DELIV_LINK of a width (R266), 0.1 GB/s. -/
def linkRate (s : State) (d : Dir) : Nat :=
  if !s.linkActive then 0 else match s.curStep d with | 0 => 7740 | 1 => 3870 | 2 => 1940 | _ => 970

/-- Classes in the order in which guarantees are honoured. -/
def rankOrder (s : State) : List Nat :=
  sortBy classes fun a b =>
    decide (s.fld (R.BRIDLE_TC_GUAR a) F.BRIDLE_TC_GUAR_RANK < s.fld (R.BRIDLE_TC_GUAR b) F.BRIDLE_TC_GUAR_RANK
      ∨ (s.fld (R.BRIDLE_TC_GUAR a) F.BRIDLE_TC_GUAR_RANK = s.fld (R.BRIDLE_TC_GUAR b) F.BRIDLE_TC_GUAR_RANK ∧ a ≤ b))

/-- Honour one class from the capacity that is left. -/
def honourOne (p : Nat × State) (t : Nat) : Nat × State :=
  let g := p.2.fld (R.BRIDLE_TC_GUAR t) F.BRIDLE_TC_GUAR_GUAR
  let h := min g p.1
  (p.1 - h, (p.2.put (R.BRIDLE_TC_HONOUR t) F.BRIDLE_TC_HONOUR_HONOURED h).put (R.BRIDLE_TC_HONOUR t)
    F.BRIDLE_TC_HONOUR_SHORT (g - h))

/-- DELIV_COMPUTE (R265, R267, R270). -/
def delivCompute (s : State) : State :=
  if !s.clk.dramInit || s.inReset then s
  else
    let d := s.delivNow
    let gc := d * (100 - s.bgReserve - s.beMin) / 100
    let s := (s.put R.BRIDLE_DELIV_DRAM F.BRIDLE_DELIV_DRAM_RATE d).put R.BRIDLE_GUAR_CAP F.BRIDLE_GUAR_CAP_CAP gc
    let s := (s.rankOrder.foldl honourOne (gc, s)).2
    let sum := classes.foldl (fun n t => n + s.fld (R.BRIDLE_TC_GUAR t) F.BRIDLE_TC_GUAR_GUAR) 0
    let hon := classes.foldl (fun n t => n + s.honoured t) 0
    let short := classes.any fun t => s.on (R.BRIDLE_TC_HONOUR t) F.BRIDLE_TC_HONOUR_SHORT
    let s := if short && !s.on R.BRIDLE_BR_STAT F.BRIDLE_BR_STAT_SHORT then s.inc R.BRIDLE_SHORT_ENTRIES else s
    let s := s.flag R.BRIDLE_BR_STAT F.BRIDLE_BR_STAT_SHORT short
    (s.put R.BRIDLE_GUAR_SUM F.BRIDLE_GUAR_SUM_PROGRAMMED (min 65535 sum)).put R.BRIDLE_GUAR_SUM F.BRIDLE_GUAR_SUM_HONOURED hon

/-- GUAR_WINDOW_START (R268, R271). -/
def guarWindowStart (s : State) : State :=
  let w := s.guarWindow
  let s := classes.foldl (fun t c =>
    let b := s.behind c
    let t := t.put (R.BRIDLE_TC_RATE c) F.BRIDLE_TC_RATE_RATE (min 65535 (s.classSent c / (100 * w)))
    { t with bridle := { t.bridle with
        behindFor := SMap.upd (fun _ => 0) c (fun n => if b then n + 1 else 0) t.bridle.behindFor } }) s
  let s := { s with bridle := { s.bridle with window := some (s.rd R.BRIDLE_BR_CTL) } }
  let w := s.guarWindow
  let fill : Int := (s.delivDram * (100 - s.bgReserve) * w : Nat) - (classes.foldl (fun n t => n + s.honoured t) 0 * 100 * w : Nat)
  { s with bridle := { s.bridle with
      winAt := s.clk.up, sent := [], pool := fill + min s.bridle.pool 0
      allow := if s.guarOn then SMap.setAll (fun _ => 0) (classes.map fun t => (t, s.honoured t * 100 * w)) [] else [] } }

end State
end Sys2Proof.Machine
end

