-- ==== Sys2Proof/Machine/Migrate.lean ====
section
/-! DEFINITION. Migration and policy: epochs, the phases of a migration, hints on parcels, release and withdrawal,
the deficit's expiry, and the repair of table entries (R139 to R160, R166, R177). -/

namespace Sys2Proof.Machine
namespace State

/-! ### Parcels that leave service -/

/-- Abort a running migration (R149): the entry is PLACED on the source again, the destination is zeroed. -/
def abortMig (s : State) (k : Nat) (requeue : Bool) : State :=
  match SMap.get (fun _ => none) s.place.mig k with
  | none => s
  | some m =>
    let s := s.setMig k none
    let w := s.entry m.parcel
    let s := if eState w = 1 ∨ eState w = 2 then s.setEntry 0 m.parcel (eWith w m.src 0) else s
    let s := (s.queueZero m.dst).inc R.PLACE_MIG_ABORTS
    if m.keel then s
    else if !m.evac then { s with place := { s.place with noRetry := m.parcel :: s.place.noRetry } }
    else if requeue then { s with place := { s.place with evacQ := m.parcel :: s.place.evacQ } }
    else s

/-- Abort the migration of a parcel, if one runs. -/
def abortParcel (s : State) (n : Nat) (requeue : Bool) : State :=
  match s.migOf n with | none => s | some (k, _) => s.abortMig k requeue

/-- Take a parcel's data out: cached sectors and buffered writes are discarded, its frame is zeroed (R138, R175). -/
def dropData (s : State) (n : Nat) : State :=
  let w := s.live n
  if eHeld w then ((s.dropParcel (fQuad (eFrame w)) n).wdbDrop n).queueZero (eFrame w) else s

/-- A parcel becomes WITHDRAWN (R469). -/
def withdraw (s : State) (n : Nat) : State :=
  let s := s.abortParcel n false
  let s := s.dropData n
  let s := { s with place := { s.place with evacQ := s.place.evacQ.filter (· ≠ n), repair := SMap.set (fun _ => none) n none s.place.repair } }
  s.setEntry 3 n eWithdrawn

/-- A parcel becomes RELEASED (R150). NOCACHE and CACHE_ELIG stay (DESIGN CHOICE, assumption 116). -/
def release (s : State) (n : Nat) : State :=
  let s := s.abortParcel n false
  let s := s.dropData n
  let w := s.entry n
  let s := { s with place := { s.place with evacQ := s.place.evacQ.filter (· ≠ n) } }
  s.setEntry 2 n (mkEntry 0 3 false (eNocache w) (eElig w) false)

/-- WDR_CMD with REINSTATE: the WITHDRAWN parcels of the range become RELEASED (R159, R166, R469). -/
def reinstate (s : State) (first count : Nat) : State :=
  (List.range count).foldl (fun t i =>
    let n := first + i
    if n < t.parcels ∧ eState (t.entry n) = 4 then t.setEntry 4 n (mkEntry 0 3 false false false false) else t) s

/-- What R153 makes of a write to a RELEASED parcel. -/
inductive Alloc where
  | placed (s : State)
  | wait
  | withdrawn (s : State)

/-- RELEASED_WRITE_ALLOCATE (R153). -/
def allocate_ (s : State) (n : Nat) : Alloc :=
  match s.writeFrame with
  | some f =>
    let w := s.entry n
    .placed (((s.setFrame f 1).setHeat f 0).setEntry 0 n (mkEntry f 0 false (eNocache w) (eElig w) false))
  | none => if s.zeroingHelps && !(s.place.zeroQ ++ s.place.zeroing).isEmpty then .wait else .withdrawn (s.withdraw n)

/-! ### Starting moves (R143 to R146) -/

/-- An evacuation may take a FREE frame: one above the reserve is left, as in the worked example of R159. -/
def moveRoom (s : State) : Bool := decide (s.spareRes < s.fld R.PLACE_FRAMES_FREE F.PLACE_FRAMES_FREE_COUNT)

/-- The lowest free migration slot, while fewer than MIG_SLOTS run. -/
def freeSlot (s : State) : Option Nat :=
  if s.place.mig.length < s.migSlots then
    (List.range 64).find? fun k => (SMap.get (fun _ => none) s.place.mig k).isNone
  else none

/-- MIGRATION_START: the entry enters COPYING and the destination becomes USED (R146, R166). Its traffic counts
against the share of its kind (R145); a move that makes room for a keel frame counts as evacuation (assumption 105). -/
def startMig (s : State) (k n dst : Nat) (evac : Bool) (keel : Bool := false) : State :=
  let w := s.entry n
  let m : Mig := { parcel := n, src := eFrame w, dst := dst, evac := evac, phase := .copy, dirty := [], passes := 0
                   recopyMax := max 1 (s.fld R.PLACE_MIG_CTL F.PLACE_MIG_CTL_RECOPY_MAX)
                   closeLines := s.fld R.PLACE_MIG_CTL F.PLACE_MIG_CTL_CLOSE_LINES
                   closeMax := s.fld R.PLACE_MIG_CTL2 F.PLACE_MIG_CTL2_CLOSE_MAX, keel := keel }
  let s := (s.setFrame dst 1).setEntry 0 n (eWith w (eFrame w) 1)
  let s := (s.setMig k (some m)).chargeMove (evac || keel) moveBytes
  if evac then s.chargePch m.src else s

/-- The heat sum of a channel with the running policy moves reckoned as done (R143; DESIGN CHOICE, assumption 106). -/
def heatWith (s : State) (c : Nat) : Int :=
  s.place.mig.foldl (fun n e => match e.2 with
    | none => n
    | some m => if m.evac || m.keel then n
      else n + (if fChan m.dst = c then (s.frameHeat m.src : Int) else 0) - (if fChan m.src = c then (s.frameHeat m.src : Int) else 0))
    (s.chanHeatSum c : Int)

/-- A balance move keeps its destination channel below its source channel (R143). -/
def balanceOk (s : State) (n dst : Nat) : Bool :=
  let h : Int := s.parcelHeat n
  decide (s.heatWith (fChan dst) + h < s.heatWith (fChan (eFrame (s.entry n))) - h)

/-- Start the evacuation of a parcel taken from the queue; it goes back when no frame takes it. -/
def startEvac (s : State) (k n : Nat) (dest : Option Nat) : State :=
  match dest with
  | some f => s.startMig k n f true
  | none => { s with place := { s.place with evacQ := n :: s.place.evacQ } }

/-- The next evacuation, to the frame that R144 picks. -/
def evacOne (s : State) (k n : Nat) : State := s.startEvac k n (s.destination false true)

/-- Count a policy move that has started; with MOVES_MAX of them the rest of the epoch's plan is done (R143). -/
def countStart (s : State) : State :=
  let n := s.place.moved + 1
  { s with place := { s.place with
      moved := n
      moveQ := if n < s.knob R.PLACE_POL_CTL F.PLACE_POL_CTL_MOVES_MAX then s.place.moveQ else [] } }

/-- Start a policy move taken from the queue, when it may still go and a frame takes it. -/
def startMove (s : State) (k n : Nat) (thermal : Bool) : State :=
  let w := s.entry n
  if eState w ≠ 0 ∨ ePin w ∨ eEvac w ∨ s.place.noRetry.contains n ∨ s.place.shortfall
      ∨ (!thermal && dies.any s.dieFull) then s
  else match s.destination thermal false with
    | none => s
    | some f => if thermal || s.balanceOk n f then (s.startMig k n f false).countStart else s

/-- A queued evacuation may start now. -/
def evacReady (s : State) (n : Nat) : Bool :=
  eEvac (s.entry n) && decide (eState (s.entry n) = 0) && s.pchFits (eFrame (s.entry n))

/-- The evacuation to start next: a pinned parcel's first (R151). -/
def nextEvac (s : State) : Option Nat :=
  match s.place.evacQ.find? fun n => s.evacReady n && ePin (s.entry n) with
  | some n => some n
  | none => s.place.evacQ.find? s.evacReady

/-- Start the next policy move of the epoch. -/
def moveOne (s : State) (k : Nat) : State :=
  if !s.polFits moveBytes then s
  else match s.place.moveQ with
    | [] => s
    | (n, thermal) :: q => { s with place := { s.place with moveQ := q } }.startMove k n thermal

/-- Start one move: an evacuation first, then a policy move, each while its share lasts (R143, R145). -/
def startOne (s : State) : State :=
  match s.freeSlot with
  | none => s
  | some k =>
    match (if s.moveRoom && s.evacFits moveBytes then s.nextEvac else none) with
    | some n => { s with place := { s.place with evacQ := s.place.evacQ.filter (· ≠ n) } }.evacOne k n
    | none => s.moveOne k

/-- Start what can be started. -/
def pump : Nat → State → State
  | 0, s => s
  | n + 1, s => pump n s.startOne

/-! ### The epoch (R141 to R145) -/

/-- Parcels with heat, hottest first: (heat, parcel). -/
def hotParcels (s : State) : List (Nat × Nat) :=
  let l := s.place.heat.filterMap fun e => if e.2 = 0 then none else (s.parcelOf e.1).map fun n => (e.2, n)
  sortBy l fun a b => decide (b.1 < a.1 ∨ (a.1 = b.1 ∧ a.2 ≤ b.2))

/-- The policy registers and the shortfall as the epoch finds them (R145, R166, R270). -/
def latchKnobs (s : State) : State :=
  let regs := [R.PLACE_POL_CTL, R.PLACE_MIG_CTL, R.PLACE_THERM_CTL, R.PLACE_CACHE_CTL]
  { s with place := { s.place with
      knobs := SMap.setAll regReset (regs.map fun a => (a, s.rd a)) s.place.knobs
      shortfall := s.on R.BRIDLE_BR_STAT F.BRIDLE_BR_STAT_SHORT, noRetry := [], moveQ := [], moved := 0
      polUsed := 0, evacUsed := 0, bgUsed := 0, pchUsed := [] } }

/-- Heat sums of the channels. -/
def sumHeat (s : State) : State :=
  let m := s.place.heat.foldl (fun m e =>
    if (s.parcelOf e.1).isSome then SMap.upd (fun _ => 0) (fChan e.1) (· + e.2) m else m) []
  { s with place := { s.place with chanHeat := m } }

/-- Evacuation: the parcels with EVAC that do not move yet, pinned first, then by descending heat (R143 step 1). The order of each
epoch holds for every parcel, so one whose evacuation has aborted heads the queue until then (R149; DESIGN CHOICE, assumption 132). -/
def queueEvac (s : State) : State :=
  let l := s.place.table.filterMap fun e => if eEvac e.2 && decide (eState e.2 = 0) then some e.1 else none
  let key := fun n => (if ePin (s.entry n) then 256 else 0) + s.parcelHeat n
  { s with place := { s.place with evacQ := sortBy l fun a b => decide (key b ≤ key a) } }

/-- A parcel that policy may move. -/
def movable (s : State) (n : Nat) : Bool :=
  let w := s.entry n
  decide (eState w = 0) && !ePin w && !eEvac w

/-- The balance moves of an epoch: the hottest parcels (heat, parcel, channel) of channels above the mean by more than
`pct` percent (R143 step 3), until the planned sum no longer exceeds it (DESIGN CHOICE, assumption 106); `total` is the
sum over the 32 channels. -/
def balancePlan (pct total : Nat) : List (Nat × Nat × Nat) → (Nat → Nat) → List Nat
  | [], _ => []
  | (h, p, c) :: l, sum =>
    if total * (100 + pct) < 3200 * sum c then
      p :: balancePlan pct total l fun x => if x = c then sum x - h else sum x
    else balancePlan pct total l sum

/-- Thermal and balance moves of the epoch (R143 steps 2 and 3); none when MOVES_MAX is 0. -/
def planMoves (s : State) : State :=
  let hot := s.hotParcels.filter fun x => s.movable x.2
  let cap := s.knob R.PLACE_POL_CTL F.PLACE_POL_CTL_MOVES_MAX
  let th := if s.knob R.PLACE_POL_CTL F.PLACE_POL_CTL_THERM_EN = 1 then
      ((hot.filter fun x => s.dieWarm (fDie (eFrame (s.entry x.2)))).map (·.2)) else []
  let rest := (hot.filter fun x => !th.contains x.2).map fun x => (x.1, x.2, fChan (eFrame (s.entry x.2)))
  let total := s.place.chanHeat.foldl (fun n e => n + e.2) 0
  let ba := if s.knob R.PLACE_POL_CTL F.PLACE_POL_CTL_BAL_EN = 1 then
      balancePlan (s.knob R.PLACE_POL_CTL F.PLACE_POL_CTL_BAL_PCT) total rest s.chanHeatSum else []
  if s.place.shortfall ∨ cap = 0 then s
  else { s with place := { s.place with moveQ := th.map (·, true) ++ ba.map (·, false) } }

/-- Cache eligibility (R143 step 4). -/
def planCache (s : State) : State :=
  let on := s.knob R.PLACE_CACHE_CTL F.PLACE_CACHE_CTL_CACHE_ON
  let off := s.knob R.PLACE_CACHE_CTL F.PLACE_CACHE_CTL_CACHE_OFF
  let clear := s.place.table.filter fun e => eElig e.2 && (eNocache e.2 || decide (s.parcelHeat e.1 < off))
  let s' := clear.foldl (fun t e => t.setEntry 1 e.1 (t.entry e.1 &&& 0xFBFFFFFF)) s
  -- with CACHE_ON 0 a parcel of heat 0 is at the threshold too
  let ps := if on = 0 then List.range s.parcels else s.hotParcels.map (·.2)
  ps.foldl (fun t n =>
    let w := t.entry n
    if on ≤ s.parcelHeat n ∧ !eNocache w ∧ !eElig w ∧ eState w ≤ 2 then t.setEntry 1 n (w ||| 0x04000000) else t) s'

/-- Keel frames that wait for a FREE frame of a die set, less the frames that running moves will free there (R160). -/
def keelWant (s : State) (b : Bool) : Nat :=
  (s.place.keelQ.filter fun k => decide (4096 ≤ k) == b).length
    - (s.place.mig.filter fun e => e.2.any fun m => m.keel && dieSet m.src == b).length
    - ((s.place.zeroQ ++ s.place.zeroing).filter fun f => dieSet f == b && !s.onRetiring f).length

/-- The coldest parcel of a die set that policy may move: lowest number on ties. -/
def coldestOf (s : State) (b : Bool) : Option Nat :=
  minBy (fun n => (s.parcelHeat n : Nat)) ((List.range s.parcels).filter fun n => s.movable n && dieSet (eFrame (s.entry n)) == b)

/-- Move the coldest parcel of a die set to a FREE frame of the other, for a keel frame that finds none (R160). -/
def keelRoom (s : State) (b : Bool) : State :=
  if s.keelWant b = 0 then s
  else match s.freeSlot, s.pickFrame (fun f => s.freeFrame f && dieSet f == !b) with
    | some k, some f => (match s.coldestOf b with | some n => s.startMig k n f false true | none => s)
    | _, _ => s

/-- Make room for as many keel frames as migration slots allow. -/
def keelRooms : Nat → State → State
  | 0, s => s
  | n + 1, s => keelRooms n ((s.keelRoom false).keelRoom true)

/-- The epoch's number, low word. -/
def epoch (s : State) : Nat := (s.rd R.PLACE_EPOCH_LO).toNat

/-- EPOCH_TICK: the steps of R143 run. -/
def epochTick (s : State) : State :=
  let s := s.inc64 R.PLACE_EPOCH_LO
  let s := if s.place.moveQ.isEmpty then s else s.inc R.PLACE_EPOCH_OVERRUN
  let s := keelRooms 64 (s.latchKnobs.sumHeat.keelRelocate) |>.queueEvac
  let s := if s.knob R.PLACE_POL_CTL F.PLACE_POL_CTL_POLICY_EN = 1 then s.planMoves else s
  let s := if s.knob R.PLACE_POL_CTL F.PLACE_POL_CTL_POLICY_EN = 1
      ∧ s.knob R.PLACE_POL_CTL F.PLACE_POL_CTL_CACHE_EN = 1 then s.planCache else s
  pump 64 s

/-- HEAT_DECAY: once in every 64th epoch, every heat counter is halved (R141). -/
def heatDecay (s : State) : State :=
  if s.epoch % 64 ≠ 0 ∨ s.place.decayed = s.epoch then s
  else { s with place := { s.place with
      decayed := s.epoch
      heat := (s.place.heat.map fun e => (e.1, e.2 / 2)).filter fun e => e.2 ≠ 0 } }

/-! ### Phases of a migration (R146 to R149) -/

/-- A line of the source is lost: it arrives poisoned, unless the cache die holds it, which then keeps it as dirty
(R106, R147, R155, R176). -/
def copyLost (s : State) (m : Mig) (o : Nat) (raw : Line) : State :=
  let li := 1024 * m.parcel + o
  match s.cached li with
  | some k => (s.writeHit k li (s.cacheData k (li % 4))).storeFrame m.dst o (Line.lost raw.data)
  | none => (s.storeFrame m.dst o (Line.lost raw.data)).poisonNew (1024 * m.src + o) 6

/-- Copy one line from source to destination, as a read of its word finds it (R147, R155, R187). -/
def copyLine (s : State) (lk : LookupIn) (m : Mig) (o : Nat) : State :=
  match s.queuedWrite m.src o with
    | some w => (s.inc (R.CHC_FWD_READS (s.ctrlPage (fChan m.src)))).storeFrame m.dst o w.line
    | none =>
      let a := s.readWord lk m.src o 6
      if a.1.lost then a.2.copyLost m o a.1.line
      else
        let s := if a.1.bytes.isEmpty then a.2 else a.2.queueCorrection m.src o a.1.line
        s.storeFrame m.dst o a.1.line

def copyLines (s : State) (lk : LookupIn) (m : Mig) (os : List Nat) : State :=
  os.foldl (fun t o => t.copyLine lk m o) s

/-- Accesses to the source or the destination are held, or a line to be copied waits for a read, so the copy is not done yet
(R197, R202, R207). -/
def migHeld (s : State) (m : Mig) (os : List Nat) : Bool :=
  s.frameHeld m.src || s.frameHeld m.dst || os.any (s.lineBusy m.src)

/-- The lines of a parcel that its flush would write back, in bytes (R173, R177). -/
def flushBytes (s : State) (m : Mig) : Nat :=
  if fQuad m.src = fQuad m.dst then 0
  else (s.parcelWays (fQuad m.src) m.parcel).foldl (fun n k => n + 64 * popcount4 (tDirty (s.tag k))) 0

/-- The flush of a parcel that changes quadrant (R177), charged to the share of flushes (R173). -/
def migFlush (s : State) (lk : LookupIn) (m : Mig) : State :=
  if fQuad m.src = fQuad m.dst then s
  else ((s.chargeBg (s.flushBytes m)).flushParcel lk (fQuad m.src) m.parcel).inc R.CACHE_MIG_FLUSHES

/-- A pass of Copy or Recopy has ended: Close, another pass, or abort (R146, R149). -/
def passEnded (s : State) (k : Nat) (m : Mig) : State :=
  let d := m.dirty.length
  if d ≤ m.closeLines then
    let s := s.setEntry 0 m.parcel (eWith (s.entry m.parcel) m.src 2)
    s.setMig k (some { m with phase := .close, pass := [] })
  else if m.recopyMax ≤ m.passes then (s.setMig k (some m)).abortMig k true
  else ((s.setMig k (some { m with phase := .recopy, pass := m.dirty, dirty := [], passes := m.passes + 1 })).inc
    R.PLACE_RECOPY_LINES d).chargeMove (m.evac || m.keel) (lineBytes * d)

/-- MIGRATION_COPY_DONE: the parcel is flushed from the cache when it changes quadrant, and every line is copied
(R146, R177). -/
def copyDone (s : State) (k : Nat) (lk : LookupIn) : State :=
  match SMap.get (fun _ => none) s.place.mig k with
  | some m =>
    if m.phase ≠ .copy || s.migHeld m (List.range 1024) || !s.bgFits (s.flushBytes m) then s
    else
      let s := s.migFlush lk m
      let s := s.copyLines lk m (List.range 1024)
      match SMap.get (fun _ => none) s.place.mig k with
      | some m => s.passEnded k m
      | none => s
  | none => s

/-- MIGRATION_RECOPY_PASS_DONE. -/
def recopyDone (s : State) (k : Nat) (lk : LookupIn) : State :=
  match SMap.get (fun _ => none) s.place.mig k with
  | some m =>
    if m.phase ≠ .recopy || s.migHeld m m.pass then s
    else
      let s := s.copyLines lk m m.pass
      match SMap.get (fun _ => none) s.place.mig k with
      | some m => s.passEnded k m
      | none => s
  | none => s

/-- Writes queued at the controller for a frame are performed (R146). -/
def settleQueue (s : State) (f : Nat) : State := s.performAll (fPc f) fun r => r.write && r.f == f

/-- The counters of a switch (R151, R166). A move that makes room for a keel frame is neither a policy move nor an
evacuation (assumption 105). -/
def countMove (s : State) (m : Mig) (pinned : Bool) : State :=
  if m.keel then s
  else if m.evac then
    let s := s.inc R.PLACE_EVACUATIONS
    if pinned then s.inc R.PLACE_PIN_MOVES else s
  else s.inc R.PLACE_MIGRATIONS

/-- MIGRATION_SWITCH: the last dirty lines are copied, the entry names the destination, the heat follows, and the
source is zeroed (R146, R148). A destination whose resource has been declared meanwhile leaves EVAC set (R136, R154). -/
def migSwitch (s : State) (k : Nat) (lk : LookupIn) : State :=
  match SMap.get (fun _ => none) s.place.mig k with
  | some m0 =>
    if m0.phase ≠ .close || s.migHeld m0 m0.dirty then s
    else
      let s := s.settleQueue m0.src
      let m := ((SMap.get (fun _ => none) s.place.mig k).getD m0)
      let s := ((s.copyLines lk m m.dirty).inc R.PLACE_RECOPY_LINES m.dirty.length).chargeMove (m.evac || m.keel)
        (lineBytes * m.dirty.length)
      let s := s.setMig k none
      let w := s.entry m.parcel
      let s := s.setHeat m.dst (s.frameHeat m.src)
      let s := s.setEntry 0 m.parcel (mkEntry m.dst 0 (ePin w) (eNocache w) (eElig w) (s.onRetiring m.dst))
      pump 1 ((s.queueZero m.src).countMove m (ePin w))
  | none => s

/-- MIGRATION_CLOSE_TIMEOUT: Close has lasted `ns`, longer than CLOSE_MAX as the migration started with it (R149). -/
def closeTimeout (s : State) (k ns : Nat) : State :=
  match SMap.get (fun _ => none) s.place.mig k with
  | some m => if m.phase = .close ∧ m.closeMax < ns then s.abortMig k true else s
  | none => s

/-- Held drains that fill the buffer's share for one parcel abort its Close (R149). -/
def closeFull (s : State) (n : Nat) : State :=
  match s.migOf n with
  | some (k, m) => if m.phase = .close ∧ 256 ≤ s.wdbCount n then s.abortMig k true else s
  | none => s

/-- Every parcel in Close, after lines have entered the buffer. -/
def closeChecks (s : State) : State := (s.place.mig.filterMap fun e => e.2.map Mig.parcel).foldl closeFull s

/-- A fault is found in frames: the migrations that copy into them abort (R149). -/
def abortOn (s : State) (p : Nat → Bool) : State :=
  (s.place.mig.filter fun e => e.2.any fun m => p m.dst).foldl (fun t e => t.abortMig e.1 true) s
def abortInto (s : State) (f : Nat) : State := s.abortOn (· == f)

/-! ### Deficit and withdrawal (R158) -/

/-- The parcels to withdraw first: unpinned by ascending heat, then pinned. -/
def withdrawOrder (s : State) : List Nat :=
  let l := s.place.table.filterMap fun e => if eEvac e.2 then some e.1 else none
  let key := fun n => (if ePin (s.entry n) then 256 else 0) + s.parcelHeat n
  sortBy l fun a b => decide (key a ≤ key b)

/-- Give up the keel frames that still wait: their mirrors become not valid (R158). -/
def giveUpKeel (s : State) : State :=
  let s := s.place.keelQ.foldl (fun t k => t.setMirror (decide (4096 ≤ k)) false) s
  ({ s with place := { s.place with keelQ := [], keelLost := s.place.keelLost ++ s.place.keelQ } }.updDeficit).flag R.PLACE_KEEL_STAT F.PLACE_KEEL_STAT_RELOCATING true

/-- Withdraw the deficit's count of pending parcels, or all of them (R158). -/
def withdrawDeficit (s : State) : State :=
  let n := s.fld R.PLACE_DEFICIT F.PLACE_DEFICIT_COUNT
  let s := (s.withdrawOrder.take n).foldl (fun t p => t.withdraw p) s
  let s := s.keelRelocate
  if s.place.keelQ.isEmpty then s else s.giveUpKeel

/-- DEFICIT_GRACE_EXPIRY. -/
def graceExpiry (s : State) : State :=
  if s.on R.PLACE_DEFICIT F.PLACE_DEFICIT_OPEN && !s.place.expired then
    let s := { s with place := { s.place with expired := true } }
    if s.on R.PLACE_WDR_CTL F.PLACE_WDR_CTL_AUTO_WDR then s.withdrawDeficit else s
  else s

/-- Software sets AUTO_WDR after the expiry (R158). -/
def autoWdr (s : State) : State :=
  if s.on R.PLACE_DEFICIT F.PLACE_DEFICIT_OPEN && s.place.expired && s.on R.PLACE_WDR_CTL F.PLACE_WDR_CTL_AUTO_WDR then
    s.withdrawDeficit
  else s

/-! ### Table repair (R139) -/

/-- A look-up finds a parcel's entry uncorrectable: the parcel enters REPAIRING; its migration ends as the journal
shows. The record repeats the entry as the journal holds it, since none has a place for STATE (R161; assumption 107). -/
def entryLost (s : State) (n : Nat) : State :=
  if eState (s.entry n) = 5 then s
  else
    let s := s.abortParcel n true
    let w := s.entry n
    let s := { s with place := { s.place with repair := SMap.set (fun _ => none) n (some w) s.place.repair } }
    s.setEntry (recordType w) n (eWith w (eFrame w) 5)

/-- The entry of a parcel in REPAIRING as the keel area yields it. -/
def rebuilt (s : State) (n : Nat) : State :=
  let w := s.live n
  { s with place := { s.place with repair := SMap.set (fun _ => none) n none s.place.repair } }.setEntry (recordType w) n w

/-- TABLE_REPAIR_DONE: the entry is rebuilt, or the parcel is WITHDRAWN when neither mirror yields it. A mirror whose read
fails is no longer valid (R162). -/
def repairDone (s : State) (n : Nat) (failA failB : Bool) : State :=
  if eState (s.entry n) ≠ 5 then s
  else
    let s := if failA then s.setMirror false false else s
    let s := if failB then s.setMirror true false else s
    if s.mirrorOk false || s.mirrorOk true then (s.rebuilt n).inc R.PLACE_TABLE_REPAIRS else s.withdraw n

/-! ### Keel (R160, R162) -/

/-- A keel place that was given up has a frame again. -/
def keelTook (s : State) (k : Nat) : State := { s with place := { s.place with keelLost := s.place.keelLost.erase k } }

/-- The places of a mirror that were given up take FREE frames of its die set (R158). -/
def keelFind (s : State) (b : Bool) : State :=
  (s.place.keelLost.filter fun k => decide (4096 ≤ k) == b).foldl (fun t k =>
    match t.keelTarget k with
    | none => t
    | some f => (t.keelMove k f).keelTook k) s

/-- KEEL_REBUILD_DONE: a mirror has been rebuilt in full from the other, on frames of no retiring resource (R162). -/
def keelRebuilt (s : State) (b : Bool) : State :=
  if s.mirrorOk b || !s.mirrorOk (!b) || s.place.keelQ.any (fun k => decide (4096 ≤ k) == b) then s
  else
    let s := s.keelFind b
    if s.place.keelLost.any fun k => decide (4096 ≤ k) == b then s
    else ((s.copyMirror b).setMirror b true).keelRelocate

/-! ### Hints (R150) -/

/-- Set or clear PIN; a policy move of the parcel aborts, and so does a move that makes room for a keel frame, which needs an
unpinned parcel (R149, R160; DESIGN CHOICE, assumption 105). -/
def pin (s : State) (n : Nat) : State :=
  let s := match s.migOf n with | some (k, m) => if m.evac then s else s.abortMig k false | none => s
  s.setEntry 1 n (s.entry n ||| 0x01000000)
def unpin (s : State) (n : Nat) : State := s.setEntry 1 n (s.entry n &&& 0xFEFFFFFF)

/-- NOCACHE: the mark is set and CACHE_ELIG cleared; the parcel's sectors are flushed in the background when
NOCACHE_FLUSH is set (R175). -/
def nocache (s : State) (n : Nat) : State :=
  let w := s.entry n
  let s := s.setEntry 1 n ((w ||| 0x02000000) &&& 0xFBFFFFFF)
  if s.on R.CACHE_CACHE_CTL F.CACHE_CACHE_CTL_NOCACHE_FLUSH && eHeld w then
    { s with cache := { s.cache with flushQ := s.cache.flushQ ++ [n] } }
  else s
def uncache (s : State) (n : Nat) : State := s.setEntry 1 n (s.entry n &&& 0xFDFFFFFF)

/-- PREFETCH of a PLACED parcel's sectors (R174). -/
def prefetch (s : State) (n : Nat) : State :=
  if 2 < eState (s.entry n) then s
  else { s with cache := { s.cache with prefetchQ := s.cache.prefetchQ ++ (List.range 256).map fun i => 256 * n + i } }

/-! ### Queries (R166) -/

/-- LOC_QUERY. -/
def locQuery (s : State) (n : Nat) : State :=
  let w := s.entry n
  let ok := decide (n < s.parcels)
  let f := eFrame w
  let s := s.wr R.PLACE_LOC_RESULT (BitVec.ofNat 32 ((if ok then w.toNat % 2 ^ 28 else 0) + 2 ^ 31))
  s.wr R.PLACE_LOC_RESULT2 (if ok && eHeld (s.live n) then BitVec.ofNat 32
    (s.frameHeat f + fChan f * 2 ^ 8 + fPch f * 2 ^ 13 + fDie f * 2 ^ 14 + fBank f * 2 ^ 18 + fSlot f * 2 ^ 22) else 0)

/-- WDR_FIND: the first WITHDRAWN parcel at or above START. -/
def wdrFind (s : State) (start : Nat) : State :=
  match s.place.table.find? fun e => decide (start ≤ e.1 ∧ e.1 < s.parcels ∧ eState e.2 = 4) with
  | some e => s.wr R.PLACE_WDR_FOUND (BitVec.ofNat 32 (e.1 + 2 ^ 31))
  | none => s.wr R.PLACE_WDR_FOUND 0xC0000000

end State
end Sys2Proof.Machine
end

