-- ==== Sys2Proof/Machine/Xact.lean ====
section
/-! DEFINITION. The transaction layer: decoding and admission, reads, writes, atomics, fences, hints, responses and
events (R98 to R131, R140, R150). -/

namespace Sys2Proof.Machine

/-! ### Bytes of slots (R77, R78): the first byte of a slot is its most significant one (assumption 20) -/

/-- The bytes of slots, in order. -/
def slotBytes (l : List Slot) : List Nat := (l.map fun w => bytesBE 16 w.toNat).flatten

/-- Slots that carry `n` × 16 bytes. -/
def bytesSlots : Nat → List Nat → List Slot
  | 0, _ => []
  | n + 1, b => BitVec.ofNat 128 (natBE (((b ++ List.replicate 16 0)).take 16)) :: bytesSlots n (b.drop 16)

/-- The four data slots of a line. -/
def lineSlots (d : LineData) : List Slot := bytesSlots 4 (bytesLE 64 d.toNat)

/-- The line that four data slots spell. -/
def slotsLine (l : List Slot) : LineData := BitVec.ofNat 512 (natLE ((slotBytes l).take 64))

/-! ### Header checks (R98 to R102, R111, R115, R118, R122, R123) -/

/-- Lines of an access; LEN code 3 counts as 256 bytes. -/
def linesOf (h : Word64) : Nat := if hOpc h = 4 then 1 else if hLen h = 0 then 1 else if hLen h = 1 then 2 else 4

/-- A header that the transaction layer discards (R102). -/
def badHead (i : RxItem) : Bool :=
  let o := hOpc i.header
  if i.half then decide (o = 0 ∨ o = 7 ∨ 9 < o) else decide (o ≠ 7)

/-- Header and data credits of a received transaction. -/
def headCredits (i : RxItem) : Nat := if i.half then 1 else 6
def dataCredits (i : RxItem) : Nat := if i.half then reqDataSlots i.header / 4 else 0

/-- Width of an atomic operation in bytes (R112). -/
def atomWidth (aop : Nat) : Nat := if aop = 0 ∨ aop = 2 ∨ aop = 4 then 4 else 8

/-- Byte offset of an atomic operation's field (R113). -/
def atomOffset (d : LineData) : Nat := (d.extractLsb' 128 6).toNat

/-- Parcels of a hint: first and count (R121). -/
def hintFirst (h : Word64) : Nat := hAddr h / 1024
def hintCount (h : Word64) : Nat := hAddr h % 1024 + 1

/-- The request breaks a rule of its header. -/
def malformed (h : Word64) (data : List Slot) : Bool :=
  let o := hOpc h
  let a := hAddr h
  let n := 4 * (hArg h + 1)
  if o = 1 ∨ o = 2 ∨ o = 3 then decide (hLen h = 3 ∨ (hLen h = 1 ∧ a % 2 ≠ 0) ∨ (hLen h = 2 ∧ a % 4 ≠ 0))
  else if o = 4 then decide (hLen h ≠ 0 ∨ 12 < hArg h ∨ atomOffset (slotsLine data) % atomWidth (hArg h) ≠ 0)
  else if o = 5 then decide (hLen h ≠ 0)
  else if o = 6 then decide (hLen h ≠ 0 ∨ 5 < hArg h)
  else if o = 8 ∨ o = 9 then decide (hLen h ≠ 0 ∨ a % 4 ≠ 0 ∨ 0x1000 < a % 0x1000 + n ∨ 0x400000 < a + n)
  else false

/-! ### Scope and order (R116, R118, R119) -/

/-- A request of the second header is in the scope of the fence of the first. -/
def inScope (f h : Word64) : Bool :=
  ((hArg f).testBit 0 || hTc f == hTc h) && ((hArg f).testBit 1 || hMid f == hMid h)

/-- The request is performed: its status is decided or its work has begun. -/
def Req.performed (r : Req) : Bool := decide (r.stage = .done) || r.begun

/-- A fence that orders later requests. -/
def isFence (h : Word64) : Bool := decide (hOpc h = 5 ∧ hLen h = 0)

namespace State

/-- Transactions in the receive buffer, of every class. -/
def rxItems (s : State) : List RxItem := (s.link.rx.map (·.2)).flatten

/-- A request may be performed: the earlier ones of its MID and TC and every earlier fence over it are (R116, R119). -/
def mayPerform (s : State) (r : Req) : Bool :=
  (s.xact.reqs.all fun x => !decide (x.id < r.id) || x.performed
      || (!samePair x.header r.header && !(isFence x.header && inScope x.header r.header)))
    && s.rxItems.all fun i => !decide (i.num < r.id) || badHead i || !(isFence i.header && inScope i.header r.header)

/-- The conditions of R119 for a fence: earlier in-scope requests have their responses placed; work that has begun
counts as performed, and with WORK set its WorkCpl must be placed. -/
def fenceClear (s : State) (r : Req) : Bool :=
  s.mayPerform r
    && (s.xact.reqs.all fun x => !decide (x.id < r.id) || !inScope r.header x.header
        || (x.begun && !(hArg r.header).testBit 2))
    && s.rxItems.all fun i => !decide (i.num < r.id) || !inScope r.header i.header || badHead i

/-! ### Responses (R99 to R101, R108) -/

/-- The response's opcode. -/
def rspOpc (h : Word64) : Nat :=
  let o := hOpc h
  if o = 1 then 0x21 else if o = 2 ∨ o = 3 then 0x22 else if o = 4 then 0x23 else if o = 5 then 0x24
  else if o = 6 then 0x25 else if o = 7 then 0x26 else 0x27

/-- Data slots of the response (R100). -/
def rspSlots (h : Word64) : Nat :=
  let o := hOpc h
  if o = 1 then (if hLen h = 0 then 4 else if hLen h = 1 then 8 else 16)
  else if o = 4 ∨ o = 7 ∨ o = 8 ∨ o = 9 then 4 else 0

/-- The response header (R99). -/
def rspHeader (r : Req) : Word64 :=
  let h := r.header
  let len := if hOpc h = 1 then hLen h else 0
  BitVec.ofNat 64 (rspOpc h * 2 ^ 58 + hTc h * 2 ^ 55 + hMid h * 2 ^ 49 + hTag h * 2 ^ 37 + len * 2 ^ 35
    + r.status % 16 * 2 ^ 31 + r.rinfo % 2 ^ 31)

/-- Remove a request that receives no response (R96, R104). -/
def dropReq (s : State) (id : Nat) : State :=
  { s with xact := { s.xact with reqs := s.xact.reqs.filter fun r => decide (r.id ≠ id) } }.sampleLost id

/-- ADDR and ACCESS of a request's capture: the line or the register that it names (R283). -/
def reqAddr (h : Word64) : Word64 :=
  if hOpc h = 1 ∨ hOpc h = 2 ∨ hOpc h = 3 ∨ hOpc h = 4 ∨ isCfg h then BitVec.ofNat 64 (hAddr h) else 0
def reqAccess (h : Word64) : Nat :=
  if hOpc h = 1 then 1 else if hOpc h = 2 ∨ hOpc h = 3 then 2 else if hOpc h = 4 then 3 else if isCfg h then 11 else 0

/-- A delivery of one occurrence of a kind in a request. -/
def reqDelivery (kind : Nat) (h : Word64) : Delivery :=
  ⟨kind, resMid (hMid h), 1, 1, reqAddr h, reqAccess h, some (hMid h), some (hTc h), 0, 0⟩

/-- The occurrences that a request's line accesses have raised since `s` carry its master and traffic class (R283). -/
def forRequest (s : State) (h : Word64) (t : State) : State :=
  let n := s.fcol.deliv.length
  let mark := fun (d : Delivery) =>
    if 1 ≤ d.access ∧ d.access ≤ 3 then { d with mid := some (hMid h), tc := some (hTc h) } else d
  { t with fcol := { t.fcol with deliv := t.fcol.deliv.take n ++ (t.fcol.deliv.drop n).map mark } }

/-- Count a response's status (R131, R274). -/
def countStatus (s : State) (r : Req) (status : Nat) : State :=
  if status = 6 then
    ((s.inc R.XACT_MALFORMED).wr64 R.XACT_BAD_HDR_LO r.header).deliver (reqDelivery 5 r.header)
  else if status = 2 then s.inc R.XACT_RANGE_ERR
  else if status = 3 then s.inc R.XACT_WITHDRAWN_ERR
  else if status = 4 then (s.inc R.XACT_REFUSED).inc R.BRIDLE_REFUSED_REQS
  else s

/-- The request is performed, or its status is decided: its response waits to be placed. Data is given for the
statuses that carry it; the others carry zeros (R101). -/
def answer (s : State) (r : Req) (status rinfo : Nat) (payload : List Slot) : State :=
  let s := if r.owes then s.returnCredits (hTc r.header) 6 0 else s
  if r.silent then s.dropReq r.id
  else
    let s := s.countStatus r status
    let pay := if payload.isEmpty then List.replicate (rspSlots r.header) 0 else payload
    let s := s.updReq r.id fun x => { x with
      stage := .done, status := status, rinfo := rinfo, payload := pay, lines := [], owes := false }
    (s.sample r.id fun x => { x with status := status }).noteWait

/-- A status decided before the request is performed: answered when its order allows, else kept for then. -/
def decideStatus (s : State) (r : Req) (status rinfo : Nat) : State :=
  if s.mayPerform r then s.answer r status rinfo []
  else s.updReq r.id fun x => { x with stage := .ready, status := status, rinfo := rinfo }

/-! ### Decode and admission (R102 to R104, R130, R254) -/

/-- Take the head of a class's receive buffer. -/
def popRx (s : State) (tc : Nat) : State :=
  { s with link := { s.link with rx := SMap.upd (fun _ => []) tc (·.drop 1) s.link.rx } }

/-- The decoded head of a class stays in the receive buffer (R258): its latency counts from now (R261). -/
def stayRx (s : State) (tc : Nat) : State :=
  { s with link := { s.link with rx := SMap.upd (fun _ => []) tc (fun
      | [] => []
      | i :: l => { i with decoded := some (i.decoded.getD s.clk.up) } :: l) s.link.rx } }

def rxHead (s : State) (tc : Nat) : Option RxItem := (SMap.get (fun _ => []) s.link.rx tc).head?

/-- BAD_HEADER (R102). -/
def badHeader (s : State) (tc : Nat) : State :=
  match s.rxHead tc with
  | none => s
  | some i =>
    if s.released && badHead i then
      let s := ((s.popRx tc).returnCredits tc (headCredits i) 0).inc R.XACT_BAD_HDR
      (s.wr64 R.XACT_BAD_HDR_LO i.header).report 3 0 1
    else s

/-- Status of a request that names lines or parcels, apart from its descriptor: MALFORMED, RANGE, WITHDRAWN, or 0
(R108, R122, R129). -/
def decodeStatus (s : State) (h : Word64) (data : List Slot) : Nat :=
  let o := hOpc h
  if malformed h data then 6
  else if 1 ≤ o ∧ o ≤ 4 then
    if s.fld R.XACT_VIS_LIMIT F.XACT_VIS_LIMIT_LIMIT ≤ hAddr h then 2
    else if eState (s.entry (hAddr h / 1024)) = 4 then 3 else 0
  else if o = 6 then
    if s.parcels < hintFirst h + hintCount h then 2
    else if (List.range (hintCount h)).any fun i => eState (s.entry (hintFirst h + i)) = 4 then 3 else 0
  else 0

/-- A tag that a request has made busy (R104), whatever TAG_CHECK was when that request was decoded (DESIGN CHOICE, assumption 113).
A request that link-layer initialisation has made silent keeps it until it has been performed (DESIGN CHOICE, assumption 113). -/
def tagBusy (s : State) (tag : Nat) : Bool := s.xact.reqs.any fun r => hTag r.header == tag

/-- The request as decoded. -/
def newReq (s : State) (i : RxItem) : Req :=
  { id := i.num, header := i.header, ext := i.ext, data := i.data, decoded := i.decoded.getD s.clk.up }

/-- Add a request to the request queues. -/
def addReq (s : State) (r : Req) : State := { s with xact := { s.xact with reqs := s.xact.reqs ++ [r] } }

/-- What the Bridle does with a decoded request (R254, R257, R258). -/
def atPort (s : State) (r : Req) (status rinfo : Nat) (p : Port) : State :=
  if status ≠ 0 then (s.addReq r).decideStatus r status rinfo
  else match p with
  | .hold =>
    let s := if s.excessHold r.header then s.inc R.BRIDLE_EXCESS_HOLDS else s
    ((s.addReq { r with stage := .held, wasHeld := true }).inc R.BRIDLE_HOLDS).sampleWhere r.id (2 ^ 27)
  | .refuse => (s.addReq r).decideStatus r 4 0
  | _ => (s.addReq r).releaseReq r

/-- Look-ups of parcels' entries: one found uncorrectable enters REPAIRING (R139). -/
def lostEntries (s : State) (m : LookupIn) (ns : List Nat) : State :=
  ns.foldl (fun t n => if m.lost.any (fun p => p.toNat == n) && decide (n < t.parcels) then t.entryLost n else t) s

/-- The parcels that a request looks up: none when its header or its range is refused before (R108, R122, R129). -/
def lookedUp (s : State) (h : Word64) (data : List Slot) : List Nat :=
  let o := hOpc h
  if malformed h data then []
  else if 1 ≤ o ∧ o ≤ 4 then
    if s.fld R.XACT_VIS_LIMIT F.XACT_VIS_LIMIT_LIMIT ≤ hAddr h then [] else [hAddr h / 1024]
  else if o = 6 then
    if s.parcels < hintFirst h + hintCount h then [] else (List.range (hintCount h)).map (hintFirst h + ·)
  else []

/-- A request's look-up of its parcels (R139). -/
def lookEntries (s : State) (m : LookupIn) (h : Word64) (data : List Slot) : State := s.lostEntries m (s.lookedUp h data)

/-- The request queues hold one more request, and the write data buffer has receive space for its data (R87, R254;
assumption 108). -/
def admitRoom (s : State) (i : RxItem) : Bool :=
  decide (s.xact.reqs.length < 16384) && s.bufferRoom (16 * i.data.length)

/-- REQUEST_ADMIT: the head of a class is decoded and passes the Bridle. `ws` is the status and RINFO of a WorkReq's
descriptor, and `wl` gives the parcels that it looks up (R238). -/
def requestAdmit (s : State) (tc : Nat) (m : LookupIn) (wl : RxItem → List Nat) (ws : State → RxItem → Nat × Nat) : State :=
  match s.rxHead tc with
  | none => s
  | some i =>
    if !s.released || i.left ≠ 0 || badHead i || !s.admitRoom i then s
    else
      let s := if i.half then s.lookEntries m i.header i.data else s.lostEntries m (wl i)
      let st := if i.half then (s.decodeStatus i.header i.data, 0) else ws s i
      let p := s.portOf i.header
      let dup := s.on R.XACT_XACT_CTL F.XACT_XACT_CTL_TAG_CHECK && s.tagBusy (hTag i.header)
      if !dup && st.1 == 0 && p == .stay then s.stayRx tc
      else
        let owes := !dup && !i.half && st.1 == 0 && p == .pass
        let s := s.popRx tc
        let s := if owes then s else s.returnCredits tc (headCredits i) (dataCredits i)
        let s := (s.inc64 R.XACT_REQS_LO).sampleTag i.num i.header i.ts i.at_
        if dup then
          ((s.inc R.XACT_TAG_DUP).deliver (reqDelivery 4 i.header)).sampleLost i.num
        else s.atPort { s.newReq i with owes := owes } st.1 st.2 p

/-- The oldest request with a tag that is released, of an opcode, and next in its order. -/
def readyReq (s : State) (tag : Nat) (p : Word64 → Bool) : Option Req :=
  if s.released then
    s.xact.reqs.find? fun r => decide (r.stage = .ready) && hTag r.header == tag && p r.header && !r.begun && s.mayPerform r
  else none

/-! ### Look-up (R139, R140, R165, R170) -/

/-- The lines of an access. -/
def accessLines (h : Word64) : List Nat := (List.range (linesOf h)).map (hAddr h + ·)

/-- The look-ups of one access: the tag entries of its sets may be in error (R170). -/
def lookup (s : State) (h : Word64) (m : LookupIn) : State := s.tagLookups m (accessLines h)

/-- Count line accesses of a request towards heat (R142). -/
def heatLines (s : State) (n : Nat) : Nat → State
  | 0 => s
  | k + 1 => heatLines (s.heatAccess n) n k

/-- The look-up of a sampled request: frame and state (R438). -/
def sampleLookup (s : State) (id n : Nat) : State :=
  let w := s.entry n
  ((s.stamp id 2).sampleWhere id ((if eHeld w then eFrame w else 0) + eState w * 2 ^ 21)).stamp id 3

/-! ### Reads (R105, R109, R140, R171) -/

/-- Keep a line that a read has obtained. -/
def setReqLine (s : State) (id i : Nat) (l : Line) : State :=
  s.updReq id fun r => { r with lines := r.lines.set i (some l) }

/-- The answer of a read whose lines are all there (R105, R107): the data of a poisoned line is a free value. -/
def finishRead (s : State) (r : Req) (ls : List Line) : State :=
  let k := (ls.filter Line.poisoned).length
  let info := (ls.zipIdx).foldl (fun n e =>
    n + (e.1.hostMeta + (if e.1.poisoned then 16 else 0)) * 2 ^ (5 * e.2)) 0
  let pay := (ls.zipIdx).map fun e => lineSlots (if e.1.poisoned then Config.freeLine (s.free + e.2) else e.1.data)
  let s := if k = 0 then s else { s with free := s.free + ls.length }
  (if r.silent then s else s.inc R.XACT_POISON_RD k).answer r (if k = 0 then 0 else 1) info pay.flatten

/-- The read is performed when every line has been obtained. -/
def tryFinish (s : State) (id : Nat) : State :=
  match s.xact.reqs.find? fun r => decide (r.id = id) with
  | none => s
  | some r => if r.lines.all Option.isSome then s.finishRead r (r.lines.filterMap fun x => x) else s

/-- A line of a read whose parcel holds frame `f`: from the write data buffer, the cache die or its controller. -/
def readLine (s : State) (r : Req) (f i : Nat) (m : LookupIn) : State :=
  let li := hAddr r.header + i
  match s.wdbLine li with
  | some l => s.setReqLine r.id i l
  | none =>
    match s.cached li with
    | some k =>
      let a := s.bankWord k (li % 4) 1 (bankFlips m li)
      match a.1 with
      | some l =>
        let s := (a.2.2.touchHit k).setReqLine r.id i l
        if i = 0 then (s.sampleWhere r.id (2 ^ 24)).stamp r.id 6 else s
      | none =>
        let t := a.2.2.bankUncorrectable k (li % 4) 1 a.2.1
        if (tDirty (s.tag k)).testBit (li % 4) then t.setReqLine r.id i (Line.lost a.2.1.data) else readMiss t li
    | none => readMiss s li
where
  /-- A line that the cache die does not serve. -/
  readMiss (s : State) (li : Nat) : State :=
    let a := s.sendRead f (liOff li) r.id i r.prio
    let s := if i = 0 then (a.2.stamp r.id 4).sampleUnit r.id f else a.2
    match a.1 with
    | some l => (s.setReqLine r.id i l).fillAfterRead m li (some l) ((hArg r.header).testBit 0)
    | none => s

/-- Read every line of an access. -/
def readLines (s : State) (r : Req) (f : Nat) (m : LookupIn) (n : Nat) : State :=
  (List.range n).foldl (fun t i => t.readLine r f i m) s

/-- A read that is next in its order is performed, or waits (R105 to R109, R139, R140). -/
def performRead (s : State) (r : Req) (m : LookupIn) : State :=
  let n := linesOf r.header
  let pc := hAddr r.header / 1024
  let s := if r.status ≠ 0 then s else s.lookEntries m r.header r.data
  let st := if r.status ≠ 0 then r.status else s.decodeStatus r.header r.data
  if st ≠ 0 then s.answer r st r.rinfo []
  else
    let s := (s.lookup r.header m)
    let w := s.entry pc
    if eState w = 5 then s
    else if eState w = 4 then s.answer r 3 0 []
    else if eState w = 3 then
      (s.sampleLookup r.id pc).finishRead r (List.replicate n ⟨0, 0⟩)
    else if !s.readRoom (eFrame w) n then s
    else
      let s := (s.sampleLookup r.id pc).countMisses (accessLines r.header)
      let s := if (hArg r.header).testBit 1 then s else s.heatLines pc n
      let r := { r with lines := List.replicate n none, stage := Stage.reading }
      let s := s.updReq r.id fun _ => r
      (s.readLines r (eFrame w) m n).tryFinish r.id

/-- RD_REQ. -/
def rdReq (s : State) (tag : Nat) (m : LookupIn) : State :=
  match s.readyReq tag fun h => decide (hOpc h = 1) with
  | none => s
  | some r => s.forRequest r.header (s.performRead r m)

/-! ### Writes (R105, R106, R110, R140, R153) -/

/-- The lines of a write enter the write data buffer. -/
def writeLines (s : State) (r : Req) (n : Nat) : State :=
  (List.range n).foldl (fun t i =>
    t.wdbPut (hAddr r.header + i)
      (Line.written (slotsLine (r.data.drop (4 * i))) (hArg r.header) (decide (hOpc r.header = 3)))) s

/-- A write is performed: its parcel has a frame. -/
def performWrite (s : State) (r : Req) : State :=
  let pc := hAddr r.header / 1024
  let n := linesOf r.header
  let s := ((((s.sampleLookup r.id pc).countMisses (accessLines r.header)).heatLines pc n).writeLines r n).stamp r.id 4
  let s := if hOpc r.header = 3 then s.inc R.XACT_POISON_WR n else s
  (s.answer r 0 0 []).closeFull pc

/-- What a request that changes a line meets at its parcel: held, answered, or performed by `go` (R140, R153). -/
def onParcel (s : State) (r : Req) (go : State → State) : State :=
  let pc := hAddr r.header / 1024
  let w := s.entry pc
  if eState w = 5 then s
  else if eState w = 4 then s.answer r 3 0 []
  else if eState w = 3 then
    match s.allocate_ pc with
    | .placed s => go s
    | .wait => s
    | .withdrawn s => s.answer r 3 0 []
  else go s

/-- A request that changes a line and is next in its order: answered when its status is decided, else performed by `go` at its
parcel (R139, R153, R170). -/
def changeLine (s : State) (r : Req) (m : LookupIn) (go : State → State) : State :=
  let s := if r.status ≠ 0 then s else s.lookEntries m r.header r.data
  let st := if r.status ≠ 0 then r.status else s.decodeStatus r.header r.data
  if st ≠ 0 then s.answer r st r.rinfo []
  else (s.lookup r.header m).onParcel r go

/-- WR_REQ and WR_REQ_POISON. -/
def wrReq (s : State) (opc tag : Nat) (m : LookupIn) : State :=
  match s.readyReq tag fun h => decide (hOpc h = opc) with
  | none => s
  | some r => s.forRequest r.header (s.changeLine r m fun s => s.performWrite r)

/-! ### Atomics (R107, R112 to R115) -/

/-- Two's complement value of a 64-bit number. -/
def signed64 (n : Nat) : Int := if n < 2 ^ 63 then (n : Int) else (n : Int) - (2 ^ 64 : Nat)

/-- The new value of a field (R112). -/
def atomNew (aop old a b : Nat) : Nat :=
  match aop with
  | 0 => (old + a) % 2 ^ 32
  | 1 => (old + a) % 2 ^ 64
  | 2 | 3 => a
  | 4 | 5 => if old = a then b else old
  | 6 => old &&& a
  | 7 => old ||| a
  | 8 => old ^^^ a
  | 9 => if signed64 a < signed64 old then a else old
  | 10 => if signed64 old < signed64 a then a else old
  | 11 => min old a
  | _ => max old a

/-- A field of `w` bytes at byte `o` of a line. -/
def fieldOf (d : LineData) (o w : Nat) : Nat := d.toNat / 2 ^ (8 * o) % 2 ^ (8 * w)

/-- The line with that field replaced. -/
def withField (d : LineData) (o w v : Nat) : LineData :=
  BitVec.ofNat 512 (d.toNat - fieldOf d o w * 2 ^ (8 * o) + v % 2 ^ (8 * w) * 2 ^ (8 * o))

/-- The answer of an atomic operation: old value, metadata and poison (R105, R113). -/
def atomAnswer (s : State) (r : Req) (l : Line) (old : Nat) : State :=
  let info := l.hostMeta + (if l.poisoned then 16 else 0)
  let s := if l.poisoned && !r.silent then s.inc R.XACT_POISON_RD else s
  s.answer r (if l.poisoned then 1 else 0) info (lineSlots (BitVec.ofNat 512 old))

/-- An atomic operation reads its line where it lives (R15, R16, R114, R176, R198). One that hits the cache die sets AGE 0, as a read
does; the table of R171 names no AGE for it (DESIGN CHOICE, assumption 129). -/
def atomRead (s : State) (r : Req) (m : LookupIn) : Line × State :=
  let li := hAddr r.header
  let miss := fun (t : State) =>
    (((t.stamp r.id 4).stamp r.id 5).stamp r.id 6).fetchHome m li 3
  match s.wdbLine li with
  | some l => (l, s.stamp r.id 4)
  | none =>
    match s.cached li with
    | none => miss s
    | some k =>
      let a := s.bankWord k (li % 4) 3 (bankFlips m li)
      match a.1 with
      | some l => (l, ((a.2.2.touchHit k).sampleWhere r.id (2 ^ 24)).stamp r.id 6)
      | none =>
        let t := a.2.2.bankUncorrectable k (li % 4) 3 a.2.1
        if (tDirty (s.tag k)).testBit (li % 4) then (Line.lost a.2.1.data, t) else miss t

/-- The line of an access of the stack itself is in DRAM behind a swap, a row repair or a read without a verdict (R197, R202,
R207). -/
def atomWaits (s : State) (li : Nat) : Bool :=
  let w := s.live (liParcel li)
  eHeld w && (s.wdbLine li).isNone && (s.cached li).isNone
    && (s.frameHeld (eFrame w) || s.lineBusy (eFrame w) (liOff li))

/-- An atomic operation performed where its line lives. The old value of a poisoned field is a free value (R107). -/
def performAtom (s : State) (r : Req) (m : LookupIn) : State :=
  let li := hAddr r.header
  if s.atomWaits li then s
  else
    let a := (((s.sampleLookup r.id (li / 1024)).countMisses [li]).heatLines (li / 1024) 1).atomRead r m
    let l := a.1
    let d := slotsLine r.data
    let w := atomWidth (hArg r.header)
    let o := atomOffset d
    let old := fieldOf l.data o w
    if l.poisoned then
      let v := a.2.freeWord
      let u := v.2.freeWord
      u.2.atomAnswer r l ((v.1.toNat + u.1.toNat * 2 ^ 32) % 2 ^ (8 * w))
    else
      let new := atomNew (hArg r.header) old (fieldOf d 0 w) (fieldOf d 8 w)
      (a.2.updateLine li (l.updated (withField l.data o w new))).atomAnswer r l old

/-- ATOM_REQ. -/
def atomReq (s : State) (tag : Nat) (m : LookupIn) : State :=
  match s.readyReq tag fun h => decide (hOpc h = 4) with
  | none => s
  | some r =>
    s.forRequest r.header (s.changeLine r m fun s => (s.performAtom r m).closeFull (hAddr r.header / 1024))

/-! ### Fences (R118 to R120) -/

/-- FENCE_REQ: a released fence waits for its scope. -/
def fenceReq (s : State) (tag : Nat) : State :=
  if !s.released then s
  else match s.xact.reqs.find? fun r => decide (r.stage = .ready) && hTag r.header == tag && hOpc r.header == 5 with
  | none => s
  | some r =>
    let st := if r.status ≠ 0 then r.status else s.decodeStatus r.header r.data
    if st ≠ 0 then (if s.mayPerform r then s.answer r st 0 [] else s)
    else s.updReq r.id fun x => { x with stage := .working }

/-- FENCE_PERFORMED. -/
def fencePerformed (s : State) (tag : Nat) : State :=
  match s.xact.reqs.find? fun r => decide (r.stage = .working) && hTag r.header == tag && hOpc r.header == 5 with
  | none => s
  | some r => if s.released && s.fenceClear r then (s.inc R.XACT_FENCES).answer r 0 0 [] else s

/-! ### Hints (R121, R122, R150) -/

/-- The parcels of a hint. -/
def hintParcels (h : Word64) : List Nat := (List.range (hintCount h)).map (hintFirst h + ·)

/-- The hint cannot be applied to every parcel of its range. -/
def hintDenied (s : State) (code : Nat) (ps : List Nat) : Bool :=
  if code = 0 then
    (ps.any fun n => eState (s.entry n) = 3)
      || decide (s.fld R.PLACE_PIN_LIMIT F.PLACE_PIN_LIMIT_LIMIT
        < s.fld R.PLACE_PARCELS_PINNED F.PLACE_PARCELS_PINNED_COUNT + (ps.filter fun n => !ePin (s.entry n)).length)
  else if code = 2 then ps.any fun n => ePin (s.entry n)
  else if code = 3 then !s.cacheOn
  else false

/-- Apply a hint to one parcel. -/
def hintOne (code : Nat) (s : State) (n : Nat) : State :=
  match code with
  | 0 => s.pin n
  | 1 => s.unpin n
  | 2 => s.release n
  | 3 => s.prefetch n
  | 4 => s.nocache n
  | _ => s.uncache n

/-- A HintReq of one of the codes that `p` accepts is performed. -/
def hintReq (s : State) (tag : Nat) (m : LookupIn) (p : Nat → Bool) : State :=
  match s.readyReq tag fun h => decide (hOpc h = 6) && p (hArg h) with
  | none => s
  | some r =>
    let s := if r.status ≠ 0 then s else s.lookEntries m r.header r.data
    let st := if r.status ≠ 0 then r.status else s.decodeStatus r.header r.data
    let ps := hintParcels r.header
    if st ≠ 0 then s.answer r st 0 []
    else if ps.any fun n => eState (s.entry n) = 5 then s
    else if s.hintDenied (hArg r.header) ps then s.answer r 9 0 []
    else (ps.foldl (hintOne (hArg r.header)) s).answer r 0 0 []

/-! ### Placing responses (R84, R99, R104, R131) -/

/-- Put a transaction into the stream of sequenced flits. -/
def place_ (s : State) (i : TxItem) : State := { s with link := { s.link with txq := s.link.txq ++ [i] } }

/-- RESPONSE_SEND: the response is placed in the next sequenced flits, and its tag is freed. -/
def responseSend (s : State) (tag : Nat) : State :=
  match s.xact.reqs.find? fun r => decide (r.stage = .done) && hTag r.header == tag with
  | none => s
  | some r =>
    if !s.released || !s.sendOpen || !s.credOk (hTc r.header) r.payload.length then s.noteWait
    else
      let s := s.place_ { header := rspHeader r, data := r.payload, req := some r.id }
      let s := { s with xact := { s.xact with reqs := s.xact.reqs.filter fun x => decide (x.id ≠ r.id) } }
      (s.latencyDone r).noteWait

/-! ### Events (R126 to R128) -/

/-- The 64 bytes of an event record, byte 0 lowest. -/
def eventData (s : State) (e : Event) : LineData :=
  BitVec.ofNat 512 (e.ts.toNat + e.page % 2 ^ 16 * 2 ^ 64 + e.source % 2 ^ 8 * 2 ^ 80 + e.kind % 2 ^ 8 * 2 ^ 88
    + e.merges.toNat * 2 ^ 128 + s.xact.lost.toNat * 2 ^ 160 + e.detail.toNat * 2 ^ 192)

/-- EVENT_SEND. -/
def eventSend (s : State) : State :=
  match s.nextEvent with
  | none => s
  | some e =>
    if !s.released || !s.sendOpen || !s.credOk s.evtTc 4 then s.noteWait
    else
      let tc := s.evtTc
      let q := s.fld R.XACT_EVT_SEQ F.XACT_EVT_SEQ_NEXT
      let h : Word64 := BitVec.ofNat 64 (0x30 * 2 ^ 58 + tc * 2 ^ 55 + q * 2 ^ 37 + e.nma.toNat * 2 ^ 31)
      let d := lineSlots (s.eventData e)
      let s := (s.place_ { header := h, data := d }).put R.XACT_EVT_SEQ F.XACT_EVT_SEQ_NEXT ((q + 1) % 4096)
      let s := { s with xact := { s.xact with events := s.xact.events.erase e, lost := 0 } }
      (s.inc R.XACT_EVT_SENT).noteWait

/-- An event joins the queue, or is dropped (R127). The lost count goes with the next event; no event of KIND 3 is sent by itself
(DESIGN CHOICE, assumption 115). -/
def queueEvent (s : State) (e : Event) : State :=
  if !e.nma && !s.evtEn then s
  else if (if e.nma then 64 else 56) ≤ s.xact.events.length then
    { s with xact := { s.xact with lost := s.xact.lost + 1 } }.inc R.XACT_EVT_DROPPED
  else { s with xact := { s.xact with events := s.xact.events ++ [e] } }.noteWait

/-! ### DRAM commands and returned read data (R187, R189, R195) -/

/-- DRAM_SCHEDULE, with the stamp and the row bits of a sampled read whose column command is issued (R437, R438). -/
def dramSchedule (s : State) (c p : Nat) (bad : Bool) : State :=
  let n := (s.pch (2 * c + p)).flight.length
  let s := s.dramClock c p bad
  match ((s.pch (2 * c + p)).flight.drop n).head? with
  | none => s
  | some x =>
    if x.idx = 0 then
      (s.stamp x.req 5).sampleWhere x.req ((if x.acted then 0 else 2 ^ 25) + (if x.conf then 2 ^ 26 else 0))
    else s

/-- A line reaches its request, and fills the cache when its parcel still has the frame that was read (R171). -/
def reachReq (s : State) (m : LookupIn) (r : Req) (x : DReq) (l : Line) (fill : Bool) (known : Option Line) : State :=
  let s := s.setReqLine r.id x.idx l
  let s := if x.idx = 0 then s.stamp r.id 6 else s
  let s := if fill then s.fillAfterRead m (hAddr r.header + x.idx) known ((hArg r.header).testBit 0) else s
  s.tryFinish r.id

/-- The request that a read at a controller belongs to. -/
def readerOf (s : State) (x : DReq) : Option Req :=
  s.xact.reqs.find? fun r => decide (r.id = x.req) && decide (r.stage = .reading)

/-- The parcel of a request still has the frame that a read names. -/
def readHere (s : State) (r : Req) (x : DReq) : Bool :=
  let w := s.live (liParcel (hAddr r.header + x.idx))
  eHeld w && decide (eFrame w = x.f)

/-- Reads that wait at a controller for a line whose poison write has entered the queue are answered from it (R197). -/
def serveForward (s : State) (m : LookupIn) (f o : Nat) : State :=
  match s.queuedWrite f o with
  | none => s
  | some w =>
    let p := s.pch (fPc f)
    let mine := fun (x : DReq) => DReq.at_ x f o && !x.scrub
    let s := s.setPch (fPc f) { p with rq := p.rq.filter fun x => !mine x }
    (p.rq.filter mine).foldl (fun t x =>
      let t := t.inc (R.CHC_FWD_READS (t.ctrlPage (fChan f)))
      match t.readerOf x with
      | none => t
      | some r => t.reachReq m r x w.line (t.readHere r x) (some w.line)) s

/-- A returned line reaches its request, whose parcel may have moved meanwhile. -/
def lineReturned (s : State) (m : LookupIn) (x : DReq) (out : ReadOut) : State :=
  let old := s.superseded x
  let s := match s.readerOf x with
    | none => (s.settleRead x none out 1).2
    | some r =>
      let here := s.readHere r x
      let a := s.settleRead { x with stale := x.stale || !here } (if here then some (hAddr r.header + x.idx) else none) out 1
      a.2.reachReq m r x a.1 (here && !out.lost) (if old then none else some a.1)
  if out.lost && !old then s.serveForward m x.f x.o else s

/-- READ_DATA_RETURN: the oldest burst of a pseudo-channel is decoded. -/
def readReturn (s : State) (c p : Nat) (first again : BurstIn) (m : LookupIn) : State :=
  let pc := 2 * c + p
  match (s.pch pc).flight with
  | [] => s
  | x :: rest =>
    let q := s.pch pc
    let s := s.setPch pc { q with flight := rest }
    let loc := 1024 * x.f + x.o
    let out := if s.unreadable x.f then lostOut false x.line
      else decodeRead (s.corrMax x.f) (s.retryEn x.f) loc (s.burst x.f x.o x.line first) (s.burst x.f x.o x.line again)
    let r := s.xact.reqs.find? fun r => decide (r.id = x.req)
    let addr := match r with | none => loc | some r => hAddr r.header + x.idx
    let d : Delivery := { outcomeOf x.f x.o 1 0 (BitVec.ofNat 64 addr) with
      mid := r.map fun r => hMid r.header, tc := r.map fun r => hTc r.header }
    let s := if out.reread (s.retryEn x.f) then s.inc64 (R.CHC_READS_LO (s.ctrlPage (fChan x.f))) else s
    let s := s.countOutcome x.f x.o out d
    let s := (match r with
      | none => s.lineReturned m x out | some r => s.forRequest r.header (s.lineReturned m x out)).runFills m
    if out.addrErr then s.addrTraining pc else s

end State
end Sys2Proof.Machine
end

