-- ==== Sys2Proof/Machine/Engines.lean ====
section
/-! DEFINITION. The engines and commit units: acceptance and placement of work, the running of chunks, commit records,
failures, planned moves, cancellation and completion (R164, R226, R227, R238 to R253, R259, R307). -/

namespace Sys2Proof.Machine

/-- Quadrant and slot of an engine (R226). -/
def engQuad (e : Nat) : Nat := e / 9
/-- The engines of a quadrant. -/
def quadEngines (q : Nat) : List Nat := (List.range 9).map (9 * q + ·)
def quads : List Nat := [0, 1, 2, 3]

/-- PG_STAT of a page and its bits SPARED, RETIRED and UNDER_TEST (R408). -/
def pgStat (pg : Nat) : Nat := 0x1000 * pg + 0x10
def pgSpared : Fld := ⟨3, 1⟩
def pgRetired : Fld := ⟨4, 1⟩
def pgUnderTest : Fld := ⟨5, 1⟩

def chcPg (k : Nat) : Nat := 0x100 + k
def engPg (e : Nat) : Nat := 0x180 + e

namespace State

/-! ### Engines and the work table (R227, R239, R252, R253) -/

def engState (s : State) (e : Nat) : Nat := s.fld (R.ENG_ENG_STAT e) F.ENG_ENG_STAT_STATE
def setEngState (s : State) (e n : Nat) : State := s.put (R.ENG_ENG_STAT e) F.ENG_ENG_STAT_STATE n

/-- The slot whose role an engine has, and the quadrant's spare engine (R11). -/
def engSlot (s : State) (e : Nat) : Nat := SMap.get (· % 9) s.eng.slots e
def engIsSpare (s : State) (e : Nat) : Bool := s.on (R.ENG_ENG_STAT e) F.ENG_ENG_STAT_SPARE
def engSpareOf (s : State) (q : Nat) : Option Nat := (quadEngines q).find? s.engIsSpare

/-- Give an engine a slot's role. -/
def setSlot (s : State) (e slot : Nat) : State :=
  { s with eng := { s.eng with slots := SMap.set (· % 9) e slot s.eng.slots } }.flag (R.ENG_ENG_STAT e)
    F.ENG_ENG_STAT_SPARE (decide (slot = 8))

/-- An engine that may take work: enabled, and not failed, retired or under test. One that is off counts: a spare is
powered up on request (R23). -/
def engUsable (s : State) (e : Nat) : Bool := s.on (R.ENG_ENG_CTL e) F.ENG_ENG_CTL_EN && decide (s.engState e ≤ 3)

/-- The running work of an engine. -/
def runningOn (s : State) (e : Nat) : Option Work :=
  s.eng.works.find? fun w => decide (w.engine = some e) && w.phase != .queued && w.ended.isNone

/-- The works queued to an engine, oldest first. -/
def queuedOn (s : State) (e : Nat) : List Work :=
  s.eng.works.filter fun w => decide (w.engine = some e) && w.phase == .queued && w.ended.isNone

def quadWorks (s : State) (q : Nat) : List Work := s.eng.works.filter fun w => w.quad == q
def quadRecords (s : State) (q : Nat) : List CommitRec := s.eng.records.filter fun r => r.quad == q

/-- The spare stands in for an engine that is not usable (R307). -/
def spareInUse (s : State) (q : Nat) : Bool :=
  (s.engSpareOf q).any fun sp => decide (1 ≤ s.engState sp)
    && (quadEngines q).any fun e => e != sp && !s.engUsable e

/-- The engines that work placement may choose (R164). -/
def activeEngines (s : State) (q : Nat) : List Nat :=
  (quadEngines q).filter fun e => s.engUsable e && (!s.engIsSpare e || s.spareInUse q)

/-- An engine is out for good: the quadrant's usable spare takes its slot (R11, R307). -/
def fillSlot (s : State) (e : Nat) : State :=
  if s.engIsSpare e then s.flag (R.ENG_ENG_STAT e) F.ENG_ENG_STAT_SPARE false
  else match (s.engSpareOf (engQuad e)).filter s.engUsable with
    | some sp => s.setSlot sp (s.engSlot e)
    | none => s

/-- The engine that has a slot's role in its quadrant and is not out. -/
def engHolder (s : State) (q slot : Nat) : Option Nat :=
  (quadEngines q).find? fun e => decide (s.engSlot e = slot ∧ s.engState e ≠ 4 ∧ s.engState e ≠ 5) && (s.engIsSpare e == decide (slot = 8))

/-- A spare that stands in for `u` keeps its slot, and `u` is the spare from now on (R397). -/
def keepSlot (s : State) (u : Nat) : State :=
  match s.engSpareOf (engQuad u) with
  | some sp => if sp = u then s else (s.setSlot sp (s.engSlot u)).setSlot u 8
  | none => s

/-- A running slice of the quadrant's kind is abandoned and its units are free again; a swap that it has asked for and that
has not taken effect is cancelled (R299). A retest stays. -/
def recallSlice (s : State) (engine : Bool) (q : Nat) : State :=
  match s.bist.slice with
  | none => s
  | some x =>
    if x.engine != engine || x.q != q || x.retest then s
    else
      let s := s.flag (pgStat (if engine then engPg x.unit else chcPg x.unit)) pgUnderTest false
      let s := if engine then (if s.engState x.unit = 6 then s.setEngState x.unit 1 else s) else s
      let s := if !engine then s.swapCancel x.unit else if x.swapped then s.keepSlot x.unit else s
      let s := { s with bist := { s.bist with
          slice := none, results := SMap.upd (fun _ => 0) (64 * engine.toNat + x.unit) (fun n => n / 4 * 4 + 3) s.bist.results } }
      let s := (s.inc R.BIST_ABANDONED).inc R.BIST_UNTESTED
      let s := if engine then s.flag (R.BIST_ROT_STAT q) F.BIST_ROT_STAT_ENG_ACTIVE false
        else s.flag (R.BIST_ROT_STAT q) F.BIST_ROT_STAT_CTRL_ACTIVE false
      let f := if engine then F.BIST_ROT_STAT_ENG_SLOT else F.BIST_ROT_STAT_CTRL_SLOT
      let s := if x.cmd then s else s.put (R.BIST_ROT_STAT q) f ((s.fld (R.BIST_ROT_STAT q) f + 1) % 9)
      if x.cmd then (s.flag R.BIST_BIST_STAT F.BIST_BIST_STAT_BUSY false).flag R.BIST_BIST_STAT F.BIST_BIST_STAT_ABANDONED true
      else s

/-- An engine has passed its retest: it is the quadrant's spare when its slot has been filled meanwhile, and otherwise
back in its slot (R11, R290). -/
def engBack (s : State) (u : Nat) : State :=
  if (quadEngines (engQuad u)).any fun e => e != u && !s.engIsSpare e && decide (s.engSlot e = s.engSlot u) then s.setSlot u 8
  else s

/-- Change a work. -/
def updWork (s : State) (id : Nat) (f : Work → Work) : State :=
  { s with eng := { s.eng with works := s.eng.works.map fun w => if w.req = id then f w else w } }

def workOf (s : State) (id : Nat) : Option Work := s.eng.works.find? fun w => decide (w.req = id)

/-- ENG_STAT, CUR_WORK, CUR_CHUNK and CUR_TOTAL follow the work table. -/
def syncEng (s : State) (e : Nat) : State :=
  let r := s.runningOn e
  let st := match r with | none => 1 | some w => if w.phase = .precheck then 3 else 2
  let s := if 1 ≤ s.engState e ∧ s.engState e ≤ 3 then s.setEngState e st else s
  let s := s.put (R.ENG_ENG_STAT e) F.ENG_ENG_STAT_QUEUED (min 7 (s.queuedOn e).length)
  match r with
  | none =>
    let s := s.flag (R.ENG_ENG_STAT e) F.ENG_ENG_STAT_TAKEOVER false
    ((s.wr (R.ENG_CUR_WORK e) 0).wr (R.ENG_CUR_CHUNK e) 0).wr (R.ENG_CUR_TOTAL e) 0
  | some w =>
    let h := w.header
    let s := s.flag (R.ENG_ENG_STAT e) F.ENG_ENG_STAT_TAKEOVER w.takeover
    let s := s.wr (R.ENG_CUR_WORK e) (BitVec.ofNat 32
      (hTag h + hMid h * 2 ^ 12 + hTc h * 2 ^ 18 + w.d.eop * 2 ^ 21 + 2 ^ 31))
    (s.wr (R.ENG_CUR_CHUNK e) (BitVec.ofNat 32 (w.committed % 2 ^ 28))).wr (R.ENG_CUR_TOTAL e)
      (BitVec.ofNat 32 (w.d.chunks % 2 ^ 28))

/-- Every engine page follows. -/
def syncAll (s : State) : State := (List.range 36).foldl syncEng s

/-! ### Checks at decode (R238) -/

/-- Limit of byte addresses. -/
def byteLimit (s : State) : Nat := 64 * s.fld R.XACT_VIS_LIMIT F.XACT_VIS_LIMIT_LIMIT

/-- Status and RINFO of a received WorkReq: BAD_DESC, RANGE, WITHDRAWN, or 0. -/
def workStatus (s : State) (i : RxItem) : Nat × Nat :=
  let d := descOf (i.ext.getD 0)
  if !d.valid then (5, 2 * 0x10)
  else if d.extents.any fun x => decide (x.1 < 0 ∨ (s.byteLimit : Int) < x.1 + x.2) then (2, 0)
  else if d.extents.any fun x => eState (s.entry (x.1.toNat / 65536)) = 4 then (3, 0)
  else (0, 0)

/-- The parcels that the checks of a received WorkReq look up. -/
def workParcels (i : RxItem) : List Nat := ((descOf (i.ext.getD 0)).extents.map fun x => x.1.toNat / 65536)

/-! ### Placement of work (R164) -/

/-- Bytes of a range that lie in `w` parcels from parcel `p` on. -/
def rangeIn (a n p w : Nat) : Nat := min (a + n) (65536 * (p + w)) - max a (65536 * p)

/-- Samples of an operand: (parcel, bytes it stands for). Up to 64 parcels are looked up one by one; of more, one free
choice out of each of 64 parts. -/
def samples (free a n : Nat) : List (Nat × Nat) :=
  let lo := a / 65536
  let k := (a + n - 1) / 65536 - lo + 1
  if k ≤ 64 then (List.range k).map fun i => (lo + i, rangeIn a n (lo + i) 1)
  else (List.range 64).map fun i =>
    let x := i * k / 64
    let w := (i + 1) * k / 64 - x
    (lo + x + (Config.freeWord (free + i)).toNat % w, rangeIn a n (lo + x) w)

/-- The parcels that the placement of a work looks up. -/
def sampled (s : State) (d : Desc) : List Nat :=
  ((d.placed.zipIdx).map fun x => (samples (s.free + 64 * x.2) x.1.1 x.1.2).map (·.1)).flatten

/-- Operand bytes in each quadrant. -/
def operandBytes (s : State) (d : Desc) (q : Nat) : Nat :=
  (d.placed.zipIdx).foldl (fun n x =>
    (samples (s.free + 64 * x.2) x.1.1 x.1.2).foldl (fun m y =>
      let w := s.live y.1
      if eHeld w ∧ fQuad (eFrame w) = q then m + y.2 else m) n) 0

/-- The quadrants that R164 does not skip. -/
def openQuads (s : State) : List Nat :=
  quads.filter fun q => s.on (R.QUAD_QUAD_CTL q) F.QUAD_QUAD_CTL_WORK_EN && !(s.activeEngines q).isEmpty

/-- Descriptors queued in a quadrant. -/
def quadQueued (s : State) (q : Nat) : Nat := ((s.quadWorks q).filter fun w => w.phase == .queued).length

/-- The quadrant for a work: most bytes, then fewer queued, then the lower. -/
def chooseQuad (s : State) (d : Desc) (qs : List Nat) : Option Nat :=
  match qs with
  | [] => none
  | a :: r => some (r.foldl (fun b q =>
      if s.operandBytes d b < s.operandBytes d q
          ∨ (s.operandBytes d b = s.operandBytes d q ∧ s.quadQueued q < s.quadQueued b) then q else b) a)

/-- Depth of an engine's queue. -/
def wqDepth (s : State) (e : Nat) : Nat := max 1 (s.fld (R.ENG_ENG_CTL e) F.ENG_ENG_CTL_WQ_DEPTH)

/-- Room for one more descriptor at an engine: one runs, and WQ_DEPTH wait. -/
def engRoom (s : State) (e : Nat) : Bool :=
  decide ((s.queuedOn e).length < (if (s.runningOn e).isSome then s.wqDepth e else s.wqDepth e + 1))

/-- The engine of a list with the fewest queued descriptors. -/
def leastQueued (s : State) : List Nat → Option Nat
  | [] => none
  | a :: r => some (r.foldl (fun b e => if (s.queuedOn e).length < (s.queuedOn b).length then e else b) a)

/-- WORK_REQ: a released WorkReq with a valid descriptor enters the work table, or waits (R239). -/
def workReq (s : State) (tag : Nat) (m : LookupIn) : State :=
  if !s.released then s
  else match s.xact.reqs.find? fun r => decide (r.stage = .ready) && hTag r.header == tag && hOpc r.header == 7 with
  | none => s
  | some r =>
    let order := s.xact.reqs.all fun x =>
      !(decide (x.id < r.id) && samePair x.header r.header) || x.performed || decide (x.stage = .working)
    let st := if r.status ≠ 0 then (r.status, r.rinfo) else s.workStatus { header := r.header, ext := r.ext, data := [], left := 0 }
    if st.1 ≠ 0 then (if s.mayPerform r then s.answer r st.1 st.2 [] else s)
    else if !order then s
    else
      let d := descOf (r.ext.getD 0)
      let s := s.lostEntries m (s.sampled d)
      match s.chooseQuad d s.openQuads with
      | none => s
      | some q =>
        match s.leastQueued ((s.activeEngines q).filter s.engRoom) with
        | none => s
        | some e =>
          if 64 ≤ (s.quadWorks q).length then s
          else
            let s := { s with free := s.free + 64 * d.placed.length }
            let s := if r.owes then s.returnCredits (hTc r.header) 6 0 else s
            let s := s.updReq r.id fun x => { x with stage := .working, owes := false }
            let w : Work := { req := r.id, header := r.header, d := d, quad := q, engine := some e, run := d.initRun }
            let s := { s with eng := { s.eng with works := s.eng.works ++ [w] } }
            (s.inc (R.QUAD_WORKS_ACCEPTED q)).syncEng e

/-! ### Reads and writes of engines (R243, R246, R259) -/

/-- Base of the free values of a chunk; poisoned and unreadable lines have free data (R107, R245). -/
def engRead (s : State) (a : Int) : ELine :=
  if a < 0 ∨ (s.byteLimit : Int) ≤ a then ⟨Config.freeLine s.free, true, 0x11⟩
  else
    let li := (a / 64).toNat
    let w := s.live (liParcel li)
    if eState w = 4 then ⟨Config.freeLine (s.free + li + 1), true, 0x12⟩
    else
      let l := s.currentLine li
      if l.poisoned then ⟨Config.freeLine (s.free + li + 1), true, 0⟩ else ⟨l.data, false, 0⟩

/-- The operand fault of a written address. -/
def engWriteFault (s : State) (a : Int) : Nat :=
  if a < 0 ∨ (s.byteLimit : Int) ≤ a then 0x11
  else if eState (s.live (liParcel (a / 64).toNat)) = 4 then 0x12 else 0

/-- A parcel that an address names is in REPAIRING: the access is held (R139). -/
def engHeldUp (s : State) (l : List Int) : Bool :=
  l.any fun a => decide (0 ≤ a ∧ a < (s.byteLimit : Int)) && eState (s.entry (liParcel (a / 64).toNat)) == 5

/-- The Bridle holds the line requests of a work (R259). -/
def engHold (s : State) (h : Word64) : Bool :=
  let m := hMid h
  let ex := s.guarOn && !s.guaranteed (hTc h) && (s.grantPins m).isEmpty && decide (s.bridle.pool ≤ 0) && classes.any s.behind
  s.bridleOn && (decide ((s.effMode m = 1 ∨ s.effMode m = 2) ∧ s.remain m ≤ 0) || ex)

/-- Charge one line of an engine to its master and class (R255, R268). -/
def engCharge (s : State) (h : Word64) : State :=
  s.charge h 64 (s.guarOn && !s.guaranteed (hTc h) && (s.grantPins (hMid h)).isEmpty)

/-- The line requests of an engine pass the Bridle one by one until it holds the next: how many of `n` are left (R259). -/
def payLines (h : Word64) : Nat → State → Nat × State
  | 0, s => (0, s)
  | n + 1, s => if s.engHold h then (n + 1, s) else payLines h n (s.engCharge h)


/-- Read one line: the cache, the heat and the counters of its words follow, and a line that is lost stands poisoned where
it lives from now on (R106, R142, R171, R176, R187, R243). -/
def engTouch (s : State) (d : Desc) (m : LookupIn) (li : Nat) : State :=
  ((if d.noHeat then s else s.heatAccess (liParcel li)).readThrough m li 4 d.noAlloc).2

/-- Lines of a list of addresses, each once. -/
def linesOfAddrs (s : State) (l : List Int) : List Nat :=
  (l.filterMap fun a => if 0 ≤ a ∧ a < (s.byteLimit : Int) then some (a / 64).toNat else none).eraseDups

/-- Look-ups of the parcels of a list of addresses (R139). -/
def engLook (s : State) (m : LookupIn) (l : List Int) : State :=
  s.lostEntries m ((s.linesOfAddrs l).map liParcel).eraseDups

/-- A line that an access must wait for: DRAM behind a swap (R202). -/
def engWaits (s : State) (l : List Int) : Bool := (s.linesOfAddrs l).any s.atomWaits

/-- Read lines of a work and count them. -/
def engReads (s : State) (e : Nat) (w : Work) (m : LookupIn) (ls : List Nat) : State :=
  (ls.foldl (fun t li => t.engTouch w.d m li) s).inc64 (R.ENG_LINES_LO e) ls.length

/-- Of the `n` line reads of a work's next step, those pass that the Bridle lets pass; whether all have (R259). -/
def engPay (s : State) (w : Work) (n : Nat) : Bool × State :=
  let a := payLines w.header (n - w.paid) s
  (a.1 == 0, a.2.updWork w.req fun x => { x with paid := if a.1 = 0 then 0 else n - a.1 })

/-! ### Ending a work (R247, R248) -/

/-- The completion record (R248). -/
def completionRecord (s : State) (w : Work) (code : Nat) : LineData :=
  let r := w.d.result w.run
  let exc := w.run.exc ||| r.2.2 ||| (if w.run.resPoison then 32 else 0)
  let us := min ((s.clk.up - w.startedAt) / 1000) (2 ^ 32 - 1)
  let n := w.d.ctag + code * 2 ^ 16 + exc % 64 * 2 ^ 24 + (w.engine.getD 0) * 2 ^ 32 + min w.retries 255 * 2 ^ 40
    + r.1 % 2 ^ 64 * 2 ^ 64 + r.2.1 % 2 ^ 64 * 2 ^ 128 + w.d.doneElems w.committed * 2 ^ 192
    + w.run.poisonLines % 2 ^ 32 * 2 ^ 256 + w.run.skipped % 2 ^ 32 * 2 ^ 288
    + ((w.run.fault.map (·.1)).getD (2 ^ 64 - 1)) % 2 ^ 64 * 2 ^ 320 + ((w.run.fault.map (·.2)).getD 0) % 2 ^ 64 * 2 ^ 384
    + us * 2 ^ 448
  BitVec.ofNat 512 n

/-- Take a work out of the table and answer its WorkReq. -/
def closeWork (s : State) (w : Work) (status code : Nat) (pay : List Slot) : State :=
  let s := { s with eng := { s.eng with works := s.eng.works.filter fun x => decide (x.req ≠ w.req) } }
  let s := match s.xact.reqs.find? fun r => decide (r.id = w.req) with
    | none => s
    | some r => s.answer r status ((if w.retries = 0 then 0 else 1) + 2 * code) pay
  match w.engine with | none => s | some e => s.syncEng e

/-- A cancellation that named this work ends. -/
def cancelEnds (s : State) (w : Work) : State :=
  w.stopBy.foldl (fun t q =>
    if q < 4 then
      (t.flag (R.QUAD_CANCEL_STAT q) F.QUAD_CANCEL_STAT_BUSY false).flag (R.QUAD_CANCEL_STAT q) F.QUAD_CANCEL_STAT_STOPPED true
    else t) s

/-- The work ends with ABORT: its record is held in the QUAD page (R248). -/
def abortWork (s : State) (w : Work) (code : Nat) (fault : Option (Nat × Nat)) : State :=
  let h := w.header
  let q := w.quad
  let s := s.wr (R.QUAD_ABORT_REC0 q) (BitVec.ofNat 32 (hTag h + hMid h * 2 ^ 12 + hTc h * 2 ^ 18 + code * 2 ^ 21))
  let s := s.wr (R.QUAD_ABORT_REC1 q) (BitVec.ofNat 32 w.d.ctag)
  let s := s.wr64 (R.QUAD_ABORT_ELEM_LO q) (BitVec.ofNat 64 ((fault.map (·.1)).getD (2 ^ 64 - 1)))
  let s := s.wr64 (R.QUAD_ABORT_ADDR_LO q) (BitVec.ofNat 64 ((fault.map (·.2)).getD 0))
  ((s.inc (R.QUAD_WORKS_ABORTED q)).cancelEnds w).closeWork w 5 code []

/-- The work has ended and every record of it is applied: its WorkCpl is placed (R117, R248). Code 0x13 ends it with ABORT (R307). -/
def finishWork (s : State) (id : Nat) : State :=
  match s.workOf id with
  | none => s
  | some w =>
    match w.ended with
    | none => s
    | some c =>
      if s.eng.records.any fun r => decide (r.req = id) then s
      else if c = 0x13 then s.abortWork w c none
      else
        let skips := decide (w.run.skipped ≠ 0 ∨ w.run.poisonLines ≠ 0) || w.run.resPoison
        let code := if c = 2 then 2 else if skips then 1 else 0
        let s := s.inc (if c = 2 then R.QUAD_WORKS_STOPPED w.quad else R.QUAD_WORKS_DONE w.quad)
        let s := (s.inc (R.QUAD_SKIPPED w.quad) w.run.skipped).cancelEnds w
        let s := match w.engine with | none => s | some e => s.inc (R.ENG_WORKS e)
        s.closeWork w 0 code (lineSlots (s.completionRecord w code))

/-! ### Beginning and precheck (R117, R239, R240) -/

/-- WORK_BEGIN: an idle engine begins the first of its queued works that may be performed; a work taken over resumes at
its first uncommitted chunk. -/
def workBegin (s : State) (e : Nat) : State :=
  if !s.released || s.engState e ≠ 1 || !s.on (R.ENG_ENG_CTL e) F.ENG_ENG_CTL_EN || (s.runningOn e).isSome then s
  else
    let ready := fun (w : Work) => match s.xact.reqs.find? fun r => decide (r.id = w.req) with
      | none => false
      | some r => r.begun || s.mayPerform r
    match (s.queuedOn e).find? ready with
    | none => s
    | some w =>
      let first := !(s.xact.reqs.any fun r => decide (r.id = w.req) && r.begun)
      let s := s.updReq w.req fun r => { r with begun := true }
      let s := s.updWork w.req fun x => { x with
        phase := if x.d.precheck && !x.checked then .precheck else .running
        startedAt := if first then s.clk.up else x.startedAt }
      let s := if w.takeover then (s.inc (R.ENG_TAKEOVERS e)) else s
      s.syncEng e

/-- The index elements, or HISTOGRAM's operands, that a precheck reads. -/
def precheckReads (d : Desc) : List Int :=
  if d.usesIdx then (List.range d.count).map d.addrX
  else if d.eop = 20 then (List.range d.count).map d.addrA else []

/-- The addresses that a precheck looks up. -/
def precheckAddrs (s : State) (d : Desc) : List Int :=
  ((List.range d.count).map fun i => readAddrs d s.engRead i ++ writeAddrs d s.engRead i).flatten

/-- PRECHECK_DONE (R240, R246). -/
def precheckDone (s : State) (e : Nat) (m : LookupIn) : State :=
  match s.runningOn e with
  | none => s
  | some w =>
    if w.phase ≠ .precheck || s.engWaits (precheckReads w.d) then s
    else
      let s := (s.engLook m (precheckReads w.d)).engLook m (s.precheckAddrs w.d)
      let a := s.engPay w (s.linesOfAddrs (precheckReads w.d)).length
      if s.engHeldUp (s.precheckAddrs w.d) then s
      else if !a.1 then a.2
      else
        let s := a.2.engReads e w m (s.linesOfAddrs (precheckReads w.d))
        let f := Machine.precheck w.d s.engRead s.engWriteFault
        let s := { s with free := s.free + (2 ^ 31 + 2 ^ 28) }
        match f with
        | some (code, i, a) => s.abortWork w code (some (i, (a % (2 ^ 64 : Nat)).toNat))
        | none => (s.updWork w.req fun x => { x with phase := .running, checked := true }).syncEng e

/-! ### Moving work between engines (R249, R250, R307) -/

/-- The engine that takes work over in a quadrant: the spare when it is usable, else the usable active engine with the
fewest queued descriptors. -/
def takeoverIn (s : State) (q e : Nat) : Option Nat :=
  match (s.engSpareOf q).filter fun sp => decide (sp ≠ e) && s.engUsable sp with
  | some sp => some sp
  | none => s.leastQueued ((s.activeEngines q).filter fun x => x != e)

/-- The takeover engine of a work, in its quadrant or, with XQUAD_EN, in another whose work table has room (R227, R249); the end of
a test slice sends a work back to its engine (R395). -/
def takeoverFor (s : State) (w : Work) (e : Nat) (failed : Bool) : Option Nat :=
  match (if failed then none else w.home.filter fun h => h != e && s.engUsable h) <|> s.takeoverIn w.quad e with
  | some x => some x
  | none =>
    if s.on (R.QUAD_QUAD_CTL w.quad) F.QUAD_QUAD_CTL_XQUAD_EN then
      (s.chooseQuad w.d (s.openQuads.filter fun q => q != w.quad && decide ((s.quadWorks q).length < 64))).bind fun q =>
        s.leastQueued (s.activeEngines q)
    else none

/-- Count a work that goes to a quadrant: a planned move, a resumption after a failure (`why` 1 and 2), and a work that has run
and resumes in another quadrant (R253). -/
def countPlanned (s : State) (w : Work) (q why : Nat) (ran : Bool) : State :=
  let s := if why = 1 then s.inc (R.QUAD_PLANNED_MOVES w.quad) else if why = 2 then s.inc (R.QUAD_TAKEOVERS w.quad) else s
  if ran && decide (q ≠ w.quad) then s.inc (R.QUAD_XQUAD_TAKEOVERS w.quad) else s

/-- Hand a work to another engine: to the head of its queue when it was running. Without one it waits while XQUAD_EN is
set; otherwise queued work ends as cancelled, and running work too unless it has committed a chunk, which stops it (R247, R307).
WQ_DEPTH does not limit what a move brings (assumption 126), and a failure counts when the work was running (assumption 127). -/
def handOver (s : State) (w : Work) (e : Nat) (failed : Bool) : State :=
  let wasRunning := w.phase != .queued
  let retry := failed && wasRunning
  let why := if retry then 2 else if failed then 0 else 1
  match s.takeoverFor w e failed with
  | some x =>
    let q := engQuad x
    let s := s.countPlanned w q why (wasRunning || w.takeover)
    let w' := { w with
      engine := some x, quad := q, phase := WorkPhase.queued, moving := false, home := none, paid := 0
      takeover := w.takeover || wasRunning
      retries := if retry then w.retries + 1 else w.retries }
    let others := s.eng.works.filter fun y => decide (y.req ≠ w.req)
    let s := { s with eng := { s.eng with works := if wasRunning then w' :: others else others ++ [w'] } }
    (s.syncEng e).syncEng x
  | none =>
    if s.on (R.QUAD_QUAD_CTL w.quad) F.QUAD_QUAD_CTL_XQUAD_EN then
      (s.updWork w.req fun y => { y with
        engine := none, phase := .queued, moving := false, home := none, paid := 0, takeover := y.takeover || wasRunning, wait := why
        retries := if retry then y.retries + 1 else y.retries }).syncEng e
    else
      let code := if w.committed = 0 ∨ !wasRunning then 0x13 else 2
      ((s.updWork w.req fun y => { y with ended := some code }).finishWork w.req).syncEng e

/-- Works that found no engine are tried again. -/
def adoptWorks (s : State) : State :=
  (s.eng.works.filter fun w => w.engine.isNone && w.ended.isNone).foldl (fun t w =>
    match t.takeoverFor w 36 false with
    | none => t
    | some x =>
      ((t.countPlanned w (engQuad x) w.wait w.takeover).updWork w.req fun y => { y with
        engine := some x, quad := engQuad x, wait := 0 }).syncEng x) s

/-- XQUAD_EN has been cleared: the works of the quadrant that wait without an engine end as cancelled (R307). -/
def endWaiting (s : State) (q : Nat) : State :=
  (s.eng.works.filter fun w => w.quad == q && w.engine.isNone && w.ended.isNone).foldl (fun t w =>
    (t.updWork w.req fun y => { y with ended := some 0x13 }).finishWork w.req) s

/-- The works of an engine, running first. -/
def worksOn (s : State) (e : Nat) : List Work :=
  s.eng.works.filter fun w => decide (w.engine = some e) && w.ended.isNone

/-- An engine fails (R249): a spare under test is recalled (R299), incomplete records are discarded, its works move. -/
def engFail (s : State) (e kind : Nat) : State :=
  if s.engState e = 0 ∨ s.engState e = 4 ∨ s.engState e = 5 then s
  else
    let s := if s.bist.slice.any fun x => x.unit ≠ e then s.recallSlice true (engQuad e) else s
    let ws := s.worksOn e
    let s := s.setEngState e 4
    let s := if ws.any fun w => w.phase == .running then s.inc (R.QUAD_RECORDS_DISCARDED (engQuad e)) else s
    let s := ws.foldl (fun t w => t.handOver w e true) s
    s.report kind (resEng e) 1 4

/-- ENGINE_FAULT. -/
def engineFault (s : State) (e : Nat) (k : EngineFaultKind) : State :=
  if s.engState e = 0 ∨ s.engState e = 4 ∨ s.engState e = 5 then s
  else match k with
    | .scratchUncorr => (s.inc (R.ENG_SCRATCH_UNCORR e)).engFail e 18
    | .sequencerParity => s.engFail e 18

/-- ENGINE_HANG: HANG_US without a commit while running, not paused by the Bridle (R249, R259). -/
def engineHang (s : State) (e : Nat) : State :=
  match s.runningOn e with
  | none => s
  | some w => if s.engHold w.header then s else (s.inc (R.ENG_HANGS e)).engFail e 19

/-- A planned move (R250): queued works move at once, the running one at its next commit. -/
def plannedMove (s : State) (e : Nat) : State :=
  let mark := fun (w : Work) =>
    if w.engine = some e ∧ w.phase ≠ .queued then { w with moving := true } else w
  let s : State := { s with eng := { s.eng with works := s.eng.works.map mark } }
  (s.queuedOn e).foldl (fun t w => t.handOver w e false) s

/-! ### Chunks (R240 to R247) -/

/-- The addresses that a chunk names. -/
def chunkAddrs (s : State) (w : Work) : List Int :=
  ((w.d.chunkElems w.committed).map fun i => readAddrs w.d s.engRead i).flatten

/-- The work has committed its last chunk, or FIND has its match (R230). -/
def lastChunk (w : Work) : Bool :=
  decide (w.d.chunks ≤ w.committed) || (decide (w.d.eop = 19) && w.run.found.isSome)

/-- What follows an accepted record: the work ends, stops, or moves. -/
def afterCommit (s : State) (e id : Nat) : State :=
  match s.workOf id with
  | none => s
  | some w =>
    if !w.stopBy.isEmpty then (s.updWork id fun x => { x with ended := some 2 }).finishWork id |>.syncEng e
    else if lastChunk w then (s.updWork id fun x => { x with ended := some 0 }).finishWork id |>.syncEng e
    else if w.moving then s.handOver w e false
    else s.syncEng e

/-- The index elements that a chunk reads first. -/
def chunkIndex (w : Work) : List Int := if w.d.usesIdx then (w.d.chunkElems w.committed).map w.d.addrX else []

/-- The lines of a chunk: those of its index elements, and the others. -/
def indexLines (s : State) (w : Work) : List Nat := s.linesOfAddrs (chunkIndex w)
def otherLines (s : State) (w : Work) : List Nat :=
  (s.linesOfAddrs (s.chunkAddrs w)).filter fun li => !(s.indexLines w).contains li

/-- The accesses of a chunk: index lines, then the others. -/
def chunkAccess (s : State) (e : Nat) (w : Work) (m : LookupIn) : State :=
  let xs := s.indexLines w
  let s := s.engReads e w m xs
  s.engReads e w m ((s.linesOfAddrs (s.chunkAddrs w)).filter fun li => !xs.contains li)

/-- Scratch words that were corrected while the chunk was built (R252). -/
def scratchCorr (s : State) (e n : Nat) : State :=
  if n = 0 then s else (s.inc (R.ENG_SCRATCH_CORR e) n).report 17 (resEng e) n 4

/-- The chunk waits: a parcel is in REPAIRING, a line is behind a swap, the work
table's records are full, or, for overlapping extents, an earlier record is not applied (R239, R242, R244). -/
def chunkWaits (s : State) (w : Work) : Bool :=
  let mine := s.eng.records.filter fun r => decide (r.req = w.req)
  w.phase != .running || s.engHeldUp (s.chunkAddrs w) || s.engWaits (s.chunkAddrs w)
    || decide (32 ≤ (s.quadRecords w.quad).length) || (w.d.overlaps && !mine.isEmpty) || decide (4 ≤ mine.length)

/-- CHUNK_COMMIT: the chunk that the engine has built is accepted (R242), once the Bridle has let its line requests pass (R259). -/
def chunkCommit (s : State) (e : Nat) (m : LookupIn) (scratch : Nat) : State :=
  match s.runningOn e with
  | none => s
  | some w =>
    let s := (s.engLook m (chunkIndex w)).engLook m (s.chunkAddrs w)
    let a := s.engPay w ((s.indexLines w).length + (s.otherLines w).length)
    if s.chunkWaits w then s
    else if !a.1 then a.2
    else
      let s := (a.2.scratchCorr e scratch).chunkAccess e w m
      let c := runChunk w.d s.engRead s.engWriteFault (fun i => (Config.freeLine (s.free + 2 ^ 31 + i)).toNat) w.run w.committed
      let s := { s with free := s.free + (2 ^ 31 + 2 ^ 28) }
      match (if w.committed = 0 then c.abort else none) with
      | some (code, i, a) => s.abortWork w code (some (i, (a % (2 ^ 64 : Nat)).toNat))
      | none =>
        let s := s.updWork w.req fun x => { x with committed := x.committed + 1, run := c.run }
        let s := if c.out.isEmpty then s
          else { s with eng := { s.eng with records := s.eng.records ++ [⟨w.req, w.quad, c.out⟩] } }
        (s.inc64 (R.ENG_CHUNKS_LO e)).afterCommit e w.req

/-! ### Applying records (R242, R243) -/

/-- Note a skip of an update (R245, R246). -/
def noteSkip (s : State) (id elem addr : Nat) : State :=
  s.updWork id fun w => { w with run := { w.run with skipped := w.run.skipped + 1, fault := w.run.fault.or (some (elem, addr)) } }

/-- The line as an engine's write leaves it: META stays, POISON is added to, ZEROED clears (R188, R243). -/
def engLine (l : Line) (d : LineData) (poison : Bool) : Line :=
  ⟨d, (l.md &&& 0xBF) ||| (if poison then 0x10 else 0)⟩

/-- Store an engine's line where it lives. -/
def engStore (s : State) (w : Work) (li : Nat) (l : Line) (whole : Bool) : State :=
  let n := liParcel li
  let s := if w.d.noHeat then s else s.heatAccess n
  let s := (if whole then s.wdbPut li l else s.updateLine li l).engCharge w.header
  s.closeFull n

/-- Line, and elements with their addresses, of an entry. -/
def entryLine : Entry → Nat
  | .write li _ _ _ _ => li
  | .upd a _ _ _ => a / 64
  | .add a _ => a / 64
def entryElems : Entry → List (Nat × Nat)
  | .write _ _ _ _ es => es
  | .upd a _ _ is => is.map fun i => (i, a)
  | .add a is => is.map fun i => (i, a)

/-- The elements of an entry are skipped: its write is dropped (R246). -/
def skipEntry (s : State) (w : Work) (en : Entry) : State :=
  (entryElems en).foldl (fun t e => t.noteSkip w.req e.1 e.2) s

/-- Apply one entry to a line that can be written; false when it is skipped. -/
def applyTo (s : State) (w : Work) (m : LookupIn) (en : Entry) : State × Bool :=
  let li := entryLine en
  let a := (s.tagLookups m [li]).readCurrent m li 4
  let l := a.1
  let s := a.2
  match en with
  | .write _ mask v p _ => (s.engStore w li (engLine l ((l.data &&& ~~~mask) ||| v) p) (decide (mask = -1)), true)
  | .upd a v p _ =>
    if l.poisoned then (s.skipEntry w en, false)
    else
      let r := atomBatchOp w.d.etype w.d.rmode w.d.subop (fieldOf l.data (a % 64) w.d.sz) v
      let s := s.updWork w.req fun x => { x with run := { x.run with exc := x.run.exc ||| r.2 } }
      (s.engStore w li (engLine l (withField l.data (a % 64) w.d.sz r.1) p) false, true)
  | .add a is =>
    let old := fieldOf l.data (a % 64) 8
    (s.engStore w li (engLine l (withField l.data (a % 64) 8 (old + is.length)) false) false, true)

/-- Apply entries in order: what is left when one must wait, and the lines written (R139, R140, R153, R202, R242). -/
def applyEntries (w : Work) (m : LookupIn) : List Entry → List Nat → State → State × List Entry × List Nat
  | [], ls, s => (s, [], ls)
  | en :: r, ls, s =>
    let li := entryLine en
    let n := liParcel li
    let s := s.lostEntries m [n]
    let st := eState (s.entry n)
    let go := fun (t : State) =>
      let a := t.applyTo w m en
      applyEntries w m r (if a.2 then li :: ls else ls) a.1
    if st = 5 || s.atomWaits li then (s, en :: r, ls)
    else if st = 4 then applyEntries w m r ls (s.skipEntry w en)
    else if st = 3 then
      match s.allocate_ n with
      | .placed t => go t
      | .wait => (s, en :: r, ls)
      | .withdrawn t => applyEntries w m r ls (t.skipEntry w en)
    else go s

/-- The oldest record of a quadrant, once no earlier record of its work waits elsewhere (R230, R242). -/
def nextRecord (s : State) (q : Nat) : Option CommitRec :=
  match (s.quadRecords q).head? with
  | none => none
  | some r => if (s.eng.records.find? fun x => decide (x.req = r.req)) = some r then some r else none

/-- COMMIT_RECORD_APPLY: the oldest record of a quadrant (R242). -/
def recordApply (s : State) (q : Nat) (m : LookupIn) : State :=
  match s.nextRecord q with
  | none => s
  | some r =>
    match s.workOf r.req with
    | none => { s with eng := { s.eng with records := s.eng.records.erase r } }
    | some w =>
      let a := applyEntries w m r.entries [] s
      let s := a.1
      let bad := (a.2.2.eraseDups.filter fun li => (s.currentLine li).poisoned).length
      let s := s.updWork w.req fun x => { x with run := { x.run with poisonLines := x.run.poisonLines + bad } }
      if a.2.1.isEmpty then
        { s with eng := { s.eng with records := s.eng.records.erase r } }.finishWork w.req
      else
        { s with eng := { s.eng with
            records := s.eng.records.map fun x => if x = r then { r with entries := a.2.1 } else x } }

/-! ### Cancelling and powering (R23, R247) -/

/-- Stop a work (R247): without a commit it aborts; otherwise it stops at its next chunk boundary. -/
def stopWork (s : State) (w : Work) (by_ : Nat) : State :=
  if w.ended.isSome then s
  else if w.committed = 0 then s.abortWork w 0x13 none
  else if w.phase = .queued then
    let s := s.updWork w.req fun x => { x with stopBy := x.stopBy ++ [by_], ended := some 2 }
    s.finishWork w.req
  else s.updWork w.req fun x => { x with stopBy := x.stopBy ++ [by_] }

/-- CANCEL. -/
def cancelWork (s : State) (q tag : Nat) : State :=
  let a := R.QUAD_CANCEL_STAT q
  match s.eng.works.find? fun w => hTag w.header == tag && w.ended.isNone with
  | none =>
    ((s.flag a F.QUAD_CANCEL_STAT_BUSY false).flag a F.QUAD_CANCEL_STAT_FOUND false).flag a F.QUAD_CANCEL_STAT_STOPPED false
  | some w =>
    let s := ((s.flag a F.QUAD_CANCEL_STAT_BUSY (decide (w.committed ≠ 0))).flag a F.QUAD_CANCEL_STAT_FOUND true).flag a
      F.QUAD_CANCEL_STAT_STOPPED false
    s.stopWork w q

/-- The orderly reset stops every work, applies every record and completes what has ended (R247). -/
def drainRecords (m : LookupIn) : Nat → State → State
  | 0, s => s
  | n + 1, s => drainRecords m n (quads.foldl (fun t q => t.recordApply q m) s)

def stopAllWorks (s : State) (m : LookupIn) : State :=
  let s := s.eng.works.foldl (fun t w => t.stopWork w 4) s
  let s := s.eng.works.foldl (fun t w => if !w.stopBy.isEmpty && w.ended.isNone then
    (t.updWork w.req fun x => { x with ended := some 2 }).finishWork w.req else t) s
  drainRecords m (s.eng.records.length) s

/-- A spare engine's domain is powered (R23), its own or in a slot that it has taken. -/
def engPowerUp (s : State) (e : Nat) : State :=
  if s.released && s.engState e == 0 then ((s.setEngState e 1).syncEng e).adoptWorks else s

/-- Writes of ENG_CTL.EN: clearing it moves the engine's work (R250). -/
def engEnable (s : State) (e : Nat) : State :=
  if s.on (R.ENG_ENG_CTL e) F.ENG_ENG_CTL_EN then s.adoptWorks else s.plannedMove e

end State
end Sys2Proof.Machine
end

