-- ==== Sys2Proof/Machine/Signals.lean ====
section
/-! DEFINITION. What the fault collector and the Gondola send outward: MSI-X messages (R407, R416), the classes of the
level sources (R282 and the later chapters) and the entries of the persistent event log (R420). -/

namespace Sys2Proof.Machine

/-- Reset value of a dword of the MSI-X table: every vector masked. -/
def msixDefault (n : Nat) : Word := if n % 4 = 3 then 1 else 0

/-- Default classes of the level sources of a page, by bit (R282; each later chapter gives its own). ID_CRC of the CDIE and DDIE
pages, which R377 raises and their tables do not list, takes bit 2 and FUSE's class (DESIGN CHOICE, assumption 136). -/
def levelClasses (first : Nat) : List (Nat × Nat) :=
  let seq := fun (l : List Nat) => l.zipIdx.map fun x => (x.2, x.1)
  if first = 0x016 then seq [1, 0]
  else if first = 0x00E then seq [4, 2, 4, 0, 1, 1, 0]
  else if first = 0x00F then seq [0, 1, 0, 1]
  else if first = 0x00C then seq [4, 3, 1, 2, 1, 2]
  else if first = 0x00D then seq [2, 2, 0, 0]
  else if first = 0x1D0 then seq [1, 4, 1]
  else if first = 0x100 then seq [0, 1]
  else if first = 0x140 then seq [4, 1, 2, 2]
  else if first = 0x1C0 then seq [2, 4, 1]
  else if first = 0x017 then seq [0, 1, 1]
  else if first = 0x180 then seq [1, 2]
  else if first = 0x040 then seq [1, 0, 2, 4]
  else if first = 0x00B then seq [2, 1, 0, 1, 2]
  else if first = 0x012 then seq [1, 1, 1, 1]
  else if first = 0x000 then seq [0]
  else if first = 0x001 then seq [4]
  else if first = 0x010 then seq [1, 0]
  else if first = 0x011 then seq [4, 1, 0]
  else if first = 0x014 then seq [0, 0]
  else if first = 0x003 then seq [4, 4, 5, 2, 4, 4]
  else if first = 0x005 then seq [1, 4, 1, 1, 1, 5]
  else if first = 0x004 then seq [0, 0, 4, 4]
  else if first = 0x013 then seq [1, 1, 1]
  else if first = 0x006 then seq [4, 1, 1, 1, 0, 1]
  else if first = 0x015 then seq [1, 1, 4]
  else if first = 0x008 then seq [4, 1, 0, 1, 1, 4]
  else if first = 0x009 then seq [1, 0]
  else if first = 0x00A then seq [0, 0]
  else if first = 0x002 then [(28, 0), (29, 1), (30, 1)]
  else []

/-- Default classes of the counted kinds (R274). -/
def kindClasses : List Nat := [0, 1, 0, 1, 1, 1, 3, 0, 1, 1, 0, 0, 1, 1, 3, 3, 1, 0, 1, 1, 1, 0, 1, 4, 1]

/-- The default entry of the reaction map for a class: REACT_VAL with the reactions of R278 and VECTOR equal to the
class. -/
def classEntry (c : Nat) : Word :=
  let r := if c = 0 then 0 else if c ≤ 3 then 8 else if c = 4 then 24 else 144
  BitVec.ofNat 32 (c + r + c * 2 ^ 8)

/-- Reset value of the reaction-map entry with key 32 × first page index + bit. -/
def reactDefault (k : Nat) : Word :=
  let bit := k % 32
  if k / 32 = 2 ∧ bit ≤ 24 then classEntry (kindClasses.getD bit 0)
  else classEntry (((levelClasses (k / 32)).find? fun e => e.1 == bit).map Prod.snd |>.getD 0)

namespace State

/-! ### MSI-X -/

def msixWord (s : State) (n : Nat) : Word := SMap.get msixDefault s.mgmt.msix n

/-- A message on the vector can be sent now (R416). -/
def msixOpen (s : State) (v : Nat) : Bool :=
  s.mgmt.msixEn && !s.mgmt.funcMask && !(s.msixWord (4 * v + 3)).getLsbD 0 && s.mgmt.busMaster
    && s.on R.PCIEM_PCIE_STAT F.PCIEM_PCIE_STAT_DL_UP

/-- Request a message on a vector: sent, or pending (R416). -/
def msixRequest (s : State) (v : Nat) : State :=
  let v := v % 64
  if s.msixOpen v then s.inc R.PCIEM_MSIX_SENT
  else if s.mgmt.pend.contains v then s
  else { s with mgmt := { s.mgmt with pend := s.mgmt.pend ++ [v] } }

/-- MSIX_PENDING_SEND: the condition has ended, the merged message leaves. -/
def msixSend (s : State) (v : Nat) : State :=
  if s.mgmt.pend.contains v && s.msixOpen v then
    { s with mgmt := { s.mgmt with pend := s.mgmt.pend.erase v } }.inc R.PCIEM_MSIX_SENT
  else s

/-! ### The event log -/

/-- Hand an entry to the Gondola for the event log (R420). -/
def logItem (s : State) (i : LogItem) : State := { s with mgmt := { s.mgmt with logQ := s.mgmt.logQ ++ [i] } }

/-- Log an entry of a kind with the current timestamp and no record. -/
def logNote (s : State) (kind : Nat) (extra : List (Nat × Nat)) : State :=
  s.logItem { kind := kind, ev := BitVec.ofNat 512 s.ts.toNat, extra := extra }

end State
end Sys2Proof.Machine
end

