-- ==== Sys2Proof/Machine/Fcol.lean ====
section
/-! DEFINITION. The fault collector: records and their reactions, merging and recovery, leaky buckets, confirming
retests, declarations and ALERT_N (R273 to R294). What a declared resource leads to is the sparing ladder's. -/

namespace Sys2Proof.Machine

/-! ### Reset parameters of the buckets (R274, R288) -/

/-- CAP by bucket type. -/
def capDefault (t : Nat) : Word :=
  BitVec.ofNat 32 (([200000, 10000, 8, 64, 3, 4096, 2, 64, 256] : List Nat).getD t 0)

/-- LEAK and LEAK_EXP by bucket type, as BKT_CFG2. -/
def leakDefault (t : Nat) : Word :=
  let l := ([(20, 0), (1, 0), (1, 22), (1, 22), (0, 0), (256, 22), (1, 24), (16, 22), (16, 22)] : List (Nat × Nat)).getD t (0, 0)
  BitVec.ofNat 32 (l.1 + l.2 * 2 ^ 16)

/-- WEIGHT by counted kind. -/
def weightDefault (k : Nat) : Word :=
  BitVec.ofNat 32 (([1, 10000, 0, 0, 0, 0, 0, 1, 4, 8, 1, 1, 64, 64, 0, 0, 64, 1, 16, 16, 1, 1, 64, 0, 0] : List Nat).getD k 0)

/-- Bucket types: lane, via, row, bank, die, cache bank, controller, engine, macro (R288). -/
def bucketOfRes (r : Word) : Option Nat :=
  match resType r with
  | 1 => if r.getLsbD 8 then none else some 0
  | 2 => some 1 | 3 => some 2 | 4 => some 3 | 5 => some 4 | 8 => some 5 | 6 => some 6 | 7 => some 7 | 10 => some 8
  | _ => none

/-- The bank of a row, and the die of a bank (R133, R275). -/
def bankOfRow (r : Word) : Word := BitVec.ofNat 32 (4 * 2 ^ 28 + r.toNat % 2 ^ 28 / 2 ^ 15 * 2 ^ 15)
def dieOfBank (r : Word) : Word :=
  resDie (4 * (r.toNat / 2 ^ 19 % 4) + r.toNat / 2 ^ 22 % 4)

/-- The macro that holds a bank's tracker entries (R276). -/
def trackerMacro (r : Word) : Word :=
  let i := 128 * (r.toNat / 2 ^ 22 % 32) + 64 * (r.toNat / 2 ^ 21 % 2) + 16 * (r.toNat / 2 ^ 19 % 4) + r.toNat / 2 ^ 15 % 16
  resMacro (584 + i / 256)

/-- The resource whose bucket an occurrence of a kind feeds, if any (R274). -/
def feeds (kind : Nat) (r : Word) : Option Word :=
  if kind = 16 then some (trackerMacro r)
  else if kind = 0 ∨ kind = 1 ∨ (7 ≤ kind ∧ kind ≤ 13) ∨ (17 ≤ kind ∧ kind ≤ 22) then some r
  else none

/-- Kinds whose occurrences start a confirming retest (R290). -/
def retestKind (kind : Nat) : Bool := kind == 8 || kind == 18 || kind == 19 || kind == 20

/-- Pages whose entries may carry BLOCK_RESET (R280). -/
def blockResetPages : List Nat := [0x010, 0x011, 0x00A, 0x200, 0x008, 0x009, 0x016, 0x012]

/-- The first page index of a page's row. -/
def firstOf (pg : Nat) : Nat := match pageRow pg with | none => pg | some r => r.first

/-- Bytes 24 to 63 of a record's events (R283), byte 24 lowest. -/
def recDetail (i : Nat) (r : Rec) : BitVec 320 :=
  let valid := fun (o : Option Nat) => match o with | none => 0 | some m => m % 128 + 128
  BitVec.ofNat 320 (r.addr.toNat + r.access % 256 * 2 ^ 64 + valid r.mid * 2 ^ 72 + valid r.tc * 2 ^ 80
    + r.cls % 8 * 2 ^ 88 + r.resource.toNat * 2 ^ 96 + r.bucket.toNat * 2 ^ 128 + r.value.toNat * 2 ^ 160
    + r.lastTs.toNat * 2 ^ 192 + i % 64 * 2 ^ 256)

/-- A record's event of a kind: 0 raised, 1 recovered, 2 merged. -/
def recEvent (i : Nat) (r : Rec) (nma : Bool) (kind : Nat) (ts : Word64) : Event :=
  { nma := nma, kind := kind, ts := ts, page := r.page, source := r.source, merges := r.merges, detail := recDetail i r }

namespace State

/-! ### Reaction map (R280) -/

/-- The stored entry of a page's source bit. -/
def reactRaw (s : State) (pg bit : Nat) : Word := SMap.get reactDefault s.fcol.react (32 * firstOf pg + bit)

/-- The entry as it reads and acts: NMA of a FATAL entry is 1, BLOCK_RESET only where it is allowed. -/
def reactEntry (s : State) (pg bit : Nat) : Word :=
  let w := s.reactRaw pg bit
  let w := if F.FCOL_REACT_VAL_CLASS.get w = 5 then F.FCOL_REACT_VAL_NMA.set 1 w else w
  if blockResetPages.contains (firstOf pg) then w else F.FCOL_REACT_VAL_BLOCK_RESET.set 0 w

/-- The entry opens no record: class INFO without reactions. -/
def silentEntry (w : Word) : Bool :=
  decide (F.FCOL_REACT_VAL_CLASS.get w = 0 ∧ w.toNat / 8 % 32 = 0)

/-- The page instance masks INT of the source. -/
def masked (s : State) (pg bit : Nat) : Bool := (s.rd (0x1000 * pg + 0x18)).getLsbD bit

/-- Interrupt events of a record are sent: NMA is set in its entry, or INT is set and not masked (R280, R284). -/
def eventsOn (s : State) (r : Rec) : Bool := r.entry.getLsbD 4 || (r.entry.getLsbD 3 && !s.masked r.page r.source)

/-! ### Records (R283 to R286) -/

def record (s : State) (i : Nat) : Rec := SMap.get (fun _ => ({} : Rec)) s.fcol.recs i
def setRec (s : State) (i : Nat) (r : Rec) : State :=
  { s with fcol := { s.fcol with recs := SMap.set (fun _ => ({} : Rec)) i r s.fcol.recs } }

/-- FC_STAT, ALERT_PEND and the pin follow the records. -/
def syncFc (s : State) : State :=
  let op := (s.fcol.recs.filter fun e => e.2.isOpen).length
  let s := s.put R.FCOL_FC_STAT F.FCOL_FC_STAT_OPEN op
  let s := s.flag R.FCOL_FC_STAT F.FCOL_FC_STAT_OVERFLOW (s.record 63).isOpen
  let s := s.flag R.FCOL_FC_STAT F.FCOL_FC_STAT_ALERT s.fcol.alertN
  let al := fun (lo : Nat) => s.fcol.recs.foldl (fun n e => if e.2.alert ∧ e.1 / 32 = lo then n + 2 ^ (e.1 % 32) else n) 0
  (s.wr R.FCOL_ALERT_PEND0 (BitVec.ofNat 32 (al 0))).wr R.FCOL_ALERT_PEND1 (BitVec.ofNat 32 (al 1))

/-- No ALERT bit is left, and 10 µs have passed since the assertion (R294). -/
def alertOver (s : State) : Bool :=
  !(s.fcol.recs.any (fun e => e.2.alert) || s.on R.FCOL_FC_STAT F.FCOL_FC_STAT_PRE_RESET_ALERT)
    && decide (s.fcol.alertAt + 10000 ≤ s.clk.up)

/-- ALERT_N is released once no ALERT bit is left, no earlier than 10 µs after its assertion (R294). -/
def releaseAlert (s : State) : State :=
  if s.alertOver then { s with fcol := { s.fcol with alertN := false } }.syncFc else s.syncFc

/-- A release that had to wait. -/
def alertTick (s : State) : State := if s.fcol.alertN && s.alertOver then s.releaseAlert else s

/-- The open record of a source, never record 63. -/
def openRec (s : State) (pg bit : Nat) (r : Word) : Option (Nat × Rec) :=
  s.fcol.recs.find? fun e => e.1 < 63 && e.2.isOpen && e.2.page == pg && e.2.source == bit && e.2.resource == r

/-- Assert ALERT_N and set a record's ALERT bit (R292, R294). -/
def alert (s : State) (i : Nat) : State :=
  let s := s.setRec i { s.record i with alert := true }
  { s with fcol := { s.fcol with alertN := true, alertAt := if s.fcol.alertN then s.fcol.alertAt else s.clk.up } }

/-- A record's event goes to the event log (R420); NMA records at once. -/
def logRec (s : State) (e : Event) : State := s.logItem { kind := 0, ev := s.eventData e, urgent := e.nma }

/-- Perform the reactions of an entry for a raise in record `i` (R279). `shown` is the capture its events carry. -/
def react (s : State) (i : Nat) (shown : Rec) : State :=
  let w := s.reactEntry shown.page shown.source
  let nma := w.getLsbD 4
  let int := w.getLsbD 3 && !s.masked shown.page shown.source
  let e := recEvent i shown nma 0 shown.ts
  let s := s.logRec e
  let s := if nma || int then (s.queueEvent e).msixRequest (F.FCOL_REACT_VAL_VECTOR.get w) else s
  let s := if nma then s.inc R.FCOL_NMAS else s
  let s := if nma || w.getLsbD 7 then s.alert i else s
  let s := if w.getLsbD 5 then { s with fcol := { s.fcol with resets := s.fcol.resets ++ [shown.page] } } else s
  if w.getLsbD 6 then { s with fcol := { s.fcol with chipReset := true } } else s

/-- Merge an error of time `ts` into an open record (R284). -/
def mergeRec (s : State) (i : Nat) (events : Bool) (ts : Word64) : State :=
  let r := s.record i
  let r := { r with merges := r.merges + 1, lastTs := ts }
  let s := (s.setRec i r).inc R.FCOL_MERGES
  let pow := r.merges.toNat ≠ 0 && decide (2 ^ Nat.log2 r.merges.toNat = r.merges.toNat)
  let e := recEvent i r (r.entry.getLsbD 4) 2 ts
  let s := s.logRec { e with nma := false }
  if events && pow && s.on R.FCOL_FC_CTL F.FCOL_FC_CTL_MERGE_EVT && s.eventsOn r then
    (s.queueEvent e).msixRequest (F.FCOL_REACT_VAL_VECTOR.get r.entry)
  else s

/-- The lowest-numbered record of 0 to 62 that is not open. -/
def freeRec (s : State) : Option Nat := (List.range 63).find? fun i => !(s.record i).isOpen

/-- A raise: a record opens with the capture and its time, or record 63 takes it (R283, R286). A class 7 entry too opens one. -/
def raise (s : State) (c : Rec) : State :=
  let w := s.reactEntry c.page c.source
  if silentEntry w then s
  else
    let c := { c with isOpen := true, valid := true, cls := F.FCOL_REACT_VAL_CLASS.get w, lastTs := c.ts, entry := w }
    match s.freeRec with
    | some i => (((s.setRec i c).inc R.FCOL_RAISES).react i c).releaseAlert
    | none =>
      let s := s.inc R.FCOL_OVERFLOWS
      let s := if (s.record 63).isOpen then s.mergeRec 63 false c.ts else (s.setRec 63 c).inc R.FCOL_RAISES
      (s.react 63 c).releaseAlert

/-- Close a record after its quiet period (R285, R286). -/
def closeRec (s : State) (i : Nat) : State :=
  let r := s.record i
  let s := (s.setRec i { r with isOpen := false }).inc R.FCOL_RECOVERIES
  let e := recEvent i r (r.entry.getLsbD 4) 1 s.ts
  let s := s.logRec { e with nma := false }
  (if s.eventsOn r then (s.queueEvent e).msixRequest (F.FCOL_REACT_VAL_VECTOR.get r.entry) else s).syncFc

/-! ### Declarations (R287, R291) -/

def declared (s : State) (r : Word) : Bool := s.fcol.declared.contains r
def setLevelOf (s : State) (r : Word) (n : Nat) : State :=
  { s with fcol := { s.fcol with levels := SMap.set (fun _ => 0) r.toNat n s.fcol.levels } }
def cap_ (s : State) (t : Nat) : Nat := (SMap.get capDefault s.fcol.caps t).toNat % 2 ^ 24
/-- The level of a resource's bucket; after the declaration it holds at CAP + 1, at most the top (R287). -/
def level (s : State) (r : Word) : Nat :=
  match s.declared r, bucketOfRes r with
  | true, some t => min (2 ^ 24 - 1) (s.cap_ t + 1)
  | _, _ => SMap.get (fun _ => 0) s.fcol.levels r.toNat
def leakOf (s : State) (t : Nat) : Nat := (SMap.get leakDefault s.fcol.leaks t).toNat % 2 ^ 16
def weightOf (s : State) (k : Nat) : Nat := (SMap.get weightDefault s.fcol.weights k).toNat % 2 ^ 24

/-- The PG_STAT register of the unit of an engine or controller resource. -/
def unitStat (r : Word) : Nat := 0x1000 * ((if resType r = 7 then 0x180 else 0x100) + r.toNat % 64) + 0x10

/-- The BIST of a retest ends: the sequencer is free, and the unit is under test no more; an engine stays fenced as failed
until what follows (R290). -/
def bistFree (s : State) (r : Word) : State :=
  let s := ({ s with bist := { s.bist with slice := s.bist.slice.filter fun x => !x.retest } }.flag R.BIST_BIST_STAT
    F.BIST_BIST_STAT_BUSY false).flag (unitStat r) ⟨5, 1⟩ false
  let a := R.ENG_ENG_STAT (r.toNat % 64)
  if resType r = 7 ∧ s.fld a F.ENG_ENG_STAT_STATE = 6 then s.put a F.ENG_ENG_STAT_STATE 4 else s

/-- A running retest of a resource is cancelled; its SCRUB_CMD or its BIST ends (R290). -/
def dropRetest (s : State) (r : Word) : State :=
  let s := if s.fcol.runScrub.any (fun x => x.resource == r) then
      { s with ch := { s.ch with scrubRun := none } }.flag R.SCRUB_SCRUB_STAT F.SCRUB_SCRUB_STAT_CMD_BUSY false
    else s
  let s := if s.fcol.runBist.any (fun x => x.resource == r) then s.bistFree r else s
  { s with fcol := { s.fcol with
      runScrub := s.fcol.runScrub.filter fun x => x.resource ≠ r
      runBist := s.fcol.runBist.filter fun x => x.resource ≠ r } }

/-- Declare a resource permanent, once (R291): its waiting or running retest is cancelled (R290). -/
def declare (s : State) (r : Word) : State :=
  if s.declared r then s
  else
    let s := { s with fcol := { s.fcol with
        declared := s.fcol.declared ++ [r], handed := s.fcol.handed ++ [r]
        retestQ := s.fcol.retestQ.filter fun x => x.resource ≠ r } }
    let s := s.dropRetest r
    (s.report 24 r).inc R.FCOL_DECLARATIONS

/-- A resource is again as good as new: retired lanes after training, repaired rows (R291, R301). Its bucket is empty, which
frees the entry of a row (R289). -/
def undeclare (s : State) (r : Word) : State :=
  let s := { s with fcol := { s.fcol with
      declared := s.fcol.declared.filter (· ≠ r), rows := s.fcol.rows.filter (· ≠ r) } }
  s.setLevelOf r 0

/-- Add to a bucket; on overflow its resource is declared (R287). -/
def fill (s : State) (r : Word) (n : Nat) : State :=
  match bucketOfRes r with
  | none => s
  | some t =>
    if s.declared r ∨ n = 0 then s
    else
      let l := min (2 ^ 24 - 1) (s.level r + n)
      let s := s.setLevelOf r l
      if s.cap_ t < l then s.declare r else s

/-- Buckets of a type that stand above a CAP that has changed overflow (R287). -/
def overflows (s : State) (t : Nat) : State :=
  s.fcol.levels.foldl (fun u e =>
    let r := BitVec.ofNat 32 e.1
    if bucketOfRes r = some t ∧ u.cap_ t < u.level r ∧ !u.declared r then u.declare r else u) s

/-- Take an entry of the ROW table for a row; a new entry adds 1 to its bank (R289). -/
def rowEntry (s : State) (r : Word) : State :=
  if s.fcol.rows.contains r then s
  else
    let s := if s.fcol.rows.length < 1024 then s
      else match s.fcol.rows with
        | [] => s
        | a :: l =>
          let low := l.foldl (fun b x => if s.level x < s.level b then x else b) a
          let s := (if s.declared low then s else s.setLevelOf low 0).inc R.FCOL_ROW_EVICTS
          { s with fcol := { s.fcol with rows := s.fcol.rows.erase low } }
    let s := { s with fcol := { s.fcol with rows := s.fcol.rows ++ [r] } }
    s.fill (bankOfRow r) 1

/-- Feed the bucket of a delivery (R287, R289). -/
def feed (s : State) (kind : Nat) (r : Word) (occ : Nat) : State :=
  match feeds kind r with
  | none => s
  | some b =>
    let n := occ * s.weightOf kind
    if n = 0 ∨ s.declared b then s
    else (if resType b = 3 then s.rowEntry b else s).fill b n

/-- BUCKET_LEAK: every bucket of the type falls by LEAK; a ROW entry at 0 is freed; one still above CAP overflows (R287, R289). -/
def leak (s : State) (t : Nat) : State :=
  let n := s.leakOf t
  let hit := fun (k : Nat) => bucketOfRes (BitVec.ofNat 32 k) == some t && !s.declared (BitVec.ofNat 32 k)
  let m := (s.fcol.levels.map fun e => if hit e.1 then (e.1, e.2 - n) else e).filter fun e => e.2 ≠ 0
  let s := { s with fcol := { s.fcol with levels := m } }
  let s : State := if t = 2 then { s with fcol := { s.fcol with rows := s.fcol.rows.filter fun r => decide (s.level r ≠ 0) } } else s
  s.overflows t

/-! ### Retests (R290) -/

/-- A resource's retest waits or runs. -/
def retesting (s : State) (r : Word) : Bool :=
  (s.fcol.retestQ.any fun x => x.resource == r) || s.fcol.runScrub.any (fun x => x.resource == r)
    || s.fcol.runBist.any (fun x => x.resource == r)

/-- FC_STAT RETEST_Q and RETEST_BUSY. -/
def syncRetest (s : State) : State :=
  (s.put R.FCOL_FC_STAT F.FCOL_FC_STAT_RETEST_Q s.fcol.retestQ.length).flag R.FCOL_FC_STAT F.FCOL_FC_STAT_RETEST_BUSY
    (s.fcol.runScrub.isSome || s.fcol.runBist.isSome)

/-- An occurrence that starts a retest: queued, or its resource declared when the queue is full. -/
def askRetest (s : State) (kind : Nat) (r : Word) : State :=
  if !retestKind kind || s.declared r || s.retesting r then s
  else if 16 ≤ s.fcol.retestQ.length then (s.declare r).inc R.FCOL_RETEST_SKIPPED
  else { s with fcol := { s.fcol with retestQ := s.fcol.retestQ ++ [⟨kind, r⟩] } }

/-! ### Arrival of a delivery (R277) -/

/-- The record of a delivery. -/
def captureOf (s : State) (d : Delivery) : Rec :=
  { page := 2, source := d.kind, ts := d.ts, addr := d.addr, access := d.access, mid := d.mid, tc := d.tc, resource := d.resource,
    bucket := match feeds d.kind d.resource with | none => 0 | some b => BitVec.ofNat 32 (s.level b),
    value := BitVec.ofNat 32 (d.count % 2 ^ 16 + d.outcome % 16 * 2 ^ 16) }

/-- Merge into the source's open record, or raise (R283, R284). -/
def arrive (s : State) (c : Rec) : State :=
  match s.openRec c.page c.source c.resource with
  | some (i, _) => (s.mergeRec i true c.ts).syncFc
  | none => s.raise c

/-- The bucket, the record and the retest of one delivery. -/
def takeDelivery (s : State) (d : Delivery) : State :=
  let s := s.feed d.kind d.resource d.weighted
  ((s.arrive (s.captureOf d)).askRetest d.kind d.resource).syncRetest

/-- Occurrences that a block has found in itself at a time (R274). -/
def foundDelivery (ts : Word64) : Found → Delivery
  | .ctrlFault k => ⟨20, resCtrl k.val, 1, 1, 0, 0, none, none, 0, ts⟩
  | .sramCorr m n => ⟨21, resMacro m.val, n.toNat, n.toNat, 0, 0, none, none, 0, ts⟩
  | .sramUncorr m n => ⟨22, resMacro m.val, n.toNat, n.toNat, 0, 0, none, none, 0, ts⟩

/-- A delivery goes before another of the same clock: ascending kind and resource (R277). -/
def Delivery.before (a b : Delivery) : Bool :=
  decide (a.kind < b.kind) || (decide (a.kind = b.kind) && decide (a.resource.toNat < b.resource.toNat))

/-- The waiting delivery that is taken next: of those of the oldest one's clock, the first in order (R277). -/
def nextDelivery (s : State) : Option Delivery :=
  match s.fcol.deliv with
  | [] => none
  | d :: l => some ((l.filter fun x => x.ts == d.ts).foldl (fun a x => if Delivery.before x a then x else a) d)

/-- COUNTED_DELIVERY: what a block found in itself arrives, else the next waiting delivery. -/
def countedDelivery (s : State) (found : Option Found) : State :=
  match found, s.nextDelivery with
  | some f, _ => s.takeDelivery (foundDelivery s.ts f)
  | none, none => s
  | none, some d => { s with fcol := { s.fcol with deliv := s.fcol.deliv.erase d } }.takeDelivery d

/-! ### Level changes (R283, R285) -/

def levelSeen (s : State) (pg bit : Nat) : Bool := SMap.get (fun _ => false) s.fcol.seen (32 * pg + bit)
def setSeen (s : State) (pg bit : Nat) (b : Bool) : State :=
  { s with fcol := { s.fcol with seen := SMap.set (fun _ => false) (32 * pg + bit) b s.fcol.seen } }

/-- The details that a level source has of its own, for the bytes of RESOURCE and BUCKET (R283): the short classes and the
shortfall (R270), and the deficit or the count of withdrawn parcels (R157, R158; which bytes, assumption 110). -/
def levelDetail (s : State) (pg bit : Nat) : Word × Word :=
  if pg = 0x00B ∧ bit = 0 then
    let map := ([0, 1, 2, 3, 4, 5, 6, 7] : List Nat).foldl (fun n t =>
      if s.on (R.BRIDLE_TC_HONOUR t) F.BRIDLE_TC_HONOUR_SHORT then n + 2 ^ t else n) 0
    let sum := ([0, 1, 2, 3, 4, 5, 6, 7] : List Nat).foldl (fun n t =>
      n + s.fld (R.BRIDLE_TC_HONOUR t) F.BRIDLE_TC_HONOUR_SHORT) 0
    (BitVec.ofNat 32 map, BitVec.ofNat 32 sum)
  else if pg = 0x00C ∧ bit = 0 then (BitVec.ofNat 32 (s.fld R.PLACE_DEFICIT F.PLACE_DEFICIT_COUNT), 0)
  else if pg = 0x00C ∧ bit = 1 then
    (BitVec.ofNat 32 (s.fld R.PLACE_PARCELS_WITHDRAWN F.PLACE_PARCELS_WITHDRAWN_COUNT), 0)
  else (0, 0)

/-- A die whose DIE_ABSENT source raises is declared permanent at once (R289). -/
def declareAbsent (s : State) (pg bit : Nat) : State :=
  if firstOf pg = 0x1C0 ∧ bit = 1 then s.declare (resDie (pg - 0x1C0)) else s

/-- A level source goes to `b`; `evt` is the page's PG_EVT_STAT word (R283). -/
def levelTo (s : State) (pg bit : Nat) (b : Bool) (evt : Word) : State :=
  if b = s.levelSeen pg bit then s
  else
    let s := s.setSeen pg bit b
    if !b then s
    else
      let s := s.declareAbsent pg bit
      match s.fcol.recs.find? fun e => e.1 < 63 && e.2.isOpen && e.2.page == pg && e.2.source == bit with
      | some (i, _) => (s.mergeRec i true s.ts).syncFc
      | none => s.raise {
          page := pg, source := bit, ts := s.ts, value := evt
          resource := (s.levelDetail pg bit).1, bucket := (s.levelDetail pg bit).2 }

/-- RECORD_RECOVER: the source has been quiet; `active` says whether its level bit is set (R285). -/
def recordRecover (s : State) (i : Nat) (active : Bool) : State :=
  if (s.record i).isOpen && !(active && i < 63) then s.closeRec i else s

/-! ### Software (R292 to R295) -/

/-- ALERT_CLR with START. -/
def alertClear (s : State) (v : Word) : State :=
  if F.FCOL_ALERT_CLR_START.get v ≠ 1 then s
  else if F.FCOL_ALERT_CLR_ALL.get v = 1 then
    (s.fcol.recs.foldl (fun t e => t.setRec e.1 { e.2 with alert := false }) s).flag R.FCOL_FC_STAT
      F.FCOL_FC_STAT_PRE_RESET_ALERT false |>.releaseAlert
  else
    let i := F.FCOL_ALERT_CLR_RECORD.get v
    (s.setRec i { s.record i with alert := false }).releaseAlert

/-- RES_QUERY: RES_LEVEL shows the bucket, the retest and the declaration (R295). -/
def resQuery (s : State) (v : Word) : State :=
  s.wr R.FCOL_RES_LEVEL (BitVec.ofNat 32 (s.level v % 2 ^ 24 + (s.retesting v).toNat * 2 ^ 29
    + (s.declared v).toNat * 2 ^ 30 + 2 ^ 31))

/-- The kinds that hold an open record: bits 0 to 24 of FCOL.PG_EVT_STAT (R273). -/
def kindBits (s : State) : Nat :=
  (List.range 25).foldl (fun n k =>
    if s.fcol.recs.any fun e => e.2.isOpen && e.2.page == 2 && e.2.source == k then n + 2 ^ k else n) 0

end State
end Sys2Proof.Machine
end

