-- ==== Sys2Proof/Machine/Phy.lean ====
section
/-! DEFINITION. The TSV PHYs and controller swaps: periodic training and its verify, remaps, row repairs, and the
refresh step of the dies (R202 to R207, R209, R212, R468). -/

namespace Sys2Proof.Machine

/-- The frame that holds a row of a pseudo-channel's bank (R133, R134). -/
def frameOfRow (c p sid bank row : Nat) : Nat := c + 32 * p + 64 * sid + 256 * bank + 4096 * (row / 64)

namespace State

/-! ### Controller swaps (R202) -/

/-- A controller that can take a channel: not active, not retired, not under test and not swapping. -/
def ctrlSpare (s : State) (k : Nat) : Bool :=
  !s.on (R.CHC_CHAN_MAP k) F.CHC_CHAN_MAP_ACTIVE && s.on (0x1000 * (0x100 + k) + 0x0C) ⟨0, 1⟩
    && !s.on (0x1000 * (0x100 + k) + 0x10) ⟨4, 1⟩ && !s.on (0x1000 * (0x100 + k) + 0x10) ⟨5, 1⟩ && !(s.ch.swaps.any fun x => x.1 == k || x.2 == k)
    && !s.declared (resCtrl k)

/-- The controller of a quadrant that can stand in: slot 8's first, then a free one (R306, R395). -/
def quadSpare (s : State) (q : Nat) : Option Nat :=
  ([8, 0, 1, 2, 3, 4, 5, 6, 7] : List Nat).map (9 * q + ·) |>.find? s.ctrlSpare

/-- A swap starts: the crossbar holds the channel. -/
def swapStart (s : State) (old new : Nat) : State :=
  { s with ch := { s.ch with swaps := s.ch.swaps ++ [(old, new)] } }.swapFlags (old, new) true

/-- CONTROLLER_SWAP: the crossbar holds the channel and the old controller drains. -/
def swapBegin (s : State) (old new : Nat) : State :=
  if old / 9 = new / 9 ∧ s.on (R.CHC_CHAN_MAP old) F.CHC_CHAN_MAP_ACTIVE ∧ s.ctrlSpare new
      ∧ !(s.ch.swaps.any fun x => x.1 == old) then s.swapStart old new
  else s

/-- The registers that a swap copies. -/
def swapRegs (k : Nat) : List Nat :=
  [R.CHC_SCHED_CTL k, R.CHC_ECC_CTL k, R.CHC_TIMING0 k, R.CHC_TIMING1 k, R.CHC_TIMING2 k, R.CHC_TIMING3 k]

/-- Precharge every bank of a pseudo-channel. -/
def closeBanks (s : State) (pc : Nat) : State :=
  let p := s.pch pc
  s.setPch pc { p with banks := (p.banks.map fun e =>
    (e.1, if e.2.st = 1 ∨ e.2.st = 2 then { e.2 with st := 3, pre := p.now, streak := 0 } else e.2)) }

/-- The new controller takes the channel; requests that are still queued go on under it, in order. An old controller that is
not retired is the spare now. -/
def swapTake (s : State) (old new : Nat) : State :=
  let c := s.fld (R.CHC_CHAN_MAP old) F.CHC_CHAN_MAP_CHANNEL
  let s := (s.closeBanks (2 * c)).closeBanks (2 * c + 1)
  let s := ((swapRegs old).zip (swapRegs new)).foldl (fun t x => t.wr x.2 (t.rd x.1)) s
  let s := s.swapFlags (old, new) false
  let s := (s.flag (R.CHC_CHAN_MAP old) F.CHC_CHAN_MAP_ACTIVE false).flag (R.CHC_CHAN_MAP new) F.CHC_CHAN_MAP_ACTIVE true
  let s := s.put (R.CHC_CHAN_MAP new) F.CHC_CHAN_MAP_CHANNEL c
  (s.flag (0x1000 * (0x100 + old) + 0x10) ⟨3, 1⟩ (!s.on (0x1000 * (0x100 + old) + 0x10) ⟨4, 1⟩)).flag (0x1000 * (0x100 + new) + 0x10) ⟨3, 1⟩ false

/-- The old controller completes its queued requests; one that has failed leaves them to the new one (R202 step 2). -/
def swapDrain (s : State) (old : Nat) : State :=
  if s.declared (resCtrl old) then s
  else
    let c := s.fld (R.CHC_CHAN_MAP old) F.CHC_CHAN_MAP_CHANNEL
    (s.performAll (2 * c) fun _ => true).performAll (2 * c + 1) fun _ => true

/-- CONTROLLER_SWAP_DONE. -/
def swapDone (s : State) (old : Nat) : State :=
  match s.ch.swaps.find? fun x => x.1 == old with
  | none => s
  | some x => ({ s with ch := { s.ch with swaps := s.ch.swaps.erase x } }.swapDrain old).swapTake old x.2

/-! ### Training (R204, R205, R468) -/

/-- Bits of FAIL_MAP and FAIL_MAP2 for a physical via. -/
def setViaFail (s : State) (c p : Nat) (v : ViaId) (b : Bool) : State :=
  let n := v.via.toNat
  if v.ca then
    if n < 14 then s.setBit (R.CHP_FAIL_MAP2 c p) F.CHP_FAIL_MAP2_CA_FAILED n b
    else s.setBit (R.CHP_FAIL_MAP2 c p) F.CHP_FAIL_MAP2_CA_SPARE_FAILED (n - 14) b
  else if n < 32 then s.setBit (R.CHP_FAIL_MAP c p) F.CHP_FAIL_MAP_DQ_FAILED n b
  else if n < 36 then s.setBit (R.CHP_FAIL_MAP2 c p) F.CHP_FAIL_MAP2_DQ_FAILED_HI (n - 32) b
  else s.setBit (R.CHP_FAIL_MAP2 c p) F.CHP_FAIL_MAP2_DQ_SPARE_FAILED (n - 36) b

/-- The physical vias of a class: 40 DQ, 16 CA, spares last (R275). -/
def viasOf (ca : Bool) : List Nat := List.range (if ca then 16 else 40)

/-- A verify of every via: FAIL_MAP and the spares that count as free (R204, R206). -/
def verifyVias (s : State) (c p : Nat) (failed : List ViaId) : State :=
  let one := fun (ca : Bool) (t : State) => (viasOf ca).foldl (fun (u : State) n =>
    let v : ViaId := ⟨ca, BitVec.ofNat 6 n⟩
    u.setViaFail c p v (failed.contains v)) t
  ((one true (one false s)).countSpares (2 * c + p) false).countSpares (2 * c + p) true

/-- A physical via carries a logical one now. -/
def viaInService (s : State) (c p : Nat) (v : ViaId) : Bool :=
  (List.range (if v.ca then 14 else 36)).any fun t => s.physVia (2 * c + p) v.ca t == v.via.toNat

def resOfVia (c p : Nat) (v : ViaId) : Word := resVia c (decide (p = 1)) v.ca v.via.toNat

/-- PERIODIC_TRAINING_DUE: timed and by temperature, while PERIODIC_EN is set. -/
def trainDue (s : State) (c p : Nat) : State :=
  if s.on (R.CHP_PHY_CTL c) F.CHP_PHY_CTL_PERIODIC_EN then s.trainStart c p else s

/-- What a verify declares: vias in service that fail, and the channel when its CK pair or a CKE via fails (R468). -/
def declareVerify (s : State) (c p : Nat) (t : TsvIn) : State :=
  let s := (t.failed.filter fun v => v.via.toNat < (if v.ca then 16 else 40)).foldl (fun u v =>
    if s.viaInService c p v then u.declare (resOfVia c p v) else u) s
  if t.ckFailed then { s with fcol := { s.fcol with handed := s.fcol.handed ++ [resChan c] } } else s

/-- PERIODIC_TRAINING_DONE: the values wait for the bus gap, and the verify is handled. -/
def trainDone (s : State) (c p : Nat) (t : TsvIn) : State :=
  let q := s.pch (2 * c + p)
  if !q.training then s
  else
    let vals := t.cal.filterMap fun v => if v.1.toNat < 58 then some (v.1.toNat, v.2) else none
    let s := s.setPch (2 * c + p) { q with training := false, apply := some vals, trainedAt := s.clk.up + 1, trainedT := s.dieNodes (2 * c + p) }
    ((s.syncTraining c).verifyVias c p t.failed).declareVerify c p t

/-! ### Remaps (R206) -/

def remapOf (s : State) (c : Nat) : Option Remap := SMap.get (fun _ => none) s.ch.remap c
def setRemap (s : State) (c : Nat) (r : Option Remap) : State :=
  { s with ch := { s.ch with remap := SMap.set (fun _ => none) c r s.ch.remap } }

/-- Try the next free spare for a logical via; without one the remap fails. -/
def remapTry (s : State) (c p : Nat) (ca : Bool) (via : Nat) : State :=
  match (spareNums ca).find? (s.spareFree (2 * c + p) ca) with
  | some i => (s.setRemap c (some ⟨p, ca, via, i, false⟩)).flag (R.CHP_REMAP_STAT c) F.CHP_REMAP_STAT_BUSY true
  | none => ((s.setRemap c none).flag (R.CHP_REMAP_STAT c) F.CHP_REMAP_STAT_BUSY false).flag (R.CHP_REMAP_STAT c)
      F.CHP_REMAP_STAT_FAILED true

/-- Start a remap; one asked for while another runs waits in order. -/
def remapStart (s : State) (c p : Nat) (ca : Bool) (via : Nat) : State :=
  if (s.remapOf c).isSome then { s with ch := { s.ch with remapQ := s.ch.remapQ ++ [(c, p, ca, via)] } }
  else s.remapTry c p ca via

/-- A remap that waited starts when its channel is free. -/
def remapNext (s : State) (c : Nat) : State :=
  if (s.remapOf c).isSome then s
  else match s.ch.remapQ.find? fun x => x.1 == c with
    | none => s
    | some x => { s with ch := { s.ch with remapQ := s.ch.remapQ.erase x } }.remapTry c x.2.1 x.2.2.1 x.2.2.2

/-- REMAP_VERIFY_DONE: a good spare waits for the bus gap; a bad one counts no longer as free and the next is tried. -/
def remapVerified (s : State) (c p : Nat) (pass : Bool) : State :=
  match s.remapOf c with
  | none => s
  | some r =>
    if r.p ≠ p ∨ r.verified then s
    else
      let v : ViaId := ⟨r.ca, BitVec.ofNat 6 ((if r.ca then 14 else 36) + r.spare)⟩
      let s := s.setViaFail c p v (!pass)
      if pass then s.setRemap c (some { r with verified := true })
      else ((s.countSpares (2 * c + p) r.ca).setRemap c none).remapTry c p r.ca r.via

/-! ### Row repairs (R207) -/

def rowRep (s : State) (c : Nat) : Option RowRep := SMap.get (fun _ => none) s.ch.repair c
def rowsUsedOf (s : State) (pc bank : Nat) : Nat := SMap.get (fun _ => 0) s.ch.rowsUsed (64 * pc + bank)

/-- A frame that holds a parcel, a migration destination or a keel frame. -/
def occupied (s : State) (f : Nat) : Bool :=
  s.frameCode f == 2 || (s.frameCode f == 1 && !(s.place.zeroQ.contains f || s.place.zeroing.contains f))

/-- Start a row repair; the frame of the row is USED as a frame being zeroed until the repair and its zeroing end. -/
def rowRepairStart (s : State) (c p sid bank row : Nat) : State :=
  let f := frameOfRow c p sid bank row
  if (s.rowRep c).isSome then s
  else if s.occupied f || 4 ≤ s.rowsUsedOf (2 * c + p) (16 * sid + bank) then
    s.flag (R.CHP_ROW_REPAIR_STAT c) F.CHP_ROW_REPAIR_STAT_FAILED true
  else
    let s := if s.frameCode f = 0 then
        { s with place := { s.place with zeroing := s.place.zeroing ++ [f] } }.setFrame f 1
      else s
    let s := { s with ch := { s.ch with repair := SMap.set (fun _ => none) c (some ⟨p, sid, bank, row⟩) s.ch.repair } }
    (s.flag (R.CHP_ROW_REPAIR_STAT c) F.CHP_ROW_REPAIR_STAT_BUSY true).flag (R.CHP_ROW_REPAIR_STAT c)
      F.CHP_ROW_REPAIR_STAT_FAILED false

/-- A running repair holds the zeroing of its frame. -/
def repairHolds (s : State) (f : Nat) : Bool :=
  (s.rowRep (fChan f)).any fun r => decide (frameOfRow (fChan f) r.p r.sid r.bank r.row = f)

/-- ROW_REPAIR_DONE: a spare row is in use; a frame that was being zeroed is zeroed after the repair, and its row's
record follows. -/
def rowRepairDone (s : State) (c : Nat) : State :=
  match s.rowRep c with
  | none => s
  | some r =>
    let k := 64 * (2 * c + r.p) + 16 * r.sid + r.bank
    let n := SMap.get (fun _ => 0) s.ch.rowsUsed k + 1
    let s := { s with ch := { s.ch with
        repair := SMap.set (fun _ => none) c none s.ch.repair, rowsUsed := SMap.set (fun _ => 0) k n s.ch.rowsUsed } }
    let s := (s.flag (R.CHP_ROW_REPAIR_STAT c) F.CHP_ROW_REPAIR_STAT_BUSY false).put (R.CHP_ROW_REPAIR_STAT c)
      F.CHP_ROW_REPAIR_STAT_ROWS_LEFT (4 - n)
    let s := s.incSat (R.DDIE_ROWS_REPAIRED (4 * r.sid + c % 4)) F.DDIE_ROWS_REPAIRED_COUNT
    let w := resRow c r.p r.sid r.bank r.row
    (s.recordStep w 2 (n - 1)).undeclare w

/-! ### The refresh step (R212) -/

def hystC (s : State) : Nat := max 1 (s.fld R.RFM_REF_CTL F.RFM_REF_CTL_HYST_C)

/-- Least step that FORCE_STEP allows. -/
def forceStep (s : State) : Nat :=
  let f := s.fld R.RFM_REF_CTL F.RFM_REF_CTL_FORCE_STEP
  if f = 3 then 0 else f

/-- The step that a temperature asks for, with the boundaries lowered by `h`. -/
def stepFor (t : Rat) (h : Nat) : Nat :=
  if (95 : Rat) < t + (h : Nat) then 2 else if (85 : Rat) < t + (h : Nat) then 1 else 0

def dieStep (s : State) (d : Nat) : Nat := s.fld R.RFM_REF_STEP F.RFM_REF_STEP_DIE_STEP / 4 ^ d % 4
def setDieStep (s : State) (d n : Nat) : State := s.put R.RFM_REF_STEP ⟨2 * d, 2⟩ n

/-- A die steps up as soon as its temperature or FORCE_STEP asks for it. -/
def refreshUp (s : State) : State :=
  if !s.clk.dramInit then s
  else dies.foldl (fun (t : State) d =>
    let n := max t.forceStep (stepFor (t.dieReading d) 0)
    if t.dieStep d < n then t.setDieStep d n else t) s

/-- REFRESH_STEP_DOWN: HYST_C or more below the boundary (assumed for 10 ms), never below FORCE_STEP. -/
def refreshDown (s : State) (d : Nat) : State :=
  -- a boundary counts as left at exactly HYST_C below it
  let low : Nat := if s.dieReading d + (s.hystC : Nat) ≤ 85 then 0 else if s.dieReading d + (s.hystC : Nat) ≤ 95 then 1 else 2
  let n := max s.forceStep low
  if n < s.dieStep d then s.setDieStep d n else s

end State
end Sys2Proof.Machine
end

