-- ==== Sys2Proof/Machine/Scrub.lean ====
section
/-! DEFINITION. Patrol scrub of DRAM rows and cache sectors, SCRUB_CMD ranges, and the return of scrub reads (R220 to
R223, R225). -/

namespace Sys2Proof.Machine
namespace State

/-- Rows and sectors of one walker's whole round. -/
def walkEnd (k : Nat) : Nat := if k < 64 then 64 * 32768 else 65536

/-- The frame and first offset of a walker's row: ascending bank-major (R220). -/
def walkRow (pc i : Nat) : Nat × Nat :=
  let b := i / 32768
  let row := i % 32768
  (frameOfRow (pc / 2) (pc % 2) (b / 16) (b % 16) row, row % 64 * 16)

/-- The frame of a row resource. -/
def rowFrame (r : Word) : Nat :=
  let n := r.toNat
  frameOfRow (n / 2 ^ 22 % 32) (n / 2 ^ 21 % 2) (n / 2 ^ 19 % 4) (n / 2 ^ 15 % 16) (n % 2 ^ 15)

/-- A row is omitted: its bank, pseudo-channel, channel or die is retired, or its frame is (R220). -/
def rowOmitted (s : State) (f : Nat) : Bool :=
  s.bankGone (fPc f) (fBankIx f) || s.frameCode f == 3 || s.pchRetired (fPc f)

/-- The first row at or after `i` that is not omitted; a retired bank is skipped whole. -/
def nextRow (s : State) (pc : Nat) : Nat → Nat → Option Nat
  | 0, _ => none
  | n + 1, i =>
    if walkEnd 0 ≤ i then none
    else
      let f := (walkRow pc i).1
      if s.bankGone pc (i / 32768) then s.nextRow pc n ((i / 32768 + 1) * 32768)
      else if s.rowOmitted f then s.nextRow pc n (64 * (i / 64 + 1))
      else some i

/-- Queue the sixteen reads of a row, of the patrol or of the running SCRUB_CMD (R220, R222, R223). -/
def scrubRow (s : State) (pc f o : Nat) (cmd : Bool) : State :=
  let p := s.pch pc
  let l := (List.range 16).map fun i => ({ write := false, f := f, o := o + i, scrub := true, cmd := cmd } : DReq)
  s.setPch pc { p with scrub := p.scrub ++ l }

/-- The row of a running SCRUB_CMD that comes next, RETIRED frames and those that no command reaches skipped: its place, frame and first offset. -/
def cmdRow (s : State) (r : ScrubRun) : Nat → Option (Nat × Nat × Nat)
  | 0 => none
  | n + 1 =>
    let f := r.first + r.next / 64
    if r.count ≤ r.next / 64 ∨ frameTotal ≤ f then none
    else if s.rowOmitted f || s.spare.unreadable.contains (fPc f) then s.cmdRow { r with next := 64 * (r.next / 64 + 1) } n
    else some (r.next, f, r.next % 64 * 16)

/-- Walkers of a pass that still serve: pseudo-channels that are not retired and take commands, or active banks. -/
def liveWalkers (s : State) (cache : Bool) : List Nat :=
  if cache then ((List.range 16).filter s.bankActive).map (64 + ·) else (List.range 64).filter fun pc => !s.pchRetired pc && !s.spare.unreadable.contains pc

/-- PROGRESS of the DRAM pass, per mille. -/
def passProgress (s : State) : State :=
  let l := s.liveWalkers false
  let done := l.foldl (fun n pc =>
    n + (if s.ch.walked.contains pc then walkEnd 0 else SMap.get (fun _ => 0) s.ch.walk pc)) 0
  s.put R.SCRUB_SCRUB_STAT F.SCRUB_SCRUB_STAT_PROGRESS (if l.isEmpty then 0 else min 999 (done * 1000 / (l.length * walkEnd 0)))

/-- The pass ends when every walker that still serves has finished. -/
def passEnd (s : State) (cache : Bool) : State :=
  if !(s.liveWalkers cache).isEmpty && (s.liveWalkers cache).all s.ch.walked.contains then
    let s := { s with ch := { s.ch with walked := s.ch.walked.filter fun x => decide (64 ≤ x) != cache } }
    if cache then s.inc R.SCRUB_CACHE_PASSES
    else
      let secs := min (2 ^ 20 - 1) ((s.clk.up - s.ch.passAt) / 1000000000)
      let s := (s.inc R.SCRUB_PASSES).put R.SCRUB_LAST_PASS_S F.SCRUB_LAST_PASS_S_SECONDS secs
      { s with ch := { s.ch with passAt := s.clk.up } }
  else s

/-- A walker has finished. -/
def walkDone (s : State) (k : Nat) : State :=
  { s with ch := { s.ch with
      walked := k :: s.ch.walked, walk := SMap.set (fun _ => 0) k 0 s.ch.walk } }.passEnd (decide (64 ≤ k))

/-- The patrol of a pseudo-channel takes its next row. A pass whose last unfinished walker has retired ends first. -/
def patrolRow (s : State) (pc : Nat) : State :=
  let s := s.passEnd false
  if s.ch.walked.contains pc then s
  else match s.nextRow pc 33000 (SMap.get (fun _ => 0) s.ch.walk pc) with
    | none => s.walkDone pc
    | some i =>
      let s := s.scrubRow pc (walkRow pc i).1 (walkRow pc i).2 false
      { s with ch := { s.ch with walk := SMap.set (fun _ => 0) pc (i + 1) s.ch.walk } }

/-- A read of a way's line by the cache patrol: valid lines as R176, others in the
bank's counters alone (R221). -/
def scrubWayLine (s : State) (k : Nat) (e : Fin 4 × BitVec 576) : State :=
  if (tValid (s.tag k)).testBit e.1.val then
    let a := s.bankWord k e.1.val 7 (some e.2)
    match a.1 with
    | none => (a.2.2.bankUncorrectable k e.1.val 7 a.2.1).inc R.SCRUB_CACHE_INVALIDATED
    | some _ => if e.2 = 0 then a.2.2 else a.2.2.inc R.SCRUB_CACHE_CORRECTED
  else match decodeBank k e.1.val (s.cacheData k e.1.val) e.2 with
    | .clean _ => s
    | .corrected _ _ => (s.incSat (R.CDIE_BANK_CORR (keyBank k)) F.CDIE_BANK_CORR_COUNT).report 11 (resCbank (keyBank k)) 1 7
    | _ => (s.incSat (R.CDIE_BANK_UNCORR (keyBank k)) F.CDIE_BANK_UNCORR_COUNT).report 12 (resCbank (keyBank k)) 1 7

/-- The patrol of a cache bank reads its next sector. -/
def patrolSector (s : State) (b : Nat) (flips : List (Fin 4 × BitVec 576)) : State :=
  let s := s.passEnd true
  let i := SMap.get (fun _ => 0) s.ch.walk (64 + b)
  if s.ch.walked.contains (64 + b) then s
  else
    let k := wayKey (b / 4) (i / 4) (4 * (b % 4) + i % 4)
    let s := (flips.foldl (fun (t : State) e => t.scrubWayLine k e) s).inc64 R.SCRUB_WORDS_LO 4
    if i + 1 < walkEnd 64 then { s with ch := { s.ch with walk := SMap.set (fun _ => 0) (64 + b) (i + 1) s.ch.walk } }
    else s.walkDone (64 + b)

/-- SCRUB_ROW_DUE: a row of the running SCRUB_CMD when it lies in the pseudo-channel, else the patrol's next row or
sector. -/
def scrubDue (s : State) (u : ScrubUnit) (flips : List (Fin 4 × BitVec 576)) : State :=
  if !s.released then s
  else match u with
    | .sectors b =>
      if s.on R.SCRUB_SCRUB_CTL F.SCRUB_SCRUB_CTL_CACHE_EN && s.cacheOn && s.bankActive b.val then (s.patrolSector b.val flips).closeChecks
      else s
    | .rows c p =>
      let pc := 2 * c.val + p.toNat
      if !s.pchLive pc then s
      else match s.ch.scrubRun.bind fun r => s.cmdRow r 1100 with
        | some x =>
          if fPc x.2.1 = pc then
            let s := s.scrubRow pc x.2.1 x.2.2 true
            { s with ch := { s.ch with scrubRun := s.ch.scrubRun.map fun r => { r with next := x.1 + 1 } } }
          else if s.on R.SCRUB_SCRUB_CTL F.SCRUB_SCRUB_CTL_EN then (s.patrolRow pc).passProgress else s
        | none => if s.on R.SCRUB_SCRUB_CTL F.SCRUB_SCRUB_CTL_EN then (s.patrolRow pc).passProgress else s

/-- BEHIND: some pseudo-channel holds a scrub read that is late (R223). -/
def syncBehind (s : State) : State :=
  s.flag R.SCRUB_SCRUB_STAT F.SCRUB_SCRUB_STAT_BEHIND (s.ch.pch.any fun e => (e.2.scrub ++ e.2.rq).any DReq.late)

/-- SCRUB_LATE: the pseudo-channel's scrub reads become ordinary requests of the oldest age, each as soon as its read queue
has room (R194, R223). -/
def scrubLate (s : State) (c p : Nat) : State :=
  let late := fun (r : DReq) => { r with late := true }
  let q := s.pch (2 * c + p)
  (s.setPch (2 * c + p) { q with scrub := q.scrub.map late }.promote).syncBehind

/-- Start a SCRUB_CMD over frames; ignored while one runs (R222). -/
def scrubStart (s : State) (first count : Nat) (retest : Bool) : State :=
  if s.on R.SCRUB_SCRUB_STAT F.SCRUB_SCRUB_STAT_CMD_BUSY then s
  else { s with ch := { s.ch with scrubRun := some ⟨first, count, retest, 0⟩ } }.flag R.SCRUB_SCRUB_STAT
    F.SCRUB_SCRUB_STAT_CMD_BUSY true

/-- The running SCRUB_CMD ends. -/
def scrubEnd (s : State) : State :=
  { s with ch := { s.ch with scrubRun := none } }.flag R.SCRUB_SCRUB_STAT F.SCRUB_SCRUB_STAT_CMD_BUSY false

/-- The range of the running SCRUB_CMD is complete: no row of it is left to read and no read of it has no outcome (R222). -/
def scrubComplete (s : State) (r : ScrubRun) : Bool :=
  (s.cmdRow r 1100).isNone && s.ch.pch.all fun e => (e.2.scrub ++ e.2.rq ++ e.2.flight).all fun x => !x.cmd

/-- SCRUB_CMD_DONE: the range is complete; a retest's end is RETEST_DONE. -/
def scrubCmdDone (s : State) : State :=
  match s.ch.scrubRun with | none => s | some r => if r.retest || !s.scrubComplete r then s else s.scrubEnd

/-! ### Returned scrub reads (R221) -/

/-- A keel word is lost: it is rebuilt from the word of the other mirror, and without one its own mirror is no longer valid
(R162). -/
def keelLostWord (s : State) (m : LookupIn) (f o : Nat) : State :=
  match (List.range 8192).find? fun k => s.keelFrame k == f with
  | none => s
  | some k =>
    let b := decide (4096 ≤ k)
    if s.mirrorOk (!b) then
      let a := s.readWord m (s.keelFrame ((k + 4096) % 8192)) o 7
      if a.1.lost then a.2.setMirror b false else (a.2.storeFrame f o a.1.line).inc R.SCRUB_KEEL_REPAIRED
    else s.setMirror b false

/-- What a lost word of a frame without a parcel leads to: a migration's destination is poisoned as any USED frame, and the
migration aborts (R149); a FREE frame or one being zeroed is zeroed there. -/
def scrubLostFree (s : State) (m : LookupIn) (x : DReq) (out : ReadOut) : State :=
  if s.frameCode x.f = 2 then s.keelLostWord m x.f x.o
  else if s.superseded x then s
  else if s.place.mig.any fun e => e.2.any fun g => decide (g.dst = x.f) then
    ((s.settleRead x none out 7).2.inc R.SCRUB_UNCORRECTABLE).abortInto x.f
  else (s.poisonWrite x.f x.o Line.zeroed).inc R.SCRUB_FREE_REZEROED

/-- A frame's word is read by scrub with this outcome. -/
def scrubOutcome (s : State) (m : LookupIn) (x : DReq) (out : ReadOut) : State :=
  let s := s.countOutcome x.f x.o out { outcomeOf x.f x.o 7 0 (BitVec.ofNat 64 (1024 * x.f + x.o)) with mid := none }
  match s.parcelOf x.f with
  | none => if out.lost then s.scrubLostFree m x out
    else if out.bytes.isEmpty then s else (s.settleRead x none out 7).2.inc R.SCRUB_CORRECTED
  | some n =>
    let li := 1024 * n + x.o
    let r := s.settleRead x (some li) out 7
    if out.lost then
      if (s.cached li).isSome || s.superseded x then r.2 else (r.2.markDirty x.f x.o).inc R.SCRUB_UNCORRECTABLE
    else if out.bytes.isEmpty then r.2 else r.2.inc R.SCRUB_CORRECTED

/-- The word is one of the row that a running retest confirms, and not clean (R290). -/
def rowSuspect (s : State) (x : DReq) (out : ReadOut) : Bool :=
  x.cmd && (out.lost || out.addrErr || !out.bytes.isEmpty)
    && s.fcol.runScrub.any fun r => r.resource == (outcomeOf x.f x.o 7 0 0).resource

/-- A row's retest fails at its first word that is not clean, and ends there (R290). -/
def rowRetestFail (s : State) : State :=
  match s.fcol.runScrub with
  | none => s
  | some x => (({ s with fcol := { s.fcol with runScrub := none } }.scrubEnd.inc R.FCOL_RETEST_FAILS).declare x.resource).syncRetest

/-- The oldest burst of the pseudo-channel is a scrub read. -/
def scrubReturn (s : State) (pc : Nat) (x : DReq) (first again : BurstIn) (m : LookupIn) : State :=
  let q := s.pch pc
  let s := (s.setPch pc { q with flight := q.flight.drop 1 }).inc64 R.SCRUB_WORDS_LO
  let out := if s.unreadable x.f then lostOut false x.line
    else decodeRead (s.corrMax x.f) (s.retryEn x.f) (1024 * x.f + x.o) (s.burst x.f x.o x.line first)
      (s.burst x.f x.o x.line again)
  let s := if out.reread (s.retryEn x.f) then s.inc64 (R.CHC_READS_LO (s.ctrlPage (fChan x.f))) else s
  let old := s.superseded x
  let s := s.scrubOutcome m x out
  let s := if out.lost && !old then s.serveForward m x.f x.o else s
  let s := (if s.rowSuspect x out then s.rowRetestFail else s).syncBehind
  if out.addrErr then s.addrTraining pc else s

/-- READ_DATA_RETURN: a scrub read or a request's read. -/
def dataReturn (s : State) (c p : Nat) (first again : BurstIn) (m : LookupIn) : State :=
  match (s.pch (2 * c + p)).flight.head? with
  | none => s
  | some x => if x.scrub then s.scrubReturn (2 * c + p) x first again m
    else (s.readReturn c p first again m).closeChecks

end State
end Sys2Proof.Machine
end

