-- ==== Sys2Proof/Machine/Sparing.lean ====
section
/-! DEFINITION. Sparing, retirement and degraded service: the ladders of the repair domains, retirements, lending,
confirming retests, and the health state (R290, R296 to R313). -/

namespace Sys2Proof.Machine

/-- The repair domain of a resource (R296): 0 to 15 lane groups (transmit from 8), 16 to 47 channels, 48 to 51
quadrants, 52 to 55 engine pools, 56 the cache die, 57 to 72 DRAM dies; none for macros. -/
def domainOf (r : Word) : Option Nat :=
  let n := r.toNat
  match resType r with
  | 1 => some (8 * (n / 2 ^ 8 % 2) + n / 2 ^ 4 % 8)
  | 2 => some (16 + n / 2 ^ 8 % 32)
  | 3 | 4 | 14 | 15 => some (16 + n / 2 ^ 22 % 32)
  | 5 => some (57 + n % 16)
  | 6 => some (48 + n % 64 / 9)
  | 7 => some (52 + n % 64 / 9)
  | 8 | 9 => some 56
  | _ => none

namespace State

/-! ### Recoveries (R297, R298) -/

/-- A resource is declared in its domain: the domain recovers. -/
def startRecovery (s : State) (r : Word) : State :=
  match domainOf r with
  | none => s
  | some d =>
    if s.spare.recs.any fun x => x.domain == d then
      { s with spare := { s.spare with
          recs := s.spare.recs.map fun x => if x.domain = d then { x with res := x.res ++ [r] } else x } }
    else { s with spare := { s.spare with recs := s.spare.recs ++ [⟨d, [r]⟩] } }

/-- REC_LANE, REC_CHAN and REC_OTHER follow the recoveries. -/
def syncRecs (s : State) : State :=
  let m := fun (lo n : Nat) => s.spare.recs.foldl (fun (v : Nat) x =>
    if lo ≤ x.domain ∧ x.domain < lo + n then v + 2 ^ (x.domain - lo) else v) 0
  let s := (s.wr R.HEALTH_REC_LANE (BitVec.ofNat 32 (m 0 16))).wr R.HEALTH_REC_CHAN (BitVec.ofNat 32 (m 16 32))
  let s := s.wr R.HEALTH_REC_OTHER (BitVec.ofNat 32 (m 48 4 + m 52 4 * 2 ^ 4 + m 56 1 * 2 ^ 8 + m 57 16 * 2 ^ 16))
  s.flag R.HEALTH_HEALTH_STAT F.HEALTH_HEALTH_STAT_RECOVERING (!s.spare.recs.isEmpty)

/-! ### Lanes (R300) -/

/-- The declared lane whose sparing runs in a group (R55). -/
def sparedLane (s : State) (g : Nat) : List Nat :=
  let l := s.fld (R.RXG_SPARE_STAT g) F.RXG_SPARE_STAT_LANE
  if s.sparingRuns .rx g && s.declared (resLane false g l) then [l] else []

/-- A lane group gives up a lane without a spare, and with it one whose sparing that aborts: without nine data lanes it becomes
unusable, and its direction goes through RECOVER (R55, R69, R300). -/
def groupLost (s : State) (g l : Nat) : State :=
  let ls := l :: (s.sparedLane g).filter (· ≠ l)
  let s := { s with link := { s.link with deadRx := ls.map (10 * g + ·) ++ s.link.deadRx } }
  (s.setUsable .rx g false).enterRecover.placeGroup .rx g

/-- Steps 1 and 3 for a declared receive lane. -/
def laneLadder (s : State) (g l : Nat) : State :=
  if !s.sparingRuns .rx g && decide (s.spareLane .rx g ≠ 15) && s.linkActive then s.spareStart g l
  else s.groupLost g l

/-- Step 2: the sparing of a declared lane has failed; the lane is retired and RECOVER places the spare. -/
def sparingFailed (s : State) (g : Nat) : State :=
  let l := s.fld (R.RXG_SPARE_STAT g) F.RXG_SPARE_STAT_LANE
  if s.declared (resLane false g l) then
    { s with link := { s.link with deadRx := (10 * g + l) :: s.link.deadRx } }.enterRecover
  else s

/-! ### Vias, pseudo-channels and channels (R302 to R304) -/

/-- A pseudo-channel is retired or is being retired. -/
def pchGoing (s : State) (pc : Nat) : Bool :=
  s.pchRetired pc || s.place.retiring.contains (resPch (pc / 2) (pc % 2)) || s.place.retiring.contains (resChan (pc / 2))

/-- Declare a resource for retirement: migrations into it abort (R149), and repairs of its rows that have not started are
cancelled (R298). -/
def retireRes (s : State) (r : Word) : State :=
  let s := s.abortOn (resHolds r)
  { s with spare := { s.spare with rows := s.spare.rows.filter fun x => !resHolds r (rowFrame x) } }.declareRetire r

/-- Declare a pseudo-channel for retirement. -/
def retirePch (s : State) (pc : Nat) : State :=
  if s.pchGoing pc then s
  else
    let s := s.retireRes (resPch (pc / 2) (pc % 2))
    s.setPch pc { s.pch pc with corr := [] }

/-- Declare a channel for retirement: both pseudo-channels are evacuated. -/
def retireChannel (s : State) (c : Nat) : State := (s.retirePch (2 * c)).retirePch (2 * c + 1)

/-- Lines of the pseudo-channel can no longer be read (R303, R306): the reads that wait there go without a command, to be found
lost, and its scrub reads are dropped. -/
def makeUnreadable (s : State) (pc : Nat) : State :=
  if s.spare.unreadable.contains pc then s
  else
    let p := s.pch pc
    let lines := fun (r : DReq) => { r with line := s.dramRead r.f r.o }
    let s := s.setPch pc { p with rq := [], scrub := [], flight := p.flight ++ (p.rq.filter fun r => !r.scrub).map lines }
    { s with spare := { s.spare with unreadable := pc :: s.spare.unreadable } }

/-- The logical via that a physical one carries. -/
def logicalOf (s : State) (pc : Nat) (ca : Bool) (phys : Nat) : Option Nat :=
  (List.range (if ca then 14 else 36)).find? fun t => s.physVia pc ca t == phys

/-- Remaps asked for on a pseudo-channel and class that have not switched. -/
def remapsOpen (s : State) (pc : Nat) (ca : Bool) : Nat :=
  (match s.remapOf (pc / 2) with | some r => if r.p = pc % 2 ∧ r.ca = ca then 1 else 0 | none => 0)
    + (s.ch.remapQ.filter fun x => x.1 == pc / 2 && x.2.1 == pc % 2 && x.2.2.1 == ca).length

/-- Steps 1 and 2 for a declared via: a remap while spares cover every declared via, else retirement. A CA via without
a spare leaves the pseudo-channel without commands. -/
def viaLadder (s : State) (r : Word) : State :=
  let n := r.toNat
  let c := n / 2 ^ 8 % 32
  let p := n / 2 ^ 7 % 2
  let ca := decide (n / 2 ^ 6 % 2 = 1)
  let pc := 2 * c + p
  if s.pchGoing pc then s
  else match s.logicalOf pc ca (n % 64) with
    | none => s
    | some t =>
      let free := ((spareNums ca).filter (s.spareFree pc ca)).length
      if s.remapsOpen pc ca < free then s.remapStart c p ca t
      else
        let s := if ca then s.makeUnreadable pc else s
        (s.flag (R.CHP_REMAP_STAT c) F.CHP_REMAP_STAT_FAILED true).retirePch pc

/-- A remap that the ladder started found no good spare: step 2. -/
def remapFailed (s : State) (c : Nat) : State :=
  if s.on (R.CHP_REMAP_STAT c) F.CHP_REMAP_STAT_FAILED && (s.remapOf c).isNone then
    s.fcol.declared.foldl (fun (t : State) r =>
      let n := r.toNat
      let pc := 2 * c + n / 2 ^ 7 % 2
      let ca := decide (n / 2 ^ 6 % 2 = 1)
      if resType r = 2 ∧ n / 2 ^ 8 % 32 = c ∧ (t.logicalOf pc ca (n % 64)).isSome
          ∧ ((spareNums ca).filter (t.spareFree pc ca)).isEmpty ∧ !t.pchGoing pc then
        (if ca then t.makeUnreadable pc else t).retirePch pc
      else t) s
  else s

/-! ### Rows, banks and dies (R305) -/

/-- Mark the parcel of a row's frame for evacuation, or its keel frame for relocation; a migration into the frame aborts
(R149). -/
def evacuateFrame (s : State) (f : Nat) : State :=
  let s := s.abortInto f
  let ks := (List.range 8192).filter fun k => decide (s.keelFrame k = f) && !s.place.keelQ.contains k
  let s : State := if s.frameCode f = 2 then { s with place := { s.place with keelQ := s.place.keelQ ++ ks } }.updDeficit.keelRelocate
    else s
  match s.parcelOf f with
  | none => s
  | some n => s.setFlags n 0x08000000

/-- Spare rows of a row's bank that are in use or taken by a repair that runs or waits. -/
def rowsTaken (s : State) (r : Word) : Nat :=
  let n := r.toNat
  let bank := n / 2 ^ 15 % 16 + 16 * (n / 2 ^ 19 % 4)
  s.rowsUsedOf (n / 2 ^ 21 % 64) bank + (s.bankHeld (rowFrame r)).toNat
    + (s.spare.rows.filter fun x => decide (bankOfRow x = bankOfRow r ∧ x ≠ r)).length

/-- Step 2 for a declared row: without a spare row its frame is retired. -/
def rowRetire (s : State) (r : Word) : State := (s.retireRes r).fill (bankOfRow r) 8

/-- Steps 1 and 2 for a declared row. -/
def rowLadder (s : State) (r : Word) : State :=
  if s.rowOmitted (rowFrame r) then s
  else if s.rowsTaken r < 4 then
    { s with spare := { s.spare with rows := s.spare.rows ++ [r] } }.evacuateFrame (rowFrame r)
  else s.rowRetire r

/-- A row's repair starts once no parcel occupies its frame; a keel frame that has been relocated is zeroed first. Where the bank's
spare rows have gone meanwhile, the frame is retired. -/
def settleRow (s : State) (r : Word) : State :=
  let f := rowFrame r
  let s := if s.frameCode f = 2 ∧ (List.range 8192).all (fun k => decide (s.keelFrame k ≠ f)) then
      (s.setFrame f 1).queueZero f else s
  let n := r.toNat
  let c := n / 2 ^ 22 % 32
  if s.occupied f || (s.rowRep c).isSome then s
  else if 4 ≤ s.rowsUsedOf (n / 2 ^ 21 % 64) (n / 2 ^ 15 % 16 + 16 * (n / 2 ^ 19 % 4)) then s.rowRetire r
  else { s with spare := { s.spare with rows := s.spare.rows.erase r } }.rowRepairStart c (n / 2 ^ 21 % 2)
    (n / 2 ^ 19 % 4) (n / 2 ^ 15 % 16) (n % 2 ^ 15)

/-! ### Controllers and engines (R306, R307) -/

/-- A controller is retired (R306, R310). -/
def ctrlRetire (s : State) (k : Nat) : State :=
  let s := (s.flag (pgStat (chcPg k)) pgRetired true).flag (pgStat (chcPg k)) pgSpared false
  let s := s.flag (R.CHC_CHAN_MAP k) F.CHC_CHAN_MAP_ACTIVE false
  let s := { s with spare := { s.spare with ctrlOn := s.spare.ctrlOn.filter (· ≠ k) } }
  s.recordStep (resCtrl k) 3 0

def ctrlRetired (s : State) (k : Nat) : Bool := s.on (pgStat (chcPg k)) pgRetired

/-- Active controllers of a quadrant. -/
def activeCtrls (s : State) (q : Nat) : List Nat :=
  ((List.range 9).map (9 * q + ·)).filter fun k => s.on (R.CHC_CHAN_MAP k) F.CHC_CHAN_MAP_ACTIVE

def chanOf (s : State) (k : Nat) : Nat := s.fld (R.CHC_CHAN_MAP k) F.CHC_CHAN_MAP_CHANNEL

/-- The lender of an orphaned channel (R306). -/
def lenderFor (s : State) (q : Nat) : Option Nat :=
  match (s.activeCtrls q).find? fun k => !s.pchGoing (2 * s.chanOf k) && !s.pchGoing (2 * s.chanOf k + 1) with
  | some k => some k
  | none => (s.activeCtrls q).head?

/-- A controller retest runs in the quadrant. -/
def ctrlRetest (s : State) (q : Nat) : Bool :=
  s.fcol.runBist.any fun x => decide (resType x.resource = 6 ∧ x.resource.toNat % 64 / 9 = q)

/-- A channel is declared for retirement for want of a controller: its domain recovers (R297, R304, R306). -/
def chanOrphaned (s : State) (c : Nat) : State := (s.startRecovery (resChan c)).retireChannel c

/-- The service of an orphaned channel, whose controller `k` is retired: a lender, or nothing (R306). -/
def orphanServe (s : State) (k : Nat) : State :=
  let q := k / 9
  let c := s.chanOf k
  match s.lenderFor q with
  | some l =>
    let s := (s.put (R.HEALTH_LEND q) F.HEALTH_LEND_ORPHAN c).put (R.HEALTH_LEND q) F.HEALTH_LEND_LENDER l
    let s := s.flag (R.HEALTH_LEND q) F.HEALTH_LEND_ACTIVE true
    let s := { s with spare := { s.spare with lendTurn := q :: s.spare.lendTurn.filter (· ≠ q) } }
    if s.ctrlRetest q then { s with spare := { s.spare with orphanWait := s.spare.orphanWait ++ [k] } } else s.chanOrphaned c
  | none =>
    let s := s.flag (R.HEALTH_LEND q) F.HEALTH_LEND_ACTIVE false
    let cs := ((List.range 8).map (8 * q + ·)).filter fun x => !(s.pchRetired (2 * x) && s.pchRetired (2 * x + 1))
    cs.foldl (fun (t : State) x =>
      if (t.ctrlOf x).isNone then ((t.makeUnreadable (2 * x)).makeUnreadable (2 * x + 1)).chanOrphaned x else t) s

/-- A controller is retired with no spare: its channel is orphaned. -/
def orphan (s : State) (k : Nat) : State := (s.ctrlRetire k).orphanServe k

/-- The lending of a quadrant ends (R306). -/
def lendEnd (s : State) (q : Nat) : State :=
  { s with spare := { s.spare with lendTurn := s.spare.lendTurn.filter (· ≠ q) } }.flag (R.HEALTH_LEND q)
    F.HEALTH_LEND_ACTIVE false

/-- A controller in service is replaced by the spare, which a slice or a swap back gives up; without one its channel is
orphaned (R299, R306). -/
def ctrlReplace (s : State) (k : Nat) : State :=
  let q := k / 9
  let s := if (s.quadSpare q).isNone then s.recallSlice false q else s
  let back := s.ch.swaps.filter fun x => decide (x.1 / 9 = q) && !s.declared (resCtrl x.1) && !s.ctrlRetired x.1
  let s := if (s.quadSpare q).isNone && !s.ctrlRetest q then back.foldl (fun t x => t.swapCancel x.1) s else s
  match s.quadSpare q with
  | some n =>
    { s with spare := { s.spare with ctrlOn := n :: s.spare.ctrlOn.filter (· ≠ n) } }.swapBegin k n
  | none => s.orphan k

/-- A retest of a controller whose swap has lost its spare waits again (R290, R299). -/
def retestAgain (s : State) (k : Nat) : State :=
  match s.fcol.runBist with
  | none => s
  | some x =>
    if x.resource ≠ resCtrl k then s
    else { s with fcol := { s.fcol with runBist := none, retestQ := x :: s.fcol.retestQ } }.bistFree x.resource |>.syncRetest

/-- The declared spare of a quadrant is retired; swaps to it are cancelled, and what had asked for them asks again (R298). -/
def spareRetire (s : State) (k : Nat) : State :=
  let olds := (s.ch.swaps.filter fun x => x.2 == k).map (·.1)
  let s := if s.bist.slice.any fun x => !x.engine && olds.contains x.unit then s.recallSlice false (k / 9) else s
  olds.foldl (fun (t : State) o => if t.declared (resCtrl o) && !t.ctrlRetired o then t.ctrlReplace o else t.retestAgain o)
    ((s.swapCancel k).ctrlRetire k)

/-- Without a controller retest in the quadrant, orphaned channels that waited for one are declared for retirement (R306). -/
def orphansGo (s : State) (q : Nat) : State :=
  if s.ctrlRetest q then s
  else
    let ks := s.spare.orphanWait.filter fun k => decide (k / 9 = q)
    ks.foldl (fun (t : State) k => t.chanOrphaned (t.chanOf k))
      { s with spare := { s.spare with orphanWait := s.spare.orphanWait.filter fun k => decide (k / 9 ≠ q) } }

/-- The ladder of a declared controller. One whose swap is under way is retired when that has taken effect. -/
def ctrlLadder (s : State) (k : Nat) : State :=
  let s := if s.ctrlRetired k || s.ch.swaps.any (fun x => x.1 == k) then s
    else if !s.on (R.CHC_CHAN_MAP k) F.CHC_CHAN_MAP_ACTIVE then s.spareRetire k
    else s.ctrlReplace k
  s.orphansGo (k / 9)

/-- An engine is retired once no work is left on it (R307). -/
def engRetire (s : State) (e : Nat) : State :=
  if s.engState e ≠ 5 ∧ s.declared (resEng e) ∧ (s.worksOn e).isEmpty then
    (((s.setEngState e 5).flag (pgStat (engPg e)) pgRetired true).fillSlot e).recordStep (resEng e) 3 0
  else s

/-- The ladder of a declared engine: its work moves, the spare keeps or takes its slot. -/
def engLadder (s : State) (e : Nat) : State :=
  let s := s.recallSlice true (e / 9)
  let s := if s.engState e = 4 ∨ s.engState e = 6 then s else s.plannedMove e
  (s.engRetire e).adoptWorks

/-! ### Macros (R296) -/

/-- The macro whose contents a macro holds: its own, or those of the one that a spare stands in for; a free spare holds none. -/
def macroOwner (s : State) (m : Nat) : Option Nat :=
  if m < 608 then some m else (s.spare.macros.find? fun e => e.2 == m).map (·.1)

/-- The contents of a macro go to the lowest free spare macro, without loss; none when there is no free one. -/
def macroTake (s : State) (m : Nat) : Option State :=
  let used := s.spare.macros.map (·.2)
  match s.macroOwner m, ((List.range 32).map (608 + ·)).find? fun x => !used.contains x && !s.declared (resMacro x) with
  | some o, some x => some { s with spare := { s.spare with macros := (s.spare.macros.filter fun e => e.1 ≠ o) ++ [(o, x)] } }
  | _, _ => none

/-- A declared macro is replaced by a spare one while there is one. -/
def macroLadder (s : State) (m : Nat) : State :=
  match s.macroTake m with
  | none => s
  | some t => t.recordStep (resMacro m) 3 0

/-! ### The ladder step of a declared resource -/

/-- Carry out the next ladder step for a resource handed over (R291, R297). -/
def ladder (s : State) (r : Word) : State :=
  let n := r.toNat
  let s := s.startRecovery r
  match resType r with
  | 1 => if r.getLsbD 8 then s else s.laneLadder (n / 2 ^ 4 % 8) (n % 16)
  | 2 => s.viaLadder r
  | 3 => s.rowLadder r
  | 4 => (s.retireRes r).fill (dieOfBank r) 1
  | 5 => (s.retireRes r).flag (R.DDIE_DIE_STAT (n % 16)) F.DDIE_DIE_STAT_RETIRING true
  | 6 => s.ctrlLadder (n % 64)
  | 7 => s.engLadder (n % 64)
  | 8 => s.bankRetire (n % 16)
  | 9 => (List.range 16).foldl (fun (t : State) b => t.bankRetire b) s
  | 10 => s.macroLadder (n % 1024)
  | 15 => s.retireChannel (n / 2 ^ 22 % 32)
  | _ => s

/-- Hand the declared resources to their ladders, in order; a step may declare more. -/
def runHanded : Nat → State → State
  | 0, s => s
  | k + 1, s =>
    match s.fcol.handed with
    | [] => s
    | r :: l => runHanded k ({ s with fcol := { s.fcol with handed := l } }.ladder r)

/-! ### Retirements that complete (R303 to R306) -/

/-- A channel is retired: its controller becomes a spare, a lending ends, and its PHY's domain goes off. -/
def chanRetired (s : State) (c : Nat) : State :=
  if s.on (R.CHP_PHY_STAT c) F.CHP_PHY_STAT_CHAN_RETIRED || !(s.pchRetired (2 * c) && s.pchRetired (2 * c + 1)) then s
  else
    let q := c / 8
    let s := s.flag (R.CHP_PHY_STAT c) F.CHP_PHY_STAT_CHAN_RETIRED true
    let s := if s.on (R.HEALTH_LEND q) F.HEALTH_LEND_ACTIVE && decide (s.fld (R.HEALTH_LEND q) F.HEALTH_LEND_ORPHAN = c) then
        s.lendEnd q
      else match (s.activeCtrls q).find? fun k => s.chanOf k == c with
        | none => s
        | some k => s.flag (R.CHC_CHAN_MAP k) F.CHC_CHAN_MAP_ACTIVE false
    s.recordStep (BitVec.ofNat 32 (4 * 2 ^ 28 + c * 2 ^ 22)) 5 0

/-- No request to a frame of the resource is queued or in flight, and no row of its banks is opening (R193). -/
def resQuiet (s : State) (r : Word) : Bool :=
  s.ch.pch.all fun e =>
    !((e.2.rq ++ e.2.wq ++ e.2.flight).any fun x => resHolds r x.f)
      && !(e.2.banks.any fun b => decide (b.2.st = 1) && resHolds r (frameOfRow (e.1 / 2) (e.1 % 2) (b.1 / 16) (b.1 % 16) 0))

/-- A retired resource: the open rows of its banks are precharged, and their refreshes and its scrub reads that wait are dropped
(R193, R214, R220). -/
def closeRes (s : State) (r : Word) : State :=
  let mine := fun (pc b : Nat) => decide (resType r ≠ 3) && resHolds r (frameOfRow (pc / 2) (pc % 2) (b / 16) (b % 16) 0)
  s.ch.pch.foldl (fun (t : State) x =>
    let p := x.2
    t.setPch x.1 { p with
      banks := p.banks.map fun e =>
        if e.2.st = 2 && mine x.1 e.1 then (e.1, { e.2 with st := 3, pre := p.now, streak := 0 }) else e
      refs := p.refs.filter fun e => !mine x.1 e.bank
      scrub := p.scrub.filter fun e => !resHolds r e.f }) s

/-- The frames of a resource are RETIRED: its status and its record (R305, R310). -/
def retired_ (s : State) (r : Word) : State :=
  let n := r.toNat
  let c := n / 2 ^ 22 % 32
  let p := n / 2 ^ 21 % 2
  let s := (s.closeRes r).retireFrames r
  match resType r with
  | 4 =>
    let b := n / 2 ^ 15 % 16 + 16 * (n / 2 ^ 19 % 4)
    let a := if b < 32 then R.CHP_BANK_RET_LO c p else R.CHP_BANK_RET_HI c p
    (s.setBit a ⟨0, 32⟩ (b % 32) true).recordStep r 3 0
  | 5 =>
    let d := n % 16
    ((s.flag (R.DDIE_DIE_STAT d) F.DDIE_DIE_STAT_RETIRING false).flag (R.DDIE_DIE_STAT d) F.DDIE_DIE_STAT_RETIRED true).recordStep r 3 0
  | 14 =>
    let s := s.flag (R.CHP_PHY_STAT c) (if p = 0 then F.CHP_PHY_STAT_RETIRED_A else F.CHP_PHY_STAT_RETIRED_B) true
    (s.recordStep (BitVec.ofNat 32 (4 * 2 ^ 28 + c * 2 ^ 22 + p * 2 ^ 21)) 4 0).chanRetired c
  | _ => s.recordStep r 3 0

/-- Retirements whose last frame has left complete, once their banks have no request left (R154, R193). -/
def finishRetirements (s : State) : State :=
  s.place.retiring.foldl (fun (t : State) r => if t.retireReady r && t.resQuiet r then t.retired_ r else t) s

/-- After a swap: the lending of a channel that has a controller again ends, and a declared controller that is out is retired
(R306). -/
def swapSettled (s : State) (old : Nat) : State :=
  let q := old / 9
  let c := s.fld (R.HEALTH_LEND q) F.HEALTH_LEND_ORPHAN
  let s := if s.on (R.HEALTH_LEND q) F.HEALTH_LEND_ACTIVE && (s.activeCtrls q).any fun k => s.chanOf k == c then s.lendEnd q else s
  if s.declared (resCtrl old) && !s.on (R.CHC_CHAN_MAP old) F.CHC_CHAN_MAP_ACTIVE && !s.ctrlRetired old then s.ctrlRetire old
  else s

/-! ### When a step is complete (R297) -/

/-- The ladder's step for a resource has ended. -/
def stepDone (s : State) (r : Word) : Bool :=
  let n := r.toNat
  match resType r with
  | 1 => !s.sparingRuns .rx (n / 2 ^ 4 % 8) && s.linkActive
  | 2 => s.pchRetired (n / 2 ^ 7 % 64) || (s.logicalOf (n / 2 ^ 7 % 64) (decide (n / 2 ^ 6 % 2 = 1)) (n % 64)).isNone
  | 3 => !s.spare.rows.contains r && !s.place.retiring.contains r && !s.declared r || s.rowOmitted (rowFrame r)
  | 6 => s.ctrlRetired (n % 64)
  | 7 => s.engState (n % 64) == 5
  | 8 => decide (2 ≤ s.bankState (n % 16))
  | 9 => s.on R.CACHE_CACHE_STAT F.CACHE_CACHE_STAT_DIE_RETIRED
  | 15 => s.on (R.CHP_PHY_STAT (n / 2 ^ 22 % 32)) F.CHP_PHY_STAT_CHAN_RETIRED
  | _ => !s.place.retiring.contains r

/-- Drop the resources whose step is complete, and the recoveries that have none left. -/
def settleRecs (s : State) : State :=
  let l := s.spare.recs.map fun x => { x with res := x.res.filter fun r => !s.stepDone r }
  { s with spare := { s.spare with recs := l.filter fun x => !x.res.isEmpty } }.syncRecs

/-! ### Health (R311 to R313) -/

/-- A direction runs narrower than its target because groups are not usable (R97 WIDTH_DEGRADED). -/
def widthDegraded (s : State) (d : Dir) : Bool :=
  s.linkActive && decide (s.wantedStep d < s.curStep d) && (s.groupsAt d (s.wantedStep d)).isNone

def quadFewEngines (s : State) (q n : Nat) : Bool :=
  decide (((quadEngines q).filter s.engUsable).length < n)

/-- Degraded and Critical conditions as HEALTH_COND numbers them (R311, R429). -/
def healthConds (s : State) : Nat :=
  let b := fun (i : Nat) (c : Bool) => if c then 2 ^ i else 0
  let going := s.place.retiring.any fun r => decide (resType r = 5 ∨ resType r = 14 ∨ resType r = 15)
  let pchs := (List.range 64).any s.pchRetired
  let die := dies.any fun d => s.on (R.DDIE_DIE_STAT d) F.DDIE_DIE_STAT_RETIRED
  let up := decide (9 < s.bootStep)
  let absent := dies.any fun d => !s.on (R.DDIE_DIE_STAT d) F.DDIE_DIE_STAT_PRESENT
    && !s.on (R.DDIE_DIE_STAT d) F.DDIE_DIE_STAT_RETIRED
  let responding := s.on R.CDIE_CDIE_STAT F.CDIE_CDIE_STAT_RESPONDING
  b 0 (s.widthDegraded .rx || s.widthDegraded .tx)
    + b 1 (going || pchs || die)
    + b 2 (up && (s.on R.CACHE_CACHE_STAT F.CACHE_CACHE_STAT_DIE_RETIRED
      || (List.range 16).any fun i => s.bankState i == 1 || s.bankState i == 2))
    + b 3 (up && quads.any fun q => s.quadFewEngines q 8)
    + b 4 (quads.any fun q => s.on (R.HEALTH_LEND q) F.HEALTH_LEND_ACTIVE)
    + b 5 (s.on R.PLACE_DEFICIT F.PLACE_DEFICIT_OPEN || decide (s.fld R.PLACE_PARCELS_WITHDRAWN F.PLACE_PARCELS_WITHDRAWN_COUNT ≠ 0))
    + b 6 (s.place.laid && !(s.mirrorOk false && s.mirrorOk true))
    + b 16 (decide (3 ≤ s.bootStep) && !s.linkActive && !s.spare.planned)
    + b 17 (up && (List.range 64).any fun pc => !s.pchRetired pc && !s.pchTrained pc)
    + b 18 (up && absent)
    + b 19 (up && !responding && !s.on R.CACHE_CACHE_STAT F.CACHE_CACHE_STAT_DIE_RETIRED)
    + b 20 (up && quads.any fun q => (s.activeCtrls q).isEmpty)
    + b 21 (s.on R.BIST_BOOT_FAILS F.BIST_BOOT_FAILS_BLOCK)

/-- A field repair is in effect: a record of service, or a lane retired (R311). -/
def fieldRepair (s : State) : Bool :=
  s.spare.repaired || !s.spare.merged.isEmpty || !s.link.deadRx.isEmpty || !s.link.deadTx.isEmpty

/-- The state that the conditions give. -/
def healthState (s : State) (conds : Nat) : Nat :=
  if 2 ^ 16 ≤ conds then 3 else if conds ≠ 0 then 2 else if s.fieldRepair || !s.spare.recs.isEmpty then 1 else 0

/-- Show conditions and the state, which falls only when `fall` says that what has ended has been absent for QUIET_MS; a change is
counted and logged (R312, R420). -/
def showHealth (s : State) (conds : Nat) (fall : Bool) : State :=
  let old := s.fld R.HEALTH_HEALTH_STAT F.HEALTH_HEALTH_STAT_STATE
  let new := if fall then s.healthState conds else max old (s.healthState conds)
  let s := { s with spare := { s.spare with conds := conds } }
  let s := (s.wr R.HEALTH_HEALTH_COND (BitVec.ofNat 32 conds)).flag R.HEALTH_HEALTH_STAT F.HEALTH_HEALTH_STAT_FIELD_REPAIR s.fieldRepair
  if new = old then s
  else ((s.put R.HEALTH_HEALTH_STAT F.HEALTH_HEALTH_STAT_STATE new).inc R.HEALTH_STATE_CHANGES).logNote 1
    [(73, old), (74, new), (76, conds % 256), (77, conds / 256 % 256), (78, conds / 65536 % 256), (79, conds / 16777216)]

/-- The link carries host data: ACTIVE, with link-layer initialisation done, and no reaction's reset on its way (R281, R313). -/
def dataUp (s : State) : Bool := s.linkActive && decide (s.rxState ≠ 3) && decide (s.clk.orderly ≠ some 4)

/-- Count the outage of the data path, 1 µs steps (R313). -/
def countOutage (s : State) : State :=
  if s.dataUp then
    let s := { s with spare := { s.spare with planned := false, starting := false } }
    match s.spare.outage with
    | none => s
    | some t =>
      let us := (((s.clk.up : Int) - t) / 1000).toNat
      let s := { s with spare := { s.spare with outage := none } }
      let s := (s.inc64 R.HEALTH_UNAVAIL_LO us).inc R.HEALTH_UNAVAIL_EVENTS
      s.wr R.HEALTH_LAST_UNAVAIL (BitVec.ofNat 32 us)
  else if s.link.trained && (!s.spare.planned || decide (s.clk.orderly = some 4)) && !s.spare.starting && s.spare.outage.isNone then
    { s with spare := { s.spare with outage := some (s.clk.up : Int) } }
  else s

/-- What follows a change of anything that the ladders or the health state watch: declared resources are handed on,
completed steps end, health rises (R297, R312). -/
def settle (s : State) : State :=
  let s := runHanded 64 s
  let s := s.spare.rows.foldl (fun (t : State) r => t.settleRow r) s
  let s := (List.range 36).foldl (fun (t : State) e => t.engRetire e) s.finishRetirements
  let s := s.settleRecs.countOutage
  s.showHealth (s.spare.conds ||| s.healthConds) false

/-- HEALTH_FALL: conditions and recoveries that have been absent for QUIET_MS go (R312). -/
def healthFall (s : State) : State := s.showHealth s.healthConds true

/-! ### Lending (R306) -/

/-- LEND_SLICE: the lender turns to the other of its two channels. -/
def lendSlice (s : State) (q : Nat) : State :=
  if s.on (R.HEALTH_LEND q) F.HEALTH_LEND_ACTIVE then
    { s with spare := { s.spare with
        lendTurn := if s.spare.lendTurn.contains q then s.spare.lendTurn.filter (· ≠ q) else q :: s.spare.lendTurn } }
  else s

/-- The controller of a channel serves it now: not in the other channel's slice. -/
def sliceOpen (s : State) (c : Nat) : Bool :=
  let q := c / 8
  if !s.on (R.HEALTH_LEND q) F.HEALTH_LEND_ACTIVE then true
  else if s.fld (R.HEALTH_LEND q) F.HEALTH_LEND_ORPHAN = c then s.spare.lendTurn.contains q
  else if s.ctrlOf c = some (s.fld (R.HEALTH_LEND q) F.HEALTH_LEND_LENDER) then !s.spare.lendTurn.contains q
  else true

/-! ### Retests (R290) -/

/-- A waiting retest may start now on its resource kind. -/
def retestReady (s : State) (bist : Bool) (x : Retest) : Bool :=
  let t := resType x.resource
  if bist then
    let k := x.resource.toNat % 64
    s.bist.slice.isNone && (decide (t = 7) || (decide (t = 6)
      && (if s.on (R.CHC_CHAN_MAP k) F.CHC_CHAN_MAP_ACTIVE then (s.quadSpare (k / 9)).isSome else s.ctrlSpare k)))
  else decide (t = 3) && !s.on R.SCRUB_SCRUB_STAT F.SCRUB_SCRUB_STAT_CMD_BUSY

/-- The slice of a retest (R399: the on-demand path at STD); a controller in service is swapped out for it. -/
def retestSlice (engine : Bool) (u : Nat) (swapped : Bool) : Slice :=
  { engine, q := u / 9, slot := u % 9, unit := u, set := 1, second := false, cmd := false, retest := true, swapped }

/-- RETEST_START: a free resource takes the oldest waiting retest whose needs are met. -/
def retestStart (s : State) (bist : Bool) : State :=
  if (if bist then s.fcol.runBist else s.fcol.runScrub).isSome then s
  else match s.fcol.retestQ.find? (s.retestReady bist) with
    | none => s
    | some x =>
      let s := { s with fcol := { s.fcol with retestQ := s.fcol.retestQ.erase x } }.inc R.FCOL_RETESTS
      if bist then
        let u := x.resource.toNat % 64
        let eng := decide (resType x.resource = 7)
        let out := !eng && s.on (R.CHC_CHAN_MAP u) F.CHC_CHAN_MAP_ACTIVE
        let s := { s with
          fcol := { s.fcol with runBist := some x }
          bist := { s.bist with slice := some (retestSlice eng u out) } }
        let s := s.flag R.BIST_BIST_STAT F.BIST_BIST_STAT_BUSY true
        if eng then ((s.setEngState u 6).flag (pgStat (engPg u)) pgUnderTest true).syncRetest
        else if !out then (s.flag (pgStat (chcPg u)) pgUnderTest true).syncRetest
        else match s.quadSpare (u / 9) with
          | none => s.syncRetest
          | some n => ({ s with spare := { s.spare with ctrlOn := n :: s.spare.ctrlOn.filter (· ≠ n) } }.swapBegin u n).syncRetest
      else
        let s : State := { s with fcol := { s.fcol with runScrub := some x } }
        (s.scrubStart (rowFrame x.resource) 1 true).syncRetest

/-- A controller that has passed its retest: it takes an orphaned channel by a swap, else goes back to the slot that it was
swapped out of (R290, R306). -/
def ctrlBack (s : State) (k : Nat) (swapped : Bool) : State :=
  let q := k / 9
  match s.spare.orphanWait.find? fun j => decide (j / 9 = q) with
  | some j => { s with spare := { s.spare with orphanWait := s.spare.orphanWait.erase j } }.swapStart j k
  | none =>
    match (s.activeCtrls q).find? fun j => swapped && s.chanOf j == s.chanOf k with
    | some j => s.swapBegin j k
    | none => s

/-- The retest of a row ends when its range has been read to the end, with the row clean (R290). -/
def scrubRetestDone (s : State) : State :=
  match s.ch.scrubRun with
  | none => s
  | some r =>
    if r.retest && s.scrubComplete r then ({ s with fcol := { s.fcol with runScrub := none } }.scrubEnd).syncRetest else s

/-- The BIST of a retested unit has ended (R290). -/
def bistRetestDone (s : State) (x : Retest) (pass : Bool) : State :=
  let u := x.resource.toNat % 64
  let out := s.bist.slice.any Slice.swapped
  let s := { s with fcol := { s.fcol with runBist := none } }.bistFree x.resource
  let s := if !pass then (s.inc R.FCOL_RETEST_FAILS).declare x.resource
    else if resType x.resource = 7 then (((s.setEngState u 1).engBack u).syncEng u).adoptWorks
    else s.ctrlBack u out
  s.syncRetest

/-- RETEST_DONE: of a row, for whose outcome its words have decided, or of a unit, once it is out of its slot (R290). -/
def retestDone (s : State) (bist pass : Bool) : State :=
  if !bist then s.scrubRetestDone
  else match s.fcol.runBist with
    | none => s
    | some x => if s.on (unitStat x.resource) pgUnderTest then s.bistRetestDone x pass else s

end State
end Sys2Proof.Machine
end

