-- ==== Sys2Proof/Machine/Bist.lean ====
section
/-! DEFINITION. The in-service rotation, on-demand slices and the analogue checks (R394 to R399, R404). The reference
check of the ADC stands with the housekeeping round. -/

namespace Sys2Proof.Machine

/-- The set that a code names; 3 acts as STD. -/
def bistSet (n : Nat) : Nat := if n = 3 then 1 else n

namespace State

/-! ### The unit of a slot (R394) -/

/-- No controller can be swapped out: the spare has taken a slot for good (R396). -/
def ctrlGap (s : State) (q : Nat) : Bool :=
  ((List.range 9).map (9 * q + ·)).all fun k =>
    s.on (R.CHC_CHAN_MAP k) F.CHC_CHAN_MAP_ACTIVE || s.ctrlRetired k || s.declared (resCtrl k)

/-- The controller that holds a slot's role. -/
def ctrlAt (s : State) (q slot : Nat) : Option Nat :=
  if slot = 8 then s.quadSpare q else (s.activeCtrls q).find? fun k => s.chanOf k == 8 * q + slot

/-- An engine is out of service for good. -/
def engGone (s : State) (e : Nat) : Bool := s.engState e == 4 || s.engState e == 5

def unitAt (s : State) (engine : Bool) (q slot : Nat) : Option Nat := if engine then s.engHolder q slot else s.ctrlAt q slot

/-- The unit is tested where it is, without a swap. -/
def inPlace (s : State) (engine : Bool) (u : Nat) : Bool :=
  if engine then s.engIsSpare u && !s.spareInUse (u / 9) else !s.on (R.CHC_CHAN_MAP u) F.CHC_CHAN_MAP_ACTIVE

/-! ### Starting a slice (R395, R396) -/

/-- A frame on the channel is being retired, or the channel is. -/
def chanRetiring (s : State) (c : Nat) : Bool :=
  s.place.retiring.any fun r =>
    let t := resType r
    let n := r.toNat
    if t = 3 ∨ t = 4 ∨ t = 14 ∨ t = 15 then n / 2 ^ 22 % 32 == c else if t = 5 then n % 4 == c % 4 else false

/-- A reason of R396 to put the slice off. -/
def sliceBlocked (s : State) (x : Slice) : Bool :=
  let rec_ := fun (d : Nat) => s.spare.recs.any fun r => r.domain == d
  let waits := s.fcol.retestQ.any fun r => decide (resType r.resource = (if x.engine then 7 else 6)
    ∧ r.resource.toNat % 64 / 9 = x.q)
  s.drogue || s.clk.orderly.isSome || s.tripped || waits || rec_ (48 + x.q) || rec_ (52 + x.q)
    || (if x.engine then
        !s.inPlace true x.unit && (quadEngines x.q).all fun e => e == x.unit || !s.engUsable e
      else (!s.inPlace false x.unit && (s.quadSpare x.q).isNone) || s.chanRetiring (s.chanOf x.unit))

/-- ROT_STAT shows the slice. -/
def sliceActive (s : State) (engine : Bool) (q : Nat) (b : Bool) : State :=
  s.flag (R.BIST_ROT_STAT q) (if engine then F.BIST_ROT_STAT_ENG_ACTIVE else F.BIST_ROT_STAT_CTRL_ACTIVE) b

/-- Fence the unit of the running slice once nothing is left on it (R395 step 3). -/
def sliceFence (s : State) : State :=
  match s.bist.slice with
  | none => s
  | some x =>
    if x.engine then
      if s.engState x.unit = 6 ∨ (s.runningOn x.unit).isSome then s
      else
        let s := (s.queuedOn x.unit).foldl (fun (t : State) w => t.handOver w x.unit false) s
        (s.setEngState x.unit 6).flag (pgStat (engPg x.unit)) pgUnderTest true
    else if s.inPlace false x.unit && !(s.ch.swaps.any fun y => y.1 == x.unit || y.2 == x.unit) then
      s.flag (pgStat (chcPg x.unit)) pgUnderTest true
    else s

/-- Start a slice whose conditions hold. -/
def sliceStart (s : State) (x : Slice) : State :=
  let place := s.inPlace x.engine x.unit
  let s := { s with bist := { s.bist with slice := some { x with swapped := !place, deferred := false } } }
  let s := s.sliceActive x.engine x.q true
  let s : State :=
    if place then s
    else if x.engine then
      let s := match (s.engSpareOf x.q).filter s.engUsable with | some sp => s.engPowerUp sp | none => s
      let lent := if ((s.engSpareOf x.q).filter s.engUsable).isSome then [] else (s.worksOn x.unit).map (·.req)
      let lend := fun (y : Slice) => { y with lent := lent }
      { s with bist := { s.bist with slice := s.bist.slice.map lend } }.plannedMove x.unit
    else match s.quadSpare x.q with
      | none => s
      | some n => { s with spare := { s.spare with ctrlOn := n :: s.spare.ctrlOn.filter (· ≠ n) } }.swapBegin x.unit n
  s.sliceFence

/-- Start a slice, or let it wait behind another or for its conditions. -/
def sliceTry (s : State) (x : Slice) : State :=
  if s.bist.slice.isSome then { s with bist := { s.bist with waiting := s.bist.waiting ++ [{ x with deferred := false }] } }
  else if s.sliceBlocked x then
    { s with bist := { s.bist with waiting := s.bist.waiting ++ [{ x with deferred := true }] } }.inc R.BIST_DEFERRED
  else s.sliceStart x

/-- The slice that waited behind another starts. -/
def sliceNext (s : State) : State :=
  if s.bist.slice.isSome then s
  else match s.bist.waiting.find? fun x => !x.deferred with
    | none => s
    | some x => { s with bist := { s.bist with waiting := s.bist.waiting.erase x } }.sliceTry x

/-! ### Results -/

def unitKey (engine : Bool) (u : Nat) : Nat := 64 * engine.toNat + u

/-- UNIT_RESULT.LAST of a unit; FAILED_ONCE is kept. -/
def setLast (s : State) (engine : Bool) (u n : Nat) : State :=
  { s with bist := { s.bist with results := SMap.upd (fun _ => 0) (unitKey engine u) (fun r => r / 4 * 4 + n) s.bist.results } }

/-- The rotation's slot moves on. -/
def slotNext (s : State) (engine : Bool) (q : Nat) : State :=
  let f := if engine then F.BIST_ROT_STAT_ENG_SLOT else F.BIST_ROT_STAT_CTRL_SLOT
  s.put (R.BIST_ROT_STAT q) f ((s.fld (R.BIST_ROT_STAT q) f + 1) % 9)

/-- BIST_STAT at the end of an on-demand run. -/
def cmdEnd (s : State) (f : Fld) : State := (s.flag R.BIST_BIST_STAT F.BIST_BIST_STAT_BUSY false).flag R.BIST_BIST_STAT f true

/-- The unit leaves the test and, unless it stays out, takes its slot again (R395 step 5). -/
def sliceReturn (s : State) (x : Slice) : State :=
  let s := s.flag (pgStat (if x.engine then engPg x.unit else chcPg x.unit)) pgUnderTest false
  if x.engine then
    let s := (if s.engState x.unit = 6 then s.setEngState x.unit 1 else s).syncEng x.unit
    if !x.swapped then s
    else
      let sp := (s.engSpareOf x.q).getD 36
      let back := fun (w : Work) =>
        if (w.engine = some sp ∨ x.lent.contains w.req) ∧ w.engine ≠ some x.unit ∧ w.ended.isNone then
          (if w.phase = .queued then { w with engine := some x.unit, quad := x.q }
            else { w with moving := true, home := some x.unit })
        else w
      let came := s.eng.works.filter fun w => w.phase == .queued && decide ((back w).engine ≠ w.engine)
      let s := came.foldl (fun (t : State) w => t.countPlanned w x.q 1 false) s
      let s := { s with eng := { s.eng with works := s.eng.works.map back } }
      ((quadEngines x.q).foldl (fun (t : State) e => t.syncEng e) s).adoptWorks
  else if !x.swapped then s
  else if s.on (R.CHC_CHAN_MAP x.unit) F.CHC_CHAN_MAP_ACTIVE then s.swapCancel x.unit
  else match (s.activeCtrls x.q).find? fun k => s.chanOf k == s.chanOf x.unit with
    | none => s
    | some k => s.swapBegin k x.unit

/-- The running slice ends. -/
def sliceEnd (s : State) (x : Slice) : State :=
  let s := { s with bist := { s.bist with slice := none } }.sliceActive x.engine x.q false
  if x.cmd then s else s.slotNext x.engine x.q

/-- The running slice of a rotation, not one of a retest. -/
def sliceOf (s : State) (engine : Bool) (q : Nat) : Option Slice :=
  s.bist.slice.filter fun x => x.engine == engine && x.q == q && !x.retest

/-- Is the unit fenced? -/
def fenced (s : State) (x : Slice) : Bool :=
  s.on (pgStat (if x.engine then engPg x.unit else chcPg x.unit)) pgUnderTest

/-- A pass: recorded with its time, FAILED_ONCE when it repeats a failure. -/
def slicePass (s : State) (x : Slice) : State :=
  let k := unitKey x.engine x.unit
  let s := (s.inc R.BIST_SLICES).setLast x.engine x.unit 1
  let s := { s with bist := { s.bist with
      results := if x.second then SMap.upd (fun _ => 0) k (fun r => r % 4 + 4) s.bist.results else s.bist.results
      passUp := SMap.set (fun _ => 0) k s.clk.up s.bist.passUp, passTs := SMap.set (fun _ => 0) k s.ts s.bist.passTs } }
  let s := (s.sliceEnd x).sliceReturn x
  if x.cmd then s.cmdEnd F.BIST_BIST_STAT_PASS else s

/-- A failure: the first is repeated at once, the second declares the unit (R397). -/
def sliceFail (s : State) (x : Slice) (sig : BitVec 64) : State :=
  let s := (((s.inc R.BIST_SLICES).inc R.BIST_SLICE_FAILS).setLast x.engine x.unit 2).wr64 R.BIST_SIG_LO sig
  if !x.second then { s with bist := { s.bist with slice := some { x with second := true } } }
  else
    let r := if x.engine then resEng x.unit else resCtrl x.unit
    let s := s.flag (pgStat (if x.engine then engPg x.unit else chcPg x.unit)) pgUnderTest false
    let s := (s.sliceEnd x).declare r
    let s := if x.engine then s.setEngState x.unit 4 else s
    let s := { s with bist := { s.bist with failing := r :: s.bist.failing.filter (· ≠ r) } }
    if x.cmd then s.cmdEnd F.BIST_BIST_STAT_FAIL else s

/-- SLICE_BIST_DONE: the unit passes when its memory has no fault and its signature is the expected one (R389, R390). -/
def sliceDone (s : State) (engine : Bool) (q : Nat) (r : SliceResult) : State :=
  match s.sliceOf engine q with
  | none => s
  | some x =>
    if !s.fenced x then s
    else if !r.memFail ∧ r.sig = Config.bistSig engine x.set then s.slicePass x else s.sliceFail x r.sig

/-- SLICE_TIMEOUT: more than 5 ms; a FULL run of a spare has no limit (R395, R399). -/
def sliceTimeout (s : State) (engine : Bool) (q : Nat) : State :=
  match s.sliceOf engine q with
  | none => s
  | some x =>
    if x.set = 2 then s
    else
      let s := ((s.inc R.BIST_ABANDONED).inc R.BIST_UNTESTED).setLast x.engine x.unit 3
      let s := (s.sliceEnd x).sliceReturn x
      if x.cmd then s.cmdEnd F.BIST_BIST_STAT_ABANDONED else s

/-- A slice of the rotation that has not run when the next falls due: the unit is untested (R396). -/
def dropWaiting (s : State) (engine : Bool) (q : Nat) : State :=
  (s.bist.waiting.filter fun x => x.engine == engine && x.q == q).foldl (fun (t : State) x =>
    let t := { t with bist := { t.bist with waiting := t.bist.waiting.erase x } }
    let t := t.setLast engine x.unit 3
    if x.cmd then t.cmdEnd F.BIST_BIST_STAT_ABANDONED else (t.inc R.BIST_UNTESTED).slotNext engine q) s

/-- Rotation set: SHORT or STD. -/
def rotSet (s : State) : Nat := if s.fld R.BIST_BIST_CTL F.BIST_BIST_CTL_ROT_SET = 0 then 0 else 1

/-- ROTATION_SLICE_DUE. -/
def sliceDue (s : State) (engine : Bool) (q : Nat) : State :=
  if !s.on R.BIST_BIST_CTL F.BIST_BIST_CTL_ROT_EN || !s.on R.BIST_BIST_STAT F.BIST_BIST_STAT_BOOT_DONE || s.inReset
      || (s.sliceOf engine q).isSome then s
  else
    let s := s.dropWaiting engine q
    let slot := s.fld (R.BIST_ROT_STAT q) (if engine then F.BIST_ROT_STAT_ENG_SLOT else F.BIST_ROT_STAT_CTRL_SLOT)
    match s.unitAt engine q slot with
    | none => (s.inc R.BIST_UNTESTED).slotNext engine q
    | some u => s.sliceTry { engine, q, slot, unit := u, set := s.rotSet, second := false, cmd := false, retest := false, swapped := false }

/-- SLICE_RETRY: a deferred slice is tried again; a failed try is another deferral. -/
def sliceRetry (s : State) (engine : Bool) (q : Nat) : State :=
  match s.bist.waiting.find? fun x => x.engine == engine && x.q == q && x.deferred with
  | none => s
  | some x => { s with bist := { s.bist with waiting := s.bist.waiting.erase x } }.sliceTry x

/-- BIST_CMD with START (R399). -/
def bistCmd (s : State) (v : Word) : State :=
  let u := F.BIST_BIST_CMD_UNIT.get v
  let engine := decide (F.BIST_BIST_CMD_CLASS.get v = 1)
  if F.BIST_BIST_CMD_START.get v ≠ 1 ∨ s.on R.BIST_BIST_STAT F.BIST_BIST_STAT_BUSY ∨ 36 ≤ u then s
  else
    let set := bistSet (F.BIST_BIST_CMD_SET.get v)
    let set := if set = 2 ∧ !s.inPlace engine u then 1 else set
    let clr := fun (t : State) (f : Fld) => t.flag R.BIST_BIST_STAT f false
    let s := clr (clr (clr s F.BIST_BIST_STAT_PASS) F.BIST_BIST_STAT_FAIL) F.BIST_BIST_STAT_ABANDONED
    if (if engine then s.engGone u else s.ctrlRetired u) then s.flag R.BIST_BIST_STAT F.BIST_BIST_STAT_ABANDONED true
    else (s.flag R.BIST_BIST_STAT F.BIST_BIST_STAT_BUSY true).sliceTry
      { engine, q := u / 9, slot := u % 9, unit := u, set, second := false, cmd := true, retest := false, swapped := false }

/-! ### Analogue checks (R398) -/

/-- SPARE_LANE_CHECK. -/
def spareLaneCheck (s : State) (g : Nat) (rx tx : Bool) : State :=
  if !s.on R.BIST_BIST_CTL F.BIST_BIST_CTL_ANA_EN then s
  else
    let l := s.spareLane .rx g
    if l = 15 ∨ l ≠ s.spareLane .tx g ∨ s.sparingRuns .rx g ∨ s.sparingRuns .tx g then s.inc R.BIST_LOOP_SKIPPED
    else
      let s := s.inc R.BIST_LOOP_RUNS
      let s := if rx || tx then s.inc R.BIST_LOOP_FAILS else s
      let n := if rx then SMap.get (fun _ => 0) s.bist.laneBad (2 * g) + 1 else 0
      let m := if tx then SMap.get (fun _ => 0) s.bist.laneBad (2 * g + 1) + 1 else 0
      let s := { s with bist := { s.bist with
          laneBad := SMap.set (fun _ => 0) (2 * g + 1) m (SMap.set (fun _ => 0) (2 * g) n s.bist.laneBad) } }
      if n < 2 then s
      else { s with bist := { s.bist with loopOut := g :: s.bist.loopOut.filter (· ≠ g) } }.put (s.grpStat .rx g)
        F.RXG_GRP_STAT_SPARE 15

/-- A spare via is retired: its record names it, and it is free no more (R393, R398). -/
def spareViaOut (s : State) (c p : Nat) (v : ViaId) : State :=
  { s with bist := { s.bist with viaOutAt := s.clk.up + 1 } }.recordStep (resOfVia c p v) 3 0 |>.countSpares (2 * c + p) v.ca

/-- SPARE_VIA_CHECK of a free spare. -/
def spareViaCheck (s : State) (c p : Nat) (v : ViaId) (fail : Bool) : State :=
  let first := if v.ca then 14 else 36
  if !s.on R.BIST_BIST_CTL F.BIST_BIST_CTL_ANA_EN || decide (v.via.toNat < first) || !s.pchLive (2 * c + p)
      || !s.spareFree (2 * c + p) v.ca (v.via.toNat - first) then s
  else
    let k := (resOfVia c p v).toNat
    let n := if fail then SMap.get (fun _ => 0) s.bist.viaBad k + 1 else 0
    let s := s.inc R.BIST_CONT_RUNS
    let s := if fail then s.inc R.BIST_CONT_FAILS else s
    let s := { s with bist := { s.bist with viaBad := SMap.set (fun _ => 0) k n s.bist.viaBad } }
    if n < 2 then s
    else s.spareViaOut c p v

end State
end Sys2Proof.Machine
end

