-- ==== Sys2Proof/Machine/Crypto.lean ====
section
/-! DEFINITION. The algorithms that the manual names for identity and security: SHA-384 (FIPS 180-4), HMAC (FIPS 198-1), the
key derivation in counter mode (NIST SP 800-108) and ECDSA on P-384 (FIPS 186-5) (R381 to R383). A digest, key or signature is
a number whose most significant byte is its first byte. -/

namespace Sys2Proof.Machine

/-! ### SHA-384 -/

/-- Round constants: the first 64 bits of the fractional parts of the cube roots of the first eighty primes. -/
def shaK : List (BitVec 64) :=
  [0x428A2F98D728AE22, 0x7137449123EF65CD, 0xB5C0FBCFEC4D3B2F, 0xE9B5DBA58189DBBC, 0x3956C25BF348B538,
   0x59F111F1B605D019, 0x923F82A4AF194F9B, 0xAB1C5ED5DA6D8118, 0xD807AA98A3030242, 0x12835B0145706FBE,
   0x243185BE4EE4B28C, 0x550C7DC3D5FFB4E2, 0x72BE5D74F27B896F, 0x80DEB1FE3B1696B1, 0x9BDC06A725C71235,
   0xC19BF174CF692694, 0xE49B69C19EF14AD2, 0xEFBE4786384F25E3, 0x0FC19DC68B8CD5B5, 0x240CA1CC77AC9C65,
   0x2DE92C6F592B0275, 0x4A7484AA6EA6E483, 0x5CB0A9DCBD41FBD4, 0x76F988DA831153B5, 0x983E5152EE66DFAB,
   0xA831C66D2DB43210, 0xB00327C898FB213F, 0xBF597FC7BEEF0EE4, 0xC6E00BF33DA88FC2, 0xD5A79147930AA725,
   0x06CA6351E003826F, 0x142929670A0E6E70, 0x27B70A8546D22FFC, 0x2E1B21385C26C926, 0x4D2C6DFC5AC42AED,
   0x53380D139D95B3DF, 0x650A73548BAF63DE, 0x766A0ABB3C77B2A8, 0x81C2C92E47EDAEE6, 0x92722C851482353B]
  ++ [0xA2BFE8A14CF10364, 0xA81A664BBC423001, 0xC24B8B70D0F89791, 0xC76C51A30654BE30, 0xD192E819D6EF5218,
   0xD69906245565A910, 0xF40E35855771202A, 0x106AA07032BBD1B8, 0x19A4C116B8D2D0C8, 0x1E376C085141AB53,
   0x2748774CDF8EEB99, 0x34B0BCB5E19B48A8, 0x391C0CB3C5C95A63, 0x4ED8AA4AE3418ACB, 0x5B9CCA4F7763E373,
   0x682E6FF3D6B2B8A3, 0x748F82EE5DEFB2FC, 0x78A5636F43172F60, 0x84C87814A1F0AB72, 0x8CC702081A6439EC,
   0x90BEFFFA23631E28, 0xA4506CEBDE82BDE9, 0xBEF9A3F7B2C67915, 0xC67178F2E372532B, 0xCA273ECEEA26619C,
   0xD186B8C721C0C207, 0xEADA7DD6CDE0EB1E, 0xF57D4F7FEE6ED178, 0x06F067AA72176FBA, 0x0A637DC5A2C898A6,
   0x113F9804BEF90DAE, 0x1B710B35131C471B, 0x28DB77F523047D84, 0x32CAAB7B40C72493, 0x3C9EBE0A15C9BEBC,
   0x431D67C49C100D4C, 0x4CC5D4BECB3E42B6, 0x597F299CFC657E2A, 0x5FCB6FAB3AD6FAEC, 0x6C44198C4A475817]

/-- Initial hash value of SHA-384. -/
def shaInit : List (BitVec 64) :=
  [0xCBBB9D5DC1059ED8, 0x629A292A367CD507, 0x9159015A3070DD17, 0x152FECD8F70E5939, 0x67332667FFC00B31,
   0x8EB44A8768581511, 0xDB0C2E0D64F98FA7, 0x47B5481DBEFA4FA4]

/-- Extend a message schedule, newest word first, by `n` words. -/
def shaExtend : Nat → List (BitVec 64) → List (BitVec 64)
  | 0, w => w
  | n + 1, w =>
    let w2 := w.getD 1 0
    let w15 := w.getD 14 0
    let s1 := w2.rotateRight 19 ^^^ w2.rotateRight 61 ^^^ (w2 >>> 6)
    let s0 := w15.rotateRight 1 ^^^ w15.rotateRight 8 ^^^ (w15 >>> 7)
    shaExtend n ((s1 + w.getD 6 0 + s0 + w.getD 15 0) :: w)

/-- One round on the eight working variables. -/
def shaRound (v : List (BitVec 64)) (kw : BitVec 64) : List (BitVec 64) :=
  match v with
  | [a, b, c, d, e, f, g, h] =>
    let t1 := h + (e.rotateRight 14 ^^^ e.rotateRight 18 ^^^ e.rotateRight 41) + ((e &&& f) ^^^ (~~~e &&& g)) + kw
    let t2 := (a.rotateRight 28 ^^^ a.rotateRight 34 ^^^ a.rotateRight 39) + ((a &&& b) ^^^ (a &&& c) ^^^ (b &&& c))
    [t1 + t2, a, b, c, d + t1, e, f, g]
  | _ => v

/-- The hash value after a block of 128 bytes. -/
def shaBlock (h : List (BitVec 64)) (block : List Nat) : List (BitVec 64) :=
  let w := (List.range 16).map fun i => BitVec.ofNat 64 (natBE ((block.drop (8 * i)).take 8))
  let ws := (shaExtend 64 w.reverse).reverse
  List.zipWith (· + ·) h ((List.zipWith (· + ·) shaK ws).foldl shaRound h)

/-- The padded message. -/
def shaPad (l : List Nat) : List Nat := l ++ [0x80] ++ List.replicate ((239 - l.length % 128) % 128) 0 ++ bytesBE 16 (8 * l.length)

/-- SHA-384 of a byte string. -/
def sha384 (l : List Nat) : BitVec 384 :=
  let m := shaPad l
  let h := ((List.range (m.length / 128)).map fun i => (m.drop (128 * i)).take 128).foldl shaBlock shaInit
  BitVec.ofNat 384 (natBE ((h.take 6).flatMap fun x => bytesBE 8 x.toNat))

/-- The bytes of a digest or a key. -/
def bytes384 (d : BitVec 384) : List Nat := bytesBE 48 d.toNat

/-! ### HMAC and key derivation -/

/-- HMAC-SHA-384, for keys of at most one block. -/
def hmac (key msg : List Nat) : BitVec 384 :=
  let k := key ++ List.replicate (128 - key.length) 0
  sha384 ((k.map (· ^^^ 0x5C)) ++ bytes384 (sha384 ((k.map (· ^^^ 0x36)) ++ msg)))

/-- Key derivation in counter mode, 448 bits of output: two iterations, whose 768 bits are cut (R381). The lengths of counter and
output length SP 800-108 leaves to its use (assumption 5). -/
def kdf (secret : BitVec 256) (label context : List Nat) : BitVec 448 :=
  let one := fun i =>
    bytes384 (hmac (bytesBE 32 secret.toNat) (Config.kdfCounter i ++ label ++ [0] ++ context ++ Config.kdfLength))
  BitVec.ofNat 448 (natBE ((one 1 ++ one 2).take 56))

/-! ### P-384 -/

/-- The field, the curve y² = x³ − 3x + b and its order. -/
def p384 : Nat := 2 ^ 384 - 2 ^ 128 - 2 ^ 96 + 2 ^ 32 - 1
def p384B : Nat :=
  0xB3312FA7E23EE7E4988E056BE3F82D19181D9C6EFE8141120314088F5013875AC656398D8A2ED19D2A85C8EDD3EC2AEF
def p384Order : Nat :=
  0xFFFFFFFFFFFFFFFFFFFFFFFFFFFFFFFFFFFFFFFFFFFFFFFFC7634D81F4372DDF581A0DB248B0A77AECEC196ACCC52973

/-- The power of a number modulo `m`, over the low `n` bits of the exponent. -/
def powMod (m : Nat) : Nat → Nat → Nat → Nat
  | 0, _, _ => 1
  | n + 1, a, e => (if e % 2 = 1 then a else 1) * powMod m n (a * a % m) (e / 2) % m

/-- The inverse modulo a prime of 384 bits. -/
def invMod (m a : Nat) : Nat := powMod m 384 (a % m) (m - 2)

/-- The sum of two points; none is the point at infinity. -/
def ecAdd : Option (Nat × Nat) → Option (Nat × Nat) → Option (Nat × Nat)
  | none, q => q
  | q, none => q
  | some (x, y), some (u, v) =>
    if x = u ∧ (y + v) % p384 = 0 then none
    else
      let k := if x = u then 3 * (x * x + p384 - 1) * invMod p384 (2 * y) else (v + p384 - y) * invMod p384 (u + p384 - x)
      let z := (k * k + 2 * p384 - x - u) % p384
      some (z, (k * (x + p384 - z) + p384 - y) % p384)

/-- The multiple of a point by the low `n` bits of a number. -/
def ecMul : Nat → Nat → Option (Nat × Nat) → Option (Nat × Nat)
  | 0, _, _ => none
  | n + 1, k, q => ecAdd (if k % 2 = 1 then q else none) (ecMul n (k / 2) (ecAdd q q))

/-- The base point. -/
def p384G : Option (Nat × Nat) :=
  some (0xAA87CA22BE8B05378EB1C71EF320AD746E1D3B628BA79B9859F741E082542A385502F25DBF55296C3A545E3872760AB7,
    0x3617DE4A96262C6F5D9E98BF9292DC29F8F41DBD289A147CE9DA3113B5F0B8C00A60B1CE1D7E819D7A431D7C90EA0E5F)

/-- The number of a point's coordinates, X then Y. -/
def pointBits (q : Option (Nat × Nat)) : BitVec 768 :=
  match q with
  | none => 0
  | some (x, y) => BitVec.ofNat 384 x ++ BitVec.ofNat 384 y

/-- The public key of a private key. -/
def publicKey (d : BitVec 384) : BitVec 768 := pointBits (ecMul 384 d.toNat p384G)

/-- A public key is a point of the curve. -/
def keyOnCurve (k : BitVec 768) : Bool :=
  let x := k.toNat / 2 ^ 384
  let y := k.toNat % 2 ^ 384
  decide (x < p384 ∧ y < p384 ∧ y * y % p384 = (x * x * x + 3 * (p384 - x) + p384B) % p384)

/-- Does the signature r then s of a digest verify under a public key? -/
def ecdsaVerify (key : BitVec 768) (digest : BitVec 384) (sig : BitVec 768) : Bool :=
  let r := sig.toNat / 2 ^ 384
  let t := sig.toNat % 2 ^ 384
  if !keyOnCurve key || decide (r = 0 ∨ p384Order ≤ r ∨ t = 0 ∨ p384Order ≤ t) then false
  else
    let w := invMod p384Order t
    match ecAdd (ecMul 384 (digest.toNat * w % p384Order) p384G)
      (ecMul 384 (r * w % p384Order) (some (key.toNat / 2 ^ 384, key.toNat % 2 ^ 384))) with
    | none => false
    | some (x, _) => x % p384Order == r

/-- The signature of a digest by a private key with a nonce. -/
def ecdsaSign (key digest nonce : BitVec 384) : BitVec 768 :=
  let r := ((ecMul 384 nonce.toNat p384G).map Prod.fst).getD 0 % p384Order
  BitVec.ofNat 384 r ++ BitVec.ofNat 384 (invMod p384Order nonce.toNat * (digest.toNat + r * key.toNat) % p384Order)

/-- A private key, or a nonce, from extra bits: between 1 and the order less 1 (FIPS 186-5, A.2.1, R381). -/
def scalarOf (c : Nat) : BitVec 384 := BitVec.ofNat 384 (c % (p384Order - 1) + 1)

end Sys2Proof.Machine
end

