-- ==== Sys2Proof/Machine/Flash.lean ====
section
/-! DEFINITION. The SPI flash: bytes, page programs and erases, and their counters (R418, R419, R421, R428). -/

namespace Sys2Proof.Machine
namespace State

/-- A byte of the flash; an erased one reads 0xFF. -/
def flashByte (s : State) (a : Nat) : Byte := SMap.get (fun _ => 0xFF) s.mgmt.flash a

/-- The bytes from `a` on. -/
def flashBytes (s : State) (a n : Nat) : List Nat := (List.range n).map fun i => (s.flashByte (a + i)).toNat

/-- A flash answers the ID command (R418). -/
def flashPresent (s : State) : Bool := s.on R.SPI_SPI_STAT F.SPI_SPI_STAT_PRESENT

/-- Count bytes read, in KiB. -/
def flashRead (s : State) (n : Nat) : State :=
  let m := s.mgmt.readLeft + n
  { s with mgmt := { s.mgmt with readLeft := m % 1024 } }.inc R.SPI_READ_KB (m / 1024)

/-- Bytes that programming at `a` leaves: a bit can only go from 1 to 0. -/
def programBytes (m : SMap Byte) : Nat → List Nat → SMap Byte
  | _, [] => m
  | a, b :: l => programBytes (SMap.upd (fun _ => 0xFF) a (· &&& BitVec.ofNat 8 b) m) (a + 1) l

/-- Page programs that cover `n` bytes from `a`. -/
def pagesOver (a n : Nat) : Nat := if n = 0 then 0 else (a + n - 1) / 256 - a / 256 + 1

/-- Program bytes in pages of 256 (R418). -/
def flashProgram (s : State) (a : Nat) (bytes : List Nat) : State :=
  { s with mgmt := { s.mgmt with flash := programBytes s.mgmt.flash a bytes } }.inc R.SPI_PROGRAMS (pagesOver a bytes.length)

/-- Erase the block of `n` bytes that holds `a`. -/
def flashErase (s : State) (a n : Nat) : State :=
  { s with mgmt := { s.mgmt with
      flash := SMap.erase (fun k => decide (a / n * n ≤ k ∧ k < a / n * n + n)) s.mgmt.flash } }.inc R.SPI_ERASES

/-- Firmware runs and answers. -/
def fwRunning (s : State) : Bool := s.on R.MGMT_GONDOLA_STAT F.MGMT_GONDOLA_STAT_FW_RUNNING

end State
end Sys2Proof.Machine
end

