-- ==== Sys2Proof/Machine/Fuses.lean ====
section
/-! DEFINITION. The OTP array: words and their code, regions, slots and locks, and what the shadows give: slot words, the
TRIM words, the lifecycle state (R365 to R369, R375). -/

namespace Sys2Proof.Machine

/-! ### Words (R365) -/

/-- The 39 bits that store a value: its check bits above it; a blank word stores value 0 (DESIGN CHOICE, assumption 131: the
extended Hamming code). -/
def otpEncode (d : Word) : BitVec 39 := BitVec.ofNat 7 (eccCheck 32 6 d.toNat) ++ d

/-- Decode 39 bits: the value and whether a bit was corrected; none when uncorrectable. -/
def otpDecode (x : BitVec 39) : Option (Word × Bool) :=
  match eccDecode 32 6 (x.extractLsb' 0 32).toNat (x.extractLsb' 32 7).toNat with
  | .clean d => some (BitVec.ofNat 32 d, false)
  | .fixed d => some (BitVec.ofNat 32 d, true)
  | .bad => none

/-! ### Regions and slots (R366, R386) -/

/-- The region of a word, as INTEG_STAT numbers it. -/
def otpRegion (w : Nat) : Nat :=
  if w < 0x40 then 0 else if w < 0x140 then 1 else if w < 0x340 then 2 else if w < 0x3C0 then 4
  else if w < 0x3E0 then 5 else if w < 0x3F0 then 6 else if w < 0x400 then 7 else 3

/-- The lockable regions, as SLOT_STAT numbers them: ID, TRIM, REPAIR_MFG, KEYS, SECRET. -/
def lockable : List Nat := [0, 1, 2, 3, 4]
/-- Words of a slot. -/
def slotLen (r : Nat) : Nat := ([32, 128, 256, 64, 16] : List Nat).getD r 0
/-- First word of slot A (0) or B (1). -/
def slotBase (r ab : Nat) : Nat := ([0, 0x40, 0x140, 0x340, 0x3C0] : List Nat).getD r 0 + slotLen r * ab
/-- Its lock word. -/
def lockWord (r ab : Nat) : Nat := 0x3F0 + 2 * r + ab
/-- The region number of a lockable region. -/
def lockableRegion (r : Nat) : Nat := ([0, 1, 2, 4, 5] : List Nat).getD r 0

/-- The lockable region and slot of a word. -/
def slotOf (w : Nat) : Option (Nat × Nat) :=
  (lockable.flatMap fun r => [(r, 0), (r, 1)]).find? fun x => slotBase x.1 x.2 ≤ w && w < slotBase x.1 x.2 + slotLen x.1

/-- The value that a transition word holds (R375). -/
def lifeWord (n : Nat) : Word := BitVec.ofNat 32 (0x5A000000 + n)

/-- Bytes of words, each little-endian (R368). -/
def wordBytes (l : List Word) : List Nat := (l.map fun w => bytesLE 4 w.toNat).flatten

namespace State

/-! ### Values in use -/

def otpStored (s : State) (w : Nat) : BitVec 39 := SMap.get (fun _ => 0) s.otp.array w
def otpShadow (s : State) (w : Nat) : Word := SMap.get (fun _ => 0) s.otp.shadow w
def otpFailed (s : State) (w : Nat) : Bool := s.otp.failed.contains w

/-- A slot is complete (R368). -/
def slotComplete (s : State) (r ab : Nat) : Bool :=
  let b := slotBase r ab
  let n := slotLen r
  (List.range n).all (fun i => !s.otpFailed (b + i))
    && (s.otpShadow (b + n - 1)).toNat == crc32c (wordBytes ((List.range (n - 1)).map fun i => s.otpShadow (b + i)))

/-- A slot's lock fuse as the boot found it. -/
def slotLocked (s : State) (r ab : Nat) : Bool :=
  s.otpFailed (lockWord r ab) || decide (s.otpShadow (lockWord r ab) ≠ 0)

/-- A slot's lock fuse as the controller checks it before programming: it also sees a fuse blown since the boot (R367). -/
def slotShut (s : State) (r ab : Nat) : Bool :=
  s.slotLocked r ab || match otpDecode (s.otpStored (lockWord r ab)) with | none => true | some d => decide (d.1 ≠ 0)

/-- The selected slot: 0 none, 1 A, 2 B (R369). -/
def slotSel (s : State) (r : Nat) : Nat :=
  if s.slotLocked r 1 && s.slotComplete r 1 then 2 else if s.slotLocked r 0 && s.slotComplete r 0 then 1 else 0

/-- The open slot (R369). -/
def openSlot (s : State) (r : Nat) : Option Nat :=
  if !s.slotShut r 0 then some 0 else if !s.slotShut r 1 then some 1 else none

/-- Word `i` of the selected slot of a region; 0 without one. -/
def slotWord (s : State) (r i : Nat) : Word :=
  if s.slotSel r = 0 then 0 else s.otpShadow (slotBase r (s.slotSel r - 1) + i)

def keysValid (s : State) : Bool := decide (s.slotSel 3 ≠ 0)

/-- The words of the TRIM region in use; none while the ROM defaults are (R366, R373). -/
def trimWords (s : State) : List Word := if s.slotSel 1 = 0 then [] else (List.range 127).map (s.slotWord 1)

/-- The boot read found the word not blank: a corrected word has a bit set (R365, R370). -/
def otpFilled (s : State) (w : Nat) : Bool :=
  decide (s.otpShadow w ≠ 0) || s.otpFailed w || s.otp.corrected.contains w || s.otp.partly.contains w

/-! ### Lifecycle (R375) -/

/-- A transition word is present. -/
def lifePresent (s : State) (n : Nat) : Bool := !s.otpFailed (0x3E0 + n) && s.otpShadow (0x3E0 + n) == lifeWord n

/-- LIFE fails its integrity check. -/
def lifeFailed (s : State) : Bool :=
  (List.range 16).any (fun n => s.otpFailed (0x3E0 + n))
    || (List.range 5).any (fun n => s.otpFilled (0x3E0 + n) && !s.lifePresent n)
    || ([1, 2, 3] : List Nat).any fun n => s.lifePresent n && !s.lifePresent (n - 1)

/-- The state that the LIFE words give; VOID when they fail (R373). -/
def lifeOf (s : State) : Nat :=
  if s.lifePresent 4 || s.lifeFailed then 5
  else if !s.lifePresent 0 then 0 else if !s.lifePresent 1 then 1 else if !s.lifePresent 2 then 2
  else if !s.lifePresent 3 then 3 else 4

/-- The lifecycle state in effect. -/
def life (s : State) : Nat := s.fld R.FUSE_LIFE_STAT F.FUSE_LIFE_STAT_STATE

/-- BLANK, TEST or RETURN. -/
def lifeOpen (s : State) : Bool := decide (s.life = 0 ∨ s.life = 1 ∨ s.life = 4)

end State
end Sys2Proof.Machine
end

