-- ==== Sys2Proof/Machine/Therm.lean ====
section
/-! DEFINITION. The thermal estimator, the sensors and the Vent, the power cap and the DVFS sequencer (R314 to R332,
R467). Temperatures are exact fractions of °C, powers mW, energies µJ. -/

namespace Sys2Proof.Machine

/-- Nodes with a heat capacity, the lid not among them. -/
def coreNodes : List Nat := List.range 96
/-- The lid. -/
def lidNode : Nat := 96

/-- A temperature as a register shows it: signed, in 0.125 °C, 12 bits (R337). -/
def eighths (t : Rat) : Nat := ((t * 8).floor % 4096).toNat
/-- A fraction as a register shows it: in 1/256, rounded down. -/
def parts256 (f : Rat) : Nat := (f * 256).floor.toNat

/-- Unit classes of a node for the static part, with how many of each (R317; class order of the coefficient table). -/
def staticUnits (i : Nat) : List (Nat × Nat) :=
  if 8 ≤ i ∧ i < 72 then [(0, 1)]
  else if 4 ≤ i ∧ i < 8 then [(1, 4)]
  else if 72 ≤ i ∧ i < 88 then
    (if i % 4 = 0 then [(5, 1)] else if i % 4 = 1 then [(2, 9)] else if i % 4 = 2 then [(3, 9)] else [(4, 8)])
  else if 88 ≤ i ∧ i < 92 then [(6, 4)]
  else if i = 92 then [(7, 1), (8, 1), (9, 1)]
  else if i = 93 then [(10, 1), (11, 1)]
  else if i = 94 then [(12, 1)]
  else []

/-- Event classes whose power the levers of R324 hold: column commands, engine clocks, cache bank accesses, core clocks. -/
def leverClass (c : Nat) : Bool := c == 1 || c == 2 || c == 4 || c == 5 || c == 7

/-- The class of an event, as COEF_SEL 0x200 + class numbers it (R319). -/
def eventClass : ActEvent → Nat
  | .activate _ _ => 0
  | .readColumn _ _ => 1
  | .writeColumn _ _ => 2
  | .refresh _ _ => 3
  | .engineClock _ => 4
  | .bankAccess _ => 5
  | .laneUI _ _ => 6
  | .coreClock _ => 7

/-- The node that an event's unit is mapped to (R317): of a die above the quadrant, of the engine row, of the cache bank, of
the lane group's SerDes sensor, of the crossbar. -/
def eventNode : ActEvent → Nat
  | .activate d q | .readColumn d q | .writeColumn d q | .refresh d q => 4 * (2 + d.val) + q.val
  | .engineClock e => 72 + 4 * (e.val / 9) + 2
  | .bankAccess b => 4 + b.val / 4
  | .laneUI d g => 88 + (if d = .tx then 2 else 0) + g.val / 4
  | .coreClock q => 72 + 4 * q.val

namespace State

def coef (s : State) (i : Nat) : Word := SMap.get Config.romCoef s.therm.coef i
def setModel (s : State) (i : Nat) (t : Rat) : State :=
  { s with therm := { s.therm with model := SMap.set (fun _ => 0) i t s.therm.model } }

/-! ### The model (R316 to R319) -/

/-- Conductances of a node: (other node, mW/°C). -/
def conductances (s : State) (i : Nat) : List (Nat × Rat) :=
  (List.range 256).filterMap fun n =>
    let w := (s.coef (0x100 + n)).toNat
    let a := w % 128
    let b := w / 128 % 128
    let g : Rat := (w / 2 ^ 14 : Nat)
    if a = b then none else if a = i then some (b, g) else if b = i then some (a, g) else none

/-- Dynamic power of a node in the step, and the part of it that the levers hold. -/
def dynamicPower (s : State) (l : List Activity) (i : Nat) (lever : Bool) : Rat :=
  l.foldl (fun (p : Rat) a =>
    if eventNode a.event = i ∧ (!lever || leverClass (eventClass a.event)) then
      p + (a.count.toNat : Rat) * ((s.coef (0x200 + eventClass a.event)).toNat : Rat) / 1000000
    else p) 0

/-- Static power of a node. -/
def staticPower (s : State) (i : Nat) : Rat :=
  ((staticUnits i).map fun u => (u.2 : Rat) * ((s.coef (0x300 + u.1)).toNat : Rat) / 1000).foldl (· + ·) 0
    * Config.pow2 ((s.modelT i - 75) / 25)

/-- One forward step of a node's temperature. -/
def stepNode (s : State) (p : Nat → Rat) (i : Nat) : Rat :=
  let flow := (s.conductances i).foldl (fun (f : Rat) e => f + e.2 * (s.modelT e.1 - s.modelT i)) 0
  s.modelT i + (p i + flow) / 100 / ((s.coef i).toNat : Rat)

/-- The lid that makes the mean of the die-15 nodes `m` after one step (R318). -/
def lidFor (s : State) (m : Rat) : Rat :=
  let k := fun (i : Nat) => 1 / 100 / ((s.coef i).toNat : Rat)
  let part := [68, 69, 70, 71].map fun i =>
    let gs := s.conductances i
    let a := gs.foldl (fun (f : Rat) e => if e.1 = lidNode then f - e.2 * s.modelT i else f + e.2 * (s.modelT e.1 - s.modelT i)) 0
    let b := gs.foldl (fun (f : Rat) e => if e.1 = lidNode then f + e.2 else f) 0
    (s.modelT i + (SMap.get (fun _ => 0) s.therm.power i + a) * k i, b * k i)
  let sa := part.foldl (fun (x : Rat) e => x + e.1) 0
  let sb := part.foldl (fun (x : Rat) e => x + e.2) 0
  if sb = 0 then s.modelT lidNode else (4 * m - sa) / sb

/-- The sensors that R319 lets a node start at, in their order of preference: its own, its layer's, the base die's. -/
def startSensors (i : Nat) : List (List Nat) :=
  [nodeSensors i, if i = lidNode then [] else (layerNodes (nodeLayer i)).flatMap nodeSensors, List.range 24]

/-- The nodes start at their sensors' first readings, or at the mean of their layer's or of the base die's; a broken sensor
gives none (R315, R319; DESIGN CHOICE, assumption 134). -/
def modelInit (s : State) : State :=
  let mean := fun (l : List Nat) => (l.map s.sensorT).foldl (· + ·) 0 / (l.length : Rat)
  (coreNodes ++ [lidNode]).foldl (fun (t : State) i =>
    t.setModel i (match ((startSensors i).map fun l => l.filter fun n => !s.therm.broken.contains n).find? (!·.isEmpty) with
      | some l => mean l
      | none => Config.modelStart i)) s

/-! ### Readings shown (R337) -/

/-- A sensor's status: 0 good, 1 suspect, 2 broken. -/
def sensorBroken (s : State) (n : Nat) : Bool := s.therm.broken.contains n
def sensorSuspect (s : State) (n : Nat) : Bool := s.therm.suspect.contains n

/-- THERM_STAT, THERM_STAT2 and LAYER_VENT. -/
def showTherm (s : State) : State :=
  let hot := s.therm.sampled
  let nodes := (coreNodes ++ [lidNode]).filter s.hasReading
  let best := nodes.foldl (fun (b : Nat × Rat) i => let r := s.nodeReading i; if b.2 < r then (i, r) else b)
    (nodes.headD 0, s.nodeReading (nodes.headD 0))
  let s := if hot then (s.put R.THERM_THERM_STAT F.THERM_THERM_STAT_HOTTEST (eighths best.2)).put R.THERM_THERM_STAT
      F.THERM_THERM_STAT_HOTTEST_NODE best.1 else s
  let s := s.put R.THERM_THERM_STAT2 F.THERM_THERM_STAT2_SUSPECT s.therm.suspect.length
  let s := s.put R.THERM_THERM_STAT2 F.THERM_THERM_STAT2_BROKEN s.therm.broken.length
  (List.range 18).foldl (fun (t : State) l =>
    (t.put (R.THERM_LAYER_VENT l) F.THERM_LAYER_VENT_HOT (eighths (t.layerReading l))).put (R.THERM_LAYER_VENT l)
      F.THERM_LAYER_VENT_THERMAL (parts256 (t.layerFraction l))) s

/-! ### DVFS (R325, R331, R332, R467) -/

def dvPoint (s : State) : Nat := s.fld R.PWR_DVFS_STAT F.PWR_DVFS_STAT_POINT
def dvCeiling (s : State) : Nat := s.fld R.PWR_DVFS_STAT F.PWR_DVFS_STAT_CEILING
def p3Allow (s : State) : Bool := s.on R.PWR_DVFS_CTL F.PWR_DVFS_CTL_P3_ALLOW
def setVsel (s : State) (n : Nat) : State := s.put R.PWR_DVFS_STAT F.PWR_DVFS_STAT_VSEL n

/-- The ceiling of a base fraction. -/
def ceilingFor (s : State) (f : Rat) : Nat :=
  let c := if (4 / 5 : Rat) < f then 0 else if (3 / 5 : Rat) < f then 1 else if (2 / 5 : Rat) < f then 2 else 3
  if s.p3Allow then c else min c 2

/-- Without P3_ALLOW, P2 takes the place of P3 in the ceiling. -/
def ceilingAllow (s : State) : State :=
  if s.p3Allow || s.dvCeiling ≠ 3 then s else s.put R.PWR_DVFS_STAT F.PWR_DVFS_STAT_CEILING 2

/-- The point that the sequencer must reach. -/
def dvWanted (s : State) : Nat :=
  let n := max (s.fld R.PWR_DVFS_CTL F.PWR_DVFS_CTL_TARGET) s.dvCeiling
  if s.p3Allow then n else min n 2

/-- Start a transition; an upward one raises VSEL first. -/
def dvBegin (s : State) (dest : Nat) : State :=
  let s := { s with therm := { s.therm with trans := some (s.dvPoint, dest) } }.flag R.PWR_DVFS_STAT F.PWR_DVFS_STAT_BUSY true
  if dest < s.dvPoint then s.setVsel dest else s

/-- End the running transition without its switch. -/
def dvCancel (s : State) : State :=
  ({ s with therm := { s.therm with trans := none } }.flag R.PWR_DVFS_STAT F.PWR_DVFS_STAT_BUSY false).setVsel s.dvPoint

/-- The sequencer follows its demands: a lower one cancels an upward transition; one that failed waits UP_HOLD_MS. A
transition to P3 ends at P2 once P3_ALLOW is clear (R332). -/
def dvUpdate (s : State) : State :=
  let want := s.dvWanted
  let s := match s.therm.trans with
    | some (a, b) =>
        if b < a ∧ b < want then s.dvCancel
        else if a < b ∧ b < want then { s with therm := { s.therm with trans := some (a, want) } }
        else if b = 3 ∧ a < b ∧ !s.p3Allow then
          if a < 2 then { s with therm := { s.therm with trans := some (a, 2) } } else s.dvCancel
        else s
    | none => s
  match s.therm.trans with
  | some _ => s
  | none =>
    if s.dvPoint < want then s.dvBegin want
    else if want < s.dvPoint ∧ !s.therm.retry then s.dvBegin want
    else s

/-- The base fraction has changed: a lower ceiling acts at once, a higher one waits UP_HOLD_MS. -/
def ceilingStep (s : State) : State :=
  let c := s.ceilingFor (s.effFraction 0)
  if s.dvCeiling < c then
    ({ s with therm := { s.therm with upWait := false } }.put R.PWR_DVFS_STAT F.PWR_DVFS_STAT_CEILING c).dvUpdate
  else { s with therm := { s.therm with upWait := decide (c < s.dvCeiling) } }

/-- DVFS_UP_HOLD_EXPIRY: a higher ceiling has held; a failed upward transition is retried. -/
def upHold (s : State) : State :=
  let c := s.ceilingFor (s.effFraction 0)
  let s := if s.therm.upWait && decide (c < s.dvCeiling) then s.put R.PWR_DVFS_STAT F.PWR_DVFS_STAT_CEILING c else s
  { s with therm := { s.therm with upWait := false, retry := false } }.dvUpdate

/-- DVFS_CLOCK_SWITCH: the clocks switch; VSEL falls after a downward switch. -/
def clockSwitch (s : State) : State :=
  match s.therm.trans with
  | none => s
  | some (a, b) =>
    -- P3 is entered only while P3_ALLOW is set (R332)
    let dest := if b = 3 ∧ !s.p3Allow then max a 2 else b
    let s := { s with therm := { s.therm with trans := none } }
    let s := (s.put R.PWR_DVFS_STAT F.PWR_DVFS_STAT_POINT dest).flag R.PWR_DVFS_STAT F.PWR_DVFS_STAT_BUSY false
    ((s.setVsel dest).inc R.PWR_TRANSITIONS).dvUpdate

/-- Set VDD_FAULT; only its rise counts (R467). -/
def vddFault (s : State) : State :=
  let s := if s.on R.PWR_DVFS_STAT F.PWR_DVFS_STAT_VDD_FAULT then s else s.inc R.PWR_VDD_FAULTS
  s.flag R.PWR_DVFS_STAT F.PWR_DVFS_STAT_VDD_FAULT true

/-- DVFS_VSETTLE_TIMEOUT (up step 3). -/
def vsettleTimeout (s : State) : State :=
  match s.therm.trans with
  | none => s
  | some (a, b) =>
    if b < a then { s.dvCancel with therm := { s.dvCancel.therm with retry := true } }.vddFault else s

/-- A downward transition goes on from the point that a drop of VDD has forced, or has reached its end with it
(DEDUCED, assumption 144). -/
def dvForced (s : State) : State :=
  match s.therm.trans with
  | none => s
  | some (_, b) =>
    if s.dvPoint < b then { s with therm := { s.therm with trans := some (s.dvPoint, b) } }
    else (s.dvCancel.inc R.PWR_TRANSITIONS)

/-- VDD_UNDERVOLT: one point down at once, P3 only where it is allowed. -/
def undervolt (s : State) : State :=
  let s := match s.therm.trans with | some (a, b) => if b < a then s.dvCancel else s | none => s
  let dest := min (s.dvPoint + 1) (if s.p3Allow then 3 else 2)
  let s := (s.put R.PWR_DVFS_STAT F.PWR_DVFS_STAT_POINT (max s.dvPoint dest)).dvForced
  ({ s with therm := { s.therm with retry := true } }.vddFault)

/-! ### Power cap (R328 to R330) -/

def capW (s : State) : Nat := min 110 (max 50 (s.fld R.PWR_CAP_CTL F.PWR_CAP_CTL_CAP_W))
def capWindow (s : State) : Nat := min 100 (max 1 (s.fld R.PWR_CAP_CTL F.PWR_CAP_CTL_WINDOW_MS))
def capGuard (s : State) : Nat := max 2 (s.fld R.PWR_CAP_CTL F.PWR_CAP_CTL_GUARD_W)

/-- F_P after a step that drew `p` mW, `v` of it variable. -/
def powerFraction (s : State) (p v : Rat) : Rat :=
  let left : Rat := max (1 / 100) ((s.therm.window : Rat) - (s.therm.stepsGone : Rat) / 100)
  let allow := (s.therm.budget * (s.therm.window : Rat) - s.therm.used) / left
  let f := if 0 < v then s.therm.fp * (allow - (p - v)) / v else 1
  max (min (min f (s.therm.fp + 1 / 16)) 1) (1 / 256)

/-- CAP_STAT and PKG_POWER. -/
def showCap (s : State) : State :=
  let s := s.put R.PWR_CAP_STAT F.PWR_CAP_STAT_FRACTION (parts256 s.therm.fp)
  let s := s.flag R.PWR_CAP_STAT F.PWR_CAP_STAT_LIMITING (decide (s.therm.fp < 1))
  let s := s.put R.PWR_CAP_STAT F.PWR_CAP_STAT_USED_MJ (min 65535 (s.therm.used / 1000).floor.toNat)
  s.put R.PWR_PKG_POWER F.PWR_PKG_POWER_NOW (min 65535 (s.therm.pkg / 100).floor.toNat)

/-- The energy of a step is counted; F_P follows (R329). -/
def capStep (s : State) (sum lever : Rat) : State :=
  let p := sum * s.therm.k
  let e := p / 100
  let mj := (s.therm.energy / 1000).floor.toNat
  let s := { s with therm := { s.therm with
      pkg := p, variable_ := lever * s.therm.k, used := s.therm.used + e, energy := s.therm.energy + e
      stepsGone := s.therm.stepsGone + 1, roundUsed := s.therm.roundUsed + sum / 100, roundSteps := s.therm.roundSteps + 1 } }
  let s := s.inc64 R.PWR_ENERGY_LO ((s.therm.energy / 1000).floor.toNat - mj)
  { s with therm := { s.therm with fp := s.powerFraction p s.therm.variable_ } }.showCap

/-- CAP_WINDOW_START: CAP_CTL takes effect, used energy returns to 0 (R328). -/
def capWindowStart (s : State) : State :=
  let mean := if s.therm.stepsGone = 0 then 0 else (s.therm.used / (s.therm.stepsGone : Rat)).floor.toNat
  let s := s.put R.PWR_PKG_POWER F.PWR_PKG_POWER_LAST_WINDOW (min 65535 mean)
  { s with therm := { s.therm with
      used := 0, stepsGone := 0, window := s.capWindow
      budget := ((1000 * (s.capW - s.capGuard) : Nat) : Rat) } }.showCap

/-! ### The estimator step (R317, R323, R326) -/

def tripSteps (s : State) : Nat := max 1 (s.fld R.THERM_MODEL_CTL F.THERM_MODEL_CTL_TRIP_STEPS)

/-- Steps in a row with a node's model at its shutdown point. -/
def countHot (s : State) : State :=
  { s with therm := { s.therm with
      hotSteps := coreNodes.foldl (fun m i =>
        if (ventTrip (nodeLayer i) : Rat) ≤ s.modelT i then SMap.upd (fun _ => 0) i (· + 1) m
        else SMap.set (fun _ => 0) i 0 m) s.therm.hotSteps } }

/-- A trip condition of R326 holds. -/
def tripCond (s : State) : Bool :=
  (s.therm.sampled && (List.range 96).any fun n =>
    !s.sensorBroken n && !s.bist.adcRef && decide ((ventTrip (nodeLayer (sensorNode n)) : Rat) ≤ s.sensorT n))
    || coreNodes.any fun i => decide (s.tripSteps ≤ SMap.get (fun _ => 0) s.therm.hotSteps i)

/-- The thermal fraction of every layer (R323). -/
def ventStep (s : State) : State :=
  let f := (List.range 18).map fun l => (l, ventFraction (s.ventStart l) (s.ventFull l) (s.layerReading l))
  let s := { s with therm := { s.therm with frac := SMap.setAll (fun _ => 1) f [] } }
  if f.any fun e => decide (e.2 < 1) then s.inc64 R.THERM_THROTTLE_LO 10 else s

/-- The model takes one step with the node powers of the interval. -/
def modelStep (s : State) (l : List Activity) : State :=
  let p := fun (i : Nat) => s.dynamicPower l i false + s.staticPower i
  let ps := coreNodes.map fun i => (i, p i)
  let ts := coreNodes.map fun i => (i, s.stepNode p i)
  { s with therm := { s.therm with
      power := SMap.setAll (fun _ => 0) ps s.therm.power, model := SMap.setAll (fun _ => 0) ts s.therm.model } }

/-- ESTIMATOR_STEP. -/
def estimatorStep (s : State) (l : List Activity) : State :=
  if !s.therm.sampled || s.inReset || s.tripped then s
  else
    let s := (s.modelStep l).countHot
    let sum := coreNodes.foldl (fun (x : Rat) i => x + SMap.get (fun _ => 0) s.therm.power i) 0
    let lever := coreNodes.foldl (fun (x : Rat) i => x + s.dynamicPower l i true) 0
    ((((s.ventStep.capStep sum lever).refreshUp).ceilingStep).showTherm).tempTrain

/-! ### The housekeeping round (R314, R315, R318, R321, R398) -/

/-- Convert a sensor's code with its offset and gain of the TRIM region and its calibration adjustment. -/
def convert (s : State) (n : Nat) (code : BitVec 12) : Rat :=
  let adj := (SMap.get (fun _ => (0 : Word)) s.cal.sensor n).extractLsb' 0 8
  ((Config.sensorEighths s.trimWords n code + adj.toInt : Int) : Rat) / 8

/-- A code is valid: not open or shorted, and converted to −40 to 150 °C. -/
def codeValid (code : BitVec 12) (t : Rat) : Bool := decide (code ≠ 0 ∧ code ≠ 0xFFF ∧ -40 ≤ t ∧ t ≤ 150)

/-- One sensor of the round: broken at once, good again after 1,000 valid rounds. -/
def sampleSensor (s : State) (n : Nat) (code : BitVec 12) : State :=
  let t := s.convert n code
  let s := { s with therm := { s.therm with
      codes := SMap.set (fun _ => 0) n code.toNat s.therm.codes, temps := SMap.set (fun _ => 0) n t s.therm.temps } }
  if !codeValid code t then
    let s := if s.sensorBroken n then s
      else { s with therm := { s.therm with broken := n :: s.therm.broken } }.inc R.THERM_BROKEN_ENTRIES
    { s with therm := { s.therm with
        suspect := s.therm.suspect.filter (· ≠ n), goodFor := SMap.set (fun _ => 0) n 0 s.therm.goodFor
        offFor := SMap.set (fun _ => 0) n 0 s.therm.offFor, nearFor := SMap.set (fun _ => 0) n 0 s.therm.nearFor } }
  else if s.sensorBroken n then
    let g := SMap.get (fun _ => 0) s.therm.goodFor n + 1
    if 1000 ≤ g then { s with therm := { s.therm with
        broken := s.therm.broken.filter (· ≠ n), goodFor := SMap.set (fun _ => 0) n 0 s.therm.goodFor } }
    else { s with therm := { s.therm with goodFor := SMap.set (fun _ => 0) n g s.therm.goodFor } }
  else s

/-- The suspect test of a sensor (R321). -/
def suspectTest (s : State) (n : Nat) : State :=
  if s.sensorBroken n then s
  else
    let dis := max 1 (s.fld R.THERM_SUSPECT_CTL F.THERM_SUSPECT_CTL_DISAGREE_C)
    let agr := min dis (s.fld R.THERM_SUSPECT_CTL F.THERM_SUSPECT_CTL_AGREE_C)
    let dr := max 1 (s.fld R.THERM_SUSPECT_CTL F.THERM_SUSPECT_CTL_DISAGREE_ROUNDS)
    let ar := max 1 (s.fld R.THERM_SUSPECT_CTL2 F.THERM_SUSPECT_CTL2_AGREE_ROUNDS)
    let d := s.sensorT n - s.modelT (sensorNode n)
    let d := if d < 0 then -d else d
    let off := if (dis : Rat) < d then SMap.get (fun _ => 0) s.therm.offFor n + 1 else 0
    let near := if d ≤ (agr : Rat) then SMap.get (fun _ => 0) s.therm.nearFor n + 1 else 0
    let s := { s with therm := { s.therm with
        offFor := SMap.set (fun _ => 0) n off s.therm.offFor, nearFor := SMap.set (fun _ => 0) n near s.therm.nearFor } }
    if !s.sensorSuspect n && decide (dr ≤ off) then
      { s with therm := { s.therm with suspect := n :: s.therm.suspect } }.inc R.THERM_SUSPECT_ENTRIES
    else if s.sensorSuspect n && decide (ar ≤ near) then
      { s with therm := { s.therm with suspect := s.therm.suspect.filter (· ≠ n) } }
    else s

/-- The reference check of a round (R398). -/
def adcRound (s : State) (bg gnd : BitVec 12) : State :=
  let s := (s.put R.BIST_ADC_CTL F.BIST_ADC_CTL_BG_CODE bg.toNat).put R.BIST_ADC_CTL F.BIST_ADC_CTL_GND_CODE gnd.toNat
  if !s.on R.BIST_BIST_CTL F.BIST_BIST_CTL_ANA_EN then s
  else
    let tol := max 1 (s.fld R.BIST_ADC_CTL F.BIST_ADC_CTL_ADC_TOL)
    let off := fun (a b : Nat) => decide (tol < (a - b) + (b - a))
    if off bg.toNat (Config.bandgapCode s.trimWords).toNat || off gnd.toNat 0 then
      let s := s.inc R.BIST_ADC_BAD_ROUNDS
      let n := s.bist.adcBad + 1
      { s with bist := { s.bist with adcBad := n, adcGood := 0, adcRef := s.bist.adcRef || decide (3 ≤ n) } }
    else
      let n := s.bist.adcGood + 1
      { s with bist := { s.bist with adcBad := 0, adcGood := n, adcRef := s.bist.adcRef && decide (n < 1000) } }

/-- Recommended window of a rail in mV, the core rail's at the operating point (R449, R331). -/
def railLimits (s : State) (r : Nat) : Nat × Nat :=
  match r with
  | 0 => ([(776, 824), (698, 741), (640, 679), (601, 638)] : List (Nat × Nat)).getD s.dvPoint (0, 4095)
  | 1 => (728, 772) | 2 => (1140, 1260) | 3 => (1019, 1081) | 4 => (1710, 1890) | 5 => (380, 420) | _ => (1710, 1890)

/-- RAIL_MON of a rail from its codes; values hold while ADC_REF is set (R338, R398). -/
def railRound (s : State) (r : Nat) (v i : BitVec 12) : State :=
  if s.bist.adcRef then s
  else
    let mv := (Config.railMilli r v).toNat
    let s := s.put (R.PWR_RAIL_MON r) F.PWR_RAIL_MON_MV mv
    let s := s.put (R.PWR_RAIL_MON r) F.PWR_RAIL_MON_CURRENT (Config.railTens r i).toNat
    let lim := s.railLimits r
    s.flag (R.PWR_RAIL_MON r) F.PWR_RAIL_MON_OUT (decide (mv < lim.1 ∨ lim.2 < mv))

/-- Package power that the rail monitors show, mW. -/
def railPower (s : State) : Rat :=
  (List.range 7).foldl (fun (x : Rat) r =>
    x + ((s.fld (R.PWR_RAIL_MON r) F.PWR_RAIL_MON_MV * s.fld (R.PWR_RAIL_MON r) F.PWR_RAIL_MON_CURRENT : Nat) : Rat) / 100) 0

/-- K of the round (R318). -/
def kRound (s : State) : State :=
  let m := if s.therm.roundSteps = 0 then 0 else s.therm.roundUsed * 100 / (s.therm.roundSteps : Rat)
  let k := if m ≤ 0 ∨ s.bist.adcRef then s.therm.k else max (1 / 2) (min 2 (s.railPower / m))
  let s := { s with therm := { s.therm with k := k, roundUsed := 0, roundSteps := 0 } }
  s.put R.PWR_MODEL_CORR F.PWR_MODEL_CORR_K (k * 4096).floor.toNat

/-- The lid of the round (R318). -/
def lidRound (s : State) : State :=
  let good := ((List.range 4).map (92 + ·)).filter fun n => !s.sensorBroken n && !s.sensorSuspect n
  let s := s.flag R.THERM_THERM_STAT2 F.THERM_THERM_STAT2_BOUND_FALLBACK good.isEmpty
  if good.isEmpty then
    s.setModel lidNode ((s.fld R.THERM_MODEL_CTL F.THERM_MODEL_CTL_COOLANT_C : Nat) + Config.contactRise s.therm.pkg)
  else s.setModel lidNode (s.lidFor ((good.map s.sensorT).foldl (· + ·) 0 / (good.length : Rat)))

/-- ADC_REF makes every sensor count as broken (R398). -/
def adcRefSensors (s : State) : State :=
  if s.bist.adcRef then
    let new := (List.range 96).filter fun n => !s.sensorBroken n
    { s with therm := { s.therm with
        broken := s.therm.broken ++ new, suspect := [], offFor := [], nearFor := [], goodFor := [] } }.inc
      R.THERM_BROKEN_ENTRIES new.length
  else s

/-- Sensors, rails and the model's boundary at a round. -/
def thermRound (s : State) (codes : List (BitVec 12)) : State :=
  let code := fun (n : Nat) => codes.getD n 0
  let first := !s.therm.sampled
  let s := s.adcRound (code 110) (code 111)
  let s := (List.range 96).foldl (fun (t : State) n => t.sampleSensor n (code n)) s
  let s := s.adcRefSensors
  let s := (List.range 7).foldl (fun (t : State) r => t.railRound r (code (96 + 2 * r)) (code (97 + 2 * r))) s
  let s := if first then { s with therm := { s.therm with sampled := true } }.modelInit else s
  let s := if s.modelReady then (List.range 96).foldl (fun (t : State) n => t.suspectTest n) s else s
  let s := s.lidRound.kRound
  let s := if first then s.flag R.THERM_THERM_STAT2 F.THERM_THERM_STAT2_MODEL_READY true else s
  let s := if s.on R.PWR_CAP_STAT F.PWR_CAP_STAT_LIMITING then s.inc R.PWR_CAP_LIMITED_MS else s
  s.showTherm.tempTrain

end State
end Sys2Proof.Machine
end

