-- ==== Sys2Proof/Machine/Wear.lean ====
section
/-! DEFINITION. Bond wear and age: the rainflow counters, the wear record and its copies, the health ring and
YEARS_LEFT (R333 to R336, R339). -/

namespace Sys2Proof.Machine

/-- The bonded interfaces. -/
def interfaces : List Nat := List.range 17

/-- Life budget of an interface in reference cycles (R334). -/
def lifeBudget : Rat := 58440
/-- Life in equivalent seconds: 40 years of 8,766 h (R335). -/
def ageBudget : Rat := 40 * 8766 * 3600

/-- The absolute value of a temperature difference. -/
def absRat (x : Rat) : Rat := if x < 0 then -x else x

/-- Count a range as `halves` half cycles (R333). -/
def Wear.count (w : Wear) (minRange : Nat) (r : Rat) (halves : Nat) : Wear :=
  if (minRange : Rat) ≤ r then
    { w with
      damage := w.damage + (halves : Rat) / 2 * (r / 20 * (r / 20))
      cycles := w.cycles + halves, maxRange := max w.maxRange r }
  else w

/-- The while loop of R333; the residue has its newest point first. -/
def Wear.reduce (minRange : Nat) : Nat → Wear → Wear
  | 0, w => w
  | n + 1, w =>
    match w.residue with
    | a :: b :: c :: rest =>
      let x := absRat (a - b)
      let y := absRat (b - c)
      if x < y then w
      else match rest with
        | [] => { w.count minRange y 1 with residue := [a, b] }
        | _ => Wear.reduce minRange n { w.count minRange y 2 with residue := a :: rest }
    | _ => w

/-- Push a turning point and process it. -/
def Wear.push (w : Wear) (minRange : Nat) (t : Rat) : Wear :=
  let w := Wear.reduce minRange 64 { w with residue := t :: w.residue }
  if w.residue.length < 64 then w
  else match w.residue.reverse with
    | a :: b :: rest => { w.count minRange (absRat (a - b)) 1 with residue := (b :: rest).reverse }
    | _ => w

/-- A round's temperature: the first after boot is a turning point; later ones when it has reversed by HYST_C. -/
def Wear.take (w : Wear) (hyst minRange : Nat) (t : Rat) : Wear :=
  let w := { w with now := t }
  if !w.started then { w.push minRange t with started := true, ext := t, rising := true }
  else if w.residue.head? = some w.ext then
    -- no departure from the first point yet
    { w with ext := t, rising := decide (w.ext ≤ t) }
  else if w.rising then
    if w.ext ≤ t then { w with ext := t }
    else if (hyst : Rat) ≤ w.ext - t then { w.push minRange w.ext with rising := false, ext := t }
    else w
  else
    if t ≤ w.ext then { w with ext := t }
    else if (hyst : Rat) ≤ t - w.ext then { w.push minRange w.ext with rising := true, ext := t }
    else w

/-! ### Bytes of the wear record (R336) -/

/-- A temperature in 0.125 °C as a 16-bit number. -/
def eighths16 (t : Rat) : Nat := ((t * 8).floor % 65536).toNat

/-- The signed temperature that 16 bits give. -/
def ofEighths16 (n : Nat) : Rat :=
  (((if n < 32768 then (n : Int) else (n : Int) - 65536) : Int) : Rat) / 8

/-- Pad or cut a byte list to `n` bytes. -/
def padTo (n : Nat) (l : List Nat) : List Nat := (l ++ List.replicate n 0).take n

/-- The 160 bytes of an interface. -/
def Wear.bytes (w : Wear) : List Nat :=
  padTo 160 (bytesLE 8 (w.damage * 65536).floor.toNat ++ bytesLE 4 w.cycles ++ bytesLE 2 (eighths16 w.maxRange)
    ++ bytesLE 2 w.residue.length ++ padTo 128 ((w.residue.reverse.map fun t => bytesLE 2 (eighths16 t)).flatten))

/-- The counter that 160 bytes give. -/
def Wear.ofBytes (b : List Nat) : Wear :=
  let n := min 64 (natLE (b.drop 14 |>.take 2))
  { damage := (natLE (b.take 8) : Rat) / 65536, cycles := natLE (b.drop 8 |>.take 4)
    maxRange := ofEighths16 (natLE (b.drop 12 |>.take 2))
    residue := ((List.range n).map fun i => ofEighths16 (natLE (b.drop (16 + 2 * i) |>.take 2))).reverse }

/-- A body followed by its CRC-32C, little-endian. -/
def withCrc (l : List Nat) : List Nat := l ++ bytesLE 4 (crc32c l)

/-- The CRC at the end of a byte list holds. -/
def crcOk (l : List Nat) : Bool := decide (4 ≤ l.length) && natLE (l.drop (l.length - 4)) == crc32c (l.take (l.length - 4))

/-- A wear record that can be restored: 4,096 bytes with a good CRC. -/
def recordOk (l : List Nat) : Bool := decide (l.length = 4096) && crcOk l

/-- Flash copies of the wear record. -/
def wearCopy (i : Nat) : Nat := 0x450000 + 4096 * i

namespace State

def wear (s : State) (i : Nat) : Wear := SMap.get (fun _ => ({} : Wear)) s.therm.wear i
def setWear (s : State) (i : Nat) (w : Wear) : State :=
  { s with therm := { s.therm with wear := SMap.set (fun _ => ({} : Wear)) i w s.therm.wear } }

def wearHyst (s : State) : Nat := max 1 (s.fld R.STACK_WEAR_CTL F.STACK_WEAR_CTL_HYST_C)
def wearMin (s : State) : Nat := s.fld R.STACK_WEAR_CTL F.STACK_WEAR_CTL_MIN_RANGE_C
def alarmPct (s : State) : Nat := s.fld R.STACK_WEAR_CTL F.STACK_WEAR_CTL_ALARM_PCT

/-- A node as the wear counters take it: its model where a sensor is broken (R333). -/
def wearNode (s : State) (i : Nat) : Rat :=
  if (nodeSensors i).any s.therm.broken.contains then s.modelT i else s.nodeReading i

/-- Temperature of an interface. -/
def ifTemp (s : State) (i : Nat) : Rat :=
  let m := fun (q : Nat) => (s.wearNode (4 * i + q) + s.wearNode (4 * (i + 1) + q)) / 2
  maxRat 0 [m 0, m 1, m 2, m 3]

/-- Share of the life budget consumed, percent. -/
def wearShare (s : State) (i : Nat) : Rat := (s.wear i).damage * 100 / lifeBudget
def wearAlarm (s : State) : Bool := interfaces.any fun i => decide ((s.alarmPct : Rat) ≤ s.wearShare i)
def ageAlarm (s : State) : Bool := decide ((s.alarmPct : Rat) ≤ s.therm.age * 100 / ageBudget)

/-- WEAR_STAT and AGE. -/
def showWear (s : State) : State :=
  let best := interfaces.foldl (fun (b : Nat) i => if s.wearShare b < s.wearShare i then i else b) 0
  let s := s.put R.STACK_WEAR_STAT F.STACK_WEAR_STAT_WORST_IF best
  let s := s.put R.STACK_WEAR_STAT F.STACK_WEAR_STAT_WORST_PCT (min 127 (s.wearShare best).floor.toNat)
  let s := s.flag R.STACK_WEAR_STAT F.STACK_WEAR_STAT_ALARM (s.wearAlarm || s.ageAlarm)
  s.wr64 R.STACK_AGE_LO (BitVec.ofNat 64 s.therm.age.floor.toNat)

/-- Wear, age and the hour's peaks at a round (R333, R335, R336). -/
def wearRound (s : State) : State :=
  if !s.modelReady then s
  else
    let s := interfaces.foldl (fun (t : State) i => t.setWear i ((t.wear i).take t.wearHyst t.wearMin (t.ifTemp i))) s
    let base := s.layerReading 0
    let dram := maxRat 0 (dies.map s.dieReading)
    let a := Config.exp (8123 * (1 / (34815 / 100) - 1 / (base + 27315 / 100))) / 1000
    let p := s.therm.peaks
    { s with therm := { s.therm with
        age := s.therm.age + a
        peaks := [max (p.getD 0 base) base, max (p.getD 1 (s.layerReading 1)) (s.layerReading 1), max (p.getD 2 dram) dram]
        sumBase := s.therm.sumBase + base, rounds := s.therm.rounds + 1 } }.showWear

/-! ### Records -/

/-- The bytes of a wear record (R336). -/
def wearRecord (s : State) (seq : Nat) : List Nat :=
  withCrc (padTo 4092 (padTo 64 (bytesLE 8 seq ++ bytesLE 8 s.therm.age.floor.toNat ++ bytesLE 8 s.ts.toNat)
    ++ (interfaces.map fun i => (s.wear i).bytes).flatten))

/-- The keel mirrors that can be written: the valid ones, while the table is in effect and DRAM runs. -/
def keelMirrors (s : State) : List Bool := if s.place.laid && s.running then [false, true].filter s.mirrorOk else []

/-- A wear record goes to its copy of every mirror that can be written (R336). -/
def keelWear (s : State) (seq : Nat) (r : List Nat) : State :=
  let l := s.keelMirrors.map fun b => (2 * b.toNat + seq % 2, r)
  { s with therm := { s.therm with keelSave := SMap.setAll (fun _ => []) l s.therm.keelSave } }

/-- The flash copy of a wear record; `failed` says that it is not written. -/
def flashWear (s : State) (seq : Nat) (r : List Nat) (failed : Bool) : State :=
  let s := s.flashErase (wearCopy (seq % 2)) 4096
  if failed then s else s.flashProgram (wearCopy (seq % 2)) r

/-- Save the wear record in the flash and in both mirrors; `failed` says that the flash copy failed, and a mirror that cannot
be written fails its copy (R336; assumption 145). -/
def wearSave (s : State) (failed : Bool) : State :=
  let seq := s.therm.savedSeq + 1
  let r := s.wearRecord seq
  let bad := failed || decide (s.keelMirrors.length ≠ 2)
  let s := (s.flashWear seq r failed).keelWear seq r
  let s := { s with therm := { s.therm with savedSeq := seq, saveFailed := bad } }
  if bad then s.inc R.STACK_SAVE_FAILS else s.inc R.STACK_SAVES

/-- The wear record that a thermal trip writes, to the flash alone (R326). -/
def tripSave (s : State) : State :=
  let seq := s.therm.savedSeq + 1
  let s := s.flashWear seq (s.wearRecord seq) false
  { s with therm := { s.therm with savedSeq := seq } }.inc R.STACK_SAVES

/-- SAVE_NOW. -/
def saveNow (s : State) (v : Word) (failed : Bool) : State :=
  if F.STACK_WEAR_CTL_SAVE_NOW.get v = 1 ∧ !s.inReset then s.wearSave failed else s

/-- Remaining time in 0.1 years at the rate of the history, if that rate is not 0. -/
def yearsTenths (left : Rat) (hist : List Rat) : Option Nat :=
  match hist, hist.getLast? with
  | a :: _ :: _, some b =>
    let rate := (a - b) / ((hist.length - 1 : Nat) : Rat)
    if rate ≤ 0 then none else some (max 0 left / rate / 8766 * 10).floor.toNat
  | _, _ => none

/-- YEARS_LEFT: the least over the interfaces and AGE, each at the rate of the last 168 hours (R335). -/
def showLife (s : State) : State :=
  let l := interfaces.filterMap (fun i => yearsTenths (lifeBudget - (s.wear i).damage) (s.wear i).hist)
    ++ (yearsTenths (ageBudget - s.therm.age) s.therm.ageHist).toList
  s.wr R.STACK_LIFE (BitVec.ofNat 32 (l.foldl min 0xFFFF))

/-- The 64-byte record of the hour that ends; without a round in it, the readings are those of its end (R336). -/
def hourRecord (s : State) : List Nat :=
  let p := s.therm.peaks
  let mean := if s.therm.rounds = 0 then s.layerReading 0 else s.therm.sumBase / (s.therm.rounds : Rat)
  let us := (s.rd64 R.THERM_THROTTLE_LO).toNat - s.therm.throttledAt
  let ms := (s.rd R.PWR_CAP_LIMITED_MS).toNat - s.therm.cappedAt
  withCrc (padTo 60 (bytesLE 8 s.therm.hours ++ [s.fld R.HEALTH_HEALTH_STAT F.HEALTH_HEALTH_STAT_STATE, s.tripped.toNat]
    ++ bytesLE 2 (eighths16 (p.getD 0 (s.layerReading 0))) ++ bytesLE 2 (eighths16 (p.getD 1 (s.layerReading 1)))
    ++ bytesLE 2 (eighths16 (p.getD 2 (maxRat 0 (dies.map s.dieReading))))
    ++ bytesLE 2 (eighths16 mean) ++ bytesLE 4 ((s.therm.energy - s.therm.energyAt) / 3600000000).floor.toNat
    ++ bytesLE 4 (us / 1000000) ++ bytesLE 4 (ms / 1000)))

/-- An hour has passed: histories, the hour's record, YEARS_LEFT. -/
def hourMark (s : State) : State :=
  let s := { s with therm := { s.therm with hours := s.therm.hours + 1 } }
  let s := interfaces.foldl (fun (t : State) i =>
    t.setWear i { t.wear i with hist := ((t.wear i).damage :: (t.wear i).hist).take 169 }) s
  let r := s.hourRecord
  let ring := if !s.keelMirrors.isEmpty then
      SMap.set (fun _ => 0) (s.therm.hours % 16256) (BitVec.ofNat 512 (natLE r)) s.therm.ring
    else s.therm.ring
  { s with therm := { s.therm with
      ageHist := (s.therm.age :: s.therm.ageHist).take 169, ring := ring
      peaks := [], sumBase := 0, rounds := 0, energyAt := s.therm.energy
      throttledAt := (s.rd64 R.THERM_THROTTLE_LO).toNat, cappedAt := (s.rd R.PWR_CAP_LIMITED_MS).toNat } }.showLife

/-- WEAR_SAVE_HOURLY: the hour's mark, and the save while PERSIST_EN is set. -/
def wearHourly (s : State) (failed : Bool) : State :=
  if s.inReset then s
  else if s.on R.STACK_WEAR_CTL F.STACK_WEAR_CTL_PERSIST_EN then s.hourMark.wearSave failed else s.hourMark

/-- The newest of the valid copies: (sequence number, source, bytes), the source 1 flash or 2 keel. -/
def newestWear (src : Nat) (l : List (List Nat)) : Option (Nat × Nat × List Nat) :=
  match (l.filter recordOk).map fun b => (natLE (b.take 8), src, b) with
  | [] => none
  | a :: l => some (l.foldl (fun b y => if b.1 < y.1 then y else b) a)

/-- Take a valid copy into use: (sequence number, source, bytes). -/
def wearTake (s : State) (x : Nat × Nat × List Nat) : State :=
  let s := interfaces.foldl (fun (t : State) i =>
    t.setWear i { Wear.ofBytes ((x.2.2.drop (64 + 160 * i)).take 160) with
      now := (t.wear i).now }) s
  let s := { s with therm := { s.therm with
      age := (natLE ((x.2.2.drop 8).take 8) : Rat), savedSeq := x.1 } }
  (s.put R.STACK_WEAR_STAT F.STACK_WEAR_STAT_RESTORED x.2.1).showWear

/-- Boot step 11 with DRAM contents retained: the keel copy is used when it is newer than what step 7 restored. -/
def wearFromKeel (s : State) : State :=
  let copies := ([false, true].filter s.mirrorOk).flatMap fun b =>
    [0, 1].map fun i => SMap.get (fun _ => []) s.therm.keelSave (2 * b.toNat + i)
  match newestWear 2 copies with
  | some x => if s.therm.savedSeq < x.1 then s.wearTake x else s
  | none => s

/-- Boot step 7: the newest flash copy is restored; without one the counters start at 0 (R336). -/
def wearRestore (s : State) : State :=
  match newestWear 1 [s.flashBytes (wearCopy 0) 4096, s.flashBytes (wearCopy 1) 4096] with
  | none => s.put R.STACK_WEAR_STAT F.STACK_WEAR_STAT_RESTORED 0
  | some x => s.wearTake x

end State
end Sys2Proof.Machine
end

