-- ==== Sys2Proof/Machine/Otp.lean ====
section
/-! DEFINITION. The OTP controller: the boot read and integrity checks, programming, rereads, and the repair appender
(R370 to R374, R376 to R381, R386). -/

namespace Sys2Proof.Machine

namespace State

/-! ### Boot step 4: the read at three margins (R370) -/

/-- The reads of a word: those that differ, or its stored bits three times. -/
def otpReads (s : State) (odd : List OtpRead) (w : Nat) : BitVec 39 × BitVec 39 × BitVec 39 :=
  match odd.find? fun x => x.word.toNat == w with
  | some x => (x.normal, x.pgm, x.blank)
  | none => (s.otpStored w, s.otpStored w, s.otpStored w)

def otpMarginal (r : BitVec 39 × BitVec 39 × BitVec 39) : Bool := r.1 != r.2.1 || r.1 != r.2.2

/-- Read one word into the shadows; a partly programmed one is marginal or failed (R370, R372). -/
def otpReadWord (odd : List OtpRead) (s : State) (w : Nat) : State :=
  let r := s.otpReads odd w
  let s : State := if otpMarginal r || s.otp.partly.contains w then { s with otp := { s.otp with marginal := w :: s.otp.marginal } } else s
  match otpDecode r.1 with
  | none => { s with otp := { s.otp with failed := w :: s.otp.failed } }
  | some d => { s with otp := { s.otp with
      shadow := SMap.set (fun _ => 0) w d.1 s.otp.shadow
      corrected := if d.2 then w :: s.otp.corrected else s.otp.corrected } }

/-- Bits of regions that hold one of the words. -/
def regionMap (l : List Nat) : Nat := l.foldl (fun n w => n ||| 2 ^ otpRegion w) 0

/-- MARGINAL_CNT, CORR_WORDS and the marginal regions; the counters saturate (R386). -/
def showMarginal (s : State) : State :=
  let s := s.put R.FUSE_MARGINAL_CNT F.FUSE_MARGINAL_CNT_MARGINAL (min 4095 s.otp.marginal.length)
  let s := s.put R.FUSE_MARGINAL_CNT F.FUSE_MARGINAL_CNT_FAILED (min 4095 s.otp.failed.length)
  let s := s.put R.FUSE_CORR_WORDS F.FUSE_CORR_WORDS_COUNT (min 4095 s.otp.corrected.length)
  s.put R.FUSE_INTEG_STAT F.FUSE_INTEG_STAT_MARGINAL (regionMap s.otp.marginal)

/-- SLOT_STAT, the identity and the lifecycle state. -/
def showFuses (s : State) : State :=
  let slots := lockable.foldl (fun n r =>
    n + (s.slotSel r + (s.slotLocked r 0).toNat * 4 + (s.slotComplete r 0).toNat * 8 + (s.slotLocked r 1).toNat * 16
      + (s.slotComplete r 1).toNat * 32) * 2 ^ (6 * r)) 0
  let s := s.wr R.FUSE_SLOT_STAT (BitVec.ofNat 32 slots)
  let s := (s.wr R.FUSE_SERIAL_LO (s.slotWord 0 0)).wr (R.FUSE_SERIAL_LO + 4) (s.slotWord 0 1)
  let s := ([0, 1, 2, 3] : List Nat).foldl (fun (t : State) i => t.wr (R.FUSE_DIE_ID i) (t.slotWord 0 (6 + i))) s
  s.put R.FUSE_LIFE_STAT F.FUSE_LIFE_STAT_STATE s.lifeOf

/-- REPAIR_FIELD pairs used, torn pairs included (R379). -/
def pairsUsed (s : State) : Nat :=
  ((s.otp.array.map Prod.fst) ++ s.otp.partly).foldl (fun n w => if 0x400 ≤ w then max n ((w - 0x400) / 2 + 1) else n) 0

/-- APPEND_STAT. -/
def showAppend (s : State) : State :=
  let s := s.put R.FUSE_APPEND_STAT F.FUSE_APPEND_STAT_USED s.pairsUsed
  let s := s.put R.FUSE_APPEND_STAT F.FUSE_APPEND_STAT_PENDING s.otp.queue.length
  s.flag R.FUSE_APPEND_STAT F.FUSE_APPEND_STAT_FULL (decide (1536 ≤ s.pairsUsed))

/-- The whole array is read and every value in use is copied into the shadows (R370). The TOSC trim is applied. -/
def otpBootRead (s : State) (odd : List OtpRead) : State :=
  let ws := ((s.otp.array.map (·.1)) ++ s.otp.partly ++ odd.map fun x => x.word.toNat).eraseDups
  let s := { s with otp := { s.otp with shadow := [], marginal := [], failed := [], corrected := [] } }
  let s := ws.foldl (otpReadWord odd) s
  ((s.showMarginal.showFuses).showAppend).put R.CAL_TOSC_STAT F.CAL_TOSC_STAT_TRIM (Config.toscTrim s.trimWords).toNat

/-! ### Boot step 5: integrity (R373) -/

/-- Regions that fail. -/
def integMap (s : State) : Nat :=
  let l := (lockable.filter fun r => s.slotSel r == 0).map lockableRegion
  let l := if s.lifeFailed then 6 :: l else l
  let l := if (List.range 10).any fun i => s.otpFailed (0x3F0 + i) then 7 :: l else l
  let l := if s.otpFailed 0x400 then 3 :: l else l
  l.foldl (fun n r => n ||| 2 ^ r) 0

/-- A threshold 5 °C lower. -/
def lower5 (s : State) (a : Nat) (f : Fld) : State := s.put a f (s.fld a f - 5)

/-- The checks and what the boot ROM does on them, apart from a stop. -/
def integCheck (s : State) : State :=
  let m := s.integMap
  let s := s.put R.FUSE_INTEG_STAT F.FUSE_INTEG_STAT_FAILED m
  let s := s.flag R.FUSE_INTEG_STAT F.FUSE_INTEG_STAT_TRIM_DEFAULT (m.testBit 1)
  let s := s.flag R.SEC_SEC_STAT F.SEC_SEC_STAT_KEYS_VALID s.keysValid
  let s := if s.keysValid then s.wr R.SEC_MIN_SVN (BitVec.ofNat 32 ((s.slotWord 3 24).toNat % 2 ^ 16)) else s
  let s := s.flag R.SEC_SEC_STAT F.SEC_SEC_STAT_OWNER_REQUIRED (s.keysValid && s.slotWord 3 25 == 1)
  if m.testBit 1 && decide (s.life = 3) then
    (((s.lower5 R.THERM_THR_DRAM F.THERM_THR_DRAM_START_C).lower5 R.THERM_THR_DRAM F.THERM_THR_DRAM_FULL_C).lower5
      R.THERM_THR_BASE F.THERM_THR_BASE_START_C).lower5 R.THERM_THR_BASE F.THERM_THR_BASE_FULL_C
  else s

/-- Boot stops at step 5: LIFE failed, VOID, or KEYS failed in FIELD (R373, R376). -/
def integStops (s : State) : Bool := decide (s.life = 5) || (s.integMap.testBit 4 && decide (s.life = 3))

/-! ### Programming (R372) -/

/-- The conditions on supply, temperature and sensors (R372, R398). -/
def progCond (s : State) : Bool :=
  let mv := s.fld (R.PWR_RAIL_MON 6) F.PWR_RAIL_MON_MV
  let t := s.layerReading 0
  decide (1710 ≤ mv ∧ mv ≤ 1890 ∧ 0 ≤ t ∧ t ≤ 85) && s.modelReady && !s.bist.adcRef && decide (4 < s.bootStep)

/-- The lifecycle state lets PROG_CMD PROGRAM write the word (R376). -/
def progAllowed (s : State) (w : Nat) : Bool :=
  let r := otpRegion w
  if s.life ≤ 1 then decide (r ≤ 2) || decide (0x3F0 ≤ w ∧ w < 0x3F6)
  else if s.life = 2 then decide (r = 4) || decide (0x3F6 ≤ w ∧ w < 0x3FA)
  else false

def progLocked (s : State) (r : Nat) : Bool := s.bit R.LOCK_PROG_LOCK F.LOCK_PROG_LOCK_REGIONS r

/-- The slot of a word does not take program commands: locked, or not the open one. -/
def slotClosed (s : State) (w : Nat) : Bool :=
  match slotOf w with | none => false | some x => decide (s.openSlot x.1 ≠ some x.2)

def setResult (s : State) (n : Nat) : State := s.put R.FUSE_PROG_STAT F.FUSE_PROG_STAT_RESULT n

/-- A word can be programmed: no bit of it is set, and no aborted operation has reached it (R365, R372). -/
def otpBlank (s : State) (w : Nat) : Bool := decide (s.otpStored w = 0) && !s.otp.partly.contains w

/-- Start programming the words, after the checks that a command's caller adds; codes as PROG_STAT.RESULT. -/
def progStart (s : State) (allowed : Bool) (ws : List (Nat × Word)) : State :=
  if !allowed then s.setResult 2
  else if ws.any fun x => s.progLocked (otpRegion x.1) || s.slotClosed x.1 then s.setResult 3
  else if ws.any fun x => !s.otpBlank x.1 then s.setResult 5
  else if !s.progCond then s.setResult 4
  else { s with otp := { s.otp with op := some ⟨ws, false⟩ } }.flag R.FUSE_PROG_STAT F.FUSE_PROG_STAT_BUSY true


/-- The appender may write in this lifecycle state (R376). -/
def appendAllowed (s : State) : Bool := decide (s.life = 2 ∨ s.life = 3)

/-- REPAIR_APPEND: the oldest queued record starts at the next free pair once the conditions hold. -/
def repairAppend (s : State) : State :=
  match s.otp.queue with
  | [] => s
  | r :: _ =>
    let a := 0x400 + 2 * s.pairsUsed
    if s.otp.op.isSome || !s.progCond || !s.appendAllowed || 1536 ≤ s.pairsUsed then s
    else { s with otp := { s.otp with op := some ⟨[(a, r.1), (a + 1, r.2)], true⟩ } }.flag R.FUSE_PROG_STAT
      F.FUSE_PROG_STAT_BUSY true

/-- A PROG_CMD action is taken: the key is right and no programming runs. The appender goes first: a record that waits and
can be written has started, and BUSY is set (R372). -/
def progFirst (s : State) (key : BitVec 16) (go : State → State) : State :=
  if key ≠ 0x0F5E || s.otp.op.isSome then s
  else
    let s := s.repairAppend
    if s.otp.op.isSome then s else go s

/-- PROGRAM. -/
def progWord (s : State) (key : BitVec 16) : State :=
  s.progFirst key fun s =>
    let w := s.fld R.FUSE_PROG_ADDR F.FUSE_PROG_ADDR_WORD
    let v : Word := if otpRegion w = 7 then 0xC3C33C3C else s.rd R.FUSE_PROG_DATA
    s.progStart (s.progAllowed w) [(w, v)]

/-- The words of a new secret slot (R381). -/
def secretWords (base lock : Nat) (x : BitVec 256) : List (Nat × Word) :=
  let d := (List.range 8).map fun i => x.extractLsb' (32 * i) 32
  let body := d ++ List.replicate 7 0
  ((List.range 15).zip body).map (fun e => (base + e.1, e.2)) ++ [(base + 15, BitVec.ofNat 32 (crc32c (wordBytes body))), (lock, 0xC3C33C3C)]

/-- GEN_SECRET. -/
def genSecret (s : State) (key : BitVec 16) : State :=
  s.progFirst key fun s =>
    if s.life ≠ 2 then s.setResult 2
    else match s.openSlot 4 with
      | none => s.setResult 3
      | some ab =>
        let x := Config.scramble ((Config.random s.sec.draws).extractLsb' 0 256)
        { s with sec := { s.sec with draws := s.sec.draws + 1 } }.progStart true (secretWords (slotBase 4 ab) (lockWord 4 ab) x)

/-- LIFE_NEXT: the next transition word. -/
def lifeNext (s : State) (key : BitVec 16) : State :=
  s.progFirst key fun s => s.progStart (decide (s.life ≤ 3)) [(0x3E0 + s.life, lifeWord s.life)]

/-- LIFE_VOID. -/
def lifeVoid (s : State) (key : BitVec 16) : State :=
  s.progFirst key fun s => s.progStart (decide (2 ≤ s.life ∧ s.life ≤ 4)) [(0x3E4, lifeWord 4)]

/-- Store bits into the array: a bit can be set and never cleared. -/
def otpSet (s : State) (w : Nat) (x : BitVec 39) : State :=
  { s with otp := { s.otp with array := SMap.set (fun _ => 0) w (s.otpStored w ||| x) s.otp.array } }

/-- The operation ends with a result. -/
def progEnd (s : State) (o : OtpOp) (result : Nat) : State :=
  let s := { s with otp := { s.otp with op := none } }.flag R.FUSE_PROG_STAT F.FUSE_PROG_STAT_BUSY false
  if o.append then
    -- the record leaves the queue; a torn pair is not tried again in this session
    let q := s.otp.queue.drop 1
    let q := if 1536 ≤ s.pairsUsed then [] else q
    { s with otp := { s.otp with queue := q, waitFrom := if q.isEmpty then 0 else s.otp.waitFrom } }.showAppend
  else s.setResult result

/-- OTP_PROGRAM_DONE: the running word has passed, failed its verify, or was aborted; the conditions are checked again before
the first pulse of the next word (R372). -/
def progDone (s : State) (how : OtpEnd) : State :=
  match s.otp.op with
  | none => s
  | some o =>
    match o.words with
    | [] => s.progEnd o 1
    | (w, v) :: rest =>
      let x := otpEncode v
      match how with
      | .verified =>
        let s := (s.otpSet w x).incSat R.FUSE_PROG_WORDS F.FUSE_PROG_WORDS_COUNT
        let s := if otpRegion w = 6 then s.flag R.FUSE_LIFE_STAT F.FUSE_LIFE_STAT_PENDING true else s
        if rest.isEmpty then s.progEnd o 1
        else if !s.progCond then s.progEnd o 7
        else { s with otp := { s.otp with op := some { o with words := rest } } }
      | .verifyFail y => ((s.otpSet w (x &&& y)).incSat R.FUSE_VERIFY_FAILS F.FUSE_VERIFY_FAILS_COUNT).progEnd o 6
      | .aborted y =>
        let s := (s.otpSet w (x &&& y)).incSat R.FUSE_VERIFY_FAILS F.FUSE_VERIFY_FAILS_COUNT
        { s with otp := { s.otp with partly := w :: s.otp.partly } }.progEnd o 7

/-! ### Rereads (R371) -/

/-- TMIN and TMAX start at the first round after boot step 6. -/
def otpRound (s : State) : State :=
  if s.otp.tmin.isNone && decide (6 < s.bootStep) then
    { s with otp := { s.otp with tmin := some (s.layerReading 0), tmax := some (s.layerReading 0), rereadAt := s.clk.up } }
  else s

/-- A marginal word drifts: its value cannot be read, or is not the shadow's. -/
def drifts (s : State) (reads : List OtpRead) (w : Nat) : Bool :=
  match otpDecode (s.otpReads reads w).1 with
  | none => true
  | some d => decide (d.1 ≠ s.otpShadow w)

/-- OTP_REREAD: when the temperature has left the bounds or 24 h have passed, the marginal words are read again; `reads` gives the words whose reads differ from the stored bits. -/
def otpReread (s : State) (reads : List OtpRead) : State :=
  match s.otp.tmin, s.otp.tmax with
  | some lo, some hi =>
    let t := s.layerReading 0
    if !(decide (t < lo - 10) || decide (hi + 10 < t) || decide (s.otp.rereadAt + 86400000000000 ≤ s.clk.up)) then s else
    let s := { s with otp := { s.otp with
        tmin := some (if t < lo - 10 then t else lo), tmax := some (if hi + 10 < t then t else hi), rereadAt := s.clk.up } }
    let bad := (s.otp.marginal.filter (s.drifts reads)).length
    let new := ((reads.filter fun x => otpMarginal (x.normal, x.pgm, x.blank)).map fun x => x.word.toNat).filter fun w =>
      !s.otp.marginal.contains w
    let s := { s with otp := { s.otp with marginal := s.otp.marginal ++ new.eraseDups } }
    let s := (s.incSat R.FUSE_REREADS F.FUSE_REREADS_COUNT).showMarginal
    let n := bad + new.eraseDups.length
    if n = 0 then s else s.incSat R.FUSE_DRIFTS F.FUSE_DRIFTS_COUNT n
  | _, _ => s

/-! ### Repair records (R378 to R380, R420) -/

/-- Word 1 is a record. -/
def recordPresent (w : Word) : Bool := decide (w.toNat / 2 ^ 28 ≠ 0)

/-- The records of REPAIR_FIELD in address order, torn pairs skipped. -/
def arrayRecords (s : State) : List (Word × Word) :=
  (List.range s.pairsUsed).filterMap fun k =>
    let a := 0x400 + 2 * k
    if s.otpFailed a || s.otpFailed (a + 1) || !recordPresent (s.otpShadow (a + 1)) then none
    else some (s.otpShadow a, s.otpShadow (a + 1))

/-- The records of REPAIR_MFG. -/
def mfgRecords (s : State) : List (Word × Word) :=
  if s.slotSel 2 = 0 then []
  else (List.range 127).filterMap fun k =>
    if recordPresent (s.slotWord 2 (2 * k + 1)) then some (s.slotWord 2 (2 * k), s.slotWord 2 (2 * k + 1)) else none

/-- Address of an entry of a half of the repair mirror. -/
def mirrorAddr (half i : Nat) : Nat := 0x410000 + 0x20000 * half + 16 * i

/-- A mirror entry: its sequence number and record, when its CRC holds. -/
def mirrorEntry (s : State) (half i : Nat) : Option (Nat × Word × Word) :=
  let b := s.flashBytes (mirrorAddr half i) 16
  if b.all (· == 0xFF) || !crcOk b then none
  else some (natLE (b.drop 8 |>.take 4), BitVec.ofNat 32 (natLE (b.take 4)), BitVec.ofNat 32 (natLE (b.drop 4 |>.take 4)))

/-- Write an entry of the mirror. -/
def mirrorWrite (s : State) (half i seq : Nat) (r : Word × Word) : State :=
  s.flashProgram (mirrorAddr half i) (withCrc (bytesLE 4 r.1.toNat ++ bytesLE 4 r.2.toNat ++ bytesLE 4 seq))

/-- Erase a half of the mirror. -/
def mirrorErase (s : State) (half : Nat) : State :=
  (s.flashErase (mirrorAddr half 0) 0x10000).flashErase (mirrorAddr half 0 + 0x10000) 0x10000

/-- Append a record to the active half. -/
def mirrorPush (s : State) (r : Word × Word) : State :=
  let s := s.mirrorWrite s.mgmt.mirHalf s.mgmt.mirUsed (s.mgmt.mirSeq + 1) r
  { s with mgmt := { s.mgmt with mirSeq := s.mgmt.mirSeq + 1, mirUsed := s.mgmt.mirUsed + 1 } }

/-- A full half: the merged list goes to the other half with new sequence numbers, and the full one is erased. -/
def mirrorTurn (s : State) : State :=
  let old := s.mgmt.mirHalf
  let s := s.mirrorErase (1 - old)
  let s := { s with mgmt := { s.mgmt with mirHalf := 1 - old, mirUsed := 0 } }
  (s.spare.merged.foldl (fun (t : State) r => t.mirrorPush r) s).mirrorErase old

/-- Write a record to the mirror. -/
def mirrorRecord (s : State) (r : Word × Word) : State :=
  (if 8192 ≤ s.mgmt.mirUsed then s.mirrorTurn else s).mirrorPush r

/-- Queue a record for REPAIR_FIELD, unless the queue or the region is full (R379). -/
def queueAppend (s : State) (r : Word × Word) : State :=
  if !s.appendAllowed || 64 ≤ s.otp.queue.length || 1536 ≤ s.pairsUsed then s
  else { s with otp := { s.otp with
      queue := s.otp.queue ++ [r], waitFrom := if s.otp.waitFrom = 0 then s.clk.up + 1 else s.otp.waitFrom } }.showAppend

def showMerged (s : State) : State := s.wr R.HEALTH_FIELD_REPAIRS (BitVec.ofNat 32 s.spare.merged.length)

/-- REPAIR_RECORD_COMMIT: the oldest record of a completed step is written to the mirror, and queued. -/
def recordCommit (s : State) : State :=
  match s.spare.commits with
  | [] => s
  | r :: l =>
    if !s.fwRunning || !s.flashPresent then s
    else
      let s := s.mirrorRecord r
      let s := { s with spare := { s.spare with commits := l, merged := s.spare.merged ++ [r] } }
      (s.queueAppend r).showMerged

/-- The valid entries of a half: index, sequence number and record. -/
def mirrorHalf (s : State) (h : Nat) : List (Nat × Nat × Word × Word) :=
  (List.range 8192).filterMap fun i => (s.mirrorEntry h i).map fun e => (i, e)

/-- The highest sequence number of entries, and the count of positions up to the last one. -/
def mirrorTop (l : List (Nat × Nat × Word × Word)) : Nat := l.foldl (fun n e => max n e.2.1) 0
def mirrorLen (l : List (Nat × Nat × Word × Word)) : Nat := l.foldl (fun n e => max n (e.1 + 1)) 0

/-- The half with the highest valid sequence number is active. -/
def mirrorState (s : State) (a b : List (Nat × Nat × Word × Word)) : State :=
  let half := if mirrorTop a < mirrorTop b then 1 else 0
  { s with mgmt := { s.mgmt with
      mirSeq := max (mirrorTop a) (mirrorTop b), mirHalf := half, mirUsed := mirrorLen (if half = 1 then b else a) } }

/-- Merge the records of the array with those of the mirror (R380). -/
def mergeLists (s : State) (arr mir : List (Word × Word)) : State :=
  let onlyMir := (mir.filter fun r => !arr.contains r).eraseDups
  let s := { s with spare := { s.spare with merged := arr ++ onlyMir } }
  let s := (arr.filter fun r => !mir.contains r).foldl (fun (t : State) r => t.mirrorRecord r) s
  (onlyMir.foldl (fun (t : State) r => t.queueAppend r) s).showMerged

/-- Boot step 7: find the active half and merge the records of the array and of the mirror (R380, R420). -/
def mergeRecords (s : State) : State :=
  (s.mirrorState (s.mirrorHalf 0) (s.mirrorHalf 1)).mergeLists s.arrayRecords
    ((s.mirrorHalf 0 ++ s.mirrorHalf 1).map fun e => (e.2.2.1, e.2.2.2))

end State
end Sys2Proof.Machine
end

