-- ==== Sys2Proof/Machine/Sec.lean ====
section
/-! DEFINITION. Firmware authentication, key derivation, attestation, the clearing of secrets and the sticky locks
(R381 to R385, R388). A digest or a key is a number whose most significant byte is its first byte. -/

namespace Sys2Proof.Machine

/-- How far the JTAG port gives access: boundary scan alone, with identity too, or everything. -/
inductive TapAccess where
  | boundary | identity | full
  deriving DecidableEq, Repr

/-- Bytes of a number list. -/
def toBytes (l : List Nat) : List Byte := l.map (BitVec.ofNat 8)

/-- The twelve words of a digest: four bytes each, first byte lowest (R388). -/
def digestWords (d : BitVec 384) : List Word :=
  let b := bytesBE 48 d.toNat
  (List.range 12).map fun i => BitVec.ofNat 32 (natLE (b.drop (4 * i) |>.take 4))

/-- The digest that twelve words give. -/
def digestOfWords (l : List Word) : BitVec 384 := BitVec.ofNat 384 (natBE (wordBytes l))

/-- ASCII of "VL16-DEVID", "VL16-ALIAS" and "VL16-LIFE". -/
def asciiDevid : List Nat := [0x56, 0x4C, 0x31, 0x36, 0x2D, 0x44, 0x45, 0x56, 0x49, 0x44]
def asciiAlias : List Nat := [0x56, 0x4C, 0x31, 0x36, 0x2D, 0x41, 0x4C, 0x49, 0x41, 0x53]
def asciiLife : List Nat := [0x56, 0x4C, 0x31, 0x36, 0x2D, 0x4C, 0x49, 0x46, 0x45]

/-- First byte of image 0 and image 1 (R419). -/
def imageBase (i : Nat) : Nat := 0x200000 * i

/-- The signer of an image is allowed (R376, R382). -/
def signerOk (life : Nat) (keys : Bool) (policy : Word) (signer : Nat) : Bool :=
  if life ≤ 1 ∨ life = 4 then decide (signer = 0 ∨ signer = 3)
  else if life = 2 ∧ !keys then decide (signer = 3)
  else if life = 2 ∨ life = 3 then
    keys && (if policy = 1 then decide (signer = 2) else decide (signer = 1 ∨ signer = 2))
  else false

namespace State

/-! ### Images (R382) -/

def imageField (s : State) (i off n : Nat) : Nat := natLE (s.flashBytes (imageBase i + off) n)
def imageLen (s : State) (i : Nat) : Nat := s.imageField i 4 4
def imageSigner (s : State) (i : Nat) : Nat := s.imageField i 10 1
def imageSvn (s : State) (i : Nat) : Nat := s.imageField i 8 2
def imageKey (s : State) (i : Nat) : BitVec 768 := BitVec.ofNat 768 (natBE (s.flashBytes (imageBase i + 16) 96))
def imageSig (s : State) (i : Nat) : BitVec 768 := BitVec.ofNat 768 (natBE (s.flashBytes (imageBase i + 112) 96))

/-- The firmware measurement: SHA-384 over bytes 0 to 111 and the body. -/
def imageMeas (s : State) (i : Nat) : BitVec 384 :=
  sha384 (s.flashBytes (imageBase i) 112 ++ s.flashBytes (imageBase i + 208) (s.imageLen i))

/-- The digest that the image's signer must have. -/
def signerDigest (s : State) (signer : Nat) : BitVec 384 :=
  if signer = 1 then digestOfWords ((List.range 12).map (s.slotWord 3))
  else if signer = 2 then digestOfWords ((List.range 12).map fun i => s.slotWord 3 (12 + i))
  else Config.mfgDigest

/-- The key of the image has its signer's digest; an owner digest of all zeros fails. -/
def imageKeyOk (s : State) (i : Nat) : Bool :=
  let g := s.imageSigner i
  g == 0 || ((g ≤ 2 && s.keysValid || g == 3) && !(g == 2 && s.signerDigest 2 == 0)
    && sha384 (s.flashBytes (imageBase i + 16) 96) == s.signerDigest g)

def minSvn (s : State) : Nat := s.fld R.SEC_MIN_SVN F.SEC_MIN_SVN_SVN

/-- The checks of R382: 0 pass, else the code of IMAGE_VERIFY (R423). -/
def imageCheck (s : State) (i : Nat) : Nat :=
  if s.imageField i 0 4 ≠ 0x56474C56 ∨ 0x180000 < s.imageLen i ∨ 3 < s.imageSigner i then 1
  else if !s.imageKeyOk i then 2
  else if !signerOk s.life s.keysValid (s.slotWord 3 25) (s.imageSigner i) then 3
  else if s.keysValid ∧ s.imageSvn i < s.minSvn then 4
  else if s.imageSigner i ≠ 0 ∧ !ecdsaVerify (s.imageKey i) (s.imageMeas i) (s.imageSig i) then 5
  else 0

/-- Secret, keys and attestation (R381, R383). -/
def serialBytes (s : State) : List Nat := wordBytes [s.slotWord 0 0, s.slotWord 0 1]

/-- The KDF output of the DeviceID key. -/
def devidKdf (s : State) (x : BitVec 256) : BitVec 448 := kdf x asciiDevid s.serialBytes

/-- The KDF output of the alias key of the running firmware. -/
def aliasKdf (s : State) (x : BitVec 256) : BitVec 448 :=
  kdf x asciiAlias (wordBytes ((List.range 12).map fun i => s.rd (R.SEC_FW_MEAS i)) ++ bytes384 s.sec.keyDigest)

/-- A signature by a private key, with a nonce drawn for it. -/
def signWith (s : State) (key digest : BitVec 384) : BitVec 768 × State :=
  let nonce := scalarOf (Config.random s.sec.draws).toNat
  (ecdsaSign key digest nonce, { s with sec := { s.sec with draws := s.sec.draws + 1, signNonce := nonce } })

/-- Write a digest into twelve registers. -/
def putDigest (s : State) (a : Nat → Nat) (d : BitVec 384) : State :=
  ((List.range 12).zip (digestWords d)).foldl (fun (t : State) e => t.wr (a e.1) e.2) s

/-- Boot step 7: the secret is loaded when the lifecycle state and the slot allow it and no clearing came since VAUX
power-on (R376, R381, R384). -/
def loadSecret (s : State) (bistOk : Bool) : State :=
  if decide (s.life = 2 ∨ s.life = 3) && decide (s.slotSel 4 ≠ 0) && bistOk
      && !s.on R.SEC_SEC_STAT F.SEC_SEC_STAT_SCAN_CLEARED then
    let x := Config.unscramble (BitVec.ofNat 256 (natLE (wordBytes ((List.range 8).map (s.slotWord 4)))))
    let c := s.devidKdf x
    let key := scalarOf c.toNat
    let s := { s with sec := { s.sec with secret := some x, devid := some key, kdf := c } }.flag R.SEC_SEC_STAT
      F.SEC_SEC_STAT_SECRET_LOADED true
    s.putDigest R.SEC_DEVID_DIGEST (sha384 (bytesBE 96 (publicKey key).toNat))
  else s

/-- ATTEST_EN (R373, R383). -/
def attestOk (s : State) : Bool :=
  s.sec.secret.isSome && s.keysValid && decide (s.life = 2 ∨ s.life = 3)
    && !s.bit R.FUSE_INTEG_STAT F.FUSE_INTEG_STAT_FAILED 0

/-- The alias key of the image that has been loaded, and its certificate, which the DeviceID key signs (R381). -/
def makeAlias (s : State) : State :=
  match s.sec.secret, s.sec.devid with
  | some x, some dev =>
    let c := s.aliasKdf x
    let key := scalarOf c.toNat
    let pub := publicKey key
    let r := s.signWith dev (sha384 (bytesBE 96 pub.toNat))
    { r.2 with sec := { r.2.sec with alias_ := some key, kdf := c, keyBuf := (Config.aliasCert pub r.1).take 16384 } }
  | _, _ => s

/-- Load an image that has passed. -/
def imageLoad (s : State) (i : Nat) : State :=
  let g := s.imageSigner i
  let s := (s.put R.SEC_SEC_STAT F.SEC_SEC_STAT_FW_SIGNER g).put R.SEC_SEC_STAT F.SEC_SEC_STAT_FW_IMAGE i
  let s := s.put R.SEC_SEC_STAT F.SEC_SEC_STAT_FW_SVN (s.imageSvn i)
  let s := s.putDigest R.SEC_FW_MEAS (s.imageMeas i)
  let f := s.freeWord
  let s := f.2.flashRead (208 + s.imageLen i)
  let s := { s with
    sec := { s.sec with keyDigest := if g = 0 then 0 else s.signerDigest g, pubKey := s.imageKey i }
    mgmt := { s.mgmt with fwVersion := f.1 } }
  (s.makeAlias.flag R.MGMT_GONDOLA_STAT F.MGMT_GONDOLA_STAT_FW_RUNNING true).flag R.SEC_SEC_STAT F.SEC_SEC_STAT_ATTEST_EN
    s.attestOk

/-- The boot ROM tries image 0, then image 1; it loads the first that passes (R382). -/
def loadFirmware (s : State) : State :=
  if s.imageCheck 0 = 0 then s.imageLoad 0
  else
    let s := s.inc R.SEC_AUTH_FAILS
    if s.imageCheck 1 = 0 then s.imageLoad 1 else s.inc R.SEC_AUTH_FAILS

/-! ### Sticky locks (R385) -/

def pageLocked (s : State) (pg : Nat) : Bool := decide (pg < 544) && (s.rd (R.LOCK_PAGE_LOCK (pg / 32))).getLsbD (pg % 32)

/-- Lock a page. -/
def lockPage (s : State) (pg : Nat) : State :=
  if pg < 544 then
    s.wr (R.LOCK_PAGE_LOCK (pg / 32)) (s.rd (R.LOCK_PAGE_LOCK (pg / 32)) ||| BitVec.ofNat 32 (2 ^ (pg % 32)))
  else s

/-- Pages that boot code always locks: FCOL, THERM, STACK, RFM, FUSE and every CHC page. -/
def bootPages : List Nat := [0x002, 0x005, 0x013, 0x017, 0x006] ++ (List.range 36).map (0x100 + ·)

/-- Registers of a page that hold RWL fields. -/
def rwlRegs (pg : Nat) : List Nat :=
  match pageRow pg with
  | none => []
  | some r => ((regTable r.first).filter fun d => d.fields.any fun f => f.acc == .rwl).flatMap fun d =>
      (List.range d.count).map fun i => 0x1000 * pg + d.off + d.stride * i

/-! ### Scan (R384) -/

/-- The lifecycle state is known: the LIFE words have been read at boot step 4 (R375). -/
def lifeKnown (s : State) : Bool := decide (4 < s.bootStep)

/-- What the JTAG port gives (R376, R387). -/
def jtagAccess (s : State) : TapAccess :=
  if !s.lifeKnown || s.life = 5 then .boundary
  else if s.lifeOpen && !s.on R.LOCK_DBG_LOCK F.LOCK_DBG_LOCK_TAP_RESTRICT then .full
  else .identity

/-- IEEE 1838 access is on (R376). -/
def ieee1838On (s : State) : Bool := s.lifeKnown && s.lifeOpen

/-- Internal scan may be enabled now, by a JTAG or IEEE 1838 instruction (R376, R384, R387). -/
def scanAllowed (s : State) : Bool :=
  (s.jtagAccess == .full || s.ieee1838On) && s.lifeOpen && !s.on R.LOCK_DBG_LOCK F.LOCK_DBG_LOCK_SCAN_OFF
    && !s.on R.LOCK_DBG_LOCK F.LOCK_DBG_LOCK_TAP_RESTRICT

/-- SCAN_ENABLE: every secret is cleared first; the multiplexers switch only when all reads back as zero. -/
def scanEnable (s : State) (zero : Bool) : State :=
  if !s.scanAllowed then s
  else
    let s := { s with sec := { s.sec with
      secret := none, devid := none, alias_ := none, kdf := 0, signNonce := 0, keyBuf := [], zeroFail := !zero, scan := zero } }
    let s := (s.flag R.SEC_SEC_STAT F.SEC_SEC_STAT_SECRET_LOADED false).flag R.SEC_SEC_STAT F.SEC_SEC_STAT_ATTEST_EN false
    if zero then (s.flag R.SEC_SEC_STAT F.SEC_SEC_STAT_SCAN_CLEARED true).inc R.SEC_ZEROIZE_CNT else s

/-! ### Attestation (R383) -/

/-- Certificates stored in the flash: each after its length (R419). -/
def certsAt (s : State) : Nat → Nat → List (List Nat)
  | 0, _ => []
  | n + 1, a =>
    let len := natLE (s.flashBytes a 4)
    if len = 0 ∨ len = 0xFFFFFFFF ∨ 0x410000 < a + 4 + len then []
    else s.flashBytes (a + 4) len :: s.certsAt n (a + 4 + len)

/-- The chain of certificate slot 0: vendor root, DeviceID certificate, alias certificate. -/
def certChain (s : State) : List Byte := toBytes ((s.certsAt 2 0x400000).flatten) ++ s.sec.keyBuf

/-- The digest of the chain. -/
def chainDigest (s : State) : BitVec 384 := sha384 (s.certChain.map BitVec.toNat)

/-- The four measurement blocks. -/
def measurements (s : State) : List (BitVec 384) :=
  [Config.romDigest, digestOfWords ((List.range 12).map fun i => s.rd (R.SEC_FW_MEAS i)), s.sec.lockMeas,
    BitVec.ofNat 384 (s.life + (s.rd R.FUSE_SLOT_STAT).toNat * 2 ^ 8 + s.minSvn * 2 ^ 40)]

/-- A signature by the alias key over bytes. -/
def aliasSign (s : State) (bytes : List Nat) : BitVec 768 × State :=
  match s.sec.alias_ with
  | none => (0, s)
  | some key => let r := s.signWith key (sha384 bytes); (r.1, r.2.inc R.SEC_SIGNS)

/-- The responder answers: firmware runs and the endpoint is out of reset. -/
def spdmOpen (s : State) : Bool := s.fwRunning && !s.clk.perstN && !s.inReset

def answerSpdm (s : State) (a : Spdm) : State := { s with sec := { s.sec with answer := some a } }

/-- Answer a request other than GET_VERSION: Unspecified while ATTEST_EN is clear. -/
def spdm (s : State) (go : State → State) : State :=
  if !s.spdmOpen then s
  else if !s.on R.SEC_SEC_STAT F.SEC_SEC_STAT_ATTEST_EN then s.answerSpdm .unspecified
  else go s

def spdmVersion (s : State) : State := if s.spdmOpen then s.answerSpdm .version else s
def spdmCapabilities (s : State) : State := s.spdm fun (t : State) => t.answerSpdm .capabilities
def spdmAlgorithms (s : State) : State := s.spdm fun (t : State) => t.answerSpdm .algorithms
def spdmDigests (s : State) : State := s.spdm fun (t : State) => t.answerSpdm (.digests t.chainDigest)
def spdmCertificate (s : State) (off len : Nat) : State :=
  s.spdm fun (t : State) => t.answerSpdm (.certificate ((t.certChain.drop off).take len))
def spdmChallenge (s : State) (nonce : BitVec 256) : State :=
  s.spdm fun (t : State) =>
    let r := t.aliasSign (bytes384 t.chainDigest ++ bytesBE 32 nonce.toNat)
    r.2.answerSpdm (.challengeAuth r.1)
def spdmMeasurements (s : State) (nonce : BitVec 256) (sign : Bool) : State :=
  s.spdm fun (t : State) =>
    let m := t.measurements
    if sign then
      let r := t.aliasSign (m.flatMap bytes384 ++ bytesBE 32 nonce.toNat)
      r.2.answerSpdm (.measurements m (some r.1))
    else t.answerSpdm (.measurements m none)

end State
end Sys2Proof.Machine
end

