-- ==== Sys2Proof/Machine/Cal.lean ====
section
/-! DEFINITION. The calibration sequencer: the words of the blocks, staging and commit, what training and adaptation
leave, and TOSC tracking (R400 to R403, R405). -/

namespace Sys2Proof.Machine

/-- Words of a block; 0 for an unassigned code (R400). -/
def calWords (code : Nat) : Nat :=
  if code < 8 then 40 else if code < 16 then 10 else if code < 0x30 then 116
  else if code = 0x30 then 1 else if code = 0x31 then 2 else if code = 0x32 then 96 else 0

/-- The register that a word of a lane-group block is, if it is one. -/
def calReg (code i : Nat) : Option Nat :=
  if code < 8 then
    some (if i % 4 = 0 then R.RXG_RXL_CTLE code (i / 4) else if i % 4 = 1 then R.RXG_RXL_DFE_A code (i / 4)
      else if i % 4 = 2 then R.RXG_RXL_DFE_B code (i / 4) else R.RXG_RXL_DFE_C code (i / 4))
  else if code < 16 then some (R.TXG_TXL_EQ (code - 8) i)
  else none

/-- Key of a word of a channel's block in `ch.cal`. -/
def calKey (code i : Nat) : Nat := 58 * (2 * (code - 0x10)) + i

/-- The bits of the register fields that a word fills (R400, R402). -/
def calMask (code i : Nat) : Nat :=
  match calReg code i with
  | some a => fieldsMask (fun _ => true) ((fieldsAt a).filter fun f => f.acc != .ro)
  | none =>
    if code < 0x30 then
      (if i % 58 = 0 then 0x7F7F7F7F else if i % 58 = 1 then 0x7F7F else 0x3F3F)
    else if code = 0x30 then 0xFF
    else 0xFFFFFFFF

/-- A staged word is in range: R35 for TXG, −32 to +32 for a sensor, the field widths for the others (R400, R402). -/
def calInRange (code i : Nat) (v : Word) : Bool :=
  if 8 ≤ code ∧ code < 16 then
    v.toNat &&& calMask code i == v.toNat
      && State.firOk (F.TXG_TXL_EQ_PRE2.get v) (F.TXG_TXL_EQ_PRE1.get v) (F.TXG_TXL_EQ_MAIN.get v) (F.TXG_TXL_EQ_POST1.get v)
  else if code = 0x32 then decide (v.toNat < 256) && decide (-32 ≤ (v.extractLsb' 0 8).toInt ∧ (v.extractLsb' 0 8).toInt ≤ 32)
  else v.toNat &&& calMask code i == v.toNat

namespace State

/-- The block that CAL_BLK selects. -/
def calBlk (s : State) : Nat := s.fld R.CAL_CAL_BLK F.CAL_CAL_BLK_BLOCK

/-- The value in use of a word of a block. -/
def calWord (s : State) (code i : Nat) : Word :=
  if calWords code ≤ i then 0
  else match calReg code i with
    | some a => s.rd a
    | none =>
      if code < 0x30 then SMap.get (fun _ => 0) s.ch.cal (calKey code i)
      else if code = 0x30 then BitVec.ofNat 32 (s.fld R.CAL_TOSC_STAT F.CAL_TOSC_STAT_TRIM)
      else if code = 0x31 then SMap.get (fun _ => 0) s.cal.adc i
      else SMap.get (fun _ => 0) s.cal.sensor i

/-- Put a word of a block into use. -/
def setCalWord (s : State) (code i : Nat) (v : Word) : State :=
  if calWords code ≤ i then s
  else match calReg code i with
    | some a => s.wr a v
    | none =>
      if code < 0x30 then
        let m : Word := BitVec.ofNat 32 (calMask code i)
        { s with ch := { s.ch with
            cal := SMap.upd (fun _ => 0) (calKey code i) (fun w => (w &&& ~~~m) ||| (v &&& m)) s.ch.cal } }
      else if code = 0x30 then s.put R.CAL_TOSC_STAT F.CAL_TOSC_STAT_TRIM v.toNat
      else if code = 0x31 then { s with cal := { s.cal with adc := SMap.set (fun _ => 0) i v s.cal.adc } }
      else { s with cal := { s.cal with sensor := SMap.set (fun _ => 0) i v s.cal.sensor } }

/-- An application to a block is counted and timed (R400); a channel's count is CHP.CAL_COUNT. -/
def calApplied (s : State) (code : Nat) : State :=
  if 0x10 ≤ code ∧ code < 0x30 then
    (s.incSat (R.CHP_CAL_COUNT (code - 0x10)) F.CHP_CAL_COUNT_COUNT).wr64 (R.CHP_CAL_TIME_LO (code - 0x10)) s.ts
  else
    let s := if code = s.fld R.CAL_CAL_BLK F.CAL_CAL_BLK_BLOCK then s.counted R.CAL_CAL_COUNT 1 else s
    { s with cal := { s.cal with
      counts := SMap.upd (fun _ => 0) code (· + 1) s.cal.counts
      times := SMap.set (fun _ => 0) code s.ts s.cal.times } }

/-- Calibration count and last time of a block. -/
def calCount (s : State) (code : Nat) : Word :=
  if 0x10 ≤ code ∧ code < 0x30 then s.rd (R.CHP_CAL_COUNT (code - 0x10)) else SMap.get (fun _ => 0) s.cal.counts code
def calTime (s : State) (code : Nat) : Word64 :=
  if 0x10 ≤ code ∧ code < 0x30 then s.rd64 (R.CHP_CAL_TIME_LO (code - 0x10)) else SMap.get (fun _ => 0) s.cal.times code

/-- CAL_DATA as it reads: the staged value, or the value in use (R402). -/
def calData (s : State) : Word :=
  let i := s.fld R.CAL_CAL_IDX F.CAL_CAL_IDX_INDEX
  match SMap.get (fun _ => none) s.cal.staged i with
  | some v => v
  | none =>
    match (if s.calPending s.calBlk then s.cal.pend.find? fun e => e.1 == i else none) with
    | some e => e.2
    | none => s.calWord s.calBlk i

/-! ### Staging and commit (R402, R403) -/

/-- STAGED: words are staged, or wait for their safe point. -/
def syncStaged (s : State) : State :=
  s.flag R.CAL_CAL_STAT F.CAL_CAL_STAT_STAGED
    (!s.cal.staged.isEmpty || (s.on R.CAL_CAL_STAT F.CAL_CAL_STAT_PENDING && !s.cal.pend.isEmpty))

def setCalError (s : State) (n : Nat) : State := s.put R.CAL_CAL_STAT F.CAL_CAL_STAT_ERROR n
def clearStaged (s : State) : State := { s with cal := { s.cal with staged := [] } }

/-- CAL_BLK selects a block; words staged for another are discarded. -/
def calSelect (s : State) (code : Nat) : State :=
  let t := s.put R.CAL_CAL_BLK F.CAL_CAL_BLK_BLOCK code
  let t := t.put R.CAL_CAL_STAT F.CAL_CAL_STAT_WORDS (calWords t.calBlk)
  if t.calBlk = s.calBlk ∨ s.cal.staged.isEmpty then t
  else ((t.clearStaged).setCalError 4).syncStaged

/-- CAL_DATA stages word CAL_IDX; an index beyond the block names no word. -/
def calStage (s : State) (v : Word) : State :=
  let i := s.fld R.CAL_CAL_IDX F.CAL_CAL_IDX_INDEX
  if calWords s.calBlk ≤ i then s
  else { s with cal := { s.cal with staged := SMap.set (fun _ => none) i (some v) s.cal.staged } }.syncStaged

/-- DISCARD of the words staged and not yet committed. -/
def calDiscard (s : State) : State := s.clearStaged.syncStaged

/-- The staged words, in order. -/
def stagedWords (s : State) : List (Nat × Word) := s.cal.staged.filterMap fun e => e.2.map fun v => (e.1, v)

/-- The block of a commit is powered off, retired or in reset (R403). -/
def calBlockDown (s : State) (code : Nat) : Bool :=
  !s.released ||
    (if code < 8 then s.groupOff .rx code || decide (s.grpState .rx code = 0)
     else if code < 16 then s.groupOff .tx (code - 8) || decide (s.grpState .tx (code - 8) = 0)
     else if code < 0x30 then s.pchRetired (2 * (code - 0x10)) && s.pchRetired (2 * (code - 0x10) + 1)
     else false)

/-- R400 refuses a commit: the ERROR code, 0 for none. -/
def calRefusal (s : State) (code : Nat) : Nat :=
  if code = 0x31 then 3
  else if (s.stagedWords.any fun e => !calInRange code e.1 e.2) then 1
  else if s.on R.CAL_CAL_STAT F.CAL_CAL_STAT_PENDING && decide (s.cal.pendBlk ≠ code) then 2
  else if s.calBlockDown code then 2
  else if code < 8 ∧ ¬ (4 ≤ s.grpState .rx code ∧ s.grpState .rx code ≤ 8) then 2
  else if 8 ≤ code ∧ code < 16 ∧ ¬ (4 ≤ s.grpState .tx (code - 8) ∧ s.grpState .tx (code - 8) ≤ 8) then 2
  else if code = 0x32 ∧ s.pageLocked 0x005 then 5
  else 0

/-- COMMIT: refused whole, or the staged words wait for the safe point; a further commit to the block that waits adds
to it. -/
def calCommit (s : State) : State :=
  if s.cal.staged.isEmpty then s
  else
    let code := s.calBlk
    let e := s.calRefusal code
    if e ≠ 0 then (s.setCalError e).inc R.CAL_COMMIT_ERRORS
    else
      let keep := if s.on R.CAL_CAL_STAT F.CAL_CAL_STAT_PENDING then
          s.cal.pend.filter fun x => (SMap.get (fun _ => none) s.cal.staged x.1).isNone
        else []
      let s := { s with cal := { s.cal with pend := keep ++ s.stagedWords, pendBlk := code, staged := [] } }
      ((s.flag R.CAL_CAL_STAT F.CAL_CAL_STAT_PENDING true).setCalError 0).syncStaged

/-- The block's own training or adaptation step runs, or its result waits (R403). -/
def calBusy (s : State) (code : Nat) : Bool :=
  if code < 8 then decide (s.grpState .rx code = 4 ∨ s.grpState .rx code = 8)
  else if code < 16 then decide (s.grpState .tx (code - 8) = 4)
  else if code < 0x30 then
    let a := s.pch (2 * (code - 0x10))
    let b := s.pch (2 * (code - 0x10) + 1)
    a.training || b.training || a.apply.isSome || b.apply.isSome
  else false

/-- PENDING falls; a training that waited for the commit starts. -/
def calEnd (s : State) : State :=
  let code := s.cal.pendBlk
  let s := { s with cal := { s.cal with pend := [] } }
  let s := (s.flag R.CAL_CAL_STAT F.CAL_CAL_STAT_PENDING false).syncStaged
  let mine := s.ch.trainQ.filter fun pc => pc / 2 + 0x10 == code
  let s := { s with ch := { s.ch with trainQ := s.ch.trainQ.filter fun pc => pc / 2 + 0x10 != code } }
  mine.foldl (fun (t : State) pc => t.trainStart (pc / 2) (pc % 2)) s

/-- CAL_APPLY: the block's safe point has come. -/
def calApply (s : State) : State :=
  let code := s.cal.pendBlk
  if !s.on R.CAL_CAL_STAT F.CAL_CAL_STAT_PENDING then s
  else if s.calBlockDown code then ((s.setCalError 2).inc R.CAL_COMMIT_ERRORS).calEnd
  else if s.calBusy code then s
  else
    let s := s.cal.pend.foldl (fun (t : State) e => t.setCalWord code e.1 e.2) s
    let s := if s.bootStep = 9 ∧ 0x10 ≤ code ∧ code < 0x30 then
        { s with cal := { s.cal with restored := code :: s.cal.restored } } else s
    ((s.calApplied code).inc R.CAL_COMMITS).calEnd

/-- A block that goes down while its commit is pending discards it (R403). -/
def calDrop (s : State) (down : Nat → Bool) : State :=
  if s.on R.CAL_CAL_STAT F.CAL_CAL_STAT_PENDING && down s.cal.pendBlk then
    ((s.setCalError 2).inc R.CAL_COMMIT_ERRORS).calEnd
  else s

/-! ### Training of the link (R36, R37, R44, R400) -/

/-- EQ has completed: both blocks of every group that was in it count a calibration (R400). -/
def eqCalibrated (old s : State) : State :=
  if old.linkState = 4 ∧ s.linkState = 5 then
    groups.foldl (fun (u : State) g =>
      let u := if old.grpState .rx g = 4 then u.calApplied g else u
      if old.grpState .tx g = 4 then u.calApplied (8 + g) else u) s
  else s

/-- TRAINING_STATE_DONE: the receivers keep what adaptation moved in the state, the CTLE in COARSE and EQ and the taps from EQ on
(R36, R37), and a RECOVER that has run counts a calibration of its receive groups (R400). -/
def trainingStateDone (s : State) (t : TrainIn) : State :=
  let n := s.linkState
  let u := t.adapt.foldl (fun u x => u.takeAdapt x.1.val x.2.1.val x.2.2 (decide (n = 2 ∨ n = 4)) (decide (4 ≤ n))) s
  let u := if n = 8 then groups.foldl (fun (u : State) g => if u.grpState .rx g = 8 then u.calApplied g else u) u else u
  s.eqCalibrated (u.trainingDone t)

/-! ### The ADC correction (R400) -/

/-- A housekeeping round starts with the correction that its reference codes give; a change is an application. -/
def adcCorrect (s : State) (bg gnd : BitVec 12) : State :=
  let w := fun (i : Nat) => Config.adcCorrection bg gnd i
  if w 0 = s.calWord 0x31 0 ∧ w 1 = s.calWord 0x31 1 then s
  else ((s.setCalWord 0x31 0 (w 0)).setCalWord 0x31 1 (w 1)).calApplied 0x31

/-! ### TOSC (R401) -/

/-- TRIM takes a value; the block's application is counted. -/
def setTrim (s : State) (n : Nat) : State := (s.put R.CAL_TOSC_STAT F.CAL_TOSC_STAT_TRIM n).calApplied 0x30

/-- The last count is off by more than 0.25 %. -/
def toscOff (s : State) : Bool :=
  let n := s.fld R.CAL_TOSC_STAT F.CAL_TOSC_STAT_LAST_COUNT
  decide (n ≠ 0) && decide (n + 10000 < 4000000 ∨ 4010000 < n)

def toscTrimNow (s : State) : Nat := s.fld R.CAL_TOSC_STAT F.CAL_TOSC_STAT_TRIM

/-- TOSC_TRACK: the count of the window, and one code toward nominal when it is off. A higher code is a faster TOSC
(DEDUCED from the 0.125 % per code of R400). -/
def toscTrack (s : State) (count : Nat) : State :=
  if s.inReset || !s.on R.CLK_CLK_STAT F.CLK_CLK_STAT_XO_OK || !s.on R.CAL_TOSC_CTL F.CAL_TOSC_CTL_TRACK_EN
      || decide (s.bootStep < 6) then s
  else
    let s := s.put R.CAL_TOSC_STAT F.CAL_TOSC_STAT_LAST_COUNT count
    if !s.toscOff then s
    else if 4000000 < count then (if s.toscTrimNow = 0 then s else s.setTrim (s.toscTrimNow - 1))
    else if s.toscTrimNow = 255 then s
    else s.setTrim (s.toscTrimNow + 1)

/-- TOSC_LIMIT. -/
def toscLimit (s : State) : Bool := s.toscOff && decide (s.toscTrimNow = 0 ∨ s.toscTrimNow = 255)

end State
end Sys2Proof.Machine
end

