-- ==== Sys2Proof/Machine/Log.lean ====
section
/-! DEFINITION. Records of failed accesses (R413, R425), and the event log that the Gondola keeps in the flash (R420). -/

namespace Sys2Proof.Machine

/-- DEV.ACC_ERR.PATH of a path. -/
def pathCode : Path → Nat
  | .pcie => 0
  | .inband => 1
  | .gondola => 2

/-- Entries of the event log ring. -/
def logEntries : Nat := 24576
/-- Flash address of an entry. -/
def logAddr (i : Nat) : Nat := 0x500000 + 128 * i

/-- The 128 bytes of an entry (R420). -/
def logBytes (seq : Nat) (i : LogItem) : List Nat :=
  let body := bytesLE 64 i.ev.toNat ++ bytesLE 8 seq ++ [i.kind % 256]
    ++ (List.range 51).map fun j => ((i.extra.find? fun e => e.1 == 73 + j).map (·.2 % 256)).getD 0
  body ++ bytesLE 4 (crc32c body)

namespace State

/-- Record a failed or ignored access in DEV.ACC_ERR. -/
def accErr (s : State) (path : Path) (a : Nat) (write : Bool) (cause : Nat) : State :=
  let v := pageOf a % 2 ^ 10 + offOf a / 4 % 2 ^ 10 * 2 ^ 10 + write.toNat * 2 ^ 20 + cause % 8 * 2 ^ 21 + pathCode path * 2 ^ 24
  (s.wr R.DEV_ACC_ERR (BitVec.ofNat 32 v)).inc R.DEV_ACC_ERR_CNT

/-- A failed program or erase (R421). -/
def flashFault (s : State) : State := s.inc R.SPI_FLASH_ERRORS

def logNext (s : State) : Nat := s.mgmt.logAt

/-- LOG_NEXT shows the next entry. -/
def showLogNext (s : State) : State := s.put R.SPI_LOG_NEXT F.SPI_LOG_NEXT_INDEX s.mgmt.logAt

/-- The position of the log after this one. -/
def logAdvance (s : State) : State :=
  { s with mgmt := { s.mgmt with logAt := (s.mgmt.logAt + 1) % logEntries } }.showLogNext

/-- Erase the 4 KiB sector that holds the next entry before the log wraps into it. -/
def logErase (s : State) : State :=
  let a := logAddr s.logNext
  if s.logNext % 32 = 0 ∧ (s.mgmt.flash.any fun e => decide (a ≤ e.1 ∧ e.1 < a + 4096)) then s.flashErase a 4096 else s

/-- The entry that is written next: an NMA record before the others (R293). -/
def logHead (s : State) : Option LogItem :=
  match s.mgmt.logQ.find? fun i => i.urgent with
  | some i => some i
  | none => s.mgmt.logQ.head?

/-- Write the next entry; one that fails moves to the next free position (R421). -/
def logWrite (s : State) (ok : Bool) : State :=
  match s.logHead with
  | none => s
  | some i =>
    let s := s.logErase
    if !ok then s.flashFault.logAdvance
    else
      let s := (s.flashProgram (logAddr s.logNext) (logBytes s.mgmt.logSeq i)).logAdvance
      { s with mgmt := { s.mgmt with logSeq := s.mgmt.logSeq + 1, logQ := s.mgmt.logQ.erase i } }

/-- The Gondola reaches the flash: firmware runs, or a trip lets it write its last records (R326 step 7). -/
def logOpen (s : State) : Bool := s.clk.vaux && !s.clk.held && s.flashPresent && s.fwRunning

/-- EVENT_LOG_WRITE. -/
def eventLogWrite (s : State) (ok : Bool) : State := if s.logOpen then s.logWrite ok else s

/-- Write every entry that waits. -/
def logFlush : Nat → State → State
  | 0, s => s
  | n + 1, s => logFlush n (s.eventLogWrite true)

def logAll (s : State) : State := logFlush s.mgmt.logQ.length s

/-- The oldest entry held: the first after the sector being filled once the ring has wrapped. -/
def logOldest (s : State) : Nat :=
  if s.mgmt.logSeq ≤ s.logNext then 0
  else if s.logNext % 32 = 0 then s.logNext
  else (s.logNext / 32 + 1) * 32 % logEntries

/-- An entry is held: the position is in the ring and not empty. -/
def logHeld (s : State) (i : Nat) : Bool :=
  decide (i < logEntries) && (s.flashBytes (logAddr i) 128).any (· != 255)

end State
end Sys2Proof.Machine
end

