-- ==== Sys2Proof/Machine/Mgmt.lean ====
section
/-! DEFINITION. The management port: the Gondola's mailbox, the raw flash path, the memory window and the endpoint's
configuration space (R406 to R424, R428). -/

namespace Sys2Proof.Machine

/-- Mailbox commands that use the flash (R422, R423). -/
def mbFlash (op : Nat) : Bool := decide (2 ≤ op ∧ op ≤ 7)

/-- First byte and size of an image (R419). -/
def imageSize : Nat := 0x200000

namespace State

/-- Image 1 has passed verify, or not, since it was last written. -/
def setVerified (s : State) (b : Bool) : State := { s with mgmt := { s.mgmt with verified := b } }
/-- Write enable of the raw path. -/
def setWren (s : State) (b : Bool) : State := { s with mgmt := { s.mgmt with wren := b } }
/-- What a read returns to its path. -/
def setOut (s : State) (v : Word) : State := { s with mgmt := { s.mgmt with out := v } }

/-! ### The mailbox (R422 to R424) -/

def mbStat (_ : State) (ch : Nat) : Nat := R.MGMT_MB_STAT ch
def mbBusy (s : State) (ch : Nat) : Bool := s.on (s.mbStat ch) F.MGMT_MB_STAT_BUSY

/-- A write of GO: BUSY sets, DONE clears; flash commands queue in the order of their GO writes. -/
def mbGo (s : State) (ch : Nat) : State :=
  let op := s.fld (R.MGMT_MB_CMD ch) F.MGMT_MB_CMD_OPCODE
  let s := (s.flag (s.mbStat ch) F.MGMT_MB_STAT_BUSY true).flag (s.mbStat ch) F.MGMT_MB_STAT_DONE false
  { s with mgmt := { s.mgmt with
      run := SMap.set (fun _ => none) ch (some op) s.mgmt.run
      order := if mbFlash op then s.mgmt.order ++ [ch] else s.mgmt.order } }

def mbIn (s : State) (ch i : Nat) : Word := s.rd (R.MGMT_MB_IN ch i)

/-- The index words of the log and the words of GET_INFO. -/
def mbInfo (s : State) : List Word :=
  [ (if s.fwRunning then s.mgmt.fwVersion else 0),
    BitVec.ofNat 32 (s.fld R.SEC_SEC_STAT F.SEC_SEC_STAT_FW_SVN),
    BitVec.ofNat 32 (s.fld R.SEC_SEC_STAT F.SEC_SEC_STAT_FW_IMAGE + 256 * s.fld R.SEC_SEC_STAT F.SEC_SEC_STAT_FW_SIGNER),
    BitVec.ofNat 32 s.mgmt.flashKiB, BitVec.ofNat 32 s.logOldest, BitVec.ofNat 32 s.logNext ]

/-- Bytes as little-endian words. -/
def wordsOfBytes : Nat → List Nat → List Word
  | 0, _ => []
  | n + 1, b => BitVec.ofNat 32 (natLE (b.take 4)) :: wordsOfBytes n (b.drop 4)

/-- IMAGE_ERASE. -/
def imageErase (s : State) : State := (s.flashErase imageSize imageSize).setVerified false

/-- IMAGE_WRITE of 64 bytes at an offset of image 1: the RESULT and the state. -/
def imageWrite (s : State) (off : Nat) (bytes : List Nat) (ok : Bool) : Nat × State :=
  if off % 64 ≠ 0 ∨ imageSize ≤ off then (2, s)
  else if (s.flashBytes (imageSize + off) 64).any (· != 255) then (5, s)
  else
    let s := s.setVerified false
    if ok then (0, s.flashProgram (imageSize + off) bytes) else (5, s.flashFault)

/-- The flash with image 1 copied over image 0. -/
def promoted (m : SMap Byte) : SMap Byte :=
  ((m.filter fun e => decide (imageSize ≤ e.1 ∧ e.1 < 2 * imageSize)).map fun e => (e.1 - imageSize, e.2))
    ++ m.filter fun e => decide (imageSize ≤ e.1)

/-- Image 0 is erased and image 1 copied over it. -/
def promote (s : State) : State :=
  let s := s.flashErase 0 imageSize
  { s with mgmt := { s.mgmt with flash := promoted s.mgmt.flash } }.inc R.SPI_PROGRAMS 8192

/-- IMAGE_PROMOTE: image 0 is erased and image 1 copied over it; a copy that fails leaves image 0 erased. -/
def imagePromote (s : State) (ok : Bool) : Nat × State :=
  if !s.mgmt.verified then (3, s)
  else if ok then (0, s.promote)
  else (5, (s.flashErase 0 imageSize).flashFault)

/-- LIFE_CHALLENGE: a fresh nonce. -/
def lifeChallenge (s : State) : List Word × State :=
  let n := (Config.random s.sec.draws).extractLsb' 0 256
  (wordsOfBytes 8 (bytesLE 32 n.toNat),
    { s with sec := { s.sec with draws := s.sec.draws + 1 }, mgmt := { s.mgmt with nonce := some n } })

/-- A LIFE_ADVANCE to this state needs a signature (R424). -/
def lifeSigned (s : State) (target : Nat) : Bool :=
  decide (target = 4) || (decide (target = 5) && decide (s.life = 2 ∨ s.life = 3))

/-- The signature of a LIFE_ADVANCE verifies. -/
def lifeSigOk (s : State) (ch target : Nat) : Bool :=
  match s.mgmt.nonce with
  | none => false
  | some n =>
    let msg := asciiLife ++ [target % 256] ++ s.serialBytes ++ bytesLE 32 n.toNat
    let sig := natBE (wordBytes ((List.range 24).map fun i => s.mbIn ch (1 + i)))
    ecdsaVerify s.sec.pubKey (sha384 msg) (BitVec.ofNat 768 sig)

/-- LIFE_ADVANCE: the RESULT and the state; the Gondola issues LIFE_NEXT or LIFE_VOID. -/
def lifeAdvance (s : State) (ch : Nat) : Nat × State :=
  let t := (s.mbIn ch 0).toNat
  let go := fun (u : State) => { u with mgmt := { u.mgmt with nonce := none } }
  if ¬ (t = 5 ∨ (t = s.life + 1 ∧ t ≤ 4)) ∨ (t = s.life) then (3, go s)
  else if t = 3 ∧ !(s.keysValid && decide (s.slotSel 4 ≠ 0)) then (3, go s)
  else if s.lifeSigned t && !s.lifeSigOk ch t then (4, go s)
  else
    let u := if t = 5 then (go s).lifeVoid 0x0F5E else (go s).lifeNext 0x0F5E
    if s.otp.op.isNone && u.otp.op.any fun o => !o.append then (0, u) else (3, u)

/-- What a command does at its end: RESULT, MB_OUT words and the state (R423). -/
def mbRun (s : State) (ch op : Nat) (ok : Bool) : Nat × List Word × State :=
  let a := (s.mbIn ch 0).toNat
  if op = 1 then (0, s.mbInfo, s)
  else if !s.fwRunning then (6, [], s)
  else if op = 2 then
    (if s.logHeld a then (0, wordsOfBytes 32 (s.flashBytes (logAddr a) 128), s.flashRead 128) else (2, [], s))
  else if op = 3 then
    (if a % 128 = 0 ∧ a + 128 ≤ 1024 * s.mgmt.flashKiB then (0, wordsOfBytes 32 (s.flashBytes a 128), s.flashRead 128)
     else (2, [], s))
  else if op = 4 then (if ok then (0, [], s.imageErase) else (5, [], s.flashFault))
  else if op = 5 then
    let r := s.imageWrite a (wordBytes ((List.range 16).map fun i => s.mbIn ch (1 + i))) ok
    (r.1, [], r.2)
  else if op = 6 then
    let c := s.imageCheck 1
    (0, [BitVec.ofNat 32 c, BitVec.ofNat 32 (s.imageSvn 1), BitVec.ofNat 32 (s.imageSigner 1)],
      (s.flashRead imageSize).setVerified (decide (c = 0)))
  else if op = 7 then
    let r := s.imagePromote ok
    (r.1, [], r.2)
  else if op = 8 then
    if s.keelMirrors.isEmpty then (6, [], s)
    else if a < 16256 ∧ (s.therm.ring.any fun e => e.1 == a) then
      (0, wordsOfBytes 16 (bytesLE 64 (SMap.get (fun _ => 0) s.therm.ring a).toNat), s)
    else (2, [], s)
  else if op = 9 then (0, (s.lifeChallenge).1, (s.lifeChallenge).2)
  else if op = 10 then
    let r := s.lifeAdvance ch
    (r.1, [], r.2)
  else (1, [], s)

/-- MB_OUT, RESULT and DONE, and MSI-X (R422). -/
def mbFinish (s : State) (ch result : Nat) (out : List Word) : State :=
  let s := out.zipIdx.foldl (fun (t : State) e => t.wr (R.MGMT_MB_OUT ch e.2) e.1) s
  let a := s.mbStat ch
  let s := (s.put a F.MGMT_MB_STAT_RESULT result).put a F.MGMT_MB_STAT_OUT_LEN out.length
  let s := (s.flag a F.MGMT_MB_STAT_BUSY false).flag a F.MGMT_MB_STAT_DONE true
  let s := { s with mgmt := { s.mgmt with
      run := SMap.set (fun _ => none) ch none s.mgmt.run, order := s.mgmt.order.filter (· ≠ ch) } }
  let s := s.inc R.MGMT_COMMANDS
  let s := if result = 0 then s else s.inc R.MGMT_MB_REFUSED
  if s.on R.MGMT_MB_IRQ (if ch = 0 then F.MGMT_MB_IRQ_IRQ_EN0 else F.MGMT_MB_IRQ_IRQ_EN1) then
    s.msixRequest (s.fld R.MGMT_MB_IRQ F.MGMT_MB_IRQ_VECTOR)
  else s

/-- The Gondola answers: it is out of reset from boot step 3 on (R422). -/
def gondolaUp (s : State) : Bool := s.clk.vaux && !s.clk.held && decide (3 ≤ s.bootStep) && !s.tripped

/-- MAILBOX_DONE: a channel's command ends, flash commands in the order of their GO writes. `ok` says whether the
flash took a program or erase. -/
def mailboxDone (s : State) (ch : Nat) (ok : Bool) : State :=
  match SMap.get (fun _ => none) s.mgmt.run ch with
  | none => s
  | some op =>
    if !s.gondolaUp || (mbFlash op && s.mgmt.order.head? != some ch) then s
    else
      let r := s.mbRun ch op ok
      r.2.2.mbFinish ch r.1 r.2.1

/-! ### The raw path (R421, R428) -/

/-- The raw path is in effect. -/
def rawActive (s : State) : Bool := s.on R.SPI_SPI_CTL F.SPI_SPI_CTL_HOST_RAW && s.lifeOpen

/-- The data bytes of RAW_DATA. -/
def rawBytes (s : State) (n : Nat) : List Nat :=
  (wordBytes ((List.range 16).map fun i => s.rd (R.SPI_RAW_DATA i))).take n

/-- Put bytes into RAW_DATA, byte 0 first; the bytes beyond them stay. -/
def setRawBytes (s : State) (b : List Nat) : State :=
  let all := b ++ (s.rawBytes 64).drop b.length
  ((wordsOfBytes 16 all).zipIdx).foldl (fun (t : State) e => t.wr (R.SPI_RAW_DATA e.2) e.1) s

/-- Address of a raw command: 24 bits, or 32 with ADDR4. -/
def rawAddr (s : State) : Nat :=
  let a := (s.rd R.SPI_RAW_ADDR).toNat
  if s.on R.SPI_SPI_CTL F.SPI_SPI_CTL_ADDR4 then a else a % 2 ^ 24

/-- A page program wraps within its page of 256 bytes. -/
def rawProgram (s : State) (a : Nat) (b : List Nat) : State :=
  let p := a / 256 * 256
  let s := b.zipIdx.foldl (fun (t : State) e =>
    { t with mgmt := { t.mgmt with flash := programBytes t.mgmt.flash (p + (a - p + e.2) % 256) [e.1] } }) s
  s.inc R.SPI_PROGRAMS

/-- A write of image 1 ends its verify (R423). -/
def touchImage (s : State) (a n : Nat) : State :=
  if a < 2 * imageSize ∧ imageSize < a + n then s.setVerified false else s

/-- RAW_CMD with START: the commands of R418 act as they name; another one leaves the flash as it is and its data are
free. -/
def rawCmd (s : State) (v : Word) : State :=
  if F.SPI_RAW_CMD_START.get v ≠ 1 || !s.rawActive then s
  else
    let op := F.SPI_RAW_CMD_OPCODE.get v
    let n := min 64 (F.SPI_RAW_CMD_LEN.get v)
    let w := decide (F.SPI_RAW_CMD_WRITE.get v = 1)
    let a := s.rawAddr
    let withAddr := decide (F.SPI_RAW_CMD_ADDR_EN.get v = 1)
    let s := s.flag R.SPI_SPI_STAT F.SPI_SPI_STAT_RAW_DONE true
    if op = 0x9F ∧ !w then s.setRawBytes ((bytesBE 3 (s.fld R.SPI_FLASH_ID F.SPI_FLASH_ID_JEDEC_ID)).take n)
    else if op = 0x05 ∧ !w then s.setRawBytes (List.replicate n (if s.mgmt.wren then 2 else 0))
    else if op = 0x06 then s.setWren true
    else if (op = 0x03 ∨ op = 0x0B ∨ op = 0x6B) ∧ !w ∧ withAddr then
      (s.setRawBytes (s.flashBytes a n)).flashRead n
    else if op = 0x02 ∧ w ∧ withAddr then
      if s.mgmt.wren then ((s.rawProgram a (s.rawBytes n)).touchImage a n).setWren false else s
    else if (op = 0x20 ∨ op = 0xD8) ∧ withAddr then
      let k := if op = 0x20 then 4096 else 65536
      if s.mgmt.wren then ((s.flashErase a k).touchImage (a / k * k) k).setWren false else s
    else if w then s
    else
      let r := s.freeWord
      r.2.setRawBytes ((List.range n).map fun i => (Config.freeWord (s.free + i)).toNat % 256)

/-! ### The memory window (R414, R415) -/

/-- The window answers (WIN_STAT.AVAILABLE): table in effect, no Drogue mode, no trip. -/
def winAvailable (s : State) : Bool := s.running && decide (12 ≤ s.bootStep)

def winMid (s : State) : Nat := s.fld R.PCIEM_WIN_CTL F.PCIEM_WIN_CTL_WIN_MID
def winTc (s : State) : Nat := s.fld R.PCIEM_WIN_CTL F.PCIEM_WIN_CTL_WIN_TC

/-- Line index of a window offset. -/
def winLine (s : State) (off : Nat) : Nat := s.fld R.PCIEM_WIN_BASE F.PCIEM_WIN_BASE_PARCEL * 1024 + off / 64

/-- The window is shut for a line, so no entry is looked up. -/
def winShut (s : State) (li : Nat) : Bool :=
  !s.on R.PCIEM_WIN_CTL F.PCIEM_WIN_CTL_WIN_EN || !s.winAvailable
    || decide (s.fld R.XACT_VIS_LIMIT F.XACT_VIS_LIMIT_LIMIT ≤ li)

/-- The access to a line is aborted (R415). -/
def winAborts (s : State) (li : Nat) : Bool := s.winShut li || decide (eState (s.entry (li / 1024)) = 4)

/-- The header under which a line access is charged: a request of WIN_MID in WIN_TC for one line. -/
def winHeader (s : State) (opc li : Nat) : Word64 :=
  BitVec.ofNat 64 (opc * 2 ^ 58 + s.winTc * 2 ^ 55 + s.winMid * 2 ^ 49 + li % 2 ^ 31)

/-- Charge and count a line like a host request. -/
def winTouch (s : State) (li : Nat) : State := (s.engCharge (s.winHeader 1 li)).heatAccess (li / 1024)

/-- Read one line: its content, and the state with the cache as a read leaves it. -/
def winReadLine (s : State) (m : LookupIn) (li : Nat) : Line × State :=
  let a := (s.winTouch li).readThrough m li 1 false
  let s := (a.2.inc R.PCIEM_WIN_READS).put R.PCIEM_WIN_STAT F.PCIEM_WIN_STAT_LAST_META a.1.hostMeta
  (a.1, s.flag R.PCIEM_WIN_STAT F.PCIEM_WIN_STAT_LAST_POISON a.1.poisoned)

/-- AER records an error by its bits in the status of uncorrectable and of correctable errors (R417). The bits are those of
PCI Express Base 4.0: 12 poisoned TLP, 15 Completer Abort, 13 advisory non-fatal (PRESUMED, assumption 109). -/
def aerReport (s : State) (uncorr corr : Word) : State :=
  { s with mgmt := { s.mgmt with aerUncorr := s.mgmt.aerUncorr ||| uncorr, aerCorr := s.mgmt.aerCorr ||| corr } }

/-- Completions with one line's bytes added: a poisoned line travels alone. -/
def winJoin (l : List Cpl) (bytes : List Byte) (poisoned : Bool) : List Cpl :=
  if poisoned then l ++ [.poisoned bytes]
  else match l.getLast? with
    | some (.data b) => l.dropLast ++ [.data (b ++ bytes)]
    | _ => l ++ [.data bytes]

/-- Read bytes line by line; an aborted line ends the read with Completer Abort. The data of a poisoned line is free. -/
def winReadLoop (m : LookupIn) (stop : Nat) : Nat → Nat → State → List Cpl → State × List Cpl
  | 0, _, s, c => (s, c)
  | n + 1, off, s, c =>
    let li := s.winLine off
    if s.winAborts li then ((s.inc R.PCIEM_WIN_ABORTS).aerReport 0x8000 0x2000, c ++ [.abort])
    else
      let r := s.winReadLine m li
      let k := min stop (off / 64 * 64 + 64) - off
      let d := if r.1.poisoned then Config.freeLine r.2.free else r.1.data
      let bytes := (List.range k).map fun i => d.extractLsb' (8 * (off % 64 + i)) 8
      let s := if r.1.poisoned then { r.2 with free := r.2.free + 1 }.inc R.PCIEM_WIN_POISON_RD else r.2
      winReadLoop m stop n (off / 64 * 64 + 64) s (winJoin c bytes r.1.poisoned)

/-- Lines that a range of the window touches. -/
def winCount (off len : Nat) : Nat := if len = 0 then 0 else (off + len - 1) / 64 - off / 64 + 1

/-- The lines of a range whose entries are looked up. -/
def winLines (s : State) (off len : Nat) : List Nat :=
  ((List.range (winCount off len)).map fun i => s.winLine (off + 64 * i)).filter fun li => !s.winShut li

/-- The access is held: a parcel of the range is being repaired (R139), a swap holds a channel (R202), or the Bridle holds its
first line (R415). -/
def winHeldUp (s : State) (off len : Nat) : Bool :=
  let ls := s.winLines off len
  ls.any (fun li => eState (s.entry (liParcel li)) == 5 || s.atomWaits li)
    || (!ls.isEmpty && s.engHold (s.winHeader 1 (s.winLine off)))

/-- WINDOW_READ of `len` bytes, at most 4,096 and within the window. -/
def windowRead (s : State) (off len : Nat) (m : LookupIn) : State :=
  let len := min (min len 4096) (2 ^ 27 - off)
  if !s.barOpen then s
  else
    let s := s.lostEntries m ((s.winLines off len).map liParcel).eraseDups
    if s.winHeldUp off len then s
    else
      let r := winReadLoop m (off + len) (winCount off len) off s []
      { r.1 with mgmt := { r.1.mgmt with cpl := r.2 } }.closeChecks

/-- Merge the enabled bytes into a line, byte `at_` first. -/
def mergeBytes (d : LineData) (at_ : Nat) (b : List (Option Byte)) : LineData :=
  b.zipIdx.foldl (fun (x : LineData) e =>
    match e.1 with
    | none => x
    | some v => BitVec.ofNat 512 (x.toNat - (x.extractLsb' (8 * (at_ + e.2)) 8).toNat * 256 ^ (at_ + e.2)
        + v.toNat * 256 ^ (at_ + e.2))) d

/-- Write the enabled bytes of one line where it lives; META and POISON stay. -/
def winMerge (s : State) (m : LookupIn) (li at_ : Nat) (b : List (Option Byte)) : State :=
  let a := ((s.winTouch li).tagLookups m [li]).readCurrent m li 2
  if a.1.poisoned then a.2.inc R.PCIEM_WIN_POISON_DROP
  else (a.2.updateLine li (a.1.updated (mergeBytes a.1.data at_ b))).inc R.PCIEM_WIN_WRITES

/-- Write one line: dropped when it aborts; a RELEASED parcel is allocated first; none while it must wait. -/
def winWriteLine (s : State) (m : LookupIn) (li at_ : Nat) (b : List (Option Byte)) : Option State :=
  if s.winAborts li then some (s.inc R.PCIEM_WIN_ABORTS)
  else if eState (s.entry (li / 1024)) = 3 then
    match s.allocate_ (li / 1024) with
    | .placed s => some (s.winMerge m li at_ b)
    | .wait => none
    | .withdrawn s => some (s.inc R.PCIEM_WIN_ABORTS)
  else some (s.winMerge m li at_ b)

def winWriteLoop (m : LookupIn) : Nat → Nat → List (Option Byte) → State → Option State
  | 0, _, _, s => some s
  | n + 1, off, b, s =>
    let k := 64 - off % 64
    match s.winWriteLine m (s.winLine off) (off % 64) (b.take k) with
    | none => none
    | some t => winWriteLoop m n (off / 64 * 64 + 64) (b.drop k) t

/-- WINDOW_WRITE: a poisoned TLP is dropped whole. -/
def windowWrite (s : State) (off : Nat) (bytes : List (Option Byte)) (poisoned : Bool) (m : LookupIn) : State :=
  let b := bytes.take (min 256 (2 ^ 27 - off))
  if !s.barOpen || b.isEmpty then s
  else if poisoned then (s.inc R.PCIEM_WIN_POISON_DROP).aerReport 0x1000 0
  else
    let s := s.lostEntries m ((s.winLines off b.length).map liParcel).eraseDups
    if s.winHeldUp off b.length then s
    else match winWriteLoop m (winCount off b.length) off b s with
      | none => s
      | some t => t.closeChecks

/-! ### Configuration space (R406) -/

/-- Implemented bits of a base address register: 4 MiB non-prefetchable and 128 MiB prefetchable, both 64-bit. -/
def barMask (i : Nat) : Nat :=
  if i = 0 then 0xFFC00000 else if i = 2 then 0xF8000000 else if i = 1 ∨ i = 3 then 0xFFFFFFFF else 0
def barBits (i : Nat) : Nat := if i = 0 then 4 else if i = 2 then 12 else 0

def barDefault (i : Nat) : Word := BitVec.ofNat 32 (barBits i)
def bar (s : State) (i : Nat) : Word := SMap.get barDefault s.mgmt.bars i

/-- Type 0 header dwords that R406 fixes, and Memory Enable and Bus Master Enable in the command register; the rest of
configuration space follows PCI Express and is a free value. -/
def cfgDword (s : State) (d : Nat) : Word × State :=
  if d = 0 then (Config.vendorId.setWidth 32 ||| 0x56160000, s)
  else if d = 1 then
    ((s.freeWord.1 &&& ~~~6) ||| BitVec.ofNat 32 (2 * s.mgmt.memEn.toNat + 4 * s.mgmt.busMaster.toNat), s.freeWord.2)
  else if d = 2 then (0x05800021, s)
  else if 4 ≤ d ∧ d ≤ 9 then (s.bar (d - 4), s)
  else s.freeWord

/-- The endpoint answers configuration requests: PERST_N is high and it is out of reset (R359, R362). -/
def endpointUp (s : State) : Bool := s.on R.PCIEM_PCIE_STAT F.PCIEM_PCIE_STAT_DL_UP && !s.clk.perstN

/-- PCIE_CONFIG_REQUEST. A function put in D3hot takes its link into L1 (PCI Express Base 4.0; PRESUMED, assumption 109). -/
def pcieConfig (s : State) (c : CfgReq) : State :=
  if !s.endpointUp then s
  else match c with
  | .read d => (s.cfgDword d.toNat).2.setOut (s.cfgDword d.toNat).1
  | .writeBar i v =>
    let w := BitVec.ofNat 32 ((v.toNat &&& barMask i.val) ||| barBits i.val)
    { s with mgmt := { s.mgmt with bars := SMap.set barDefault i.val w s.mgmt.bars } }
  | .writeCommand m b => { s with mgmt := { s.mgmt with memEn := m, busMaster := b } }
  | .writeMsix e f => { s with mgmt := { s.mgmt with msixEn := e, funcMask := f } }
  | .writeDState h =>
    let was := s.on R.PCIEM_PCIE_STAT F.PCIEM_PCIE_STAT_IN_L1
    let t := (s.put R.PCIEM_PCIE_STAT F.PCIEM_PCIE_STAT_DSTATE (if h then 3 else 0)).flag R.PCIEM_PCIE_STAT
      F.PCIEM_PCIE_STAT_IN_L1 h
    if h && !was then t.inc R.PCIEM_L1_ENTRIES else t
  | .readAer c => s.setOut (if c then s.mgmt.aerCorr else s.mgmt.aerUncorr)
  | .clearAer c v =>
    if c then { s with mgmt := { s.mgmt with aerCorr := s.mgmt.aerCorr &&& ~~~v } }
    else { s with mgmt := { s.mgmt with aerUncorr := s.mgmt.aerUncorr &&& ~~~v } }
  | .readSerial h => s.setOut (s.rd (if h then R.FUSE_SERIAL_LO + 4 else R.FUSE_SERIAL_LO))

/-- The endpoint comes up, at x8 and 16 GT/s (R362, R406). -/
def endpointStart (s : State) : State :=
  if s.clk.perstN || s.inReset || decide (s.bootStep < 3)
      || !(s.on R.CLK_CLK_STAT F.CLK_CLK_STAT_REFCLK_PRESENT || s.on R.CLK_CLK_STAT F.CLK_CLK_STAT_XO_OK)
      || s.on R.PCIEM_PCIE_STAT F.PCIEM_PCIE_STAT_DL_UP then s
  else
    let s := s.setBit R.CLK_CLK_STAT F.CLK_CLK_STAT_PLL_LOCK 5 true
    let s := (s.put R.PCIEM_PCIE_STAT F.PCIEM_PCIE_STAT_SPEED 4).put R.PCIEM_PCIE_STAT F.PCIEM_PCIE_STAT_WIDTH 8
    let s := s.flag R.PCIEM_PCIE_STAT F.PCIEM_PCIE_STAT_DL_UP true
    if s.clk.pcieTimed then s
    else
      let s := { s with clk := { s.clk with pcieTimed := true } }
      s.put R.CLK_BOOT_TIME F.CLK_BOOT_TIME_PCIE_MS (min 65535 ((s.clk.up - s.clk.bootFrom) / 1000000))

/-- PERST_N resets the endpoint: its link and its configuration space (R359). -/
def endpointReset (s : State) : State :=
  let s := s.wr R.PCIEM_PCIE_STAT 0
  { s with
    mgmt := { s.mgmt with
      msix := [], pend := [], msixEn := false, funcMask := false, busMaster := false, memEn := false, bars := [], aerUncorr := 0, aerCorr := 0
      cpl := [] }
    sec := { s.sec with answer := none } }

end State
end Sys2Proof.Machine
end

