-- ==== Sys2Proof/Machine/Clk.lean ====
section
/-! DEFINITION. Clocks: the choice of the internal reference, the crystal judgement, the clock monitor, Drogue mode, the
frequency-measuring counter and clock gating (R340 to R356). -/

namespace Sys2Proof.Machine

/-- CLK_STAT.PLL_LOCK bit of a PLL (R364). -/
def pllBit : Pll → Nat
  | .core => 0
  | .channel => 1
  | .engine => 2
  | .gondola => 3
  | .link => 4
  | .pcie => 5

namespace State

def xoOk (s : State) : Bool := s.on R.CLK_CLK_STAT F.CLK_CLK_STAT_XO_OK
def refclkPresent (s : State) : Bool := s.on R.CLK_CLK_STAT F.CLK_CLK_STAT_REFCLK_PRESENT
def refPcie (s : State) : Bool := s.on R.CLK_CLK_CTL F.CLK_CLK_CTL_REF_PCIE
def refSrc (s : State) : Nat := s.fld R.CLK_CLK_STAT F.CLK_CLK_STAT_REF_SRC
def pllLock (s : State) (i : Nat) : Bool := s.bit R.CLK_CLK_STAT F.CLK_CLK_STAT_PLL_LOCK i
def setLock (s : State) (i : Nat) (b : Bool) : State := s.setBit R.CLK_CLK_STAT F.CLK_CLK_STAT_PLL_LOCK i b

/-- Change what the clock controllers hold beside CLK. -/
def updClk (s : State) (f : ClkState → ClkState) : State := { s with clk := f s.clk }

/-! ### The internal reference (R342, R343) -/

/-- The source that R342 chooses: 1 XO, 2 the recovered link clock, 3 REFCLK, 0 none. A stack on REFCLK stays on it
until XO is judged stable (R353). -/
def refSource (s : State) : Nat :=
  if s.xoOk then 1
  else if s.refSrc = 3 ∧ s.refPcie ∧ s.refclkPresent then 3
  else if s.on R.CLK_CLK_CTL F.CLK_CLK_CTL_LINK_REF_EN && s.linkActive && s.loopTimed then 2
  else if s.refPcie && s.refclkPresent then 3
  else 0

/-- The internal reference takes a source. PLLs that had no reference lock; running ones stay as they are. On XO,
REF_PCIE clears itself (R353). -/
def refTo (s : State) (n : Nat) : State :=
  let s :=
    if s.refSrc = 0 then
      let s := ([0, 1, 2, 3, 4] : List Nat).foldl (fun t i => t.setLock i true) s
      (s.updClk fun c => { c with unlocked := c.unlocked.filter (· == 5) }).flag R.MGMT_GONDOLA_STAT
        F.MGMT_GONDOLA_STAT_ON_TOSC false
    else s
  let s := s.put R.CLK_CLK_STAT F.CLK_CLK_STAT_REF_SRC n
  if n = 1 then s.flag R.CLK_CLK_CTL F.CLK_CLK_CTL_REF_PCIE false else s

/-- The PCIe PLL runs on REFCLK while it is present, otherwise on XO; without either the endpoint's link is down. -/
def pcieClock (s : State) : State :=
  if s.refclkPresent || s.xoOk then s.endpointStart
  else (s.setLock 5 false).flag R.PCIEM_PCIE_STAT F.PCIEM_PCIE_STAT_DL_UP false

/-! ### Drogue mode (R349 to R352) -/

/-- Every transmit lane that drives enters electrical idle, with an EIDLE marker as its last: in ACTIVE those of the active groups,
in training those of the groups that train (R47, R349). -/
def allIdle (s : State) : State :=
  if s.linkActive then (s.activeGroups .tx).foldl (fun (t : State) g => t.sendEidle g) s
  else
    (groups.filter fun g => decide (s.grpState .tx g ≠ 0)).foldl (fun t g =>
      let u := (lanesOfGroup.filter fun l => !t.laneBad .tx g l).foldl
        (fun (v : State) l => v.emit g l (markerSyms true g l (9 * 4096))) t
      { u with link := { u.link with markers := SMap.set (fun _ => 0) g (9 * 4096) u.link.markers } }) s

/-- Drogue entry: the PLLs stop, the link goes to electrical idle and every die to self-refresh. -/
def drogueEnter (s : State) : State :=
  let s := s.abortSparings.dropWidthChange
  let s := s.allIdle
  let s := (s.setLoopTimed false).setLinkState 0
  let s := if s.clk.dramInit then s.enterSelfRefresh else s
  let s := ([0, 1, 2, 3, 4] : List Nat).foldl (fun t i => t.setLock i false) s
  let s := s.updClk fun c => { c with drogueAt := c.up, unlocked := c.unlocked.filter (· == 5), holdover := false }
  let s := (s.flag R.CLK_CLK_STAT F.CLK_CLK_STAT_DROGUE true).flag R.CLK_CLK_STAT F.CLK_CLK_STAT_DROGUE_EXPIRED false
  let s := (s.put R.CLK_CLK_STAT F.CLK_CLK_STAT_REF_SRC 0).flag R.CLK_CLK_CTL F.CLK_CLK_CTL_REF_PCIE false
  (s.flag R.MGMT_GONDOLA_STAT F.MGMT_GONDOLA_STAT_ON_TOSC true).inc R.CLK_DROGUE_ENTRIES

/-- Timers of the domains that Drogue mode has stopped go on where they stood: the Bridle's windows, the credit wait and the
deficit's grace (R349). -/
def resumeTimers (s : State) (ns : Nat) : State :=
  { s with
    bridle := { s.bridle with winAt := s.bridle.winAt + ns }
    xact := { s.xact with starved := if s.xact.starved = 0 then 0 else s.xact.starved + ns }
    place := { s.place with openedAt := s.place.openedAt + ns } }

/-- Drogue exit on a source (R351): the dies leave self-refresh, every pseudo-channel trains, and the link trains from
COARSE when it has trained before. -/
def drogueExit (s : State) (n : Nat) : State :=
  let s := s.wr R.CLK_DROGUE_LAST_MS (BitVec.ofNat 32 ((s.clk.up - s.clk.drogueAt) / 1000000))
  let s := (s.flag R.CLK_CLK_STAT F.CLK_CLK_STAT_DROGUE false).flag R.CLK_CLK_STAT F.CLK_CLK_STAT_DROGUE_EXPIRED false
  let s := (s.refTo n).resumeTimers (s.clk.up - s.clk.drogueAt)
  let s := if s.clk.dramInit then
      (List.range 64).foldl (fun t pc => t.trainStart (pc / 2) (pc % 2)) (s.exitSelfRefresh (List.range 64)) else s
  if s.link.trained then s.startTraining 2 else s

/-- DROGUE_MS has passed without judgement (R352). -/
def drogueTimeout (s : State) : State :=
  if s.drogue then s.flag R.CLK_CLK_STAT F.CLK_CLK_STAT_DROGUE_EXPIRED true else s

/-- No reference is left before XO was first judged: the PLLs stop and boot waits (R349). -/
def refNone (s : State) : State :=
  let s := ([0, 1, 2, 3, 4] : List Nat).foldl (fun t i => t.setLock i false) s
  let s := s.updClk fun c => { c with unlocked := c.unlocked.filter (· == 5) }
  (s.put R.CLK_CLK_STAT F.CLK_CLK_STAT_REF_SRC 0).flag R.MGMT_GONDOLA_STAT F.MGMT_GONDOLA_STAT_ON_TOSC true

/-- The internal reference after something that it depends on has changed: another source, or Drogue mode when none is
left while the PLLs run (R342, R349). -/
def refCheck (s : State) : State :=
  if s.inReset || s.drogue || decide (s.refSrc = 0) then s
  else if s.refSource = s.refSrc then s
  else if s.refSource = 0 then (if s.bootStep ≤ 6 ∧ !s.clk.judged then s.refNone else s.drogueEnter)
  else s.refTo s.refSource

/-! ### Crystal judgement (R345) and the clock monitor (R346 to R348) -/

/-- XO is judged stable: the always-on domain and the internal reference move to it, and Drogue mode or a stall at boot
step 6 ends. -/
def xoJudged (s : State) : State :=
  let s := (s.flag R.CLK_CLK_STAT F.CLK_CLK_STAT_XO_OK true).flag R.CLK_CLK_STAT F.CLK_CLK_STAT_AON_XO true
  let s := s.flag R.CLK_CLK_STAT F.CLK_CLK_STAT_XO_RESTART false
  let s := s.updClk fun c => { c with xoBad := 0, judged := true }
  let s := if s.bootStep = 6 then s.flag R.CLK_BOOT_STAT F.CLK_BOOT_STAT_STALLED false else s
  (if s.drogue then s.drogueExit 1 else s.refTo 1).pcieClock

/-- The judgement runs: from boot step 6, while XO is not judged stable and its amplifier is enabled. -/
def judging (s : State) : Bool := !s.inReset && decide (6 ≤ s.bootStep) && !s.xoOk && !s.clk.ampOff

/-- A judgement window ends with a count. -/
def xoJudgeWindow (s : State) (count : Nat) : State :=
  if !s.judging then s
  else
    let s := s.wr R.CLK_XO_MEAS (BitVec.ofNat 32 (count % 65536))
    let good := if 48500 ≤ count ∧ count ≤ 51500 then s.fld R.CLK_CLK_STAT F.CLK_CLK_STAT_XO_GOOD + 1 else 0
    let s := s.put R.CLK_CLK_STAT F.CLK_CLK_STAT_XO_GOOD good
    if good = 4 then s.xoJudged else s

/-- A trip on XO (R347). -/
def xoTrip (s : State) : State :=
  let s := (s.flag R.CLK_CLK_STAT F.CLK_CLK_STAT_XO_OK false).put R.CLK_CLK_STAT F.CLK_CLK_STAT_XO_GOOD 0
  let s := (s.flag R.CLK_CLK_STAT F.CLK_CLK_STAT_AON_XO false).flag R.CLK_CLK_STAT F.CLK_CLK_STAT_XO_RESTART true
  let s := (s.updClk fun c => { c with ampOff := true, xoBad := 0 }).inc R.CLK_XO_TRIPS
  let s := if s.linkActive && s.on (R.TXG_GRP_CTL 0) F.TXG_GRP_CTL_LOCAL_TIMING then s.setLoopTimed true else s
  s.pcieClock.refCheck

/-- A trip on the recovered link clock (R43, R348). -/
def linkTrip (s : State) : State :=
  let s := (s.inc R.CLK_LINK_CLK_TRIPS).updClk fun c => { c with linkBad := 0 }
  if s.xoOk then s.startTraining 2 else s.drogueEnter

/-- A window is bad when its count differs from 50 by more than MON_TOL_PCT percent; values below 6 act as 6. -/
def monBad (s : State) (count : Nat) : Bool :=
  let tol := max 6 (s.fld R.CLK_MON_CTL F.CLK_MON_CTL_MON_TOL_PCT)
  decide (tol < 2 * (count - 50) ∨ tol < 2 * (50 - count))

/-- The link clock monitor runs: the link is ACTIVE and loop-timed, LINK_MON_EN is set, and no holdover runs. -/
def linkMonRuns (s : State) : Bool :=
  s.linkActive && s.loopTimed && s.on R.CLK_MON_CTL F.CLK_MON_CTL_LINK_MON_EN && !s.clk.holdover

/-- A monitor window ends with a count; two bad ones in a row trip. -/
def monitorWindow (s : State) (c : MonClock) (count : Nat) : State :=
  if s.inReset || s.drogue then s
  else match c with
    | .xo =>
      if !s.xoOk then s
      else if !s.monBad count then s.updClk fun x => { x with xoBad := 0 }
      else if s.clk.xoBad = 0 then s.updClk fun x => { x with xoBad := 1 }
      else s.xoTrip
    | .link =>
      if !s.linkMonRuns then s
      else if !s.monBad count then s.updClk fun x => { x with linkBad := 0 }
      else if s.clk.linkBad = 0 then s.updClk fun x => { x with linkBad := 1 }
      else s.linkTrip

/-- The oscillator amplifier is enabled again, 100 µs after a trip: a new judgement starts (R347). -/
def ampEnable (s : State) : State :=
  if s.clk.ampOff then
    (s.updClk fun c => { c with ampOff := false }).put R.CLK_CLK_STAT F.CLK_CLK_STAT_XO_GOOD 0
  else s

/-- XO_WAIT_MS has passed at boot step 6 without a reference: boot stalls (R363). -/
def xoWait (s : State) : State :=
  if !s.inReset && decide (s.bootStep = 6) && decide (s.refSrc = 0) then
    s.flag R.CLK_BOOT_STAT F.CLK_BOOT_STAT_STALLED true
  else s

/-- REF_PCIE may be set: in Drogue mode or waiting at boot step 6, with REFCLK present (R353). -/
def refPcieOpen (s : State) : Bool :=
  s.refclkPresent && (s.drogue || (decide (s.bootStep = 6) && decide (s.refSrc = 0)))

/-- REF_PCIE has been set: REFCLK becomes the internal reference (R352, R353). -/
def refPcieSet (s : State) : State :=
  let s := s.flag R.CLK_CLK_CTL F.CLK_CLK_CTL_REF_PCIE true
  if s.drogue then s.drogueExit 3
  else (s.flag R.CLK_BOOT_STAT F.CLK_BOOT_STAT_STALLED false).refTo 3

/-- REFCLK appears or goes. -/
def refclkChange (s : State) (b : Bool) : State :=
  if !s.clk.vaux then s
  else
    let s := s.flag R.CLK_CLK_STAT F.CLK_CLK_STAT_REFCLK_PRESENT b
    (if b then s else s.flag R.CLK_CLK_CTL F.CLK_CLK_CTL_REF_PCIE false).pcieClock.refCheck

/-- A PLL loses lock while its reference is valid (R364). -/
def pllUnlock (s : State) (p : Pll) : State :=
  if s.pllLock (pllBit p) then
    (s.setLock (pllBit p) false).updClk fun c => { c with unlocked := c.unlocked ++ [pllBit p] }
  else s

/-! ### Frequency measurement (R344) -/

/-- A PLL gives a clock: it has a reference, and goes on when it loses lock (R364). -/
def pllRuns (s : State) (i : Nat) : Bool := s.pllLock i || s.clk.unlocked.contains i

/-- A clock of R344's table runs. The crystal runs from boot step 6 on (DESIGN CHOICE, assumption 135). The reserved codes name
no clock; they measure as a stopped one (DESIGN CHOICE, assumption 84). -/
def clockRuns (s : State) (code : Nat) : Bool :=
  if code = 0 ∨ code = 7 ∨ code = 8 ∨ code = 11 then true
  else if code = 1 then s.clk.xoOn && !s.clk.ampOff
  else if code = 2 then s.linkActive && s.loopTimed
  else if code = 3 then s.pllRuns 4
  else if code = 4 then s.pllRuns 0
  else if code = 5 then s.pllRuns 1
  else if code = 6 then s.pllRuns 2
  else if code = 9 then s.pllRuns 5
  else if code = 10 then s.refclkPresent
  else if code = 12 then decide (s.refSrc ≠ 0)
  else false

/-- FMC_CTL.START: DONE clears and channel 1 counts. -/
def fmcStart (s : State) : State :=
  (s.flag R.CLK_FMC_RESULT F.CLK_FMC_RESULT_DONE false).updClk fun c => { c with fmcBusy := true }

/-- The measurement ends with a count; a stopped clock counts 0. -/
def fmcDone (s : State) (count : Nat) : State :=
  if s.clk.fmcBusy && s.clockRuns (s.fld R.CLK_FMC_CTL F.CLK_FMC_CTL_REF_SEL) then
    let n := if s.clockRuns (s.fld R.CLK_FMC_CTL F.CLK_FMC_CTL_MEAS_SEL) then count else 0
    let s := (s.put R.CLK_FMC_RESULT F.CLK_FMC_RESULT_COUNT n).flag R.CLK_FMC_RESULT F.CLK_FMC_RESULT_DONE true
    s.updClk fun c => { c with fmcBusy := false }
  else s

/-! ### Clock gating (R355, R409) -/

def pgGated : Fld := ⟨1, 1⟩
def pgReady : Fld := ⟨0, 1⟩
def pgInReset : Fld := ⟨2, 1⟩
def pgCtl (pg : Nat) : Nat := 0x1000 * pg + 0x0C
def pgGateReq : Fld := ⟨2, 1⟩

/-- A CHC or ENG unit is SPARED, or idle in the spare role (R409). -/
def unitIdle (s : State) (pg : Nat) : Bool :=
  if 0x100 ≤ pg ∧ pg < 0x124 then s.on (pgStat pg) pgSpared || s.ctrlSpare (pg - 0x100)
  else
    let e := pg - 0x180
    s.on (pgStat pg) pgSpared
      || (s.on (R.ENG_ENG_STAT e) F.ENG_ENG_STAT_SPARE && decide (s.engState e ≤ 1) && (s.worksOn e).isEmpty)

/-- Software may request gating of the page (R409). -/
def gateOk (s : State) (pg : Nat) : Bool :=
  if ([0x00A, 0x200, 0x009, 0x016, 0x012, 0x011] : List Nat).contains pg then true
  else if pg = 0x008 then s.bist.slice.isNone
  else if firstOf pg = 0x100 ∨ firstOf pg = 0x180 then s.unitIdle pg
  else if firstOf pg = 0x080 then s.parked .tx (pg - 0x080)
  else if firstOf pg = 0x088 then s.parked .rx (pg - 0x088)
  else false

/-- Software may reset the page's block (R409). -/
def resetOk (s : State) (pg : Nat) : Bool :=
  if ([0x010, 0x011, 0x00A, 0x200, 0x008, 0x009, 0x016, 0x012] : List Nat).contains pg then true
  else if firstOf pg = 0x100 ∨ firstOf pg = 0x180 then s.unitIdle pg
  else false

/-- A gate request takes effect: the gate closes at an idle clock of the bus interface, and waits while it is busy or the block
is in reset. -/
def gateClose (s : State) (pg : Nat) (busy : Bool) : State :=
  let s := s.flag (pgCtl pg) pgGateReq true
  if busy || s.on (pgStat pg) pgInReset then s.updClk fun c => { c with gateWait := pg :: c.gateWait.filter (· != pg) }
  else s.flag (pgStat pg) pgGated true

/-- The bus is idle: the closes that wait take place, but for blocks in reset. -/
def gatesClose (s : State) : State :=
  let w := s.clk.gateWait.partition fun pg => s.on (pgStat pg) pgInReset
  (w.2.foldl (fun (t : State) pg => t.flag (pgStat pg) pgGated true) s).updClk fun c => { c with gateWait := w.1 }

/-- The controller's domain is needed: it serves, swaps, is under test, or has been powered as a spare. -/
def ctrlPowered (s : State) (k : Nat) : Bool :=
  let a := R.CHC_CHAN_MAP k
  !s.on (pgStat (chcPg k)) pgRetired
    && (s.on a F.CHC_CHAN_MAP_ACTIVE || s.on a F.CHC_CHAN_MAP_SWAPPING || s.spare.ctrlOn.contains k
      || s.on (pgStat (chcPg k)) pgUnderTest)

/-- The engine's domain is needed: it is neither an idle spare that is off nor retired. -/
def engPowered (s : State) (e : Nat) : Bool := decide (s.engState e ≠ 0 ∧ s.engState e ≠ 5)

/-- The power controller requests the gate of a page: a controller's or an engine's that is spare or retired (R22, R355). -/
def hwGateReq (s : State) (pg : Nat) : Bool :=
  if 0x100 ≤ pg ∧ pg < 0x124 then !s.ctrlPowered (pg - 0x100)
  else if 0x180 ≤ pg ∧ pg < 0x1A4 then !s.engPowered (pg - 0x180)
  else false

/-- The pages of controllers and engines. -/
def unitPages : List Nat := ((List.range 36).map chcPg) ++ (List.range 36).map engPg

/-- A page is gated by a request of the power controller. -/
def hwGated (s : State) (pg : Nat) : Bool := s.clk.hwGates.contains pg && s.hwGateReq pg

/-- The bus is idle: the power controller's requests take effect, but for those that wait after a refusal (DESIGN CHOICE,
assumption 142). -/
def hwGatesClose (s : State) : State :=
  if s.bootStep < 6 then s
  else
    let wait := s.clk.hwRetry.filter fun e => decide (s.clk.up < e.2) && s.hwGateReq e.1
    let l := unitPages.filter fun pg => s.hwGateReq pg && !(wait.any fun e => e.1 == pg)
    s.updClk fun c => { c with hwGates := l, hwRetry := wait }

/-- A close is refused: counted, with its page. -/
def gateRefused (s : State) (pg : Nat) : State := (s.wr R.CLK_GATE_LAST (BitVec.ofNat 32 pg)).inc R.CLK_GATE_DENIALS

/-- A close that has waited 256 register clocks is refused; the time in reset does not count. The power controller makes its
request again after 1 ms (R355). -/
def gateDenied (s : State) (pg : Nat) : State :=
  if s.on (pgStat pg) pgInReset then s
  else if s.clk.gateWait.contains pg then
    let s := s.updClk fun c => { c with gateWait := c.gateWait.filter (· != pg) }
    (s.flag (pgCtl pg) pgGateReq false).gateRefused pg
  else if s.hwGateReq pg && !s.clk.hwGates.contains pg && !(s.clk.hwRetry.any fun e => e.1 == pg) then
    (s.updClk fun c => { c with hwRetry := c.hwRetry ++ [(pg, c.up + 1000000)] }).gateRefused pg
  else s

/-- The gate request is cleared: the gate opens. -/
def gateRelease (s : State) (pg : Nat) : State :=
  ((s.flag (pgCtl pg) pgGateReq false).flag (pgStat pg) pgGated false).updClk fun c =>
    { c with gateWait := c.gateWait.filter (· != pg) }

/-- The block of a page runs: released, and its clock not gated. -/
def blockRuns (s : State) (pg : Nat) : Bool := s.on (pgStat pg) pgReady && !s.on (pgStat pg) pgGated

end State
end Sys2Proof.Machine
end

