-- ==== Sys2Proof/Machine/Perf.lean ====
section
/-! DEFINITION. The performance monitor: page counters and their configuration, snapshots, the sample ring's copy, and
the user's view (R430 to R444). -/

namespace Sys2Proof.Machine

/-- PC_CFG.EVENT names a countable event of the page (R431). -/
def eventOk (pg : Nat) (cfg : Word) : Bool :=
  let e := F.PERF_PC_CFG_EVENT.get cfg
  let low := e % 256
  match e / 256 with
  | 0 => false
  | 1 => (levelClasses (firstOf pg)).any (fun x => x.1 == low % 32) || (pg == 2 && decide (low % 32 < 25))
  | 2 => isCounter pg low
  | _ => true

/-- Pages under the page convention (R463). -/
def pagesAll : List Nat := (pageRows.map fun r => (List.range r.insts).map (r.first + ·)).flatten

namespace State

def perfCtr (s : State) (k : Nat) : BitVec 48 := SMap.get (fun _ => 0) s.perf.ctrs k
def perfSnap (s : State) (k : Nat) : BitVec 48 := SMap.get (fun _ => 0) s.perf.snaps k
def perfCfg (s : State) (k : Nat) : Word := SMap.get (fun _ => 0) s.perf.cfgs k

/-- The counter that a selection word names, none for an unassigned page: page [9:0], counter [11:10]. -/
def perfKey (_ : State) (w : Word) : Option Nat :=
  let pg := w.toNat % 1024
  if (pageRow pg).isSome then some (4 * pg + w.toNat / 1024 % 4) else none

def perfSel (s : State) : Option Nat := s.perfKey (s.rd R.PERF_PC_SEL)

/-- PC_CFG as it reads. -/
def perfCfgView (s : State) : Word :=
  match s.perfSel with
  | none => 0
  | some k => F.PERF_PC_CFG_EVENT_OK.set (eventOk (k / 4) (s.perfCfg k)).toNat (s.perfCfg k)

/-- A write of PC_CFG: EVENT and MODE of the selected counter. -/
def perfCfgWrite (s : State) (v : Word) : State :=
  match s.perfSel with
  | none => s
  | some k => { s with perf := { s.perf with cfgs := SMap.set (fun _ => 0) k (v &&& 0x7FF) s.perf.cfgs } }

/-- Does a count of this kind reach the counter: kind, its event number, and a countable event. -/
def perfWants (k kind low : Nat) (cfg : Word) : Bool :=
  let e := F.PERF_PC_CFG_EVENT.get cfg
  e / 256 == kind && (kind == 3 || (if kind = 1 then e % 32 == low else e % 256 == low)) && eventOk (k / 4) cfg

def perfFrozen (s : State) : Bool := s.on R.PERF_PERF_STAT F.PERF_PERF_STAT_FROZEN

/-- A level source bit rises: the edge-mode counters on it count (R431). -/
def perfEdge (s : State) (pg bit : Nat) : State :=
  s.perfEvent pg (fun c => perfWants (4 * pg) 1 bit c && F.PERF_PC_CFG_MODE.get c == 0) 1

/-- Clocks of a page's domain in 20 ns (R18, R19, R331). For pages whose block R18's table does not list: the core clock for PERF
and PERFU, the channel clock for CHP and DDIE, the register bus for BIST and CAL (DESIGN CHOICE, assumption 137). -/
def pageClocks (s : State) (pg : Nat) : Nat :=
  let f := firstOf pg
  let tosc := s.on R.MGMT_GONDOLA_STAT F.MGMT_GONDOLA_STAT_ON_TOSC
  let div := max 1 (s.fld R.CLK_CLK_CTL F.CLK_CLK_CTL_REGBUS_DIV)
  if s.on (0x1000 * pg + 0x10) ⟨1, 1⟩ || s.clk.hwGates.contains pg || s.inReset then 0
  else if f = 0x01 then (if tosc then 4 else 20)
  else if f = 0x08 ∨ f = 0x09 then (if s.drogue then 0 else if tosc then 2 else 20 / div)
  else if f = 0x10 ∨ f = 0x11 then 10
  else if f = 0x0E ∨ f = 0x80 ∨ f = 0x88 then (if s.drogue then 0 else 35)
  else if f = 0x16 ∨ f = 0x17 ∨ f = 0x100 ∨ f = 0x140 ∨ f = 0x1C0 then (if s.drogue then 0 else 24)
  else if f = 0x180 then (if s.drogue then 0 else 2 * min 16 (coreTenths s.dvPoint))
  else if 0x0A ≤ f ∧ f ≤ 0x0F ∨ f = 0x40 ∨ f = 0x1D0 ∨ f = 0x200 then (if s.drogue then 0 else 2 * coreTenths s.dvPoint)
  else 1

/-- What 20 ns add to the counters on clocks and, two ticks, on levels; `level` says which source bits are set. -/
def perfTick (s : State) (level : Nat → Nat → Bool) : State :=
  if s.perfFrozen then s
  else s.perf.cfgs.foldl (fun (t : State) e =>
    let ev := F.PERF_PC_CFG_EVENT.get e.2
    if ev / 256 = 3 then t.perfAdd e.1 (s.pageClocks (e.1 / 4))
    else if perfWants e.1 1 (ev % 32) e.2 ∧ F.PERF_PC_CFG_MODE.get e.2 = 1 ∧ !s.drogue ∧ level (e.1 / 4) (ev % 32) then
      t.perfAdd e.1 2
    else t) s

/-- FREEZE takes effect, or ends (R433). -/
def perfFreeze (s : State) (b : Bool) : State :=
  (s.flag R.PERF_PERF_CTL F.PERF_PERF_CTL_FREEZE b).flag R.PERF_PERF_STAT F.PERF_PERF_STAT_FROZEN b

/-- SNAPSHOT (R434). -/
def perfSnapshot (s : State) : State :=
  let s := { s with perf := { s.perf with snaps := s.perf.ctrs } }
  ((s.wr64 R.PERF_SNAP_TS_LO s.ts).inc R.PERF_SNAP_COUNT).flag R.PERF_PERF_STAT F.PERF_PERF_STAT_SNAP_VALID true

/-- A record with NMA has opened (R433, R434). -/
def perfNma (s : State) : State :=
  let s := if s.on R.PERF_PERF_CTL F.PERF_PERF_CTL_SNAP_ON_NMA then s.perfSnapshot else s
  if s.on R.PERF_PERF_CTL F.PERF_PERF_CTL_FREEZE_ON_NMA then s.perfFreeze true else s

/-- CLEAR of the selected counter, and CLEAR_ALL (R435). -/
def perfClear (s : State) : State :=
  match s.perfSel with
  | none => s
  | some k => { s with perf := { s.perf with ctrs := SMap.set (fun _ => 0) k 0 s.perf.ctrs } }
def perfClearAll (s : State) : State := { s with perf := { s.perf with ctrs := [] } }

/-- RING_SEL copies its entry into RING_WORD (R440). -/
def ringSelect (s : State) : State :=
  let e := SMap.get (fun _ => (0 : BitVec 1024)) s.perf.ring (s.fld R.PERF_RING_SEL F.PERF_RING_SEL_INDEX)
  let s := (List.range 32).foldl (fun (t : State) i => t.wr (R.PERF_RING_WORD i) (e.extractLsb' (32 * i) 32)) s
  s.flag R.PERF_RING_SEL_STAT F.PERF_RING_SEL_STAT_DONE true

/-- SAMP_SEED is loaded on its write; 0 acts as 1 (R443). -/
def seedWrite (s : State) : State :=
  let v := s.rd R.PERF_SAMP_SEED
  { s with perf := { s.perf with lfsr := if v = 0 then 1 else v } }

/-- A block reset of PERF (R435, R438). -/
def perfReset (s : State) : State := { s with perf := {} }

/-- The counter that PERFU slot `n` shows (R442). -/
def userKey (s : State) (n : Nat) : Option Nat :=
  let w := s.rd (R.PERF_USER_MAP n)
  if w.getLsbD 31 then s.perfKey w else none

/-- USER_STAT. -/
def userStat (s : State) : Word :=
  BitVec.ofNat 32 ((List.range 16).foldl (fun n i => if (s.rd (R.PERF_USER_MAP i)).getLsbD 31 then n + 2 ^ i else n) 0
    + s.perfFrozen.toNat * 2 ^ 16 + (s.on R.PERF_PERF_STAT F.PERF_PERF_STAT_SNAP_VALID).toNat * 2 ^ 17)

end State
end Sys2Proof.Machine
end

