-- ==== Sys2Proof/Machine/Reset.lean ====
section
/-! DEFINITION. Resets: chip reset with what it keeps, the orderly reset, VAUX, block reset, the shut-down of a thermal
trip, and the ENABLE bit of the unit pages (R9, R163, R281, R326, R357 to R360, R409). -/

namespace Sys2Proof.Machine

/-- Registers that a chip reset leaves unchanged (R360, R364, R425, R429). -/
def keptRegs : List Nat :=
  [R.FCOL_FAULT_RESETS, R.CLK_XO_TRIPS, R.CLK_LINK_CLK_TRIPS, R.CLK_DROGUE_ENTRIES, R.DEV_SCRATCH 0, R.DEV_SCRATCH 1,
   R.DEV_SCRATCH 2, R.DEV_SCRATCH 3, R.HEALTH_UNAVAIL_LO, R.HEALTH_UNAVAIL_HI, R.HEALTH_UNAVAIL_EVENTS,
   R.HEALTH_LAST_UNAVAIL]

/-- The pages that chip reset takes whatever holds power: those released at boot step 6 (R463). -/
def switchedPages : List Nat :=
  (pageRows.filter fun r => r.released == 6).flatMap fun r => (List.range r.insts).map (r.first + ·)

namespace State

/-! ### Chip reset (R358, R360) -/

/-- What the placement engine finds again after an orderly reset: the mirrors in the keel area (R163). -/
def keptPlace (s : State) (clean : Bool) : PlaceState :=
  if clean then
    { cap := s.place.cap, table := s.place.table, frames := s.place.frames, keel := s.place.keel, journal := s.place.journal
      jseq := s.place.jseq, sinceCkpt := s.place.sinceCkpt, keelLost := s.place.keelLost, ckptTable := s.place.ckptTable, ckptFrames := s.place.ckptFrames, ckptSeq := s.place.ckptSeq
      clean := true }
  else {}

/-- The unavailability that a reset ends or goes on with: only a CHIP_RESET reaction counts up to link ready (R313). -/
def closeOutage (s : State) (cause : Nat) : State :=
  match s.spare.outage with
  | none => s
  | some t =>
    if cause = 4 then s
    else
      let us := (((s.clk.up : Int) - t) / 1000).toNat
      let s := (s.inc64 R.HEALTH_UNAVAIL_LO us).inc R.HEALTH_UNAVAIL_EVENTS
      s.wr R.HEALTH_LAST_UNAVAIL (BitVec.ofNat 32 us)

/-- The outage that a chip reset leaves running, on the clock that starts again at 0. -/
def outageAfter (s : State) (cause : Nat) : Option Int :=
  if cause ≠ 4 then none
  else match s.spare.outage with
    | some t => some (t - s.clk.up)
    | none => if s.linkActive then some 0 else none

/-- Chip reset for a cause, as its RESET_CAUSE bit; `clean` says that the orderly reset wrote its clean mark. -/
def chipReset (s : State) (cause : Nat) (clean : Bool) : State :=
  let s := (if cause = 4 then s.inc R.FCOL_FAULT_RESETS else s).closeOutage cause
  let out := s.outageAfter cause
  let alert := s.fcol.recs.any (fun e => e.2.alert) || s.on R.FCOL_FC_STAT F.FCOL_FC_STAT_PRE_RESET_ALERT
  let t : State := {
    pending := s.pending, free := s.free
    regs := SMap.setAll regReset (keptRegs.map fun a => (a, s.rd a)) []
    clk := { vaux := s.clk.vaux, resetN := s.clk.resetN, held := s.clk.resetN, perstN := s.clk.perstN, xoOn := s.clk.xoOn }
    fcol := { alertN := s.fcol.alertN }
    place := s.keptPlace clean
    dram := if clean then s.dram else []
    ch := { selfRefresh := if clean then List.range 64 else [] }
    therm := if clean then { ring := s.therm.ring, keelSave := s.therm.keelSave, hours := s.therm.hours } else {}
    otp := { array := s.otp.array, partly := s.otp.partly }, sec := { draws := s.sec.draws }
    spare := { outage := out, starting := out.isNone, planned := decide (cause = 2 ∨ cause = 3) }
    mgmt := { flash := s.mgmt.flash, logSeq := s.mgmt.logSeq, logAt := s.mgmt.logAt } }
  let t := t.syncSelfRefresh
  let t := t.wr R.CLK_RESET_CAUSE (BitVec.ofNat 32 (2 ^ cause + if clean then 256 else 0))
  let t := t.flag R.CLK_CLK_STAT F.CLK_CLK_STAT_REFCLK_PRESENT s.refclkPresent
  let t := t.flag R.THERM_THERM_STAT2 F.THERM_THERM_STAT2_TRIP_LATCHED s.tripped
  let t := t.flag R.SEC_SEC_STAT F.SEC_SEC_STAT_SCAN_CLEARED (s.on R.SEC_SEC_STAT F.SEC_SEC_STAT_SCAN_CLEARED)
  (t.flag R.FCOL_FC_STAT F.FCOL_FC_STAT_PRE_RESET_ALERT alert).flag R.FCOL_FC_STAT F.FCOL_FC_STAT_ALERT t.fcol.alertN

/-! ### VAUX (R358, R454) -/

/-- The state that only OTP and flash survive into. -/
def cold (s : State) (vaux : Bool) : State := {
  pending := s.pending, free := s.free
  clk := { vaux := vaux, resetN := s.clk.resetN, held := vaux && s.clk.resetN, perstN := s.clk.perstN }
  otp := { array := s.otp.array, partly := s.otp.partly }, sec := { draws := s.sec.draws }
  mgmt := { flash := s.mgmt.flash, logSeq := s.mgmt.logSeq, logAt := s.mgmt.logAt } }

/-- VAUX rises above its power-on level: everything takes its reset value. -/
def powerOn (s : State) : State :=
  if s.clk.vaux then s
  else (s.cold true).flag R.CLK_CLK_STAT F.CLK_CLK_STAT_REFCLK_PRESENT s.refclkPresent

/-- VAUX falls below 1.55 V: the chip resets at once. -/
def powerDrop (s : State) : State :=
  (s.cold false).flag R.CLK_CLK_STAT F.CLK_CLK_STAT_REFCLK_PRESENT s.refclkPresent

/-! ### The orderly reset (R163, R358) -/

/-- An orderly reset starts for a cause: running works stop at their next chunk boundary (R247). -/
def orderlyStart (s : State) (cause : Nat) : State :=
  if s.clk.orderly.isSome then s
  else
    let s := s.updClk fun c => { c with orderly := some cause }
    s.eng.works.foldl (fun (t : State) w => t.stopWork w 4) s

/-- The write data buffer goes to the frames. -/
def storeBuffer (s : State) : State :=
  let s := s.wdb.foldl (fun (t : State) e =>
    let w := t.entry (liParcel e.li)
    if eHeld w then t.storeFrame (eFrame w) (liOff e.li) e.line else t) s
  { s with wdb := [] }

/-- Table repairs that run end first (DEDUCED, assumption 107). -/
def endRepairs (s : State) : State :=
  (s.place.repair.filterMap fun (e : Nat × Option Word) => e.2.map fun _ => e.1).foldl
    (fun (t : State) n => t.repairDone n false false) s

/-- The steps of R163 before the reset itself. The clean mark stands in the mirrors that are valid. -/
def retain (s : State) (m : LookupIn) : State :=
  let s := s.endRepairs.stopAllWorks m
  let s := (s.place.mig.map Prod.fst).foldl (fun (t : State) k => t.abortMig k false) s
  let s := (s.flushAll m).storeBuffer.checkpoint
  let s := s.keelWear (s.therm.savedSeq + 1) (s.wearRecord (s.therm.savedSeq + 1))
  let s := s.journal 7 0 0 0
  { s with place := { s.place with clean := s.mirrorOk false || s.mirrorOk true } }.enterSelfRefresh

/-- A controller swap or a row repair holds accesses, which the write-backs of the orderly reset have to wait for
(R202, R207; DEDUCED, assumption 140). -/
def dramHeld (s : State) : Bool := s.clk.dramInit && (!s.ch.swaps.isEmpty || s.ch.repair.any fun e => e.2.isSome)

/-- ORDERLY_RESET_DONE: it cannot end without clocks, nor while a swap or a repair holds what it is to write back. -/
def orderlyDone (s : State) (m : LookupIn) : State :=
  match s.clk.orderly with
  | none => s
  | some cause =>
    if s.drogue || s.tripped || s.dramHeld then s
    else if s.clk.dramInit then (s.retain m).chipReset cause (s.retain m).place.clean
    else s.chipReset cause false

/-- ORDERLY_RESET_TIMEOUT: 50 ms have passed. -/
def orderlyTimeout (s : State) : State :=
  match s.clk.orderly with
  | none => s
  | some cause => s.chipReset cause false

/-- RST_CMD: nothing without the key 0x0B7A in the same write. -/
def rstCmd (s : State) (v : Word) : State :=
  if F.CLK_RST_CMD_KEY.get v ≠ 0x0B7A then s
  else if F.CLK_RST_CMD_IMMEDIATE.get v = 1 then s.chipReset 3 false
  else if F.CLK_RST_CMD_ORDERLY.get v = 1 then
    { s.orderlyStart 2 with spare := { (s.orderlyStart 2).spare with planned := true } }
  else s

/-- RESET_N is recognised as asserted. -/
def resetAssert (s : State) : State :=
  if !s.clk.vaux || s.clk.resetN then s
  else
    let s := s.updClk fun c => { c with resetN := true }
    if s.clk.orderly.isSome then s
    else if s.clk.dramInit && !s.drogue && !s.tripped then s.orderlyStart 1
    else s.chipReset 1 false

/-- RESET_N is recognised as deasserted: boot starts unless the orderly reset still runs. -/
def resetDeassert (s : State) : State :=
  if s.clk.vaux && s.clk.resetN then
    s.updClk fun c => { c with resetN := false, held := false, bootFrom := if c.held then c.up else c.bootFrom }
  else s

/-- A CHIP_RESET reaction: every open record goes to the log, then the orderly reset runs (R281). -/
def faultReset (s : State) : State :=
  if !s.fcol.chipReset then s
  else
    let s := { s with fcol := { s.fcol with chipReset := false } }
    let s := s.fcol.recs.foldl (fun (t : State) e =>
      if e.2.isOpen then t.logRec (recEvent e.1 e.2 true 0 t.ts) else t) s
    (s.logAll.orderlyStart 4).countOutage

/-! ### Block reset (R9, R279, R409) -/

/-- Registers that a block reset leaves: they show the unit's place in service or the PCIe link (R9, R11, R409). -/
def blockKeeps (a : Nat) : Bool :=
  let pg := pageOf a
  let off := offOf a
  decide (off < 0x40) || (firstOf pg == 0x100 && off == 0x44) || (firstOf pg == 0x180 && off == 0x44)
    || a == R.PCIEM_PCIE_STAT

/-- A register's reset value, with its locked RWL fields kept. -/
def regBlockReset (s : State) (a : Nat) : State :=
  let m := BitVec.ofNat 32 (if s.pageLocked (pageOf a) then fieldsMask (· == .rwl) (fieldsAt a) else 0)
  s.wr a ((regReset a &&& ~~~m) ||| (s.rd a &&& m))

/-- The registers of a page take their reset values. -/
def pageReset (s : State) (pg : Nat) : State :=
  let as := (s.regs.map Prod.fst).filter fun a => decide (pageOf a = pg) && !blockKeeps a
  let s := as.foldl (fun (t : State) a => t.regBlockReset a) s
  { s with
    shadows := SMap.erase (fun a => decide (pageOf a = pg)) s.shadows
    pairLow := SMap.erase (fun a => decide (pageOf a = pg)) s.pairLow }

/-- What a block holds beside its page's registers is cleared. -/
def blockClear (s : State) (pg : Nat) : State :=
  if pg = 0x00A then s.perfReset
  else if pg = 0x008 then
    let s := match s.bist.slice with | some x => s.sliceReturn x | none => s
    { s with bist := { loopOut := s.bist.loopOut, failing := s.bist.failing } }
  else if pg = 0x009 then
    let s := if s.on R.CAL_CAL_STAT F.CAL_CAL_STAT_PENDING then s.calEnd else s
    { s with cal := { adc := s.cal.adc, sensor := s.cal.sensor } }
  else if pg = 0x016 then
    { s with ch := { s.ch with scrubRun := s.ch.scrubRun.filter ScrubRun.retest } }
  else if pg = 0x011 then { s with mgmt := { s.mgmt with readLeft := 0, wren := false } }
  else s

/-- Reset the block of a page; a closed gate opens for it and closes again (R356). -/
def blockReset (s : State) (pg : Nat) : State :=
  let s := (s.blockClear pg).pageReset pg
  let s := { s with fcol := { s.fcol with rose := SMap.erase (fun a => decide (pageOf a = pg)) s.fcol.rose } }
  -- a retest of the fault collector goes on through the scrub unit (R222)
  if pg = 0x016 then s.flag R.SCRUB_SCRUB_STAT F.SCRUB_SCRUB_STAT_CMD_BUSY s.ch.scrubRun.isSome else s

/-- The block resets that reactions have asked for (R279). -/
def runResets (s : State) : State :=
  let l := s.fcol.resets.filter fun pg => blockResetPages.contains pg
  l.foldl (fun (t : State) pg => (t.blockReset pg).inc R.FCOL_BLOCK_RESETS) { s with fcol := { s.fcol with resets := [] } }

/-! ### ENABLE (R409) -/

/-- Write PG_CTL.ENABLE of a CHC page: a clear swaps the controller out, and a set swaps it back. None when the clear is
refused. -/
def enableCtrl (s : State) (k : Nat) (en : Bool) : Option State :=
  let a := pgCtl (chcPg k)
  if en = s.on a ⟨0, 1⟩ then some s
  else if en then
    let s := s.flag a ⟨0, 1⟩ true
    if s.on (pgStat (chcPg k)) pgSpared then
      match s.ctrlOf (s.chanOf k) with
      | some cur =>
        some ({ s with spare := { s.spare with ctrlOn := k :: s.spare.ctrlOn.filter (· ≠ k) } }.swapBegin cur k)
      | none => some s
    else some s
  else if s.on (R.CHC_CHAN_MAP k) F.CHC_CHAN_MAP_ACTIVE then
    match s.quadSpare (k / 9) with
    | none => none
    | some n =>
      some (({ s with spare := { s.spare with ctrlOn := n :: s.spare.ctrlOn.filter (· ≠ n) } }.swapBegin k n).flag a ⟨0, 1⟩
        false)
  else some (s.flag a ⟨0, 1⟩ false)

/-- Write ENG_CTL.EN, which PG_CTL.ENABLE of the page shows too. -/
def enableEng (s : State) (e : Nat) (en : Bool) : State :=
  if en = s.on (R.ENG_ENG_CTL e) F.ENG_ENG_CTL_EN then s
  else ((s.flag (R.ENG_ENG_CTL e) F.ENG_ENG_CTL_EN en).flag (pgCtl (engPg e)) ⟨0, 1⟩ en).engEnable e

/-! ### Thermal trip (R326, R327) -/

/-- The shut-down of a trip: transmit lanes in electrical idle, dies in self-refresh, every switched domain but the PCIe
port's off with its blocks in reset; host data is lost. -/
def tripShut (s : State) : State :=
  let s := s.flag R.THERM_THERM_STAT2 F.THERM_THERM_STAT2_TRIP_LATCHED true
  let keep := fun (a : Nat) => decide (switchedPages.contains (pageOf a))
  let s := { s with
    regs := SMap.erase keep s.regs, shadows := SMap.erase keep s.shadows, pairLow := SMap.erase keep s.pairLow
    perf := {}, link := {}, xact := {}, bridle := {}, place := {}, wdb := [], cache := {}, dram := []
    ch := { selfRefresh := List.range 64 }, eng := {}, bist := {}, cal := { adc := s.cal.adc, sensor := s.cal.sensor } }
  let s := s.updClk fun c => { c with dramInit := false, gateWait := [] }
  if s.fwRunning && s.flashPresent then s.tripSave.logAll else s

/-! ### Blocks that leave reset at boot (R361, R463) -/

/-- The pages whose release step is `n` answer from now on. -/
def releasePages (s : State) (n : Nat) : State :=
  let pgs := (pageRows.filter fun r => r.released == n).flatMap fun r => (List.range r.insts).map (r.first + ·)
  pgs.foldl (fun (t : State) pg => (t.flag (pgStat pg) pgReady true).flag (pgStat pg) pgInReset false) s

end State
end Sys2Proof.Machine
end

