-- ==== Sys2Proof/Machine/Levels.lean ====
section
/-! DEFINITION. The level sources of every page: what each bit of PG_EVT_STAT shows (R278, R285). -/

namespace Sys2Proof.Machine

namespace State

/-- QUIET_MS of the fault collector (R285). -/
def quietMs (s : State) : Nat := max 1 (s.fld R.FCOL_FC_CTL F.FCOL_FC_CTL_QUIET_MS)

/-- The counter at `a` has risen within QUIET_MS. -/
def roseLately (s : State) (a : Nat) : Bool :=
  let r := SMap.get (fun _ => 0) s.fcol.rose a
  decide (r ≠ 0 ∧ s.clk.up < r - 1 + s.quietMs * 1000000)

/-- Forget the rise of a counter. -/
def setRose (s : State) (a : Nat) : State :=
  { s with fcol := { s.fcol with rose := SMap.set (fun _ => 0) a 0 s.fcol.rose } }

def linkLevels (s : State) : List Bool :=
  [!s.linkActive, s.widthDegraded .rx || s.widthDegraded .tx, decide (s.rxState = 2 ∨ s.txState = 3),
   decide (s.txState = 1 ∨ s.rxState = 1), decide (s.txState = 2), s.on R.LINK_LL_STAT2 F.LINK_LL_STAT2_CRED_CFG_BAD,
   decide (s.rxState = 3)]

def xactLevels (s : State) : List Bool :=
  [decide (48 ≤ s.xact.events.length), decide (64 ≤ s.xact.events.length), decide (4096 ≤ s.xact.reqs.length),
   s.creditWait && decide (s.xact.starved ≠ 0 ∧ s.xact.starved - 1 + 10000 < s.clk.up)]

def placeLevels (s : State) : List Bool :=
  [s.on R.PLACE_DEFICIT F.PLACE_DEFICIT_OPEN,
   decide (s.fld R.PLACE_PARCELS_WITHDRAWN F.PLACE_PARCELS_WITHDRAWN_COUNT ≠ 0),
   decide (s.fld R.PLACE_EVAC_PENDING F.PLACE_EVAC_PENDING_COUNT ≠ 0),
   s.place.laid && !(s.mirrorOk false && s.mirrorOk true), !s.place.repair.isEmpty,
   s.place.laid && decide (s.fld R.PLACE_FRAMES_FREE F.PLACE_FRAMES_FREE_COUNT < 8192)]

def cacheLevels (s : State) : List Bool :=
  let high := 1024 * s.fld R.CACHE_DIRTY_CTL F.CACHE_DIRTY_CTL_DIRTY_HIGH
  [!s.on R.CACHE_CACHE_STAT F.CACHE_CACHE_STAT_ENABLED,
   (List.range 16).any fun b => decide (s.bankState b = 1 ∨ s.bankState b = 2),
   quads.any fun q => decide (high < s.fld (R.CACHE_DIRTY_LINES q) F.CACHE_DIRTY_LINES_COUNT),
   s.on R.CACHE_CACHE_STAT F.CACHE_CACHE_STAT_FLUSHING]

/-- The CRC of a die's identity record fails; a die that is absent reads zeros and has no record (R368, R377). -/
def idBad (s : State) (a : Nat → Nat) : Bool :=
  (s.rd (a 3)).toNat != crc32c (wordBytes ((List.range 3).map fun i => s.rd (a i)))

/-- The base-die record's CRC. -/
def baseIdBad (s : State) : Bool := decide (4 < s.bootStep) && s.idBad R.FUSE_DIE_ID

def cdieLevels (s : State) : List Bool :=
  [(List.range 16).any fun b => decide (s.bankState b = 1),
   !s.on R.CDIE_CDIE_STAT F.CDIE_CDIE_STAT_RESPONDING && s.cacheOn,
   decide (9 < s.bootStep) && (List.range 4).any (fun i => s.rd (R.CDIE_DIE_ID i) ≠ 0) && s.idBad R.CDIE_DIE_ID]

def chcLevels (s : State) (k : Nat) : List Bool :=
  let full := fun (pc : Nat) => decide (64 ≤ (s.pch pc).rq.length ∨ 64 ≤ (s.pch pc).wq.length)
  [s.on (R.CHC_CHAN_MAP k) F.CHC_CHAN_MAP_ACTIVE && (full (2 * s.chanOf k) || full (2 * s.chanOf k + 1)),
   s.on (R.CHC_CHAN_MAP k) F.CHC_CHAN_MAP_SWAPPING]

def chpLevels (s : State) (c : Nat) : List Bool :=
  let a := R.CHP_PHY_STAT c
  let p := [2 * c, 2 * c + 1]
  [p.any fun pc => !s.pchRetired pc && !s.pchTrained pc,
   p.any fun pc => decide (s.fld a (spareField pc false) = 0 ∨ s.fld a (spareField pc true) = 0),
   p.any s.pchRetired, s.on a F.CHP_PHY_STAT_CHAN_RETIRED]

def ddieLevels (s : State) (d : Nat) : List Bool :=
  let a := R.DDIE_DIE_STAT d
  [s.on a F.DDIE_DIE_STAT_RETIRING,
   decide (9 < s.bootStep) && !s.on a F.DDIE_DIE_STAT_PRESENT && !s.on a F.DDIE_DIE_STAT_RETIRED,
   decide (9 < s.bootStep) && s.on a F.DDIE_DIE_STAT_PRESENT && s.idBad (R.DDIE_DIE_ID d)]

def rfmLevels (s : State) : List Bool :=
  [dies.any fun d => decide (s.dieStep d ≠ 0), dies.any fun d => decide (s.dieStep d = 2),
   s.ch.trk.any fun e => s.spillCond e.1]

def quadLevels (s : State) (q : Nat) : List Bool :=
  let n := ((quadEngines q).filter fun e => s.engUsable e).length
  [!(s.engSpareOf q).any fun sp => s.engUsable sp && (s.runningOn sp).isNone,
   decide (64 ≤ (s.quadWorks q).length ∨ 32 ≤ (s.quadRecords q).length), decide (n < 8), decide (n = 0)]

def bridleLevels (s : State) : List Bool :=
  [s.on R.BRIDLE_BR_STAT F.BRIDLE_BR_STAT_SHORT, classes.any fun t => decide (2 ≤ SMap.get (fun _ => 0) s.bridle.behindFor t),
   decide (s.fld R.BRIDLE_BR_STAT F.BRIDLE_BR_STAT_LATE ≠ 0),
   decide (16384 ≤ s.heldAll) || (List.range 64).any fun m => decide (s.holdMax ≤ s.heldOf m),
   decide (100 * s.fld R.BRIDLE_DELIV_DRAM F.BRIDLE_DELIV_DRAM_RATE
     < s.fld R.BRIDLE_HOLD_CTL F.BRIDLE_HOLD_CTL_DELIV_LOW_PCT * 20889)]

def thermLevels (s : State) : List Bool :=
  [(List.range 18).any fun l => decide (SMap.get (fun _ => 1) s.therm.frac l < 1),
   s.therm.sampled && (List.range 18).any fun l => decide ((s.ventFull l : Rat) ≤ s.layerReading l),
   decide (s.fld R.THERM_THERM_STAT2 F.THERM_THERM_STAT2_SUSPECT ≠ 0),
   decide (s.fld R.THERM_THERM_STAT2 F.THERM_THERM_STAT2_BROKEN ≠ 0),
   s.on R.THERM_THERM_STAT2 F.THERM_THERM_STAT2_BOUND_FALLBACK, s.tripped]

def pwrLevels (s : State) : List Bool :=
  [s.on R.PWR_CAP_STAT F.PWR_CAP_STAT_LIMITING,
   decide (s.fld R.PWR_DVFS_CTL F.PWR_DVFS_CTL_TARGET < s.fld R.PWR_DVFS_STAT F.PWR_DVFS_STAT_CEILING),
   s.on R.PWR_DVFS_STAT F.PWR_DVFS_STAT_VDD_FAULT,
   (List.range 7).any fun r => s.on (R.PWR_RAIL_MON r) F.PWR_RAIL_MON_OUT]

def clkLevels (s : State) : List Bool :=
  [decide (6 < s.bootStep) && !s.xoOk, s.drogue, s.on R.CLK_CLK_STAT F.CLK_CLK_STAT_DROGUE_EXPIRED, decide (s.refSrc = 3),
   !s.clk.unlocked.isEmpty, s.on R.CLK_BOOT_STAT F.CLK_BOOT_STAT_STALLED]

def fuseLevels (s : State) : List Bool :=
  [decide (s.fld R.FUSE_INTEG_STAT F.FUSE_INTEG_STAT_FAILED ≠ 0),
   decide (s.fld R.FUSE_MARGINAL_CNT F.FUSE_MARGINAL_CNT_MARGINAL ≠ 0), s.roseLately R.FUSE_DRIFTS,
   s.on R.FUSE_APPEND_STAT F.FUSE_APPEND_STAT_FULL,
   decide (s.otp.waitFrom ≠ 0 ∧ s.otp.waitFrom - 1 + 3600000000000 < s.clk.up), s.baseIdBad]

def secLevels (s : State) : List Bool :=
  [decide (s.life = 2 ∨ s.life = 3) && !s.on R.SEC_SEC_STAT F.SEC_SEC_STAT_ATTEST_EN,
   s.on R.SEC_SEC_STAT F.SEC_SEC_STAT_FW_IMAGE, s.sec.zeroFail]

def bistLevels (s : State) : List Bool :=
  [s.bist.adcRef, s.bist.failing.any fun r => s.spare.recs.any fun x => x.res.contains r, quads.any s.ctrlGap,
   !s.bist.loopOut.isEmpty, decide (s.bist.viaOutAt ≠ 0 ∧ s.clk.up < s.bist.viaOutAt - 1 + s.quietMs * 1000000),
   s.on R.BIST_BOOT_FAILS F.BIST_BOOT_FAILS_BLOCK]

def pcieLevels (s : State) : List Bool :=
  [!s.on R.PCIEM_PCIE_STAT F.PCIEM_PCIE_STAT_DL_UP && decide (250000000 < s.clk.up - s.clk.bootFrom) && !s.clk.perstN,
   decide (11 < s.bootStep) && !s.winAvailable]

def spiLevels (s : State) : List Bool :=
  [decide (7 < s.bootStep ∨ (s.bootStep = 7 ∧ s.on R.CLK_BOOT_STAT F.CLK_BOOT_STAT_STALLED)) && !s.flashPresent,
   s.roseLately R.SPI_FLASH_ERRORS, s.rawActive]

/-- The level bits of a page whose block is out of reset, bit 0 first; FCOL's three stand at bits 28 to 30. -/
def pageLevels (s : State) (pg : Nat) : List Bool :=
  let first := firstOf pg
  let i := pg - first
  if first = 0x00E then s.linkLevels
  else if first = 0x00F then s.xactLevels
  else if first = 0x00C then s.placeLevels
  else if first = 0x00D then s.cacheLevels
  else if first = 0x1D0 then s.cdieLevels
  else if first = 0x100 then s.chcLevels i
  else if first = 0x140 then s.chpLevels i
  else if first = 0x1C0 then s.ddieLevels i
  else if first = 0x017 then s.rfmLevels
  else if first = 0x016 then
    [s.on R.SCRUB_SCRUB_STAT F.SCRUB_SCRUB_STAT_BEHIND, s.on R.SCRUB_SCRUB_STAT F.SCRUB_SCRUB_STAT_CMD_BUSY]
  else if first = 0x180 then [decide (s.engState i = 4), decide (s.engState i = 5)]
  else if first = 0x040 then s.quadLevels i
  else if first = 0x00B then s.bridleLevels
  else if first = 0x012 then pins.map s.pinStuck
  else if first = 0x000 then [s.roseLately R.DEV_ACC_ERR_CNT]
  else if first = 0x001 then [decide (7 < s.bootStep) && !s.fwRunning]
  else if first = 0x010 then s.pcieLevels
  else if first = 0x011 then s.spiLevels
  else if first = 0x014 then
    [decide (2 ≤ s.fld R.HEALTH_HEALTH_STAT F.HEALTH_HEALTH_STAT_STATE),
     decide (s.fld R.HEALTH_HEALTH_STAT F.HEALTH_HEALTH_STAT_STATE = 3)]
  else if first = 0x003 then s.clkLevels
  else if first = 0x005 then s.thermLevels
  else if first = 0x004 then s.pwrLevels
  else if first = 0x013 then [s.wearAlarm, s.ageAlarm, s.therm.saveFailed]
  else if first = 0x006 then s.fuseLevels
  else if first = 0x015 then s.secLevels
  else if first = 0x008 then s.bistLevels
  else if first = 0x009 then [s.toscLimit, s.on R.CAL_CAL_STAT F.CAL_CAL_STAT_PENDING]
  else if first = 0x00A then [s.perfFrozen, s.ringFull]
  else if first = 0x002 then
    List.replicate 28 false ++ [s.on R.FCOL_FC_STAT F.FCOL_FC_STAT_RETEST_BUSY,
      decide (12 ≤ s.fld R.FCOL_FC_STAT F.FCOL_FC_STAT_RETEST_Q), s.on R.FCOL_FC_STAT F.FCOL_FC_STAT_OVERFLOW]
  else []

/-- A level source of a page is active; none while its block is in reset. -/
def levelBit (s : State) (pg bit : Nat) : Bool :=
  s.on (pgStat pg) pgReady && (s.pageLevels pg).getD bit false

/-- PG_EVT_STAT: the level sources, and on FCOL the kinds that hold an open record. -/
def evtStat (s : State) (pg : Nat) : Word :=
  let l := if s.on (pgStat pg) pgReady then s.pageLevels pg else []
  BitVec.ofNat 32 ((l.zipIdx.foldl (fun n e => if e.1 then n + 2 ^ e.2 else n) 0) + if pg = 2 then s.kindBits else 0)

/-- The counter that a level source watches for a rise within QUIET_MS. -/
def roseSource (pg bit : Nat) : Option Nat :=
  if pg = 0 ∧ bit = 0 then some R.DEV_ACC_ERR_CNT
  else if pg = 0x011 ∧ bit = 1 then some R.SPI_FLASH_ERRORS
  else if pg = 6 ∧ bit = 2 then some R.FUSE_DRIFTS
  else none

/-- A change of a source that is active because a counter rose within QUIET_MS says that QUIET_MS has passed. -/
def roseEnd (s : State) (pg bit : Nat) : State :=
  match roseSource pg bit with
  | none => s
  | some a => if s.levelSeen pg bit then s.setRose a else s

/-- The collector looks at a level source again: it opens or merges a record when the source is active and was not, and
tells the performance monitor of the edge. -/
def levelChange (s : State) (pg bit : Nat) : State :=
  let s := s.roseEnd pg bit
  let b := s.levelBit pg bit
  if b && !s.levelSeen pg bit then (s.perfEdge pg bit).levelTo pg bit true (s.evtStat pg)
  else s.levelTo pg bit b (s.evtStat pg)

/-- THERMAL_TRIP: a live sensor or a model node has met its shutdown point (R326). -/
def thermalTrip (s : State) : State :=
  if s.inReset || s.tripped || !s.tripCond then s
  else
    let s := s.flag R.THERM_THERM_STAT2 F.THERM_THERM_STAT2_TRIP_LATCHED true
    (s.levelChange 0x005 5).tripShut

end State
end Sys2Proof.Machine
end

