-- ==== Sys2Proof/Machine/View.lean ====
section
/-! DEFINITION. The current value of every register. Most registers hold their word in `regs`; a register that the
manual gives as a window (an entry chosen by a select register) or as a status of other state is computed here. A
read through the register bus adds the rules of access (`Bus.lean`). -/

namespace Sys2Proof.Machine

/-- A number as a register's word. -/
def word (n : Nat) : Word := BitVec.ofNat 32 n

/-- One word of a 64-bit value: the high word or the low. -/
def halfOf (v : Word64) (hi : Bool) : Word := if hi then v.extractLsb' 32 32 else v.extractLsb' 0 32

/-- One word of a 48-bit counter: bits 47:32 or bits 31:0. -/
def half48 (v : BitVec 48) (hi : Bool) : Word := if hi then (v.extractLsb' 32 16).setWidth 32 else v.extractLsb' 0 32

namespace State

/-! ### Power domains (R21, R22) -/

/-- The cache die's domain is off: the die is retired, or the cache is disabled and its flush has ended (R180). -/
def cacheDieOff (s : State) : Bool :=
  s.on R.CACHE_CACHE_STAT F.CACHE_CACHE_STAT_DIE_RETIRED
    || (!s.on R.CACHE_CACHE_CTL F.CACHE_CACHE_CTL_ENABLE && !s.on R.CACHE_CACHE_STAT F.CACHE_CACHE_STAT_ENABLED
      && !s.on R.CACHE_CACHE_STAT F.CACHE_CACHE_STAT_FLUSHING)

/-- Power domain PD `n` is powered (R21 to R23, R326); a spare or retired unit's goes off once its gate has closed (R465). When during boot the switched domains come on the manual does not
say; they come on with their pages' release: PD126 at step 3, the others at step 6 (DESIGN CHOICE, assumption 111). -/
def pdOn (s : State) (n : Nat) : Bool :=
  if s.inReset then false
  else if s.tripped then n == 126
  else if s.bootStep < 6 then n == 126 && decide (3 ≤ s.bootStep)
  else if n < 36 then !s.hwGated (chcPg n)
  else if n < 72 then !s.hwGated (engPg (n - 36))
  else if n < 104 then !s.on (R.CHP_PHY_STAT (n - 72)) F.CHP_PHY_STAT_CHAN_RETIRED
  else if n < 112 then !s.groupOff .tx (n - 104)
  else if n < 120 then !s.groupOff .rx (n - 112)
  else if n = 125 then !s.cacheDieOff
  else decide (n < 128)

/-- The domain of a page's block, where the domain's state decides whether the page answers (R413, R464). -/
def pageDomain (pg : Nat) : Option Nat :=
  let f := firstOf pg
  if f = 0x100 then some (pg - 0x100)
  else if f = 0x180 then some (36 + (pg - 0x180))
  else if f = 0x140 then some (72 + (pg - 0x140))
  else if f = 0x080 then some (104 + (pg - 0x080))
  else if f = 0x088 then some (112 + (pg - 0x088))
  else none

/-! ### Views by page -/

def viewTxg (s : State) (g off : Nat) : Option Word :=
  if off = 0x44 then some (F.TXG_GRP_STAT_POWERED_OFF.set (s.groupOff .tx g).toNat (s.rd (R.TXG_GRP_STAT g))) else none

/-- XACT.XACT_STAT: TAGS_OUT counts every request held, those decoded with TAG_CHECK clear included (R131; DESIGN CHOICE,
assumption 113). -/
def viewXact (s : State) (off : Nat) : Option Word :=
  if off = 0x50 then
    some (word (s.xact.reqs.length % 2 ^ 13 + s.xact.events.length % 2 ^ 7 * 2 ^ 13 + s.creditWait.toNat * 2 ^ 20))
  else none

def viewPlace (s : State) (off : Nat) : Option Word :=
  let c := s.fld R.PLACE_CHAN_SEL F.PLACE_CHAN_SEL_CHANNEL
  if off = 0x7C then some (word (s.chanParcels c))
  else if off = 0x80 then some (word (SMap.get (fun _ => 0) s.place.chanHeat c % 2 ^ 24))
  else if off = 0xB0 then some (word (s.deficitTimer % 2 ^ 16))
  else none

def viewCache (s : State) (off : Nat) : Option Word :=
  if off = 0x4C then
    some (F.CACHE_CACHE_STAT_PD_OFF.set (!s.pdOn 125).toNat (s.rd R.CACHE_CACHE_STAT))
  else none

/-- QUEUE_STAT, MODE_STAT and BANK_STATE of a controller: those of the channel it serves (R208). -/
def viewChc (s : State) (k off : Nat) : Option Word :=
  if off = 0x60 ∨ off = 0x64 ∨ off = 0x6C then
    if !s.on (R.CHC_CHAN_MAP k) F.CHC_CHAN_MAP_ACTIVE then some 0
    else
      let c := s.chanOf k
      let a := s.pch (2 * c)
      let b := s.pch (2 * c + 1)
      if off = 0x60 then
        some (word (a.rq.length % 128 + b.rq.length % 128 * 2 ^ 8 + a.wq.length % 128 * 2 ^ 16
          + b.wq.length % 128 * 2 ^ 24))
      else if off = 0x64 then
        some (word (a.writeMode.toNat + b.writeMode.toNat * 2 + a.pd.toNat * 4 + b.pd.toNat * 8
          + (s.ch.selfRefresh.contains (2 * c) || s.ch.selfRefresh.contains (2 * c + 1)).toNat * 16))
      else
        let sel := R.CHC_BANK_SEL k
        let p := s.fld sel F.CHC_BANK_SEL_PCH
        let n := 16 * s.fld sel F.CHC_BANK_SEL_SID + s.fld sel F.CHC_BANK_SEL_BANK
        let x := (s.pch (2 * c + p)).bank n
        some (word (if s.bankGone (2 * c + p) n then 5 else x.st % 8 + x.row % 2 ^ 15 * 2 ^ 3 + x.streak % 32 * 2 ^ 18))
  else none

/-- Index of the trained word of the via that CAL_SEL names, within its pseudo-channel's 58 (R400). -/
def calSelIx (s : State) (c : Nat) : Option Nat :=
  let sel := R.CHP_CAL_SEL c
  let v := s.fld sel F.CHP_CAL_SEL_VIA
  let g := s.fld sel F.CHP_CAL_SEL_GROUP
  let p := 58 * (2 * c + s.fld sel F.CHP_CAL_SEL_PCH)
  if g = 0 ∧ v < 40 then some (p + 2 + v) else if g = 1 ∧ v < 16 then some (p + 42 + v) else none

def viewChp (s : State) (c off : Nat) : Option Word :=
  let at_ := fun (i : Nat) => SMap.get (fun _ => (0 : Word)) s.ch.cal i
  if off = 0x64 then some (match s.calSelIx c with | none => 0 | some i => at_ i)
  else if off = 0x68 ∨ off = 0x6C then some (at_ (58 * (2 * c + (off - 0x68) / 4)))
  else if off = 0x70 ∨ off = 0x74 then some (at_ (58 * (2 * c + (off - 0x70) / 4) + 1))
  else none

def viewRfm (s : State) (off : Nat) : Option Word :=
  if off = 0x50 then
    let a := R.RFM_TRK_SEL
    let pc := 2 * s.fld a F.RFM_TRK_SEL_CHANNEL + s.fld a F.RFM_TRK_SEL_PCH
    let k := 64 * pc + 16 * s.fld a F.RFM_TRK_SEL_SID + s.fld a F.RFM_TRK_SEL_BANK
    let t := s.tracker k
    let v := t.ents.filter (·.valid)
    some (word (t.spill % 2 ^ 12 + v.length % 128 * 2 ^ 12 + (v.foldl (fun m e => max m e.count) 0) % 2 ^ 12 * 2 ^ 19
      + (s.spillCond k).toNat * 2 ^ 31))
  else none

def viewQuad (s : State) (q off : Nat) : Option Word :=
  if off = 0x44 then
    let usable := ((List.range 9).filter fun i =>
      (quadEngines q).any fun e => decide (s.engSlot e = i) && s.engUsable e).foldl (fun n i => n + 2 ^ i) 0
    let free := (s.engSpareOf q).any fun sp => s.engUsable sp && (s.runningOn sp).isNone && (s.queuedOn sp).isEmpty
    some (word ((s.quadWorks q).length % 128 + (s.quadRecords q).length % 64 * 2 ^ 7 + usable * 2 ^ 13
      + free.toNat * 2 ^ 22))
  else none

/-- A master without a budget (MODE 0 or 3) has none to spend: its SPENT reads 0, as the table's reset value does (R256, R271). -/
def viewBridle (s : State) (off : Nat) : Option Word :=
  let m := s.fld R.BRIDLE_MID_SEL F.BRIDLE_MID_SEL_MID
  if off = 0x44 then
    let b := classes.foldl (fun n t => if s.behind t then n + 2 ^ t else n) 0
    some (F.BRIDLE_BR_STAT_HELD.set (s.heldAll % 2 ^ 15) (F.BRIDLE_BR_STAT_BEHIND.set b (s.rd R.BRIDLE_BR_STAT)))
  else if off = 0x4C then some (word (s.linkRate .tx % 2 ^ 16 + s.linkRate .rx % 2 ^ 16 * 2 ^ 16))
  else if off = 0x60 then
    let named := pins.filter fun p => s.pinNames p m
    let spent := decide ((s.effMode m = 1 ∨ s.effMode m = 2) ∧ s.remain m ≤ 0)
    some (word (min 1023 (s.heldOf m) + spent.toNat * 2 ^ 10
      + (named.any fun p => s.pinOn p && !s.pinStuck p).toNat * 2 ^ 11 + (named.any s.pinStuck).toNat * 2 ^ 12
      + (s.atLimit m).toNat * 2 ^ 13))
  else if off = 0x54 then
    some (F.BRIDLE_GUAR_SUM_PROGRAMMED.set (min 65535 (classes.foldl (fun n t => n + s.fld (R.BRIDLE_TC_GUAR t) F.BRIDLE_TC_GUAR_GUAR) 0))
      (s.rd R.BRIDLE_GUAR_SUM))
  else if off = 0x64 then some (word ((s.remain m / 256) % 2 ^ 25).toNat)
  else none

/-- The record chosen by REC_SEL. -/
def recSel (s : State) : Nat := s.fld R.FCOL_REC_SEL F.FCOL_REC_SEL_RECORD

def viewFcol (s : State) (off : Nat) : Option Word :=
  let r := s.record s.recSel
  let bt := s.fld R.FCOL_BKT_SEL F.FCOL_BKT_SEL_TYPE
  let kd := s.fld R.FCOL_KIND_SEL F.FCOL_KIND_SEL_KIND
  if off = 0x48 ∨ off = 0x4C then some (halfOf s.ts (off == 0x4C))
  else if off = 0x5C then
    let pg := s.fld R.FCOL_REACT_SEL F.FCOL_REACT_SEL_PAGE
    some (if (pageRow pg).isNone then 0 else s.reactEntry pg (s.fld R.FCOL_REACT_SEL F.FCOL_REACT_SEL_BIT))
  else if off = 0x64 then some (if bt < 9 then SMap.get capDefault s.fcol.caps bt else 0)
  else if off = 0x68 then some (if bt < 9 then SMap.get leakDefault s.fcol.leaks bt else 0)
  else if off = 0x70 then some (if kd < 25 then SMap.get weightDefault s.fcol.weights kd else 0)
  else if off = 0x8C then
    some (word (r.page % 2 ^ 10 + r.source % 2 ^ 6 * 2 ^ 10 + r.isOpen.toNat * 2 ^ 16 + r.alert.toNat * 2 ^ 17
      + r.valid.toNat * 2 ^ 18 + r.cls % 8 * 2 ^ 19))
  else if off = 0x90 then some r.merges
  else if off = 0x94 ∨ off = 0x98 then some (halfOf r.ts (off == 0x98))
  else if 0xA0 ≤ off ∧ off < 0xC8 then
    some ((recDetail s.recSel r).extractLsb' (8 * (off - 0xA0)) 32)
  else none

/-- STATUS of a node: 0 sensors normal, 1 no sensor, 2 a sensor suspect, 3 a sensor broken. -/
def nodeStatus (s : State) (i : Nat) : Nat :=
  let l := nodeSensors i
  if l.isEmpty then 1 else if l.any s.sensorBroken then 3 else if l.any s.sensorSuspect then 2 else 0

def viewTherm (s : State) (off : Nat) : Option Word :=
  let i := s.fld R.THERM_NODE_SEL F.THERM_NODE_SEL_NODE
  let n := s.fld R.THERM_SENSOR_SEL F.THERM_SENSOR_SEL_SENSOR
  if off = 0x60 then
    some (if 96 < i then 0
      else word (eighths (s.modelT i) + eighths (s.nodeReading i) * 2 ^ 16 + s.nodeStatus i * 2 ^ 28))
  else if off = 0x64 then
    let l := s.liveSensors i
    let p := (SMap.get (fun _ => (0 : Rat)) s.therm.power i / 10).floor.toNat
    some (if 96 < i then 0
      else word ((match l with | [] => 0 | x :: r => eighths (maxRat (s.sensorT x) (r.map s.sensorT)))
        + min 4095 p * 2 ^ 12))
  else if off = 0x6C then
    some (if 95 < n then 0
      else word (SMap.get (fun _ => 0) s.therm.codes n % 2 ^ 12 + eighths (s.sensorT n) * 2 ^ 16
        + (if s.sensorBroken n then 2 else if s.sensorSuspect n then 1 else 0) * 2 ^ 28))
  else if off = 0xD4 then some (s.coef (s.fld R.THERM_COEF_SEL F.THERM_COEF_SEL_INDEX))
  else none

/-- The IF registers of the interface chosen by IF_SEL (R339). -/
def viewStack (s : State) (off : Nat) : Option Word :=
  let w := s.wear (s.fld R.STACK_IF_SEL F.STACK_IF_SEL_INTERFACE)
  let d : Word64 := BitVec.ofNat 64 (w.damage * 65536).floor.toNat
  if off = 0x4C ∨ off = 0x50 then some (halfOf d (off == 0x50))
  else if off = 0x54 then some (word w.cycles)
  else if off = 0x58 then some (word (eighths w.now + eighths w.maxRange * 2 ^ 16))
  else if off = 0x5C then some (word (w.residue.length % 128))
  else none

def viewPwr (s : State) (off : Nat) : Option Word :=
  if 0x80 ≤ off ∧ off < 0x90 ∧ off % 4 = 0 then
    some (word ((List.range 32).foldl (fun n b => if s.pdOn (8 * (off - 0x80) + b) then n + 2 ^ b else n) 0))
  else none

/-- READ_DATA and READ_STAT of the word chosen by READ_ADDR; PROG_STAT with the conditions of now (R386). -/
def viewFuse (s : State) (off : Nat) : Option Word :=
  let w := s.fld R.FUSE_READ_ADDR F.FUSE_READ_ADDR_WORD
  if off = 0x70 then some (if otpRegion w = 5 then 0 else s.otpShadow w)
  else if off = 0x74 then
    some (word ((s.otp.marginal.contains w).toNat + (s.otp.corrected.contains w).toNat * 2 + (s.otpFailed w).toNat * 4
      + (decide (s.otpStored w = 0)).toNat * 8 + (decide (4 < s.bootStep)).toNat * 2 ^ 31))
  else if off = 0x84 then some (F.FUSE_PROG_STAT_COND_OK.set s.progCond.toNat (s.rd R.FUSE_PROG_STAT))
  else none

/-- UNIT_RESULT and UNIT_TIME of the unit chosen by UNIT_SEL; ROT_STAT.CTRL_GAP (R404). -/
def viewBist (s : State) (off : Nat) : Option Word :=
  let k := s.fld R.BIST_UNIT_SEL F.BIST_UNIT_SEL_CLASS * 64 + s.fld R.BIST_UNIT_SEL F.BIST_UNIT_SEL_UNIT
  let t := SMap.get (fun _ => (0 : Word64)) s.bist.passTs k
  if off = 0x64 then
    let h := (s.clk.up - SMap.get (fun _ => 0) s.bist.passUp k) / 3600000000000
    some (word (SMap.get (fun _ => 0) s.bist.results k % 8 + min (2 ^ 24 - 1) h * 2 ^ 8))
  else if off = 0x68 ∨ off = 0x6C then some (halfOf t (off == 0x6C))
  else if 0x50 ≤ off ∧ off < 0x60 ∧ off % 4 = 0 then
    let q := (off - 0x50) / 4
    some (F.BIST_ROT_STAT_CTRL_GAP.set (s.ctrlGap q).toNat (s.rd (R.BIST_ROT_STAT q)))
  else none

def viewCal (s : State) (off : Nat) : Option Word :=
  if off = 0x48 then some s.calData
  else if off = 0x54 then some (s.calCount s.calBlk)
  else if off = 0x58 ∨ off = 0x5C then some (halfOf (s.calTime s.calBlk) (off == 0x5C))
  else none

def viewPerf (s : State) (off : Nat) : Option Word :=
  let c := match s.perfSel with | none => 0 | some k => s.perfCtr k
  let n := match s.perfSel with | none => 0 | some k => s.perfSnap k
  if off = 0x58 then some s.perfCfgView
  else if off = 0x5C ∨ off = 0x60 then some (half48 c (off == 0x60))
  else if off = 0x64 ∨ off = 0x68 then some (half48 n (off == 0x68))
  else none

def viewPerfu (s : State) (off : Nat) : Option Word :=
  if off = 0x40 then some s.userStat
  else if off = 0x48 then some (s.rd R.PERF_SNAP_TS_LO)
  else if off = 0x4C then some (s.rd R.PERF_SNAP_TS_HI)
  else if 0x80 ≤ off ∧ off < 0x100 ∧ off % 4 = 0 then
    some (match s.userKey ((off - 0x80) / 8) with | none => 0 | some k => half48 (s.perfCtr k) (off % 8 == 4))
  else if 0x100 ≤ off ∧ off < 0x180 ∧ off % 4 = 0 then
    some (match s.userKey ((off - 0x100) / 8) with | none => 0 | some k => half48 (s.perfSnap k) (off % 8 == 4))
  else none

/-- SPI_STAT: a mailbox command on the flash is an access in progress; entries and commands of the Gondola that wait while
the raw path is in effect wait for it (R428; assumption 112). -/
def viewSpi (s : State) (off : Nat) : Option Word :=
  if off = 0x44 then
    let waits := s.rawActive && (!s.mgmt.logQ.isEmpty || !s.mgmt.order.isEmpty || !s.otp.queue.isEmpty)
    some (F.SPI_SPI_STAT_BUSY.set (!s.mgmt.order.isEmpty).toNat (F.SPI_SPI_STAT_GONDOLA_WAIT.set waits.toNat
      (F.SPI_SPI_STAT_RAW_ACTIVE.set s.rawActive.toNat (s.rd R.SPI_SPI_STAT))))
  else none

def viewPciem (s : State) (off : Nat) : Option Word :=
  if off = 0x48 then some (F.PCIEM_WIN_STAT_AVAILABLE.set s.winAvailable.toNat (s.rd R.PCIEM_WIN_STAT))
  else if off = 0x50 then some (word (Config.vendorId.toNat + 0x5616 * 2 ^ 16))
  else none

/-- The computed registers of a page. -/
def viewOf (s : State) (pg off : Nat) : Option Word :=
  let f := firstOf pg
  let i := pg - f
  if off = 0x10 then (if s.hwGated pg then some (pgGated.set 1 (s.rd (pgStat pg))) else none)
  else if off = 0x14 then some (s.evtStat pg)
  else if off = 0x1C then some (word (s.pageLocked pg).toNat)
  else if off < 0x40 then none
  else if f = 0x080 then s.viewTxg i off
  else if f = 0x00F then s.viewXact off
  else if f = 0x00C then s.viewPlace off
  else if f = 0x00D then s.viewCache off
  else if f = 0x100 then s.viewChc i off
  else if f = 0x140 then s.viewChp i off
  else if f = 0x017 then s.viewRfm off
  else if f = 0x040 then s.viewQuad i off
  else if f = 0x00B then s.viewBridle off
  else if f = 0x002 then s.viewFcol off
  else if f = 0x005 then s.viewTherm off
  else if f = 0x013 then s.viewStack off
  else if f = 0x004 then s.viewPwr off
  else if f = 0x006 then s.viewFuse off
  else if f = 0x008 then s.viewBist off
  else if f = 0x009 then s.viewCal off
  else if f = 0x00A then s.viewPerf off
  else if f = 0x200 then s.viewPerfu off
  else if f = 0x011 then s.viewSpi off
  else if f = 0x010 then s.viewPciem off
  else none

/-- The current value of the register at an address of an assigned page. -/
def cur (s : State) (a : Nat) : Word := (s.viewOf (pageOf a) (offOf a)).getD (s.rd a)

end State
end Sys2Proof.Machine
end

