-- ==== Sys2Proof/Machine/Bus.lean ====
section
/-! DEFINITION. Register accesses: which pages answer, the rules of partial writes, aliases, latched pairs and locks, and
what a write of each register does (R7, R8, R407 to R413, R464, and the register tables). -/

namespace Sys2Proof.Machine

/-- The outcome of a register access: the state after it, whether it completed without the error of R413, and the word
of a read. -/
structure BusOut where
  st : State
  ok : Bool
  val : Word := 0
  deriving DecidableEq, Repr

/-- The bytes that the byte enables select. -/
def beMask (be : Nat) : Word :=
  (List.range 4).foldl (fun m i => if be.testBit i then m ||| word (255 * 2 ^ (8 * i)) else m) 0

/-- The bits of a register whose access code meets `p`. -/
def fieldBits (p : Acc → Bool) (a : Nat) : Word := word (fieldsMask p (fieldsAt a))

/-- The register holds a CMD field. -/
def hasCmd (a : Nat) : Bool := (fieldsAt a).any fun f => f.acc == .cmd

/-- The low word of an RL pair. -/
def isRl (a : Nat) : Bool := (fieldsAt a).any fun f => f.acc == .rl

/-- The high word of an RL pair. -/
def isHigh (a : Nat) : Bool := decide (4 ≤ a) && isRl (a - 4)

/-- A word of the one writable pair, FCOL.TS_SET (R295, R411). -/
def pairWord (a : Nat) : Bool := a == R.FCOL_TS_SET_LO || a == R.FCOL_TS_SET_HI

/-- The registers whose writes set bits only (R385). -/
def setOnly (a : Nat) : Bool := pageOf a == 7 && decide (0x40 ≤ offOf a)

/-- What the write at an alias makes of a word: 0 the value itself, 1 set, 2 clear, 3 toggle (R410). -/
def aliasOp (k : Nat) (old v : Word) : Word :=
  if k = 1 then old ||| v else if k = 2 then old &&& ~~~v else if k = 3 then old ^^^ v else v

/-- Pages that answer in Drogue mode (R350). -/
def droguePages : List Nat := [0, 1, 2, 3, 4, 5, 6, 7, 0x10, 0x11, 0x12, 0x13, 0x14, 0x15]

/-- Pages that answer after a thermal trip (R327). -/
def tripPages : List Nat := [2, 3, 5, 6, 0x13]

namespace State

/-- The page answers beyond its common header (R356, R389, R413, R464). -/
def pageOpen (s : State) (pg : Nat) : Bool :=
  s.on (pgStat pg) pgReady && !s.on (pgStat pg) pgGated && !s.on (pgStat pg) pgInReset && !s.on (pgStat pg) pgUnderTest
    && (!s.drogue || droguePages.contains pg) && (!s.tripped || tripPages.contains pg)
    && (match pageDomain pg with | none => true | some d => s.pdOn d)

/-- The boot ROM has started, so the register bus runs (R361, R464); over PCIe the BARs must answer. -/
def busUp (s : State) (path : Path) : Bool := !s.inReset && decide (3 ≤ s.bootStep) && (path != .pcie || s.barOpen)

/-- A clock ratio of R354 is broken: REGBUS_DIV is below 2, or below the least value of the operating point. -/
def ratioBroken (s : State) : Bool :=
  let d := max 1 (s.fld R.CLK_CLK_CTL F.CLK_CLK_CTL_REGBUS_DIV)
  decide (6 ≤ s.bootStep) && !s.on R.MGMT_GONDOLA_STAT F.MGMT_GONDOLA_STAT_ON_TOSC && decide (d < s.dvPoint + 2)

/-! ### The MSI-X pages (R407, R416) -/

/-- Bits 31:0 or 63:32 of the pending bit array. -/
def msixPending (s : State) (i : Nat) : Word :=
  word (s.mgmt.pend.foldl (fun n v => if v / 32 = i then n ||| 2 ^ (v % 32) else n) 0)

def msixRead (s : State) (a : Nat) : Word :=
  if pageOf a = 0x3FE then (if offOf a < 0x400 then s.msixWord (offOf a / 4) else 0)
  else if offOf a < 8 then s.msixPending (offOf a / 4) else 0

/-- A write of the table: each entry's address, data and mask bit. -/
def msixWrite (s : State) (a be : Nat) (v : Word) : State :=
  if pageOf a = 0x3FE ∧ offOf a < 0x400 then
    let n := offOf a / 4
    let m := beMask be &&& (if n % 4 = 3 then 1 else if n % 4 = 0 then 0xFFFFFFFC else 0xFFFFFFFF)
    let w := (s.msixWord n &&& ~~~m) ||| (v &&& m)
    { s with mgmt := { s.mgmt with msix := SMap.set msixDefault n w s.mgmt.msix } }
  else s

/-! ### Writes by page. Each takes the offset, the word before and after the RW and RWL fields, and the CMD bits. -/

def wrTxg (s : State) (g off : Nat) (old new cmd : Word) : State :=
  if off = 0x40 then
    let t := s.wr (R.TXG_GRP_CTL g) new
    let c := t.grpState .tx g
    let t := if F.TXG_GRP_CTL_TEST_MODE.get new = 1 then
        (if c ≤ 1 then (t.setGrpState .tx g 9).setGrpState .rx g 9 else t)
      else if c = 9 then (t.setGrpState .tx g 0).setGrpState .rx g 0
      else t
    let t := if g = 0 ∧ F.TXG_GRP_CTL_LOCAL_TIMING.get new ≠ F.TXG_GRP_CTL_LOCAL_TIMING.get old ∧ t.linkActive then
        t.setLoopTimed (decide (F.TXG_GRP_CTL_LOCAL_TIMING.get new = 0))
      else t
    if F.TXG_GRP_CTL_PARK_ALLOW.get new ≠ F.TXG_GRP_CTL_PARK_ALLOW.get old then (t.decideWidth .rx).decideWidth .tx else t
  else if 0x80 ≤ off ∧ off < 0x120 ∧ off % 16 = 0 then
    let c := fun (f : Fld) => (f.get new : Int)
    if firOk (c F.TXG_TXL_EQ_PRE2) (c F.TXG_TXL_EQ_PRE1) (c F.TXG_TXL_EQ_MAIN) (c F.TXG_TXL_EQ_POST1) then
      s.wr (R.TXG_TXL_EQ g ((off - 0x80) / 16)) new
    else s
  else if 0x80 ≤ off ∧ off < 0x120 ∧ off % 16 = 8 then
    let n := (if F.TXG_TXL_INJ_INJ_ONE.get cmd = 1 then 1 else 0)
      + (if F.TXG_TXL_INJ_INJ_BURST.get cmd = 1 then F.TXG_TXL_INJ_BURST_LEN.get cmd + 1 else 0)
    { s with link := { s.link with inject := SMap.upd (fun _ => 0) (10 * g + (off - 0x80) / 16) (· + n) s.link.inject } }
  else s.wr (0x1000 * (0x80 + g) + off) new

/-- One margin point starts on a lane (R38). -/
def marginStart (s : State) (g l : Nat) : State :=
  { s with link := { s.link with margins := (10 * g + l) :: s.link.margins.filter (· ≠ 10 * g + l) } }.flag
    (R.RXG_RXL_MARGIN g l) F.RXG_RXL_MARGIN_DONE false

/-- SPARE_CMD ABORT before Switch (R53, R64). -/
def spareAbort (s : State) (g : Nat) : State :=
  let p := s.fld (R.RXG_SPARE_STAT g) F.RXG_SPARE_STAT_PHASE
  if 1 ≤ p ∧ p ≤ 3 then s.spareEnd g 6 else s

/-- Four DFE taps as software writes them: a value beyond the range that a tap covers takes the end of the range (R37;
assumption 99). -/
def tapsIn (off : Nat) (w : Word) : Word :=
  word ([0, 1, 2, 3].foldl (fun n i =>
    let b : Nat := w.toNat / 2 ^ (8 * i) % 256
    let v : Int := if b < 128 then (b : Int) else (b : Int) - 256
    let m := tapRange ((off - 0x0C) + i)
    n + ((max (-m) (min m v) + 256) % 256).toNat * 2 ^ (8 * i)) 0)

def wrRxg (s : State) (g off : Nat) (old new cmd : Word) : State :=
  let a := 0x1000 * (0x88 + g) + off
  let l := (off - 0x100) / 64
  if off = 0x40 then
    let t := s.wr a new
    if F.RXG_GRP_CTL_PARK_ALLOW.get new ≠ F.RXG_GRP_CTL_PARK_ALLOW.get old then (t.decideWidth .rx).decideWidth .tx else t
  else if off = 0x4C then
    let t := if F.RXG_SPARE_CMD_START.get cmd = 1 then s.spareStart g (F.RXG_SPARE_CMD_LANE.get cmd) else s
    if F.RXG_SPARE_CMD_ABORT.get cmd = 1 then t.spareAbort g else t
  else if 0x100 ≤ off ∧ off % 64 = 0 then
    let t := s.wr a new
    if F.RXG_RXL_CTL_CHK_EN.get old = 0 ∧ F.RXG_RXL_CTL_CHK_EN.get new = 1 then
      let t := ((t.wr (a + 0x18) 0).wr (a + 0x1C) 0).flag (a + 4) F.RXG_RXL_STAT_CHK_SYNC false
      { t with
        shadows := SMap.set (fun _ => 0) (a + 0x18) 0 t.shadows
        link := { t.link with
          prbsRx := SMap.set (fun _ => 0) (10 * g + l) 0 t.link.prbsRx
          prbsGot := SMap.set (fun _ => 0) (10 * g + l) 0 t.link.prbsGot } }
    else t
  else if 0x100 ≤ off ∧ 0x0C ≤ off % 64 ∧ off % 64 ≤ 0x14 then s.wr a (tapsIn (off % 64) new)
  else if 0x100 ≤ off ∧ off % 64 = 0x28 then
    let t := s.wr a new
    if F.RXG_RXL_MARGIN_START.get cmd = 1 then t.marginStart g l else t
  else s.wr a new

/-- A width direction's automatic mode begins at its current step (R91). -/
def autoBegin (s : State) (d : Dir) (f : Fld) (old new : Word) : State :=
  if f.get old = 0 ∧ f.get new = 1 then
    { s with link := { s.link with autoStep := SMap.set (fun _ => 0) (dirIx d) (s.curStep d) s.link.autoStep } }
  else s

def wrLink (s : State) (off : Nat) (old new cmd : Word) : State :=
  let t := s.wr (0xE000 + off) new
  let plan := fun (u : State) => { u with spare := { u.spare with planned := true } }
  if off = 0x40 then
    let t := if F.LINK_LL_CTL_RETRAIN.get cmd = 1 then (plan t).startTraining 1 else t
    let t := if F.LINK_LL_CTL_RECOVER.get cmd = 1 ∧ t.linkActive then (plan t).enterRecover else t
    if F.LINK_LL_CTL_LL_RESET.get cmd = 1 then t.llInit else t
  else if off = 0x4C then
    (((t.autoBegin .rx F.LINK_WIDTH_CTL_RX_AUTO old new).autoBegin .tx F.LINK_WIDTH_CTL_TX_AUTO old new).decideWidth
      .rx).decideWidth .tx
  else t

/-- A checkpoint starts (R162); one that runs already goes on. -/
def ckptStart (s : State) : State :=
  if s.place.laid then { s with place := { s.place with ckptBusy := true } } else s

def wrPlace (s : State) (off : Nat) (new cmd : Word) (direct : Bool) : State :=
  let t := s.wr (0xC000 + off) new
  if off = 0x48 ∨ off = 0x54 ∨ off = 0x58 then t.updDeficit
  else if off = 0x5C then t.autoWdr
  else if off = 0x60 then
    if F.PLACE_WDR_CMD_REINSTATE.get cmd = 1 then
      s.reinstate (F.PLACE_WDR_CMD_PARCEL.get cmd) (F.PLACE_WDR_CMD_COUNT.get cmd + 1)
    else s
  else if off = 0x64 then (if direct then s.locQuery (F.PLACE_LOC_QUERY_PARCEL.get cmd) else s)
  else if off = 0x70 then (if direct then s.wdrFind (F.PLACE_WDR_FIND_START.get cmd) else s)
  else if off = 0xF0 then (if F.PLACE_JOURNAL_CTL_CKPT_NOW.get cmd = 1 then t.ckptStart else t)
  else t

def wrCache (s : State) (off : Nat) (new cmd : Word) : State :=
  let t := s.wr (0xD000 + off) new
  if off = 0x40 then
    let t := if F.CACHE_CACHE_CTL_FLUSH.get cmd = 1 then t.flushStart .flush else t
    let t := if F.CACHE_CACHE_CTL_INVALIDATE.get cmd = 1 then t.flushStart .invalidate else t
    t.cacheEnable (decide (F.CACHE_CACHE_CTL_ENABLE.get new = 1))
  else t

def wrCdie (s : State) (off : Nat) (new cmd : Word) : State :=
  if off = 0x54 then
    if F.CDIE_BANK_CMD_RETIRE.get cmd = 1 then s.bankRetire (F.CDIE_BANK_CMD_BANK.get cmd) else s
  else s.wr (0x1D0000 + off) new

/-- CAL_VAL waits for the bus gap; VREF and VREF2 are held with the trained words (R209). -/
def wrChp (s : State) (c off : Nat) (new cmd : Word) : State :=
  let a := 0x1000 * (0x140 + c) + off
  if off = 0x40 then
    let t := s.wr a new
    if F.CHP_PHY_CTL_RETRAIN.get cmd = 1 then (t.trainStart c 0).trainStart c 1 else t
  else if off = 0x58 then
    if F.CHP_REMAP_CMD_START.get cmd = 1 then
      s.remapStart c (F.CHP_REMAP_CMD_PCH.get cmd) (decide (F.CHP_REMAP_CMD_CLASS.get cmd = 1)) (F.CHP_REMAP_CMD_VIA.get cmd)
    else s
  else if off = 0x64 then
    match s.calSelIx c with
    | none => s
    | some i =>
      if s.on (R.CHP_PHY_CTL c) F.CHP_PHY_CTL_TRAIN_FREEZE then
        s.setPch (i / 58) { s.pch (i / 58) with
          calVal := (s.pch (i / 58)).calVal.filter (fun e => e.1 != i % 58) ++ [(i % 58, new)] }
      else s
  else if 0x68 ≤ off ∧ off < 0x78 then
    let i := if off < 0x70 then 58 * (2 * c + (off - 0x68) / 4) else 58 * (2 * c + (off - 0x70) / 4) + 1
    { s with ch := { s.ch with cal := SMap.set (fun _ => 0) i new s.ch.cal } }
  else if off = 0x94 then
    if F.CHP_ROW_REPAIR_CMD_START.get cmd = 1 then
      s.rowRepairStart c (F.CHP_ROW_REPAIR_CMD_PCH.get cmd) (F.CHP_ROW_REPAIR_CMD_SID.get cmd)
        (F.CHP_ROW_REPAIR_CMD_BANK.get cmd) (F.CHP_ROW_REPAIR_CMD_ROW.get cmd)
    else s
  else s.wr a new

/-- A command register of SCRUB, BIST, QUAD, FUSE and the like: its action, when START or its bit is written. -/
def wrScrub (s : State) (off : Nat) (new cmd : Word) : State :=
  if off = 0x44 then
    if F.SCRUB_SCRUB_CMD_START.get cmd = 1 then
      s.scrubStart (F.SCRUB_SCRUB_CMD_FRAME.get cmd) (F.SCRUB_SCRUB_CMD_COUNT.get cmd + 1) false
    else s
  else s.wr (0x16000 + off) new

def wrRfm (s : State) (off : Nat) (new : Word) : State :=
  let t := s.wr (0x17000 + off) new
  if off = 0x40 then t.refreshUp else t

def wrSide (s : State) (off : Nat) (new : Word) : State :=
  let t := s.wr (0x12000 + off) new
  (if off = 0x40 then t.pinEnable else t).raisePrio

/-- ENG_CTL: EN is PG_CTL.ENABLE of the page (R409). -/
def wrEng (s : State) (e off : Nat) (old new : Word) : State :=
  if off = 0x40 then
    let t := s.wr (R.ENG_ENG_CTL e) (F.ENG_ENG_CTL_EN.set (F.ENG_ENG_CTL_EN.get old) new)
    t.enableEng e (decide (F.ENG_ENG_CTL_EN.get new = 1))
  else s.wr (0x1000 * (0x180 + e) + off) new

def wrQuad (s : State) (q off : Nat) (new cmd : Word) : State :=
  if off = 0x48 then
    if F.QUAD_CANCEL_START.get cmd = 1 then s.cancelWork q (F.QUAD_CANCEL_TAG.get cmd) else s
  else
    let t := s.wr (0x1000 * (0x40 + q) + off) new
    if off ≠ 0x40 then t
    else if F.QUAD_QUAD_CTL_XQUAD_EN.get new = 0 then t.endWaiting q else t.adoptWorks

/-- Requests that the Bridle holds of a master, in arrival order. -/
def heldReqs (s : State) (m : Nat) : List Req := s.xact.reqs.filter fun r => r.stage == .held && hMid r.header == m

/-- Every held request of a master is released (MODE 0), or answered REFUSED (MODE 3) but for configuration accesses, which are
never refused (R255, R256). -/
def releaseAll (s : State) (m : Nat) : State := (s.heldReqs m).foldl (fun (t : State) r => t.releaseReq r) s
def refuseAll (s : State) (m : Nat) : State := ((s.heldReqs m).filter fun r => !isCfg r.header).foldl (fun (t : State) r => t.decideStatus r 4 0) s

/-- REG_CTL of a master has been written (R256). -/
def regCtlWrite (s : State) (m : Nat) : State :=
  let was := s.effMode m
  let mode := s.fld (R.BRIDLE_REG_CTL m) F.BRIDLE_REG_CTL_MODE
  let refuse := fun (t : State) => if mode = 3 ∧ was ≠ 3 then t.refuseAll m else t
  if was = 0 then
    let t := s.latchMaster m
    if mode = 0 then t else refuse (t.setRemain m ((t.effBudget m * 256 : Nat) + (t.extraBytes m : Nat)))
  else if mode = 0 then (s.latchMaster m).releaseAll m
  else if mode = 3 ∧ was ≠ 3 then
    refuse { s with bridle := { s.bridle with
      ctl := SMap.set (fun m => regReset (R.BRIDLE_REG_CTL m)) m (s.rd (R.BRIDLE_REG_CTL m)) s.bridle.ctl } }
  else s

def wrBridle (s : State) (off : Nat) (new : Word) : State :=
  let t := s.wr (0xB000 + off) new
  if 0xA0 ≤ off ∧ off < 0xC0 then (t.setLevel ((off - 0xA0) / 4)).raisePrio
  else if 0x200 ≤ off ∧ off < 0x400 then
    let m := (off - 0x200) / 8
    if off % 8 = 0 then t.regCtlWrite m else if t.effMode m = 0 then t.latchMaster m else t
  else t

def setFcol (s : State) (f : FcolState → FcolState) : State := { s with fcol := f s.fcol }

/-- FCOL: the timestamp pair, the maps behind their select registers, and the commands (R280, R287, R292, R295). -/
def wrFcol (s : State) (off : Nat) (new cmd : Word) (direct : Bool) : State :=
  let bt := s.fld R.FCOL_BKT_SEL F.FCOL_BKT_SEL_TYPE
  let kd := s.fld R.FCOL_KIND_SEL F.FCOL_KIND_SEL_KIND
  if off = 0x50 then { s with pairLow := SMap.set (fun _ => none) R.FCOL_TS_SET_LO (some new) s.pairLow }
  else if off = 0x54 then
    let low := (SMap.get (fun _ => none) s.pairLow R.FCOL_TS_SET_LO).getD (s.rd R.FCOL_TS_SET_LO)
    { (s.wr R.FCOL_TS_SET_LO low).wr R.FCOL_TS_SET_HI new with
        ts := new ++ low, pairLow := SMap.set (fun _ => none) R.FCOL_TS_SET_LO none s.pairLow }
  else if off = 0x5C then
    let pg := s.fld R.FCOL_REACT_SEL F.FCOL_REACT_SEL_PAGE
    if (pageRow pg).isNone then s
    else s.setFcol fun f => { f with
      react := SMap.set reactDefault (32 * firstOf pg + s.fld R.FCOL_REACT_SEL F.FCOL_REACT_SEL_BIT) new f.react }
  else if off = 0x64 then
    if bt < 9 then (s.setFcol fun f => { f with caps := SMap.set capDefault bt new f.caps }).overflows bt else s
  else if off = 0x68 then
    if bt < 9 then s.setFcol fun f => { f with leaks := SMap.set leakDefault bt new f.leaks } else s
  else if off = 0x70 then
    if kd < 25 then s.setFcol fun f => { f with weights := SMap.set weightDefault kd new f.weights } else s
  else if off = 0x74 then (if direct then s.resQuery cmd else s)
  else if off = 0x7C then s.alertClear cmd
  else s.wr (0x2000 + off) new

def wrTherm (s : State) (off : Nat) (new : Word) : State :=
  if off = 0xD4 then
    { s with therm := { s.therm with
        coef := SMap.set Config.romCoef (s.fld R.THERM_COEF_SEL F.THERM_COEF_SEL_INDEX) new s.therm.coef } }
  else s.wr (0x5000 + off) new

def wrPwr (s : State) (off : Nat) (new : Word) : State :=
  let t := s.wr (0x4000 + off) new
  if off = 0x44 then t.ceilingAllow.dvUpdate else t

/-- WEAR_CTL: SAVE_NOW saves the wear record (R336); `failed` tells whether a copy fails. -/
def wrStack (s : State) (off : Nat) (new cmd : Word) (failed : Bool) : State :=
  let t := s.wr (0x13000 + off) new
  if off = 0x40 then t.saveNow (new ||| cmd) failed else t

/-- CLK: REF_PCIE is taken only where R352 and R353 allow it, and only the stack clears it. -/
def wrClk (s : State) (off : Nat) (old new cmd : Word) : State :=
  if off = 0x40 then
    let f := F.CLK_CLK_CTL_REF_PCIE
    let t := s.wr R.CLK_CLK_CTL (f.set (f.get old) new)
    if f.get new = 1 ∧ f.get old = 0 ∧ t.refPcieOpen then t.refPcieSet else t
  else if off = 0x50 then
    let t := s.wr R.CLK_FMC_CTL new
    if F.CLK_FMC_CTL_START.get cmd = 1 then t.fmcStart else t
  else if off = 0x58 then s.rstCmd cmd
  else
    let t := s.wr (0x3000 + off) new
    if off = 0x4C ∧ F.CLK_MON_CTL_LINK_MON_EN.get new = 0 then t.monStop else t

/-- PROG_CMD: the lowest set action of the four. -/
def wrFuse (s : State) (off : Nat) (new cmd : Word) : State :=
  if off = 0x80 then
    let key := cmd.extractLsb' 16 16
    if F.FUSE_PROG_CMD_PROGRAM.get cmd = 1 then s.progWord key
    else if F.FUSE_PROG_CMD_GEN_SECRET.get cmd = 1 then s.genSecret key
    else if F.FUSE_PROG_CMD_LIFE_NEXT.get cmd = 1 then s.lifeNext key
    else if F.FUSE_PROG_CMD_LIFE_VOID.get cmd = 1 then s.lifeVoid key
    else s
  else s.wr (0x6000 + off) new

def wrBist (s : State) (off : Nat) (new cmd : Word) : State :=
  if off = 0x44 then s.bistCmd cmd else s.wr (0x8000 + off) new

def wrCal (s : State) (off : Nat) (new cmd : Word) : State :=
  if off = 0x40 then s.calSelect (F.CAL_CAL_BLK_BLOCK.get new)
  else if off = 0x48 then s.calStage new
  else if off = 0x4C then
    let t := if F.CAL_CAL_CMD_COMMIT.get cmd = 1 then s.calCommit else s
    if F.CAL_CAL_CMD_DISCARD.get cmd = 1 then t.calDiscard else t
  else s.wr (0x9000 + off) new

def wrPerf (s : State) (off : Nat) (old new cmd : Word) : State :=
  let t := s.wr (0xA000 + off) new
  if off = 0x40 then
    let t := if F.PERF_PERF_CTL_FREEZE.get old = F.PERF_PERF_CTL_FREEZE.get new then t
      else t.perfFreeze (decide (F.PERF_PERF_CTL_FREEZE.get new = 1))
    if F.PERF_PERF_CTL_SNAPSHOT.get cmd = 1 then t.perfSnapshot else t
  else if off = 0x58 then s.perfCfgWrite new
  else if off = 0x6C then
    let t := if F.PERF_PC_CMD_CLEAR.get cmd = 1 then s.perfClear else s
    if F.PERF_PC_CMD_CLEAR_ALL.get cmd = 1 then t.perfClearAll else t
  else if off = 0x8C then t.seedWrite
  else if off = 0x98 then t.ringSelect
  else t

/-- MB_CMD: GO starts the command (R422). -/
def wrMgmt (s : State) (off : Nat) (new cmd : Word) : State :=
  let t := s.wr (0x1000 + off) new
  if off = 0x40 ∨ off = 0x180 then
    if F.MGMT_MB_CMD_GO.get cmd = 1 then t.mbGo ((off - 0x40) / 0x140) else t
  else t

def wrSpi (s : State) (off : Nat) (new cmd : Word) : State :=
  if off = 0x4C then s.rawCmd cmd else s.wr (0x11000 + off) new

/-- The mailbox channel whose MB_CMD or MB_IN stands at an offset of MGMT. -/
def mbInput (off : Nat) : Option Nat :=
  if off < 0x40 ∨ 0x2C0 ≤ off then none
  else
    let r := (off - 0x40) % 0x140
    if r = 0 ∨ (0x40 ≤ r ∧ r < 0xC0) then some ((off - 0x40) / 0x140) else none

/-- PG_CTL (R409): ENABLE of CHC and ENG pages, the block reset and the gate request, where the page allows them; a
refused action is recorded with cause 7. `busy`: the block's register-bus interface is not idle (R355). -/
def wrPgCtl (s : State) (path : Path) (pg : Nat) (old new cmd : Word) (busy : Bool) : State :=
  let a := pgCtl pg
  let f := firstOf pg
  let en := decide (F.PG_CTL_ENABLE.get new = 1)
  let t := if f = 0x100 then
      (match s.enableCtrl (pg - 0x100) en with | some t => t | none => s.accErr path a true 7)
    else if f = 0x180 then s.enableEng (pg - 0x180) en
    else s
  let t := if F.PG_CTL_BLOCK_RESET.get cmd = 1 then
      (if t.resetOk pg then t.blockReset pg else t.accErr path a true 7)
    else t
  let was := F.PG_CTL_GATE_REQ.get old
  let req := F.PG_CTL_GATE_REQ.get new
  if was = 0 ∧ req = 1 then (if t.gateOk pg then t.gateClose pg busy else t.accErr path a true 7)
  else if was = 1 ∧ req = 0 then t.gateRelease pg
  else t

/-- What a write does, by page; a register with no behaviour of its own stores its fields. -/
def regEffect (s : State) (path : Path) (a : Nat) (old new cmd : Word) (direct : Bool) : State :=
  let pg := pageOf a
  let off := offOf a
  let f := firstOf pg
  let i := pg - f
  if off = 0x0C then s.wrPgCtl path pg old new cmd false
  else if off < 0x40 then s.wr a new
  else if f = 0x080 then s.wrTxg i off old new cmd
  else if f = 0x088 then s.wrRxg i off old new cmd
  else if f = 0x00E then s.wrLink off old new cmd
  else if f = 0x00C then s.wrPlace off new cmd direct
  else if f = 0x00D then s.wrCache off new cmd
  else if f = 0x1D0 then s.wrCdie off new cmd
  else if f = 0x140 then s.wrChp i off new cmd
  else if f = 0x016 then s.wrScrub off new cmd
  else if f = 0x017 then s.wrRfm off new
  else if f = 0x012 then s.wrSide off new
  else if f = 0x180 then s.wrEng i off old new
  else if f = 0x040 then s.wrQuad i off new cmd
  else if f = 0x00B then s.wrBridle off new
  else if f = 0x002 then s.wrFcol off new cmd direct
  else if f = 0x005 then s.wrTherm off new
  else if f = 0x004 then s.wrPwr off new
  else if f = 0x013 then s.wrStack off new cmd false
  else if f = 0x003 then s.wrClk off old new cmd
  else if f = 0x006 then s.wrFuse off new cmd
  else if f = 0x008 then s.wrBist off new cmd
  else if f = 0x009 then s.wrCal off new cmd
  else if f = 0x00A then s.wrPerf off old new cmd
  else if f = 0x001 then s.wrMgmt off new cmd
  else if f = 0x011 then s.wrSpi off new cmd
  else if f = 0x200 then
    (if off = 0x44 ∧ F.PERFU_USER_CMD_SNAPSHOT.get cmd = 1 then
      (if s.on R.PERF_PERF_CTL F.PERF_PERF_CTL_USER_SNAP_EN then s.perfSnapshot else s.accErr path a true 7)
    else s)
  else if a = R.XACT_XACT_CTL then (s.wr a new).noteWait
  else s.wr a new

/-- Bits of HW fields that software may write in this state: TXL_EQ under EQ_OVR, CTLE and DFE under their overrides
(R63, R64). -/
def softBits (s : State) (a : Nat) : Word :=
  let pg := pageOf a
  let off := offOf a
  let f := firstOf pg
  let i := pg - f
  let hw := fieldBits (· == .hw) a
  if f = 0x080 ∧ 0x80 ≤ off ∧ off < 0x120 ∧ off % 16 = 0 then
    if s.on (R.TXG_TXL_CTL i ((off - 0x80) / 16)) F.TXG_TXL_CTL_EQ_OVR then hw else 0
  else if f = 0x088 ∧ 0x100 ≤ off ∧ off < 0x380 then
    let c := R.RXG_RXL_CTL i ((off - 0x100) / 64)
    if off % 64 = 8 then (if s.on c F.RXG_RXL_CTL_CTLE_OVR then hw else 0)
    else if off % 64 = 0x0C ∨ off % 64 = 0x10 ∨ off % 64 = 0x14 then
      (if s.on c F.RXG_RXL_CTL_DFE_OVR then hw else 0)
    else 0
  else 0

/-- A write to a register that answers: partial and shadow writes (R412), the busy mailbox (R422), then the RW fields,
the unlocked RWL fields and the actions (R385, R410). `k` is the alias, 0 for the register's own address. -/
def regWrite (s : State) (path : Path) (a k be : Nat) (v : Word) : State :=
  if (fieldsAt a).isEmpty then s
  else if be ≠ 15 && (k != 0 || hasCmd a || isRl a || pairWord a) then s.accErr path (a + 0x400 * k) true 3
  else if pageOf a == 1 && ((mbInput (offOf a)).any s.mbBusy) then s.accErr path (a + 0x400 * k) true 6
  else
    let old := s.cur a
    let rw := fieldBits (· == .rw) a ||| (if k = 0 then s.softBits a else 0)
    let rwl := fieldBits (· == .rwl) a
    let locked := s.pageLocked (pageOf a)
    let op := if setOnly a then (if k ≤ 1 then old ||| v else old) else aliasOp k old v
    let m := beMask be
    let free := (if locked then rw else rw ||| rwl) &&& m
    let new := (old &&& ~~~free) ||| (op &&& free)
    let cmd := if k = 0 then v &&& fieldBits (· == .cmd) a else 0
    let s := if locked ∧ (op ^^^ old) &&& rwl &&& m ≠ 0 then s.accErr path (a + 0x400 * k) true 4 else s
    if k ≠ 0 ∧ rw ||| rwl = 0 then s else s.regEffect path a old new cmd (decide (k = 0))

/-- PROG_CMD LIFE_NEXT or LIFE_VOID from a path other than the Gondola (R376). -/
def lifeDenied (path : Path) (a k : Nat) (v : Word) : Bool :=
  path != .gondola && a == R.FUSE_PROG_CMD && k == 0
    && decide (F.FUSE_PROG_CMD_LIFE_NEXT.get v = 1 ∨ F.FUSE_PROG_CMD_LIFE_VOID.get v = 1)

/-- Whether an access to an address that is not an MSI-X page answers: none when it does, else its cause (R8, R413,
R442). -/
def accessFault (s : State) (a : Nat) : Option Nat :=
  let pg := pageOf a
  if (pageRow pg).isNone then some 1
  else if offOf a % 0x400 < 0x40 then none
  else if !s.pageOpen pg then some 2
  else if pg = 0x200 ∧ !s.on R.DEV_DEV_CTL F.DEV_DEV_CTL_PERF_USER_EN then some 5
  else none

/-- One register write. -/
def writeOnce (s : State) (path : Path) (a be : Nat) (v : Word) : BusOut :=
  let a := a / 4 * 4
  let k := offOf a / 0x400
  let base := 0x1000 * pageOf a + offOf a % 0x400
  if isMsixPage (pageOf a) then
    if path = .pcie then ⟨s.msixWrite a be v, true, 0⟩ else ⟨s.accErr path a true 5, false, 0⟩
  else match s.accessFault a with
    | some c => ⟨s.accErr path a true c, false, 0⟩
    | none =>
      if lifeDenied path base k v then ⟨s.accErr path a true 5, false, 0⟩
      else ⟨s.regWrite path base k be v, true, 0⟩

/-- A write over the register bus. With a ratio of R354 broken the write may be lost or performed twice: which is
free. -/
def busWrite (s : State) (path : Path) (a be : Nat) (v : Word) : BusOut :=
  if !s.busUp path then ⟨s, false, 0⟩
  else if !s.ratioBroken then s.writeOnce path a be v
  else
    let x := s.freeWord
    let n := x.1.toNat % 3
    if n = 0 then x.2.writeOnce path a be v
    else if n = 1 then ⟨x.2, true, 0⟩
    else (x.2.writeOnce path a be v).st.writeOnce path a be v

/-- One register read: a read of an RL low word latches the high word; the high word reads the shadow (R411). -/
def readOnce (s : State) (path : Path) (a : Nat) : BusOut :=
  let a := a / 4 * 4
  let base := 0x1000 * pageOf a + offOf a % 0x400
  if isMsixPage (pageOf a) then
    if path = .pcie then ⟨s, true, s.msixRead a⟩ else ⟨s.accErr path a false 5, false, 0xFFFFFFFF⟩
  else match s.accessFault a with
    | some c => ⟨s.accErr path a false c, false, if c = 5 then 0 else 0xFFFFFFFF⟩
    | none =>
      if (fieldsAt base).isEmpty then ⟨s, true, 0⟩
      else
        if isHigh base then ⟨s, true, SMap.get (fun _ => 0) s.shadows (base - 4)⟩
        else if isRl base && a == base then
          ⟨{ s with shadows := SMap.set (fun _ => 0) base (s.cur (base + 4)) s.shadows }, true, s.cur base⟩
        else ⟨s, true, s.cur base⟩

/-- A read over the register bus. With a ratio of R354 broken it may be lost or performed twice, and its data may be
wrong: which is free. -/
def busRead (s : State) (path : Path) (a : Nat) : BusOut :=
  if !s.busUp path then ⟨s, false, 0xFFFFFFFF⟩
  else if !s.ratioBroken then s.readOnce path a
  else
    let x := s.freeWord
    let y := x.2.freeWord
    let n := x.1.toNat % 4
    let r := y.2.readOnce path a
    if n = 0 then r
    else if n = 1 then ⟨y.2, true, y.1⟩
    else if n = 2 then ⟨(r.st.readOnce path a).st, r.ok, r.val⟩
    else ⟨r.st, r.ok, y.1⟩

/-- A whole-word write by a path. -/
def cmdWrite (s : State) (path : Path) (a : Nat) (v : Word) : State := (s.busWrite path a 15 v).st

/-- A whole-word write with an action bit set. -/
def cmdSet (s : State) (w : RegWrite) (a : Nat) (f : Fld) : State := s.cmdWrite w.path a (f.set (2 ^ f.width - 1) w.value)

end State
end Sys2Proof.Machine
end

