-- ==== Sys2Proof/Machine/Boot.lean ====
section
/-! DEFINITION. The boot sequence: the steps of R361 with what each does, the repair records that it applies (R310,
R380), startup BIST (R393) and the stalls of R363. -/

namespace Sys2Proof.Machine

namespace State

def stall (s : State) : State := s.flag R.CLK_BOOT_STAT F.CLK_BOOT_STAT_STALLED true
def stalled (s : State) : Bool := s.on R.CLK_BOOT_STAT F.CLK_BOOT_STAT_STALLED
def bootTo (s : State) (n : Nat) : State := s.put R.CLK_BOOT_STAT F.CLK_BOOT_STAT_STEP n

/-! ### Repair records at boot (R310, R378) -/

/-- The records that boot applies: those of manufacture, then the merged list of R380. -/
def bootRecords (s : State) : List (Word × Word) := s.spare.mfg ++ s.spare.merged

def recAction (r : Word × Word) : Nat := r.2.toNat / 2 ^ 28
def recArg (r : Word × Word) : Nat := r.2.toNat / 2 ^ 20 % 16
def recDeficit (r : Word × Word) : Bool := r.2.getLsbD 27

/-- The storage that a retirement record names, in the model's identifiers; none for another record. -/
def recStorage (r : Word × Word) : Option Word :=
  let n := r.1.toNat
  if recAction r = 4 then some (resPch (n / 2 ^ 22 % 32) (n / 2 ^ 21 % 2))
  else if recAction r = 5 then some (resChan (n / 2 ^ 22 % 32))
  else if recAction r = 3 ∧ (resType r.1 = 3 ∨ resType r.1 = 4 ∨ resType r.1 = 5) then some r.1
  else none

/-- The flags of a retired pseudo-channel. -/
def pchFlag (s : State) (pc : Nat) : State :=
  s.flag (R.CHP_PHY_STAT (pc / 2)) (if pc % 2 = 0 then F.CHP_PHY_STAT_RETIRED_A else F.CHP_PHY_STAT_RETIRED_B) true

/-- Controller `k` is kept off, with the quadrant's spare in its slot (R310). -/
def ctrlOff (s : State) (k : Nat) : State :=
  let was := s.on (R.CHC_CHAN_MAP k) F.CHC_CHAN_MAP_ACTIVE
  let s := s.flag (pgStat (chcPg k)) pgRetired true
  if was then
    match s.quadSpare (k / 9) with
    | some n => ({ s with spare := { s.spare with ctrlOn := n :: s.spare.ctrlOn.filter (· ≠ n) } }).swapTake k n
    | none => s.flag (R.CHC_CHAN_MAP k) F.CHC_CHAN_MAP_ACTIVE false
  else s

/-- Engine `e` is kept off; the quadrant's spare is powered in its slot (R310). -/
def engOff (s : State) (e : Nat) : State :=
  let s := ((s.setEngState e 5).flag (pgStat (engPg e)) pgRetired true).fillSlot e
  (quadEngines (engQuad e)).foldl (fun (t : State) x =>
    if !t.engIsSpare x && t.engState x == 0 then t.setEngState x 1 else t) s

/-- A cache bank is retired with nothing to flush (R178, R393). -/
def bankOff (s : State) (b : Nat) : State :=
  let s := s.put (R.CDIE_BANK_STAT b) F.CDIE_BANK_STAT_STATE 2
  (s.setBit R.CACHE_BANK_MAP F.CACHE_BANK_MAP_ACTIVE b false).setBit R.CACHE_BANK_MAP F.CACHE_BANK_MAP_RETIRED b true

/-- The via remap of a record, on the vias as the earlier records leave them (R206). -/
def bootRemap (s : State) (r : Word × Word) : State :=
  let n := r.1.toNat
  let pc := n / 2 ^ 7 % 64
  let ca := decide (n / 2 ^ 6 % 2 = 1)
  match s.logicalOf pc ca (n % 64) with
  | none => s
  | some t => if (spareNums ca).contains (recArg r) then s.takeSpare pc ca (recArg r) t else s

/-- The flags of a retired resource (ACTION 3). -/
def bootRetire (s : State) (mfg : Bool) (w : Word) : State :=
  let n := w.toNat
  let s := { s with fcol := { s.fcol with declared := s.fcol.declared ++ [w] } }
  match resType w with
  | 4 =>
    let c := n / 2 ^ 22 % 32
    let b := n / 2 ^ 15 % 16 + 16 * (n / 2 ^ 19 % 4)
    let a := if b < 32 then R.CHP_BANK_RET_LO c (n / 2 ^ 21 % 2) else R.CHP_BANK_RET_HI c (n / 2 ^ 21 % 2)
    let s := s.setBit a ⟨0, 32⟩ (b % 32) true
    let d := 4 * (n / 2 ^ 19 % 4) + c % 4
    if mfg then s.incSat (R.DDIE_MAPPED_OUT d) F.DDIE_MAPPED_OUT_BANKS else s
  | 5 => s.flag (R.DDIE_DIE_STAT (n % 16)) F.DDIE_DIE_STAT_RETIRED true
  | 6 => if n % 64 < 36 then s.ctrlOff (n % 64) else s
  | 7 => if n % 64 < 36 then s.engOff (n % 64) else s
  | 8 => (s.bankOff (n % 16)).flag (R.CDIE_BANK_STAT (n % 16)) F.CDIE_BANK_STAT_MAPPED_OUT true
  | 9 =>
    (s.flag R.CDIE_CDIE_STAT F.CDIE_CDIE_STAT_RETIRED true).flag R.CACHE_CACHE_STAT F.CACHE_CACHE_STAT_DIE_RETIRED true
  | 10 => (s.macroTake (n % 1024)).getD s
  | _ => s

/-- Apply one record, but for the row repairs and the frames, which follow at step 11 (R310). -/
def bootRecord (mfg : Bool) (s : State) (r : Word × Word) : State :=
  let n := r.1.toNat
  if recAction r = 1 then s.bootRemap r
  else if recAction r = 3 then s.bootRetire mfg r.1
  else if recAction r = 4 then s.pchFlag (n / 2 ^ 21 % 64)
  else if recAction r = 5 then
    let c := n / 2 ^ 22 % 32
    let s := ((s.pchFlag (2 * c)).pchFlag (2 * c + 1)).flag (R.CHP_PHY_STAT c) F.CHP_PHY_STAT_CHAN_RETIRED true
    match (s.activeCtrls (c / 8)).find? fun k => s.chanOf k == c with
    | none => s
    | some k => s.flag (R.CHC_CHAN_MAP k) F.CHC_CHAN_MAP_ACTIVE false
  else s

def bootRecordsApply (s : State) : State :=
  s.spare.merged.foldl (bootRecord false) (s.spare.mfg.foldl (bootRecord true) s)

/-! ### Step 9: TSV training (R204, R206) -/

/-- The vias of a class in service whose verify failed, as logical vias. -/
def failedLogical (s : State) (pc : Nat) (ca : Bool) (t : TsvIn) : List Nat :=
  (t.failed.filter fun v => v.ca == ca).filterMap fun v => s.logicalOf pc ca v.via.toNat

/-- Give a failed logical via the first free spare; false when there is none. -/
def bootSpare (pc : Nat) (ca : Bool) (x : Bool × State) (v : Nat) : Bool × State :=
  match (spareNums ca).find? (x.2.spareFree pc ca) with
  | none => (false, x.2)
  | some i =>
    let old := x.2.physVia pc ca v
    (x.1, (x.2.takeSpare pc ca i v).recordStep (resVia (pc / 2) (decide (pc % 2 = 1)) ca old) 1 i)

/-- The words that boot training gives a pseudo-channel. One restored during the step runs verify only, and trains just the vias
that fail it (R403). -/
def bootWords (s : State) (pc : Nat) (t : TsvIn) : List (Nat × Word) :=
  let l := t.cal.filterMap fun v => if v.1.toNat < 58 then some (v.1.toNat, v.2) else none
  if s.cal.restored.contains (pc / 2 + 0x10) then
    l.filter fun e => t.failed.any fun v => (if v.ca then 42 else 2) + v.via.toNat == e.1
  else l

/-- Boot training of one pseudo-channel: the dies' tRCD (R204 step 3), verify, spares for the failed vias, and the trained values. One
that is trained leaves a retained self-refresh; one that is not stays in it (R214). -/
def bootTrain (s : State) (pc : Nat) (t : TsvIn) : State :=
  if s.pchRetired pc then s
  else
    let s := (t.trcd.take 4).zipIdx.foldl (fun (u : State) e =>
      u.put (R.DDIE_TRCD_DIE (4 * e.2 + pc / 2 % 4)) F.DDIE_TRCD_DIE_TENTHS e.1.toNat) s
    let s := s.verifyVias (pc / 2) (pc % 2) t.failed
    let x := (s.failedLogical pc false t).foldl (bootSpare pc false) (true, s)
    let y := (x.2.failedLogical pc true t).foldl (bootSpare pc true) (x.1, x.2)
    let s := y.2.setPch pc { y.2.pch pc with apply := some (s.bootWords pc t), trainedAt := y.2.clk.up + 1, trainedT := y.2.dieNodes pc }
    let s := (s.applyTraining pc).flag (R.CHP_PHY_STAT (pc / 2))
      (if pc % 2 = 0 then F.CHP_PHY_STAT_TRAINED_A else F.CHP_PHY_STAT_TRAINED_B) (y.1 && !t.ckFailed)
    if s.pchTrained pc && s.ch.selfRefresh.contains pc then s.exitSelfRefresh [pc] else s

def tsvOf (b : BootIn) (pc : Nat) : TsvIn :=
  match b.tsv.find? fun x => decide (x.1.val = pc / 2) && (x.2.1 == decide (pc % 2 = 1)) with
  | some x => x.2.2
  | none => ⟨[], false, [], []⟩

/-- Write a die's identity record; that of a die that is absent reads zeros: 0 to 15 the DRAM dies, 16 the cache die (R182, R210, R377). -/
def putDieId (s : State) (d : Nat) (v : BitVec 128) : State :=
  (List.range 4).foldl (fun (t : State) i =>
    t.wr (if d < 16 then R.DDIE_DIE_ID d i else R.CDIE_DIE_ID i) (BitVec.ofNat 32 (v.toNat / 2 ^ (32 * i)))) s

def bootTsv (s : State) (b : BootIn) : State :=
  let s := s.bootRecordsApply
  let s := (List.range 64).foldl (fun (t : State) pc => t.bootTrain pc (tsvOf b pc)) s
  let s := dies.foldl (fun (t : State) d => t.flag (R.DDIE_DIE_STAT d) F.DDIE_DIE_STAT_PRESENT
    !(b.diesAbsent.any fun x => decide (x.val = d))) s
  let here := b.dieIds.filter fun e => !(b.diesAbsent.any fun x => decide (x.val = e.1.val))
  let s := here.foldl (fun (t : State) e => t.putDieId e.1.val e.2) s
  s.flag R.CDIE_CDIE_STAT F.CDIE_CDIE_STAT_RESPONDING !(s.on R.CDIE_CDIE_STAT F.CDIE_CDIE_STAT_RETIRED)

/-! ### Step 10: startup BIST (R393) -/

/-- The check of BIST_CTL.BOOT_CHECKS that finds a failure. -/
def bootCheckOf : BistFail → Nat
  | .controller _ => 0
  | .engine _ => 0
  | .controllerSram _ => 1
  | .engineSram _ => 1
  | .phy _ => 0
  | .laneGroup _ _ => 0
  | .block => 0
  | .sramMacro _ => 1
  | .laneLoop _ _ => 2
  | .cacheBank _ => 3
  | .spareVia _ _ _ => 4
  | .adcRef => 5

def blockFails (s : State) : State := s.flag R.BIST_BOOT_FAILS F.BIST_BOOT_FAILS_BLOCK true

/-- A controller that fails is retired, and the spare takes its slot; so is an engine. -/
def bootCtrlFail (s : State) (k : Nat) : State :=
  let s := s.incSat R.BIST_BOOT_FAILS F.BIST_BOOT_FAILS_CTRLS
  if s.ctrlRetired k then s else (s.ctrlOff k).recordStep (resCtrl k) 3 0
def bootEngFail (s : State) (e : Nat) : State :=
  let s := s.incSat R.BIST_BOOT_FAILS F.BIST_BOOT_FAILS_ENGINES
  if s.engState e = 5 then s else (s.engOff e).recordStep (resEng e) 3 0

/-- A base SRAM macro that fails is replaced, a spare that stands in for another too; when none is left, the block of the macro
counts as failed. -/
def bootMacroFail (s : State) (m : Nat) : State :=
  if s.declared (resMacro m) then s
  else
    let s := { s with fcol := { s.fcol with declared := s.fcol.declared ++ [resMacro m] } }
    match s.macroOwner m with
    | none => s
    | some _ =>
      match s.macroTake m with
      | none => s.blockFails
      | some t => (t.recordStep (resMacro m) 3 0).incSat R.BIST_BOOT_FAILS F.BIST_BOOT_FAILS_MACROS

/-- A cache bank that fails is retired with nothing to flush, and with the last one the die (R308). -/
def bootBankFail (s : State) (b : Nat) : State :=
  let s := s.incSat R.BIST_BOOT_FAILS F.BIST_BOOT_FAILS_CACHE_BANKS
  if s.bankState b = 2 then s
  else
    let s := (s.bankOff b).recordStep (resCbank b) 3 0
    if ways.all fun i => decide (s.bankState i = 2) then s.dieRetire else s

/-- The outcome of one failing unit. -/
def bootFail (s : State) (x : BistFail) : State :=
  match x with
  | .controller k | .controllerSram k => s.bootCtrlFail k.val
  | .engine e | .engineSram e => s.bootEngFail e.val
  | .phy c =>
    (s.flag (R.CHP_PHY_STAT c.val) F.CHP_PHY_STAT_TRAINED_A false).flag (R.CHP_PHY_STAT c.val) F.CHP_PHY_STAT_TRAINED_B false
  | .sramMacro m => s.bootMacroFail m.val
  | .cacheBank b => s.bootBankFail b.val
  | .laneGroup d g =>
    { s with link := { s.link with noGroup := (8 * dirIx d + g.val) :: s.link.noGroup.filter (· ≠ 8 * dirIx d + g.val) } }
  | .laneLoop _ _ => (s.flag R.BIST_BOOT_FAILS F.BIST_BOOT_FAILS_LANES true).inc R.BIST_LOOP_FAILS
  | .spareVia c p v =>
    let first := if v.ca then 14 else 36
    let n := if v.ca then 2 else 4
    if first ≤ v.via.toNat ∧ v.via.toNat < first + n then (s.inc R.BIST_CONT_FAILS).spareViaOut c.val p.toNat v else s
  | .adcRef => { s with bist := { s.bist with adcRef := true } }
  | .block => s.blockFails

def bootBist (s : State) (b : BootIn) : State :=
  let checks := s.fld R.BIST_BIST_CTL F.BIST_BIST_CTL_BOOT_CHECKS
  let s := (b.bist.filter fun x => checks.testBit (bootCheckOf x)).foldl (fun (t : State) x => t.bootFail x)
    (s.wr R.BIST_BOOT_FAILS 0)
  s.flag R.BIST_BIST_STAT F.BIST_BIST_STAT_BOOT_DONE true

/-! ### Step 11: the DRAM and the table (R163, R207, R310) -/

/-- A row repair of a record is applied again. -/
def bootRow (s : State) (r : Word × Word) : State :=
  let n := r.1.toNat
  let c := n / 2 ^ 22 % 32
  let k := 64 * (2 * c + n / 2 ^ 21 % 2) + n / 2 ^ 15 % 64
  if recAction r = 2 then
    { s with ch := { s.ch with rowsUsed := SMap.upd (fun _ => 0) k (· + 1) s.ch.rowsUsed } }.incSat
      (R.DDIE_ROWS_REPAIRED (4 * (n / 2 ^ 19 % 4) + c % 4)) F.DDIE_ROWS_REPAIRED_COUNT
  else s

/-- Pseudo-channels that boot could not train and that no record retires. -/
def untrained (s : State) : List Nat :=
  (List.range 64).filter fun pc => !s.pchRetired pc && !s.pchTrained pc

/-- A pseudo-channel that failed at this boot is retired before the table is laid out. -/
def bootPchOut (s : State) (pc : Nat) : State :=
  let s := (s.pchFlag pc).recordStep (BitVec.ofNat 32 (4 * 2 ^ 28 + pc * 2 ^ 21)) 4 0
  s.chanRetired (pc / 2)

/-- Frames of storage that the records retire, in a restored table: they are RETIRED, and a parcel that had not left is
WITHDRAWN (R310). A mirror with a place on one is not valid (R162). -/
def restoreGone (s : State) (gone : List Word) : State :=
  let fs := allFrames.filter fun f => (gone.any fun r => resHolds r f) && decide (s.frameCode f ≠ 3)
  let ns := (List.range s.parcels).filter fun n => eHeld (s.entry n) && fs.contains (eFrame (s.entry n))
  let ks := (List.range 8192).filter fun k => fs.contains (s.keelFrame k)
  let s := ks.foldl (fun (t : State) k => t.setMirror (decide (4096 ≤ k)) false) s
  let s := ns.foldl (fun (t : State) n => t.setEntry 3 n eWithdrawn) s
  let s := fs.foldl (fun (t : State) f => t.setFrame f 3) s
  { s with place := { s.place with keelLost := s.place.keelLost ++ ks.filter fun k => !s.place.keelLost.contains k } }

/-- Channels that no controller serves are orphaned once the table stands (R306, R393). -/
def bootOrphans (s : State) : State :=
  ((List.range 36).filter fun k => s.ctrlRetired k).foldl (fun (t : State) k =>
    let c := t.chanOf k
    if (t.ctrlOf c).isNone && !(t.pchRetired (2 * c) && t.pchRetired (2 * c + 1)) then t.orphanServe k else t) s

/-- DRAM initialisation: the table is restored or laid out, refresh runs and the cache starts empty. -/
def bootDram (s : State) : State :=
  let s := s.bootRecords.foldl bootRow s
  let gone := s.bootRecords.filterMap recStorage
  let wdr := (s.bootRecords.filter recDeficit).filterMap recStorage
  let s :=
    if s.place.clean && (s.mirrorClean false || s.mirrorClean true) then
      let u := s.untrained
      let s := ((s.setMirror false (s.mirrorClean false)).setMirror true (s.mirrorClean true)).restoreGone gone |>.tableRestore |>.wearFromKeel
      u.foldl (fun (t : State) pc => (t.makeUnreadable pc).retirePch pc) s
    else
      let u := s.untrained
      let s := u.foldl (fun (t : State) pc => t.bootPchOut pc) s
      s.tableLayout (gone ++ u.map fun pc => resPch (pc / 2) (pc % 2)) wdr
  let s := s.updClk fun c => { c with dramInit := true }
  let s := { s with cache := {}, ch := { s.ch with passAt := s.clk.up } }
  let s := s.bootOrphans
  let use := s.on R.CACHE_CACHE_CTL F.CACHE_CACHE_CTL_ENABLE && !s.on R.CACHE_CACHE_STAT F.CACHE_CACHE_STAT_DIE_RETIRED
  (s.flag R.CACHE_CACHE_STAT F.CACHE_CACHE_STAT_ENABLED use).flag R.CACHE_CACHE_STAT F.CACHE_CACHE_STAT_PD_OFF (!use)

/-! ### The other steps -/

/-- Step 3: straps are sampled, or a rail out of window makes boot wait (R452, R455). -/
def bootStraps (s : State) (b : BootIn) : State :=
  let s := (List.range 7).foldl (fun (t : State) r =>
    t.flag (R.PWR_RAIL_MON r) F.PWR_RAIL_MON_OUT (b.railsOut.any fun x => decide (x.val = r))) s
  -- after a power-on, the boot time starts when the last rail has come into its window
  let good := s.clk.railWait && b.railsOut.isEmpty && s.on R.CLK_RESET_CAUSE F.CLK_RESET_CAUSE_POR
  let s := s.updClk fun c => { c with
    railWait := !b.railsOut.isEmpty, straps := b.straps.toNat, bootFrom := if good then c.up else c.bootFrom }
  if b.railsOut.isEmpty then s.bootTo 4 else s

/-- Step 6: the PLLs have locked on the reference, the switched blocks leave reset and the link layer initialises. -/
def bootClocks (s : State) : State :=
  let s := s.releasePages 6
  let s := (List.range 36).foldl (fun (t : State) e => if t.engIsSpare e then t else t.setEngState e 1) s
  (s.llInit.bootTo 7).hwGatesClose

/-- Bytes 73 on of the reset-cause entry hold RESET_CAUSE (DESIGN CHOICE: R420 gives no layout for KIND 2). -/
def causeBytes (s : State) : List (Nat × Nat) :=
  ((bytesLE 4 (s.rd R.CLK_RESET_CAUSE).toNat).zipIdx).map fun e => (73 + e.2, e.1)

/-- Step 7: the flash answers, an image is authenticated and loaded, and the records are read. -/
def bootFirmware (s : State) (b : BootIn) : State :=
  let here := decide (b.flashId ≠ 0 ∧ b.flashId ≠ 0xFFFFFF)
  let s := (s.wr R.SPI_FLASH_ID (b.flashId.setWidth 32)).flag R.SPI_SPI_STAT F.SPI_SPI_STAT_PRESENT here
  let s := { s with mgmt := { s.mgmt with flashKiB := if here then 2 ^ (b.flashId.toNat / 2 ^ 16) / 1024 else 0 } }
  let s := s.loadSecret s.sec.bistOk
  let s := if here then s.loadFirmware else s
  if !s.fwRunning then s.stall
  else
    -- firmware from image 1 repeats the promotion (R423; assumption 112)
    let s := if s.on R.SEC_SEC_STAT F.SEC_SEC_STAT_FW_IMAGE then s.promote else s
    let s := { s with spare := { s.spare with mfg := s.mfgRecords } }
    let s := s.mergeRecords.wearRestore.showLogNext
    (s.logNote 2 s.causeBytes).bootTo 8

/-- The third measurement block: SHA-384 of PAGE_LOCK and every locked RWL register (R383). -/
def lockMeasure (s : State) : BitVec 384 :=
  let pages := (pageRows.flatMap fun r => (List.range r.insts).map (r.first + ·)).filter s.pageLocked
  sha384 (wordBytes (((List.range 17).map fun w => s.rd (R.LOCK_PAGE_LOCK w)) ++ (pages.flatMap rwlRegs).map s.cur))

/-- The pages whose RWL fields a write of the firmware's configuration has set (R385). -/
def rwlPages (ws : List (BitVec 22 × Word)) : List Nat :=
  (ws.filter fun e => (rwlRegs (pageOf e.1.toNat)).contains (0x1000 * pageOf e.1.toNat + offOf e.1.toNat % 0x400)).map
    fun e => pageOf e.1.toNat

/-- The locks of boot step 8, after the firmware's configuration. -/
def bootLocks (s : State) (ws : List (BitVec 22 × Word)) : State :=
  let s := (bootPages ++ rwlPages ws).foldl (fun (t : State) pg => t.lockPage pg) s
  let regions := if s.life = 3 then 0xBF else if s.life = 2 then 0x07 else 0
  let s := s.put R.LOCK_PROG_LOCK F.LOCK_PROG_LOCK_REGIONS (s.fld R.LOCK_PROG_LOCK F.LOCK_PROG_LOCK_REGIONS ||| regions)
  let s := if s.life = 2 ∨ s.life = 3 then s.flag R.LOCK_DBG_LOCK F.LOCK_DBG_LOCK_TAP_RESTRICT true else s
  let s := s.flag R.LOCK_LOCK_STAT F.LOCK_LOCK_STAT_BOOT_LOCKED true
  { s with sec := { s.sec with lockMeas := s.lockMeasure } }

/-- The visible capacity code: the firmware's record, or STRAP[1:0], with 0b11 as 120 GiB (R129, R455). -/
def bootCap (s : State) (b : BootIn) : Nat :=
  let n := match b.cfgCap with | some c => c.toNat | none => s.clk.straps % 4
  if n = 3 then 0 else n

/-- Step 8: the firmware's configuration and the lock registers. A retained table of another capacity is of no use. -/
def bootConfig (s : State) (b : BootIn) : State :=
  let s := b.cfgWrites.foldl (fun (t : State) e => (t.busWrite .gondola e.1.toNat 15 e.2).st) s
  let s := s.bootLocks b.cfgWrites
  let n := s.bootCap b
  { s with place := { s.place with clean := s.place.clean && decide (s.place.cap = n), cap := n } }.bootTo 9

/-- The event-log entry of a complete boot (R455). -/
def bootNote (s : State) : State := s.logNote 3 [(73, s.clk.straps), (74, s.cap)]

/-- STRAP[3]: the link stays in OFF after step 11 until LL_CTL.RETRAIN, and boot is complete. -/
def linkHeld (s : State) : Bool := s.clk.straps.testBit 3

/-- BOOT_STEP_COMPLETE: the operation of the step in progress ends with what it found. Steps 12 and 13 end by the link's
own events. With a trip latched boot goes no further than step 6, since the switched domains stay off (R22, R327). -/
def bootStepComplete (s : State) (b : BootIn) : State :=
  if s.inReset || s.drogue || (s.tripped && decide (6 ≤ s.bootStep)) || s.stalled || s.clk.orderly.isSome then s
  else match s.bootStep with
    | 1 => s.bootTo 2
    | 2 => ((s.releasePages 3).flag R.MGMT_GONDOLA_STAT F.MGMT_GONDOLA_STAT_ON_TOSC true).pcieClock.bootTo 3
    | 3 => s.bootStraps b
    | 4 => (((s.otpBootRead b.otp).calApplied 0x30).flag R.CLK_CLK_STAT F.CLK_CLK_STAT_TOSC_TRIMMED true).bootTo 5
    | 5 =>
      let s := s.integCheck
      if s.integStops then s.stall
      else ({ s with sec := { s.sec with bistOk := b.secBistOk } }.updClk fun c => { c with xoOn := true }).bootTo 6
    | 6 => if s.refSrc = 0 then s else s.bootClocks
    | 7 => s.bootFirmware b
    | 8 => s.bootConfig b
    | 9 => (s.bootTsv b).bootTo 10
    | 10 =>
      let s := s.bootBist b
      if s.on R.BIST_BOOT_FAILS F.BIST_BOOT_FAILS_BLOCK then s.stall else s.bootTo 11
    | 11 => let s := s.bootDram.bootTo 12; if s.linkHeld then s.bootNote else s
    | _ => s

/-- BOOT_RAIL_WAIT_EXPIRY: a rail is still out of window after 100 ms (R452). -/
def railWaitExpiry (s : State) : State :=
  if s.clk.railWait && decide (s.bootStep = 3) && !s.inReset then s.stall else s

/-- Link ready: the link is ACTIVE and link-layer initialisation is complete, so boot step 12 ends (R361). -/
def linkReady (s : State) : State :=
  if s.bootStep = 12 ∧ s.linkActive ∧ s.link.initStep = 0 then
    let s := (s.bootTo 13).flag R.CLK_BOOT_STAT F.CLK_BOOT_STAT_STALLED false
    let s := s.put R.CLK_BOOT_TIME F.CLK_BOOT_TIME_LINK_MS (min 65535 ((s.clk.up - s.clk.bootFrom) / 1000000))
    if s.linkHeld then s else s.bootNote
  else s

end State
end Sys2Proof.Machine
end

