-- ==== Sys2Proof/Machine/LaneEvents.lean ====
section
/-! DEFINITION. What arrives on the lanes beside flits: training and sparing markers, keepalive and exit bursts, pad
frames, the eye monitor, and the phases of hitless sparing (R29 to R58, R301). -/

namespace Sys2Proof.Machine
namespace State

/-- Change what the lanes and the link layer hold beside their pages. -/
def updLink (s : State) (f : LinkState → LinkState) : State := { s with link := f s.link }

/-! ### Training (R29, R35, R44) -/

/-- Link training starts from DETECT at boot step 12, unless STRAP[3] holds the link (R44, R455). -/
def trainingStart (s : State) : State :=
  if s.bootStep = 12 ∧ s.linkState = 0 ∧ !s.drogue ∧ !s.linkHeld then s.startTraining 1 else s

/-- The link trains: a state from DETECT to VERIFY, or RECOVER. -/
def inTraining (s : State) : Bool := decide (1 ≤ s.linkState ∧ s.linkState ≤ 6 ∨ s.linkState = 8)

/-- An EQ_ACK marker reports the outcome of a request of the stack's receivers. -/
def eqAckSeen (s : State) (g arg : Nat) : State :=
  if s.linkState = 4 then s.updLink fun l => { l with eqAck := SMap.set (fun _ => 0) g arg l.eqAck } else s

/-- A PARAM marker: the host's request for precoding, its spare lane and its timing, and how often it came equal. -/
def paramSeen (s : State) (g arg : Nat) : State :=
  if s.linkState ≠ 5 then s
  else
    let old := SMap.get (fun _ => 0) s.link.paramSeen g
    let same := decide (0 < old ∧ SMap.get (fun _ => 0) s.link.hostParam g = arg)
    s.updLink fun l => { l with
      hostParam := SMap.set (fun _ => 0) g arg l.hostParam
      paramSeen := SMap.set (fun _ => 0) g (if same then old + 1 else 1) l.paramSeen }

/-- A TRAIN marker: the host's state code and its readiness to leave it. EQ ends when that was what it waited for (R44). -/
def trainSeen (s : State) (g arg : Nat) : State :=
  if s.inTraining then
    (s.updLink fun l => { l with hostTrain := SMap.set (fun _ => 0) g arg l.hostTrain }).eqLeaves
  else s

/-- ACTIVE after a training from DETECT: a declared lane that has passed returns to service with its bucket at 0, and one
that has failed stays retired (R301). -/
def lanesBack (s : State) : State :=
  if !(s.link.fresh && s.linkActive) then s
  else
    let s := s.updLink fun l => { l with fresh := false }
    (s.fcol.declared.filter fun r => decide (resType r = 1)).foldl (fun (t : State) r =>
      let i := 10 * (r.toNat / 2 ^ 4 % 8) + r.toNat % 16
      if r.getLsbD 8 then
        if t.link.badTx.contains i then t.updLink fun l => { l with deadTx := i :: l.deadTx } else t.undeclare r
      else if t.link.badRx.contains i then t.updLink fun l => { l with deadRx := i :: l.deadRx }
      else t.undeclare r) s

/-! ### Idle, exit and parking (R47 to R51) -/

/-- An EIDLE marker: the group's receivers freeze and wait for an exit burst. -/
def eidleSeen (s : State) (g : Nat) : State :=
  s.updLink fun l => { l with
    frozen := g :: l.frozen.filter (· ≠ g), exits := SMap.set (fun _ => 0) g 0 l.exits, ready := l.ready.filter (· ≠ g) }

/-- A lane has marker lock, and with it CDR lock: markers are found in recovered symbols alone (DEDUCED, assumption 125). -/
def laneLocked (s : State) (g l : Nat) : State :=
  (s.flag (R.RXG_RXL_STAT g l) F.RXG_RXL_STAT_MARK_LOCK true).flag (R.RXG_RXL_STAT g l) F.RXG_RXL_STAT_CDR_LOCK true

/-- EXIT markers of a group's burst that came in order (R49); kept with the last block number as 4 × count + number. -/
def exitRun (s : State) (g : Nat) : Nat := SMap.get (fun _ => 0) s.link.exits g / 4

/-- An EXIT marker of a joining group's burst; the third in order gives marker lock on its lanes. -/
def exitSeen (s : State) (g block : Nat) : State :=
  if !s.parked .rx g || s.stale .rx g || s.groupOff .rx g then s
  else
    let n := if 0 < s.exitRun g ∧ block = SMap.get (fun _ => 0) s.link.exits g % 4 + 1 then s.exitRun g + 1 else 1
    let s := s.updLink fun l => { l with exits := SMap.set (fun _ => 0) g (4 * n + block) l.exits }
    if n < 3 then s
    else
      let s := (s.dataLanes .rx g).foldl (fun (t : State) l => t.laneLocked g l) s
      (s.flag (R.RXG_GRP_STAT g) F.RXG_GRP_STAT_MARKER_LOCK true).updLink fun l => { l with
        frozen := l.frozen.filter (· ≠ g) }

/-- A parked group can rejoin through RECOVER alone: it is STALE and its direction runs narrower than it should or is being
changed, or it was powered off and has powered up for the running widening (R50, R51, R92). -/
def joinsByRecover (s : State) (d : Dir) (g : Nat) : Bool :=
  s.parked d g && ((s.stale d g && (s.widthBusy d || decide (s.wantedStep d < s.curStep d)))
    || s.link.wake.contains (8 * dirIx d + g))

/-- A joining group is deskewed and ready to carry frames at the next frame boundary; a receive group reports its skew, and its
descramblers have taken in the burst (R28, R46, R49). -/
def groupReady (s : State) (d : Dir) (g : Nat) (skew : BitVec 8) (line : List (Fin 10 × BitVec 58)) : State :=
  if s.joinsByRecover d g then s.enterRecover
  else if !s.parked d g || s.stale d g || s.groupOff d g then s
  else if d = .rx ∧ s.exitRun g < 3 then s
  else
    let s := s.updLink fun l => { l with ready := (8 * dirIx d + g) :: l.ready.filter (· ≠ 8 * dirIx d + g) }
    match d with
    | .tx => s
    | .rx => line.foldl (fun u x => u.takeLine g x.1.val x.2) (s.put (R.RXG_GRP_STAT g) F.RXG_GRP_STAT_SKEW_UI skew.toNat)

/-- A parked transmit group sends its keepalive burst, unless it is powered off. -/
def keepaliveSend (s : State) (g : Nat) : State :=
  if s.parked .tx g && !s.groupOff .tx g then s.laneBurst g 12 else s

/-- A keepalive burst arrives on a parked group: its receivers adapt on it, CTLE and taps, and freeze again, and the group does
not join. -/
def keepaliveSeen (s : State) (g : Nat) (adapt : List (Fin 10 × Adapt)) : State :=
  if s.parked .rx g && !s.groupOff .rx g then
    adapt.foldl (fun u x => u.takeAdapt g x.1.val x.2 true true)
      (s.updLink fun l => { l with frozen := g :: l.frozen.filter (· ≠ g) })
  else s

/-- Three expected keepalive bursts of a parked group are missing: it is STALE and leaves the usable set, so the link goes
through RECOVER (R50, R94). -/
def keepaliveMissed (s : State) (g : Nat) : State :=
  if s.parked .rx g && !s.groupOff .rx g then
    ((s.flag (R.RXG_GRP_STAT g) F.RXG_GRP_STAT_STALE true).setUsable .rx g false).enterRecover
  else s

/-! ### Pad frames (R42) -/

/-- A pad frame of `ui` on one lane: the marker, then scrambled zeros. -/
def padLane (ui : Nat) (s : State) (g l : Nat) : State :=
  let r := s.blockSyms g l (11 * 4096) (List.replicate (2 * (ui - 32)) false)
  r.2.drive g l r.1

/-- Under local timing in ACTIVE, a pad frame is sent at a frame boundary and counted. -/
def padInsert (s : State) : State :=
  if !s.linkActive || s.loopTimed then s
  else
    let ui := frameUI (s.curStep .tx)
    let s := (s.activeGroups .tx).foldl (fun (t : State) g =>
      let t := t.updLink fun x => { x with markers := SMap.set (fun _ => 0) g (11 * 4096) x.markers }
      (t.dataLanes .tx g).foldl (fun (u : State) l => padLane ui u g l) t) s.clearOut
    (s.updLink fun x => { x with frame := [] }).inc (R.TXG_PAD_CNT 0)

/-! ### Hitless sparing (R53 to R56) -/

def sparePhase (s : State) (g : Nat) : Nat := s.fld (R.RXG_SPARE_STAT g) F.RXG_SPARE_STAT_PHASE
def spareOf (s : State) (g : Nat) : Nat := s.fld (R.RXG_SPARE_STAT g) F.RXG_SPARE_STAT_LANE
def setPhase (s : State) (g n : Nat) : State := s.put (R.RXG_SPARE_STAT g) F.RXG_SPARE_STAT_PHASE n

/-- A SHADOW_REQ marker: the transmitter drives its spare with a copy of the failing lane and answers SHADOW_ACK. -/
def shadowReq (s : State) (g lane : Nat) : State :=
  if s.linkActive && decide (s.spareLane .tx g ≠ 15) && (s.dataLanes .tx g).contains lane
      && decide (lane ≠ s.spareLane .tx g) then
    (((s.updLink fun l => { l with
      shadowTx := SMap.set (fun _ => none) g (some ⟨lane, false⟩) l.shadowTx }).flag
        (R.TXG_GRP_STAT g) F.TXG_GRP_STAT_SHADOW true).setAck g 6 lane).sparingWidth .tx
  else s

/-- A SHADOW_ACK marker ends the Request phase. -/
def shadowAck (s : State) (g lane : Nat) : State :=
  if s.sparePhase g = 1 ∧ s.spareOf g = lane then
    (s.setPhase g 2).flag (R.RXG_RXL_STAT g (s.spareLane .rx g)) F.RXG_RXL_STAT_SHADOW true
  else s

/-- No SHADOW_ACK in 16 marker periods. -/
def ackMissing (s : State) (g : Nat) : State := if s.sparePhase g = 1 then s.spareEnd g 6 else s

/-- The spare has lock and adapted equalisation: Compare begins. -/
def adaptDone (s : State) (g : Nat) : State :=
  if s.sparePhase g = 2 then
    ((s.setPhase g 3).put (R.RXG_SPARE_STAT g) F.RXG_SPARE_STAT_MISMATCH 0).laneLocked g (s.spareLane .rx g)
  else s

/-- Adapt exceeds 2 ms: the sparing fails (R54). -/
def adaptTimeout (s : State) (g : Nat) : State :=
  if s.sparePhase g = 2 then (s.spareEnd g 7).sparingFailed g else s

/-- 4,096 marker periods have been compared: with at most 4 mismatches the SWITCH countdown starts, else the sparing
fails. -/
def compareDone (s : State) (g n : Nat) : State :=
  if s.sparePhase g ≠ 3 then s
  else
    let s := s.put (R.RXG_SPARE_STAT g) F.RXG_SPARE_STAT_MISMATCH (min n 65535)
    if n ≤ 4 then (s.setPhase g 4).setCtl g 7 (8 * 16 + s.spareOf g) else (s.spareEnd g 7).sparingFailed g

/-- The last marker of a transmit group was SWITCH with countdown 0 for a lane. -/
def switchSent (s : State) (g lane : Nat) : Bool := decide (SMap.get (fun _ => 0) s.link.markers g = 7 * 4096 + lane)

/-- The SWITCH countdown has reached 0: the spare takes the failing lane's place from the next frame on. For a receive lane that is
after the stack's own marker with countdown 0, and the spare's receiver goes on as the lane's; for a transmit lane the host's
marker names the lane, with countdown 0. -/
def switchDone (s : State) (d : Dir) (g arg : Nat) : State :=
  match d with
  | .rx =>
    let l := s.spareOf g
    if s.sparePhase g = 4 && s.switchSent g l then
      let sp := 10 * g + s.spareLane .rx g
      let s := s.updLink fun x => { x with
        descr := SMap.set (fun _ => 0) sp (SMap.get (fun _ => 0) x.descr (10 * g + l)) x.descr
        rxLast := SMap.set (fun _ => 0) sp (SMap.get (fun _ => 0) x.rxLast (10 * g + l)) x.rxLast }
      (((s.spareSwitch .rx g l).refLost g l).setPhase g 5).setCtl g 8 l
    else s
  | .tx =>
    match SMap.get (fun _ => none) s.link.shadowTx g with
    | some x =>
      if x.switched || decide (arg ≠ x.lane) then s
      else ((s.spareSwitch .tx g x.lane).updLink fun l => { l with
        shadowTx := SMap.set (fun _ => none) g (some { x with switched := true }) l.shadowTx }).setAck g 0 0
    | none => s

/-- RELEASE has run its 64 marker periods. After a switch the failing lane enters electrical idle and is retired, which raises the
lane-spared event for a receive lane; after a failed sparing the spare does, and stays the spare (R47, R53, R54). -/
def releaseDone (s : State) (d : Dir) (g : Nat) : State :=
  match d with
  | .rx =>
    if s.sparePhase g = 5 then ((s.spareTaken g).setCtl g 0 0).sparingWidth .rx
    else if s.sparePhase g = 7 then s.setCtl g 0 0
    else s
  | .tx =>
    match SMap.get (fun _ => none) s.link.shadowTx g with
    | some x =>
      let l := if x.switched then x.lane else s.spareLane .tx g
      let s := (s.quiet g l).emit g l (markerSyms true g l (9 * 4096))
      let s := s.txTaken g
      (((s.updLink fun l => { l with shadowTx := SMap.set (fun _ => none) g none l.shadowTx }).flag (R.TXG_GRP_STAT g)
        F.TXG_GRP_STAT_SHADOW false).setAck g 0 0).sparingWidth .tx
    | none => s

/-! ### Markers in ACTIVE (R32 to R34) -/

/-- One marker of a receive lane in ACTIVE: the third good one in a row locks, the second bad or missing one in a row loses lock
(R32); a good one shows the lane's identity (R33). -/
def laneMarker (s : State) (g l : Nat) (got : Option (Int × BitVec 32)) : State :=
  let key := 10 * g + l
  let good := match got with
    | some m => markerGood m.2 && decide (-1 ≤ m.1 ∧ m.1 ≤ 1)
    | none => false
  let ng := if good then SMap.get (fun _ => 0) s.link.markGood key + 1 else 0
  let nb := if good then 0 else SMap.get (fun _ => 0) s.link.markBad key + 1
  let s := s.updLink fun x => { x with
    markGood := SMap.set (fun _ => 0) key (min 3 ng) x.markGood
    markBad := SMap.set (fun _ => 0) key (min 2 nb) x.markBad
    rxLast := SMap.set (fun _ => 0) key 0 x.rxLast }
  let s := match got with
    | some m => if good && decide (markerField m.2 / 4096 < 13) then
        s.put (R.RXG_RXL_STAT g l) F.RXG_RXL_STAT_LANE_ID (markerId m.2)
      else s
    | none => s
  if 3 ≤ ng then
    let s := s.laneLocked g l
    s.flag (R.RXG_GRP_STAT g) F.RXG_GRP_STAT_MARKER_LOCK
      ((s.dataLanes .rx g).all fun i => s.on (R.RXG_RXL_STAT g i) F.RXG_RXL_STAT_MARK_LOCK)
  else if 2 ≤ nb then s.markerLost g l
  else s

/-- What a group's control field asks of the stack in ACTIVE (R34): SHADOW_REQ, SHADOW_ACK, a SWITCH that has counted down, EIDLE. -/
def fieldSeen (s : State) (g c : Nat) : State :=
  let arg := c % 4096
  if c / 4096 = 5 then s.shadowReq g (arg % 16)
  else if c / 4096 = 6 then s.shadowAck g (arg % 16)
  else if c / 4096 = 7 ∧ arg / 16 = 0 then s.switchDone .tx g (arg % 16)
  else if c / 4096 = 9 then s.eidleSeen g
  else s

/-- The marker that a lane took: the one listed, or the expected one, good and on time, with NORMAL, the spare and the width
step (R34). -/
def markerIn (s : State) (marks : List MarkIn) (g l : Nat) : Option (Int × BitVec 32) :=
  match marks.find? fun m => decide (m.g.val = g ∧ m.l.val = l) with
  | some m => m.got
  | none => some (0, markerWord false g l (s.spareLane .rx g + 16 * s.curStep .rx))

/-- The lanes of an active receive group that take markers: its data lanes and a spare that receives a shadow copy. -/
def markedLanes (s : State) (g : Nat) : List Nat :=
  lanesOfGroup.filter fun l => (s.dataLanes .rx g).contains l || s.on (R.RXG_RXL_STAT g l) F.RXG_RXL_STAT_SHADOW

/-- The control field of a receive group: the value on most of its lanes with a good check, reserved codes left out (R34). -/
def groupField (s : State) (marks : List MarkIn) (g : Nat) : Option Nat :=
  majority ((s.dataLanes .rx g).filterMap fun l =>
    match s.markerIn marks g l with
    | some m => if markerGood m.2 && decide (markerField m.2 / 4096 < 13) then some (markerField m.2) else none
    | none => none)

/-- The markers on the active receive groups at the end of a marker period. -/
def markersSeen (s : State) (marks : List MarkIn) : State :=
  let gs := s.activeGroups .rx
  let s := gs.foldl (fun t g => (t.markedLanes g).foldl (fun u l => u.laneMarker g l (s.markerIn marks g l)) t) s
  gs.foldl (fun t g =>
    if !t.linkActive then t
    else match s.groupField marks g with
      | some c => t.fieldSeen g c
      | none => t) s

/-- FLIT_RECEIVE: a flit arrives, after the markers when it is the first of a marker period (R70). -/
def flitIn (s : State) (sym : BitVec 1920) (marks : List MarkIn) : State :=
  if s.linkActive && !s.drogue && decide (s.link.rxFlit = 0 ∧ s.link.rxUi = 0) then (s.markersSeen marks).flitReceive sym
  else s.flitReceive sym

/-! ### The eye monitor (R38) -/

/-- A margin point's dwell ends. -/
def marginDone (s : State) (g l : Nat) (errors : Word) : State :=
  if s.link.margins.contains (10 * g + l) then
    ((s.wr (R.RXG_RXL_MARGIN_CNT g l) errors).flag (R.RXG_RXL_MARGIN g l) F.RXG_RXL_MARGIN_DONE true).updLink fun x =>
      { x with margins := x.margins.filter (· ≠ 10 * g + l) }
  else s

/-- The eye of a lane, every 100 ms in ACTIVE, and what adaptation moved on it since: the taps, and the CTLE where CTLE_TRACK is
set; nothing while the receivers of its group are frozen (R36 to R38, R47). -/
def eyeUpdate (s : State) (g l : Nat) (eye : BitVec 30) (a : Adapt) : State :=
  if !s.linkActive then s
  else
    let s := s.wr (R.RXG_RXL_EYE g l) (eye.setWidth 32)
    if s.link.frozen.contains g then s
    else s.takeAdapt g l a (s.on (R.RXG_GRP_CTL g) F.RXG_GRP_CTL_CTLE_TRACK) true

end State
end Sys2Proof.Machine
end

