-- ==== Sys2Proof/Machine/After.lean ====
section
/-! DEFINITION. What follows a command within the same moment: the sparing ladders and the health state, the internal
reference, link ready, slices that wait, and the reactions of the fault collector. Each command's meaning calls the one
that its effect can move. -/

namespace Sys2Proof.Machine
namespace State

/-- The events that the lanes have raised join the queue. No table gives their source number and their detail, which are free
(assumption 98). -/
def raiseLink (s : State) : State :=
  s.link.raised.foldl (fun t x =>
    { t with free := t.free + 1 }.queueEvent
      { nma := false, kind := 0, ts := t.ts, page := x.1, source := (Config.freeWord t.free).toNat % 256, merges := 0
        detail := (Config.freeLine t.free).extractLsb' 0 320 })
    { s with link := { s.link with raised := [] } }

/-- After a change of the link or of a clock. -/
def afterLink (s : State) : State := s.raiseLink.refCheck.lanesBack.linkReady.settle

/-- After a change of a controller's or an engine's place in service: a slice that can go on does. -/
def afterUnit (s : State) : State := s.sliceFence.sliceNext.settle

/-- After a delivery or a level change reached the fault collector: the performance monitor's freeze at an NMA record, the
block resets and the ladder steps that it asked for, and its CHIP_RESET reaction (R279, R281, R433). -/
def afterFault (old s : State) : State :=
  let s := if s.rd R.FCOL_NMAS = old.rd R.FCOL_NMAS then s else s.perfNma
  s.runResets.settle.faultReset

/-- After a request that can move a parcel or end a migration: what waited for that goes on. -/
def afterMove (old s : State) : State :=
  if s.place.mig = old.place.mig ∧ s.place.table = old.place.table then s else s.settle

/-- After a hint that changes an entry's flags: only a migration that it ended matters. -/
def afterFlags (old s : State) : State := if s.place.mig = old.place.mig then s else s.settle

/-- After a register write, by the page written. -/
def afterWrite (s : State) (pg : Nat) : State :=
  let f := firstOf pg
  if f = 0x00E ∨ f = 0x080 ∨ f = 0x088 then s.afterLink
  else if f = 0x003 then s.refCheck
  else if f = 0x100 ∨ f = 0x180 ∨ f = 0x008 then s.afterUnit
  else if f = 0x00C ∨ f = 0x00D ∨ f = 0x1D0 ∨ f = 0x140 ∨ f = 0x040 ∨ f = 0x002 then s.settle
  else s

/-- A write of a register by a path, with what follows. -/
def writeAt (s : State) (path : Path) (a be : Nat) (v : Word) : State :=
  ((s.busWrite path a be v).st).afterWrite (pageOf a)

/-- A whole-word write, with what follows. -/
def regCmd (s : State) (path : Path) (a : Nat) (v : Word) : State := s.writeAt path a 15 v

/-- A whole-word write of a command register with one of its action bits set, with what follows. -/
def regSet (s : State) (w : RegWrite) (a : Nat) (f : Fld) : State :=
  s.regCmd w.path a (f.set (2 ^ f.width - 1) w.value)

end State
end Sys2Proof.Machine
end

