-- ==== Sys2Proof/Machine/CfgReq.lean ====
section
/-! DEFINITION. In-band configuration access: CfgRd and CfgWr (R123 to R125). -/

namespace Sys2Proof.Machine
namespace State

/-- In-band configuration access is open to a master (R124). -/
def cfgOpen (s : State) (m : Nat) : Bool :=
  s.on R.XACT_XACT_CTL F.XACT_XACT_CTL_CFG_EN
    && (if m < 32 then s.rd R.XACT_CFG_MID_EN_LO else s.rd R.XACT_CFG_MID_EN_HI).getLsbD (m % 32)

/-- Read dwords in ascending order: the state, the values and the error bits. -/
def cfgReads (s : State) (a : Nat) : Nat → State × List Word × Nat
  | 0 => (s, [], 0)
  | n + 1 =>
    let r := cfgReads s a n
    let x := r.1.busRead .inband (a + 4 * n)
    (x.st, r.2.1 ++ [x.val], if x.ok then r.2.2 else r.2.2 + 2 ^ n)

/-- Write dwords in ascending order: the state and the error bits. -/
def cfgWrites (s : State) (a : Nat) (v : Nat → Word) : Nat → State × Nat
  | 0 => (s, 0)
  | n + 1 =>
    let r := cfgWrites s a v n
    let x := r.1.busWrite .inband (a + 4 * n) 15 (v n)
    (x.st.afterWrite (pageOf a), if x.ok then r.2 else r.2 + 2 ^ n)

/-- The 64 data bytes of a CfgRsp: dword i in bytes 4i to 4i + 3, little-endian, the rest 0. -/
def cfgSlots (l : List Word) : List Slot := bytesSlots 4 (l.map fun w => bytesLE 4 w.toNat).flatten

/-- Dword i of a CfgWr's data. -/
def cfgDwords (data : List Slot) (i : Nat) : Word := BitVec.ofNat 32 (natLE ((slotBytes data).drop (4 * i) |>.take 4))

/-- A refused configuration access (R124): all ones for a CfgRd; the CfgRsp of a CfgWr has zeros for data (DESIGN CHOICE,
assumption 114). -/
def cfgDenied (s : State) (r : Req) : State :=
  let n := hArg r.header + 1
  let pay := if hOpc r.header = 8 then cfgSlots (List.replicate n 0xFFFFFFFF) else []
  (s.inc R.XACT_CFG_DENIED).answer r 8 (2 ^ n - 1) pay

/-- CFG_RD or CFG_WR: the dwords are performed, and an error of one makes the status CFG_ERR (R123). -/
def cfgReq (s : State) (opc tag : Nat) : State :=
  match s.readyReq tag fun h => decide (hOpc h = opc) with
  | none => s
  | some r =>
    let n := hArg r.header + 1
    if r.status ≠ 0 then s.answer r r.status r.rinfo []
    else if !s.cfgOpen (hMid r.header) then s.cfgDenied r
    else if opc = 8 then
      let x := s.cfgReads (hAddr r.header) n
      x.1.answer r (if x.2.2 = 0 then 0 else 8) x.2.2 (cfgSlots x.2.1)
    else
      let x := s.cfgWrites (hAddr r.header) (cfgDwords r.data) n
      x.1.answer r (if x.2 = 0 then 0 else 8) x.2 []

end State
end Sys2Proof.Machine
end

