-- ==== Sys2Proof/Machine/ExecPower.lean ====
section
/-! DEFINITION. Meanings of the power, reset, boot, clock and gating commands (R340 to R364, R401, R409, R454). -/

namespace Sys2Proof.Machine

abbrev Out := Host.Outcome State Fault Refusal

/-- The present word of a page's PG_CTL; its command bit reads 0 (R409). -/
def State.pgWord (s : State) (page : BitVec 10) : Word := F.PG_CTL_BLOCK_RESET.set 0 (s.cur (State.pgCtl page.toNat))

/-- VAUX_POWER_ON (R358). -/
def execVauxPowerOn (s : State) : Out := .next s.powerOn

/-- VAUX_DROP (R454). -/
def execVauxDrop (s : State) : Out := .next s.powerDrop

/-- RAIL_OUT_OF_WINDOW (R338, R454): the rail's voltage is shown and OUT is set. -/
def execRailOutOfWindow (rail : Fin 7) (mv : BitVec 12) (s : State) : Out :=
  .next (if s.inReset then s
    else (s.put (R.PWR_RAIL_MON rail.val) F.PWR_RAIL_MON_MV mv.toNat).flag (R.PWR_RAIL_MON rail.val) F.PWR_RAIL_MON_OUT true)

/-- RESET_N_ASSERT (R357, R358). -/
def execResetNAssert (s : State) : Out := .next s.resetAssert

/-- RESET_N_DEASSERT (R357). -/
def execResetNDeassert (s : State) : Out := .next s.resetDeassert

/-- PERST_N_ASSERT (R359). -/
def execPerstNAssert (s : State) : Out := .next (({ s with clk := { s.clk with perstN := true } } : State).endpointReset)

/-- PERST_N_DEASSERT (R362). -/
def execPerstNDeassert (s : State) : Out := .next (({ s with clk := { s.clk with perstN := false } } : State).pcieClock)

/-- RST_CMD_ORDERLY (R358): a write of RST_CMD with ORDERLY and a key. -/
def execRstCmdOrderly (path : Path) (key : BitVec 16) (s : State) : Out :=
  .next (s.regCmd path R.CLK_RST_CMD (key ++ (1 : BitVec 16)))

/-- RST_CMD_IMMEDIATE (R358): a write of RST_CMD with IMMEDIATE and a key. -/
def execRstCmdImmediate (path : Path) (key : BitVec 16) (s : State) : Out :=
  .next (s.regCmd path R.CLK_RST_CMD (key ++ (2 : BitVec 16)))

/-- ORDERLY_RESET_DONE (R163). -/
def execOrderlyResetDone (m : LookupIn) (s : State) : Out := .next (s.orderlyDone m)

/-- ORDERLY_RESET_TIMEOUT (R358). -/
def execOrderlyResetTimeout (s : State) : Out := .next s.orderlyTimeout

/-- BOOT_STEP_COMPLETE (R361). -/
def execBootStepComplete (b : BootIn) (s : State) : Out := .next (s.bootStepComplete b).settle

/-- BOOT_RAIL_WAIT_EXPIRY (R452). -/
def execBootRailWaitExpiry (s : State) : Out := .next s.railWaitExpiry

/-- XO_WAIT_EXPIRY (R363). -/
def execXoWaitExpiry (s : State) : Out := .next s.xoWait

/-- XO_JUDGE_WINDOW_END (R345). -/
def execXoJudgeWindowEnd (count : BitVec 16) (s : State) : Out := .next (s.xoJudgeWindow count.toNat)

/-- CLOCK_MONITOR_WINDOW_END (R346). -/
def execClockMonitorWindowEnd (clk : MonClock) (count : BitVec 16) (s : State) : Out :=
  .next (s.monitorWindow clk count.toNat)

/-- XO_AMP_REENABLE (R347). -/
def execXoAmpReenable (s : State) : Out := .next s.ampEnable

/-- DROGUE_TIMEOUT (R352). -/
def execDrogueTimeout (s : State) : Out := .next s.drogueTimeout

/-- REF_PCIE_SET (R352, R353): a write of CLK_CTL with REF_PCIE set. -/
def execRefPcieSet (w : RegWrite) (s : State) : Out := .next (s.regSet w R.CLK_CLK_CTL F.CLK_CLK_CTL_REF_PCIE)

/-- PLL_UNLOCK (R364). -/
def execPllUnlock (pll : Pll) (s : State) : Out := .next (s.pllUnlock pll)

/-- REGBUS_DIV_WRITE (R354): a write of CLK_CTL; the ratio takes effect after it. -/
def execRegbusDivWrite (w : RegWrite) (s : State) : Out := .next (s.regCmd w.path R.CLK_CLK_CTL w.value)

/-- FMC_START (R344). -/
def execFmcStart (w : RegWrite) (s : State) : Out := .next (s.regSet w R.CLK_FMC_CTL F.CLK_FMC_CTL_START)

/-- FMC_DONE (R344). -/
def execFmcDone (count : BitVec 31) (s : State) : Out := .next (s.fmcDone count.toNat)

/-- TOSC_TRACK (R401). -/
def execToscTrack (count : BitVec 23) (s : State) : Out := .next (s.toscTrack count.toNat)

/-- GATE_REQUEST (R355): a write of PG_CTL with GATE_REQ set over its present value; `busy` tells whether the block's
register-bus interface is busy then. A hardware request takes the same way. -/
def execGateRequest (path : Path) (page : BitVec 10) (busy : Bool) (s : State) : Out :=
  let pg := page.toNat
  let a := State.pgCtl pg
  let old := s.pgWord page
  .next (if busy && s.busUp path && (pageRow pg).isSome then
      (s.wrPgCtl path pg old (F.PG_CTL_GATE_REQ.set 1 old) 0 true).afterWrite pg
    else s.regCmd path a (F.PG_CTL_GATE_REQ.set 1 old))

/-- GATE_DENIED (R355). -/
def execGateDenied (page : BitVec 10) (s : State) : Out := .next (s.gateDenied page.toNat)

/-- GATE_OPEN (R356): a write of PG_CTL with GATE_REQ clear over its present value. -/
def execGateOpen (path : Path) (page : BitVec 10) (s : State) : Out :=
  let a := State.pgCtl page.toNat
  .next (s.regCmd path a (F.PG_CTL_GATE_REQ.set 0 (s.pgWord page)))

/-- BLOCK_RESET (R9): a write of PG_CTL with BLOCK_RESET set over its present value. -/
def execBlockReset (path : Path) (page : BitVec 10) (s : State) : Out :=
  let a := State.pgCtl page.toNat
  .next (s.regCmd path a (F.PG_CTL_BLOCK_RESET.set 1 (s.pgWord page)))

/-- PG_ENABLE_WRITE (R409): a write of PG_CTL with a value of ENABLE over its present value. -/
def execPgEnableWrite (path : Path) (page : BitVec 10) (en : Bool) (s : State) : Out :=
  let a := State.pgCtl page.toNat
  .next (s.regCmd path a (F.PG_CTL_ENABLE.set en.toNat (s.pgWord page)))

end Sys2Proof.Machine
end

