-- ==== Sys2Proof/Machine/ExecLane.lean ====
section
/-! DEFINITION. Meanings of the training, marker, parking, sparing, injection and eye-monitor commands (R29 to R58). -/

namespace Sys2Proof.Machine

/-- TRAINING_START (R44). -/
def execTrainingStart (s : State) : Out := .next s.trainingStart.afterLink

/-- TRAINING_STATE_DONE (R44). -/
def execTrainingStateDone (t : TrainIn) (s : State) : Out := .next (s.trainingStateDone t).afterLink

/-- TRAINING_TIMEOUT (R44). -/
def execTrainingTimeout (t : TrainIn) (s : State) : Out := .next (s.trainingTimedOut t).afterLink

/-- MARKER_LOCK_LOST (R32). -/
def execMarkerLockLost (g : Fin 8) (l : Fin 10) (s : State) : Out := .next (s.markerLost g.val l.val).afterLink

/-- REF_LANE_HOLDOVER_END (R40). -/
def execRefLaneHoldoverEnd (s : State) : Out := .next s.holdoverEnds.afterLink

/-- EQ_REQ (R35). -/
def execEqReq (g : Fin 8) (arg : BitVec 12) (s : State) : Out := .next (s.eqRequest g.val arg.toNat)

/-- EQ_ACK (R35). -/
def execEqAck (g : Fin 8) (arg : BitVec 12) (s : State) : Out := .next (s.eqAckSeen g.val arg.toNat)

/-- PARAM (R29). -/
def execParam (g : Fin 8) (arg : BitVec 12) (s : State) : Out := .next (s.paramSeen g.val arg.toNat)

/-- TRAIN (R44). -/
def execTrain (g : Fin 8) (arg : BitVec 12) (s : State) : Out := .next (s.eqCalibrated (s.trainSeen g.val arg.toNat))

/-- EIDLE (R47). -/
def execEidle (g : Fin 8) (s : State) : Out := .next (s.eidleSeen g.val)

/-- EXIT (R49). -/
def execExit (g : Fin 8) (block : BitVec 2) (s : State) : Out := .next (s.exitSeen g.val block.toNat)

/-- GROUP_READY (R49). -/
def execGroupReady (d : Dir) (g : Fin 8) (skew : BitVec 8) (line : List (Fin 10 × BitVec 58)) (s : State) : Out :=
  .next (s.groupReady d g.val skew line).afterLink

/-- PAD_FRAME_INSERT (R42). -/
def execPadFrameInsert (s : State) : Out := .next s.padInsert

/-- PAD (R42): a received pad frame is discarded before framing and changes nothing. -/
def execPad (s : State) : Out := .next s

/-- KEEPALIVE_SEND (R50). -/
def execKeepaliveSend (g : Fin 8) (s : State) : Out := .next (s.keepaliveSend g.val)

/-- KEEPALIVE (R50). -/
def execKeepalive (g : Fin 8) (adapt : List (Fin 10 × Adapt)) (s : State) : Out := .next (s.keepaliveSeen g.val adapt)

/-- KEEPALIVE_MISSED (R50). -/
def execKeepaliveMissed (g : Fin 8) (s : State) : Out := .next (s.keepaliveMissed g.val).afterLink

/-- SPARE_CMD_START (R53): a write of SPARE_CMD with START and the lane. -/
def execSpareCmdStart (path : Path) (g : Fin 8) (lane : BitVec 4) (s : State) : Out :=
  .next (s.regCmd path (R.RXG_SPARE_CMD g.val) (F.RXG_SPARE_CMD_LANE.set lane.toNat 1))

/-- SPARE_CMD_ABORT (R55): a write of SPARE_CMD with ABORT. -/
def execSpareCmdAbort (path : Path) (g : Fin 8) (s : State) : Out :=
  .next (s.regCmd path (R.RXG_SPARE_CMD g.val) (F.RXG_SPARE_CMD_ABORT.set 1 0))

/-- SHADOW_REQ (R53). -/
def execShadowReq (g : Fin 8) (lane : BitVec 4) (s : State) : Out := .next (s.shadowReq g.val lane.toNat)

/-- SHADOW_ACK (R53). -/
def execShadowAck (g : Fin 8) (lane : BitVec 4) (s : State) : Out := .next (s.shadowAck g.val lane.toNat)

/-- SPARING_ACK_TIMEOUT (R53). -/
def execSparingAckTimeout (g : Fin 8) (s : State) : Out := .next (s.ackMissing g.val).afterLink

/-- SPARING_ADAPT_DONE (R53). -/
def execSparingAdaptDone (g : Fin 8) (s : State) : Out := .next (s.adaptDone g.val)

/-- SPARING_ADAPT_TIMEOUT (R54). -/
def execSparingAdaptTimeout (g : Fin 8) (s : State) : Out := .next (s.adaptTimeout g.val).afterLink

/-- SPARING_COMPARE_DONE (R53). -/
def execSparingCompareDone (g : Fin 8) (mismatches : BitVec 16) (s : State) : Out :=
  .next (s.compareDone g.val mismatches.toNat).afterLink

/-- SWITCH (R53). -/
def execSwitch (d : Dir) (g : Fin 8) (arg : BitVec 12) (s : State) : Out := .next (s.switchDone d g.val arg.toNat)

/-- RELEASE (R53). -/
def execRelease (d : Dir) (g : Fin 8) (s : State) : Out := .next (s.releaseDone d g.val).afterLink

/-- INJ_ONE (R58): a write of TXL_INJ with INJ_ONE. -/
def execInjOne (path : Path) (g : Fin 8) (l : Fin 10) (s : State) : Out :=
  .next (s.regCmd path (R.TXG_TXL_INJ g.val l.val) 1)

/-- INJ_BURST (R58): a write of TXL_INJ with INJ_BURST and the length. -/
def execInjBurst (path : Path) (g : Fin 8) (l : Fin 10) (len : BitVec 6) (s : State) : Out :=
  .next (s.regCmd path (R.TXG_TXL_INJ g.val l.val) (F.TXG_TXL_INJ_BURST_LEN.set len.toNat 2))

/-- MARGIN_START (R38). -/
def execMarginStart (g : Fin 8) (l : Fin 10) (w : RegWrite) (s : State) : Out :=
  .next (s.regSet w (R.RXG_RXL_MARGIN g.val l.val) F.RXG_RXL_MARGIN_START)

/-- MARGIN_DONE (R38). -/
def execMarginDone (g : Fin 8) (l : Fin 10) (errors : Word) (s : State) : Out := .next (s.marginDone g.val l.val errors)

/-- EYE_UPDATE (R38). -/
def execEyeUpdate (g : Fin 8) (l : Fin 10) (eye : BitVec 30) (a : Adapt) (s : State) : Out :=
  .next (s.eyeUpdate g.val l.val eye a)

end Sys2Proof.Machine
end

