-- ==== Sys2Proof/Machine/ExecLink.lean ====
section
/-! DEFINITION. Meanings of the frame, flit, replay and link-control commands (R66, R79, R80, R91, R95 to R97). -/

namespace Sys2Proof.Machine
namespace State

/-- The hold timer of a replay start ends (R80). -/
def holdExpires (s : State) : State := s.updLink fun l => { l with hold := none }

/-- 10 µs in STALL: RECOVER is requested (R80). -/
def stallExpires (s : State) : State := if s.txState = 2 then s.enterRecover else s

end State

/-- FRAME_TRANSMIT (R66). -/
def execFrameTransmit (test : List (Fin 8 × Fin 10 × List (BitVec 2))) (s : State) : Out :=
  .next (s.frameTransmit test).afterLink

/-- FLIT_RECEIVE (R79). -/
def execFlitReceive (flit : BitVec 1920) (marks : List MarkIn) (s : State) : Out := .next (s.flitIn flit marks).afterLink

/-- ACK_TIMEOUT (R80). -/
def execAckTimeout (s : State) : Out := .next s.ackTimeout.afterLink

/-- REPLAY_HOLD_EXPIRY (R80). -/
def execReplayHoldExpiry (s : State) : Out := .next (s.clocked fun s => s.holdExpires)

/-- STALL_TIMEOUT (R80). -/
def execStallTimeout (s : State) : Out := .next (s.clocked fun s => s.stallExpires.afterLink)

/-- RETRAIN (R97). -/
def execRetrain (w : RegWrite) (s : State) : Out := .next (s.regSet w R.LINK_LL_CTL F.LINK_LL_CTL_RETRAIN)

/-- RECOVER (R97). -/
def execRecover (w : RegWrite) (s : State) : Out := .next (s.regSet w R.LINK_LL_CTL F.LINK_LL_CTL_RECOVER)

/-- LL_RESET (R96). -/
def execLlReset (w : RegWrite) (s : State) : Out := .next (s.regSet w R.LINK_LL_CTL F.LINK_LL_CTL_LL_RESET)

/-- WIDTH_AUTO_WINDOW (R91). -/
def execWidthAutoWindow (d : Dir) (s : State) : Out := .next (s.clocked fun s => (s.autoWindow d).afterLink)

/-- WIDTH_CTL_WRITE (R97). -/
def execWidthCtlWrite (w : RegWrite) (s : State) : Out := .next (s.regCmd w.path R.LINK_WIDTH_CTL w.value)

/-- TEST_MODE_WRITE (R63): a write of TXG[g].GRP_CTL. -/
def execTestModeWrite (g : Fin 8) (w : RegWrite) (s : State) : Out := .next (s.regCmd w.path (R.TXG_GRP_CTL g.val) w.value)

/-- LOCAL_TIMING_WRITE (R41): a write of TXG[0].GRP_CTL. -/
def execLocalTimingWrite (w : RegWrite) (s : State) : Out := .next (s.regCmd w.path (R.TXG_GRP_CTL 0) w.value)

/-- CDR_LOCK_LOSS (R40). -/
def execCdrLockLoss (g : Fin 8) (l : Fin 10) (s : State) : Out := .next (s.cdrLost g.val l.val).afterLink

end Sys2Proof.Machine
end

