-- ==== Sys2Proof/Machine/ExecXact.lean ====
section
/-! DEFINITION. Meanings of the transaction commands: admission, the requests of R100, responses and events. -/

namespace Sys2Proof.Machine

/-- BAD_HEADER (R102). -/
def execBadHeader (tc : BitVec 3) (s : State) : Out := .next (s.badHeader tc.toNat)

/-- REQUEST_ADMIT (R254). -/
def execRequestAdmit (tc : BitVec 3) (m : LookupIn) (s : State) : Out :=
  .next (s.afterMove (s.requestAdmit tc.toNat m State.workParcels State.workStatus))

/-- RD_REQ (R109). -/
def execRdReq (tag : BitVec 12) (m : LookupIn) (s : State) : Out := .next (s.afterMove (s.rdReq tag.toNat m))

/-- WR_REQ (R110). -/
def execWrReq (tag : BitVec 12) (m : LookupIn) (s : State) : Out := .next (s.afterMove (s.wrReq 2 tag.toNat m))

/-- WR_REQ_POISON (R106). -/
def execWrReqPoison (tag : BitVec 12) (m : LookupIn) (s : State) : Out := .next (s.afterMove (s.wrReq 3 tag.toNat m))

/-- ATOM_REQ (R112). -/
def execAtomReq (tag : BitVec 12) (m : LookupIn) (s : State) : Out := .next (s.afterMove (s.atomReq tag.toNat m))

/-- FENCE_REQ (R119). -/
def execFenceReq (tag : BitVec 12) (s : State) : Out := .next (s.fenceReq tag.toNat)

/-- FENCE_PERFORMED (R119). -/
def execFencePerformed (tag : BitVec 12) (s : State) : Out := .next (s.fencePerformed tag.toNat)

/-- The HCODE values that a hint command serves: its own, and the reserved ones, which are answered MALFORMED (R122). -/
def hintCode (k c : Nat) : Bool := decide (c = k ∨ 5 < c)

/-- HINT_PIN (R150). -/
def execHintPin (tag : BitVec 12) (m : LookupIn) (s : State) : Out :=
  .next (s.afterFlags (s.hintReq tag.toNat m (hintCode 0)))

/-- HINT_UNPIN (R150). -/
def execHintUnpin (tag : BitVec 12) (m : LookupIn) (s : State) : Out :=
  .next (s.afterFlags (s.hintReq tag.toNat m (hintCode 1)))

/-- HINT_RELEASE (R150). -/
def execHintRelease (tag : BitVec 12) (m : LookupIn) (s : State) : Out :=
  .next (s.hintReq tag.toNat m (hintCode 2)).settle

/-- HINT_PREFETCH (R174). -/
def execHintPrefetch (tag : BitVec 12) (m : LookupIn) (s : State) : Out :=
  .next (s.afterFlags (s.hintReq tag.toNat m (hintCode 3)))

/-- HINT_NOCACHE (R150). -/
def execHintNocache (tag : BitVec 12) (m : LookupIn) (s : State) : Out :=
  .next (s.afterFlags (s.hintReq tag.toNat m (hintCode 4)))

/-- HINT_CACHE (R150). -/
def execHintCache (tag : BitVec 12) (m : LookupIn) (s : State) : Out :=
  .next (s.afterFlags (s.hintReq tag.toNat m (hintCode 5)))

/-- WORK_REQ (R238). -/
def execWorkReq (tag : BitVec 12) (m : LookupIn) (s : State) : Out :=
  .next (s.afterMove (s.workReq tag.toNat m))

/-- CFG_RD (R123). -/
def execCfgRd (tag : BitVec 12) (s : State) : Out := .next (s.cfgReq 8 tag.toNat)

/-- CFG_WR (R123). -/
def execCfgWr (tag : BitVec 12) (s : State) : Out := .next (s.cfgReq 9 tag.toNat)

/-- RESPONSE_SEND (R99). -/
def execResponseSend (tag : BitVec 12) (s : State) : Out := .next (s.responseSend tag.toNat)

/-- EVENT_SEND (R126). -/
def execEventSend (s : State) : Out := .next s.eventSend

end Sys2Proof.Machine
end

