-- ==== Sys2Proof/Machine/Drain.lean ====
section
/-! DEFINITION. The write data buffer's way out: WRITE_DRAIN (R16, R171), the cache's background work (R173 to R175), and
the hold of a bank under row repair (R207). -/

namespace Sys2Proof.Machine
namespace State

/-- Take a line out of the write data buffer. -/
def wdbTake (s : State) (li : Nat) : State := { s with wdb := s.wdb.filter fun e => decide (e.li ≠ li) }

/-- A drained line goes to the write queue of its frame's controller; without room, or with no way to the
pseudo-channel, it stays in the buffer. -/
def drainToDram (s : State) (li : Nat) (l : Line) : State :=
  let f := eFrame (s.entry (liParcel li))
  if !s.writeRoom f || s.spare.unreadable.contains (fPc f) then s else (s.wdbTake li).sendWrite f (liOff li) l

/-- A line that the scan of a bank has placed goes on to DRAM, within the share of background work (R178). -/
def drainScanned (s : State) (li : Nat) (l : Line) : State :=
  if !s.bgFits 64 then s
  else
    let t := s.drainToDram li l
    if (t.wdbLine li).isNone then t.chargeBg 64 else t

/-- The look-up of a drain that has left the buffer missed (R181). -/
def countDrain (s : State) (li : Nat) : State := if (s.wdbLine li).isNone then s.inc64 R.CACHE_MISSES_LO else s

/-- WRITE_DRAIN: a line leaves the write data buffer. Drains of a parcel whose migration is in Close, or whose entry is
being repaired, are held (R139, R146). -/
def writeDrain (s : State) (li : Nat) (m : LookupIn) : State :=
  match s.wdbLine li with
  | none => s
  | some l =>
    let s := s.lostEntries m [liParcel li]
    let w := s.entry (liParcel li)
    if !eHeld w || eState w = 2 || eState w = 5 then s
    else if !s.cacheOn then s.drainToDram li l
    else
      let s := s.tagLookups m [li]
      if s.wdbScanned li && (s.sectorWay (s.liQuad li) li).isNone then (s.drainScanned li l).countDrain li
      else
        let r := s.drainToCache m li l
        let miss := (s.cached li).isNone
        let t := (if r.2 then r.1.wdbTake li else r.1.drainToDram li l).closeChecks
        if miss then t.countDrain li else t

/-! ### The cache's background work, within its share of the epoch (R173 to R175, R181, R269) -/

/-- Write the dirty lines of a way back by `go` when the share has room for them. -/
def bgClean (s : State) (k : Nat) (go : State → Nat → State) : State :=
  let n := 64 * popcount4 (tDirty (s.tag k))
  if n = 0 then go s k
  else if !s.bgFits n then s
  else
    let t := go s k
    if tDirty (t.tag k) = 0 then t.chargeBg n else t

/-- The flush that runs goes through a quadrant: its dirty lines are written back, and its sectors invalidated unless they
stay (R181). It ends with the last quadrant. -/
def flushQuad (s : State) (m : LookupIn) (q : Nat) : State :=
  match s.cache.job with
  | none => s
  | some j =>
    let mine := fun (u : State) => u.validWays.filter fun k => keyQuad k == q
    let s := s.checkTags m fun p _ => p == q
    let s := (mine s).foldl (fun u k => u.bgClean k fun v k => if j = .flush then v.cleanWay m k else v.flushWay m k) s
    if (mine s).any fun k => tDirty (s.tag k) != 0 then s
    else
      let done := if s.cache.jobDone.contains q then s.cache.jobDone else q :: s.cache.jobDone
      let s := { s with cache := { s.cache with jobDone := done } }
      if ([0, 1, 2, 3] : List Nat).all s.cache.jobDone.contains then s.flushEnd else s

/-- Background write-back of one sector of a quadrant (R173): it runs from DIRTY_HIGH down to DIRTY_LOW, oldest sector
first. -/
def bgWriteback (s : State) (m : LookupIn) (q : Nat) : State :=
  let d := s.fld (R.CACHE_DIRTY_LINES q) F.CACHE_DIRTY_LINES_COUNT
  let hi := s.fld R.CACHE_DIRTY_CTL F.CACHE_DIRTY_CTL_DIRTY_HIGH * 1024
  let lo := min hi (s.fld R.CACHE_DIRTY_CTL F.CACHE_DIRTY_CTL_DIRTY_LOW * 1024)
  let run := decide (hi < d) || (SMap.get (fun _ => false) s.cache.bg q && decide (lo ≤ d ∧ 0 < d))
  let run := run && s.cacheOn && s.on R.CACHE_CACHE_CTL F.CACHE_CACHE_CTL_CLEAN_EN
  let s := { s with cache := { s.cache with bg := SMap.set (fun _ => false) q run s.cache.bg } }
  if run then
    match s.cache.order.find? fun k => keyQuad k == q && tDirty (s.tag k) != 0 && !s.frameHeld (s.wayFrame k) with
    | none => s
    | some k => s.bgClean k fun u k => u.cleanWay m k
  else s

/-- Background write-back of a quadrant until it falls below DIRTY_LOW, or has nothing left or no room in its share. -/
def bgDown (m : LookupIn) (q : Nat) : Nat → State → State
  | 0, s => s
  | n + 1, s =>
    let t := s.bgWriteback m q
    if SMap.get (fun _ => false) t.cache.bg q then bgDown m q n t else t

/-- Flush the oldest parcel that NOCACHE marked (R175). -/
def nocacheFlush (s : State) (m : LookupIn) : State :=
  match s.cache.flushQ with
  | [] => s
  | n :: r =>
    let out := { s with cache := { s.cache with flushQ := r } }
    if !eNocache (s.entry n) || !eHeld (s.live n) then out
    else
      let q := fQuad (eFrame (s.live n))
      let s := s.tagLookups m ((List.range 256).map fun i => 1024 * n + 4 * i)
      let s := (s.parcelWays q n).foldl (fun u k => u.bgClean k fun v k => v.flushWay m k) s
      if (s.parcelWays q n).isEmpty then { s with cache := { s.cache with flushQ := r } } else s

/-- The buffer has room for whatever sector an allocation may evict. -/
def prefetchRoom (s : State) (q li : Nat) : Bool := (s.sectorWay q li).isSome || s.bufferRoom 256

/-- Fill one sector that a PREFETCH asked for, with AGE 1 (R174); one that must wait stays at the head. -/
def prefetchOne (s : State) (m : LookupIn) : State :=
  match s.cache.prefetchQ with
  | [] => s
  | x :: r =>
    let out := { s with cache := { s.cache with prefetchQ := r } }
    let li := 4 * x
    let w := s.live (liParcel li)
    let q := s.liQuad li
    if !s.bgFits 256 then s
    else if !s.cacheOn || s.disabling || eNocache w || decide (2 < eState w) || !s.quadHasBank q || s.crossMove (liParcel li) then
      out
    else if s.fillWaits li none || !s.prefetchRoom q li then s
    else
        let s := out.tagLookups m [li]
        match s.sectorWay q li with
        | some v =>
          let k := wayKey q (cSet li) v
          if s.bankActive (wayBank q v) then (s.fillSector m k li (tAge (s.tag k)) none).chargeBg 256 else s
        | none =>
          match s.allocate m q li with
          | none => s
          | some (k, s) => ((s.fillSector m k li 1 none).inc R.CACHE_PREFETCHES).chargeBg 256

/-- BG_WRITEBACK: fills that wait go on, then the flush that runs and the quadrant's write-back, then the parcels that NOCACHE flushes and the oldest
PREFETCH fill, which share its bandwidth; PREFETCH fills stop in an epoch that began with a shortfall (R173 to R175). -/
def bgWork (s : State) (q : Nat) (m : LookupIn) : State :=
  let s := (s.runFills m).flushQuad m q
  let s := (bgDown m q (s.cache.order.length + 1) s).nocacheFlush m
  (if s.place.shortfall then s else s.prefetchOne m).closeChecks

/-- The requests to a bank, in their old order, with those that are not held as they now are. -/
def keepHeld (held : DReq → Bool) (old new : List DReq) : List DReq :=
  old.filterMap fun r => if held r then some r else new.find? fun x => DReq.at_ x r.f r.o && x.seq == r.seq

/-- DRAM_SCHEDULE while a row repair runs in the pseudo-channel: the requests to its bank are held (R207). -/
def scheduleHeld (s : State) (c p : Nat) (bad : Bool) : State :=
  match s.rowRep c with
  | none => s.dramSchedule c p bad
  | some r =>
    if r.p ≠ p then s.dramSchedule c p bad
    else
      let held := fun (x : DReq) => decide (x.sid = r.sid) && decide (x.bank = 16 * r.sid + r.bank)
      let old := s.pch (2 * c + p)
      let s := s.setPch (2 * c + p) { old with
        rq := old.rq.filter fun x => !held x, wq := old.wq.filter fun x => !held x
        corr := old.corr.filter fun x => !held x, scrub := old.scrub.filter fun x => !held x }
      let s := s.dramSchedule c p bad
      let new := s.pch (2 * c + p)
      s.setPch (2 * c + p) { new with
        rq := keepHeld held old.rq new.rq, wq := keepHeld held old.wq new.wq
        corr := old.corr.filter held ++ new.corr, scrub := old.scrub.filter held ++ new.scrub }

/-- DRAM_SCHEDULE: a clock of a pseudo-channel whose turn it is at its controller (R195, R306). -/
def schedule (s : State) (c p : Nat) (bad : Bool) : State := if s.sliceOpen c then s.scheduleHeld c p bad else s

end State
end Sys2Proof.Machine
end

