-- ==== Sys2Proof/Machine/ExecPlace.lean ====
section
/-! DEFINITION. Meanings of the placement commands: epochs, migration, zeroing, the deficit, the table and its
checkpoints (R138 to R166). -/

namespace Sys2Proof.Machine
namespace State

/-- Zeroing of a frame ends, unless a row repair holds it (R138, R207). A keel frame that waits takes the frame first
(R160). -/
def zeroEnd (s : State) (f : Nat) : State :=
  if s.repairHolds f then s
  else
    let s := s.zeroDone f
    if s.place.keelQ.isEmpty then s else s.keelRelocate

/-- A checkpoint is due by CKPT_S, which is not 0 (R162, R166). -/
def checkpointDue (s : State) : State :=
  if s.fld R.PLACE_JOURNAL_CTL F.PLACE_JOURNAL_CTL_CKPT_S = 0 then s else s.ckptStart

/-- The checkpoint that runs is complete (R162). -/
def checkpointEnd (s : State) : State := if s.place.ckptBusy then s.checkpoint else s

end State

/-- EPOCH_TICK (R143). -/
def execEpochTick (s : State) : Out := .next (s.clocked fun s => s.epochTick.settle)

/-- HEAT_DECAY (R141). -/
def execHeatDecay (s : State) : Out := .next (s.clocked fun s => s.heatDecay)

/-- MIGRATION_COPY_DONE (R146). -/
def execMigrationCopyDone (slot : Fin 64) (m : LookupIn) (s : State) : Out :=
  .next (s.clocked fun s => (s.copyDone slot.val m).closeChecks.settle)

/-- MIGRATION_RECOPY_PASS_DONE (R146). -/
def execMigrationRecopyPassDone (slot : Fin 64) (m : LookupIn) (s : State) : Out :=
  .next (s.clocked fun s => (s.recopyDone slot.val m).closeChecks.settle)

/-- MIGRATION_SWITCH (R146). -/
def execMigrationSwitch (slot : Fin 64) (m : LookupIn) (s : State) : Out :=
  .next (s.clocked fun s => (s.migSwitch slot.val m).closeChecks.settle)

/-- MIGRATION_CLOSE_TIMEOUT (R149). -/
def execMigrationCloseTimeout (slot : Fin 64) (ns : BitVec 16) (s : State) : Out :=
  .next (s.clocked fun s => (s.closeTimeout slot.val ns.toNat).settle)

/-- FRAME_ZERO_START (R138). -/
def execFrameZeroStart (s : State) : Out := .next (s.clocked fun s => s.zeroStart)

/-- FRAME_ZERO_DONE (R138). -/
def execFrameZeroDone (frame : BitVec 21) (s : State) : Out := .next (s.clocked fun s => (s.zeroEnd frame.toNat).settle)

/-- TABLE_REPAIR_DONE (R139). -/
def execTableRepairDone (parcel : BitVec 21) (failA failB : Bool) (s : State) : Out :=
  .next (s.clocked fun s => (s.repairDone parcel.toNat failA failB).settle)

/-- DEFICIT_GRACE_EXPIRY (R158). -/
def execDeficitGraceExpiry (s : State) : Out := .next (s.clocked fun s => s.graceExpiry.settle)

/-- AUTO_WDR_SET (R158): a write of WDR_CTL with AUTO_WDR set. -/
def execAutoWdrSet (w : RegWrite) (s : State) : Out := .next (s.regSet w R.PLACE_WDR_CTL F.PLACE_WDR_CTL_AUTO_WDR)

/-- SPARE_RES_WRITE (R166): a write of SPARE_RES, or of PIN_LIMIT. -/
def execSpareResWrite (pinLimit : Bool) (w : RegWrite) (s : State) : Out :=
  .next (s.regCmd w.path (if pinLimit then R.PLACE_PIN_LIMIT else R.PLACE_SPARE_RES) w.value)

/-- WDR_CMD_REINSTATE (R159). -/
def execWdrCmdReinstate (w : RegWrite) (s : State) : Out :=
  .next (s.regSet w R.PLACE_WDR_CMD F.PLACE_WDR_CMD_REINSTATE)

/-- LOC_QUERY (R166). -/
def execLocQuery (w : RegWrite) (s : State) : Out := .next (s.regCmd w.path R.PLACE_LOC_QUERY w.value)

/-- WDR_FIND (R166). -/
def execWdrFind (w : RegWrite) (s : State) : Out := .next (s.regCmd w.path R.PLACE_WDR_FIND w.value)

/-- CKPT_NOW (R162). -/
def execCkptNow (w : RegWrite) (s : State) : Out := .next (s.regSet w R.PLACE_JOURNAL_CTL F.PLACE_JOURNAL_CTL_CKPT_NOW)

/-- CHECKPOINT_TIMER (R162). -/
def execCheckpointTimer (s : State) : Out := .next (s.clocked fun s => s.checkpointDue)

/-- CHECKPOINT_DONE (R162). -/
def execCheckpointDone (s : State) : Out := .next (s.clocked fun s => s.checkpointEnd)

/-- KEEL_REBUILD_DONE (R162). -/
def execKeelRebuildDone (mirrorB : Bool) (s : State) : Out := .next (s.clocked fun s => (s.keelRebuilt mirrorB).settle)

end Sys2Proof.Machine
end

