-- ==== Sys2Proof/Machine/ExecCache.lean ====
section
/-! DEFINITION. Meanings of the write data buffer's and the cache die's commands (R171 to R181). -/

namespace Sys2Proof.Machine

/-- WRITE_DRAIN (R171). -/
def execWriteDrain (line : BitVec 31) (m : LookupIn) (s : State) : Out :=
  .next (s.clocked fun s => s.afterMove (s.writeDrain line.toNat m))

/-- BG_WRITEBACK (R173). -/
def execBgWriteback (q : Fin 4) (m : LookupIn) (s : State) : Out := .next (s.clocked fun s => s.afterMove (s.bgWork q.val m))

/-- FLUSH (R181). -/
def execFlush (w : RegWrite) (s : State) : Out := .next (s.regSet w R.CACHE_CACHE_CTL F.CACHE_CACHE_CTL_FLUSH)

/-- INVALIDATE (R181). -/
def execInvalidate (w : RegWrite) (s : State) : Out := .next (s.regSet w R.CACHE_CACHE_CTL F.CACHE_CACHE_CTL_INVALIDATE)

/-- CACHE_ENABLE_WRITE (R180): a write of CACHE_CTL. -/
def execCacheEnableWrite (w : RegWrite) (s : State) : Out := .next (s.regCmd w.path R.CACHE_CACHE_CTL w.value)

/-- BANK_CMD_RETIRE (R178): a write of BANK_CMD with RETIRE and the bank. -/
def execBankCmdRetire (path : Path) (bank : Fin 16) (s : State) : Out :=
  .next (s.regCmd path R.CDIE_BANK_CMD (F.CDIE_BANK_CMD_BANK.set bank.val (F.CDIE_BANK_CMD_RETIRE.set 1 0)))

/-- BANK_SCAN_DONE (R178). -/
def execBankScanDone (bank : Fin 16) (m : LookupIn) (s : State) : Out :=
  .next (s.clocked fun s => (s.bankRetired m bank.val).closeChecks.settle)

/-- CACHE_BANK_TIMEOUT (R179). -/
def execCacheBankTimeout (bank : Fin 16) (a : CacheAccess) (line : BitVec 31) (again : Bool) (s : State) : Out :=
  .next (s.clocked fun s => s.afterMove (s.bankTimeout bank.val a line.toNat again).closeChecks)

/-- CACHE_DIE_NOT_RESPONDING (R179): RESPONDING clears, which the fault collector and the health state see, then the die's
dirty lines are lost and it retires. -/
def execCacheDieNotResponding (s : State) : Out :=
  if s.dieStill then .next ((s.dieSilent.levelChange 0x1D0 1).settle.dieDead).closeChecks.settle else .next s

end Sys2Proof.Machine
end

