-- ==== Sys2Proof/Machine/ExecDram.lean ====
section
/-! DEFINITION. Meanings of the commands of the DRAM controllers, their physical interfaces and the scrub engine (R182 to
R224). -/

namespace Sys2Proof.Machine
namespace State

/-- After a scheduler's clock: a remap that was applied lets the next one of its channel start, or fail for want of a spare
(R206), a retirement that waits for queued requests may go on (R193), and a row whose retest failed takes its step (R290). -/
def afterClock (old s : State) (c : Nat) : State :=
  let t := if s.remapOf c = old.remapOf c then s else (s.remapNext c).remapFailed c
  if s.remapOf c = old.remapOf c ∧ s.place.retiring.isEmpty ∧ s.fcol.handed.isEmpty then t else t.settle

/-- A correction write-back is issued by a clock of its controller in which nothing of a higher rank can be (R189, R223). -/
def correctionClock (s : State) (c p : Nat) : State :=
  if (s.pch (2 * c + p)).corr.isEmpty then s else s.schedule c p false

end State

/-- DRAM_SCHEDULE (R195). -/
def execDramSchedule (c : Fin 32) (pch trackerBad : Bool) (s : State) : Out :=
  .next (s.afterClock (s.schedule c.val pch.toNat trackerBad) c.val)

/-- READ_DATA_RETURN (R187). -/
def execReadDataReturn (c : Fin 32) (pch : Bool) (first again : BurstIn) (m : LookupIn) (s : State) : Out :=
  .next (s.afterClock (s.dataReturn c.val pch.toNat first again m) c.val)

/-- CORRECTION_WRITEBACK (R189). -/
def execCorrectionWriteback (c : Fin 32) (pch : Bool) (s : State) : Out :=
  .next (s.afterClock (s.correctionClock c.val pch.toNat) c.val)

/-- POWER_DOWN_ENTRY (R200). -/
def execPowerDownEntry (c : Fin 32) (pch : Bool) (s : State) : Out := .next (s.clocked fun s => s.pdEntry c.val pch.toNat)

/-- REFRESH_SLOT (R211). -/
def execRefreshSlot (c : Fin 32) (pch : Bool) (bank : Fin 64) (s : State) : Out :=
  .next (s.clocked fun s => s.refSlot c.val pch.toNat bank.val)

/-- REFRESH_DUE (R213). -/
def execRefreshDue (c : Fin 32) (pch : Bool) (bank : Fin 64) (s : State) : Out :=
  .next (s.clocked fun s => s.refDue c.val pch.toNat bank.val)

/-- REFRESH_STEP_DOWN (R212). -/
def execRefreshStepDown (die : Fin 16) (s : State) : Out := .next (s.refreshDown die.val)

/-- CONTROLLER_SWAP (R202). -/
def execControllerSwap (old new : Fin 36) (s : State) : Out := .next (s.clocked fun s => s.swapBegin old.val new.val)

/-- CONTROLLER_SWAP_DONE (R202). -/
def execControllerSwapDone (old : Fin 36) (s : State) : Out :=
  .next (s.clocked fun s => ((s.swapDone old.val).swapSettled old.val).afterUnit)

/-- PERIODIC_TRAINING_DUE (R205). -/
def execPeriodicTrainingDue (c : Fin 32) (pch : Bool) (s : State) : Out :=
  .next (s.clocked fun s => s.trainDue c.val pch.toNat)

/-- PHY_RETRAIN (R205). -/
def execPhyRetrain (c : Fin 32) (w : RegWrite) (s : State) : Out :=
  .next (s.regSet w (R.CHP_PHY_CTL c.val) F.CHP_PHY_CTL_RETRAIN)

/-- PERIODIC_TRAINING_DONE (R468). -/
def execPeriodicTrainingDone (c : Fin 32) (pch : Bool) (t : TsvIn) (s : State) : Out :=
  .next (s.clocked fun s => (s.trainDone c.val pch.toNat t).settle)

/-- REMAP_CMD (R206). -/
def execRemapCmd (c : Fin 32) (w : RegWrite) (s : State) : Out :=
  .next (s.regSet w (R.CHP_REMAP_CMD c.val) F.CHP_REMAP_CMD_START)

/-- REMAP_VERIFY_DONE (R206): a remap that found no spare lets the next one of its channel start. -/
def execRemapVerifyDone (c : Fin 32) (pch pass : Bool) (s : State) : Out :=
  .next (s.clocked fun s => ((((s.remapVerified c.val pch.toNat pass).remapFailed c.val).remapNext c.val).remapFailed c.val).settle)

/-- ROW_REPAIR_CMD (R207). -/
def execRowRepairCmd (c : Fin 32) (w : RegWrite) (s : State) : Out :=
  .next (s.regSet w (R.CHP_ROW_REPAIR_CMD c.val) F.CHP_ROW_REPAIR_CMD_START)

/-- ROW_REPAIR_DONE (R207). -/
def execRowRepairDone (c : Fin 32) (s : State) : Out := .next (s.clocked fun s => (s.rowRepairDone c.val).settle)

/-- SCRUB_ROW_DUE (R220). -/
def execScrubRowDue (u : ScrubUnit) (flips : List (Fin 4 × BitVec 576)) (s : State) : Out := .next (s.scrubDue u flips)

/-- SCRUB_LATE (R223). -/
def execScrubLate (c : Fin 32) (pch : Bool) (s : State) : Out := .next (s.clocked fun s => s.scrubLate c.val pch.toNat)

/-- SCRUB_CMD (R222). -/
def execScrubCmd (w : RegWrite) (s : State) : Out := .next (s.regSet w R.SCRUB_SCRUB_CMD F.SCRUB_SCRUB_CMD_START)

/-- SCRUB_CMD_DONE (R222). -/
def execScrubCmdDone (s : State) : Out := .next (s.clocked fun s => s.scrubCmdDone)

end Sys2Proof.Machine
end

