-- ==== Sys2Proof/Machine/ExecEngine.lean ====
section
/-! DEFINITION. Meanings of the engines' and the commit units' commands (R23, R239 to R252). -/

namespace Sys2Proof.Machine
namespace State

/-- After an engine's move: work that left its engine lets a fence, a retirement or a slice go on. -/
def afterWork (old s : State) : State :=
  if (s.eng.works.map fun w => (w.req, w.engine)) = old.eng.works.map fun w => (w.req, w.engine) then s else s.afterUnit

/-- A spare's domain comes up: an engine takes its place in the quad, a controller is ready for a swap (R23). -/
def spareUp (s : State) (engine : Bool) (u : Nat) : State :=
  if engine then (s.engPowerUp u).afterUnit
  else if s.ctrlSpare u then { s with spare := { s.spare with ctrlOn := u :: s.spare.ctrlOn.filter (· ≠ u) } }
  else s

end State

/-- WORK_BEGIN (R239). -/
def execWorkBegin (e : Fin 36) (s : State) : Out := .next (s.workBegin e.val)

/-- PRECHECK_DONE (R240). -/
def execPrecheckDone (e : Fin 36) (m : LookupIn) (s : State) : Out :=
  .next (s.clocked fun s => s.afterMove (s.afterWork (s.precheckDone e.val m)))

/-- CHUNK_COMMIT (R242). -/
def execChunkCommit (e : Fin 36) (m : LookupIn) (scratch : BitVec 16) (s : State) : Out :=
  .next (s.clocked fun s => s.afterMove (s.afterWork (s.chunkCommit e.val m scratch.toNat).closeChecks))

/-- COMMIT_RECORD_APPLY (R242). -/
def execCommitRecordApply (q : Fin 4) (m : LookupIn) (s : State) : Out :=
  .next (s.clocked fun s => s.afterMove (s.afterWork (s.recordApply q.val m).closeChecks))

/-- ENGINE_FAULT (R249). -/
def execEngineFault (e : Fin 36) (kind : EngineFaultKind) (s : State) : Out :=
  .next (s.clocked fun s => (s.engineFault e.val kind).afterUnit)

/-- ENGINE_HANG (R249). -/
def execEngineHang (e : Fin 36) (s : State) : Out := .next (s.clocked fun s => (s.engineHang e.val).afterUnit)

/-- CANCEL (R247). -/
def execCancel (q : Fin 4) (w : RegWrite) (s : State) : Out :=
  .next (s.regSet w (R.QUAD_CANCEL q.val) F.QUAD_CANCEL_START)

/-- SPARE_POWER_UP (R23). -/
def execSparePowerUp (engine : Bool) (unit : Fin 36) (s : State) : Out := .next (s.spareUp engine unit.val)

end Sys2Proof.Machine
end

