-- ==== Sys2Proof/Machine/ExecBridle.lean ====
section
/-! DEFINITION. Meanings of the Bridle's commands and of the urgency pins (R253 to R270). -/

namespace Sys2Proof.Machine
namespace State

/-- A pulse shorter than the pin's filter: ignored and counted (R262). -/
def pinGlitch (s : State) (p : Nat) : State := if s.inReset then s else s.inc (R.SIDE_GLITCHES p)

end State

/-- MASTER_WINDOW_START (R256). -/
def execMasterWindowStart (mid : Fin 64) (s : State) : Out := .next (s.clocked fun s => s.windowStart mid.val)

/-- REG_CTL_WRITE (R256): a write of a master's REG_CTL or REG_BUDGET. -/
def execRegCtlWrite (mid : Fin 64) (budget : Bool) (w : RegWrite) (s : State) : Out :=
  .next (s.regCmd w.path (if budget then R.BRIDLE_REG_BUDGET mid.val else R.BRIDLE_REG_CTL mid.val) w.value)

/-- HOLD_RELEASE (R257). -/
def execHoldRelease (s : State) : Out := .next s.holdRelease

/-- HOLD_LIMIT_EXPIRY (R257). -/
def execHoldLimitExpiry (tag : BitVec 12) (s : State) : Out := .next (s.clocked fun s => s.holdLimit tag.toNat)

/-- DELIV_COMPUTE (R265). -/
def execDelivCompute (s : State) : Out := .next (s.clocked fun s => s.delivCompute)

/-- GUAR_WINDOW_START (R268). -/
def execGuarWindowStart (s : State) : Out := .next (s.clocked fun s => s.guarWindowStart)

/-- TC_LAT_TARGET_WRITE (R261): a write of TC_LAT. -/
def execTcLatTargetWrite (tc : Fin 8) (w : RegWrite) (s : State) : Out :=
  .next (s.regCmd w.path (R.BRIDLE_TC_LAT tc.val) w.value)

/-- URG_PIN_ASSERT (R262). -/
def execUrgPinAssert (pin : Fin 4) (s : State) : Out := .next (s.pinAssert pin.val)

/-- URG_PIN_DEASSERT (R262). -/
def execUrgPinDeassert (pin : Fin 4) (s : State) : Out := .next (s.pinDeassert pin.val)

/-- URG_PIN_STUCK (R264). -/
def execUrgPinStuck (pin : Fin 4) (s : State) : Out := .next (s.pinStick pin.val)

/-- URG_PIN_GLITCH (R262). -/
def execUrgPinGlitch (pin : Fin 4) (s : State) : Out := .next (s.pinGlitch pin.val)

end Sys2Proof.Machine
end

