-- ==== Sys2Proof/Machine/ExecFault.lean ====
section
/-! DEFINITION. Meanings of the fault collector's, the sparing logic's and the repair appender's commands (R271 to R312,
R379). -/

namespace Sys2Proof.Machine
namespace State

/-- The source of a record is active: a level source whose bit is 1. A counted source has no level; its quiet time is the
command's to tell (R273, R285). -/
def recActive (s : State) (r : Rec) : Bool := !(r.page == 0x002 && decide (r.source < 28)) && s.levelBit r.page r.source

end State

/-- COUNTED_DELIVERY (R277). -/
def execCountedDelivery (found : Option Found) (s : State) : Out := .next (s.afterFault (s.countedDelivery found))

/-- LEVEL_CHANGE (R273). -/
def execLevelChange (page : BitVec 10) (bit : Fin 32) (s : State) : Out :=
  .next (s.afterFault (s.levelChange page.toNat bit.val))

/-- RECORD_RECOVER (R285). -/
def execRecordRecover (rec : Fin 64) (s : State) : Out :=
  .next (s.recordRecover rec.val (s.recActive (s.record rec.val)))

/-- BUCKET_LEAK (R287). -/
def execBucketLeak (type : Fin 9) (s : State) : Out := .next (s.leak type.val).settle

/-- RETEST_START (R290). -/
def execRetestStart (bist : Bool) (s : State) : Out := .next (s.clocked fun s => s.retestStart bist)

/-- RETEST_DONE (R290). -/
def execRetestDone (bist pass : Bool) (s : State) : Out := .next (s.clocked fun s => (s.retestDone bist pass).afterUnit)

/-- ALERT_CLR (R292). -/
def execAlertClr (w : RegWrite) (s : State) : Out := .next (s.regSet w R.FCOL_ALERT_CLR F.FCOL_ALERT_CLR_START)

/-- RES_QUERY (R295). -/
def execResQuery (w : RegWrite) (s : State) : Out := .next (s.regCmd w.path R.FCOL_RES_QUERY w.value)

/-- LEND_SLICE (R306). -/
def execLendSlice (q : Fin 4) (s : State) : Out := .next (s.clocked fun s => s.lendSlice q.val)

/-- REPAIR_RECORD_COMMIT (R379). -/
def execRepairRecordCommit (s : State) : Out := .next s.recordCommit.settle

/-- REPAIR_APPEND (R379). -/
def execRepairAppend (s : State) : Out := .next s.repairAppend

/-- HEALTH_FALL (R312). -/
def execHealthFall (s : State) : Out := .next s.healthFall

end Sys2Proof.Machine
end

