-- ==== Sys2Proof/Machine/ExecTherm.lean ====
section
/-! DEFINITION. Meanings of the thermal, power, DVFS and wear commands (R314 to R338, R467). -/

namespace Sys2Proof.Machine
namespace State

/-- One housekeeping round: sensors, lid and K, then wear and AGE, then the OTP controller's bounds (R314, R334, R371). -/
def houseRound (s : State) (codes : List (BitVec 12)) : State :=
  if s.inReset then s else (((s.adcCorrect (codes.getD 110 0) (codes.getD 111 0)).thermRound codes).wearRound).otpRound

/-- VDD has held: VDD_FAULT clears (R467). -/
def vddHeld (s : State) : State := s.flag R.PWR_DVFS_STAT F.PWR_DVFS_STAT_VDD_FAULT false

/-- A write of WEAR_CTL with SAVE_NOW: each save that the write performs ends as told (R336). -/
def saveWrite (s : State) (w : RegWrite) (failed : Bool) : State :=
  let good := s.regSet w R.STACK_WEAR_CTL F.STACK_WEAR_CTL_SAVE_NOW
  if !failed then good
  else
    let n := good.therm.savedSeq - s.therm.savedSeq
    let t := s.regCmd w.path R.STACK_WEAR_CTL (F.STACK_WEAR_CTL_SAVE_NOW.set 0 w.value)
    if n = 0 then t else if n = 1 then t.wearSave true else (t.wearSave true).wearSave true

end State

/-- HOUSEKEEPING_ROUND (R314). -/
def execHousekeepingRound (codes : List (BitVec 12)) (s : State) : Out := .next (s.houseRound codes)

/-- ESTIMATOR_STEP (R317). -/
def execEstimatorStep (activity : List Activity) (s : State) : Out := .next (s.estimatorStep activity)

/-- THERMAL_TRIP (R326). -/
def execThermalTrip (s : State) : Out := .next s.thermalTrip

/-- CAP_WINDOW_START (R328). -/
def execCapWindowStart (s : State) : Out := .next s.capWindowStart

/-- DVFS_UP_HOLD_EXPIRY (R325). -/
def execDvfsUpHoldExpiry (s : State) : Out := .next s.upHold

/-- DVFS_CLOCK_SWITCH (R467). -/
def execDvfsClockSwitch (s : State) : Out := .next s.clockSwitch

/-- DVFS_VSETTLE_TIMEOUT (R331). -/
def execDvfsVsettleTimeout (s : State) : Out := .next s.vsettleTimeout

/-- VDD_UNDERVOLT (R332). -/
def execVddUndervolt (s : State) : Out := .next s.undervolt

/-- VDD_FAULT_CLEAR (R467). -/
def execVddFaultClear (s : State) : Out := .next s.vddHeld

/-- DVFS_TARGET_WRITE (R325): a write of DVFS_CTL. -/
def execDvfsTargetWrite (w : RegWrite) (s : State) : Out := .next (s.regCmd w.path R.PWR_DVFS_CTL w.value)

/-- WEAR_SAVE_HOURLY (R336). -/
def execWearSaveHourly (failed : Bool) (s : State) : Out := .next (s.wearHourly failed)

/-- SAVE_NOW (R336). -/
def execSaveNow (w : RegWrite) (failed : Bool) (s : State) : Out := .next (s.saveWrite w failed)

end Sys2Proof.Machine
end

