-- ==== Sys2Proof/Machine/ExecOtp.lean ====
section
/-! DEFINITION. Meanings of the OTP, lock and attestation commands (R371 to R385). -/

namespace Sys2Proof.Machine
namespace State

/-- A write of PROG_CMD with a key and one action (R372, R376, R381). -/
def progCmd (s : State) (path : Path) (key : BitVec 16) (f : Fld) : State :=
  s.regCmd path R.FUSE_PROG_CMD (F.FUSE_PROG_CMD_KEY.set key.toNat (f.set 1 0))

end State

/-- The sticky lock registers in order: PROG_LOCK, DBG_LOCK, PAGE_LOCK 0 to 16 (R385). -/
def lockReg (n : Nat) : Nat := if n = 0 then R.LOCK_PROG_LOCK else if n = 1 then R.LOCK_DBG_LOCK else R.LOCK_PAGE_LOCK (n - 2)

/-- PROGRAM (R372). -/
def execProgram (path : Path) (key : BitVec 16) (s : State) : Out := .next (s.progCmd path key F.FUSE_PROG_CMD_PROGRAM)

/-- GEN_SECRET (R381). -/
def execGenSecret (path : Path) (key : BitVec 16) (s : State) : Out :=
  .next (s.progCmd path key F.FUSE_PROG_CMD_GEN_SECRET)

/-- LIFE_NEXT (R376). -/
def execLifeNext (path : Path) (key : BitVec 16) (s : State) : Out :=
  .next (s.progCmd path key F.FUSE_PROG_CMD_LIFE_NEXT)

/-- LIFE_VOID (R376). -/
def execLifeVoid (path : Path) (key : BitVec 16) (s : State) : Out :=
  .next (s.progCmd path key F.FUSE_PROG_CMD_LIFE_VOID)

/-- OTP_PROGRAM_DONE (R372). -/
def execOtpProgramDone (how : OtpEnd) (s : State) : Out := .next (s.progDone how)

/-- OTP_REREAD (R371). -/
def execOtpReread (reads : List OtpRead) (s : State) : Out := .next (s.otpReread reads)

/-- SCAN_ENABLE (R384). -/
def execScanEnable (readBackZero : Bool) (s : State) : Out := .next (s.scanEnable readBackZero)

/-- STICKY_LOCK_SET (R385). -/
def execStickyLockSet (reg : Fin 19) (w : RegWrite) (s : State) : Out :=
  .next (s.regCmd w.path (lockReg reg.val) w.value)

/-- GET_VERSION (R383). -/
def execGetVersion (s : State) : Out := .next s.spdmVersion

/-- GET_CAPABILITIES (R383). -/
def execGetCapabilities (s : State) : Out := .next s.spdmCapabilities

/-- NEGOTIATE_ALGORITHMS (R383). -/
def execNegotiateAlgorithms (s : State) : Out := .next s.spdmAlgorithms

/-- GET_DIGESTS (R383). -/
def execGetDigests (s : State) : Out := .next s.spdmDigests

/-- GET_CERTIFICATE (R383). -/
def execGetCertificate (offset length : BitVec 16) (s : State) : Out :=
  .next (s.spdmCertificate offset.toNat length.toNat)

/-- CHALLENGE (R383). -/
def execChallenge (nonce : BitVec 256) (s : State) : Out := .next (s.spdmChallenge nonce)

/-- GET_MEASUREMENTS (R383). -/
def execGetMeasurements (nonce : BitVec 256) (sign : Bool) (s : State) : Out := .next (s.spdmMeasurements nonce sign)

end Sys2Proof.Machine
end

