-- ==== Sys2Proof/Machine/ExecBist.lean ====
section
/-! DEFINITION. Meanings of the self-test and calibration commands (R392 to R403). -/

namespace Sys2Proof.Machine

/-- ROTATION_SLICE_DUE (R394). -/
def execRotationSliceDue (engine : Bool) (q : Fin 4) (s : State) : Out := .next (s.sliceDue engine q.val).afterUnit

/-- SLICE_BIST_DONE (R389, R390, R395). -/
def execSliceBistDone (engine : Bool) (q : Fin 4) (sig : SliceResult) (s : State) : Out :=
  .next (s.clocked fun s => (s.sliceDone engine q.val sig).afterUnit)

/-- SLICE_TIMEOUT (R395). -/
def execSliceTimeout (engine : Bool) (q : Fin 4) (s : State) : Out :=
  .next (s.clocked fun s => (s.sliceTimeout engine q.val).afterUnit)

/-- SLICE_RETRY (R396). -/
def execSliceRetry (engine : Bool) (q : Fin 4) (s : State) : Out :=
  .next (s.clocked fun s => (s.sliceRetry engine q.val).afterUnit)

/-- BIST_CMD (R399). -/
def execBistCmd (w : RegWrite) (s : State) : Out := .next (s.regSet w R.BIST_BIST_CMD F.BIST_BIST_CMD_START)

/-- SPARE_LANE_CHECK (R398). -/
def execSpareLaneCheck (g : Fin 8) (rxFail txFail : Bool) (s : State) : Out :=
  .next (s.clocked fun s => (s.spareLaneCheck g.val rxFail txFail).settle)

/-- SPARE_VIA_CHECK (R398). -/
def execSpareViaCheck (c : Fin 32) (pch : Bool) (v : ViaId) (fail : Bool) (s : State) : Out :=
  .next (s.clocked fun s => (s.spareViaCheck c.val pch.toNat v fail).settle)

/-- CAL_BLK_WRITE (R402). -/
def execCalBlkWrite (w : RegWrite) (s : State) : Out := .next (s.regCmd w.path R.CAL_CAL_BLK w.value)

/-- CAL_DATA_WRITE (R402). -/
def execCalDataWrite (w : RegWrite) (s : State) : Out := .next (s.regCmd w.path R.CAL_CAL_DATA w.value)

/-- COMMIT (R402). -/
def execCommit (path : Path) (s : State) : Out := .next (s.regCmd path R.CAL_CAL_CMD (F.CAL_CAL_CMD_COMMIT.set 1 0))

/-- DISCARD (R402). -/
def execDiscard (path : Path) (s : State) : Out := .next (s.regCmd path R.CAL_CAL_CMD (F.CAL_CAL_CMD_DISCARD.set 1 0))

/-- CAL_APPLY (R402). -/
def execCalApply (s : State) : Out := .next s.calApply

end Sys2Proof.Machine
end

