-- ==== Sys2Proof/Machine/ExecReg.lean ====
section
/-! DEFINITION. Meanings of the register bus's and the performance monitor's commands (R408 to R413, R428 to R442). -/

namespace Sys2Proof.Machine
namespace State

/-- A write at a register's alias `k`: 1 sets, 2 clears, 3 toggles (R410). The register's address is that of its page with
the offset modulo 0x400. -/
def aliasCmd (s : State) (addr : BitVec 22) (k : Nat) (be : BitVec 4) (w : RegWrite) : State :=
  let a := addr.toNat
  s.writeAt w.path (0x1000 * pageOf a + offOf a % 0x400 + 0x400 * k) be.toNat w.value

/-- A register read with its data shown (R411). -/
def readCmd (s : State) (path : Path) (addr : BitVec 22) : State :=
  let x := s.busRead path addr.toNat
  x.st.setOut x.val

end State

/-- REGISTER_WRITE (R412). -/
def execRegisterWrite (addr : BitVec 22) (be : BitVec 4) (w : RegWrite) (s : State) : Out :=
  .next (s.writeAt w.path addr.toNat be.toNat w.value)

/-- ALIAS_SET (R410). -/
def execAliasSet (addr : BitVec 22) (be : BitVec 4) (w : RegWrite) (s : State) : Out := .next (s.aliasCmd addr 1 be w)

/-- ALIAS_CLEAR (R410). -/
def execAliasClear (addr : BitVec 22) (be : BitVec 4) (w : RegWrite) (s : State) : Out := .next (s.aliasCmd addr 2 be w)

/-- ALIAS_TOGGLE (R410). -/
def execAliasToggle (addr : BitVec 22) (be : BitVec 4) (w : RegWrite) (s : State) : Out :=
  .next (s.aliasCmd addr 3 be w)

/-- RL_LOW_READ (R411): a register read. -/
def execRlLowRead (path : Path) (addr : BitVec 22) (s : State) : Out := .next (s.readCmd path addr)

/-- PAIR_LOW_WRITE (R411). -/
def execPairLowWrite (addr : BitVec 22) (be : BitVec 4) (w : RegWrite) (s : State) : Out :=
  .next (s.writeAt w.path addr.toNat be.toNat w.value)

/-- PAIR_HIGH_WRITE (R411). -/
def execPairHighWrite (addr : BitVec 22) (be : BitVec 4) (w : RegWrite) (s : State) : Out :=
  .next (s.writeAt w.path addr.toNat be.toNat w.value)

/-- FREEZE_WRITE (R433): a write of PERF_CTL. -/
def execFreezeWrite (w : RegWrite) (s : State) : Out := .next (s.regCmd w.path R.PERF_PERF_CTL w.value)

/-- SNAPSHOT (R434). -/
def execSnapshot (w : RegWrite) (s : State) : Out := .next (s.regSet w R.PERF_PERF_CTL F.PERF_PERF_CTL_SNAPSHOT)

/-- USER_SNAPSHOT (R442). -/
def execUserSnapshot (path : Path) (s : State) : Out :=
  .next (s.regCmd path R.PERFU_USER_CMD (F.PERFU_USER_CMD_SNAPSHOT.set 1 0))

/-- CLEAR (R435). -/
def execClear (path : Path) (s : State) : Out := .next (s.regCmd path R.PERF_PC_CMD (F.PERF_PC_CMD_CLEAR.set 1 0))

/-- CLEAR_ALL (R435). -/
def execClearAll (path : Path) (s : State) : Out := .next (s.regCmd path R.PERF_PC_CMD (F.PERF_PC_CMD_CLEAR_ALL.set 1 0))

/-- RING_SEL_WRITE (R440). -/
def execRingSelWrite (w : RegWrite) (s : State) : Out := .next (s.regCmd w.path R.PERF_RING_SEL w.value)

end Sys2Proof.Machine
end

