-- ==== Sys2Proof/Machine/ExecMgmt.lean ====
section
/-! DEFINITION. Meanings of the management port's, the mailboxes' and the flash's commands (R406, R415 to R424, R342). -/

namespace Sys2Proof.Machine
namespace State

/-- A mailbox command: a write of MB_CMD with its OPCODE and GO (R422). -/
def mbCmd (s : State) (path : Path) (ch op : Nat) : State :=
  s.regCmd path (R.MGMT_MB_CMD ch) (F.MGMT_MB_CMD_OPCODE.set op (F.MGMT_MB_CMD_GO.set 1 0))

end State

/-- WINDOW_READ (R415). -/
def execWindowRead (offset : BitVec 27) (len : BitVec 13) (m : LookupIn) (s : State) : Out :=
  .next (s.afterMove (s.windowRead offset.toNat len.toNat m))

/-- WINDOW_WRITE (R415). -/
def execWindowWrite (offset : BitVec 27) (bytes : List (Option Byte)) (poisoned : Bool) (m : LookupIn) (s : State) : Out :=
  .next (s.afterMove (s.windowWrite offset.toNat bytes poisoned m))

/-- MSIX_PENDING_SEND (R416). -/
def execMsixPendingSend (vector : Fin 64) (s : State) : Out := .next (s.msixSend vector.val)

/-- GET_INFO (R423). -/
def execGetInfo (path : Path) (ch : Fin 2) (s : State) : Out := .next (s.mbCmd path ch.val 1)

/-- LOG_READ (R423). -/
def execLogRead (path : Path) (ch : Fin 2) (s : State) : Out := .next (s.mbCmd path ch.val 2)

/-- FLASH_READ (R423). -/
def execFlashRead (path : Path) (ch : Fin 2) (s : State) : Out := .next (s.mbCmd path ch.val 3)

/-- IMAGE_ERASE (R423). -/
def execImageErase (path : Path) (ch : Fin 2) (s : State) : Out := .next (s.mbCmd path ch.val 4)

/-- IMAGE_WRITE (R423). -/
def execImageWrite (path : Path) (ch : Fin 2) (s : State) : Out := .next (s.mbCmd path ch.val 5)

/-- IMAGE_VERIFY (R423). -/
def execImageVerify (path : Path) (ch : Fin 2) (s : State) : Out := .next (s.mbCmd path ch.val 6)

/-- IMAGE_PROMOTE (R423). -/
def execImagePromote (path : Path) (ch : Fin 2) (s : State) : Out := .next (s.mbCmd path ch.val 7)

/-- HEALTH_READ (R423). -/
def execHealthRead (path : Path) (ch : Fin 2) (s : State) : Out := .next (s.mbCmd path ch.val 8)

/-- LIFE_CHALLENGE (R423). -/
def execLifeChallenge (path : Path) (ch : Fin 2) (s : State) : Out := .next (s.mbCmd path ch.val 9)

/-- LIFE_ADVANCE (R424). -/
def execLifeAdvance (path : Path) (ch : Fin 2) (s : State) : Out := .next (s.mbCmd path ch.val 10)

/-- MAILBOX_DONE (R422). -/
def execMailboxDone (ch : Fin 2) (flashOk : Bool) (s : State) : Out := .next (s.mailboxDone ch.val flashOk)

/-- RAW_CMD (R421). -/
def execRawCmd (w : RegWrite) (s : State) : Out := .next (s.regSet w R.SPI_RAW_CMD F.SPI_RAW_CMD_START)

/-- EVENT_LOG_WRITE (R420). -/
def execEventLogWrite (flashOk : Bool) (s : State) : Out := .next (s.eventLogWrite flashOk)

/-- REFCLK_PRESENCE_CHANGE (R342). -/
def execRefclkPresenceChange (present : Bool) (s : State) : Out := .next (s.refclkChange present).settle

/-- PCIE_CONFIG_REQUEST (R406). -/
def execPcieConfigRequest (c : CfgReq) (s : State) : Out := .next (s.pcieConfig c)

end Sys2Proof.Machine
end

