-- ==== Sys2Proof/Machine/Dispatch.lean ====
section
/-! DEFINITION. Which meaning each command has: one arm per constructor of `Instr`. -/

namespace Sys2Proof.Machine

/-- The effect of a command on everything but the queue. -/
def exec (i : Instr) (s : State) : Host.Outcome State Fault Refusal :=
  match i with
  | .vauxPowerOn => Sys2Proof.Machine.execVauxPowerOn s
  | .vauxDrop => Sys2Proof.Machine.execVauxDrop s
  | .railOutOfWindow rail mv => Sys2Proof.Machine.execRailOutOfWindow rail mv s
  | .resetNAssert => Sys2Proof.Machine.execResetNAssert s
  | .resetNDeassert => Sys2Proof.Machine.execResetNDeassert s
  | .perstNAssert => Sys2Proof.Machine.execPerstNAssert s
  | .perstNDeassert => Sys2Proof.Machine.execPerstNDeassert s
  | .rstCmdOrderly path key => Sys2Proof.Machine.execRstCmdOrderly path key s
  | .rstCmdImmediate path key => Sys2Proof.Machine.execRstCmdImmediate path key s
  | .orderlyResetDone m => Sys2Proof.Machine.execOrderlyResetDone m s
  | .orderlyResetTimeout => Sys2Proof.Machine.execOrderlyResetTimeout s
  | .bootStepComplete b => Sys2Proof.Machine.execBootStepComplete b s
  | .bootRailWaitExpiry => Sys2Proof.Machine.execBootRailWaitExpiry s
  | .xoWaitExpiry => Sys2Proof.Machine.execXoWaitExpiry s
  | .xoJudgeWindowEnd count => Sys2Proof.Machine.execXoJudgeWindowEnd count s
  | .clockMonitorWindowEnd clk count => Sys2Proof.Machine.execClockMonitorWindowEnd clk count s
  | .xoAmpReenable => Sys2Proof.Machine.execXoAmpReenable s
  | .drogueTimeout => Sys2Proof.Machine.execDrogueTimeout s
  | .refPcieSet w => Sys2Proof.Machine.execRefPcieSet w s
  | .pllUnlock pll => Sys2Proof.Machine.execPllUnlock pll s
  | .regbusDivWrite w => Sys2Proof.Machine.execRegbusDivWrite w s
  | .fmcStart w => Sys2Proof.Machine.execFmcStart w s
  | .fmcDone count => Sys2Proof.Machine.execFmcDone count s
  | .toscTrack count => Sys2Proof.Machine.execToscTrack count s
  | .gateRequest path page busy => Sys2Proof.Machine.execGateRequest path page busy s
  | .gateDenied page => Sys2Proof.Machine.execGateDenied page s
  | .gateOpen path page => Sys2Proof.Machine.execGateOpen path page s
  | .blockReset path page => Sys2Proof.Machine.execBlockReset path page s
  | .pgEnableWrite path page en => Sys2Proof.Machine.execPgEnableWrite path page en s
  | .trainingStart => Sys2Proof.Machine.execTrainingStart s
  | .trainingStateDone t => Sys2Proof.Machine.execTrainingStateDone t s
  | .trainingTimeout t => Sys2Proof.Machine.execTrainingTimeout t s
  | .markerLockLost g l => Sys2Proof.Machine.execMarkerLockLost g l s
  | .refLaneHoldoverEnd => Sys2Proof.Machine.execRefLaneHoldoverEnd s
  | .eqReq g arg => Sys2Proof.Machine.execEqReq g arg s
  | .eqAck g arg => Sys2Proof.Machine.execEqAck g arg s
  | .param g arg => Sys2Proof.Machine.execParam g arg s
  | .train g arg => Sys2Proof.Machine.execTrain g arg s
  | .eidle g => Sys2Proof.Machine.execEidle g s
  | .exit g block => Sys2Proof.Machine.execExit g block s
  | .groupReady d g skew line => Sys2Proof.Machine.execGroupReady d g skew line s
  | .padFrameInsert => Sys2Proof.Machine.execPadFrameInsert s
  | .pad => Sys2Proof.Machine.execPad s
  | .keepaliveSend g => Sys2Proof.Machine.execKeepaliveSend g s
  | .keepalive g adapt => Sys2Proof.Machine.execKeepalive g adapt s
  | .keepaliveMissed g => Sys2Proof.Machine.execKeepaliveMissed g s
  | .spareCmdStart path g lane => Sys2Proof.Machine.execSpareCmdStart path g lane s
  | .spareCmdAbort path g => Sys2Proof.Machine.execSpareCmdAbort path g s
  | .shadowReq g lane => Sys2Proof.Machine.execShadowReq g lane s
  | .shadowAck g lane => Sys2Proof.Machine.execShadowAck g lane s
  | .sparingAckTimeout g => Sys2Proof.Machine.execSparingAckTimeout g s
  | .sparingAdaptDone g => Sys2Proof.Machine.execSparingAdaptDone g s
  | .sparingAdaptTimeout g => Sys2Proof.Machine.execSparingAdaptTimeout g s
  | .sparingCompareDone g mismatches => Sys2Proof.Machine.execSparingCompareDone g mismatches s
  | .switch d g arg => Sys2Proof.Machine.execSwitch d g arg s
  | .release d g => Sys2Proof.Machine.execRelease d g s
  | .injOne path g l => Sys2Proof.Machine.execInjOne path g l s
  | .injBurst path g l len => Sys2Proof.Machine.execInjBurst path g l len s
  | .marginStart g l w => Sys2Proof.Machine.execMarginStart g l w s
  | .marginDone g l errors => Sys2Proof.Machine.execMarginDone g l errors s
  | .eyeUpdate g l eye a => Sys2Proof.Machine.execEyeUpdate g l eye a s
  | .frameTransmit test => Sys2Proof.Machine.execFrameTransmit test s
  | .flitReceive flit marks => Sys2Proof.Machine.execFlitReceive flit marks s
  | .ackTimeout => Sys2Proof.Machine.execAckTimeout s
  | .replayHoldExpiry => Sys2Proof.Machine.execReplayHoldExpiry s
  | .stallTimeout => Sys2Proof.Machine.execStallTimeout s
  | .retrain w => Sys2Proof.Machine.execRetrain w s
  | .recover w => Sys2Proof.Machine.execRecover w s
  | .llReset w => Sys2Proof.Machine.execLlReset w s
  | .widthAutoWindow d => Sys2Proof.Machine.execWidthAutoWindow d s
  | .badHeader tc => Sys2Proof.Machine.execBadHeader tc s
  | .requestAdmit tc m => Sys2Proof.Machine.execRequestAdmit tc m s
  | .rdReq tag m => Sys2Proof.Machine.execRdReq tag m s
  | .wrReq tag m => Sys2Proof.Machine.execWrReq tag m s
  | .wrReqPoison tag m => Sys2Proof.Machine.execWrReqPoison tag m s
  | .atomReq tag m => Sys2Proof.Machine.execAtomReq tag m s
  | .fenceReq tag => Sys2Proof.Machine.execFenceReq tag s
  | .fencePerformed tag => Sys2Proof.Machine.execFencePerformed tag s
  | .hintPin tag m => Sys2Proof.Machine.execHintPin tag m s
  | .hintUnpin tag m => Sys2Proof.Machine.execHintUnpin tag m s
  | .hintRelease tag m => Sys2Proof.Machine.execHintRelease tag m s
  | .hintPrefetch tag m => Sys2Proof.Machine.execHintPrefetch tag m s
  | .hintNocache tag m => Sys2Proof.Machine.execHintNocache tag m s
  | .hintCache tag m => Sys2Proof.Machine.execHintCache tag m s
  | .workReq tag m => Sys2Proof.Machine.execWorkReq tag m s
  | .cfgRd tag => Sys2Proof.Machine.execCfgRd tag s
  | .cfgWr tag => Sys2Proof.Machine.execCfgWr tag s
  | .responseSend tag => Sys2Proof.Machine.execResponseSend tag s
  | .eventSend => Sys2Proof.Machine.execEventSend s
  | .epochTick => Sys2Proof.Machine.execEpochTick s
  | .heatDecay => Sys2Proof.Machine.execHeatDecay s
  | .migrationCopyDone slot m => Sys2Proof.Machine.execMigrationCopyDone slot m s
  | .migrationRecopyPassDone slot m => Sys2Proof.Machine.execMigrationRecopyPassDone slot m s
  | .migrationSwitch slot m => Sys2Proof.Machine.execMigrationSwitch slot m s
  | .migrationCloseTimeout slot ns => Sys2Proof.Machine.execMigrationCloseTimeout slot ns s
  | .frameZeroStart => Sys2Proof.Machine.execFrameZeroStart s
  | .frameZeroDone frame => Sys2Proof.Machine.execFrameZeroDone frame s
  | .tableRepairDone parcel failA failB => Sys2Proof.Machine.execTableRepairDone parcel failA failB s
  | .deficitGraceExpiry => Sys2Proof.Machine.execDeficitGraceExpiry s
  | .autoWdrSet w => Sys2Proof.Machine.execAutoWdrSet w s
  | .spareResWrite pinLimit w => Sys2Proof.Machine.execSpareResWrite pinLimit w s
  | .wdrCmdReinstate w => Sys2Proof.Machine.execWdrCmdReinstate w s
  | .locQuery w => Sys2Proof.Machine.execLocQuery w s
  | .wdrFind w => Sys2Proof.Machine.execWdrFind w s
  | .ckptNow w => Sys2Proof.Machine.execCkptNow w s
  | .checkpointTimer => Sys2Proof.Machine.execCheckpointTimer s
  | .checkpointDone => Sys2Proof.Machine.execCheckpointDone s
  | .keelRebuildDone mirrorB => Sys2Proof.Machine.execKeelRebuildDone mirrorB s
  | .writeDrain line m => Sys2Proof.Machine.execWriteDrain line m s
  | .bgWriteback q m => Sys2Proof.Machine.execBgWriteback q m s
  | .flush w => Sys2Proof.Machine.execFlush w s
  | .invalidate w => Sys2Proof.Machine.execInvalidate w s
  | .cacheEnableWrite w => Sys2Proof.Machine.execCacheEnableWrite w s
  | .bankCmdRetire path bank => Sys2Proof.Machine.execBankCmdRetire path bank s
  | .bankScanDone bank m => Sys2Proof.Machine.execBankScanDone bank m s
  | .cacheBankTimeout bank a line again => Sys2Proof.Machine.execCacheBankTimeout bank a line again s
  | .cacheDieNotResponding => Sys2Proof.Machine.execCacheDieNotResponding s
  | .dramSchedule c pch trackerBad => Sys2Proof.Machine.execDramSchedule c pch trackerBad s
  | .readDataReturn c pch first again m => Sys2Proof.Machine.execReadDataReturn c pch first again m s
  | .correctionWriteback c pch => Sys2Proof.Machine.execCorrectionWriteback c pch s
  | .powerDownEntry c pch => Sys2Proof.Machine.execPowerDownEntry c pch s
  | .refreshSlot c pch bank => Sys2Proof.Machine.execRefreshSlot c pch bank s
  | .refreshDue c pch bank => Sys2Proof.Machine.execRefreshDue c pch bank s
  | .refreshStepDown die => Sys2Proof.Machine.execRefreshStepDown die s
  | .controllerSwap old new => Sys2Proof.Machine.execControllerSwap old new s
  | .controllerSwapDone old => Sys2Proof.Machine.execControllerSwapDone old s
  | .periodicTrainingDue c pch => Sys2Proof.Machine.execPeriodicTrainingDue c pch s
  | .phyRetrain c w => Sys2Proof.Machine.execPhyRetrain c w s
  | .periodicTrainingDone c pch t => Sys2Proof.Machine.execPeriodicTrainingDone c pch t s
  | .remapCmd c w => Sys2Proof.Machine.execRemapCmd c w s
  | .remapVerifyDone c pch pass => Sys2Proof.Machine.execRemapVerifyDone c pch pass s
  | .rowRepairCmd c w => Sys2Proof.Machine.execRowRepairCmd c w s
  | .rowRepairDone c => Sys2Proof.Machine.execRowRepairDone c s
  | .scrubRowDue u flips => Sys2Proof.Machine.execScrubRowDue u flips s
  | .scrubLate c pch => Sys2Proof.Machine.execScrubLate c pch s
  | .scrubCmd w => Sys2Proof.Machine.execScrubCmd w s
  | .scrubCmdDone => Sys2Proof.Machine.execScrubCmdDone s
  | .workBegin e => Sys2Proof.Machine.execWorkBegin e s
  | .precheckDone e m => Sys2Proof.Machine.execPrecheckDone e m s
  | .chunkCommit e m scratch => Sys2Proof.Machine.execChunkCommit e m scratch s
  | .commitRecordApply q m => Sys2Proof.Machine.execCommitRecordApply q m s
  | .engineFault e kind => Sys2Proof.Machine.execEngineFault e kind s
  | .engineHang e => Sys2Proof.Machine.execEngineHang e s
  | .cancel q w => Sys2Proof.Machine.execCancel q w s
  | .sparePowerUp engine unit => Sys2Proof.Machine.execSparePowerUp engine unit s
  | .masterWindowStart mid => Sys2Proof.Machine.execMasterWindowStart mid s
  | .regCtlWrite mid budget w => Sys2Proof.Machine.execRegCtlWrite mid budget w s
  | .holdRelease => Sys2Proof.Machine.execHoldRelease s
  | .holdLimitExpiry tag => Sys2Proof.Machine.execHoldLimitExpiry tag s
  | .delivCompute => Sys2Proof.Machine.execDelivCompute s
  | .guarWindowStart => Sys2Proof.Machine.execGuarWindowStart s
  | .tcLatTargetWrite tc w => Sys2Proof.Machine.execTcLatTargetWrite tc w s
  | .urgPinAssert pin => Sys2Proof.Machine.execUrgPinAssert pin s
  | .urgPinDeassert pin => Sys2Proof.Machine.execUrgPinDeassert pin s
  | .urgPinStuck pin => Sys2Proof.Machine.execUrgPinStuck pin s
  | .countedDelivery found => Sys2Proof.Machine.execCountedDelivery found s
  | .levelChange page bit => Sys2Proof.Machine.execLevelChange page bit s
  | .recordRecover rec => Sys2Proof.Machine.execRecordRecover rec s
  | .bucketLeak type => Sys2Proof.Machine.execBucketLeak type s
  | .retestStart bist => Sys2Proof.Machine.execRetestStart bist s
  | .retestDone bist pass => Sys2Proof.Machine.execRetestDone bist pass s
  | .alertClr w => Sys2Proof.Machine.execAlertClr w s
  | .resQuery w => Sys2Proof.Machine.execResQuery w s
  | .lendSlice q => Sys2Proof.Machine.execLendSlice q s
  | .repairRecordCommit => Sys2Proof.Machine.execRepairRecordCommit s
  | .repairAppend => Sys2Proof.Machine.execRepairAppend s
  | .healthFall => Sys2Proof.Machine.execHealthFall s
  | .housekeepingRound codes => Sys2Proof.Machine.execHousekeepingRound codes s
  | .estimatorStep activity => Sys2Proof.Machine.execEstimatorStep activity s
  | .thermalTrip => Sys2Proof.Machine.execThermalTrip s
  | .capWindowStart => Sys2Proof.Machine.execCapWindowStart s
  | .dvfsUpHoldExpiry => Sys2Proof.Machine.execDvfsUpHoldExpiry s
  | .dvfsClockSwitch => Sys2Proof.Machine.execDvfsClockSwitch s
  | .dvfsVsettleTimeout => Sys2Proof.Machine.execDvfsVsettleTimeout s
  | .vddUndervolt => Sys2Proof.Machine.execVddUndervolt s
  | .vddFaultClear => Sys2Proof.Machine.execVddFaultClear s
  | .wearSaveHourly failed => Sys2Proof.Machine.execWearSaveHourly failed s
  | .saveNow w failed => Sys2Proof.Machine.execSaveNow w failed s
  | .program path key => Sys2Proof.Machine.execProgram path key s
  | .genSecret path key => Sys2Proof.Machine.execGenSecret path key s
  | .lifeNext path key => Sys2Proof.Machine.execLifeNext path key s
  | .lifeVoid path key => Sys2Proof.Machine.execLifeVoid path key s
  | .otpProgramDone how => Sys2Proof.Machine.execOtpProgramDone how s
  | .otpReread reads => Sys2Proof.Machine.execOtpReread reads s
  | .scanEnable readBackZero => Sys2Proof.Machine.execScanEnable readBackZero s
  | .stickyLockSet reg w => Sys2Proof.Machine.execStickyLockSet reg w s
  | .getVersion => Sys2Proof.Machine.execGetVersion s
  | .getCapabilities => Sys2Proof.Machine.execGetCapabilities s
  | .negotiateAlgorithms => Sys2Proof.Machine.execNegotiateAlgorithms s
  | .getDigests => Sys2Proof.Machine.execGetDigests s
  | .getCertificate offset length => Sys2Proof.Machine.execGetCertificate offset length s
  | .challenge nonce => Sys2Proof.Machine.execChallenge nonce s
  | .getMeasurements nonce sign => Sys2Proof.Machine.execGetMeasurements nonce sign s
  | .rotationSliceDue engine q => Sys2Proof.Machine.execRotationSliceDue engine q s
  | .sliceBistDone engine q sig => Sys2Proof.Machine.execSliceBistDone engine q sig s
  | .sliceTimeout engine q => Sys2Proof.Machine.execSliceTimeout engine q s
  | .sliceRetry engine q => Sys2Proof.Machine.execSliceRetry engine q s
  | .bistCmd w => Sys2Proof.Machine.execBistCmd w s
  | .spareLaneCheck g rxFail txFail => Sys2Proof.Machine.execSpareLaneCheck g rxFail txFail s
  | .spareViaCheck c pch v fail => Sys2Proof.Machine.execSpareViaCheck c pch v fail s
  | .calBlkWrite w => Sys2Proof.Machine.execCalBlkWrite w s
  | .calDataWrite w => Sys2Proof.Machine.execCalDataWrite w s
  | .commit path => Sys2Proof.Machine.execCommit path s
  | .discard path => Sys2Proof.Machine.execDiscard path s
  | .calApply => Sys2Proof.Machine.execCalApply s
  | .registerWrite addr be w => Sys2Proof.Machine.execRegisterWrite addr be w s
  | .aliasSet addr be w => Sys2Proof.Machine.execAliasSet addr be w s
  | .aliasClear addr be w => Sys2Proof.Machine.execAliasClear addr be w s
  | .aliasToggle addr be w => Sys2Proof.Machine.execAliasToggle addr be w s
  | .rlLowRead path addr => Sys2Proof.Machine.execRlLowRead path addr s
  | .pairLowWrite addr be w => Sys2Proof.Machine.execPairLowWrite addr be w s
  | .pairHighWrite addr be w => Sys2Proof.Machine.execPairHighWrite addr be w s
  | .windowRead offset len m => Sys2Proof.Machine.execWindowRead offset len m s
  | .windowWrite offset bytes poisoned m => Sys2Proof.Machine.execWindowWrite offset bytes poisoned m s
  | .msixPendingSend vector => Sys2Proof.Machine.execMsixPendingSend vector s
  | .getInfo path ch => Sys2Proof.Machine.execGetInfo path ch s
  | .logRead path ch => Sys2Proof.Machine.execLogRead path ch s
  | .flashRead path ch => Sys2Proof.Machine.execFlashRead path ch s
  | .imageErase path ch => Sys2Proof.Machine.execImageErase path ch s
  | .imageWrite path ch => Sys2Proof.Machine.execImageWrite path ch s
  | .imageVerify path ch => Sys2Proof.Machine.execImageVerify path ch s
  | .imagePromote path ch => Sys2Proof.Machine.execImagePromote path ch s
  | .healthRead path ch => Sys2Proof.Machine.execHealthRead path ch s
  | .lifeChallenge path ch => Sys2Proof.Machine.execLifeChallenge path ch s
  | .lifeAdvance path ch => Sys2Proof.Machine.execLifeAdvance path ch s
  | .mailboxDone ch flashOk => Sys2Proof.Machine.execMailboxDone ch flashOk s
  | .rawCmd w => Sys2Proof.Machine.execRawCmd w s
  | .eventLogWrite flashOk => Sys2Proof.Machine.execEventLogWrite flashOk s
  | .freezeWrite w => Sys2Proof.Machine.execFreezeWrite w s
  | .snapshot w => Sys2Proof.Machine.execSnapshot w s
  | .userSnapshot path => Sys2Proof.Machine.execUserSnapshot path s
  | .clear path => Sys2Proof.Machine.execClear path s
  | .clearAll path => Sys2Proof.Machine.execClearAll path s
  | .ringSelWrite w => Sys2Proof.Machine.execRingSelWrite w s
  | .cdrLockLoss g l => Sys2Proof.Machine.execCdrLockLoss g l s
  | .refclkPresenceChange present => Sys2Proof.Machine.execRefclkPresenceChange present s
  | .widthCtlWrite w => Sys2Proof.Machine.execWidthCtlWrite w s
  | .dvfsTargetWrite w => Sys2Proof.Machine.execDvfsTargetWrite w s
  | .testModeWrite g w => Sys2Proof.Machine.execTestModeWrite g w s
  | .localTimingWrite w => Sys2Proof.Machine.execLocalTimingWrite w s
  | .urgPinGlitch pin => Sys2Proof.Machine.execUrgPinGlitch pin s
  | .pcieConfigRequest c => Sys2Proof.Machine.execPcieConfigRequest c s

end Sys2Proof.Machine
end

