-- ==== Sys2Proof/Machine/Idle.lean ====
section
/-! DEFINITION. What an empty queue does: time passes (assumption 1). -/

namespace Sys2Proof.Machine

/-- One idle tick: 20 ns of the always-on clock. Outside reset the timestamp counts, ALERT_N is released after
its 10 µs, blocks that had work in hand close their gates, the performance monitor takes its two 10-ns ticks, and priorities
rise with their sources (R260, R277, R294, R355, R431). -/
def State.idle (s : State) : State :=
  let t : State := { s with clk := { s.clk with up := s.clk.up + 20 } }
  if t.inReset then t
  else
    let t : State := { t with ts := t.ts + 20 }
    t.alertTick.gatesClose.hwGatesClose.perfTick t.levelBit |>.raisePrio

end Sys2Proof.Machine
end

