-- ==== Sys2Proof/Safety.lean ====
section
/-! DEFINITION. What a safe run is, and the conditions on a state that claims name. The stack never stops: what the manual
calls an error it records or answers. A run is safe when every step answers a next state. -/

namespace Sys2Proof.Safety
open Sys2Proof.Machine

/-- A command's outcome is a next state. -/
def Completes (o : Host.Outcome State Fault Refusal) : Prop := ∃ t, o = .next t

/-- A command acts: it answers a next state, of which `p` holds. -/
def Gives (c : Instr) (s : State) (p : State → Prop) : Prop := ∃ t, exec c s = .next t ∧ p t

/-- No byte of the DRAM, of the cache die, of the write buffer, of the OTP or of the flash, and nothing of the placement
table, differs. -/
def MemKept (s t : State) : Prop :=
  t.dram = s.dram ∧ t.cache = s.cache ∧ t.wdb = s.wdb ∧ t.place = s.place ∧ t.otp = s.otp ∧ t.mgmt.flash = s.mgmt.flash

/-- No register but those of the listed pages and those of the listed addresses differs. -/
def RegsKept (s t : State) (pages addrs : List Nat) : Prop :=
  ∀ a, pageOf a ∉ pages → a ∉ addrs → t.rd a = s.rd a

/-- Every frame of the DRAM can be reached (R303). -/
def Readable (s : State) : Prop := ∀ f, s.unreadable f = false

/-- At a clock of a pseudo-channel nothing else waits: no resource handed to a ladder, no resource that retires. -/
def Quiet (s : State) : Prop := s.fcol.handed = [] ∧ s.place.retiring = []

/-- No fill of the cache die waits, and no way is kept from a line that it lost (R171, R179). -/
def NoFills (s : State) : Prop := s.cache.fillQ = [] ∧ s.cache.shun = []

/-- The request that arrived as number `id` has its response: its status, and with `pay` its data. -/
def Answered (t : State) (id status : Nat) (pay : Option (List Slot)) : Prop :=
  ∃ x ∈ t.xact.reqs, x.id = id ∧ x.stage = .done ∧ x.status = status ∧ ∀ p ∈ pay, x.payload = p

/-- The look-ups of a request meet no error. -/
def NoErr (m : LookupIn) : Prop := m.lost = [] ∧ m.tags = [] ∧ m.cache = [] ∧ m.words = []

/-- A request that is answered as any other: its status is undecided and no link-layer initialisation came between. -/
def Plain (r : Req) : Prop := r.status = 0 ∧ r.silent = false

/-- No line of the write data buffer but this one differs. -/
def WdbKeptBut (s t : State) (li : Nat) : Prop := ∀ k, k ≠ li → t.wdbLine k = s.wdbLine k

/-- No placement entry but this parcel's differs. -/
def EntriesKeptBut (s t : State) (n : Nat) : Prop := ∀ k, k ≠ n → t.entry k = s.entry k

/-- A mailbox channel has taken a command: it is busy with it, and one that uses the flash stands at the end of the order
(R422); nothing else differs. -/
def MbStarted (s t : State) (ch op : Nat) : Prop :=
  SMap.get (fun _ => none) t.mgmt.run ch = some op ∧ t.fld (R.MGMT_MB_CMD ch) F.MGMT_MB_CMD_OPCODE = op ∧
    t.mbBusy ch = true ∧ t.on (R.MGMT_MB_STAT ch) F.MGMT_MB_STAT_DONE = false ∧
    t.mgmt.order = (if mbFlash op then s.mgmt.order ++ [ch] else s.mgmt.order) ∧ MemKept s t ∧
    RegsKept s t [] [R.MGMT_MB_CMD ch, R.MGMT_MB_STAT ch]

/-- Every step of a run of `n` steps from `s` completes. -/
def RunSafe : Nat → State → Prop
  | 0, _ => True
  | n + 1, s => ∃ t, step s = .next t ∧ RunSafe n t

/-- Nothing waits for the sparing ladders: no resource handed to them, no row, no retirement and no declared engine. -/
def Calm (s : State) : Prop :=
  s.fcol.handed = [] ∧ s.spare.rows = [] ∧ s.place.retiring = [] ∧ ∀ e < 36, s.declared (resEng e) = false

/-- No in-service test runs or waits. -/
def NoTest (s : State) : Prop := s.bist.slice = none ∧ s.bist.waiting = []

/-- The stack runs on its crystal, it is not waiting for the link at boot step 12 or after a training from DETECT, and the
lanes have raised no event that is not yet queued. -/
def OnXo (s : State) : Prop :=
  s.xoOk = true ∧ s.refSrc = 1 ∧ s.bootStep ≠ 12 ∧ s.link.fresh = false ∧ s.link.raised = []

/-- The canonical form of the sparse data: the register file, the bytes of DRAM and the OTP array list their keys in strictly
rising order, and no entry that is what an unlisted key reads as. -/
def Canonical (s : State) : Prop :=
  SMap.wf regReset s.regs = true ∧ SMap.wf dramDefault s.dram = true ∧ SMap.wf (fun _ => 0) s.otp.array = true

/-- A register of an unlocked page answers to a path, on a bus that is up and keeps its ratio (R354, R385, R413). -/
def Open (s : State) (path : Path) (a : Nat) : Prop :=
  s.busUp path = true ∧ s.ratioBroken = false ∧ s.accessFault a = none ∧ s.pageLocked (pageOf a) = false

end Sys2Proof.Safety
end

