-- ==== Sys2Proof/WellFormed.lean ====
section
/-! DEFINITION. Which commands are well formed: operands that a type leaves wider than the stack has, held to the ranges of
the manual. The machine is total on ill-formed commands too; statements that need the ranges name them. -/

namespace Sys2Proof

/-- A lane of a group: 0 to 9 (R52). -/
def laneOk (l : Nat) : Bool := decide (l < 10)

/-- A via of a pseudo-channel: 36 DQ and 4 spares, or 14 CA and 2 spares (R203). -/
def ViaId.wf (v : ViaId) : Bool := decide (v.via.toNat < if v.ca then 16 else 40)

/-- A TSV result names vias that exist, words of the pseudo-channel's 58 (R400) and at most one tRCD for each of its dies. -/
def TsvIn.wf (t : TsvIn) : Bool := t.failed.all ViaId.wf && t.cal.all (fun x => decide (x.1.toNat < 58)) && decide (t.trcd.length ≤ 4)

/-- A page index is assigned (R463). -/
def pageOk (pg : Nat) : Bool := (Machine.pageRow pg).isSome

/-- A register's own address: a dword in the first kilobyte of its page (R410). -/
def regOk (a : Nat) : Bool := decide (a % 4 = 0) && decide (Machine.offOf a < 0x400)

def BistFail.wf : BistFail → Bool
  | .spareVia _ _ v => v.wf
  | _ => true

/-- A boot input names each rail, pseudo-channel and die once, and register addresses. -/
def BootIn.wf (b : BootIn) : Bool :=
  decide b.railsOut.Nodup && decide (b.tsv.map fun x => (x.1, x.2.1)).Nodup && decide b.diesAbsent.Nodup
    && b.tsv.all (fun x => x.2.2.wf) && b.bist.all BistFail.wf && b.cfgWrites.all (fun x => decide (x.1.toNat % 4 = 0))

/-- A BAR2 access: within the window, of the lengths that a request or a write may have (R414, R415). -/
def windowOk (off len limit : Nat) : Bool := decide (0 < len ∧ len ≤ limit ∧ off + len ≤ 2 ^ 27)

/-- The operands of a command lie in the manual's ranges. -/
def Instr.wf : Instr → Bool
  | .bootStepComplete b => b.wf
  | .gateRequest _ p _ => pageOk p.toNat
  | .gateDenied p => pageOk p.toNat
  | .gateOpen _ p => pageOk p.toNat
  | .blockReset _ p => pageOk p.toNat
  | .pgEnableWrite _ p _ => pageOk p.toNat
  | .trainingStateDone _ => true
  | .spareCmdStart _ _ l => laneOk l.toNat
  | .shadowReq _ l => laneOk l.toNat
  | .shadowAck _ l => laneOk l.toNat
  | .periodicTrainingDone _ _ t => t.wf
  | .controllerSwap old new => decide (old ≠ new ∧ old.val / 9 = new.val / 9)
  | .levelChange p _ => pageOk p.toNat
  | .estimatorStep _ => true
  | .housekeepingRound codes => decide (codes.length = 112)
  | .spareViaCheck _ _ v _ => v.wf
  | .registerWrite a _ _ => decide (a.toNat % 4 = 0)
  | .aliasSet a _ _ => regOk a.toNat
  | .aliasClear a _ _ => regOk a.toNat
  | .aliasToggle a _ _ => regOk a.toNat
  | .rlLowRead _ a => regOk a.toNat
  | .pairLowWrite a _ _ => regOk a.toNat
  | .pairHighWrite a _ _ => regOk a.toNat
  | .windowRead off len _ => windowOk off.toNat len.toNat 4096
  | .windowWrite off bytes _ _ => windowOk off.toNat bytes.length 256
  | .vauxPowerOn => true
  | .vauxDrop => true
  | .railOutOfWindow _ _ => true
  | .resetNAssert => true
  | .resetNDeassert => true
  | .perstNAssert => true
  | .perstNDeassert => true
  | .rstCmdOrderly _ _ => true
  | .rstCmdImmediate _ _ => true
  | .orderlyResetDone _ => true
  | .orderlyResetTimeout => true
  | .bootRailWaitExpiry => true
  | .xoWaitExpiry => true
  | .xoJudgeWindowEnd _ => true
  | .clockMonitorWindowEnd _ _ => true
  | .xoAmpReenable => true
  | .drogueTimeout => true
  | .refPcieSet _ => true
  | .pllUnlock _ => true
  | .regbusDivWrite _ => true
  | .fmcStart _ => true
  | .fmcDone _ => true
  | .toscTrack _ => true
  | .trainingStart => true
  | .trainingTimeout _ => true
  | .markerLockLost _ _ => true
  | .refLaneHoldoverEnd => true
  | .eqReq _ _ => true
  | .eqAck _ _ => true
  | .param _ _ => true
  | .train _ _ => true
  | .eidle _ => true
  | .exit _ _ => true
  | .groupReady _ _ _ _ => true
  | .padFrameInsert => true
  | .pad => true
  | .keepaliveSend _ => true
  | .keepalive _ _ => true
  | .keepaliveMissed _ => true
  | .spareCmdAbort _ _ => true
  | .sparingAckTimeout _ => true
  | .sparingAdaptDone _ => true
  | .sparingAdaptTimeout _ => true
  | .sparingCompareDone _ _ => true
  | .switch _ _ a => laneOk (a.toNat % 16)
  | .release _ _ => true
  | .injOne _ _ _ => true
  | .injBurst _ _ _ _ => true
  | .marginStart _ _ _ => true
  | .marginDone _ _ _ => true
  | .eyeUpdate _ _ _ _ => true
  | .frameTransmit _ => true
  | .flitReceive _ _ => true
  | .ackTimeout => true
  | .replayHoldExpiry => true
  | .stallTimeout => true
  | .retrain _ => true
  | .recover _ => true
  | .llReset _ => true
  | .widthAutoWindow _ => true
  | .badHeader _ => true
  | .requestAdmit _ _ => true
  | .rdReq _ _ => true
  | .wrReq _ _ => true
  | .wrReqPoison _ _ => true
  | .atomReq _ _ => true
  | .fenceReq _ => true
  | .fencePerformed _ => true
  | .hintPin _ _ => true
  | .hintUnpin _ _ => true
  | .hintRelease _ _ => true
  | .hintPrefetch _ _ => true
  | .hintNocache _ _ => true
  | .hintCache _ _ => true
  | .workReq _ _ => true
  | .cfgRd _ => true
  | .cfgWr _ => true
  | .responseSend _ => true
  | .eventSend => true
  | .epochTick => true
  | .heatDecay => true
  | .migrationCopyDone _ _ => true
  | .migrationRecopyPassDone _ _ => true
  | .migrationSwitch _ _ => true
  | .migrationCloseTimeout _ _ => true
  | .frameZeroStart => true
  | .frameZeroDone _ => true
  | .tableRepairDone _ _ _ => true
  | .deficitGraceExpiry => true
  | .autoWdrSet _ => true
  | .spareResWrite _ _ => true
  | .wdrCmdReinstate _ => true
  | .locQuery _ => true
  | .wdrFind _ => true
  | .ckptNow _ => true
  | .checkpointTimer => true
  | .checkpointDone => true
  | .keelRebuildDone _ => true
  | .writeDrain _ _ => true
  | .bgWriteback _ _ => true
  | .flush _ => true
  | .invalidate _ => true
  | .cacheEnableWrite _ => true
  | .bankCmdRetire _ _ => true
  | .bankScanDone _ _ => true
  | .cacheBankTimeout _ _ _ _ => true
  | .cacheDieNotResponding => true
  | .dramSchedule _ _ _ => true
  | .readDataReturn _ _ _ _ _ => true
  | .correctionWriteback _ _ => true
  | .powerDownEntry _ _ => true
  | .refreshSlot _ _ _ => true
  | .refreshDue _ _ _ => true
  | .refreshStepDown _ => true
  | .controllerSwapDone _ => true
  | .periodicTrainingDue _ _ => true
  | .phyRetrain _ _ => true
  | .remapCmd _ _ => true
  | .remapVerifyDone _ _ _ => true
  | .rowRepairCmd _ _ => true
  | .rowRepairDone _ => true
  | .scrubRowDue _ l => decide (l.map Prod.fst).Nodup
  | .scrubLate _ _ => true
  | .scrubCmd _ => true
  | .scrubCmdDone => true
  | .workBegin _ => true
  | .precheckDone _ _ => true
  | .chunkCommit _ _ _ => true
  | .commitRecordApply _ _ => true
  | .engineFault _ _ => true
  | .engineHang _ => true
  | .cancel _ _ => true
  | .sparePowerUp _ _ => true
  | .masterWindowStart _ => true
  | .regCtlWrite _ _ _ => true
  | .holdRelease => true
  | .holdLimitExpiry _ => true
  | .delivCompute => true
  | .guarWindowStart => true
  | .tcLatTargetWrite _ _ => true
  | .urgPinAssert _ => true
  | .urgPinDeassert _ => true
  | .urgPinStuck _ => true
  | .countedDelivery f => match f with
    | some (.sramCorr _ n) | some (.sramUncorr _ n) => decide (n ≠ 0)
    | _ => true
  | .recordRecover _ => true
  | .bucketLeak _ => true
  | .retestStart _ => true
  | .retestDone _ _ => true
  | .alertClr _ => true
  | .resQuery _ => true
  | .lendSlice _ => true
  | .repairRecordCommit => true
  | .repairAppend => true
  | .healthFall => true
  | .thermalTrip => true
  | .capWindowStart => true
  | .dvfsUpHoldExpiry => true
  | .dvfsClockSwitch => true
  | .dvfsVsettleTimeout => true
  | .vddUndervolt => true
  | .vddFaultClear => true
  | .wearSaveHourly _ => true
  | .saveNow _ _ => true
  | .program _ _ => true
  | .genSecret _ _ => true
  | .lifeNext _ _ => true
  | .lifeVoid _ _ => true
  | .otpProgramDone _ => true
  | .otpReread _ => true
  | .scanEnable _ => true
  | .stickyLockSet _ _ => true
  | .getVersion => true
  | .getCapabilities => true
  | .negotiateAlgorithms => true
  | .getDigests => true
  | .getCertificate _ _ => true
  | .challenge _ => true
  | .getMeasurements _ _ => true
  | .rotationSliceDue _ _ => true
  | .sliceBistDone _ _ _ => true
  | .sliceTimeout _ _ => true
  | .sliceRetry _ _ => true
  | .bistCmd _ => true
  | .spareLaneCheck _ _ _ => true
  | .calBlkWrite _ => true
  | .calDataWrite _ => true
  | .commit _ => true
  | .discard _ => true
  | .calApply => true
  | .msixPendingSend _ => true
  | .getInfo _ _ => true
  | .logRead _ _ => true
  | .flashRead _ _ => true
  | .imageErase _ _ => true
  | .imageWrite _ _ => true
  | .imageVerify _ _ => true
  | .imagePromote _ _ => true
  | .healthRead _ _ => true
  | .lifeChallenge _ _ => true
  | .lifeAdvance _ _ => true
  | .mailboxDone _ _ => true
  | .rawCmd _ => true
  | .eventLogWrite _ => true
  | .freezeWrite _ => true
  | .snapshot _ => true
  | .userSnapshot _ => true
  | .clear _ => true
  | .clearAll _ => true
  | .ringSelWrite _ => true
  | .cdrLockLoss _ _ => true
  | .refclkPresenceChange _ => true
  | .widthCtlWrite _ => true
  | .dvfsTargetWrite _ => true
  | .testModeWrite _ _ => true
  | .localTimingWrite _ => true
  | .urgPinGlitch _ => true
  | .pcieConfigRequest _ => true

end Sys2Proof
end

