-- ==== Sys2Proof/Certificates/Slice0/Obligations.lean ====
section
/-! DEFINITION. The statements for the provers. Each names the commands that it speaks of and the rules that it states;
where a clause rests on the model's own choice its docstring names the log entry. -/

section Claims
open Sys2Proof Sys2Proof.Machine Sys2Proof.Safety

/-! ### Power, reset and boot -/

/-- VAUX_POWER_ON and VAUX_DROP (R358, R454): what both leave of OTP, flash, DRAM and link. RESET_N (R357, R358): it
resets at once when DRAM is not initialised, in Drogue mode or with a trip latched, and otherwise begins the orderly
reset; released, it ends the reset. PERST_N released after boot with a crystal (R362): the endpoint's link comes up.
RST_CMD_ORDERLY and RST_CMD_IMMEDIATE (R358) with the right key begin the orderly reset and reset at once, and with
another key do nothing. ORDERLY_RESET_DONE (R163, R358): the cause, and self-refresh with RETAINED when the contents are
kept, which they are when nothing had to be saved and a mirror is valid; a swap or row repair that holds accesses has
ended before (the model's reading, log entry 140). ORDERLY_RESET_TIMEOUT (R358): the cause, and nothing kept. -/
def Obligations.PowerAndResets : Prop :=
  (∀ s : State, s.clk.vaux = false → Gives .vauxPowerOn s fun t =>
    t.clk.vaux = true ∧ t.bootStep = 1 ∧ t.otp.array = s.otp.array ∧ t.mgmt.flash = s.mgmt.flash ∧ t.dram = []) ∧
  (∀ s : State, Gives .vauxDrop s fun t =>
    t.inReset = true ∧ t.otp.array = s.otp.array ∧ t.mgmt.flash = s.mgmt.flash ∧ t.dram = [] ∧ t.link = {}) ∧
  (∀ s : State, s.clk.vaux = true → s.clk.resetN = false → s.clk.orderly = none →
    s.clk.dramInit = false ∨ s.drogue = true ∨ s.tripped = true →
    Gives .resetNAssert s fun t => t.inReset = true ∧ t.rd R.CLK_RESET_CAUSE = 2 ∧ t.otp.array = s.otp.array ∧ t.dram = []) ∧
  (∀ s : State, s.clk.vaux = true → s.clk.resetN = false → s.clk.orderly = none → s.clk.dramInit = true → s.drogue = false →
    s.tripped = false → OnXo s → Gives .resetNAssert s fun t =>
      t.clk.orderly = some 1 ∧ t.rd R.CLK_RESET_CAUSE = s.rd R.CLK_RESET_CAUSE ∧ t.dram = s.dram ∧ t.otp = s.otp) ∧
  (∀ s : State, s.clk.vaux = true → s.clk.resetN = true → Gives .resetNDeassert s fun t =>
    t.inReset = false ∧ t.regs = s.regs ∧ t.otp = s.otp) ∧
  (∀ s : State, s.clk.vaux = true → s.clk.held = false → s.bootStep = 13 → s.xoOk = true →
    Gives .perstNDeassert s fun t =>
    t.clk.perstN = false ∧ t.on R.PCIEM_PCIE_STAT F.PCIEM_PCIE_STAT_DL_UP = true ∧ t.link = s.link ∧ t.dram = s.dram) ∧
  (∀ (s : State) path, Open s path R.CLK_RST_CMD → OnXo s → s.clk.orderly = none →
    Gives (.rstCmdOrderly path 0x0B7A) s fun t =>
      t.clk.orderly = some 2 ∧ t.rd R.CLK_RESET_CAUSE = s.rd R.CLK_RESET_CAUSE ∧ t.dram = s.dram ∧ t.otp = s.otp) ∧
  (∀ (s : State) path, Open s path R.CLK_RST_CMD → s.spare.outage = none →
    Gives (.rstCmdImmediate path 0x0B7A) s fun t =>
      t.rd R.CLK_RESET_CAUSE = 8 ∧ t.bootStep = 1 ∧ t.dram = [] ∧ t.otp.array = s.otp.array
        ∧ t.mgmt.flash = s.mgmt.flash ∧ t.rd (R.DEV_SCRATCH 0) = s.rd (R.DEV_SCRATCH 0)) ∧
  (∀ (s : State) path (key : BitVec 16), Open s path R.CLK_RST_CMD → OnXo s → key ≠ 0x0B7A →
    Gives (.rstCmdOrderly path key) s (· = s) ∧ Gives (.rstCmdImmediate path key) s (· = s)) ∧
  (∀ (s : State) n (m : LookupIn), s.clk.orderly = some n → s.clk.dramInit = true → s.drogue = false → s.tripped = false →
    s.dramHeld = false → n = 1 ∨ n = 2 → Gives (.orderlyResetDone m) s fun t =>
      t.ch.selfRefresh = (if t.place.clean then List.range 64 else []) ∧
        t.rd R.CLK_RESET_CAUSE = BitVec.ofNat 32 (2 ^ n + if t.place.clean then 256 else 0)) ∧
  (∀ (s : State) n (m : LookupIn), s.clk.orderly = some n → s.clk.dramInit = true → s.drogue = false → s.tripped = false →
    s.dramHeld = false → NoErr m → s.eng.works = [] → s.place.mig = [] → s.place.repair = [] → s.cache = {} → s.wdb = [] → s.mirrorOk false = true →
    Gives (.orderlyResetDone m) s fun t => t.place.clean = true ∧ t.place.table = s.place.table) ∧
  (∀ (s : State) n, s.clk.orderly = some n → s.spare.outage = none → n = 1 ∨ n = 2 → Gives .orderlyResetTimeout s fun t =>
      t.rd R.CLK_RESET_CAUSE = BitVec.ofNat 32 (2 ^ n) ∧ t.dram = [] ∧ t.place = {} ∧ t.ch.selfRefresh = [])

/-! ### Clocks -/

/-- XO_WAIT_EXPIRY at a wait of boot step 6 (R363): the boot stalls. XO_JUDGE_WINDOW_END (R345): a good window counts, a
bad one starts the count again, the fourth good one judges the crystal stable and, outside Drogue mode with the endpoint
in reset, makes it the reference. CLOCK_MONITOR_WINDOW_END (R346): a good window ends a run of bad ones, and the first bad
window of the crystal or of the link clock is only counted. XO_AMP_REENABLE (R347): the judgement starts again.
DROGUE_TIMEOUT (R352) shows. -/
def Obligations.CrystalAndMonitor : Prop :=
  (∀ s : State, s.inReset = false → s.bootStep = 6 → s.refSrc = 0 →
    exec .xoWaitExpiry s = .next (s.flag R.CLK_BOOT_STAT F.CLK_BOOT_STAT_STALLED true)) ∧
  (∀ (s : State) (n : BitVec 16), s.judging = true → 48500 ≤ n.toNat ∧ n.toNat ≤ 51500 →
    s.fld R.CLK_CLK_STAT F.CLK_CLK_STAT_XO_GOOD < 3 → Gives (.xoJudgeWindowEnd n) s fun t =>
      t.rd R.CLK_XO_MEAS = n.setWidth 32 ∧
      t.fld R.CLK_CLK_STAT F.CLK_CLK_STAT_XO_GOOD = s.fld R.CLK_CLK_STAT F.CLK_CLK_STAT_XO_GOOD + 1 ∧ t.xoOk = false) ∧
  (∀ (s : State) (n : BitVec 16), s.judging = true → n.toNat < 48500 ∨ 51500 < n.toNat →
    Gives (.xoJudgeWindowEnd n) s fun t =>
      t.rd R.CLK_XO_MEAS = n.setWidth 32 ∧ t.fld R.CLK_CLK_STAT F.CLK_CLK_STAT_XO_GOOD = 0 ∧ t.xoOk = false) ∧
  (∀ (s : State) (n : BitVec 16), s.judging = true → 48500 ≤ n.toNat ∧ n.toNat ≤ 51500 →
    s.fld R.CLK_CLK_STAT F.CLK_CLK_STAT_XO_GOOD = 3 → s.drogue = false → s.clk.perstN = true →
    Gives (.xoJudgeWindowEnd n) s fun t => t.xoOk = true ∧ t.refSrc = 1) ∧
  (∀ (s : State) (n : BitVec 16), s.inReset = false → s.drogue = false → s.xoOk = true → s.monBad n.toNat = false →
    exec (.clockMonitorWindowEnd .xo n) s = .next { s with clk := { s.clk with xoBad := 0 } }) ∧
  (∀ (s : State) (n : BitVec 16), s.inReset = false → s.drogue = false → s.xoOk = true → s.monBad n.toNat = true →
    s.clk.xoBad = 0 → exec (.clockMonitorWindowEnd .xo n) s = .next { s with clk := { s.clk with xoBad := 1 } }) ∧
  (∀ (s : State) (n : BitVec 16), s.inReset = false → s.drogue = false → s.linkMonRuns = true → s.monBad n.toNat = true →
    s.clk.linkBad = 0 → exec (.clockMonitorWindowEnd .link n) s = .next { s with clk := { s.clk with linkBad := 1 } }) ∧
  (∀ s : State, s.clk.ampOff = true → Gives .xoAmpReenable s fun t =>
    t.clk = { s.clk with ampOff := false } ∧ t.fld R.CLK_CLK_STAT F.CLK_CLK_STAT_XO_GOOD = 0 ∧
      RegsKept s t [] [R.CLK_CLK_STAT]) ∧
  (∀ s : State, s.drogue = true →
    exec .drogueTimeout s = .next (s.flag R.CLK_CLK_STAT F.CLK_CLK_STAT_DROGUE_EXPIRED true))

/-- REF_PCIE_SET at a wait of boot step 6 (R352, R353): the boot goes on with REFCLK as its reference. REGBUS_DIV_WRITE
(R354) with REF_PCIE clear: the division is stored. PLL_UNLOCK (R364) of a locked PLL. FMC_START and FMC_DONE (R344) with
a reference clock that runs: the count, 0 for a measured clock that does not run. TOSC_TRACK (R401) of a count within 0.25
%: it is shown, and TRIM stays. REFCLK_PRESENCE_CHANGE (R342) on the crystal with the endpoint in reset. -/
def Obligations.ReferencesAndMeasurement : Prop :=
  (∀ (s : State) w, Open s w.path R.CLK_CLK_CTL → s.refPcie = false → s.refclkPresent = true → s.drogue = false →
    s.bootStep = 6 → s.refSrc = 0 → s.xoOk = false → Gives (.refPcieSet w) s fun t =>
      t.refSrc = 3 ∧ t.refPcie = true ∧ t.on R.CLK_BOOT_STAT F.CLK_BOOT_STAT_STALLED = false ∧ t.pllLock 4 = true) ∧
  (∀ (s : State) w, Open s w.path R.CLK_CLK_CTL → OnXo s → F.CLK_CLK_CTL_REF_PCIE.get w.value = 0 →
    Gives (.regbusDivWrite w) s fun t =>
      t.fld R.CLK_CLK_CTL F.CLK_CLK_CTL_REGBUS_DIV = F.CLK_CLK_CTL_REGBUS_DIV.get w.value ∧ t.dram = s.dram ∧
        RegsKept s t [] [R.CLK_CLK_CTL]) ∧
  (∀ (s : State) p, s.pllLock (pllBit p) = true → Gives (.pllUnlock p) s fun t =>
      t.pllLock (pllBit p) = false ∧ t.clk.unlocked = s.clk.unlocked ++ [pllBit p] ∧
        RegsKept s t [] [R.CLK_CLK_STAT]) ∧
  (∀ (s : State) w, Open s w.path R.CLK_FMC_CTL → OnXo s → Gives (.fmcStart w) s fun t =>
      t.clk = { s.clk with fmcBusy := true } ∧ t.on R.CLK_FMC_RESULT F.CLK_FMC_RESULT_DONE = false) ∧
  (∀ (s : State) (n : BitVec 31), s.clk.fmcBusy = true → s.clockRuns (s.fld R.CLK_FMC_CTL F.CLK_FMC_CTL_REF_SEL) = true →
    Gives (.fmcDone n) s fun t => t.clk.fmcBusy = false ∧ t.on R.CLK_FMC_RESULT F.CLK_FMC_RESULT_DONE = true ∧
      t.fld R.CLK_FMC_RESULT F.CLK_FMC_RESULT_COUNT
        = if s.clockRuns (s.fld R.CLK_FMC_CTL F.CLK_FMC_CTL_MEAS_SEL) then n.toNat else 0) ∧
  (∀ (s : State) (n : BitVec 23), s.inReset = false → s.xoOk = true → s.on R.CAL_TOSC_CTL F.CAL_TOSC_CTL_TRACK_EN = true →
    6 ≤ s.bootStep → 3990000 ≤ n.toNat ∧ n.toNat ≤ 4010000 →
    exec (.toscTrack n) s = .next (s.put R.CAL_TOSC_STAT F.CAL_TOSC_STAT_LAST_COUNT n.toNat)) ∧
  (∀ (s : State) b, s.clk.vaux = true → Calm s → OnXo s → s.clk.perstN = true → Gives (.refclkPresenceChange b) s fun t =>
      t.refclkPresent = b ∧ t.dram = s.dram ∧ t.refSrc = 1)

/-- GATE_REQUEST of an open page of the perf, calibration, scrub, measurement or flash block (R355): out of reset it
gates at once, and with its bus interface busy it waits; GATE_DENIED: a request that waited is withdrawn, counted and named in GATE_LAST,
one of a block in reset goes on waiting, and the power controller's own request is counted and made again 1 ms later;
GATE_OPEN (R356) of one whose gate was asked for. BLOCK_RESET of the scrub page (R9, R222): a running retest and the
patrol's place stay, and so do DRAM and another page's register. PG_ENABLE_WRITE (R409): ENABLE of those pages changes no
register, and on an engine's page it is ENG_CTL.EN. -/
def Obligations.GatesAndBlocks : Prop :=
  (∀ (s : State) path pg, pg ∈ ([0x00A, 0x009, 0x016, 0x012, 0x011] : List Nat) → Open s path (State.pgCtl pg) →
    s.on (State.pgCtl pg) State.pgGateReq = false → s.on (pgStat pg) State.pgInReset = false →
    Gives (.gateRequest path (BitVec.ofNat 10 pg) false) s fun t =>
      t.on (pgStat pg) State.pgGated = true ∧ t.on (State.pgCtl pg) State.pgGateReq = true ∧ t.dram = s.dram) ∧
  (∀ (s : State) path pg, pg ∈ ([0x00A, 0x009, 0x016, 0x012, 0x011] : List Nat) → Open s path (State.pgCtl pg) →
    s.on (State.pgCtl pg) State.pgGateReq = false →
    Gives (.gateRequest path (BitVec.ofNat 10 pg) true) s fun t =>
      pg ∈ t.clk.gateWait ∧ t.on (pgStat pg) State.pgGated = s.on (pgStat pg) State.pgGated) ∧
  (∀ (s : State) (pg : BitVec 10), s.clk.gateWait.contains pg.toNat = true →
    s.on (pgStat pg.toNat) State.pgInReset = false → Gives (.gateDenied pg) s fun t =>
      pg.toNat ∉ t.clk.gateWait ∧ t.on (State.pgCtl pg.toNat) State.pgGateReq = false ∧
        t.rd R.CLK_GATE_LAST = BitVec.ofNat 32 pg.toNat ∧ t.rd R.CLK_GATE_DENIALS = s.rd R.CLK_GATE_DENIALS + 1) ∧
  (∀ (s : State) (pg : BitVec 10), s.on (pgStat pg.toNat) State.pgInReset = true → exec (.gateDenied pg) s = .next s) ∧
  (∀ (s : State) (pg : BitVec 10), s.clk.gateWait.contains pg.toNat = false → s.on (pgStat pg.toNat) State.pgInReset = false →
    s.hwGateReq pg.toNat = true → s.clk.hwGates.contains pg.toNat = false → s.clk.hwRetry = [] →
    Gives (.gateDenied pg) s fun t =>
      t.clk = { s.clk with hwRetry := [(pg.toNat, s.clk.up + 1000000)] } ∧ t.rd R.CLK_GATE_LAST = BitVec.ofNat 32 pg.toNat ∧
        t.rd R.CLK_GATE_DENIALS = s.rd R.CLK_GATE_DENIALS + 1 ∧ RegsKept s t [] [R.CLK_GATE_LAST, R.CLK_GATE_DENIALS]) ∧
  (∀ (s : State) path pg, pg ∈ ([0x00A, 0x009, 0x016, 0x012, 0x011] : List Nat) → Open s path (State.pgCtl pg) →
    s.on (State.pgCtl pg) State.pgGateReq = true →
    Gives (.gateOpen path (BitVec.ofNat 10 pg)) s fun t =>
      t.on (pgStat pg) State.pgGated = false ∧ t.on (State.pgCtl pg) State.pgGateReq = false ∧ t.dram = s.dram) ∧
  (∀ (s : State) path, Open s path (State.pgCtl 0x016) → Gives (.blockReset path 0x016) s fun t =>
      t.ch.scrubRun = s.ch.scrubRun.filter ScrubRun.retest ∧ t.ch.walk = s.ch.walk ∧ t.dram = s.dram ∧ t.rd R.PLACE_POL_CTL = s.rd R.PLACE_POL_CTL) ∧
  (∀ (s : State) path en pg, pg ∈ ([0x00A, 0x009, 0x016, 0x012, 0x011] : List Nat) → Open s path (State.pgCtl pg) →
    s.on (State.pgCtl pg) State.pgGateReq = false →
    Gives (.pgEnableWrite path (BitVec.ofNat 10 pg) en) s fun t => t.dram = s.dram ∧ RegsKept s t [] []) ∧
  (∀ (s : State) path en (e : Fin 36), Open s path (State.pgCtl (engPg e)) → Calm s → NoTest s →
    s.on (State.pgCtl (engPg e)) State.pgGateReq = false →
    Gives (.pgEnableWrite path (BitVec.ofNat 10 (engPg e)) en) s fun t =>
      t.on (R.ENG_ENG_CTL e) F.ENG_ENG_CTL_EN = en ∧ t.dram = s.dram)

/-! ### The boot sequence -/

/-- BOOT_STEP_COMPLETE (R361, R452) while no reset, trip or stall holds the boot: step 1 goes on to 2; step 3 samples the
straps and goes on with every rail in its window, and otherwise marks the rails and waits; step 10 without a failing unit
goes on to 11; a stalled step does not end. RAIL_OUT_OF_WINDOW (R454) marks the rail with its reading, and
BOOT_RAIL_WAIT_EXPIRY (R452) stalls step 3. -/
def Obligations.BootSteps : Prop :=
  (∀ (s : State) b, s.inReset = false → s.drogue = false → s.tripped = false → s.stalled = false → s.clk.orderly = none →
    Calm s → s.bootStep = 1 → Gives (.bootStepComplete b) s fun t =>
      t.bootStep = 2 ∧ MemKept s t ∧ RegsKept s t [0x014] [R.CLK_BOOT_STAT]) ∧
  (∀ (s : State) b, s.inReset = false → s.drogue = false → s.tripped = false → s.stalled = false → s.clk.orderly = none →
    Calm s → s.bootStep = 3 → b.railsOut = [] → Gives (.bootStepComplete b) s fun t =>
      t.bootStep = 4 ∧ t.clk.straps = b.straps.toNat ∧ t.clk.railWait = false ∧ MemKept s t ∧
        ∀ r : Fin 7, t.on (R.PWR_RAIL_MON r) F.PWR_RAIL_MON_OUT = false) ∧
  (∀ (s : State) b (r : Fin 7), s.inReset = false → s.drogue = false → s.tripped = false → s.stalled = false →
    s.clk.orderly = none → Calm s → s.bootStep = 3 → r ∈ b.railsOut → Gives (.bootStepComplete b) s fun t =>
      t.bootStep = 3 ∧ t.clk.railWait = true ∧ t.on (R.PWR_RAIL_MON r) F.PWR_RAIL_MON_OUT = true ∧ MemKept s t) ∧
  (∀ (s : State) b, s.inReset = false → s.drogue = false → s.tripped = false → s.stalled = false → s.clk.orderly = none →
    Calm s → s.bootStep = 10 → b.bist = [] → Gives (.bootStepComplete b) s fun t =>
      t.bootStep = 11 ∧ t.rd R.BIST_BOOT_FAILS = 0 ∧ t.on R.BIST_BIST_STAT F.BIST_BIST_STAT_BOOT_DONE = true ∧ MemKept s t) ∧
  (∀ (s : State) b, s.stalled = true → Calm s → Gives (.bootStepComplete b) s fun t =>
      MemKept s t ∧ RegsKept s t [0x014] [] ∧ t.bootStep = s.bootStep) ∧
  (∀ (s : State) (r : Fin 7) mv, s.inReset = false → Gives (.railOutOfWindow r mv) s fun t =>
      t.fld (R.PWR_RAIL_MON r) F.PWR_RAIL_MON_MV = mv.toNat ∧ t.on (R.PWR_RAIL_MON r) F.PWR_RAIL_MON_OUT = true ∧
        MemKept s t ∧ RegsKept s t [] [R.PWR_RAIL_MON r]) ∧
  (∀ s : State, s.clk.railWait = true → s.bootStep = 3 → s.inReset = false →
    exec .bootRailWaitExpiry s = .next (s.flag R.CLK_BOOT_STAT F.CLK_BOOT_STAT_STALLED true))

/-! ### Lanes: training, markers and parking -/

/-- On the crystal with nothing waiting for a ladder. TRAINING_START at boot step 12 from OFF: DETECT. TRAINING_STATE_DONE
of COARSE records the failed lanes and goes on to MARK; PARAM goes on to VERIFY, loop-timed, once PARAM has agreed, and
stays until then (R44). TRAINING_TIMEOUT (R44): of a state of an attempt before the fourth, COARSE with one attempt more
and its failed lanes dropped; of the fourth, DETECT with the training failed; of RECOVER, COARSE with a first attempt.
MARKER_LOCK_LOST outside ACTIVE (R32) clears the lane's lock. CDR_LOCK_LOSS of the reference lane in ACTIVE starts the
holdover, and REF_LANE_HOLDOVER_END moves the reference to another lane or, without one, ends loop timing (R40). -/
def Obligations.LinkTraining : Prop :=
  (∀ s : State, s.xoOk = true → s.refSrc = 1 → Calm s → s.bootStep = 12 → s.linkState = 0 → s.drogue = false →
    s.linkHeld = false → Gives .trainingStart s fun t =>
      t.linkState = 1 ∧ t.link.attempts = 0 ∧ t.link.failed = false ∧ t.loopTimed = false ∧ MemKept s t) ∧
  (∀ (s : State) x, OnXo s → Calm s → s.linkState = 2 → Gives (.trainingStateDone x) s fun t =>
      t.linkState = 3 ∧ t.link.badRx = s.link.badRx ++ x.failRx.map (fun p => 10 * p.1.val + p.2.val) ∧
        t.link.badTx = s.link.badTx ++ x.failTx.map (fun p => 10 * p.1.val + p.2.val) ∧ MemKept s t) ∧
  (∀ (s : State) x, OnXo s → Calm s → s.linkState = 5 → s.paramDone = true →
    s.on (R.TXG_GRP_CTL 0) F.TXG_GRP_CTL_LOCAL_TIMING = false → Gives (.trainingStateDone x) s fun t =>
      t.linkState = 6 ∧ t.loopTimed = true ∧ t.link.precodeRx = true ∧ MemKept s t) ∧
  (∀ (s : State) x, OnXo s → Calm s → s.linkState = 5 → s.paramDone = false → Gives (.trainingStateDone x) s fun t =>
      t.linkState = 5 ∧ t.loopTimed = s.loopTimed ∧ t.link.precodeTx = s.link.precodeTx ∧ t.link.badRx = s.link.badRx ∧
        MemKept s t) ∧
  (∀ (s : State) x, OnXo s → Calm s → 2 ≤ s.linkState ∧ s.linkState ≤ 6 → s.link.attempts < 3 →
    Gives (.trainingTimeout x) s fun t =>
      t.linkState = 2 ∧ t.link.attempts = s.link.attempts + 1 ∧
      t.link.badRx = s.link.badRx ++ x.failRx.map (fun p => 10 * p.1.val + p.2.val) ∧ t.loopTimed = false ∧ t.link.failed = s.link.failed ∧ MemKept s t) ∧
  (∀ (s : State) x, OnXo s → Calm s → 2 ≤ s.linkState ∧ s.linkState ≤ 6 → s.link.attempts = 3 →
    Gives (.trainingTimeout x) s fun t => t.linkState = 1 ∧ t.link.failed = true ∧ MemKept s t) ∧
  (∀ (s : State) x, OnXo s → Calm s → s.linkState = 8 → Gives (.trainingTimeout x) s fun t =>
      t.linkState = 2 ∧ t.link.attempts = 0 ∧ t.loopTimed = false ∧ MemKept s t) ∧
  (∀ (s : State) (g : Fin 8) (l : Fin 10), OnXo s → Calm s → s.linkState ≠ 7 →
    s.on (R.RXG_RXL_STAT g l) F.RXG_RXL_STAT_MARK_LOCK = true → Gives (.markerLockLost g l) s fun t =>
      t.on (R.RXG_RXL_STAT g l) F.RXG_RXL_STAT_MARK_LOCK = false ∧ t.link = s.link ∧ MemKept s t ∧
        RegsKept s t [0x014] [R.RXG_RXL_STAT g l, R.RXG_GRP_STAT g]) ∧
  (∀ (s : State) (g : Fin 8) (l : Fin 10), OnXo s → Calm s → s.on (R.RXG_RXL_STAT g l) F.RXG_RXL_STAT_CDR_LOCK = true →
    s.linkActive = true → s.loopTimed = true → s.link.ref = some (g.val, l.val) → Gives (.cdrLockLoss g l) s fun t =>
      t.on (R.RXG_RXL_STAT g l) F.RXG_RXL_STAT_CDR_LOCK = false ∧ t.clk.holdover = true ∧ MemKept s t ∧
        RegsKept s t [0x014] [R.RXG_RXL_STAT g l]) ∧
  (∀ s : State, OnXo s → Calm s → s.clk.holdover = true → s.newRef = none → Gives .refLaneHoldoverEnd s fun t =>
      t.clk.holdover = false ∧ t.loopTimed = false ∧ t.link = { s.link with ref := none } ∧ MemKept s t) ∧
  (∀ (s : State) r, OnXo s → Calm s → s.clk.holdover = true → s.newRef = some r → Gives .refLaneHoldoverEnd s fun t =>
      t.clk.holdover = false ∧ (∀ g : Fin 8, t.on (R.RXG_GRP_STAT g) F.RXG_GRP_STAT_CLK_REF = decide (g.val = r.1)) ∧
        t.loopTimed = s.loopTimed ∧ t.link = { s.link with ref := some r } ∧ MemKept s t)

/-- EQ_REQ in EQ (R35): on a lane without EQ_OVR each preset sets its coefficients, whatever the lane held, and is
answered with EQ_ACK, whose bit 11 is 0; a request that would break a limit, here one step up of a main tap of 63, is
answered with bit 11 set and is not applied. -/
def Obligations.TransmitEqualisation : Prop :=
  (∀ (s : State) (g : Fin 8) (l : Fin 10) (p : Fin 8), s.linkState = 4 →
    s.on (R.TXG_TXL_CTL g l) F.TXG_TXL_CTL_EQ_OVR = false →
    Gives (.eqReq g (BitVec.ofNat 12 (l + 128 * 3 + 512 * p))) s fun t =>
      t.fld (R.TXG_TXL_EQ g l) F.TXG_TXL_EQ_PRE2 = 0 ∧
      (t.fld (R.TXG_TXL_EQ g l) F.TXG_TXL_EQ_PRE1, t.fld (R.TXG_TXL_EQ g l) F.TXG_TXL_EQ_MAIN,
        t.fld (R.TXG_TXL_EQ g l) F.TXG_TXL_EQ_POST1)
        = ([(0, 63, 0), (0, 57, 6), (0, 51, 12), (6, 51, 6), (6, 45, 12), (8, 43, 12), (4, 47, 12), (10, 41, 12)] : List _).getD
            p (0, 0, 0) ∧
      SMap.get (fun _ => 0) t.link.ack g = 3 * 4096 + (l + 128 * 3 + 512 * p) % 2048 ∧
      MemKept s t ∧ RegsKept s t [] [R.TXG_TXL_EQ g l]) ∧
  (∀ (s : State) (g : Fin 8) (l : Fin 10), s.linkState = 4 → s.fld (R.TXG_TXL_EQ g l) F.TXG_TXL_EQ_MAIN = 63 →
    Gives (.eqReq g (BitVec.ofNat 12 (l + 16 * 2 + 128 * 1))) s fun t =>
      t.regs = s.regs ∧ MemKept s t ∧ SMap.get (fun _ => 0) t.link.ack g = 3 * 4096 + 2048 + (l + 16 * 2 + 128 * 1))

/-- What arrives on the lanes outside frames. EQ_ACK in EQ (R35), PARAM in PARAM (R29), which counts equal ones in a row,
and TRAIN in a training state but EQ (R44) are held as received. EIDLE (R47) freezes the group. EXIT (R49) of a parked
group that is neither STALE nor off: a first marker or one out of order starts the run, the second in order counts, the
third gives marker lock. GROUP_READY (R49): a parked group can join, its skew shown for a receive group, and one that can
only join through RECOVER takes an ACTIVE link there. KEEPALIVE_SEND and KEEPALIVE (R50): a burst is sent, and a received
one adapts the CTLE unless it is overridden; KEEPALIVE_MISSED a third time makes the group STALE and unusable, through
RECOVER when the link is ACTIVE. PAD_FRAME_INSERT outside loop timing (R42) is counted; PAD does nothing. -/
def Obligations.LaneMarkers : Prop :=
  (∀ (s : State) (g : Fin 8) arg, s.linkState = 4 → Gives (.eqAck g arg) s fun t =>
      SMap.get (fun _ => 0) t.link.eqAck g = arg.toNat ∧ t.regs = s.regs ∧ MemKept s t) ∧
  (∀ (s : State) (g : Fin 8) arg, s.linkState = 5 → Gives (.param g arg) s fun t =>
      SMap.get (fun _ => 0) t.link.hostParam g = arg.toNat ∧ SMap.get (fun _ => 0) t.link.paramSeen g =
        (if 0 < SMap.get (fun _ => 0) s.link.paramSeen g ∧ SMap.get (fun _ => 0) s.link.hostParam g = arg.toNat
          then SMap.get (fun _ => 0) s.link.paramSeen g + 1 else 1) ∧ t.regs = s.regs ∧ MemKept s t) ∧
  (∀ (s : State) (g : Fin 8) arg, s.inTraining = true → s.linkState ≠ 4 → Gives (.train g arg) s fun t =>
      SMap.get (fun _ => 0) t.link.hostTrain g = arg.toNat ∧ t.regs = s.regs ∧ MemKept s t) ∧
  (∀ (s : State) (g : Fin 8), Gives (.eidle g) s fun t =>
      g.val ∈ t.link.frozen ∧ g.val ∉ t.link.ready ∧ SMap.get (fun _ => 0) t.link.exits g = 0 ∧ t.regs = s.regs ∧ MemKept s t) ∧
  (∀ (s : State) (g : Fin 8) b, s.parked .rx g = true → s.stale .rx g = false → s.groupOff .rx g = false →
    s.exitRun g = 0 ∨ b.toNat ≠ SMap.get (fun _ => 0) s.link.exits g % 4 + 1 → Gives (.exit g b) s fun t =>
      SMap.get (fun _ => 0) t.link.exits g = 4 * 1 + b.toNat ∧ t.link.frozen = s.link.frozen ∧
        t.regs = s.regs ∧ MemKept s t) ∧
  (∀ (s : State) (g : Fin 8) b, s.parked .rx g = true → s.stale .rx g = false → s.groupOff .rx g = false →
    s.exitRun g = 1 → b.toNat = SMap.get (fun _ => 0) s.link.exits g % 4 + 1 → Gives (.exit g b) s fun t =>
      SMap.get (fun _ => 0) t.link.exits g = 4 * 2 + b.toNat ∧ t.link.frozen = s.link.frozen ∧
        t.regs = s.regs ∧ MemKept s t) ∧
  (∀ (s : State) (g : Fin 8) b, s.parked .rx g = true → s.stale .rx g = false → s.groupOff .rx g = false →
    2 ≤ s.exitRun g → b.toNat = SMap.get (fun _ => 0) s.link.exits g % 4 + 1 → Gives (.exit g b) s fun t =>
      t.on (R.RXG_GRP_STAT g) F.RXG_GRP_STAT_MARKER_LOCK = true ∧ g.val ∉ t.link.frozen ∧ MemKept s t) ∧
  (∀ (s : State) (d : Dir) (g : Fin 8) skew line, OnXo s → Calm s → s.parked d g = true → s.stale d g = false →
    s.groupOff d g = false → s.joinsByRecover d g = false → (d = .rx → 3 ≤ s.exitRun g) →
    Gives (.groupReady d g skew line) s fun t =>
      8 * dirIx d + g.val ∈ t.link.ready ∧ t.link.exits = s.link.exits ∧
        (d = .rx → t.fld (R.RXG_GRP_STAT g) F.RXG_GRP_STAT_SKEW_UI = skew.toNat) ∧ MemKept s t ∧
        RegsKept s t [0x014] [R.RXG_GRP_STAT g]) ∧
  (∀ (s : State) (d : Dir) (g : Fin 8) skew line, OnXo s → Calm s → s.linkActive = true → s.joinsByRecover d g = true →
    Gives (.groupReady d g skew line) s fun t => t.linkState = 8 ∧ MemKept s t) ∧
  (∀ (s : State) (g : Fin 8), s.parked .tx g = true → s.groupOff .tx g = false → Gives (.keepaliveSend g) s fun t =>
      SMap.get (fun _ => 0) t.link.markers g = 12 * 4096 ∧ t.regs = s.regs ∧ MemKept s t) ∧
  (∀ (s : State) (g : Fin 8) adapt, s.parked .rx g = true → s.groupOff .rx g = false → Gives (.keepalive g adapt) s fun t =>
      g.val ∈ t.link.frozen ∧ t.link.ready = s.link.ready ∧ RegsKept s t [0x088 + g.val] [] ∧ MemKept s t) ∧
  (∀ (s : State) (g : Fin 8) (l : Fin 10) p n, s.parked .rx g = true → s.groupOff .rx g = false →
    s.on (R.RXG_RXL_CTL g l) F.RXG_RXL_CTL_CTLE_OVR = false → Gives (.keepalive g [(l, ⟨some (p, n), []⟩)]) s fun t =>
      t.fld (R.RXG_RXL_CTLE g l) F.RXG_RXL_CTLE_PEAK = p.toNat ∧ t.fld (R.RXG_RXL_CTLE g l) F.RXG_RXL_CTLE_GAIN = n.toNat ∧
        RegsKept s t [] [R.RXG_RXL_CTLE g l]) ∧
  (∀ (s : State) (g : Fin 8), OnXo s → Calm s → s.parked .rx g = true → s.groupOff .rx g = false → s.linkActive = false →
    Gives (.keepaliveMissed g) s fun t =>
      t.stale .rx g = true ∧ t.usable .rx g = false ∧ t.link = s.link ∧ MemKept s t ∧
        RegsKept s t [0x014] [R.RXG_GRP_STAT g, R.LINK_GROUP_USABLE]) ∧
  (∀ (s : State) (g : Fin 8), OnXo s → Calm s → s.parked .rx g = true → s.groupOff .rx g = false → s.linkActive = true →
    Gives (.keepaliveMissed g) s fun t =>
      t.stale .rx g = true ∧ t.usable .rx g = false ∧ t.linkState = 8 ∧ MemKept s t) ∧
  (∀ s : State, s.linkActive = true → s.loopTimed = false → Gives .padFrameInsert s fun t =>
      t.rd (R.TXG_PAD_CNT 0) = s.rd (R.TXG_PAD_CNT 0) + 1 ∧ t.link.frame = [] ∧ MemKept s t ∧
        RegsKept s t [] [R.TXG_PAD_CNT 0]) ∧
  (∀ s : State, exec .pad s = .next s)

/-! ### Lanes: hitless sparing, injection and the eye monitor -/

/-- Hitless sparing of a receive lane (R53, R54). SPARE_CMD_START on a data lane of an ACTIVE link with a spare asks for
its shadow; SHADOW_ACK of that lane starts the adaptation, SPARING_ADAPT_DONE the comparison, and SPARING_COMPARE_DONE
with at most 4 mismatches the switch; SWITCH after the last marker of its countdown puts the spare in the lane's place in
the order, and before it does nothing; RELEASE ends it with the lane retired and no spare left. SPARING_ACK_TIMEOUT and
SPARE_CMD_ABORT before the switch end it aborted; SPARING_ADAPT_TIMEOUT and more than 4 mismatches end it failed with
lanes and spare as they were. -/
def Obligations.HitlessSparing : Prop :=
  (∀ (s : State) path (g : Fin 8) (lane : BitVec 4), Open s path (R.RXG_SPARE_CMD g) → OnXo s → Calm s → s.linkActive = true →
    s.sparingRuns .rx g = false → s.spareLane .rx g ≠ 15 → lane.toNat ∈ s.dataLanes .rx g →
    Gives (.spareCmdStart path g lane) s fun t =>
      t.sparePhase g = 1 ∧ t.spareOf g = lane.toNat ∧ t.fld (R.RXG_SPARE_STAT g) F.RXG_SPARE_STAT_MISMATCH = 0 ∧
        SMap.get (fun _ => 0) t.link.ctl g = 5 * 4096 + lane.toNat ∧ t.dataLanes .rx g = s.dataLanes .rx g ∧
        MemKept s t ∧ RegsKept s t [0x014] [R.RXG_SPARE_STAT g]) ∧
  (∀ (s : State) path (g : Fin 8), Open s path (R.RXG_SPARE_CMD g) → OnXo s → Calm s → 1 ≤ s.sparePhase g ∧ s.sparePhase g ≤ 3 →
    Gives (.spareCmdAbort path g) s fun t =>
      t.sparePhase g = 6 ∧ t.dataLanes .rx g = s.dataLanes .rx g ∧ MemKept s t) ∧
  (∀ (s : State) (g : Fin 8) (lane : BitVec 4), s.sparePhase g = 1 → s.spareOf g = lane.toNat →
    s.spareLane .rx g < 10 → Gives (.shadowAck g lane) s fun t =>
      t.sparePhase g = 2 ∧ t.on (R.RXG_RXL_STAT g (s.spareLane .rx g)) F.RXG_RXL_STAT_SHADOW = true ∧ t.link = s.link ∧
        MemKept s t ∧ RegsKept s t [] [R.RXG_SPARE_STAT g, R.RXG_RXL_STAT g (s.spareLane .rx g)]) ∧
  (∀ (s : State) (g : Fin 8), OnXo s → Calm s → s.sparePhase g = 1 → Gives (.sparingAckTimeout g) s fun t =>
      t.sparePhase g = 6 ∧ SMap.get (fun _ => 0) t.link.ctl g = 0 ∧ t.dataLanes .rx g = s.dataLanes .rx g ∧ MemKept s t) ∧
  (∀ (s : State) (g : Fin 8), s.sparePhase g = 2 → Gives (.sparingAdaptDone g) s fun t =>
      t.sparePhase g = 3 ∧ t.spareOf g = s.spareOf g ∧ t.fld (R.RXG_SPARE_STAT g) F.RXG_SPARE_STAT_MISMATCH = 0 ∧
        t.link = s.link ∧ MemKept s t ∧
        RegsKept s t [] [R.RXG_SPARE_STAT g, R.RXG_RXL_STAT g (s.spareLane .rx g)]) ∧
  (∀ (s : State) (g : Fin 8), OnXo s → Calm s → s.sparePhase g = 2 → s.declared (resLane false g (s.spareOf g)) = false →
    Gives (.sparingAdaptTimeout g) s fun t =>
      t.sparePhase g = 7 ∧ SMap.get (fun _ => 0) t.link.ctl g = 8 * 4096 + s.spareOf g ∧
        t.dataLanes .rx g = s.dataLanes .rx g ∧ t.spareLane .rx g = s.spareLane .rx g ∧ MemKept s t) ∧
  (∀ (s : State) (g : Fin 8) (n : BitVec 16), OnXo s → Calm s → s.sparePhase g = 3 → n.toNat ≤ 4 →
    Gives (.sparingCompareDone g n) s fun t =>
      t.sparePhase g = 4 ∧ t.fld (R.RXG_SPARE_STAT g) F.RXG_SPARE_STAT_MISMATCH = n.toNat ∧
        SMap.get (fun _ => 0) t.link.ctl g = 7 * 4096 + 8 * 16 + s.spareOf g ∧ MemKept s t ∧
        RegsKept s t [0x014] [R.RXG_SPARE_STAT g]) ∧
  (∀ (s : State) (g : Fin 8) (n : BitVec 16), OnXo s → Calm s → s.sparePhase g = 3 → 4 < n.toNat →
    s.declared (resLane false g (s.spareOf g)) = false → Gives (.sparingCompareDone g n) s fun t =>
      t.sparePhase g = 7 ∧ t.fld (R.RXG_SPARE_STAT g) F.RXG_SPARE_STAT_MISMATCH = n.toNat ∧
        t.dataLanes .rx g = s.dataLanes .rx g ∧ t.spareLane .rx g = s.spareLane .rx g ∧ MemKept s t) ∧
  (∀ (s : State) (g : Fin 8) a, s.sparePhase g = 4 → s.switchSent g (s.spareOf g) = true →
    Gives (.switch .rx g a) s fun t =>
      t.sparePhase g = 5 ∧ SMap.get (fun _ => 0) t.link.ctl g = 8 * 4096 + s.spareOf g ∧ MemKept s t ∧
        t.dataLanes .rx g = (s.dataLanes .rx g).map (fun l => if l = s.spareOf g then s.spareLane .rx g else l) ∧
        RegsKept s t [] (R.RXG_SPARE_STAT g :: groups.map R.RXG_GRP_STAT)) ∧
  (∀ (s : State) (g : Fin 8) a, s.sparePhase g = 4 → s.switchSent g (s.spareOf g) = false →
    exec (.switch .rx g a) s = .next s) ∧
  (∀ (s : State) (g : Fin 8), OnXo s → Calm s → s.sparePhase g = 5 → s.spareOf g < 10 →
    Gives (.release .rx g) s fun t =>
      t.sparePhase g = 0 ∧ t.retiredLane .rx g (s.spareOf g) = true ∧ t.spareLane .rx g = 15 ∧
        t.dataLanes .rx g = s.dataLanes .rx g ∧ MemKept s t)

/-- The transmitter's part in the host's sparing (R53): SHADOW_REQ of a data lane, on an ACTIVE link with a spare, shadows
it and is acknowledged; SWITCH of that lane at count 0 puts the spare in its place in the order; RELEASE after the switch
retires the lane. -/
def Obligations.TransmitSparing : Prop :=
  (∀ (s : State) (g : Fin 8) (lane : BitVec 4), s.linkActive = true → s.spareLane .tx g ≠ 15 →
    lane.toNat ∈ s.dataLanes .tx g → lane.toNat ≠ s.spareLane .tx g → Gives (.shadowReq g lane) s fun t =>
      SMap.get (fun _ => none) t.link.shadowTx g = some ⟨lane.toNat, false⟩ ∧
        t.on (R.TXG_GRP_STAT g) F.TXG_GRP_STAT_SHADOW = true ∧
        SMap.get (fun _ => 0) t.link.ack g = 6 * 4096 + lane.toNat ∧ MemKept s t ∧ RegsKept s t [] [R.TXG_GRP_STAT g]) ∧
  (∀ (s : State) (g : Fin 8) l, SMap.get (fun _ => none) s.link.shadowTx g = some ⟨l, false⟩ → l < 10 →
    Gives (.switch .tx g (BitVec.ofNat 12 l)) s fun t =>
      t.dataLanes .tx g = (s.dataLanes .tx g).map (fun x => if x = l then s.spareLane .tx g else x) ∧
        SMap.get (fun _ => none) t.link.shadowTx g = some ⟨l, true⟩ ∧ SMap.get (fun _ => 0) t.link.ack g = 0 ∧
        t.regs = s.regs ∧ MemKept s t) ∧
  (∀ (s : State) (g : Fin 8) l, OnXo s → Calm s → l < 10 →
    SMap.get (fun _ => none) s.link.shadowTx g = some ⟨l, true⟩ → Gives (.release .tx g) s fun t =>
      SMap.get (fun _ => none) t.link.shadowTx g = none ∧ t.on (R.TXG_GRP_STAT g) F.TXG_GRP_STAT_SHADOW = false ∧
        t.retiredLane .tx g l = true ∧ t.spareLane .tx g = 15 ∧ MemKept s t ∧
        RegsKept s t [0x014] [R.TXG_GRP_STAT g, R.LINK_WIDTH_STAT])

/-- INJ_ONE and INJ_BURST queue 1 and COUNT + 1 inversions of the lane (R58). MARGIN_START and MARGIN_DONE: a measurement
starts and ends with its count (R38). EYE_UPDATE in ACTIVE shows the eye, and on a frozen group changes nothing else (R38,
R47). TEST_MODE_WRITE on a parked or powered-off group with its link not ACTIVE puts both directions in TEST (R44).
LOCAL_TIMING_WRITE in ACTIVE, TEST_MODE clear, takes the transmitter to local timing (R41). -/
def Obligations.LaneTools : Prop :=
  (∀ (s : State) path (g : Fin 8) (l : Fin 10), Open s path (R.TXG_TXL_INJ g l) → OnXo s → Calm s →
    Gives (.injOne path g l) s fun t =>
      SMap.get (fun _ => 0) t.link.inject (10 * g.val + l.val) = SMap.get (fun _ => 0) s.link.inject (10 * g.val + l.val) + 1 ∧
        MemKept s t ∧ RegsKept s t [0x014] []) ∧
  (∀ (s : State) path (g : Fin 8) (l : Fin 10) (n : BitVec 6), Open s path (R.TXG_TXL_INJ g l) → OnXo s → Calm s →
    Gives (.injBurst path g l n) s fun t =>
      SMap.get (fun _ => 0) t.link.inject (10 * g.val + l.val)
        = SMap.get (fun _ => 0) s.link.inject (10 * g.val + l.val) + (n.toNat + 1) ∧
        MemKept s t ∧ RegsKept s t [0x014] []) ∧
  (∀ (s : State) (g : Fin 8) (l : Fin 10) w, Open s w.path (R.RXG_RXL_MARGIN g l) → OnXo s → Calm s →
    Gives (.marginStart g l w) s fun t =>
      10 * g.val + l.val ∈ t.link.margins ∧ t.on (R.RXG_RXL_MARGIN g l) F.RXG_RXL_MARGIN_DONE = false ∧ MemKept s t ∧
        RegsKept s t [0x014] [R.RXG_RXL_MARGIN g l]) ∧
  (∀ (s : State) (g : Fin 8) (l : Fin 10) n, 10 * g.val + l.val ∈ s.link.margins → Gives (.marginDone g l n) s fun t =>
      t.rd (R.RXG_RXL_MARGIN_CNT g l) = n ∧ t.on (R.RXG_RXL_MARGIN g l) F.RXG_RXL_MARGIN_DONE = true ∧
        10 * g.val + l.val ∉ t.link.margins ∧ MemKept s t ∧
        RegsKept s t [] [R.RXG_RXL_MARGIN g l, R.RXG_RXL_MARGIN_CNT g l]) ∧
  (∀ (s : State) (g : Fin 8) (l : Fin 10) eye a, s.linkActive = true → g.val ∈ s.link.frozen →
    exec (.eyeUpdate g l eye a) s = .next (s.wr (R.RXG_RXL_EYE g l) (eye.setWidth 32))) ∧
  (∀ (s : State) (g : Fin 8) (l : Fin 10) eye a, s.linkActive = true → g.val ∉ s.link.frozen →
    Gives (.eyeUpdate g l eye a) s fun t => t.rd (R.RXG_RXL_EYE g l) = eye.setWidth 32 ∧ MemKept s t ∧
      RegsKept s t [] [R.RXG_RXL_EYE g l, R.RXG_RXL_CTLE g l, R.RXG_RXL_DFE_A g l, R.RXG_RXL_DFE_B g l,
        R.RXG_RXL_DFE_C g l]) ∧
  (∀ (s : State) (g : Fin 8) w, Open s w.path (R.TXG_GRP_CTL g) → OnXo s → Calm s → s.grpState .tx g ≤ 1 →
    F.TXG_GRP_CTL_TEST_MODE.get w.value = 1 →
    F.TXG_GRP_CTL_PARK_ALLOW.get w.value = s.fld (R.TXG_GRP_CTL g) F.TXG_GRP_CTL_PARK_ALLOW → s.linkState ≠ 7 →
    Gives (.testModeWrite g w) s fun t =>
      t.grpState .tx g = 9 ∧ t.grpState .rx g = 9 ∧ t.link = s.link ∧ MemKept s t ∧
        RegsKept s t [0x014] [R.TXG_GRP_CTL g, R.TXG_GRP_STAT g, R.RXG_GRP_STAT g]) ∧
  (∀ (s : State) w, Open s w.path (R.TXG_GRP_CTL 0) → OnXo s → Calm s → s.linkActive = true →
    s.on (R.TXG_GRP_CTL 0) F.TXG_GRP_CTL_LOCAL_TIMING = false → F.TXG_GRP_CTL_LOCAL_TIMING.get w.value = 1 →
    F.TXG_GRP_CTL_TEST_MODE.get w.value = 0 → s.grpState .tx 0 = 7 →
    F.TXG_GRP_CTL_PARK_ALLOW.get w.value = s.fld (R.TXG_GRP_CTL 0) F.TXG_GRP_CTL_PARK_ALLOW →
    Gives (.localTimingWrite w) s fun t =>
      t.loopTimed = false ∧ t.on (R.TXG_GRP_CTL 0) F.TXG_GRP_CTL_LOCAL_TIMING = true ∧ t.link = s.link ∧ MemKept s t)

/-! ### Frames, flits and replay -/

/-- FLIT_RECEIVE (R76, R79, R90) on an ACTIVE link outside Drogue mode, the flit not the first of a marker period nor the
last before a switch of width, its symbols descrambled and its bytes read by `readFlit`: an uncorrectable flit and one
whose CRC fails are counted, the first asking for a replay; a null flit brings nothing; a duplicate is counted; the
expected sequenced flit without headers, credits or requests is accepted; a reserved kind is a protocol error with cause
1. A second marker missed in a row by a data lane of an active group, at the start of a period, clears the lane's marker
lock (R32). -/
def Obligations.FlitReceiver : Prop :=
  (∀ (s : State) (f : BitVec 1920) marks, OnXo s → Calm s → s.linkActive = true → s.drogue = false →
    s.link.rxFlit ≠ 0 ∨ s.link.rxUi ≠ 0 → (s.link.rxFlit = 11 → s.link.rxSwitch = none) →
    readFlit (s.undoFlit s.link.rxFlit f).1 = none → s.rxState = 0 → Gives (.flitReceive f marks) s fun t =>
      t.rxState = 1 ∧ t.rd R.LINK_UNCORR_FLITS = s.rd R.LINK_UNCORR_FLITS + 1 ∧ t.rd R.LINK_NAK_SENT = s.rd R.LINK_NAK_SENT + 1 ∧
        t.rxSeq = s.rxSeq ∧ t.link.rx = s.link.rx ∧ MemKept s t ∧
        RegsKept s t [0x014] [R.LINK_LL_STAT, R.LINK_UNCORR_FLITS, R.LINK_NAK_SENT]) ∧
  (∀ (s : State) (f : BitVec 1920) marks b, OnXo s → Calm s → s.linkActive = true → s.drogue = false →
    s.link.rxFlit ≠ 0 ∨ s.link.rxUi ≠ 0 → (s.link.rxFlit = 11 → s.link.rxSwitch = none) →
    readFlit (s.undoFlit s.link.rxFlit f).1 = some (b, [], false) → s.rxState = 1 → Gives (.flitReceive f marks) s fun t =>
      t.rxState = 1 ∧ t.rd R.LINK_CRC_FAIL = s.rd R.LINK_CRC_FAIL + 1 ∧ t.rd R.LINK_NAK_SENT = s.rd R.LINK_NAK_SENT ∧
        t.link.rx = s.link.rx ∧ MemKept s t ∧ RegsKept s t [0x014] [R.LINK_CRC_FAIL]) ∧
  (∀ (s : State) (f : BitVec 1920) marks b c, OnXo s → Calm s → s.linkActive = true → s.drogue = false →
    s.link.rxFlit ≠ 0 ∨ s.link.rxUi ≠ 0 → (s.link.rxFlit = 11 → s.link.rxSwitch = none) →
    readFlit (s.undoFlit s.link.rxFlit f).1 = some (b, [], true) → c = ctl0Of (flitSlot (BitVec.ofNat 1920 (natBE b)) 0) → s.rxState < 2 →
    c.llInit = false → c.kind = 0 → c.ackType = 0 → c.wCount = 0 → c.wReq = none → Gives (.flitReceive f marks) s fun t =>
      t.link.rx = s.link.rx ∧ t.link.rxFlit = (s.link.rxFlit + 1) % 12 ∧ t.link.rxSwitch = none ∧ MemKept s t ∧
        RegsKept s t [0x014] []) ∧
  (∀ (s : State) (f : BitVec 1920) marks b c, OnXo s → Calm s → s.linkActive = true → s.drogue = false →
    s.link.rxFlit ≠ 0 ∨ s.link.rxUi ≠ 0 → (s.link.rxFlit = 11 → s.link.rxSwitch = none) →
    readFlit (s.undoFlit s.link.rxFlit f).1 = some (b, [], true) → c = ctl0Of (flitSlot (BitVec.ofNat 1920 (natBE b)) 0) → s.rxState = 0 →
    c.llInit = false → c.kind = 1 → c.seq ≠ s.rxSeq → c.ackType = 0 → c.wCount = 0 → c.wReq = none →
    Gives (.flitReceive f marks) s fun t =>
      t.rd R.LINK_DUP_FLITS = s.rd R.LINK_DUP_FLITS + 1 ∧ t.link.rx = s.link.rx ∧ t.rxSeq = s.rxSeq ∧ MemKept s t ∧
        RegsKept s t [0x014] [R.LINK_DUP_FLITS]) ∧
  (∀ (s : State) (f : BitVec 1920) marks b c, OnXo s → Calm s → s.linkActive = true → s.drogue = false →
    s.link.rxFlit ≠ 0 ∨ s.link.rxUi ≠ 0 → (s.link.rxFlit = 11 → s.link.rxSwitch = none) →
    readFlit (s.undoFlit s.link.rxFlit f).1 = some (b, [], true) → c = ctl0Of (flitSlot (BitVec.ofNat 1920 (natBE b)) 0) → s.rxState < 2 →
    c.llInit = false → c.kind = 1 → c.seq = s.rxSeq → c.ackType = 0 → c.wCount = 0 → c.wReq = none → c.map = 0 → c.cred = 0 →
    Gives (.flitReceive f marks) s fun t =>
      t.rxState = 0 ∧ t.rxSeq = s.rxSeq + 1 ∧ t.rd64 R.LINK_FLITS_LO = s.rd64 R.LINK_FLITS_LO + 1 ∧ t.link.accepted = true ∧
        t.link.rx = s.link.rx ∧ MemKept s t ∧ RegsKept s t [0x014] [R.LINK_LL_STAT, R.LINK_FLITS_LO, R.LINK_FLITS_HI]) ∧
  (∀ (s : State) (f : BitVec 1920) marks b c, OnXo s → Calm s → s.linkActive = true → s.drogue = false →
    s.link.rxFlit ≠ 0 ∨ s.link.rxUi ≠ 0 → (s.link.rxFlit = 11 → s.link.rxSwitch = none) →
    readFlit (s.undoFlit s.link.rxFlit f).1 = some (b, [], true) → c = ctl0Of (flitSlot (BitVec.ofNat 1920 (natBE b)) 0) → s.rxState < 2 →
    c.llInit = false → 2 ≤ c.kind → Gives (.flitReceive f marks) s fun t =>
      t.rxState = 2 ∧ t.txState = 3 ∧ t.fld R.LINK_LL_STAT2 F.LINK_LL_STAT2_ERR_CAUSE = 1 ∧ t.rxSeq = s.rxSeq ∧
        t.link.rx = s.link.rx ∧ MemKept s t ∧ RegsKept s t [0x014] [R.LINK_LL_STAT, R.LINK_LL_STAT2]) ∧
  (∀ (s : State) (f : BitVec 1920) (marks : List MarkIn) (g : Fin 8) (l : Fin 10), OnXo s → Calm s → s.linkActive = true →
    s.drogue = false → s.link.rxFlit = 0 ∧ s.link.rxUi = 0 → g.val ∈ s.activeGroups .rx → l.val ∈ s.dataLanes .rx g →
    marks = [⟨g, l, none⟩] → SMap.get (fun _ => 0) s.link.markBad (10 * g.val + l.val) = 1 → Gives (.flitReceive f marks) s fun t =>
      t.on (R.RXG_RXL_STAT g l) F.RXG_RXL_STAT_MARK_LOCK = false ∧ MemKept s t)

/-- FRAME_TRANSMIT (R44, R66, R80, R84): on every ACTIVE link outside Drogue mode a frame of 12 flits goes out, and on a link
in OFF with no lane sending a test nothing does. In mid-period with no change of width running, with nothing to send all 12
flits are null flits; one waiting header without data goes out in one sequenced flit, which is stored under the next SEQ,
and takes its credit then. -/
def Obligations.FrameTransmitter : Prop :=
  (∀ (s : State) test, OnXo s → Calm s → s.linkActive = true → s.drogue = false → s.rxState ≠ 3 → s.txState = 0 →
    s.link.txq = [] → s.link.credRet = [] → s.link.stored.length < 4095 → s.link.widthTo = [] →
    s.link.uiSince + frameUI (s.curStep .tx) < 10240 → Gives (.frameTransmit test) s fun t =>
      t.link.frame = List.replicate 12 (makeFlit s.currentCtl []) ∧ t.link.stored = s.link.stored ∧ t.txSeq = s.txSeq ∧
        t.link.uiSince = s.link.uiSince + frameUI (s.curStep .tx) ∧ MemKept s t ∧
        RegsKept s t [0x014, 0x088, 0x089, 0x08A, 0x08B, 0x08C, 0x08D, 0x08E, 0x08F] []) ∧
  (∀ (s : State) test, OnXo s → Calm s → s.linkActive = true → s.drogue = false → Gives (.frameTransmit test) s fun t =>
      t.link.frame.length = 12 ∧ MemKept s t) ∧
  (∀ (s : State) test, OnXo s → Calm s → s.linkState = 0 → s.drogue = false →
    (∀ (g : Fin 8) (l : Fin 10), s.farLoop g l = false ∧ s.patternOn g l = false) → Gives (.frameTransmit test) s fun t =>
      t.link.frame = s.link.frame ∧ t.link.symOut = [] ∧ MemKept s t) ∧
  (∀ (s : State) test (x : TxItem), OnXo s → Calm s → s.linkActive = true → s.drogue = false → s.rxState ≠ 3 → s.txState = 0 →
    s.link.txq = [x] → x.hdrSent = false → x.data = [] → s.link.credRet = [] → s.link.stored.length < 4094 →
    s.link.widthTo = [] → s.link.uiSince + frameUI (s.curStep .tx) < 10240 → Gives (.frameTransmit test) s fun t =>
      t.link.frame.length = 12 ∧ t.link.txq = [] ∧ t.txSeq = s.txSeq + 1 ∧
        t.link.stored.length = s.link.stored.length + 1 ∧ (t.link.stored.getLast?).map (·.seq) = some s.txSeq ∧
        t.fld R.LINK_LL_STAT2 F.LINK_LL_STAT2_STORED = s.link.stored.length + 1 ∧
        t.fld (R.LINK_CRED_TX (hTc x.header)) F.LINK_CRED_TX_HDR = s.fld (R.LINK_CRED_TX (hTc x.header)) F.LINK_CRED_TX_HDR - 1 ∧
        MemKept s t ∧ RegsKept s t [0x014, 0x088, 0x089, 0x08A, 0x08B, 0x08C, 0x08D, 0x08E, 0x08F]
          [R.LINK_LL_STAT, R.LINK_LL_STAT2, R.LINK_CRED_TX (hTc x.header)])

/-- While the core clock runs (`released`, R349): ACK_TIMEOUT starts a replay from the oldest stored flit and the hold of its
SEQ, and the replay counts only when it resends a flit; REPLAY_HOLD_EXPIRY ends the hold, and STALL_TIMEOUT goes to RECOVER (R80). RETRAIN goes to DETECT and RECOVER to RECOVER with sequence
numbers and stored flits kept (R95, R97); LL_RESET starts a link-layer initialisation (R96). WIDTH_AUTO_WINDOW: above
AUTO_HIGH the automatic step is one wider than it or the target, below AUTO_LOW one narrower up to the target (R91);
WIDTH_CTL_WRITE stores its fields (R97); neither changes the width itself. -/
def Obligations.ReplayAndWidth : Prop :=
  (∀ (s : State) x l, OnXo s → Calm s → s.linkActive = true → s.txState = 0 ∨ s.txState = 2 → s.link.stored = x :: l →
    Gives .ackTimeout s fun t =>
      t.txState = 1 ∧ t.link.replayAt = 0 ∧ t.link.hold = some x.seq ∧ t.link.replayNew = some x.seq ∧
        t.link.stored = s.link.stored ∧ t.rd R.LINK_REPLAYS = s.rd R.LINK_REPLAYS ∧ MemKept s t ∧
        RegsKept s t [0x014] [R.LINK_LL_STAT]) ∧
  (∀ s : State, s.released = true → exec .replayHoldExpiry s = .next { s with link := { s.link with hold := none } }) ∧
  (∀ s : State, s.released = true → OnXo s → Calm s → s.linkActive = true → s.txState = 2 → Gives .stallTimeout s fun t =>
      t.linkState = 8 ∧ t.txState = 2 ∧ t.rd R.LINK_RECOVERS = s.rd R.LINK_RECOVERS + 1 ∧
        t.link.stored = s.link.stored ∧ MemKept s t) ∧
  (∀ (s : State) w, Open s w.path R.LINK_LL_CTL → Calm s → OnXo s → F.LINK_LL_CTL_RECOVER.get w.value = 0 →
    F.LINK_LL_CTL_LL_RESET.get w.value = 0 → Gives (.retrain w) s fun t =>
      t.linkState = 1 ∧ t.txState = s.txState ∧ t.rxState = s.rxState ∧ t.txSeq = s.txSeq ∧ t.rxSeq = s.rxSeq ∧
        t.link.stored = s.link.stored ∧ t.link.attempts = 0 ∧ MemKept s t) ∧
  (∀ (s : State) w, Open s w.path R.LINK_LL_CTL → Calm s → OnXo s → s.linkActive = true → F.LINK_LL_CTL_RETRAIN.get w.value = 0 →
    F.LINK_LL_CTL_LL_RESET.get w.value = 0 → Gives (.recover w) s fun t =>
      t.linkState = 8 ∧ t.rd R.LINK_RECOVERS = s.rd R.LINK_RECOVERS + 1 ∧ t.link.stored = s.link.stored ∧ MemKept s t) ∧
  (∀ (s : State) w, Open s w.path R.LINK_LL_CTL → Calm s → OnXo s → F.LINK_LL_CTL_RETRAIN.get w.value = 0 →
    F.LINK_LL_CTL_RECOVER.get w.value = 0 → Gives (.llReset w) s fun t =>
      t.rxState = 3 ∧ t.txState = 0 ∧ t.txSeq = 0 ∧ t.rxSeq = 0 ∧ t.link.stored = [] ∧ t.link.rx = [] ∧
        t.link.credRet = [] ∧ (∀ i : Fin 8, t.rd (R.LINK_CRED_TX i) = 0) ∧ t.linkState = s.linkState ∧
        t.rd R.LINK_LL_INITS = s.rd R.LINK_LL_INITS + 1 ∧ MemKept s t) ∧
  (∀ (s : State) d, s.released = true → OnXo s → Calm s → s.linkActive = true →
    s.on R.LINK_WIDTH_CTL (match d with | .rx => F.LINK_WIDTH_CTL_RX_AUTO | .tx => F.LINK_WIDTH_CTL_TX_AUTO) = true →
    s.fld R.LINK_WIDTH_CTL F.LINK_WIDTH_CTL_AUTO_HIGH * SMap.get (fun _ => 0) s.link.slotsAll (dirIx d)
      < 100 * SMap.get (fun _ => 0) s.link.slotsUsed (dirIx d) → Gives (.widthAutoWindow d) s fun t =>
      SMap.get (fun _ => 0) t.link.autoStep (dirIx d)
          = min (s.fld R.LINK_WIDTH_CTL (match d with | .rx => F.LINK_WIDTH_CTL_RX_TARGET | .tx => F.LINK_WIDTH_CTL_TX_TARGET))
              (SMap.get (fun _ => 0) s.link.autoStep (dirIx d)) - 1 ∧
        SMap.get (fun _ => 0) t.link.slotsAll (dirIx d) = 0 ∧ SMap.get (fun _ => 0) t.link.slotsUsed (dirIx d) = 0 ∧
        t.curStep d = s.curStep d ∧ MemKept s t ∧ RegsKept s t [0x014] [R.LINK_WIDTH_STAT]) ∧
  (∀ (s : State) d, s.released = true → OnXo s → Calm s → s.linkActive = true →
    s.on R.LINK_WIDTH_CTL (match d with | .rx => F.LINK_WIDTH_CTL_RX_AUTO | .tx => F.LINK_WIDTH_CTL_TX_AUTO) = true →
    100 * SMap.get (fun _ => 0) s.link.slotsUsed (dirIx d)
      ≤ s.fld R.LINK_WIDTH_CTL F.LINK_WIDTH_CTL_AUTO_HIGH * SMap.get (fun _ => 0) s.link.slotsAll (dirIx d) →
    100 * SMap.get (fun _ => 0) s.link.slotsUsed (dirIx d)
      < s.fld R.LINK_WIDTH_CTL F.LINK_WIDTH_CTL_AUTO_LOW * SMap.get (fun _ => 0) s.link.slotsAll (dirIx d) →
    Gives (.widthAutoWindow d) s fun t =>
      SMap.get (fun _ => 0) t.link.autoStep (dirIx d)
          = min (s.fld R.LINK_WIDTH_CTL (match d with | .rx => F.LINK_WIDTH_CTL_RX_TARGET | .tx => F.LINK_WIDTH_CTL_TX_TARGET))
              (SMap.get (fun _ => 0) s.link.autoStep (dirIx d) + 1) ∧
        t.curStep d = s.curStep d ∧ MemKept s t ∧ RegsKept s t [0x014] [R.LINK_WIDTH_STAT]) ∧
  (∀ (s : State) w, Open s w.path R.LINK_WIDTH_CTL → OnXo s → Calm s → Gives (.widthCtlWrite w) s fun t =>
      t.fld R.LINK_WIDTH_CTL F.LINK_WIDTH_CTL_RX_TARGET = F.LINK_WIDTH_CTL_RX_TARGET.get w.value ∧
        t.fld R.LINK_WIDTH_CTL F.LINK_WIDTH_CTL_TX_TARGET = F.LINK_WIDTH_CTL_TX_TARGET.get w.value ∧
        t.on R.LINK_WIDTH_CTL F.LINK_WIDTH_CTL_HOST_REQ_EN = decide (F.LINK_WIDTH_CTL_HOST_REQ_EN.get w.value = 1) ∧
        t.curStep .rx = s.curStep .rx ∧ t.curStep .tx = s.curStep .tx ∧ MemKept s t ∧
        RegsKept s t [0x014] [R.LINK_WIDTH_CTL, R.LINK_WIDTH_STAT])

/-- The control slot's fields are read back as they were placed (R74): the CRC apart, no field overlaps another. -/
def Obligations.ControlSlotFields : Prop :=
  ∀ c : Ctl0, c.kind < 4 → c.ackType < 4 → c.wStep < 4 → c.wCount < 16 → (∀ x ∈ c.wReq, x.2 < 4) →
    ctl0Of (ctl0Word c) = c

/-! ### Transactions -/

/-- Requests of good headers, their look-ups without error. RD_REQ of one line (R109): a line in the write data buffer
answers with its data, its controller having room; a read of a RELEASED parcel answers zeros (R153); one outside the
visible range is answered RANGE (R129). WR_REQ (R110) and WR_REQ_POISON (R106) of one line of a normal parcel that no
migration moves: the line enters the write data buffer and no other line of it changes. -/
def Obligations.ReadsAndWrites : Prop :=
  (∀ (s : State) tag m r l, s.readyReq tag.toNat (fun h => decide (hOpc h = 1)) = some r → Plain r → NoErr m →
    s.decodeStatus r.header r.data = 0 → hLen r.header = 0 → eState (s.entry (hAddr r.header / 1024)) = 0 →
    s.readRoom (eFrame (s.entry (hAddr r.header / 1024))) 1 = true → s.wdbLine (hAddr r.header) = some l →
    l.poisoned = false → Gives (.rdReq tag m) s fun t =>
      Answered t r.id 0 (some (lineSlots l.data)) ∧ t.wdb = s.wdb ∧ t.dram = s.dram ∧ t.cache = s.cache) ∧
  (∀ (s : State) tag m r, s.readyReq tag.toNat (fun h => decide (hOpc h = 1)) = some r → Plain r → NoErr m →
    s.decodeStatus r.header r.data = 0 → eState (s.entry (hAddr r.header / 1024)) = 3 → Gives (.rdReq tag m) s fun t =>
      Answered t r.id 0 (some (List.replicate (4 * linesOf r.header) 0)) ∧ MemKept s t ∧ RegsKept s t [] []) ∧
  (∀ (s : State) tag m r, s.readyReq tag.toNat (fun h => decide (hOpc h = 1)) = some r → Plain r →
    malformed r.header r.data = false → s.fld R.XACT_VIS_LIMIT F.XACT_VIS_LIMIT_LIMIT ≤ hAddr r.header →
    Gives (.rdReq tag m) s fun t =>
      Answered t r.id 2 (some (List.replicate (State.rspSlots r.header) 0)) ∧
        t.rd R.XACT_RANGE_ERR = s.rd R.XACT_RANGE_ERR + 1 ∧ MemKept s t ∧ RegsKept s t [] [R.XACT_RANGE_ERR]) ∧
  (∀ (s : State) tag m r, s.readyReq tag.toNat (fun h => decide (hOpc h = 2)) = some r → Plain r → NoErr m →
    s.decodeStatus r.header r.data = 0 → hLen r.header = 0 → eState (s.entry (hAddr r.header / 1024)) = 0 →
    s.migOf (hAddr r.header / 1024) = none → Gives (.wrReq tag m) s fun t =>
      Answered t r.id 0 none ∧
        t.wdbLine (hAddr r.header) = some (Line.written (slotsLine r.data) (hArg r.header) false) ∧
        WdbKeptBut s t (hAddr r.header) ∧ t.dram = s.dram ∧ t.cache = s.cache) ∧
  (∀ (s : State) tag m r, s.readyReq tag.toNat (fun h => decide (hOpc h = 3)) = some r → Plain r → NoErr m →
    s.decodeStatus r.header r.data = 0 → hLen r.header = 0 → eState (s.entry (hAddr r.header / 1024)) = 0 →
    s.migOf (hAddr r.header / 1024) = none → Gives (.wrReqPoison tag m) s fun t =>
      Answered t r.id 0 none ∧
        t.wdbLine (hAddr r.header) = some (Line.written (slotsLine r.data) (hArg r.header) true) ∧
        t.rd R.XACT_POISON_WR = s.rd R.XACT_POISON_WR + 1 ∧
        WdbKeptBut s t (hAddr r.header) ∧ t.dram = s.dram ∧ t.cache = s.cache)

/-- The new value of each atomic operation (R112), in the arithmetic of its width. -/
def Obligations.AtomicValues : Prop :=
  (∀ x a b : BitVec 32, State.atomNew 0 x.toNat a.toNat b.toNat = (x + a).toNat ∧ State.atomNew 2 x.toNat a.toNat b.toNat = a.toNat ∧
    State.atomNew 4 x.toNat a.toNat b.toNat = (if x = a then b else x).toNat) ∧
  (∀ x a b : BitVec 64, State.atomNew 1 x.toNat a.toNat b.toNat = (x + a).toNat ∧ State.atomNew 3 x.toNat a.toNat b.toNat = a.toNat ∧
    State.atomNew 5 x.toNat a.toNat b.toNat = (if x = a then b else x).toNat ∧
    State.atomNew 6 x.toNat a.toNat b.toNat = (x &&& a).toNat ∧ State.atomNew 7 x.toNat a.toNat b.toNat = (x ||| a).toNat ∧
    State.atomNew 8 x.toNat a.toNat b.toNat = (x ^^^ a).toNat ∧
    State.atomNew 9 x.toNat a.toNat b.toNat = (if a.slt x then a else x).toNat ∧
    State.atomNew 10 x.toNat a.toNat b.toNat = (if x.slt a then a else x).toNat ∧
    State.atomNew 11 x.toNat a.toNat b.toNat = (if a.ult x then a else x).toNat ∧
    State.atomNew 12 x.toNat a.toNat b.toNat = (if x.ult a then a else x).toNat)

/-- ATOM_REQ on an unpoisoned line in the write data buffer, its parcel normal and not moved (R112, R113): the old field
is answered, zero-extended, and the line keeps every other byte and its metadata. -/
def Obligations.AtomicRequest : Prop :=
  ∀ (s : State) tag m r l o w, s.readyReq tag.toNat (fun h => decide (hOpc h = 4)) = some r → Plain r → NoErr m →
    s.decodeStatus r.header r.data = 0 → eState (s.entry (hAddr r.header / 1024)) = 0 →
    s.migOf (hAddr r.header / 1024) = none → s.wdbLine (hAddr r.header) = some l → l.poisoned = false →
    o = atomOffset (slotsLine r.data) → w = atomWidth (hArg r.header) → Gives (.atomReq tag m) s fun t =>
      Answered t r.id 0 (some (lineSlots (BitVec.ofNat 512 (State.fieldOf l.data o w)))) ∧
      t.wdbLine (hAddr r.header) = some (l.updated (State.withField l.data o w (State.atomNew (hArg r.header) (State.fieldOf l.data o w)
        (State.fieldOf (slotsLine r.data) 0 w) (State.fieldOf (slotsLine r.data) 8 w)))) ∧
      WdbKeptBut s t (hAddr r.header) ∧ t.dram = s.dram ∧ t.cache = s.cache

/-- BAD_HEADER (R102) of a header that is bad drops it with its record. REQUEST_ADMIT (R104, R254) of a complete request
with room for it: without the Bridle a good one is ready, and one whose tag is busy is counted and dropped while TAG_CHECK
is set. FENCE_REQ and FENCE_PERFORMED (R119): the fence waits, and answers once nothing earlier is left. RESPONSE_SEND
(R104): a finished request's response is queued when the link and the credits allow it, its credits being taken when its
header is placed (R84), and otherwise nothing happens. EVENT_SEND (R126) queues the next event under the next sequence
number. -/
def Obligations.TransactionFlow : Prop :=
  (∀ (s : State) (tc : BitVec 3) i, s.rxHead tc.toNat = some i → s.released = true → badHead i = true →
    Gives (.badHeader tc) s fun t =>
      t.rd R.XACT_BAD_HDR = s.rd R.XACT_BAD_HDR + 1 ∧ t.rd64 R.XACT_BAD_HDR_LO = i.header ∧
        SMap.get (fun _ => []) t.link.rx tc.toNat = (SMap.get (fun _ => []) s.link.rx tc.toNat).drop 1 ∧
        t.xact = s.xact ∧ MemKept s t ∧
        RegsKept s t [] [R.XACT_BAD_HDR, R.XACT_BAD_HDR_LO, R.XACT_BAD_HDR_HI]) ∧
  (∀ (s : State) (tc : BitVec 3) m i, s.rxHead tc.toNat = some i → NoErr m → s.released = true → i.left = 0 → s.admitRoom i = true → badHead i = false →
    i.half = true → s.bridleOn = false → (∀ r ∈ s.xact.reqs, r.stage ≠ .held) → s.tagBusy (hTag i.header) = false → s.decodeStatus i.header i.data = 0 →
    Gives (.requestAdmit tc m) s fun t =>
      (∃ r ∈ t.xact.reqs, r.id = i.num ∧ r.header = i.header ∧ r.stage = .ready) ∧
        t.rd64 R.XACT_REQS_LO = s.rd64 R.XACT_REQS_LO + 1 ∧
        SMap.get (fun _ => []) t.link.rx tc.toNat = (SMap.get (fun _ => []) s.link.rx tc.toNat).drop 1 ∧ MemKept s t) ∧
  (∀ (s : State) (tc : BitVec 3) m i, s.rxHead tc.toNat = some i → NoErr m → s.released = true → i.left = 0 → s.admitRoom i = true → badHead i = false →
    s.on R.XACT_XACT_CTL F.XACT_XACT_CTL_TAG_CHECK = true → s.tagBusy (hTag i.header) = true →
    Gives (.requestAdmit tc m) s fun t =>
      t.rd R.XACT_TAG_DUP = s.rd R.XACT_TAG_DUP + 1 ∧ t.xact.reqs = s.xact.reqs ∧ MemKept s t) ∧
  (∀ (s : State) (tag : BitVec 12) r, s.released = true →
    s.xact.reqs.find? (fun r => decide (r.stage = .ready) && hTag r.header == tag.toNat && hOpc r.header == 5) = some r →
    Plain r → s.decodeStatus r.header r.data = 0 → Gives (.fenceReq tag) s fun t =>
      (∃ x ∈ t.xact.reqs, x.id = r.id ∧ x.stage = .working) ∧ MemKept s t ∧ RegsKept s t [] []) ∧
  (∀ (s : State) (tag : BitVec 12) r, s.released = true →
    s.xact.reqs.find? (fun r => decide (r.stage = .working) && hTag r.header == tag.toNat && hOpc r.header == 5) = some r →
    Plain r → s.fenceClear r = true → Gives (.fencePerformed tag) s fun t =>
      Answered t r.id 0 none ∧ t.rd R.XACT_FENCES = s.rd R.XACT_FENCES + 1 ∧ MemKept s t ∧
        RegsKept s t [] [R.XACT_FENCES]) ∧
  (∀ (s : State) (tag : BitVec 12) r, s.released = true →
    s.xact.reqs.find? (fun r => decide (r.stage = .done) && hTag r.header == tag.toNat) = some r →
    s.sendOpen = true → s.credOk (hTc r.header) r.payload.length = true → Gives (.responseSend tag) s fun t =>
      t.link.txq = s.link.txq ++ [{ header := State.rspHeader r, data := r.payload, req := some r.id }] ∧
        (∀ x ∈ t.xact.reqs, x.id ≠ r.id) ∧ t.rd (R.LINK_CRED_TX (hTc r.header)) = s.rd (R.LINK_CRED_TX (hTc r.header)) ∧
        MemKept s t) ∧
  (∀ (s : State) (tag : BitVec 12) r,
    s.xact.reqs.find? (fun r => decide (r.stage = .done) && hTag r.header == tag.toNat) = some r →
    s.sendOpen = false ∨ s.credOk (hTc r.header) r.payload.length = false → Gives (.responseSend tag) s fun t =>
      t.link = s.link ∧ t.xact.reqs = s.xact.reqs ∧ t.regs = s.regs ∧ MemKept s t) ∧
  (∀ (s : State) e, s.released = true → s.nextEvent = some e → s.sendOpen = true → s.credOk s.evtTc 4 = true →
    Gives .eventSend s fun t =>
      t.xact.events = s.xact.events.erase e ∧ t.xact.lost = 0 ∧ t.rd R.XACT_EVT_SENT = s.rd R.XACT_EVT_SENT + 1 ∧
        t.fld R.XACT_EVT_SEQ F.XACT_EVT_SEQ_NEXT = (s.fld R.XACT_EVT_SEQ F.XACT_EVT_SEQ_NEXT + 1) % 4096 ∧
        t.link.txq.length = s.link.txq.length + 1 ∧ t.xact.reqs = s.xact.reqs ∧ MemKept s t)

/-- The hints on one parcel, their headers good and look-ups without error (R121, R150, R174, R175). HINT_PIN below the
pin limit pins a parcel with a frame that no migration moves, and of a RELEASED parcel is answered HINT_DENIED;
HINT_UNPIN unpins; HINT_RELEASE of an unpinned normal parcel releases it and drops its lines from the write data buffer;
HINT_PREFETCH queues its sectors while the cache is on and is answered HINT_DENIED while it is off; HINT_NOCACHE sets
NOCACHE and clears CACHE_ELIG, and HINT_CACHE clears NOCACHE. But for the release the frame stays, and no other entry
changes. -/
def Obligations.Hints : Prop :=
  (∀ (s : State) tag m r n, s.readyReq tag.toNat (fun h => decide (hOpc h = 6) && hintCode 0 (hArg h)) = some r → Plain r → NoErr m →
    s.decodeStatus r.header r.data = 0 → n = hintFirst r.header → hintCount r.header = 1 → eState (s.entry n) < 3 →
    hArg r.header = 0 →
    s.migOf n = none → s.fld R.PLACE_PARCELS_PINNED F.PLACE_PARCELS_PINNED_COUNT
      < s.fld R.PLACE_PIN_LIMIT F.PLACE_PIN_LIMIT_LIMIT → Gives (.hintPin tag m) s fun t =>
      Answered t r.id 0 none ∧ ePin (t.entry n) = true ∧ eFrame (t.entry n) = eFrame (s.entry n) ∧
        EntriesKeptBut s t n ∧ t.dram = s.dram ∧ t.cache = s.cache ∧ t.wdb = s.wdb) ∧
  (∀ (s : State) tag m r n, s.readyReq tag.toNat (fun h => decide (hOpc h = 6) && hintCode 0 (hArg h)) = some r → Plain r → NoErr m →
    s.decodeStatus r.header r.data = 0 → n = hintFirst r.header → hintCount r.header = 1 → eState (s.entry n) = 3 →
    hArg r.header = 0 →
    Gives (.hintPin tag m) s fun t => Answered t r.id 9 none ∧ MemKept s t ∧ RegsKept s t [] []) ∧
  (∀ (s : State) tag m r n, s.readyReq tag.toNat (fun h => decide (hOpc h = 6) && hintCode 1 (hArg h)) = some r → Plain r → NoErr m →
    s.decodeStatus r.header r.data = 0 → n = hintFirst r.header → hintCount r.header = 1 → eState (s.entry n) ≠ 5 →
    hArg r.header = 1 →
    Gives (.hintUnpin tag m) s fun t =>
      Answered t r.id 0 none ∧ ePin (t.entry n) = false ∧ eFrame (t.entry n) = eFrame (s.entry n) ∧
        EntriesKeptBut s t n ∧ t.dram = s.dram ∧ t.cache = s.cache ∧ t.wdb = s.wdb) ∧
  (∀ (s : State) tag m r n, Calm s → s.readyReq tag.toNat (fun h => decide (hOpc h = 6) && hintCode 2 (hArg h)) = some r →
    Plain r → NoErr m → s.decodeStatus r.header r.data = 0 → n = hintFirst r.header → hintCount r.header = 1 →
    hArg r.header = 2 →
    eState (s.entry n) = 0 → ePin (s.entry n) = false → s.migOf n = none → Gives (.hintRelease tag m) s fun t =>
      Answered t r.id 0 none ∧ eState (t.entry n) = 3 ∧ EntriesKeptBut s t n ∧
        (∀ e ∈ t.wdb, liParcel e.li ≠ n)) ∧
  (∀ (s : State) tag m r n, s.readyReq tag.toNat (fun h => decide (hOpc h = 6) && hintCode 3 (hArg h)) = some r → Plain r → NoErr m →
    s.decodeStatus r.header r.data = 0 → n = hintFirst r.header → hintCount r.header = 1 → eState (s.entry n) < 3 →
    hArg r.header = 3 →
    s.cacheOn = true → Gives (.hintPrefetch tag m) s fun t =>
      Answered t r.id 0 none ∧
        t.cache.prefetchQ = s.cache.prefetchQ ++ (List.range 256).map (fun i => 256 * n + i) ∧
        t.place = s.place ∧ t.dram = s.dram ∧ t.wdb = s.wdb) ∧
  (∀ (s : State) tag m r, s.readyReq tag.toNat (fun h => decide (hOpc h = 6) && hintCode 3 (hArg h)) = some r → Plain r → NoErr m →
    s.decodeStatus r.header r.data = 0 → hintCount r.header = 1 → eState (s.entry (hintFirst r.header)) ≠ 5 →
    hArg r.header = 3 →
    s.cacheOn = false → Gives (.hintPrefetch tag m) s fun t => Answered t r.id 9 none ∧ MemKept s t) ∧
  (∀ (s : State) tag m r n, s.readyReq tag.toNat (fun h => decide (hOpc h = 6) && hintCode 4 (hArg h)) = some r → Plain r → NoErr m →
    s.decodeStatus r.header r.data = 0 → n = hintFirst r.header → hintCount r.header = 1 → eState (s.entry n) ≠ 5 →
    hArg r.header = 4 →
    Gives (.hintNocache tag m) s fun t =>
      Answered t r.id 0 none ∧ eNocache (t.entry n) = true ∧ eElig (t.entry n) = false ∧
        eFrame (t.entry n) = eFrame (s.entry n) ∧ EntriesKeptBut s t n ∧ t.dram = s.dram ∧ t.wdb = s.wdb) ∧
  (∀ (s : State) tag m r n, s.readyReq tag.toNat (fun h => decide (hOpc h = 6) && hintCode 5 (hArg h)) = some r → Plain r → NoErr m →
    s.decodeStatus r.header r.data = 0 → n = hintFirst r.header → hintCount r.header = 1 → eState (s.entry n) ≠ 5 →
    hArg r.header = 5 →
    Gives (.hintCache tag m) s fun t =>
      Answered t r.id 0 none ∧ eNocache (t.entry n) = false ∧ eFrame (t.entry n) = eFrame (s.entry n) ∧
        EntriesKeptBut s t n ∧ t.dram = s.dram ∧ t.cache = s.cache ∧ t.wdb = s.wdb)

/-- WORK_REQ (R238, R239): a descriptor that is not valid is answered BAD_DESC; a work whose descriptor has no error and
for which a quadrant and an engine have room is queued there, after the earlier requests of its master and class, and its
six header credits go back then if they are still owed. CFG_RD and CFG_WR (R123): the dwords are read or written in
ascending order over the register bus and the status shows whether one of them met an error, for CFG_WR when the writes
change no waiting request; one dword of CFG_RD is answered with the word read, and one dword of CFG_WR to a DEV.SCRATCH
register that answers is written there. -/
def Obligations.WorkAndConfiguration : Prop :=
  (∀ (s : State) (tag : BitVec 12) m r, s.released = true →
    s.xact.reqs.find? (fun r => decide (r.stage = .ready) && hTag r.header == tag.toNat && hOpc r.header == 7) = some r →
    r.silent = false → r.status = 5 ∨ (r.status = 0 ∧ (descOf (r.ext.getD 0)).valid = false) → s.mayPerform r = true →
    Gives (.workReq tag m) s fun t =>
      Answered t r.id 5 none ∧ t.eng = s.eng ∧ MemKept s t ∧ RegsKept s t [] []) ∧
  (∀ (s : State) (tag : BitVec 12) m r q e, s.released = true →
    s.xact.reqs.find? (fun r => decide (r.stage = .ready) && hTag r.header == tag.toNat && hOpc r.header == 7) = some r →
    r.status = 0 → NoErr m →
    (∀ x ∈ s.xact.reqs, x.id < r.id → State.samePair x.header r.header = true → x.performed = true ∨ x.stage = .working) →
    s.workStatus { header := r.header, ext := r.ext, data := [], left := 0 } = (0, 0) →
    s.chooseQuad (descOf (r.ext.getD 0)) s.openQuads = some q →
    s.leastQueued ((s.activeEngines q).filter s.engRoom) = some e → (s.quadWorks q).length < 64 →
    Gives (.workReq tag m) s fun t =>
      (∃ w ∈ t.eng.works, w.req = r.id ∧ w.quad = q ∧ w.engine = some e ∧ w.phase = .queued) ∧
        t.eng.works.length = s.eng.works.length + 1 ∧
        t.rd (R.QUAD_WORKS_ACCEPTED q) = s.rd (R.QUAD_WORKS_ACCEPTED q) + 1 ∧
        SMap.get (fun _ => 0) t.link.credRet (2 * hTc r.header)
          = SMap.get (fun _ => 0) s.link.credRet (2 * hTc r.header) + (if r.owes then 6 else 0) ∧ MemKept s t) ∧
  (∀ (s : State) tag r x, s.readyReq tag.toNat (fun h => decide (hOpc h = 8)) = some r → Plain r →
    s.cfgOpen (hMid r.header) = true → x = s.cfgReads (hAddr r.header) (hArg r.header + 1) →
    Gives (.cfgRd tag) s fun t =>
      Answered t r.id (if x.2.2 = 0 then 0 else 8) (some (State.cfgSlots x.2.1)) ∧ t.regs = x.1.regs) ∧
  (∀ (s : State) tag r v, s.readyReq tag.toNat (fun h => decide (hOpc h = 8)) = some r → Plain r → hArg r.header = 0 →
    s.cfgOpen (hMid r.header) = true → (s.busRead .inband (hAddr r.header)).ok = true →
    v = (s.busRead .inband (hAddr r.header)).val → Gives (.cfgRd tag) s fun t =>
      Answered t r.id 0 (some (bytesSlots 4 (bytesLE 4 v.toNat))) ∧ MemKept s t) ∧
  (∀ (s : State) tag r x, s.readyReq tag.toNat (fun h => decide (hOpc h = 9)) = some r → Plain r →
    s.cfgOpen (hMid r.header) = true → x = s.cfgWrites (hAddr r.header) (State.cfgDwords r.data) (hArg r.header + 1) →
    (∀ y ∈ s.xact.reqs, y ∈ x.1.xact.reqs) →
    Gives (.cfgWr tag) s fun t => Answered t r.id (if x.2 = 0 then 0 else 8) none ∧ t.regs = x.1.regs) ∧
  (∀ (s : State) tag r i, s.readyReq tag.toNat (fun h => decide (hOpc h = 9)) = some r → Plain r → hArg r.header = 0 →
    s.cfgOpen (hMid r.header) = true → i < 16 → hAddr r.header = R.DEV_SCRATCH i → Open s .inband (R.DEV_SCRATCH i) →
    Gives (.cfgWr tag) s fun t =>
      Answered t r.id 0 none ∧ t.rd (R.DEV_SCRATCH i) = State.cfgDwords r.data 0 ∧ MemKept s t ∧
        RegsKept s t [] [R.DEV_SCRATCH i])

/-! ### Placement -/

/-- EPOCH_TICK (R143) with the policy off, nothing to evacuate and no keel frame to relocate. HEAT_DECAY (R141): in every
64th epoch, once, every heat counter is halved, and otherwise nothing changes. A migration through its phases (R146, R148,
R149) whose reads meet no error: MIGRATION_COPY_DONE and MIGRATION_RECOPY_PASS_DONE, with at most CLOSE_LINES lines
written meanwhile, leave the destination's lines equal to the source's and enter Close; MIGRATION_SWITCH of a policy move
copies the last lines, moves the entry to the destination and queues the source for zeroing; MIGRATION_CLOSE_TIMEOUT of an
evacuation takes the entry back once Close has lasted longer than the CLOSE_MAX it started with. -/
def Obligations.EpochAndMigration : Prop :=
  (∀ s : State, Calm s → s.released = true → s.on R.PLACE_POL_CTL F.PLACE_POL_CTL_POLICY_EN = false → s.place.keelQ = [] → s.place.evacQ = [] →
    (∀ e ∈ s.place.table, eEvac e.2 = false) → Gives .epochTick s fun t =>
      t.rd64 R.PLACE_EPOCH_LO = s.rd64 R.PLACE_EPOCH_LO + 1 ∧
        t.rd R.PLACE_EPOCH_OVERRUN = s.rd R.PLACE_EPOCH_OVERRUN + (if s.place.moveQ = [] then 0 else 1) ∧
        t.place.moveQ = [] ∧ t.place.table = s.place.table ∧ t.place.mig = s.place.mig ∧ t.dram = s.dram ∧ t.cache = s.cache ∧
        t.wdb = s.wdb) ∧
  (∀ (s : State) (f : Nat), s.released = true → SMap.wf (fun _ => 0) s.place.heat = true → s.epoch % 64 = 0 → s.place.decayed ≠ s.epoch →
    Gives .heatDecay s fun t =>
      t.frameHeat f = s.frameHeat f / 2 ∧ t.place.decayed = s.epoch ∧ t.place.table = s.place.table ∧ t.dram = s.dram ∧ RegsKept s t [] []) ∧
  (∀ s : State, s.epoch % 64 ≠ 0 ∨ s.place.decayed = s.epoch → exec .heatDecay s = .next s) ∧
  (∀ (s : State) (k : Fin 64) m lk, Calm s → s.released = true → NoErr lk → SMap.get (fun _ => none) s.place.mig k = some m → m.phase = .copy →
    m.src ≠ m.dst → fQuad m.src = fQuad m.dst ∨ s.cache = {} → s.migHeld m (List.range 1024) = false →
    s.bgFits (s.flushBytes m) = true → s.unreadable m.src = false →
    s.wdb.length < 256 → m.dirty.length ≤ m.closeLines → Gives (.migrationCopyDone k lk) s fun t =>
      (∀ o : Fin 1024, t.dramRead m.dst o = s.frameLine m.src o) ∧ eState (t.entry m.parcel) = 2 ∧
        eFrame (t.entry m.parcel) = m.src % 2 ^ 21 ∧ EntriesKeptBut s t m.parcel ∧
        SMap.get (fun _ => none) t.place.mig k = some { m with phase := .close, pass := [] } ∧ t.wdb = s.wdb ∧ t.cache = s.cache) ∧
  (∀ (s : State) (k : Fin 64) m lk, Calm s → s.released = true → NoErr lk → SMap.get (fun _ => none) s.place.mig k = some m → m.phase = .recopy →
    m.src ≠ m.dst → (∀ o ∈ m.pass, o < 1024) → s.migHeld m m.pass = false → s.unreadable m.src = false →
    s.wdb.length < 256 → m.dirty.length ≤ m.closeLines → Gives (.migrationRecopyPassDone k lk) s fun t =>
      (∀ o ∈ m.pass, t.dramRead m.dst o = s.frameLine m.src o) ∧ eState (t.entry m.parcel) = 2 ∧
        EntriesKeptBut s t m.parcel ∧ t.wdb = s.wdb ∧ t.cache = s.cache) ∧
  (∀ (s : State) (k : Fin 64) m lk, Calm s → s.released = true → NoErr lk → SMap.get (fun _ => none) s.place.mig k = some m → m.phase = .close →
    m.src ≠ m.dst → m.evac = false → m.keel = false → s.migHeld m m.dirty = false → s.unreadable m.src = false →
    (s.pch (fPc m.src)).wq = [] → (∀ o ∈ m.dirty, o < 1024) → s.wdb.length < 256 → s.place.evacQ = [] →
    s.place.moveQ = [] → Gives (.migrationSwitch k lk) s fun t =>
      (∀ o ∈ m.dirty, t.dramRead m.dst o = s.dramRead m.src o) ∧
        eFrame (t.entry m.parcel) = m.dst % 2 ^ 21 ∧ eState (t.entry m.parcel) = 0 ∧
        ePin (t.entry m.parcel) = ePin (s.entry m.parcel) ∧ EntriesKeptBut s t m.parcel ∧
        SMap.get (fun _ => none) t.place.mig k = none ∧ m.src ∈ t.place.zeroQ ∧
        t.rd R.PLACE_MIGRATIONS = s.rd R.PLACE_MIGRATIONS + 1 ∧ t.wdb = s.wdb ∧ t.cache = s.cache) ∧
  (∀ (s : State) (k : Fin 64) ns m, Calm s → s.released = true → SMap.get (fun _ => none) s.place.mig k = some m →
    m.phase = .close →
    eState (s.entry m.parcel) = 2 → m.evac = true → m.keel = false → m.closeMax < ns.toNat →
    Gives (.migrationCloseTimeout k ns) s fun t =>
      SMap.get (fun _ => none) t.place.mig k = none ∧ eState (t.entry m.parcel) = 0 ∧
        eFrame (t.entry m.parcel) = m.src % 2 ^ 21 ∧ EntriesKeptBut s t m.parcel ∧ m.parcel ∈ t.place.evacQ ∧
        m.dst ∈ t.place.zeroQ ∧ t.rd R.PLACE_MIG_ABORTS = s.rd R.PLACE_MIG_ABORTS + 1 ∧ t.dram = s.dram ∧ t.wdb = s.wdb) ∧
  (∀ (s : State) (k : Fin 64) ns m, Calm s → s.released = true → SMap.get (fun _ => none) s.place.mig k = some m →
    ns.toNat ≤ m.closeMax →
    Gives (.migrationCloseTimeout k ns) s fun t => MemKept s t ∧ RegsKept s t [0x014] [])

/-- FRAME_ZERO_START and FRAME_ZERO_DONE (R138): a frame leaves the queue while a budget has room for its traffic; a zeroed
frame reads as zeros and is FREE. TABLE_REPAIR_DONE (R139, R162): the entry is rebuilt from a mirror whose read succeeds,
or the parcel is WITHDRAWN, and a mirror whose read fails is not valid. -/
def Obligations.ZeroingAndRepair : Prop :=
  (∀ (s : State) f q, s.released = true → s.place.zeroQ = f :: q → s.polFits State.zeroBytes = true ∨ s.evacFits State.zeroBytes = true →
    Gives .frameZeroStart s fun t =>
      t.place.zeroQ = q ∧ t.place.zeroing = s.place.zeroing ++ [f] ∧
        t.place.polUsed + t.place.evacUsed = s.place.polUsed + s.place.evacUsed + 65536 ∧ t.place.table = s.place.table ∧
        t.dram = s.dram ∧ RegsKept s t [] []) ∧
  (∀ s : State, s.place.zeroQ = [] ∨ (s.polFits State.zeroBytes = false ∧ s.evacFits State.zeroBytes = false) →
    exec .frameZeroStart s = .next s) ∧
  (∀ (s : State) (f : BitVec 21), Calm s → s.released = true → f.toNat ∈ s.place.zeroing → s.frameBusy f.toNat = false →
    s.repairHolds f.toNat = false → s.place.keelQ = [] → Gives (.frameZeroDone f) s fun t =>
      (∀ o : Fin 1024, t.dramRead f.toNat o = ⟨0, 0x40⟩) ∧ t.frameCode f.toNat = 0 ∧
        t.place.zeroing = s.place.zeroing.erase f.toNat ∧ t.place.table = s.place.table ∧ t.wdb = s.wdb ∧ t.cache = s.cache) ∧
  (∀ (s : State) (n : BitVec 21) failA failB, Calm s → s.released = true → eState (s.entry n.toNat) = 5 →
    (s.mirrorOk false = true ∧ failA = false) ∨ (s.mirrorOk true = true ∧ failB = false) →
    Gives (.tableRepairDone n failA failB) s fun t =>
      t.entry n.toNat = s.live n.toNat ∧ EntriesKeptBut s t n.toNat ∧
        t.mirrorOk false = (s.mirrorOk false && !failA) ∧ t.mirrorOk true = (s.mirrorOk true && !failB) ∧
        t.rd R.PLACE_TABLE_REPAIRS = s.rd R.PLACE_TABLE_REPAIRS + 1 ∧ t.dram = s.dram ∧ t.wdb = s.wdb ∧ t.cache = s.cache) ∧
  (∀ (s : State) (n : BitVec 21) failA failB, Calm s → s.released = true → eState (s.entry n.toNat) = 5 → s.migOf n.toNat = none →
    (s.mirrorOk false = false ∨ failA = true) → (s.mirrorOk true = false ∨ failB = true) →
    Gives (.tableRepairDone n failA failB) s fun t =>
      eState (t.entry n.toNat) = 4 ∧ EntriesKeptBut s t n.toNat ∧ t.rd R.PLACE_TABLE_REPAIRS = s.rd R.PLACE_TABLE_REPAIRS)

/-- The deficit (R158): DEFICIT_GRACE_EXPIRY withdraws only with AUTO_WDR, AUTO_WDR_SET withdraws nothing while no deficit is
open. SPARE_RES_WRITE (R156, R166), WDR_CMD_REINSTATE (R159), LOC_QUERY and WDR_FIND (R166). -/
def Obligations.DeficitAndQueries : Prop :=
  (∀ s : State, Calm s → s.released = true → s.on R.PLACE_DEFICIT F.PLACE_DEFICIT_OPEN = true → s.place.expired = false →
    s.on R.PLACE_WDR_CTL F.PLACE_WDR_CTL_AUTO_WDR = false → Gives .deficitGraceExpiry s fun t =>
      t.place = { s.place with expired := true } ∧ t.dram = s.dram ∧ t.wdb = s.wdb ∧ RegsKept s t [0x014] []) ∧
  (∀ (s : State) p, Calm s → s.released = true → s.on R.PLACE_DEFICIT F.PLACE_DEFICIT_OPEN = true → s.place.expired = false →
    s.on R.PLACE_WDR_CTL F.PLACE_WDR_CTL_AUTO_WDR = true → s.fld R.PLACE_DEFICIT F.PLACE_DEFICIT_COUNT = 1 →
    s.withdrawOrder.head? = some p → s.migOf p = none → s.place.keelQ = [] → Gives .deficitGraceExpiry s fun t =>
      eState (t.entry p) = 4 ∧ EntriesKeptBut s t p) ∧
  (∀ (s : State) w, Calm s → Open s w.path R.PLACE_WDR_CTL → s.on R.PLACE_DEFICIT F.PLACE_DEFICIT_OPEN = false →
    Gives (.autoWdrSet w) s fun t =>
      t.on R.PLACE_WDR_CTL F.PLACE_WDR_CTL_AUTO_WDR = true ∧
        t.fld R.PLACE_WDR_CTL F.PLACE_WDR_CTL_GRACE_MS = F.PLACE_WDR_CTL_GRACE_MS.get w.value ∧ MemKept s t ∧
        RegsKept s t [0x014] [R.PLACE_WDR_CTL]) ∧
  (∀ (s : State) w, Calm s → Open s w.path R.PLACE_PIN_LIMIT → Gives (.spareResWrite true w) s fun t =>
      t.fld R.PLACE_PIN_LIMIT F.PLACE_PIN_LIMIT_LIMIT = F.PLACE_PIN_LIMIT_LIMIT.get w.value ∧
        t.place.table = s.place.table ∧ t.dram = s.dram ∧ RegsKept s t [0x014] [R.PLACE_PIN_LIMIT, R.PLACE_DEFICIT]) ∧
  (∀ (s : State) w, Calm s → Open s w.path R.PLACE_SPARE_RES → Gives (.spareResWrite false w) s fun t =>
      t.fld R.PLACE_SPARE_RES F.PLACE_SPARE_RES_RESERVE = F.PLACE_SPARE_RES_RESERVE.get w.value ∧
        t.place.table = s.place.table ∧ t.dram = s.dram ∧ RegsKept s t [0x014] [R.PLACE_SPARE_RES, R.PLACE_DEFICIT]) ∧
  (∀ (s : State) w n, Calm s → Open s w.path R.PLACE_WDR_CMD → n = F.PLACE_WDR_CMD_PARCEL.get w.value →
    F.PLACE_WDR_CMD_COUNT.get w.value = 0 → n < s.parcels → eState (s.entry n) = 4 → Gives (.wdrCmdReinstate w) s fun t =>
      eState (t.entry n) = 3 ∧ EntriesKeptBut s t n ∧ t.dram = s.dram ∧ t.wdb = s.wdb ∧ t.cache = s.cache) ∧
  (∀ (s : State) w n, Calm s → Open s w.path R.PLACE_LOC_QUERY → n = F.PLACE_LOC_QUERY_PARCEL.get w.value → n < s.parcels →
    Gives (.locQuery w) s fun t =>
      t.fld R.PLACE_LOC_RESULT F.PLACE_LOC_RESULT_ENTRY = (s.entry n).toNat % 2 ^ 28 ∧
        t.on R.PLACE_LOC_RESULT F.PLACE_LOC_RESULT_DONE = true ∧ MemKept s t ∧
        RegsKept s t [0x014] [R.PLACE_LOC_RESULT, R.PLACE_LOC_RESULT2]) ∧
  (∀ (s : State) w, Calm s → Open s w.path R.PLACE_LOC_QUERY → s.parcels ≤ F.PLACE_LOC_QUERY_PARCEL.get w.value →
    Gives (.locQuery w) s fun t =>
      t.fld R.PLACE_LOC_RESULT F.PLACE_LOC_RESULT_ENTRY = 0 ∧ t.on R.PLACE_LOC_RESULT F.PLACE_LOC_RESULT_DONE = true ∧
        t.rd R.PLACE_LOC_RESULT2 = 0) ∧
  (∀ (s : State) w, Calm s → Open s w.path R.PLACE_WDR_FIND → (∀ e ∈ s.place.table, eState e.2 ≠ 4) → Gives (.wdrFind w) s fun t =>
      t.on R.PLACE_WDR_FOUND F.PLACE_WDR_FOUND_NONE = true ∧ t.on R.PLACE_WDR_FOUND F.PLACE_WDR_FOUND_DONE = true ∧
        MemKept s t ∧ RegsKept s t [0x014] [R.PLACE_WDR_FOUND])

/-- The keel area (R162): CKPT_NOW starts a checkpoint once the table is laid out, and so does CHECKPOINT_TIMER unless CKPT_S
is 0; CHECKPOINT_DONE writes the table and the frame map into the older slot of every valid mirror and counts it;
KEEL_REBUILD_DONE makes a mirror valid again, with the journal of the other. -/
def Obligations.KeelArea : Prop :=
  (∀ (s : State) w, Calm s → Open s w.path R.PLACE_JOURNAL_CTL → s.place.laid = true → Gives (.ckptNow w) s fun t =>
      t.place = { s.place with ckptBusy := true } ∧
        t.fld R.PLACE_JOURNAL_CTL F.PLACE_JOURNAL_CTL_CKPT_S = F.PLACE_JOURNAL_CTL_CKPT_S.get w.value ∧ t.dram = s.dram ∧
        RegsKept s t [0x014] [R.PLACE_JOURNAL_CTL]) ∧
  (∀ s : State, s.released = true → s.place.laid = true → s.fld R.PLACE_JOURNAL_CTL F.PLACE_JOURNAL_CTL_CKPT_S ≠ 0 →
    exec .checkpointTimer s = .next { s with place := { s.place with ckptBusy := true } }) ∧
  (∀ s : State, s.fld R.PLACE_JOURNAL_CTL F.PLACE_JOURNAL_CTL_CKPT_S = 0 → exec .checkpointTimer s = .next s) ∧
  (∀ (s : State) slot, s.released = true → s.place.ckptBusy = true → slot = (if s.slotSeq 0 ≤ s.slotSeq 1 then 0 else 1) →
    Gives .checkpointDone s fun t =>
      (∀ b : Bool, s.mirrorOk b = true → SMap.get (fun _ => []) t.place.ckptTable (2 * b.toNat + slot) = s.place.table ∧
        SMap.get (fun _ => []) t.place.ckptFrames (2 * b.toNat + slot) = s.place.frames) ∧
      (∀ b : Bool, SMap.get (fun _ => []) t.place.ckptTable (2 * b.toNat + (1 - slot))
        = SMap.get (fun _ => []) s.place.ckptTable (2 * b.toNat + (1 - slot))) ∧
        t.place.ckptBusy = false ∧ t.place.table = s.place.table ∧ t.rd R.PLACE_CKPTS = s.rd R.PLACE_CKPTS + 1 ∧
        t.dram = s.dram) ∧
  (∀ (s : State) b, Calm s → s.released = true → s.mirrorOk b = false → s.mirrorOk (!b) = true → s.place.keelQ = [] → s.place.keelLost = [] →
    Gives (.keelRebuildDone b) s fun t =>
      t.mirrorOk b = true ∧ t.journalOf b = s.journalOf (!b) ∧
        t.on R.PLACE_KEEL_STAT F.PLACE_KEEL_STAT_RELOCATING = false ∧ t.place.table = s.place.table ∧
        t.place.frames = s.place.frames ∧ t.dram = s.dram ∧ RegsKept s t [0x014] [R.PLACE_KEEL_STAT])

/-! ### The write data buffer and the cache die -/

/-- WRITE_DRAIN (R171) of a line of a readable parcel outside Close, the look-up finding no error and no migration running:
one whose sector stands in an active bank of the cache die is written into the way, valid and dirty, with AGE 0; one that
is neither there nor eligible, and that no scan of a bank has put into the buffer, goes to the write queue of its frame, when
that has room and its pseudo-channel can be reached, its look-up on the cache die counting as a miss. -/
def Obligations.WriteDrain : Prop :=
  (∀ (s : State) (li : BitVec 31) m l, s.released = true → NoFills s → NoErr m → s.place.mig = [] → s.wdbLine li.toNat = some l →
    eState (s.entry (liParcel li.toNat)) < 2 → s.wdbScanned li.toNat = false →
    s.cacheOn = false ∨ (s.sectorWay (s.liQuad li.toNat) li.toNat = none ∧ s.eligible li.toNat = false) →
    s.writeRoom (eFrame (s.entry (liParcel li.toNat))) = true →
    s.spare.unreadable.contains (fPc (eFrame (s.entry (liParcel li.toNat)))) = false → Gives (.writeDrain li m) s fun t =>
      t.wdbLine li.toNat = none ∧ WdbKeptBut s t li.toNat ∧
        t.frameLine (eFrame (s.entry (liParcel li.toNat))) (liOff li.toNat) = l ∧ t.dram = s.dram ∧ t.cache = s.cache ∧
        t.place = s.place ∧ RegsKept s t [] [R.CACHE_MISSES_LO, R.CACHE_MISSES_HI]) ∧
  (∀ (s : State) (li : BitVec 31) m l w k, s.released = true → NoFills s → NoErr m → s.place.mig = [] → s.wdbLine li.toNat = some l →
    eState (s.entry (liParcel li.toNat)) < 2 → s.cacheOn = true →
    s.sectorWay (s.liQuad li.toNat) li.toNat = some w → s.bankActive (wayBank (s.liQuad li.toNat) w) = true →
    k = wayKey (s.liQuad li.toNat) (cSet li.toNat) w → Gives (.writeDrain li m) s fun t =>
      t.wdbLine li.toNat = none ∧ WdbKeptBut s t li.toNat ∧ t.cacheData k (li.toNat % 4) = l ∧
        (tValid (t.tag k)).testBit (li.toNat % 4) = true ∧ (tDirty (t.tag k)).testBit (li.toNat % 4) = true ∧
        tAge (t.tag k) = 0 ∧ (∀ j, j ≠ k → t.tag j = s.tag j) ∧ t.dram = s.dram ∧ t.place = s.place)

/-- BG_WRITEBACK (R173) of a quadrant above DIRTY_HIGH, with no flush running, no fill waiting, nothing to prefetch and a look-up without
error: the oldest dirty sector, when the background share has room for it, is left valid and clean. FLUSH, INVALIDATE
and CACHE_ENABLE_WRITE (R180, R181) on an enabled cache in which no flush runs: the flush starts, FLUSHING shows it and
no line changes yet; BG_WRITEBACK of the last quadrant, its sectors being clean, ends it: FLUSH leaves the sectors
as they are, INVALIDATE leaves none valid in the quadrant, and a cleared ENABLE also disables the cache and powers
PD125 off. Setting ENABLE with no other command powers the die again. -/
def Obligations.CacheMaintenance : Prop :=
  (∀ (s : State) (q : Fin 4) m k, s.released = true → NoFills s → NoErr m → s.place.mig = [] → s.cache.job = none → s.cacheOn = true →
    s.on R.CACHE_CACHE_CTL F.CACHE_CACHE_CTL_CLEAN_EN = true →
    s.fld R.CACHE_DIRTY_CTL F.CACHE_DIRTY_CTL_DIRTY_HIGH * 1024 < s.fld (R.CACHE_DIRTY_LINES q) F.CACHE_DIRTY_LINES_COUNT →
    s.cache.order.find? (fun k => keyQuad k == q.val && tDirty (s.tag k) != 0 && !s.frameHeld (s.wayFrame k)) = some k →
    s.bgFits (64 * popcount4 (tDirty (s.tag k))) = true → s.cache.flushQ = [] → s.cache.prefetchQ = [] →
    Gives (.bgWriteback q m) s fun t =>
      tDirty (t.tag k) = 0 ∧ tValid (t.tag k) = tValid (s.tag k) ∧ tTag (t.tag k) = tTag (s.tag k) ∧ t.otp = s.otp) ∧
  (∀ (s : State) w, Open s w.path R.CACHE_CACHE_CTL → Calm s → s.cacheOn = true → s.cache.job = none →
    s.on R.CACHE_CACHE_CTL F.CACHE_CACHE_CTL_ENABLE = true → Gives (.flush w) s fun t =>
      (F.CACHE_CACHE_CTL_ENABLE.get w.value = 1 → F.CACHE_CACHE_CTL_INVALIDATE.get w.value = 0 → t.cache.job = some .flush) ∧
        t.on R.CACHE_CACHE_STAT F.CACHE_CACHE_STAT_FLUSHING = true ∧ t.cache.jobDone = [] ∧ t.cache.tags = s.cache.tags ∧
        t.cache.data = s.cache.data ∧ t.place = s.place ∧ t.dram = s.dram ∧ t.wdb = s.wdb ∧ t.otp = s.otp) ∧
  (∀ (s : State) w, Open s w.path R.CACHE_CACHE_CTL → Calm s → s.cacheOn = true → s.cache.job = none →
    s.on R.CACHE_CACHE_CTL F.CACHE_CACHE_CTL_ENABLE = true → Gives (.invalidate w) s fun t =>
      (F.CACHE_CACHE_CTL_ENABLE.get w.value = 1 → t.cache.job = some .invalidate) ∧
        t.on R.CACHE_CACHE_STAT F.CACHE_CACHE_STAT_FLUSHING = true ∧ t.cache.jobDone = [] ∧ t.cache.tags = s.cache.tags ∧
        t.cache.data = s.cache.data ∧ t.place = s.place ∧ t.dram = s.dram ∧ t.wdb = s.wdb ∧ t.otp = s.otp) ∧
  (∀ (s : State) w, Open s w.path R.CACHE_CACHE_CTL → Calm s → s.cacheOn = true → F.CACHE_CACHE_CTL_ENABLE.get w.value = 0 →
    Gives (.cacheEnableWrite w) s fun t =>
      t.cache.job = some .disable ∧ t.on R.CACHE_CACHE_STAT F.CACHE_CACHE_STAT_FLUSHING = true ∧
        t.cache.tags = s.cache.tags ∧ t.cache.data = s.cache.data ∧ t.place = s.place ∧ t.dram = s.dram ∧ t.wdb = s.wdb) ∧
  (∀ (s : State) (q : Fin 4) m j k, s.released = true → NoFills s → NoErr m → s.place.mig = [] → s.cacheOn = true → s.cache.job = some j →
    (∀ p : Fin 4, p ≠ q → p.val ∈ s.cache.jobDone) → (∀ e ∈ s.cache.tags, keyQuad e.1 = q.val → tDirty e.2 = 0) →
    s.on R.CACHE_CACHE_CTL F.CACHE_CACHE_CTL_CLEAN_EN = false → s.cache.flushQ = [] → s.cache.prefetchQ = [] →
    keyQuad k = q.val → (∀ b : Fin 16, s.bankState b ≠ 1) → Gives (.bgWriteback q m) s fun t =>
      t.cache.job = none ∧ t.on R.CACHE_CACHE_STAT F.CACHE_CACHE_STAT_FLUSHING = false ∧
        (j = .flush → t.tag k = s.tag k) ∧ (j ≠ .flush → tValid (t.tag k) = 0) ∧
        (j = .disable → s.on R.CACHE_CACHE_CTL F.CACHE_CACHE_CTL_ENABLE = false →
          t.cacheOn = false ∧ t.on R.CACHE_CACHE_STAT F.CACHE_CACHE_STAT_PD_OFF = true) ∧
        t.place = s.place ∧ t.dram = s.dram ∧ t.wdb = s.wdb) ∧
  (∀ (s : State) w, Open s w.path R.CACHE_CACHE_CTL → Calm s → s.cacheOn = false →
    s.on R.CACHE_CACHE_STAT F.CACHE_CACHE_STAT_DIE_RETIRED = false → F.CACHE_CACHE_CTL_ENABLE.get w.value = 1 →
    F.CACHE_CACHE_CTL_FLUSH.get w.value = 0 → F.CACHE_CACHE_CTL_INVALIDATE.get w.value = 0 →
    Gives (.cacheEnableWrite w) s fun t =>
      t.cacheOn = true ∧ t.on R.CACHE_CACHE_STAT F.CACHE_CACHE_STAT_PD_OFF = false ∧ MemKept s t ∧
        RegsKept s t [0x014] [R.CACHE_CACHE_CTL, R.CACHE_CACHE_STAT])

/-- Retirement of a cache bank (R178): BANK_CMD_RETIRE of an active bank; BANK_SCAN_DONE of a retiring one that is not the
last, with room for its dirty lines and no migration running, retires it with no valid way. Timeouts (R179):
CACHE_BANK_TIMEOUT of a clean line invalidates it; of a dirty line, the retry timing out too, it loses the line and
stores it poisoned with zero data; CACHE_DIE_NOT_RESPONDING, every active bank having timed out, ends the use of the
cache. -/
def Obligations.CacheLoss : Prop :=
  (∀ (s : State) path (b : Fin 16), Open s path R.CDIE_BANK_CMD → Calm s → s.bankState b = 0 → Gives (.bankCmdRetire path b) s fun t =>
      t.bankState b = 1 ∧ t.on R.CACHE_CACHE_STAT F.CACHE_CACHE_STAT_FLUSHING = true ∧ MemKept s t ∧
        RegsKept s t [0x014] [R.CDIE_BANK_STAT b, R.CACHE_CACHE_STAT]) ∧
  (∀ (s : State) (b c : Fin 16) m k, s.released = true → NoFills s → NoErr m → Calm s → s.place.mig = [] → s.bankState b = 1 → c ≠ b → s.bankState c ≠ 2 →
    keyBank k = b.val → s.bufferRoom (256 * s.cache.tags.length) = true → Gives (.bankScanDone b m) s fun t =>
      t.bankState b = 2 ∧ tValid (t.tag k) = 0 ∧ t.bit R.CACHE_BANK_MAP F.CACHE_BANK_MAP_ACTIVE b = false ∧
        t.bit R.CACHE_BANK_MAP F.CACHE_BANK_MAP_RETIRED b = true ∧ t.dram = s.dram ∧ t.place = s.place) ∧
  (∀ (s : State) (b : Fin 16) a (li : BitVec 31) again k, s.released = true → NoFills s → s.place.mig = [] → s.cached li.toNat = some k → keyBank k = b.val →
    s.wdbLine li.toNat = none → (tDirty (s.tag k)).testBit (li.toNat % 4) = false →
    Gives (.cacheBankTimeout b a li again) s fun t =>
      (tValid (t.tag k)).testBit (li.toNat % 4) = false ∧ (∀ j, j ≠ k → t.tag j = s.tag j) ∧ b.val ∈ t.cache.timedOut ∧
        t.dram = s.dram ∧ t.wdb = s.wdb ∧ t.place = s.place) ∧
  (∀ (s : State) (b : Fin 16) a (li : BitVec 31) k, s.released = true → NoFills s → s.place.mig = [] → s.cached li.toNat = some k → keyBank k = b.val →
    s.wdbLine li.toNat = none → (tDirty (s.tag k)).testBit (li.toNat % 4) = true →
    eState (s.entry (liParcel li.toNat)) = 0 → Gives (.cacheBankTimeout b a li true) s fun t =>
      (tValid (t.tag k)).testBit (li.toNat % 4) = false ∧ (t.homeLine li.toNat).poisoned = true ∧
        (t.homeLine li.toNat).data = 0 ∧ t.rd R.CACHE_DIRTY_POISONED = s.rd R.CACHE_DIRTY_POISONED + 1 ∧
        t.rd R.XACT_POISON_NEW = s.rd R.XACT_POISON_NEW + 1 ∧ t.wdb = s.wdb ∧ t.place.table = s.place.table) ∧
  (∀ (s : State) k, Calm s → s.place.mig = [] → s.cacheOn = true →
    (ways.filter s.bankActive).all s.cache.timedOut.contains = true →
    s.on R.CACHE_CACHE_STAT F.CACHE_CACHE_STAT_DIE_RETIRED = false → Gives .cacheDieNotResponding s fun t =>
      t.on R.CDIE_CDIE_STAT F.CDIE_CDIE_STAT_RESPONDING = false ∧ t.cacheOn = false ∧
        t.on R.CACHE_CACHE_STAT F.CACHE_CACHE_STAT_DIE_RETIRED = true ∧ tValid (t.tag k) = 0 ∧
        t.place.table = s.place.table)

/-! ### DRAM controllers, PHYs and scrub -/

/-- DRAM_SCHEDULE (R193 to R197, R213), with nothing retiring, in a pseudo-channel that is awake and whose only request, or only refresh, is the
one named: a write to the open row is performed, changes no other line of its frame and drops corrections of its line; a
read of the open row takes the stored line with it; a closed bank is activated; another open row is precharged; a due
refresh is issued. A channel without a controller does nothing. -/
def Obligations.DramSchedule : Prop :=
  (∀ (s : State) (c : Fin 32) (p : Bool) k x r q, s.sliceOpen c = true → s.rowRep c = none → s.ctrlOf c = some k →
    s.pchLive (2 * c + p.toNat) = true → Quiet s → x = s.pch (2 * c + p.toNat) → x.rq = [] → x.wq = [r] → x.scrub = [] → x.refs = [] →
    x.flight = [] → x.pd = false → x.wake ≤ x.now → r.write = true → fPc r.f = 2 * c + p.toNat → q = x.tick (s.timing k c) →
    (q.bank r.bank).st = 2 → q.canWrite (s.timing k c) r = true → q.colOpen (s.timing k c) r = true →
    (x.bank r.bank).streak < s.streakMax k → Gives (.dramSchedule c p false) s fun t =>
      t.dramRead r.f r.o = r.line ∧ (∀ o : Fin 1024, o.val ≠ r.o → t.dramRead r.f o = s.dramRead r.f o) ∧
        (t.pch (2 * c + p.toNat)).wq = [] ∧ (t.pch (2 * c + p.toNat)).corr.all (fun y => !DReq.at_ y r.f r.o) = true ∧
        t.rd64 (R.CHC_WRITES_LO k) = s.rd64 (R.CHC_WRITES_LO k) + 1 ∧
        t.place.table = s.place.table ∧ t.cache = s.cache ∧ t.wdb = s.wdb) ∧
  (∀ (s : State) (c : Fin 32) (p : Bool) k x r q, s.sliceOpen c = true → s.rowRep c = none → s.ctrlOf c = some k →
    s.pchLive (2 * c + p.toNat) = true → Quiet s → x = s.pch (2 * c + p.toNat) → x.rq = [r] → x.wq = [] → x.scrub = [] → x.refs = [] →
    x.flight = [] → x.pd = false → x.wake ≤ x.now → r.write = false → r.scrub = false → x.writeMode = false →
    q = x.tick (s.timing k c) → q.canRead (s.timing k c) r = true → (q.bank r.bank).st = 2 →
    q.colOpen (s.timing k c) r = true → (x.bank r.bank).streak < s.streakMax k →
    Gives (.dramSchedule c p false) s fun t =>
      (t.pch (2 * c + p.toNat)).flight = [{ r with line := s.dramRead r.f r.o }] ∧ (t.pch (2 * c + p.toNat)).rq = [] ∧
        t.rd64 (R.CHC_READS_LO k) = s.rd64 (R.CHC_READS_LO k) + 1 ∧ MemKept s t) ∧
  (∀ (s : State) (c : Fin 32) (p : Bool) k x r q, s.sliceOpen c = true → s.rowRep c = none → s.ctrlOf c = some k →
    s.pchLive (2 * c + p.toNat) = true → Quiet s → x = s.pch (2 * c + p.toNat) → x.rq = [r] → x.wq = [] → x.scrub = [] → x.corr = [] → x.refs = [] →
    x.flight = [] → x.pd = false → x.wake ≤ x.now → r.write = false → x.writeMode = false → q = x.tick (s.timing k c) →
    (q.bank r.bank).st = 0 → q.canAct (s.timing k c) r = true → q.colOpen (s.timing k c) r = true → Gives (.dramSchedule c p false) s fun t =>
      ((t.pch (2 * c + p.toNat)).bank r.bank).st = 1 ∧ ((t.pch (2 * c + p.toNat)).bank r.bank).row = r.row ∧
        ((t.pch (2 * c + p.toNat)).bank r.bank).act = x.now + 1 ∧ (t.pch (2 * c + p.toNat)).rq = [{ r with acted := true }] ∧
        t.rd (R.CHC_ACTIVATES k) = s.rd (R.CHC_ACTIVATES k) + 1 ∧ MemKept s t) ∧
  (∀ (s : State) (c : Fin 32) (p : Bool) k x r q, s.sliceOpen c = true → s.rowRep c = none → s.ctrlOf c = some k →
    s.pchLive (2 * c + p.toNat) = true → Quiet s → x = s.pch (2 * c + p.toNat) → x.rq = [r] → x.wq = [] → x.scrub = [] → x.corr = [] → x.refs = [] →
    x.flight = [] → x.pd = false → x.wake ≤ x.now → r.write = false → x.writeMode = false → q = x.tick (s.timing k c) →
    (q.bank r.bank).st = 2 → (q.bank r.bank).row ≠ r.row → q.canPre (s.timing k c) r.bank = true →
    q.colOpen (s.timing k c) r = true →
    Gives (.dramSchedule c p false) s fun t =>
      ((t.pch (2 * c + p.toNat)).bank r.bank).st = 3 ∧ ((t.pch (2 * c + p.toNat)).bank r.bank).pre = x.now + 1 ∧
        t.rd (R.CHC_CONFLICTS k) = s.rd (R.CHC_CONFLICTS k) + 1 ∧ MemKept s t) ∧
  (∀ (s : State) (c : Fin 32) (p : Bool) k x r q, s.sliceOpen c = true → s.rowRep c = none → s.ctrlOf c = some k →
    s.pchLive (2 * c + p.toNat) = true → Quiet s → x = s.pch (2 * c + p.toNat) → x.rq = [] → x.wq = [] → x.scrub = [] → x.corr = [] → x.refs = [r] →
    x.pd = false → x.wake ≤ x.now → r.due = true → r.row = none → s.remapOf c = none → q = x.tick (s.timing k c) →
    q.canRef (s.timing k c) r.bank = true → Gives (.dramSchedule c p false) s fun t =>
      ((t.pch (2 * c + p.toNat)).bank r.bank).st = 4 ∧ ((t.pch (2 * c + p.toNat)).bank r.bank).ref = x.now + 1 ∧
        (t.pch (2 * c + p.toNat)).refs = [] ∧ t.rd64 R.RFM_REF_LO = s.rd64 R.RFM_REF_LO + 1 ∧ MemKept s t) ∧
  (∀ (s : State) (c : Fin 32) (p bad : Bool), s.ctrlOf c = none → s.rowRep c = none → Quiet s →
    exec (.dramSchedule c p bad) s = .next s)

/-- READ_DATA_RETURN (R187 to R190) of a one-line read of a frame that can be reached, no migration or retirement running,
no fill waiting and the look-up finding no error: a good word is the answer, here for a read with NO_ALLOC; a word that stays uncorrectable and is not superseded is
counted, answered as poison and replaced by poison at its location; a corrected word of a scrub read is counted and queued for
its write-back; with nothing in flight nothing changes. CORRECTION_WRITEBACK is a clock of the pseudo-channel: with nothing
else queued and the row open it writes the correction, and with none queued it changes nothing. -/
def Obligations.DramReturns : Prop :=
  (∀ (s : State) (c : Fin 32) (p : Bool) i j m x rest r n, NoErr m → NoFills s → s.place.mig = [] → Quiet s →
    (s.pch (2 * c + p.toNat)).flight = x :: rest → s.unreadable x.f = false → x.scrub = false →
    State.decodeRead (s.corrMax x.f) (s.retryEn x.f) (1024 * x.f + x.o) (s.burst x.f x.o x.line i) (s.burst x.f x.o x.line j) =
      { line := n } → n.poisoned = false →
    s.xact.reqs.find? (fun r => decide (r.id = x.req)) = some r → r.stage = .reading → Plain r → x.idx = 0 →
    r.lines = [none] → (hArg r.header).testBit 0 = true → Gives (.readDataReturn c p i j m) s fun t =>
      Answered t r.id 0 (some (lineSlots n.data)) ∧ (t.pch (2 * c + p.toNat)).flight = rest ∧ MemKept s t ∧
        RegsKept s t [] []) ∧
  (∀ (s : State) (c : Fin 32) (p : Bool) i j m x rest r n, NoErr m → NoFills s → s.place.mig = [] → Quiet s →
    (s.pch (2 * c + p.toNat)).flight = x :: rest → s.unreadable x.f = false → x.scrub = false → (s.pch (2 * c + p.toNat)).rq = [] →
    State.decodeRead (s.corrMax x.f) (s.retryEn x.f) (1024 * x.f + x.o) (s.burst x.f x.o x.line i) (s.burst x.f x.o x.line j) =
      { line := n, lost := true } → fPc x.f = 2 * c + p.toNat → s.superseded x = false → s.cached (hAddr r.header) = none →
    eHeld (s.live (hAddr r.header / 1024)) = true → eFrame (s.live (hAddr r.header / 1024)) = x.f →
    s.xact.reqs.find? (fun r => decide (r.id = x.req)) = some r → r.stage = .reading → Plain r → x.idx = 0 →
    r.lines = [none] → Gives (.readDataReturn c p i j m) s fun t =>
      Answered t r.id 1 none ∧ t.frameLine x.f x.o = Line.lost n.data ∧
        t.rd (R.CHC_ECC_UNCORR (s.ctrlPage (fChan x.f))) = s.rd (R.CHC_ECC_UNCORR (s.ctrlPage (fChan x.f))) + 1 ∧
        t.rd R.XACT_POISON_NEW = s.rd R.XACT_POISON_NEW + 1 ∧ t.rd R.XACT_POISON_RD = s.rd R.XACT_POISON_RD + 1 ∧
        MemKept s t) ∧
  (∀ (s : State) (c : Fin 32) (p : Bool) i j m x rest n b, Quiet s →
    (s.pch (2 * c + p.toNat)).flight = x :: rest → s.unreadable x.f = false → x.scrub = true →
    State.decodeRead (s.corrMax x.f) (s.retryEn x.f) (1024 * x.f + x.o) (s.burst x.f x.o x.line i) (s.burst x.f x.o x.line j) =
      { line := n, bytes := b } → b ≠ [] → fPc x.f = 2 * c + p.toNat → s.superseded x = false → s.frameCode x.f ≠ 2 →
    Gives (.readDataReturn c p i j m) s fun t =>
      (t.pch (2 * c + p.toNat)).corr.any (fun y => DReq.at_ y x.f x.o && y.line == n) = true ∧
        t.rd (R.CHC_ECC_CORR (s.ctrlPage (fChan x.f))) = s.rd (R.CHC_ECC_CORR (s.ctrlPage (fChan x.f))) + 1 ∧
        t.rd R.SCRUB_CORRECTED = s.rd R.SCRUB_CORRECTED + 1 ∧
        t.rd64 R.SCRUB_WORDS_LO = s.rd64 R.SCRUB_WORDS_LO + 1 ∧ MemKept s t) ∧
  (∀ (s : State) (c : Fin 32) (p : Bool) i j m, (s.pch (2 * c + p.toNat)).flight = [] → Quiet s →
    exec (.readDataReturn c p i j m) s = .next s) ∧
  (∀ (s : State) (c : Fin 32) (p : Bool) k x r q, s.sliceOpen c = true → s.rowRep c = none → s.ctrlOf c = some k →
    s.pchLive (2 * c + p.toNat) = true → Quiet s → x = s.pch (2 * c + p.toNat) → x.rq = [] → x.wq = [] → x.scrub = [] → x.refs = [] → x.corr = [r] →
    x.flight = [] → x.pd = false → x.wake ≤ x.now → r.write = true → fPc r.f = 2 * c + p.toNat → q = x.tick (s.timing k c) →
    (q.bank r.bank).st = 2 → q.canWrite (s.timing k c) r = true → q.colOpen (s.timing k c) r = true →
    Gives (.correctionWriteback c p) s fun t =>
      t.dramRead r.f r.o = r.line ∧ (∀ o : Fin 1024, o.val ≠ r.o → t.dramRead r.f o = s.dramRead r.f o) ∧
        (t.pch (2 * c + p.toNat)).corr = [] ∧ t.rd64 (R.CHC_WRITES_LO k) = s.rd64 (R.CHC_WRITES_LO k) + 1 ∧
        t.cache = s.cache ∧ t.wdb = s.wdb ∧ t.place.table = s.place.table) ∧
  (∀ (s : State) (c : Fin 32) (p : Bool), (s.pch (2 * c + p.toNat)).corr = [] → Quiet s →
    exec (.correctionWriteback c p) s = .next s)

/-- POWER_DOWN_ENTRY (R200) with both queues empty and PD_EN; REFRESH_SLOT (R211) of a bank not retired; REFRESH_DUE (R213):
the bank's oldest refresh that is not due becomes due; REFRESH_STEP_DOWN (R212) of a die HYST_C below 85 °C; CONTROLLER_SWAP
onto a spare of the quadrant, and CONTROLLER_SWAP_DONE of a controller not declared, its queues empty (R202). -/
def Obligations.RefreshAndSwap : Prop :=
  (∀ (s : State) (c : Fin 32) (p : Bool) k, s.released = true → s.ctrlOf c = some k → s.pchLive (2 * c + p.toNat) = true →
    (s.pch (2 * c + p.toNat)).rq = [] → (s.pch (2 * c + p.toNat)).wq = [] → (s.pch (2 * c + p.toNat)).pd = false →
    s.on (R.CHC_SCHED_CTL k) F.CHC_SCHED_CTL_PD_EN = true → Gives (.powerDownEntry c p) s fun t =>
      t.pch (2 * c + p.toNat) = { s.pch (2 * c + p.toNat) with pd := true, awake := false } ∧
        t.rd (R.CHC_PD_ENTRIES k) = s.rd (R.CHC_PD_ENTRIES k) + 1 ∧ MemKept s t ∧ RegsKept s t [] [R.CHC_PD_ENTRIES k]) ∧
  (∀ (s : State) (c : Fin 32) (p : Bool) (b : Fin 64), s.released = true → s.pchLive (2 * c + p.toNat) = true →
    s.bankGone (2 * c + p.toNat) b = false → Gives (.refreshSlot c p b) s fun t =>
      t.pch (2 * c + p.toNat) = { s.pch (2 * c + p.toNat) with refs := (s.pch (2 * c + p.toNat)).refs ++ [⟨b, false, none⟩] } ∧
        MemKept s t ∧ RegsKept s t [] []) ∧
  (∀ (s : State) (c : Fin 32) (p : Bool) (b : Fin 64) x y, s.released = true → s.pchLive (2 * c + p.toNat) = true →
    (s.pch (2 * c + p.toNat)).refs = x ++ ⟨b, false, none⟩ :: y → (∀ r ∈ x, r.bank ≠ b.val ∨ r.due = true) →
    Gives (.refreshDue c p b) s fun t =>
      (t.pch (2 * c + p.toNat)).refs = x ++ ⟨b, true, none⟩ :: y ∧ t.rd R.RFM_REF_DUE = s.rd R.RFM_REF_DUE + 1 ∧
        MemKept s t ∧ RegsKept s t [] [R.RFM_REF_DUE]) ∧
  (∀ (s : State) (d : Fin 16), s.dieReading d + (s.hystC : Nat) ≤ 85 → s.forceStep = 0 → 0 < s.dieStep d →
    Gives (.refreshStepDown d) s fun t =>
      t.dieStep d = 0 ∧ (∀ e : Fin 16, e ≠ d → t.dieStep e = s.dieStep e) ∧ MemKept s t ∧ RegsKept s t [] [R.RFM_REF_STEP]) ∧
  (∀ (s : State) (a b : Fin 36), s.released = true → a.val / 9 = b.val / 9 → s.on (R.CHC_CHAN_MAP a) F.CHC_CHAN_MAP_ACTIVE = true →
    s.ctrlSpare b = true → s.ch.swaps = [] → Gives (.controllerSwap a b) s fun t =>
      t.ch.swaps = [(a.val, b.val)] ∧ t.on (R.CHC_CHAN_MAP a) F.CHC_CHAN_MAP_SWAPPING = true ∧
        t.on (R.CHC_CHAN_MAP b) F.CHC_CHAN_MAP_SWAPPING = true ∧ MemKept s t ∧
        RegsKept s t [] [R.CHC_CHAN_MAP a, R.CHC_CHAN_MAP b]) ∧
  (∀ (s : State) (a b : Fin 36), Calm s → s.released = true → NoTest s → a ≠ b → s.ch.swaps = [(a.val, b.val)] → s.declared (resCtrl a) = false →
    (∀ pc : Fin 64, (s.pch pc).rq = [] ∧ (s.pch pc).wq = []) → Gives (.controllerSwapDone a) s fun t =>
      t.ch.swaps = [] ∧ t.on (R.CHC_CHAN_MAP a) F.CHC_CHAN_MAP_ACTIVE = false ∧
        t.on (R.CHC_CHAN_MAP b) F.CHC_CHAN_MAP_ACTIVE = true ∧
        t.fld (R.CHC_CHAN_MAP b) F.CHC_CHAN_MAP_CHANNEL = s.fld (R.CHC_CHAN_MAP a) F.CHC_CHAN_MAP_CHANNEL ∧
        t.rd (R.CHC_TIMING0 b) = s.rd (R.CHC_TIMING0 a) ∧ t.rd (R.CHC_SCHED_CTL b) = s.rd (R.CHC_SCHED_CTL a) ∧
        (∀ pc : Fin 64, (t.pch pc).wq = [] ∧ (t.pch pc).rq = []) ∧ MemKept s t)

/-- PERIODIC_TRAINING_DUE and PHY_RETRAIN (R205) with no commit pending and the channel not frozen or retired; the training's
end without a failed via (R468): its values wait for the bus gap. REMAP_CMD of a DQ via with a free spare, and a verify
that passes (R206): the spare is found and then waits for its switch. ROW_REPAIR_CMD fails on an occupied frame and holds
a FREE one while a spare row is left, and ROW_REPAIR_DONE counts the row (R207). -/
def Obligations.PhyAndRepairs : Prop :=
  (∀ (s : State) (c : Fin 32) (p : Bool), s.on (R.CHP_PHY_CTL c) F.CHP_PHY_CTL_PERIODIC_EN = true →
    s.on (R.CHP_PHY_CTL c) F.CHP_PHY_CTL_TRAIN_FREEZE = false → s.released = true → s.clk.dramInit = true →
    s.pchRetired (2 * c + p.toNat) = false → s.on R.CAL_CAL_STAT F.CAL_CAL_STAT_PENDING = false →
    Gives (.periodicTrainingDue c p) s fun t =>
      (t.pch (2 * c + p.toNat)).training = true ∧ t.on (R.CHP_PHY_STAT c) F.CHP_PHY_STAT_TRAINING = true ∧ MemKept s t ∧
        RegsKept s t [] [R.CHP_PHY_STAT c]) ∧
  (∀ (s : State) (c : Fin 32) w, Open s w.path (R.CHP_PHY_CTL c) → Calm s → F.CHP_PHY_CTL_TRAIN_FREEZE.get w.value = 0 →
    s.clk.dramInit = true → s.released = true → s.pchRetired (2 * c) = false → s.pchRetired (2 * c + 1) = false →
    s.on R.CAL_CAL_STAT F.CAL_CAL_STAT_PENDING = false → Gives (.phyRetrain c w) s fun t =>
      (t.pch (2 * c)).training = true ∧ (t.pch (2 * c + 1)).training = true ∧
        t.on (R.CHP_PHY_STAT c) F.CHP_PHY_STAT_TRAINING = true ∧ MemKept s t ∧
        RegsKept s t [0x014] [R.CHP_PHY_STAT c, R.CHP_PHY_CTL c]) ∧
  (∀ (s : State) (c : Fin 32) (p : Bool) x, Calm s → s.released = true → (s.pch (2 * c + p.toNat)).training = true → x.failed = [] →
    x.ckFailed = false → x.cal.all (fun v => decide (v.1.toNat < 58)) = true → Gives (.periodicTrainingDone c p x) s fun t =>
      (t.pch (2 * c + p.toNat)).training = false ∧
        (t.pch (2 * c + p.toNat)).apply = some (x.cal.map fun v => (v.1.toNat, v.2)) ∧
        t.rd (R.CHP_FAIL_MAP c p.toNat) = 0 ∧ MemKept s t) ∧
  (∀ (s : State) (c : Fin 32) w i, Open s w.path (R.CHP_REMAP_CMD c) → Calm s → s.remapOf c = none →
    F.CHP_REMAP_CMD_CLASS.get w.value = 0 →
    (State.spareNums false).find? (s.spareFree (2 * c + F.CHP_REMAP_CMD_PCH.get w.value) false) = some i →
    Gives (.remapCmd c w) s fun t =>
      t.remapOf c = some ⟨F.CHP_REMAP_CMD_PCH.get w.value, false, F.CHP_REMAP_CMD_VIA.get w.value, i, false⟩ ∧
        t.on (R.CHP_REMAP_STAT c) F.CHP_REMAP_STAT_BUSY = true ∧ MemKept s t ∧
        RegsKept s t [0x014] [R.CHP_REMAP_STAT c]) ∧
  (∀ (s : State) (c : Fin 32) (p : Bool) r, Calm s → s.released = true → s.remapOf c = some r → r.p = p.toNat → r.verified = false → r.spare < 4 →
    s.ch.remapQ = [] → Gives (.remapVerifyDone c p true) s fun t =>
      t.remapOf c = some { r with verified := true } ∧ MemKept s t ∧ RegsKept s t [0x014] [R.CHP_FAIL_MAP2 c p.toNat]) ∧
  (∀ (s : State) (c : Fin 32) w f, Open s w.path (R.CHP_ROW_REPAIR_CMD c) → Calm s → s.rowRep c = none →
    f = frameOfRow c (F.CHP_ROW_REPAIR_CMD_PCH.get w.value) (F.CHP_ROW_REPAIR_CMD_SID.get w.value)
      (F.CHP_ROW_REPAIR_CMD_BANK.get w.value) (F.CHP_ROW_REPAIR_CMD_ROW.get w.value) →
    s.occupied f = true → Gives (.rowRepairCmd c w) s fun t =>
      t.on (R.CHP_ROW_REPAIR_STAT c) F.CHP_ROW_REPAIR_STAT_FAILED = true ∧ t.rowRep c = none ∧ MemKept s t ∧
        RegsKept s t [0x014] [R.CHP_ROW_REPAIR_STAT c]) ∧
  (∀ (s : State) (c : Fin 32) w f, Open s w.path (R.CHP_ROW_REPAIR_CMD c) → Calm s → s.rowRep c = none →
    f = frameOfRow c (F.CHP_ROW_REPAIR_CMD_PCH.get w.value) (F.CHP_ROW_REPAIR_CMD_SID.get w.value)
      (F.CHP_ROW_REPAIR_CMD_BANK.get w.value) (F.CHP_ROW_REPAIR_CMD_ROW.get w.value) →
    s.frameCode f = 0 → s.rowsUsedOf (2 * c + F.CHP_ROW_REPAIR_CMD_PCH.get w.value)
      (16 * F.CHP_ROW_REPAIR_CMD_SID.get w.value + F.CHP_ROW_REPAIR_CMD_BANK.get w.value) < 4 →
    Gives (.rowRepairCmd c w) s fun t =>
      t.on (R.CHP_ROW_REPAIR_STAT c) F.CHP_ROW_REPAIR_STAT_BUSY = true ∧ t.frameCode f = 1 ∧ f ∈ t.place.zeroing ∧
        t.place.table = s.place.table ∧ t.dram = s.dram ∧ RegsKept s t [0x014, 0x00C] [R.CHP_ROW_REPAIR_STAT c]) ∧
  (∀ (s : State) (c : Fin 32) r, Calm s → s.released = true → s.rowRep c = some r → Gives (.rowRepairDone c) s fun t =>
      t.rowRep c = none ∧ t.on (R.CHP_ROW_REPAIR_STAT c) F.CHP_ROW_REPAIR_STAT_BUSY = false ∧
        t.rowsUsedOf (2 * c + r.p) (16 * r.sid + r.bank) = s.rowsUsedOf (2 * c + r.p) (16 * r.sid + r.bank) + 1 ∧
        t.dram = s.dram ∧ t.place.table = s.place.table ∧ t.wdb = s.wdb ∧ t.cache = s.cache)

/-- SCRUB_ROW_DUE (R220) of the patrol: the sixteen reads of the pseudo-channel's next row are queued, and a cache bank's
sector without an error is passed. SCRUB_LATE (R223): the scrub reads are late, and go to the front of the read queue,
as many as its 64 entries have room for. SCRUB_CMD and SCRUB_CMD_DONE (R222): a command starts unless one runs, and ends once
its range is complete. -/
def Obligations.Scrub : Prop :=
  (∀ (s : State) (c : Fin 32) (p : Bool) m i, s.released = true → s.pchLive (2 * c + p.toNat) = true → s.ch.scrubRun = none →
    s.on R.SCRUB_SCRUB_CTL F.SCRUB_SCRUB_CTL_EN = true → s.ch.walked = [] →
    s.nextRow (2 * c + p.toNat) 33000 (SMap.get (fun _ => 0) s.ch.walk (2 * c + p.toNat)) = some i →
    Gives (.scrubRowDue (.rows c p) m) s fun t =>
      (t.pch (2 * c + p.toNat)).scrub = (s.pch (2 * c + p.toNat)).scrub ++ (List.range 16).map (fun o =>
        { write := false, f := (State.walkRow (2 * c + p.toNat) i).1, o := (State.walkRow (2 * c + p.toNat) i).2 + o,
          scrub := true }) ∧
        SMap.get (fun _ => 0) t.ch.walk (2 * c + p.toNat) = i + 1 ∧ MemKept s t ∧ RegsKept s t [] [R.SCRUB_SCRUB_STAT]) ∧
  (∀ (s : State) (b : Fin 16) i, s.released = true → s.on R.SCRUB_SCRUB_CTL F.SCRUB_SCRUB_CTL_CACHE_EN = true →
    s.cacheOn = true → s.bankActive b = true → s.place.mig = [] → s.ch.walked = [] → i = SMap.get (fun _ => 0) s.ch.walk (64 + b) → i < 65535 →
    Gives (.scrubRowDue (.sectors b) []) s fun t =>
      SMap.get (fun _ => 0) t.ch.walk (64 + b) = i + 1 ∧ t.rd64 R.SCRUB_WORDS_LO = s.rd64 R.SCRUB_WORDS_LO + 4 ∧
        MemKept s t ∧ RegsKept s t [] [R.SCRUB_WORDS_LO, R.SCRUB_WORDS_LO + 4]) ∧
  (∀ (s : State) (c : Fin 32) (p : Bool) x n, s.released = true → x = s.pch (2 * c + p.toNat) → x.scrub ≠ [] →
    n = 64 - x.rq.length → Gives (.scrubLate c p) s fun t =>
      (t.pch (2 * c + p.toNat)).rq = (x.scrub.take n).map (fun r => { r with late := true }) ++ x.rq ∧
        (t.pch (2 * c + p.toNat)).scrub = (x.scrub.drop n).map (fun r => { r with late := true }) ∧
        t.on R.SCRUB_SCRUB_STAT F.SCRUB_SCRUB_STAT_BEHIND = true ∧ MemKept s t ∧ RegsKept s t [] [R.SCRUB_SCRUB_STAT]) ∧
  (∀ (s : State) w, Open s w.path R.SCRUB_SCRUB_CMD → Calm s → s.on R.SCRUB_SCRUB_STAT F.SCRUB_SCRUB_STAT_CMD_BUSY = false →
    Gives (.scrubCmd w) s fun t =>
      t.ch.scrubRun = some ⟨F.SCRUB_SCRUB_CMD_FRAME.get w.value, F.SCRUB_SCRUB_CMD_COUNT.get w.value + 1, false, 0⟩ ∧
        t.on R.SCRUB_SCRUB_STAT F.SCRUB_SCRUB_STAT_CMD_BUSY = true ∧ MemKept s t ∧
        RegsKept s t [0x014] [R.SCRUB_SCRUB_STAT]) ∧
  (∀ (s : State) w, Open s w.path R.SCRUB_SCRUB_CMD → Calm s → s.on R.SCRUB_SCRUB_STAT F.SCRUB_SCRUB_STAT_CMD_BUSY = true →
    Gives (.scrubCmd w) s fun t => t.ch.scrubRun = s.ch.scrubRun ∧ MemKept s t ∧ RegsKept s t [0x014] []) ∧
  (∀ (s : State) r, s.ch.scrubRun = some r → s.scrubComplete r = false → exec .scrubCmdDone s = .next s) ∧
  (∀ (s : State) r, s.released = true → s.ch.scrubRun = some r → r.retest = false → s.scrubComplete r = true →
    Gives .scrubCmdDone s fun t =>
      t.ch.scrubRun = none ∧ t.on R.SCRUB_SCRUB_STAT F.SCRUB_SCRUB_STAT_CMD_BUSY = false ∧ MemKept s t ∧
        RegsKept s t [] [R.SCRUB_SCRUB_STAT])

/-! ### Engines and commit units -/

/-- The one work in the table, taking its steps; the Bridle lets its line requests pass, no frame is out of reach, no parcel is in REPAIRING, nothing waits
behind a swap, look-ups find no error, and its descriptor says NO_HEAT and, unless the cache is off, NO_ALLOC. WORK_BEGIN
and PRECHECK_DONE (R239, R240): an idle engine begins its queued work, in its precheck or at its first chunk; a precheck
that finds nothing lets it run; one that meets an operand fault ends it with ABORT, held in the QUAD page (R248).
CHUNK_COMMIT (R242): a chunk's record is accepted and nothing is stored before it is applied; the last chunk of a work
that writes nothing ends it. COMMIT_RECORD_APPLY of a record with one masked write of a line that the write data buffer
holds (R188, R242, R243): the line keeps its other bytes and its metadata, poison is added to, and the other lines of the
buffer stay. -/
def Obligations.WorkRuns : Prop :=
  (∀ (s : State) (e : Fin 36) w r, s.released = true → s.engState e = 1 → s.on (R.ENG_ENG_CTL e) F.ENG_ENG_CTL_EN = true →
    s.eng.works = [w] → w.engine = some e.val → w.phase = .queued → w.ended = none → w.takeover = false →
    s.xact.reqs = [r] → r.id = w.req → r.begun = false → s.mayPerform r = true → Gives (.workBegin e) s fun t =>
      t.eng.works = [{ w with phase := if w.d.precheck && !w.checked then .precheck else .running, startedAt := s.clk.up }] ∧
        t.engState e = (if w.d.precheck && !w.checked then 3 else 2) ∧ t.xact.reqs = [{ r with begun := true }] ∧
        MemKept s t ∧ RegsKept s t [pageOf (R.ENG_ENG_STAT e)] []) ∧
  (∀ (s : State) (e : Fin 36) m w, s.released = true → Readable s → NoErr m → s.cacheOn = false ∨ w.d.noAlloc = true → w.d.noHeat = true →
    s.engState e = 3 → s.eng.works = [w] → w.engine = some e.val → w.phase = .precheck → w.ended = none →
    (s.engPay w (s.linesOfAddrs (State.precheckReads w.d)).length).1 = true →
    s.engWaits (State.precheckReads w.d) = false → (∀ x ∈ s.place.table, eState x.2 ≠ 5) →
    precheck w.d s.engRead s.engWriteFault = none → Gives (.precheckDone e m) s fun t =>
      t.eng.works = [{ w with phase := .running, checked := true, paid := 0 }] ∧ t.engState e = 2 ∧ t.dram = s.dram ∧
        t.place.table = s.place.table ∧ t.wdb = s.wdb) ∧
  (∀ (s : State) (e : Fin 36) m w r code i a, s.released = true → Readable s → NoErr m → s.cacheOn = false ∨ w.d.noAlloc = true → w.d.noHeat = true → Calm s → NoTest s → s.eng.works = [w] → w.engine = some e.val →
    w.phase = .precheck → w.ended = none → w.stopBy = [] →
    (s.engPay w (s.linesOfAddrs (State.precheckReads w.d)).length).1 = true →
    s.engWaits (State.precheckReads w.d) = false →
    (∀ x ∈ s.place.table, eState x.2 ≠ 5) → s.xact.reqs = [r] → r.id = w.req → r.silent = false →
    precheck w.d s.engRead s.engWriteFault = some (code, i, a) → Gives (.precheckDone e m) s fun t =>
      t.eng.works = [] ∧ Answered t w.req 5 none ∧ t.dram = s.dram ∧
        t.place.table = s.place.table ∧ t.wdb = s.wdb ∧
        t.rd (R.QUAD_ABORT_REC1 w.quad) = BitVec.ofNat 32 w.d.ctag ∧
        t.rd64 (R.QUAD_ABORT_ELEM_LO w.quad) = BitVec.ofNat 64 i ∧
        t.rd64 (R.QUAD_ABORT_ADDR_LO w.quad) = BitVec.ofNat 64 (a % (2 ^ 64 : Nat)).toNat ∧
        t.rd (R.QUAD_WORKS_ABORTED w.quad) = s.rd (R.QUAD_WORKS_ABORTED w.quad) + 1) ∧
  (∀ (s : State) (e : Fin 36) m n w c, s.released = true → Readable s → NoErr m → s.cacheOn = false ∨ w.d.noAlloc = true → w.d.noHeat = true → s.eng.works = [w] → w.engine = some e.val → w.phase = .running → w.ended = none →
    w.stopBy = [] → w.moving = false → s.eng.records = [] → s.engWaits (s.chunkAddrs w) = false →
    (s.engPay w ((s.indexLines w).length + (s.otherLines w).length)).1 = true →
    (∀ x ∈ s.place.table, eState x.2 ≠ 5) →
    c = runChunk w.d s.engRead s.engWriteFault (fun i => (Config.freeLine (s.free + 2 ^ 31 + i)).toNat) w.run w.committed →
    c.abort = none ∨ w.committed ≠ 0 → c.out ≠ [] → w.d.eop ≠ 19 → w.committed + 1 < w.d.chunks →
    Gives (.chunkCommit e m n) s fun t =>
      t.eng.works = [{ w with committed := w.committed + 1, run := c.run, paid := 0 }] ∧ t.eng.records = [⟨w.req, w.quad, c.out⟩] ∧
        t.rd64 (R.ENG_CHUNKS_LO e) = s.rd64 (R.ENG_CHUNKS_LO e) + 1 ∧ t.dram = s.dram ∧
        t.place.table = s.place.table ∧ t.wdb = s.wdb) ∧
  (∀ (s : State) (e : Fin 36) m n w r c, s.released = true → Readable s → NoErr m → s.cacheOn = false ∨ w.d.noAlloc = true → w.d.noHeat = true → Calm s → NoTest s → s.eng.works = [w] → w.engine = some e.val → w.phase = .running →
    w.ended = none → w.stopBy = [] → w.moving = false → s.eng.records = [] → s.engWaits (s.chunkAddrs w) = false →
    (s.engPay w ((s.indexLines w).length + (s.otherLines w).length)).1 = true →
    (∀ x ∈ s.place.table, eState x.2 ≠ 5) → s.xact.reqs = [r] → r.id = w.req → r.silent = false →
    c = runChunk w.d s.engRead s.engWriteFault (fun i => (Config.freeLine (s.free + 2 ^ 31 + i)).toNat) w.run w.committed →
    c.abort = none ∨ w.committed ≠ 0 → c.out = [] → w.d.chunks = w.committed + 1 → Gives (.chunkCommit e m n) s fun t =>
      t.eng.works = [] ∧ Answered t w.req 0 none ∧ t.dram = s.dram ∧
        t.place.table = s.place.table ∧ t.wdb = s.wdb ∧
        t.rd (R.QUAD_WORKS_DONE w.quad) = s.rd (R.QUAD_WORKS_DONE w.quad) + 1) ∧
  (∀ (s : State) (q : Fin 4) m w r li k v p i l, s.released = true → NoErr m → s.atomWaits li = false → s.eng.works = [w] → s.eng.records = [r] → r.quad = q.val → r.req = w.req →
    w.ended = none → r.entries = [.write li k v p i] → eState (s.entry (liParcel li)) < 2 → s.migOf (liParcel li) = none →
    s.wdbLine li = some l → Gives (.commitRecordApply q m) s fun t =>
      t.wdbLine li = some (State.engLine l ((l.data &&& ~~~k) ||| v) p) ∧ WdbKeptBut s t li ∧ t.eng.records = [] ∧
        t.dram = s.dram ∧ t.cache = s.cache ∧ t.place.table = s.place.table)



/-- ENGINE_FAULT (R249) of an engine in service without work: it is FAILED, an uncorrectable scratch word is counted and the
fault reported; with the only work running, its work goes to the head of the takeover engine's queue in its quadrant.
ENGINE_HANG (R249): the engine is FAILED and the hang reported. CANCEL (R247): a TAG that names no work, a work without a
commit, which ends at once, and a running one with a commit, which stops at its next chunk. SPARE_POWER_UP (R23): an
engine that was off becomes idle; a spare controller is on. -/
def Obligations.EngineFailures : Prop :=
  (∀ (s : State) (e : Fin 36), s.released = true → Calm s → NoTest s → s.eng.works = [] → 1 ≤ s.engState e → s.engState e ≤ 3 →
    Gives (.engineFault e .scratchUncorr) s fun t =>
      t.engState e = 4 ∧ t.rd (R.ENG_SCRATCH_UNCORR e) = s.rd (R.ENG_SCRATCH_UNCORR e) + 1 ∧ MemKept s t ∧
        t.fcol.deliv.any (fun d => d.kind == 18 && d.resource == resEng e) = true ∧
        RegsKept s t [0x014, pageOf (R.ENG_ENG_STAT e)] []) ∧
  (∀ (s : State) (e x : Fin 36) w, s.released = true → Calm s → NoTest s → s.eng.works = [w] → w.engine = some e.val → w.phase = .running →
    w.ended = none → w.quad = x.val / 9 → e ≠ x → 1 ≤ s.engState e → s.engState e ≤ 3 →
    (s.setEngState e 4).takeoverFor w e true = some x.val → Gives (.engineFault e .sequencerParity) s fun t =>
      t.engState e = 4 ∧ t.eng.works = [{ w with
        engine := some x.val, phase := .queued, moving := false, takeover := true, home := none, paid := 0,
        retries := w.retries + 1 }] ∧ MemKept s t) ∧
  (∀ (s : State) (e : Fin 36) w, s.released = true → Calm s → NoTest s → s.eng.works = [w] → w.engine = some e.val → w.phase = .running →
    w.ended = none → s.engHold w.header = false → 1 ≤ s.engState e → s.engState e ≤ 3 → Gives (.engineHang e) s fun t =>
      t.engState e = 4 ∧ t.rd (R.ENG_HANGS e) = s.rd (R.ENG_HANGS e) + 1 ∧ MemKept s t ∧
        t.fcol.deliv.any (fun d => d.kind == 19 && d.resource == resEng e) = true) ∧
  (∀ (s : State) (q : Fin 4) w, Open s w.path (R.QUAD_CANCEL q) → Calm s →
    (∀ x ∈ s.eng.works, hTag x.header ≠ F.QUAD_CANCEL_TAG.get w.value) → Gives (.cancel q w) s fun t =>
      t.on (R.QUAD_CANCEL_STAT q) F.QUAD_CANCEL_STAT_FOUND = false ∧
        t.on (R.QUAD_CANCEL_STAT q) F.QUAD_CANCEL_STAT_BUSY = false ∧ t.eng = s.eng ∧ MemKept s t ∧
        RegsKept s t [0x014] [R.QUAD_CANCEL_STAT q]) ∧
  (∀ (s : State) (q : Fin 4) w x r, Open s w.path (R.QUAD_CANCEL q) → Calm s → s.eng.works = [x] →
    hTag x.header = F.QUAD_CANCEL_TAG.get w.value → x.ended = none → x.committed = 0 → x.stopBy = [] →
    s.xact.reqs = [r] → r.id = x.req → r.silent = false → Gives (.cancel q w) s fun t =>
      t.eng.works = [] ∧ Answered t x.req 5 none ∧ t.on (R.QUAD_CANCEL_STAT q) F.QUAD_CANCEL_STAT_FOUND = true ∧
        t.on (R.QUAD_CANCEL_STAT q) F.QUAD_CANCEL_STAT_BUSY = false ∧ MemKept s t) ∧
  (∀ (s : State) (q : Fin 4) w x, Open s w.path (R.QUAD_CANCEL q) → Calm s → s.eng.works = [x] →
    hTag x.header = F.QUAD_CANCEL_TAG.get w.value → x.ended = none → x.committed ≠ 0 → x.phase = .running →
    Gives (.cancel q w) s fun t =>
      t.eng.works = [{ x with stopBy := x.stopBy ++ [q.val] }] ∧ t.on (R.QUAD_CANCEL_STAT q) F.QUAD_CANCEL_STAT_BUSY = true ∧
        MemKept s t ∧ RegsKept s t [0x014] [R.QUAD_CANCEL_STAT q]) ∧
  (∀ (s : State) (e : Fin 36), Calm s → NoTest s → s.released = true → s.engState e = 0 → s.eng.works = [] →
    Gives (.sparePowerUp true e) s fun t =>
      t.engState e = 1 ∧ MemKept s t ∧ RegsKept s t [0x014, pageOf (R.ENG_ENG_STAT e)] []) ∧
  (∀ (s : State) (k : Fin 36), s.ctrlSpare k = true → Gives (.sparePowerUp false k) s fun t =>
      k.val ∈ t.spare.ctrlOn ∧ MemKept s t ∧ RegsKept s t [] [])

/-! ### The Bridle and the urgency pins -/

/-- MASTER_WINDOW_START (R256): a master's budget is refilled less its overdraft, and a master of MODE 0 has none.
REG_CTL_WRITE (R256): leaving MODE 0 for 1 or 2 starts a budget; going to MODE 0 releases the held request, and to MODE 3
answers it REFUSED; a new budget acts at once in MODE 0 alone. HOLD_RELEASE with the only request held (R257): it is
released at its priority now when its master has bytes left, and stays when it has none; HOLD_LIMIT_EXPIRY releases it
whatever the master has. -/
def Obligations.BudgetsAndHolds : Prop :=
  (∀ (s : State) (m : Fin 64), s.released = true → s.effMode m ≠ 0 → Gives (.masterWindowStart m) s fun t =>
      t.remain m = (F.BRIDLE_REG_BUDGET_BUDGET.get (s.rd (R.BRIDLE_REG_BUDGET m)) * 256 : Nat) + min (s.remain m) 0 +
        (t.extraBytes m : Nat) ∧
        t.effMode m = F.BRIDLE_REG_CTL_MODE.get (s.rd (R.BRIDLE_REG_CTL m)) ∧
        (∀ k : Fin 64, k ≠ m → t.remain k = s.remain k) ∧ t.xact = s.xact ∧ MemKept s t ∧ RegsKept s t [] []) ∧
  (∀ (s : State) (m : Fin 64), s.effMode m = 0 → exec (.masterWindowStart m) s = .next s) ∧
  (∀ (s : State) (m : Fin 64) w, Open s w.path (R.BRIDLE_REG_CTL m) → Calm s → s.effMode m = 0 →
    F.BRIDLE_REG_CTL_MODE.get w.value = 1 ∨ F.BRIDLE_REG_CTL_MODE.get w.value = 2 → Gives (.regCtlWrite m false w) s fun t =>
      t.effMode m = F.BRIDLE_REG_CTL_MODE.get w.value ∧
        t.remain m = (F.BRIDLE_REG_BUDGET_BUDGET.get (s.rd (R.BRIDLE_REG_BUDGET m)) * 256 : Nat) + (t.extraBytes m : Nat) ∧
        t.xact = s.xact ∧ MemKept s t ∧ RegsKept s t [0x014] [R.BRIDLE_REG_CTL m]) ∧
  (∀ (s : State) (m : Fin 64) w r, Open s w.path (R.BRIDLE_REG_CTL m) → Calm s → s.effMode m = 1 ∨ s.effMode m = 2 →
    s.xact.reqs = [r] → r.stage = .held → hMid r.header = m.val → F.BRIDLE_REG_CTL_MODE.get w.value = 0 →
    Gives (.regCtlWrite m false w) s fun t =>
      t.effMode m = 0 ∧ t.xact.reqs.map Req.stage = [.ready] ∧ MemKept s t ∧
        RegsKept s t [0x014] [R.BRIDLE_REG_CTL m]) ∧
  (∀ (s : State) (m : Fin 64) w r, Open s w.path (R.BRIDLE_REG_CTL m) → Calm s → s.effMode m = 1 ∨ s.effMode m = 2 →
    s.xact.reqs = [r] → r.stage = .held → r.silent = false → hMid r.header = m.val → s.mayPerform r = true →
    F.BRIDLE_REG_CTL_MODE.get w.value = 3 → Gives (.regCtlWrite m false w) s fun t =>
      t.effMode m = 3 ∧ Answered t r.id 4 none ∧ t.rd R.BRIDLE_REFUSED_REQS = s.rd R.BRIDLE_REFUSED_REQS + 1 ∧ MemKept s t) ∧
  (∀ (s : State) (m : Fin 64) w, Open s w.path (R.BRIDLE_REG_BUDGET m) → Calm s → Gives (.regCtlWrite m true w) s fun t =>
      t.effBudget m = (if s.effMode m = 0 then F.BRIDLE_REG_BUDGET_BUDGET.get w.value else s.effBudget m) ∧
        t.fld (R.BRIDLE_REG_BUDGET m) F.BRIDLE_REG_BUDGET_BUDGET = F.BRIDLE_REG_BUDGET_BUDGET.get w.value ∧
        t.remain m = s.remain m ∧ t.xact = s.xact ∧ MemKept s t ∧ RegsKept s t [0x014] [R.BRIDLE_REG_BUDGET m]) ∧
  (∀ (s : State) r, s.released = true → s.bridleOn = true → s.guarOn = false → s.xact.reqs = [r] → r.stage = .held →
    s.effMode (hMid r.header) = 1 ∨ s.effMode (hMid r.header) = 2 → 0 < s.remain (hMid r.header) →
    Gives .holdRelease s fun t =>
      t.xact.reqs = [{ r with stage := .ready, prio := s.prioOf r.header }] ∧
        t.remain (hMid r.header) = s.remain (hMid r.header) - (chargeOf r.header : Nat) ∧ MemKept s t ∧ RegsKept s t [] []) ∧
  (∀ (s : State) r, s.released = true → s.bridleOn = true → s.xact.reqs = [r] → r.stage = .held → chargeOf r.header ≠ 0 →
    s.effMode (hMid r.header) = 1 ∨ s.effMode (hMid r.header) = 2 → s.remain (hMid r.header) ≤ 0 →
    Gives .holdRelease s fun t =>
      t.xact.reqs = [r] ∧ t.bridle = s.bridle ∧ MemKept s t ∧
        RegsKept s t [] []) ∧
  (∀ (s : State) tag r, s.released = true → s.xact.reqs = [r] → r.stage = .held → hTag r.header = tag.toNat →
    Gives (.holdLimitExpiry tag) s fun t =>
      t.xact.reqs = [{ r with stage := .ready, prio := s.prioOf r.header }] ∧
        t.rd R.BRIDLE_HOLD_LIMITS = s.rd R.BRIDLE_HOLD_LIMITS + 1 ∧ MemKept s t ∧ RegsKept s t [] [R.BRIDLE_HOLD_LIMITS])

/-- DELIV_COMPUTE once DRAM is initialised (R265, R267): the rate is published, and each class is honoured up to its
guarantee from what the classes of lower RANK, or of the same and with a lower number, leave of the guarantee capacity;
what it lacks is its SHORT. GUAR_WINDOW_START with BR_CTL unchanged (R268, R271): with GUAR_EN the allowances are the
honoured rates times the window and without it 0, the excess pool is filled less its overdraft, and every class has sent
nothing. TC_LAT_TARGET_WRITE (R261) stores the target, and a target of 0 takes the class out of the late levels. The
urgency pins (R262 to R264): URG_PIN_ASSERT of an enabled, idle pin, none being stuck, raises the priority of the masters that it
names and of their released requests, and of a disabled pin shows its level alone; URG_PIN_DEASSERT ends assertion and stuckness of
that pin alone; URG_PIN_STUCK of the only asserted pin leaves no urgency above 1 and no extra budget; URG_PIN_GLITCH is
counted. -/
def Obligations.GuaranteesAndPins : Prop :=
  (∀ (s : State), s.released = true → s.clk.dramInit = true → Gives .delivCompute s fun t =>
      t.fld R.BRIDLE_DELIV_DRAM F.BRIDLE_DELIV_DRAM_RATE = s.delivNow % 2 ^ 16 ∧
        (∀ c : Fin 8, t.fld (R.BRIDLE_TC_HONOUR c) F.BRIDLE_TC_HONOUR_HONOURED +
          t.fld (R.BRIDLE_TC_HONOUR c) F.BRIDLE_TC_HONOUR_SHORT = s.fld (R.BRIDLE_TC_GUAR c) F.BRIDLE_TC_GUAR_GUAR) ∧
        (∀ c : Fin 8, t.honoured c = min (s.fld (R.BRIDLE_TC_GUAR c) F.BRIDLE_TC_GUAR_GUAR)
          (s.delivNow * (100 - s.bgReserve - s.beMin) / 100 -
            (State.classes.filter fun k => decide (s.fld (R.BRIDLE_TC_GUAR k) F.BRIDLE_TC_GUAR_RANK
              < s.fld (R.BRIDLE_TC_GUAR c) F.BRIDLE_TC_GUAR_RANK
                ∨ (s.fld (R.BRIDLE_TC_GUAR k) F.BRIDLE_TC_GUAR_RANK = s.fld (R.BRIDLE_TC_GUAR c) F.BRIDLE_TC_GUAR_RANK
                  ∧ k < c))).foldl (fun n k => n + t.honoured k) 0)) ∧
        (t.on R.BRIDLE_BR_STAT F.BRIDLE_BR_STAT_SHORT = true ∨ ∀ c : Fin 8,
          t.honoured c = s.fld (R.BRIDLE_TC_GUAR c) F.BRIDLE_TC_GUAR_GUAR) ∧
        MemKept s t ∧ RegsKept s t [] ([R.BRIDLE_DELIV_DRAM, R.BRIDLE_GUAR_CAP, R.BRIDLE_GUAR_SUM, R.BRIDLE_BR_STAT,
          R.BRIDLE_SHORT_ENTRIES] ++ (State.classes.map R.BRIDLE_TC_HONOUR))) ∧
  (∀ (s : State), s.released = true → s.rd R.BRIDLE_BR_CTL = s.bridleCtl → Gives .guarWindowStart s fun t =>
      t.bridle.winAt = s.clk.up ∧ (∀ c : Fin 8, t.classSent c = 0) ∧
        (∀ c : Fin 8, t.allowance c = if s.guarOn then s.honoured c * 100 * s.guarWindow else 0) ∧
        t.bridle.pool = ((s.delivDram * (100 - s.bgReserve) * s.guarWindow : Nat) : Int) -
          (State.classes.foldl (fun n c => n + s.honoured c) 0 * 100 * s.guarWindow : Nat) + min s.bridle.pool 0 ∧
        MemKept s t ∧ RegsKept s t [] (State.classes.map R.BRIDLE_TC_RATE)) ∧
  (∀ (s : State) (c : Fin 8) w, Open s w.path (R.BRIDLE_TC_LAT c) → Calm s → Gives (.tcLatTargetWrite c w) s fun t =>
      t.fld (R.BRIDLE_TC_LAT c) F.BRIDLE_TC_LAT_TARGET = F.BRIDLE_TC_LAT_TARGET.get w.value ∧
        (F.BRIDLE_TC_LAT_TARGET.get w.value = 0 → t.latLevel c = 0) ∧ MemKept s t ∧
        RegsKept s t [0x014] [R.BRIDLE_TC_LAT c, R.BRIDLE_BR_STAT]) ∧
  (∀ (s : State) (p : Fin 4) (m : Fin 64), s.bit R.SIDE_PIN_CTL F.SIDE_PIN_CTL_PIN_EN p = true →
    s.bit R.SIDE_PIN_STAT F.SIDE_PIN_STAT_ASSERTED p = false → (∀ k : Fin 4, s.pinStuck k = false) → s.pinNames p m = true →
    Gives (.urgPinAssert p) s fun t =>
      t.pinOn p = true ∧ t.bit R.SIDE_PIN_STAT F.SIDE_PIN_STAT_RAW p = true ∧
        t.rd (R.SIDE_ASSERTS p) = s.rd (R.SIDE_ASSERTS p) + 1 ∧ s.fld (R.SIDE_URG_CFG p) F.SIDE_URG_CFG_PRIO ≤ t.urgency m ∧
        (∀ r ∈ t.xact.reqs, hMid r.header = m.val → r.stage ≠ .held → s.fld (R.SIDE_URG_CFG p) F.SIDE_URG_CFG_PRIO ≤ r.prio) ∧ MemKept s t ∧
        RegsKept s t [] [R.SIDE_PIN_STAT, R.SIDE_ASSERTS p]) ∧
  (∀ (s : State) (p : Fin 4), s.bit R.SIDE_PIN_CTL F.SIDE_PIN_CTL_PIN_EN p = false → Gives (.urgPinAssert p) s fun t =>
      t.bit R.SIDE_PIN_STAT F.SIDE_PIN_STAT_RAW p = true ∧ t.pinOn p = false ∧ t.bridle = s.bridle ∧ t.xact = s.xact ∧
        MemKept s t ∧ RegsKept s t [] [R.SIDE_PIN_STAT]) ∧
  (∀ (s : State) (p : Fin 4), Gives (.urgPinDeassert p) s fun t =>
      t.pinOn p = false ∧ t.bit R.SIDE_PIN_STAT F.SIDE_PIN_STAT_RAW p = false ∧ t.pinStuck p = false ∧
        (∀ k : Fin 4, k ≠ p → t.pinOn k = s.pinOn k ∧ t.pinStuck k = s.pinStuck k) ∧ t.xact = s.xact ∧ MemKept s t ∧
        RegsKept s t [] [R.SIDE_PIN_STAT]) ∧
  (∀ (s : State) (p : Fin 4) (m : Fin 64), s.pinOn p = true → s.pinStuck p = false → (∀ k : Fin 4, k ≠ p → s.pinOn k = false) →
    Gives (.urgPinStuck p) s fun t =>
      t.pinStuck p = true ∧ t.urgency m ≤ 1 ∧ t.extraBytes m = 0 ∧ t.rd (R.SIDE_STUCKS p) = s.rd (R.SIDE_STUCKS p) + 1 ∧
        MemKept s t ∧ RegsKept s t [] [R.SIDE_PIN_STAT, R.SIDE_STUCKS p]) ∧
  (∀ (s : State) (p : Fin 4), s.inReset = false → Gives (.urgPinGlitch p) s fun t =>
      t.rd (R.SIDE_GLITCHES p) = s.rd (R.SIDE_GLITCHES p) + 1 ∧ t.bridle = s.bridle ∧ t.xact = s.xact ∧ MemKept s t ∧
        RegsKept s t [] [R.SIDE_GLITCHES p])

/-! ### The fault collector and sparing -/

/-- COUNTED_DELIVERY of the next waiting delivery, of a kind that feeds no bucket and starts no retest, its entry asking for no
reset (R273, R277, R283, R284): an error without an open record opens one, with its time, in the lowest free place, a further
one of the same source merges into it. A bucket (R287): an occurrence adds up to the capacity, and above it its resource is declared
and handed on. LEVEL_CHANGE (R285) of a source other than a die's absence: a rising level, with no record open, opens record 0; a level that is 0 is noted
and opens none. RECORD_RECOVER (R285): a record whose source is quiet closes, and an active one below 63 stays. -/
def Obligations.FaultRecords : Prop :=
  (∀ (s : State) d i, Calm s → s.fcol.resets = [] → s.fcol.chipReset = false → s.nextDelivery = some d →
    feeds d.kind d.resource = none → retestKind d.kind = false → s.openRec 2 d.kind d.resource = none → s.freeRec = some i →
    State.silentEntry (s.reactEntry 2 d.kind) = false → (s.reactEntry 2 d.kind).getLsbD 5 = false →
    (s.reactEntry 2 d.kind).getLsbD 6 = false → Gives (.countedDelivery none) s fun t =>
      (t.record i).isOpen = true ∧ (t.record i).page = 2 ∧ (t.record i).source = d.kind ∧
        (t.record i).resource = d.resource ∧ (t.record i).addr = d.addr ∧ (t.record i).ts = d.ts ∧
        (t.record i).merges = 0 ∧ (t.record i).cls = F.FCOL_REACT_VAL_CLASS.get (s.reactEntry 2 d.kind) ∧
        (∀ j : Fin 64, j.val ≠ i → t.record j = s.record j) ∧
        t.rd R.FCOL_RAISES = s.rd R.FCOL_RAISES + 1 ∧ t.fcol.deliv = s.fcol.deliv.erase d ∧ MemKept s t) ∧
  (∀ (s : State) d i r, Calm s → s.fcol.resets = [] → s.fcol.chipReset = false → s.nextDelivery = some d →
    feeds d.kind d.resource = none → retestKind d.kind = false → s.openRec 2 d.kind d.resource = some (i, r) →
    Gives (.countedDelivery none) s fun t =>
      t.record i = { s.record i with merges := (s.record i).merges + 1, lastTs := d.ts } ∧
        (∀ j : Fin 64, j.val ≠ i → t.record j = s.record j) ∧ t.rd R.FCOL_MERGES = s.rd R.FCOL_MERGES + 1 ∧
        t.rd R.FCOL_RAISES = s.rd R.FCOL_RAISES ∧ t.fcol.deliv = s.fcol.deliv.erase d ∧ MemKept s t) ∧
  (∀ (s : State) r n b, bucketOfRes r = some b → s.declared r = false → n ≠ 0 →
    (s.level r + n ≤ s.cap_ b → (s.fill r n).level r = min (2 ^ 24 - 1) (s.level r + n) ∧ (s.fill r n).declared r = false) ∧
      (s.cap_ b < min (2 ^ 24 - 1) (s.level r + n) → (s.fill r n).declared r = true ∧ r ∈ (s.fill r n).fcol.handed)) ∧
  (∀ (s : State) (pg : BitVec 10) (b : Fin 32), Calm s → s.fcol.resets = [] → s.fcol.chipReset = false →
    firstOf pg.toNat ≠ 0x1C0 ∨ b.val ≠ 1 → s.levelBit pg.toNat b = true → s.levelSeen pg.toNat b = false → (∀ e ∈ s.fcol.recs, e.2.isOpen = false) →
    State.silentEntry (s.reactEntry pg.toNat b) = false → (s.reactEntry pg.toNat b).getLsbD 5 = false →
    (s.reactEntry pg.toNat b).getLsbD 6 = false → Gives (.levelChange pg b) s fun t =>
      (t.record 0).isOpen = true ∧ (t.record 0).page = pg.toNat ∧ (t.record 0).source = b.val ∧
        t.levelSeen pg.toNat b = true ∧ t.rd R.FCOL_RAISES = s.rd R.FCOL_RAISES + 1 ∧ MemKept s t) ∧
  (∀ (s : State) (pg : BitVec 10) (b : Fin 32), Calm s → s.fcol.resets = [] → s.fcol.chipReset = false →
    s.levelBit pg.toNat b = false → Gives (.levelChange pg b) s fun t =>
      t.levelSeen pg.toNat b = false ∧ t.fcol.recs = s.fcol.recs ∧ MemKept s t ∧ RegsKept s t [0x014] []) ∧
  (∀ (s : State) (i : Fin 64), (s.record i).isOpen = true → s.recActive (s.record i) = false →
    Gives (.recordRecover i) s fun t =>
      t.record i = { s.record i with isOpen := false } ∧ (∀ j : Fin 64, j ≠ i → t.record j = s.record j) ∧
        t.rd R.FCOL_RECOVERIES = s.rd R.FCOL_RECOVERIES + 1 ∧ MemKept s t) ∧
  (∀ (s : State) (i : Fin 64), (s.record i).isOpen = true → s.recActive (s.record i) = true → i.val < 63 →
    exec (.recordRecover i) s = .next s)

/-- BUCKET_LEAK (R287) of a resource that is not declared, no bucket standing above its capacity, and one that still does; RETEST_START (R290) of a waiting retest of either kind, of an engine
for the BIST one, and RETEST_DONE of a scrub retest whose row has been read to
its end; ALERT_CLR with ALL, and of one record (R292, R294): the bits
clear, and with ALL the pin follows once 10 µs have passed since its assertion; RES_QUERY (R295). -/
def Obligations.BucketsAndRetests : Prop :=
  (∀ (s : State) (b : Fin 9) r, Calm s → SMap.wf (fun _ => 0) s.fcol.levels = true → bucketOfRes r = some b.val →
    s.declared r = false → (∀ e ∈ s.fcol.levels, bucketOfRes (BitVec.ofNat 32 e.1) = some b.val → e.2 ≤ s.cap_ b) →
    Gives (.bucketLeak b) s fun t => t.level r = s.level r - s.leakOf b ∧ MemKept s t ∧ RegsKept s t [0x014] []) ∧
  (∀ (s : State) (b : Fin 9) r, SMap.wf (fun _ => 0) s.fcol.levels = true → bucketOfRes r = some b.val →
    s.declared r = false → s.cap_ b < s.level r - s.leakOf b → (s.leak b).declared r = true) ∧
  (∀ (s : State) x, s.released = true → s.fcol.runScrub = none → s.fcol.retestQ.find? (s.retestReady false) = some x →
    Gives (.retestStart false) s fun t =>
      t.fcol.runScrub = some x ∧ t.fcol.retestQ = s.fcol.retestQ.erase x ∧
        t.ch.scrubRun = some ⟨State.rowFrame x.resource, 1, true, 0⟩ ∧ t.rd R.FCOL_RETESTS = s.rd R.FCOL_RETESTS + 1 ∧
        MemKept s t ∧ RegsKept s t [] [R.FCOL_RETESTS, R.FCOL_FC_STAT, R.SCRUB_SCRUB_STAT]) ∧
  (∀ (s : State) x, s.released = true → s.fcol.runBist = none → s.fcol.retestQ.find? (s.retestReady true) = some x → resType x.resource = 7 →
    Gives (.retestStart true) s fun t =>
      t.fcol.runBist = some x ∧ t.engState (x.resource.toNat % 64) = 6 ∧
        t.on R.BIST_BIST_STAT F.BIST_BIST_STAT_BUSY = true ∧ t.rd R.FCOL_RETESTS = s.rd R.FCOL_RETESTS + 1 ∧ MemKept s t) ∧
  (∀ (s : State) x r, Calm s → s.released = true → NoTest s → s.fcol.runScrub = some x → s.ch.scrubRun = some r →
    r.retest = true → s.scrubComplete r = true → Gives (.retestDone false true) s fun t =>
      t.fcol.runScrub = none ∧ t.ch.scrubRun = none ∧ t.on R.SCRUB_SCRUB_STAT F.SCRUB_SCRUB_STAT_CMD_BUSY = false ∧
        t.declared x.resource = s.declared x.resource ∧ MemKept s t ∧
        RegsKept s t [0x014] [R.FCOL_FC_STAT, R.SCRUB_SCRUB_STAT]) ∧
  (∀ (s : State) w, Open s w.path R.FCOL_ALERT_CLR → Calm s → SMap.wf (fun _ => ({} : Rec)) s.fcol.recs = true →
    F.FCOL_ALERT_CLR_ALL.get w.value = 1 → Gives (.alertClr w) s fun t =>
      (s.fcol.alertAt + 10000 ≤ s.clk.up → t.fcol.alertN = false) ∧
        (s.clk.up < s.fcol.alertAt + 10000 → t.fcol.alertN = s.fcol.alertN) ∧ (∀ i : Fin 64, t.record i = { s.record i with alert := false }) ∧
        t.rd R.FCOL_ALERT_PEND0 = 0 ∧ t.rd R.FCOL_ALERT_PEND1 = 0 ∧ MemKept s t ∧
        RegsKept s t [0x014] [R.FCOL_FC_STAT, R.FCOL_ALERT_PEND0, R.FCOL_ALERT_PEND1]) ∧
  (∀ (s : State) w, Open s w.path R.FCOL_ALERT_CLR → Calm s → F.FCOL_ALERT_CLR_ALL.get w.value = 0 → Gives (.alertClr w) s fun t =>
      (∀ i : Fin 64, t.record i = if i.val = F.FCOL_ALERT_CLR_RECORD.get w.value then { s.record i with alert := false }
        else s.record i) ∧ MemKept s t ∧
        RegsKept s t [0x014] [R.FCOL_FC_STAT, R.FCOL_ALERT_PEND0, R.FCOL_ALERT_PEND1]) ∧
  (∀ (s : State) w, Open s w.path R.FCOL_RES_QUERY → Calm s → Gives (.resQuery w) s fun t =>
      t.fld R.FCOL_RES_LEVEL F.FCOL_RES_LEVEL_LEVEL = s.level w.value % 2 ^ 24 ∧
        t.on R.FCOL_RES_LEVEL F.FCOL_RES_LEVEL_RETESTING = s.retesting w.value ∧
        t.on R.FCOL_RES_LEVEL F.FCOL_RES_LEVEL_DECLARED = s.declared w.value ∧
        t.on R.FCOL_RES_LEVEL F.FCOL_RES_LEVEL_DONE = true ∧ MemKept s t ∧ RegsKept s t [0x014] [R.FCOL_RES_LEVEL])

/-- LEND_SLICE (R306) of a lending quadrant, and of one that lends nothing; REPAIR_RECORD_COMMIT (R379) with the firmware running
and a flash present; REPAIR_APPEND (R379) while programming is allowed and a pair is left; HEALTH_FALL (R312). -/
def Obligations.SparingAndHealth : Prop :=
  (∀ (s : State) (q : Fin 4), s.released = true → s.on (R.HEALTH_LEND q) F.HEALTH_LEND_ACTIVE = true → Gives (.lendSlice q) s fun t =>
      t.spare.lendTurn.contains q.val = !s.spare.lendTurn.contains q.val ∧ MemKept s t ∧ RegsKept s t [] []) ∧
  (∀ (s : State) (q : Fin 4), s.on (R.HEALTH_LEND q) F.HEALTH_LEND_ACTIVE = false → exec (.lendSlice q) s = .next s) ∧
  (∀ (s : State) r l, Calm s → s.spare.commits = r :: l → s.fwRunning = true → s.flashPresent = true →
    Gives .repairRecordCommit s fun t =>
      t.spare.commits = l ∧ t.spare.merged = s.spare.merged ++ [r] ∧ t.otp.array = s.otp.array ∧ t.dram = s.dram ∧
        t.place = s.place) ∧
  (∀ (s : State) r l, s.otp.queue = r :: l → s.otp.op = none → s.progCond = true → s.appendAllowed = true →
    s.pairsUsed < 1536 → Gives .repairAppend s fun t =>
      t.otp.op = some ⟨[(0x400 + 2 * s.pairsUsed, r.1), (0x400 + 2 * s.pairsUsed + 1, r.2)], true⟩ ∧
        t.otp.array = s.otp.array ∧ t.on R.FUSE_PROG_STAT F.FUSE_PROG_STAT_BUSY = true ∧ t.dram = s.dram ∧
        RegsKept s t [] [R.FUSE_PROG_STAT]) ∧
  (∀ s : State, Gives .healthFall s fun t =>
      t.rd R.HEALTH_HEALTH_COND = BitVec.ofNat 32 s.healthConds ∧
        t.fld R.HEALTH_HEALTH_STAT F.HEALTH_HEALTH_STAT_STATE = s.healthState s.healthConds ∧ MemKept s t ∧
        RegsKept s t [0x014] [])

/-! ### Temperature, power, DVFS and wear -/

/-- HOUSEKEEPING_ROUND out of reset (R314, R315, R318): each code converts to its sensor's temperature, and one that is open,
shorted or out of range makes the sensor broken; the calibration factor K stays within 0.5 to 2; no stored byte is touched. ESTIMATOR_STEP out of reset and trip, after the first round (R317, R329): each node takes the rule's step, F_P
stays within 1/256 to 1, and the step is counted; before the first round it changes nothing. CAP_WINDOW_START (R328): the
energy and step counts restart and the budget of the window is set. THERMAL_TRIP, when its condition holds (R326): the
stack is tripped, DRAM, buffered writes, requests and works are lost and the OTP array stays; else it changes nothing. -/
def Obligations.ThermalModel : Prop :=
  (∀ (s : State) (codes : List (BitVec 12)) (n : Fin 96), s.inReset = false → Gives (.housekeepingRound codes) s fun t =>
      t.sensorT n = s.convert n (codes.getD n 0) ∧
        (State.codeValid (codes.getD n 0) (s.convert n (codes.getD n 0)) = false → t.sensorBroken n = true) ∧
        t.therm.sampled = true ∧
        ((1 / 2 : Rat) ≤ s.therm.k ∧ s.therm.k ≤ 2 → (1 / 2 : Rat) ≤ t.therm.k ∧ t.therm.k ≤ 2) ∧ t.dram = s.dram ∧
        t.cache = s.cache ∧ t.wdb = s.wdb ∧ t.place = s.place ∧ t.otp.array = s.otp.array ∧ t.mgmt.flash = s.mgmt.flash) ∧
  (∀ (s : State) l (n : Fin 96), s.therm.sampled = true → s.inReset = false → s.tripped = false →
    Gives (.estimatorStep l) s fun t =>
      t.modelT n = s.stepNode (fun i => s.dynamicPower l i false + s.staticPower i) n ∧
        (1 / 256 : Rat) ≤ t.therm.fp ∧ t.therm.fp ≤ 1 ∧ t.therm.stepsGone = s.therm.stepsGone + 1 ∧ MemKept s t) ∧
  (∀ (s : State) l, s.therm.sampled = false → exec (.estimatorStep l) s = .next s) ∧
  (∀ s : State, Gives .capWindowStart s fun t =>
      t.therm.used = 0 ∧ t.therm.stepsGone = 0 ∧ t.therm.window = s.capWindow ∧ t.therm.fp = s.therm.fp ∧
        t.therm.budget = ((1000 * (s.capW - s.capGuard) : Nat) : Rat) ∧ MemKept s t ∧
        RegsKept s t [] [R.PWR_PKG_POWER, R.PWR_CAP_STAT]) ∧
  (∀ s : State, s.inReset = false → s.tripped = false → s.tripCond = true → Gives .thermalTrip s fun t =>
      t.tripped = true ∧ t.dram = [] ∧ t.wdb = [] ∧ t.xact.reqs = [] ∧ t.eng.works = [] ∧ t.clk.dramInit = false ∧
        t.otp = s.otp) ∧
  (∀ s : State, s.tripCond = false → exec .thermalTrip s = .next s)

/-- The DVFS sequencer (R325, R331, R332, R467). DVFS_TARGET_WRITE with P3_ALLOW set and no transition running starts one
to the higher point number of the target and the ceiling: VSEL takes it at once where the voltage rises (no retry
waiting), and stays where it falls. DVFS_UP_HOLD_EXPIRY, while an upward move waits, lets the ceiling move to the one of
the effective fraction. DVFS_CLOCK_SWITCH puts the transition's point in force and counts it, and P2 in place of P3 once P3_ALLOW
is clear (R332); with none running it changes nothing. DVFS_VSETTLE_TIMEOUT of an upward transition drops it, returns VSEL to the running point and raises VDD_FAULT.
VDD_UNDERVOLT at point 0 or 1 steps one point down, raises VDD_FAULT and counts it once per rise. VDD_FAULT_CLEAR ends
VDD_FAULT. -/
def Obligations.DvfsSequencer : Prop :=
  (∀ (s : State) w n, Open s w.path R.PWR_DVFS_CTL → Calm s → s.therm.trans = none → F.PWR_DVFS_CTL_P3_ALLOW.get w.value = 1 →
    n = max (F.PWR_DVFS_CTL_TARGET.get w.value) s.dvCeiling → s.dvPoint < n → Gives (.dvfsTargetWrite w) s fun t =>
      t.therm.trans = some (s.dvPoint, n) ∧ t.on R.PWR_DVFS_STAT F.PWR_DVFS_STAT_BUSY = true ∧ t.dvPoint = s.dvPoint ∧
        t.fld R.PWR_DVFS_STAT F.PWR_DVFS_STAT_VSEL = s.fld R.PWR_DVFS_STAT F.PWR_DVFS_STAT_VSEL ∧ MemKept s t ∧
        RegsKept s t [0x014] [R.PWR_DVFS_CTL, R.PWR_DVFS_STAT]) ∧
  (∀ (s : State) w n, Open s w.path R.PWR_DVFS_CTL → Calm s → s.therm.trans = none → s.therm.retry = false →
    F.PWR_DVFS_CTL_P3_ALLOW.get w.value = 1 → n = max (F.PWR_DVFS_CTL_TARGET.get w.value) s.dvCeiling → n < s.dvPoint →
    Gives (.dvfsTargetWrite w) s fun t =>
      t.therm.trans = some (s.dvPoint, n) ∧ t.dvPoint = s.dvPoint ∧ t.fld R.PWR_DVFS_STAT F.PWR_DVFS_STAT_VSEL = n ∧
        MemKept s t ∧ RegsKept s t [0x014] [R.PWR_DVFS_CTL, R.PWR_DVFS_STAT]) ∧
  (∀ s : State, s.therm.upWait = true → s.ceilingFor (s.effFraction 0) < s.dvCeiling → Gives .dvfsUpHoldExpiry s fun t =>
      t.dvCeiling = s.ceilingFor (s.effFraction 0) ∧ t.dvPoint = s.dvPoint ∧ t.therm.upWait = false ∧ MemKept s t ∧
        RegsKept s t [] [R.PWR_DVFS_STAT]) ∧
  (∀ (s : State) a b, s.therm.trans = some (a, b) → b < 4 → b < 3 ∨ s.p3Allow = true → Gives .dvfsClockSwitch s fun t =>
      t.dvPoint = b ∧ t.rd R.PWR_TRANSITIONS = s.rd R.PWR_TRANSITIONS + 1 ∧ MemKept s t ∧
        RegsKept s t [] [R.PWR_DVFS_STAT, R.PWR_TRANSITIONS]) ∧
  (∀ (s : State) a, s.therm.trans = some (a, 3) → a < 3 → s.p3Allow = false → Gives .dvfsClockSwitch s fun t =>
      t.dvPoint = 2 ∧ t.rd R.PWR_TRANSITIONS = s.rd R.PWR_TRANSITIONS + 1 ∧ MemKept s t ∧
        RegsKept s t [] [R.PWR_DVFS_STAT, R.PWR_TRANSITIONS]) ∧
  (∀ s : State, s.therm.trans = none → exec .dvfsClockSwitch s = .next s) ∧
  (∀ (s : State) a b, s.therm.trans = some (a, b) → b < a → Gives .dvfsVsettleTimeout s fun t =>
      t.therm.trans = none ∧ t.therm.retry = true ∧ t.dvPoint = s.dvPoint ∧
        t.fld R.PWR_DVFS_STAT F.PWR_DVFS_STAT_VSEL = s.dvPoint ∧ t.on R.PWR_DVFS_STAT F.PWR_DVFS_STAT_BUSY = false ∧
        t.on R.PWR_DVFS_STAT F.PWR_DVFS_STAT_VDD_FAULT = true ∧ MemKept s t ∧
        RegsKept s t [] [R.PWR_DVFS_STAT, R.PWR_VDD_FAULTS]) ∧
  (∀ s : State, s.dvPoint < 2 → Gives .vddUndervolt s fun t =>
      t.dvPoint = s.dvPoint + 1 ∧ t.on R.PWR_DVFS_STAT F.PWR_DVFS_STAT_VDD_FAULT = true ∧ t.therm.retry = true ∧
        t.rd R.PWR_VDD_FAULTS = s.rd R.PWR_VDD_FAULTS +
          (if s.on R.PWR_DVFS_STAT F.PWR_DVFS_STAT_VDD_FAULT = true then 0 else 1) ∧ MemKept s t ∧
        RegsKept s t [] [R.PWR_DVFS_STAT, R.PWR_VDD_FAULTS, R.PWR_TRANSITIONS]) ∧
  (∀ s : State, Gives .vddFaultClear s fun t =>
      t.on R.PWR_DVFS_STAT F.PWR_DVFS_STAT_VDD_FAULT = false ∧ t.dvPoint = s.dvPoint ∧ t.therm = s.therm ∧ MemKept s t ∧
        RegsKept s t [] [R.PWR_DVFS_STAT])

/-- WEAR_SAVE_HOURLY and SAVE_NOW out of reset (R336): with PERSIST_EN set the hourly save takes the next sequence number
and counts as a save, or as a failed one when the flash copy fails or a mirror of the keel area cannot be written; with
PERSIST_EN clear only the hour is counted. SAVE_NOW does the same at once and keeps age and wear; with the flash copy failing
it counts in SAVE_FAILS alone. -/
def Obligations.WearSaves : Prop :=
  (∀ (s : State) failed bad, s.inReset = false → s.on R.STACK_WEAR_CTL F.STACK_WEAR_CTL_PERSIST_EN = true →
    bad = (failed || decide (s.keelMirrors ≠ [false, true])) → Gives (.wearSaveHourly failed) s fun t =>
      t.therm.savedSeq = s.therm.savedSeq + 1 ∧ t.therm.saveFailed = bad ∧ t.therm.hours = s.therm.hours + 1 ∧
        t.rd R.STACK_SAVES = s.rd R.STACK_SAVES + (if bad = true then 0 else 1) ∧
        t.rd R.STACK_SAVE_FAILS = s.rd R.STACK_SAVE_FAILS + (if bad = true then 1 else 0) ∧ t.dram = s.dram ∧
        t.cache = s.cache ∧ t.wdb = s.wdb ∧ t.place = s.place ∧ t.otp = s.otp) ∧
  (∀ (s : State) failed, s.inReset = false → s.on R.STACK_WEAR_CTL F.STACK_WEAR_CTL_PERSIST_EN = false →
    Gives (.wearSaveHourly failed) s fun t =>
      t.therm.savedSeq = s.therm.savedSeq ∧ t.therm.hours = s.therm.hours + 1 ∧ MemKept s t ∧
        RegsKept s t [] [R.STACK_LIFE]) ∧
  (∀ (s : State) w bad, Open s w.path R.STACK_WEAR_CTL → Calm s → s.inReset = false →
    bad = decide (s.keelMirrors ≠ [false, true]) → Gives (.saveNow w false) s fun t =>
      t.therm.savedSeq = s.therm.savedSeq + 1 ∧ t.therm.saveFailed = bad ∧
        t.rd R.STACK_SAVES = s.rd R.STACK_SAVES + (if bad = true then 0 else 1) ∧
        t.rd R.STACK_SAVE_FAILS = s.rd R.STACK_SAVE_FAILS + (if bad = true then 1 else 0) ∧ t.therm.age = s.therm.age ∧
        t.therm.wear = s.therm.wear ∧ t.dram = s.dram ∧ t.cache = s.cache ∧ t.wdb = s.wdb ∧ t.place = s.place ∧
        t.otp = s.otp) ∧
  (∀ (s : State) w, Open s w.path R.STACK_WEAR_CTL → Calm s → s.inReset = false →
    s.on R.STACK_WEAR_CTL F.STACK_WEAR_CTL_SAVE_NOW = false → Gives (.saveNow w true) s fun t =>
      t.therm.savedSeq = s.therm.savedSeq + 1 ∧ t.therm.saveFailed = true ∧
        t.rd R.STACK_SAVE_FAILS = s.rd R.STACK_SAVE_FAILS + 1 ∧ t.rd R.STACK_SAVES = s.rd R.STACK_SAVES ∧
        t.dram = s.dram ∧ t.cache = s.cache ∧ t.wdb = s.wdb ∧ t.place = s.place ∧ t.otp = s.otp)

/-! ### OTP, locks and attestation -/

/-- PROGRAM (R372, R376), GEN_SECRET (R381), LIFE_NEXT and LIFE_VOID (R376): with the key, no operation running, no repair record waiting, and where
the lifecycle state, the locks, the slot and the conditions allow it, programming starts; nothing is stored before it
ends. PROGRAM of a word the lifecycle state does not permit gives RESULT 2, of a locked or closed slot RESULT 3. A wrong
key does nothing. LIFE_NEXT by another path than the Gondola's is ignored and recorded in DEV.ACC_ERR. -/
def Obligations.OtpCommands : Prop :=
  (∀ (s : State) path w, Open s path R.FUSE_PROG_CMD → Calm s → s.otp.op = none → s.otp.queue = [] →
    w = s.fld R.FUSE_PROG_ADDR F.FUSE_PROG_ADDR_WORD → s.progAllowed w = true → otpRegion w ≠ 7 →
    s.progLocked (otpRegion w) = false → s.slotClosed w = false → s.otpBlank w = true → s.progCond = true →
    Gives (.program path 0x0F5E) s fun t =>
      t.otp = { s.otp with op := some ⟨[(w, s.rd R.FUSE_PROG_DATA)], false⟩ } ∧
        t.on R.FUSE_PROG_STAT F.FUSE_PROG_STAT_BUSY = true ∧ t.dram = s.dram ∧ RegsKept s t [0x014] [R.FUSE_PROG_STAT]) ∧
  (∀ (s : State) path w, Open s path R.FUSE_PROG_CMD → Calm s → s.otp.op = none → s.otp.queue = [] →
    w = s.fld R.FUSE_PROG_ADDR F.FUSE_PROG_ADDR_WORD → s.progAllowed w = false → Gives (.program path 0x0F5E) s fun t =>
      t.fld R.FUSE_PROG_STAT F.FUSE_PROG_STAT_RESULT = 2 ∧ MemKept s t ∧ RegsKept s t [0x014] [R.FUSE_PROG_STAT]) ∧
  (∀ (s : State) path w, Open s path R.FUSE_PROG_CMD → Calm s → s.otp.op = none → s.otp.queue = [] →
    w = s.fld R.FUSE_PROG_ADDR F.FUSE_PROG_ADDR_WORD → s.progAllowed w = true →
    s.progLocked (otpRegion w) = true ∨ s.slotClosed w = true → Gives (.program path 0x0F5E) s fun t =>
      t.fld R.FUSE_PROG_STAT F.FUSE_PROG_STAT_RESULT = 3 ∧ MemKept s t ∧ RegsKept s t [0x014] [R.FUSE_PROG_STAT]) ∧
  (∀ (s : State) path key, Open s path R.FUSE_PROG_CMD → Calm s → key ≠ 0x0F5E → Gives (.program path key) s fun t =>
      MemKept s t ∧ RegsKept s t [0x014] []) ∧
  (∀ (s : State) path ab, Open s path R.FUSE_PROG_CMD → Calm s → s.otp.op = none → s.otp.queue = [] → s.life = 2 →
    s.openSlot 4 = some ab → s.progLocked 5 = false → s.progLocked 7 = false →
    (∀ i : Fin 16, s.otpBlank (slotBase 4 ab + i) = true) → s.otpBlank (lockWord 4 ab) = true → s.progCond = true → Gives (.genSecret path 0x0F5E) s fun t =>
      t.otp.op.map (fun o => o.words.map Prod.fst) =
        some ((List.range 16).map (fun i => slotBase 4 ab + i) ++ [lockWord 4 ab]) ∧
        t.otp.array = s.otp.array ∧ t.sec.draws = s.sec.draws + 1 ∧ t.sec.secret = s.sec.secret ∧ t.dram = s.dram ∧
        RegsKept s t [0x014] [R.FUSE_PROG_STAT]) ∧
  (∀ (s : State), Open s .gondola R.FUSE_PROG_CMD → Calm s → s.otp.op = none → s.otp.queue = [] → s.life ≤ 3 →
    s.progLocked 6 = false → s.otpBlank (0x3E0 + s.life) = true → s.progCond = true → Gives (.lifeNext .gondola 0x0F5E) s fun t =>
      t.otp = { s.otp with op := some ⟨[(0x3E0 + s.life, lifeWord s.life)], false⟩ } ∧ t.life = s.life ∧
        RegsKept s t [0x014] [R.FUSE_PROG_STAT]) ∧
  (∀ (s : State), Open s .gondola R.FUSE_PROG_CMD → Calm s → s.otp.op = none → s.otp.queue = [] → 2 ≤ s.life → s.life ≤ 4 →
    s.progLocked 6 = false → s.otpBlank 0x3E4 = true → s.progCond = true → Gives (.lifeVoid .gondola 0x0F5E) s fun t =>
      t.otp = { s.otp with op := some ⟨[(0x3E4, lifeWord 4)], false⟩ } ∧ t.life = s.life ∧
        RegsKept s t [0x014] [R.FUSE_PROG_STAT]) ∧
  (∀ (s : State) path, Open s path R.FUSE_PROG_CMD → Calm s → path ≠ .gondola → Gives (.lifeNext path 0x0F5E) s fun t =>
      MemKept s t ∧ t.rd R.DEV_ACC_ERR_CNT = s.rd R.DEV_ACC_ERR_CNT + 1 ∧
        RegsKept s t [0x014] [R.DEV_ACC_ERR, R.DEV_ACC_ERR_CNT])

/-- OTP_PROGRAM_DONE (R365, R372): a verified word adds its encoded bits to the stored ones and leaves every other word
and the shadow; with more words to go the next one follows while the conditions hold, else the operation ends (RESULT 7); a
verify failure (RESULT 6) or an abort (RESULT 7) leaves the bits that it had set, and a word aborted is no blank word again.
With nothing running it changes nothing. OTP_REREAD, once the bounds TMIN and TMAX stand and the temperature has left them
by 10 °C or 24 hours have passed (R371), changes neither the array nor the shadow and keeps every marginal word marginal;
otherwise it changes nothing. -/
def Obligations.OtpArray : Prop :=
  (∀ (s : State) w v, s.otp.op = some ⟨[(w, v)], false⟩ → Gives (.otpProgramDone .verified) s fun t =>
      t.otpStored w = s.otpStored w ||| otpEncode v ∧ (∀ k : Fin 4096, k.val ≠ w → t.otpStored k = s.otpStored k) ∧
        t.otp.op = none ∧ t.otp.shadow = s.otp.shadow ∧ t.fld R.FUSE_PROG_STAT F.FUSE_PROG_STAT_RESULT = 1 ∧
        t.on R.FUSE_PROG_STAT F.FUSE_PROG_STAT_BUSY = false ∧ t.dram = s.dram ∧
        RegsKept s t [] [R.FUSE_PROG_STAT, R.FUSE_PROG_WORDS, R.FUSE_LIFE_STAT]) ∧
  (∀ (s : State) w v x rest a, s.otp.op = some ⟨(w, v) :: x :: rest, a⟩ → s.progCond = true →
    Gives (.otpProgramDone .verified) s fun t =>
      t.otpStored w = s.otpStored w ||| otpEncode v ∧ t.otp.op = some ⟨x :: rest, a⟩) ∧
  (∀ (s : State) w v x rest, s.otp.op = some ⟨(w, v) :: x :: rest, false⟩ → s.progCond = false →
    Gives (.otpProgramDone .verified) s fun t =>
      t.otpStored w = s.otpStored w ||| otpEncode v ∧ t.otp.op = none ∧ t.fld R.FUSE_PROG_STAT F.FUSE_PROG_STAT_RESULT = 7) ∧
  (∀ (s : State) w v y, s.otp.op = some ⟨[(w, v)], false⟩ → Gives (.otpProgramDone (.verifyFail y)) s fun t =>
      t.otpStored w = s.otpStored w ||| (otpEncode v &&& y) ∧ (∀ k : Fin 4096, k.val ≠ w → t.otpStored k = s.otpStored k) ∧
        t.otp.op = none ∧ t.fld R.FUSE_PROG_STAT F.FUSE_PROG_STAT_RESULT = 6) ∧
  (∀ (s : State) w v y, s.otp.op = some ⟨[(w, v)], false⟩ → Gives (.otpProgramDone (.aborted y)) s fun t =>
      t.otpStored w = s.otpStored w ||| (otpEncode v &&& y) ∧ t.otpBlank w = false ∧ t.otp.op = none ∧
        t.fld R.FUSE_PROG_STAT F.FUSE_PROG_STAT_RESULT = 7) ∧
  (∀ (s : State) how, s.otp.op = none → exec (.otpProgramDone how) s = .next s) ∧
  (∀ (s : State) reads lo hi, s.otp.tmin = some lo → s.otp.tmax = some hi →
    s.layerReading 0 < lo - 10 ∨ hi + 10 < s.layerReading 0 ∨ s.otp.rereadAt + 86400000000000 ≤ s.clk.up →
    Gives (.otpReread reads) s fun t =>
      t.otp.array = s.otp.array ∧ t.otp.shadow = s.otp.shadow ∧ t.otp.rereadAt = s.clk.up ∧
        (∀ w ∈ s.otp.marginal, w ∈ t.otp.marginal) ∧ t.dram = s.dram ∧
        RegsKept s t [] [R.FUSE_REREADS, R.FUSE_DRIFTS, R.FUSE_MARGINAL_CNT, R.FUSE_CORR_WORDS, R.FUSE_INTEG_STAT]) ∧
  (∀ (s : State) reads lo hi, s.otp.tmin = some lo → s.otp.tmax = some hi → lo - 10 ≤ s.layerReading 0 →
    s.layerReading 0 ≤ hi + 10 → s.clk.up < s.otp.rereadAt + 86400000000000 → exec (.otpReread reads) s = .next s) ∧
  (∀ (s : State) reads, s.otp.tmin = none → exec (.otpReread reads) s = .next s)

/-- SCAN_ENABLE (R384): where the lifecycle allows internal scan, every secret value is cleared and ATTEST_EN falls, and scan is
on only if it read back as zero; elsewhere it changes nothing. STICKY_LOCK_SET (R385): the bits written 1 are set and none
is cleared. The SPDM requests (R383): unanswered while the responder is not open; GET_CAPABILITIES, NEGOTIATE_ALGORITHMS
and GET_DIGESTS are answered Unspecified without ATTEST_EN and with their answer with it; GET_CERTIFICATE gives the asked
part of the chain; CHALLENGE with the alias key derived answers and counts a signature; GET_MEASUREMENTS unsigned gives the
measurements. -/
def Obligations.LocksAndAttestation : Prop :=
  (∀ (s : State) z, s.scanAllowed = true → Gives (.scanEnable z) s fun t =>
      t.sec.secret = none ∧ t.sec.devid = none ∧ t.sec.alias_ = none ∧ t.sec.kdf = 0 ∧ t.sec.signNonce = 0 ∧ t.sec.keyBuf = [] ∧
        t.sec.scan = z ∧ t.sec.zeroFail = !z ∧
        t.on R.SEC_SEC_STAT F.SEC_SEC_STAT_SECRET_LOADED = false ∧ t.on R.SEC_SEC_STAT F.SEC_SEC_STAT_ATTEST_EN = false ∧
        (z = true → t.on R.SEC_SEC_STAT F.SEC_SEC_STAT_SCAN_CLEARED = true) ∧ MemKept s t ∧
        RegsKept s t [] [R.SEC_SEC_STAT, R.SEC_ZEROIZE_CNT]) ∧
  (∀ (s : State) z, s.scanAllowed = false → exec (.scanEnable z) s = .next s) ∧
  (∀ (s : State) (r : Fin 19) w, Open s w.path (lockReg r) → Calm s → Gives (.stickyLockSet r w) s fun t =>
      t.rd (lockReg r) = s.rd (lockReg r) ||| (w.value &&& (if r.val = 0 then 0xFF else if r.val = 1 then 3 else 0xFFFFFFFF)) ∧
        MemKept s t ∧ RegsKept s t [0x014] [lockReg r]) ∧
  (∀ s : State, s.spdmOpen = true → exec .getVersion s = .next { s with sec := { s.sec with answer := some .version } }) ∧
  (∀ (s : State) c, c ∈ [Instr.getVersion, .getCapabilities, .negotiateAlgorithms, .getDigests] → s.spdmOpen = false →
    exec c s = .next s) ∧
  (∀ (s : State) o l n b, s.spdmOpen = false → exec (.getCertificate o l) s = .next s ∧ exec (.challenge n) s = .next s ∧
    exec (.getMeasurements n b) s = .next s) ∧
  (∀ (s : State) c, c ∈ [Instr.getCapabilities, .negotiateAlgorithms, .getDigests] → s.spdmOpen = true →
    s.on R.SEC_SEC_STAT F.SEC_SEC_STAT_ATTEST_EN = false →
    exec c s = .next { s with sec := { s.sec with answer := some .unspecified } }) ∧
  (∀ s : State, s.spdmOpen = true → s.on R.SEC_SEC_STAT F.SEC_SEC_STAT_ATTEST_EN = true →
    exec .getCapabilities s = .next { s with sec := { s.sec with answer := some .capabilities } } ∧
      exec .negotiateAlgorithms s = .next { s with sec := { s.sec with answer := some .algorithms } } ∧
      exec .getDigests s = .next { s with sec := { s.sec with answer := some (.digests s.chainDigest) } }) ∧
  (∀ (s : State) (o l : BitVec 16), s.spdmOpen = true → s.on R.SEC_SEC_STAT F.SEC_SEC_STAT_ATTEST_EN = true →
    exec (.getCertificate o l) s = .next { s with sec := { s.sec with
      answer := some (.certificate ((s.certChain.drop o.toNat).take l.toNat)) } }) ∧
  (∀ (s : State) n x, s.spdmOpen = true → s.on R.SEC_SEC_STAT F.SEC_SEC_STAT_ATTEST_EN = true → s.sec.alias_ = some x →
    Gives (.challenge n) s fun t =>
      t.sec.answer = some (.challengeAuth (s.aliasSign (bytes384 s.chainDigest ++ bytesBE 32 n.toNat)).1) ∧
        t.sec.draws = s.sec.draws + 1 ∧ t.rd R.SEC_SIGNS = s.rd R.SEC_SIGNS + 1 ∧
        t.sec.alias_ = some x ∧ MemKept s t ∧ RegsKept s t [] [R.SEC_SIGNS]) ∧
  (∀ (s : State) n, s.spdmOpen = true → s.on R.SEC_SEC_STAT F.SEC_SEC_STAT_ATTEST_EN = true →
    exec (.getMeasurements n false) s = .next { s with sec := { s.sec with
      answer := some (.measurements s.measurements none) } })

/-! ### In-service test and calibration -/

/-- The rotation (R394 to R397). ROTATION_SLICE_DUE passes over a slot without a unit and starts the slice of a unit that is
tested in place and not put off, no work being in the table; SLICE_RETRY of a slice that is still put off defers it again, and starts one that no condition holds back;
SLICE_BIST_DONE of a unit fenced in place ends its slice as passed when the signature is the expected one and no memory fails, and the first
time that it is not repeats the slice at once and declares nothing; SLICE_TIMEOUT leaves it untested. BIST_CMD (R399) does
nothing while a run is busy or when it names no unit, and otherwise starts the slice of an engine tested in place. -/
def Obligations.RotationSlices : Prop :=
  (∀ (s : State) e (q : Fin 4), Calm s → NoTest s → s.inReset = false → s.on R.BIST_BIST_CTL F.BIST_BIST_CTL_ROT_EN = true →
    s.on R.BIST_BIST_STAT F.BIST_BIST_STAT_BOOT_DONE = true →
    s.unitAt e q (s.fld (R.BIST_ROT_STAT q) (if e then F.BIST_ROT_STAT_ENG_SLOT else F.BIST_ROT_STAT_CTRL_SLOT)) = none →
    Gives (.rotationSliceDue e q) s fun t =>
      t.bist = s.bist ∧ t.rd R.BIST_UNTESTED = s.rd R.BIST_UNTESTED + 1 ∧
        t.fld (R.BIST_ROT_STAT q) (if e then F.BIST_ROT_STAT_ENG_SLOT else F.BIST_ROT_STAT_CTRL_SLOT) =
          (s.fld (R.BIST_ROT_STAT q) (if e then F.BIST_ROT_STAT_ENG_SLOT else F.BIST_ROT_STAT_CTRL_SLOT) + 1) % 9 ∧
        MemKept s t ∧ RegsKept s t [0x014] [R.BIST_UNTESTED, R.BIST_ROT_STAT q]) ∧
  (∀ (s : State) e (q : Fin 4) x, Calm s → NoTest s → s.inReset = false → s.eng.works = [] →
    s.on R.BIST_BIST_CTL F.BIST_BIST_CTL_ROT_EN = true → s.on R.BIST_BIST_STAT F.BIST_BIST_STAT_BOOT_DONE = true →
    x = ⟨e, q, s.fld (R.BIST_ROT_STAT q) (if e then F.BIST_ROT_STAT_ENG_SLOT else F.BIST_ROT_STAT_CTRL_SLOT), x.unit,
      s.rotSet, false, false, false, false, false, []⟩ → s.unitAt e q x.slot = some x.unit → s.inPlace e x.unit = true →
    s.sliceBlocked x = false → Gives (.rotationSliceDue e q) s fun t =>
      t.bist = { s.bist with slice := some x } ∧ MemKept s t) ∧
  (∀ (s : State) e (q : Fin 4) x, Calm s → s.bist.slice = none → s.bist.waiting = [x] → x.engine = e → x.q = q.val →
    s.released = true → x.deferred = true → s.sliceBlocked x = true → Gives (.sliceRetry e q) s fun t =>
      t.bist.slice = none ∧ t.bist.waiting = [x] ∧ t.rd R.BIST_DEFERRED = s.rd R.BIST_DEFERRED + 1 ∧ MemKept s t ∧
        RegsKept s t [0x014] [R.BIST_DEFERRED]) ∧
  (∀ (s : State) e (q : Fin 4) x, Calm s → s.bist.slice = none → s.bist.waiting = [x] → x.engine = e → x.q = q.val →
    s.released = true → s.eng.works = [] → x.lent = [] → x.deferred = true → s.sliceBlocked x = false →
    Gives (.sliceRetry e q) s fun t =>
      t.bist = { s.bist with
        slice := some { x with swapped := !s.inPlace e x.unit, deferred := false }, waiting := [] } ∧ MemKept s t) ∧
  (∀ (s : State) e (q : Fin 4) x, Calm s → s.bist.waiting = [] → s.sliceOf e q = some x → x.swapped = false →
    x.cmd = false → s.released = true → s.fenced x = true → Gives (.sliceBistDone e q ⟨Config.bistSig e x.set, false⟩) s fun t =>
      t.bist.slice = none ∧ SMap.get (fun _ => 0) t.bist.results (State.unitKey x.engine x.unit) % 4 = 1 ∧
        SMap.get (fun _ => 0) t.bist.passTs (State.unitKey x.engine x.unit) = s.ts ∧
        t.rd R.BIST_SLICES = s.rd R.BIST_SLICES + 1 ∧ t.rd R.BIST_SLICE_FAILS = s.rd R.BIST_SLICE_FAILS ∧ MemKept s t) ∧
  (∀ (s : State) e (q : Fin 4) x (y : SliceResult), Calm s → s.bist.waiting = [] → s.eng.works = [] → s.sliceOf e q = some x →
    x.second = false → s.released = true → s.fenced x = true → y.sig ≠ Config.bistSig e x.set ∨ y.memFail = true →
    Gives (.sliceBistDone e q y) s fun t =>
      t.bist.slice = some { x with second := true } ∧
        SMap.get (fun _ => 0) t.bist.results (State.unitKey x.engine x.unit) % 4 = 2 ∧
        t.rd R.BIST_SLICE_FAILS = s.rd R.BIST_SLICE_FAILS + 1 ∧ t.rd64 R.BIST_SIG_LO = y.sig ∧
        t.fcol.declared = s.fcol.declared ∧ MemKept s t) ∧
  (∀ (s : State) e (q : Fin 4) x, Calm s → s.bist.waiting = [] → s.sliceOf e q = some x → x.swapped = false →
    x.cmd = false → s.released = true → x.set ≠ 2 → Gives (.sliceTimeout e q) s fun t =>
      t.bist.slice = none ∧ SMap.get (fun _ => 0) t.bist.results (State.unitKey x.engine x.unit) % 4 = 3 ∧
        t.rd R.BIST_ABANDONED = s.rd R.BIST_ABANDONED + 1 ∧ t.rd R.BIST_UNTESTED = s.rd R.BIST_UNTESTED + 1 ∧
        t.fcol.declared = s.fcol.declared ∧ MemKept s t) ∧
  (∀ (s : State) w, Open s w.path R.BIST_BIST_CMD → Calm s → NoTest s →
    s.on R.BIST_BIST_STAT F.BIST_BIST_STAT_BUSY = true ∨ 36 ≤ F.BIST_BIST_CMD_UNIT.get w.value → Gives (.bistCmd w) s fun t =>
      t.bist = s.bist ∧ MemKept s t ∧ RegsKept s t [0x014] []) ∧
  (∀ (s : State) w u x, Open s w.path R.BIST_BIST_CMD → Calm s → s.on R.BIST_BIST_STAT F.BIST_BIST_STAT_BUSY = false →
    s.bist.slice = none → s.eng.works = [] → u = F.BIST_BIST_CMD_UNIT.get w.value → u < 36 → s.engGone u = false →
    F.BIST_BIST_CMD_CLASS.get w.value = 1 → s.inPlace true u = true →
    x = ⟨true, u / 9, u % 9, u, bistSet (F.BIST_BIST_CMD_SET.get w.value), false, true, false, false, false, []⟩ →
    s.sliceBlocked x = false → Gives (.bistCmd w) s fun t =>
      t.bist = { s.bist with slice := some x } ∧ t.on R.BIST_BIST_STAT F.BIST_BIST_STAT_BUSY = true ∧ t.engState u = 6 ∧
        MemKept s t)

/-- SPARE_LANE_CHECK and SPARE_VIA_CHECK with ANA_EN set (R398). A check of a group's spare lane, both groups having the same
and no sparing running, is counted: passed, it starts both counts of failures again; a second failure of the receive lane
in a row retires the spare. A check without a spare lane is skipped and counted. A check of a free spare via of a serving
pseudo-channel is counted: passed, it starts the via's count again; a second failure in a row records the via's
retirement.
Calibration words (R402, R403): CAL_BLK_WRITE selects a block and keeps what is staged for it alone; CAL_DATA_WRITE stages a
word; COMMIT of staged words refuses them whole or hands them over; DISCARD drops them; no word in use changes by any of
these. CAL_APPLY puts the one word pending for a block into use, its bits being those that the block's word has, and
counts the commit; it waits while the block's own step runs, discards the commit of a block that is down, and does nothing
without one pending. -/
def Obligations.AnalogueAndCalibration : Prop :=
  (∀ (s : State) (g : Fin 8), Calm s → s.released = true → s.on R.BIST_BIST_CTL F.BIST_BIST_CTL_ANA_EN = true → s.spareLane .rx g ≠ 15 →
    s.spareLane .rx g = s.spareLane .tx g → s.sparingRuns .rx g = false → s.sparingRuns .tx g = false →
    Gives (.spareLaneCheck g false false) s fun t =>
      SMap.get (fun _ => 0) t.bist.laneBad (2 * g) = 0 ∧ SMap.get (fun _ => 0) t.bist.laneBad (2 * g + 1) = 0 ∧
        t.spareLane .rx g = s.spareLane .rx g ∧ t.rd R.BIST_LOOP_RUNS = s.rd R.BIST_LOOP_RUNS + 1 ∧ MemKept s t ∧
        RegsKept s t [0x014] [R.BIST_LOOP_RUNS]) ∧
  (∀ (s : State) (g : Fin 8) tx, Calm s → s.released = true → s.on R.BIST_BIST_CTL F.BIST_BIST_CTL_ANA_EN = true → s.spareLane .rx g ≠ 15 →
    s.spareLane .rx g = s.spareLane .tx g → s.sparingRuns .rx g = false → s.sparingRuns .tx g = false →
    SMap.get (fun _ => 0) s.bist.laneBad (2 * g) = 1 → Gives (.spareLaneCheck g true tx) s fun t =>
      SMap.get (fun _ => 0) t.bist.laneBad (2 * g) = 2 ∧ t.spareLane .rx g = 15 ∧ g.val ∈ t.bist.loopOut ∧
        t.spareLane .tx g = s.spareLane .tx g ∧ t.rd R.BIST_LOOP_RUNS = s.rd R.BIST_LOOP_RUNS + 1 ∧
        t.rd R.BIST_LOOP_FAILS = s.rd R.BIST_LOOP_FAILS + 1 ∧ MemKept s t) ∧
  (∀ (s : State) (g : Fin 8) rx tx, Calm s → s.released = true → s.on R.BIST_BIST_CTL F.BIST_BIST_CTL_ANA_EN = true → s.spareLane .rx g = 15 →
    Gives (.spareLaneCheck g rx tx) s fun t =>
      t.bist = s.bist ∧ t.rd R.BIST_LOOP_SKIPPED = s.rd R.BIST_LOOP_SKIPPED + 1 ∧ MemKept s t ∧
        RegsKept s t [0x014] [R.BIST_LOOP_SKIPPED]) ∧
  (∀ (s : State) (c : Fin 32) (p : Bool) v, Calm s → s.on R.BIST_BIST_CTL F.BIST_BIST_CTL_ANA_EN = true →
    v.ca = false → 36 ≤ v.via.toNat → s.pchLive (2 * c + p.toNat) = true →
    s.spareFree (2 * c + p.toNat) v.ca (v.via.toNat - 36) = true → Gives (.spareViaCheck c p v false) s fun t =>
      SMap.get (fun _ => 0) t.bist.viaBad (State.resOfVia c p.toNat v).toNat = 0 ∧
        t.rd R.BIST_CONT_RUNS = s.rd R.BIST_CONT_RUNS + 1 ∧ t.spare.commits = s.spare.commits ∧ MemKept s t ∧
        RegsKept s t [0x014] [R.BIST_CONT_RUNS]) ∧
  (∀ (s : State) (c : Fin 32) (p : Bool) v, Calm s → s.on R.BIST_BIST_CTL F.BIST_BIST_CTL_ANA_EN = true →
    v.ca = true → 14 ≤ v.via.toNat → s.pchLive (2 * c + p.toNat) = true →
    s.spareFree (2 * c + p.toNat) v.ca (v.via.toNat - 14) = true →
    SMap.get (fun _ => 0) s.bist.viaBad (State.resOfVia c p.toNat v).toNat = 1 →
    Gives (.spareViaCheck c p v true) s fun t =>
      SMap.get (fun _ => 0) t.bist.viaBad (State.resOfVia c p.toNat v).toNat = 2 ∧
        t.rd R.BIST_CONT_FAILS = s.rd R.BIST_CONT_FAILS + 1 ∧
        t.spare.commits.map Prod.fst = s.spare.commits.map Prod.fst ++ [State.resOfVia c p.toNat v] ∧ MemKept s t) ∧
  (∀ (s : State) w, Open s w.path R.CAL_CAL_BLK → Calm s → Gives (.calBlkWrite w) s fun t =>
      t.calBlk = F.CAL_CAL_BLK_BLOCK.get w.value ∧
        t.cal.staged = (if F.CAL_CAL_BLK_BLOCK.get w.value = s.calBlk then s.cal.staged else []) ∧
        t.cal.pend = s.cal.pend ∧ t.ch = s.ch ∧ t.cal.sensor = s.cal.sensor ∧ MemKept s t ∧
        RegsKept s t [0x014] [R.CAL_CAL_BLK, R.CAL_CAL_STAT]) ∧
  (∀ (s : State) w i, Open s w.path R.CAL_CAL_DATA → Calm s → i = s.fld R.CAL_CAL_IDX F.CAL_CAL_IDX_INDEX → i < calWords s.calBlk →
    Gives (.calDataWrite w) s fun t =>
      SMap.get (fun _ => none) t.cal.staged i = some w.value ∧
        (∀ j : Fin 128, j.val ≠ i → SMap.get (fun _ => none) t.cal.staged j = SMap.get (fun _ => none) s.cal.staged j) ∧
        t.cal.pend = s.cal.pend ∧ t.ch = s.ch ∧ t.cal.sensor = s.cal.sensor ∧ MemKept s t ∧
        RegsKept s t [0x014] [R.CAL_CAL_STAT]) ∧
  (∀ (s : State) path, Open s path R.CAL_CAL_CMD → Calm s → s.cal.staged ≠ [] → s.calRefusal s.calBlk ≠ 0 →
    Gives (.commit path) s fun t =>
      t.fld R.CAL_CAL_STAT F.CAL_CAL_STAT_ERROR = s.calRefusal s.calBlk ∧ t.cal = s.cal ∧ t.ch = s.ch ∧
        t.rd R.CAL_COMMIT_ERRORS = s.rd R.CAL_COMMIT_ERRORS + 1 ∧ MemKept s t ∧
        RegsKept s t [0x014] [R.CAL_CAL_STAT, R.CAL_COMMIT_ERRORS]) ∧
  (∀ (s : State) path, Open s path R.CAL_CAL_CMD → Calm s → s.cal.staged ≠ [] → s.calRefusal s.calBlk = 0 →
    s.on R.CAL_CAL_STAT F.CAL_CAL_STAT_PENDING = false → Gives (.commit path) s fun t =>
      t.cal = { s.cal with pend := s.stagedWords, pendBlk := s.calBlk, staged := [] } ∧
        t.on R.CAL_CAL_STAT F.CAL_CAL_STAT_PENDING = true ∧ t.fld R.CAL_CAL_STAT F.CAL_CAL_STAT_ERROR = 0 ∧ t.ch = s.ch ∧
        MemKept s t ∧ RegsKept s t [0x014] [R.CAL_CAL_STAT]) ∧
  (∀ (s : State) path, Open s path R.CAL_CAL_CMD → Calm s → Gives (.discard path) s fun t =>
      t.cal = { s.cal with staged := [] } ∧ t.ch = s.ch ∧ MemKept s t ∧ RegsKept s t [0x014] [R.CAL_CAL_STAT]) ∧
  (∀ (s : State) c i v, s.cal.pendBlk = c → c ≠ 0x31 → s.on R.CAL_CAL_STAT F.CAL_CAL_STAT_PENDING = true →
    s.calBlockDown c = false → s.calBusy c = false → s.cal.pend = [(i, v)] → i < calWords c → Gives .calApply s fun t =>
      (c < 0x10 ∨ c = 0x32 → t.calWord c i = v) ∧ (c = 0x30 → t.calWord c i = v &&& 0xFF) ∧
        (0x10 ≤ c ∧ c < 0x30 → t.calWord c i =
          (s.calWord c i &&& ~~~(BitVec.ofNat 32 (calMask c i))) ||| (v &&& BitVec.ofNat 32 (calMask c i))) ∧
        (∀ j : Fin 128, j.val ≠ i → t.calWord c j = s.calWord c j) ∧ t.cal.pend = [] ∧
        t.on R.CAL_CAL_STAT F.CAL_CAL_STAT_PENDING = false ∧ t.rd R.CAL_COMMITS = s.rd R.CAL_COMMITS + 1 ∧ MemKept s t) ∧
  (∀ s : State, s.on R.CAL_CAL_STAT F.CAL_CAL_STAT_PENDING = true → s.calBlockDown s.cal.pendBlk = false →
    s.calBusy s.cal.pendBlk = true → exec .calApply s = .next s) ∧
  (∀ s : State, s.on R.CAL_CAL_STAT F.CAL_CAL_STAT_PENDING = true → s.calBlockDown s.cal.pendBlk = true →
    Gives .calApply s fun t =>
      t.cal.pend = [] ∧ t.on R.CAL_CAL_STAT F.CAL_CAL_STAT_PENDING = false ∧ t.fld R.CAL_CAL_STAT F.CAL_CAL_STAT_ERROR = 2 ∧
        t.rd R.CAL_COMMIT_ERRORS = s.rd R.CAL_COMMIT_ERRORS + 1 ∧ t.ch.cal = s.ch.cal ∧ t.cal.sensor = s.cal.sensor ∧
        MemKept s t) ∧
  (∀ s : State, s.on R.CAL_CAL_STAT F.CAL_CAL_STAT_PENDING = false → exec .calApply s = .next s)

/-! ### The register bus and the performance monitor -/

/-- REGISTER_WRITE with its byte enables (R412), ALIAS_SET, ALIAS_CLEAR and ALIAS_TOGGLE (R410) of SCRUB_CTL: exactly the
enabled bits of its RW fields are written, set, cleared or toggled. An access that does not answer is counted and changes no
other register (R413). -/
def Obligations.RegisterWrites : Prop :=
  (∀ (s : State) (be : BitVec 4) w m, Open s w.path R.SCRUB_SCRUB_CTL → m = fieldBits (· == .rw) R.SCRUB_SCRUB_CTL &&& beMask be.toNat →
    Gives (.registerWrite (BitVec.ofNat 22 R.SCRUB_SCRUB_CTL) be w) s fun t =>
      t.rd R.SCRUB_SCRUB_CTL = (s.rd R.SCRUB_SCRUB_CTL &&& ~~~m) ||| (w.value &&& m) ∧ MemKept s t ∧
        RegsKept s t [] [R.SCRUB_SCRUB_CTL]) ∧
  (∀ (s : State) w m, Open s w.path R.SCRUB_SCRUB_CTL → m = fieldBits (· == .rw) R.SCRUB_SCRUB_CTL →
    Gives (.aliasSet (BitVec.ofNat 22 R.SCRUB_SCRUB_CTL) 15 w) s fun t =>
      t.rd R.SCRUB_SCRUB_CTL = s.rd R.SCRUB_SCRUB_CTL ||| (w.value &&& m) ∧ MemKept s t ∧
        RegsKept s t [] [R.SCRUB_SCRUB_CTL]) ∧
  (∀ (s : State) w m, Open s w.path R.SCRUB_SCRUB_CTL → m = fieldBits (· == .rw) R.SCRUB_SCRUB_CTL →
    Gives (.aliasClear (BitVec.ofNat 22 R.SCRUB_SCRUB_CTL) 15 w) s fun t =>
      t.rd R.SCRUB_SCRUB_CTL = s.rd R.SCRUB_SCRUB_CTL &&& ~~~(w.value &&& m) ∧ MemKept s t ∧
        RegsKept s t [] [R.SCRUB_SCRUB_CTL]) ∧
  (∀ (s : State) w m, Open s w.path R.SCRUB_SCRUB_CTL → m = fieldBits (· == .rw) R.SCRUB_SCRUB_CTL →
    Gives (.aliasToggle (BitVec.ofNat 22 R.SCRUB_SCRUB_CTL) 15 w) s fun t =>
      t.rd R.SCRUB_SCRUB_CTL = s.rd R.SCRUB_SCRUB_CTL ^^^ (w.value &&& m) ∧ MemKept s t ∧
        RegsKept s t [] [R.SCRUB_SCRUB_CTL]) ∧
  (∀ (s : State) (a : BitVec 22) be w, s.busUp w.path = true → s.ratioBroken = false → pageRow (pageOf a.toNat) = none →
    isMsixPage (pageOf a.toNat) = false → Gives (.registerWrite a be w) s fun t =>
      t.rd R.DEV_ACC_ERR_CNT = s.rd R.DEV_ACC_ERR_CNT + 1 ∧ F.DEV_ACC_ERR_CAUSE.get (t.rd R.DEV_ACC_ERR) = 1 ∧ MemKept s t ∧
        RegsKept s t [] [R.DEV_ACC_ERR, R.DEV_ACC_ERR_CNT])

/-- A read through RL_LOW_READ outside pages 0x088 to 0x08F (R411): of a low word it latches the high word, of a high word
it returns what was latched. PAIR_LOW_WRITE and PAIR_HIGH_WRITE of TS_SET (R411): the low word is held, and the timestamp
takes both words at the write of the high one. -/
def Obligations.WordPairs : Prop :=
  (∀ (s : State) path (a : BitVec 22), s.busUp path = true → s.ratioBroken = false → s.accessFault a.toNat = none →
    isMsixPage (pageOf a.toNat) = false → a.toNat % 4 = 0 → offOf a.toNat < 0x400 → isRl a.toNat = true →
    isHigh a.toNat = false → pageOf a.toNat ∉ (List.range 8).map (0x088 + ·) → Gives (.rlLowRead path a) s fun t =>
      t.mgmt.out = s.cur a.toNat ∧ SMap.get (fun _ => 0) t.shadows a.toNat = s.cur (a.toNat + 4) ∧ MemKept s t ∧
        RegsKept s t [] []) ∧
  (∀ (s : State) path (a : BitVec 22), s.busUp path = true → s.ratioBroken = false → s.accessFault a.toNat = none →
    isMsixPage (pageOf a.toNat) = false → a.toNat % 4 = 0 → offOf a.toNat < 0x400 → isHigh a.toNat = true →
    fieldsAt a.toNat ≠ [] → pageOf a.toNat ∉ (List.range 8).map (0x088 + ·) → Gives (.rlLowRead path a) s fun t =>
      t.mgmt.out = SMap.get (fun _ => 0) s.shadows (a.toNat - 4) ∧ t.shadows = s.shadows ∧ MemKept s t ∧
        RegsKept s t [] []) ∧
  (∀ (s : State) w, Open s w.path R.FCOL_TS_SET_LO → Calm s → Gives (.pairLowWrite (BitVec.ofNat 22 R.FCOL_TS_SET_LO) 15 w) s fun t =>
      SMap.get (fun _ => none) t.pairLow R.FCOL_TS_SET_LO = some w.value ∧ t.ts = s.ts ∧ MemKept s t ∧ RegsKept s t [0x014] []) ∧
  (∀ (s : State) w low, Open s w.path R.FCOL_TS_SET_HI → Calm s → SMap.get (fun _ => none) s.pairLow R.FCOL_TS_SET_LO = some low →
    Gives (.pairHighWrite (BitVec.ofNat 22 R.FCOL_TS_SET_HI) 15 w) s fun t =>
      t.ts = w.value ++ low ∧ SMap.get (fun _ => none) t.pairLow R.FCOL_TS_SET_LO = none ∧ MemKept s t ∧
        RegsKept s t [0x014] [R.FCOL_TS_SET_LO, R.FCOL_TS_SET_HI])

/-- The performance monitor's commands on an open page (R433, R434, R435, R440, R442). FREEZE_WRITE of FREEZE without
SNAPSHOT freezes the counters. SNAPSHOT, and USER_SNAPSHOT where USER_SNAP_EN is set, copy all counters and count the
snapshot; without USER_SNAP_EN the latter is recorded in DEV.ACC_ERR. CLEAR zeroes the selected counter alone, CLEAR_ALL
every counter; neither touches a snapshot. RING_SEL_WRITE shows the selected ring sample in RING_WORD. -/
def Obligations.PerformanceMonitor : Prop :=
  (∀ (s : State) w, Open s w.path R.PERF_PERF_CTL → s.on R.PERF_PERF_CTL F.PERF_PERF_CTL_FREEZE = false →
    F.PERF_PERF_CTL_FREEZE.get w.value = 1 → F.PERF_PERF_CTL_SNAPSHOT.get w.value = 0 → Gives (.freezeWrite w) s fun t =>
      t.perfFrozen = true ∧ t.perf = s.perf ∧ MemKept s t ∧ RegsKept s t [] [R.PERF_PERF_CTL, R.PERF_PERF_STAT]) ∧
  (∀ (s : State) w, Open s w.path R.PERF_PERF_CTL → Gives (.snapshot w) s fun t =>
      t.perf.snaps = s.perf.ctrs ∧ t.on R.PERF_PERF_STAT F.PERF_PERF_STAT_SNAP_VALID = true ∧
        t.rd64 R.PERF_SNAP_TS_LO = s.ts ∧ t.rd R.PERF_SNAP_COUNT = s.rd R.PERF_SNAP_COUNT + 1 ∧ MemKept s t ∧
        RegsKept s t [] [R.PERF_PERF_CTL, R.PERF_PERF_STAT, R.PERF_SNAP_TS_LO, R.PERF_SNAP_TS_LO + 4, R.PERF_SNAP_COUNT]) ∧
  (∀ (s : State) path, Open s path R.PERFU_USER_CMD → s.on R.PERF_PERF_CTL F.PERF_PERF_CTL_USER_SNAP_EN = true →
    Gives (.userSnapshot path) s fun t =>
      t.perf.snaps = s.perf.ctrs ∧ t.rd R.PERF_SNAP_COUNT = s.rd R.PERF_SNAP_COUNT + 1 ∧ MemKept s t ∧
        RegsKept s t [] [R.PERF_PERF_STAT, R.PERF_SNAP_TS_LO, R.PERF_SNAP_TS_LO + 4, R.PERF_SNAP_COUNT]) ∧
  (∀ (s : State) path, Open s path R.PERFU_USER_CMD → s.on R.PERF_PERF_CTL F.PERF_PERF_CTL_USER_SNAP_EN = false →
    Gives (.userSnapshot path) s fun t =>
      t.perf.snaps = s.perf.snaps ∧ t.rd R.DEV_ACC_ERR_CNT = s.rd R.DEV_ACC_ERR_CNT + 1 ∧ MemKept s t ∧
        RegsKept s t [] [R.DEV_ACC_ERR, R.DEV_ACC_ERR_CNT]) ∧
  (∀ (s : State) path k, Open s path R.PERF_PC_CMD → s.perfSel = some k → Gives (.clear path) s fun t =>
      t.perfCtr k = 0 ∧ (∀ j : Fin 4096, j.val ≠ k → t.perfCtr j = s.perfCtr j) ∧ t.perf.snaps = s.perf.snaps ∧ MemKept s t ∧
        RegsKept s t [] []) ∧
  (∀ (s : State) path (j : Nat), Open s path R.PERF_PC_CMD → Gives (.clearAll path) s fun t =>
      t.perfCtr j = 0 ∧ t.perf.snaps = s.perf.snaps ∧ t.perf.cfgs = s.perf.cfgs ∧ MemKept s t ∧ RegsKept s t [] []) ∧
  (∀ (s : State) w, Open s w.path R.PERF_RING_SEL → Gives (.ringSelWrite w) s fun t =>
      (∀ i : Fin 32, t.rd (R.PERF_RING_WORD i) = (SMap.get (fun _ => (0 : BitVec 1024)) s.perf.ring
        (F.PERF_RING_SEL_INDEX.get w.value)).extractLsb' (32 * i) 32) ∧
        t.on R.PERF_RING_SEL_STAT F.PERF_RING_SEL_STAT_DONE = true ∧ t.perf = s.perf ∧ MemKept s t ∧
        RegsKept s t [] ([R.PERF_RING_SEL, R.PERF_RING_SEL_STAT] ++ (List.range 32).map R.PERF_RING_WORD))

/-! ### The management port: the mailbox, the flash, the memory window and configuration space -/

/-- GET_INFO to LIFE_ADVANCE (R422, R423): a GO on an idle channel puts its OPCODE in MB_CMD, sets BUSY and clears DONE; the
flash commands queue in the order of their GO writes. -/
def Obligations.MailboxCommands : Prop :=
  ∀ (s : State) path (ch : Fin 2), Open s path (R.MGMT_MB_CMD ch) → s.mbBusy ch = false →
    Gives (.getInfo path ch) s (MbStarted s · ch 1) ∧
    Gives (.logRead path ch) s (MbStarted s · ch 2) ∧
    Gives (.flashRead path ch) s (MbStarted s · ch 3) ∧
    Gives (.imageErase path ch) s (MbStarted s · ch 4) ∧
    Gives (.imageWrite path ch) s (MbStarted s · ch 5) ∧
    Gives (.imageVerify path ch) s (MbStarted s · ch 6) ∧
    Gives (.imagePromote path ch) s (MbStarted s · ch 7) ∧
    Gives (.healthRead path ch) s (MbStarted s · ch 8) ∧
    Gives (.lifeChallenge path ch) s (MbStarted s · ch 9) ∧
    Gives (.lifeAdvance path ch) s (MbStarted s · ch 10)

/-- MAILBOX_DONE (R422, R423): the Gondola sets RESULT and DONE, clears BUSY and counts the command. IMAGE_ERASE erases image
1, IMAGE_WRITE writes 64 erased bytes of it, IMAGE_PROMOTE after a passing verify copies it over image 0; one that has not passed
is refused. Before the firmware runs every command but GET_INFO is NOT_READY. EVENT_LOG_WRITE (R420) and MSIX_PENDING_SEND
(R416). RAW_CMD (R421) acts while the raw path is open and is without effect while it is not. -/
def Obligations.MailboxAndFlash : Prop :=
  (∀ (s : State) (ch : Fin 2) ok op, s.gondolaUp = true → SMap.get (fun _ => none) s.mgmt.run ch.val = some op →
    mbFlash op = false ∨ s.mgmt.order.head? = some ch.val → Gives (.mailboxDone ch ok) s fun t =>
      SMap.get (fun _ => none) t.mgmt.run ch.val = none ∧ t.mbBusy ch = false ∧
        t.on (R.MGMT_MB_STAT ch) F.MGMT_MB_STAT_DONE = true ∧ ch.val ∉ t.mgmt.order ∧
        t.rd R.MGMT_COMMANDS = s.rd R.MGMT_COMMANDS + 1 ∧ t.dram = s.dram ∧ t.cache = s.cache ∧ t.place = s.place) ∧
  (∀ (s : State) (ch : Fin 2) ok op, s.gondolaUp = true → SMap.get (fun _ => none) s.mgmt.run ch.val = some op →
    mbFlash op = false ∨ s.mgmt.order.head? = some ch.val → s.fwRunning = false → op ≠ 1 →
    Gives (.mailboxDone ch ok) s fun t =>
      t.fld (R.MGMT_MB_STAT ch) F.MGMT_MB_STAT_RESULT = 6 ∧ t.mgmt.verified = s.mgmt.verified ∧ MemKept s t) ∧
  (∀ (s : State) (ch : Fin 2) ok, s.gondolaUp = true → SMap.get (fun _ => none) s.mgmt.run ch.val = some 1 → Gives (.mailboxDone ch ok) s fun t =>
      t.fld (R.MGMT_MB_STAT ch) F.MGMT_MB_STAT_RESULT = 0 ∧
        t.rd (R.MGMT_MB_OUT ch 0) = (if s.fwRunning then s.mgmt.fwVersion else 0) ∧
        t.rd (R.MGMT_MB_OUT ch 3) = BitVec.ofNat 32 s.mgmt.flashKiB ∧ MemKept s t) ∧
  (∀ (s : State) (ch : Fin 2) a, s.gondolaUp = true → SMap.get (fun _ => none) s.mgmt.run ch.val = some 4 →
    s.mgmt.order.head? = some ch.val → s.fwRunning = true → Gives (.mailboxDone ch true) s fun t =>
      t.flashByte a = (if imageSize ≤ a ∧ a < 2 * imageSize then 255 else s.flashByte a) ∧
        t.fld (R.MGMT_MB_STAT ch) F.MGMT_MB_STAT_RESULT = 0 ∧ t.mgmt.verified = false) ∧
  (∀ (s : State) (ch : Fin 2) o j, s.gondolaUp = true → SMap.get (fun _ => none) s.mgmt.run ch.val = some 5 →
    s.mgmt.order.head? = some ch.val → s.fwRunning = true → o = (s.mbIn ch 0).toNat → o % 64 = 0 → o < imageSize →
    (∀ i ∈ List.range 64, s.flashByte (imageSize + o + i) = 255) → Gives (.mailboxDone ch true) s fun t =>
      t.flashByte j = (if imageSize + o ≤ j ∧ j < imageSize + o + 64 then
        (s.mbIn ch (1 + (j - imageSize - o) / 4)).extractLsb' (8 * ((j - imageSize - o) % 4)) 8 else s.flashByte j) ∧
        t.fld (R.MGMT_MB_STAT ch) F.MGMT_MB_STAT_RESULT = 0 ∧ t.mgmt.verified = false) ∧
  (∀ (s : State) (ch : Fin 2) ok, s.gondolaUp = true → SMap.get (fun _ => none) s.mgmt.run ch.val = some 7 →
    s.mgmt.order.head? = some ch.val → s.fwRunning = true → s.mgmt.verified = false →
    Gives (.mailboxDone ch ok) s fun t =>
      t.fld (R.MGMT_MB_STAT ch) F.MGMT_MB_STAT_RESULT = 3 ∧ MemKept s t) ∧
  (∀ (s : State) (ch : Fin 2) a, s.gondolaUp = true → SMap.get (fun _ => none) s.mgmt.run ch.val = some 7 →
    s.mgmt.order.head? = some ch.val → s.fwRunning = true → s.mgmt.verified = true →
    Gives (.mailboxDone ch true) s fun t =>
      t.flashByte a = (if a < imageSize then s.flashByte (a + imageSize) else s.flashByte a) ∧
        t.fld (R.MGMT_MB_STAT ch) F.MGMT_MB_STAT_RESULT = 0) ∧
  (∀ (s : State) (ch : Fin 2) ok, s.gondolaUp = true → SMap.get (fun _ => none) s.mgmt.run ch.val = some 9 → s.fwRunning = true → Gives (.mailboxDone ch ok) s fun t =>
      t.mgmt.nonce = some ((Config.random s.sec.draws).extractLsb' 0 256) ∧ t.sec.draws = s.sec.draws + 1 ∧ MemKept s t) ∧
  (∀ (s : State) i a, s.logOpen = true → s.logHead = some i → s.logNext % 32 ≠ 0 → Gives (.eventLogWrite true) s fun t =>
      (¬ (logAddr s.logNext ≤ a ∧ a < logAddr s.logNext + 128) → t.flashByte a = s.flashByte a) ∧
        t.mgmt.logQ = s.mgmt.logQ.erase i ∧ t.logNext = (s.logNext + 1) % logEntries ∧
        RegsKept s t [] [R.SPI_LOG_NEXT, R.SPI_PROGRAMS]) ∧
  (∀ (s : State) (v : Fin 64), v.val ∈ s.mgmt.pend → s.msixOpen v.val = true → Gives (.msixPendingSend v) s fun t =>
      t.mgmt.pend = s.mgmt.pend.erase v.val ∧ t.rd R.PCIEM_MSIX_SENT = s.rd R.PCIEM_MSIX_SENT + 1 ∧ MemKept s t ∧
        RegsKept s t [] [R.PCIEM_MSIX_SENT]) ∧
  (∀ (s : State) w a k x, Open s w.path R.SPI_RAW_CMD → s.rawActive = true → F.SPI_RAW_CMD_OPCODE.get w.value = 0x20 →
    F.SPI_RAW_CMD_ADDR_EN.get w.value = 1 → s.mgmt.wren = true → a = s.rawAddr → k = a / 4096 * 4096 →
    Gives (.rawCmd w) s fun t =>
      t.flashByte x = (if k ≤ x ∧ x < k + 4096 then 255 else s.flashByte x) ∧ t.mgmt.wren = false ∧
        t.on R.SPI_SPI_STAT F.SPI_SPI_STAT_RAW_DONE = true ∧ t.dram = s.dram ∧ t.otp = s.otp ∧
        RegsKept s t [] [R.SPI_SPI_STAT, R.SPI_ERASES]) ∧
  (∀ (s : State) w, Open s w.path R.SPI_RAW_CMD → s.rawActive = true → F.SPI_RAW_CMD_OPCODE.get w.value = 6 →
    Gives (.rawCmd w) s fun t =>
      t.mgmt.wren = true ∧ t.on R.SPI_SPI_STAT F.SPI_SPI_STAT_RAW_DONE = true ∧ MemKept s t ∧
        RegsKept s t [] [R.SPI_SPI_STAT]) ∧
  (∀ (s : State) w, Open s w.path R.SPI_RAW_CMD → s.rawActive = false → Gives (.rawCmd w) s fun t =>
      MemKept s t ∧ RegsKept s t [] [])

/-- The memory window of an open base address register, the access not held (R415): WINDOW_READ of one aligned line of a
normal parcel, cache off, that stands in the DRAM unpoisoned gives its bytes and shows its metadata; one whose first
line aborts gives Completer Abort, which is counted and recorded by AER (R417). WINDOW_WRITE of one aligned line
that lives in the DRAM writes the bytes enabled and keeps the metadata, no migration running; a poisoned one writes
nothing and is counted. PCIE_CONFIG_REQUEST to an endpoint that is up (R406, R417): command bits, MSI-X control, the power
state, base addresses, a read of the class code, the serial number and the AER status, and a write that clears AER
bits. -/
def Obligations.WindowAndConfig : Prop :=
  (∀ (s : State) (o : BitVec 27) (n : BitVec 13) m li, NoErr m → Readable s → s.place.mig = [] → s.barOpen = true → li = s.winLine o.toNat →
    o.toNat % 64 = 0 → n.toNat = 64 → s.winHeldUp o.toNat 64 = false → s.winAborts li = false → s.wdbLine li = none →
    s.cacheOn = false → eState (s.entry (li / 1024)) = 0 →
    (s.frameLine (eFrame (s.entry (li / 1024))) (li % 1024)).poisoned = false → Gives (.windowRead o n m) s fun t =>
      t.mgmt.cpl = [.data ((List.range 64).map fun i =>
        (s.frameLine (eFrame (s.entry (li / 1024))) (li % 1024)).data.extractLsb' (8 * i) 8)] ∧
        t.rd R.PCIEM_WIN_READS = s.rd R.PCIEM_WIN_READS + 1 ∧
        t.fld R.PCIEM_WIN_STAT F.PCIEM_WIN_STAT_LAST_META =
          (s.frameLine (eFrame (s.entry (li / 1024))) (li % 1024)).hostMeta ∧
        t.on R.PCIEM_WIN_STAT F.PCIEM_WIN_STAT_LAST_POISON = false ∧ t.dram = s.dram ∧ t.wdb = s.wdb) ∧
  (∀ (s : State) (o : BitVec 27) (n : BitVec 13) m li, NoErr m → s.place.mig = [] → s.barOpen = true →
    li = s.winLine o.toNat → n.toNat ≠ 0 → s.winAborts li = true →
    s.winHeldUp o.toNat (min (min n.toNat 4096) (2 ^ 27 - o.toNat)) = false → Gives (.windowRead o n m) s fun t =>
      t.mgmt.cpl = [.abort] ∧ t.rd R.PCIEM_WIN_ABORTS = s.rd R.PCIEM_WIN_ABORTS + 1 ∧
        t.mgmt.aerUncorr = (s.mgmt.aerUncorr ||| 0x8000) ∧ MemKept s t ∧ RegsKept s t [] [R.PCIEM_WIN_ABORTS]) ∧
  (∀ (s : State) (o : BitVec 27) b m li l i, NoErr m → Readable s → s.place.mig = [] → s.barOpen = true → li = s.winLine o.toNat →
    o.toNat % 64 = 0 → b.length = 64 → s.winHeldUp o.toNat 64 = false → s.winAborts li = false → s.wdbLine li = none →
    s.cached li = none → eState (s.entry (li / 1024)) = 0 → l = s.frameLine (eFrame (s.entry (li / 1024))) (li % 1024) →
    l.poisoned = false → Gives (.windowWrite o b false m) s fun t =>
      (i < 64 → (t.currentLine li).data.extractLsb' (8 * i) 8 = ((b[i]?).join).getD (l.data.extractLsb' (8 * i) 8)) ∧
        (t.currentLine li).hostMeta = l.hostMeta ∧ t.rd R.PCIEM_WIN_WRITES = s.rd R.PCIEM_WIN_WRITES + 1) ∧
  (∀ (s : State) (o : BitVec 27) b m, s.barOpen = true → b ≠ [] → Gives (.windowWrite o b true m) s fun t =>
      t.rd R.PCIEM_WIN_POISON_DROP = s.rd R.PCIEM_WIN_POISON_DROP + 1 ∧
        t.mgmt.aerUncorr = (s.mgmt.aerUncorr ||| 0x1000) ∧ MemKept s t ∧ RegsKept s t [] [R.PCIEM_WIN_POISON_DROP]) ∧
  (∀ (s : State) (m b e f h : Bool) (i : Fin 6) (v : Word), s.endpointUp = true →
    Gives (.pcieConfigRequest (.writeCommand m b)) s (fun t =>
      t.mgmt.memEn = m ∧ t.mgmt.busMaster = b ∧ t.regs = s.regs ∧ MemKept s t) ∧
    Gives (.pcieConfigRequest (.writeMsix e f)) s (fun t =>
      t.mgmt.msixEn = e ∧ t.mgmt.funcMask = f ∧ t.regs = s.regs ∧ MemKept s t) ∧
    Gives (.pcieConfigRequest (.writeDState h)) s (fun t =>
      t.fld R.PCIEM_PCIE_STAT F.PCIEM_PCIE_STAT_DSTATE = (if h then 3 else 0) ∧ MemKept s t ∧
        RegsKept s t [] [R.PCIEM_PCIE_STAT, R.PCIEM_L1_ENTRIES]) ∧
    Gives (.pcieConfigRequest (.writeBar i v)) s (fun t =>
      (t.bar i).toNat = (v.toNat &&& State.barMask i ||| State.barBits i) % 2 ^ 32 ∧ (∀ j : Fin 6, j ≠ i → t.bar j = s.bar j) ∧
        t.regs = s.regs ∧ MemKept s t) ∧
    Gives (.pcieConfigRequest (.read 2)) s (fun t => t.mgmt.out = 0x05800021 ∧ t.regs = s.regs ∧ MemKept s t)) ∧
  (∀ (s : State) (h : Bool) (v : Word), s.endpointUp = true →
    Gives (.pcieConfigRequest (.readSerial h)) s (fun t =>
      t.mgmt.out = s.rd (if h then R.FUSE_SERIAL_LO + 4 else R.FUSE_SERIAL_LO) ∧ t.regs = s.regs ∧ MemKept s t) ∧
    Gives (.pcieConfigRequest (.readAer h)) s (fun t =>
      t.mgmt.out = (if h then s.mgmt.aerCorr else s.mgmt.aerUncorr) ∧ t.regs = s.regs ∧ MemKept s t) ∧
    Gives (.pcieConfigRequest (.clearAer h v)) s (fun t =>
      t.mgmt.aerCorr = (if h then s.mgmt.aerCorr &&& ~~~v else s.mgmt.aerCorr) ∧
        t.mgmt.aerUncorr = (if h then s.mgmt.aerUncorr else s.mgmt.aerUncorr &&& ~~~v) ∧ t.regs = s.regs ∧ MemKept s t))

/-! ### Accesses that fail, and the machine as a whole -/

/-- An access to a page index that is not assigned (R8): it completes with error, a read returns all ones, and DEV.ACC_ERR
holds the page index and whether it was a read or a write. -/
def Obligations.UnassignedPages : Prop :=
  ∀ (s : State) path (a : BitVec 22) be v, s.busUp path = true → s.ratioBroken = false → pageRow (pageOf a.toNat) = none →
    isMsixPage (pageOf a.toNat) = false →
    (s.busRead path a.toNat).ok = false ∧ (s.busWrite path a.toNat be v).ok = false ∧
    Gives (.rlLowRead path a) s (fun t =>
      t.mgmt.out = 0xFFFFFFFF ∧ F.DEV_ACC_ERR_PAGE.get (t.rd R.DEV_ACC_ERR) = pageOf a.toNat ∧
        F.DEV_ACC_ERR_WRITE.get (t.rd R.DEV_ACC_ERR) = 0 ∧ F.DEV_ACC_ERR_CAUSE.get (t.rd R.DEV_ACC_ERR) = 1 ∧
        F.DEV_ACC_ERR_PATH.get (t.rd R.DEV_ACC_ERR) = pathCode path ∧
        t.rd R.DEV_ACC_ERR_CNT = s.rd R.DEV_ACC_ERR_CNT + 1 ∧ MemKept s t ∧
        RegsKept s t [] [R.DEV_ACC_ERR, R.DEV_ACC_ERR_CNT]) ∧
    Gives (.registerWrite a be ⟨path, v⟩) s (fun t =>
      F.DEV_ACC_ERR_PAGE.get (t.rd R.DEV_ACC_ERR) = pageOf a.toNat ∧ F.DEV_ACC_ERR_WRITE.get (t.rd R.DEV_ACC_ERR) = 1 ∧
        F.DEV_ACC_ERR_CAUSE.get (t.rd R.DEV_ACC_ERR) = 1 ∧ F.DEV_ACC_ERR_PATH.get (t.rd R.DEV_ACC_ERR) = pathCode path ∧
        t.rd R.DEV_ACC_ERR_CNT = s.rd R.DEV_ACC_ERR_CNT + 1 ∧ MemKept s t ∧
        RegsKept s t [] [R.DEV_ACC_ERR, R.DEV_ACC_ERR_CNT])

/-- In-band configuration (R124): the access is accepted only while CFG_EN is set and from masters whose bit is set. A CfgRd or
CfgWr from any other is answered with CFG_ERR and RINFO bits 0 to DWCOUNT, the CfgRd with data of all ones in its dwords,
and counted. -/
def Obligations.ConfigDenied : Prop :=
  (∀ (s : State) (m : Fin 64), s.cfgOpen m = true ↔ s.on R.XACT_XACT_CTL F.XACT_XACT_CTL_CFG_EN = true ∧
    (s.rd R.XACT_CFG_MID_EN_HI ++ s.rd R.XACT_CFG_MID_EN_LO).getLsbD m = true) ∧
  (∀ (s : State) tag r, s.readyReq tag.toNat (fun h => decide (hOpc h = 8)) = some r → Plain r →
    s.cfgOpen (hMid r.header) = false → Gives (.cfgRd tag) s fun t =>
      t.xact.reqs.any (fun x => decide (x.id = r.id ∧ x.stage = .done ∧ x.status = 8 ∧ x.rinfo = 2 ^ (hArg r.header + 1) - 1 ∧
        x.payload = State.cfgSlots (List.replicate (hArg r.header + 1) 0xFFFFFFFF))) = true ∧
        t.rd R.XACT_CFG_DENIED = s.rd R.XACT_CFG_DENIED + 1 ∧ MemKept s t ∧ RegsKept s t [] [R.XACT_CFG_DENIED]) ∧
  (∀ (s : State) tag r, s.readyReq tag.toNat (fun h => decide (hOpc h = 9)) = some r → Plain r →
    s.cfgOpen (hMid r.header) = false → Gives (.cfgWr tag) s fun t =>
      t.xact.reqs.any (fun x => decide (x.id = r.id ∧ x.stage = .done ∧ x.status = 8 ∧
        x.rinfo = 2 ^ (hArg r.header + 1) - 1)) = true ∧
        t.rd R.XACT_CFG_DENIED = s.rd R.XACT_CFG_DENIED + 1 ∧ MemKept s t ∧ RegsKept s t [] [R.XACT_CFG_DENIED])

/-- PERST_N resets the PCIe endpoint only (R359): its link, its configuration space with its error status, and its MSI-X table;
mailboxes, flash, link, memory and the other blocks named stay, and no register but PCIE_STAT differs. While PERST_N is low
the endpoint answers no configuration request and no window access. -/
def Obligations.PerstResetsTheEndpoint : Prop :=
  (∀ s : State, Gives .perstNAssert s fun t =>
      t.clk.perstN = true ∧ t.on R.PCIEM_PCIE_STAT F.PCIEM_PCIE_STAT_DL_UP = false ∧ t.mgmt.bars = [] ∧ t.mgmt.msix = [] ∧
        t.mgmt.memEn = false ∧ t.mgmt.busMaster = false ∧ t.mgmt.aerUncorr = 0 ∧ t.mgmt.aerCorr = 0 ∧ t.mgmt.run = s.mgmt.run ∧ t.mgmt.wren = s.mgmt.wren ∧
        t.link = s.link ∧ t.xact = s.xact ∧ t.bridle = s.bridle ∧ t.ch = s.ch ∧ t.therm = s.therm ∧ t.eng = s.eng ∧
        t.fcol = s.fcol ∧ t.perf = s.perf ∧ t.spare = s.spare ∧ t.bist = s.bist ∧ t.cal = s.cal ∧ t.ts = s.ts ∧
        MemKept s t ∧ RegsKept s t [] [R.PCIEM_PCIE_STAT]) ∧
  (∀ (s : State) c, s.clk.perstN = true → Gives (.pcieConfigRequest c) s (· = s)) ∧
  (∀ (s : State) o n m, s.clk.perstN = true → Gives (.windowRead o n m) s (· = s)) ∧
  (∀ (s : State) o b p m, s.clk.perstN = true → Gives (.windowWrite o b p m) s (· = s))

/-- The queue of commands is first in, first out: a step runs the command at its front on the state with the queue's rest. On
an empty queue one idle tick passes (log entry 1, the model's choice): 20 ns, which the timestamp counts outside reset; the memory,
the link and, but for priorities that rise (R260), the requests stay as they are. -/
def Obligations.StepRunsTheFrontCommand : Prop :=
  (∀ (s : State) c rest, s.pending = c :: rest → step s = exec c { s with pending := rest }) ∧
  (∀ (s : State), s.pending = [] → ∃ t, step s = .next t ∧ t.pending = [] ∧ t.clk.up = s.clk.up + 20 ∧
    t.ts = (if s.inReset then s.ts else s.ts + 20) ∧ MemKept s t ∧ t.link = s.link ∧
    t.xact.reqs.map (fun r => { r with prio := 0 }) = s.xact.reqs.map (fun r => { r with prio := 0 }))

/-- The stack right after a VAUX power-on (R163, R358, R361): boot step 1, the cause VAUX, registers at the reset values of
their tables, DRAM reading as
zeroed lines, nothing waiting, and the invariant of the steps. DEV.PG_VER is that of R5, the power cap 90 W (R25), every spare
lane 9 (R52). -/
def Obligations.ResetState : Prop :=
  Canonical State.reset ∧ State.reset.pending = [] ∧ State.reset.bootStep = 1 ∧ State.reset.inReset = false ∧
  (∀ a, State.reset.rd a = regReset a) ∧ (∀ f o, State.reset.frameLine f o = Line.zeroed) ∧
  State.reset.linkState = 0 ∧ State.reset.cacheOn = false ∧ State.reset.ts = 0 ∧
  State.reset.rd R.CLK_RESET_CAUSE = 1 ∧ State.reset.rd 4 = 0x00011021 ∧ State.reset.fld R.PWR_CAP_CTL F.PWR_CAP_CTL_CAP_W = 90 ∧
  (∀ g : Fin 8, State.reset.spareLane .rx g = 9 ∧ State.reset.spareLane .tx g = 9) ∧ State.reset.drogue = false ∧
  State.reset.tripped = false

/-- Every step from every state completes; it takes the command at the front off the queue and puts none there, keeps the
canonical form of the memory, of the registers and of the OTP array, clears no stored bit of the OTP array and takes no free
value twice. -/
def Obligations.StepKeepsTheInvariant : Prop :=
  ∀ s : State, Canonical s → ∃ t, step s = .next t ∧ Canonical t ∧ t.pending = s.pending.tail ∧ s.free ≤ t.free ∧
    ∀ w i, (SMap.get (fun _ => 0) s.otp.array w).getLsbD i = true → (SMap.get (fun _ => 0) t.otp.array w).getLsbD i = true

end Claims
end

