-- ==== Sys2Proof/Laws/Map.lean ====
section
/-! SUPPORT. The laws of the sparse maps: read after write, and every operation keeps the canonical form. -/

namespace Sys2Proof.Laws
open Sys2Proof.Machine

variable {α : Type}

theorem SMap.get_put_same (d : Nat → α) (k : Nat) (v : α) (m : SMap α) : (SMap.put k v m).get d k = v := by
  induction m with
  | nil => simp [SMap.put, SMap.get]
  | cons e m ih =>
    obtain ⟨k', v'⟩ := e
    unfold SMap.put
    split
    · simp [SMap.get]
    · split
      · simp [SMap.get]
      · rename_i h1 h2; simp [SMap.get, h2, ih]

theorem SMap.get_put_other (d : Nat → α) {k j : Nat} (h : j ≠ k) (v : α) (m : SMap α) :
    (SMap.put k v m).get d j = m.get d j := by
  induction m with
  | nil => simp [SMap.put, SMap.get, h]
  | cons e m ih =>
    obtain ⟨k', v'⟩ := e
    unfold SMap.put
    split
    · simp [SMap.get, h]
    · split
      · rename_i h2; subst h2; simp [SMap.get, h]
      · simp [SMap.get, ih]

theorem SMap.get_del_other (d : Nat → α) {k j : Nat} (h : j ≠ k) (m : SMap α) :
    (SMap.del k m).get d j = m.get d j := by
  induction m with
  | nil => rfl
  | cons e m ih =>
    obtain ⟨k', v'⟩ := e
    unfold SMap.del
    split
    · rename_i h2; subst h2; simp [SMap.get, h, ih]
    · simp [SMap.get, ih]

variable [DecidableEq α]

theorem SMap.wfFrom_mono (d : Nat → α) {lo hi : Nat} (h : lo ≤ hi) (m : SMap α) (w : SMap.wfFrom d hi m = true) :
    SMap.wfFrom d lo m = true := by
  cases m with
  | nil => rfl
  | cons e m =>
    obtain ⟨k, v⟩ := e
    simp only [SMap.wfFrom, Bool.and_eq_true, decide_eq_true_eq] at w ⊢
    exact ⟨⟨by omega, w.1.2⟩, w.2⟩

theorem SMap.get_of_wfFrom (d : Nat → α) {lo k : Nat} (m : SMap α) (w : SMap.wfFrom d lo m = true) (h : k < lo) :
    m.get d k = d k := by
  induction m generalizing lo with
  | nil => rfl
  | cons e m ih =>
    obtain ⟨k', v'⟩ := e
    simp only [SMap.wfFrom, Bool.and_eq_true, decide_eq_true_eq] at w
    have hk : k ≠ k' := by omega
    simp [SMap.get, hk, ih w.2 (by omega)]

theorem SMap.get_del_same (d : Nat → α) (k : Nat) (m : SMap α) : (SMap.del k m).get d k = d k := by
  induction m with
  | nil => rfl
  | cons e m ih =>
    obtain ⟨k', v'⟩ := e
    unfold SMap.del
    split
    · exact ih
    · rename_i h2; simp [SMap.get, h2, ih]

/-- Read after write at the written key. -/
theorem SMap.get_set_same (d : Nat → α) (k : Nat) (v : α) (m : SMap α) : (SMap.set d k v m).get d k = v := by
  unfold SMap.set
  split
  · rename_i h; rw [SMap.get_del_same d k m, h]
  · exact SMap.get_put_same d k v m

/-- A write leaves every other key as it was. -/
theorem SMap.get_set_other (d : Nat → α) {k j : Nat} (h : j ≠ k) (v : α) (m : SMap α) :
    (SMap.set d k v m).get d j = m.get d j := by
  unfold SMap.set
  split
  · exact SMap.get_del_other d h m
  · exact SMap.get_put_other d h v m

theorem SMap.wfFrom_put (d : Nat → α) {k lo : Nat} {v : α} (hv : v ≠ d k) (hk : lo ≤ k) (m : SMap α)
    (w : SMap.wfFrom d lo m = true) : SMap.wfFrom d lo (SMap.put k v m) = true := by
  induction m generalizing lo with
  | nil => simp [SMap.put, SMap.wfFrom, hv, hk]
  | cons e m ih =>
    obtain ⟨k', v'⟩ := e
    simp only [SMap.wfFrom, Bool.and_eq_true, decide_eq_true_eq] at w
    unfold SMap.put
    split
    · simp only [SMap.wfFrom, Bool.and_eq_true, decide_eq_true_eq]
      exact ⟨⟨hk, hv⟩, ⟨by omega, w.1.2⟩, w.2⟩
    · split
      · rename_i h2; subst h2
        simp only [SMap.wfFrom, Bool.and_eq_true, decide_eq_true_eq]
        exact ⟨⟨hk, hv⟩, w.2⟩
      · simp only [SMap.wfFrom, Bool.and_eq_true, decide_eq_true_eq]
        exact ⟨w.1, ih (by omega) w.2⟩

theorem SMap.wfFrom_del (d : Nat → α) (k : Nat) {lo : Nat} (m : SMap α) (w : SMap.wfFrom d lo m = true) :
    SMap.wfFrom d lo (SMap.del k m) = true := by
  induction m generalizing lo with
  | nil => rfl
  | cons e m ih =>
    obtain ⟨k', v'⟩ := e
    simp only [SMap.wfFrom, Bool.and_eq_true, decide_eq_true_eq] at w
    unfold SMap.del
    split
    · exact SMap.wfFrom_mono d (by omega) _ (ih w.2)
    · simp only [SMap.wfFrom, Bool.and_eq_true, decide_eq_true_eq]
      exact ⟨w.1, ih w.2⟩

/-- A write keeps the canonical form. -/
theorem SMap.wf_set (d : Nat → α) (k : Nat) (v : α) (m : SMap α) (w : SMap.wf d m = true) :
    SMap.wf d (SMap.set d k v m) = true := by
  unfold SMap.set
  split
  · exact SMap.wfFrom_del d k m w
  · rename_i h; exact SMap.wfFrom_put d h (Nat.zero_le k) m w

theorem SMap.wfFrom_erase (d : Nat → α) (p : Nat → Bool) {lo : Nat} (m : SMap α) (w : SMap.wfFrom d lo m = true) :
    SMap.wfFrom d lo (SMap.erase p m) = true := by
  induction m generalizing lo with
  | nil => rfl
  | cons e m ih =>
    obtain ⟨k', v'⟩ := e
    simp only [SMap.wfFrom, Bool.and_eq_true, decide_eq_true_eq] at w
    by_cases hp : p k' = true
    · have : SMap.erase p ((k', v') :: m) = SMap.erase p m := by simp [SMap.erase, hp]
      rw [this]; exact SMap.wfFrom_mono d (by omega) _ (ih w.2)
    · have : SMap.erase p ((k', v') :: m) = (k', v') :: SMap.erase p m := by simp [SMap.erase, hp]
      rw [this]; simp only [SMap.wfFrom, Bool.and_eq_true, decide_eq_true_eq]
      exact ⟨w.1, ih w.2⟩

/-- Erasing keeps the canonical form. -/
theorem SMap.wf_erase (d : Nat → α) (p : Nat → Bool) (m : SMap α) (w : SMap.wf d m = true) :
    SMap.wf d (SMap.erase p m) = true := SMap.wfFrom_erase d p m w

/-- Writing a list of pairs keeps the canonical form. -/
theorem SMap.wf_setAll (d : Nat → α) (l : List (Nat × α)) (m : SMap α) (w : SMap.wf d m = true) :
    SMap.wf d (SMap.setAll d l m) = true := by
  induction l generalizing m with
  | nil => exact w
  | cons e l ih => exact ih _ (SMap.wf_set d e.1 e.2 m w)

end Sys2Proof.Laws
end

