-- ==== Sys2Proof/Laws/State.lean ====
section
/-! SUPPORT. What the named operations over State change and leave alone: one lemma per field, and the registers read back
what was written. -/

namespace Sys2Proof.Machine
namespace State

variable (s : State) (a b n i : Nat) (f : Fld) (v : Word) (x : Bool) (w : Word64) (d : Delivery)


/-! ### wr -/

@[simp] theorem wr_pending : (s.wr a v).pending = s.pending := rfl
@[simp] theorem wr_free : (s.wr a v).free = s.free := rfl
@[simp] theorem wr_ts : (s.wr a v).ts = s.ts := rfl
@[simp] theorem wr_shadows : (s.wr a v).shadows = s.shadows := rfl
@[simp] theorem wr_pairLow : (s.wr a v).pairLow = s.pairLow := rfl
@[simp] theorem wr_clk : (s.wr a v).clk = s.clk := rfl
@[simp] theorem wr_fcol : (s.wr a v).fcol = s.fcol := rfl
@[simp] theorem wr_perf : (s.wr a v).perf = s.perf := rfl
@[simp] theorem wr_link : (s.wr a v).link = s.link := rfl
@[simp] theorem wr_xact : (s.wr a v).xact = s.xact := rfl
@[simp] theorem wr_bridle : (s.wr a v).bridle = s.bridle := rfl
@[simp] theorem wr_place : (s.wr a v).place = s.place := rfl
@[simp] theorem wr_wdb : (s.wr a v).wdb = s.wdb := rfl
@[simp] theorem wr_cache : (s.wr a v).cache = s.cache := rfl
@[simp] theorem wr_dram : (s.wr a v).dram = s.dram := rfl
@[simp] theorem wr_ch : (s.wr a v).ch = s.ch := rfl
@[simp] theorem wr_therm : (s.wr a v).therm = s.therm := rfl
@[simp] theorem wr_eng : (s.wr a v).eng = s.eng := rfl
@[simp] theorem wr_spare : (s.wr a v).spare = s.spare := rfl
@[simp] theorem wr_otp : (s.wr a v).otp = s.otp := rfl
@[simp] theorem wr_sec : (s.wr a v).sec = s.sec := rfl
@[simp] theorem wr_bist : (s.wr a v).bist = s.bist := rfl
@[simp] theorem wr_cal : (s.wr a v).cal = s.cal := rfl
@[simp] theorem wr_mgmt : (s.wr a v).mgmt = s.mgmt := rfl

/-! ### put -/

@[simp] theorem put_pending : (s.put a f n).pending = s.pending := rfl
@[simp] theorem put_free : (s.put a f n).free = s.free := rfl
@[simp] theorem put_ts : (s.put a f n).ts = s.ts := rfl
@[simp] theorem put_shadows : (s.put a f n).shadows = s.shadows := rfl
@[simp] theorem put_pairLow : (s.put a f n).pairLow = s.pairLow := rfl
@[simp] theorem put_clk : (s.put a f n).clk = s.clk := rfl
@[simp] theorem put_fcol : (s.put a f n).fcol = s.fcol := rfl
@[simp] theorem put_perf : (s.put a f n).perf = s.perf := rfl
@[simp] theorem put_link : (s.put a f n).link = s.link := rfl
@[simp] theorem put_xact : (s.put a f n).xact = s.xact := rfl
@[simp] theorem put_bridle : (s.put a f n).bridle = s.bridle := rfl
@[simp] theorem put_place : (s.put a f n).place = s.place := rfl
@[simp] theorem put_wdb : (s.put a f n).wdb = s.wdb := rfl
@[simp] theorem put_cache : (s.put a f n).cache = s.cache := rfl
@[simp] theorem put_dram : (s.put a f n).dram = s.dram := rfl
@[simp] theorem put_ch : (s.put a f n).ch = s.ch := rfl
@[simp] theorem put_therm : (s.put a f n).therm = s.therm := rfl
@[simp] theorem put_eng : (s.put a f n).eng = s.eng := rfl
@[simp] theorem put_spare : (s.put a f n).spare = s.spare := rfl
@[simp] theorem put_otp : (s.put a f n).otp = s.otp := rfl
@[simp] theorem put_sec : (s.put a f n).sec = s.sec := rfl
@[simp] theorem put_bist : (s.put a f n).bist = s.bist := rfl
@[simp] theorem put_cal : (s.put a f n).cal = s.cal := rfl
@[simp] theorem put_mgmt : (s.put a f n).mgmt = s.mgmt := rfl

/-! ### flag -/

@[simp] theorem flag_pending : (s.flag a f x).pending = s.pending := rfl
@[simp] theorem flag_free : (s.flag a f x).free = s.free := rfl
@[simp] theorem flag_ts : (s.flag a f x).ts = s.ts := rfl
@[simp] theorem flag_shadows : (s.flag a f x).shadows = s.shadows := rfl
@[simp] theorem flag_pairLow : (s.flag a f x).pairLow = s.pairLow := rfl
@[simp] theorem flag_clk : (s.flag a f x).clk = s.clk := rfl
@[simp] theorem flag_fcol : (s.flag a f x).fcol = s.fcol := rfl
@[simp] theorem flag_perf : (s.flag a f x).perf = s.perf := rfl
@[simp] theorem flag_link : (s.flag a f x).link = s.link := rfl
@[simp] theorem flag_xact : (s.flag a f x).xact = s.xact := rfl
@[simp] theorem flag_bridle : (s.flag a f x).bridle = s.bridle := rfl
@[simp] theorem flag_place : (s.flag a f x).place = s.place := rfl
@[simp] theorem flag_wdb : (s.flag a f x).wdb = s.wdb := rfl
@[simp] theorem flag_cache : (s.flag a f x).cache = s.cache := rfl
@[simp] theorem flag_dram : (s.flag a f x).dram = s.dram := rfl
@[simp] theorem flag_ch : (s.flag a f x).ch = s.ch := rfl
@[simp] theorem flag_therm : (s.flag a f x).therm = s.therm := rfl
@[simp] theorem flag_eng : (s.flag a f x).eng = s.eng := rfl
@[simp] theorem flag_spare : (s.flag a f x).spare = s.spare := rfl
@[simp] theorem flag_otp : (s.flag a f x).otp = s.otp := rfl
@[simp] theorem flag_sec : (s.flag a f x).sec = s.sec := rfl
@[simp] theorem flag_bist : (s.flag a f x).bist = s.bist := rfl
@[simp] theorem flag_cal : (s.flag a f x).cal = s.cal := rfl
@[simp] theorem flag_mgmt : (s.flag a f x).mgmt = s.mgmt := rfl

/-! ### setBit -/

@[simp] theorem setBit_pending : (s.setBit a f i x).pending = s.pending := rfl
@[simp] theorem setBit_free : (s.setBit a f i x).free = s.free := rfl
@[simp] theorem setBit_ts : (s.setBit a f i x).ts = s.ts := rfl
@[simp] theorem setBit_shadows : (s.setBit a f i x).shadows = s.shadows := rfl
@[simp] theorem setBit_pairLow : (s.setBit a f i x).pairLow = s.pairLow := rfl
@[simp] theorem setBit_clk : (s.setBit a f i x).clk = s.clk := rfl
@[simp] theorem setBit_fcol : (s.setBit a f i x).fcol = s.fcol := rfl
@[simp] theorem setBit_perf : (s.setBit a f i x).perf = s.perf := rfl
@[simp] theorem setBit_link : (s.setBit a f i x).link = s.link := rfl
@[simp] theorem setBit_xact : (s.setBit a f i x).xact = s.xact := rfl
@[simp] theorem setBit_bridle : (s.setBit a f i x).bridle = s.bridle := rfl
@[simp] theorem setBit_place : (s.setBit a f i x).place = s.place := rfl
@[simp] theorem setBit_wdb : (s.setBit a f i x).wdb = s.wdb := rfl
@[simp] theorem setBit_cache : (s.setBit a f i x).cache = s.cache := rfl
@[simp] theorem setBit_dram : (s.setBit a f i x).dram = s.dram := rfl
@[simp] theorem setBit_ch : (s.setBit a f i x).ch = s.ch := rfl
@[simp] theorem setBit_therm : (s.setBit a f i x).therm = s.therm := rfl
@[simp] theorem setBit_eng : (s.setBit a f i x).eng = s.eng := rfl
@[simp] theorem setBit_spare : (s.setBit a f i x).spare = s.spare := rfl
@[simp] theorem setBit_otp : (s.setBit a f i x).otp = s.otp := rfl
@[simp] theorem setBit_sec : (s.setBit a f i x).sec = s.sec := rfl
@[simp] theorem setBit_bist : (s.setBit a f i x).bist = s.bist := rfl
@[simp] theorem setBit_cal : (s.setBit a f i x).cal = s.cal := rfl
@[simp] theorem setBit_mgmt : (s.setBit a f i x).mgmt = s.mgmt := rfl

/-! ### wr64 -/

@[simp] theorem wr64_pending : (s.wr64 a w).pending = s.pending := rfl
@[simp] theorem wr64_free : (s.wr64 a w).free = s.free := rfl
@[simp] theorem wr64_ts : (s.wr64 a w).ts = s.ts := rfl
@[simp] theorem wr64_shadows : (s.wr64 a w).shadows = s.shadows := rfl
@[simp] theorem wr64_pairLow : (s.wr64 a w).pairLow = s.pairLow := rfl
@[simp] theorem wr64_clk : (s.wr64 a w).clk = s.clk := rfl
@[simp] theorem wr64_fcol : (s.wr64 a w).fcol = s.fcol := rfl
@[simp] theorem wr64_perf : (s.wr64 a w).perf = s.perf := rfl
@[simp] theorem wr64_link : (s.wr64 a w).link = s.link := rfl
@[simp] theorem wr64_xact : (s.wr64 a w).xact = s.xact := rfl
@[simp] theorem wr64_bridle : (s.wr64 a w).bridle = s.bridle := rfl
@[simp] theorem wr64_place : (s.wr64 a w).place = s.place := rfl
@[simp] theorem wr64_wdb : (s.wr64 a w).wdb = s.wdb := rfl
@[simp] theorem wr64_cache : (s.wr64 a w).cache = s.cache := rfl
@[simp] theorem wr64_dram : (s.wr64 a w).dram = s.dram := rfl
@[simp] theorem wr64_ch : (s.wr64 a w).ch = s.ch := rfl
@[simp] theorem wr64_therm : (s.wr64 a w).therm = s.therm := rfl
@[simp] theorem wr64_eng : (s.wr64 a w).eng = s.eng := rfl
@[simp] theorem wr64_spare : (s.wr64 a w).spare = s.spare := rfl
@[simp] theorem wr64_otp : (s.wr64 a w).otp = s.otp := rfl
@[simp] theorem wr64_sec : (s.wr64 a w).sec = s.sec := rfl
@[simp] theorem wr64_bist : (s.wr64 a w).bist = s.bist := rfl
@[simp] theorem wr64_cal : (s.wr64 a w).cal = s.cal := rfl
@[simp] theorem wr64_mgmt : (s.wr64 a w).mgmt = s.mgmt := rfl

/-! ### perfAdd, perfEvent, counted: the performance counters and the marks of recent rises -/

@[simp] theorem perfAdd_pending : (s.perfAdd a n).pending = s.pending := rfl
@[simp] theorem perfAdd_free : (s.perfAdd a n).free = s.free := rfl
@[simp] theorem perfAdd_ts : (s.perfAdd a n).ts = s.ts := rfl
@[simp] theorem perfAdd_regs : (s.perfAdd a n).regs = s.regs := rfl
@[simp] theorem perfAdd_shadows : (s.perfAdd a n).shadows = s.shadows := rfl
@[simp] theorem perfAdd_pairLow : (s.perfAdd a n).pairLow = s.pairLow := rfl
@[simp] theorem perfAdd_clk : (s.perfAdd a n).clk = s.clk := rfl
@[simp] theorem perfAdd_fcol : (s.perfAdd a n).fcol = s.fcol := rfl
@[simp] theorem perfAdd_link : (s.perfAdd a n).link = s.link := rfl
@[simp] theorem perfAdd_xact : (s.perfAdd a n).xact = s.xact := rfl
@[simp] theorem perfAdd_bridle : (s.perfAdd a n).bridle = s.bridle := rfl
@[simp] theorem perfAdd_place : (s.perfAdd a n).place = s.place := rfl
@[simp] theorem perfAdd_wdb : (s.perfAdd a n).wdb = s.wdb := rfl
@[simp] theorem perfAdd_cache : (s.perfAdd a n).cache = s.cache := rfl
@[simp] theorem perfAdd_dram : (s.perfAdd a n).dram = s.dram := rfl
@[simp] theorem perfAdd_ch : (s.perfAdd a n).ch = s.ch := rfl
@[simp] theorem perfAdd_therm : (s.perfAdd a n).therm = s.therm := rfl
@[simp] theorem perfAdd_eng : (s.perfAdd a n).eng = s.eng := rfl
@[simp] theorem perfAdd_spare : (s.perfAdd a n).spare = s.spare := rfl
@[simp] theorem perfAdd_otp : (s.perfAdd a n).otp = s.otp := rfl
@[simp] theorem perfAdd_sec : (s.perfAdd a n).sec = s.sec := rfl
@[simp] theorem perfAdd_bist : (s.perfAdd a n).bist = s.bist := rfl
@[simp] theorem perfAdd_cal : (s.perfAdd a n).cal = s.cal := rfl
@[simp] theorem perfAdd_mgmt : (s.perfAdd a n).mgmt = s.mgmt := rfl

theorem perfEvent_same {α : Type} (g : State → α) (h : ∀ t k m, g (perfAdd t k m) = g t) (p : Word → Bool) :
    g (s.perfEvent a p n) = g s := by
  unfold perfEvent
  split
  · rfl
  · have : ∀ (l : List Nat) (t : State),
        g (l.foldl (fun t i => if p (SMap.get (fun _ => 0) s.perf.cfgs (4 * a + i)) then t.perfAdd (4 * a + i) n else t) t)
          = g t := by
      intro l
      induction l with
      | nil => intro t; rfl
      | cons i l ih =>
        intro t
        rw [List.foldl_cons, ih]
        split
        · exact h _ _ _
        · rfl
    exact this _ s

@[simp] theorem perfEvent_pending (p : Word → Bool) : (s.perfEvent a p n).pending = s.pending :=
  perfEvent_same s a n (·.pending) (fun _ _ _ => rfl) p
@[simp] theorem perfEvent_free (p : Word → Bool) : (s.perfEvent a p n).free = s.free :=
  perfEvent_same s a n (·.free) (fun _ _ _ => rfl) p
@[simp] theorem perfEvent_ts (p : Word → Bool) : (s.perfEvent a p n).ts = s.ts :=
  perfEvent_same s a n (·.ts) (fun _ _ _ => rfl) p
@[simp] theorem perfEvent_regs (p : Word → Bool) : (s.perfEvent a p n).regs = s.regs :=
  perfEvent_same s a n (·.regs) (fun _ _ _ => rfl) p
@[simp] theorem perfEvent_shadows (p : Word → Bool) : (s.perfEvent a p n).shadows = s.shadows :=
  perfEvent_same s a n (·.shadows) (fun _ _ _ => rfl) p
@[simp] theorem perfEvent_pairLow (p : Word → Bool) : (s.perfEvent a p n).pairLow = s.pairLow :=
  perfEvent_same s a n (·.pairLow) (fun _ _ _ => rfl) p
@[simp] theorem perfEvent_clk (p : Word → Bool) : (s.perfEvent a p n).clk = s.clk :=
  perfEvent_same s a n (·.clk) (fun _ _ _ => rfl) p
@[simp] theorem perfEvent_fcol (p : Word → Bool) : (s.perfEvent a p n).fcol = s.fcol :=
  perfEvent_same s a n (·.fcol) (fun _ _ _ => rfl) p
@[simp] theorem perfEvent_link (p : Word → Bool) : (s.perfEvent a p n).link = s.link :=
  perfEvent_same s a n (·.link) (fun _ _ _ => rfl) p
@[simp] theorem perfEvent_xact (p : Word → Bool) : (s.perfEvent a p n).xact = s.xact :=
  perfEvent_same s a n (·.xact) (fun _ _ _ => rfl) p
@[simp] theorem perfEvent_bridle (p : Word → Bool) : (s.perfEvent a p n).bridle = s.bridle :=
  perfEvent_same s a n (·.bridle) (fun _ _ _ => rfl) p
@[simp] theorem perfEvent_place (p : Word → Bool) : (s.perfEvent a p n).place = s.place :=
  perfEvent_same s a n (·.place) (fun _ _ _ => rfl) p
@[simp] theorem perfEvent_wdb (p : Word → Bool) : (s.perfEvent a p n).wdb = s.wdb :=
  perfEvent_same s a n (·.wdb) (fun _ _ _ => rfl) p
@[simp] theorem perfEvent_cache (p : Word → Bool) : (s.perfEvent a p n).cache = s.cache :=
  perfEvent_same s a n (·.cache) (fun _ _ _ => rfl) p
@[simp] theorem perfEvent_dram (p : Word → Bool) : (s.perfEvent a p n).dram = s.dram :=
  perfEvent_same s a n (·.dram) (fun _ _ _ => rfl) p
@[simp] theorem perfEvent_ch (p : Word → Bool) : (s.perfEvent a p n).ch = s.ch :=
  perfEvent_same s a n (·.ch) (fun _ _ _ => rfl) p
@[simp] theorem perfEvent_therm (p : Word → Bool) : (s.perfEvent a p n).therm = s.therm :=
  perfEvent_same s a n (·.therm) (fun _ _ _ => rfl) p
@[simp] theorem perfEvent_eng (p : Word → Bool) : (s.perfEvent a p n).eng = s.eng :=
  perfEvent_same s a n (·.eng) (fun _ _ _ => rfl) p
@[simp] theorem perfEvent_spare (p : Word → Bool) : (s.perfEvent a p n).spare = s.spare :=
  perfEvent_same s a n (·.spare) (fun _ _ _ => rfl) p
@[simp] theorem perfEvent_otp (p : Word → Bool) : (s.perfEvent a p n).otp = s.otp :=
  perfEvent_same s a n (·.otp) (fun _ _ _ => rfl) p
@[simp] theorem perfEvent_sec (p : Word → Bool) : (s.perfEvent a p n).sec = s.sec :=
  perfEvent_same s a n (·.sec) (fun _ _ _ => rfl) p
@[simp] theorem perfEvent_bist (p : Word → Bool) : (s.perfEvent a p n).bist = s.bist :=
  perfEvent_same s a n (·.bist) (fun _ _ _ => rfl) p
@[simp] theorem perfEvent_cal (p : Word → Bool) : (s.perfEvent a p n).cal = s.cal :=
  perfEvent_same s a n (·.cal) (fun _ _ _ => rfl) p
@[simp] theorem perfEvent_mgmt (p : Word → Bool) : (s.perfEvent a p n).mgmt = s.mgmt :=
  perfEvent_same s a n (·.mgmt) (fun _ _ _ => rfl) p

@[simp] theorem counted_pending : (s.counted a n).pending = s.pending := by simp [counted]
@[simp] theorem counted_free : (s.counted a n).free = s.free := by simp [counted]
@[simp] theorem counted_ts : (s.counted a n).ts = s.ts := by simp [counted]
@[simp] theorem counted_regs : (s.counted a n).regs = s.regs := by simp [counted]
@[simp] theorem counted_shadows : (s.counted a n).shadows = s.shadows := by simp [counted]
@[simp] theorem counted_pairLow : (s.counted a n).pairLow = s.pairLow := by simp [counted]
@[simp] theorem counted_clk : (s.counted a n).clk = s.clk := by simp [counted]
@[simp] theorem counted_link : (s.counted a n).link = s.link := by simp [counted]
@[simp] theorem counted_xact : (s.counted a n).xact = s.xact := by simp [counted]
@[simp] theorem counted_bridle : (s.counted a n).bridle = s.bridle := by simp [counted]
@[simp] theorem counted_place : (s.counted a n).place = s.place := by simp [counted]
@[simp] theorem counted_wdb : (s.counted a n).wdb = s.wdb := by simp [counted]
@[simp] theorem counted_cache : (s.counted a n).cache = s.cache := by simp [counted]
@[simp] theorem counted_dram : (s.counted a n).dram = s.dram := by simp [counted]
@[simp] theorem counted_ch : (s.counted a n).ch = s.ch := by simp [counted]
@[simp] theorem counted_therm : (s.counted a n).therm = s.therm := by simp [counted]
@[simp] theorem counted_eng : (s.counted a n).eng = s.eng := by simp [counted]
@[simp] theorem counted_spare : (s.counted a n).spare = s.spare := by simp [counted]
@[simp] theorem counted_otp : (s.counted a n).otp = s.otp := by simp [counted]
@[simp] theorem counted_sec : (s.counted a n).sec = s.sec := by simp [counted]
@[simp] theorem counted_bist : (s.counted a n).bist = s.bist := by simp [counted]
@[simp] theorem counted_cal : (s.counted a n).cal = s.cal := by simp [counted]
@[simp] theorem counted_mgmt : (s.counted a n).mgmt = s.mgmt := by simp [counted]
@[simp] theorem counted_fcol_recs : (s.counted a n).fcol.recs = s.fcol.recs := by simp [counted]
@[simp] theorem counted_fcol_react : (s.counted a n).fcol.react = s.fcol.react := by simp [counted]
@[simp] theorem counted_fcol_caps : (s.counted a n).fcol.caps = s.fcol.caps := by simp [counted]
@[simp] theorem counted_fcol_leaks : (s.counted a n).fcol.leaks = s.fcol.leaks := by simp [counted]
@[simp] theorem counted_fcol_weights : (s.counted a n).fcol.weights = s.fcol.weights := by simp [counted]
@[simp] theorem counted_fcol_levels : (s.counted a n).fcol.levels = s.fcol.levels := by simp [counted]
@[simp] theorem counted_fcol_rows : (s.counted a n).fcol.rows = s.fcol.rows := by simp [counted]
@[simp] theorem counted_fcol_seen : (s.counted a n).fcol.seen = s.fcol.seen := by simp [counted]
@[simp] theorem counted_fcol_deliv : (s.counted a n).fcol.deliv = s.fcol.deliv := by simp [counted]
@[simp] theorem counted_fcol_retestQ : (s.counted a n).fcol.retestQ = s.fcol.retestQ := by simp [counted]
@[simp] theorem counted_fcol_runScrub : (s.counted a n).fcol.runScrub = s.fcol.runScrub := by simp [counted]
@[simp] theorem counted_fcol_runBist : (s.counted a n).fcol.runBist = s.fcol.runBist := by simp [counted]
@[simp] theorem counted_fcol_declared : (s.counted a n).fcol.declared = s.fcol.declared := by simp [counted]
@[simp] theorem counted_fcol_handed : (s.counted a n).fcol.handed = s.fcol.handed := by simp [counted]
@[simp] theorem counted_fcol_alertN : (s.counted a n).fcol.alertN = s.fcol.alertN := by simp [counted]
@[simp] theorem counted_fcol_alertAt : (s.counted a n).fcol.alertAt = s.fcol.alertAt := by simp [counted]
@[simp] theorem counted_fcol_resets : (s.counted a n).fcol.resets = s.fcol.resets := by simp [counted]
@[simp] theorem counted_fcol_chipReset : (s.counted a n).fcol.chipReset = s.fcol.chipReset := by simp [counted]

/-! ### inc -/

@[simp] theorem inc_pending : (s.inc a n).pending = s.pending := by
  unfold inc; split <;> simp
@[simp] theorem inc_free : (s.inc a n).free = s.free := by
  unfold inc; split <;> simp
@[simp] theorem inc_ts : (s.inc a n).ts = s.ts := by
  unfold inc; split <;> simp
@[simp] theorem inc_shadows : (s.inc a n).shadows = s.shadows := by
  unfold inc; split <;> simp
@[simp] theorem inc_pairLow : (s.inc a n).pairLow = s.pairLow := by
  unfold inc; split <;> simp
@[simp] theorem inc_clk : (s.inc a n).clk = s.clk := by
  unfold inc; split <;> simp
@[simp] theorem inc_link : (s.inc a n).link = s.link := by
  unfold inc; split <;> simp
@[simp] theorem inc_xact : (s.inc a n).xact = s.xact := by
  unfold inc; split <;> simp
@[simp] theorem inc_bridle : (s.inc a n).bridle = s.bridle := by
  unfold inc; split <;> simp
@[simp] theorem inc_place : (s.inc a n).place = s.place := by
  unfold inc; split <;> simp
@[simp] theorem inc_wdb : (s.inc a n).wdb = s.wdb := by
  unfold inc; split <;> simp
@[simp] theorem inc_cache : (s.inc a n).cache = s.cache := by
  unfold inc; split <;> simp
@[simp] theorem inc_dram : (s.inc a n).dram = s.dram := by
  unfold inc; split <;> simp
@[simp] theorem inc_ch : (s.inc a n).ch = s.ch := by
  unfold inc; split <;> simp
@[simp] theorem inc_therm : (s.inc a n).therm = s.therm := by
  unfold inc; split <;> simp
@[simp] theorem inc_eng : (s.inc a n).eng = s.eng := by
  unfold inc; split <;> simp
@[simp] theorem inc_spare : (s.inc a n).spare = s.spare := by
  unfold inc; split <;> simp
@[simp] theorem inc_otp : (s.inc a n).otp = s.otp := by
  unfold inc; split <;> simp
@[simp] theorem inc_sec : (s.inc a n).sec = s.sec := by
  unfold inc; split <;> simp
@[simp] theorem inc_bist : (s.inc a n).bist = s.bist := by
  unfold inc; split <;> simp
@[simp] theorem inc_cal : (s.inc a n).cal = s.cal := by
  unfold inc; split <;> simp
@[simp] theorem inc_mgmt : (s.inc a n).mgmt = s.mgmt := by
  unfold inc; split <;> simp
@[simp] theorem inc_fcol_recs : (s.inc a n).fcol.recs = s.fcol.recs := by
  unfold inc; split <;> simp
@[simp] theorem inc_fcol_react : (s.inc a n).fcol.react = s.fcol.react := by
  unfold inc; split <;> simp
@[simp] theorem inc_fcol_caps : (s.inc a n).fcol.caps = s.fcol.caps := by
  unfold inc; split <;> simp
@[simp] theorem inc_fcol_leaks : (s.inc a n).fcol.leaks = s.fcol.leaks := by
  unfold inc; split <;> simp
@[simp] theorem inc_fcol_weights : (s.inc a n).fcol.weights = s.fcol.weights := by
  unfold inc; split <;> simp
@[simp] theorem inc_fcol_levels : (s.inc a n).fcol.levels = s.fcol.levels := by
  unfold inc; split <;> simp
@[simp] theorem inc_fcol_rows : (s.inc a n).fcol.rows = s.fcol.rows := by
  unfold inc; split <;> simp
@[simp] theorem inc_fcol_seen : (s.inc a n).fcol.seen = s.fcol.seen := by
  unfold inc; split <;> simp
@[simp] theorem inc_fcol_deliv : (s.inc a n).fcol.deliv = s.fcol.deliv := by
  unfold inc; split <;> simp
@[simp] theorem inc_fcol_retestQ : (s.inc a n).fcol.retestQ = s.fcol.retestQ := by
  unfold inc; split <;> simp
@[simp] theorem inc_fcol_runScrub : (s.inc a n).fcol.runScrub = s.fcol.runScrub := by
  unfold inc; split <;> simp
@[simp] theorem inc_fcol_runBist : (s.inc a n).fcol.runBist = s.fcol.runBist := by
  unfold inc; split <;> simp
@[simp] theorem inc_fcol_declared : (s.inc a n).fcol.declared = s.fcol.declared := by
  unfold inc; split <;> simp
@[simp] theorem inc_fcol_handed : (s.inc a n).fcol.handed = s.fcol.handed := by
  unfold inc; split <;> simp
@[simp] theorem inc_fcol_alertN : (s.inc a n).fcol.alertN = s.fcol.alertN := by
  unfold inc; split <;> simp
@[simp] theorem inc_fcol_alertAt : (s.inc a n).fcol.alertAt = s.fcol.alertAt := by
  unfold inc; split <;> simp
@[simp] theorem inc_fcol_resets : (s.inc a n).fcol.resets = s.fcol.resets := by
  unfold inc; split <;> simp
@[simp] theorem inc_fcol_chipReset : (s.inc a n).fcol.chipReset = s.fcol.chipReset := by
  unfold inc; split <;> simp

/-! ### inc64 -/

@[simp] theorem inc64_pending : (s.inc64 a n).pending = s.pending := by
  unfold inc64; split <;> simp
@[simp] theorem inc64_free : (s.inc64 a n).free = s.free := by
  unfold inc64; split <;> simp
@[simp] theorem inc64_ts : (s.inc64 a n).ts = s.ts := by
  unfold inc64; split <;> simp
@[simp] theorem inc64_shadows : (s.inc64 a n).shadows = s.shadows := by
  unfold inc64; split <;> simp
@[simp] theorem inc64_pairLow : (s.inc64 a n).pairLow = s.pairLow := by
  unfold inc64; split <;> simp
@[simp] theorem inc64_clk : (s.inc64 a n).clk = s.clk := by
  unfold inc64; split <;> simp
@[simp] theorem inc64_link : (s.inc64 a n).link = s.link := by
  unfold inc64; split <;> simp
@[simp] theorem inc64_xact : (s.inc64 a n).xact = s.xact := by
  unfold inc64; split <;> simp
@[simp] theorem inc64_bridle : (s.inc64 a n).bridle = s.bridle := by
  unfold inc64; split <;> simp
@[simp] theorem inc64_place : (s.inc64 a n).place = s.place := by
  unfold inc64; split <;> simp
@[simp] theorem inc64_wdb : (s.inc64 a n).wdb = s.wdb := by
  unfold inc64; split <;> simp
@[simp] theorem inc64_cache : (s.inc64 a n).cache = s.cache := by
  unfold inc64; split <;> simp
@[simp] theorem inc64_dram : (s.inc64 a n).dram = s.dram := by
  unfold inc64; split <;> simp
@[simp] theorem inc64_ch : (s.inc64 a n).ch = s.ch := by
  unfold inc64; split <;> simp
@[simp] theorem inc64_therm : (s.inc64 a n).therm = s.therm := by
  unfold inc64; split <;> simp
@[simp] theorem inc64_eng : (s.inc64 a n).eng = s.eng := by
  unfold inc64; split <;> simp
@[simp] theorem inc64_spare : (s.inc64 a n).spare = s.spare := by
  unfold inc64; split <;> simp
@[simp] theorem inc64_otp : (s.inc64 a n).otp = s.otp := by
  unfold inc64; split <;> simp
@[simp] theorem inc64_sec : (s.inc64 a n).sec = s.sec := by
  unfold inc64; split <;> simp
@[simp] theorem inc64_bist : (s.inc64 a n).bist = s.bist := by
  unfold inc64; split <;> simp
@[simp] theorem inc64_cal : (s.inc64 a n).cal = s.cal := by
  unfold inc64; split <;> simp
@[simp] theorem inc64_mgmt : (s.inc64 a n).mgmt = s.mgmt := by
  unfold inc64; split <;> simp
@[simp] theorem inc64_fcol_recs : (s.inc64 a n).fcol.recs = s.fcol.recs := by
  unfold inc64; split <;> simp
@[simp] theorem inc64_fcol_react : (s.inc64 a n).fcol.react = s.fcol.react := by
  unfold inc64; split <;> simp
@[simp] theorem inc64_fcol_caps : (s.inc64 a n).fcol.caps = s.fcol.caps := by
  unfold inc64; split <;> simp
@[simp] theorem inc64_fcol_leaks : (s.inc64 a n).fcol.leaks = s.fcol.leaks := by
  unfold inc64; split <;> simp
@[simp] theorem inc64_fcol_weights : (s.inc64 a n).fcol.weights = s.fcol.weights := by
  unfold inc64; split <;> simp
@[simp] theorem inc64_fcol_levels : (s.inc64 a n).fcol.levels = s.fcol.levels := by
  unfold inc64; split <;> simp
@[simp] theorem inc64_fcol_rows : (s.inc64 a n).fcol.rows = s.fcol.rows := by
  unfold inc64; split <;> simp
@[simp] theorem inc64_fcol_seen : (s.inc64 a n).fcol.seen = s.fcol.seen := by
  unfold inc64; split <;> simp
@[simp] theorem inc64_fcol_deliv : (s.inc64 a n).fcol.deliv = s.fcol.deliv := by
  unfold inc64; split <;> simp
@[simp] theorem inc64_fcol_retestQ : (s.inc64 a n).fcol.retestQ = s.fcol.retestQ := by
  unfold inc64; split <;> simp
@[simp] theorem inc64_fcol_runScrub : (s.inc64 a n).fcol.runScrub = s.fcol.runScrub := by
  unfold inc64; split <;> simp
@[simp] theorem inc64_fcol_runBist : (s.inc64 a n).fcol.runBist = s.fcol.runBist := by
  unfold inc64; split <;> simp
@[simp] theorem inc64_fcol_declared : (s.inc64 a n).fcol.declared = s.fcol.declared := by
  unfold inc64; split <;> simp
@[simp] theorem inc64_fcol_handed : (s.inc64 a n).fcol.handed = s.fcol.handed := by
  unfold inc64; split <;> simp
@[simp] theorem inc64_fcol_alertN : (s.inc64 a n).fcol.alertN = s.fcol.alertN := by
  unfold inc64; split <;> simp
@[simp] theorem inc64_fcol_alertAt : (s.inc64 a n).fcol.alertAt = s.fcol.alertAt := by
  unfold inc64; split <;> simp
@[simp] theorem inc64_fcol_resets : (s.inc64 a n).fcol.resets = s.fcol.resets := by
  unfold inc64; split <;> simp
@[simp] theorem inc64_fcol_chipReset : (s.inc64 a n).fcol.chipReset = s.fcol.chipReset := by
  unfold inc64; split <;> simp

/-! ### incSat -/

@[simp] theorem incSat_pending : (s.incSat a f n).pending = s.pending := by
  unfold incSat; dsimp only; split <;> simp
@[simp] theorem incSat_free : (s.incSat a f n).free = s.free := by
  unfold incSat; dsimp only; split <;> simp
@[simp] theorem incSat_ts : (s.incSat a f n).ts = s.ts := by
  unfold incSat; dsimp only; split <;> simp
@[simp] theorem incSat_shadows : (s.incSat a f n).shadows = s.shadows := by
  unfold incSat; dsimp only; split <;> simp
@[simp] theorem incSat_pairLow : (s.incSat a f n).pairLow = s.pairLow := by
  unfold incSat; dsimp only; split <;> simp
@[simp] theorem incSat_clk : (s.incSat a f n).clk = s.clk := by
  unfold incSat; dsimp only; split <;> simp
@[simp] theorem incSat_link : (s.incSat a f n).link = s.link := by
  unfold incSat; dsimp only; split <;> simp
@[simp] theorem incSat_xact : (s.incSat a f n).xact = s.xact := by
  unfold incSat; dsimp only; split <;> simp
@[simp] theorem incSat_bridle : (s.incSat a f n).bridle = s.bridle := by
  unfold incSat; dsimp only; split <;> simp
@[simp] theorem incSat_place : (s.incSat a f n).place = s.place := by
  unfold incSat; dsimp only; split <;> simp
@[simp] theorem incSat_wdb : (s.incSat a f n).wdb = s.wdb := by
  unfold incSat; dsimp only; split <;> simp
@[simp] theorem incSat_cache : (s.incSat a f n).cache = s.cache := by
  unfold incSat; dsimp only; split <;> simp
@[simp] theorem incSat_dram : (s.incSat a f n).dram = s.dram := by
  unfold incSat; dsimp only; split <;> simp
@[simp] theorem incSat_ch : (s.incSat a f n).ch = s.ch := by
  unfold incSat; dsimp only; split <;> simp
@[simp] theorem incSat_therm : (s.incSat a f n).therm = s.therm := by
  unfold incSat; dsimp only; split <;> simp
@[simp] theorem incSat_eng : (s.incSat a f n).eng = s.eng := by
  unfold incSat; dsimp only; split <;> simp
@[simp] theorem incSat_spare : (s.incSat a f n).spare = s.spare := by
  unfold incSat; dsimp only; split <;> simp
@[simp] theorem incSat_otp : (s.incSat a f n).otp = s.otp := by
  unfold incSat; dsimp only; split <;> simp
@[simp] theorem incSat_sec : (s.incSat a f n).sec = s.sec := by
  unfold incSat; dsimp only; split <;> simp
@[simp] theorem incSat_bist : (s.incSat a f n).bist = s.bist := by
  unfold incSat; dsimp only; split <;> simp
@[simp] theorem incSat_cal : (s.incSat a f n).cal = s.cal := by
  unfold incSat; dsimp only; split <;> simp
@[simp] theorem incSat_mgmt : (s.incSat a f n).mgmt = s.mgmt := by
  unfold incSat; dsimp only; split <;> simp
@[simp] theorem incSat_fcol_recs : (s.incSat a f n).fcol.recs = s.fcol.recs := by
  unfold incSat; dsimp only; split <;> simp
@[simp] theorem incSat_fcol_react : (s.incSat a f n).fcol.react = s.fcol.react := by
  unfold incSat; dsimp only; split <;> simp
@[simp] theorem incSat_fcol_caps : (s.incSat a f n).fcol.caps = s.fcol.caps := by
  unfold incSat; dsimp only; split <;> simp
@[simp] theorem incSat_fcol_leaks : (s.incSat a f n).fcol.leaks = s.fcol.leaks := by
  unfold incSat; dsimp only; split <;> simp
@[simp] theorem incSat_fcol_weights : (s.incSat a f n).fcol.weights = s.fcol.weights := by
  unfold incSat; dsimp only; split <;> simp
@[simp] theorem incSat_fcol_levels : (s.incSat a f n).fcol.levels = s.fcol.levels := by
  unfold incSat; dsimp only; split <;> simp
@[simp] theorem incSat_fcol_rows : (s.incSat a f n).fcol.rows = s.fcol.rows := by
  unfold incSat; dsimp only; split <;> simp
@[simp] theorem incSat_fcol_seen : (s.incSat a f n).fcol.seen = s.fcol.seen := by
  unfold incSat; dsimp only; split <;> simp
@[simp] theorem incSat_fcol_deliv : (s.incSat a f n).fcol.deliv = s.fcol.deliv := by
  unfold incSat; dsimp only; split <;> simp
@[simp] theorem incSat_fcol_retestQ : (s.incSat a f n).fcol.retestQ = s.fcol.retestQ := by
  unfold incSat; dsimp only; split <;> simp
@[simp] theorem incSat_fcol_runScrub : (s.incSat a f n).fcol.runScrub = s.fcol.runScrub := by
  unfold incSat; dsimp only; split <;> simp
@[simp] theorem incSat_fcol_runBist : (s.incSat a f n).fcol.runBist = s.fcol.runBist := by
  unfold incSat; dsimp only; split <;> simp
@[simp] theorem incSat_fcol_declared : (s.incSat a f n).fcol.declared = s.fcol.declared := by
  unfold incSat; dsimp only; split <;> simp
@[simp] theorem incSat_fcol_handed : (s.incSat a f n).fcol.handed = s.fcol.handed := by
  unfold incSat; dsimp only; split <;> simp
@[simp] theorem incSat_fcol_alertN : (s.incSat a f n).fcol.alertN = s.fcol.alertN := by
  unfold incSat; dsimp only; split <;> simp
@[simp] theorem incSat_fcol_alertAt : (s.incSat a f n).fcol.alertAt = s.fcol.alertAt := by
  unfold incSat; dsimp only; split <;> simp
@[simp] theorem incSat_fcol_resets : (s.incSat a f n).fcol.resets = s.fcol.resets := by
  unfold incSat; dsimp only; split <;> simp
@[simp] theorem incSat_fcol_chipReset : (s.incSat a f n).fcol.chipReset = s.fcol.chipReset := by
  unfold incSat; dsimp only; split <;> simp

/-! ### deliver, report, freeWord -/

@[simp] theorem deliver_pending : (s.deliver d).pending = s.pending := rfl
@[simp] theorem deliver_free : (s.deliver d).free = s.free := rfl
@[simp] theorem deliver_ts : (s.deliver d).ts = s.ts := rfl
@[simp] theorem deliver_regs : (s.deliver d).regs = s.regs := rfl
@[simp] theorem deliver_shadows : (s.deliver d).shadows = s.shadows := rfl
@[simp] theorem deliver_pairLow : (s.deliver d).pairLow = s.pairLow := rfl
@[simp] theorem deliver_clk : (s.deliver d).clk = s.clk := rfl
@[simp] theorem deliver_perf : (s.deliver d).perf = s.perf := rfl
@[simp] theorem deliver_link : (s.deliver d).link = s.link := rfl
@[simp] theorem deliver_xact : (s.deliver d).xact = s.xact := rfl
@[simp] theorem deliver_bridle : (s.deliver d).bridle = s.bridle := rfl
@[simp] theorem deliver_place : (s.deliver d).place = s.place := rfl
@[simp] theorem deliver_wdb : (s.deliver d).wdb = s.wdb := rfl
@[simp] theorem deliver_cache : (s.deliver d).cache = s.cache := rfl
@[simp] theorem deliver_dram : (s.deliver d).dram = s.dram := rfl
@[simp] theorem deliver_ch : (s.deliver d).ch = s.ch := rfl
@[simp] theorem deliver_therm : (s.deliver d).therm = s.therm := rfl
@[simp] theorem deliver_eng : (s.deliver d).eng = s.eng := rfl
@[simp] theorem deliver_spare : (s.deliver d).spare = s.spare := rfl
@[simp] theorem deliver_otp : (s.deliver d).otp = s.otp := rfl
@[simp] theorem deliver_sec : (s.deliver d).sec = s.sec := rfl
@[simp] theorem deliver_bist : (s.deliver d).bist = s.bist := rfl
@[simp] theorem deliver_cal : (s.deliver d).cal = s.cal := rfl
@[simp] theorem deliver_mgmt : (s.deliver d).mgmt = s.mgmt := rfl
@[simp] theorem deliver_fcol_recs : (s.deliver d).fcol.recs = s.fcol.recs := rfl
@[simp] theorem deliver_fcol_react : (s.deliver d).fcol.react = s.fcol.react := rfl
@[simp] theorem deliver_fcol_caps : (s.deliver d).fcol.caps = s.fcol.caps := rfl
@[simp] theorem deliver_fcol_leaks : (s.deliver d).fcol.leaks = s.fcol.leaks := rfl
@[simp] theorem deliver_fcol_weights : (s.deliver d).fcol.weights = s.fcol.weights := rfl
@[simp] theorem deliver_fcol_levels : (s.deliver d).fcol.levels = s.fcol.levels := rfl
@[simp] theorem deliver_fcol_rows : (s.deliver d).fcol.rows = s.fcol.rows := rfl
@[simp] theorem deliver_fcol_seen : (s.deliver d).fcol.seen = s.fcol.seen := rfl
@[simp] theorem deliver_fcol_retestQ : (s.deliver d).fcol.retestQ = s.fcol.retestQ := rfl
@[simp] theorem deliver_fcol_runScrub : (s.deliver d).fcol.runScrub = s.fcol.runScrub := rfl
@[simp] theorem deliver_fcol_runBist : (s.deliver d).fcol.runBist = s.fcol.runBist := rfl
@[simp] theorem deliver_fcol_declared : (s.deliver d).fcol.declared = s.fcol.declared := rfl
@[simp] theorem deliver_fcol_handed : (s.deliver d).fcol.handed = s.fcol.handed := rfl
@[simp] theorem deliver_fcol_alertN : (s.deliver d).fcol.alertN = s.fcol.alertN := rfl
@[simp] theorem deliver_fcol_alertAt : (s.deliver d).fcol.alertAt = s.fcol.alertAt := rfl
@[simp] theorem deliver_fcol_rose : (s.deliver d).fcol.rose = s.fcol.rose := rfl
@[simp] theorem deliver_fcol_resets : (s.deliver d).fcol.resets = s.fcol.resets := rfl
@[simp] theorem deliver_fcol_chipReset : (s.deliver d).fcol.chipReset = s.fcol.chipReset := rfl

variable (k m c : Nat) (r : Word) (ad : Word64)

@[simp] theorem report_pending : (s.report k r m c ad).pending = s.pending := rfl
@[simp] theorem report_free : (s.report k r m c ad).free = s.free := rfl
@[simp] theorem report_ts : (s.report k r m c ad).ts = s.ts := rfl
@[simp] theorem report_regs : (s.report k r m c ad).regs = s.regs := rfl
@[simp] theorem report_shadows : (s.report k r m c ad).shadows = s.shadows := rfl
@[simp] theorem report_pairLow : (s.report k r m c ad).pairLow = s.pairLow := rfl
@[simp] theorem report_clk : (s.report k r m c ad).clk = s.clk := rfl
@[simp] theorem report_perf : (s.report k r m c ad).perf = s.perf := rfl
@[simp] theorem report_link : (s.report k r m c ad).link = s.link := rfl
@[simp] theorem report_xact : (s.report k r m c ad).xact = s.xact := rfl
@[simp] theorem report_bridle : (s.report k r m c ad).bridle = s.bridle := rfl
@[simp] theorem report_place : (s.report k r m c ad).place = s.place := rfl
@[simp] theorem report_wdb : (s.report k r m c ad).wdb = s.wdb := rfl
@[simp] theorem report_cache : (s.report k r m c ad).cache = s.cache := rfl
@[simp] theorem report_dram : (s.report k r m c ad).dram = s.dram := rfl
@[simp] theorem report_ch : (s.report k r m c ad).ch = s.ch := rfl
@[simp] theorem report_therm : (s.report k r m c ad).therm = s.therm := rfl
@[simp] theorem report_eng : (s.report k r m c ad).eng = s.eng := rfl
@[simp] theorem report_spare : (s.report k r m c ad).spare = s.spare := rfl
@[simp] theorem report_otp : (s.report k r m c ad).otp = s.otp := rfl
@[simp] theorem report_sec : (s.report k r m c ad).sec = s.sec := rfl
@[simp] theorem report_bist : (s.report k r m c ad).bist = s.bist := rfl
@[simp] theorem report_cal : (s.report k r m c ad).cal = s.cal := rfl
@[simp] theorem report_mgmt : (s.report k r m c ad).mgmt = s.mgmt := rfl
@[simp] theorem report_fcol_recs : (s.report k r m c ad).fcol.recs = s.fcol.recs := rfl
@[simp] theorem report_fcol_react : (s.report k r m c ad).fcol.react = s.fcol.react := rfl
@[simp] theorem report_fcol_caps : (s.report k r m c ad).fcol.caps = s.fcol.caps := rfl
@[simp] theorem report_fcol_leaks : (s.report k r m c ad).fcol.leaks = s.fcol.leaks := rfl
@[simp] theorem report_fcol_weights : (s.report k r m c ad).fcol.weights = s.fcol.weights := rfl
@[simp] theorem report_fcol_levels : (s.report k r m c ad).fcol.levels = s.fcol.levels := rfl
@[simp] theorem report_fcol_rows : (s.report k r m c ad).fcol.rows = s.fcol.rows := rfl
@[simp] theorem report_fcol_seen : (s.report k r m c ad).fcol.seen = s.fcol.seen := rfl
@[simp] theorem report_fcol_retestQ : (s.report k r m c ad).fcol.retestQ = s.fcol.retestQ := rfl
@[simp] theorem report_fcol_runScrub : (s.report k r m c ad).fcol.runScrub = s.fcol.runScrub := rfl
@[simp] theorem report_fcol_runBist : (s.report k r m c ad).fcol.runBist = s.fcol.runBist := rfl
@[simp] theorem report_fcol_declared : (s.report k r m c ad).fcol.declared = s.fcol.declared := rfl
@[simp] theorem report_fcol_handed : (s.report k r m c ad).fcol.handed = s.fcol.handed := rfl
@[simp] theorem report_fcol_alertN : (s.report k r m c ad).fcol.alertN = s.fcol.alertN := rfl
@[simp] theorem report_fcol_alertAt : (s.report k r m c ad).fcol.alertAt = s.fcol.alertAt := rfl
@[simp] theorem report_fcol_rose : (s.report k r m c ad).fcol.rose = s.fcol.rose := rfl
@[simp] theorem report_fcol_resets : (s.report k r m c ad).fcol.resets = s.fcol.resets := rfl
@[simp] theorem report_fcol_chipReset : (s.report k r m c ad).fcol.chipReset = s.fcol.chipReset := rfl
@[simp] theorem freeWord_pending : (s.freeWord).2.pending = s.pending := rfl
@[simp] theorem freeWord_ts : (s.freeWord).2.ts = s.ts := rfl
@[simp] theorem freeWord_regs : (s.freeWord).2.regs = s.regs := rfl
@[simp] theorem freeWord_shadows : (s.freeWord).2.shadows = s.shadows := rfl
@[simp] theorem freeWord_pairLow : (s.freeWord).2.pairLow = s.pairLow := rfl
@[simp] theorem freeWord_clk : (s.freeWord).2.clk = s.clk := rfl
@[simp] theorem freeWord_fcol : (s.freeWord).2.fcol = s.fcol := rfl
@[simp] theorem freeWord_perf : (s.freeWord).2.perf = s.perf := rfl
@[simp] theorem freeWord_link : (s.freeWord).2.link = s.link := rfl
@[simp] theorem freeWord_xact : (s.freeWord).2.xact = s.xact := rfl
@[simp] theorem freeWord_bridle : (s.freeWord).2.bridle = s.bridle := rfl
@[simp] theorem freeWord_place : (s.freeWord).2.place = s.place := rfl
@[simp] theorem freeWord_wdb : (s.freeWord).2.wdb = s.wdb := rfl
@[simp] theorem freeWord_cache : (s.freeWord).2.cache = s.cache := rfl
@[simp] theorem freeWord_dram : (s.freeWord).2.dram = s.dram := rfl
@[simp] theorem freeWord_ch : (s.freeWord).2.ch = s.ch := rfl
@[simp] theorem freeWord_therm : (s.freeWord).2.therm = s.therm := rfl
@[simp] theorem freeWord_eng : (s.freeWord).2.eng = s.eng := rfl
@[simp] theorem freeWord_spare : (s.freeWord).2.spare = s.spare := rfl
@[simp] theorem freeWord_otp : (s.freeWord).2.otp = s.otp := rfl
@[simp] theorem freeWord_sec : (s.freeWord).2.sec = s.sec := rfl
@[simp] theorem freeWord_bist : (s.freeWord).2.bist = s.bist := rfl
@[simp] theorem freeWord_cal : (s.freeWord).2.cal = s.cal := rfl
@[simp] theorem freeWord_mgmt : (s.freeWord).2.mgmt = s.mgmt := rfl
@[simp] theorem freeWord_free : (s.freeWord).2.free = s.free + 1 := rfl

/-! ### Registers read back -/

/-- A register reads what was stored in it. -/
theorem rd_wr_same : (s.wr a v).rd a = v := Sys2Proof.Laws.SMap.get_set_same _ _ _ _

/-- A store leaves every other register alone. -/
theorem rd_wr_other (h : b ≠ a) : (s.wr a v).rd b = s.rd b := Sys2Proof.Laws.SMap.get_set_other _ h _ _

@[simp] theorem rd_wr : (s.wr a v).rd b = if b = a then v else s.rd b := by
  split
  · rename_i h; subst h; exact rd_wr_same _ _ _
  · rename_i h; exact rd_wr_other _ _ _ _ h

@[simp] theorem rd_put : (s.put a f n).rd b = if b = a then f.set n (s.rd a) else s.rd b := by simp [put]
@[simp] theorem rd_flag : (s.flag a f x).rd b = if b = a then f.set x.toNat (s.rd a) else s.rd b := by simp [flag]

/-- The registers of a state written out. -/
@[simp] theorem rd_mk {pending free ts regs shadows pairLow clk fcol perf link xact bridle place wdb cache dram ch therm eng
    spare otp sec bist cal mgmt} : (State.mk pending free ts regs shadows pairLow clk fcol perf link xact bridle place wdb
    cache dram ch therm eng spare otp sec bist cal mgmt).rd a = SMap.get regReset regs a := rfl

@[simp] theorem get_regs : SMap.get regReset s.regs a = s.rd a := rfl

theorem rd_eq_of_regs {s t : State} (h : t.regs = s.regs) (b : Nat) : t.rd b = s.rd b := by
  unfold rd
  rw [h]

@[simp] theorem rd_perfAdd : (s.perfAdd a n).rd b = s.rd b := rfl
@[simp] theorem rd_perfEvent (p : Word → Bool) : (s.perfEvent a p n).rd b = s.rd b := rd_eq_of_regs (by simp) b
@[simp] theorem rd_counted : (s.counted a n).rd b = s.rd b := rd_eq_of_regs (by simp) b
@[simp] theorem rd_deliver : (s.deliver d).rd b = s.rd b := rfl
@[simp] theorem rd_report : (s.report k r m c ad).rd b = s.rd b := rfl
@[simp] theorem rd_freeWord : (s.freeWord).2.rd b = s.rd b := rfl

/-- A counter rises by the occurrences, modulo 2^32, and no other register changes. -/
@[simp] theorem rd_inc : (s.inc a n).rd b = if b = a then s.rd a + BitVec.ofNat 32 n else s.rd b := by
  unfold inc
  split
  · rename_i h; subst h; split
    · rename_i h; subst h; simp
    · rfl
  · simp

@[simp] theorem rd_wr64 : (s.wr64 a w).rd b
    = if b = a + 4 then w.extractLsb' 32 32 else if b = a then w.extractLsb' 0 32 else s.rd b := by
  simp [wr64]

theorem rd_inc64_other (h : b ≠ a) (h' : b ≠ a + 4) : (s.inc64 a n).rd b = s.rd b := by
  unfold inc64
  split
  · rfl
  · simp [h, h']

theorem rd_incSat_other (h : b ≠ a) : (s.incSat a f n).rd b = s.rd b := by
  unfold incSat
  dsimp only
  split
  · rfl
  · simp [h]

end State

/-! ### Fields of a word -/

/-- A field reads what was set in it, cut to its width. -/
theorem Fld.get_set (f : Fld) (n : Nat) (w : Word) (h : f.lsb + f.width ≤ 32) : f.get (f.set n w) = n % 2 ^ f.width := by
  have hlt : n % 2 ^ f.width < 2 ^ f.width := Nat.mod_lt _ (Nat.two_pow_pos _)
  have hb : n % 2 ^ f.width * 2 ^ f.lsb < 2 ^ 32 := by
    calc n % 2 ^ f.width * 2 ^ f.lsb < 2 ^ f.width * 2 ^ f.lsb := Nat.mul_lt_mul_of_pos_right hlt (Nat.two_pow_pos _)
      _ = 2 ^ (f.lsb + f.width) := by rw [← Nat.pow_add, Nat.add_comm]
      _ ≤ 2 ^ 32 := Nat.pow_le_pow_right (by decide) h
  have hm : (2 ^ f.width - 1) * 2 ^ f.lsb < 2 ^ 32 := by
    calc (2 ^ f.width - 1) * 2 ^ f.lsb < 2 ^ f.width * 2 ^ f.lsb :=
          Nat.mul_lt_mul_of_pos_right (by have := Nat.two_pow_pos f.width; omega) (Nat.two_pow_pos _)
      _ = 2 ^ (f.lsb + f.width) := by rw [← Nat.pow_add, Nat.add_comm]
      _ ≤ 2 ^ 32 := Nat.pow_le_pow_right (by decide) h
  unfold Fld.get Fld.set Fld.mask
  apply Nat.eq_of_testBit_eq
  intro j
  rw [Nat.testBit_mod_two_pow]
  by_cases hj : j < f.width
  · have h1 : j + f.lsb < 32 := by omega
    have e1 : ((2 ^ f.width - 1) * 2 ^ f.lsb).testBit (f.lsb + j) = true := by
      rw [Nat.testBit_mul_two_pow]; simp [hj]
    have e2 : (n % 2 ^ f.width * 2 ^ f.lsb).testBit (f.lsb + j) = n.testBit j := by
      rw [Nat.testBit_mul_two_pow]; simp [hj]
    simp only [hj, decide_true, Bool.true_and]
    rw [BitVec.testBit_toNat, BitVec.getLsbD_ushiftRight, BitVec.getLsbD_or, BitVec.getLsbD_and, BitVec.getLsbD_not,
      BitVec.getLsbD_ofNat, BitVec.getLsbD_ofNat, e1, e2]
    simp [show f.lsb + j < 32 by omega, hj]
  · simp [hj]

/-- Setting a field leaves a field with other bits alone. -/
theorem Fld.get_set_other (f g : Fld) (n : Nat) (w : Word) (h : g.lsb + g.width ≤ f.lsb ∨ f.lsb + f.width ≤ g.lsb) :
    g.get (f.set n w) = g.get w := by
  unfold Fld.get Fld.set Fld.mask
  apply Nat.eq_of_testBit_eq
  intro j
  rw [Nat.testBit_mod_two_pow, Nat.testBit_mod_two_pow]
  by_cases hj : j < g.width
  · simp only [hj, decide_true, Bool.true_and]
    rw [BitVec.testBit_toNat, BitVec.testBit_toNat, BitVec.getLsbD_ushiftRight, BitVec.getLsbD_ushiftRight,
      BitVec.getLsbD_or, BitVec.getLsbD_and, BitVec.getLsbD_not, BitVec.getLsbD_ofNat, BitVec.getLsbD_ofNat,
      Nat.testBit_mul_two_pow, Nat.testBit_mul_two_pow]
    by_cases h32 : g.lsb + j < 32
    · rcases h with h | h
      · have e : ¬ f.lsb ≤ g.lsb + j := by omega
        simp [h32, e]
      · have e : ¬ (g.lsb + j - f.lsb < f.width) := by omega
        simp [h32, e, Nat.testBit_lt_two_pow (Nat.lt_of_lt_of_le (Nat.mod_lt n (Nat.two_pow_pos f.width))
          (Nat.pow_le_pow_right (by decide) (by omega : f.width ≤ g.lsb + j - f.lsb)))]
    · have : w.getLsbD (g.lsb + j) = false := BitVec.getLsbD_of_ge _ _ (by omega)
      simp [h32, this]
  · simp [hj]

end Sys2Proof.Machine
end

