-- ==== Sys2Proof/Laws/Bus.lean ====
section
/-! SUPPORT. The register bus: what a whole-dword access to a register that answers does (R385, R412, R413). -/

namespace Sys2Proof.Machine
open Sys2Proof.Safety
namespace State

variable {s : State} {path : Path} {a : Nat} {v : Word}

/-- On an open bus an access whose address answers is performed once. -/
theorem busWrite_open (hu : s.busUp path = true) (hr : s.ratioBroken = false) (hf : s.accessFault a = none)
    (h4 : a % 4 = 0) (hk : offOf a / 0x400 = 0) (hm : isMsixPage (pageOf a) = false) (hl : lifeDenied path a 0 v = false) :
    s.busWrite path a 15 v = ⟨s.regWrite path a 0 15 v, true, 0⟩ := by
  have e : a / 4 * 4 = a := by omega
  have b : 0x1000 * pageOf a + offOf a % 0x400 = a := by unfold offOf pageOf at *; omega
  simp [busWrite, hu, hr, writeOnce, e, b, hk, hm, hf, hl]

/-- A whole-dword write of a register: its unlocked fields take the written bits, and its actions act. -/
theorem regWrite_whole (he : (fieldsAt a).isEmpty = false)
    (hb : (pageOf a == 1 && (mbInput (offOf a)).any s.mbBusy) = false) (hp : s.pageLocked (pageOf a) = false)
    (hs : setOnly a = false) :
    s.regWrite path a 0 15 v =
      s.regEffect path a (s.cur a)
        ((s.cur a &&& ~~~((fieldBits (· == .rw) a ||| s.softBits a ||| fieldBits (· == .rwl) a) &&& beMask 15))
          ||| (v &&& ((fieldBits (· == .rw) a ||| s.softBits a ||| fieldBits (· == .rwl) a) &&& beMask 15)))
        (v &&& fieldBits (· == .cmd) a) true := by
  simp [regWrite, he, hb, hp, hs, aliasOp]

/-- A failed write changes nothing but what records the error. -/
theorem busWrite_fault {c be : Nat} (hu : s.busUp path = true) (hr : s.ratioBroken = false) (h4 : a % 4 = 0)
    (hf : s.accessFault a = some c) (hm : isMsixPage (pageOf a) = false) :
    s.busWrite path a be v = ⟨s.accErr path a true c, false, 0⟩ := by
  have e : a / 4 * 4 = a := by omega
  simp [busWrite, hu, hr, writeOnce, e, hf, hm]

/-- A failed read returns all ones, or 0 for a PERFU page that is not enabled. -/
theorem busRead_fault {c : Nat} (hu : s.busUp path = true) (hr : s.ratioBroken = false) (h4 : a % 4 = 0)
    (hf : s.accessFault a = some c) (hm : isMsixPage (pageOf a) = false) :
    s.busRead path a = ⟨s.accErr path a false c, false, if c = 5 then 0 else 0xFFFFFFFF⟩ := by
  have e : a / 4 * 4 = a := by omega
  simp [busRead, hu, hr, readOnce, e, hf, hm]

/-- A whole-dword command on an open register: its writable fields, those of the mask `m`, take the written bits, its
actions act, and what follows the page follows. -/
theorem regCmd_open {m c : Word} (ho : Open s path a) (h4 : a % 4 = 0) (hk : offOf a / 0x400 = 0)
    (hm : isMsixPage (pageOf a) = false) (hl : lifeDenied path a 0 v = false) (he : (fieldsAt a).isEmpty = false)
    (hb : (pageOf a == 1 && (mbInput (offOf a)).any s.mbBusy) = false) (hs : setOnly a = false)
    (hw : fieldBits (· == .rw) a ||| s.softBits a ||| fieldBits (· == .rwl) a = m) (hc : fieldBits (· == .cmd) a = c) :
    s.regCmd path a v
      = (s.regEffect path a (s.cur a) ((s.cur a &&& ~~~m) ||| (v &&& m)) (v &&& c) true).afterWrite (pageOf a) := by
  obtain ⟨hu, hr, hf, hp⟩ := ho
  have e : beMask 15 = 0xFFFFFFFF#32 := by decide
  have em : m &&& 0xFFFFFFFF#32 = m := by
    have : (0xFFFFFFFF#32) = BitVec.allOnes 32 := by decide
    rw [this, BitVec.and_allOnes]
  unfold regCmd writeAt
  rw [busWrite_open hu hr hf h4 hk hm hl, regWrite_whole he hb hp hs, hw, hc, e, em]

end State
end Sys2Proof.Machine
end

