-- ==== Sys2Proof/Laws/Settle.lean ====
section
/-! SUPPORT. What follows a command, when nothing waits for it: the ladders rest, and only the HEALTH page, the list of
recoveries and the log queue can change. -/

namespace Sys2Proof.Machine
namespace State
open Sys2Proof.Safety

variable {s : State}

theorem foldl_id {β : Type} (f : State → β → State) (l : List β) (h : ∀ b ∈ l, f s b = s) : l.foldl f s = s := by
  induction l with
  | nil => rfl
  | cons b l ih =>
    rw [List.foldl_cons, h b (by simp)]
    exact ih fun c hc => h c (by simp [hc])

theorem settle_calm (h : Calm s) :
    s.settle = s.settleRecs.countOutage.showHealth
      (s.settleRecs.countOutage.spare.conds ||| s.settleRecs.countOutage.healthConds) false := by
  obtain ⟨h1, h2, h3, h4⟩ := h
  have e1 : runHanded 64 s = s := by simp [runHanded, h1]
  have e2 : s.finishRetirements = s := by simp [finishRetirements, h3]
  have e3 : (List.range 36).foldl (fun (t : State) e => t.engRetire e) s = s := by
    apply foldl_id
    intro e he
    simp [engRetire, h4 e (List.mem_range.mp he)]
  unfold settle
  simp only [e1, h2, List.foldl_nil, e2, e3]

theorem syncRecs_same {α : Type} (g : State → α) (hr : ∀ (t : State) b v, pageOf b = 0x014 → g (t.wr b v) = g t) :
    g s.syncRecs = g s := by
  unfold syncRecs
  simp only [flag, put]
  rw [hr, hr, hr, hr] <;> decide

theorem settleRecs_same {α : Type} (g : State → α) (hr : ∀ (t : State) b v, pageOf b = 0x014 → g (t.wr b v) = g t)
    (hs : ∀ (t : State) x, g { t with spare := x } = g t) : g s.settleRecs = g s := by
  unfold settleRecs
  rw [syncRecs_same g hr, hs]

theorem countOutage_same {α : Type} (g : State → α) (hr : ∀ (t : State) b v, pageOf b = 0x014 → g (t.wr b v) = g t)
    (hs : ∀ (t : State) x, g { t with spare := x } = g t) (hc : ∀ (t : State) b n, g (t.counted b n) = g t) :
    g s.countOutage = g s := by
  have hi : ∀ (t : State) b, pageOf b = 0x014 → g (t.inc b) = g t := by
    intro t b hb; unfold inc; simp only [Nat.one_ne_zero, if_false]; rw [hc, hr _ _ _ hb]
  have hi64 : ∀ (t : State) b n, pageOf b = 0x014 → pageOf (b + 4) = 0x014 → g (t.inc64 b n) = g t := by
    intro t b n hb hb'; unfold inc64; split
    · rfl
    · rw [hc]; unfold wr64; rw [hr _ _ _ hb', hr _ _ _ hb]
  unfold countOutage
  split
  · dsimp only
    split
    · rw [hs]
    · rw [hr _ _ _ (by decide), hi _ _ (by decide), hi64 _ _ _ (by decide) (by decide), hs, hs]
  · split
    · rw [hs]
    · rfl

theorem showHealth_same {α : Type} (g : State → α) (n : Nat) (b : Bool)
    (hr : ∀ (t : State) b v, pageOf b = 0x014 → g (t.wr b v) = g t)
    (hs : ∀ (t : State) x, g { t with spare := x } = g t) (hc : ∀ (t : State) b n, g (t.counted b n) = g t)
    (hl : ∀ (t : State) l, g { t with mgmt := { t.mgmt with logQ := l } } = g t) :
    g (s.showHealth n b) = g s := by
  have hi : ∀ (t : State) b, pageOf b = 0x014 → g (t.inc b) = g t := by
    intro t b hb; unfold inc; simp only [Nat.one_ne_zero, if_false]; rw [hc, hr _ _ _ hb]
  unfold showHealth
  dsimp only
  generalize (if b then _ else _) = new
  split
  · simp only [flag, put]; rw [hr _ _ _ (by decide), hr _ _ _ (by decide), hs]
  · unfold logNote logItem
    rw [hl, hi _ _ (by decide)]
    simp only [flag, put]
    rw [hr _ _ _ (by decide), hr _ _ _ (by decide), hr _ _ _ (by decide), hs]

/-- What every HEALTH register, the sparing state, counters and the log queue have no part in, `settle` leaves alone in a
calm state. -/
theorem settle_same {α : Type} (g : State → α) (h : Calm s)
    (hr : ∀ (t : State) b v, pageOf b = 0x014 → g (t.wr b v) = g t)
    (hs : ∀ (t : State) x, g { t with spare := x } = g t) (hc : ∀ (t : State) b n, g (t.counted b n) = g t)
    (hl : ∀ (t : State) l, g { t with mgmt := { t.mgmt with logQ := l } } = g t) : g s.settle = g s := by
  rw [settle_calm h, showHealth_same g _ _ hr hs hc hl, countOutage_same g hr hs hc, settleRecs_same g hr hs]

/-- In a calm state `settle` leaves every register outside the HEALTH page alone. -/
theorem settle_rd (h : Calm s) (b : Nat) (hb : pageOf b ≠ 0x014) : s.settle.rd b = s.rd b := by
  apply settle_same (fun t => t.rd b) h
  · intro t c v hc
    refine rd_wr_other _ _ _ _ ?_
    intro e; subst e; exact hb hc
  · intro t x; rfl
  · intro t c n; simp
  · intro t l; rfl


theorem settle_pending (h : Calm s) : s.settle.pending = s.pending :=
  settle_same (·.pending) h (fun _ _ _ _ => rfl) (fun _ _ => rfl) (fun _ _ _ => by simp) (fun _ _ => rfl)
theorem settle_free (h : Calm s) : s.settle.free = s.free :=
  settle_same (·.free) h (fun _ _ _ _ => rfl) (fun _ _ => rfl) (fun _ _ _ => by simp) (fun _ _ => rfl)
theorem settle_ts (h : Calm s) : s.settle.ts = s.ts :=
  settle_same (·.ts) h (fun _ _ _ _ => rfl) (fun _ _ => rfl) (fun _ _ _ => by simp) (fun _ _ => rfl)
theorem settle_shadows (h : Calm s) : s.settle.shadows = s.shadows :=
  settle_same (·.shadows) h (fun _ _ _ _ => rfl) (fun _ _ => rfl) (fun _ _ _ => by simp) (fun _ _ => rfl)
theorem settle_pairLow (h : Calm s) : s.settle.pairLow = s.pairLow :=
  settle_same (·.pairLow) h (fun _ _ _ _ => rfl) (fun _ _ => rfl) (fun _ _ _ => by simp) (fun _ _ => rfl)
theorem settle_clk (h : Calm s) : s.settle.clk = s.clk :=
  settle_same (·.clk) h (fun _ _ _ _ => rfl) (fun _ _ => rfl) (fun _ _ _ => by simp) (fun _ _ => rfl)
theorem settle_link (h : Calm s) : s.settle.link = s.link :=
  settle_same (·.link) h (fun _ _ _ _ => rfl) (fun _ _ => rfl) (fun _ _ _ => by simp) (fun _ _ => rfl)
theorem settle_xact (h : Calm s) : s.settle.xact = s.xact :=
  settle_same (·.xact) h (fun _ _ _ _ => rfl) (fun _ _ => rfl) (fun _ _ _ => by simp) (fun _ _ => rfl)
theorem settle_bridle (h : Calm s) : s.settle.bridle = s.bridle :=
  settle_same (·.bridle) h (fun _ _ _ _ => rfl) (fun _ _ => rfl) (fun _ _ _ => by simp) (fun _ _ => rfl)
theorem settle_place (h : Calm s) : s.settle.place = s.place :=
  settle_same (·.place) h (fun _ _ _ _ => rfl) (fun _ _ => rfl) (fun _ _ _ => by simp) (fun _ _ => rfl)
theorem settle_wdb (h : Calm s) : s.settle.wdb = s.wdb :=
  settle_same (·.wdb) h (fun _ _ _ _ => rfl) (fun _ _ => rfl) (fun _ _ _ => by simp) (fun _ _ => rfl)
theorem settle_cache (h : Calm s) : s.settle.cache = s.cache :=
  settle_same (·.cache) h (fun _ _ _ _ => rfl) (fun _ _ => rfl) (fun _ _ _ => by simp) (fun _ _ => rfl)
theorem settle_dram (h : Calm s) : s.settle.dram = s.dram :=
  settle_same (·.dram) h (fun _ _ _ _ => rfl) (fun _ _ => rfl) (fun _ _ _ => by simp) (fun _ _ => rfl)
theorem settle_ch (h : Calm s) : s.settle.ch = s.ch :=
  settle_same (·.ch) h (fun _ _ _ _ => rfl) (fun _ _ => rfl) (fun _ _ _ => by simp) (fun _ _ => rfl)
theorem settle_therm (h : Calm s) : s.settle.therm = s.therm :=
  settle_same (·.therm) h (fun _ _ _ _ => rfl) (fun _ _ => rfl) (fun _ _ _ => by simp) (fun _ _ => rfl)
theorem settle_eng (h : Calm s) : s.settle.eng = s.eng :=
  settle_same (·.eng) h (fun _ _ _ _ => rfl) (fun _ _ => rfl) (fun _ _ _ => by simp) (fun _ _ => rfl)
theorem settle_otp (h : Calm s) : s.settle.otp = s.otp :=
  settle_same (·.otp) h (fun _ _ _ _ => rfl) (fun _ _ => rfl) (fun _ _ _ => by simp) (fun _ _ => rfl)
theorem settle_sec (h : Calm s) : s.settle.sec = s.sec :=
  settle_same (·.sec) h (fun _ _ _ _ => rfl) (fun _ _ => rfl) (fun _ _ _ => by simp) (fun _ _ => rfl)
theorem settle_bist (h : Calm s) : s.settle.bist = s.bist :=
  settle_same (·.bist) h (fun _ _ _ _ => rfl) (fun _ _ => rfl) (fun _ _ _ => by simp) (fun _ _ => rfl)
theorem settle_cal (h : Calm s) : s.settle.cal = s.cal :=
  settle_same (·.cal) h (fun _ _ _ _ => rfl) (fun _ _ => rfl) (fun _ _ _ => by simp) (fun _ _ => rfl)
theorem settle_fcol_recs (h : Calm s) : s.settle.fcol.recs = s.fcol.recs :=
  settle_same (·.fcol.recs) h (fun _ _ _ _ => rfl) (fun _ _ => rfl) (fun _ _ _ => by simp) (fun _ _ => rfl)
theorem settle_fcol_react (h : Calm s) : s.settle.fcol.react = s.fcol.react :=
  settle_same (·.fcol.react) h (fun _ _ _ _ => rfl) (fun _ _ => rfl) (fun _ _ _ => by simp) (fun _ _ => rfl)
theorem settle_fcol_caps (h : Calm s) : s.settle.fcol.caps = s.fcol.caps :=
  settle_same (·.fcol.caps) h (fun _ _ _ _ => rfl) (fun _ _ => rfl) (fun _ _ _ => by simp) (fun _ _ => rfl)
theorem settle_fcol_leaks (h : Calm s) : s.settle.fcol.leaks = s.fcol.leaks :=
  settle_same (·.fcol.leaks) h (fun _ _ _ _ => rfl) (fun _ _ => rfl) (fun _ _ _ => by simp) (fun _ _ => rfl)
theorem settle_fcol_weights (h : Calm s) : s.settle.fcol.weights = s.fcol.weights :=
  settle_same (·.fcol.weights) h (fun _ _ _ _ => rfl) (fun _ _ => rfl) (fun _ _ _ => by simp) (fun _ _ => rfl)
theorem settle_fcol_levels (h : Calm s) : s.settle.fcol.levels = s.fcol.levels :=
  settle_same (·.fcol.levels) h (fun _ _ _ _ => rfl) (fun _ _ => rfl) (fun _ _ _ => by simp) (fun _ _ => rfl)
theorem settle_fcol_rows (h : Calm s) : s.settle.fcol.rows = s.fcol.rows :=
  settle_same (·.fcol.rows) h (fun _ _ _ _ => rfl) (fun _ _ => rfl) (fun _ _ _ => by simp) (fun _ _ => rfl)
theorem settle_fcol_seen (h : Calm s) : s.settle.fcol.seen = s.fcol.seen :=
  settle_same (·.fcol.seen) h (fun _ _ _ _ => rfl) (fun _ _ => rfl) (fun _ _ _ => by simp) (fun _ _ => rfl)
theorem settle_fcol_deliv (h : Calm s) : s.settle.fcol.deliv = s.fcol.deliv :=
  settle_same (·.fcol.deliv) h (fun _ _ _ _ => rfl) (fun _ _ => rfl) (fun _ _ _ => by simp) (fun _ _ => rfl)
theorem settle_fcol_retestQ (h : Calm s) : s.settle.fcol.retestQ = s.fcol.retestQ :=
  settle_same (·.fcol.retestQ) h (fun _ _ _ _ => rfl) (fun _ _ => rfl) (fun _ _ _ => by simp) (fun _ _ => rfl)
theorem settle_fcol_runScrub (h : Calm s) : s.settle.fcol.runScrub = s.fcol.runScrub :=
  settle_same (·.fcol.runScrub) h (fun _ _ _ _ => rfl) (fun _ _ => rfl) (fun _ _ _ => by simp) (fun _ _ => rfl)
theorem settle_fcol_runBist (h : Calm s) : s.settle.fcol.runBist = s.fcol.runBist :=
  settle_same (·.fcol.runBist) h (fun _ _ _ _ => rfl) (fun _ _ => rfl) (fun _ _ _ => by simp) (fun _ _ => rfl)
theorem settle_fcol_declared (h : Calm s) : s.settle.fcol.declared = s.fcol.declared :=
  settle_same (·.fcol.declared) h (fun _ _ _ _ => rfl) (fun _ _ => rfl) (fun _ _ _ => by simp) (fun _ _ => rfl)
theorem settle_fcol_handed (h : Calm s) : s.settle.fcol.handed = s.fcol.handed :=
  settle_same (·.fcol.handed) h (fun _ _ _ _ => rfl) (fun _ _ => rfl) (fun _ _ _ => by simp) (fun _ _ => rfl)
theorem settle_fcol_alertN (h : Calm s) : s.settle.fcol.alertN = s.fcol.alertN :=
  settle_same (·.fcol.alertN) h (fun _ _ _ _ => rfl) (fun _ _ => rfl) (fun _ _ _ => by simp) (fun _ _ => rfl)
theorem settle_fcol_resets (h : Calm s) : s.settle.fcol.resets = s.fcol.resets :=
  settle_same (·.fcol.resets) h (fun _ _ _ _ => rfl) (fun _ _ => rfl) (fun _ _ _ => by simp) (fun _ _ => rfl)
theorem settle_fcol_chipReset (h : Calm s) : s.settle.fcol.chipReset = s.fcol.chipReset :=
  settle_same (·.fcol.chipReset) h (fun _ _ _ _ => rfl) (fun _ _ => rfl) (fun _ _ _ => by simp) (fun _ _ => rfl)
theorem settle_mgmt_msix (h : Calm s) : s.settle.mgmt.msix = s.mgmt.msix :=
  settle_same (·.mgmt.msix) h (fun _ _ _ _ => rfl) (fun _ _ => rfl) (fun _ _ _ => by simp) (fun _ _ => rfl)
theorem settle_mgmt_pend (h : Calm s) : s.settle.mgmt.pend = s.mgmt.pend :=
  settle_same (·.mgmt.pend) h (fun _ _ _ _ => rfl) (fun _ _ => rfl) (fun _ _ _ => by simp) (fun _ _ => rfl)
theorem settle_mgmt_msixEn (h : Calm s) : s.settle.mgmt.msixEn = s.mgmt.msixEn :=
  settle_same (·.mgmt.msixEn) h (fun _ _ _ _ => rfl) (fun _ _ => rfl) (fun _ _ _ => by simp) (fun _ _ => rfl)
theorem settle_mgmt_funcMask (h : Calm s) : s.settle.mgmt.funcMask = s.mgmt.funcMask :=
  settle_same (·.mgmt.funcMask) h (fun _ _ _ _ => rfl) (fun _ _ => rfl) (fun _ _ _ => by simp) (fun _ _ => rfl)
theorem settle_mgmt_busMaster (h : Calm s) : s.settle.mgmt.busMaster = s.mgmt.busMaster :=
  settle_same (·.mgmt.busMaster) h (fun _ _ _ _ => rfl) (fun _ _ => rfl) (fun _ _ _ => by simp) (fun _ _ => rfl)
theorem settle_mgmt_memEn (h : Calm s) : s.settle.mgmt.memEn = s.mgmt.memEn :=
  settle_same (·.mgmt.memEn) h (fun _ _ _ _ => rfl) (fun _ _ => rfl) (fun _ _ _ => by simp) (fun _ _ => rfl)
theorem settle_mgmt_bars (h : Calm s) : s.settle.mgmt.bars = s.mgmt.bars :=
  settle_same (·.mgmt.bars) h (fun _ _ _ _ => rfl) (fun _ _ => rfl) (fun _ _ _ => by simp) (fun _ _ => rfl)
theorem settle_mgmt_flash (h : Calm s) : s.settle.mgmt.flash = s.mgmt.flash :=
  settle_same (·.mgmt.flash) h (fun _ _ _ _ => rfl) (fun _ _ => rfl) (fun _ _ _ => by simp) (fun _ _ => rfl)
theorem settle_mgmt_flashKiB (h : Calm s) : s.settle.mgmt.flashKiB = s.mgmt.flashKiB :=
  settle_same (·.mgmt.flashKiB) h (fun _ _ _ _ => rfl) (fun _ _ => rfl) (fun _ _ _ => by simp) (fun _ _ => rfl)
theorem settle_mgmt_readLeft (h : Calm s) : s.settle.mgmt.readLeft = s.mgmt.readLeft :=
  settle_same (·.mgmt.readLeft) h (fun _ _ _ _ => rfl) (fun _ _ => rfl) (fun _ _ _ => by simp) (fun _ _ => rfl)
theorem settle_mgmt_run (h : Calm s) : s.settle.mgmt.run = s.mgmt.run :=
  settle_same (·.mgmt.run) h (fun _ _ _ _ => rfl) (fun _ _ => rfl) (fun _ _ _ => by simp) (fun _ _ => rfl)
theorem settle_mgmt_order (h : Calm s) : s.settle.mgmt.order = s.mgmt.order :=
  settle_same (·.mgmt.order) h (fun _ _ _ _ => rfl) (fun _ _ => rfl) (fun _ _ _ => by simp) (fun _ _ => rfl)
theorem settle_mgmt_verified (h : Calm s) : s.settle.mgmt.verified = s.mgmt.verified :=
  settle_same (·.mgmt.verified) h (fun _ _ _ _ => rfl) (fun _ _ => rfl) (fun _ _ _ => by simp) (fun _ _ => rfl)
theorem settle_mgmt_nonce (h : Calm s) : s.settle.mgmt.nonce = s.mgmt.nonce :=
  settle_same (·.mgmt.nonce) h (fun _ _ _ _ => rfl) (fun _ _ => rfl) (fun _ _ _ => by simp) (fun _ _ => rfl)
theorem settle_mgmt_logSeq (h : Calm s) : s.settle.mgmt.logSeq = s.mgmt.logSeq :=
  settle_same (·.mgmt.logSeq) h (fun _ _ _ _ => rfl) (fun _ _ => rfl) (fun _ _ _ => by simp) (fun _ _ => rfl)
theorem settle_mgmt_mirSeq (h : Calm s) : s.settle.mgmt.mirSeq = s.mgmt.mirSeq :=
  settle_same (·.mgmt.mirSeq) h (fun _ _ _ _ => rfl) (fun _ _ => rfl) (fun _ _ _ => by simp) (fun _ _ => rfl)
theorem settle_mgmt_mirHalf (h : Calm s) : s.settle.mgmt.mirHalf = s.mgmt.mirHalf :=
  settle_same (·.mgmt.mirHalf) h (fun _ _ _ _ => rfl) (fun _ _ => rfl) (fun _ _ _ => by simp) (fun _ _ => rfl)
theorem settle_mgmt_mirUsed (h : Calm s) : s.settle.mgmt.mirUsed = s.mgmt.mirUsed :=
  settle_same (·.mgmt.mirUsed) h (fun _ _ _ _ => rfl) (fun _ _ => rfl) (fun _ _ _ => by simp) (fun _ _ => rfl)
theorem settle_mgmt_wren (h : Calm s) : s.settle.mgmt.wren = s.mgmt.wren :=
  settle_same (·.mgmt.wren) h (fun _ _ _ _ => rfl) (fun _ _ => rfl) (fun _ _ _ => by simp) (fun _ _ => rfl)
theorem settle_mgmt_fwVersion (h : Calm s) : s.settle.mgmt.fwVersion = s.mgmt.fwVersion :=
  settle_same (·.mgmt.fwVersion) h (fun _ _ _ _ => rfl) (fun _ _ => rfl) (fun _ _ _ => by simp) (fun _ _ => rfl)
theorem settle_mgmt_out (h : Calm s) : s.settle.mgmt.out = s.mgmt.out :=
  settle_same (·.mgmt.out) h (fun _ _ _ _ => rfl) (fun _ _ => rfl) (fun _ _ _ => by simp) (fun _ _ => rfl)
theorem settle_mgmt_cpl (h : Calm s) : s.settle.mgmt.cpl = s.mgmt.cpl :=
  settle_same (·.mgmt.cpl) h (fun _ _ _ _ => rfl) (fun _ _ => rfl) (fun _ _ _ => by simp) (fun _ _ => rfl)

/-! ### The other reactions at rest -/

theorem refCheck_onXo (hx : s.xoOk = true) (hr : s.refSrc = 1) : s.refCheck = s := by
  simp [refCheck, refSource, hx, hr]

theorem raiseLink_quiet (h : s.link.raised = []) : s.raiseLink = s := by
  unfold raiseLink
  rw [h, List.foldl_nil]
  cases s with
  | mk => rename_i l _ _ _ _ _ _ _ _ _ _ _ _ _ _ _; cases l; cases h; rfl

theorem afterLink_onXo (h : OnXo s) : s.afterLink = s.settle := by
  obtain ⟨hx, hr, hb, hf, h0⟩ := h
  have e2 : s.lanesBack = s := by simp [lanesBack, hf]
  have e3 : s.linkReady = s := by simp [linkReady, hb]
  simp [afterLink, raiseLink_quiet h0, refCheck_onXo hx hr, e2, e3]

theorem afterUnit_noTest (h : NoTest s) : s.afterUnit = s.settle := by
  obtain ⟨h1, h2⟩ := h
  have e1 : s.sliceFence = s := by simp [sliceFence, h1]
  have e2 : s.sliceNext = s := by simp [sliceNext, h1, h2]
  simp [afterUnit, e1, e2]

end State
end Sys2Proof.Machine
end

