-- ==== Sys2Proof/Laws/Frame.lean ====
section
/-! SUPPORT. Frames: what the operations that only write registers leave alone, and how frames compose. -/

namespace Sys2Proof.Safety
open Sys2Proof.Machine Sys2Proof.Machine.State

variable {s t u : State} {pages addrs : List Nat} {a : Nat}

theorem MemKept.refl (s : State) : MemKept s s := ⟨rfl, rfl, rfl, rfl, rfl, rfl⟩

theorem MemKept.trans (h : MemKept s t) (k : MemKept t u) : MemKept s u := by
  obtain ⟨a1, a2, a3, a4, a5, a6⟩ := h
  obtain ⟨b1, b2, b3, b4, b5, b6⟩ := k
  exact ⟨b1.trans a1, b2.trans a2, b3.trans a3, b4.trans a4, b5.trans a5, b6.trans a6⟩

theorem RegsKept.refl (s : State) : RegsKept s s pages addrs := fun _ _ _ => rfl

theorem RegsKept.trans (h : RegsKept s t pages addrs) (k : RegsKept t u pages addrs) : RegsKept s u pages addrs :=
  fun a hp ha => (k a hp ha).trans (h a hp ha)

/-- A write of a listed register keeps the others. -/
theorem RegsKept.wr (h : RegsKept s t pages addrs) (v : Word) (ha : a ∈ addrs ∨ pageOf a ∈ pages) :
    RegsKept s (t.wr a v) pages addrs := by
  intro b hp hb
  have : b ≠ a := by
    intro e; subst e
    cases ha with
    | inl x => exact hb x
    | inr x => exact hp x
  rw [rd_wr_other _ _ _ _ this]
  exact h b hp hb

theorem RegsKept.put (h : RegsKept s t pages addrs) (f : Fld) (n : Nat) (ha : a ∈ addrs ∨ pageOf a ∈ pages) :
    RegsKept s (t.put a f n) pages addrs := h.wr _ ha

theorem RegsKept.flag (h : RegsKept s t pages addrs) (f : Fld) (b : Bool) (ha : a ∈ addrs ∨ pageOf a ∈ pages) :
    RegsKept s (t.flag a f b) pages addrs := h.wr _ ha

theorem RegsKept.setBit (h : RegsKept s t pages addrs) (f : Fld) (i : Nat) (b : Bool)
    (ha : a ∈ addrs ∨ pageOf a ∈ pages) : RegsKept s (t.setBit a f i b) pages addrs := h.wr _ ha

theorem MemKept.foldl {β : Type} (f : State → β → State) (l : List β) (h : ∀ t b, MemKept t (f t b)) :
    MemKept s (l.foldl f s) := by
  induction l generalizing s with
  | nil => exact .refl s
  | cons b l ih => exact (h s b).trans ih

theorem RegsKept.foldl {β : Type} (f : State → β → State) (l : List β)
    (h : ∀ t, ∀ b ∈ l, RegsKept t (f t b) pages addrs) : RegsKept s (l.foldl f s) pages addrs := by
  induction l generalizing s with
  | nil => exact .refl s
  | cons b l ih => exact (h s b (by simp)).trans (ih fun t c hc => h t c (by simp [hc]))

theorem MemKept.settle (h : Calm s) : MemKept s s.settle :=
  ⟨settle_dram h, settle_cache h, settle_wdb h, settle_place h, settle_otp h, settle_mgmt_flash h⟩

theorem RegsKept.settle (h : Calm s) (hp : 0x014 ∈ pages) : RegsKept s s.settle pages addrs := by
  intro b hb _
  refine settle_rd h b ?_
  intro e; rw [e] at hb; exact hb hp

/-- A state with the same fault collector, sparing state and placement as a calm one is calm. -/
theorem Calm.same (h : Calm s) (hf : t.fcol = s.fcol) (hs : t.spare = s.spare) (hp : t.place = s.place) : Calm t := by
  obtain ⟨h1, h2, h3, h4⟩ := h
  refine ⟨by rw [hf, h1], by rw [hs, h2], by rw [hp, h3], fun e he => ?_⟩
  have := h4 e he
  simpa [declared, hf] using this

/-- `OnXo` rests on two registers, the mark of a fresh training and the events that the lanes have raised. -/
theorem OnXo.same (h : OnXo s) (h1 : t.rd R.CLK_CLK_STAT = s.rd R.CLK_CLK_STAT)
    (h2 : t.rd R.CLK_BOOT_STAT = s.rd R.CLK_BOOT_STAT) (h3 : t.link.fresh = s.link.fresh)
    (h4 : t.link.raised = s.link.raised) : OnXo t := by
  obtain ⟨a1, a2, a3, a4, a5⟩ := h
  refine ⟨?_, ?_, ?_, by rw [h3, a4], by rw [h4, a5]⟩
  · unfold xoOk on fld at a1 ⊢
    rw [h1]
    exact a1
  · rw [← a2]; simp [refSrc, fld, h1]
  · intro e; apply a3; rw [← e]; simp [bootStep, fld, h2]

end Sys2Proof.Safety
end

