-- ==== Sys2Proof/Laws/Keeps.lean ====
section
/-! SUPPORT. `Keeps s t`: what every operation of the stack leaves of a state. The queue of commands is untouched, the
bytes of DRAM, the register file and the OTP array keep their canonical form, no stored OTP bit clears (R369), and no
free value is taken twice. One lemma per operation says that it keeps this; the files beside this one hold them. -/

namespace Sys2Proof.Machine

/-- What `t` keeps of `s`. -/
structure Keeps (s t : State) : Prop where
  pending : t.pending = s.pending
  free : s.free ≤ t.free
  regs : SMap.wf regReset s.regs = true → SMap.wf regReset t.regs = true
  dram : SMap.wf dramDefault s.dram = true → SMap.wf dramDefault t.dram = true
  otpWf : SMap.wf (fun _ => 0) s.otp.array = true → SMap.wf (fun _ => 0) t.otp.array = true
  otp : ∀ w i, (SMap.get (fun _ => 0) s.otp.array w).getLsbD i = true →
    (SMap.get (fun _ => 0) t.otp.array w).getLsbD i = true

namespace Keeps

variable {z s t u : State}

theorem refl (s : State) : Keeps s s := ⟨rfl, Nat.le_refl _, id, id, id, fun _ _ h => h⟩

theorem trans (h : Keeps s t) (k : Keeps t u) : Keeps s u :=
  ⟨k.pending.trans h.pending, Nat.le_trans h.free k.free, k.regs ∘ h.regs, k.dram ∘ h.dram, k.otpWf ∘ h.otpWf,
    fun w i b => k.otp w i (h.otp w i b)⟩

/-- A change of other parts of the state. -/
theorem same (h : Keeps z s) (h1 : t.pending = s.pending) (h2 : t.free = s.free) (h3 : t.regs = s.regs)
    (h4 : t.dram = s.dram) (h5 : t.otp.array = s.otp.array) : Keeps z t :=
  h.trans ⟨h1, Nat.le_of_eq h2.symm, h3 ▸ id, h4 ▸ id, h5 ▸ id, h5 ▸ fun _ _ b => b⟩

/-- A state written out from another. -/
theorem mk_iff {ts shadows pairLow clk fcol perf link xact bridle place wdb cache ch therm eng spare sec bist cal mgmt} :
    Keeps z (State.mk s.pending s.free ts s.regs shadows pairLow clk fcol perf link xact bridle place wdb cache s.dram ch
      therm eng spare s.otp sec bist cal mgmt) ↔ Keeps z s :=
  ⟨fun h => h.same rfl rfl rfl rfl rfl, fun h => h.same rfl rfl rfl rfl rfl⟩

/-- A state written out from another, with other parts of the OTP controller. -/
theorem mk_iff_otp {ts shadows pairLow clk fcol perf link xact bridle place wdb cache ch therm eng spare sec bist cal mgmt}
    {o1 o2 o3 o4 o5 o6 o7 o8 o9 o10 o11} :
    Keeps z (State.mk s.pending s.free ts s.regs shadows pairLow clk fcol perf link xact bridle place wdb cache s.dram ch
      therm eng spare (OtpState.mk s.otp.array o1 o2 o3 o4 o5 o6 o7 o8 o9 o10 o11) sec bist cal mgmt) ↔ Keeps z s :=
  ⟨fun h => h.same rfl rfl rfl rfl rfl, fun h => h.same rfl rfl rfl rfl rfl⟩

theorem ite {c : Prop} [Decidable c] {x y : State} (h : Keeps z x) (k : Keeps z y) : Keeps z (if c then x else y) := by
  split
  · exact h
  · exact k

theorem foldl {β : Type} (f : State → β → State) (l : List β) (h : Keeps z s) (hf : ∀ t b, Keeps z t → Keeps z (f t b)) :
    Keeps z (l.foldl f s) := by
  induction l generalizing s with
  | nil => exact h
  | cons b l ih => exact ih (hf _ _ h)

theorem foldlSnd {α β : Type} (f : α × State → β → α × State) (l : List β) {x : α × State} (h : Keeps z x.2)
    (hf : ∀ y b, Keeps z y.2 → Keeps z (f y b).2) : Keeps z (l.foldl f x).2 := by
  induction l generalizing x with
  | nil => exact h
  | cons b l ih => exact ih (hf _ _ h)

theorem foldlFst {α β : Type} (f : State × α → β → State × α) (l : List β) {x : State × α} (h : Keeps z x.1)
    (hf : ∀ y b, Keeps z y.1 → Keeps z (f y b).1) : Keeps z (l.foldl f x).1 := by
  induction l generalizing x with
  | nil => exact h
  | cons b l ih => exact ih (hf _ _ h)

/-- A change of the registers that keeps their canonical form. -/
theorem setRegs {r : SMap Word} (h : Keeps z s) (hr : SMap.wf regReset s.regs = true → SMap.wf regReset r = true) :
    Keeps z { s with regs := r } :=
  h.trans ⟨rfl, Nat.le_refl _, hr, id, id, fun _ _ b => b⟩

/-- A change of the DRAM bytes that keeps their canonical form. -/
theorem setDram {r : SMap Byte} (h : Keeps z s) (hr : SMap.wf dramDefault s.dram = true → SMap.wf dramDefault r = true) :
    Keeps z { s with dram := r } :=
  h.trans ⟨rfl, Nat.le_refl _, id, hr, id, fun _ _ b => b⟩

/-- Free values taken. -/
theorem takeFree (n : Nat) (h : Keeps z s) : Keeps z { s with free := s.free + n } :=
  h.trans ⟨rfl, Nat.le_add_right _ _, id, id, id, fun _ _ b => b⟩

end Keeps

namespace State

variable {z s : State}

theorem wr_keeps (a : Nat) (v : Word) (h : Keeps z s) : Keeps z (s.wr a v) := h.setRegs (Sys2Proof.Laws.SMap.wf_set _ _ _ _)

end State
end Sys2Proof.Machine
end

