-- ==== Sys2Proof/Laws/KeepsOps.lean ====
section
/-! SUPPORT. What every operation of the stack keeps: the named operations, the storage, the table and the lines. -/

namespace Sys2Proof.Machine

namespace State

theorem put_keeps {z : State} (s : State) (a : Nat) (f : Fld) (n : Nat) (hz : Keeps z s) : Keeps z (put s a f n) := by
  unfold put
  repeat' first
    | with_reducible assumption | with_reducible apply wr_keeps | dsimp only

theorem flag_keeps {z : State} (s : State) (a : Nat) (f : Fld) (b : Bool) (hz : Keeps z s) :
    Keeps z (flag s a f b) := by
  unfold flag
  repeat' first
    | with_reducible assumption | with_reducible apply put_keeps | dsimp only

theorem setBit_keeps {z : State} (s : State) (a : Nat) (f : Fld) (i : Nat) (b : Bool) (hz : Keeps z s) :
    Keeps z (setBit s a f i b) := by
  unfold setBit
  repeat' first
    | with_reducible assumption | with_reducible apply put_keeps | with_reducible refine Keeps.ite ?_ ?_ | dsimp only
    | split

theorem perfAdd_keeps {z : State} (s : State) (k n : Nat) (hz : Keeps z s) : Keeps z (perfAdd s k n) := by
  unfold perfAdd
  repeat' first
    | with_reducible assumption | simp only [↓Keeps.mk_iff] | intro _ _ | dsimp only

theorem perfEvent_keeps {z : State} (s : State) (pg : Nat) (p : Word → Bool) (n : Nat) (hz : Keeps z s) :
    Keeps z (perfEvent s pg p n) := by
  unfold perfEvent
  repeat' first
    | with_reducible assumption | with_reducible apply perfAdd_keeps | with_reducible refine Keeps.ite ?_ ?_
    | with_reducible refine Keeps.foldl _ _ ?_ ?_ | intro _ _ _ | intro _ _ | dsimp only | split

theorem counted_keeps {z : State} (s : State) (a n : Nat) (hz : Keeps z s) : Keeps z (counted s a n) := by
  unfold counted
  repeat' first
    | with_reducible assumption | with_reducible apply perfEvent_keeps | simp only [↓Keeps.mk_iff] | intro _ _
    | dsimp only

theorem inc_keeps {z : State} (s : State) (a : Nat) (n : Nat) (hz : Keeps z s) : Keeps z (inc s a n) := by
  unfold inc
  repeat' first
    | with_reducible assumption | with_reducible apply wr_keeps | with_reducible apply counted_keeps
    | with_reducible refine Keeps.ite ?_ ?_ | dsimp only | split

theorem wr64_keeps {z : State} (s : State) (a : Nat) (v : Word64) (hz : Keeps z s) : Keeps z (wr64 s a v) := by
  unfold wr64
  repeat' first
    | with_reducible assumption | with_reducible apply wr_keeps | dsimp only

theorem inc64_keeps {z : State} (s : State) (a : Nat) (n : Nat) (hz : Keeps z s) : Keeps z (inc64 s a n) := by
  unfold inc64
  repeat' first
    | with_reducible assumption | with_reducible apply wr64_keeps | with_reducible apply counted_keeps
    | with_reducible refine Keeps.ite ?_ ?_ | dsimp only | split

theorem incSat_keeps {z : State} (s : State) (a : Nat) (f : Fld) (n : Nat) (hz : Keeps z s) :
    Keeps z (incSat s a f n) := by
  unfold incSat
  repeat' first
    | with_reducible assumption | with_reducible apply put_keeps | with_reducible apply counted_keeps
    | with_reducible refine Keeps.ite ?_ ?_ | dsimp only | split

theorem freeWord_keeps {z : State} (s : State) (hz : Keeps z s) : Keeps z (freeWord s).2 := by
  unfold freeWord
  repeat' first
    | with_reducible assumption | simp only [↓Keeps.mk_iff] | dsimp only | with_reducible refine Keeps.takeFree _ ?_

theorem deliver_keeps {z : State} (s : State) (d : Delivery) (hz : Keeps z s) : Keeps z (deliver s d) := by
  unfold deliver
  repeat' first
    | with_reducible assumption | simp only [↓Keeps.mk_iff] | with_reducible refine Keeps.ite ?_ ?_ | dsimp only
    | split

theorem report_keeps {z : State} (s : State) (kind : Nat) (resource : Word) (n : Nat) (access : Nat) (addr : Word64) (hz : Keeps z s) :
    Keeps z (report s kind resource n access addr) := by
  unfold report
  repeat' first
    | with_reducible assumption | with_reducible apply deliver_keeps | dsimp only

theorem clocked_keeps {z : State} (s : State) (f : State → State) (hz : Keeps z s) (hf : ∀ t, Keeps z t → Keeps z (f t)) :
    Keeps z (clocked s f) := Keeps.ite (hf _ hz) hz

theorem dramWrite_keeps {z : State} (s : State) (f o : Nat) (l : Line) (hz : Keeps z s) : Keeps z (dramWrite s f o l) :=
  hz.setDram (Sys2Proof.Laws.SMap.wf_setAll _ _ _)

theorem dramZero_keeps {z : State} (s : State) (f : Nat) (hz : Keeps z s) : Keeps z (dramZero s f) :=
  hz.setDram (Sys2Proof.Laws.SMap.wf_erase _ _ _)

theorem dramCopy_keeps {z : State} (s : State) (src dst o : Nat) (hz : Keeps z s) :
    Keeps z (dramCopy s src dst o) := by
  unfold dramCopy
  repeat' first
    | with_reducible assumption | with_reducible apply dramWrite_keeps | dsimp only

theorem setHeat_keeps {z : State} (s : State) (f h : Nat) (hz : Keeps z s) : Keeps z (setHeat s f h) := by
  unfold setHeat
  repeat' first
    | with_reducible assumption | simp only [↓Keeps.mk_iff] | intro _ _ | dsimp only

theorem setMirror_keeps {z : State} (s : State) (b ok : Bool) (hz : Keeps z s) : Keeps z (setMirror s b ok) := by
  unfold setMirror
  repeat' first
    | with_reducible assumption | with_reducible apply flag_keeps | with_reducible refine Keeps.ite ?_ ?_ | dsimp only
    | split

theorem journal_keeps {z : State} (s : State) (ty parcel frame flags : Nat) (hz : Keeps z s) :
    Keeps z (journal s ty parcel frame flags) := by
  unfold journal
  repeat' first
    | with_reducible assumption | with_reducible apply inc64_keeps | simp only [↓Keeps.mk_iff]
    | with_reducible refine Keeps.ite ?_ ?_ | intro _ _ | dsimp only | split

theorem updDeficit_keeps {z : State} (s : State) (hz : Keeps z s) : Keeps z (updDeficit s) := by
  unfold updDeficit
  repeat' first
    | with_reducible assumption | with_reducible apply put_keeps | with_reducible apply flag_keeps
    | simp only [↓Keeps.mk_iff] | with_reducible refine Keeps.ite ?_ ?_ | dsimp only | split

theorem tally_keeps {z : State} (s : State) (a : Nat) (f : Fld) (was is : Bool) (hz : Keeps z s) :
    Keeps z (tally s a f was is) := by
  unfold tally
  repeat' first
    | with_reducible assumption | with_reducible apply put_keeps | with_reducible refine Keeps.ite ?_ ?_ | dsimp only
    | split

theorem bumpBank_keeps {z : State} (s : State) (w : Word) (d : Int) (hz : Keeps z s) : Keeps z (bumpBank s w d) := by
  unfold bumpBank
  repeat' first
    | with_reducible assumption | simp only [↓Keeps.mk_iff] | with_reducible refine Keeps.ite ?_ ?_ | intro _ _
    | dsimp only | split

theorem tallyEntry_keeps {z : State} (s : State) (a b : Word) (hz : Keeps z s) : Keeps z (tallyEntry s a b) := by
  unfold tallyEntry
  repeat' first
    | with_reducible assumption | with_reducible apply tally_keeps | with_reducible apply bumpBank_keeps | dsimp only

theorem putEntry_keeps {z : State} (s : State) (n : Nat) (w : Word) (hz : Keeps z s) : Keeps z (putEntry s n w) := by
  unfold putEntry
  repeat' first
    | with_reducible assumption | with_reducible apply tallyEntry_keeps | with_reducible apply updDeficit_keeps
    | simp only [↓Keeps.mk_iff] | dsimp only

theorem setEntry_keeps {z : State} (s : State) (ty n : Nat) (w : Word) (hz : Keeps z s) :
    Keeps z (setEntry s ty n w) := by
  unfold setEntry
  repeat' first
    | with_reducible assumption | with_reducible apply journal_keeps | with_reducible apply putEntry_keeps
    | dsimp only

theorem tallyFrame_keeps {z : State} (t s : State) (f : Nat) (hz : Keeps z t) : Keeps z (tallyFrame t s f) := by
  unfold tallyFrame
  repeat' first
    | with_reducible assumption | with_reducible apply tally_keeps | with_reducible apply updDeficit_keeps
    | dsimp only

theorem setFlags_keeps {z : State} (s : State) (n : Nat) (m : Word) (hz : Keeps z s) : Keeps z (setFlags s n m) := by
  unfold setFlags
  repeat' first
    | with_reducible assumption | with_reducible apply setEntry_keeps | simp only [↓Keeps.mk_iff]
    | with_reducible refine Keeps.ite ?_ ?_ | intro _ _ | dsimp only | split

theorem setFrame_keeps {z : State} (s : State) (f code : Nat) (hz : Keeps z s) : Keeps z (setFrame s f code) := by
  unfold setFrame
  repeat' first
    | with_reducible assumption | with_reducible apply journal_keeps | with_reducible apply tallyFrame_keeps
    | simp only [↓Keeps.mk_iff] | dsimp only

theorem queueZero_keeps {z : State} (s : State) (f : Nat) (hz : Keeps z s) : Keeps z (queueZero s f) := by
  unfold queueZero
  repeat' first
    | with_reducible assumption | with_reducible apply setHeat_keeps | with_reducible apply tallyFrame_keeps
    | simp only [↓Keeps.mk_iff] | dsimp only

theorem dropCorr_keeps {z : State} (s : State) (f : Nat) (hz : Keeps z s) : Keeps z (dropCorr s f) := by
  unfold dropCorr
  repeat' first
    | with_reducible assumption | simp only [↓Keeps.mk_iff] | intro _ _ | dsimp only

theorem zeroDone_keeps {z : State} (s : State) (f : Nat) (hz : Keeps z s) : Keeps z (zeroDone s f) := by
  unfold zeroDone
  repeat' first
    | with_reducible assumption | with_reducible apply dropCorr_keeps | with_reducible apply dramZero_keeps
    | with_reducible apply tallyFrame_keeps | with_reducible apply setFrame_keeps | simp only [↓Keeps.mk_iff]
    | with_reducible refine Keeps.ite ?_ ?_ | dsimp only | split

theorem heatAccess_keeps {z : State} (s : State) (n : Nat) (hz : Keeps z s) : Keeps z (heatAccess s n) := by
  unfold heatAccess
  repeat' first
    | with_reducible assumption | with_reducible apply freeWord_keeps | with_reducible apply setHeat_keeps
    | with_reducible refine Keeps.ite ?_ ?_ | dsimp only | split

theorem keelMove_keeps {z : State} (s : State) (k : Nat) (f : Nat) (hz : Keeps z s) : Keeps z (keelMove s k f) := by
  unfold keelMove
  repeat' first
    | with_reducible assumption | with_reducible apply setFrame_keeps | with_reducible apply updDeficit_keeps
    | simp only [↓Keeps.mk_iff] | dsimp only

theorem keelRelocate_keeps {z : State} (s : State) (hz : Keeps z s) : Keeps z (keelRelocate s) := by
  unfold keelRelocate
  repeat' first
    | with_reducible assumption | with_reducible apply keelMove_keeps | with_reducible apply flag_keeps
    | with_reducible refine Keeps.foldl _ _ ?_ ?_ | intro _ _ _ | intro _ _ | dsimp only | split

theorem declareRetire_keeps {z : State} (s : State) (r : Word) (hz : Keeps z s) : Keeps z (declareRetire s r) := by
  unfold declareRetire
  repeat' first
    | with_reducible assumption | with_reducible apply put_keeps | with_reducible apply setFlags_keeps
    | with_reducible apply setMirror_keeps | with_reducible apply updDeficit_keeps
    | with_reducible apply keelRelocate_keeps | simp only [↓Keeps.mk_iff] | with_reducible refine Keeps.ite ?_ ?_
    | with_reducible refine Keeps.foldl _ _ ?_ ?_ | intro _ _ _ | intro _ _ | dsimp only | split

theorem retireFrames_keeps {z : State} (s : State) (r : Word) (hz : Keeps z s) : Keeps z (retireFrames s r) := by
  unfold retireFrames
  repeat' first
    | with_reducible assumption | with_reducible apply setFrame_keeps | with_reducible apply updDeficit_keeps
    | simp only [↓Keeps.mk_iff] | with_reducible refine Keeps.foldl _ _ ?_ ?_ | intro _ _ _ | intro _ _ | dsimp only

theorem layKeel_keeps {z : State} (s : State) (k : Nat) (hz : Keeps z s) : Keeps z (layKeel s k) := by
  unfold layKeel
  split
  · exact hz
  · cases hk : s.keelTarget k with
    | some f => exact hz.same rfl rfl rfl rfl rfl
    | none =>
      dsimp only
      generalize ((List.range s.parcels).reverse.find? fun f => s.frameCode f == 1 && (dieSet f == decide (4096 ≤ k))) = o
      cases o with
      | none => exact hz
      | some f => exact hz.same rfl rfl rfl rfl rfl

theorem layParcel_keeps {z : State} (wdr : List Word) (s : State) (n : Nat) (hz : Keeps z s) :
    Keeps z (layParcel wdr s n) := by
  unfold layParcel
  split
  · exact hz
  · split
    · exact hz.same rfl rfl rfl rfl rfl
    · generalize s.spareFor n = o
      cases o with
      | none => exact hz.same rfl rfl rfl rfl rfl
      | some f => exact hz.same rfl rfl rfl rfl rfl

theorem recount_keeps {z : State} (s : State) (hz : Keeps z s) : Keeps z (recount s) := by
  unfold recount
  repeat' first
    | with_reducible assumption | with_reducible apply put_keeps | with_reducible apply updDeficit_keeps
    | simp only [↓Keeps.mk_iff] | with_reducible refine Keeps.ite ?_ ?_ | with_reducible refine Keeps.foldl _ _ ?_ ?_
    | intro _ _ _ | intro _ _ | dsimp only | split

theorem layStat_keeps {z : State} (s : State) (retained : Bool) (hz : Keeps z s) : Keeps z (layStat s retained) := by
  unfold layStat
  repeat' first
    | with_reducible assumption | with_reducible apply flag_keeps | with_reducible apply put_keeps | dsimp only

theorem tableLayout_keeps {z : State} (s : State) (gone wdr : List Word) (hz : Keeps z s) :
    Keeps z (tableLayout s gone wdr) := by
  unfold tableLayout
  dsimp only
  apply layStat_keeps
  apply recount_keeps
  refine Keeps.foldl _ _ ?_ fun t n ht => layParcel_keeps wdr t n ht
  refine Keeps.foldl _ _ ?_ fun t k ht => layKeel_keeps t k ht
  apply setMirror_keeps
  apply setMirror_keeps
  exact (hz.setDram (r := []) fun _ => rfl).same rfl rfl rfl rfl rfl

theorem checkpoint_keeps {z : State} (s : State) (hz : Keeps z s) : Keeps z (checkpoint s) := by
  unfold checkpoint
  repeat' first
    | with_reducible assumption | with_reducible apply journal_keeps | with_reducible apply inc_keeps
    | simp only [↓Keeps.mk_iff] | with_reducible refine Keeps.ite ?_ ?_ | intro _ _ | dsimp only | split

theorem copyMirror_keeps {z : State} (s : State) (b : Bool) (hz : Keeps z s) : Keeps z (copyMirror s b) := by
  unfold copyMirror
  repeat' first
    | with_reducible assumption | with_reducible apply journal_keeps | simp only [↓Keeps.mk_iff] | intro _ _
    | dsimp only

theorem tableRestore_keeps {z : State} (s : State) (hz : Keeps z s) : Keeps z (tableRestore s) := by
  unfold tableRestore
  repeat' first
    | with_reducible assumption | with_reducible apply recount_keeps | with_reducible apply layStat_keeps
    | with_reducible apply flag_keeps | simp only [↓Keeps.mk_iff] | intro _ _ | dsimp only

theorem setPch_keeps {z : State} (s : State) (i : Nat) (p : PCh) (hz : Keeps z s) : Keeps z (setPch s i p) := by
  unfold setPch
  repeat' first
    | with_reducible assumption | simp only [↓Keeps.mk_iff] | intro _ _ | dsimp only

theorem setMig_keeps {z : State} (s : State) (k : Nat) (m : Option Mig) (hz : Keeps z s) :
    Keeps z (setMig s k m) := by
  unfold setMig
  repeat' first
    | with_reducible assumption | with_reducible apply put_keeps | simp only [↓Keeps.mk_iff] | intro _ _ | dsimp only

theorem markDirty_keeps {z : State} (s : State) (f o : Nat) (hz : Keeps z s) : Keeps z (markDirty s f o) := by
  unfold markDirty
  repeat' first
    | with_reducible assumption | with_reducible apply setMig_keeps | simp only [↓Keeps.mk_iff]
    | with_reducible refine Keeps.ite ?_ ?_ | intro _ _ | dsimp only | split

theorem wdbPut_keeps {z : State} (s : State) (li : Nat) (l : Line) (hz : Keeps z s) : Keeps z (wdbPut s li l) := by
  unfold wdbPut
  repeat' first
    | with_reducible assumption | simp only [↓Keeps.mk_iff] | with_reducible refine Keeps.ite ?_ ?_ | intro _ _
    | dsimp only | split

theorem wdbScan_keeps {z : State} (s : State) (li : Nat) (l : Line) (hz : Keeps z s) : Keeps z (wdbScan s li l) := by
  unfold wdbScan
  repeat' first
    | with_reducible assumption | simp only [↓Keeps.mk_iff] | with_reducible refine Keeps.ite ?_ ?_ | dsimp only
    | split

theorem wdbKeep_keeps {z : State} (s : State) (li : Nat) (l : Line) (hz : Keeps z s) : Keeps z (wdbKeep s li l) := by
  unfold wdbKeep
  repeat' first
    | with_reducible assumption | with_reducible apply wdbPut_keeps | with_reducible refine Keeps.ite ?_ ?_
    | dsimp only | split

theorem wdbDrop_keeps {z : State} (s : State) (n : Nat) (hz : Keeps z s) : Keeps z (wdbDrop s n) := by
  unfold wdbDrop
  repeat' first
    | with_reducible assumption | simp only [↓Keeps.mk_iff] | intro _ _ | dsimp only

theorem poisonNew_keeps {z : State} (s : State) (addr access : Nat) (hz : Keeps z s) :
    Keeps z (poisonNew s addr access) := by
  unfold poisonNew
  repeat' first
    | with_reducible assumption | with_reducible apply inc_keeps | with_reducible apply report_keeps | dsimp only

theorem recordStep_keeps {z : State} (s : State) (r : Word) (action arg : Nat) (hz : Keeps z s) :
    Keeps z (recordStep s r action arg) := by
  unfold recordStep
  repeat' first
    | with_reducible assumption | simp only [↓Keeps.mk_iff] | with_reducible refine Keeps.ite ?_ ?_ | dsimp only
    | split

end State

end Sys2Proof.Machine
end

