-- ==== Sys2Proof/Laws/KeepsDram.lean ====
section
/-! SUPPORT. What every operation of the stack keeps: the cache die and the channels. -/

namespace Sys2Proof.Machine

namespace State

theorem swapFlags_keeps {z : State} (s : State) (x : Nat × Nat) (b : Bool) (hz : Keeps z s) :
    Keeps z (swapFlags s x b) := by
  unfold swapFlags
  repeat' first
    | with_reducible assumption | with_reducible apply flag_keeps | dsimp only

theorem swapCancel_keeps {z : State} (s : State) (k : Nat) (hz : Keeps z s) : Keeps z (swapCancel s k) := by
  unfold swapCancel
  repeat' first
    | with_reducible assumption | with_reducible apply swapFlags_keeps | simp only [↓Keeps.mk_iff]
    | with_reducible refine Keeps.foldl _ _ ?_ ?_ | intro _ _ _ | intro _ _ | dsimp only

theorem setSpareUse_keeps {z : State} (s : State) (pc : Nat) (ca : Bool) (i v : Nat) (hz : Keeps z s) :
    Keeps z (setSpareUse s pc ca i v) := by
  unfold setSpareUse
  repeat' first
    | with_reducible assumption | with_reducible apply put_keeps | with_reducible refine Keeps.ite ?_ ?_ | dsimp only
    | split

theorem sendWrite_keeps {z : State} (s : State) (f o : Nat) (l : Line) (hz : Keeps z s) :
    Keeps z (sendWrite s f o l) := by
  unfold sendWrite
  repeat' first
    | with_reducible assumption | with_reducible apply setPch_keeps | simp only [↓Keeps.mk_iff] | dsimp only

theorem putWord_keeps {z : State} (s : State) (f o : Nat) (l : Line) (hz : Keeps z s) :
    Keeps z (putWord s f o l) := by
  unfold putWord
  repeat' first
    | with_reducible assumption | with_reducible apply setPch_keeps | with_reducible apply dramWrite_keeps
    | with_reducible apply markDirty_keeps | with_reducible apply inc64_keeps | simp only [↓Keeps.mk_iff]
    | with_reducible refine Keeps.ite ?_ ?_ | intro _ _ | dsimp only | split

theorem performQueued_keeps {z : State} (s : State) (r : DReq) (hz : Keeps z s) : Keeps z (performQueued s r) := by
  unfold performQueued
  repeat' first
    | with_reducible assumption | with_reducible apply setPch_keeps | with_reducible apply putWord_keeps
    | with_reducible apply inc64_keeps | simp only [↓Keeps.mk_iff] | with_reducible refine Keeps.ite ?_ ?_
    | dsimp only | split

theorem performAll_keeps {z : State} (s : State) (pc : Nat) (which : DReq → Bool) (hz : Keeps z s) :
    Keeps z (performAll s pc which) := by
  unfold performAll
  repeat' first
    | with_reducible assumption | with_reducible apply performQueued_keeps
    | with_reducible refine Keeps.foldl _ _ ?_ ?_ | intro _ _ _ | intro _ _ | dsimp only

theorem storeFrame_keeps {z : State} (s : State) (f o : Nat) (l : Line) (hz : Keeps z s) :
    Keeps z (storeFrame s f o l) := by
  unfold storeFrame
  repeat' first
    | with_reducible assumption | with_reducible apply performAll_keeps | with_reducible apply putWord_keeps
    | intro _ _ | dsimp only

theorem storeLine_keeps {z : State} (s : State) (li : Nat) (l : Line) (hz : Keeps z s) :
    Keeps z (storeLine s li l) := by
  unfold storeLine
  repeat' first
    | with_reducible assumption | with_reducible apply wdbKeep_keeps | with_reducible apply storeFrame_keeps
    | with_reducible refine Keeps.ite ?_ ?_ | dsimp only | split

theorem poisonWrite_keeps {z : State} (s : State) (f o : Nat) (l : Line) (hz : Keeps z s) :
    Keeps z (poisonWrite s f o l) := by
  unfold poisonWrite
  repeat' first
    | with_reducible assumption | with_reducible apply sendWrite_keeps | with_reducible apply putWord_keeps
    | with_reducible refine Keeps.ite ?_ ?_ | dsimp only | split

theorem countVias_keeps {z : State} (s : State) (pc : Nat) (bytes : List Nat) (d : Delivery) (hz : Keeps z s) :
    Keeps z (countVias s pc bytes d) := by
  unfold countVias
  repeat' first
    | with_reducible assumption | with_reducible apply incSat_keeps | with_reducible apply deliver_keeps
    | simp only [↓Keeps.mk_iff] | with_reducible refine Keeps.ite ?_ ?_ | with_reducible refine Keeps.foldl _ _ ?_ ?_
    | intro _ _ _ | intro _ _ | dsimp only | split

theorem queueCorrection_keeps {z : State} (s : State) (f o : Nat) (l : Line) (hz : Keeps z s) :
    Keeps z (queueCorrection s f o l) := by
  unfold queueCorrection
  repeat' first
    | with_reducible assumption | with_reducible apply setPch_keeps | simp only [↓Keeps.mk_iff]
    | with_reducible refine Keeps.ite ?_ ?_ | intro _ _ | dsimp only | split

theorem countOutcome_keeps {z : State} (s : State) (f o : Nat) (out : ReadOut) (d : Delivery) (hz : Keeps z s) :
    Keeps z (countOutcome s f o out d) := by
  unfold countOutcome
  repeat' first
    | with_reducible assumption | with_reducible apply inc_keeps | with_reducible apply incSat_keeps
    | with_reducible apply deliver_keeps | with_reducible apply countVias_keeps | simp only [↓Keeps.mk_iff]
    | with_reducible refine Keeps.ite ?_ ?_ | intro _ _ | dsimp only | split

theorem syncTraining_keeps {z : State} (s : State) (c : Nat) (hz : Keeps z s) : Keeps z (syncTraining s c) := by
  unfold syncTraining
  repeat' first
    | with_reducible assumption | with_reducible apply flag_keeps | dsimp only

theorem trainStart_keeps {z : State} (s : State) (c p : Nat) (hz : Keeps z s) : Keeps z (trainStart s c p) := by
  unfold trainStart
  repeat' first
    | with_reducible assumption | with_reducible apply setPch_keeps | with_reducible apply syncTraining_keeps
    | simp only [↓Keeps.mk_iff] | with_reducible refine Keeps.ite ?_ ?_ | dsimp only | split

theorem tempTrain_keeps {z : State} (s : State) (hz : Keeps z s) : Keeps z (tempTrain s) := by
  unfold tempTrain
  repeat' first
    | with_reducible assumption | with_reducible apply trainStart_keeps | with_reducible refine Keeps.ite ?_ ?_
    | with_reducible refine Keeps.foldl _ _ ?_ ?_ | intro _ _ _ | intro _ _ | dsimp only | split

theorem addrTraining_keeps {z : State} (s : State) (pc : Nat) (hz : Keeps z s) : Keeps z (addrTraining s pc) := by
  unfold addrTraining
  repeat' first
    | with_reducible assumption | with_reducible apply trainStart_keeps | with_reducible refine Keeps.ite ?_ ?_
    | dsimp only | split

theorem readWord_keeps {z : State} (s : State) (m : LookupIn) (f o access : Nat) (addr : Nat) (hz : Keeps z s) :
    Keeps z (readWord s m f o access addr).2 := by
  unfold readWord
  repeat' first
    | with_reducible assumption | with_reducible apply countOutcome_keeps | with_reducible apply inc64_keeps
    | with_reducible apply addrTraining_keeps | simp only [↓Keeps.mk_iff] | with_reducible refine Keeps.ite ?_ ?_
    | intro _ _ | dsimp only | split

theorem fetchFrame_keeps {z : State} (s : State) (m : LookupIn) (f o li access : Nat) (hz : Keeps z s) :
    Keeps z (fetchFrame s m f o li access).2 := by
  unfold fetchFrame
  repeat' first
    | with_reducible assumption | with_reducible apply inc_keeps | with_reducible apply readWord_keeps
    | with_reducible apply poisonWrite_keeps | with_reducible apply poisonNew_keeps
    | with_reducible apply queueCorrection_keeps | with_reducible refine Keeps.ite ?_ ?_ | dsimp only | split

theorem fetchHome_keeps {z : State} (s : State) (m : LookupIn) (li access : Nat) (hz : Keeps z s) :
    Keeps z (fetchHome s m li access).2 := by
  unfold fetchHome
  repeat' first
    | with_reducible assumption | with_reducible apply fetchFrame_keeps | with_reducible refine Keeps.ite ?_ ?_
    | dsimp only | split

theorem setTag_keeps {z : State} (s : State) (k : Nat) (t : BitVec 25) (hz : Keeps z s) : Keeps z (setTag s k t) := by
  unfold setTag
  repeat' first
    | with_reducible assumption | with_reducible apply put_keeps | simp only [↓Keeps.mk_iff]
    | with_reducible refine Keeps.ite ?_ ?_ | intro _ _ | dsimp only | split

theorem setData_keeps {z : State} (s : State) (k i : Nat) (l : Line) (hz : Keeps z s) :
    Keeps z (setData s k i l) := by
  unfold setData
  repeat' first
    | with_reducible assumption | simp only [↓Keeps.mk_iff] | intro _ _ | dsimp only

theorem rebuildTag_keeps {z : State} (s : State) (k h : Nat) (hz : Keeps z s) : Keeps z (rebuildTag s k h) := by
  unfold rebuildTag
  repeat' first
    | with_reducible assumption | with_reducible apply setTag_keeps | with_reducible apply inc_keeps | dsimp only

theorem repairTag_keeps {z : State} (s : State) (q set w : Nat) (e : TagErr) (hz : Keeps z s) :
    Keeps z (repairTag s q set w e) := by
  unfold repairTag
  repeat' first
    | with_reducible assumption | with_reducible apply setTag_keeps | with_reducible apply inc_keeps
    | with_reducible apply rebuildTag_keeps | with_reducible apply report_keeps
    | with_reducible refine Keeps.ite ?_ ?_ | dsimp only | split

theorem checkTags_keeps {z : State} (s : State) (m : LookupIn) (looked : Nat → Nat → Bool) (hz : Keeps z s) :
    Keeps z (checkTags s m looked) := by
  unfold checkTags
  repeat' first
    | with_reducible assumption | with_reducible apply repairTag_keeps | with_reducible refine Keeps.ite ?_ ?_
    | with_reducible refine Keeps.foldl _ _ ?_ ?_ | intro _ _ _ | intro _ _ | dsimp only | split

theorem countMisses_keeps {z : State} (s : State) (lis : List Nat) (hz : Keeps z s) :
    Keeps z (countMisses s lis) := by
  unfold countMisses
  repeat' first
    | with_reducible assumption | with_reducible apply inc64_keeps | intro _ _ | dsimp only

theorem tagLookups_keeps {z : State} (s : State) (m : LookupIn) (lis : List Nat) (hz : Keeps z s) :
    Keeps z (tagLookups s m lis) := by
  unfold tagLookups
  repeat' first
    | with_reducible assumption | with_reducible apply checkTags_keeps | intro _ _ | dsimp only

theorem bankAnswers_keeps {z : State} (s : State) (hz : Keeps z s) : Keeps z (bankAnswers s) := by
  unfold bankAnswers
  repeat' first
    | with_reducible assumption | simp only [↓Keeps.mk_iff] | dsimp only

theorem bankCorrected_keeps {z : State} (s : State) (k i access : Nat) (hz : Keeps z s) :
    Keeps z (bankCorrected s k i access) := by
  unfold bankCorrected
  repeat' first
    | with_reducible assumption | with_reducible apply inc_keeps | with_reducible apply incSat_keeps
    | with_reducible apply report_keeps | dsimp only

theorem dropLine_keeps {z : State} (s : State) (k i : Nat) (hz : Keeps z s) : Keeps z (dropLine s k i) := by
  unfold dropLine
  repeat' first
    | with_reducible assumption | with_reducible apply setTag_keeps | dsimp only

theorem dirtyLost_keeps {z : State} (s : State) (k i access : Nat) (l : Line) (hz : Keeps z s) :
    Keeps z (dirtyLost s k i access l) := by
  unfold dirtyLost
  repeat' first
    | with_reducible assumption | with_reducible apply dropLine_keeps | with_reducible apply storeLine_keeps
    | with_reducible apply inc_keeps | with_reducible apply report_keeps | with_reducible apply poisonNew_keeps
    | dsimp only

theorem bankUncorrectable_keeps {z : State} (s : State) (k i access : Nat) (raw : Line) (hz : Keeps z s) :
    Keeps z (bankUncorrectable s k i access raw) := by
  unfold bankUncorrectable
  repeat' first
    | with_reducible assumption | with_reducible apply incSat_keeps | with_reducible apply report_keeps
    | with_reducible apply dirtyLost_keeps | with_reducible apply dropLine_keeps | with_reducible apply inc_keeps
    | with_reducible refine Keeps.ite ?_ ?_ | dsimp only | split

theorem bankDecoded_keeps {z : State} (s : State) (k i access : Nat) (raw : Line) (d : Decoded) (hz : Keeps z s) :
    Keeps z (bankDecoded s k i access raw d).2.2 := by
  cases d with
  | corrected x n => exact bankCorrected_keeps _ _ _ _ (setData_keeps s k i x hz)
  | _ => exact hz

theorem bankWord_keeps {z : State} (s : State) (k i access : Nat) (flips : Option (BitVec 576)) (hz : Keeps z s) :
    Keeps z (bankWord s k i access flips).2.2 := by
  have h := bankAnswers_keeps s hz
  cases flips with
  | none => exact h
  | some b => exact bankDecoded_keeps _ k i access _ _ h

theorem bankGet_keeps {z : State} (s : State) (m : LookupIn) (k li access : Nat) (hz : Keeps z s) :
    Keeps z (bankGet s m k li access).2 := by
  unfold bankGet
  repeat' first
    | with_reducible assumption | with_reducible apply bankWord_keeps | with_reducible apply bankUncorrectable_keeps
    | with_reducible apply fetchHome_keeps | with_reducible refine Keeps.ite ?_ ?_ | dsimp only | split

theorem readDirty_keeps {z : State} (s : State) (m : LookupIn) (k : Nat) (put : Nat → Line → State → State) (hz : Keeps z s)
    (hp : ∀ i l t, Keeps z t → Keeps z (put i l t)) : Keeps z (readDirty s m k put) := by
  unfold readDirty
  refine Keeps.foldl _ _ hz fun t i ht => ?_
  dsimp only
  split
  · split
    · exact hp _ _ _ (bankGet_keeps _ _ _ _ _ ht)
    · exact bankGet_keeps _ _ _ _ _ ht
  · exact ht

theorem cleanWay_keeps {z : State} (s : State) (m : LookupIn) (k : Nat) (hz : Keeps z s) :
    Keeps z (cleanWay s m k) := by
  unfold cleanWay
  repeat' first
    | with_reducible assumption | with_reducible apply readDirty_keeps | with_reducible apply storeLine_keeps
    | with_reducible apply inc_keeps | with_reducible apply setTag_keeps | with_reducible refine Keeps.ite ?_ ?_
    | intro _ _ | dsimp only | split

theorem evictWay_keeps {z : State} (s : State) (m : LookupIn) (k : Nat) (hz : Keeps z s) :
    Keeps z (evictWay s m k) := by
  unfold evictWay
  repeat' first
    | with_reducible assumption | with_reducible apply readDirty_keeps | with_reducible apply wdbKeep_keeps
    | with_reducible apply setTag_keeps | intro _ _ | dsimp only

theorem ageSet_keeps {z : State} (s : State) (q set : Nat) (hz : Keeps z s) : Keeps z (ageSet s q set) := by
  unfold ageSet
  repeat' first
    | with_reducible assumption | with_reducible apply setTag_keeps | with_reducible refine Keeps.ite ?_ ?_
    | with_reducible refine Keeps.foldl _ _ ?_ ?_ | intro _ _ _ | intro _ _ | dsimp only | split

theorem victim_keeps {z : State} (act : List Nat) (n q set : Nat) (s : State) (hz : Keeps z s) :
    ∀ r, victim act n q set s = some r → Keeps z r.2 := by
  induction n generalizing s with
  | zero => intro r h; cases h
  | succ n ih =>
    intro r h
    unfold victim at h
    split at h
    · cases h; exact hz
    · split at h
      · cases h; exact hz
      · exact ih _ (ageSet_keeps s q set hz) r h

theorem allocate_keeps {z : State} (s : State) (m : LookupIn) (q li : Nat) (hz : Keeps z s) :
    ∀ r, allocate s m q li = some r → Keeps z r.2 := by
  intro r h
  unfold allocate at h
  dsimp only at h
  split at h
  · cases h
  · rename_i w t ht
    have kt := victim_keeps _ 5 _ _ s hz _ ht
    dsimp only at kt h
    split at h
    · cases h; exact kt
    · split at h
      · cases h
        show Keeps z ((t.evictWay m (wayKey q (cSet li) w)).inc R.CACHE_EVICTIONS)
        exact inc_keeps _ _ _ (evictWay_keeps _ _ _ kt)
      · cases h

theorem fillSector_keeps {z : State} (s : State) (m : LookupIn) (k li age : Nat) (known : Option Line) (hz : Keeps z s) :
    Keeps z (fillSector s m k li age known) := by
  unfold fillSector
  repeat' first
    | with_reducible assumption | with_reducible apply setData_keeps | with_reducible apply fetchHome_keeps
    | with_reducible apply bankAnswers_keeps | with_reducible apply setTag_keeps
    | with_reducible refine Keeps.ite ?_ ?_ | with_reducible refine Keeps.foldl _ _ ?_ ?_ | intro _ _ _ | intro _ _
    | dsimp only | split

theorem unshun_keeps {z : State} (s : State) (li : Nat) (hz : Keeps z s) : Keeps z (unshun s li) := by
  unfold unshun
  repeat' first
    | with_reducible assumption | simp only [↓Keeps.mk_iff] | intro _ _ | dsimp only

theorem fillRead_keeps {z : State} (s : State) (m : LookupIn) (li : Nat) (known : Option Line) (hz : Keeps z s) :
    Keeps z (fillRead s m li known) := by
  unfold fillRead
  repeat' first
    | with_reducible assumption | with_reducible apply fetchHome_keeps | with_reducible apply setData_keeps
    | with_reducible apply bankAnswers_keeps | with_reducible apply setTag_keeps
    | with_reducible refine allocate_keeps _ _ _ _ ?_ (_, _) (by assumption) | with_reducible apply fillSector_keeps
    | with_reducible apply inc_keeps | with_reducible refine Keeps.ite ?_ ?_ | dsimp only | split

theorem fillAfterRead_keeps {z : State} (s : State) (m : LookupIn) (li : Nat) (known : Option Line) (noAlloc : Bool) (hz : Keeps z s) :
    Keeps z (fillAfterRead s m li known noAlloc) := by
  unfold fillAfterRead
  repeat' first
    | with_reducible assumption | with_reducible apply unshun_keeps | with_reducible apply fillRead_keeps
    | simp only [↓Keeps.mk_iff] | with_reducible refine Keeps.ite ?_ ?_ | dsimp only | split

theorem runFills_keeps {z : State} (s : State) (m : LookupIn) (hz : Keeps z s) : Keeps z (runFills s m) := by
  unfold runFills
  repeat' first
    | with_reducible assumption | with_reducible apply fillAfterRead_keeps | simp only [↓Keeps.mk_iff]
    | with_reducible refine Keeps.foldl _ _ ?_ ?_ | intro _ _ _ | intro _ _ | dsimp only

theorem writeWay_keeps {z : State} (s : State) (k li : Nat) (l : Line) (valid dirty age : Nat) (hz : Keeps z s) :
    Keeps z (writeWay s k li l valid dirty age) := by
  unfold writeWay
  repeat' first
    | with_reducible assumption | with_reducible apply setData_keeps | with_reducible apply bankAnswers_keeps
    | with_reducible apply setTag_keeps | dsimp only

theorem writeHit_keeps {z : State} (s : State) (k li : Nat) (l : Line) (hz : Keeps z s) :
    Keeps z (writeHit s k li l) := by
  unfold writeHit
  repeat' first
    | with_reducible assumption | with_reducible apply writeWay_keeps | dsimp only

theorem leaveBank_keeps {z : State} (s : State) (m : LookupIn) (q li : Nat) (w : Option Nat) (hz : Keeps z s) :
    Keeps z (leaveBank s m q li w) := by
  unfold leaveBank
  repeat' first
    | with_reducible assumption | with_reducible apply evictWay_keeps | with_reducible refine Keeps.ite ?_ ?_
    | dsimp only | split

theorem drainToCache_keeps {z : State} (s : State) (m : LookupIn) (li : Nat) (l : Line) (hz : Keeps z s) :
    Keeps z (drainToCache s m li l).1 := by
  unfold drainToCache
  repeat' first
    | with_reducible assumption | with_reducible apply leaveBank_keeps | with_reducible apply unshun_keeps
    | with_reducible apply writeWay_keeps | with_reducible refine allocate_keeps _ _ _ _ ?_ (_, _) (by assumption)
    | with_reducible refine Keeps.ite ?_ ?_ | intro _ _ | dsimp only | split

theorem flushWay_keeps {z : State} (s : State) (m : LookupIn) (k : Nat) (hz : Keeps z s) :
    Keeps z (flushWay s m k) := by
  unfold flushWay
  repeat' first
    | with_reducible assumption | with_reducible apply cleanWay_keeps | with_reducible apply setTag_keeps
    | with_reducible refine Keeps.ite ?_ ?_ | dsimp only | split

theorem flushParcel_keeps {z : State} (s : State) (m : LookupIn) (q n : Nat) (hz : Keeps z s) :
    Keeps z (flushParcel s m q n) := by
  unfold flushParcel
  repeat' first
    | with_reducible assumption | with_reducible apply tagLookups_keeps | with_reducible apply flushWay_keeps
    | with_reducible refine Keeps.foldl _ _ ?_ ?_ | intro _ _ _ | intro _ _ | dsimp only

theorem dropParcel_keeps {z : State} (s : State) (q n : Nat) (hz : Keeps z s) : Keeps z (dropParcel s q n) := by
  unfold dropParcel
  repeat' first
    | with_reducible assumption | with_reducible apply setTag_keeps | with_reducible refine Keeps.foldl _ _ ?_ ?_
    | intro _ _ _ | intro _ _ | dsimp only

theorem flushAll_keeps {z : State} (s : State) (m : LookupIn) (hz : Keeps z s) : Keeps z (flushAll s m) := by
  unfold flushAll
  repeat' first
    | with_reducible assumption | with_reducible apply checkTags_keeps | with_reducible apply cleanWay_keeps
    | with_reducible refine Keeps.foldl _ _ ?_ ?_ | intro _ _ _ | intro _ _ | dsimp only

theorem setFlushing_keeps {z : State} (s : State) (hz : Keeps z s) : Keeps z (setFlushing s) := by
  unfold setFlushing
  repeat' first
    | with_reducible assumption | with_reducible apply flag_keeps | intro _ _ | dsimp only

theorem flushStart_keeps {z : State} (s : State) (j : FlushJob) (hz : Keeps z s) : Keeps z (flushStart s j) := by
  unfold flushStart
  repeat' first
    | with_reducible assumption | with_reducible apply setFlushing_keeps | simp only [↓Keeps.mk_iff]
    | with_reducible refine Keeps.ite ?_ ?_ | dsimp only | split

theorem flushEnd_keeps {z : State} (s : State) (hz : Keeps z s) : Keeps z (flushEnd s) := by
  unfold flushEnd
  repeat' first
    | with_reducible assumption | with_reducible apply setFlushing_keeps | with_reducible apply flag_keeps
    | simp only [↓Keeps.mk_iff] | with_reducible refine Keeps.ite ?_ ?_ | dsimp only | split

theorem cacheEnable_keeps {z : State} (s : State) (b : Bool) (hz : Keeps z s) : Keeps z (cacheEnable s b) := by
  unfold cacheEnable
  repeat' first
    | with_reducible assumption | with_reducible apply flag_keeps | with_reducible apply flushStart_keeps
    | with_reducible refine Keeps.ite ?_ ?_ | dsimp only | split

theorem bankRetire_keeps {z : State} (s : State) (b : Nat) (hz : Keeps z s) : Keeps z (bankRetire s b) := by
  unfold bankRetire
  repeat' first
    | with_reducible assumption | with_reducible apply put_keeps | with_reducible apply setFlushing_keeps
    | with_reducible refine Keeps.ite ?_ ?_ | dsimp only | split

theorem bankScan_keeps {z : State} (s : State) (m : LookupIn) (b : Nat) (hz : Keeps z s) :
    Keeps z (bankScan s m b) := by
  unfold bankScan
  repeat' first
    | with_reducible assumption | with_reducible apply checkTags_keeps | with_reducible apply readDirty_keeps
    | with_reducible apply wdbScan_keeps | with_reducible apply setTag_keeps | with_reducible refine Keeps.ite ?_ ?_
    | with_reducible refine Keeps.foldl _ _ ?_ ?_ | intro _ _ _ | intro _ _ | dsimp only | split

theorem bankScanDone_keeps {z : State} (s : State) (m : LookupIn) (b : Nat) (hz : Keeps z s) :
    Keeps z (bankScanDone s m b) := by
  unfold bankScanDone
  repeat' first
    | with_reducible assumption | with_reducible apply bankScan_keeps | with_reducible apply put_keeps
    | with_reducible apply setBit_keeps | with_reducible apply setFlushing_keeps
    | with_reducible refine Keeps.ite ?_ ?_ | intro _ _ | dsimp only | split

theorem dieLost_keeps {z : State} (s : State) (hz : Keeps z s) : Keeps z (dieLost s) := by
  unfold dieLost
  repeat' first
    | with_reducible assumption | with_reducible apply dirtyLost_keeps | with_reducible apply setTag_keeps
    | with_reducible apply setFlushing_keeps | with_reducible apply flag_keeps | simp only [↓Keeps.mk_iff]
    | with_reducible refine Keeps.ite ?_ ?_ | with_reducible refine Keeps.foldl _ _ ?_ ?_ | intro _ _ _ | intro _ _
    | dsimp only | split

theorem bankTimeout_keeps {z : State} (s : State) (b : Nat) (a : CacheAccess) (li : Nat) (again : Bool) (hz : Keeps z s) :
    Keeps z (bankTimeout s b a li again) := by
  unfold bankTimeout
  repeat' first
    | with_reducible assumption | with_reducible apply incSat_keeps | with_reducible apply report_keeps
    | with_reducible apply dropLine_keeps | with_reducible apply storeLine_keeps
    | with_reducible apply dirtyLost_keeps | simp only [↓Keeps.mk_iff] | with_reducible refine Keeps.ite ?_ ?_
    | intro _ _ | dsimp only | split

theorem dieRetire_keeps {z : State} (s : State) (hz : Keeps z s) : Keeps z (dieRetire s) := by
  unfold dieRetire
  repeat' first
    | with_reducible assumption | with_reducible apply flag_keeps | with_reducible apply recordStep_keeps
    | with_reducible refine Keeps.ite ?_ ?_ | dsimp only | split

theorem bankRetired_keeps {z : State} (s : State) (m : LookupIn) (b : Nat) (hz : Keeps z s) :
    Keeps z (bankRetired s m b) := by
  unfold bankRetired
  repeat' first
    | with_reducible assumption | with_reducible apply bankScanDone_keeps | with_reducible apply recordStep_keeps
    | with_reducible apply dieRetire_keeps | with_reducible refine Keeps.ite ?_ ?_ | intro _ _ | dsimp only | split

theorem dieSilent_keeps {z : State} (s : State) (hz : Keeps z s) : Keeps z (dieSilent s) := by
  unfold dieSilent
  repeat' first
    | with_reducible assumption | with_reducible apply flag_keeps | with_reducible refine Keeps.ite ?_ ?_ | dsimp only
    | split

theorem dieDead_keeps {z : State} (s : State) (hz : Keeps z s) : Keeps z (dieDead s) := by
  unfold dieDead
  repeat' first
    | with_reducible assumption | with_reducible apply dieLost_keeps | with_reducible apply dieRetire_keeps
    | with_reducible refine Keeps.ite ?_ ?_ | dsimp only | split

theorem readCurrent_keeps {z : State} (s : State) (m : LookupIn) (li access : Nat) (hz : Keeps z s) :
    Keeps z (readCurrent s m li access).2 := by
  unfold readCurrent
  repeat' first
    | with_reducible assumption | with_reducible apply bankGet_keeps | with_reducible apply fetchHome_keeps
    | dsimp only | split

theorem touchHit_keeps {z : State} (s : State) (k : Nat) (hz : Keeps z s) : Keeps z (touchHit s k) := by
  unfold touchHit
  repeat' first
    | with_reducible assumption | with_reducible apply setTag_keeps | with_reducible apply inc64_keeps
    | with_reducible apply bankAnswers_keeps | dsimp only

theorem readMiss_keeps {z : State} (s : State) (m : LookupIn) (li access : Nat) (noAlloc : Bool) (hz : Keeps z s) :
    Keeps z (readMiss s m li access noAlloc).2 := by
  unfold readMiss
  repeat' first
    | with_reducible assumption | with_reducible apply fetchHome_keeps | with_reducible apply fillAfterRead_keeps
    | dsimp only

theorem readThrough_keeps {z : State} (s : State) (m : LookupIn) (li access : Nat) (noAlloc : Bool) (hz : Keeps z s) :
    Keeps z (readThrough s m li access noAlloc).2 := by
  unfold readThrough
  repeat' first
    | with_reducible assumption | with_reducible apply tagLookups_keeps | with_reducible apply countMisses_keeps
    | with_reducible apply readMiss_keeps | with_reducible apply bankWord_keeps | with_reducible apply touchHit_keeps
    | with_reducible apply bankUncorrectable_keeps | with_reducible refine Keeps.ite ?_ ?_ | dsimp only | split

theorem updateLine_keeps {z : State} (s : State) (li : Nat) (l : Line) (hz : Keeps z s) :
    Keeps z (updateLine s li l) := by
  unfold updateLine
  repeat' first
    | with_reducible assumption | with_reducible apply wdbPut_keeps | with_reducible apply writeHit_keeps
    | with_reducible apply storeLine_keeps | with_reducible refine Keeps.ite ?_ ?_ | dsimp only | split

theorem sendRead_keeps {z : State} (s : State) (f o req idx prio : Nat) (hz : Keeps z s) :
    Keeps z (sendRead s f o req idx prio).2 := by
  unfold sendRead
  repeat' first
    | with_reducible assumption | with_reducible apply inc_keeps | with_reducible apply setPch_keeps
    | simp only [↓Keeps.mk_iff] | with_reducible refine Keeps.ite ?_ ?_ | dsimp only | split

theorem setTracker_keeps {z : State} (s : State) (k : Nat) (t : Tracker) (hz : Keeps z s) :
    Keeps z (setTracker s k t) := by
  unfold setTracker
  repeat' first
    | with_reducible assumption | simp only [↓Keeps.mk_iff] | intro _ _ | dsimp only

theorem trackActivate_keeps {z : State} (s : State) (pc bank row : Nat) (bad : Bool) (hz : Keeps z s) :
    Keeps z (trackActivate s pc bank row bad) := by
  unfold trackActivate
  repeat' first
    | with_reducible assumption | with_reducible apply setTracker_keeps | with_reducible apply inc_keeps
    | with_reducible apply report_keeps | with_reducible apply setPch_keeps | simp only [↓Keeps.mk_iff]
    | with_reducible refine Keeps.ite ?_ ?_ | dsimp only | split

theorem rowEffect_keeps {z : State} (s : State) (pc k : Nat) (bad : Bool) (c : RowCmd) (hz : Keeps z s) :
    Keeps z (rowEffect s pc k bad c) := by
  unfold rowEffect
  repeat' first
    | with_reducible assumption
    | with_reducible apply trackActivate_keeps
    | with_reducible apply inc64_keeps
    | with_reducible apply inc_keeps
    | with_reducible apply setTracker_keeps
    | simp only [↓Keeps.mk_iff]
    | with_reducible refine Keeps.ite ?_ ?_
    | with_reducible refine Keeps.foldl _ _ ?_ ?_
    | with_reducible refine Keeps.foldlSnd _ _ ?_ ?_
    | intro _ _ _
    | intro _ _
    | dsimp only
    | split

theorem openGap_keeps {z : State} (s : State) (pc : Nat) (hz : Keeps z s) : Keeps z (openGap s pc) := by
  unfold openGap
  repeat' first
    | with_reducible assumption | with_reducible apply setPch_keeps | simp only [↓Keeps.mk_iff]
    | with_reducible refine Keeps.foldl _ _ ?_ ?_ | intro _ _ _ | intro _ _ | dsimp only

theorem applyTraining_keeps {z : State} (s : State) (pc : Nat) (hz : Keeps z s) : Keeps z (applyTraining s pc) := by
  unfold applyTraining
  repeat' first
    | with_reducible assumption | with_reducible apply setPch_keeps | with_reducible apply incSat_keeps
    | with_reducible apply wr64_keeps | simp only [↓Keeps.mk_iff] | intro _ _ | dsimp only | split

theorem countSpares_keeps {z : State} (s : State) (pc : Nat) (ca : Bool) (hz : Keeps z s) :
    Keeps z (countSpares s pc ca) := by
  unfold countSpares
  repeat' first
    | with_reducible assumption | with_reducible apply put_keeps | dsimp only

theorem takeSpare_keeps {z : State} (s : State) (pc : Nat) (ca : Bool) (i v : Nat) (hz : Keeps z s) :
    Keeps z (takeSpare s pc ca i v) := by
  unfold takeSpare
  repeat' first
    | with_reducible assumption | with_reducible apply setSpareUse_keeps | with_reducible apply countSpares_keeps
    | with_reducible refine Keeps.ite ?_ ?_ | with_reducible refine Keeps.foldl _ _ ?_ ?_ | intro _ _ _ | intro _ _
    | dsimp only | split

theorem applyRemap_keeps {z : State} (s : State) (pc : Nat) (hz : Keeps z s) : Keeps z (applyRemap s pc) := by
  unfold applyRemap
  repeat' first
    | with_reducible assumption | with_reducible apply takeSpare_keeps | with_reducible apply recordStep_keeps
    | with_reducible apply flag_keeps | simp only [↓Keeps.mk_iff] | with_reducible refine Keeps.ite ?_ ?_ | intro _ _
    | dsimp only | split

theorem issueRow_keeps {z : State} (s : State) (pc k : Nat) (bad : Bool) (c : RowCmd) (hz : Keeps z s) :
    Keeps z (issueRow s pc k bad c) := by
  unfold issueRow
  repeat' first
    | with_reducible assumption | with_reducible apply setPch_keeps | with_reducible apply rowEffect_keeps
    | with_reducible apply openGap_keeps | with_reducible apply applyTraining_keeps
    | with_reducible apply applyRemap_keeps | with_reducible refine Keeps.ite ?_ ?_ | dsimp only | split

theorem issueCol_keeps {z : State} (s : State) (pc k : Nat) (t : Tim) (r : DReq) (hz : Keeps z s) :
    Keeps z (issueCol s pc k t r) := by
  unfold issueCol
  repeat' first
    | with_reducible assumption | with_reducible apply inc_keeps | with_reducible apply setPch_keeps
    | with_reducible apply putWord_keeps | with_reducible apply inc64_keeps | simp only [↓Keeps.mk_iff]
    | with_reducible refine Keeps.ite ?_ ?_ | dsimp only | split

theorem chooseMode_keeps {z : State} (s : State) (pc k : Nat) (hz : Keeps z s) : Keeps z (chooseMode s pc k) := by
  unfold chooseMode
  repeat' first
    | with_reducible assumption | with_reducible apply inc_keeps | with_reducible apply setPch_keeps
    | simp only [↓Keeps.mk_iff] | with_reducible refine Keeps.ite ?_ ?_ | dsimp only | split

theorem wakePch_keeps {z : State} (s : State) (pc : Nat) (t : Tim) (hz : Keeps z s) : Keeps z (wakePch s pc t) := by
  unfold wakePch
  repeat' first
    | with_reducible assumption | with_reducible apply setPch_keeps | simp only [↓Keeps.mk_iff]
    | with_reducible refine Keeps.ite ?_ ?_ | dsimp only | split

theorem issueBoth_keeps {z : State} (s : State) (pc k : Nat) (t : Tim) (bad : Bool) (hz : Keeps z s) :
    Keeps z (issueBoth s pc k t bad) := by
  unfold issueBoth
  repeat' first
    | with_reducible assumption | with_reducible apply issueRow_keeps | with_reducible apply issueCol_keeps
    | with_reducible refine Keeps.ite ?_ ?_ | dsimp only | split

theorem dramClock_keeps {z : State} (s : State) (c p : Nat) (bad : Bool) (hz : Keeps z s) :
    Keeps z (dramClock s c p bad) := by
  unfold dramClock
  repeat' first
    | with_reducible assumption | with_reducible apply setPch_keeps | with_reducible apply promote_keeps
    | with_reducible apply wakePch_keeps | with_reducible apply chooseMode_keeps
    | with_reducible apply issueBoth_keeps | with_reducible refine Keeps.ite ?_ ?_ | dsimp only | split

theorem pdEntry_keeps {z : State} (s : State) (c p : Nat) (hz : Keeps z s) : Keeps z (pdEntry s c p) := by
  unfold pdEntry
  repeat' first
    | with_reducible assumption | with_reducible apply setPch_keeps | with_reducible apply inc_keeps
    | simp only [↓Keeps.mk_iff] | with_reducible refine Keeps.ite ?_ ?_ | dsimp only | split

theorem refSlot_keeps {z : State} (s : State) (c p b : Nat) (hz : Keeps z s) : Keeps z (refSlot s c p b) := by
  unfold refSlot
  repeat' first
    | with_reducible assumption | with_reducible apply setPch_keeps | simp only [↓Keeps.mk_iff]
    | with_reducible refine Keeps.ite ?_ ?_ | dsimp only | split

theorem refDue_keeps {z : State} (s : State) (c p b : Nat) (hz : Keeps z s) : Keeps z (refDue s c p b) := by
  unfold refDue
  repeat' first
    | with_reducible assumption | with_reducible apply setPch_keeps | with_reducible apply inc_keeps
    | simp only [↓Keeps.mk_iff] | with_reducible refine Keeps.ite ?_ ?_ | intro _ _ | dsimp only | split

theorem syncSelfRefresh_keeps {z : State} (s : State) (hz : Keeps z s) : Keeps z (syncSelfRefresh s) := by
  unfold syncSelfRefresh
  repeat' first
    | with_reducible assumption | with_reducible apply flag_keeps | with_reducible refine Keeps.foldl _ _ ?_ ?_
    | intro _ _ _ | intro _ _ | dsimp only

theorem selfRefreshIn_keeps {z : State} (s : State) (pc : Nat) (hz : Keeps z s) : Keeps z (selfRefreshIn s pc) := by
  unfold selfRefreshIn
  repeat' first
    | with_reducible assumption | with_reducible apply rowEffect_keeps | with_reducible apply performAll_keeps
    | with_reducible apply setPch_keeps | simp only [↓Keeps.mk_iff] | with_reducible refine Keeps.foldl _ _ ?_ ?_
    | intro _ _ _ | intro _ _ | dsimp only

theorem enterSelfRefresh_keeps {z : State} (s : State) (hz : Keeps z s) : Keeps z (enterSelfRefresh s) := by
  unfold enterSelfRefresh
  repeat' first
    | with_reducible assumption | with_reducible apply selfRefreshIn_keeps
    | with_reducible apply syncSelfRefresh_keeps | simp only [↓Keeps.mk_iff]
    | with_reducible refine Keeps.foldl _ _ ?_ ?_ | intro _ _ _ | intro _ _ | dsimp only

theorem exitSelfRefresh_keeps {z : State} (s : State) (pcs : List Nat) (hz : Keeps z s) :
    Keeps z (exitSelfRefresh s pcs) := by
  unfold exitSelfRefresh
  repeat' first
    | with_reducible assumption | with_reducible apply setPch_keeps | with_reducible apply syncSelfRefresh_keeps
    | simp only [↓Keeps.mk_iff] | with_reducible refine Keeps.foldl _ _ ?_ ?_ | intro _ _ _ | intro _ _ | dsimp only

theorem settleRead_keeps {z : State} (s : State) (r : DReq) (li : Option Nat) (out : ReadOut) (access : Nat) (hz : Keeps z s) :
    Keeps z (settleRead s r li out access).2 := by
  unfold settleRead
  repeat' first
    | with_reducible assumption | with_reducible apply writeHit_keeps | with_reducible apply poisonWrite_keeps
    | with_reducible apply poisonNew_keeps | with_reducible apply queueCorrection_keeps
    | with_reducible refine Keeps.ite ?_ ?_ | dsimp only | split

end State

end Sys2Proof.Machine
end

