-- ==== Sys2Proof/Laws/KeepsLink.lean ====
section
/-! SUPPORT. What every operation of the stack keeps: the lanes, the link layer and the sampler. -/

namespace Sys2Proof.Machine

namespace State

theorem setGrpState_keeps {z : State} (s : State) (d : Dir) (g n : Nat) (hz : Keeps z s) :
    Keeps z (setGrpState s d g n) := by
  unfold setGrpState
  repeat' first
    | with_reducible assumption | with_reducible apply put_keeps | dsimp only

theorem setSpare_keeps {z : State} (s : State) (d : Dir) (g n : Nat) (hz : Keeps z s) :
    Keeps z (setSpare s d g n) := by
  unfold setSpare
  repeat' first
    | with_reducible assumption | with_reducible apply put_keeps | dsimp only

theorem setParked_keeps {z : State} (s : State) (d : Dir) (g : Nat) (b : Bool) (hz : Keeps z s) :
    Keeps z (setParked s d g b) := by
  unfold setParked
  repeat' first
    | with_reducible assumption | with_reducible apply flag_keeps | dsimp only | split

theorem setDataLanes_keeps {z : State} (s : State) (d : Dir) (g : Nat) (l : List Nat) (hz : Keeps z s) :
    Keeps z (setDataLanes s d g l) := by
  unfold setDataLanes
  repeat' first
    | with_reducible assumption | simp only [↓Keeps.mk_iff] | intro _ _ | dsimp only

theorem setCtl_keeps {z : State} (s : State) (g code arg : Nat) (hz : Keeps z s) : Keeps z (setCtl s g code arg) := by
  unfold setCtl
  repeat' first
    | with_reducible assumption | simp only [↓Keeps.mk_iff] | intro _ _ | dsimp only

theorem setAck_keeps {z : State} (s : State) (g code arg : Nat) (hz : Keeps z s) : Keeps z (setAck s g code arg) := by
  unfold setAck
  repeat' first
    | with_reducible assumption | simp only [↓Keeps.mk_iff] | intro _ _ | dsimp only

theorem raiseEvent_keeps {z : State} (s : State) (page lane : Nat) (hz : Keeps z s) :
    Keeps z (raiseEvent s page lane) := by
  unfold raiseEvent
  repeat' first
    | with_reducible assumption | simp only [↓Keeps.mk_iff] | dsimp only

theorem emit_keeps {z : State} (s : State) (g l : Nat) (syms : List Nat) (hz : Keeps z s) :
    Keeps z (emit s g l syms) := by
  unfold emit
  repeat' first
    | with_reducible assumption | simp only [↓Keeps.mk_iff] | with_reducible refine Keeps.ite ?_ ?_ | intro _ _
    | dsimp only | split

theorem quiet_keeps {z : State} (s : State) (g l : Nat) (hz : Keeps z s) : Keeps z (quiet s g l) := by
  unfold quiet
  repeat' first
    | with_reducible assumption | simp only [↓Keeps.mk_iff] | intro _ _ | dsimp only

theorem drive_keeps {z : State} (s : State) (g l : Nat) (syms : List Nat) (hz : Keeps z s) :
    Keeps z (drive s g l syms) := by
  unfold drive
  repeat' first
    | with_reducible assumption | with_reducible apply emit_keeps | simp only [↓Keeps.mk_iff]
    | with_reducible refine Keeps.ite ?_ ?_ | intro _ _ | dsimp only | split

theorem laneSyms_keeps {z : State} (s : State) (g l last : Nat) (bits : List Bool) (hz : Keeps z s) :
    Keeps z (laneSyms s g l last bits).2 := by
  unfold laneSyms
  repeat' first
    | with_reducible assumption | simp only [↓Keeps.mk_iff] | with_reducible refine Keeps.ite ?_ ?_ | intro _ _
    | dsimp only | split

theorem blockSyms_keeps {z : State} (s : State) (g l ctl : Nat) (bits : List Bool) (hz : Keeps z s) :
    Keeps z (blockSyms s g l ctl bits).2 := by
  unfold blockSyms
  repeat' first
    | with_reducible assumption | with_reducible apply laneSyms_keeps | dsimp only

theorem laneBurst_keeps {z : State} (s : State) (g code : Nat) (hz : Keeps z s) : Keeps z (laneBurst s g code) := by
  unfold laneBurst
  repeat' first
    | with_reducible assumption | with_reducible apply blockSyms_keeps | with_reducible apply quiet_keeps
    | with_reducible apply emit_keeps | simp only [↓Keeps.mk_iff] | with_reducible refine Keeps.ite ?_ ?_
    | with_reducible refine Keeps.foldl _ _ ?_ ?_ | with_reducible refine Keeps.foldlSnd _ _ ?_ ?_
    | with_reducible refine Keeps.foldlFst _ _ ?_ ?_ | intro _ _ _ | intro _ _ | dsimp only | split

theorem setUsable_keeps {z : State} (s : State) (d : Dir) (g : Nat) (b : Bool) (hz : Keeps z s) :
    Keeps z (setUsable s d g b) := by
  unfold setUsable
  repeat' first
    | with_reducible assumption | with_reducible apply setBit_keeps | dsimp only | split

theorem setRef_keeps {z : State} (s : State) (r : Option (Nat × Nat)) (hz : Keeps z s) : Keeps z (setRef s r) := by
  unfold setRef
  repeat' first
    | with_reducible assumption | with_reducible apply flag_keeps | simp only [↓Keeps.mk_iff]
    | with_reducible refine Keeps.foldl _ _ ?_ ?_ | intro _ _ _ | intro _ _ | dsimp only

theorem monStop_keeps {z : State} (s : State) (hz : Keeps z s) : Keeps z (monStop s) := by
  unfold monStop
  repeat' first
    | with_reducible assumption | simp only [↓Keeps.mk_iff] | dsimp only

theorem setLoopTimed_keeps {z : State} (s : State) (b : Bool) (hz : Keeps z s) : Keeps z (setLoopTimed s b) := by
  unfold setLoopTimed
  repeat' first
    | with_reducible assumption | with_reducible apply flag_keeps | with_reducible apply monStop_keeps
    | with_reducible refine Keeps.foldl _ _ ?_ ?_ | intro _ _ _ | intro _ _ | dsimp only

theorem widthRef_keeps {z : State} (s : State) (hz : Keeps z s) : Keeps z (widthRef s) := by
  unfold widthRef
  repeat' first
    | with_reducible assumption | with_reducible apply monStop_keeps | with_reducible apply setRef_keeps
    | simp only [↓Keeps.mk_iff] | with_reducible refine Keeps.ite ?_ ?_ | dsimp only | split

theorem sendEidle_keeps {z : State} (s : State) (g : Nat) (hz : Keeps z s) : Keeps z (sendEidle s g) := by
  unfold sendEidle
  repeat' first
    | with_reducible assumption | with_reducible apply drive_keeps | simp only [↓Keeps.mk_iff]
    | with_reducible refine Keeps.foldl _ _ ?_ ?_ | intro _ _ _ | intro _ _ | dsimp only

theorem parkGroup_keeps {z : State} (s : State) (d : Dir) (gs : List Nat) (g : Nat) (hz : Keeps z s) :
    Keeps z (parkGroup s d gs g) := by
  unfold parkGroup
  repeat' first
    | with_reducible assumption | with_reducible apply setParked_keeps | with_reducible apply sendEidle_keeps
    | with_reducible refine Keeps.ite ?_ ?_ | dsimp only | split

theorem takeWidth_keeps {z : State} (s : State) (d : Dir) (step : Nat) (gs : List Nat) (hz : Keeps z s) :
    Keeps z (takeWidth s d step gs) := by
  unfold takeWidth
  repeat' first
    | with_reducible assumption | with_reducible apply put_keeps | with_reducible apply parkGroup_keeps
    | with_reducible apply widthRef_keeps | simp only [↓Keeps.mk_iff] | with_reducible refine Keeps.foldl _ _ ?_ ?_
    | intro _ _ _ | intro _ _ | dsimp only | split

theorem startWidth_keeps {z : State} (s : State) (d : Dir) (n : Nat) (hz : Keeps z s) :
    Keeps z (startWidth s d n) := by
  unfold startWidth
  repeat' first
    | with_reducible assumption | with_reducible apply flag_keeps | with_reducible apply laneBurst_keeps
    | simp only [↓Keeps.mk_iff] | with_reducible refine Keeps.foldl _ _ ?_ ?_ | intro _ _ _ | intro _ _ | dsimp only
    | split

theorem decideWidth_keeps {z : State} (s : State) (d : Dir) (hz : Keeps z s) : Keeps z (decideWidth s d) := by
  unfold decideWidth
  repeat' first
    | with_reducible assumption | with_reducible apply startWidth_keeps | with_reducible refine Keeps.ite ?_ ?_
    | dsimp only | split

theorem dropChange_keeps {z : State} (s : State) (d : Dir) (hz : Keeps z s) : Keeps z (dropChange s d) := by
  unfold dropChange
  repeat' first
    | with_reducible assumption | with_reducible apply flag_keeps | with_reducible apply decideWidth_keeps
    | simp only [↓Keeps.mk_iff] | intro _ _ | dsimp only | split

theorem sparingWidth_keeps {z : State} (s : State) (d : Dir) (hz : Keeps z s) : Keeps z (sparingWidth s d) := by
  unfold sparingWidth
  repeat' first
    | with_reducible assumption | with_reducible apply dropChange_keeps | with_reducible apply decideWidth_keeps
    | with_reducible refine Keeps.ite ?_ ?_ | intro _ _ | dsimp only | split

theorem groupTo_keeps {z : State} (s : State) (was n : Nat) (d : Dir) (g : Nat) (hz : Keeps z s) :
    Keeps z (groupTo s was n d g) := by
  unfold groupTo
  repeat' first
    | with_reducible assumption | with_reducible apply setParked_keeps | with_reducible apply setGrpState_keeps
    | with_reducible refine Keeps.ite ?_ ?_ | dsimp only | split

theorem clearTrained_keeps {z : State} (s : State) (hz : Keeps z s) : Keeps z (clearTrained s) := by
  unfold clearTrained
  repeat' first
    | with_reducible assumption | with_reducible apply flag_keeps | with_reducible apply setUsable_keeps
    | with_reducible apply setRef_keeps | with_reducible apply paramSeen_keeps | simp only [↓Keeps.mk_iff]
    | with_reducible refine Keeps.foldl _ _ ?_ ?_ | intro _ _ _ | intro _ _ | dsimp only

theorem setLinkState_keeps {z : State} (s : State) (n : Nat) (hz : Keeps z s) : Keeps z (setLinkState s n) := by
  unfold setLinkState
  repeat' first
    | with_reducible assumption | with_reducible apply groupTo_keeps | with_reducible apply monStop_keeps
    | with_reducible apply put_keeps | with_reducible apply clearTrained_keeps | with_reducible refine Keeps.ite ?_ ?_
    | with_reducible refine Keeps.foldl _ _ ?_ ?_ | intro _ _ _ | intro _ _ | dsimp only | split

theorem laneRetired_keeps {z : State} (s : State) (d : Dir) (g lane : Nat) (hz : Keeps z s) :
    Keeps z (laneRetired s d g lane) := by
  unfold laneRetired
  repeat' first
    | with_reducible assumption | with_reducible apply setBit_keeps | with_reducible apply setSpare_keeps
    | with_reducible apply flag_keeps | simp only [↓Keeps.mk_iff] | with_reducible refine Keeps.foldl _ _ ?_ ?_
    | intro _ _ _ | intro _ _ | dsimp only | split

theorem spareTaken_keeps {z : State} (s : State) (g : Nat) (hz : Keeps z s) : Keeps z (spareTaken s g) := by
  unfold spareTaken
  repeat' first
    | with_reducible assumption | with_reducible apply laneRetired_keeps | with_reducible apply put_keeps
    | with_reducible apply raiseEvent_keeps | dsimp only

theorem txTaken_keeps {z : State} (s : State) (g : Nat) (hz : Keeps z s) : Keeps z (txTaken s g) := by
  unfold txTaken
  repeat' first
    | with_reducible assumption | with_reducible apply laneRetired_keeps | with_reducible refine Keeps.ite ?_ ?_
    | intro _ _ | dsimp only | split

theorem abortSparings_keeps {z : State} (s : State) (hz : Keeps z s) : Keeps z (abortSparings s) := by
  unfold abortSparings
  repeat' first
    | with_reducible assumption | with_reducible apply spareTaken_keeps | with_reducible apply put_keeps
    | with_reducible apply txTaken_keeps | with_reducible apply flag_keeps | simp only [↓Keeps.mk_iff]
    | with_reducible refine Keeps.ite ?_ ?_ | with_reducible refine Keeps.foldl _ _ ?_ ?_ | intro _ _ _ | intro _ _
    | dsimp only | split

theorem dropWidthChange_keeps {z : State} (s : State) (hz : Keeps z s) : Keeps z (dropWidthChange s) := by
  unfold dropWidthChange
  repeat' first
    | with_reducible assumption | with_reducible apply flag_keeps | simp only [↓Keeps.mk_iff] | dsimp only

theorem showLanes_keeps {z : State} (s : State) (d : Dir) (g : Nat) (bad : List Nat) (sp : Nat) (hz : Keeps z s) :
    Keeps z (showLanes s d g bad sp) := by
  unfold showLanes
  repeat' first
    | with_reducible assumption | with_reducible apply put_keeps | with_reducible apply setSpare_keeps
    | with_reducible apply flag_keeps | with_reducible refine Keeps.foldl _ _ ?_ ?_ | intro _ _ _ | intro _ _
    | dsimp only | split

theorem placeGroup_keeps {z : State} (s : State) (d : Dir) (g : Nat) (hz : Keeps z s) :
    Keeps z (placeGroup s d g) := by
  unfold placeGroup
  repeat' first
    | with_reducible assumption | with_reducible apply showLanes_keeps | with_reducible apply setDataLanes_keeps
    | with_reducible refine Keeps.ite ?_ ?_ | intro _ _ | dsimp only | split

theorem placeSpares_keeps {z : State} (s : State) (d : Dir) (hz : Keeps z s) : Keeps z (placeSpares s d) := by
  unfold placeSpares
  repeat' first
    | with_reducible assumption | with_reducible apply placeGroup_keeps | with_reducible refine Keeps.ite ?_ ?_
    | with_reducible refine Keeps.foldl _ _ ?_ ?_ | intro _ _ _ | intro _ _ | dsimp only | split

theorem findUsable_keeps {z : State} (s : State) (d : Dir) (hz : Keeps z s) : Keeps z (findUsable s d) := by
  unfold findUsable
  repeat' first
    | with_reducible assumption | with_reducible apply setUsable_keeps | with_reducible refine Keeps.foldl _ _ ?_ ?_
    | intro _ _ _ | intro _ _ | dsimp only

theorem startTraining_keeps {z : State} (s : State) (from_ : Nat) (hz : Keeps z s) :
    Keeps z (startTraining s from_) := by
  unfold startTraining
  repeat' first
    | with_reducible assumption | with_reducible apply inc_keeps | with_reducible apply abortSparings_keeps
    | with_reducible apply dropWidthChange_keeps | with_reducible apply setLoopTimed_keeps
    | with_reducible apply setLinkState_keeps | with_reducible apply paramSeen_keeps
    | with_reducible apply placeSpares_keeps | simp only [↓Keeps.mk_iff] | with_reducible refine Keeps.ite ?_ ?_
    | dsimp only | split

theorem enterRecover_keeps {z : State} (s : State) (hz : Keeps z s) : Keeps z (enterRecover s) := by
  unfold enterRecover
  repeat' first
    | with_reducible assumption | with_reducible apply abortSparings_keeps
    | with_reducible apply dropWidthChange_keeps | with_reducible apply setLinkState_keeps
    | with_reducible apply inc_keeps | with_reducible apply flag_keeps | simp only [↓Keeps.mk_iff]
    | with_reducible refine Keeps.ite ?_ ?_ | with_reducible refine Keeps.foldl _ _ ?_ ?_ | intro _ _ _ | intro _ _
    | dsimp only | split

theorem attemptFails_keeps {z : State} (s : State) (hz : Keeps z s) : Keeps z (attemptFails s) := by
  unfold attemptFails
  repeat' first
    | with_reducible assumption | with_reducible apply setLoopTimed_keeps | with_reducible apply setLinkState_keeps
    | with_reducible apply raiseEvent_keeps | with_reducible apply flag_keeps | simp only [↓Keeps.mk_iff]
    | with_reducible refine Keeps.ite ?_ ?_ | dsimp only | split

theorem startReplay_keeps {z : State} (s : State) (start : BitVec 12) (hz : Keeps z s) :
    Keeps z (startReplay s start) := by
  unfold startReplay
  repeat' first
    | with_reducible assumption | with_reducible apply put_keeps | simp only [↓Keeps.mk_iff]
    | with_reducible refine Keeps.ite ?_ ?_ | dsimp only | split

theorem countReplay_keeps {z : State} (s : State) (hz : Keeps z s) : Keeps z (countReplay s) := by
  unfold countReplay
  repeat' first
    | with_reducible assumption | with_reducible apply inc_keeps | with_reducible apply report_keeps
    | simp only [↓Keeps.mk_iff] | with_reducible refine Keeps.ite ?_ ?_ | dsimp only | split

theorem resumeReplay_keeps {z : State} (s : State) (hz : Keeps z s) : Keeps z (resumeReplay s) := by
  unfold resumeReplay
  repeat' first
    | with_reducible assumption | with_reducible apply startReplay_keeps | with_reducible refine Keeps.ite ?_ ?_
    | dsimp only | split

theorem enterActive_keeps {z : State} (s : State) (hz : Keeps z s) : Keeps z (enterActive s) := by
  unfold enterActive
  repeat' first
    | with_reducible assumption | with_reducible apply placeSpares_keeps | with_reducible apply findUsable_keeps
    | with_reducible apply setLinkState_keeps | with_reducible apply setLoopTimed_keeps
    | with_reducible apply takeWidth_keeps | with_reducible apply flag_keeps | with_reducible apply resumeReplay_keeps
    | with_reducible apply decideWidth_keeps | with_reducible apply attemptFails_keeps | simp only [↓Keeps.mk_iff]
    | with_reducible refine Keeps.foldl _ _ ?_ ?_ | intro _ _ _ | intro _ _ | dsimp only | split

theorem failLanes_keeps {z : State} (s : State) (rx tx : List Nat) (hz : Keeps z s) :
    Keeps z (failLanes s rx tx) := by
  unfold failLanes
  repeat' first
    | with_reducible assumption | with_reducible apply placeSpares_keeps | simp only [↓Keeps.mk_iff] | dsimp only

theorem lockLanes_keeps {z : State} (s : State) (f : Fld) (hz : Keeps z s) : Keeps z (lockLanes s f) := by
  unfold lockLanes
  repeat' first
    | with_reducible assumption | with_reducible apply flag_keeps | with_reducible refine Keeps.foldl _ _ ?_ ?_
    | intro _ _ _ | intro _ _ | dsimp only

theorem markFound_keeps {z : State} (s : State) (t : TrainIn) (hz : Keeps z s) : Keeps z (markFound s t) := by
  unfold markFound
  repeat' first
    | with_reducible assumption | with_reducible apply lockLanes_keeps | with_reducible apply flag_keeps
    | with_reducible apply put_keeps | with_reducible refine Keeps.ite ?_ ?_
    | with_reducible refine Keeps.foldl _ _ ?_ ?_ | intro _ _ _ | intro _ _ | dsimp only | split

theorem takeLine_keeps {z : State} (s : State) (g l : Nat) (r : BitVec 58) (hz : Keeps z s) :
    Keeps z (takeLine s g l r) := by
  unfold takeLine
  repeat' first
    | with_reducible assumption | simp only [↓Keeps.mk_iff] | intro _ _ | dsimp only

theorem enterParam_keeps {z : State} (s : State) (hz : Keeps z s) : Keeps z (enterParam s) := by
  unfold enterParam
  repeat' first
    | with_reducible assumption | with_reducible apply setLinkState_keeps | simp only [↓Keeps.mk_iff]
    | with_reducible refine Keeps.foldl _ _ ?_ ?_ | intro _ _ _ | intro _ _ | dsimp only

theorem paramAgreed_keeps {z : State} (s : State) (hz : Keeps z s) : Keeps z (paramAgreed s) := by
  unfold paramAgreed
  repeat' first
    | with_reducible assumption | with_reducible apply setLoopTimed_keeps | simp only [↓Keeps.mk_iff]
    | with_reducible refine Keeps.ite ?_ ?_ | with_reducible refine Keeps.foldl _ _ ?_ ?_ | intro _ _ _ | intro _ _
    | dsimp only | split

theorem eqLeaves_keeps {z : State} (s : State) (hz : Keeps z s) : Keeps z (eqLeaves s) := by
  unfold eqLeaves
  repeat' first
    | with_reducible assumption | with_reducible apply enterParam_keeps | with_reducible refine Keeps.ite ?_ ?_
    | dsimp only | split

theorem trainingDone_keeps {z : State} (s : State) (t : TrainIn) (hz : Keeps z s) : Keeps z (trainingDone s t) := by
  unfold trainingDone
  repeat' first
    | with_reducible assumption | with_reducible apply failLanes_keeps | with_reducible apply setLinkState_keeps
    | with_reducible apply lockLanes_keeps | with_reducible apply markFound_keeps
    | with_reducible apply eqLeaves_keeps | with_reducible apply paramAgreed_keeps
    | with_reducible apply takeLine_keeps | with_reducible apply enterActive_keeps | simp only [↓Keeps.mk_iff]
    | with_reducible refine Keeps.ite ?_ ?_ | with_reducible refine Keeps.foldl _ _ ?_ ?_ | intro _ _ _ | intro _ _
    | dsimp only | split

theorem trainingTimedOut_keeps {z : State} (s : State) (t : TrainIn) (hz : Keeps z s) :
    Keeps z (trainingTimedOut s t) := by
  unfold trainingTimedOut
  repeat' first
    | with_reducible assumption | with_reducible apply startTraining_keeps | with_reducible apply failLanes_keeps
    | with_reducible apply attemptFails_keeps | simp only [↓Keeps.mk_iff] | with_reducible refine Keeps.ite ?_ ?_
    | dsimp only | split

theorem setTap_keeps {z : State} (s : State) (g l i : Nat) (v : Int) (hz : Keeps z s) :
    Keeps z (setTap s g l i v) := by
  unfold setTap
  repeat' first
    | with_reducible assumption | with_reducible apply put_keeps | dsimp only

theorem lmsTap_keeps {z : State} (s : State) (g l i : Nat) (n : Int) (hz : Keeps z s) :
    Keeps z (lmsTap s g l i n) := by
  unfold lmsTap
  repeat' first
    | with_reducible assumption | with_reducible apply setTap_keeps | simp only [↓Keeps.mk_iff] | intro _ _
    | dsimp only

theorem takeAdapt_keeps {z : State} (s : State) (g l : Nat) (a : Adapt) (ctle dfe : Bool) (hz : Keeps z s) :
    Keeps z (takeAdapt s g l a ctle dfe) := by
  unfold takeAdapt
  repeat' first
    | with_reducible assumption | with_reducible apply put_keeps | with_reducible apply lmsTap_keeps
    | with_reducible refine Keeps.ite ?_ ?_ | with_reducible refine Keeps.foldl _ _ ?_ ?_ | intro _ _ _ | intro _ _
    | dsimp only | split

theorem refLost_keeps {z : State} (s : State) (g l : Nat) (hz : Keeps z s) : Keeps z (refLost s g l) := by
  unfold refLost
  repeat' first
    | with_reducible assumption | with_reducible apply monStop_keeps | with_reducible apply setRef_keeps
    | simp only [↓Keeps.mk_iff] | with_reducible refine Keeps.ite ?_ ?_ | dsimp only | split

theorem lockBeyond_keeps {z : State} (s : State) (g : Nat) (hz : Keeps z s) : Keeps z (lockBeyond s g) := by
  unfold lockBeyond
  repeat' first
    | with_reducible assumption | with_reducible apply enterRecover_keeps | with_reducible refine Keeps.ite ?_ ?_
    | intro _ _ | dsimp only | split

theorem markerLost_keeps {z : State} (s : State) (g l : Nat) (hz : Keeps z s) : Keeps z (markerLost s g l) := by
  unfold markerLost
  repeat' first
    | with_reducible assumption | with_reducible apply flag_keeps | with_reducible apply report_keeps
    | with_reducible apply refLost_keeps | with_reducible apply lockBeyond_keeps
    | with_reducible refine Keeps.ite ?_ ?_ | dsimp only | split

theorem cdrLost_keeps {z : State} (s : State) (g l : Nat) (hz : Keeps z s) : Keeps z (cdrLost s g l) := by
  unfold cdrLost
  repeat' first
    | with_reducible assumption | with_reducible apply flag_keeps | with_reducible apply refLost_keeps
    | with_reducible refine Keeps.ite ?_ ?_ | dsimp only | split

theorem holdoverEnds_keeps {z : State} (s : State) (hz : Keeps z s) : Keeps z (holdoverEnds s) := by
  unfold holdoverEnds
  repeat' first
    | with_reducible assumption | with_reducible apply setRef_keeps | with_reducible apply setLoopTimed_keeps
    | simp only [↓Keeps.mk_iff] | with_reducible refine Keeps.ite ?_ ?_ | dsimp only | split

theorem spareStart_keeps {z : State} (s : State) (g l : Nat) (hz : Keeps z s) : Keeps z (spareStart s g l) := by
  unfold spareStart
  repeat' first
    | with_reducible assumption | with_reducible apply put_keeps | with_reducible apply setCtl_keeps
    | with_reducible apply sparingWidth_keeps | with_reducible refine Keeps.ite ?_ ?_ | dsimp only | split

theorem spareEnd_keeps {z : State} (s : State) (g phase : Nat) (hz : Keeps z s) : Keeps z (spareEnd s g phase) := by
  unfold spareEnd
  repeat' first
    | with_reducible assumption | with_reducible apply put_keeps | with_reducible apply flag_keeps
    | with_reducible apply setCtl_keeps | with_reducible apply raiseEvent_keeps
    | with_reducible apply sparingWidth_keeps | with_reducible refine Keeps.ite ?_ ?_
    | with_reducible refine Keeps.foldl _ _ ?_ ?_ | intro _ _ _ | intro _ _ | dsimp only | split

theorem spareSwitch_keeps {z : State} (s : State) (d : Dir) (g lane : Nat) (hz : Keeps z s) :
    Keeps z (spareSwitch s d g lane) := by
  unfold spareSwitch
  repeat' first
    | with_reducible assumption | with_reducible apply setDataLanes_keeps | with_reducible refine Keeps.ite ?_ ?_
    | intro _ _ | dsimp only | split

theorem eqRequest_keeps {z : State} (s : State) (g arg : Nat) (hz : Keeps z s) : Keeps z (eqRequest s g arg) := by
  unfold eqRequest
  repeat' first
    | with_reducible assumption | with_reducible apply wr_keeps | with_reducible apply setAck_keeps
    | with_reducible refine Keeps.ite ?_ ?_ | dsimp only | split

theorem setRxState_keeps {z : State} (s : State) (n : Nat) (hz : Keeps z s) : Keeps z (setRxState s n) := by
  unfold setRxState
  repeat' first
    | with_reducible assumption | with_reducible apply put_keeps | dsimp only

theorem setTxState_keeps {z : State} (s : State) (n : Nat) (hz : Keeps z s) : Keeps z (setTxState s n) := by
  unfold setTxState
  repeat' first
    | with_reducible assumption | with_reducible apply put_keeps | dsimp only

theorem takeCred_keeps {z : State} (s : State) (tc n : Nat) (hz : Keeps z s) : Keeps z (takeCred s tc n) := by
  unfold takeCred
  repeat' first
    | with_reducible assumption | with_reducible apply put_keeps | dsimp only

theorem noteWait_keeps {z : State} (s : State) (hz : Keeps z s) : Keeps z (noteWait s) := by
  unfold noteWait
  repeat' first
    | with_reducible assumption | simp only [↓Keeps.mk_iff] | with_reducible refine Keeps.ite ?_ ?_ | dsimp only
    | split

theorem returnCredits_keeps {z : State} (s : State) (tc hdr data : Nat) (hz : Keeps z s) :
    Keeps z (returnCredits s tc hdr data) := by
  unfold returnCredits
  repeat' first
    | with_reducible assumption | simp only [↓Keeps.mk_iff] | intro _ _ | dsimp only

theorem takeEntries_keeps {z : State} (s : State) (hz : Keeps z s) : Keeps z (takeEntries s).2 := by
  unfold takeEntries
  refine Keeps.foldl _ _ hz fun t p ht => ht.same rfl rfl rfl rfl rfl

theorem llInit_keeps {z : State} (s : State) (hz : Keeps z s) : Keeps z (llInit s) := by
  unfold llInit
  repeat' first
    | with_reducible assumption | with_reducible apply setRxState_keeps | with_reducible apply setTxState_keeps
    | with_reducible apply put_keeps | with_reducible apply wr_keeps | with_reducible apply inc_keeps
    | with_reducible apply noteWait_keeps | simp only [↓Keeps.mk_iff] | with_reducible refine Keeps.foldl _ _ ?_ ?_
    | intro _ _ _ | intro _ _ | dsimp only

theorem llReady_keeps {z : State} (s : State) (hz : Keeps z s) : Keeps z (llReady s) := by
  unfold llReady
  repeat' first
    | with_reducible assumption | with_reducible apply setRxState_keeps | with_reducible apply flag_keeps
    | with_reducible apply returnCredits_keeps | simp only [↓Keeps.mk_iff] | with_reducible refine Keeps.ite ?_ ?_
    | with_reducible refine Keeps.foldl _ _ ?_ ?_ | intro _ _ _ | intro _ _ | dsimp only | split

theorem initAdvance_keeps {z : State} (s : State) (hz : Keeps z s) : Keeps z (initAdvance s) := by
  unfold initAdvance
  repeat' first
    | with_reducible assumption | simp only [↓Keeps.mk_iff] | with_reducible refine Keeps.ite ?_ ?_ | dsimp only
    | split

theorem setStored_keeps {z : State} (s : State) (l : List Stored) (hz : Keeps z s) : Keeps z (setStored s l) := by
  unfold setStored
  repeat' first
    | with_reducible assumption | with_reducible apply put_keeps | simp only [↓Keeps.mk_iff] | dsimp only

theorem freeTo_keeps {z : State} (s : State) (a : BitVec 12) (hz : Keeps z s) : Keeps z (freeTo s a) := by
  unfold freeTo
  repeat' first
    | with_reducible assumption | with_reducible apply setStored_keeps | with_reducible apply setTxState_keeps
    | simp only [↓Keeps.mk_iff] | with_reducible refine Keeps.ite ?_ ?_ | intro _ _ | dsimp only | split

theorem ackReceived_keeps {z : State} (s : State) (nak : Bool) (a : BitVec 12) (hz : Keeps z s) :
    Keeps z (ackReceived s nak a) := by
  unfold ackReceived
  repeat' first
    | with_reducible assumption | with_reducible apply put_keeps | with_reducible apply inc_keeps
    | with_reducible apply freeTo_keeps | with_reducible apply startReplay_keeps
    | with_reducible refine Keeps.ite ?_ ?_ | intro _ _ | dsimp only | split

theorem protoError_keeps {z : State} (s : State) (cause : Nat) (hz : Keeps z s) : Keeps z (protoError s cause) := by
  unfold protoError
  repeat' first
    | with_reducible assumption | with_reducible apply setRxState_keeps | with_reducible apply setTxState_keeps
    | with_reducible apply put_keeps | with_reducible apply report_keeps | dsimp only

theorem takeHeader_keeps {z : State} (s : State) (h : Word64) (ext : Option (BitVec 384)) (hz : Keeps z s) :
    ∀ r, takeHeader s h ext = some r → Keeps z r := by
  intro r k
  unfold takeHeader at k
  dsimp only at k
  (repeat' split at k) <;> first
    | contradiction
    | rw [← Option.some.inj k]; exact hz.same rfl rfl rfl rfl rfl

theorem takeData_keeps {z : State} (s : State) (d : Slot) (hz : Keeps z s) :
    ∀ r, takeData s d = some r → Keeps z r := by
  intro r h
  unfold takeData at h
  split at h
  · cases h
  · cases h; exact hz.same rfl rfl rfl rfl rfl

theorem takeSlots_keeps {z : State} (c : Ctl0) (sl : Nat → Slot) (n i : Nat) (s : State) (hz : Keeps z s) :
    ∀ r, takeSlots c sl n i s = .ok r → Keeps z r := by
  have one : ∀ (h : Word64) (s t : State), Keeps z s → (if h = 0 then some s else s.takeHeader h none) = some t → Keeps z t := by
    intro h s t hs e
    split at e
    · cases e; exact hs
    · exact takeHeader_keeps s h none hs t e
  induction n using Nat.strongRecOn generalizing i s with
  | ind n ih =>
    intro r h
    cases n with
    | zero => cases h; exact hz
    | succ n =>
      unfold takeSlots at h
      split at h
      · exact ih n (by omega) _ _ hz r h
      · dsimp only at h
        split at h
        · cases h
        · rename_i t ht
          cases h1 : (if (sl i).extractLsb' 64 64 = 0 then some s else s.takeHeader ((sl i).extractLsb' 64 64) none) with
          | none => rw [h1] at ht; cases ht
          | some u =>
            rw [h1] at ht
            exact ih n (by omega) _ _ (one _ _ _ (one _ _ _ hz h1) ht) r h
      · split at h
        · cases h
        · rename_i t ht
          exact ih n (by omega) _ _ (takeData_keeps _ _ hz _ ht) r h
      · split at h
        · rename_i m
          split at h
          · split at h
            · cases h
            · rename_i t ht
              exact ih m (by omega) _ _ (takeHeader_keeps _ _ _ hz _ ht) r h
          · cases h
        · cases h

theorem takeCredit_keeps {z : State} (e : BitVec 12) (s : State) (hz : Keeps z s) :
    ∀ r, takeCredit e s = .ok r → Keeps z r := by
  intro r h
  unfold takeCredit at h
  dsimp only at h
  split at h
  · rw [← Except.ok.inj h]; exact hz
  · (repeat' split at h) <;> first
      | contradiction
      | rw [← Except.ok.inj h]; exact put_keeps _ _ _ _ (hz.same rfl rfl rfl rfl rfl)

theorem takeCredits_keeps {z : State} (c : Ctl0) (s : State) (hz : Keeps z s) :
    ∀ r, takeCredits c s = .ok r → Keeps z r := by
  have go : ∀ (l : List Nat) (x : Except Nat State), (∀ r, x = .ok r → Keeps z r) → ∀ r,
      l.foldl (fun r i => r.bind (takeCredit (c.cred.extractLsb' (24 - 12 * i) 12))) x = .ok r → Keeps z r := by
    intro l
    induction l with
    | nil => intro x hx r h; exact hx r h
    | cons i l ih =>
      intro x hx r h
      rw [List.foldl_cons] at h
      refine ih _ ?_ r h
      intro t ht
      cases x with
      | error e => cases ht
      | ok u => exact takeCredit_keeps _ u (hx u rfl) t ht
  exact go _ _ (fun r h => by cases h; exact hz)

theorem countSlots_keeps {z : State} (s : State) (d : Dir) (all used : Nat) (hz : Keeps z s) :
    Keeps z (countSlots s d all used) := by
  unfold countSlots
  repeat' first
    | with_reducible assumption | simp only [↓Keeps.mk_iff] | intro _ _ | dsimp only

theorem acceptFlit_keeps {z : State} (s : State) (c : Ctl0) (sl : Nat → Slot) (hz : Keeps z s) :
    Keeps z (acceptFlit s c sl) := by
  unfold acceptFlit
  cases h : takeSlots c sl 13 1 s with
  | error e => exact protoError_keeps _ _ hz
  | ok t =>
    dsimp only [Except.bind]
    have kt := takeSlots_keeps c sl 13 1 s hz t h
    cases h2 : takeCredits c t with
    | error e => exact protoError_keeps _ _ hz
    | ok u =>
      refine noteWait_keeps _ (countSlots_keeps _ _ _ _ (inc64_keeps _ _ _ (Keeps.same
        (put_keeps _ _ _ _ (setRxState_keeps _ _ (takeCredits_keeps c t kt u h2))) rfl rfl rfl rfl rfl)))

theorem countCorr_keeps {z : State} (s : State) (f : Nat) (bytes : List Nat) (hz : Keeps z s) :
    Keeps z (countCorr s f bytes) := by
  unfold countCorr
  repeat' first
    | with_reducible assumption | with_reducible apply inc_keeps | with_reducible apply report_keeps
    | with_reducible refine Keeps.foldl _ _ ?_ ?_ | intro _ _ _ | intro _ _ | dsimp only | split

theorem rxAnnounced_keeps {z : State} (s : State) (step count : Nat) (hz : Keeps z s) :
    Keeps z (rxAnnounced s step count) := by
  unfold rxAnnounced
  repeat' first
    | with_reducible assumption | simp only [↓Keeps.mk_iff] | with_reducible refine Keeps.ite ?_ ?_ | dsimp only
    | split

theorem linkFields_keeps {z : State} (s : State) (c : Ctl0) (hz : Keeps z s) : Keeps z (linkFields s c) := by
  unfold linkFields
  repeat' first
    | with_reducible assumption | with_reducible apply ackReceived_keeps | with_reducible apply rxAnnounced_keeps
    | with_reducible apply put_keeps | with_reducible apply decideWidth_keeps | with_reducible refine Keeps.ite ?_ ?_
    | dsimp only | split

theorem rxSwitchDue_keeps {z : State} (s : State) (n : Nat) (hz : Keeps z s) : Keeps z (rxSwitchDue s n) := by
  unfold rxSwitchDue
  repeat' first
    | with_reducible assumption | with_reducible apply enterRecover_keeps | with_reducible apply takeWidth_keeps
    | with_reducible apply flag_keeps | with_reducible apply inc_keeps | with_reducible apply decideWidth_keeps
    | simp only [↓Keeps.mk_iff] | with_reducible refine Keeps.ite ?_ ?_ | intro _ _ | dsimp only | split

theorem rxFrameEnd_keeps {z : State} (s : State) (hz : Keeps z s) : Keeps z (rxFrameEnd s) := by
  unfold rxFrameEnd
  repeat' first
    | with_reducible assumption | with_reducible apply rxSwitchDue_keeps | simp only [↓Keeps.mk_iff]
    | with_reducible refine Keeps.ite ?_ ?_ | dsimp only | split

theorem badFlit_keeps {z : State} (s : State) (hz : Keeps z s) : Keeps z (badFlit s) := by
  unfold badFlit
  repeat' first
    | with_reducible assumption | with_reducible apply setRxState_keeps | with_reducible apply inc_keeps
    | with_reducible apply report_keeps | with_reducible refine Keeps.ite ?_ ?_ | dsimp only | split

theorem goodFlit_keeps {z : State} (s : State) (c : Ctl0) (sl : Nat → Slot) (hz : Keeps z s) :
    Keeps z (goodFlit s c sl) := by
  unfold goodFlit
  repeat' first
    | with_reducible assumption | with_reducible apply protoError_keeps | with_reducible apply acceptFlit_keeps
    | with_reducible apply inc_keeps | with_reducible refine Keeps.ite ?_ ?_ | dsimp only | split

theorem initFlit_keeps {z : State} (s : State) (c : Ctl0) (sl : Nat → Slot) (hz : Keeps z s) :
    Keeps z (initFlit s c sl) := by
  unfold initFlit
  repeat' first
    | with_reducible assumption | with_reducible apply llInit_keeps | with_reducible apply initAdvance_keeps
    | with_reducible apply llReady_keeps | with_reducible apply goodFlit_keeps | simp only [↓Keeps.mk_iff]
    | with_reducible refine Keeps.ite ?_ ?_ | dsimp only | split

theorem undoLane_keeps {z : State} (s : State) (g l : Nat) (syms : List Nat) (hz : Keeps z s) :
    Keeps z (undoLane s g l syms).2 := by
  unfold undoLane
  repeat' first
    | with_reducible assumption | simp only [↓Keeps.mk_iff] | with_reducible refine Keeps.ite ?_ ?_ | intro _ _
    | dsimp only | split

theorem undoFlit_keeps {z : State} (s : State) (f : Nat) (sym : BitVec 1920) (hz : Keeps z s) :
    Keeps z (undoFlit s f sym).2 := by
  unfold undoFlit
  repeat' first
    | with_reducible assumption | with_reducible apply undoLane_keeps | with_reducible refine Keeps.foldl _ _ ?_ ?_
    | with_reducible refine Keeps.foldlSnd _ _ ?_ ?_ | with_reducible refine Keeps.foldlFst _ _ ?_ ?_ | intro _ _ _
    | intro _ _ | dsimp only

theorem takeFlit_keeps {z : State} (s : State) (flit : BitVec 1920) (hz : Keeps z s) : Keeps z (takeFlit s flit) := by
  unfold takeFlit
  repeat' first
    | with_reducible assumption | with_reducible apply inc_keeps | with_reducible apply badFlit_keeps
    | with_reducible apply countCorr_keeps | with_reducible apply countSlots_keeps
    | with_reducible apply linkFields_keeps | with_reducible apply initFlit_keeps
    | with_reducible refine Keeps.ite ?_ ?_ | dsimp only | split

theorem nextFlit_keeps {z : State} (s : State) (hz : Keeps z s) : Keeps z (nextFlit s) := by
  unfold nextFlit
  repeat' first
    | with_reducible assumption | with_reducible apply rxFrameEnd_keeps | simp only [↓Keeps.mk_iff]
    | with_reducible refine Keeps.ite ?_ ?_ | dsimp only | split

theorem flitReceive_keeps {z : State} (s : State) (sym : BitVec 1920) (hz : Keeps z s) :
    Keeps z (flitReceive s sym) := by
  unfold flitReceive
  repeat' first
    | with_reducible assumption | with_reducible apply undoFlit_keeps | with_reducible apply takeFlit_keeps
    | with_reducible apply nextFlit_keeps | with_reducible refine Keeps.ite ?_ ?_ | dsimp only | split

theorem buildFlit_keeps {z : State} (s : State) (hz : Keeps z s) : Keeps z (buildFlit s).2 := by
  unfold buildFlit
  have he := takeEntries_keeps s hz
  repeat' first
    | with_reducible assumption
    | with_reducible apply initAdvance_keeps
    | with_reducible apply countReplay_keeps
    | with_reducible apply setTxState_keeps
    | with_reducible apply inc_keeps
    | with_reducible apply put_keeps
    | with_reducible apply countSlots_keeps
    | with_reducible apply setStored_keeps
    | with_reducible apply noteWait_keeps
    | with_reducible apply takeCred_keeps
    | simp only [↓Keeps.mk_iff]
    | with_reducible refine Keeps.ite ?_ ?_
    | with_reducible refine Keeps.foldl _ _ ?_ ?_
    | with_reducible refine Keeps.foldlSnd _ _ ?_ ?_
    | intro _ _ _
    | intro _ _
    | dsimp only
    | split

theorem buildFlits_keeps {z : State} (n : Nat) (s : State) (hz : Keeps z s) : Keeps z (buildFlits n s).2 := by
  induction n generalizing s with
  | zero => exact hz
  | succ n ih => exact ih _ (buildFlit_keeps s hz)

theorem sendLane_keeps {z : State} (bytes : List Nat) (w : Nat) (s : State) (k g l : Nat) (hz : Keeps z s) :
    Keeps z (sendLane bytes w s k g l) := by
  unfold sendLane
  repeat' first
    | with_reducible assumption | with_reducible apply laneSyms_keeps | with_reducible apply drive_keeps | intro _ _
    | dsimp only

theorem sendLanes_keeps {z : State} (s : State) (flits : List (BitVec 1920)) (hz : Keeps z s) :
    Keeps z (sendLanes s flits) := by
  unfold sendLanes
  repeat' first
    | with_reducible assumption | with_reducible apply sendLane_keeps | with_reducible refine Keeps.foldl _ _ ?_ ?_
    | intro _ _ _ | intro _ _ | dsimp only

theorem groupMarker_keeps {z : State} (s : State) (g c : Nat) (lanes : List Nat) (hz : Keeps z s) :
    Keeps z (groupMarker s g c lanes) := by
  unfold groupMarker
  repeat' first
    | with_reducible assumption | with_reducible apply drive_keeps | simp only [↓Keeps.mk_iff]
    | with_reducible refine Keeps.ite ?_ ?_ | with_reducible refine Keeps.foldl _ _ ?_ ?_ | intro _ _ _ | intro _ _
    | dsimp only | split

theorem sendMarkers_keeps {z : State} (s : State) (hz : Keeps z s) : Keeps z (sendMarkers s) := by
  unfold sendMarkers
  repeat' first
    | with_reducible assumption | with_reducible apply groupMarker_keeps | simp only [↓Keeps.mk_iff]
    | with_reducible refine Keeps.foldl _ _ ?_ ?_ | intro _ _ _ | intro _ _ | dsimp only

theorem txWidthFrame_keeps {z : State} (s : State) (hz : Keeps z s) : Keeps z (txWidthFrame s) := by
  unfold txWidthFrame
  repeat' first
    | with_reducible assumption | with_reducible apply dropChange_keeps | with_reducible apply enterRecover_keeps
    | with_reducible apply takeWidth_keeps | with_reducible apply flag_keeps | with_reducible apply inc_keeps
    | with_reducible apply decideWidth_keeps | simp only [↓Keeps.mk_iff] | with_reducible refine Keeps.ite ?_ ?_
    | intro _ _ | dsimp only | split

theorem noteFrame_keeps {z : State} (s : State) (fl : List (BitVec 1920)) (ui : Nat) (hz : Keeps z s) :
    Keeps z (noteFrame s fl ui) := by
  unfold noteFrame
  repeat' first
    | with_reducible assumption | simp only [↓Keeps.mk_iff] | dsimp only

theorem frameEnd_keeps {z : State} (s : State) (hz : Keeps z s) : Keeps z (frameEnd s) := by
  unfold frameEnd
  repeat' first
    | with_reducible assumption | with_reducible apply txWidthFrame_keeps | with_reducible apply sendMarkers_keeps
    | with_reducible refine Keeps.ite ?_ ?_ | dsimp only | split

theorem clearOut_keeps {z : State} (s : State) (hz : Keeps z s) : Keeps z (clearOut s) := by
  unfold clearOut
  repeat' first
    | with_reducible assumption | simp only [↓Keeps.mk_iff] | dsimp only

theorem sendFrame_keeps {z : State} (r : List (BitVec 1920) × State) (ui : Nat) (hz : Keeps z r.2) :
    Keeps z (sendFrame r ui) :=
  frameEnd_keeps _ (noteFrame_keeps _ _ _ (sendLanes_keeps _ _ (clearOut_keeps _ (countSlots_keeps _ _ _ _ hz))))

theorem trainCtl_keeps {z : State} (s : State) (g : Nat) (hz : Keeps z s) : Keeps z (trainCtl s g).2 := by
  unfold trainCtl
  repeat' first
    | with_reducible assumption | with_reducible apply setAck_keeps | with_reducible apply freeWord_keeps
    | with_reducible refine Keeps.ite ?_ ?_ | intro _ _ | dsimp only | split

theorem prbsOf_keeps {z : State} (s : State) (key sel n : Nat) (hz : Keeps z s) : Keeps z (prbsOf s key sel n).2 := by
  unfold prbsOf
  repeat' first
    | with_reducible assumption | simp only [↓Keeps.mk_iff] | intro _ _ | dsimp only

theorem trainLane_keeps {z : State} (c : Nat) (s : State) (g l : Nat) (hz : Keeps z s) :
    Keeps z (trainLane c s g l) := by
  unfold trainLane
  repeat' first
    | with_reducible assumption | with_reducible apply prbsOf_keeps | with_reducible apply laneSyms_keeps
    | with_reducible apply emit_keeps | with_reducible refine Keeps.ite ?_ ?_ | intro _ _ | dsimp only | split

theorem trainPeriod_keeps {z : State} (s : State) (hz : Keeps z s) : Keeps z (trainPeriod s) := by
  unfold trainPeriod
  repeat' first
    | with_reducible assumption | with_reducible apply trainCtl_keeps | with_reducible apply trainLane_keeps
    | simp only [↓Keeps.mk_iff] | with_reducible refine Keeps.ite ?_ ?_ | with_reducible refine Keeps.foldl _ _ ?_ ?_
    | intro _ _ _ | intro _ _ | dsimp only | split

theorem patternSyms_keeps {z : State} (s : State) (g l n : Nat) (hz : Keeps z s) :
    Keeps z (patternSyms s g l n).2 := by
  unfold patternSyms
  repeat' first
    | with_reducible assumption | with_reducible apply prbsOf_keeps | simp only [↓Keeps.mk_iff]
    | with_reducible refine Keeps.ite ?_ ?_ | intro _ _ | dsimp only | split

theorem check_keeps {z : State} (s : State) (g l : Nat) (syms : List Nat) (hz : Keeps z s) :
    Keeps z (check s g l syms) := by
  unfold check
  repeat' first
    | with_reducible assumption | with_reducible apply inc64_keeps | with_reducible apply flag_keeps
    | simp only [↓Keeps.mk_iff] | with_reducible refine Keeps.ite ?_ ?_ | intro _ _ | dsimp only | split

theorem testPeriod_keeps {z : State} (test : List (Fin 8 × Fin 10 × List (BitVec 2))) (ui : Nat) (s : State) (g l : Nat) (hz : Keeps z s) :
    Keeps z (testPeriod test ui s g l) := by
  unfold testPeriod
  repeat' first
    | with_reducible assumption | with_reducible apply quiet_keeps | with_reducible apply emit_keeps
    | with_reducible apply patternSyms_keeps | with_reducible apply check_keeps
    | with_reducible refine Keeps.ite ?_ ?_ | intro _ _ | dsimp only | split

theorem testLanes_keeps {z : State} (s : State) (test : List (Fin 8 × Fin 10 × List (BitVec 2))) (ui : Nat) (hz : Keeps z s) :
    Keeps z (testLanes s test ui) := by
  unfold testLanes
  repeat' first
    | with_reducible assumption | with_reducible apply testPeriod_keeps | with_reducible refine Keeps.foldl _ _ ?_ ?_
    | intro _ _ _ | intro _ _ | dsimp only

theorem frameTransmit_keeps {z : State} (s : State) (test : List (Fin 8 × Fin 10 × List (BitVec 2))) (hz : Keeps z s) :
    Keeps z (frameTransmit s test) := by
  unfold frameTransmit
  repeat' first
    | with_reducible assumption | with_reducible apply sendFrame_keeps | with_reducible apply buildFlits_keeps
    | with_reducible apply testLanes_keeps | with_reducible apply enterRecover_keeps
    | with_reducible apply clearOut_keeps | with_reducible apply trainPeriod_keeps
    | with_reducible refine Keeps.ite ?_ ?_ | dsimp only | split

theorem ackTimeout_keeps {z : State} (s : State) (hz : Keeps z s) : Keeps z (ackTimeout s) := by
  unfold ackTimeout
  repeat' first
    | with_reducible assumption | with_reducible apply startReplay_keeps | with_reducible refine Keeps.ite ?_ ?_
    | dsimp only | split

theorem autoWindow_keeps {z : State} (s : State) (d : Dir) (hz : Keeps z s) : Keeps z (autoWindow s d) := by
  unfold autoWindow
  repeat' first
    | with_reducible assumption | with_reducible apply decideWidth_keeps | simp only [↓Keeps.mk_iff]
    | with_reducible refine Keeps.ite ?_ ?_ | intro _ _ | dsimp only | split

theorem sample_keeps {z : State} (s : State) (id : Nat) (f : Sample → Sample) (hz : Keeps z s) :
    Keeps z (sample s id f) := by
  unfold sample
  repeat' first
    | with_reducible assumption | simp only [↓Keeps.mk_iff] | with_reducible refine Keeps.ite ?_ ?_ | intro _ _
    | dsimp only | split

theorem stamp_keeps {z : State} (s : State) (id n : Nat) (hz : Keeps z s) : Keeps z (stamp s id n) := by
  unfold stamp
  repeat' first
    | with_reducible assumption | with_reducible apply sample_keeps | simp only [↓Keeps.mk_iff]
    | with_reducible refine Keeps.ite ?_ ?_ | intro _ _ | dsimp only | split

theorem nextInterval_keeps {z : State} (s : State) (hz : Keeps z s) : Keeps z (nextInterval s) := by
  unfold nextInterval
  repeat' first
    | with_reducible assumption | simp only [↓Keeps.mk_iff] | with_reducible refine Keeps.ite ?_ ?_ | dsimp only
    | split

theorem sampleTag_keeps {z : State} (s : State) (id : Nat) (h ingress : Word64) (at_ : Nat) (hz : Keeps z s) :
    Keeps z (sampleTag s id h ingress at_) := by
  unfold sampleTag
  repeat' first
    | with_reducible assumption | with_reducible apply nextInterval_keeps | with_reducible apply inc_keeps
    | simp only [↓Keeps.mk_iff] | with_reducible refine Keeps.ite ?_ ?_ | dsimp only | split

theorem sampleWhere_keeps {z : State} (s : State) (id bits : Nat) (hz : Keeps z s) :
    Keeps z (sampleWhere s id bits) := by
  unfold sampleWhere
  repeat' first
    | with_reducible assumption | with_reducible apply sample_keeps | simp only [↓Keeps.mk_iff] | intro _ _
    | dsimp only

theorem samplePass_keeps {z : State} (s : State) (id p : Nat) (hz : Keeps z s) : Keeps z (samplePass s id p) := by
  unfold samplePass
  repeat' first
    | with_reducible assumption | with_reducible apply stamp_keeps | with_reducible apply sample_keeps
    | simp only [↓Keeps.mk_iff] | intro _ _ | dsimp only

theorem sampleUnit_keeps {z : State} (s : State) (id f : Nat) (hz : Keeps z s) : Keeps z (sampleUnit s id f) := by
  unfold sampleUnit
  repeat' first
    | with_reducible assumption | with_reducible apply sample_keeps | simp only [↓Keeps.mk_iff] | intro _ _
    | dsimp only

theorem sampleDone_keeps {z : State} (s : State) (id : Nat) (hz : Keeps z s) : Keeps z (sampleDone s id) := by
  unfold sampleDone
  repeat' first
    | with_reducible assumption | with_reducible apply stamp_keeps | with_reducible apply inc_keeps
    | with_reducible apply put_keeps | with_reducible apply inc64_keeps | simp only [↓Keeps.mk_iff]
    | with_reducible refine Keeps.ite ?_ ?_ | intro _ _ | dsimp only | split

theorem sampleLost_keeps {z : State} (s : State) (id : Nat) (hz : Keeps z s) : Keeps z (sampleLost s id) := by
  unfold sampleLost
  repeat' first
    | with_reducible assumption | with_reducible apply inc_keeps | simp only [↓Keeps.mk_iff]
    | with_reducible refine Keeps.ite ?_ ?_ | intro _ _ | dsimp only | split

theorem samplesLeave_keeps {z : State} (s t : State) (hz : Keeps z t) : Keeps z (samplesLeave s t) := by
  unfold samplesLeave
  exact Keeps.foldl _ _ hz fun u i hu => sampleDone_keeps u i hu

end State

end Sys2Proof.Machine
end

