-- ==== Sys2Proof/Laws/KeepsXact.lean ====
section
/-! SUPPORT. What every operation of the stack keeps: the Bridle, migrations, requests and engines. -/

namespace Sys2Proof.Machine

namespace State

theorem chargeMove_keeps {z : State} (s : State) (evac : Bool) (n : Nat) (hz : Keeps z s) :
    Keeps z (chargeMove s evac n) := by
  unfold chargeMove
  repeat' first
    | with_reducible assumption | simp only [↓Keeps.mk_iff] | with_reducible refine Keeps.ite ?_ ?_ | dsimp only
    | split

theorem chargeBg_keeps {z : State} (s : State) (n : Nat) (hz : Keeps z s) : Keeps z (chargeBg s n) := by
  unfold chargeBg
  repeat' first
    | with_reducible assumption | simp only [↓Keeps.mk_iff] | dsimp only

theorem chargePch_keeps {z : State} (s : State) (f : Nat) (hz : Keeps z s) : Keeps z (chargePch s f) := by
  unfold chargePch
  repeat' first
    | with_reducible assumption | simp only [↓Keeps.mk_iff] | with_reducible refine Keeps.ite ?_ ?_ | intro _ _
    | dsimp only | split

theorem zeroStart_keeps {z : State} (s : State) (hz : Keeps z s) : Keeps z (zeroStart s) := by
  unfold zeroStart
  repeat' first
    | with_reducible assumption | with_reducible apply chargeMove_keeps | simp only [↓Keeps.mk_iff]
    | with_reducible refine Keeps.ite ?_ ?_ | dsimp only | split

theorem setRemain_keeps {z : State} (s : State) (m : Nat) (v : Int) (hz : Keeps z s) : Keeps z (setRemain s m v) := by
  unfold setRemain
  repeat' first
    | with_reducible assumption | simp only [↓Keeps.mk_iff] | intro _ _ | dsimp only

theorem latchMaster_keeps {z : State} (s : State) (m : Nat) (hz : Keeps z s) : Keeps z (latchMaster s m) := by
  unfold latchMaster
  repeat' first
    | with_reducible assumption | simp only [↓Keeps.mk_iff] | intro _ _ | dsimp only

theorem windowStart_keeps {z : State} (s : State) (m : Nat) (hz : Keeps z s) : Keeps z (windowStart s m) := by
  unfold windowStart
  repeat' first
    | with_reducible assumption | with_reducible apply latchMaster_keeps | with_reducible apply setRemain_keeps
    | with_reducible refine Keeps.ite ?_ ?_ | dsimp only | split

theorem raisePrio_keeps {z : State} (s : State) (hz : Keeps z s) : Keeps z (raisePrio s) := by
  unfold raisePrio
  repeat' first
    | with_reducible assumption | simp only [↓Keeps.mk_iff] | with_reducible refine Keeps.ite ?_ ?_ | intro _ _
    | dsimp only | split

theorem setLevel_keeps {z : State} (s : State) (t : Nat) (hz : Keeps z s) : Keeps z (setLevel s t) := by
  unfold setLevel
  repeat' first
    | with_reducible assumption | with_reducible apply put_keeps | with_reducible apply setBit_keeps
    | with_reducible refine Keeps.ite ?_ ?_ | intro _ _ | dsimp only | split

theorem latencyDone_keeps {z : State} (s : State) (r : Req) (hz : Keeps z s) : Keeps z (latencyDone s r) := by
  unfold latencyDone
  repeat' first
    | with_reducible assumption | with_reducible apply inc_keeps | with_reducible apply setLevel_keeps
    | with_reducible apply raisePrio_keeps | simp only [↓Keeps.mk_iff] | with_reducible refine Keeps.ite ?_ ?_
    | intro _ _ | dsimp only | split

theorem charge_keeps {z : State} (s : State) (h : Word64) (bytes : Nat) (excess : Bool) (hz : Keeps z s) :
    Keeps z (charge s h bytes excess) := by
  unfold charge
  repeat' first
    | with_reducible assumption | with_reducible apply setRemain_keeps | simp only [↓Keeps.mk_iff]
    | with_reducible refine Keeps.ite ?_ ?_ | intro _ _ | dsimp only | split

theorem updReq_keeps {z : State} (s : State) (id : Nat) (f : Req → Req) (hz : Keeps z s) :
    Keeps z (updReq s id f) := by
  unfold updReq
  repeat' first
    | with_reducible assumption | simp only [↓Keeps.mk_iff] | with_reducible refine Keeps.ite ?_ ?_ | intro _ _
    | dsimp only | split

theorem releaseReq_keeps {z : State} (s : State) (r : Req) (hz : Keeps z s) : Keeps z (releaseReq s r) := by
  unfold releaseReq
  repeat' first
    | with_reducible assumption | with_reducible apply charge_keeps | with_reducible apply updReq_keeps
    | with_reducible apply samplePass_keeps | simp only [↓Keeps.mk_iff] | intro _ _ | dsimp only

theorem releaseUpTo_keeps {z : State} (n : Nat) (s : State) (hz : Keeps z s) : Keeps z (releaseUpTo n s) := by
  induction n generalizing s with
  | zero => exact hz
  | succ n ih =>
    unfold releaseUpTo
    split
    · exact hz
    · exact ih _ (releaseReq_keeps _ _ hz)

theorem holdRelease_keeps {z : State} (s : State) (hz : Keeps z s) : Keeps z (holdRelease s) := by
  unfold holdRelease
  repeat' first
    | with_reducible assumption | with_reducible apply releaseUpTo_keeps | with_reducible apply raisePrio_keeps
    | with_reducible refine Keeps.ite ?_ ?_ | dsimp only | split

theorem holdLimit_keeps {z : State} (s : State) (tag : Nat) (hz : Keeps z s) : Keeps z (holdLimit s tag) := by
  unfold holdLimit
  repeat' first
    | with_reducible assumption | with_reducible apply releaseReq_keeps | with_reducible apply inc_keeps
    | with_reducible refine Keeps.ite ?_ ?_ | intro _ _ | dsimp only | split

theorem pinAssert_keeps {z : State} (s : State) (p : Nat) (hz : Keeps z s) : Keeps z (pinAssert s p) := by
  unfold pinAssert
  repeat' first
    | with_reducible assumption | with_reducible apply setBit_keeps | with_reducible apply inc_keeps
    | with_reducible apply setRemain_keeps | with_reducible apply raisePrio_keeps
    | with_reducible refine Keeps.ite ?_ ?_ | with_reducible refine Keeps.foldl _ _ ?_ ?_ | intro _ _ _ | intro _ _
    | dsimp only | split

theorem pinDeassert_keeps {z : State} (s : State) (p : Nat) (hz : Keeps z s) : Keeps z (pinDeassert s p) := by
  unfold pinDeassert
  repeat' first
    | with_reducible assumption | with_reducible apply setBit_keeps | dsimp only

theorem pinStick_keeps {z : State} (s : State) (p : Nat) (hz : Keeps z s) : Keeps z (pinStick s p) := by
  unfold pinStick
  repeat' first
    | with_reducible assumption | with_reducible apply setBit_keeps | with_reducible apply inc_keeps
    | with_reducible refine Keeps.ite ?_ ?_ | dsimp only | split

theorem pinEnable_keeps {z : State} (s : State) (hz : Keeps z s) : Keeps z (pinEnable s) := by
  unfold pinEnable
  repeat' first
    | with_reducible assumption | with_reducible apply pinAssert_keeps | with_reducible apply setBit_keeps
    | with_reducible refine Keeps.ite ?_ ?_ | with_reducible refine Keeps.foldl _ _ ?_ ?_ | intro _ _ _ | intro _ _
    | dsimp only | split

theorem honourOne_keeps {z : State} (p : Nat × State) (t : Nat) (hz : Keeps z p.2) : Keeps z (honourOne p t).2 :=
  put_keeps _ _ _ _ (put_keeps _ _ _ _ hz)

theorem honourAll_keeps {z : State} (l : List Nat) (p : Nat × State) (hz : Keeps z p.2) :
    Keeps z (l.foldl honourOne p).2 := by
  induction l generalizing p with
  | nil => exact hz
  | cons t l ih => exact ih _ (honourOne_keeps p t hz)

theorem delivCompute_keeps {z : State} (s : State) (hz : Keeps z s) : Keeps z (delivCompute s) := by
  unfold delivCompute
  repeat' first
    | with_reducible assumption
    | with_reducible apply put_keeps
    | with_reducible apply inc_keeps
    | with_reducible apply flag_keeps
    | with_reducible apply honourAll_keeps
    | simp only [↓Keeps.mk_iff]
    | with_reducible refine Keeps.ite ?_ ?_
    | with_reducible refine Keeps.foldl _ _ ?_ ?_
    | with_reducible refine Keeps.foldlSnd _ _ ?_ ?_
    | intro _ _ _
    | intro _ _
    | dsimp only
    | split

theorem guarWindowStart_keeps {z : State} (s : State) (hz : Keeps z s) : Keeps z (guarWindowStart s) := by
  unfold guarWindowStart
  repeat' first
    | with_reducible assumption | with_reducible apply put_keeps | with_reducible apply fill_keeps
    | simp only [↓Keeps.mk_iff] | with_reducible refine Keeps.ite ?_ ?_ | with_reducible refine Keeps.foldl _ _ ?_ ?_
    | intro _ _ _ | intro _ _ | dsimp only | split

theorem abortMig_keeps {z : State} (s : State) (k : Nat) (requeue : Bool) (hz : Keeps z s) :
    Keeps z (abortMig s k requeue) := by
  unfold abortMig
  repeat' first
    | with_reducible assumption | with_reducible apply setMig_keeps | with_reducible apply setEntry_keeps
    | with_reducible apply queueZero_keeps | with_reducible apply inc_keeps | simp only [↓Keeps.mk_iff]
    | with_reducible refine Keeps.ite ?_ ?_ | intro _ _ | dsimp only | split

theorem abortParcel_keeps {z : State} (s : State) (n : Nat) (requeue : Bool) (hz : Keeps z s) :
    Keeps z (abortParcel s n requeue) := by
  unfold abortParcel
  repeat' first
    | with_reducible assumption | with_reducible apply abortMig_keeps | dsimp only | split

theorem dropData_keeps {z : State} (s : State) (n : Nat) (hz : Keeps z s) : Keeps z (dropData s n) := by
  unfold dropData
  repeat' first
    | with_reducible assumption | with_reducible apply dropParcel_keeps | with_reducible apply wdbDrop_keeps
    | with_reducible apply queueZero_keeps | with_reducible refine Keeps.ite ?_ ?_ | dsimp only | split

theorem withdraw_keeps {z : State} (s : State) (n : Nat) (hz : Keeps z s) : Keeps z (withdraw s n) := by
  unfold withdraw
  repeat' first
    | with_reducible assumption | with_reducible apply abortParcel_keeps | with_reducible apply dropData_keeps
    | with_reducible apply setEntry_keeps | simp only [↓Keeps.mk_iff] | intro _ _ | dsimp only

theorem release_keeps {z : State} (s : State) (n : Nat) (hz : Keeps z s) : Keeps z (release s n) := by
  unfold release
  repeat' first
    | with_reducible assumption | with_reducible apply abortParcel_keeps | with_reducible apply dropData_keeps
    | with_reducible apply setEntry_keeps | simp only [↓Keeps.mk_iff] | dsimp only

theorem reinstate_keeps {z : State} (s : State) (first count : Nat) (hz : Keeps z s) :
    Keeps z (reinstate s first count) := by
  unfold reinstate
  repeat' first
    | with_reducible assumption | with_reducible apply setEntry_keeps | with_reducible refine Keeps.ite ?_ ?_
    | with_reducible refine Keeps.foldl _ _ ?_ ?_ | intro _ _ _ | intro _ _ | dsimp only | split

/-- What an allocation answers keeps. -/
theorem allocate__keeps {z : State} (s : State) (n : Nat) (hz : Keeps z s) :
    (∀ t, allocate_ s n = .placed t → Keeps z t) ∧ (∀ t, allocate_ s n = .withdrawn t → Keeps z t) := by
  constructor <;> intro t h <;> unfold allocate_ at h <;> split at h
  · cases h
    exact setEntry_keeps _ _ _ _ (setHeat_keeps _ _ _ (setFrame_keeps _ _ _ hz))
  · split at h <;> cases h
  · cases h
  · split at h <;> cases h
    exact withdraw_keeps _ _ hz

theorem startMig_keeps {z : State} (s : State) (k n dst : Nat) (evac : Bool) (keel : Bool) (hz : Keeps z s) :
    Keeps z (startMig s k n dst evac keel) := by
  unfold startMig
  repeat' first
    | with_reducible assumption | with_reducible apply setFrame_keeps | with_reducible apply setEntry_keeps
    | with_reducible apply setMig_keeps | with_reducible apply chargeMove_keeps | with_reducible apply chargePch_keeps
    | simp only [↓Keeps.mk_iff] | with_reducible refine Keeps.ite ?_ ?_ | dsimp only | split

theorem startEvac_keeps {z : State} (s : State) (k n : Nat) (dest : Option Nat) (hz : Keeps z s) :
    Keeps z (startEvac s k n dest) := by
  unfold startEvac
  repeat' first
    | with_reducible assumption | with_reducible apply startMig_keeps | simp only [↓Keeps.mk_iff] | dsimp only | split

theorem evacOne_keeps {z : State} (s : State) (k n : Nat) (hz : Keeps z s) : Keeps z (evacOne s k n) := by
  unfold evacOne
  repeat' first
    | with_reducible assumption | with_reducible apply startEvac_keeps | dsimp only

theorem countStart_keeps {z : State} (s : State) (hz : Keeps z s) : Keeps z (countStart s) := by
  unfold countStart
  repeat' first
    | with_reducible assumption | simp only [↓Keeps.mk_iff] | with_reducible refine Keeps.ite ?_ ?_ | dsimp only
    | split

theorem startMove_keeps {z : State} (s : State) (k n : Nat) (thermal : Bool) (hz : Keeps z s) :
    Keeps z (startMove s k n thermal) := by
  unfold startMove
  repeat' first
    | with_reducible assumption | with_reducible apply startMig_keeps | with_reducible apply countStart_keeps
    | with_reducible refine Keeps.ite ?_ ?_ | dsimp only | split

theorem moveOne_keeps {z : State} (s : State) (k : Nat) (hz : Keeps z s) : Keeps z (moveOne s k) := by
  unfold moveOne
  repeat' first
    | with_reducible assumption | with_reducible apply startMove_keeps | simp only [↓Keeps.mk_iff]
    | with_reducible refine Keeps.ite ?_ ?_ | dsimp only | split

theorem startOne_keeps {z : State} (s : State) (hz : Keeps z s) : Keeps z (startOne s) := by
  unfold startOne
  repeat' first
    | with_reducible assumption | with_reducible apply evacOne_keeps | with_reducible apply moveOne_keeps
    | simp only [↓Keeps.mk_iff] | with_reducible refine Keeps.ite ?_ ?_ | dsimp only | split

theorem pump_keeps {z : State} (n : Nat) (s : State) (hz : Keeps z s) : Keeps z (pump n s) := by
  induction n generalizing s with
  | zero => exact hz
  | succ n ih => exact ih _ (startOne_keeps s hz)

theorem latchKnobs_keeps {z : State} (s : State) (hz : Keeps z s) : Keeps z (latchKnobs s) := by
  unfold latchKnobs
  repeat' first
    | with_reducible assumption | simp only [↓Keeps.mk_iff] | intro _ _ | dsimp only

theorem sumHeat_keeps {z : State} (s : State) (hz : Keeps z s) : Keeps z (sumHeat s) := by
  unfold sumHeat
  repeat' first
    | with_reducible assumption | simp only [↓Keeps.mk_iff] | with_reducible refine Keeps.ite ?_ ?_
    | with_reducible refine Keeps.foldl _ _ ?_ ?_ | intro _ _ _ | intro _ _ | dsimp only | split

theorem queueEvac_keeps {z : State} (s : State) (hz : Keeps z s) : Keeps z (queueEvac s) := by
  unfold queueEvac
  repeat' first
    | with_reducible assumption | simp only [↓Keeps.mk_iff] | with_reducible refine Keeps.ite ?_ ?_ | intro _ _
    | dsimp only | split

theorem planMoves_keeps {z : State} (s : State) (hz : Keeps z s) : Keeps z (planMoves s) := by
  unfold planMoves
  repeat' first
    | with_reducible assumption | simp only [↓Keeps.mk_iff] | with_reducible refine Keeps.ite ?_ ?_
    | with_reducible refine Keeps.foldl _ _ ?_ ?_ | intro _ _ _ | intro _ _ | dsimp only | split

theorem planCache_keeps {z : State} (s : State) (hz : Keeps z s) : Keeps z (planCache s) := by
  unfold planCache
  repeat' first
    | with_reducible assumption | with_reducible apply setEntry_keeps | with_reducible refine Keeps.ite ?_ ?_
    | with_reducible refine Keeps.foldl _ _ ?_ ?_ | intro _ _ _ | intro _ _ | dsimp only | split

theorem keelRoom_keeps {z : State} (s : State) (b : Bool) (hz : Keeps z s) : Keeps z (keelRoom s b) := by
  unfold keelRoom
  repeat' first
    | with_reducible assumption | with_reducible apply startMig_keeps | with_reducible refine Keeps.ite ?_ ?_
    | intro _ _ | dsimp only | split

theorem keelRooms_keeps {z : State} (n : Nat) (s : State) (hz : Keeps z s) : Keeps z (keelRooms n s) := by
  induction n generalizing s with
  | zero => exact hz
  | succ n ih => exact ih _ (keelRoom_keeps _ _ (keelRoom_keeps s _ hz))

theorem epochTick_keeps {z : State} (s : State) (hz : Keeps z s) : Keeps z (epochTick s) := by
  unfold epochTick
  repeat' first
    | with_reducible assumption | with_reducible apply inc64_keeps | with_reducible apply inc_keeps
    | with_reducible apply keelRooms_keeps | with_reducible apply latchKnobs_keeps
    | with_reducible apply sumHeat_keeps | with_reducible apply keelRelocate_keeps
    | with_reducible apply queueEvac_keeps | with_reducible apply planMoves_keeps
    | with_reducible apply planCache_keeps | with_reducible apply pump_keeps | with_reducible refine Keeps.ite ?_ ?_
    | dsimp only | split

theorem heatDecay_keeps {z : State} (s : State) (hz : Keeps z s) : Keeps z (heatDecay s) := by
  unfold heatDecay
  repeat' first
    | with_reducible assumption | simp only [↓Keeps.mk_iff] | with_reducible refine Keeps.ite ?_ ?_ | intro _ _
    | dsimp only | split

theorem copyLost_keeps {z : State} (s : State) (m : Mig) (o : Nat) (raw : Line) (hz : Keeps z s) :
    Keeps z (copyLost s m o raw) := by
  unfold copyLost
  repeat' first
    | with_reducible assumption | with_reducible apply writeHit_keeps | with_reducible apply storeFrame_keeps
    | with_reducible apply poisonNew_keeps | dsimp only | split

theorem copyLine_keeps {z : State} (s : State) (lk : LookupIn) (m : Mig) (o : Nat) (hz : Keeps z s) :
    Keeps z (copyLine s lk m o) := by
  unfold copyLine
  repeat' first
    | with_reducible assumption | with_reducible apply inc_keeps | with_reducible apply storeFrame_keeps
    | with_reducible apply readWord_keeps | with_reducible apply copyLost_keeps
    | with_reducible apply queueCorrection_keeps | with_reducible refine Keeps.ite ?_ ?_ | dsimp only | split

theorem copyLines_keeps {z : State} (s : State) (lk : LookupIn) (m : Mig) (os : List Nat) (hz : Keeps z s) :
    Keeps z (copyLines s lk m os) := by
  unfold copyLines
  repeat' first
    | with_reducible assumption | with_reducible apply copyLine_keeps | with_reducible refine Keeps.foldl _ _ ?_ ?_
    | intro _ _ _ | intro _ _ | dsimp only

theorem migFlush_keeps {z : State} (s : State) (lk : LookupIn) (m : Mig) (hz : Keeps z s) :
    Keeps z (migFlush s lk m) := by
  unfold migFlush
  repeat' first
    | with_reducible assumption | with_reducible apply chargeBg_keeps | with_reducible apply flushParcel_keeps
    | with_reducible apply inc_keeps | with_reducible refine Keeps.ite ?_ ?_ | dsimp only | split

theorem passEnded_keeps {z : State} (s : State) (k : Nat) (m : Mig) (hz : Keeps z s) : Keeps z (passEnded s k m) := by
  unfold passEnded
  repeat' first
    | with_reducible assumption | with_reducible apply setEntry_keeps | with_reducible apply setMig_keeps
    | with_reducible apply abortMig_keeps | with_reducible apply inc_keeps | with_reducible apply chargeMove_keeps
    | simp only [↓Keeps.mk_iff] | with_reducible refine Keeps.ite ?_ ?_ | dsimp only | split

theorem copyDone_keeps {z : State} (s : State) (k : Nat) (lk : LookupIn) (hz : Keeps z s) :
    Keeps z (copyDone s k lk) := by
  unfold copyDone
  repeat' first
    | with_reducible assumption | with_reducible apply migFlush_keeps | with_reducible apply copyLines_keeps
    | with_reducible apply passEnded_keeps | with_reducible refine Keeps.ite ?_ ?_ | intro _ _ | dsimp only | split

theorem recopyDone_keeps {z : State} (s : State) (k : Nat) (lk : LookupIn) (hz : Keeps z s) :
    Keeps z (recopyDone s k lk) := by
  unfold recopyDone
  repeat' first
    | with_reducible assumption | with_reducible apply copyLines_keeps | with_reducible apply passEnded_keeps
    | with_reducible refine Keeps.ite ?_ ?_ | intro _ _ | dsimp only | split

theorem settleQueue_keeps {z : State} (s : State) (f : Nat) (hz : Keeps z s) : Keeps z (settleQueue s f) := by
  unfold settleQueue
  repeat' first
    | with_reducible assumption | with_reducible apply performAll_keeps | intro _ _ | dsimp only

theorem countMove_keeps {z : State} (s : State) (m : Mig) (pinned : Bool) (hz : Keeps z s) :
    Keeps z (countMove s m pinned) := by
  unfold countMove
  repeat' first
    | with_reducible assumption | with_reducible apply inc_keeps | with_reducible refine Keeps.ite ?_ ?_ | dsimp only
    | split

theorem migSwitch_keeps {z : State} (s : State) (k : Nat) (lk : LookupIn) (hz : Keeps z s) :
    Keeps z (migSwitch s k lk) := by
  unfold migSwitch
  repeat' first
    | with_reducible assumption | with_reducible apply settleQueue_keeps | with_reducible apply copyLines_keeps
    | with_reducible apply inc_keeps | with_reducible apply chargeMove_keeps | with_reducible apply setMig_keeps
    | with_reducible apply setHeat_keeps | with_reducible apply setEntry_keeps | with_reducible apply pump_keeps
    | with_reducible apply queueZero_keeps | with_reducible apply countMove_keeps
    | with_reducible refine Keeps.ite ?_ ?_ | intro _ _ | dsimp only | split

theorem closeTimeout_keeps {z : State} (s : State) (k ns : Nat) (hz : Keeps z s) : Keeps z (closeTimeout s k ns) := by
  unfold closeTimeout
  repeat' first
    | with_reducible assumption | with_reducible apply abortMig_keeps | with_reducible refine Keeps.ite ?_ ?_
    | intro _ _ | dsimp only | split

theorem closeFull_keeps {z : State} (s : State) (n : Nat) (hz : Keeps z s) : Keeps z (closeFull s n) := by
  unfold closeFull
  repeat' first
    | with_reducible assumption | with_reducible apply abortMig_keeps | with_reducible refine Keeps.ite ?_ ?_
    | dsimp only | split

theorem closeChecks_keeps {z : State} (s : State) (hz : Keeps z s) : Keeps z (closeChecks s) := by
  unfold closeChecks
  repeat' first
    | with_reducible assumption | with_reducible apply closeFull_keeps | with_reducible refine Keeps.foldl _ _ ?_ ?_
    | intro _ _ _ | intro _ _ | dsimp only

theorem abortOn_keeps {z : State} (s : State) (p : Nat → Bool) (hz : Keeps z s) : Keeps z (abortOn s p) := by
  unfold abortOn
  repeat' first
    | with_reducible assumption | with_reducible apply abortMig_keeps | with_reducible refine Keeps.foldl _ _ ?_ ?_
    | intro _ _ _ | intro _ _ | dsimp only

theorem abortInto_keeps {z : State} (s : State) (f : Nat) (hz : Keeps z s) : Keeps z (abortInto s f) := by
  unfold abortInto
  repeat' first
    | with_reducible assumption | with_reducible apply abortOn_keeps | dsimp only

theorem giveUpKeel_keeps {z : State} (s : State) (hz : Keeps z s) : Keeps z (giveUpKeel s) := by
  unfold giveUpKeel
  repeat' first
    | with_reducible assumption | with_reducible apply setMirror_keeps | with_reducible apply updDeficit_keeps
    | with_reducible apply flag_keeps | simp only [↓Keeps.mk_iff] | with_reducible refine Keeps.foldl _ _ ?_ ?_
    | intro _ _ _ | intro _ _ | dsimp only

theorem withdrawDeficit_keeps {z : State} (s : State) (hz : Keeps z s) : Keeps z (withdrawDeficit s) := by
  unfold withdrawDeficit
  repeat' first
    | with_reducible assumption | with_reducible apply withdraw_keeps | with_reducible apply keelRelocate_keeps
    | with_reducible apply giveUpKeel_keeps | with_reducible refine Keeps.ite ?_ ?_
    | with_reducible refine Keeps.foldl _ _ ?_ ?_ | intro _ _ _ | intro _ _ | dsimp only | split

theorem graceExpiry_keeps {z : State} (s : State) (hz : Keeps z s) : Keeps z (graceExpiry s) := by
  unfold graceExpiry
  repeat' first
    | with_reducible assumption | with_reducible apply withdrawDeficit_keeps | simp only [↓Keeps.mk_iff]
    | with_reducible refine Keeps.ite ?_ ?_ | dsimp only | split

theorem autoWdr_keeps {z : State} (s : State) (hz : Keeps z s) : Keeps z (autoWdr s) := by
  unfold autoWdr
  repeat' first
    | with_reducible assumption | with_reducible apply withdrawDeficit_keeps | with_reducible refine Keeps.ite ?_ ?_
    | dsimp only | split

theorem entryLost_keeps {z : State} (s : State) (n : Nat) (hz : Keeps z s) : Keeps z (entryLost s n) := by
  unfold entryLost
  repeat' first
    | with_reducible assumption | with_reducible apply abortParcel_keeps | with_reducible apply setEntry_keeps
    | simp only [↓Keeps.mk_iff] | with_reducible refine Keeps.ite ?_ ?_ | intro _ _ | dsimp only | split

theorem rebuilt_keeps {z : State} (s : State) (n : Nat) (hz : Keeps z s) : Keeps z (rebuilt s n) := by
  unfold rebuilt
  repeat' first
    | with_reducible assumption | with_reducible apply setEntry_keeps | simp only [↓Keeps.mk_iff] | intro _ _
    | dsimp only

theorem repairDone_keeps {z : State} (s : State) (n : Nat) (failA failB : Bool) (hz : Keeps z s) :
    Keeps z (repairDone s n failA failB) := by
  unfold repairDone
  repeat' first
    | with_reducible assumption | with_reducible apply setMirror_keeps | with_reducible apply rebuilt_keeps
    | with_reducible apply inc_keeps | with_reducible apply withdraw_keeps | with_reducible refine Keeps.ite ?_ ?_
    | dsimp only | split

theorem keelTook_keeps {z : State} (s : State) (k : Nat) (hz : Keeps z s) : Keeps z (keelTook s k) := by
  unfold keelTook
  repeat' first
    | with_reducible assumption | simp only [↓Keeps.mk_iff] | dsimp only

theorem keelFind_keeps {z : State} (s : State) (b : Bool) (hz : Keeps z s) : Keeps z (keelFind s b) := by
  unfold keelFind
  repeat' first
    | with_reducible assumption | with_reducible apply keelMove_keeps | with_reducible apply keelTook_keeps
    | with_reducible refine Keeps.foldl _ _ ?_ ?_ | intro _ _ _ | intro _ _ | dsimp only | split

theorem keelRebuilt_keeps {z : State} (s : State) (b : Bool) (hz : Keeps z s) : Keeps z (keelRebuilt s b) := by
  unfold keelRebuilt
  repeat' first
    | with_reducible assumption | with_reducible apply keelFind_keeps | with_reducible apply copyMirror_keeps
    | with_reducible apply setMirror_keeps | with_reducible apply keelRelocate_keeps
    | with_reducible refine Keeps.ite ?_ ?_ | intro _ _ | dsimp only | split

theorem pin_keeps {z : State} (s : State) (n : Nat) (hz : Keeps z s) : Keeps z (pin s n) := by
  unfold pin
  repeat' first
    | with_reducible assumption | with_reducible apply abortMig_keeps | with_reducible apply setEntry_keeps
    | with_reducible refine Keeps.ite ?_ ?_ | dsimp only | split

theorem unpin_keeps {z : State} (s : State) (n : Nat) (hz : Keeps z s) : Keeps z (unpin s n) := by
  unfold unpin
  repeat' first
    | with_reducible assumption | with_reducible apply setEntry_keeps | dsimp only

theorem nocache_keeps {z : State} (s : State) (n : Nat) (hz : Keeps z s) : Keeps z (nocache s n) := by
  unfold nocache
  repeat' first
    | with_reducible assumption | with_reducible apply setEntry_keeps | simp only [↓Keeps.mk_iff]
    | with_reducible refine Keeps.ite ?_ ?_ | dsimp only | split

theorem uncache_keeps {z : State} (s : State) (n : Nat) (hz : Keeps z s) : Keeps z (uncache s n) := by
  unfold uncache
  repeat' first
    | with_reducible assumption | with_reducible apply setEntry_keeps | dsimp only

theorem prefetch_keeps {z : State} (s : State) (n : Nat) (hz : Keeps z s) : Keeps z (prefetch s n) := by
  unfold prefetch
  repeat' first
    | with_reducible assumption | simp only [↓Keeps.mk_iff] | with_reducible refine Keeps.ite ?_ ?_ | intro _ _
    | dsimp only | split

theorem locQuery_keeps {z : State} (s : State) (n : Nat) (hz : Keeps z s) : Keeps z (locQuery s n) := by
  unfold locQuery
  repeat' first
    | with_reducible assumption | with_reducible apply wr_keeps | with_reducible refine Keeps.ite ?_ ?_ | dsimp only
    | split

theorem wdrFind_keeps {z : State} (s : State) (start : Nat) (hz : Keeps z s) : Keeps z (wdrFind s start) := by
  unfold wdrFind
  repeat' first
    | with_reducible assumption | with_reducible apply wr_keeps | intro _ _ | dsimp only | split

theorem dropReq_keeps {z : State} (s : State) (id : Nat) (hz : Keeps z s) : Keeps z (dropReq s id) := by
  unfold dropReq
  repeat' first
    | with_reducible assumption | with_reducible apply sampleLost_keeps | simp only [↓Keeps.mk_iff] | intro _ _
    | dsimp only

theorem forRequest_keeps {z : State} (s : State) (h : Word64) (t : State) (hz : Keeps z t) :
    Keeps z (forRequest s h t) := hz.same rfl rfl rfl rfl rfl

theorem countStatus_keeps {z : State} (s : State) (r : Req) (status : Nat) (hz : Keeps z s) :
    Keeps z (countStatus s r status) := by
  unfold countStatus
  repeat' first
    | with_reducible assumption | with_reducible apply inc_keeps | with_reducible apply wr64_keeps
    | with_reducible apply deliver_keeps | with_reducible refine Keeps.ite ?_ ?_ | dsimp only | split

theorem answer_keeps {z : State} (s : State) (r : Req) (status rinfo : Nat) (payload : List Slot) (hz : Keeps z s) :
    Keeps z (answer s r status rinfo payload) := by
  unfold answer
  repeat' first
    | with_reducible assumption | with_reducible apply returnCredits_keeps | with_reducible apply dropReq_keeps
    | with_reducible apply countStatus_keeps | with_reducible apply updReq_keeps | with_reducible apply sample_keeps
    | with_reducible apply noteWait_keeps | simp only [↓Keeps.mk_iff] | with_reducible refine Keeps.ite ?_ ?_
    | intro _ _ | dsimp only | split

theorem decideStatus_keeps {z : State} (s : State) (r : Req) (status rinfo : Nat) (hz : Keeps z s) :
    Keeps z (decideStatus s r status rinfo) := by
  unfold decideStatus
  repeat' first
    | with_reducible assumption | with_reducible apply answer_keeps | with_reducible apply updReq_keeps
    | simp only [↓Keeps.mk_iff] | with_reducible refine Keeps.ite ?_ ?_ | intro _ _ | dsimp only | split

theorem popRx_keeps {z : State} (s : State) (tc : Nat) (hz : Keeps z s) : Keeps z (popRx s tc) := by
  unfold popRx
  repeat' first
    | with_reducible assumption | simp only [↓Keeps.mk_iff] | intro _ _ | dsimp only

theorem stayRx_keeps {z : State} (s : State) (tc : Nat) (hz : Keeps z s) : Keeps z (stayRx s tc) := by
  unfold stayRx
  repeat' first
    | with_reducible assumption | simp only [↓Keeps.mk_iff] | intro _ _ | dsimp only

theorem badHeader_keeps {z : State} (s : State) (tc : Nat) (hz : Keeps z s) : Keeps z (badHeader s tc) := by
  unfold badHeader
  repeat' first
    | with_reducible assumption | with_reducible apply popRx_keeps | with_reducible apply returnCredits_keeps
    | with_reducible apply inc_keeps | with_reducible apply wr64_keeps | with_reducible apply report_keeps
    | with_reducible refine Keeps.ite ?_ ?_ | dsimp only | split

theorem addReq_keeps {z : State} (s : State) (r : Req) (hz : Keeps z s) : Keeps z (addReq s r) := by
  unfold addReq
  repeat' first
    | with_reducible assumption | simp only [↓Keeps.mk_iff] | dsimp only

theorem atPort_keeps {z : State} (s : State) (r : Req) (status rinfo : Nat) (p : Port) (hz : Keeps z s) :
    Keeps z (atPort s r status rinfo p) := by
  unfold atPort
  repeat' first
    | with_reducible assumption | with_reducible apply addReq_keeps | with_reducible apply decideStatus_keeps
    | with_reducible apply inc_keeps | with_reducible apply sampleWhere_keeps | with_reducible apply releaseReq_keeps
    | simp only [↓Keeps.mk_iff] | with_reducible refine Keeps.ite ?_ ?_ | dsimp only | split

theorem lostEntries_keeps {z : State} (s : State) (m : LookupIn) (ns : List Nat) (hz : Keeps z s) :
    Keeps z (lostEntries s m ns) := by
  unfold lostEntries
  repeat' first
    | with_reducible assumption | with_reducible apply entryLost_keeps | with_reducible refine Keeps.ite ?_ ?_
    | with_reducible refine Keeps.foldl _ _ ?_ ?_ | intro _ _ _ | intro _ _ | dsimp only | split

theorem lookEntries_keeps {z : State} (s : State) (m : LookupIn) (h : Word64) (data : List Slot) (hz : Keeps z s) :
    Keeps z (lookEntries s m h data) := by
  unfold lookEntries
  repeat' first
    | with_reducible assumption | with_reducible apply lostEntries_keeps | dsimp only

theorem requestAdmit_keeps {z : State} (s : State) (tc : Nat) (m : LookupIn) (wl : RxItem → List Nat) (ws : State → RxItem → Nat × Nat) (hz : Keeps z s) :
    Keeps z (requestAdmit s tc m wl ws) := by
  unfold requestAdmit
  repeat' first
    | with_reducible assumption | with_reducible apply lookEntries_keeps | with_reducible apply lostEntries_keeps
    | with_reducible apply stayRx_keeps | with_reducible apply popRx_keeps | with_reducible apply returnCredits_keeps
    | with_reducible apply inc64_keeps | with_reducible apply sampleTag_keeps | with_reducible apply inc_keeps
    | with_reducible apply deliver_keeps | with_reducible apply sampleLost_keeps | with_reducible apply atPort_keeps
    | simp only [↓Keeps.mk_iff] | with_reducible refine Keeps.ite ?_ ?_ | dsimp only | split

theorem lookup_keeps {z : State} (s : State) (h : Word64) (m : LookupIn) (hz : Keeps z s) :
    Keeps z (lookup s h m) := by
  unfold lookup
  repeat' first
    | with_reducible assumption | with_reducible apply tagLookups_keeps | dsimp only

theorem heatLines_keeps {z : State} (s : State) (n k : Nat) (hz : Keeps z s) : Keeps z (heatLines s n k) := by
  induction k generalizing s with
  | zero => exact hz
  | succ k ih => exact ih _ (heatAccess_keeps s n hz)

theorem sampleLookup_keeps {z : State} (s : State) (id n : Nat) (hz : Keeps z s) : Keeps z (sampleLookup s id n) := by
  unfold sampleLookup
  repeat' first
    | with_reducible assumption | with_reducible apply stamp_keeps | with_reducible apply sampleWhere_keeps
    | with_reducible refine Keeps.ite ?_ ?_ | dsimp only | split

theorem setReqLine_keeps {z : State} (s : State) (id i : Nat) (l : Line) (hz : Keeps z s) :
    Keeps z (setReqLine s id i l) := by
  unfold setReqLine
  repeat' first
    | with_reducible assumption | with_reducible apply updReq_keeps | simp only [↓Keeps.mk_iff] | intro _ _
    | dsimp only

theorem finishRead_keeps {z : State} (s : State) (r : Req) (ls : List Line) (hz : Keeps z s) :
    Keeps z (finishRead s r ls) := by
  unfold finishRead
  repeat' first
    | with_reducible assumption | with_reducible apply inc_keeps | with_reducible apply answer_keeps
    | simp only [↓Keeps.mk_iff] | with_reducible refine Keeps.ite ?_ ?_ | with_reducible refine Keeps.foldl _ _ ?_ ?_
    | intro _ _ _ | intro _ _ | dsimp only | split | with_reducible refine Keeps.takeFree _ ?_

theorem tryFinish_keeps {z : State} (s : State) (id : Nat) (hz : Keeps z s) : Keeps z (tryFinish s id) := by
  unfold tryFinish
  repeat' first
    | with_reducible assumption | with_reducible apply finishRead_keeps | with_reducible refine Keeps.ite ?_ ?_
    | intro _ _ | dsimp only | split

theorem readLineMiss_keeps {z : State} (r : Req) (f i : Nat) (m : LookupIn) (s : State) (li : Nat) (hz : Keeps z s) :
    Keeps z (readLine.readMiss r f i m s li) := by
  unfold readLine.readMiss
  repeat' first
    | with_reducible assumption
    | with_reducible apply fillAfterRead_keeps
    | with_reducible apply setReqLine_keeps
    | with_reducible apply sampleUnit_keeps
    | with_reducible apply stamp_keeps
    | with_reducible apply sendRead_keeps
    | with_reducible apply inc64_keeps
    | simp only [↓Keeps.mk_iff]
    | with_reducible refine Keeps.ite ?_ ?_
    | with_reducible refine Keeps.foldl _ _ ?_ ?_
    | with_reducible refine Keeps.foldlSnd _ _ ?_ ?_
    | intro _ _ _
    | intro _ _
    | dsimp only
    | split

theorem readLine_keeps {z : State} (s : State) (r : Req) (f i : Nat) (m : LookupIn) (hz : Keeps z s) :
    Keeps z (readLine s r f i m) := by
  unfold readLine
  repeat' first
    | with_reducible assumption
    | with_reducible apply readLineMiss_keeps
    | with_reducible apply setReqLine_keeps
    | with_reducible apply touchHit_keeps
    | with_reducible apply stamp_keeps
    | with_reducible apply sampleWhere_keeps
    | with_reducible apply bankWord_keeps
    | with_reducible apply bankUncorrectable_keeps
    | simp only [↓Keeps.mk_iff]
    | with_reducible refine Keeps.ite ?_ ?_
    | with_reducible refine Keeps.foldl _ _ ?_ ?_
    | with_reducible refine Keeps.foldlSnd _ _ ?_ ?_
    | intro _ _ _
    | intro _ _
    | dsimp only
    | split

theorem readLines_keeps {z : State} (s : State) (r : Req) (f : Nat) (m : LookupIn) (n : Nat) (hz : Keeps z s) :
    Keeps z (readLines s r f m n) := by
  unfold readLines
  repeat' first
    | with_reducible assumption | with_reducible apply readLine_keeps | with_reducible refine Keeps.foldl _ _ ?_ ?_
    | intro _ _ _ | intro _ _ | dsimp only

theorem performRead_keeps {z : State} (s : State) (r : Req) (m : LookupIn) (hz : Keeps z s) :
    Keeps z (performRead s r m) := by
  unfold performRead
  repeat' first
    | with_reducible assumption | with_reducible apply lookEntries_keeps | with_reducible apply answer_keeps
    | with_reducible apply lookup_keeps | with_reducible apply sampleLookup_keeps
    | with_reducible apply finishRead_keeps | with_reducible apply countMisses_keeps
    | with_reducible apply heatLines_keeps | with_reducible apply updReq_keeps | with_reducible apply readLines_keeps
    | with_reducible apply tryFinish_keeps | simp only [↓Keeps.mk_iff] | with_reducible refine Keeps.ite ?_ ?_
    | intro _ _ | dsimp only | split

theorem rdReq_keeps {z : State} (s : State) (tag : Nat) (m : LookupIn) (hz : Keeps z s) :
    Keeps z (rdReq s tag m) := by
  unfold rdReq
  repeat' first
    | with_reducible assumption | with_reducible apply forRequest_keeps | with_reducible apply performRead_keeps
    | intro _ _ | dsimp only | split

theorem writeLines_keeps {z : State} (s : State) (r : Req) (n : Nat) (hz : Keeps z s) :
    Keeps z (writeLines s r n) := by
  unfold writeLines
  repeat' first
    | with_reducible assumption | with_reducible apply wdbPut_keeps | with_reducible refine Keeps.foldl _ _ ?_ ?_
    | intro _ _ _ | intro _ _ | dsimp only

theorem performWrite_keeps {z : State} (s : State) (r : Req) (hz : Keeps z s) : Keeps z (performWrite s r) := by
  unfold performWrite
  repeat' first
    | with_reducible assumption | with_reducible apply sampleLookup_keeps | with_reducible apply countMisses_keeps
    | with_reducible apply heatLines_keeps | with_reducible apply writeLines_keeps | with_reducible apply stamp_keeps
    | with_reducible apply inc_keeps | with_reducible apply answer_keeps | with_reducible apply closeFull_keeps
    | with_reducible refine Keeps.ite ?_ ?_ | dsimp only | split

theorem onParcel_keeps {z : State} (s : State) (r : Req) (go : State → State) (hz : Keeps z s)
    (hg : ∀ t, Keeps z t → Keeps z (go t)) : Keeps z (onParcel s r go) := by
  unfold onParcel
  dsimp only
  split
  · exact hz
  · split
    · exact answer_keeps _ _ _ _ _ hz
    · split
      · split
        · rename_i h; exact hg _ ((allocate__keeps s _ hz).1 _ h)
        · exact hz
        · rename_i h; exact answer_keeps _ _ _ _ _ ((allocate__keeps s _ hz).2 _ h)
      · exact hg _ hz

theorem changeLine_keeps {z : State} (s : State) (r : Req) (m : LookupIn) (go : State → State) (hz : Keeps z s)
    (hg : ∀ t, Keeps z t → Keeps z (go t)) : Keeps z (changeLine s r m go) := by
  have h : Keeps z (if r.status ≠ 0 then s else s.lookEntries m r.header r.data) :=
    Keeps.ite hz (lookEntries_keeps s m _ _ hz)
  unfold changeLine
  exact Keeps.ite (answer_keeps _ _ _ _ _ h) (onParcel_keeps _ _ _ (lookup_keeps _ _ _ h) hg)

theorem wrReq_keeps {z : State} (s : State) (opc tag : Nat) (m : LookupIn) (hz : Keeps z s) :
    Keeps z (wrReq s opc tag m) := by
  unfold wrReq
  split
  · exact hz
  · exact forRequest_keeps _ _ _ (changeLine_keeps _ _ _ _ hz fun t ht => performWrite_keeps t _ ht)

theorem atomAnswer_keeps {z : State} (s : State) (r : Req) (l : Line) (old : Nat) (hz : Keeps z s) :
    Keeps z (atomAnswer s r l old) := by
  unfold atomAnswer
  repeat' first
    | with_reducible assumption | with_reducible apply inc_keeps | with_reducible apply answer_keeps
    | with_reducible refine Keeps.ite ?_ ?_ | dsimp only | split

theorem atomRead_keeps {z : State} (s : State) (r : Req) (m : LookupIn) (hz : Keeps z s) :
    Keeps z (atomRead s r m).2 := by
  unfold atomRead
  repeat' first
    | with_reducible assumption | with_reducible apply stamp_keeps | with_reducible apply fetchHome_keeps
    | with_reducible apply bankWord_keeps | with_reducible apply touchHit_keeps
    | with_reducible apply sampleWhere_keeps | with_reducible apply bankUncorrectable_keeps
    | with_reducible refine Keeps.ite ?_ ?_ | intro _ _ | dsimp only | split

theorem performAtom_keeps {z : State} (s : State) (r : Req) (m : LookupIn) (hz : Keeps z s) :
    Keeps z (performAtom s r m) := by
  unfold performAtom
  repeat' first
    | with_reducible assumption | with_reducible apply sampleLookup_keeps | with_reducible apply countMisses_keeps
    | with_reducible apply heatLines_keeps | with_reducible apply atomRead_keeps | with_reducible apply freeWord_keeps
    | with_reducible apply atomAnswer_keeps | with_reducible apply updateLine_keeps
    | with_reducible refine Keeps.ite ?_ ?_ | dsimp only | split

theorem atomReq_keeps {z : State} (s : State) (tag : Nat) (m : LookupIn) (hz : Keeps z s) :
    Keeps z (atomReq s tag m) := by
  unfold atomReq
  split
  · exact hz
  · exact forRequest_keeps _ _ _ (changeLine_keeps _ _ _ _ hz fun t ht => closeFull_keeps _ _ (performAtom_keeps t _ _ ht))

theorem fenceReq_keeps {z : State} (s : State) (tag : Nat) (hz : Keeps z s) : Keeps z (fenceReq s tag) := by
  unfold fenceReq
  repeat' first
    | with_reducible assumption | with_reducible apply answer_keeps | with_reducible apply updReq_keeps
    | simp only [↓Keeps.mk_iff] | with_reducible refine Keeps.ite ?_ ?_ | intro _ _ | dsimp only | split

theorem fencePerformed_keeps {z : State} (s : State) (tag : Nat) (hz : Keeps z s) :
    Keeps z (fencePerformed s tag) := by
  unfold fencePerformed
  repeat' first
    | with_reducible assumption | with_reducible apply inc_keeps | with_reducible apply answer_keeps
    | with_reducible refine Keeps.ite ?_ ?_ | intro _ _ | dsimp only | split

theorem hintOne_keeps {z : State} (code : Nat) (s : State) (n : Nat) (hz : Keeps z s) :
    Keeps z (hintOne code s n) := by
  unfold hintOne
  repeat' first
    | with_reducible assumption | with_reducible apply pin_keeps | with_reducible apply unpin_keeps
    | with_reducible apply release_keeps | with_reducible apply prefetch_keeps | with_reducible apply nocache_keeps
    | with_reducible apply uncache_keeps | dsimp only | split

theorem hintReq_keeps {z : State} (s : State) (tag : Nat) (m : LookupIn) (p : Nat → Bool) (hz : Keeps z s) :
    Keeps z (hintReq s tag m p) := by
  unfold hintReq
  repeat' first
    | with_reducible assumption | with_reducible apply lookEntries_keeps | with_reducible apply answer_keeps
    | with_reducible apply hintOne_keeps | with_reducible refine Keeps.ite ?_ ?_
    | with_reducible refine Keeps.foldl _ _ ?_ ?_ | intro _ _ _ | intro _ _ | dsimp only | split

theorem place__keeps {z : State} (s : State) (i : TxItem) (hz : Keeps z s) : Keeps z (place_ s i) := by
  unfold place_
  repeat' first
    | with_reducible assumption | simp only [↓Keeps.mk_iff] | dsimp only

theorem responseSend_keeps {z : State} (s : State) (tag : Nat) (hz : Keeps z s) : Keeps z (responseSend s tag) := by
  unfold responseSend
  repeat' first
    | with_reducible assumption | with_reducible apply noteWait_keeps | with_reducible apply place__keeps
    | with_reducible apply latencyDone_keeps | simp only [↓Keeps.mk_iff] | with_reducible refine Keeps.ite ?_ ?_
    | intro _ _ | dsimp only | split

theorem eventSend_keeps {z : State} (s : State) (hz : Keeps z s) : Keeps z (eventSend s) := by
  unfold eventSend
  repeat' first
    | with_reducible assumption | with_reducible apply noteWait_keeps | with_reducible apply place__keeps
    | with_reducible apply put_keeps | with_reducible apply inc_keeps | simp only [↓Keeps.mk_iff]
    | with_reducible refine Keeps.ite ?_ ?_ | dsimp only | split

theorem queueEvent_keeps {z : State} (s : State) (e : Event) (hz : Keeps z s) : Keeps z (queueEvent s e) := by
  unfold queueEvent
  repeat' first
    | with_reducible assumption | with_reducible apply inc_keeps | with_reducible apply noteWait_keeps
    | simp only [↓Keeps.mk_iff] | with_reducible refine Keeps.ite ?_ ?_ | dsimp only | split

theorem dramSchedule_keeps {z : State} (s : State) (c p : Nat) (bad : Bool) (hz : Keeps z s) :
    Keeps z (dramSchedule s c p bad) := by
  unfold dramSchedule
  repeat' first
    | with_reducible assumption | with_reducible apply dramClock_keeps | with_reducible apply stamp_keeps
    | with_reducible apply sampleWhere_keeps | with_reducible refine Keeps.ite ?_ ?_ | dsimp only | split

theorem reachReq_keeps {z : State} (s : State) (m : LookupIn) (r : Req) (x : DReq) (l : Line) (fill : Bool) (known : Option Line) (hz : Keeps z s) :
    Keeps z (reachReq s m r x l fill known) := by
  unfold reachReq
  repeat' first
    | with_reducible assumption | with_reducible apply setReqLine_keeps | with_reducible apply stamp_keeps
    | with_reducible apply fill_keeps | with_reducible apply fillAfterRead_keeps
    | with_reducible apply tryFinish_keeps | with_reducible refine Keeps.ite ?_ ?_ | dsimp only | split

theorem serveForward_keeps {z : State} (s : State) (m : LookupIn) (f o : Nat) (hz : Keeps z s) :
    Keeps z (serveForward s m f o) := by
  unfold serveForward
  repeat' first
    | with_reducible assumption | with_reducible apply setPch_keeps | with_reducible apply inc_keeps
    | with_reducible apply reachReq_keeps | simp only [↓Keeps.mk_iff] | with_reducible refine Keeps.foldl _ _ ?_ ?_
    | intro _ _ _ | intro _ _ | dsimp only | split

theorem lineReturned_keeps {z : State} (s : State) (m : LookupIn) (x : DReq) (out : ReadOut) (hz : Keeps z s) :
    Keeps z (lineReturned s m x out) := by
  unfold lineReturned
  repeat' first
    | with_reducible assumption | with_reducible apply settleRead_keeps | with_reducible apply reachReq_keeps
    | with_reducible apply serveForward_keeps | simp only [↓Keeps.mk_iff] | with_reducible refine Keeps.ite ?_ ?_
    | dsimp only | split

theorem readReturn_keeps {z : State} (s : State) (c p : Nat) (first again : BurstIn) (m : LookupIn) (hz : Keeps z s) :
    Keeps z (readReturn s c p first again m) := by
  unfold readReturn
  repeat' first
    | with_reducible assumption | with_reducible apply setPch_keeps | with_reducible apply inc64_keeps
    | with_reducible apply countOutcome_keeps | with_reducible apply lineReturned_keeps
    | with_reducible apply forRequest_keeps | with_reducible apply runFills_keeps
    | with_reducible apply addrTraining_keeps | simp only [↓Keeps.mk_iff] | with_reducible refine Keeps.ite ?_ ?_
    | intro _ _ | dsimp only | split

theorem setEngState_keeps {z : State} (s : State) (e n : Nat) (hz : Keeps z s) : Keeps z (setEngState s e n) := by
  unfold setEngState
  repeat' first
    | with_reducible assumption | with_reducible apply put_keeps | dsimp only

theorem setSlot_keeps {z : State} (s : State) (e slot : Nat) (hz : Keeps z s) : Keeps z (setSlot s e slot) := by
  unfold setSlot
  repeat' first
    | with_reducible assumption | with_reducible apply flag_keeps | simp only [↓Keeps.mk_iff] | dsimp only

theorem fillSlot_keeps {z : State} (s : State) (e : Nat) (hz : Keeps z s) : Keeps z (fillSlot s e) := by
  unfold fillSlot
  repeat' first
    | with_reducible assumption | with_reducible apply flag_keeps | with_reducible apply setSlot_keeps
    | with_reducible refine Keeps.ite ?_ ?_ | dsimp only | split

theorem keepSlot_keeps {z : State} (s : State) (u : Nat) (hz : Keeps z s) : Keeps z (keepSlot s u) := by
  unfold keepSlot
  repeat' first
    | with_reducible assumption | with_reducible apply setSlot_keeps | with_reducible refine Keeps.ite ?_ ?_
    | dsimp only | split

theorem recallSlice_keeps {z : State} (s : State) (engine : Bool) (q : Nat) (hz : Keeps z s) :
    Keeps z (recallSlice s engine q) := by
  unfold recallSlice
  repeat' first
    | with_reducible assumption | with_reducible apply flag_keeps | with_reducible apply setEngState_keeps
    | with_reducible apply swapCancel_keeps | with_reducible apply keepSlot_keeps | with_reducible apply inc_keeps
    | with_reducible apply put_keeps | simp only [↓Keeps.mk_iff] | with_reducible refine Keeps.ite ?_ ?_ | intro _ _
    | dsimp only | split

theorem engBack_keeps {z : State} (s : State) (u : Nat) (hz : Keeps z s) : Keeps z (engBack s u) := by
  unfold engBack
  repeat' first
    | with_reducible assumption | with_reducible apply setSlot_keeps | with_reducible refine Keeps.ite ?_ ?_
    | intro _ _ | dsimp only | split

theorem updWork_keeps {z : State} (s : State) (id : Nat) (f : Work → Work) (hz : Keeps z s) :
    Keeps z (updWork s id f) := by
  unfold updWork
  repeat' first
    | with_reducible assumption | simp only [↓Keeps.mk_iff] | with_reducible refine Keeps.ite ?_ ?_ | intro _ _
    | dsimp only | split

theorem syncEng_keeps {z : State} (s : State) (e : Nat) (hz : Keeps z s) : Keeps z (syncEng s e) := by
  unfold syncEng
  repeat' first
    | with_reducible assumption | with_reducible apply setEngState_keeps | with_reducible apply put_keeps
    | with_reducible apply flag_keeps | with_reducible apply wr_keeps | with_reducible refine Keeps.ite ?_ ?_
    | dsimp only | split

theorem syncAll_keeps {z : State} (s : State) (hz : Keeps z s) : Keeps z (syncAll s) := by
  unfold syncAll
  repeat' first
    | with_reducible assumption | with_reducible apply syncEng_keeps | with_reducible refine Keeps.foldl _ _ ?_ ?_
    | intro _ _ _ | intro _ _ | dsimp only

theorem workReq_keeps {z : State} (s : State) (tag : Nat) (m : LookupIn) (hz : Keeps z s) :
    Keeps z (workReq s tag m) := by
  unfold workReq
  repeat' first
    | with_reducible assumption | with_reducible apply answer_keeps | with_reducible apply lostEntries_keeps
    | with_reducible apply returnCredits_keeps | with_reducible apply updReq_keeps | with_reducible apply inc_keeps
    | with_reducible apply syncEng_keeps | simp only [↓Keeps.mk_iff] | with_reducible refine Keeps.ite ?_ ?_
    | intro _ _ | dsimp only | split | with_reducible refine Keeps.takeFree _ ?_

theorem engCharge_keeps {z : State} (s : State) (h : Word64) (hz : Keeps z s) : Keeps z (engCharge s h) := by
  unfold engCharge
  repeat' first
    | with_reducible assumption | with_reducible apply charge_keeps | dsimp only

theorem payLines_keeps {z : State} (h : Word64) (n : Nat) (s : State) (hz : Keeps z s) : Keeps z (payLines h n s).2 := by
  induction n generalizing s with
  | zero => exact hz
  | succ n ih =>
    unfold payLines
    split
    · exact hz
    · exact ih _ (engCharge_keeps s h hz)

theorem engTouch_keeps {z : State} (s : State) (d : Desc) (m : LookupIn) (li : Nat) (hz : Keeps z s) :
    Keeps z (engTouch s d m li) := by
  unfold engTouch
  repeat' first
    | with_reducible assumption | with_reducible apply heatAccess_keeps | with_reducible apply readThrough_keeps
    | with_reducible refine Keeps.ite ?_ ?_ | dsimp only | split

theorem engLook_keeps {z : State} (s : State) (m : LookupIn) (l : List Int) (hz : Keeps z s) :
    Keeps z (engLook s m l) := by
  unfold engLook
  repeat' first
    | with_reducible assumption | with_reducible apply lostEntries_keeps | dsimp only

theorem engReads_keeps {z : State} (s : State) (e : Nat) (w : Work) (m : LookupIn) (ls : List Nat) (hz : Keeps z s) :
    Keeps z (engReads s e w m ls) := by
  unfold engReads
  repeat' first
    | with_reducible assumption | with_reducible apply engTouch_keeps | with_reducible apply inc64_keeps
    | with_reducible refine Keeps.foldl _ _ ?_ ?_ | intro _ _ _ | intro _ _ | dsimp only

theorem engPay_keeps {z : State} (s : State) (w : Work) (n : Nat) (hz : Keeps z s) : Keeps z (engPay s w n).2 :=
  updWork_keeps _ _ _ (payLines_keeps _ _ s hz)

theorem closeWork_keeps {z : State} (s : State) (w : Work) (status code : Nat) (pay : List Slot) (hz : Keeps z s) :
    Keeps z (closeWork s w status code pay) := by
  unfold closeWork
  repeat' first
    | with_reducible assumption | with_reducible apply answer_keeps | with_reducible apply syncEng_keeps
    | simp only [↓Keeps.mk_iff] | with_reducible refine Keeps.ite ?_ ?_ | intro _ _ | dsimp only | split

theorem cancelEnds_keeps {z : State} (s : State) (w : Work) (hz : Keeps z s) : Keeps z (cancelEnds s w) := by
  unfold cancelEnds
  repeat' first
    | with_reducible assumption | with_reducible apply flag_keeps | with_reducible refine Keeps.ite ?_ ?_
    | with_reducible refine Keeps.foldl _ _ ?_ ?_ | intro _ _ _ | intro _ _ | dsimp only | split

theorem abortWork_keeps {z : State} (s : State) (w : Work) (code : Nat) (fault : Option (Nat × Nat)) (hz : Keeps z s) :
    Keeps z (abortWork s w code fault) := by
  unfold abortWork
  repeat' first
    | with_reducible assumption | with_reducible apply wr_keeps | with_reducible apply wr64_keeps
    | with_reducible apply inc_keeps | with_reducible apply cancelEnds_keeps | with_reducible apply closeWork_keeps
    | dsimp only

theorem finishWork_keeps {z : State} (s : State) (id : Nat) (hz : Keeps z s) : Keeps z (finishWork s id) := by
  unfold finishWork
  repeat' first
    | with_reducible assumption | with_reducible apply abortWork_keeps | with_reducible apply inc_keeps
    | with_reducible apply cancelEnds_keeps | with_reducible apply closeWork_keeps
    | with_reducible refine Keeps.ite ?_ ?_ | intro _ _ | dsimp only | split

theorem workBegin_keeps {z : State} (s : State) (e : Nat) (hz : Keeps z s) : Keeps z (workBegin s e) := by
  unfold workBegin
  repeat' first
    | with_reducible assumption | with_reducible apply updReq_keeps | with_reducible apply updWork_keeps
    | with_reducible apply inc_keeps | with_reducible apply syncEng_keeps | simp only [↓Keeps.mk_iff]
    | with_reducible refine Keeps.ite ?_ ?_ | intro _ _ | dsimp only | split

theorem precheckDone_keeps {z : State} (s : State) (e : Nat) (m : LookupIn) (hz : Keeps z s) :
    Keeps z (precheckDone s e m) := by
  unfold precheckDone
  repeat' first
    | with_reducible assumption | with_reducible apply engLook_keeps | with_reducible apply engPay_keeps
    | with_reducible apply engReads_keeps | with_reducible apply abortWork_keeps | with_reducible apply updWork_keeps
    | with_reducible apply syncEng_keeps | simp only [↓Keeps.mk_iff] | with_reducible refine Keeps.ite ?_ ?_
    | intro _ _ | dsimp only | split | with_reducible refine Keeps.takeFree _ ?_

theorem countPlanned_keeps {z : State} (s : State) (w : Work) (q why : Nat) (ran : Bool) (hz : Keeps z s) :
    Keeps z (countPlanned s w q why ran) := by
  unfold countPlanned
  repeat' first
    | with_reducible assumption | with_reducible apply inc_keeps | with_reducible refine Keeps.ite ?_ ?_ | dsimp only
    | split

theorem handOver_keeps {z : State} (s : State) (w : Work) (e : Nat) (failed : Bool) (hz : Keeps z s) :
    Keeps z (handOver s w e failed) := by
  unfold handOver
  repeat' first
    | with_reducible assumption | with_reducible apply countPlanned_keeps | with_reducible apply syncEng_keeps
    | with_reducible apply updWork_keeps | with_reducible apply finishWork_keeps | simp only [↓Keeps.mk_iff]
    | with_reducible refine Keeps.ite ?_ ?_ | intro _ _ | dsimp only | split

theorem adoptWorks_keeps {z : State} (s : State) (hz : Keeps z s) : Keeps z (adoptWorks s) := by
  unfold adoptWorks
  repeat' first
    | with_reducible assumption | with_reducible apply countPlanned_keeps | with_reducible apply updWork_keeps
    | with_reducible apply syncEng_keeps | simp only [↓Keeps.mk_iff] | with_reducible refine Keeps.foldl _ _ ?_ ?_
    | intro _ _ _ | intro _ _ | dsimp only | split

theorem endWaiting_keeps {z : State} (s : State) (q : Nat) (hz : Keeps z s) : Keeps z (endWaiting s q) := by
  unfold endWaiting
  repeat' first
    | with_reducible assumption | with_reducible apply updWork_keeps | with_reducible apply finishWork_keeps
    | simp only [↓Keeps.mk_iff] | with_reducible refine Keeps.foldl _ _ ?_ ?_ | intro _ _ _ | intro _ _ | dsimp only

theorem engFail_keeps {z : State} (s : State) (e kind : Nat) (hz : Keeps z s) : Keeps z (engFail s e kind) := by
  unfold engFail
  repeat' first
    | with_reducible assumption | with_reducible apply recallSlice_keeps | with_reducible apply setEngState_keeps
    | with_reducible apply inc_keeps | with_reducible apply handOver_keeps | with_reducible apply report_keeps
    | with_reducible refine Keeps.ite ?_ ?_ | with_reducible refine Keeps.foldl _ _ ?_ ?_ | intro _ _ _ | intro _ _
    | dsimp only | split

theorem engineFault_keeps {z : State} (s : State) (e : Nat) (k : EngineFaultKind) (hz : Keeps z s) :
    Keeps z (engineFault s e k) := by
  unfold engineFault
  repeat' first
    | with_reducible assumption | with_reducible apply inc_keeps | with_reducible apply engFail_keeps
    | with_reducible refine Keeps.ite ?_ ?_ | dsimp only | split

theorem engineHang_keeps {z : State} (s : State) (e : Nat) (hz : Keeps z s) : Keeps z (engineHang s e) := by
  unfold engineHang
  repeat' first
    | with_reducible assumption | with_reducible apply inc_keeps | with_reducible apply engFail_keeps
    | with_reducible refine Keeps.ite ?_ ?_ | dsimp only | split

theorem plannedMove_keeps {z : State} (s : State) (e : Nat) (hz : Keeps z s) : Keeps z (plannedMove s e) := by
  unfold plannedMove
  repeat' first
    | with_reducible assumption | with_reducible apply handOver_keeps | simp only [↓Keeps.mk_iff]
    | with_reducible refine Keeps.ite ?_ ?_ | with_reducible refine Keeps.foldl _ _ ?_ ?_ | intro _ _ _ | intro _ _
    | dsimp only | split

theorem afterCommit_keeps {z : State} (s : State) (e id : Nat) (hz : Keeps z s) : Keeps z (afterCommit s e id) := by
  unfold afterCommit
  repeat' first
    | with_reducible assumption | with_reducible apply updWork_keeps | with_reducible apply finishWork_keeps
    | with_reducible apply syncEng_keeps | with_reducible apply handOver_keeps | simp only [↓Keeps.mk_iff]
    | with_reducible refine Keeps.ite ?_ ?_ | intro _ _ | dsimp only | split

theorem chunkAccess_keeps {z : State} (s : State) (e : Nat) (w : Work) (m : LookupIn) (hz : Keeps z s) :
    Keeps z (chunkAccess s e w m) := by
  unfold chunkAccess
  repeat' first
    | with_reducible assumption | with_reducible apply engReads_keeps | intro _ _ | dsimp only

theorem scratchCorr_keeps {z : State} (s : State) (e n : Nat) (hz : Keeps z s) : Keeps z (scratchCorr s e n) := by
  unfold scratchCorr
  repeat' first
    | with_reducible assumption | with_reducible apply inc_keeps | with_reducible apply report_keeps
    | with_reducible refine Keeps.ite ?_ ?_ | dsimp only | split

theorem chunkCommit_keeps {z : State} (s : State) (e : Nat) (m : LookupIn) (scratch : Nat) (hz : Keeps z s) :
    Keeps z (chunkCommit s e m scratch) := by
  unfold chunkCommit
  repeat' first
    | with_reducible assumption | with_reducible apply engLook_keeps | with_reducible apply engPay_keeps
    | with_reducible apply scratchCorr_keeps | with_reducible apply chunkAccess_keeps
    | with_reducible apply abortWork_keeps | with_reducible apply updWork_keeps | with_reducible apply inc64_keeps
    | with_reducible apply afterCommit_keeps | simp only [↓Keeps.mk_iff] | with_reducible refine Keeps.ite ?_ ?_
    | intro _ _ | dsimp only | split | with_reducible refine Keeps.takeFree _ ?_

theorem noteSkip_keeps {z : State} (s : State) (id elem addr : Nat) (hz : Keeps z s) :
    Keeps z (noteSkip s id elem addr) := by
  unfold noteSkip
  repeat' first
    | with_reducible assumption | with_reducible apply updWork_keeps | simp only [↓Keeps.mk_iff] | intro _ _
    | dsimp only

theorem engStore_keeps {z : State} (s : State) (w : Work) (li : Nat) (l : Line) (whole : Bool) (hz : Keeps z s) :
    Keeps z (engStore s w li l whole) := by
  unfold engStore
  repeat' first
    | with_reducible assumption | with_reducible apply heatAccess_keeps | with_reducible apply wdbPut_keeps
    | with_reducible apply updateLine_keeps | with_reducible apply engCharge_keeps
    | with_reducible apply closeFull_keeps | with_reducible refine Keeps.ite ?_ ?_ | dsimp only | split

theorem skipEntry_keeps {z : State} (s : State) (w : Work) (en : Entry) (hz : Keeps z s) :
    Keeps z (skipEntry s w en) := by
  unfold skipEntry
  repeat' first
    | with_reducible assumption | with_reducible apply noteSkip_keeps | with_reducible refine Keeps.foldl _ _ ?_ ?_
    | intro _ _ _ | intro _ _ | dsimp only

theorem applyTo_keeps {z : State} (s : State) (w : Work) (m : LookupIn) (en : Entry) (hz : Keeps z s) :
    Keeps z (applyTo s w m en).1 := by
  unfold applyTo
  repeat' first
    | with_reducible assumption | with_reducible apply tagLookups_keeps | with_reducible apply readCurrent_keeps
    | with_reducible apply engStore_keeps | with_reducible apply skipEntry_keeps | with_reducible apply updWork_keeps
    | simp only [↓Keeps.mk_iff] | with_reducible refine Keeps.ite ?_ ?_ | intro _ _ | dsimp only | split

theorem applyEntries_keeps {z : State} (w : Work) (m : LookupIn) (l : List Entry) (ls : List Nat) (s : State)
    (hz : Keeps z s) : Keeps z (applyEntries w m l ls s).1 := by
  induction l generalizing ls s with
  | nil => exact hz
  | cons en l ih =>
    unfold applyEntries
    dsimp only
    have hl := lostEntries_keeps s m [liParcel (entryLine en)] hz
    split
    · exact hl
    · split
      · exact ih _ _ (skipEntry_keeps _ _ _ hl)
      · split
        · split
          · rename_i h; exact ih _ _ (applyTo_keeps _ _ _ _ ((allocate__keeps _ _ hl).1 _ h))
          · exact hl
          · rename_i h; exact ih _ _ (skipEntry_keeps _ _ _ ((allocate__keeps _ _ hl).2 _ h))
        · exact ih _ _ (applyTo_keeps _ _ _ _ hl)

theorem recordApply_keeps {z : State} (s : State) (q : Nat) (m : LookupIn) (hz : Keeps z s) :
    Keeps z (recordApply s q m) := by
  unfold recordApply
  repeat' first
    | with_reducible assumption | with_reducible apply applyEntries_keeps | with_reducible apply updWork_keeps
    | with_reducible apply finishWork_keeps | simp only [↓Keeps.mk_iff] | with_reducible refine Keeps.ite ?_ ?_
    | intro _ _ | dsimp only | split

theorem stopWork_keeps {z : State} (s : State) (w : Work) (by_ : Nat) (hz : Keeps z s) :
    Keeps z (stopWork s w by_) := by
  unfold stopWork
  repeat' first
    | with_reducible assumption | with_reducible apply abortWork_keeps | with_reducible apply updWork_keeps
    | with_reducible apply finishWork_keeps | simp only [↓Keeps.mk_iff] | with_reducible refine Keeps.ite ?_ ?_
    | intro _ _ | dsimp only | split

theorem cancelWork_keeps {z : State} (s : State) (q tag : Nat) (hz : Keeps z s) : Keeps z (cancelWork s q tag) := by
  unfold cancelWork
  repeat' first
    | with_reducible assumption | with_reducible apply flag_keeps | with_reducible apply stopWork_keeps | intro _ _
    | dsimp only | split

theorem drainRecords_keeps {z : State} (m : LookupIn) (n : Nat) (s : State) (hz : Keeps z s) :
    Keeps z (drainRecords m n s) := by
  induction n generalizing s with
  | zero => exact hz
  | succ n ih => exact ih _ (Keeps.foldl _ _ hz fun t q ht => recordApply_keeps t q m ht)

theorem stopAllWorks_keeps {z : State} (s : State) (m : LookupIn) (hz : Keeps z s) : Keeps z (stopAllWorks s m) := by
  unfold stopAllWorks
  repeat' first
    | with_reducible assumption | with_reducible apply stopWork_keeps | with_reducible apply updWork_keeps
    | with_reducible apply finishWork_keeps | with_reducible apply drainRecords_keeps | simp only [↓Keeps.mk_iff]
    | with_reducible refine Keeps.ite ?_ ?_ | with_reducible refine Keeps.foldl _ _ ?_ ?_ | intro _ _ _ | intro _ _
    | dsimp only | split

theorem engPowerUp_keeps {z : State} (s : State) (e : Nat) (hz : Keeps z s) : Keeps z (engPowerUp s e) := by
  unfold engPowerUp
  repeat' first
    | with_reducible assumption | with_reducible apply setEngState_keeps | with_reducible apply syncEng_keeps
    | with_reducible apply adoptWorks_keeps | with_reducible refine Keeps.ite ?_ ?_ | dsimp only | split

theorem engEnable_keeps {z : State} (s : State) (e : Nat) (hz : Keeps z s) : Keeps z (engEnable s e) := by
  unfold engEnable
  repeat' first
    | with_reducible assumption | with_reducible apply adoptWorks_keeps | with_reducible apply plannedMove_keeps
    | with_reducible refine Keeps.ite ?_ ?_ | dsimp only | split

end State

end Sys2Proof.Machine
end

