-- ==== Sys2Proof/Laws/KeepsFault.lean ====
section
/-! SUPPORT. What every operation of the stack keeps: the fault collector, the PHYs, scrub, sparing and self-test. -/

namespace Sys2Proof.Machine

namespace State

theorem msixRequest_keeps {z : State} (s : State) (v : Nat) (hz : Keeps z s) : Keeps z (msixRequest s v) := by
  unfold msixRequest
  repeat' first
    | with_reducible assumption | with_reducible apply inc_keeps | simp only [↓Keeps.mk_iff]
    | with_reducible refine Keeps.ite ?_ ?_ | dsimp only | split

theorem msixSend_keeps {z : State} (s : State) (v : Nat) (hz : Keeps z s) : Keeps z (msixSend s v) := by
  unfold msixSend
  repeat' first
    | with_reducible assumption | with_reducible apply inc_keeps | simp only [↓Keeps.mk_iff]
    | with_reducible refine Keeps.ite ?_ ?_ | dsimp only | split

theorem logItem_keeps {z : State} (s : State) (i : LogItem) (hz : Keeps z s) : Keeps z (logItem s i) := by
  unfold logItem
  repeat' first
    | with_reducible assumption | simp only [↓Keeps.mk_iff] | dsimp only

theorem logNote_keeps {z : State} (s : State) (kind : Nat) (extra : List (Nat × Nat)) (hz : Keeps z s) :
    Keeps z (logNote s kind extra) := by
  unfold logNote
  repeat' first
    | with_reducible assumption | with_reducible apply logItem_keeps | simp only [↓Keeps.mk_iff] | dsimp only

theorem setRec_keeps {z : State} (s : State) (i : Nat) (r : Rec) (hz : Keeps z s) : Keeps z (setRec s i r) := by
  unfold setRec
  repeat' first
    | with_reducible assumption | simp only [↓Keeps.mk_iff] | intro _ _ | dsimp only

theorem syncFc_keeps {z : State} (s : State) (hz : Keeps z s) : Keeps z (syncFc s) := by
  unfold syncFc
  repeat' first
    | with_reducible assumption | with_reducible apply put_keeps | with_reducible apply flag_keeps
    | with_reducible apply alert_keeps | with_reducible apply wr_keeps | with_reducible refine Keeps.ite ?_ ?_
    | with_reducible refine Keeps.foldl _ _ ?_ ?_ | intro _ _ _ | intro _ _ | dsimp only | split

theorem releaseAlert_keeps {z : State} (s : State) (hz : Keeps z s) : Keeps z (releaseAlert s) := by
  unfold releaseAlert
  repeat' first
    | with_reducible assumption | with_reducible apply syncFc_keeps | simp only [↓Keeps.mk_iff]
    | with_reducible refine Keeps.ite ?_ ?_ | dsimp only | split

theorem alertTick_keeps {z : State} (s : State) (hz : Keeps z s) : Keeps z (alertTick s) := by
  unfold alertTick
  repeat' first
    | with_reducible assumption | with_reducible apply releaseAlert_keeps | with_reducible refine Keeps.ite ?_ ?_
    | dsimp only | split

theorem alert_keeps {z : State} (s : State) (i : Nat) (hz : Keeps z s) : Keeps z (alert s i) := by
  unfold alert
  repeat' first
    | with_reducible assumption | with_reducible apply setRec_keeps | simp only [↓Keeps.mk_iff]
    | with_reducible refine Keeps.ite ?_ ?_ | dsimp only | split

theorem logRec_keeps {z : State} (s : State) (e : Event) (hz : Keeps z s) : Keeps z (logRec s e) := by
  unfold logRec
  repeat' first
    | with_reducible assumption | with_reducible apply logItem_keeps | simp only [↓Keeps.mk_iff] | dsimp only

theorem react_keeps {z : State} (s : State) (i : Nat) (shown : Rec) (hz : Keeps z s) : Keeps z (react s i shown) := by
  unfold react
  repeat' first
    | with_reducible assumption | with_reducible apply logRec_keeps | with_reducible apply queueEvent_keeps
    | with_reducible apply msixRequest_keeps | with_reducible apply inc_keeps | with_reducible apply alert_keeps
    | with_reducible apply chipReset_keeps | simp only [↓Keeps.mk_iff] | with_reducible refine Keeps.ite ?_ ?_
    | dsimp only | split

theorem mergeRec_keeps {z : State} (s : State) (i : Nat) (events : Bool) (ts : Word64) (hz : Keeps z s) :
    Keeps z (mergeRec s i events ts) := by
  unfold mergeRec
  repeat' first
    | with_reducible assumption | with_reducible apply setRec_keeps | with_reducible apply inc_keeps
    | with_reducible apply logRec_keeps | with_reducible apply queueEvent_keeps
    | with_reducible apply msixRequest_keeps | simp only [↓Keeps.mk_iff] | with_reducible refine Keeps.ite ?_ ?_
    | dsimp only | split

theorem raise_keeps {z : State} (s : State) (c : Rec) (hz : Keeps z s) : Keeps z (raise s c) := by
  unfold raise
  repeat' first
    | with_reducible assumption | with_reducible apply setRec_keeps | with_reducible apply inc_keeps
    | with_reducible apply react_keeps | with_reducible apply releaseAlert_keeps | with_reducible apply mergeRec_keeps
    | simp only [↓Keeps.mk_iff] | with_reducible refine Keeps.ite ?_ ?_ | dsimp only | split

theorem closeRec_keeps {z : State} (s : State) (i : Nat) (hz : Keeps z s) : Keeps z (closeRec s i) := by
  unfold closeRec
  repeat' first
    | with_reducible assumption | with_reducible apply setRec_keeps | with_reducible apply inc_keeps
    | with_reducible apply logRec_keeps | with_reducible apply queueEvent_keeps
    | with_reducible apply msixRequest_keeps | with_reducible apply syncFc_keeps | simp only [↓Keeps.mk_iff]
    | with_reducible refine Keeps.ite ?_ ?_ | dsimp only | split

theorem setLevelOf_keeps {z : State} (s : State) (r : Word) (n : Nat) (hz : Keeps z s) :
    Keeps z (setLevelOf s r n) := by
  unfold setLevelOf
  repeat' first
    | with_reducible assumption | simp only [↓Keeps.mk_iff] | intro _ _ | dsimp only

theorem bistFree_keeps {z : State} (s : State) (r : Word) (hz : Keeps z s) : Keeps z (bistFree s r) := by
  unfold bistFree
  repeat' first
    | with_reducible assumption | with_reducible apply flag_keeps | with_reducible apply put_keeps
    | simp only [↓Keeps.mk_iff] | with_reducible refine Keeps.ite ?_ ?_ | intro _ _ | dsimp only | split

theorem dropRetest_keeps {z : State} (s : State) (r : Word) (hz : Keeps z s) : Keeps z (dropRetest s r) := by
  unfold dropRetest
  repeat' first
    | with_reducible assumption | with_reducible apply flag_keeps | with_reducible apply bistFree_keeps
    | simp only [↓Keeps.mk_iff] | with_reducible refine Keeps.ite ?_ ?_ | intro _ _ | dsimp only | split

theorem declare_keeps {z : State} (s : State) (r : Word) (hz : Keeps z s) : Keeps z (declare s r) := by
  unfold declare
  repeat' first
    | with_reducible assumption | with_reducible apply dropRetest_keeps | with_reducible apply report_keeps
    | with_reducible apply inc_keeps | simp only [↓Keeps.mk_iff] | with_reducible refine Keeps.ite ?_ ?_ | intro _ _
    | dsimp only | split

theorem undeclare_keeps {z : State} (s : State) (r : Word) (hz : Keeps z s) : Keeps z (undeclare s r) := by
  unfold undeclare
  repeat' first
    | with_reducible assumption | with_reducible apply setLevelOf_keeps | simp only [↓Keeps.mk_iff] | dsimp only

theorem fill_keeps {z : State} (s : State) (r : Word) (n : Nat) (hz : Keeps z s) : Keeps z (fill s r n) := by
  unfold fill
  repeat' first
    | with_reducible assumption | with_reducible apply setLevelOf_keeps | with_reducible apply declare_keeps
    | with_reducible refine Keeps.ite ?_ ?_ | dsimp only | split

theorem overflows_keeps {z : State} (s : State) (t : Nat) (hz : Keeps z s) : Keeps z (overflows s t) := by
  unfold overflows
  repeat' first
    | with_reducible assumption | with_reducible apply declare_keeps | with_reducible refine Keeps.ite ?_ ?_
    | with_reducible refine Keeps.foldl _ _ ?_ ?_ | intro _ _ _ | intro _ _ | dsimp only | split

theorem rowEntry_keeps {z : State} (s : State) (r : Word) (hz : Keeps z s) : Keeps z (rowEntry s r) := by
  unfold rowEntry
  repeat' first
    | with_reducible assumption | with_reducible apply setLevelOf_keeps | with_reducible apply inc_keeps
    | with_reducible apply fill_keeps | simp only [↓Keeps.mk_iff] | with_reducible refine Keeps.ite ?_ ?_
    | with_reducible refine Keeps.foldl _ _ ?_ ?_ | intro _ _ _ | intro _ _ | dsimp only | split

theorem feed_keeps {z : State} (s : State) (kind : Nat) (r : Word) (occ : Nat) (hz : Keeps z s) :
    Keeps z (feed s kind r occ) := by
  unfold feed
  repeat' first
    | with_reducible assumption | with_reducible apply rowEntry_keeps | with_reducible apply fill_keeps
    | with_reducible refine Keeps.ite ?_ ?_ | dsimp only | split

theorem leak_keeps {z : State} (s : State) (t : Nat) (hz : Keeps z s) : Keeps z (leak s t) := by
  unfold leak
  repeat' first
    | with_reducible assumption | with_reducible apply overflows_keeps | simp only [↓Keeps.mk_iff]
    | with_reducible refine Keeps.ite ?_ ?_ | intro _ _ | dsimp only | split

theorem syncRetest_keeps {z : State} (s : State) (hz : Keeps z s) : Keeps z (syncRetest s) := by
  unfold syncRetest
  repeat' first
    | with_reducible assumption | with_reducible apply put_keeps | with_reducible apply flag_keeps | dsimp only

theorem askRetest_keeps {z : State} (s : State) (kind : Nat) (r : Word) (hz : Keeps z s) :
    Keeps z (askRetest s kind r) := by
  unfold askRetest
  repeat' first
    | with_reducible assumption | with_reducible apply declare_keeps | with_reducible apply inc_keeps
    | simp only [↓Keeps.mk_iff] | with_reducible refine Keeps.ite ?_ ?_ | dsimp only | split

theorem arrive_keeps {z : State} (s : State) (c : Rec) (hz : Keeps z s) : Keeps z (arrive s c) := by
  unfold arrive
  repeat' first
    | with_reducible assumption | with_reducible apply mergeRec_keeps | with_reducible apply syncFc_keeps
    | with_reducible apply raise_keeps | dsimp only | split

theorem takeDelivery_keeps {z : State} (s : State) (d : Delivery) (hz : Keeps z s) : Keeps z (takeDelivery s d) := by
  unfold takeDelivery
  repeat' first
    | with_reducible assumption | with_reducible apply feed_keeps | with_reducible apply arrive_keeps
    | with_reducible apply askRetest_keeps | with_reducible apply syncRetest_keeps | dsimp only

theorem countedDelivery_keeps {z : State} (s : State) (found : Option Found) (hz : Keeps z s) :
    Keeps z (countedDelivery s found) := by
  unfold countedDelivery
  repeat' first
    | with_reducible assumption | with_reducible apply takeDelivery_keeps | simp only [↓Keeps.mk_iff] | dsimp only
    | split

theorem setSeen_keeps {z : State} (s : State) (pg bit : Nat) (b : Bool) (hz : Keeps z s) :
    Keeps z (setSeen s pg bit b) := by
  unfold setSeen
  repeat' first
    | with_reducible assumption | simp only [↓Keeps.mk_iff] | intro _ _ | dsimp only

theorem declareAbsent_keeps {z : State} (s : State) (pg bit : Nat) (hz : Keeps z s) :
    Keeps z (declareAbsent s pg bit) := by
  unfold declareAbsent
  repeat' first
    | with_reducible assumption | with_reducible apply declare_keeps | with_reducible refine Keeps.ite ?_ ?_
    | dsimp only | split

theorem levelTo_keeps {z : State} (s : State) (pg bit : Nat) (b : Bool) (evt : Word) (hz : Keeps z s) :
    Keeps z (levelTo s pg bit b evt) := by
  unfold levelTo
  repeat' first
    | with_reducible assumption | with_reducible apply setSeen_keeps | with_reducible apply declareAbsent_keeps
    | with_reducible apply mergeRec_keeps | with_reducible apply syncFc_keeps | with_reducible apply raise_keeps
    | simp only [↓Keeps.mk_iff] | with_reducible refine Keeps.ite ?_ ?_ | intro _ _ | dsimp only | split

theorem recordRecover_keeps {z : State} (s : State) (i : Nat) (active : Bool) (hz : Keeps z s) :
    Keeps z (recordRecover s i active) := by
  unfold recordRecover
  repeat' first
    | with_reducible assumption | with_reducible apply closeRec_keeps | with_reducible refine Keeps.ite ?_ ?_
    | dsimp only | split

theorem alertClear_keeps {z : State} (s : State) (v : Word) (hz : Keeps z s) : Keeps z (alertClear s v) := by
  unfold alertClear
  repeat' first
    | with_reducible assumption | with_reducible apply setRec_keeps | with_reducible apply alert_keeps
    | with_reducible apply flag_keeps | with_reducible apply releaseAlert_keeps | simp only [↓Keeps.mk_iff]
    | with_reducible refine Keeps.ite ?_ ?_ | with_reducible refine Keeps.foldl _ _ ?_ ?_ | intro _ _ _ | intro _ _
    | dsimp only | split

theorem resQuery_keeps {z : State} (s : State) (v : Word) (hz : Keeps z s) : Keeps z (resQuery s v) := by
  unfold resQuery
  repeat' first
    | with_reducible assumption | with_reducible apply wr_keeps | dsimp only

theorem swapStart_keeps {z : State} (s : State) (old new : Nat) (hz : Keeps z s) : Keeps z (swapStart s old new) := by
  unfold swapStart
  repeat' first
    | with_reducible assumption | with_reducible apply swapFlags_keeps | simp only [↓Keeps.mk_iff] | dsimp only

theorem swapBegin_keeps {z : State} (s : State) (old new : Nat) (hz : Keeps z s) : Keeps z (swapBegin s old new) := by
  unfold swapBegin
  repeat' first
    | with_reducible assumption | with_reducible apply swapStart_keeps | with_reducible refine Keeps.ite ?_ ?_
    | intro _ _ | dsimp only | split

theorem closeBanks_keeps {z : State} (s : State) (pc : Nat) (hz : Keeps z s) : Keeps z (closeBanks s pc) := by
  unfold closeBanks
  repeat' first
    | with_reducible assumption | with_reducible apply setPch_keeps | simp only [↓Keeps.mk_iff]
    | with_reducible refine Keeps.ite ?_ ?_ | intro _ _ | dsimp only | split

theorem swapTake_keeps {z : State} (s : State) (old new : Nat) (hz : Keeps z s) : Keeps z (swapTake s old new) := by
  unfold swapTake
  repeat' first
    | with_reducible assumption | with_reducible apply closeBanks_keeps | with_reducible apply wr_keeps
    | with_reducible apply swapFlags_keeps | with_reducible apply flag_keeps | with_reducible apply put_keeps
    | with_reducible refine Keeps.foldl _ _ ?_ ?_ | intro _ _ _ | intro _ _ | dsimp only

theorem swapDrain_keeps {z : State} (s : State) (old : Nat) (hz : Keeps z s) : Keeps z (swapDrain s old) := by
  unfold swapDrain
  repeat' first
    | with_reducible assumption | with_reducible apply performAll_keeps | with_reducible refine Keeps.ite ?_ ?_
    | intro _ _ | dsimp only | split

theorem swapDone_keeps {z : State} (s : State) (old : Nat) (hz : Keeps z s) : Keeps z (swapDone s old) := by
  unfold swapDone
  repeat' first
    | with_reducible assumption | with_reducible apply swapDrain_keeps | with_reducible apply swapTake_keeps
    | simp only [↓Keeps.mk_iff] | intro _ _ | dsimp only | split

theorem setViaFail_keeps {z : State} (s : State) (c p : Nat) (v : ViaId) (b : Bool) (hz : Keeps z s) :
    Keeps z (setViaFail s c p v b) := by
  unfold setViaFail
  repeat' first
    | with_reducible assumption | with_reducible apply setBit_keeps | with_reducible refine Keeps.ite ?_ ?_
    | dsimp only | split

theorem verifyVias_keeps {z : State} (s : State) (c p : Nat) (failed : List ViaId) (hz : Keeps z s) :
    Keeps z (verifyVias s c p failed) := by
  unfold verifyVias
  repeat' first
    | with_reducible assumption | with_reducible apply setViaFail_keeps | with_reducible apply countSpares_keeps
    | with_reducible refine Keeps.foldl _ _ ?_ ?_ | intro _ _ _ | intro _ _ | dsimp only

theorem trainDue_keeps {z : State} (s : State) (c p : Nat) (hz : Keeps z s) : Keeps z (trainDue s c p) := by
  unfold trainDue
  repeat' first
    | with_reducible assumption | with_reducible apply trainStart_keeps | with_reducible refine Keeps.ite ?_ ?_
    | dsimp only | split

theorem declareVerify_keeps {z : State} (s : State) (c p : Nat) (t : TsvIn) (hz : Keeps z s) :
    Keeps z (declareVerify s c p t) := by
  unfold declareVerify
  repeat' first
    | with_reducible assumption | with_reducible apply declare_keeps | simp only [↓Keeps.mk_iff]
    | with_reducible refine Keeps.ite ?_ ?_ | with_reducible refine Keeps.foldl _ _ ?_ ?_ | intro _ _ _ | intro _ _
    | dsimp only | split

theorem trainDone_keeps {z : State} (s : State) (c p : Nat) (t : TsvIn) (hz : Keeps z s) :
    Keeps z (trainDone s c p t) := by
  unfold trainDone
  repeat' first
    | with_reducible assumption | with_reducible apply setPch_keeps | with_reducible apply syncTraining_keeps
    | with_reducible apply verifyVias_keeps | with_reducible apply declareVerify_keeps | simp only [↓Keeps.mk_iff]
    | with_reducible refine Keeps.ite ?_ ?_ | intro _ _ | dsimp only | split

theorem setRemap_keeps {z : State} (s : State) (c : Nat) (r : Option Remap) (hz : Keeps z s) :
    Keeps z (setRemap s c r) := by
  unfold setRemap
  repeat' first
    | with_reducible assumption | simp only [↓Keeps.mk_iff] | intro _ _ | dsimp only

theorem remapTry_keeps {z : State} (s : State) (c p : Nat) (ca : Bool) (via : Nat) (hz : Keeps z s) :
    Keeps z (remapTry s c p ca via) := by
  unfold remapTry
  repeat' first
    | with_reducible assumption | with_reducible apply setRemap_keeps | with_reducible apply flag_keeps | dsimp only
    | split

theorem remapStart_keeps {z : State} (s : State) (c p : Nat) (ca : Bool) (via : Nat) (hz : Keeps z s) :
    Keeps z (remapStart s c p ca via) := by
  unfold remapStart
  repeat' first
    | with_reducible assumption | with_reducible apply remapTry_keeps | simp only [↓Keeps.mk_iff]
    | with_reducible refine Keeps.ite ?_ ?_ | dsimp only | split

theorem remapNext_keeps {z : State} (s : State) (c : Nat) (hz : Keeps z s) : Keeps z (remapNext s c) := by
  unfold remapNext
  repeat' first
    | with_reducible assumption | with_reducible apply remapTry_keeps | simp only [↓Keeps.mk_iff]
    | with_reducible refine Keeps.ite ?_ ?_ | intro _ _ | dsimp only | split

theorem remapVerified_keeps {z : State} (s : State) (c p : Nat) (pass : Bool) (hz : Keeps z s) :
    Keeps z (remapVerified s c p pass) := by
  unfold remapVerified
  repeat' first
    | with_reducible assumption | with_reducible apply setViaFail_keeps | with_reducible apply setRemap_keeps
    | with_reducible apply countSpares_keeps | with_reducible apply remapTry_keeps | simp only [↓Keeps.mk_iff]
    | with_reducible refine Keeps.ite ?_ ?_ | dsimp only | split

theorem rowRepairStart_keeps {z : State} (s : State) (c p sid bank row : Nat) (hz : Keeps z s) :
    Keeps z (rowRepairStart s c p sid bank row) := by
  unfold rowRepairStart
  repeat' first
    | with_reducible assumption | with_reducible apply flag_keeps | with_reducible apply setFrame_keeps
    | simp only [↓Keeps.mk_iff] | with_reducible refine Keeps.ite ?_ ?_ | intro _ _ | dsimp only | split

theorem rowRepairDone_keeps {z : State} (s : State) (c : Nat) (hz : Keeps z s) : Keeps z (rowRepairDone s c) := by
  unfold rowRepairDone
  repeat' first
    | with_reducible assumption | with_reducible apply flag_keeps | with_reducible apply put_keeps
    | with_reducible apply incSat_keeps | with_reducible apply recordStep_keeps | with_reducible apply undeclare_keeps
    | simp only [↓Keeps.mk_iff] | intro _ _ | dsimp only | split

theorem setDieStep_keeps {z : State} (s : State) (d n : Nat) (hz : Keeps z s) : Keeps z (setDieStep s d n) := by
  unfold setDieStep
  repeat' first
    | with_reducible assumption | with_reducible apply put_keeps | dsimp only

theorem refreshUp_keeps {z : State} (s : State) (hz : Keeps z s) : Keeps z (refreshUp s) := by
  unfold refreshUp
  repeat' first
    | with_reducible assumption | with_reducible apply setDieStep_keeps | with_reducible refine Keeps.ite ?_ ?_
    | with_reducible refine Keeps.foldl _ _ ?_ ?_ | intro _ _ _ | intro _ _ | dsimp only | split

theorem refreshDown_keeps {z : State} (s : State) (d : Nat) (hz : Keeps z s) : Keeps z (refreshDown s d) := by
  unfold refreshDown
  repeat' first
    | with_reducible assumption | with_reducible apply setDieStep_keeps | with_reducible refine Keeps.ite ?_ ?_
    | dsimp only | split

theorem scrubRow_keeps {z : State} (s : State) (pc f o : Nat) (cmd : Bool) (hz : Keeps z s) :
    Keeps z (scrubRow s pc f o cmd) := by
  unfold scrubRow
  repeat' first
    | with_reducible assumption | with_reducible apply setPch_keeps | simp only [↓Keeps.mk_iff] | intro _ _
    | dsimp only

theorem passProgress_keeps {z : State} (s : State) (hz : Keeps z s) : Keeps z (passProgress s) := by
  unfold passProgress
  repeat' first
    | with_reducible assumption | with_reducible apply put_keeps | with_reducible refine Keeps.ite ?_ ?_
    | with_reducible refine Keeps.foldl _ _ ?_ ?_ | intro _ _ _ | intro _ _ | dsimp only | split

theorem passEnd_keeps {z : State} (s : State) (cache : Bool) (hz : Keeps z s) : Keeps z (passEnd s cache) := by
  unfold passEnd
  repeat' first
    | with_reducible assumption | with_reducible apply inc_keeps | with_reducible apply put_keeps
    | simp only [↓Keeps.mk_iff] | with_reducible refine Keeps.ite ?_ ?_ | intro _ _ | dsimp only | split

theorem walkDone_keeps {z : State} (s : State) (k : Nat) (hz : Keeps z s) : Keeps z (walkDone s k) := by
  unfold walkDone
  repeat' first
    | with_reducible assumption | with_reducible apply passEnd_keeps | simp only [↓Keeps.mk_iff] | intro _ _
    | dsimp only

theorem patrolRow_keeps {z : State} (s : State) (pc : Nat) (hz : Keeps z s) : Keeps z (patrolRow s pc) := by
  unfold patrolRow
  repeat' first
    | with_reducible assumption | with_reducible apply passEnd_keeps | with_reducible apply walkDone_keeps
    | with_reducible apply scrubRow_keeps | simp only [↓Keeps.mk_iff] | with_reducible refine Keeps.ite ?_ ?_
    | intro _ _ | dsimp only | split

theorem scrubWayLine_keeps {z : State} (s : State) (k : Nat) (e : Fin 4 × BitVec 576) (hz : Keeps z s) :
    Keeps z (scrubWayLine s k e) := by
  unfold scrubWayLine
  repeat' first
    | with_reducible assumption | with_reducible apply bankWord_keeps | with_reducible apply bankUncorrectable_keeps
    | with_reducible apply inc_keeps | with_reducible apply incSat_keeps | with_reducible apply report_keeps
    | with_reducible refine Keeps.ite ?_ ?_ | dsimp only | split

theorem patrolSector_keeps {z : State} (s : State) (b : Nat) (flips : List (Fin 4 × BitVec 576)) (hz : Keeps z s) :
    Keeps z (patrolSector s b flips) := by
  unfold patrolSector
  repeat' first
    | with_reducible assumption | with_reducible apply passEnd_keeps | with_reducible apply scrubWayLine_keeps
    | with_reducible apply inc64_keeps | with_reducible apply walkDone_keeps | simp only [↓Keeps.mk_iff]
    | with_reducible refine Keeps.ite ?_ ?_ | with_reducible refine Keeps.foldl _ _ ?_ ?_ | intro _ _ _ | intro _ _
    | dsimp only | split

theorem scrubDue_keeps {z : State} (s : State) (u : ScrubUnit) (flips : List (Fin 4 × BitVec 576)) (hz : Keeps z s) :
    Keeps z (scrubDue s u flips) := by
  unfold scrubDue
  repeat' first
    | with_reducible assumption | with_reducible apply patrolSector_keeps | with_reducible apply closeChecks_keeps
    | with_reducible apply scrubRow_keeps | with_reducible apply patrolRow_keeps
    | with_reducible apply passProgress_keeps | simp only [↓Keeps.mk_iff] | with_reducible refine Keeps.ite ?_ ?_
    | intro _ _ | dsimp only | split

theorem syncBehind_keeps {z : State} (s : State) (hz : Keeps z s) : Keeps z (syncBehind s) := by
  unfold syncBehind
  repeat' first
    | with_reducible assumption | with_reducible apply flag_keeps | intro _ _ | dsimp only

theorem scrubLate_keeps {z : State} (s : State) (c p : Nat) (hz : Keeps z s) : Keeps z (scrubLate s c p) := by
  unfold scrubLate
  repeat' first
    | with_reducible assumption | with_reducible apply setPch_keeps | with_reducible apply promote_keeps
    | with_reducible apply syncBehind_keeps | simp only [↓Keeps.mk_iff] | intro _ _ | dsimp only

theorem scrubStart_keeps {z : State} (s : State) (first count : Nat) (retest : Bool) (hz : Keeps z s) :
    Keeps z (scrubStart s first count retest) := by
  unfold scrubStart
  repeat' first
    | with_reducible assumption | with_reducible apply flag_keeps | simp only [↓Keeps.mk_iff]
    | with_reducible refine Keeps.ite ?_ ?_ | dsimp only | split

theorem scrubEnd_keeps {z : State} (s : State) (hz : Keeps z s) : Keeps z (scrubEnd s) := by
  unfold scrubEnd
  repeat' first
    | with_reducible assumption | with_reducible apply flag_keeps | simp only [↓Keeps.mk_iff] | dsimp only

theorem scrubCmdDone_keeps {z : State} (s : State) (hz : Keeps z s) : Keeps z (scrubCmdDone s) := by
  unfold scrubCmdDone
  repeat' first
    | with_reducible assumption | with_reducible apply scrubEnd_keeps | with_reducible refine Keeps.ite ?_ ?_
    | dsimp only | split

theorem keelLostWord_keeps {z : State} (s : State) (m : LookupIn) (f o : Nat) (hz : Keeps z s) :
    Keeps z (keelLostWord s m f o) := by
  unfold keelLostWord
  repeat' first
    | with_reducible assumption | with_reducible apply readWord_keeps | with_reducible apply setMirror_keeps
    | with_reducible apply storeFrame_keeps | with_reducible apply inc_keeps | with_reducible refine Keeps.ite ?_ ?_
    | intro _ _ | dsimp only | split

theorem scrubLostFree_keeps {z : State} (s : State) (m : LookupIn) (x : DReq) (out : ReadOut) (hz : Keeps z s) :
    Keeps z (scrubLostFree s m x out) := by
  unfold scrubLostFree
  repeat' first
    | with_reducible assumption | with_reducible apply keelLostWord_keeps | with_reducible apply settleRead_keeps
    | with_reducible apply inc_keeps | with_reducible apply abortInto_keeps | with_reducible apply poisonWrite_keeps
    | with_reducible refine Keeps.ite ?_ ?_ | intro _ _ | dsimp only | split

theorem scrubOutcome_keeps {z : State} (s : State) (m : LookupIn) (x : DReq) (out : ReadOut) (hz : Keeps z s) :
    Keeps z (scrubOutcome s m x out) := by
  unfold scrubOutcome
  repeat' first
    | with_reducible assumption | with_reducible apply countOutcome_keeps | with_reducible apply scrubLostFree_keeps
    | with_reducible apply settleRead_keeps | with_reducible apply inc_keeps | with_reducible apply markDirty_keeps
    | simp only [↓Keeps.mk_iff] | with_reducible refine Keeps.ite ?_ ?_ | dsimp only | split

theorem rowRetestFail_keeps {z : State} (s : State) (hz : Keeps z s) : Keeps z (rowRetestFail s) := by
  unfold rowRetestFail
  repeat' first
    | with_reducible assumption | with_reducible apply scrubEnd_keeps | with_reducible apply inc_keeps
    | with_reducible apply declare_keeps | with_reducible apply syncRetest_keeps | simp only [↓Keeps.mk_iff]
    | dsimp only | split

theorem scrubReturn_keeps {z : State} (s : State) (pc : Nat) (x : DReq) (first again : BurstIn) (m : LookupIn) (hz : Keeps z s) :
    Keeps z (scrubReturn s pc x first again m) := by
  unfold scrubReturn
  repeat' first
    | with_reducible assumption | with_reducible apply setPch_keeps | with_reducible apply inc64_keeps
    | with_reducible apply scrubOutcome_keeps | with_reducible apply serveForward_keeps
    | with_reducible apply rowRetestFail_keeps | with_reducible apply syncBehind_keeps
    | with_reducible apply addrTraining_keeps | simp only [↓Keeps.mk_iff] | with_reducible refine Keeps.ite ?_ ?_
    | dsimp only | split

theorem dataReturn_keeps {z : State} (s : State) (c p : Nat) (first again : BurstIn) (m : LookupIn) (hz : Keeps z s) :
    Keeps z (dataReturn s c p first again m) := by
  unfold dataReturn
  repeat' first
    | with_reducible assumption | with_reducible apply scrubReturn_keeps | with_reducible apply readReturn_keeps
    | with_reducible apply closeChecks_keeps | with_reducible refine Keeps.ite ?_ ?_ | dsimp only | split

theorem startRecovery_keeps {z : State} (s : State) (r : Word) (hz : Keeps z s) : Keeps z (startRecovery s r) := by
  unfold startRecovery
  repeat' first
    | with_reducible assumption | simp only [↓Keeps.mk_iff] | with_reducible refine Keeps.ite ?_ ?_ | intro _ _
    | dsimp only | split

theorem syncRecs_keeps {z : State} (s : State) (hz : Keeps z s) : Keeps z (syncRecs s) := by
  unfold syncRecs
  repeat' first
    | with_reducible assumption | with_reducible apply wr_keeps | with_reducible apply flag_keeps
    | with_reducible refine Keeps.ite ?_ ?_ | with_reducible refine Keeps.foldl _ _ ?_ ?_ | intro _ _ _ | intro _ _
    | dsimp only | split

theorem groupLost_keeps {z : State} (s : State) (g l : Nat) (hz : Keeps z s) : Keeps z (groupLost s g l) := by
  unfold groupLost
  repeat' first
    | with_reducible assumption | with_reducible apply setUsable_keeps | with_reducible apply enterRecover_keeps
    | with_reducible apply placeGroup_keeps | simp only [↓Keeps.mk_iff] | dsimp only

theorem laneLadder_keeps {z : State} (s : State) (g l : Nat) (hz : Keeps z s) : Keeps z (laneLadder s g l) := by
  unfold laneLadder
  repeat' first
    | with_reducible assumption | with_reducible apply spareStart_keeps | with_reducible apply groupLost_keeps
    | with_reducible refine Keeps.ite ?_ ?_ | dsimp only | split

theorem sparingFailed_keeps {z : State} (s : State) (g : Nat) (hz : Keeps z s) : Keeps z (sparingFailed s g) := by
  unfold sparingFailed
  repeat' first
    | with_reducible assumption | with_reducible apply enterRecover_keeps | simp only [↓Keeps.mk_iff]
    | with_reducible refine Keeps.ite ?_ ?_ | dsimp only | split

theorem retireRes_keeps {z : State} (s : State) (r : Word) (hz : Keeps z s) : Keeps z (retireRes s r) := by
  unfold retireRes
  repeat' first
    | with_reducible assumption | with_reducible apply abortOn_keeps | with_reducible apply declareRetire_keeps
    | simp only [↓Keeps.mk_iff] | intro _ _ | dsimp only

theorem retirePch_keeps {z : State} (s : State) (pc : Nat) (hz : Keeps z s) : Keeps z (retirePch s pc) := by
  unfold retirePch
  repeat' first
    | with_reducible assumption | with_reducible apply retireRes_keeps | with_reducible apply setPch_keeps
    | simp only [↓Keeps.mk_iff] | with_reducible refine Keeps.ite ?_ ?_ | dsimp only | split

theorem retireChannel_keeps {z : State} (s : State) (c : Nat) (hz : Keeps z s) : Keeps z (retireChannel s c) := by
  unfold retireChannel
  repeat' first
    | with_reducible assumption | with_reducible apply retirePch_keeps | dsimp only

theorem makeUnreadable_keeps {z : State} (s : State) (pc : Nat) (hz : Keeps z s) : Keeps z (makeUnreadable s pc) := by
  unfold makeUnreadable
  repeat' first
    | with_reducible assumption | with_reducible apply setPch_keeps | simp only [↓Keeps.mk_iff]
    | with_reducible refine Keeps.ite ?_ ?_ | intro _ _ | dsimp only | split

theorem viaLadder_keeps {z : State} (s : State) (r : Word) (hz : Keeps z s) : Keeps z (viaLadder s r) := by
  unfold viaLadder
  repeat' first
    | with_reducible assumption | with_reducible apply remapStart_keeps | with_reducible apply makeUnreadable_keeps
    | with_reducible apply flag_keeps | with_reducible apply retirePch_keeps | with_reducible refine Keeps.ite ?_ ?_
    | dsimp only | split

theorem remapFailed_keeps {z : State} (s : State) (c : Nat) (hz : Keeps z s) : Keeps z (remapFailed s c) := by
  unfold remapFailed
  repeat' first
    | with_reducible assumption | with_reducible apply makeUnreadable_keeps | with_reducible apply retirePch_keeps
    | with_reducible refine Keeps.ite ?_ ?_ | with_reducible refine Keeps.foldl _ _ ?_ ?_ | intro _ _ _ | intro _ _
    | dsimp only | split

theorem evacuateFrame_keeps {z : State} (s : State) (f : Nat) (hz : Keeps z s) : Keeps z (evacuateFrame s f) := by
  unfold evacuateFrame
  repeat' first
    | with_reducible assumption | with_reducible apply abortInto_keeps | with_reducible apply updDeficit_keeps
    | with_reducible apply keelRelocate_keeps | with_reducible apply setFlags_keeps | simp only [↓Keeps.mk_iff]
    | with_reducible refine Keeps.ite ?_ ?_ | intro _ _ | dsimp only | split

theorem rowRetire_keeps {z : State} (s : State) (r : Word) (hz : Keeps z s) : Keeps z (rowRetire s r) := by
  unfold rowRetire
  repeat' first
    | with_reducible assumption | with_reducible apply retireRes_keeps | with_reducible apply fill_keeps | dsimp only

theorem rowLadder_keeps {z : State} (s : State) (r : Word) (hz : Keeps z s) : Keeps z (rowLadder s r) := by
  unfold rowLadder
  repeat' first
    | with_reducible assumption | with_reducible apply evacuateFrame_keeps | with_reducible apply rowRetire_keeps
    | simp only [↓Keeps.mk_iff] | with_reducible refine Keeps.ite ?_ ?_ | dsimp only | split

theorem settleRow_keeps {z : State} (s : State) (r : Word) (hz : Keeps z s) : Keeps z (settleRow s r) := by
  unfold settleRow
  repeat' first
    | with_reducible assumption | with_reducible apply setFrame_keeps | with_reducible apply queueZero_keeps
    | with_reducible apply rowRetire_keeps | with_reducible apply rowRepairStart_keeps | simp only [↓Keeps.mk_iff]
    | with_reducible refine Keeps.ite ?_ ?_ | intro _ _ | dsimp only | split

theorem ctrlRetire_keeps {z : State} (s : State) (k : Nat) (hz : Keeps z s) : Keeps z (ctrlRetire s k) := by
  unfold ctrlRetire
  repeat' first
    | with_reducible assumption | with_reducible apply flag_keeps | with_reducible apply recordStep_keeps
    | simp only [↓Keeps.mk_iff] | dsimp only

theorem chanOrphaned_keeps {z : State} (s : State) (c : Nat) (hz : Keeps z s) : Keeps z (chanOrphaned s c) := by
  unfold chanOrphaned
  repeat' first
    | with_reducible assumption | with_reducible apply startRecovery_keeps | with_reducible apply retireChannel_keeps
    | dsimp only

theorem orphanServe_keeps {z : State} (s : State) (k : Nat) (hz : Keeps z s) : Keeps z (orphanServe s k) := by
  unfold orphanServe
  repeat' first
    | with_reducible assumption | with_reducible apply put_keeps | with_reducible apply flag_keeps
    | with_reducible apply chanOrphaned_keeps | with_reducible apply makeUnreadable_keeps | simp only [↓Keeps.mk_iff]
    | with_reducible refine Keeps.ite ?_ ?_ | with_reducible refine Keeps.foldl _ _ ?_ ?_ | intro _ _ _ | intro _ _
    | dsimp only | split

theorem orphan_keeps {z : State} (s : State) (k : Nat) (hz : Keeps z s) : Keeps z (orphan s k) := by
  unfold orphan
  repeat' first
    | with_reducible assumption | with_reducible apply ctrlRetire_keeps | with_reducible apply orphanServe_keeps
    | dsimp only

theorem lendEnd_keeps {z : State} (s : State) (q : Nat) (hz : Keeps z s) : Keeps z (lendEnd s q) := by
  unfold lendEnd
  repeat' first
    | with_reducible assumption | with_reducible apply flag_keeps | simp only [↓Keeps.mk_iff] | dsimp only

theorem ctrlReplace_keeps {z : State} (s : State) (k : Nat) (hz : Keeps z s) : Keeps z (ctrlReplace s k) := by
  unfold ctrlReplace
  repeat' first
    | with_reducible assumption | with_reducible apply recallSlice_keeps | with_reducible apply swapCancel_keeps
    | with_reducible apply swapBegin_keeps | with_reducible apply orphan_keeps | simp only [↓Keeps.mk_iff]
    | with_reducible refine Keeps.ite ?_ ?_ | with_reducible refine Keeps.foldl _ _ ?_ ?_ | intro _ _ _ | intro _ _
    | dsimp only | split

theorem retestAgain_keeps {z : State} (s : State) (k : Nat) (hz : Keeps z s) : Keeps z (retestAgain s k) := by
  unfold retestAgain
  repeat' first
    | with_reducible assumption | with_reducible apply bistFree_keeps | with_reducible apply syncRetest_keeps
    | simp only [↓Keeps.mk_iff] | with_reducible refine Keeps.ite ?_ ?_ | dsimp only | split

theorem spareRetire_keeps {z : State} (s : State) (k : Nat) (hz : Keeps z s) : Keeps z (spareRetire s k) := by
  unfold spareRetire
  repeat' first
    | with_reducible assumption | with_reducible apply recallSlice_keeps | with_reducible apply ctrlReplace_keeps
    | with_reducible apply retestAgain_keeps | with_reducible apply swapCancel_keeps
    | with_reducible apply ctrlRetire_keeps | with_reducible refine Keeps.ite ?_ ?_
    | with_reducible refine Keeps.foldl _ _ ?_ ?_ | intro _ _ _ | intro _ _ | dsimp only | split

theorem orphansGo_keeps {z : State} (s : State) (q : Nat) (hz : Keeps z s) : Keeps z (orphansGo s q) := by
  unfold orphansGo
  repeat' first
    | with_reducible assumption | with_reducible apply chanOrphaned_keeps | simp only [↓Keeps.mk_iff]
    | with_reducible refine Keeps.ite ?_ ?_ | with_reducible refine Keeps.foldl _ _ ?_ ?_ | intro _ _ _ | intro _ _
    | dsimp only | split

theorem ctrlLadder_keeps {z : State} (s : State) (k : Nat) (hz : Keeps z s) : Keeps z (ctrlLadder s k) := by
  unfold ctrlLadder
  repeat' first
    | with_reducible assumption | with_reducible apply spareRetire_keeps | with_reducible apply ctrlReplace_keeps
    | with_reducible apply orphansGo_keeps | with_reducible refine Keeps.ite ?_ ?_ | intro _ _ | dsimp only | split

theorem engRetire_keeps {z : State} (s : State) (e : Nat) (hz : Keeps z s) : Keeps z (engRetire s e) := by
  unfold engRetire
  repeat' first
    | with_reducible assumption | with_reducible apply setEngState_keeps | with_reducible apply flag_keeps
    | with_reducible apply fillSlot_keeps | with_reducible apply recordStep_keeps
    | with_reducible refine Keeps.ite ?_ ?_ | dsimp only | split

theorem engLadder_keeps {z : State} (s : State) (e : Nat) (hz : Keeps z s) : Keeps z (engLadder s e) := by
  unfold engLadder
  repeat' first
    | with_reducible assumption | with_reducible apply recallSlice_keeps | with_reducible apply plannedMove_keeps
    | with_reducible apply engRetire_keeps | with_reducible apply adoptWorks_keeps
    | with_reducible refine Keeps.ite ?_ ?_ | dsimp only | split

theorem macroTake_keeps {z : State} (s : State) (m : Nat) (hz : Keeps z s) : ∀ r, macroTake s m = some r → Keeps z r := by
  intro r h
  unfold macroTake at h
  dsimp only at h
  split at h
  · cases h; exact hz.same rfl rfl rfl rfl rfl
  · cases h

theorem macroTake_getD_keeps {z : State} (s t : State) (m : Nat) (hz : Keeps z s) (ht : Keeps z t) :
    Keeps z ((macroTake s m).getD t) := by
  cases h : macroTake s m with
  | none => exact ht
  | some r => exact macroTake_keeps s m hz r h

theorem macroLadder_keeps {z : State} (s : State) (m : Nat) (hz : Keeps z s) : Keeps z (macroLadder s m) := by
  unfold macroLadder
  repeat' first
    | with_reducible assumption | with_reducible refine macroTake_keeps _ _ ?_ _ (by assumption)
    | with_reducible apply recordStep_keeps | dsimp only | split

theorem ladder_keeps {z : State} (s : State) (r : Word) (hz : Keeps z s) : Keeps z (ladder s r) := by
  unfold ladder
  repeat' first
    | with_reducible assumption | with_reducible apply startRecovery_keeps | with_reducible apply laneLadder_keeps
    | with_reducible apply viaLadder_keeps | with_reducible apply rowLadder_keeps
    | with_reducible apply retireRes_keeps | with_reducible apply fill_keeps | with_reducible apply flag_keeps
    | with_reducible apply ctrlLadder_keeps | with_reducible apply engLadder_keeps
    | with_reducible apply bankRetire_keeps | with_reducible apply macroLadder_keeps
    | with_reducible apply retireChannel_keeps | with_reducible refine Keeps.ite ?_ ?_
    | with_reducible refine Keeps.foldl _ _ ?_ ?_ | intro _ _ _ | intro _ _ | dsimp only | split

theorem runHanded_keeps {z : State} (n : Nat) (s : State) (hz : Keeps z s) : Keeps z (runHanded n s) := by
  induction n generalizing s with
  | zero => exact hz
  | succ n ih =>
    unfold runHanded
    split
    · exact hz
    · exact ih _ (ladder_keeps _ _ (hz.same rfl rfl rfl rfl rfl))

theorem chanRetired_keeps {z : State} (s : State) (c : Nat) (hz : Keeps z s) : Keeps z (chanRetired s c) := by
  unfold chanRetired
  repeat' first
    | with_reducible assumption | with_reducible apply flag_keeps | with_reducible apply lendEnd_keeps
    | with_reducible apply recordStep_keeps | with_reducible refine Keeps.ite ?_ ?_ | intro _ _ | dsimp only | split

theorem closeRes_keeps {z : State} (s : State) (r : Word) (hz : Keeps z s) : Keeps z (closeRes s r) := by
  unfold closeRes
  repeat' first
    | with_reducible assumption | with_reducible apply setPch_keeps | simp only [↓Keeps.mk_iff]
    | with_reducible refine Keeps.ite ?_ ?_ | with_reducible refine Keeps.foldl _ _ ?_ ?_ | intro _ _ _ | intro _ _
    | dsimp only | split

theorem retired__keeps {z : State} (s : State) (r : Word) (hz : Keeps z s) : Keeps z (retired_ s r) := by
  unfold retired_
  repeat' first
    | with_reducible assumption | with_reducible apply closeRes_keeps | with_reducible apply retireFrames_keeps
    | with_reducible apply setBit_keeps | with_reducible apply recordStep_keeps | with_reducible apply flag_keeps
    | with_reducible apply chanRetired_keeps | with_reducible refine Keeps.ite ?_ ?_ | dsimp only | split

theorem finishRetirements_keeps {z : State} (s : State) (hz : Keeps z s) : Keeps z (finishRetirements s) := by
  unfold finishRetirements
  repeat' first
    | with_reducible assumption | with_reducible apply retired__keeps | with_reducible refine Keeps.ite ?_ ?_
    | with_reducible refine Keeps.foldl _ _ ?_ ?_ | intro _ _ _ | intro _ _ | dsimp only | split

theorem swapSettled_keeps {z : State} (s : State) (old : Nat) (hz : Keeps z s) : Keeps z (swapSettled s old) := by
  unfold swapSettled
  repeat' first
    | with_reducible assumption | with_reducible apply lendEnd_keeps | with_reducible apply ctrlRetire_keeps
    | with_reducible refine Keeps.ite ?_ ?_ | intro _ _ | dsimp only | split

theorem settleRecs_keeps {z : State} (s : State) (hz : Keeps z s) : Keeps z (settleRecs s) := by
  unfold settleRecs
  repeat' first
    | with_reducible assumption | with_reducible apply syncRecs_keeps | simp only [↓Keeps.mk_iff] | intro _ _
    | dsimp only

theorem showHealth_keeps {z : State} (s : State) (conds : Nat) (fall : Bool) (hz : Keeps z s) :
    Keeps z (showHealth s conds fall) := by
  unfold showHealth
  repeat' first
    | with_reducible assumption | with_reducible apply wr_keeps | with_reducible apply flag_keeps
    | with_reducible apply put_keeps | with_reducible apply inc_keeps | with_reducible apply logNote_keeps
    | simp only [↓Keeps.mk_iff] | with_reducible refine Keeps.ite ?_ ?_ | dsimp only | split

theorem countOutage_keeps {z : State} (s : State) (hz : Keeps z s) : Keeps z (countOutage s) := by
  unfold countOutage
  repeat' first
    | with_reducible assumption | with_reducible apply inc64_keeps | with_reducible apply inc_keeps
    | with_reducible apply wr_keeps | simp only [↓Keeps.mk_iff] | with_reducible refine Keeps.ite ?_ ?_ | dsimp only
    | split

theorem settle_keeps {z : State} (s : State) (hz : Keeps z s) : Keeps z (settle s) := by
  unfold settle
  repeat' first
    | with_reducible assumption | with_reducible apply runHanded_keeps | with_reducible apply settleRow_keeps
    | with_reducible apply engRetire_keeps | with_reducible apply finishRetirements_keeps
    | with_reducible apply settleRecs_keeps | with_reducible apply countOutage_keeps
    | with_reducible apply showHealth_keeps | with_reducible refine Keeps.foldl _ _ ?_ ?_ | intro _ _ _ | intro _ _
    | dsimp only

theorem healthFall_keeps {z : State} (s : State) (hz : Keeps z s) : Keeps z (healthFall s) := by
  unfold healthFall
  repeat' first
    | with_reducible assumption | with_reducible apply showHealth_keeps | dsimp only

theorem lendSlice_keeps {z : State} (s : State) (q : Nat) (hz : Keeps z s) : Keeps z (lendSlice s q) := by
  unfold lendSlice
  repeat' first
    | with_reducible assumption | simp only [↓Keeps.mk_iff] | with_reducible refine Keeps.ite ?_ ?_ | dsimp only
    | split

theorem retestStart_keeps {z : State} (s : State) (bist : Bool) (hz : Keeps z s) : Keeps z (retestStart s bist) := by
  unfold retestStart
  repeat' first
    | with_reducible assumption | with_reducible apply inc_keeps | with_reducible apply flag_keeps
    | with_reducible apply setEngState_keeps | with_reducible apply syncRetest_keeps
    | with_reducible apply swapBegin_keeps | with_reducible apply scrubStart_keeps | simp only [↓Keeps.mk_iff]
    | with_reducible refine Keeps.ite ?_ ?_ | dsimp only | split

theorem ctrlBack_keeps {z : State} (s : State) (k : Nat) (swapped : Bool) (hz : Keeps z s) :
    Keeps z (ctrlBack s k swapped) := by
  unfold ctrlBack
  repeat' first
    | with_reducible assumption | with_reducible apply swapStart_keeps | with_reducible apply swapBegin_keeps
    | simp only [↓Keeps.mk_iff] | intro _ _ | dsimp only | split

theorem scrubRetestDone_keeps {z : State} (s : State) (hz : Keeps z s) : Keeps z (scrubRetestDone s) := by
  unfold scrubRetestDone
  repeat' first
    | with_reducible assumption | with_reducible apply scrubEnd_keeps | with_reducible apply syncRetest_keeps
    | simp only [↓Keeps.mk_iff] | with_reducible refine Keeps.ite ?_ ?_ | dsimp only | split

theorem bistRetestDone_keeps {z : State} (s : State) (x : Retest) (pass : Bool) (hz : Keeps z s) :
    Keeps z (bistRetestDone s x pass) := by
  unfold bistRetestDone
  repeat' first
    | with_reducible assumption | with_reducible apply bistFree_keeps | with_reducible apply inc_keeps
    | with_reducible apply declare_keeps | with_reducible apply setEngState_keeps | with_reducible apply engBack_keeps
    | with_reducible apply syncEng_keeps | with_reducible apply adoptWorks_keeps | with_reducible apply ctrlBack_keeps
    | with_reducible apply syncRetest_keeps | simp only [↓Keeps.mk_iff] | with_reducible refine Keeps.ite ?_ ?_
    | dsimp only | split

theorem retestDone_keeps {z : State} (s : State) (bist pass : Bool) (hz : Keeps z s) :
    Keeps z (retestDone s bist pass) := by
  unfold retestDone
  repeat' first
    | with_reducible assumption | with_reducible apply scrubRetestDone_keeps
    | with_reducible apply bistRetestDone_keeps | with_reducible refine Keeps.ite ?_ ?_ | dsimp only | split

theorem sliceActive_keeps {z : State} (s : State) (engine : Bool) (q : Nat) (b : Bool) (hz : Keeps z s) :
    Keeps z (sliceActive s engine q b) := by
  unfold sliceActive
  repeat' first
    | with_reducible assumption | with_reducible apply flag_keeps | with_reducible refine Keeps.ite ?_ ?_ | dsimp only
    | split

theorem sliceFence_keeps {z : State} (s : State) (hz : Keeps z s) : Keeps z (sliceFence s) := by
  unfold sliceFence
  repeat' first
    | with_reducible assumption | with_reducible apply handOver_keeps | with_reducible apply setEngState_keeps
    | with_reducible apply flag_keeps | with_reducible refine Keeps.ite ?_ ?_
    | with_reducible refine Keeps.foldl _ _ ?_ ?_ | intro _ _ _ | intro _ _ | dsimp only | split

theorem sliceStart_keeps {z : State} (s : State) (x : Slice) (hz : Keeps z s) : Keeps z (sliceStart s x) := by
  unfold sliceStart
  repeat' first
    | with_reducible assumption | with_reducible apply sliceActive_keeps | with_reducible apply engPowerUp_keeps
    | with_reducible apply plannedMove_keeps | with_reducible apply swapBegin_keeps
    | with_reducible apply sliceFence_keeps | simp only [↓Keeps.mk_iff] | with_reducible refine Keeps.ite ?_ ?_
    | intro _ _ | dsimp only | split

theorem sliceTry_keeps {z : State} (s : State) (x : Slice) (hz : Keeps z s) : Keeps z (sliceTry s x) := by
  unfold sliceTry
  repeat' first
    | with_reducible assumption | with_reducible apply inc_keeps | with_reducible apply sliceStart_keeps
    | simp only [↓Keeps.mk_iff] | with_reducible refine Keeps.ite ?_ ?_ | dsimp only | split

theorem sliceNext_keeps {z : State} (s : State) (hz : Keeps z s) : Keeps z (sliceNext s) := by
  unfold sliceNext
  repeat' first
    | with_reducible assumption | with_reducible apply sliceTry_keeps | simp only [↓Keeps.mk_iff]
    | with_reducible refine Keeps.ite ?_ ?_ | intro _ _ | dsimp only | split

theorem setLast_keeps {z : State} (s : State) (engine : Bool) (u n : Nat) (hz : Keeps z s) :
    Keeps z (setLast s engine u n) := by
  unfold setLast
  repeat' first
    | with_reducible assumption | simp only [↓Keeps.mk_iff] | intro _ _ | dsimp only

theorem slotNext_keeps {z : State} (s : State) (engine : Bool) (q : Nat) (hz : Keeps z s) :
    Keeps z (slotNext s engine q) := by
  unfold slotNext
  repeat' first
    | with_reducible assumption | with_reducible apply put_keeps | with_reducible refine Keeps.ite ?_ ?_ | dsimp only
    | split

theorem cmdEnd_keeps {z : State} (s : State) (f : Fld) (hz : Keeps z s) : Keeps z (cmdEnd s f) := by
  unfold cmdEnd
  repeat' first
    | with_reducible assumption | with_reducible apply flag_keeps | dsimp only

theorem sliceReturn_keeps {z : State} (s : State) (x : Slice) (hz : Keeps z s) : Keeps z (sliceReturn s x) := by
  unfold sliceReturn
  repeat' first
    | with_reducible assumption | with_reducible apply flag_keeps | with_reducible apply setEngState_keeps
    | with_reducible apply syncEng_keeps | with_reducible apply countPlanned_keeps
    | with_reducible apply adoptWorks_keeps | with_reducible apply swapCancel_keeps
    | with_reducible apply swapBegin_keeps | simp only [↓Keeps.mk_iff] | with_reducible refine Keeps.ite ?_ ?_
    | with_reducible refine Keeps.foldl _ _ ?_ ?_ | intro _ _ _ | intro _ _ | dsimp only | split

theorem sliceEnd_keeps {z : State} (s : State) (x : Slice) (hz : Keeps z s) : Keeps z (sliceEnd s x) := by
  unfold sliceEnd
  repeat' first
    | with_reducible assumption | with_reducible apply sliceActive_keeps | with_reducible apply slotNext_keeps
    | simp only [↓Keeps.mk_iff] | with_reducible refine Keeps.ite ?_ ?_ | dsimp only | split

theorem slicePass_keeps {z : State} (s : State) (x : Slice) (hz : Keeps z s) : Keeps z (slicePass s x) := by
  unfold slicePass
  repeat' first
    | with_reducible assumption | with_reducible apply inc_keeps | with_reducible apply setLast_keeps
    | with_reducible apply sliceEnd_keeps | with_reducible apply sliceReturn_keeps | with_reducible apply cmdEnd_keeps
    | simp only [↓Keeps.mk_iff] | with_reducible refine Keeps.ite ?_ ?_ | intro _ _ | dsimp only | split

theorem sliceFail_keeps {z : State} (s : State) (x : Slice) (sig : BitVec 64) (hz : Keeps z s) :
    Keeps z (sliceFail s x sig) := by
  unfold sliceFail
  repeat' first
    | with_reducible assumption | with_reducible apply inc_keeps | with_reducible apply setLast_keeps
    | with_reducible apply wr64_keeps | with_reducible apply flag_keeps | with_reducible apply sliceEnd_keeps
    | with_reducible apply declare_keeps | with_reducible apply setEngState_keeps | with_reducible apply cmdEnd_keeps
    | simp only [↓Keeps.mk_iff] | with_reducible refine Keeps.ite ?_ ?_ | dsimp only | split

theorem sliceDone_keeps {z : State} (s : State) (engine : Bool) (q : Nat) (r : SliceResult) (hz : Keeps z s) :
    Keeps z (sliceDone s engine q r) := by
  unfold sliceDone
  repeat' first
    | with_reducible assumption | with_reducible apply slicePass_keeps | with_reducible apply sliceFail_keeps
    | with_reducible refine Keeps.ite ?_ ?_ | dsimp only | split

theorem sliceTimeout_keeps {z : State} (s : State) (engine : Bool) (q : Nat) (hz : Keeps z s) :
    Keeps z (sliceTimeout s engine q) := by
  unfold sliceTimeout
  repeat' first
    | with_reducible assumption | with_reducible apply inc_keeps | with_reducible apply setLast_keeps
    | with_reducible apply sliceEnd_keeps | with_reducible apply sliceReturn_keeps | with_reducible apply cmdEnd_keeps
    | with_reducible refine Keeps.ite ?_ ?_ | dsimp only | split

theorem dropWaiting_keeps {z : State} (s : State) (engine : Bool) (q : Nat) (hz : Keeps z s) :
    Keeps z (dropWaiting s engine q) := by
  unfold dropWaiting
  repeat' first
    | with_reducible assumption | with_reducible apply setLast_keeps | with_reducible apply cmdEnd_keeps
    | with_reducible apply inc_keeps | with_reducible apply slotNext_keeps | simp only [↓Keeps.mk_iff]
    | with_reducible refine Keeps.ite ?_ ?_ | with_reducible refine Keeps.foldl _ _ ?_ ?_ | intro _ _ _ | intro _ _
    | dsimp only | split

theorem sliceDue_keeps {z : State} (s : State) (engine : Bool) (q : Nat) (hz : Keeps z s) :
    Keeps z (sliceDue s engine q) := by
  unfold sliceDue
  repeat' first
    | with_reducible assumption | with_reducible apply dropWaiting_keeps | with_reducible apply inc_keeps
    | with_reducible apply slotNext_keeps | with_reducible apply sliceTry_keeps | simp only [↓Keeps.mk_iff]
    | with_reducible refine Keeps.ite ?_ ?_ | dsimp only | split

theorem sliceRetry_keeps {z : State} (s : State) (engine : Bool) (q : Nat) (hz : Keeps z s) :
    Keeps z (sliceRetry s engine q) := by
  unfold sliceRetry
  repeat' first
    | with_reducible assumption | with_reducible apply sliceTry_keeps | simp only [↓Keeps.mk_iff] | intro _ _
    | dsimp only | split

theorem bistCmd_keeps {z : State} (s : State) (v : Word) (hz : Keeps z s) : Keeps z (bistCmd s v) := by
  unfold bistCmd
  repeat' first
    | with_reducible assumption | with_reducible apply flag_keeps | with_reducible apply sliceTry_keeps
    | simp only [↓Keeps.mk_iff] | with_reducible refine Keeps.ite ?_ ?_ | intro _ _ | dsimp only | split

theorem spareLaneCheck_keeps {z : State} (s : State) (g : Nat) (rx tx : Bool) (hz : Keeps z s) :
    Keeps z (spareLaneCheck s g rx tx) := by
  unfold spareLaneCheck
  repeat' first
    | with_reducible assumption | with_reducible apply inc_keeps | with_reducible apply put_keeps
    | simp only [↓Keeps.mk_iff] | with_reducible refine Keeps.ite ?_ ?_ | intro _ _ | dsimp only | split

theorem spareViaOut_keeps {z : State} (s : State) (c p : Nat) (v : ViaId) (hz : Keeps z s) :
    Keeps z (spareViaOut s c p v) := by
  unfold spareViaOut
  repeat' first
    | with_reducible assumption | with_reducible apply recordStep_keeps | with_reducible apply countSpares_keeps
    | simp only [↓Keeps.mk_iff] | dsimp only

theorem spareViaCheck_keeps {z : State} (s : State) (c p : Nat) (v : ViaId) (fail : Bool) (hz : Keeps z s) :
    Keeps z (spareViaCheck s c p v fail) := by
  unfold spareViaCheck
  repeat' first
    | with_reducible assumption | with_reducible apply inc_keeps | with_reducible apply spareViaOut_keeps
    | simp only [↓Keeps.mk_iff] | with_reducible refine Keeps.ite ?_ ?_ | intro _ _ | dsimp only | split

end State

end Sys2Proof.Machine
end

