-- ==== Sys2Proof/Laws/KeepsMgmt.lean ====
section
/-! SUPPORT. What every operation of the stack keeps: flash, heat, wear, OTP, security, calibration and management. -/

namespace Sys2Proof.Machine

namespace State

theorem flashRead_keeps {z : State} (s : State) (n : Nat) (hz : Keeps z s) : Keeps z (flashRead s n) := by
  unfold flashRead
  repeat' first
    | with_reducible assumption | with_reducible apply inc_keeps | simp only [↓Keeps.mk_iff] | dsimp only

theorem flashProgram_keeps {z : State} (s : State) (a : Nat) (bytes : List Nat) (hz : Keeps z s) :
    Keeps z (flashProgram s a bytes) := by
  unfold flashProgram
  repeat' first
    | with_reducible assumption | with_reducible apply inc_keeps | simp only [↓Keeps.mk_iff] | dsimp only

theorem flashErase_keeps {z : State} (s : State) (a n : Nat) (hz : Keeps z s) : Keeps z (flashErase s a n) := by
  unfold flashErase
  repeat' first
    | with_reducible assumption | with_reducible apply inc_keeps | simp only [↓Keeps.mk_iff] | intro _ _ | dsimp only

theorem setModel_keeps {z : State} (s : State) (i : Nat) (t : Rat) (hz : Keeps z s) : Keeps z (setModel s i t) := by
  unfold setModel
  repeat' first
    | with_reducible assumption | simp only [↓Keeps.mk_iff] | intro _ _ | dsimp only

theorem modelInit_keeps {z : State} (s : State) (hz : Keeps z s) : Keeps z (modelInit s) := by
  unfold modelInit
  repeat' first
    | with_reducible assumption | with_reducible apply setModel_keeps | with_reducible refine Keeps.foldl _ _ ?_ ?_
    | intro _ _ _ | intro _ _ | dsimp only | split

theorem showTherm_keeps {z : State} (s : State) (hz : Keeps z s) : Keeps z (showTherm s) := by
  unfold showTherm
  repeat' first
    | with_reducible assumption | with_reducible apply put_keeps | with_reducible refine Keeps.ite ?_ ?_
    | with_reducible refine Keeps.foldl _ _ ?_ ?_ | with_reducible refine Keeps.foldlSnd _ _ ?_ ?_
    | with_reducible refine Keeps.foldlFst _ _ ?_ ?_ | intro _ _ _ | intro _ _ | dsimp only | split

theorem setVsel_keeps {z : State} (s : State) (n : Nat) (hz : Keeps z s) : Keeps z (setVsel s n) := by
  unfold setVsel
  repeat' first
    | with_reducible assumption | with_reducible apply put_keeps | dsimp only

theorem ceilingAllow_keeps {z : State} (s : State) (hz : Keeps z s) : Keeps z (ceilingAllow s) := by
  unfold ceilingAllow
  repeat' first
    | with_reducible assumption | with_reducible apply put_keeps | with_reducible refine Keeps.ite ?_ ?_ | dsimp only
    | split

theorem dvBegin_keeps {z : State} (s : State) (dest : Nat) (hz : Keeps z s) : Keeps z (dvBegin s dest) := by
  unfold dvBegin
  repeat' first
    | with_reducible assumption | with_reducible apply flag_keeps | with_reducible apply setVsel_keeps
    | simp only [↓Keeps.mk_iff] | with_reducible refine Keeps.ite ?_ ?_ | dsimp only | split

theorem dvCancel_keeps {z : State} (s : State) (hz : Keeps z s) : Keeps z (dvCancel s) := by
  unfold dvCancel
  repeat' first
    | with_reducible assumption | with_reducible apply flag_keeps | with_reducible apply setVsel_keeps
    | simp only [↓Keeps.mk_iff] | dsimp only

theorem dvUpdate_keeps {z : State} (s : State) (hz : Keeps z s) : Keeps z (dvUpdate s) := by
  unfold dvUpdate
  repeat' first
    | with_reducible assumption | with_reducible apply dvCancel_keeps | with_reducible apply dvBegin_keeps
    | simp only [↓Keeps.mk_iff] | with_reducible refine Keeps.ite ?_ ?_ | dsimp only | split

theorem ceilingStep_keeps {z : State} (s : State) (hz : Keeps z s) : Keeps z (ceilingStep s) := by
  unfold ceilingStep
  repeat' first
    | with_reducible assumption | with_reducible apply put_keeps | with_reducible apply dvUpdate_keeps
    | simp only [↓Keeps.mk_iff] | with_reducible refine Keeps.ite ?_ ?_ | dsimp only | split

theorem upHold_keeps {z : State} (s : State) (hz : Keeps z s) : Keeps z (upHold s) := by
  unfold upHold
  repeat' first
    | with_reducible assumption | with_reducible apply put_keeps | with_reducible apply dvUpdate_keeps
    | simp only [↓Keeps.mk_iff] | with_reducible refine Keeps.ite ?_ ?_ | dsimp only | split

theorem clockSwitch_keeps {z : State} (s : State) (hz : Keeps z s) : Keeps z (clockSwitch s) := by
  unfold clockSwitch
  repeat' first
    | with_reducible assumption | with_reducible apply put_keeps | with_reducible apply flag_keeps
    | with_reducible apply setVsel_keeps | with_reducible apply inc_keeps | with_reducible apply dvUpdate_keeps
    | simp only [↓Keeps.mk_iff] | with_reducible refine Keeps.ite ?_ ?_ | dsimp only | split

theorem vddFault_keeps {z : State} (s : State) (hz : Keeps z s) : Keeps z (vddFault s) := by
  unfold vddFault
  repeat' first
    | with_reducible assumption | with_reducible apply inc_keeps | with_reducible apply flag_keeps
    | with_reducible refine Keeps.ite ?_ ?_ | dsimp only | split

theorem vsettleTimeout_keeps {z : State} (s : State) (hz : Keeps z s) : Keeps z (vsettleTimeout s) := by
  unfold vsettleTimeout
  repeat' first
    | with_reducible assumption | with_reducible apply dvCancel_keeps | with_reducible apply vddFault_keeps
    | simp only [↓Keeps.mk_iff] | with_reducible refine Keeps.ite ?_ ?_ | dsimp only | split

theorem dvForced_keeps {z : State} (s : State) (hz : Keeps z s) : Keeps z (dvForced s) := by
  unfold dvForced
  repeat' first
    | with_reducible assumption | with_reducible apply dvCancel_keeps | with_reducible apply inc_keeps
    | simp only [↓Keeps.mk_iff] | with_reducible refine Keeps.ite ?_ ?_ | dsimp only | split

theorem undervolt_keeps {z : State} (s : State) (hz : Keeps z s) : Keeps z (undervolt s) := by
  unfold undervolt
  repeat' first
    | with_reducible assumption | with_reducible apply dvCancel_keeps | with_reducible apply put_keeps
    | with_reducible apply dvForced_keeps | with_reducible apply vddFault_keeps | simp only [↓Keeps.mk_iff]
    | with_reducible refine Keeps.ite ?_ ?_ | dsimp only | split

theorem showCap_keeps {z : State} (s : State) (hz : Keeps z s) : Keeps z (showCap s) := by
  unfold showCap
  repeat' first
    | with_reducible assumption | with_reducible apply put_keeps | with_reducible apply flag_keeps | dsimp only

theorem capStep_keeps {z : State} (s : State) (sum lever : Rat) (hz : Keeps z s) : Keeps z (capStep s sum lever) := by
  unfold capStep
  repeat' first
    | with_reducible assumption | with_reducible apply inc64_keeps | with_reducible apply showCap_keeps
    | simp only [↓Keeps.mk_iff] | dsimp only

theorem capWindowStart_keeps {z : State} (s : State) (hz : Keeps z s) : Keeps z (capWindowStart s) := by
  unfold capWindowStart
  repeat' first
    | with_reducible assumption | with_reducible apply put_keeps | with_reducible apply showCap_keeps
    | simp only [↓Keeps.mk_iff] | with_reducible refine Keeps.ite ?_ ?_ | dsimp only | split

theorem countHot_keeps {z : State} (s : State) (hz : Keeps z s) : Keeps z (countHot s) := by
  unfold countHot
  repeat' first
    | with_reducible assumption | simp only [↓Keeps.mk_iff] | with_reducible refine Keeps.ite ?_ ?_
    | with_reducible refine Keeps.foldl _ _ ?_ ?_ | intro _ _ _ | intro _ _ | dsimp only | split

theorem ventStep_keeps {z : State} (s : State) (hz : Keeps z s) : Keeps z (ventStep s) := by
  unfold ventStep
  repeat' first
    | with_reducible assumption | with_reducible apply inc64_keeps | simp only [↓Keeps.mk_iff]
    | with_reducible refine Keeps.ite ?_ ?_ | intro _ _ | dsimp only | split

theorem modelStep_keeps {z : State} (s : State) (l : List Activity) (hz : Keeps z s) : Keeps z (modelStep s l) := by
  unfold modelStep
  repeat' first
    | with_reducible assumption | simp only [↓Keeps.mk_iff] | intro _ _ | dsimp only

theorem estimatorStep_keeps {z : State} (s : State) (l : List Activity) (hz : Keeps z s) :
    Keeps z (estimatorStep s l) := by
  unfold estimatorStep
  repeat' first
    | with_reducible assumption | with_reducible apply modelStep_keeps | with_reducible apply countHot_keeps
    | with_reducible apply ventStep_keeps | with_reducible apply capStep_keeps | with_reducible apply refreshUp_keeps
    | with_reducible apply ceilingStep_keeps | with_reducible apply showTherm_keeps
    | with_reducible apply tempTrain_keeps | with_reducible refine Keeps.ite ?_ ?_
    | with_reducible refine Keeps.foldl _ _ ?_ ?_ | intro _ _ _ | intro _ _ | dsimp only | split

theorem sampleSensor_keeps {z : State} (s : State) (n : Nat) (code : BitVec 12) (hz : Keeps z s) :
    Keeps z (sampleSensor s n code) := by
  unfold sampleSensor
  repeat' first
    | with_reducible assumption | with_reducible apply inc_keeps | simp only [↓Keeps.mk_iff]
    | with_reducible refine Keeps.ite ?_ ?_ | intro _ _ | dsimp only | split

theorem suspectTest_keeps {z : State} (s : State) (n : Nat) (hz : Keeps z s) : Keeps z (suspectTest s n) := by
  unfold suspectTest
  repeat' first
    | with_reducible assumption | with_reducible apply inc_keeps | simp only [↓Keeps.mk_iff]
    | with_reducible refine Keeps.ite ?_ ?_ | intro _ _ | dsimp only | split

theorem adcRound_keeps {z : State} (s : State) (bg gnd : BitVec 12) (hz : Keeps z s) :
    Keeps z (adcRound s bg gnd) := by
  unfold adcRound
  repeat' first
    | with_reducible assumption | with_reducible apply put_keeps | with_reducible apply inc_keeps
    | simp only [↓Keeps.mk_iff] | with_reducible refine Keeps.ite ?_ ?_ | intro _ _ | dsimp only | split

theorem railRound_keeps {z : State} (s : State) (r : Nat) (v i : BitVec 12) (hz : Keeps z s) :
    Keeps z (railRound s r v i) := by
  unfold railRound
  repeat' first
    | with_reducible assumption | with_reducible apply put_keeps | with_reducible apply flag_keeps
    | with_reducible refine Keeps.ite ?_ ?_ | dsimp only | split

theorem kRound_keeps {z : State} (s : State) (hz : Keeps z s) : Keeps z (kRound s) := by
  unfold kRound
  repeat' first
    | with_reducible assumption | with_reducible apply put_keeps | simp only [↓Keeps.mk_iff]
    | with_reducible refine Keeps.ite ?_ ?_ | dsimp only | split

theorem lidRound_keeps {z : State} (s : State) (hz : Keeps z s) : Keeps z (lidRound s) := by
  unfold lidRound
  repeat' first
    | with_reducible assumption | with_reducible apply flag_keeps | with_reducible apply setModel_keeps
    | with_reducible refine Keeps.ite ?_ ?_ | with_reducible refine Keeps.foldl _ _ ?_ ?_ | intro _ _ _ | intro _ _
    | dsimp only | split

theorem adcRefSensors_keeps {z : State} (s : State) (hz : Keeps z s) : Keeps z (adcRefSensors s) := by
  unfold adcRefSensors
  repeat' first
    | with_reducible assumption | with_reducible apply inc_keeps | simp only [↓Keeps.mk_iff]
    | with_reducible refine Keeps.ite ?_ ?_ | intro _ _ | dsimp only | split

theorem thermRound_keeps {z : State} (s : State) (codes : List (BitVec 12)) (hz : Keeps z s) :
    Keeps z (thermRound s codes) := by
  unfold thermRound
  repeat' first
    | with_reducible assumption | with_reducible apply adcRound_keeps | with_reducible apply sampleSensor_keeps
    | with_reducible apply adcRefSensors_keeps | with_reducible apply railRound_keeps
    | with_reducible apply modelInit_keeps | with_reducible apply suspectTest_keeps
    | with_reducible apply lidRound_keeps | with_reducible apply kRound_keeps | with_reducible apply flag_keeps
    | with_reducible apply inc_keeps | with_reducible apply showTherm_keeps | with_reducible apply tempTrain_keeps
    | simp only [↓Keeps.mk_iff] | with_reducible refine Keeps.ite ?_ ?_ | with_reducible refine Keeps.foldl _ _ ?_ ?_
    | intro _ _ _ | intro _ _ | dsimp only | split

theorem setWear_keeps {z : State} (s : State) (i : Nat) (w : Wear) (hz : Keeps z s) : Keeps z (setWear s i w) := by
  unfold setWear
  repeat' first
    | with_reducible assumption | simp only [↓Keeps.mk_iff] | intro _ _ | dsimp only

theorem showWear_keeps {z : State} (s : State) (hz : Keeps z s) : Keeps z (showWear s) := by
  unfold showWear
  repeat' first
    | with_reducible assumption | with_reducible apply put_keeps | with_reducible apply flag_keeps
    | with_reducible apply wr64_keeps | with_reducible refine Keeps.ite ?_ ?_
    | with_reducible refine Keeps.foldl _ _ ?_ ?_ | intro _ _ _ | intro _ _ | dsimp only | split

theorem wearRound_keeps {z : State} (s : State) (hz : Keeps z s) : Keeps z (wearRound s) := by
  unfold wearRound
  repeat' first
    | with_reducible assumption | with_reducible apply setWear_keeps | with_reducible apply showWear_keeps
    | simp only [↓Keeps.mk_iff] | with_reducible refine Keeps.ite ?_ ?_ | with_reducible refine Keeps.foldl _ _ ?_ ?_
    | intro _ _ _ | intro _ _ | dsimp only | split

theorem keelWear_keeps {z : State} (s : State) (seq : Nat) (r : List Nat) (hz : Keeps z s) :
    Keeps z (keelWear s seq r) := by
  unfold keelWear
  repeat' first
    | with_reducible assumption | simp only [↓Keeps.mk_iff] | intro _ _ | dsimp only

theorem flashWear_keeps {z : State} (s : State) (seq : Nat) (r : List Nat) (failed : Bool) (hz : Keeps z s) :
    Keeps z (flashWear s seq r failed) := by
  unfold flashWear
  repeat' first
    | with_reducible assumption | with_reducible apply flashErase_keeps | with_reducible apply flashProgram_keeps
    | with_reducible refine Keeps.ite ?_ ?_ | dsimp only | split

theorem wearSave_keeps {z : State} (s : State) (failed : Bool) (hz : Keeps z s) : Keeps z (wearSave s failed) := by
  unfold wearSave
  repeat' first
    | with_reducible assumption | with_reducible apply flashWear_keeps | with_reducible apply keelWear_keeps
    | with_reducible apply inc_keeps | simp only [↓Keeps.mk_iff] | with_reducible refine Keeps.ite ?_ ?_ | dsimp only
    | split

theorem tripSave_keeps {z : State} (s : State) (hz : Keeps z s) : Keeps z (tripSave s) := by
  unfold tripSave
  repeat' first
    | with_reducible assumption | with_reducible apply flashWear_keeps | with_reducible apply inc_keeps
    | simp only [↓Keeps.mk_iff] | dsimp only

theorem saveNow_keeps {z : State} (s : State) (v : Word) (failed : Bool) (hz : Keeps z s) :
    Keeps z (saveNow s v failed) := by
  unfold saveNow
  repeat' first
    | with_reducible assumption | with_reducible apply wearSave_keeps | with_reducible refine Keeps.ite ?_ ?_
    | dsimp only | split

theorem showLife_keeps {z : State} (s : State) (hz : Keeps z s) : Keeps z (showLife s) := by
  unfold showLife
  repeat' first
    | with_reducible assumption | with_reducible apply wr_keeps | with_reducible refine Keeps.foldl _ _ ?_ ?_
    | intro _ _ _ | intro _ _ | dsimp only

theorem hourMark_keeps {z : State} (s : State) (hz : Keeps z s) : Keeps z (hourMark s) := by
  unfold hourMark
  repeat' first
    | with_reducible assumption | with_reducible apply setWear_keeps | with_reducible apply showLife_keeps
    | simp only [↓Keeps.mk_iff] | with_reducible refine Keeps.ite ?_ ?_ | with_reducible refine Keeps.foldl _ _ ?_ ?_
    | intro _ _ _ | intro _ _ | dsimp only | split

theorem wearHourly_keeps {z : State} (s : State) (failed : Bool) (hz : Keeps z s) :
    Keeps z (wearHourly s failed) := by
  unfold wearHourly
  repeat' first
    | with_reducible assumption | with_reducible apply hourMark_keeps | with_reducible apply wearSave_keeps
    | with_reducible refine Keeps.ite ?_ ?_ | dsimp only | split

theorem wearTake_keeps {z : State} (s : State) (x : Nat × Nat × List Nat) (hz : Keeps z s) :
    Keeps z (wearTake s x) := by
  unfold wearTake
  repeat' first
    | with_reducible assumption | with_reducible apply setWear_keeps | with_reducible apply put_keeps
    | with_reducible apply showWear_keeps | simp only [↓Keeps.mk_iff] | with_reducible refine Keeps.foldl _ _ ?_ ?_
    | intro _ _ _ | intro _ _ | dsimp only

theorem wearFromKeel_keeps {z : State} (s : State) (hz : Keeps z s) : Keeps z (wearFromKeel s) := by
  unfold wearFromKeel
  repeat' first
    | with_reducible assumption | with_reducible apply wearTake_keeps | with_reducible refine Keeps.ite ?_ ?_
    | intro _ _ | dsimp only | split

theorem wearRestore_keeps {z : State} (s : State) (hz : Keeps z s) : Keeps z (wearRestore s) := by
  unfold wearRestore
  repeat' first
    | with_reducible assumption | with_reducible apply put_keeps | with_reducible apply wearTake_keeps | dsimp only
    | split

theorem otpReadWord_keeps {z : State} (odd : List OtpRead) (s : State) (w : Nat) (hz : Keeps z s) :
    Keeps z (otpReadWord odd s w) := by
  unfold otpReadWord
  repeat' first
    | with_reducible assumption | simp only [↓Keeps.mk_iff] | simp only [↓Keeps.mk_iff_otp]
    | with_reducible refine Keeps.ite ?_ ?_ | intro _ _ | dsimp only | split

theorem showMarginal_keeps {z : State} (s : State) (hz : Keeps z s) : Keeps z (showMarginal s) := by
  unfold showMarginal
  repeat' first
    | with_reducible assumption | with_reducible apply put_keeps | dsimp only

theorem showFuses_keeps {z : State} (s : State) (hz : Keeps z s) : Keeps z (showFuses s) := by
  unfold showFuses
  repeat' first
    | with_reducible assumption | with_reducible apply wr_keeps | with_reducible apply put_keeps
    | with_reducible refine Keeps.foldl _ _ ?_ ?_ | intro _ _ _ | intro _ _ | dsimp only

theorem showAppend_keeps {z : State} (s : State) (hz : Keeps z s) : Keeps z (showAppend s) := by
  unfold showAppend
  repeat' first
    | with_reducible assumption | with_reducible apply put_keeps | with_reducible apply flag_keeps | dsimp only

theorem otpBootRead_keeps {z : State} (s : State) (odd : List OtpRead) (hz : Keeps z s) :
    Keeps z (otpBootRead s odd) := by
  unfold otpBootRead
  repeat' first
    | with_reducible assumption | with_reducible apply otpReadWord_keeps | with_reducible apply showMarginal_keeps
    | with_reducible apply showFuses_keeps | with_reducible apply showAppend_keeps | with_reducible apply put_keeps
    | simp only [↓Keeps.mk_iff] | simp only [↓Keeps.mk_iff_otp] | with_reducible refine Keeps.foldl _ _ ?_ ?_
    | intro _ _ _ | intro _ _ | dsimp only

theorem lower5_keeps {z : State} (s : State) (a : Nat) (f : Fld) (hz : Keeps z s) : Keeps z (lower5 s a f) := by
  unfold lower5
  repeat' first
    | with_reducible assumption | with_reducible apply put_keeps | dsimp only

theorem integCheck_keeps {z : State} (s : State) (hz : Keeps z s) : Keeps z (integCheck s) := by
  unfold integCheck
  repeat' first
    | with_reducible assumption | with_reducible apply put_keeps | with_reducible apply flag_keeps
    | with_reducible apply wr_keeps | with_reducible apply lower5_keeps | with_reducible refine Keeps.ite ?_ ?_
    | dsimp only | split

theorem setResult_keeps {z : State} (s : State) (n : Nat) (hz : Keeps z s) : Keeps z (setResult s n) := by
  unfold setResult
  repeat' first
    | with_reducible assumption | with_reducible apply put_keeps | dsimp only

theorem progStart_keeps {z : State} (s : State) (allowed : Bool) (ws : List (Nat × Word)) (hz : Keeps z s) :
    Keeps z (progStart s allowed ws) := by
  unfold progStart
  repeat' first
    | with_reducible assumption | with_reducible apply setResult_keeps | with_reducible apply flag_keeps
    | simp only [↓Keeps.mk_iff] | simp only [↓Keeps.mk_iff_otp] | with_reducible refine Keeps.ite ?_ ?_ | intro _ _
    | dsimp only | split

theorem repairAppend_keeps {z : State} (s : State) (hz : Keeps z s) : Keeps z (repairAppend s) := by
  unfold repairAppend
  repeat' first
    | with_reducible assumption | with_reducible apply flag_keeps | simp only [↓Keeps.mk_iff]
    | simp only [↓Keeps.mk_iff_otp] | with_reducible refine Keeps.ite ?_ ?_ | dsimp only | split

theorem progFirst_keeps {z : State} (s : State) (key : BitVec 16) (go : State → State) (hz : Keeps z s)
    (hg : ∀ t, Keeps z t → Keeps z (go t)) : Keeps z (progFirst s key go) := by
  unfold progFirst
  exact Keeps.ite hz (Keeps.ite (repairAppend_keeps s hz) (hg _ (repairAppend_keeps s hz)))

theorem progWord_keeps {z : State} (s : State) (key : BitVec 16) (hz : Keeps z s) : Keeps z (progWord s key) := by
  unfold progWord
  repeat' first
    | with_reducible assumption | with_reducible apply progFirst_keeps | with_reducible apply progStart_keeps
    | with_reducible refine Keeps.ite ?_ ?_ | intro _ _ | dsimp only | split

theorem genSecret_keeps {z : State} (s : State) (key : BitVec 16) (hz : Keeps z s) : Keeps z (genSecret s key) := by
  unfold genSecret
  repeat' first
    | with_reducible assumption | with_reducible apply progFirst_keeps | with_reducible apply setResult_keeps
    | with_reducible apply progStart_keeps | simp only [↓Keeps.mk_iff] | with_reducible refine Keeps.ite ?_ ?_
    | intro _ _ | dsimp only | split

theorem lifeNext_keeps {z : State} (s : State) (key : BitVec 16) (hz : Keeps z s) : Keeps z (lifeNext s key) := by
  unfold lifeNext
  repeat' first
    | with_reducible assumption | with_reducible apply progFirst_keeps | with_reducible apply progStart_keeps
    | intro _ _ | dsimp only

theorem lifeVoid_keeps {z : State} (s : State) (key : BitVec 16) (hz : Keeps z s) : Keeps z (lifeVoid s key) := by
  unfold lifeVoid
  repeat' first
    | with_reducible assumption | with_reducible apply progFirst_keeps | with_reducible apply progStart_keeps
    | intro _ _ | dsimp only

/-- Bits are set in the array and never cleared (R369). -/
theorem otpSet_keeps {z : State} (s : State) (w : Nat) (x : BitVec 39) (hz : Keeps z s) : Keeps z (otpSet s w x) := by
  refine hz.trans ⟨rfl, Nat.le_refl _, id, id, Sys2Proof.Laws.SMap.wf_set _ _ _ _, ?_⟩
  intro v i h
  by_cases e : v = w
  · subst e
    simp only [otpSet, Sys2Proof.Laws.SMap.get_set_same, BitVec.getLsbD_or, otpStored, h, Bool.true_or]
  · simp only [otpSet, Sys2Proof.Laws.SMap.get_set_other _ e]
    exact h

theorem progEnd_keeps {z : State} (s : State) (o : OtpOp) (result : Nat) (hz : Keeps z s) :
    Keeps z (progEnd s o result) := by
  unfold progEnd
  repeat' first
    | with_reducible assumption | with_reducible apply flag_keeps | with_reducible apply showAppend_keeps
    | with_reducible apply setResult_keeps | simp only [↓Keeps.mk_iff] | simp only [↓Keeps.mk_iff_otp]
    | with_reducible refine Keeps.ite ?_ ?_ | dsimp only | split

theorem progDone_keeps {z : State} (s : State) (how : OtpEnd) (hz : Keeps z s) : Keeps z (progDone s how) := by
  unfold progDone
  repeat' first
    | with_reducible assumption | with_reducible apply progEnd_keeps | with_reducible apply otpSet_keeps
    | with_reducible apply incSat_keeps | with_reducible apply flag_keeps | simp only [↓Keeps.mk_iff]
    | simp only [↓Keeps.mk_iff_otp] | with_reducible refine Keeps.ite ?_ ?_ | dsimp only | split

theorem otpRound_keeps {z : State} (s : State) (hz : Keeps z s) : Keeps z (otpRound s) := by
  unfold otpRound
  repeat' first
    | with_reducible assumption | simp only [↓Keeps.mk_iff] | simp only [↓Keeps.mk_iff_otp]
    | with_reducible refine Keeps.ite ?_ ?_ | dsimp only | split

theorem otpReread_keeps {z : State} (s : State) (reads : List OtpRead) (hz : Keeps z s) :
    Keeps z (otpReread s reads) := by
  unfold otpReread
  repeat' first
    | with_reducible assumption | with_reducible apply incSat_keeps | with_reducible apply showMarginal_keeps
    | simp only [↓Keeps.mk_iff] | simp only [↓Keeps.mk_iff_otp] | with_reducible refine Keeps.ite ?_ ?_ | intro _ _
    | dsimp only | split

theorem mirrorWrite_keeps {z : State} (s : State) (half i seq : Nat) (r : Word × Word) (hz : Keeps z s) :
    Keeps z (mirrorWrite s half i seq r) := by
  unfold mirrorWrite
  repeat' first
    | with_reducible assumption | with_reducible apply flashProgram_keeps | dsimp only

theorem mirrorErase_keeps {z : State} (s : State) (half : Nat) (hz : Keeps z s) : Keeps z (mirrorErase s half) := by
  unfold mirrorErase
  repeat' first
    | with_reducible assumption | with_reducible apply flashErase_keeps | dsimp only

theorem mirrorPush_keeps {z : State} (s : State) (r : Word × Word) (hz : Keeps z s) : Keeps z (mirrorPush s r) := by
  unfold mirrorPush
  repeat' first
    | with_reducible assumption | with_reducible apply mirrorWrite_keeps | simp only [↓Keeps.mk_iff] | dsimp only

theorem mirrorTurn_keeps {z : State} (s : State) (hz : Keeps z s) : Keeps z (mirrorTurn s) := by
  unfold mirrorTurn
  repeat' first
    | with_reducible assumption | with_reducible apply mirrorErase_keeps | with_reducible apply mirrorPush_keeps
    | simp only [↓Keeps.mk_iff] | with_reducible refine Keeps.foldl _ _ ?_ ?_ | intro _ _ _ | intro _ _ | dsimp only

theorem mirrorRecord_keeps {z : State} (s : State) (r : Word × Word) (hz : Keeps z s) :
    Keeps z (mirrorRecord s r) := by
  unfold mirrorRecord
  repeat' first
    | with_reducible assumption | with_reducible apply mirrorTurn_keeps | with_reducible apply mirrorPush_keeps
    | with_reducible refine Keeps.ite ?_ ?_ | dsimp only | split

theorem queueAppend_keeps {z : State} (s : State) (r : Word × Word) (hz : Keeps z s) : Keeps z (queueAppend s r) := by
  unfold queueAppend
  repeat' first
    | with_reducible assumption | with_reducible apply showAppend_keeps | simp only [↓Keeps.mk_iff]
    | simp only [↓Keeps.mk_iff_otp] | with_reducible refine Keeps.ite ?_ ?_ | dsimp only | split

theorem showMerged_keeps {z : State} (s : State) (hz : Keeps z s) : Keeps z (showMerged s) := by
  unfold showMerged
  repeat' first
    | with_reducible assumption | with_reducible apply wr_keeps | dsimp only

theorem recordCommit_keeps {z : State} (s : State) (hz : Keeps z s) : Keeps z (recordCommit s) := by
  unfold recordCommit
  repeat' first
    | with_reducible assumption | with_reducible apply mirrorRecord_keeps | with_reducible apply queueAppend_keeps
    | with_reducible apply showMerged_keeps | simp only [↓Keeps.mk_iff] | with_reducible refine Keeps.ite ?_ ?_
    | dsimp only | split

theorem mirrorState_keeps {z : State} (s : State) (a b : List (Nat × Nat × Word × Word)) (hz : Keeps z s) :
    Keeps z (mirrorState s a b) := by
  unfold mirrorState
  repeat' first
    | with_reducible assumption | simp only [↓Keeps.mk_iff] | with_reducible refine Keeps.ite ?_ ?_ | dsimp only
    | split

theorem mergeLists_keeps {z : State} (s : State) (arr mir : List (Word × Word)) (hz : Keeps z s) :
    Keeps z (mergeLists s arr mir) := by
  unfold mergeLists
  repeat' first
    | with_reducible assumption | with_reducible apply mirrorRecord_keeps | with_reducible apply queueAppend_keeps
    | with_reducible apply showMerged_keeps | simp only [↓Keeps.mk_iff] | with_reducible refine Keeps.foldl _ _ ?_ ?_
    | intro _ _ _ | intro _ _ | dsimp only

theorem mergeRecords_keeps {z : State} (s : State) (hz : Keeps z s) : Keeps z (mergeRecords s) := by
  unfold mergeRecords
  repeat' first
    | with_reducible assumption | with_reducible apply mirrorState_keeps | with_reducible apply mergeLists_keeps
    | intro _ _ | dsimp only

theorem signWith_keeps {z : State} (s : State) (key digest : BitVec 384) (hz : Keeps z s) :
    Keeps z (signWith s key digest).2 := by
  unfold signWith
  repeat' first
    | with_reducible assumption | simp only [↓Keeps.mk_iff] | dsimp only

theorem putDigest_keeps {z : State} (s : State) (a : Nat → Nat) (d : BitVec 384) (hz : Keeps z s) :
    Keeps z (putDigest s a d) := by
  unfold putDigest
  repeat' first
    | with_reducible assumption | with_reducible apply wr_keeps | with_reducible refine Keeps.foldl _ _ ?_ ?_
    | intro _ _ _ | intro _ _ | dsimp only

theorem loadSecret_keeps {z : State} (s : State) (bistOk : Bool) (hz : Keeps z s) :
    Keeps z (loadSecret s bistOk) := by
  unfold loadSecret
  repeat' first
    | with_reducible assumption | with_reducible apply flag_keeps | with_reducible apply putDigest_keeps
    | simp only [↓Keeps.mk_iff] | with_reducible refine Keeps.ite ?_ ?_ | dsimp only | split

theorem makeAlias_keeps {z : State} (s : State) (hz : Keeps z s) : Keeps z (makeAlias s) := by
  unfold makeAlias
  repeat' first
    | with_reducible assumption | with_reducible apply signWith_keeps | simp only [↓Keeps.mk_iff] | dsimp only | split

theorem imageLoad_keeps {z : State} (s : State) (i : Nat) (hz : Keeps z s) : Keeps z (imageLoad s i) := by
  unfold imageLoad
  repeat' first
    | with_reducible assumption | with_reducible apply put_keeps | with_reducible apply putDigest_keeps
    | with_reducible apply freeWord_keeps | with_reducible apply flashRead_keeps
    | with_reducible apply makeAlias_keeps | with_reducible apply flag_keeps | simp only [↓Keeps.mk_iff]
    | with_reducible refine Keeps.ite ?_ ?_ | dsimp only | split

theorem loadFirmware_keeps {z : State} (s : State) (hz : Keeps z s) : Keeps z (loadFirmware s) := by
  unfold loadFirmware
  repeat' first
    | with_reducible assumption | with_reducible apply imageLoad_keeps | with_reducible apply inc_keeps
    | with_reducible refine Keeps.ite ?_ ?_ | dsimp only | split

theorem lockPage_keeps {z : State} (s : State) (pg : Nat) (hz : Keeps z s) : Keeps z (lockPage s pg) := by
  unfold lockPage
  repeat' first
    | with_reducible assumption | with_reducible apply wr_keeps | with_reducible refine Keeps.ite ?_ ?_ | dsimp only
    | split

theorem scanEnable_keeps {z : State} (s : State) (zero : Bool) (hz : Keeps z s) : Keeps z (scanEnable s zero) := by
  unfold scanEnable
  repeat' first
    | with_reducible assumption | with_reducible apply flag_keeps | with_reducible apply inc_keeps
    | simp only [↓Keeps.mk_iff] | with_reducible refine Keeps.ite ?_ ?_ | dsimp only | split

theorem aliasSign_keeps {z : State} (s : State) (bytes : List Nat) (hz : Keeps z s) :
    Keeps z (aliasSign s bytes).2 := by
  unfold aliasSign
  repeat' first
    | with_reducible assumption | with_reducible apply signWith_keeps | with_reducible apply inc_keeps | dsimp only
    | split

theorem answerSpdm_keeps {z : State} (s : State) (a : Spdm) (hz : Keeps z s) : Keeps z (answerSpdm s a) := by
  unfold answerSpdm
  repeat' first
    | with_reducible assumption | with_reducible apply answer_keeps | simp only [↓Keeps.mk_iff] | dsimp only

theorem spdm_keeps {z : State} (s : State) (go : State → State) (hz : Keeps z s) (hg : ∀ t, Keeps z t → Keeps z (go t)) :
    Keeps z (spdm s go) := by
  unfold spdm
  split
  · exact hz
  · split
    · exact answerSpdm_keeps _ _ hz
    · exact hg _ hz

theorem spdmVersion_keeps {z : State} (s : State) (hz : Keeps z s) : Keeps z (spdmVersion s) := by
  unfold spdmVersion
  repeat' first
    | with_reducible assumption | with_reducible apply answerSpdm_keeps | with_reducible refine Keeps.ite ?_ ?_
    | dsimp only | split

theorem spdmCapabilities_keeps {z : State} (s : State) (hz : Keeps z s) : Keeps z (spdmCapabilities s) := by
  unfold spdmCapabilities
  repeat' first
    | with_reducible assumption | with_reducible apply spdm_keeps | with_reducible apply answerSpdm_keeps | intro _ _
    | dsimp only

theorem spdmAlgorithms_keeps {z : State} (s : State) (hz : Keeps z s) : Keeps z (spdmAlgorithms s) := by
  unfold spdmAlgorithms
  repeat' first
    | with_reducible assumption | with_reducible apply spdm_keeps | with_reducible apply answerSpdm_keeps | intro _ _
    | dsimp only

theorem spdmDigests_keeps {z : State} (s : State) (hz : Keeps z s) : Keeps z (spdmDigests s) := by
  unfold spdmDigests
  repeat' first
    | with_reducible assumption | with_reducible apply spdm_keeps | with_reducible apply answerSpdm_keeps | intro _ _
    | dsimp only

theorem spdmCertificate_keeps {z : State} (s : State) (off len : Nat) (hz : Keeps z s) :
    Keeps z (spdmCertificate s off len) := by
  unfold spdmCertificate
  repeat' first
    | with_reducible assumption | with_reducible apply spdm_keeps | with_reducible apply answerSpdm_keeps | intro _ _
    | dsimp only

theorem spdmChallenge_keeps {z : State} (s : State) (nonce : BitVec 256) (hz : Keeps z s) :
    Keeps z (spdmChallenge s nonce) := by
  unfold spdmChallenge
  repeat' first
    | with_reducible assumption | with_reducible apply spdm_keeps | with_reducible apply aliasSign_keeps
    | with_reducible apply answerSpdm_keeps | intro _ _ | dsimp only

theorem spdmMeasurements_keeps {z : State} (s : State) (nonce : BitVec 256) (sign : Bool) (hz : Keeps z s) :
    Keeps z (spdmMeasurements s nonce sign) := by
  unfold spdmMeasurements
  repeat' first
    | with_reducible assumption | with_reducible apply spdm_keeps | with_reducible apply aliasSign_keeps
    | with_reducible apply answerSpdm_keeps | with_reducible refine Keeps.ite ?_ ?_ | intro _ _ | dsimp only | split

theorem setCalWord_keeps {z : State} (s : State) (code i : Nat) (v : Word) (hz : Keeps z s) :
    Keeps z (setCalWord s code i v) := by
  unfold setCalWord
  repeat' first
    | with_reducible assumption | with_reducible apply wr_keeps | with_reducible apply put_keeps
    | simp only [↓Keeps.mk_iff] | with_reducible refine Keeps.ite ?_ ?_ | intro _ _ | dsimp only | split

theorem calApplied_keeps {z : State} (s : State) (code : Nat) (hz : Keeps z s) : Keeps z (calApplied s code) := by
  unfold calApplied
  repeat' first
    | with_reducible assumption | with_reducible apply incSat_keeps | with_reducible apply wr64_keeps
    | with_reducible apply counted_keeps | simp only [↓Keeps.mk_iff] | with_reducible refine Keeps.ite ?_ ?_
    | intro _ _ | dsimp only | split

theorem syncStaged_keeps {z : State} (s : State) (hz : Keeps z s) : Keeps z (syncStaged s) := by
  unfold syncStaged
  repeat' first
    | with_reducible assumption | with_reducible apply flag_keeps | dsimp only

theorem setCalError_keeps {z : State} (s : State) (n : Nat) (hz : Keeps z s) : Keeps z (setCalError s n) := by
  unfold setCalError
  repeat' first
    | with_reducible assumption | with_reducible apply put_keeps | dsimp only

theorem clearStaged_keeps {z : State} (s : State) (hz : Keeps z s) : Keeps z (clearStaged s) := by
  unfold clearStaged
  repeat' first
    | with_reducible assumption | simp only [↓Keeps.mk_iff] | dsimp only

theorem calSelect_keeps {z : State} (s : State) (code : Nat) (hz : Keeps z s) : Keeps z (calSelect s code) := by
  unfold calSelect
  repeat' first
    | with_reducible assumption | with_reducible apply put_keeps | with_reducible apply clearStaged_keeps
    | with_reducible apply setCalError_keeps | with_reducible apply syncStaged_keeps
    | with_reducible refine Keeps.ite ?_ ?_ | dsimp only | split

theorem calStage_keeps {z : State} (s : State) (v : Word) (hz : Keeps z s) : Keeps z (calStage s v) := by
  unfold calStage
  repeat' first
    | with_reducible assumption | with_reducible apply syncStaged_keeps | simp only [↓Keeps.mk_iff]
    | with_reducible refine Keeps.ite ?_ ?_ | intro _ _ | dsimp only | split

theorem calDiscard_keeps {z : State} (s : State) (hz : Keeps z s) : Keeps z (calDiscard s) := by
  unfold calDiscard
  repeat' first
    | with_reducible assumption | with_reducible apply clearStaged_keeps | with_reducible apply syncStaged_keeps
    | dsimp only

theorem calCommit_keeps {z : State} (s : State) (hz : Keeps z s) : Keeps z (calCommit s) := by
  unfold calCommit
  repeat' first
    | with_reducible assumption | with_reducible apply setCalError_keeps | with_reducible apply inc_keeps
    | with_reducible apply flag_keeps | with_reducible apply syncStaged_keeps | simp only [↓Keeps.mk_iff]
    | with_reducible refine Keeps.ite ?_ ?_ | intro _ _ | dsimp only | split

theorem calEnd_keeps {z : State} (s : State) (hz : Keeps z s) : Keeps z (calEnd s) := by
  unfold calEnd
  repeat' first
    | with_reducible assumption | with_reducible apply flag_keeps | with_reducible apply syncStaged_keeps
    | with_reducible apply trainStart_keeps | simp only [↓Keeps.mk_iff] | with_reducible refine Keeps.foldl _ _ ?_ ?_
    | intro _ _ _ | intro _ _ | dsimp only

theorem calApply_keeps {z : State} (s : State) (hz : Keeps z s) : Keeps z (calApply s) := by
  unfold calApply
  repeat' first
    | with_reducible assumption | with_reducible apply setCalError_keeps | with_reducible apply inc_keeps
    | with_reducible apply calEnd_keeps | with_reducible apply setCalWord_keeps
    | with_reducible apply calApplied_keeps | simp only [↓Keeps.mk_iff] | with_reducible refine Keeps.ite ?_ ?_
    | with_reducible refine Keeps.foldl _ _ ?_ ?_ | intro _ _ _ | intro _ _ | dsimp only | split

theorem calDrop_keeps {z : State} (s : State) (down : Nat → Bool) (hz : Keeps z s) : Keeps z (calDrop s down) := by
  unfold calDrop
  repeat' first
    | with_reducible assumption | with_reducible apply setCalError_keeps | with_reducible apply inc_keeps
    | with_reducible apply calEnd_keeps | with_reducible refine Keeps.ite ?_ ?_ | dsimp only | split

theorem eqCalibrated_keeps {z : State} (old s : State) (hz : Keeps z s) : Keeps z (eqCalibrated old s) := by
  unfold eqCalibrated
  repeat' first
    | with_reducible assumption | with_reducible apply calApplied_keeps | with_reducible refine Keeps.ite ?_ ?_
    | with_reducible refine Keeps.foldl _ _ ?_ ?_ | intro _ _ _ | intro _ _ | dsimp only | split

theorem trainingStateDone_keeps {z : State} (s : State) (t : TrainIn) (hz : Keeps z s) :
    Keeps z (trainingStateDone s t) := by
  unfold trainingStateDone
  repeat' first
    | with_reducible assumption | with_reducible apply takeAdapt_keeps | with_reducible apply calApplied_keeps
    | with_reducible apply eqCalibrated_keeps | with_reducible apply trainingDone_keeps
    | with_reducible refine Keeps.ite ?_ ?_ | with_reducible refine Keeps.foldl _ _ ?_ ?_ | intro _ _ _ | intro _ _
    | dsimp only | split

theorem adcCorrect_keeps {z : State} (s : State) (bg gnd : BitVec 12) (hz : Keeps z s) :
    Keeps z (adcCorrect s bg gnd) := by
  unfold adcCorrect
  repeat' first
    | with_reducible assumption | with_reducible apply setCalWord_keeps | with_reducible apply calApplied_keeps
    | with_reducible refine Keeps.ite ?_ ?_ | intro _ _ | dsimp only | split

theorem setTrim_keeps {z : State} (s : State) (n : Nat) (hz : Keeps z s) : Keeps z (setTrim s n) := by
  unfold setTrim
  repeat' first
    | with_reducible assumption | with_reducible apply put_keeps | with_reducible apply calApplied_keeps | dsimp only

theorem toscTrack_keeps {z : State} (s : State) (count : Nat) (hz : Keeps z s) : Keeps z (toscTrack s count) := by
  unfold toscTrack
  repeat' first
    | with_reducible assumption | with_reducible apply put_keeps | with_reducible apply setTrim_keeps
    | with_reducible refine Keeps.ite ?_ ?_ | dsimp only | split

theorem accErr_keeps {z : State} (s : State) (path : Path) (a : Nat) (write : Bool) (cause : Nat) (hz : Keeps z s) :
    Keeps z (accErr s path a write cause) := by
  unfold accErr
  repeat' first
    | with_reducible assumption | with_reducible apply wr_keeps | with_reducible apply inc_keeps | dsimp only

theorem flashFault_keeps {z : State} (s : State) (hz : Keeps z s) : Keeps z (flashFault s) := by
  unfold flashFault
  repeat' first
    | with_reducible assumption | with_reducible apply inc_keeps | dsimp only

theorem showLogNext_keeps {z : State} (s : State) (hz : Keeps z s) : Keeps z (showLogNext s) := by
  unfold showLogNext
  repeat' first
    | with_reducible assumption | with_reducible apply put_keeps | dsimp only

theorem logAdvance_keeps {z : State} (s : State) (hz : Keeps z s) : Keeps z (logAdvance s) := by
  unfold logAdvance
  repeat' first
    | with_reducible assumption | with_reducible apply showLogNext_keeps | simp only [↓Keeps.mk_iff] | dsimp only

theorem logErase_keeps {z : State} (s : State) (hz : Keeps z s) : Keeps z (logErase s) := by
  unfold logErase
  repeat' first
    | with_reducible assumption | with_reducible apply flashErase_keeps | with_reducible refine Keeps.ite ?_ ?_
    | intro _ _ | dsimp only | split

theorem logWrite_keeps {z : State} (s : State) (ok : Bool) (hz : Keeps z s) : Keeps z (logWrite s ok) := by
  unfold logWrite
  repeat' first
    | with_reducible assumption | with_reducible apply logErase_keeps | with_reducible apply flashFault_keeps
    | with_reducible apply logAdvance_keeps | with_reducible apply flashProgram_keeps | simp only [↓Keeps.mk_iff]
    | with_reducible refine Keeps.ite ?_ ?_ | dsimp only | split

theorem eventLogWrite_keeps {z : State} (s : State) (ok : Bool) (hz : Keeps z s) : Keeps z (eventLogWrite s ok) := by
  unfold eventLogWrite
  repeat' first
    | with_reducible assumption | with_reducible apply logWrite_keeps | with_reducible refine Keeps.ite ?_ ?_
    | dsimp only | split

theorem logFlush_keeps {z : State} (n : Nat) (s : State) (hz : Keeps z s) : Keeps z (logFlush n s) := by
  induction n generalizing s with
  | zero => exact hz
  | succ n ih => exact ih _ (eventLogWrite_keeps s true hz)

theorem logAll_keeps {z : State} (s : State) (hz : Keeps z s) : Keeps z (logAll s) := by
  unfold logAll
  repeat' first
    | with_reducible assumption | with_reducible apply logFlush_keeps | dsimp only

theorem setVerified_keeps {z : State} (s : State) (b : Bool) (hz : Keeps z s) : Keeps z (setVerified s b) := by
  unfold setVerified
  repeat' first
    | with_reducible assumption | simp only [↓Keeps.mk_iff] | dsimp only

theorem setWren_keeps {z : State} (s : State) (b : Bool) (hz : Keeps z s) : Keeps z (setWren s b) := by
  unfold setWren
  repeat' first
    | with_reducible assumption | simp only [↓Keeps.mk_iff] | dsimp only

theorem setOut_keeps {z : State} (s : State) (v : Word) (hz : Keeps z s) : Keeps z (setOut s v) := by
  unfold setOut
  repeat' first
    | with_reducible assumption | simp only [↓Keeps.mk_iff] | dsimp only

theorem mbGo_keeps {z : State} (s : State) (ch : Nat) (hz : Keeps z s) : Keeps z (mbGo s ch) := by
  unfold mbGo
  repeat' first
    | with_reducible assumption | with_reducible apply flag_keeps | simp only [↓Keeps.mk_iff]
    | with_reducible refine Keeps.ite ?_ ?_ | intro _ _ | dsimp only | split

theorem imageErase_keeps {z : State} (s : State) (hz : Keeps z s) : Keeps z (imageErase s) := by
  unfold imageErase
  repeat' first
    | with_reducible assumption | with_reducible apply flashErase_keeps | with_reducible apply setVerified_keeps
    | dsimp only

theorem imageWrite_keeps {z : State} (s : State) (off : Nat) (bytes : List Nat) (ok : Bool) (hz : Keeps z s) :
    Keeps z (imageWrite s off bytes ok).2 := by
  unfold imageWrite
  repeat' first
    | with_reducible assumption | with_reducible apply setVerified_keeps | with_reducible apply flashProgram_keeps
    | with_reducible apply flashFault_keeps | with_reducible refine Keeps.ite ?_ ?_ | dsimp only | split

theorem promote_keeps {z : State} (s : State) (hz : Keeps z s) : Keeps z (promote s) := by
  unfold promote
  repeat' first
    | with_reducible assumption | with_reducible apply flashErase_keeps | with_reducible apply inc_keeps
    | simp only [↓Keeps.mk_iff] | dsimp only

theorem imagePromote_keeps {z : State} (s : State) (ok : Bool) (hz : Keeps z s) : Keeps z (imagePromote s ok).2 := by
  unfold imagePromote
  repeat' first
    | with_reducible assumption | with_reducible apply promote_keeps | with_reducible apply flashErase_keeps
    | with_reducible apply flashFault_keeps | with_reducible refine Keeps.ite ?_ ?_ | dsimp only | split

theorem lifeChallenge_keeps {z : State} (s : State) (hz : Keeps z s) : Keeps z (lifeChallenge s).2 := by
  unfold lifeChallenge
  repeat' first
    | with_reducible assumption | simp only [↓Keeps.mk_iff] | dsimp only

theorem lifeAdvance_keeps {z : State} (s : State) (ch : Nat) (hz : Keeps z s) : Keeps z (lifeAdvance s ch).2 := by
  unfold lifeAdvance
  repeat' first
    | with_reducible assumption | with_reducible apply lifeVoid_keeps | with_reducible apply lifeNext_keeps
    | simp only [↓Keeps.mk_iff] | with_reducible refine Keeps.ite ?_ ?_ | intro _ _ | dsimp only | split

theorem mbRun_keeps {z : State} (s : State) (ch op : Nat) (ok : Bool) (hz : Keeps z s) :
    Keeps z (mbRun s ch op ok).2.2 := by
  have e : ∀ (c : Prop) [Decidable c] (x y : Nat × List Word × State),
      (if c then x else y).2.2 = if c then x.2.2 else y.2.2 := fun c _ x y => by split <;> rfl
  unfold mbRun
  simp only [e]
  repeat' first
    | with_reducible assumption
    | with_reducible apply flashRead_keeps
    | with_reducible apply imageErase_keeps
    | with_reducible apply flashFault_keeps
    | with_reducible apply imageWrite_keeps
    | with_reducible apply setVerified_keeps
    | with_reducible apply imagePromote_keeps
    | with_reducible apply lifeChallenge_keeps
    | with_reducible apply lifeAdvance_keeps
    | with_reducible refine Keeps.ite ?_ ?_
    | split
    | dsimp only

theorem mbFinish_keeps {z : State} (s : State) (ch result : Nat) (out : List Word) (hz : Keeps z s) :
    Keeps z (mbFinish s ch result out) := by
  unfold mbFinish
  repeat' first
    | with_reducible assumption | with_reducible apply wr_keeps | with_reducible apply put_keeps
    | with_reducible apply flag_keeps | with_reducible apply inc_keeps | with_reducible apply msixRequest_keeps
    | simp only [↓Keeps.mk_iff] | with_reducible refine Keeps.ite ?_ ?_ | with_reducible refine Keeps.foldl _ _ ?_ ?_
    | intro _ _ _ | intro _ _ | dsimp only | split

theorem mailboxDone_keeps {z : State} (s : State) (ch : Nat) (ok : Bool) (hz : Keeps z s) :
    Keeps z (mailboxDone s ch ok) := by
  unfold mailboxDone
  repeat' first
    | with_reducible assumption | with_reducible apply mbRun_keeps | with_reducible apply mbFinish_keeps
    | with_reducible refine Keeps.ite ?_ ?_ | intro _ _ | dsimp only | split

theorem setRawBytes_keeps {z : State} (s : State) (b : List Nat) (hz : Keeps z s) : Keeps z (setRawBytes s b) := by
  unfold setRawBytes
  repeat' first
    | with_reducible assumption | with_reducible apply wr_keeps | with_reducible refine Keeps.foldl _ _ ?_ ?_
    | intro _ _ _ | intro _ _ | dsimp only

theorem rawProgram_keeps {z : State} (s : State) (a : Nat) (b : List Nat) (hz : Keeps z s) :
    Keeps z (rawProgram s a b) := by
  unfold rawProgram
  repeat' first
    | with_reducible assumption | with_reducible apply inc_keeps | simp only [↓Keeps.mk_iff]
    | with_reducible refine Keeps.foldl _ _ ?_ ?_ | intro _ _ _ | intro _ _ | dsimp only

theorem touchImage_keeps {z : State} (s : State) (a n : Nat) (hz : Keeps z s) : Keeps z (touchImage s a n) := by
  unfold touchImage
  repeat' first
    | with_reducible assumption | with_reducible apply setVerified_keeps | with_reducible refine Keeps.ite ?_ ?_
    | dsimp only | split

theorem rawCmd_keeps {z : State} (s : State) (v : Word) (hz : Keeps z s) : Keeps z (rawCmd s v) := by
  unfold rawCmd
  repeat' first
    | with_reducible assumption | with_reducible apply flag_keeps | with_reducible apply setRawBytes_keeps
    | with_reducible apply setWren_keeps | with_reducible apply flashRead_keeps
    | with_reducible apply rawProgram_keeps | with_reducible apply touchImage_keeps
    | with_reducible apply flashErase_keeps | with_reducible apply freeWord_keeps
    | with_reducible refine Keeps.ite ?_ ?_ | intro _ _ | dsimp only | split

theorem winTouch_keeps {z : State} (s : State) (li : Nat) (hz : Keeps z s) : Keeps z (winTouch s li) := by
  unfold winTouch
  repeat' first
    | with_reducible assumption | with_reducible apply engCharge_keeps | with_reducible apply heatAccess_keeps
    | dsimp only

theorem winReadLine_keeps {z : State} (s : State) (m : LookupIn) (li : Nat) (hz : Keeps z s) :
    Keeps z (winReadLine s m li).2 := by
  unfold winReadLine
  repeat' first
    | with_reducible assumption | with_reducible apply winTouch_keeps | with_reducible apply readThrough_keeps
    | with_reducible apply inc_keeps | with_reducible apply put_keeps | with_reducible apply flag_keeps | dsimp only

theorem aerReport_keeps {z : State} (s : State) (uncorr corr : Word) (hz : Keeps z s) :
    Keeps z (aerReport s uncorr corr) := by
  unfold aerReport
  repeat' first
    | with_reducible assumption | simp only [↓Keeps.mk_iff] | dsimp only

theorem winReadLoop_keeps {z : State} (m : LookupIn) (stop n off : Nat) (s : State) (c : List Cpl) (hz : Keeps z s) :
    Keeps z (winReadLoop m stop n off s c).1 := by
  induction n generalizing off s c with
  | zero => exact hz
  | succ n ih =>
    unfold winReadLoop
    dsimp only
    split
    · show Keeps z ((s.inc R.PCIEM_WIN_ABORTS).aerReport 0x8000 0x2000)
      exact aerReport_keeps _ _ _ (inc_keeps _ _ _ hz)
    · apply ih
      have h := winReadLine_keeps s m (s.winLine off) hz
      split
      · exact inc_keeps _ _ _ (Keeps.takeFree _ h)
      · exact h

theorem windowRead_keeps {z : State} (s : State) (off len : Nat) (m : LookupIn) (hz : Keeps z s) :
    Keeps z (windowRead s off len m) := by
  unfold windowRead
  dsimp only
  split
  · exact hz
  · have h := lostEntries_keeps s m ((s.winLines off (min (min len 4096) (2 ^ 27 - off))).map liParcel).eraseDups hz
    split
    · exact h
    · exact closeChecks_keeps _ ((winReadLoop_keeps _ _ _ _ _ _ h).same rfl rfl rfl rfl rfl)

theorem winMerge_keeps {z : State} (s : State) (m : LookupIn) (li at_ : Nat) (b : List (Option Byte)) (hz : Keeps z s) :
    Keeps z (winMerge s m li at_ b) := by
  unfold winMerge
  repeat' first
    | with_reducible assumption | with_reducible apply winTouch_keeps | with_reducible apply tagLookups_keeps
    | with_reducible apply readCurrent_keeps | with_reducible apply inc_keeps | with_reducible apply updateLine_keeps
    | with_reducible refine Keeps.ite ?_ ?_ | dsimp only | split

theorem winWriteLine_keeps {z : State} (s : State) (m : LookupIn) (li at_ : Nat) (b : List (Option Byte)) (hz : Keeps z s) :
    ∀ r, winWriteLine s m li at_ b = some r → Keeps z r := by
  intro r h
  unfold winWriteLine at h
  split at h
  · cases h; exact inc_keeps _ _ _ hz
  · split at h
    · split at h
      · rename_i k; cases h; exact winMerge_keeps _ _ _ _ _ ((allocate__keeps s _ hz).1 _ k)
      · cases h
      · rename_i k; cases h; exact inc_keeps _ _ _ ((allocate__keeps s _ hz).2 _ k)
    · cases h; exact winMerge_keeps _ _ _ _ _ hz

theorem winWriteLoop_keeps {z : State} (m : LookupIn) (n off : Nat) (b : List (Option Byte)) (s : State) (hz : Keeps z s) :
    ∀ r, winWriteLoop m n off b s = some r → Keeps z r := by
  induction n generalizing off b s with
  | zero => intro r h; cases h; exact hz
  | succ n ih =>
    intro r h
    unfold winWriteLoop at h
    dsimp only at h
    split at h
    · cases h
    · rename_i t ht
      exact ih _ _ _ (winWriteLine_keeps s _ _ _ _ hz _ ht) r h

theorem windowWrite_keeps {z : State} (s : State) (off : Nat) (bytes : List (Option Byte)) (poisoned : Bool)
    (m : LookupIn) (hz : Keeps z s) : Keeps z (windowWrite s off bytes poisoned m) := by
  unfold windowWrite
  dsimp only
  split
  · exact hz
  · split
    · exact aerReport_keeps _ _ _ (inc_keeps _ _ _ hz)
    · have k := lostEntries_keeps s m
        ((s.winLines off (bytes.take (min 256 (2 ^ 27 - off))).length).map liParcel).eraseDups hz
      split
      · exact k
      · split
        · exact k
        · rename_i h; exact closeChecks_keeps _ (winWriteLoop_keeps _ _ _ _ _ k _ h)

theorem cfgDword_keeps {z : State} (s : State) (d : Nat) (hz : Keeps z s) : Keeps z (cfgDword s d).2 := by
  unfold cfgDword
  repeat' first
    | with_reducible assumption | with_reducible apply freeWord_keeps | with_reducible refine Keeps.ite ?_ ?_
    | dsimp only | split

theorem pcieConfig_keeps {z : State} (s : State) (c : CfgReq) (hz : Keeps z s) : Keeps z (pcieConfig s c) := by
  unfold pcieConfig
  repeat' first
    | with_reducible assumption | with_reducible apply cfgDword_keeps | with_reducible apply setOut_keeps
    | with_reducible apply put_keeps | with_reducible apply flag_keeps | with_reducible apply inc_keeps
    | simp only [↓Keeps.mk_iff] | with_reducible refine Keeps.ite ?_ ?_ | dsimp only | split

theorem endpointStart_keeps {z : State} (s : State) (hz : Keeps z s) : Keeps z (endpointStart s) := by
  unfold endpointStart
  repeat' first
    | with_reducible assumption | with_reducible apply setBit_keeps | with_reducible apply put_keeps
    | with_reducible apply flag_keeps | simp only [↓Keeps.mk_iff] | with_reducible refine Keeps.ite ?_ ?_ | dsimp only
    | split

theorem endpointReset_keeps {z : State} (s : State) (hz : Keeps z s) : Keeps z (endpointReset s) := by
  unfold endpointReset
  repeat' first
    | with_reducible assumption | with_reducible apply wr_keeps | with_reducible apply answer_keeps
    | simp only [↓Keeps.mk_iff] | dsimp only

end State

end Sys2Proof.Machine
end

