-- ==== Sys2Proof/Laws/KeepsReset.lean ====
section
/-! SUPPORT. What every operation of the stack keeps: clocks, resets, levels, the register bus, boot and what follows a command. -/

namespace Sys2Proof.Machine

namespace State

theorem setLock_keeps {z : State} (s : State) (i : Nat) (b : Bool) (hz : Keeps z s) : Keeps z (setLock s i b) := by
  unfold setLock
  repeat' first
    | with_reducible assumption | with_reducible apply setBit_keeps | dsimp only

theorem updClk_keeps {z : State} (s : State) (f : ClkState → ClkState) (hz : Keeps z s) : Keeps z (updClk s f) := by
  unfold updClk
  repeat' first
    | with_reducible assumption | simp only [↓Keeps.mk_iff] | dsimp only

theorem refTo_keeps {z : State} (s : State) (n : Nat) (hz : Keeps z s) : Keeps z (refTo s n) := by
  unfold refTo
  repeat' first
    | with_reducible assumption | with_reducible apply setLock_keeps | with_reducible apply updClk_keeps
    | with_reducible apply flag_keeps | with_reducible apply put_keeps | simp only [↓Keeps.mk_iff]
    | with_reducible refine Keeps.ite ?_ ?_ | with_reducible refine Keeps.foldl _ _ ?_ ?_ | intro _ _ _ | intro _ _
    | dsimp only | split

theorem pcieClock_keeps {z : State} (s : State) (hz : Keeps z s) : Keeps z (pcieClock s) := by
  unfold pcieClock
  repeat' first
    | with_reducible assumption | with_reducible apply endpointStart_keeps | with_reducible apply setLock_keeps
    | with_reducible apply flag_keeps | with_reducible refine Keeps.ite ?_ ?_ | dsimp only | split

theorem allIdle_keeps {z : State} (s : State) (hz : Keeps z s) : Keeps z (allIdle s) := by
  unfold allIdle
  repeat' first
    | with_reducible assumption | with_reducible apply sendEidle_keeps | with_reducible apply emit_keeps
    | simp only [↓Keeps.mk_iff] | with_reducible refine Keeps.ite ?_ ?_ | with_reducible refine Keeps.foldl _ _ ?_ ?_
    | intro _ _ _ | intro _ _ | dsimp only | split

theorem drogueEnter_keeps {z : State} (s : State) (hz : Keeps z s) : Keeps z (drogueEnter s) := by
  unfold drogueEnter
  repeat' first
    | with_reducible assumption | with_reducible apply abortSparings_keeps
    | with_reducible apply dropWidthChange_keeps | with_reducible apply allIdle_keeps
    | with_reducible apply setLoopTimed_keeps | with_reducible apply setLinkState_keeps
    | with_reducible apply enterSelfRefresh_keeps | with_reducible apply setLock_keeps
    | with_reducible apply updClk_keeps | with_reducible apply flag_keeps | with_reducible apply put_keeps
    | with_reducible apply inc_keeps | simp only [↓Keeps.mk_iff] | with_reducible refine Keeps.ite ?_ ?_
    | with_reducible refine Keeps.foldl _ _ ?_ ?_ | intro _ _ _ | intro _ _ | dsimp only | split

theorem resumeTimers_keeps {z : State} (s : State) (ns : Nat) (hz : Keeps z s) : Keeps z (resumeTimers s ns) := by
  unfold resumeTimers
  repeat' first
    | with_reducible assumption | simp only [↓Keeps.mk_iff] | with_reducible refine Keeps.ite ?_ ?_ | dsimp only
    | split

theorem drogueExit_keeps {z : State} (s : State) (n : Nat) (hz : Keeps z s) : Keeps z (drogueExit s n) := by
  unfold drogueExit
  repeat' first
    | with_reducible assumption | with_reducible apply wr_keeps | with_reducible apply flag_keeps
    | with_reducible apply refTo_keeps | with_reducible apply resumeTimers_keeps
    | with_reducible apply trainStart_keeps | with_reducible apply exitSelfRefresh_keeps
    | with_reducible apply startTraining_keeps | with_reducible refine Keeps.ite ?_ ?_
    | with_reducible refine Keeps.foldl _ _ ?_ ?_ | intro _ _ _ | intro _ _ | dsimp only | split

theorem drogueTimeout_keeps {z : State} (s : State) (hz : Keeps z s) : Keeps z (drogueTimeout s) := by
  unfold drogueTimeout
  repeat' first
    | with_reducible assumption | with_reducible apply flag_keeps | with_reducible refine Keeps.ite ?_ ?_ | dsimp only
    | split

theorem refNone_keeps {z : State} (s : State) (hz : Keeps z s) : Keeps z (refNone s) := by
  unfold refNone
  repeat' first
    | with_reducible assumption | with_reducible apply setLock_keeps | with_reducible apply updClk_keeps
    | with_reducible apply put_keeps | with_reducible apply flag_keeps | simp only [↓Keeps.mk_iff]
    | with_reducible refine Keeps.foldl _ _ ?_ ?_ | intro _ _ _ | intro _ _ | dsimp only

theorem refCheck_keeps {z : State} (s : State) (hz : Keeps z s) : Keeps z (refCheck s) := by
  unfold refCheck
  repeat' first
    | with_reducible assumption | with_reducible apply refNone_keeps | with_reducible apply drogueEnter_keeps
    | with_reducible apply refTo_keeps | with_reducible refine Keeps.ite ?_ ?_ | dsimp only | split

theorem xoJudged_keeps {z : State} (s : State) (hz : Keeps z s) : Keeps z (xoJudged s) := by
  unfold xoJudged
  repeat' first
    | with_reducible assumption | with_reducible apply flag_keeps | with_reducible apply updClk_keeps
    | with_reducible apply drogueExit_keeps | with_reducible apply refTo_keeps | with_reducible apply pcieClock_keeps
    | simp only [↓Keeps.mk_iff] | with_reducible refine Keeps.ite ?_ ?_ | intro _ _ | dsimp only | split

theorem xoJudgeWindow_keeps {z : State} (s : State) (count : Nat) (hz : Keeps z s) :
    Keeps z (xoJudgeWindow s count) := by
  unfold xoJudgeWindow
  repeat' first
    | with_reducible assumption | with_reducible apply wr_keeps | with_reducible apply put_keeps
    | with_reducible apply xoJudged_keeps | with_reducible refine Keeps.ite ?_ ?_ | dsimp only | split

theorem xoTrip_keeps {z : State} (s : State) (hz : Keeps z s) : Keeps z (xoTrip s) := by
  unfold xoTrip
  repeat' first
    | with_reducible assumption | with_reducible apply flag_keeps | with_reducible apply put_keeps
    | with_reducible apply updClk_keeps | with_reducible apply inc_keeps | with_reducible apply setLoopTimed_keeps
    | with_reducible apply pcieClock_keeps | with_reducible apply refCheck_keeps | simp only [↓Keeps.mk_iff]
    | with_reducible refine Keeps.ite ?_ ?_ | intro _ _ | dsimp only | split

theorem linkTrip_keeps {z : State} (s : State) (hz : Keeps z s) : Keeps z (linkTrip s) := by
  unfold linkTrip
  repeat' first
    | with_reducible assumption | with_reducible apply inc_keeps | with_reducible apply updClk_keeps
    | with_reducible apply startTraining_keeps | with_reducible apply drogueEnter_keeps | simp only [↓Keeps.mk_iff]
    | with_reducible refine Keeps.ite ?_ ?_ | intro _ _ | dsimp only | split

theorem monitorWindow_keeps {z : State} (s : State) (c : MonClock) (count : Nat) (hz : Keeps z s) :
    Keeps z (monitorWindow s c count) := by
  unfold monitorWindow
  repeat' first
    | with_reducible assumption | with_reducible apply updClk_keeps | with_reducible apply xoTrip_keeps
    | with_reducible apply linkTrip_keeps | simp only [↓Keeps.mk_iff] | with_reducible refine Keeps.ite ?_ ?_
    | intro _ _ | dsimp only | split

theorem ampEnable_keeps {z : State} (s : State) (hz : Keeps z s) : Keeps z (ampEnable s) := by
  unfold ampEnable
  repeat' first
    | with_reducible assumption | with_reducible apply updClk_keeps | with_reducible apply put_keeps
    | simp only [↓Keeps.mk_iff] | with_reducible refine Keeps.ite ?_ ?_ | intro _ _ | dsimp only | split

theorem xoWait_keeps {z : State} (s : State) (hz : Keeps z s) : Keeps z (xoWait s) := by
  unfold xoWait
  repeat' first
    | with_reducible assumption | with_reducible apply flag_keeps | with_reducible refine Keeps.ite ?_ ?_ | dsimp only
    | split

theorem refPcieSet_keeps {z : State} (s : State) (hz : Keeps z s) : Keeps z (refPcieSet s) := by
  unfold refPcieSet
  repeat' first
    | with_reducible assumption | with_reducible apply flag_keeps | with_reducible apply drogueExit_keeps
    | with_reducible apply refTo_keeps | with_reducible refine Keeps.ite ?_ ?_ | dsimp only | split

theorem refclkChange_keeps {z : State} (s : State) (b : Bool) (hz : Keeps z s) : Keeps z (refclkChange s b) := by
  unfold refclkChange
  repeat' first
    | with_reducible assumption | with_reducible apply flag_keeps | with_reducible apply pcieClock_keeps
    | with_reducible apply refCheck_keeps | with_reducible refine Keeps.ite ?_ ?_ | dsimp only | split

theorem pllUnlock_keeps {z : State} (s : State) (p : Pll) (hz : Keeps z s) : Keeps z (pllUnlock s p) := by
  unfold pllUnlock
  repeat' first
    | with_reducible assumption | with_reducible apply setLock_keeps | with_reducible apply updClk_keeps
    | simp only [↓Keeps.mk_iff] | with_reducible refine Keeps.ite ?_ ?_ | intro _ _ | dsimp only | split

theorem fmcStart_keeps {z : State} (s : State) (hz : Keeps z s) : Keeps z (fmcStart s) := by
  unfold fmcStart
  repeat' first
    | with_reducible assumption | with_reducible apply flag_keeps | with_reducible apply updClk_keeps
    | simp only [↓Keeps.mk_iff] | intro _ _ | dsimp only

theorem fmcDone_keeps {z : State} (s : State) (count : Nat) (hz : Keeps z s) : Keeps z (fmcDone s count) := by
  unfold fmcDone
  repeat' first
    | with_reducible assumption | with_reducible apply put_keeps | with_reducible apply flag_keeps
    | with_reducible apply updClk_keeps | simp only [↓Keeps.mk_iff] | with_reducible refine Keeps.ite ?_ ?_
    | intro _ _ | dsimp only | split

theorem gateClose_keeps {z : State} (s : State) (pg : Nat) (busy : Bool) (hz : Keeps z s) :
    Keeps z (gateClose s pg busy) := by
  unfold gateClose
  repeat' first
    | with_reducible assumption | with_reducible apply flag_keeps | with_reducible apply updClk_keeps
    | simp only [↓Keeps.mk_iff] | with_reducible refine Keeps.ite ?_ ?_ | intro _ _ | dsimp only | split

theorem gatesClose_keeps {z : State} (s : State) (hz : Keeps z s) : Keeps z (gatesClose s) := by
  unfold gatesClose
  repeat' first
    | with_reducible assumption | with_reducible apply flag_keeps | with_reducible apply updClk_keeps
    | simp only [↓Keeps.mk_iff] | with_reducible refine Keeps.foldl _ _ ?_ ?_ | intro _ _ _ | intro _ _ | dsimp only

theorem hwGatesClose_keeps {z : State} (s : State) (hz : Keeps z s) : Keeps z (hwGatesClose s) := by
  unfold hwGatesClose
  repeat' first
    | with_reducible assumption | with_reducible apply updClk_keeps | simp only [↓Keeps.mk_iff]
    | with_reducible refine Keeps.ite ?_ ?_ | intro _ _ | dsimp only | split

theorem gateRefused_keeps {z : State} (s : State) (pg : Nat) (hz : Keeps z s) : Keeps z (gateRefused s pg) := by
  unfold gateRefused
  repeat' first
    | with_reducible assumption | with_reducible apply wr_keeps | with_reducible apply inc_keeps | dsimp only

theorem gateDenied_keeps {z : State} (s : State) (pg : Nat) (hz : Keeps z s) : Keeps z (gateDenied s pg) := by
  unfold gateDenied
  repeat' first
    | with_reducible assumption | with_reducible apply updClk_keeps | with_reducible apply flag_keeps
    | with_reducible apply gateRefused_keeps | simp only [↓Keeps.mk_iff] | with_reducible refine Keeps.ite ?_ ?_
    | intro _ _ | dsimp only | split

theorem gateRelease_keeps {z : State} (s : State) (pg : Nat) (hz : Keeps z s) : Keeps z (gateRelease s pg) := by
  unfold gateRelease
  repeat' first
    | with_reducible assumption | with_reducible apply flag_keeps | with_reducible apply updClk_keeps
    | simp only [↓Keeps.mk_iff] | intro _ _ | dsimp only

theorem perfCfgWrite_keeps {z : State} (s : State) (v : Word) (hz : Keeps z s) : Keeps z (perfCfgWrite s v) := by
  unfold perfCfgWrite
  repeat' first
    | with_reducible assumption | simp only [↓Keeps.mk_iff] | intro _ _ | dsimp only | split

theorem perfEdge_keeps {z : State} (s : State) (pg bit : Nat) (hz : Keeps z s) : Keeps z (perfEdge s pg bit) := by
  unfold perfEdge
  repeat' first
    | with_reducible assumption | with_reducible apply perfEvent_keeps | intro _ _ | dsimp only

theorem perfTick_keeps {z : State} (s : State) (level : Nat → Nat → Bool) (hz : Keeps z s) :
    Keeps z (perfTick s level) := by
  unfold perfTick
  repeat' first
    | with_reducible assumption | with_reducible apply perfAdd_keeps | with_reducible refine Keeps.ite ?_ ?_
    | with_reducible refine Keeps.foldl _ _ ?_ ?_ | intro _ _ _ | intro _ _ | dsimp only | split

theorem perfFreeze_keeps {z : State} (s : State) (b : Bool) (hz : Keeps z s) : Keeps z (perfFreeze s b) := by
  unfold perfFreeze
  repeat' first
    | with_reducible assumption | with_reducible apply flag_keeps | dsimp only

theorem perfSnapshot_keeps {z : State} (s : State) (hz : Keeps z s) : Keeps z (perfSnapshot s) := by
  unfold perfSnapshot
  repeat' first
    | with_reducible assumption | with_reducible apply wr64_keeps | with_reducible apply inc_keeps
    | with_reducible apply flag_keeps | simp only [↓Keeps.mk_iff] | dsimp only

theorem perfNma_keeps {z : State} (s : State) (hz : Keeps z s) : Keeps z (perfNma s) := by
  unfold perfNma
  repeat' first
    | with_reducible assumption | with_reducible apply perfSnapshot_keeps | with_reducible apply perfFreeze_keeps
    | with_reducible refine Keeps.ite ?_ ?_ | dsimp only | split

theorem perfClear_keeps {z : State} (s : State) (hz : Keeps z s) : Keeps z (perfClear s) := by
  unfold perfClear
  repeat' first
    | with_reducible assumption | simp only [↓Keeps.mk_iff] | intro _ _ | dsimp only | split

theorem perfClearAll_keeps {z : State} (s : State) (hz : Keeps z s) : Keeps z (perfClearAll s) := by
  unfold perfClearAll
  repeat' first
    | with_reducible assumption | simp only [↓Keeps.mk_iff] | dsimp only

theorem ringSelect_keeps {z : State} (s : State) (hz : Keeps z s) : Keeps z (ringSelect s) := by
  unfold ringSelect
  repeat' first
    | with_reducible assumption | with_reducible apply wr_keeps | with_reducible apply flag_keeps
    | with_reducible refine Keeps.foldl _ _ ?_ ?_ | intro _ _ _ | intro _ _ | dsimp only

theorem seedWrite_keeps {z : State} (s : State) (hz : Keeps z s) : Keeps z (seedWrite s) := by
  unfold seedWrite
  repeat' first
    | with_reducible assumption | simp only [↓Keeps.mk_iff] | with_reducible refine Keeps.ite ?_ ?_ | dsimp only
    | split

theorem perfReset_keeps {z : State} (s : State) (hz : Keeps z s) : Keeps z (perfReset s) := by
  unfold perfReset
  repeat' first
    | with_reducible assumption | simp only [↓Keeps.mk_iff] | dsimp only

theorem closeOutage_keeps {z : State} (s : State) (cause : Nat) (hz : Keeps z s) : Keeps z (closeOutage s cause) := by
  unfold closeOutage
  repeat' first
    | with_reducible assumption | with_reducible apply inc64_keeps | with_reducible apply inc_keeps
    | with_reducible apply wr_keeps | with_reducible refine Keeps.ite ?_ ?_ | dsimp only | split

theorem chipReset_keeps {z : State} (s : State) (cause : Nat) (clean : Bool) (hz : Keeps z s) :
    Keeps z (chipReset s cause clean) := by
  unfold chipReset
  dsimp only
  have h1 : Keeps z ((if cause = 4 then s.inc R.FCOL_FAULT_RESETS else s).closeOutage cause) :=
    closeOutage_keeps _ _ (Keeps.ite (inc_keeps _ _ _ hz) hz)
  generalize (if cause = 4 then s.inc R.FCOL_FAULT_RESETS else s).closeOutage cause = u at h1 ⊢
  apply flag_keeps
  apply flag_keeps
  apply flag_keeps
  apply flag_keeps
  apply flag_keeps
  apply wr_keeps
  apply syncSelfRefresh_keeps
  refine h1.trans ⟨rfl, Nat.le_refl _, fun _ => Sys2Proof.Laws.SMap.wf_setAll _ _ _ rfl, ?_, id, fun _ _ h => h⟩
  intro h
  cases clean
  · rfl
  · exact h

theorem cold_keeps {z : State} (s : State) (vaux : Bool) (hz : Keeps z s) : Keeps z (cold s vaux) :=
  hz.trans ⟨rfl, Nat.le_refl _, fun _ => rfl, fun _ => rfl, id, fun _ _ h => h⟩

theorem powerOn_keeps {z : State} (s : State) (hz : Keeps z s) : Keeps z (powerOn s) := by
  unfold powerOn
  repeat' first
    | with_reducible assumption | with_reducible apply cold_keeps | with_reducible apply flag_keeps
    | with_reducible refine Keeps.ite ?_ ?_ | dsimp only | split

theorem powerDrop_keeps {z : State} (s : State) (hz : Keeps z s) : Keeps z (powerDrop s) := by
  unfold powerDrop
  repeat' first
    | with_reducible assumption | with_reducible apply cold_keeps | with_reducible apply flag_keeps | dsimp only

theorem orderlyStart_keeps {z : State} (s : State) (cause : Nat) (hz : Keeps z s) :
    Keeps z (orderlyStart s cause) := by
  unfold orderlyStart
  repeat' first
    | with_reducible assumption | with_reducible apply updClk_keeps | with_reducible apply stopWork_keeps
    | simp only [↓Keeps.mk_iff] | with_reducible refine Keeps.ite ?_ ?_ | with_reducible refine Keeps.foldl _ _ ?_ ?_
    | intro _ _ _ | intro _ _ | dsimp only | split

theorem storeBuffer_keeps {z : State} (s : State) (hz : Keeps z s) : Keeps z (storeBuffer s) := by
  unfold storeBuffer
  repeat' first
    | with_reducible assumption | with_reducible apply storeFrame_keeps | simp only [↓Keeps.mk_iff]
    | with_reducible refine Keeps.ite ?_ ?_ | with_reducible refine Keeps.foldl _ _ ?_ ?_ | intro _ _ _ | intro _ _
    | dsimp only | split

theorem endRepairs_keeps {z : State} (s : State) (hz : Keeps z s) : Keeps z (endRepairs s) := by
  unfold endRepairs
  repeat' first
    | with_reducible assumption | with_reducible apply repairDone_keeps | with_reducible refine Keeps.foldl _ _ ?_ ?_
    | with_reducible refine Keeps.foldlSnd _ _ ?_ ?_ | with_reducible refine Keeps.foldlFst _ _ ?_ ?_ | intro _ _ _
    | intro _ _ | dsimp only

theorem retain_keeps {z : State} (s : State) (m : LookupIn) (hz : Keeps z s) : Keeps z (retain s m) := by
  unfold retain
  repeat' first
    | with_reducible assumption | with_reducible apply endRepairs_keeps | with_reducible apply stopAllWorks_keeps
    | with_reducible apply abortMig_keeps | with_reducible apply flushAll_keeps
    | with_reducible apply storeBuffer_keeps | with_reducible apply checkpoint_keeps
    | with_reducible apply keelWear_keeps | with_reducible apply journal_keeps
    | with_reducible apply enterSelfRefresh_keeps | simp only [↓Keeps.mk_iff]
    | with_reducible refine Keeps.foldl _ _ ?_ ?_ | intro _ _ _ | intro _ _ | dsimp only

theorem orderlyDone_keeps {z : State} (s : State) (m : LookupIn) (hz : Keeps z s) : Keeps z (orderlyDone s m) := by
  unfold orderlyDone
  repeat' first
    | with_reducible assumption | with_reducible apply retain_keeps | with_reducible apply chipReset_keeps
    | with_reducible refine Keeps.ite ?_ ?_ | dsimp only | split

theorem orderlyTimeout_keeps {z : State} (s : State) (hz : Keeps z s) : Keeps z (orderlyTimeout s) := by
  unfold orderlyTimeout
  repeat' first
    | with_reducible assumption | with_reducible apply chipReset_keeps | dsimp only | split

theorem rstCmd_keeps {z : State} (s : State) (v : Word) (hz : Keeps z s) : Keeps z (rstCmd s v) := by
  unfold rstCmd
  repeat' first
    | with_reducible assumption | with_reducible apply chipReset_keeps | with_reducible apply orderlyStart_keeps
    | simp only [↓Keeps.mk_iff] | with_reducible refine Keeps.ite ?_ ?_ | dsimp only | split

theorem resetAssert_keeps {z : State} (s : State) (hz : Keeps z s) : Keeps z (resetAssert s) := by
  unfold resetAssert
  repeat' first
    | with_reducible assumption | with_reducible apply updClk_keeps | with_reducible apply orderlyStart_keeps
    | with_reducible apply chipReset_keeps | simp only [↓Keeps.mk_iff] | with_reducible refine Keeps.ite ?_ ?_
    | intro _ _ | dsimp only | split

theorem resetDeassert_keeps {z : State} (s : State) (hz : Keeps z s) : Keeps z (resetDeassert s) := by
  unfold resetDeassert
  repeat' first
    | with_reducible assumption | with_reducible apply updClk_keeps | simp only [↓Keeps.mk_iff]
    | with_reducible refine Keeps.ite ?_ ?_ | intro _ _ | dsimp only | split

theorem faultReset_keeps {z : State} (s : State) (hz : Keeps z s) : Keeps z (faultReset s) := by
  unfold faultReset
  repeat' first
    | with_reducible assumption | with_reducible apply chipReset_keeps | with_reducible apply logRec_keeps
    | with_reducible apply logAll_keeps | with_reducible apply orderlyStart_keeps
    | with_reducible apply countOutage_keeps | simp only [↓Keeps.mk_iff] | with_reducible refine Keeps.ite ?_ ?_
    | with_reducible refine Keeps.foldl _ _ ?_ ?_ | intro _ _ _ | intro _ _ | dsimp only | split

theorem regBlockReset_keeps {z : State} (s : State) (a : Nat) (hz : Keeps z s) : Keeps z (regBlockReset s a) := by
  unfold regBlockReset
  repeat' first
    | with_reducible assumption | with_reducible apply wr_keeps | with_reducible refine Keeps.ite ?_ ?_ | dsimp only
    | split

theorem pageReset_keeps {z : State} (s : State) (pg : Nat) (hz : Keeps z s) : Keeps z (pageReset s pg) := by
  unfold pageReset
  repeat' first
    | with_reducible assumption | with_reducible apply regBlockReset_keeps | simp only [↓Keeps.mk_iff]
    | with_reducible refine Keeps.foldl _ _ ?_ ?_ | intro _ _ _ | intro _ _ | dsimp only

theorem blockClear_keeps {z : State} (s : State) (pg : Nat) (hz : Keeps z s) : Keeps z (blockClear s pg) := by
  unfold blockClear
  repeat' first
    | with_reducible assumption | with_reducible apply perfReset_keeps | with_reducible apply sliceReturn_keeps
    | with_reducible apply calEnd_keeps | simp only [↓Keeps.mk_iff] | with_reducible refine Keeps.ite ?_ ?_
    | dsimp only | split

theorem blockReset_keeps {z : State} (s : State) (pg : Nat) (hz : Keeps z s) : Keeps z (blockReset s pg) := by
  unfold blockReset
  repeat' first
    | with_reducible assumption | with_reducible apply blockClear_keeps | with_reducible apply pageReset_keeps
    | with_reducible apply flag_keeps | simp only [↓Keeps.mk_iff] | with_reducible refine Keeps.ite ?_ ?_ | intro _ _
    | dsimp only | split

theorem runResets_keeps {z : State} (s : State) (hz : Keeps z s) : Keeps z (runResets s) := by
  unfold runResets
  repeat' first
    | with_reducible assumption | with_reducible apply blockReset_keeps | with_reducible apply inc_keeps
    | simp only [↓Keeps.mk_iff] | with_reducible refine Keeps.foldl _ _ ?_ ?_ | intro _ _ _ | intro _ _ | dsimp only

theorem enableCtrl_keeps {z : State} (s : State) (k : Nat) (en : Bool) (hz : Keeps z s) :
    ∀ r, enableCtrl s k en = some r → Keeps z r := by
  intro r h
  unfold enableCtrl at h
  dsimp only at h
  split at h
  · cases h; exact hz
  · split at h
    · split at h
      · split at h
        · cases h
          exact swapBegin_keeps _ _ _ ((flag_keeps _ _ _ _ hz).same rfl rfl rfl rfl rfl)
        · cases h; exact flag_keeps _ _ _ _ hz
      · cases h; exact flag_keeps _ _ _ _ hz
    · split at h
      · split at h
        · cases h
        · cases h
          exact flag_keeps _ _ _ _ (swapBegin_keeps _ _ _ (hz.same rfl rfl rfl rfl rfl))
      · cases h; exact flag_keeps _ _ _ _ hz

theorem enableEng_keeps {z : State} (s : State) (e : Nat) (en : Bool) (hz : Keeps z s) :
    Keeps z (enableEng s e en) := by
  unfold enableEng
  repeat' first
    | with_reducible assumption | with_reducible apply flag_keeps | with_reducible apply engEnable_keeps
    | with_reducible refine Keeps.ite ?_ ?_ | dsimp only | split

theorem tripShut_keeps {z : State} (s : State) (hz : Keeps z s) : Keeps z (tripShut s) := by
  unfold tripShut
  dsimp only
  have h1 : ∀ t : State, Keeps z t → ∀ c : State, c.pending = t.pending → c.free = t.free →
      (SMap.wf regReset t.regs = true → SMap.wf regReset c.regs = true) → c.dram = [] → c.otp.array = t.otp.array →
      Keeps z c := fun t ht u e1 e2 e3 e4 e5 =>
    ht.trans ⟨e1, Nat.le_of_eq e2.symm, e3, fun _ => by rw [e4]; rfl, e5 ▸ id, e5 ▸ fun _ _ b => b⟩
  have h2 := h1 _ (flag_keeps s R.THERM_THERM_STAT2 F.THERM_THERM_STAT2_TRIP_LATCHED true hz)
  refine Keeps.ite (logAll_keeps _ (tripSave_keeps _ (updClk_keeps _ _ ?_))) (updClk_keeps _ _ ?_)
  · apply h2
    · rfl
    · rfl
    · intro h
      dsimp only
      exact Sys2Proof.Laws.SMap.wf_erase _ _ _ h
    · rfl
    · rfl
  · apply h2
    · rfl
    · rfl
    · intro h
      dsimp only
      exact Sys2Proof.Laws.SMap.wf_erase _ _ _ h
    · rfl
    · rfl

theorem releasePages_keeps {z : State} (s : State) (n : Nat) (hz : Keeps z s) : Keeps z (releasePages s n) := by
  unfold releasePages
  repeat' first
    | with_reducible assumption | with_reducible apply flag_keeps | with_reducible refine Keeps.foldl _ _ ?_ ?_
    | intro _ _ _ | intro _ _ | dsimp only

theorem setRose_keeps {z : State} (s : State) (a : Nat) (hz : Keeps z s) : Keeps z (setRose s a) := by
  unfold setRose
  repeat' first
    | with_reducible assumption | simp only [↓Keeps.mk_iff] | intro _ _ | dsimp only

theorem roseEnd_keeps {z : State} (s : State) (pg bit : Nat) (hz : Keeps z s) : Keeps z (roseEnd s pg bit) := by
  unfold roseEnd
  repeat' first
    | with_reducible assumption | with_reducible apply setRose_keeps | with_reducible refine Keeps.ite ?_ ?_
    | dsimp only | split

theorem levelChange_keeps {z : State} (s : State) (pg bit : Nat) (hz : Keeps z s) :
    Keeps z (levelChange s pg bit) := by
  unfold levelChange
  repeat' first
    | with_reducible assumption | with_reducible apply roseEnd_keeps | with_reducible apply perfEdge_keeps
    | with_reducible apply levelTo_keeps | with_reducible refine Keeps.ite ?_ ?_ | dsimp only | split

theorem thermalTrip_keeps {z : State} (s : State) (hz : Keeps z s) : Keeps z (thermalTrip s) := by
  unfold thermalTrip
  repeat' first
    | with_reducible assumption | with_reducible apply flag_keeps | with_reducible apply levelChange_keeps
    | with_reducible apply tripShut_keeps | with_reducible refine Keeps.ite ?_ ?_ | dsimp only | split

theorem msixWrite_keeps {z : State} (s : State) (a be : Nat) (v : Word) (hz : Keeps z s) :
    Keeps z (msixWrite s a be v) := by
  unfold msixWrite
  repeat' first
    | with_reducible assumption | simp only [↓Keeps.mk_iff] | with_reducible refine Keeps.ite ?_ ?_ | dsimp only
    | split

theorem wrTxg_keeps {z : State} (s : State) (g off : Nat) (old new cmd : Word) (hz : Keeps z s) :
    Keeps z (wrTxg s g off old new cmd) := by
  unfold wrTxg
  repeat' first
    | with_reducible assumption | with_reducible apply wr_keeps | with_reducible apply setGrpState_keeps
    | with_reducible apply setLoopTimed_keeps | with_reducible apply decideWidth_keeps | simp only [↓Keeps.mk_iff]
    | with_reducible refine Keeps.ite ?_ ?_ | intro _ _ | dsimp only | split

theorem marginStart_keeps {z : State} (s : State) (g l : Nat) (hz : Keeps z s) : Keeps z (marginStart s g l) := by
  unfold marginStart
  repeat' first
    | with_reducible assumption | with_reducible apply flag_keeps | simp only [↓Keeps.mk_iff] | dsimp only

theorem spareAbort_keeps {z : State} (s : State) (g : Nat) (hz : Keeps z s) : Keeps z (spareAbort s g) := by
  unfold spareAbort
  repeat' first
    | with_reducible assumption | with_reducible apply spareEnd_keeps | with_reducible refine Keeps.ite ?_ ?_
    | dsimp only | split

theorem wrRxg_keeps {z : State} (s : State) (g off : Nat) (old new cmd : Word) (hz : Keeps z s) :
    Keeps z (wrRxg s g off old new cmd) := by
  unfold wrRxg
  repeat' first
    | with_reducible assumption | with_reducible apply wr_keeps | with_reducible apply decideWidth_keeps
    | with_reducible apply spareStart_keeps | with_reducible apply spareAbort_keeps | with_reducible apply flag_keeps
    | with_reducible apply marginStart_keeps | simp only [↓Keeps.mk_iff] | with_reducible refine Keeps.ite ?_ ?_
    | intro _ _ | dsimp only | split

theorem autoBegin_keeps {z : State} (s : State) (d : Dir) (f : Fld) (old new : Word) (hz : Keeps z s) :
    Keeps z (autoBegin s d f old new) := by
  unfold autoBegin
  repeat' first
    | with_reducible assumption | simp only [↓Keeps.mk_iff] | with_reducible refine Keeps.ite ?_ ?_ | intro _ _
    | dsimp only | split

theorem wrLink_keeps {z : State} (s : State) (off : Nat) (old new cmd : Word) (hz : Keeps z s) :
    Keeps z (wrLink s off old new cmd) := by
  unfold wrLink
  repeat' first
    | with_reducible assumption | with_reducible apply wr_keeps | with_reducible apply startTraining_keeps
    | with_reducible apply enterRecover_keeps | with_reducible apply llInit_keeps
    | with_reducible apply autoBegin_keeps | with_reducible apply decideWidth_keeps | simp only [↓Keeps.mk_iff]
    | with_reducible refine Keeps.ite ?_ ?_ | intro _ _ | dsimp only | split

theorem ckptStart_keeps {z : State} (s : State) (hz : Keeps z s) : Keeps z (ckptStart s) := by
  unfold ckptStart
  repeat' first
    | with_reducible assumption | simp only [↓Keeps.mk_iff] | with_reducible refine Keeps.ite ?_ ?_ | dsimp only
    | split

theorem wrPlace_keeps {z : State} (s : State) (off : Nat) (new cmd : Word) (direct : Bool) (hz : Keeps z s) :
    Keeps z (wrPlace s off new cmd direct) := by
  unfold wrPlace
  repeat' first
    | with_reducible assumption | with_reducible apply wr_keeps | with_reducible apply updDeficit_keeps
    | with_reducible apply autoWdr_keeps | with_reducible apply reinstate_keeps | with_reducible apply locQuery_keeps
    | with_reducible apply wdrFind_keeps | with_reducible apply ckptStart_keeps
    | with_reducible refine Keeps.ite ?_ ?_ | dsimp only | split

theorem wrCache_keeps {z : State} (s : State) (off : Nat) (new cmd : Word) (hz : Keeps z s) :
    Keeps z (wrCache s off new cmd) := by
  unfold wrCache
  repeat' first
    | with_reducible assumption | with_reducible apply wr_keeps | with_reducible apply flushStart_keeps
    | with_reducible apply cacheEnable_keeps | with_reducible refine Keeps.ite ?_ ?_ | dsimp only | split

theorem wrCdie_keeps {z : State} (s : State) (off : Nat) (new cmd : Word) (hz : Keeps z s) :
    Keeps z (wrCdie s off new cmd) := by
  unfold wrCdie
  repeat' first
    | with_reducible assumption | with_reducible apply bankRetire_keeps | with_reducible apply wr_keeps
    | with_reducible refine Keeps.ite ?_ ?_ | dsimp only | split

theorem wrChp_keeps {z : State} (s : State) (c off : Nat) (new cmd : Word) (hz : Keeps z s) :
    Keeps z (wrChp s c off new cmd) := by
  unfold wrChp
  repeat' first
    | with_reducible assumption | with_reducible apply wr_keeps | with_reducible apply trainStart_keeps
    | with_reducible apply remapStart_keeps | with_reducible apply setPch_keeps
    | with_reducible apply rowRepairStart_keeps | simp only [↓Keeps.mk_iff] | with_reducible refine Keeps.ite ?_ ?_
    | intro _ _ | dsimp only | split

theorem wrScrub_keeps {z : State} (s : State) (off : Nat) (new cmd : Word) (hz : Keeps z s) :
    Keeps z (wrScrub s off new cmd) := by
  unfold wrScrub
  repeat' first
    | with_reducible assumption | with_reducible apply scrubStart_keeps | with_reducible apply wr_keeps
    | with_reducible refine Keeps.ite ?_ ?_ | dsimp only | split

theorem wrRfm_keeps {z : State} (s : State) (off : Nat) (new : Word) (hz : Keeps z s) :
    Keeps z (wrRfm s off new) := by
  unfold wrRfm
  repeat' first
    | with_reducible assumption | with_reducible apply wr_keeps | with_reducible apply refreshUp_keeps
    | with_reducible refine Keeps.ite ?_ ?_ | dsimp only | split

theorem wrSide_keeps {z : State} (s : State) (off : Nat) (new : Word) (hz : Keeps z s) :
    Keeps z (wrSide s off new) := by
  unfold wrSide
  repeat' first
    | with_reducible assumption | with_reducible apply wr_keeps | with_reducible apply pinEnable_keeps
    | with_reducible apply raisePrio_keeps | with_reducible refine Keeps.ite ?_ ?_ | dsimp only | split

theorem wrEng_keeps {z : State} (s : State) (e off : Nat) (old new : Word) (hz : Keeps z s) :
    Keeps z (wrEng s e off old new) := by
  unfold wrEng
  repeat' first
    | with_reducible assumption | with_reducible apply wr_keeps | with_reducible apply enableEng_keeps
    | with_reducible refine Keeps.ite ?_ ?_ | dsimp only | split

theorem wrQuad_keeps {z : State} (s : State) (q off : Nat) (new cmd : Word) (hz : Keeps z s) :
    Keeps z (wrQuad s q off new cmd) := by
  unfold wrQuad
  repeat' first
    | with_reducible assumption | with_reducible apply cancelWork_keeps | with_reducible apply wr_keeps
    | with_reducible apply endWaiting_keeps | with_reducible apply adoptWorks_keeps
    | with_reducible refine Keeps.ite ?_ ?_ | dsimp only | split

theorem releaseAll_keeps {z : State} (s : State) (m : Nat) (hz : Keeps z s) : Keeps z (releaseAll s m) := by
  unfold releaseAll
  repeat' first
    | with_reducible assumption | with_reducible apply releaseReq_keeps | with_reducible refine Keeps.foldl _ _ ?_ ?_
    | intro _ _ _ | intro _ _ | dsimp only

theorem refuseAll_keeps {z : State} (s : State) (m : Nat) (hz : Keeps z s) : Keeps z (refuseAll s m) := by
  unfold refuseAll
  repeat' first
    | with_reducible assumption | with_reducible apply decideStatus_keeps
    | with_reducible refine Keeps.foldl _ _ ?_ ?_ | intro _ _ _ | intro _ _ | dsimp only

theorem regCtlWrite_keeps {z : State} (s : State) (m : Nat) (hz : Keeps z s) : Keeps z (regCtlWrite s m) := by
  unfold regCtlWrite
  repeat' first
    | with_reducible assumption | with_reducible apply refuseAll_keeps | with_reducible apply latchMaster_keeps
    | with_reducible apply setRemain_keeps | with_reducible apply releaseAll_keeps | simp only [↓Keeps.mk_iff]
    | with_reducible refine Keeps.ite ?_ ?_ | intro _ _ | dsimp only | split

theorem wrBridle_keeps {z : State} (s : State) (off : Nat) (new : Word) (hz : Keeps z s) :
    Keeps z (wrBridle s off new) := by
  unfold wrBridle
  repeat' first
    | with_reducible assumption | with_reducible apply wr_keeps | with_reducible apply setLevel_keeps
    | with_reducible apply raisePrio_keeps | with_reducible apply regCtlWrite_keeps
    | with_reducible apply latchMaster_keeps | with_reducible refine Keeps.ite ?_ ?_ | dsimp only | split

theorem setFcol_keeps {z : State} (s : State) (f : FcolState → FcolState) (hz : Keeps z s) :
    Keeps z (setFcol s f) := by
  unfold setFcol
  repeat' first
    | with_reducible assumption | simp only [↓Keeps.mk_iff] | dsimp only

theorem wrFcol_keeps {z : State} (s : State) (off : Nat) (new cmd : Word) (direct : Bool) (hz : Keeps z s) :
    Keeps z (wrFcol s off new cmd direct) := by
  unfold wrFcol
  repeat' first
    | with_reducible assumption | with_reducible apply wr_keeps | with_reducible apply setFcol_keeps
    | with_reducible apply react_keeps | with_reducible apply overflows_keeps | with_reducible apply resQuery_keeps
    | with_reducible apply alertClear_keeps | simp only [↓Keeps.mk_iff] | with_reducible refine Keeps.ite ?_ ?_
    | intro _ _ | dsimp only | split

theorem wrTherm_keeps {z : State} (s : State) (off : Nat) (new : Word) (hz : Keeps z s) :
    Keeps z (wrTherm s off new) := by
  unfold wrTherm
  repeat' first
    | with_reducible assumption | with_reducible apply wr_keeps | simp only [↓Keeps.mk_iff]
    | with_reducible refine Keeps.ite ?_ ?_ | dsimp only | split

theorem wrPwr_keeps {z : State} (s : State) (off : Nat) (new : Word) (hz : Keeps z s) :
    Keeps z (wrPwr s off new) := by
  unfold wrPwr
  repeat' first
    | with_reducible assumption | with_reducible apply wr_keeps | with_reducible apply ceilingAllow_keeps
    | with_reducible apply dvUpdate_keeps | with_reducible refine Keeps.ite ?_ ?_ | dsimp only | split

theorem wrStack_keeps {z : State} (s : State) (off : Nat) (new cmd : Word) (failed : Bool) (hz : Keeps z s) :
    Keeps z (wrStack s off new cmd failed) := by
  unfold wrStack
  repeat' first
    | with_reducible assumption | with_reducible apply wr_keeps | with_reducible apply saveNow_keeps
    | with_reducible refine Keeps.ite ?_ ?_ | dsimp only | split

theorem wrClk_keeps {z : State} (s : State) (off : Nat) (old new cmd : Word) (hz : Keeps z s) :
    Keeps z (wrClk s off old new cmd) := by
  unfold wrClk
  repeat' first
    | with_reducible assumption | with_reducible apply wr_keeps | with_reducible apply refPcieSet_keeps
    | with_reducible apply fmcStart_keeps | with_reducible apply rstCmd_keeps | with_reducible apply monStop_keeps
    | with_reducible refine Keeps.ite ?_ ?_ | dsimp only | split

theorem wrFuse_keeps {z : State} (s : State) (off : Nat) (new cmd : Word) (hz : Keeps z s) :
    Keeps z (wrFuse s off new cmd) := by
  unfold wrFuse
  repeat' first
    | with_reducible assumption | with_reducible apply progWord_keeps | with_reducible apply genSecret_keeps
    | with_reducible apply lifeNext_keeps | with_reducible apply lifeVoid_keeps | with_reducible apply wr_keeps
    | with_reducible refine Keeps.ite ?_ ?_ | dsimp only | split

theorem wrBist_keeps {z : State} (s : State) (off : Nat) (new cmd : Word) (hz : Keeps z s) :
    Keeps z (wrBist s off new cmd) := by
  unfold wrBist
  repeat' first
    | with_reducible assumption | with_reducible apply bistCmd_keeps | with_reducible apply wr_keeps
    | with_reducible refine Keeps.ite ?_ ?_ | dsimp only | split

theorem wrCal_keeps {z : State} (s : State) (off : Nat) (new cmd : Word) (hz : Keeps z s) :
    Keeps z (wrCal s off new cmd) := by
  unfold wrCal
  repeat' first
    | with_reducible assumption | with_reducible apply calSelect_keeps | with_reducible apply calStage_keeps
    | with_reducible apply calCommit_keeps | with_reducible apply calDiscard_keeps | with_reducible apply wr_keeps
    | with_reducible refine Keeps.ite ?_ ?_ | dsimp only | split

theorem wrPerf_keeps {z : State} (s : State) (off : Nat) (old new cmd : Word) (hz : Keeps z s) :
    Keeps z (wrPerf s off old new cmd) := by
  unfold wrPerf
  repeat' first
    | with_reducible assumption | with_reducible apply wr_keeps | with_reducible apply perfFreeze_keeps
    | with_reducible apply perfSnapshot_keeps | with_reducible apply perfCfgWrite_keeps
    | with_reducible apply perfClear_keeps | with_reducible apply perfClearAll_keeps
    | with_reducible apply seedWrite_keeps | with_reducible apply ringSelect_keeps
    | with_reducible refine Keeps.ite ?_ ?_ | dsimp only | split

theorem wrMgmt_keeps {z : State} (s : State) (off : Nat) (new cmd : Word) (hz : Keeps z s) :
    Keeps z (wrMgmt s off new cmd) := by
  unfold wrMgmt
  repeat' first
    | with_reducible assumption | with_reducible apply wr_keeps | with_reducible apply mbGo_keeps
    | with_reducible refine Keeps.ite ?_ ?_ | dsimp only | split

theorem wrSpi_keeps {z : State} (s : State) (off : Nat) (new cmd : Word) (hz : Keeps z s) :
    Keeps z (wrSpi s off new cmd) := by
  unfold wrSpi
  repeat' first
    | with_reducible assumption | with_reducible apply rawCmd_keeps | with_reducible apply wr_keeps
    | with_reducible refine Keeps.ite ?_ ?_ | dsimp only | split

theorem wrPgCtl_keeps {z : State} (s : State) (path : Path) (pg : Nat) (old new cmd : Word) (busy : Bool) (hz : Keeps z s) :
    Keeps z (wrPgCtl s path pg old new cmd busy) := by
  unfold wrPgCtl
  dsimp only
  have h1 : Keeps z (if firstOf pg = 0x100 then
      (match s.enableCtrl (pg - 0x100) (decide (F.PG_CTL_ENABLE.get new = 1)) with
        | some t => t | none => s.accErr path (pgCtl pg) true 7)
    else if firstOf pg = 0x180 then s.enableEng (pg - 0x180) (decide (F.PG_CTL_ENABLE.get new = 1)) else s) := by
    split
    · split
      · rename_i h; exact enableCtrl_keeps _ _ _ hz _ h
      · exact accErr_keeps _ _ _ _ _ hz
    · exact Keeps.ite (enableEng_keeps _ _ _ hz) hz
  generalize (if firstOf pg = 0x100 then _ else _) = t at h1 ⊢
  repeat' first
    | with_reducible assumption
    | with_reducible apply accErr_keeps
    | with_reducible apply blockReset_keeps
    | with_reducible apply gateClose_keeps
    | with_reducible apply gateRelease_keeps
    | simp only [↓Keeps.mk_iff]
    | with_reducible refine Keeps.ite ?_ ?_
    | with_reducible refine Keeps.foldl _ _ ?_ ?_
    | with_reducible refine Keeps.foldlSnd _ _ ?_ ?_
    | intro _ _ _
    | intro _ _
    | dsimp only
    | split

theorem regEffect_keeps {z : State} (s : State) (path : Path) (a : Nat) (old new cmd : Word) (direct : Bool) (hz : Keeps z s) :
    Keeps z (regEffect s path a old new cmd direct) := by
  unfold regEffect
  repeat' first
    | with_reducible assumption | with_reducible apply wrPgCtl_keeps | with_reducible apply wr_keeps
    | with_reducible apply wrTxg_keeps | with_reducible apply wrRxg_keeps | with_reducible apply wrLink_keeps
    | with_reducible apply wrPlace_keeps | with_reducible apply wrCache_keeps | with_reducible apply wrCdie_keeps
    | with_reducible apply wrChp_keeps | with_reducible apply wrScrub_keeps | with_reducible apply wrRfm_keeps
    | with_reducible apply wrSide_keeps | with_reducible apply wrEng_keeps | with_reducible apply wrQuad_keeps
    | with_reducible apply wrBridle_keeps | with_reducible apply wrFcol_keeps | with_reducible apply wrTherm_keeps
    | with_reducible apply wrPwr_keeps | with_reducible apply wrStack_keeps | with_reducible apply wrClk_keeps
    | with_reducible apply wrFuse_keeps | with_reducible apply wrBist_keeps | with_reducible apply wrCal_keeps
    | with_reducible apply wrPerf_keeps | with_reducible apply wrMgmt_keeps | with_reducible apply wrSpi_keeps
    | with_reducible apply perfSnapshot_keeps | with_reducible apply accErr_keeps
    | with_reducible apply noteWait_keeps | with_reducible refine Keeps.ite ?_ ?_ | dsimp only | split

theorem regWrite_keeps {z : State} (s : State) (path : Path) (a k be : Nat) (v : Word) (hz : Keeps z s) :
    Keeps z (regWrite s path a k be v) := by
  unfold regWrite
  repeat' first
    | with_reducible assumption | with_reducible apply accErr_keeps | with_reducible apply regEffect_keeps
    | with_reducible refine Keeps.ite ?_ ?_ | dsimp only | split

theorem writeOnce_keeps {z : State} (s : State) (path : Path) (a be : Nat) (v : Word) (hz : Keeps z s) :
    Keeps z (writeOnce s path a be v).st := by
  unfold writeOnce
  repeat' first
    | with_reducible assumption | with_reducible apply msixWrite_keeps | with_reducible apply accErr_keeps
    | with_reducible apply regWrite_keeps | with_reducible refine Keeps.ite ?_ ?_ | dsimp only | split

theorem busWrite_keeps {z : State} (s : State) (path : Path) (a be : Nat) (v : Word) (hz : Keeps z s) :
    Keeps z (busWrite s path a be v).st := by
  unfold busWrite
  repeat' first
    | with_reducible assumption | with_reducible apply writeOnce_keeps | with_reducible apply freeWord_keeps
    | with_reducible refine Keeps.ite ?_ ?_ | dsimp only | split

theorem readOnce_keeps {z : State} (s : State) (path : Path) (a : Nat) (hz : Keeps z s) :
    Keeps z (readOnce s path a).st := by
  unfold readOnce
  repeat' first
    | with_reducible assumption | with_reducible apply accErr_keeps | simp only [↓Keeps.mk_iff]
    | with_reducible refine Keeps.ite ?_ ?_ | intro _ _ | dsimp only | split

theorem busRead_keeps {z : State} (s : State) (path : Path) (a : Nat) (hz : Keeps z s) :
    Keeps z (busRead s path a).st := by
  unfold busRead
  repeat' first
    | with_reducible assumption | with_reducible apply readOnce_keeps | with_reducible apply freeWord_keeps
    | with_reducible refine Keeps.ite ?_ ?_ | dsimp only | split

theorem cmdWrite_keeps {z : State} (s : State) (path : Path) (a : Nat) (v : Word) (hz : Keeps z s) :
    Keeps z (cmdWrite s path a v) := by
  unfold cmdWrite
  repeat' first
    | with_reducible assumption | with_reducible apply busWrite_keeps | dsimp only

theorem cmdSet_keeps {z : State} (s : State) (w : RegWrite) (a : Nat) (f : Fld) (hz : Keeps z s) :
    Keeps z (cmdSet s w a f) := by
  unfold cmdSet
  repeat' first
    | with_reducible assumption | with_reducible apply cmdWrite_keeps | dsimp only

theorem stall_keeps {z : State} (s : State) (hz : Keeps z s) : Keeps z (stall s) := by
  unfold stall
  repeat' first
    | with_reducible assumption | with_reducible apply flag_keeps | dsimp only

theorem bootTo_keeps {z : State} (s : State) (n : Nat) (hz : Keeps z s) : Keeps z (bootTo s n) := by
  unfold bootTo
  repeat' first
    | with_reducible assumption | with_reducible apply put_keeps | dsimp only

theorem pchFlag_keeps {z : State} (s : State) (pc : Nat) (hz : Keeps z s) : Keeps z (pchFlag s pc) := by
  unfold pchFlag
  repeat' first
    | with_reducible assumption | with_reducible apply flag_keeps | with_reducible refine Keeps.ite ?_ ?_ | dsimp only
    | split

theorem ctrlOff_keeps {z : State} (s : State) (k : Nat) (hz : Keeps z s) : Keeps z (ctrlOff s k) := by
  unfold ctrlOff
  repeat' first
    | with_reducible assumption | with_reducible apply flag_keeps | with_reducible apply swapTake_keeps
    | simp only [↓Keeps.mk_iff] | with_reducible refine Keeps.ite ?_ ?_ | dsimp only | split

theorem engOff_keeps {z : State} (s : State) (e : Nat) (hz : Keeps z s) : Keeps z (engOff s e) := by
  unfold engOff
  repeat' first
    | with_reducible assumption | with_reducible apply setEngState_keeps | with_reducible apply flag_keeps
    | with_reducible apply fillSlot_keeps | with_reducible refine Keeps.ite ?_ ?_
    | with_reducible refine Keeps.foldl _ _ ?_ ?_ | intro _ _ _ | intro _ _ | dsimp only | split

theorem bankOff_keeps {z : State} (s : State) (b : Nat) (hz : Keeps z s) : Keeps z (bankOff s b) := by
  unfold bankOff
  repeat' first
    | with_reducible assumption | with_reducible apply put_keeps | with_reducible apply setBit_keeps | dsimp only

theorem bootRemap_keeps {z : State} (s : State) (r : Word × Word) (hz : Keeps z s) : Keeps z (bootRemap s r) := by
  unfold bootRemap
  repeat' first
    | with_reducible assumption | with_reducible apply takeSpare_keeps | with_reducible refine Keeps.ite ?_ ?_
    | dsimp only | split

theorem bootRetire_keeps {z : State} (s : State) (mfg : Bool) (w : Word) (hz : Keeps z s) : Keeps z (bootRetire s mfg w) := by
  unfold bootRetire
  repeat' first
    | with_reducible assumption
    | with_reducible apply setBit_keeps
    | with_reducible apply incSat_keeps
    | with_reducible apply flag_keeps
    | with_reducible apply ctrlOff_keeps
    | with_reducible apply engOff_keeps
    | with_reducible apply bankOff_keeps
    | with_reducible apply macroTake_getD_keeps
    | simp only [↓Keeps.mk_iff]
    | with_reducible refine Keeps.ite ?_ ?_
    | with_reducible refine Keeps.foldl _ _ ?_ ?_
    | with_reducible refine Keeps.foldlSnd _ _ ?_ ?_
    | intro _ _ _
    | intro _ _
    | dsimp only
    | split

theorem bootRecord_keeps {z : State} (mfg : Bool) (s : State) (r : Word × Word) (hz : Keeps z s) :
    Keeps z (bootRecord mfg s r) := by
  unfold bootRecord
  repeat' first
    | with_reducible assumption | with_reducible apply bootRemap_keeps | with_reducible apply bootRetire_keeps
    | with_reducible apply pchFlag_keeps | with_reducible apply flag_keeps | with_reducible refine Keeps.ite ?_ ?_
    | intro _ _ | dsimp only | split

theorem bootRecordsApply_keeps {z : State} (s : State) (hz : Keeps z s) : Keeps z (bootRecordsApply s) := by
  unfold bootRecordsApply
  repeat' first
    | with_reducible assumption | with_reducible apply bootRecord_keeps | with_reducible refine Keeps.foldl _ _ ?_ ?_
    | intro _ _ _ | intro _ _ | dsimp only

theorem bootSpare_keeps {z : State} (pc : Nat) (ca : Bool) (x : Bool × State) (v : Nat) (hz : Keeps z x.2) :
    Keeps z (bootSpare pc ca x v).2 := by
  unfold bootSpare
  split
  · exact hz
  · exact recordStep_keeps _ _ _ _ (takeSpare_keeps _ _ _ _ _ hz)

theorem bootSpares_keeps {z : State} (pc : Nat) (ca : Bool) (l : List Nat) (x : Bool × State) (hz : Keeps z x.2) :
    Keeps z (l.foldl (bootSpare pc ca) x).2 := by
  induction l generalizing x with
  | nil => exact hz
  | cons v l ih => exact ih _ (bootSpare_keeps pc ca x v hz)

theorem bootTrain_keeps {z : State} (s : State) (pc : Nat) (t : TsvIn) (hz : Keeps z s) : Keeps z (bootTrain s pc t) := by
  unfold bootTrain
  repeat' first
    | with_reducible assumption
    | with_reducible apply exitSelfRefresh_keeps
    | with_reducible apply verifyVias_keeps
    | with_reducible apply setPch_keeps
    | with_reducible apply applyTraining_keeps
    | with_reducible apply flag_keeps
    | with_reducible apply bootSpares_keeps
    | with_reducible apply put_keeps
    | simp only [↓Keeps.mk_iff]
    | with_reducible refine Keeps.ite ?_ ?_
    | with_reducible refine Keeps.foldl _ _ ?_ ?_
    | with_reducible refine Keeps.foldlSnd _ _ ?_ ?_
    | intro _ _ _
    | intro _ _
    | dsimp only
    | split

theorem putDieId_keeps {z : State} (s : State) (d : Nat) (v : BitVec 128) (hz : Keeps z s) :
    Keeps z (putDieId s d v) := by
  unfold putDieId
  repeat' first
    | with_reducible assumption | with_reducible apply wr_keeps | with_reducible refine Keeps.ite ?_ ?_
    | with_reducible refine Keeps.foldl _ _ ?_ ?_ | intro _ _ _ | intro _ _ | dsimp only | split

theorem bootTsv_keeps {z : State} (s : State) (b : BootIn) (hz : Keeps z s) : Keeps z (bootTsv s b) := by
  unfold bootTsv
  repeat' first
    | with_reducible assumption | with_reducible apply bootRecordsApply_keeps | with_reducible apply bootTrain_keeps
    | with_reducible apply flag_keeps | with_reducible apply putDieId_keeps
    | with_reducible refine Keeps.foldl _ _ ?_ ?_ | intro _ _ _ | intro _ _ | dsimp only

theorem blockFails_keeps {z : State} (s : State) (hz : Keeps z s) : Keeps z (blockFails s) := by
  unfold blockFails
  repeat' first
    | with_reducible assumption | with_reducible apply flag_keeps | dsimp only

theorem bootCtrlFail_keeps {z : State} (s : State) (k : Nat) (hz : Keeps z s) : Keeps z (bootCtrlFail s k) := by
  unfold bootCtrlFail
  repeat' first
    | with_reducible assumption | with_reducible apply incSat_keeps | with_reducible apply ctrlOff_keeps
    | with_reducible apply recordStep_keeps | with_reducible refine Keeps.ite ?_ ?_ | dsimp only | split

theorem bootEngFail_keeps {z : State} (s : State) (e : Nat) (hz : Keeps z s) : Keeps z (bootEngFail s e) := by
  unfold bootEngFail
  repeat' first
    | with_reducible assumption | with_reducible apply incSat_keeps | with_reducible apply engOff_keeps
    | with_reducible apply recordStep_keeps | with_reducible refine Keeps.ite ?_ ?_ | dsimp only | split

theorem bootMacroFail_keeps {z : State} (s : State) (m : Nat) (hz : Keeps z s) : Keeps z (bootMacroFail s m) := by
  unfold bootMacroFail
  repeat' first
    | with_reducible assumption | with_reducible refine macroTake_keeps _ _ ?_ _ (by assumption)
    | with_reducible apply blockFails_keeps | with_reducible apply recordStep_keeps
    | with_reducible apply incSat_keeps | simp only [↓Keeps.mk_iff] | with_reducible refine Keeps.ite ?_ ?_
    | dsimp only | split

theorem bootBankFail_keeps {z : State} (s : State) (b : Nat) (hz : Keeps z s) : Keeps z (bootBankFail s b) := by
  unfold bootBankFail
  repeat' first
    | with_reducible assumption | with_reducible apply incSat_keeps | with_reducible apply bankOff_keeps
    | with_reducible apply recordStep_keeps | with_reducible apply dieRetire_keeps
    | with_reducible refine Keeps.ite ?_ ?_ | intro _ _ | dsimp only | split

theorem bootFail_keeps {z : State} (s : State) (x : BistFail) (hz : Keeps z s) : Keeps z (bootFail s x) := by
  unfold bootFail
  repeat' first
    | with_reducible assumption | with_reducible apply bootCtrlFail_keeps | with_reducible apply bootEngFail_keeps
    | with_reducible apply flag_keeps | with_reducible apply bootMacroFail_keeps
    | with_reducible apply bootBankFail_keeps | with_reducible apply inc_keeps
    | with_reducible apply spareViaOut_keeps | with_reducible apply blockFails_keeps | simp only [↓Keeps.mk_iff]
    | with_reducible refine Keeps.ite ?_ ?_ | dsimp only | split

theorem bootBist_keeps {z : State} (s : State) (b : BootIn) (hz : Keeps z s) : Keeps z (bootBist s b) := by
  unfold bootBist
  repeat' first
    | with_reducible assumption | with_reducible apply bootFail_keeps | with_reducible apply wr_keeps
    | with_reducible apply flag_keeps | with_reducible refine Keeps.foldl _ _ ?_ ?_ | intro _ _ _ | intro _ _
    | dsimp only

theorem bootRow_keeps {z : State} (s : State) (r : Word × Word) (hz : Keeps z s) : Keeps z (bootRow s r) := by
  unfold bootRow
  repeat' first
    | with_reducible assumption | with_reducible apply incSat_keeps | simp only [↓Keeps.mk_iff]
    | with_reducible refine Keeps.ite ?_ ?_ | intro _ _ | dsimp only | split

theorem bootPchOut_keeps {z : State} (s : State) (pc : Nat) (hz : Keeps z s) : Keeps z (bootPchOut s pc) := by
  unfold bootPchOut
  repeat' first
    | with_reducible assumption | with_reducible apply pchFlag_keeps | with_reducible apply recordStep_keeps
    | with_reducible apply chanRetired_keeps | dsimp only

theorem restoreGone_keeps {z : State} (s : State) (gone : List Word) (hz : Keeps z s) :
    Keeps z (restoreGone s gone) := by
  unfold restoreGone
  repeat' first
    | with_reducible assumption | with_reducible apply setMirror_keeps | with_reducible apply setEntry_keeps
    | with_reducible apply setFrame_keeps | simp only [↓Keeps.mk_iff] | with_reducible refine Keeps.foldl _ _ ?_ ?_
    | intro _ _ _ | intro _ _ | dsimp only

theorem bootOrphans_keeps {z : State} (s : State) (hz : Keeps z s) : Keeps z (bootOrphans s) := by
  unfold bootOrphans
  repeat' first
    | with_reducible assumption | with_reducible apply orphanServe_keeps | with_reducible refine Keeps.ite ?_ ?_
    | with_reducible refine Keeps.foldl _ _ ?_ ?_ | intro _ _ _ | intro _ _ | dsimp only | split

theorem bootDram_keeps {z : State} (s : State) (hz : Keeps z s) : Keeps z (bootDram s) := by
  unfold bootDram
  repeat' first
    | with_reducible assumption | with_reducible apply bootRow_keeps | with_reducible apply setMirror_keeps
    | with_reducible apply restoreGone_keeps | with_reducible apply tableRestore_keeps
    | with_reducible apply wearFromKeel_keeps | with_reducible apply makeUnreadable_keeps
    | with_reducible apply retirePch_keeps | with_reducible apply bootPchOut_keeps
    | with_reducible apply tableLayout_keeps | with_reducible apply updClk_keeps
    | with_reducible apply bootOrphans_keeps | with_reducible apply flag_keeps | simp only [↓Keeps.mk_iff]
    | with_reducible refine Keeps.ite ?_ ?_ | with_reducible refine Keeps.foldl _ _ ?_ ?_ | intro _ _ _ | intro _ _
    | dsimp only | split

theorem bootStraps_keeps {z : State} (s : State) (b : BootIn) (hz : Keeps z s) : Keeps z (bootStraps s b) := by
  unfold bootStraps
  repeat' first
    | with_reducible assumption | with_reducible apply flag_keeps | with_reducible apply updClk_keeps
    | with_reducible apply bootTo_keeps | simp only [↓Keeps.mk_iff] | with_reducible refine Keeps.ite ?_ ?_
    | with_reducible refine Keeps.foldl _ _ ?_ ?_ | intro _ _ _ | intro _ _ | dsimp only | split

theorem bootClocks_keeps {z : State} (s : State) (hz : Keeps z s) : Keeps z (bootClocks s) := by
  unfold bootClocks
  repeat' first
    | with_reducible assumption | with_reducible apply releasePages_keeps | with_reducible apply setEngState_keeps
    | with_reducible apply llInit_keeps | with_reducible apply bootTo_keeps | with_reducible apply hwGatesClose_keeps
    | with_reducible refine Keeps.ite ?_ ?_ | with_reducible refine Keeps.foldl _ _ ?_ ?_ | intro _ _ _ | intro _ _
    | dsimp only | split

theorem bootFirmware_keeps {z : State} (s : State) (b : BootIn) (hz : Keeps z s) : Keeps z (bootFirmware s b) := by
  unfold bootFirmware
  repeat' first
    | with_reducible assumption | with_reducible apply wr_keeps | with_reducible apply flag_keeps
    | with_reducible apply loadSecret_keeps | with_reducible apply loadFirmware_keeps
    | with_reducible apply stall_keeps | with_reducible apply promote_keeps | with_reducible apply mergeRecords_keeps
    | with_reducible apply wearRestore_keeps | with_reducible apply showLogNext_keeps
    | with_reducible apply logNote_keeps | with_reducible apply bootTo_keeps | simp only [↓Keeps.mk_iff]
    | with_reducible refine Keeps.ite ?_ ?_ | dsimp only | split

theorem bootLocks_keeps {z : State} (s : State) (ws : List (BitVec 22 × Word)) (hz : Keeps z s) :
    Keeps z (bootLocks s ws) := by
  unfold bootLocks
  repeat' first
    | with_reducible assumption | with_reducible apply lockPage_keeps | with_reducible apply put_keeps
    | with_reducible apply flag_keeps | simp only [↓Keeps.mk_iff] | with_reducible refine Keeps.ite ?_ ?_
    | with_reducible refine Keeps.foldl _ _ ?_ ?_ | intro _ _ _ | intro _ _ | dsimp only | split

theorem bootConfig_keeps {z : State} (s : State) (b : BootIn) (hz : Keeps z s) : Keeps z (bootConfig s b) := by
  unfold bootConfig
  repeat' first
    | with_reducible assumption | with_reducible apply cfgWrites_keeps | with_reducible apply busWrite_keeps
    | with_reducible apply bootLocks_keeps | with_reducible apply bootTo_keeps | simp only [↓Keeps.mk_iff]
    | with_reducible refine Keeps.foldl _ _ ?_ ?_ | intro _ _ _ | intro _ _ | dsimp only

theorem bootNote_keeps {z : State} (s : State) (hz : Keeps z s) : Keeps z (bootNote s) := by
  unfold bootNote
  repeat' first
    | with_reducible assumption | with_reducible apply logNote_keeps | dsimp only

theorem bootStepComplete_keeps {z : State} (s : State) (b : BootIn) (hz : Keeps z s) :
    Keeps z (bootStepComplete s b) := by
  unfold bootStepComplete
  repeat' first
    | with_reducible assumption | with_reducible apply bootTo_keeps | with_reducible apply releasePages_keeps
    | with_reducible apply flag_keeps | with_reducible apply pcieClock_keeps | with_reducible apply bootStraps_keeps
    | with_reducible apply otpBootRead_keeps | with_reducible apply calApplied_keeps
    | with_reducible apply integCheck_keeps | with_reducible apply stall_keeps | with_reducible apply updClk_keeps
    | with_reducible apply bootClocks_keeps | with_reducible apply bootFirmware_keeps
    | with_reducible apply bootConfig_keeps | with_reducible apply bootTsv_keeps | with_reducible apply bootBist_keeps
    | with_reducible apply bootDram_keeps | with_reducible apply bootNote_keeps | simp only [↓Keeps.mk_iff]
    | with_reducible refine Keeps.ite ?_ ?_ | intro _ _ | dsimp only | split

theorem railWaitExpiry_keeps {z : State} (s : State) (hz : Keeps z s) : Keeps z (railWaitExpiry s) := by
  unfold railWaitExpiry
  repeat' first
    | with_reducible assumption | with_reducible apply stall_keeps | with_reducible refine Keeps.ite ?_ ?_
    | dsimp only | split

theorem linkReady_keeps {z : State} (s : State) (hz : Keeps z s) : Keeps z (linkReady s) := by
  unfold linkReady
  repeat' first
    | with_reducible assumption | with_reducible apply bootTo_keeps | with_reducible apply flag_keeps
    | with_reducible apply put_keeps | with_reducible apply bootNote_keeps | with_reducible refine Keeps.ite ?_ ?_
    | dsimp only | split

theorem updLink_keeps {z : State} (s : State) (f : LinkState → LinkState) (hz : Keeps z s) :
    Keeps z (updLink s f) := by
  unfold updLink
  repeat' first
    | with_reducible assumption | simp only [↓Keeps.mk_iff] | dsimp only

theorem trainingStart_keeps {z : State} (s : State) (hz : Keeps z s) : Keeps z (trainingStart s) := by
  unfold trainingStart
  repeat' first
    | with_reducible assumption | with_reducible apply startTraining_keeps | with_reducible refine Keeps.ite ?_ ?_
    | dsimp only | split

theorem eqAckSeen_keeps {z : State} (s : State) (g arg : Nat) (hz : Keeps z s) : Keeps z (eqAckSeen s g arg) := by
  unfold eqAckSeen
  repeat' first
    | with_reducible assumption | with_reducible apply updLink_keeps | simp only [↓Keeps.mk_iff]
    | with_reducible refine Keeps.ite ?_ ?_ | intro _ _ | dsimp only | split

theorem paramSeen_keeps {z : State} (s : State) (g arg : Nat) (hz : Keeps z s) : Keeps z (paramSeen s g arg) := by
  unfold paramSeen
  repeat' first
    | with_reducible assumption | with_reducible apply updLink_keeps | simp only [↓Keeps.mk_iff]
    | with_reducible refine Keeps.ite ?_ ?_ | intro _ _ | dsimp only | split

theorem trainSeen_keeps {z : State} (s : State) (g arg : Nat) (hz : Keeps z s) : Keeps z (trainSeen s g arg) := by
  unfold trainSeen
  repeat' first
    | with_reducible assumption | with_reducible apply updLink_keeps | with_reducible apply eqLeaves_keeps
    | simp only [↓Keeps.mk_iff] | with_reducible refine Keeps.ite ?_ ?_ | intro _ _ | dsimp only | split

theorem lanesBack_keeps {z : State} (s : State) (hz : Keeps z s) : Keeps z (lanesBack s) := by
  unfold lanesBack
  repeat' first
    | with_reducible assumption | with_reducible apply updLink_keeps | with_reducible apply undeclare_keeps
    | simp only [↓Keeps.mk_iff] | with_reducible refine Keeps.ite ?_ ?_ | with_reducible refine Keeps.foldl _ _ ?_ ?_
    | intro _ _ _ | intro _ _ | dsimp only | split

theorem eidleSeen_keeps {z : State} (s : State) (g : Nat) (hz : Keeps z s) : Keeps z (eidleSeen s g) := by
  unfold eidleSeen
  repeat' first
    | with_reducible assumption | with_reducible apply updLink_keeps | simp only [↓Keeps.mk_iff] | intro _ _
    | dsimp only

theorem laneLocked_keeps {z : State} (s : State) (g l : Nat) (hz : Keeps z s) : Keeps z (laneLocked s g l) := by
  unfold laneLocked
  repeat' first
    | with_reducible assumption | with_reducible apply flag_keeps | dsimp only

theorem exitSeen_keeps {z : State} (s : State) (g block : Nat) (hz : Keeps z s) : Keeps z (exitSeen s g block) := by
  unfold exitSeen
  repeat' first
    | with_reducible assumption | with_reducible apply updLink_keeps | with_reducible apply laneLocked_keeps
    | with_reducible apply flag_keeps | simp only [↓Keeps.mk_iff] | with_reducible refine Keeps.ite ?_ ?_
    | with_reducible refine Keeps.foldl _ _ ?_ ?_ | intro _ _ _ | intro _ _ | dsimp only | split

theorem groupReady_keeps {z : State} (s : State) (d : Dir) (g : Nat) (skew : BitVec 8) (line : List (Fin 10 × BitVec 58)) (hz : Keeps z s) :
    Keeps z (groupReady s d g skew line) := by
  unfold groupReady
  repeat' first
    | with_reducible assumption | with_reducible apply enterRecover_keeps | with_reducible apply updLink_keeps
    | with_reducible apply takeLine_keeps | with_reducible apply put_keeps | simp only [↓Keeps.mk_iff]
    | with_reducible refine Keeps.ite ?_ ?_ | with_reducible refine Keeps.foldl _ _ ?_ ?_ | intro _ _ _ | intro _ _
    | dsimp only | split

theorem keepaliveSend_keeps {z : State} (s : State) (g : Nat) (hz : Keeps z s) : Keeps z (keepaliveSend s g) := by
  unfold keepaliveSend
  repeat' first
    | with_reducible assumption | with_reducible apply laneBurst_keeps | with_reducible refine Keeps.ite ?_ ?_
    | dsimp only | split

theorem keepaliveSeen_keeps {z : State} (s : State) (g : Nat) (adapt : List (Fin 10 × Adapt)) (hz : Keeps z s) :
    Keeps z (keepaliveSeen s g adapt) := by
  unfold keepaliveSeen
  repeat' first
    | with_reducible assumption | with_reducible apply takeAdapt_keeps | with_reducible apply updLink_keeps
    | simp only [↓Keeps.mk_iff] | with_reducible refine Keeps.ite ?_ ?_ | with_reducible refine Keeps.foldl _ _ ?_ ?_
    | intro _ _ _ | intro _ _ | dsimp only | split

theorem keepaliveMissed_keeps {z : State} (s : State) (g : Nat) (hz : Keeps z s) : Keeps z (keepaliveMissed s g) := by
  unfold keepaliveMissed
  repeat' first
    | with_reducible assumption | with_reducible apply flag_keeps | with_reducible apply setUsable_keeps
    | with_reducible apply enterRecover_keeps | with_reducible refine Keeps.ite ?_ ?_ | dsimp only | split

theorem padLane_keeps {z : State} (ui : Nat) (s : State) (g l : Nat) (hz : Keeps z s) :
    Keeps z (padLane ui s g l) := by
  unfold padLane
  repeat' first
    | with_reducible assumption | with_reducible apply blockSyms_keeps | with_reducible apply drive_keeps | dsimp only

theorem padInsert_keeps {z : State} (s : State) (hz : Keeps z s) : Keeps z (padInsert s) := by
  unfold padInsert
  repeat' first
    | with_reducible assumption | with_reducible apply updLink_keeps | with_reducible apply padLane_keeps
    | with_reducible apply clearOut_keeps | with_reducible apply inc_keeps | simp only [↓Keeps.mk_iff]
    | with_reducible refine Keeps.ite ?_ ?_ | with_reducible refine Keeps.foldl _ _ ?_ ?_ | intro _ _ _ | intro _ _
    | dsimp only | split

theorem setPhase_keeps {z : State} (s : State) (g n : Nat) (hz : Keeps z s) : Keeps z (setPhase s g n) := by
  unfold setPhase
  repeat' first
    | with_reducible assumption | with_reducible apply put_keeps | dsimp only

theorem shadowReq_keeps {z : State} (s : State) (g lane : Nat) (hz : Keeps z s) : Keeps z (shadowReq s g lane) := by
  unfold shadowReq
  repeat' first
    | with_reducible assumption | with_reducible apply updLink_keeps | with_reducible apply flag_keeps
    | with_reducible apply setAck_keeps | with_reducible apply sparingWidth_keeps | simp only [↓Keeps.mk_iff]
    | with_reducible refine Keeps.ite ?_ ?_ | intro _ _ | dsimp only | split

theorem shadowAck_keeps {z : State} (s : State) (g lane : Nat) (hz : Keeps z s) : Keeps z (shadowAck s g lane) := by
  unfold shadowAck
  repeat' first
    | with_reducible assumption | with_reducible apply setPhase_keeps | with_reducible apply flag_keeps
    | with_reducible refine Keeps.ite ?_ ?_ | dsimp only | split

theorem ackMissing_keeps {z : State} (s : State) (g : Nat) (hz : Keeps z s) : Keeps z (ackMissing s g) := by
  unfold ackMissing
  repeat' first
    | with_reducible assumption | with_reducible apply spareEnd_keeps | with_reducible refine Keeps.ite ?_ ?_
    | dsimp only | split

theorem adaptDone_keeps {z : State} (s : State) (g : Nat) (hz : Keeps z s) : Keeps z (adaptDone s g) := by
  unfold adaptDone
  repeat' first
    | with_reducible assumption | with_reducible apply setPhase_keeps | with_reducible apply put_keeps
    | with_reducible apply laneLocked_keeps | with_reducible refine Keeps.ite ?_ ?_ | dsimp only | split

theorem adaptTimeout_keeps {z : State} (s : State) (g : Nat) (hz : Keeps z s) : Keeps z (adaptTimeout s g) := by
  unfold adaptTimeout
  repeat' first
    | with_reducible assumption | with_reducible apply spareEnd_keeps | with_reducible apply sparingFailed_keeps
    | with_reducible refine Keeps.ite ?_ ?_ | dsimp only | split

theorem compareDone_keeps {z : State} (s : State) (g n : Nat) (hz : Keeps z s) : Keeps z (compareDone s g n) := by
  unfold compareDone
  repeat' first
    | with_reducible assumption | with_reducible apply put_keeps | with_reducible apply setPhase_keeps
    | with_reducible apply setCtl_keeps | with_reducible apply spareEnd_keeps
    | with_reducible apply sparingFailed_keeps | with_reducible refine Keeps.ite ?_ ?_ | dsimp only | split

theorem switchDone_keeps {z : State} (s : State) (d : Dir) (g arg : Nat) (hz : Keeps z s) :
    Keeps z (switchDone s d g arg) := by
  unfold switchDone
  repeat' first
    | with_reducible assumption | with_reducible apply updLink_keeps | with_reducible apply spareSwitch_keeps
    | with_reducible apply refLost_keeps | with_reducible apply setPhase_keeps | with_reducible apply setCtl_keeps
    | with_reducible apply setAck_keeps | simp only [↓Keeps.mk_iff] | with_reducible refine Keeps.ite ?_ ?_
    | intro _ _ | dsimp only | split

theorem releaseDone_keeps {z : State} (s : State) (d : Dir) (g : Nat) (hz : Keeps z s) :
    Keeps z (releaseDone s d g) := by
  unfold releaseDone
  repeat' first
    | with_reducible assumption | with_reducible apply spareTaken_keeps | with_reducible apply setCtl_keeps
    | with_reducible apply sparingWidth_keeps | with_reducible apply quiet_keeps | with_reducible apply emit_keeps
    | with_reducible apply txTaken_keeps | with_reducible apply updLink_keeps | with_reducible apply flag_keeps
    | with_reducible apply setAck_keeps | simp only [↓Keeps.mk_iff] | with_reducible refine Keeps.ite ?_ ?_
    | intro _ _ | dsimp only | split

theorem laneMarker_keeps {z : State} (s : State) (g l : Nat) (got : Option (Int × BitVec 32)) (hz : Keeps z s) :
    Keeps z (laneMarker s g l got) := by
  unfold laneMarker
  repeat' first
    | with_reducible assumption | with_reducible apply updLink_keeps | with_reducible apply put_keeps
    | with_reducible apply laneLocked_keeps | with_reducible apply flag_keeps | with_reducible apply markerLost_keeps
    | simp only [↓Keeps.mk_iff] | with_reducible refine Keeps.ite ?_ ?_ | intro _ _ | dsimp only | split

theorem fieldSeen_keeps {z : State} (s : State) (g c : Nat) (hz : Keeps z s) : Keeps z (fieldSeen s g c) := by
  unfold fieldSeen
  repeat' first
    | with_reducible assumption | with_reducible apply shadowReq_keeps | with_reducible apply shadowAck_keeps
    | with_reducible apply switchDone_keeps | with_reducible apply eidleSeen_keeps
    | with_reducible refine Keeps.ite ?_ ?_ | dsimp only | split

theorem markersSeen_keeps {z : State} (s : State) (marks : List MarkIn) (hz : Keeps z s) :
    Keeps z (markersSeen s marks) := by
  unfold markersSeen
  repeat' first
    | with_reducible assumption | with_reducible apply laneMarker_keeps | with_reducible apply fieldSeen_keeps
    | with_reducible refine Keeps.ite ?_ ?_ | with_reducible refine Keeps.foldl _ _ ?_ ?_ | intro _ _ _ | intro _ _
    | dsimp only | split

theorem flitIn_keeps {z : State} (s : State) (sym : BitVec 1920) (marks : List MarkIn) (hz : Keeps z s) :
    Keeps z (flitIn s sym marks) := by
  unfold flitIn
  repeat' first
    | with_reducible assumption | with_reducible apply markersSeen_keeps | with_reducible apply flitReceive_keeps
    | with_reducible refine Keeps.ite ?_ ?_ | dsimp only | split

theorem marginDone_keeps {z : State} (s : State) (g l : Nat) (errors : Word) (hz : Keeps z s) :
    Keeps z (marginDone s g l errors) := by
  unfold marginDone
  repeat' first
    | with_reducible assumption | with_reducible apply wr_keeps | with_reducible apply flag_keeps
    | with_reducible apply updLink_keeps | simp only [↓Keeps.mk_iff] | with_reducible refine Keeps.ite ?_ ?_
    | intro _ _ | dsimp only | split

theorem eyeUpdate_keeps {z : State} (s : State) (g l : Nat) (eye : BitVec 30) (a : Adapt) (hz : Keeps z s) :
    Keeps z (eyeUpdate s g l eye a) := by
  unfold eyeUpdate
  repeat' first
    | with_reducible assumption | with_reducible apply wr_keeps | with_reducible apply takeAdapt_keeps
    | with_reducible refine Keeps.ite ?_ ?_ | dsimp only | split

theorem raiseLink_keeps {z : State} (s : State) (hz : Keeps z s) : Keeps z (raiseLink s) := by
  unfold raiseLink
  repeat' first
    | with_reducible assumption
    | with_reducible apply queueEvent_keeps
    | with_reducible refine Keeps.takeFree _ ?_
    | simp only [↓Keeps.mk_iff]
    | with_reducible refine Keeps.ite ?_ ?_
    | with_reducible refine Keeps.foldl _ _ ?_ ?_
    | with_reducible refine Keeps.foldlSnd _ _ ?_ ?_
    | intro _ _ _
    | intro _ _
    | dsimp only
    | split

theorem afterLink_keeps {z : State} (s : State) (hz : Keeps z s) : Keeps z (afterLink s) := by
  unfold afterLink
  repeat' first
    | with_reducible assumption | with_reducible apply raiseLink_keeps | with_reducible apply refCheck_keeps
    | with_reducible apply lanesBack_keeps | with_reducible apply linkReady_keeps | with_reducible apply settle_keeps
    | dsimp only

theorem afterUnit_keeps {z : State} (s : State) (hz : Keeps z s) : Keeps z (afterUnit s) := by
  unfold afterUnit
  repeat' first
    | with_reducible assumption | with_reducible apply sliceFence_keeps | with_reducible apply sliceNext_keeps
    | with_reducible apply settle_keeps | dsimp only

theorem afterFault_keeps {z : State} (old s : State) (hz : Keeps z s) : Keeps z (afterFault old s) := by
  unfold afterFault
  repeat' first
    | with_reducible assumption | with_reducible apply perfNma_keeps | with_reducible apply runResets_keeps
    | with_reducible apply settle_keeps | with_reducible apply faultReset_keeps
    | with_reducible refine Keeps.ite ?_ ?_ | dsimp only | split

theorem afterMove_keeps {z : State} (old s : State) (hz : Keeps z s) : Keeps z (afterMove old s) := by
  unfold afterMove
  repeat' first
    | with_reducible assumption | with_reducible apply settle_keeps | with_reducible refine Keeps.ite ?_ ?_
    | dsimp only | split

theorem afterFlags_keeps {z : State} (old s : State) (hz : Keeps z s) : Keeps z (afterFlags old s) := by
  unfold afterFlags
  repeat' first
    | with_reducible assumption | with_reducible apply settle_keeps | with_reducible refine Keeps.ite ?_ ?_
    | dsimp only | split

theorem afterWrite_keeps {z : State} (s : State) (pg : Nat) (hz : Keeps z s) : Keeps z (afterWrite s pg) := by
  unfold afterWrite
  repeat' first
    | with_reducible assumption | with_reducible apply afterLink_keeps | with_reducible apply refCheck_keeps
    | with_reducible apply afterUnit_keeps | with_reducible apply settle_keeps | with_reducible refine Keeps.ite ?_ ?_
    | dsimp only | split

theorem writeAt_keeps {z : State} (s : State) (path : Path) (a be : Nat) (v : Word) (hz : Keeps z s) :
    Keeps z (writeAt s path a be v) := by
  unfold writeAt
  repeat' first
    | with_reducible assumption | with_reducible apply busWrite_keeps | with_reducible apply afterWrite_keeps
    | dsimp only

theorem regCmd_keeps {z : State} (s : State) (path : Path) (a : Nat) (v : Word) (hz : Keeps z s) :
    Keeps z (regCmd s path a v) := by
  unfold regCmd
  repeat' first
    | with_reducible assumption | with_reducible apply writeAt_keeps | dsimp only

theorem regSet_keeps {z : State} (s : State) (w : RegWrite) (a : Nat) (f : Fld) (hz : Keeps z s) :
    Keeps z (regSet s w a f) := by
  unfold regSet
  repeat' first
    | with_reducible assumption | with_reducible apply regCmd_keeps | dsimp only

theorem cfgReads_keeps {z : State} (s : State) (a n : Nat) (hz : Keeps z s) : Keeps z (cfgReads s a n).1 := by
  induction n with
  | zero => exact hz
  | succ n ih => exact busRead_keeps _ _ _ ih

theorem cfgWrites_keeps {z : State} (s : State) (a : Nat) (v : Nat → Word) (n : Nat) (hz : Keeps z s) :
    Keeps z (cfgWrites s a v n).1 := by
  induction n with
  | zero => exact hz
  | succ n ih => exact afterWrite_keeps _ _ (busWrite_keeps _ _ _ _ _ ih)

theorem cfgDenied_keeps {z : State} (s : State) (r : Req) (hz : Keeps z s) : Keeps z (cfgDenied s r) := by
  unfold cfgDenied
  repeat' first
    | with_reducible assumption | with_reducible apply inc_keeps | with_reducible apply answer_keeps
    | with_reducible refine Keeps.ite ?_ ?_ | dsimp only | split

theorem cfgReq_keeps {z : State} (s : State) (opc tag : Nat) (hz : Keeps z s) : Keeps z (cfgReq s opc tag) := by
  unfold cfgReq
  repeat' first
    | with_reducible assumption | with_reducible apply answer_keeps | with_reducible apply cfgDenied_keeps
    | with_reducible apply cfgReads_keeps | with_reducible apply cfgWrites_keeps
    | with_reducible refine Keeps.ite ?_ ?_ | intro _ _ | dsimp only | split

end State

end Sys2Proof.Machine
end

