-- ==== Sys2Proof/Laws/KeepsExec.lean ====
section
/-! SUPPORT. What every operation of the stack keeps: the operations beside the meanings, and the idle step. -/

namespace Sys2Proof.Machine

namespace State

theorem holdExpires_keeps {z : State} (s : State) (hz : Keeps z s) : Keeps z (holdExpires s) := by
  unfold holdExpires
  repeat' first
    | with_reducible assumption | with_reducible apply updLink_keeps | simp only [↓Keeps.mk_iff] | intro _ _
    | dsimp only

theorem stallExpires_keeps {z : State} (s : State) (hz : Keeps z s) : Keeps z (stallExpires s) := by
  unfold stallExpires
  repeat' first
    | with_reducible assumption | with_reducible apply enterRecover_keeps | with_reducible refine Keeps.ite ?_ ?_
    | dsimp only | split

theorem wdbTake_keeps {z : State} (s : State) (li : Nat) (hz : Keeps z s) : Keeps z (wdbTake s li) := by
  unfold wdbTake
  repeat' first
    | with_reducible assumption | simp only [↓Keeps.mk_iff] | intro _ _ | dsimp only

theorem drainToDram_keeps {z : State} (s : State) (li : Nat) (l : Line) (hz : Keeps z s) :
    Keeps z (drainToDram s li l) := by
  unfold drainToDram
  repeat' first
    | with_reducible assumption | with_reducible apply wdbTake_keeps | with_reducible apply sendWrite_keeps
    | with_reducible refine Keeps.ite ?_ ?_ | dsimp only | split

theorem drainScanned_keeps {z : State} (s : State) (li : Nat) (l : Line) (hz : Keeps z s) :
    Keeps z (drainScanned s li l) := by
  unfold drainScanned
  repeat' first
    | with_reducible assumption | with_reducible apply drainToDram_keeps | with_reducible apply chargeBg_keeps
    | with_reducible refine Keeps.ite ?_ ?_ | dsimp only | split

theorem countDrain_keeps {z : State} (s : State) (li : Nat) (hz : Keeps z s) : Keeps z (countDrain s li) := by
  unfold countDrain
  repeat' first
    | with_reducible assumption | with_reducible apply inc64_keeps | with_reducible refine Keeps.ite ?_ ?_
    | dsimp only | split

theorem writeDrain_keeps {z : State} (s : State) (li : Nat) (m : LookupIn) (hz : Keeps z s) :
    Keeps z (writeDrain s li m) := by
  unfold writeDrain
  repeat' first
    | with_reducible assumption | with_reducible apply lostEntries_keeps | with_reducible apply drainToDram_keeps
    | with_reducible apply tagLookups_keeps | with_reducible apply drainScanned_keeps
    | with_reducible apply countDrain_keeps | with_reducible apply drainToCache_keeps
    | with_reducible apply wdbTake_keeps | with_reducible apply closeChecks_keeps
    | with_reducible refine Keeps.ite ?_ ?_ | dsimp only | split

theorem bgClean_keeps {z : State} (s : State) (k : Nat) (go : State → Nat → State) (hz : Keeps z s)
    (hg : ∀ t n, Keeps z t → Keeps z (go t n)) : Keeps z (bgClean s k go) := by
  unfold bgClean
  dsimp only
  split
  · exact hg _ _ hz
  · split
    · exact hz
    · split
      · exact chargeBg_keeps _ _ (hg _ _ hz)
      · exact hg _ _ hz

theorem flushQuad_keeps {z : State} (s : State) (m : LookupIn) (q : Nat) (hz : Keeps z s) :
    Keeps z (flushQuad s m q) := by
  unfold flushQuad
  repeat' first
    | with_reducible assumption | with_reducible apply checkTags_keeps | with_reducible apply bgClean_keeps
    | with_reducible apply cleanWay_keeps | with_reducible apply flushWay_keeps | with_reducible apply flushEnd_keeps
    | simp only [↓Keeps.mk_iff] | with_reducible refine Keeps.ite ?_ ?_ | with_reducible refine Keeps.foldl _ _ ?_ ?_
    | intro _ _ _ | intro _ _ | dsimp only | split

theorem bgWriteback_keeps {z : State} (s : State) (m : LookupIn) (q : Nat) (hz : Keeps z s) :
    Keeps z (bgWriteback s m q) := by
  unfold bgWriteback
  repeat' first
    | with_reducible assumption | with_reducible apply bgClean_keeps | with_reducible apply cleanWay_keeps
    | simp only [↓Keeps.mk_iff] | with_reducible refine Keeps.ite ?_ ?_ | intro _ _ | dsimp only | split

theorem bgDown_keeps {z : State} (m : LookupIn) (q n : Nat) (s : State) (hz : Keeps z s) : Keeps z (bgDown m q n s) := by
  induction n generalizing s with
  | zero => exact hz
  | succ n ih =>
    unfold bgDown
    dsimp only
    split
    · exact ih _ (bgWriteback_keeps s m q hz)
    · exact bgWriteback_keeps s m q hz

theorem nocacheFlush_keeps {z : State} (s : State) (m : LookupIn) (hz : Keeps z s) : Keeps z (nocacheFlush s m) := by
  unfold nocacheFlush
  repeat' first
    | with_reducible assumption | with_reducible apply tagLookups_keeps | with_reducible apply bgClean_keeps
    | with_reducible apply flushWay_keeps | simp only [↓Keeps.mk_iff] | with_reducible refine Keeps.ite ?_ ?_
    | with_reducible refine Keeps.foldl _ _ ?_ ?_ | intro _ _ _ | intro _ _ | dsimp only | split

theorem prefetchOne_keeps {z : State} (s : State) (m : LookupIn) (hz : Keeps z s) : Keeps z (prefetchOne s m) := by
  unfold prefetchOne
  repeat' first
    | with_reducible assumption | with_reducible apply tagLookups_keeps | with_reducible apply fillSector_keeps
    | with_reducible apply chargeBg_keeps | with_reducible refine allocate_keeps _ _ _ _ ?_ (_, _) (by assumption)
    | with_reducible apply inc_keeps | simp only [↓Keeps.mk_iff] | with_reducible refine Keeps.ite ?_ ?_ | dsimp only
    | split

theorem bgWork_keeps {z : State} (s : State) (q : Nat) (m : LookupIn) (hz : Keeps z s) : Keeps z (bgWork s q m) := by
  have h := nocacheFlush_keeps _ m (bgDown_keeps m q (((s.runFills m).flushQuad m q).cache.order.length + 1) _
    (flushQuad_keeps _ m q (runFills_keeps s m hz)))
  unfold bgWork
  dsimp only
  split
  · exact closeChecks_keeps _ h
  · exact closeChecks_keeps _ (prefetchOne_keeps _ m h)

theorem scheduleHeld_keeps {z : State} (s : State) (c p : Nat) (bad : Bool) (hz : Keeps z s) :
    Keeps z (scheduleHeld s c p bad) := by
  unfold scheduleHeld
  repeat' first
    | with_reducible assumption | with_reducible apply dramSchedule_keeps | with_reducible apply setPch_keeps
    | simp only [↓Keeps.mk_iff] | with_reducible refine Keeps.ite ?_ ?_ | intro _ _ | dsimp only | split

theorem schedule_keeps {z : State} (s : State) (c p : Nat) (bad : Bool) (hz : Keeps z s) :
    Keeps z (schedule s c p bad) := by
  unfold schedule
  repeat' first
    | with_reducible assumption | with_reducible apply scheduleHeld_keeps | with_reducible refine Keeps.ite ?_ ?_
    | dsimp only | split

theorem zeroEnd_keeps {z : State} (s : State) (f : Nat) (hz : Keeps z s) : Keeps z (zeroEnd s f) := by
  unfold zeroEnd
  repeat' first
    | with_reducible assumption | with_reducible apply zeroDone_keeps | with_reducible apply keelRelocate_keeps
    | with_reducible refine Keeps.ite ?_ ?_ | dsimp only | split

theorem checkpointDue_keeps {z : State} (s : State) (hz : Keeps z s) : Keeps z (checkpointDue s) := by
  unfold checkpointDue
  repeat' first
    | with_reducible assumption | with_reducible apply ckptStart_keeps | with_reducible refine Keeps.ite ?_ ?_
    | dsimp only | split

theorem checkpointEnd_keeps {z : State} (s : State) (hz : Keeps z s) : Keeps z (checkpointEnd s) := by
  unfold checkpointEnd
  repeat' first
    | with_reducible assumption | with_reducible apply checkpoint_keeps | with_reducible refine Keeps.ite ?_ ?_
    | dsimp only | split

theorem afterClock_keeps {z : State} (old s : State) (c : Nat) (hz : Keeps z s) : Keeps z (afterClock old s c) := by
  unfold afterClock
  repeat' first
    | with_reducible assumption | with_reducible apply remapNext_keeps | with_reducible apply remapFailed_keeps
    | with_reducible apply settle_keeps | with_reducible refine Keeps.ite ?_ ?_ | dsimp only | split

theorem correctionClock_keeps {z : State} (s : State) (c p : Nat) (hz : Keeps z s) :
    Keeps z (correctionClock s c p) := by
  unfold correctionClock
  repeat' first
    | with_reducible assumption | with_reducible apply schedule_keeps | with_reducible refine Keeps.ite ?_ ?_
    | dsimp only | split

theorem afterWork_keeps {z : State} (old s : State) (hz : Keeps z s) : Keeps z (afterWork old s) := by
  unfold afterWork
  repeat' first
    | with_reducible assumption | with_reducible apply afterUnit_keeps | with_reducible refine Keeps.ite ?_ ?_
    | intro _ _ | dsimp only | split

theorem spareUp_keeps {z : State} (s : State) (engine : Bool) (u : Nat) (hz : Keeps z s) :
    Keeps z (spareUp s engine u) := by
  unfold spareUp
  repeat' first
    | with_reducible assumption | with_reducible apply engPowerUp_keeps | with_reducible apply afterUnit_keeps
    | simp only [↓Keeps.mk_iff] | with_reducible refine Keeps.ite ?_ ?_ | dsimp only | split

theorem pinGlitch_keeps {z : State} (s : State) (p : Nat) (hz : Keeps z s) : Keeps z (pinGlitch s p) := by
  unfold pinGlitch
  repeat' first
    | with_reducible assumption | with_reducible apply inc_keeps | with_reducible refine Keeps.ite ?_ ?_ | dsimp only
    | split

theorem houseRound_keeps {z : State} (s : State) (codes : List (BitVec 12)) (hz : Keeps z s) :
    Keeps z (houseRound s codes) := by
  unfold houseRound
  repeat' first
    | with_reducible assumption | with_reducible apply adcCorrect_keeps | with_reducible apply thermRound_keeps
    | with_reducible apply wearRound_keeps | with_reducible apply otpRound_keeps
    | with_reducible refine Keeps.ite ?_ ?_ | dsimp only | split

theorem vddHeld_keeps {z : State} (s : State) (hz : Keeps z s) : Keeps z (vddHeld s) := by
  unfold vddHeld
  repeat' first
    | with_reducible assumption | with_reducible apply flag_keeps | dsimp only

theorem saveWrite_keeps {z : State} (s : State) (w : RegWrite) (failed : Bool) (hz : Keeps z s) :
    Keeps z (saveWrite s w failed) := by
  unfold saveWrite
  repeat' first
    | with_reducible assumption | with_reducible apply regSet_keeps | with_reducible apply regCmd_keeps
    | with_reducible apply wearSave_keeps | with_reducible refine Keeps.ite ?_ ?_ | dsimp only | split

theorem progCmd_keeps {z : State} (s : State) (path : Path) (key : BitVec 16) (f : Fld) (hz : Keeps z s) :
    Keeps z (progCmd s path key f) := by
  unfold progCmd
  repeat' first
    | with_reducible assumption | with_reducible apply regCmd_keeps | dsimp only

theorem aliasCmd_keeps {z : State} (s : State) (addr : BitVec 22) (k : Nat) (be : BitVec 4) (w : RegWrite) (hz : Keeps z s) :
    Keeps z (aliasCmd s addr k be w) := by
  unfold aliasCmd
  repeat' first
    | with_reducible assumption | with_reducible apply writeAt_keeps | dsimp only

theorem readCmd_keeps {z : State} (s : State) (path : Path) (addr : BitVec 22) (hz : Keeps z s) :
    Keeps z (readCmd s path addr) := by
  unfold readCmd
  repeat' first
    | with_reducible assumption | with_reducible apply busRead_keeps | with_reducible apply setOut_keeps | dsimp only

theorem mbCmd_keeps {z : State} (s : State) (path : Path) (ch op : Nat) (hz : Keeps z s) :
    Keeps z (mbCmd s path ch op) := by
  unfold mbCmd
  repeat' first
    | with_reducible assumption | with_reducible apply regCmd_keeps | dsimp only

end State

theorem State.idle_keeps {z : State} (s : State) (hz : Keeps z s) : Keeps z (State.idle s) := by
  unfold State.idle
  repeat' first
    | with_reducible assumption | with_reducible apply alertTick_keeps | with_reducible apply gatesClose_keeps
    | with_reducible apply hwGatesClose_keeps | with_reducible apply perfTick_keeps
    | with_reducible apply raisePrio_keeps | simp only [↓Keeps.mk_iff] | with_reducible refine Keeps.ite ?_ ?_
    | dsimp only | split

end Sys2Proof.Machine
end

