-- ==== Sys2Proof/Tests/Slice0.lean ====
section
/-! SUPPORT. Tests: ill-formed commands that WellFormed refuses, values that the manual's worked examples give, and for
each statement the witness of its hypotheses: for every clause a state and operands that meet them all. -/

namespace Sys2Proof.Tests
open Sys2Proof Sys2Proof.Machine Sys2Proof.Safety Sys2Proof.Machine.State
set_option Elab.async false
set_option maxRecDepth 1000000

/-! ### States -/

/-- Boot complete, on the crystal, link ACTIVE, DRAM up, nothing waiting. -/
def ready : State :=
  let s := State.reset
  let s := { s with clk := { s.clk with dramInit := true, vaux := true, perstN := false } }
  let s := s.put R.CLK_BOOT_STAT F.CLK_BOOT_STAT_STEP 13
  let s := s.flag R.CLK_CLK_STAT F.CLK_CLK_STAT_XO_OK true
  let s := s.put R.CLK_CLK_STAT F.CLK_CLK_STAT_REF_SRC 1
  let s := s.put R.CLK_CLK_STAT F.CLK_CLK_STAT_PLL_LOCK 0x3F
  let s := s.put R.LINK_LL_STAT F.LINK_LL_STAT_LINK_STATE 7
  { s with place := { s.place with laid := true }, link := { s.link with trained := true }, mgmt := { s.mgmt with memEn := true } }
/-- A page answers. -/
def openPage (s : State) (pg : Nat) : State := s.wr (pgStat pg) 1
/-- At boot step n. -/
def atStep (s : State) (n : Nat) : State := s.put R.CLK_BOOT_STAT F.CLK_BOOT_STAT_STEP n
/-- With the link in a training state. -/
def inLink (s : State) (n : Nat) : State := s.put R.LINK_LL_STAT F.LINK_LL_STAT_LINK_STATE n
def bootIn : BootIn := { straps := 9, railsOut := [], otp := [], secBistOk := true, flashId := 0, cfgCap := none, cfgWrites := [], tsv := [], diesAbsent := [], dieIds := [], bist := [] }
/-- A receive group's sparing in a phase, of a lane. -/
def sparing (s : State) (g p l : Nat) : State := (s.setPhase g p).put (R.RXG_SPARE_STAT g) F.RXG_SPARE_STAT_LANE l
/-- A transmit group that shadows a lane. -/
def shadowing (s : State) (g l : Nat) (sw : Bool) : State := { s with link := { s.link with shadowTx := [(g, some ⟨l, sw⟩)] } }
def judge : State := (ready.flag R.CLK_CLK_STAT F.CLK_CLK_STAT_XO_OK false).put R.CLK_CLK_STAT F.CLK_CLK_STAT_XO_GOOD 0
def monLink : State := (ready.setLoopTimed true).flag R.CLK_MON_CTL F.CLK_MON_CTL_LINK_MON_EN true
def ctl (kind : Nat) (seq : BitVec 12) : Ctl0 := { kind := kind, llInit := false, seq := seq, ackType := 0, ackSeq := 0, wStep := 0, wCount := 0, wReq := none, map := 0, cred := 0 }
def updL (s : State) (f : LinkState → LinkState) : State := { s with link := f s.link }
/-- With lane group 0 active and this flit due next. -/
def onLane (f : Nat) (s : State) : State :=
  updL (s.put R.LINK_WIDTH_STAT F.LINK_WIDTH_STAT_RX_GROUPS 1) fun l => { l with rxFlit := f }
/-- The symbols of flits on the lanes of `onLane 1`, scrambled from registers of 0: null, sequenced and bad ones. -/
def flit05 : BitVec 1920 := BitVec.ofNat 1920
  (0x500000000000000000000000215950000000000000000000000000000000000000000000000000000000000000f00 * 2 ^ 1536
    + 0x1000000000000073fff0000000100000000000000004000000005250000000000008040400000001400000000 * 2 ^ 1152
    + 0x20000000000000854540000000000000000000000000000000000000000000000000000000000006c000000010e0000 * 2 ^ 768
    + 0x3cacac000000050000000000000000000000021595000000000000000000000000a000000002160000000000 * 2 ^ 384
    + 0x50a0a0000000140000000002000000000000085454000000000000000000008ba1ff07d22abd13aa6c21539bf3be0d)
def flit15 : BitVec 1920 := BitVec.ofNat 1920
  (0x40050000000000000000000000e91e8e0000000000000000000000000000000000000000000000000000000000c00f00 * 2 ^ 1536
    + 0x100010000000000006f27d70000100100000000000000004000003a07230000010000004080800000001400000300 * 2 ^ 1152
    + 0x2000000000000a478380000000000000000000000000000000000000000070000000000000000006c00000b010f0000 * 2 ^ 768
    + 0x2c7cbc000040050000000000000000000000e91e8e000008000000000000000000a000001803150000010000 * 2 ^ 384
    + 0x609090000000140000030002000000000000a4783800000c00000000000000679d355e976898f5bb44bb74fe57f32d)
def flit1F : BitVec 1920 := BitVec.ofNat 1920
  (0x4aaa00000000000000000000001a005a0000000000000000000000000000000000000000000100000000000000dbab00 * 2 ^ 1536
    + 0x2b00eb0000122a0000000000000080800000060016000001020000800080000028a800000000 * 2 ^ 1152
    + 0x10000000000006800680000000000000000000000000000000000000000070c00000000000000cc0c00000100060000 * 2 ^ 768
    + 0xc000c00004aaa00000000000000000000001a005a00000910000000000000001010000003000b0000010200 * 2 ^ 384
    + 0x100010000028a8000000000100000000000068006800000d1a00000000000011f12d24626454a54064bfe63041ddd0)
def flit35 : BitVec 1920 := BitVec.ofNat 1920
  (0x80050000000000000000000000d87f280000000000000000000000000000000000000000010000000000000000c00f00 * 2 ^ 1536
    + 0x100000000000000002c946c000020010000000000000000400000361f0a00000200000000c0000000001400000301 * 2 ^ 1152
    + 0x60fca000000000000000000000000000000000000000000f0000000000000000006c00000905030000 * 2 ^ 768
    + 0x30a030000080050000000000000000000000d87f28000014000000000000000000a000001f0e040000020000 * 2 ^ 384
    + 0x40b04000000014000003010000000000000060fca000001c00000000000000f9211e039e2993bdcf0a4cf3346bc8d4)
def flitBadA : BitVec 1920 := BitVec.ofNat 1920
  (0x5917960000000000000000000000000000000000000000000000000000000000000000 * 2 ^ 1536
    + 0x1000000000000ef38fb00000000000000000000000000000016052500000000000040c0800000000000000100 * 2 ^ 1152
    + 0x2000000000000645c5800000000000000000000000000000000000000000000000000000000000000000006010e0000 * 2 ^ 768
    + 0x2c908c0000000000000000000000000000005917960000000000000000000000000000000b02160000000000 * 2 ^ 384
    + 0x60f0d0000000000000010002000000000000645c5800000000000001030204dcf1621023d56c881d6c90feb9d3f664)
def flitBadB : BitVec 1920 := BitVec.ofNat 1920
  (0x12e097ce944911b0cf2413db57323342e)
/-- A request header. -/
def hdr (opc tc mid tag len arg addr : Nat) : Word64 := BitVec.ofNat 64 (opc * 2^58 + tc * 2^55 + mid * 2^49 + tag * 2^37 + len * 2^35 + arg * 2^31 + addr)
def visible (s : State) : State := s.wr R.XACT_VIS_LIMIT 0x40000000
def rq (id : Nat) (h : Word64) : Req := { id := id, header := h }
/-- With these requests in the queues. -/
def reqs (l : List Req) : State := let s := visible ready; { s with xact := { s.xact with reqs := l } }
def noErr : LookupIn := ⟨[], [], [], []⟩
def parcelAt (s : State) (n : Nat) (w : Word) : State := { s with place := { s.place with table := [(n, w)] } }
def withWdb (s : State) (li : Nat) (l : Line) : State := { s with wdb := [⟨li + 1, ⟨9, 3⟩, false⟩, ⟨li, l, false⟩] }
/-- With a transaction at the head of class 3. -/
def arrived (i : RxItem) : State := let s := visible ready; { s with link := { s.link with rx := [(3, [i])] } }
def item (h : Word64) : RxItem := { header := h, ext := none, data := [], left := 0, half := true, num := 40 }
/-- The data slots of an atomic request: A, B and the offset. -/
def atomData (a b o : Nat) : List Slot := lineSlots (BitVec.ofNat 512 (a + b * 2^64 + o * 2^128))
def desc (d0 d1 d2 d3 d4 : Nat) : BitVec 384 := BitVec.ofNat 384 (d0 * 2^256 + d1 * 2^192 + d2 * 2^128 + d3 * 2^64 + d4)
def allDies (s : State) : State := (List.range 16).foldl (fun t d => t.flag (R.DDIE_DIE_STAT d) F.DDIE_DIE_STAT_PRESENT true) s
def noBridle (s : State) : State := { s with bridle := { s.bridle with window := some 0 } }
def cfgOn (s : State) : State := ((s.flag R.XACT_XACT_CTL F.XACT_XACT_CTL_CFG_EN true).wr R.XACT_CFG_MID_EN_LO 0xFFFFFFFF)
def mig0 (ph : MigPhase) (evac : Bool) (dirty pass : List Nat) : Mig := ⟨5, 5, 100000, evac, ph, dirty, 0, 4, 8, 2000, pass, false⟩
/-- A migration of parcel 5 in slot k. -/
def moving (k : Nat) (m : Mig) (w : Word) : State :=
  let s := allDies ready
  let s := { s with place := { s.place with mig := [(k, some m)], table := [(5, w)] } }
  (s.dramWrite 5 3 ⟨0x1234, 2⟩).dramWrite 5 1023 ⟨0x777, 1⟩
def plc (s : State) (f : PlaceState → PlaceState) : State := { s with place := f s.place }
/-- Way `w` of line `li`'s set holds its sector with these masks, in the quadrant of its frame. -/
def inCache (s : State) (li w v d : Nat) (l : Line) : State :=
  let s := s.flag R.CACHE_CACHE_STAT F.CACHE_CACHE_STAT_ENABLED true
  let k := wayKey (s.liQuad li) (cSet li) w
  (s.setData k (li % 4) l).setTag k (mkTag (cTag li) v d 1)
/-- With room in every budget of the epoch. -/
def noBg (s : State) : State := s.put R.BRIDLE_DELIV_DRAM F.BRIDLE_DELIV_DRAM_RATE 500
/-- A flush has gone through every quadrant but the one of line 70001, with ENABLE and background write-back off. -/
def flushing (j : FlushJob) (s : State) : State :=
  let s := (s.wr R.CACHE_CACHE_CTL 0).flag R.CACHE_CACHE_STAT F.CACHE_CACHE_STAT_FLUSHING true
  { s with cache := { s.cache with job := some j, jobDone := [0, 1, 2, 3].filter (· != s.liQuad 70001) } }
def keyOf (s : State) (li w : Nat) : Nat := wayKey (s.liQuad li) (cSet li) w
def dq (w : Bool) (f o : Nat) : DReq := { write := w, f := f, o := o, line := ⟨0x1234, 3⟩, seq := 9, req := 7 }
/-- The pseudo-channel of a frame with this bank and these queues. -/
def chan (f : Nat) (b : BankSt) (g : PCh → PCh) : State :=
  ready.setPch (fPc f) (g (({} : PCh).setBank (fBankIx f) b))
/-- A request that waits for one line. -/
def reading (id : Nat) (h : Word64) : Req := { id := id, header := h, stage := .reading, lines := [none] }
/-- With a read in flight for it. -/
def inFlight (f o id : Nat) (scrub : Bool) (s : State) : State :=
  s.setPch (fPc f) { flight := [{ write := false, f := f, o := o, line := ⟨0x1234, 3⟩, req := id, scrub := scrub }, { write := false, f := 5, o := 9 }] }
def fl (f o id : Nat) (scrub : Bool) : DReq := { write := false, f := f, o := o, line := ⟨0x1234, 3⟩, req := id, scrub := scrub }
def good : BurstIn := ⟨none, 0⟩
def flips (n : Nat) : BurstIn := ⟨none, BitVec.ofNat 576 n⟩
/-- The controller that serves a channel swaps with a free one. -/
def swapping (a b : Nat) : State :=
  let s := { ready with ch := { ready.ch with swaps := [(a, b)] } }
  (s.flag (R.CHC_CHAN_MAP a) F.CHC_CHAN_MAP_SWAPPING true).wr (R.CHC_TIMING0 a) 0x12345678
def chf (s : State) (f : DramState → DramState) : State := { s with ch := f s.ch }
/-- A work on an engine in a state, with its WorkReq. -/
def engS (w : Work) (e st : Nat) : State :=
  let s := (allDies (reqs [rq 7 (hdr 7 3 5 4095 0 0 0)])).setEngState e st |>.flag (R.ENG_ENG_CTL e) F.ENG_ENG_CTL_EN true
  noBridle { s with eng := { s.eng with works := [w] } }
def errOf (s : State) (w : Work) : Nat × Nat × Int := (precheck w.d s.engRead s.engWriteFault).getD (0, 0, 0)
def fc (s : State) (f : FcolState → FcolState) : State := { s with fcol := f s.fcol }
/-- The OTP may be programmed. -/
def canProg (s : State) : State :=
  (s.put (R.PWR_RAIL_MON 6) F.PWR_RAIL_MON_MV 1800).flag R.THERM_THERM_STAT2 F.THERM_THERM_STAT2_MODEL_READY true
def th (s : State) (f : ThermState → ThermState) : State := { s with therm := f s.therm }
/-- The OTP may be programmed through PROG_CMD, in a lifecycle state. -/
def progS (life : Nat) : State := openPage ((canProg ready).put R.FUSE_LIFE_STAT F.FUSE_LIFE_STAT_STATE life) 6
def otp' (s : State) (f : OtpState → OtpState) : State := { s with otp := f s.otp }
def spdmS (attest : Bool) : State :=
  let s := (ready.flag R.MGMT_GONDOLA_STAT F.MGMT_GONDOLA_STAT_FW_RUNNING true).flag R.SEC_SEC_STAT F.SEC_SEC_STAT_ATTEST_EN attest
  { s with clk := { s.clk with perstN := false }, sec := { s.sec with secret := some 5 } }
def bi (s : State) (f : BistState → BistState) : State := { s with bist := f s.bist }
def calS (s : State) (f : CalState → CalState) : State := { s with cal := f s.cal }
/-- The rotation runs, at a slot. -/
def rotS (q slot : Nat) : State :=
  let s := (ready.flag R.BIST_BIST_CTL F.BIST_BIST_CTL_ROT_EN true).flag R.BIST_BIST_STAT F.BIST_BIST_STAT_BOOT_DONE true
  (s.put (R.BIST_ROT_STAT q) F.BIST_ROT_STAT_ENG_SLOT slot).put (R.BIST_ROT_STAT q) F.BIST_ROT_STAT_CTRL_SLOT slot
/-- A slice runs in place. -/
def testing (x : Slice) : State :=
  (bi ready fun b => { b with slice := some x }).flag (pgStat (if x.engine then engPg x.unit else chcPg x.unit)) pgUnderTest true
/-- Every engine of the quadrant can take work. -/
def enginesUp (s : State) (q : Nat) : State :=
  (List.range 9).foldl (fun t i => (t.setEngState (9 * q + i) 1).flag (R.ENG_ENG_CTL (9 * q + i)) F.ENG_ENG_CTL_EN true) s

/-- The Gondola is up and its firmware runs. -/
def gon : State := ready.flag R.MGMT_GONDOLA_STAT F.MGMT_GONDOLA_STAT_FW_RUNNING true |>.flag R.SPI_SPI_STAT F.SPI_SPI_STAT_PRESENT true
def mg (s : State) (f : MgmtState → MgmtState) : State := { s with mgmt := f s.mgmt }
def mrun (ch op : Nat) (s : State) : State := mg s fun m => { m with run := [(ch, some op)] }
def raw : State :=
  let s := mg gon fun m => { m with wren := true, flash := [(0x5fff, 1), (0x6000, 2), (0x7000, 3)] }
  openPage ((s.flag R.SPI_SPI_CTL F.SPI_SPI_CTL_HOST_RAW true).wr R.SPI_RAW_ADDR 0x6fff) 0x11
def rawv (op : Nat) : Word := F.SPI_RAW_CMD_OPCODE.set op (F.SPI_RAW_CMD_ADDR_EN.set 1 0)
/-- The window answers, parcel n in a state, its line 5 in the DRAM. -/
def winS (st n : Nat) : State :=
  let s := visible (allDies ready)
  let s := { s with clk := { s.clk with perstN := false }, place := { s.place with table := [(n, BitVec.ofNat 32 (st * 2 ^ 20) ||| mkEntry n st false false false false)] } }
  (s.flag R.PCIEM_WIN_CTL F.PCIEM_WIN_CTL_WIN_EN true).dramWrite n 5 ⟨0x123456789, 2⟩

/-! ### Well-formedness -/

/-- Page 0x3FD is not assigned, a misaligned register address, an address of an alias, a lane 12, a via 45 of the 40, a
CA via 16 of the 16, a swap across quadrants, too few housekeeping codes, a window access
past the end or too long. -/
theorem test_ill_formed_refused : ([
    .gateRequest .pcie 0x3FD true, .gateDenied 0x3FD, .gateOpen .pcie 0x3FD, .blockReset .pcie 0x3FD,
    .pgEnableWrite .pcie 0x3FD true, .levelChange 0x3FD 0, .registerWrite 0x2 15 ⟨.pcie, 0⟩, .aliasSet 0x440 15 ⟨.pcie, 0⟩,
    .aliasClear 0x440 15 ⟨.pcie, 0⟩, .aliasToggle 0x440 15 ⟨.pcie, 0⟩, .rlLowRead .pcie 0x441,
    .pairLowWrite 0x440 15 ⟨.pcie, 0⟩, .pairHighWrite 0x443 15 ⟨.pcie, 0⟩, .windowRead 0 0 noErr, .windowRead 0 4097 noErr,
    .windowRead 0x7FFFFFF 2 noErr, .windowWrite 0 (List.replicate 257 none) false noErr, .spareCmdStart .pcie 0 12,
    .shadowReq 0 10, .shadowAck 7 15, .spareViaCheck 0 false ⟨false, 45⟩ true, .spareViaCheck 0 true ⟨true, 16⟩ true,
    .controllerSwap 8 9, .controllerSwap 3 3, .housekeepingRound [0],
    .periodicTrainingDone 0 true ⟨[⟨false, 40⟩], false, [], []⟩, .periodicTrainingDone 0 true ⟨[], false, [], [0, 0, 0, 0, 0]⟩,
    .periodicTrainingDone 0 true ⟨[], false, [(58, 0)], []⟩,
    .bootStepComplete { bootIn with railsOut := [3, 3] }, .bootStepComplete { bootIn with diesAbsent := [1, 1] },
    .bootStepComplete { bootIn with tsv := [(0, true, ⟨[⟨true, 16⟩], false, [], []⟩)] }, .bootStepComplete { bootIn with cfgWrites := [(1, 0)] },
    .bootStepComplete { bootIn with bist := [.spareVia 0 true ⟨false, 40⟩] }] : List Instr).all (fun i => !i.wf) = true := by decide +kernel

/-- Their neighbours inside the ranges are well formed. -/
theorem test_well_formed_accepted : ([
    .gateRequest .pcie 0x117 true, .levelChange 0x009 31, .registerWrite 0x4C0 15 ⟨.pcie, 0⟩, .aliasSet 0x13C 15 ⟨.pcie, 0⟩,
    .windowRead 0x7FFF000 4096 noErr, .windowWrite 0x7FFFF00 (List.replicate 256 none) true noErr, .spareCmdStart .pcie 7 9,
    .spareViaCheck 31 true ⟨false, 39⟩ true, .spareViaCheck 31 true ⟨true, 15⟩ true, .controllerSwap 0 8,
    .housekeepingRound (List.replicate 112 0), .estimatorStep [⟨.laneUI .rx 7, 0xFFFFFFFF⟩], .bootStepComplete bootIn
    ] : List Instr).all Instr.wf = true := by decide +kernel

/-! ### Worked examples of the manual -/

/-- R98, R105: the request header of the 256-byte read and its response header, POISON with four RINFO fields. -/
theorem test_header_of_worked_example :
    hdr 1 2 5 0x1A3 2 0 0x01234560 = 0x050A347001234560 ∧ hOpc 0x050A347001234560 = 1 ∧ hTc 0x050A347001234560 = 2 ∧
      hMid 0x050A347001234560 = 5 ∧ hTag 0x050A347001234560 = 0x1A3 ∧ hLen 0x050A347001234560 = 2 ∧
      hArg 0x050A347001234560 = 0 ∧ hAddr 0x050A347001234560 = 0x01234560 ∧
      State.rspHeader { id := 0, header := 0x050A347001234560, status := 1, rinfo := 0x0002D4A5 } = 0x850A34708002D4A5 := by
  decide +kernel

/-- R167: the set, the tag, the channel and the quadrant of line 0x0123_4560 in its boot frame 0x48D1. -/
theorem test_cache_place_of_worked_example :
    cSet 0x01234560 = 0x107B ∧ cTag 0x01234560 = 0x0123 ∧ liParcel 0x01234560 = 0x48D1 ∧ fChan 0x48D1 = 17 ∧
      fQuad 0x48D1 = 2 ∧ sectorLine 0x107B 0x0123 3 = 0x01234563 := by decide +kernel

/-- R414: window offset 0x00D1_5800 with WIN_BASE 0x4800 names line 0x0123_4560. -/
theorem test_window_of_worked_example :
    (State.reset.put R.PCIEM_WIN_BASE F.PCIEM_WIN_BASE_PARCEL 0x4800).winLine 0x00D15800 = 0x01234560 := by decide +kernel

/-- R202: the home controllers of channels 13 and 21 are CHC[14] and CHC[23]. -/
theorem test_home_controllers : State.reset.ctrlOf 13 = some 14 ∧ State.reset.ctrlOf 21 = some 23 := by decide +kernel

/-- R413: a read of CHC[23].CHAN_MAP while the page does not answer, and of its header. -/
theorem test_gated_read_of_worked_example :
    (ready.busRead .pcie 0x117044).ok = false ∧ (ready.busRead .pcie 0x117044).val = 0xFFFFFFFF ∧
      (ready.busRead .pcie 0x117044).st.rd R.DEV_ACC_ERR = 0x117 + 0x011 * 2 ^ 10 + 2 * 2 ^ 21 ∧
      (ready.busRead .pcie 0x117010).ok = true := by decide +kernel

/-- R5: DEV.PG_VER of the VL16, stepping B1. -/
theorem test_version_word : (ready.busRead .pcie 0x4).val = 0x00011021 := by decide +kernel

/-! ### Witnesses of the statements' hypotheses, clause by clause -/

/-- A state whose dies are all present and whose pseudo-channels all have a command path can be read everywhere. -/
theorem readable_of {s : State} (h : s.spare.unreadable = [])
    (hd : (List.range 16).all (fun d => s.on (R.DDIE_DIE_STAT d) F.DDIE_DIE_STAT_PRESENT) = true) : Readable s := by
  intro f
  have := List.all_eq_true.mp hd (fDie f) (List.mem_range.mpr (by unfold fDie fSid fChan; omega))
  simp [State.unreadable, h, this]

theorem succ_ne (y : BitVec 64) : y + 1 ≠ y := by intro h; simp at h


theorem witness_PowerAndResets :
    (∃ (s : State), s.clk.vaux = false) ∧
    (∃ (s : State), s.clk.vaux = true ∧ s.clk.resetN = false ∧ s.clk.orderly = none ∧ (s.clk.dramInit = false ∨
    s.drogue = true ∨ s.tripped = true)) ∧
    (∃ (s : State), s.clk.vaux = true ∧ s.clk.resetN = false ∧ s.clk.orderly = none ∧ s.clk.dramInit = true ∧
    s.drogue = false ∧ s.tripped = false ∧ OnXo s) ∧
    (∃ (s : State), s.clk.vaux = true ∧ s.clk.resetN = true) ∧
    (∃ (s : State), s.clk.vaux = true ∧ s.clk.held = false ∧ s.bootStep = 13 ∧ s.xoOk = true) ∧
    (∃ (s : State) (path : Path), Open s path R.CLK_RST_CMD ∧ OnXo s ∧ s.clk.orderly = none) ∧
    (∃ (s : State) (path : Path), Open s path R.CLK_RST_CMD ∧ s.spare.outage = none) ∧
    (∃ (s : State) (path : Path) (key : BitVec 16), Open s path R.CLK_RST_CMD ∧ OnXo s ∧ key ≠ 0x0B7A) ∧
    (∃ (s : State) (n : Nat), s.clk.orderly = some n ∧ s.clk.dramInit = true ∧ s.drogue = false ∧ s.tripped = false
    ∧ s.dramHeld = false ∧ (n = 1 ∨ n = 2)) ∧
    (∃ (s : State) (n : Nat) (m : LookupIn), s.clk.orderly = some n ∧ s.clk.dramInit = true ∧ s.drogue = false ∧
    s.tripped = false ∧ s.dramHeld = false ∧ NoErr m ∧ s.eng.works = [] ∧ s.place.mig = [] ∧ s.place.repair = [] ∧
    s.cache = {} ∧ s.wdb = [] ∧ s.mirrorOk false = true) ∧
    (∃ (s : State) (n : Nat), s.clk.orderly = some n ∧ s.spare.outage = none ∧ (n = 1 ∨ n = 2)) :=
  ⟨⟨({State.reset with clk := {State.reset.clk with vaux := false}}), by decide +kernel⟩,
   ⟨({ready with clk := {ready.clk with dramInit := false}}), by decide +kernel⟩,
   ⟨ready, by unfold OnXo; decide +kernel⟩,
   ⟨({ready with clk := {ready.clk with resetN := true, held := true}}), by decide +kernel⟩,
   ⟨({ready with clk := {ready.clk with perstN := true}}), by decide +kernel⟩,
   ⟨(openPage ready 3), .pcie, by unfold Open OnXo; decide +kernel⟩,
   ⟨((openPage ready 3).wr (R.DEV_SCRATCH 0) 7), .gondola, by unfold Open; decide +kernel⟩,
   ⟨(openPage ready 3), .inband, 0x0B7B, by unfold Open OnXo; decide +kernel⟩,
   ⟨({ready with clk := {ready.clk with orderly := some 1}}), 1, by decide +kernel⟩,
   ⟨({ready with clk := {ready.clk with orderly := some 1}, place := {ready.place with table := [(3, 7)]}}.setMirror false true),
    1, noErr, by unfold NoErr; decide +kernel⟩,
   ⟨({ready with clk := {ready.clk with orderly := some 1}}), 1, by decide +kernel⟩⟩

theorem witness_CrystalAndMonitor :
    (∃ (s : State), s.inReset = false ∧ s.bootStep = 6 ∧ s.refSrc = 0) ∧
    (∃ (s : State) (n : BitVec 16), s.judging = true ∧ 48500 ≤ n.toNat ∧ n.toNat ≤ 51500 ∧ s.fld R.CLK_CLK_STAT
    F.CLK_CLK_STAT_XO_GOOD < 3) ∧
    (∃ (s : State) (n : BitVec 16), s.judging = true ∧ (n.toNat < 48500 ∨ 51500 < n.toNat)) ∧
    (∃ (s : State) (n : BitVec 16), s.judging = true ∧ 48500 ≤ n.toNat ∧ n.toNat ≤ 51500 ∧ s.fld R.CLK_CLK_STAT
    F.CLK_CLK_STAT_XO_GOOD = 3 ∧ s.drogue = false ∧ s.clk.perstN = true) ∧
    (∃ (s : State) (n : BitVec 16), s.inReset = false ∧ s.drogue = false ∧ s.xoOk = true ∧ s.monBad n.toNat = false) ∧
    (∃ (s : State) (n : BitVec 16), s.inReset = false ∧ s.drogue = false ∧ s.xoOk = true ∧ s.monBad n.toNat = true ∧
    s.clk.xoBad = 0) ∧
    (∃ (s : State) (n : BitVec 16), s.inReset = false ∧ s.drogue = false ∧ s.linkMonRuns = true ∧ s.monBad n.toNat =
    true ∧ s.clk.linkBad = 0) ∧
    (∃ (s : State), s.clk.ampOff = true) ∧
    (∃ (s : State), s.drogue = true) :=
  ⟨⟨((atStep ready 6).put R.CLK_CLK_STAT F.CLK_CLK_STAT_REF_SRC 0), by decide +kernel⟩,
   ⟨judge, 48500, by decide +kernel⟩,
   ⟨judge, 48499, by decide +kernel⟩,
   ⟨(({judge with clk := {judge.clk with perstN := true}}).put R.CLK_CLK_STAT F.CLK_CLK_STAT_XO_GOOD 3), 50000,
    by decide +kernel⟩,
   ⟨ready, 50, by decide +kernel⟩,
   ⟨ready, 0, by decide +kernel⟩,
   ⟨monLink, 0, by decide +kernel⟩,
   ⟨({ready with clk := {ready.clk with ampOff := true}}), by decide +kernel⟩,
   ⟨(ready.flag R.CLK_CLK_STAT F.CLK_CLK_STAT_DROGUE true), by decide +kernel⟩⟩

theorem witness_ReferencesAndMeasurement :
    (∃ (s : State) (w : RegWrite), Open s w.path R.CLK_CLK_CTL ∧ s.refPcie = false ∧ s.refclkPresent = true ∧
    s.drogue = false ∧ s.bootStep = 6 ∧ s.refSrc = 0 ∧ s.xoOk = false) ∧
    (∃ (s : State) (w : RegWrite), Open s w.path R.CLK_CLK_CTL ∧ OnXo s ∧ F.CLK_CLK_CTL_REF_PCIE.get w.value = 0) ∧
    (∃ (s : State) (p : Pll), s.pllLock (pllBit p) = true) ∧
    (∃ (s : State) (w : RegWrite), Open s w.path R.CLK_FMC_CTL ∧ OnXo s) ∧
    (∃ (s : State), s.clk.fmcBusy = true ∧ s.clockRuns (s.fld R.CLK_FMC_CTL F.CLK_FMC_CTL_REF_SEL) = true) ∧
    (∃ (s : State) (n : BitVec 23), s.inReset = false ∧ s.xoOk = true ∧ s.on R.CAL_TOSC_CTL F.CAL_TOSC_CTL_TRACK_EN
    = true ∧ 6 ≤ s.bootStep ∧ 3990000 ≤ n.toNat ∧ n.toNat ≤ 4010000) ∧
    (∃ (s : State), s.clk.vaux = true ∧ Calm s ∧ OnXo s ∧ s.clk.perstN = true) :=
  ⟨⟨(openPage (((atStep ready 6).put R.CLK_CLK_STAT F.CLK_CLK_STAT_REF_SRC 0).flag R.CLK_CLK_STAT F.CLK_CLK_STAT_XO_OK false |>.flag R.CLK_CLK_STAT F.CLK_CLK_STAT_REFCLK_PRESENT true) 3),
    ⟨.pcie, 0⟩, by unfold Open; decide +kernel⟩,
   ⟨(openPage ready 3), ⟨.pcie, 0x400⟩, by unfold Open OnXo; decide +kernel⟩,
   ⟨ready, .core, by decide +kernel⟩,
   ⟨(openPage ready 3), ⟨.pcie, 0⟩, by unfold Open OnXo; decide +kernel⟩,
   ⟨({ready with clk := {ready.clk with fmcBusy := true}}), by decide +kernel⟩,
   ⟨(ready.flag R.CAL_TOSC_CTL F.CAL_TOSC_CTL_TRACK_EN true), 3990000, by decide +kernel⟩,
   ⟨({ready with clk := {ready.clk with perstN := true}}), by unfold Calm OnXo; decide +kernel⟩⟩

theorem witness_GatesAndBlocks :
    (∃ (s : State) (path : Path) (pg : Nat), pg ∈ ([0x00A, 0x009, 0x016, 0x012, 0x011] : List Nat) ∧ Open s path
    (State.pgCtl pg) ∧ s.on (State.pgCtl pg) State.pgGateReq = false ∧ s.on (pgStat pg) State.pgInReset = false) ∧
    (∃ (s : State) (path : Path) (pg : Nat), pg ∈ ([0x00A, 0x009, 0x016, 0x012, 0x011] : List Nat) ∧ Open s path
    (State.pgCtl pg) ∧ s.on (State.pgCtl pg) State.pgGateReq = false) ∧
    (∃ (s : State) (pg : BitVec 10), s.clk.gateWait.contains pg.toNat = true ∧ s.on (pgStat pg.toNat)
    State.pgInReset = false) ∧
    (∃ (s : State) (pg : BitVec 10), s.on (pgStat pg.toNat) State.pgInReset = true) ∧
    (∃ (s : State) (pg : BitVec 10), s.clk.gateWait.contains pg.toNat = false ∧ s.on (pgStat pg.toNat)
    State.pgInReset = false ∧ s.hwGateReq pg.toNat = true ∧ s.clk.hwGates.contains pg.toNat = false ∧ s.clk.hwRetry
    = []) ∧
    (∃ (s : State) (path : Path) (pg : Nat), pg ∈ ([0x00A, 0x009, 0x016, 0x012, 0x011] : List Nat) ∧ Open s path
    (State.pgCtl pg) ∧ s.on (State.pgCtl pg) State.pgGateReq = true) ∧
    (∃ (s : State) (path : Path), Open s path (State.pgCtl 0x016)) ∧
    (∃ (s : State) (path : Path) (pg : Nat), pg ∈ ([0x00A, 0x009, 0x016, 0x012, 0x011] : List Nat) ∧ Open s path
    (State.pgCtl pg) ∧ s.on (State.pgCtl pg) State.pgGateReq = false) ∧
    (∃ (s : State) (path : Path) (e : Fin 36), Open s path (State.pgCtl (engPg e)) ∧ Calm s ∧ NoTest s ∧ s.on
    (State.pgCtl (engPg e)) State.pgGateReq = false) :=
  ⟨⟨(openPage ready 10), .pcie, 10, by unfold Open; decide +kernel⟩,
   ⟨(openPage ready 10), .pcie, 10, by unfold Open; decide +kernel⟩,
   ⟨(openPage ({ready with clk := {ready.clk with gateWait := [9, 16]}}) 16), 16, by decide +kernel⟩,
   ⟨(({ready with clk := {ready.clk with gateWait := [9, 16]}}).flag (pgStat 16) State.pgInReset true), 16,
    by decide +kernel⟩,
   ⟨((openPage ready 0x100).flag (pgStat 0x100) pgRetired true), 0x100, by decide +kernel⟩,
   ⟨((openPage ready 10).flag (State.pgCtl 10) State.pgGateReq true), .pcie, 10, by unfold Open; decide +kernel⟩,
   ⟨(openPage ready 0x016), .gondola, by unfold Open; decide +kernel⟩,
   ⟨(openPage ready 10), .pcie, 10, by unfold Open; decide +kernel⟩,
   ⟨(openPage ready 0x180), .pcie, 0, by unfold Open Calm NoTest; decide +kernel⟩⟩

theorem witness_BootSteps :
    (∃ (s : State), s.inReset = false ∧ s.drogue = false ∧ s.tripped = false ∧ s.stalled = false ∧ s.clk.orderly =
    none ∧ Calm s ∧ s.bootStep = 1) ∧
    (∃ (s : State) (b : BootIn), s.inReset = false ∧ s.drogue = false ∧ s.tripped = false ∧ s.stalled = false ∧
    s.clk.orderly = none ∧ Calm s ∧ s.bootStep = 3 ∧ b.railsOut = []) ∧
    (∃ (s : State) (b : BootIn) (r : Fin 7), s.inReset = false ∧ s.drogue = false ∧ s.tripped = false ∧ s.stalled =
    false ∧ s.clk.orderly = none ∧ Calm s ∧ s.bootStep = 3 ∧ r ∈ b.railsOut) ∧
    (∃ (s : State) (b : BootIn), s.inReset = false ∧ s.drogue = false ∧ s.tripped = false ∧ s.stalled = false ∧
    s.clk.orderly = none ∧ Calm s ∧ s.bootStep = 10 ∧ b.bist = []) ∧
    (∃ (s : State), s.stalled = true ∧ Calm s) ∧
    (∃ (s : State), s.inReset = false) ∧
    (∃ (s : State), s.clk.railWait = true ∧ s.bootStep = 3 ∧ s.inReset = false) :=
  ⟨⟨(atStep .reset 1), by unfold Calm; decide +kernel⟩,
   ⟨(atStep .reset 3), bootIn, by unfold Calm; decide +kernel⟩,
   ⟨(atStep .reset 3), {bootIn with railsOut := [2]}, 2, by unfold Calm; decide +kernel⟩,
   ⟨(atStep .reset 10), bootIn, by unfold Calm; decide +kernel⟩,
   ⟨((atStep .reset 5).stall), by unfold Calm; decide +kernel⟩,
   ⟨.reset, by decide +kernel⟩,
   ⟨({(atStep .reset 3) with clk := {(atStep .reset 3).clk with railWait := true}}), by decide +kernel⟩⟩

theorem witness_LinkTraining :
    (∃ (s : State), s.xoOk = true ∧ s.refSrc = 1 ∧ Calm s ∧ s.bootStep = 12 ∧ s.linkState = 0 ∧ s.drogue = false ∧
    s.linkHeld = false) ∧
    (∃ (s : State), OnXo s ∧ Calm s ∧ s.linkState = 2) ∧
    (∃ (s : State), OnXo s ∧ Calm s ∧ s.linkState = 5 ∧ s.paramDone = true ∧ s.on (R.TXG_GRP_CTL 0)
    F.TXG_GRP_CTL_LOCAL_TIMING = false) ∧
    (∃ (s : State), OnXo s ∧ Calm s ∧ s.linkState = 5 ∧ s.paramDone = false) ∧
    (∃ (s : State), OnXo s ∧ Calm s ∧ 2 ≤ s.linkState ∧ s.linkState ≤ 6 ∧ s.link.attempts < 3) ∧
    (∃ (s : State), OnXo s ∧ Calm s ∧ 2 ≤ s.linkState ∧ s.linkState ≤ 6 ∧ s.link.attempts = 3) ∧
    (∃ (s : State), OnXo s ∧ Calm s ∧ s.linkState = 8) ∧
    (∃ (s : State) (g : Fin 8) (l : Fin 10), OnXo s ∧ Calm s ∧ s.linkState ≠ 7 ∧ s.on (R.RXG_RXL_STAT g l)
    F.RXG_RXL_STAT_MARK_LOCK = true) ∧
    (∃ (s : State) (g : Fin 8) (l : Fin 10), OnXo s ∧ Calm s ∧ s.on (R.RXG_RXL_STAT g l) F.RXG_RXL_STAT_CDR_LOCK =
    true ∧ s.linkActive = true ∧ s.loopTimed = true ∧ s.link.ref = some (g.val, l.val)) ∧
    (∃ (s : State), OnXo s ∧ Calm s ∧ s.clk.holdover = true ∧ s.newRef = none) ∧
    (∃ (s : State) (r : Nat × Nat), OnXo s ∧ Calm s ∧ s.clk.holdover = true ∧ s.newRef = some r) :=
  ⟨⟨(inLink (atStep ready 12) 0), by unfold Calm; decide +kernel⟩,
   ⟨(inLink ready 2), by unfold Calm OnXo; decide +kernel⟩,
   ⟨(let s := (((inLink ready 5).setGrpState .rx 3 5)); {s with link := {s.link with paramSeen := [(3, 2)], hostParam := [(3, 1)]}}),
    by unfold Calm OnXo; decide +kernel⟩,
   ⟨(inLink ready 5), by unfold Calm OnXo; decide +kernel⟩,
   ⟨(inLink ready 2), by unfold Calm OnXo; decide +kernel⟩,
   ⟨(inLink {ready with link := {ready.link with attempts := 3}} 4), by unfold Calm OnXo; decide +kernel⟩,
   ⟨(inLink ready 8), by unfold Calm OnXo; decide +kernel⟩,
   ⟨((inLink ready 3).flag (R.RXG_RXL_STAT 7 9) F.RXG_RXL_STAT_MARK_LOCK true), 7, 9,
    by unfold Calm OnXo; decide +kernel⟩,
   ⟨(let s := (((ready.flag (R.RXG_RXL_STAT 7 9) F.RXG_RXL_STAT_CDR_LOCK true).setLoopTimed true).put R.LINK_WIDTH_STAT F.LINK_WIDTH_STAT_RX_GROUPS 255); {s with link := {s.link with ref := some (7,9)}}),
    7, 9, by unfold Calm OnXo; decide +kernel⟩,
   ⟨({(ready.setLoopTimed true) with clk := {ready.clk with holdover := true}}),
    by unfold Calm OnXo; decide +kernel⟩,
   ⟨(let s := ((((ready.setLoopTimed true).put R.LINK_WIDTH_STAT F.LINK_WIDTH_STAT_RX_GROUPS 255).flag (R.RXG_RXL_STAT 3 4) F.RXG_RXL_STAT_MARK_LOCK true).flag (R.RXG_RXL_STAT 3 4) F.RXG_RXL_STAT_CDR_LOCK true); {s with clk := {s.clk with holdover := true}}),
    (3, 4), by unfold Calm OnXo; decide +kernel⟩⟩

theorem witness_TransmitEqualisation :
    (∃ (s : State) (g : Fin 8) (l : Fin 10), s.linkState = 4 ∧ s.on (R.TXG_TXL_CTL g l) F.TXG_TXL_CTL_EQ_OVR =
    false) ∧
    (∃ (s : State) (g : Fin 8) (l : Fin 10), s.linkState = 4 ∧ s.fld (R.TXG_TXL_EQ g l) F.TXG_TXL_EQ_MAIN = 63) :=
  ⟨⟨(inLink ready 4), 0, 0, by decide +kernel⟩,
   ⟨((inLink ready 4).put (R.TXG_TXL_EQ 7 9) F.TXG_TXL_EQ_MAIN 63), 7, 9, by decide +kernel⟩⟩

theorem witness_LaneMarkers :
    (∃ (s : State), s.linkState = 4) ∧
    (∃ (s : State), s.linkState = 5) ∧
    (∃ (s : State), s.inTraining = true ∧ s.linkState ≠ 4) ∧
    (∃ (s : State) (g : Fin 8) (b : BitVec 2), s.parked .rx g = true ∧ s.stale .rx g = false ∧ s.groupOff .rx g =
    false ∧ (s.exitRun g = 0 ∨ b.toNat ≠ SMap.get (fun _ => 0) s.link.exits g % 4 + 1)) ∧
    (∃ (s : State) (g : Fin 8) (b : BitVec 2), s.parked .rx g = true ∧ s.stale .rx g = false ∧ s.groupOff .rx g =
    false ∧ s.exitRun g = 1 ∧ (b.toNat = SMap.get (fun _ => 0) s.link.exits g % 4 + 1)) ∧
    (∃ (s : State) (g : Fin 8) (b : BitVec 2), s.parked .rx g = true ∧ s.stale .rx g = false ∧ s.groupOff .rx g =
    false ∧ 2 ≤ s.exitRun g ∧ (b.toNat = SMap.get (fun _ => 0) s.link.exits g % 4 + 1)) ∧
    (∃ (s : State) (d : Dir) (g : Fin 8), OnXo s ∧ Calm s ∧ s.parked d g = true ∧ s.stale d g = false ∧ s.groupOff d
    g = false ∧ s.joinsByRecover d g = false ∧ ((d = .rx → 3 ≤ s.exitRun g))) ∧
    (∃ (s : State) (d : Dir) (g : Fin 8), OnXo s ∧ Calm s ∧ s.linkActive = true ∧ s.joinsByRecover d g = true) ∧
    (∃ (s : State) (g : Fin 8), s.parked .tx g = true ∧ s.groupOff .tx g = false) ∧
    (∃ (s : State) (g : Fin 8), s.parked .rx g = true ∧ s.groupOff .rx g = false) ∧
    (∃ (s : State) (g : Fin 8) (l : Fin 10), s.parked .rx g = true ∧ s.groupOff .rx g = false ∧ s.on (R.RXG_RXL_CTL
    g l) F.RXG_RXL_CTL_CTLE_OVR = false) ∧
    (∃ (s : State) (g : Fin 8), OnXo s ∧ Calm s ∧ s.parked .rx g = true ∧ s.groupOff .rx g = false ∧ s.linkActive =
    false) ∧
    (∃ (s : State) (g : Fin 8), OnXo s ∧ Calm s ∧ s.parked .rx g = true ∧ s.groupOff .rx g = false ∧ s.linkActive =
    true) ∧
    (∃ (s : State), s.linkActive = true ∧ s.loopTimed = false) :=
  ⟨⟨(inLink ready 4), by decide +kernel⟩,
   ⟨(inLink ready 5), by decide +kernel⟩,
   ⟨(inLink ready 8), by decide +kernel⟩,
   ⟨(ready.setParked .rx 7 true), 7, 3, by decide +kernel⟩,
   ⟨(let s := (ready.setParked .rx 7 true); {s with link := {s.link with exits := [(7,6)], frozen := [7,1]}}), 7,
    3, by decide +kernel⟩,
   ⟨(let s := (ready.setParked .rx 7 true); {s with link := {s.link with exits := [(7,10)], frozen := [7,1]}}), 7,
    3, by decide +kernel⟩,
   ⟨(let s := (ready.setParked .rx 7 true); {s with link := {s.link with exits := [(7,12)], frozen := [7,1]}}),
    .rx, 7, by unfold Calm OnXo; decide +kernel⟩,
   ⟨(let s := (ready.setParked .rx 7 true); {s with link := {s.link with wake := [7]}}), .rx, 7,
    by unfold Calm OnXo; decide +kernel⟩,
   ⟨(ready.setParked .tx 7 true), 7, by decide +kernel⟩,
   ⟨(ready.setParked .rx 7 true), 7, by decide +kernel⟩,
   ⟨(ready.setParked .rx 7 true), 7, 9, by decide +kernel⟩,
   ⟨(((inLink ready 1).setParked .rx 7 true).wr R.LINK_GROUP_USABLE 0xFFFF), 7,
    by unfold Calm OnXo; decide +kernel⟩,
   ⟨((ready.setParked .rx 7 true).wr R.LINK_GROUP_USABLE 0xFFFF), 7, by unfold Calm OnXo; decide +kernel⟩,
   ⟨(ready.wr R.LINK_WIDTH_STAT 0xFFFFFFFF), by decide +kernel⟩⟩

theorem witness_HitlessSparing :
    (∃ (s : State) (path : Path) (g : Fin 8) (lane : BitVec 4), Open s path (R.RXG_SPARE_CMD g) ∧ OnXo s ∧ Calm s ∧
    s.linkActive = true ∧ s.sparingRuns .rx g = false ∧ s.spareLane .rx g ≠ 15 ∧ lane.toNat ∈ s.dataLanes .rx g) ∧
    (∃ (s : State) (path : Path) (g : Fin 8), Open s path (R.RXG_SPARE_CMD g) ∧ OnXo s ∧ Calm s ∧ 1 ≤ s.sparePhase g
    ∧ s.sparePhase g ≤ 3) ∧
    (∃ (s : State) (g : Fin 8) (lane : BitVec 4), s.sparePhase g = 1 ∧ s.spareOf g = lane.toNat ∧ s.spareLane .rx g
    < 10) ∧
    (∃ (s : State) (g : Fin 8), OnXo s ∧ Calm s ∧ s.sparePhase g = 1) ∧
    (∃ (s : State) (g : Fin 8), s.sparePhase g = 2) ∧
    (∃ (s : State) (g : Fin 8), OnXo s ∧ Calm s ∧ s.sparePhase g = 2 ∧ s.declared (resLane false g (s.spareOf g)) =
    false) ∧
    (∃ (s : State) (g : Fin 8) (n : BitVec 16), OnXo s ∧ Calm s ∧ s.sparePhase g = 3 ∧ n.toNat ≤ 4) ∧
    (∃ (s : State) (g : Fin 8) (n : BitVec 16), OnXo s ∧ Calm s ∧ s.sparePhase g = 3 ∧ 4 < n.toNat ∧ s.declared
    (resLane false g (s.spareOf g)) = false) ∧
    (∃ (s : State) (g : Fin 8), s.sparePhase g = 4 ∧ s.switchSent g (s.spareOf g) = true) ∧
    (∃ (s : State) (g : Fin 8), s.sparePhase g = 4 ∧ s.switchSent g (s.spareOf g) = false) ∧
    (∃ (s : State) (g : Fin 8), OnXo s ∧ Calm s ∧ s.sparePhase g = 5 ∧ s.spareOf g < 10) :=
  ⟨⟨((openPage ready 0x8F).setSpare .rx 7 9), .pcie, 7, 8, by unfold Open Calm OnXo; decide +kernel⟩,
   ⟨(sparing (openPage ready 0x8F) 7 1 8), .inband, 7, by unfold Open Calm OnXo; decide +kernel⟩,
   ⟨((sparing ready 7 1 15).setSpare .rx 7 9), 7, 15, by decide +kernel⟩,
   ⟨(sparing ready 7 1 3), 7, by unfold Calm OnXo; decide +kernel⟩,
   ⟨(sparing ready 0 2 3), 0, by decide +kernel⟩,
   ⟨(sparing ready 7 2 9), 7, by unfold Calm OnXo; decide +kernel⟩,
   ⟨(sparing ready 7 3 8), 7, 4, by unfold Calm OnXo; decide +kernel⟩,
   ⟨(sparing ready 7 3 8), 7, 5, by unfold Calm OnXo; decide +kernel⟩,
   ⟨(let s := ((sparing ready 7 4 8).setSpare .rx 7 9); {s with link := {s.link with markers := [(7, 7*4096+8)], ref := some (7,8)}}),
    7, by decide +kernel⟩,
   ⟨(let s := ((sparing ready 7 4 8).setSpare .rx 7 9); {s with link := {s.link with markers := [(7, 7*4096+16+8)]}}),
    7, by decide +kernel⟩,
   ⟨((sparing (inLink ready 8) 7 5 8).setSpare .rx 7 9), 7, by unfold Calm OnXo; decide +kernel⟩⟩

theorem witness_TransmitSparing :
    (∃ (s : State) (g : Fin 8) (lane : BitVec 4), s.linkActive = true ∧ s.spareLane .tx g ≠ 15 ∧ lane.toNat ∈
    s.dataLanes .tx g ∧ lane.toNat ≠ s.spareLane .tx g) ∧
    (∃ (s : State) (g : Fin 8) (l : Nat), (SMap.get (fun _ => none) s.link.shadowTx g = some ⟨l, false⟩) ∧ l < 10) ∧
    (∃ (s : State) (g : Fin 8) (l : Nat), OnXo s ∧ Calm s ∧ l < 10 ∧ (SMap.get (fun _ => none) s.link.shadowTx g =
    some ⟨l, true⟩)) :=
  ⟨⟨(ready.setSpare .tx 7 9), 7, 8, by decide +kernel⟩,
   ⟨((shadowing ready 7 8 false).setSpare .tx 7 9), 7, 8, by decide +kernel⟩,
   ⟨((shadowing (inLink ready 8) 7 8 true).setSpare .tx 7 9), 7, 8, by unfold Calm OnXo; decide +kernel⟩⟩

theorem witness_LaneTools :
    (∃ (s : State) (path : Path) (g : Fin 8) (l : Fin 10), Open s path (R.TXG_TXL_INJ g l) ∧ OnXo s ∧ Calm s) ∧
    (∃ (s : State) (path : Path) (g : Fin 8) (l : Fin 10), Open s path (R.TXG_TXL_INJ g l) ∧ OnXo s ∧ Calm s) ∧
    (∃ (s : State) (g : Fin 8) (l : Fin 10) (w : RegWrite), Open s w.path (R.RXG_RXL_MARGIN g l) ∧ OnXo s ∧ Calm s) ∧
    (∃ (s : State) (g : Fin 8) (l : Fin 10), 10 * g.val + l.val ∈ s.link.margins) ∧
    (∃ (s : State) (g : Fin 8), s.linkActive = true ∧ g.val ∈ s.link.frozen) ∧
    (∃ (s : State) (g : Fin 8), s.linkActive = true ∧ g.val ∉ s.link.frozen) ∧
    (∃ (s : State) (g : Fin 8) (w : RegWrite), Open s w.path (R.TXG_GRP_CTL g) ∧ OnXo s ∧ Calm s ∧ s.grpState .tx g
    ≤ 1 ∧ F.TXG_GRP_CTL_TEST_MODE.get w.value = 1 ∧ F.TXG_GRP_CTL_PARK_ALLOW.get w.value = s.fld (R.TXG_GRP_CTL g)
    F.TXG_GRP_CTL_PARK_ALLOW ∧ s.linkState ≠ 7) ∧
    (∃ (s : State) (w : RegWrite), Open s w.path (R.TXG_GRP_CTL 0) ∧ OnXo s ∧ Calm s ∧ s.linkActive = true ∧ s.on
    (R.TXG_GRP_CTL 0) F.TXG_GRP_CTL_LOCAL_TIMING = false ∧ F.TXG_GRP_CTL_LOCAL_TIMING.get w.value = 1 ∧
    F.TXG_GRP_CTL_TEST_MODE.get w.value = 0 ∧ s.grpState .tx 0 = 7 ∧ F.TXG_GRP_CTL_PARK_ALLOW.get w.value = s.fld
    (R.TXG_GRP_CTL 0) F.TXG_GRP_CTL_PARK_ALLOW) :=
  ⟨⟨(openPage ready 0x87), .pcie, 7, 9, by unfold Open Calm OnXo; decide +kernel⟩,
   ⟨(openPage ready 0x87), .pcie, 7, 9, by unfold Open Calm OnXo; decide +kernel⟩,
   ⟨(openPage ready 0x8F), 7, 9, ⟨.pcie, 0xFFFFFFFF⟩, by unfold Open Calm OnXo; decide +kernel⟩,
   ⟨({ready with link := {ready.link with margins := [79]}}), 7, 9, by decide +kernel⟩,
   ⟨({ready with link := {ready.link with frozen := [7]}}), 7, by decide +kernel⟩,
   ⟨(ready.flag (R.RXG_GRP_CTL 7) F.RXG_GRP_CTL_CTLE_TRACK true), 7, by decide +kernel⟩,
   ⟨(openPage (inLink ready 1) 0x87), 7, ⟨.pcie, 0xFFFFFFFF⟩, by unfold Open Calm OnXo; decide +kernel⟩,
   ⟨((openPage ready 0x80).setGrpState .tx 0 7), ⟨.pcie, 5⟩, by unfold Open Calm OnXo; decide +kernel⟩⟩

theorem witness_FlitReceiver :
    (∃ (s : State) (f : BitVec 1920), OnXo s ∧ Calm s ∧ s.linkActive = true ∧ s.drogue = false ∧ (s.link.rxFlit ≠ 0
    ∨ s.link.rxUi ≠ 0) ∧ ((s.link.rxFlit = 11 → s.link.rxSwitch = none)) ∧ readFlit (s.undoFlit s.link.rxFlit f).1 =
    none ∧ s.rxState = 0) ∧
    (∃ (s : State) (f : BitVec 1920) (b : List Nat), OnXo s ∧ Calm s ∧ s.linkActive = true ∧ s.drogue = false ∧
    (s.link.rxFlit ≠ 0 ∨ s.link.rxUi ≠ 0) ∧ ((s.link.rxFlit = 11 → s.link.rxSwitch = none)) ∧ readFlit (s.undoFlit
    s.link.rxFlit f).1 = some (b, [], false) ∧ s.rxState = 1) ∧
    (∃ (s : State) (f : BitVec 1920) (b : List Nat) (c : Ctl0), OnXo s ∧ Calm s ∧ s.linkActive = true ∧ s.drogue =
    false ∧ (s.link.rxFlit ≠ 0 ∨ s.link.rxUi ≠ 0) ∧ ((s.link.rxFlit = 11 → s.link.rxSwitch = none)) ∧ readFlit
    (s.undoFlit s.link.rxFlit f).1 = some (b, [], true) ∧ c = ctl0Of (flitSlot (BitVec.ofNat 1920 (natBE b)) 0) ∧
    s.rxState < 2 ∧ c.llInit = false ∧ c.kind = 0 ∧ c.ackType = 0 ∧ c.wCount = 0 ∧ c.wReq = none) ∧
    (∃ (s : State) (f : BitVec 1920) (b : List Nat) (c : Ctl0), OnXo s ∧ Calm s ∧ s.linkActive = true ∧ s.drogue =
    false ∧ (s.link.rxFlit ≠ 0 ∨ s.link.rxUi ≠ 0) ∧ ((s.link.rxFlit = 11 → s.link.rxSwitch = none)) ∧ readFlit
    (s.undoFlit s.link.rxFlit f).1 = some (b, [], true) ∧ c = ctl0Of (flitSlot (BitVec.ofNat 1920 (natBE b)) 0) ∧
    s.rxState = 0 ∧ c.llInit = false ∧ c.kind = 1 ∧ c.seq ≠ s.rxSeq ∧ c.ackType = 0 ∧ c.wCount = 0 ∧ c.wReq = none) ∧
    (∃ (s : State) (f : BitVec 1920) (b : List Nat) (c : Ctl0), OnXo s ∧ Calm s ∧ s.linkActive = true ∧ s.drogue =
    false ∧ (s.link.rxFlit ≠ 0 ∨ s.link.rxUi ≠ 0) ∧ ((s.link.rxFlit = 11 → s.link.rxSwitch = none)) ∧ readFlit
    (s.undoFlit s.link.rxFlit f).1 = some (b, [], true) ∧ c = ctl0Of (flitSlot (BitVec.ofNat 1920 (natBE b)) 0) ∧
    s.rxState < 2 ∧ c.llInit = false ∧ c.kind = 1 ∧ c.seq = s.rxSeq ∧ c.ackType = 0 ∧ c.wCount = 0 ∧ c.wReq = none ∧
    c.map = 0 ∧ c.cred = 0) :=
  ⟨⟨(onLane 1 ready), flitBadA, by unfold Calm OnXo; decide +kernel⟩,
   ⟨((onLane 1 ready).setRxState 1), flitBadB,
    (bytesBE 240 (((onLane 1 ready).setRxState 1).undoFlit 1 flitBadB).1.toNat),
    by unfold Calm OnXo; decide +kernel⟩,
   ⟨(onLane 1 ready), flit05, (bytesBE 240 (((onLane 1 ready)).undoFlit 1 flit05).1.toNat),
    (ctl0Of (flitSlot (((onLane 1 ready)).undoFlit 1 flit05).1 0)), by unfold Calm OnXo; decide +kernel⟩,
   ⟨(onLane 1 ready), flit15, (bytesBE 240 (((onLane 1 ready)).undoFlit 1 flit15).1.toNat),
    (ctl0Of (flitSlot (((onLane 1 ready)).undoFlit 1 flit15).1 0)), by unfold Calm OnXo; decide +kernel⟩,
   ⟨((onLane 1 ready).put R.LINK_LL_STAT F.LINK_LL_STAT_RX_SEQ 4095 |>.setRxState 1), flit1F,
    (bytesBE 240 ((((onLane 1 ready).put R.LINK_LL_STAT F.LINK_LL_STAT_RX_SEQ 4095 |>.setRxState 1)).undoFlit 1 flit1F).1.toNat),
    (ctl0Of (flitSlot ((((onLane 1 ready).put R.LINK_LL_STAT F.LINK_LL_STAT_RX_SEQ 4095 |>.setRxState 1)).undoFlit 1 flit1F).1 0)),
    by unfold Calm OnXo; decide +kernel⟩⟩

theorem witness_FlitReceiver_2 :
    (∃ (s : State) (f : BitVec 1920) (b : List Nat) (c : Ctl0), OnXo s ∧ Calm s ∧ s.linkActive = true ∧ s.drogue =
    false ∧ (s.link.rxFlit ≠ 0 ∨ s.link.rxUi ≠ 0) ∧ ((s.link.rxFlit = 11 → s.link.rxSwitch = none)) ∧ readFlit
    (s.undoFlit s.link.rxFlit f).1 = some (b, [], true) ∧ c = ctl0Of (flitSlot (BitVec.ofNat 1920 (natBE b)) 0) ∧
    s.rxState < 2 ∧ c.llInit = false ∧ 2 ≤ c.kind) ∧
    (∃ (s : State) (marks : List MarkIn) (g : Fin 8) (l : Fin 10), OnXo s ∧ Calm s ∧ s.linkActive = true ∧ s.drogue
    = false ∧ s.link.rxFlit = 0 ∧ s.link.rxUi = 0 ∧ g.val ∈ s.activeGroups .rx ∧ l.val ∈ s.dataLanes .rx g ∧ marks =
    [⟨g, l, none⟩] ∧ (SMap.get (fun _ => 0) s.link.markBad (10 * g.val + l.val) = 1)) :=
  ⟨⟨(onLane 1 ready), flit35, (bytesBE 240 (((onLane 1 ready)).undoFlit 1 flit35).1.toNat),
    (ctl0Of (flitSlot (((onLane 1 ready)).undoFlit 1 flit35).1 0)), by unfold Calm OnXo; decide +kernel⟩,
   ⟨(updL (onLane 0 ready |>.flag (R.RXG_RXL_STAT 0 4) F.RXG_RXL_STAT_MARK_LOCK true) fun l => {l with markBad := [(4,1)]}),
    [⟨0,4,none⟩], 0, 4, by unfold Calm OnXo; decide +kernel⟩⟩

theorem witness_FrameTransmitter :
    (∃ (s : State), OnXo s ∧ Calm s ∧ s.linkActive = true ∧ s.drogue = false ∧ s.rxState ≠ 3 ∧ s.txState = 0 ∧
    s.link.txq = [] ∧ s.link.credRet = [] ∧ s.link.stored.length < 4095 ∧ s.link.widthTo = [] ∧ s.link.uiSince +
    frameUI (s.curStep .tx) < 10240) ∧
    (∃ (s : State), OnXo s ∧ Calm s ∧ s.linkActive = true ∧ s.drogue = false) ∧
    (∃ (s : State), OnXo s ∧ Calm s ∧ s.linkState = 0 ∧ s.drogue = false ∧ ((∀ (g : Fin 8) (l : Fin 10), s.farLoop g
    l = false ∧ s.patternOn g l = false))) ∧
    (∃ (s : State) (x : TxItem), OnXo s ∧ Calm s ∧ s.linkActive = true ∧ s.drogue = false ∧ s.rxState ≠ 3 ∧
    s.txState = 0 ∧ s.link.txq = [x] ∧ x.hdrSent = false ∧ x.data = [] ∧ s.link.credRet = [] ∧ s.link.stored.length
    < 4094 ∧ s.link.widthTo = [] ∧ s.link.uiSince + frameUI (s.curStep .tx) < 10240) :=
  ⟨⟨ready, by unfold Calm OnXo; decide +kernel⟩,
   ⟨ready, by unfold Calm OnXo; decide +kernel⟩,
   ⟨(inLink ready 0), by unfold Calm OnXo; decide +kernel⟩,
   ⟨(updL (ready.put R.LINK_LL_STAT F.LINK_LL_STAT_TX_SEQ 4095 |>.put (R.LINK_CRED_TX 0) F.LINK_CRED_TX_HDR 7) fun l => {l with txq := [⟨5, [], false, none⟩]}),
    ⟨5, [], false, none⟩, by unfold Calm OnXo; decide +kernel⟩⟩

theorem witness_ReplayAndWidth :
    (∃ (s : State) (x : Stored) (l : List Stored), OnXo s ∧ Calm s ∧ s.linkActive = true ∧ (s.txState = 0 ∨
    s.txState = 2) ∧ s.link.stored = x :: l) ∧
    (∃ (s : State), s.released = true) ∧
    (∃ (s : State), s.released = true ∧ OnXo s ∧ Calm s ∧ s.linkActive = true ∧ s.txState = 2) ∧
    (∃ (s : State) (w : RegWrite), Open s w.path R.LINK_LL_CTL ∧ Calm s ∧ OnXo s ∧ F.LINK_LL_CTL_RECOVER.get w.value
    = 0 ∧ F.LINK_LL_CTL_LL_RESET.get w.value = 0) ∧
    (∃ (s : State) (w : RegWrite), Open s w.path R.LINK_LL_CTL ∧ Calm s ∧ OnXo s ∧ s.linkActive = true ∧
    F.LINK_LL_CTL_RETRAIN.get w.value = 0 ∧ F.LINK_LL_CTL_LL_RESET.get w.value = 0) ∧
    (∃ (s : State) (w : RegWrite), Open s w.path R.LINK_LL_CTL ∧ Calm s ∧ OnXo s ∧ F.LINK_LL_CTL_RETRAIN.get w.value
    = 0 ∧ F.LINK_LL_CTL_RECOVER.get w.value = 0) ∧
    (∃ (s : State) (d : Dir), s.released = true ∧ OnXo s ∧ Calm s ∧ s.linkActive = true ∧ s.on R.LINK_WIDTH_CTL
    (match d with | .rx => F.LINK_WIDTH_CTL_RX_AUTO | .tx => F.LINK_WIDTH_CTL_TX_AUTO) = true ∧ (s.fld
    R.LINK_WIDTH_CTL F.LINK_WIDTH_CTL_AUTO_HIGH * SMap.get (fun _ => 0) s.link.slotsAll (dirIx d) < 100 * SMap.get
    (fun _ => 0) s.link.slotsUsed (dirIx d))) ∧
    (∃ (s : State) (d : Dir), s.released = true ∧ OnXo s ∧ Calm s ∧ s.linkActive = true ∧ s.on R.LINK_WIDTH_CTL
    (match d with | .rx => F.LINK_WIDTH_CTL_RX_AUTO | .tx => F.LINK_WIDTH_CTL_TX_AUTO) = true ∧ (100 * SMap.get (fun
    _ => 0) s.link.slotsUsed (dirIx d) ≤ s.fld R.LINK_WIDTH_CTL F.LINK_WIDTH_CTL_AUTO_HIGH * SMap.get (fun _ => 0)
    s.link.slotsAll (dirIx d)) ∧ (100 * SMap.get (fun _ => 0) s.link.slotsUsed (dirIx d) < s.fld R.LINK_WIDTH_CTL
    F.LINK_WIDTH_CTL_AUTO_LOW * SMap.get (fun _ => 0) s.link.slotsAll (dirIx d))) ∧
    (∃ (s : State) (w : RegWrite), Open s w.path R.LINK_WIDTH_CTL ∧ OnXo s ∧ Calm s) :=
  ⟨⟨(updL ready fun l => {l with stored := [⟨7,0,0,[]⟩]}), ⟨7,0,0,[]⟩, [], by unfold Calm OnXo; decide +kernel⟩,
   ⟨ready, by decide +kernel⟩,
   ⟨(ready.setTxState 2), by unfold Calm OnXo; decide +kernel⟩,
   ⟨(openPage ready 0xE), ⟨.pcie, 0xFFFFFFF0⟩, by unfold Open Calm OnXo; decide +kernel⟩,
   ⟨(openPage ready 0xE), ⟨.pcie, 0⟩, by unfold Open Calm OnXo; decide +kernel⟩,
   ⟨(openPage ready 0xE), ⟨.gondola, 0⟩, by unfold Open Calm OnXo; decide +kernel⟩,
   ⟨(updL (ready.flag R.LINK_WIDTH_CTL F.LINK_WIDTH_CTL_RX_AUTO true |>.put R.LINK_WIDTH_CTL F.LINK_WIDTH_CTL_RX_TARGET 2) fun l => {l with slotsAll := [(0,100)], slotsUsed := [(0,61)], autoStep := [(0,2)]}),
    .rx, by unfold Calm OnXo; decide +kernel⟩,
   ⟨(updL (ready.flag R.LINK_WIDTH_CTL F.LINK_WIDTH_CTL_RX_AUTO true |>.put R.LINK_WIDTH_CTL F.LINK_WIDTH_CTL_RX_TARGET 3) fun l => {l with slotsAll := [(0,100)], slotsUsed := [(0,19)], autoStep := [(0,2)]}),
    .rx, by unfold Calm OnXo; decide +kernel⟩,
   ⟨(openPage ready 0xE), ⟨.pcie, 0xFFFFFFFF⟩, by unfold Open Calm OnXo; decide +kernel⟩⟩

theorem witness_ControlSlotFields :
    (∃ (c : Ctl0), c.kind < 4 ∧ c.ackType < 4 ∧ c.wStep < 4 ∧ c.wCount < 16 ∧ ((∀ x ∈ c.wReq, x.2 < 4))) :=
   ⟨{kind := 3, llInit := true, seq := 4095, ackType := 3, ackSeq := 4095, wStep := 3, wCount := 15, wReq := some (true, 3), map := 0x3FFF, cred := 0xFFFFFFFF},
    by decide +kernel⟩

theorem witness_ReadsAndWrites :
    (∃ (s : State) (tag : BitVec 12) (m : LookupIn) (r : Req) (l : Line), (s.readyReq tag.toNat (fun h => decide
    (hOpc h = 1)) = some r) ∧ Plain r ∧ NoErr m ∧ s.decodeStatus r.header r.data = 0 ∧ hLen r.header = 0 ∧ eState
    (s.entry (hAddr r.header / 1024)) = 0 ∧ s.readRoom (eFrame (s.entry (hAddr r.header / 1024))) 1 = true ∧
    s.wdbLine (hAddr r.header) = some l ∧ l.poisoned = false) ∧
    (∃ (s : State) (tag : BitVec 12) (m : LookupIn) (r : Req), (s.readyReq tag.toNat (fun h => decide (hOpc h = 1))
    = some r) ∧ Plain r ∧ NoErr m ∧ s.decodeStatus r.header r.data = 0 ∧ eState (s.entry (hAddr r.header / 1024)) =
    3) ∧
    (∃ (s : State) (tag : BitVec 12) (r : Req), (s.readyReq tag.toNat (fun h => decide (hOpc h = 1)) = some r) ∧
    Plain r ∧ malformed r.header r.data = false ∧ s.fld R.XACT_VIS_LIMIT F.XACT_VIS_LIMIT_LIMIT ≤ hAddr r.header) ∧
    (∃ (s : State) (tag : BitVec 12) (m : LookupIn) (r : Req), (s.readyReq tag.toNat (fun h => decide (hOpc h = 2))
    = some r) ∧ Plain r ∧ NoErr m ∧ s.decodeStatus r.header r.data = 0 ∧ hLen r.header = 0 ∧ eState (s.entry (hAddr
    r.header / 1024)) = 0 ∧ s.migOf (hAddr r.header / 1024) = none) ∧
    (∃ (s : State) (tag : BitVec 12) (m : LookupIn) (r : Req), (s.readyReq tag.toNat (fun h => decide (hOpc h = 3))
    = some r) ∧ Plain r ∧ NoErr m ∧ s.decodeStatus r.header r.data = 0 ∧ hLen r.header = 0 ∧ eState (s.entry (hAddr
    r.header / 1024)) = 0 ∧ s.migOf (hAddr r.header / 1024) = none) :=
  ⟨⟨(withWdb (reqs [(rq 7 (hdr 1 3 5 4095 0 0 2050))]) 2050 ⟨77, 0⟩), 4095, noErr,
    (rq 7 (hdr 1 3 5 4095 0 0 2050)), ⟨77, 0⟩, by unfold NoErr Plain; decide +kernel⟩,
   ⟨(parcelAt (reqs [(rq 7 (hdr 1 3 5 4095 0 0 2050))]) 2 (mkEntry 0 3 false false false false)), 4095, noErr,
    (rq 7 (hdr 1 3 5 4095 0 0 2050)), by unfold NoErr Plain; decide +kernel⟩,
   ⟨((reqs [(rq 7 (hdr 1 3 5 4095 0 0 2050))]).wr R.XACT_VIS_LIMIT 2050), 4095, (rq 7 (hdr 1 3 5 4095 0 0 2050)),
    by unfold Plain; decide +kernel⟩,
   ⟨(reqs [(rq 7 (hdr 2 3 5 4095 0 9 2048))]), 4095, noErr, (rq 7 (hdr 2 3 5 4095 0 9 2048)),
    by unfold NoErr Plain; decide +kernel⟩,
   ⟨(reqs [(rq 7 (hdr 3 3 5 4095 0 9 2048))]), 4095, noErr, (rq 7 (hdr 3 3 5 4095 0 9 2048)),
    by unfold NoErr Plain; decide +kernel⟩⟩

theorem witness_AtomicRequest :
    (∃ (s : State) (tag : BitVec 12) (m : LookupIn) (r : Req) (l : Line) (o : Nat) (w : Nat), (s.readyReq tag.toNat
    (fun h => decide (hOpc h = 4)) = some r) ∧ Plain r ∧ NoErr m ∧ s.decodeStatus r.header r.data = 0 ∧ eState
    (s.entry (hAddr r.header / 1024)) = 0 ∧ s.migOf (hAddr r.header / 1024) = none ∧ s.wdbLine (hAddr r.header) =
    some l ∧ l.poisoned = false ∧ o = atomOffset (slotsLine r.data) ∧ w = atomWidth (hArg r.header)) :=
   ⟨(withWdb (reqs [{(rq 7 (hdr 4 3 5 4095 0 0 2048)) with data := atomData 0x8000000000000001 0x77 4}]) 2048 ⟨BitVec.ofNat 512 (0x8000000000000001 * 2^64 + 0xFFFFFFFF * 2^32), 5⟩),
    4095, noErr, {(rq 7 (hdr 4 3 5 4095 0 0 2048)) with data := atomData 0x8000000000000001 0x77 4},
    ⟨BitVec.ofNat 512 (0x8000000000000001 * 2^64+ 0xFFFFFFFF * 2^32), 5⟩, 4, 4,
    by unfold NoErr Plain; decide +kernel⟩

theorem witness_TransactionFlow :
    (∃ (s : State) (tc : BitVec 3) (i : RxItem), s.rxHead tc.toNat = some i ∧ s.released = true ∧ badHead i = true) ∧
    (∃ (s : State) (tc : BitVec 3) (m : LookupIn) (i : RxItem), s.rxHead tc.toNat = some i ∧ NoErr m ∧ s.released =
    true ∧ i.left = 0 ∧ s.admitRoom i = true ∧ badHead i = false ∧ i.half = true ∧ s.bridleOn = false ∧ ((∀ r ∈
    s.xact.reqs, r.stage ≠ .held)) ∧ s.tagBusy (hTag i.header) = false ∧ s.decodeStatus i.header i.data = 0) ∧
    (∃ (s : State) (tc : BitVec 3) (m : LookupIn) (i : RxItem), s.rxHead tc.toNat = some i ∧ NoErr m ∧ s.released =
    true ∧ i.left = 0 ∧ s.admitRoom i = true ∧ badHead i = false ∧ s.on R.XACT_XACT_CTL F.XACT_XACT_CTL_TAG_CHECK =
    true ∧ s.tagBusy (hTag i.header) = true) ∧
    (∃ (s : State) (tag : BitVec 12) (r : Req), s.released = true ∧ (s.xact.reqs.find? (fun r => decide (r.stage =
    .ready) && hTag r.header == tag.toNat && hOpc r.header == 5) = some r) ∧ Plain r ∧ s.decodeStatus r.header
    r.data = 0) ∧
    (∃ (s : State) (tag : BitVec 12) (r : Req), s.released = true ∧ (s.xact.reqs.find? (fun r => decide (r.stage =
    .working) && hTag r.header == tag.toNat && hOpc r.header == 5) = some r) ∧ Plain r ∧ s.fenceClear r = true) ∧
    (∃ (s : State) (tag : BitVec 12) (r : Req), s.released = true ∧ (s.xact.reqs.find? (fun r => decide (r.stage =
    .done) && hTag r.header == tag.toNat) = some r) ∧ s.sendOpen = true ∧ s.credOk (hTc r.header) r.payload.length =
    true) ∧
    (∃ (s : State) (tag : BitVec 12) (r : Req), (s.xact.reqs.find? (fun r => decide (r.stage = .done) && hTag
    r.header == tag.toNat) = some r) ∧ (s.sendOpen = false ∨ s.credOk (hTc r.header) r.payload.length = false)) ∧
    (∃ (s : State) (e : Event), s.released = true ∧ s.nextEvent = some e ∧ s.sendOpen = true ∧ s.credOk s.evtTc 4 =
    true) :=
  ⟨⟨(arrived (item (hdr 10 3 5 1 0 0 0))), 3, (item (hdr 10 3 5 1 0 0 0)), by decide +kernel⟩,
   ⟨(noBridle (arrived (item (hdr 1 3 5 1 0 0 0)))), 3, noErr, (item (hdr 1 3 5 1 0 0 0)),
    by unfold NoErr; decide +kernel⟩,
   ⟨(let s := arrived (item (hdr 1 3 5 1 0 0 0)); {s with xact := {s.xact with reqs := [rq 7 (hdr 1 3 5 1 0 0 0)]}}),
    3, noErr, (item (hdr 1 3 5 1 0 0 0)), by unfold NoErr; decide +kernel⟩,
   ⟨(reqs [(rq 7 (hdr 5 3 5 4095 0 3 0))]), 4095, (rq 7 (hdr 5 3 5 4095 0 3 0)), by unfold Plain; decide +kernel⟩,
   ⟨(reqs [{(rq 7 (hdr 5 3 5 4095 0 3 0)) with stage := .working}]), 4095,
    {(rq 7 (hdr 5 3 5 4095 0 3 0)) with stage := .working}, by unfold Plain; decide +kernel⟩,
   ⟨((reqs [{(rq 7 (hdr 1 3 5 4095 0 0 2050)) with stage := .done, payload := [1,2,3,4]}]).wr (R.LINK_CRED_TX 3) 0x00010001),
    4095, {(rq 7 (hdr 1 3 5 4095 0 0 2050)) with stage := .done, payload := [1,2,3,4]}, by decide +kernel⟩,
   ⟨(reqs [{(rq 7 (hdr 1 3 5 4095 0 0 2050)) with stage := .done, payload := [1,2,3,4]}]), 4095,
    {(rq 7 (hdr 1 3 5 4095 0 0 2050)) with stage := .done, payload := [1,2,3,4]}, by decide +kernel⟩,
   ⟨(let s := (ready.wr (R.LINK_CRED_TX 0) 0x00010001).flag R.XACT_XACT_CTL F.XACT_XACT_CTL_EVT_EN true |>.put R.XACT_XACT_CTL F.XACT_XACT_CTL_EVT_TC 0; {s with xact := {s.xact with lost := 3, events := [⟨false, 1, 5, 6, 7, 0, 0⟩]}}),
    ⟨false, 1, 5, 6, 7, 0, 0⟩, by decide +kernel⟩⟩

theorem witness_Hints :
    (∃ (s : State) (tag : BitVec 12) (m : LookupIn) (r : Req) (n : Nat), (s.readyReq tag.toNat (fun h => decide
    (hOpc h = 6) && hintCode 0 (hArg h)) = some r) ∧ Plain r ∧ NoErr m ∧ s.decodeStatus r.header r.data = 0 ∧ n =
    hintFirst r.header ∧ hintCount r.header = 1 ∧ eState (s.entry n) < 3 ∧ hArg r.header = 0 ∧ s.migOf n = none ∧
    s.fld R.PLACE_PARCELS_PINNED F.PLACE_PARCELS_PINNED_COUNT < s.fld R.PLACE_PIN_LIMIT F.PLACE_PIN_LIMIT_LIMIT) ∧
    (∃ (s : State) (tag : BitVec 12) (m : LookupIn) (r : Req) (n : Nat), (s.readyReq tag.toNat (fun h => decide
    (hOpc h = 6) && hintCode 0 (hArg h)) = some r) ∧ Plain r ∧ NoErr m ∧ s.decodeStatus r.header r.data = 0 ∧ n =
    hintFirst r.header ∧ hintCount r.header = 1 ∧ eState (s.entry n) = 3 ∧ hArg r.header = 0) ∧
    (∃ (s : State) (tag : BitVec 12) (m : LookupIn) (r : Req) (n : Nat), (s.readyReq tag.toNat (fun h => decide
    (hOpc h = 6) && hintCode 1 (hArg h)) = some r) ∧ Plain r ∧ NoErr m ∧ s.decodeStatus r.header r.data = 0 ∧ n =
    hintFirst r.header ∧ hintCount r.header = 1 ∧ eState (s.entry n) ≠ 5 ∧ hArg r.header = 1) ∧
    (∃ (s : State) (tag : BitVec 12) (m : LookupIn) (r : Req) (n : Nat), Calm s ∧ (s.readyReq tag.toNat (fun h =>
    decide (hOpc h = 6) && hintCode 2 (hArg h)) = some r) ∧ Plain r ∧ NoErr m ∧ s.decodeStatus r.header r.data = 0 ∧
    n = hintFirst r.header ∧ hintCount r.header = 1 ∧ hArg r.header = 2 ∧ eState (s.entry n) = 0 ∧ ePin (s.entry n)
    = false ∧ s.migOf n = none) ∧
    (∃ (s : State) (tag : BitVec 12) (m : LookupIn) (r : Req) (n : Nat), (s.readyReq tag.toNat (fun h => decide
    (hOpc h = 6) && hintCode 3 (hArg h)) = some r) ∧ Plain r ∧ NoErr m ∧ s.decodeStatus r.header r.data = 0 ∧ n =
    hintFirst r.header ∧ hintCount r.header = 1 ∧ eState (s.entry n) < 3 ∧ hArg r.header = 3 ∧ s.cacheOn = true) ∧
    (∃ (s : State) (tag : BitVec 12) (m : LookupIn) (r : Req), (s.readyReq tag.toNat (fun h => decide (hOpc h = 6)
    && hintCode 3 (hArg h)) = some r) ∧ Plain r ∧ NoErr m ∧ s.decodeStatus r.header r.data = 0 ∧ hintCount r.header
    = 1 ∧ eState (s.entry (hintFirst r.header)) ≠ 5 ∧ hArg r.header = 3 ∧ s.cacheOn = false) ∧
    (∃ (s : State) (tag : BitVec 12) (m : LookupIn) (r : Req) (n : Nat), (s.readyReq tag.toNat (fun h => decide
    (hOpc h = 6) && hintCode 4 (hArg h)) = some r) ∧ Plain r ∧ NoErr m ∧ s.decodeStatus r.header r.data = 0 ∧ n =
    hintFirst r.header ∧ hintCount r.header = 1 ∧ eState (s.entry n) ≠ 5 ∧ hArg r.header = 4) ∧
    (∃ (s : State) (tag : BitVec 12) (m : LookupIn) (r : Req) (n : Nat), (s.readyReq tag.toNat (fun h => decide
    (hOpc h = 6) && hintCode 5 (hArg h)) = some r) ∧ Plain r ∧ NoErr m ∧ s.decodeStatus r.header r.data = 0 ∧ n =
    hintFirst r.header ∧ hintCount r.header = 1 ∧ eState (s.entry n) ≠ 5 ∧ hArg r.header = 5) :=
  ⟨⟨((reqs [(rq 7 (hdr 6 3 5 4095 0 0 2048))]).wr R.PLACE_PIN_LIMIT 5), 4095, noErr,
    (rq 7 (hdr 6 3 5 4095 0 0 2048)), 2, by unfold NoErr Plain; decide +kernel⟩,
   ⟨(parcelAt (reqs [(rq 7 (hdr 6 3 5 4095 0 0 2048))]) 2 (mkEntry 0 3 false false false false)), 4095, noErr,
    (rq 7 (hdr 6 3 5 4095 0 0 2048)), 2, by unfold NoErr Plain; decide +kernel⟩,
   ⟨(parcelAt (reqs [(rq 7 (hdr 6 3 5 4095 0 1 2048))]) 2 (mkEntry 2 0 true false false false)), 4095, noErr,
    (rq 7 (hdr 6 3 5 4095 0 1 2048)), 2, by unfold NoErr Plain; decide +kernel⟩,
   ⟨(withWdb (reqs [(rq 7 (hdr 6 3 5 4095 0 2 2048))]) 2050 ⟨5,0⟩), 4095, noErr, (rq 7 (hdr 6 3 5 4095 0 2 2048)),
    2, by unfold Calm NoErr Plain; decide +kernel⟩,
   ⟨((reqs [(rq 7 (hdr 6 3 5 4095 0 3 2048))]).flag R.CACHE_CACHE_STAT F.CACHE_CACHE_STAT_ENABLED true), 4095,
    noErr, (rq 7 (hdr 6 3 5 4095 0 3 2048)), 2, by unfold NoErr Plain; decide +kernel⟩,
   ⟨(reqs [(rq 7 (hdr 6 3 5 4095 0 3 2048))]), 4095, noErr, (rq 7 (hdr 6 3 5 4095 0 3 2048)),
    by unfold NoErr Plain; decide +kernel⟩,
   ⟨(reqs [(rq 7 (hdr 6 3 5 4095 0 4 2048))]), 4095, noErr, (rq 7 (hdr 6 3 5 4095 0 4 2048)), 2,
    by unfold NoErr Plain; decide +kernel⟩,
   ⟨(parcelAt (reqs [(rq 7 (hdr 6 3 5 4095 0 5 2048))]) 2 (mkEntry 2 0 true true false false)), 4095, noErr,
    (rq 7 (hdr 6 3 5 4095 0 5 2048)), 2, by unfold NoErr Plain; decide +kernel⟩⟩

theorem witness_WorkAndConfiguration :
    (∃ (s : State) (tag : BitVec 12) (r : Req), s.released = true ∧ (s.xact.reqs.find? (fun r => decide (r.stage =
    .ready) && hTag r.header == tag.toNat && hOpc r.header == 7) = some r) ∧ r.silent = false ∧ (r.status = 5 ∨
    (r.status = 0 ∧ (descOf (r.ext.getD 0)).valid = false)) ∧ s.mayPerform r = true) ∧
    (∃ (s : State) (tag : BitVec 12) (m : LookupIn) (r : Req) (q : Nat) (e : Nat), s.released = true ∧
    (s.xact.reqs.find? (fun r => decide (r.stage = .ready) && hTag r.header == tag.toNat && hOpc r.header == 7) =
    some r) ∧ r.status = 0 ∧ NoErr m ∧ ((∀ x ∈ s.xact.reqs, x.id < r.id → State.samePair x.header r.header = true →
    x.performed = true ∨ x.stage = .working)) ∧ s.workStatus { header := r.header, ext := r.ext, data := [], left :=
    0 } = (0, 0) ∧ s.chooseQuad (descOf (r.ext.getD 0)) s.openQuads = some q ∧ s.leastQueued ((s.activeEngines
    q).filter s.engRoom) = some e ∧ (s.quadWorks q).length < 64) ∧
    (∃ (s : State) (tag : BitVec 12) (r : Req) (x : State × List Word × Nat), (s.readyReq tag.toNat (fun h => decide
    (hOpc h = 8)) = some r) ∧ Plain r ∧ s.cfgOpen (hMid r.header) = true ∧ x = s.cfgReads (hAddr r.header) (hArg
    r.header + 1)) ∧
    (∃ (s : State) (tag : BitVec 12) (r : Req) (v : Word), (s.readyReq tag.toNat (fun h => decide (hOpc h = 8)) =
    some r) ∧ Plain r ∧ hArg r.header = 0 ∧ s.cfgOpen (hMid r.header) = true ∧ (s.busRead .inband (hAddr
    r.header)).ok = true ∧ v = (s.busRead .inband (hAddr r.header)).val) ∧
    (∃ (s : State) (tag : BitVec 12) (r : Req) (x : State × Nat), (s.readyReq tag.toNat (fun h => decide (hOpc h =
    9)) = some r) ∧ Plain r ∧ s.cfgOpen (hMid r.header) = true ∧ x = s.cfgWrites (hAddr r.header) (State.cfgDwords
    r.data) (hArg r.header + 1) ∧ ((∀ y ∈ s.xact.reqs, y ∈ x.1.xact.reqs))) ∧
    (∃ (s : State) (tag : BitVec 12) (r : Req) (i : Nat), (s.readyReq tag.toNat (fun h => decide (hOpc h = 9)) =
    some r) ∧ Plain r ∧ hArg r.header = 0 ∧ s.cfgOpen (hMid r.header) = true ∧ i < 16 ∧ hAddr r.header =
    R.DEV_SCRATCH i ∧ Open s .inband (R.DEV_SCRATCH i)) :=
  ⟨⟨(reqs [{(rq 7 (hdr 7 3 5 4095 0 0 2048)) with ext := some 0}]), 4095,
    {(rq 7 (hdr 7 3 5 4095 0 0 2048)) with ext := some 0}, by decide +kernel⟩,
   ⟨((reqs [{(rq 7 (hdr 7 3 5 4095 0 0 2048)) with ext := some (desc (1*2^58) 0 0 0 5), owes := true}]).setEngState 1 1),
    4095, noErr, {(rq 7 (hdr 7 3 5 4095 0 0 2048)) with ext := some (desc (1*2^58) 0 0 0 5), owes := true}, 0, 0,
    by unfold NoErr; decide +kernel⟩,
   ⟨(cfgOn (openPage ((reqs [(rq 7 (hdr 8 3 5 4095 0 3 80))]).wr (R.DEV_SCRATCH 0) 7) 0)), 4095,
    (rq 7 (hdr 8 3 5 4095 0 3 80)),
    ((cfgOn (openPage ((reqs [(rq 7 (hdr 8 3 5 4095 0 3 80))]).wr (R.DEV_SCRATCH 0) 7) 0)).cfgReads 0x50 4),
    by unfold Plain; decide +kernel⟩,
   ⟨(cfgOn (openPage ((reqs [(rq 7 (hdr 8 3 5 4095 0 0 80))]).wr (R.DEV_SCRATCH 0) 7) 0)), 4095,
    (rq 7 (hdr 8 3 5 4095 0 0 80)), 7, by unfold Plain; decide +kernel⟩,
   ⟨(cfgOn (openPage (reqs [{(rq 7 (hdr 9 3 5 4095 0 1 88)) with data := [0x01020304 <<< 96]}]) 0)), 4095,
    {(rq 7 (hdr 9 3 5 4095 0 1 88)) with data := [0x01020304 <<< 96]},
    ((cfgOn (openPage (reqs [{(rq 7 (hdr 9 3 5 4095 0 1 88)) with data := [0x01020304 <<< 96]}]) 0)).cfgWrites 0x58 (State.cfgDwords [0x01020304 <<< 96]) 2),
    by unfold Plain; decide +kernel⟩,
   ⟨(cfgOn (openPage (reqs [{(rq 7 (hdr 9 3 5 4095 0 0 92)) with data := [0x01020304 <<< 96]}]) 0)), 4095,
    {(rq 7 (hdr 9 3 5 4095 0 0 92)) with data := [0x01020304 <<< 96]}, 3, by unfold Open Plain; decide +kernel⟩⟩

theorem witness_EpochAndMigration :
    (∃ (s : State), Calm s ∧ s.released = true ∧ s.on R.PLACE_POL_CTL F.PLACE_POL_CTL_POLICY_EN = false ∧
    s.place.keelQ = [] ∧ s.place.evacQ = [] ∧ ((∀ e ∈ s.place.table, eEvac e.2 = false))) ∧
    (∃ (s : State), s.released = true ∧ (SMap.wf (fun _ => 0) s.place.heat = true) ∧ s.epoch % 64 = 0 ∧
    s.place.decayed ≠ s.epoch) ∧
    (∃ (s : State), (s.epoch % 64 ≠ 0 ∨ s.place.decayed = s.epoch)) ∧
    (∃ (s : State) (k : Fin 64) (m : Mig) (lk : LookupIn), Calm s ∧ s.released = true ∧ NoErr lk ∧ (SMap.get (fun _
    => none) s.place.mig k = some m) ∧ m.phase = .copy ∧ m.src ≠ m.dst ∧ (fQuad m.src = fQuad m.dst ∨ s.cache = {})
    ∧ s.migHeld m (List.range 1024) = false ∧ s.bgFits (s.flushBytes m) = true ∧ s.unreadable m.src = false ∧
    s.wdb.length < 256 ∧ m.dirty.length ≤ m.closeLines) ∧
    (∃ (s : State) (k : Fin 64) (m : Mig) (lk : LookupIn), Calm s ∧ s.released = true ∧ NoErr lk ∧ (SMap.get (fun _
    => none) s.place.mig k = some m) ∧ m.phase = .recopy ∧ m.src ≠ m.dst ∧ ((∀ o ∈ m.pass, o < 1024)) ∧ s.migHeld m
    m.pass = false ∧ s.unreadable m.src = false ∧ s.wdb.length < 256 ∧ m.dirty.length ≤ m.closeLines) ∧
    (∃ (s : State) (k : Fin 64) (m : Mig) (lk : LookupIn), Calm s ∧ s.released = true ∧ NoErr lk ∧ (SMap.get (fun _
    => none) s.place.mig k = some m) ∧ m.phase = .close ∧ m.src ≠ m.dst ∧ m.evac = false ∧ m.keel = false ∧
    s.migHeld m m.dirty = false ∧ s.unreadable m.src = false ∧ (s.pch (fPc m.src)).wq = [] ∧ ((∀ o ∈ m.dirty, o <
    1024)) ∧ s.wdb.length < 256 ∧ s.place.evacQ = [] ∧ s.place.moveQ = []) ∧
    (∃ (s : State) (k : Fin 64) (ns : BitVec 16) (m : Mig), Calm s ∧ s.released = true ∧ (SMap.get (fun _ => none)
    s.place.mig k = some m) ∧ m.phase = .close ∧ eState (s.entry m.parcel) = 2 ∧ m.evac = true ∧ m.keel = false ∧
    m.closeMax < ns.toNat) ∧
    (∃ (s : State) (k : Fin 64) (ns : BitVec 16) (m : Mig), Calm s ∧ s.released = true ∧ (SMap.get (fun _ => none)
    s.place.mig k = some m) ∧ ns.toNat ≤ m.closeMax) :=
  ⟨⟨(plc (ready.flag R.PLACE_POL_CTL F.PLACE_POL_CTL_POLICY_EN false) fun p => {p with moveQ := [(3,true)]}),
    by unfold Calm; decide +kernel⟩,
   ⟨(plc (ready.wr R.PLACE_EPOCH_LO 128) fun p => {p with heat := [(3,1),(7,255)]}), by decide +kernel⟩,
   ⟨(plc (ready.wr R.PLACE_EPOCH_LO 129) fun p => {p with heat := [(3,1),(7,255)]}), by decide +kernel⟩,
   ⟨(moving 63 (mig0 .copy false [3] []) (mkEntry 5 1 true false true true)), 63, (mig0 .copy false [3] []), noErr,
    by unfold Calm NoErr; decide +kernel⟩,
   ⟨(moving 0 (mig0 .recopy true [] [3,1023]) (mkEntry 5 1 true false true true)), 0,
    (mig0 .recopy true [] [3,1023]), noErr, by unfold Calm NoErr; decide +kernel⟩,
   ⟨(moving 7 (mig0 .close false [3] []) (mkEntry 5 2 true false true true)), 7, (mig0 .close false [3] []), noErr,
    by unfold Calm NoErr; decide +kernel⟩,
   ⟨(moving 7 (mig0 .close true [3] []) (mkEntry 5 2 true false true true)), 7, 2001, (mig0 .close true [3] []),
    by unfold Calm; decide +kernel⟩,
   ⟨(moving 7 (mig0 .close true [3] []) (mkEntry 5 2 true false true true)), 7, 2000, (mig0 .close true [3] []),
    by unfold Calm; decide +kernel⟩⟩

theorem witness_ZeroingAndRepair :
    (∃ (s : State) (f : Nat) (q : List Nat), s.released = true ∧ s.place.zeroQ = f :: q ∧ (s.polFits State.zeroBytes
    = true ∨ s.evacFits State.zeroBytes = true)) ∧
    (∃ (s : State), (s.place.zeroQ = [] ∨ (s.polFits State.zeroBytes = false ∧ s.evacFits State.zeroBytes = false))) ∧
    (∃ (s : State) (f : BitVec 21), Calm s ∧ s.released = true ∧ f.toNat ∈ s.place.zeroing ∧ s.frameBusy f.toNat =
    false ∧ s.repairHolds f.toNat = false ∧ s.place.keelQ = []) ∧
    (∃ (s : State) (n : BitVec 21) (failA : Bool) (failB : Bool), Calm s ∧ s.released = true ∧ eState (s.entry
    n.toNat) = 5 ∧ ((s.mirrorOk false = true ∧ failA = false) ∨ (s.mirrorOk true = true ∧ failB = false))) ∧
    (∃ (s : State) (n : BitVec 21) (failA : Bool) (failB : Bool), Calm s ∧ s.released = true ∧ eState (s.entry
    n.toNat) = 5 ∧ s.migOf n.toNat = none ∧ ((s.mirrorOk false = false ∨ failA = true)) ∧ ((s.mirrorOk true = false
    ∨ failB = true))) :=
  ⟨⟨(plc (ready.put R.BRIDLE_DELIV_DRAM F.BRIDLE_DELIV_DRAM_RATE 500) fun p => {p with zeroQ := [9,8]}), 9, [8],
    by decide +kernel⟩,
   ⟨ready, by decide +kernel⟩,
   ⟨(plc ((ready.dramWrite 9 1023 ⟨5,3⟩).dramWrite 10 0 ⟨5,3⟩) fun p => {p with zeroing := [8,9]}), 9,
    by unfold Calm; decide +kernel⟩,
   ⟨(plc (ready.setMirror false true) fun p => {p with table := [(2, mkEntry 2 5 true false false false)], repair := [(2, some (mkEntry 2 0 true false false false))]}),
    2, false, true, by unfold Calm; decide +kernel⟩,
   ⟨(plc ((ready.setMirror false true).setMirror true true) fun p => {p with table := [(2, mkEntry 2 5 true false false false)]}),
    2, true, true, by unfold Calm; decide +kernel⟩⟩

theorem witness_DeficitAndQueries :
    (∃ (s : State), Calm s ∧ s.released = true ∧ s.on R.PLACE_DEFICIT F.PLACE_DEFICIT_OPEN = true ∧ s.place.expired
    = false ∧ s.on R.PLACE_WDR_CTL F.PLACE_WDR_CTL_AUTO_WDR = false) ∧
    (∃ (s : State) (p : Nat), Calm s ∧ s.released = true ∧ s.on R.PLACE_DEFICIT F.PLACE_DEFICIT_OPEN = true ∧
    s.place.expired = false ∧ s.on R.PLACE_WDR_CTL F.PLACE_WDR_CTL_AUTO_WDR = true ∧ s.fld R.PLACE_DEFICIT
    F.PLACE_DEFICIT_COUNT = 1 ∧ s.withdrawOrder.head? = some p ∧ s.migOf p = none ∧ s.place.keelQ = []) ∧
    (∃ (s : State) (w : RegWrite), Calm s ∧ Open s w.path R.PLACE_WDR_CTL ∧ s.on R.PLACE_DEFICIT
    F.PLACE_DEFICIT_OPEN = false) ∧
    (∃ (s : State) (w : RegWrite), Calm s ∧ Open s w.path R.PLACE_PIN_LIMIT) ∧
    (∃ (s : State) (w : RegWrite), Calm s ∧ Open s w.path R.PLACE_SPARE_RES) ∧
    (∃ (s : State) (w : RegWrite) (n : Nat), Calm s ∧ Open s w.path R.PLACE_WDR_CMD ∧ n = F.PLACE_WDR_CMD_PARCEL.get
    w.value ∧ F.PLACE_WDR_CMD_COUNT.get w.value = 0 ∧ n < s.parcels ∧ eState (s.entry n) = 4) ∧
    (∃ (s : State) (w : RegWrite) (n : Nat), Calm s ∧ Open s w.path R.PLACE_LOC_QUERY ∧ n =
    F.PLACE_LOC_QUERY_PARCEL.get w.value ∧ n < s.parcels) ∧
    (∃ (s : State) (w : RegWrite), Calm s ∧ Open s w.path R.PLACE_LOC_QUERY ∧ s.parcels ≤
    F.PLACE_LOC_QUERY_PARCEL.get w.value) ∧
    (∃ (s : State) (w : RegWrite), Calm s ∧ Open s w.path R.PLACE_WDR_FIND ∧ ((∀ e ∈ s.place.table, eState e.2 ≠
    4))) :=
  ⟨⟨((ready.flag R.PLACE_DEFICIT F.PLACE_DEFICIT_OPEN true).flag R.PLACE_WDR_CTL F.PLACE_WDR_CTL_AUTO_WDR false),
    by unfold Calm; decide +kernel⟩,
   ⟨(plc (((ready.flag R.PLACE_DEFICIT F.PLACE_DEFICIT_OPEN true).put R.PLACE_DEFICIT F.PLACE_DEFICIT_COUNT 1).flag R.PLACE_WDR_CTL F.PLACE_WDR_CTL_AUTO_WDR true) fun p => {p with table := [(2, mkEntry 2 0 false false false true),(3, mkEntry 3 0 true false false true)]}),
    2, by unfold Calm; decide +kernel⟩,
   ⟨(openPage ready 12), ⟨.pcie, 0xFFFF⟩, by unfold Open Calm; decide +kernel⟩,
   ⟨(openPage ready 12), ⟨.pcie, 0xFFFFFFFF⟩, by unfold Open Calm; decide +kernel⟩,
   ⟨(openPage ready 12), ⟨.gondola, 0xFFFFFFFF⟩, by unfold Open Calm; decide +kernel⟩,
   ⟨(plc (openPage ready 12) fun p => {p with table := [(2, eWithdrawn),(3, eWithdrawn)]}), ⟨.pcie, 2⟩, 2,
    by unfold Open Calm; decide +kernel⟩,
   ⟨(openPage ready 12), ⟨.pcie, 77⟩, 77, by unfold Open Calm; decide +kernel⟩,
   ⟨(openPage ready 12), ⟨.pcie, 0x1FFFFF⟩, by unfold Open Calm; decide +kernel⟩,
   ⟨(openPage ready 12), ⟨.pcie, 5⟩, by unfold Open Calm; decide +kernel⟩⟩

theorem witness_KeelArea :
    (∃ (s : State) (w : RegWrite), Calm s ∧ Open s w.path R.PLACE_JOURNAL_CTL ∧ s.place.laid = true) ∧
    (∃ (s : State), s.released = true ∧ s.place.laid = true ∧ s.fld R.PLACE_JOURNAL_CTL F.PLACE_JOURNAL_CTL_CKPT_S ≠
    0) ∧
    (∃ (s : State), s.fld R.PLACE_JOURNAL_CTL F.PLACE_JOURNAL_CTL_CKPT_S = 0) ∧
    (∃ (s : State) (slot : Nat), s.released = true ∧ s.place.ckptBusy = true ∧ slot = (if s.slotSeq 0 ≤ s.slotSeq 1
    then 0 else 1)) ∧
    (∃ (s : State) (b : Bool), Calm s ∧ s.released = true ∧ s.mirrorOk b = false ∧ s.mirrorOk (!b) = true ∧
    s.place.keelQ = [] ∧ s.place.keelLost = []) :=
  ⟨⟨(openPage ready 12 |>.wr R.XACT_VIS_LIMIT 7), ⟨.pcie, 0⟩, by unfold Open Calm; decide +kernel⟩,
   ⟨ready, by decide +kernel⟩,
   ⟨(ready.put R.PLACE_JOURNAL_CTL F.PLACE_JOURNAL_CTL_CKPT_S 0), by decide +kernel⟩,
   ⟨(plc (ready.setMirror false true) fun p => {p with ckptBusy := true, table := [(3,eWithdrawn)], frames := [(9,3)]}),
    0, by decide +kernel⟩,
   ⟨(plc ((ready.setMirror false true).setMirror true false) fun p => {p with journal := [(0,[5,4])]}), true,
    by unfold Calm; decide +kernel⟩⟩

theorem witness_WriteDrain :
    (∃ (s : State) (li : BitVec 31) (m : LookupIn) (l : Line), s.released = true ∧ NoFills s ∧ NoErr m ∧ s.place.mig
    = [] ∧ s.wdbLine li.toNat = some l ∧ eState (s.entry (liParcel li.toNat)) < 2 ∧ s.wdbScanned li.toNat = false ∧
    (s.cacheOn = false ∨ (s.sectorWay (s.liQuad li.toNat) li.toNat = none ∧ s.eligible li.toNat = false)) ∧
    s.writeRoom (eFrame (s.entry (liParcel li.toNat))) = true ∧ s.spare.unreadable.contains (fPc (eFrame (s.entry
    (liParcel li.toNat)))) = false) ∧
    (∃ (s : State) (li : BitVec 31) (m : LookupIn) (l : Line) (w : Nat) (k : Nat), s.released = true ∧ NoFills s ∧
    NoErr m ∧ s.place.mig = [] ∧ s.wdbLine li.toNat = some l ∧ eState (s.entry (liParcel li.toNat)) < 2 ∧ s.cacheOn
    = true ∧ s.sectorWay (s.liQuad li.toNat) li.toNat = some w ∧ s.bankActive (wayBank (s.liQuad li.toNat) w) = true
    ∧ k = wayKey (s.liQuad li.toNat) (cSet li.toNat) w) :=
  ⟨⟨(withWdb ready 70000 ⟨5,0⟩), 70000, noErr, ⟨5,0⟩, by unfold NoErr NoFills; decide +kernel⟩,
   ⟨(withWdb (inCache ready 70001 9 1 0 ⟨1,1⟩) 70001 ⟨5,0⟩), 70001, noErr, ⟨5,0⟩, 9, (keyOf ready 70001 9),
    by unfold NoErr NoFills; decide +kernel⟩⟩

theorem witness_CacheMaintenance :
    (∃ (s : State) (q : Fin 4) (m : LookupIn) (k : Nat), s.released = true ∧ NoFills s ∧ NoErr m ∧ s.place.mig = []
    ∧ s.cache.job = none ∧ s.cacheOn = true ∧ s.on R.CACHE_CACHE_CTL F.CACHE_CACHE_CTL_CLEAN_EN = true ∧ s.fld
    R.CACHE_DIRTY_CTL F.CACHE_DIRTY_CTL_DIRTY_HIGH * 1024 < s.fld (R.CACHE_DIRTY_LINES q) F.CACHE_DIRTY_LINES_COUNT
    ∧ (s.cache.order.find? (fun k => keyQuad k == q.val && tDirty (s.tag k) != 0 && !s.frameHeld (s.wayFrame k)) =
    some k) ∧ s.bgFits (64 * popcount4 (tDirty (s.tag k))) = true ∧ s.cache.flushQ = [] ∧ s.cache.prefetchQ = []) ∧
    (∃ (s : State) (w : RegWrite), Open s w.path R.CACHE_CACHE_CTL ∧ Calm s ∧ s.cacheOn = true ∧ s.cache.job = none
    ∧ s.on R.CACHE_CACHE_CTL F.CACHE_CACHE_CTL_ENABLE = true) ∧
    (∃ (s : State) (w : RegWrite), Open s w.path R.CACHE_CACHE_CTL ∧ Calm s ∧ s.cacheOn = true ∧ s.cache.job = none
    ∧ s.on R.CACHE_CACHE_CTL F.CACHE_CACHE_CTL_ENABLE = true) ∧
    (∃ (s : State) (w : RegWrite), Open s w.path R.CACHE_CACHE_CTL ∧ Calm s ∧ s.cacheOn = true ∧
    F.CACHE_CACHE_CTL_ENABLE.get w.value = 0) ∧
    (∃ (s : State) (q : Fin 4) (m : LookupIn) (j : FlushJob) (k : Nat), s.released = true ∧ NoFills s ∧ NoErr m ∧
    s.place.mig = [] ∧ s.cacheOn = true ∧ s.cache.job = some j ∧ ((∀ p : Fin 4, p ≠ q → p.val ∈ s.cache.jobDone)) ∧
    ((∀ e ∈ s.cache.tags, keyQuad e.1 = q.val → tDirty e.2 = 0)) ∧ s.on R.CACHE_CACHE_CTL F.CACHE_CACHE_CTL_CLEAN_EN
    = false ∧ s.cache.flushQ = [] ∧ s.cache.prefetchQ = [] ∧ keyQuad k = q.val ∧ ((∀ b : Fin 16, s.bankState b ≠
    1))) ∧
    (∃ (s : State) (w : RegWrite), Open s w.path R.CACHE_CACHE_CTL ∧ Calm s ∧ s.cacheOn = false ∧ s.on
    R.CACHE_CACHE_STAT F.CACHE_CACHE_STAT_DIE_RETIRED = false ∧ F.CACHE_CACHE_CTL_ENABLE.get w.value = 1 ∧
    F.CACHE_CACHE_CTL_FLUSH.get w.value = 0 ∧ F.CACHE_CACHE_CTL_INVALIDATE.get w.value = 0) :=
  ⟨⟨((noBg (inCache ready 70001 9 3 3 ⟨1,1⟩)).put R.CACHE_DIRTY_CTL F.CACHE_DIRTY_CTL_DIRTY_HIGH 0),
    (Fin.ofNat 4 (ready.liQuad 70001)), noErr, (keyOf ready 70001 9), by unfold NoErr NoFills; decide +kernel⟩,
   ⟨(openPage (inCache ready 70001 9 3 3 ⟨1,1⟩) 13), ⟨.pcie, 1⟩, by unfold Open Calm; decide +kernel⟩,
   ⟨(openPage (inCache ready 70001 9 3 3 ⟨1,1⟩) 13), ⟨.pcie, 1⟩, by unfold Open Calm; decide +kernel⟩,
   ⟨(openPage (inCache ready 70001 9 3 3 ⟨1,1⟩) 13), ⟨.pcie, 24⟩, by unfold Open Calm; decide +kernel⟩,
   ⟨(flushing .flush (inCache ready 70001 9 3 0 ⟨1,1⟩)), (Fin.ofNat 4 (ready.liQuad 70001)), noErr, .flush,
    (keyOf ready 70001 9), by unfold NoErr NoFills; decide +kernel⟩,
   ⟨(openPage ready 13), ⟨.pcie, 1⟩, by unfold Open Calm; decide +kernel⟩⟩

theorem witness_CacheLoss :
    (∃ (s : State) (path : Path) (b : Fin 16), Open s path R.CDIE_BANK_CMD ∧ Calm s ∧ s.bankState b = 0) ∧
    (∃ (s : State) (b : Fin 16) (c : Fin 16) (m : LookupIn) (k : Nat), s.released = true ∧ NoFills s ∧ NoErr m ∧
    Calm s ∧ s.place.mig = [] ∧ s.bankState b = 1 ∧ c ≠ b ∧ s.bankState c ≠ 2 ∧ keyBank k = b.val ∧ s.bufferRoom
    (256 * s.cache.tags.length) = true) ∧
    (∃ (s : State) (b : Fin 16) (li : BitVec 31) (k : Nat), s.released = true ∧ NoFills s ∧ s.place.mig = [] ∧
    s.cached li.toNat = some k ∧ keyBank k = b.val ∧ s.wdbLine li.toNat = none ∧ (tDirty (s.tag k)).testBit
    (li.toNat % 4) = false) ∧
    (∃ (s : State) (b : Fin 16) (li : BitVec 31) (k : Nat), s.released = true ∧ NoFills s ∧ s.place.mig = [] ∧
    s.cached li.toNat = some k ∧ keyBank k = b.val ∧ s.wdbLine li.toNat = none ∧ (tDirty (s.tag k)).testBit
    (li.toNat % 4) = true ∧ eState (s.entry (liParcel li.toNat)) = 0) ∧
    (∃ (s : State), Calm s ∧ s.place.mig = [] ∧ s.cacheOn = true ∧ (ways.filter s.bankActive).all
    s.cache.timedOut.contains = true ∧ s.on R.CACHE_CACHE_STAT F.CACHE_CACHE_STAT_DIE_RETIRED = false) :=
  ⟨⟨(openPage (ready.flag (R.CACHE_CACHE_STAT) F.CACHE_CACHE_STAT_PD_OFF false) 0x1D0), .pcie, 15,
    by unfold Open Calm; decide +kernel⟩,
   ⟨((inCache ready 70001 9 3 3 ⟨1,1⟩).put (R.CDIE_BANK_STAT (keyBank (keyOf ready 70001 9))) F.CDIE_BANK_STAT_STATE 1),
    (Fin.ofNat 16 (keyBank (keyOf ready 70001 9))), 0, noErr, (keyOf ready 70001 9),
    by unfold Calm NoErr NoFills; decide +kernel⟩,
   ⟨(inCache ready 70001 9 3 1 ⟨1,1⟩), (Fin.ofNat 16 (keyBank (keyOf ready 70001 9))), 70001,
    (keyOf ready 70001 9), by unfold NoFills; decide +kernel⟩,
   ⟨(inCache ready 70001 9 3 3 ⟨1,1⟩), (Fin.ofNat 16 (keyBank (keyOf ready 70001 9))), 70001,
    (keyOf ready 70001 9), by unfold NoFills; decide +kernel⟩,
   ⟨(let s := inCache ready 70001 9 3 3 ⟨1,1⟩; {s with cache := {s.cache with timedOut := [0,1,2,3,4,5,6,7,8,9,10,11,12,13,14,15]}}),
    by unfold Calm; decide +kernel⟩⟩

theorem witness_DramSchedule :
    (∃ (s : State) (c : Fin 32) (p : Bool) (k : Nat) (x : PCh) (r : DReq) (q : PCh), s.sliceOpen c = true ∧ s.rowRep
    c = none ∧ s.ctrlOf c = some k ∧ s.pchLive (2 * c + p.toNat) = true ∧ Quiet s ∧ x = s.pch (2 * c + p.toNat) ∧
    x.rq = [] ∧ x.wq = [r] ∧ x.scrub = [] ∧ x.refs = [] ∧ x.flight = [] ∧ x.pd = false ∧ x.wake ≤ x.now ∧ r.write =
    true ∧ fPc r.f = 2 * c + p.toNat ∧ q = x.tick (s.timing k c) ∧ (q.bank r.bank).st = 2 ∧ q.canWrite (s.timing k
    c) r = true ∧ q.colOpen (s.timing k c) r = true ∧ (x.bank r.bank).streak < s.streakMax k) ∧
    (∃ (s : State) (c : Fin 32) (p : Bool) (k : Nat) (x : PCh) (r : DReq) (q : PCh), s.sliceOpen c = true ∧ s.rowRep
    c = none ∧ s.ctrlOf c = some k ∧ s.pchLive (2 * c + p.toNat) = true ∧ Quiet s ∧ x = s.pch (2 * c + p.toNat) ∧
    x.rq = [r] ∧ x.wq = [] ∧ x.scrub = [] ∧ x.refs = [] ∧ x.flight = [] ∧ x.pd = false ∧ x.wake ≤ x.now ∧ r.write =
    false ∧ r.scrub = false ∧ x.writeMode = false ∧ q = x.tick (s.timing k c) ∧ q.canRead (s.timing k c) r = true ∧
    (q.bank r.bank).st = 2 ∧ q.colOpen (s.timing k c) r = true ∧ (x.bank r.bank).streak < s.streakMax k) ∧
    (∃ (s : State) (c : Fin 32) (p : Bool) (k : Nat) (x : PCh) (r : DReq) (q : PCh), s.sliceOpen c = true ∧ s.rowRep
    c = none ∧ s.ctrlOf c = some k ∧ s.pchLive (2 * c + p.toNat) = true ∧ Quiet s ∧ x = s.pch (2 * c + p.toNat) ∧
    x.rq = [r] ∧ x.wq = [] ∧ x.scrub = [] ∧ x.corr = [] ∧ x.refs = [] ∧ x.flight = [] ∧ x.pd = false ∧ x.wake ≤
    x.now ∧ r.write = false ∧ x.writeMode = false ∧ q = x.tick (s.timing k c) ∧ (q.bank r.bank).st = 0 ∧ q.canAct
    (s.timing k c) r = true ∧ q.colOpen (s.timing k c) r = true) ∧
    (∃ (s : State) (c : Fin 32) (p : Bool) (k : Nat) (x : PCh) (r : DReq) (q : PCh), s.sliceOpen c = true ∧ s.rowRep
    c = none ∧ s.ctrlOf c = some k ∧ s.pchLive (2 * c + p.toNat) = true ∧ Quiet s ∧ x = s.pch (2 * c + p.toNat) ∧
    x.rq = [r] ∧ x.wq = [] ∧ x.scrub = [] ∧ x.corr = [] ∧ x.refs = [] ∧ x.flight = [] ∧ x.pd = false ∧ x.wake ≤
    x.now ∧ r.write = false ∧ x.writeMode = false ∧ q = x.tick (s.timing k c) ∧ (q.bank r.bank).st = 2 ∧ (q.bank
    r.bank).row ≠ r.row ∧ q.canPre (s.timing k c) r.bank = true ∧ q.colOpen (s.timing k c) r = true) ∧
    (∃ (s : State) (c : Fin 32) (p : Bool) (k : Nat) (x : PCh) (r : Refresh) (q : PCh), s.sliceOpen c = true ∧
    s.rowRep c = none ∧ s.ctrlOf c = some k ∧ s.pchLive (2 * c + p.toNat) = true ∧ Quiet s ∧ x = s.pch (2 * c +
    p.toNat) ∧ x.rq = [] ∧ x.wq = [] ∧ x.scrub = [] ∧ x.corr = [] ∧ x.refs = [r] ∧ x.pd = false ∧ x.wake ≤ x.now ∧
    r.due = true ∧ r.row = none ∧ s.remapOf c = none ∧ q = x.tick (s.timing k c) ∧ q.canRef (s.timing k c) r.bank =
    true) ∧
    (∃ (s : State) (c : Fin 32), s.ctrlOf c = none ∧ s.rowRep c = none ∧ Quiet s) :=
  ⟨⟨(chan 37 {st := 2, row := fRow 37 3, act := 900} fun x => { x with wq := [(dq true 37 3)] }), 5, true, 5,
    ((chan 37 {st := 2, row := fRow 37 3, act := 900} fun x => { x with wq := [(dq true 37 3)] }).pch 11),
    (dq true 37 3),
    (((chan 37 {st := 2, row := fRow 37 3, act := 900} fun x => { x with wq := [(dq true 37 3)] }).pch 11).tick ((chan 37 {st := 2, row := fRow 37 3, act := 900} fun x => { x with wq := [(dq true 37 3)] }).timing 5 5)),
    by unfold Quiet; decide +kernel⟩,
   ⟨(chan 37 {st := 2, row := fRow 37 3, act := 900} fun x => { x with rq := [(dq false 37 3)] }), 5, true, 5,
    ((chan 37 {st := 2, row := fRow 37 3, act := 900} fun x => { x with rq := [(dq false 37 3)] }).pch 11),
    (dq false 37 3),
    (((chan 37 {st := 2, row := fRow 37 3, act := 900} fun x => { x with rq := [(dq false 37 3)] }).pch 11).tick ((chan 37 {st := 2, row := fRow 37 3, act := 900} fun x => { x with rq := [(dq false 37 3)] }).timing 5 5)),
    by unfold Quiet; decide +kernel⟩,
   ⟨(chan 37 {} fun x => { x with rq := [(dq false 37 3)] }), 5, true, 5,
    ((chan 37 {} fun x => { x with rq := [(dq false 37 3)] }).pch 11), (dq false 37 3),
    (((chan 37 {} fun x => { x with rq := [(dq false 37 3)] }).pch 11).tick ((chan 37 {} fun x => { x with rq := [(dq false 37 3)] }).timing 5 5)),
    by unfold Quiet; decide +kernel⟩,
   ⟨(chan 37 {st := 2, row := 77, act := 900} fun x => { x with rq := [(dq false 37 3)] }), 5, true, 5,
    ((chan 37 {st := 2, row := 77, act := 900} fun x => { x with rq := [(dq false 37 3)] }).pch 11),
    (dq false 37 3),
    (((chan 37 {st := 2, row := 77, act := 900} fun x => { x with rq := [(dq false 37 3)] }).pch 11).tick ((chan 37 {st := 2, row := 77, act := 900} fun x => { x with rq := [(dq false 37 3)] }).timing 5 5)),
    by unfold Quiet; decide +kernel⟩,
   ⟨(chan 37 {} fun x => { x with refs := [⟨0,true,none⟩] }), 5, true, 5,
    ((chan 37 {} fun x => { x with refs := [⟨0,true,none⟩] }).pch 11), ⟨0,true,none⟩,
    (((chan 37 {} fun x => { x with refs := [⟨0,true,none⟩] }).pch 11).tick ((chan 37 {} fun x => { x with refs := [⟨0,true,none⟩] }).timing 5 5)),
    by unfold Quiet; decide +kernel⟩,
   ⟨(ready.flag (R.CHC_CHAN_MAP 5) F.CHC_CHAN_MAP_ACTIVE false), 5, by unfold Quiet; decide +kernel⟩⟩

theorem witness_DramReturns :
    (∃ (s : State) (c : Fin 32) (p : Bool) (i : BurstIn) (j : BurstIn) (m : LookupIn) (x : DReq) (rest : List DReq)
    (r : Req) (n : Line), NoErr m ∧ NoFills s ∧ s.place.mig = [] ∧ Quiet s ∧ (s.pch (2 * c + p.toNat)).flight = x ::
    rest ∧ s.unreadable x.f = false ∧ x.scrub = false ∧ State.decodeRead (s.corrMax x.f) (s.retryEn x.f) (1024 * x.f
    + x.o) (s.burst x.f x.o x.line i) (s.burst x.f x.o x.line j) = { line := n } ∧ n.poisoned = false ∧
    (s.xact.reqs.find? (fun r => decide (r.id = x.req)) = some r) ∧ r.stage = .reading ∧ Plain r ∧ x.idx = 0 ∧
    r.lines = [none] ∧ (hArg r.header).testBit 0 = true) ∧
    (∃ (s : State) (c : Fin 32) (p : Bool) (i : BurstIn) (j : BurstIn) (m : LookupIn) (x : DReq) (rest : List DReq)
    (r : Req) (n : Line), NoErr m ∧ NoFills s ∧ s.place.mig = [] ∧ Quiet s ∧ (s.pch (2 * c + p.toNat)).flight = x ::
    rest ∧ s.unreadable x.f = false ∧ x.scrub = false ∧ (s.pch (2 * c + p.toNat)).rq = [] ∧ State.decodeRead
    (s.corrMax x.f) (s.retryEn x.f) (1024 * x.f + x.o) (s.burst x.f x.o x.line i) (s.burst x.f x.o x.line j) = {
    line := n, lost := true } ∧ fPc x.f = 2 * c + p.toNat ∧ s.superseded x = false ∧ s.cached (hAddr r.header) =
    none ∧ eHeld (s.live (hAddr r.header / 1024)) = true ∧ eFrame (s.live (hAddr r.header / 1024)) = x.f ∧
    (s.xact.reqs.find? (fun r => decide (r.id = x.req)) = some r) ∧ r.stage = .reading ∧ Plain r ∧ x.idx = 0 ∧
    r.lines = [none]) ∧
    (∃ (s : State) (c : Fin 32) (p : Bool) (i : BurstIn) (j : BurstIn) (x : DReq) (rest : List DReq) (n : Line) (b :
    List Nat), Quiet s ∧ (s.pch (2 * c + p.toNat)).flight = x :: rest ∧ s.unreadable x.f = false ∧ x.scrub = true ∧
    State.decodeRead (s.corrMax x.f) (s.retryEn x.f) (1024 * x.f + x.o) (s.burst x.f x.o x.line i) (s.burst x.f x.o
    x.line j) = { line := n, bytes := b } ∧ b ≠ [] ∧ fPc x.f = 2 * c + p.toNat ∧ s.superseded x = false ∧
    s.frameCode x.f ≠ 2) ∧
    (∃ (s : State) (c : Fin 32) (p : Bool), (s.pch (2 * c + p.toNat)).flight = [] ∧ Quiet s) ∧
    (∃ (s : State) (c : Fin 32) (p : Bool) (k : Nat) (x : PCh) (r : DReq) (q : PCh), s.sliceOpen c = true ∧ s.rowRep
    c = none ∧ s.ctrlOf c = some k ∧ s.pchLive (2 * c + p.toNat) = true ∧ Quiet s ∧ x = s.pch (2 * c + p.toNat) ∧
    x.rq = [] ∧ x.wq = [] ∧ x.scrub = [] ∧ x.refs = [] ∧ x.corr = [r] ∧ x.flight = [] ∧ x.pd = false ∧ x.wake ≤
    x.now ∧ r.write = true ∧ fPc r.f = 2 * c + p.toNat ∧ q = x.tick (s.timing k c) ∧ (q.bank r.bank).st = 2 ∧
    q.canWrite (s.timing k c) r = true ∧ q.colOpen (s.timing k c) r = true) ∧
    (∃ (s : State) (c : Fin 32) (p : Bool), (s.pch (2 * c + p.toNat)).corr = [] ∧ Quiet s) :=
  ⟨⟨(allDies (inFlight 37 3 7 false (parcelAt (reqs [reading 7 (hdr 1 3 5 4095 0 1 2051)]) 2 (mkEntry 37 0 true false false false)))),
    5, true, good, good, noErr, (fl 37 3 7 false), [{ write := false, f := 5, o := 9 }],
    (reading 7 (hdr 1 3 5 4095 0 1 2051)), ⟨0x1234,3⟩, by unfold NoErr Plain Quiet NoFills; decide +kernel⟩,
   ⟨(allDies (inFlight 37 3 7 false (parcelAt (reqs [reading 7 (hdr 1 3 5 4095 0 1 2051)]) 2 (mkEntry 37 0 true false false false)))),
    5, true, (flips 0x0102030405060708090A0B), (flips 0x0102030405060708090A0B), noErr, (fl 37 3 7 false),
    [{ write := false, f := 5, o := 9 }], (reading 7 (hdr 1 3 5 4095 0 1 2051)),
    (State.decodeRead ((inFlight 37 3 7 false (parcelAt (reqs [reading 7 (hdr 1 3 5 4095 0 1 2051)]) 2 (mkEntry 37 0 true false false false))).corrMax 37) ((inFlight 37 3 7 false (parcelAt (reqs [reading 7 (hdr 1 3 5 4095 0 1 2051)]) 2 (mkEntry 37 0 true false false false))).retryEn 37) (1024*37+3) ((inFlight 37 3 7 false (parcelAt (reqs [reading 7 (hdr 1 3 5 4095 0 1 2051)]) 2 (mkEntry 37 0 true false false false))).burst 37 3 ⟨0x1234,3⟩ (flips 0x0102030405060708090A0B)) ((inFlight 37 3 7 false (parcelAt (reqs [reading 7 (hdr 1 3 5 4095 0 1 2051)]) 2 (mkEntry 37 0 true false false false))).burst 37 3 ⟨0x1234,3⟩ (flips 0x0102030405060708090A0B))).line,
    by unfold NoErr Plain Quiet NoFills; decide +kernel⟩,
   ⟨(allDies (inFlight 37 3 0 true ready)), 5, true, (flips 0xFF), good, (fl 37 3 0 true),
    [{ write := false, f := 5, o := 9 }], ⟨0x1234,3⟩,
    (State.decodeRead ((inFlight 37 3 0 true ready).corrMax 37) ((inFlight 37 3 0 true ready).retryEn 37) (1024*37+3) ((inFlight 37 3 0 true ready).burst 37 3 ⟨0x1234,3⟩ (flips 0xFF)) ((inFlight 37 3 0 true ready).burst 37 3 ⟨0x1234,3⟩ good)).bytes,
    by unfold Quiet; decide +kernel⟩,
   ⟨ready, 5, true, by unfold Quiet; decide +kernel⟩,
   ⟨(chan 37 {st := 2, row := fRow 37 3, act := 900} fun x => { x with corr := [(dq true 37 3)] }), 5, true, 5,
    ((chan 37 {st := 2, row := fRow 37 3, act := 900} fun x => { x with corr := [(dq true 37 3)] }).pch 11),
    (dq true 37 3),
    (((chan 37 {st := 2, row := fRow 37 3, act := 900} fun x => { x with corr := [(dq true 37 3)] }).pch 11).tick ((chan 37 {st := 2, row := fRow 37 3, act := 900} fun x => { x with corr := [(dq true 37 3)] }).timing 5 5)),
    by unfold Quiet; decide +kernel⟩,
   ⟨ready, 5, true, by unfold Quiet; decide +kernel⟩⟩

theorem witness_RefreshAndSwap :
    (∃ (s : State) (c : Fin 32) (p : Bool) (k : Nat), s.released = true ∧ s.ctrlOf c = some k ∧ s.pchLive (2 * c +
    p.toNat) = true ∧ (s.pch (2 * c + p.toNat)).rq = [] ∧ (s.pch (2 * c + p.toNat)).wq = [] ∧ (s.pch (2 * c +
    p.toNat)).pd = false ∧ s.on (R.CHC_SCHED_CTL k) F.CHC_SCHED_CTL_PD_EN = true) ∧
    (∃ (s : State) (c : Fin 32) (p : Bool) (b : Fin 64), s.released = true ∧ s.pchLive (2 * c + p.toNat) = true ∧
    s.bankGone (2 * c + p.toNat) b = false) ∧
    (∃ (s : State) (c : Fin 32) (p : Bool) (b : Fin 64) (x : List Refresh) (y : List Refresh), s.released = true ∧
    s.pchLive (2 * c + p.toNat) = true ∧ (s.pch (2 * c + p.toNat)).refs = x ++ ⟨b, false, none⟩ :: y ∧ ((∀ r ∈ x,
    r.bank ≠ b.val ∨ r.due = true))) ∧
    (∃ (s : State) (d : Fin 16), s.dieReading d + (s.hystC : Nat) ≤ 85 ∧ s.forceStep = 0 ∧ 0 < s.dieStep d) ∧
    (∃ (s : State) (a : Fin 36) (b : Fin 36), s.released = true ∧ a.val / 9 = b.val / 9 ∧ s.on (R.CHC_CHAN_MAP a)
    F.CHC_CHAN_MAP_ACTIVE = true ∧ s.ctrlSpare b = true ∧ s.ch.swaps = []) ∧
    (∃ (s : State) (a : Fin 36) (b : Fin 36), Calm s ∧ s.released = true ∧ NoTest s ∧ a ≠ b ∧ s.ch.swaps = [(a.val,
    b.val)] ∧ s.declared (resCtrl a) = false ∧ ((∀ pc : Fin 64, (s.pch pc).rq = [] ∧ (s.pch pc).wq = []))) :=
  ⟨⟨(ready.flag (R.CHC_SCHED_CTL 5) F.CHC_SCHED_CTL_PD_EN true), 5, true, 5, by decide +kernel⟩,
   ⟨ready, 31, true, 63, by decide +kernel⟩,
   ⟨(ready.setPch 11 {refs := [⟨3,false,none⟩,⟨9,true,none⟩,⟨9,false,none⟩,⟨9,false,none⟩]}), 5, true, 9,
    [⟨3,false,none⟩,⟨9,true,none⟩], [⟨9,false,none⟩], by decide +kernel⟩,
   ⟨(ready.wr R.RFM_REF_STEP 0xAAAAAAAA), 0, by decide +kernel⟩,
   ⟨ready, 34, 35, by decide +kernel⟩,
   ⟨(swapping 34 35), 34, 35, by unfold Calm NoTest; decide +kernel⟩⟩

theorem witness_PhyAndRepairs :
    (∃ (s : State) (c : Fin 32) (p : Bool), s.on (R.CHP_PHY_CTL c) F.CHP_PHY_CTL_PERIODIC_EN = true ∧ s.on
    (R.CHP_PHY_CTL c) F.CHP_PHY_CTL_TRAIN_FREEZE = false ∧ s.released = true ∧ s.clk.dramInit = true ∧ s.pchRetired
    (2 * c + p.toNat) = false ∧ s.on R.CAL_CAL_STAT F.CAL_CAL_STAT_PENDING = false) ∧
    (∃ (s : State) (c : Fin 32) (w : RegWrite), Open s w.path (R.CHP_PHY_CTL c) ∧ Calm s ∧
    F.CHP_PHY_CTL_TRAIN_FREEZE.get w.value = 0 ∧ s.clk.dramInit = true ∧ s.released = true ∧ s.pchRetired (2 * c) =
    false ∧ s.pchRetired (2 * c + 1) = false ∧ s.on R.CAL_CAL_STAT F.CAL_CAL_STAT_PENDING = false) ∧
    (∃ (s : State) (c : Fin 32) (p : Bool) (x : TsvIn), Calm s ∧ s.released = true ∧ (s.pch (2 * c +
    p.toNat)).training = true ∧ x.failed = [] ∧ x.ckFailed = false ∧ (x.cal.all (fun v => decide (v.1.toNat < 58)) =
    true)) ∧
    (∃ (s : State) (c : Fin 32) (w : RegWrite) (i : Nat), Open s w.path (R.CHP_REMAP_CMD c) ∧ Calm s ∧ s.remapOf c =
    none ∧ F.CHP_REMAP_CMD_CLASS.get w.value = 0 ∧ (State.spareNums false).find? (s.spareFree (2 * c +
    F.CHP_REMAP_CMD_PCH.get w.value) false) = some i) ∧
    (∃ (s : State) (c : Fin 32) (p : Bool) (r : Remap), Calm s ∧ s.released = true ∧ s.remapOf c = some r ∧ r.p =
    p.toNat ∧ r.verified = false ∧ r.spare < 4 ∧ s.ch.remapQ = []) ∧
    (∃ (s : State) (c : Fin 32) (w : RegWrite) (f : Nat), Open s w.path (R.CHP_ROW_REPAIR_CMD c) ∧ Calm s ∧ s.rowRep
    c = none ∧ f = frameOfRow c (F.CHP_ROW_REPAIR_CMD_PCH.get w.value) (F.CHP_ROW_REPAIR_CMD_SID.get w.value)
    (F.CHP_ROW_REPAIR_CMD_BANK.get w.value) (F.CHP_ROW_REPAIR_CMD_ROW.get w.value) ∧ s.occupied f = true) ∧
    (∃ (s : State) (c : Fin 32) (w : RegWrite) (f : Nat), Open s w.path (R.CHP_ROW_REPAIR_CMD c) ∧ Calm s ∧ s.rowRep
    c = none ∧ f = frameOfRow c (F.CHP_ROW_REPAIR_CMD_PCH.get w.value) (F.CHP_ROW_REPAIR_CMD_SID.get w.value)
    (F.CHP_ROW_REPAIR_CMD_BANK.get w.value) (F.CHP_ROW_REPAIR_CMD_ROW.get w.value) ∧ s.frameCode f = 0 ∧
    s.rowsUsedOf (2 * c + F.CHP_ROW_REPAIR_CMD_PCH.get w.value) (16 * F.CHP_ROW_REPAIR_CMD_SID.get w.value +
    F.CHP_ROW_REPAIR_CMD_BANK.get w.value) < 4) ∧
    (∃ (s : State) (c : Fin 32) (r : RowRep), Calm s ∧ s.released = true ∧ s.rowRep c = some r) :=
  ⟨⟨(ready.flag (R.CHP_PHY_CTL 31) F.CHP_PHY_CTL_PERIODIC_EN true), 31, true, by decide +kernel⟩,
   ⟨(openPage ready (0x140+31)), 31, ⟨.pcie,1⟩, by unfold Open Calm; decide +kernel⟩,
   ⟨(ready.setPch 63 {training := true}), 31, true, ⟨[],false,[(57,5),(0,4)],[]⟩, by unfold Calm; decide +kernel⟩,
   ⟨(openPage ready (0x140+31)), 31, ⟨.pcie, 0x0F01⟩, 0, by unfold Open Calm; decide +kernel⟩,
   ⟨(chf ready fun c => {c with remap := [(31, some ⟨1,true,3,1,false⟩)]}), 31, true, ⟨1,true,3,1,false⟩,
    by unfold Calm; decide +kernel⟩,
   ⟨(openPage (plc ready fun p => { p with frames := [(frameOfRow 31 0 0 0 0, 1)] }) (0x140+31)), 31, ⟨.pcie, 0⟩,
    (frameOfRow 31 0 0 0 0), by unfold Open Calm; decide +kernel⟩,
   ⟨(openPage (plc ready fun p => { p with frames := [(frameOfRow 31 0 0 0 0, 0)] }) (0x140+31)), 31, ⟨.pcie, 0⟩,
    (frameOfRow 31 0 0 0 0), by unfold Open Calm; decide +kernel⟩,
   ⟨(chf ready fun c => {c with repair := [(31, some ⟨1,3,15,4095⟩)]}), 31, ⟨1,3,15,4095⟩,
    by unfold Calm; decide +kernel⟩⟩

theorem witness_Scrub :
    (∃ (s : State) (c : Fin 32) (p : Bool) (i : Nat), s.released = true ∧ s.pchLive (2 * c + p.toNat) = true ∧
    s.ch.scrubRun = none ∧ s.on R.SCRUB_SCRUB_CTL F.SCRUB_SCRUB_CTL_EN = true ∧ s.ch.walked = [] ∧ (s.nextRow (2 * c
    + p.toNat) 33000 (SMap.get (fun _ => 0) s.ch.walk (2 * c + p.toNat)) = some i)) ∧
    (∃ (s : State) (b : Fin 16) (i : Nat), s.released = true ∧ s.on R.SCRUB_SCRUB_CTL F.SCRUB_SCRUB_CTL_CACHE_EN =
    true ∧ s.cacheOn = true ∧ s.bankActive b = true ∧ s.place.mig = [] ∧ s.ch.walked = [] ∧ (i = SMap.get (fun _ =>
    0) s.ch.walk (64 + b)) ∧ i < 65535) ∧
    (∃ (s : State) (c : Fin 32) (p : Bool) (x : PCh) (n : Nat), s.released = true ∧ x = s.pch (2 * c + p.toNat) ∧
    x.scrub ≠ [] ∧ n = 64 - x.rq.length) ∧
    (∃ (s : State) (w : RegWrite), Open s w.path R.SCRUB_SCRUB_CMD ∧ Calm s ∧ s.on R.SCRUB_SCRUB_STAT
    F.SCRUB_SCRUB_STAT_CMD_BUSY = false) ∧
    (∃ (s : State) (w : RegWrite), Open s w.path R.SCRUB_SCRUB_CMD ∧ Calm s ∧ s.on R.SCRUB_SCRUB_STAT
    F.SCRUB_SCRUB_STAT_CMD_BUSY = true) ∧
    (∃ (s : State) (r : ScrubRun), s.ch.scrubRun = some r ∧ s.scrubComplete r = false) ∧
    (∃ (s : State) (r : ScrubRun), s.released = true ∧ s.ch.scrubRun = some r ∧ r.retest = false ∧ s.scrubComplete r
    = true) :=
  ⟨⟨(ready.flag R.SCRUB_SCRUB_CTL F.SCRUB_SCRUB_CTL_EN true), 31, true, 0, by decide +kernel⟩,
   ⟨((ready.flag R.SCRUB_SCRUB_CTL F.SCRUB_SCRUB_CTL_CACHE_EN true).flag R.CACHE_CACHE_STAT F.CACHE_CACHE_STAT_ENABLED true),
    15, 0, by decide +kernel⟩,
   ⟨(ready.setPch 63 {scrub := [dq false 37 3], rq := [dq false 37 4]}), 31, true,
    { scrub := [dq false 37 3], rq := [dq false 37 4] }, 63, by decide +kernel⟩,
   ⟨(openPage ready 0x16), ⟨.pcie, 0xFFFFFFFF⟩, by unfold Open Calm; decide +kernel⟩,
   ⟨(openPage (ready.flag R.SCRUB_SCRUB_STAT F.SCRUB_SCRUB_STAT_CMD_BUSY true) 0x16), ⟨.pcie, 1⟩,
    by unfold Open Calm; decide +kernel⟩,
   ⟨(chf ready fun c => {c with scrubRun := some ⟨3,4,false,77⟩}), ⟨3,4,false,77⟩, by decide +kernel⟩,
   ⟨(chf ready fun c => {c with scrubRun := some ⟨3,4,false,256⟩}), ⟨3,4,false,256⟩, by decide +kernel⟩⟩

theorem witness_WorkRuns :
    (∃ (s : State) (e : Fin 36) (w : Work) (r : Req), s.released = true ∧ s.engState e = 1 ∧ s.on (R.ENG_ENG_CTL e)
    F.ENG_ENG_CTL_EN = true ∧ s.eng.works = [w] ∧ w.engine = some e.val ∧ w.phase = .queued ∧ w.ended = none ∧
    w.takeover = false ∧ s.xact.reqs = [r] ∧ r.id = w.req ∧ r.begun = false ∧ s.mayPerform r = true) ∧
    (∃ (s : State) (e : Fin 36) (m : LookupIn) (w : Work), (s.released = true ∧ NoErr m ∧ (s.cacheOn = false ∨
    w.d.noAlloc = true) ∧ w.d.noHeat = true ∧ s.engState e = 3 ∧ s.eng.works = [w] ∧ w.engine = some e.val ∧ w.phase
    = .precheck ∧ w.ended = none ∧ (s.engPay w (s.linesOfAddrs (State.precheckReads w.d)).length).1 = true ∧
    s.engWaits (State.precheckReads w.d) = false ∧ ((∀ x ∈ s.place.table, eState x.2 ≠ 5)) ∧ precheck w.d s.engRead
    s.engWriteFault = none) ∧ Readable s) ∧
    (∃ (s : State) (e : Fin 36) (m : LookupIn) (w : Work) (r : Req) (code : Nat) (i : Nat) (a : Int), (s.released =
    true ∧ NoErr m ∧ (s.cacheOn = false ∨ w.d.noAlloc = true) ∧ w.d.noHeat = true ∧ Calm s ∧ NoTest s ∧ s.eng.works
    = [w] ∧ w.engine = some e.val ∧ w.phase = .precheck ∧ w.ended = none ∧ w.stopBy = [] ∧ (s.engPay w
    (s.linesOfAddrs (State.precheckReads w.d)).length).1 = true ∧ s.engWaits (State.precheckReads w.d) = false ∧ ((∀
    x ∈ s.place.table, eState x.2 ≠ 5)) ∧ s.xact.reqs = [r] ∧ r.id = w.req ∧ r.silent = false ∧ precheck w.d
    s.engRead s.engWriteFault = some (code, i, a)) ∧ Readable s) ∧
    (∃ (s : State) (e : Fin 36) (m : LookupIn) (w : Work) (c : ChunkSt), (s.released = true ∧ NoErr m ∧ (s.cacheOn =
    false ∨ w.d.noAlloc = true) ∧ w.d.noHeat = true ∧ s.eng.works = [w] ∧ w.engine = some e.val ∧ w.phase = .running
    ∧ w.ended = none ∧ w.stopBy = [] ∧ w.moving = false ∧ s.eng.records = [] ∧ s.engWaits (s.chunkAddrs w) = false ∧
    (s.engPay w ((s.indexLines w).length + (s.otherLines w).length)).1 = true ∧ ((∀ x ∈ s.place.table, eState x.2 ≠
    5)) ∧ (c = runChunk w.d s.engRead s.engWriteFault (fun i => (Config.freeLine (s.free + 2 ^ 31 + i)).toNat) w.run
    w.committed) ∧ (c.abort = none ∨ w.committed ≠ 0) ∧ c.out ≠ [] ∧ w.d.eop ≠ 19 ∧ w.committed + 1 < w.d.chunks) ∧
    Readable s) ∧
    (∃ (s : State) (e : Fin 36) (m : LookupIn) (w : Work) (r : Req) (c : ChunkSt), (s.released = true ∧ NoErr m ∧
    (s.cacheOn = false ∨ w.d.noAlloc = true) ∧ w.d.noHeat = true ∧ Calm s ∧ NoTest s ∧ s.eng.works = [w] ∧ w.engine
    = some e.val ∧ w.phase = .running ∧ w.ended = none ∧ w.stopBy = [] ∧ w.moving = false ∧ s.eng.records = [] ∧
    s.engWaits (s.chunkAddrs w) = false ∧ (s.engPay w ((s.indexLines w).length + (s.otherLines w).length)).1 = true
    ∧ ((∀ x ∈ s.place.table, eState x.2 ≠ 5)) ∧ s.xact.reqs = [r] ∧ r.id = w.req ∧ r.silent = false ∧ (c = runChunk
    w.d s.engRead s.engWriteFault (fun i => (Config.freeLine (s.free + 2 ^ 31 + i)).toNat) w.run w.committed) ∧
    (c.abort = none ∨ w.committed ≠ 0) ∧ c.out = [] ∧ w.d.chunks = w.committed + 1) ∧ Readable s) ∧
    (∃ (s : State) (q : Fin 4) (m : LookupIn) (w : Work) (r : CommitRec) (li : Nat) (k : LineData) (v : LineData) (p
    : Bool) (i : List (Nat × Nat)) (l : Line), s.released = true ∧ NoErr m ∧ s.atomWaits li = false ∧ s.eng.works =
    [w] ∧ s.eng.records = [r] ∧ r.quad = q.val ∧ r.req = w.req ∧ w.ended = none ∧ r.entries = [.write li k v p i] ∧
    eState (s.entry (liParcel li)) < 2 ∧ s.migOf (liParcel li) = none ∧ s.wdbLine li = some l) :=
  ⟨⟨(engS ({req := 7, header := hdr 7 3 5 4095 0 0 0, d := {eop := 2, etype := 8, xtype := 0, subop := 0, rmode := 0, noHeat := true, noAlloc := true, precheck := false, ctag := 2748, count := 5, strideA := 0, srcA := 65536, paramB := 0, srcB := 0, strideD := 0, dst := 131072, imm := 0}, quad := 1, engine := some 9, phase := .queued} : Work) 9 1),
    9,
    ({req := 7, header := hdr 7 3 5 4095 0 0 0, d := {eop := 2, etype := 8, xtype := 0, subop := 0, rmode := 0, noHeat := true, noAlloc := true, precheck := false, ctag := 2748, count := 5, strideA := 0, srcA := 65536, paramB := 0, srcB := 0, strideD := 0, dst := 131072, imm := 0}, quad := 1, engine := some 9, phase := .queued} : Work),
    (rq 7 (hdr 7 3 5 4095 0 0 0)), by decide +kernel⟩,
   ⟨(engS ({req := 7, header := hdr 7 3 5 4095 0 0 0, d := {eop := 6, etype := 8, xtype := 2, subop := 0, rmode := 0, noHeat := true, noAlloc := true, precheck := true, ctag := 2748, count := 5, strideA := 0, srcA := 65536, paramB := 0, srcB := 4096, strideD := 0, dst := 131072, imm := 0}, quad := 1, engine := some 9, phase := .precheck} : Work) 9 3),
    9, noErr,
    ({req := 7, header := hdr 7 3 5 4095 0 0 0, d := {eop := 6, etype := 8, xtype := 2, subop := 0, rmode := 0, noHeat := true, noAlloc := true, precheck := true, ctag := 2748, count := 5, strideA := 0, srcA := 65536, paramB := 0, srcB := 4096, strideD := 0, dst := 131072, imm := 0}, quad := 1, engine := some 9, phase := .precheck} : Work),
    by unfold NoErr; exact ⟨by decide +kernel, readable_of (by decide +kernel) (by decide +kernel)⟩⟩,
   ⟨(engS ({req := 7, header := hdr 7 3 5 4095 0 0 0, d := {eop := 6, etype := 8, xtype := 2, subop := 0, rmode := 0, noHeat := true, noAlloc := true, precheck := true, ctag := 2748, count := 5, strideA := 0, srcA := 137438953464, paramB := 0, srcB := 4096, strideD := 0, dst := 131072, imm := 0}, quad := 1, engine := some 9, phase := .precheck} : Work) 9 3),
    9, noErr,
    ({req := 7, header := hdr 7 3 5 4095 0 0 0, d := {eop := 6, etype := 8, xtype := 2, subop := 0, rmode := 0, noHeat := true, noAlloc := true, precheck := true, ctag := 2748, count := 5, strideA := 0, srcA := 137438953464, paramB := 0, srcB := 4096, strideD := 0, dst := 131072, imm := 0}, quad := 1, engine := some 9, phase := .precheck} : Work),
    (rq 7 (hdr 7 3 5 4095 0 0 0)),
    (errOf (engS ({req := 7, header := hdr 7 3 5 4095 0 0 0, d := {eop := 6, etype := 8, xtype := 2, subop := 0, rmode := 0, noHeat := true, noAlloc := true, precheck := true, ctag := 2748, count := 5, strideA := 0, srcA := 137438953464, paramB := 0, srcB := 4096, strideD := 0, dst := 131072, imm := 0}, quad := 1, engine := some 9, phase := .precheck} : Work) 9 3) ({req := 7, header := hdr 7 3 5 4095 0 0 0, d := {eop := 6, etype := 8, xtype := 2, subop := 0, rmode := 0, noHeat := true, noAlloc := true, precheck := true, ctag := 2748, count := 5, strideA := 0, srcA := 137438953464, paramB := 0, srcB := 4096, strideD := 0, dst := 131072, imm := 0}, quad := 1, engine := some 9, phase := .precheck} : Work)).1,
    (errOf (engS ({req := 7, header := hdr 7 3 5 4095 0 0 0, d := {eop := 6, etype := 8, xtype := 2, subop := 0, rmode := 0, noHeat := true, noAlloc := true, precheck := true, ctag := 2748, count := 5, strideA := 0, srcA := 137438953464, paramB := 0, srcB := 4096, strideD := 0, dst := 131072, imm := 0}, quad := 1, engine := some 9, phase := .precheck} : Work) 9 3) ({req := 7, header := hdr 7 3 5 4095 0 0 0, d := {eop := 6, etype := 8, xtype := 2, subop := 0, rmode := 0, noHeat := true, noAlloc := true, precheck := true, ctag := 2748, count := 5, strideA := 0, srcA := 137438953464, paramB := 0, srcB := 4096, strideD := 0, dst := 131072, imm := 0}, quad := 1, engine := some 9, phase := .precheck} : Work)).2.1,
    (errOf (engS ({req := 7, header := hdr 7 3 5 4095 0 0 0, d := {eop := 6, etype := 8, xtype := 2, subop := 0, rmode := 0, noHeat := true, noAlloc := true, precheck := true, ctag := 2748, count := 5, strideA := 0, srcA := 137438953464, paramB := 0, srcB := 4096, strideD := 0, dst := 131072, imm := 0}, quad := 1, engine := some 9, phase := .precheck} : Work) 9 3) ({req := 7, header := hdr 7 3 5 4095 0 0 0, d := {eop := 6, etype := 8, xtype := 2, subop := 0, rmode := 0, noHeat := true, noAlloc := true, precheck := true, ctag := 2748, count := 5, strideA := 0, srcA := 137438953464, paramB := 0, srcB := 4096, strideD := 0, dst := 131072, imm := 0}, quad := 1, engine := some 9, phase := .precheck} : Work)).2.2,
    by unfold Calm NoTest NoErr; exact ⟨by decide +kernel, readable_of (by decide +kernel) (by decide +kernel)⟩⟩,
   ⟨(engS ({req := 7, header := hdr 7 3 5 4095 0 0 0, d := {eop := 1, etype := 8, xtype := 0, subop := 0, rmode := 0, noHeat := true, noAlloc := true, precheck := false, ctag := 2748, count := 5000, strideA := 0, srcA := 65536, paramB := 0, srcB := 0, strideD := 0, dst := 131072, imm := 0}, quad := 1, engine := some 9, phase := .running, committed := 1} : Work) 9 2),
    9, noErr,
    ({req := 7, header := hdr 7 3 5 4095 0 0 0, d := {eop := 1, etype := 8, xtype := 0, subop := 0, rmode := 0, noHeat := true, noAlloc := true, precheck := false, ctag := 2748, count := 5000, strideA := 0, srcA := 65536, paramB := 0, srcB := 0, strideD := 0, dst := 131072, imm := 0}, quad := 1, engine := some 9, phase := .running, committed := 1} : Work),
    (runChunk ({req := 7, header := hdr 7 3 5 4095 0 0 0, d := {eop := 1, etype := 8, xtype := 0, subop := 0, rmode := 0, noHeat := true, noAlloc := true, precheck := false, ctag := 2748, count := 5000, strideA := 0, srcA := 65536, paramB := 0, srcB := 0, strideD := 0, dst := 131072, imm := 0}, quad := 1, engine := some 9, phase := .running, committed := 1} : Work).d (engS ({req := 7, header := hdr 7 3 5 4095 0 0 0, d := {eop := 1, etype := 8, xtype := 0, subop := 0, rmode := 0, noHeat := true, noAlloc := true, precheck := false, ctag := 2748, count := 5000, strideA := 0, srcA := 65536, paramB := 0, srcB := 0, strideD := 0, dst := 131072, imm := 0}, quad := 1, engine := some 9, phase := .running, committed := 1} : Work) 9 2).engRead (engS ({req := 7, header := hdr 7 3 5 4095 0 0 0, d := {eop := 1, etype := 8, xtype := 0, subop := 0, rmode := 0, noHeat := true, noAlloc := true, precheck := false, ctag := 2748, count := 5000, strideA := 0, srcA := 65536, paramB := 0, srcB := 0, strideD := 0, dst := 131072, imm := 0}, quad := 1, engine := some 9, phase := .running, committed := 1} : Work) 9 2).engWriteFault (fun i => (Config.freeLine ((engS ({req := 7, header := hdr 7 3 5 4095 0 0 0, d := {eop := 1, etype := 8, xtype := 0, subop := 0, rmode := 0, noHeat := true, noAlloc := true, precheck := false, ctag := 2748, count := 5000, strideA := 0, srcA := 65536, paramB := 0, srcB := 0, strideD := 0, dst := 131072, imm := 0}, quad := 1, engine := some 9, phase := .running, committed := 1} : Work) 9 2).free + 2 ^ 31 + i)).toNat) ({req := 7, header := hdr 7 3 5 4095 0 0 0, d := {eop := 1, etype := 8, xtype := 0, subop := 0, rmode := 0, noHeat := true, noAlloc := true, precheck := false, ctag := 2748, count := 5000, strideA := 0, srcA := 65536, paramB := 0, srcB := 0, strideD := 0, dst := 131072, imm := 0}, quad := 1, engine := some 9, phase := .running, committed := 1} : Work).run ({req := 7, header := hdr 7 3 5 4095 0 0 0, d := {eop := 1, etype := 8, xtype := 0, subop := 0, rmode := 0, noHeat := true, noAlloc := true, precheck := false, ctag := 2748, count := 5000, strideA := 0, srcA := 65536, paramB := 0, srcB := 0, strideD := 0, dst := 131072, imm := 0}, quad := 1, engine := some 9, phase := .running, committed := 1} : Work).committed),
    by unfold NoErr; refine ⟨⟨?_, ?_, ?_, ?_, ?_, ?_, ?_, ?_, ?_, ?_, ?_, ?_, ?_, ?_, rfl, Or.inr ?_, ?_, ?_, ?_⟩, readable_of ?_ ?_⟩ <;> decide +kernel⟩,
   ⟨(engS ({req := 7, header := hdr 7 3 5 4095 0 0 0, d := {eop := 8, etype := 8, xtype := 0, subop := 0, rmode := 0, noHeat := true, noAlloc := true, precheck := false, ctag := 2748, count := 5, strideA := 0, srcA := 65536, paramB := 0, srcB := 0, strideD := 0, dst := 131072, imm := 0}, quad := 1, engine := some 9, phase := .running} : Work) 9 2),
    9, noErr,
    ({req := 7, header := hdr 7 3 5 4095 0 0 0, d := {eop := 8, etype := 8, xtype := 0, subop := 0, rmode := 0, noHeat := true, noAlloc := true, precheck := false, ctag := 2748, count := 5, strideA := 0, srcA := 65536, paramB := 0, srcB := 0, strideD := 0, dst := 131072, imm := 0}, quad := 1, engine := some 9, phase := .running} : Work),
    (rq 7 (hdr 7 3 5 4095 0 0 0)),
    (runChunk ({req := 7, header := hdr 7 3 5 4095 0 0 0, d := {eop := 8, etype := 8, xtype := 0, subop := 0, rmode := 0, noHeat := true, noAlloc := true, precheck := false, ctag := 2748, count := 5, strideA := 0, srcA := 65536, paramB := 0, srcB := 0, strideD := 0, dst := 131072, imm := 0}, quad := 1, engine := some 9, phase := .running} : Work).d (engS ({req := 7, header := hdr 7 3 5 4095 0 0 0, d := {eop := 8, etype := 8, xtype := 0, subop := 0, rmode := 0, noHeat := true, noAlloc := true, precheck := false, ctag := 2748, count := 5, strideA := 0, srcA := 65536, paramB := 0, srcB := 0, strideD := 0, dst := 131072, imm := 0}, quad := 1, engine := some 9, phase := .running} : Work) 9 2).engRead (engS ({req := 7, header := hdr 7 3 5 4095 0 0 0, d := {eop := 8, etype := 8, xtype := 0, subop := 0, rmode := 0, noHeat := true, noAlloc := true, precheck := false, ctag := 2748, count := 5, strideA := 0, srcA := 65536, paramB := 0, srcB := 0, strideD := 0, dst := 131072, imm := 0}, quad := 1, engine := some 9, phase := .running} : Work) 9 2).engWriteFault (fun i => (Config.freeLine ((engS ({req := 7, header := hdr 7 3 5 4095 0 0 0, d := {eop := 8, etype := 8, xtype := 0, subop := 0, rmode := 0, noHeat := true, noAlloc := true, precheck := false, ctag := 2748, count := 5, strideA := 0, srcA := 65536, paramB := 0, srcB := 0, strideD := 0, dst := 131072, imm := 0}, quad := 1, engine := some 9, phase := .running} : Work) 9 2).free + 2 ^ 31 + i)).toNat) ({req := 7, header := hdr 7 3 5 4095 0 0 0, d := {eop := 8, etype := 8, xtype := 0, subop := 0, rmode := 0, noHeat := true, noAlloc := true, precheck := false, ctag := 2748, count := 5, strideA := 0, srcA := 65536, paramB := 0, srcB := 0, strideD := 0, dst := 131072, imm := 0}, quad := 1, engine := some 9, phase := .running} : Work).run ({req := 7, header := hdr 7 3 5 4095 0 0 0, d := {eop := 8, etype := 8, xtype := 0, subop := 0, rmode := 0, noHeat := true, noAlloc := true, precheck := false, ctag := 2748, count := 5, strideA := 0, srcA := 65536, paramB := 0, srcB := 0, strideD := 0, dst := 131072, imm := 0}, quad := 1, engine := some 9, phase := .running} : Work).committed),
    by unfold Calm NoTest NoErr; exact ⟨by decide +kernel, readable_of (by decide +kernel) (by decide +kernel)⟩⟩,
   ⟨(withWdb {(engS ({req := 7, header := hdr 7 3 5 4095 0 0 0, d := {eop := 2, etype := 8, xtype := 0, subop := 0, rmode := 0, noHeat := true, noAlloc := true, precheck := false, ctag := 2748, count := 5, strideA := 0, srcA := 65536, paramB := 0, srcB := 0, strideD := 0, dst := 131072, imm := 0}, quad := 1, engine := some 9, phase := .running, ended := none} : Work) 9 2) with eng := {works := [({req := 7, header := hdr 7 3 5 4095 0 0 0, d := {eop := 2, etype := 8, xtype := 0, subop := 0, rmode := 0, noHeat := true, noAlloc := true, precheck := false, ctag := 2748, count := 5, strideA := 0, srcA := 65536, paramB := 0, srcB := 0, strideD := 0, dst := 131072, imm := 0}, quad := 1, engine := some 9, phase := .running} : Work)], records := [⟨7,1,[.write 4096 0xFF00 0x1200 true [(3,262144)]]⟩]}} 4096 ⟨0x5555,0x43⟩),
    1, noErr,
    ({req := 7, header := hdr 7 3 5 4095 0 0 0, d := {eop := 2, etype := 8, xtype := 0, subop := 0, rmode := 0, noHeat := true, noAlloc := true, precheck := false, ctag := 2748, count := 5, strideA := 0, srcA := 65536, paramB := 0, srcB := 0, strideD := 0, dst := 131072, imm := 0}, quad := 1, engine := some 9, phase := .running} : Work),
    ⟨7,1,[.write 4096 0xFF00 0x1200 true [(3,262144)]]⟩, 4096, 0xFF00, 0x1200, true, [(3,262144)], ⟨0x5555,0x43⟩,
    by unfold NoErr; decide +kernel⟩⟩

theorem witness_EngineFailures :
    (∃ (s : State) (e : Fin 36), s.released = true ∧ Calm s ∧ NoTest s ∧ s.eng.works = [] ∧ 1 ≤ s.engState e ∧
    s.engState e ≤ 3) ∧
    (∃ (s : State) (e : Fin 36) (x : Fin 36) (w : Work), s.released = true ∧ Calm s ∧ NoTest s ∧ s.eng.works = [w] ∧
    w.engine = some e.val ∧ w.phase = .running ∧ w.ended = none ∧ w.quad = x.val / 9 ∧ e ≠ x ∧ 1 ≤ s.engState e ∧
    s.engState e ≤ 3 ∧ (s.setEngState e 4).takeoverFor w e true = some x.val) ∧
    (∃ (s : State) (e : Fin 36) (w : Work), s.released = true ∧ Calm s ∧ NoTest s ∧ s.eng.works = [w] ∧ w.engine =
    some e.val ∧ w.phase = .running ∧ w.ended = none ∧ s.engHold w.header = false ∧ 1 ≤ s.engState e ∧ s.engState e
    ≤ 3) ∧
    (∃ (s : State) (q : Fin 4) (w : RegWrite), Open s w.path (R.QUAD_CANCEL q) ∧ Calm s ∧ ((∀ x ∈ s.eng.works, hTag
    x.header ≠ F.QUAD_CANCEL_TAG.get w.value))) ∧
    (∃ (s : State) (q : Fin 4) (w : RegWrite) (x : Work) (r : Req), Open s w.path (R.QUAD_CANCEL q) ∧ Calm s ∧
    s.eng.works = [x] ∧ hTag x.header = F.QUAD_CANCEL_TAG.get w.value ∧ x.ended = none ∧ x.committed = 0 ∧ x.stopBy
    = [] ∧ s.xact.reqs = [r] ∧ r.id = x.req ∧ r.silent = false) ∧
    (∃ (s : State) (q : Fin 4) (w : RegWrite) (x : Work), Open s w.path (R.QUAD_CANCEL q) ∧ Calm s ∧ s.eng.works =
    [x] ∧ hTag x.header = F.QUAD_CANCEL_TAG.get w.value ∧ x.ended = none ∧ x.committed ≠ 0 ∧ x.phase = .running) ∧
    (∃ (s : State) (e : Fin 36), Calm s ∧ NoTest s ∧ s.released = true ∧ s.engState e = 0 ∧ s.eng.works = []) ∧
    (∃ (s : State) (k : Fin 36), s.ctrlSpare k = true) :=
  ⟨⟨(visible ready |>.setEngState 35 1), 35, by unfold Calm NoTest; decide +kernel⟩,
   ⟨((engS ({req := 7, header := hdr 7 3 5 4095 0 0 0, d := {eop := 2, etype := 8, xtype := 0, subop := 0, rmode := 0, noHeat := true, noAlloc := true, precheck := false, ctag := 2748, count := 5, strideA := 0, srcA := 65536, paramB := 0, srcB := 0, strideD := 0, dst := 131072, imm := 0}, quad := 1, engine := some 9, phase := .running} : Work) 9 2).setEngState 17 1 |>.flag (R.ENG_ENG_CTL 17) F.ENG_ENG_CTL_EN true),
    9, 17,
    ({req := 7, header := hdr 7 3 5 4095 0 0 0, d := {eop := 2, etype := 8, xtype := 0, subop := 0, rmode := 0, noHeat := true, noAlloc := true, precheck := false, ctag := 2748, count := 5, strideA := 0, srcA := 65536, paramB := 0, srcB := 0, strideD := 0, dst := 131072, imm := 0}, quad := 1, engine := some 9, phase := .running} : Work),
    by unfold Calm NoTest; decide +kernel⟩,
   ⟨(engS ({req := 7, header := hdr 7 3 5 4095 0 0 0, d := {eop := 2, etype := 8, xtype := 0, subop := 0, rmode := 0, noHeat := true, noAlloc := true, precheck := false, ctag := 2748, count := 5, strideA := 0, srcA := 65536, paramB := 0, srcB := 0, strideD := 0, dst := 131072, imm := 0}, quad := 1, engine := some 9, phase := .running} : Work) 9 2),
    9,
    ({req := 7, header := hdr 7 3 5 4095 0 0 0, d := {eop := 2, etype := 8, xtype := 0, subop := 0, rmode := 0, noHeat := true, noAlloc := true, precheck := false, ctag := 2748, count := 5, strideA := 0, srcA := 65536, paramB := 0, srcB := 0, strideD := 0, dst := 131072, imm := 0}, quad := 1, engine := some 9, phase := .running} : Work),
    by unfold Calm NoTest; decide +kernel⟩,
   ⟨(openPage (engS ({req := 7, header := hdr 7 3 5 4095 0 0 0, d := {eop := 2, etype := 8, xtype := 0, subop := 0, rmode := 0, noHeat := true, noAlloc := true, precheck := false, ctag := 2748, count := 5, strideA := 0, srcA := 65536, paramB := 0, srcB := 0, strideD := 0, dst := 131072, imm := 0}, quad := 1, engine := some 9, phase := .running} : Work) 9 2) 0x41),
    1, ⟨.pcie, 5⟩, by unfold Open Calm; decide +kernel⟩,
   ⟨(openPage (engS ({req := 7, header := hdr 7 3 5 4095 0 0 0, d := {eop := 2, etype := 8, xtype := 0, subop := 0, rmode := 0, noHeat := true, noAlloc := true, precheck := false, ctag := 2748, count := 5, strideA := 0, srcA := 65536, paramB := 0, srcB := 0, strideD := 0, dst := 131072, imm := 0}, quad := 1, engine := some 9, phase := .running} : Work) 9 2) 0x43),
    3, ⟨.pcie, 4095⟩,
    ({req := 7, header := hdr 7 3 5 4095 0 0 0, d := {eop := 2, etype := 8, xtype := 0, subop := 0, rmode := 0, noHeat := true, noAlloc := true, precheck := false, ctag := 2748, count := 5, strideA := 0, srcA := 65536, paramB := 0, srcB := 0, strideD := 0, dst := 131072, imm := 0}, quad := 1, engine := some 9, phase := .running} : Work),
    (rq 7 (hdr 7 3 5 4095 0 0 0)), by unfold Open Calm; decide +kernel⟩,
   ⟨(openPage (engS ({req := 7, header := hdr 7 3 5 4095 0 0 0, d := {eop := 2, etype := 8, xtype := 0, subop := 0, rmode := 0, noHeat := true, noAlloc := true, precheck := false, ctag := 2748, count := 5, strideA := 0, srcA := 65536, paramB := 0, srcB := 0, strideD := 0, dst := 131072, imm := 0}, quad := 1, engine := some 9, phase := .running, committed := 1} : Work) 9 2) 0x43),
    3, ⟨.pcie, 4095⟩,
    ({req := 7, header := hdr 7 3 5 4095 0 0 0, d := {eop := 2, etype := 8, xtype := 0, subop := 0, rmode := 0, noHeat := true, noAlloc := true, precheck := false, ctag := 2748, count := 5, strideA := 0, srcA := 65536, paramB := 0, srcB := 0, strideD := 0, dst := 131072, imm := 0}, quad := 1, engine := some 9, phase := .running, committed := 1} : Work),
    by unfold Open Calm; decide +kernel⟩,
   ⟨(ready.setEngState 35 0), 35, by unfold Calm NoTest; decide +kernel⟩,
   ⟨ready, 35, by decide +kernel⟩⟩

theorem witness_BudgetsAndHolds :
    (∃ (s : State) (m : Fin 64), s.released = true ∧ s.effMode m ≠ 0) ∧
    (∃ (s : State) (m : Fin 64), s.effMode m = 0) ∧
    (∃ (s : State) (m : Fin 64) (w : RegWrite), Open s w.path (R.BRIDLE_REG_CTL m) ∧ Calm s ∧ s.effMode m = 0 ∧
    (F.BRIDLE_REG_CTL_MODE.get w.value = 1 ∨ F.BRIDLE_REG_CTL_MODE.get w.value = 2)) ∧
    (∃ (s : State) (m : Fin 64) (w : RegWrite) (r : Req), Open s w.path (R.BRIDLE_REG_CTL m) ∧ Calm s ∧ (s.effMode m
    = 1 ∨ s.effMode m = 2) ∧ s.xact.reqs = [r] ∧ r.stage = .held ∧ hMid r.header = m.val ∧ F.BRIDLE_REG_CTL_MODE.get
    w.value = 0) ∧
    (∃ (s : State) (m : Fin 64) (w : RegWrite) (r : Req), Open s w.path (R.BRIDLE_REG_CTL m) ∧ Calm s ∧ (s.effMode m
    = 1 ∨ s.effMode m = 2) ∧ s.xact.reqs = [r] ∧ r.stage = .held ∧ r.silent = false ∧ hMid r.header = m.val ∧
    s.mayPerform r = true ∧ F.BRIDLE_REG_CTL_MODE.get w.value = 3) ∧
    (∃ (s : State) (m : Fin 64) (w : RegWrite), Open s w.path (R.BRIDLE_REG_BUDGET m) ∧ Calm s) ∧
    (∃ (s : State) (r : Req), s.released = true ∧ s.bridleOn = true ∧ s.guarOn = false ∧ s.xact.reqs = [r] ∧ r.stage
    = .held ∧ (s.effMode (hMid r.header) = 1 ∨ s.effMode (hMid r.header) = 2) ∧ 0 < s.remain (hMid r.header)) ∧
    (∃ (s : State) (r : Req), s.released = true ∧ s.bridleOn = true ∧ s.xact.reqs = [r] ∧ r.stage = .held ∧ chargeOf
    r.header ≠ 0 ∧ (s.effMode (hMid r.header) = 1 ∨ s.effMode (hMid r.header) = 2) ∧ s.remain (hMid r.header) ≤ 0) ∧
    (∃ (s : State) (tag : BitVec 12) (r : Req), s.released = true ∧ s.xact.reqs = [r] ∧ r.stage = .held ∧ hTag
    r.header = tag.toNat) :=
  ⟨⟨(((let s := reqs [({id := 7, header := (hdr 1 3 5 4095 0 0 2050), stage := .held} : Req)]; { s with bridle := { s.bridle with ctl := [(63, 1)], remain := [(63, -100)], window := some 1 } }).wr (R.BRIDLE_REG_BUDGET 63) 0xFFFFFF).wr (R.BRIDLE_REG_CTL 63) 2),
    63, by decide +kernel⟩,
   ⟨ready, 63, by decide +kernel⟩,
   ⟨(openPage ready 0xB), 63, ⟨.pcie, 1⟩, by unfold Open Calm; decide +kernel⟩,
   ⟨(openPage (let s := reqs [({id := 7, header := (hdr 1 3 5 4095 0 0 2050), stage := .held} : Req)]; { s with bridle := { s.bridle with ctl := [(5, 2)], remain := [(5, -3)], window := some 1 } }) 0xB),
    5, ⟨.pcie, 0⟩, ({id := 7, header := (hdr 1 3 5 4095 0 0 2050), stage := .held} : Req),
    by unfold Open Calm; decide +kernel⟩,
   ⟨(openPage (let s := reqs [({id := 7, header := (hdr 1 3 5 4095 0 0 2050), stage := .held} : Req)]; { s with bridle := { s.bridle with ctl := [(5, 2)], remain := [(5, -3)], window := some 1 } }) 0xB),
    5, ⟨.pcie, 3⟩, ({id := 7, header := (hdr 1 3 5 4095 0 0 2050), stage := .held} : Req),
    by unfold Open Calm; decide +kernel⟩,
   ⟨(openPage (let s := reqs [({id := 7, header := (hdr 1 3 5 4095 0 0 2050), stage := .held} : Req)]; { s with bridle := { s.bridle with ctl := [(5, 2)], remain := [(5, -3)], window := some 1 } }) 0xB),
    5, ⟨.pcie, 99⟩, by unfold Open Calm; decide +kernel⟩,
   ⟨(let s := reqs [({id := 7, header := (hdr 1 3 5 4095 0 0 2050), stage := .held} : Req)]; { s with bridle := { s.bridle with ctl := [(5, 1)], remain := [(5, 1)], window := some 1 } }),
    ({id := 7, header := (hdr 1 3 5 4095 0 0 2050), stage := .held} : Req), by decide +kernel⟩,
   ⟨(let s := reqs [({id := 7, header := (hdr 1 3 5 4095 0 0 2050), stage := .held} : Req)]; { s with bridle := { s.bridle with ctl := [(5, 2)], remain := [(5, -3)], window := some 1 } }),
    ({id := 7, header := (hdr 1 3 5 4095 0 0 2050), stage := .held} : Req), by decide +kernel⟩,
   ⟨(let s := reqs [({id := 7, header := (hdr 1 3 5 4095 0 0 2050), stage := .held} : Req)]; { s with bridle := { s.bridle with ctl := [(5, 2)], remain := [(5, -3)], window := some 1 } }),
    4095, ({id := 7, header := (hdr 1 3 5 4095 0 0 2050), stage := .held} : Req), by decide +kernel⟩⟩

theorem witness_GuaranteesAndPins :
    (∃ (s : State), s.released = true ∧ s.clk.dramInit = true) ∧
    (∃ (s : State), s.released = true ∧ s.rd R.BRIDLE_BR_CTL = s.bridleCtl) ∧
    (∃ (s : State) (c : Fin 8) (w : RegWrite), Open s w.path (R.BRIDLE_TC_LAT c) ∧ Calm s) ∧
    (∃ (s : State) (p : Fin 4) (m : Fin 64), s.bit R.SIDE_PIN_CTL F.SIDE_PIN_CTL_PIN_EN p = true ∧ s.bit
    R.SIDE_PIN_STAT F.SIDE_PIN_STAT_ASSERTED p = false ∧ ((∀ k : Fin 4, s.pinStuck k = false)) ∧ s.pinNames p m =
    true) ∧
    (∃ (s : State) (p : Fin 4), s.bit R.SIDE_PIN_CTL F.SIDE_PIN_CTL_PIN_EN p = false) ∧
    (∃ (s : State) (p : Fin 4), s.pinOn p = true ∧ s.pinStuck p = false ∧ ((∀ k : Fin 4, k ≠ p → s.pinOn k =
    false))) ∧
    (∃ (s : State), s.inReset = false) :=
  ⟨⟨ready, by decide +kernel⟩,
   ⟨(ready.wr R.BRIDLE_BR_CTL ready.bridleCtl), by decide +kernel⟩,
   ⟨(openPage ready 0xB), 7, ⟨.pcie, 0⟩, by unfold Open Calm; decide +kernel⟩,
   ⟨((((let s := reqs [({id := 7, header := (hdr 1 3 5 4095 0 0 2050), stage := .held} : Req)]; { s with bridle := { s.bridle with ctl := [(5, 2)], remain := [(5, -3)], window := some 1 } }).setBit R.SIDE_PIN_CTL F.SIDE_PIN_CTL_PIN_EN 3 true).wr (R.SIDE_URG_MAP_LO 3) 0xFFFFFFFF).wr (R.SIDE_URG_CFG 3) 0x3FF),
    3, 5, by decide +kernel⟩,
   ⟨(ready.setBit R.SIDE_PIN_CTL F.SIDE_PIN_CTL_PIN_EN 3 false), 3, by decide +kernel⟩,
   ⟨((((ready.wr R.SIDE_PIN_STAT 0x088).setBit R.SIDE_PIN_CTL F.SIDE_PIN_CTL_PIN_EN 3 true).wr (R.SIDE_URG_MAP_HI 3) 0xFFFFFFFF).wr (R.SIDE_URG_CFG 3) 0x3FF),
    3, by decide +kernel⟩,
   ⟨ready, by decide +kernel⟩⟩

theorem witness_FaultRecords :
    (∃ (s : State) (d : Delivery) (i : Nat), Calm s ∧ s.fcol.resets = [] ∧ s.fcol.chipReset = false ∧ s.nextDelivery
    = some d ∧ feeds d.kind d.resource = none ∧ retestKind d.kind = false ∧ s.openRec 2 d.kind d.resource = none ∧
    s.freeRec = some i ∧ State.silentEntry (s.reactEntry 2 d.kind) = false ∧ (s.reactEntry 2 d.kind).getLsbD 5 =
    false ∧ (s.reactEntry 2 d.kind).getLsbD 6 = false) ∧
    (∃ (s : State) (d : Delivery) (i : Nat) (r : Rec), Calm s ∧ s.fcol.resets = [] ∧ s.fcol.chipReset = false ∧
    s.nextDelivery = some d ∧ feeds d.kind d.resource = none ∧ retestKind d.kind = false ∧ s.openRec 2 d.kind
    d.resource = some (i, r)) ∧
    (∃ (s : State) (r : Word) (n : Nat) (b : Nat), bucketOfRes r = some b ∧ s.declared r = false ∧ n ≠ 0) ∧
    (∃ (s : State) (pg : BitVec 10) (b : Fin 32), Calm s ∧ s.fcol.resets = [] ∧ s.fcol.chipReset = false ∧ (firstOf
    pg.toNat ≠ 0x1C0 ∨ b.val ≠ 1) ∧ s.levelBit pg.toNat b = true ∧ s.levelSeen pg.toNat b = false ∧ ((∀ e ∈
    s.fcol.recs, e.2.isOpen = false)) ∧ State.silentEntry (s.reactEntry pg.toNat b) = false ∧ (s.reactEntry pg.toNat
    b).getLsbD 5 = false ∧ (s.reactEntry pg.toNat b).getLsbD 6 = false) ∧
    (∃ (s : State) (pg : BitVec 10) (b : Fin 32), Calm s ∧ s.fcol.resets = [] ∧ s.fcol.chipReset = false ∧
    s.levelBit pg.toNat b = false) ∧
    (∃ (s : State) (i : Fin 64), (s.record i).isOpen = true ∧ s.recActive (s.record i) = false) ∧
    (∃ (s : State) (i : Fin 64), (s.record i).isOpen = true ∧ s.recActive (s.record i) = true ∧ i.val < 63) :=
  ⟨⟨(fc ready fun f => {f with deliv := [⟨5, resMid 5, 3, 1, 77, 1, some 5, none, 2, 0⟩, ⟨5, resMid 5, 3, 1, 77, 1, some 5, none, 2, 0⟩]}),
    ⟨5, resMid 5, 3, 1, 77, 1, some 5, none, 2, 0⟩, 0, by unfold Calm; decide +kernel⟩,
   ⟨(fc ready fun f => {f with deliv := [⟨5, resMid 5, 3, 1, 77, 1, some 5, none, 2, 0⟩], recs := [(62, {isOpen := true, valid := true, page := 2, source := 5, resource := resMid 5, merges := 3})]}),
    ⟨5, resMid 5, 3, 1, 77, 1, some 5, none, 2, 0⟩, 62,
    {isOpen := true, valid := true, page := 2, source := 5, resource := resMid 5, merges := 3},
    by unfold Calm; decide +kernel⟩,
   ⟨ready, (resEng 35), 3, 7, by decide +kernel⟩,
   ⟨(openPage ready 12), 12, 3, by unfold Calm; decide +kernel⟩,
   ⟨ready, 3, 31, by unfold Calm; decide +kernel⟩,
   ⟨(fc ready fun f => {f with recs := [(63, {isOpen := true, valid := true, page := 2, source := 5, resource := resMid 5, merges := 3})]}),
    63, by decide +kernel⟩,
   ⟨(fc (openPage ready 12) fun f => {f with recs := [(3, {isOpen := true, page := 12, source := 3})]}), 3,
    by decide +kernel⟩⟩

theorem witness_BucketsAndRetests :
    (∃ (s : State) (b : Fin 9) (r : Word), Calm s ∧ (SMap.wf (fun _ => 0) s.fcol.levels = true) ∧ bucketOfRes r =
    some b.val ∧ s.declared r = false ∧ ((∀ e ∈ s.fcol.levels, bucketOfRes (BitVec.ofNat 32 e.1) = some b.val → e.2
    ≤ s.cap_ b))) ∧
    (∃ (s : State) (b : Fin 9) (r : Word), (SMap.wf (fun _ => 0) s.fcol.levels = true) ∧ bucketOfRes r = some b.val
    ∧ s.declared r = false ∧ s.cap_ b < s.level r - s.leakOf b) ∧
    (∃ (s : State) (x : Retest), s.released = true ∧ s.fcol.runScrub = none ∧ s.fcol.retestQ.find? (s.retestReady
    false) = some x) ∧
    (∃ (s : State) (x : Retest), s.released = true ∧ s.fcol.runBist = none ∧ s.fcol.retestQ.find? (s.retestReady
    true) = some x ∧ resType x.resource = 7) ∧
    (∃ (s : State) (x : Retest) (r : ScrubRun), Calm s ∧ s.released = true ∧ NoTest s ∧ s.fcol.runScrub = some x ∧
    s.ch.scrubRun = some r ∧ r.retest = true ∧ s.scrubComplete r = true) ∧
    (∃ (s : State) (w : RegWrite), Open s w.path R.FCOL_ALERT_CLR ∧ Calm s ∧ (SMap.wf (fun _ => ({} : Rec))
    s.fcol.recs = true) ∧ F.FCOL_ALERT_CLR_ALL.get w.value = 1) ∧
    (∃ (s : State) (w : RegWrite), Open s w.path R.FCOL_ALERT_CLR ∧ Calm s ∧ F.FCOL_ALERT_CLR_ALL.get w.value = 0) ∧
    (∃ (s : State) (w : RegWrite), Open s w.path R.FCOL_RES_QUERY ∧ Calm s) :=
  ⟨⟨(fc ready fun f => {f with levels := [((resEng 3).toNat, 1),((resEng 35).toNat, 5)]}), 7, (resEng 35),
    by unfold Calm; decide +kernel⟩,
   ⟨(fc ready fun f => {f with levels := [((resEng 3).toNat, 1),((resEng 35).toNat, 50000)]}), 7, (resEng 35),
    by decide +kernel⟩,
   ⟨(fc ready fun f => {f with retestQ := [⟨18, resEng 3⟩, ⟨8, resRow 5 1 3 15 77⟩]}), ⟨8, resRow 5 1 3 15 77⟩,
    by decide +kernel⟩,
   ⟨(fc ready fun f => {f with retestQ := [⟨18, resEng 35⟩, ⟨8, resRow 5 1 3 15 77⟩]}), ⟨18, resEng 35⟩,
    by decide +kernel⟩,
   ⟨(chf (fc (ready.flag R.SCRUB_SCRUB_STAT F.SCRUB_SCRUB_STAT_CMD_BUSY true) fun f => {f with runScrub := some ⟨8, resRow 5 1 3 15 77⟩}) fun c => {c with scrubRun := some ⟨3,1,true,64⟩}),
    ⟨8, resRow 5 1 3 15 77⟩, ⟨3,1,true,64⟩, by unfold Calm NoTest; decide +kernel⟩,
   ⟨(openPage (fc (ready) fun f => {f with alertN := true, recs := [(0,{alert := true}),(63, { ({isOpen := true, valid := true, page := 2, source := 5, resource := resMid 5, merges := 3} : Rec) with alert := true})]}) 2),
    ⟨.pcie, 0xFFFFFFFF⟩, by unfold Open Calm; decide +kernel⟩,
   ⟨(openPage (fc ready fun f => {f with alertN := true, recs := [(0,{alert := true}),(63, { ({isOpen := true, valid := true, page := 2, source := 5, resource := resMid 5, merges := 3} : Rec) with alert := true})]}) 2),
    ⟨.pcie, 0⟩, by unfold Open Calm; decide +kernel⟩,
   ⟨(openPage (fc ready fun f => {f with levels := [((resEng 35).toNat, 5000)]}) 2), ⟨.pcie, resEng 35⟩,
    by unfold Open Calm; decide +kernel⟩⟩

theorem witness_SparingAndHealth :
    (∃ (s : State) (q : Fin 4), s.released = true ∧ s.on (R.HEALTH_LEND q) F.HEALTH_LEND_ACTIVE = true) ∧
    (∃ (s : State) (q : Fin 4), s.on (R.HEALTH_LEND q) F.HEALTH_LEND_ACTIVE = false) ∧
    (∃ (s : State) (r : Word × Word) (l : List (Word × Word)), Calm s ∧ s.spare.commits = r :: l ∧ s.fwRunning =
    true ∧ s.flashPresent = true) ∧
    (∃ (s : State) (r : Word × Word) (l : List (Word × Word)), s.otp.queue = r :: l ∧ s.otp.op = none ∧ s.progCond =
    true ∧ s.appendAllowed = true ∧ s.pairsUsed < 1536) :=
  ⟨⟨(ready.flag (R.HEALTH_LEND 3) F.HEALTH_LEND_ACTIVE true), 3, by decide +kernel⟩,
   ⟨ready, 3, by decide +kernel⟩,
   ⟨({((ready.flag R.SPI_SPI_STAT F.SPI_SPI_STAT_PRESENT true).flag R.MGMT_GONDOLA_STAT F.MGMT_GONDOLA_STAT_FW_RUNNING true) with spare := {ready.spare with commits := [(1,2),(3,4)]}}),
    (1,2), [(3,4)], by unfold Calm; decide +kernel⟩,
   ⟨(canProg {(ready.put R.FUSE_LIFE_STAT F.FUSE_LIFE_STAT_STATE 2) with otp := {ready.otp with queue := [(1,2),(3,4)]}}),
    (1,2), [(3,4)], by decide +kernel⟩⟩

theorem witness_ThermalModel :
    (∃ (s : State), s.inReset = false) ∧
    (∃ (s : State), s.therm.sampled = true ∧ s.inReset = false ∧ s.tripped = false) ∧
    (∃ (s : State), s.therm.sampled = false) ∧
    (∃ (s : State), s.inReset = false ∧ s.tripped = false ∧ s.tripCond = true) ∧
    (∃ (s : State), s.tripCond = false) :=
  ⟨⟨ready, by decide +kernel⟩,
   ⟨(th ready fun h => {h with sampled := true, model := [(3, 40),(96,30)]}), by decide +kernel⟩,
   ⟨ready, by decide +kernel⟩,
   ⟨(th ready fun h => {h with sampled := true, temps := [(3, 130)]}), by decide +kernel⟩,
   ⟨ready, by decide +kernel⟩⟩

theorem witness_DvfsSequencer :
    (∃ (s : State) (w : RegWrite) (n : Nat), Open s w.path R.PWR_DVFS_CTL ∧ Calm s ∧ s.therm.trans = none ∧
    F.PWR_DVFS_CTL_P3_ALLOW.get w.value = 1 ∧ n = max (F.PWR_DVFS_CTL_TARGET.get w.value) s.dvCeiling ∧ s.dvPoint <
    n) ∧
    (∃ (s : State) (w : RegWrite) (n : Nat), Open s w.path R.PWR_DVFS_CTL ∧ Calm s ∧ s.therm.trans = none ∧
    s.therm.retry = false ∧ F.PWR_DVFS_CTL_P3_ALLOW.get w.value = 1 ∧ n = max (F.PWR_DVFS_CTL_TARGET.get w.value)
    s.dvCeiling ∧ n < s.dvPoint) ∧
    (∃ (s : State), s.therm.upWait = true ∧ s.ceilingFor (s.effFraction 0) < s.dvCeiling) ∧
    (∃ (s : State) (a : Nat) (b : Nat), s.therm.trans = some (a, b) ∧ b < 4 ∧ (b < 3 ∨ s.p3Allow = true)) ∧
    (∃ (s : State) (a : Nat), s.therm.trans = some (a, 3) ∧ a < 3 ∧ s.p3Allow = false) ∧
    (∃ (s : State), s.therm.trans = none) ∧
    (∃ (s : State) (a : Nat) (b : Nat), s.therm.trans = some (a, b) ∧ b < a) ∧
    (∃ (s : State), s.dvPoint < 2) :=
  ⟨⟨(openPage ready 4), ⟨.pcie, 7⟩, 3, by unfold Open Calm; decide +kernel⟩,
   ⟨(openPage (ready.put R.PWR_DVFS_STAT F.PWR_DVFS_STAT_POINT 2) 4), ⟨.pcie, 4⟩, 0,
    by unfold Open Calm; decide +kernel⟩,
   ⟨(th ((ready.put R.PWR_DVFS_STAT F.PWR_DVFS_STAT_POINT 1).put R.PWR_DVFS_STAT F.PWR_DVFS_STAT_CEILING 1) fun h => {h with upWait := true}),
    by decide +kernel⟩,
   ⟨(th (ready.put R.PWR_DVFS_STAT F.PWR_DVFS_STAT_POINT 1) fun h => {h with trans := some (1,2)}), 1, 2,
    by decide +kernel⟩,
   ⟨(th ((ready.flag R.PWR_DVFS_CTL F.PWR_DVFS_CTL_P3_ALLOW false).put R.PWR_DVFS_STAT F.PWR_DVFS_STAT_POINT 1) fun h => {h with trans := some (1,3)}),
    1, by decide +kernel⟩,
   ⟨ready, by decide +kernel⟩,
   ⟨(th (ready.put R.PWR_DVFS_STAT F.PWR_DVFS_STAT_POINT 2) fun h => {h with trans := some (2,1)}), 2, 1,
    by decide +kernel⟩,
   ⟨ready, by decide +kernel⟩⟩

theorem witness_WearSaves :
    (∃ (s : State) (failed : Bool) (bad : Bool), s.inReset = false ∧ s.on R.STACK_WEAR_CTL
    F.STACK_WEAR_CTL_PERSIST_EN = true ∧ bad = (failed || decide (s.keelMirrors ≠ [false, true]))) ∧
    (∃ (s : State), s.inReset = false ∧ s.on R.STACK_WEAR_CTL F.STACK_WEAR_CTL_PERSIST_EN = false) ∧
    (∃ (s : State) (w : RegWrite) (bad : Bool), Open s w.path R.STACK_WEAR_CTL ∧ Calm s ∧ s.inReset = false ∧ bad =
    decide (s.keelMirrors ≠ [false, true])) ∧
    (∃ (s : State) (w : RegWrite), Open s w.path R.STACK_WEAR_CTL ∧ Calm s ∧ s.inReset = false ∧ s.on
    R.STACK_WEAR_CTL F.STACK_WEAR_CTL_SAVE_NOW = false) :=
  ⟨⟨ready, true, true, by decide +kernel⟩,
   ⟨(ready.flag R.STACK_WEAR_CTL F.STACK_WEAR_CTL_PERSIST_EN false), by decide +kernel⟩,
   ⟨(openPage ((ready.setMirror false true).setMirror true true) 0x13), ⟨.pcie, 0⟩, false,
    by unfold Open Calm; decide +kernel⟩,
   ⟨(openPage ready 0x13), ⟨.pcie, 0xFFFFFFFF⟩, by unfold Open Calm; decide +kernel⟩⟩

theorem witness_OtpCommands :
    (∃ (s : State) (path : Path) (w : Nat), Open s path R.FUSE_PROG_CMD ∧ Calm s ∧ s.otp.op = none ∧ s.otp.queue =
    [] ∧ w = s.fld R.FUSE_PROG_ADDR F.FUSE_PROG_ADDR_WORD ∧ s.progAllowed w = true ∧ otpRegion w ≠ 7 ∧ s.progLocked
    (otpRegion w) = false ∧ s.slotClosed w = false ∧ s.otpBlank w = true ∧ s.progCond = true) ∧
    (∃ (s : State) (path : Path) (w : Nat), Open s path R.FUSE_PROG_CMD ∧ Calm s ∧ s.otp.op = none ∧ s.otp.queue =
    [] ∧ w = s.fld R.FUSE_PROG_ADDR F.FUSE_PROG_ADDR_WORD ∧ s.progAllowed w = false) ∧
    (∃ (s : State) (path : Path) (w : Nat), Open s path R.FUSE_PROG_CMD ∧ Calm s ∧ s.otp.op = none ∧ s.otp.queue =
    [] ∧ w = s.fld R.FUSE_PROG_ADDR F.FUSE_PROG_ADDR_WORD ∧ s.progAllowed w = true ∧ (s.progLocked (otpRegion w) =
    true ∨ s.slotClosed w = true)) ∧
    (∃ (s : State) (path : Path) (key : BitVec 16), Open s path R.FUSE_PROG_CMD ∧ Calm s ∧ key ≠ 0x0F5E) ∧
    (∃ (s : State) (path : Path) (ab : Nat), Open s path R.FUSE_PROG_CMD ∧ Calm s ∧ s.otp.op = none ∧ s.otp.queue =
    [] ∧ s.life = 2 ∧ s.openSlot 4 = some ab ∧ s.progLocked 5 = false ∧ s.progLocked 7 = false ∧ ((∀ i : Fin 16,
    s.otpBlank (slotBase 4 ab + i) = true)) ∧ s.otpBlank (lockWord 4 ab) = true ∧ s.progCond = true) ∧
    (∃ (s : State), Open s .gondola R.FUSE_PROG_CMD ∧ Calm s ∧ s.otp.op = none ∧ s.otp.queue = [] ∧ s.life ≤ 3 ∧
    s.progLocked 6 = false ∧ s.otpBlank (0x3E0 + s.life) = true ∧ s.progCond = true) ∧
    (∃ (s : State), Open s .gondola R.FUSE_PROG_CMD ∧ Calm s ∧ s.otp.op = none ∧ s.otp.queue = [] ∧ 2 ≤ s.life ∧
    s.life ≤ 4 ∧ s.progLocked 6 = false ∧ s.otpBlank 0x3E4 = true ∧ s.progCond = true) ∧
    (∃ (s : State) (path : Path), Open s path R.FUSE_PROG_CMD ∧ Calm s ∧ path ≠ .gondola) :=
  ⟨⟨((progS 2).put R.FUSE_PROG_ADDR F.FUSE_PROG_ADDR_WORD 837 |>.wr R.FUSE_PROG_DATA 0x1234), .inband, 0x345,
    by unfold Open Calm; decide +kernel⟩,
   ⟨((progS 3).put R.FUSE_PROG_ADDR F.FUSE_PROG_ADDR_WORD 16 |>.wr R.FUSE_PROG_DATA 0x1234), .pcie, 0x10,
    by unfold Open Calm; decide +kernel⟩,
   ⟨(((progS 2).put R.FUSE_PROG_ADDR F.FUSE_PROG_ADDR_WORD 837 |>.wr R.FUSE_PROG_DATA 0x1234).wr R.LOCK_PROG_LOCK 0xFF),
    .pcie, 0x345, by unfold Open Calm; decide +kernel⟩,
   ⟨((progS 2).put R.FUSE_PROG_ADDR F.FUSE_PROG_ADDR_WORD 837 |>.wr R.FUSE_PROG_DATA 0x1234), .gondola, 0x0F5F,
    by unfold Open Calm; decide +kernel⟩,
   ⟨(progS 2), .pcie, 0, by unfold Open Calm; decide +kernel⟩,
   ⟨(progS 0), by unfold Open Calm; decide +kernel⟩,
   ⟨(progS 2), by unfold Open Calm; decide +kernel⟩,
   ⟨(progS 2), .pcie, by unfold Open Calm; decide +kernel⟩⟩

theorem witness_OtpArray :
    (∃ (s : State) (w : Nat) (v : Word), s.otp.op = some ⟨[(w, v)], false⟩) ∧
    (∃ (s : State) (w : Nat) (v : Word) (x : Nat × Word) (rest : List (Nat × Word)) (a : Bool), s.otp.op = some ⟨(w,
    v) :: x :: rest, a⟩ ∧ s.progCond = true) ∧
    (∃ (s : State) (w : Nat) (v : Word) (x : Nat × Word) (rest : List (Nat × Word)), s.otp.op = some ⟨(w, v) :: x ::
    rest, false⟩ ∧ s.progCond = false) ∧
    (∃ (s : State) (w : Nat) (v : Word), s.otp.op = some ⟨[(w, v)], false⟩) ∧
    (∃ (s : State) (w : Nat) (v : Word), s.otp.op = some ⟨[(w, v)], false⟩) ∧
    (∃ (s : State), s.otp.op = none) ∧
    (∃ (s : State) (lo : Rat) (hi : Rat), s.otp.tmin = some lo ∧ s.otp.tmax = some hi ∧ (s.layerReading 0 < lo - 10
    ∨ hi + 10 < s.layerReading 0 ∨ s.otp.rereadAt + 86400000000000 ≤ s.clk.up)) ∧
    (∃ (s : State) (lo : Rat) (hi : Rat), s.otp.tmin = some lo ∧ s.otp.tmax = some hi ∧ lo - 10 ≤ s.layerReading 0 ∧
    s.layerReading 0 ≤ hi + 10 ∧ s.clk.up < s.otp.rereadAt + 86400000000000) ∧
    (∃ (s : State), s.otp.tmin = none) :=
  ⟨⟨(otp' (ready.otpSet 0x3E1 5) fun o => {o with op := some ⟨[(0x3E1, 0x5A000001)], false⟩}), 0x3E1, 0x5A000001,
    by decide +kernel⟩,
   ⟨(otp' (canProg ready) fun o => {o with op := some ⟨[(0xFFE, 3), (0xFFF, 4)], true⟩}), 0xFFE, 3, (0xFFF, 4), [],
    true, by decide +kernel⟩,
   ⟨(otp' ready fun o => {o with op := some ⟨[(0x345, 3), (0x346, 4)], false⟩}), 0x345, 3, (0x346, 4), [],
    by decide +kernel⟩,
   ⟨(otp' (ready.otpSet 5 5) fun o => {o with op := some ⟨[(5, 0x5A000001)], false⟩}), 5, 0x5A000001,
    by decide +kernel⟩,
   ⟨(otp' (ready.otpSet 5 5) fun o => {o with op := some ⟨[(5, 0x5A000001)], false⟩}), 5, 0x5A000001,
    by decide +kernel⟩,
   ⟨ready, by decide +kernel⟩,
   ⟨(otp' ready fun o => {o with tmin := some 30, tmax := some 40, marginal := [7]}), 30, 40, by decide +kernel⟩,
   ⟨(otp' ({ready with clk := {ready.clk with up := 86400000000004}}) fun o => {o with tmin := some 10, tmax := some 10, rereadAt := 5}),
    10, 10, by decide +kernel⟩,
   ⟨ready, by decide +kernel⟩⟩

theorem witness_LocksAndAttestation :
    (∃ (s : State), s.scanAllowed = true) ∧
    (∃ (s : State), s.scanAllowed = false) ∧
    (∃ (s : State) (r : Fin 19) (w : RegWrite), Open s w.path (lockReg r) ∧ Calm s) ∧
    (∃ (s : State), s.spdmOpen = true) ∧
    (∃ (s : State) (c : Instr), c ∈ [Instr.getVersion, .getCapabilities, .negotiateAlgorithms, .getDigests] ∧
    s.spdmOpen = false) ∧
    (∃ (s : State), s.spdmOpen = false) ∧
    (∃ (s : State) (c : Instr), c ∈ [Instr.getCapabilities, .negotiateAlgorithms, .getDigests] ∧ s.spdmOpen = true ∧
    s.on R.SEC_SEC_STAT F.SEC_SEC_STAT_ATTEST_EN = false) ∧
    (∃ (s : State), s.spdmOpen = true ∧ s.on R.SEC_SEC_STAT F.SEC_SEC_STAT_ATTEST_EN = true) ∧
    (∃ (s : State), s.spdmOpen = true ∧ s.on R.SEC_SEC_STAT F.SEC_SEC_STAT_ATTEST_EN = true) ∧
    (∃ (s : State) (x : BitVec 384), s.spdmOpen = true ∧ s.on R.SEC_SEC_STAT F.SEC_SEC_STAT_ATTEST_EN = true ∧
    s.sec.alias_ = some x) ∧
    (∃ (s : State), s.spdmOpen = true ∧ s.on R.SEC_SEC_STAT F.SEC_SEC_STAT_ATTEST_EN = true) :=
  ⟨⟨(ready.put R.FUSE_LIFE_STAT F.FUSE_LIFE_STAT_STATE 0), by decide +kernel⟩,
   ⟨(ready.put R.FUSE_LIFE_STAT F.FUSE_LIFE_STAT_STATE 3), by decide +kernel⟩,
   ⟨((openPage ready 7).wr R.LOCK_PROG_LOCK 5), 0, ⟨.pcie, 0xFFFF⟩, by unfold Open Calm; decide +kernel⟩,
   ⟨(spdmS false), by decide +kernel⟩,
   ⟨ready, .getVersion, by decide +kernel⟩,
   ⟨ready, by decide +kernel⟩,
   ⟨(spdmS false), .getDigests, by decide +kernel⟩,
   ⟨(spdmS true), by decide +kernel⟩,
   ⟨(spdmS true), by decide +kernel⟩,
   ⟨({(spdmS true) with sec := {((spdmS true)).sec with alias_ := some 9}}), 9, by decide +kernel⟩,
   ⟨(spdmS true), by decide +kernel⟩⟩

theorem witness_RotationSlices :
    (∃ (s : State) (e : Bool) (q : Fin 4), Calm s ∧ NoTest s ∧ s.inReset = false ∧ s.on R.BIST_BIST_CTL
    F.BIST_BIST_CTL_ROT_EN = true ∧ s.on R.BIST_BIST_STAT F.BIST_BIST_STAT_BOOT_DONE = true ∧ s.unitAt e q (s.fld
    (R.BIST_ROT_STAT q) (if e then F.BIST_ROT_STAT_ENG_SLOT else F.BIST_ROT_STAT_CTRL_SLOT)) = none) ∧
    (∃ (s : State) (e : Bool) (q : Fin 4) (x : Slice), Calm s ∧ NoTest s ∧ s.inReset = false ∧ s.eng.works = [] ∧
    s.on R.BIST_BIST_CTL F.BIST_BIST_CTL_ROT_EN = true ∧ s.on R.BIST_BIST_STAT F.BIST_BIST_STAT_BOOT_DONE = true ∧ x
    = ⟨e, q, s.fld (R.BIST_ROT_STAT q) (if e then F.BIST_ROT_STAT_ENG_SLOT else F.BIST_ROT_STAT_CTRL_SLOT), x.unit,
    s.rotSet, false, false, false, false, false, []⟩ ∧ s.unitAt e q x.slot = some x.unit ∧ s.inPlace e x.unit = true
    ∧ s.sliceBlocked x = false) ∧
    (∃ (s : State) (e : Bool) (q : Fin 4) (x : Slice), Calm s ∧ s.bist.slice = none ∧ s.bist.waiting = [x] ∧
    x.engine = e ∧ x.q = q.val ∧ s.released = true ∧ x.deferred = true ∧ s.sliceBlocked x = true) ∧
    (∃ (s : State) (e : Bool) (q : Fin 4) (x : Slice), Calm s ∧ s.bist.slice = none ∧ s.bist.waiting = [x] ∧
    x.engine = e ∧ x.q = q.val ∧ s.released = true ∧ s.eng.works = [] ∧ x.lent = [] ∧ x.deferred = true ∧
    s.sliceBlocked x = false) ∧
    (∃ (s : State) (e : Bool) (q : Fin 4) (x : Slice), Calm s ∧ s.bist.waiting = [] ∧ s.sliceOf e q = some x ∧
    x.swapped = false ∧ x.cmd = false ∧ s.released = true ∧ s.fenced x = true) ∧
    (∃ (s : State) (e : Bool) (q : Fin 4) (x : Slice) (y : SliceResult), Calm s ∧ s.bist.waiting = [] ∧ s.eng.works
    = [] ∧ s.sliceOf e q = some x ∧ x.second = false ∧ s.released = true ∧ s.fenced x = true ∧ (y.sig ≠
    Config.bistSig e x.set ∨ y.memFail = true)) ∧
    (∃ (s : State) (e : Bool) (q : Fin 4) (x : Slice), Calm s ∧ s.bist.waiting = [] ∧ s.sliceOf e q = some x ∧
    x.swapped = false ∧ x.cmd = false ∧ s.released = true ∧ x.set ≠ 2) ∧
    (∃ (s : State) (w : RegWrite), Open s w.path R.BIST_BIST_CMD ∧ Calm s ∧ NoTest s ∧ (s.on R.BIST_BIST_STAT
    F.BIST_BIST_STAT_BUSY = true ∨ 36 ≤ F.BIST_BIST_CMD_UNIT.get w.value)) ∧
    (∃ (s : State) (w : RegWrite) (u : Nat) (x : Slice), Open s w.path R.BIST_BIST_CMD ∧ Calm s ∧ s.on
    R.BIST_BIST_STAT F.BIST_BIST_STAT_BUSY = false ∧ s.bist.slice = none ∧ s.eng.works = [] ∧ u =
    F.BIST_BIST_CMD_UNIT.get w.value ∧ u < 36 ∧ s.engGone u = false ∧ F.BIST_BIST_CMD_CLASS.get w.value = 1 ∧
    s.inPlace true u = true ∧ x = ⟨true, u / 9, u % 9, u, bistSet (F.BIST_BIST_CMD_SET.get w.value), false, true,
    false, false, false, []⟩ ∧ s.sliceBlocked x = false) :=
  ⟨⟨((rotS 3 8).setEngState 35 5), true, 3, by unfold Calm NoTest; decide +kernel⟩,
   ⟨(enginesUp (rotS 3 8) 3), true, 3, ⟨true, 3, 8, 35, (rotS 3 8).rotSet, false, false, false, false, false, []⟩,
    by unfold Calm NoTest; decide +kernel⟩,
   ⟨(bi (fc ready fun f => {f with retestQ := [⟨20, resCtrl 28⟩]}) fun b => { b with waiting := [⟨false, 3, 1, 28, 1, false, false, false, false, true, []⟩] }),
    false, 3, ⟨false, 3, 1, 28, 1, false, false, false, false, true, []⟩, by unfold Calm; decide +kernel⟩,
   ⟨(bi (enginesUp (rotS 3 8) 3) fun b => { b with waiting := [⟨true, 3, 8, 35, 1, false, false, false, false, true, []⟩] }),
    true, 3, ⟨true, 3, 8, 35, 1, false, false, false, false, true, []⟩, by unfold Calm; decide +kernel⟩,
   ⟨(testing ⟨true, 3, 8, 35, 1, false, false, false, false, false, []⟩), true, 3,
    ⟨true, 3, 8, 35, 1, false, false, false, false, false, []⟩, by unfold Calm; decide +kernel⟩,
   ⟨(testing ⟨true, 3, 8, 35, 1, false, false, false, false, false, []⟩), true, 3,
    ⟨true, 3, 8, 35, 1, false, false, false, false, false, []⟩, ⟨Config.bistSig true 1 + 1, false⟩,
    by unfold Calm; refine ⟨?_, ?_, ?_, ?_, ?_, ?_, ?_, Or.inl (succ_ne _)⟩ <;> decide +kernel⟩,
   ⟨(testing ⟨true, 3, 8, 35, 1, false, false, false, false, false, []⟩), true, 3,
    ⟨true, 3, 8, 35, 1, false, false, false, false, false, []⟩, by unfold Calm; decide +kernel⟩,
   ⟨(openPage ready 8), ⟨.pcie, 0x3F⟩, by unfold Open Calm NoTest; decide +kernel⟩,
   ⟨(openPage (enginesUp ready 3) 8), ⟨.pcie, 227⟩, 35, ⟨true, 3, 8, 35, 1, false, true, false, false, false, []⟩,
    by unfold Open Calm; decide +kernel⟩⟩

theorem witness_AnalogueAndCalibration :
    (∃ (s : State) (g : Fin 8), Calm s ∧ s.released = true ∧ s.on R.BIST_BIST_CTL F.BIST_BIST_CTL_ANA_EN = true ∧
    s.spareLane .rx g ≠ 15 ∧ s.spareLane .rx g = s.spareLane .tx g ∧ s.sparingRuns .rx g = false ∧ s.sparingRuns .tx
    g = false) ∧
    (∃ (s : State) (g : Fin 8), Calm s ∧ s.released = true ∧ s.on R.BIST_BIST_CTL F.BIST_BIST_CTL_ANA_EN = true ∧
    s.spareLane .rx g ≠ 15 ∧ s.spareLane .rx g = s.spareLane .tx g ∧ s.sparingRuns .rx g = false ∧ s.sparingRuns .tx
    g = false ∧ (SMap.get (fun _ => 0) s.bist.laneBad (2 * g) = 1)) ∧
    (∃ (s : State) (g : Fin 8), Calm s ∧ s.released = true ∧ s.on R.BIST_BIST_CTL F.BIST_BIST_CTL_ANA_EN = true ∧
    s.spareLane .rx g = 15) ∧
    (∃ (s : State) (c : Fin 32) (p : Bool) (v : ViaId), Calm s ∧ s.on R.BIST_BIST_CTL F.BIST_BIST_CTL_ANA_EN = true
    ∧ v.ca = false ∧ 36 ≤ v.via.toNat ∧ s.pchLive (2 * c + p.toNat) = true ∧ s.spareFree (2 * c + p.toNat) v.ca
    (v.via.toNat - 36) = true) ∧
    (∃ (s : State) (c : Fin 32) (p : Bool) (v : ViaId), Calm s ∧ s.on R.BIST_BIST_CTL F.BIST_BIST_CTL_ANA_EN = true
    ∧ v.ca = true ∧ 14 ≤ v.via.toNat ∧ s.pchLive (2 * c + p.toNat) = true ∧ s.spareFree (2 * c + p.toNat) v.ca
    (v.via.toNat - 14) = true ∧ (SMap.get (fun _ => 0) s.bist.viaBad (State.resOfVia c p.toNat v).toNat = 1)) ∧
    (∃ (s : State) (w : RegWrite), Open s w.path R.CAL_CAL_BLK ∧ Calm s) ∧
    (∃ (s : State) (w : RegWrite) (i : Nat), Open s w.path R.CAL_CAL_DATA ∧ Calm s ∧ i = s.fld R.CAL_CAL_IDX
    F.CAL_CAL_IDX_INDEX ∧ i < calWords s.calBlk) ∧
    (∃ (s : State) (path : Path), Open s path R.CAL_CAL_CMD ∧ Calm s ∧ s.cal.staged ≠ [] ∧ s.calRefusal s.calBlk ≠
    0) ∧
    (∃ (s : State) (path : Path), Open s path R.CAL_CAL_CMD ∧ Calm s ∧ s.cal.staged ≠ [] ∧ s.calRefusal s.calBlk = 0
    ∧ s.on R.CAL_CAL_STAT F.CAL_CAL_STAT_PENDING = false) ∧
    (∃ (s : State) (path : Path), Open s path R.CAL_CAL_CMD ∧ Calm s) ∧
    (∃ (s : State) (c : Nat) (i : Nat) (v : Word), s.cal.pendBlk = c ∧ c ≠ 0x31 ∧ s.on R.CAL_CAL_STAT
    F.CAL_CAL_STAT_PENDING = true ∧ s.calBlockDown c = false ∧ s.calBusy c = false ∧ s.cal.pend = [(i, v)] ∧ i <
    calWords c) ∧
    (∃ (s : State), s.on R.CAL_CAL_STAT F.CAL_CAL_STAT_PENDING = true ∧ s.calBlockDown s.cal.pendBlk = false ∧
    s.calBusy s.cal.pendBlk = true) ∧
    (∃ (s : State), s.on R.CAL_CAL_STAT F.CAL_CAL_STAT_PENDING = true ∧ s.calBlockDown s.cal.pendBlk = true) ∧
    (∃ (s : State), s.on R.CAL_CAL_STAT F.CAL_CAL_STAT_PENDING = false) :=
  ⟨⟨((ready.flag R.BIST_BIST_CTL F.BIST_BIST_CTL_ANA_EN true).setSpare .rx 7 3 |>.setSpare .tx 7 3), 7,
    by unfold Calm; decide +kernel⟩,
   ⟨(bi ((ready.flag R.BIST_BIST_CTL F.BIST_BIST_CTL_ANA_EN true).setSpare .rx 7 3 |>.setSpare .tx 7 3) fun b => { b with laneBad := [(14, 1), (15, 1)] }),
    7, by unfold Calm; decide +kernel⟩,
   ⟨((ready.flag R.BIST_BIST_CTL F.BIST_BIST_CTL_ANA_EN true).setSpare .rx 7 15), 7,
    by unfold Calm; decide +kernel⟩,
   ⟨(ready.flag R.BIST_BIST_CTL F.BIST_BIST_CTL_ANA_EN true), 31, true, ⟨false, 39⟩,
    by unfold Calm; decide +kernel⟩,
   ⟨(bi (ready.flag R.BIST_BIST_CTL F.BIST_BIST_CTL_ANA_EN true) fun b => { b with viaBad := [((State.resOfVia 31 1 ⟨true, 15⟩).toNat, 1)] }),
    31, true, ⟨true, 15⟩, by unfold Calm; decide +kernel⟩,
   ⟨(calS (openPage ready 9) fun c => {c with staged := [(3, some 5)]}), ⟨.pcie, 0x132⟩,
    by unfold Open Calm; decide +kernel⟩,
   ⟨(calS ((openPage ready 9).put R.CAL_CAL_BLK F.CAL_CAL_BLK_BLOCK 0x32 |>.put R.CAL_CAL_IDX F.CAL_CAL_IDX_INDEX 95) fun c => {c with staged := [(3, some 5)]}),
    ⟨.pcie, 0xFFFFFFFF⟩, 95, by unfold Open Calm; decide +kernel⟩,
   ⟨(calS ((openPage ready 9).put R.CAL_CAL_BLK F.CAL_CAL_BLK_BLOCK 0x32) fun c => {c with staged := [(3, some 0x45)]}),
    .pcie, by unfold Open Calm; decide +kernel⟩,
   ⟨(calS ((openPage ready 9).put R.CAL_CAL_BLK F.CAL_CAL_BLK_BLOCK 0x32) fun c => {c with staged := [(3, some 0x5)]}),
    .pcie, by unfold Open Calm; decide +kernel⟩,
   ⟨(calS ((openPage ready 9).put R.CAL_CAL_BLK F.CAL_CAL_BLK_BLOCK 0x32) fun c => {c with staged := [(3, some 0x5)]}),
    .pcie, by unfold Open Calm; decide +kernel⟩,
   ⟨(calS (ready.flag R.CAL_CAL_STAT F.CAL_CAL_STAT_PENDING true) fun c => {c with pendBlk := 0x32, pend := [(95, 7)]}),
    0x32, 95, 7, by decide +kernel⟩,
   ⟨(calS (ready.flag R.CAL_CAL_STAT F.CAL_CAL_STAT_PENDING true |>.setPch 63 {training := true}) fun c => {c with pendBlk := 0x2F, pend := [(115, 7)]}),
    by decide +kernel⟩,
   ⟨(calS (ready.flag R.CAL_CAL_STAT F.CAL_CAL_STAT_PENDING true) fun c => {c with pendBlk := 3, pend := [(39, 7)]}),
    by decide +kernel⟩,
   ⟨ready, by decide +kernel⟩⟩

theorem witness_RegisterWrites :
    (∃ (s : State) (be : BitVec 4) (w : RegWrite) (m : Word), Open s w.path R.SCRUB_SCRUB_CTL ∧ m = fieldBits (· ==
    .rw) R.SCRUB_SCRUB_CTL &&& beMask be.toNat) ∧
    (∃ (s : State) (w : RegWrite) (m : Word), Open s w.path R.SCRUB_SCRUB_CTL ∧ m = fieldBits (· == .rw)
    R.SCRUB_SCRUB_CTL) ∧
    (∃ (s : State) (w : RegWrite) (m : Word), Open s w.path R.SCRUB_SCRUB_CTL ∧ m = fieldBits (· == .rw)
    R.SCRUB_SCRUB_CTL) ∧
    (∃ (s : State) (w : RegWrite) (m : Word), Open s w.path R.SCRUB_SCRUB_CTL ∧ m = fieldBits (· == .rw)
    R.SCRUB_SCRUB_CTL) ∧
    (∃ (s : State) (a : BitVec 22) (w : RegWrite), s.busUp w.path = true ∧ s.ratioBroken = false ∧ pageRow (pageOf
    a.toNat) = none ∧ isMsixPage (pageOf a.toNat) = false) :=
  ⟨⟨(openPage ready 0x16), 15, ⟨.pcie, 0x3FF⟩, (fieldBits (· == .rw) R.SCRUB_SCRUB_CTL &&& beMask 15),
    by unfold Open; decide +kernel⟩,
   ⟨((openPage ready 0x16).wr R.SCRUB_SCRUB_CTL 0x155), ⟨.inband, 0xFFF⟩, (fieldBits (· == .rw) R.SCRUB_SCRUB_CTL),
    by unfold Open; decide +kernel⟩,
   ⟨((openPage ready 0x16).wr R.SCRUB_SCRUB_CTL 0x155), ⟨.inband, 0xFFF⟩, (fieldBits (· == .rw) R.SCRUB_SCRUB_CTL),
    by unfold Open; decide +kernel⟩,
   ⟨((openPage ready 0x16).wr R.SCRUB_SCRUB_CTL 0x155), ⟨.inband, 0xFFF⟩, (fieldBits (· == .rw) R.SCRUB_SCRUB_CTL),
    by unfold Open; decide +kernel⟩,
   ⟨ready, 0x300040, ⟨.pcie, 5⟩, by decide +kernel⟩⟩

theorem witness_WordPairs :
    (∃ (s : State) (path : Path) (a : BitVec 22), s.busUp path = true ∧ s.ratioBroken = false ∧ s.accessFault
    a.toNat = none ∧ isMsixPage (pageOf a.toNat) = false ∧ a.toNat % 4 = 0 ∧ offOf a.toNat < 0x400 ∧ isRl a.toNat =
    true ∧ isHigh a.toNat = false ∧ pageOf a.toNat ∉ (List.range 8).map (0x088 + ·)) ∧
    (∃ (s : State) (path : Path) (a : BitVec 22), s.busUp path = true ∧ s.ratioBroken = false ∧ s.accessFault
    a.toNat = none ∧ isMsixPage (pageOf a.toNat) = false ∧ a.toNat % 4 = 0 ∧ offOf a.toNat < 0x400 ∧ isHigh a.toNat
    = true ∧ fieldsAt a.toNat ≠ [] ∧ pageOf a.toNat ∉ (List.range 8).map (0x088 + ·)) ∧
    (∃ (s : State) (w : RegWrite), Open s w.path R.FCOL_TS_SET_LO ∧ Calm s) ∧
    (∃ (s : State) (w : RegWrite) (low : Word), Open s w.path R.FCOL_TS_SET_HI ∧ Calm s ∧ (SMap.get (fun _ => none)
    s.pairLow R.FCOL_TS_SET_LO = some low)) :=
  ⟨⟨(openPage ready 0x16), .pcie, 0x16058, by decide +kernel⟩,
   ⟨{(openPage ready 0x16) with shadows := [(0x16058, 77)]}, .pcie, 0x1605C, by decide +kernel⟩,
   ⟨(openPage ready 2), ⟨.pcie, 9⟩, by unfold Open Calm; decide +kernel⟩,
   ⟨{(openPage ready 2) with pairLow := [(R.FCOL_TS_SET_LO, some 5)]}, ⟨.pcie, 9⟩, 5,
    by unfold Open Calm; decide +kernel⟩⟩

theorem witness_PerformanceMonitor :
    (∃ (s : State) (w : RegWrite), Open s w.path R.PERF_PERF_CTL ∧ s.on R.PERF_PERF_CTL F.PERF_PERF_CTL_FREEZE =
    false ∧ F.PERF_PERF_CTL_FREEZE.get w.value = 1 ∧ F.PERF_PERF_CTL_SNAPSHOT.get w.value = 0) ∧
    (∃ (s : State) (w : RegWrite), Open s w.path R.PERF_PERF_CTL) ∧
    (∃ (s : State) (path : Path), Open s path R.PERFU_USER_CMD ∧ s.on R.PERF_PERF_CTL F.PERF_PERF_CTL_USER_SNAP_EN =
    true) ∧
    (∃ (s : State) (path : Path), Open s path R.PERFU_USER_CMD ∧ s.on R.PERF_PERF_CTL F.PERF_PERF_CTL_USER_SNAP_EN =
    false) ∧
    (∃ (s : State) (path : Path) (k : Nat), Open s path R.PERF_PC_CMD ∧ s.perfSel = some k) ∧
    (∃ (s : State) (path : Path), Open s path R.PERF_PC_CMD) ∧
    (∃ (s : State) (w : RegWrite), Open s w.path R.PERF_RING_SEL) :=
  ⟨⟨((fun (f : PerfState → PerfState) (s : State) => ({s with perf := f s.perf} : State)) (fun p => {p with ctrs := [(40,7),(41,8)], ring := [(4095, 0x123456789ABCDEF0)]}) (openPage ready 10)),
    ⟨.pcie, 1⟩, by unfold Open; decide +kernel⟩,
   ⟨((fun (f : PerfState → PerfState) (s : State) => ({s with perf := f s.perf} : State)) (fun p => {p with ctrs := [(40,7),(41,8)], ring := [(4095, 0x123456789ABCDEF0)]}) (openPage ready 10)),
    ⟨.pcie, 0⟩, by unfold Open; decide +kernel⟩,
   ⟨(((openPage ready 0x200).flag R.DEV_DEV_CTL F.DEV_DEV_CTL_PERF_USER_EN true).flag R.PERF_PERF_CTL F.PERF_PERF_CTL_USER_SNAP_EN true),
    .pcie, by unfold Open; decide +kernel⟩,
   ⟨((openPage ready 0x200).flag R.DEV_DEV_CTL F.DEV_DEV_CTL_PERF_USER_EN true), .pcie,
    by unfold Open; decide +kernel⟩,
   ⟨(((fun (f : PerfState → PerfState) (s : State) => ({s with perf := f s.perf} : State)) (fun p => {p with ctrs := [(40,7),(41,8)], ring := [(4095, 0x123456789ABCDEF0)]}) (openPage ready 10)).wr R.PERF_PC_SEL 10),
    .pcie, 40, by unfold Open; decide +kernel⟩,
   ⟨((fun (f : PerfState → PerfState) (s : State) => ({s with perf := f s.perf} : State)) (fun p => {p with ctrs := [(40,7),(41,8)], ring := [(4095, 0x123456789ABCDEF0)]}) (openPage ready 10)),
    .pcie, by unfold Open; decide +kernel⟩,
   ⟨((fun (f : PerfState → PerfState) (s : State) => ({s with perf := f s.perf} : State)) (fun p => {p with ctrs := [(40,7),(41,8)], ring := [(4095, 0x123456789ABCDEF0)]}) (openPage ready 10)),
    ⟨.pcie, 0xFFF⟩, by unfold Open; decide +kernel⟩⟩

theorem witness_MailboxCommands :
    (∃ (s : State) (path : Path) (ch : Fin 2), Open s path (R.MGMT_MB_CMD ch) ∧ s.mbBusy ch = false) :=
   ⟨(openPage gon 1), .inband, 1, by unfold Open; decide +kernel⟩

theorem witness_MailboxAndFlash :
    (∃ (s : State) (ch : Fin 2) (op : Nat), s.gondolaUp = true ∧ (SMap.get (fun _ => none) s.mgmt.run ch.val = some
    op) ∧ (mbFlash op = false ∨ s.mgmt.order.head? = some ch.val)) ∧
    (∃ (s : State) (ch : Fin 2) (op : Nat), s.gondolaUp = true ∧ (SMap.get (fun _ => none) s.mgmt.run ch.val = some
    op) ∧ (mbFlash op = false ∨ s.mgmt.order.head? = some ch.val) ∧ s.fwRunning = false ∧ op ≠ 1) ∧
    (∃ (s : State) (ch : Fin 2), s.gondolaUp = true ∧ (SMap.get (fun _ => none) s.mgmt.run ch.val = some 1)) ∧
    (∃ (s : State) (ch : Fin 2), s.gondolaUp = true ∧ (SMap.get (fun _ => none) s.mgmt.run ch.val = some 4) ∧
    s.mgmt.order.head? = some ch.val ∧ s.fwRunning = true) ∧
    (∃ (s : State) (ch : Fin 2) (o : Nat), s.gondolaUp = true ∧ (SMap.get (fun _ => none) s.mgmt.run ch.val = some
    5) ∧ s.mgmt.order.head? = some ch.val ∧ s.fwRunning = true ∧ o = (s.mbIn ch 0).toNat ∧ o % 64 = 0 ∧ o <
    imageSize ∧ ((∀ i ∈ List.range 64, s.flashByte (imageSize + o + i) = 255))) ∧
    (∃ (s : State) (ch : Fin 2), s.gondolaUp = true ∧ (SMap.get (fun _ => none) s.mgmt.run ch.val = some 7) ∧
    s.mgmt.order.head? = some ch.val ∧ s.fwRunning = true ∧ s.mgmt.verified = false) ∧
    (∃ (s : State) (ch : Fin 2), s.gondolaUp = true ∧ (SMap.get (fun _ => none) s.mgmt.run ch.val = some 7) ∧
    s.mgmt.order.head? = some ch.val ∧ s.fwRunning = true ∧ s.mgmt.verified = true) ∧
    (∃ (s : State) (ch : Fin 2), s.gondolaUp = true ∧ (SMap.get (fun _ => none) s.mgmt.run ch.val = some 9) ∧
    s.fwRunning = true) ∧
    (∃ (s : State) (i : LogItem), s.logOpen = true ∧ s.logHead = some i ∧ s.logNext % 32 ≠ 0) ∧
    (∃ (s : State) (v : Fin 64), v.val ∈ s.mgmt.pend ∧ s.msixOpen v.val = true) ∧
    (∃ (s : State) (w : RegWrite) (a : Nat) (k : Nat), Open s w.path R.SPI_RAW_CMD ∧ s.rawActive = true ∧
    F.SPI_RAW_CMD_OPCODE.get w.value = 0x20 ∧ F.SPI_RAW_CMD_ADDR_EN.get w.value = 1 ∧ s.mgmt.wren = true ∧ a =
    s.rawAddr ∧ k = a / 4096 * 4096) ∧
    (∃ (s : State) (w : RegWrite), Open s w.path R.SPI_RAW_CMD ∧ s.rawActive = true ∧ F.SPI_RAW_CMD_OPCODE.get
    w.value = 6) ∧
    (∃ (s : State) (w : RegWrite), Open s w.path R.SPI_RAW_CMD ∧ s.rawActive = false) :=
  ⟨⟨(mrun 1 1 (mg gon fun m => {m with order := [1,0], verified := false, flashKiB := 65536, flash := [(3,5),(0x200000,7),(0x3fffbf,9),(0x400000,1)]})),
    1, 1, by decide +kernel⟩,
   ⟨(mrun 1 4 (mg (gon.flag R.MGMT_GONDOLA_STAT F.MGMT_GONDOLA_STAT_FW_RUNNING false) fun m => {m with order := [1,0], verified := false, flashKiB := 65536, flash := [(3,5),(0x200000,7),(0x3fffbf,9),(0x400000,1)]})),
    1, 4, by decide +kernel⟩,
   ⟨(mrun 1 1 (mg gon fun m => {m with order := [1,0], verified := false, flashKiB := 65536, flash := [(3,5),(0x200000,7),(0x3fffbf,9),(0x400000,1)]})),
    1, by decide +kernel⟩,
   ⟨(mrun 1 4 (mg gon fun m => {m with order := [1,0], verified := false, flashKiB := 65536, flash := [(3,5),(0x200000,7),(0x3fffbf,9),(0x400000,1)]})),
    1, by decide +kernel⟩,
   ⟨(((mrun 1 5 (mg gon fun m => {m with order := [1,0], verified := false, flashKiB := 65536, flash := [(3,5),(0x200000,7),(0x3fffbf,9),(0x400000,1)]})).wr (R.MGMT_MB_IN 1 0) 0x1FFFC0).wr (R.MGMT_MB_IN 1 1) 0x01020304 |>.wr (R.MGMT_MB_IN 1 16) 0xA1B2C3D4),
    1, 0x1FFFC0, by decide +kernel⟩,
   ⟨(mrun 1 7 (mg gon fun m => {m with order := [1,0], verified := false, flashKiB := 65536, flash := [(3,5),(0x200000,7),(0x3fffbf,9),(0x400000,1)]})),
    1, by decide +kernel⟩,
   ⟨(mrun 1 7 (mg gon fun m => {m with order := [1,0], verified := true, flashKiB := 65536, flash := [(3,5),(0x200000,7),(0x3fffbf,9),(0x400000,1)]})),
    1, by decide +kernel⟩,
   ⟨(mrun 1 9 (mg gon fun m => {m with order := [1,0], verified := false, flashKiB := 65536, flash := [(3,5),(0x200000,7),(0x3fffbf,9),(0x400000,1)]})),
    1, by decide +kernel⟩,
   ⟨(mg gon (fun m => {m with logQ := [⟨0,5,[],false⟩,⟨0,7,[],true⟩], logAt := 24575, flash := [(0x500000,5),(0x600000,7)]})),
    ⟨0,7,[],true⟩, by decide +kernel⟩,
   ⟨(mg gon (fun m => {m with pend := [3,63], msixEn := true, busMaster := true, msix := [(255,0)]}) |>.flag R.PCIEM_PCIE_STAT F.PCIEM_PCIE_STAT_DL_UP true),
    63, by decide +kernel⟩,
   ⟨raw, ⟨.gondola, rawv 0x20⟩, 0x6fff, 0x6000, by unfold Open; decide +kernel⟩,
   ⟨raw, ⟨.gondola, rawv 0x6⟩, by unfold Open; decide +kernel⟩,
   ⟨(openPage gon 0x11), ⟨.gondola, rawv 0x6⟩, by unfold Open; decide +kernel⟩⟩

theorem witness_WindowAndConfig :
    (∃ (s : State) (o : BitVec 27) (n : BitVec 13) (m : LookupIn) (li : Nat), (NoErr m ∧ s.place.mig = [] ∧
    s.barOpen = true ∧ li = s.winLine o.toNat ∧ o.toNat % 64 = 0 ∧ n.toNat = 64 ∧ s.winHeldUp o.toNat 64 = false ∧
    s.winAborts li = false ∧ s.wdbLine li = none ∧ s.cacheOn = false ∧ eState (s.entry (li / 1024)) = 0 ∧
    (s.frameLine (eFrame (s.entry (li / 1024))) (li % 1024)).poisoned = false) ∧ Readable s) ∧
    (∃ (s : State) (o : BitVec 27) (n : BitVec 13) (m : LookupIn) (li : Nat), NoErr m ∧ s.place.mig = [] ∧ s.barOpen
    = true ∧ li = s.winLine o.toNat ∧ n.toNat ≠ 0 ∧ s.winAborts li = true ∧ s.winHeldUp o.toNat (min (min n.toNat
    4096) (2 ^ 27 - o.toNat)) = false) ∧
    (∃ (s : State) (o : BitVec 27) (b : List (Option Byte)) (m : LookupIn) (li : Nat) (l : Line), (NoErr m ∧
    s.place.mig = [] ∧ s.barOpen = true ∧ li = s.winLine o.toNat ∧ o.toNat % 64 = 0 ∧ b.length = 64 ∧ s.winHeldUp
    o.toNat 64 = false ∧ s.winAborts li = false ∧ s.wdbLine li = none ∧ s.cached li = none ∧ eState (s.entry (li /
    1024)) = 0 ∧ l = s.frameLine (eFrame (s.entry (li / 1024))) (li % 1024) ∧ l.poisoned = false) ∧ Readable s) ∧
    (∃ (s : State) (b : List (Option Byte)), s.barOpen = true ∧ b ≠ []) ∧
    (∃ (s : State), s.endpointUp = true) ∧
    (∃ (s : State), s.endpointUp = true) :=
  ⟨⟨(winS 0 3), (0x10000*3+64*5), 64, noErr, (3*1024+5),
    by unfold NoErr; exact ⟨by decide +kernel, readable_of (by decide +kernel) (by decide +kernel)⟩⟩,
   ⟨((winS 0 3).flag R.PCIEM_WIN_CTL F.PCIEM_WIN_CTL_WIN_EN false), (0x10000*3+64*5), 64, noErr, (3*1024+5),
    by unfold NoErr; decide +kernel⟩,
   ⟨(winS 0 3), (0x10000*3+64*5),
    ((List.range 64).map fun i => if i % 3 = 0 then none else some (BitVec.ofNat 8 i)), noErr, (3*1024+5),
    ((winS 0 3).frameLine 3 5),
    by unfold NoErr; exact ⟨by decide +kernel, readable_of (by decide +kernel) (by decide +kernel)⟩⟩,
   ⟨(winS 0 3), [none], by decide +kernel⟩,
   ⟨(winS 0 3 |>.flag R.PCIEM_PCIE_STAT F.PCIEM_PCIE_STAT_DL_UP true), by decide +kernel⟩,
   ⟨(mg (winS 0 3 |>.flag R.PCIEM_PCIE_STAT F.PCIEM_PCIE_STAT_DL_UP true) fun m => {m with aerUncorr := 0x9000, aerCorr := 0x2000}),
    by decide +kernel⟩⟩

theorem witness_UnassignedPages :
    (∃ (s : State) (path : Path) (a : BitVec 22), s.busUp path = true ∧ s.ratioBroken = false ∧ pageRow (pageOf
    a.toNat) = none ∧ isMsixPage (pageOf a.toNat) = false) :=
   ⟨ready, .pcie, 0x3fd048, by decide +kernel⟩

theorem witness_ConfigDenied :
    (∃ (s : State) (tag : BitVec 12) (r : Req), (s.readyReq tag.toNat (fun h => decide (hOpc h = 8)) = some r) ∧
    Plain r ∧ s.cfgOpen (hMid r.header) = false) ∧
    (∃ (s : State) (tag : BitVec 12) (r : Req), (s.readyReq tag.toNat (fun h => decide (hOpc h = 9)) = some r) ∧
    Plain r ∧ s.cfgOpen (hMid r.header) = false) :=
  ⟨⟨(reqs [{rq 7 (hdr 8 3 5 4095 0 3 0x50) with data := [1]}]), 4095,
    {rq 7 (hdr 8 3 5 4095 0 3 0x50) with data := [1]}, by unfold Plain; decide +kernel⟩,
   ⟨(reqs [{rq 7 (hdr 9 3 5 4095 0 2 0x50) with data := [1]}]), 4095,
    {rq 7 (hdr 9 3 5 4095 0 2 0x50) with data := [1]}, by unfold Plain; decide +kernel⟩⟩

theorem witness_PerstResetsTheEndpoint :
    (∃ (s : State), s.clk.perstN = true) ∧
    (∃ (s : State), s.clk.perstN = true) ∧
    (∃ (s : State), s.clk.perstN = true) :=
  ⟨⟨({ready with clk := {ready.clk with perstN := true}}), by decide +kernel⟩,
   ⟨({winS 0 3 with clk := {ready.clk with perstN := true}}), by decide +kernel⟩,
   ⟨({winS 0 3 with clk := {ready.clk with perstN := true}}), by decide +kernel⟩⟩

theorem witness_StepRunsTheFrontCommand :
    (∃ (s : State) (c : Instr) (rest : List Instr), s.pending = c :: rest) ∧
    (∃ (s : State), s.pending = []) :=
  ⟨⟨({ready with pending := [.pad, .eidle 3]}), .pad, [.eidle 3], by decide +kernel⟩,
   ⟨State.reset, by decide +kernel⟩⟩

theorem witness_StepKeepsTheInvariant :
    (∃ (s : State), Canonical s) :=
   ⟨(ready.dramWrite 3 4 ⟨7, 1⟩), by unfold Canonical; decide +kernel⟩

end Sys2Proof.Tests
end

section
/-! SUPPORT. Accesses to unassigned page indices: what DEV.ACC_ERR records of a failed access (R413, R425), and what the
register bus does with an address whose page no block has (R8). -/

namespace Sys2Proof.Machine
open Sys2Proof.Safety State

/-- A field of a word that holds a number is those bits of the number. -/
theorem Fld.get_ofNat (f : Fld) (n : Nat) (h : f.lsb + f.width ≤ 32) :
    f.get (BitVec.ofNat 32 n) = n / 2 ^ f.lsb % 2 ^ f.width := by
  have hd : 2 ^ f.lsb * 2 ^ f.width ∣ 2 ^ 32 := by
    rw [← Nat.pow_add]
    exact Nat.pow_dvd_pow 2 h
  rw [Fld.get, BitVec.toNat_ushiftRight, BitVec.toNat_ofNat, Nat.shiftRight_eq_div_pow, ← Nat.mod_mul_right_div_self,
    ← Nat.mod_mul_right_div_self n, Nat.mod_mod_of_dvd n hd]

/-- The dword of an address lies in its page. -/
@[simp] theorem pageOf_align (a : Nat) : pageOf (a / 4 * 4) = pageOf a := by
  unfold pageOf
  omega

/-- The register map has 1024 page indices. -/
theorem pageOf_lt (a : BitVec 22) : pageOf a.toNat < 1024 := by
  have := a.isLt
  unfold pageOf
  omega

namespace State

variable (s : State) (path : Path) (a be : Nat) (write : Bool) (cause : Nat) (v : Word)

/-! ### The record of a failed access -/

/-- The word that DEV.ACC_ERR holds after a failed access. -/
def accErrWord : Nat :=
  pageOf a % 2 ^ 10 + offOf a / 4 % 2 ^ 10 * 2 ^ 10 + write.toNat * 2 ^ 20 + cause % 8 * 2 ^ 21 + pathCode path * 2 ^ 24

/-- A failed access writes its word and counts. -/
theorem accErr_eq : s.accErr path a write cause
    = (s.wr R.DEV_ACC_ERR (BitVec.ofNat 32 (accErrWord path a write cause))).inc R.DEV_ACC_ERR_CNT := by
  simp only [accErr, accErrWord]

/-- Each field of the record is those bits of its word. -/
theorem accErr_field (f : Fld) (h : f.lsb + f.width ≤ 32) :
    f.get ((s.accErr path a write cause).rd R.DEV_ACC_ERR) = accErrWord path a write cause / 2 ^ f.lsb % 2 ^ f.width := by
  have hw : (s.accErr path a write cause).rd R.DEV_ACC_ERR = BitVec.ofNat 32 (accErrWord path a write cause) := by
    simp [accErr_eq]
  rw [hw, Fld.get_ofNat f _ h]

theorem accErr_page : F.DEV_ACC_ERR_PAGE.get ((s.accErr path a write cause).rd R.DEV_ACC_ERR) = pageOf a % 1024 := by
  rw [accErr_field _ _ _ _ _ _ (by decide)]
  simp only [accErrWord]
  omega

theorem accErr_write : F.DEV_ACC_ERR_WRITE.get ((s.accErr path a write cause).rd R.DEV_ACC_ERR) = write.toNat := by
  have := write.toNat_lt
  rw [accErr_field _ _ _ _ _ _ (by decide)]
  simp only [accErrWord]
  omega

theorem accErr_cause : F.DEV_ACC_ERR_CAUSE.get ((s.accErr path a write cause).rd R.DEV_ACC_ERR) = cause % 8 := by
  have := write.toNat_lt
  rw [accErr_field _ _ _ _ _ _ (by decide)]
  simp only [accErrWord]
  omega

theorem accErr_path : F.DEV_ACC_ERR_PATH.get ((s.accErr path a write cause).rd R.DEV_ACC_ERR) = pathCode path := by
  have := write.toNat_lt
  have hc : pathCode path < 4 := by cases path <;> decide
  rw [accErr_field _ _ _ _ _ _ (by decide)]
  simp only [accErrWord]
  omega

theorem accErr_count : (s.accErr path a write cause).rd R.DEV_ACC_ERR_CNT = s.rd R.DEV_ACC_ERR_CNT + 1 := by
  simp [accErr_eq]

theorem wr_memKept : MemKept s (s.wr a v) := ⟨rfl, rfl, rfl, rfl, rfl, rfl⟩

theorem inc_memKept (n : Nat) : MemKept s (s.inc a n) := by
  simp [MemKept]

theorem accErr_memKept : MemKept s (s.accErr path a write cause) := by
  rw [accErr_eq]
  exact (wr_memKept ..).trans (inc_memKept ..)

theorem accErr_regsKept : RegsKept s (s.accErr path a write cause) [] [R.DEV_ACC_ERR, R.DEV_ACC_ERR_CNT] := by
  intro b _ hb
  obtain ⟨he, hn⟩ : b ≠ R.DEV_ACC_ERR ∧ b ≠ R.DEV_ACC_ERR_CNT := by simpa using hb
  simp [accErr_eq, he, hn]

/-! ### The data of a read -/

@[simp] theorem setOut_out : (s.setOut v).mgmt.out = v := rfl
@[simp] theorem rd_setOut (b : Nat) : (s.setOut v).rd b = s.rd b := rd_eq_of_regs rfl b

theorem setOut_regsKept {pages addrs : List Nat} : RegsKept s (s.setOut v) pages addrs := fun b _ _ => rd_setOut s v b

theorem setOut_memKept : MemKept s (s.setOut v) := ⟨rfl, rfl, rfl, rfl, rfl, rfl⟩

/-! ### The register bus -/

/-- The bus performs an access on the dword of its address. -/
theorem busWrite_align : s.busWrite path (a / 4 * 4) be v = s.busWrite path a be v := by
  simp [busWrite, writeOnce]

theorem busRead_align : s.busRead path (a / 4 * 4) = s.busRead path a := by
  simp [busRead, readOnce]

section Unassigned

variable {s path a} (hu : s.busUp path = true) (hr : s.ratioBroken = false) (hp : pageRow (pageOf a) = none)
  (hm : isMsixPage (pageOf a) = false)

include hp in
theorem accessFault_unassigned : s.accessFault a = some 1 := by
  simp [accessFault, hp]

include hu hr hp hm

theorem busWrite_unassigned : s.busWrite path a be v = ⟨s.accErr path (a / 4 * 4) true 1, false, 0⟩ := by
  have hf : s.accessFault (a / 4 * 4) = some 1 := accessFault_unassigned (by simpa using hp)
  rw [← busWrite_align]
  exact busWrite_fault hu hr (Nat.mul_mod_left _ 4) hf (by simpa using hm)

theorem busRead_unassigned : s.busRead path a = ⟨s.accErr path (a / 4 * 4) false 1, false, 0xFFFFFFFF⟩ := by
  have hf : s.accessFault (a / 4 * 4) = some 1 := accessFault_unassigned (by simpa using hp)
  rw [← busRead_align]
  exact busRead_fault hu hr (Nat.mul_mod_left _ 4) hf (by simpa using hm)

end Unassigned

/-- Nothing follows a write to an unassigned page: each page with a consequence is a page of the index. -/
theorem afterWrite_unassigned {pg : Nat} (hp : pageRow pg = none) : s.afterWrite pg = s := by
  have other {p : Nat} (h : (pageRow p).isSome = true) : pg ≠ p := by
    rintro rfl
    simp [hp] at h
  have hf : firstOf pg = pg := by simp [firstOf, hp]
  simp [afterWrite, hf, other (p := 0x00E) rfl, other (p := 0x080) rfl, other (p := 0x088) rfl, other (p := 0x003) rfl,
    other (p := 0x100) rfl, other (p := 0x180) rfl, other (p := 0x008) rfl, other (p := 0x00C) rfl,
    other (p := 0x00D) rfl, other (p := 0x1D0) rfl, other (p := 0x140) rfl, other (p := 0x040) rfl,
    other (p := 0x002) rfl]

end State

/-! ### The two register commands -/

/-- RL_LOW_READ shows the data of the bus's answer. -/
theorem exec_rlLowRead {path : Path} {addr : BitVec 22} {s t : State} {ok : Bool} {v : Word}
    (h : s.busRead path addr.toNat = ⟨t, ok, v⟩) : exec (.rlLowRead path addr) s = .next (t.setOut v) :=
  (rfl : _ = execRlLowRead path addr s).trans (by simp [execRlLowRead, readCmd, h])

/-- REGISTER_WRITE is the bus's write and what follows on that page. -/
theorem exec_registerWrite {path : Path} {addr : BitVec 22} {be : BitVec 4} {s t : State} {ok : Bool} {v d : Word}
    (h : s.busWrite path addr.toNat be.toNat v = ⟨t, ok, d⟩) :
    exec (.registerWrite addr be ⟨path, v⟩) s = .next (t.afterWrite (pageOf addr.toNat)) :=
  (rfl : _ = execRegisterWrite addr be ⟨path, v⟩ s).trans (by simp [execRegisterWrite, writeAt, h])

end Sys2Proof.Machine

namespace Sys2Proof.Safety
open Sys2Proof.Machine Sys2Proof.Machine.State

/-- Settles O55: the bus answers such an access with the record of a failed access alone, and no reaction follows it. -/
theorem unassignedPages : Obligations.UnassignedPages := by
  unfold Obligations.UnassignedPages
  intro s path a be v hu hr hp hm
  have hread := busRead_unassigned hu hr hp hm
  have hwrite (be : Nat) := busWrite_unassigned be v hu hr hp hm
  have hpage (write : Bool) : F.DEV_ACC_ERR_PAGE.get ((s.accErr path (a.toNat / 4 * 4) write 1).rd R.DEV_ACC_ERR)
      = pageOf a.toNat := by
    rw [accErr_page, pageOf_align, Nat.mod_eq_of_lt (pageOf_lt a)]
  refine ⟨by rw [hread], by rw [hwrite], ⟨_, exec_rlLowRead hread, ?_⟩,
    ⟨_, exec_registerWrite (hwrite _), ?_⟩⟩
  · simp only [rd_setOut]
    exact ⟨setOut_out .., hpage false, accErr_write .., accErr_cause .., accErr_path .., accErr_count ..,
      (accErr_memKept ..).trans (setOut_memKept ..), (accErr_regsKept _ _ _ _ _).trans (setOut_regsKept _ _)⟩
  · rw [afterWrite_unassigned _ hp]
    exact ⟨hpage true, accErr_write .., accErr_cause .., accErr_path .., accErr_count .., accErr_memKept ..,
      accErr_regsKept _ _ _ _ _⟩

end Sys2Proof.Safety
end

section
/-! SUPPORT. A request that is answered: what its record holds from then on (R99, R101), and what answering leaves alone; and
in-band configuration that is denied (R124). -/

namespace Sys2Proof.Machine
open Sys2Proof.Safety State

/-- A request's record once the request with header `h` is answered: its status, its error bits and its data, which are
zeros where none are given. -/
def Req.answered (r : Req) (h : Word64) (status rinfo : Nat) (payload : List Slot) : Req :=
  { r with stage := .done, status := status, rinfo := rinfo,
           payload := if payload.isEmpty then List.replicate (rspSlots h) 0 else payload, lines := [], owes := false }

namespace State

variable (s : State) (r : Req) (id tc hdr data status rinfo b : Nat) (payload : List Slot)

/-! ### Returned credits, the changed record, the sample and the mark of a wait -/

@[simp] theorem returnCredits_xact : (s.returnCredits tc hdr data).xact = s.xact := rfl
@[simp] theorem rd_returnCredits : (s.returnCredits tc hdr data).rd b = s.rd b := rfl
theorem returnCredits_memKept : MemKept s (s.returnCredits tc hdr data) := ⟨rfl, rfl, rfl, rfl, rfl, rfl⟩

@[simp] theorem updReq_reqs (f : Req → Req) :
    (s.updReq id f).xact.reqs = s.xact.reqs.map fun x => if x.id = id then f x else x := rfl
@[simp] theorem rd_updReq (f : Req → Req) : (s.updReq id f).rd b = s.rd b := rfl
theorem updReq_memKept (f : Req → Req) : MemKept s (s.updReq id f) := ⟨rfl, rfl, rfl, rfl, rfl, rfl⟩

@[simp] theorem sample_xact (f : Sample → Sample) : (s.sample id f).xact = s.xact := rfl
@[simp] theorem rd_sample (f : Sample → Sample) : (s.sample id f).rd b = s.rd b := rfl
theorem sample_memKept (f : Sample → Sample) : MemKept s (s.sample id f) := ⟨rfl, rfl, rfl, rfl, rfl, rfl⟩

@[simp] theorem noteWait_reqs : s.noteWait.xact.reqs = s.xact.reqs := rfl
@[simp] theorem rd_noteWait : s.noteWait.rd b = s.rd b := rfl
theorem noteWait_memKept : MemKept s s.noteWait := ⟨rfl, rfl, rfl, rfl, rfl, rfl⟩

/-! ### A response that is owed -/

/-- The registers count only the statuses RANGE, WITHDRAWN, REFUSED and MALFORMED. -/
theorem countStatus_uncounted (h : status ∉ [2, 3, 4, 6]) : s.countStatus r status = s := by
  simp only [List.mem_cons, List.not_mem_nil, or_false, not_or] at h
  obtain ⟨h2, h3, h4, h6⟩ := h
  simp [countStatus, h2, h3, h4, h6]

/-- A status that no register counts: the credits that the request owes go back, and its record is the answered one. -/
theorem answer_uncounted (hr : r.silent = false) (h : status ∉ [2, 3, 4, 6]) :
    s.answer r status rinfo payload
      = (((if r.owes then s.returnCredits (hTc r.header) 6 0 else s).updReq r.id
            (·.answered r.header status rinfo payload)).sample r.id ({ · with status := status })).noteWait := by
  simp only [answer, hr, countStatus_uncounted _ _ _ h, Bool.false_eq_true, if_false]
  rfl

section Answered

variable {r status} (hr : r.silent = false) (h : status ∉ [2, 3, 4, 6])
include hr h

theorem answered_mem (hm : r ∈ s.xact.reqs) :
    r.answered r.header status rinfo payload ∈ (s.answer r status rinfo payload).xact.reqs := by
  have hx : (if r.owes then s.returnCredits (hTc r.header) 6 0 else s).xact = s.xact := by split <;> rfl
  rw [answer_uncounted _ _ _ _ _ hr h, noteWait_reqs, sample_xact, updReq_reqs, hx]
  exact List.mem_map.2 ⟨r, hm, if_pos rfl⟩

theorem rd_answer : (s.answer r status rinfo payload).rd b = s.rd b := by
  rw [answer_uncounted _ _ _ _ _ hr h, rd_noteWait, rd_sample, rd_updReq]
  split <;> rfl

theorem answer_memKept : MemKept s (s.answer r status rinfo payload) := by
  have hc : MemKept s (if r.owes then s.returnCredits (hTc r.header) 6 0 else s) := by
    split
    · exact returnCredits_memKept ..
    · exact .refl s
  rw [answer_uncounted _ _ _ _ _ hr h]
  exact ((hc.trans (updReq_memKept ..)).trans (sample_memKept ..)).trans (noteWait_memKept _)

end Answered

/-- The request that a command takes is one of the request queues, and has the header that the command names. -/
theorem readyReq_spec {s : State} {tag : Nat} {p : Word64 → Bool} {r : Req} (h : s.readyReq tag p = some r) :
    r ∈ s.xact.reqs ∧ p r.header = true := by
  unfold readyReq at h
  split at h
  · have hp := List.find?_some h
    simp only [Bool.and_eq_true] at hp
    obtain ⟨⟨⟨-, hp⟩, -⟩, -⟩ := hp
    exact ⟨List.mem_of_find?_eq_some h, hp⟩
  · cases h

/-! ### In-band configuration that is denied -/

/-- The master's bit of the pair CFG_MID_EN: that of the low word for masters below 32, of the high word for the others. -/
theorem cfgOpen_iff (m : Fin 64) : s.cfgOpen m = true ↔ s.on R.XACT_XACT_CTL F.XACT_XACT_CTL_CFG_EN = true ∧
    (s.rd R.XACT_CFG_MID_EN_HI ++ s.rd R.XACT_CFG_MID_EN_LO).getLsbD m = true := by
  have hbit : (s.rd R.XACT_CFG_MID_EN_HI ++ s.rd R.XACT_CFG_MID_EN_LO).getLsbD m
      = (if (m : Nat) < 32 then s.rd R.XACT_CFG_MID_EN_LO else s.rd R.XACT_CFG_MID_EN_HI).getLsbD (m % 32) := by
    rw [BitVec.getLsbD_append]
    split
    · rw [Nat.mod_eq_of_lt ‹_›]
    · rw [show (m : Nat) % 32 = m - 32 by omega]
  rw [hbit, cfgOpen, Bool.and_eq_true]

/-- A CfgRd or CfgWr of a master that has no access is denied. -/
theorem cfgReq_denied {s : State} {opc tag : Nat} {r : Req} (h : s.readyReq tag (fun x => decide (hOpc x = opc)) = some r)
    (hr : Plain r) (hc : s.cfgOpen (hMid r.header) = false) : s.cfgReq opc tag = s.cfgDenied r := by
  simp [cfgReq, h, hr.1, hc]

/-- The data of a denied access: all ones in the dwords of a CfgRd. -/
def deniedData (h : Word64) : List Slot :=
  if hOpc h = 8 then cfgSlots (List.replicate (hArg h + 1) 0xFFFFFFFF) else []

theorem cfgDenied_eq : s.cfgDenied r
    = (s.inc R.XACT_CFG_DENIED).answer r 8 (2 ^ (hArg r.header + 1) - 1) (deniedData r.header) := rfl

theorem deniedData_cfgRd {h : Word64} (ho : hOpc h = 8) :
    deniedData h = cfgSlots (List.replicate (hArg h + 1) 0xFFFFFFFF) := if_pos ho

section Denied

variable {r} (hr : r.silent = false)
include hr

theorem cfgDenied_mem (hm : r ∈ s.xact.reqs) :
    r.answered r.header 8 (2 ^ (hArg r.header + 1) - 1) (deniedData r.header) ∈ (s.cfgDenied r).xact.reqs := by
  rw [cfgDenied_eq]
  exact answered_mem _ _ _ hr (by decide) (by simpa using hm)

theorem rd_cfgDenied : (s.cfgDenied r).rd b = (s.inc R.XACT_CFG_DENIED).rd b := by
  rw [cfgDenied_eq]
  exact rd_answer _ _ _ _ hr (by decide)

theorem cfgDenied_count : (s.cfgDenied r).rd R.XACT_CFG_DENIED = s.rd R.XACT_CFG_DENIED + 1 := by
  simp [rd_cfgDenied _ _ hr]

theorem cfgDenied_memKept : MemKept s (s.cfgDenied r) :=
  (inc_memKept s R.XACT_CFG_DENIED 1).trans (answer_memKept _ _ _ hr (by decide))

theorem cfgDenied_regsKept : RegsKept s (s.cfgDenied r) [] [R.XACT_CFG_DENIED] := by
  intro a _ ha
  have ha : a ≠ R.XACT_CFG_DENIED := by simpa using ha
  simp [rd_cfgDenied _ _ hr, ha]

end Denied

/-- The response to a CfgRd holds its data. -/
theorem answered_payload_cfgSlots (h : Word64) (l : List Word) :
    (r.answered h status rinfo (cfgSlots l)).payload = cfgSlots l := rfl

end State
end Sys2Proof.Machine

namespace Sys2Proof.Safety
open Sys2Proof.Machine Sys2Proof.Machine.State

/-- A command that runs the configuration access of a master that has none answers the request and counts; the response
meets what the answered record does. -/
theorem Gives.cfgDenied {c : Instr} {s : State} {opc tag : Nat} {r : Req} (he : exec c s = .next (s.cfgReq opc tag))
    (h : s.readyReq tag (fun x => decide (hOpc x = opc)) = some r) (hr : Plain r) (hc : s.cfgOpen (hMid r.header) = false)
    (p : Req → Prop) [DecidablePred p]
    (hp : p (r.answered r.header 8 (2 ^ (hArg r.header + 1) - 1) (deniedData r.header))) :
    Gives c s fun t => t.xact.reqs.any (fun x => decide (p x)) = true ∧
      t.rd R.XACT_CFG_DENIED = s.rd R.XACT_CFG_DENIED + 1 ∧ MemKept s t ∧ RegsKept s t [] [R.XACT_CFG_DENIED] := by
  have ⟨hm, _⟩ := readyReq_spec h
  have ⟨_, hs⟩ := hr
  rw [cfgReq_denied h hr hc] at he
  exact ⟨_, he, List.any_eq_true.2 ⟨_, cfgDenied_mem s hs hm, decide_eq_true hp⟩,
    cfgDenied_count s hs, cfgDenied_memKept s hs, cfgDenied_regsKept s hs⟩

/-- Settles O56: both commands deny the access of such a master, which is one answer and one count. -/
theorem configDenied : Obligations.ConfigDenied := by
  unfold Obligations.ConfigDenied
  refine ⟨cfgOpen_iff, fun s tag r h hr hc => ?read, fun s tag r h hr hc => ?write⟩
  case read =>
    have ⟨_, ho⟩ := readyReq_spec h
    refine .cfgDenied rfl h hr hc _ ⟨rfl, rfl, rfl, rfl, ?_⟩
    rw [deniedData_cfgRd (of_decide_eq_true ho), answered_payload_cfgSlots]
  case write => exact .cfgDenied rfl h hr hc _ ⟨rfl, rfl, rfl, rfl⟩

end Sys2Proof.Safety
end

section
/-! SUPPORT. The PCIe endpoint held by PERST_N (R359): what its reset clears and what it leaves alone, and that neither a
configuration request nor a window access reaches it. -/

namespace Sys2Proof.Machine
open Sys2Proof.Safety State

/-- Every field of a word of zeros is zero. -/
@[simp] theorem Fld.get_zero (f : Fld) : f.get 0#32 = 0 := by simp [Fld.get]

namespace State

variable (s : State) (b : Nat)

/-! ### The reset of the endpoint -/

/-- The reset clears PCIE_STAT and no other register. -/
@[simp] theorem rd_endpointReset :
    s.endpointReset.rd b = if b = R.PCIEM_PCIE_STAT then 0 else s.rd b :=
  rd_wr s R.PCIEM_PCIE_STAT b 0

theorem endpointReset_regsKept : RegsKept s s.endpointReset [] [R.PCIEM_PCIE_STAT] := by
  intro a _ ha
  have ha : a ≠ R.PCIEM_PCIE_STAT := by simpa using ha
  simp [ha]

theorem endpointReset_memKept : MemKept s s.endpointReset := ⟨rfl, rfl, rfl, rfl, rfl, rfl⟩

/-- The link of an endpoint that is reset is down. -/
theorem endpointReset_linkDown : s.endpointReset.on R.PCIEM_PCIE_STAT F.PCIEM_PCIE_STAT_DL_UP = false := by
  simp [on, fld]

/-! ### Accesses to an endpoint that does not answer -/

section Held

variable {s} (h : s.clk.perstN = true)
include h

theorem endpointUp_of_perst : s.endpointUp = false := by simp [endpointUp, h]
theorem barOpen_of_perst : s.barOpen = false := by simp [barOpen, h]

end Held

section Silent

variable {s}

theorem pcieConfig_of_not_up (h : s.endpointUp = false) (c : CfgReq) : s.pcieConfig c = s := by simp [pcieConfig, h]

theorem windowRead_of_closed (h : s.barOpen = false) (off len : Nat) (m : LookupIn) : s.windowRead off len m = s := by
  simp [windowRead, h]

theorem windowWrite_of_closed (h : s.barOpen = false) (off : Nat) (bytes : List (Option Byte)) (poisoned : Bool)
    (m : LookupIn) : s.windowWrite off bytes poisoned m = s := by
  simp [windowWrite, h]

end Silent

/-- A request that changed nothing has no consequence. -/
@[simp] theorem afterMove_self : s.afterMove s = s := by simp [afterMove]

end State

/-! ### The commands -/

/-- PERST_N_ASSERT holds the endpoint and resets it. -/
theorem exec_perstNAssert (s : State) :
    exec .perstNAssert s = .next (({ s with clk := { s.clk with perstN := true } } : State).endpointReset) := rfl

section Held

variable {s : State} (h : s.clk.perstN = true)
include h

theorem exec_pcieConfigRequest_of_perst (c : CfgReq) : exec (.pcieConfigRequest c) s = .next s :=
  (rfl : _ = execPcieConfigRequest c s).trans (by
    rw [execPcieConfigRequest, pcieConfig_of_not_up (endpointUp_of_perst h)])

theorem exec_windowRead_of_perst (off : BitVec 27) (len : BitVec 13) (m : LookupIn) :
    exec (.windowRead off len m) s = .next s :=
  (rfl : _ = execWindowRead off len m s).trans (by
    rw [execWindowRead, windowRead_of_closed (barOpen_of_perst h), afterMove_self])

theorem exec_windowWrite_of_perst (off : BitVec 27) (bytes : List (Option Byte)) (poisoned : Bool) (m : LookupIn) :
    exec (.windowWrite off bytes poisoned m) s = .next s :=
  (rfl : _ = execWindowWrite off bytes poisoned m s).trans (by
    rw [execWindowWrite, windowWrite_of_closed (barOpen_of_perst h), afterMove_self])

end Held

end Sys2Proof.Machine

namespace Sys2Proof.Safety
open Sys2Proof.Machine Sys2Proof.Machine.State

/-- Settles O57: the reset writes PCIE_STAT and the endpoint's own stores alone, and an endpoint that PERST_N holds is
neither up for configuration nor open for its windows. -/
theorem perstResetsTheEndpoint : Obligations.PerstResetsTheEndpoint := by
  unfold Obligations.PerstResetsTheEndpoint
  refine ⟨fun s => ?assert, fun s c h => ?config, fun s o n m h => ?read, fun s o b p m h => ?write⟩
  case assert =>
    refine ⟨_, exec_perstNAssert s, rfl, endpointReset_linkDown _, rfl, rfl, rfl, rfl, rfl, rfl, rfl, rfl, rfl, rfl, rfl, rfl,
      rfl, rfl, rfl, rfl, rfl, rfl, rfl, rfl, endpointReset_memKept _, endpointReset_regsKept _⟩
  case config => exact ⟨s, exec_pcieConfigRequest_of_perst h c, rfl⟩
  case read => exact ⟨s, exec_windowRead_of_perst h o n m, rfl⟩
  case write => exact ⟨s, exec_windowWrite_of_perst h o b p m, rfl⟩

end Sys2Proof.Safety
end

section
/-! SUPPORT. The control slot (R74): the number that slot 0 holds, and the bits of each field in it. -/

namespace Sys2Proof.Machine

/-- What slot 0 holds of the host's width request: the request's mark, its direction and its step. -/
def wReqNat : Option (Bool × Nat) → Nat
  | none => 0
  | some (d, n) => 2 ^ 91 + d.toNat * 2 ^ 90 + n % 4 * 2 ^ 88

/-- The number that slot 0 holds, CRC field 0. -/
def ctl0Nat (c : Ctl0) : Nat :=
  c.kind % 4 * 2 ^ 126 + c.llInit.toNat * 2 ^ 125 + c.seq.toNat * 2 ^ 112 + c.ackType % 4 * 2 ^ 110
    + c.ackSeq.toNat * 2 ^ 98 + c.wStep % 4 * 2 ^ 96 + c.wCount % 16 * 2 ^ 92 + wReqNat c.wReq
    + c.map.toNat * 2 ^ 62 + c.cred.toNat * 2 ^ 26

theorem ctl0Word_eq (c : Ctl0) : ctl0Word c = BitVec.ofNat 128 (ctl0Nat c) := by
  obtain ⟨_, _, _, _, _, _, _, wReq, _, _⟩ := c
  rcases wReq with _ | ⟨_, _⟩ <;> rfl

/-- The width request takes bits 91 to 88. -/
theorem wReqNat_eq (r : Option (Bool × Nat)) : ∃ k < 16, wReqNat r = k * 2 ^ 88 := by
  rcases r with _ | ⟨d, n⟩
  · exact ⟨0, by decide, rfl⟩
  · have := d.toNat_lt
    exact ⟨8 + d.toNat * 4 + n % 4, by omega, by simp only [wReqNat]; omega⟩

section
variable (c : Ctl0) (i w : Nat)

theorem ctl0Word_bits : ((ctl0Word c).extractLsb' i w).toNat = ctl0Nat c % 2 ^ 128 / 2 ^ i % 2 ^ w := by
  rw [ctl0Word_eq, BitVec.extractLsb'_toNat, BitVec.toNat_ofNat, Nat.shiftRight_eq_div_pow]

theorem ctl0Word_bit : (ctl0Word c).getLsbD i = decide (ctl0Nat c % 2 ^ 128 / 2 ^ i % 2 = 1) := by
  rw [ctl0Word_eq, BitVec.getLsbD, BitVec.toNat_ofNat, Nat.testBit_eq_decide_div_mod_eq]

end

/-- Each field stands in its own bits: the terms of the sum above it are multiples of its range, those below it are less than
its lowest bit. -/
theorem ctl0Nat_fields (c : Ctl0) :
    let n := ctl0Nat c % 2 ^ 128
    n / 2 ^ 126 % 2 ^ 2 = c.kind % 4 ∧ n / 2 ^ 125 % 2 = c.llInit.toNat ∧ n / 2 ^ 112 % 2 ^ 12 = c.seq.toNat ∧
      n / 2 ^ 110 % 2 ^ 2 = c.ackType % 4 ∧ n / 2 ^ 98 % 2 ^ 12 = c.ackSeq.toNat ∧ n / 2 ^ 96 % 2 ^ 2 = c.wStep % 4 ∧
      n / 2 ^ 92 % 2 ^ 4 = c.wCount % 16 ∧ n / 2 ^ 88 % 2 ^ 4 = wReqNat c.wReq / 2 ^ 88 ∧
      n / 2 ^ 62 % 2 ^ 26 = c.map.toNat ∧ n / 2 ^ 26 % 2 ^ 36 = c.cred.toNat := by
  intro n
  have hl := c.llInit.toNat_lt
  have hs := c.seq.isLt
  have ha := c.ackSeq.isLt
  have hm := c.map.isLt
  have hc := c.cred.isLt
  obtain ⟨k, hk, hw⟩ := wReqNat_eq c.wReq
  simp only [n, ctl0Nat, hw]
  refine ⟨?_, ?_, ?_, ?_, ?_, ?_, ?_, ?_, ?_, ?_⟩ <;> omega

/-- The host's width request is read back from its four bits. -/
theorem wReq_readBack (w : Slot) (r : Option (Bool × Nat)) (hr : ∀ x ∈ r, x.2 < 4)
    (h : (w.extractLsb' 88 4).toNat = wReqNat r / 2 ^ 88) :
    (if w.getLsbD 91 then some (w.getLsbD 90, (w.extractLsb' 88 2).toNat) else none) = r := by
  have hbits : w.toNat / 2 ^ 88 % 2 ^ 4 = wReqNat r / 2 ^ 88 := by
    rw [← h, BitVec.extractLsb'_toNat, Nat.shiftRight_eq_div_pow]
  simp only [BitVec.getLsbD, Nat.testBit_eq_decide_div_mod_eq, BitVec.extractLsb'_toNat, Nat.shiftRight_eq_div_pow]
  rcases r with _ | ⟨d, n⟩
  · have h91 : ¬ w.toNat / 2 ^ 91 % 2 = 1 := by simp only [wReqNat] at hbits; omega
    exact if_neg (by simpa only [decide_eq_true_eq] using h91)
  · have hn : n < 4 := hr (d, n) rfl
    have hd := d.toNat_lt
    simp only [wReqNat] at hbits
    have h91 : w.toNat / 2 ^ 91 % 2 = 1 := by omega
    have h90 : w.toNat / 2 ^ 90 % 2 = d.toNat := by omega
    have h88 : w.toNat / 2 ^ 88 % 2 ^ 2 = n := by omega
    rw [h91, h90, h88]
    cases d <;> rfl

end Sys2Proof.Machine

namespace Sys2Proof.Safety
open Sys2Proof.Machine

/-- Settles O15: slot 0 holds a sum of terms with disjoint bits, one for each field. -/
theorem controlSlotFields : Obligations.ControlSlotFields := by
  unfold Obligations.ControlSlotFields
  intro c hkind hackType hstep hcount hreq
  obtain ⟨e1, e2, e3, e4, e5, e6, e7, e8, e9, e10⟩ := ctl0Nat_fields c
  have hw := wReq_readBack (ctl0Word c) c.wReq hreq (by rw [ctl0Word_bits, e8])
  have hinit : (ctl0Word c).getLsbD 125 = c.llInit := by rw [ctl0Word_bit, e2]; cases c.llInit <;> rfl
  have hseq : (ctl0Word c).extractLsb' 112 12 = c.seq := BitVec.eq_of_toNat_eq (by rw [ctl0Word_bits, e3])
  have hack : (ctl0Word c).extractLsb' 98 12 = c.ackSeq := BitVec.eq_of_toNat_eq (by rw [ctl0Word_bits, e5])
  have hmap : (ctl0Word c).extractLsb' 62 26 = c.map := BitVec.eq_of_toNat_eq (by rw [ctl0Word_bits, e9])
  have hcred : (ctl0Word c).extractLsb' 26 36 = c.cred := BitVec.eq_of_toNat_eq (by rw [ctl0Word_bits, e10])
  have hk : ((ctl0Word c).extractLsb' 126 2).toNat = c.kind := by rw [ctl0Word_bits, e1, Nat.mod_eq_of_lt hkind]
  have ht : ((ctl0Word c).extractLsb' 110 2).toNat = c.ackType := by rw [ctl0Word_bits, e4, Nat.mod_eq_of_lt hackType]
  have hs : ((ctl0Word c).extractLsb' 96 2).toNat = c.wStep := by rw [ctl0Word_bits, e6, Nat.mod_eq_of_lt hstep]
  have hc : ((ctl0Word c).extractLsb' 92 4).toNat = c.wCount := by rw [ctl0Word_bits, e7, Nat.mod_eq_of_lt hcount]
  simp only [ctl0Of, hk, hinit, hseq, ht, hack, hs, hc, hw, hmap, hcred]

end Sys2Proof.Safety
end

section
/-! SUPPORT. The arithmetic of the atomic operations (R112): the model's values as bit-vector operations of the width. -/

namespace Sys2Proof.Machine
namespace State

/-- The model reads a 64-bit value as signed as its bits say. -/
theorem signed64_toNat (x : BitVec 64) : signed64 x.toNat = x.toInt := by
  rw [signed64, BitVec.toInt_eq_toNat_cond]
  split <;> split <;> omega

/-- Signed comparison of two values. -/
theorem signed64_lt_iff (x y : BitVec 64) : signed64 x.toNat < signed64 y.toNat ↔ x.slt y = true := by
  rw [signed64_toNat, signed64_toNat, BitVec.slt_iff_toInt_lt]

theorem atomNew_add32 (x a b : BitVec 32) : atomNew 0 x.toNat a.toNat b.toNat = (x + a).toNat := (BitVec.toNat_add x a).symm

theorem atomNew_add64 (x a b : BitVec 64) : atomNew 1 x.toNat a.toNat b.toNat = (x + a).toNat := (BitVec.toNat_add x a).symm

/-- Compare and swap, in either width. -/
theorem atomNew_cas {w op : Nat} (h : op = 4 ∨ op = 5) (x a b : BitVec w) :
    atomNew op x.toNat a.toNat b.toNat = (if x = a then b else x).toNat := by
  have he : atomNew op x.toNat a.toNat b.toNat = if x.toNat = a.toNat then b.toNat else x.toNat := by
    rcases h with rfl | rfl <;> rfl
  rw [he, apply_ite BitVec.toNat]
  simp only [BitVec.toNat_inj]

theorem atomNew_minSigned (x a b : BitVec 64) :
    atomNew 9 x.toNat a.toNat b.toNat = (if a.slt x then a else x).toNat := by
  simp only [atomNew, signed64_lt_iff, apply_ite BitVec.toNat]

theorem atomNew_maxSigned (x a b : BitVec 64) :
    atomNew 10 x.toNat a.toNat b.toNat = (if x.slt a then a else x).toNat := by
  simp only [atomNew, signed64_lt_iff, apply_ite BitVec.toNat]

theorem atomNew_min (x a b : BitVec 64) : atomNew 11 x.toNat a.toNat b.toNat = (if a.ult x then a else x).toNat := by
  simp only [atomNew, BitVec.ult_iff_lt, BitVec.lt_def, apply_ite BitVec.toNat]
  split <;> omega

theorem atomNew_max (x a b : BitVec 64) : atomNew 12 x.toNat a.toNat b.toNat = (if x.ult a then a else x).toNat := by
  simp only [atomNew, BitVec.ult_iff_lt, BitVec.lt_def, apply_ite BitVec.toNat]
  split <;> omega

end State
end Sys2Proof.Machine

namespace Sys2Proof.Safety
open Sys2Proof.Machine Sys2Proof.Machine.State

/-- Settles O17: each operation's value on the numbers of its operands is the number of its value on their bits. -/
theorem atomicValues : Obligations.AtomicValues := by
  unfold Obligations.AtomicValues
  refine ⟨fun x a b => ⟨atomNew_add32 x a b, rfl, atomNew_cas (.inl rfl) x a b⟩, fun x a b => ⟨atomNew_add64 x a b, rfl,
    atomNew_cas (.inr rfl) x a b, ?_, ?_, ?_, atomNew_minSigned x a b, atomNew_maxSigned x a b, atomNew_min x a b,
    atomNew_max x a b⟩⟩
  · exact (BitVec.toNat_and x a).symm
  · exact (BitVec.toNat_or x a).symm
  · exact (BitVec.toNat_xor x a).symm

end Sys2Proof.Safety
end

section
/-! SUPPORT. The idle tick (R260, R277, R294, R355, R431): which parts of the state its watchers change, and the state right
after a VAUX power-on. -/

namespace Sys2Proof.Machine
open Sys2Proof.Safety State

/-- What the idle tick's watchers leave alone: the queue, both times, the memory, the link and the requests. -/
structure TickKept (s t : State) : Prop where
  pending : t.pending = s.pending
  up : t.clk.up = s.clk.up
  ts : t.ts = s.ts
  mem : MemKept s t
  link : t.link = s.link
  xact : t.xact = s.xact

namespace TickKept

theorem refl (s : State) : TickKept s s := ⟨rfl, rfl, rfl, .refl s, rfl, rfl⟩

theorem trans {s t u : State} (h : TickKept s t) (k : TickKept t u) : TickKept s u :=
  ⟨k.pending.trans h.pending, k.up.trans h.up, k.ts.trans h.ts, h.mem.trans k.mem, k.link.trans h.link,
    k.xact.trans h.xact⟩

theorem foldl {β : Type} (f : State → β → State) (l : List β) (hf : ∀ t b, TickKept t (f t b)) (s : State) :
    TickKept s (l.foldl f s) := by
  induction l generalizing s with
  | nil => exact refl s
  | cons b l ih => exact (hf s b).trans (ih _)

end TickKept

namespace State

theorem flag_tickKept (s : State) (a : Nat) (f : Fld) (b : Bool) : TickKept s (s.flag a f b) :=
  ⟨rfl, rfl, rfl, ⟨rfl, rfl, rfl, rfl, rfl, rfl⟩, rfl, rfl⟩

theorem perfAdd_tickKept (s : State) (k n : Nat) : TickKept s (s.perfAdd k n) :=
  ⟨rfl, rfl, rfl, ⟨rfl, rfl, rfl, rfl, rfl, rfl⟩, rfl, rfl⟩

theorem syncFc_tickKept (s : State) : TickKept s s.syncFc := by
  unfold syncFc
  exact ⟨rfl, rfl, rfl, ⟨rfl, rfl, rfl, rfl, rfl, rfl⟩, rfl, rfl⟩

theorem alertTick_tickKept (s : State) : TickKept s s.alertTick := by
  unfold alertTick releaseAlert
  split
  · split
    · have h : TickKept s { s with fcol := { s.fcol with alertN := false } } :=
        ⟨rfl, rfl, rfl, ⟨rfl, rfl, rfl, rfl, rfl, rfl⟩, rfl, rfl⟩
      exact h.trans (syncFc_tickKept _)
    · exact syncFc_tickKept s
  · exact .refl s

theorem gatesClose_tickKept (s : State) : TickKept s s.gatesClose :=
  (TickKept.foldl _ _ (fun t _ => flag_tickKept t _ _ _) s).trans
    ⟨rfl, rfl, rfl, ⟨rfl, rfl, rfl, rfl, rfl, rfl⟩, rfl, rfl⟩

theorem hwGatesClose_tickKept (s : State) : TickKept s s.hwGatesClose := by
  unfold hwGatesClose
  split
  · exact .refl s
  · exact ⟨rfl, rfl, rfl, ⟨rfl, rfl, rfl, rfl, rfl, rfl⟩, rfl, rfl⟩

theorem perfTick_tickKept (s : State) (level : Nat → Nat → Bool) : TickKept s (s.perfTick level) := by
  unfold perfTick
  split
  · exact .refl s
  · refine TickKept.foldl _ _ (fun t e => ?_) s
    dsimp only
    split
    · exact perfAdd_tickKept ..
    · split
      · exact perfAdd_tickKept ..
      · exact .refl t

/-- Priorities that rise leave the rest of each request alone. -/
theorem raisePrio_reqs (s : State) :
    s.raisePrio.xact.reqs.map (fun r => { r with prio := 0 }) = s.xact.reqs.map fun r => { r with prio := 0 } := by
  simp only [raisePrio, List.map_map]
  refine List.map_congr_left fun r _ => ?_
  simp only [Function.comp]
  split <;> rfl

/-- The time of an idle tick has passed. -/
def ticked (s : State) : State := { s with clk := { s.clk with up := s.clk.up + 20 } }

/-- The timestamp has counted it too. -/
def stamped (s : State) : State := { s.ticked with ts := s.ts + 20 }

theorem idle_of_reset {s : State} (h : s.inReset = true) : s.idle = s.ticked := if_pos h

theorem idle_of_running {s : State} (h : s.inReset = false) :
    s.idle = (s.stamped.alertTick.gatesClose.hwGatesClose.perfTick s.stamped.levelBit).raisePrio :=
  if_neg (by rw [Bool.not_eq_true]; exact h)

/-- What the idle tick does besides moving the two times. -/
theorem idle_kept (s : State) : s.idle.pending = s.pending ∧ s.idle.clk.up = s.clk.up + 20 ∧
    s.idle.ts = (if s.inReset then s.ts else s.ts + 20) ∧ MemKept s s.idle ∧ s.idle.link = s.link ∧
    s.idle.xact.reqs.map (fun r => { r with prio := 0 }) = s.xact.reqs.map fun r => { r with prio := 0 } := by
  by_cases hr : s.inReset = true
  · rw [idle_of_reset hr, if_pos hr]
    exact ⟨rfl, rfl, rfl, ⟨rfl, rfl, rfl, rfl, rfl, rfl⟩, rfl, rfl⟩
  · rw [idle_of_running (by simpa using hr), if_neg hr]
    have hk := (((alertTick_tickKept s.stamped).trans (gatesClose_tickKept _)).trans (hwGatesClose_tickKept _)).trans
      (perfTick_tickKept _ s.stamped.levelBit)
    generalize s.stamped.alertTick.gatesClose.hwGatesClose.perfTick s.stamped.levelBit = u at hk ⊢
    obtain ⟨hpending, hup, hts, hmem, hlink, hxact⟩ := hk
    exact ⟨hpending, hup, hts, hmem, hlink, (raisePrio_reqs u).trans (by rw [hxact]; rfl)⟩

end State
end Sys2Proof.Machine

namespace Sys2Proof.Safety
open Sys2Proof.Machine Sys2Proof.Machine.State

/-- Settles O58: a step matches on the queue, and the idle tick's watchers keep what the statement names. -/
theorem stepRunsTheFrontCommand : Obligations.StepRunsTheFrontCommand := by
  unfold Obligations.StepRunsTheFrontCommand
  refine ⟨fun s c rest h => by simp [step, h], fun s h => ⟨s.idle, by simp [step, h], ?_⟩⟩
  have hk := idle_kept s
  rwa [h] at hk

end Sys2Proof.Safety

namespace Sys2Proof.Machine
open Sys2Proof.Safety State

/-- Every address of a line's 65 bytes but the last lies on no metadata byte. -/
theorem dramDefault_data (f o i : Nat) (h : i < 64) : dramDefault (lineKey f o + i) = 0 := by
  have : (lineKey f o + i) % 65 ≠ 64 := by unfold lineKey; omega
  simp [dramDefault, this]

theorem dramDefault_meta (f o : Nat) : dramDefault (lineKey f o + 64) = 0x40 := by
  have : (lineKey f o + 64) % 65 = 64 := by unfold lineKey; omega
  simp [dramDefault, this]

/-- Bytes that are zero make the number 0. -/
theorem dataOf_zero {get : Nat → Byte} {n : Nat} (h : ∀ i < n, get i = 0) : dataOf get n = 0 := by
  induction n with
  | zero => rfl
  | succ n ih => simp [dataOf, ih fun i hi => h i (by omega), h n (by omega)]

/-- A DRAM in which nothing is written reads as zeroed lines (R138). -/
theorem State.dramRead_of_blank {s : State} (h : s.dram = []) (f o : Nat) : s.dramRead f o = Line.zeroed := by
  have hb (k : Nat) : s.dramByte k = dramDefault k := by rw [dramByte, h]; rfl
  simp only [dramRead, hb, dramDefault_meta, dataOf_zero fun i hi => dramDefault_data f o i hi]
  rfl

end Sys2Proof.Machine

namespace Sys2Proof.Safety
open Sys2Proof.Machine Sys2Proof.Machine.State

/-- Settles O59: every sparse map of the state after power-on is empty. -/
theorem resetState : Obligations.ResetState := by
  unfold Obligations.ResetState
  refine ⟨⟨rfl, rfl, rfl⟩, rfl, by decide, rfl, fun _ => rfl, dramRead_of_blank rfl, by decide, by decide, rfl, by decide,
    by decide, by decide, by decide, by decide, by decide⟩

end Sys2Proof.Safety
end

section
/-! SUPPORT. What a step keeps (R365, R372): each command's meaning is a composition of the operations whose frames the laws
`Keeps` give, and so is the idle tick. -/

namespace Sys2Proof.Machine
open Sys2Proof.Safety State

/-- A die that has answered all along leaves the state as it is; one that has gone silent is declared and retired (R179). -/
theorem exec_cacheDieNotResponding_keeps {z s : State} (h : Keeps z s) :
    ∃ t, exec .cacheDieNotResponding s = .next t ∧ Keeps z t := by
  by_cases hd : s.dieStill = true
  · exact ⟨_, if_pos hd, settle_keeps _ (closeChecks_keeps _ (dieDead_keeps _ (settle_keeps _
      (levelChange_keeps _ _ _ (dieSilent_keeps _ h)))))⟩
  · exact ⟨_, if_neg hd, h⟩

/-- Every command completes, and keeps what its operations keep. -/
theorem exec_keeps {z s : State} (i : Instr) (h : Keeps z s) : ∃ t, exec i s = .next t ∧ Keeps z t := by
  cases i with
  | cacheDieNotResponding => exact exec_cacheDieNotResponding_keeps h
  | vauxPowerOn => exact ⟨_, rfl, powerOn_keeps _ h⟩
  | vauxDrop => exact ⟨_, rfl, powerDrop_keeps _ h⟩
  | railOutOfWindow => exact ⟨_, rfl, .ite h (flag_keeps _ _ _ _ (put_keeps _ _ _ _ h))⟩
  | resetNAssert => exact ⟨_, rfl, resetAssert_keeps _ h⟩
  | resetNDeassert => exact ⟨_, rfl, resetDeassert_keeps _ h⟩
  | perstNAssert => exact ⟨_, rfl, endpointReset_keeps _ (h.same rfl rfl rfl rfl rfl)⟩
  | perstNDeassert => exact ⟨_, rfl, pcieClock_keeps _ (h.same rfl rfl rfl rfl rfl)⟩
  | rstCmdOrderly | rstCmdImmediate | regbusDivWrite | gateOpen | blockReset | pgEnableWrite | spareCmdStart
  | spareCmdAbort | injOne | injBurst | spareResWrite | locQuery | wdrFind | cacheEnableWrite | bankCmdRetire
  | regCtlWrite | tcLatTargetWrite | resQuery | stickyLockSet | calBlkWrite | calDataWrite | commit | discard
  | freezeWrite | userSnapshot | clear | clearAll | ringSelWrite | widthCtlWrite | dvfsTargetWrite
  | testModeWrite | localTimingWrite => exact ⟨_, rfl, regCmd_keeps _ _ _ _ h⟩
  | orderlyResetDone => exact ⟨_, rfl, orderlyDone_keeps _ _ h⟩
  | orderlyResetTimeout => exact ⟨_, rfl, orderlyTimeout_keeps _ h⟩
  | bootStepComplete => exact ⟨_, rfl, settle_keeps _ (bootStepComplete_keeps _ _ h)⟩
  | bootRailWaitExpiry => exact ⟨_, rfl, railWaitExpiry_keeps _ h⟩
  | xoWaitExpiry => exact ⟨_, rfl, xoWait_keeps _ h⟩
  | xoJudgeWindowEnd => exact ⟨_, rfl, xoJudgeWindow_keeps _ _ h⟩
  | clockMonitorWindowEnd => exact ⟨_, rfl, monitorWindow_keeps _ _ _ h⟩
  | xoAmpReenable => exact ⟨_, rfl, ampEnable_keeps _ h⟩
  | drogueTimeout => exact ⟨_, rfl, drogueTimeout_keeps _ h⟩
  | refPcieSet | fmcStart | marginStart | retrain | recover | llReset | autoWdrSet | wdrCmdReinstate | ckptNow
  | flush | invalidate | phyRetrain | remapCmd | rowRepairCmd | scrubCmd | cancel | alertClr | bistCmd | rawCmd
  | snapshot => exact ⟨_, rfl, regSet_keeps _ _ _ _ h⟩
  | pllUnlock => exact ⟨_, rfl, pllUnlock_keeps _ _ h⟩
  | fmcDone => exact ⟨_, rfl, fmcDone_keeps _ _ h⟩
  | toscTrack => exact ⟨_, rfl, toscTrack_keeps _ _ h⟩
  | gateRequest =>
    exact ⟨_, rfl, .ite (afterWrite_keeps _ _ (wrPgCtl_keeps _ _ _ _ _ _ _ h)) (regCmd_keeps _ _ _ _ h)⟩
  | gateDenied => exact ⟨_, rfl, gateDenied_keeps _ _ h⟩
  | trainingStart => exact ⟨_, rfl, afterLink_keeps _ (trainingStart_keeps _ h)⟩
  | trainingStateDone => exact ⟨_, rfl, afterLink_keeps _ (trainingStateDone_keeps _ _ h)⟩
  | trainingTimeout => exact ⟨_, rfl, afterLink_keeps _ (trainingTimedOut_keeps _ _ h)⟩
  | markerLockLost => exact ⟨_, rfl, afterLink_keeps _ (markerLost_keeps _ _ _ h)⟩
  | refLaneHoldoverEnd => exact ⟨_, rfl, afterLink_keeps _ (holdoverEnds_keeps _ h)⟩
  | eqReq => exact ⟨_, rfl, eqRequest_keeps _ _ _ h⟩
  | eqAck => exact ⟨_, rfl, eqAckSeen_keeps _ _ _ h⟩
  | param => exact ⟨_, rfl, paramSeen_keeps _ _ _ h⟩
  | train => exact ⟨_, rfl, eqCalibrated_keeps _ _ (trainSeen_keeps _ _ _ h)⟩
  | eidle => exact ⟨_, rfl, eidleSeen_keeps _ _ h⟩
  | exit => exact ⟨_, rfl, exitSeen_keeps _ _ _ h⟩
  | groupReady => exact ⟨_, rfl, afterLink_keeps _ (groupReady_keeps _ _ _ _ _ h)⟩
  | padFrameInsert => exact ⟨_, rfl, padInsert_keeps _ h⟩
  | pad => exact ⟨_, rfl, h⟩
  | keepaliveSend => exact ⟨_, rfl, keepaliveSend_keeps _ _ h⟩
  | keepalive => exact ⟨_, rfl, keepaliveSeen_keeps _ _ _ h⟩
  | keepaliveMissed => exact ⟨_, rfl, afterLink_keeps _ (keepaliveMissed_keeps _ _ h)⟩
  | shadowReq => exact ⟨_, rfl, shadowReq_keeps _ _ _ h⟩
  | shadowAck => exact ⟨_, rfl, shadowAck_keeps _ _ _ h⟩
  | sparingAckTimeout => exact ⟨_, rfl, afterLink_keeps _ (ackMissing_keeps _ _ h)⟩
  | sparingAdaptDone => exact ⟨_, rfl, adaptDone_keeps _ _ h⟩
  | sparingAdaptTimeout => exact ⟨_, rfl, afterLink_keeps _ (adaptTimeout_keeps _ _ h)⟩
  | sparingCompareDone => exact ⟨_, rfl, afterLink_keeps _ (compareDone_keeps _ _ _ h)⟩
  | switch => exact ⟨_, rfl, switchDone_keeps _ _ _ _ h⟩
  | release => exact ⟨_, rfl, afterLink_keeps _ (releaseDone_keeps _ _ _ h)⟩
  | marginDone => exact ⟨_, rfl, marginDone_keeps _ _ _ _ h⟩
  | eyeUpdate => exact ⟨_, rfl, eyeUpdate_keeps _ _ _ _ _ h⟩
  | frameTransmit => exact ⟨_, rfl, afterLink_keeps _ (frameTransmit_keeps _ _ h)⟩
  | flitReceive => exact ⟨_, rfl, afterLink_keeps _ (flitIn_keeps _ _ _ h)⟩
  | ackTimeout => exact ⟨_, rfl, afterLink_keeps _ (ackTimeout_keeps _ h)⟩
  | replayHoldExpiry => exact ⟨_, rfl, clocked_keeps _ _ h fun _ h => (holdExpires_keeps _ h)⟩
  | stallTimeout => exact ⟨_, rfl, clocked_keeps _ _ h fun _ h => (afterLink_keeps _ (stallExpires_keeps _ h))⟩
  | widthAutoWindow =>
    exact ⟨_, rfl, clocked_keeps _ _ h fun _ h => (afterLink_keeps _ (autoWindow_keeps _ _ h))⟩
  | badHeader => exact ⟨_, rfl, badHeader_keeps _ _ h⟩
  | requestAdmit => exact ⟨_, rfl, afterMove_keeps _ _ (requestAdmit_keeps _ _ _ _ _ h)⟩
  | rdReq => exact ⟨_, rfl, afterMove_keeps _ _ (rdReq_keeps _ _ _ h)⟩
  | wrReq | wrReqPoison => exact ⟨_, rfl, afterMove_keeps _ _ (wrReq_keeps _ _ _ _ h)⟩
  | atomReq => exact ⟨_, rfl, afterMove_keeps _ _ (atomReq_keeps _ _ _ h)⟩
  | fenceReq => exact ⟨_, rfl, fenceReq_keeps _ _ h⟩
  | fencePerformed => exact ⟨_, rfl, fencePerformed_keeps _ _ h⟩
  | hintPin | hintUnpin | hintPrefetch | hintNocache | hintCache =>
    exact ⟨_, rfl, afterFlags_keeps _ _ (hintReq_keeps _ _ _ _ h)⟩
  | hintRelease => exact ⟨_, rfl, settle_keeps _ (hintReq_keeps _ _ _ _ h)⟩
  | workReq => exact ⟨_, rfl, afterMove_keeps _ _ (workReq_keeps _ _ _ h)⟩
  | cfgRd | cfgWr => exact ⟨_, rfl, cfgReq_keeps _ _ _ h⟩
  | responseSend => exact ⟨_, rfl, responseSend_keeps _ _ h⟩
  | eventSend => exact ⟨_, rfl, eventSend_keeps _ h⟩
  | epochTick => exact ⟨_, rfl, clocked_keeps _ _ h fun _ h => (settle_keeps _ (epochTick_keeps _ h))⟩
  | heatDecay => exact ⟨_, rfl, clocked_keeps _ _ h fun _ h => (heatDecay_keeps _ h)⟩
  | migrationCopyDone =>
    exact ⟨_, rfl, clocked_keeps _ _ h fun _ h => (settle_keeps _ (closeChecks_keeps _ (copyDone_keeps _ _ _ h)))⟩
  | migrationRecopyPassDone =>
    exact ⟨_, rfl, clocked_keeps _ _ h fun _ h => (settle_keeps _ (closeChecks_keeps _ (recopyDone_keeps _ _ _ h)))⟩
  | migrationSwitch =>
    exact ⟨_, rfl, clocked_keeps _ _ h fun _ h => (settle_keeps _ (closeChecks_keeps _ (migSwitch_keeps _ _ _ h)))⟩
  | migrationCloseTimeout =>
    exact ⟨_, rfl, clocked_keeps _ _ h fun _ h => (settle_keeps _ (closeTimeout_keeps _ _ _ h))⟩
  | frameZeroStart => exact ⟨_, rfl, clocked_keeps _ _ h fun _ h => (zeroStart_keeps _ h)⟩
  | frameZeroDone => exact ⟨_, rfl, clocked_keeps _ _ h fun _ h => (settle_keeps _ (zeroEnd_keeps _ _ h))⟩
  | tableRepairDone =>
    exact ⟨_, rfl, clocked_keeps _ _ h fun _ h => (settle_keeps _ (repairDone_keeps _ _ _ _ h))⟩
  | deficitGraceExpiry => exact ⟨_, rfl, clocked_keeps _ _ h fun _ h => (settle_keeps _ (graceExpiry_keeps _ h))⟩
  | checkpointTimer => exact ⟨_, rfl, clocked_keeps _ _ h fun _ h => (checkpointDue_keeps _ h)⟩
  | checkpointDone => exact ⟨_, rfl, clocked_keeps _ _ h fun _ h => (checkpointEnd_keeps _ h)⟩
  | keelRebuildDone => exact ⟨_, rfl, clocked_keeps _ _ h fun _ h => (settle_keeps _ (keelRebuilt_keeps _ _ h))⟩
  | writeDrain => exact ⟨_, rfl, clocked_keeps _ _ h fun _ h => (afterMove_keeps _ _ (writeDrain_keeps _ _ _ h))⟩
  | bgWriteback => exact ⟨_, rfl, clocked_keeps _ _ h fun _ h => (afterMove_keeps _ _ (bgWork_keeps _ _ _ h))⟩
  | bankScanDone =>
    exact ⟨_, rfl, clocked_keeps _ _ h fun _ h => (settle_keeps _ (closeChecks_keeps _ (bankRetired_keeps _ _ _ h)))⟩
  | cacheBankTimeout =>
    exact ⟨_, rfl, clocked_keeps _ _ h fun _ h => (afterMove_keeps _ _ (closeChecks_keeps _ (bankTimeout_keeps _ _ _ _ _ h)))⟩
  | dramSchedule => exact ⟨_, rfl, afterClock_keeps _ _ _ (schedule_keeps _ _ _ _ h)⟩
  | readDataReturn => exact ⟨_, rfl, afterClock_keeps _ _ _ (dataReturn_keeps _ _ _ _ _ _ h)⟩
  | correctionWriteback => exact ⟨_, rfl, afterClock_keeps _ _ _ (correctionClock_keeps _ _ _ h)⟩
  | powerDownEntry => exact ⟨_, rfl, clocked_keeps _ _ h fun _ h => (pdEntry_keeps _ _ _ h)⟩
  | refreshSlot => exact ⟨_, rfl, clocked_keeps _ _ h fun _ h => (refSlot_keeps _ _ _ _ h)⟩
  | refreshDue => exact ⟨_, rfl, clocked_keeps _ _ h fun _ h => (refDue_keeps _ _ _ _ h)⟩
  | refreshStepDown => exact ⟨_, rfl, refreshDown_keeps _ _ h⟩
  | controllerSwap => exact ⟨_, rfl, clocked_keeps _ _ h fun _ h => (swapBegin_keeps _ _ _ h)⟩
  | controllerSwapDone =>
    exact ⟨_, rfl, clocked_keeps _ _ h fun _ h => (afterUnit_keeps _ (swapSettled_keeps _ _ (swapDone_keeps _ _ h)))⟩
  | periodicTrainingDue => exact ⟨_, rfl, clocked_keeps _ _ h fun _ h => (trainDue_keeps _ _ _ h)⟩
  | periodicTrainingDone =>
    exact ⟨_, rfl, clocked_keeps _ _ h fun _ h => (settle_keeps _ (trainDone_keeps _ _ _ _ h))⟩
  | remapVerifyDone =>
    exact ⟨_, rfl, clocked_keeps _ _ h fun _ h => (settle_keeps _ (remapFailed_keeps _ _ (remapNext_keeps _ _ (remapFailed_keeps _ _ (remapVerified_keeps _ _ _ _ h)))))⟩
  | rowRepairDone => exact ⟨_, rfl, clocked_keeps _ _ h fun _ h => (settle_keeps _ (rowRepairDone_keeps _ _ h))⟩
  | scrubRowDue => exact ⟨_, rfl, scrubDue_keeps _ _ _ h⟩
  | scrubLate => exact ⟨_, rfl, clocked_keeps _ _ h fun _ h => (scrubLate_keeps _ _ _ h)⟩
  | scrubCmdDone => exact ⟨_, rfl, clocked_keeps _ _ h fun _ h => (scrubCmdDone_keeps _ h)⟩
  | workBegin => exact ⟨_, rfl, workBegin_keeps _ _ h⟩
  | precheckDone =>
    exact ⟨_, rfl, clocked_keeps _ _ h fun _ h => (afterMove_keeps _ _ (afterWork_keeps _ _ (precheckDone_keeps _ _ _ h)))⟩
  | chunkCommit =>
    exact ⟨_, rfl, clocked_keeps _ _ h fun _ h => (afterMove_keeps _ _ (afterWork_keeps _ _ (closeChecks_keeps _ (chunkCommit_keeps _ _ _ _ h))))⟩
  | commitRecordApply =>
    exact ⟨_, rfl, clocked_keeps _ _ h fun _ h => (afterMove_keeps _ _ (afterWork_keeps _ _ (closeChecks_keeps _ (recordApply_keeps _ _ _ h))))⟩
  | engineFault => exact ⟨_, rfl, clocked_keeps _ _ h fun _ h => (afterUnit_keeps _ (engineFault_keeps _ _ _ h))⟩
  | engineHang => exact ⟨_, rfl, clocked_keeps _ _ h fun _ h => (afterUnit_keeps _ (engineHang_keeps _ _ h))⟩
  | sparePowerUp => exact ⟨_, rfl, spareUp_keeps _ _ _ h⟩
  | masterWindowStart => exact ⟨_, rfl, clocked_keeps _ _ h fun _ h => (windowStart_keeps _ _ h)⟩
  | holdRelease => exact ⟨_, rfl, holdRelease_keeps _ h⟩
  | holdLimitExpiry => exact ⟨_, rfl, clocked_keeps _ _ h fun _ h => (holdLimit_keeps _ _ h)⟩
  | delivCompute => exact ⟨_, rfl, clocked_keeps _ _ h fun _ h => (delivCompute_keeps _ h)⟩
  | guarWindowStart => exact ⟨_, rfl, clocked_keeps _ _ h fun _ h => (guarWindowStart_keeps _ h)⟩
  | urgPinAssert => exact ⟨_, rfl, pinAssert_keeps _ _ h⟩
  | urgPinDeassert => exact ⟨_, rfl, pinDeassert_keeps _ _ h⟩
  | urgPinStuck => exact ⟨_, rfl, pinStick_keeps _ _ h⟩
  | countedDelivery => exact ⟨_, rfl, afterFault_keeps _ _ (countedDelivery_keeps _ _ h)⟩
  | levelChange => exact ⟨_, rfl, afterFault_keeps _ _ (levelChange_keeps _ _ _ h)⟩
  | recordRecover => exact ⟨_, rfl, recordRecover_keeps _ _ _ h⟩
  | bucketLeak => exact ⟨_, rfl, settle_keeps _ (leak_keeps _ _ h)⟩
  | retestStart => exact ⟨_, rfl, clocked_keeps _ _ h fun _ h => (retestStart_keeps _ _ h)⟩
  | retestDone => exact ⟨_, rfl, clocked_keeps _ _ h fun _ h => (afterUnit_keeps _ (retestDone_keeps _ _ _ h))⟩
  | lendSlice => exact ⟨_, rfl, clocked_keeps _ _ h fun _ h => (lendSlice_keeps _ _ h)⟩
  | repairRecordCommit => exact ⟨_, rfl, settle_keeps _ (recordCommit_keeps _ h)⟩
  | repairAppend => exact ⟨_, rfl, repairAppend_keeps _ h⟩
  | healthFall => exact ⟨_, rfl, healthFall_keeps _ h⟩
  | housekeepingRound => exact ⟨_, rfl, houseRound_keeps _ _ h⟩
  | estimatorStep => exact ⟨_, rfl, estimatorStep_keeps _ _ h⟩
  | thermalTrip => exact ⟨_, rfl, thermalTrip_keeps _ h⟩
  | capWindowStart => exact ⟨_, rfl, capWindowStart_keeps _ h⟩
  | dvfsUpHoldExpiry => exact ⟨_, rfl, upHold_keeps _ h⟩
  | dvfsClockSwitch => exact ⟨_, rfl, clockSwitch_keeps _ h⟩
  | dvfsVsettleTimeout => exact ⟨_, rfl, vsettleTimeout_keeps _ h⟩
  | vddUndervolt => exact ⟨_, rfl, undervolt_keeps _ h⟩
  | vddFaultClear => exact ⟨_, rfl, vddHeld_keeps _ h⟩
  | wearSaveHourly => exact ⟨_, rfl, wearHourly_keeps _ _ h⟩
  | saveNow => exact ⟨_, rfl, saveWrite_keeps _ _ _ h⟩
  | program | genSecret | lifeNext | lifeVoid => exact ⟨_, rfl, progCmd_keeps _ _ _ _ h⟩
  | otpProgramDone => exact ⟨_, rfl, progDone_keeps _ _ h⟩
  | otpReread => exact ⟨_, rfl, otpReread_keeps _ _ h⟩
  | scanEnable => exact ⟨_, rfl, scanEnable_keeps _ _ h⟩
  | getVersion => exact ⟨_, rfl, spdmVersion_keeps _ h⟩
  | getCapabilities => exact ⟨_, rfl, spdmCapabilities_keeps _ h⟩
  | negotiateAlgorithms => exact ⟨_, rfl, spdmAlgorithms_keeps _ h⟩
  | getDigests => exact ⟨_, rfl, spdmDigests_keeps _ h⟩
  | getCertificate => exact ⟨_, rfl, spdmCertificate_keeps _ _ _ h⟩
  | challenge => exact ⟨_, rfl, spdmChallenge_keeps _ _ h⟩
  | getMeasurements => exact ⟨_, rfl, spdmMeasurements_keeps _ _ _ h⟩
  | rotationSliceDue => exact ⟨_, rfl, afterUnit_keeps _ (sliceDue_keeps _ _ _ h)⟩
  | sliceBistDone =>
    exact ⟨_, rfl, clocked_keeps _ _ h fun _ h => (afterUnit_keeps _ (sliceDone_keeps _ _ _ _ h))⟩
  | sliceTimeout =>
    exact ⟨_, rfl, clocked_keeps _ _ h fun _ h => (afterUnit_keeps _ (sliceTimeout_keeps _ _ _ h))⟩
  | sliceRetry => exact ⟨_, rfl, clocked_keeps _ _ h fun _ h => (afterUnit_keeps _ (sliceRetry_keeps _ _ _ h))⟩
  | spareLaneCheck =>
    exact ⟨_, rfl, clocked_keeps _ _ h fun _ h => (settle_keeps _ (spareLaneCheck_keeps _ _ _ _ h))⟩
  | spareViaCheck =>
    exact ⟨_, rfl, clocked_keeps _ _ h fun _ h => (settle_keeps _ (spareViaCheck_keeps _ _ _ _ _ h))⟩
  | calApply => exact ⟨_, rfl, calApply_keeps _ h⟩
  | registerWrite | pairLowWrite | pairHighWrite => exact ⟨_, rfl, writeAt_keeps _ _ _ _ _ h⟩
  | aliasSet | aliasClear | aliasToggle => exact ⟨_, rfl, aliasCmd_keeps _ _ _ _ _ h⟩
  | rlLowRead => exact ⟨_, rfl, readCmd_keeps _ _ _ h⟩
  | windowRead => exact ⟨_, rfl, afterMove_keeps _ _ (windowRead_keeps _ _ _ _ h)⟩
  | windowWrite => exact ⟨_, rfl, afterMove_keeps _ _ (windowWrite_keeps _ _ _ _ _ h)⟩
  | msixPendingSend => exact ⟨_, rfl, msixSend_keeps _ _ h⟩
  | getInfo | logRead | flashRead | imageErase | imageWrite | imageVerify | imagePromote | healthRead
  | lifeChallenge | lifeAdvance => exact ⟨_, rfl, mbCmd_keeps _ _ _ _ h⟩
  | mailboxDone => exact ⟨_, rfl, mailboxDone_keeps _ _ _ h⟩
  | eventLogWrite => exact ⟨_, rfl, eventLogWrite_keeps _ _ h⟩
  | cdrLockLoss => exact ⟨_, rfl, afterLink_keeps _ (cdrLost_keeps _ _ _ h)⟩
  | refclkPresenceChange => exact ⟨_, rfl, settle_keeps _ (refclkChange_keeps _ _ h)⟩
  | urgPinGlitch => exact ⟨_, rfl, pinGlitch_keeps _ _ h⟩
  | pcieConfigRequest => exact ⟨_, rfl, pcieConfig_keeps _ _ h⟩

/-- A step takes the front command off the queue, and its meaning keeps the rest. -/
theorem step_keeps (s : State) : ∃ t, step s = .next t ∧ Keeps { s with pending := s.pending.tail } t := by
  cases hp : s.pending with
  | nil =>
    have hs : ({ s with pending := [] } : State) = s := by rw [← hp]
    exact ⟨s.idle, by simp [step, hp], by simpa only [List.tail_nil, hs] using idle_keeps s (.refl s)⟩
  | cons c rest =>
    obtain ⟨t, ht, hk⟩ := exec_keeps c (.refl { s with pending := rest })
    exact ⟨t, by simpa [step, hp] using ht, hk⟩

end Sys2Proof.Machine

namespace Sys2Proof.Safety
open Sys2Proof.Machine Sys2Proof.Machine.State

/-- Settles O60: what a step keeps of the state without its front command is the invariant. -/
theorem stepKeepsTheInvariant : Obligations.StepKeepsTheInvariant := by
  unfold Obligations.StepKeepsTheInvariant
  intro s ⟨hregs, hdram, hotp⟩
  obtain ⟨t, ht, hk⟩ := step_keeps s
  exact ⟨t, ht, ⟨hk.regs hregs, hk.dram hdram, hk.otpWf hotp⟩, hk.pending, hk.free, hk.otp⟩

end Sys2Proof.Safety
end

section
/-! SUPPORT. Fields of registers: what a field reads after a write of it or of another field, and what the masked word of a
register write holds (R412). -/

namespace Sys2Proof.Machine
open Sys2Proof.Safety State

namespace Fld

variable (f g : Fld) (c v m : Word)

theorem getLsbD_mask (i : Nat) : f.mask.getLsbD i = (decide (i < 32) && (decide (f.lsb ≤ i) && decide (i - f.lsb < f.width))) := by
  unfold Fld.mask
  rw [BitVec.getLsbD_ofNat, Nat.testBit_mul_two_pow, Nat.testBit_two_pow_sub_one]

/-- A field reads its own bits only. -/
theorem get_congr {w w' : Word} (h : w &&& f.mask = w' &&& f.mask) : f.get w = f.get w' := by
  unfold Fld.get
  apply Nat.eq_of_testBit_eq
  intro j
  rw [Nat.testBit_mod_two_pow, Nat.testBit_mod_two_pow, BitVec.testBit_toNat, BitVec.testBit_toNat,
    BitVec.getLsbD_ushiftRight, BitVec.getLsbD_ushiftRight]
  by_cases hj : j < f.width
  · have := congrArg (·.getLsbD (f.lsb + j)) h
    by_cases h32 : f.lsb + j < 32
    · have hm : f.mask.getLsbD (f.lsb + j) = true := by simp [getLsbD_mask, hj, h32]
      simpa only [BitVec.getLsbD_and, hm, Bool.and_true, hj, decide_true, Bool.true_and] using this
    · rw [BitVec.getLsbD_of_ge w _ (by omega), BitVec.getLsbD_of_ge w' _ (by omega)]
  · simp [hj]

theorem get_lt (w : Word) : f.get w < 2 ^ f.width := Nat.mod_lt _ (Nat.two_pow_pos _)

/-- A field of one bit is that bit. -/
theorem get_bit (hw : f.width = 1) (w : Word) : f.get w = (w.getLsbD f.lsb).toNat := by
  unfold Fld.get
  rw [hw, BitVec.toNat_ushiftRight, Nat.shiftRight_eq_div_pow, BitVec.getLsbD, Nat.testBit_eq_decide_div_mod_eq, pow_one]
  rcases Nat.mod_two_eq_zero_or_one (w.toNat / 2 ^ f.lsb) with h | h <;> rw [h] <;> rfl

variable {f m}

/-- A register write gives a field under its mask the written value. -/
theorem get_merge (h : f.mask &&& m = f.mask) : f.get ((c &&& ~~~m) ||| (v &&& m)) = f.get v := by
  refine get_congr f (BitVec.eq_of_getLsbD_eq fun i hi => ?_)
  have := congrArg (·.getLsbD i) h
  simp only [BitVec.getLsbD_and, BitVec.getLsbD_or, BitVec.getLsbD_not, hi, decide_true, Bool.true_and] at this ⊢
  cases hm : f.mask.getLsbD i <;> simp_all

/-- A register write leaves a field outside its mask. -/
theorem get_merge_other (h : f.mask &&& m = 0) : f.get ((c &&& ~~~m) ||| (v &&& m)) = f.get c := by
  refine get_congr f (BitVec.eq_of_getLsbD_eq fun i hi => ?_)
  have := congrArg (·.getLsbD i) h
  simp only [BitVec.getLsbD_and, BitVec.getLsbD_or, BitVec.getLsbD_not, hi, decide_true, Bool.true_and] at this ⊢
  cases hm : f.mask.getLsbD i <;> simp_all

theorem get_and (h : f.mask &&& m = f.mask) : f.get (v &&& m) = f.get v := by
  refine get_congr f ?_
  rw [BitVec.and_assoc, BitVec.and_comm m, h]

end Fld

/-- A register all of whose bits are writable takes the written word. -/
theorem merge_full (c v : Word) : (c &&& ~~~0xFFFFFFFF#32) ||| (v &&& 0xFFFFFFFF#32) = v := by
  have e : (0xFFFFFFFF#32) = BitVec.allOnes 32 := by decide
  rw [e, BitVec.and_allOnes]
  simp

namespace State

variable (s : State) (a b : Nat) (f g : Fld) (n : Nat) (x : Bool) (v : Word)

variable {s a f} in
theorem on_eq_true : s.on a f = true ↔ s.fld a f ≠ 0 := decide_eq_true_iff

variable {s a f} in
theorem on_eq_false : s.on a f = false ↔ s.fld a f = 0 := by
  rw [← Bool.not_eq_true, on_eq_true, not_not]

theorem fld_wr_same : (s.wr a v).fld a f = f.get v := by simp [fld]

theorem fld_wr_other (h : b ≠ a) : (s.wr a v).fld b f = s.fld b f := by simp [fld, h]

theorem fld_put_same (h : f.lsb + f.width ≤ 32) : (s.put a f n).fld a f = n % 2 ^ f.width := by
  simp [fld, Fld.get_set f n _ h]

theorem fld_put_other (h : b ≠ a ∨ g.lsb + g.width ≤ f.lsb ∨ f.lsb + f.width ≤ g.lsb) :
    (s.put a f n).fld b g = s.fld b g := by
  by_cases e : b = a
  · subst e
    simp [fld, Fld.get_set_other f g n _ (by simpa using h)]
  · simp [fld, e]

theorem on_flag_same (h : f.lsb + f.width ≤ 32) (hw : f.width = 1) : (s.flag a f x).on a f = x := by
  unfold on flag
  rw [fld_put_same _ _ _ _ h, hw]
  cases x <;> rfl

theorem on_flag_other (h : b ≠ a ∨ g.lsb + g.width ≤ f.lsb ∨ f.lsb + f.width ≤ g.lsb) :
    (s.flag a f x).on b g = s.on b g := by
  unfold on flag
  rw [fld_put_other _ _ _ _ _ _ h]

theorem fld_flag_other (h : b ≠ a ∨ g.lsb + g.width ≤ f.lsb ∨ f.lsb + f.width ≤ g.lsb) :
    (s.flag a f x).fld b g = s.fld b g := fld_put_other _ _ _ _ _ _ h

theorem on_put_other (h : b ≠ a ∨ g.lsb + g.width ≤ f.lsb ∨ f.lsb + f.width ≤ g.lsb) :
    (s.put a f n).on b g = s.on b g := by
  unfold on
  rw [fld_put_other _ _ _ _ _ _ h]

theorem put_memKept : MemKept s (s.put a f n) := ⟨rfl, rfl, rfl, rfl, rfl, rfl⟩
theorem flag_memKept : MemKept s (s.flag a f x) := ⟨rfl, rfl, rfl, rfl, rfl, rfl⟩

/-- Fields agree where registers do. -/
theorem fld_eq_of_rd {s t : State} {a : Nat} (h : t.rd a = s.rd a) (f : Fld) : t.fld a f = s.fld a f := by
  unfold fld
  rw [h]

theorem on_eq_of_rd {s t : State} {a : Nat} (h : t.rd a = s.rd a) (f : Fld) : t.on a f = s.on a f := by
  unfold on fld
  rw [h]

/-- A command that changes nothing while its clock runs changes nothing. -/
theorem clocked_self {s : State} {f : State → State} (h : f s = s) : s.clocked f = s := by
  unfold clocked
  split
  · exact h
  · rfl

theorem clocked_eq {s : State} (h : s.released = true) (f : State → State) : s.clocked f = f s := if_pos h

/-- What a whole-dword command needs of a register: a dword of its page with its writable fields under
the mask `m` and its actions under `c`. -/
@[reducible] def PlainReg (a : Nat) (m c : Word) : Prop :=
  (a % 4 = 0 ∧ offOf a / 0x400 = 0 ∧ isMsixPage (pageOf a) = false ∧ a ≠ R.FUSE_PROG_CMD) ∧
    ((fieldsAt a).isEmpty = false ∧ setOnly a = false) ∧
    fieldBits (· == .rw) a ||| fieldBits (· == .rwl) a = m ∧ fieldBits (· == .cmd) a = c

/-- A whole-dword command on an open register that holds no soft bits; a mailbox that is busy would keep it (R422). -/
theorem regCmd_plain {s : State} {path : Path} {a : Nat} {m c : Word} (v : Word) (ho : Open s path a) (hp : PlainReg a m c)
    (hsoft : s.softBits a = 0) (hb : (pageOf a == 1 && (mbInput (offOf a)).any s.mbBusy) = false) : s.regCmd path a v
      = (s.regEffect path a (s.cur a) ((s.cur a &&& ~~~m) ||| (v &&& m)) (v &&& c) true).afterWrite (pageOf a) := by
  obtain ⟨⟨h4, hk, hm, hf⟩, ⟨he, hs⟩, hw, hc⟩ := hp
  refine regCmd_open ho h4 hk hm ?_ he hb hs ?_ hc
  · simp [lifeDenied, hf]
  · simpa [hsoft] using hw

/-- Writing one value at each of several keys. -/
theorem get_setAll_const {α : Type} [DecidableEq α] (d : Nat → α) (v : α) (ks : List Nat) (m : SMap α) (k : Nat) :
    SMap.get d (SMap.setAll d (ks.map fun k => (k, v)) m) k = if k ∈ ks then v else SMap.get d m k := by
  induction ks generalizing m with
  | nil => rfl
  | cons j ks ih =>
    rw [List.map_cons, SMap.setAll, ih]
    by_cases h : k ∈ ks
    · simp [h]
    · by_cases hj : k = j
      · subst hj
        simp [h, Sys2Proof.Laws.SMap.get_set_same]
      · simp [h, hj, Sys2Proof.Laws.SMap.get_set_other _ hj]

/-! ### What a write of each page's registers reaches, and what follows it -/

section Effects

variable {s : State} {path : Path} {a pg : Nat} {old new cmd : Word} {direct : Bool}

/-- The registers beyond a page's common header. -/
theorem effect_off (ho : 0x40 ≤ offOf a) : offOf a ≠ 0x0C ∧ ¬ offOf a < 0x40 := by omega

theorem regEffect_txg (hf : firstOf (pageOf a) = 0x080) (ho : 0x40 ≤ offOf a) :
    s.regEffect path a old new cmd direct = s.wrTxg (pageOf a - 0x080) (offOf a) old new cmd := by
  simp [regEffect, hf, effect_off ho]

theorem regEffect_rxg (hf : firstOf (pageOf a) = 0x088) (ho : 0x40 ≤ offOf a) :
    s.regEffect path a old new cmd direct = s.wrRxg (pageOf a - 0x088) (offOf a) old new cmd := by
  simp [regEffect, hf, effect_off ho]

theorem regEffect_link (hf : firstOf (pageOf a) = 0x00E) (ho : 0x40 ≤ offOf a) :
    s.regEffect path a old new cmd direct = s.wrLink (offOf a) old new cmd := by
  simp [regEffect, hf, effect_off ho]

theorem regEffect_place (hf : firstOf (pageOf a) = 0x00C) (ho : 0x40 ≤ offOf a) :
    s.regEffect path a old new cmd direct = s.wrPlace (offOf a) new cmd direct := by
  simp [regEffect, hf, effect_off ho]

theorem regEffect_cache (hf : firstOf (pageOf a) = 0x00D) (ho : 0x40 ≤ offOf a) :
    s.regEffect path a old new cmd direct = s.wrCache (offOf a) new cmd := by
  simp [regEffect, hf, effect_off ho]

theorem regEffect_cdie (hf : firstOf (pageOf a) = 0x1D0) (ho : 0x40 ≤ offOf a) :
    s.regEffect path a old new cmd direct = s.wrCdie (offOf a) new cmd := by
  simp [regEffect, hf, effect_off ho]

theorem regEffect_chp (hf : firstOf (pageOf a) = 0x140) (ho : 0x40 ≤ offOf a) :
    s.regEffect path a old new cmd direct = s.wrChp (pageOf a - 0x140) (offOf a) new cmd := by
  simp [regEffect, hf, effect_off ho]

theorem regEffect_scrub (hf : firstOf (pageOf a) = 0x016) (ho : 0x40 ≤ offOf a) :
    s.regEffect path a old new cmd direct = s.wrScrub (offOf a) new cmd := by
  simp [regEffect, hf, effect_off ho]

theorem regEffect_quad (hf : firstOf (pageOf a) = 0x040) (ho : 0x40 ≤ offOf a) :
    s.regEffect path a old new cmd direct = s.wrQuad (pageOf a - 0x040) (offOf a) new cmd := by
  simp [regEffect, hf, effect_off ho]

theorem regEffect_bridle (hf : firstOf (pageOf a) = 0x00B) (ho : 0x40 ≤ offOf a) :
    s.regEffect path a old new cmd direct = s.wrBridle (offOf a) new := by
  simp [regEffect, hf, effect_off ho]

theorem regEffect_fcol (hf : firstOf (pageOf a) = 0x002) (ho : 0x40 ≤ offOf a) :
    s.regEffect path a old new cmd direct = s.wrFcol (offOf a) new cmd direct := by
  simp [regEffect, hf, effect_off ho]

theorem regEffect_therm (hf : firstOf (pageOf a) = 0x005) (ho : 0x40 ≤ offOf a) :
    s.regEffect path a old new cmd direct = s.wrTherm (offOf a) new := by
  simp [regEffect, hf, effect_off ho]

theorem regEffect_pwr (hf : firstOf (pageOf a) = 0x004) (ho : 0x40 ≤ offOf a) :
    s.regEffect path a old new cmd direct = s.wrPwr (offOf a) new := by
  simp [regEffect, hf, effect_off ho]

theorem regEffect_stack (hf : firstOf (pageOf a) = 0x013) (ho : 0x40 ≤ offOf a) :
    s.regEffect path a old new cmd direct = s.wrStack (offOf a) new cmd false := by
  simp [regEffect, hf, effect_off ho]

theorem regEffect_clk (hf : firstOf (pageOf a) = 0x003) (ho : 0x40 ≤ offOf a) :
    s.regEffect path a old new cmd direct = s.wrClk (offOf a) old new cmd := by
  simp [regEffect, hf, effect_off ho]

theorem regEffect_fuse (hf : firstOf (pageOf a) = 0x006) (ho : 0x40 ≤ offOf a) :
    s.regEffect path a old new cmd direct = s.wrFuse (offOf a) new cmd := by
  simp [regEffect, hf, effect_off ho]

theorem regEffect_bist (hf : firstOf (pageOf a) = 0x008) (ho : 0x40 ≤ offOf a) :
    s.regEffect path a old new cmd direct = s.wrBist (offOf a) new cmd := by
  simp [regEffect, hf, effect_off ho]

theorem regEffect_cal (hf : firstOf (pageOf a) = 0x009) (ho : 0x40 ≤ offOf a) :
    s.regEffect path a old new cmd direct = s.wrCal (offOf a) new cmd := by
  simp [regEffect, hf, effect_off ho]

theorem regEffect_perf (hf : firstOf (pageOf a) = 0x00A) (ho : 0x40 ≤ offOf a) :
    s.regEffect path a old new cmd direct = s.wrPerf (offOf a) old new cmd := by
  simp [regEffect, hf, effect_off ho]

theorem regEffect_spi (hf : firstOf (pageOf a) = 0x011) (ho : 0x40 ≤ offOf a) :
    s.regEffect path a old new cmd direct = s.wrSpi (offOf a) new cmd := by
  simp [regEffect, hf, effect_off ho]

theorem regEffect_perfu (hf : firstOf (pageOf a) = 0x200) (ho : 0x40 ≤ offOf a) :
    s.regEffect path a old new cmd direct =
      if offOf a = 0x44 ∧ F.PERFU_USER_CMD_SNAPSHOT.get cmd = 1 then
        (if s.on R.PERF_PERF_CTL F.PERF_PERF_CTL_USER_SNAP_EN then s.perfSnapshot else s.accErr path a true 7)
      else s := by
  simp [regEffect, hf, effect_off ho]

/-- Pages whose writes have no further consequence. -/
theorem afterWrite_self (h : firstOf pg ∉ [0x00E, 0x080, 0x088, 0x003, 0x100, 0x180, 0x008, 0x00C, 0x00D, 0x1D0, 0x140, 0x040,
    0x002]) : s.afterWrite pg = s := by
  simp only [List.mem_cons, List.not_mem_nil, or_false, not_or] at h
  simp [afterWrite, h]

/-- Pages whose writes the ladders follow. -/
theorem afterWrite_settle (h : firstOf pg ∈ [0x00C, 0x00D, 0x1D0, 0x140, 0x040, 0x002]) : s.afterWrite pg = s.settle := by
  simp only [List.mem_cons, List.not_mem_nil, or_false] at h
  rcases h with h | h | h | h | h | h <;> simp [afterWrite, h]

end Effects

end State
end Sys2Proof.Machine

namespace Sys2Proof.Safety
open Sys2Proof.Machine Sys2Proof.Machine.State

variable {s t u : State} {pages addrs : List Nat} {a : Nat}

/-- A command acts when the state that it leaves, in another form, has the property. -/
theorem gives_of_eq {c : Instr} {p : State → Prop} (hx : exec c s = .next t) (h : t = u) (hp : p u) : Gives c s p :=
  ⟨t, hx, h ▸ hp⟩

/-- Calm rests on what is handed to the ladders, on the declarations, on the rows that wait and on the retirements. -/
theorem Calm.of_parts (h : Calm s) (hh : t.fcol.handed = s.fcol.handed) (hd : t.fcol.declared = s.fcol.declared)
    (hr : t.spare.rows = s.spare.rows) (hp : t.place.retiring = s.place.retiring) : Calm t := by
  obtain ⟨h1, h2, h3, h4⟩ := h
  refine ⟨hh.trans h1, hr.trans h2, hp.trans h3, fun e he => ?_⟩
  have := h4 e he
  simpa only [declared, hd] using this

/-- A counted register keeps the others. -/
theorem RegsKept.inc (h : RegsKept s t pages addrs) (n : Nat) (ha : a ∈ addrs ∨ pageOf a ∈ pages) :
    RegsKept s (t.inc a n) pages addrs := by
  intro b hp hb
  have : b ≠ a := by
    rintro rfl
    exact ha.elim hb hp
  rw [rd_inc, if_neg this]
  exact h b hp hb

/-- States with the same registers. -/
theorem RegsKept.of_regs (h : RegsKept s t pages addrs) (e : u.regs = t.regs) : RegsKept s u pages addrs := by
  intro b hp hb
  rw [rd_eq_of_regs e]
  exact h b hp hb

theorem RegsKept.mono {p' a' : List Nat} (h : RegsKept s t pages addrs) (hp : pages ⊆ p') (ha : addrs ⊆ a') :
    RegsKept s t p' a' := fun b h1 h2 => h b (fun x => h1 (hp x)) (fun x => h2 (ha x))

end Sys2Proof.Safety
end

section
/-! SUPPORT. A GO on an idle mailbox channel (R422, R423). -/

namespace Sys2Proof.Machine
open Sys2Proof.Safety State

namespace State

variable {s : State} {path : Path} {ch op : Nat}

/-- The word that a GO writes, and what MB_CMD holds after it. -/
def goWord (op : Nat) : Word := F.MGMT_MB_CMD_OPCODE.set op (F.MGMT_MB_CMD_GO.set 1 0)
def mbCmdAfter (old : Word) (op : Nat) : Word := (old &&& ~~~0xFF#32) ||| (goWord op &&& 0xFF#32)

theorem mbCmdAfter_opcode (old : Word) (h : op < 256) : F.MGMT_MB_CMD_OPCODE.get (mbCmdAfter old op) = op := by
  rw [mbCmdAfter, Fld.get_merge _ _ (by decide), goWord, Fld.get_set _ _ _ (by decide)]
  exact Nat.mod_eq_of_lt h

theorem goWord_go (op : Nat) : F.MGMT_MB_CMD_GO.get (goWord op &&& 0x80000000#32) = 1 := by
  rw [Fld.get_and _ (by decide), goWord, Fld.get_set_other _ _ _ _ (by decide)]
  decide

/-- The command reaches the Gondola: its opcode is stored and its GO acts. -/
theorem mbCmd_eq (hc : ch = 0 ∨ ch = 1) (ho : Open s path (R.MGMT_MB_CMD ch)) (hb : s.mbBusy ch = false) :
    s.mbCmd path ch op = (s.wr (R.MGMT_MB_CMD ch) (mbCmdAfter (s.rd (R.MGMT_MB_CMD ch)) op)).mbGo ch := by
  rcases hc with rfl | rfl
  · exact (regCmd_plain (m := 0xFF#32) (c := 0x80000000#32) _ ho (by decide) rfl hb).trans (if_pos (goWord_go op))
  · exact (regCmd_plain (m := 0xFF#32) (c := 0x80000000#32) _ ho (by decide) rfl hb).trans (if_pos (goWord_go op))

theorem mbGo_fields (ch : Nat) :
    (s.mbGo ch).regs = ((s.flag (R.MGMT_MB_STAT ch) F.MGMT_MB_STAT_BUSY true).flag
      (R.MGMT_MB_STAT ch) F.MGMT_MB_STAT_DONE false).regs ∧
    (s.mbGo ch).mgmt.run
      = SMap.set (fun _ => none) ch (some (s.fld (R.MGMT_MB_CMD ch) F.MGMT_MB_CMD_OPCODE)) s.mgmt.run ∧
    (s.mbGo ch).mgmt.order
      = (if mbFlash (s.fld (R.MGMT_MB_CMD ch) F.MGMT_MB_CMD_OPCODE) then s.mgmt.order ++ [ch] else s.mgmt.order) ∧
    MemKept s (s.mbGo ch) := ⟨rfl, rfl, rfl, rfl, rfl, rfl, rfl, rfl, rfl⟩

/-- What a GO leaves of a channel whose MB_CMD holds the opcode. -/
theorem mbCmd_started (hc : ch = 0 ∨ ch = 1) (hop : op < 256) (ho : Open s path (R.MGMT_MB_CMD ch))
    (hb : s.mbBusy ch = false) : MbStarted s (s.mbCmd path ch op) ch op := by
  rw [mbCmd_eq hc ho hb]
  generalize hw : mbCmdAfter (s.rd (R.MGMT_MB_CMD ch)) op = w
  have hopc : F.MGMT_MB_CMD_OPCODE.get w = op := hw ▸ mbCmdAfter_opcode _ hop
  obtain ⟨hregs, hrun, horder, hmem⟩ := mbGo_fields (s := s.wr (R.MGMT_MB_CMD ch) w) ch
  rw [fld_wr_same, hopc] at hrun horder
  generalize (s.wr (R.MGMT_MB_CMD ch) w).mbGo ch = t at *
  have hrd := rd_eq_of_regs hregs
  have hne : R.MGMT_MB_CMD ch ≠ R.MGMT_MB_STAT ch := by simp only [R.MGMT_MB_CMD, R.MGMT_MB_STAT]; omega
  refine ⟨?_, ?_, ?_, ?_, horder, (wr_memKept ..).trans hmem, ?_⟩
  · rw [hrun, Sys2Proof.Laws.SMap.get_set_same]
  · rw [fld_eq_of_rd (hrd _), fld_flag_other _ _ _ _ _ _ (.inl hne), fld_flag_other _ _ _ _ _ _ (.inl hne), fld_wr_same,
      hopc]
  · rw [mbBusy, mbStat, on_eq_of_rd (hrd _), on_flag_other _ _ _ _ _ _ (.inr (by decide)), on_flag_same _ _ _ _ (by decide) rfl]
  · rw [on_eq_of_rd (hrd _), on_flag_same _ _ _ _ (by decide) rfl]
  · exact ((((RegsKept.refl s).wr w (by simp)).flag _ _ (by simp)).flag _ _ (by simp)).of_regs hregs

end State
end Sys2Proof.Machine

namespace Sys2Proof.Safety
open Sys2Proof.Machine Sys2Proof.Machine.State

/-- Settles O52: every mailbox command is a write of its opcode with GO, which reaches an idle channel. -/
theorem mailboxCommands : Obligations.MailboxCommands := by
  unfold Obligations.MailboxCommands
  intro s path ch ho hb
  have hc : ch.val = 0 ∨ ch.val = 1 := by omega
  have started {op : Nat} (h : op < 256) := mbCmd_started hc h ho hb
  exact ⟨⟨_, rfl, started (by decide)⟩, ⟨_, rfl, started (by decide)⟩, ⟨_, rfl, started (by decide)⟩,
    ⟨_, rfl, started (by decide)⟩, ⟨_, rfl, started (by decide)⟩, ⟨_, rfl, started (by decide)⟩,
    ⟨_, rfl, started (by decide)⟩, ⟨_, rfl, started (by decide)⟩, ⟨_, rfl, started (by decide)⟩,
    ⟨_, rfl, started (by decide)⟩⟩

end Sys2Proof.Safety
end

section
/-! SUPPORT. Writes of a register by its byte enables and through its aliases (R410, R412). -/

namespace Sys2Proof.Machine
open Sys2Proof.Safety State

namespace State

variable {s : State} {path : Path} {a k be : Nat} {v : Word}

theorem offOf_alias (h4 : a % 4 = 0) (ha : offOf a < 0x400) (hk : k < 4) :
    (a + 0x400 * k) / 4 * 4 = a + 0x400 * k ∧ pageOf (a + 0x400 * k) = pageOf a ∧
      offOf (a + 0x400 * k) / 0x400 = k ∧ offOf (a + 0x400 * k) % 0x400 = offOf a ∧
      0x1000 * pageOf a + offOf a = a := by
  unfold offOf pageOf at *
  omega

/-- A register's aliases answer where the register does. -/
theorem accessFault_alias (h4 : a % 4 = 0) (ha : offOf a < 0x400) (hk : k < 4) :
    s.accessFault (a + 0x400 * k) = s.accessFault a := by
  obtain ⟨-, hp, -, hm, -⟩ := offOf_alias h4 ha hk
  simp only [accessFault, hp, hm, Nat.mod_eq_of_lt ha]

/-- On an open bus a write of a register or of a second address of it (R410) is one register write. -/
theorem busWrite_alias (ho : Open s path a) (h4 : a % 4 = 0) (ha : offOf a < 0x400) (hk : k < 4)
    (hm : isMsixPage (pageOf a) = false) (hl : lifeDenied path a k v = false) :
    s.busWrite path (a + 0x400 * k) be v = ⟨s.regWrite path a k be v, true, 0⟩ := by
  obtain ⟨hu, hr, hf, -⟩ := ho
  obtain ⟨e4, hp, hd, hoff, e⟩ := offOf_alias h4 ha hk
  have hf' : s.accessFault (a + 0x400 * k) = none := (accessFault_alias h4 ha hk).trans hf
  simp [busWrite, hu, hr, writeOnce, e4, hp, hd, hoff, e, hm, hf', hl]

/-- The writable bits of SCRUB_CTL that a write with byte enables reaches. -/
def scrubMask (be : Nat) : Word := fieldBits (· == .rw) R.SCRUB_SCRUB_CTL &&& beMask be

/-- A write of SCRUB_CTL or, with all byte enables, of a second address of it (R410): the reached bits take those of that address's
operation. -/
theorem regWrite_scrubCtl (hb : be = 15 ∨ k = 0) : s.regWrite path R.SCRUB_SCRUB_CTL k be v
    = s.wr R.SCRUB_SCRUB_CTL ((s.rd R.SCRUB_SCRUB_CTL &&& ~~~scrubMask be)
        ||| (aliasOp k (s.rd R.SCRUB_SCRUB_CTL) v &&& scrubMask be)) := by
  have he : (fieldsAt R.SCRUB_SCRUB_CTL).isEmpty = false := by decide
  have hcmd : (hasCmd R.SCRUB_SCRUB_CTL || isRl R.SCRUB_SCRUB_CTL || pairWord R.SCRUB_SCRUB_CTL) = false := by decide
  have hw : fieldBits (· == .rw) R.SCRUB_SCRUB_CTL ≠ 0 := by decide
  have hl : fieldBits (· == .rwl) R.SCRUB_SCRUB_CTL = 0 := by decide
  have hpart : (be ≠ 15 && (k != 0 || hasCmd R.SCRUB_SCRUB_CTL || isRl R.SCRUB_SCRUB_CTL
      || pairWord R.SCRUB_SCRUB_CTL)) = false := by
    rcases hb with rfl | rfl
    · rfl
    · rw [Bool.and_eq_false_iff]
      exact .inr (by simpa using hcmd)
  have hset : setOnly R.SCRUB_SCRUB_CTL = false := by decide
  have hpage : (pageOf R.SCRUB_SCRUB_CTL == 1) = false := by decide
  have hsoft : s.softBits R.SCRUB_SCRUB_CTL = 0 := rfl
  have hcur : s.cur R.SCRUB_SCRUB_CTL = s.rd R.SCRUB_SCRUB_CTL := rfl
  simp only [regWrite, he, hpart, hpage, hset, hl, hsoft, hcur, Bool.false_and, Bool.false_eq_true, if_false, scrubMask]
  generalize fieldBits (· == .rw) R.SCRUB_SCRUB_CTL = m at hw ⊢
  simp only [BitVec.ofNat_eq_ofNat, BitVec.and_zero, BitVec.zero_and, BitVec.or_zero, ite_self, ne_eq, not_true_eq_false,
    and_false, if_false, show m ≠ 0#32 from hw]
  rfl

/-- A write of SCRUB_CTL or of a second address of it. -/
theorem writeAt_scrubCtl (ho : Open s path R.SCRUB_SCRUB_CTL) (hk : k < 4) (hb : be = 15 ∨ k = 0) :
    s.writeAt path (R.SCRUB_SCRUB_CTL + 0x400 * k) be v
      = s.wr R.SCRUB_SCRUB_CTL ((s.rd R.SCRUB_SCRUB_CTL &&& ~~~scrubMask be)
        ||| (aliasOp k (s.rd R.SCRUB_SCRUB_CTL) v &&& scrubMask be)) := by
  have hp : pageOf (R.SCRUB_SCRUB_CTL + 0x400 * k) = 0x16 := by
    simp only [pageOf, R.SCRUB_SCRUB_CTL]
    omega
  rw [writeAt, busWrite_alias ho (by decide) (by decide) hk (by decide) (by cases path <;> rfl), regWrite_scrubCtl hb, hp]
  rfl

end State

section AliasBits
variable (c v m : Word)

/-- Set, cleared or toggled through a second address: the bits of the mask are the written word's, and the others stay. -/
theorem merge_or : (c &&& ~~~m) ||| ((c ||| v) &&& m) = c ||| (v &&& m) := by
  refine BitVec.eq_of_getLsbD_eq fun i hi => ?_
  simp only [BitVec.getLsbD_and, BitVec.getLsbD_or, BitVec.getLsbD_not, hi, decide_true, Bool.true_and]
  cases c.getLsbD i <;> cases m.getLsbD i <;> simp

theorem merge_andNot : (c &&& ~~~m) ||| ((c &&& ~~~v) &&& m) = c &&& ~~~(v &&& m) := by
  refine BitVec.eq_of_getLsbD_eq fun i hi => ?_
  simp only [BitVec.getLsbD_and, BitVec.getLsbD_or, BitVec.getLsbD_not, hi, decide_true, Bool.true_and]
  cases c.getLsbD i <;> cases m.getLsbD i <;> simp

theorem merge_xor : (c &&& ~~~m) ||| ((c ^^^ v) &&& m) = c ^^^ (v &&& m) := by
  refine BitVec.eq_of_getLsbD_eq fun i hi => ?_
  simp only [BitVec.getLsbD_and, BitVec.getLsbD_or, BitVec.getLsbD_not, BitVec.getLsbD_xor, hi, decide_true, Bool.true_and]
  cases c.getLsbD i <;> cases m.getLsbD i <;> simp

end AliasBits
end Sys2Proof.Machine

namespace Sys2Proof.Safety
open Sys2Proof.Machine Sys2Proof.Machine.State

/-- Settles O49: SCRUB_CTL and its aliases are one register write whose mask is the enabled bits of the RW fields; an access
to an unassigned page is recorded alone. -/
theorem registerWrites : Obligations.RegisterWrites := by
  unfold Obligations.RegisterWrites
  have kept (s : State) (x : Word) : MemKept s (s.wr R.SCRUB_SCRUB_CTL x) ∧
      RegsKept s (s.wr R.SCRUB_SCRUB_CTL x) [] [R.SCRUB_SCRUB_CTL] :=
    ⟨wr_memKept .., (RegsKept.refl s).wr x (by simp)⟩
  have hmask : fieldBits (· == .rw) R.SCRUB_SCRUB_CTL = scrubMask 15 := by decide
  have aliased {s : State} {w : RegWrite} (k : Nat) (hk : k < 4) (ho : Open s w.path R.SCRUB_SCRUB_CTL) :=
    writeAt_scrubCtl (v := w.value) (be := 15) (k := k) ho hk (.inl rfl)
  refine ⟨fun s be w m ho hm => gives_of_eq rfl (writeAt_scrubCtl (k := 0) ho (by decide) (.inr rfl)) ⟨?_, kept s _⟩,
    fun s w m ho hm => gives_of_eq rfl (aliased 1 (by decide) ho) ⟨?_, kept s _⟩,
    fun s w m ho hm => gives_of_eq rfl (aliased 2 (by decide) ho) ⟨?_, kept s _⟩,
    fun s w m ho hm => gives_of_eq rfl (aliased 3 (by decide) ho) ⟨?_, kept s _⟩, fun s a be w hu hr hp hm => ?_⟩
  · rw [rd_wr_same, hm]
    rfl
  · rw [rd_wr_same, hm, hmask]
    exact merge_or ..
  · rw [rd_wr_same, hm, hmask]
    exact merge_andNot ..
  · rw [rd_wr_same, hm, hmask]
    exact merge_xor ..
  · have hw := busWrite_unassigned be.toNat w.value hu hr hp hm
    refine ⟨_, exec_registerWrite hw, ?_⟩
    rw [afterWrite_unassigned _ hp]
    exact ⟨accErr_count .., accErr_cause .., accErr_memKept .., accErr_regsKept _ _ _ _ _⟩

end Sys2Proof.Safety
end

section
/-! SUPPORT. Words of 64 bits on the register bus: reads of an RL pair and the writes of FCOL.TS_SET (R295, R411). -/

namespace Sys2Proof.Machine
open Sys2Proof.Safety State

namespace State

variable {s : State} {path : Path} {a : Nat}

/-- A read of an aligned register at its own address is one read of it. -/
theorem busRead_own (hu : s.busUp path = true) (hr : s.ratioBroken = false) (hf : s.accessFault a = none)
    (hm : isMsixPage (pageOf a) = false) (h4 : a % 4 = 0) (ho : offOf a < 0x400) (he : (fieldsAt a).isEmpty = false) :
    s.busRead path a =
      if isHigh a then ⟨s, true, SMap.get (fun _ => 0) s.shadows (a - 4)⟩
      else if isRl a then ⟨{ s with shadows := SMap.set (fun _ => 0) a (s.cur (a + 4)) s.shadows }, true, s.cur a⟩
      else ⟨s, true, s.cur a⟩ := by
  have e4 : a / 4 * 4 = a := by omega
  have eb : 0x1000 * pageOf a + offOf a = a := by unfold pageOf offOf; omega
  simp [busRead, hu, hr, readOnce, e4, hm, hf, Nat.mod_eq_of_lt ho, eb, he]

/-- The state with the low word of FCOL.TS_SET held, and with both words taken. -/
def holdTsLow (s : State) (v : Word) : State :=
  { s with pairLow := SMap.set (fun _ => none) R.FCOL_TS_SET_LO (some v) s.pairLow }
def takeTs (s : State) (low v : Word) : State :=
  { (s.wr R.FCOL_TS_SET_LO low).wr R.FCOL_TS_SET_HI v with
      ts := v ++ low, pairLow := SMap.set (fun _ => none) R.FCOL_TS_SET_LO none s.pairLow }

theorem holdTsLow_memKept (v : Word) : MemKept s (s.holdTsLow v) := ⟨rfl, rfl, rfl, rfl, rfl, rfl⟩
theorem holdTsLow_pairLow (v : Word) :
    (s.holdTsLow v).pairLow = SMap.set (fun _ => none) R.FCOL_TS_SET_LO (some v) s.pairLow := rfl
theorem holdTsLow_regs (v : Word) : (s.holdTsLow v).regs = s.regs := rfl

theorem takeTs_memKept (low v : Word) : MemKept s (s.takeTs low v) := ⟨rfl, rfl, rfl, rfl, rfl, rfl⟩
theorem takeTs_pairLow (low v : Word) :
    (s.takeTs low v).pairLow = SMap.set (fun _ => none) R.FCOL_TS_SET_LO none s.pairLow := rfl
theorem takeTs_regs (low v : Word) :
    (s.takeTs low v).regs = ((s.wr R.FCOL_TS_SET_LO low).wr R.FCOL_TS_SET_HI v).regs := rfl

theorem tsLow_write {v : Word} (ho : Open s path R.FCOL_TS_SET_LO) :
    s.regCmd path R.FCOL_TS_SET_LO v = (s.holdTsLow v).settle := by
  have h := regCmd_plain (m := 0xFFFFFFFF#32) (c := 0) v ho (by decide) rfl rfl
  rw [merge_full] at h
  exact h

theorem tsHigh_write {v low : Word} (ho : Open s path R.FCOL_TS_SET_HI)
    (hl : SMap.get (fun _ => none) s.pairLow R.FCOL_TS_SET_LO = some low) :
    s.regCmd path R.FCOL_TS_SET_HI v = (s.takeTs low v).settle := by
  have h := regCmd_plain (m := 0xFFFFFFFF#32) (c := 0) v ho (by decide) rfl rfl
  have ht : s.regEffect path R.FCOL_TS_SET_HI (s.cur R.FCOL_TS_SET_HI) v (v &&& 0) true
      = s.takeTs ((SMap.get (fun _ => none) s.pairLow R.FCOL_TS_SET_LO).getD (s.rd R.FCOL_TS_SET_LO)) v := rfl
  rw [merge_full, ht, hl] at h
  exact h

end State
end Sys2Proof.Machine

namespace Sys2Proof.Safety
open Sys2Proof.Machine Sys2Proof.Machine.State

/-- Settles O50: a read of a low word latches the high one, which a read of the high word returns; the low word of TS_SET is
held until its high word comes. -/
theorem wordPairs : Obligations.WordPairs := by
  unfold Obligations.WordPairs
  refine ⟨fun s path a hu hr hf hm h4 ho hrl hh _ => ?_, fun s path a hu hr hf hm h4 ho hh he _ => ?_,
    fun s w ho hc => ?_, fun s w low ho hc hl => ?_⟩
  · have he : (fieldsAt a.toNat).isEmpty = false := by
      cases h : fieldsAt a.toNat with
      | nil => simp [isRl, h] at hrl
      | cons _ _ => rfl
    have h := busRead_own hu hr hf hm h4 ho he
    simp only [hh, hrl, Bool.false_eq_true, if_false, if_true] at h
    refine ⟨_, exec_rlLowRead h, rfl, Sys2Proof.Laws.SMap.get_set_same _ _ _ _, ⟨rfl, rfl, rfl, rfl, rfl, rfl⟩,
      (RegsKept.refl s).of_regs rfl⟩
  · have h := busRead_own hu hr hf hm h4 ho (by simpa using he)
    simp only [hh, if_true] at h
    exact ⟨_, exec_rlLowRead h, rfl, rfl, setOut_memKept .., setOut_regsKept _ _⟩
  · have hc' : Calm (s.holdTsLow w.value) := hc.same rfl rfl rfl
    refine gives_of_eq rfl (tsLow_write ho) ⟨?_, settle_ts hc', ?_, ?_⟩
    · rw [settle_pairLow hc', holdTsLow_pairLow]
      exact Sys2Proof.Laws.SMap.get_set_same _ _ _ _
    · exact (holdTsLow_memKept w.value).trans (.settle hc')
    · exact ((RegsKept.refl s).of_regs (holdTsLow_regs w.value)).trans (.settle hc' (by simp))
  · have hc' : Calm (s.takeTs low w.value) := hc.same rfl rfl rfl
    refine gives_of_eq rfl (tsHigh_write ho hl) ⟨settle_ts hc', ?_, ?_, ?_⟩
    · rw [settle_pairLow hc', takeTs_pairLow]
      exact Sys2Proof.Laws.SMap.get_set_same _ _ _ _
    · exact (takeTs_memKept low w.value).trans (.settle hc')
    · exact ((((RegsKept.refl s).wr low (by simp)).wr w.value (by simp)).of_regs (takeTs_regs low w.value)).trans (.settle hc' (by simp))

end Sys2Proof.Safety
end

section
/-! SUPPORT. The performance monitor's actions (R433, R434, R435, R440, R442). -/

namespace Sys2Proof.Machine
open Sys2Proof.Safety State

/-- A word of 64 bits is its high word before its low word. -/
theorem append_extract (w : Word64) : w.extractLsb' 32 32 ++ w.extractLsb' 0 32 = w := by
  refine BitVec.eq_of_getLsbD_eq fun i hi => ?_
  rw [BitVec.getLsbD_append]
  by_cases h : i < 32
  · simp [h]
  · have e : 32 + (i - 32) = i := by omega
    simp [h, e, show i - 32 < 32 by omega]

namespace State

variable {s : State} {path : Path}

theorem perfEvent_snaps (pg n : Nat) (p : Word → Bool) : (s.perfEvent pg p n).perf.snaps = s.perf.snaps := by
  have step (t : State) (i : Nat) :
      (if p (SMap.get (fun _ => 0) s.perf.cfgs (4 * pg + i)) then t.perfAdd (4 * pg + i) n else t).perf.snaps
        = t.perf.snaps := by
    split <;> rfl
  unfold perfEvent
  split
  · rfl
  · simp only [List.foldl_cons, List.foldl_nil, step]

/-- Counting never touches a snapshot. -/
theorem inc_snaps (a n : Nat) : (s.inc a n).perf.snaps = s.perf.snaps := by
  unfold inc
  split
  · rfl
  · exact perfEvent_snaps ..

/-! ### Snapshot and freeze -/

theorem perfSnapshot_snaps : s.perfSnapshot.perf.snaps = s.perf.ctrs := inc_snaps ..

theorem perfSnapshot_valid : s.perfSnapshot.on R.PERF_PERF_STAT F.PERF_PERF_STAT_SNAP_VALID = true :=
  on_flag_same _ _ _ _ (by decide) rfl

theorem perfSnapshot_ts : s.perfSnapshot.rd64 R.PERF_SNAP_TS_LO = s.ts := by
  simp only [rd64, perfSnapshot, rd_flag, rd_inc, rd_wr64]
  change s.ts.extractLsb' 32 32 ++ s.ts.extractLsb' 0 32 = s.ts
  exact append_extract s.ts

theorem perfSnapshot_count : s.perfSnapshot.rd R.PERF_SNAP_COUNT = s.rd R.PERF_SNAP_COUNT + 1 := by
  simp only [perfSnapshot, rd_flag, rd_inc, rd_wr64]
  rfl

theorem perfSnapshot_memKept : MemKept s s.perfSnapshot := by
  refine .trans ?_ (flag_memKept ..)
  refine .trans ?_ (inc_memKept ..)
  exact ⟨rfl, rfl, rfl, rfl, rfl, rfl⟩

theorem perfSnapshot_regsKept : RegsKept s s.perfSnapshot []
    [R.PERF_PERF_STAT, R.PERF_SNAP_TS_LO, R.PERF_SNAP_TS_LO + 4, R.PERF_SNAP_COUNT] := by
  intro b _ hb
  simp only [List.mem_cons, List.not_mem_nil, or_false, not_or] at hb
  obtain ⟨h1, h2, h3, h4⟩ := hb
  simp only [perfSnapshot, rd_flag, rd_inc, rd_wr64, h1, h2, h3, h4, if_false]
  rfl

/-- A write of PERF_CTL before its snapshot: the fields are stored, and a FREEZE that changes freezes or releases. -/
def perfCtlStored (s : State) (new : Word) : State :=
  if F.PERF_PERF_CTL_FREEZE.get (s.rd R.PERF_PERF_CTL) = F.PERF_PERF_CTL_FREEZE.get new then s.wr R.PERF_PERF_CTL new
  else (s.wr R.PERF_PERF_CTL new).perfFreeze (decide (F.PERF_PERF_CTL_FREEZE.get new = 1))

theorem perfCtlStored_perf (new : Word) : (s.perfCtlStored new).perf = s.perf := by
  unfold perfCtlStored
  split <;> rfl

theorem perfCtlStored_ts (new : Word) : (s.perfCtlStored new).ts = s.ts := by
  unfold perfCtlStored
  split <;> rfl

theorem perfCtlStored_memKept (new : Word) : MemKept s (s.perfCtlStored new) := by
  unfold perfCtlStored
  split <;> exact ⟨rfl, rfl, rfl, rfl, rfl, rfl⟩

theorem perfCtlStored_regsKept (new : Word) : RegsKept s (s.perfCtlStored new) [] [R.PERF_PERF_CTL, R.PERF_PERF_STAT] := by
  unfold perfCtlStored perfFreeze
  have h := (RegsKept.refl s (pages := []) (addrs := [R.PERF_PERF_CTL, R.PERF_PERF_STAT])).wr (a := R.PERF_PERF_CTL) new (by simp)
  split
  · exact h
  · exact (h.flag _ _ (by simp)).flag _ _ (by simp)

/-- What a write of PERF_CTL stores. -/
def perfCtlWord (old v : Word) : Word := (old &&& ~~~61#32) ||| (v &&& 61#32)

theorem perfCtl_write (v : Word) (ho : Open s path R.PERF_PERF_CTL) : s.regCmd path R.PERF_PERF_CTL v
    = if F.PERF_PERF_CTL_SNAPSHOT.get v = 1 then (s.perfCtlStored (perfCtlWord (s.rd R.PERF_PERF_CTL) v)).perfSnapshot
      else s.perfCtlStored (perfCtlWord (s.rd R.PERF_PERF_CTL) v) := by
  have hs : F.PERF_PERF_CTL_SNAPSHOT.get (v &&& 2#32) = F.PERF_PERF_CTL_SNAPSHOT.get v := Fld.get_and v (by decide)
  have hoff : offOf R.PERF_PERF_CTL = 0x40 := by decide
  have hcur : s.cur R.PERF_PERF_CTL = s.rd R.PERF_PERF_CTL := rfl
  rw [regCmd_plain (m := 61#32) (c := 2#32) v ho (by decide) rfl rfl, regEffect_perf (by decide) (by decide),
    afterWrite_self (by decide), hoff, hcur, wrPerf, if_pos rfl, hs]
  rfl

/-! ### The user page's snapshot -/

theorem userCmd_write (ho : Open s path R.PERFU_USER_CMD) :
    s.regCmd path R.PERFU_USER_CMD (F.PERFU_USER_CMD_SNAPSHOT.set 1 0)
      = if s.on R.PERF_PERF_CTL F.PERF_PERF_CTL_USER_SNAP_EN then s.perfSnapshot
        else s.accErr path R.PERFU_USER_CMD true 7 := by
  rw [regCmd_plain (m := 0) (c := 1#32) _ ho (by decide) rfl rfl, regEffect_perfu (by decide) (by decide),
    afterWrite_self (by decide), if_pos (by decide)]

theorem accErr_snaps (a c : Nat) (w : Bool) : (s.accErr path a w c).perf.snaps = s.perf.snaps := by
  rw [accErr_eq, inc_snaps, wr_perf]

/-! ### Clearing counters -/

theorem pcCmd_effect (old new cmd : Word) :
    (s.regEffect path R.PERF_PC_CMD old new cmd true).afterWrite (pageOf R.PERF_PC_CMD)
      = if F.PERF_PC_CMD_CLEAR_ALL.get cmd = 1 then
          (if F.PERF_PC_CMD_CLEAR.get cmd = 1 then s.perfClear else s).perfClearAll
        else if F.PERF_PC_CMD_CLEAR.get cmd = 1 then s.perfClear else s := by
  have hoff : offOf R.PERF_PC_CMD = 0x6C := by decide
  rw [regEffect_perf (by decide) (by decide), afterWrite_self (by decide), hoff]
  simp [wrPerf]

theorem pcCmd_clear (ho : Open s path R.PERF_PC_CMD) :
    s.regCmd path R.PERF_PC_CMD (F.PERF_PC_CMD_CLEAR.set 1 0) = s.perfClear := by
  rw [regCmd_plain (m := 0) (c := 3#32) _ ho (by decide) rfl rfl, pcCmd_effect, if_neg (by decide),
    if_pos (by decide)]

theorem pcCmd_clearAll (ho : Open s path R.PERF_PC_CMD) :
    s.regCmd path R.PERF_PC_CMD (F.PERF_PC_CMD_CLEAR_ALL.set 1 0) = s.perfClearAll := by
  rw [regCmd_plain (m := 0) (c := 3#32) _ ho (by decide) rfl rfl, pcCmd_effect, if_pos (by decide),
    if_neg (by decide)]

/-- The state with one counter cleared. -/
def perfCleared (s : State) (k : Nat) : State :=
  { s with perf := { s.perf with ctrs := SMap.set (fun _ => 0) k 0 s.perf.ctrs } }

theorem perfClear_eq {k : Nat} (h : s.perfSel = some k) : s.perfClear = s.perfCleared k := by
  unfold perfClear
  rw [h]
  rfl

theorem perfCleared_ctr (k j : Nat) : (s.perfCleared k).perfCtr j = if j = k then 0 else s.perfCtr j := by
  change SMap.get (fun _ => 0) (SMap.set (fun _ => 0) k (0 : BitVec 48) s.perf.ctrs) j = _
  split
  · subst_vars
    exact Sys2Proof.Laws.SMap.get_set_same _ _ _ _
  · exact Sys2Proof.Laws.SMap.get_set_other _ ‹_› _ _

/-! ### The sampling ring -/

/-- The words of a ring sample, written in their registers. -/
def ringWords (s : State) (e : BitVec 1024) (n : Nat) : State :=
  (List.range n).foldl (fun (t : State) i => t.wr (R.PERF_RING_WORD i) (e.extractLsb' (32 * i) 32)) s

theorem ringWords_succ (e : BitVec 1024) (n : Nat) :
    s.ringWords e (n + 1) = (s.ringWords e n).wr (R.PERF_RING_WORD n) (e.extractLsb' (32 * n) 32) := by
  simp [ringWords, List.range_succ]

theorem ringWords_perf (e : BitVec 1024) (n : Nat) : (s.ringWords e n).perf = s.perf ∧ MemKept s (s.ringWords e n) := by
  induction n with
  | zero => exact ⟨rfl, .refl s⟩
  | succ n ih =>
    rw [ringWords_succ]
    exact ⟨ih.1, ih.2.trans (wr_memKept ..)⟩

theorem ringWords_rd (e : BitVec 1024) (n b : Nat) : (s.ringWords e n).rd b
    = if ∃ i < n, b = R.PERF_RING_WORD i then e.extractLsb' (8 * (b - R.PERF_RING_WORD 0)) 32 else s.rd b := by
  induction n with
  | zero => simp [ringWords]
  | succ n ih =>
    rw [ringWords_succ, rd_wr, ih]
    by_cases hb : b = R.PERF_RING_WORD n
    · have e8 : 8 * (b - R.PERF_RING_WORD 0) = 32 * n := by subst hb; simp only [R.PERF_RING_WORD]; omega
      rw [if_pos hb, if_pos ⟨n, by omega, hb⟩, e8]
    · rw [if_neg hb]
      refine if_congr ⟨fun ⟨i, hi, e⟩ => ⟨i, by omega, e⟩, fun ⟨i, hi, e⟩ => ⟨i, ?_, e⟩⟩ rfl rfl
      have : i ≠ n := fun h => hb (h ▸ e)
      omega

theorem ringSel_write (v : Word) (ho : Open s path R.PERF_RING_SEL) : s.regCmd path R.PERF_RING_SEL v
    = (s.wr R.PERF_RING_SEL ((s.rd R.PERF_RING_SEL &&& ~~~4095#32) ||| (v &&& 4095#32))).ringSelect := by
  have hoff : offOf R.PERF_RING_SEL = 0x98 := by decide
  have hcur : s.cur R.PERF_RING_SEL = s.rd R.PERF_RING_SEL := rfl
  rw [regCmd_plain (m := 4095#32) (c := 0) v ho (by decide) rfl rfl, regEffect_perf (by decide) (by decide),
    afterWrite_self (by decide), hoff, hcur]
  rfl

end State
end Sys2Proof.Machine

namespace Sys2Proof.Safety
open Sys2Proof.Machine Sys2Proof.Machine.State

/-- Settles O51: each command is a write of a register of the PERF or PERFU page, whose action is the one named. -/
theorem performanceMonitor : Obligations.PerformanceMonitor := by
  unfold Obligations.PerformanceMonitor
  refine ⟨fun s w ho hold hf hs => ?_, fun s w ho => ?_, fun s path ho hen => ?_, fun s path ho hen => ?_,
    fun s path k ho hk => ?_, fun s path j ho => ?_, fun s w ho => ?_⟩
  · have hnew : F.PERF_PERF_CTL_FREEZE.get (perfCtlWord (s.rd R.PERF_PERF_CTL) w.value) = 1 :=
      (Fld.get_merge _ _ (by decide)).trans hf
    have hold' : F.PERF_PERF_CTL_FREEZE.get (s.rd R.PERF_PERF_CTL) = 0 := on_eq_false.mp hold
    have hstop : F.PERF_PERF_CTL_SNAPSHOT.get w.value ≠ 1 := by omega
    refine gives_of_eq rfl ((perfCtl_write _ ho).trans (if_neg hstop)) ⟨?_, perfCtlStored_perf _, perfCtlStored_memKept _,
      perfCtlStored_regsKept _⟩
    rw [perfCtlStored, if_neg (by rw [hold', hnew]; decide), perfFreeze, perfFrozen,
      on_flag_same _ _ _ _ (by decide) rfl, hnew]
    rfl
  · have hsnap : F.PERF_PERF_CTL_SNAPSHOT.get (F.PERF_PERF_CTL_SNAPSHOT.set (2 ^ 1 - 1) w.value) = 1 :=
      Fld.get_set _ _ _ (by decide)
    refine gives_of_eq rfl ((perfCtl_write _ ho).trans (if_pos hsnap)) ?_
    generalize perfCtlWord _ _ = new
    have hregs := perfCtlStored_regsKept (s := s) new
    exact ⟨by rw [perfSnapshot_snaps, perfCtlStored_perf], perfSnapshot_valid, by rw [perfSnapshot_ts, perfCtlStored_ts],
      by rw [perfSnapshot_count, hregs _ (by simp) (by decide)], (perfCtlStored_memKept new).trans perfSnapshot_memKept,
      (hregs.mono (List.Subset.refl _) (by simp)).trans (perfSnapshot_regsKept.mono (List.Subset.refl _) (by simp))⟩
  · exact gives_of_eq rfl ((userCmd_write ho).trans (if_pos hen)) ⟨perfSnapshot_snaps, perfSnapshot_count,
      perfSnapshot_memKept, perfSnapshot_regsKept⟩
  · exact gives_of_eq rfl ((userCmd_write ho).trans (if_neg (by simp [hen]))) ⟨accErr_snaps .., accErr_count ..,
      accErr_memKept .., accErr_regsKept _ _ _ _ _⟩
  · exact gives_of_eq rfl ((pcCmd_clear ho).trans (perfClear_eq hk)) ⟨by rw [perfCleared_ctr, if_pos rfl],
      fun j hj => by rw [perfCleared_ctr, if_neg hj], rfl, ⟨rfl, rfl, rfl, rfl, rfl, rfl⟩, (RegsKept.refl s).of_regs rfl⟩
  · exact gives_of_eq rfl (pcCmd_clearAll ho) ⟨rfl, rfl, rfl, ⟨rfl, rfl, rfl, rfl, rfl, rfl⟩,
      (RegsKept.refl s).of_regs rfl⟩
  · refine gives_of_eq rfl (ringSel_write _ ho) ?_
    generalize hw : (s.rd R.PERF_RING_SEL &&& ~~~4095#32) ||| (w.value &&& 4095#32) = new
    have hidx : F.PERF_RING_SEL_INDEX.get new = F.PERF_RING_SEL_INDEX.get w.value := hw ▸ Fld.get_merge _ _ (by decide)
    have hsel : (s.wr R.PERF_RING_SEL new).ringSelect = ((s.wr R.PERF_RING_SEL new).ringWords
        (SMap.get (fun _ => 0) s.perf.ring (F.PERF_RING_SEL_INDEX.get w.value)) 32).flag
          R.PERF_RING_SEL_STAT F.PERF_RING_SEL_STAT_DONE true := by
      rw [ringSelect, fld_wr_same, hidx]
      rfl
    rw [hsel]
    generalize SMap.get (fun _ => (0 : BitVec 1024)) s.perf.ring (F.PERF_RING_SEL_INDEX.get w.value) = e
    obtain ⟨hperf, hmem⟩ := ringWords_perf (s := s.wr R.PERF_RING_SEL new) e 32
    refine ⟨fun i => ?_, on_flag_same _ _ _ _ (by decide) rfl, (flag_perf ..).trans (hperf.trans (wr_perf ..)),
      ((wr_memKept ..).trans hmem).trans (flag_memKept ..), ?_⟩
    · have hne : R.PERF_RING_WORD i ≠ R.PERF_RING_SEL_STAT := by simp only [R.PERF_RING_WORD, R.PERF_RING_SEL_STAT]; omega
      have h8 : 8 * (R.PERF_RING_WORD i - R.PERF_RING_WORD 0) = 32 * i := by simp only [R.PERF_RING_WORD]; omega
      rw [rd_flag, if_neg hne, ringWords_rd, if_pos ⟨i, i.isLt, rfl⟩, h8]
    · intro b _ hb
      simp only [List.cons_append, List.nil_append, List.mem_cons, List.mem_map, List.mem_range, not_or, not_exists,
        not_and] at hb
      obtain ⟨h1, h2, h3⟩ := hb
      have hw : ¬ ∃ i < 32, b = R.PERF_RING_WORD i := fun ⟨i, hi, e⟩ => h3 i hi e.symm
      rw [rd_flag, if_neg h2, ringWords_rd, if_neg hw, rd_wr, if_neg h1]

end Sys2Proof.Safety
end

section
/-! SUPPORT. Repair records on their way to the flash and to REPAIR_FIELD (R379), and what HEALTH shows (R312). -/

namespace Sys2Proof.Machine
open Sys2Proof.Safety State

/-- What the writes of the repair mirror leave alone: only the flash, its bookkeeping and counters can differ. -/
structure MirrorKept (s t : State) : Prop where
  dram : t.dram = s.dram
  place : t.place = s.place
  spare : t.spare = s.spare
  otp : t.otp = s.otp
  handed : t.fcol.handed = s.fcol.handed
  declared : t.fcol.declared = s.fcol.declared

namespace MirrorKept

theorem refl (s : State) : MirrorKept s s := ⟨rfl, rfl, rfl, rfl, rfl, rfl⟩

theorem trans {s t u : State} (h : MirrorKept s t) (k : MirrorKept t u) : MirrorKept s u :=
  ⟨k.dram.trans h.dram, k.place.trans h.place, k.spare.trans h.spare, k.otp.trans h.otp, k.handed.trans h.handed,
    k.declared.trans h.declared⟩

theorem inc (s : State) (a n : Nat) : MirrorKept s (s.inc a n) := by
  constructor <;> simp

theorem mgmt (s : State) (m : MgmtState) : MirrorKept s { s with mgmt := m } := ⟨rfl, rfl, rfl, rfl, rfl, rfl⟩

end MirrorKept

namespace State

variable {s : State}

theorem flashProgram_mirrorKept (s : State) (a : Nat) (bytes : List Nat) : MirrorKept s (s.flashProgram a bytes) :=
  (MirrorKept.mgmt s _).trans (.inc ..)

theorem flashErase_mirrorKept (s : State) (a n : Nat) : MirrorKept s (s.flashErase a n) :=
  (MirrorKept.mgmt s _).trans (.inc ..)

theorem mirrorErase_mirrorKept (s : State) (half : Nat) : MirrorKept s (s.mirrorErase half) :=
  (flashErase_mirrorKept s _ _).trans (flashErase_mirrorKept _ _ _)

theorem mirrorPush_mirrorKept (s : State) (r : Word × Word) : MirrorKept s (s.mirrorPush r) :=
  (flashProgram_mirrorKept s _ _).trans (.mgmt _ _)

theorem mirrorPushes_mirrorKept (l : List (Word × Word)) (s : State) :
    MirrorKept s (l.foldl (fun (t : State) r => t.mirrorPush r) s) := by
  induction l generalizing s with
  | nil => exact .refl s
  | cons r l ih => exact (mirrorPush_mirrorKept s r).trans (ih _)

theorem mirrorTurn_mirrorKept (s : State) : MirrorKept s s.mirrorTurn := by
  unfold mirrorTurn
  exact (((mirrorErase_mirrorKept s _).trans (.mgmt _ _)).trans (mirrorPushes_mirrorKept _ _)).trans
    (mirrorErase_mirrorKept _ _)

theorem mirrorRecord_mirrorKept (s : State) (r : Word × Word) : MirrorKept s (s.mirrorRecord r) := by
  unfold mirrorRecord
  split
  · exact (mirrorTurn_mirrorKept s).trans (mirrorPush_mirrorKept _ r)
  · exact mirrorPush_mirrorKept s r

/-- A record queued for REPAIR_FIELD touches the OTP's queue and registers alone. -/
theorem queueAppend_kept (s : State) (r : Word × Word) : (s.queueAppend r).spare = s.spare ∧
    (s.queueAppend r).otp.array = s.otp.array ∧ (s.queueAppend r).dram = s.dram ∧ (s.queueAppend r).place = s.place ∧
    (s.queueAppend r).fcol = s.fcol := by
  unfold queueAppend
  split <;> exact ⟨rfl, rfl, rfl, rfl, rfl⟩

/-! ### What follows leaves the records alone -/

theorem logNote_spare (k : Nat) (e : List (Nat × Nat)) : (s.logNote k e).spare = s.spare := rfl
theorem rd_logNote (k b : Nat) (e : List (Nat × Nat)) : (s.logNote k e).rd b = s.rd b := rfl

theorem countOutage_records : s.countOutage.spare.commits = s.spare.commits ∧
    s.countOutage.spare.merged = s.spare.merged := by
  unfold countOutage
  split
  · dsimp only
    split
    · exact ⟨rfl, rfl⟩
    · simp
  · split <;> exact ⟨rfl, rfl⟩

theorem showHealth_records (n : Nat) (b : Bool) : (s.showHealth n b).spare.commits = s.spare.commits ∧
    (s.showHealth n b).spare.merged = s.spare.merged := by
  unfold showHealth
  dsimp only
  generalize (if b then _ else _) = new
  split
  · exact ⟨rfl, rfl⟩
  · simp only [logNote_spare, inc_spare]
    exact ⟨rfl, rfl⟩

theorem settle_records (h : Calm s) : s.settle.spare.commits = s.spare.commits ∧
    s.settle.spare.merged = s.spare.merged := by
  rw [settle_calm h]
  obtain ⟨h1, h2⟩ := showHealth_records (s := s.settleRecs.countOutage)
    (s.settleRecs.countOutage.spare.conds ||| s.settleRecs.countOutage.healthConds) false
  obtain ⟨h3, h4⟩ := countOutage_records (s := s.settleRecs)
  exact ⟨h1.trans h3, h2.trans h4⟩

/-- The record at the head leaves the list of those that wait and joins the merged list. -/
theorem recordCommit_spec {r : Word × Word} {l : List (Word × Word)} (hc : s.spare.commits = r :: l)
    (hf : s.fwRunning = true) (hp : s.flashPresent = true) :
    s.recordCommit.spare = { s.spare with commits := l, merged := s.spare.merged ++ [r] } ∧
      s.recordCommit.otp.array = s.otp.array ∧ s.recordCommit.dram = s.dram ∧ s.recordCommit.place = s.place ∧
      s.recordCommit.fcol.handed = s.fcol.handed ∧ s.recordCommit.fcol.declared = s.fcol.declared := by
  obtain ⟨hdram, hplace, hspare, hotp, hhanded, hdeclared⟩ := mirrorRecord_mirrorKept s r
  simp only [recordCommit, hc, hf, hp, Bool.not_true, Bool.or_self, Bool.false_eq_true, if_false, showMerged, wr_spare,
    wr_otp, wr_dram, wr_place, wr_fcol]
  generalize s.mirrorRecord r = m at *
  obtain ⟨h1, h2, h3, h4, h5⟩ :=
    queueAppend_kept { m with spare := { m.spare with commits := l, merged := m.spare.merged ++ [r] } } r
  rw [h1, h2, h3, h4, h5]
  exact ⟨by rw [hspare], by rw [hotp], hdram, hplace, hhanded, hdeclared⟩

/-! ### Health -/

theorem healthState_lt (s : State) (n : Nat) : s.healthState n < 4 := by
  unfold healthState
  split
  · decide
  · split
    · decide
    · split <;> decide

theorem showHealth_memKept (n : Nat) (b : Bool) : MemKept s (s.showHealth n b) := by
  have same {α : Type} (g : State → α) (hr) (hs) (hc) (hl) : g (s.showHealth n b) = g s := showHealth_same g n b hr hs hc hl
  exact ⟨same (·.dram) (fun _ _ _ _ => rfl) (fun _ _ => rfl) (fun _ _ _ => by simp) (fun _ _ => rfl),
    same (·.cache) (fun _ _ _ _ => rfl) (fun _ _ => rfl) (fun _ _ _ => by simp) (fun _ _ => rfl),
    same (·.wdb) (fun _ _ _ _ => rfl) (fun _ _ => rfl) (fun _ _ _ => by simp) (fun _ _ => rfl),
    same (·.place) (fun _ _ _ _ => rfl) (fun _ _ => rfl) (fun _ _ _ => by simp) (fun _ _ => rfl),
    same (·.otp) (fun _ _ _ _ => rfl) (fun _ _ => rfl) (fun _ _ _ => by simp) (fun _ _ => rfl),
    same (·.mgmt.flash) (fun _ _ _ _ => rfl) (fun _ _ => rfl) (fun _ _ _ => by simp) (fun _ _ => rfl)⟩

theorem showHealth_regsKept (n : Nat) (b : Bool) : RegsKept s (s.showHealth n b) [0x014] [] := by
  intro a ha _
  refine showHealth_same (·.rd a) n b (fun t c v hc => ?_) (fun _ _ => rfl) (fun _ _ _ => by simp) (fun _ _ => rfl)
  have : a ≠ c := fun e => ha (by simp [e, hc])
  exact rd_wr_other _ _ _ _ this

/-- The state that HEALTH shows when what has ended counts as ended: that of the conditions. -/
theorem showHealth_fall (n : Nat) : (s.showHealth n true).rd R.HEALTH_HEALTH_COND = BitVec.ofNat 32 n ∧
    (s.showHealth n true).fld R.HEALTH_HEALTH_STAT F.HEALTH_HEALTH_STAT_STATE = s.healthState n := by
  have hne : R.HEALTH_HEALTH_COND ≠ R.HEALTH_HEALTH_STAT ∧ R.HEALTH_HEALTH_COND ≠ R.HEALTH_STATE_CHANGES ∧
    R.HEALTH_HEALTH_STAT ≠ R.HEALTH_STATE_CHANGES := by decide
  have hmod : s.healthState n % 2 ^ 2 = s.healthState n := Nat.mod_eq_of_lt (healthState_lt s n)
  unfold showHealth
  dsimp only
  simp only [if_true]
  generalize s.healthState n = new at hmod ⊢
  generalize hold : s.fld R.HEALTH_HEALTH_STAT F.HEALTH_HEALTH_STAT_STATE = old
  have hcond (t : State) (x : Bool) : ((t.wr R.HEALTH_HEALTH_COND (BitVec.ofNat 32 n)).flag R.HEALTH_HEALTH_STAT
      F.HEALTH_HEALTH_STAT_FIELD_REPAIR x).rd R.HEALTH_HEALTH_COND = BitVec.ofNat 32 n := by
    rw [rd_flag, if_neg (by decide), rd_wr_same]
  split
  · rename_i h
    refine ⟨hcond _ _, ?_⟩
    rw [fld_flag_other _ _ _ _ _ _ (.inr (by decide)), fld_wr_other _ _ _ _ _ (by decide), h]
    exact hold
  · constructor
    · rw [rd_logNote, rd_inc, if_neg (by decide), rd_put, if_neg (by decide)]
      exact hcond _ _
    · unfold fld
      rw [rd_logNote, rd_inc, if_neg (by decide), rd_put, if_pos rfl, Fld.get_set _ _ _ (by decide)]
      exact hmod

end State
end Sys2Proof.Machine

namespace Sys2Proof.Safety
open Sys2Proof.Machine Sys2Proof.Machine.State

/-- Settles O40: a slice turns the lender's choice alone; a record goes from those that wait to the merged list and then to the
OTP's next free pair; HEALTH shows the conditions as they are. -/
theorem sparingAndHealth : Obligations.SparingAndHealth := by
  unfold Obligations.SparingAndHealth
  refine ⟨fun s q hr ha => ?_, fun s q ha => ?_, fun s r l hcalm hc hf hp => ?_, fun s r l hq hop hpc haa hu => ?_,
    fun s => ⟨_, rfl, (showHealth_fall _).1, (showHealth_fall _).2, showHealth_memKept _ _, showHealth_regsKept _ _⟩⟩
  · refine gives_of_eq rfl ((clocked_eq hr _).trans (if_pos ha)) ⟨?_, ⟨rfl, rfl, rfl, rfl, rfl, rfl⟩,
      (RegsKept.refl s).of_regs rfl⟩
    change (if s.spare.lendTurn.contains q.val then s.spare.lendTurn.filter (· ≠ q.val)
      else q.val :: s.spare.lendTurn).contains q.val = _
    split <;> simp_all
  · have hs : s.lendSlice q.val = s := if_neg (by simp [ha])
    have hcl : s.clocked (fun s => s.lendSlice q.val) = s := by
      unfold clocked
      split
      · exact hs
      · rfl
    exact congrArg Host.Outcome.next hcl
  · obtain ⟨hspare, hotp, hdram, hplace, hhanded, hdeclared⟩ := recordCommit_spec hc hf hp
    have hcalm' : Calm s.recordCommit := hcalm.of_parts hhanded hdeclared (by rw [hspare]) (by rw [hplace])
    obtain ⟨h1, h2⟩ := settle_records hcalm'
    exact ⟨_, rfl, by rw [h1, hspare], by rw [h2, hspare], by rw [settle_otp hcalm', hotp],
      by rw [settle_dram hcalm', hdram], by rw [settle_place hcalm', hplace]⟩
  · have hgo : s.repairAppend = ({ s with otp := { s.otp with op := some ⟨[(0x400 + 2 * s.pairsUsed, r.1),
        (0x400 + 2 * s.pairsUsed + 1, r.2)], true⟩ } }).flag R.FUSE_PROG_STAT F.FUSE_PROG_STAT_BUSY true := by
      have hu' : decide (1536 ≤ s.pairsUsed) = false := by simpa using hu
      simp only [repairAppend, hq, hop, hpc, haa, hu', Option.isSome_none, Bool.not_true, Bool.or_self,
        Bool.false_eq_true, if_false]
    exact gives_of_eq rfl hgo ⟨rfl, rfl, on_flag_same _ _ _ _ (by decide) rfl, rfl,
      ((RegsKept.refl s).of_regs rfl).flag _ _ (by simp)⟩

end Sys2Proof.Safety
end

section
namespace Sys2Proof.Safety
open Sys2Proof.Machine Sys2Proof.Machine.State Sys2Proof.Tests

/-- A configuration read of master 5 that the Bridle holds, its master in MODE 2. -/
def heldCfgRd : Req := { id := 7, header := hdr 8 3 5 4095 0 0 0, stage := .held }

/-- The stack with that read as its only request and the BRIDLE page open. -/
def holdingCfgRd : State :=
  openPage { reqs [heldCfgRd] with bridle := { (reqs [heldCfgRd]).bridle with ctl := [(5, 2)] } } 0xB

/-- The read meets what the fourth clause on REG_CTL asks, and the write of MODE 3 leaves it held. -/
theorem holdingCfgRd_hyps : Open holdingCfgRd .pcie (R.BRIDLE_REG_CTL 5) ∧ Calm holdingCfgRd ∧
    holdingCfgRd.effMode 5 = 2 ∧ holdingCfgRd.xact.reqs = [heldCfgRd] ∧ hMid heldCfgRd.header = 5 ∧
    holdingCfgRd.mayPerform heldCfgRd = true := by
  unfold Open Calm
  decide +kernel

theorem holdingCfgRd_stays : (match exec (.regCtlWrite 5 false ⟨.pcie, 3⟩) holdingCfgRd with
    | .next t => t.xact.reqs.all fun x => x.stage == .held
    | _ => false) = true := by
  decide +kernel

/-- Refutes O36: MODE 3 never refuses a configuration access (R255), so a held CfgRd of the master stays held and gets no
answer; the clause on MODE 3 names every held request. -/
theorem not_budgetsAndHolds : ¬ Obligations.BudgetsAndHolds := by
  unfold Obligations.BudgetsAndHolds
  intro h
  obtain ⟨-, -, -, -, hrefuse, -⟩ := h
  obtain ⟨hopen, hcalm, hmode, hreqs, hmid, hmay⟩ := holdingCfgRd_hyps
  obtain ⟨t, ht, -, ⟨x, hx, -, hdone, -⟩, -⟩ :=
    hrefuse holdingCfgRd 5 ⟨.pcie, 3⟩ heldCfgRd hopen hcalm (.inr hmode) hreqs rfl rfl hmid hmay (by decide)
  have hall := holdingCfgRd_stays
  rw [ht] at hall
  have hheld := List.all_eq_true.mp hall x hx
  simp [hdone] at hheld

end Sys2Proof.Safety
end

section
/-! SUPPORT. Checkpoints and mirrors of the keel area (R161, R162). -/

namespace Sys2Proof.Machine
open Sys2Proof.Safety State

namespace State

variable {s : State} {path : Path}

/-- A checkpoint has started. -/
def ckptRuns (s : State) : State := { s with place := { s.place with ckptBusy := true } }

theorem ckptStart_laid (h : s.place.laid = true) : s.ckptStart = s.ckptRuns := if_pos h

theorem journalCtl_write (v : Word) (ho : Open s path R.PLACE_JOURNAL_CTL) (hn : F.PLACE_JOURNAL_CTL_CKPT_NOW.get v = 1) :
    s.regCmd path R.PLACE_JOURNAL_CTL v = (s.wr R.PLACE_JOURNAL_CTL
      ((s.rd R.PLACE_JOURNAL_CTL &&& ~~~65535#32) ||| (v &&& 65535#32))).ckptStart.settle := by
  have hc : F.PLACE_JOURNAL_CTL_CKPT_NOW.get (v &&& 65536#32) = 1 := (Fld.get_and v (by decide)).trans hn
  have hoff : offOf R.PLACE_JOURNAL_CTL = 0xF0 := by decide
  have hcur : s.cur R.PLACE_JOURNAL_CTL = s.rd R.PLACE_JOURNAL_CTL := rfl
  rw [regCmd_plain (m := 65535#32) (c := 65536#32) v ho (by decide) rfl rfl, regEffect_place (by decide) (by decide),
    afterWrite_settle (by decide), hoff, hcur]
  simp [wrPlace, hc]

/-! ### A checkpoint -/

/-- The places of a checkpoint's images: the older slot of every valid mirror. -/
def ckptKeys (s : State) (slot : Nat) : List Nat := ([false, true].filter s.mirrorOk).map fun (b : Bool) => 2 * b.toNat + slot

theorem ckptKeys_mem {slot : Nat} (b : Bool) (h : s.mirrorOk b = true) : 2 * b.toNat + slot ∈ s.ckptKeys slot :=
  List.mem_map.mpr ⟨b, by cases b <;> simp [h], rfl⟩

theorem ckptKeys_other {slot : Nat} (hs : slot = 0 ∨ slot = 1) (b : Bool) : 2 * b.toNat + (1 - slot) ∉ s.ckptKeys slot := by
  intro h
  obtain ⟨c, -, hc⟩ := List.mem_map.mp h
  have := b.toNat_lt
  have := c.toNat_lt
  omega

/-- The images are stored and no checkpoint runs. -/
def ckptStored (s : State) (slot : Nat) : State :=
  { s with place := { s.place with
    ckptTable := SMap.setAll (fun _ => []) ((s.ckptKeys slot).map fun k => (k, s.place.table)) s.place.ckptTable
    ckptFrames := SMap.setAll (fun _ => []) ((s.ckptKeys slot).map fun k => (k, s.place.frames)) s.place.ckptFrames
    ckptSeq := SMap.setAll (fun _ => 0) ((s.ckptKeys slot).map fun k => (k, s.place.jseq + 1)) s.place.ckptSeq
    ckptBusy := false, sinceCkpt := 0 } }

/-- What a journal record leaves of the table, of the stored images and of the memory; only half a ring of records since the
last checkpoint starts one. -/
theorem journal_kept (ty parcel frame flags : Nat) :
    (s.journal ty parcel frame flags).place.table = s.place.table ∧
    (s.journal ty parcel frame flags).place.ckptTable = s.place.ckptTable ∧
    (s.journal ty parcel frame flags).place.ckptFrames = s.place.ckptFrames ∧
    (s.journal ty parcel frame flags).dram = s.dram ∧
    (s.place.ckptBusy = false → s.place.sinceCkpt = 0 → (s.journal ty parcel frame flags).place.ckptBusy = false) ∧
    (∀ a, a ≠ R.PLACE_JOURNAL_LO → a ≠ R.PLACE_JOURNAL_LO + 4 → (s.journal ty parcel frame flags).rd a = s.rd a) := by
  unfold journal
  dsimp only
  split
  · exact ⟨rfl, rfl, rfl, rfl, fun h _ => h, fun _ _ _ => rfl⟩
  · refine ⟨?_, ?_, ?_, ?_, fun hb hc => ?_, fun a h1 h2 => ?_⟩
    · rw [inc64_place]
    · rw [inc64_place]
    · rw [inc64_place]
    · rw [inc64_dram]
    · rw [inc64_place, hb, hc]
      rfl
    · exact rd_inc64_other _ _ _ _ h1 h2

/-- The count of records since the last checkpoint starts again. -/
def ckptFresh (s : State) : State := { s with place := { s.place with sinceCkpt := 0 } }

theorem checkpoint_eq {slot : Nat} (h : slot = if s.slotSeq 0 ≤ s.slotSeq 1 then 0 else 1) :
    s.checkpoint = (((s.ckptStored slot).journal 6 slot 0 0).inc R.PLACE_CKPTS).ckptFresh := by
  subst h
  simp only [checkpoint, ckptStored, ckptFresh, ckptKeys]

/-! ### A rebuilt mirror -/

theorem keelRebuilt_eq {b : Bool} (hb : s.mirrorOk b = false) (ho : s.mirrorOk (!b) = true) (hq : s.place.keelQ = [])
    (hl : s.place.keelLost = []) : s.keelRebuilt b = ((s.copyMirror b).setMirror b true).flag R.PLACE_KEEL_STAT
      F.PLACE_KEEL_STAT_RELOCATING (!((s.copyMirror b).setMirror b true).mirrorOk false ||
        !((s.copyMirror b).setMirror b true).mirrorOk true) := by
  have hfind : s.keelFind b = s := by simp [keelFind, hl]
  have hqq : ((s.copyMirror b).setMirror b true).place.keelQ = [] := hq
  simp only [keelRebuilt, hb, ho, hq, hfind, hl, List.any_nil, Bool.not_true, Bool.or_self, Bool.false_eq_true, if_false,
    keelRelocate, hqq, List.foldl_nil, List.isEmpty_nil, Bool.false_or]

theorem setMirror_ok (b c : Bool) : (s.setMirror b true).mirrorOk c = (c == b || s.mirrorOk c) := by
  unfold setMirror mirrorOk
  cases b <;> cases c
  · exact on_flag_same _ _ _ _ (by decide) rfl
  · exact on_flag_other _ _ _ _ _ _ (.inr (by decide))
  · exact on_flag_other _ _ _ _ _ _ (.inr (by decide))
  · exact on_flag_same _ _ _ _ (by decide) rfl

theorem copyMirror_kept (b : Bool) : (s.copyMirror b).regs = s.regs ∧ (s.copyMirror b).dram = s.dram ∧
    (s.copyMirror b).fcol = s.fcol ∧ (s.copyMirror b).spare = s.spare ∧
    (s.copyMirror b).place.retiring = s.place.retiring ∧ (s.copyMirror b).place.table = s.place.table ∧
    (s.copyMirror b).place.frames = s.place.frames ∧ (s.copyMirror b).journalOf b = s.journalOf (!b) :=
  ⟨rfl, rfl, rfl, rfl, rfl, rfl, rfl, Sys2Proof.Laws.SMap.get_set_same _ _ _ _⟩

end State
end Sys2Proof.Machine

namespace Sys2Proof.Safety
open Sys2Proof.Machine Sys2Proof.Machine.State

/-- Settles O25: a checkpoint starts with the mark alone, its end stores the images in one slot of each valid mirror, and a
rebuilt mirror is a copy of the other. -/
theorem keelArea : Obligations.KeelArea := by
  unfold Obligations.KeelArea
  refine ⟨fun s w hc ho hl => ?_, fun s hr hl hs => ?_, fun s hs => ?_, fun s slot hr hb hslot => ?_,
    fun s b hc hr hbad hok hq hlost => ?_⟩
  · have hnow : F.PLACE_JOURNAL_CTL_CKPT_NOW.get (F.PLACE_JOURNAL_CTL_CKPT_NOW.set (2 ^ 1 - 1) w.value) = 1 :=
      Fld.get_set _ _ _ (by decide)
    refine gives_of_eq rfl (journalCtl_write _ ho hnow) ?_
    generalize hw : (s.rd R.PLACE_JOURNAL_CTL &&& ~~~65535#32) |||
      (F.PLACE_JOURNAL_CTL_CKPT_NOW.set (2 ^ F.PLACE_JOURNAL_CTL_CKPT_NOW.width - 1) w.value &&& 65535#32) = new
    have hnew : F.PLACE_JOURNAL_CTL_CKPT_S.get new = F.PLACE_JOURNAL_CTL_CKPT_S.get w.value := by
      rw [← hw, Fld.get_merge _ _ (by decide), Fld.get_set_other _ _ _ _ (by decide)]
    rw [ckptStart_laid (s := s.wr R.PLACE_JOURNAL_CTL new) hl]
    have hcalm : Calm (s.wr R.PLACE_JOURNAL_CTL new).ckptRuns := hc.of_parts rfl rfl rfl rfl
    have hregs : RegsKept s (s.wr R.PLACE_JOURNAL_CTL new).ckptRuns [0x014] [R.PLACE_JOURNAL_CTL] :=
      ((RegsKept.refl s).wr new (by simp)).of_regs rfl
    refine ⟨settle_place hcalm, ?_, settle_dram hcalm, hregs.trans (.settle hcalm (by simp))⟩
    rw [fld_eq_of_rd (settle_rd hcalm _ (by decide))]
    exact (fld_wr_same s R.PLACE_JOURNAL_CTL _ new).trans hnew
  · exact congrArg Host.Outcome.next ((clocked_eq hr _).trans ((if_neg hs).trans (ckptStart_laid hl)))
  · exact congrArg Host.Outcome.next (clocked_self (if_pos hs))
  · have heq := checkpoint_eq hslot
    generalize hu : ((s.ckptStored slot).journal 6 slot 0 0).inc R.PLACE_CKPTS = u at heq
    refine gives_of_eq rfl ((clocked_eq hr _).trans ((if_pos hb).trans heq)) ?_
    obtain ⟨htable, hckptT, hckptF, hdram, hbusy, hrd⟩ := journal_kept (s := s.ckptStored slot) 6 slot 0 0
    have hs01 : slot = 0 ∨ slot = 1 := by
      rw [hslot]
      split <;> simp
    have hplace : u.place = ((s.ckptStored slot).journal 6 slot 0 0).place := by rw [← hu, inc_place]
    have hcount : u.rd R.PLACE_CKPTS = s.rd R.PLACE_CKPTS + 1 := by
      rw [← hu, rd_inc, if_pos rfl, hrd _ (by decide) (by decide)]
      rfl
    refine ⟨fun b hok => ⟨?_, ?_⟩, fun b => ?_, ?_, ?_, hcount, ?_⟩
    · change SMap.get _ u.place.ckptTable _ = _
      rw [hplace, hckptT, ckptStored, get_setAll_const, if_pos (ckptKeys_mem b hok)]
    · change SMap.get _ u.place.ckptFrames _ = _
      rw [hplace, hckptF, ckptStored, get_setAll_const, if_pos (ckptKeys_mem b hok)]
    · change SMap.get _ u.place.ckptTable _ = _
      rw [hplace, hckptT, ckptStored, get_setAll_const, if_neg (ckptKeys_other hs01 b)]
    · change u.place.ckptBusy = false
      rw [hplace, hbusy rfl rfl]
    · change u.place.table = s.place.table
      rw [hplace, htable]
      rfl
    · change u.dram = s.dram
      rw [← hu, inc_dram, hdram]
      rfl
  · obtain ⟨hregs, hdram, hfcol, hspare, hret, htable, hframes, hjournal⟩ := copyMirror_kept (s := s) b
    have hboth (c : Bool) : ((s.copyMirror b).setMirror b true).mirrorOk c = true := by
      have hsame : (s.copyMirror b).mirrorOk c = s.mirrorOk c := on_eq_of_rd (rd_eq_of_regs hregs _) _
      rw [setMirror_ok, hsame]
      cases b <;> cases c <;> simp_all
    have heq := keelRebuilt_eq hbad hok hq hlost
    rw [hboth false, hboth true] at heq
    generalize hu : ((s.copyMirror b).setMirror b true).flag R.PLACE_KEEL_STAT F.PLACE_KEEL_STAT_RELOCATING (!true || !true)
      = u at heq
    have huplace : u.place = (s.copyMirror b).place := hu ▸ rfl
    have hcalm : Calm u := hc.of_parts (by rw [← hu, ← hfcol]; rfl) (by rw [← hu, ← hfcol]; rfl)
      (by rw [← hu, ← hspare]; rfl) (by rw [huplace, hret])
    have hkept : RegsKept s u [0x014] [R.PLACE_KEEL_STAT] := by
      rw [← hu]
      exact (((RegsKept.refl s).of_regs hregs).flag _ _ (by simp)).flag _ _ (by simp)
    have hsettle (f : Fld) : u.settle.on R.PLACE_KEEL_STAT f = u.on R.PLACE_KEEL_STAT f :=
      on_eq_of_rd (settle_rd hcalm _ (by decide)) _
    refine gives_of_eq rfl ((clocked_eq hr _).trans (congrArg settle heq)) ⟨?_, ?_, ?_, ?_, ?_, ?_,
      hkept.trans (.settle hcalm (by simp))⟩
    · have hub : u.mirrorOk b = true := by
        rw [← hu]
        refine (on_flag_other _ _ _ _ _ _ (.inr ?_)).trans (hboth b)
        cases b <;> decide
      rw [← hub]
      exact hsettle _
    · rw [journalOf, settle_place hcalm, huplace]
      exact hjournal
    · rw [hsettle, ← hu]
      exact on_flag_same _ _ _ _ (by decide) rfl
    · rw [settle_place hcalm, huplace, htable]
    · rw [settle_place hcalm, huplace, hframes]
    · rw [settle_dram hcalm, ← hu]
      exact hdram

end Sys2Proof.Safety
end

section
/-! SUPPORT. The placement table (R136, R137, R156, R161): what a change of an entry or of a frame's code leaves alone. The
counts, the journal and the deficit follow every change; a part of the state that has no part in these is blind to them. -/

namespace Sys2Proof.Machine
open Sys2Proof.Safety State

/-- A part of the state that is none of the registers, counters, journal, bank counts and deficit marks. -/
structure BookBlind {α : Type} (g : State → α) : Prop where
  wr : ∀ (t : State) a v, g (t.wr a v) = g t
  counted : ∀ (t : State) a n, g (t.counted a n) = g t
  journal : ∀ (t : State) j q c n b, g { t with place := { t.place with
    journal := j, jseq := q, clean := c, sinceCkpt := n, ckptBusy := b } } = g t
  bank : ∀ (t : State) m, g { t with place := { t.place with bankDelta := m } } = g t
  deficit : ∀ (t : State) e o w, g { t with place := { t.place with expired := e, openedAt := o, grace := w } } = g t

namespace BookBlind

variable {α : Type} {g : State → α} (hg : BookBlind g) (s : State)
include hg

theorem flag (a : Nat) (f : Fld) (b : Bool) : g (s.flag a f b) = g s := hg.wr ..
theorem put (a : Nat) (f : Fld) (n : Nat) : g (s.put a f n) = g s := hg.wr ..

theorem inc (a n : Nat) : g (s.inc a n) = g s := by
  unfold State.inc
  split
  · rfl
  · rw [hg.counted, hg.wr]

theorem inc64 (a n : Nat) : g (s.inc64 a n) = g s := by
  unfold State.inc64
  split
  · rfl
  · rw [hg.counted, wr64, hg.wr, hg.wr]

theorem tally (a : Nat) (f : Fld) (was is : Bool) : g (s.tally a f was is) = g s := by
  unfold State.tally
  split
  · rfl
  · exact hg.put ..

theorem updDeficit : g s.updDeficit = g s := by
  unfold State.updDeficit
  split
  · rfl
  · dsimp only
    generalize s.deficitNow = d
    have hp := hg.put s R.PLACE_DEFICIT F.PLACE_DEFICIT_COUNT d
    generalize s.put R.PLACE_DEFICIT F.PLACE_DEFICIT_COUNT d = t at hp ⊢
    split
    · rw [hg.flag, ← hp]
      exact hg.deficit t _ _ _
    · split
      · exact hp
      · rw [hg.flag, ← hp]
        exact hg.deficit t _ _ _

theorem writeJournal (ty parcel frame flags : Nat) : g (s.journal ty parcel frame flags) = g s := by
  unfold State.journal
  dsimp only
  split
  · rfl
  · rw [hg.inc64]
    exact hg.journal s _ _ _ _ _

theorem bumpBank (w : Word) (d : Int) : g (s.bumpBank w d) = g s := by
  unfold State.bumpBank
  split
  · exact hg.bank s _
  · rfl

theorem tallyEntry (a b : Word) : g (s.tallyEntry a b) = g s := by
  unfold State.tallyEntry
  rw [hg.bumpBank, hg.bumpBank, hg.tally, hg.tally, hg.tally, hg.tally, hg.tally]

theorem tallyFrame (t : State) (f : Nat) : g (t.tallyFrame s f) = g t := by
  unfold State.tallyFrame
  rw [hg.updDeficit, hg.tally, hg.tally]

end BookBlind

/-- A part of the state blind to the placement as a whole. -/
structure PlaceBlind {α : Type} (g : State → α) : Prop where
  wr : ∀ (t : State) a v, g (t.wr a v) = g t
  counted : ∀ (t : State) a n, g (t.counted a n) = g t
  place : ∀ (t : State) p, g { t with place := p } = g t

theorem PlaceBlind.book {α : Type} {g : State → α} (h : PlaceBlind g) : BookBlind g :=
  ⟨h.wr, h.counted, fun _ _ _ _ _ _ => h.place .., fun _ _ => h.place .., fun _ _ _ _ => h.place ..⟩

theorem placeBlind_dram : PlaceBlind (·.dram) := ⟨fun _ _ _ => rfl, fun _ _ _ => by simp, fun _ _ => rfl⟩
theorem placeBlind_wdb : PlaceBlind (·.wdb) := ⟨fun _ _ _ => rfl, fun _ _ _ => by simp, fun _ _ => rfl⟩
theorem placeBlind_cache : PlaceBlind (·.cache) := ⟨fun _ _ _ => rfl, fun _ _ _ => by simp, fun _ _ => rfl⟩
theorem placeBlind_otp : PlaceBlind (·.otp) := ⟨fun _ _ _ => rfl, fun _ _ _ => by simp, fun _ _ => rfl⟩
theorem placeBlind_spare : PlaceBlind (·.spare) := ⟨fun _ _ _ => rfl, fun _ _ _ => by simp, fun _ _ => rfl⟩
theorem placeBlind_xact : PlaceBlind (·.xact) := ⟨fun _ _ _ => rfl, fun _ _ _ => by simp, fun _ _ => rfl⟩
theorem placeBlind_handed : PlaceBlind (·.fcol.handed) := ⟨fun _ _ _ => rfl, fun _ _ _ => by simp, fun _ _ => rfl⟩
theorem placeBlind_declared : PlaceBlind (·.fcol.declared) := ⟨fun _ _ _ => rfl, fun _ _ _ => by simp, fun _ _ => rfl⟩

theorem bookBlind_table : BookBlind (·.place.table) :=
  ⟨fun _ _ _ => rfl, fun _ _ _ => by simp, fun _ _ _ _ _ _ => rfl, fun _ _ => rfl, fun _ _ _ _ => rfl⟩
theorem bookBlind_frames : BookBlind (·.place.frames) :=
  ⟨fun _ _ _ => rfl, fun _ _ _ => by simp, fun _ _ _ _ _ _ => rfl, fun _ _ => rfl, fun _ _ _ _ => rfl⟩
theorem bookBlind_retiring : BookBlind (·.place.retiring) :=
  ⟨fun _ _ _ => rfl, fun _ _ _ => by simp, fun _ _ _ _ _ _ => rfl, fun _ _ => rfl, fun _ _ _ _ => rfl⟩
theorem bookBlind_keelQ : BookBlind (·.place.keelQ) :=
  ⟨fun _ _ _ => rfl, fun _ _ _ => by simp, fun _ _ _ _ _ _ => rfl, fun _ _ => rfl, fun _ _ _ _ => rfl⟩
theorem bookBlind_cap : BookBlind (·.place.cap) :=
  ⟨fun _ _ _ => rfl, fun _ _ _ => by simp, fun _ _ _ _ _ _ => rfl, fun _ _ => rfl, fun _ _ _ _ => rfl⟩

namespace State

variable (s : State) (ty n f code : Nat) (w : Word)

/-- A changed entry changes the table, and otherwise books it. -/
theorem setEntry_table : (s.setEntry ty n w).place.table = SMap.set homeEntry n w s.place.table := by
  unfold setEntry putEntry
  rw [bookBlind_table.updDeficit, bookBlind_table.tallyEntry]
  exact congrArg (SMap.set homeEntry n w) (bookBlind_table.writeJournal s ..)

theorem setEntry_entry (k : Nat) : (s.setEntry ty n w).entry k = if k = n then w else s.entry k := by
  unfold entry
  rw [setEntry_table]
  split
  · subst_vars
    exact Sys2Proof.Laws.SMap.get_set_same _ _ _ _
  · exact Sys2Proof.Laws.SMap.get_set_other _ ‹_› _ _

/-- What is blind to the books and to the table. -/
theorem setEntry_blind {α : Type} {g : State → α} (hg : BookBlind g)
    (ht : ∀ (t : State) m, g { t with place := { t.place with table := m } } = g t) : g (s.setEntry ty n w) = g s := by
  unfold setEntry putEntry
  rw [hg.updDeficit, hg.tallyEntry, ht, hg.writeJournal]

theorem setFrame_frames : (s.setFrame f code).place.frames = SMap.set (layoutCode s.cap) f code s.place.frames := by
  unfold setFrame
  rw [bookBlind_frames.tallyFrame]
  exact congrArg (SMap.set (layoutCode s.cap) f code) (bookBlind_frames.writeJournal s ..)

theorem setFrame_blind {α : Type} {g : State → α} (hg : BookBlind g)
    (ht : ∀ (t : State) m, g { t with place := { t.place with frames := m } } = g t) : g (s.setFrame f code) = g s := by
  unfold setFrame
  dsimp only
  rw [hg.tallyFrame]
  exact (ht _ _).trans (hg.writeJournal s ..)

theorem queueZero_blind {α : Type} {g : State → α} (hg : BookBlind g)
    (ht : ∀ (t : State) q m, g { t with place := { t.place with zeroQ := q, heat := m } } = g t) :
    g (s.queueZero f) = g s := by
  unfold queueZero
  rw [hg.tallyFrame]
  exact ht s _ _

end State

/-- What the ladders look at (R296): a state that agrees with a calm one here is calm. -/
structure LadderKept (s t : State) : Prop where
  handed : t.fcol.handed = s.fcol.handed
  declared : t.fcol.declared = s.fcol.declared
  rows : t.spare.rows = s.spare.rows
  retiring : t.place.retiring = s.place.retiring

namespace LadderKept

variable {s t u : State}

theorem refl (s : State) : LadderKept s s := ⟨rfl, rfl, rfl, rfl⟩

theorem trans (h : LadderKept s t) (k : LadderKept t u) : LadderKept s u :=
  ⟨k.handed.trans h.handed, k.declared.trans h.declared, k.rows.trans h.rows, k.retiring.trans h.retiring⟩

theorem calm (h : LadderKept s t) (hc : Calm s) : Calm t := hc.of_parts h.handed h.declared h.rows h.retiring

theorem setEntry (s : State) (ty n : Nat) (w : Word) : LadderKept s (s.setEntry ty n w) :=
  ⟨setEntry_blind _ _ _ _ placeBlind_handed.book fun _ _ => rfl, setEntry_blind _ _ _ _ placeBlind_declared.book fun _ _ => rfl,
    congrArg _ (setEntry_blind s ty n w placeBlind_spare.book fun _ _ => rfl),
    setEntry_blind _ _ _ _ bookBlind_retiring fun _ _ => rfl⟩

theorem updDeficit (s : State) : LadderKept s s.updDeficit :=
  ⟨placeBlind_handed.book.updDeficit s, placeBlind_declared.book.updDeficit s,
    congrArg _ (placeBlind_spare.book.updDeficit s), bookBlind_retiring.updDeficit s⟩

theorem queueZero (s : State) (f : Nat) : LadderKept s (s.queueZero f) :=
  ⟨queueZero_blind _ _ placeBlind_handed.book fun _ _ _ => rfl, queueZero_blind _ _ placeBlind_declared.book fun _ _ _ => rfl,
    congrArg _ (queueZero_blind s f placeBlind_spare.book fun _ _ _ => rfl),
    queueZero_blind _ _ bookBlind_retiring fun _ _ _ => rfl⟩

theorem setFrame (s : State) (f code : Nat) : LadderKept s (s.setFrame f code) :=
  ⟨setFrame_blind _ _ _ placeBlind_handed.book fun _ _ => rfl, setFrame_blind _ _ _ placeBlind_declared.book fun _ _ => rfl,
    congrArg _ (setFrame_blind s f code placeBlind_spare.book fun _ _ => rfl),
    setFrame_blind _ _ _ bookBlind_retiring fun _ _ => rfl⟩

end LadderKept
end Sys2Proof.Machine
end

section
/-! SUPPORT. The deficit's expiry, withdrawal and reinstatement, and the queries of the PLACE page (R156 to R159, R166). -/

namespace Sys2Proof.Machine
open Sys2Proof.Safety State

namespace State

variable {s : State} {path : Path}

/-! ### A parcel withdrawn -/

theorem setTag_blind {α : Type} {g : State → α} (hg : BookBlind g) (hc : ∀ (t : State) c, g { t with cache := c } = g t)
    (s : State) (k : Nat) (x : BitVec 25) : g (s.setTag k x) = g s := by
  unfold setTag
  dsimp only
  split
  · exact hc s _
  · exact (hc _ _).trans (hg.put s ..)

theorem dropParcel_blind {α : Type} {g : State → α} (hg : BookBlind g)
    (hc : ∀ (t : State) c, g { t with cache := c } = g t) (s : State) (q n : Nat) : g (s.dropParcel q n) = g s := by
  unfold dropParcel
  generalize s.parcelWays q n = l
  induction l generalizing s with
  | nil => rfl
  | cons k l ih => exact (ih _).trans (setTag_blind hg hc s k 0)

theorem dropData_blind {α : Type} {g : State → α} (hg : BookBlind g)
    (hc : ∀ (t : State) c, g { t with cache := c } = g t) (hw : ∀ (t : State) l, g { t with wdb := l } = g t)
    (hz : ∀ (t : State) q m, g { t with place := { t.place with zeroQ := q, heat := m } } = g t)
    (s : State) (n : Nat) : g (s.dropData n) = g s := by
  unfold dropData
  dsimp only
  split
  · rw [queueZero_blind _ _ hg hz]
    exact (hw _ _).trans (dropParcel_blind hg hc s ..)
  · rfl

/-- A withdrawn parcel waits for no evacuation and no repair. -/
def forgetMove (s : State) (n : Nat) : State :=
  { s with place := { s.place with
      evacQ := s.place.evacQ.filter (· ≠ n), repair := SMap.set (fun _ => none) n none s.place.repair } }

theorem withdraw_eq {n : Nat} (hm : s.migOf n = none) :
    s.withdraw n = ((s.dropData n).forgetMove n).setEntry 3 n eWithdrawn := by
  simp only [withdraw, abortParcel, hm, forgetMove]

theorem withdraw_entry {n : Nat} (hm : s.migOf n = none) (k : Nat) :
    (s.withdraw n).entry k = if k = n then eWithdrawn else s.entry k := by
  have htable : ((s.dropData n).forgetMove n).place.table = s.place.table :=
    dropData_blind bookBlind_table (fun _ _ => rfl) (fun _ _ => rfl) (fun _ _ _ => rfl) s n
  rw [withdraw_eq hm, setEntry_entry]
  unfold entry
  rw [htable]

theorem withdraw_keelQ {n : Nat} (hm : s.migOf n = none) : (s.withdraw n).place.keelQ = s.place.keelQ := by
  rw [withdraw_eq hm, setEntry_blind _ _ _ _ bookBlind_keelQ fun _ _ => rfl]
  exact dropData_blind bookBlind_keelQ (fun _ _ => rfl) (fun _ _ => rfl) (fun _ _ _ => rfl) s n

theorem dropData_ladderKept (s : State) (n : Nat) : LadderKept s (s.dropData n) :=
  ⟨dropData_blind placeBlind_handed.book (fun _ _ => rfl) (fun _ _ => rfl) (fun _ _ _ => rfl) s n,
    dropData_blind placeBlind_declared.book (fun _ _ => rfl) (fun _ _ => rfl) (fun _ _ _ => rfl) s n,
    congrArg _ (dropData_blind placeBlind_spare.book (fun _ _ => rfl) (fun _ _ => rfl) (fun _ _ _ => rfl) s n),
    dropData_blind bookBlind_retiring (fun _ _ => rfl) (fun _ _ => rfl) (fun _ _ _ => rfl) s n⟩

theorem withdraw_ladderKept {n : Nat} (hm : s.migOf n = none) : LadderKept s (s.withdraw n) := by
  rw [withdraw_eq hm]
  exact ((dropData_ladderKept s n).trans (⟨rfl, rfl, rfl, rfl⟩ : LadderKept (s.dropData n) ((s.dropData n).forgetMove n))).trans
    (.setEntry ..)

/-! ### The grace has expired -/

/-- The deficit's grace is over. -/
def graceOver (s : State) : State := { s with place := { s.place with expired := true } }

theorem graceExpiry_eq (ho : s.on R.PLACE_DEFICIT F.PLACE_DEFICIT_OPEN = true) (he : s.place.expired = false) :
    s.graceExpiry = if s.on R.PLACE_WDR_CTL F.PLACE_WDR_CTL_AUTO_WDR then s.graceOver.withdrawDeficit else s.graceOver := by
  unfold graceExpiry
  rw [if_pos (by simp [ho, he])]
  rfl

/-- A deficit of one parcel withdraws the first in order. -/
theorem withdrawDeficit_one {p : Nat} (hn : s.fld R.PLACE_DEFICIT F.PLACE_DEFICIT_COUNT = 1)
    (hp : s.withdrawOrder.head? = some p) (hm : s.migOf p = none) (hq : s.place.keelQ = []) :
    s.withdrawDeficit = (s.withdraw p).flag R.PLACE_KEEL_STAT F.PLACE_KEEL_STAT_RELOCATING
      (!(s.withdraw p).mirrorOk false || !(s.withdraw p).mirrorOk true) := by
  have hq' : (s.withdraw p).place.keelQ = [] := (withdraw_keelQ hm).trans hq
  have htake : s.withdrawOrder.take 1 = [p] := by rw [List.take_one, hp]; rfl
  have hrel : (s.withdraw p).keelRelocate = (s.withdraw p).flag R.PLACE_KEEL_STAT F.PLACE_KEEL_STAT_RELOCATING
      (!(s.withdraw p).mirrorOk false || !(s.withdraw p).mirrorOk true) := by
    simp only [keelRelocate, hq', List.foldl_nil, List.isEmpty_nil, Bool.not_true, Bool.false_or]
  simp only [withdrawDeficit, hn, htake, List.foldl_cons, List.foldl_nil, hrel]
  exact if_pos (by rw [flag_place, hq']; rfl)

/-! ### Writes of the PLACE page -/

/-- What a write of a PLACE register of these masks leaves. -/
theorem placeReg_write {a : Nat} {m c : Word} (v : Word) (ho : Open s path a) (hp : PlainReg a m c)
    (hsoft : s.softBits a = 0) (hb : (pageOf a == 1 && (mbInput (offOf a)).any s.mbBusy) = false)
    (hf : firstOf (pageOf a) = 0x00C ∧ 0x40 ≤ offOf a) (hcur : s.cur a = s.rd a) :
    s.regCmd path a v = (s.wrPlace (offOf a) ((s.rd a &&& ~~~m) ||| (v &&& m)) (v &&& c) true).settle := by
  rw [regCmd_plain v ho hp hsoft hb, regEffect_place hf.1 hf.2, afterWrite_settle (by simp [hf.1]), hcur]

theorem wdrCtl_write (v : Word) (ho : Open s path R.PLACE_WDR_CTL) : s.regCmd path R.PLACE_WDR_CTL v
    = (s.wr R.PLACE_WDR_CTL ((s.rd R.PLACE_WDR_CTL &&& ~~~131071#32) ||| (v &&& 131071#32))).autoWdr.settle := by
  have hoff : offOf R.PLACE_WDR_CTL = 0x5C := by decide
  rw [placeReg_write (m := 131071#32) (c := 0) v ho (by decide) rfl rfl (by decide) rfl, hoff]
  simp [wrPlace]

theorem pinLimit_write (v : Word) (ho : Open s path R.PLACE_PIN_LIMIT) : s.regCmd path R.PLACE_PIN_LIMIT v
    = (s.wr R.PLACE_PIN_LIMIT ((s.rd R.PLACE_PIN_LIMIT &&& ~~~2097151#32) ||| (v &&& 2097151#32))).updDeficit.settle := by
  have hoff : offOf R.PLACE_PIN_LIMIT = 0x54 := by decide
  rw [placeReg_write (m := 2097151#32) (c := 0) v ho (by decide) rfl rfl (by decide) rfl, hoff]
  simp [wrPlace]

theorem spareRes_write (v : Word) (ho : Open s path R.PLACE_SPARE_RES) : s.regCmd path R.PLACE_SPARE_RES v
    = (s.wr R.PLACE_SPARE_RES ((s.rd R.PLACE_SPARE_RES &&& ~~~65535#32) ||| (v &&& 65535#32))).updDeficit.settle := by
  have hoff : offOf R.PLACE_SPARE_RES = 0x58 := by decide
  rw [placeReg_write (m := 65535#32) (c := 0) v ho (by decide) rfl rfl (by decide) rfl, hoff]
  simp [wrPlace]

theorem wdrCmd_write (v : Word) (ho : Open s path R.PLACE_WDR_CMD) (h : F.PLACE_WDR_CMD_REINSTATE.get v = 1) :
    s.regCmd path R.PLACE_WDR_CMD v
      = (s.reinstate (F.PLACE_WDR_CMD_PARCEL.get v) (F.PLACE_WDR_CMD_COUNT.get v + 1)).settle := by
  have hoff : offOf R.PLACE_WDR_CMD = 0x60 := by decide
  have hv : v &&& 4294967295#32 = v := BitVec.and_allOnes
  rw [placeReg_write (m := 0) (c := 4294967295#32) v ho (by decide) rfl rfl (by decide) rfl, hoff, hv]
  simp [wrPlace, h]

theorem locQuery_write (v : Word) (ho : Open s path R.PLACE_LOC_QUERY) :
    s.regCmd path R.PLACE_LOC_QUERY v = (s.locQuery (F.PLACE_LOC_QUERY_PARCEL.get v)).settle := by
  have hoff : offOf R.PLACE_LOC_QUERY = 0x64 := by decide
  have hv : F.PLACE_LOC_QUERY_PARCEL.get (v &&& 2097151#32) = F.PLACE_LOC_QUERY_PARCEL.get v := Fld.get_and v (by decide)
  rw [placeReg_write (m := 0) (c := 2097151#32) v ho (by decide) rfl rfl (by decide) rfl, hoff]
  simp [wrPlace, hv]

theorem wdrFind_write (v : Word) (ho : Open s path R.PLACE_WDR_FIND) :
    s.regCmd path R.PLACE_WDR_FIND v = (s.wdrFind (F.PLACE_WDR_FIND_START.get v)).settle := by
  have hoff : offOf R.PLACE_WDR_FIND = 0x70 := by decide
  have hv : F.PLACE_WDR_FIND_START.get (v &&& 2097151#32) = F.PLACE_WDR_FIND_START.get v := Fld.get_and v (by decide)
  rw [placeReg_write (m := 0) (c := 2097151#32) v ho (by decide) rfl rfl (by decide) rfl, hoff]
  simp [wrPlace, hv]

/-! ### What they do -/

theorem updDeficit_regsKept (s : State) : RegsKept s s.updDeficit [] [R.PLACE_DEFICIT] := by
  unfold updDeficit
  split
  · exact .refl s
  · dsimp only
    generalize s.deficitNow = d
    have hput : RegsKept s (s.put R.PLACE_DEFICIT F.PLACE_DEFICIT_COUNT d) [] [R.PLACE_DEFICIT] :=
      (RegsKept.refl s).put _ _ (by simp)
    generalize s.put R.PLACE_DEFICIT F.PLACE_DEFICIT_COUNT d = t at hput ⊢
    split
    · exact (hput.of_regs rfl).flag _ _ (by simp)
    · split
      · exact hput
      · exact (hput.of_regs rfl).flag _ _ (by simp)

/-- The entry of a RELEASED parcel. -/
def eReleased : Word := mkEntry 0 3 false false false false

theorem reinstate_one {n : Nat} (hn : n < s.parcels) (he : eState (s.entry n) = 4) :
    s.reinstate n 1 = s.setEntry 4 n eReleased := by
  simp [reinstate, hn, he, eReleased]

theorem locQuery_eq (n : Nat) : ∃ x y, s.locQuery n = (s.wr R.PLACE_LOC_RESULT x).wr R.PLACE_LOC_RESULT2 y := ⟨_, _, rfl⟩

theorem locQuery_kept (n : Nat) : MemKept s (s.locQuery n) ∧ LadderKept s (s.locQuery n) ∧
    RegsKept s (s.locQuery n) [] [R.PLACE_LOC_RESULT, R.PLACE_LOC_RESULT2] := by
  obtain ⟨x, y, h⟩ := locQuery_eq (s := s) n
  rw [h]
  exact ⟨(wr_memKept ..).trans (wr_memKept ..), ⟨rfl, rfl, rfl, rfl⟩,
    ((RegsKept.refl s).wr x (by simp)).wr y (by simp)⟩

theorem locQuery_result (n : Nat) : (s.locQuery n).rd R.PLACE_LOC_RESULT
    = BitVec.ofNat 32 ((if n < s.parcels then (s.entry n).toNat % 2 ^ 28 else 0) + 2 ^ 31) := by
  simp [locQuery]

theorem locQuery_result2 {n : Nat} (hn : s.parcels ≤ n) : (s.locQuery n).rd R.PLACE_LOC_RESULT2 = 0 := by
  have : decide (n < s.parcels) = false := by simpa using hn
  simp [locQuery, this]

theorem wdrFind_none {start : Nat} (h : ∀ e ∈ s.place.table, eState e.2 ≠ 4) :
    s.wdrFind start = s.wr R.PLACE_WDR_FOUND 0xC0000000 := by
  have hf : s.place.table.find? (fun e => decide (start ≤ e.1 ∧ e.1 < s.parcels ∧ eState e.2 = 4)) = none := by
    rw [List.find?_eq_none]
    intro e he
    simp [h e he]
  simp only [wdrFind, hf]

end State
end Sys2Proof.Machine

namespace Sys2Proof.Safety
open Sys2Proof.Machine Sys2Proof.Machine.State

/-- Settles O24: the expiry and the writes of the PLACE page each come down to one operation of the placement, which `settle`
leaves as it is in a calm stack. -/
theorem deficitAndQueries : Obligations.DeficitAndQueries := by
  unfold Obligations.DeficitAndQueries
  refine ⟨fun s hc hr hopen hexp hauto => ?_, fun s p hc hr hopen hexp hauto hn hp hm hq => ?_,
    fun s w hc ho hopen => ?_, fun s w hc ho => ?_, fun s w hc ho => ?_, fun s w n hc ho hn hcount hlt hst => ?_,
    fun s w n hc ho hn hlt => ?_, fun s w hc ho hge => ?_, fun s w hc ho hnone => ?_⟩
  · have heq := (graceExpiry_eq hopen hexp).trans (if_neg (by simp [hauto]))
    have hcalm : Calm s.graceOver := hc.of_parts rfl rfl rfl rfl
    have hregs : RegsKept s s.graceOver [0x014] [] := (RegsKept.refl s).of_regs rfl
    exact gives_of_eq rfl ((clocked_eq hr _).trans (congrArg settle heq)) ⟨settle_place hcalm, settle_dram hcalm,
      settle_wdb hcalm, hregs.trans (.settle hcalm (by simp))⟩
  · have heq := ((graceExpiry_eq hopen hexp).trans (if_pos hauto)).trans
      (withdrawDeficit_one (s := s.graceOver) hn hp hm hq)
    generalize (!(s.graceOver.withdraw p).mirrorOk false || !(s.graceOver.withdraw p).mirrorOk true) = b at heq
    have hcalm : Calm ((s.graceOver.withdraw p).flag R.PLACE_KEEL_STAT F.PLACE_KEEL_STAT_RELOCATING b) :=
      (((⟨rfl, rfl, rfl, rfl⟩ : LadderKept s s.graceOver).trans (withdraw_ladderKept hm)).calm hc).of_parts rfl rfl rfl rfl
    have hentry (k : Nat) : (((s.graceOver.withdraw p).flag R.PLACE_KEEL_STAT F.PLACE_KEEL_STAT_RELOCATING b).settle).entry k
        = if k = p then eWithdrawn else s.entry k := by
      have h := withdraw_entry (s := s.graceOver) hm k
      unfold entry at h ⊢
      rw [settle_place hcalm]
      exact h
    refine gives_of_eq rfl ((clocked_eq hr _).trans (congrArg settle heq)) ⟨?_, fun k hk => ?_⟩
    · rw [hentry, if_pos rfl]
      decide
    · rw [hentry, if_neg hk]
  · have hset := wdrCtl_write (F.PLACE_WDR_CTL_AUTO_WDR.set (2 ^ F.PLACE_WDR_CTL_AUTO_WDR.width - 1) w.value) ho
    generalize hw : (s.rd R.PLACE_WDR_CTL &&& ~~~131071#32) |||
      (F.PLACE_WDR_CTL_AUTO_WDR.set (2 ^ F.PLACE_WDR_CTL_AUTO_WDR.width - 1) w.value &&& 131071#32) = new at hset
    have hgrace : F.PLACE_WDR_CTL_GRACE_MS.get new = F.PLACE_WDR_CTL_GRACE_MS.get w.value := by
      rw [← hw, Fld.get_merge _ _ (by decide), Fld.get_set_other _ _ _ _ (by decide)]
    have hauto : F.PLACE_WDR_CTL_AUTO_WDR.get new = 1 := by
      rw [← hw, Fld.get_merge _ _ (by decide), Fld.get_set _ _ _ (by decide)]
      rfl
    have hstay : (s.wr R.PLACE_WDR_CTL new).autoWdr = s.wr R.PLACE_WDR_CTL new := by
      have hclosed : (s.wr R.PLACE_WDR_CTL new).on R.PLACE_DEFICIT F.PLACE_DEFICIT_OPEN = false :=
        (on_eq_of_rd (rd_wr_other _ _ _ _ (by decide)) _).trans hopen
      exact if_neg (by rw [hclosed]; simp)
    have hcalm : Calm (s.wr R.PLACE_WDR_CTL new) := hc.of_parts rfl rfl rfl rfl
    have hrd : (s.wr R.PLACE_WDR_CTL new).settle.rd R.PLACE_WDR_CTL = new :=
      (settle_rd hcalm _ (by decide)).trans (rd_wr_same ..)
    refine gives_of_eq rfl (hset.trans (congrArg settle hstay)) ⟨?_, ?_, (wr_memKept ..).trans (.settle hcalm),
      ((RegsKept.refl s).wr new (by simp)).trans (.settle hcalm (by simp))⟩
    · rw [on, fld, hrd, hauto]
      rfl
    · rw [fld, hrd, hgrace]
  · have hnew := Fld.get_merge (f := F.PLACE_PIN_LIMIT_LIMIT) (s.rd R.PLACE_PIN_LIMIT) w.value
      (by decide : _ &&& 2097151#32 = _)
    refine gives_of_eq rfl (pinLimit_write _ ho) ?_
    generalize (s.rd R.PLACE_PIN_LIMIT &&& ~~~2097151#32) ||| (w.value &&& 2097151#32) = new at hnew ⊢
    have hcalm := (LadderKept.updDeficit (s.wr R.PLACE_PIN_LIMIT new)).calm (hc.of_parts rfl rfl rfl rfl)
    refine ⟨?_, ?_, ?_, ?_⟩
    · rw [fld, settle_rd hcalm _ (by decide), updDeficit_regsKept _ _ (by simp) (by decide), rd_wr_same, hnew]
    · rw [settle_place hcalm, bookBlind_table.updDeficit]
      rfl
    · rw [settle_dram hcalm, placeBlind_dram.book.updDeficit]
      rfl
    · exact (((RegsKept.refl s).wr new (by simp)).trans ((updDeficit_regsKept _).mono (by simp) (by simp))).trans
        (.settle hcalm (by simp))
  · have hnew := Fld.get_merge (f := F.PLACE_SPARE_RES_RESERVE) (s.rd R.PLACE_SPARE_RES) w.value
      (by decide : _ &&& 65535#32 = _)
    refine gives_of_eq rfl (spareRes_write _ ho) ?_
    generalize (s.rd R.PLACE_SPARE_RES &&& ~~~65535#32) ||| (w.value &&& 65535#32) = new at hnew ⊢
    have hcalm := (LadderKept.updDeficit (s.wr R.PLACE_SPARE_RES new)).calm (hc.of_parts rfl rfl rfl rfl)
    refine ⟨?_, ?_, ?_, ?_⟩
    · rw [fld, settle_rd hcalm _ (by decide), updDeficit_regsKept _ _ (by simp) (by decide), rd_wr_same, hnew]
    · rw [settle_place hcalm, bookBlind_table.updDeficit]
      rfl
    · rw [settle_dram hcalm, placeBlind_dram.book.updDeficit]
      rfl
    · exact (((RegsKept.refl s).wr new (by simp)).trans ((updDeficit_regsKept _).mono (by simp) (by simp))).trans
        (.settle hcalm (by simp))
  · have hgo : F.PLACE_WDR_CMD_REINSTATE.get (F.PLACE_WDR_CMD_REINSTATE.set (2 ^ F.PLACE_WDR_CMD_REINSTATE.width - 1) w.value)
        = 1 := Fld.get_set _ _ _ (by decide)
    have heq := wdrCmd_write _ ho hgo
    rw [Fld.get_set_other _ _ _ _ (by decide), Fld.get_set_other _ _ _ _ (by decide), hcount, ← hn,
      reinstate_one hlt hst] at heq
    have hcalm := (LadderKept.setEntry s 4 n eReleased).calm hc
    have hentry (k : Nat) : (s.setEntry 4 n eReleased).settle.entry k = if k = n then eReleased else s.entry k := by
      rw [entry, settle_place hcalm]
      exact setEntry_entry s 4 n eReleased k
    refine gives_of_eq rfl heq ⟨?_, fun k hk => ?_, ?_, ?_, ?_⟩
    · rw [hentry, if_pos rfl]
      decide
    · rw [hentry, if_neg hk]
    · rw [settle_dram hcalm]
      exact setEntry_blind _ _ _ _ placeBlind_dram.book fun _ _ => rfl
    · rw [settle_wdb hcalm]
      exact setEntry_blind _ _ _ _ placeBlind_wdb.book fun _ _ => rfl
    · rw [settle_cache hcalm]
      exact setEntry_blind _ _ _ _ placeBlind_cache.book fun _ _ => rfl
  · subst hn
    obtain ⟨hmem, hladder, hregs⟩ := locQuery_kept (s := s) (F.PLACE_LOC_QUERY_PARCEL.get w.value)
    have hres := locQuery_result (s := s) (F.PLACE_LOC_QUERY_PARCEL.get w.value)
    have hcalm := hladder.calm hc
    rw [if_pos hlt] at hres
    refine gives_of_eq rfl (locQuery_write _ ho) ⟨?_, ?_, hmem.trans (.settle hcalm),
      (hregs.mono (by simp) (by simp)).trans (.settle hcalm (by simp))⟩
    · rw [fld, settle_rd hcalm _ (by decide), hres, Fld.get_ofNat _ _ (by decide)]
      change ((s.entry _).toNat % 2 ^ 28 + 2 ^ 31) / 2 ^ 0 % 2 ^ 28 = _
      omega
    · rw [on_eq_true, fld, settle_rd hcalm _ (by decide), hres, Fld.get_ofNat _ _ (by decide)]
      change ((s.entry _).toNat % 2 ^ 28 + 2 ^ 31) / 2 ^ 31 % 2 ^ 1 ≠ 0
      omega
  · obtain ⟨hmem, hladder, hregs⟩ := locQuery_kept (s := s) (F.PLACE_LOC_QUERY_PARCEL.get w.value)
    have hres := locQuery_result (s := s) (F.PLACE_LOC_QUERY_PARCEL.get w.value)
    have hcalm := hladder.calm hc
    rw [if_neg (by omega)] at hres
    refine gives_of_eq rfl (locQuery_write _ ho) ⟨?_, ?_, ?_⟩
    · rw [fld, settle_rd hcalm _ (by decide), hres, Fld.get_ofNat _ _ (by decide)]
      rfl
    · rw [on_eq_true, fld, settle_rd hcalm _ (by decide), hres, Fld.get_ofNat _ _ (by decide)]
      decide
    · rw [settle_rd hcalm _ (by decide), locQuery_result2 hge]
  · have hcalm : Calm (s.wr R.PLACE_WDR_FOUND 0xC0000000) := hc.of_parts rfl rfl rfl rfl
    have hrd : (s.wr R.PLACE_WDR_FOUND 0xC0000000).settle.rd R.PLACE_WDR_FOUND = 0xC0000000 :=
      (settle_rd hcalm _ (by decide)).trans (rd_wr_same ..)
    refine gives_of_eq rfl ((wdrFind_write _ ho).trans (congrArg settle (wdrFind_none hnone))) ⟨?_, ?_,
      (wr_memKept ..).trans (.settle hcalm), ((RegsKept.refl s).wr _ (by simp)).trans (.settle hcalm (by simp))⟩
    · rw [on, fld, hrd]
      decide
    · rw [on, fld, hrd]
      decide

end Sys2Proof.Safety
end

section
/-! SUPPORT. The DVFS sequencer (R325, R331, R332, R467): what its steps leave of DVFS_STAT. -/

namespace Sys2Proof.Machine
open Sys2Proof.Safety State

/-- What the sequencer's moves between its switches leave: the point in force, the ceiling, VDD_FAULT, its waits, the memory
and every register but DVFS_STAT. -/
structure SeqKept (s t : State) : Prop where
  point : t.dvPoint = s.dvPoint
  ceiling : t.dvCeiling = s.dvCeiling
  fault : t.on R.PWR_DVFS_STAT F.PWR_DVFS_STAT_VDD_FAULT = s.on R.PWR_DVFS_STAT F.PWR_DVFS_STAT_VDD_FAULT
  retry : t.therm.retry = s.therm.retry
  upWait : t.therm.upWait = s.therm.upWait
  mem : MemKept s t
  regs : RegsKept s t [] [R.PWR_DVFS_STAT]

namespace SeqKept

variable {s t u : State}

theorem refl (s : State) : SeqKept s s := ⟨rfl, rfl, rfl, rfl, rfl, .refl s, .refl s⟩

theorem trans (h : SeqKept s t) (k : SeqKept t u) : SeqKept s u :=
  ⟨k.point.trans h.point, k.ceiling.trans h.ceiling, k.fault.trans h.fault, k.retry.trans h.retry,
    k.upWait.trans h.upWait, h.mem.trans k.mem, h.regs.trans k.regs⟩

/-- Another transition is noted. -/
theorem note (s : State) (x : Option (Nat × Nat)) : SeqKept s { s with therm := { s.therm with trans := x } } :=
  ⟨rfl, rfl, rfl, rfl, rfl, ⟨rfl, rfl, rfl, rfl, rfl, rfl⟩, fun _ _ _ => rfl⟩

theorem busy (s : State) (b : Bool) : SeqKept s (s.flag R.PWR_DVFS_STAT F.PWR_DVFS_STAT_BUSY b) :=
  ⟨fld_flag_other _ _ _ _ _ _ (.inr (by decide)), fld_flag_other _ _ _ _ _ _ (.inr (by decide)),
    on_flag_other _ _ _ _ _ _ (.inr (by decide)), rfl, rfl, flag_memKept .., (RegsKept.refl s).flag _ _ (by simp)⟩

theorem vsel (s : State) (n : Nat) : SeqKept s (s.setVsel n) :=
  ⟨fld_put_other _ _ _ _ _ _ (.inr (by decide)), fld_put_other _ _ _ _ _ _ (.inr (by decide)),
    on_put_other _ _ _ _ _ _ (.inr (by decide)), rfl, rfl, put_memKept .., (RegsKept.refl s).put _ _ (by simp)⟩

end SeqKept

namespace State

variable {s : State} {path : Path}

theorem dvPoint_lt (s : State) : s.dvPoint < 4 := Fld.get_lt _ _

theorem dvBegin_kept (s : State) (n : Nat) : SeqKept s (s.dvBegin n) := by
  unfold dvBegin
  dsimp only
  split
  · exact ((SeqKept.note s _).trans (.busy _ _)).trans (.vsel _ _)
  · exact (SeqKept.note s _).trans (.busy _ _)

theorem dvCancel_kept (s : State) : SeqKept s s.dvCancel := ((SeqKept.note s none).trans (.busy _ _)).trans (.vsel _ _)

/-- The running transition follows a changed demand. -/
def dvAdjust (s : State) : State :=
  match s.therm.trans with
  | some (a, b) =>
    if b < a ∧ b < s.dvWanted then s.dvCancel
    else if a < b ∧ b < s.dvWanted then { s with therm := { s.therm with trans := some (a, s.dvWanted) } }
    else if b = 3 ∧ a < b ∧ !s.p3Allow then
      if a < 2 then { s with therm := { s.therm with trans := some (a, 2) } } else s.dvCancel
    else s
  | none => s

/-- With none running, one starts where the demand differs from the point in force. -/
def dvStart (s : State) (want : Nat) : State :=
  match s.therm.trans with
  | some _ => s
  | none =>
    if s.dvPoint < want then s.dvBegin want
    else if want < s.dvPoint ∧ !s.therm.retry then s.dvBegin want
    else s

theorem dvUpdate_eq (s : State) : s.dvUpdate = s.dvAdjust.dvStart s.dvWanted := by
  unfold dvUpdate dvAdjust dvStart
  rfl

theorem dvAdjust_kept (s : State) : SeqKept s s.dvAdjust := by
  unfold dvAdjust
  split
  · split
    · exact dvCancel_kept s
    · split
      · exact .note s _
      · split
        · split
          · exact .note s _
          · exact dvCancel_kept s
        · exact .refl s
  · exact .refl s

theorem dvStart_kept (s : State) (want : Nat) : SeqKept s (s.dvStart want) := by
  unfold dvStart
  split
  · exact .refl s
  · split
    · exact dvBegin_kept ..
    · split
      · exact dvBegin_kept ..
      · exact .refl s

theorem dvUpdate_kept (s : State) : SeqKept s s.dvUpdate := by
  rw [dvUpdate_eq]
  exact (dvAdjust_kept s).trans (dvStart_kept ..)

/-- With no transition running the sequencer starts the one that its demands ask for. -/
theorem dvUpdate_idle (h : s.therm.trans = none) (hd : s.dvPoint < s.dvWanted ∨
    s.dvWanted < s.dvPoint ∧ s.therm.retry = false) : s.dvUpdate = s.dvBegin s.dvWanted := by
  have ha : s.dvAdjust = s := by simp only [dvAdjust, h]
  rw [dvUpdate_eq, ha]
  simp only [dvStart, h]
  rcases hd with hlt | ⟨hgt, hr⟩
  · exact if_pos hlt
  · rw [if_neg (by omega)]
    exact if_pos ⟨hgt, by simp [hr]⟩

/-- What a transition that starts shows. -/
theorem dvBegin_spec (s : State) (n : Nat) : (s.dvBegin n).therm.trans = some (s.dvPoint, n) ∧
    (s.dvBegin n).on R.PWR_DVFS_STAT F.PWR_DVFS_STAT_BUSY = true ∧
    (s.dvBegin n).fld R.PWR_DVFS_STAT F.PWR_DVFS_STAT_VSEL
      = if n < s.dvPoint then n else s.fld R.PWR_DVFS_STAT F.PWR_DVFS_STAT_VSEL := by
  have hp : ({ s with therm := { s.therm with trans := some (s.dvPoint, n) } }.flag R.PWR_DVFS_STAT
      F.PWR_DVFS_STAT_BUSY true).dvPoint = s.dvPoint := ((SeqKept.note s _).trans (.busy _ _)).point
  have hn := s.dvPoint_lt
  unfold dvBegin
  dsimp only
  rw [hp]
  split
  · refine ⟨rfl, (on_put_other _ _ _ _ _ _ (.inr (by decide))).trans (on_flag_same _ _ _ _ (by decide) rfl), ?_⟩
    rw [setVsel, fld_put_same _ _ _ _ (by decide)]
    exact Nat.mod_eq_of_lt (show n < 4 by omega)
  · exact ⟨rfl, on_flag_same _ _ _ _ (by decide) rfl, fld_flag_other _ _ _ _ _ _ (.inr (by decide))⟩

/-- What a transition that is dropped shows. -/
theorem dvCancel_spec (s : State) : s.dvCancel.therm.trans = none ∧
    s.dvCancel.on R.PWR_DVFS_STAT F.PWR_DVFS_STAT_BUSY = false ∧
    s.dvCancel.fld R.PWR_DVFS_STAT F.PWR_DVFS_STAT_VSEL = s.dvPoint := by
  refine ⟨rfl, (on_put_other _ _ _ _ _ _ (.inr (by decide))).trans (on_flag_same _ _ _ _ (by decide) rfl), ?_⟩
  rw [dvCancel, setVsel, fld_put_same _ _ _ _ (by decide)]
  exact Nat.mod_eq_of_lt s.dvPoint_lt

/-! ### The write of DVFS_CTL -/

/-- With P3 allowed, the write stores its fields and the sequencer follows them. -/
theorem dvfsCtl_write (v : Word) (ho : Open s path R.PWR_DVFS_CTL) (hp : F.PWR_DVFS_CTL_P3_ALLOW.get v = 1) :
    ∃ new, F.PWR_DVFS_CTL_TARGET.get new = F.PWR_DVFS_CTL_TARGET.get v ∧ F.PWR_DVFS_CTL_P3_ALLOW.get new = 1 ∧
      s.regCmd path R.PWR_DVFS_CTL v = (s.wr R.PWR_DVFS_CTL new).dvUpdate := by
  have hoff : offOf R.PWR_DVFS_CTL = 0x44 := by decide
  have hcur : s.cur R.PWR_DVFS_CTL = s.rd R.PWR_DVFS_CTL := rfl
  refine ⟨_, Fld.get_merge (s.rd R.PWR_DVFS_CTL) v (m := 0xFFFF07#32) (by decide),
    (Fld.get_merge _ _ (by decide)).trans hp, ?_⟩
  rw [regCmd_plain (m := 0xFFFF07#32) (c := 0) v ho (by decide) rfl rfl, regEffect_pwr (by decide) (by decide),
    afterWrite_self (by decide), hoff, hcur]
  have hallow : (s.wr R.PWR_DVFS_CTL ((s.rd R.PWR_DVFS_CTL &&& ~~~0xFFFF07#32) ||| (v &&& 0xFFFF07#32))).p3Allow = true := by
    rw [p3Allow, on_eq_true, fld_wr_same, Fld.get_merge _ _ (by decide), hp]
    decide
  simp only [wrPwr, if_true, ceilingAllow, hallow, Bool.true_or]

/-- What the sequencer must reach once DVFS_CTL holds a word that allows P3. -/
theorem dvWanted_stored {new : Word} (hp : F.PWR_DVFS_CTL_P3_ALLOW.get new = 1) :
    (s.wr R.PWR_DVFS_CTL new).dvWanted = max (F.PWR_DVFS_CTL_TARGET.get new) s.dvCeiling := by
  have hallow : (s.wr R.PWR_DVFS_CTL new).p3Allow = true := by
    rw [p3Allow, on_eq_true, fld_wr_same, hp]
    decide
  have hc : (s.wr R.PWR_DVFS_CTL new).dvCeiling = s.dvCeiling := fld_wr_other _ _ _ _ _ (by decide)
  simp only [dvWanted, hallow, if_true, fld_wr_same, hc]

/-! ### The switch, the failure and the drop of the voltage -/

/-- The point in force after the switch of a running transition, and its counts. -/
def switched (s : State) (dest : Nat) : State :=
  ((({ s with therm := { s.therm with trans := none } }.put R.PWR_DVFS_STAT F.PWR_DVFS_STAT_POINT dest).flag
    R.PWR_DVFS_STAT F.PWR_DVFS_STAT_BUSY false).setVsel dest).inc R.PWR_TRANSITIONS

theorem clockSwitch_eq {a b : Nat} (h : s.therm.trans = some (a, b)) :
    s.clockSwitch = (s.switched (if b = 3 ∧ !s.p3Allow then max a 2 else b)).dvUpdate := by
  simp only [clockSwitch, h, switched]

theorem switched_spec {dest : Nat} (hd : dest < 4) : (s.switched dest).dvPoint = dest ∧
    (s.switched dest).rd R.PWR_TRANSITIONS = s.rd R.PWR_TRANSITIONS + 1 ∧ MemKept s (s.switched dest) ∧
    RegsKept s (s.switched dest) [] [R.PWR_DVFS_STAT, R.PWR_TRANSITIONS] := by
  generalize hu : { s with therm := { s.therm with trans := none } } = u
  have hrd (b : Nat) : u.rd b = s.rd b := hu ▸ rfl
  have hmem : MemKept s u := hu ▸ ⟨rfl, rfl, rfl, rfl, rfl, rfl⟩
  have hregs : RegsKept s u [] [R.PWR_DVFS_STAT, R.PWR_TRANSITIONS] := fun b _ _ => hrd b
  have hsw : s.switched dest = (((u.put R.PWR_DVFS_STAT F.PWR_DVFS_STAT_POINT dest).flag R.PWR_DVFS_STAT
      F.PWR_DVFS_STAT_BUSY false).setVsel dest).inc R.PWR_TRANSITIONS := hu ▸ rfl
  rw [hsw]
  refine ⟨?_, ?_, ?_, ?_⟩
  · have h1 : ((((u.put R.PWR_DVFS_STAT F.PWR_DVFS_STAT_POINT dest).flag R.PWR_DVFS_STAT F.PWR_DVFS_STAT_BUSY
        false).setVsel dest).inc R.PWR_TRANSITIONS).dvPoint = (((u.put R.PWR_DVFS_STAT F.PWR_DVFS_STAT_POINT dest).flag
        R.PWR_DVFS_STAT F.PWR_DVFS_STAT_BUSY false).setVsel dest).dvPoint :=
      fld_eq_of_rd (by rw [rd_inc, if_neg (by decide)]) _
    rw [h1, (SeqKept.vsel _ _).point, (SeqKept.busy _ _).point, dvPoint, fld_put_same _ _ _ _ (by decide)]
    exact Nat.mod_eq_of_lt hd
  · simp only [rd_inc, if_true, setVsel, rd_put, rd_flag]
    rw [if_neg (by decide), if_neg (by decide), if_neg (by decide), hrd]
    rfl
  · exact hmem.trans ((((put_memKept ..).trans (flag_memKept ..)).trans (put_memKept ..)).trans (inc_memKept ..))
  · exact (((hregs.put _ _ (by simp)).flag _ _ (by simp)).put _ _ (by simp)).inc _ (by simp)

/-- VDD_FAULT is set, and its rise counted. -/
theorem vddFault_spec (s : State) : s.vddFault.therm = s.therm ∧ s.vddFault.dvPoint = s.dvPoint ∧
    (∀ f : Fld, f.lsb + f.width ≤ 7 → s.vddFault.fld R.PWR_DVFS_STAT f = s.fld R.PWR_DVFS_STAT f) ∧
    s.vddFault.on R.PWR_DVFS_STAT F.PWR_DVFS_STAT_VDD_FAULT = true ∧
    s.vddFault.rd R.PWR_VDD_FAULTS = s.rd R.PWR_VDD_FAULTS +
      (if s.on R.PWR_DVFS_STAT F.PWR_DVFS_STAT_VDD_FAULT = true then 0 else 1) ∧
    MemKept s s.vddFault ∧ RegsKept s s.vddFault [] [R.PWR_DVFS_STAT, R.PWR_VDD_FAULTS] := by
  generalize hu : (if s.on R.PWR_DVFS_STAT F.PWR_DVFS_STAT_VDD_FAULT then s else s.inc R.PWR_VDD_FAULTS) = u
  have hfault : s.vddFault = u.flag R.PWR_DVFS_STAT F.PWR_DVFS_STAT_VDD_FAULT true := hu ▸ rfl
  have hstat : u.rd R.PWR_DVFS_STAT = s.rd R.PWR_DVFS_STAT := by
    rw [← hu]
    split
    · rfl
    · rw [rd_inc, if_neg (by decide)]
  have htherm : u.therm = s.therm := by
    rw [← hu]
    split
    · rfl
    · exact inc_therm ..
  have hcount : u.rd R.PWR_VDD_FAULTS = s.rd R.PWR_VDD_FAULTS +
      (if s.on R.PWR_DVFS_STAT F.PWR_DVFS_STAT_VDD_FAULT = true then 0 else 1) := by
    rw [← hu]
    split
    · exact (BitVec.add_zero _).symm
    · rw [rd_inc, if_pos rfl]
      rfl
  have hmem : MemKept s u := by
    rw [← hu]
    split
    · exact .refl s
    · exact inc_memKept ..
  have hregs : RegsKept s u [] [R.PWR_DVFS_STAT, R.PWR_VDD_FAULTS] := by
    rw [← hu]
    split
    · exact .refl s
    · exact (RegsKept.refl s).inc _ (by simp)
  have hlow (f : Fld) (hf : f.lsb + f.width ≤ 7) : (u.flag R.PWR_DVFS_STAT F.PWR_DVFS_STAT_VDD_FAULT true).fld
      R.PWR_DVFS_STAT f = s.fld R.PWR_DVFS_STAT f :=
    (fld_flag_other _ _ _ _ _ _ (.inr (.inl hf))).trans (fld_eq_of_rd hstat f)
  rw [hfault]
  exact ⟨htherm, hlow _ (by decide), hlow, on_flag_same _ _ _ _ (by decide) rfl,
    by rw [rd_flag, if_neg (by decide), hcount], hmem.trans (flag_memKept ..), hregs.flag _ _ (by simp)⟩

/-- A downward transition under a voltage that drops goes on or ends; the point in force stays. -/
theorem dvForced_spec (s : State) : s.dvForced.dvPoint = s.dvPoint ∧
    s.dvForced.on R.PWR_DVFS_STAT F.PWR_DVFS_STAT_VDD_FAULT = s.on R.PWR_DVFS_STAT F.PWR_DVFS_STAT_VDD_FAULT ∧
    MemKept s s.dvForced ∧ RegsKept s s.dvForced [] [R.PWR_DVFS_STAT, R.PWR_TRANSITIONS] := by
  unfold dvForced
  split
  · exact ⟨rfl, rfl, .refl s, .refl s⟩
  · rename_i b _
    split
    · have h := SeqKept.note s (some (s.dvPoint, b))
      exact ⟨h.point, h.fault, h.mem, h.regs.mono (by simp) (by simp)⟩
    · have h := dvCancel_kept s
      have hstat : (s.dvCancel.inc R.PWR_TRANSITIONS).rd R.PWR_DVFS_STAT = s.dvCancel.rd R.PWR_DVFS_STAT := by
        rw [rd_inc, if_neg (by decide)]
      exact ⟨(fld_eq_of_rd hstat _).trans h.point, (on_eq_of_rd hstat _).trans h.fault, h.mem.trans (inc_memKept ..),
        (h.regs.mono (by simp) (by simp)).inc _ (by simp)⟩

/-- An upward transition that a drop of the voltage ends. -/
def dropUpward (s : State) : State :=
  match s.therm.trans with | some (a, b) => if b < a then s.dvCancel else s | none => s

theorem dropUpward_kept (s : State) : SeqKept s s.dropUpward := by
  unfold dropUpward
  split
  · split
    · exact dvCancel_kept s
    · exact .refl s
  · exact .refl s

/-- A failed upward transition waits before it is tried again. -/
def waitRetry (s : State) : State := { s with therm := { s.therm with retry := true } }

theorem undervolt_eq (h : s.dvPoint < 2) : s.undervolt =
    (s.dropUpward.put R.PWR_DVFS_STAT F.PWR_DVFS_STAT_POINT (s.dvPoint + 1)).dvForced.waitRetry.vddFault := by
  have hdest : max s.dropUpward.dvPoint (min (s.dropUpward.dvPoint + 1) (if s.dropUpward.p3Allow then 3 else 2))
      = s.dvPoint + 1 := by
    rw [(dropUpward_kept s).point]
    split <;> omega
  have heq : s.undervolt = (s.dropUpward.put R.PWR_DVFS_STAT F.PWR_DVFS_STAT_POINT
      (max s.dropUpward.dvPoint (min (s.dropUpward.dvPoint + 1)
        (if s.dropUpward.p3Allow then 3 else 2)))).dvForced.waitRetry.vddFault := rfl
  rw [heq, hdest]

theorem vsettleTimeout_eq {a b : Nat} (h : s.therm.trans = some (a, b)) (hb : b < a) :
    s.vsettleTimeout = s.dvCancel.waitRetry.vddFault := by
  simp only [vsettleTimeout, h]
  exact if_pos hb

end State
end Sys2Proof.Machine

namespace Sys2Proof.Safety
open Sys2Proof.Machine Sys2Proof.Machine.State

/-- A switch of the clocks to a point: it is in force, counted, and the sequencer goes on from there. -/
theorem gives_clockSwitch {s : State} {a b dest : Nat} (h : s.therm.trans = some (a, b)) (hd : dest < 4)
    (he : (if b = 3 ∧ !s.p3Allow then max a 2 else b) = dest) : Gives .dvfsClockSwitch s fun t =>
      t.dvPoint = dest ∧ t.rd R.PWR_TRANSITIONS = s.rd R.PWR_TRANSITIONS + 1 ∧ MemKept s t ∧
        RegsKept s t [] [R.PWR_DVFS_STAT, R.PWR_TRANSITIONS] := by
  obtain ⟨hpoint, hcount, hmem, hregs⟩ := switched_spec (s := s) hd
  have heq := clockSwitch_eq h
  rw [he] at heq
  have hk := dvUpdate_kept (s.switched dest)
  exact gives_of_eq rfl heq ⟨hk.point.trans hpoint, (hk.regs _ (by simp) (by decide)).trans hcount, hmem.trans hk.mem,
    hregs.trans (hk.regs.mono (by simp) (by simp))⟩

/-- Settles O42: the sequencer's moves keep the point in force but for its switch and a drop of the voltage. -/
theorem dvfsSequencer : Obligations.DvfsSequencer := by
  unfold Obligations.DvfsSequencer
  refine ⟨fun s w n ho hc hi hp hn hlt => ?_, fun s w n ho hc hi hr hp hn hlt => ?_, fun s hw hc => ?_,
    fun s a b ht hb hp => gives_clockSwitch ht hb (if_neg ?_), fun s a ht ha hp => gives_clockSwitch ht (by decide) ?_,
    fun s ht => ?_, fun s a b ht hb => ?_, fun s h2 => ?_, fun s => ?_⟩
  · obtain ⟨new, htarget, hallow, heq⟩ := dvfsCtl_write w.value ho hp
    have hwant : (s.wr R.PWR_DVFS_CTL new).dvWanted = n := by rw [dvWanted_stored hallow, htarget, hn]
    have hpoint : (s.wr R.PWR_DVFS_CTL new).dvPoint = s.dvPoint := fld_wr_other _ _ _ _ _ (by decide)
    have hgo := dvUpdate_idle (s := s.wr R.PWR_DVFS_CTL new) hi (.inl (by rw [hwant, hpoint]; exact hlt))
    rw [hwant] at hgo
    have hk := dvBegin_kept (s.wr R.PWR_DVFS_CTL new) n
    obtain ⟨htrans, hbusy, hvsel⟩ := dvBegin_spec (s.wr R.PWR_DVFS_CTL new) n
    rw [hpoint] at htrans hvsel
    rw [if_neg (by omega)] at hvsel
    exact gives_of_eq rfl (heq.trans hgo) ⟨htrans, hbusy, hk.point.trans hpoint,
      hvsel.trans (fld_wr_other _ _ _ _ _ (by decide)), (wr_memKept ..).trans hk.mem,
      ((RegsKept.refl s).wr new (by simp)).trans (hk.regs.mono (by simp) (by simp))⟩
  · obtain ⟨new, htarget, hallow, heq⟩ := dvfsCtl_write w.value ho hp
    have hwant : (s.wr R.PWR_DVFS_CTL new).dvWanted = n := by rw [dvWanted_stored hallow, htarget, hn]
    have hpoint : (s.wr R.PWR_DVFS_CTL new).dvPoint = s.dvPoint := fld_wr_other _ _ _ _ _ (by decide)
    have hgo := dvUpdate_idle (s := s.wr R.PWR_DVFS_CTL new) hi (.inr ⟨by rw [hwant, hpoint]; exact hlt, hr⟩)
    rw [hwant] at hgo
    have hk := dvBegin_kept (s.wr R.PWR_DVFS_CTL new) n
    obtain ⟨htrans, -, hvsel⟩ := dvBegin_spec (s.wr R.PWR_DVFS_CTL new) n
    rw [hpoint] at htrans hvsel
    rw [if_pos hlt] at hvsel
    exact gives_of_eq rfl (heq.trans hgo) ⟨htrans, hk.point.trans hpoint, hvsel, (wr_memKept ..).trans hk.mem,
      ((RegsKept.refl s).wr new (by simp)).trans (hk.regs.mono (by simp) (by simp))⟩
  · have hlt : s.ceilingFor (s.effFraction 0) < 2 ^ 2 := hc.trans (Fld.get_lt _ _)
    have hup : (s.therm.upWait && decide (s.ceilingFor (s.effFraction 0) < s.dvCeiling)) = true := by simp [hw, hc]
    have heq : s.upHold = ({ s.put R.PWR_DVFS_STAT F.PWR_DVFS_STAT_CEILING (s.ceilingFor (s.effFraction 0)) with
        therm := { s.therm with upWait := false, retry := false } }).dvUpdate := by
      simp only [upHold, hup, if_true, put_therm]
    generalize s.ceilingFor (s.effFraction 0) = c at heq hlt
    generalize hu : ({ s.put R.PWR_DVFS_STAT F.PWR_DVFS_STAT_CEILING c with
        therm := { s.therm with upWait := false, retry := false } } : State) = u at heq
    have hrd (b : Nat) : u.rd b = (s.put R.PWR_DVFS_STAT F.PWR_DVFS_STAT_CEILING c).rd b := hu ▸ rfl
    have hceil : u.dvCeiling = c := by
      rw [dvCeiling, fld_eq_of_rd (hrd _), fld_put_same _ _ _ _ (by decide)]
      exact Nat.mod_eq_of_lt hlt
    have hpoint : u.dvPoint = s.dvPoint :=
      (fld_eq_of_rd (hrd _) _).trans (fld_put_other _ _ _ _ _ _ (.inr (by decide)))
    have hwait : u.therm.upWait = false := hu ▸ rfl
    have hmem : MemKept s u := hu ▸ ⟨rfl, rfl, rfl, rfl, rfl, rfl⟩
    have hregs : RegsKept s u [] [R.PWR_DVFS_STAT] :=
      fun b h1 h2 => (hrd b).trans ((RegsKept.refl s).put _ _ (by simp) b h1 h2)
    have hk := dvUpdate_kept u
    exact gives_of_eq rfl heq ⟨hk.ceiling.trans hceil, hk.point.trans hpoint, hk.upWait.trans hwait, hmem.trans hk.mem,
      hregs.trans hk.regs⟩
  · rintro ⟨rfl, hx⟩
    rcases hp with hp | hp
    · omega
    · simp [hp] at hx
  · rw [if_pos ⟨rfl, by simp [hp]⟩]
    omega
  · have : s.clockSwitch = s := by simp only [clockSwitch, ht]
    exact congrArg Host.Outcome.next this
  · have hk := dvCancel_kept s
    obtain ⟨hnone, hbusy, hvsel⟩ := dvCancel_spec s
    obtain ⟨htherm, hpoint, hlow, hfault, -, hmem, hregs⟩ := vddFault_spec s.dvCancel.waitRetry
    refine gives_of_eq rfl (vsettleTimeout_eq ht hb) ⟨?_, ?_, hpoint.trans hk.point, (hlow _ (by decide)).trans hvsel, ?_,
      hfault, ?_, ?_⟩
    · rw [htherm]
      exact hnone
    · rw [htherm]
      rfl
    · rw [on_eq_false, hlow _ (by decide)]
      exact on_eq_false.mp hbusy
    · exact (hk.mem.trans (⟨rfl, rfl, rfl, rfl, rfl, rfl⟩ : MemKept s.dvCancel s.dvCancel.waitRetry)).trans hmem
    · exact ((hk.regs.mono (by simp) (by simp)).of_regs (u := s.dvCancel.waitRetry) rfl).trans hregs
  · have hdrop := dropUpward_kept s
    have hput : (s.dropUpward.put R.PWR_DVFS_STAT F.PWR_DVFS_STAT_POINT (s.dvPoint + 1)).dvPoint = s.dvPoint + 1 := by
      rw [dvPoint, fld_put_same _ _ _ _ (by decide)]
      exact Nat.mod_eq_of_lt (show s.dvPoint + 1 < 4 by omega)
    have hputf := on_put_other s.dropUpward R.PWR_DVFS_STAT R.PWR_DVFS_STAT F.PWR_DVFS_STAT_POINT
      F.PWR_DVFS_STAT_VDD_FAULT (s.dvPoint + 1) (.inr (by decide))
    have hputm := put_memKept s.dropUpward R.PWR_DVFS_STAT F.PWR_DVFS_STAT_POINT (s.dvPoint + 1)
    have hputc : (s.dropUpward.put R.PWR_DVFS_STAT F.PWR_DVFS_STAT_POINT (s.dvPoint + 1)).rd R.PWR_VDD_FAULTS
        = s.rd R.PWR_VDD_FAULTS := by
      rw [rd_put, if_neg (by decide), hdrop.regs _ (by simp) (by decide)]
    have hputr : RegsKept s (s.dropUpward.put R.PWR_DVFS_STAT F.PWR_DVFS_STAT_POINT (s.dvPoint + 1)) []
        [R.PWR_DVFS_STAT, R.PWR_VDD_FAULTS, R.PWR_TRANSITIONS] := (hdrop.regs.mono (by simp) (by simp)).put _ _ (by simp)
    have heq := undervolt_eq h2
    generalize s.dropUpward.put R.PWR_DVFS_STAT F.PWR_DVFS_STAT_POINT (s.dvPoint + 1) = u at *
    obtain ⟨hfp, hff, hfm, hfr⟩ := dvForced_spec u
    obtain ⟨htherm, hpoint, -, hfault, hcount, hmem, hregs⟩ := vddFault_spec u.dvForced.waitRetry
    have hwas : u.dvForced.waitRetry.on R.PWR_DVFS_STAT F.PWR_DVFS_STAT_VDD_FAULT
        = s.on R.PWR_DVFS_STAT F.PWR_DVFS_STAT_VDD_FAULT := hff.trans (hputf.trans hdrop.fault)
    have hrd : u.dvForced.waitRetry.rd R.PWR_VDD_FAULTS = s.rd R.PWR_VDD_FAULTS :=
      (hfr R.PWR_VDD_FAULTS (by simp) (by decide)).trans hputc
    rw [hwas, hrd] at hcount
    refine gives_of_eq rfl heq ⟨hpoint.trans (hfp.trans hput), hfault, by rw [htherm]; rfl, hcount, ?_, ?_⟩
    · exact (((hdrop.mem.trans hputm).trans hfm).trans
        (⟨rfl, rfl, rfl, rfl, rfl, rfl⟩ : MemKept u.dvForced u.dvForced.waitRetry)).trans hmem
    · exact ((hputr.trans (hfr.mono (by simp) (by simp))).of_regs (u := u.dvForced.waitRetry) rfl).trans
        (hregs.mono (by simp) (by simp))
  · exact ⟨_, rfl, on_flag_same _ _ _ _ (by decide) rfl, fld_flag_other _ _ _ _ _ _ (.inr (by decide)), rfl,
      flag_memKept .., (RegsKept.refl s).flag _ _ (by simp)⟩

end Sys2Proof.Safety
end

section
/-! SUPPORT. Saves of the wear record (R336): what a save and the hour's mark change. -/

namespace Sys2Proof.Machine
open Sys2Proof.Safety State

namespace State

variable {s : State} {path : Path}

/-- The stored bytes that a save of the wear record leaves alone: all but those of the flash. -/
def StoresKept (s t : State) : Prop :=
  t.dram = s.dram ∧ t.cache = s.cache ∧ t.wdb = s.wdb ∧ t.place = s.place ∧ t.otp = s.otp

theorem StoresKept.trans {s t u : State} (h : StoresKept s t) (k : StoresKept t u) : StoresKept s u := by
  obtain ⟨a1, a2, a3, a4, a5⟩ := h
  obtain ⟨b1, b2, b3, b4, b5⟩ := k
  exact ⟨b1.trans a1, b2.trans a2, b3.trans a3, b4.trans a4, b5.trans a5⟩

theorem StoresKept.inc (s : State) (a n : Nat) : StoresKept s (s.inc a n) := by simp [StoresKept]

/-! ### The copies of the record -/

theorem flashErase_kept (s : State) (a n : Nat) : StoresKept s (s.flashErase a n) ∧ (s.flashErase a n).therm = s.therm ∧
    ∀ b, b ≠ R.SPI_ERASES → (s.flashErase a n).rd b = s.rd b := by
  unfold flashErase
  generalize hu : ({ s with mgmt := _ } : State) = u
  have hk : StoresKept s u := hu ▸ ⟨rfl, rfl, rfl, rfl, rfl⟩
  have ht : u.therm = s.therm := hu ▸ rfl
  have hr (b : Nat) : u.rd b = s.rd b := hu ▸ rfl
  exact ⟨hk.trans (.inc ..), (inc_therm ..).trans ht, fun b hb => by rw [rd_inc, if_neg hb, hr]⟩

theorem flashProgram_kept (s : State) (a : Nat) (l : List Nat) : StoresKept s (s.flashProgram a l) ∧
    (s.flashProgram a l).therm = s.therm ∧ ∀ b, b ≠ R.SPI_PROGRAMS → (s.flashProgram a l).rd b = s.rd b := by
  unfold flashProgram
  generalize hu : ({ s with mgmt := _ } : State) = u
  have hk : StoresKept s u := hu ▸ ⟨rfl, rfl, rfl, rfl, rfl⟩
  have ht : u.therm = s.therm := hu ▸ rfl
  have hr (b : Nat) : u.rd b = s.rd b := hu ▸ rfl
  exact ⟨hk.trans (.inc ..), (inc_therm ..).trans ht, fun b hb => by rw [rd_inc, if_neg hb, hr]⟩

theorem flashWear_kept (s : State) (seq : Nat) (r : List Nat) (failed : Bool) : StoresKept s (s.flashWear seq r failed) ∧
    (s.flashWear seq r failed).therm = s.therm ∧
    ∀ b, b ≠ R.SPI_ERASES → b ≠ R.SPI_PROGRAMS → (s.flashWear seq r failed).rd b = s.rd b := by
  obtain ⟨hk, ht, hr⟩ := flashErase_kept s (wearCopy (seq % 2)) 4096
  unfold flashWear
  dsimp only
  split
  · exact ⟨hk, ht, fun b hb _ => hr b hb⟩
  · obtain ⟨hk', ht', hr'⟩ := flashProgram_kept (s.flashErase (wearCopy (seq % 2)) 4096) (wearCopy (seq % 2)) r
    exact ⟨hk.trans hk', ht'.trans ht, fun b hb hb' => (hr' b hb').trans (hr b hb)⟩

/-- A copy of the record fails: that of the flash, or that of a mirror which cannot be written. -/
def saveBad (s : State) (failed : Bool) : Bool := failed || decide (s.keelMirrors ≠ [false, true])

theorem keelMirrors_length (s : State) : decide (s.keelMirrors.length ≠ 2) = decide (s.keelMirrors ≠ [false, true]) := by
  rw [decide_eq_decide]
  unfold keelMirrors
  split
  · cases ha : s.mirrorOk false <;> cases hb : s.mirrorOk true <;> simp [ha, hb]
  · simp

/-- The record is written and its number taken, before the save is counted. -/
def wearSaved (s : State) (failed : Bool) : State :=
  let u := (s.flashWear (s.therm.savedSeq + 1) (s.wearRecord (s.therm.savedSeq + 1)) failed).keelWear
    (s.therm.savedSeq + 1) (s.wearRecord (s.therm.savedSeq + 1))
  { u with therm := { u.therm with savedSeq := s.therm.savedSeq + 1, saveFailed := s.saveBad failed } }

theorem wearSave_eq (s : State) (failed : Bool) : s.wearSave failed =
    if s.saveBad failed then (s.wearSaved failed).inc R.STACK_SAVE_FAILS else (s.wearSaved failed).inc R.STACK_SAVES := by
  unfold wearSave wearSaved saveBad
  dsimp only
  rw [keelMirrors_length]

theorem wearSaved_spec (s : State) (failed : Bool) :
    (s.wearSaved failed).therm.savedSeq = s.therm.savedSeq + 1 ∧
    (s.wearSaved failed).therm.saveFailed = s.saveBad failed ∧ (s.wearSaved failed).therm.hours = s.therm.hours ∧
    (s.wearSaved failed).therm.age = s.therm.age ∧ (s.wearSaved failed).therm.wear = s.therm.wear ∧
    (∀ b, b ≠ R.SPI_ERASES → b ≠ R.SPI_PROGRAMS → (s.wearSaved failed).rd b = s.rd b) ∧
    StoresKept s (s.wearSaved failed) := by
  obtain ⟨hk, ht, hr⟩ := flashWear_kept s (s.therm.savedSeq + 1) (s.wearRecord (s.therm.savedSeq + 1)) failed
  unfold wearSaved
  generalize s.flashWear (s.therm.savedSeq + 1) (s.wearRecord (s.therm.savedSeq + 1)) failed = v at hk ht hr ⊢
  exact ⟨rfl, rfl, congrArg (·.hours) ht, congrArg (·.age) ht, congrArg (·.wear) ht, hr,
    hk.trans ⟨rfl, rfl, rfl, rfl, rfl⟩⟩

/-- What a save leaves, beside its counters and the flash. -/
theorem wearSave_spec (s : State) (failed : Bool) :
    (s.wearSave failed).therm.savedSeq = s.therm.savedSeq + 1 ∧ (s.wearSave failed).therm.saveFailed = s.saveBad failed ∧
    (s.wearSave failed).therm.hours = s.therm.hours ∧ (s.wearSave failed).therm.age = s.therm.age ∧
    (s.wearSave failed).therm.wear = s.therm.wear ∧
    (s.wearSave failed).rd R.STACK_SAVES = s.rd R.STACK_SAVES + (if s.saveBad failed = true then 0 else 1) ∧
    (s.wearSave failed).rd R.STACK_SAVE_FAILS = s.rd R.STACK_SAVE_FAILS + (if s.saveBad failed = true then 1 else 0) ∧
    StoresKept s (s.wearSave failed) := by
  obtain ⟨hseq, hbad, hhours, hage, hwear, hrd, hk⟩ := wearSaved_spec s failed
  have h1 := hrd R.STACK_SAVES (by decide) (by decide)
  have h2 := hrd R.STACK_SAVE_FAILS (by decide) (by decide)
  rw [wearSave_eq]
  generalize s.wearSaved failed = u at *
  split
  · exact ⟨(congrArg _ (inc_therm ..)).trans hseq, (congrArg _ (inc_therm ..)).trans hbad,
      (congrArg _ (inc_therm ..)).trans hhours, (congrArg _ (inc_therm ..)).trans hage,
      (congrArg _ (inc_therm ..)).trans hwear, by rw [rd_inc, if_neg (by decide), h1]; exact (BitVec.add_zero _).symm,
      by rw [rd_inc, if_pos rfl, h2]; rfl, hk.trans (.inc ..)⟩
  · exact ⟨(congrArg _ (inc_therm ..)).trans hseq, (congrArg _ (inc_therm ..)).trans hbad,
      (congrArg _ (inc_therm ..)).trans hhours, (congrArg _ (inc_therm ..)).trans hage,
      (congrArg _ (inc_therm ..)).trans hwear, by rw [rd_inc, if_pos rfl, h1]; rfl,
      by rw [rd_inc, if_neg (by decide), h2]; exact (BitVec.add_zero _).symm, hk.trans (.inc ..)⟩

/-! ### The hour's mark -/

/-- The damage of each interface enters its history. -/
theorem histories_kept (l : List Nat) (s : State) : ∃ w, l.foldl (fun (t : State) i =>
    t.setWear i { t.wear i with hist := ((t.wear i).damage :: (t.wear i).hist).take 169 }) s
      = { s with therm := { s.therm with wear := w } } := by
  induction l generalizing s with
  | nil => exact ⟨_, rfl⟩
  | cons i l ih =>
    obtain ⟨w, hw⟩ := ih (s.setWear i { s.wear i with hist := ((s.wear i).damage :: (s.wear i).hist).take 169 })
    exact ⟨w, hw⟩

/-- The hour is counted, and only the thermal state and LIFE can differ otherwise. -/
theorem hourMark_spec (s : State) : s.hourMark.therm.hours = s.therm.hours + 1 ∧
    s.hourMark.therm.savedSeq = s.therm.savedSeq ∧ MemKept s s.hourMark ∧ RegsKept s s.hourMark [] [R.STACK_LIFE] ∧
    s.hourMark.clk = s.clk := by
  unfold hourMark
  dsimp only
  obtain ⟨w, hw⟩ := histories_kept interfaces { s with therm := { s.therm with hours := s.therm.hours + 1 } }
  rw [hw]
  unfold showLife
  exact ⟨rfl, rfl, ⟨rfl, rfl, rfl, rfl, rfl, rfl⟩, ((RegsKept.refl s).of_regs rfl).wr _ (by simp), rfl⟩

/-- The mirrors that can be written rest on registers, the placement and the clocks. -/
theorem keelMirrors_of {s t : State} (hp : t.place = s.place) (hc : t.clk = s.clk)
    (hk : t.rd R.PLACE_KEEL_STAT = s.rd R.PLACE_KEEL_STAT) (hd : t.drogue = s.drogue) (ht : t.tripped = s.tripped) :
    t.keelMirrors = s.keelMirrors := by
  have hm (b : Bool) : t.mirrorOk b = s.mirrorOk b := on_eq_of_rd hk _
  have hr : t.running = s.running := by
    unfold running inReset
    rw [hc, hd, ht]
  simp only [keelMirrors, hp, hr, List.filter_cons, List.filter_nil, hm]

theorem storedWearCtl_keelMirrors (w : Word) : (s.wr R.STACK_WEAR_CTL w).keelMirrors = s.keelMirrors :=
  keelMirrors_of rfl rfl (rd_wr_other _ _ _ _ (by decide)) (on_eq_of_rd (rd_wr_other _ _ _ _ (by decide)) _)
    (on_eq_of_rd (rd_wr_other _ _ _ _ (by decide)) _)

/-! ### SAVE_NOW -/

/-- What a write of WEAR_CTL stores, and whether it saves. -/
def wearCtlWord (old v : Word) : Word := (old &&& ~~~25108239#32) ||| (v &&& 25108239#32)

theorem wearCtl_write (v : Word) (ho : Open s path R.STACK_WEAR_CTL) : s.regCmd path R.STACK_WEAR_CTL v
    = (s.wr R.STACK_WEAR_CTL (wearCtlWord (s.rd R.STACK_WEAR_CTL) v)).saveNow
        (wearCtlWord (s.rd R.STACK_WEAR_CTL) v ||| (v &&& 8388608#32)) false := by
  have hoff : offOf R.STACK_WEAR_CTL = 0x40 := by decide
  have hcur : s.cur R.STACK_WEAR_CTL = s.rd R.STACK_WEAR_CTL := rfl
  rw [regCmd_plain (m := 25108239#32) (c := 8388608#32) v ho (by decide) rfl rfl, regEffect_stack (by decide) (by decide),
    afterWrite_self (by decide), hoff, hcur]
  simp only [wrStack, if_true, wearCtlWord]

/-- The action bit of the written word, or the stored one. -/
theorem wearCtl_saveNow (old v : Word) : F.STACK_WEAR_CTL_SAVE_NOW.get (wearCtlWord old v ||| (v &&& 8388608#32)) = 1 ↔
    F.STACK_WEAR_CTL_SAVE_NOW.get v = 1 ∨ F.STACK_WEAR_CTL_SAVE_NOW.get old = 1 := by
  have bit (w : Word) : F.STACK_WEAR_CTL_SAVE_NOW.get w = (w.getLsbD 23).toNat := Fld.get_bit _ rfl w
  have hm : (25108239#32).getLsbD 23 = false := by decide
  have hc : (8388608#32).getLsbD 23 = true := by decide
  rw [bit, bit, bit]
  simp only [wearCtlWord, BitVec.getLsbD_or, BitVec.getLsbD_and, BitVec.getLsbD_not, hm, hc]
  cases v.getLsbD 23 <;> cases old.getLsbD 23 <;> simp

end State
end Sys2Proof.Machine

namespace Sys2Proof.Safety
open Sys2Proof.Machine Sys2Proof.Machine.State

/-- Settles O43: an hour's save follows its mark, which takes no part in it; SAVE_NOW saves on the state with WEAR_CTL
stored. -/
theorem wearSaves : Obligations.WearSaves := by
  unfold Obligations.WearSaves
  refine ⟨fun s failed bad hr hp hbad => ?_, fun s failed hr hp => ?_, fun s w bad ho hc hr hbad => ?_,
    fun s w ho hc hr hs => ?_⟩
  · obtain ⟨hhours, hseq, ⟨hd, hca, hw, hpl, hotp, -⟩, hregs, hclk⟩ := hourMark_spec s
    obtain ⟨h1, h2, h3, -, -, h6, h7, ⟨k1, k2, k3, k4, k5⟩⟩ := wearSave_spec s.hourMark failed
    have hmirrors : s.hourMark.keelMirrors = s.keelMirrors := keelMirrors_of hpl hclk (hregs _ (by simp) (by decide))
      (on_eq_of_rd (hregs _ (by simp) (by decide)) _) (on_eq_of_rd (hregs _ (by simp) (by decide)) _)
    have hb : s.hourMark.saveBad failed = bad := by rw [saveBad, hmirrors, hbad]
    rw [hb] at h2 h6 h7
    have heq : s.wearHourly failed = s.hourMark.wearSave failed := by
      simp only [wearHourly, hr, hp, Bool.false_eq_true, if_false, if_true]
    exact gives_of_eq rfl heq ⟨by rw [h1, hseq], h2, by rw [h3, hhours],
      by rw [h6, hregs _ (by simp) (by decide)], by rw [h7, hregs _ (by simp) (by decide)], k1.trans hd, k2.trans hca,
      k3.trans hw, k4.trans hpl, k5.trans hotp⟩
  · obtain ⟨hhours, hseq, hmem, hregs, -⟩ := hourMark_spec s
    have heq : s.wearHourly failed = s.hourMark := by
      simp only [wearHourly, hr, hp, Bool.false_eq_true, if_false]
    exact gives_of_eq rfl heq ⟨hseq, hhours, hmem, hregs⟩
  · have hset : F.STACK_WEAR_CTL_SAVE_NOW.get (F.STACK_WEAR_CTL_SAVE_NOW.set (2 ^ F.STACK_WEAR_CTL_SAVE_NOW.width - 1) w.value)
        = 1 := Fld.get_set _ _ _ (by decide)
    have heq := wearCtl_write (F.STACK_WEAR_CTL_SAVE_NOW.set (2 ^ F.STACK_WEAR_CTL_SAVE_NOW.width - 1) w.value) ho
    have hgo := (wearCtl_saveNow (s.rd R.STACK_WEAR_CTL) _).mpr (.inl hset)
    generalize wearCtlWord (s.rd R.STACK_WEAR_CTL)
      (F.STACK_WEAR_CTL_SAVE_NOW.set (2 ^ F.STACK_WEAR_CTL_SAVE_NOW.width - 1) w.value) = new at heq hgo
    have hsave : s.regSet w R.STACK_WEAR_CTL F.STACK_WEAR_CTL_SAVE_NOW = (s.wr R.STACK_WEAR_CTL new).wearSave false :=
      heq.trans (if_pos ⟨hgo, by rw [show (s.wr R.STACK_WEAR_CTL new).inReset = s.inReset from rfl, hr]; rfl⟩)
    obtain ⟨h1, h2, -, h4, h5, h6, h7, ⟨k1, k2, k3, k4, k5⟩⟩ := wearSave_spec (s.wr R.STACK_WEAR_CTL new) false
    have hb : (s.wr R.STACK_WEAR_CTL new).saveBad false = bad := by
      rw [saveBad, Bool.false_or, hbad, storedWearCtl_keelMirrors]
    rw [hb] at h2 h6 h7
    rw [rd_wr_other _ _ _ _ (by decide)] at h6 h7
    have hwrite : s.saveWrite w false = (s.wr R.STACK_WEAR_CTL new).wearSave false := by
      unfold saveWrite
      simp only [hsave, Bool.not_false, if_true]
    exact gives_of_eq rfl hwrite ⟨h1, h2, h6, h7, h4, h5, k1, k2, k3, k4, k5⟩
  · have hset : F.STACK_WEAR_CTL_SAVE_NOW.get (F.STACK_WEAR_CTL_SAVE_NOW.set (2 ^ F.STACK_WEAR_CTL_SAVE_NOW.width - 1) w.value)
        = 1 := Fld.get_set _ _ _ (by decide)
    have hclear : F.STACK_WEAR_CTL_SAVE_NOW.get (F.STACK_WEAR_CTL_SAVE_NOW.set 0 w.value) = 0 :=
      Fld.get_set _ _ _ (by decide)
    have hold : F.STACK_WEAR_CTL_SAVE_NOW.get (s.rd R.STACK_WEAR_CTL) = 0 := on_eq_false.mp hs
    have heq1 := wearCtl_write (F.STACK_WEAR_CTL_SAVE_NOW.set (2 ^ F.STACK_WEAR_CTL_SAVE_NOW.width - 1) w.value) ho
    have hgo := (wearCtl_saveNow (s.rd R.STACK_WEAR_CTL) _).mpr (.inl hset)
    generalize wearCtlWord (s.rd R.STACK_WEAR_CTL)
      (F.STACK_WEAR_CTL_SAVE_NOW.set (2 ^ F.STACK_WEAR_CTL_SAVE_NOW.width - 1) w.value) = n1 at heq1 hgo
    have heq2 := wearCtl_write (F.STACK_WEAR_CTL_SAVE_NOW.set 0 w.value) ho
    have hstay := mt (wearCtl_saveNow (s.rd R.STACK_WEAR_CTL) _).mp (by rw [hclear, hold]; decide)
    generalize wearCtlWord (s.rd R.STACK_WEAR_CTL) (F.STACK_WEAR_CTL_SAVE_NOW.set 0 w.value) = n2 at heq2 hstay
    have hgood : (s.regSet w R.STACK_WEAR_CTL F.STACK_WEAR_CTL_SAVE_NOW).therm.savedSeq = s.therm.savedSeq + 1 := by
      have hsave : s.regSet w R.STACK_WEAR_CTL F.STACK_WEAR_CTL_SAVE_NOW = (s.wr R.STACK_WEAR_CTL n1).wearSave false :=
        heq1.trans (if_pos ⟨hgo, by rw [show (s.wr R.STACK_WEAR_CTL n1).inReset = s.inReset from rfl, hr]; rfl⟩)
      rw [hsave]
      exact (wearSave_spec _ _).1
    have heq : s.saveWrite w true = (s.wr R.STACK_WEAR_CTL n2).wearSave true := by
      have hplain := heq2.trans (if_neg fun h => hstay h.1)
      unfold saveWrite
      simp only [hgood, Nat.add_sub_cancel_left, hplain, Bool.not_true, Bool.false_eq_true, if_false, Nat.one_ne_zero, if_true]
    obtain ⟨h1, h2, -, -, -, h6, h7, ⟨k1, k2, k3, k4, k5⟩⟩ := wearSave_spec (s.wr R.STACK_WEAR_CTL n2) true
    have hb : (s.wr R.STACK_WEAR_CTL n2).saveBad true = true := rfl
    rw [hb] at h2 h6 h7
    rw [rd_wr_other _ _ _ _ (by decide)] at h6 h7
    exact gives_of_eq rfl heq ⟨h1, h2, h7, h6.trans (BitVec.add_zero _), k1, k2, k3, k4, k5⟩

end Sys2Proof.Safety
end

section
/-! SUPPORT. The OTP array under programming and rereads (R365, R371, R372). -/

namespace Sys2Proof.Machine
open Sys2Proof.Safety Sys2Proof.Laws State


namespace State

variable {s t : State}

/-- Readings rest on the sensors, the model and the registers of the THERM page. -/
theorem layerReading_congr (ht : t.therm = s.therm) (hr : ∀ a, pageOf a = 0x005 → t.rd a = s.rd a) (l : Nat) :
    t.layerReading l = s.layerReading l := by
  have hm : t.modelReady = s.modelReady := on_eq_of_rd (hr _ (by decide)) _
  have hd := hr R.THERM_THR_DRAM (by decide)
  have hb := hr R.THERM_THR_BASE (by decide)
  have hg := fld_eq_of_rd (hr R.THERM_SUSPECT_CTL (by decide)) F.THERM_SUSPECT_CTL_GUARD_C
  have hv : ∀ l, t.ventFull l = s.ventFull l := fun l => by
    unfold ventFull ventStart
    rw [fld_eq_of_rd hd, fld_eq_of_rd hd, fld_eq_of_rd hb, fld_eq_of_rd hb]
  have hs : t.sensorT = s.sensorT := funext fun n => by
    unfold sensorT
    rw [ht]
  have hn : t.nodeReading = s.nodeReading := funext fun i => by
    simp only [nodeReading, liveSensors, modelT, hm, hs, hv, hg, ht]
  have hh : t.hasReading = s.hasReading := funext fun i => by simp only [hasReading, hm, ht]
  simp only [layerReading, hn, hh]

/-- The conditions of programming rest on the sensors, a rail, the reference and the boot step. -/
theorem progCond_congr (ht : t.therm = s.therm) (hb : t.bist = s.bist)
    (hr : ∀ a, pageOf a ∈ [0x003, 0x004, 0x005] → t.rd a = s.rd a) : t.progCond = s.progCond := by
  have h5 : ∀ a, pageOf a = 0x005 → t.rd a = s.rd a := fun a h => hr a (by simp [h])
  have hm : t.modelReady = s.modelReady := on_eq_of_rd (h5 _ (by decide)) _
  have hs : t.bootStep = s.bootStep := fld_eq_of_rd (hr R.CLK_BOOT_STAT (by decide)) _
  simp only [progCond, layerReading_congr ht h5, hm, hb, hs, fld_eq_of_rd (hr (R.PWR_RAIL_MON 6) (by decide))]

/-! ### A word of the array -/

theorem otpStored_congr (h : t.otp = s.otp) (w : Nat) : t.otpStored w = s.otpStored w := by
  unfold otpStored
  rw [h]

theorem otpStored_otpSet_same (w : Nat) (x : BitVec 39) : (s.otpSet w x).otpStored w = s.otpStored w ||| x := by
  simp [otpStored, otpSet, SMap.get_set_same]

theorem otpStored_otpSet_other {k w : Nat} (h : k ≠ w) (x : BitVec 39) : (s.otpSet w x).otpStored k = s.otpStored k := by
  simp [otpStored, otpSet, SMap.get_set_other _ h]

/-- The word has been programmed: its bits are stored, a word of the lifecycle shows as pending, and the counter follows. -/
def wordStored (s : State) (w : Nat) (x : BitVec 39) : State :=
  let s := (s.otpSet w x).incSat R.FUSE_PROG_WORDS F.FUSE_PROG_WORDS_COUNT
  if otpRegion w = 6 then s.flag R.FUSE_LIFE_STAT F.FUSE_LIFE_STAT_PENDING true else s

/-- Its bits were set in part, and the failure is counted. -/
def wordFailed (s : State) (w : Nat) (x : BitVec 39) : State :=
  (s.otpSet w x).incSat R.FUSE_VERIFY_FAILS F.FUSE_VERIFY_FAILS_COUNT

section Words

variable (s : State) (w : Nat) (x : BitVec 39)

theorem wordStored_otp : (s.wordStored w x).otp = (s.otpSet w x).otp := by
  unfold wordStored
  dsimp only
  split <;> simp

theorem wordStored_shadow : (s.wordStored w x).otp.shadow = s.otp.shadow := by
  rw [wordStored_otp]
  rfl

theorem wordFailed_otp : (s.wordFailed w x).otp = (s.otpSet w x).otp := incSat_otp _ _ _ _

theorem wordStored_frame : (s.wordStored w x).dram = s.dram ∧ (s.wordStored w x).therm = s.therm ∧
    (s.wordStored w x).bist = s.bist := by
  unfold wordStored
  dsimp only
  split <;> simp <;> exact ⟨rfl, rfl, rfl⟩

theorem wordStored_regsKept : RegsKept s (s.wordStored w x) [] [R.FUSE_PROG_STAT, R.FUSE_PROG_WORDS, R.FUSE_LIFE_STAT] := by
  have h : RegsKept s ((s.otpSet w x).incSat R.FUSE_PROG_WORDS F.FUSE_PROG_WORDS_COUNT) []
      [R.FUSE_PROG_STAT, R.FUSE_PROG_WORDS, R.FUSE_LIFE_STAT] := fun b _ hb => by
    rw [rd_incSat_other _ _ _ _ _ (by rintro rfl; simp at hb)]
    rfl
  unfold wordStored
  dsimp only
  split
  · exact h.flag _ _ (.inl (by simp))
  · exact h

theorem wordStored_progCond : (s.wordStored w x).progCond = s.progCond := by
  obtain ⟨_, ht, hb⟩ := wordStored_frame s w x
  refine progCond_congr ht hb fun a ha => wordStored_regsKept s w x a (by simp) ?_
  rintro h
  simp only [List.mem_cons, List.not_mem_nil, or_false] at h
  rcases h with rfl | rfl | rfl <;> exact absurd ha (by decide)

theorem wordStored_same : (s.wordStored w x).otpStored w = s.otpStored w ||| x := by
  rw [otpStored_congr (wordStored_otp s w x), otpStored_otpSet_same]

theorem wordStored_other {k : Nat} (h : k ≠ w) : (s.wordStored w x).otpStored k = s.otpStored k := by
  rw [otpStored_congr (wordStored_otp s w x), otpStored_otpSet_other h]

theorem wordFailed_same : (s.wordFailed w x).otpStored w = s.otpStored w ||| x := by
  rw [otpStored_congr (wordFailed_otp s w x), otpStored_otpSet_same]

theorem wordFailed_other {k : Nat} (h : k ≠ w) : (s.wordFailed w x).otpStored k = s.otpStored k := by
  rw [otpStored_congr (wordFailed_otp s w x), otpStored_otpSet_other h]

end Words

/-! ### The end of the operation -/

/-- A command's operation ends: it is no longer running, its result shows, and the array stays. -/
theorem progEnd_command (s : State) (ws : List (Nat × Word)) {n : Nat} (hn : n < 8) :
    let t := s.progEnd ⟨ws, false⟩ n
    t.otp = { s.otp with op := none } ∧ t.fld R.FUSE_PROG_STAT F.FUSE_PROG_STAT_RESULT = n ∧
      t.on R.FUSE_PROG_STAT F.FUSE_PROG_STAT_BUSY = false ∧ t.dram = s.dram ∧ RegsKept s t [] [R.FUSE_PROG_STAT] := by
  refine ⟨rfl, ?_, ?_, rfl, ?_⟩
  · exact (fld_put_same _ _ _ _ (by decide)).trans (Nat.mod_eq_of_lt hn)
  · exact (on_put_other _ _ _ _ _ _ (.inr (by decide))).trans (on_flag_same _ _ _ _ (by decide) rfl)
  · exact ((RegsKept.of_regs (.refl s) rfl).flag _ _ (.inl (by simp))).put _ _ (.inl (by simp))

theorem progDone_none {s : State} {how : OtpEnd} (h : s.otp.op = none) : s.progDone how = s := by
  unfold progDone
  rw [h]

section Ends

variable {w : Nat} {v : Word} {rest : List (Nat × Word)} {a : Bool} {y : BitVec 39}

theorem progDone_verified (h : s.otp.op = some ⟨(w, v) :: rest, a⟩) : s.progDone .verified =
    let t := s.wordStored w (otpEncode v)
    if rest.isEmpty then t.progEnd ⟨(w, v) :: rest, a⟩ 1
    else if !t.progCond then t.progEnd ⟨(w, v) :: rest, a⟩ 7
    else { t with otp := { t.otp with op := some ⟨rest, a⟩ } } := by
  unfold progDone
  rw [h]
  rfl

theorem progDone_verifyFail (h : s.otp.op = some ⟨(w, v) :: rest, a⟩) : s.progDone (.verifyFail y) =
    (s.wordFailed w (otpEncode v &&& y)).progEnd ⟨(w, v) :: rest, a⟩ 6 := by
  unfold progDone
  rw [h]
  rfl

/-- The state after an abort: the word is noted as reached. -/
def wordAborted (s : State) (w : Nat) (x : BitVec 39) : State :=
  let s := s.wordFailed w x
  { s with otp := { s.otp with partly := w :: s.otp.partly } }

theorem progDone_aborted (h : s.otp.op = some ⟨(w, v) :: rest, a⟩) : s.progDone (.aborted y) =
    (s.wordAborted w (otpEncode v &&& y)).progEnd ⟨(w, v) :: rest, a⟩ 7 := by
  unfold progDone
  rw [h]
  rfl

end Ends

/-! ### Rereads -/

/-- The occasion of a reread: the temperature has left the bounds, or a day has passed. -/
def rereadDue (s : State) (lo hi : Rat) : Prop :=
  s.layerReading 0 < lo - 10 ∨ hi + 10 < s.layerReading 0 ∨ s.otp.rereadAt + 86400000000000 ≤ s.clk.up

/-- The bounds and the time of the reread, and the words that it finds marginal. -/
def rereadTaken (s : State) (reads : List OtpRead) (lo hi : Rat) : State :=
  let t := s.layerReading 0
  let s := { s with otp := { s.otp with
      tmin := some (if t < lo - 10 then t else lo), tmax := some (if hi + 10 < t then t else hi), rereadAt := s.clk.up } }
  let new := ((reads.filter fun x => otpMarginal (x.normal, x.pgm, x.blank)).map fun x => x.word.toNat).filter fun w =>
    !s.otp.marginal.contains w
  { s with otp := { s.otp with marginal := s.otp.marginal ++ new.eraseDups } }

/-- The registers that a reread shows. -/
def rereadRegs : List Nat :=
  [R.FUSE_REREADS, R.FUSE_DRIFTS, R.FUSE_MARGINAL_CNT, R.FUSE_CORR_WORDS, R.FUSE_INTEG_STAT]

theorem regsKept_incSat {s t : State} {pages addrs : List Nat} {a : Nat} (h : RegsKept s t pages addrs) (f : Fld) (n : Nat)
    (ha : a ∈ addrs) : RegsKept s (t.incSat a f n) pages addrs := fun b hp hb => by
  rw [rd_incSat_other _ _ _ _ _ (by rintro rfl; exact hb ha)]
  exact h b hp hb

theorem showMarginal_otp (s : State) : s.showMarginal.otp = s.otp := rfl
theorem showMarginal_dram (s : State) : s.showMarginal.dram = s.dram := rfl

theorem showMarginal_regsKept {s t : State} (h : RegsKept s t [] rereadRegs) : RegsKept s t.showMarginal [] rereadRegs :=
  (((h.put _ _ (.inl (by decide))).put _ _ (.inl (by decide))).put _ _ (.inl (by decide))).put _ _ (.inl (by decide))

/-- A reread that is due: what it takes, then its counts. -/
theorem otpReread_due {reads : List OtpRead} {lo hi : Rat} (hlo : s.otp.tmin = some lo) (hhi : s.otp.tmax = some hi)
    (h : s.rereadDue lo hi) : ∃ n, s.otpReread reads =
      let t := ((s.rereadTaken reads lo hi).incSat R.FUSE_REREADS F.FUSE_REREADS_COUNT).showMarginal
      if n = 0 then t else t.incSat R.FUSE_DRIFTS F.FUSE_DRIFTS_COUNT n := by
  have hb : (!(decide (s.layerReading 0 < lo - 10) || decide (hi + 10 < s.layerReading 0) ||
      decide (s.otp.rereadAt + 86400000000000 ≤ s.clk.up))) = false := by
    simpa only [Bool.not_eq_false', Bool.or_eq_true, decide_eq_true_eq, rereadDue, or_assoc] using h
  unfold otpReread
  rw [hlo, hhi]
  dsimp only
  rw [hb, if_neg Bool.false_ne_true]
  exact ⟨_, rfl⟩

theorem otpReread_notDue {reads : List OtpRead} {lo hi : Rat} (hlo : s.otp.tmin = some lo) (hhi : s.otp.tmax = some hi)
    (h : ¬ s.rereadDue lo hi) : s.otpReread reads = s := by
  have hb : (!(decide (s.layerReading 0 < lo - 10) || decide (hi + 10 < s.layerReading 0) ||
      decide (s.otp.rereadAt + 86400000000000 ≤ s.clk.up))) = true := by
    simpa only [Bool.not_eq_true', Bool.or_eq_false_iff, decide_eq_false_iff_not, and_assoc, rereadDue, not_or] using h
  unfold otpReread
  rw [hlo, hhi]
  dsimp only
  rw [hb, if_pos rfl]

theorem otpReread_unset {reads : List OtpRead} (h : s.otp.tmin = none) : s.otpReread reads = s := by
  unfold otpReread
  rw [h]

theorem rereadTaken_spec (s : State) (reads : List OtpRead) (lo hi : Rat) :
    let t := s.rereadTaken reads lo hi
    t.otp.array = s.otp.array ∧ t.otp.shadow = s.otp.shadow ∧ t.otp.rereadAt = s.clk.up ∧
      (∀ w ∈ s.otp.marginal, w ∈ t.otp.marginal) ∧ t.dram = s.dram ∧ t.regs = s.regs :=
  ⟨rfl, rfl, rfl, fun _ h => List.mem_append_left _ h, rfl, rfl⟩

/-- A reread that is due leaves the stored bits and the shadow, and keeps the marginal words. -/
theorem otpReread_spec {reads : List OtpRead} {lo hi : Rat} (hlo : s.otp.tmin = some lo) (hhi : s.otp.tmax = some hi)
    (h : s.rereadDue lo hi) :
    let t := s.otpReread reads
    t.otp.array = s.otp.array ∧ t.otp.shadow = s.otp.shadow ∧ t.otp.rereadAt = s.clk.up ∧
      (∀ w ∈ s.otp.marginal, w ∈ t.otp.marginal) ∧ t.dram = s.dram ∧ RegsKept s t [] rereadRegs := by
  obtain ⟨ha, hs, hr, hm, hd, hg⟩ := rereadTaken_spec s reads lo hi
  obtain ⟨n, e⟩ := otpReread_due (reads := reads) hlo hhi h
  have hk : RegsKept s ((s.rereadTaken reads lo hi).incSat R.FUSE_REREADS F.FUSE_REREADS_COUNT).showMarginal [] rereadRegs :=
    showMarginal_regsKept (regsKept_incSat (.of_regs (.refl s) hg) _ _ (by decide))
  simp only [e]
  split
  · simp only [showMarginal_otp, showMarginal_dram, incSat_otp, incSat_dram]
    exact ⟨ha, hs, hr, hm, hd, hk⟩
  · simp only [incSat_otp, incSat_dram, showMarginal_otp, showMarginal_dram]
    exact ⟨ha, hs, hr, hm, hd, regsKept_incSat hk _ _ (by decide)⟩

end State
end Sys2Proof.Machine

namespace Sys2Proof.Safety
open Sys2Proof.Machine Sys2Proof.Machine.State

/-- Settles O45: each end of programming is the word's storage (`wordStored`, `wordFailed`, `wordAborted`) followed by the end
of the operation; a reread that is due changes neither the array nor the shadow. -/
theorem otpArray : Obligations.OtpArray := by
  unfold Obligations.OtpArray
  refine ⟨fun s w v h => ?_, fun s w v x rest a h hc => ?_, fun s w v x rest h hc => ?_, fun s w v y h => ?_,
    fun s w v y h => ?_, fun s how h => congrArg Host.Outcome.next (progDone_none h), fun s reads lo hi hlo hhi h => ?_,
    fun s reads lo hi hlo hhi h1 h2 h3 => congrArg Host.Outcome.next (otpReread_notDue hlo hhi ?_),
    fun s reads h => congrArg Host.Outcome.next (otpReread_unset h)⟩
  · obtain ⟨ho, hr, hb, hd, hk⟩ := progEnd_command (s.wordStored w (otpEncode v)) [(w, v)] (n := 1) (by decide)
    refine gives_of_eq rfl (progDone_verified h) ⟨?_, fun k hk => ?_, ?_, ?_, hr, hb, ?_, ?_⟩
    · exact (congrArg (fun o : OtpState => SMap.get (fun _ => 0) o.array w) ho).trans (wordStored_same s w _)
    · exact (congrArg (fun o : OtpState => SMap.get (fun _ => 0) o.array k) ho).trans (wordStored_other s w _ hk)
    · exact congrArg OtpState.op ho
    · exact (congrArg OtpState.shadow ho).trans (wordStored_shadow s w _)
    · exact hd.trans (wordStored_frame s w _).1
    · exact (wordStored_regsKept s w _).trans (hk.mono (by simp) (by simp))
  · refine gives_of_eq rfl ((progDone_verified h).trans ?_) (u := { s.wordStored w (otpEncode v) with
      otp := { (s.wordStored w (otpEncode v)).otp with op := some ⟨x :: rest, a⟩ } }) ⟨wordStored_same s w _, rfl⟩
    simp [wordStored_progCond, hc]
  · obtain ⟨ho, hr, _⟩ := progEnd_command (s.wordStored w (otpEncode v)) ((w, v) :: x :: rest) (n := 7) (by decide)
    refine gives_of_eq rfl ((progDone_verified h).trans ?_) (u := (s.wordStored w (otpEncode v)).progEnd
      ⟨(w, v) :: x :: rest, false⟩ 7) ⟨?_, congrArg OtpState.op ho, hr⟩
    · simp [wordStored_progCond, hc]
    · exact (congrArg (fun o : OtpState => SMap.get (fun _ => 0) o.array w) ho).trans (wordStored_same s w _)
  · obtain ⟨ho, hr, _⟩ := progEnd_command (s.wordFailed w (otpEncode v &&& y)) [(w, v)] (n := 6) (by decide)
    refine gives_of_eq rfl (progDone_verifyFail h) ⟨?_, fun k hk => ?_, congrArg OtpState.op ho, hr⟩
    · exact (congrArg (fun o : OtpState => SMap.get (fun _ => 0) o.array w) ho).trans (wordFailed_same s w _)
    · exact (congrArg (fun o : OtpState => SMap.get (fun _ => 0) o.array k) ho).trans (wordFailed_other s w _ hk)
  · obtain ⟨ho, hr, _⟩ := progEnd_command (s.wordAborted w (otpEncode v &&& y)) [(w, v)] (n := 7) (by decide)
    refine gives_of_eq rfl (progDone_aborted h) ⟨?_, ?_, congrArg OtpState.op ho, hr⟩
    · exact (congrArg (fun o : OtpState => SMap.get (fun _ => 0) o.array w) ho).trans (wordFailed_same s w _)
    · have hp := congrArg OtpState.partly ho
      unfold otpBlank
      rw [hp]
      simp [wordAborted]
  · exact gives_of_eq rfl rfl (otpReread_spec hlo hhi h)
  · rintro (h | h | h)
    · exact absurd h (not_lt.mpr h1)
    · exact absurd h (not_lt.mpr h2)
    · omega

end Sys2Proof.Safety
end

section
/-! SUPPORT. PROG_CMD: which action a write takes, and what programming needs to start (R367, R372, R376, R381). -/

namespace Sys2Proof.Machine
open Sys2Proof.Safety State

/-- The actions of PROG_CMD. -/
def progFields : List Fld :=
  [F.FUSE_PROG_CMD_PROGRAM, F.FUSE_PROG_CMD_GEN_SECRET, F.FUSE_PROG_CMD_LIFE_NEXT, F.FUSE_PROG_CMD_LIFE_VOID]

/-- The word that a command writes to PROG_CMD. -/
def progWrite (key : BitVec 16) (f : Fld) : Word := F.FUSE_PROG_CMD_KEY.set key.toNat (f.set 1 0)

/-- A word sets one action alone. -/
theorem progWrite_get (key : BitVec 16) {f g : Fld} (hf : f ∈ progFields) (hg : g ∈ progFields) :
    g.get (progWrite key f) = if g = f then 1 else 0 := by
  simp only [progFields, List.mem_cons, List.not_mem_nil, or_false] at hf hg
  have hk : F.FUSE_PROG_CMD_KEY.lsb + F.FUSE_PROG_CMD_KEY.width ≤ g.lsb ∨
      g.lsb + g.width ≤ F.FUSE_PROG_CMD_KEY.lsb := by rcases hg with rfl | rfl | rfl | rfl <;> decide
  rw [progWrite, Fld.get_set_other _ _ _ _ hk.symm]
  rcases hf with rfl | rfl | rfl | rfl <;> rcases hg with rfl | rfl | rfl | rfl <;> decide

/-- Its key is the command's. -/
theorem progWrite_key (key : BitVec 16) (f : Fld) : (progWrite key f &&& 0xFFFF000F#32).extractLsb' 16 16 = key := by
  have e : F.FUSE_PROG_CMD_KEY.get (progWrite key f &&& 0xFFFF000F#32) = key.toNat := by
    rw [Fld.get_and _ (by decide), progWrite, Fld.get_set _ _ _ (by decide)]
    exact Nat.mod_eq_of_lt key.isLt
  refine BitVec.eq_of_toNat_eq ?_
  rw [← e]
  simp [Fld.get]

namespace State

variable {s : State} {path : Path} {key : BitVec 16}

/-- The action of a field of PROG_CMD. -/
def progAction (s : State) (f : Fld) (key : BitVec 16) : State :=
  if f = F.FUSE_PROG_CMD_PROGRAM then s.progWord key
  else if f = F.FUSE_PROG_CMD_GEN_SECRET then s.genSecret key
  else if f = F.FUSE_PROG_CMD_LIFE_NEXT then s.lifeNext key else s.lifeVoid key

theorem wrFuse_prog {f : Fld} (hf : f ∈ progFields) (new : Word) :
    s.wrFuse 0x80 new (progWrite key f &&& 0xFFFF000F#32) = s.progAction f key := by
  have hg (g : Fld) (hg : g ∈ progFields) : g.get (progWrite key f &&& 0xFFFF000F#32) = if g = f then 1 else 0 := by
    rw [Fld.get_and _ (by revert g; decide), progWrite_get key hf hg]
  unfold wrFuse progAction
  rw [hg _ (by decide), hg _ (by decide), hg _ (by decide), hg _ (by decide), progWrite_key]
  simp only [progFields, List.mem_cons, List.not_mem_nil, or_false] at hf
  rcases hf with rfl | rfl | rfl | rfl <;> rfl

/-- A write of an open PROG_CMD takes its action; those of the lifecycle are the Gondola's. -/
theorem progCmd_open {f : Fld} (ho : Open s path R.FUSE_PROG_CMD) (hf : f ∈ progFields)
    (hl : path = .gondola ∨ f ∈ [F.FUSE_PROG_CMD_PROGRAM, F.FUSE_PROG_CMD_GEN_SECRET]) :
    s.progCmd path key f = s.progAction f key := by
  have hd : lifeDenied path R.FUSE_PROG_CMD 0 (progWrite key f) = false := by
    unfold lifeDenied
    rcases hl with rfl | hl
    · rfl
    · rw [progWrite_get key hf (by decide), progWrite_get key hf (by decide)]
      simp only [List.mem_cons, List.not_mem_nil, or_false] at hl
      rcases hl with rfl | rfl <;> cases path <;> rfl
  have hoff : offOf R.FUSE_PROG_CMD = 0x80 := by decide
  unfold progCmd
  change s.regCmd path R.FUSE_PROG_CMD (progWrite key f) = _
  rw [regCmd_open (m := 0) (c := 0xFFFF000F#32) ho (by decide) (by decide) (by decide) hd (by decide) rfl (by decide)
    (by have : s.softBits R.FUSE_PROG_CMD = 0 := rfl
        rw [this]; decide) (by decide),
    regEffect_fuse (by decide) (by decide), afterWrite_self (by decide), hoff, wrFuse_prog hf]

/-- The lifecycle's actions on another path are recorded and do nothing (R376). -/
theorem progCmd_denied {f : Fld} (ho : Open s path R.FUSE_PROG_CMD) (hp : path ≠ .gondola)
    (hf : f = F.FUSE_PROG_CMD_LIFE_NEXT ∨ f = F.FUSE_PROG_CMD_LIFE_VOID) :
    s.progCmd path key f = s.accErr path R.FUSE_PROG_CMD true 5 := by
  have hmem : f ∈ progFields := by rcases hf with rfl | rfl <;> decide
  have hd : lifeDenied path R.FUSE_PROG_CMD 0 (progWrite key f) = true := by
    unfold lifeDenied
    rw [progWrite_get key hmem (by decide), progWrite_get key hmem (by decide)]
    rw [bne_iff_ne.mpr hp]
    rcases hf with rfl | rfl <;> rfl
  obtain ⟨hu, hr, hf, _⟩ := ho
  have hoff : offOf R.FUSE_PROG_CMD / 0x400 = 0 := by decide
  have hbase : 4096 * pageOf R.FUSE_PROG_CMD + offOf R.FUSE_PROG_CMD % 1024 = R.FUSE_PROG_CMD := by decide
  have h4 : R.FUSE_PROG_CMD / 4 * 4 = R.FUSE_PROG_CMD := by decide
  have hm : isMsixPage (pageOf R.FUSE_PROG_CMD) = false := by decide
  unfold progCmd regCmd writeAt
  rw [afterWrite_self (by decide)]
  change (s.busWrite path R.FUSE_PROG_CMD 15 (progWrite key f)).st = _
  simp [busWrite, hu, hr, writeOnce, h4, hf, hm, hoff, hbase, hd]

/-! ### What starts and what does not -/

theorem repairAppend_empty (h : s.otp.queue = []) : s.repairAppend = s := by
  unfold repairAppend
  rw [h]

theorem progFirst_go {go : State → State} (hop : s.otp.op = none) (hq : s.otp.queue = []) :
    s.progFirst 0x0F5E go = go s := by
  simp [progFirst, hop, repairAppend_empty hq]

theorem progFirst_wrongKey {go : State → State} (h : key ≠ 0x0F5E) : s.progFirst key go = s :=
  if_pos (by rw [decide_eq_true h, Bool.true_or])

theorem progAction_wrongKey {f : Fld} (h : key ≠ 0x0F5E) : s.progAction f key = s := by
  unfold progAction progWord genSecret lifeNext lifeVoid
  simp only [progFirst_wrongKey h, ite_self]

/-- Programming has started. -/
def progRunning (s : State) (ws : List (Nat × Word)) : State :=
  { s with otp := { s.otp with op := some ⟨ws, false⟩ } }.flag R.FUSE_PROG_STAT F.FUSE_PROG_STAT_BUSY true

theorem progRunning_spec (s : State) (ws : List (Nat × Word)) :
    let t := s.progRunning ws
    t.otp = { s.otp with op := some ⟨ws, false⟩ } ∧ t.on R.FUSE_PROG_STAT F.FUSE_PROG_STAT_BUSY = true ∧ t.dram = s.dram ∧
      t.sec = s.sec ∧ RegsKept s t [0x014] [R.FUSE_PROG_STAT] :=
  ⟨rfl, on_flag_same _ _ _ _ (by decide) rfl, rfl, rfl, (RegsKept.of_regs (.refl s) rfl).flag _ _ (.inl (by simp))⟩

theorem progRunning_life (s : State) (ws : List (Nat × Word)) : (s.progRunning ws).life = s.life :=
  fld_put_other _ _ _ _ _ _ (.inl (by decide))

/-- A word takes programming: its region and slot are not locked, and it is blank. -/
def wordOpen (s : State) (w : Nat) : Prop :=
  s.progLocked (otpRegion w) = false ∧ s.slotClosed w = false ∧ s.otpBlank w = true

theorem progStart_runs {ws : List (Nat × Word)} (h : ∀ x ∈ ws, s.wordOpen x.1) (hc : s.progCond = true) :
    s.progStart true ws = s.progRunning ws := by
  have h1 : (ws.any fun x => s.progLocked (otpRegion x.1) || s.slotClosed x.1) = false := by
    rw [List.any_eq_false]
    intro x hx
    obtain ⟨hl, hs, _⟩ := h x hx
    simp [hl, hs]
  have h2 : (ws.any fun x => !s.otpBlank x.1) = false := by
    rw [List.any_eq_false]
    intro x hx
    obtain ⟨_, _, hb⟩ := h x hx
    simp [hb]
  unfold progStart
  rw [h1, h2, hc]
  rfl

theorem progStart_notAllowed (ws : List (Nat × Word)) : s.progStart false ws = s.setResult 2 := rfl

theorem progStart_locked {w : Nat} {v : Word} (h : s.progLocked (otpRegion w) = true ∨ s.slotClosed w = true) :
    s.progStart true [(w, v)] = s.setResult 3 := by
  have : (s.progLocked (otpRegion w) || s.slotClosed w) = true := by simpa using h
  simp [progStart, this]

theorem setResult_spec (s : State) {n : Nat} (hn : n < 8) :
    (s.setResult n).fld R.FUSE_PROG_STAT F.FUSE_PROG_STAT_RESULT = n ∧ MemKept s (s.setResult n) ∧
      RegsKept s (s.setResult n) [0x014] [R.FUSE_PROG_STAT] :=
  ⟨(fld_put_same _ _ _ _ (by decide)).trans (Nat.mod_eq_of_lt hn), put_memKept _ _ _ _,
    (RegsKept.refl s).put _ _ (.inl (by simp))⟩

theorem progWord_go (hop : s.otp.op = none) (hq : s.otp.queue = []) : s.progWord 0x0F5E =
    s.progStart (s.progAllowed (s.fld R.FUSE_PROG_ADDR F.FUSE_PROG_ADDR_WORD)) [(s.fld R.FUSE_PROG_ADDR F.FUSE_PROG_ADDR_WORD,
      if otpRegion (s.fld R.FUSE_PROG_ADDR F.FUSE_PROG_ADDR_WORD) = 7 then 0xC3C33C3C else s.rd R.FUSE_PROG_DATA)] :=
  progFirst_go hop hq

theorem lifeNext_go (hop : s.otp.op = none) (hq : s.otp.queue = []) : s.lifeNext 0x0F5E =
    s.progStart (decide (s.life ≤ 3)) [(0x3E0 + s.life, lifeWord s.life)] := progFirst_go hop hq

theorem lifeVoid_go (hop : s.otp.op = none) (hq : s.otp.queue = []) : s.lifeVoid 0x0F5E =
    s.progStart (decide (2 ≤ s.life ∧ s.life ≤ 4)) [(0x3E4, lifeWord 4)] := progFirst_go hop hq

/-- The words of the lifecycle lie in region 6, outside every slot. -/
theorem lifeWord_place : ∀ i < 5, otpRegion (0x3E0 + i) = 6 ∧ slotOf (0x3E0 + i) = none := by decide

theorem lifeWord_open {i : Nat} (hi : i < 5) (hl : s.progLocked 6 = false) (hb : s.otpBlank (0x3E0 + i) = true) :
    s.wordOpen (0x3E0 + i) := by
  obtain ⟨hr, hs⟩ := lifeWord_place i hi
  exact ⟨by rwa [hr], by simp [slotClosed, hs], hb⟩

/-! ### The secret's words -/

theorem openSlot_le {r ab : Nat} (h : s.openSlot r = some ab) : ab ≤ 1 := by
  unfold openSlot at h
  split at h
  · injection h with h; omega
  · split at h
    · injection h with h; omega
    · cases h

/-- The words of a secret slot lie in region 5 and in that slot, its lock word in region 7 and outside every slot. -/
theorem secretWord_place : ∀ ab < 2, (∀ i < 16, otpRegion (slotBase 4 ab + i) = 5 ∧ slotOf (slotBase 4 ab + i) = some (4, ab)) ∧
    otpRegion (lockWord 4 ab) = 7 ∧ slotOf (lockWord 4 ab) = none := by decide

theorem secretWords_fst (base lock : Nat) (x : BitVec 256) :
    (secretWords base lock x).map Prod.fst = (List.range 16).map (fun i => base + i) ++ [lock] := by
  simp [secretWords, List.range_succ]

/-- The free value that the secret comes from has been drawn. -/
def drawn (s : State) : State := { s with sec := { s.sec with draws := s.sec.draws + 1 } }

theorem drawn_wordOpen {w : Nat} (h : s.wordOpen w) : s.drawn.wordOpen w := h

theorem drawn_progCond (h : s.progCond = true) : s.drawn.progCond = true := h

theorem genSecret_go {ab : Nat} (hop : s.otp.op = none) (hq : s.otp.queue = []) (hl : s.life = 2) (ho : s.openSlot 4 = some ab) :
    ∃ x, s.genSecret 0x0F5E = s.drawn.progStart true (secretWords (slotBase 4 ab) (lockWord 4 ab) x) := by
  refine ⟨Config.scramble ((Config.random s.sec.draws).extractLsb' 0 256), ?_⟩
  unfold genSecret
  rw [progFirst_go hop hq]
  dsimp only
  rw [if_neg (not_not.mpr hl), ho]
  rfl

theorem secret_wordsOpen {ab : Nat} (ho : s.openSlot 4 = some ab) (h5 : s.progLocked 5 = false) (h7 : s.progLocked 7 = false)
    (hb : ∀ i : Fin 16, s.otpBlank (slotBase 4 ab + i) = true) (hk : s.otpBlank (lockWord 4 ab) = true) :
    ∀ w ∈ (List.range 16).map (fun i => slotBase 4 ab + i) ++ [lockWord 4 ab], s.wordOpen w := by
  obtain ⟨hw, hr, hn⟩ := secretWord_place ab (Nat.lt_succ_of_le (openSlot_le ho))
  intro w hm
  simp only [List.mem_append, List.mem_map, List.mem_range, List.mem_singleton] at hm
  rcases hm with ⟨i, hi, rfl⟩ | rfl
  · obtain ⟨h1, h2⟩ := hw i hi
    exact ⟨by rwa [h1], by simp [slotClosed, h2, ho], hb ⟨i, hi⟩⟩
  · exact ⟨by rwa [hr], by simp [slotClosed, hn], hk⟩

end State
end Sys2Proof.Machine

namespace Sys2Proof.Safety
open Sys2Proof.Machine Sys2Proof.Machine.State

/-- Settles O44: a write of PROG_CMD is its action (`progCmd_open`), and the action starts programming when each of its words
is open (`progStart_runs`), or shows what stands against it. -/
theorem otpCommands : Obligations.OtpCommands := by
  unfold Obligations.OtpCommands
  refine ⟨fun s path w ho hc hop hq hw ha h7 hl hs hb hg => ?_, fun s path w ho hc hop hq hw ha => ?_,
    fun s path w ho hc hop hq hw ha hl => ?_, fun s path key ho hc hk => ?_,
    fun s path ab ho hc hop hq hl hs h5 h7 hb hk hg => ?_, fun s ho hc hop hq hl h6 hb hg => ?_,
    fun s ho hc hop hq hl hl' h6 hb hg => ?_, fun s path ho hc hp => ?_⟩
  · subst hw
    refine gives_of_eq rfl ((progCmd_open ho (by decide) (.inr (by decide))).trans (progWord_go hop hq)) ?_
    rw [ha, if_neg h7, progStart_runs (by simpa using ⟨hl, hs, hb⟩) hg]
    obtain ⟨h1, h2, h3, _, h5⟩ := progRunning_spec s [(s.fld R.FUSE_PROG_ADDR F.FUSE_PROG_ADDR_WORD, s.rd R.FUSE_PROG_DATA)]
    exact ⟨h1, h2, h3, h5⟩
  · subst hw
    refine gives_of_eq rfl ((progCmd_open ho (by decide) (.inr (by decide))).trans (progWord_go hop hq)) ?_
    rw [ha, progStart_notAllowed]
    exact setResult_spec s (by decide)
  · subst hw
    refine gives_of_eq rfl ((progCmd_open ho (by decide) (.inr (by decide))).trans (progWord_go hop hq)) ?_
    rw [ha, progStart_locked hl]
    exact setResult_spec s (by decide)
  · exact gives_of_eq rfl ((progCmd_open ho (by decide) (.inr (by decide))).trans (progAction_wrongKey hk))
      ⟨.refl s, .refl s⟩
  · obtain ⟨x, hx⟩ := genSecret_go hop hq hl hs
    refine gives_of_eq rfl ((progCmd_open ho (by decide) (.inr (by decide))).trans hx) ?_
    have hw := secret_wordsOpen hs h5 h7 hb hk
    rw [← secretWords_fst _ _ x] at hw
    rw [progStart_runs (fun y hy => drawn_wordOpen (hw y.1 (List.mem_map_of_mem hy))) (drawn_progCond hg)]
    obtain ⟨h1, _, h3, h4, h5⟩ := progRunning_spec s.drawn (secretWords (slotBase 4 ab) (lockWord 4 ab) x)
    refine ⟨?_, ?_, ?_, ?_, h3, h5⟩
    · rw [h1]
      exact congrArg some (secretWords_fst _ _ x)
    · rw [h1]
      rfl
    · rw [h4]
      rfl
    · rw [h4]
      rfl
  · refine gives_of_eq rfl ((progCmd_open ho (by decide) (.inl rfl)).trans (lifeNext_go hop hq)) ?_
    rw [decide_eq_true hl, progStart_runs (by simpa using lifeWord_open (by omega) h6 hb) hg]
    obtain ⟨h1, _, _, _, h5⟩ := progRunning_spec s [(0x3E0 + s.life, lifeWord s.life)]
    exact ⟨h1, progRunning_life _ _, h5⟩
  · refine gives_of_eq rfl ((progCmd_open ho (by decide) (.inl rfl)).trans (lifeVoid_go hop hq)) ?_
    rw [decide_eq_true ⟨hl, hl'⟩, progStart_runs (by simpa using lifeWord_open (i := 4) (by omega) h6 hb) hg]
    obtain ⟨h1, _, _, _, h5⟩ := progRunning_spec s [(0x3E4, lifeWord 4)]
    exact ⟨h1, progRunning_life _ _, h5⟩
  · refine gives_of_eq rfl (progCmd_denied ho hp (.inl rfl)) ⟨accErr_memKept _ _ _ _ _, accErr_count _ _ _ _ _, ?_⟩
    exact (accErr_regsKept s path _ true 5).mono (by simp) (by simp)

end Sys2Proof.Safety
end

section
/-! SUPPORT. Sticky locks, the clearing of secrets, and the SPDM responder (R383 to R385). -/

namespace Sys2Proof.Machine
open Sys2Proof.Safety State

/-- The bits of a lock register. -/
def lockBits (r : Fin 19) : Word := if r.val = 0 then 0xFF else if r.val = 1 then 3 else 0xFFFFFFFF

/-- The lock registers are whole dwords of page 7 that writes can only set. -/
theorem lockReg_plain : ∀ r : Fin 19, (lockReg r % 4 = 0 ∧ offOf (lockReg r) / 0x400 = 0 ∧
    4096 * pageOf (lockReg r) + offOf (lockReg r) % 1024 = lockReg r ∧ pageOf (lockReg r) = 7 ∧ 0x40 ≤ offOf (lockReg r)) ∧
    (fieldsAt (lockReg r)).isEmpty = false ∧ fieldBits (· == .cmd) (lockReg r) = 0 ∧
    fieldBits (· == .rw) (lockReg r) ||| fieldBits (· == .rwl) (lockReg r) = lockBits r := by decide

namespace State

variable {s : State} {path : Path}

theorem beMask_full (m : Word) : m &&& beMask 15 = m := by
  have e : beMask 15 = BitVec.allOnes 32 := by decide
  rw [e, BitVec.and_allOnes]

/-- Registers beyond the pages that writes act on. -/
theorem regEffect_lock {a : Nat} {old new cmd : Word} {direct : Bool} (hp : pageOf a = 7) (ho : 0x40 ≤ offOf a) :
    s.regEffect path a old new cmd direct = s.wr a new := by
  have hf : firstOf (pageOf a) = 7 := by rw [hp]; decide
  have hx : a ≠ R.XACT_XACT_CTL := by
    rintro rfl
    exact absurd hp (by decide)
  simp [regEffect, hf, effect_off ho, hx]

/-- A write of a lock register sets bits and clears none. -/
theorem regCmd_lock {r : Fin 19} (v : Word) (ho : Open s path (lockReg r)) :
    s.regCmd path (lockReg r) v = s.wr (lockReg r) (s.rd (lockReg r) ||| (v &&& lockBits r)) := by
  obtain ⟨⟨h4, hk, hb, hp, hoff⟩, he, hc, hm⟩ := lockReg_plain r
  generalize lockReg r = a at ho h4 hk hb hp hoff he hc hm ⊢
  obtain ⟨hu, hr, hf, hl⟩ := ho
  have h4' : a / 4 * 4 = a := by omega
  have hx : isMsixPage (pageOf a) = false := by rw [hp]; decide
  have hd : lifeDenied path a 0 v = false := by
    have : a ≠ R.FUSE_PROG_CMD := by
      rintro rfl
      exact absurd hp (by decide)
    simp [lifeDenied, this]
  have hs : setOnly a = true := by simp [setOnly, hp, hoff]
  have hsoft : s.softBits a = 0 := by
    have : firstOf 7 = 7 := by decide
    simp [softBits, hp, this]
  have hcur : s.cur a = s.rd a := by
    have : firstOf 7 = 7 := by decide
    have h1 : offOf a ≠ 0x10 ∧ offOf a ≠ 0x14 ∧ offOf a ≠ 0x1C := by omega
    simp [cur, viewOf, hp, this, h1]
  have hw : s.regWrite path a 0 15 v = s.wr a (s.rd a ||| (v &&& lockBits r)) := by
    have hmask : (fieldBits (· == .rw) a ||| s.softBits a ||| fieldBits (· == .rwl) a) &&& beMask 15 = lockBits r := by
      rw [hsoft, beMask_full]
      simpa using hm
    have h1 : pageOf a ≠ 1 := by rw [hp]; decide
    simp [regWrite, he, h1, hl, hs, hmask, hcur, merge_or, regEffect_lock hp hoff]
  have hpg : firstOf (pageOf a) ∉ [0x00E, 0x080, 0x088, 0x003, 0x100, 0x180, 0x008, 0x00C, 0x00D, 0x1D0, 0x140, 0x040,
      0x002] := by rw [hp]; decide
  unfold regCmd writeAt
  rw [afterWrite_self hpg, busWrite_open hu hr hf h4 hk hx hd]
  exact hw

/-! ### The clearing of secrets -/

/-- Every secret value is cleared; scan follows from what read back. -/
def secretsGone (s : State) (z : Bool) : State := { s with sec := { s.sec with
  secret := none, devid := none, alias_ := none, kdf := 0, signNonce := 0, keyBuf := [], zeroFail := !z, scan := z } }

/-- The status falls with them. -/
def statusGone (s : State) (z : Bool) : State :=
  ((s.secretsGone z).flag R.SEC_SEC_STAT F.SEC_SEC_STAT_SECRET_LOADED false).flag R.SEC_SEC_STAT F.SEC_SEC_STAT_ATTEST_EN false

theorem scanEnable_allowed {z : Bool} (h : s.scanAllowed = true) : s.scanEnable z =
    if z then ((s.statusGone z).flag R.SEC_SEC_STAT F.SEC_SEC_STAT_SCAN_CLEARED true).inc R.SEC_ZEROIZE_CNT
    else s.statusGone z := by
  unfold scanEnable
  rw [h]
  rfl

theorem scanEnable_refused {z : Bool} (h : s.scanAllowed = false) : s.scanEnable z = s := by
  unfold scanEnable
  rw [h]
  rfl

theorem statusGone_spec (s : State) (z : Bool) :
    (s.statusGone z).on R.SEC_SEC_STAT F.SEC_SEC_STAT_SECRET_LOADED = false ∧
      (s.statusGone z).on R.SEC_SEC_STAT F.SEC_SEC_STAT_ATTEST_EN = false ∧ MemKept s (s.statusGone z) ∧
      RegsKept s (s.statusGone z) [] [R.SEC_SEC_STAT, R.SEC_ZEROIZE_CNT] := by
  have hm : MemKept s (s.secretsGone z) := ⟨rfl, rfl, rfl, rfl, rfl, rfl⟩
  have hr : RegsKept s (s.secretsGone z) [] [R.SEC_SEC_STAT, R.SEC_ZEROIZE_CNT] := .of_regs (.refl s) rfl
  refine ⟨?_, on_flag_same _ _ _ _ (by decide) rfl, (hm.trans (flag_memKept _ _ _ _)).trans (flag_memKept _ _ _ _),
    (hr.flag _ _ (.inl (by simp))).flag _ _ (.inl (by simp))⟩
  exact (on_flag_other _ _ _ _ _ _ (.inr (by decide))).trans (on_flag_same _ _ _ _ (by decide) rfl)

/-- The switch to scan is recorded. -/
theorem scanCleared_spec (s : State) :
    let t := (s.flag R.SEC_SEC_STAT F.SEC_SEC_STAT_SCAN_CLEARED true).inc R.SEC_ZEROIZE_CNT
    t.sec = s.sec ∧ (∀ f ∈ [F.SEC_SEC_STAT_SECRET_LOADED, F.SEC_SEC_STAT_ATTEST_EN],
      t.on R.SEC_SEC_STAT f = s.on R.SEC_SEC_STAT f) ∧ t.on R.SEC_SEC_STAT F.SEC_SEC_STAT_SCAN_CLEARED = true ∧ MemKept s t ∧
      RegsKept s t [] [R.SEC_SEC_STAT, R.SEC_ZEROIZE_CNT] := by
  have hrd : ((s.flag R.SEC_SEC_STAT F.SEC_SEC_STAT_SCAN_CLEARED true).inc R.SEC_ZEROIZE_CNT).rd R.SEC_SEC_STAT =
      (s.flag R.SEC_SEC_STAT F.SEC_SEC_STAT_SCAN_CLEARED true).rd R.SEC_SEC_STAT := by
    rw [rd_inc, if_neg (by decide)]
  refine ⟨by simp, fun f hf => ?_, (on_eq_of_rd hrd _).trans (on_flag_same _ _ _ _ (by decide) rfl),
    (flag_memKept _ _ _ _).trans (inc_memKept ..), ((RegsKept.refl s).flag _ _ (.inl (by simp))).inc _ (.inl (by simp))⟩
  simp only [List.mem_cons, List.not_mem_nil, or_false] at hf
  rcases hf with rfl | rfl <;>
    exact (on_eq_of_rd hrd _).trans (on_flag_other _ _ _ _ _ _ (.inr (by decide)))

/-! ### The responder -/

theorem spdm_closed {go : State → State} (h : s.spdmOpen = false) : s.spdm go = s := by
  unfold spdm
  rw [h]
  rfl

theorem spdm_unspecified {go : State → State} (h : s.spdmOpen = true)
    (ha : s.on R.SEC_SEC_STAT F.SEC_SEC_STAT_ATTEST_EN = false) : s.spdm go = s.answerSpdm .unspecified := by
  unfold spdm
  rw [h, ha]
  rfl

theorem spdm_go {go : State → State} (h : s.spdmOpen = true)
    (ha : s.on R.SEC_SEC_STAT F.SEC_SEC_STAT_ATTEST_EN = true) : s.spdm go = go s := by
  unfold spdm
  rw [h, ha]
  rfl

/-- A signature draws one free value for its nonce. -/
def nonceDrawn (s : State) : State :=
  { s with sec := { s.sec with draws := s.sec.draws + 1, signNonce := scalarOf (Config.random s.sec.draws).toNat } }

theorem aliasSign_state {x : BitVec 384} (l : List Nat) (h : s.sec.alias_ = some x) :
    (s.aliasSign l).2 = s.nonceDrawn.inc R.SEC_SIGNS := by
  unfold aliasSign
  rw [h]
  rfl

theorem nonceDrawn_spec (s : State) : s.nonceDrawn.sec.draws = s.sec.draws + 1 ∧ s.nonceDrawn.sec.alias_ = s.sec.alias_ ∧
    MemKept s s.nonceDrawn ∧ s.nonceDrawn.regs = s.regs := ⟨rfl, rfl, ⟨rfl, rfl, rfl, rfl, rfl, rfl⟩, rfl⟩

theorem challenge_signed {x : BitVec 384} (l : List Nat) (h : s.sec.alias_ = some x) :
    let t := (s.aliasSign l).2
    t.sec.draws = s.sec.draws + 1 ∧ t.rd R.SEC_SIGNS = s.rd R.SEC_SIGNS + 1 ∧ t.sec.alias_ = some x ∧ MemKept s t ∧
      RegsKept s t [] [R.SEC_SIGNS] := by
  obtain ⟨hd, ha, hm, hr⟩ := nonceDrawn_spec s
  simp only [aliasSign_state l h, inc_sec, hd, ha, h, true_and]
  refine ⟨?_, hm.trans (inc_memKept ..), (RegsKept.of_regs (.refl s) hr).inc _ (.inl (by simp))⟩
  rw [rd_inc, if_pos rfl, rd_eq_of_regs hr]
  rfl

theorem answerSpdm_spec (s : State) (a : Spdm) : (s.answerSpdm a).sec.answer = some a ∧
    (s.answerSpdm a).sec.draws = s.sec.draws ∧ (s.answerSpdm a).sec.alias_ = s.sec.alias_ ∧ MemKept s (s.answerSpdm a) ∧
    (s.answerSpdm a).regs = s.regs := ⟨rfl, rfl, rfl, ⟨rfl, rfl, rfl, rfl, rfl, rfl⟩, rfl⟩

end State
end Sys2Proof.Machine

namespace Sys2Proof.Safety
open Sys2Proof.Machine Sys2Proof.Machine.State

/-- Settles O46: the locks by `regCmd_lock`, the secrets by `scanEnable_allowed`, and the responder's answers by the three
cases of `spdm`. -/
theorem locksAndAttestation : Obligations.LocksAndAttestation := by
  unfold Obligations.LocksAndAttestation
  refine ⟨fun s z h => gives_of_eq rfl (scanEnable_allowed h) ?_,
    fun s z h => congrArg Host.Outcome.next (scanEnable_refused h), fun s r w ho hc => gives_of_eq rfl (regCmd_lock w.value ho) ?_,
    fun s h => congrArg Host.Outcome.next (if_pos h), fun s c hc h => ?_, fun s o l n b h => ⟨?_, ?_, ?_⟩,
    fun s c hc h ha => ?_, fun s h ha => ⟨?_, ?_, ?_⟩, fun s o l h ha => congrArg Host.Outcome.next (spdm_go h ha),
    fun s n x h ha hx => ?_, fun s n h ha => congrArg Host.Outcome.next (spdm_go h ha)⟩
  · obtain ⟨hl, he, hm, hr⟩ := statusGone_spec s z
    cases z with
    | false => exact ⟨rfl, rfl, rfl, rfl, rfl, rfl, rfl, rfl, hl, he, fun h => (Bool.false_ne_true h).elim, hm, hr⟩
    | true =>
      obtain ⟨hs, hf, ht, hm', hr'⟩ := scanCleared_spec (s.statusGone true)
      simp only [if_true, hs, hf _ (List.mem_cons_self ..), hf _ (List.mem_cons_of_mem _ (List.mem_cons_self ..)), hl, he, ht]
      exact ⟨rfl, rfl, rfl, rfl, rfl, rfl, rfl, rfl, trivial, trivial, fun _ => trivial, hm.trans hm', hr.trans hr'⟩
  · exact ⟨by rw [rd_wr_same]; rfl, wr_memKept .., (RegsKept.refl s).wr _ (.inl (by simp))⟩
  · simp only [List.mem_cons, List.not_mem_nil, or_false] at hc
    rcases hc with rfl | rfl | rfl | rfl
    · exact congrArg Host.Outcome.next (if_neg (by rw [h]; exact Bool.false_ne_true))
    · exact congrArg Host.Outcome.next (spdm_closed h)
    · exact congrArg Host.Outcome.next (spdm_closed h)
    · exact congrArg Host.Outcome.next (spdm_closed h)
  · exact congrArg Host.Outcome.next (spdm_closed h)
  · exact congrArg Host.Outcome.next (spdm_closed h)
  · exact congrArg Host.Outcome.next (spdm_closed h)
  · simp only [List.mem_cons, List.not_mem_nil, or_false] at hc
    rcases hc with rfl | rfl | rfl <;> exact congrArg Host.Outcome.next (spdm_unspecified h ha)
  · exact congrArg Host.Outcome.next (spdm_go h ha)
  · exact congrArg Host.Outcome.next (spdm_go h ha)
  · exact congrArg Host.Outcome.next (spdm_go h ha)
  · obtain ⟨h1, h2, h3, h4, h5⟩ := challenge_signed (bytes384 s.chainDigest ++ bytesBE 32 n.toNat) hx
    refine gives_of_eq rfl (spdm_go h ha) ?_
    obtain ⟨k1, k2, k3, k4, k5⟩ := answerSpdm_spec (s.aliasSign (bytes384 s.chainDigest ++ bytesBE 32 n.toNat)).2
      (.challengeAuth (s.aliasSign (bytes384 s.chainDigest ++ bytesBE 32 n.toNat)).1)
    exact ⟨k1, k2.trans h1, (rd_eq_of_regs k5 _).trans h2, k3.trans h3, h4.trans k4, h5.of_regs k5⟩

end Sys2Proof.Safety
end

section
/-! SUPPORT. The boot steps that end without a look at the memory, and the wait for the rails (R361, R452, R454). -/

namespace Sys2Proof.Machine
open Sys2Proof.Safety State

namespace State

variable {s : State} {b : BootIn}

/-- Nothing holds the boot. -/
def BootFree (s : State) : Prop :=
  s.inReset = false ∧ s.drogue = false ∧ s.tripped = false ∧ s.stalled = false ∧ s.clk.orderly = none

/-- While nothing holds the boot, the step's own operation runs. -/
theorem bootStepComplete_1 (h : s.BootFree) (hs : s.bootStep = 1) : s.bootStepComplete b = s.bootTo 2 := by
  obtain ⟨h1, h2, h3, h4, h5⟩ := h
  simp [bootStepComplete, h1, h2, h3, h4, h5, hs]

theorem bootStepComplete_3 (h : s.BootFree) (hs : s.bootStep = 3) : s.bootStepComplete b = s.bootStraps b := by
  obtain ⟨h1, h2, h3, h4, h5⟩ := h
  simp [bootStepComplete, h1, h2, h3, h4, h5, hs]

theorem bootStepComplete_10 (h : s.BootFree) (hs : s.bootStep = 10) : s.bootStepComplete b =
    if (s.bootBist b).on R.BIST_BOOT_FAILS F.BIST_BOOT_FAILS_BLOCK then (s.bootBist b).stall else (s.bootBist b).bootTo 11 := by
  obtain ⟨h1, h2, h3, h4, h5⟩ := h
  simp [bootStepComplete, h1, h2, h3, h4, h5, hs]

theorem bootStepComplete_stalled (h : s.stalled = true) : s.bootStepComplete b = s := by
  simp [bootStepComplete, h]

theorem bootTo_spec (s : State) {n : Nat} (hn : n < 16) : (s.bootTo n).bootStep = n ∧ MemKept s (s.bootTo n) ∧
    RegsKept s (s.bootTo n) [] [R.CLK_BOOT_STAT] :=
  ⟨(fld_put_same _ _ _ _ (by decide)).trans (Nat.mod_eq_of_lt hn), put_memKept _ _ _ _,
    (RegsKept.refl s).put _ _ (.inl (by simp))⟩

/-! ### The rails -/

/-- Flags at different addresses. -/
theorem on_foldl_flag {a : Nat → Nat} (ha : ∀ i j, a i = a j → i = j) (f : Fld) (hf : f.lsb + f.width ≤ 32) (hw : f.width = 1)
    (p : Nat → Bool) (l : List Nat) (s : State) (i : Nat) :
    (l.foldl (fun (t : State) r => t.flag (a r) f (p r)) s).on (a i) f = if i ∈ l then p i else s.on (a i) f := by
  induction l generalizing s with
  | nil => rfl
  | cons j l ih =>
    rw [List.foldl_cons, ih]
    by_cases hl : i ∈ l
    · simp [hl]
    · by_cases hj : i = j
      · subst hj
        simp [hl, on_flag_same _ _ _ _ hf hw]
      · have : a i ≠ a j := fun e => hj (ha _ _ e)
        simp [hl, hj, on_flag_other _ _ _ _ _ _ (.inl this)]

theorem railMon_page : ∀ r : Fin 7, pageOf (R.PWR_RAIL_MON r) = 0x004 := by decide

/-- Each rail is marked as the boot found it. -/
def railsMarked (s : State) (b : BootIn) : State :=
  (List.range 7).foldl (fun (t : State) r =>
    t.flag (R.PWR_RAIL_MON r) F.PWR_RAIL_MON_OUT (b.railsOut.any fun x => decide (x.val = r))) s

theorem railsMarked_on (r : Fin 7) : (s.railsMarked b).on (R.PWR_RAIL_MON r) F.PWR_RAIL_MON_OUT =
    b.railsOut.any fun x => decide (x.val = r) := by
  have ha : ∀ i j, R.PWR_RAIL_MON i = R.PWR_RAIL_MON j → i = j := fun i j h => by
    unfold R.PWR_RAIL_MON at h
    omega
  unfold railsMarked
  rw [on_foldl_flag ha F.PWR_RAIL_MON_OUT (by decide) rfl (fun r => b.railsOut.any fun x => decide (x.val = r)),
    if_pos (List.mem_range.mpr r.isLt)]

theorem railsMarked_memKept : MemKept s (s.railsMarked b) := MemKept.foldl _ _ fun _ _ => flag_memKept _ _ _ _

theorem railsMarked_regsKept : RegsKept s (s.railsMarked b) [0x004] [] :=
  RegsKept.foldl _ _ fun t r hr => (RegsKept.refl t).flag _ _ <| .inr <| by
    rw [railMon_page ⟨r, List.mem_range.mp hr⟩]
    exact List.mem_singleton_self _

/-- What step 3 notes on the clocks: the straps, whether a rail is waited for, and from when the boot is timed. -/
def strapsClk (s : State) (b : BootIn) (c : ClkState) : ClkState :=
  let good := s.clk.railWait && b.railsOut.isEmpty && s.on R.CLK_RESET_CAUSE F.CLK_RESET_CAUSE_POR
  { c with
    railWait := !b.railsOut.isEmpty, straps := b.straps.toNat, bootFrom := if good then c.up else c.bootFrom }

/-- The straps are stored. -/
def strapsTaken (s : State) (b : BootIn) : State := (s.railsMarked b).updClk (strapsClk (s.railsMarked b) b)

theorem bootStraps_eq : s.bootStraps b = if b.railsOut.isEmpty then (s.strapsTaken b).bootTo 4 else s.strapsTaken b := rfl

theorem updClk_spec (s : State) (f : ClkState → ClkState) : (s.updClk f).clk = f s.clk ∧ MemKept s (s.updClk f) ∧
    (s.updClk f).regs = s.regs ∧ (s.updClk f).fcol = s.fcol ∧ (s.updClk f).spare = s.spare ∧ (s.updClk f).place = s.place :=
  ⟨rfl, ⟨rfl, rfl, rfl, rfl, rfl, rfl⟩, rfl, rfl, rfl, rfl⟩

theorem strapsTaken_spec (s : State) (b : BootIn) : (s.strapsTaken b).clk.straps = b.straps.toNat ∧
    (s.strapsTaken b).clk.railWait = (!b.railsOut.isEmpty) ∧ MemKept s (s.strapsTaken b) ∧
    (s.strapsTaken b).regs = (s.railsMarked b).regs ∧ (s.strapsTaken b).fcol = (s.railsMarked b).fcol ∧
    (s.strapsTaken b).spare = (s.railsMarked b).spare ∧ (s.strapsTaken b).place = (s.railsMarked b).place := by
  obtain ⟨hc, hm, hk⟩ := updClk_spec (s.railsMarked b) (strapsClk (s.railsMarked b) b)
  exact ⟨congrArg ClkState.straps hc, congrArg ClkState.railWait hc, railsMarked_memKept.trans hm, hk⟩

/-! ### Calm states -/

theorem flag_calm {a : Nat} {f : Fld} {x : Bool} (h : Calm s) : Calm (s.flag a f x) := h.of_parts rfl rfl rfl rfl
theorem wr_calm {a : Nat} {v : Word} (h : Calm s) : Calm (s.wr a v) := h.of_parts rfl rfl rfl rfl
theorem bootTo_calm {n : Nat} (h : Calm s) : Calm (s.bootTo n) := h.of_parts rfl rfl rfl rfl

theorem railsMarked_calm (h : Calm s) : Calm (s.railsMarked b) := by
  unfold railsMarked
  generalize List.range 7 = l
  induction l generalizing s with
  | nil => exact h
  | cons r l ih => exact ih (flag_calm h)

theorem strapsTaken_calm (h : Calm s) : Calm (s.strapsTaken b) := by
  obtain ⟨_, _, _, _, hf, hs, hp⟩ := strapsTaken_spec s b
  exact (railsMarked_calm h).of_parts (by rw [hf]) (by rw [hf]) (by rw [hs]) (by rw [hp])

/-- A step of the boot is read behind the ladders as before them. -/
theorem settle_bootStep (h : Calm s) : s.settle.bootStep = s.bootStep := fld_eq_of_rd (settle_rd h _ (by decide)) _

/-- The BIST of the boot without a failing unit. -/
theorem bootBist_clean (h : b.bist = []) : s.bootBist b =
    (s.wr R.BIST_BOOT_FAILS 0).flag R.BIST_BIST_STAT F.BIST_BIST_STAT_BOOT_DONE true := by
  unfold bootBist
  rw [h]
  rfl

/-- Step 10 has ended without a failing unit. -/
def bistPassed (s : State) : State :=
  ((s.wr R.BIST_BOOT_FAILS 0).flag R.BIST_BIST_STAT F.BIST_BIST_STAT_BOOT_DONE true).bootTo 11

theorem bistPassed_spec (s : State) : s.bistPassed.bootStep = 11 ∧ s.bistPassed.rd R.BIST_BOOT_FAILS = 0 ∧
    s.bistPassed.on R.BIST_BIST_STAT F.BIST_BIST_STAT_BOOT_DONE = true ∧ MemKept s s.bistPassed := by
  obtain ⟨hb, hm, hr⟩ := bootTo_spec ((s.wr R.BIST_BOOT_FAILS 0).flag R.BIST_BIST_STAT F.BIST_BIST_STAT_BOOT_DONE true)
    (n := 11) (by decide)
  refine ⟨hb, (hr _ (by simp) (by decide)).trans ?_, (on_eq_of_rd (hr _ (by simp) (by decide)) _).trans
    (on_flag_same _ _ _ _ (by decide) rfl), ((wr_memKept ..).trans (flag_memKept _ _ _ _)).trans hm⟩
  rw [rd_flag, if_neg (by decide), rd_wr_same]

theorem bootStepComplete_10_clean (h : s.BootFree) (hs : s.bootStep = 10) (hb : b.bist = []) :
    s.bootStepComplete b = s.bistPassed := by
  rw [bootStepComplete_10 h hs, bootBist_clean hb, if_neg]
  · rfl
  · rw [Bool.not_eq_true, on_flag_other _ _ _ _ _ _ (.inl (by decide)), on_eq_false, fld_wr_same]
    exact Fld.get_zero _

end State
end Sys2Proof.Machine

namespace Sys2Proof.Safety
open Sys2Proof.Machine Sys2Proof.Machine.State

/-- Settles O5: each step by its own operation, which a calm state's ladders leave as it is. -/
theorem bootSteps : Obligations.BootSteps := by
  unfold Obligations.BootSteps
  refine ⟨fun s b h1 h2 h3 h4 h5 hc hs => ?_, fun s b h1 h2 h3 h4 h5 hc hs hb => ?_, fun s b r h1 h2 h3 h4 h5 hc hs hb => ?_,
    fun s b h1 h2 h3 h4 h5 hc hs hb => ?_, fun s b h hc => ?_, fun s r mv h => ?_, fun s h1 h2 h3 => ?_⟩
  · obtain ⟨hb, hm, hr⟩ := bootTo_spec s (n := 2) (by decide)
    refine gives_of_eq rfl (congrArg settle (bootStepComplete_1 ⟨h1, h2, h3, h4, h5⟩ hs)) ?_
    exact ⟨(settle_bootStep (bootTo_calm hc)).trans hb, hm.trans (.settle (bootTo_calm hc)),
      (hr.mono (by simp) (by simp)).trans (.settle (bootTo_calm hc) (by simp))⟩
  · obtain ⟨h6, h7, h8, h9, _⟩ := strapsTaken_spec s b
    obtain ⟨hn, hm, hr⟩ := bootTo_spec (s.strapsTaken b) (n := 4) (by decide)
    have hk : Calm ((s.strapsTaken b).bootTo 4) := bootTo_calm (strapsTaken_calm hc)
    refine gives_of_eq rfl (congrArg settle ((bootStepComplete_3 ⟨h1, h2, h3, h4, h5⟩ hs).trans
      ((bootStraps_eq).trans (if_pos (by rw [hb]; rfl))))) ?_
    refine ⟨(settle_bootStep hk).trans hn, ?_, ?_, (h8.trans hm).trans (.settle hk), fun r => ?_⟩
    · rw [settle_clk hk]
      exact h6
    · rw [settle_clk hk]
      exact h7.trans (by rw [hb]; rfl)
    · rw [on_eq_of_rd (settle_rd hk _ (by rw [railMon_page]; decide)), on_eq_of_rd (hr _ (by simp) (by revert r; decide)),
        on_eq_of_rd (rd_eq_of_regs h9 _), railsMarked_on, hb]
      rfl
  · obtain ⟨h6, h7, h8, h9, _⟩ := strapsTaken_spec s b
    have hk : Calm (s.strapsTaken b) := strapsTaken_calm hc
    have he : b.railsOut.isEmpty = false := List.isEmpty_eq_false_iff.mpr (List.ne_nil_of_mem hb)
    refine gives_of_eq rfl (congrArg settle ((bootStepComplete_3 ⟨h1, h2, h3, h4, h5⟩ hs).trans
      ((bootStraps_eq).trans (if_neg (by rw [he]; exact Bool.false_ne_true))))) ?_
    refine ⟨(settle_bootStep hk).trans ((fld_eq_of_rd ((rd_eq_of_regs h9 _).trans
      (railsMarked_regsKept _ (by decide) (by simp))) _).trans hs), ?_, ?_, h8.trans (.settle hk)⟩
    · rw [settle_clk hk, h7, he]
      rfl
    · rw [on_eq_of_rd (settle_rd hk _ (by rw [railMon_page]; decide)), on_eq_of_rd (rd_eq_of_regs h9 _), railsMarked_on,
        List.any_eq_true]
      exact ⟨r, hb, decide_eq_true rfl⟩
  · obtain ⟨hn, hf, hd, hm⟩ := bistPassed_spec s
    have hk : Calm s.bistPassed := bootTo_calm (flag_calm (wr_calm hc))
    refine gives_of_eq rfl (congrArg settle (bootStepComplete_10_clean ⟨h1, h2, h3, h4, h5⟩ hs hb)) ?_
    exact ⟨(settle_bootStep hk).trans hn, (settle_rd hk _ (by decide)).trans hf,
      (on_eq_of_rd (settle_rd hk _ (by decide)) _).trans hd, hm.trans (.settle hk)⟩
  · exact gives_of_eq rfl (congrArg settle (bootStepComplete_stalled h))
      ⟨.settle hc, .settle hc (by simp), settle_bootStep hc⟩
  · refine gives_of_eq rfl (if_neg (by rw [h]; exact Bool.false_ne_true)) ⟨?_, on_flag_same _ _ _ _ (by decide) rfl,
      (put_memKept _ _ _ _).trans (flag_memKept _ _ _ _),
      ((RegsKept.refl s).put _ _ (.inl (by simp))).flag _ _ (.inl (by simp))⟩
    exact (fld_flag_other _ _ _ _ _ _ (.inr (by decide))).trans ((fld_put_same _ _ _ _ (by decide)).trans
      (Nat.mod_eq_of_lt mv.isLt))
  · refine congrArg Host.Outcome.next (if_pos ?_ : s.railWaitExpiry = s.stall)
    simp [h1, h2, h3]

end Sys2Proof.Safety
end

section
/-! SUPPORT. Bit maps of registers, and the choice of the reference on a running crystal (R342). -/

namespace Sys2Proof.Machine
open Sys2Proof.Safety State

namespace State

variable {s : State} {a : Nat} {f : Fld}

/-- A bit that a map's write changes. -/
theorem bit_setBit_same (i : Nat) (b : Bool) (hf : f.lsb + f.width ≤ 32) (hi : i < f.width) : (s.setBit a f i b).bit a f i = b := by
  unfold bit setBit
  rw [fld_put_same _ _ _ _ hf, Nat.testBit_mod_two_pow, decide_eq_true hi, Bool.true_and]
  split
  · assumption
  · rename_i h
    rw [Nat.testBit_xor, Nat.testBit_two_pow_self]
    revert h
    cases (s.fld a f).testBit i <;> cases b <;> simp

/-- The other bits of the map stay. -/
theorem bit_setBit_other {i j : Nat} (b : Bool) (hf : f.lsb + f.width ≤ 32) (hj : j ≠ i) :
    (s.setBit a f i b).bit a f j = s.bit a f j := by
  have hw : s.fld a f % 2 ^ f.width = s.fld a f := Nat.mod_eq_of_lt (f.get_lt _)
  have hx : (s.fld a f).testBit j = (decide (j < f.width) && (s.fld a f).testBit j) := by
    rw [← Nat.testBit_mod_two_pow, hw]
  unfold bit setBit
  rw [fld_put_same _ _ _ _ hf, Nat.testBit_mod_two_pow]
  split
  · exact hx.symm
  · rw [Nat.testBit_xor, Nat.testBit_two_pow_of_ne hj.symm, Bool.xor_false]
    exact hx.symm

theorem setBit_memKept (i : Nat) (b : Bool) : MemKept s (s.setBit a f i b) := ⟨rfl, rfl, rfl, rfl, rfl, rfl⟩

/-- Other fields and registers stay. -/
theorem fld_setBit_other {c : Nat} {g : Fld} (i : Nat) (b : Bool)
    (h : c ≠ a ∨ g.lsb + g.width ≤ f.lsb ∨ f.lsb + f.width ≤ g.lsb) : (s.setBit a f i b).fld c g = s.fld c g :=
  fld_put_other _ _ _ _ _ _ h

theorem put_calm {n : Nat} (h : Calm s) : Calm (s.put a f n) := h.of_parts rfl rfl rfl rfl
theorem setBit_calm {i : Nat} {b : Bool} (h : Calm s) : Calm (s.setBit a f i b) := h.of_parts rfl rfl rfl rfl

/-! ### The reference -/

/-- A write of the CLK page, on the crystal. -/
theorem afterWrite_clk {pg : Nat} (hp : firstOf pg = 0x003) : s.afterWrite pg = s.refCheck := by
  simp [afterWrite, hp]

/-- The endpoint in reset starts nothing. -/
theorem endpointStart_reset (h : s.clk.perstN = true) : s.endpointStart = s := by
  unfold endpointStart
  rw [if_pos]
  simp [h]

theorem pcieClock_reset (hx : s.xoOk = true) (h : s.clk.perstN = true) : s.pcieClock = s := by
  unfold pcieClock
  rw [hx, Bool.or_true, if_pos rfl, endpointStart_reset h]

/-- The PLLs lock on a new reference. -/
def pllsLocked (s : State) : State :=
  let s := ([0, 1, 2, 3, 4] : List Nat).foldl (fun t i => t.setLock i true) s
  (s.updClk fun c => { c with unlocked := c.unlocked.filter (· == 5) }).flag R.MGMT_GONDOLA_STAT
    F.MGMT_GONDOLA_STAT_ON_TOSC false

theorem refTo_eq (s : State) (n : Nat) : s.refTo n =
    let t := (if s.refSrc = 0 then s.pllsLocked else s).put R.CLK_CLK_STAT F.CLK_CLK_STAT_REF_SRC n
    if n = 1 then t.flag R.CLK_CLK_CTL F.CLK_CLK_CTL_REF_PCIE false else t := rfl

theorem fld_updClk (h : ClkState → ClkState) (c : Nat) (g : Fld) : (s.updClk h).fld c g = s.fld c g := rfl
theorem rd_updClk (h : ClkState → ClkState) (c : Nat) : (s.updClk h).rd c = s.rd c := rfl

theorem setLock_clk (i : Nat) (b : Bool) : (s.setLock i b).clk = s.clk := rfl

/-- Locks leave the other fields. -/
theorem fld_setLock_other {c : Nat} {g : Fld} (i : Nat) (b : Bool) (h : c ≠ R.CLK_CLK_STAT ∨
      g.lsb + g.width ≤ F.CLK_CLK_STAT_PLL_LOCK.lsb ∨ F.CLK_CLK_STAT_PLL_LOCK.lsb + F.CLK_CLK_STAT_PLL_LOCK.width ≤ g.lsb) :
    (s.setLock i b).fld c g = s.fld c g := fld_setBit_other i b h

theorem pllLock_setLock_same {i : Nat} (b : Bool) (hi : i < 6) : (s.setLock i b).pllLock i = b :=
  bit_setBit_same i b (by decide) hi

theorem pllLock_setLock_other {i j : Nat} (b : Bool) (h : j ≠ i) : (s.setLock i b).pllLock j = s.pllLock j :=
  bit_setBit_other b (by decide) h

theorem pllLock_congr {t : State} (h : t.rd R.CLK_CLK_STAT = s.rd R.CLK_CLK_STAT) (i : Nat) : t.pllLock i = s.pllLock i := by
  unfold pllLock bit
  rw [fld_eq_of_rd h]

theorem foldl_setLock (l : List Nat) (b : Bool) (s : State) : (l.foldl (fun t i => t.setLock i b) s).clk = s.clk ∧
    ∀ c g, (c ≠ R.CLK_CLK_STAT ∨ g.lsb + g.width ≤ F.CLK_CLK_STAT_PLL_LOCK.lsb ∨
      F.CLK_CLK_STAT_PLL_LOCK.lsb + F.CLK_CLK_STAT_PLL_LOCK.width ≤ g.lsb) →
      (l.foldl (fun t i => t.setLock i b) s).fld c g = s.fld c g := by
  induction l generalizing s with
  | nil => exact ⟨rfl, fun _ _ _ => rfl⟩
  | cons i l ih =>
    obtain ⟨hc, hf⟩ := ih (s.setLock i b)
    exact ⟨hc, fun c g h => (hf c g h).trans (fld_setLock_other i b h)⟩

theorem foldl_setLock_lock {l : List Nat} {b : Bool} {s : State} (hl : ∀ i ∈ l, i < 6) (i : Nat) :
    (l.foldl (fun t i => t.setLock i b) s).pllLock i = if i ∈ l then b else s.pllLock i := by
  induction l generalizing s with
  | nil => rfl
  | cons j l ih =>
    rw [List.foldl_cons, ih (fun k hk => hl k (List.mem_cons_of_mem _ hk))]
    by_cases h : i ∈ l
    · simp [h]
    · by_cases hj : i = j
      · subst hj
        simp [h, pllLock_setLock_same b (hl i (List.mem_cons_self ..))]
      · simp [h, hj, pllLock_setLock_other b hj]

/-- What the PLLs' locking leaves of the other registers' fields and of the clock controllers. -/
theorem pllsLocked_fld {c : Nat} {g : Fld} (h1 : c ≠ R.MGMT_GONDOLA_STAT) (h2 : c ≠ R.CLK_CLK_STAT ∨
      g.lsb + g.width ≤ F.CLK_CLK_STAT_PLL_LOCK.lsb ∨ F.CLK_CLK_STAT_PLL_LOCK.lsb + F.CLK_CLK_STAT_PLL_LOCK.width ≤ g.lsb) :
    s.pllsLocked.fld c g = s.fld c g := by
  unfold pllsLocked
  obtain ⟨_, hf⟩ := foldl_setLock [0, 1, 2, 3, 4] true s
  generalize ([0, 1, 2, 3, 4] : List Nat).foldl (fun t i => t.setLock i true) s = u at hf ⊢
  exact (fld_flag_other _ _ _ _ _ _ (.inl h1)).trans ((fld_updClk _ _ _).trans (hf c g h2))

theorem pllsLocked_lock {i : Nat} (hi : i < 5) : s.pllsLocked.pllLock i = true := by
  have hl := foldl_setLock_lock (l := [0, 1, 2, 3, 4]) (b := true) (s := s) (by decide) i
  unfold pllsLocked
  generalize ([0, 1, 2, 3, 4] : List Nat).foldl (fun t i => t.setLock i true) s = u at hl ⊢
  have hm : i ∈ ([0, 1, 2, 3, 4] : List Nat) := by
    simp only [List.mem_cons, List.not_mem_nil, or_false]
    omega
  rw [if_pos hm] at hl
  refine (pllLock_congr ?_ i).trans hl
  rw [rd_flag, if_neg (by decide), rd_updClk]

theorem pllsLocked_clk : s.pllsLocked.clk = { s.clk with unlocked := s.clk.unlocked.filter (· == 5) } := by
  obtain ⟨hc, _⟩ := foldl_setLock [0, 1, 2, 3, 4] true s
  unfold pllsLocked
  generalize ([0, 1, 2, 3, 4] : List Nat).foldl (fun t i => t.setLock i true) s = u at hc ⊢
  exact congrArg (fun c : ClkState => { c with unlocked := c.unlocked.filter (· == 5) }) hc

/-- The reference takes a source: what its registers show then. -/
theorem refTo_spec (s : State) {n : Nat} (hn : n < 4) : (s.refTo n).refSrc = n ∧
    (∀ g, g.lsb + g.width ≤ F.CLK_CLK_STAT_PLL_LOCK.lsb ∨ F.CLK_CLK_STAT_PLL_LOCK.lsb + F.CLK_CLK_STAT_PLL_LOCK.width ≤ g.lsb →
      g.lsb + g.width ≤ F.CLK_CLK_STAT_REF_SRC.lsb ∨ F.CLK_CLK_STAT_REF_SRC.lsb + F.CLK_CLK_STAT_REF_SRC.width ≤ g.lsb →
      (s.refTo n).fld R.CLK_CLK_STAT g = s.fld R.CLK_CLK_STAT g) ∧ (s.refTo n).clk.perstN = s.clk.perstN := by
  rw [refTo_eq]
  have hb : ∀ g, g.lsb + g.width ≤ F.CLK_CLK_STAT_PLL_LOCK.lsb ∨
      F.CLK_CLK_STAT_PLL_LOCK.lsb + F.CLK_CLK_STAT_PLL_LOCK.width ≤ g.lsb →
      (if s.refSrc = 0 then s.pllsLocked else s).fld R.CLK_CLK_STAT g = s.fld R.CLK_CLK_STAT g := fun g h => by
    split
    · exact pllsLocked_fld (by decide) (.inr h)
    · rfl
  have hc : (if s.refSrc = 0 then s.pllsLocked else s).clk.perstN = s.clk.perstN := by
    split
    · rw [pllsLocked_clk]
    · rfl
  generalize (if s.refSrc = 0 then s.pllsLocked else s) = u at hb hc ⊢
  have hs : (u.put R.CLK_CLK_STAT F.CLK_CLK_STAT_REF_SRC n).refSrc = n :=
    (fld_put_same _ _ _ _ (by decide)).trans (Nat.mod_eq_of_lt hn)
  have hg : ∀ g, g.lsb + g.width ≤ F.CLK_CLK_STAT_REF_SRC.lsb ∨
      F.CLK_CLK_STAT_REF_SRC.lsb + F.CLK_CLK_STAT_REF_SRC.width ≤ g.lsb →
      (u.put R.CLK_CLK_STAT F.CLK_CLK_STAT_REF_SRC n).fld R.CLK_CLK_STAT g = u.fld R.CLK_CLK_STAT g :=
    fun g h => fld_put_other _ _ _ _ _ _ (.inr h)
  dsimp only
  split
  · refine ⟨(fld_flag_other _ _ _ _ _ _ (.inl (by decide))).trans hs, fun g h1 h2 => ?_, hc⟩
    exact (fld_flag_other _ _ _ _ _ _ (.inl (by decide))).trans ((hg g h2).trans (hb g h1))
  · exact ⟨hs, fun g h1 h2 => (hg g h2).trans (hb g h1), hc⟩

end State
end Sys2Proof.Machine
end

section
/-! SUPPORT. Judgement of the crystal and the windows of the clock monitor (R345 to R347). -/

namespace Sys2Proof.Machine
open Sys2Proof.Safety State

namespace State

variable {s : State} {n : Nat}

/-- The count of a judgement window is shown, and the run of good ones. -/
def windowCounted (s : State) (n good : Nat) : State :=
  (s.wr R.CLK_XO_MEAS (BitVec.ofNat 32 (n % 65536))).put R.CLK_CLK_STAT F.CLK_CLK_STAT_XO_GOOD good

theorem xoJudgeWindow_good (hj : s.judging = true) (hn : 48500 ≤ n ∧ n ≤ 51500) : s.xoJudgeWindow n =
    let good := s.fld R.CLK_CLK_STAT F.CLK_CLK_STAT_XO_GOOD + 1
    if good = 4 then (s.windowCounted n good).xoJudged else s.windowCounted n good := by
  have hf : (s.wr R.CLK_XO_MEAS (BitVec.ofNat 32 (n % 65536))).fld R.CLK_CLK_STAT F.CLK_CLK_STAT_XO_GOOD =
      s.fld R.CLK_CLK_STAT F.CLK_CLK_STAT_XO_GOOD := fld_wr_other _ _ _ _ _ (by decide)
  unfold xoJudgeWindow windowCounted
  rw [hj]
  simp only [Bool.not_true, Bool.false_eq_true, if_false, if_pos hn, hf]

theorem xoJudgeWindow_bad (hj : s.judging = true) (hn : ¬ (48500 ≤ n ∧ n ≤ 51500)) :
    s.xoJudgeWindow n = s.windowCounted n 0 := by
  unfold xoJudgeWindow windowCounted
  rw [hj]
  simp only [Bool.not_true, Bool.false_eq_true, if_false, if_neg hn, OfNat.zero_ne_ofNat]

theorem windowCounted_spec (s : State) {k : Nat} (w : BitVec 16) (hk : k < 8) :
    let t := s.windowCounted w.toNat k
    t.rd R.CLK_XO_MEAS = w.setWidth 32 ∧ t.fld R.CLK_CLK_STAT F.CLK_CLK_STAT_XO_GOOD = k ∧ t.xoOk = s.xoOk ∧
      t.drogue = s.drogue ∧ t.clk = s.clk := by
  refine ⟨?_, (fld_put_same _ _ _ _ (by decide)).trans (Nat.mod_eq_of_lt hk), ?_, ?_, rfl⟩
  · refine (rd_put ..).trans ((if_neg (by decide)).trans ((rd_wr_same ..).trans ?_))
    refine BitVec.eq_of_toNat_eq ?_
    have := w.isLt
    simp only [BitVec.toNat_ofNat, BitVec.toNat_setWidth]
    omega
  · exact (on_put_other _ _ _ _ _ _ (.inr (by decide))).trans (on_eq_of_rd (rd_wr_other _ _ _ _ (by decide)) _)
  · exact (on_put_other _ _ _ _ _ _ (.inr (by decide))).trans (on_eq_of_rd (rd_wr_other _ _ _ _ (by decide)) _)

/-! ### The crystal is judged stable -/

/-- The judgement shows. -/
def xoShown (s : State) : State :=
  ((s.flag R.CLK_CLK_STAT F.CLK_CLK_STAT_XO_OK true).flag R.CLK_CLK_STAT F.CLK_CLK_STAT_AON_XO true).flag
    R.CLK_CLK_STAT F.CLK_CLK_STAT_XO_RESTART false

/-- The monitor's run of bad windows starts anew. -/
def xoCounted (s : State) : State := s.xoShown.updClk fun c => { c with xoBad := 0, judged := true }

/-- What the judgement notes before the reference moves: a boot that waits at step 6 no longer stalls. -/
def xoNoted (s : State) : State :=
  if s.xoCounted.bootStep = 6 then s.xoCounted.flag R.CLK_BOOT_STAT F.CLK_BOOT_STAT_STALLED false else s.xoCounted

theorem xoJudged_eq (s : State) : s.xoJudged =
    (if s.xoNoted.drogue then s.xoNoted.drogueExit 1 else s.xoNoted.refTo 1).pcieClock := rfl

theorem xoCounted_spec (s : State) : s.xoCounted.xoOk = true ∧ s.xoCounted.drogue = s.drogue ∧
    s.xoCounted.clk.perstN = s.clk.perstN := by
  have hr : s.xoCounted.rd R.CLK_CLK_STAT = s.xoShown.rd R.CLK_CLK_STAT := rd_updClk _ _
  refine ⟨(on_eq_of_rd hr _).trans ?_, (on_eq_of_rd hr _).trans ?_, rfl⟩
  · unfold xoShown
    rw [on_flag_other _ _ _ _ _ _ (.inr (by decide)), on_flag_other _ _ _ _ _ _ (.inr (by decide)),
      on_flag_same _ _ _ _ (by decide) rfl]
  · unfold xoShown
    rw [on_flag_other _ _ _ _ _ _ (.inr (by decide)), on_flag_other _ _ _ _ _ _ (.inr (by decide)),
      on_flag_other _ _ _ _ _ _ (.inr (by decide))]
    rfl

theorem xoNoted_spec (s : State) : s.xoNoted.xoOk = true ∧ s.xoNoted.drogue = s.drogue ∧
    s.xoNoted.clk.perstN = s.clk.perstN := by
  obtain ⟨hx, hd, hp⟩ := xoCounted_spec s
  unfold xoNoted
  split
  · exact ⟨(on_flag_other _ _ _ _ _ _ (.inl (by decide))).trans hx,
      (on_flag_other _ _ _ _ _ _ (.inl (by decide))).trans hd, by rwa [flag_clk]⟩
  · exact ⟨hx, hd, hp⟩

/-- With the endpoint in reset, and out of Drogue mode, the crystal becomes the reference. -/
theorem xoJudged_spec (hd : s.drogue = false) (hp : s.clk.perstN = true) : s.xoJudged.xoOk = true ∧ s.xoJudged.refSrc = 1 := by
  obtain ⟨hx, hd', hp'⟩ := xoNoted_spec s
  obtain ⟨hr, hf, hc⟩ := refTo_spec s.xoNoted (n := 1) (by decide)
  have hx' : (s.xoNoted.refTo 1).xoOk = true := by
    unfold xoOk on at hx ⊢
    rwa [hf _ (by decide) (by decide)]
  rw [xoJudged_eq, hd', hd, if_neg Bool.false_ne_true, pcieClock_reset hx' (hc.trans (hp'.trans hp))]
  exact ⟨hx', hr⟩

/-! ### The monitor -/

theorem monitorWindow_xo (hi : s.inReset = false) (hd : s.drogue = false) (hx : s.xoOk = true) : s.monitorWindow .xo n =
    if !s.monBad n then s.updClk fun x => { x with xoBad := 0 }
    else if s.clk.xoBad = 0 then s.updClk fun x => { x with xoBad := 1 } else s.xoTrip := by
  unfold monitorWindow
  rw [hi, hd, hx]
  rfl

theorem monitorWindow_link (hi : s.inReset = false) (hd : s.drogue = false) (hx : s.linkMonRuns = true) :
    s.monitorWindow .link n =
    if !s.monBad n then s.updClk fun x => { x with linkBad := 0 }
    else if s.clk.linkBad = 0 then s.updClk fun x => { x with linkBad := 1 } else s.linkTrip := by
  unfold monitorWindow
  rw [hi, hd, hx]
  rfl

/-- The amplifier is enabled again. -/
def amplified (s : State) : State := s.updClk fun c => { c with ampOff := false }

theorem ampEnable_off (h : s.clk.ampOff = true) :
    s.ampEnable = s.amplified.put R.CLK_CLK_STAT F.CLK_CLK_STAT_XO_GOOD 0 := if_pos h

end State
end Sys2Proof.Machine

namespace Sys2Proof.Safety
open Sys2Proof.Machine Sys2Proof.Machine.State

theorem judging_xoOk {s : State} (h : s.judging = true) : s.xoOk = false := by
  unfold judging at h
  simp only [Bool.and_eq_true, Bool.not_eq_true'] at h
  exact h.1.2

/-- Settles O2: the windows of the judgement by their count, and the windows of the monitor by the run of bad ones. -/
theorem crystalAndMonitor : Obligations.CrystalAndMonitor := by
  unfold Obligations.CrystalAndMonitor
  refine ⟨fun s h1 h2 h3 => ?_, fun s n hj hn hg => ?_, fun s n hj hn => ?_, fun s n hj hn hg hd hp => ?_,
    fun s n hi hd hx hb => ?_, fun s n hi hd hx hb hz => ?_, fun s n hi hd hx hb hz => ?_, fun s h => ?_, fun s h => ?_⟩
  · refine congrArg Host.Outcome.next (if_pos ?_ : s.xoWait = _)
    simp [h1, h2, h3]
  · obtain ⟨h1, h2, h3, _⟩ := windowCounted_spec s (k := s.fld R.CLK_CLK_STAT F.CLK_CLK_STAT_XO_GOOD + 1) n (by omega)
    refine gives_of_eq rfl ((xoJudgeWindow_good hj hn).trans (if_neg (by omega))) ⟨h1, h2, h3.trans (judging_xoOk hj)⟩
  · obtain ⟨h1, h2, h3, _⟩ := windowCounted_spec s (k := 0) n (by decide)
    exact gives_of_eq rfl (xoJudgeWindow_bad hj (by omega)) ⟨h1, h2, h3.trans (judging_xoOk hj)⟩
  · obtain ⟨_, _, _, h4, h5⟩ := windowCounted_spec s (k := s.fld R.CLK_CLK_STAT F.CLK_CLK_STAT_XO_GOOD + 1) n (by omega)
    refine gives_of_eq rfl ((xoJudgeWindow_good hj hn).trans (if_pos (by omega))) ?_
    exact xoJudged_spec (h4.trans hd) ((congrArg ClkState.perstN h5).trans hp)
  · exact congrArg Host.Outcome.next ((monitorWindow_xo hi hd hx).trans (if_pos (by rw [hb]; rfl)))
  · refine congrArg Host.Outcome.next ((monitorWindow_xo hi hd hx).trans ((if_neg (by rw [hb]; decide)).trans ?_))
    rw [if_pos hz]
    rfl
  · refine congrArg Host.Outcome.next ((monitorWindow_link hi hd hx).trans ((if_neg (by rw [hb]; decide)).trans ?_))
    rw [if_pos hz]
    rfl
  · refine gives_of_eq rfl (ampEnable_off h) ⟨rfl, (fld_put_same _ _ _ _ (by decide)).trans rfl, ?_⟩
    exact (RegsKept.of_regs (.refl s) rfl : RegsKept s s.amplified [] [R.CLK_CLK_STAT]).put _ _ (.inl (by simp))
  · exact congrArg Host.Outcome.next (if_pos h)

end Sys2Proof.Safety
end

section
/-! SUPPORT. The emergency reference, the bus divider, the PLLs and the measuring counter (R342, R344, R353, R354, R364,
R401). -/

namespace Sys2Proof.Machine
open Sys2Proof.Safety State

namespace State

variable {s : State} {path : Path}

/-- The softly writable bits are those of lanes. -/
theorem softBits_clk {a : Nat} (h : firstOf (pageOf a) = 0x003) : s.softBits a = 0 := by
  simp [softBits, h]

/-! ### CLK_CTL -/

/-- What a write of CLK_CTL makes of the register but for REF_PCIE. -/
def clkCtl (s : State) (v : Word) : Word := (s.rd R.CLK_CLK_CTL &&& ~~~67108623#32) ||| (v &&& 67108623#32)

theorem clkCtl_get (v : Word) {f : Fld} (h : f.mask &&& 67108623#32 = f.mask) : f.get (s.clkCtl v) = f.get v :=
  Fld.get_merge _ _ h

/-- The register takes the word, REF_PCIE kept. -/
def clkCtlTaken (s : State) (v : Word) : State :=
  s.wr R.CLK_CLK_CTL (F.CLK_CLK_CTL_REF_PCIE.set (F.CLK_CLK_CTL_REF_PCIE.get (s.rd R.CLK_CLK_CTL)) (s.clkCtl v))

theorem wrClk_ctl (old new cmd : Word) : s.wrClk 0x40 old new cmd =
    let t := s.wr R.CLK_CLK_CTL (F.CLK_CLK_CTL_REF_PCIE.set (F.CLK_CLK_CTL_REF_PCIE.get old) new)
    if F.CLK_CLK_CTL_REF_PCIE.get new = 1 ∧ F.CLK_CLK_CTL_REF_PCIE.get old = 0 ∧ t.refPcieOpen then t.refPcieSet else t := by
  unfold wrClk
  rw [if_pos rfl]

theorem regCmd_clkCtl (v : Word) (ho : Open s path R.CLK_CLK_CTL) : s.regCmd path R.CLK_CLK_CTL v =
    (if F.CLK_CLK_CTL_REF_PCIE.get v = 1 ∧ F.CLK_CLK_CTL_REF_PCIE.get (s.rd R.CLK_CLK_CTL) = 0 ∧
        (s.clkCtlTaken v).refPcieOpen then (s.clkCtlTaken v).refPcieSet else s.clkCtlTaken v).refCheck := by
  have hoff : offOf R.CLK_CLK_CTL = 0x40 := by decide
  have hcur : s.cur R.CLK_CLK_CTL = s.rd R.CLK_CLK_CTL := rfl
  rw [regCmd_plain (m := 67108623#32) (c := 0) v ho (by decide) (softBits_clk (by decide)) rfl,
    regEffect_clk (by decide) (by decide), afterWrite_clk (by decide), hoff, hcur]
  have hg := clkCtl_get (s := s) v (f := F.CLK_CLK_CTL_REF_PCIE) (by decide)
  rw [wrClk_ctl]
  exact congrArg refCheck (if_congr (and_congr_left' (iff_of_eq (congrArg (· = 1) hg))) rfl rfl)

theorem clkCtlTaken_fld (v : Word) {f : Fld} (hm : f.mask &&& 67108623#32 = f.mask)
    (hr : f.lsb + f.width ≤ F.CLK_CLK_CTL_REF_PCIE.lsb ∨
      F.CLK_CLK_CTL_REF_PCIE.lsb + F.CLK_CLK_CTL_REF_PCIE.width ≤ f.lsb) :
    (s.clkCtlTaken v).fld R.CLK_CLK_CTL f = f.get v := by
  unfold clkCtlTaken
  rw [fld_wr_same, Fld.get_set_other _ _ _ _ hr, clkCtl_get v hm]

theorem clkCtlTaken_regsKept (v : Word) : RegsKept s (s.clkCtlTaken v) [] [R.CLK_CLK_CTL] :=
  (RegsKept.refl s).wr _ (.inl (by simp))

/-- REFCLK has become the reference of a boot that waited. -/
def onRefclk (s : State) : State :=
  ((s.flag R.CLK_CLK_CTL F.CLK_CLK_CTL_REF_PCIE true).flag R.CLK_BOOT_STAT F.CLK_BOOT_STAT_STALLED false).pllsLocked.put
    R.CLK_CLK_STAT F.CLK_CLK_STAT_REF_SRC 3

/-- The fields of CLK_STAT that a new reference leaves. -/
@[reducible] def StatKept (g : Fld) : Prop :=
  (g.lsb + g.width ≤ F.CLK_CLK_STAT_PLL_LOCK.lsb ∨ F.CLK_CLK_STAT_PLL_LOCK.lsb + F.CLK_CLK_STAT_PLL_LOCK.width ≤ g.lsb) ∧
    (g.lsb + g.width ≤ F.CLK_CLK_STAT_REF_SRC.lsb ∨ F.CLK_CLK_STAT_REF_SRC.lsb + F.CLK_CLK_STAT_REF_SRC.width ≤ g.lsb)

theorem onRefclk_spec (s : State) : s.onRefclk.refSrc = 3 ∧ s.onRefclk.refPcie = true ∧
    s.onRefclk.on R.CLK_BOOT_STAT F.CLK_BOOT_STAT_STALLED = false ∧ s.onRefclk.pllLock 4 = true ∧
    ∀ g, StatKept g → s.onRefclk.fld R.CLK_CLK_STAT g = s.fld R.CLK_CLK_STAT g := by
  unfold onRefclk
  have h1 : ((s.flag R.CLK_CLK_CTL F.CLK_CLK_CTL_REF_PCIE true).flag R.CLK_BOOT_STAT F.CLK_BOOT_STAT_STALLED false).on
      R.CLK_CLK_CTL F.CLK_CLK_CTL_REF_PCIE = true :=
    (on_flag_other _ _ _ _ _ _ (.inl (by decide))).trans (on_flag_same _ _ _ _ (by decide) rfl)
  have h2 : ((s.flag R.CLK_CLK_CTL F.CLK_CLK_CTL_REF_PCIE true).flag R.CLK_BOOT_STAT F.CLK_BOOT_STAT_STALLED false).on
      R.CLK_BOOT_STAT F.CLK_BOOT_STAT_STALLED = false := on_flag_same _ _ _ _ (by decide) rfl
  have h3 (g : Fld) : ((s.flag R.CLK_CLK_CTL F.CLK_CLK_CTL_REF_PCIE true).flag R.CLK_BOOT_STAT F.CLK_BOOT_STAT_STALLED
      false).fld R.CLK_CLK_STAT g = s.fld R.CLK_CLK_STAT g :=
    (fld_flag_other _ _ _ _ _ _ (.inl (by decide))).trans (fld_flag_other _ _ _ _ _ _ (.inl (by decide)))
  generalize (s.flag R.CLK_CLK_CTL F.CLK_CLK_CTL_REF_PCIE true).flag R.CLK_BOOT_STAT F.CLK_BOOT_STAT_STALLED false = u
    at h1 h2 h3 ⊢
  refine ⟨(fld_put_same _ _ _ _ (by decide)).trans rfl, ?_, ?_, ?_, fun g hg => ?_⟩
  · unfold refPcie on at *
    rwa [fld_put_other _ _ _ _ _ _ (.inl (by decide)), pllsLocked_fld (by decide) (.inl (by decide))]
  · unfold on at *
    rwa [fld_put_other _ _ _ _ _ _ (.inl (by decide)), pllsLocked_fld (by decide) (.inl (by decide))]
  · unfold pllLock bit
    rw [fld_put_other _ _ _ _ _ _ (.inr (by decide))]
    exact pllsLocked_lock (s := u) (i := 4) (by decide)
  · obtain ⟨ha, hb⟩ := hg
    rw [fld_put_other _ _ _ _ _ _ (.inr hb), pllsLocked_fld (by decide) (.inr ha), h3]

/-- Out of Drogue mode and without a reference, REF_PCIE puts the stack on REFCLK. -/
theorem refPcieSet_waiting (hd : s.drogue = false) (hr : s.refSrc = 0) : s.refPcieSet = s.onRefclk := by
  have h1 : (s.flag R.CLK_CLK_CTL F.CLK_CLK_CTL_REF_PCIE true).drogue = false :=
    (on_flag_other _ _ _ _ _ _ (.inl (by decide))).trans hd
  have h2 : ((s.flag R.CLK_CLK_CTL F.CLK_CLK_CTL_REF_PCIE true).flag R.CLK_BOOT_STAT F.CLK_BOOT_STAT_STALLED false).refSrc = 0 :=
    (fld_flag_other _ _ _ _ _ _ (.inl (by decide))).trans ((fld_flag_other _ _ _ _ _ _ (.inl (by decide))).trans hr)
  unfold refPcieSet onRefclk
  dsimp only
  rw [h1, if_neg Bool.false_ne_true, refTo_eq]
  dsimp only
  rw [h2, if_pos rfl, if_neg (by decide)]

/-- On REFCLK by REF_PCIE, without a judged crystal, the reference stays. -/
theorem refCheck_refclk (hx : s.xoOk = false) (hr : s.refSrc = 3) (hp : s.refPcie = true) (hc : s.refclkPresent = true) :
    s.refCheck = s := by
  have h : s.refSource = s.refSrc := by
    unfold refSource
    rw [hx, if_neg Bool.false_ne_true, if_pos ⟨hr, hp, hc⟩, hr]
  unfold refCheck
  rw [if_pos h, ite_self]

/-! ### The measuring counter -/

theorem fld_setLock_self (s : State) {i : Nat} (hi : i < 6) (b : Bool) : (s.setLock i b).pllLock i = b :=
  pllLock_setLock_same b hi

theorem pllBit_lt (p : Pll) : pllBit p < 6 := by cases p <;> decide

/-- A PLL has lost its lock. -/
def unlockedBy (s : State) (p : Pll) : State :=
  (s.setLock (pllBit p) false).updClk fun c => { c with unlocked := c.unlocked ++ [pllBit p] }

theorem unlockedBy_spec (s : State) (p : Pll) : (s.unlockedBy p).pllLock (pllBit p) = false ∧
    (s.unlockedBy p).clk.unlocked = s.clk.unlocked ++ [pllBit p] ∧ RegsKept s (s.unlockedBy p) [] [R.CLK_CLK_STAT] :=
  ⟨(pllLock_congr (rd_updClk _ _) _).trans (fld_setLock_self s (pllBit_lt p) false), rfl,
    ((RegsKept.refl s).setBit _ _ _ (.inl (by simp)) : RegsKept s (s.setLock (pllBit p) false) [] [R.CLK_CLK_STAT]).of_regs rfl⟩

theorem fmcStart_spec (s : State) : s.fmcStart.clk = { s.clk with fmcBusy := true } ∧
    s.fmcStart.on R.CLK_FMC_RESULT F.CLK_FMC_RESULT_DONE = false ∧ s.fmcStart.rd R.CLK_CLK_STAT = s.rd R.CLK_CLK_STAT :=
  ⟨rfl, (on_eq_of_rd (rd_updClk _ _) _).trans (on_flag_same _ _ _ _ (by decide) rfl),
    (rd_updClk _ _).trans ((rd_flag _ _ _ _ _).trans (if_neg (by decide)))⟩

/-- A start of the counter, on the crystal. -/
theorem regSet_fmc {w : RegWrite} (ho : Open s w.path R.CLK_FMC_CTL) (hx : s.xoOk = true) (hr : s.refSrc = 1) :
    ∃ v, s.regSet w R.CLK_FMC_CTL F.CLK_FMC_CTL_START = (s.wr R.CLK_FMC_CTL v).fmcStart := by
  have hoff : offOf R.CLK_FMC_CTL = 0x50 := by decide
  have hcur : s.cur R.CLK_FMC_CTL = s.rd R.CLK_FMC_CTL := rfl
  have hg : F.CLK_FMC_CTL_START.get (F.CLK_FMC_CTL_START.set (2 ^ F.CLK_FMC_CTL_START.width - 1) w.value &&&
      2147483648#32) = 1 := by
    rw [Fld.get_and _ (by decide), Fld.get_set _ _ _ (by decide)]
    rfl
  refine ⟨(s.rd R.CLK_FMC_CTL &&& ~~~268435455#32) |||
    (F.CLK_FMC_CTL_START.set (2 ^ F.CLK_FMC_CTL_START.width - 1) w.value &&& 268435455#32), ?_⟩
  unfold regSet
  rw [regCmd_plain (m := 268435455#32) (c := 2147483648#32) _ ho (by decide) (softBits_clk (by decide)) rfl,
    regEffect_clk (by decide) (by decide), afterWrite_clk (by decide), hoff, hcur]
  unfold wrClk
  rw [if_neg (by decide), if_pos rfl]
  dsimp only
  rw [if_pos hg]
  generalize (s.rd R.CLK_FMC_CTL &&& ~~~268435455#32) ||| _ = v
  obtain ⟨_, _, h⟩ := fmcStart_spec (s.wr R.CLK_FMC_CTL v)
  have hs : (s.wr R.CLK_FMC_CTL v).fmcStart.rd R.CLK_CLK_STAT = s.rd R.CLK_CLK_STAT :=
    h.trans (rd_wr_other _ _ _ _ (by decide))
  exact refCheck_onXo ((on_eq_of_rd hs _).trans hx) ((fld_eq_of_rd hs _).trans hr)

/-- The measurement has ended with a count. -/
def fmcShown (s : State) (n : Nat) : State :=
  ((s.put R.CLK_FMC_RESULT F.CLK_FMC_RESULT_COUNT n).flag R.CLK_FMC_RESULT F.CLK_FMC_RESULT_DONE true).updClk
    fun c => { c with fmcBusy := false }

theorem fmcDone_eq {n : Nat} (hb : s.clk.fmcBusy = true) (hr : s.clockRuns (s.fld R.CLK_FMC_CTL F.CLK_FMC_CTL_REF_SEL) = true) :
    s.fmcDone n = s.fmcShown (if s.clockRuns (s.fld R.CLK_FMC_CTL F.CLK_FMC_CTL_MEAS_SEL) then n else 0) := by
  unfold fmcDone
  rw [hb, hr]
  rfl

theorem fmcShown_spec (s : State) {n : Nat} (hn : n < 2 ^ 31) : (s.fmcShown n).clk.fmcBusy = false ∧
    (s.fmcShown n).on R.CLK_FMC_RESULT F.CLK_FMC_RESULT_DONE = true ∧
    (s.fmcShown n).fld R.CLK_FMC_RESULT F.CLK_FMC_RESULT_COUNT = n := by
  refine ⟨rfl, (on_eq_of_rd (rd_updClk _ _) _).trans (on_flag_same _ _ _ _ (by decide) rfl), ?_⟩
  unfold fmcShown
  rw [fld_updClk, fld_flag_other _ _ _ _ _ _ (.inr (by decide)), fld_put_same _ _ _ _ (by decide)]
  exact Nat.mod_eq_of_lt hn

/-- A tracking count within 0.25 % is shown. -/
theorem toscTrack_near {n : Nat} (hi : s.inReset = false) (hx : s.xoOk = true)
    (he : s.on R.CAL_TOSC_CTL F.CAL_TOSC_CTL_TRACK_EN = true) (hb : 6 ≤ s.bootStep) (hn : 3990000 ≤ n ∧ n ≤ 4010000) :
    s.toscTrack n = s.put R.CAL_TOSC_STAT F.CAL_TOSC_STAT_LAST_COUNT n := by
  have hoff : (s.put R.CAL_TOSC_STAT F.CAL_TOSC_STAT_LAST_COUNT n).toscOff = false := by
    have hf : (s.put R.CAL_TOSC_STAT F.CAL_TOSC_STAT_LAST_COUNT n).fld R.CAL_TOSC_STAT F.CAL_TOSC_STAT_LAST_COUNT = n :=
      (fld_put_same _ _ _ _ (by decide)).trans (Nat.mod_eq_of_lt (by show n < 2 ^ 23; omega))
    unfold toscOff
    dsimp only
    rw [hf, decide_eq_false (by omega : ¬ (n + 10000 < 4000000 ∨ 4010000 < n)), Bool.and_false]
  have hx' : s.on R.CLK_CLK_STAT F.CLK_CLK_STAT_XO_OK = true := hx
  unfold toscTrack
  rw [hi, hx', he, decide_eq_false (by omega : ¬ s.bootStep < 6)]
  dsimp only
  rw [hoff]
  rfl

/-! ### REFCLK appears or goes -/

/-- REFCLK's presence is noted; without it REF_PCIE clears. -/
def refclkNoted (s : State) (b : Bool) : State :=
  let s := s.flag R.CLK_CLK_STAT F.CLK_CLK_STAT_REFCLK_PRESENT b
  if b then s else s.flag R.CLK_CLK_CTL F.CLK_CLK_CTL_REF_PCIE false

theorem refclkNoted_spec (s : State) (b : Bool) : (s.refclkNoted b).refclkPresent = b ∧ (s.refclkNoted b).xoOk = s.xoOk ∧
    (s.refclkNoted b).refSrc = s.refSrc ∧ (s.refclkNoted b).clk = s.clk ∧ (s.refclkNoted b).dram = s.dram := by
  have h1 : (s.flag R.CLK_CLK_STAT F.CLK_CLK_STAT_REFCLK_PRESENT b).refclkPresent = b := on_flag_same _ _ _ _ (by decide) rfl
  have h2 : (s.flag R.CLK_CLK_STAT F.CLK_CLK_STAT_REFCLK_PRESENT b).xoOk = s.xoOk :=
    on_flag_other _ _ _ _ _ _ (.inr (by decide))
  have h3 : (s.flag R.CLK_CLK_STAT F.CLK_CLK_STAT_REFCLK_PRESENT b).refSrc = s.refSrc :=
    fld_flag_other _ _ _ _ _ _ (.inr (by decide))
  cases b with
  | true => exact ⟨h1, h2, h3, rfl, rfl⟩
  | false => exact ⟨(on_flag_other _ _ _ _ _ _ (.inl (by decide))).trans h1,
      (on_flag_other _ _ _ _ _ _ (.inl (by decide))).trans h2,
      (fld_flag_other _ _ _ _ _ _ (.inl (by decide))).trans h3, rfl, rfl⟩

theorem refclkNoted_calm {b : Bool} (h : Calm s) : Calm (s.refclkNoted b) := by
  cases b with
  | true => exact flag_calm h
  | false => exact flag_calm (flag_calm h)

theorem refclkChange_xo {b : Bool} (hv : s.clk.vaux = true) (hx : s.xoOk = true) (hr : s.refSrc = 1)
    (hp : s.clk.perstN = true) : s.refclkChange b = s.refclkNoted b := by
  obtain ⟨_, hx', hr', hc, _⟩ := refclkNoted_spec s b
  have hpc : (s.refclkNoted b).pcieClock = s.refclkNoted b := pcieClock_reset (hx'.trans hx) (by rw [hc, hp])
  unfold refclkChange
  rw [hv]
  change (s.refclkNoted b).pcieClock.refCheck = _
  rw [hpc, refCheck_onXo (hx'.trans hx) (hr'.trans hr)]

end State
end Sys2Proof.Machine

namespace Sys2Proof.Safety
open Sys2Proof.Machine Sys2Proof.Machine.State

/-- REF_PCIE of a waiting boot. -/
theorem refPcieSet_gives {s : State} {w : RegWrite} (ho : Open s w.path R.CLK_CLK_CTL) (hp : s.refPcie = false)
    (hc : s.refclkPresent = true) (hd : s.drogue = false) (hb : s.bootStep = 6) (hr : s.refSrc = 0) (hx : s.xoOk = false) :
    Gives (.refPcieSet w) s fun t => t.refSrc = 3 ∧ t.refPcie = true ∧
      t.on R.CLK_BOOT_STAT F.CLK_BOOT_STAT_STALLED = false ∧ t.pllLock 4 = true := by
  generalize hv : F.CLK_CLK_CTL_REF_PCIE.set (2 ^ F.CLK_CLK_CTL_REF_PCIE.width - 1) w.value = v
  have hg : F.CLK_CLK_CTL_REF_PCIE.get v = 1 := by
    rw [← hv, Fld.get_set _ _ _ (by decide)]
    rfl
  have hk := clkCtlTaken_regsKept (s := s) v
  have hs : (s.clkCtlTaken v).rd R.CLK_CLK_STAT = s.rd R.CLK_CLK_STAT := hk _ (by simp) (by decide)
  have hbs : (s.clkCtlTaken v).bootStep = 6 := (fld_eq_of_rd (hk _ (by simp) (by decide)) _).trans hb
  have hopen : (s.clkCtlTaken v).refPcieOpen = true := by
    unfold refPcieOpen
    rw [show (s.clkCtlTaken v).refclkPresent = true from (on_eq_of_rd hs _).trans hc, hbs,
      show (s.clkCtlTaken v).refSrc = 0 from (fld_eq_of_rd hs _).trans hr]
    simp
  obtain ⟨h1, h2, h3, h4, h5⟩ := onRefclk_spec (s.clkCtlTaken v)
  have hx' : (s.clkCtlTaken v).onRefclk.xoOk = false := by
    unfold xoOk on
    rw [h5 _ (by decide), fld_eq_of_rd hs]
    exact hx
  have hc' : (s.clkCtlTaken v).onRefclk.refclkPresent = true := by
    unfold refclkPresent on
    rw [h5 _ (by decide), fld_eq_of_rd hs]
    exact hc
  refine gives_of_eq rfl (u := (s.clkCtlTaken v).onRefclk) ?_ ⟨h1, h2, h3, h4⟩
  unfold regSet
  rw [hv, regCmd_clkCtl v ho, if_pos ⟨hg, on_eq_false.mp hp, hopen⟩,
    refPcieSet_waiting ((on_eq_of_rd hs _).trans hd) ((fld_eq_of_rd hs _).trans hr), refCheck_refclk hx' h1 h2 hc']

/-- Settles O3: each command by its operation; on the crystal the reference stays (`refCheck_onXo`), and a boot that waits takes
REFCLK (`onRefclk`). -/
theorem referencesAndMeasurement : Obligations.ReferencesAndMeasurement := by
  unfold Obligations.ReferencesAndMeasurement
  refine ⟨fun s w ho h1 h2 h3 h4 h5 h6 => refPcieSet_gives ho h1 h2 h3 h4 h5 h6, fun s w ho hx hw => ?_, fun s p h => ?_,
    fun s w ho hx => ?_, fun s n hb hr => ?_, fun s n hi hx he hb hn => congrArg Host.Outcome.next (toscTrack_near hi hx he hb hn),
    fun s b hv hc hx hp => ?_⟩
  · obtain ⟨hx, hr, _⟩ := hx
    have hk := clkCtlTaken_regsKept (s := s) w.value
    have hs : (s.clkCtlTaken w.value).rd R.CLK_CLK_STAT = s.rd R.CLK_CLK_STAT := hk _ (by simp) (by decide)
    refine gives_of_eq rfl (u := s.clkCtlTaken w.value) ?_ ⟨clkCtlTaken_fld _ (by decide) (by decide), rfl, hk⟩
    rw [regCmd_clkCtl _ ho, if_neg (by rw [hw]; omega), refCheck_onXo ((on_eq_of_rd hs _).trans hx)
      ((fld_eq_of_rd hs _).trans hr)]
  · exact gives_of_eq rfl (if_pos h) (unlockedBy_spec s p)
  · obtain ⟨hx, hr, _⟩ := hx
    obtain ⟨v, hv⟩ := regSet_fmc ho hx hr
    obtain ⟨h1, h2, _⟩ := fmcStart_spec (s.wr R.CLK_FMC_CTL v)
    exact gives_of_eq rfl hv ⟨h1, h2⟩
  · refine gives_of_eq rfl (fmcDone_eq hb hr) (fmcShown_spec s ?_)
    split
    · exact n.isLt
    · decide
  · obtain ⟨hx, hr, _⟩ := hx
    obtain ⟨h1, _, h3, _, h5⟩ := refclkNoted_spec s b
    have hk : Calm (s.refclkNoted b) := refclkNoted_calm hc
    refine gives_of_eq rfl (congrArg settle (refclkChange_xo hv hx hr hp)) ⟨?_, ?_, ?_⟩
    · exact (on_eq_of_rd (settle_rd hk _ (by decide)) _).trans h1
    · rw [settle_dram hk, h5]
    · exact (fld_eq_of_rd (settle_rd hk _ (by decide)) _).trans (h3.trans hr)

end Sys2Proof.Safety
end

section
/-! SUPPORT. The work table (R239 to R250): what works that begin, end or move leave alone. They write the engines' and
quadrants' status and counters, never a control register, and the requests that they answer. -/

namespace Sys2Proof.Machine
open Sys2Proof.Safety State

theorem foldl_blind {α β : Type} {g : State → α} {f : State → β → State} (h : ∀ t b, g (f t b) = g t) (l : List β) (s : State) :
    g (l.foldl f s) = g s := by
  induction l generalizing s with
  | nil => rfl
  | cons b l ih => rw [List.foldl_cons, ih, h]

/-- What an engine's page shows of its work lies from offset 0x44 on, and not at 0x80, where it counts its hangs; engines'
pages are not below 0x00A. -/
theorem syncEng_blind {α : Type} {g : State → α} (hw : ∀ (t : State) a v, 0x44 ≤ a % 0x1000 → a % 0x1000 ≠ 0x80 → 0xA000 ≤ a → g (t.wr a v) = g t)
    (s : State) (e : Nat) : g (s.syncEng e) = g s := by
  have h1 (t : State) v : g (t.wr (R.ENG_ENG_STAT e) v) = g t := by
    refine hw _ _ _ ?_ ?_ ?_ <;> unfold R.ENG_ENG_STAT <;> omega
  have h2 (t : State) v : g (t.wr (R.ENG_CUR_WORK e) v) = g t := by
    refine hw _ _ _ ?_ ?_ ?_ <;> unfold R.ENG_CUR_WORK <;> omega
  have h3 (t : State) v : g (t.wr (R.ENG_CUR_CHUNK e) v) = g t := by
    refine hw _ _ _ ?_ ?_ ?_ <;> unfold R.ENG_CUR_CHUNK <;> omega
  have h4 (t : State) v : g (t.wr (R.ENG_CUR_TOTAL e) v) = g t := by
    refine hw _ _ _ ?_ ?_ ?_ <;> unfold R.ENG_CUR_TOTAL <;> omega
  have hstat (t : State) (n : Nat) : g (if 1 ≤ t.engState e ∧ t.engState e ≤ 3 then t.setEngState e n else t) = g t := by
    split
    · exact h1 _ _
    · rfl
  unfold State.syncEng
  dsimp only
  split
  · exact (h4 _ _).trans ((h3 _ _).trans ((h2 _ _).trans ((h1 _ _).trans ((h1 _ _).trans (hstat _ _)))))
  · exact (h4 _ _).trans ((h3 _ _).trans ((h2 _ _).trans ((h1 _ _).trans ((h1 _ _).trans (hstat _ _)))))

/-- The registers that works write beside the engines' current work. -/
abbrev WorkReg (a : Nat) : Prop := 0x44 < a % 0x1000 ∧ a % 0x1000 ≠ 0x80 ∧ 0xA000 ≤ a

/-- A part of the state that is none of the works, requests, samples and credits, and no register that works write. -/
structure WorkBlind {α : Type} (g : State → α) : Prop where
  wr : ∀ (t : State) a v, WorkReg a → g (t.wr a v) = g t
  counted : ∀ (t : State) a n, g (t.counted a n) = g t
  eng : ∀ (t : State) e, g { t with eng := e } = g t
  xact : ∀ (t : State) x, g { t with xact := x } = g t
  perf : ∀ (t : State) p, g { t with perf := p } = g t
  link : ∀ (t : State) l, g { t with link := l } = g t
  deliver : ∀ (t : State) d, g (t.deliver d) = g t
  sync : ∀ (t : State) e, g (t.syncEng e) = g t

namespace WorkBlind

theorem of_wr {α : Type} {g : State → α} (hw : ∀ (t : State) a v, 0x44 ≤ a % 0x1000 → a % 0x1000 ≠ 0x80 → 0xA000 ≤ a → g (t.wr a v) = g t)
    (hc : ∀ (t : State) a n, g (t.counted a n) = g t) (he : ∀ (t : State) e, g { t with eng := e } = g t)
    (hx : ∀ (t : State) x, g { t with xact := x } = g t) (hp : ∀ (t : State) p, g { t with perf := p } = g t)
    (hl : ∀ (t : State) l, g { t with link := l } = g t) (hd : ∀ (t : State) d, g (t.deliver d) = g t) : WorkBlind g :=
  ⟨fun t a v ⟨h, hn, hp⟩ => hw t a v h.le hn hp, hc, he, hx, hp, hl, hd, syncEng_blind hw⟩

variable {α : Type} {g : State → α} (hg : WorkBlind g) (s : State)
include hg

theorem put {a : Nat} (ha : WorkReg a) (f : Fld) (n : Nat) : g (s.put a f n) = g s := hg.wr _ _ _ ha
theorem flag {a : Nat} (ha : WorkReg a) (f : Fld) (b : Bool) : g (s.flag a f b) = g s := hg.wr _ _ _ ha

theorem wr64 {a : Nat} (ha : WorkReg a) (hb : WorkReg (a + 4)) (v : Word64) : g (s.wr64 a v) = g s :=
  (hg.wr _ _ _ hb).trans (hg.wr _ _ _ ha)

theorem inc {a : Nat} (ha : WorkReg a) (n : Nat) : g (s.inc a n) = g s := by
  unfold State.inc
  split
  · rfl
  · rw [hg.counted, hg.wr _ _ _ ha]

/-! ### Works -/

theorem updWork (id : Nat) (f : Work → Work) : g (s.updWork id f) = g s := hg.eng s _

theorem syncEng (e : Nat) : g (s.syncEng e) = g s := hg.sync s e

theorem cancelEnds (w : Work) : g (s.cancelEnds w) = g s := by
  refine foldl_blind (fun t q => ?_) _ s
  have h : WorkReg (R.QUAD_CANCEL_STAT q) := by unfold WorkReg R.QUAD_CANCEL_STAT; omega
  split
  · rw [hg.flag _ h, hg.flag _ h]
  · rfl

/-! ### Requests that are answered -/

theorem dropReq (id : Nat) : g (s.dropReq id) = g s := by
  unfold State.dropReq State.sampleLost
  split
  · rw [hg.inc _ (by decide)]
    exact (hg.perf _ _).trans (hg.xact s _)
  · exact hg.xact s _

theorem countStatus (r : Req) (n : Nat) : g (s.countStatus r n) = g s := by
  unfold State.countStatus
  split
  · rw [hg.deliver, hg.wr64 _ (by decide) (by decide), hg.inc _ (by decide)]
  · split
    · exact hg.inc _ (by decide) _
    · split
      · exact hg.inc _ (by decide) _
      · split
        · rw [hg.inc _ (by decide), hg.inc _ (by decide)]
        · rfl

theorem answer (r : Req) (status rinfo : Nat) (pay : List Slot) : g (s.answer r status rinfo pay) = g s := by
  have hc : g (if r.owes then s.returnCredits (hTc r.header) 6 0 else s) = g s := by
    split
    · exact hg.link s _
    · rfl
  unfold State.answer
  dsimp only
  split
  · rw [hg.dropReq, hc]
  · refine (hg.xact _ _).trans ((hg.perf _ _).trans ((hg.xact _ _).trans ?_))
    rw [hg.countStatus, hc]

/-! ### Works that end or move -/

theorem closeWork (w : Work) (status code : Nat) (pay : List Slot) : g (s.closeWork w status code pay) = g s := by
  have he (t : State) : g (match w.engine with | none => t | some e => t.syncEng e) = g t := by
    split
    · rfl
    · exact hg.syncEng _ _
  unfold State.closeWork
  dsimp only
  refine (he _).trans ?_
  split
  · exact hg.eng s _
  · rw [hg.answer]
    exact hg.eng s _

theorem abortWork (w : Work) (code : Nat) (fault : Option (Nat × Nat)) : g (s.abortWork w code fault) = g s := by
  have h0 (q : Nat) : WorkReg (R.QUAD_ABORT_REC0 q) := by unfold WorkReg R.QUAD_ABORT_REC0; omega
  have h1 (q : Nat) : WorkReg (R.QUAD_ABORT_REC1 q) := by unfold WorkReg R.QUAD_ABORT_REC1; omega
  have h2 (q : Nat) : WorkReg (R.QUAD_ABORT_ELEM_LO q) ∧ WorkReg (R.QUAD_ABORT_ELEM_LO q + 4) := by
    unfold WorkReg R.QUAD_ABORT_ELEM_LO; omega
  have h3 (q : Nat) : WorkReg (R.QUAD_ABORT_ADDR_LO q) ∧ WorkReg (R.QUAD_ABORT_ADDR_LO q + 4) := by
    unfold WorkReg R.QUAD_ABORT_ADDR_LO; omega
  have h4 (q : Nat) : WorkReg (R.QUAD_WORKS_ABORTED q) := by unfold WorkReg R.QUAD_WORKS_ABORTED; omega
  unfold State.abortWork
  dsimp only
  rw [hg.closeWork, hg.cancelEnds, hg.inc _ (h4 _), hg.wr64 _ (h3 _).1 (h3 _).2, hg.wr64 _ (h2 _).1 (h2 _).2,
    hg.wr _ _ _ (h1 _), hg.wr _ _ _ (h0 _)]

theorem finishWork (id : Nat) : g (s.finishWork id) = g s := by
  have h1 (q : Nat) : WorkReg (R.QUAD_WORKS_STOPPED q) := by unfold WorkReg R.QUAD_WORKS_STOPPED; omega
  have h2 (q : Nat) : WorkReg (R.QUAD_WORKS_DONE q) := by unfold WorkReg R.QUAD_WORKS_DONE; omega
  have h3 (q : Nat) : WorkReg (R.QUAD_SKIPPED q) := by unfold WorkReg R.QUAD_SKIPPED; omega
  have h4 (e : Nat) : WorkReg (R.ENG_WORKS e) := by unfold WorkReg R.ENG_WORKS; omega
  have he (t : State) (w : Work) : g (match w.engine with | none => t | some e => t.inc (R.ENG_WORKS e)) = g t := by
    split
    · rfl
    · exact hg.inc _ (h4 _) _
  unfold State.finishWork
  split
  · rfl
  · split
    · rfl
    · split
      · rfl
      · split
        · exact hg.abortWork _ _ _ _
        · dsimp only
          rw [hg.closeWork]
          refine (he _ _).trans ?_
          rw [hg.cancelEnds, hg.inc _ (h3 _), hg.inc]
          split
          · exact h1 _
          · exact h2 _

theorem countPlanned (w : Work) (q why : Nat) (ran : Bool) : g (s.countPlanned w q why ran) = g s := by
  have h1 (q : Nat) : WorkReg (R.QUAD_PLANNED_MOVES q) := by unfold WorkReg R.QUAD_PLANNED_MOVES; omega
  have h2 (q : Nat) : WorkReg (R.QUAD_TAKEOVERS q) := by unfold WorkReg R.QUAD_TAKEOVERS; omega
  have h3 (q : Nat) : WorkReg (R.QUAD_XQUAD_TAKEOVERS q) := by unfold WorkReg R.QUAD_XQUAD_TAKEOVERS; omega
  have hw : g (if why = 1 then s.inc (R.QUAD_PLANNED_MOVES w.quad) else if why = 2 then s.inc (R.QUAD_TAKEOVERS w.quad)
      else s) = g s := by
    split
    · exact hg.inc _ (h1 _) _
    · split
      · exact hg.inc _ (h2 _) _
      · rfl
  unfold State.countPlanned
  dsimp only
  split
  · rw [hg.inc _ (h3 _), hw]
  · exact hw

theorem handOver (w : Work) (e : Nat) (failed : Bool) : g (s.handOver w e failed) = g s := by
  unfold State.handOver
  dsimp only
  split
  · rw [hg.syncEng, hg.syncEng]
    exact (hg.eng _ _).trans (hg.countPlanned s _ _ _ _)
  · split
    · rw [hg.syncEng, hg.updWork]
    · rw [hg.syncEng, hg.finishWork, hg.updWork]

theorem adoptWorks : g s.adoptWorks = g s := by
  refine foldl_blind (fun t w => ?_) _ s
  split
  · rfl
  · rw [hg.syncEng, hg.updWork, hg.countPlanned]

theorem plannedMove (e : Nat) : g (s.plannedMove e) = g s :=
  (foldl_blind (fun t w => hg.handOver t w e false) _ _).trans (hg.eng s _)

theorem engEnable (e : Nat) : g (s.engEnable e) = g s := by
  unfold State.engEnable
  split
  · exact hg.adoptWorks s
  · exact hg.plannedMove s e

end WorkBlind

/-! ### Parts of the state that works leave alone -/

theorem workBlind_dram : WorkBlind State.dram :=
  .of_wr (fun _ _ _ _ _ _ => rfl) (by simp) (fun _ _ => rfl) (fun _ _ => rfl) (fun _ _ => rfl) (fun _ _ => rfl) (fun _ _ => rfl)

theorem workBlind_place : WorkBlind State.place :=
  .of_wr (fun _ _ _ _ _ _ => rfl) (by simp) (fun _ _ => rfl) (fun _ _ => rfl) (fun _ _ => rfl) (fun _ _ => rfl) (fun _ _ => rfl)

theorem workBlind_spare : WorkBlind State.spare :=
  .of_wr (fun _ _ _ _ _ _ => rfl) (by simp) (fun _ _ => rfl) (fun _ _ => rfl) (fun _ _ => rfl) (fun _ _ => rfl) (fun _ _ => rfl)

theorem workBlind_bist : WorkBlind State.bist :=
  .of_wr (fun _ _ _ _ _ _ => rfl) (by simp) (fun _ _ => rfl) (fun _ _ => rfl) (fun _ _ => rfl) (fun _ _ => rfl) (fun _ _ => rfl)

theorem workBlind_handed : WorkBlind fun s => s.fcol.handed :=
  .of_wr (fun _ _ _ _ _ _ => rfl) (by simp) (fun _ _ => rfl) (fun _ _ => rfl) (fun _ _ => rfl) (fun _ _ => rfl) (fun _ _ => rfl)

theorem workBlind_declared : WorkBlind fun s => s.fcol.declared :=
  .of_wr (fun _ _ _ _ _ _ => rfl) (by simp) (fun _ _ => rfl) (fun _ _ => rfl) (fun _ _ => rfl) (fun _ _ => rfl) (fun _ _ => rfl)

theorem workBlind_stores : WorkBlind fun s => (s.dram, s.cache, s.wdb, s.otp, s.mgmt.flash) :=
  .of_wr (fun _ _ _ _ _ _ => rfl) (by simp) (fun _ _ => rfl) (fun _ _ => rfl) (fun _ _ => rfl) (fun _ _ => rfl) (fun _ _ => rfl)

/-- Works write no register below offset 0x44, none at 0x80, and none of the pages below 0x00A. -/
theorem workBlind_rd {a : Nat} (h : a % 0x1000 < 0x44 ∨ a % 0x1000 = 0x80 ∨ a < 0xA000) : WorkBlind fun s => s.rd a :=
  .of_wr (fun t b v h1 h2 h3 => rd_wr_other _ _ _ _ (by rintro rfl; omega)) (fun _ _ _ => rd_counted ..) (fun _ _ => rfl) (fun _ _ => rfl) (fun _ _ => rfl) (fun _ _ => rfl) (fun _ _ => rfl)

/-- Works store nothing. -/
theorem WorkBlind.memKept {s t : State} (h : ∀ {α : Type} (g : State → α), WorkBlind g → g t = g s) : MemKept s t := by
  have hs := h _ workBlind_stores
  simp only [Prod.mk.injEq] at hs
  obtain ⟨h1, h2, h3, h4, h5⟩ := hs
  exact ⟨h1, h2, h3, h _ workBlind_place, h4, h5⟩

/-- Works wake no ladder. -/
theorem WorkBlind.calm {s t : State} (h : ∀ {α : Type} (g : State → α), WorkBlind g → g t = g s) (hc : Calm s) : Calm t :=
  hc.of_parts (h _ workBlind_handed) (h _ workBlind_declared) (congrArg SpareState.rows (h _ workBlind_spare))
    (congrArg PlaceState.retiring (h _ workBlind_place))

end Sys2Proof.Machine
end

section
/-! SUPPORT. PG_CTL: clock gates, block resets and ENABLE (R9, R355, R356, R409). -/

namespace Sys2Proof.Machine
open Sys2Proof.Safety State

/-- The pages of the perf, calibration, scrub, measurement and flash blocks. -/
def blockPages : List Nat := [0x00A, 0x009, 0x016, 0x012, 0x011]

/-- The pages whose writes have a further consequence. -/
def followedPages : List Nat :=
  [0x00E, 0x080, 0x088, 0x003, 0x100, 0x180, 0x008, 0x00C, 0x00D, 0x1D0, 0x140, 0x040, 0x002]

theorem blockPages_plain : ∀ pg ∈ blockPages, PlainReg (pgCtl pg) 5 2 ∧ pageOf (pgCtl pg) = pg ∧ offOf (pgCtl pg) = 0x0C ∧
    pg < 1024 ∧ (pageRow pg).isSome = true := by decide

theorem blockPages_first : ∀ pg ∈ blockPages, firstOf pg = pg ∧ pg ∉ [1, 0x080, 0x088, 0x100, 0x180] ∧
    pg ∉ followedPages ∧ ([0x00A, 0x200, 0x009, 0x016, 0x012, 0x011] : List Nat).contains pg = true := by decide

theorem engCtl_page : ∀ e : Fin 36, pageOf (R.ENG_ENG_CTL e) ≠ 0x014 := by decide

theorem engPages_plain : ∀ e : Fin 36, PlainReg (pgCtl (engPg e)) 5 2 ∧ pageOf (pgCtl (engPg e)) = engPg e ∧
    offOf (pgCtl (engPg e)) = 0x0C ∧ engPg e < 1024 ∧ firstOf (engPg e) = 0x180 ∧ engPg e - 0x180 = e := by decide

namespace State

variable {s : State} {path : Path} {pg : Nat}

theorem softBits_other {a : Nat} (h1 : firstOf (pageOf a) ≠ 0x080) (h2 : firstOf (pageOf a) ≠ 0x088) : s.softBits a = 0 := by
  simp [softBits, h1, h2]

theorem cur_pgCtl {a : Nat} (h : offOf a = 0x0C) : s.cur a = s.rd a := by
  simp [cur, viewOf, h]

/-- A write of PG_CTL acts on the page. -/
theorem regCmd_pgCtl {a : Nat} (v : Word) (ho : Open s path a) (hp : PlainReg a 5 2) (hoff : offOf a = 0x0C)
    (hs : s.softBits a = 0) (h1 : pageOf a ≠ 1) : s.regCmd path a v =
      (s.wrPgCtl path (pageOf a) (s.rd a) ((s.rd a &&& ~~~5#32) ||| (v &&& 5#32)) (v &&& 2#32) false).afterWrite (pageOf a) := by
  rw [regCmd_plain (m := 5#32) (c := 2#32) v ho hp hs (by simp [h1]), cur_pgCtl hoff]
  unfold regEffect
  rw [if_pos hoff]

/-- What PG_CTL's fields read in the words that a command writes. -/
theorem pgCtl_get (c v : Word) : F.PG_CTL_ENABLE.get ((c &&& ~~~5#32) ||| (v &&& 5#32)) = F.PG_CTL_ENABLE.get v ∧
    F.PG_CTL_GATE_REQ.get ((c &&& ~~~5#32) ||| (v &&& 5#32)) = F.PG_CTL_GATE_REQ.get v ∧
    F.PG_CTL_BLOCK_RESET.get (v &&& 2#32) = F.PG_CTL_BLOCK_RESET.get v :=
  ⟨Fld.get_merge _ _ (by decide), Fld.get_merge _ _ (by decide), Fld.get_and _ (by decide)⟩

/-- A page's block: its reset and its gate, and no ENABLE. -/
theorem regCmd_block (v : Word) (hb : pg ∈ blockPages) (ho : Open s path (pgCtl pg)) : s.regCmd path (pgCtl pg) v =
    let t := if F.PG_CTL_BLOCK_RESET.get v = 1 then
        (if s.resetOk pg then s.blockReset pg else s.accErr path (pgCtl pg) true 7) else s
    if F.PG_CTL_GATE_REQ.get (s.rd (pgCtl pg)) = 0 ∧ F.PG_CTL_GATE_REQ.get v = 1 then t.gateClose pg false
    else if F.PG_CTL_GATE_REQ.get (s.rd (pgCtl pg)) = 1 ∧ F.PG_CTL_GATE_REQ.get v = 0 then t.gateRelease pg else t := by
  obtain ⟨hp, hpg, hoff, _⟩ := blockPages_plain pg hb
  obtain ⟨hf, hn, ha, hc⟩ := blockPages_first pg hb
  simp only [List.mem_cons, List.not_mem_nil, or_false, not_or] at hn
  obtain ⟨h1, h80, h88, h100, h180⟩ := hn
  obtain ⟨_, h2, h3⟩ := pgCtl_get (s.rd (pgCtl pg)) v
  have hg (t : State) : t.gateOk pg = true := by
    unfold gateOk
    rw [if_pos hc]
  rw [regCmd_pgCtl v ho hp hoff (softBits_other (by rwa [hpg, hf]) (by rwa [hpg, hf])) (by rwa [hpg]), hpg,
    afterWrite_self (by rwa [hf])]
  unfold wrPgCtl
  simp only [h2, h3, hf, h100, h180, hg, if_true, if_false]

/-! ### Gates -/

theorem gate_addr (pg : Nat) : pgCtl pg ≠ pgStat pg ∧ pgCtl pg ≠ R.CLK_GATE_LAST ∧ pgCtl pg ≠ R.CLK_GATE_DENIALS := by
  unfold pgCtl pgStat
  refine ⟨by omega, ?_, ?_⟩
  · show 0x1000 * pg + 0x0C ≠ 0x3068; omega
  · show 0x1000 * pg + 0x0C ≠ 0x3080; omega

theorem gateClose_now (h : s.on (pgStat pg) pgInReset = false) : s.gateClose pg false =
    (s.flag (pgCtl pg) pgGateReq true).flag (pgStat pg) pgGated true := by
  obtain ⟨hc, _⟩ := gate_addr pg
  have : (s.flag (pgCtl pg) pgGateReq true).on (pgStat pg) pgInReset = false :=
    (on_flag_other _ _ _ _ _ _ (.inl hc.symm)).trans h
  unfold gateClose
  dsimp only
  rw [this]
  rfl

/-- The gate closed at once. -/
theorem gateClose_now_spec (h : s.on (pgStat pg) pgInReset = false) : (s.gateClose pg false).on (pgStat pg) pgGated = true ∧
    (s.gateClose pg false).on (pgCtl pg) pgGateReq = true ∧ (s.gateClose pg false).dram = s.dram := by
  obtain ⟨hc, _⟩ := gate_addr pg
  rw [gateClose_now h]
  exact ⟨on_flag_same _ _ _ _ (by decide) rfl,
    (on_flag_other _ _ _ _ _ _ (.inl hc)).trans (on_flag_same _ _ _ _ (by decide) rfl), rfl⟩

/-- A busy interface makes the request wait. -/
def gateWaits (s : State) (pg : Nat) : State :=
  (s.flag (pgCtl pg) pgGateReq true).updClk fun c => { c with gateWait := pg :: c.gateWait.filter (· != pg) }

theorem gateClose_busy : s.gateClose pg true = s.gateWaits pg := rfl

theorem gateWaits_spec (s : State) (pg : Nat) : pg ∈ (s.gateWaits pg).clk.gateWait ∧
    (s.gateWaits pg).on (pgStat pg) pgGated = s.on (pgStat pg) pgGated := by
  obtain ⟨hc, _⟩ := gate_addr pg
  exact ⟨List.mem_cons_self .., (on_eq_of_rd (rd_updClk _ _) _).trans (on_flag_other _ _ _ _ _ _ (.inl hc.symm))⟩

theorem gateRelease_spec (s : State) (pg : Nat) : (s.gateRelease pg).on (pgStat pg) pgGated = false ∧
    (s.gateRelease pg).on (pgCtl pg) pgGateReq = false ∧ (s.gateRelease pg).dram = s.dram := by
  obtain ⟨hc, _⟩ := gate_addr pg
  refine ⟨(on_eq_of_rd (rd_updClk _ _) _).trans (on_flag_same _ _ _ _ (by decide) rfl),
    (on_eq_of_rd (rd_updClk _ _) _).trans ?_, rfl⟩
  exact (on_flag_other _ _ _ _ _ _ (.inl hc)).trans (on_flag_same _ _ _ _ (by decide) rfl)

/-- A refusal is counted, with its page. -/
theorem gateRefused_spec (s : State) (pg : Nat) : (s.gateRefused pg).rd R.CLK_GATE_LAST = BitVec.ofNat 32 pg ∧
    (s.gateRefused pg).rd R.CLK_GATE_DENIALS = s.rd R.CLK_GATE_DENIALS + 1 ∧ (s.gateRefused pg).clk = s.clk ∧
    RegsKept s (s.gateRefused pg) [] [R.CLK_GATE_LAST, R.CLK_GATE_DENIALS] := by
  unfold gateRefused
  refine ⟨?_, ?_, by simp, ((RegsKept.refl s).wr _ (.inl (by simp))).inc _ (.inl (by simp))⟩
  · rw [rd_inc, if_neg (by decide), rd_wr_same]
  · rw [rd_inc, if_pos rfl, rd_wr_other _ _ _ _ (by decide)]
    rfl

/-- A waiting request is withdrawn. -/
def gateWithdrawn (s : State) (pg : Nat) : State :=
  (s.updClk fun c => { c with gateWait := c.gateWait.filter (· != pg) }).flag (pgCtl pg) pgGateReq false

theorem gateDenied_waiting (hw : s.clk.gateWait.contains pg = true) (hr : s.on (pgStat pg) pgInReset = false) :
    s.gateDenied pg = (s.gateWithdrawn pg).gateRefused pg := by
  unfold gateDenied
  rw [hr, if_neg Bool.false_ne_true, if_pos hw]
  rfl

theorem gateWithdrawn_spec (s : State) (pg : Nat) : pg ∉ (s.gateWithdrawn pg).clk.gateWait ∧
    (s.gateWithdrawn pg).on (pgCtl pg) pgGateReq = false ∧
    (s.gateWithdrawn pg).rd R.CLK_GATE_DENIALS = s.rd R.CLK_GATE_DENIALS := by
  obtain ⟨_, _, hd⟩ := gate_addr pg
  refine ⟨fun h => ?_, on_flag_same _ _ _ _ (by decide) rfl, ?_⟩
  · have h : pg ∈ s.clk.gateWait.filter (· != pg) := h
    simp at h
  · exact (rd_flag _ _ _ _ _).trans ((if_neg hd.symm).trans (rd_updClk _ _))

/-- The power controller tries again in 1 ms. -/
def gateRetried (s : State) (pg : Nat) : State :=
  s.updClk fun c => { c with hwRetry := c.hwRetry ++ [(pg, c.up + 1000000)] }

theorem gateDenied_hw (hw : s.clk.gateWait.contains pg = false) (hr : s.on (pgStat pg) pgInReset = false)
    (hq : s.hwGateReq pg = true) (hg : s.clk.hwGates.contains pg = false) (he : s.clk.hwRetry = []) :
    s.gateDenied pg = (s.gateRetried pg).gateRefused pg := by
  unfold gateDenied
  rw [hr, hw, hq, hg, he]
  rfl

/-! ### The reset of the scrub block -/

theorem foldl_regBlockReset_kept (as : List Nat) (s : State) : (as.foldl (fun (t : State) a => t.regBlockReset a) s).dram = s.dram ∧
    (as.foldl (fun (t : State) a => t.regBlockReset a) s).ch = s.ch ∧
    ∀ b, b ∉ as → (as.foldl (fun (t : State) a => t.regBlockReset a) s).rd b = s.rd b := by
  induction as generalizing s with
  | nil => exact ⟨rfl, rfl, fun _ _ => rfl⟩
  | cons a as ih =>
    obtain ⟨hd, hc, hr⟩ := ih (s.regBlockReset a)
    refine ⟨hd, hc, fun b hb => ?_⟩
    obtain ⟨h1, h2⟩ := not_or.mp (mt List.mem_cons.mpr hb)
    exact (hr b h2).trans (rd_wr_other _ _ _ _ h1)

/-- A page's registers take their reset values, and nothing else changes of DRAM, channels and other pages. -/
theorem pageReset_kept (s : State) (pg : Nat) : (s.pageReset pg).dram = s.dram ∧ (s.pageReset pg).ch = s.ch ∧
    ∀ b, pageOf b ≠ pg → (s.pageReset pg).rd b = s.rd b := by
  obtain ⟨hd, hc, hr⟩ := foldl_regBlockReset_kept
    ((s.regs.map Prod.fst).filter fun a => decide (pageOf a = pg) && !blockKeeps a) s
  refine ⟨hd, hc, fun b hb => hr b fun hm => ?_⟩
  simp only [List.mem_filter, Bool.and_eq_true, decide_eq_true_eq] at hm
  exact hb hm.2.1

/-- The scrub unit stops, but for a retest. -/
def scrubStopped (s : State) : State := { s with ch := { s.ch with scrubRun := s.ch.scrubRun.filter ScrubRun.retest } }

/-- The scrub block has been reset, before its status shows a retest that goes on. -/
def scrubReset (s : State) : State :=
  let s := s.scrubStopped.pageReset 0x016
  { s with fcol := { s.fcol with rose := SMap.erase (fun a => decide (pageOf a = 0x016)) s.fcol.rose } }

theorem blockReset_scrub (s : State) : s.blockReset 0x016 =
    s.scrubReset.flag R.SCRUB_SCRUB_STAT F.SCRUB_SCRUB_STAT_CMD_BUSY s.scrubReset.ch.scrubRun.isSome := rfl

theorem blockReset_scrub_spec (s : State) : (s.blockReset 0x016).ch.scrubRun = s.ch.scrubRun.filter ScrubRun.retest ∧
    (s.blockReset 0x016).ch.walk = s.ch.walk ∧ (s.blockReset 0x016).dram = s.dram ∧
    (s.blockReset 0x016).rd R.PLACE_POL_CTL = s.rd R.PLACE_POL_CTL := by
  obtain ⟨hd, hc, hr⟩ := pageReset_kept s.scrubStopped 0x016
  have hd' : s.scrubReset.dram = s.dram := hd
  have hc' : s.scrubReset.ch = s.scrubStopped.ch := hc
  have hr' : s.scrubReset.rd R.PLACE_POL_CTL = s.rd R.PLACE_POL_CTL := hr _ (by decide)
  rw [blockReset_scrub]
  refine ⟨?_, ?_, ?_, ?_⟩
  · rw [flag_ch, hc']
    rfl
  · rw [flag_ch, hc']
    rfl
  · rw [flag_dram, hd']
  · rw [rd_flag, if_neg (by decide), hr']

/-! ### ENABLE of an engine -/

theorem enableEng_kept {e : Nat} {en : Bool} : (s.enableEng e en).on (R.ENG_ENG_CTL e) F.ENG_ENG_CTL_EN = en ∧
    (s.enableEng e en).dram = s.dram ∧ (s.enableEng e en).bist = s.bist ∧ (Calm s → Calm (s.enableEng e en)) := by
  unfold enableEng
  split
  · rename_i h
    exact ⟨h.symm, rfl, rfl, id⟩
  · have hon : ((s.flag (R.ENG_ENG_CTL e) F.ENG_ENG_CTL_EN en).flag (pgCtl (engPg e)) ⟨0, 1⟩ en).on (R.ENG_ENG_CTL e)
        F.ENG_ENG_CTL_EN = en := by
      refine (on_flag_other _ _ _ _ _ _ (.inl ?_)).trans (on_flag_same _ _ _ _ (by decide) rfl)
      unfold pgCtl engPg R.ENG_ENG_CTL
      omega
    have hcalm (h : Calm s) : Calm ((s.flag (R.ENG_ENG_CTL e) F.ENG_ENG_CTL_EN en).flag (pgCtl (engPg e)) ⟨0, 1⟩ en) :=
      flag_calm (flag_calm h)
    have hd : ((s.flag (R.ENG_ENG_CTL e) F.ENG_ENG_CTL_EN en).flag (pgCtl (engPg e)) ⟨0, 1⟩ en).dram = s.dram := rfl
    have hb : ((s.flag (R.ENG_ENG_CTL e) F.ENG_ENG_CTL_EN en).flag (pgCtl (engPg e)) ⟨0, 1⟩ en).bist = s.bist := rfl
    generalize (s.flag (R.ENG_ENG_CTL e) F.ENG_ENG_CTL_EN en).flag (pgCtl (engPg e)) ⟨0, 1⟩ en = u at hon hcalm hd hb ⊢
    have hrd := (workBlind_rd (a := R.ENG_ENG_CTL e) (by unfold R.ENG_ENG_CTL; omega)).engEnable u e
    exact ⟨(on_eq_of_rd hrd _).trans hon, (workBlind_dram.engEnable u e).trans hd, (workBlind_bist.engEnable u e).trans hb,
      fun h => WorkBlind.calm (fun g hg => hg.engEnable u e) (hcalm h)⟩

/-- A word that leaves the block reset and the gate alone gives an engine's page its ENABLE. -/
theorem regCmd_engine {e : Fin 36} {v : Word} {en : Bool} (ho : Open s path (pgCtl (engPg e)))
    (hr : F.PG_CTL_BLOCK_RESET.get v = 0) (hg : F.PG_CTL_GATE_REQ.get v = F.PG_CTL_GATE_REQ.get (s.rd (pgCtl (engPg e))))
    (hv : F.PG_CTL_ENABLE.get v = en.toNat) : s.regCmd path (pgCtl (engPg e)) v = (s.enableEng e en).afterUnit := by
  obtain ⟨hp, hpg, hoff, _, hf, he⟩ := engPages_plain e
  obtain ⟨h1, h2, h3⟩ := pgCtl_get (s.rd (pgCtl (engPg e))) v
  have hen : decide (F.PG_CTL_ENABLE.get v = 1) = en := by rw [hv]; cases en <;> rfl
  have h0 : ∀ x : Nat, ¬ (x = 0 ∧ x = 1) ∧ ¬ (x = 1 ∧ x = 0) := by omega
  rw [regCmd_pgCtl v ho hp hoff (softBits_other (by rw [hpg, hf]; decide) (by rw [hpg, hf]; decide))
    (by rw [hpg]; unfold engPg; omega), hpg]
  have ha (t : State) : t.afterWrite (engPg e) = t.afterUnit := by simp [afterWrite, hf]
  rw [ha]
  unfold wrPgCtl
  simp only [h1, h2, h3, hr, hg, hf, he, hen, h0, if_true, if_false]
  rfl

end State
end Sys2Proof.Machine

namespace Sys2Proof.Safety
open Sys2Proof.Machine Sys2Proof.Machine.State

variable {s : State} {path : Path} {pg : Nat}

/-- A command's word has the page's present value but for one field, and asks for no block reset. -/
theorem pgWord_get {page : BitVec 10} (h : page.toNat = pg) (hoff : offOf (pgCtl pg) = 0x0C) :
    s.pgWord page = F.PG_CTL_BLOCK_RESET.set 0 (s.rd (pgCtl pg)) := by
  unfold pgWord
  rw [h, cur_pgCtl hoff]

theorem block_toNat (hb : pg ∈ blockPages) : (BitVec.ofNat 10 pg).toNat = pg := by
  obtain ⟨_, _, _, hl, _⟩ := blockPages_plain pg hb
  exact Nat.mod_eq_of_lt hl

/-- A gate request over the present value. -/
theorem gateRequest_idle (hb : pg ∈ blockPages) (ho : Open s path (pgCtl pg)) (hg : s.on (pgCtl pg) pgGateReq = false) :
    exec (.gateRequest path (BitVec.ofNat 10 pg) false) s = .next (s.gateClose pg false) := by
  obtain ⟨_, _, hoff, _⟩ := blockPages_plain pg hb
  have hn := block_toNat hb
  have hv : s.pgWord (BitVec.ofNat 10 pg) = F.PG_CTL_BLOCK_RESET.set 0 (s.rd (pgCtl pg)) := pgWord_get hn hoff
  have hr : F.PG_CTL_BLOCK_RESET.get (F.PG_CTL_GATE_REQ.set 1 (F.PG_CTL_BLOCK_RESET.set 0 (s.rd (pgCtl pg)))) = 0 := by
    rw [Fld.get_set_other _ _ _ _ (by decide), Fld.get_set _ _ _ (by decide)]
    rfl
  have hq : F.PG_CTL_GATE_REQ.get (F.PG_CTL_GATE_REQ.set 1 (F.PG_CTL_BLOCK_RESET.set 0 (s.rd (pgCtl pg)))) = 1 := by
    rw [Fld.get_set _ _ _ (by decide)]
    rfl
  have ho' : F.PG_CTL_GATE_REQ.get (s.rd (pgCtl pg)) = 0 := on_eq_false.mp hg
  change execGateRequest path (BitVec.ofNat 10 pg) false s = _
  unfold execGateRequest
  rw [hv, hn]
  simp only [Bool.false_and, Bool.false_eq_true, if_false]
  rw [regCmd_block _ hb ho, hr, hq, ho']
  rfl

theorem gateRequest_busy (hb : pg ∈ blockPages) (ho : Open s path (pgCtl pg)) (hg : s.on (pgCtl pg) pgGateReq = false) :
    exec (.gateRequest path (BitVec.ofNat 10 pg) true) s = .next (s.gateWaits pg) := by
  obtain ⟨_, hpg, hoff, _, hs⟩ := blockPages_plain pg hb
  obtain ⟨hf, hn', ha, hc⟩ := blockPages_first pg hb
  simp only [List.mem_cons, List.not_mem_nil, or_false, not_or] at hn'
  obtain ⟨h1, h80, h88, h100, h180⟩ := hn'
  have hn := block_toNat hb
  have hv : s.pgWord (BitVec.ofNat 10 pg) = F.PG_CTL_BLOCK_RESET.set 0 (s.rd (pgCtl pg)) := pgWord_get hn hoff
  have hq : F.PG_CTL_GATE_REQ.get (F.PG_CTL_GATE_REQ.set 1 (F.PG_CTL_BLOCK_RESET.set 0 (s.rd (pgCtl pg)))) = 1 := by
    rw [Fld.get_set _ _ _ (by decide)]
    rfl
  have ho' : F.PG_CTL_GATE_REQ.get (F.PG_CTL_BLOCK_RESET.set 0 (s.rd (pgCtl pg))) = 0 := by
    rw [Fld.get_set_other _ _ _ _ (by decide)]
    exact on_eq_false.mp hg
  have hz : F.PG_CTL_BLOCK_RESET.get 0 ≠ 1 := by decide
  obtain ⟨hu, _⟩ := ho
  have hgate : s.gateOk pg = true := by
    unfold gateOk
    rw [if_pos hc]
  change execGateRequest path (BitVec.ofNat 10 pg) true s = _
  unfold execGateRequest
  rw [hv, hn]
  simp only [hu, hs, Bool.and_true, if_true]
  rw [afterWrite_self (by rwa [hf])]
  unfold wrPgCtl
  simp only [hf, h100, h180, hz, hq, ho', hgate, and_self, if_true, if_false]
  rfl

theorem gateOpen_gives (hb : pg ∈ blockPages) (ho : Open s path (pgCtl pg)) (hg : s.on (pgCtl pg) pgGateReq = true) :
    exec (.gateOpen path (BitVec.ofNat 10 pg)) s = .next (s.gateRelease pg) := by
  obtain ⟨_, _, hoff, _⟩ := blockPages_plain pg hb
  have hn := block_toNat hb
  have hv : s.pgWord (BitVec.ofNat 10 pg) = F.PG_CTL_BLOCK_RESET.set 0 (s.rd (pgCtl pg)) := pgWord_get hn hoff
  have hr : F.PG_CTL_BLOCK_RESET.get (F.PG_CTL_GATE_REQ.set 0 (F.PG_CTL_BLOCK_RESET.set 0 (s.rd (pgCtl pg)))) = 0 := by
    rw [Fld.get_set_other _ _ _ _ (by decide), Fld.get_set _ _ _ (by decide)]
    rfl
  have hq : F.PG_CTL_GATE_REQ.get (F.PG_CTL_GATE_REQ.set 0 (F.PG_CTL_BLOCK_RESET.set 0 (s.rd (pgCtl pg)))) = 0 := by
    rw [Fld.get_set _ _ _ (by decide)]
    rfl
  have ho' : F.PG_CTL_GATE_REQ.get (s.rd (pgCtl pg)) = 1 := by
    have h0 := on_eq_true.mp hg
    have hl := pgGateReq.get_lt (s.rd (pgCtl pg))
    have hl : s.fld (pgCtl pg) pgGateReq < 2 := hl
    show s.fld (pgCtl pg) pgGateReq = 1
    omega
  change execGateOpen path (BitVec.ofNat 10 pg) s = _
  unfold execGateOpen
  rw [hv, hn]
  dsimp only
  rw [regCmd_block _ hb ho, hr, hq, ho']
  rfl

theorem blockReset_gives (ho : Open s path (pgCtl 0x016)) : exec (.blockReset path 0x016) s = .next (s.blockReset 0x016) := by
  have hv : s.pgWord 0x016 = F.PG_CTL_BLOCK_RESET.set 0 (s.rd (pgCtl 0x016)) := pgWord_get rfl (by decide)
  have hr : F.PG_CTL_BLOCK_RESET.get (F.PG_CTL_BLOCK_RESET.set 1 (F.PG_CTL_BLOCK_RESET.set 0 (s.rd (pgCtl 0x016)))) = 1 := by
    rw [Fld.get_set _ _ _ (by decide)]
    rfl
  have hq : F.PG_CTL_GATE_REQ.get (F.PG_CTL_BLOCK_RESET.set 1 (F.PG_CTL_BLOCK_RESET.set 0 (s.rd (pgCtl 0x016)))) =
      F.PG_CTL_GATE_REQ.get (s.rd (pgCtl 0x016)) := by
    rw [Fld.get_set_other _ _ _ _ (by decide), Fld.get_set_other _ _ _ _ (by decide)]
  have h0 : ∀ x : Nat, ¬ (x = 0 ∧ x = 1) ∧ ¬ (x = 1 ∧ x = 0) := by omega
  have hk : s.resetOk 0x016 = true := rfl
  change execBlockReset path 0x016 s = _
  unfold execBlockReset
  rw [hv]
  change Host.Outcome.next (s.regCmd path (pgCtl 0x016) _) = _
  rw [regCmd_block _ (by decide) ho, hr, hq, hk]
  simp only [h0, if_true, if_false]

theorem pgEnable_block {en : Bool} (hb : pg ∈ blockPages) (ho : Open s path (pgCtl pg)) :
    exec (.pgEnableWrite path (BitVec.ofNat 10 pg) en) s = .next s := by
  obtain ⟨_, _, hoff, _⟩ := blockPages_plain pg hb
  have hn := block_toNat hb
  have hv : s.pgWord (BitVec.ofNat 10 pg) = F.PG_CTL_BLOCK_RESET.set 0 (s.rd (pgCtl pg)) := pgWord_get hn hoff
  have hr : F.PG_CTL_BLOCK_RESET.get (F.PG_CTL_ENABLE.set en.toNat (F.PG_CTL_BLOCK_RESET.set 0 (s.rd (pgCtl pg)))) = 0 := by
    rw [Fld.get_set_other _ _ _ _ (by decide), Fld.get_set _ _ _ (by decide)]
    rfl
  have hq : F.PG_CTL_GATE_REQ.get (F.PG_CTL_ENABLE.set en.toNat (F.PG_CTL_BLOCK_RESET.set 0 (s.rd (pgCtl pg)))) =
      F.PG_CTL_GATE_REQ.get (s.rd (pgCtl pg)) := by
    rw [Fld.get_set_other _ _ _ _ (by decide), Fld.get_set_other _ _ _ _ (by decide)]
  have h0 : ∀ x : Nat, ¬ (x = 0 ∧ x = 1) ∧ ¬ (x = 1 ∧ x = 0) := by omega
  change execPgEnableWrite path (BitVec.ofNat 10 pg) en s = _
  unfold execPgEnableWrite
  rw [hv, hn]
  dsimp only
  rw [regCmd_block _ hb ho, hr, hq]
  simp only [h0, zero_ne_one, if_false]

theorem pgEnable_engine {en : Bool} {e : Fin 36} (ho : Open s path (pgCtl (engPg e))) :
    exec (.pgEnableWrite path (BitVec.ofNat 10 (engPg e)) en) s = .next (s.enableEng e en).afterUnit := by
  obtain ⟨_, _, hoff, hl, _⟩ := engPages_plain e
  have hn : (BitVec.ofNat 10 (engPg e)).toNat = engPg e := Nat.mod_eq_of_lt hl
  have hv : s.pgWord (BitVec.ofNat 10 (engPg e)) = F.PG_CTL_BLOCK_RESET.set 0 (s.rd (pgCtl (engPg e))) := pgWord_get hn hoff
  change execPgEnableWrite path (BitVec.ofNat 10 (engPg e)) en s = _
  unfold execPgEnableWrite
  rw [hv, hn]
  refine congrArg Host.Outcome.next (regCmd_engine ho ?_ ?_ ?_)
  · rw [Fld.get_set_other _ _ _ _ (by decide), Fld.get_set _ _ _ (by decide)]
    rfl
  · rw [Fld.get_set_other _ _ _ _ (by decide), Fld.get_set_other _ _ _ _ (by decide)]
  · rw [Fld.get_set _ _ _ (by decide)]
    cases en <;> rfl

/-- Settles O4: a write of PG_CTL is its gate, reset or ENABLE (`regCmd_block`, `regCmd_engine`). -/
theorem gatesAndBlocks : Obligations.GatesAndBlocks := by
  unfold Obligations.GatesAndBlocks
  refine ⟨fun s path pg hb ho hg hr => ⟨_, gateRequest_idle hb ho hg, gateClose_now_spec hr⟩,
    fun s path pg hb ho hg => ⟨_, gateRequest_busy hb ho hg, gateWaits_spec s pg⟩, fun s pg hw hr => ?_,
    fun s pg hr => congrArg Host.Outcome.next (if_pos hr), fun s pg hw hr hq hg he => ?_,
    fun s path pg hb ho hg => ⟨_, gateOpen_gives hb ho hg, gateRelease_spec s pg⟩,
    fun s path ho => ⟨_, blockReset_gives ho, blockReset_scrub_spec s⟩,
    fun s path en pg hb ho _ => ⟨_, pgEnable_block hb ho, rfl, .refl s⟩, fun s path en e ho hc hn _ => ?_⟩
  · obtain ⟨h1, h2, h3⟩ := gateWithdrawn_spec s pg.toNat
    obtain ⟨k1, k2, k3, k4⟩ := gateRefused_spec (s.gateWithdrawn pg.toNat) pg.toNat
    obtain ⟨_, ha, hb⟩ := gate_addr pg.toNat
    refine gives_of_eq rfl (gateDenied_waiting hw hr) ⟨by rwa [k3], ?_, k1, by rw [k2, h3]⟩
    exact (on_eq_of_rd (k4 _ (by simp) (by simp [ha, hb])) _).trans h2
  · obtain ⟨k1, k2, k3, k4⟩ := gateRefused_spec (s.gateRetried pg.toNat) pg.toNat
    refine gives_of_eq rfl (gateDenied_hw hw hr hq hg he) ⟨?_, k1, k2, (RegsKept.of_regs (.refl s) rfl).trans k4⟩
    rw [k3]
    exact congrArg (fun l => { s.clk with hwRetry := l ++ [(pg.toNat, s.clk.up + 1000000)] }) he
  · obtain ⟨h1, h2, h3, h4⟩ := enableEng_kept (s := s) (e := e) (en := en)
    refine ⟨_, (pgEnable_engine ho).trans (congrArg Host.Outcome.next (afterUnit_noTest ⟨?_, ?_⟩)), ?_, ?_⟩
    · rw [h3]
      exact hn.1
    · rw [h3]
      exact hn.2
    · exact (on_eq_of_rd (settle_rd (h4 hc) _ (engCtl_page e)) _).trans h1
    · rw [settle_dram (h4 hc), h2]

end Sys2Proof.Safety
end

section
/-! SUPPORT. Requests of transmit equalisation (R35). -/

namespace Sys2Proof.Machine
open Sys2Proof.Safety Sys2Proof.Laws State

/-- The fields of a word of coefficients. -/
theorem firWord_get (a b c d : Nat) (ha : a < 8) (hb : b < 32) (hc : c < 64) (hd : d < 32) :
    F.TXG_TXL_EQ_PRE2.get (firWord a b c d) = a ∧ F.TXG_TXL_EQ_PRE1.get (firWord a b c d) = b ∧
      F.TXG_TXL_EQ_MAIN.get (firWord a b c d) = c ∧ F.TXG_TXL_EQ_POST1.get (firWord a b c d) = d := by
  unfold firWord
  simp only [Int.toNat_natCast]
  refine ⟨?_, ?_, ?_, ?_⟩
  · rw [Fld.get_set_other _ _ _ _ (by decide), Fld.get_set_other _ _ _ _ (by decide), Fld.get_set_other _ _ _ _ (by decide),
      Fld.get_set _ _ _ (by decide)]
    exact Nat.mod_eq_of_lt ha
  · rw [Fld.get_set_other _ _ _ _ (by decide), Fld.get_set_other _ _ _ _ (by decide), Fld.get_set _ _ _ (by decide)]
    exact Nat.mod_eq_of_lt hb
  · rw [Fld.get_set_other _ _ _ _ (by decide), Fld.get_set _ _ _ (by decide)]
    exact Nat.mod_eq_of_lt hc
  · rw [Fld.get_set _ _ _ (by decide)]
    exact Nat.mod_eq_of_lt hd

/-- Every preset is within the limits. -/
theorem presetOf_ok : ∀ p : Fin 8, firOk 0 (presetOf p).1 (presetOf p).2.1 (presetOf p).2.2 = true ∧
    (presetOf p).1 < 32 ∧ (presetOf p).2.1 < 64 ∧ (presetOf p).2.2 < 32 ∧
    ((presetOf p).1, (presetOf p).2.1, (presetOf p).2.2) =
      ([(0, 63, 0), (0, 57, 6), (0, 51, 12), (6, 51, 6), (6, 45, 12), (8, 43, 12), (4, 47, 12), (10, 41, 12)] : List _).getD
        p (0, 0, 0) := by decide

namespace State

variable {s : State} {g l : Nat}

/-- A preset's word. -/
def presetWord (p : Nat) : Word := firWord (0 : Nat) (presetOf p).1 (presetOf p).2.1 (presetOf p).2.2

theorem firRequest_preset (p : Fin 8) (h : s.on (R.TXG_TXL_CTL g l) F.TXG_TXL_CTL_EQ_OVR = false) :
    s.firRequest g l 0 3 p = some (presetWord p) := by
  obtain ⟨hok, _⟩ := presetOf_ok p
  simp [firRequest, h, hok, presetWord]

/-- A step beyond the largest main tap is refused. -/
theorem firRequest_main (h : s.fld (R.TXG_TXL_EQ g l) F.TXG_TXL_EQ_MAIN = 63) : s.firRequest g l 2 1 0 = none := by
  have hok (a b d : Int) : firOk a b 64 d = false := by
    unfold firOk
    exact decide_eq_false (by omega)
  simp [firRequest, h, hok]

theorem eqRequest_of {arg tap action preset : Nat} (hs : s.linkState = 4) (hl : arg % 16 = l) (h9 : l ≤ 9)
    (ht : arg / 16 % 8 = tap) (ha : arg / 128 % 4 = action) (hp : arg / 512 % 8 = preset) : s.eqRequest g arg =
      match s.firRequest g l tap action preset with
      | some w => (s.wr (R.TXG_TXL_EQ g l) w).setAck g 3 (arg % 2048)
      | none => s.setAck g 3 (arg % 2048 + 2048) := by
  unfold eqRequest
  dsimp only
  rw [hl, ht, ha, hp, if_neg (by omega)] <;> rfl

theorem setAck_get (s : State) (g c a : Nat) : SMap.get (fun _ => 0) (s.setAck g c a).link.ack g = c * 4096 + a :=
  SMap.get_set_same _ _ _ _

theorem setAck_memKept (s : State) (g c a : Nat) : MemKept s (s.setAck g c a) := ⟨rfl, rfl, rfl, rfl, rfl, rfl⟩

/-- The preset's coefficients are in the lane's register. -/
theorem presetWord_get (p : Fin 8) : F.TXG_TXL_EQ_PRE2.get (presetWord p) = 0 ∧
    (F.TXG_TXL_EQ_PRE1.get (presetWord p), F.TXG_TXL_EQ_MAIN.get (presetWord p), F.TXG_TXL_EQ_POST1.get (presetWord p)) =
      ((presetOf p).1, (presetOf p).2.1, (presetOf p).2.2) := by
  obtain ⟨_, h1, h2, h3, _⟩ := presetOf_ok p
  obtain ⟨k0, k1, k2, k3⟩ := firWord_get 0 (presetOf p).1 (presetOf p).2.1 (presetOf p).2.2 (by decide) h1 h2 h3
  unfold presetWord
  rw [k0, k1, k2, k3]
  exact ⟨rfl, rfl⟩

end State
end Sys2Proof.Machine

namespace Sys2Proof.Safety
open Sys2Proof.Machine Sys2Proof.Machine.State

/-- Settles O7: a request is read field by field (`eqRequest_of`); a preset is applied whatever the lane held, and a main tap
of 63 takes no step up. -/
theorem transmitEqualisation : Obligations.TransmitEqualisation := by
  unfold Obligations.TransmitEqualisation
  refine ⟨fun s g l p hs ho => ?_, fun s g l hs hm => ?_⟩
  · have hn : (BitVec.ofNat 12 (l + 128 * 3 + 512 * p)).toNat = l + 128 * 3 + 512 * p := Nat.mod_eq_of_lt (by omega)
    refine gives_of_eq rfl (u := (s.wr (R.TXG_TXL_EQ g l) (presetWord p)).setAck g 3 ((l + 128 * 3 + 512 * p) % 2048)) ?_ ?_
    · rw [hn, eqRequest_of (l := l) (tap := 0) (action := 3) (preset := p) hs (by omega) (by omega) (by omega) (by omega)
        (by omega), firRequest_preset p ho]
    · obtain ⟨_, _, _, _, he⟩ := presetOf_ok p
      obtain ⟨h0, h1⟩ := presetWord_get p
      have hf (f : Fld) : ((s.wr (R.TXG_TXL_EQ g l) (presetWord p)).setAck g 3 ((l + 128 * 3 + 512 * p) % 2048)).fld
          (R.TXG_TXL_EQ g l) f = f.get (presetWord p) := fld_wr_same _ _ _ _
      refine ⟨(hf _).trans h0, ?_, setAck_get _ _ _ _, (wr_memKept ..).trans (setAck_memKept _ _ _ _), ?_⟩
      · rw [hf, hf, hf, h1, he]
      · exact ((RegsKept.refl s).wr _ (.inl (by simp)) :
          RegsKept s (s.wr (R.TXG_TXL_EQ g l) (presetWord p)) [] [R.TXG_TXL_EQ g l]).of_regs rfl
  · have hn : (BitVec.ofNat 12 (l + 16 * 2 + 128 * 1)).toNat = l + 16 * 2 + 128 * 1 := Nat.mod_eq_of_lt (by omega)
    refine gives_of_eq rfl (u := s.setAck g 3 ((l + 16 * 2 + 128 * 1) % 2048 + 2048)) ?_ ?_
    · rw [hn, eqRequest_of (l := l) (tap := 2) (action := 1) (preset := 0) hs (by omega) (by omega) (by omega) (by omega)
        (by omega), firRequest_main hm]
    · refine ⟨rfl, setAck_memKept _ _ _ _, (setAck_get _ _ _ _).trans ?_⟩
      omega

end Sys2Proof.Safety
end

section
namespace Sys2Proof.Safety
open Sys2Proof.Machine Sys2Proof.Machine.State Sys2Proof.Tests

/-- Every lane group trained and usable, but both directions on one group only, while WIDTH_CTL asks for the full width; the
page of receive group 0 answers. -/
def narrowLink : State :=
  ((openPage ready 0x88).wr R.LINK_GROUP_USABLE 0xFFFF).wr R.LINK_WIDTH_STAT
    (F.LINK_WIDTH_STAT_RX_STEP.set 3 (F.LINK_WIDTH_STAT_RX_GROUPS.set 1
      (F.LINK_WIDTH_STAT_TX_STEP.set 3 (F.LINK_WIDTH_STAT_TX_GROUPS.set 1 0))))

/-- The narrow link meets what SPARE_CMD_START on lane 3 of group 0 asks. -/
theorem narrowLink_hyps_rx : Open narrowLink .pcie (R.RXG_SPARE_CMD 0) ∧ OnXo narrowLink ∧ Calm narrowLink ∧
    narrowLink.linkActive = true ∧ narrowLink.sparingRuns .rx 0 = false ∧ narrowLink.spareLane .rx 0 ≠ 15 ∧
    3 ∈ narrowLink.dataLanes .rx 0 := by
  unfold Open OnXo Calm
  decide +kernel

/-- The narrow link meets what SHADOW_REQ of lane 3 of group 0 asks. -/
theorem narrowLink_hyps_tx : narrowLink.linkActive = true ∧ narrowLink.spareLane .tx 0 ≠ 15 ∧
    3 ∈ narrowLink.dataLanes .tx 0 ∧ 3 ≠ narrowLink.spareLane .tx 0 := by
  decide +kernel

/-- Once the sparing has begun, the receive width is decided anew, and a change to the wider step starts. -/
theorem narrowLink_spareStart_widens : (match exec (.spareCmdStart .pcie 0 3) narrowLink with
    | .next t => decide (t.rd R.LINK_WIDTH_STAT ≠ narrowLink.rd R.LINK_WIDTH_STAT)
    | _ => false) = true := by
  decide +kernel

/-- Once the transmitter shadows a lane, its width is decided anew, and a change to the wider step starts. -/
theorem narrowLink_shadowReq_widens : (match exec (.shadowReq 0 3) narrowLink with
    | .next t => decide (t.rd R.LINK_WIDTH_STAT ≠ narrowLink.rd R.LINK_WIDTH_STAT)
    | _ => false) = true := by
  decide +kernel

/-- Refutes O9: the clause on SPARE_CMD_START says that, but for SPARE_STAT, no register changes; where the link is narrower
than its decided width, the start of a sparing also starts a width change, which LINK.WIDTH_STAT shows (R91). -/
theorem not_hitlessSparing : ¬ Obligations.HitlessSparing := by
  unfold Obligations.HitlessSparing
  intro h
  obtain ⟨hstart, -⟩ := h
  obtain ⟨hopen, hxo, hcalm, hactive, hidle, hspare, hlane⟩ := narrowLink_hyps_rx
  obtain ⟨t, ht, -, -, -, -, -, -, hregs⟩ := hstart narrowLink .pcie 0 3 hopen hxo hcalm hactive hidle hspare hlane
  have hwide := narrowLink_spareStart_widens
  rw [ht] at hwide
  exact of_decide_eq_true hwide (hregs R.LINK_WIDTH_STAT (by decide) (by decide))

/-- Refutes O10: the clause on SHADOW_REQ says that, but for GRP_STAT, no register changes; where the link is narrower than its
decided width, the start of a sparing also starts a width change, which LINK.WIDTH_STAT shows (R91). -/
theorem not_transmitSparing : ¬ Obligations.TransmitSparing := by
  unfold Obligations.TransmitSparing
  intro h
  obtain ⟨hshadow, -⟩ := h
  obtain ⟨hactive, hspare, hlane, hother⟩ := narrowLink_hyps_tx
  obtain ⟨t, ht, -, -, -, -, hregs⟩ := hshadow narrowLink 0 3 hactive hspare hlane hother
  have hwide := narrowLink_shadowReq_widens
  rw [ht] at hwide
  exact of_decide_eq_true hwide (hregs R.LINK_WIDTH_STAT (by decide) (by decide))

end Sys2Proof.Safety
end

section
/-! SUPPORT. The lanes (R26 to R64): which registers training, sparing and width changes write, and what they leave alone. -/

namespace Sys2Proof.Machine
open Sys2Proof.Safety State

theorem foldl_blind_mem {α β : Type} {g : State → α} {f : State → β → State} (l : List β) (h : ∀ b ∈ l, ∀ t, g (f t b) = g t)
    (s : State) : g (l.foldl f s) = g s := by
  induction l generalizing s with
  | nil => rfl
  | cons b l ih =>
    rw [List.foldl_cons, ih (fun c hc => h c (List.mem_cons_of_mem _ hc)), h b List.mem_cons_self]

theorem groups_lt : ∀ i ∈ groups, i < 8 := by decide
theorem lanesOfGroup_lt : ∀ l ∈ lanesOfGroup, l < 16 := by decide

/-- Which groups are usable stands in one register. -/
theorem setUsable_rd (s : State) (d : Dir) (i : Nat) (b : Bool) {a : Nat} (h : a ≠ R.LINK_GROUP_USABLE) :
    (s.setUsable d i b).rd a = s.rd a := rd_wr_other _ _ _ _ h

/-- A field that shows the lanes: status of a group, of its lanes or of its sparing, and the changes of width that
run. LOOP_TIMED and STALE are none of them. -/
inductive LaneFld : Nat → Fld → Prop
  | sparing {i : Nat} (f : Fld) (hi : i < 8) : LaneFld (R.RXG_SPARE_STAT i) f
  | rx {i : Nat} (f : Fld) (hi : i < 8) (hf : f.lsb + f.width ≤ 20 ∨ 21 ≤ f.lsb) : LaneFld (R.RXG_GRP_STAT i) f
  | lane {i l : Nat} (f : Fld) (hi : i < 8) (hl : l < 16) : LaneFld (R.RXG_RXL_STAT i l) f
  | tx {i : Nat} (f : Fld) (hi : i < 8) (hf : f.lsb + f.width ≤ 20 ∨ 21 ≤ f.lsb) : LaneFld (R.TXG_GRP_STAT i) f
  | busy (f : Fld) (hf : 4 ≤ f.lsb) : LaneFld R.LINK_WIDTH_STAT f

/-- What the lanes' training, sparing and changes of width leave of the link's own state. -/
def linkCore (l : LinkState) :=
  (l.stored, l.badRx, l.badTx, l.attempts, l.failed, l.fresh, l.trained, l.precodeRx, l.precodeTx, l.rx, l.credRet, l.autoStep,
    l.slotsAll, l.slotsUsed, l.replayAt, l.hold)

theorem linkCore_fields {l m : LinkState} (h : linkCore l = linkCore m) : l.stored = m.stored ∧ l.badRx = m.badRx ∧
    l.badTx = m.badTx ∧ l.attempts = m.attempts ∧ l.failed = m.failed ∧ l.fresh = m.fresh ∧ l.trained = m.trained ∧
    l.precodeRx = m.precodeRx ∧ l.precodeTx = m.precodeTx ∧ l.rx = m.rx ∧ l.credRet = m.credRet ∧ l.autoStep = m.autoStep ∧
    l.slotsAll = m.slotsAll ∧ l.slotsUsed = m.slotsUsed ∧ l.replayAt = m.replayAt ∧ l.hold = m.hold := by
  simpa only [linkCore, Prod.mk.injEq] using h

/-- A part of the state in which those fields, the rest of the link's own state and the count of its monitor do not show. -/
structure LaneBlind {α : Type} (g : State → α) : Prop where
  put : ∀ (s : State) {a : Nat} {f : Fld} (n : Nat), LaneFld a f → g (s.put a f n) = g s
  link : ∀ (s : State) (l : LinkState), linkCore l = linkCore s.link → g { s with link := l } = g s
  mon : ∀ s : State, g s.monStop = g s

/-! ### A change of width that begins -/

/-- What a change of width that begins leaves of the link's own state. -/
def widthCore (l : LinkState) := (linkCore l, l.raised, l.exits, l.frozen, l.ready, l.lanes)

section
variable {α : Type} {g : State → α} (hl : ∀ (s : State) (l : LinkState), widthCore l = widthCore s.link → g { s with link := l } = g s)
include hl

theorem emit_blind (s : State) (i l : Nat) (syms : List Nat) : g (s.emit i l syms) = g s := hl s _ rfl
theorem quiet_blind (s : State) (i l : Nat) : g (s.quiet i l) = g s := hl s _ rfl
theorem blockSyms_blind (s : State) (i l c : Nat) (bits : List Bool) : g (s.blockSyms i l c bits).2 = g s := hl s _ rfl

/-- A burst on a transmit group. -/
theorem laneBurst_blind (s : State) (i code : Nat) : g (s.laneBurst i code) = g s := by
  have hblocks (l : Nat) (ns : List Nat) : ∀ x : List Nat × State,
      g (ns.foldl (fun (x : List Nat × State) n =>
        let y := x.2.blockSyms i l (code * 4096 + (if code = 10 then n else 0)) (List.replicate 960 false)
        (x.1 ++ y.1, y.2)) x).2 = g x.2 := by
    induction ns with
    | nil => exact fun _ => rfl
    | cons n ns ih => exact fun x => (ih _).trans (blockSyms_blind hl x.2 i l (code * 4096 + (if code = 10 then n else 0)) _)
  unfold State.laneBurst
  refine (hl _ _ (by rfl)).trans (foldl_blind (fun t l => ?_) _ s)
  exact (emit_blind hl ..).trans ((quiet_blind hl ..).trans (hblocks l _ _))

variable (hb : ∀ (s : State) (f : Fld) (b : Bool), 4 ≤ f.lsb → g (s.flag R.LINK_WIDTH_STAT f b) = g s)
include hb

theorem startWidth_blind (s : State) (d : Dir) (n : Nat) : g (s.startWidth d n) = g s := by
  cases d with
  | rx => exact (hl _ _ (by rfl)).trans ((hb _ _ _ (by decide)).trans (hl s _ rfl))
  | tx =>
    exact (foldl_blind (fun t i => laneBurst_blind hl t i 10) _ _).trans
      ((hl _ _ (by rfl)).trans ((hb _ _ _ (by decide)).trans (hl s _ rfl)))

theorem decideWidth_blind (s : State) (d : Dir) : g (s.decideWidth d) = g s := by
  unfold State.decideWidth
  split
  · rfl
  · split
    · rfl
    · split
      · rfl
      · exact startWidth_blind hl hb s d _

end

namespace LaneBlind

variable {α : Type} {g : State → α} (hg : LaneBlind g) (s : State)
include hg

theorem flag {a : Nat} {f : Fld} (h : LaneFld a f) (b : Bool) : g (s.flag a f b) = g s := hg.put s _ h
theorem setBit {a : Nat} {f : Fld} (h : LaneFld a f) (i : Nat) (b : Bool) : g (s.setBit a f i b) = g s := hg.put s _ h

theorem grpStat (d : Dir) {i : Nat} (hi : i < 8) (f : Fld) (hf : f.lsb + f.width ≤ 20) (n : Nat) :
    g (s.put (s.grpStat d i) f n) = g s := by
  cases d with
  | rx => exact hg.put s _ (.rx f hi (.inl hf))
  | tx => exact hg.put s _ (.tx f hi (.inl hf))

theorem setGrpState (d : Dir) {i : Nat} (hi : i < 8) (n : Nat) : g (s.setGrpState d i n) = g s :=
  hg.grpStat s d hi _ (by decide) n
theorem setSpare (d : Dir) {i : Nat} (hi : i < 8) (n : Nat) : g (s.setSpare d i n) = g s :=
  hg.grpStat s d hi _ (by decide) n

theorem setParked (d : Dir) {i : Nat} (hi : i < 8) (b : Bool) : g (s.setParked d i b) = g s := by
  cases d with
  | rx => exact hg.flag s (.rx _ hi (.inl (by decide))) b
  | tx => exact hg.flag s (.tx _ hi (.inl (by decide))) b

theorem setRef (r : Option (Nat × Nat)) : g (s.setRef r) = g s := by
  unfold State.setRef
  dsimp only
  rw [foldl_blind_mem groups fun i hi t => hg.flag t (.rx _ (groups_lt i hi) (.inr (by decide))) _]
  exact hg.link s _ rfl

/-- Flags of every lane of a group. -/
theorem laneFlags {i : Nat} (hi : i < 8) (f : Fld) (b : State → Nat → Bool) :
    g (lanesOfGroup.foldl (fun u l => u.flag (R.RXG_RXL_STAT i l) f (b u l)) s) = g s :=
  foldl_blind_mem lanesOfGroup (fun l hl t => hg.flag t (.lane f hi (lanesOfGroup_lt l hl)) _) s

/-- Two flags of every lane of a group. -/
theorem laneFlags₂ {i : Nat} (hi : i < 8) (f f' : Fld) (b b' : Nat → Bool) :
    g (lanesOfGroup.foldl (fun u l => (u.flag (R.RXG_RXL_STAT i l) f (b l)).flag (R.RXG_RXL_STAT i l) f' (b' l)) s) = g s :=
  foldl_blind_mem lanesOfGroup (fun l hl t =>
    (hg.flag _ (.lane f' hi (lanesOfGroup_lt l hl)) _).trans (hg.flag t (.lane f hi (lanesOfGroup_lt l hl)) _)) s

/-! ### Training -/

theorem groupTo (was n : Nat) (d : Dir) {i : Nat} (hi : i < 8) : g (s.groupTo was n d i) = g s := by
  have hpark : g (if n = 7 then s else s.setParked d i false) = g s := by
    split
    · rfl
    · exact hg.setParked s d hi _
  unfold State.groupTo
  dsimp only
  split
  · rfl
  · exact (hg.setGrpState _ d hi n).trans hpark

theorem clearTrained (hu : ∀ (t : State) d i b, g (t.setUsable d i b) = g t) : g s.clearTrained = g s := by
  unfold State.clearTrained
  dsimp only
  refine (hg.link _ _ (by rfl)).trans ((hg.setRef _ _).trans (foldl_blind_mem groups (fun i hi t => ?_) s))
  rw [hg.laneFlags₂ _ (groups_lt i hi) _ _ (fun _ => false) (fun _ => false), hu, hu,
    hg.flag t (.rx _ (groups_lt i hi) (.inl (by decide)))]

/-- Entering a training state. -/
theorem setLinkState (hs : ∀ (t : State) n, g (t.put R.LINK_LL_STAT F.LINK_LL_STAT_LINK_STATE n) = g t) (n : Nat)
    (hu : n ≤ 2 → ∀ (t : State) d i b, g (t.setUsable d i b) = g t) : g (s.setLinkState n) = g s := by
  have hgrp (was : Nat) (t : State) :
      g (groups.foldl (fun (t : State) i => (t.groupTo was n .rx i).groupTo was n .tx i) t) = g t :=
    foldl_blind_mem groups (fun i hi t => (hg.groupTo _ _ _ .tx (groups_lt i hi)).trans
      (hg.groupTo t _ _ .rx (groups_lt i hi))) t
  unfold State.setLinkState
  dsimp only
  split
  next hn => rw [hg.clearTrained _ (hu hn), hgrp, hs, hg.mon]
  · rw [hgrp, hs, hg.mon]

/-- Loop timing begins or ends. -/
theorem setLoopTimed (hl : ∀ (t : State) (i : Nat) b, g (t.flag (R.TXG_GRP_STAT i) F.TXG_GRP_STAT_LOOP_TIMED b) = g t) (b : Bool) :
    g (s.setLoopTimed b) = g s := by
  unfold State.setLoopTimed
  rw [foldl_blind (fun t i => hl t i b), hg.mon]

theorem showLanes (d : Dir) {i : Nat} (hi : i < 8) (bad : List Nat) (sp : Nat) : g (s.showLanes d i bad sp) = g s := by
  have hgrp (n : Nat) : g ((s.put (s.grpStat d i) F.RXG_GRP_STAT_RETIRED n).setSpare d i sp) = g s :=
    (hg.setSpare _ d hi sp).trans (hg.grpStat s d hi _ (by decide) n)
  unfold State.showLanes
  generalize bad.foldl (fun n l => n + 2 ^ l) 0 = n
  cases d with
  | rx => exact (hg.laneFlags₂ _ hi _ _ (fun l => bad.contains l) (fun l => decide (l = sp))).trans (hgrp n)
  | tx => exact hgrp n

theorem placeGroup (d : Dir) {i : Nat} (hi : i < 8) : g (s.placeGroup d i) = g s := by
  unfold State.placeGroup State.setDataLanes
  dsimp only
  rw [hg.link _ _ (by rfl), hg.showLanes s d hi]

theorem placeSpares (d : Dir) : g (s.placeSpares d) = g s := by
  refine foldl_blind_mem groups (fun i hi t => ?_) s
  split
  · rfl
  · exact hg.placeGroup t d (groups_lt i hi)

/-- Lanes that training sets aside. -/
theorem failLanes (hb : ∀ (t : State) x y, g { t with link := { t.link with badRx := x, badTx := y } } = g t) (rx tx : List Nat) :
    g (s.failLanes rx tx) = g s := by
  unfold State.failLanes
  dsimp only
  rw [hg.placeSpares, hg.placeSpares, hb]

theorem lockLanes (f : Fld) : g (s.lockLanes f) = g s := by
  refine foldl_blind_mem s.trainGroups (fun i hi t => ?_) s
  exact hg.laneFlags t (groups_lt i (List.mem_of_mem_filter hi)) f _

/-! ### Sparing -/

theorem laneRetired (d : Dir) {i l : Nat} (hi : i < 8) (hl : d = .rx → l < 16) : g (s.laneRetired d i l) = g s := by
  have hbit (t : State) : g (t.setBit (t.grpStat d i) F.RXG_GRP_STAT_RETIRED l true) = g t := by
    cases d with
    | rx => exact hg.setBit t (.rx _ hi (.inl (by decide))) _ _
    | tx => exact hg.setBit t (.tx _ hi (.inl (by decide))) _ _
  cases d with
  | rx =>
    refine (hg.link _ _ (by rfl)).trans ((hg.flag _ (.lane _ hi (hl rfl)) _).trans ?_)
    exact (hg.laneFlags₂ _ hi _ _ (fun _ => false) (fun _ => false)).trans ((hg.setSpare _ .rx hi _).trans (hbit s))
  | tx => exact (hg.link _ _ (by rfl)).trans ((hg.setSpare _ .tx hi _).trans (hbit s))

theorem spareTaken {i : Nat} (hi : i < 8) : g (s.spareTaken i) = g s := by
  unfold State.spareTaken State.raiseEvent
  dsimp only
  rw [hg.link _ _ (by rfl), hg.put _ _ (.sparing _ hi)]
  exact hg.laneRetired s .rx hi fun _ => Fld.get_lt ..

theorem txTaken {i : Nat} (hi : i < 8) : g (s.txTaken i) = g s := by
  unfold State.txTaken
  split
  · split
    · exact hg.laneRetired s .tx hi nofun
    · rfl
  · rfl

theorem abortSparings : g s.abortSparings = g s := by
  unfold State.abortSparings
  refine (foldl_blind_mem groups (fun i hi t => ?_) _).trans (hg.link s _ rfl)
  have hi := groups_lt i hi
  have hphase : g (if t.fld (R.RXG_SPARE_STAT i) F.RXG_SPARE_STAT_PHASE = 5 then t.spareTaken i
      else if 1 ≤ t.fld (R.RXG_SPARE_STAT i) F.RXG_SPARE_STAT_PHASE ∧ t.fld (R.RXG_SPARE_STAT i) F.RXG_SPARE_STAT_PHASE ≤ 4
      then t.put (R.RXG_SPARE_STAT i) F.RXG_SPARE_STAT_PHASE 6 else t) = g t := by
    split
    · exact hg.spareTaken t hi
    · split
      · exact hg.put t _ (.sparing _ hi)
      · rfl
  dsimp only
  rw [hg.laneFlags _ hi, hg.link _ _ (by rfl), hg.flag _ (.tx _ hi (.inr (by decide))), hg.txTaken _ hi]
  exact hphase

/-! ### Width -/

theorem dropWidthChange : g s.dropWidthChange = g s := by
  unfold State.dropWidthChange
  dsimp only
  rw [hg.link _ _ (by rfl), hg.flag _ (.busy _ (by decide)), hg.flag s (.busy _ (by decide))]

theorem width (t : State) (l : LinkState) (h : widthCore l = widthCore t.link) : g { t with link := l } = g t :=
  hg.link t l (congrArg Prod.fst h)

theorem startWidth (d : Dir) (n : Nat) : g (s.startWidth d n) = g s :=
  startWidth_blind hg.width (fun t f b h => hg.flag t (.busy f h) b) s d n

theorem decideWidth (d : Dir) : g (s.decideWidth d) = g s :=
  decideWidth_blind hg.width (fun t f b h => hg.flag t (.busy f h) b) s d

/-- The link leaves ACTIVE for RECOVER. -/
theorem enterRecover (hs : ∀ (t : State) n, g (t.put R.LINK_LL_STAT F.LINK_LL_STAT_LINK_STATE n) = g t)
    (hr : ∀ t : State, g (t.inc R.LINK_RECOVERS) = g t) : g s.enterRecover = g s := by
  have hstate : g (((s.abortSparings.dropWidthChange).setLinkState 8).inc R.LINK_RECOVERS) = g s := by
    rw [hr, hg.setLinkState _ hs 8 (fun h => absurd h (by decide)), hg.dropWidthChange, hg.abortSparings]
  unfold State.enterRecover
  generalize ((s.abortSparings.dropWidthChange).setLinkState 8).inc R.LINK_RECOVERS = u at hstate
  split
  · refine (hg.link _ _ (by rfl)).trans ((foldl_blind_mem groups (fun i hi t => ?_) u).trans hstate)
    rw [hg.laneFlags _ (groups_lt i hi), hg.flag t (.rx _ (groups_lt i hi) (.inl (by decide)))]
  · rfl

end LaneBlind

/-! ### What no event of the lanes touches -/

/-- The pages of the link and of its lane groups. -/
abbrev linkPage (p : Nat) : Prop := p = 0x00E ∨ 0x080 ≤ p ∧ p < 0x090

/-- A part of the state beside the link: no register of its pages, nothing of its own state, no count of an event and nothing
of the clock monitor or of the tests of spare lanes. -/
structure LinkFree {α : Type} (g : State → α) : Prop where
  wr : ∀ (s : State) a v, linkPage (pageOf a) → g (s.wr a v) = g s
  counted : ∀ (s : State) a n, g (s.counted a n) = g s
  link : ∀ (s : State) l, g { s with link := l } = g s
  bad : ∀ (s : State) n, g { s with clk := { s.clk with linkBad := n } } = g s
  hold : ∀ (s : State) b, g { s with clk := { s.clk with holdover := b } } = g s
  loopOut : ∀ (s : State) l, g { s with bist := { s.bist with loopOut := l } } = g s

theorem LaneFld.page {a : Nat} {f : Fld} (h : LaneFld a f) : linkPage (pageOf a) := by
  unfold linkPage pageOf
  cases h with
  | sparing f hi => simp only [R.RXG_SPARE_STAT]; omega
  | rx f hi hf => simp only [R.RXG_GRP_STAT]; omega
  | lane f hi hl => simp only [R.RXG_RXL_STAT]; omega
  | tx f hi hf => simp only [R.TXG_GRP_STAT]; omega
  | busy f hf => exact .inl rfl

/-- A register of the LINK page but the one of the width. -/
theorem LaneFld.ne_link {a b : Nat} {f : Fld} (h : LaneFld a f) (hp : pageOf b = 0x00E) (hw : b ≠ R.LINK_WIDTH_STAT) : b ≠ a := by
  rintro rfl
  unfold pageOf at hp
  cases h with
  | sparing f hi => simp only [R.RXG_SPARE_STAT] at hp; omega
  | rx f hi hf => simp only [R.RXG_GRP_STAT] at hp; omega
  | lane f hi hl => simp only [R.RXG_RXL_STAT] at hp; omega
  | tx f hi hf => simp only [R.TXG_GRP_STAT] at hp; omega
  | busy f hf => exact hw rfl

theorem laneBlind_rd {b : Nat} (hp : pageOf b = 0x00E) (hw : b ≠ R.LINK_WIDTH_STAT) :
    LaneBlind (·.rd b) :=
  ⟨fun _ _ _ _ h => rd_wr_other _ _ _ _ (h.ne_link hp hw), fun _ _ _ => rfl, fun _ => rfl⟩

theorem laneBlind_fld {b : Nat} (f : Fld) (hp : pageOf b = 0x00E) (hw : b ≠ R.LINK_WIDTH_STAT) :
    LaneBlind (·.fld b f) :=
  ⟨fun _ _ _ _ h => fld_put_other _ _ _ _ _ _ (.inl (h.ne_link hp hw)), fun _ _ _ => rfl, fun _ => rfl⟩

/-- A register of group control. -/
theorem laneBlind_grpCtl (i : Nat) : LaneBlind (·.rd (R.TXG_GRP_CTL i)) := by
  refine ⟨fun s a f n h => rd_wr_other _ _ _ _ ?_, fun _ _ _ => rfl, fun _ => rfl⟩
  intro e
  generalize hb : R.TXG_GRP_CTL i = b at e
  simp only [R.TXG_GRP_CTL] at hb
  subst e
  cases h with
  | sparing f hi => simp only [R.RXG_SPARE_STAT] at hb; omega
  | rx f hi hf => simp only [R.RXG_GRP_STAT] at hb; omega
  | lane f hi hl => simp only [R.RXG_RXL_STAT] at hb; omega
  | tx f hi hf => simp only [R.TXG_GRP_STAT] at hb; omega
  | busy f hf => simp only [R.LINK_WIDTH_STAT] at hb; omega

theorem laneBlind_core : LaneBlind fun s => linkCore s.link := ⟨fun _ _ _ _ _ => rfl, fun _ _ h => h, fun _ => rfl⟩

theorem laneBlind_linkState : LaneBlind State.linkState := laneBlind_fld _ rfl (by decide)

theorem laneBlind_curStep (d : Dir) : LaneBlind (·.curStep d) where
  put s a f n h := by
    have other {g : Fld} (hg : g.lsb + g.width ≤ 4) : (s.put a f n).fld R.LINK_WIDTH_STAT g = s.fld R.LINK_WIDTH_STAT g := by
      refine fld_put_other _ _ _ _ _ _ ?_
      by_cases e : R.LINK_WIDTH_STAT = a
      · refine .inr (.inl (hg.trans ?_))
        generalize hb : R.LINK_WIDTH_STAT = b at e
        simp only [R.LINK_WIDTH_STAT] at hb
        subst e
        cases h with
        | sparing f hi => simp only [R.RXG_SPARE_STAT] at hb; omega
        | rx f hi hf => simp only [R.RXG_GRP_STAT] at hb; omega
        | lane f hi hl => simp only [R.RXG_RXL_STAT] at hb; omega
        | tx f hi hf => simp only [R.TXG_GRP_STAT] at hb; omega
              | busy f hf => exact hf
      · exact .inl e
    cases d with
    | rx => exact other (by decide)
    | tx => exact other (by decide)
  link _ _ _ := by cases d <;> rfl
  mon _ := by cases d <;> rfl

theorem laneBlind_loopTimed : LaneBlind State.loopTimed where
  put s a f n h := by
    refine on_put_other _ _ _ _ _ _ ?_
    by_cases e : R.TXG_GRP_STAT 0 = a
    · refine .inr ?_
      generalize hb : R.TXG_GRP_STAT 0 = b at e
      simp only [R.TXG_GRP_STAT] at hb
      subst e
      cases h with
      | sparing f hi => simp only [R.RXG_SPARE_STAT] at hb; omega
      | rx f hi hf => simp only [R.RXG_GRP_STAT] at hb; omega
      | lane f hi hl => simp only [R.RXG_RXL_STAT] at hb; omega
      | tx f hi hf => exact hf.symm
          | busy f hf => simp only [R.LINK_WIDTH_STAT] at hb; omega
    · exact .inl e
  link _ _ _ := rfl
  mon _ := rfl

/-! ### The state and the timing that are set -/

namespace State

variable (s : State)

theorem setLinkState_linkState {n : Nat} (hn : n < 16) : (s.setLinkState n).linkState = n := by
  have hgrp (was : Nat) (t : State) : (groups.foldl (fun (t : State) i => (t.groupTo was n .rx i).groupTo was n .tx i) t).linkState
      = t.linkState := foldl_blind_mem groups (fun i hi t => (laneBlind_linkState.groupTo _ _ _ .tx (groups_lt i hi)).trans
        (laneBlind_linkState.groupTo t _ _ .rx (groups_lt i hi))) t
  have hput : (s.monStop.put R.LINK_LL_STAT F.LINK_LL_STAT_LINK_STATE n).linkState = n :=
    (fld_put_same _ _ _ _ (by decide)).trans (Nat.mod_eq_of_lt hn)
  unfold setLinkState
  dsimp only
  split
  · rw [laneBlind_linkState.clearTrained _ fun _ _ _ _ => fld_eq_of_rd (setUsable_rd _ _ _ _ (by decide)) _, hgrp, hput]
  · rw [hgrp, hput]

theorem setLinkState_core (n : Nat) : linkCore (s.setLinkState n).link = linkCore s.link :=
  laneBlind_core.setLinkState s (fun _ _ => rfl) n fun _ _ _ _ _ => rfl

theorem setLinkState_loopTimed (n : Nat) : (s.setLinkState n).loopTimed = s.loopTimed :=
  laneBlind_loopTimed.setLinkState s (fun _ _ => on_put_other _ _ _ _ _ _ (.inl (by decide))) n
    fun _ _ _ _ _ => on_eq_of_rd (setUsable_rd _ _ _ _ (by decide)) _

theorem setLoopTimed_link (b : Bool) : (s.setLoopTimed b).link = s.link := by
  unfold setLoopTimed
  exact foldl_blind (g := State.link) (f := fun t i => t.flag (R.TXG_GRP_STAT i) F.TXG_GRP_STAT_LOOP_TIMED b)
    (fun _ _ => rfl) groups s.monStop

theorem setLoopTimed_loopTimed (b : Bool) : (s.setLoopTimed b).loopTimed = b := by
  have hrest (l : List Nat) (hl : ∀ i ∈ l, i ≠ 0) (t : State) :
      (l.foldl (fun t i => t.flag (R.TXG_GRP_STAT i) F.TXG_GRP_STAT_LOOP_TIMED b) t).loopTimed = t.loopTimed :=
    foldl_blind_mem l (fun i hi t => on_flag_other _ _ _ _ _ _ (.inl (by
      have := hl i hi
      simp only [R.TXG_GRP_STAT]
      omega))) t
  show ([1, 2, 3, 4, 5, 6, 7].foldl (fun t i => t.flag (R.TXG_GRP_STAT i) F.TXG_GRP_STAT_LOOP_TIMED b)
    (s.monStop.flag (R.TXG_GRP_STAT 0) F.TXG_GRP_STAT_LOOP_TIMED b)).loopTimed = b
  rw [hrest _ (by decide)]
  exact on_flag_same _ _ _ _ (by decide) rfl

end State

namespace LinkFree

variable {α : Type} {g : State → α} (hg : LinkFree g) (s : State)
include hg

theorem blind : LaneBlind g := ⟨fun s _ _ _ h => hg.wr s _ _ h.page, fun s l _ => hg.link s l, fun s => hg.bad s 0⟩

theorem put {a : Nat} (h : linkPage (pageOf a)) (f : Fld) (n : Nat) : g (s.put a f n) = g s := hg.wr s _ _ h
theorem flag {a : Nat} (h : linkPage (pageOf a)) (f : Fld) (b : Bool) : g (s.flag a f b) = g s := hg.wr s _ _ h

theorem inc {a : Nat} (h : linkPage (pageOf a)) (n : Nat) : g (s.inc a n) = g s := by
  unfold State.inc
  split
  · rfl
  · rw [hg.counted, hg.wr s _ _ h]

theorem setLinkState (n : Nat) : g (s.setLinkState n) = g s :=
  hg.blind.setLinkState s (fun t n => hg.put t (.inl rfl) _ n) n fun _ t _ _ _ => hg.put t (.inl rfl) _ _

theorem setLoopTimed (b : Bool) : g (s.setLoopTimed b) = g s := by
  unfold State.setLoopTimed
  rw [foldl_blind_mem (g := g) groups fun i hi t => hg.flag t (.inr ?_) _ _]
  · exact hg.bad s 0
  · have := groups_lt i hi
    simp only [pageOf, R.TXG_GRP_STAT]
    omega

theorem failLanes (rx tx : List Nat) : g (s.failLanes rx tx) = g s := hg.blind.failLanes s (fun t _ _ => hg.link t _) rx tx

theorem enterRecover : g s.enterRecover = g s :=
  hg.blind.enterRecover s (fun t n => hg.put t (.inl rfl) _ n) fun t => hg.inc t (.inl rfl) 1

theorem startTraining (n : Nat) : g (s.startTraining n) = g s := by
  have hcount : g (if s.link.trained then s.inc R.LINK_RETRAINS else s) = g s := by
    split
    · exact hg.inc s (.inl rfl) 1
    · rfl
  have hstate (u : State) : g ((u.abortSparings.dropWidthChange.setLoopTimed false).setLinkState n) = g u := by
    rw [hg.setLinkState, hg.setLoopTimed, hg.blind.dropWidthChange, hg.blind.abortSparings]
  have hfresh (u : State) : g (if n = 1 then
      { u with bist := { u.bist with loopOut := [] }, link := { u.link with deadRx := [], deadTx := [], fresh := true } }
      else u) = g u := by
    split
    · exact (hg.link { u with bist := { u.bist with loopOut := [] } } _).trans (hg.loopOut u _)
    · rfl
  unfold State.startTraining
  dsimp only
  rw [hg.blind.placeSpares, hg.blind.placeSpares]
  exact (hg.link _ _).trans ((hfresh _).trans ((hstate _).trans hcount))

end LinkFree

/-! ### Adaptation of a receive lane (R36, R37) -/

/-- The registers that adaptation of a receive lane moves. -/
def adaptRegs (i l : Nat) : List Nat := [R.RXG_RXL_CTLE i l, R.RXG_RXL_DFE_A i l, R.RXG_RXL_DFE_B i l, R.RXG_RXL_DFE_C i l]

/-- A part of the state in which adaptation of a receive lane does not show. -/
structure AdaptBlind (i l : Nat) {α : Type} (g : State → α) : Prop where
  wr : ∀ (s : State) a v, a ∈ adaptRegs i l → g (s.wr a v) = g s
  rest : ∀ (s : State) m, g { s with link := { s.link with tapRest := m } } = g s

theorem tapAddr_mem (i l k : Nat) : tapAddr i l k ∈ adaptRegs i l := by
  unfold tapAddr adaptRegs
  split
  · simp
  · split <;> simp

/-- What adaptation moves in the CTLE of a lane. -/
def takeCtle (s : State) (i l : Nat) (a : Adapt) (c : Bool) : State :=
  match a.ctle with
  | some (p, n) =>
    if c && !s.on (R.RXG_RXL_CTL i l) F.RXG_RXL_CTL_CTLE_OVR then
      (s.put (R.RXG_RXL_CTLE i l) F.RXG_RXL_CTLE_PEAK p.toNat).put (R.RXG_RXL_CTLE i l) F.RXG_RXL_CTLE_GAIN n.toNat
    else s
  | none => s

theorem takeAdapt_eq (s : State) (i l : Nat) (a : Adapt) (c d : Bool) : s.takeAdapt i l a c d =
    let u := takeCtle s i l a c
    if d && !u.on (R.RXG_RXL_CTL i l) F.RXG_RXL_CTL_DFE_OVR && !u.on (R.RXG_GRP_CTL i) F.RXG_GRP_CTL_ADAPT_FREEZE then
      a.lms.foldl (fun t x => t.lmsTap i l x.1.val x.2) u
    else u := rfl

theorem AdaptBlind.takeAdapt {α : Type} {g : State → α} {i l : Nat} (hg : AdaptBlind i l g) (s : State) (a : Adapt) (c d : Bool) :
    g (s.takeAdapt i l a c d) = g s := by
  have hctle : g (takeCtle s i l a c) = g s := by
    unfold takeCtle
    split
    · split
      · exact (hg.wr _ _ _ (by simp [adaptRegs])).trans (hg.wr _ _ _ (by simp [adaptRegs]))
      · rfl
    · rfl
  have htap (t : State) (k : Nat) (n : Int) : g (t.lmsTap i l k n) = g t :=
    (hg.rest _ _).trans (hg.wr t _ _ (tapAddr_mem i l k))
  rw [takeAdapt_eq]
  dsimp only
  split
  · exact (foldl_blind (fun t x => htap t _ _) _ _).trans hctle
  · exact hctle

/-- Adaptation of a list of lanes. -/
theorem takeAdapts_blind {α : Type} {g : State → α} (hg : ∀ i < 8, ∀ l < 10, AdaptBlind i l g) (c d : Bool)
    (xs : List (Fin 8 × Fin 10 × Adapt)) (s : State) :
    g (xs.foldl (fun u x => u.takeAdapt x.1.val x.2.1.val x.2.2 c d) s) = g s :=
  foldl_blind (fun t x => (hg _ x.1.isLt _ x.2.1.isLt).takeAdapt t _ _ _) xs s

theorem adaptRegs_spec {i l a : Nat} (hi : i < 8) (hl : l < 10) (ha : a ∈ adaptRegs i l) :
    0x088 ≤ pageOf a ∧ pageOf a < 0x090 ∧ 0x108 ≤ a % 0x1000 := by
  simp only [adaptRegs, List.mem_cons, List.not_mem_nil, or_false, R.RXG_RXL_CTLE, R.RXG_RXL_DFE_A, R.RXG_RXL_DFE_B,
    R.RXG_RXL_DFE_C] at ha
  unfold pageOf
  omega

theorem LinkFree.adapt {α : Type} {g : State → α} (hg : LinkFree g) : ∀ i < 8, ∀ l < 10, AdaptBlind i l g := fun _ hi _ hl =>
  by
  refine ⟨fun s a v ha => hg.wr s a v (.inr ?_), fun s _ => hg.link s _⟩
  have := adaptRegs_spec hi hl ha
  omega

theorem adaptBlind_rd {b : Nat} (hb : pageOf b < 0x088 ∨ 0x090 ≤ pageOf b ∨ b % 0x1000 < 0x108) :
    ∀ i < 8, ∀ l < 10, AdaptBlind i l (·.rd b) := fun _ hi _ hl => by
  refine ⟨fun s a v ha => rd_wr_other _ _ _ _ ?_, fun _ _ => rfl⟩
  have := adaptRegs_spec hi hl ha
  rintro rfl
  omega

/-- What stays when only the link changes. -/
structure LinkOnly (s t : State) : Prop where
  same : ∀ {α : Type} (g : State → α), LinkFree g → g t = g s

theorem linkFree_rd {a : Nat} (h : ¬ linkPage (pageOf a)) : LinkFree (·.rd a) where
  wr s b v hb := rd_wr_other _ _ _ _ (by rintro rfl; exact h hb)
  counted s b n := rd_eq_of_regs (by simp) a
  link _ _ := rfl
  bad _ _ := rfl
  hold _ _ := rfl
  loopOut _ _ := rfl

theorem linkFree_calm : LinkFree fun s => (s.fcol.handed, s.fcol.declared, s.spare.rows, s.place.retiring) :=
  ⟨fun _ _ _ _ => rfl, fun _ _ _ => by simp, fun _ _ => rfl, fun _ _ => rfl, fun _ _ => rfl, fun _ _ => rfl⟩

theorem linkFree_mem : LinkFree fun s => (s.dram, s.cache, s.wdb, s.place, s.otp, s.mgmt.flash) :=
  ⟨fun _ _ _ _ => rfl, fun _ _ _ => by simp, fun _ _ => rfl, fun _ _ => rfl, fun _ _ => rfl, fun _ _ => rfl⟩

namespace LinkOnly

variable {s t : State} (h : LinkOnly s t)
include h

theorem rd {a : Nat} (ha : ¬ linkPage (pageOf a)) : t.rd a = s.rd a := h.same _ (linkFree_rd ha)

theorem calm (hc : Calm s) : Calm t := by
  have h4 := h.same _ linkFree_calm
  simp only [Prod.mk.injEq] at h4
  obtain ⟨h1, h2, h3, h4⟩ := h4
  exact hc.of_parts h1 h2 h3 h4

theorem memKept : MemKept s t := by
  have h6 := h.same _ linkFree_mem
  simp only [Prod.mk.injEq] at h6
  obtain ⟨h1, h2, h3, h4, h5, h6⟩ := h6
  exact ⟨h1, h2, h3, h4, h5, h6⟩

theorem xoOk : t.xoOk = s.xoOk := on_eq_of_rd (h.rd (by decide)) _
theorem refSrc : t.refSrc = s.refSrc := fld_eq_of_rd (h.rd (by decide)) _
theorem bootStep : t.bootStep = s.bootStep := fld_eq_of_rd (h.rd (by decide)) _

end LinkOnly

/-! ### After an event of the lanes -/

/-- A part of the state beside the requests and events and the counter of dropped events. -/
theorem queueEvent_same {α : Type} (g : State → α) (hx : ∀ (s : State) x, g { s with xact := x } = g s)
    (hd : ∀ s : State, g (s.inc R.XACT_EVT_DROPPED) = g s) (s : State) (e : Event) : g (s.queueEvent e) = g s := by
  unfold queueEvent
  generalize (if e.nma then 64 else 56) = room
  split
  · rfl
  · split
    · exact (hd _).trans (hx s _)
    · exact (hx _ _).trans (hx s _)

/-- A part of the state beside the requests and events, the counters of dropped events and what the lanes have raised. -/
theorem raiseLink_same {α : Type} (g : State → α) (hfree : ∀ (s : State) n, g { s with free := n } = g s)
    (hx : ∀ (s : State) x, g { s with xact := x } = g s) (hd : ∀ s : State, g (s.inc R.XACT_EVT_DROPPED) = g s)
    (hl : ∀ s : State, g { s with link := { s.link with raised := [] } } = g s) (s : State) : g s.raiseLink = g s := by
  exact (foldl_blind (fun t _ => (queueEvent_same g hx hd _ _).trans (hfree t _)) _ _).trans (hl s)

/-- The events that the lanes raised join the queue; of the link nothing else changes. -/
theorem raiseLink_link (s : State) : s.raiseLink.link = { s.link with raised := [] } := by
  unfold raiseLink
  refine foldl_blind (g := State.link) (fun t x => ?_) _ _
  exact queueEvent_same State.link (fun _ _ => rfl) (fun _ => by simp) _ _

theorem raiseLink_rd (s : State) {a : Nat} (h : a ≠ R.XACT_EVT_DROPPED) : s.raiseLink.rd a = s.rd a :=
  raiseLink_same (·.rd a) (fun _ _ => rfl) (fun _ _ => rfl) (fun _ => by rw [rd_inc, if_neg h]) (fun _ => rfl) s

theorem raiseLink_memKept (s : State) : MemKept s s.raiseLink := by
  have h := raiseLink_same (fun s => (s.dram, s.cache, s.wdb, s.place, s.otp, s.mgmt.flash)) (fun _ _ => rfl) (fun _ _ => rfl)
    (fun _ => by simp) (fun _ => rfl) s
  simp only [Prod.mk.injEq] at h
  obtain ⟨h1, h2, h3, h4, h5, h6⟩ := h
  exact ⟨h1, h2, h3, h4, h5, h6⟩

theorem raiseLink_calm {s : State} (h : Calm s) : Calm s.raiseLink := by
  have h4 := raiseLink_same (fun s => (s.fcol.handed, s.fcol.declared, s.spare.rows, s.place.retiring)) (fun _ _ => rfl)
    (fun _ _ => rfl) (fun _ => by simp) (fun _ => rfl) s
  simp only [Prod.mk.injEq] at h4
  obtain ⟨h1, h2, h3, h4⟩ := h4
  exact h.of_parts h1 h2 h3 h4

/-- On the crystal, with the link not ACTIVE, or neither at boot step 12 nor after a training from DETECT. -/
theorem afterLink_eq {s : State} (hx : s.xoOk = true) (hr : s.refSrc = 1)
    (hb : s.linkState ≠ 7 ∨ s.bootStep ≠ 12 ∧ s.link.fresh = false) : s.afterLink = s.raiseLink.settle := by
  have rd {a : Nat} (h : a ≠ R.XACT_EVT_DROPPED) := raiseLink_rd s h
  have hx' : s.raiseLink.xoOk = true := (on_eq_of_rd (rd (by decide)) _).trans hx
  have hr' : s.raiseLink.refSrc = 1 := (fld_eq_of_rd (rd (by decide)) _).trans hr
  have hs' : s.raiseLink.linkState = s.linkState := fld_eq_of_rd (rd (by decide)) _
  have hb' : s.raiseLink.bootStep = s.bootStep := fld_eq_of_rd (rd (by decide)) _
  have hf' : s.raiseLink.link.fresh = s.link.fresh := by rw [raiseLink_link]
  have hback : s.raiseLink.lanesBack = s.raiseLink := by
    rcases hb with hb | hb <;> simp [lanesBack, linkActive, hs', hf', hb]
  have hready : s.raiseLink.linkReady = s.raiseLink := by
    rcases hb with hb | hb <;> simp [linkReady, linkActive, hs', hb', hb]
  rw [afterLink, refCheck_onXo hx' hr', hback, hready]

/-- What follows a change of the link: the events raised are queued, and nothing else of the link changes. -/
theorem afterLink_spec {s : State} (hc : Calm s) (hx : s.xoOk = true) (hr : s.refSrc = 1)
    (hb : s.linkState ≠ 7 ∨ s.bootStep ≠ 12 ∧ s.link.fresh = false) :
    s.afterLink.link = { s.link with raised := [] } ∧ MemKept s s.afterLink ∧
      ∀ a, pageOf a ≠ 0x014 → a ≠ R.XACT_EVT_DROPPED → s.afterLink.rd a = s.rd a := by
  rw [afterLink_eq hx hr hb]
  have hc' := raiseLink_calm hc
  exact ⟨(settle_link hc').trans (raiseLink_link s), (raiseLink_memKept s).trans (.settle hc'),
    fun a hp ha => (settle_rd hc' a hp).trans (raiseLink_rd s ha)⟩

/-- After an event of the lanes that changed the link alone, the link's state, its timing and the rest of `linkCore` are as
the event left them. -/
theorem LinkOnly.after {s t : State} (h : LinkOnly s t) (hc : Calm s) (hx : s.xoOk = true) (hr : s.refSrc = 1)
    (hb : t.linkState ≠ 7 ∨ s.bootStep ≠ 12 ∧ t.link.fresh = false) :
    t.afterLink.linkState = t.linkState ∧ t.afterLink.loopTimed = t.loopTimed ∧
      linkCore t.afterLink.link = linkCore t.link ∧ MemKept s t.afterLink := by
  obtain ⟨hl, hm, hrd⟩ := afterLink_spec (h.calm hc) (h.xoOk.trans hx) (h.refSrc.trans hr) (by rwa [h.bootStep])
  refine ⟨fld_eq_of_rd (hrd _ (by decide) (by decide)) _, on_eq_of_rd (hrd _ (by decide) (by decide)) _, ?_, h.memKept.trans hm⟩
  rw [hl]
  rfl

/-- An event of the lanes that raises nothing and keeps `fresh`, on the crystal: nothing else follows but what the sparing
ladders do at rest. -/
theorem LinkOnly.onXo {s t : State} (h : LinkOnly s t) (ho : OnXo s) (hf : t.link.fresh = s.link.fresh)
    (hr : t.link.raised = s.link.raised) : OnXo t := by
  obtain ⟨h1, h2, h3, h4, h5⟩ := ho
  exact ⟨h.xoOk.trans h1, h.refSrc.trans h2, h.bootStep ▸ h3, hf.trans h4, hr.trans h5⟩

end Sys2Proof.Machine
end

section
/-! SUPPORT. Training of the link (R39 to R46). -/

namespace Sys2Proof.Machine
open Sys2Proof.Safety State

/-! ### Training begins -/

/-- The link trains in a state, on the local PLL: no sparing and no change of width runs. -/
def trainFrom (s : State) (n : Nat) : State := (s.abortSparings.dropWidthChange.setLoopTimed false).setLinkState n

theorem trainFrom_spec (s : State) {n : Nat} (hn : n < 16) : (trainFrom s n).linkState = n ∧ (trainFrom s n).loopTimed = false ∧
    linkCore (trainFrom s n).link = linkCore s.link := by
  refine ⟨setLinkState_linkState _ hn, (setLinkState_loopTimed _ n).trans (setLoopTimed_loopTimed _ false), ?_⟩
  unfold trainFrom
  rw [setLinkState_core, setLoopTimed_link, laneBlind_core.dropWidthChange, laneBlind_core.abortSparings]

/-- Training from DETECT tries every lane again. -/
def allLanesAgain (s : State) : State :=
  { s with bist := { s.bist with loopOut := [] }, link := { s.link with deadRx := [], deadTx := [], fresh := true } }

/-- The attempts of a training are counted afresh. -/
def attemptsAfresh (s : State) : State :=
  { s with link := { s.link with
      attempts := 0, failed := false, trained := true, badRx := [], badTx := [],
      hostTrain := [], hostParam := [], paramSeen := [], exits := [], ready := [] } }

theorem startTraining_eq (s : State) (n : Nat) : s.startTraining n =
    let u := trainFrom (if s.link.trained then s.inc R.LINK_RETRAINS else s) n
    ((attemptsAfresh (if n = 1 then allLanesAgain u else u)).placeSpares .rx).placeSpares .tx := rfl

/-- Placing the spares of both directions. -/
theorem LaneBlind.placeBoth {α : Type} {g : State → α} (hg : LaneBlind g) (x : State) :
    g ((x.placeSpares .rx).placeSpares .tx) = g x := (hg.placeSpares _ _).trans (hg.placeSpares _ _)

/-- Training from DETECT or COARSE: the attempts start afresh, on the local PLL. -/
theorem startTraining_spec (s : State) {n : Nat} (hn : n < 16) :
    (s.startTraining n).linkState = n ∧ (s.startTraining n).loopTimed = false ∧ (s.startTraining n).link.attempts = 0 ∧
      (s.startTraining n).link.failed = false ∧ (s.startTraining n).link.stored = s.link.stored ∧
      (n ≠ 1 → (s.startTraining n).link.fresh = s.link.fresh) := by
  have hcount : linkCore (if s.link.trained then s.inc R.LINK_RETRAINS else s).link = linkCore s.link := by
    split
    · rw [inc_link]
    · rfl
  rw [startTraining_eq]
  generalize (if s.link.trained then s.inc R.LINK_RETRAINS else s) = u at hcount
  obtain ⟨hs, hl, hcore⟩ := trainFrom_spec u hn
  obtain ⟨hstored, -, -, -, -, hfresh, -⟩ := linkCore_fields (hcore.trans hcount)
  dsimp only
  generalize trainFrom u n = v at hs hl hstored hfresh
  generalize hw : (if n = 1 then allLanesAgain v else v) = w
  have hws : w.linkState = n := by rw [← hw]; split <;> exact hs
  have hwl : w.loopTimed = false := by rw [← hw]; split <;> exact hl
  have hwstored : w.link.stored = s.link.stored := by rw [← hw]; split <;> exact hstored
  have hwfresh : n ≠ 1 → w.link.fresh = s.link.fresh := by
    intro h1
    rw [← hw, if_neg h1, hfresh]
  obtain ⟨h1, -, -, h4, h5, h6, -⟩ := linkCore_fields (laneBlind_core.placeBoth (attemptsAfresh w))
  exact ⟨(laneBlind_linkState.placeBoth _).trans hws, (laneBlind_loopTimed.placeBoth _).trans hwl, h4, h5, h1.trans hwstored,
    fun h => h6.trans (hwfresh h)⟩

/-! ### Lanes that fail a state, and attempts that fail -/

/-- The lanes that fail a state are out, and nothing else of the link's state or timing changes. -/
theorem failLanes_spec (s : State) (rx tx : List Nat) :
    (s.failLanes rx tx).linkState = s.linkState ∧ (s.failLanes rx tx).loopTimed = s.loopTimed ∧
      linkCore (s.failLanes rx tx).link = linkCore { s.link with badRx := s.link.badRx ++ rx, badTx := s.link.badTx ++ tx } := by
  refine ⟨laneBlind_linkState.placeBoth _, laneBlind_loopTimed.placeBoth _, ?_⟩
  exact laneBlind_core.placeBoth { s with link := { s.link with badRx := s.link.badRx ++ rx, badTx := s.link.badTx ++ tx } }

/-- A state of one of the first three attempts times out: back to COARSE. -/
theorem attemptFails_early {s : State} (h : s.link.attempts < 3) :
    s.attemptFails.linkState = 2 ∧ s.attemptFails.loopTimed = false ∧
      linkCore s.attemptFails.link = linkCore { s.link with attempts := s.link.attempts + 1 } := by
  unfold attemptFails
  dsimp only
  rw [if_pos (by omega)]
  exact ⟨setLinkState_linkState _ (by decide), (setLinkState_loopTimed _ _).trans (setLoopTimed_loopTimed _ _),
    (setLinkState_core _ _).trans (congrArg linkCore (setLoopTimed_link _ _))⟩

/-- The fourth attempt has failed, which the link reports. -/
def reportFailed (s : State) : State := { s with link := { s.link with failed := true } }.raiseEvent 0x00E 0

/-- An attempt more has failed, on the local PLL. -/
def oneAttemptMore (s : State) : State := { s with link := { s.link with attempts := s.link.attempts + 1 } }.setLoopTimed false

/-- An attempt that fails: back to COARSE, or after the fourth in DETECT. -/
theorem attemptFails_eq (s : State) : s.attemptFails =
    let u := (reportFailed (oneAttemptMore s)).setLinkState 1
    if s.link.attempts + 1 < 4 then (oneAttemptMore s).setLinkState 2
    else if u.bootStep = 12 then u.flag R.CLK_BOOT_STAT F.CLK_BOOT_STAT_STALLED true else u := rfl

theorem oneAttemptMore_linkOnly (s : State) : LinkOnly s (oneAttemptMore s) :=
  ⟨fun _ hg => (hg.setLoopTimed _ _).trans (hg.link s _)⟩

theorem lastFailed_linkOnly (s : State) : LinkOnly s ((reportFailed (oneAttemptMore s)).setLinkState 1) :=
  ⟨fun g hg => (hg.setLinkState _ 1).trans ((hg.link _ _).trans ((hg.link _ _).trans ((oneAttemptMore_linkOnly s).same g hg)))⟩

/-- The fourth attempt fails, outside boot step 12: the link waits in DETECT. -/
theorem attemptFails_last {s : State} (h : s.link.attempts = 3) (hb : s.bootStep ≠ 12) :
    LinkOnly s s.attemptFails ∧ s.attemptFails.linkState = 1 ∧ s.attemptFails.link.failed = true := by
  have hboot := (lastFailed_linkOnly s).bootStep
  obtain ⟨-, -, -, -, hfailed, -⟩ := linkCore_fields (setLinkState_core (reportFailed (oneAttemptMore s)) 1)
  rw [attemptFails_eq]
  dsimp only
  rw [if_neg (by omega), if_neg fun h => hb (hboot.symm.trans h)]
  exact ⟨lastFailed_linkOnly s, setLinkState_linkState _ (by decide), hfailed⟩

theorem attemptFails_early_linkOnly {s : State} (h : s.link.attempts < 3) : LinkOnly s s.attemptFails := ⟨fun g hg => by
  rw [attemptFails_eq, if_pos (by omega)]
  exact (hg.setLinkState _ 2).trans ((oneAttemptMore_linkOnly s).same g hg)⟩

/-! ### The end of a training state -/

/-- The state in which adaptation leaves the receivers at the end of a training state. -/
def adapted (s : State) (x : TrainIn) (n : Nat) : State :=
  x.adapt.foldl (fun u x => u.takeAdapt x.1.val x.2.1.val x.2.2 (decide (n = 2 ∨ n = 4)) (decide (4 ≤ n))) s

theorem adapted_blind {α : Type} {g : State → α} (hg : ∀ i < 8, ∀ l < 10, AdaptBlind i l g) (s : State) (x : TrainIn) (n : Nat) :
    g (adapted s x n) = g s := takeAdapts_blind hg _ _ _ s

theorem adapted_core (s : State) (x : TrainIn) (n : Nat) : linkCore (adapted s x n).link = linkCore s.link :=
  adapted_blind (g := fun s => linkCore s.link) (fun _ _ _ _ => ⟨fun _ _ _ _ => rfl, fun _ _ => rfl⟩) s x n

theorem adapted_rd (s : State) (x : TrainIn) (n : Nat) {b : Nat} (hb : pageOf b < 0x088 ∨ 0x090 ≤ pageOf b ∨ b % 0x1000 < 0x108) :
    (adapted s x n).rd b = s.rd b := adapted_blind (adaptBlind_rd hb) s x n

theorem adapted_linkState (s : State) (x : TrainIn) (n : Nat) : (adapted s x n).linkState = s.linkState :=
  fld_eq_of_rd (adapted_rd s x n (by decide)) _

/-- PARAM is complete by the groups' states, the lanes that are out and what came from the host. -/
theorem paramDone_congr {s t : State} (hg : ∀ i < 8, t.rd (R.RXG_GRP_STAT i) = s.rd (R.RXG_GRP_STAT i))
    (hs : t.linkState = s.linkState) (hb : t.link.badRx = s.link.badRx) (hd : t.link.deadRx = s.link.deadRx)
    (hp : t.link.paramSeen = s.link.paramSeen) : t.paramDone = s.paramDone := by
  have htrain : t.trainGroups = s.trainGroups := by
    refine List.filter_congr fun i hi => ?_
    have hstate : t.grpState .rx i = s.grpState .rx i := fld_eq_of_rd (hg i (groups_lt i hi)) _
    have hbad : t.laneBad .rx i = s.laneBad .rx i := funext fun l => by simp only [laneBad, hb, hd]
    simp only [hstate, hs, badLanes, hbad]
    rfl
  simp only [paramDone, htrain, hp]

theorem adapted_paramDone (s : State) (x : TrainIn) (n : Nat) : (adapted s x n).paramDone = s.paramDone := by
  have hlink : (fun l : LinkState => (l.badRx, l.deadRx, l.paramSeen)) (adapted s x n).link
      = (fun l : LinkState => (l.badRx, l.deadRx, l.paramSeen)) s.link :=
    adapted_blind (g := fun s => (fun l : LinkState => (l.badRx, l.deadRx, l.paramSeen)) s.link)
      (fun _ _ _ _ => ⟨fun _ _ _ _ => rfl, fun _ _ => rfl⟩) s x n
  simp only [Prod.mk.injEq] at hlink
  obtain ⟨hb, hd, hp⟩ := hlink
  refine paramDone_congr (fun i hi => adapted_rd s x n (.inr (.inr ?_))) (adapted_linkState s x n) hb hd hp
  simp only [R.RXG_GRP_STAT]
  omega

theorem adapted_linkOnly (s : State) (x : TrainIn) (n : Nat) : LinkOnly s (adapted s x n) :=
  ⟨fun _ hg => adapted_blind hg.adapt s x n⟩

/-- The end of a state other than EQ and RECOVER. -/
theorem trainingStateDone_eq {s : State} (x : TrainIn) (h4 : s.linkState ≠ 4) (h8 : s.linkState ≠ 8) :
    s.trainingStateDone x = (adapted s x s.linkState).trainingDone x := by
  unfold trainingStateDone eqCalibrated
  dsimp only
  rw [if_neg h8, if_neg fun h => h4 h.1]
  rfl

/-- COARSE ends: its failed lanes are out, and MARK begins. -/
theorem trainingDone_coarse {s : State} (x : TrainIn) (h : s.linkState = 2) : LinkOnly s (s.trainingDone x) ∧
    (s.trainingDone x).linkState = 3 ∧ linkCore (s.trainingDone x).link = linkCore { s.link with
      badRx := s.link.badRx ++ laneKeys x.failRx, badTx := s.link.badTx ++ laneKeys x.failTx } := by
  have he : s.trainingDone x = ((s.failLanes (laneKeys x.failRx) (laneKeys x.failTx)).lockLanes F.RXG_RXL_STAT_CDR_LOCK).setLinkState
      3 := by simp [trainingDone, h]
  rw [he]
  exact ⟨⟨fun _ hg => (hg.setLinkState _ 3).trans ((hg.blind.lockLanes _ _).trans (hg.failLanes s _ _))⟩,
    setLinkState_linkState _ (by decide),
    (setLinkState_core _ 3).trans ((laneBlind_core.lockLanes _ _).trans (failLanes_spec s _ _).2.2)⟩

/-- PARAM goes on while the host's values have not come twice. -/
theorem trainingDone_param_waits {s : State} (x : TrainIn) (h : s.linkState = 5) (hp : s.paramDone = false) :
    s.trainingDone x = s := by
  simp [trainingDone, h, hp]

/-- The directions' precoding that PARAM agrees. -/
def precoded (s : State) : State :=
  { s with link := { s.link with
      precodeRx := true
      precodeTx := s.trainGroups.any fun i => decide (SMap.get (fun _ => 0) s.link.hostParam i % 2 = 1) } }

/-- The host's spare of a group, as its PARAM names it. -/
def takeSpare (t : State) (i : Nat) : State :=
  let c := SMap.get (fun _ => 0) t.link.hostParam i / 2 % 16
  { t with link := { t.link with spares := SMap.set (fun _ => 9) (8 + i) (if 9 < c then 9 else c) t.link.spares } }

/-- What PARAM agrees but the timing: precoding and the host's spares. -/
def paramTaken (s : State) : State := s.trainGroups.foldl takeSpare (precoded s)

theorem paramAgreed_eq (s : State) : s.paramAgreed =
    (paramTaken s).setLoopTimed (!(paramTaken s).on (R.TXG_GRP_CTL 0) F.TXG_GRP_CTL_LOCAL_TIMING) := rfl

theorem paramTaken_same {α : Type} {g : State → α} (hg : ∀ (t : State) l, g { t with link := l } = g t) (s : State) :
    g (paramTaken s) = g s := (foldl_blind (fun t _ => hg t _) _ (precoded s)).trans (hg s _)

theorem paramTaken_core (s : State) : linkCore (paramTaken s).link = linkCore (precoded s).link :=
  foldl_blind (g := fun s : State => linkCore s.link) (f := takeSpare) (fun _ _ => rfl) s.trainGroups (precoded s)

/-- PARAM ends: it is complete, and VERIFY begins, loop-timed unless LOCAL_TIMING is set. -/
theorem trainingDone_param {s : State} (x : TrainIn) (h : s.linkState = 5) (hp : s.paramDone = true) :
    LinkOnly s (s.trainingDone x) ∧ (s.trainingDone x).linkState = 6 ∧
      (s.trainingDone x).loopTimed = !s.on (R.TXG_GRP_CTL 0) F.TXG_GRP_CTL_LOCAL_TIMING ∧
      (s.trainingDone x).link.precodeRx = true := by
  have he : s.trainingDone x = (s.failLanes (laneKeys x.failRx) (laneKeys x.failTx)).paramAgreed.setLinkState 6 := by
    simp [trainingDone, h, hp]
  have hctl : (s.failLanes (laneKeys x.failRx) (laneKeys x.failTx)).rd (R.TXG_GRP_CTL 0) = s.rd (R.TXG_GRP_CTL 0) :=
    (laneBlind_grpCtl 0).failLanes s (fun _ _ _ => rfl) _ _
  have hfree : LinkOnly s (s.failLanes (laneKeys x.failRx) (laneKeys x.failTx)) := ⟨fun _ hg => hg.failLanes s _ _⟩
  rw [he]
  generalize s.failLanes (laneKeys x.failRx) (laneKeys x.failTx) = u at hctl hfree
  have hlocal : (paramTaken u).on (R.TXG_GRP_CTL 0) F.TXG_GRP_CTL_LOCAL_TIMING = s.on (R.TXG_GRP_CTL 0) F.TXG_GRP_CTL_LOCAL_TIMING :=
    (paramTaken_same (g := (·.on (R.TXG_GRP_CTL 0) F.TXG_GRP_CTL_LOCAL_TIMING)) (fun _ _ => rfl) u).trans (on_eq_of_rd hctl _)
  rw [paramAgreed_eq, hlocal]
  generalize (!s.on (R.TXG_GRP_CTL 0) F.TXG_GRP_CTL_LOCAL_TIMING) = b
  obtain ⟨-, -, -, -, -, -, -, hpre, -⟩ := linkCore_fields ((setLinkState_core ((paramTaken u).setLoopTimed b) 6).trans
    ((congrArg linkCore (setLoopTimed_link _ b)).trans (paramTaken_core u)))
  exact ⟨⟨fun g hg => (hg.setLinkState _ 6).trans ((hg.setLoopTimed _ b).trans
      ((paramTaken_same hg.link u).trans (hfree.same g hg)))⟩,
    setLinkState_linkState _ (by decide), (setLinkState_loopTimed _ 6).trans (setLoopTimed_loopTimed _ b), hpre⟩

/-! ### Loss of lock and the reference lane -/

theorem rxGrpStat_page (i : Fin 8) : linkPage (pageOf (R.RXG_GRP_STAT i)) := by
  simp only [linkPage, pageOf, R.RXG_GRP_STAT]
  omega

theorem rxlStat_page (i : Fin 8) (l : Fin 10) : linkPage (pageOf (R.RXG_RXL_STAT i l)) := by
  simp only [linkPage, pageOf, R.RXG_RXL_STAT]
  omega

/-- Outside ACTIVE a lane that loses marker lock shows that, and its group with it when it is active. -/
def lockCleared (s : State) (i l : Nat) : State :=
  let u := s.flag (R.RXG_RXL_STAT i l) F.RXG_RXL_STAT_MARK_LOCK false
  if (u.activeGroups .rx).contains i then u.flag (R.RXG_GRP_STAT i) F.RXG_GRP_STAT_MARKER_LOCK false else u

theorem lockCleared_linkState (s : State) (i : Fin 8) (l : Fin 10) : (lockCleared s i l).linkState = s.linkState := by
  have hlane := laneBlind_linkState.flag s
    (.lane (l := l) F.RXG_RXL_STAT_MARK_LOCK i.isLt (Nat.lt_of_lt_of_le l.isLt (by decide))) false
  unfold lockCleared
  dsimp only
  split
  · exact (laneBlind_linkState.flag _ (.rx _ i.isLt (.inl (by decide))) false).trans hlane
  · exact hlane

theorem markerLost_inactive {s : State} {i : Fin 8} {l : Fin 10} (h : s.linkState ≠ 7)
    (hl : s.on (R.RXG_RXL_STAT i l) F.RXG_RXL_STAT_MARK_LOCK = true) : s.markerLost i l = lockCleared s i l := by
  have hn : (lockCleared s i l).linkActive = false := by
    rw [linkActive, lockCleared_linkState]
    exact decide_eq_false h
  unfold markerLost
  rw [if_pos hl]
  exact if_neg (ne_true_of_eq_false hn)

theorem lockCleared_spec (s : State) (i : Fin 8) (l : Fin 10) : LinkOnly s (lockCleared s i l) ∧
    (lockCleared s i l).on (R.RXG_RXL_STAT i l) F.RXG_RXL_STAT_MARK_LOCK = false ∧ (lockCleared s i l).link = s.link ∧
    RegsKept s (lockCleared s i l) [0x014] [R.RXG_RXL_STAT i l, R.RXG_GRP_STAT i] := by
  have hne : R.RXG_RXL_STAT i l ≠ R.RXG_GRP_STAT i := by
    simp only [R.RXG_RXL_STAT, R.RXG_GRP_STAT]
    omega
  have hcleared := on_flag_same s (R.RXG_RXL_STAT i l) F.RXG_RXL_STAT_MARK_LOCK false (by decide) rfl
  have hkept : RegsKept s (s.flag (R.RXG_RXL_STAT i l) F.RXG_RXL_STAT_MARK_LOCK false) [0x014]
      [R.RXG_RXL_STAT i l, R.RXG_GRP_STAT i] := (RegsKept.refl s).flag _ _ (.inl List.mem_cons_self)
  unfold lockCleared
  dsimp only
  split
  · exact ⟨⟨fun _ hg => (hg.flag _ (rxGrpStat_page i) _ _).trans (hg.flag s (rxlStat_page i l) _ _)⟩,
      (on_flag_other _ _ _ _ _ _ (.inl hne)).trans hcleared, rfl,
      hkept.flag _ _ (.inl (List.mem_cons_of_mem _ List.mem_cons_self))⟩
  · exact ⟨⟨fun _ hg => hg.flag s (rxlStat_page i l) _ _⟩, hcleared, rfl, hkept⟩

/-- The reference lane loses CDR lock in ACTIVE, loop-timed: the link PLL holds. -/
theorem cdrLost_ref {s : State} {i : Fin 8} {l : Fin 10} (hl : s.on (R.RXG_RXL_STAT i l) F.RXG_RXL_STAT_CDR_LOCK = true)
    (ha : s.linkActive = true) (ht : s.loopTimed = true) (hr : s.link.ref = some (i.val, l.val)) : s.cdrLost i l =
      { s.flag (R.RXG_RXL_STAT i l) F.RXG_RXL_STAT_CDR_LOCK false with
        clk := { s.clk with holdover := true, linkBad := 0 } } := by
  have hlane : LaneFld (R.RXG_RXL_STAT i l) F.RXG_RXL_STAT_CDR_LOCK := .lane _ i.isLt (Nat.lt_of_lt_of_le l.isLt (by decide))
  have ha' : (s.flag (R.RXG_RXL_STAT i l) F.RXG_RXL_STAT_CDR_LOCK false).linkActive = true := by
    rw [linkActive, laneBlind_linkState.flag s hlane]
    exact ha
  have ht' : (s.flag (R.RXG_RXL_STAT i l) F.RXG_RXL_STAT_CDR_LOCK false).loopTimed = true :=
    (laneBlind_loopTimed.flag s hlane false).trans ht
  have hr' : (s.flag (R.RXG_RXL_STAT i l) F.RXG_RXL_STAT_CDR_LOCK false).link.ref = some (i.val, l.val) := hr
  unfold cdrLost refLost
  rw [if_pos hl, ha', hr', ht']
  simp [monStop]

/-- The holdover ends without a reference lane, on the crystal: the transmitter goes to local timing. -/
theorem holdoverEnds_none {s : State} (hh : s.clk.holdover = true) (hx : s.xoOk = true) (hn : s.newRef = none) :
    s.holdoverEnds = ({ s with clk := { s.clk with holdover := false }, link := { s.link with ref := none } } : State).setLoopTimed
      false := by
  have hn' : ({ s with clk := { s.clk with holdover := false } } : State).newRef = none := hn
  unfold holdoverEnds
  rw [if_pos hh]
  simp only [hn']
  exact if_pos hx

theorem holdoverEnds_some {s : State} {r : Nat × Nat} (hh : s.clk.holdover = true) (hn : s.newRef = some r) :
    s.holdoverEnds = ({ s with clk := { s.clk with holdover := false } } : State).setRef (some r) := by
  have hn' : ({ s with clk := { s.clk with holdover := false } } : State).newRef = some r := hn
  unfold holdoverEnds
  rw [if_pos hh]
  simp only [hn']

/-- A reference lane is taken: CLK_REF marks its group. -/
theorem setRef_spec (s : State) (r : Nat × Nat) : (s.setRef (some r)).link = { s.link with ref := some r } ∧
    (s.setRef (some r)).clk = s.clk ∧
    ∀ i : Fin 8, (s.setRef (some r)).on (R.RXG_GRP_STAT i) F.RXG_GRP_STAT_CLK_REF = decide (i.val = r.1) := by
  have hinj (i j : Nat) (h : R.RXG_GRP_STAT i = R.RXG_GRP_STAT j) : i = j := by
    simp only [R.RXG_GRP_STAT] at h
    omega
  have hmem : ∀ i : Fin 8, i.val ∈ groups := by decide
  unfold setRef
  refine ⟨foldl_blind (g := State.link) (f := fun t i => t.flag (R.RXG_GRP_STAT i) F.RXG_GRP_STAT_CLK_REF
      (decide (Option.map Prod.fst (some r) = some i))) (fun _ _ => rfl) groups _,
    foldl_blind (g := State.clk) (f := fun t i => t.flag (R.RXG_GRP_STAT i) F.RXG_GRP_STAT_CLK_REF
      (decide (Option.map Prod.fst (some r) = some i))) (fun _ _ => rfl) groups _, fun i => ?_⟩
  rw [on_foldl_flag hinj _ (by decide) rfl (fun i => decide (Option.map Prod.fst (some r) = some i)), if_pos (hmem i)]
  simp [eq_comm]

end Sys2Proof.Machine

namespace Sys2Proof.Safety
open Sys2Proof.Machine Sys2Proof.Machine.State

variable {s : State}

theorem trainingStart_gives (hx : s.xoOk = true) (hr : s.refSrc = 1) (hc : Calm s) (hb : s.bootStep = 12)
    (hs : s.linkState = 0) (hd : s.drogue = false) (hh : s.linkHeld = false) : Gives .trainingStart s fun t =>
      t.linkState = 1 ∧ t.link.attempts = 0 ∧ t.link.failed = false ∧ t.loopTimed = false ∧ MemKept s t := by
  obtain ⟨h1, h2, h3, h4, -, -⟩ := startTraining_spec s (n := 1) (by decide)
  have hstart : s.trainingStart = s.startTraining 1 := if_pos ⟨hb, hs, by simp [hd], by simp [hh]⟩
  have hlink : LinkOnly s (s.startTraining 1) := ⟨fun _ hg => hg.startTraining s 1⟩
  obtain ⟨k1, k2, k3, k4⟩ := hlink.after hc hx hr (.inl (by rw [h1]; decide))
  obtain ⟨-, -, -, ka, kf, -⟩ := linkCore_fields k3
  exact gives_of_eq rfl (congrArg State.afterLink hstart) ⟨k1.trans h1, ka.trans h3, kf.trans h4, k2.trans h2, k4⟩

theorem trainingStateDone_coarse (x : TrainIn) (ho : OnXo s) (hc : Calm s) (hs : s.linkState = 2) :
    Gives (.trainingStateDone x) s fun t => t.linkState = 3 ∧
      t.link.badRx = s.link.badRx ++ x.failRx.map (fun p => 10 * p.1.val + p.2.val) ∧
      t.link.badTx = s.link.badTx ++ x.failTx.map (fun p => 10 * p.1.val + p.2.val) ∧ MemKept s t := by
  obtain ⟨hx, hr, hb, hf, -⟩ := ho
  have he := trainingStateDone_eq x (s := s) (by omega) (by omega)
  obtain ⟨hl, h1, h2⟩ := trainingDone_coarse (s := adapted s x s.linkState) x ((adapted_linkState s x _).trans hs)
  obtain ⟨-, ax, at_, -⟩ := linkCore_fields (adapted_core s x s.linkState)
  obtain ⟨-, bx, bt, -, -, bf, -⟩ := linkCore_fields h2
  have hlink : LinkOnly s ((adapted s x s.linkState).trainingDone x) :=
    ⟨fun g hg => (hl.same g hg).trans ((adapted_linkOnly s x _).same g hg)⟩
  obtain ⟨k1, -, k3, k4⟩ := hlink.after hc hx hr (.inl (by rw [h1]; decide))
  obtain ⟨-, kx, kt, -⟩ := linkCore_fields k3
  refine gives_of_eq rfl (congrArg State.afterLink he) ⟨k1.trans h1, (kx.trans bx).trans ?_, (kt.trans bt).trans ?_, k4⟩
  · exact congrArg (· ++ laneKeys x.failRx) ax
  · exact congrArg (· ++ laneKeys x.failTx) at_

theorem trainingStateDone_param (x : TrainIn) (ho : OnXo s) (hc : Calm s) (hs : s.linkState = 5) (hp : s.paramDone = true)
    (hl : s.on (R.TXG_GRP_CTL 0) F.TXG_GRP_CTL_LOCAL_TIMING = false) : Gives (.trainingStateDone x) s fun t =>
      t.linkState = 6 ∧ t.loopTimed = true ∧ t.link.precodeRx = true ∧ MemKept s t := by
  obtain ⟨hx, hr, hb, hf, -⟩ := ho
  have he := trainingStateDone_eq x (s := s) (by omega) (by omega)
  obtain ⟨hd, h1, h2, h3⟩ := trainingDone_param (s := adapted s x s.linkState) x ((adapted_linkState s x _).trans hs)
    ((adapted_paramDone s x _).trans hp)
  have hlocal : (adapted s x s.linkState).on (R.TXG_GRP_CTL 0) F.TXG_GRP_CTL_LOCAL_TIMING = false :=
    (on_eq_of_rd (adapted_rd s x _ (by decide)) _).trans hl
  have hlink : LinkOnly s ((adapted s x s.linkState).trainingDone x) :=
    ⟨fun g hg => (hd.same g hg).trans ((adapted_linkOnly s x _).same g hg)⟩
  obtain ⟨k1, k2, k3, k4⟩ := hlink.after hc hx hr (.inl (by rw [h1]; decide))
  obtain ⟨-, -, -, -, -, -, -, kp, -⟩ := linkCore_fields k3
  exact gives_of_eq rfl (congrArg State.afterLink he) ⟨k1.trans h1, k2.trans (h2.trans (by rw [hlocal]; rfl)), kp.trans h3, k4⟩

theorem trainingStateDone_param_waits (x : TrainIn) (ho : OnXo s) (hc : Calm s) (hs : s.linkState = 5)
    (hp : s.paramDone = false) : Gives (.trainingStateDone x) s fun t =>
      t.linkState = 5 ∧ t.loopTimed = s.loopTimed ∧ t.link.precodeTx = s.link.precodeTx ∧ t.link.badRx = s.link.badRx ∧
        MemKept s t := by
  obtain ⟨hx, hr, hb, hf, -⟩ := ho
  have hs' := (adapted_linkState s x s.linkState).trans hs
  have he := (trainingStateDone_eq x (s := s) (by omega) (by omega)).trans
    (trainingDone_param_waits x hs' ((adapted_paramDone s x _).trans hp))
  obtain ⟨k1, k2, k3, k4⟩ := (adapted_linkOnly s x s.linkState).after hc hx hr (.inl (by rw [hs']; decide))
  obtain ⟨-, kx, -, -, -, -, -, -, kp, -⟩ := linkCore_fields (k3.trans (adapted_core s x _))
  exact gives_of_eq rfl (congrArg State.afterLink he) ⟨k1.trans hs',
    k2.trans (on_eq_of_rd (adapted_rd s x _ (by decide)) _), kp, kx, k4⟩

theorem trainingTimeout_early (x : TrainIn) (ho : OnXo s) (hc : Calm s) (hs : 2 ≤ s.linkState ∧ s.linkState ≤ 6)
    (ha : s.link.attempts < 3) : Gives (.trainingTimeout x) s fun t =>
      t.linkState = 2 ∧ t.link.attempts = s.link.attempts + 1 ∧
      t.link.badRx = s.link.badRx ++ x.failRx.map (fun p => 10 * p.1.val + p.2.val) ∧ t.loopTimed = false ∧
      t.link.failed = s.link.failed ∧ MemKept s t := by
  obtain ⟨hx, hr, hb, hf, -⟩ := ho
  have he : s.trainingTimedOut x = (s.failLanes (laneKeys x.failRx) (laneKeys x.failTx)).attemptFails := by
    unfold trainingTimedOut
    dsimp only
    rw [if_neg (by omega), if_pos hs]
  obtain ⟨-, bx, -, bn, bf, -⟩ := linkCore_fields (failLanes_spec s (laneKeys x.failRx) (laneKeys x.failTx)).2.2
  have ha' : (s.failLanes (laneKeys x.failRx) (laneKeys x.failTx)).link.attempts < 3 := lt_of_eq_of_lt bn ha
  obtain ⟨h1, h2, h3⟩ := attemptFails_early ha'
  obtain ⟨-, cx, -, cn, cf, -⟩ := linkCore_fields h3
  dsimp only at bx bn bf cx cn cf
  have hlink : LinkOnly s (s.failLanes (laneKeys x.failRx) (laneKeys x.failTx)).attemptFails :=
    ⟨fun g hg => ((attemptFails_early_linkOnly ha').same g hg).trans (hg.failLanes s _ _)⟩
  obtain ⟨k1, k2, k3, k4⟩ := hlink.after hc hx hr (.inl (by rw [h1]; decide))
  obtain ⟨-, kx, -, kn, kf, -⟩ := linkCore_fields k3
  exact gives_of_eq rfl (congrArg State.afterLink he) ⟨k1.trans h1, (kn.trans cn).trans (congrArg (· + 1) bn),
    (kx.trans cx).trans bx, k2.trans h2, (kf.trans cf).trans bf, k4⟩

theorem trainingTimeout_last (x : TrainIn) (ho : OnXo s) (hc : Calm s) (hs : 2 ≤ s.linkState ∧ s.linkState ≤ 6)
    (ha : s.link.attempts = 3) : Gives (.trainingTimeout x) s fun t =>
      t.linkState = 1 ∧ t.link.failed = true ∧ MemKept s t := by
  obtain ⟨hx, hr, hb, hf, -⟩ := ho
  have he : s.trainingTimedOut x = (s.failLanes (laneKeys x.failRx) (laneKeys x.failTx)).attemptFails := by
    unfold trainingTimedOut
    dsimp only
    rw [if_neg (by omega), if_pos hs]
  have hfree : LinkOnly s (s.failLanes (laneKeys x.failRx) (laneKeys x.failTx)) := ⟨fun _ hg => hg.failLanes s _ _⟩
  obtain ⟨-, -, -, bn, -⟩ := linkCore_fields (failLanes_spec s (laneKeys x.failRx) (laneKeys x.failTx)).2.2
  have hboot := hfree.bootStep
  obtain ⟨hl, h1, h2⟩ := attemptFails_last (bn.trans ha) fun h => hb (hboot.symm.trans h)
  have hlink : LinkOnly s (s.failLanes (laneKeys x.failRx) (laneKeys x.failTx)).attemptFails :=
    ⟨fun g hg => (hl.same g hg).trans (hfree.same g hg)⟩
  obtain ⟨k1, -, k3, k4⟩ := hlink.after hc hx hr (.inl (by rw [h1]; decide))
  obtain ⟨-, -, -, -, kf, -⟩ := linkCore_fields k3
  exact gives_of_eq rfl (congrArg State.afterLink he) ⟨k1.trans h1, kf.trans h2, k4⟩

/-- A training with the lanes out that another state has out. -/
def withLanesOf (u s : State) : State := { u with link := { u.link with badRx := s.link.badRx, badTx := s.link.badTx } }

theorem withLanesOf_linkState (u : State) : (withLanesOf u s).linkState = u.linkState := rfl
theorem withLanesOf_loopTimed (u : State) : (withLanesOf u s).loopTimed = u.loopTimed := rfl
theorem withLanesOf_attempts (u : State) : (withLanesOf u s).link.attempts = u.link.attempts := rfl

/-- RECOVER times out: a training whose attempts start afresh, with the lanes that were in service and have passed. -/
def recoverTimesOut (s : State) (x : TrainIn) : State :=
  (withLanesOf (s.startTraining 2) s).failLanes (laneKeys x.failRx) (laneKeys x.failTx)

theorem trainingTimeout_recover (x : TrainIn) (ho : OnXo s) (hc : Calm s) (hs : s.linkState = 8) :
    Gives (.trainingTimeout x) s fun t => t.linkState = 2 ∧ t.link.attempts = 0 ∧ t.loopTimed = false ∧ MemKept s t := by
  obtain ⟨hx, hr, hb, hf, -⟩ := ho
  have he : s.trainingTimedOut x = recoverTimesOut s x := if_pos hs
  obtain ⟨h1, h2, h3, -, -, -⟩ := startTraining_spec s (n := 2) (by decide)
  obtain ⟨g1, g2, g3⟩ := failLanes_spec (withLanesOf (s.startTraining 2) s) (laneKeys x.failRx) (laneKeys x.failTx)
  obtain ⟨-, -, -, bn, -⟩ := linkCore_fields g3
  have hlink : LinkOnly s (recoverTimesOut s x) :=
    ⟨fun g hg => (hg.failLanes _ _ _).trans ((hg.link _ _).trans (hg.startTraining s 2))⟩
  have hstate : (recoverTimesOut s x).linkState = 2 := g1.trans ((withLanesOf_linkState _).trans h1)
  have hloop : (recoverTimesOut s x).loopTimed = false := g2.trans ((withLanesOf_loopTimed _).trans h2)
  have hnone : (recoverTimesOut s x).link.attempts = 0 := by
    rw [recoverTimesOut, bn, withLanesOf_attempts, h3]
  obtain ⟨k1, k2, k3, k4⟩ := hlink.after hc hx hr (.inl (by rw [hstate]; decide))
  obtain ⟨-, -, -, kn, -⟩ := linkCore_fields k3
  exact gives_of_eq rfl (congrArg State.afterLink he) ⟨k1.trans hstate, kn.trans hnone, k2.trans hloop, k4⟩

theorem markerLockLost_inactive (i : Fin 8) (l : Fin 10) (ho : OnXo s) (hc : Calm s) (hs : s.linkState ≠ 7)
    (hl : s.on (R.RXG_RXL_STAT i l) F.RXG_RXL_STAT_MARK_LOCK = true) : Gives (.markerLockLost i l) s fun t =>
      t.on (R.RXG_RXL_STAT i l) F.RXG_RXL_STAT_MARK_LOCK = false ∧ t.link = s.link ∧ MemKept s t ∧
        RegsKept s t [0x014] [R.RXG_RXL_STAT i l, R.RXG_GRP_STAT i] := by
  obtain ⟨hfree, h1, h2, h3⟩ := lockCleared_spec s i l
  have hon := hfree.onXo ho (congrArg LinkState.fresh h2) (congrArg LinkState.raised h2)
  have hcalm := hfree.calm hc
  refine gives_of_eq rfl ((congrArg State.afterLink (markerLost_inactive hs hl)).trans (afterLink_onXo hon)) ⟨?_,
    (settle_link hcalm).trans h2, hfree.memKept.trans (.settle hcalm), h3.trans (.settle hcalm (by simp))⟩
  refine (on_eq_of_rd (settle_rd hcalm _ ?_) _).trans h1
  simp only [pageOf, R.RXG_RXL_STAT]
  omega

theorem cdrLockLoss_ref (i : Fin 8) (l : Fin 10) (ho : OnXo s) (hc : Calm s)
    (hl : s.on (R.RXG_RXL_STAT i l) F.RXG_RXL_STAT_CDR_LOCK = true) (ha : s.linkActive = true) (ht : s.loopTimed = true)
    (hr : s.link.ref = some (i.val, l.val)) : Gives (.cdrLockLoss i l) s fun t =>
      t.on (R.RXG_RXL_STAT i l) F.RXG_RXL_STAT_CDR_LOCK = false ∧ t.clk.holdover = true ∧ MemKept s t ∧
        RegsKept s t [0x014] [R.RXG_RXL_STAT i l] := by
  have he := cdrLost_ref hl ha ht hr
  have hregs : (s.cdrLost i l).regs = (s.flag (R.RXG_RXL_STAT i l) F.RXG_RXL_STAT_CDR_LOCK false).regs := by rw [he]
  have hlink : (s.cdrLost i l).link = s.link := by rw [he]; rfl
  have hhold : (s.cdrLost i l).clk.holdover = true := by rw [he]
  have hfree : LinkOnly s (s.cdrLost i l) := ⟨fun g hg => by
    rw [he]
    exact (hg.bad _ 0).trans ((hg.hold _ true).trans (hg.flag s (rxlStat_page i l) _ _))⟩
  have hcalm := hfree.calm hc
  have hlock : (s.cdrLost i l).on (R.RXG_RXL_STAT i l) F.RXG_RXL_STAT_CDR_LOCK = false :=
    (on_eq_of_rd (rd_eq_of_regs hregs _) _).trans (on_flag_same _ _ _ _ (by decide) rfl)
  have hkept : RegsKept s (s.cdrLost i l) [0x014] [R.RXG_RXL_STAT i l] :=
    ((RegsKept.refl s).flag _ _ (.inl List.mem_cons_self)).of_regs hregs
  have hon := hfree.onXo ho (congrArg LinkState.fresh hlink) (congrArg LinkState.raised hlink)
  have hexec : exec (.cdrLockLoss i l) s = .next (s.cdrLost i l).afterLink := rfl
  generalize s.cdrLost i l = u at *
  refine gives_of_eq hexec (afterLink_onXo hon) ⟨?_, (congrArg ClkState.holdover (settle_clk hcalm)).trans hhold,
    hfree.memKept.trans (.settle hcalm), hkept.trans (.settle hcalm (by simp))⟩
  refine (on_eq_of_rd (settle_rd hcalm _ ?_) _).trans hlock
  simp only [pageOf, R.RXG_RXL_STAT]
  omega

theorem refLaneHoldoverEnd_none (ho : OnXo s) (hc : Calm s) (hh : s.clk.holdover = true) (hn : s.newRef = none) :
    Gives .refLaneHoldoverEnd s fun t =>
      t.clk.holdover = false ∧ t.loopTimed = false ∧ t.link = { s.link with ref := none } ∧ MemKept s t := by
  have he := holdoverEnds_none hh ho.1 hn
  have hlink : s.holdoverEnds.link = { s.link with ref := none } := by rw [he, setLoopTimed_link]
  have hloop : s.holdoverEnds.loopTimed = false := by rw [he, setLoopTimed_loopTimed]
  have hfree : LinkOnly s s.holdoverEnds := ⟨fun g hg => by
    rw [he]
    exact (hg.setLoopTimed _ _).trans ((hg.link _ _).trans (hg.hold s false))⟩
  have hclk : s.holdoverEnds.clk.holdover = false := by
    rw [he]
    unfold setLoopTimed
    exact foldl_blind (g := fun s : State => s.clk.holdover) (f := fun t i => t.flag (R.TXG_GRP_STAT i)
      F.TXG_GRP_STAT_LOOP_TIMED false) (fun _ _ => rfl) groups _
  have hcalm := hfree.calm hc
  have hon := hfree.onXo ho (by rw [hlink]) (by rw [hlink])
  have hexec : exec .refLaneHoldoverEnd s = .next s.holdoverEnds.afterLink := rfl
  generalize s.holdoverEnds = u at *
  exact gives_of_eq hexec (afterLink_onXo hon) ⟨(congrArg ClkState.holdover (settle_clk hcalm)).trans hclk,
    (on_eq_of_rd (settle_rd hcalm _ (by decide)) _).trans hloop, (settle_link hcalm).trans hlink,
    hfree.memKept.trans (.settle hcalm)⟩

theorem refLaneHoldoverEnd_some (r : Nat × Nat) (ho : OnXo s) (hc : Calm s) (hh : s.clk.holdover = true)
    (hn : s.newRef = some r) : Gives .refLaneHoldoverEnd s fun t =>
      t.clk.holdover = false ∧ (∀ i : Fin 8, t.on (R.RXG_GRP_STAT i) F.RXG_GRP_STAT_CLK_REF = decide (i.val = r.1)) ∧
        t.loopTimed = s.loopTimed ∧ t.link = { s.link with ref := some r } ∧ MemKept s t := by
  have he := holdoverEnds_some hh hn
  obtain ⟨h1, h2, h3⟩ := setRef_spec { s with clk := { s.clk with holdover := false } } r
  have hlink : s.holdoverEnds.link = { s.link with ref := some r } := by rw [he, h1]
  have hclk : s.holdoverEnds.clk.holdover = false := by rw [he, h2]
  have hloop : s.holdoverEnds.loopTimed = s.loopTimed := by
    rw [he]
    exact laneBlind_loopTimed.setRef _ _
  have hmark (i : Fin 8) : s.holdoverEnds.on (R.RXG_GRP_STAT i) F.RXG_GRP_STAT_CLK_REF = decide (i.val = r.1) := by
    rw [he, h3]
  have hfree : LinkOnly s s.holdoverEnds := ⟨fun g hg => by
    rw [he]
    exact (hg.blind.setRef _ _).trans (hg.hold s false)⟩
  have hcalm := hfree.calm hc
  have hon := hfree.onXo ho (by rw [hlink]) (by rw [hlink])
  have hexec : exec .refLaneHoldoverEnd s = .next s.holdoverEnds.afterLink := rfl
  generalize s.holdoverEnds = u at *
  refine gives_of_eq hexec (afterLink_onXo hon) ⟨(congrArg ClkState.holdover (settle_clk hcalm)).trans hclk, fun i => ?_,
    (on_eq_of_rd (settle_rd hcalm _ (by decide)) _).trans hloop, (settle_link hcalm).trans hlink,
    hfree.memKept.trans (.settle hcalm)⟩
  refine (on_eq_of_rd (settle_rd hcalm _ ?_) _).trans (hmark i)
  simp only [pageOf, R.RXG_GRP_STAT]
  omega

/-- Settles O6: training and the loss of lock change the link alone (`LinkOnly`), and each leaves the link's state and timing
that the rules name. -/
theorem linkTraining : Obligations.LinkTraining :=
  ⟨fun _ => trainingStart_gives, fun _ x => trainingStateDone_coarse x, fun _ x => trainingStateDone_param x,
    fun _ x => trainingStateDone_param_waits x, fun _ x => trainingTimeout_early x, fun _ x => trainingTimeout_last x,
    fun _ x => trainingTimeout_recover x, fun _ i l => markerLockLost_inactive i l, fun _ i l => cdrLockLoss_ref i l,
    fun _ => refLaneHoldoverEnd_none, fun _ r => refLaneHoldoverEnd_some r⟩

end Sys2Proof.Safety
end

section
/-! SUPPORT. Replay, the link's resets and the control of its width (R80, R91, R95 to R97). -/

namespace Sys2Proof.Machine
open Sys2Proof.Safety State

/-! ### What a training or a recovery leaves of LL_STAT -/

/-- A field of LL_STAT other than the link's state. -/
theorem llStat_field (s : State) (n : Nat) {f : Fld} (hf : 4 ≤ f.lsb) :
    (s.put R.LINK_LL_STAT F.LINK_LL_STAT_LINK_STATE n).fld R.LINK_LL_STAT f = s.fld R.LINK_LL_STAT f :=
  fld_put_other _ _ _ _ _ _ (.inr (.inr hf))

theorem startTraining_llStat (s : State) (n : Nat) {f : Fld} (hf : 4 ≤ f.lsb) :
    (s.startTraining n).fld R.LINK_LL_STAT f = s.fld R.LINK_LL_STAT f := by
  have hg : LaneBlind (·.fld R.LINK_LL_STAT f) := laneBlind_fld f rfl (by decide)
  have hcount : (if s.link.trained then s.inc R.LINK_RETRAINS else s).fld R.LINK_LL_STAT f = s.fld R.LINK_LL_STAT f := by
    split
    · exact fld_eq_of_rd (by rw [rd_inc, if_neg (by decide)]) f
    · rfl
  have hloop (t : State) : (t.setLoopTimed false).fld R.LINK_LL_STAT f = t.fld R.LINK_LL_STAT f :=
    hg.setLoopTimed t (fun t i b => fld_flag_other _ _ _ _ _ _ (.inl (by
      simp only [R.LINK_LL_STAT, R.TXG_GRP_STAT]
      omega))) false
  have hfrom (t : State) : (trainFrom t n).fld R.LINK_LL_STAT f = t.fld R.LINK_LL_STAT f :=
    (hg.setLinkState _ (fun t m => llStat_field t m hf) n fun _ _ _ _ _ => fld_eq_of_rd (setUsable_rd _ _ _ _ (by decide)) _).trans
      ((hloop _).trans ((hg.dropWidthChange _).trans (hg.abortSparings t)))
  rw [startTraining_eq]
  refine (hg.placeBoth _).trans (Eq.trans ?_ ((hfrom _).trans hcount))
  show State.fld (if n = 1 then _ else _) _ _ = _
  split <;> rfl

/-- RECOVER is entered: all but the locks that RECOVER drops. -/
def recoverBegins (s : State) : State := ((s.abortSparings.dropWidthChange).setLinkState 8).inc R.LINK_RECOVERS

theorem recoverBegins_rd (s : State) {a : Nat} (h : a ≠ R.LINK_RECOVERS) :
    (recoverBegins s).rd a = ((s.abortSparings.dropWidthChange).setLinkState 8).rd a := by
  rw [recoverBegins, rd_inc, if_neg h]

/-- The locks that RECOVER drops, and what waited in ACTIVE. -/
def locksDropped (s : State) : State :=
  let u := groups.foldl (fun t g =>
    lanesOfGroup.foldl (fun u l => u.flag (R.RXG_RXL_STAT g l) F.RXG_RXL_STAT_MARK_LOCK false)
      (t.flag (R.RXG_GRP_STAT g) F.RXG_GRP_STAT_MARKER_LOCK false)) s
  { u with link := { u.link with ref := none, markGood := [], markBad := [], exits := [], ready := [], recoverDue := false } }

theorem enterRecover_eq {s : State} (h : s.linkActive = true) : s.enterRecover = locksDropped (recoverBegins s) := if_pos h

theorem locksDropped_blind {α : Type} {g : State → α} (hg : LaneBlind g) (s : State) : g (locksDropped s) = g s :=
  (hg.link _ _ (by rfl)).trans (foldl_blind_mem groups (fun i hi t =>
    (hg.laneFlags _ (groups_lt i hi) _ _).trans (hg.flag t (.rx _ (groups_lt i hi) (.inl (by decide))) _)) s)

theorem enterRecover_spec {s : State} (h : s.linkActive = true) : s.enterRecover.linkState = 8 ∧
    s.enterRecover.rd R.LINK_RECOVERS = s.rd R.LINK_RECOVERS + 1 ∧ linkCore s.enterRecover.link = linkCore s.link ∧
    ∀ f : Fld, 4 ≤ f.lsb → s.enterRecover.fld R.LINK_LL_STAT f = s.fld R.LINK_LL_STAT f := by
  have hcount : LaneBlind (·.rd R.LINK_RECOVERS) := laneBlind_rd rfl (by decide)
  have hrec : ((s.abortSparings.dropWidthChange).setLinkState 8).rd R.LINK_RECOVERS = s.rd R.LINK_RECOVERS :=
    (hcount.setLinkState _ (fun _ _ => rd_wr_other _ _ _ _ (by decide)) 8 fun h => absurd h (by decide)).trans
      ((hcount.dropWidthChange _).trans (hcount.abortSparings s))
  rw [enterRecover_eq h]
  refine ⟨(locksDropped_blind laneBlind_linkState _).trans ?_, (locksDropped_blind hcount _).trans ?_,
    (locksDropped_blind laneBlind_core _).trans ?_, fun f hf => ?_⟩
  · exact (fld_eq_of_rd (recoverBegins_rd s (by decide)) F.LINK_LL_STAT_LINK_STATE).trans (setLinkState_linkState _ (by decide))
  · rw [recoverBegins, rd_inc, if_pos rfl, hrec]
    rfl
  · rw [recoverBegins, inc_link, setLinkState_core, laneBlind_core.dropWidthChange, laneBlind_core.abortSparings]
  · have hg : LaneBlind (·.fld R.LINK_LL_STAT f) := laneBlind_fld f rfl (by decide)
    refine (locksDropped_blind hg _).trans ((fld_eq_of_rd (recoverBegins_rd s (by decide)) _).trans ?_)
    exact (hg.setLinkState _ (fun t m => llStat_field t m hf) 8 fun h => absurd h (by decide)).trans
      ((hg.dropWidthChange _).trans (hg.abortSparings s))

/-! ### Replay -/

theorem ackTimeout_eq {s : State} {x : Stored} {l : List Stored} (ha : s.linkActive = true) (ht : s.txState = 0 ∨ s.txState = 2)
    (hs : s.link.stored = x :: l) : s.ackTimeout =
      ({ s with link := { s.link with replayAt := 0, hold := some x.seq, replayNew := some x.seq } } : State).put R.LINK_LL_STAT
        F.LINK_LL_STAT_TX_STATE 1 := by
  have hopen : (s.linkActive && (s.txState == 0 || s.txState == 2)) = true := by
    rcases ht with ht | ht <;> simp [ha, ht]
  simp [ackTimeout, startReplay, hs, hopen]

/-! ### Link-layer initialisation -/

/-- A word written to several registers. -/
theorem rd_foldl_wr {a : Nat → Nat} (ha : ∀ i j, a i = a j → i = j) (v : Word) (l : List Nat) (s : State) (i : Nat) :
    (l.foldl (fun t j => t.wr (a j) v) s).rd (a i) = if i ∈ l then v else s.rd (a i) := by
  induction l generalizing s with
  | nil => rfl
  | cons j l ih =>
    rw [List.foldl_cons, ih]
    by_cases hl : i ∈ l
    · simp [hl]
    · by_cases hj : i = j
      · subst hj
        simp [hl]
      · simp [hl, hj, rd_wr_other _ _ _ _ fun e => hj (ha _ _ e)]

/-- LL_STAT at the start of an initialisation. -/
def llStatCleared (s : State) : State :=
  (((s.setRxState 3).setTxState 0).put R.LINK_LL_STAT F.LINK_LL_STAT_TX_SEQ 0).put R.LINK_LL_STAT F.LINK_LL_STAT_RX_SEQ 0

/-- The host's credits at the start of an initialisation, and what LL_STAT2 showed. -/
def credCleared (s : State) : State :=
  groups.foldl (fun t i => t.wr (R.LINK_CRED_TX i) 0)
    (((s.put R.LINK_LL_STAT2 F.LINK_LL_STAT2_ACK_SEQ 0).put R.LINK_LL_STAT2 F.LINK_LL_STAT2_STORED 0).put
      R.LINK_LL_STAT2 F.LINK_LL_STAT2_ERR_CAUSE 0)

/-- The registers at the start of an initialisation. -/
def initRegs (s : State) : State :=
  ((credCleared (llStatCleared s)).put R.XACT_EVT_SEQ F.XACT_EVT_SEQ_NEXT 0).inc R.LINK_LL_INITS

/-- What initialisation discards beside the registers: of the link's own state and of the requests (R85, R96). -/
def initState (s : State) : State := { s with
    link := { s.link with
      stored := [], replayAt := 0, hold := none, runSeq := 0, runCount := 0, lastFreed := none, accepted := false,
      replayNew := none, granted := [], grantLeft := 256, initStep := 1, initSent := 0, gotInit := false, credRet := [], hostHdr := [], hostData := [], txq := [],
      rx := [], await := [] }
    xact := { s.xact with
      reqs := (s.xact.reqs.filter fun r => decide (r.stage ≠ .done)).map fun r => { r with silent := true, owes := false } } }

/-- What of that is the link's own state. -/
def initLink (s : State) : State := { s with
    link := { s.link with
      stored := [], replayAt := 0, hold := none, runSeq := 0, runCount := 0, lastFreed := none, accepted := false,
      replayNew := none, granted := [], grantLeft := 256, initStep := 1, initSent := 0, gotInit := false, credRet := [], hostHdr := [], hostData := [], txq := [],
      rx := [], await := [] } }

theorem initState_split (s : State) : initState s = { initLink s with xact := (initState s).xact } := rfl

theorem llInit_eq (s : State) : s.llInit = (initState (initRegs s)).noteWait := by
  unfold llInit initState initRegs credCleared llStatCleared
  rfl

theorem initState_rd (t : State) (a : Nat) : (initState t).noteWait.rd a = t.rd a := rfl

theorem initState_link (t : State) : (initState t).noteWait.link.stored = [] ∧ (initState t).noteWait.link.rx = [] ∧
    (initState t).noteWait.link.credRet = [] ∧ (initState t).noteWait.link.fresh = t.link.fresh ∧
    (initState t).noteWait.link.raised = t.link.raised := ⟨rfl, rfl, rfl, rfl, rfl⟩

theorem llStatCleared_fields (s : State) : (llStatCleared s).linkState = s.linkState ∧ (llStatCleared s).rxState = 3 ∧
    (llStatCleared s).txState = 0 ∧ (llStatCleared s).txSeq = 0 ∧ (llStatCleared s).rxSeq = 0 := by
  have other {f g : Fld} (n : Nat) (t : State) (h : g.lsb + g.width ≤ f.lsb ∨ f.lsb + f.width ≤ g.lsb) :
      (t.put R.LINK_LL_STAT f n).fld R.LINK_LL_STAT g = t.fld R.LINK_LL_STAT g := fld_put_other _ _ _ _ _ _ (.inr h)
  have same {f : Fld} (n : Nat) (t : State) (h : f.lsb + f.width ≤ 32) :
      (t.put R.LINK_LL_STAT f n).fld R.LINK_LL_STAT f = n % 2 ^ f.width := fld_put_same _ _ _ _ h
  simp only [llStatCleared, linkState, rxState, txState, txSeq, rxSeq, setRxState, setTxState]
  refine ⟨?_, ?_, ?_, ?_, ?_⟩
  · rw [other _ _ (by decide), other _ _ (by decide), other _ _ (by decide), other _ _ (by decide)]
  · rw [other _ _ (by decide), other _ _ (by decide), other _ _ (by decide), same _ _ (by decide)]
    rfl
  · rw [other _ _ (by decide), other _ _ (by decide), same _ _ (by decide)]
    rfl
  · rw [other _ _ (by decide), same _ _ (by decide)]
    rfl
  · rw [same _ _ (by decide)]
    rfl

theorem credCleared_rd (s : State) {a : Nat} (h : a < 0xE0E0 ∨ 0xE100 ≤ a) (h2 : a ≠ R.LINK_LL_STAT2) :
    (credCleared s).rd a = s.rd a := by
  refine (foldl_blind_mem (g := (·.rd a)) groups (fun i hi t => rd_wr_other _ _ _ _ ?_) _).trans ?_
  · have := groups_lt i hi
    simp only [R.LINK_CRED_TX]
    omega
  · exact (rd_wr_other _ _ _ _ h2).trans ((rd_wr_other _ _ _ _ h2).trans (rd_wr_other _ _ _ _ h2))

theorem credCleared_tx (s : State) (i : Fin 8) : (credCleared s).rd (R.LINK_CRED_TX i) = 0 := by
  have hmem : ∀ i : Fin 8, i.val ∈ groups := by decide
  refine (rd_foldl_wr (a := R.LINK_CRED_TX) (fun j k e => ?_) 0 groups _ i).trans (if_pos (hmem i))
  simp only [R.LINK_CRED_TX] at e
  omega

theorem initRegs_rd (s : State) {a : Nat} (h1 : a ≠ R.XACT_EVT_SEQ) (h2 : a ≠ R.LINK_LL_INITS) :
    (initRegs s).rd a = (credCleared (llStatCleared s)).rd a := by
  rw [initRegs, rd_inc, if_neg h2]
  exact rd_wr_other _ _ _ _ h1

theorem initRegs_same {α : Type} {g : State → α} (hw : ∀ (t : State) a v, g (t.wr a v) = g t)
    (hc : ∀ (t : State) a n, g (t.counted a n) = g t) (s : State) : g (initRegs s) = g s := by
  have hinc (t : State) : g (t.inc R.LINK_LL_INITS) = g t := (hc _ _ _).trans (hw _ _ _)
  refine (hinc _).trans ((hw _ _ _).trans ((foldl_blind (fun t i => hw t _ _) _ _).trans ?_))
  exact (hw _ _ _).trans ((hw _ _ _).trans ((hw _ _ _).trans ((hw _ _ _).trans ((hw _ _ _).trans
    ((hw _ _ _).trans (hw _ _ _))))))

/-- Initialisation begins: both machines and all counts are at their start, nothing stored or received is left, and the
link's training stands. -/
theorem llInit_spec (s : State) : (s.llInit.linkState = s.linkState ∧ s.llInit.rxState = 3 ∧ s.llInit.txState = 0 ∧
      s.llInit.txSeq = 0 ∧ s.llInit.rxSeq = 0) ∧
    (s.llInit.link.stored = [] ∧ s.llInit.link.rx = [] ∧ s.llInit.link.credRet = [] ∧ s.llInit.link.fresh = s.link.fresh ∧
      s.llInit.link.raised = s.link.raised) ∧
    (∀ i : Fin 8, s.llInit.rd (R.LINK_CRED_TX i) = 0) ∧ s.llInit.rd R.LINK_LL_INITS = s.rd R.LINK_LL_INITS + 1 := by
  have hlink : (initRegs s).link = s.link := initRegs_same (g := State.link) (fun _ _ _ => rfl) (fun _ _ _ => by simp) s
  have hstat : (initRegs s).rd R.LINK_LL_STAT = (llStatCleared s).rd R.LINK_LL_STAT :=
    (initRegs_rd s (by decide) (by decide)).trans (credCleared_rd _ (.inl (by decide)) (by decide))
  have hrd (a : Nat) : s.llInit.rd a = (initRegs s).rd a := (congrArg (·.rd a) (llInit_eq s)).trans (initState_rd _ a)
  obtain ⟨k1, k2, k3, k4, k5⟩ := initState_link (initRegs s)
  rw [← llInit_eq] at k1 k2 k3 k4 k5
  obtain ⟨h1, h2, h3, h4, h5⟩ := llStatCleared_fields s
  have hstat' := (hrd _).trans hstat
  refine ⟨⟨(fld_eq_of_rd hstat' _).trans h1, (fld_eq_of_rd hstat' _).trans h2, (fld_eq_of_rd hstat' _).trans h3, ?_, ?_⟩,
    ⟨k1, k2, k3, k4.trans (congrArg LinkState.fresh hlink), k5.trans (congrArg LinkState.raised hlink)⟩, fun i => (hrd _).trans ?_, (hrd _).trans ?_⟩
  · exact (congrArg (BitVec.ofNat 12) (fld_eq_of_rd hstat' _)).trans h4
  · exact (congrArg (BitVec.ofNat 12) (fld_eq_of_rd hstat' _)).trans h5
  · refine (initRegs_rd s ?_ ?_).trans (credCleared_tx _ i)
    · simp only [R.LINK_CRED_TX, R.XACT_EVT_SEQ]
      omega
    · simp only [R.LINK_CRED_TX, R.LINK_LL_INITS]
      omega
  · have hput : ((credCleared (llStatCleared s)).put R.XACT_EVT_SEQ F.XACT_EVT_SEQ_NEXT 0).rd R.LINK_LL_INITS
        = s.rd R.LINK_LL_INITS := by
      refine (rd_wr_other _ _ _ _ (by decide)).trans ((credCleared_rd _ (.inl (by decide)) (by decide)).trans ?_)
      exact (rd_wr_other _ _ _ _ (by decide)).trans ((rd_wr_other _ _ _ _ (by decide)).trans
        ((rd_wr_other _ _ _ _ (by decide)).trans (rd_wr_other _ _ _ _ (by decide))))
    rw [initRegs, rd_inc, if_pos rfl, hput]
    rfl

/-- A part of the state beside the registers, the requests and the link's own state. -/
theorem llInit_same {α : Type} {g : State → α} (hw : ∀ (t : State) a v, g (t.wr a v) = g t)
    (hc : ∀ (t : State) a n, g (t.counted a n) = g t) (hx : ∀ (t : State) x, g { t with xact := x } = g t)
    (hl : ∀ (t : State) l, g { t with link := l } = g t) (s : State) : g s.llInit = g s := by
  have hinit (t : State) : g (initState t).noteWait = g t :=
    (hx (initState t) _).trans ((congrArg g (initState_split t)).trans ((hx (initLink t) _).trans (hl t _)))
  rw [llInit_eq, hinit, initRegs_same hw hc]

theorem llInit_memKept (s : State) : MemKept s s.llInit := by
  have h := llInit_same (g := fun s => (s.dram, s.cache, s.wdb, s.place, s.otp, s.mgmt.flash)) (fun _ _ _ => rfl)
    (fun _ _ _ => by simp) (fun _ _ => rfl) (fun _ _ => rfl) s
  simp only [Prod.mk.injEq] at h
  obtain ⟨h1, h2, h3, h4, h5, h6⟩ := h
  exact ⟨h1, h2, h3, h4, h5, h6⟩

theorem llInit_calm {s : State} (h : Calm s) : Calm s.llInit := by
  have h4 := llInit_same (g := fun s => (s.fcol.handed, s.fcol.declared, s.spare.rows, s.place.retiring)) (fun _ _ _ => rfl)
    (fun _ _ _ => by simp) (fun _ _ => rfl) (fun _ _ => rfl) s
  simp only [Prod.mk.injEq] at h4
  obtain ⟨h1, h2, h3, h4⟩ := h4
  exact h.of_parts h1 h2 h3 h4

theorem llInit_rd {s : State} {a : Nat} (h : pageOf a ≠ 0x00E) (h1 : a ≠ R.XACT_EVT_SEQ) : s.llInit.rd a = s.rd a := by
  have hp : a < 0xE000 ∨ 0xF000 ≤ a := by
    unfold pageOf at h
    omega
  have h2 : a ≠ R.LINK_LL_STAT := by rintro rfl; exact h rfl
  have h3 : a ≠ R.LINK_LL_STAT2 := by rintro rfl; exact h rfl
  have h4 : a ≠ R.LINK_LL_INITS := by rintro rfl; exact h rfl
  rw [llInit_eq, initState_rd, initRegs_rd s h1 h4, credCleared_rd _ (by omega) h3]
  exact (rd_wr_other _ _ _ _ h2).trans ((rd_wr_other _ _ _ _ h2).trans
    ((rd_wr_other _ _ _ _ h2).trans (rd_wr_other _ _ _ _ h2)))

/-! ### Automatic width -/

theorem decideWidth_rd (s : State) (d : Dir) {a : Nat} (h : a ≠ R.LINK_WIDTH_STAT) : (s.decideWidth d).rd a = s.rd a :=
  decideWidth_blind (g := (·.rd a)) (fun _ _ _ => rfl) (fun _ _ _ _ => rd_wr_other _ _ _ _ h) s d

theorem decideWidth_core (s : State) (d : Dir) : widthCore (s.decideWidth d).link = widthCore s.link :=
  decideWidth_blind (g := fun s => widthCore s.link) (fun _ _ h => h) (fun _ _ _ _ => rfl) s d

/-- The fields of WIDTH_CTL for a direction. -/
def autoFld : Dir → Fld | .rx => F.LINK_WIDTH_CTL_RX_AUTO | .tx => F.LINK_WIDTH_CTL_TX_AUTO
def targetFld : Dir → Fld | .rx => F.LINK_WIDTH_CTL_RX_TARGET | .tx => F.LINK_WIDTH_CTL_TX_TARGET

/-- A window of automatic width ends with a step. -/
def windowStep (s : State) (d : Dir) (n : Nat) : State :=
  { s with link := { s.link with
      slotsAll := SMap.set (fun _ => 0) (dirIx d) 0 s.link.slotsAll
      slotsUsed := SMap.set (fun _ => 0) (dirIx d) 0 s.link.slotsUsed
      autoStep := SMap.set (fun _ => 0) (dirIx d) n s.link.autoStep } }

theorem windowStep_autoStep (s : State) (d : Dir) (n : Nat) :
    (windowStep s d n).link.autoStep = SMap.set (fun _ => 0) (dirIx d) n s.link.autoStep := rfl
theorem windowStep_slotsAll (s : State) (d : Dir) (n : Nat) :
    (windowStep s d n).link.slotsAll = SMap.set (fun _ => 0) (dirIx d) 0 s.link.slotsAll := rfl
theorem windowStep_slotsUsed (s : State) (d : Dir) (n : Nat) :
    (windowStep s d n).link.slotsUsed = SMap.set (fun _ => 0) (dirIx d) 0 s.link.slotsUsed := rfl

/-- What deciding a width leaves, of whatever state. -/
theorem decideWidth_spec (s : State) (d : Dir) : LinkOnly s (s.decideWidth d) ∧ widthCore (s.decideWidth d).link = widthCore s.link ∧
    (∀ e, (s.decideWidth d).curStep e = s.curStep e) ∧ ∀ a, a ≠ R.LINK_WIDTH_STAT → (s.decideWidth d).rd a = s.rd a :=
  ⟨⟨fun _ hg => hg.blind.decideWidth s d⟩, decideWidth_core s d, fun e => (laneBlind_curStep e).decideWidth s d,
    fun _ h => decideWidth_rd s d h⟩

/-- A decision of the width on the crystal, and what follows it. -/
theorem decideWidth_after {s t : State} (d : Dir) (h : LinkOnly s t) (ho : OnXo t) (hc : Calm s) :
    widthCore (t.decideWidth d).afterLink.link = widthCore t.link ∧
      (∀ e, (t.decideWidth d).afterLink.curStep e = t.curStep e) ∧ MemKept s (t.decideWidth d).afterLink ∧
      ∀ a, pageOf a ≠ 0x014 → a ≠ R.LINK_WIDTH_STAT → (t.decideWidth d).afterLink.rd a = t.rd a := by
  obtain ⟨h1, h2, h3, h4⟩ := decideWidth_spec t d
  have hcore : ∀ {l m : LinkState}, widthCore l = widthCore m → l.fresh = m.fresh ∧ l.raised = m.raised := by
    intro l m e
    simp only [widthCore, Prod.mk.injEq] at e
    obtain ⟨-, -, -, -, -, hf, -⟩ := linkCore_fields e.1
    exact ⟨hf, e.2.1⟩
  have hon := h1.onXo ho (hcore h2).1 (hcore h2).2
  have hcalm := h1.calm (h.calm hc)
  rw [afterLink_onXo hon, settle_link hcalm]
  have hcur (e : Dir) : (t.decideWidth d).settle.curStep e = (t.decideWidth d).curStep e := by
    cases e <;> exact fld_eq_of_rd (settle_rd hcalm _ (by decide)) _
  exact ⟨h2, fun e => (hcur e).trans (h3 e), h.memKept.trans (h1.memKept.trans (.settle hcalm)),
    fun a hp ha => (settle_rd hcalm a hp).trans (h4 a ha)⟩

theorem autoWindow_high {s : State} {d : Dir} (ha : s.linkActive = true)
    (hon : s.on R.LINK_WIDTH_CTL (autoFld d) = true)
    (hh : s.fld R.LINK_WIDTH_CTL F.LINK_WIDTH_CTL_AUTO_HIGH * SMap.get (fun _ => 0) s.link.slotsAll (dirIx d)
      < 100 * SMap.get (fun _ => 0) s.link.slotsUsed (dirIx d)) :
    s.autoWindow d = (windowStep s d (min
      (s.fld R.LINK_WIDTH_CTL (targetFld d))
      (SMap.get (fun _ => 0) s.link.autoStep (dirIx d)) - 1)).decideWidth d := by
  have ha' (l : LinkState) : ({ s with link := l } : State).linkActive = true := ha
  cases d with
  | rx =>
    simp only [autoWindow, show s.on R.LINK_WIDTH_CTL F.LINK_WIDTH_CTL_RX_AUTO = true from hon, hh, ha', Bool.and_self, if_true]
    rfl
  | tx =>
    simp only [autoWindow, show s.on R.LINK_WIDTH_CTL F.LINK_WIDTH_CTL_TX_AUTO = true from hon, hh, ha', Bool.and_self, if_true]
    rfl

theorem autoWindow_low {s : State} {d : Dir} (ha : s.linkActive = true)
    (hon : s.on R.LINK_WIDTH_CTL (autoFld d) = true)
    (hh : 100 * SMap.get (fun _ => 0) s.link.slotsUsed (dirIx d)
      ≤ s.fld R.LINK_WIDTH_CTL F.LINK_WIDTH_CTL_AUTO_HIGH * SMap.get (fun _ => 0) s.link.slotsAll (dirIx d))
    (hl : 100 * SMap.get (fun _ => 0) s.link.slotsUsed (dirIx d)
      < s.fld R.LINK_WIDTH_CTL F.LINK_WIDTH_CTL_AUTO_LOW * SMap.get (fun _ => 0) s.link.slotsAll (dirIx d)) :
    s.autoWindow d = (windowStep s d (min
      (s.fld R.LINK_WIDTH_CTL (targetFld d))
      (min (s.fld R.LINK_WIDTH_CTL (targetFld d))
      (SMap.get (fun _ => 0) s.link.autoStep (dirIx d)) + 1))).decideWidth d := by
  have ha' (l : LinkState) : ({ s with link := l } : State).linkActive = true := ha
  cases d with
  | rx =>
    simp only [autoWindow, show s.on R.LINK_WIDTH_CTL F.LINK_WIDTH_CTL_RX_AUTO = true from hon, Nat.not_lt.mpr hh, hl, ha',
      Bool.and_self, if_true, if_false]
    rfl
  | tx =>
    simp only [autoWindow, show s.on R.LINK_WIDTH_CTL F.LINK_WIDTH_CTL_TX_AUTO = true from hon, Nat.not_lt.mpr hh, hl, ha',
      Bool.and_self, if_true, if_false]
    rfl

/-! ### The LINK page -/

variable {s : State} {path : Path}

theorem linkReg_write {a : Nat} {m c : Word} (v : Word) (ho : Open s path a) (hp : PlainReg a m c) (hsoft : s.softBits a = 0)
    (hb : (pageOf a == 1 && (mbInput (offOf a)).any s.mbBusy) = false) (hf : firstOf (pageOf a) = 0x00E ∧ 0x40 ≤ offOf a)
    (hcur : s.cur a = s.rd a) :
    s.regCmd path a v = (s.wrLink (offOf a) (s.rd a) ((s.rd a &&& ~~~m) ||| (v &&& m)) (v &&& c)).afterLink := by
  rw [regCmd_plain v ho hp hsoft hb, regEffect_link hf.1 hf.2, hcur]
  unfold afterWrite
  rw [hf.1]
  rfl

/-- A word written to LL_CTL. -/
def llCtlSet (s : State) (v : Word) : State := s.wr R.LINK_LL_CTL ((s.rd R.LINK_LL_CTL &&& ~~~4294967280#32) ||| (v &&& 4294967280#32))

/-- A retrain or recover command is planned (R298). -/
def planned (s : State) : State := { s with spare := { s.spare with planned := true } }

theorem llCtl_write (v : Word) (ho : Open s path R.LINK_LL_CTL) : s.regCmd path R.LINK_LL_CTL v =
    (let t := llCtlSet s v
     let t := if F.LINK_LL_CTL_RETRAIN.get v = 1 then (planned t).startTraining 1 else t
     let t := if F.LINK_LL_CTL_RECOVER.get v = 1 ∧ t.linkActive then (planned t).enterRecover else t
     if F.LINK_LL_CTL_LL_RESET.get v = 1 then t.llInit else t).afterLink := by
  have hoff : offOf R.LINK_LL_CTL = 0x40 := by decide
  have h1 : F.LINK_LL_CTL_RETRAIN.get (v &&& 7#32) = F.LINK_LL_CTL_RETRAIN.get v := Fld.get_and v (by decide)
  have h2 : F.LINK_LL_CTL_RECOVER.get (v &&& 7#32) = F.LINK_LL_CTL_RECOVER.get v := Fld.get_and v (by decide)
  have h3 : F.LINK_LL_CTL_LL_RESET.get (v &&& 7#32) = F.LINK_LL_CTL_LL_RESET.get v := Fld.get_and v (by decide)
  rw [linkReg_write (m := 4294967280#32) (c := 7#32) v ho (by decide) rfl rfl (by decide) rfl, hoff]
  unfold wrLink
  rw [h1, h2, h3, if_pos rfl]
  rfl

theorem llCtlSet_linkOnly (v : Word) : LinkOnly s (llCtlSet s v) := ⟨fun _ hg => hg.wr s _ _ (.inl rfl)⟩

end Sys2Proof.Machine

namespace Sys2Proof.Safety
open Sys2Proof.Machine Sys2Proof.Machine.State

variable {s : State}

theorem ackTimeout_gives (x : Stored) (l : List Stored) (ho : OnXo s) (hc : Calm s) (ha : s.linkActive = true)
    (ht : s.txState = 0 ∨ s.txState = 2) (hs : s.link.stored = x :: l) : Gives .ackTimeout s fun t =>
      t.txState = 1 ∧ t.link.replayAt = 0 ∧ t.link.hold = some x.seq ∧ t.link.replayNew = some x.seq ∧
        t.link.stored = s.link.stored ∧ t.rd R.LINK_REPLAYS = s.rd R.LINK_REPLAYS ∧ MemKept s t ∧
        RegsKept s t [0x014] [R.LINK_LL_STAT] := by
  have he := ackTimeout_eq ha ht hs
  have hlink : s.ackTimeout.link = { s.link with replayAt := 0, hold := some x.seq, replayNew := some x.seq } := by
    rw [he]
    rfl
  have htx : s.ackTimeout.txState = 1 := by
    rw [he]
    exact fld_put_same _ _ _ _ (by decide)
  have hrd {a : Nat} (h : a ≠ R.LINK_LL_STAT) : s.ackTimeout.rd a = s.rd a := by
    rw [he]
    exact rd_wr_other _ _ _ _ h
  have hfree : LinkOnly s s.ackTimeout := ⟨fun g hg => by
    rw [he]
    exact (hg.put _ (.inl rfl) _ _).trans (hg.link s _)⟩
  have hcalm := hfree.calm hc
  have hon := hfree.onXo ho (by rw [hlink]) (by rw [hlink])
  have hexec : exec .ackTimeout s = .next s.ackTimeout.afterLink := rfl
  generalize s.ackTimeout = u at *
  have hset := settle_link hcalm
  rw [hlink] at hset
  refine gives_of_eq hexec (afterLink_onXo hon) ⟨(fld_eq_of_rd (settle_rd hcalm _ (by decide)) _).trans htx, ?_, ?_, ?_, ?_,
    (settle_rd hcalm _ (by decide)).trans (hrd (by decide)), hfree.memKept.trans (.settle hcalm), fun a hp hn => ?_⟩
  · rw [hset]
  · rw [hset]
  · rw [hset]
  · rw [hset]
  · exact (settle_rd hcalm a (by simpa using hp)).trans (hrd (by simpa using hn))

theorem replayHoldExpiry_exec (h : s.released = true) :
    exec .replayHoldExpiry s = .next { s with link := { s.link with hold := none } } :=
  congrArg Host.Outcome.next (clocked_eq h _)

/-- The link leaves ACTIVE for RECOVER by a timer or a command, with the state of the sender and the stored flits kept. -/
theorem enterRecover_after (ho : OnXo s) (hc : Calm s) (ha : s.linkActive = true) :
    s.enterRecover.afterLink.linkState = 8 ∧ s.enterRecover.afterLink.txState = s.txState ∧
      s.enterRecover.afterLink.rd R.LINK_RECOVERS = s.rd R.LINK_RECOVERS + 1 ∧
      s.enterRecover.afterLink.link.stored = s.link.stored ∧ MemKept s s.enterRecover.afterLink := by
  obtain ⟨hx, hr, -, -, -⟩ := ho
  obtain ⟨h1, h2, h3, h4⟩ := enterRecover_spec ha
  have hfree : LinkOnly s s.enterRecover := ⟨fun _ hg => hg.enterRecover s⟩
  obtain ⟨hl, hm, hrd⟩ := afterLink_spec (hfree.calm hc) (hfree.xoOk.trans hx) (hfree.refSrc.trans hr) (.inl (by rw [h1]; decide))
  obtain ⟨hstored, -⟩ := linkCore_fields h3
  exact ⟨(fld_eq_of_rd (hrd _ (by decide) (by decide)) _).trans h1,
    (fld_eq_of_rd (hrd _ (by decide) (by decide)) _).trans (h4 _ (by decide)),
    (hrd _ (by decide) (by decide)).trans h2, (congrArg LinkState.stored hl).trans hstored, hfree.memKept.trans hm⟩

theorem stallTimeout_gives (hrel : s.released = true) (ho : OnXo s) (hc : Calm s) (ha : s.linkActive = true)
    (ht : s.txState = 2) : Gives .stallTimeout s fun t =>
      t.linkState = 8 ∧ t.txState = 2 ∧ t.rd R.LINK_RECOVERS = s.rd R.LINK_RECOVERS + 1 ∧
        t.link.stored = s.link.stored ∧ MemKept s t := by
  obtain ⟨h1, h2, h3, h4, h5⟩ := enterRecover_after ho hc ha
  have he : (s.clocked fun s => s.stallExpires.afterLink) = s.enterRecover.afterLink := by
    rw [clocked_eq hrel, stallExpires, if_pos ht]
  exact gives_of_eq rfl he ⟨h1, h2.trans ht, h3, h4, h5⟩

/-! ### Commands of LL_CTL -/

theorem llCtlSet_onXo (v : Word) (ho : OnXo s) : OnXo (llCtlSet s v) := (llCtlSet_linkOnly v).onXo ho rfl rfl

theorem llCtlSet_rd (v : Word) {a : Nat} (h : a ≠ R.LINK_LL_CTL) : (llCtlSet s v).rd a = s.rd a := rd_wr_other _ _ _ _ h

theorem planned_onXo (ho : OnXo s) : OnXo (planned s) := ho
theorem planned_calm (hc : Calm s) : Calm (planned s) := hc

/-- The word that `regSet` writes: one action of LL_CTL, and of the others those of the word. -/
theorem llCtl_action (v : Word) : F.LINK_LL_CTL_RETRAIN.get (F.LINK_LL_CTL_RETRAIN.set 1 v) = 1 ∧
    F.LINK_LL_CTL_RECOVER.get (F.LINK_LL_CTL_RECOVER.set 1 v) = 1 ∧
    F.LINK_LL_CTL_LL_RESET.get (F.LINK_LL_CTL_LL_RESET.set 1 v) = 1 :=
  ⟨Fld.get_set _ _ _ (by decide), Fld.get_set _ _ _ (by decide), Fld.get_set _ _ _ (by decide)⟩

theorem retrain_write (w : RegWrite) (ho : Open s w.path R.LINK_LL_CTL) (h1 : F.LINK_LL_CTL_RECOVER.get w.value = 0)
    (h2 : F.LINK_LL_CTL_LL_RESET.get w.value = 0) : s.regSet w R.LINK_LL_CTL F.LINK_LL_CTL_RETRAIN =
      ((planned (llCtlSet s (F.LINK_LL_CTL_RETRAIN.set 1 w.value))).startTraining 1).afterLink := by
  have hrec : F.LINK_LL_CTL_RECOVER.get (F.LINK_LL_CTL_RETRAIN.set 1 w.value) = 0 :=
    (Fld.get_set_other _ _ _ _ (by decide)).trans h1
  have hres : F.LINK_LL_CTL_LL_RESET.get (F.LINK_LL_CTL_RETRAIN.set 1 w.value) = 0 :=
    (Fld.get_set_other _ _ _ _ (by decide)).trans h2
  refine (llCtl_write (F.LINK_LL_CTL_RETRAIN.set 1 w.value) ho).trans ?_
  simp only [(llCtl_action w.value).1, hrec, hres, if_true, if_false, false_and, zero_ne_one]

theorem recover_write (w : RegWrite) (ho : Open s w.path R.LINK_LL_CTL) (ha : s.linkActive = true)
    (h1 : F.LINK_LL_CTL_RETRAIN.get w.value = 0) (h2 : F.LINK_LL_CTL_LL_RESET.get w.value = 0) :
    s.regSet w R.LINK_LL_CTL F.LINK_LL_CTL_RECOVER =
      (planned (llCtlSet s (F.LINK_LL_CTL_RECOVER.set 1 w.value))).enterRecover.afterLink := by
  have hret : F.LINK_LL_CTL_RETRAIN.get (F.LINK_LL_CTL_RECOVER.set 1 w.value) = 0 :=
    (Fld.get_set_other _ _ _ _ (by decide)).trans h1
  have hres : F.LINK_LL_CTL_LL_RESET.get (F.LINK_LL_CTL_RECOVER.set 1 w.value) = 0 :=
    (Fld.get_set_other _ _ _ _ (by decide)).trans h2
  have hactive : (llCtlSet s (F.LINK_LL_CTL_RECOVER.set 1 w.value)).linkActive = true :=
    (congrArg (fun n => decide (n = 7)) (fld_eq_of_rd (llCtlSet_rd _ (by decide)) _)).trans ha
  refine (llCtl_write (F.LINK_LL_CTL_RECOVER.set 1 w.value) ho).trans ?_
  simp only [(llCtl_action w.value).2.1, hret, hres, hactive, if_true, if_false, and_self, zero_ne_one]

theorem llReset_write (w : RegWrite) (ho : Open s w.path R.LINK_LL_CTL) (h1 : F.LINK_LL_CTL_RETRAIN.get w.value = 0)
    (h2 : F.LINK_LL_CTL_RECOVER.get w.value = 0) : s.regSet w R.LINK_LL_CTL F.LINK_LL_CTL_LL_RESET =
      (llCtlSet s (F.LINK_LL_CTL_LL_RESET.set 1 w.value)).llInit.afterLink := by
  have hret : F.LINK_LL_CTL_RETRAIN.get (F.LINK_LL_CTL_LL_RESET.set 1 w.value) = 0 :=
    (Fld.get_set_other _ _ _ _ (by decide)).trans h1
  have hrec : F.LINK_LL_CTL_RECOVER.get (F.LINK_LL_CTL_LL_RESET.set 1 w.value) = 0 :=
    (Fld.get_set_other _ _ _ _ (by decide)).trans h2
  refine (llCtl_write (F.LINK_LL_CTL_LL_RESET.set 1 w.value) ho).trans ?_
  simp only [(llCtl_action w.value).2.2, hret, hrec, if_true, if_false, false_and, zero_ne_one]

theorem planned_rd (s : State) (a : Nat) : (planned s).rd a = s.rd a := rfl

theorem retrain_gives (w : RegWrite) (ho : Open s w.path R.LINK_LL_CTL) (hc : Calm s) (hon : OnXo s)
    (h1 : F.LINK_LL_CTL_RECOVER.get w.value = 0) (h2 : F.LINK_LL_CTL_LL_RESET.get w.value = 0) : Gives (.retrain w) s fun t =>
      t.linkState = 1 ∧ t.txState = s.txState ∧ t.rxState = s.rxState ∧ t.txSeq = s.txSeq ∧ t.rxSeq = s.rxSeq ∧
        t.link.stored = s.link.stored ∧ t.link.attempts = 0 ∧ MemKept s t := by
  have he := retrain_write w ho h1 h2
  have hset := llCtlSet_linkOnly (s := s) (F.LINK_LL_CTL_RETRAIN.set 1 w.value)
  have hstat : (llCtlSet s (F.LINK_LL_CTL_RETRAIN.set 1 w.value)).rd R.LINK_LL_STAT = s.rd R.LINK_LL_STAT :=
    llCtlSet_rd _ (by decide)
  have hstored : (llCtlSet s (F.LINK_LL_CTL_RETRAIN.set 1 w.value)).link.stored = s.link.stored := rfl
  have hon' := llCtlSet_onXo (F.LINK_LL_CTL_RETRAIN.set 1 w.value) hon
  generalize llCtlSet s (F.LINK_LL_CTL_RETRAIN.set 1 w.value) = u at he hset hstat hstored hon'
  obtain ⟨hx, hr, -, -, -⟩ := planned_onXo hon'
  have hcalm := planned_calm (hset.calm hc)
  have hfld (f : Fld) (hf : 4 ≤ f.lsb) : ((planned u).startTraining 1).fld R.LINK_LL_STAT f = s.fld R.LINK_LL_STAT f :=
    (startTraining_llStat _ 1 hf).trans (fld_eq_of_rd ((planned_rd u _).trans hstat) f)
  obtain ⟨g1, -, g3, -, g5, -⟩ := startTraining_spec (planned u) (n := 1) (by decide)
  have hfree : LinkOnly (planned u) ((planned u).startTraining 1) := ⟨fun _ hg => hg.startTraining _ 1⟩
  obtain ⟨-, hm, hrd⟩ := afterLink_spec (hfree.calm hcalm) (hfree.xoOk.trans hx) (hfree.refSrc.trans hr)
    (.inl (by rw [g1]; decide))
  have hfld' (f : Fld) (hf : 4 ≤ f.lsb) :
      ((planned u).startTraining 1).afterLink.fld R.LINK_LL_STAT f = s.fld R.LINK_LL_STAT f :=
    (fld_eq_of_rd (hrd _ (by decide) (by decide)) f).trans (hfld f hf)
  have hmem : MemKept u (planned u) := ⟨rfl, rfl, rfl, rfl, rfl, rfl⟩
  obtain ⟨-, -, hcore, -⟩ := hfree.after hcalm hx hr (.inl (by rw [g1]; decide))
  obtain ⟨c1, -, -, c4, -⟩ := linkCore_fields hcore
  exact gives_of_eq rfl he ⟨(fld_eq_of_rd (hrd _ (by decide) (by decide)) _).trans g1, hfld' _ (by decide), hfld' _ (by decide),
    congrArg (BitVec.ofNat 12) (hfld' _ (by decide)), congrArg (BitVec.ofNat 12) (hfld' _ (by decide)),
    c1.trans (g5.trans hstored), c4.trans g3,
    hset.memKept.trans (hmem.trans (hfree.memKept.trans hm))⟩

theorem recover_gives (w : RegWrite) (ho : Open s w.path R.LINK_LL_CTL) (hc : Calm s) (hon : OnXo s) (ha : s.linkActive = true)
    (h1 : F.LINK_LL_CTL_RETRAIN.get w.value = 0) (h2 : F.LINK_LL_CTL_LL_RESET.get w.value = 0) : Gives (.recover w) s fun t =>
      t.linkState = 8 ∧ t.rd R.LINK_RECOVERS = s.rd R.LINK_RECOVERS + 1 ∧ t.link.stored = s.link.stored ∧ MemKept s t := by
  have he := recover_write w ho ha h1 h2
  have hset := llCtlSet_linkOnly (s := s) (F.LINK_LL_CTL_RECOVER.set 1 w.value)
  have hrd {a : Nat} (h : a ≠ R.LINK_LL_CTL) := llCtlSet_rd (s := s) (F.LINK_LL_CTL_RECOVER.set 1 w.value) h
  have hstored : (llCtlSet s (F.LINK_LL_CTL_RECOVER.set 1 w.value)).link.stored = s.link.stored := rfl
  have hon' := llCtlSet_onXo (F.LINK_LL_CTL_RECOVER.set 1 w.value) hon
  generalize llCtlSet s (F.LINK_LL_CTL_RECOVER.set 1 w.value) = u at he hset hrd hstored hon'
  have ha' : (planned u).linkActive = true :=
    (congrArg (fun n => decide (n = 7)) (fld_eq_of_rd (hrd (by decide)) F.LINK_LL_STAT_LINK_STATE)).trans ha
  obtain ⟨k1, -, k3, k4, k5⟩ := enterRecover_after (planned_onXo hon') (planned_calm (hset.calm hc)) ha'
  have hmem : MemKept u (planned u) := ⟨rfl, rfl, rfl, rfl, rfl, rfl⟩
  exact gives_of_eq rfl he ⟨k1, k3.trans (congrArg (· + 1) (hrd (by decide))), k4.trans hstored,
    hset.memKept.trans (hmem.trans k5)⟩

theorem llReset_gives (w : RegWrite) (ho : Open s w.path R.LINK_LL_CTL) (hc : Calm s) (hon : OnXo s)
    (h1 : F.LINK_LL_CTL_RETRAIN.get w.value = 0) (h2 : F.LINK_LL_CTL_RECOVER.get w.value = 0) : Gives (.llReset w) s fun t =>
      t.rxState = 3 ∧ t.txState = 0 ∧ t.txSeq = 0 ∧ t.rxSeq = 0 ∧ t.link.stored = [] ∧ t.link.rx = [] ∧
        t.link.credRet = [] ∧ (∀ i : Fin 8, t.rd (R.LINK_CRED_TX i) = 0) ∧ t.linkState = s.linkState ∧
        t.rd R.LINK_LL_INITS = s.rd R.LINK_LL_INITS + 1 ∧ MemKept s t := by
  have he := llReset_write w ho h1 h2
  have hset := llCtlSet_linkOnly (s := s) (F.LINK_LL_CTL_LL_RESET.set 1 w.value)
  have hrd {a : Nat} (h : a ≠ R.LINK_LL_CTL) := llCtlSet_rd (s := s) (F.LINK_LL_CTL_LL_RESET.set 1 w.value) h
  have hon' := llCtlSet_onXo (F.LINK_LL_CTL_LL_RESET.set 1 w.value) hon
  generalize llCtlSet s (F.LINK_LL_CTL_LL_RESET.set 1 w.value) = u at he hset hrd hon'
  obtain ⟨⟨g1, g2, g3, g4, g5⟩, ⟨k1, k2, k3, k4, k5⟩, hcred, hinits⟩ := llInit_spec u
  have hcalm := llInit_calm (hset.calm hc)
  have hinit : OnXo u.llInit := by
    obtain ⟨x1, x2, x3, x4, x5⟩ := hon'
    have hr {a : Nat} (h : pageOf a ≠ 0x00E) (h1 : a ≠ R.XACT_EVT_SEQ) := llInit_rd (s := u) h h1
    exact ⟨(on_eq_of_rd (hr (by decide) (by decide)) _).trans x1, (fld_eq_of_rd (hr (by decide) (by decide)) _).trans x2,
      fun h => x3 ((fld_eq_of_rd (hr (by decide) (by decide)) _).symm.trans h), k4.trans x4, k5.trans x5⟩
  have hmem := llInit_memKept u
  generalize u.llInit = t at *
  have hs {a : Nat} (h : pageOf a ≠ 0x014) := settle_rd hcalm a h
  have hl := settle_link hcalm
  refine gives_of_eq rfl (he.trans (afterLink_onXo hinit)) ⟨(fld_eq_of_rd (hs (by decide)) _).trans g2,
    (fld_eq_of_rd (hs (by decide)) _).trans g3, (congrArg (BitVec.ofNat 12) (fld_eq_of_rd (hs (by decide)) _)).trans g4,
    (congrArg (BitVec.ofNat 12) (fld_eq_of_rd (hs (by decide)) _)).trans g5, (congrArg LinkState.stored hl).trans k1,
    (congrArg LinkState.rx hl).trans k2, (congrArg LinkState.credRet hl).trans k3, fun i => (hs ?_).trans (hcred i),
    (fld_eq_of_rd (hs (by decide)) _).trans (g1.trans (fld_eq_of_rd (hrd (by decide)) _)),
    (hs (by decide)).trans (hinits.trans (congrArg (· + 1) (hrd (by decide)))),
    hset.memKept.trans (hmem.trans (.settle hcalm))⟩
  simp only [pageOf, R.LINK_CRED_TX]
  omega

/-! ### Automatic width and WIDTH_CTL -/

theorem windowStep_linkOnly (d : Dir) (n : Nat) : LinkOnly s (windowStep s d n) := ⟨fun _ hg => hg.link s _⟩

/-- A window that ends with a step shows it, starts its counts again and leaves the width. -/
theorem autoWindow_gives {d : Dir} {n : Nat} (hrel : s.released = true) (ho : OnXo s) (hc : Calm s)
    (he : s.autoWindow d = (windowStep s d n).decideWidth d) : Gives (.widthAutoWindow d) s fun t =>
      SMap.get (fun _ => 0) t.link.autoStep (dirIx d) = n ∧ SMap.get (fun _ => 0) t.link.slotsAll (dirIx d) = 0 ∧
        SMap.get (fun _ => 0) t.link.slotsUsed (dirIx d) = 0 ∧ t.curStep d = s.curStep d ∧ MemKept s t ∧
        RegsKept s t [0x014] [R.LINK_WIDTH_STAT] := by
  have hstep := windowStep_linkOnly (s := s) d n
  obtain ⟨h1, h2, h3, h4⟩ := decideWidth_after d hstep (hstep.onXo ho rfl rfl) hc
  simp only [widthCore, Prod.mk.injEq] at h1
  obtain ⟨-, -, -, -, -, -, -, -, -, -, -, k1, k2, k3, -⟩ := linkCore_fields h1.1
  have hcur : (windowStep s d n).curStep d = s.curStep d := by cases d <;> rfl
  refine gives_of_eq rfl ((clocked_eq hrel _).trans (congrArg State.afterLink he)) ⟨?_, ?_, ?_, (h2 d).trans hcur, h3,
    fun a hp ha => h4 a (by simpa using hp) (by simpa using ha)⟩
  · rw [k1, windowStep_autoStep]
    exact Sys2Proof.Laws.SMap.get_set_same _ _ _ _
  · rw [k2, windowStep_slotsAll]
    exact Sys2Proof.Laws.SMap.get_set_same _ _ _ _
  · rw [k3, windowStep_slotsUsed]
    exact Sys2Proof.Laws.SMap.get_set_same _ _ _ _

/-- The automatic steps that a write of WIDTH_CTL begins. -/
def autoBegun (s : State) (old new : Word) : State :=
  (s.autoBegin .rx F.LINK_WIDTH_CTL_RX_AUTO old new).autoBegin .tx F.LINK_WIDTH_CTL_TX_AUTO old new

theorem autoBegun_same {α : Type} {g : State → α} (hg : ∀ (t : State) x, g { t with link := { t.link with autoStep := x } } = g t)
    (s : State) (old new : Word) : g (autoBegun s old new) = g s := by
  have hone (t : State) (d : Dir) (f : Fld) : g (t.autoBegin d f old new) = g t := by
    unfold autoBegin
    split
    · exact hg t _
    · rfl
  exact (hone _ _ _).trans (hone s _ _)

theorem widthCtl_write {path : Path} (v : Word) (ho : Open s path R.LINK_WIDTH_CTL) : s.regCmd path R.LINK_WIDTH_CTL v =
    (((autoBegun (s.wr R.LINK_WIDTH_CTL ((s.rd R.LINK_WIDTH_CTL &&& ~~~33554431#32) ||| (v &&& 33554431#32)))
      (s.rd R.LINK_WIDTH_CTL) ((s.rd R.LINK_WIDTH_CTL &&& ~~~33554431#32) ||| (v &&& 33554431#32))).decideWidth
        .rx).decideWidth .tx).afterLink := by
  have hoff : offOf R.LINK_WIDTH_CTL = 0x4C := by decide
  rw [linkReg_write (m := 33554431#32) (c := 0) v ho (by decide) rfl rfl (by decide) rfl, hoff]
  rfl

theorem widthCtlWrite_gives (w : RegWrite) (ho : Open s w.path R.LINK_WIDTH_CTL) (hon : OnXo s) (hc : Calm s) :
    Gives (.widthCtlWrite w) s fun t =>
      t.fld R.LINK_WIDTH_CTL F.LINK_WIDTH_CTL_RX_TARGET = F.LINK_WIDTH_CTL_RX_TARGET.get w.value ∧
        t.fld R.LINK_WIDTH_CTL F.LINK_WIDTH_CTL_TX_TARGET = F.LINK_WIDTH_CTL_TX_TARGET.get w.value ∧
        t.on R.LINK_WIDTH_CTL F.LINK_WIDTH_CTL_HOST_REQ_EN = decide (F.LINK_WIDTH_CTL_HOST_REQ_EN.get w.value = 1) ∧
        t.curStep .rx = s.curStep .rx ∧ t.curStep .tx = s.curStep .tx ∧ MemKept s t ∧
        RegsKept s t [0x014] [R.LINK_WIDTH_CTL, R.LINK_WIDTH_STAT] := by
  have he := widthCtl_write w.value ho
  generalize hnew : (s.rd R.LINK_WIDTH_CTL &&& ~~~33554431#32) ||| (w.value &&& 33554431#32) = new at he
  have hget {f : Fld} (hf : f.mask &&& 33554431#32 = f.mask) : f.get new = f.get w.value := by
    rw [← hnew]
    exact Fld.get_merge _ _ hf
  have hw : LinkOnly s (s.wr R.LINK_WIDTH_CTL new) := ⟨fun _ hg => hg.wr s _ _ (.inl rfl)⟩
  have hrd (a : Nat) : (autoBegun (s.wr R.LINK_WIDTH_CTL new) (s.rd R.LINK_WIDTH_CTL) new).rd a
      = (s.wr R.LINK_WIDTH_CTL new).rd a := autoBegun_same (g := (·.rd a)) (fun _ _ => rfl) _ _ _
  have hbegun : LinkOnly s (autoBegun (s.wr R.LINK_WIDTH_CTL new) (s.rd R.LINK_WIDTH_CTL) new) :=
    ⟨fun g hg => (autoBegun_same (fun t _ => hg.link t _) _ _ _).trans (hw.same g hg)⟩
  have hfresh : (autoBegun (s.wr R.LINK_WIDTH_CTL new) (s.rd R.LINK_WIDTH_CTL) new).link.fresh = s.link.fresh :=
    autoBegun_same (g := fun s => s.link.fresh) (fun _ _ => rfl) _ _ _
  have hraised : (autoBegun (s.wr R.LINK_WIDTH_CTL new) (s.rd R.LINK_WIDTH_CTL) new).link.raised = s.link.raised :=
    autoBegun_same (g := fun s => s.link.raised) (fun _ _ => rfl) _ _ _
  generalize autoBegun (s.wr R.LINK_WIDTH_CTL new) (s.rd R.LINK_WIDTH_CTL) new = u at he hrd hbegun hfresh hraised
  obtain ⟨k1, k2, k3, k4⟩ := decideWidth_spec u .rx
  simp only [widthCore, Prod.mk.injEq] at k2
  obtain ⟨-, -, -, -, -, kf, -⟩ := linkCore_fields k2.1
  have hrx : LinkOnly s (u.decideWidth .rx) := ⟨fun g hg => (k1.same g hg).trans (hbegun.same g hg)⟩
  obtain ⟨-, m2, m3, m4⟩ := decideWidth_after .tx hrx (hrx.onXo hon (kf.trans hfresh) (k2.2.1.trans hraised)) hc
  have hcur (d : Dir) : u.curStep d = s.curStep d := by
    cases d <;> exact fld_eq_of_rd ((hrd _).trans (rd_wr_other _ _ _ _ (by decide))) _
  have hctl : (((u.decideWidth .rx).decideWidth .tx).afterLink).rd R.LINK_WIDTH_CTL = new :=
    (m4 _ (by decide) (by decide)).trans ((k4 _ (by decide)).trans ((hrd _).trans (rd_wr_same _ _ _)))
  refine gives_of_eq rfl he ⟨?_, ?_, ?_, (m2 .rx).trans ((k3 .rx).trans (hcur .rx)),
    (m2 .tx).trans ((k3 .tx).trans (hcur .tx)), m3, fun a hp ha => ?_⟩
  · rw [fld, hctl, hget (by decide)]
  · rw [fld, hctl, hget (by decide)]
  · rw [on, fld, hctl, hget (by decide)]
    rw [Fld.get_bit F.LINK_WIDTH_CTL_HOST_REQ_EN rfl]
    cases w.value.getLsbD F.LINK_WIDTH_CTL_HOST_REQ_EN.lsb <;> rfl
  · simp only [List.mem_cons, List.not_mem_nil, or_false, not_or] at ha hp
    exact (m4 a hp ha.2).trans ((k4 a ha.2).trans ((hrd a).trans (rd_wr_other _ _ _ _ ha.1)))

/-- Settles O14: replays, recoveries and trainings change LL_STAT in the fields named alone; a decided width begins a change, which
shows in WIDTH_STAT. -/
theorem replayAndWidth : Obligations.ReplayAndWidth := by
  refine ⟨fun _ x l => ackTimeout_gives x l, fun _ => replayHoldExpiry_exec, fun _ => stallTimeout_gives,
    fun _ w => retrain_gives w, fun _ w => recover_gives w, fun _ w => llReset_gives w, ?_, ?_,
    fun _ w => widthCtlWrite_gives w⟩
  · intro s d hrel ho hc ha hauto hhigh
    have hstep : s.autoWindow d = _ := autoWindow_high ha (by cases d <;> exact hauto) hhigh
    obtain ⟨t, ht, h1, h⟩ := autoWindow_gives hrel ho hc hstep
    exact ⟨t, ht, h1.trans (by cases d <;> rfl), h⟩
  · intro s d hrel ho hc ha hauto hhigh hlow
    have hstep : s.autoWindow d = _ := autoWindow_low ha (by cases d <;> exact hauto) hhigh hlow
    obtain ⟨t, ht, h1, -, -, h⟩ := autoWindow_gives hrel ho hc hstep
    refine ⟨t, ht, h1.trans ?_, h⟩
    cases d with
    | rx => simp only [targetFld]; omega
    | tx => simp only [targetFld]; omega

end Sys2Proof.Safety
end

section
/-! SUPPORT. Error injection, eye margin and lane tests (R38, R41, R44, R58). -/

namespace Sys2Proof.Machine
open Sys2Proof.Safety Sys2Proof.Laws State

/-! ### Registers of the lane groups -/

theorem txlInj_plain : ∀ (i : Fin 8) (l : Fin 10), PlainReg (R.TXG_TXL_INJ i l) 0 255#32 ∧
    firstOf (pageOf (R.TXG_TXL_INJ i l)) = 0x080 := by decide

theorem rxlMargin_plain : ∀ (i : Fin 8) (l : Fin 10), PlainReg (R.RXG_RXL_MARGIN i l) 16777214#32 1#32 ∧
    firstOf (pageOf (R.RXG_RXL_MARGIN i l)) = 0x088 := by decide

/-- The bits of GRP_CTL that a write changes: LOCAL_TIMING stands in group 0 alone. -/
def grpCtlMask (i : Fin 8) : Word := if i = 0 then 255#32 else 251#32

theorem txGrpCtl_plain : ∀ i : Fin 8, PlainReg (R.TXG_GRP_CTL i) (grpCtlMask i) 0 ∧
    firstOf (pageOf (R.TXG_GRP_CTL i)) = 0x080 := by decide

theorem txlInj_addr (i : Fin 8) (l : Fin 10) : pageOf (R.TXG_TXL_INJ i l) = 0x080 + i ∧ offOf (R.TXG_TXL_INJ i l) = 0x88 + 16 * l := by
  simp only [pageOf, offOf, R.TXG_TXL_INJ]
  omega

theorem rxlMargin_addr (i : Fin 8) (l : Fin 10) :
    pageOf (R.RXG_RXL_MARGIN i l) = 0x088 + i ∧ offOf (R.RXG_RXL_MARGIN i l) = 0x128 + 64 * l := by
  simp only [pageOf, offOf, R.RXG_RXL_MARGIN]
  omega

theorem txGrpCtl_addr (i : Fin 8) : pageOf (R.TXG_GRP_CTL i) = 0x080 + i ∧ offOf (R.TXG_GRP_CTL i) = 0x40 := by
  simp only [pageOf, offOf, R.TXG_GRP_CTL]
  omega

variable {s : State} {path : Path}

/-- No page but the mailbox's holds back a write (R422). -/
theorem noMailbox {a : Nat} (s : State) (h : pageOf a ≠ 1) : (pageOf a == 1 && (mbInput (offOf a)).any s.mbBusy) = false := by
  rw [beq_false_of_ne h]
  rfl

theorem afterWrite_lanes {a : Nat} (s : State) (h : firstOf (pageOf a) = 0x080 ∨ firstOf (pageOf a) = 0x088) :
    s.afterWrite (pageOf a) = s.afterLink := by
  unfold afterWrite
  rcases h with h | h <;> rw [h] <;> rfl

/-- Inversions wait on a transmit lane. -/
def injected (s : State) (i l n : Nat) : State :=
  { s with link := { s.link with inject := SMap.upd (fun _ => 0) (10 * i + l) (· + n) s.link.inject } }

theorem txlInj_write (v : Word) (i : Fin 8) (l : Fin 10) (ho : Open s path (R.TXG_TXL_INJ i l)) {n : Nat}
    (hn : n = (if F.TXG_TXL_INJ_INJ_ONE.get v = 1 then 1 else 0)
      + (if F.TXG_TXL_INJ_INJ_BURST.get v = 1 then F.TXG_TXL_INJ_BURST_LEN.get v + 1 else 0)) :
    s.regCmd path (R.TXG_TXL_INJ i l) v =
      (injected s i l n).afterLink := by
  obtain ⟨hp, hf⟩ := txlInj_plain i l
  obtain ⟨hpg, hoff⟩ := txlInj_addr i l
  have hsoft : s.softBits (R.TXG_TXL_INJ i l) = 0 := by
    simp [softBits, hf, hoff]
  have h1 : F.TXG_TXL_INJ_INJ_ONE.get (v &&& 255#32) = F.TXG_TXL_INJ_INJ_ONE.get v := Fld.get_and v (by decide)
  have h2 : F.TXG_TXL_INJ_INJ_BURST.get (v &&& 255#32) = F.TXG_TXL_INJ_INJ_BURST.get v := Fld.get_and v (by decide)
  have h3 : F.TXG_TXL_INJ_BURST_LEN.get (v &&& 255#32) = F.TXG_TXL_INJ_BURST_LEN.get v := Fld.get_and v (by decide)
  have hi : 0x080 + i.val - 0x080 = i.val := by omega
  have hl : (0x88 + 16 * l.val - 0x80) / 16 = l.val := by omega
  rw [regCmd_plain v ho hp hsoft (noMailbox s (by omega)), regEffect_txg hf (by omega), afterWrite_lanes _ (.inl hf), hpg, hoff, hi]
  unfold wrTxg
  rw [if_neg (by omega), if_neg (by omega), if_pos (by omega), hl, h1, h2, h3]
  subst hn
  rfl

theorem rxlMargin_start (v : Word) (i : Fin 8) (l : Fin 10) (ho : Open s path (R.RXG_RXL_MARGIN i l))
    (hv : F.RXG_RXL_MARGIN_START.get v = 1) : ∃ w, s.regCmd path (R.RXG_RXL_MARGIN i l) v =
      ((s.wr (R.RXG_RXL_MARGIN i l) w).marginStart i l).afterLink := by
  obtain ⟨hp, hf⟩ := rxlMargin_plain i l
  obtain ⟨hpg, hoff⟩ := rxlMargin_addr i l
  have hsoft : s.softBits (R.RXG_RXL_MARGIN i l) = 0 := by
    simp [softBits, hf, hoff]
  have h1 : F.RXG_RXL_MARGIN_START.get (v &&& 1#32) = 1 := (Fld.get_and v (by decide)).trans hv
  have hi : 0x088 + i.val - 0x088 = i.val := by omega
  have hl : (0x128 + 64 * l.val - 0x100) / 64 = l.val := by omega
  have ha : 0x1000 * (0x88 + i.val) + (0x128 + 64 * l.val) = R.RXG_RXL_MARGIN i l := by
    simp only [R.RXG_RXL_MARGIN]
    omega
  rw [regCmd_plain v ho hp hsoft (noMailbox s (by omega)), regEffect_rxg hf (by omega), afterWrite_lanes _ (.inr hf), hpg, hoff, hi]
  unfold wrRxg
  dsimp only
  rw [if_neg (by omega), if_neg (by omega), if_neg (by omega), if_neg (by omega), if_pos (by omega), hl, h1, ha]
  exact ⟨_, rfl⟩

/-- The word that a write of GRP_CTL stores. -/
def grpCtlNew (s : State) (i : Fin 8) (v : Word) : Word :=
  (s.rd (R.TXG_GRP_CTL i) &&& ~~~grpCtlMask i) ||| (v &&& grpCtlMask i)

theorem grpCtlNew_get (s : State) (i : Fin 8) (v : Word) :
    F.TXG_GRP_CTL_TEST_MODE.get (grpCtlNew s i v) = F.TXG_GRP_CTL_TEST_MODE.get v ∧
      F.TXG_GRP_CTL_PARK_ALLOW.get (grpCtlNew s i v) = F.TXG_GRP_CTL_PARK_ALLOW.get v := by
  have h : ∀ i : Fin 8, F.TXG_GRP_CTL_TEST_MODE.mask &&& grpCtlMask i = F.TXG_GRP_CTL_TEST_MODE.mask ∧
      F.TXG_GRP_CTL_PARK_ALLOW.mask &&& grpCtlMask i = F.TXG_GRP_CTL_PARK_ALLOW.mask := by decide
  exact ⟨Fld.get_merge _ _ (h i).1, Fld.get_merge _ _ (h i).2⟩

theorem txGrpCtl_write (v : Word) (i : Fin 8) (ho : Open s path (R.TXG_GRP_CTL i)) : s.regCmd path (R.TXG_GRP_CTL i) v =
    (s.wrTxg i 0x40 (s.rd (R.TXG_GRP_CTL i)) (grpCtlNew s i v) (v &&& 0)).afterLink := by
  obtain ⟨hp, hf⟩ := txGrpCtl_plain i
  obtain ⟨hpg, hoff⟩ := txGrpCtl_addr i
  have hsoft : s.softBits (R.TXG_GRP_CTL i) = 0 := by simp [softBits, hf, hoff]
  have hcur : s.cur (R.TXG_GRP_CTL i) = s.rd (R.TXG_GRP_CTL i) := by simp [cur, viewOf, viewTxg, hf, hoff]
  have hi : 0x080 + i.val - 0x080 = i.val := by omega
  rw [regCmd_plain v ho hp hsoft (noMailbox s (by omega)), regEffect_txg hf (by omega), afterWrite_lanes _ (.inl hf), hcur, hpg,
    hoff, hi]
  rfl

/-- TEST_MODE set on a group that is off or in DETECT, PARK_ALLOW unchanged: both directions enter TEST. -/
theorem wrTxg_test {i : Nat} {old new c : Word} (hi : i < 8) (hs : s.grpState .tx i ≤ 1) (hl : s.linkState ≠ 7)
    (ht : F.TXG_GRP_CTL_TEST_MODE.get new = 1) (hp : F.TXG_GRP_CTL_PARK_ALLOW.get new = F.TXG_GRP_CTL_PARK_ALLOW.get old) :
    s.wrTxg i 0x40 old new c = ((s.wr (R.TXG_GRP_CTL i) new).setGrpState .tx i 9).setGrpState .rx i 9 := by
  have hstate : (s.wr (R.TXG_GRP_CTL i) new).grpState .tx i = s.grpState .tx i :=
    fld_eq_of_rd (rd_wr_other _ _ _ _ (by simp only [R.TXG_GRP_CTL, grpStat, R.TXG_GRP_STAT]; omega)) _
  have hlink : (((s.wr (R.TXG_GRP_CTL i) new).setGrpState .tx i 9).setGrpState .rx i 9).linkActive = false := by
    have hwr : (s.wr (R.TXG_GRP_CTL i) new).linkState = s.linkState :=
      fld_eq_of_rd (rd_wr_other _ _ _ _ (by simp only [R.TXG_GRP_CTL, R.LINK_LL_STAT]; omega)) _
    rw [linkActive, laneBlind_linkState.setGrpState _ .rx hi, laneBlind_linkState.setGrpState _ .tx hi, hwr]
    exact decide_eq_false hl
  unfold wrTxg
  rw [if_pos rfl]
  dsimp only
  rw [if_pos ht, hstate, if_pos hs, hlink, if_neg fun h => h hp, if_neg fun h => Bool.false_ne_true h.2.2]

/-- LOCAL_TIMING set in ACTIVE on a group not in TEST, PARK_ALLOW unchanged: the transmitter leaves loop timing. -/
theorem wrTxg_local {old new c : Word} (hs : s.grpState .tx 0 = 7) (ha : s.linkActive = true)
    (ht : F.TXG_GRP_CTL_TEST_MODE.get new = 0) (ho : F.TXG_GRP_CTL_LOCAL_TIMING.get old = 0)
    (hn : F.TXG_GRP_CTL_LOCAL_TIMING.get new = 1) (hp : F.TXG_GRP_CTL_PARK_ALLOW.get new = F.TXG_GRP_CTL_PARK_ALLOW.get old) :
    s.wrTxg 0 0x40 old new c = (s.wr (R.TXG_GRP_CTL 0) new).setLoopTimed false := by
  have hne : R.TXG_GRP_STAT 0 ≠ R.TXG_GRP_CTL 0 := by decide
  have hstate : (s.wr (R.TXG_GRP_CTL 0) new).grpState .tx 0 = 7 :=
    (fld_eq_of_rd (rd_wr_other _ _ _ _ hne) _).trans hs
  have hlink : (s.wr (R.TXG_GRP_CTL 0) new).linkActive = true :=
    (congrArg (fun n => decide (n = 7)) (fld_eq_of_rd (rd_wr_other _ _ _ _ (by decide)) F.LINK_LL_STAT_LINK_STATE)).trans ha
  unfold wrTxg
  rw [if_pos rfl]
  dsimp only
  have hchange : 0 = 0 ∧ F.TXG_GRP_CTL_LOCAL_TIMING.get new ≠ F.TXG_GRP_CTL_LOCAL_TIMING.get old ∧
      (s.wr (R.TXG_GRP_CTL 0) new).linkActive = true := ⟨rfl, by rw [hn, ho]; decide, hlink⟩
  have h9 : ¬ (s.wr (R.TXG_GRP_CTL 0) new).grpState .tx 0 = 9 := by
    rw [hstate]
    decide
  have h1 : ¬ F.TXG_GRP_CTL_TEST_MODE.get new = 1 := by
    rw [ht]
    decide
  rw [if_neg h1, if_neg h9, if_pos hchange, if_neg fun h => h hp, hn]
  rfl

end Sys2Proof.Machine

namespace Sys2Proof.Safety
open Sys2Proof.Machine Sys2Proof.Machine.State

variable {s : State}

/-- Inversions queued for a lane by a command. -/
theorem inject_gives {path : Path} {c : Instr} {v : Word} (n : Nat) (i : Fin 8) (l : Fin 10) (ho : Open s path (R.TXG_TXL_INJ i l))
    (hon : OnXo s) (hc : Calm s) (hx : exec c s = .next (s.regCmd path (R.TXG_TXL_INJ i l) v))
    (hn : n = (if F.TXG_TXL_INJ_INJ_ONE.get v = 1 then 1 else 0)
      + (if F.TXG_TXL_INJ_INJ_BURST.get v = 1 then F.TXG_TXL_INJ_BURST_LEN.get v + 1 else 0)) : Gives c s fun t =>
      SMap.get (fun _ => 0) t.link.inject (10 * i.val + l.val) = SMap.get (fun _ => 0) s.link.inject (10 * i.val + l.val) + n ∧
        MemKept s t ∧ RegsKept s t [0x014] [] := by
  have he := txlInj_write v i l ho hn
  have hfree : LinkOnly s (injected s i l n) := ⟨fun _ hg => hg.link s _⟩
  have hcalm := hfree.calm hc
  have hget : SMap.get (fun _ => 0) (injected s i l n).link.inject (10 * i.val + l.val)
      = SMap.get (fun _ => 0) s.link.inject (10 * i.val + l.val) + n := Sys2Proof.Laws.SMap.get_set_same _ _ _ _
  have hkept : RegsKept s (injected s i l n) [0x014] [] := fun _ _ _ => rfl
  have honly := hfree.onXo hon rfl rfl
  generalize injected s i l n = u at *
  exact gives_of_eq hx (he.trans (afterLink_onXo honly)) ⟨by rw [settle_link hcalm, hget],
    hfree.memKept.trans (.settle hcalm), hkept.trans (.settle hcalm (by simp))⟩

theorem marginStart_gives (i : Fin 8) (l : Fin 10) (w : RegWrite) (ho : Open s w.path (R.RXG_RXL_MARGIN i l)) (hon : OnXo s)
    (hc : Calm s) : Gives (.marginStart i l w) s fun t =>
      10 * i.val + l.val ∈ t.link.margins ∧ t.on (R.RXG_RXL_MARGIN i l) F.RXG_RXL_MARGIN_DONE = false ∧ MemKept s t ∧
        RegsKept s t [0x014] [R.RXG_RXL_MARGIN i l] := by
  obtain ⟨v, hv⟩ := rxlMargin_start (F.RXG_RXL_MARGIN_START.set 1 w.value) i l ho (Fld.get_set _ _ _ (by decide))
  have hpage : linkPage (pageOf (R.RXG_RXL_MARGIN i l)) := by
    obtain ⟨hp, -⟩ := rxlMargin_addr i l
    omega
  have hfree : LinkOnly s ((s.wr (R.RXG_RXL_MARGIN i l) v).marginStart i l) :=
    ⟨fun _ hg => (hg.flag _ hpage _ _).trans ((hg.link _ _).trans (hg.wr s _ _ hpage))⟩
  have hcalm := hfree.calm hc
  have hkept : RegsKept s ((s.wr (R.RXG_RXL_MARGIN i l) v).marginStart i l) [0x014] [R.RXG_RXL_MARGIN i l] :=
    ((RegsKept.refl s).wr v (.inl List.mem_cons_self)).flag _ _ (.inl List.mem_cons_self)
  have hmem : 10 * i.val + l.val ∈ ((s.wr (R.RXG_RXL_MARGIN i l) v).marginStart i l).link.margins := List.mem_cons_self
  have hdone : ((s.wr (R.RXG_RXL_MARGIN i l) v).marginStart i l).on (R.RXG_RXL_MARGIN i l) F.RXG_RXL_MARGIN_DONE = false :=
    on_flag_same _ _ _ _ (by decide) rfl
  have honly := hfree.onXo hon rfl rfl
  generalize (s.wr (R.RXG_RXL_MARGIN i l) v).marginStart i l = u at *
  refine gives_of_eq rfl (hv.trans (afterLink_onXo honly)) ⟨by rwa [settle_link hcalm],
    (on_eq_of_rd (settle_rd hcalm _ ?_) _).trans hdone, hfree.memKept.trans (.settle hcalm), hkept.trans (.settle hcalm (by simp))⟩
  obtain ⟨hp, -⟩ := rxlMargin_addr i l
  omega

/-- A margin point that runs ends with its errors. -/
def marginEnded (s : State) (i l : Nat) (errors : Word) : State :=
  { (s.wr (R.RXG_RXL_MARGIN_CNT i l) errors).flag (R.RXG_RXL_MARGIN i l) F.RXG_RXL_MARGIN_DONE true with
    link := { s.link with margins := s.link.margins.filter (· ≠ 10 * i + l) } }

theorem marginDone_gives (i : Fin 8) (l : Fin 10) (n : Word) (hm : 10 * i.val + l.val ∈ s.link.margins) :
    Gives (.marginDone i l n) s fun t =>
      t.rd (R.RXG_RXL_MARGIN_CNT i l) = n ∧ t.on (R.RXG_RXL_MARGIN i l) F.RXG_RXL_MARGIN_DONE = true ∧
        10 * i.val + l.val ∉ t.link.margins ∧ MemKept s t ∧
        RegsKept s t [] [R.RXG_RXL_MARGIN i l, R.RXG_RXL_MARGIN_CNT i l] := by
  have he : s.marginDone i l n = marginEnded s i l n := if_pos (by simpa using hm)
  have hne : R.RXG_RXL_MARGIN_CNT i l ≠ R.RXG_RXL_MARGIN i l := by
    simp only [R.RXG_RXL_MARGIN_CNT, R.RXG_RXL_MARGIN]
    omega
  have hrd (a : Nat) : (marginEnded s i l n).rd a
      = ((s.wr (R.RXG_RXL_MARGIN_CNT i l) n).flag (R.RXG_RXL_MARGIN i l) F.RXG_RXL_MARGIN_DONE true).rd a := rfl
  refine gives_of_eq rfl he ⟨?_, ?_, ?_, ⟨rfl, rfl, rfl, rfl, rfl, rfl⟩, ?_⟩
  · rw [hrd, rd_flag, if_neg hne, rd_wr_same]
  · exact (on_eq_of_rd (hrd _) _).trans (on_flag_same _ _ _ _ (by decide) rfl)
  · show 10 * i.val + l.val ∉ s.link.margins.filter (· ≠ 10 * i.val + l.val)
    simp
  · exact (((RegsKept.refl s).wr n (.inl (List.mem_cons_of_mem _ List.mem_cons_self))).flag _ _
      (.inl List.mem_cons_self)).of_regs rfl

/-! ### The eye monitor -/

theorem eyeUpdate_frozen (i : Fin 8) (l : Fin 10) (eye : BitVec 30) (a : Adapt) (ha : s.linkActive = true)
    (hf : i.val ∈ s.link.frozen) : exec (.eyeUpdate i l eye a) s = .next (s.wr (R.RXG_RXL_EYE i l) (eye.setWidth 32)) := by
  have hf' : (s.wr (R.RXG_RXL_EYE i l) (eye.setWidth 32)).link.frozen.contains i.val = true := by simpa using hf
  refine congrArg Host.Outcome.next ?_
  unfold eyeUpdate
  rw [ha]
  exact if_pos hf'

theorem eyeUpdate_adapts (i : Fin 8) (l : Fin 10) (eye : BitVec 30) (a : Adapt) (ha : s.linkActive = true)
    (hf : i.val ∉ s.link.frozen) : Gives (.eyeUpdate i l eye a) s fun t =>
      t.rd (R.RXG_RXL_EYE i l) = eye.setWidth 32 ∧ MemKept s t ∧
      RegsKept s t [] [R.RXG_RXL_EYE i l, R.RXG_RXL_CTLE i l, R.RXG_RXL_DFE_A i l, R.RXG_RXL_DFE_B i l,
        R.RXG_RXL_DFE_C i l] := by
  have hf' : ¬ (s.wr (R.RXG_RXL_EYE i l) (eye.setWidth 32)).link.frozen.contains i.val = true := by simpa using hf
  have he : s.eyeUpdate i l eye a = (s.wr (R.RXG_RXL_EYE i l) (eye.setWidth 32)).takeAdapt i l a
      ((s.wr (R.RXG_RXL_EYE i l) (eye.setWidth 32)).on (R.RXG_GRP_CTL i) F.RXG_GRP_CTL_CTLE_TRACK) true := by
    unfold eyeUpdate
    rw [ha]
    exact if_neg hf'
  generalize (s.wr (R.RXG_RXL_EYE i l) (eye.setWidth 32)).on (R.RXG_GRP_CTL i) F.RXG_GRP_CTL_CTLE_TRACK = c at he
  have hrd {b : Nat} (hb : b ∉ adaptRegs i l) (t : State) : (t.takeAdapt i l a c true).rd b = t.rd b :=
    AdaptBlind.takeAdapt (g := (·.rd b)) ⟨fun t k v hk => rd_wr_other _ _ _ _ (by rintro rfl; exact hb hk), fun _ _ => rfl⟩ t a c
      true
  have hmem (t : State) : MemKept t (t.takeAdapt i l a c true) := by
    have h := AdaptBlind.takeAdapt (i := i) (l := l) (g := fun s => (s.dram, s.cache, s.wdb, s.place, s.otp, s.mgmt.flash))
      ⟨fun _ _ _ _ => rfl, fun _ _ => rfl⟩ t a c true
    simp only [Prod.mk.injEq] at h
    obtain ⟨h1, h2, h3, h4, h5, h6⟩ := h
    exact ⟨h1, h2, h3, h4, h5, h6⟩
  refine gives_of_eq rfl he ⟨?_, (wr_memKept ..).trans (hmem _), fun b _ hb => ?_⟩
  · refine (hrd ?_ _).trans (rd_wr_same _ _ _)
    simp only [adaptRegs, List.mem_cons, List.not_mem_nil, or_false, R.RXG_RXL_EYE, R.RXG_RXL_CTLE, R.RXG_RXL_DFE_A,
      R.RXG_RXL_DFE_B, R.RXG_RXL_DFE_C]
    omega
  · obtain ⟨h1, h2⟩ := not_or.mp (mt List.mem_cons.mpr hb)
    exact (hrd h2 _).trans (rd_wr_other _ _ _ _ h1)

/-! ### Group control -/

theorem testModeWrite_gives (i : Fin 8) (w : RegWrite) (ho : Open s w.path (R.TXG_GRP_CTL i)) (hon : OnXo s) (hc : Calm s)
    (hs : s.grpState .tx i ≤ 1) (ht : F.TXG_GRP_CTL_TEST_MODE.get w.value = 1)
    (hp : F.TXG_GRP_CTL_PARK_ALLOW.get w.value = s.fld (R.TXG_GRP_CTL i) F.TXG_GRP_CTL_PARK_ALLOW) (hl : s.linkState ≠ 7) :
    Gives (.testModeWrite i w) s fun t =>
      t.grpState .tx i = 9 ∧ t.grpState .rx i = 9 ∧ t.link = s.link ∧ MemKept s t ∧
        RegsKept s t [0x014] [R.TXG_GRP_CTL i, R.TXG_GRP_STAT i, R.RXG_GRP_STAT i] := by
  obtain ⟨g1, g2⟩ := grpCtlNew_get s i w.value
  have he := (txGrpCtl_write w.value i ho).trans
    (congrArg State.afterLink (wrTxg_test i.isLt hs hl (g1.trans ht) (g2.trans hp)))
  generalize grpCtlNew s i w.value = new at he
  have hctl : linkPage (pageOf (R.TXG_GRP_CTL i)) := by
    obtain ⟨h, -⟩ := txGrpCtl_addr i
    omega
  have hfree : LinkOnly s (((s.wr (R.TXG_GRP_CTL i) new).setGrpState .tx i 9).setGrpState .rx i 9) :=
    ⟨fun _ hg => (hg.blind.setGrpState _ .rx i.isLt 9).trans ((hg.blind.setGrpState _ .tx i.isLt 9).trans (hg.wr s _ _ hctl))⟩
  have hcalm := hfree.calm hc
  have hne : R.TXG_GRP_STAT i ≠ R.RXG_GRP_STAT i := by
    simp only [R.TXG_GRP_STAT, R.RXG_GRP_STAT]
    omega
  have hrx : (((s.wr (R.TXG_GRP_CTL i) new).setGrpState .tx i 9).setGrpState .rx i 9).fld (R.RXG_GRP_STAT i)
      F.RXG_GRP_STAT_STATE = 9 := fld_put_same _ _ _ _ (by decide)
  have htx : (((s.wr (R.TXG_GRP_CTL i) new).setGrpState .tx i 9).setGrpState .rx i 9).fld (R.TXG_GRP_STAT i)
      F.RXG_GRP_STAT_STATE = 9 := (fld_put_other _ _ _ _ _ _ (.inl hne)).trans (fld_put_same _ _ _ _ (by decide))
  have hkept : RegsKept s (((s.wr (R.TXG_GRP_CTL i) new).setGrpState .tx i 9).setGrpState .rx i 9) [0x014]
      [R.TXG_GRP_CTL i, R.TXG_GRP_STAT i, R.RXG_GRP_STAT i] :=
    (((RegsKept.refl s).wr new (.inl (by simp))).put _ _ (.inl (by simp [grpStat]))).put _ _ (.inl (by simp [grpStat]))
  have honly := hfree.onXo hon rfl rfl
  have hlink : (((s.wr (R.TXG_GRP_CTL i) new).setGrpState .tx i 9).setGrpState .rx i 9).link = s.link := rfl
  generalize ((s.wr (R.TXG_GRP_CTL i) new).setGrpState .tx i 9).setGrpState .rx i 9 = u at *
  refine gives_of_eq rfl (he.trans (afterLink_onXo honly)) ⟨(fld_eq_of_rd (settle_rd hcalm _ ?_) _).trans htx,
    (fld_eq_of_rd (settle_rd hcalm _ ?_) _).trans hrx, (settle_link hcalm).trans hlink, hfree.memKept.trans (.settle hcalm),
    hkept.trans (.settle hcalm (by simp))⟩
  · simp only [pageOf, grpStat, R.TXG_GRP_STAT]
    omega
  · simp only [pageOf, grpStat, R.RXG_GRP_STAT]
    omega

theorem localTimingWrite_gives (w : RegWrite) (ho : Open s w.path (R.TXG_GRP_CTL 0)) (hon : OnXo s) (hc : Calm s)
    (ha : s.linkActive = true) (hold : s.on (R.TXG_GRP_CTL 0) F.TXG_GRP_CTL_LOCAL_TIMING = false)
    (hnew : F.TXG_GRP_CTL_LOCAL_TIMING.get w.value = 1) (ht : F.TXG_GRP_CTL_TEST_MODE.get w.value = 0)
    (hs : s.grpState .tx 0 = 7) (hp : F.TXG_GRP_CTL_PARK_ALLOW.get w.value = s.fld (R.TXG_GRP_CTL 0) F.TXG_GRP_CTL_PARK_ALLOW) :
    Gives (.localTimingWrite w) s fun t =>
      t.loopTimed = false ∧ t.on (R.TXG_GRP_CTL 0) F.TXG_GRP_CTL_LOCAL_TIMING = true ∧ t.link = s.link ∧ MemKept s t := by
  obtain ⟨g1, g2⟩ := grpCtlNew_get s 0 w.value
  have g3 : F.TXG_GRP_CTL_LOCAL_TIMING.get (grpCtlNew s 0 w.value) = 1 := (Fld.get_merge _ _ (by decide)).trans hnew
  have he := (txGrpCtl_write w.value 0 ho).trans (congrArg State.afterLink
    (wrTxg_local hs ha (g1.trans ht) (on_eq_false.mp hold) g3 (g2.trans hp)))
  generalize grpCtlNew s 0 w.value = new at he g3
  have hfree : LinkOnly s ((s.wr (R.TXG_GRP_CTL 0) new).setLoopTimed false) :=
    ⟨fun _ hg => (hg.setLoopTimed _ false).trans (hg.wr s _ _ (by decide))⟩
  have hcalm := hfree.calm hc
  have hlink : ((s.wr (R.TXG_GRP_CTL 0) new).setLoopTimed false).link = s.link := setLoopTimed_link _ _
  have hloop := setLoopTimed_loopTimed (s.wr (R.TXG_GRP_CTL 0) new) false
  have hctl : ((s.wr (R.TXG_GRP_CTL 0) new).setLoopTimed false).on (R.TXG_GRP_CTL 0) F.TXG_GRP_CTL_LOCAL_TIMING = true := by
    have hrd : ((s.wr (R.TXG_GRP_CTL 0) new).setLoopTimed false).rd (R.TXG_GRP_CTL 0) = new :=
      ((laneBlind_grpCtl 0).setLoopTimed _ (fun t i b => rd_wr_other _ _ _ _ (by
        simp only [R.TXG_GRP_CTL, R.TXG_GRP_STAT]
        omega)) false).trans (rd_wr_same _ _ _)
    rw [on_eq_true, fld, hrd, g3]
    decide
  have honly := hfree.onXo hon (by rw [hlink]) (by rw [hlink])
  generalize (s.wr (R.TXG_GRP_CTL 0) new).setLoopTimed false = u at *
  exact gives_of_eq rfl (he.trans (afterLink_onXo honly)) ⟨(on_eq_of_rd (settle_rd hcalm _ (by decide)) _).trans hloop,
    (on_eq_of_rd (settle_rd hcalm _ (by decide)) _).trans hctl, (settle_link hcalm).trans hlink, hfree.memKept.trans (.settle hcalm)⟩

/-- The word of INJ_BURST names its length alone. -/
theorem burstWord_get (n : BitVec 6) : F.TXG_TXL_INJ_INJ_ONE.get (F.TXG_TXL_INJ_BURST_LEN.set n.toNat 2) = 0 ∧
    F.TXG_TXL_INJ_INJ_BURST.get (F.TXG_TXL_INJ_BURST_LEN.set n.toNat 2) = 1 ∧
    F.TXG_TXL_INJ_BURST_LEN.get (F.TXG_TXL_INJ_BURST_LEN.set n.toNat 2) = n.toNat :=
  ⟨(Fld.get_set_other _ _ _ _ (by decide)).trans (by decide), (Fld.get_set_other _ _ _ _ (by decide)).trans (by decide),
    (Fld.get_set _ _ _ (by decide)).trans (Nat.mod_eq_of_lt n.isLt)⟩

/-- Settles O11: each tool writes its own registers and the lanes' own state, and nothing of the memory. -/
theorem laneTools : Obligations.LaneTools := by
  refine ⟨fun _ _ i l ho hon hc => inject_gives 1 i l ho hon hc rfl (by decide), fun _ _ i l n ho hon hc => ?_,
    fun _ i l w => marginStart_gives i l w, fun _ i l n => marginDone_gives i l n, fun _ i l eye a => eyeUpdate_frozen i l eye a,
    fun _ i l eye a => eyeUpdate_adapts i l eye a, fun _ i w => testModeWrite_gives i w, fun _ w => localTimingWrite_gives w⟩
  obtain ⟨h1, h2, h3⟩ := burstWord_get n
  exact inject_gives (n.toNat + 1) i l ho hon hc rfl (by rw [h1, h2, h3]; simp)

end Sys2Proof.Safety
end

section
/-! SUPPORT. What arrives on the lanes outside frames (R29, R35, R42, R44, R47 to R50). -/

namespace Sys2Proof.Machine
open Sys2Proof.Safety Sys2Proof.Laws State

variable {s : State}

/-! ### Training markers -/

theorem eqAckSeen_eq (i arg : Nat) (h : s.linkState = 4) :
    s.eqAckSeen i arg = s.updLink fun l => { l with eqAck := SMap.set (fun _ => 0) i arg l.eqAck } := if_pos h

theorem trainSeen_eq (i arg : Nat) (ht : s.inTraining = true) (h : s.linkState ≠ 4) : s.eqCalibrated (s.trainSeen i arg)
    = s.updLink fun l => { l with hostTrain := SMap.set (fun _ => 0) i arg l.hostTrain } := by
  have hleaves : (s.updLink fun l => { l with hostTrain := SMap.set (fun _ => 0) i arg l.hostTrain }).eqLeaves
      = s.updLink fun l => { l with hostTrain := SMap.set (fun _ => 0) i arg l.hostTrain } := if_neg fun hl => h hl.1
  have hcal : s.eqCalibrated (s.trainSeen i arg) = s.trainSeen i arg := if_neg fun hl => h hl.1
  rw [hcal, trainSeen, if_pos ht, hleaves]

/-! ### Exit bursts -/

/-- An EXIT marker of a group that may join is noted. -/
def exitNoted (s : State) (i n block : Nat) : State :=
  s.updLink fun l => { l with exits := SMap.set (fun _ => 0) i (4 * n + block) l.exits }

/-- The third marker in order: the group's lanes have lock. -/
def exitLocks (s : State) (i : Nat) : State :=
  ((s.dataLanes .rx i).foldl (fun (t : State) l => t.laneLocked i l) s).flag (R.RXG_GRP_STAT i) F.RXG_GRP_STAT_MARKER_LOCK true

/-- The receivers of a group go on. -/
def thawed (s : State) (i : Nat) : State := s.updLink fun l => { l with frozen := l.frozen.filter (· ≠ i) }

/-- EXIT markers in order, after this one. -/
def exitCount (s : State) (i block : Nat) : Nat :=
  if 0 < s.exitRun i ∧ block = SMap.get (fun _ => 0) s.link.exits i % 4 + 1 then s.exitRun i + 1 else 1

theorem exitSeen_eq (i block : Nat) (hp : s.parked .rx i = true) (hs : s.stale .rx i = false) (ho : s.groupOff .rx i = false) :
    s.exitSeen i block = if exitCount s i block < 3 then exitNoted s i (exitCount s i block) block
      else thawed (exitLocks (exitNoted s i (exitCount s i block) block) i) i := by
  unfold exitSeen
  rw [hp, hs, ho]
  rfl

theorem exitNoted_get (i n block : Nat) : SMap.get (fun _ => 0) (exitNoted s i n block).link.exits i = 4 * n + block :=
  SMap.get_set_same _ _ _ _

theorem thawed_frozen (s : State) (i : Nat) : i ∉ (thawed s i).link.frozen := by simp [thawed, updLink]

theorem thawed_memKept (s : State) (i : Nat) : MemKept s (thawed s i) := ⟨rfl, rfl, rfl, rfl, rfl, rfl⟩

theorem thawed_rd (s : State) (i a : Nat) : (thawed s i).rd a = s.rd a := rfl

theorem exitLocks_on (s : State) (i : Nat) : (exitLocks s i).on (R.RXG_GRP_STAT i) F.RXG_GRP_STAT_MARKER_LOCK = true :=
  on_flag_same _ _ _ _ (by decide) rfl

theorem exitLocks_memKept (s : State) (i : Nat) : MemKept s (exitLocks s i) :=
  (MemKept.foldl _ _ fun t _ => (flag_memKept t _ _ _).trans (flag_memKept _ _ _ _)).trans (flag_memKept _ _ _ _)

/-! ### Groups that join -/

/-- A group is ready to carry frames. -/
def joined (s : State) (d : Dir) (i : Nat) : State :=
  s.updLink fun l => { l with ready := (8 * dirIx d + i) :: l.ready.filter (· ≠ 8 * dirIx d + i) }

/-- A receive group's deskew and its descramblers. -/
def deskewed (s : State) (i : Nat) (skew : BitVec 8) (line : List (Fin 10 × BitVec 58)) : State :=
  line.foldl (fun u x => u.takeLine i x.1.val x.2) (s.put (R.RXG_GRP_STAT i) F.RXG_GRP_STAT_SKEW_UI skew.toNat)

/-- A group that joins, by its direction. -/
def joins (s : State) (d : Dir) (i : Nat) (skew : BitVec 8) (line : List (Fin 10 × BitVec 58)) : State :=
  match d with
  | .tx => joined s .tx i
  | .rx => deskewed (joined s .rx i) i skew line

theorem groupReady_eq (d : Dir) (i : Nat) (skew : BitVec 8) (line : List (Fin 10 × BitVec 58)) (hp : s.parked d i = true)
    (hs : s.stale d i = false) (ho : s.groupOff d i = false) (hj : s.joinsByRecover d i = false)
    (he : d = .rx → 3 ≤ s.exitRun i) : s.groupReady d i skew line = joins s d i skew line := by
  have hrun : ¬ (d = .rx ∧ s.exitRun i < 3) := fun h => absurd (he h.1) (Nat.not_le.mpr h.2)
  unfold groupReady
  rw [hj, hp, hs, ho, if_neg Bool.false_ne_true, if_neg (by decide)]
  cases d with
  | rx => exact if_neg hrun
  | tx => exact if_neg hrun

theorem deskewed_same {α : Type} {g : State → α} (hl : ∀ (t : State) x, g { t with link := { t.link with descr := x } } = g t)
    (s : State) (i : Nat) (skew : BitVec 8) (line : List (Fin 10 × BitVec 58)) :
    g (deskewed s i skew line) = g (s.put (R.RXG_GRP_STAT i) F.RXG_GRP_STAT_SKEW_UI skew.toNat) :=
  foldl_blind (fun t _ => hl t _) line _

/-! ### Keepalive and padding -/

/-- A parked group whose keepalive bursts are missing. -/
def keepaliveGone (s : State) (i : Nat) : State :=
  (s.flag (R.RXG_GRP_STAT i) F.RXG_GRP_STAT_STALE true).setUsable .rx i false

theorem keepaliveMissed_eq (i : Nat) (hp : s.parked .rx i = true) (ho : s.groupOff .rx i = false) :
    s.keepaliveMissed i = (keepaliveGone s i).enterRecover := by
  unfold keepaliveMissed
  rw [hp, ho]
  exact if_pos rfl

theorem keepaliveGone_linkOnly (s : State) (i : Fin 8) : LinkOnly s (keepaliveGone s i) := by
  have hpage : linkPage (pageOf (R.RXG_GRP_STAT i)) := rxGrpStat_page i
  exact ⟨fun _ hg => (hg.put _ (.inl rfl) _ _).trans (hg.flag s hpage _ _)⟩

theorem keepaliveGone_spec (s : State) (i : Fin 8) : (keepaliveGone s i).stale .rx i = true ∧
    (keepaliveGone s i).usable .rx i = false ∧ (keepaliveGone s i).linkState = s.linkState ∧
    RegsKept s (keepaliveGone s i) [0x014] [R.RXG_GRP_STAT i, R.LINK_GROUP_USABLE] := by
  have hne : R.RXG_GRP_STAT i ≠ R.LINK_GROUP_USABLE := by
    simp only [R.RXG_GRP_STAT, R.LINK_GROUP_USABLE]
    omega
  have hll : R.LINK_LL_STAT ≠ R.RXG_GRP_STAT i := by
    simp only [R.RXG_GRP_STAT, R.LINK_LL_STAT]
    omega
  refine ⟨(on_put_other _ _ _ _ _ _ (.inl hne)).trans (on_flag_same _ _ _ _ (by decide) rfl),
    bit_setBit_same _ _ (by decide) i.isLt, ?_,
    ((RegsKept.refl s).flag _ _ (.inl List.mem_cons_self)).setBit _ _ _ (.inl (by simp))⟩
  exact (fld_eq_of_rd (setUsable_rd _ _ _ _ (by decide)) _).trans (fld_eq_of_rd (rd_wr_other _ _ _ _ hll) _)

/-- A stale group stays so through RECOVER, and usable groups stay as they are. -/
theorem laneBlind_stale (i : Fin 8) : LaneBlind (·.stale .rx i) where
  put t a f n h := by
    refine on_put_other _ _ _ _ _ _ ?_
    by_cases e : R.RXG_GRP_STAT i = a
    · refine .inr ?_
      generalize hb : R.RXG_GRP_STAT i = b at e
      simp only [R.RXG_GRP_STAT] at hb
      subst e
      cases h with
      | sparing f hi => simp only [R.RXG_SPARE_STAT] at hb; omega
      | rx f hi hf => exact hf.symm
      | lane f hi hl => simp only [R.RXG_RXL_STAT] at hb; omega
      | tx f hi hf => simp only [R.TXG_GRP_STAT] at hb; omega
      | busy f hf => simp only [R.LINK_WIDTH_STAT] at hb; omega
    · exact .inl e
  link _ _ _ := rfl
  mon _ := rfl

theorem enterRecover_groups (s : State) (i : Fin 8) : s.enterRecover.stale .rx i = s.stale .rx i ∧
    s.enterRecover.usable .rx i = s.usable .rx i := by
  have hne : R.RXG_GRP_STAT i ≠ R.LINK_LL_STAT ∧ R.RXG_GRP_STAT i ≠ R.LINK_RECOVERS := by
    simp only [R.RXG_GRP_STAT, R.LINK_LL_STAT, R.LINK_RECOVERS]
    omega
  have husable : s.enterRecover.rd R.LINK_GROUP_USABLE = s.rd R.LINK_GROUP_USABLE :=
    (laneBlind_rd (b := R.LINK_GROUP_USABLE) rfl (by decide)).enterRecover s (fun _ _ => rd_wr_other _ _ _ _ (by decide))
      fun _ => by rw [rd_inc, if_neg (by decide)]
  refine ⟨(laneBlind_stale i).enterRecover s (fun _ _ => on_put_other _ _ _ _ _ _ (.inl hne.1)) fun _ => ?_, ?_⟩
  · exact on_eq_of_rd (by rw [rd_inc, if_neg hne.2]) _
  · exact congrArg (fun w => ((F.LINK_GROUP_USABLE_RX_USABLE).get w).testBit i) husable

/-- A pad frame goes out in ACTIVE under local timing. -/
def padSent (s : State) : State :=
  ((s.activeGroups .tx).foldl (fun (t : State) g =>
      (t.dataLanes .tx g).foldl (fun (u : State) l => padLane (frameUI (s.curStep .tx)) u g l)
        (t.updLink fun x => { x with markers := SMap.set (fun _ => 0) g (11 * 4096) x.markers })) s.clearOut).updLink
    fun x => { x with frame := [] }

theorem padInsert_eq (ha : s.linkActive = true) (hl : s.loopTimed = false) : s.padInsert = (padSent s).inc (R.TXG_PAD_CNT 0) := by
  unfold padInsert
  rw [ha, hl]
  exact if_neg Bool.false_ne_true

theorem padSent_same {α : Type} {g : State → α} (hl : ∀ (t : State) l, g { t with link := l } = g t) (s : State) :
    g (padSent s) = g s := by
  have hlane (ui : Nat) (u : State) (i l : Nat) : g (padLane ui u i l) = g u := by
    have hblock : g (u.blockSyms i l (11 * 4096) (List.replicate (2 * (ui - 32)) false)).2 = g u := hl u _
    unfold padLane drive
    dsimp only
    split
    · split
      · exact (hl _ _).trans ((hl _ _).trans ((hl _ _).trans hblock))
      · exact (hl _ _).trans hblock
    · exact (hl _ _).trans hblock
  unfold padSent
  refine (hl _ _).trans ((foldl_blind (fun t i => ?_) _ _).trans (hl s _))
  exact (foldl_blind (fun u l => hlane _ u i l) _ _).trans (hl t _)

end Sys2Proof.Machine

namespace Sys2Proof.Safety
open Sys2Proof.Machine Sys2Proof.Machine.State

variable {s : State}

/-- What a change of the link's own state alone leaves. -/
theorem updLink_kept (s : State) (f : LinkState → LinkState) : (s.updLink f).regs = s.regs ∧ MemKept s (s.updLink f) :=
  ⟨rfl, rfl, rfl, rfl, rfl, rfl, rfl⟩

theorem eqAck_gives (i : Fin 8) (arg : BitVec 12) (h : s.linkState = 4) : Gives (.eqAck i arg) s fun t =>
    SMap.get (fun _ => 0) t.link.eqAck i = arg.toNat ∧ t.regs = s.regs ∧ MemKept s t :=
  gives_of_eq rfl (eqAckSeen_eq i arg.toNat h) ⟨Sys2Proof.Laws.SMap.get_set_same _ _ _ _, updLink_kept s _⟩

/-- PARAM markers in PARAM: the word, and how often it came equal. -/
theorem param_gives (i : Fin 8) (arg : BitVec 12) (h : s.linkState = 5) : Gives (.param i arg) s fun t =>
    SMap.get (fun _ => 0) t.link.hostParam i = arg.toNat ∧ SMap.get (fun _ => 0) t.link.paramSeen i =
      (if 0 < SMap.get (fun _ => 0) s.link.paramSeen i ∧ SMap.get (fun _ => 0) s.link.hostParam i = arg.toNat
        then SMap.get (fun _ => 0) s.link.paramSeen i + 1 else 1) ∧ t.regs = s.regs ∧ MemKept s t := by
  have he : s.paramSeen i arg.toNat = _ := if_neg (not_not.mpr h)
  refine gives_of_eq rfl he ⟨Sys2Proof.Laws.SMap.get_set_same _ _ _ _, ?_, updLink_kept s _⟩
  refine (Sys2Proof.Laws.SMap.get_set_same _ _ _ _).trans ?_
  simp only [decide_eq_true_eq]

theorem train_gives (i : Fin 8) (arg : BitVec 12) (ht : s.inTraining = true) (h : s.linkState ≠ 4) :
    Gives (.train i arg) s fun t => SMap.get (fun _ => 0) t.link.hostTrain i = arg.toNat ∧ t.regs = s.regs ∧ MemKept s t :=
  gives_of_eq rfl (trainSeen_eq i arg.toNat ht h) ⟨Sys2Proof.Laws.SMap.get_set_same _ _ _ _, updLink_kept s _⟩

theorem eidle_gives (i : Fin 8) : Gives (.eidle i) s fun t =>
    i.val ∈ t.link.frozen ∧ i.val ∉ t.link.ready ∧ SMap.get (fun _ => 0) t.link.exits i = 0 ∧ t.regs = s.regs ∧ MemKept s t := by
  have hx : (s.eidleSeen i).link.exits = SMap.set (fun _ => 0) i.val 0 s.link.exits := rfl
  refine ⟨s.eidleSeen i, rfl, List.mem_cons_self, ?_, ?_, updLink_kept s _⟩
  swap
  · rw [hx, Sys2Proof.Laws.SMap.get_set_same]
  simp [eidleSeen, updLink]

/-! ### Exit bursts -/

/-- An EXIT marker before the third in order is counted, and nothing else. -/
theorem exit_counts (i : Fin 8) (b : BitVec 2) {n : Nat} (hp : s.parked .rx i = true) (hs : s.stale .rx i = false)
    (ho : s.groupOff .rx i = false) (hn : exitCount s i b.toNat = n) (h3 : n < 3) : Gives (.exit i b) s fun t =>
      SMap.get (fun _ => 0) t.link.exits i = 4 * n + b.toNat ∧ t.link.frozen = s.link.frozen ∧
        t.regs = s.regs ∧ MemKept s t := by
  have he : s.exitSeen i b.toNat = exitNoted s i n b.toNat := by
    rw [exitSeen_eq i _ hp hs ho, hn, if_pos h3]
  exact gives_of_eq rfl he ⟨exitNoted_get i n b.toNat, rfl, updLink_kept s _⟩

theorem exit_first (i : Fin 8) (b : BitVec 2) (hp : s.parked .rx i = true) (hs : s.stale .rx i = false)
    (ho : s.groupOff .rx i = false) (h : s.exitRun i = 0 ∨ b.toNat ≠ SMap.get (fun _ => 0) s.link.exits i % 4 + 1) :
    Gives (.exit i b) s fun t => SMap.get (fun _ => 0) t.link.exits i = 4 * 1 + b.toNat ∧ t.link.frozen = s.link.frozen ∧
        t.regs = s.regs ∧ MemKept s t := by
  refine exit_counts i b hp hs ho (if_neg fun hin => ?_) (by decide)
  rcases h with h | h
  · omega
  · exact h hin.2

theorem exit_second (i : Fin 8) (b : BitVec 2) (hp : s.parked .rx i = true) (hs : s.stale .rx i = false)
    (ho : s.groupOff .rx i = false) (h1 : s.exitRun i = 1) (hb : b.toNat = SMap.get (fun _ => 0) s.link.exits i % 4 + 1) :
    Gives (.exit i b) s fun t => SMap.get (fun _ => 0) t.link.exits i = 4 * 2 + b.toNat ∧ t.link.frozen = s.link.frozen ∧
        t.regs = s.regs ∧ MemKept s t := by
  refine exit_counts i b hp hs ho ?_ (by decide)
  unfold exitCount
  rw [if_pos ⟨by omega, hb⟩, h1]

theorem exit_third (i : Fin 8) (b : BitVec 2) (hp : s.parked .rx i = true) (hs : s.stale .rx i = false)
    (ho : s.groupOff .rx i = false) (h2 : 2 ≤ s.exitRun i) (hb : b.toNat = SMap.get (fun _ => 0) s.link.exits i % 4 + 1) :
    Gives (.exit i b) s fun t =>
      t.on (R.RXG_GRP_STAT i) F.RXG_GRP_STAT_MARKER_LOCK = true ∧ i.val ∉ t.link.frozen ∧ MemKept s t := by
  have hn : ¬ exitCount s i b.toNat < 3 := by
    unfold exitCount
    rw [if_pos ⟨by omega, hb⟩]
    omega
  have he : s.exitSeen i b.toNat = thawed (exitLocks (exitNoted s i (exitCount s i b.toNat) b.toNat) i) i := by
    rw [exitSeen_eq i _ hp hs ho, if_neg hn]
  have hnoted : MemKept s (exitNoted s i (exitCount s i b.toNat) b.toNat) := (updLink_kept s _).2
  generalize exitNoted s i (exitCount s i b.toNat) b.toNat = u at he hnoted
  exact gives_of_eq rfl he ⟨(on_eq_of_rd (thawed_rd _ i _) _).trans (exitLocks_on u i), thawed_frozen _ i,
    hnoted.trans ((exitLocks_memKept u i).trans (thawed_memKept _ i))⟩

/-! ### Groups that join -/

theorem groupReady_gives (d : Dir) (i : Fin 8) (skew : BitVec 8) (line : List (Fin 10 × BitVec 58)) (hon : OnXo s) (hc : Calm s)
    (hp : s.parked d i = true) (hs : s.stale d i = false) (ho : s.groupOff d i = false) (hj : s.joinsByRecover d i = false)
    (he : d = .rx → 3 ≤ s.exitRun i) : Gives (.groupReady d i skew line) s fun t =>
      8 * dirIx d + i.val ∈ t.link.ready ∧ t.link.exits = s.link.exits ∧
        (d = .rx → t.fld (R.RXG_GRP_STAT i) F.RXG_GRP_STAT_SKEW_UI = skew.toNat) ∧ MemKept s t ∧
        RegsKept s t [0x014] [R.RXG_GRP_STAT i] := by
  have heq := groupReady_eq (s := s) d i skew line hp hs ho hj he
  have hline {α : Type} {g : State → α} (hl : ∀ (t : State) x, g { t with link := { t.link with descr := x } } = g t) :
      g (deskewed (joined s .rx i) i skew line) = g ((joined s .rx i).put (R.RXG_GRP_STAT i) F.RXG_GRP_STAT_SKEW_UI skew.toNat) :=
    deskewed_same hl (joined s .rx i) i skew line
  have hready : 8 * dirIx d + i.val ∈ (joins s d i skew line).link.ready := by
    cases d with
    | rx => exact (hline (g := fun t => t.link.ready) fun _ _ => rfl) ▸ List.mem_cons_self
    | tx => exact List.mem_cons_self
  have hlink : (joins s d i skew line).link.exits = s.link.exits ∧ (joins s d i skew line).link.fresh = s.link.fresh ∧
      (joins s d i skew line).link.raised = s.link.raised := by
    cases d with
    | rx => exact ⟨hline (g := fun t => t.link.exits) fun _ _ => rfl, hline (g := fun t => t.link.fresh) fun _ _ => rfl,
        hline (g := fun t => t.link.raised) fun _ _ => rfl⟩
    | tx => exact ⟨rfl, rfl, rfl⟩
  have hfree : LinkOnly s (joins s d i skew line) := ⟨fun g hg => by
    cases d with
    | rx => exact (hline fun t _ => hg.link t _).trans ((hg.put _ (rxGrpStat_page i) _ _).trans (hg.link s _))
    | tx => exact hg.link s _⟩
  have hskew : d = .rx → (joins s d i skew line).fld (R.RXG_GRP_STAT i) F.RXG_GRP_STAT_SKEW_UI = skew.toNat := by
    rintro rfl
    refine (hline (g := (·.fld (R.RXG_GRP_STAT i) F.RXG_GRP_STAT_SKEW_UI)) fun _ _ => rfl).trans ?_
    exact (fld_put_same _ _ _ _ (by decide)).trans (Nat.mod_eq_of_lt skew.isLt)
  have hkept : RegsKept s (joins s d i skew line) [0x014] [R.RXG_GRP_STAT i] := by
    cases d with
    | rx => exact fun a _ ha => (hline (g := (·.rd a)) fun _ _ => rfl).trans (rd_wr_other _ _ _ _ (by simpa using ha))
    | tx => exact fun _ _ _ => rfl
  have hcalm := hfree.calm hc
  obtain ⟨hexits, hfresh, hraised⟩ := hlink
  have honly := hfree.onXo hon hfresh hraised
  generalize joins s d i skew line = u at *
  refine gives_of_eq rfl ((congrArg State.afterLink heq).trans (afterLink_onXo honly)) ⟨by rwa [settle_link hcalm],
    by rw [settle_link hcalm, hexits], fun hd => (fld_eq_of_rd (settle_rd hcalm _ ?_) _).trans (hskew hd),
    hfree.memKept.trans (.settle hcalm), hkept.trans (.settle hcalm (by simp))⟩
  simp only [pageOf, R.RXG_GRP_STAT]
  omega

theorem groupReady_recovers (d : Dir) (i : Fin 8) (skew : BitVec 8) (line : List (Fin 10 × BitVec 58)) (hon : OnXo s)
    (hc : Calm s) (ha : s.linkActive = true) (hj : s.joinsByRecover d i = true) :
    Gives (.groupReady d i skew line) s fun t => t.linkState = 8 ∧ MemKept s t := by
  obtain ⟨h1, -, -, -, h5⟩ := enterRecover_after hon hc ha
  have he : s.groupReady d i skew line = s.enterRecover := if_pos hj
  exact gives_of_eq rfl (congrArg State.afterLink he) ⟨h1, h5⟩

/-! ### Keepalive and padding -/

/-- A burst leaves its last marker on the group. -/
theorem laneBurst_markers (s : State) (g code : Nat) : ∃ m, (s.laneBurst g code).link.markers =
    SMap.set (fun _ => 0) g (code * 4096 + (if code = 10 then 3 else 0)) m := ⟨_, rfl⟩

theorem keepaliveSend_gives (i : Fin 8) (hp : s.parked .tx i = true) (ho : s.groupOff .tx i = false) :
    Gives (.keepaliveSend i) s fun t => SMap.get (fun _ => 0) t.link.markers i = 12 * 4096 ∧ t.regs = s.regs ∧ MemKept s t := by
  have he : s.keepaliveSend i = s.laneBurst i 12 := if_pos (by rw [hp, ho]; rfl)
  have hmem := laneBurst_blind (g := fun s => (s.dram, s.cache, s.wdb, s.place, s.otp, s.mgmt.flash)) (fun _ _ _ => rfl) s i 12
  simp only [Prod.mk.injEq] at hmem
  obtain ⟨h1, h2, h3, h4, h5, h6⟩ := hmem
  refine gives_of_eq rfl he ⟨?_, laneBurst_blind (g := State.regs) (fun _ _ _ => rfl) s i 12, h1, h2, h3, h4, h5, h6⟩
  obtain ⟨m, hm⟩ := laneBurst_markers s i 12
  rw [hm, Sys2Proof.Laws.SMap.get_set_same]
  rfl

/-- The receivers of a group freeze. -/
def frozenAgain (s : State) (i : Nat) : State := s.updLink fun l => { l with frozen := i :: l.frozen.filter (· ≠ i) }

theorem keepaliveSeen_eq (i : Fin 8) (xs : List (Fin 10 × Adapt)) (hp : s.parked .rx i = true) (ho : s.groupOff .rx i = false) :
    s.keepaliveSeen i xs = xs.foldl (fun u x => u.takeAdapt i x.1.val x.2 true true) (frozenAgain s i) := by
  unfold keepaliveSeen
  rw [hp, ho]
  exact if_pos rfl

theorem keepalive_gives (i : Fin 8) (xs : List (Fin 10 × Adapt)) (hp : s.parked .rx i = true) (ho : s.groupOff .rx i = false) :
    Gives (.keepalive i xs) s fun t =>
      i.val ∈ t.link.frozen ∧ t.link.ready = s.link.ready ∧ RegsKept s t [0x088 + i.val] [] ∧ MemKept s t := by
  have hadapt {α : Type} {g : State → α} (hg : ∀ l < 10, AdaptBlind i l g) :
      g (xs.foldl (fun u x => u.takeAdapt i x.1.val x.2 true true) (frozenAgain s i)) = g (frozenAgain s i) :=
    foldl_blind (fun t x => (hg _ x.1.isLt).takeAdapt t _ _ _) xs _
  have hmem := hadapt (g := fun s => (s.dram, s.cache, s.wdb, s.place, s.otp, s.mgmt.flash))
    fun _ _ => ⟨fun _ _ _ _ => rfl, fun _ _ => rfl⟩
  simp only [Prod.mk.injEq] at hmem
  obtain ⟨h1, h2, h3, h4, h5, h6⟩ := hmem
  refine gives_of_eq rfl (keepaliveSeen_eq i xs hp ho) ⟨?_, ?_, fun a ha _ => ?_, h1, h2, h3, h4, h5, h6⟩
  · rw [hadapt (g := fun t => t.link.frozen) fun _ _ => ⟨fun _ _ _ _ => rfl, fun _ _ => rfl⟩]
    exact List.mem_cons_self
  · exact hadapt (g := fun t => t.link.ready) fun _ _ => ⟨fun _ _ _ _ => rfl, fun _ _ => rfl⟩
  · refine (hadapt (g := (·.rd a)) fun l hl => ⟨fun t b v hb => rd_wr_other _ _ _ _ ?_, fun _ _ => rfl⟩).trans rfl
    rintro rfl
    simp only [List.mem_cons, List.not_mem_nil, or_false] at ha
    simp only [adaptRegs, List.mem_cons, List.not_mem_nil, or_false, R.RXG_RXL_CTLE, R.RXG_RXL_DFE_A, R.RXG_RXL_DFE_B,
      R.RXG_RXL_DFE_C] at hb
    unfold pageOf at ha
    omega

theorem keepalive_ctle (i : Fin 8) (l : Fin 10) (p n : BitVec 4) (hp : s.parked .rx i = true) (ho : s.groupOff .rx i = false)
    (hc : s.on (R.RXG_RXL_CTL i l) F.RXG_RXL_CTL_CTLE_OVR = false) : Gives (.keepalive i [(l, ⟨some (p, n), []⟩)]) s fun t =>
      t.fld (R.RXG_RXL_CTLE i l) F.RXG_RXL_CTLE_PEAK = p.toNat ∧ t.fld (R.RXG_RXL_CTLE i l) F.RXG_RXL_CTLE_GAIN = n.toNat ∧
        RegsKept s t [] [R.RXG_RXL_CTLE i l] := by
  have hc' : (frozenAgain s i).on (R.RXG_RXL_CTL i l) F.RXG_RXL_CTL_CTLE_OVR = false := hc
  have hctle : takeCtle (frozenAgain s i) i l ⟨some (p, n), []⟩ true =
      ((frozenAgain s i).put (R.RXG_RXL_CTLE i l) F.RXG_RXL_CTLE_PEAK p.toNat).put (R.RXG_RXL_CTLE i l) F.RXG_RXL_CTLE_GAIN
        n.toNat := if_pos (by rw [hc']; rfl)
  have he : s.keepaliveSeen i [(l, ⟨some (p, n), []⟩)] = takeCtle (frozenAgain s i) i l ⟨some (p, n), []⟩ true := by
    rw [keepaliveSeen_eq i _ hp ho, List.foldl_cons, List.foldl_nil, takeAdapt_eq]
    exact ite_self _
  have hrd (a : Nat) : (frozenAgain s i).rd a = s.rd a := rfl
  rw [hctle] at he
  refine gives_of_eq rfl he ⟨?_, ?_, fun a _ ha => ?_⟩
  · rw [fld_put_other _ _ _ _ _ _ (.inr (by decide)), fld_put_same _ _ _ _ (by decide)]
    exact Nat.mod_eq_of_lt p.isLt
  · rw [fld_put_same _ _ _ _ (by decide)]
    exact Nat.mod_eq_of_lt n.isLt
  · have ha : a ≠ R.RXG_RXL_CTLE i l := by simpa using ha
    rw [rd_put, if_neg ha, rd_put, if_neg ha, hrd]

theorem keepaliveMissed_idle (i : Fin 8) (hon : OnXo s) (hc : Calm s) (hp : s.parked .rx i = true)
    (ho : s.groupOff .rx i = false) (ha : s.linkActive = false) : Gives (.keepaliveMissed i) s fun t =>
      t.stale .rx i = true ∧ t.usable .rx i = false ∧ t.link = s.link ∧ MemKept s t ∧
        RegsKept s t [0x014] [R.RXG_GRP_STAT i, R.LINK_GROUP_USABLE] := by
  obtain ⟨h1, h2, h3, h4⟩ := keepaliveGone_spec s i
  have hfree := keepaliveGone_linkOnly s i
  have hidle : (keepaliveGone s i).linkActive = false := by rw [linkActive, h3]; exact ha
  have he : s.keepaliveMissed i = keepaliveGone s i :=
    (keepaliveMissed_eq i hp ho).trans (if_neg (ne_true_of_eq_false hidle))
  have hcalm := hfree.calm hc
  have hlink : (keepaliveGone s i).link = s.link := rfl
  have honly := hfree.onXo hon rfl rfl
  generalize keepaliveGone s i = u at *
  refine gives_of_eq rfl ((congrArg State.afterLink he).trans (afterLink_onXo honly)) ⟨(on_eq_of_rd (settle_rd hcalm _ ?_) _).trans h1,
    (congrArg (fun w => ((F.LINK_GROUP_USABLE_RX_USABLE).get w).testBit i) (settle_rd hcalm _ (by decide))).trans h2,
    (settle_link hcalm).trans hlink, hfree.memKept.trans (.settle hcalm), h4.trans (.settle hcalm (by simp))⟩
  simp only [pageOf, R.RXG_GRP_STAT]
  omega

theorem keepaliveMissed_active (i : Fin 8) (hon : OnXo s) (hc : Calm s) (hp : s.parked .rx i = true)
    (ho : s.groupOff .rx i = false) (ha : s.linkActive = true) : Gives (.keepaliveMissed i) s fun t =>
      t.stale .rx i = true ∧ t.usable .rx i = false ∧ t.linkState = 8 ∧ MemKept s t := by
  obtain ⟨h1, h2, h3, -⟩ := keepaliveGone_spec s i
  have hgone := keepaliveGone_linkOnly s i
  have hactive : (keepaliveGone s i).linkActive = true := by rw [linkActive, h3]; exact ha
  have he := congrArg State.afterLink (keepaliveMissed_eq i hp ho)
  have honly := hgone.onXo hon rfl rfl
  have hcalm := hgone.calm hc
  generalize keepaliveGone s i = u at *
  obtain ⟨k1, k2⟩ := enterRecover_groups u i
  obtain ⟨m1, -, -, -, m5⟩ := enterRecover_after honly hcalm hactive
  obtain ⟨e1, -, -, -⟩ := enterRecover_spec hactive
  have hfree : LinkOnly u u.enterRecover := ⟨fun _ hg => hg.enterRecover u⟩
  obtain ⟨hx, hr, -, -, -⟩ := honly
  obtain ⟨-, -, hrd⟩ := afterLink_spec (hfree.calm hcalm) (hfree.xoOk.trans hx) (hfree.refSrc.trans hr)
    (.inl (by rw [e1]; decide))
  refine gives_of_eq rfl he ⟨(on_eq_of_rd (hrd _ ?_ ?_) _).trans (k1.trans h1),
    (congrArg (fun w => ((F.LINK_GROUP_USABLE_RX_USABLE).get w).testBit i) (hrd _ (by decide) (by decide))).trans (k2.trans h2),
    m1, hgone.memKept.trans m5⟩
  · simp only [pageOf, R.RXG_GRP_STAT]
    omega
  · simp only [R.RXG_GRP_STAT, R.XACT_EVT_DROPPED]
    omega

theorem padFrameInsert_gives (ha : s.linkActive = true) (hl : s.loopTimed = false) : Gives .padFrameInsert s fun t =>
    t.rd (R.TXG_PAD_CNT 0) = s.rd (R.TXG_PAD_CNT 0) + 1 ∧ t.link.frame = [] ∧ MemKept s t ∧
      RegsKept s t [] [R.TXG_PAD_CNT 0] := by
  have hrd (a : Nat) : (padSent s).rd a = s.rd a := padSent_same (g := (·.rd a)) (fun _ _ => rfl) s
  have hmem := padSent_same (g := fun s => (s.dram, s.cache, s.wdb, s.place, s.otp, s.mgmt.flash)) (fun _ _ => rfl) s
  simp only [Prod.mk.injEq] at hmem
  obtain ⟨h1, h2, h3, h4, h5, h6⟩ := hmem
  have hframe : (padSent s).link.frame = [] := rfl
  have he := padInsert_eq ha hl
  generalize padSent s = u at *
  refine gives_of_eq rfl he ⟨?_, ?_, MemKept.trans ⟨h1, h2, h3, h4, h5, h6⟩ (inc_memKept ..), fun a _ hn => ?_⟩
  · rw [rd_inc, if_pos rfl, hrd]
    rfl
  · rw [inc_link, hframe]
  · rw [rd_inc, if_neg (by simpa using hn), hrd]

/-- Settles O8: what comes on the lanes outside frames changes the link's own state and its status registers alone; a group that
can join through RECOVER only takes the link there. -/
theorem laneMarkers : Obligations.LaneMarkers :=
  ⟨fun _ i arg => eqAck_gives i arg, fun _ i arg => param_gives i arg, fun _ i arg => train_gives i arg, fun _ i => eidle_gives i,
    fun _ i b => exit_first i b, fun _ i b => exit_second i b, fun _ i b => exit_third i b,
    fun _ d i skew line => groupReady_gives d i skew line, fun _ d i skew line => groupReady_recovers d i skew line,
    fun _ i => keepaliveSend_gives i, fun _ i xs => keepalive_gives i xs, fun _ i l p n => keepalive_ctle i l p n,
    fun _ i => keepaliveMissed_idle i, fun _ i => keepaliveMissed_active i, fun _ => padFrameInsert_gives, fun _ => rfl⟩

end Sys2Proof.Safety
end

section
/-! SUPPORT. Finite maps read as lists of their entries. -/

namespace Sys2Proof.Laws
open Sys2Proof.Machine

variable {α : Type} [DecidableEq α] {d : Nat → α} {lo : Nat} {m : SMap α}

theorem SMap.le_of_mem (w : SMap.wfFrom d lo m = true) {e : Nat × α} (h : e ∈ m) : lo ≤ e.1 := by
  induction m generalizing lo with
  | nil => simp at h
  | cons x m ih =>
    simp only [SMap.wfFrom, Bool.and_eq_true, decide_eq_true_eq] at w
    obtain ⟨⟨hlo, -⟩, w⟩ := w
    rcases List.mem_cons.mp h with rfl | h
    · exact hlo
    · exact (Nat.le_succ_of_le hlo).trans (ih w h)

/-- In a map in canonical form every entry is what its key reads. -/
theorem SMap.get_of_mem (w : SMap.wfFrom d lo m = true) {e : Nat × α} (h : e ∈ m) : SMap.get d m e.1 = e.2 := by
  induction m generalizing lo with
  | nil => simp at h
  | cons x m ih =>
    simp only [SMap.wfFrom, Bool.and_eq_true, decide_eq_true_eq] at w
    obtain ⟨-, w⟩ := w
    rcases List.mem_cons.mp h with rfl | h
    · exact if_pos rfl
    · exact (if_neg (by have := SMap.le_of_mem w h; omega)).trans (ih w h)

omit [DecidableEq α] in
/-- What is not the default stands in the map. -/
theorem SMap.mem_of_get {k : Nat} (h : SMap.get d m k ≠ d k) : (k, SMap.get d m k) ∈ m := by
  induction m with
  | nil => exact absurd rfl h
  | cons x m ih =>
    obtain ⟨j, v⟩ := x
    by_cases hk : k = j
    · subst hk
      simp [SMap.get]
    · simp only [SMap.get, if_neg hk] at h ⊢
      exact List.mem_cons_of_mem _ (ih h)

theorem SMap.get_of_notMem {k : Nat} (h : k ∉ m.map Prod.fst) : SMap.get d m k = d k := by
  by_contra hd
  exact h (List.mem_map.mpr ⟨_, SMap.mem_of_get hd, rfl⟩)

/-- A map whose values are changed one by one, the defaults dropped. -/
theorem SMap.get_mapped (f : Nat → α → α) (z : α) (hz : ∀ k, d k = z) (hf : ∀ k, f k z = z) (w : SMap.wfFrom d lo m = true) (k : Nat) :
    SMap.get d ((m.map fun e => (e.1, f e.1 e.2)).filter fun e => decide (e.2 ≠ z)) k = f k (SMap.get d m k) := by
  induction m generalizing lo with
  | nil => simp [SMap.get, hz, hf]
  | cons x m ih =>
    obtain ⟨j, v⟩ := x
    simp only [SMap.wfFrom, Bool.and_eq_true, decide_eq_true_eq] at w
    obtain ⟨-, w⟩ := w
    rw [List.map_cons, List.filter_cons]
    by_cases hk : k = j
    · subst hk
      have h0 : SMap.get d m k = z := (SMap.get_of_wfFrom d m w (Nat.lt_succ_self k)).trans (hz k)
      have hi := ih w
      rw [h0, hf] at hi
      by_cases hv : f k v = z
      · rw [if_neg (by simpa using hv), hi]
        simp [SMap.get, hv]
      · rw [if_pos (by simpa using hv)]
        simp [SMap.get]
    · rw [show SMap.get d ((j, v) :: m) k = SMap.get d m k from if_neg hk, ← ih w]
      split
      · exact if_neg hk
      · rfl

/-- Writing each entry of a map back, changed. -/
theorem SMap.get_setAll_map (g : α → α) (l m : SMap α) (w : SMap.wfFrom d lo l = true) (k : Nat) :
    SMap.get d (SMap.setAll d (l.map fun e => (e.1, g e.2)) m) k =
      if k ∈ l.map Prod.fst then g (SMap.get d l k) else SMap.get d m k := by
  induction l generalizing lo m with
  | nil => rfl
  | cons x l ih =>
    obtain ⟨j, v⟩ := x
    simp only [SMap.wfFrom, Bool.and_eq_true, decide_eq_true_eq] at w
    obtain ⟨-, w⟩ := w
    rw [List.map_cons]
    refine (ih _ w).trans ?_
    by_cases hk : k = j
    · subst hk
      have hn : k ∉ l.map Prod.fst := fun h => by
        obtain ⟨e, he, hek⟩ := List.mem_map.mp h
        have := SMap.le_of_mem w he
        omega
      rw [if_neg hn, SMap.get_set_same, if_pos (by simp)]
      exact congrArg g (if_pos rfl).symm
    · rw [SMap.get_set_other d hk]
      refine if_congr (by simp [hk]) (congrArg g (if_neg hk).symm) rfl

end Sys2Proof.Laws
end

section
/-! SUPPORT. The fault collector's parts: buckets and declarations (R287, R291), retests (R290), ALERT_N (R292, R294). -/

namespace Sys2Proof.Machine
open Sys2Proof.Safety State

namespace State

variable (s : State)

/-! ### Buckets -/

theorem bistFree_fcol (r : Word) : (s.bistFree r).fcol = s.fcol := by
  unfold bistFree
  dsimp only
  split <;> rfl

theorem dropRetest_fcol (r : Word) : (s.dropRetest r).fcol.declared = s.fcol.declared ∧
    (s.dropRetest r).fcol.levels = s.fcol.levels ∧ (s.dropRetest r).fcol.caps = s.fcol.caps := by
  unfold dropRetest
  dsimp only
  split <;> split <;> try rw [bistFree_fcol]
  all_goals exact ⟨rfl, rfl, rfl⟩

/-- The declaration itself, before what it cancels and reports. -/
def listed (s : State) (r : Word) : State := { s with fcol := { s.fcol with
  declared := s.fcol.declared ++ [r], handed := s.fcol.handed ++ [r]
  retestQ := s.fcol.retestQ.filter fun x => x.resource ≠ r } }

theorem declare_eq (r : Word) (h : s.declared r = false) :
    s.declare r = (((s.listed r).dropRetest r).report 24 r).inc R.FCOL_DECLARATIONS := if_neg (ne_true_of_eq_false h)

theorem declare_fcol (r : Word) (h : s.declared r = false) : (s.declare r).fcol.declared = s.fcol.declared ++ [r] ∧
    (s.declare r).fcol.levels = s.fcol.levels ∧ (s.declare r).fcol.caps = s.fcol.caps := by
  obtain ⟨h1, h2, h3⟩ := dropRetest_fcol (s.listed r) r
  rw [declare_eq s r h]
  simp only [inc_fcol_declared, inc_fcol_levels, inc_fcol_caps, report_fcol_declared, report_fcol_levels, report_fcol_caps]
  exact ⟨h1, h2, h3⟩

variable {s}

/-- A declared resource, or one whose bucket stands above its capacity and will be. -/
def overflowing (s : State) (t : Nat) (r : Word) : Prop := s.declared r = true ∨ s.cap_ t < s.level r

theorem declared_declare {r x : Word} (h : s.declared r = true) : (s.declare x).declared r = true := by
  cases hx : s.declared x
  · obtain ⟨h1, -, -⟩ := declare_fcol s x hx
    unfold declared at h ⊢
    rw [h1, List.contains_iff_mem] at *
    simp_all
  · unfold declare
    rwa [hx]

theorem declared_declare_self {x : Word} : (s.declare x).declared x = true := by
  cases hx : s.declared x
  · obtain ⟨h1, -, -⟩ := declare_fcol s x hx
    unfold declared
    rw [h1, List.contains_iff_mem]
    simp
  · exact declared_declare hx

theorem level_eq {r : Word} (h : s.declared r = false) : s.level r = SMap.get (fun _ => 0) s.fcol.levels r.toNat := by
  unfold level
  rw [h]

/-- One bucket of a type is looked at after a change of CAP or a leak. -/
def overflowStep (t : Nat) (u : State) (e : Nat × Nat) : State :=
  if bucketOfRes (BitVec.ofNat 32 e.1) = some t ∧ u.cap_ t < u.level (BitVec.ofNat 32 e.1) ∧ !u.declared (BitVec.ofNat 32 e.1)
  then u.declare (BitVec.ofNat 32 e.1) else u

theorem overflows_eq (t : Nat) : s.overflows t = s.fcol.levels.foldl (overflowStep t) s := rfl

theorem foldl_same {α β : Type} {f : α → β → α} {l : List β} {a : α} (h : ∀ b ∈ l, f a b = a) : l.foldl f a = a := by
  induction l with
  | nil => rfl
  | cons b l ih =>
    rw [List.foldl_cons, h b List.mem_cons_self, ih fun c hc => h c (List.mem_cons_of_mem _ hc)]

/-- No bucket of the type stands above its capacity: nothing is declared. -/
theorem overflows_none {t : Nat} (h : ∀ r, bucketOfRes r = some t → s.declared r = false → s.level r ≤ s.cap_ t) :
    s.overflows t = s := by
  rw [overflows_eq]
  refine foldl_same fun e _ => if_neg ?_
  rintro ⟨hb, hl, hd⟩
  exact absurd (h _ hb (by simpa using hd)) (by omega)

theorem overflowing_declare {t : Nat} {r x : Word} (hx : s.declared x = false) (h : overflowing s t r) :
    overflowing (s.declare x) t r := by
  obtain ⟨-, hl, hc⟩ := declare_fcol s x hx
  cases hd : (s.declare x).declared r
  · have hr : s.declared r = false := by
      by_contra hr
      simp [declared_declare (x := x) (by simpa using hr)] at hd
    refine .inr ?_
    rw [level_eq hd, hl, ← level_eq hr]
    unfold cap_
    rw [hc]
    exact h.resolve_left (by simp [hr])
  · exact .inl hd

theorem overflowing_step {t : Nat} {r : Word} (e : Nat × Nat) (h : overflowing s t r) : overflowing (overflowStep t s e) t r := by
  unfold overflowStep
  split
  next hc =>
    obtain ⟨-, -, hd⟩ := hc
    exact overflowing_declare (by simpa using hd) h
  · exact h

theorem declared_step {t : Nat} {r : Word} (e : Nat × Nat) (h : s.declared r = true) : (overflowStep t s e).declared r = true := by
  unfold overflowStep
  split
  · exact declared_declare h
  · exact h

theorem declared_steps {t : Nat} {r : Word} (l : List (Nat × Nat)) (h : s.declared r = true) :
    (l.foldl (overflowStep t) s).declared r = true := by
  induction l generalizing s with
  | nil => exact h
  | cons e l ih => exact ih (declared_step e h)

/-- A bucket above its capacity is declared once its entry is met. -/
theorem declared_of_overflowing {t : Nat} {r : Word} (hb : bucketOfRes r = some t) {v : Nat} (l : List (Nat × Nat))
    (hm : (r.toNat, v) ∈ l) (h : overflowing s t r) : (l.foldl (overflowStep t) s).declared r = true := by
  induction l generalizing s with
  | nil => simp at hm
  | cons e l ih =>
    rcases List.mem_cons.mp hm with rfl | hm
    · refine declared_steps l ?_
      unfold overflowStep
      rw [BitVec.ofNat_toNat, BitVec.setWidth_eq]
      cases hd : s.declared r
      · rw [if_pos ⟨hb, h.resolve_left (by simp [hd]), rfl⟩]
        exact declared_declare_self
      · rw [if_neg (by simp)]
        exact hd
    · exact ih hm (overflowing_step e h)

/-! ### The leak -/

/-- The buckets after a leak, before those that overflow. -/
def leaked (s : State) (t : Nat) : State :=
  let n := s.leakOf t
  let hit := fun (k : Nat) => bucketOfRes (BitVec.ofNat 32 k) == some t && !s.declared (BitVec.ofNat 32 k)
  let m := (s.fcol.levels.map fun e => if hit e.1 then (e.1, e.2 - n) else e).filter fun e => e.2 ≠ 0
  let s := { s with fcol := { s.fcol with levels := m } }
  if t = 2 then { s with fcol := { s.fcol with rows := s.fcol.rows.filter fun r => decide (s.level r ≠ 0) } } else s

theorem leak_eq (t : Nat) : s.leak t = (s.leaked t).overflows t := rfl

/-- What a bucket with key `k` falls to. -/
def leakTo (s : State) (t k v : Nat) : Nat :=
  if bucketOfRes (BitVec.ofNat 32 k) = some t ∧ s.declared (BitVec.ofNat 32 k) = false then v - s.leakOf t else v

theorem leaked_levels (t : Nat) : (s.leaked t).fcol.levels =
    (s.fcol.levels.map fun e => (e.1, s.leakTo t e.1 e.2)).filter fun e => decide (e.2 ≠ 0) := by
  have he : (fun e : Nat × Nat => if (bucketOfRes (BitVec.ofNat 32 e.1) == some t && !s.declared (BitVec.ofNat 32 e.1)) = true
      then (e.1, e.2 - s.leakOf t) else e) = fun e => (e.1, s.leakTo t e.1 e.2) := by
    funext e
    unfold leakTo
    simp only [Bool.and_eq_true, beq_iff_eq, Bool.not_eq_true']
    split <;> rfl
  rw [← he]
  unfold leaked
  dsimp only
  split <;> rfl

theorem leaked_kept (t : Nat) : (s.leaked t).fcol.declared = s.fcol.declared ∧ (s.leaked t).fcol.caps = s.fcol.caps ∧
    (s.leaked t).fcol.handed = s.fcol.handed ∧ (s.leaked t).spare = s.spare ∧ (s.leaked t).place = s.place ∧
    (s.leaked t).regs = s.regs ∧ MemKept s (s.leaked t) := by
  unfold leaked
  dsimp only
  split <;> exact ⟨rfl, rfl, rfl, rfl, rfl, rfl, rfl, rfl, rfl, rfl, rfl, rfl⟩

theorem leaked_level {t : Nat} {r : Word} (hw : SMap.wf (fun _ => 0) s.fcol.levels = true) (hb : bucketOfRes r = some t)
    (hd : s.declared r = false) : (s.leaked t).level r = s.level r - s.leakOf t := by
  obtain ⟨h1, -⟩ := leaked_kept (s := s) t
  have hd' : (s.leaked t).declared r = false := by
    unfold declared at hd ⊢
    rwa [h1]
  rw [level_eq hd', level_eq hd, leaked_levels,
    Sys2Proof.Laws.SMap.get_mapped (s.leakTo t) 0 (fun _ => rfl) (fun k => by simp [leakTo]) hw]
  unfold leakTo
  rw [BitVec.ofNat_toNat, BitVec.setWidth_eq, if_pos ⟨hb, hd⟩]

/-! ### Retests -/

/-- A waiting retest leaves the queue. -/
def dequeued (s : State) (x : Retest) : State :=
  { s with fcol := { s.fcol with retestQ := s.fcol.retestQ.erase x } }.inc R.FCOL_RETESTS

/-- A row's retest is the one that runs. -/
def rowTaken (s : State) (x : Retest) : State := { s with fcol := { s.fcol with runScrub := some x } }

theorem rowTaken_on (u : State) (x : Retest) (a : Nat) (f : Fld) : (u.rowTaken x).on a f = u.on a f := rfl

theorem retestStart_scrub {x : Retest} (hn : s.fcol.runScrub = none) (hf : s.fcol.retestQ.find? (s.retestReady false) = some x) :
    s.retestStart false = (((s.dequeued x).rowTaken x).scrubStart (rowFrame x.resource) 1 true).syncRetest := by
  unfold retestStart
  rw [if_neg (by simp [hn]), hf]
  rfl

/-- A SCRUB_CMD begins. -/
def scrubBegun (s : State) (first : Nat) : State :=
  { s with ch := { s.ch with scrubRun := some ⟨first, 1, true, 0⟩ } }.flag R.SCRUB_SCRUB_STAT F.SCRUB_SCRUB_STAT_CMD_BUSY true

theorem scrubStart_eq (first : Nat) (h : s.on R.SCRUB_SCRUB_STAT F.SCRUB_SCRUB_STAT_CMD_BUSY = false) :
    s.scrubStart first 1 true = s.scrubBegun first := if_neg (ne_true_of_eq_false h)

/-- An engine's BIST is the one that runs. -/
def engineTaken (s : State) (x : Retest) : State := { s with
  fcol := { s.fcol with runBist := some x }
  bist := { s.bist with slice := some (retestSlice true (x.resource.toNat % 64) false) } }

/-- The engine is under test. -/
def engineRun (s : State) (u : Nat) : State :=
  ((s.flag R.BIST_BIST_STAT F.BIST_BIST_STAT_BUSY true).setEngState u 6).flag (pgStat (engPg u)) pgUnderTest true

theorem retestStart_engine {x : Retest} (hn : s.fcol.runBist = none) (hf : s.fcol.retestQ.find? (s.retestReady true) = some x)
    (h7 : resType x.resource = 7) :
    s.retestStart true = (((s.dequeued x).engineTaken x).engineRun (x.resource.toNat % 64)).syncRetest := by
  unfold retestStart
  rw [if_neg (by simp [hn]), hf]
  simp only [h7]
  rfl

theorem syncRetest_on {a : Nat} (f : Fld) (h : a ≠ R.FCOL_FC_STAT) : s.syncRetest.on a f = s.on a f := by
  unfold syncRetest
  rw [on_flag_other _ _ _ _ _ _ (.inl h), on_put_other _ _ _ _ _ _ (.inl h)]

theorem syncRetest_fld {a : Nat} (f : Fld) (h : a ≠ R.FCOL_FC_STAT) : s.syncRetest.fld a f = s.fld a f := by
  unfold syncRetest
  rw [fld_flag_other _ _ _ _ _ _ (.inl h), fld_put_other _ _ _ _ _ _ (.inl h)]

theorem syncRetest_rd {a : Nat} (h : a ≠ R.FCOL_FC_STAT) : s.syncRetest.rd a = s.rd a := by
  unfold syncRetest
  rw [rd_flag, if_neg h, rd_put, if_neg h]

theorem syncRetest_regsKept {pages addrs : List Nat} (h : R.FCOL_FC_STAT ∈ addrs ∨ pageOf R.FCOL_FC_STAT ∈ pages) :
    RegsKept s s.syncRetest pages addrs := ((RegsKept.refl s).put _ _ h).flag _ _ h

theorem dequeued_spec (x : Retest) : (s.dequeued x).fcol.retestQ = s.fcol.retestQ.erase x ∧
    (∀ b, (s.dequeued x).rd b = if b = R.FCOL_RETESTS then s.rd b + 1 else s.rd b) ∧ MemKept s (s.dequeued x) := by
  refine ⟨by simp [dequeued], fun b => ?_, inc_memKept ..⟩
  unfold dequeued
  rw [rd_inc]
  split
  next h => subst h; rfl
  · rfl

/-- What a row's retest leaves: the SCRUB_CMD's range and STATUS. -/
theorem rowRun_spec (u : State) (x : Retest) (f : Nat) : ((u.rowTaken x).scrubBegun f).syncRetest.fcol.runScrub = some x ∧
    ((u.rowTaken x).scrubBegun f).syncRetest.fcol.retestQ = u.fcol.retestQ ∧
    ((u.rowTaken x).scrubBegun f).syncRetest.ch.scrubRun = some ⟨f, 1, true, 0⟩ ∧
    (∀ b, b ≠ R.FCOL_FC_STAT → b ≠ R.SCRUB_SCRUB_STAT → ((u.rowTaken x).scrubBegun f).syncRetest.rd b = u.rd b) ∧
    MemKept u ((u.rowTaken x).scrubBegun f).syncRetest := by
  refine ⟨rfl, rfl, rfl, fun b h h' => ?_, rfl, rfl, rfl, rfl, rfl, rfl⟩
  rw [syncRetest_rd h]
  exact (rd_flag ..).trans (if_neg h')

/-- The row's retest ends. -/
def rowEnded (s : State) : State := { s with fcol := { s.fcol with runScrub := none } }.scrubEnd.syncRetest

theorem retestDone_row {r : ScrubRun} (hr : s.ch.scrubRun = some r) (ht : r.retest = true) (hc : s.scrubComplete r = true) :
    s.retestDone false true = s.rowEnded := by
  unfold retestDone scrubRetestDone
  rw [hr, if_pos (show (!false) = true from rfl)]
  exact if_pos (by rw [ht, hc]; rfl)

theorem rowEnded_spec (s : State) : s.rowEnded.fcol.runScrub = none ∧ s.rowEnded.ch.scrubRun = none ∧
    s.rowEnded.on R.SCRUB_SCRUB_STAT F.SCRUB_SCRUB_STAT_CMD_BUSY = false ∧ s.rowEnded.fcol.declared = s.fcol.declared ∧
    s.rowEnded.fcol.handed = s.fcol.handed ∧ s.rowEnded.spare = s.spare ∧ s.rowEnded.place = s.place ∧
    s.rowEnded.bist = s.bist ∧ MemKept s s.rowEnded ∧ RegsKept s s.rowEnded [0x014] [R.FCOL_FC_STAT, R.SCRUB_SCRUB_STAT] := by
  refine ⟨rfl, rfl, ?_, rfl, rfl, rfl, rfl, rfl, ⟨rfl, rfl, rfl, rfl, rfl, rfl⟩, ?_⟩
  · unfold rowEnded
    rw [syncRetest_on _ (by decide)]
    exact on_flag_same _ _ _ _ (by decide) rfl
  · refine RegsKept.trans (RegsKept.flag (t := { s with fcol := { s.fcol with runScrub := none }, ch := { s.ch with scrubRun := none } })
      (fun _ _ _ => rfl) _ _ (.inl (by simp))) (syncRetest_regsKept (.inl (by simp)))

/-! ### ALERT_N -/

/-- A record without its ALERT bit. -/
def unalert (r : Rec) : Rec := { r with alert := false }

theorem setRecs_eq (l : List (Nat × Rec)) (s : State) : l.foldl (fun t e => t.setRec e.1 { e.2 with alert := false }) s =
    { s with fcol := { s.fcol with recs := SMap.setAll (fun _ => ({} : Rec)) (l.map fun e => (e.1, unalert e.2)) s.fcol.recs } } := by
  induction l generalizing s with
  | nil => rfl
  | cons e l ih => exact ih _

/-- No record has its ALERT bit. -/
def unalerted (s : State) : State := s.fcol.recs.foldl (fun t e => t.setRec e.1 { e.2 with alert := false }) s

theorem unalerted_record (hw : SMap.wf (fun _ => ({} : Rec)) s.fcol.recs = true) (i : Nat) :
    s.unalerted.record i = unalert (s.record i) := by
  unfold unalerted record
  rw [setRecs_eq]
  refine (Sys2Proof.Laws.SMap.get_setAll_map unalert _ _ hw i).trans ?_
  split
  · rfl
  next h => rw [Sys2Proof.Laws.SMap.get_of_notMem h]; rfl

theorem unalerted_recs (hw : SMap.wf (fun _ => ({} : Rec)) s.fcol.recs = true) {e : Nat × Rec} (he : e ∈ s.unalerted.fcol.recs) :
    e.2.alert = false := by
  have hwf : SMap.wf (fun _ => ({} : Rec)) s.unalerted.fcol.recs = true := by
    unfold unalerted
    rw [setRecs_eq]
    exact Sys2Proof.Laws.SMap.wf_setAll _ _ _ hw
  have hg := (Sys2Proof.Laws.SMap.get_of_mem hwf he).symm.trans (unalerted_record hw e.1)
  rw [hg]
  rfl

/-- ALERT_PEND's word `lo`. -/
def pendBits (m : SMap Rec) (lo : Nat) : Nat :=
  m.foldl (fun n e => if e.2.alert ∧ e.1 / 32 = lo then n + 2 ^ (e.1 % 32) else n) 0

theorem pendBits_none {m : SMap Rec} (h : ∀ e ∈ m, e.2.alert = false) (lo : Nat) : pendBits m lo = 0 :=
  foldl_same fun e he => if_neg fun hc => by simp [h e he] at hc

theorem syncFc_spec (s : State) : s.syncFc.fcol = s.fcol ∧ s.syncFc.spare = s.spare ∧ s.syncFc.place = s.place ∧
    s.syncFc.rd R.FCOL_ALERT_PEND0 = BitVec.ofNat 32 (pendBits s.fcol.recs 0) ∧
    s.syncFc.rd R.FCOL_ALERT_PEND1 = BitVec.ofNat 32 (pendBits s.fcol.recs 1) ∧ MemKept s s.syncFc ∧
    RegsKept s s.syncFc [0x014] [R.FCOL_FC_STAT, R.FCOL_ALERT_PEND0, R.FCOL_ALERT_PEND1] := by
  refine ⟨rfl, rfl, rfl, ?_, rd_wr_same .., ⟨rfl, rfl, rfl, rfl, rfl, rfl⟩, ?_⟩
  · exact (rd_wr_other _ _ _ _ (by decide)).trans (rd_wr_same ..)
  · exact (((((RegsKept.refl s).put _ _ (.inl (by simp))).flag _ _ (.inl (by simp))).flag _ _ (.inl (by simp))).wr _
      (.inl (by simp))).wr _ (.inl (by simp))

/-- ALERT_N goes inactive. -/
def unasserted (s : State) : State := { s with fcol := { s.fcol with alertN := false } }

theorem releaseAlert_over (h : s.alertOver = true) : s.releaseAlert = s.unasserted.syncFc := if_pos h
theorem releaseAlert_not (h : s.alertOver = false) : s.releaseAlert = s.syncFc := if_neg (ne_true_of_eq_false h)

/-- What follows an ALERT_CLR but for the pin. -/
structure AlertKept (s t : State) : Prop where
  recs : t.fcol.recs = s.fcol.recs
  declared : t.fcol.declared = s.fcol.declared
  handed : t.fcol.handed = s.fcol.handed
  spare : t.spare = s.spare
  place : t.place = s.place
  pend0 : t.rd R.FCOL_ALERT_PEND0 = BitVec.ofNat 32 (pendBits s.fcol.recs 0)
  pend1 : t.rd R.FCOL_ALERT_PEND1 = BitVec.ofNat 32 (pendBits s.fcol.recs 1)
  mem : MemKept s t
  regs : RegsKept s t [0x014] [R.FCOL_FC_STAT, R.FCOL_ALERT_PEND0, R.FCOL_ALERT_PEND1]

theorem syncFc_kept_alertN (s : State) : s.syncFc.fcol.alertN = s.fcol.alertN := rfl

theorem syncFc_kept (s : State) : AlertKept s s.syncFc := by
  obtain ⟨h1, h2, h3, h4, h5, h6, h7⟩ := syncFc_spec s
  exact ⟨congrArg FcolState.recs h1, congrArg FcolState.declared h1, congrArg FcolState.handed h1, h2, h3, h4, h5, h6, h7⟩

theorem unasserted_kept (s : State) : AlertKept s s.unasserted.syncFc := by
  obtain ⟨h1, h2, h3, h4, h5, h6, h7⟩ := syncFc_spec s.unasserted
  exact ⟨(congrArg FcolState.recs h1).trans rfl, (congrArg FcolState.declared h1).trans rfl, (congrArg FcolState.handed h1).trans rfl, h2, h3, h4, h5, h6, h7⟩

theorem releaseAlert_kept (s : State) : AlertKept s s.releaseAlert := by
  cases h : s.alertOver
  · rw [releaseAlert_not h]
    exact syncFc_kept s
  · rw [releaseAlert_over h]
    exact unasserted_kept s

theorem AlertKept.calm {s t : State} (h : AlertKept s t) (hc : Calm s) : Calm t :=
  hc.of_parts h.handed h.declared (congrArg SpareState.rows h.spare) (congrArg PlaceState.retiring h.place)

/-- ALERT_CLR with ALL, before the pin. -/
def allClear (s : State) : State := s.unalerted.flag R.FCOL_FC_STAT F.FCOL_FC_STAT_PRE_RESET_ALERT false

theorem allClear_over (hw : SMap.wf (fun _ => ({} : Rec)) s.fcol.recs = true) :
    s.allClear.alertOver = decide (s.fcol.alertAt + 10000 ≤ s.clk.up) := by
  have hany : s.allClear.fcol.recs.any (fun e => e.2.alert) = false := by
    rw [List.any_eq_false]
    intro e he
    rw [unalerted_recs hw he]
    simp
  have hpre : s.allClear.on R.FCOL_FC_STAT F.FCOL_FC_STAT_PRE_RESET_ALERT = false := on_flag_same _ _ _ _ (by decide) rfl
  unfold alertOver
  rw [hany, hpre]
  refine (Bool.true_and _).trans ?_
  unfold allClear unalerted
  rw [setRecs_eq]
  rfl

theorem allClear_fields (s : State) : s.allClear.fcol.alertN = s.fcol.alertN ∧ s.allClear.fcol.declared = s.fcol.declared ∧
    s.allClear.fcol.handed = s.fcol.handed ∧ s.allClear.spare = s.spare ∧ s.allClear.place = s.place ∧ MemKept s s.allClear ∧
    RegsKept s s.allClear [0x014] [R.FCOL_FC_STAT, R.FCOL_ALERT_PEND0, R.FCOL_ALERT_PEND1] := by
  unfold allClear unalerted
  rw [setRecs_eq]
  refine ⟨rfl, rfl, rfl, rfl, rfl, ⟨rfl, rfl, rfl, rfl, rfl, rfl⟩, RegsKept.flag (fun _ _ _ => rfl) _ _ (.inl (by simp))⟩

theorem alertClear_all {v : Word} (hs : F.FCOL_ALERT_CLR_START.get v = 1) (ha : F.FCOL_ALERT_CLR_ALL.get v = 1) :
    s.alertClear v = s.allClear.releaseAlert := by
  unfold alertClear
  rw [if_neg (not_not.mpr hs), if_pos ha]
  rfl

theorem alertClear_one {v : Word} (hs : F.FCOL_ALERT_CLR_START.get v = 1) (ha : F.FCOL_ALERT_CLR_ALL.get v = 0) :
    s.alertClear v = (s.setRec (F.FCOL_ALERT_CLR_RECORD.get v) (unalert (s.record (F.FCOL_ALERT_CLR_RECORD.get v)))).releaseAlert := by
  unfold alertClear
  rw [if_neg (not_not.mpr hs), if_neg (by omega)]
  rfl

theorem record_setRec (i j : Nat) (r : Rec) : (s.setRec i r).record j = if j = i then r else s.record j := by
  unfold record setRec
  split
  next h => subst h; exact Sys2Proof.Laws.SMap.get_set_same ..
  next h => exact Sys2Proof.Laws.SMap.get_set_other _ h ..

/-- The command word that ALERT_CLR gets. -/
theorem alertClr_bits (v : Word) : F.FCOL_ALERT_CLR_START.get (F.FCOL_ALERT_CLR_START.set 1 v &&& 255#32) = 1 ∧
    F.FCOL_ALERT_CLR_ALL.get (F.FCOL_ALERT_CLR_START.set 1 v &&& 255#32) = F.FCOL_ALERT_CLR_ALL.get v ∧
    F.FCOL_ALERT_CLR_RECORD.get (F.FCOL_ALERT_CLR_START.set 1 v &&& 255#32) = F.FCOL_ALERT_CLR_RECORD.get v := by
  refine ⟨?_, ?_, ?_⟩
  · rw [Fld.get_and _ (by decide), Fld.get_set _ _ _ (by decide)]
    rfl
  · rw [Fld.get_and _ (by decide), Fld.get_set_other _ _ _ _ (by decide)]
  · rw [Fld.get_and _ (by decide), Fld.get_set_other _ _ _ _ (by decide)]

theorem regSet_alertClr (w : RegWrite) (ho : Open s w.path R.FCOL_ALERT_CLR) : s.regSet w R.FCOL_ALERT_CLR F.FCOL_ALERT_CLR_START =
    (s.alertClear (F.FCOL_ALERT_CLR_START.set 1 w.value &&& 255#32)).settle := by
  have hp : PlainReg R.FCOL_ALERT_CLR 0#32 255#32 := by decide
  refine (regCmd_plain _ ho hp rfl (noMailbox s (by decide))).trans ?_
  rw [regEffect_fcol (by decide) (by decide), afterWrite_settle (by decide)]
  rfl

theorem regCmd_resQuery (path : Path) (v : Word) (ho : Open s path R.FCOL_RES_QUERY) :
    s.regCmd path R.FCOL_RES_QUERY v = (s.resQuery v).settle := by
  have hp : PlainReg R.FCOL_RES_QUERY 0#32 0xFFFFFFFF#32 := by decide
  have hv : v &&& 0xFFFFFFFF#32 = v := BitVec.and_allOnes
  rw [regCmd_plain _ ho hp rfl (noMailbox s (by decide)), regEffect_fcol (by decide) (by decide), afterWrite_settle (by decide), hv]
  rfl

end State
end Sys2Proof.Machine

namespace Sys2Proof.Safety
open Sys2Proof.Machine Sys2Proof.Machine.State

variable {s : State}

theorem bucketLeak_gives (b : Fin 9) (r : Word) (hc : Calm s) (hw : SMap.wf (fun _ => 0) s.fcol.levels = true)
    (hb : bucketOfRes r = some b.val) (hd : s.declared r = false)
    (hcap : ∀ e ∈ s.fcol.levels, bucketOfRes (BitVec.ofNat 32 e.1) = some b.val → e.2 ≤ s.cap_ b) :
    Gives (.bucketLeak b) s fun t => t.level r = s.level r - s.leakOf b ∧ MemKept s t ∧ RegsKept s t [0x014] [] := by
  obtain ⟨h1, h2, h3, h4, h5, h6, h7⟩ := leaked_kept (s := s) b
  have hcalm : Calm (s.leaked b) := hc.of_parts h3 h1 (congrArg SpareState.rows h4) (congrArg PlaceState.retiring h5)
  have hdec : ∀ x, (s.leaked b).declared x = s.declared x := fun x => congrArg (fun l => List.contains l x) h1
  have he : s.leak b = s.leaked b := by
    rw [leak_eq]
    refine overflows_none fun x hx hu => ?_
    rw [hdec] at hu
    rw [leaked_level hw hx hu, show (s.leaked b).cap_ b = s.cap_ b by unfold cap_; rw [h2], level_eq hu]
    by_cases h0 : SMap.get (fun _ => 0) s.fcol.levels x.toNat = 0
    · simp [h0]
    · have := hcap _ (Sys2Proof.Laws.SMap.mem_of_get (d := fun _ => 0) h0) (by simpa using hx)
      omega
  refine gives_of_eq rfl (congrArg settle he) ⟨?_, h7.trans (.settle hcalm), (RegsKept.of_regs (.refl s) h6).trans
    (.settle hcalm (by simp))⟩
  have hs : (s.leaked b).settle.declared r = false := by
    unfold declared
    rw [settle_same (·.fcol.declared) hcalm (fun _ _ _ _ => rfl) (fun _ _ => rfl) (fun _ _ _ => by simp) (fun _ _ => rfl)]
    exact (hdec r).trans hd
  rw [level_eq hs, settle_fcol_levels hcalm, ← level_eq ((hdec r).trans hd), leaked_level hw hb hd]

theorem leak_declares (b : Fin 9) (r : Word) (hw : SMap.wf (fun _ => 0) s.fcol.levels = true)
    (hb : bucketOfRes r = some b.val) (hd : s.declared r = false) (hcap : s.cap_ b < s.level r - s.leakOf b) :
    (s.leak b).declared r = true := by
  obtain ⟨h1, h2, -⟩ := leaked_kept (s := s) b
  have hdec : (s.leaked b).declared r = false := (congrArg (fun l => List.contains l r) h1).trans hd
  have hl := leaked_level hw hb hd
  have hne : SMap.get (fun _ => 0) (s.leaked b).fcol.levels r.toNat ≠ 0 := by
    rw [← level_eq hdec, hl]
    omega
  rw [leak_eq, overflows_eq]
  refine declared_of_overflowing hb _ (Sys2Proof.Laws.SMap.mem_of_get (d := fun _ => 0) hne) (.inr ?_)
  unfold cap_
  rwa [h2, hl]

/-! ### Retests -/

theorem retestStart_row (x : Retest) (h : s.released = true) (hn : s.fcol.runScrub = none)
    (hf : s.fcol.retestQ.find? (s.retestReady false) = some x) : Gives (.retestStart false) s fun t =>
      t.fcol.runScrub = some x ∧ t.fcol.retestQ = s.fcol.retestQ.erase x ∧
        t.ch.scrubRun = some ⟨State.rowFrame x.resource, 1, true, 0⟩ ∧ t.rd R.FCOL_RETESTS = s.rd R.FCOL_RETESTS + 1 ∧
        MemKept s t ∧ RegsKept s t [] [R.FCOL_RETESTS, R.FCOL_FC_STAT, R.SCRUB_SCRUB_STAT] := by
  obtain ⟨hq, hrd, hmem⟩ := dequeued_spec (s := s) x
  have hfree : s.on R.SCRUB_SCRUB_STAT F.SCRUB_SCRUB_STAT_CMD_BUSY = false := by
    have := List.find?_some hf
    simp only [retestReady, Bool.false_eq_true, if_false, Bool.and_eq_true, Bool.not_eq_true'] at this
    exact this.2
  have hbusy : ((s.dequeued x).rowTaken x).on R.SCRUB_SCRUB_STAT F.SCRUB_SCRUB_STAT_CMD_BUSY = false := by
    rw [rowTaken_on]
    exact (on_eq_of_rd ((hrd _).trans (if_neg (by decide))) _).trans hfree
  have he := (clocked_eq h fun s => s.retestStart false).trans (retestStart_scrub hn hf)
  rw [scrubStart_eq _ hbusy] at he
  obtain ⟨h1, h2, h3, h4, h5⟩ := rowRun_spec (s.dequeued x) x (rowFrame x.resource)
  refine gives_of_eq rfl he ⟨h1, h2.trans hq, h3, ?_, hmem.trans h5, fun b _ hb => ?_⟩
  · rw [h4 _ (by decide) (by decide), hrd, if_pos rfl]
  · simp only [List.mem_cons, List.not_mem_nil, or_false, not_or] at hb
    rw [h4 b hb.2.1 hb.2.2, hrd, if_neg hb.1]

theorem retestStart_unit (x : Retest) (h : s.released = true) (hn : s.fcol.runBist = none)
    (hf : s.fcol.retestQ.find? (s.retestReady true) = some x) (h7 : resType x.resource = 7) : Gives (.retestStart true) s fun t =>
      t.fcol.runBist = some x ∧ t.engState (x.resource.toNat % 64) = 6 ∧
        t.on R.BIST_BIST_STAT F.BIST_BIST_STAT_BUSY = true ∧ t.rd R.FCOL_RETESTS = s.rd R.FCOL_RETESTS + 1 ∧ MemKept s t := by
  obtain ⟨-, hrd, hmem⟩ := dequeued_spec (s := s) x
  have he := (clocked_eq h fun s => s.retestStart true).trans (retestStart_engine hn hf h7)
  generalize s.dequeued x = u at *
  have hu : x.resource.toNat % 64 < 64 := Nat.mod_lt _ (by decide)
  generalize x.resource.toNat % 64 = n at *
  refine gives_of_eq rfl he ⟨rfl, ?_, ?_, ?_, hmem⟩
  · unfold engState engineRun setEngState
    rw [syncRetest_fld _ (by simp only [R.ENG_ENG_STAT, R.FCOL_FC_STAT]; omega),
      fld_flag_other _ _ _ _ _ _ (.inl (by simp only [R.ENG_ENG_STAT, pgStat, engPg]; omega)), fld_put_same _ _ _ _ (by decide)]
    rfl
  · rw [syncRetest_on _ (by decide)]
    unfold engineRun setEngState
    rw [on_flag_other _ _ _ _ _ _ (.inl (by simp only [R.BIST_BIST_STAT, pgStat, engPg]; omega)),
      on_put_other _ _ _ _ _ _ (.inl (by simp only [R.ENG_ENG_STAT, R.BIST_BIST_STAT]; omega)),
      on_flag_same _ _ _ _ (by decide) rfl]
  · rw [syncRetest_rd (by decide)]
    unfold engineRun setEngState
    rw [rd_flag, if_neg (by simp only [R.FCOL_RETESTS, pgStat, engPg]; omega), rd_put,
      if_neg (by simp only [R.ENG_ENG_STAT, R.FCOL_RETESTS]; omega), rd_flag, if_neg (by decide)]
    exact (hrd _).trans (if_pos rfl)

theorem retestDone_gives (x : Retest) (r : ScrubRun) (hcalm : Calm s) (h : s.released = true) (hn : NoTest s)
    (hr : s.ch.scrubRun = some r) (ht : r.retest = true) (hc : s.scrubComplete r = true) :
    Gives (.retestDone false true) s fun t =>
      t.fcol.runScrub = none ∧ t.ch.scrubRun = none ∧ t.on R.SCRUB_SCRUB_STAT F.SCRUB_SCRUB_STAT_CMD_BUSY = false ∧
        t.declared x.resource = s.declared x.resource ∧ MemKept s t ∧
        RegsKept s t [0x014] [R.FCOL_FC_STAT, R.SCRUB_SCRUB_STAT] := by
  obtain ⟨h1, h2, h3, h4, h5, h6, h7, h8, h9, h10⟩ := rowEnded_spec s
  have he := (clocked_eq h fun s => (s.retestDone false true).afterUnit).trans (congrArg afterUnit (retestDone_row hr ht hc))
  generalize s.rowEnded = u at *
  have hcu : Calm u := hcalm.of_parts h5 h4 (congrArg SpareState.rows h6) (congrArg PlaceState.retiring h7)
  have hnu : NoTest u := by
    unfold NoTest
    rw [h8]
    exact hn
  refine gives_of_eq rfl (he.trans (afterUnit_noTest hnu)) ⟨?_, ?_, ?_, ?_, h9.trans (.settle hcu), h10.trans (.settle hcu (by simp))⟩
  · exact (settle_same (·.fcol.runScrub) hcu (fun _ _ _ _ => rfl) (fun _ _ => rfl) (fun _ _ _ => by simp) (fun _ _ => rfl)).trans h1
  · rw [settle_ch hcu, h2]
  · exact (on_eq_of_rd (settle_rd hcu _ (by decide)) _).trans h3
  · have hd := settle_same (·.fcol.declared) hcu (fun _ _ _ _ => rfl) (fun _ _ => rfl) (fun _ _ _ => by simp) (fun _ _ => rfl)
    unfold declared
    rw [hd, h4]

/-! ### ALERT_CLR and RES_QUERY -/

theorem settle_alertN {u : State} (h : Calm u) : u.settle.fcol.alertN = u.fcol.alertN :=
  settle_same (·.fcol.alertN) h (fun _ _ _ _ => rfl) (fun _ _ => rfl) (fun _ _ _ => by simp) (fun _ _ => rfl)

theorem settle_record {u : State} (h : Calm u) (i : Nat) : u.settle.record i = u.record i := by
  unfold record
  rw [settle_fcol_recs h]

theorem alertClr_all (w : RegWrite) (ho : Open s w.path R.FCOL_ALERT_CLR) (hc : Calm s)
    (hw : SMap.wf (fun _ => ({} : Rec)) s.fcol.recs = true) (ha : F.FCOL_ALERT_CLR_ALL.get w.value = 1) :
    Gives (.alertClr w) s fun t =>
      (s.fcol.alertAt + 10000 ≤ s.clk.up → t.fcol.alertN = false) ∧
        (s.clk.up < s.fcol.alertAt + 10000 → t.fcol.alertN = s.fcol.alertN) ∧ (∀ i : Fin 64, t.record i = { s.record i with alert := false }) ∧
        t.rd R.FCOL_ALERT_PEND0 = 0 ∧ t.rd R.FCOL_ALERT_PEND1 = 0 ∧ MemKept s t ∧
        RegsKept s t [0x014] [R.FCOL_FC_STAT, R.FCOL_ALERT_PEND0, R.FCOL_ALERT_PEND1] := by
  obtain ⟨hs, hall, -⟩ := alertClr_bits w.value
  have he := (regSet_alertClr w ho).trans (congrArg settle (alertClear_all hs (hall.trans ha)))
  have hover := allClear_over hw
  have hrec : ∀ i, s.allClear.record i = unalert (s.record i) := unalerted_record hw
  have hnone : ∀ e ∈ s.allClear.fcol.recs, e.2.alert = false := fun e he => unalerted_recs hw he
  obtain ⟨h1, h2, h3, h4, h5, h6, h7⟩ := allClear_fields s
  generalize s.allClear = u at *
  have hcu : Calm u := hc.of_parts h3 h2 (congrArg SpareState.rows h4) (congrArg PlaceState.retiring h5)
  have hk := releaseAlert_kept u
  have hcr := hk.calm hcu
  refine gives_of_eq rfl he ⟨fun hle => ?_, fun hlt => ?_, fun i => ?_, ?_, ?_, (h6.trans hk.mem).trans (.settle hcr),
    (h7.trans hk.regs).trans (.settle hcr (by simp))⟩
  · rw [settle_alertN hcr, releaseAlert_over (hover.trans (decide_eq_true hle)), syncFc_kept_alertN]
    rfl
  · rw [settle_alertN hcr, releaseAlert_not (hover.trans (decide_eq_false (by omega))), syncFc_kept_alertN, h1]
  · rw [settle_record hcr]
    exact (congrArg (fun m => SMap.get (fun _ => ({} : Rec)) m i.val) hk.recs).trans (hrec i)
  · rw [settle_rd hcr _ (by decide), hk.pend0, pendBits_none hnone]
    rfl
  · rw [settle_rd hcr _ (by decide), hk.pend1, pendBits_none hnone]
    rfl

theorem alertClr_one (w : RegWrite) (ho : Open s w.path R.FCOL_ALERT_CLR) (hc : Calm s) (ha : F.FCOL_ALERT_CLR_ALL.get w.value = 0) :
    Gives (.alertClr w) s fun t =>
      (∀ i : Fin 64, t.record i = if i.val = F.FCOL_ALERT_CLR_RECORD.get w.value then { s.record i with alert := false }
        else s.record i) ∧ MemKept s t ∧
        RegsKept s t [0x014] [R.FCOL_FC_STAT, R.FCOL_ALERT_PEND0, R.FCOL_ALERT_PEND1] := by
  obtain ⟨hs, hall, hrec⟩ := alertClr_bits w.value
  have he := (regSet_alertClr w ho).trans (congrArg settle (alertClear_one hs (hall.trans ha)))
  rw [hrec] at he
  generalize F.FCOL_ALERT_CLR_RECORD.get w.value = n at *
  have hg : ∀ i, (s.setRec n (unalert (s.record n))).record i = if i = n then unalert (s.record n) else s.record i :=
    fun i => record_setRec n i _
  have hk := releaseAlert_kept (s.setRec n (unalert (s.record n)))
  have hcr := hk.calm (hc.of_parts (t := s.setRec n (unalert (s.record n))) rfl rfl rfl rfl)
  have hm : MemKept s (s.setRec n (unalert (s.record n))) := ⟨rfl, rfl, rfl, rfl, rfl, rfl⟩
  have hr : RegsKept s (s.setRec n (unalert (s.record n))) [0x014] [R.FCOL_FC_STAT, R.FCOL_ALERT_PEND0, R.FCOL_ALERT_PEND1] :=
    fun _ _ _ => rfl
  generalize s.setRec n (unalert (s.record n)) = u at *
  refine gives_of_eq rfl he ⟨fun i => ?_, (hm.trans hk.mem).trans (.settle hcr), (hr.trans hk.regs).trans (.settle hcr (by simp))⟩
  rw [settle_record hcr]
  refine (congrArg (fun m => SMap.get (fun _ => ({} : Rec)) m i.val) hk.recs).trans ((hg i).trans ?_)
  split
  next h => rw [← h]; rfl
  · rfl

/-- RES_LEVEL's word, field by field. -/
theorem resLevel_fields (l : Nat) (x y : Bool) (hl : l < 2 ^ 24) :
    F.FCOL_RES_LEVEL_LEVEL.get (BitVec.ofNat 32 (l + x.toNat * 2 ^ 29 + y.toNat * 2 ^ 30 + 2 ^ 31)) = l ∧
    F.FCOL_RES_LEVEL_RETESTING.get (BitVec.ofNat 32 (l + x.toNat * 2 ^ 29 + y.toNat * 2 ^ 30 + 2 ^ 31)) = x.toNat ∧
    F.FCOL_RES_LEVEL_DECLARED.get (BitVec.ofNat 32 (l + x.toNat * 2 ^ 29 + y.toNat * 2 ^ 30 + 2 ^ 31)) = y.toNat ∧
    F.FCOL_RES_LEVEL_DONE.get (BitVec.ofNat 32 (l + x.toNat * 2 ^ 29 + y.toNat * 2 ^ 30 + 2 ^ 31)) = 1 := by
  simp only [Fld.get, BitVec.toNat_ushiftRight, BitVec.toNat_ofNat, Nat.shiftRight_eq_div_pow]
  cases x <;> cases y <;> simp only [Bool.toNat_false, Bool.toNat_true] <;> omega

theorem resQuery_calm (v : Word) (h : Calm s) : Calm (s.resQuery v) := by
  unfold resQuery
  exact wr_calm h

theorem resQuery_gives (w : RegWrite) (ho : Open s w.path R.FCOL_RES_QUERY) (hc : Calm s) : Gives (.resQuery w) s fun t =>
      t.fld R.FCOL_RES_LEVEL F.FCOL_RES_LEVEL_LEVEL = s.level w.value % 2 ^ 24 ∧
        t.on R.FCOL_RES_LEVEL F.FCOL_RES_LEVEL_RETESTING = s.retesting w.value ∧
        t.on R.FCOL_RES_LEVEL F.FCOL_RES_LEVEL_DECLARED = s.declared w.value ∧
        t.on R.FCOL_RES_LEVEL F.FCOL_RES_LEVEL_DONE = true ∧ MemKept s t ∧ RegsKept s t [0x014] [R.FCOL_RES_LEVEL] := by
  obtain ⟨h1, h2, h3, h4⟩ := resLevel_fields (s.level w.value % 2 ^ 24) (s.retesting w.value) (s.declared w.value)
    (Nat.mod_lt _ (by decide))
  have hcu : Calm (s.resQuery w.value) := resQuery_calm w.value hc
  have hrd : (s.resQuery w.value).settle.rd R.FCOL_RES_LEVEL = BitVec.ofNat 32 (s.level w.value % 2 ^ 24 +
      (s.retesting w.value).toNat * 2 ^ 29 + (s.declared w.value).toNat * 2 ^ 30 + 2 ^ 31) :=
    (settle_rd hcu _ (by decide)).trans (rd_wr_same ..)
  have hmem : MemKept s (s.resQuery w.value).settle := (wr_memKept ..).trans (.settle hcu)
  have hreg : RegsKept s (s.resQuery w.value).settle [0x014] [R.FCOL_RES_LEVEL] :=
    ((RegsKept.refl s).wr _ (.inl (by simp))).trans (.settle hcu (by simp))
  refine gives_of_eq rfl (regCmd_resQuery w.path w.value ho) ⟨?_, ?_, ?_, ?_, hmem, hreg⟩ <;> simp only [on, fld, hrd]
  · exact h1
  · rw [h2]
    cases s.retesting w.value <;> rfl
  · rw [h3]
    cases s.declared w.value <;> rfl
  · rw [h4]
    rfl

/-- Settles O39: a leak lowers the buckets of its type alone, and what stands above its capacity is declared; a retest takes its
resource and gives it back; ALERT_CLR clears ALERT bits and lets the pin follow; RES_QUERY shows a bucket. -/
theorem bucketsAndRetests : Obligations.BucketsAndRetests :=
  ⟨fun _ b r hc hw hb hd hcap => bucketLeak_gives b r hc hw hb hd hcap, fun _ b r hw hb hd hcap => leak_declares b r hw hb hd hcap,
    fun _ x h hn hf => retestStart_row x h hn hf, fun _ x h hn hf h7 => retestStart_unit x h hn hf h7,
    fun _ x r hcalm h hn _ hr ht hc => retestDone_gives x r hcalm h hn hr ht hc, fun _ w ho hc hw ha => alertClr_all w ho hc hw ha,
    fun _ w ho hc ha => alertClr_one w ho hc ha, fun _ w ho hc => resQuery_gives w ho hc⟩

end Sys2Proof.Safety
end

section
/-! SUPPORT. Records of the fault collector: what opening, merging and closing one leaves alone (R283 to R286). -/

namespace Sys2Proof.Machine
open Sys2Proof.Safety State

/-- The counters of records opened, merged and closed. -/
def recCounters : List Nat := [R.FCOL_RAISES, R.FCOL_MERGES, R.FCOL_RECOVERIES]

/-- What the handling of a record leaves alone, the records apart. -/
structure FaultKept (s t : State) : Prop where
  deliv : t.fcol.deliv = s.fcol.deliv
  seen : t.fcol.seen = s.fcol.seen
  declared : t.fcol.declared = s.fcol.declared
  handed : t.fcol.handed = s.fcol.handed
  resets : t.fcol.resets = s.fcol.resets
  chipReset : t.fcol.chipReset = s.fcol.chipReset
  rows : t.spare.rows = s.spare.rows
  retiring : t.place.retiring = s.place.retiring
  mem : MemKept s t

/-- And the records and their counters too. -/
structure RecsKept (s t : State) : Prop extends FaultKept s t where
  recs : t.fcol.recs = s.fcol.recs
  counts : ∀ a ∈ recCounters, t.rd a = s.rd a

variable {s t u : State}

theorem FaultKept.trans (h : FaultKept s t) (k : FaultKept t u) : FaultKept s u :=
  ⟨k.deliv.trans h.deliv, k.seen.trans h.seen, k.declared.trans h.declared, k.handed.trans h.handed, k.resets.trans h.resets,
    k.chipReset.trans h.chipReset, k.rows.trans h.rows, k.retiring.trans h.retiring, h.mem.trans k.mem⟩

theorem FaultKept.calm (h : FaultKept s t) (hc : Calm s) : Calm t := hc.of_parts h.handed h.declared h.rows h.retiring

namespace RecsKept

theorem refl (s : State) : RecsKept s s := ⟨⟨rfl, rfl, rfl, rfl, rfl, rfl, rfl, rfl, .refl s⟩, rfl, fun _ _ => rfl⟩

theorem trans (h : RecsKept s t) (k : RecsKept t u) : RecsKept s u :=
  ⟨h.toFaultKept.trans k.toFaultKept, k.recs.trans h.recs, fun a ha => (k.counts a ha).trans (h.counts a ha)⟩

theorem ite {p : Prop} [Decidable p] {t u : State} (ht : p → RecsKept s t) (hu : ¬p → RecsKept s u) : RecsKept s (if p then t else u) := by
  split
  next h => exact ht h
  next h => exact hu h

theorem record (h : RecsKept s t) (i : Nat) : t.record i = s.record i := by
  unfold State.record
  rw [h.recs]

theorem inc {a : Nat} (s : State) (n : Nat) (h : a ∉ recCounters) : RecsKept s (s.inc a n) := by
  refine ⟨⟨?_, ?_, ?_, ?_, ?_, ?_, ?_, ?_, inc_memKept ..⟩, ?_, fun b hb => ?_⟩ <;> try simp
  rintro rfl
  exact absurd hb h

theorem wr {a : Nat} (s : State) (v : Word) (h : a ∉ recCounters) : RecsKept s (s.wr a v) :=
  ⟨⟨rfl, rfl, rfl, rfl, rfl, rfl, rfl, rfl, wr_memKept ..⟩, rfl, fun _ hb => rd_wr_other _ _ _ _ fun e => h (e ▸ hb)⟩

theorem put {a : Nat} (s : State) (f : Fld) (n : Nat) (h : a ∉ recCounters) : RecsKept s (s.put a f n) := wr s _ h
theorem flag {a : Nat} (s : State) (f : Fld) (b : Bool) (h : a ∉ recCounters) : RecsKept s (s.flag a f b) := wr s _ h

theorem logRec (s : State) (e : Event) : RecsKept s (s.logRec e) :=
  ⟨⟨rfl, rfl, rfl, rfl, rfl, rfl, rfl, rfl, ⟨rfl, rfl, rfl, rfl, rfl, rfl⟩⟩, rfl, fun _ _ => rfl⟩

theorem xact (s : State) (x : XactState) : RecsKept s { s with xact := x } :=
  ⟨⟨rfl, rfl, rfl, rfl, rfl, rfl, rfl, rfl, ⟨rfl, rfl, rfl, rfl, rfl, rfl⟩⟩, rfl, fun _ _ => rfl⟩

theorem queueEvent (s : State) (e : Event) : RecsKept s (s.queueEvent e) := by
  unfold State.queueEvent
  generalize (if e.nma then 64 else 56) = room
  refine ite (fun _ => refl s) fun _ => ite (fun _ => ?_) fun _ => ?_
  · exact (xact s _).trans (inc _ _ (by decide))
  · exact (xact s _).trans (xact _ _)

theorem msixRequest (s : State) (v : Nat) : RecsKept s (s.msixRequest v) := by
  unfold State.msixRequest
  refine ite (fun _ => inc _ _ (by decide)) fun _ => ite (fun _ => refl s) fun _ => ?_
  exact ⟨⟨rfl, rfl, rfl, rfl, rfl, rfl, rfl, rfl, ⟨rfl, rfl, rfl, rfl, rfl, rfl⟩⟩, rfl, fun _ _ => rfl⟩

theorem syncFc (s : State) : RecsKept s s.syncFc :=
  ((((put s _ _ (by decide)).trans (flag _ _ _ (by decide))).trans (flag _ _ _ (by decide))).trans (wr _ _ (by decide))).trans
    (wr _ _ (by decide))

theorem releaseAlert (s : State) : RecsKept s s.releaseAlert := by
  unfold State.releaseAlert
  refine ite (fun _ => ?_) fun _ => syncFc s
  exact RecsKept.trans (t := s.unasserted) ⟨⟨rfl, rfl, rfl, rfl, rfl, rfl, rfl, rfl, ⟨rfl, rfl, rfl, rfl, rfl, rfl⟩⟩, rfl, fun _ _ => rfl⟩
    (syncFc _)

theorem syncRetest (s : State) : RecsKept s s.syncRetest := (put s _ _ (by decide)).trans (flag _ _ _ (by decide))

theorem perfEvent (s : State) (pg : Nat) (p : Word → Bool) (n : Nat) : RecsKept s (s.perfEvent pg p n) := by
  refine ⟨⟨?_, ?_, ?_, ?_, ?_, ?_, ?_, ?_, ?_⟩, ?_, fun a _ => rd_eq_of_regs (by simp) a⟩ <;> simp [MemKept]

theorem perfNma (s : State) : RecsKept s s.perfNma := by
  have hsnap : ∀ u : State, RecsKept u u.perfSnapshot := fun u => by
    refine RecsKept.trans (t := { u with perf := { u.perf with snaps := u.perf.ctrs } })
      ⟨⟨rfl, rfl, rfl, rfl, rfl, rfl, rfl, rfl, ⟨rfl, rfl, rfl, rfl, rfl, rfl⟩⟩, rfl, fun _ _ => rfl⟩ ?_
    exact (((wr _ _ (by decide)).trans (wr _ _ (by decide))).trans (inc _ _ (by decide))).trans (flag _ _ _ (by decide))
  have hfreeze : ∀ u : State, RecsKept u (u.perfFreeze true) := fun u => (flag u _ _ (by decide)).trans (flag _ _ _ (by decide))
  have h1 : RecsKept s (if s.on R.PERF_PERF_CTL F.PERF_PERF_CTL_SNAP_ON_NMA then s.perfSnapshot else s) :=
    ite (fun _ => hsnap s) fun _ => refl s
  unfold State.perfNma
  dsimp only
  exact h1.trans (ite (fun _ => hfreeze _) fun _ => refl _)

end RecsKept

namespace State

variable {i : Nat}

/-- With no reset asked for, what follows a delivery or a level change is the ladders' alone. -/
theorem afterFault_eq {old t u : State} (hu : RecsKept t u) (hc : Calm t) (hr : t.fcol.resets = []) (hx : t.fcol.chipReset = false)
    (he : (if t.rd R.FCOL_NMAS = old.rd R.FCOL_NMAS then t else t.perfNma) = u) : old.afterFault t = u.settle := by
  unfold afterFault
  dsimp only
  rw [he]
  have hcu := hu.calm hc
  have h1 : u.runResets = u := by
    unfold runResets
    rw [hu.resets.trans hr]
    refine Eq.trans (b := { u with fcol := { u.fcol with resets := [] } }) rfl ?_
    rw [← hu.resets.trans hr]
  have hchip := settle_same (·.fcol.chipReset) hcu (fun _ _ _ _ => rfl) (fun _ _ => rfl) (fun _ _ _ => by simp) (fun _ _ => rfl)
  rw [h1]
  exact if_pos (by rw [hchip, hu.chipReset, hx]; rfl)

/-- What follows leaves the records, the waiting deliveries and the stored state alone. -/
theorem afterFault_spec (old : State) {t : State} (hc : Calm t) (hr : t.fcol.resets = []) (hx : t.fcol.chipReset = false) :
    (old.afterFault t).fcol.recs = t.fcol.recs ∧ (old.afterFault t).fcol.deliv = t.fcol.deliv ∧
      (old.afterFault t).fcol.seen = t.fcol.seen ∧ (∀ a ∈ recCounters, (old.afterFault t).rd a = t.rd a) ∧
      MemKept t (old.afterFault t) := by
  have hu : RecsKept t (if t.rd R.FCOL_NMAS = old.rd R.FCOL_NMAS then t else t.perfNma) :=
    .ite (fun _ => .refl t) fun _ => .perfNma t
  have hcu := hu.calm hc
  rw [afterFault_eq hu hc hr hx rfl, settle_fcol_recs hcu, settle_fcol_deliv hcu, settle_fcol_seen hcu]
  refine ⟨hu.recs, hu.deliv, hu.seen, fun a ha => (settle_rd hcu a ?_).trans (hu.counts a ha), hu.mem.trans (.settle hcu)⟩
  revert a
  decide

/-! ### Opening, merging and closing -/

theorem setRec_kept (s : State) (i : Nat) (r : Rec) : FaultKept s (s.setRec i r) :=
  ⟨rfl, rfl, rfl, rfl, rfl, rfl, rfl, rfl, ⟨rfl, rfl, rfl, rfl, rfl, rfl⟩⟩

theorem alert_spec (s : State) (i : Nat) : FaultKept s (s.alert i) ∧ (∀ a, (s.alert i).rd a = s.rd a) ∧
    ∀ j, (s.alert i).record j = if j = i then { s.record i with alert := true } else s.record j :=
  ⟨⟨rfl, rfl, rfl, rfl, rfl, rfl, rfl, rfl, ⟨rfl, rfl, rfl, rfl, rfl, rfl⟩⟩, fun _ => rfl, fun j => record_setRec i j _⟩

/-- The parts of a reaction before the ALERT bit. -/
def reactEvents (s : State) (i : Nat) (shown : Rec) : State :=
  let w := s.reactEntry shown.page shown.source
  let nma := w.getLsbD 4
  let int := w.getLsbD 3 && !s.masked shown.page shown.source
  let e := recEvent i shown nma 0 shown.ts
  let s := s.logRec e
  let s := if nma || int then (s.queueEvent e).msixRequest (F.FCOL_REACT_VAL_VECTOR.get w) else s
  if nma then s.inc R.FCOL_NMAS else s

theorem reactEvents_kept (s : State) (i : Nat) (shown : Rec) : RecsKept s (s.reactEvents i shown) := by
  unfold reactEvents
  dsimp only
  refine RecsKept.trans ?_ (RecsKept.ite (fun _ => RecsKept.inc _ _ (by decide)) fun _ => RecsKept.refl _)
  exact (RecsKept.logRec s _).trans (RecsKept.ite (fun _ => (RecsKept.queueEvent _ _).trans (.msixRequest _ _)) fun _ => .refl _)

/-- An entry that asks for no reset. -/
theorem react_eq (s : State) (i : Nat) (c : Rec) (h5 : (s.reactEntry c.page c.source).getLsbD 5 = false)
    (h6 : (s.reactEntry c.page c.source).getLsbD 6 = false) : s.react i c =
      if (s.reactEntry c.page c.source).getLsbD 4 || (s.reactEntry c.page c.source).getLsbD 7 then (s.reactEvents i c).alert i
      else s.reactEvents i c := by
  unfold react
  dsimp only
  rw [h5, h6]
  rfl

theorem react_spec (s : State) (i : Nat) (c : Rec) (h5 : (s.reactEntry c.page c.source).getLsbD 5 = false)
    (h6 : (s.reactEntry c.page c.source).getLsbD 6 = false) : FaultKept s (s.react i c) ∧
      (∀ a ∈ recCounters, (s.react i c).rd a = s.rd a) ∧
      ∃ b, ∀ j, (s.react i c).record j = if j = i then { s.record i with alert := b } else s.record j := by
  rw [react_eq s i c h5 h6]
  have hk := reactEvents_kept s i c
  generalize s.reactEvents i c = t at *
  split
  · obtain ⟨h1, h2, h3⟩ := alert_spec t i
    refine ⟨hk.toFaultKept.trans h1, fun a ha => (h2 a).trans (hk.counts a ha), true, fun j => ?_⟩
    rw [h3, hk.record, hk.record]
  · refine ⟨hk.toFaultKept, hk.counts, (s.record i).alert, fun j => ?_⟩
    rw [hk.record]
    split
    next h => rw [h]
    · rfl

/-- The record that a raise opens. -/
def opened (s : State) (c : Rec) : Rec := { c with
  isOpen := true, valid := true, cls := F.FCOL_REACT_VAL_CLASS.get (s.reactEntry c.page c.source), lastTs := c.ts
  entry := s.reactEntry c.page c.source }

theorem raise_eq {c : Rec} (hs : silentEntry (s.reactEntry c.page c.source) = false) (hf : s.freeRec = some i) :
    s.raise c = (((s.setRec i (s.opened c)).inc R.FCOL_RAISES).react i (s.opened c)).releaseAlert := by
  unfold raise
  dsimp only
  rw [if_neg (ne_true_of_eq_false hs), hf]
  rfl

theorem reactEntry_inc (s : State) (a n pg b : Nat) : (s.inc a n).reactEntry pg b = s.reactEntry pg b := by
  unfold reactEntry reactRaw
  rw [inc_fcol_react]

/-- A raise opens one record, in the lowest free place. -/
theorem raise_spec {c : Rec} (hs : silentEntry (s.reactEntry c.page c.source) = false) (hf : s.freeRec = some i)
    (h5 : (s.reactEntry c.page c.source).getLsbD 5 = false) (h6 : (s.reactEntry c.page c.source).getLsbD 6 = false) :
    FaultKept s (s.raise c) ∧ (s.raise c).rd R.FCOL_RAISES = s.rd R.FCOL_RAISES + 1 ∧
      ∃ b, ∀ j, (s.raise c).record j = if j = i then { s.opened c with alert := b } else s.record j := by
  rw [raise_eq hs hf]
  have hset := setRec_kept s i (s.opened c)
  have hrec : ∀ j, (s.setRec i (s.opened c)).record j = if j = i then s.opened c else s.record j := fun j => record_setRec i j _
  have hrd : ∀ a, (s.setRec i (s.opened c)).rd a = s.rd a := fun _ => rfl
  have hent : (s.setRec i (s.opened c)).reactEntry c.page c.source = s.reactEntry c.page c.source := rfl
  have hpage : (s.opened c).page = c.page ∧ (s.opened c).source = c.source := ⟨rfl, rfl⟩
  generalize s.setRec i (s.opened c) = t at *
  generalize s.opened c = o at *
  obtain ⟨hp, hb⟩ := hpage
  rw [← hent, ← hp, ← hb] at h5 h6
  have hmem : FaultKept t (t.inc R.FCOL_RAISES) := by
    refine ⟨?_, ?_, ?_, ?_, ?_, ?_, ?_, ?_, inc_memKept ..⟩ <;> simp
  have hr2 : ∀ j, (t.inc R.FCOL_RAISES).record j = t.record j := fun j => by
    unfold record
    rw [inc_fcol_recs]
  obtain ⟨k1, k2, b, k3⟩ := react_spec (t.inc R.FCOL_RAISES) i o (by rwa [reactEntry_inc]) (by rwa [reactEntry_inc])
  have hrel := RecsKept.releaseAlert ((t.inc R.FCOL_RAISES).react i o)
  refine ⟨((hset.trans hmem).trans k1).trans hrel.toFaultKept, ?_, b, fun j => ?_⟩
  · rw [hrel.counts _ (by decide), k2 _ (by decide), rd_inc, if_pos rfl, hrd]
    rfl
  · rw [hrel.record, k3, hr2, hr2, hrec, if_pos rfl, hrec]
    split <;> rfl

/-- A record with one error more. -/
def mergedInto (s : State) (i : Nat) (ts : Word64) : Rec := { s.record i with merges := (s.record i).merges + 1, lastTs := ts }

/-- Counting a record's event. -/
theorem countRec_spec (s : State) (i : Nat) (r : Rec) (a : Nat) : FaultKept s ((s.setRec i r).inc a) ∧
    (∀ b, ((s.setRec i r).inc a).rd b = if b = a then s.rd a + 1 else s.rd b) ∧
    ∀ j, ((s.setRec i r).inc a).record j = if j = i then r else s.record j := by
  have hset := setRec_kept s i r
  have hrec : ∀ j, (s.setRec i r).record j = if j = i then r else s.record j := fun j => record_setRec i j _
  have hrd : ∀ a, (s.setRec i r).rd a = s.rd a := fun _ => rfl
  generalize s.setRec i r = t at *
  refine ⟨hset.trans ?_, fun b => ?_, fun j => ?_⟩
  · refine ⟨?_, ?_, ?_, ?_, ?_, ?_, ?_, ?_, inc_memKept ..⟩ <;> simp
  · rw [rd_inc, hrd, hrd]
    rfl
  · rw [← hrec]
    unfold record
    rw [inc_fcol_recs]

theorem mergeRec_spec (s : State) (i : Nat) (ev : Bool) (ts : Word64) : FaultKept s (s.mergeRec i ev ts) ∧
    (∀ a ∈ recCounters, (s.mergeRec i ev ts).rd a = if a = R.FCOL_MERGES then s.rd R.FCOL_MERGES + 1 else s.rd a) ∧
    ∀ j, (s.mergeRec i ev ts).record j = if j = i then s.mergedInto i ts else s.record j := by
  have he : RecsKept ((s.setRec i (s.mergedInto i ts)).inc R.FCOL_MERGES) (s.mergeRec i ev ts) :=
    (RecsKept.logRec _ _).trans (RecsKept.ite (fun _ => (RecsKept.queueEvent _ _).trans (.msixRequest _ _)) fun _ => .refl _)
  obtain ⟨h1, h2, h3⟩ := countRec_spec s i (s.mergedInto i ts) R.FCOL_MERGES
  exact ⟨h1.trans he.toFaultKept, fun a ha => (he.counts a ha).trans (h2 a), fun j => (he.record j).trans (h3 j)⟩

/-- A record that is open no more. -/
def closed (s : State) (i : Nat) : Rec := { s.record i with isOpen := false }

theorem closeRec_spec (s : State) (i : Nat) : FaultKept s (s.closeRec i) ∧
    (s.closeRec i).rd R.FCOL_RECOVERIES = s.rd R.FCOL_RECOVERIES + 1 ∧
    ∀ j, (s.closeRec i).record j = if j = i then s.closed i else s.record j := by
  have he : RecsKept ((s.setRec i (s.closed i)).inc R.FCOL_RECOVERIES) (s.closeRec i) :=
    ((RecsKept.logRec _ _).trans (RecsKept.ite (fun _ => (RecsKept.queueEvent _ _).trans (.msixRequest _ _)) fun _ => .refl _)).trans
      (.syncFc _)
  obtain ⟨h1, h2, h3⟩ := countRec_spec s i (s.closed i) R.FCOL_RECOVERIES
  exact ⟨h1.trans he.toFaultKept, ((he.counts _ (by decide)).trans (h2 _)).trans (if_pos rfl), fun j => (he.record j).trans (h3 j)⟩

/-! ### The next delivery -/

/-- The delivery that is taken waits no more. -/
def undelivered (s : State) (d : Delivery) : State := { s with fcol := { s.fcol with deliv := s.fcol.deliv.erase d } }

/-- A delivery of a kind that feeds no bucket and starts no retest. -/
theorem countedDelivery_eq {d : Delivery} (hn : s.nextDelivery = some d) (hf : feeds d.kind d.resource = none)
    (hr : retestKind d.kind = false) :
    s.countedDelivery none = ((s.undelivered d).arrive ((s.undelivered d).captureOf d)).syncRetest := by
  have hfeed : ∀ u : State, u.feed d.kind d.resource d.weighted = u := fun u => by
    unfold feed
    rw [hf]
  have hask : ∀ u : State, u.askRetest d.kind d.resource = u := fun u => by
    unfold askRetest
    rw [hr]
    rfl
  unfold countedDelivery
  rw [hn]
  refine Eq.trans (b := (s.undelivered d).takeDelivery d) rfl ?_
  unfold takeDelivery
  dsimp only
  rw [hfeed, hask]

theorem arrive_new {c : Rec} (h : s.openRec c.page c.source c.resource = none) : s.arrive c = s.raise c := by
  unfold arrive
  rw [h]

theorem arrive_again {c r : Rec} (h : s.openRec c.page c.source c.resource = some (i, r)) :
    s.arrive c = (s.mergeRec i true c.ts).syncFc := by
  unfold arrive
  rw [h]

/-! ### Levels -/

theorem roseEnd_unseen {pg b : Nat} (h : s.levelSeen pg b = false) : s.roseEnd pg b = s := by
  unfold roseEnd
  cases roseSource pg b with
  | none => rfl
  | some a => exact if_neg (ne_true_of_eq_false h)

/-- The record of a level source. -/
def levelRec (s : State) (pg b : Nat) (evt : Word) : Rec := {
  page := pg, source := b, ts := s.ts, value := evt, resource := (s.levelDetail pg b).1, bucket := (s.levelDetail pg b).2 }

/-- A rising level with no record open. -/
theorem levelTo_rise {pg b : Nat} {evt : Word} (hs : s.levelSeen pg b = false) (hd : firstOf pg ≠ 0x1C0 ∨ b ≠ 1)
    (hr : ∀ e ∈ s.fcol.recs, e.2.isOpen = false) :
    s.levelTo pg b true evt = (s.setSeen pg b true).raise ((s.setSeen pg b true).levelRec pg b evt) := by
  have hfind : (s.setSeen pg b true).fcol.recs.find? (fun e => e.1 < 63 && e.2.isOpen && e.2.page == pg && e.2.source == b) = none :=
    List.find?_eq_none.mpr fun e he => by simp [hr e he]
  have habs : (s.setSeen pg b true).declareAbsent pg b = s.setSeen pg b true := by
    unfold declareAbsent
    exact if_neg fun h => hd.elim (· h.1) (· h.2)
  unfold levelTo
  dsimp only
  rw [if_neg (by simp [hs]), if_neg (by simp), habs, hfind]
  rfl

theorem setSeen_seen (s : State) (pg b : Nat) (x : Bool) : (s.setSeen pg b x).levelSeen pg b = x :=
  Sys2Proof.Laws.SMap.get_set_same _ _ _ _

/-- Noting a level changes nothing else. -/
theorem setSeen_spec (s : State) (pg b : Nat) (x : Bool) : (s.setSeen pg b x).fcol.react = s.fcol.react ∧
    (s.setSeen pg b x).fcol.recs = s.fcol.recs ∧ (s.setSeen pg b x).regs = s.regs ∧
    (s.setSeen pg b x).fcol.resets = s.fcol.resets ∧ (s.setSeen pg b x).fcol.chipReset = s.fcol.chipReset ∧
    (Calm s → Calm (s.setSeen pg b x)) ∧ MemKept s (s.setSeen pg b x) :=
  ⟨rfl, rfl, rfl, rfl, rfl, fun h => h.of_parts rfl rfl rfl rfl, ⟨rfl, rfl, rfl, rfl, rfl, rfl⟩⟩

theorem freeRec_zero (h : ∀ e ∈ s.fcol.recs, e.2.isOpen = false) : s.freeRec = some 0 := by
  have h0 : (s.record 0).isOpen = false := by
    unfold record
    by_cases hz : SMap.get (fun _ => ({} : Rec)) s.fcol.recs 0 = {}
    · rw [hz]
    · exact h _ (Sys2Proof.Laws.SMap.mem_of_get (d := fun _ => ({} : Rec)) hz)
  exact List.find?_cons_of_pos (p := fun i => !(s.record i).isOpen) (a := 0) (l := (List.range 62).map (· + 1)) (by simp [h0])

/-- A source's counter that rose lately no more. -/
theorem setRose_levelBit {pg b a : Nat} (h : roseSource pg b = some a) : (s.setRose a).levelBit pg b = false := by
  have hl : (s.setRose a).roseLately a = false := by
    unfold roseLately
    have hr : (s.setRose a).fcol.rose = SMap.set (fun _ => 0) a 0 s.fcol.rose := rfl
    rw [hr, Sys2Proof.Laws.SMap.get_set_same]
    simp
  unfold roseSource at h
  unfold levelBit
  split at h
  next hc =>
    obtain ⟨rfl, rfl⟩ := hc
    cases h
    have : (s.setRose R.DEV_ACC_ERR_CNT).pageLevels 0 = [(s.setRose R.DEV_ACC_ERR_CNT).roseLately R.DEV_ACC_ERR_CNT] := rfl
    rw [this, hl]
    exact Bool.and_false _
  · split at h
    next hc =>
      obtain ⟨rfl, rfl⟩ := hc
      cases h
      have : (s.setRose R.SPI_FLASH_ERRORS).pageLevels 0x011 = (s.setRose R.SPI_FLASH_ERRORS).spiLevels := rfl
      rw [this, spiLevels, hl]
      exact Bool.and_false _
    · split at h
      next hc =>
        obtain ⟨rfl, rfl⟩ := hc
        cases h
        have : (s.setRose R.FUSE_DRIFTS).pageLevels 6 = (s.setRose R.FUSE_DRIFTS).fuseLevels := rfl
        rw [this, fuseLevels, hl]
        exact Bool.and_false _
      · cases h

theorem roseEnd_spec (pg b : Nat) (h : s.levelBit pg b = false) : (s.roseEnd pg b).levelBit pg b = false ∧
    (s.roseEnd pg b).regs = s.regs ∧ RecsKept s (s.roseEnd pg b) := by
  unfold roseEnd
  cases hs : roseSource pg b with
  | none => exact ⟨h, rfl, .refl s⟩
  | some a =>
    dsimp only
    split
    · exact ⟨setRose_levelBit hs, rfl, ⟨⟨rfl, rfl, rfl, rfl, rfl, rfl, rfl, rfl, ⟨rfl, rfl, rfl, rfl, rfl, rfl⟩⟩, rfl, fun _ _ => rfl⟩⟩
    · exact ⟨h, rfl, .refl s⟩

/-- A level that is 0 is noted. -/
theorem levelTo_low (pg b : Nat) (evt : Word) : (s.levelTo pg b false evt).levelSeen pg b = false ∧
    (s.levelTo pg b false evt).regs = s.regs ∧ (s.levelTo pg b false evt).fcol.recs = s.fcol.recs ∧
    (s.levelTo pg b false evt).fcol.resets = s.fcol.resets ∧ (s.levelTo pg b false evt).fcol.chipReset = s.fcol.chipReset ∧
    (Calm s → Calm (s.levelTo pg b false evt)) ∧ MemKept s (s.levelTo pg b false evt) := by
  unfold levelTo
  split
  next h => exact ⟨h.symm, rfl, rfl, rfl, rfl, fun h => h, .refl s⟩
  · exact ⟨setSeen_seen s pg b false, rfl, rfl, rfl, rfl, fun h => h.of_parts rfl rfl rfl rfl, ⟨rfl, rfl, rfl, rfl, rfl, rfl⟩⟩

/-! ### Buckets -/

theorem dropRetest_handed (s : State) (r : Word) : (s.dropRetest r).fcol.handed = s.fcol.handed := by
  unfold dropRetest
  dsimp only
  split <;> split <;> try rw [bistFree_fcol]
  all_goals rfl

theorem declare_handed {r : Word} (h : s.declared r = false) : (s.declare r).fcol.handed = s.fcol.handed ++ [r] := by
  rw [declare_eq s r h, inc_fcol_handed, report_fcol_handed, dropRetest_handed]
  rfl

theorem fill_eq {r : Word} {n b : Nat} (hb : bucketOfRes r = some b) (hd : s.declared r = false) (hn : n ≠ 0) :
    s.fill r n = if s.cap_ b < min (2 ^ 24 - 1) (s.level r + n) then
      (s.setLevelOf r (min (2 ^ 24 - 1) (s.level r + n))).declare r else s.setLevelOf r (min (2 ^ 24 - 1) (s.level r + n)) := by
  unfold fill
  rw [hb]
  exact if_neg (by simp [hd, hn])

theorem level_setLevelOf {r : Word} (hd : s.declared r = false) (n : Nat) : (s.setLevelOf r n).level r = n := by
  have hd' : (s.setLevelOf r n).declared r = false := hd
  rw [level_eq hd']
  exact Sys2Proof.Laws.SMap.get_set_same _ _ _ _

theorem fill_spec (r : Word) (n b : Nat) (hb : bucketOfRes r = some b) (hd : s.declared r = false) (hn : n ≠ 0) :
    (s.level r + n ≤ s.cap_ b → (s.fill r n).level r = min (2 ^ 24 - 1) (s.level r + n) ∧ (s.fill r n).declared r = false) ∧
      (s.cap_ b < min (2 ^ 24 - 1) (s.level r + n) → (s.fill r n).declared r = true ∧ r ∈ (s.fill r n).fcol.handed) := by
  rw [fill_eq hb hd hn]
  refine ⟨fun h => ?_, fun h => ?_⟩
  · rw [if_neg (by omega)]
    exact ⟨level_setLevelOf hd _, hd⟩
  · rw [if_pos h]
    have hd' : (s.setLevelOf r (min (2 ^ 24 - 1) (s.level r + n))).declared r = false := hd
    rw [declare_handed hd']
    exact ⟨declared_declare_self, by simp⟩

end State
end Sys2Proof.Machine

namespace Sys2Proof.Safety
open Sys2Proof.Machine Sys2Proof.Machine.State

variable {s : State}

theorem levelChange_rise {pg b : Nat} (hl : s.levelBit pg b = true) (hn : s.levelSeen pg b = false) :
    s.levelChange pg b = (s.perfEdge pg b).levelTo pg b true (s.evtStat pg) := by
  have h := roseEnd_unseen hn
  unfold levelChange
  dsimp only
  rw [h]
  exact if_pos (by rw [hl, hn]; rfl)

/-- What follows, for one record. -/
theorem afterFault_record (old : State) {t : State} (hc : Calm t) (hr : t.fcol.resets = []) (hx : t.fcol.chipReset = false) (j : Nat) :
    (old.afterFault t).record j = t.record j := by
  obtain ⟨h, -⟩ := afterFault_spec old hc hr hx
  unfold record
  rw [h]

theorem countedDelivery_opens (d : Delivery) (i : Nat) (hc : Calm s) (hres : s.fcol.resets = []) (hchip : s.fcol.chipReset = false)
    (hn : s.nextDelivery = some d) (hf : feeds d.kind d.resource = none) (hk : retestKind d.kind = false)
    (ho : s.openRec 2 d.kind d.resource = none) (hi : s.freeRec = some i) (hs : State.silentEntry (s.reactEntry 2 d.kind) = false)
    (h5 : (s.reactEntry 2 d.kind).getLsbD 5 = false) (h6 : (s.reactEntry 2 d.kind).getLsbD 6 = false) :
    Gives (.countedDelivery none) s fun t =>
      (t.record i).isOpen = true ∧ (t.record i).page = 2 ∧ (t.record i).source = d.kind ∧
        (t.record i).resource = d.resource ∧ (t.record i).addr = d.addr ∧ (t.record i).ts = d.ts ∧
        (t.record i).merges = 0 ∧ (t.record i).cls = F.FCOL_REACT_VAL_CLASS.get (s.reactEntry 2 d.kind) ∧
        (∀ j : Fin 64, j.val ≠ i → t.record j = s.record j) ∧
        t.rd R.FCOL_RAISES = s.rd R.FCOL_RAISES + 1 ∧ t.fcol.deliv = s.fcol.deliv.erase d ∧ MemKept s t := by
  have he := countedDelivery_eq hn hf hk
  rw [arrive_new (s := s.undelivered d) (c := (s.undelivered d).captureOf d) ho] at he
  obtain ⟨k1, k2, b, k3⟩ := raise_spec (s := s.undelivered d) (c := (s.undelivered d).captureOf d) hs hi h5 h6
  have hu : (s.undelivered d).fcol.deliv = s.fcol.deliv.erase d ∧ (s.undelivered d).fcol.resets = s.fcol.resets ∧
    (s.undelivered d).fcol.chipReset = s.fcol.chipReset ∧ Calm (s.undelivered d) ∧ MemKept s (s.undelivered d) :=
    ⟨rfl, rfl, rfl, hc, ⟨rfl, rfl, rfl, rfl, rfl, rfl⟩⟩
  have hsync := RecsKept.syncRetest ((s.undelivered d).raise ((s.undelivered d).captureOf d))
  have hother : ∀ j, (s.undelivered d).record j = s.record j := fun _ => rfl
  have hrd : (s.undelivered d).rd R.FCOL_RAISES = s.rd R.FCOL_RAISES := rfl
  have hopen : ((s.undelivered d).opened ((s.undelivered d).captureOf d)).isOpen = true ∧
      ((s.undelivered d).opened ((s.undelivered d).captureOf d)).page = 2 ∧
      ((s.undelivered d).opened ((s.undelivered d).captureOf d)).source = d.kind ∧
      ((s.undelivered d).opened ((s.undelivered d).captureOf d)).resource = d.resource ∧
      ((s.undelivered d).opened ((s.undelivered d).captureOf d)).addr = d.addr ∧
      ((s.undelivered d).opened ((s.undelivered d).captureOf d)).ts = d.ts ∧
      ((s.undelivered d).opened ((s.undelivered d).captureOf d)).merges = 0 ∧
      ((s.undelivered d).opened ((s.undelivered d).captureOf d)).cls = F.FCOL_REACT_VAL_CLASS.get (s.reactEntry 2 d.kind) :=
    ⟨rfl, rfl, rfl, rfl, rfl, rfl, rfl, rfl⟩
  generalize (s.undelivered d).opened ((s.undelivered d).captureOf d) = o at *
  generalize (s.undelivered d).raise ((s.undelivered d).captureOf d) = t at *
  generalize s.undelivered d = u at *
  obtain ⟨hdel, hr1, hr2, hcu, hm⟩ := hu
  have hk := k1.trans hsync.toFaultKept
  have hall : ∀ j, t.syncRetest.record j = if j = i then { o with alert := b } else s.record j := fun j => by
    rw [hsync.record, k3, hother]
  have hraise := (hsync.counts _ (by decide)).trans (k2.trans (congrArg (· + 1) hrd))
  generalize t.syncRetest = v at *
  have hrv := hk.resets.trans (hr1.trans hres)
  have hxv := hk.chipReset.trans (hr2.trans hchip)
  obtain ⟨a1, a2, -, a3, a4⟩ := afterFault_spec s (hk.calm hcu) hrv hxv
  have hrec := fun j => (afterFault_record s (hk.calm hcu) hrv hxv j).trans (hall j)
  generalize hw : s.afterFault v = w at *
  obtain ⟨o1, o2, o3, o4, o5, o6, o7, o8⟩ := hopen
  have hi' := (hrec i).trans (if_pos rfl)
  refine gives_of_eq rfl ((congrArg s.afterFault he).trans hw) ⟨?_, ?_, ?_, ?_, ?_, ?_, ?_, ?_, fun j hj => (hrec j).trans (if_neg hj),
    (a3 _ (by decide)).trans hraise, a2.trans (hk.deliv.trans hdel), (hm.trans hk.mem).trans a4⟩ <;> rw [hi'] <;> assumption

theorem countedDelivery_merges (d : Delivery) (i : Nat) (r : Rec) (hc : Calm s) (hres : s.fcol.resets = []) (hchip : s.fcol.chipReset = false)
    (hn : s.nextDelivery = some d) (hf : feeds d.kind d.resource = none) (hk : retestKind d.kind = false)
    (ho : s.openRec 2 d.kind d.resource = some (i, r)) : Gives (.countedDelivery none) s fun t =>
      t.record i = { s.record i with merges := (s.record i).merges + 1, lastTs := d.ts } ∧
        (∀ j : Fin 64, j.val ≠ i → t.record j = s.record j) ∧ t.rd R.FCOL_MERGES = s.rd R.FCOL_MERGES + 1 ∧
        t.rd R.FCOL_RAISES = s.rd R.FCOL_RAISES ∧ t.fcol.deliv = s.fcol.deliv.erase d ∧ MemKept s t := by
  have he := countedDelivery_eq hn hf hk
  rw [arrive_again (s := s.undelivered d) (c := (s.undelivered d).captureOf d) ho] at he
  obtain ⟨k1, k2, k3⟩ := mergeRec_spec (s.undelivered d) i true ((s.undelivered d).captureOf d).ts
  have hu : (s.undelivered d).fcol.deliv = s.fcol.deliv.erase d ∧ (s.undelivered d).fcol.resets = s.fcol.resets ∧
    (s.undelivered d).fcol.chipReset = s.fcol.chipReset ∧ Calm (s.undelivered d) ∧ MemKept s (s.undelivered d) :=
    ⟨rfl, rfl, rfl, hc, ⟨rfl, rfl, rfl, rfl, rfl, rfl⟩⟩
  have hsync := (RecsKept.syncFc ((s.undelivered d).mergeRec i true ((s.undelivered d).captureOf d).ts)).trans (.syncRetest _)
  have hother : ∀ j, (s.undelivered d).record j = s.record j := fun _ => rfl
  have hrd : ∀ a, (s.undelivered d).rd a = s.rd a := fun _ => rfl
  have hinto : (s.undelivered d).mergedInto i ((s.undelivered d).captureOf d).ts =
    { s.record i with merges := (s.record i).merges + 1, lastTs := d.ts } := rfl
  generalize (s.undelivered d).mergedInto i ((s.undelivered d).captureOf d).ts = o at *
  generalize (s.undelivered d).mergeRec i true ((s.undelivered d).captureOf d).ts = t at *
  generalize s.undelivered d = u at *
  obtain ⟨hdel, hr1, hr2, hcu, hm⟩ := hu
  have hk := k1.trans hsync.toFaultKept
  have hall : ∀ j, t.syncFc.syncRetest.record j = if j = i then o else s.record j := fun j => by
    rw [hsync.record, k3, hother]
  have hcount : ∀ a ∈ recCounters, t.syncFc.syncRetest.rd a = if a = R.FCOL_MERGES then s.rd R.FCOL_MERGES + 1 else s.rd a :=
    fun a ha => by rw [hsync.counts a ha, k2 a ha, hrd, hrd]
  generalize t.syncFc.syncRetest = v at *
  have hrv := hk.resets.trans (hr1.trans hres)
  have hxv := hk.chipReset.trans (hr2.trans hchip)
  obtain ⟨-, a2, -, a3, a4⟩ := afterFault_spec s (hk.calm hcu) hrv hxv
  have hrec := fun j => (afterFault_record s (hk.calm hcu) hrv hxv j).trans (hall j)
  refine gives_of_eq rfl (congrArg s.afterFault he) ⟨(hrec i).trans ((if_pos rfl).trans hinto), fun j hj => (hrec j).trans (if_neg hj),
    (a3 _ (by decide)).trans ((hcount _ (by decide)).trans (if_pos rfl)),
    (a3 _ (by decide)).trans ((hcount _ (by decide)).trans (if_neg (by decide))), a2.trans (hk.deliv.trans hdel),
    (hm.trans hk.mem).trans a4⟩

theorem levelChange_rises (pg : BitVec 10) (b : Fin 32) (hc : Calm s) (hres : s.fcol.resets = []) (hchip : s.fcol.chipReset = false)
    (hd : firstOf pg.toNat ≠ 0x1C0 ∨ b.val ≠ 1) (hl : s.levelBit pg.toNat b = true) (hn : s.levelSeen pg.toNat b = false)
    (hr : ∀ e ∈ s.fcol.recs, e.2.isOpen = false) (hs : State.silentEntry (s.reactEntry pg.toNat b) = false)
    (h5 : (s.reactEntry pg.toNat b).getLsbD 5 = false) (h6 : (s.reactEntry pg.toNat b).getLsbD 6 = false) :
    Gives (.levelChange pg b) s fun t =>
      (t.record 0).isOpen = true ∧ (t.record 0).page = pg.toNat ∧ (t.record 0).source = b.val ∧
        t.levelSeen pg.toNat b = true ∧ t.rd R.FCOL_RAISES = s.rd R.FCOL_RAISES + 1 ∧ MemKept s t := by
  have he := levelChange_rise hl hn
  have hk : RecsKept s (s.perfEdge pg.toNat b.val) := .perfEvent s _ _ _
  have hf : (s.perfEdge pg.toNat b.val).fcol = s.fcol := perfEvent_fcol s _ _ _
  generalize s.perfEdge pg.toNat b.val = u at *
  have hseen : u.levelSeen pg.toNat b.val = false := by
    unfold levelSeen at hn ⊢
    rwa [hf]
  have hrecs : ∀ e ∈ u.fcol.recs, e.2.isOpen = false := by rwa [hf]
  rw [levelTo_rise hseen hd hrecs] at he
  have k1 := setSeen_seen u pg.toNat b.val true
  obtain ⟨k2, k3, k4, k5, k6, k7, k8⟩ := setSeen_spec u pg.toNat b.val true
  have hcap : ((u.setSeen pg.toNat b.val true).levelRec pg.toNat b.val (s.evtStat pg.toNat)).page = pg.toNat ∧
      ((u.setSeen pg.toNat b.val true).levelRec pg.toNat b.val (s.evtStat pg.toNat)).source = b.val := ⟨rfl, rfl⟩
  obtain ⟨hp, hb⟩ := hcap
  generalize (u.setSeen pg.toNat b.val true).levelRec pg.toNat b.val (s.evtStat pg.toNat) = c at *
  generalize u.setSeen pg.toNat b.val true = v at *
  have hent : v.reactEntry c.page c.source = s.reactEntry pg.toNat b.val := by
    unfold reactEntry reactRaw
    rw [k2, hf, hp, hb]
  have hfree : v.freeRec = some 0 := freeRec_zero (by rwa [k3])
  obtain ⟨r1, r2, x, r3⟩ := raise_spec (s := v) (c := c) (by rwa [hent]) hfree (by rwa [hent]) (by rwa [hent])
  have hpage : (v.opened c).isOpen = true ∧ (v.opened c).page = c.page ∧ (v.opened c).source = c.source := ⟨rfl, rfl, rfl⟩
  generalize v.opened c = o at *
  generalize v.raise c = t at *
  have hct := r1.calm (k7 (hk.calm hc))
  have hrt := r1.resets.trans (k5.trans (hk.resets.trans hres))
  have hxt := r1.chipReset.trans (k6.trans (hk.chipReset.trans hchip))
  obtain ⟨-, -, a2, a3, a4⟩ := afterFault_spec s hct hrt hxt
  have hrec := (afterFault_record s hct hrt hxt 0).trans ((r3 0).trans (if_pos rfl))
  obtain ⟨o1, o2, o3⟩ := hpage
  refine gives_of_eq rfl (congrArg s.afterFault he) ⟨?_, ?_, ?_, ?_, ?_,
    ((hk.mem.trans k8).trans r1.mem).trans a4⟩
  · rw [hrec]
    exact o1
  · rw [hrec]
    exact o2.trans hp
  · rw [hrec]
    exact o3.trans hb
  · unfold levelSeen at k1 ⊢
    rw [a2, r1.seen]
    exact k1
  · rw [a3 _ (by decide), r2, rd_eq_of_regs k4, hk.counts _ (by decide)]

theorem levelChange_low (pg : BitVec 10) (b : Fin 32) (hc : Calm s) (hres : s.fcol.resets = []) (hchip : s.fcol.chipReset = false)
    (hl : s.levelBit pg.toNat b = false) : Gives (.levelChange pg b) s fun t =>
      t.levelSeen pg.toNat b = false ∧ t.fcol.recs = s.fcol.recs ∧ MemKept s t ∧ RegsKept s t [0x014] [] := by
  obtain ⟨h1, h2, h3⟩ := roseEnd_spec pg.toNat b.val hl
  have he : s.levelChange pg.toNat b.val = (s.roseEnd pg.toNat b.val).levelTo pg.toNat b.val false ((s.roseEnd pg.toNat b.val).evtStat pg.toNat) := by
    unfold levelChange
    dsimp only
    rw [h1]
    rfl
  obtain ⟨k1, k2, k3, k4, k5, k6, k7⟩ := levelTo_low (s := s.roseEnd pg.toNat b.val) pg.toNat b.val ((s.roseEnd pg.toNat b.val).evtStat pg.toNat)
  generalize (s.roseEnd pg.toNat b.val).levelTo pg.toNat b.val false ((s.roseEnd pg.toNat b.val).evtStat pg.toNat) = t at *
  have hregs := k2.trans h2
  have hct := k6 (h3.calm hc)
  have hset : s.afterFault t = t.settle := afterFault_eq (.refl t) hct (k4.trans (h3.resets.trans hres)) (k5.trans (h3.chipReset.trans hchip))
    (if_pos (rd_eq_of_regs hregs _))
  refine gives_of_eq rfl ((congrArg s.afterFault he).trans hset) ⟨?_, (settle_fcol_recs hct).trans (k3.trans h3.recs),
    (h3.mem.trans k7).trans (.settle hct), (RegsKept.of_regs (.refl s) hregs).trans (.settle hct (by simp))⟩
  unfold levelSeen
  rw [settle_fcol_seen hct]
  exact k1

theorem recordRecover_closes (i : Fin 64) (ho : (s.record i).isOpen = true) (ha : s.recActive (s.record i) = false) :
    Gives (.recordRecover i) s fun t =>
      t.record i = { s.record i with isOpen := false } ∧ (∀ j : Fin 64, j ≠ i → t.record j = s.record j) ∧
        t.rd R.FCOL_RECOVERIES = s.rd R.FCOL_RECOVERIES + 1 ∧ MemKept s t := by
  obtain ⟨h1, h2, h3⟩ := closeRec_spec s i.val
  have he : s.recordRecover i.val (s.recActive (s.record i.val)) = s.closeRec i.val := if_pos (by rw [ho, ha]; rfl)
  exact gives_of_eq rfl he ⟨(h3 i).trans (if_pos rfl), fun j hj => (h3 j).trans (if_neg fun e => hj (Fin.ext e)), h2, h1.mem⟩

theorem recordRecover_stays (i : Fin 64) (ha : s.recActive (s.record i) = true) (hi : i.val < 63) :
    exec (.recordRecover i) s = .next s := by
  have he : s.recordRecover i.val (s.recActive (s.record i.val)) = s := if_neg (by rw [ha]; simp [hi])
  exact congrArg Host.Outcome.next he

/-- Settles O38: a delivery opens or merges a record and lets every other alone; a bucket fills up to its capacity and then its
resource is declared; a level opens a record when it rises; a quiet record closes. -/
theorem faultRecords : Obligations.FaultRecords :=
  ⟨fun _ d i hc hres hchip hn hf hk ho hi hs h5 h6 => countedDelivery_opens d i hc hres hchip hn hf hk ho hi hs h5 h6,
    fun _ d i r hc hres hchip hn hf hk ho => countedDelivery_merges d i r hc hres hchip hn hf hk ho,
    fun _ r n b hb hd hn => fill_spec r n b hb hd hn,
    fun _ pg b hc hres hchip hd hl hn hr hs h5 h6 => levelChange_rises pg b hc hres hchip hd hl hn hr hs h5 h6,
    fun _ pg b hc hres hchip hl => levelChange_low pg b hc hres hchip hl,
    fun _ i ho ha => recordRecover_closes i ho ha, fun _ i _ ha hi => recordRecover_stays i ha hi⟩

end Sys2Proof.Safety
end

section
/-! SUPPORT. Patrol scrub and the rows of a SCRUB_CMD (R220, R222, R223). -/

namespace Sys2Proof.Machine
open Sys2Proof.Safety State

namespace State

variable {s : State}

theorem pch_setPch (s : State) (i j : Nat) (p : PCh) : (s.setPch i p).pch j = if j = i then p else s.pch j := by
  unfold pch setPch
  split
  next h => rw [h]; exact Sys2Proof.Laws.SMap.get_set_same ..
  next h => exact Sys2Proof.Laws.SMap.get_set_other _ h ..

/-- Walkers of a pass that has not ended. -/
theorem passEnd_self {cache : Bool} (h : s.ch.walked = []) : s.passEnd cache = s := by
  unfold passEnd
  refine if_neg fun hc => ?_
  rw [h] at hc
  cases hl : s.liveWalkers cache <;> simp [hl] at hc

/-! ### The next row of a pseudo-channel -/

/-- A row's reads are queued and its place is passed. -/
def rowWalked (s : State) (pc i : Nat) : State :=
  let s := s.scrubRow pc (walkRow pc i).1 (walkRow pc i).2 false
  { s with ch := { s.ch with walk := SMap.set (fun _ => 0) pc (i + 1) s.ch.walk } }

theorem patrolRow_eq {pc i : Nat} (hw : s.ch.walked = [])
    (hn : s.nextRow pc 33000 (SMap.get (fun _ => 0) s.ch.walk pc) = some i) : s.patrolRow pc = s.rowWalked pc i := by
  unfold patrolRow
  rw [passEnd_self hw]
  dsimp only
  rw [hw, hn]
  rfl

theorem rowWalked_spec (s : State) (pc i : Nat) : ((s.rowWalked pc i).pch pc).scrub = (s.pch pc).scrub ++
      (List.range 16).map (fun o => { write := false, f := (walkRow pc i).1, o := (walkRow pc i).2 + o, scrub := true }) ∧
    SMap.get (fun _ => 0) (s.rowWalked pc i).ch.walk pc = i + 1 ∧ (s.rowWalked pc i).regs = s.regs ∧ MemKept s (s.rowWalked pc i) := by
  have hwalk : (s.rowWalked pc i).ch.walk = SMap.set (fun _ => 0) pc (i + 1) s.ch.walk := rfl
  refine ⟨?_, by rw [hwalk, Sys2Proof.Laws.SMap.get_set_same], rfl, ⟨rfl, rfl, rfl, rfl, rfl, rfl⟩⟩
  have h : (s.rowWalked pc i).pch pc = (s.scrubRow pc (walkRow pc i).1 (walkRow pc i).2 false).pch pc := rfl
  rw [h]
  unfold scrubRow
  dsimp only
  rw [pch_setPch, if_pos rfl]

theorem scrubDue_row {c : Fin 32} {p : Bool} {i : Nat} (fl : List (Fin 4 × BitVec 576)) (hr : s.released = true)
    (hl : s.pchLive (2 * c + p.toNat) = true) (hn : s.ch.scrubRun = none) (he : s.on R.SCRUB_SCRUB_CTL F.SCRUB_SCRUB_CTL_EN = true)
    (hw : s.ch.walked = []) (hrow : s.nextRow (2 * c + p.toNat) 33000 (SMap.get (fun _ => 0) s.ch.walk (2 * c + p.toNat)) = some i) :
    s.scrubDue (.rows c p) fl = (s.rowWalked (2 * c + p.toNat) i).passProgress := by
  unfold scrubDue
  rw [if_neg (by simp [hr])]
  dsimp only
  rw [if_neg (by simp [hl]), hn]
  dsimp only [Option.bind]
  rw [if_pos he, patrolRow_eq hw hrow]

/-! ### The next sector of a cache bank -/

/-- A sector without an error is passed. -/
def sectorWalked (s : State) (b n : Nat) : State :=
  { s.inc64 R.SCRUB_WORDS_LO 4 with ch := { (s.inc64 R.SCRUB_WORDS_LO 4).ch with
    walk := SMap.set (fun _ => 0) (64 + b) (n + 1) (s.inc64 R.SCRUB_WORDS_LO 4).ch.walk } }

theorem patrolSector_eq {b : Nat} (hw : s.ch.walked = []) (hi : SMap.get (fun _ => 0) s.ch.walk (64 + b) < 65535) :
    s.patrolSector b [] = s.sectorWalked b (SMap.get (fun _ => 0) s.ch.walk (64 + b)) := by
  have h64 : walkEnd 64 = 65536 := rfl
  unfold patrolSector
  rw [passEnd_self hw]
  dsimp only
  rw [hw, if_neg (by simp), if_pos (by omega)]
  rfl

theorem sectorWalked_spec (s : State) (b n : Nat) : SMap.get (fun _ => 0) (s.sectorWalked b n).ch.walk (64 + b) = n + 1 ∧
    (s.sectorWalked b n).regs = (s.inc64 R.SCRUB_WORDS_LO 4).regs ∧ (s.sectorWalked b n).place = (s.inc64 R.SCRUB_WORDS_LO 4).place ∧
    MemKept (s.inc64 R.SCRUB_WORDS_LO 4) (s.sectorWalked b n) := by
  have hwalk : (s.sectorWalked b n).ch.walk = SMap.set (fun _ => 0) (64 + b) (n + 1) (s.inc64 R.SCRUB_WORDS_LO 4).ch.walk := rfl
  exact ⟨by rw [hwalk, Sys2Proof.Laws.SMap.get_set_same], rfl, rfl, ⟨rfl, rfl, rfl, rfl, rfl, rfl⟩⟩

theorem closeChecks_self (h : s.place.mig = []) : s.closeChecks = s := by
  unfold closeChecks
  rw [h]
  rfl

theorem scrubDue_sector {b : Fin 16} (hr : s.released = true) (hen : s.on R.SCRUB_SCRUB_CTL F.SCRUB_SCRUB_CTL_CACHE_EN = true)
    (hon : s.cacheOn = true) (hb : s.bankActive b = true) (hm : s.place.mig = []) (hw : s.ch.walked = [])
    (hi : SMap.get (fun _ => 0) s.ch.walk (64 + b) < 65535) :
    s.scrubDue (.sectors b) [] = s.sectorWalked b (SMap.get (fun _ => 0) s.ch.walk (64 + b)) := by
  obtain ⟨-, -, hp, -⟩ := sectorWalked_spec s b (SMap.get (fun _ => 0) s.ch.walk (64 + b))
  unfold scrubDue
  rw [if_neg (by simp [hr])]
  dsimp only
  rw [if_pos (by simp [hen, hon, hb]), patrolSector_eq hw hi]
  exact closeChecks_self (by rw [hp, inc64_place, hm])

theorem rd64_inc64 (s : State) (a n : Nat) : (s.inc64 a n).rd64 a = s.rd64 a + BitVec.ofNat 64 n := by
  unfold inc64
  split
  next h => subst h; simp
  · have h : ((s.wr64 a (s.rd64 a + BitVec.ofNat 64 n)).counted a n).rd64 a = (s.wr64 a (s.rd64 a + BitVec.ofNat 64 n)).rd64 a := by
      simp [rd64]
    rw [h]
    unfold rd64
    rw [rd_wr64, rd_wr64, if_pos rfl, if_neg (by omega), if_pos rfl]
    exact append_extract _

/-! ### Late reads -/

theorem foldl_erase_prefix {α : Type} [BEq α] [LawfulBEq α] (l r : List α) : l.foldl List.erase (l ++ r) = r := by
  induction l with
  | nil => rfl
  | cons a l ih => simpa using ih

/-- With every scrub read late, the read queue takes as many as it has room for. -/
theorem promote_late (q : PCh) (h : ∀ r ∈ q.scrub, r.late = true) :
    q.promote.rq = q.scrub.take (64 - q.rq.length) ++ q.rq ∧ q.promote.scrub = q.scrub.drop (64 - q.rq.length) := by
  have hf : q.scrub.filter DReq.late = q.scrub := List.filter_eq_self.mpr h
  unfold PCh.promote
  dsimp only
  rw [hf]
  refine ⟨rfl, ?_⟩
  conv => lhs; arg 2; rw [← List.take_append_drop (64 - q.rq.length) q.scrub]
  exact foldl_erase_prefix _ _

/-- A request that is late. -/
def asLate (r : DReq) : DReq := { r with late := true }

/-- The pseudo-channel's scrub reads are late. -/
def lateQueue (q : PCh) : PCh := { q with scrub := q.scrub.map asLate }

theorem scrubLate_eq (s : State) (c p : Nat) :
    s.scrubLate c p = (s.setPch (2 * c + p) (lateQueue (s.pch (2 * c + p))).promote).syncBehind := rfl

/-- A late read somewhere. -/
theorem syncBehind_on {k : Nat} {q : PCh} {r : DReq} (hr : r ∈ q.scrub ++ q.rq) (hl : r.late = true) :
    (s.setPch k q).syncBehind.on R.SCRUB_SCRUB_STAT F.SCRUB_SCRUB_STAT_BEHIND = true := by
  have hne : q ≠ ({} : PCh) := by
    rintro rfl
    simp at hr
  have hg : (s.setPch k q).pch k = q := by rw [pch_setPch, if_pos rfl]
  have hmem : (k, q) ∈ (s.setPch k q).ch.pch := by
    have := Sys2Proof.Laws.SMap.mem_of_get (d := fun _ => ({} : PCh)) (m := (s.setPch k q).ch.pch) (k := k)
      (fun h => hne (hg.symm.trans h))
    rwa [show SMap.get (fun _ => ({} : PCh)) (s.setPch k q).ch.pch k = q from hg] at this
  unfold syncBehind
  rw [on_flag_same _ _ _ _ (by decide) rfl]
  exact List.any_eq_true.mpr ⟨_, hmem, List.any_eq_true.mpr ⟨r, hr, hl⟩⟩

theorem late_of_lateQueue (q : PCh) : ∀ r ∈ (lateQueue q).scrub, r.late = true := by
  intro r hr
  obtain ⟨x, -, rfl⟩ := List.mem_map.mp hr
  rfl

/-! ### SCRUB_CMD -/

theorem scrubCmd_bits (v : Word) : F.SCRUB_SCRUB_CMD_START.get (F.SCRUB_SCRUB_CMD_START.set 1 v &&& 0xFFFFFFFF#32) = 1 ∧
    F.SCRUB_SCRUB_CMD_FRAME.get (F.SCRUB_SCRUB_CMD_START.set 1 v &&& 0xFFFFFFFF#32) = F.SCRUB_SCRUB_CMD_FRAME.get v ∧
    F.SCRUB_SCRUB_CMD_COUNT.get (F.SCRUB_SCRUB_CMD_START.set 1 v &&& 0xFFFFFFFF#32) = F.SCRUB_SCRUB_CMD_COUNT.get v := by
  refine ⟨?_, ?_, ?_⟩
  · rw [Fld.get_and _ (by decide), Fld.get_set _ _ _ (by decide)]
    rfl
  · rw [Fld.get_and _ (by decide), Fld.get_set_other _ _ _ _ (by decide)]
  · rw [Fld.get_and _ (by decide), Fld.get_set_other _ _ _ _ (by decide)]

theorem regSet_scrubCmd (w : RegWrite) (ho : Open s w.path R.SCRUB_SCRUB_CMD) : s.regSet w R.SCRUB_SCRUB_CMD F.SCRUB_SCRUB_CMD_START =
    s.scrubStart (F.SCRUB_SCRUB_CMD_FRAME.get w.value) (F.SCRUB_SCRUB_CMD_COUNT.get w.value + 1) false := by
  have hp : PlainReg R.SCRUB_SCRUB_CMD 0#32 0xFFFFFFFF#32 := by decide
  have hoff : offOf R.SCRUB_SCRUB_CMD = 0x44 := rfl
  obtain ⟨h1, h2, h3⟩ := scrubCmd_bits w.value
  refine (regCmd_plain _ ho hp rfl (noMailbox s (by decide))).trans ?_
  rw [regEffect_scrub (by decide) (by decide), afterWrite_self (by decide), hoff]
  have hone : 2 ^ F.SCRUB_SCRUB_CMD_START.width - 1 = 1 := rfl
  unfold wrScrub
  rw [hone, if_pos rfl, if_pos h1, h2, h3]

end State
end Sys2Proof.Machine

namespace Sys2Proof.Safety
open Sys2Proof.Machine Sys2Proof.Machine.State

variable {s : State}

theorem scrubRow_gives (c : Fin 32) (p : Bool) (m : List (Fin 4 × BitVec 576)) (i : Nat) (hr : s.released = true)
    (hl : s.pchLive (2 * c + p.toNat) = true) (hn : s.ch.scrubRun = none) (he : s.on R.SCRUB_SCRUB_CTL F.SCRUB_SCRUB_CTL_EN = true)
    (hw : s.ch.walked = []) (hrow : s.nextRow (2 * c + p.toNat) 33000 (SMap.get (fun _ => 0) s.ch.walk (2 * c + p.toNat)) = some i) :
    Gives (.scrubRowDue (.rows c p) m) s fun t =>
      (t.pch (2 * c + p.toNat)).scrub = (s.pch (2 * c + p.toNat)).scrub ++ (List.range 16).map (fun o =>
        { write := false, f := (State.walkRow (2 * c + p.toNat) i).1, o := (State.walkRow (2 * c + p.toNat) i).2 + o,
          scrub := true }) ∧
        SMap.get (fun _ => 0) t.ch.walk (2 * c + p.toNat) = i + 1 ∧ MemKept s t ∧ RegsKept s t [] [R.SCRUB_SCRUB_STAT] := by
  obtain ⟨h1, h2, h3, h4⟩ := rowWalked_spec s (2 * c + p.toNat) i
  have heq := scrubDue_row m hr hl hn he hw hrow
  generalize s.rowWalked (2 * c + p.toNat) i = u at *
  exact gives_of_eq rfl heq ⟨h1, h2, h4.trans (put_memKept ..),
    RegsKept.put (RegsKept.of_regs (.refl s) h3) _ _ (.inl (by simp))⟩

theorem scrubSector_gives (b : Fin 16) (i : Nat) (hr : s.released = true) (hen : s.on R.SCRUB_SCRUB_CTL F.SCRUB_SCRUB_CTL_CACHE_EN = true)
    (hon : s.cacheOn = true) (hb : s.bankActive b = true) (hm : s.place.mig = []) (hw : s.ch.walked = [])
    (hi : i = SMap.get (fun _ => 0) s.ch.walk (64 + b)) (hlt : i < 65535) : Gives (.scrubRowDue (.sectors b) []) s fun t =>
      SMap.get (fun _ => 0) t.ch.walk (64 + b) = i + 1 ∧ t.rd64 R.SCRUB_WORDS_LO = s.rd64 R.SCRUB_WORDS_LO + 4 ∧
        MemKept s t ∧ RegsKept s t [] [R.SCRUB_WORDS_LO, R.SCRUB_WORDS_LO + 4] := by
  subst hi
  obtain ⟨h1, h2, -, h4⟩ := sectorWalked_spec s b (SMap.get (fun _ => 0) s.ch.walk (64 + b))
  have hmem : MemKept s (s.inc64 R.SCRUB_WORDS_LO 4) := by simp [MemKept]
  refine gives_of_eq rfl (scrubDue_sector hr hen hon hb hm hw hlt) ⟨h1, ?_, hmem.trans h4, fun a _ ha => ?_⟩
  · unfold rd64
    rw [rd_eq_of_regs h2, rd_eq_of_regs h2]
    exact rd64_inc64 s _ _
  · simp only [List.mem_cons, List.not_mem_nil, or_false, not_or] at ha
    rw [rd_eq_of_regs h2, rd_inc64_other _ _ _ _ ha.1 ha.2]

theorem scrubLate_gives (c : Fin 32) (p : Bool) (x : PCh) (n : Nat) (hr : s.released = true) (hx : x = s.pch (2 * c + p.toNat))
    (hne : x.scrub ≠ []) (hn : n = 64 - x.rq.length) : Gives (.scrubLate c p) s fun t =>
      (t.pch (2 * c + p.toNat)).rq = (x.scrub.take n).map (fun r => { r with late := true }) ++ x.rq ∧
        (t.pch (2 * c + p.toNat)).scrub = (x.scrub.drop n).map (fun r => { r with late := true }) ∧
        t.on R.SCRUB_SCRUB_STAT F.SCRUB_SCRUB_STAT_BEHIND = true ∧ MemKept s t ∧ RegsKept s t [] [R.SCRUB_SCRUB_STAT] := by
  have he := (clocked_eq hr fun s => s.scrubLate c.val p.toNat).trans (scrubLate_eq s c.val p.toNat)
  rw [← hx] at he
  generalize 2 * c.val + p.toNat = k at *
  have hlate := late_of_lateQueue x
  obtain ⟨h1, h2⟩ := promote_late (lateQueue x) hlate
  have hrq : (lateQueue x).rq = x.rq := rfl
  have hsc : (lateQueue x).scrub = x.scrub.map asLate := rfl
  rw [hrq, hsc, ← hn] at h1 h2
  generalize (lateQueue x).promote = q at *
  have hg : ((s.setPch k q).syncBehind).pch k = q := by
    refine Eq.trans (b := (s.setPch k q).pch k) rfl ?_
    rw [pch_setPch, if_pos rfl]
  obtain ⟨r, hr⟩ := List.exists_mem_of_ne_nil _ hne
  have hin : asLate r ∈ q.scrub ++ q.rq := by
    have := List.mem_map_of_mem (f := asLate) hr
    rw [← List.take_append_drop n (x.scrub.map asLate)] at this
    rw [h1, h2]
    simp only [List.mem_append] at this ⊢
    tauto
  refine gives_of_eq rfl he ⟨?_, ?_, syncBehind_on hin rfl, ⟨rfl, rfl, rfl, rfl, rfl, rfl⟩, RegsKept.flag (fun _ _ _ => rfl) _ _ (.inl (by simp))⟩
  · rw [hg, h1, ← List.map_take]
    rfl
  · rw [hg, h2, ← List.map_drop]
    rfl

theorem scrubCmd_starts (w : RegWrite) (ho : Open s w.path R.SCRUB_SCRUB_CMD) (hb : s.on R.SCRUB_SCRUB_STAT F.SCRUB_SCRUB_STAT_CMD_BUSY = false) :
    Gives (.scrubCmd w) s fun t =>
      t.ch.scrubRun = some ⟨F.SCRUB_SCRUB_CMD_FRAME.get w.value, F.SCRUB_SCRUB_CMD_COUNT.get w.value + 1, false, 0⟩ ∧
        t.on R.SCRUB_SCRUB_STAT F.SCRUB_SCRUB_STAT_CMD_BUSY = true ∧ MemKept s t ∧
        RegsKept s t [0x014] [R.SCRUB_SCRUB_STAT] :=
  gives_of_eq rfl ((regSet_scrubCmd w ho).trans (if_neg (ne_true_of_eq_false hb))) ⟨rfl, on_flag_same _ _ _ _ (by decide) rfl,
    ⟨rfl, rfl, rfl, rfl, rfl, rfl⟩, RegsKept.flag (fun _ _ _ => rfl) _ _ (.inl (by simp))⟩

theorem scrubCmd_busy (w : RegWrite) (ho : Open s w.path R.SCRUB_SCRUB_CMD) (hb : s.on R.SCRUB_SCRUB_STAT F.SCRUB_SCRUB_STAT_CMD_BUSY = true) :
    Gives (.scrubCmd w) s fun t => t.ch.scrubRun = s.ch.scrubRun ∧ MemKept s t ∧ RegsKept s t [0x014] [] :=
  gives_of_eq rfl ((regSet_scrubCmd w ho).trans (if_pos hb)) ⟨rfl, .refl s, .refl s⟩

theorem scrubCmdDone_waits (r : ScrubRun) (hr : s.ch.scrubRun = some r) (hc : s.scrubComplete r = false) :
    exec .scrubCmdDone s = .next s := by
  have he : s.scrubCmdDone = s := by
    unfold scrubCmdDone
    rw [hr]
    exact if_pos (by rw [hc]; simp)
  exact congrArg Host.Outcome.next (clocked_self he)

theorem scrubCmdDone_ends (r : ScrubRun) (h : s.released = true) (hr : s.ch.scrubRun = some r) (ht : r.retest = false)
    (hc : s.scrubComplete r = true) : Gives .scrubCmdDone s fun t =>
      t.ch.scrubRun = none ∧ t.on R.SCRUB_SCRUB_STAT F.SCRUB_SCRUB_STAT_CMD_BUSY = false ∧ MemKept s t ∧
        RegsKept s t [] [R.SCRUB_SCRUB_STAT] := by
  have he : s.scrubCmdDone = s.scrubEnd := by
    unfold scrubCmdDone
    rw [hr]
    exact if_neg (by rw [ht, hc]; simp)
  exact gives_of_eq rfl ((clocked_eq h fun s => s.scrubCmdDone).trans he) ⟨rfl, on_flag_same _ _ _ _ (by decide) rfl,
    ⟨rfl, rfl, rfl, rfl, rfl, rfl⟩, RegsKept.flag (fun _ _ _ => rfl) _ _ (.inl (by simp))⟩

/-- Settles O33: the patrol and a SCRUB_CMD move their own places, queues and status alone. -/
theorem scrub : Obligations.Scrub :=
  ⟨fun _ c p m i hr hl hn he hw hrow => scrubRow_gives c p m i hr hl hn he hw hrow,
    fun _ b i hr hen hon hb hm hw hi hlt => scrubSector_gives b i hr hen hon hb hm hw hi hlt,
    fun _ c p x n hr hx hne hn => scrubLate_gives c p x n hr hx hne hn, fun _ w ho _ hb => scrubCmd_starts w ho hb,
    fun _ w ho _ hb => scrubCmd_busy w ho hb, fun _ r hr hc => scrubCmdDone_waits r hr hc,
    fun _ r h hr ht hc => scrubCmdDone_ends r h hr ht hc⟩

end Sys2Proof.Safety
end

section
/-! SUPPORT. Power-down, refresh, the refresh step and controller swaps (R200, R202, R211 to R213). -/

namespace Sys2Proof.Machine
open Sys2Proof.Safety State

theorem markDue_split (b : Nat) (x y : List Refresh) (h : ∀ r ∈ x, r.bank ≠ b ∨ r.due = true) :
    markDue b (x ++ ⟨b, false, none⟩ :: y) = x ++ ⟨b, true, none⟩ :: y := by
  induction x with
  | nil => exact if_pos ⟨rfl, rfl⟩
  | cons r x ih =>
    have hr : ¬(r.bank = b ∧ (!r.due) = true) := fun hc =>
      (h r List.mem_cons_self).elim (· hc.1) fun hd => by simp [hd] at hc
    refine (if_neg hr).trans (congrArg (r :: ·) (ih fun q hq => h q (List.mem_cons_of_mem _ hq)))

namespace State

variable {s : State}

/-! ### The dies' refresh steps -/

theorem field_get (f : Fld) (w : Word) : f.get w = w.toNat / 2 ^ f.lsb % 2 ^ f.width := by
  unfold Fld.get
  rw [BitVec.toNat_ushiftRight, Nat.shiftRight_eq_div_pow]

theorem dieStep_eq (s : State) (d : Nat) : s.dieStep d = s.fld R.RFM_REF_STEP ⟨2 * d, 2⟩ := by
  have h : 4 ^ d = 2 ^ (2 * d) := by rw [Nat.pow_mul]
  unfold dieStep fld
  rw [field_get, field_get, h]
  simp only [Nat.pow_zero, Nat.div_one]
  rw [Nat.mod_eq_of_lt (s.rd R.RFM_REF_STEP).isLt]
  rfl

/-! ### Swaps -/

theorem performAll_none {pc : Nat} (f : DReq → Bool) (h : (s.pch pc).rq = [] ∧ (s.pch pc).wq = []) : s.performAll pc f = s := by
  obtain ⟨h1, h2⟩ := h
  unfold performAll
  rw [h1, h2]
  rfl

theorem closeBanks_queues (s : State) (c pc : Nat) : ((s.closeBanks c).pch pc).rq = (s.pch pc).rq ∧
    ((s.closeBanks c).pch pc).wq = (s.pch pc).wq := by
  unfold closeBanks
  dsimp only
  rw [pch_setPch]
  split
  next h => subst h; exact ⟨rfl, rfl⟩
  · exact ⟨rfl, rfl⟩

/-- The registers of the old controller that the new one takes over. -/
def copyRegs (s : State) (a b : Nat) : State := ((swapRegs a).zip (swapRegs b)).foldl (fun t x => t.wr x.2 (t.rd x.1)) s

theorem copyRegs_rd (s : State) {a b : Nat} (_h : a ≠ b) : (s.copyRegs a b).rd (R.CHC_TIMING0 b) = s.rd (R.CHC_TIMING0 a) ∧
    (s.copyRegs a b).rd (R.CHC_SCHED_CTL b) = s.rd (R.CHC_SCHED_CTL a) := by
  unfold copyRegs swapRegs
  simp only [List.zip_cons_cons, List.zip_nil_right, List.foldl_cons, List.foldl_nil, rd_wr]
  simp only [R.CHC_SCHED_CTL, R.CHC_ECC_CTL, R.CHC_TIMING0, R.CHC_TIMING1, R.CHC_TIMING2, R.CHC_TIMING3]
  constructor
  · rw [if_neg (by omega), if_neg (by omega), if_neg (by omega), if_pos trivial, if_neg (by omega), if_neg (by omega)]
  · rw [if_neg (by omega), if_neg (by omega), if_neg (by omega), if_neg (by omega), if_neg (by omega), if_pos trivial]

/-- The map of the channels after a swap. -/
def remapped (s : State) (a b c : Nat) : State :=
  let s := s.swapFlags (a, b) false
  let s := (s.flag (R.CHC_CHAN_MAP a) F.CHC_CHAN_MAP_ACTIVE false).flag (R.CHC_CHAN_MAP b) F.CHC_CHAN_MAP_ACTIVE true
  let s := s.put (R.CHC_CHAN_MAP b) F.CHC_CHAN_MAP_CHANNEL c
  (s.flag (0x1000 * (0x100 + a) + 0x10) ⟨3, 1⟩ (!s.on (0x1000 * (0x100 + a) + 0x10) ⟨4, 1⟩)).flag (0x1000 * (0x100 + b) + 0x10) ⟨3, 1⟩ false

theorem remapped_spec (s : State) {a b : Nat} (c : Nat) (h : a ≠ b) : (s.remapped a b c).on (R.CHC_CHAN_MAP a) F.CHC_CHAN_MAP_ACTIVE = false ∧
    (s.remapped a b c).on (R.CHC_CHAN_MAP b) F.CHC_CHAN_MAP_ACTIVE = true ∧
    (s.remapped a b c).fld (R.CHC_CHAN_MAP b) F.CHC_CHAN_MAP_CHANNEL = c % 2 ^ 5 ∧
    ∀ r, r ≠ R.CHC_CHAN_MAP a → r ≠ R.CHC_CHAN_MAP b → offOf r ≠ 0x10 → (s.remapped a b c).rd r = s.rd r := by
  have hoff : ∀ n, offOf (0x1000 * (0x100 + n) + 0x10) = 0x10 := fun n => by
    unfold offOf
    omega
  have h1 : ∀ k n, R.CHC_CHAN_MAP k ≠ 0x1000 * (0x100 + n) + 0x10 := fun k n => by
    simp only [R.CHC_CHAN_MAP]
    omega
  have h2 : R.CHC_CHAN_MAP a ≠ R.CHC_CHAN_MAP b := by
    simp only [R.CHC_CHAN_MAP]
    omega
  unfold remapped
  dsimp only
  refine ⟨?_, ?_, ?_, fun r ha hb hr => ?_⟩
  · rw [on_flag_other _ _ _ _ _ _ (.inl (h1 _ _)), on_flag_other _ _ _ _ _ _ (.inl (h1 _ _)), on_put_other _ _ _ _ _ _ (.inl h2),
      on_flag_other _ _ _ _ _ _ (.inl h2), on_flag_same _ _ _ _ (by decide) rfl]
  · rw [on_flag_other _ _ _ _ _ _ (.inl (h1 _ _)), on_flag_other _ _ _ _ _ _ (.inl (h1 _ _)), on_put_other _ _ _ _ _ _ (.inr (by decide)),
      on_flag_same _ _ _ _ (by decide) rfl]
  · rw [fld_flag_other _ _ _ _ _ _ (.inl (h1 _ _)), fld_flag_other _ _ _ _ _ _ (.inl (h1 _ _)), fld_put_same _ _ _ _ (by decide)]
  · have h3 : ∀ n, r ≠ 0x1000 * (0x100 + n) + 0x10 := fun n e => hr (e ▸ hoff n)
    unfold swapFlags
    rw [rd_flag, if_neg (h3 b), rd_flag, if_neg (h3 a), rd_put, if_neg hb, rd_flag, if_neg hb, rd_flag, if_neg ha, rd_flag, if_neg hb,
      rd_flag, if_neg ha]

theorem swapTake_eq (s : State) (a b : Nat) : s.swapTake a b =
    (((s.closeBanks (2 * s.fld (R.CHC_CHAN_MAP a) F.CHC_CHAN_MAP_CHANNEL)).closeBanks
      (2 * s.fld (R.CHC_CHAN_MAP a) F.CHC_CHAN_MAP_CHANNEL + 1)).copyRegs a b).remapped a b (s.fld (R.CHC_CHAN_MAP a) F.CHC_CHAN_MAP_CHANNEL) := rfl

/-- What a swap leaves alone beside registers and banks. -/
theorem swapTake_same {α : Type} (g : State → α) (hw : ∀ (s : State) a v, g (s.wr a v) = g s) (hp : ∀ (s : State) i p, g (s.setPch i p) = g s)
    (s : State) (a b : Nat) : g (s.swapTake a b) = g s := by
  have hcl : ∀ (s : State) c, g (s.closeBanks c) = g s := fun s c => hp s _ _
  have hcopy : ∀ s : State, g (s.copyRegs a b) = g s := fun s => foldl_blind (fun _ _ => hw _ _ _) _ s
  have hmap : ∀ (s : State) c, g (s.remapped a b c) = g s := fun s c =>
    (hw _ _ _).trans ((hw _ _ _).trans ((hw _ _ _).trans ((hw _ _ _).trans ((hw _ _ _).trans ((hw _ _ _).trans (hw _ _ _))))))
  rw [swapTake_eq, hmap, hcopy, hcl, hcl]

/-- The old controller's swap leaves the list of swaps. -/
def unswapped (s : State) : State := { s with ch := { s.ch with swaps := [] } }

theorem swapDone_eq {a b : Nat} (hs : s.ch.swaps = [(a, b)]) (hd : s.declared (resCtrl a) = false)
    (hq : ∀ pc : Fin 64, (s.pch pc).rq = [] ∧ (s.pch pc).wq = []) :
    s.swapDone a = s.unswapped.swapTake a b := by
  have hlt : s.fld (R.CHC_CHAN_MAP a) F.CHC_CHAN_MAP_CHANNEL < 32 := Fld.get_lt _ _
  have hdrain : ∀ u : State, u.declared (resCtrl a) = false → u.ch.pch = s.ch.pch → u.regs = s.regs → u.swapDrain a = u := by
    intro u h1 h2 h3
    have hf : u.fld (R.CHC_CHAN_MAP a) F.CHC_CHAN_MAP_CHANNEL = s.fld (R.CHC_CHAN_MAP a) F.CHC_CHAN_MAP_CHANNEL :=
      fld_eq_of_rd (rd_eq_of_regs h3 _) _
    have hp : ∀ n, u.pch n = s.pch n := fun n => by
      unfold pch
      rw [h2]
    unfold swapDrain
    rw [if_neg (ne_true_of_eq_false h1)]
    dsimp only
    rw [hf, performAll_none (s := u), performAll_none (s := u)]
    · rw [hp]
      exact hq ⟨2 * s.fld (R.CHC_CHAN_MAP a) F.CHC_CHAN_MAP_CHANNEL + 1, by omega⟩
    · rw [hp]
      exact hq ⟨2 * s.fld (R.CHC_CHAN_MAP a) F.CHC_CHAN_MAP_CHANNEL, by omega⟩
  have he := hdrain s.unswapped hd rfl rfl
  unfold swapDone
  rw [hs]
  simp only [List.find?_cons, beq_self_eq_true]
  rw [show [(a, b)].erase (a, b) = [] by simp]
  exact congrArg (fun u => State.swapTake u a b) he

/-- After a swap of a controller that is not declared, only the lending can end. -/
theorem swapSettled_spec (s : State) {a : Nat} (hd : s.declared (resCtrl a) = false) : (s.swapSettled a).fcol = s.fcol ∧
    (s.swapSettled a).spare.rows = s.spare.rows ∧ (s.swapSettled a).place = s.place ∧ (s.swapSettled a).bist = s.bist ∧
    (s.swapSettled a).ch = s.ch ∧ (∀ r, r ≠ R.HEALTH_LEND (a / 9) → (s.swapSettled a).rd r = s.rd r) ∧ MemKept s (s.swapSettled a) := by
  have hlend : ∀ u : State, u.fcol = s.fcol → (if u.declared (resCtrl a) && !u.on (R.CHC_CHAN_MAP a) F.CHC_CHAN_MAP_ACTIVE &&
      !u.ctrlRetired a then u.ctrlRetire a else u) = u := fun u hu => if_neg (by
    have : u.declared (resCtrl a) = false := by
      unfold declared at hd ⊢
      rwa [hu]
    simp [this])
  unfold swapSettled
  dsimp only
  split
  · rw [hlend (s.lendEnd (a / 9)) rfl]
    exact ⟨rfl, rfl, rfl, rfl, rfl, fun r hr => (rd_flag ..).trans (if_neg hr), ⟨rfl, rfl, rfl, rfl, rfl, rfl⟩⟩
  · rw [hlend s rfl]
    exact ⟨rfl, rfl, rfl, rfl, rfl, fun _ _ => rfl, .refl s⟩

theorem copyRegs_ch (s : State) (a b : Nat) : (s.copyRegs a b).ch = s.ch :=
  foldl_blind (g := State.ch) (f := fun (t : State) (x : Nat × Nat) => t.wr x.2 (t.rd x.1)) (fun _ _ => rfl) _ s

theorem remapped_ch (s : State) (a b c : Nat) : (s.remapped a b c).ch = s.ch := by
  simp [remapped, swapFlags]

theorem closeBanks_rd (s : State) (c d r : Nat) : ((s.closeBanks c).closeBanks d).rd r = s.rd r := rfl

theorem swapTaken_spec (s : State) {a b : Nat} (hab : a ≠ b) (hq : ∀ pc : Fin 64, (s.pch pc).rq = [] ∧ (s.pch pc).wq = []) :
    (s.swapTake a b).on (R.CHC_CHAN_MAP a) F.CHC_CHAN_MAP_ACTIVE = false ∧ (s.swapTake a b).on (R.CHC_CHAN_MAP b) F.CHC_CHAN_MAP_ACTIVE = true ∧
    (s.swapTake a b).fld (R.CHC_CHAN_MAP b) F.CHC_CHAN_MAP_CHANNEL = s.fld (R.CHC_CHAN_MAP a) F.CHC_CHAN_MAP_CHANNEL ∧
    (s.swapTake a b).rd (R.CHC_TIMING0 b) = s.rd (R.CHC_TIMING0 a) ∧ (s.swapTake a b).rd (R.CHC_SCHED_CTL b) = s.rd (R.CHC_SCHED_CTL a) ∧
    ∀ pc : Fin 64, ((s.swapTake a b).pch pc).wq = [] ∧ ((s.swapTake a b).pch pc).rq = [] := by
  have hlt : s.fld (R.CHC_CHAN_MAP a) F.CHC_CHAN_MAP_CHANNEL < 2 ^ 5 := Fld.get_lt _ _
  rw [swapTake_eq]
  generalize s.fld (R.CHC_CHAN_MAP a) F.CHC_CHAN_MAP_CHANNEL = c at *
  have hcl : ∀ r, ((s.closeBanks (2 * c)).closeBanks (2 * c + 1)).rd r = s.rd r := closeBanks_rd s (2 * c) (2 * c + 1)
  have hqs : ∀ pc : Fin 64, (((s.closeBanks (2 * c)).closeBanks (2 * c + 1)).pch pc).rq = [] ∧
      (((s.closeBanks (2 * c)).closeBanks (2 * c + 1)).pch pc).wq = [] := fun pc => by
    obtain ⟨h1, h2⟩ := closeBanks_queues (s.closeBanks (2 * c)) (2 * c + 1) pc
    obtain ⟨h3, h4⟩ := closeBanks_queues s (2 * c) pc
    rw [h1, h2, h3, h4]
    exact hq pc
  generalize (s.closeBanks (2 * c)).closeBanks (2 * c + 1) = u at *
  obtain ⟨k1, k2⟩ := copyRegs_rd u hab
  have hch : (u.copyRegs a b).ch = u.ch := copyRegs_ch u a b
  generalize u.copyRegs a b = v at *
  obtain ⟨m1, m2, m3, m4⟩ := remapped_spec v c hab
  have hch2 := remapped_ch v a b c
  refine ⟨m1, m2, m3.trans (Nat.mod_eq_of_lt hlt), ?_, ?_, fun pc => ?_⟩
  · rw [m4, k1, hcl]
    all_goals simp only [R.CHC_TIMING0, R.CHC_CHAN_MAP, offOf]; omega
  · rw [m4, k2, hcl]
    all_goals simp only [R.CHC_SCHED_CTL, R.CHC_CHAN_MAP, offOf]; omega
  · have hp : (v.remapped a b c).pch pc = u.pch pc := by
      unfold pch
      rw [hch2, hch]
    rw [hp]
    exact (hqs pc).symm

end State
end Sys2Proof.Machine

namespace Sys2Proof.Safety
open Sys2Proof.Machine Sys2Proof.Machine.State

variable {s : State}

theorem powerDownEntry_gives (c : Fin 32) (p : Bool) (k : Nat) (h : s.released = true) (hk : s.ctrlOf c = some k)
    (hl : s.pchLive (2 * c + p.toNat) = true) (hr : (s.pch (2 * c + p.toNat)).rq = []) (hw : (s.pch (2 * c + p.toNat)).wq = [])
    (hpd : (s.pch (2 * c + p.toNat)).pd = false) (hen : s.on (R.CHC_SCHED_CTL k) F.CHC_SCHED_CTL_PD_EN = true) :
    Gives (.powerDownEntry c p) s fun t =>
      t.pch (2 * c + p.toNat) = { s.pch (2 * c + p.toNat) with pd := true, awake := false } ∧
        t.rd (R.CHC_PD_ENTRIES k) = s.rd (R.CHC_PD_ENTRIES k) + 1 ∧ MemKept s t ∧ RegsKept s t [] [R.CHC_PD_ENTRIES k] := by
  have he : s.pdEntry c.val p.toNat = (s.setPch (2 * c + p.toNat) { s.pch (2 * c + p.toNat) with pd := true, awake := false }).inc
      (R.CHC_PD_ENTRIES k) := by
    unfold pdEntry
    dsimp only
    rw [hk]
    exact if_pos (by simp [hl, hr, hw, hpd, hen])
  have hset := pch_setPch s (2 * c + p.toNat) (2 * c + p.toNat) { s.pch (2 * c + p.toNat) with pd := true, awake := false }
  rw [if_pos rfl] at hset
  have hrd : ∀ a, (s.setPch (2 * c + p.toNat) { s.pch (2 * c + p.toNat) with pd := true, awake := false }).rd a = s.rd a := fun _ => rfl
  have hmem : MemKept s (s.setPch (2 * c + p.toNat) { s.pch (2 * c + p.toNat) with pd := true, awake := false }) :=
    ⟨rfl, rfl, rfl, rfl, rfl, rfl⟩
  generalize s.setPch (2 * c + p.toNat) { s.pch (2 * c + p.toNat) with pd := true, awake := false } = u at *
  refine gives_of_eq rfl ((clocked_eq h fun s => s.pdEntry c.val p.toNat).trans he) ⟨?_, ?_, hmem.trans (inc_memKept ..),
    RegsKept.inc (fun a _ _ => hrd a) _ (.inl (by simp))⟩
  · unfold pch at hset ⊢
    rw [inc_ch]
    exact hset
  · rw [rd_inc, if_pos rfl, hrd]
    rfl

theorem refreshSlot_gives (c : Fin 32) (p : Bool) (b : Fin 64) (h : s.released = true) (hl : s.pchLive (2 * c + p.toNat) = true)
    (hb : s.bankGone (2 * c + p.toNat) b = false) : Gives (.refreshSlot c p b) s fun t =>
      t.pch (2 * c + p.toNat) = { s.pch (2 * c + p.toNat) with refs := (s.pch (2 * c + p.toNat)).refs ++ [⟨b, false, none⟩] } ∧
        MemKept s t ∧ RegsKept s t [] [] := by
  have he : s.refSlot c.val p.toNat b.val = s.setPch (2 * c + p.toNat)
      { s.pch (2 * c + p.toNat) with refs := (s.pch (2 * c + p.toNat)).refs ++ [⟨b, false, none⟩] } := if_pos (by simp [hl, hb])
  exact gives_of_eq rfl ((clocked_eq h fun s => s.refSlot c.val p.toNat b.val).trans he)
    ⟨(pch_setPch ..).trans (if_pos rfl), ⟨rfl, rfl, rfl, rfl, rfl, rfl⟩, fun _ _ _ => rfl⟩

theorem refreshDue_gives (c : Fin 32) (p : Bool) (b : Fin 64) (x y : List Refresh) (h : s.released = true)
    (hl : s.pchLive (2 * c + p.toNat) = true) (hr : (s.pch (2 * c + p.toNat)).refs = x ++ ⟨b, false, none⟩ :: y)
    (hx : ∀ r ∈ x, r.bank ≠ b.val ∨ r.due = true) : Gives (.refreshDue c p b) s fun t =>
      (t.pch (2 * c + p.toNat)).refs = x ++ ⟨b, true, none⟩ :: y ∧ t.rd R.RFM_REF_DUE = s.rd R.RFM_REF_DUE + 1 ∧
        MemKept s t ∧ RegsKept s t [] [R.RFM_REF_DUE] := by
  have hm := markDue_split b.val x y hx
  have he : s.refDue c.val p.toNat b.val = (s.setPch (2 * c + p.toNat)
      { s.pch (2 * c + p.toNat) with refs := x ++ ⟨b, true, none⟩ :: y }).inc R.RFM_REF_DUE := by
    rw [← hm, ← hr]
    exact if_pos (by simp [hl, hr])
  have hset := pch_setPch s (2 * c + p.toNat) (2 * c + p.toNat) { s.pch (2 * c + p.toNat) with refs := x ++ ⟨b, true, none⟩ :: y }
  rw [if_pos rfl] at hset
  have hrd : ∀ a, (s.setPch (2 * c + p.toNat) { s.pch (2 * c + p.toNat) with refs := x ++ ⟨b, true, none⟩ :: y }).rd a = s.rd a :=
    fun _ => rfl
  have hmem : MemKept s (s.setPch (2 * c + p.toNat) { s.pch (2 * c + p.toNat) with refs := x ++ ⟨b, true, none⟩ :: y }) :=
    ⟨rfl, rfl, rfl, rfl, rfl, rfl⟩
  generalize s.setPch (2 * c + p.toNat) { s.pch (2 * c + p.toNat) with refs := x ++ ⟨b, true, none⟩ :: y } = u at *
  refine gives_of_eq rfl ((clocked_eq h fun s => s.refDue c.val p.toNat b.val).trans he) ⟨?_, ?_, hmem.trans (inc_memKept ..),
    RegsKept.inc (fun a _ _ => hrd a) _ (.inl (by simp))⟩
  · unfold pch at hset ⊢
    rw [inc_ch]
    exact congrArg PCh.refs hset
  · rw [rd_inc, if_pos rfl, hrd]
    rfl

theorem refreshStepDown_gives (d : Fin 16) (ht : s.dieReading d + (s.hystC : Nat) ≤ 85) (hf : s.forceStep = 0) (hd : 0 < s.dieStep d) :
    Gives (.refreshStepDown d) s fun t =>
      t.dieStep d = 0 ∧ (∀ e : Fin 16, e ≠ d → t.dieStep e = s.dieStep e) ∧ MemKept s t ∧ RegsKept s t [] [R.RFM_REF_STEP] := by
  have he : s.refreshDown d.val = s.setDieStep d 0 := by
    unfold refreshDown
    dsimp only
    rw [if_pos ht, hf]
    exact if_pos hd
  refine gives_of_eq rfl he ⟨?_, fun e hne => ?_, put_memKept .., (RegsKept.refl s).put _ _ (.inl (by simp))⟩
  · rw [dieStep_eq]
    exact fld_put_same _ _ _ _ (by dsimp only; omega)
  · have hv : e.val ≠ d.val := fun h => hne (Fin.ext h)
    rw [dieStep_eq, dieStep_eq]
    exact fld_put_other _ _ _ _ _ _ (.inr (by dsimp only; omega))

theorem controllerSwap_gives (a b : Fin 36) (h : s.released = true) (hq : a.val / 9 = b.val / 9)
    (ha : s.on (R.CHC_CHAN_MAP a) F.CHC_CHAN_MAP_ACTIVE = true) (hb : s.ctrlSpare b = true) (hs : s.ch.swaps = []) :
    Gives (.controllerSwap a b) s fun t =>
      t.ch.swaps = [(a.val, b.val)] ∧ t.on (R.CHC_CHAN_MAP a) F.CHC_CHAN_MAP_SWAPPING = true ∧
        t.on (R.CHC_CHAN_MAP b) F.CHC_CHAN_MAP_SWAPPING = true ∧ MemKept s t ∧
        RegsKept s t [] [R.CHC_CHAN_MAP a, R.CHC_CHAN_MAP b] := by
  have hne : R.CHC_CHAN_MAP a ≠ R.CHC_CHAN_MAP b := by
    intro e
    rw [e] at ha
    simp [ctrlSpare, ha] at hb
  have he : s.swapBegin a.val b.val = s.swapStart a b := if_pos ⟨hq, ha, hb, by simp [hs]⟩
  refine gives_of_eq rfl ((clocked_eq h fun s => s.swapBegin a.val b.val).trans he) ⟨?_, ?_, on_flag_same _ _ _ _ (by decide) rfl,
    ⟨rfl, rfl, rfl, rfl, rfl, rfl⟩, RegsKept.flag (RegsKept.flag (fun _ _ _ => rfl) _ _ (.inl (by simp))) _ _ (.inl (by simp))⟩
  · exact congrArg (· ++ [(a.val, b.val)]) hs
  · exact (on_flag_other _ _ _ _ _ _ (.inl hne)).trans (on_flag_same _ _ _ _ (by decide) rfl)

theorem controllerSwapDone_gives (a b : Fin 36) (hc : Calm s) (h : s.released = true) (hn : NoTest s) (hab : a ≠ b)
    (hs : s.ch.swaps = [(a.val, b.val)]) (hd : s.declared (resCtrl a) = false)
    (hq : ∀ pc : Fin 64, (s.pch pc).rq = [] ∧ (s.pch pc).wq = []) : Gives (.controllerSwapDone a) s fun t =>
      t.ch.swaps = [] ∧ t.on (R.CHC_CHAN_MAP a) F.CHC_CHAN_MAP_ACTIVE = false ∧
        t.on (R.CHC_CHAN_MAP b) F.CHC_CHAN_MAP_ACTIVE = true ∧
        t.fld (R.CHC_CHAN_MAP b) F.CHC_CHAN_MAP_CHANNEL = s.fld (R.CHC_CHAN_MAP a) F.CHC_CHAN_MAP_CHANNEL ∧
        t.rd (R.CHC_TIMING0 b) = s.rd (R.CHC_TIMING0 a) ∧ t.rd (R.CHC_SCHED_CTL b) = s.rd (R.CHC_SCHED_CTL a) ∧
        (∀ pc : Fin 64, (t.pch pc).wq = [] ∧ (t.pch pc).rq = []) ∧ MemKept s t := by
  have hv : a.val ≠ b.val := fun e => hab (Fin.ext e)
  have hdone := swapDone_eq hs hd hq
  obtain ⟨k1, k2, k3, k4, k5, k6⟩ := swapTaken_spec s.unswapped hv hq
  have hfcol := swapTake_same State.fcol (fun _ _ _ => rfl) (fun _ _ _ => rfl) s.unswapped a.val b.val
  have hrest := swapTake_same (fun s : State => (s.spare, s.place, s.bist, s.ch.swaps)) (fun _ _ _ => rfl) (fun _ _ _ => rfl)
    s.unswapped a.val b.val
  have hmem := swapTake_same (fun s : State => (s.dram, s.cache, s.wdb, s.place, s.otp, s.mgmt.flash)) (fun _ _ _ => rfl)
    (fun _ _ _ => rfl) s.unswapped a.val b.val
  generalize s.unswapped.swapTake a.val b.val = u at *
  simp only [Prod.mk.injEq] at hrest hmem
  obtain ⟨r1, r2, r3, r4⟩ := hrest
  have hmu : MemKept s u := hmem
  have hcu : Calm u := hc.of_parts (congrArg FcolState.handed hfcol) (congrArg FcolState.declared hfcol)
    (congrArg SpareState.rows r1) (congrArg PlaceState.retiring r2)
  have hdu : u.declared (resCtrl a) = false := (congrArg (fun f : FcolState => f.declared.contains (resCtrl a)) hfcol).trans hd
  obtain ⟨w1, w2, w3, w4, w5, w6, w7⟩ := swapSettled_spec u hdu
  have he : s.clocked (fun s => ((s.swapDone a.val).swapSettled a.val).afterUnit) = (u.swapSettled a.val).afterUnit := by
    rw [clocked_eq h, hdone]
  generalize u.swapSettled a.val = v at *
  have hcv : Calm v := hcu.of_parts (congrArg FcolState.handed w1) (congrArg FcolState.declared w1) w2 (congrArg PlaceState.retiring w3)
  have hnv : NoTest v := by
    unfold NoTest
    rw [w4, r3]
    exact hn
  have hrd : ∀ r, pageOf r ≠ 0x014 → r ≠ R.HEALTH_LEND (a.val / 9) → v.settle.rd r = u.rd r :=
    fun r h1 h2 => (settle_rd hcv r h1).trans (w6 r h2)
  have hchc : ∀ r, 0x100000 ≤ r → v.settle.rd r = u.rd r := fun r h1 => hrd r
    (by unfold pageOf; omega) (by simp only [R.HEALTH_LEND]; omega)
  have hmap : ∀ k : Nat, v.settle.rd (R.CHC_CHAN_MAP k) = u.rd (R.CHC_CHAN_MAP k) := fun k => hchc _ (by simp only [R.CHC_CHAN_MAP]; omega)
  refine gives_of_eq rfl (he.trans (afterUnit_noTest hnv)) ⟨?_, (on_eq_of_rd (hmap a) _).trans k1, (on_eq_of_rd (hmap b) _).trans k2,
    (fld_eq_of_rd (hmap b) _).trans k3, (hchc _ (by simp only [R.CHC_TIMING0]; omega)).trans k4,
    (hchc _ (by simp only [R.CHC_SCHED_CTL]; omega)).trans k5, fun pc => ?_, (hmu.trans w7).trans (.settle hcv)⟩
  · rw [settle_ch hcv, w5, r4]
    rfl
  · unfold pch at k6 ⊢
    rw [settle_ch hcv, w5]
    exact k6 pc

/-- Settles O31: power-down and refresh change their pseudo-channel's queues alone; a swap hands the channel with its settings to
the new controller. -/
theorem refreshAndSwap : Obligations.RefreshAndSwap :=
  ⟨fun _ c p k h hk hl hr hw hpd hen => powerDownEntry_gives c p k h hk hl hr hw hpd hen,
    fun _ c p b h hl hb => refreshSlot_gives c p b h hl hb, fun _ c p b x y h hl hr hx => refreshDue_gives c p b x y h hl hr hx,
    fun _ d ht hf hd => refreshStepDown_gives d ht hf hd, fun _ a b h hq ha hb hs => controllerSwap_gives a b h hq ha hb hs,
    fun _ a b hc h hn hab hs hd hq => controllerSwapDone_gives a b hc h hn hab hs hd hq⟩

end Sys2Proof.Safety
end

section
/-! SUPPORT. Registers of other pages than PLACE: the placement table's books leave them alone (R161, R166). -/

namespace Sys2Proof.Safety
open Sys2Proof.Machine

theorem MemKept.place_eq {s t : State} (h : MemKept s t) : t.place = s.place := by
  obtain ⟨-, -, -, hp, -⟩ := h
  exact hp

end Sys2Proof.Safety

namespace Sys2Proof.Machine
open Sys2Proof.Safety State

namespace State

/-- A frame has the code that it was given. -/
theorem frameCode_setFrame (s : State) (f code : Nat) : (s.setFrame f code).frameCode f = code := by
  have hc : (s.setFrame f code).cap = s.cap := setFrame_blind s f code bookBlind_cap fun _ _ => rfl
  unfold frameCode
  rw [hc, setFrame_frames]
  exact Sys2Proof.Laws.SMap.get_set_same ..

variable {s : State} {a : Nat} (h : pageOf a ≠ 0x00C)
include h

theorem ne_of_page {b : Nat} (hb : pageOf b = 0x00C) : a ≠ b := fun e => h (e ▸ hb)

theorem tally_rd {b : Nat} (f : Fld) (was is : Bool) (hb : pageOf b = 0x00C) : (s.tally b f was is).rd a = s.rd a := by
  unfold tally
  split
  · rfl
  · exact (rd_put ..).trans (if_neg (ne_of_page h hb))

theorem journal_rd (ty parcel frame flags : Nat) : (s.journal ty parcel frame flags).rd a = s.rd a := by
  unfold journal
  dsimp only
  split
  · rfl
  · exact rd_inc64_other _ _ _ _ (ne_of_page h (by decide)) (ne_of_page h (by decide))

theorem updDeficit_rd : s.updDeficit.rd a = s.rd a := by
  have hd : ∀ (t : State) (f : Fld) (b : Bool), (t.flag R.PLACE_DEFICIT f b).rd a = t.rd a := fun t f b =>
    (rd_flag ..).trans (if_neg (ne_of_page h (by decide)))
  have hp : ∀ (t : State) (f : Fld) (n : Nat), (t.put R.PLACE_DEFICIT f n).rd a = t.rd a := fun t f n =>
    (rd_put ..).trans (if_neg (ne_of_page h (by decide)))
  unfold updDeficit
  split
  · rfl
  · dsimp only
    split
    · rw [hd]
      exact hp _ _ _
    · split
      · exact hp _ _ _
      · rw [hd]
        exact hp _ _ _

theorem tallyFrame_rd (t : State) (f : Nat) : (t.tallyFrame s f).rd a = t.rd a := by
  unfold tallyFrame
  rw [updDeficit_rd h, tally_rd h _ _ _ (by decide), tally_rd h _ _ _ (by decide)]

omit h in
theorem bumpBank_rd (w : Word) (d : Int) : (s.bumpBank w d).rd a = s.rd a := by
  unfold bumpBank
  split <;> rfl

theorem tallyEntry_rd (w v : Word) : (s.tallyEntry w v).rd a = s.rd a := by
  unfold tallyEntry
  rw [bumpBank_rd, bumpBank_rd, tally_rd h _ _ _ (by decide), tally_rd h _ _ _ (by decide), tally_rd h _ _ _ (by decide),
    tally_rd h _ _ _ (by decide), tally_rd h _ _ _ (by decide)]

theorem setFrame_rd (f code : Nat) : (s.setFrame f code).rd a = s.rd a := by
  unfold setFrame
  dsimp only
  rw [tallyFrame_rd h]
  exact journal_rd h ..

theorem setEntry_rd (ty n : Nat) (w : Word) : (s.setEntry ty n w).rd a = s.rd a := by
  unfold setEntry putEntry
  rw [updDeficit_rd h, tallyEntry_rd h]
  exact journal_rd h ..

theorem queueZero_rd (f : Nat) : (s.queueZero f).rd a = s.rd a := by
  unfold queueZero
  rw [tallyFrame_rd h]
  rfl

end State
end Sys2Proof.Machine
end

section
/-! SUPPORT. The TSV PHYs: training and its verify, remaps and row repairs (R204 to R207, R468). -/

namespace Sys2Proof.Machine
open Sys2Proof.Safety State

namespace State

variable {s : State}

/-! ### Commands of a CHP page -/

theorem chp_plain : ∀ c : Fin 32, (PlainReg (R.CHP_PHY_CTL c) 65534#32 1#32 ∧ PlainReg (R.CHP_REMAP_CMD c) 0#32 511#32 ∧
    PlainReg (R.CHP_ROW_REPAIR_CMD c) 0#32 8388607#32) ∧ firstOf (0x140 + c) = 0x140 := by decide

theorem chp_page (c : Fin 32) {a o : Nat} (h : a = 0x140000 + o + 0x1000 * c) (ho : o < 0x1000) :
    pageOf a = 0x140 + c ∧ offOf a = o := by
  unfold pageOf offOf
  omega

/-- A command of a channel's page, its action bit set. -/
theorem chp_write {path : Path} {c : Fin 32} {a o : Nat} {m k : Word} (v : Word) (ha : a = 0x140000 + o + 0x1000 * c)
    (ho : 0x40 ≤ o) (ho' : o < 0x1000) (hp : PlainReg a m k) (hopen : Open s path a) :
    s.regCmd path a v = (s.wrChp c o ((s.cur a &&& ~~~m) ||| (v &&& m)) (v &&& k)).settle := by
  obtain ⟨hpg, hoff⟩ := chp_page c ha ho'
  obtain ⟨-, hfirst⟩ := chp_plain c
  have hf : firstOf (pageOf a) = 0x140 := by rw [hpg, hfirst]
  rw [regCmd_plain v hopen hp (softBits_other (by rw [hf]; decide) (by rw [hf]; decide)) (noMailbox s (by omega)),
    regEffect_chp hf (by omega), afterWrite_settle (by rw [hf]; decide), hpg, hoff, Nat.add_sub_cancel_left]

/-! ### Training -/

/-- The stack runs as long as its clocks, its trip and its boot step stay. -/
theorem released_congr {t : State} (hc : t.clk = s.clk)
    (hr : ∀ a ∈ [R.CLK_CLK_STAT, R.THERM_THERM_STAT2, R.CLK_BOOT_STAT], t.rd a = s.rd a) : t.released = s.released := by
  unfold released running drogue tripped inReset bootStep
  rw [hc, on_eq_of_rd (hr R.CLK_CLK_STAT (by decide)), on_eq_of_rd (hr R.THERM_THERM_STAT2 (by decide)),
    fld_eq_of_rd (hr R.CLK_BOOT_STAT (by decide))]

/-- A pseudo-channel trains. -/
def trains (s : State) (c p : Nat) : State := (s.setPch (2 * c + p) { s.pch (2 * c + p) with training := true }).syncTraining c

theorem trainStart_eq {c p : Nat} (hr : s.released = true) (hd : s.clk.dramInit = true)
    (hf : s.on (R.CHP_PHY_CTL c) F.CHP_PHY_CTL_TRAIN_FREEZE = false) (hx : s.pchRetired (2 * c + p) = false)
    (hp : s.on R.CAL_CAL_STAT F.CAL_CAL_STAT_PENDING = false) : s.trainStart c p = s.trains c p := by
  unfold trainStart
  rw [if_pos (by simp [hr, hd, hf, hx])]
  exact if_neg (by simp [calPending, hp])

theorem trains_pch (s : State) (c p i : Nat) : (s.trains c p).pch i =
    if i = 2 * c + p then { s.pch (2 * c + p) with training := true } else s.pch i := pch_setPch s _ _ _

theorem trains_on {c p : Nat} (hp : p < 2) : (s.trains c p).on (R.CHP_PHY_STAT c) F.CHP_PHY_STAT_TRAINING = true := by
  have hpch := trains_pch s c p
  have hset : ∀ i, (s.setPch (2 * c + p) { s.pch (2 * c + p) with training := true }).pch i = (s.trains c p).pch i := fun _ => rfl
  unfold trains syncTraining
  rw [on_flag_same _ _ _ _ (by decide) rfl, hset, hset, hpch, hpch]
  rcases (show p = 0 ∨ p = 1 by omega) with rfl | rfl
  · rw [if_pos (show 2 * c = 2 * c + 0 from rfl)]
    rfl
  · rw [if_pos (show 2 * c + 1 = 2 * c + 1 from rfl)]
    exact Bool.or_true _

/-- A training starts on its own status alone. -/
theorem trains_spec (s : State) (c p : Nat) : (s.trains c p).clk = s.clk ∧ (s.trains c p).fcol = s.fcol ∧ (s.trains c p).spare = s.spare ∧
    (s.trains c p).place = s.place ∧ (∀ a f, (a ≠ R.CHP_PHY_STAT c ∨ f.lsb + f.width ≤ 2 ∨ 3 ≤ f.lsb) → (s.trains c p).on a f = s.on a f) ∧
    (∀ a, a ≠ R.CHP_PHY_STAT c → (s.trains c p).rd a = s.rd a) ∧ MemKept s (s.trains c p) := by
  have hon : ∀ a f, (s.setPch (2 * c + p) { s.pch (2 * c + p) with training := true }).on a f = s.on a f := fun _ _ => rfl
  refine ⟨rfl, rfl, rfl, rfl, fun a f h => ?_, fun a h => ?_, ⟨rfl, rfl, rfl, rfl, rfl, rfl⟩⟩
  · unfold trains syncTraining
    rw [on_flag_other _ _ _ _ _ _ h, hon]
  · exact (rd_flag ..).trans (if_neg h)

theorem trains_retired (s : State) (c p pc : Nat) : (s.trains c p).pchRetired pc = s.pchRetired pc := by
  obtain ⟨-, -, -, -, h, -⟩ := trains_spec s c p
  unfold pchRetired
  rw [h]
  split <;> exact .inr (.inr (by decide))

/-! ### The verify -/

/-- A via passes its verify. -/
def viaPasses (c p : Nat) (ca : Bool) (u : State) (n : Nat) : State := u.setViaFail c p ⟨ca, BitVec.ofNat 6 n⟩ false

/-- Every via passes. -/
def allPass (s : State) (c p : Nat) : State :=
  ((((viasOf true).foldl (viaPasses c p true) ((viasOf false).foldl (viaPasses c p false) s))).countSpares (2 * c + p) false).countSpares
    (2 * c + p) true

theorem verifyVias_nil (s : State) (c p : Nat) : s.verifyVias c p [] = s.allPass c p := rfl

/-- What is blind to registers does not see a via's failure. -/
theorem setViaFail_same {α : Type} {g : State → α} (hw : ∀ (s : State) a v, g (s.wr a v) = g s) (s : State) (c p : Nat) (v : ViaId) (b : Bool) :
    g (s.setViaFail c p v b) = g s := by
  unfold setViaFail
  dsimp only
  split <;> split
  · exact hw _ _ _
  · exact hw _ _ _
  · exact hw _ _ _
  · split <;> exact hw _ _ _

theorem allPass_same {α : Type} {g : State → α} (hw : ∀ (s : State) a v, g (s.wr a v) = g s) (s : State) (c p : Nat) :
    g (s.allPass c p) = g s := by
  have hstep : ∀ ca (t : State) n, g (viaPasses c p ca t n) = g t := fun ca t n => setViaFail_same hw _ _ _ _ _
  unfold allPass countSpares
  exact (hw _ _ _).trans ((hw _ _ _).trans ((foldl_blind (hstep true) _ _).trans (foldl_blind (hstep false) _ _)))

theorem setBit_bit_other {a b : Nat} (f g : Fld) (i j : Nat) (x : Bool) (h : b ≠ a) : (s.setBit a f i x).bit b g j = s.bit b g j := by
  unfold bit setBit
  rw [fld_put_other _ _ _ _ _ _ (.inl h)]

/-- A passing via's bit in FAIL_MAP is clear, and no bit is set. -/
theorem viaPasses_bit (c p : Nat) (ca : Bool) (u : State) {n i : Nat} (hn : n < 64)
    (h : u.bit (R.CHP_FAIL_MAP c p) F.CHP_FAIL_MAP_DQ_FAILED i = false ∨ (ca = false ∧ n = i ∧ i < 32)) :
    (viaPasses c p ca u n).bit (R.CHP_FAIL_MAP c p) F.CHP_FAIL_MAP_DQ_FAILED i = false := by
  have hv : (BitVec.ofNat 6 n).toNat = n := by
    rw [BitVec.toNat_ofNat]
    omega
  have hne : R.CHP_FAIL_MAP c p ≠ R.CHP_FAIL_MAP2 c p := by
    simp only [R.CHP_FAIL_MAP, R.CHP_FAIL_MAP2]
    omega
  unfold viaPasses setViaFail
  dsimp only
  rw [hv]
  cases ca
  · rw [if_neg (by simp)]
    by_cases h32 : n < 32
    · rw [if_pos h32]
      by_cases hi : i = n
      · subst hi
        exact bit_setBit_same i false (by decide) h32
      · rw [bit_setBit_other false (by decide) hi]
        exact h.resolve_right fun hc => hi hc.2.1.symm
    · rw [if_neg h32]
      have hb := h.resolve_right fun hc => by omega
      split <;> rw [setBit_bit_other _ _ _ _ _ hne] <;> exact hb
  · have hb := h.resolve_right fun hc => by simp at hc
    rw [if_pos rfl]
    split <;> rw [setBit_bit_other _ _ _ _ _ hne] <;> exact hb

theorem viasPass_bit (c p : Nat) (ca : Bool) (l : List Nat) (u : State) {i : Nat} (hl : ∀ n ∈ l, n < 64)
    (h : u.bit (R.CHP_FAIL_MAP c p) F.CHP_FAIL_MAP_DQ_FAILED i = false ∨ (ca = false ∧ i ∈ l ∧ i < 32)) :
    (l.foldl (viaPasses c p ca) u).bit (R.CHP_FAIL_MAP c p) F.CHP_FAIL_MAP_DQ_FAILED i = false := by
  induction l generalizing u with
  | nil => exact h.resolve_right fun hc => by simp at hc
  | cons n l ih =>
    refine ih _ (fun m hm => hl m (List.mem_cons_of_mem _ hm)) ?_
    rcases h with h | ⟨hca, hm, h32⟩
    · exact .inl (viaPasses_bit c p ca u (hl n List.mem_cons_self) (.inl h))
    · rcases List.mem_cons.mp hm with rfl | hm
      · exact .inl (viaPasses_bit c p ca u (hl i List.mem_cons_self) (.inr ⟨hca, rfl, h32⟩))
      · exact .inr ⟨hca, hm, h32⟩

/-- After a verify that every via passes, FAIL_MAP is clear. -/
theorem allPass_failMap (s : State) (c p : Nat) (hp : p < 2) : (s.allPass c p).rd (R.CHP_FAIL_MAP c p) = 0 := by
  have hne : R.CHP_FAIL_MAP c p ≠ R.CHP_PHY_STAT ((2 * c + p) / 2) := by
    rw [show (2 * c + p) / 2 = c by omega]
    simp only [R.CHP_FAIL_MAP, R.CHP_PHY_STAT]
    omega
  unfold allPass countSpares
  rw [rd_put, if_neg hne, rd_put, if_neg hne]
  generalize hu : (viasOf true).foldl (viaPasses c p true) ((viasOf false).foldl (viaPasses c p false) s) = u
  refine BitVec.eq_of_getLsbD_eq fun i hi => ?_
  have hb : u.bit (R.CHP_FAIL_MAP c p) F.CHP_FAIL_MAP_DQ_FAILED i = false := by
    subst hu
    refine viasPass_bit c p true _ _ (by decide) (.inl (viasPass_bit c p false _ _ (by decide) (.inr ⟨rfl, ?_, hi⟩)))
    exact List.mem_range.mpr (by simp; omega)
  unfold bit fld at hb
  rw [field_get, Nat.testBit_mod_two_pow] at hb
  simpa [hi, ← BitVec.getLsbD_eq_getElem, BitVec.getLsbD] using hb

/-- A training's values wait for the bus gap. -/
def trainEnded (s : State) (pc : Nat) (vals : List (Nat × BitVec 32)) : State :=
  s.setPch pc { s.pch pc with training := false, apply := some vals, trainedAt := s.clk.up + 1, trainedT := s.dieNodes pc }

theorem filterMap_trained (l : List (BitVec 6 × BitVec 32)) (h : l.all (fun v => decide (v.1.toNat < 58)) = true) :
    (l.filterMap fun v => if v.1.toNat < 58 then some (v.1.toNat, v.2) else none) = l.map fun v => (v.1.toNat, v.2) := by
  rw [List.all_eq_true] at h
  rw [← List.filterMap_eq_map]
  exact List.filterMap_congr fun v hv => if_pos (of_decide_eq_true (h v hv))

theorem trainDone_eq {c p : Nat} {x : TsvIn} (ht : (s.pch (2 * c + p)).training = true) (hf : x.failed = []) (hk : x.ckFailed = false)
    (hcal : x.cal.all (fun v => decide (v.1.toNat < 58)) = true) :
    s.trainDone c p x = ((s.trainEnded (2 * c + p) (x.cal.map fun v => (v.1.toNat, v.2))).syncTraining c).allPass c p := by
  have hdec : ∀ u : State, u.declareVerify c p x = u := fun u => by
    unfold declareVerify
    rw [hf, hk]
    rfl
  unfold trainDone
  dsimp only
  rw [if_neg (by simp [ht]), filterMap_trained _ hcal, hdec, hf, verifyVias_nil]
  rfl

/-! ### Remaps -/

/-- A spare is found for a remap. -/
def remapFound (s : State) (c : Nat) (r : Remap) : State := (s.setRemap c (some r)).flag (R.CHP_REMAP_STAT c) F.CHP_REMAP_STAT_BUSY true

theorem remapStart_eq {c p via i : Nat} (hn : s.remapOf c = none)
    (hf : (spareNums false).find? (s.spareFree (2 * c + p) false) = some i) :
    s.remapStart c p false via = s.remapFound c ⟨p, false, via, i, false⟩ := by
  unfold remapStart
  rw [if_neg (by simp [hn])]
  unfold remapTry
  rw [hf]
  rfl

theorem remapOf_setRemap (s : State) (c : Nat) (r : Option Remap) : (s.setRemap c r).remapOf c = r :=
  Sys2Proof.Laws.SMap.get_set_same _ _ _ _

theorem remapCmd_bits (v : Word) : F.CHP_REMAP_CMD_START.get (F.CHP_REMAP_CMD_START.set 1 v &&& 511#32) = 1 ∧
    F.CHP_REMAP_CMD_CLASS.get (F.CHP_REMAP_CMD_START.set 1 v &&& 511#32) = F.CHP_REMAP_CMD_CLASS.get v ∧
    F.CHP_REMAP_CMD_PCH.get (F.CHP_REMAP_CMD_START.set 1 v &&& 511#32) = F.CHP_REMAP_CMD_PCH.get v ∧
    F.CHP_REMAP_CMD_VIA.get (F.CHP_REMAP_CMD_START.set 1 v &&& 511#32) = F.CHP_REMAP_CMD_VIA.get v := by
  refine ⟨?_, ?_, ?_, ?_⟩
  · rw [Fld.get_and _ (by decide), Fld.get_set _ _ _ (by decide)]
    rfl
  all_goals rw [Fld.get_and _ (by decide), Fld.get_set_other _ _ _ _ (by decide)]

/-- A spare via's passing verify shows in FAIL_MAP2 alone. -/
theorem setViaFail_spare_rd {c p n : Nat} {r : Remap} (hs : r.spare < 4) (b : Bool) {a : Nat} (ha : a ≠ R.CHP_FAIL_MAP2 c p) :
    n = (if r.ca then 14 else 36) + r.spare → (s.setViaFail c p ⟨r.ca, BitVec.ofNat 6 n⟩ b).rd a = s.rd a := by
  rintro rfl
  have hw : ∀ f i x, (s.setBit (R.CHP_FAIL_MAP2 c p) f i x).rd a = s.rd a := fun f i x => (rd_put ..).trans (if_neg ha)
  unfold setViaFail
  dsimp only
  rw [BitVec.toNat_ofNat]
  cases r.ca
  · simp only [Bool.false_eq_true, if_false]
    rw [if_neg (by omega), if_neg (by omega), hw]
  · simp only [if_true]
    rw [if_neg (by omega), hw]

/-- A spare via has passed its verify. -/
def remapPassed (s : State) (c p : Nat) (r : Remap) : State :=
  (s.setViaFail c p ⟨r.ca, BitVec.ofNat 6 ((if r.ca then 14 else 36) + r.spare)⟩ false).setRemap c (some { r with verified := true })

theorem remapVerified_eq {c p : Nat} {r : Remap} (hr : s.remapOf c = some r) (hp : r.p = p) (hv : r.verified = false) :
    s.remapVerified c p true = s.remapPassed c p r := by
  unfold remapVerified
  rw [hr]
  exact if_neg (by simp [hp, hv])

theorem remapFailed_going {c : Nat} {r : Remap} (h : s.remapOf c = some r) : s.remapFailed c = s := if_neg (by simp [h])
theorem remapNext_going {c : Nat} {r : Remap} (h : s.remapOf c = some r) : s.remapNext c = s := if_pos (by simp [h])

/-! ### Row repairs -/

theorem rowCmd_bits (v : Word) : F.CHP_ROW_REPAIR_CMD_START.get (F.CHP_ROW_REPAIR_CMD_START.set 1 v &&& 8388607#32) = 1 ∧
    F.CHP_ROW_REPAIR_CMD_PCH.get (F.CHP_ROW_REPAIR_CMD_START.set 1 v &&& 8388607#32) = F.CHP_ROW_REPAIR_CMD_PCH.get v ∧
    F.CHP_ROW_REPAIR_CMD_SID.get (F.CHP_ROW_REPAIR_CMD_START.set 1 v &&& 8388607#32) = F.CHP_ROW_REPAIR_CMD_SID.get v ∧
    F.CHP_ROW_REPAIR_CMD_BANK.get (F.CHP_ROW_REPAIR_CMD_START.set 1 v &&& 8388607#32) = F.CHP_ROW_REPAIR_CMD_BANK.get v ∧
    F.CHP_ROW_REPAIR_CMD_ROW.get (F.CHP_ROW_REPAIR_CMD_START.set 1 v &&& 8388607#32) = F.CHP_ROW_REPAIR_CMD_ROW.get v := by
  refine ⟨?_, ?_, ?_, ?_, ?_⟩
  · rw [Fld.get_and _ (by decide), Fld.get_set _ _ _ (by decide)]
    rfl
  all_goals rw [Fld.get_and _ (by decide), Fld.get_set_other _ _ _ _ (by decide)]

theorem regSet_rowRepair (c : Fin 32) (w : RegWrite) (ho : Open s w.path (R.CHP_ROW_REPAIR_CMD c)) :
    s.regSet w (R.CHP_ROW_REPAIR_CMD c) F.CHP_ROW_REPAIR_CMD_START =
      (s.rowRepairStart c (F.CHP_ROW_REPAIR_CMD_PCH.get w.value) (F.CHP_ROW_REPAIR_CMD_SID.get w.value)
        (F.CHP_ROW_REPAIR_CMD_BANK.get w.value) (F.CHP_ROW_REPAIR_CMD_ROW.get w.value)).settle := by
  obtain ⟨⟨-, -, hplain⟩, -⟩ := chp_plain c
  obtain ⟨h1, h2, h3, h4, h5⟩ := rowCmd_bits w.value
  refine (chp_write (F.CHP_ROW_REPAIR_CMD_START.set 1 w.value) (show R.CHP_ROW_REPAIR_CMD c = 0x140000 + 0x94 + 0x1000 * c from rfl)
    (by decide) (by decide) hplain ho).trans (congrArg settle ?_)
  refine (if_pos h1).trans ?_
  rw [h2, h3, h4, h5]

/-- The frame of a row in repair is held as one being zeroed. -/
def rowHeld (s : State) (f : Nat) : State := { s with place := { s.place with zeroing := s.place.zeroing ++ [f] } }.setFrame f 1

/-- A row repair runs. -/
def rowRuns (s : State) (c : Nat) (r : RowRep) : State :=
  ({ s with ch := { s.ch with repair := SMap.set (fun _ => none) c (some r) s.ch.repair } }.flag (R.CHP_ROW_REPAIR_STAT c)
    F.CHP_ROW_REPAIR_STAT_BUSY true).flag (R.CHP_ROW_REPAIR_STAT c) F.CHP_ROW_REPAIR_STAT_FAILED false

theorem rowHeld_spec (s : State) (f : Nat) : (s.rowHeld f).frameCode f = 1 ∧ f ∈ (s.rowHeld f).place.zeroing ∧
    (s.rowHeld f).place.table = s.place.table ∧ (s.rowHeld f).dram = s.dram ∧ LadderKept s (s.rowHeld f) ∧
    ∀ a, pageOf a ≠ 0x00C → (s.rowHeld f).rd a = s.rd a := by
  have hz : (s.rowHeld f).place.zeroing = s.place.zeroing ++ [f] :=
    (setFrame_blind _ f 1 (g := fun t => t.place.zeroing) ⟨fun _ _ _ => rfl, fun _ _ _ => by simp, fun _ _ _ _ _ _ => rfl, fun _ _ => rfl,
      fun _ _ _ _ => rfl⟩ fun _ _ => rfl).trans rfl
  have hk : LadderKept { s with place := { s.place with zeroing := s.place.zeroing ++ [f] } } (s.rowHeld f) := .setFrame _ f 1
  refine ⟨frameCode_setFrame _ f 1, by rw [hz]; simp, ?_, ?_, ⟨hk.handed, hk.declared, hk.rows, hk.retiring⟩, fun a ha => setFrame_rd ha f 1⟩
  · exact setFrame_blind _ f 1 bookBlind_table fun _ _ => rfl
  · exact setFrame_blind _ f 1 placeBlind_dram.book fun _ _ => rfl

theorem rowRuns_spec (s : State) (c : Nat) (r : RowRep) : (s.rowRuns c r).place = s.place ∧ (s.rowRuns c r).dram = s.dram ∧
    (s.rowRuns c r).fcol = s.fcol ∧ (s.rowRuns c r).spare = s.spare ∧
    (s.rowRuns c r).on (R.CHP_ROW_REPAIR_STAT c) F.CHP_ROW_REPAIR_STAT_BUSY = true ∧
    ∀ a, a ≠ R.CHP_ROW_REPAIR_STAT c → (s.rowRuns c r).rd a = s.rd a := by
  refine ⟨rfl, rfl, rfl, rfl, ?_, fun a ha => ?_⟩
  · exact (on_flag_other _ _ _ _ _ _ (.inr (by decide))).trans (on_flag_same _ _ _ _ (by decide) rfl)
  · exact ((rd_flag ..).trans (if_neg ha)).trans ((rd_flag ..).trans (if_neg ha))

/-- A row repair has ended; its frame, bank and row are recorded. -/
def rowUsed (s : State) (c : Nat) (r : RowRep) (n : Nat) : State :=
  ({ s with ch := { s.ch with
      repair := SMap.set (fun _ => none) c none s.ch.repair
      rowsUsed := SMap.set (fun _ => 0) (64 * (2 * c + r.p) + 16 * r.sid + r.bank) n s.ch.rowsUsed } }.flag (R.CHP_ROW_REPAIR_STAT c)
    F.CHP_ROW_REPAIR_STAT_BUSY false).put (R.CHP_ROW_REPAIR_STAT c) F.CHP_ROW_REPAIR_STAT_ROWS_LEFT (4 - n)

/-- Its record, and its bucket. -/
def rowRecorded (s : State) (c : Nat) (r : RowRep) (n : Nat) : State :=
  ((s.incSat (R.DDIE_ROWS_REPAIRED (4 * r.sid + c % 4)) F.DDIE_ROWS_REPAIRED_COUNT).recordStep (resRow c r.p r.sid r.bank r.row) 2
    (n - 1)).undeclare (resRow c r.p r.sid r.bank r.row)

theorem rowRepairDone_eq {c : Nat} {r : RowRep} (h : s.rowRep c = some r) : s.rowRepairDone c =
    (s.rowUsed c r (s.rowsUsedOf (2 * c + r.p) (16 * r.sid + r.bank) + 1)).rowRecorded c r
      (s.rowsUsedOf (2 * c + r.p) (16 * r.sid + r.bank) + 1) := by
  have hk : s.rowsUsedOf (2 * c + r.p) (16 * r.sid + r.bank) = SMap.get (fun _ => 0) s.ch.rowsUsed (64 * (2 * c + r.p) + 16 * r.sid + r.bank) := by
    unfold rowsUsedOf
    rw [Nat.add_assoc]
  unfold rowRepairDone
  rw [h, hk]
  rfl

theorem rowUsed_spec (s : State) (c : Nat) (r : RowRep) (n : Nat) : (s.rowUsed c r n).rowRep c = none ∧
    (s.rowUsed c r n).rowsUsedOf (2 * c + r.p) (16 * r.sid + r.bank) = n ∧
    (s.rowUsed c r n).on (R.CHP_ROW_REPAIR_STAT c) F.CHP_ROW_REPAIR_STAT_BUSY = false ∧ (s.rowUsed c r n).place = s.place ∧
    (s.rowUsed c r n).fcol = s.fcol ∧ (s.rowUsed c r n).spare = s.spare ∧ MemKept s (s.rowUsed c r n) := by
  have h1 : (s.rowUsed c r n).ch.repair = SMap.set (fun _ => none) c none s.ch.repair := rfl
  have h2 : (s.rowUsed c r n).ch.rowsUsed = SMap.set (fun _ => 0) (64 * (2 * c + r.p) + 16 * r.sid + r.bank) n s.ch.rowsUsed := rfl
  refine ⟨?_, ?_, ?_, rfl, rfl, rfl, ⟨rfl, rfl, rfl, rfl, rfl, rfl⟩⟩
  · unfold rowRep
    rw [h1, Sys2Proof.Laws.SMap.get_set_same]
  · unfold rowsUsedOf
    rw [h2, ← Nat.add_assoc, Sys2Proof.Laws.SMap.get_set_same]
  · exact (on_put_other _ _ _ _ _ _ (.inr (by decide))).trans (on_flag_same _ _ _ _ (by decide) rfl)

theorem rowRecorded_spec (s : State) (c : Nat) (r : RowRep) (n : Nat) : (s.rowRecorded c r n).ch = s.ch ∧
    (s.rowRecorded c r n).place = s.place ∧ (s.rowRecorded c r n).spare.rows = s.spare.rows ∧
    (s.rowRecorded c r n).fcol.handed = s.fcol.handed ∧
    (s.rowRecorded c r n).fcol.declared = s.fcol.declared.filter (· ≠ resRow c r.p r.sid r.bank r.row) ∧
    (∀ a, a ≠ R.DDIE_ROWS_REPAIRED (4 * r.sid + c % 4) → (s.rowRecorded c r n).rd a = s.rd a) ∧ MemKept s (s.rowRecorded c r n) := by
  unfold rowRecorded
  have h1 := rd_incSat_other s (R.DDIE_ROWS_REPAIRED (4 * r.sid + c % 4))
  have h2 : MemKept s (s.incSat (R.DDIE_ROWS_REPAIRED (4 * r.sid + c % 4)) F.DDIE_ROWS_REPAIRED_COUNT) := by simp [MemKept]
  have h3 : (s.incSat (R.DDIE_ROWS_REPAIRED (4 * r.sid + c % 4)) F.DDIE_ROWS_REPAIRED_COUNT).ch = s.ch ∧
    (s.incSat (R.DDIE_ROWS_REPAIRED (4 * r.sid + c % 4)) F.DDIE_ROWS_REPAIRED_COUNT).place = s.place ∧
    (s.incSat (R.DDIE_ROWS_REPAIRED (4 * r.sid + c % 4)) F.DDIE_ROWS_REPAIRED_COUNT).spare = s.spare ∧
    (s.incSat (R.DDIE_ROWS_REPAIRED (4 * r.sid + c % 4)) F.DDIE_ROWS_REPAIRED_COUNT).fcol.handed = s.fcol.handed ∧
    (s.incSat (R.DDIE_ROWS_REPAIRED (4 * r.sid + c % 4)) F.DDIE_ROWS_REPAIRED_COUNT).fcol.declared = s.fcol.declared := by simp
  have h4 : ∀ a, a ≠ R.DDIE_ROWS_REPAIRED (4 * r.sid + c % 4) →
    (s.incSat (R.DDIE_ROWS_REPAIRED (4 * r.sid + c % 4)) F.DDIE_ROWS_REPAIRED_COUNT).rd a = s.rd a := fun a ha => h1 _ _ _ ha
  generalize s.incSat (R.DDIE_ROWS_REPAIRED (4 * r.sid + c % 4)) F.DDIE_ROWS_REPAIRED_COUNT = u at *
  obtain ⟨k1, k2, k3, k4, k5⟩ := h3
  refine ⟨k1, k2, by rw [← k3]; rfl, k4, congrArg (List.filter _) k5, h4, h2⟩

theorem rowRepairStart_fails {c p sid bank row : Nat} (hn : s.rowRep c = none) (ho : s.occupied (frameOfRow c p sid bank row) = true) :
    s.rowRepairStart c p sid bank row = s.flag (R.CHP_ROW_REPAIR_STAT c) F.CHP_ROW_REPAIR_STAT_FAILED true := by
  unfold rowRepairStart
  dsimp only
  rw [if_neg (by simp [hn])]
  exact if_pos (by simp [ho])

theorem rowRepairStart_runs {c p sid bank row : Nat} (hn : s.rowRep c = none) (hf : s.frameCode (frameOfRow c p sid bank row) = 0)
    (hl : s.rowsUsedOf (2 * c + p) (16 * sid + bank) < 4) :
    s.rowRepairStart c p sid bank row = (s.rowHeld (frameOfRow c p sid bank row)).rowRuns c ⟨p, sid, bank, row⟩ := by
  unfold rowRepairStart
  dsimp only
  rw [if_neg (by simp [hn]), if_neg (by simp [occupied, hf, hl]), if_pos hf]
  rfl

end State
end Sys2Proof.Machine

namespace Sys2Proof.Safety
open Sys2Proof.Machine Sys2Proof.Machine.State

variable {s : State}

theorem trainingDue_gives (c : Fin 32) (p : Bool) (hen : s.on (R.CHP_PHY_CTL c) F.CHP_PHY_CTL_PERIODIC_EN = true)
    (hf : s.on (R.CHP_PHY_CTL c) F.CHP_PHY_CTL_TRAIN_FREEZE = false) (h : s.released = true) (hd : s.clk.dramInit = true)
    (hx : s.pchRetired (2 * c + p.toNat) = false) (hp : s.on R.CAL_CAL_STAT F.CAL_CAL_STAT_PENDING = false) :
    Gives (.periodicTrainingDue c p) s fun t =>
      (t.pch (2 * c + p.toNat)).training = true ∧ t.on (R.CHP_PHY_STAT c) F.CHP_PHY_STAT_TRAINING = true ∧ MemKept s t ∧
        RegsKept s t [] [R.CHP_PHY_STAT c] := by
  have he : s.trainDue c.val p.toNat = s.trains c.val p.toNat := (if_pos hen).trans (trainStart_eq h hd hf hx hp)
  have hpch := trains_pch s c.val p.toNat (2 * c.val + p.toNat)
  have hon : (s.trains c.val p.toNat).on (R.CHP_PHY_STAT c) F.CHP_PHY_STAT_TRAINING = true := trains_on (by cases p <;> decide)
  obtain ⟨-, -, -, -, -, k1, k2⟩ := trains_spec s c.val p.toNat
  rw [if_pos rfl] at hpch
  refine gives_of_eq rfl ((clocked_eq h fun s => s.trainDue c.val p.toNat).trans he) ⟨by rw [hpch], hon, k2, fun a _ ha => k1 a ?_⟩
  simpa using ha

theorem phyRetrain_gives (c : Fin 32) (w : RegWrite) (ho : Open s w.path (R.CHP_PHY_CTL c)) (hc : Calm s)
    (hf : F.CHP_PHY_CTL_TRAIN_FREEZE.get w.value = 0) (hd : s.clk.dramInit = true) (h : s.released = true)
    (hx : s.pchRetired (2 * c) = false) (hy : s.pchRetired (2 * c + 1) = false)
    (hp : s.on R.CAL_CAL_STAT F.CAL_CAL_STAT_PENDING = false) : Gives (.phyRetrain c w) s fun t =>
      (t.pch (2 * c)).training = true ∧ (t.pch (2 * c + 1)).training = true ∧
        t.on (R.CHP_PHY_STAT c) F.CHP_PHY_STAT_TRAINING = true ∧ MemKept s t ∧
        RegsKept s t [0x014] [R.CHP_PHY_STAT c, R.CHP_PHY_CTL c] := by
  obtain ⟨⟨hplain, -⟩, -⟩ := chp_plain c
  have he := chp_write (F.CHP_PHY_CTL_RETRAIN.set 1 w.value) (show R.CHP_PHY_CTL c = 0x140000 + 0x40 + 0x1000 * c from rfl)
    (by decide) (by decide) hplain ho
  have hretrain : F.CHP_PHY_CTL_RETRAIN.get (F.CHP_PHY_CTL_RETRAIN.set 1 w.value &&& 1#32) = 1 := by
    rw [Fld.get_and _ (by decide), Fld.get_set _ _ _ (by decide)]
    rfl
  have hfreeze : F.CHP_PHY_CTL_TRAIN_FREEZE.get ((s.cur (R.CHP_PHY_CTL c) &&& ~~~65534#32) |||
      (F.CHP_PHY_CTL_RETRAIN.set 1 w.value &&& 65534#32)) = 0 := by
    rw [Fld.get_merge _ _ (by decide), Fld.get_set_other _ _ _ _ (by decide), hf]
  generalize (s.cur (R.CHP_PHY_CTL c) &&& ~~~65534#32) ||| (F.CHP_PHY_CTL_RETRAIN.set 1 w.value &&& 65534#32) = new at *
  have hwr : s.wrChp c 0x40 new (F.CHP_PHY_CTL_RETRAIN.set 1 w.value &&& 1#32) =
      ((s.wr (R.CHP_PHY_CTL c) new).trainStart c 0).trainStart c 1 := by
    have ha : 0x1000 * (0x140 + c.val) + 0x40 = R.CHP_PHY_CTL c := by
      simp only [R.CHP_PHY_CTL]
      omega
    unfold wrChp
    rw [ha, if_pos rfl]
    exact if_pos hretrain
  have hpg : pageOf (R.CHP_PHY_CTL c) = 0x140 + c ∧ offOf (R.CHP_PHY_CTL c) = 0x40 := chp_page c rfl (by decide)
  have hwrd : ∀ a, a ≠ R.CHP_PHY_CTL c → (s.wr (R.CHP_PHY_CTL c) new).rd a = s.rd a := fun a ha => rd_wr_other _ _ _ _ ha
  have hlow : ∀ a, a < 0x140000 → a ≠ R.CHP_PHY_CTL c := fun a ha => by
    simp only [R.CHP_PHY_CTL]
    omega
  have hstat : R.CHP_PHY_STAT c ≠ R.CHP_PHY_CTL c := by simp only [R.CHP_PHY_STAT, R.CHP_PHY_CTL]; omega
  have hret : ∀ p, p < 2 → (s.wr (R.CHP_PHY_CTL c) new).pchRetired (2 * c + p) = s.pchRetired (2 * c + p) := fun p hp => by
    unfold pchRetired
    rw [show (2 * c.val + p) / 2 = c by omega]
    exact on_eq_of_rd (hwrd _ hstat) _
  have hfz : (s.wr (R.CHP_PHY_CTL c) new).on (R.CHP_PHY_CTL c) F.CHP_PHY_CTL_TRAIN_FREEZE = false := by
    rw [on_eq_false, fld_wr_same, hfreeze]
  have hpend := (on_eq_of_rd (hwrd R.CAL_CAL_STAT (hlow _ (by decide))) F.CAL_CAL_STAT_PENDING).trans hp
  have hrel : (s.wr (R.CHP_PHY_CTL c) new).released = s.released := released_congr rfl fun a ha => hwrd a (hlow a (by
    revert a
    decide))
  have hcu : Calm (s.wr (R.CHP_PHY_CTL c) new) := wr_calm hc
  have hreg : RegsKept s (s.wr (R.CHP_PHY_CTL c) new) [0x014] [R.CHP_PHY_STAT c, R.CHP_PHY_CTL c] := (RegsKept.refl s).wr _ (.inl (by simp))
  have hmem : MemKept s (s.wr (R.CHP_PHY_CTL c) new) := wr_memKept ..
  have hdu : (s.wr (R.CHP_PHY_CTL c) new).clk.dramInit = true := hd
  generalize s.wr (R.CHP_PHY_CTL c) new = u at *
  have e1 : u.trainStart c 0 = u.trains c 0 := trainStart_eq (hrel.trans h) hdu hfz ((hret 0 (by decide)).trans hx) hpend
  have q1 := trains_pch u c.val 0
  obtain ⟨k1, k2, k3, k4, k5, k6, k7⟩ := trains_spec u c.val 0
  have r1 := trains_retired u c.val 0
  generalize u.trains c.val 0 = v at *
  have hctl : R.CHP_PHY_CTL c ≠ R.CHP_PHY_STAT c := fun e => hstat e.symm
  have hlow' : ∀ a, a < 0x140000 → a ≠ R.CHP_PHY_STAT c := fun a ha => by
    simp only [R.CHP_PHY_STAT]
    omega
  have hrelv : v.released = true := (released_congr k1 fun a ha => k6 a (hlow' a (by revert a; decide))).trans (hrel.trans h)
  have e2 : v.trainStart c 1 = v.trains c 1 := trainStart_eq hrelv (by rw [k1, hdu]) ((k5 _ _ (.inl hctl)).trans hfz)
    ((r1 _).trans ((hret 1 (by decide)).trans hy)) ((k5 _ _ (.inl (hlow' _ (by decide)))).trans hpend)
  have q2 := trains_pch v c.val 1
  have hon : (v.trains c.val 1).on (R.CHP_PHY_STAT c) F.CHP_PHY_STAT_TRAINING = true := trains_on (by decide)
  obtain ⟨m1, m2, m3, m4, m5, m6, m7⟩ := trains_spec v c.val 1
  rw [hwr, e1, e2] at he
  generalize v.trains c.val 1 = x at *
  have hcx : Calm x := hcu.of_parts (congrArg FcolState.handed (m2.trans k2)) (congrArg FcolState.declared (m2.trans k2))
    (congrArg SpareState.rows (m3.trans k3)) (congrArg PlaceState.retiring (m4.trans k4))
  have hset : ∀ i, x.settle.pch i = x.pch i := fun i => by
    unfold pch
    rw [settle_ch hcx]
  have hkept : RegsKept s x [0x014] [R.CHP_PHY_STAT c, R.CHP_PHY_CTL c] := fun a h1 h2 => by
    have hne : a ≠ R.CHP_PHY_STAT c := fun e => h2 (by simp [e])
    rw [m6 a hne, k6 a hne, hreg a h1 h2]
  refine gives_of_eq rfl he ⟨?_, ?_, (on_eq_of_rd (settle_rd hcx _ ?_) _).trans hon, ((hmem.trans k7).trans m7).trans (.settle hcx),
    hkept.trans (.settle hcx (by simp))⟩
  · rw [hset, q2, if_neg (by omega), q1, if_pos (show 2 * c.val = 2 * c.val + 0 from rfl)]
  · rw [hset, q2, if_pos rfl]
  · simp only [pageOf, R.CHP_PHY_STAT]
    omega

theorem trainingDone_gives (c : Fin 32) (p : Bool) (x : TsvIn) (hc : Calm s) (h : s.released = true)
    (ht : (s.pch (2 * c + p.toNat)).training = true) (hf : x.failed = []) (hk : x.ckFailed = false)
    (hcal : x.cal.all (fun v => decide (v.1.toNat < 58)) = true) : Gives (.periodicTrainingDone c p x) s fun t =>
      (t.pch (2 * c + p.toNat)).training = false ∧
        (t.pch (2 * c + p.toNat)).apply = some (x.cal.map fun v => (v.1.toNat, v.2)) ∧
        t.rd (R.CHP_FAIL_MAP c p.toNat) = 0 ∧ MemKept s t := by
  have he := (clocked_eq h fun s => (s.trainDone c.val p.toNat x).settle).trans (congrArg settle (trainDone_eq ht hf hk hcal))
  generalize x.cal.map (fun v => (v.1.toNat, v.2)) = vals at *
  have hpch : ((s.trainEnded (2 * c + p.toNat) vals).syncTraining c).pch (2 * c + p.toNat) =
      { s.pch (2 * c + p.toNat) with training := false, apply := some vals, trainedAt := s.clk.up + 1, trainedT := s.dieNodes (2 * c + p.toNat) } :=
    (pch_setPch ..).trans (if_pos rfl)
  have hkept : ((s.trainEnded (2 * c + p.toNat) vals).syncTraining c).fcol = s.fcol ∧
      ((s.trainEnded (2 * c + p.toNat) vals).syncTraining c).spare = s.spare ∧
      MemKept s ((s.trainEnded (2 * c + p.toNat) vals).syncTraining c) := ⟨rfl, rfl, ⟨rfl, rfl, rfl, rfl, rfl, rfl⟩⟩
  generalize (s.trainEnded (2 * c + p.toNat) vals).syncTraining c = u at *
  obtain ⟨h1, h2, h3⟩ := hkept
  have hmap := allPass_failMap u c.val p.toNat (by cases p <;> decide)
  have hch := allPass_same (g := State.ch) (fun _ _ _ => rfl) u c.val p.toNat
  have hfc := allPass_same (g := State.fcol) (fun _ _ _ => rfl) u c.val p.toNat
  have hsp := allPass_same (g := State.spare) (fun _ _ _ => rfl) u c.val p.toNat
  have hmm := allPass_same (g := fun s : State => (s.dram, s.cache, s.wdb, s.place, s.otp, s.mgmt.flash)) (fun _ _ _ => rfl) u c.val p.toNat
  generalize u.allPass c.val p.toNat = v at *
  simp only [Prod.mk.injEq] at hmm
  have hmv : MemKept u v := hmm
  have hcv : Calm v := hc.of_parts (congrArg FcolState.handed (hfc.trans h1)) (congrArg FcolState.declared (hfc.trans h1))
    (congrArg SpareState.rows (hsp.trans h2)) (congrArg PlaceState.retiring (h3.trans hmv).place_eq)
  have hset : v.settle.pch (2 * c + p.toNat) = u.pch (2 * c + p.toNat) := by
    unfold pch
    rw [settle_ch hcv, hch]
  refine gives_of_eq rfl he ⟨by rw [hset, hpch], by rw [hset, hpch], (settle_rd hcv _ ?_).trans hmap, (h3.trans hmv).trans (.settle hcv)⟩
  have hp : p.toNat < 2 := by cases p <;> decide
  simp only [pageOf, R.CHP_FAIL_MAP]
  omega

theorem remapCmd_gives (c : Fin 32) (w : RegWrite) (i : Nat) (ho : Open s w.path (R.CHP_REMAP_CMD c)) (hc : Calm s)
    (hn : s.remapOf c = none) (hcl : F.CHP_REMAP_CMD_CLASS.get w.value = 0)
    (hi : (State.spareNums false).find? (s.spareFree (2 * c + F.CHP_REMAP_CMD_PCH.get w.value) false) = some i) :
    Gives (.remapCmd c w) s fun t =>
      t.remapOf c = some ⟨F.CHP_REMAP_CMD_PCH.get w.value, false, F.CHP_REMAP_CMD_VIA.get w.value, i, false⟩ ∧
        t.on (R.CHP_REMAP_STAT c) F.CHP_REMAP_STAT_BUSY = true ∧ MemKept s t ∧
        RegsKept s t [0x014] [R.CHP_REMAP_STAT c] := by
  obtain ⟨⟨-, hplain, -⟩, -⟩ := chp_plain c
  obtain ⟨h1, h2, h3, h4⟩ := remapCmd_bits w.value
  have he := chp_write (F.CHP_REMAP_CMD_START.set 1 w.value) (show R.CHP_REMAP_CMD c = 0x140000 + 0x58 + 0x1000 * c from rfl)
    (by decide) (by decide) hplain ho
  have hw : s.wrChp c 0x58 ((s.cur (R.CHP_REMAP_CMD c) &&& ~~~0#32) ||| (F.CHP_REMAP_CMD_START.set 1 w.value &&& 0#32))
      (F.CHP_REMAP_CMD_START.set 1 w.value &&& 511#32) =
      s.remapFound c ⟨F.CHP_REMAP_CMD_PCH.get w.value, false, F.CHP_REMAP_CMD_VIA.get w.value, i, false⟩ := by
    refine (if_pos h1).trans ?_
    rw [h2, h3, h4, hcl]
    exact remapStart_eq hn hi
  rw [hw] at he
  generalize (⟨F.CHP_REMAP_CMD_PCH.get w.value, false, F.CHP_REMAP_CMD_VIA.get w.value, i, false⟩ : Remap) = r at *
  have hcu : Calm (s.remapFound c r) := hc.of_parts rfl rfl rfl rfl
  have hreg : RegsKept s (s.remapFound c r) [0x014] [R.CHP_REMAP_STAT c] := RegsKept.flag (fun _ _ _ => rfl) _ _ (.inl (by simp))
  have hmem : MemKept s (s.remapFound c r) := ⟨rfl, rfl, rfl, rfl, rfl, rfl⟩
  have hrem : (s.remapFound c r).remapOf c = some r := remapOf_setRemap s c (some r)
  have hon : (s.remapFound c r).on (R.CHP_REMAP_STAT c) F.CHP_REMAP_STAT_BUSY = true := on_flag_same _ _ _ _ (by decide) rfl
  generalize s.remapFound c r = u at *
  refine gives_of_eq rfl he ⟨?_, (on_eq_of_rd (settle_rd hcu _ ?_) _).trans hon, hmem.trans (.settle hcu), hreg.trans (.settle hcu (by simp))⟩
  · unfold remapOf at hrem ⊢
    rw [settle_ch hcu]
    exact hrem
  · simp only [pageOf, R.CHP_REMAP_STAT]
    omega

theorem remapVerify_gives (c : Fin 32) (p : Bool) (r : Remap) (hc : Calm s) (h : s.released = true) (hr : s.remapOf c = some r)
    (hp : r.p = p.toNat) (hv : r.verified = false) (hs : r.spare < 4) : Gives (.remapVerifyDone c p true) s fun t =>
      t.remapOf c = some { r with verified := true } ∧ MemKept s t ∧ RegsKept s t [0x014] [R.CHP_FAIL_MAP2 c p.toNat] := by
  have hrem : (s.remapPassed c p.toNat r).remapOf c = some { r with verified := true } := remapOf_setRemap _ c _
  have he : s.clocked (fun s => ((((s.remapVerified c.val p.toNat true).remapFailed c.val).remapNext c.val).remapFailed c.val).settle) =
      (s.remapPassed c p.toNat r).settle := by
    rw [clocked_eq h, remapVerified_eq hr hp hv, remapFailed_going hrem, remapNext_going hrem, remapFailed_going hrem]
  have hreg : RegsKept s (s.remapPassed c p.toNat r) [0x014] [R.CHP_FAIL_MAP2 c p.toNat] := fun a _ ha =>
    setViaFail_spare_rd hs false (fun e => ha (by simp [e])) rfl
  have hcalm := setViaFail_same (g := fun s : State => (s.fcol, s.spare)) (fun _ _ _ => rfl) s c p.toNat
    ⟨r.ca, BitVec.ofNat 6 ((if r.ca then 14 else 36) + r.spare)⟩ false
  have hmm := setViaFail_same (g := fun s : State => (s.dram, s.cache, s.wdb, s.place, s.otp, s.mgmt.flash)) (fun _ _ _ => rfl) s c p.toNat
    ⟨r.ca, BitVec.ofNat 6 ((if r.ca then 14 else 36) + r.spare)⟩ false
  simp only [Prod.mk.injEq] at hcalm hmm
  obtain ⟨k1, k2⟩ := hcalm
  have hmu : MemKept s (s.remapPassed c p.toNat r) := hmm
  have hf : (s.remapPassed c p.toNat r).fcol = s.fcol ∧ (s.remapPassed c p.toNat r).spare = s.spare := ⟨k1, k2⟩
  generalize s.remapPassed c p.toNat r = u at *
  obtain ⟨f1, f2⟩ := hf
  have hcu : Calm u := hc.of_parts (congrArg FcolState.handed f1) (congrArg FcolState.declared f1) (congrArg SpareState.rows f2)
    (congrArg PlaceState.retiring hmu.place_eq)
  refine gives_of_eq rfl he ⟨?_, hmu.trans (.settle hcu), hreg.trans (.settle hcu (by simp))⟩
  unfold remapOf at hrem ⊢
  rw [settle_ch hcu]
  exact hrem

theorem settle_rowRep {u : State} (hc : Calm u) (c : Nat) : u.settle.rowRep c = u.rowRep c := by
  unfold rowRep
  rw [settle_ch hc]

theorem rowStat_page (c : Fin 32) : pageOf (R.CHP_ROW_REPAIR_STAT c) ≠ 0x014 ∧ pageOf (R.CHP_ROW_REPAIR_STAT c) ≠ 0x00C := by
  simp only [pageOf, R.CHP_ROW_REPAIR_STAT]
  omega

theorem rowRepairCmd_fails (c : Fin 32) (w : RegWrite) (ho : Open s w.path (R.CHP_ROW_REPAIR_CMD c)) (hc : Calm s) (hn : s.rowRep c = none)
    (hf : s.occupied (frameOfRow c (F.CHP_ROW_REPAIR_CMD_PCH.get w.value) (F.CHP_ROW_REPAIR_CMD_SID.get w.value)
      (F.CHP_ROW_REPAIR_CMD_BANK.get w.value) (F.CHP_ROW_REPAIR_CMD_ROW.get w.value)) = true) : Gives (.rowRepairCmd c w) s fun t =>
      t.on (R.CHP_ROW_REPAIR_STAT c) F.CHP_ROW_REPAIR_STAT_FAILED = true ∧ t.rowRep c = none ∧ MemKept s t ∧
        RegsKept s t [0x014] [R.CHP_ROW_REPAIR_STAT c] := by
  have he := (regSet_rowRepair c w ho).trans (congrArg settle (rowRepairStart_fails hn hf))
  have hcu : Calm (s.flag (R.CHP_ROW_REPAIR_STAT c) F.CHP_ROW_REPAIR_STAT_FAILED true) := flag_calm hc
  exact gives_of_eq rfl he ⟨(on_eq_of_rd (settle_rd hcu _ (rowStat_page c).1) _).trans (on_flag_same _ _ _ _ (by decide) rfl),
    (settle_rowRep hcu c).trans hn, (flag_memKept ..).trans (.settle hcu), ((RegsKept.refl s).flag _ _ (.inl (by simp))).trans
      (.settle hcu (by simp))⟩

theorem rowRepairCmd_runs (c : Fin 32) (w : RegWrite) (f : Nat) (ho : Open s w.path (R.CHP_ROW_REPAIR_CMD c)) (hc : Calm s)
    (hn : s.rowRep c = none) (hf : f = frameOfRow c (F.CHP_ROW_REPAIR_CMD_PCH.get w.value) (F.CHP_ROW_REPAIR_CMD_SID.get w.value)
      (F.CHP_ROW_REPAIR_CMD_BANK.get w.value) (F.CHP_ROW_REPAIR_CMD_ROW.get w.value)) (h0 : s.frameCode f = 0)
    (hl : s.rowsUsedOf (2 * c + F.CHP_ROW_REPAIR_CMD_PCH.get w.value)
      (16 * F.CHP_ROW_REPAIR_CMD_SID.get w.value + F.CHP_ROW_REPAIR_CMD_BANK.get w.value) < 4) : Gives (.rowRepairCmd c w) s fun t =>
      t.on (R.CHP_ROW_REPAIR_STAT c) F.CHP_ROW_REPAIR_STAT_BUSY = true ∧ t.frameCode f = 1 ∧ f ∈ t.place.zeroing ∧
        t.place.table = s.place.table ∧ t.dram = s.dram ∧ RegsKept s t [0x014, 0x00C] [R.CHP_ROW_REPAIR_STAT c] := by
  rw [hf] at h0
  have he := (regSet_rowRepair c w ho).trans (congrArg settle (rowRepairStart_runs hn h0 hl))
  rw [← hf] at he
  obtain ⟨h1, h2, h3, h4, h5, h6⟩ := rowHeld_spec s f
  generalize s.rowHeld f = u at *
  generalize (⟨F.CHP_ROW_REPAIR_CMD_PCH.get w.value, F.CHP_ROW_REPAIR_CMD_SID.get w.value, F.CHP_ROW_REPAIR_CMD_BANK.get w.value,
    F.CHP_ROW_REPAIR_CMD_ROW.get w.value⟩ : RowRep) = r at *
  obtain ⟨k1, k2, k3, k4, k5, k6⟩ := rowRuns_spec u c.val r
  generalize u.rowRuns c.val r = v at *
  have hcv : Calm v := (h5.calm hc).of_parts (congrArg FcolState.handed k3) (congrArg FcolState.declared k3) (congrArg SpareState.rows k4)
    (congrArg PlaceState.retiring k1)
  have hplace := (settle_place hcv).trans k1
  refine gives_of_eq rfl he ⟨(on_eq_of_rd (settle_rd hcv _ (rowStat_page c).1) _).trans k5, ?_, ?_, ?_, ?_, fun a hp ha => ?_⟩
  · unfold frameCode cap at h1 ⊢
    rwa [hplace]
  · rwa [hplace]
  · rw [hplace, h3]
  · rw [settle_dram hcv, k2, h4]
  · simp only [List.mem_cons, List.not_mem_nil, or_false, not_or] at hp ha
    rw [settle_rd hcv a hp.1, k6 a ha, h6 a hp.2]

theorem rowRepairDone_gives (c : Fin 32) (r : RowRep) (hc : Calm s) (h : s.released = true) (hr : s.rowRep c = some r) :
    Gives (.rowRepairDone c) s fun t =>
      t.rowRep c = none ∧ t.on (R.CHP_ROW_REPAIR_STAT c) F.CHP_ROW_REPAIR_STAT_BUSY = false ∧
        t.rowsUsedOf (2 * c + r.p) (16 * r.sid + r.bank) = s.rowsUsedOf (2 * c + r.p) (16 * r.sid + r.bank) + 1 ∧
        t.dram = s.dram ∧ t.place.table = s.place.table ∧ t.wdb = s.wdb ∧ t.cache = s.cache := by
  have he := (clocked_eq h fun s => (s.rowRepairDone c.val).settle).trans (congrArg settle (rowRepairDone_eq hr))
  generalize hn : s.rowsUsedOf (2 * c + r.p) (16 * r.sid + r.bank) + 1 = n at *
  obtain ⟨h1, h2, h3, h4, h5, h6, h7⟩ := rowUsed_spec s c.val r n
  generalize s.rowUsed c.val r n = u at *
  obtain ⟨k1, k2, k3, k4, k5, k6, k7⟩ := rowRecorded_spec u c.val r n
  generalize u.rowRecorded c.val r n = v at *
  have hcv : Calm v := by
    obtain ⟨c1, c2, c3, c4⟩ := hc
    refine ⟨by rw [k4, h5, c1], by rw [k3, h6, c2], by rw [k2, h4, c3], fun e he => ?_⟩
    have hd := c4 e he
    unfold declared at hd ⊢
    rw [k5, h5]
    by_contra hx
    simp_all
  have hm := (h7.trans k7).trans (.settle hcv)
  obtain ⟨m1, m2, m3, m4, -⟩ := hm
  have hstat : R.CHP_ROW_REPAIR_STAT c ≠ R.DDIE_ROWS_REPAIRED (4 * r.sid + c % 4) := by
    simp only [R.CHP_ROW_REPAIR_STAT, R.DDIE_ROWS_REPAIRED]
    omega
  refine gives_of_eq rfl he ⟨?_, (on_eq_of_rd ((settle_rd hcv _ (rowStat_page c).1).trans (k6 _ hstat)) _).trans h3, ?_, m1,
    congrArg PlaceState.table m4, m3, m2⟩
  · unfold rowRep at h1 ⊢
    rw [settle_ch hcv, k1]
    exact h1
  · unfold rowsUsedOf at h2 ⊢
    rw [settle_ch hcv, k1]
    exact h2

/-- Settles O32: a training, a remap and a row repair each move their own state and status; the stored lines stay. -/
theorem phyAndRepairs : Obligations.PhyAndRepairs :=
  ⟨fun _ c p hen hf h hd hx hp => trainingDue_gives c p hen hf h hd hx hp,
    fun _ c w ho hc hf hd h hx hy hp => phyRetrain_gives c w ho hc hf hd h hx hy hp,
    fun _ c p x hc h ht hf hk hcal => trainingDone_gives c p x hc h ht hf hk hcal,
    fun _ c w i ho hc hn hcl hi => remapCmd_gives c w i ho hc hn hcl hi,
    fun _ c p r hc h hr hp hv hs _ => remapVerify_gives c p r hc h hr hp hv hs,
    fun _ c w _ ho hc hn hf hocc => rowRepairCmd_fails c w ho hc hn (hf ▸ hocc),
    fun _ c w f ho hc hn hf h0 hl => rowRepairCmd_runs c w f ho hc hn hf h0 hl,
    fun _ c r hc h hr => rowRepairDone_gives c r hc h hr⟩

end Sys2Proof.Safety
end

section
/-! SUPPORT. Honoured guarantees: classes take from what those before them leave (R267). -/

namespace Sys2Proof.Machine
open Sys2Proof.Safety State

/-! ### Sorting -/

theorem sortBy_eq {α : Type} (l : List α) (le : α → α → Bool) : sortBy l le = l.insertionSort fun a b => le a b = true := by
  have hi : ∀ a (l : List α), insertBy le a l = l.orderedInsert (fun a b => le a b = true) a := by
    intro a l
    induction l with
    | nil => rfl
    | cons b l ih =>
      rw [insertBy, ih]
      rfl
  induction l with
  | nil => rfl
  | cons a l ih =>
    rw [List.insertionSort_cons, ← ih, ← hi]
    rfl

theorem sortBy_perm {α : Type} (l : List α) (le : α → α → Bool) : (sortBy l le).Perm l := by
  rw [sortBy_eq]
  exact List.perm_insertionSort _ l

theorem sortBy_pairwise {α : Type} (l : List α) (le : α → α → Bool) (ht : ∀ a b, le a b = true ∨ le b a = true)
    (htr : ∀ a b c, le a b = true → le b c = true → le a c = true) : (sortBy l le).Pairwise fun a b => le a b = true := by
  have : Std.Total fun a b => le a b = true := ⟨ht⟩
  have : IsTrans α fun a b => le a b = true := ⟨htr⟩
  rw [sortBy_eq]
  exact List.pairwise_insertionSort _ l

namespace State

variable {s : State}

/-! ### The order in which guarantees are honoured -/

/-- A class is honoured before another: by its rank, then by its number. -/
def before (s : State) (a b : Nat) : Prop :=
  s.fld (R.BRIDLE_TC_GUAR a) F.BRIDLE_TC_GUAR_RANK < s.fld (R.BRIDLE_TC_GUAR b) F.BRIDLE_TC_GUAR_RANK
    ∨ (s.fld (R.BRIDLE_TC_GUAR a) F.BRIDLE_TC_GUAR_RANK = s.fld (R.BRIDLE_TC_GUAR b) F.BRIDLE_TC_GUAR_RANK ∧ a < b)

theorem rankOrder_perm (s : State) : s.rankOrder.Perm classes := sortBy_perm _ _

theorem rankOrder_pairwise (s : State) : s.rankOrder.Pairwise s.before := by
  have hle := sortBy_pairwise classes (fun a b =>
    decide (s.fld (R.BRIDLE_TC_GUAR a) F.BRIDLE_TC_GUAR_RANK < s.fld (R.BRIDLE_TC_GUAR b) F.BRIDLE_TC_GUAR_RANK
      ∨ (s.fld (R.BRIDLE_TC_GUAR a) F.BRIDLE_TC_GUAR_RANK = s.fld (R.BRIDLE_TC_GUAR b) F.BRIDLE_TC_GUAR_RANK ∧ a ≤ b)))
    (fun a b => by simp only [decide_eq_true_eq]; omega) (fun a b c => by simp only [decide_eq_true_eq]; omega)
  have hnd : s.rankOrder.Nodup := (rankOrder_perm s).nodup_iff.mpr (by decide)
  refine (hle.and hnd).imp fun h => ?_
  obtain ⟨h1, h2⟩ := h
  simp only [decide_eq_true_eq] at h1
  unfold before
  omega

/-! ### Shares of the capacity -/

/-- The registers of classes do not meet. -/
theorem honour_ne {a b : Nat} (h : a ≠ b) : R.BRIDLE_TC_HONOUR a ≠ R.BRIDLE_TC_HONOUR b := by
  simp only [R.BRIDLE_TC_HONOUR]
  omega

/-- A class's guarantee, as it is programmed. -/
def guarOf (s : State) (c : Nat) : Nat := s.fld (R.BRIDLE_TC_GUAR c) F.BRIDLE_TC_GUAR_GUAR

/-- What a class is honoured is put down beside what it lacks. -/
def honour (s : State) (c h : Nat) : State :=
  (s.put (R.BRIDLE_TC_HONOUR c) F.BRIDLE_TC_HONOUR_HONOURED h).put (R.BRIDLE_TC_HONOUR c) F.BRIDLE_TC_HONOUR_SHORT (s.guarOf c - h)

theorem honourOne_eq (p : Nat) (u : State) (c : Nat) : honourOne (p, u) c = (p - min (u.guarOf c) p, u.honour c (min (u.guarOf c) p)) := rfl

theorem guarOf_lt (u : State) (c : Nat) : u.guarOf c < 2 ^ 16 := Fld.get_lt _ _

theorem honour_rd (u : State) (c h a : Nat) (ha : a ≠ R.BRIDLE_TC_HONOUR c) : (u.honour c h).rd a = u.rd a :=
  ((rd_put ..).trans (if_neg ha)).trans ((rd_put ..).trans (if_neg ha))

theorem honour_fields (u : State) (c h : Nat) (hh : h ≤ u.guarOf c) : (u.honour c h).honoured c = h ∧
    (u.honour c h).fld (R.BRIDLE_TC_HONOUR c) F.BRIDLE_TC_HONOUR_SHORT = u.guarOf c - h := by
  have hg := guarOf_lt u c
  constructor
  · unfold honoured honour
    rw [fld_put_other _ _ _ _ _ _ (.inr (by decide)), fld_put_same _ _ _ _ (by decide)]
    exact Nat.mod_eq_of_lt (by dsimp only; omega)
  · unfold honour
    rw [fld_put_same _ _ _ _ (by decide)]
    exact Nat.mod_eq_of_lt (by dsimp only; omega)

/-- What is blind to registers does not see the classes' shares. -/
theorem honours_same {α : Type} {g : State → α} (hw : ∀ (s : State) a v, g (s.wr a v) = g s) (l : List Nat) (p : Nat) (u : State) :
    g (l.foldl honourOne (p, u)).2 = g u := by
  induction l generalizing p u with
  | nil => rfl
  | cons c l ih => exact (ih _ _).trans ((hw _ _ _).trans (hw _ _ _))

/-- Registers beside the classes' own stay. -/
theorem honours_rd (l : List Nat) (p : Nat) (u : State) {a : Nat} (h : ∀ c ∈ l, a ≠ R.BRIDLE_TC_HONOUR c) :
    (l.foldl honourOne (p, u)).2.rd a = u.rd a := by
  induction l generalizing p u with
  | nil => rfl
  | cons c l ih =>
    rw [List.foldl_cons, honourOne_eq]
    refine (ih _ _ fun k hk => h k (List.mem_cons_of_mem _ hk)).trans ?_
    exact honour_rd u c _ a (h c List.mem_cons_self)

theorem guar_ne_honour (c k : Nat) (hc : c < 8) : R.BRIDLE_TC_GUAR c ≠ R.BRIDLE_TC_HONOUR k := by
  simp only [R.BRIDLE_TC_GUAR, R.BRIDLE_TC_HONOUR]
  omega

theorem guarOf_honour (u : State) {c k : Nat} (h : Nat) (hc : c < 8) : (u.honour k h).guarOf c = u.guarOf c :=
  fld_eq_of_rd (honour_rd u k h _ (guar_ne_honour c k hc)) _

/-- Each class of a list takes, up to its guarantee, what those before it leave. -/
theorem honours_share (lt : Nat → Nat → Bool) (l : List Nat) (p : Nat) (u : State) (hp : l.Pairwise fun a b => lt a b = true ∧ lt b a = false)
    (hirr : ∀ a, lt a a = false) (h8 : ∀ c ∈ l, c < 8) (hnd : l.Nodup) : ∀ c ∈ l,
      (l.foldl honourOne (p, u)).2.honoured c = min (u.guarOf c)
        (p - ((l.filter fun k => lt k c).map (l.foldl honourOne (p, u)).2.honoured).sum) ∧
      (l.foldl honourOne (p, u)).2.fld (R.BRIDLE_TC_HONOUR c) F.BRIDLE_TC_HONOUR_SHORT =
        u.guarOf c - (l.foldl honourOne (p, u)).2.honoured c := by
  induction l generalizing p u with
  | nil => simp
  | cons a l ih =>
    rw [List.pairwise_cons] at hp
    obtain ⟨hpa, hpl⟩ := hp
    rw [List.nodup_cons] at hnd
    obtain ⟨hal, hnd⟩ := hnd
    rw [List.foldl_cons, honourOne_eq]
    have ha8 := h8 a List.mem_cons_self
    obtain ⟨hh, hsh⟩ := honour_fields u a (min (u.guarOf a) p) (Nat.min_le_left _ _)
    have hi := ih (p - min (u.guarOf a) p) (u.honour a (min (u.guarOf a) p)) hpl (fun c hc => h8 c (List.mem_cons_of_mem _ hc)) hnd
    have hkeep := honours_rd l (p - min (u.guarOf a) p) (u.honour a (min (u.guarOf a) p)) (a := R.BRIDLE_TC_HONOUR a)
      fun c hc => honour_ne fun e => hal (e ▸ hc)
    have hg : ∀ c, c < 8 → (u.honour a (min (u.guarOf a) p)).guarOf c = u.guarOf c := fun c hc => guarOf_honour u _ hc
    generalize u.honour a (min (u.guarOf a) p) = v at *
    generalize (l.foldl honourOne (p - min (u.guarOf a) p, v)).2 = t at *
    have hta : t.honoured a = min (u.guarOf a) p := (fld_eq_of_rd hkeep _).trans hh
    intro c hc
    rcases List.mem_cons.mp hc with rfl | hc
    · have hnone : (c :: l).filter (fun k => lt k c) = [] := by
        rw [List.filter_eq_nil_iff]
        intro k hk
        rcases List.mem_cons.mp hk with rfl | hk
        · simp [hirr]
        · simp [(hpa k hk).2]
      rw [hnone, hta]
      refine ⟨by simp, (fld_eq_of_rd hkeep _).trans hsh⟩
    · obtain ⟨h1, h2⟩ := hi c hc
      rw [hg c (h8 c (List.mem_cons_of_mem _ hc))] at h1 h2
      rw [List.filter_cons_of_pos (by simp [(hpa c hc).1]), List.map_cons, List.sum_cons, hta]
      refine ⟨h1.trans ?_, h2⟩
      congr 1
      omega

/-! ### DELIV_COMPUTE -/

/-- The rate and the capacity for guarantees are published. -/
def published (s : State) : State :=
  (s.put R.BRIDLE_DELIV_DRAM F.BRIDLE_DELIV_DRAM_RATE s.delivNow).put R.BRIDLE_GUAR_CAP F.BRIDLE_GUAR_CAP_CAP
    (s.delivNow * (100 - s.bgReserve - s.beMin) / 100)

/-- Every class has its share. -/
def shared (s : State) : State :=
  (s.published.rankOrder.foldl honourOne (s.delivNow * (100 - s.bgReserve - s.beMin) / 100, s.published)).2

/-- Some class lacks a part of its guarantee. -/
def lacking (s : State) : Bool := classes.any fun t => s.on (R.BRIDLE_TC_HONOUR t) F.BRIDLE_TC_HONOUR_SHORT

/-- The sums are shown, and the shortfall is noted. -/
def summed (s : State) : State :=
  let sum := classes.foldl (fun n t => n + s.fld (R.BRIDLE_TC_GUAR t) F.BRIDLE_TC_GUAR_GUAR) 0
  let hon := classes.foldl (fun n t => n + s.honoured t) 0
  let u := (if s.lacking && !s.on R.BRIDLE_BR_STAT F.BRIDLE_BR_STAT_SHORT then s.inc R.BRIDLE_SHORT_ENTRIES else s).flag
    R.BRIDLE_BR_STAT F.BRIDLE_BR_STAT_SHORT s.lacking
  (u.put R.BRIDLE_GUAR_SUM F.BRIDLE_GUAR_SUM_PROGRAMMED (min 65535 sum)).put R.BRIDLE_GUAR_SUM F.BRIDLE_GUAR_SUM_HONOURED hon

theorem delivCompute_eq (hd : s.clk.dramInit = true) (hr : s.inReset = false) : s.delivCompute = s.shared.summed := by
  unfold delivCompute
  rw [if_neg (by simp [hd, hr])]
  rfl

theorem summed_spec (s : State) : s.summed.on R.BRIDLE_BR_STAT F.BRIDLE_BR_STAT_SHORT = s.lacking ∧ MemKept s s.summed ∧
    ∀ a, a ∉ [R.BRIDLE_GUAR_SUM, R.BRIDLE_BR_STAT, R.BRIDLE_SHORT_ENTRIES] → s.summed.rd a = s.rd a := by
  unfold summed
  dsimp only
  have hu : MemKept s (if (s.lacking && !s.on R.BRIDLE_BR_STAT F.BRIDLE_BR_STAT_SHORT) = true then s.inc R.BRIDLE_SHORT_ENTRIES else s) ∧
      ∀ a, a ≠ R.BRIDLE_SHORT_ENTRIES →
        (if (s.lacking && !s.on R.BRIDLE_BR_STAT F.BRIDLE_BR_STAT_SHORT) = true then s.inc R.BRIDLE_SHORT_ENTRIES else s).rd a = s.rd a := by
    split
    · exact ⟨inc_memKept .., fun a ha => (rd_inc ..).trans (if_neg ha)⟩
    · exact ⟨.refl s, fun _ _ => rfl⟩
  generalize (if (s.lacking && !s.on R.BRIDLE_BR_STAT F.BRIDLE_BR_STAT_SHORT) = true then s.inc R.BRIDLE_SHORT_ENTRIES else s) = u at *
  obtain ⟨h1, h2⟩ := hu
  refine ⟨?_, ((h1.trans (flag_memKept ..)).trans (put_memKept ..)).trans (put_memKept ..), fun a ha => ?_⟩
  · rw [on_put_other _ _ _ _ _ _ (.inl (by decide)), on_put_other _ _ _ _ _ _ (.inl (by decide)), on_flag_same _ _ _ _ (by decide) rfl]
  · simp only [List.mem_cons, List.not_mem_nil, or_false, not_or] at ha
    rw [rd_put, if_neg ha.1, rd_put, if_neg ha.1, rd_flag, if_neg ha.2.1, h2 a ha.2.2]

theorem published_rd (s : State) {a : Nat} (h1 : a ≠ R.BRIDLE_DELIV_DRAM) (h2 : a ≠ R.BRIDLE_GUAR_CAP) : s.published.rd a = s.rd a :=
  ((rd_put ..).trans (if_neg h2)).trans ((rd_put ..).trans (if_neg h1))

/-- The registers of a class's guarantee are published as they were. -/
theorem published_guar (s : State) {c : Nat} (h : c < 8) : s.published.rd (R.BRIDLE_TC_GUAR c) = s.rd (R.BRIDLE_TC_GUAR c) :=
  published_rd s (by simp only [R.BRIDLE_TC_GUAR, R.BRIDLE_DELIV_DRAM]; omega) (by simp only [R.BRIDLE_TC_GUAR, R.BRIDLE_GUAR_CAP]; omega)

/-- A class is honoured before another, decided. -/
def beforeB (s : State) (a b : Nat) : Bool :=
  decide (s.fld (R.BRIDLE_TC_GUAR a) F.BRIDLE_TC_GUAR_RANK < s.fld (R.BRIDLE_TC_GUAR b) F.BRIDLE_TC_GUAR_RANK
    ∨ (s.fld (R.BRIDLE_TC_GUAR a) F.BRIDLE_TC_GUAR_RANK = s.fld (R.BRIDLE_TC_GUAR b) F.BRIDLE_TC_GUAR_RANK ∧ a < b))

theorem mem_rankOrder (s : State) {c : Nat} : c ∈ s.rankOrder ↔ c < 8 := by
  rw [(rankOrder_perm s).mem_iff]
  simp only [classes, List.mem_cons, List.not_mem_nil, or_false]
  omega

theorem foldl_add_eq_sum (f : Nat → Nat) (l : List Nat) (n : Nat) : l.foldl (fun n k => n + f k) n = n + (l.map f).sum := by
  induction l generalizing n with
  | nil => rfl
  | cons a l ih => rw [List.foldl_cons, ih, List.map_cons, List.sum_cons, Nat.add_assoc]

theorem shared_spec (s : State) (c : Fin 8) : s.shared.honoured c = min (s.fld (R.BRIDLE_TC_GUAR c) F.BRIDLE_TC_GUAR_GUAR)
      (s.delivNow * (100 - s.bgReserve - s.beMin) / 100 - (classes.filter fun k => s.beforeB k c).foldl (fun n k => n + s.shared.honoured k) 0) ∧
    s.shared.fld (R.BRIDLE_TC_HONOUR c) F.BRIDLE_TC_HONOUR_SHORT = s.fld (R.BRIDLE_TC_GUAR c) F.BRIDLE_TC_GUAR_GUAR - s.shared.honoured c := by
  have hb : ∀ k, k < 8 → s.published.beforeB k c = s.beforeB k c := fun k hk => by
    unfold beforeB
    rw [fld_eq_of_rd (published_guar s hk), fld_eq_of_rd (published_guar s c.isLt)]
  have hpw : s.published.rankOrder.Pairwise fun a b => s.published.beforeB a b = true ∧ s.published.beforeB b a = false :=
    (rankOrder_pairwise s.published).imp fun h => by
      unfold before at h
      unfold beforeB
      simp only [decide_eq_true_eq, decide_eq_false_iff_not]
      omega
  obtain ⟨h1, h2⟩ := honours_share s.published.beforeB s.published.rankOrder (s.delivNow * (100 - s.bgReserve - s.beMin) / 100) s.published
    hpw (fun a => by unfold beforeB; simp) (fun k hk => (mem_rankOrder _).mp hk) ((rankOrder_perm _).nodup_iff.mpr (by decide)) c.val
    ((mem_rankOrder _).mpr c.isLt)
  have hg : s.published.guarOf c = s.fld (R.BRIDLE_TC_GUAR c) F.BRIDLE_TC_GUAR_GUAR := fld_eq_of_rd (published_guar s c.isLt) _
  rw [hg] at h1 h2
  refine ⟨h1.trans (congrArg (min _) (congrArg _ ?_)), h2⟩
  rw [foldl_add_eq_sum, Nat.zero_add]
  have hperm := ((rankOrder_perm s.published).filter fun k => s.published.beforeB k c).map s.shared.honoured
  refine hperm.sum_eq.trans ?_
  refine congrArg (fun l => (l.map s.shared.honoured).sum) (List.filter_congr fun k hk => hb k ?_)
  simp only [classes, List.mem_cons, List.not_mem_nil, or_false] at hk
  omega

theorem shared_rd (s : State) {a : Nat} (h1 : a ≠ R.BRIDLE_DELIV_DRAM) (h2 : a ≠ R.BRIDLE_GUAR_CAP) (h3 : a ∉ classes.map R.BRIDLE_TC_HONOUR) :
    s.shared.rd a = s.rd a := by
  refine (honours_rd _ _ _ fun c hc e => h3 ?_).trans (published_rd s h1 h2)
  exact List.mem_map.mpr ⟨c, (rankOrder_perm _).mem_iff.mp hc, e.symm⟩

theorem shared_rate (s : State) : s.shared.fld R.BRIDLE_DELIV_DRAM F.BRIDLE_DELIV_DRAM_RATE = s.delivNow % 2 ^ 16 := by
  have h : s.shared.rd R.BRIDLE_DELIV_DRAM = s.published.rd R.BRIDLE_DELIV_DRAM := honours_rd _ _ _ fun c _ => by
    simp only [R.BRIDLE_DELIV_DRAM, R.BRIDLE_TC_HONOUR]
    omega
  rw [fld_eq_of_rd h]
  unfold published
  rw [fld_put_other _ _ _ _ _ _ (.inl (by decide)), fld_put_same _ _ _ _ (by decide)]

theorem shared_memKept (s : State) : MemKept s s.shared := by
  have h := honours_same (g := fun s : State => (s.dram, s.cache, s.wdb, s.place, s.otp, s.mgmt.flash)) (fun _ _ _ => rfl)
    s.published.rankOrder (s.delivNow * (100 - s.bgReserve - s.beMin) / 100) s.published
  simp only [Prod.mk.injEq] at h
  exact ((put_memKept ..).trans (put_memKept ..)).trans h

theorem inReset_of_released (h : s.released = true) : s.inReset = false := by
  unfold released running at h
  simp only [Bool.and_eq_true, Bool.not_eq_true'] at h
  exact h.1.1.1

end State
end Sys2Proof.Machine

namespace Sys2Proof.Safety
open Sys2Proof.Machine Sys2Proof.Machine.State

variable {s : State}

theorem delivCompute_gives (h : s.released = true) (hd : s.clk.dramInit = true) : Gives .delivCompute s fun t =>
      t.fld R.BRIDLE_DELIV_DRAM F.BRIDLE_DELIV_DRAM_RATE = s.delivNow % 2 ^ 16 ∧
        (∀ c : Fin 8, t.fld (R.BRIDLE_TC_HONOUR c) F.BRIDLE_TC_HONOUR_HONOURED +
          t.fld (R.BRIDLE_TC_HONOUR c) F.BRIDLE_TC_HONOUR_SHORT = s.fld (R.BRIDLE_TC_GUAR c) F.BRIDLE_TC_GUAR_GUAR) ∧
        (∀ c : Fin 8, t.honoured c = min (s.fld (R.BRIDLE_TC_GUAR c) F.BRIDLE_TC_GUAR_GUAR)
          (s.delivNow * (100 - s.bgReserve - s.beMin) / 100 -
            (State.classes.filter fun k => decide (s.fld (R.BRIDLE_TC_GUAR k) F.BRIDLE_TC_GUAR_RANK
              < s.fld (R.BRIDLE_TC_GUAR c) F.BRIDLE_TC_GUAR_RANK
                ∨ (s.fld (R.BRIDLE_TC_GUAR k) F.BRIDLE_TC_GUAR_RANK = s.fld (R.BRIDLE_TC_GUAR c) F.BRIDLE_TC_GUAR_RANK
                  ∧ k < c))).foldl (fun n k => n + t.honoured k) 0)) ∧
        (t.on R.BRIDLE_BR_STAT F.BRIDLE_BR_STAT_SHORT = true ∨ ∀ c : Fin 8,
          t.honoured c = s.fld (R.BRIDLE_TC_GUAR c) F.BRIDLE_TC_GUAR_GUAR) ∧
        MemKept s t ∧ RegsKept s t [] ([R.BRIDLE_DELIV_DRAM, R.BRIDLE_GUAR_CAP, R.BRIDLE_GUAR_SUM, R.BRIDLE_BR_STAT,
          R.BRIDLE_SHORT_ENTRIES] ++ (State.classes.map R.BRIDLE_TC_HONOUR)) := by
  have he := (clocked_eq h fun s => s.delivCompute).trans (delivCompute_eq hd (inReset_of_released h))
  have hshare := shared_spec s
  have hrate := shared_rate s
  have hmem := shared_memKept s
  have hrd := fun a h1 h2 h3 => shared_rd s (a := a) h1 h2 h3
  generalize s.shared = u at *
  obtain ⟨k1, k2, k3⟩ := summed_spec u
  have hhon : ∀ c < 8, u.summed.rd (R.BRIDLE_TC_HONOUR c) = u.rd (R.BRIDLE_TC_HONOUR c) := fun c hc => k3 _ (by
    simp only [R.BRIDLE_TC_HONOUR, R.BRIDLE_GUAR_SUM, R.BRIDLE_BR_STAT, R.BRIDLE_SHORT_ENTRIES, List.mem_cons, List.not_mem_nil, or_false]
    omega)
  have hh : ∀ c < 8, u.summed.honoured c = u.honoured c := fun c hc => fld_eq_of_rd (hhon c hc) _
  have hle : ∀ c : Fin 8, u.honoured c ≤ s.fld (R.BRIDLE_TC_GUAR c) F.BRIDLE_TC_GUAR_GUAR := fun c => by
    rw [(hshare c).1]
    exact Nat.min_le_left _ _
  refine gives_of_eq rfl he ⟨(fld_eq_of_rd (k3 _ (by decide)) _).trans hrate, fun c => ?_, fun c => ?_, ?_, hmem.trans k2, fun a _ ha => ?_⟩
  · rw [fld_eq_of_rd (hhon c c.isLt), fld_eq_of_rd (hhon c c.isLt), (hshare c).2]
    exact Nat.add_sub_cancel' (hle c)
  · have hf : (classes.filter fun k => s.beforeB k c).foldl (fun n k => n + u.summed.honoured k) 0 =
        (classes.filter fun k => s.beforeB k c).foldl (fun n k => n + u.honoured k) 0 := by
      refine List.foldl_ext _ _ _ fun n k hk => ?_
      have hk := List.mem_of_mem_filter hk
      rw [hh k (by simp only [classes, List.mem_cons, List.not_mem_nil, or_false] at hk; omega)]
    exact (hh c c.isLt).trans ((hshare c).1.trans (congrArg (fun n => min _ (_ - n)) hf.symm))
  · cases hl : u.lacking
    · refine .inr fun c => ?_
      have hz := List.any_eq_false.mp hl c.val (by
        simp only [classes, List.mem_cons, List.not_mem_nil, or_false]
        omega)
      have hzero := on_eq_false.mp (Bool.eq_false_iff.mpr hz)
      rw [(hshare c).2] at hzero
      rw [hh c c.isLt]
      have := hle c
      omega
    · exact .inl (k1.trans hl)
  · simp only [List.mem_append, List.mem_cons, List.not_mem_nil, or_false, not_or] at ha
    obtain ⟨⟨a1, a2, a3, a4, a5⟩, a6⟩ := ha
    rw [k3 a (by simp [a3, a4, a5]), hrd a a1 a2 a6]

end Sys2Proof.Safety
end

section
/-! SUPPORT. Windows of guarantees, latency targets and the urgency pins (R261 to R264, R268, R271). -/

namespace Sys2Proof.Machine
open Sys2Proof.Safety State

theorem get_setAll_fun {α : Type} [DecidableEq α] (d : Nat → α) (f : Nat → α) (ks : List Nat) (m : SMap α) (k : Nat) :
    SMap.get d (SMap.setAll d (ks.map fun k => (k, f k)) m) k = if k ∈ ks then f k else SMap.get d m k := by
  induction ks generalizing m with
  | nil => rfl
  | cons j ks ih =>
    rw [List.map_cons, SMap.setAll, ih]
    by_cases hk : k ∈ ks
    · simp [hk]
    · by_cases hj : k = j
      · subst hj
        rw [if_neg hk, if_pos List.mem_cons_self, Sys2Proof.Laws.SMap.get_set_same]
      · rw [if_neg hk, if_neg (by simp [hk, hj]), Sys2Proof.Laws.SMap.get_set_other _ hj]

namespace State

variable {s : State}

/-! ### GUAR_WINDOW_START -/

/-- What a class sent in the window that ends is published, and how long it was behind. -/
def rateOne (s t : State) (c : Nat) : State :=
  let b := s.behind c
  let t := t.put (R.BRIDLE_TC_RATE c) F.BRIDLE_TC_RATE_RATE (min 65535 (s.classSent c / (100 * s.guarWindow)))
  { t with bridle := { t.bridle with behindFor := SMap.upd (fun _ => 0) c (fun n => if b then n + 1 else 0) t.bridle.behindFor } }

def rated (s : State) : State := classes.foldl s.rateOne s

/-- The programmed BR_CTL comes into force. -/
def ctlTaken (s : State) : State := { s with bridle := { s.bridle with window := some (s.rd R.BRIDLE_BR_CTL) } }

/-- What the pool of excess gains in a window. -/
def poolFill (s : State) : Int :=
  (s.delivDram * (100 - s.bgReserve) * s.guarWindow : Nat) - (classes.foldl (fun n t => n + s.honoured t) 0 * 100 * s.guarWindow : Nat)

/-- The allowances and the pool of the window that starts. -/
def allowed (s : State) : State :=
  { s with bridle := { s.bridle with
      winAt := s.clk.up, sent := [], pool := s.poolFill + min s.bridle.pool 0
      allow := if s.guarOn then SMap.setAll (fun _ => 0) (classes.map fun t => (t, s.honoured t * 100 * s.guarWindow)) [] else [] } }

theorem guarWindowStart_eq (s : State) : s.guarWindowStart = s.rated.ctlTaken.allowed := rfl

theorem allowed_allowance (s : State) {c : Nat} (h : c ∈ classes) :
    s.allowed.allowance c = if s.guarOn then s.honoured c * 100 * s.guarWindow else 0 := by
  have ha : s.allowed.bridle.allow =
    if s.guarOn then SMap.setAll (fun _ => 0) (classes.map fun t => (t, s.honoured t * 100 * s.guarWindow)) [] else [] := rfl
  unfold allowance
  rw [ha]
  split
  · exact (get_setAll_fun (fun _ => 0) _ classes [] c).trans (if_pos h)
  · rfl

theorem rateOne_spec (s t : State) (c : Nat) : MemKept t (s.rateOne t c) ∧ (s.rateOne t c).clk = t.clk ∧
    (s.rateOne t c).bridle.pool = t.bridle.pool ∧ (s.rateOne t c).regs =
      (t.put (R.BRIDLE_TC_RATE c) F.BRIDLE_TC_RATE_RATE (min 65535 (s.classSent c / (100 * s.guarWindow)))).regs :=
  ⟨⟨rfl, rfl, rfl, rfl, rfl, rfl⟩, rfl, rfl, rfl⟩

theorem rated_spec (s : State) : MemKept s s.rated ∧ RegsKept s s.rated [] (classes.map R.BRIDLE_TC_RATE) ∧ s.rated.clk = s.clk ∧
    s.rated.bridle.pool = s.bridle.pool := by
  refine ⟨MemKept.foldl _ _ fun t c => (rateOne_spec s t c).1, RegsKept.foldl _ _ fun t c hc => ?_,
    foldl_blind (g := State.clk) (fun t c => (rateOne_spec s t c).2.1) _ _,
    foldl_blind (g := fun s => s.bridle.pool) (fun t c => (rateOne_spec s t c).2.2.1) _ _⟩
  exact RegsKept.of_regs (RegsKept.put (.refl t) F.BRIDLE_TC_RATE_RATE _ (.inl (List.mem_map_of_mem hc))) (rateOne_spec s t c).2.2.2

theorem ctlTaken_spec (s : State) : MemKept s s.ctlTaken ∧ s.ctlTaken.regs = s.regs ∧ s.ctlTaken.clk = s.clk ∧
    s.ctlTaken.bridle.pool = s.bridle.pool ∧ s.ctlTaken.bridleCtl = s.rd R.BRIDLE_BR_CTL := ⟨.refl s, rfl, rfl, rfl, rfl⟩

theorem allowed_spec (s : State) : MemKept s s.allowed ∧ s.allowed.regs = s.regs ∧ s.allowed.bridle.winAt = s.clk.up ∧
    s.allowed.bridle.pool = s.poolFill + min s.bridle.pool 0 ∧ s.allowed.bridle.sent = [] := ⟨.refl s, rfl, rfl, rfl, rfl⟩

/-! ### The pins -/

theorem le_foldl_max (q : Nat → Bool) (f : Nat → Nat) (l : List Nat) (n : Nat) :
    n ≤ l.foldl (fun n p => if q p then max n (f p) else n) n ∧
      ∀ p ∈ l, q p = true → f p ≤ l.foldl (fun n p => if q p then max n (f p) else n) n := by
  induction l generalizing n with
  | nil => simp
  | cons a l ih =>
    obtain ⟨h1, h2⟩ := ih (if q a then max n (f a) else n)
    rw [List.foldl_cons]
    refine ⟨le_trans ?_ h1, fun p hp hq => ?_⟩
    · split <;> omega
    · rcases List.mem_cons.mp hp with rfl | hp
      · rw [if_pos hq] at h1
        rw [if_pos hq]
        omega
      · exact h2 p hp hq

theorem mem_pins (p : Fin 4) : p.val ∈ pins := by
  simp only [pins, List.mem_cons, List.not_mem_nil, or_false]
  omega

/-- An asserted pin's level reaches the masters that it names, while no pin is stuck. -/
theorem le_urgency {p : Fin 4} {m : Nat} (hs : ∀ k : Fin 4, s.pinStuck k = false) (hp : s.pinOn p = true) (hn : s.pinNames p m = true) :
    s.fld (R.SIDE_URG_CFG p) F.SIDE_URG_CFG_PRIO ≤ s.urgency m := by
  have hst : s.stuckNames m = false := by
    refine List.any_eq_false.mpr fun k hk => ?_
    have hk4 : k < 4 := by simp only [pins, List.mem_cons, List.not_mem_nil, or_false] at hk; omega
    simp [hs ⟨k, hk4⟩]
  unfold urgency
  rw [if_neg (ne_true_of_eq_false hst)]
  exact (le_foldl_max (fun k => s.pinOn k && s.pinNames k m) (fun k => s.fld (R.SIDE_URG_CFG k) F.SIDE_URG_CFG_PRIO) pins 0).2 p (mem_pins p) (by simp [hp, hn])

/-- Urgency depends on registers alone. -/
theorem urgency_of_rd {t : State} (h : ∀ a, t.rd a = s.rd a) (m : Nat) : t.urgency m = s.urgency m := by
  unfold urgency stuckNames pinStuck pinOn pinNames bit fld
  simp only [h]

/-- With one stuck pin the only one asserted, no master is urgent above 1 or has extra budget. -/
theorem stuck_alone {p : Fin 4} (m : Nat) (hs : s.pinStuck p = true) (hk : ∀ k : Fin 4, k ≠ p → s.pinOn k = false) :
    s.urgency m ≤ 1 ∧ s.extraBytes m = 0 := by
  have hstuck : s.pinNames p m = true → s.stuckNames m = true := fun hn => List.any_eq_true.mpr ⟨p, mem_pins p, by simp [hs, hn]⟩
  by_cases hn : s.pinNames p m = true
  · constructor
    · unfold urgency
      rw [if_pos (hstuck hn)]
      exact Nat.min_le_left _ _
    · unfold extraBytes grantPins
      rw [if_pos (hstuck hn)]
      simp
  · have hno : ∀ k ∈ pins, (s.pinOn k && s.pinNames k m) = false := fun k hk' => by
      have hk4 : k < 4 := by simp only [pins, List.mem_cons, List.not_mem_nil, or_false] at hk'; omega
      by_cases he : (⟨k, hk4⟩ : Fin 4) = p
      · simp [← he] at hn
        simp [hn]
      · simp [hk ⟨k, hk4⟩ he]
    have hfold : pins.foldl (fun n p =>
        if s.pinOn p && s.pinNames p m then max n (s.fld (R.SIDE_URG_CFG p) F.SIDE_URG_CFG_PRIO) else n) 0 = 0 := by
      refine (List.foldl_ext _ (fun n _ => n) _ fun n k hk' => if_neg (ne_true_of_eq_false (hno k hk'))).trans ?_
      rfl
    constructor
    · unfold urgency
      rw [hfold]
      dsimp only
      split <;> omega
    · have hg : s.grantPins m = [] := by
        unfold grantPins
        split
        · rfl
        · exact List.filter_eq_nil_iff.mpr fun k hk' => ne_true_of_eq_false (hno k hk')
      unfold extraBytes
      rw [hg]
      simp

/-- A pin comes into assertion. -/
def pinRaised (s : State) (p : Nat) : State :=
  ((s.setBit R.SIDE_PIN_STAT F.SIDE_PIN_STAT_RAW p true).setBit R.SIDE_PIN_STAT F.SIDE_PIN_STAT_ASSERTED p true).inc (R.SIDE_ASSERTS p)

/-- A master named by a pin has its extra budget. -/
def pinBonus (p : Nat) (before : List Nat) (s t : State) (m : Nat) : State :=
  if s.pinNames p m ∧ s.effMode m ≠ 0 then t.setRemain m (t.remain m + ((s.extraBytes m - before.getD m 0 : Nat) : Int)) else t

theorem pinAssert_eq (p : Nat) (he : s.bit R.SIDE_PIN_CTL F.SIDE_PIN_CTL_PIN_EN p = true)
    (ha : s.bit R.SIDE_PIN_STAT F.SIDE_PIN_STAT_ASSERTED p = false) : s.pinAssert p = ((List.range 64).foldl
      (pinBonus p ((List.range 64).map (s.setBit R.SIDE_PIN_STAT F.SIDE_PIN_STAT_RAW p true).extraBytes) (s.pinRaised p)) (s.pinRaised p)).raisePrio := by
  have h1 : (s.setBit R.SIDE_PIN_STAT F.SIDE_PIN_STAT_RAW p true).bit R.SIDE_PIN_CTL F.SIDE_PIN_CTL_PIN_EN p = true :=
    (setBit_bit_other _ _ _ _ _ (by decide)).trans he
  have h2 : (s.setBit R.SIDE_PIN_STAT F.SIDE_PIN_STAT_RAW p true).bit R.SIDE_PIN_STAT F.SIDE_PIN_STAT_ASSERTED p = false := by
    unfold bit
    rw [fld_setBit_other _ _ (.inr (by decide))]
    exact ha
  unfold pinAssert
  rw [if_neg (by rw [h1, h2]; decide)]
  rfl

theorem pinBonuses_blind {α : Type} {g : State → α} (hw : ∀ (s : State) b, g { s with bridle := b } = g s) (p : Nat) (b : List Nat)
    (u t : State) : g ((List.range 64).foldl (pinBonus p b u) t) = g t :=
  foldl_blind (fun t m => by
    unfold pinBonus
    split
    · exact hw _ _
    · rfl) _ _

/-- A request that is released has at least its master's urgency once priorities have risen. -/
theorem raisePrio_urgency {r : Req} (hr : r ∈ s.raisePrio.xact.reqs) (hst : r.stage ≠ .held) : s.urgency (hMid r.header) ≤ r.prio := by
  obtain ⟨x, -, rfl⟩ := List.mem_map.mp (show r ∈ s.xact.reqs.map fun r => if r.stage = .held then r else { r with prio := max r.prio (s.prioOf r.header) } from hr)
  split at hst
  next hx => exact absurd hx hst
  next hx =>
    rw [if_neg hx]
    exact le_trans (le_trans (Nat.le_max_right _ _) (Nat.le_max_right _ _)) (Nat.le_max_right _ _)

end State
end Sys2Proof.Machine

namespace Sys2Proof.Safety
open Sys2Proof.Machine Sys2Proof.Machine.State

variable {s : State}

theorem guarWindowStart_gives (h : s.released = true) (hc : s.rd R.BRIDLE_BR_CTL = s.bridleCtl) : Gives .guarWindowStart s fun t =>
      t.bridle.winAt = s.clk.up ∧ (∀ c : Fin 8, t.classSent c = 0) ∧
        (∀ c : Fin 8, t.allowance c = if s.guarOn then s.honoured c * 100 * s.guarWindow else 0) ∧
        t.bridle.pool = ((s.delivDram * (100 - s.bgReserve) * s.guarWindow : Nat) : Int) -
          (State.classes.foldl (fun n c => n + s.honoured c) 0 * 100 * s.guarWindow : Nat) + min s.bridle.pool 0 ∧
        MemKept s t ∧ RegsKept s t [] (State.classes.map R.BRIDLE_TC_RATE) := by
  have he := (clocked_eq h fun s => s.guarWindowStart).trans (guarWindowStart_eq s)
  obtain ⟨k1, k2, k3, k4⟩ := rated_spec s
  obtain ⟨m1, m2, m3, m4, m5⟩ := ctlTaken_spec s.rated
  have hkept : RegsKept s s.rated.ctlTaken [] (classes.map R.BRIDLE_TC_RATE) := .of_regs k2 m2
  have hctl : s.rated.ctlTaken.bridleCtl = s.bridleCtl := m5.trans ((k2 _ (by simp) (by decide)).trans hc)
  have hpool := m4.trans k4
  have hclk := m3.trans k3
  have hmem := k1.trans m1
  generalize s.rated.ctlTaken = u at *
  obtain ⟨w1, w2, w3, w4, w5⟩ := allowed_spec u
  have hrd : ∀ a, a ∉ classes.map R.BRIDLE_TC_RATE → u.rd a = s.rd a := fun a ha => hkept a (by simp) ha
  have hhon : ∀ c < 8, u.honoured c = s.honoured c := fun c h8 => fld_eq_of_rd (hrd _ (by
    simp only [classes, List.map_cons, List.map_nil, R.BRIDLE_TC_HONOUR, R.BRIDLE_TC_RATE, List.mem_cons, List.not_mem_nil, or_false]
    omega)) _
  have hon : u.guarOn = s.guarOn := congrArg (fun w => decide (F.BRIDLE_BR_CTL_GUAR_EN.get w = 1)) hctl
  have hwin : u.guarWindow = s.guarWindow := congrArg (fun w => min 1000 (max 1 (F.BRIDLE_BR_CTL_GUAR_WINDOW_US.get w))) hctl
  have hres : u.bgReserve = s.bgReserve := congrArg (fun w => min 25 (F.BRIDLE_BR_CTL_BG_RESERVE_PCT.get w)) hctl
  have hdel : u.delivDram = s.delivDram := fld_eq_of_rd (hrd _ (by decide)) _
  have hsum : classes.foldl (fun n c => n + u.honoured c) 0 = classes.foldl (fun n c => n + s.honoured c) 0 :=
    List.foldl_ext _ _ _ fun n c hc' => by
      rw [hhon c (by simp only [classes, List.mem_cons, List.not_mem_nil, or_false] at hc'; omega)]
  refine gives_of_eq rfl he ⟨w3.trans (congrArg _ hclk), fun c => congrArg (SMap.get (fun _ => 0) · c.val) w5, fun c => ?_, ?_, hmem.trans w1,
    .of_regs hkept w2⟩
  · rw [allowed_allowance u (by simp only [classes, List.mem_cons, List.not_mem_nil, or_false]; omega), hon, hwin, hhon c c.isLt]
  · rw [w4, poolFill, hsum, hwin, hres, hdel, hpool]

theorem tcLat_plain : ∀ c : Fin 8, (PlainReg (R.BRIDLE_TC_LAT c) 4095#32 0#32 ∧ firstOf (pageOf (R.BRIDLE_TC_LAT c)) = 0x00B) ∧
    offOf (R.BRIDLE_TC_LAT c) = 0xA0 + 4 * c ∧ pageOf (R.BRIDLE_TC_LAT c) = 0xB := by decide

/-- A write of a class's latency target. -/
theorem tcLat_write {path : Path} (c : Fin 8) (v : Word) (h : Open s path (R.BRIDLE_TC_LAT c)) : s.regCmd path (R.BRIDLE_TC_LAT c) v =
    ((s.wr (R.BRIDLE_TC_LAT c) ((s.cur (R.BRIDLE_TC_LAT c) &&& ~~~(4095#32)) ||| (v &&& 4095#32))).setLevel c).raisePrio := by
  obtain ⟨⟨hp, hf⟩, ho, hpg⟩ := tcLat_plain c
  rw [regCmd_plain v h hp (softBits_other (by rw [hf]; decide) (by rw [hf]; decide)) (noMailbox s (by rw [hpg]; decide)),
    regEffect_bridle hf (by rw [ho]; omega), afterWrite_self (by rw [hf]; decide), ho]
  unfold wrBridle
  rw [if_pos (by omega)]
  have hadd : 0xB000 + (0xA0 + 4 * c.val) = R.BRIDLE_TC_LAT c := by simp only [R.BRIDLE_TC_LAT]; omega
  have hc : (0xA0 + 4 * c.val - 0xA0) / 4 = c := by omega
  rw [hadd, hc]

theorem setLevel_spec (u : State) (c : Fin 8) :
    (u.setLevel c).fld (R.BRIDLE_TC_LAT c) F.BRIDLE_TC_LAT_TARGET = u.fld (R.BRIDLE_TC_LAT c) F.BRIDLE_TC_LAT_TARGET ∧
    (u.fld (R.BRIDLE_TC_LAT c) F.BRIDLE_TC_LAT_TARGET = 0 → (u.setLevel c).latLevel c = 0) ∧ MemKept u (u.setLevel c) ∧
    RegsKept u (u.setLevel c) [] [R.BRIDLE_TC_LAT c, R.BRIDLE_BR_STAT] := by
  have hne : R.BRIDLE_TC_LAT c ≠ R.BRIDLE_BR_STAT := by simp only [R.BRIDLE_TC_LAT, R.BRIDLE_BR_STAT]; omega
  unfold setLevel
  dsimp only
  refine ⟨?_, fun h0 => ?_, ((put_memKept ..).trans (put_memKept ..)).trans (setBit_memKept ..),
    ((RegsKept.put (.refl u) _ _ (.inl (by simp))).put _ _ (.inl (by simp))).setBit _ _ _ (.inl (by simp))⟩
  · rw [fld_setBit_other _ _ (.inl hne), fld_put_other _ _ _ _ _ _ (.inr (by decide)), fld_put_other _ _ _ _ _ _ (.inr (by decide))]
  · unfold latLevel
    rw [fld_setBit_other _ _ (.inl hne), fld_put_other _ _ _ _ _ _ (.inr (by decide)), fld_put_same _ _ _ _ (by decide), h0]
    rfl

theorem raisePrio_spec (u : State) : MemKept u u.raisePrio ∧ u.raisePrio.regs = u.regs := ⟨⟨rfl, rfl, rfl, rfl, rfl, rfl⟩, rfl⟩

theorem tcLatTargetWrite_gives {w : RegWrite} (c : Fin 8) (h : Open s w.path (R.BRIDLE_TC_LAT c)) : Gives (.tcLatTargetWrite c w) s fun t =>
      t.fld (R.BRIDLE_TC_LAT c) F.BRIDLE_TC_LAT_TARGET = F.BRIDLE_TC_LAT_TARGET.get w.value ∧
        (F.BRIDLE_TC_LAT_TARGET.get w.value = 0 → t.latLevel c = 0) ∧ MemKept s t ∧
        RegsKept s t [0x014] [R.BRIDLE_TC_LAT c, R.BRIDLE_BR_STAT] := by
  have he := tcLat_write c w.value h
  have hg : (s.wr (R.BRIDLE_TC_LAT c) ((s.cur (R.BRIDLE_TC_LAT c) &&& ~~~(4095#32)) ||| (w.value &&& 4095#32))).fld (R.BRIDLE_TC_LAT c)
      F.BRIDLE_TC_LAT_TARGET = F.BRIDLE_TC_LAT_TARGET.get w.value := (fld_wr_same ..).trans (Fld.get_merge _ _ (by decide))
  generalize (s.cur (R.BRIDLE_TC_LAT c) &&& ~~~(4095#32)) ||| (w.value &&& 4095#32) = v at he hg
  have hw : RegsKept s (s.wr (R.BRIDLE_TC_LAT c) v) [0x014] [R.BRIDLE_TC_LAT c, R.BRIDLE_BR_STAT] := .wr (.refl s) _ (.inl (by simp))
  have hm : MemKept s (s.wr (R.BRIDLE_TC_LAT c) v) := wr_memKept ..
  generalize s.wr (R.BRIDLE_TC_LAT c) v = u at *
  obtain ⟨k1, k2, k3, k4⟩ := setLevel_spec u c
  generalize u.setLevel c = x at *
  obtain ⟨m1, m2⟩ := raisePrio_spec x
  have hrd : ∀ a, x.raisePrio.rd a = x.rd a := rd_eq_of_regs m2
  exact gives_of_eq rfl he ⟨(fld_eq_of_rd (hrd _) _).trans (k1.trans hg), fun h0 => (fld_eq_of_rd (hrd _) _).trans (k2 (hg.trans h0)),
    (hm.trans k3).trans m1, .of_regs (hw.trans (k4.mono (by simp) (by simp))) m2⟩

/-! ### The pins -/

theorem pinRegs_ne : ∀ p : Fin 4, (R.SIDE_PIN_STAT ≠ R.SIDE_ASSERTS p ∧ R.SIDE_PIN_CTL ≠ R.SIDE_ASSERTS p) ∧
    R.SIDE_PIN_STAT ≠ R.SIDE_STUCKS p ∧ R.SIDE_PIN_CTL ≠ R.SIDE_STUCKS p := by decide

theorem bit_of_rd {a : Nat} {t : State} (h : t.rd a = s.rd a) (f : Fld) (i : Nat) : t.bit a f i = s.bit a f i :=
  congrArg (·.testBit i) (fld_eq_of_rd h f)

theorem bit_setBit_field {a i j : Nat} {f g : Fld} (b : Bool) (h : g.lsb + g.width ≤ f.lsb ∨ f.lsb + f.width ≤ g.lsb) :
    (s.setBit a f i b).bit a g j = s.bit a g j :=
  congrArg (·.testBit j) (fld_setBit_other i b (.inr h))

theorem urgPinAssert_gives (p : Fin 4) (m : Fin 64) (he : s.bit R.SIDE_PIN_CTL F.SIDE_PIN_CTL_PIN_EN p = true)
    (ha : s.bit R.SIDE_PIN_STAT F.SIDE_PIN_STAT_ASSERTED p = false) (hst : ∀ k : Fin 4, s.pinStuck k = false) (hn : s.pinNames p m = true) :
    Gives (.urgPinAssert p) s fun t =>
      t.pinOn p = true ∧ t.bit R.SIDE_PIN_STAT F.SIDE_PIN_STAT_RAW p = true ∧
        t.rd (R.SIDE_ASSERTS p) = s.rd (R.SIDE_ASSERTS p) + 1 ∧ s.fld (R.SIDE_URG_CFG p) F.SIDE_URG_CFG_PRIO ≤ t.urgency m ∧
        (∀ r ∈ t.xact.reqs, hMid r.header = m.val → r.stage ≠ .held → s.fld (R.SIDE_URG_CFG p) F.SIDE_URG_CFG_PRIO ≤ r.prio) ∧ MemKept s t ∧
        RegsKept s t [] [R.SIDE_PIN_STAT, R.SIDE_ASSERTS p] := by
  have heq := pinAssert_eq p he ha
  obtain ⟨⟨n1, n2⟩, -⟩ := pinRegs_ne p
  have u1 : (s.pinRaised p).bit R.SIDE_PIN_STAT F.SIDE_PIN_STAT_ASSERTED p = true :=
    (bit_of_rd ((rd_inc ..).trans (if_neg n1)) _ _).trans (bit_setBit_same _ _ (by decide) (by dsimp only; omega))
  have u2 : (s.pinRaised p).bit R.SIDE_PIN_STAT F.SIDE_PIN_STAT_RAW p = true :=
    (bit_of_rd ((rd_inc ..).trans (if_neg n1)) _ _).trans
      ((bit_setBit_field _ (by decide)).trans (bit_setBit_same _ _ (by decide) (by dsimp only; omega)))
  have u3 : RegsKept s (s.pinRaised p) [] [R.SIDE_PIN_STAT, R.SIDE_ASSERTS p] :=
    (((RegsKept.refl s).setBit _ _ _ (.inl (by simp))).setBit _ _ _ (.inl (by simp))).inc _ (.inl (by simp))
  have u4 : (s.pinRaised p).rd (R.SIDE_ASSERTS p) = s.rd (R.SIDE_ASSERTS p) + 1 := by
    refine (rd_inc ..).trans ((if_pos rfl).trans ?_)
    exact congrArg (· + 1) (((RegsKept.refl s).setBit (pages := []) (addrs := [R.SIDE_PIN_STAT]) _ _ _ (.inl (by simp))).setBit _ _ _ (.inl (by simp)) _
      (by simp) (by simpa using n1.symm))
  have u5 : MemKept s (s.pinRaised p) := ((setBit_memKept ..).trans (setBit_memKept ..)).trans (inc_memKept ..)
  have u6 : ∀ k : Fin 4, (s.pinRaised p).pinStuck k = false := fun k =>
    (bit_of_rd ((rd_inc ..).trans (if_neg n1)) _ _).trans
      ((bit_setBit_field _ (by decide)).trans ((bit_setBit_field _ (by decide)).trans (hst k)))
  generalize s.pinRaised p = u at *
  have hctl : ∀ i, u.bit R.SIDE_PIN_CTL F.SIDE_PIN_CTL_PIN_EN i = s.bit R.SIDE_PIN_CTL F.SIDE_PIN_CTL_PIN_EN i := fun i =>
    bit_of_rd (u3 _ (by simp) (by simpa using n2)) _ _
  have hon : u.pinOn p = true := by
    unfold pinOn
    rw [u1, hctl, he]
    rfl
  have hprio : u.fld (R.SIDE_URG_CFG p) F.SIDE_URG_CFG_PRIO = s.fld (R.SIDE_URG_CFG p) F.SIDE_URG_CFG_PRIO :=
    fld_eq_of_rd (u3 _ (by simp) (by simp only [R.SIDE_URG_CFG, R.SIDE_PIN_STAT, R.SIDE_ASSERTS, List.mem_cons, List.not_mem_nil, or_false]; omega)) _
  have hnames : u.pinNames p m = true := by
    have h1 : u.rd (R.SIDE_URG_MAP_LO p) = s.rd (R.SIDE_URG_MAP_LO p) := u3 _ (by simp) (by
      simp only [R.SIDE_URG_MAP_LO, R.SIDE_PIN_STAT, R.SIDE_ASSERTS, List.mem_cons, List.not_mem_nil, or_false]; omega)
    have h2 : u.rd (R.SIDE_URG_MAP_HI p) = s.rd (R.SIDE_URG_MAP_HI p) := u3 _ (by simp) (by
      simp only [R.SIDE_URG_MAP_HI, R.SIDE_PIN_STAT, R.SIDE_ASSERTS, List.mem_cons, List.not_mem_nil, or_false]; omega)
    unfold pinNames at hn ⊢
    rw [h1, h2]
    exact hn
  have hurg := le_urgency u6 hon hnames
  rw [hprio] at hurg
  have hb := fun {α : Type} {g : State → α} (hw : ∀ (s : State) b, g { s with bridle := b } = g s) =>
    pinBonuses_blind hw p ((List.range 64).map (s.setBit R.SIDE_PIN_STAT F.SIDE_PIN_STAT_RAW p true).extraBytes) u u
  have hbr : ∀ a, _ := fun a => hb (g := fun s => s.rd a) fun _ _ => rfl
  have hbm := hb (g := fun s : State => (s.dram, s.cache, s.wdb, s.place, s.otp, s.mgmt.flash)) fun _ _ => rfl
  have hbg : ∀ i, _ := fun i => hb (g := fun s => s.urgency i) fun _ _ => rfl
  generalize (List.range 64).foldl (pinBonus p _ u) u = x at *
  obtain ⟨m1, m2⟩ := raisePrio_spec x
  have hrd : ∀ a, x.raisePrio.rd a = u.rd a := fun a => (rd_eq_of_regs m2 a).trans (hbr a)
  simp only [Prod.mk.injEq] at hbm
  refine gives_of_eq rfl heq ⟨?_, (bit_of_rd (hrd _) _ _).trans u2, (hrd _).trans u4, ?_, fun r hr hmid hs' => ?_, (u5.trans hbm).trans m1,
    fun a h1 h2 => (hrd a).trans (u3 a h1 h2)⟩
  · exact Eq.trans (by unfold pinOn; rw [bit_of_rd (hrd _), bit_of_rd (hrd _)]) hon
  · exact le_of_le_of_eq hurg ((urgency_of_rd hrd m).symm)
  · have := raisePrio_urgency hr hs'
    rw [hmid, hbg] at this
    exact hurg.trans this

theorem urgPinAssert_disabled (p : Fin 4) (he : s.bit R.SIDE_PIN_CTL F.SIDE_PIN_CTL_PIN_EN p = false) : Gives (.urgPinAssert p) s fun t =>
      t.bit R.SIDE_PIN_STAT F.SIDE_PIN_STAT_RAW p = true ∧ t.pinOn p = false ∧ t.bridle = s.bridle ∧ t.xact = s.xact ∧
        MemKept s t ∧ RegsKept s t [] [R.SIDE_PIN_STAT] := by
  have he' : (s.setBit R.SIDE_PIN_STAT F.SIDE_PIN_STAT_RAW p true).bit R.SIDE_PIN_CTL F.SIDE_PIN_CTL_PIN_EN p = false :=
    (setBit_bit_other _ _ _ _ _ (by decide)).trans he
  have heq : s.pinAssert p = s.setBit R.SIDE_PIN_STAT F.SIDE_PIN_STAT_RAW p true := by
    unfold pinAssert
    exact if_pos (by rw [he']; rfl)
  refine gives_of_eq rfl heq ⟨bit_setBit_same _ _ (by decide) (by dsimp only; omega), ?_, rfl, rfl, setBit_memKept ..,
    (RegsKept.refl s).setBit _ _ _ (.inl (by simp))⟩
  unfold pinOn
  rw [he', Bool.and_false]

theorem urgPinDeassert_gives (p : Fin 4) : Gives (.urgPinDeassert p) s fun t =>
      t.pinOn p = false ∧ t.bit R.SIDE_PIN_STAT F.SIDE_PIN_STAT_RAW p = false ∧ t.pinStuck p = false ∧
        (∀ k : Fin 4, k ≠ p → t.pinOn k = s.pinOn k ∧ t.pinStuck k = s.pinStuck k) ∧ t.xact = s.xact ∧ MemKept s t ∧
        RegsKept s t [] [R.SIDE_PIN_STAT] := by
  refine gives_of_eq rfl rfl ⟨?_, ?_, bit_setBit_same _ _ (by decide) (by dsimp only; omega), fun k hk => ⟨?_, ?_⟩, rfl,
    ((setBit_memKept ..).trans (setBit_memKept ..)).trans (setBit_memKept ..),
    (((RegsKept.refl s).setBit _ _ _ (.inl (by simp))).setBit _ _ _ (.inl (by simp))).setBit _ _ _ (.inl (by simp))⟩
  · unfold pinOn pinDeassert
    rw [bit_setBit_field _ (by decide), bit_setBit_same _ _ (by decide) (by dsimp only; omega), Bool.false_and]
  · unfold pinDeassert
    rw [bit_setBit_field _ (by decide), bit_setBit_field _ (by decide), bit_setBit_same _ _ (by decide) (by dsimp only; omega)]
  · have hk' : k.val ≠ p.val := fun e => hk (Fin.ext e)
    unfold pinOn pinDeassert
    rw [bit_setBit_field _ (by decide), bit_setBit_other _ (by decide) hk', bit_setBit_field _ (by decide),
      setBit_bit_other _ _ _ _ _ (by decide), setBit_bit_other _ _ _ _ _ (by decide), setBit_bit_other _ _ _ _ _ (by decide)]
  · have hk' : k.val ≠ p.val := fun e => hk (Fin.ext e)
    unfold pinStuck pinDeassert
    rw [bit_setBit_other _ (by decide) hk', bit_setBit_field _ (by decide), bit_setBit_field _ (by decide)]

theorem urgPinStuck_gives (p : Fin 4) (m : Fin 64) (hp : s.pinOn p = true) (hs : s.pinStuck p = false)
    (hk : ∀ k : Fin 4, k ≠ p → s.pinOn k = false) : Gives (.urgPinStuck p) s fun t =>
      t.pinStuck p = true ∧ t.urgency m ≤ 1 ∧ t.extraBytes m = 0 ∧ t.rd (R.SIDE_STUCKS p) = s.rd (R.SIDE_STUCKS p) + 1 ∧
        MemKept s t ∧ RegsKept s t [] [R.SIDE_PIN_STAT, R.SIDE_STUCKS p] := by
  have heq : s.pinStick p = (s.setBit R.SIDE_PIN_STAT F.SIDE_PIN_STAT_STUCK p true).inc (R.SIDE_STUCKS p) := if_pos (by rw [hp, hs]; rfl)
  obtain ⟨-, n1, n2⟩ := pinRegs_ne p
  have u1 : ((s.setBit R.SIDE_PIN_STAT F.SIDE_PIN_STAT_STUCK p true).inc (R.SIDE_STUCKS p)).pinStuck p = true :=
    (bit_of_rd ((rd_inc ..).trans (if_neg n1)) _ _).trans (bit_setBit_same _ _ (by decide) (by dsimp only; omega))
  have u2 : ∀ k : Fin 4, k ≠ p → ((s.setBit R.SIDE_PIN_STAT F.SIDE_PIN_STAT_STUCK p true).inc (R.SIDE_STUCKS p)).pinOn k = false := fun k hne => by
    rw [← hk k hne]
    unfold pinOn
    rw [bit_of_rd ((rd_inc ..).trans (if_neg n1)), bit_of_rd ((rd_inc ..).trans (if_neg n2)), bit_setBit_field _ (by decide),
      setBit_bit_other _ _ _ _ _ (by decide)]
  have u3 : ((s.setBit R.SIDE_PIN_STAT F.SIDE_PIN_STAT_STUCK p true).inc (R.SIDE_STUCKS p)).rd (R.SIDE_STUCKS p) = s.rd (R.SIDE_STUCKS p) + 1 := by
    refine (rd_inc ..).trans ((if_pos rfl).trans (congrArg (· + 1) ?_))
    exact ((RegsKept.refl s).setBit (pages := []) (addrs := [R.SIDE_PIN_STAT]) _ _ _ (.inl (by simp))) _ (by simp) (by simpa using n1.symm)
  obtain ⟨k1, k2⟩ := stuck_alone m u1 u2
  exact gives_of_eq rfl heq ⟨u1, k1, k2, u3, (setBit_memKept ..).trans (inc_memKept ..),
    ((RegsKept.refl s).setBit _ _ _ (.inl (by simp))).inc _ (.inl (by simp))⟩

theorem urgPinGlitch_gives (p : Fin 4) (h : s.inReset = false) : Gives (.urgPinGlitch p) s fun t =>
      t.rd (R.SIDE_GLITCHES p) = s.rd (R.SIDE_GLITCHES p) + 1 ∧ t.bridle = s.bridle ∧ t.xact = s.xact ∧ MemKept s t ∧
        RegsKept s t [] [R.SIDE_GLITCHES p] := by
  have heq : s.pinGlitch p = s.inc (R.SIDE_GLITCHES p) := if_neg (ne_true_of_eq_false h)
  exact gives_of_eq rfl heq ⟨(rd_inc ..).trans (if_pos rfl), by simp, by simp, inc_memKept .., (RegsKept.refl s).inc _ (.inl (by simp))⟩

/-- Settles O37: classes are honoured in the order of rank and number, each from what those before it leave; the other clauses each
follow one command. -/
theorem guaranteesAndPins : Obligations.GuaranteesAndPins :=
  ⟨fun _ h hd => delivCompute_gives h hd, fun _ h hc => guarWindowStart_gives h hc, fun _ c _ h _ => tcLatTargetWrite_gives c h,
    fun _ p m he ha hst hn => urgPinAssert_gives p m he ha hst hn, fun _ p he => urgPinAssert_disabled p he,
    fun _ p => urgPinDeassert_gives p, fun _ p m hp hs hk => urgPinStuck_gives p m hp hs hk, fun _ p h => urgPinGlitch_gives p h⟩

end Sys2Proof.Safety
end

section
/-! SUPPORT. Engines (R23, R247, R249): their status beside the work table, a work that changes its engine, and cancellation. -/

namespace Sys2Proof.Machine
open Sys2Proof.Safety State

namespace State

variable {s t : State}

/-! ### ENG_STAT follows the work table -/

/-- The page of an engine follows its work; every other register stays. -/
theorem syncEng_kept (s : State) (e : Nat) :
    RegsKept s (s.syncEng e) [] [R.ENG_ENG_STAT e, R.ENG_CUR_WORK e, R.ENG_CUR_CHUNK e, R.ENG_CUR_TOTAL e] := by
  have hstat (n : Nat) : RegsKept s (if 1 ≤ s.engState e ∧ s.engState e ≤ 3 then s.setEngState e n else s) []
      [R.ENG_ENG_STAT e, R.ENG_CUR_WORK e, R.ENG_CUR_CHUNK e, R.ENG_CUR_TOTAL e] := by
    split
    · exact (RegsKept.refl s).put _ _ (.inl (by simp))
    · exact .refl s
  unfold syncEng
  dsimp only
  split
  · exact (((((hstat _).put _ _ (.inl (by simp))).flag _ _ (.inl (by simp))).wr _ (.inl (by simp))).wr _ (.inl (by simp))).wr _ (.inl (by simp))
  · exact (((((hstat _).put _ _ (.inl (by simp))).flag _ _ (.inl (by simp))).wr _ (.inl (by simp))).wr _ (.inl (by simp))).wr _ (.inl (by simp))

theorem engStat_ne (e x : Nat) : R.ENG_ENG_STAT e ∉ [R.ENG_CUR_WORK x, R.ENG_CUR_CHUNK x, R.ENG_CUR_TOTAL x] := by
  simp only [R.ENG_ENG_STAT, R.ENG_CUR_WORK, R.ENG_CUR_CHUNK, R.ENG_CUR_TOTAL, List.mem_cons, List.not_mem_nil, or_false]
  omega

/-- What an engine's own page shows of its state. -/
theorem syncEng_state (s : State) (e : Nat) : (s.syncEng e).engState e =
    (if 1 ≤ s.engState e ∧ s.engState e ≤ 3 then s.setEngState e (match s.runningOn e with | none => 1 | some w => if w.phase = .precheck then 3 else 2)
      else s).engState e := by
  have hne := engStat_ne e e
  simp only [List.mem_cons, List.not_mem_nil, or_false, not_or] at hne
  obtain ⟨h1, h2, h3⟩ := hne
  unfold syncEng
  dsimp only
  generalize (if 1 ≤ s.engState e ∧ s.engState e ≤ 3 then _ else s) = u
  unfold engState
  cases s.runningOn e with
  | none =>
    dsimp only
    rw [fld_wr_other _ _ _ _ _ h3, fld_wr_other _ _ _ _ _ h2, fld_wr_other _ _ _ _ _ h1, fld_flag_other _ _ _ _ _ _ (.inr (by decide)), fld_put_other _ _ _ _ _ _ (.inr (by decide))]
  | some w =>
    dsimp only
    rw [fld_wr_other _ _ _ _ _ h3, fld_wr_other _ _ _ _ _ h2, fld_wr_other _ _ _ _ _ h1, fld_flag_other _ _ _ _ _ _ (.inr (by decide)), fld_put_other _ _ _ _ _ _ (.inr (by decide))]

/-- An engine out of service stays out while the table is followed. -/
theorem syncEng_failed (s : State) (x : Nat) {e : Nat} (h : s.engState e = 4) : (s.syncEng x).engState e = 4 := by
  by_cases hx : x = e
  · subst hx
    rw [syncEng_state, if_neg (by omega), h]
  · have hne : R.ENG_ENG_STAT e ≠ R.ENG_ENG_STAT x := by simp only [R.ENG_ENG_STAT]; omega
    have hother := engStat_ne e x
    refine (fld_eq_of_rd (syncEng_kept s x _ (by simp) ?_) _).trans h
    rw [List.mem_cons, not_or]
    exact ⟨hne, hother⟩

/-- An engine in service without work is idle. -/
theorem syncEng_idle {e : Nat} (h : s.runningOn e = none) (h1 : 1 ≤ s.engState e) (h3 : s.engState e ≤ 3) : (s.syncEng e).engState e = 1 := by
  rw [syncEng_state, if_pos ⟨h1, h3⟩, h]
  exact fld_put_same _ _ _ _ (by decide)

/-! ### The engine that takes over -/

/-- The choice of a takeover engine rests on the works, the placement and the control and status of engines and quadrants. -/
theorem takeoverFor_congr (he : t.eng = s.eng) (hf : t.free = s.free) (hp : t.place = s.place)
    (hc : ∀ n, t.rd (R.ENG_ENG_CTL n) = s.rd (R.ENG_ENG_CTL n)) (hs : ∀ n, t.rd (R.ENG_ENG_STAT n) = s.rd (R.ENG_ENG_STAT n))
    (hq : ∀ n, t.rd (R.QUAD_QUAD_CTL n) = s.rd (R.QUAD_QUAD_CTL n)) (w : Work) (e : Nat) (failed : Bool) :
    t.takeoverFor w e failed = s.takeoverFor w e failed := by
  have hstate : t.engState = s.engState := funext fun n => fld_eq_of_rd (hs n) _
  have hspare : t.engIsSpare = s.engIsSpare := funext fun n => on_eq_of_rd (hs n) _
  have husable : t.engUsable = s.engUsable := funext fun n => by
    unfold engUsable
    rw [on_eq_of_rd (hc n), hstate]
  have hquad : t.quadWorks = s.quadWorks := by unfold quadWorks; rw [he]
  have hqueued : t.queuedOn = s.queuedOn := by unfold queuedOn; rw [he]
  have hactive : t.activeEngines = s.activeEngines := by
    unfold activeEngines spareInUse engSpareOf
    rw [hspare, husable, hstate]
  have hleast : ∀ l, t.leastQueued l = s.leastQueued l := fun l => by
    unfold leastQueued
    rw [hqueued]
  have hopen : t.openQuads = s.openQuads := by
    unfold openQuads
    rw [hactive]
    exact List.filter_congr fun q _ => by rw [on_eq_of_rd (hq q)]
  have hbytes : t.operandBytes = s.operandBytes := by
    unfold operandBytes live entry
    rw [hf, hp]
  have hchoose : ∀ d l, t.chooseQuad d l = s.chooseQuad d l := fun d l => by
    unfold chooseQuad quadQueued
    rw [hbytes, hquad]
  have hin : t.takeoverIn = s.takeoverIn := by
    funext q e
    unfold takeoverIn engSpareOf
    rw [hspare, husable, hactive, hleast]
  unfold takeoverFor
  rw [hin, husable, on_eq_of_rd (hq _), hopen, hquad, hchoose, hactive]
  simp only [hleast]

theorem setEngState_state (s : State) (e n : Nat) : (s.setEngState e n).engState e = n % 8 := fld_put_same _ _ _ _ (by decide)

/-- Works bring no engine into FAILED and none out of it. -/
theorem workBlind_failed (e : Nat) : WorkBlind fun s => decide (s.engState e = 4) := by
  have hrd {t u : State} (h : u.rd (R.ENG_ENG_STAT e) = t.rd (R.ENG_ENG_STAT e)) : decide (u.engState e = 4) = decide (t.engState e = 4) :=
    congrArg (fun n => decide (n = 4)) (fld_eq_of_rd h _)
  refine ⟨fun t a v h => hrd (rd_wr_other _ _ _ _ ?_), fun t a n => hrd (rd_counted ..), fun _ _ => rfl, fun _ _ => rfl, fun _ _ => rfl,
    fun _ _ => rfl, fun _ _ => rfl, fun t x => decide_eq_decide.mpr ⟨fun h => ?_, syncEng_failed t x⟩⟩
  · rintro rfl
    simp only [R.ENG_ENG_STAT] at h
    omega
  · by_cases hx : x = e
    · subst hx
      rw [syncEng_state] at h
      split at h
      · rw [setEngState_state] at h
        revert h
        cases t.runningOn x with
        | none => simp
        | some w => dsimp only; split <;> simp
      · exact h
    · have hne : R.ENG_ENG_STAT e ≠ R.ENG_ENG_STAT x := by simp only [R.ENG_ENG_STAT]; omega
      rw [← h]
      refine (fld_eq_of_rd (syncEng_kept t x _ (by simp) ?_) _).symm
      rw [List.mem_cons, not_or]
      exact ⟨hne, engStat_ne e x⟩

/-! ### Reports -/

theorem deliver_any (u : State) (d : Delivery) :
    (u.deliver d).fcol.deliv.any (fun x => x.kind == d.kind && x.resource == d.resource) = true := by
  have h (l : List Delivery) : (deliver.go u d l).any (fun x => x.kind == d.kind && x.resource == d.resource) = true := by
    induction l with
    | nil => simp [deliver.go]
    | cons e l ih =>
      unfold deliver.go
      split
      next he => simp [he.1, he.2]
      next => rw [List.any_cons, ih, Bool.or_true]
  exact h u.fcol.deliv

/-- What follows a report of an engine, no slice of a test standing. -/
theorem reported_spec (u : State) (k : Nat) (r : Word) (hc : Calm u) (hn : NoTest u) :
    ((u.report k r 1 4).afterUnit).fcol.deliv.any (fun d => d.kind == k && d.resource == r) = true ∧
    ((u.report k r 1 4).afterUnit).eng = u.eng ∧ MemKept u ((u.report k r 1 4).afterUnit) ∧
    RegsKept u ((u.report k r 1 4).afterUnit) [0x014] [] := by
  have hany := deliver_any u ⟨k, r, 1, 1, 0, 4, none, none, 0, 0⟩
  have hbook : (u.deliver ⟨k, r, 1, 1, 0, 4, none, none, 0, 0⟩).fcol.handed = u.fcol.handed ∧
      (u.deliver ⟨k, r, 1, 1, 0, 4, none, none, 0, 0⟩).fcol.declared = u.fcol.declared := ⟨by simp, by simp⟩
  have hmem : MemKept u (u.deliver ⟨k, r, 1, 1, 0, 4, none, none, 0, 0⟩) := ⟨by simp, by simp, by simp, by simp, by simp, by simp⟩
  have hregs : (u.deliver ⟨k, r, 1, 1, 0, 4, none, none, 0, 0⟩).regs = u.regs := by simp
  have heng : (u.deliver ⟨k, r, 1, 1, 0, 4, none, none, 0, 0⟩).eng = u.eng := by simp
  have hbist : (u.deliver ⟨k, r, 1, 1, 0, 4, none, none, 0, 0⟩).bist = u.bist := by simp
  have hspare : (u.deliver ⟨k, r, 1, 1, 0, 4, none, none, 0, 0⟩).spare = u.spare := by simp
  unfold report
  generalize u.deliver ⟨k, r, 1, 1, 0, 4, none, none, 0, 0⟩ = v at *
  obtain ⟨hhanded, hdeclared⟩ := hbook
  have hc' : Calm v := hc.of_parts hhanded hdeclared (congrArg _ hspare) (congrArg PlaceState.retiring hmem.place_eq)
  have hn' : NoTest v := by
    unfold NoTest
    rw [hbist]
    exact hn
  rw [afterUnit_noTest hn']
  refine ⟨?_, (settle_eng hc').trans heng, hmem.trans (.settle hc'), (RegsKept.of_regs (.refl u) hregs).trans (.settle hc' (by simp))⟩
  rw [settle_same (fun s => s.fcol.deliv) hc' (fun _ _ _ _ => rfl) (fun _ _ => rfl) (fun _ _ _ => by simp) fun _ _ => rfl]
  exact hany

/-! ### Failures -/

/-- The works of an engine that fails go on elsewhere. -/
def worksFail (s : State) (e : Nat) : State :=
  (s.worksOn e).foldl (fun t w => t.handOver w e true)
    (if (s.worksOn e).any fun w => w.phase == .running then (s.setEngState e 4).inc (R.QUAD_RECORDS_DISCARDED (engQuad e))
      else s.setEngState e 4)

theorem engFail_eq {e : Nat} (k : Nat) (h1 : 1 ≤ s.engState e) (h3 : s.engState e ≤ 3) (hn : s.bist.slice = none) :
    s.engFail e k = (s.worksFail e).report k (resEng e) 1 4 := by
  unfold engFail
  rw [if_neg (by omega), hn]
  rfl

/-- What works leave alone, a failing engine leaves alone too. -/
theorem worksFail_blind {α : Type} {g : State → α} (hg : WorkBlind g) (s : State) (e : Nat) : g (s.worksFail e) = g (s.setEngState e 4) := by
  have h : WorkReg (R.QUAD_RECORDS_DISCARDED (engQuad e)) := by unfold WorkReg R.QUAD_RECORDS_DISCARDED; omega
  refine (foldl_blind (fun t w => hg.handOver t w e true) _ _).trans ?_
  split
  · exact hg.inc _ h _
  · rfl

theorem worksFail_state (s : State) (e : Nat) : (s.worksFail e).engState e = 4 := by
  have h : (s.setEngState e 4).engState e = 4 := fld_put_same _ _ _ _ (by decide)
  have hb := worksFail_blind (workBlind_failed e) s e
  rwa [decide_eq_true h, decide_eq_true_eq] at hb

theorem worksFail_calm {e : Nat} (hc : Calm s) : Calm (s.worksFail e) :=
  WorkBlind.calm (s := s.setEngState e 4) (fun _ hg => worksFail_blind hg s e) (put_calm hc)

theorem worksFail_noTest {e : Nat} (hn : NoTest s) : NoTest (s.worksFail e) := by
  have hb : (s.worksFail e).bist = s.bist := worksFail_blind workBlind_bist s e
  unfold NoTest
  rw [hb]
  exact hn

theorem worksFail_memKept (s : State) (e : Nat) : MemKept s (s.worksFail e) :=
  (put_memKept .. : MemKept s (s.setEngState e 4)).trans (WorkBlind.memKept fun _ hg => worksFail_blind hg s e)

theorem worksFail_idle {e : Nat} (hw : s.eng.works = []) : s.worksFail e = s.setEngState e 4 := by
  have h : s.worksOn e = [] := by unfold worksOn; rw [hw]; rfl
  unfold worksFail
  rw [h]
  rfl

/-- The only running work of an engine. -/
theorem worksOn_one {e : Nat} {w : Work} (hw : s.eng.works = [w]) (he : w.engine = some e) (hn : w.ended = none) : s.worksOn e = [w] := by
  unfold worksOn
  rw [hw]
  simp [he, hn]

theorem runningOn_one {e : Nat} {w : Work} (hw : s.eng.works = [w]) (he : w.engine = some e) (hp : w.phase = .running) (hn : w.ended = none) :
    s.runningOn e = some w := by
  unfold runningOn
  rw [hw]
  simp [he, hn, hp]

/-- The work goes to the head of the takeover engine's queue. -/
theorem handOver_running {e x : Nat} {w : Work} (hw : s.eng.works = [w]) (hp : w.phase = .running) (hq : w.quad = x / 9)
    (ht : s.takeoverFor w e true = some x) : (s.handOver w e true).eng.works = [{ w with
      engine := some x, phase := .queued, moving := false, takeover := true, home := none, paid := 0, retries := w.retries + 1 }] := by
  have hs (t : State) (e : Nat) : (t.syncEng e).eng = t.eng := syncEng_blind (fun _ _ _ _ _ _ => rfl) t e
  have hcount : (s.countPlanned w (engQuad x) 2 true).eng = s.eng := by
    simp [countPlanned, engQuad, hq]
  unfold handOver
  rw [ht]
  dsimp only
  rw [hs, hs, show (w.phase != .queued) = true by rw [hp]; rfl]
  simp only [Bool.true_and, if_true, Bool.true_or, Bool.or_true, hcount, hw]
  simp [engQuad, ← hq]

/-! ### Works that end -/

/-- What requests, samples, credits and counted deliveries have no part in, an answer leaves alone. -/
theorem answer_same {α : Type} {g : State → α} (hw : ∀ (t : State) a v, g (t.wr a v) = g t) (hc : ∀ (t : State) a n, g (t.counted a n) = g t)
    (hx : ∀ (t : State) x, g { t with xact := x } = g t) (hp : ∀ (t : State) p, g { t with perf := p } = g t)
    (hl : ∀ (t : State) l, g { t with link := l } = g t) (hd : ∀ (t : State) d, g (t.deliver d) = g t) (s : State) (r : Req)
    (status rinfo : Nat) (pay : List Slot) : g (s.answer r status rinfo pay) = g s := by
  have hinc (t : State) (a : Nat) : g (t.inc a) = g t := (hc _ _ _).trans (hw _ _ _)
  have hcred : g (if r.owes then s.returnCredits (hTc r.header) 6 0 else s) = g s := by
    split
    · exact hl s _
    · rfl
  have hcount (t : State) : g (t.countStatus r status) = g t := by
    unfold countStatus
    split
    · exact (hd _ _).trans ((hw _ _ _).trans ((hw _ _ _).trans (hinc _ _)))
    · split
      · exact hinc _ _
      · split
        · exact hinc _ _
        · split
          · exact (hinc _ _).trans (hinc _ _)
          · rfl
  have hdrop (t : State) : g (t.dropReq r.id) = g t := by
    unfold dropReq sampleLost
    split
    · exact (hinc _ _).trans ((hp _ _).trans (hx t _))
    · exact hx t _
  unfold answer
  dsimp only
  split
  · exact (hdrop _).trans hcred
  · exact (hx _ _).trans ((hp _ _).trans ((hx _ _).trans ((hcount _).trans hcred)))

/-- An answered request's record. -/
theorem answered_of_answer {r : Req} {status : Nat} (u : State) (rinfo : Nat) {pay : List Slot} (hr : r ∈ u.xact.reqs) (hs : r.silent = false)
    (h : status ∉ [2, 3, 4, 6]) (hp : pay ≠ []) : Answered (u.answer r status rinfo pay) r.id status (some pay) :=
  ⟨_, answered_mem u rinfo pay hs h hr, rfl, rfl, rfl, fun p hp' => by
    obtain rfl := Option.mem_some_iff.mp hp'
    simp [Req.answered, hp]⟩

theorem answered_of_answer_none {r : Req} {status : Nat} (u : State) (rinfo : Nat) (pay : List Slot) (hr : r ∈ u.xact.reqs)
    (hs : r.silent = false) (h : status ∉ [2, 3, 4, 6]) : Answered (u.answer r status rinfo pay) r.id status none :=
  ⟨_, answered_mem u rinfo pay hs h hr, rfl, rfl, rfl, fun _ hp => by cases hp⟩

/-- Engine pages follow a work that leaves its engine. -/
def syncHolder (s : State) (w : Work) : State := match w.engine with | none => s | some e => s.syncEng e

theorem syncHolder_same {α : Type} {g : State → α} (hw : ∀ (t : State) a v, g (t.wr a v) = g t) (s : State) (w : Work) :
    g (s.syncHolder w) = g s := by
  unfold syncHolder
  split
  · rfl
  · exact syncEng_blind (fun _ _ _ _ _ _ => hw _ _ _) _ _

theorem syncHolder_rd (s : State) (w : Work) {a : Nat} (h : pageOf a < 0x180) : (s.syncHolder w).rd a = s.rd a := by
  unfold syncHolder
  split
  · rfl
  · refine syncEng_kept _ _ _ (by simp) ?_
    simp only [pageOf, R.ENG_ENG_STAT, R.ENG_CUR_WORK, R.ENG_CUR_CHUNK, R.ENG_CUR_TOTAL, List.mem_cons, List.not_mem_nil, or_false] at h ⊢
    omega

/-- The only work leaves the table, and its request has its answer. -/
theorem closeWork_spec (u : State) {x : Work} {r : Req} {status : Nat} (code : Nat) (pay : List Slot) (hw : u.eng.works = [x])
    (hx : u.xact.reqs = [r]) (hr : r.id = x.req) (hs : r.silent = false) (h : status ∉ [2, 3, 4, 6]) :
    (u.closeWork x status code pay).eng = { u.eng with works := [] } ∧ Answered (u.closeWork x status code pay) x.req status none ∧
    ∀ a, pageOf a < 0x180 → (u.closeWork x status code pay).rd a = u.rd a := by
  have hone : u.eng.works.filter (fun y => decide (y.req ≠ x.req)) = [] := by rw [hw]; simp
  have hfind : u.xact.reqs.find? (fun r => decide (r.id = x.req)) = some r := by rw [hx]; simp [hr]
  have heq : u.closeWork x status code pay = ({ u with eng := { u.eng with works := [] } }.answer r status
      ((if x.retries = 0 then 0 else 1) + 2 * code) pay).syncHolder x := by
    unfold closeWork
    dsimp only
    rw [hone, hfind]
    rfl
  have hmem : r ∈ ({ u with eng := { u.eng with works := [] } } : State).xact.reqs := by
    show r ∈ u.xact.reqs
    rw [hx]
    exact List.mem_singleton.mpr rfl
  have hrd : ∀ a, ({ u with eng := { u.eng with works := [] } } : State).rd a = u.rd a := fun _ => rfl
  have heng : ({ u with eng := { u.eng with works := [] } } : State).eng = { u.eng with works := [] } := rfl
  rw [heq]
  generalize ({ u with eng := { u.eng with works := [] } } : State) = v at *
  refine ⟨?_, ?_, fun a ha => ?_⟩
  · rw [syncHolder_same (g := State.eng) (fun _ _ _ => rfl)]
    exact (answer_same (g := State.eng) (fun _ _ _ => rfl) (by simp) (fun _ _ => rfl) (fun _ _ => rfl) (fun _ _ => rfl) (by simp) v r _ _ _).trans heng
  · have ha := answered_of_answer_none v ((if x.retries = 0 then 0 else 1) + 2 * code) pay hmem hs h
    rw [hr] at ha
    have hxact := syncHolder_same (g := State.xact) (fun _ _ _ => rfl) (v.answer r status ((if x.retries = 0 then 0 else 1) + 2 * code) pay) x
    unfold Answered at ha ⊢
    rwa [hxact]
  · exact (syncHolder_rd _ _ ha).trans ((rd_answer v _ a _ hs h).trans (hrd a))

/-- The record of an ABORT in the QUAD page. -/
def quadNoted (s : State) (q : Nat) (r0 r1 : Word) (elem addr : Word64) : State :=
  ((((s.wr (R.QUAD_ABORT_REC0 q) r0).wr (R.QUAD_ABORT_REC1 q) r1).wr64 (R.QUAD_ABORT_ELEM_LO q) elem).wr64 (R.QUAD_ABORT_ADDR_LO q) addr).inc
    (R.QUAD_WORKS_ABORTED q)

def abortNoted (s : State) (w : Work) (code : Nat) (fault : Option (Nat × Nat)) : State :=
  s.quadNoted w.quad (BitVec.ofNat 32 (hTag w.header + hMid w.header * 2 ^ 12 + hTc w.header * 2 ^ 18 + code * 2 ^ 21)) (BitVec.ofNat 32 w.d.ctag)
    (BitVec.ofNat 64 ((fault.map (·.1)).getD (2 ^ 64 - 1))) (BitVec.ofNat 64 ((fault.map (·.2)).getD 0))

theorem abortWork_eq (s : State) (w : Work) (code : Nat) (fault : Option (Nat × Nat)) :
    s.abortWork w code fault = ((s.abortNoted w code fault).cancelEnds w).closeWork w 5 code [] := rfl

theorem quadNoted_spec (s : State) (q : Nat) (r0 r1 : Word) (elem addr : Word64) :
    (s.quadNoted q r0 r1 elem addr).eng = s.eng ∧ (s.quadNoted q r0 r1 elem addr).xact = s.xact ∧
    ∀ a, a % 0x1000 < 0x50 → (s.quadNoted q r0 r1 elem addr).rd a = s.rd a := by
  refine ⟨inc_eng .., inc_xact .., fun a ha => ?_⟩
  have h0 : a ≠ R.QUAD_ABORT_REC0 q := by rintro rfl; simp only [R.QUAD_ABORT_REC0] at ha; omega
  have h1 : a ≠ R.QUAD_ABORT_REC1 q := by rintro rfl; simp only [R.QUAD_ABORT_REC1] at ha; omega
  have h2 : a ≠ R.QUAD_ABORT_ELEM_LO q ∧ a ≠ R.QUAD_ABORT_ELEM_LO q + 4 := by simp only [R.QUAD_ABORT_ELEM_LO]; omega
  have h3 : a ≠ R.QUAD_ABORT_ADDR_LO q ∧ a ≠ R.QUAD_ABORT_ADDR_LO q + 4 := by simp only [R.QUAD_ABORT_ADDR_LO]; omega
  have h4 : a ≠ R.QUAD_WORKS_ABORTED q := by rintro rfl; simp only [R.QUAD_WORKS_ABORTED] at ha; omega
  have h64 (t : State) (b : Nat) (v : Word64) (h : a ≠ b ∧ a ≠ b + 4) : (t.wr64 b v).rd a = t.rd a :=
    (rd_wr_other _ _ _ _ h.2).trans (rd_wr_other _ _ _ _ h.1)
  unfold quadNoted
  rw [rd_inc, if_neg h4, h64 _ _ _ h3, h64 _ _ _ h2, rd_wr_other _ _ _ _ h1, rd_wr_other _ _ _ _ h0]

theorem abortNoted_spec (s : State) (w : Work) (code : Nat) (fault : Option (Nat × Nat)) :
    (s.abortNoted w code fault).eng = s.eng ∧ (s.abortNoted w code fault).xact = s.xact ∧
    ∀ a, a % 0x1000 < 0x50 → (s.abortNoted w code fault).rd a = s.rd a := quadNoted_spec ..

/-- The only work, which no cancellation names, ends with ABORT. -/
theorem abortWork_spec (u : State) {x : Work} {r : Req} (c : Nat) (fault : Option (Nat × Nat)) (hw : u.eng.works = [x])
    (hx : u.xact.reqs = [r]) (hr : r.id = x.req) (hsil : r.silent = false) (hs : x.stopBy = []) :
    (u.abortWork x c fault).eng = { u.eng with works := [] } ∧ Answered (u.abortWork x c fault) x.req 5 none ∧
    ∀ a, a % 0x1000 < 0x50 → pageOf a < 0x180 → (u.abortWork x c fault).rd a = u.rd a := by
  obtain ⟨k1, k2, k3⟩ := abortNoted_spec u x c fault
  rw [abortWork_eq]
  generalize u.abortNoted x c fault = v at *
  have hends : v.cancelEnds x = v := by unfold cancelEnds; rw [hs]; rfl
  rw [hends]
  obtain ⟨h1, h2, h3⟩ := closeWork_spec v (status := 5) c [] ((congrArg EngState.works k1).trans hw) ((congrArg XactState.reqs k2).trans hx) hr hsil
    (by decide)
  refine ⟨h1.trans ?_, h2, fun a ha hp => (h3 a hp).trans (k3 a ha)⟩
  rw [k1]

end State
end Sys2Proof.Machine

namespace Sys2Proof.Safety
open Sys2Proof.Machine Sys2Proof.Machine.State

variable {s : State}

theorem engineFault_scratch (e : Fin 36) (h : s.released = true) (hc : Calm s) (hn : NoTest s) (hw : s.eng.works = [])
    (h1 : 1 ≤ s.engState e) (h3 : s.engState e ≤ 3) : Gives (.engineFault e .scratchUncorr) s fun t =>
      t.engState e = 4 ∧ t.rd (R.ENG_SCRATCH_UNCORR e) = s.rd (R.ENG_SCRATCH_UNCORR e) + 1 ∧ MemKept s t ∧
        t.fcol.deliv.any (fun d => d.kind == 18 && d.resource == resEng e) = true ∧
        RegsKept s t [0x014, pageOf (R.ENG_ENG_STAT e)] [] := by
  have hst : (s.inc (R.ENG_SCRATCH_UNCORR e)).engState e = s.engState e :=
    fld_eq_of_rd ((rd_inc ..).trans (if_neg (by simp only [R.ENG_ENG_STAT, R.ENG_SCRATCH_UNCORR]; omega))) _
  have hf : s.engineFault e .scratchUncorr = ((s.inc (R.ENG_SCRATCH_UNCORR e)).setEngState e 4).report 18 (resEng e) 1 4 := by
    unfold engineFault
    rw [if_neg (by omega)]
    refine (engFail_eq 18 (by omega) (by omega) (by simpa using hn.1)).trans ?_
    rw [worksFail_idle (by simpa using hw)]
  have he := (clocked_eq h fun s => (s.engineFault e .scratchUncorr).afterUnit).trans (congrArg afterUnit hf)
  have hpg : pageOf (R.ENG_SCRATCH_UNCORR e) = pageOf (R.ENG_ENG_STAT e) := by
    simp only [pageOf, R.ENG_SCRATCH_UNCORR, R.ENG_ENG_STAT]; omega
  have hpg' : pageOf (R.ENG_ENG_STAT e) ≠ 0x014 := by simp only [pageOf, R.ENG_ENG_STAT]; omega
  have u1 : ((s.inc (R.ENG_SCRATCH_UNCORR e)).setEngState e 4).engState e = 4 := fld_put_same _ _ _ _ (by decide)
  have u2 : ((s.inc (R.ENG_SCRATCH_UNCORR e)).setEngState e 4).rd (R.ENG_SCRATCH_UNCORR e) = s.rd (R.ENG_SCRATCH_UNCORR e) + 1 :=
    (rd_put ..).trans ((if_neg (by simp only [R.ENG_ENG_STAT, R.ENG_SCRATCH_UNCORR]; omega)).trans ((rd_inc ..).trans (if_pos rfl)))
  have u3 : MemKept s ((s.inc (R.ENG_SCRATCH_UNCORR e)).setEngState e 4) := (inc_memKept ..).trans (put_memKept ..)
  have u4 : RegsKept s ((s.inc (R.ENG_SCRATCH_UNCORR e)).setEngState e 4) [0x014, pageOf (R.ENG_ENG_STAT e)] [] :=
    ((RegsKept.refl s).inc _ (.inr (by simp [hpg]))).put _ _ (.inr (by simp))
  have u5 : Calm ((s.inc (R.ENG_SCRATCH_UNCORR e)).setEngState e 4) := put_calm (hc.of_parts (by simp) (by simp) (by simp) (by simp))
  have u6 : NoTest ((s.inc (R.ENG_SCRATCH_UNCORR e)).setEngState e 4) := by
    unfold NoTest at hn ⊢
    simpa [setEngState] using hn
  generalize (s.inc (R.ENG_SCRATCH_UNCORR e)).setEngState e 4 = u at *
  obtain ⟨k1, -, k3, k4⟩ := reported_spec u 18 (resEng e) u5 u6
  exact gives_of_eq rfl he ⟨(fld_eq_of_rd (k4 _ (by simpa using hpg') (by simp)) _).trans u1,
    (k4 _ (by simpa [hpg] using hpg') (by simp)).trans u2, u3.trans k3, k1, u4.trans (k4.mono (by simp) (by simp))⟩

theorem engineFault_sequencer (e x : Fin 36) {w : Work} (h : s.released = true) (hc : Calm s) (hn : NoTest s) (hw : s.eng.works = [w])
    (hwe : w.engine = some e.val) (hp : w.phase = .running) (hend : w.ended = none) (hq : w.quad = x.val / 9)
    (h1 : 1 ≤ s.engState e) (h3 : s.engState e ≤ 3) (ht : (s.setEngState e 4).takeoverFor w e true = some x.val) :
    Gives (.engineFault e .sequencerParity) s fun t =>
      t.engState e = 4 ∧ t.eng.works = [{ w with
        engine := some x.val, phase := .queued, moving := false, takeover := true, home := none, paid := 0,
        retries := w.retries + 1 }] ∧ MemKept s t := by
  have hf : s.engineFault e .sequencerParity = (s.worksFail e).report 18 (resEng e) 1 4 := by
    unfold engineFault
    rw [if_neg (by omega)]
    exact engFail_eq 18 h1 h3 hn.1
  have he := (clocked_eq h fun s => (s.engineFault e .sequencerParity).afterUnit).trans (congrArg afterUnit hf)
  have u1 : (s.worksFail e).eng.works = [{ w with
      engine := some x.val, phase := .queued, moving := false, takeover := true, home := none, paid := 0, retries := w.retries + 1 }] := by
    unfold worksFail
    rw [worksOn_one hw hwe hend, if_pos (by simp [hp])]
    refine handOver_running (e := e) (by simpa [setEngState] using hw) hp hq ?_
    refine (takeoverFor_congr (by simp) (by simp) (by simp) (fun n => ?_) (fun n => ?_) (fun n => ?_) w e true).trans ht
    all_goals refine (rd_inc ..).trans (if_neg ?_)
    · simp only [R.ENG_ENG_CTL, R.QUAD_RECORDS_DISCARDED]; omega
    · simp only [R.ENG_ENG_STAT, R.QUAD_RECORDS_DISCARDED]; omega
    · simp only [R.QUAD_QUAD_CTL, R.QUAD_RECORDS_DISCARDED]; omega
  obtain ⟨-, k2, k3, k4⟩ := reported_spec (s.worksFail e) 18 (resEng e) (worksFail_calm hc) (worksFail_noTest hn)
  have hpg : pageOf (R.ENG_ENG_STAT e) ≠ 0x014 := by simp only [pageOf, R.ENG_ENG_STAT]; omega
  exact gives_of_eq rfl he ⟨(fld_eq_of_rd (k4 _ (by simpa using hpg) (by simp)) _).trans (worksFail_state s e),
    (congrArg EngState.works k2).trans u1, (worksFail_memKept s e).trans k3⟩

theorem engineHang_gives (e : Fin 36) {w : Work} (h : s.released = true) (hc : Calm s) (hn : NoTest s) (hw : s.eng.works = [w])
    (hwe : w.engine = some e.val) (hp : w.phase = .running) (hend : w.ended = none) (hh : s.engHold w.header = false)
    (h1 : 1 ≤ s.engState e) (h3 : s.engState e ≤ 3) : Gives (.engineHang e) s fun t =>
      t.engState e = 4 ∧ t.rd (R.ENG_HANGS e) = s.rd (R.ENG_HANGS e) + 1 ∧ MemKept s t ∧
        t.fcol.deliv.any (fun d => d.kind == 19 && d.resource == resEng e) = true := by
  have hne : R.ENG_ENG_STAT e ≠ R.ENG_HANGS e := by simp only [R.ENG_ENG_STAT, R.ENG_HANGS]; omega
  have hst : (s.inc (R.ENG_HANGS e)).engState e = s.engState e := fld_eq_of_rd ((rd_inc ..).trans (if_neg hne)) _
  have hf : s.engineHang e = ((s.inc (R.ENG_HANGS e)).worksFail e).report 19 (resEng e) 1 4 := by
    unfold engineHang
    rw [runningOn_one hw hwe hp hend]
    refine (if_neg (ne_true_of_eq_false hh)).trans (engFail_eq 19 (by omega) (by omega) (by simpa using hn.1))
  have he := (clocked_eq h fun s => (s.engineHang e).afterUnit).trans (congrArg afterUnit hf)
  have u1 : ((s.inc (R.ENG_HANGS e)).worksFail e).rd (R.ENG_HANGS e) = s.rd (R.ENG_HANGS e) + 1 := by
    refine (worksFail_blind (workBlind_rd (.inr (.inl (by simp only [R.ENG_HANGS]; omega)))) _ e).trans ?_
    exact (rd_put ..).trans ((if_neg hne.symm).trans ((rd_inc ..).trans (if_pos rfl)))
  have u2 := worksFail_state (s.inc (R.ENG_HANGS e)) e
  have u3 : MemKept s ((s.inc (R.ENG_HANGS e)).worksFail e) := (inc_memKept ..).trans (worksFail_memKept _ e)
  have u4 : Calm ((s.inc (R.ENG_HANGS e)).worksFail e) := worksFail_calm (hc.of_parts (by simp) (by simp) (by simp) (by simp))
  have u5 : NoTest ((s.inc (R.ENG_HANGS e)).worksFail e) := worksFail_noTest (by unfold NoTest at hn ⊢; simpa using hn)
  generalize (s.inc (R.ENG_HANGS e)).worksFail e = u at *
  obtain ⟨k1, -, k3, k4⟩ := reported_spec u 19 (resEng e) u4 u5
  have hpg : pageOf (R.ENG_ENG_STAT e) ≠ 0x014 := by simp only [pageOf, R.ENG_ENG_STAT]; omega
  have hpg' : pageOf (R.ENG_HANGS e) ≠ 0x014 := by simp only [pageOf, R.ENG_HANGS]; omega
  exact gives_of_eq rfl he ⟨(fld_eq_of_rd (k4 _ (by simpa using hpg) (by simp)) _).trans u2, (k4 _ (by simpa using hpg') (by simp)).trans u1,
    u3.trans k3, k1⟩

/-! ### CANCEL -/

theorem quadCancel_plain : ∀ q : Fin 4, (PlainReg (R.QUAD_CANCEL q) 0#32 8191#32 ∧ firstOf (pageOf (R.QUAD_CANCEL q)) = 0x040) ∧
    offOf (R.QUAD_CANCEL q) = 0x48 ∧ pageOf (R.QUAD_CANCEL q) - 0x040 = q := by decide

theorem regSet_cancel (q : Fin 4) (w : RegWrite) (h : Open s w.path (R.QUAD_CANCEL q)) :
    s.regSet w (R.QUAD_CANCEL q) F.QUAD_CANCEL_START = (s.cancelWork q (F.QUAD_CANCEL_TAG.get w.value)).settle := by
  obtain ⟨⟨hp, hf⟩, ho, hq⟩ := quadCancel_plain q
  have h1 : F.QUAD_CANCEL_START.get (F.QUAD_CANCEL_START.set 1 w.value &&& 8191#32) = 1 := by
    rw [Fld.get_and _ (by decide), Fld.get_set _ _ _ (by decide)]
    rfl
  have h2 : F.QUAD_CANCEL_TAG.get (F.QUAD_CANCEL_START.set 1 w.value &&& 8191#32) = F.QUAD_CANCEL_TAG.get w.value := by
    rw [Fld.get_and _ (by decide), Fld.get_set_other _ _ _ _ (by decide)]
  refine (regCmd_plain (F.QUAD_CANCEL_START.set 1 w.value) h hp (softBits_other (by rw [hf]; decide) (by rw [hf]; decide))
    (noMailbox s fun e => by rw [e] at hf; revert hf; decide)).trans ?_
  rw [regEffect_quad hf (by rw [ho]; decide), afterWrite_settle (by rw [hf]; decide), hq, ho]
  exact congrArg settle ((if_pos rfl).trans ((if_pos h1).trans (by rw [h2])))

theorem cancel_none (q : Fin 4) {w : RegWrite} (h : Open s w.path (R.QUAD_CANCEL q)) (hc : Calm s)
    (hno : ∀ x ∈ s.eng.works, hTag x.header ≠ F.QUAD_CANCEL_TAG.get w.value) : Gives (.cancel q w) s fun t =>
      t.on (R.QUAD_CANCEL_STAT q) F.QUAD_CANCEL_STAT_FOUND = false ∧
        t.on (R.QUAD_CANCEL_STAT q) F.QUAD_CANCEL_STAT_BUSY = false ∧ t.eng = s.eng ∧ MemKept s t ∧
        RegsKept s t [0x014] [R.QUAD_CANCEL_STAT q] := by
  have hf : s.cancelWork q (F.QUAD_CANCEL_TAG.get w.value) =
      ((s.flag (R.QUAD_CANCEL_STAT q) F.QUAD_CANCEL_STAT_BUSY false).flag (R.QUAD_CANCEL_STAT q) F.QUAD_CANCEL_STAT_FOUND false).flag
        (R.QUAD_CANCEL_STAT q) F.QUAD_CANCEL_STAT_STOPPED false := by
    have hnone : (s.eng.works.find? fun x => hTag x.header == F.QUAD_CANCEL_TAG.get w.value && x.ended.isNone) = none :=
      List.find?_eq_none.mpr fun x hx => by simp [hno x hx]
    unfold cancelWork
    rw [hnone]
  have he := (regSet_cancel q w h).trans (congrArg settle hf)
  have hpg : pageOf (R.QUAD_CANCEL_STAT q) ≠ 0x014 := by simp only [pageOf, R.QUAD_CANCEL_STAT]; omega
  have hc' : Calm (((s.flag (R.QUAD_CANCEL_STAT q) F.QUAD_CANCEL_STAT_BUSY false).flag (R.QUAD_CANCEL_STAT q) F.QUAD_CANCEL_STAT_FOUND
      false).flag (R.QUAD_CANCEL_STAT q) F.QUAD_CANCEL_STAT_STOPPED false) := hc.of_parts rfl rfl rfl rfl
  refine gives_of_eq rfl he ⟨(on_eq_of_rd (settle_rd hc' _ hpg) _).trans ?_, (on_eq_of_rd (settle_rd hc' _ hpg) _).trans ?_, settle_eng hc',
    (((flag_memKept ..).trans (flag_memKept ..)).trans (flag_memKept ..)).trans (.settle hc'),
    ((((RegsKept.refl s).flag _ _ (.inl (by simp))).flag _ _ (.inl (by simp))).flag _ _ (.inl (by simp))).trans (.settle hc' (by simp))⟩
  · rw [on_flag_other _ _ _ _ _ _ (.inr (by decide)), on_flag_same _ _ _ _ (by decide) rfl]
  · rw [on_flag_other _ _ _ _ _ _ (.inr (by decide)), on_flag_other _ _ _ _ _ _ (.inr (by decide)), on_flag_same _ _ _ _ (by decide) rfl]

/-- CANCEL_STAT once a work has been found. -/
def cancelFound (s : State) (q : Nat) (busy : Bool) : State :=
  ((s.flag (R.QUAD_CANCEL_STAT q) F.QUAD_CANCEL_STAT_BUSY busy).flag (R.QUAD_CANCEL_STAT q) F.QUAD_CANCEL_STAT_FOUND true).flag
    (R.QUAD_CANCEL_STAT q) F.QUAD_CANCEL_STAT_STOPPED false

theorem cancelFound_spec (s : State) (q : Nat) (busy : Bool) :
    (cancelFound s q busy).on (R.QUAD_CANCEL_STAT q) F.QUAD_CANCEL_STAT_FOUND = true ∧
    (cancelFound s q busy).on (R.QUAD_CANCEL_STAT q) F.QUAD_CANCEL_STAT_BUSY = busy ∧ (cancelFound s q busy).eng = s.eng ∧
    (cancelFound s q busy).xact = s.xact ∧ MemKept s (cancelFound s q busy) ∧ (Calm s → Calm (cancelFound s q busy)) ∧
    RegsKept s (cancelFound s q busy) [] [R.QUAD_CANCEL_STAT q] := by
  refine ⟨?_, ?_, rfl, rfl, ((flag_memKept ..).trans (flag_memKept ..)).trans (flag_memKept ..), fun hc => hc.of_parts rfl rfl rfl rfl,
    (((RegsKept.refl s).flag _ _ (.inl (by simp))).flag _ _ (.inl (by simp))).flag _ _ (.inl (by simp))⟩
  · unfold cancelFound
    rw [on_flag_other _ _ _ _ _ _ (.inr (by decide)), on_flag_same _ _ _ _ (by decide) rfl]
  · unfold cancelFound
    rw [on_flag_other _ _ _ _ _ _ (.inr (by decide)), on_flag_other _ _ _ _ _ _ (.inr (by decide)), on_flag_same _ _ _ _ (by decide) rfl]

theorem cancelWork_found {q tag : Nat} {x : Work} (hw : s.eng.works = [x]) (ht : hTag x.header = tag) (hend : x.ended = none) :
    s.cancelWork q tag = (cancelFound s q (decide (x.committed ≠ 0))).stopWork x q := by
  have hsome : (s.eng.works.find? fun w => hTag w.header == tag && w.ended.isNone) = some x := by
    rw [hw]
    simp [ht, hend]
  unfold cancelWork
  rw [hsome]
  rfl

theorem updWork_spec (u : State) (id : Nat) (f : Work → Work) : MemKept u (u.updWork id f) ∧ (u.updWork id f).regs = u.regs ∧
    (Calm u → Calm (u.updWork id f)) ∧ (u.updWork id f).eng.works = u.eng.works.map fun w => if w.req = id then f w else w :=
  ⟨⟨rfl, rfl, rfl, rfl, rfl, rfl⟩, rfl, fun hc => hc.of_parts rfl rfl rfl rfl, rfl⟩

theorem cancel_running (q : Fin 4) {w : RegWrite} {x : Work} (h : Open s w.path (R.QUAD_CANCEL q)) (hc : Calm s) (hw : s.eng.works = [x])
    (ht : hTag x.header = F.QUAD_CANCEL_TAG.get w.value) (hend : x.ended = none) (hcom : x.committed ≠ 0) (hp : x.phase = .running) :
    Gives (.cancel q w) s fun t =>
      t.eng.works = [{ x with stopBy := x.stopBy ++ [q.val] }] ∧ t.on (R.QUAD_CANCEL_STAT q) F.QUAD_CANCEL_STAT_BUSY = true ∧
        MemKept s t ∧ RegsKept s t [0x014] [R.QUAD_CANCEL_STAT q] := by
  have he := (regSet_cancel q w h).trans (congrArg settle (cancelWork_found (q := q) hw ht hend))
  rw [decide_eq_true hcom] at he
  obtain ⟨-, k2, k3, -, k5, k6, k7⟩ := cancelFound_spec s q true
  replace k6 := k6 hc
  generalize cancelFound s q true = u at *
  have hstop : u.stopWork x q = u.updWork x.req fun y => { y with stopBy := y.stopBy ++ [q.val] } := by
    unfold stopWork
    rw [if_neg (by simp [hend]), if_neg hcom, if_neg (by simp [hp])]
  rw [hstop] at he
  obtain ⟨m1, m2, m3, m4⟩ := updWork_spec u x.req fun y => { y with stopBy := y.stopBy ++ [q.val] }
  rw [k3, hw] at m4
  generalize (u.updWork x.req fun y => { y with stopBy := y.stopBy ++ [q.val] }) = v at *
  have hc' : Calm v := m3 k6
  have hpg : pageOf (R.QUAD_CANCEL_STAT q) ≠ 0x014 := by simp only [pageOf, R.QUAD_CANCEL_STAT]; omega
  refine gives_of_eq rfl he ⟨(congrArg EngState.works (settle_eng hc')).trans (m4.trans (by simp)),
    (on_eq_of_rd ((settle_rd hc' _ hpg).trans (rd_eq_of_regs m2 _)) _).trans k2,
    (k5.trans m1).trans (.settle hc'), ((RegsKept.of_regs k7 m2).mono (by simp) (by simp)).trans (.settle hc' (by simp))⟩

theorem cancel_abort (q : Fin 4) {w : RegWrite} {x : Work} {r : Req} (h : Open s w.path (R.QUAD_CANCEL q)) (hc : Calm s)
    (hw : s.eng.works = [x]) (ht : hTag x.header = F.QUAD_CANCEL_TAG.get w.value) (hend : x.ended = none) (hcom : x.committed = 0)
    (hs : x.stopBy = []) (hx : s.xact.reqs = [r]) (hr : r.id = x.req) (hsil : r.silent = false) : Gives (.cancel q w) s fun t =>
      t.eng.works = [] ∧ Answered t x.req 5 none ∧ t.on (R.QUAD_CANCEL_STAT q) F.QUAD_CANCEL_STAT_FOUND = true ∧
        t.on (R.QUAD_CANCEL_STAT q) F.QUAD_CANCEL_STAT_BUSY = false ∧ MemKept s t := by
  have he := (regSet_cancel q w h).trans (congrArg settle (cancelWork_found (q := q) hw ht hend))
  rw [decide_eq_false (by simp [hcom])] at he
  obtain ⟨k1, k2, k3, k4, k5, k6, -⟩ := cancelFound_spec s q false
  replace k6 := k6 hc
  generalize cancelFound s q false = u at *
  have hstop : u.stopWork x q = u.abortWork x 0x13 none := by
    unfold stopWork
    rw [if_neg (by simp [hend]), if_pos hcom]
  rw [hstop] at he
  obtain ⟨m1, m2, m3⟩ := abortWork_spec u 0x13 none ((congrArg EngState.works k3).trans hw) ((congrArg XactState.reqs k4).trans hx) hr hsil hs
  have hc' : Calm (u.abortWork x 0x13 none) := WorkBlind.calm (fun _ hg => hg.abortWork u x 0x13 none) k6
  have hm : MemKept u (u.abortWork x 0x13 none) := WorkBlind.memKept fun _ hg => hg.abortWork u x 0x13 none
  generalize u.abortWork x 0x13 none = v at *
  have hpg : pageOf (R.QUAD_CANCEL_STAT q) ≠ 0x014 := by simp only [pageOf, R.QUAD_CANCEL_STAT]; omega
  have hrd := (settle_rd hc' _ hpg).trans (m3 (R.QUAD_CANCEL_STAT q) (by simp only [R.QUAD_CANCEL_STAT]; omega)
    (by simp only [pageOf, R.QUAD_CANCEL_STAT]; omega))
  refine gives_of_eq rfl he ⟨congrArg EngState.works ((settle_eng hc').trans m1), ?_, (on_eq_of_rd hrd _).trans k1,
    (on_eq_of_rd hrd _).trans k2, (k5.trans hm).trans (.settle hc')⟩
  unfold Answered
  rw [settle_xact hc']
  exact m2

/-! ### Spares -/

theorem sparePowerUp_engine (e : Fin 36) (h : s.released = true) (hc : Calm s) (hn : NoTest s) (hst : s.engState e = 0) (hw : s.eng.works = []) :
    Gives (.sparePowerUp true e) s fun t =>
      t.engState e = 1 ∧ MemKept s t ∧ RegsKept s t [0x014, pageOf (R.ENG_ENG_STAT e)] [] := by
  have hup : s.engPowerUp e = (s.setEngState e 1).syncEng e := by
    have hadopt (t : State) (ht : t.eng.works = []) : t.adoptWorks = t := by unfold adoptWorks; rw [ht]; rfl
    unfold engPowerUp
    rw [if_pos (by simp [h, hst])]
    refine hadopt _ ?_
    rw [syncEng_blind (g := State.eng) fun _ _ _ _ _ _ => rfl]
    exact hw
  have u1 : ((s.setEngState e 1).syncEng e).engState e = 1 := by
    have h1 := setEngState_state s e 1
    refine syncEng_idle ?_ (by omega) (by omega)
    have : (s.setEngState e 1).eng.works = [] := hw
    unfold runningOn
    rw [this]
    rfl
  have hb : ∀ {α : Type} (g : State → α), WorkBlind g → g ((s.setEngState e 1).syncEng e) = g (s.setEngState e 1) := fun _ hg => hg.syncEng _ _
  have u2 : MemKept s ((s.setEngState e 1).syncEng e) := (put_memKept .. : MemKept s (s.setEngState e 1)).trans (WorkBlind.memKept hb)
  have u3 : Calm ((s.setEngState e 1).syncEng e) := WorkBlind.calm hb (put_calm hc)
  have u4 : NoTest ((s.setEngState e 1).syncEng e) := by
    unfold NoTest
    rw [hb _ workBlind_bist]
    exact hn
  have u5 : RegsKept s ((s.setEngState e 1).syncEng e) [0x014, pageOf (R.ENG_ENG_STAT e)] [] := by
    have hk : RegsKept s (s.setEngState e 1) [0x014, pageOf (R.ENG_ENG_STAT e)] [] := (RegsKept.refl s).put _ _ (.inr (by simp))
    refine hk.trans fun a h1 _ => syncEng_kept _ _ a (by simp) fun h2 => h1 ?_
    simp only [List.mem_cons, List.not_mem_nil, or_false] at h2 ⊢
    right
    simp only [pageOf, R.ENG_ENG_STAT, R.ENG_CUR_WORK, R.ENG_CUR_CHUNK, R.ENG_CUR_TOTAL] at h2 ⊢
    omega
  have he : s.spareUp true e = ((s.setEngState e 1).syncEng e).settle :=
    (if_pos rfl).trans ((congrArg afterUnit hup).trans (afterUnit_noTest u4))
  generalize (s.setEngState e 1).syncEng e = u at *
  have hpg : pageOf (R.ENG_ENG_STAT e) ≠ 0x014 := by simp only [pageOf, R.ENG_ENG_STAT]; omega
  exact gives_of_eq rfl he ⟨(fld_eq_of_rd (settle_rd u3 _ hpg) _).trans u1, u2.trans (.settle u3), u5.trans (.settle u3 (by simp))⟩

theorem sparePowerUp_controller (k : Fin 36) (h : s.ctrlSpare k = true) : Gives (.sparePowerUp false k) s fun t =>
      k.val ∈ t.spare.ctrlOn ∧ MemKept s t ∧ RegsKept s t [] [] := by
  have he : s.spareUp false k = { s with spare := { s.spare with ctrlOn := k.val :: s.spare.ctrlOn.filter (· ≠ k.val) } } :=
    (if_neg (by decide)).trans (if_pos h)
  exact gives_of_eq rfl he ⟨List.mem_cons_self, ⟨rfl, rfl, rfl, rfl, rfl, rfl⟩, .of_regs (.refl s) rfl⟩

/-- Settles O35: an engine that fails hands its works on; a cancelled work stops at once or at its next chunk; a spare comes up. -/
theorem engineFailures : Obligations.EngineFailures :=
  ⟨fun _ e h hc hn hw h1 h3 => engineFault_scratch e h hc hn hw h1 h3,
    fun _ e x _ h hc hn hw he hp hend hq _ h1 h3 ht => engineFault_sequencer e x h hc hn hw he hp hend hq h1 h3 ht,
    fun _ e _ h hc hn hw he hp hend hh h1 h3 => engineHang_gives e h hc hn hw he hp hend hh h1 h3,
    fun _ q _ h hc hno => cancel_none q h hc hno,
    fun _ q _ _ _ h hc hw ht hend hcom hs hx hr hsil => cancel_abort q h hc hw ht hend hcom hs hx hr hsil,
    fun _ q _ _ h hc hw ht hend hcom hp => cancel_running q h hc hw ht hend hcom hp,
    fun _ e hc hn h hst hw => sparePowerUp_engine e h hc hn hst hw, fun _ k h => sparePowerUp_controller k h⟩

end Sys2Proof.Safety
end

section
/-! SUPPORT. The flow of transactions (R102, R104, R119, R126, R254): what decoding, admission, responses and events leave alone. -/

namespace Sys2Proof.Machine
open Sys2Proof.Safety State

namespace State

variable {s : State}

theorem get_upd_same {α : Type} [DecidableEq α] (d : Nat → α) (k : Nat) (f : α → α) (m : SMap α) :
    SMap.get d (SMap.upd d k f m) k = f (SMap.get d m k) := by
  unfold SMap.upd
  rw [Sys2Proof.Laws.SMap.get_set_same]

theorem rd64_wr64 (s : State) (a : Nat) (v : Word64) : (s.wr64 a v).rd64 a = v := by
  have h1 : (s.wr64 a v).rd (a + 4) = v.extractLsb' 32 32 := rd_wr_same _ _ _
  have h2 : (s.wr64 a v).rd a = v.extractLsb' 0 32 := (rd_wr_other _ _ _ _ (by omega)).trans (rd_wr_same _ _ _)
  unfold rd64
  rw [h1, h2]
  refine BitVec.eq_of_getLsbD_eq fun i hi => ?_
  rw [BitVec.getLsbD_append]
  split
  next h => simp [h]
  next h =>
    have h32 : 32 + (i - 32) = i := by omega
    simp only [BitVec.getLsbD_extractLsb', h32]
    simp [show i - 32 < 32 by omega]

/-! ### Receive buffers -/

theorem popRx_rx (s : State) (tc : Nat) : SMap.get (fun _ => []) (s.popRx tc).link.rx tc = (SMap.get (fun _ => []) s.link.rx tc).drop 1 :=
  get_upd_same _ _ _ _

/-- The head of a class leaves, and its credits go back. -/
def headTaken (s : State) (tc : Nat) (i : RxItem) (data : Nat) : State := (s.popRx tc).returnCredits tc (headCredits i) data

theorem headTaken_spec (s : State) (tc : Nat) (i : RxItem) (data : Nat) :
    SMap.get (fun _ => []) (s.headTaken tc i data).link.rx tc = (SMap.get (fun _ => []) s.link.rx tc).drop 1 ∧
    (s.headTaken tc i data).xact = s.xact ∧ (s.headTaken tc i data).regs = s.regs ∧ (s.headTaken tc i data).bridle = s.bridle ∧
    (s.headTaken tc i data).place = s.place ∧ MemKept s (s.headTaken tc i data) :=
  ⟨popRx_rx s tc, rfl, rfl, rfl, rfl, rfl, rfl, rfl, rfl, rfl, rfl⟩

/-! ### Samples -/

theorem sampleTag_same {α : Type} {g : State → α} (hw : ∀ (t : State) a v, g (t.wr a v) = g t) (hc : ∀ (t : State) a n, g (t.counted a n) = g t)
    (hp : ∀ (t : State) p, g { t with perf := p } = g t) (s : State) (id : Nat) (h ingress : Word64) (at_ : Nat) :
    g (s.sampleTag id h ingress at_) = g s := by
  have hn : g s.nextInterval = g s := by
    unfold nextInterval
    dsimp only
    split <;> exact hp s _
  unfold sampleTag
  split
  · rfl
  · split
    · exact hp s _
    · split
      · rfl
      · dsimp only
        split
        · exact ((hc _ _ _).trans (hw _ _ _)).trans hn
        · exact (hp _ _).trans hn

/-- Tagging counts only requests that find the sampler busy. -/
theorem sampleTag_rd (s : State) (id : Nat) (h ingress : Word64) (at_ : Nat) {a : Nat} (ha : a ≠ R.PERF_SAMP_BUSY) :
    (s.sampleTag id h ingress at_).rd a = s.rd a := by
  have hn : s.nextInterval.rd a = s.rd a := by
    unfold nextInterval
    dsimp only
    split <;> rfl
  unfold sampleTag
  split
  · rfl
  · split
    · rfl
    · split
      · rfl
      · dsimp only
        split
        · exact ((rd_inc ..).trans (if_neg ha)).trans hn
        · exact hn

theorem sampleLost_same {α : Type} {g : State → α} (hw : ∀ (t : State) a v, g (t.wr a v) = g t) (hc : ∀ (t : State) a n, g (t.counted a n) = g t)
    (hp : ∀ (t : State) p, g { t with perf := p } = g t) (s : State) (id : Nat) : g (s.sampleLost id) = g s := by
  unfold sampleLost
  split
  · exact ((hc _ _ _).trans (hw _ _ _)).trans (hp s _)
  · rfl

theorem sampleLost_rd (s : State) (id : Nat) {a : Nat} (ha : a ≠ R.PERF_SAMP_LOST) : (s.sampleLost id).rd a = s.rd a := by
  unfold sampleLost
  split
  · exact (rd_inc ..).trans (if_neg ha)
  · rfl

/-! ### Decoding and the port -/

theorem lostEntries_none {m : LookupIn} (h : NoErr m) (s : State) (ns : List Nat) : s.lostEntries m ns = s := by
  obtain ⟨h1, -⟩ := h
  unfold lostEntries
  refine foldl_blind (g := id) (fun t n => ?_) ns s
  rw [h1]
  rfl

theorem lookEntries_none {m : LookupIn} (h : NoErr m) (s : State) (hd : Word64) (data : List Slot) : s.lookEntries m hd data = s :=
  lostEntries_none h s _

theorem portOf_pass {h : Word64} (hb : s.bridleOn = false) (hh : ∀ r ∈ s.xact.reqs, r.stage ≠ .held) : s.portOf h = .pass := by
  have hearlier : (s.xact.reqs.any fun r => r.stage == .held && samePair r.header h) = false :=
    List.any_eq_false.mpr fun r hr => by simp [hh r hr]
  unfold portOf
  rw [if_pos (by rw [hb, hearlier]; rfl)]

/-- A decoded request: counted and considered by the sampler. -/
def decoded (s : State) (tc : Nat) (i : RxItem) : State :=
  ((s.headTaken tc i (dataCredits i)).inc64 R.XACT_REQS_LO).sampleTag i.num i.header i.ts i.at_

theorem decoded_spec (s : State) (tc : Nat) (i : RxItem) :
    SMap.get (fun _ => []) (s.decoded tc i).link.rx tc = (SMap.get (fun _ => []) s.link.rx tc).drop 1 ∧
    (s.decoded tc i).xact = s.xact ∧ MemKept s (s.decoded tc i) ∧ (s.decoded tc i).rd64 R.XACT_REQS_LO = s.rd64 R.XACT_REQS_LO + 1 ∧
    (s.decoded tc i).rd R.XACT_TAG_DUP = s.rd R.XACT_TAG_DUP := by
  obtain ⟨h1, h2, h3, -, -, h6⟩ := headTaken_spec s tc i (dataCredits i)
  have hrd : ∀ a, (s.headTaken tc i (dataCredits i)).rd a = s.rd a := rd_eq_of_regs h3
  unfold decoded
  generalize s.headTaken tc i (dataCredits i) = u at *
  have hb := fun {α : Type} {g : State → α} (hw : ∀ (t : State) a v, g (t.wr a v) = g t) (hc : ∀ (t : State) a n, g (t.counted a n) = g t)
      (hp : ∀ (t : State) p, g { t with perf := p } = g t) =>
    sampleTag_same hw hc hp (u.inc64 R.XACT_REQS_LO) i.num i.header i.ts i.at_
  have hmem := hb (g := fun s : State => (s.dram, s.cache, s.wdb, s.place, s.otp, s.mgmt.flash)) (fun _ _ _ => rfl) (by simp) fun _ _ => rfl
  have hlink := hb (g := State.link) (fun _ _ _ => rfl) (by simp) fun _ _ => rfl
  have hxact := hb (g := State.xact) (fun _ _ _ => rfl) (by simp) fun _ _ => rfl
  have htag := fun {a : Nat} (ha : a ≠ R.PERF_SAMP_BUSY) => sampleTag_rd (u.inc64 R.XACT_REQS_LO) i.num i.header i.ts i.at_ ha
  generalize (u.inc64 R.XACT_REQS_LO).sampleTag i.num i.header i.ts i.at_ = v at *
  simp only [Prod.mk.injEq] at hmem
  refine ⟨?_, ?_, ?_, ?_, ?_⟩
  · rw [hlink]
    simpa using h1
  · rw [hxact]
    simpa using h2
  · refine h6.trans (MemKept.trans ?_ hmem)
    exact ⟨by simp, by simp, by simp, by simp, by simp, by simp⟩
  · have hsame : v.rd64 R.XACT_REQS_LO = (u.inc64 R.XACT_REQS_LO).rd64 R.XACT_REQS_LO := by
      unfold rd64
      rw [htag (by decide), htag (by decide)]
    have hu : u.rd64 R.XACT_REQS_LO = s.rd64 R.XACT_REQS_LO := by
      unfold rd64
      rw [hrd, hrd]
    rw [hsame, rd64_inc64, hu]
    rfl
  · rw [htag (by decide), rd_inc64_other _ _ _ _ (by decide) (by decide), hrd]

/-! ### Release -/

theorem charge_same {α : Type} {g : State → α} (hb : ∀ (t : State) b, g { t with bridle := b } = g t) (s : State) (h : Word64) (n : Nat)
    (x : Bool) : g (s.charge h n x) = g s := by
  unfold charge
  dsimp only
  refine (hb _ _).trans ?_
  split
  · exact hb s _
  · rfl

/-- What requests, their samples and the Bridle's accounts have no part in, a release leaves alone. -/
theorem releaseReq_same {α : Type} {g : State → α} (hb : ∀ (t : State) b, g { t with bridle := b } = g t)
    (hx : ∀ (t : State) x, g { t with xact := x } = g t) (hp : ∀ (t : State) p, g { t with perf := p } = g t) (s : State) (r : Req) :
    g (s.releaseReq r) = g s := by
  unfold releaseReq samplePass
  dsimp only
  exact (hp _ _).trans ((hp _ _).trans ((hx _ _).trans (charge_same hb s _ _ _)))

theorem releaseReq_reqs (s : State) (r : Req) : (s.releaseReq r).xact.reqs =
    s.xact.reqs.map fun x => if x.id = r.id then { x with stage := .ready, prio := s.prioOf r.header } else x := by
  have h : (s.charge r.header (chargeOf r.header) (s.isExcess r.header)).xact = s.xact := charge_same (g := State.xact) (fun _ _ => rfl) s _ _ _
  unfold releaseReq
  dsimp only
  show ((s.charge r.header (chargeOf r.header) (s.isExcess r.header)).updReq r.id _).xact.reqs = _
  rw [updReq_reqs, h]

/-- A request that passes the port is ready. -/
theorem atPort_pass (s : State) (r : Req) (n : Nat) :
    (∃ x ∈ (s.atPort r 0 n .pass).xact.reqs, x.id = r.id ∧ x.header = r.header ∧ x.stage = .ready) ∧
    (s.atPort r 0 n .pass).link = s.link ∧ (s.atPort r 0 n .pass).regs = s.regs ∧ MemKept s (s.atPort r 0 n .pass) := by
  have heq : s.atPort r 0 n .pass = (s.addReq r).releaseReq r := rfl
  have hreqs := releaseReq_reqs (s.addReq r) r
  have hadd : (s.addReq r).xact.reqs = s.xact.reqs ++ [r] := rfl
  have hlink := releaseReq_same (g := State.link) (fun _ _ => rfl) (fun _ _ => rfl) (fun _ _ => rfl) (s.addReq r) r
  have hregs := releaseReq_same (g := State.regs) (fun _ _ => rfl) (fun _ _ => rfl) (fun _ _ => rfl) (s.addReq r) r
  have hmem := releaseReq_same (g := fun s : State => (s.dram, s.cache, s.wdb, s.place, s.otp, s.mgmt.flash)) (fun _ _ => rfl) (fun _ _ => rfl)
    (fun _ _ => rfl) (s.addReq r) r
  rw [hadd] at hreqs
  rw [heq]
  generalize (s.addReq r).releaseReq r = u at *
  simp only [Prod.mk.injEq] at hmem
  refine ⟨?_, hlink, hregs, hmem⟩
  rw [hreqs]
  exact ⟨_, List.mem_map.mpr ⟨r, List.mem_append_right _ (List.mem_singleton.mpr rfl), if_pos rfl⟩, rfl, rfl, rfl⟩

end State
end Sys2Proof.Machine
end

section
/-! SUPPORT. Commands of the transaction layer, one by one. -/

namespace Sys2Proof.Machine
open Sys2Proof.Safety State

namespace State

variable {s : State}

theorem requestAdmit_eq {tc : Nat} {m : LookupIn} {i : RxItem} (wl : RxItem → List Nat) (ws : State → RxItem → Nat × Nat)
    (hi : s.rxHead tc = some i) (hm : NoErr m) (hr : s.released = true) (hl : i.left = 0) (ha : s.admitRoom i = true) (hb : badHead i = false) :
    s.requestAdmit tc m wl ws =
      let st := if i.half then (s.decodeStatus i.header i.data, 0) else ws s i
      let p := s.portOf i.header
      let dup := s.on R.XACT_XACT_CTL F.XACT_XACT_CTL_TAG_CHECK && s.tagBusy (hTag i.header)
      if !dup && st.1 == 0 && p == .stay then s.stayRx tc
      else
        let owes := !dup && !i.half && st.1 == 0 && p == .pass
        let u := s.popRx tc
        let u := if owes then u else u.returnCredits tc (headCredits i) (dataCredits i)
        let u := (u.inc64 R.XACT_REQS_LO).sampleTag i.num i.header i.ts i.at_
        if dup then ((u.inc R.XACT_TAG_DUP).deliver (reqDelivery 4 i.header)).sampleLost i.num
        else u.atPort { u.newReq i with owes := owes } st.1 st.2 p := by
  have hlook : (if i.half then s.lookEntries m i.header i.data else s.lostEntries m (wl i)) = s := by
    split
    · exact lookEntries_none hm s _ _
    · exact lostEntries_none hm s _
  unfold requestAdmit
  rw [hi]
  dsimp only
  rw [if_neg (by simp [hr, hl, hb, ha]), hlook]

theorem admit_ready {tc : Nat} {m : LookupIn} {i : RxItem} (wl : RxItem → List Nat) (ws : State → RxItem → Nat × Nat)
    (hi : s.rxHead tc = some i) (hm : NoErr m) (hr : s.released = true) (hl : i.left = 0) (ha : s.admitRoom i = true) (hb : badHead i = false)
    (hhalf : i.half = true) (hbr : s.bridleOn = false) (hh : ∀ r ∈ s.xact.reqs, r.stage ≠ .held) (ht : s.tagBusy (hTag i.header) = false)
    (hd : s.decodeStatus i.header i.data = 0) :
    s.requestAdmit tc m wl ws = (s.decoded tc i).atPort { (s.decoded tc i).newReq i with owes := false } 0 0 .pass := by
  rw [requestAdmit_eq wl ws hi hm hr hl ha hb]
  dsimp only
  rw [hhalf, ht, portOf_pass hbr hh, if_pos rfl, hd, Bool.and_false]
  exact (if_neg (by decide)).trans (if_neg (by decide))

/-- A request whose tag is busy is counted and dropped. -/
def dupDropped (s : State) (i : RxItem) : State := ((s.inc R.XACT_TAG_DUP).deliver (reqDelivery 4 i.header)).sampleLost i.num

theorem admit_dup {tc : Nat} {m : LookupIn} {i : RxItem} (wl : RxItem → List Nat) (ws : State → RxItem → Nat × Nat)
    (hi : s.rxHead tc = some i) (hm : NoErr m) (hr : s.released = true) (hl : i.left = 0) (ha : s.admitRoom i = true) (hb : badHead i = false)
    (hc : s.on R.XACT_XACT_CTL F.XACT_XACT_CTL_TAG_CHECK = true) (ht : s.tagBusy (hTag i.header) = true) :
    s.requestAdmit tc m wl ws = (s.decoded tc i).dupDropped i := by
  rw [requestAdmit_eq wl ws hi hm hr hl ha hb]
  dsimp only
  rw [hc, ht]
  exact (if_neg (by simp)).trans (if_pos rfl)

theorem dupDropped_spec (s : State) (i : RxItem) : (s.dupDropped i).rd R.XACT_TAG_DUP = s.rd R.XACT_TAG_DUP + 1 ∧
    (s.dupDropped i).xact = s.xact ∧ MemKept s (s.dupDropped i) := by
  have hb := fun {α : Type} {g : State → α} (hw : ∀ (t : State) a v, g (t.wr a v) = g t) (hc : ∀ (t : State) a n, g (t.counted a n) = g t)
      (hp : ∀ (t : State) p, g { t with perf := p } = g t) =>
    sampleLost_same hw hc hp ((s.inc R.XACT_TAG_DUP).deliver (reqDelivery 4 i.header)) i.num
  have hmem := hb (g := fun s : State => (s.dram, s.cache, s.wdb, s.place, s.otp, s.mgmt.flash)) (fun _ _ _ => rfl) (by simp) fun _ _ => rfl
  simp only [Prod.mk.injEq] at hmem
  refine ⟨?_, ?_, MemKept.trans ?_ hmem⟩
  · refine (sampleLost_rd _ _ (by decide)).trans ?_
    exact (rd_eq_of_regs (by simp) _).trans ((rd_inc ..).trans (if_pos rfl))
  · refine (hb (g := State.xact) (fun _ _ _ => rfl) (by simp) fun _ _ => rfl).trans ?_
    simp
  · exact ⟨by simp, by simp, by simp, by simp, by simp, by simp⟩

/-- A request that moves no parcel and ends no migration leaves nothing to follow. -/
theorem afterMove_same {u : State} (h : u.place = s.place) : s.afterMove u = u :=
  if_pos ⟨congrArg PlaceState.mig h, congrArg PlaceState.table h⟩

/-! ### Responses -/

/-- What priorities, latencies and registers have no part in, a request's latency leaves alone. -/
theorem latencyDone_same {α : Type} {g : State → α} (hw : ∀ (t : State) a v, g (t.wr a v) = g t) (hc : ∀ (t : State) a n, g (t.counted a n) = g t)
    (hb : ∀ (t : State) b, g { t with bridle := b } = g t) (hr : ∀ t : State, g t.raisePrio = g t) (s : State) (r : Req) :
    g (s.latencyDone r) = g s := by
  have hlevel (t : State) (n : Nat) : g (t.setLevel n) = g t := (hw _ _ _).trans ((hw _ _ _).trans (hw _ _ _))
  unfold latencyDone
  dsimp only
  split
  · refine (hr _).trans ((hlevel _ _).trans ?_)
    split
    · exact ((hc _ _ _).trans (hw _ _ _)).trans (hb s _)
    · exact hb s _
  · rfl

/-- A latency is noted in the Bridle's page. -/
theorem latencyDone_rd (s : State) (r : Req) {a : Nat} (ha : pageOf a ≠ 0x00B) : (s.latencyDone r).rd a = s.rd a := by
  have hlevel (t : State) (n : Nat) (hn : n < 8) : (t.setLevel n).rd a = t.rd a := by
    have h1 : a ≠ R.BRIDLE_TC_LAT n := by rintro rfl; exact ha (by simp only [pageOf, R.BRIDLE_TC_LAT]; omega)
    have h2 : a ≠ R.BRIDLE_BR_STAT := by rintro rfl; exact ha (by decide)
    exact (rd_wr_other _ _ _ _ h2).trans ((rd_wr_other _ _ _ _ h1).trans (rd_wr_other _ _ _ _ h1))
  have htc : hTc r.header < 8 := Nat.mod_lt _ (by decide)
  have hraise (t : State) : t.raisePrio.rd a = t.rd a := rfl
  unfold latencyDone
  dsimp only
  split
  · refine (hraise _).trans ((hlevel _ _ htc).trans ?_)
    split
    · exact (rd_inc ..).trans (if_neg (by rintro rfl; exact ha (by decide)))
    · rfl
  · rfl

/-- Priorities change, requests stay. -/
theorem raisePrio_ids (s : State) {x : Req} (hx : x ∈ s.raisePrio.xact.reqs) : ∃ y ∈ s.xact.reqs, y.id = x.id := by
  obtain ⟨y, hy, rfl⟩ := List.mem_map.mp (show x ∈ s.xact.reqs.map fun r =>
    if r.stage = .held then r else { r with prio := max r.prio (s.prioOf r.header) } from hx)
  refine ⟨y, hy, ?_⟩
  split <;> rfl

theorem setLevel_xact (s : State) (n : Nat) : (s.setLevel n).xact = s.xact := rfl

theorem latencyDone_ids (s : State) (r : Req) {x : Req} (hx : x ∈ (s.latencyDone r).xact.reqs) : ∃ y ∈ s.xact.reqs, y.id = x.id := by
  unfold latencyDone at hx
  dsimp only at hx
  split at hx
  · obtain ⟨y, hy, hid⟩ := raisePrio_ids _ hx
    refine ⟨y, ?_, hid⟩
    rw [setLevel_xact] at hy
    split at hy
    · simpa using hy
    · exact hy
  · exact ⟨x, hx, rfl⟩

/-- A response joins the stream, and its request leaves. -/
def responsePlaced (s : State) (r : Req) : State :=
  { s.place_ { header := rspHeader r, data := r.payload, req := some r.id } with
    xact := { s.xact with reqs := s.xact.reqs.filter fun x => decide (x.id ≠ r.id) } }

theorem responsePlaced_spec (s : State) (r : Req) :
    (s.responsePlaced r).link.txq = s.link.txq ++ [{ header := rspHeader r, data := r.payload, req := some r.id }] ∧
    (∀ x ∈ (s.responsePlaced r).xact.reqs, x.id ≠ r.id) ∧ (s.responsePlaced r).regs = s.regs ∧ MemKept s (s.responsePlaced r) := by
  refine ⟨rfl, fun x hx => ?_, rfl, ⟨rfl, rfl, rfl, rfl, rfl, rfl⟩⟩
  exact of_decide_eq_true (List.mem_filter.mp hx).2

/-! ### Events -/

/-- The next event joins the stream under the next sequence number. -/
def eventPlaced (s : State) (e : Event) (i : TxItem) : State :=
  { (s.place_ i).put R.XACT_EVT_SEQ F.XACT_EVT_SEQ_NEXT ((s.fld R.XACT_EVT_SEQ F.XACT_EVT_SEQ_NEXT + 1) % 4096) with
    xact := { s.xact with events := s.xact.events.erase e, lost := 0 } }

theorem eventPlaced_spec (s : State) (e : Event) (i : TxItem) : (s.eventPlaced e i).xact.events = s.xact.events.erase e ∧
    (s.eventPlaced e i).xact.lost = 0 ∧ (s.eventPlaced e i).xact.reqs = s.xact.reqs ∧ (s.eventPlaced e i).link.txq = s.link.txq ++ [i] ∧
    (s.eventPlaced e i).rd R.XACT_EVT_SENT = s.rd R.XACT_EVT_SENT ∧
    (s.eventPlaced e i).fld R.XACT_EVT_SEQ F.XACT_EVT_SEQ_NEXT = (s.fld R.XACT_EVT_SEQ F.XACT_EVT_SEQ_NEXT + 1) % 4096 ∧
    MemKept s (s.eventPlaced e i) := by
  refine ⟨rfl, rfl, rfl, rfl, ?_, ?_, ⟨rfl, rfl, rfl, rfl, rfl, rfl⟩⟩
  · exact rd_wr_other _ _ _ _ (by decide)
  · exact (fld_put_same (s.place_ i) _ _ _ (by decide)).trans (Nat.mod_mod _ _)

end State
end Sys2Proof.Machine

namespace Sys2Proof.Safety
open Sys2Proof.Machine Sys2Proof.Machine.State

variable {s : State}

theorem badHeader_gives {tc : BitVec 3} {i : RxItem} (hi : s.rxHead tc.toNat = some i) (hr : s.released = true) (hb : badHead i = true) :
    Gives (.badHeader tc) s fun t =>
      t.rd R.XACT_BAD_HDR = s.rd R.XACT_BAD_HDR + 1 ∧ t.rd64 R.XACT_BAD_HDR_LO = i.header ∧
        SMap.get (fun _ => []) t.link.rx tc.toNat = (SMap.get (fun _ => []) s.link.rx tc.toNat).drop 1 ∧
        t.xact = s.xact ∧ MemKept s t ∧
        RegsKept s t [] [R.XACT_BAD_HDR, R.XACT_BAD_HDR_LO, R.XACT_BAD_HDR_HI] := by
  have he : s.badHeader tc.toNat = (((s.headTaken tc.toNat i 0).inc R.XACT_BAD_HDR).wr64 R.XACT_BAD_HDR_LO i.header).report 3 0 1 := by
    unfold badHeader
    rw [hi]
    exact if_pos (by rw [hr, hb]; rfl)
  obtain ⟨h1, h2, h3, -, -, h6⟩ := headTaken_spec s tc.toNat i 0
  have hrd : ∀ a, (s.headTaken tc.toNat i 0).rd a = s.rd a := rd_eq_of_regs h3
  generalize s.headTaken tc.toNat i 0 = u at *
  have hkept : RegsKept s (((u.inc R.XACT_BAD_HDR).wr64 R.XACT_BAD_HDR_LO i.header).report 3 0 1) []
      [R.XACT_BAD_HDR, R.XACT_BAD_HDR_LO, R.XACT_BAD_HDR_HI] :=
    .of_regs ((((RegsKept.of_regs (.refl s) h3).inc _ (.inl (by simp))).wr _ (.inl (by simp))).wr _ (.inl (by simp))) (report_regs ..)
  have hreport : ∀ a, (((u.inc R.XACT_BAD_HDR).wr64 R.XACT_BAD_HDR_LO i.header).report 3 0 1).rd a =
      ((u.inc R.XACT_BAD_HDR).wr64 R.XACT_BAD_HDR_LO i.header).rd a := rd_eq_of_regs (report_regs ..)
  refine gives_of_eq rfl he ⟨?_, ?_, by simpa using h1, by simpa using h2, h6.trans ⟨by simp, by simp, by simp, by simp, by simp, by simp⟩, hkept⟩
  · rw [hreport, ← hrd]
    exact (rd_wr_other _ _ _ _ (by decide)).trans ((rd_wr_other _ _ _ _ (by decide)).trans ((rd_inc ..).trans (if_pos rfl)))
  · refine Eq.trans ?_ (rd64_wr64 (u.inc R.XACT_BAD_HDR) R.XACT_BAD_HDR_LO i.header)
    unfold rd64
    rw [hreport, hreport]

theorem requestAdmit_ready {tc : BitVec 3} {m : LookupIn} {i : RxItem} (hi : s.rxHead tc.toNat = some i) (hm : NoErr m) (hr : s.released = true)
    (hl : i.left = 0) (ha : s.admitRoom i = true) (hb : badHead i = false) (hhalf : i.half = true) (hbr : s.bridleOn = false)
    (hh : ∀ r ∈ s.xact.reqs, r.stage ≠ .held) (ht : s.tagBusy (hTag i.header) = false) (hd : s.decodeStatus i.header i.data = 0) :
    Gives (.requestAdmit tc m) s fun t =>
      (∃ r ∈ t.xact.reqs, r.id = i.num ∧ r.header = i.header ∧ r.stage = .ready) ∧
        t.rd64 R.XACT_REQS_LO = s.rd64 R.XACT_REQS_LO + 1 ∧
        SMap.get (fun _ => []) t.link.rx tc.toNat = (SMap.get (fun _ => []) s.link.rx tc.toNat).drop 1 ∧ MemKept s t := by
  have he := admit_ready workParcels workStatus hi hm hr hl ha hb hhalf hbr hh ht hd
  obtain ⟨k1, k2, k3, k4, -⟩ := decoded_spec s tc.toNat i
  obtain ⟨⟨x, hx, hid, hhd, hst⟩, m2, m3, m4⟩ := atPort_pass (s.decoded tc.toNat i) { (s.decoded tc.toNat i).newReq i with owes := false } 0
  generalize (s.decoded tc.toNat i).atPort { (s.decoded tc.toNat i).newReq i with owes := false } 0 0 .pass = u at *
  have hafter : s.afterMove (s.requestAdmit tc.toNat m workParcels workStatus) = u := by
    rw [he]
    exact afterMove_same (k3.trans m4).place_eq
  refine gives_of_eq rfl hafter ⟨⟨x, hx, hid, hhd, hst⟩, ?_, by rw [m2, k1], k3.trans m4⟩
  rw [← k4]
  unfold rd64
  rw [rd_eq_of_regs m3, rd_eq_of_regs m3]

theorem requestAdmit_dup {tc : BitVec 3} {m : LookupIn} {i : RxItem} (hi : s.rxHead tc.toNat = some i) (hm : NoErr m) (hr : s.released = true)
    (hl : i.left = 0) (ha : s.admitRoom i = true) (hb : badHead i = false) (hc : s.on R.XACT_XACT_CTL F.XACT_XACT_CTL_TAG_CHECK = true)
    (ht : s.tagBusy (hTag i.header) = true) : Gives (.requestAdmit tc m) s fun t =>
      t.rd R.XACT_TAG_DUP = s.rd R.XACT_TAG_DUP + 1 ∧ t.xact.reqs = s.xact.reqs ∧ MemKept s t := by
  have he := admit_dup workParcels workStatus hi hm hr hl ha hb hc ht
  obtain ⟨-, k2, k3, -, k5⟩ := decoded_spec s tc.toNat i
  obtain ⟨m1, m2, m3⟩ := dupDropped_spec (s.decoded tc.toNat i) i
  generalize (s.decoded tc.toNat i).dupDropped i = u at *
  have hafter : s.afterMove (s.requestAdmit tc.toNat m workParcels workStatus) = u := by
    rw [he]
    exact afterMove_same (k3.trans m3).place_eq
  exact gives_of_eq rfl hafter ⟨m1.trans (congrArg (· + 1) k5), congrArg XactState.reqs (m2.trans k2), k3.trans m3⟩

theorem fenceReq_gives {tag : BitVec 12} {r : Req} (hr : s.released = true)
    (hf : s.xact.reqs.find? (fun r => decide (r.stage = .ready) && hTag r.header == tag.toNat && hOpc r.header == 5) = some r)
    (hp : Plain r) (hd : s.decodeStatus r.header r.data = 0) : Gives (.fenceReq tag) s fun t =>
      (∃ x ∈ t.xact.reqs, x.id = r.id ∧ x.stage = .working) ∧ MemKept s t ∧ RegsKept s t [] [] := by
  have he : s.fenceReq tag.toNat = s.updReq r.id fun x => { x with stage := .working } := by
    unfold fenceReq
    rw [if_neg (by simp [hr]), hf]
    dsimp only
    rw [if_neg (show ¬r.status ≠ 0 from fun h => h hp.1), hd]
    exact if_neg fun h => h rfl
  refine gives_of_eq rfl he ⟨⟨{ r with stage := .working }, ?_, rfl, rfl⟩, updReq_memKept .., .of_regs (.refl s) rfl⟩
  rw [updReq_reqs]
  exact List.mem_map.mpr ⟨r, List.mem_of_find?_eq_some hf, if_pos rfl⟩

theorem fencePerformed_gives {tag : BitVec 12} {r : Req} (hr : s.released = true)
    (hf : s.xact.reqs.find? (fun r => decide (r.stage = .working) && hTag r.header == tag.toNat && hOpc r.header == 5) = some r)
    (hp : Plain r) (hc : s.fenceClear r = true) : Gives (.fencePerformed tag) s fun t =>
      Answered t r.id 0 none ∧ t.rd R.XACT_FENCES = s.rd R.XACT_FENCES + 1 ∧ MemKept s t ∧
        RegsKept s t [] [R.XACT_FENCES] := by
  have he : s.fencePerformed tag.toNat = (s.inc R.XACT_FENCES).answer r 0 0 [] := by
    unfold fencePerformed
    rw [hf]
    exact if_pos (by rw [hr, hc]; rfl)
  have hmem : r ∈ (s.inc R.XACT_FENCES).xact.reqs := by simpa using List.mem_of_find?_eq_some hf
  have hrd (a : Nat) : ((s.inc R.XACT_FENCES).answer r 0 0 []).rd a = (s.inc R.XACT_FENCES).rd a := rd_answer _ 0 a [] hp.2 (by decide)
  refine gives_of_eq rfl he ⟨answered_of_answer_none _ 0 [] hmem hp.2 (by decide), (hrd _).trans ((rd_inc ..).trans (if_pos rfl)),
    (inc_memKept ..).trans (answer_memKept _ 0 [] hp.2 (by decide)), fun a _ ha => (hrd a).trans ((rd_inc ..).trans (if_neg ?_))⟩
  simpa using ha

theorem responseSend_gives {tag : BitVec 12} {r : Req} (hr : s.released = true)
    (hf : s.xact.reqs.find? (fun r => decide (r.stage = .done) && hTag r.header == tag.toNat) = some r)
    (ho : s.sendOpen = true) (hc : s.credOk (hTc r.header) r.payload.length = true) : Gives (.responseSend tag) s fun t =>
      t.link.txq = s.link.txq ++ [{ header := State.rspHeader r, data := r.payload, req := some r.id }] ∧
        (∀ x ∈ t.xact.reqs, x.id ≠ r.id) ∧ t.rd (R.LINK_CRED_TX (hTc r.header)) = s.rd (R.LINK_CRED_TX (hTc r.header)) ∧
        MemKept s t := by
  have he : s.responseSend tag.toNat = ((s.responsePlaced r).latencyDone r).noteWait := by
    unfold responseSend
    rw [hf]
    exact if_neg (by simp [hr, ho, hc])
  obtain ⟨h1, h2, h3, h4⟩ := responsePlaced_spec s r
  generalize s.responsePlaced r = u at *
  have hids := fun {x} => latencyDone_ids u r (x := x)
  have hrd := fun {a} => latencyDone_rd u r (a := a)
  have hlink := latencyDone_same (g := State.link) (fun _ _ _ => rfl) (by simp) (fun _ _ => rfl) (fun _ => rfl) u r
  have hmem := latencyDone_same (g := fun s : State => (s.dram, s.cache, s.wdb, s.place, s.otp, s.mgmt.flash)) (fun _ _ _ => rfl) (by simp)
    (fun _ _ => rfl) (fun _ => rfl) u r
  generalize u.latencyDone r = v at *
  simp only [Prod.mk.injEq] at hmem
  refine gives_of_eq rfl he ⟨(congrArg LinkState.txq hlink).trans h1, fun x hx => ?_, ?_, (h4.trans hmem).trans (noteWait_memKept v)⟩
  · obtain ⟨y, hy, hid⟩ := hids hx
    rw [← hid]
    exact h2 y hy
  · have htc : hTc r.header < 8 := Nat.mod_lt _ (by decide)
    exact (rd_noteWait ..).trans ((hrd (by simp only [pageOf, R.LINK_CRED_TX]; omega)).trans (rd_eq_of_regs h3 _))

theorem responseSend_waits {tag : BitVec 12} {r : Req}
    (hf : s.xact.reqs.find? (fun r => decide (r.stage = .done) && hTag r.header == tag.toNat) = some r)
    (hw : s.sendOpen = false ∨ s.credOk (hTc r.header) r.payload.length = false) : Gives (.responseSend tag) s fun t =>
      t.link = s.link ∧ t.xact.reqs = s.xact.reqs ∧ t.regs = s.regs ∧ MemKept s t := by
  have he : s.responseSend tag.toNat = s.noteWait := by
    unfold responseSend
    rw [hf]
    refine if_pos ?_
    rcases hw with h | h <;> simp [h]
  exact gives_of_eq rfl he ⟨rfl, rfl, rfl, noteWait_memKept s⟩

theorem eventSend_gives {e : Event} (hr : s.released = true) (hn : s.nextEvent = some e) (ho : s.sendOpen = true)
    (hc : s.credOk s.evtTc 4 = true) : Gives .eventSend s fun t =>
      t.xact.events = s.xact.events.erase e ∧ t.xact.lost = 0 ∧ t.rd R.XACT_EVT_SENT = s.rd R.XACT_EVT_SENT + 1 ∧
        t.fld R.XACT_EVT_SEQ F.XACT_EVT_SEQ_NEXT = (s.fld R.XACT_EVT_SEQ F.XACT_EVT_SEQ_NEXT + 1) % 4096 ∧
        t.link.txq.length = s.link.txq.length + 1 ∧ t.xact.reqs = s.xact.reqs ∧ MemKept s t := by
  obtain ⟨i, he⟩ : ∃ i, s.eventSend = ((s.eventPlaced e i).inc R.XACT_EVT_SENT).noteWait := by
    unfold eventSend
    rw [hn]
    exact ⟨_, if_neg (by simp [hr, ho, hc])⟩
  obtain ⟨h1, h2, h3, h4, h5, h6, h7⟩ := eventPlaced_spec s e i
  generalize s.eventPlaced e i = u at *
  have hrd (a : Nat) : (u.inc R.XACT_EVT_SENT).noteWait.rd a = (u.inc R.XACT_EVT_SENT).rd a := rfl
  have hx : (u.inc R.XACT_EVT_SENT).noteWait.xact.events = u.xact.events ∧ (u.inc R.XACT_EVT_SENT).noteWait.xact.lost = u.xact.lost ∧
      (u.inc R.XACT_EVT_SENT).noteWait.xact.reqs = u.xact.reqs ∧ (u.inc R.XACT_EVT_SENT).noteWait.link = u.link := by
    refine ⟨?_, ?_, ?_, ?_⟩
    all_goals simp [noteWait]
  obtain ⟨x1, x2, x3, x4⟩ := hx
  refine gives_of_eq rfl he ⟨x1.trans h1, x2.trans h2, ?_, ?_, ?_, x3.trans h3, (h7.trans (inc_memKept ..)).trans (noteWait_memKept _)⟩
  · rw [hrd, rd_inc, if_pos rfl, h5]
    rfl
  · rw [fld_eq_of_rd (hrd _), fld_eq_of_rd ((rd_inc ..).trans (if_neg (by decide))), h6]
  · rw [x4, h4, List.length_append]
    rfl

/-- Settles O19: a request is decoded at the head of its class; a fence waits for its scope; responses and events join the stream of
sequenced flits. -/
theorem transactionFlow : Obligations.TransactionFlow :=
  ⟨fun _ _ _ hi hr hb => badHeader_gives hi hr hb,
    fun _ _ _ _ hi hm hr hl ha hb hhalf hbr hh ht hd => requestAdmit_ready hi hm hr hl ha hb hhalf hbr hh ht hd,
    fun _ _ _ _ hi hm hr hl ha hb hc ht => requestAdmit_dup hi hm hr hl ha hb hc ht,
    fun _ _ _ hr hf hp hd => fenceReq_gives hr hf hp hd, fun _ _ _ hr hf hp hc => fencePerformed_gives hr hf hp hc,
    fun _ _ _ hr hf ho hc => responseSend_gives hr hf ho hc, fun _ _ _ hf hw => responseSend_waits hf hw,
    fun _ _ hr hn ho hc => eventSend_gives hr hn ho hc⟩

end Sys2Proof.Safety
end

section
/-! SUPPORT. Requests on lines (R105 to R113, R129, R140): their look-ups, the write data buffer, and their answers. -/

namespace Sys2Proof.Machine
open Sys2Proof.Safety State

namespace State

variable {s : State}

/-! ### Look-ups -/

theorem tagLookups_none {m : LookupIn} (h : NoErr m) (s : State) (lis : List Nat) : s.tagLookups m lis = s := by
  obtain ⟨-, h2, -⟩ := h
  unfold tagLookups checkTags
  rw [h2]
  split <;> rfl

theorem lookup_none {m : LookupIn} (h : NoErr m) (s : State) (hd : Word64) : s.lookup hd m = s := tagLookups_none h s _

/-- A part of the state that is none of the samples, counters, free values and heat counters: what a look-up leaves alone. -/
structure LookBlind {α : Type} (g : State → α) : Prop where
  perf : ∀ (t : State) p, g { t with perf := p } = g t
  misses : ∀ (t : State) n, g (t.inc64 R.CACHE_MISSES_LO n) = g t
  free : ∀ (t : State) n, g { t with free := n } = g t
  heat : ∀ (t : State) h, g { t with place := { t.place with heat := h } } = g t

namespace LookBlind

variable {α : Type} {g : State → α} (hg : LookBlind g) (s : State)
include hg

theorem stamp (id n : Nat) : g (s.stamp id n) = g s := hg.perf s _
theorem sampleWhere (id n : Nat) : g (s.sampleWhere id n) = g s := hg.perf s _

theorem sampleLookup (id n : Nat) : g (s.sampleLookup id n) = g s := (hg.perf _ _).trans ((hg.perf _ _).trans (hg.perf s _))

theorem heatAccess (n : Nat) : g (s.heatAccess n) = g s := by
  unfold State.heatAccess
  split
  · dsimp only
    split
    · exact (hg.heat _ _).trans (hg.free s _)
    · exact hg.free s _
  · rfl

theorem heatLines (n k : Nat) : g (s.heatLines n k) = g s := by
  induction k generalizing s with
  | zero => rfl
  | succ k ih => exact (ih _).trans (hg.heatAccess s n)

theorem countMisses (lis : List Nat) : g (s.countMisses lis) = g s := hg.misses s _

end LookBlind

theorem lookBlind_mem : LookBlind fun s => (s.dram, s.cache, s.wdb, s.otp, s.mgmt.flash) :=
  ⟨fun _ _ => rfl, by simp, fun _ _ => rfl, fun _ _ => rfl⟩
theorem lookBlind_wdb : LookBlind State.wdb := ⟨fun _ _ => rfl, by simp, fun _ _ => rfl, fun _ _ => rfl⟩
theorem lookBlind_xact : LookBlind State.xact := ⟨fun _ _ => rfl, by simp, fun _ _ => rfl, fun _ _ => rfl⟩
theorem lookBlind_mig : LookBlind fun s => s.place.mig := ⟨fun _ _ => rfl, by simp, fun _ _ => rfl, fun _ _ => rfl⟩
theorem lookBlind_table : LookBlind fun s => s.place.table := ⟨fun _ _ => rfl, by simp, fun _ _ => rfl, fun _ _ => rfl⟩

theorem lookBlind_rd {a : Nat} (h1 : a ≠ R.CACHE_MISSES_LO) (h2 : a ≠ R.CACHE_MISSES_LO + 4) : LookBlind fun s => s.rd a :=
  ⟨fun _ _ => rfl, fun _ _ => rd_inc64_other _ _ _ _ h1 h2, fun _ _ => rfl, fun _ _ => rfl⟩

/-! ### The write data buffer -/

theorem wdbPut_line (s : State) (li : Nat) (l : Line) (k : Nat) : (s.wdbPut li l).wdbLine k = if k = li then some l else s.wdbLine k := by
  have happ (l' : List WdbEntry) (h : ∀ e ∈ l', e.li ≠ li) :
      ((l' ++ [({ li := li, line := l } : WdbEntry)]).find? fun e => decide (e.li = k)).map WdbEntry.line =
        if k = li then some l else (l'.find? fun e => decide (e.li = k)).map WdbEntry.line := by
    rw [List.find?_append]
    by_cases hk : k = li
    · subst hk
      rw [List.find?_eq_none.mpr fun e he => by simpa using h e he, if_pos rfl]
      simp
    · rw [if_neg hk]
      cases l'.find? fun e => decide (e.li = k) with
      | none => simp [Ne.symm hk]
      | some e => simp
  have hmap (l' : List WdbEntry) (h : ∃ e ∈ l', e.li = li) :
      ((l'.map fun e => if e.li = li then { e with line := l, scan := false } else e).find? fun e => decide (e.li = k)).map WdbEntry.line =
        if k = li then some l else (l'.find? fun e => decide (e.li = k)).map WdbEntry.line := by
    induction l' with
    | nil => simp at h
    | cons a l' ih =>
      rw [List.map_cons]
      by_cases ha : a.li = li
      · rw [if_pos ha]
        by_cases hk : k = li
        · simp [ha, hk]
        · rw [if_neg hk, List.find?_cons_of_neg (by simpa [ha] using Ne.symm hk), List.find?_cons_of_neg (by simpa [ha] using Ne.symm hk)]
          by_cases hr : ∃ e ∈ l', e.li = li
          · rw [ih hr, if_neg hk]
          · refine congrArg (fun x => Option.map WdbEntry.line (List.find? _ x)) ?_
            refine (List.map_congr_left fun e he => if_neg fun h' => hr ⟨e, he, h'⟩).trans ?_
            exact List.map_id _
      · rw [if_neg ha]
        have hr : ∃ e ∈ l', e.li = li := by
          obtain ⟨e, he, h'⟩ := h
          rcases List.mem_cons.mp he with rfl | he
          · exact absurd h' ha
          · exact ⟨e, he, h'⟩
        by_cases hak : a.li = k
        · rw [List.find?_cons_of_pos (by simpa using hak), List.find?_cons_of_pos (by simpa using hak), if_neg (by omega)]
        · rw [List.find?_cons_of_neg (by simpa using hak), List.find?_cons_of_neg (by simpa using hak), ih hr]
  unfold wdbPut
  split
  next h =>
    obtain ⟨e, he, h'⟩ := List.any_eq_true.mp h
    exact hmap s.wdb ⟨e, he, of_decide_eq_true h'⟩
  next h =>
    refine happ s.wdb fun e he h' => h ?_
    exact List.any_eq_true.mpr ⟨e, he, decide_eq_true h'⟩

theorem wdbPut_kept (s : State) (li : Nat) (l : Line) : (s.wdbPut li l).dram = s.dram ∧ (s.wdbPut li l).cache = s.cache ∧
    (s.wdbPut li l).xact = s.xact ∧ (s.wdbPut li l).place = s.place ∧ (s.wdbPut li l).regs = s.regs ∧ (s.wdbPut li l).link = s.link := by
  unfold wdbPut
  split
  · exact ⟨rfl, rfl, rfl, rfl, rfl, rfl⟩
  · exact ⟨rfl, rfl, rfl, rfl, rfl, rfl⟩

/-! ### Answers -/

/-- What an answer of any status shows, here with the data given or as many zeros as the response carries. -/
theorem answer_answered (u : State) {r : Req} (status rinfo : Nat) (pay : List Slot) (hr : r ∈ u.xact.reqs) (hs : r.silent = false) :
    Answered (u.answer r status rinfo pay) r.id status (some (if pay.isEmpty then List.replicate (rspSlots r.header) 0 else pay)) := by
  have hcount (t : State) : (t.countStatus r status).xact = t.xact := by
    unfold countStatus
    split
    · simp
    · split
      · simp
      · split
        · simp
        · split <;> simp
  have hcred : (if r.owes then u.returnCredits (hTc r.header) 6 0 else u).xact = u.xact := by split <;> rfl
  unfold answer
  dsimp only
  rw [if_neg (ne_true_of_eq_false hs)]
  generalize (if r.owes = true then u.returnCredits (hTc r.header) 6 0 else u) = v at *
  refine ⟨r.answered r.header status rinfo pay, ?_, rfl, rfl, rfl, fun p hp => ?_⟩
  · rw [noteWait_reqs, sample_xact, updReq_reqs, hcount, hcred]
    exact List.mem_map.mpr ⟨r, hr, if_pos rfl⟩
  · exact Option.mem_some_iff.mp hp

/-- The status RANGE is counted. -/
theorem answer_range_rd (u : State) {r : Req} (rinfo : Nat) (pay : List Slot) (hs : r.silent = false) (a : Nat) :
    (u.answer r 2 rinfo pay).rd a = if a = R.XACT_RANGE_ERR then u.rd R.XACT_RANGE_ERR + 1 else u.rd a := by
  have hcred : ∀ b, (if r.owes then u.returnCredits (hTc r.header) 6 0 else u).rd b = u.rd b := fun b => by split <;> rfl
  unfold answer
  dsimp only
  rw [if_neg (ne_true_of_eq_false hs)]
  generalize (if r.owes = true then u.returnCredits (hTc r.header) 6 0 else u) = v at *
  rw [rd_noteWait, rd_sample, rd_updReq]
  have hc : v.countStatus r 2 = v.inc R.XACT_RANGE_ERR := rfl
  rw [hc, rd_inc, hcred, hcred]
  rfl

theorem answer_stores (u : State) (r : Req) (status rinfo : Nat) (pay : List Slot) : MemKept u (u.answer r status rinfo pay) := by
  have h := answer_same (g := fun s : State => (s.dram, s.cache, s.wdb, s.place, s.otp, s.mgmt.flash)) (fun _ _ _ => rfl) (by simp)
    (fun _ _ => rfl) (fun _ _ => rfl) (fun _ _ => rfl) (by simp) u r status rinfo pay
  simp only [Prod.mk.injEq] at h
  exact h

/-- The marks of a request's occurrences change the collector's deliveries alone. -/
theorem forRequest_spec (s : State) (h : Word64) (t : State) : (s.forRequest h t).xact = t.xact ∧ (s.forRequest h t).regs = t.regs ∧
    (s.forRequest h t).wdb = t.wdb ∧ (s.forRequest h t).dram = t.dram ∧ (s.forRequest h t).cache = t.cache ∧
    (s.forRequest h t).place = t.place ∧ MemKept t (s.forRequest h t) := ⟨rfl, rfl, rfl, rfl, rfl, rfl, rfl, rfl, rfl, rfl, rfl, rfl⟩

theorem answered_congr {t u : State} {id status : Nat} {pay : Option (List Slot)} (h : t.xact = u.xact) (ha : Answered u id status pay) :
    Answered t id status pay := by
  unfold Answered
  rw [h]
  exact ha

/-- A command of a request that moves no parcel and ends no migration. -/
theorem afterMove_forRequest {h : Word64} {u t : State} (hm : t.place.mig = s.place.mig) (ht : t.place.table = s.place.table)
    (hu : u = s.forRequest h t) : s.afterMove u = s.forRequest h t := by
  subst hu
  exact if_pos ⟨hm, ht⟩

/-! ### Reads -/

theorem lineSlots_length (d : LineData) : (lineSlots d).length = 4 := rfl

theorem lineSlots_zero : lineSlots 0 = List.replicate 4 0 := by
  have h : (0 : LineData).toNat = 0 := BitVec.toNat_zero
  unfold lineSlots
  rw [h]
  decide

theorem lineSlots_ne (d : LineData) : (lineSlots d).isEmpty = false := rfl

/-- A read whose lines are all good is answered with them. -/
theorem finishRead_good (s : State) (r : Req) (ls : List Line) (h : ∀ l ∈ ls, l.poisoned = false) : ∃ info,
    s.finishRead r ls = s.answer r 0 info (ls.map fun l => lineSlots l.data).flatten := by
  have hnone : (ls.filter Line.poisoned).length = 0 := by
    rw [List.filter_eq_nil_iff.mpr fun l hl => ne_true_of_eq_false (h l hl)]
    rfl
  have hpay : (ls.zipIdx.map fun e => lineSlots (if e.1.poisoned then Config.freeLine (s.free + e.2) else e.1.data)) =
      ls.map fun l => lineSlots l.data := by
    have h1 : ls.map (fun l => lineSlots l.data) = (ls.zipIdx.map Prod.fst).map fun l => lineSlots l.data := by rw [List.zipIdx_map_fst]
    rw [h1, List.map_map]
    refine List.map_congr_left fun e he => ?_
    have hmem : e.1 ∈ ls := by
      have := List.mem_map_of_mem (f := Prod.fst) he
      rwa [List.zipIdx_map_fst] at this
    simp [h e.1 hmem]
  unfold finishRead
  dsimp only
  rw [hnone, hpay, if_pos rfl, if_pos rfl]
  have hinc : (if r.silent = true then s else s.inc R.XACT_POISON_RD 0) = s := by
    split
    · rfl
    · exact if_pos rfl
  rw [hinc]
  exact ⟨_, rfl⟩

/-- A request that reads its lines. -/
def reading (r : Req) (n : Nat) : Req := { r with lines := List.replicate n none, stage := .reading }

/-- A read whose one line stands in the write data buffer is performed at once. -/
theorem readLines_wdb (u : State) {r : Req} (f : Nat) (m : LookupIn) {l : Line} (hr : r ∈ u.xact.reqs) (hl : u.wdbLine (hAddr r.header) = some l)
    (hp : l.poisoned = false) : ∃ info v, (((u.updReq r.id fun _ => reading r 1).readLines (reading r 1) f m 1).tryFinish r.id) =
      v.answer { r with lines := [some l], stage := .reading } 0 info (lineSlots l.data) ∧
      { r with lines := [some l], stage := .reading } ∈ v.xact.reqs ∧ MemKept u v := by
  have hread : (u.updReq r.id fun _ => reading r 1).readLines (reading r 1) f m 1 =
      (u.updReq r.id fun _ => reading r 1).setReqLine r.id 0 l := by
    show (u.updReq r.id fun _ => reading r 1).readLine (reading r 1) f 0 m = _
    unfold readLine
    have hw : (u.updReq r.id fun _ => reading r 1).wdbLine (hAddr (reading r 1).header + 0) = some l := hl
    dsimp only
    rw [hw]
    rfl
  have hreqs : ((u.updReq r.id fun _ => reading r 1).setReqLine r.id 0 l).xact.reqs =
      u.xact.reqs.map fun x => if x.id = r.id then { r with lines := [some l], stage := .reading } else x := by
    unfold setReqLine
    rw [updReq_reqs, updReq_reqs, List.map_map]
    refine List.map_congr_left fun x _ => ?_
    by_cases hx : x.id = r.id
    · simp [hx, reading]
    · simp [hx]
  have hm : MemKept u ((u.updReq r.id fun _ => reading r 1).setReqLine r.id 0 l) := ⟨rfl, rfl, rfl, rfl, rfl, rfl⟩
  rw [hread]
  generalize (u.updReq r.id fun _ => reading r 1).setReqLine r.id 0 l = v at *
  have hfind : v.xact.reqs.find? (fun x => decide (x.id = r.id)) = some { r with lines := [some l], stage := .reading } := by
    rw [hreqs]
    have hmem : ∃ x ∈ u.xact.reqs, x.id = r.id := ⟨r, hr, rfl⟩
    generalize u.xact.reqs = rs at hmem
    induction rs with
    | nil => obtain ⟨x, hx, -⟩ := hmem; cases hx
    | cons a rs ih =>
      rw [List.map_cons]
      by_cases ha : a.id = r.id
      · rw [if_pos ha, List.find?_cons_of_pos (by simp)]
      · obtain ⟨x, hx, hid⟩ := hmem
        rw [if_neg ha, List.find?_cons_of_neg (by simpa using ha)]
        refine ih ?_
        rcases List.mem_cons.mp hx with rfl | hx
        · exact absurd hid ha
        · exact ⟨x, hx, hid⟩
  obtain ⟨info, hfin⟩ := finishRead_good v { r with lines := [some l], stage := .reading } [l] (by simpa using hp)
  refine ⟨info, v, ?_, List.mem_of_find?_eq_some hfind, hm⟩
  unfold tryFinish
  rw [hfind]
  refine (if_pos (by simp)).trans (hfin.trans ?_)
  simp

end State
end Sys2Proof.Machine

namespace Sys2Proof.Safety
open Sys2Proof.Machine Sys2Proof.Machine.State

variable {s : State}

/-! ### RD_REQ -/

theorem readyReq_opc {tag k : Nat} {r : Req} (h : s.readyReq tag (fun h => decide (hOpc h = k)) = some r) : r ∈ s.xact.reqs ∧ hOpc r.header = k := by
  obtain ⟨h1, h2⟩ := readyReq_spec h
  exact ⟨h1, of_decide_eq_true h2⟩

theorem linesOf_one {h : Word64} (hl : hLen h = 0) : linesOf h = 1 := by
  unfold linesOf
  rw [if_pos hl]
  exact ite_self 1

theorem rdReq_eq {tag : Nat} {r : Req} (m : LookupIn) (h : s.readyReq tag (fun h => decide (hOpc h = 1)) = some r) :
    s.rdReq tag m = s.forRequest r.header (s.performRead r m) := by
  unfold rdReq
  rw [h]

theorem performRead_eq {r : Req} {m : LookupIn} (hp : r.status = 0) (hm : NoErr m) (hd : s.decodeStatus r.header r.data = 0) :
    s.performRead r m =
      (if eState (s.entry (hAddr r.header / 1024)) = 5 then s
      else if eState (s.entry (hAddr r.header / 1024)) = 4 then s.answer r 3 0 []
      else if eState (s.entry (hAddr r.header / 1024)) = 3 then
        (s.sampleLookup r.id (hAddr r.header / 1024)).finishRead r (List.replicate (linesOf r.header) ⟨0, 0⟩)
      else if !s.readRoom (eFrame (s.entry (hAddr r.header / 1024))) (linesOf r.header) then s
      else
        let u := (s.sampleLookup r.id (hAddr r.header / 1024)).countMisses (accessLines r.header)
        let u := if (hArg r.header).testBit 1 then u else u.heatLines (hAddr r.header / 1024) (linesOf r.header)
        ((u.updReq r.id fun _ => reading r (linesOf r.header)).readLines (reading r (linesOf r.header))
          (eFrame (s.entry (hAddr r.header / 1024))) m (linesOf r.header)).tryFinish r.id) := by
  unfold performRead
  dsimp only
  rw [if_neg (show ¬r.status ≠ 0 from fun h => h hp), if_neg (show ¬r.status ≠ 0 from fun h => h hp), lookEntries_none hm, hd,
    if_neg (show ¬(0 : Nat) ≠ 0 from fun h => h rfl), lookup_none hm]
  rfl

theorem rdReq_buffered {tag : BitVec 12} {m : LookupIn} {r : Req} {l : Line}
    (h : s.readyReq tag.toNat (fun h => decide (hOpc h = 1)) = some r) (hp : Plain r) (hm : NoErr m)
    (hd : s.decodeStatus r.header r.data = 0) (hl : hLen r.header = 0) (he : eState (s.entry (hAddr r.header / 1024)) = 0)
    (hroom : s.readRoom (eFrame (s.entry (hAddr r.header / 1024))) 1 = true) (hw : s.wdbLine (hAddr r.header) = some l)
    (hgood : l.poisoned = false) : Gives (.rdReq tag m) s fun t =>
      Answered t r.id 0 (some (lineSlots l.data)) ∧ t.wdb = s.wdb ∧ t.dram = s.dram ∧ t.cache = s.cache := by
  obtain ⟨hr, -⟩ := readyReq_opc h
  have hperf := performRead_eq hp.1 hm hd
  rw [if_neg (by omega), if_neg (by omega), if_neg (by omega), linesOf_one hl, if_neg (by simp [hroom])] at hperf
  dsimp only at hperf
  have hblind : ∀ {α : Type} (g : State → α), LookBlind g → g (if (hArg r.header).testBit 1 then
      (s.sampleLookup r.id (hAddr r.header / 1024)).countMisses (accessLines r.header)
      else ((s.sampleLookup r.id (hAddr r.header / 1024)).countMisses (accessLines r.header)).heatLines (hAddr r.header / 1024) 1) = g s := by
    intro α g hg
    split
    · exact (hg.countMisses _ _).trans (hg.sampleLookup s _ _)
    · exact (hg.heatLines _ _ _).trans ((hg.countMisses _ _).trans (hg.sampleLookup s _ _))
  generalize (if (hArg r.header).testBit 1 = true then _ else _) = u at hperf hblind
  have hmem := hblind _ lookBlind_mem
  simp only [Prod.mk.injEq] at hmem
  obtain ⟨m1, m2, m3, -, -⟩ := hmem
  obtain ⟨info, v, hv, hmemv, hk⟩ := readLines_wdb u (r := r) (l := l) (eFrame (s.entry (hAddr r.header / 1024))) m
    (by rw [hblind _ lookBlind_xact]; exact hr) (by unfold wdbLine at hw ⊢; rw [m3]; exact hw) hgood
  rw [hv] at hperf
  have hans := answer_answered v (r := { r with lines := [some l], stage := .reading }) 0 info (lineSlots l.data) hmemv hp.2
  have hst := answer_stores v { r with lines := [some l], stage := .reading } 0 info (lineSlots l.data)
  generalize v.answer { r with lines := [some l], stage := .reading } 0 info (lineSlots l.data) = w at *
  have hkept : MemKept u w := hk.trans hst
  obtain ⟨k1, k2, k3, k4, -, -⟩ := hkept
  have hfor := (rdReq_eq m h).trans (congrArg _ hperf)
  have hafter := afterMove_forRequest (s := s) (h := r.header) (u := s.rdReq tag.toNat m) (t := w) ((congrArg _ k4).trans (hblind _ lookBlind_mig))
    ((congrArg _ k4).trans (hblind _ lookBlind_table)) hfor
  exact gives_of_eq rfl hafter ⟨answered_congr rfl hans, k3.trans m3, k1.trans m1, k2.trans m2⟩

theorem rdReq_released {tag : BitVec 12} {m : LookupIn} {r : Req} (h : s.readyReq tag.toNat (fun h => decide (hOpc h = 1)) = some r)
    (hp : Plain r) (hm : NoErr m) (hd : s.decodeStatus r.header r.data = 0) (he : eState (s.entry (hAddr r.header / 1024)) = 3) :
    Gives (.rdReq tag m) s fun t =>
      Answered t r.id 0 (some (List.replicate (4 * linesOf r.header) 0)) ∧ MemKept s t ∧ RegsKept s t [] [] := by
  obtain ⟨hr, -⟩ := readyReq_opc h
  have hperf := performRead_eq hp.1 hm hd
  rw [if_neg (by omega), if_neg (by omega), if_pos he] at hperf
  obtain ⟨info, hfin⟩ := finishRead_good (s.sampleLookup r.id (hAddr r.header / 1024)) r (List.replicate (linesOf r.header) ⟨0, 0⟩)
    fun l hl => by rw [List.eq_of_mem_replicate hl]; decide
  have hpay : ((List.replicate (linesOf r.header) (⟨0, 0⟩ : Line)).map fun l => lineSlots l.data).flatten =
      List.replicate (4 * linesOf r.header) 0 := by
    rw [List.map_replicate, lineSlots_zero, List.flatten_replicate_replicate, Nat.mul_comm]
  rw [hpay] at hfin
  have hv : MemKept s (s.sampleLookup r.id (hAddr r.header / 1024)) ∧ (s.sampleLookup r.id (hAddr r.header / 1024)).xact = s.xact ∧
      (s.sampleLookup r.id (hAddr r.header / 1024)).regs = s.regs := ⟨⟨rfl, rfl, rfl, rfl, rfl, rfl⟩, rfl, rfl⟩
  generalize s.sampleLookup r.id (hAddr r.header / 1024) = v at *
  obtain ⟨v1, v2, v3⟩ := hv
  have hne : (List.replicate (4 * linesOf r.header) (0 : Slot)).isEmpty = false := by
    have : linesOf r.header ≠ 0 := by
      unfold linesOf
      split
      · decide
      · split
        · decide
        · split <;> decide
    rw [List.isEmpty_eq_false_iff]
    exact List.ne_nil_of_length_pos (by rw [List.length_replicate]; omega)
  have hans := answer_answered v 0 info (List.replicate (4 * linesOf r.header) 0) (by rw [v2]; exact hr) hp.2
  rw [if_neg (ne_true_of_eq_false hne)] at hans
  have hst := answer_stores v r 0 info (List.replicate (4 * linesOf r.header) 0)
  have hrd := fun a => rd_answer v (r := r) (status := 0) info a (List.replicate (4 * linesOf r.header) 0) hp.2 (by decide)
  rw [hfin] at hperf
  generalize v.answer r 0 info (List.replicate (4 * linesOf r.header) 0) = w at *
  have hk : MemKept s w := v1.trans hst
  have hafter := afterMove_forRequest (s := s) (h := r.header) (u := s.rdReq tag.toNat m) (t := w) (congrArg _ hk.place_eq)
    (congrArg _ hk.place_eq) ((rdReq_eq m h).trans (congrArg _ hperf))
  exact gives_of_eq rfl hafter ⟨answered_congr rfl hans, hk, fun a _ _ => (hrd a).trans (rd_eq_of_regs v3 a)⟩

theorem rdReq_range {tag : BitVec 12} {m : LookupIn} {r : Req} (h : s.readyReq tag.toNat (fun h => decide (hOpc h = 1)) = some r)
    (hp : Plain r) (hmal : malformed r.header r.data = false) (hv : s.fld R.XACT_VIS_LIMIT F.XACT_VIS_LIMIT_LIMIT ≤ hAddr r.header) :
    Gives (.rdReq tag m) s fun t =>
      Answered t r.id 2 (some (List.replicate (State.rspSlots r.header) 0)) ∧
        t.rd R.XACT_RANGE_ERR = s.rd R.XACT_RANGE_ERR + 1 ∧ MemKept s t ∧ RegsKept s t [] [R.XACT_RANGE_ERR] := by
  obtain ⟨hr, hopc⟩ := readyReq_opc h
  have hd : s.decodeStatus r.header r.data = 2 := by
    unfold decodeStatus
    dsimp only
    rw [if_neg (ne_true_of_eq_false hmal), if_pos (by omega), if_pos hv]
  have hlook : s.lookEntries m r.header r.data = s := by
    have hnone : s.lookedUp r.header r.data = [] := by
      unfold lookedUp
      dsimp only
      rw [if_neg (ne_true_of_eq_false hmal), if_pos (by omega), if_pos hv]
    unfold lookEntries
    rw [hnone]
    rfl
  have hperf : s.performRead r m = s.answer r 2 r.rinfo [] := by
    unfold performRead
    dsimp only
    rw [if_neg (show ¬r.status ≠ 0 from fun h => h hp.1), if_neg (show ¬r.status ≠ 0 from fun h => h hp.1), hlook, hd]
    exact if_pos (by decide)
  have hans := answer_answered s 2 r.rinfo [] hr hp.2
  have hst := answer_stores s r 2 r.rinfo []
  have hrd := answer_range_rd s (r := r) r.rinfo [] hp.2
  generalize s.answer r 2 r.rinfo [] = w at *
  have hafter := afterMove_forRequest (s := s) (h := r.header) (u := s.rdReq tag.toNat m) (t := w) (congrArg _ hst.place_eq)
    (congrArg _ hst.place_eq) ((rdReq_eq m h).trans (congrArg _ hperf))
  exact gives_of_eq rfl hafter ⟨answered_congr rfl hans, (hrd _).trans (if_pos rfl), hst,
    fun a _ ha => (hrd a).trans (if_neg (by simpa using ha))⟩

/-! ### WR_REQ, WR_REQ_POISON -/

/-- A request that changes a line of a normal parcel goes ahead. -/
theorem changeLine_normal {r : Req} {m : LookupIn} (go : State → State) (hp : r.status = 0) (hm : NoErr m) (hd : s.decodeStatus r.header r.data = 0)
    (he : eState (s.entry (hAddr r.header / 1024)) = 0) : s.changeLine r m go = go s := by
  unfold changeLine
  dsimp only
  rw [if_neg (show ¬r.status ≠ 0 from fun h => h hp), if_neg (show ¬r.status ≠ 0 from fun h => h hp), lookEntries_none hm, hd,
    if_neg (show ¬(0 : Nat) ≠ 0 from fun h => h rfl), lookup_none hm]
  unfold onParcel
  dsimp only
  rw [if_neg (by omega), if_neg (by omega), if_neg (by omega)]

theorem closeFull_none {n : Nat} (h : s.migOf n = none) : s.closeFull n = s := by
  unfold closeFull
  rw [h]

/-- The state in which a write's line enters the buffer. -/
def writeReady (s : State) (r : Req) : State :=
  ((s.sampleLookup r.id (hAddr r.header / 1024)).countMisses (accessLines r.header)).heatLines (hAddr r.header / 1024) 1

theorem writeReady_blind {α : Type} {g : State → α} (hg : LookBlind g) (s : State) (r : Req) : g (writeReady s r) = g s :=
  (hg.heatLines _ _ _).trans ((hg.countMisses _ _).trans (hg.sampleLookup s _ _))

/-- The line of a write in the buffer, a write of poison being counted. -/
def written (s : State) (r : Req) : State :=
  let t := ((writeReady s r).wdbPut (hAddr r.header) (Line.written (slotsLine r.data) (hArg r.header) (decide (hOpc r.header = 3)))).stamp r.id 4
  if hOpc r.header = 3 then t.inc R.XACT_POISON_WR 1 else t

theorem performWrite_eq {r : Req} (hl : hLen r.header = 0) :
    s.performWrite r = ((written s r).answer r 0 0 []).closeFull (hAddr r.header / 1024) := by
  unfold performWrite
  dsimp only
  rw [linesOf_one hl]
  rfl

theorem written_spec (s : State) (r : Req) :
    (∀ k, (written s r).wdbLine k = if k = hAddr r.header then
      some (Line.written (slotsLine r.data) (hArg r.header) (decide (hOpc r.header = 3))) else s.wdbLine k) ∧
    (written s r).dram = s.dram ∧ (written s r).cache = s.cache ∧ (written s r).xact = s.xact ∧ (written s r).place.mig = s.place.mig ∧
    (written s r).place.table = s.place.table ∧
    (hOpc r.header = 3 → (written s r).rd R.XACT_POISON_WR = s.rd R.XACT_POISON_WR + 1) := by
  have hmem := writeReady_blind lookBlind_mem s r
  have hxact := writeReady_blind lookBlind_xact s r
  have hmig := writeReady_blind lookBlind_mig s r
  have htable := writeReady_blind lookBlind_table s r
  have hrd := writeReady_blind (lookBlind_rd (a := R.XACT_POISON_WR) (by decide) (by decide)) s r
  simp only [Prod.mk.injEq] at hmem
  obtain ⟨m1, m2, m3, -, -⟩ := hmem
  unfold written
  dsimp only
  generalize writeReady s r = u at *
  have hput := wdbPut_line u (hAddr r.header) (Line.written (slotsLine r.data) (hArg r.header) (decide (hOpc r.header = 3)))
  obtain ⟨p1, p2, p3, p4, p5, -⟩ := wdbPut_kept u (hAddr r.header) (Line.written (slotsLine r.data) (hArg r.header) (decide (hOpc r.header = 3)))
  generalize u.wdbPut (hAddr r.header) (Line.written (slotsLine r.data) (hArg r.header) (decide (hOpc r.header = 3))) = v at *
  have hstamp : ∀ k, (v.stamp r.id 4).wdbLine k = v.wdbLine k := fun _ => rfl
  have hwdb : ∀ k, u.wdbLine k = s.wdbLine k := fun k => by unfold wdbLine; rw [m3]
  have hall : ∀ t : State, t.wdb = v.wdb → t.dram = v.dram → t.cache = v.cache → t.xact = v.xact → t.place = v.place →
      (hOpc r.header = 3 → t.rd R.XACT_POISON_WR = v.rd R.XACT_POISON_WR + 1) →
      (∀ k, t.wdbLine k = if k = hAddr r.header then
        some (Line.written (slotsLine r.data) (hArg r.header) (decide (hOpc r.header = 3))) else s.wdbLine k) ∧
      t.dram = s.dram ∧ t.cache = s.cache ∧ t.xact = s.xact ∧ t.place.mig = s.place.mig ∧ t.place.table = s.place.table ∧
      (hOpc r.header = 3 → t.rd R.XACT_POISON_WR = s.rd R.XACT_POISON_WR + 1) := by
    intro t t1 t2 t3 t4 t5 t6
    refine ⟨fun k => ?_, t2.trans (p1.trans m1), t3.trans (p2.trans m2), t4.trans (p3.trans hxact), ?_, ?_, fun h => ?_⟩
    · rw [← hwdb k, ← hput k]
      unfold wdbLine
      rw [t1]
    · rw [t5, p4, hmig]
    · rw [t5, p4, htable]
    · rw [t6 h, rd_eq_of_regs p5, hrd]
  split
  next h => exact hall _ (by simp [stamp, sample]) (by simp [stamp, sample]) (by simp [stamp, sample]) (by simp [stamp, sample])
              (by simp [stamp, sample]) fun _ => (rd_inc ..).trans (if_pos rfl)
  next h => exact hall _ rfl rfl rfl rfl rfl fun h' => absurd h' h

theorem wrReq_gives {tag k : Nat} {m : LookupIn} {r : Req} (h : s.readyReq tag (fun h => decide (hOpc h = k)) = some r) (hp : Plain r)
    (hm : NoErr m) (hd : s.decodeStatus r.header r.data = 0) (hl : hLen r.header = 0) (he : eState (s.entry (hAddr r.header / 1024)) = 0)
    (hmig : s.migOf (hAddr r.header / 1024) = none) : ∃ t, s.afterMove (s.wrReq k tag m) = t ∧ Answered t r.id 0 none ∧
        t.wdbLine (hAddr r.header) = some (Line.written (slotsLine r.data) (hArg r.header) (decide (k = 3))) ∧
        (k = 3 → t.rd R.XACT_POISON_WR = s.rd R.XACT_POISON_WR + 1) ∧
        WdbKeptBut s t (hAddr r.header) ∧ t.dram = s.dram ∧ t.cache = s.cache := by
  obtain ⟨hr, hopc⟩ := readyReq_opc h
  obtain ⟨w1, w2, w3, w4, w5, w6, w7⟩ := written_spec s r
  rw [hopc] at w1 w7
  have hwr : s.wrReq k tag m = s.forRequest r.header (((written s r).answer r 0 0 []).closeFull (hAddr r.header / 1024)) := by
    unfold wrReq
    rw [h]
    dsimp only
    rw [changeLine_normal (fun s => s.performWrite r) hp.1 hm hd he, performWrite_eq hl]
  generalize written s r = u at *
  have hans := answered_of_answer_none u (r := r) (status := 0) 0 [] (by rw [w4]; exact hr) hp.2 (by decide)
  have hst := answer_stores u r 0 0 []
  have hrd := fun a => rd_answer u (r := r) (status := 0) 0 a [] hp.2 (by decide)
  generalize u.answer r 0 0 [] = v at *
  obtain ⟨k1, k2, k3, k4, -, -⟩ := hst
  have hclose : v.closeFull (hAddr r.header / 1024) = v := closeFull_none (by
    unfold migOf at hmig ⊢
    rw [k4, w5]
    exact hmig)
  rw [hclose] at hwr
  have hafter := afterMove_forRequest (s := s) (h := r.header) (t := v) ((congrArg _ k4).trans w5) ((congrArg _ k4).trans w6) hwr
  have hline : ∀ i, (s.forRequest r.header v).wdbLine i = u.wdbLine i := fun i => by
    show v.wdbLine i = _
    unfold wdbLine
    rw [k3]
  refine ⟨_, hafter, answered_congr rfl hans, ?_, fun h3 => ?_, fun i hi => ?_, k1.trans w2, k2.trans w3⟩
  · rw [hline, w1, if_pos rfl]
  · exact (hrd _).trans (w7 h3)
  · rw [hline, w1, if_neg hi]

/-- Settles O16: what a read of one line finds and what a write of one line leaves. -/
theorem readsAndWrites : Obligations.ReadsAndWrites := by
  refine ⟨fun _ _ _ _ _ h hp hm hd hl he hroom hw hgood => rdReq_buffered h hp hm hd hl he hroom hw hgood,
    fun _ _ _ _ h hp hm hd he => rdReq_released h hp hm hd he, fun _ _ _ _ h hp hmal hv => rdReq_range h hp hmal hv,
    fun s tag m r h hp hm hd hl he hmig => ?_, fun s tag m r h hp hm hd hl he hmig => ?_⟩
  · obtain ⟨t, ht, h1, h2, -, h4, h5, h6⟩ := wrReq_gives h hp hm hd hl he hmig
    exact gives_of_eq rfl ht ⟨h1, h2, h4, h5, h6⟩
  · obtain ⟨t, ht, h1, h2, h3, h4, h5, h6⟩ := wrReq_gives h hp hm hd hl he hmig
    exact gives_of_eq rfl ht ⟨h1, h2, h3 rfl, h4, h5, h6⟩

end Sys2Proof.Safety
end

section
/-! SUPPORT. Atomic operations on lines of the write data buffer (R112, R113). -/

namespace Sys2Proof.Safety
open Sys2Proof.Machine Sys2Proof.Machine.State

variable {s : State}

/-- The state in which an atomic operation has read its line in the buffer. -/
def atomReady (s : State) (r : Req) : State :=
  (((s.sampleLookup r.id (hAddr r.header / 1024)).countMisses [hAddr r.header]).heatLines (hAddr r.header / 1024) 1).stamp r.id 4

theorem atomReady_blind {α : Type} {g : State → α} (hg : LookBlind g) (s : State) (r : Req) : g (atomReady s r) = g s :=
  (hg.stamp _ _ _).trans ((hg.heatLines _ _ _).trans ((hg.countMisses _ _).trans (hg.sampleLookup s _ _)))

/-- The new value of an atomic operation's field. -/
def atomResult (r : Req) (l : Line) : Nat :=
  atomNew (hArg r.header) (fieldOf l.data (atomOffset (slotsLine r.data)) (atomWidth (hArg r.header)))
    (fieldOf (slotsLine r.data) 0 (atomWidth (hArg r.header))) (fieldOf (slotsLine r.data) 8 (atomWidth (hArg r.header)))

/-- The line that it leaves. -/
def atomLine (r : Req) (l : Line) : Line :=
  l.updated (withField l.data (atomOffset (slotsLine r.data)) (atomWidth (hArg r.header)) (atomResult r l))

theorem performAtom_buffered {r : Req} {l : Line} (m : LookupIn) (hw : s.wdbLine (hAddr r.header) = some l) (hp : l.poisoned = false) :
    s.performAtom r m = ((atomReady s r).wdbPut (hAddr r.header) (atomLine r l)).answer r 0 l.hostMeta
      (lineSlots (BitVec.ofNat 512 (fieldOf l.data (atomOffset (slotsLine r.data)) (atomWidth (hArg r.header))))) := by
  have hwait : s.atomWaits (hAddr r.header) = false := by
    unfold atomWaits
    dsimp only
    rw [hw]
    simp
  have hbuf : (((s.sampleLookup r.id (hAddr r.header / 1024)).countMisses [hAddr r.header]).heatLines (hAddr r.header / 1024) 1).wdbLine
      (hAddr r.header) = some l := by
    have hwdb := (lookBlind_wdb.heatLines _ (hAddr r.header / 1024) 1).trans ((lookBlind_wdb.countMisses _ [hAddr r.header]).trans
      (lookBlind_wdb.sampleLookup s r.id (hAddr r.header / 1024)))
    unfold wdbLine at hw ⊢
    rw [hwdb]
    exact hw
  have hread : (((s.sampleLookup r.id (hAddr r.header / 1024)).countMisses [hAddr r.header]).heatLines (hAddr r.header / 1024) 1).atomRead r m =
      (l, atomReady s r) := by
    unfold atomRead
    dsimp only
    rw [hbuf]
    rfl
  have hready : (atomReady s r).wdbLine (hAddr r.header) = some l := hbuf
  unfold performAtom
  dsimp only
  rw [if_neg (ne_true_of_eq_false hwait), hread]
  dsimp only
  rw [if_neg (ne_true_of_eq_false hp)]
  have hupd (x : Line) : (atomReady s r).updateLine (hAddr r.header) x = (atomReady s r).wdbPut (hAddr r.header) x := by
    unfold updateLine
    rw [hready]
    rfl
  rw [hupd]
  unfold atomAnswer
  rw [hp]
  rfl

theorem atomReq_gives {tag : BitVec 12} {m : LookupIn} {r : Req} {l : Line} (h : s.readyReq tag.toNat (fun h => decide (hOpc h = 4)) = some r)
    (hp : Plain r) (hm : NoErr m) (hd : s.decodeStatus r.header r.data = 0) (he : eState (s.entry (hAddr r.header / 1024)) = 0)
    (hmig : s.migOf (hAddr r.header / 1024) = none) (hw : s.wdbLine (hAddr r.header) = some l) (hgood : l.poisoned = false) :
    Gives (.atomReq tag m) s fun t =>
      Answered t r.id 0 (some (lineSlots (BitVec.ofNat 512 (fieldOf l.data (atomOffset (slotsLine r.data)) (atomWidth (hArg r.header)))))) ∧
      t.wdbLine (hAddr r.header) = some (atomLine r l) ∧ WdbKeptBut s t (hAddr r.header) ∧ t.dram = s.dram ∧ t.cache = s.cache := by
  obtain ⟨hr, -⟩ := readyReq_opc h
  have hat : s.atomReq tag.toNat m = s.forRequest r.header ((s.performAtom r m).closeFull (hAddr r.header / 1024)) := by
    unfold atomReq
    rw [h]
    dsimp only
    rw [changeLine_normal (fun s => (s.performAtom r m).closeFull (hAddr r.header / 1024)) hp.1 hm hd he]
  rw [performAtom_buffered m hw hgood] at hat
  have hmem := atomReady_blind lookBlind_mem s r
  have hxact := atomReady_blind lookBlind_xact s r
  have hmigs := atomReady_blind lookBlind_mig s r
  have htable := atomReady_blind lookBlind_table s r
  simp only [Prod.mk.injEq] at hmem
  obtain ⟨m1, m2, m3, -, -⟩ := hmem
  generalize atomReady s r = u at *
  have hput := wdbPut_line u (hAddr r.header) (atomLine r l)
  obtain ⟨p1, p2, p3, p4, -, -⟩ := wdbPut_kept u (hAddr r.header) (atomLine r l)
  generalize u.wdbPut (hAddr r.header) (atomLine r l) = v at *
  generalize BitVec.ofNat 512 (fieldOf l.data (atomOffset (slotsLine r.data)) (atomWidth (hArg r.header))) = old at *
  have hans := answer_answered v 0 l.hostMeta (lineSlots old) (by rw [p3, hxact]; exact hr) hp.2
  rw [if_neg (ne_true_of_eq_false (lineSlots_ne old))] at hans
  obtain ⟨k1, k2, k3, k4, -, -⟩ := answer_stores v r 0 l.hostMeta (lineSlots old)
  generalize v.answer r 0 l.hostMeta (lineSlots old) = x at *
  have hclose : x.closeFull (hAddr r.header / 1024) = x := closeFull_none (by
    unfold migOf at hmig ⊢
    rw [k4, p4, hmigs]
    exact hmig)
  rw [hclose] at hat
  have hafter := afterMove_forRequest (s := s) (h := r.header) (t := x) (by rw [k4, p4, hmigs]) (by rw [k4, p4, htable]) hat
  have hline : ∀ i, (s.forRequest r.header x).wdbLine i = v.wdbLine i := fun i => by
    show x.wdbLine i = _
    unfold wdbLine
    rw [k3]
  refine gives_of_eq rfl hafter ⟨answered_congr rfl hans, ?_, fun i hi => ?_, k1.trans (p1.trans m1), k2.trans (p2.trans m2)⟩
  · rw [hline, hput, if_pos rfl]
  · rw [hline, hput, if_neg hi]
    unfold wdbLine
    rw [m3]

/-- Settles O18: an atomic operation changes its field of the line in the buffer and answers the old value. -/
theorem atomicRequest : Obligations.AtomicRequest := by
  rintro s tag m r l o w h hp hm hd he hmig hw hgood rfl rfl
  exact atomReq_gives h hp hm hd he hmig hw hgood

end Sys2Proof.Safety
end

section
/-! SUPPORT. Hints on one parcel (R121, R150, R174, R175). -/

namespace Sys2Proof.Machine
open Sys2Proof.Safety State

theorem bookBlind_mig : BookBlind (·.place.mig) :=
  ⟨fun _ _ _ => rfl, fun _ _ _ => by simp, fun _ _ _ _ _ _ => rfl, fun _ _ => rfl, fun _ _ _ _ => rfl⟩

/-- Bits of the flags of an entry change neither its frame. -/
theorem eFrame_or {w m : Word} (h : m.toNat % 2 ^ 21 = 0) : eFrame (w ||| m) = eFrame w := by
  unfold eFrame
  rw [BitVec.toNat_or, Nat.or_mod_two_pow, h, Nat.or_zero]

theorem eFrame_and {w m : Word} (h : m.toNat % 2 ^ 21 = 2 ^ 21 - 1) : eFrame (w &&& m) = eFrame w := by
  unfold eFrame
  rw [BitVec.toNat_and, Nat.and_mod_two_pow, h, Nat.and_two_pow_sub_one_eq_mod, Nat.mod_mod]

namespace State

variable {s : State}

/-- A hint of one parcel whose look-up finds no error. -/
theorem hintReq_one {tag k : Nat} {m : LookupIn} {r : Req} {n : Nat}
    (h : s.readyReq tag (fun h => decide (hOpc h = 6) && hintCode k (hArg h)) = some r) (hp : Plain r) (hm : NoErr m)
    (hd : s.decodeStatus r.header r.data = 0) (hn : n = hintFirst r.header) (hc : hintCount r.header = 1) (he : eState (s.entry n) ≠ 5) :
    r ∈ s.xact.reqs ∧ s.hintReq tag m (hintCode k) =
      if s.hintDenied (hArg r.header) [n] then s.answer r 9 0 [] else (hintOne (hArg r.header) s n).answer r 0 0 [] := by
  have hps : hintParcels r.header = [n] := by
    unfold hintParcels
    rw [hc, hn]
    rfl
  refine ⟨(readyReq_spec h).1, ?_⟩
  unfold hintReq
  rw [h]
  dsimp only
  rw [if_neg (show ¬r.status ≠ 0 from fun h => h hp.1), if_neg (show ¬r.status ≠ 0 from fun h => h hp.1), lookEntries_none hm, hd, hps,
    if_neg (show ¬(0 : Nat) ≠ 0 from fun h => h rfl), if_neg (by simpa using he)]
  rfl

/-- A hint that sets an entry, and nothing else of what is stored. -/
structure Hinted (s t : State) (n : Nat) (w : Word) : Prop where
  entry : ∀ k, t.entry k = if k = n then w else s.entry k
  mig : t.place.mig = s.place.mig
  xact : t.xact = s.xact
  dram : t.dram = s.dram
  wdb : t.wdb = s.wdb

theorem hinted_setEntry (s : State) (n : Nat) (w : Word) : Hinted s (s.setEntry 1 n w) n w ∧ (s.setEntry 1 n w).cache = s.cache :=
  ⟨⟨setEntry_entry s 1 n w, setEntry_blind s 1 n w bookBlind_mig fun _ _ => rfl, setEntry_blind s 1 n w placeBlind_xact.book fun _ _ => rfl,
    setEntry_blind s 1 n w placeBlind_dram.book fun _ _ => rfl, setEntry_blind s 1 n w placeBlind_wdb.book fun _ _ => rfl⟩,
    setEntry_blind s 1 n w placeBlind_cache.book fun _ _ => rfl⟩

/-- NOCACHE sets the flags of the entry, and may ask for a flush of the parcel. -/
theorem hinted_nocache (s : State) (n : Nat) : Hinted s (s.nocache n) n ((s.entry n ||| 0x02000000) &&& 0xFBFFFFFF) := by
  obtain ⟨⟨h1, h2, h3, h4, h5⟩, -⟩ := hinted_setEntry s n ((s.entry n ||| 0x02000000) &&& 0xFBFFFFFF)
  unfold nocache
  dsimp only
  split
  · exact ⟨h1, h2, h3, h4, h5⟩
  · exact ⟨h1, h2, h3, h4, h5⟩

/-- A parcel's sectors are asked for. -/
def prefetched (s : State) (n : Nat) : State :=
  { s with cache := { s.cache with prefetchQ := s.cache.prefetchQ ++ (List.range 256).map fun i => 256 * n + i } }

theorem prefetched_spec (s : State) (n : Nat) :
    (s.prefetched n).cache.prefetchQ = s.cache.prefetchQ ++ (List.range 256).map (fun i => 256 * n + i) ∧ (s.prefetched n).place = s.place ∧
    (s.prefetched n).dram = s.dram ∧ (s.prefetched n).wdb = s.wdb ∧ (s.prefetched n).xact = s.xact := ⟨rfl, rfl, rfl, rfl, rfl⟩

/-! ### A parcel released -/

/-- A released parcel waits for no evacuation. -/
def noEvac (s : State) (n : Nat) : State := { s with place := { s.place with evacQ := s.place.evacQ.filter (· ≠ n) } }

theorem noEvac_spec (s : State) (n : Nat) : (s.noEvac n).place.table = s.place.table ∧ (s.noEvac n).wdb = s.wdb ∧
    (s.noEvac n).xact = s.xact ∧ LadderKept s (s.noEvac n) := ⟨rfl, rfl, rfl, rfl, rfl, rfl, rfl⟩

theorem release_eq {n : Nat} (h : s.migOf n = none) : s.release n = ((s.dropData n).noEvac n).setEntry 2 n
    (mkEntry 0 3 false (eNocache ((s.dropData n).entry n)) (eElig ((s.dropData n).entry n)) false) := by
  simp only [release, abortParcel, h, noEvac]

theorem hintOne_release {c : Nat} (hc : c = 2) (s : State) (n : Nat) : hintOne c s n = s.release n := by
  unfold hintOne
  split
  · omega
  · omega
  · rfl
  · omega
  · omega
  next h _ _ => exact absurd hc h

theorem live_normal {n : Nat} (he : eState (s.entry n) = 0) : s.live n = s.entry n := by
  have h5 : eState (s.entry n) ≠ 5 := by omega
  unfold live
  dsimp only
  rw [if_neg h5]

theorem queueZero_wdb (s : State) (f : Nat) : (s.queueZero f).wdb = s.wdb := queueZero_blind s f placeBlind_wdb.book fun _ _ _ => rfl

theorem dropParcel_wdb (s : State) (q n : Nat) : (s.dropParcel q n).wdb = s.wdb := dropParcel_blind placeBlind_wdb.book (fun _ _ => rfl) s q n

theorem wdbDrop_wdb (s : State) (n : Nat) : (s.wdbDrop n).wdb = s.wdb.filter fun e => decide (liParcel e.li ≠ n) := rfl

/-- The lines of a normal parcel leave the write data buffer with its data. -/
theorem dropData_wdb {n : Nat} (he : eState (s.entry n) = 0) : (s.dropData n).wdb = s.wdb.filter fun e => decide (liParcel e.li ≠ n) := by
  have hheld : eHeld (s.live n) = true := by
    unfold eHeld
    rw [live_normal he, he]
    rfl
  unfold dropData
  dsimp only
  rw [if_pos hheld, queueZero_wdb, wdbDrop_wdb, dropParcel_wdb]

theorem eState_released (a b : Bool) : eState (mkEntry 0 3 false a b false) = 3 := by
  cases a <;> cases b <;> decide

end State
end Sys2Proof.Machine

namespace Sys2Proof.Safety
open Sys2Proof.Machine Sys2Proof.Machine.State

variable {s : State}

theorem afterFlags_same {u : State} (h : u.place.mig = s.place.mig) : s.afterFlags u = u := if_pos h

/-- A hint that is not denied and sets an entry. -/
theorem hinted_answer {r : Req} {n : Nat} {w : Word} {u : State} (hr : r ∈ s.xact.reqs) (hp : Plain r) (hu : Hinted s u n w) :
    s.afterFlags (u.answer r 0 0 []) = u.answer r 0 0 [] ∧ Answered (u.answer r 0 0 []) r.id 0 none ∧
      (u.answer r 0 0 []).entry n = w ∧ EntriesKeptBut s (u.answer r 0 0 []) n ∧ (u.answer r 0 0 []).dram = s.dram ∧
      (u.answer r 0 0 []).cache = u.cache ∧ (u.answer r 0 0 []).wdb = s.wdb := by
  have hans := answered_of_answer_none u (r := r) (status := 0) 0 [] (by rw [hu.xact]; exact hr) hp.2 (by decide)
  obtain ⟨k1, k2, k3, k4, -, -⟩ := answer_stores u r 0 0 []
  generalize u.answer r 0 0 [] = t at *
  have hentry : ∀ k, t.entry k = u.entry k := fun k => congrArg (fun p : PlaceState => SMap.get homeEntry p.table k) k4
  refine ⟨afterFlags_same ((congrArg _ k4).trans hu.mig), hans, ?_, fun k hk => ?_, k1.trans hu.dram, k2, k3.trans hu.wdb⟩
  · rw [hentry, hu.entry, if_pos rfl]
  · rw [hentry, hu.entry, if_neg hk]

/-- A hint that is denied. -/
theorem denied_answer {r : Req} (hr : r ∈ s.xact.reqs) (hp : Plain r) :
    s.afterFlags (s.answer r 9 0 []) = s.answer r 9 0 [] ∧ Answered (s.answer r 9 0 []) r.id 9 none ∧ MemKept s (s.answer r 9 0 []) ∧
      RegsKept s (s.answer r 9 0 []) [] [] := by
  have hst := answer_stores s r 9 0 []
  exact ⟨afterFlags_same (congrArg _ hst.place_eq), answered_of_answer_none s 0 [] hr hp.2 (by decide), hst,
    fun a _ _ => rd_answer s 0 a [] hp.2 (by decide)⟩

theorem hintPin_gives {tag : BitVec 12} {m : LookupIn} {r : Req} {n : Nat}
    (h : s.readyReq tag.toNat (fun h => decide (hOpc h = 6) && hintCode 0 (hArg h)) = some r) (hp : Plain r) (hm : NoErr m)
    (hd : s.decodeStatus r.header r.data = 0) (hn : n = hintFirst r.header) (hc : hintCount r.header = 1) (he : eState (s.entry n) < 3)
    (ha : hArg r.header = 0) (hmig : s.migOf n = none) (hl : s.fld R.PLACE_PARCELS_PINNED F.PLACE_PARCELS_PINNED_COUNT
      < s.fld R.PLACE_PIN_LIMIT F.PLACE_PIN_LIMIT_LIMIT) : Gives (.hintPin tag m) s fun t =>
      Answered t r.id 0 none ∧ ePin (t.entry n) = true ∧ eFrame (t.entry n) = eFrame (s.entry n) ∧
        EntriesKeptBut s t n ∧ t.dram = s.dram ∧ t.cache = s.cache ∧ t.wdb = s.wdb := by
  obtain ⟨hr, heq⟩ := hintReq_one h hp hm hd hn hc (by omega)
  have hden : s.hintDenied 0 [n] = false := by
    have hlen : ([n].filter fun n => !ePin (s.entry n)).length ≤ 1 := List.length_filter_le _ [n]
    unfold hintDenied
    rw [if_pos rfl, Bool.or_eq_false_iff]
    refine ⟨?_, decide_eq_false (by omega)⟩
    simp
    omega
  have hone : hintOne 0 s n = s.setEntry 1 n (s.entry n ||| 0x01000000) := by
    show s.pin n = _
    unfold pin
    rw [hmig]
  rw [ha, if_neg (ne_true_of_eq_false hden), hone] at heq
  obtain ⟨hset, hcache⟩ := hinted_setEntry s n (s.entry n ||| 0x01000000)
  generalize s.setEntry 1 n (s.entry n ||| 0x01000000) = u at *
  obtain ⟨k0, k1, k2, k3, k4, k5, k6⟩ := hinted_answer hr hp hset
  refine gives_of_eq rfl ((congrArg s.afterFlags heq).trans k0) ⟨k1, ?_, ?_, k3, k4, k5.trans hcache, k6⟩
  · rw [k2]
    unfold ePin
    rw [BitVec.getLsbD_or]
    simp
  · rw [k2]
    exact eFrame_or (by decide)

theorem hintPin_released {tag : BitVec 12} {m : LookupIn} {r : Req} {n : Nat}
    (h : s.readyReq tag.toNat (fun h => decide (hOpc h = 6) && hintCode 0 (hArg h)) = some r) (hp : Plain r) (hm : NoErr m)
    (hd : s.decodeStatus r.header r.data = 0) (hn : n = hintFirst r.header) (hc : hintCount r.header = 1) (he : eState (s.entry n) = 3)
    (ha : hArg r.header = 0) : Gives (.hintPin tag m) s fun t => Answered t r.id 9 none ∧ MemKept s t ∧ RegsKept s t [] [] := by
  obtain ⟨hr, heq⟩ := hintReq_one h hp hm hd hn hc (by omega)
  have hden : s.hintDenied 0 [n] = true := by
    unfold hintDenied
    rw [if_pos rfl]
    simp [he]
  rw [ha, if_pos hden] at heq
  obtain ⟨k0, k1, k2, k3⟩ := denied_answer hr hp
  exact gives_of_eq rfl ((congrArg s.afterFlags heq).trans k0) ⟨k1, k2, k3⟩

theorem hintUnpin_gives {tag : BitVec 12} {m : LookupIn} {r : Req} {n : Nat}
    (h : s.readyReq tag.toNat (fun h => decide (hOpc h = 6) && hintCode 1 (hArg h)) = some r) (hp : Plain r) (hm : NoErr m)
    (hd : s.decodeStatus r.header r.data = 0) (hn : n = hintFirst r.header) (hc : hintCount r.header = 1) (he : eState (s.entry n) ≠ 5)
    (ha : hArg r.header = 1) : Gives (.hintUnpin tag m) s fun t =>
      Answered t r.id 0 none ∧ ePin (t.entry n) = false ∧ eFrame (t.entry n) = eFrame (s.entry n) ∧
        EntriesKeptBut s t n ∧ t.dram = s.dram ∧ t.cache = s.cache ∧ t.wdb = s.wdb := by
  obtain ⟨hr, heq⟩ := hintReq_one h hp hm hd hn hc he
  rw [ha] at heq
  obtain ⟨hset, hcache⟩ := hinted_setEntry s n (s.entry n &&& 0xFEFFFFFF)
  have heq : s.hintReq tag.toNat m (hintCode 1) = (s.setEntry 1 n (s.entry n &&& 0xFEFFFFFF)).answer r 0 0 [] := heq
  generalize s.setEntry 1 n (s.entry n &&& 0xFEFFFFFF) = u at *
  obtain ⟨k0, k1, k2, k3, k4, k5, k6⟩ := hinted_answer hr hp hset
  refine gives_of_eq rfl ((congrArg s.afterFlags heq).trans k0) ⟨k1, ?_, ?_, k3, k4, k5.trans hcache, k6⟩
  · rw [k2]
    unfold ePin
    rw [BitVec.getLsbD_and]
    simp
  · rw [k2]
    exact eFrame_and (by decide)

theorem hintRelease_gives {tag : BitVec 12} {m : LookupIn} {r : Req} {n : Nat} (hcalm : Calm s)
    (h : s.readyReq tag.toNat (fun h => decide (hOpc h = 6) && hintCode 2 (hArg h)) = some r) (hp : Plain r) (hm : NoErr m)
    (hd : s.decodeStatus r.header r.data = 0) (hn : n = hintFirst r.header) (hc : hintCount r.header = 1) (ha : hArg r.header = 2)
    (he : eState (s.entry n) = 0) (hpin : ePin (s.entry n) = false) (hmig : s.migOf n = none) : Gives (.hintRelease tag m) s fun t =>
      Answered t r.id 0 none ∧ eState (t.entry n) = 3 ∧ EntriesKeptBut s t n ∧ (∀ e ∈ t.wdb, liParcel e.li ≠ n) := by
  obtain ⟨hr, heq⟩ := hintReq_one h hp hm hd hn hc (by omega)
  have hden : s.hintDenied 2 [n] = false := by
    unfold hintDenied
    rw [if_neg (by decide), if_pos rfl]
    simp [hpin]
  rw [hintOne_release ha, ha, if_neg (ne_true_of_eq_false hden)] at heq
  have hdrop := dropData_wdb (s := s) (n := n) he
  have htable : (s.dropData n).place.table = s.place.table := dropData_blind bookBlind_table (fun _ _ => rfl) (fun _ _ => rfl) (fun _ _ _ => rfl) s n
  have hxact : (s.dropData n).xact = s.xact := dropData_blind placeBlind_xact.book (fun _ _ => rfl) (fun _ _ => rfl) (fun _ _ _ => rfl) s n
  have hlad := dropData_ladderKept s n
  rw [release_eq hmig] at heq
  have hstate := eState_released (eNocache ((s.dropData n).entry n)) (eElig ((s.dropData n).entry n))
  generalize mkEntry 0 3 false (eNocache ((s.dropData n).entry n)) (eElig ((s.dropData n).entry n)) false = w at *
  generalize s.dropData n = d at *
  obtain ⟨v1, v2, v3, v4⟩ := noEvac_spec d n
  generalize d.noEvac n = v at *
  have u1 := setEntry_entry v 2 n w
  have u2 := setEntry_blind v 2 n w placeBlind_xact.book fun _ _ => rfl
  have u3 := setEntry_blind v 2 n w placeBlind_wdb.book fun _ _ => rfl
  have u4 := (hlad.trans v4).trans (LadderKept.setEntry v 2 n w)
  generalize v.setEntry 2 n w = u at *
  have hans := answered_of_answer_none u (r := r) (status := 0) 0 [] (by rw [u2, v3, hxact]; exact hr) hp.2 (by decide)
  obtain ⟨-, -, k3, k4, -, -⟩ := answer_stores u r 0 0 []
  have hlad' := answer_same (g := fun s : State => (s.fcol.handed, s.fcol.declared, s.spare)) (fun _ _ _ => rfl) (by simp) (fun _ _ => rfl)
    (fun _ _ => rfl) (fun _ _ => rfl) (by simp) u r 0 0 []
  generalize u.answer r 0 0 [] = x at *
  simp only [Prod.mk.injEq] at hlad'
  obtain ⟨l1, l2, l3⟩ := hlad'
  have hc' : Calm x := (u4.calm hcalm).of_parts l1 l2 (congrArg _ l3) (congrArg _ k4)
  have hentry : ∀ k, x.settle.entry k = if k = n then w else s.entry k := fun k => by
    refine (congrArg (fun p : PlaceState => SMap.get homeEntry p.table k) ((settle_place hc').trans k4)).trans ((u1 k).trans ?_)
    refine if_congr Iff.rfl rfl ?_
    unfold entry
    rw [v1, htable]
  refine gives_of_eq rfl (congrArg settle heq) ⟨answered_congr (settle_xact hc') hans, ?_, fun k hk => ?_, fun e hmem => ?_⟩
  · rw [hentry, if_pos rfl, hstate]
  · rw [hentry, if_neg hk]
  · rw [settle_wdb hc', k3, u3, v2, hdrop] at hmem
    exact of_decide_eq_true (List.mem_filter.mp hmem).2

theorem hintPrefetch_gives {tag : BitVec 12} {m : LookupIn} {r : Req} {n : Nat}
    (h : s.readyReq tag.toNat (fun h => decide (hOpc h = 6) && hintCode 3 (hArg h)) = some r) (hp : Plain r) (hm : NoErr m)
    (hd : s.decodeStatus r.header r.data = 0) (hn : n = hintFirst r.header) (hc : hintCount r.header = 1) (he : eState (s.entry n) < 3)
    (ha : hArg r.header = 3) (hon : s.cacheOn = true) : Gives (.hintPrefetch tag m) s fun t =>
      Answered t r.id 0 none ∧
        t.cache.prefetchQ = s.cache.prefetchQ ++ (List.range 256).map (fun i => 256 * n + i) ∧
        t.place = s.place ∧ t.dram = s.dram ∧ t.wdb = s.wdb := by
  obtain ⟨hr, heq⟩ := hintReq_one h hp hm hd hn hc (by omega)
  have hden : s.hintDenied 3 [n] = false := by
    unfold hintDenied
    rw [if_neg (by decide), if_neg (by decide), if_pos rfl, hon]
    rfl
  have hone : hintOne 3 s n = s.prefetch n := rfl
  have hpre : s.prefetch n = s.prefetched n := if_neg (by omega)
  rw [ha, if_neg (ne_true_of_eq_false hden), hone, hpre] at heq
  obtain ⟨p1, p2, p3, p4, p5⟩ := prefetched_spec s n
  generalize s.prefetched n = u at *
  have hans := answered_of_answer_none u (r := r) (status := 0) 0 [] (by rw [p5]; exact hr) hp.2 (by decide)
  obtain ⟨k1, k2, k3, k4, -, -⟩ := answer_stores u r 0 0 []
  generalize u.answer r 0 0 [] = x at *
  have hflags : s.afterFlags x = x := afterFlags_same (congrArg _ (k4.trans p2))
  exact gives_of_eq rfl ((congrArg s.afterFlags heq).trans hflags) ⟨hans, (congrArg _ k2).trans p1, k4.trans p2, k1.trans p3, k3.trans p4⟩

theorem hintPrefetch_off {tag : BitVec 12} {m : LookupIn} {r : Req}
    (h : s.readyReq tag.toNat (fun h => decide (hOpc h = 6) && hintCode 3 (hArg h)) = some r) (hp : Plain r) (hm : NoErr m)
    (hd : s.decodeStatus r.header r.data = 0) (hc : hintCount r.header = 1) (he : eState (s.entry (hintFirst r.header)) ≠ 5)
    (ha : hArg r.header = 3) (hoff : s.cacheOn = false) : Gives (.hintPrefetch tag m) s fun t => Answered t r.id 9 none ∧ MemKept s t := by
  obtain ⟨hr, heq⟩ := hintReq_one h hp hm hd rfl hc he
  have hden : s.hintDenied 3 [hintFirst r.header] = true := by
    unfold hintDenied
    rw [if_neg (by decide), if_neg (by decide), if_pos rfl, hoff]
    rfl
  rw [ha, if_pos hden] at heq
  obtain ⟨k0, k1, k2, -⟩ := denied_answer hr hp
  exact gives_of_eq rfl ((congrArg s.afterFlags heq).trans k0) ⟨k1, k2⟩

theorem hintNocache_gives {tag : BitVec 12} {m : LookupIn} {r : Req} {n : Nat}
    (h : s.readyReq tag.toNat (fun h => decide (hOpc h = 6) && hintCode 4 (hArg h)) = some r) (hp : Plain r) (hm : NoErr m)
    (hd : s.decodeStatus r.header r.data = 0) (hn : n = hintFirst r.header) (hc : hintCount r.header = 1) (he : eState (s.entry n) ≠ 5)
    (ha : hArg r.header = 4) : Gives (.hintNocache tag m) s fun t =>
      Answered t r.id 0 none ∧ eNocache (t.entry n) = true ∧ eElig (t.entry n) = false ∧
        eFrame (t.entry n) = eFrame (s.entry n) ∧ EntriesKeptBut s t n ∧ t.dram = s.dram ∧ t.wdb = s.wdb := by
  obtain ⟨hr, heq⟩ := hintReq_one h hp hm hd hn hc he
  have hone : hintOne 4 s n = s.nocache n := rfl
  have hden : s.hintDenied 4 [n] = false := rfl
  rw [ha, if_neg (ne_true_of_eq_false hden), hone] at heq
  have hset := hinted_nocache s n
  generalize s.nocache n = u at *
  obtain ⟨k0, k1, k2, k3, k4, -, k6⟩ := hinted_answer hr hp hset
  refine gives_of_eq rfl ((congrArg s.afterFlags heq).trans k0) ⟨k1, ?_, ?_, ?_, k3, k4, k6⟩
  · rw [k2]
    unfold eNocache
    rw [BitVec.getLsbD_and, BitVec.getLsbD_or]
    simp
  · rw [k2]
    unfold eElig
    rw [BitVec.getLsbD_and]
    simp
  · rw [k2]
    exact (eFrame_and (by decide)).trans (eFrame_or (by decide))

theorem hintCache_gives {tag : BitVec 12} {m : LookupIn} {r : Req} {n : Nat}
    (h : s.readyReq tag.toNat (fun h => decide (hOpc h = 6) && hintCode 5 (hArg h)) = some r) (hp : Plain r) (hm : NoErr m)
    (hd : s.decodeStatus r.header r.data = 0) (hn : n = hintFirst r.header) (hc : hintCount r.header = 1) (he : eState (s.entry n) ≠ 5)
    (ha : hArg r.header = 5) : Gives (.hintCache tag m) s fun t =>
      Answered t r.id 0 none ∧ eNocache (t.entry n) = false ∧ eFrame (t.entry n) = eFrame (s.entry n) ∧
        EntriesKeptBut s t n ∧ t.dram = s.dram ∧ t.cache = s.cache ∧ t.wdb = s.wdb := by
  obtain ⟨hr, heq⟩ := hintReq_one h hp hm hd hn hc he
  have hone : hintOne 5 s n = s.setEntry 1 n (s.entry n &&& 0xFDFFFFFF) := rfl
  have hden : s.hintDenied 5 [n] = false := rfl
  rw [ha, if_neg (ne_true_of_eq_false hden), hone] at heq
  obtain ⟨hset, hcache⟩ := hinted_setEntry s n (s.entry n &&& 0xFDFFFFFF)
  generalize s.setEntry 1 n (s.entry n &&& 0xFDFFFFFF) = u at *
  obtain ⟨k0, k1, k2, k3, k4, k5, k6⟩ := hinted_answer hr hp hset
  refine gives_of_eq rfl ((congrArg s.afterFlags heq).trans k0) ⟨k1, ?_, ?_, k3, k4, k5.trans hcache, k6⟩
  · rw [k2]
    unfold eNocache
    rw [BitVec.getLsbD_and]
    simp
  · rw [k2]
    exact eFrame_and (by decide)

/-- Settles O20: a hint that is not denied changes the flags of its parcel's entry, releases it or asks for its sectors. -/
theorem hints : Obligations.Hints :=
  ⟨fun _ _ _ _ _ h hp hm hd hn hc he ha hmig hl => hintPin_gives h hp hm hd hn hc he ha hmig hl,
    fun _ _ _ _ _ h hp hm hd hn hc he ha => hintPin_released h hp hm hd hn hc he ha,
    fun _ _ _ _ _ h hp hm hd hn hc he ha => hintUnpin_gives h hp hm hd hn hc he ha,
    fun _ _ _ _ _ hcalm h hp hm hd hn hc ha he hpin hmig => hintRelease_gives hcalm h hp hm hd hn hc ha he hpin hmig,
    fun _ _ _ _ _ h hp hm hd hn hc he ha hon => hintPrefetch_gives h hp hm hd hn hc he ha hon,
    fun _ _ _ _ h hp hm hd hc he ha hoff => hintPrefetch_off h hp hm hd hc he ha hoff,
    fun _ _ _ _ _ h hp hm hd hn hc he ha => hintNocache_gives h hp hm hd hn hc he ha,
    fun _ _ _ _ _ h hp hm hd hn hc he ha => hintCache_gives h hp hm hd hn hc he ha⟩

end Sys2Proof.Safety
end

section
/-! SUPPORT. Zeroing of frames and repair of table entries (R138, R139, R162). -/

namespace Sys2Proof.Machine
open Sys2Proof.Safety State

/-- The registers that the placement table's books move: the journal's length, the counts and the deficit (R161, R166). -/
def bookRegs : List Nat :=
  [R.PLACE_JOURNAL_LO, R.PLACE_JOURNAL_HI, R.PLACE_DEFICIT, R.PLACE_PARCELS_PLACED, R.PLACE_PARCELS_RELEASED,
    R.PLACE_PARCELS_WITHDRAWN, R.PLACE_PARCELS_PINNED, R.PLACE_EVAC_PENDING, R.PLACE_FRAMES_FREE, R.PLACE_FRAMES_RETIRED]

namespace State

variable {s t : State} {pages : List Nat}

theorem journal_regsKept (ty parcel frame flags : Nat) : RegsKept s (s.journal ty parcel frame flags) pages bookRegs := by
  intro a _ ha
  unfold journal
  dsimp only
  split
  · rfl
  · exact rd_inc64_other _ _ _ _ (fun e => ha (e ▸ by decide)) (fun e => ha (e ▸ by decide))

theorem tally_regsKept (h : RegsKept s t pages bookRegs) {a : Nat} (f : Fld) (was is : Bool) (ha : a ∈ bookRegs) :
    RegsKept s (t.tally a f was is) pages bookRegs := by
  unfold tally
  split
  · exact h
  · exact h.put _ _ (.inl ha)

theorem tallyEntry_regsKept (h : RegsKept s t pages bookRegs) (w v : Word) :
    RegsKept s (t.tallyEntry w v) pages bookRegs := by
  have hbump : ∀ {u : State} (_ : RegsKept s u pages bookRegs) (x d), RegsKept s (u.bumpBank x d) pages bookRegs := by
    intro u hu x d
    unfold bumpBank
    split
    · exact hu.of_regs rfl
    · exact hu
  unfold tallyEntry
  refine hbump (hbump ?_ _ _) _ _
  refine tally_regsKept ?_ _ _ _ (by decide)
  refine tally_regsKept ?_ _ _ _ (by decide)
  refine tally_regsKept ?_ _ _ _ (by decide)
  refine tally_regsKept ?_ _ _ _ (by decide)
  exact tally_regsKept h _ _ _ (by decide)

theorem bookDeficit_regsKept (h : RegsKept s t [] bookRegs) : RegsKept s t.updDeficit [] bookRegs :=
  h.trans ((updDeficit_regsKept t).mono (fun _ => id) (by decide))

/-- An entry is stored, before the books take it up. -/
def entryStored (s : State) (n : Nat) (w : Word) : State :=
  { s with place := { s.place with table := SMap.set homeEntry n w s.place.table } }

theorem entryStored_regs (n : Nat) (w : Word) : (s.entryStored n w).regs = s.regs := rfl

theorem putEntry_eq (n : Nat) (w : Word) :
    s.putEntry n w = ((s.entryStored n w).tallyEntry (s.entry n) w).updDeficit := rfl

theorem putEntry_regsKept (h : RegsKept s t [] bookRegs) (n : Nat) (w : Word) : RegsKept s (t.putEntry n w) [] bookRegs := by
  rw [putEntry_eq]
  exact bookDeficit_regsKept (tallyEntry_regsKept (h.of_regs (entryStored_regs n w)) _ _)

theorem setEntry_regsKept (ty n : Nat) (w : Word) : RegsKept s (s.setEntry ty n w) [] bookRegs := by
  have h : RegsKept s (s.journal ty n (eFrame w) (w.toNat / 2 ^ 24 % 16)) [] bookRegs := journal_regsKept _ _ _ _
  exact putEntry_regsKept h n w

theorem tallyFrame_regsKept (h : RegsKept s t [] bookRegs) (u : State) (f : Nat) :
    RegsKept s (t.tallyFrame u f) [] bookRegs := by
  unfold tallyFrame
  refine bookDeficit_regsKept (tally_regsKept ?_ _ _ _ (by decide))
  exact tally_regsKept h _ _ _ (by decide)

/-- A frame stands in the queue for zeroing, before the books take it up. -/
def zeroQueued (s : State) (f : Nat) : State :=
  ({ s with place := { s.place with zeroQ := s.place.zeroQ ++ [f] } } : State).setHeat f 0

theorem zeroQueued_regs (f : Nat) : (s.zeroQueued f).regs = s.regs := rfl

theorem queueZero_eq (f : Nat) : s.queueZero f = (s.zeroQueued f).tallyFrame s f := rfl

theorem queueZero_regsKept (h : RegsKept s t [] bookRegs) (f : Nat) : RegsKept s (t.queueZero f) [] bookRegs := by
  rw [queueZero_eq]
  exact tallyFrame_regsKept (h.of_regs (zeroQueued_regs f)) t f

/-! ### A withdrawal's registers -/

theorem setTag_rd (k : Nat) (v : BitVec 25) {a : Nat} (ha : pageOf a = 0x00C) : (s.setTag k v).rd a = s.rd a := by
  have hne : a ≠ R.CACHE_DIRTY_LINES (keyQuad k) := by
    intro e
    revert ha
    rw [e]
    generalize keyQuad k = q
    simp only [pageOf, R.CACHE_DIRTY_LINES]
    omega
  unfold setTag
  dsimp only
  split
  · rfl
  · exact (rd_put ..).trans (if_neg hne)

theorem dropParcel_rd (q n : Nat) {a : Nat} (ha : pageOf a = 0x00C) : (s.dropParcel q n).rd a = s.rd a := by
  unfold dropParcel
  generalize s.parcelWays q n = l
  induction l generalizing s with
  | nil => rfl
  | cons k l ih => exact (ih (s := s.setTag k 0)).trans (setTag_rd k 0 ha)

theorem dropData_rd (n : Nat) {a : Nat} (ha : pageOf a = 0x00C) (hb : a ∉ bookRegs) : (s.dropData n).rd a = s.rd a := by
  unfold dropData
  dsimp only
  split
  · rw [queueZero_regsKept (RegsKept.refl _) _ a (by simp) hb]
    exact dropParcel_rd _ n ha
  · rfl

theorem withdraw_rd {n a : Nat} (hm : s.migOf n = none) (ha : pageOf a = 0x00C) (hb : a ∉ bookRegs) :
    (s.withdraw n).rd a = s.rd a := by
  rw [withdraw_eq hm, setEntry_regsKept _ _ _ a (by simp) hb]
  exact dropData_rd n ha hb

/-! ### A repaired entry (R139) -/

theorem setMirror_mirrorOk (b x c : Bool) : (s.setMirror b x).mirrorOk c = if c = b then x else s.mirrorOk c := by
  unfold setMirror mirrorOk
  cases b <;> cases c
  · exact on_flag_same _ _ _ _ (by decide) rfl
  · exact on_flag_other _ _ _ _ _ _ (.inr (by decide))
  · exact on_flag_other _ _ _ _ _ _ (.inr (by decide))
  · exact on_flag_same _ _ _ _ (by decide) rfl

/-- The mirrors after the reads of an entry: one whose read failed is not valid (R162). -/
def mirrorsRead (s : State) (failA failB : Bool) : State :=
  let s := if failA then s.setMirror false false else s
  if failB then s.setMirror true false else s

variable {failA failB : Bool} {n : Nat}

theorem mirrorsRead_mirrorOk : (s.mirrorsRead failA failB).mirrorOk false = (s.mirrorOk false && !failA) ∧
    (s.mirrorsRead failA failB).mirrorOk true = (s.mirrorOk true && !failB) := by
  unfold mirrorsRead
  cases failA <;> cases failB <;> simp [setMirror_mirrorOk]

theorem mirrorsRead_kept : MemKept s (s.mirrorsRead failA failB) ∧ LadderKept s (s.mirrorsRead failA failB) ∧
    RegsKept s (s.mirrorsRead failA failB) [] [R.PLACE_KEEL_STAT] := by
  have hone : ∀ (u : State) (b : Bool), RegsKept u (u.setMirror b false) [] [R.PLACE_KEEL_STAT] := fun u b =>
    (RegsKept.refl u).flag _ _ (by simp)
  unfold mirrorsRead
  cases failA <;> cases failB
  · exact ⟨.refl s, .refl s, .refl s⟩
  · exact ⟨⟨rfl, rfl, rfl, rfl, rfl, rfl⟩, ⟨rfl, rfl, rfl, rfl⟩, hone s true⟩
  · exact ⟨⟨rfl, rfl, rfl, rfl, rfl, rfl⟩, ⟨rfl, rfl, rfl, rfl⟩, hone s false⟩
  · exact ⟨⟨rfl, rfl, rfl, rfl, rfl, rfl⟩, ⟨rfl, rfl, rfl, rfl⟩, (hone s false).trans (hone _ true)⟩

theorem repairDone_rebuilt (he : eState (s.entry n) = 5)
    (hm : (s.mirrorOk false = true ∧ failA = false) ∨ (s.mirrorOk true = true ∧ failB = false)) :
    s.repairDone n failA failB = ((s.mirrorsRead failA failB).rebuilt n).inc R.PLACE_TABLE_REPAIRS := by
  obtain ⟨ha, hb⟩ := mirrorsRead_mirrorOk (s := s) (failA := failA) (failB := failB)
  have hok : ((s.mirrorsRead failA failB).mirrorOk false || (s.mirrorsRead failA failB).mirrorOk true) = true := by
    rw [ha, hb]
    rcases hm with ⟨h, rfl⟩ | ⟨h, rfl⟩ <;> simp [h]
  unfold repairDone
  rw [if_neg (fun h => h he)]
  exact if_pos hok

theorem repairDone_withdrawn (he : eState (s.entry n) = 5) (ha : s.mirrorOk false = false ∨ failA = true)
    (hb : s.mirrorOk true = false ∨ failB = true) :
    s.repairDone n failA failB = (s.mirrorsRead failA failB).withdraw n := by
  obtain ⟨hra, hrb⟩ := mirrorsRead_mirrorOk (s := s) (failA := failA) (failB := failB)
  have hok : ((s.mirrorsRead failA failB).mirrorOk false || (s.mirrorsRead failA failB).mirrorOk true) = false := by
    rw [hra, hrb]
    rcases ha with h | h <;> rcases hb with k | k <;> simp [h, k]
  unfold repairDone
  rw [if_neg (fun h => h he)]
  exact if_neg (ne_true_of_eq_false hok)

theorem entry_of_table (h : t.place.table = s.place.table) (k : Nat) : t.entry k = s.entry k := by
  unfold entry
  rw [h]

theorem live_of_place (h : t.place = s.place) (k : Nat) : t.live k = s.live k := by
  unfold live entry
  rw [h]

/-- The parcel no longer waits for a repair. -/
def repairOver (s : State) (n : Nat) : State :=
  { s with place := { s.place with repair := SMap.set (fun _ => none) n none s.place.repair } }

theorem rebuilt_eq : s.rebuilt n = (s.repairOver n).setEntry (recordType (s.live n)) n (s.live n) := rfl

theorem rebuilt_entry (k : Nat) : (s.rebuilt n).entry k = if k = n then s.live n else s.entry k := by
  rw [rebuilt_eq, setEntry_entry]
  rfl

theorem rebuilt_mem : (s.rebuilt n).dram = s.dram ∧ (s.rebuilt n).wdb = s.wdb ∧ (s.rebuilt n).cache = s.cache := by
  rw [rebuilt_eq]
  exact ⟨setEntry_blind _ _ _ _ placeBlind_dram.book fun _ _ => rfl,
    setEntry_blind _ _ _ _ placeBlind_wdb.book fun _ _ => rfl, setEntry_blind _ _ _ _ placeBlind_cache.book fun _ _ => rfl⟩

theorem rebuilt_kept : LadderKept s (s.rebuilt n) ∧ RegsKept s (s.rebuilt n) [] bookRegs := by
  rw [rebuilt_eq]
  exact ⟨(⟨rfl, rfl, rfl, rfl⟩ : LadderKept s (s.repairOver n)).trans (.setEntry ..),
    fun a hp ha => setEntry_regsKept (s := s.repairOver n) _ _ _ a hp ha⟩

/-! ### The start of a zeroing -/

theorem chargeMove_place (e : Bool) (b : Nat) : (s.chargeMove e b).place.polUsed + (s.chargeMove e b).place.evacUsed
      = s.place.polUsed + s.place.evacUsed + b ∧ (s.chargeMove e b).place.table = s.place.table ∧
    (s.chargeMove e b).place.zeroing = s.place.zeroing ∧ (s.chargeMove e b).dram = s.dram ∧
    (s.chargeMove e b).regs = s.regs := by
  cases e
  · exact ⟨Nat.add_right_comm .., rfl, rfl, rfl, rfl⟩
  · exact ⟨(Nat.add_assoc ..).symm, rfl, rfl, rfl, rfl⟩

/-- A frame leaves the queue to be zeroed. -/
def zeroTaken (s : State) (f : Nat) (q : List Nat) : State :=
  { s with place := { s.place with zeroQ := q, zeroing := s.place.zeroing ++ [f] } }

theorem zeroStart_eq {f : Nat} {q : List Nat} (hq : s.place.zeroQ = f :: q)
    (hfit : s.polFits zeroBytes = true ∨ s.evacFits zeroBytes = true) :
    s.zeroStart = (s.chargeMove (!s.polFits zeroBytes) zeroBytes).zeroTaken f q := by
  have hno : (!s.polFits zeroBytes && !s.evacFits zeroBytes) = false := by
    rcases hfit with h | h <;> simp [h]
  unfold zeroStart
  rw [hq]
  dsimp only
  rw [hno, if_neg (by decide)]
  unfold zeroTaken
  rw [(chargeMove_place _ _).2.2.1]

theorem zeroStart_self (h : s.place.zeroQ = [] ∨ (s.polFits zeroBytes = false ∧ s.evacFits zeroBytes = false)) :
    s.zeroStart = s := by
  unfold zeroStart
  split
  · rfl
  case _ f q hq =>
    rcases h with h | ⟨hp, he⟩
    · rw [h] at hq
      exact absurd hq.symm (List.cons_ne_nil f q)
    · rw [hp, he]
      rfl

/-! ### A zeroed frame -/

theorem get_erase {α : Type} [DecidableEq α] (d : Nat → α) (p : Nat → Bool) {k : Nat} (h : p k = true) (m : SMap α) :
    SMap.get d (SMap.erase p m) k = d k := by
  refine Sys2Proof.Laws.SMap.get_of_notMem fun hk => ?_
  obtain ⟨e, he, rfl⟩ := List.mem_map.mp hk
  have := (List.mem_filter.mp he).2
  simp [h] at this

theorem dataOf_zero {get : Nat → Byte} : ∀ n, (∀ i < n, get i = 0) → dataOf get n = 0
  | 0, _ => rfl
  | n + 1, h => by
    simp [dataOf, h n (Nat.lt_succ_self n), dataOf_zero n fun i hi => h i (Nat.lt_succ_of_lt hi)]

theorem dramZero_dramByte (f k : Nat) (h : lineKey f 0 ≤ k ∧ k < lineKey (f + 1) 0) :
    (s.dramZero f).dramByte k = dramDefault k :=
  get_erase dramDefault (fun k => decide (lineKey f 0 ≤ k ∧ k < lineKey (f + 1) 0)) (decide_eq_true h) s.dram

theorem dramZero_byte (f : Nat) (o : Fin 1024) {i : Nat} (hi : i ≤ 64) :
    (s.dramZero f).dramByte (lineKey f o + i) = if i = 64 then 0x40 else 0 := by
  refine (dramZero_dramByte f _ ?_).trans ?_
  · have ho := o.isLt
    simp only [lineKey]
    omega
  · have hm : (lineKey f o + i) % 65 = i := by
      simp only [lineKey]
      omega
    unfold dramDefault
    rw [hm]

theorem dramZero_read (f : Nat) (o : Fin 1024) : (s.dramZero f).dramRead f o = ⟨0, 0x40⟩ := by
  have hd : dataOf (fun i => (s.dramZero f).dramByte (lineKey f o + i)) 64 = 0 :=
    dataOf_zero 64 fun i hi => (dramZero_byte f o (Nat.le_of_lt hi)).trans (if_neg (Nat.ne_of_lt hi))
  unfold dramRead
  rw [hd, dramZero_byte f o (Nat.le_refl 64)]
  rfl

theorem dramRead_of_dram (h : t.dram = s.dram) (f o : Nat) : t.dramRead f o = s.dramRead f o := by
  unfold dramRead dramByte
  rw [h]

/-- A frame's lines are zeroed, before the books take it up. -/
def frameZeroed (s : State) (f : Nat) : State :=
  { ((s.dropCorr f).dramZero f) with place := { s.place with zeroing := s.place.zeroing.erase f } }

theorem frameZeroed_spec (f : Nat) : (s.frameZeroed f).place.zeroing = s.place.zeroing.erase f ∧
    (s.frameZeroed f).place.table = s.place.table ∧ (s.frameZeroed f).wdb = s.wdb ∧ (s.frameZeroed f).cache = s.cache ∧
    (s.frameZeroed f).place.retiring = s.place.retiring ∧ (s.frameZeroed f).place.keelQ = s.place.keelQ ∧
    LadderKept s (s.frameZeroed f) := ⟨rfl, rfl, rfl, rfl, rfl, rfl, rfl, rfl, rfl, rfl⟩

theorem frameZeroed_read (f : Nat) (o : Fin 1024) : (s.frameZeroed f).dramRead f o = ⟨0, 0x40⟩ :=
  (dramRead_of_dram (s := (s.dropCorr f).dramZero f) rfl f o).trans (dramZero_read f o)

/-- A zeroed frame is FREE. -/
def frameFreed (s : State) (f : Nat) : State := ((s.frameZeroed f).tallyFrame s f).setFrame f 0

theorem bookBlind_zeroing : BookBlind (·.place.zeroing) :=
  ⟨fun _ _ _ => rfl, fun _ _ _ => by simp, fun _ _ _ _ _ _ => rfl, fun _ _ => rfl, fun _ _ _ _ => rfl⟩

theorem frameFreed_blind {α : Type} {g : State → α} (hg : BookBlind g)
    (hf : ∀ (t : State) m, g { t with place := { t.place with frames := m } } = g t) (f : Nat) :
    g (s.frameFreed f) = g (s.frameZeroed f) := (setFrame_blind _ _ _ hg hf).trans (hg.tallyFrame ..)

theorem tallyFrame_ladderKept (u : State) (f : Nat) : LadderKept s (s.tallyFrame u f) :=
  ⟨placeBlind_handed.book.tallyFrame .., placeBlind_declared.book.tallyFrame ..,
    congrArg _ (placeBlind_spare.book.tallyFrame ..), bookBlind_retiring.tallyFrame ..⟩

theorem frameFreed_ladderKept (f : Nat) : LadderKept s (s.frameFreed f) :=
  ((frameZeroed_spec f).2.2.2.2.2.2.trans (tallyFrame_ladderKept ..)).trans (.setFrame ..)

theorem zeroEnd_eq {f : Nat} (hr : s.place.retiring = []) (hf : f ∈ s.place.zeroing) (hb : s.frameBusy f = false)
    (hh : s.repairHolds f = false) (hq : s.place.keelQ = []) : s.zeroEnd f = s.frameFreed f := by
  have hin : (s.place.zeroing.contains f && !s.frameBusy f) = true := by
    rw [hb, List.contains_iff_mem.mpr hf]
    rfl
  have hret : ((s.frameZeroed f).tallyFrame s f).onRetiring f = false := by
    unfold onRetiring
    rw [bookBlind_retiring.tallyFrame, (frameZeroed_spec f).2.2.2.2.1, hr]
    rfl
  have hdone : s.zeroDone f = s.frameFreed f := by
    unfold zeroDone
    rw [if_pos hin]
    exact if_neg (ne_true_of_eq_false hret)
  have hkq : (s.frameFreed f).place.keelQ = [] := (frameFreed_blind bookBlind_keelQ (fun _ _ => rfl) f).trans hq
  unfold zeroEnd
  rw [hh, if_neg (by decide), hdone]
  dsimp only
  rw [hkq]
  rfl

end State
end Sys2Proof.Machine

namespace Sys2Proof.Safety
open Sys2Proof.Machine Sys2Proof.Machine.State

variable {s : State}

theorem frameFreed_state (hc : Calm s) (f : Nat) :
    (∀ o : Fin 1024, (s.frameFreed f).settle.dramRead f o = ⟨0, 0x40⟩) ∧ (s.frameFreed f).settle.frameCode f = 0 ∧
      (s.frameFreed f).settle.place.zeroing = s.place.zeroing.erase f ∧
      (s.frameFreed f).settle.place.table = s.place.table ∧ (s.frameFreed f).settle.wdb = s.wdb ∧
      (s.frameFreed f).settle.cache = s.cache := by
  have hk : Calm (s.frameFreed f) := (frameFreed_ladderKept f).calm hc
  obtain ⟨hz, ht, hw, hca, -⟩ := frameZeroed_spec (s := s) f
  have hdram : (s.frameFreed f).settle.dram = (s.frameZeroed f).dram :=
    (settle_dram hk).trans (frameFreed_blind placeBlind_dram.book (fun _ _ => rfl) f)
  refine ⟨fun o => (dramRead_of_dram hdram f o).trans (frameZeroed_read f o), ?_, ?_, ?_, ?_, ?_⟩
  · unfold frameCode State.cap
    rw [settle_place hk]
    exact frameCode_setFrame _ f 0
  · rw [settle_place hk]
    exact (frameFreed_blind bookBlind_zeroing (fun _ _ => rfl) f).trans hz
  · rw [settle_place hk]
    exact (frameFreed_blind bookBlind_table (fun _ _ => rfl) f).trans ht
  · rw [settle_wdb hk]
    exact (frameFreed_blind placeBlind_wdb.book (fun _ _ => rfl) f).trans hw
  · rw [settle_cache hk]
    exact (frameFreed_blind placeBlind_cache.book (fun _ _ => rfl) f).trans hca

theorem settle_entry (hc : Calm s) (k : Nat) : s.settle.entry k = s.entry k :=
  entry_of_table (congrArg (·.table) (settle_place hc)) k

theorem settle_mirrorOk (hc : Calm s) (b : Bool) : s.settle.mirrorOk b = s.mirrorOk b :=
  on_eq_of_rd (settle_rd hc _ (by decide)) _

theorem rebuilt_state (hc : Calm s) (n : Nat) (failA failB : Bool) {t : State}
    (h : t = (((s.mirrorsRead failA failB).rebuilt n).inc R.PLACE_TABLE_REPAIRS).settle) :
    t.entry n = s.live n ∧ EntriesKeptBut s t n ∧ t.mirrorOk false = (s.mirrorOk false && !failA) ∧
      t.mirrorOk true = (s.mirrorOk true && !failB) ∧ t.rd R.PLACE_TABLE_REPAIRS = s.rd R.PLACE_TABLE_REPAIRS + 1 ∧
      t.dram = s.dram ∧ t.wdb = s.wdb ∧ t.cache = s.cache := by
  obtain ⟨hmem, hladder, hregs⟩ := mirrorsRead_kept (s := s) (failA := failA) (failB := failB)
  obtain ⟨hoka, hokb⟩ := mirrorsRead_mirrorOk (s := s) (failA := failA) (failB := failB)
  obtain ⟨hdram, hcache, hwdb, hplace, -⟩ := hmem
  generalize s.mirrorsRead failA failB = u at h hladder hregs hoka hokb hdram hcache hwdb hplace
  obtain ⟨hbl, hbr⟩ := rebuilt_kept (s := u) (n := n)
  obtain ⟨hbd, hbw, hbc⟩ := rebuilt_mem (s := u) (n := n)
  have hk : Calm ((u.rebuilt n).inc R.PLACE_TABLE_REPAIRS) := by
    refine Calm.of_parts ((hladder.trans hbl).calm hc) ?_ ?_ ?_ ?_ <;> simp
  have hentry : ∀ k, t.entry k = if k = n then s.live n else s.entry k := fun k => by
    rw [h, settle_entry hk, entry_of_table (s := u.rebuilt n) (by simp), rebuilt_entry, live_of_place hplace,
      entry_of_table (congrArg (·.table) hplace)]
  have hmirror : ∀ b, t.mirrorOk b = u.mirrorOk b := fun b => by
    rw [h, settle_mirrorOk hk]
    refine on_eq_of_rd ?_ _
    rw [rd_inc, if_neg (by decide)]
    exact hbr _ (by simp) (by decide)
  refine ⟨(hentry n).trans (if_pos rfl), fun k hk => (hentry k).trans (if_neg hk), (hmirror _).trans hoka,
    (hmirror _).trans hokb, ?_, ?_, ?_, ?_⟩
  · rw [h, settle_rd hk _ (by decide), rd_inc, if_pos rfl, hbr _ (by simp) (by decide), hregs _ (by simp) (by decide)]
    rfl
  · rw [h, settle_dram hk, inc_dram, hbd, hdram]
  · rw [h, settle_wdb hk, inc_wdb, hbw, hwdb]
  · rw [h, settle_cache hk, inc_cache, hbc, hcache]

theorem withdrawn_state (hc : Calm s) {n : Nat} (hm : s.migOf n = none) (failA failB : Bool) {t : State}
    (h : t = ((s.mirrorsRead failA failB).withdraw n).settle) :
    eState (t.entry n) = 4 ∧ EntriesKeptBut s t n ∧ t.rd R.PLACE_TABLE_REPAIRS = s.rd R.PLACE_TABLE_REPAIRS := by
  obtain ⟨hmem, hladder, hregs⟩ := mirrorsRead_kept (s := s) (failA := failA) (failB := failB)
  generalize s.mirrorsRead failA failB = u at h hladder hregs hmem
  have hplace := hmem.place_eq
  have hmu : u.migOf n = none := by
    unfold migOf at hm ⊢
    rw [hplace]
    exact hm
  have hk : Calm (u.withdraw n) := (withdraw_ladderKept hmu).calm (hladder.calm hc)
  have hentry : ∀ k, t.entry k = if k = n then eWithdrawn else s.entry k := fun k => by
    rw [h, settle_entry hk, withdraw_entry hmu, entry_of_table (congrArg (·.table) hplace)]
  refine ⟨?_, fun k hk => (hentry k).trans (if_neg hk), ?_⟩
  · rw [hentry, if_pos rfl]
    decide
  · rw [h, settle_rd hk _ (by decide), withdraw_rd hmu (by decide) (by decide), hregs _ (by simp) (by decide)]

/-- Settles O23: a frame goes from the queue to the zeroed ones and then to FREE, and an entry in REPAIRING is the mirrors'
or is withdrawn. -/
theorem zeroingAndRepair : Obligations.ZeroingAndRepair := by
  unfold Obligations.ZeroingAndRepair
  refine ⟨?_, ?_, ?_, ?_, ?_⟩
  · intro s f q hr hq hfit
    refine gives_of_eq rfl ((clocked_eq hr fun s => s.zeroStart).trans (zeroStart_eq hq hfit)) ?_
    obtain ⟨hused, htable, hzeroing, hdram, hregs⟩ := chargeMove_place (s := s) (!s.polFits zeroBytes) zeroBytes
    exact ⟨rfl, congrArg (· ++ [f]) hzeroing, hused, htable, hdram, (RegsKept.refl s).of_regs hregs⟩
  · intro s h
    exact congrArg Host.Outcome.next (clocked_self (f := fun s => s.zeroStart) (zeroStart_self h))
  · intro s f hc hr hf hb hh hq
    refine gives_of_eq rfl ((clocked_eq hr fun s => (s.zeroEnd f.toNat).settle).trans
      (congrArg settle (zeroEnd_eq hc.2.2.1 hf hb hh hq))) ?_
    exact frameFreed_state hc f.toNat
  · intro s n failA failB hc hr he hm
    refine gives_of_eq rfl ((clocked_eq hr fun s => (s.repairDone n.toNat failA failB).settle).trans
      (congrArg settle (repairDone_rebuilt he hm))) ?_
    exact rebuilt_state hc n.toNat failA failB rfl
  · intro s n failA failB hc hr he hmig ha hb
    refine gives_of_eq rfl ((clocked_eq hr fun s => (s.repairDone n.toNat failA failB).settle).trans
      (congrArg settle (repairDone_withdrawn he ha hb))) ?_
    exact withdrawn_state hc hmig failA failB rfl

end Sys2Proof.Safety
end

section
/-! SUPPORT. Ends of mailbox commands, the event log, the MSI-X messages and the raw flash path (R416 to R423). -/

namespace Sys2Proof.Machine
open Sys2Proof.Safety State

/-! ### Bytes of the flash (R418) -/

theorem bytesLE_length (n v : Nat) : (bytesLE n v).length = n := by
  induction n generalizing v with
  | zero => rfl
  | succ n ih => simp [bytesLE, ih]

theorem bytesLE_getD (v : Nat) {n i : Nat} (h : i < n) : (bytesLE n v).getD i 0 = v / 256 ^ i % 256 := by
  induction n generalizing v i with
  | zero => exact absurd h (Nat.not_lt_zero i)
  | succ n ih =>
    cases i with
    | zero => simp [bytesLE]
    | succ i =>
      refine (ih (v / 256) (Nat.lt_of_succ_lt_succ h)).trans ?_
      rw [Nat.div_div_eq_div_mul, Nat.pow_succ']

theorem wordBytes_length (l : List Word) : (wordBytes l).length = 4 * l.length := by
  induction l with
  | nil => rfl
  | cons w l ih =>
    have hcons : wordBytes (w :: l) = bytesLE 4 w.toNat ++ wordBytes l := rfl
    rw [hcons, List.length_append, ih, bytesLE_length, List.length_cons]
    omega

/-- Byte `k` of words is byte `k mod 4` of word `k / 4`. -/
theorem wordBytes_getD (l : List Word) {k : Nat} (h : k < 4 * l.length) :
    BitVec.ofNat 8 ((wordBytes l).getD k 0) = (l.getD (k / 4) 0).extractLsb' (8 * (k % 4)) 8 := by
  induction l generalizing k with
  | nil => exact absurd h (Nat.not_lt_zero k)
  | cons w l ih =>
    have hcons : wordBytes (w :: l) = bytesLE 4 w.toNat ++ wordBytes l := rfl
    have hlen := bytesLE_length 4 w.toNat
    rw [hcons]
    by_cases hk : k < 4
    · rw [List.getD_append _ _ _ _ (hlen ▸ hk), bytesLE_getD _ hk, Nat.div_eq_of_lt hk, Nat.mod_eq_of_lt hk]
      apply BitVec.eq_of_toNat_eq
      simp only [BitVec.toNat_ofNat, List.getD_cons_zero, BitVec.extractLsb'_toNat, Nat.shiftRight_eq_div_pow, Nat.pow_mul,
        Nat.reducePow, Nat.mod_mod]
    · rw [List.getD_append_right _ _ _ _ (by rw [hlen]; omega), hlen, ih (by simp only [List.length_cons] at h; omega)]
      obtain ⟨j, rfl⟩ : ∃ j, k = j + 4 := ⟨k - 4, by omega⟩
      simp

theorem get_erase_other {α : Type} [DecidableEq α] (d : Nat → α) (p : Nat → Bool) {k : Nat} (h : p k = false) (m : SMap α) :
    SMap.get d (SMap.erase p m) k = SMap.get d m k := by
  induction m with
  | nil => rfl
  | cons e m ih =>
    obtain ⟨j, v⟩ := e
    by_cases hj : p j
    · have hne : k ≠ j := fun hkj => by
        subst hkj
        exact absurd hj (ne_true_of_eq_false h)
      have hdrop : SMap.erase p ((j, v) :: m) = SMap.erase p m := List.filter_cons_of_neg (by simp [hj])
      rw [hdrop, ih]
      exact (if_neg hne).symm
    · have hkeep : SMap.erase p ((j, v) :: m) = (j, v) :: SMap.erase p m := List.filter_cons_of_pos (by simp [hj])
      rw [hkeep]
      simp only [SMap.get, ih]

/-- Programming ANDs the bytes given into those stored, and leaves the others. -/
theorem get_programBytes (m : SMap Byte) (a : Nat) (l : List Nat) (j : Nat) :
    SMap.get (fun _ => 0xFF) (State.programBytes m a l) j
      = if a ≤ j ∧ j < a + l.length then SMap.get (fun _ => 0xFF) m j &&& BitVec.ofNat 8 (l.getD (j - a) 0)
        else SMap.get (fun _ => 0xFF) m j := by
  induction l generalizing m a with
  | nil =>
    refine (if_neg fun h => ?_).symm
    exact absurd h.2 (Nat.not_lt.mpr h.1)
  | cons b l ih =>
    have hstep : State.programBytes m a (b :: l)
        = State.programBytes (SMap.upd (fun _ => 0xFF) a (· &&& BitVec.ofNat 8 b) m) (a + 1) l := rfl
    rw [hstep, ih]
    by_cases hj : j = a
    · subst hj
      rw [if_neg (by omega), if_pos (by simp), Nat.sub_self]
      exact Sys2Proof.Laws.SMap.get_set_same ..
    · have hother : SMap.get (fun _ => 0xFF) (SMap.upd (fun _ => 0xFF) a (· &&& BitVec.ofNat 8 b) m) j
          = SMap.get (fun _ => 0xFF) m j := Sys2Proof.Laws.SMap.get_set_other _ hj _ _
      rw [hother]
      by_cases hin : a + 1 ≤ j ∧ j < a + 1 + l.length
      · obtain ⟨i, rfl⟩ : ∃ i, j = a + 1 + i := ⟨j - (a + 1), by omega⟩
        rw [if_pos hin, if_pos (by simp only [List.length_cons]; omega), Nat.add_sub_cancel_left,
          show a + 1 + i - a = i + 1 by omega]
        rfl
      · rw [if_neg hin, if_neg (by simp only [List.length_cons]; omega)]


/-! ### Image 1 copied over image 0 (R423) -/

theorem promoted_eq (m : SMap Byte) : State.promoted m =
    ((m.filter fun e => decide (imageSize ≤ e.1 ∧ e.1 < 2 * imageSize)).map fun e => (e.1 - imageSize, e.2))
      ++ SMap.erase (fun k => decide (k < imageSize)) m := by
  have h : (fun e : Nat × Byte => decide (imageSize ≤ e.1)) = fun e => !decide (e.1 < imageSize) := by
    funext e
    rw [← decide_not]
    exact decide_eq_decide.mpr Nat.not_lt.symm
  unfold State.promoted SMap.erase
  rw [h]

theorem get_imageCopy (m r : SMap Byte) (k : Nat) :
    SMap.get (fun _ => 0xFF) (((m.filter fun e => decide (imageSize ≤ e.1 ∧ e.1 < 2 * imageSize)).map
        fun e => (e.1 - imageSize, e.2)) ++ r) k
      = if k < imageSize ∧ m.any (fun e => decide (e.1 = k + imageSize)) then
          SMap.get (fun _ => 0xFF) m (k + imageSize) else SMap.get (fun _ => 0xFF) r k := by
  induction m with
  | nil => simp
  | cons e m ih =>
    obtain ⟨j, v⟩ := e
    by_cases hj : imageSize ≤ j ∧ j < 2 * imageSize
    · rw [List.filter_cons_of_pos (by simpa using hj), List.map_cons, List.cons_append]
      by_cases hk : k = j - imageSize
      · have hin : k < imageSize ∧ ((j, v) :: m).any (fun e => decide (e.1 = k + imageSize)) = true :=
          ⟨by omega, by simp only [List.any_cons, decide_eq_true_eq, Bool.or_eq_true]; omega⟩
        rw [if_pos hin]
        have hkj : k + imageSize = j := by omega
        simp only [SMap.get, if_pos hk, if_pos hkj]
      · have hkj : k + imageSize ≠ j := by omega
        simp only [SMap.get, if_neg hk, if_neg hkj, ih, List.any_cons, decide_eq_false (Ne.symm hkj), Bool.false_or]
    · rw [List.filter_cons_of_neg (by simpa using hj), ih]
      by_cases hk : k < imageSize
      · have hkj : k + imageSize ≠ j := by omega
        simp only [SMap.get, if_neg hkj, List.any_cons, decide_eq_false (Ne.symm hkj), Bool.false_or]
      · simp only [hk, false_and, if_false]

theorem get_promoted (m : SMap Byte) (k : Nat) : SMap.get (fun _ => 0xFF) (State.promoted m) k
    = SMap.get (fun _ => 0xFF) m (if k < imageSize then k + imageSize else k) := by
  rw [promoted_eq, get_imageCopy]
  by_cases hk : k < imageSize
  · rw [if_pos hk]
    split
    · rfl
    next h =>
      rw [get_erase _ _ (decide_eq_true hk)]
      have hnot : k + imageSize ∉ m.map Prod.fst := fun hm => by
        obtain ⟨e, he, hek⟩ := List.mem_map.mp hm
        exact h ⟨hk, List.any_eq_true.mpr ⟨e, he, decide_eq_true hek⟩⟩
      exact (Sys2Proof.Laws.SMap.get_of_notMem (d := fun _ => (0xFF : Byte)) hnot).symm
  · rw [if_neg hk, if_neg fun h => hk h.1, get_erase_other _ _ (decide_eq_false hk)]

namespace State

variable {s t : State}

theorem flashErase_byte (a n k : Nat) : (s.flashErase a n).flashByte k
    = if a / n * n ≤ k ∧ k < a / n * n + n then 0xFF else s.flashByte k := by
  unfold flashErase flashByte
  rw [inc_mgmt]
  dsimp only
  split
  next h => exact get_erase _ _ (decide_eq_true h) _
  next h => exact get_erase_other _ _ (decide_eq_false h) _

theorem flashProgram_byte (a k : Nat) (l : List Nat) : (s.flashProgram a l).flashByte k
    = if a ≤ k ∧ k < a + l.length then s.flashByte k &&& BitVec.ofNat 8 (l.getD (k - a) 0) else s.flashByte k := by
  unfold flashProgram flashByte
  rw [inc_mgmt]
  exact get_programBytes ..

theorem promote_byte (k : Nat) :
    s.promote.flashByte k = if k < imageSize then s.flashByte (k + imageSize) else s.flashByte k := by
  have hp : s.promote.flashByte k = (s.flashErase 0 imageSize).flashByte (if k < imageSize then k + imageSize else k) := by
    unfold promote flashByte
    dsimp only
    rw [inc_mgmt]
    exact get_promoted ..
  rw [hp, flashErase_byte, Nat.zero_div, Nat.zero_mul, if_neg (by split <;> omega)]
  split <;> rfl

theorem flashByte_of (h : t.mgmt.flash = s.mgmt.flash) (k : Nat) : t.flashByte k = s.flashByte k := by
  unfold flashByte
  rw [h]

end State
end Sys2Proof.Machine

namespace Sys2Proof.Machine
open Sys2Proof.Safety State
/-! ### The end of a mailbox command (R422) -/

/-- A part of the state that neither registers nor the mailbox's own bookkeeping touch. -/
structure MailBlind {α : Type} (g : State → α) : Prop where
  wr : ∀ (t : State) a v, g (t.wr a v) = g t
  counted : ∀ (t : State) a n, g (t.counted a n) = g t
  pend : ∀ (t : State) l, g { t with mgmt := { t.mgmt with pend := l } } = g t
  ended : ∀ (t : State) r o, g { t with mgmt := { t.mgmt with run := r, order := o } } = g t

namespace State

variable {s t : State}

/-- MB_OUT of a channel holds these words. -/
def mbOutput (s : State) (ch : Nat) (out : List Word) : State :=
  out.zipIdx.foldl (fun (t : State) e => t.wr (R.MGMT_MB_OUT ch e.2) e.1) s

/-- MB_STAT of a channel shows the result, and that it is done. -/
def mbShown (s : State) (ch result n : Nat) : State :=
  ((((s.put (R.MGMT_MB_STAT ch) F.MGMT_MB_STAT_RESULT result).put (R.MGMT_MB_STAT ch) F.MGMT_MB_STAT_OUT_LEN n).flag
    (R.MGMT_MB_STAT ch) F.MGMT_MB_STAT_BUSY false).flag (R.MGMT_MB_STAT ch) F.MGMT_MB_STAT_DONE true)

/-- No command of the channel runs. -/
def mbIdle (s : State) (ch : Nat) : State :=
  { s with mgmt := { s.mgmt with
      run := SMap.set (fun _ => none) ch none s.mgmt.run, order := s.mgmt.order.filter (· ≠ ch) } }

/-- The command is counted, also as refused. -/
def mbTallied (s : State) (result : Nat) : State :=
  if result = 0 then s.inc R.MGMT_COMMANDS else (s.inc R.MGMT_COMMANDS).inc R.MGMT_MB_REFUSED

/-- The channel's message is requested. -/
def mbMessage (s : State) (ch : Nat) : State :=
  if s.on R.MGMT_MB_IRQ (if ch = 0 then F.MGMT_MB_IRQ_IRQ_EN0 else F.MGMT_MB_IRQ_IRQ_EN1) then
    s.msixRequest (s.fld R.MGMT_MB_IRQ F.MGMT_MB_IRQ_VECTOR)
  else s

theorem mbFinish_eq (ch result : Nat) (out : List Word) : s.mbFinish ch result out
    = ((((s.mbOutput ch out).mbShown ch result out.length).mbIdle ch).mbTallied result).mbMessage ch := rfl

end State

namespace MailBlind

variable {α : Type} {g : State → α} (hg : MailBlind g) (s : State)
include hg

theorem inc (a n : Nat) : g (s.inc a n) = g s := by
  unfold State.inc
  split
  · rfl
  · rw [hg.counted, hg.wr]

theorem mbOutput (ch : Nat) (out : List Word) : g (s.mbOutput ch out) = g s := foldl_blind (fun _ _ => hg.wr ..) _ _

theorem mbShown (ch r n : Nat) : g (s.mbShown ch r n) = g s :=
  (hg.wr ..).trans ((hg.wr ..).trans ((hg.wr ..).trans (hg.wr ..)))

theorem mbTallied (r : Nat) : g (s.mbTallied r) = g s := by
  unfold State.mbTallied
  split
  · exact hg.inc ..
  · exact (hg.inc ..).trans (hg.inc ..)

theorem msixRequest (v : Nat) : g (s.msixRequest v) = g s := by
  unfold State.msixRequest
  dsimp only
  split
  · exact hg.inc ..
  · split
    · rfl
    · exact hg.pend s _

theorem mbMessage (ch : Nat) : g (s.mbMessage ch) = g s := by
  unfold State.mbMessage
  generalize (if ch = 0 then _ else _) = f
  split
  · exact hg.msixRequest ..
  · rfl

theorem mbFinish (ch r : Nat) (out : List Word) : g (s.mbFinish ch r out) = g s := by
  rw [mbFinish_eq, hg.mbMessage, hg.mbTallied]
  exact (hg.ended _ _ _).trans ((hg.mbShown ..).trans (hg.mbOutput ..))

end MailBlind

theorem mailBlind_mem : MailBlind fun s => (s.dram, s.cache, s.wdb, s.place, s.otp, s.mgmt.flash) :=
  ⟨fun _ _ _ => rfl, fun _ _ _ => by simp, fun _ _ => rfl, fun _ _ _ => rfl⟩

theorem mailBlind_mgmt : MailBlind fun s => (s.mgmt.verified, s.mgmt.nonce) :=
  ⟨fun _ _ _ => rfl, fun _ _ _ => by simp, fun _ _ => rfl, fun _ _ _ => rfl⟩

theorem mailBlind_sec : MailBlind (·.sec) :=
  ⟨fun _ _ _ => rfl, fun _ _ _ => by simp, fun _ _ => rfl, fun _ _ _ => rfl⟩

namespace State

variable {s t : State} (ch : Fin 2) (result : Nat) (out : List Word)

theorem mbFinish_memKept : MemKept s (s.mbFinish ch result out) := by
  have h := mailBlind_mem.mbFinish s ch result out
  simp only [Prod.mk.injEq] at h
  obtain ⟨hdram, hcache, hwdb, hplace, hotp, hflash⟩ := h
  exact ⟨hdram, hcache, hwdb, hplace, hotp, hflash⟩

theorem mbTallied_mgmt : (s.mbTallied result).mgmt = s.mgmt := by
  unfold mbTallied
  split <;> simp

theorem msixRequest_rd (v : Nat) {a : Nat} (h : a ≠ R.PCIEM_MSIX_SENT) : (s.msixRequest v).rd a = s.rd a := by
  unfold msixRequest
  dsimp only
  split
  · exact (rd_inc ..).trans (if_neg h)
  · split <;> rfl

theorem mbMessage_rd {a : Nat} (h : a ≠ R.PCIEM_MSIX_SENT) : (s.mbMessage ch).rd a = s.rd a := by
  unfold mbMessage
  generalize (if ch.val = 0 then _ else _) = f
  split
  · exact msixRequest_rd _ h
  · rfl

theorem mbMessage_run : (s.mbMessage ch).mgmt.run = s.mgmt.run ∧ (s.mbMessage ch).mgmt.order = s.mgmt.order := by
  have hreq : ∀ v, (s.msixRequest v).mgmt.run = s.mgmt.run ∧ (s.msixRequest v).mgmt.order = s.mgmt.order := fun v => by
    unfold msixRequest
    dsimp only
    split
    · simp
    · split <;> exact ⟨rfl, rfl⟩
  unfold mbMessage
  generalize (if ch.val = 0 then _ else _) = f
  split
  · exact hreq _
  · exact ⟨rfl, rfl⟩

theorem mbTallied_rd {a : Nat} (h : a ≠ R.MGMT_COMMANDS) (h' : a ≠ R.MGMT_MB_REFUSED) :
    (s.mbTallied result).rd a = s.rd a := by
  unfold mbTallied
  split
  · exact (rd_inc ..).trans (if_neg h)
  · rw [rd_inc, if_neg h', rd_inc, if_neg h]

theorem mbTallied_commands : (s.mbTallied result).rd R.MGMT_COMMANDS = s.rd R.MGMT_COMMANDS + 1 := by
  unfold mbTallied
  split
  · exact (rd_inc ..).trans (if_pos rfl)
  · rw [rd_inc, if_neg (by decide), rd_inc, if_pos rfl]
    rfl

theorem mbIdle_rd (a : Nat) : (s.mbIdle ch).rd a = s.rd a := rfl

theorem mbIdle_idle : SMap.get (fun _ => none) (s.mbIdle ch).mgmt.run ch.val = none ∧ ch.val ∉ (s.mbIdle ch).mgmt.order := by
  have hrun : (s.mbIdle ch).mgmt.run = SMap.set (fun _ => none) ch.val none s.mgmt.run := rfl
  rw [hrun]
  refine ⟨Sys2Proof.Laws.SMap.get_set_same _ _ _ _, fun h => ?_⟩
  have := (List.mem_filter.mp h).2
  simp at this

theorem mbShown_rd (r n : Nat) {a : Nat} (h : a ≠ R.MGMT_MB_STAT ch) : (s.mbShown ch r n).rd a = s.rd a := by
  unfold mbShown
  rw [rd_flag, if_neg h, rd_flag, if_neg h, rd_put, if_neg h, rd_put, if_neg h]

theorem mbShown_stat {r : Nat} (n : Nat) (hr : r < 256) :
    (s.mbShown ch r n).fld (R.MGMT_MB_STAT ch) F.MGMT_MB_STAT_RESULT = r ∧
    (s.mbShown ch r n).on (R.MGMT_MB_STAT ch) F.MGMT_MB_STAT_BUSY = false ∧
    (s.mbShown ch r n).on (R.MGMT_MB_STAT ch) F.MGMT_MB_STAT_DONE = true := by
  unfold mbShown
  refine ⟨?_, ?_, on_flag_same _ _ _ _ (by decide) rfl⟩
  · rw [fld_flag_other _ _ _ _ _ _ (.inr (by decide)), fld_flag_other _ _ _ _ _ _ (.inr (by decide)),
      fld_put_other _ _ _ _ _ _ (.inr (by decide)), fld_put_same _ _ _ _ (by decide)]
    exact Nat.mod_eq_of_lt hr
  · rw [on_flag_other _ _ _ _ _ _ (.inr (by decide)), on_flag_same _ _ _ _ (by decide) rfl]

theorem mbOutput_rd {a : Nat} (h : ∀ i < out.length, a ≠ R.MGMT_MB_OUT ch i) : (s.mbOutput ch out).rd a = s.rd a := by
  unfold mbOutput
  refine foldl_blind_mem (g := fun t : State => t.rd a) _ (fun e he t => ?_) s
  refine rd_wr_other _ _ _ _ (h _ ?_)
  have := List.snd_lt_of_mem_zipIdx he
  omega

/-- The registers beside MB_OUT that the end of a command writes. -/
theorem mbStat_ne : R.MGMT_MB_STAT ch ≠ R.MGMT_COMMANDS ∧ R.MGMT_MB_STAT ch ≠ R.MGMT_MB_REFUSED ∧
    R.MGMT_MB_STAT ch ≠ R.PCIEM_MSIX_SENT := by revert ch; decide

theorem mbFinish_stat {r : Nat} (hr : r < 256) :
    (s.mbFinish ch r out).fld (R.MGMT_MB_STAT ch) F.MGMT_MB_STAT_RESULT = r ∧ (s.mbFinish ch r out).mbBusy ch = false ∧
    (s.mbFinish ch r out).on (R.MGMT_MB_STAT ch) F.MGMT_MB_STAT_DONE = true := by
  obtain ⟨hc, hf, hm⟩ := mbStat_ne ch
  have hrd : (s.mbFinish ch r out).rd (R.MGMT_MB_STAT ch)
      = ((s.mbOutput ch out).mbShown ch r out.length).rd (R.MGMT_MB_STAT ch) := by
    rw [mbFinish_eq, mbMessage_rd ch hm, mbTallied_rd r hc hf, mbIdle_rd]
  obtain ⟨hres, hbusy, hdone⟩ := mbShown_stat (s := s.mbOutput ch out) ch out.length hr
  exact ⟨(fld_eq_of_rd hrd _).trans hres, (on_eq_of_rd hrd _).trans hbusy, (on_eq_of_rd hrd _).trans hdone⟩

theorem mbFinish_commands (ho : out.length ≤ 32) :
    (s.mbFinish ch result out).rd R.MGMT_COMMANDS = s.rd R.MGMT_COMMANDS + 1 := by
  rw [mbFinish_eq, mbMessage_rd ch (by decide), mbTallied_commands, mbIdle_rd]
  refine congrArg (· + 1) ((mbShown_rd ch _ _ (mbStat_ne ch).1.symm).trans (mbOutput_rd ch out fun i hi => ?_))
  have := ch.isLt
  simp only [R.MGMT_COMMANDS, R.MGMT_MB_OUT]
  omega

theorem mbFinish_out {i : Nat} (hi : i < out.length) (ho : out.length ≤ 32) :
    (s.mbFinish ch result out).rd (R.MGMT_MB_OUT ch i) = (s.mbOutput ch out).rd (R.MGMT_MB_OUT ch i) := by
  have hch := ch.isLt
  have hne : ∀ b ∈ [R.PCIEM_MSIX_SENT, R.MGMT_COMMANDS, R.MGMT_MB_REFUSED], R.MGMT_MB_OUT ch i ≠ b := by
    intro b hb
    simp only [List.mem_cons, List.not_mem_nil, or_false, R.PCIEM_MSIX_SENT, R.MGMT_COMMANDS, R.MGMT_MB_REFUSED] at hb
    simp only [R.MGMT_MB_OUT]
    omega
  have hstat : R.MGMT_MB_OUT ch i ≠ R.MGMT_MB_STAT ch := by
    simp only [R.MGMT_MB_OUT, R.MGMT_MB_STAT]
    omega
  rw [mbFinish_eq, mbMessage_rd ch (hne _ (by simp)), mbTallied_rd _ (hne _ (by simp)) (hne _ (by simp)), mbIdle_rd]
  exact mbShown_rd ch _ _ hstat

theorem mbFinish_idle : SMap.get (fun _ => none) (s.mbFinish ch result out).mgmt.run ch.val = none ∧
    ch.val ∉ (s.mbFinish ch result out).mgmt.order := by
  rw [mbFinish_eq]
  obtain ⟨hrun, horder⟩ := mbMessage_run
    (s := ((((s.mbOutput ch out).mbShown ch result out.length).mbIdle ch).mbTallied result)) ch
  rw [hrun, horder, mbTallied_mgmt]
  exact mbIdle_idle ch

end State
end Sys2Proof.Machine

namespace Sys2Proof.Machine
open Sys2Proof.Safety State
/-! ### What a mailbox command does (R423, R424) -/

theorem wordsOfBytes_length (n : Nat) (l : List Nat) : (State.wordsOfBytes n l).length = n := by
  induction n generalizing l with
  | zero => rfl
  | succ n ih => simp [State.wordsOfBytes, ih]

/-- A command leaves the state, or does one of these. -/
theorem State.mbRun_induction (s : State) {P : Nat × List Word × State → Prop} (ch op : Nat) (ok : Bool)
    (same : ∀ n l, n < 256 → l.length ≤ 32 → P (n, l, s)) (read : ∀ l n, l.length ≤ 32 → P (0, l, s.flashRead n))
    (erase : P (0, [], s.imageErase)) (fault : P (5, [], s.flashFault))
    (write : ∀ a l, P ((s.imageWrite a l ok).1, [], (s.imageWrite a l ok).2))
    (verify : ∀ l b, l.length ≤ 32 → P (0, l, (s.flashRead imageSize).setVerified b))
    (promote : P ((s.imagePromote ok).1, [], (s.imagePromote ok).2))
    (challenge : P (0, s.lifeChallenge.1, s.lifeChallenge.2))
    (advance : P ((s.lifeAdvance ch).1, [], (s.lifeAdvance ch).2)) : P (s.mbRun ch op ok) := by
  have hword (l : List Nat) : (wordsOfBytes 32 l).length ≤ 32 := (wordsOfBytes_length ..).le
  have hshort (l : List Nat) : (wordsOfBytes 16 l).length ≤ 32 := (wordsOfBytes_length ..).le.trans (by decide)
  have hnone {n : Nat} (hn : n < 256) : P (n, [], s) := same n [] hn (Nat.zero_le _)
  unfold mbRun
  refine iteInduction (fun _ => same _ _ (by decide) (by simp [mbInfo])) fun _ => ?_
  refine iteInduction (fun _ => hnone (by decide)) fun _ => ?_
  refine iteInduction (fun _ => iteInduction (fun _ => read _ _ (hword _)) fun _ => hnone (by decide)) fun _ => ?_
  refine iteInduction (fun _ => iteInduction (fun _ => read _ _ (hword _)) fun _ => hnone (by decide)) fun _ => ?_
  refine iteInduction (fun _ => iteInduction (fun _ => erase) fun _ => fault) fun _ => ?_
  refine iteInduction (fun _ => write _ _) fun _ => ?_
  refine iteInduction (fun _ => verify _ _ (by simp)) fun _ => ?_
  refine iteInduction (fun _ => promote) fun _ => ?_
  refine iteInduction (fun _ => iteInduction (fun _ => hnone (by decide)) fun _ =>
    iteInduction (fun _ => same _ _ (by decide) (hshort _)) fun _ => hnone (by decide)) fun _ => ?_
  refine iteInduction (fun _ => challenge) fun _ => ?_
  exact iteInduction (fun _ => advance) fun _ => hnone (by decide)

/-- A part of the state outside the management port, the OTP and the security state, blind to every register but the count
of commands. -/
structure RunBlind {α : Type} (g : State → α) : Prop where
  wr : ∀ (t : State) a v, a ≠ R.MGMT_COMMANDS → g (t.wr a v) = g t
  counted : ∀ (t : State) a n, g (t.counted a n) = g t
  mgmt : ∀ (t : State) m, g { t with mgmt := m } = g t
  sec : ∀ (t : State) x, g { t with sec := x } = g t
  otp : ∀ (t : State) x, g { t with otp := x } = g t

namespace RunBlind

variable {α : Type} {g : State → α} (hg : RunBlind g) (s : State)
include hg

theorem inc {a : Nat} (n : Nat) (h : a ≠ R.MGMT_COMMANDS) : g (s.inc a n) = g s := by
  unfold State.inc
  split
  · rfl
  · rw [hg.counted, hg.wr _ _ _ h]

theorem flashRead (n : Nat) : g (s.flashRead n) = g s := (hg.inc _ _ (by decide)).trans (hg.mgmt s _)

theorem flashErase (a n : Nat) : g (s.flashErase a n) = g s := (hg.inc _ _ (by decide)).trans (hg.mgmt s _)

theorem flashProgram (a : Nat) (l : List Nat) : g (s.flashProgram a l) = g s :=
  (hg.inc _ _ (by decide)).trans (hg.mgmt s _)

theorem flashFault : g s.flashFault = g s := hg.inc _ _ (by decide)

theorem setVerified (b : Bool) : g (s.setVerified b) = g s := hg.mgmt s _

theorem imageWrite (off : Nat) (l : List Nat) (ok : Bool) : g (s.imageWrite off l ok).2 = g s := by
  unfold State.imageWrite
  dsimp only
  split
  · rfl
  · split
    · rfl
    · split
      · exact (hg.flashProgram ..).trans (hg.setVerified ..)
      · exact (hg.flashFault _).trans (hg.setVerified ..)

theorem promote : g s.promote = g s :=
  (hg.inc _ _ (by decide)).trans ((hg.mgmt _ _).trans (hg.flashErase ..))

theorem imagePromote (ok : Bool) : g (s.imagePromote ok).2 = g s := by
  unfold State.imagePromote
  split
  · rfl
  · split
    · exact hg.promote _
    · exact (hg.flashFault _).trans (hg.flashErase ..)

theorem progStart (allowed : Bool) (ws : List (Nat × Word)) : g (s.progStart allowed ws) = g s := by
  have hres (n : Nat) : g (s.setResult n) = g s := hg.wr _ _ _ (by decide)
  unfold State.progStart
  split
  · exact hres 2
  · split
    · exact hres 3
    · split
      · exact hres 5
      · split
        · exact hres 4
        · exact (hg.wr _ _ _ (by decide)).trans (hg.otp s _)

theorem repairAppend : g s.repairAppend = g s := by
  unfold State.repairAppend
  split
  · rfl
  · dsimp only
    split
    · rfl
    · exact (hg.wr _ _ _ (by decide)).trans (hg.otp s _)

theorem progFirst (key : BitVec 16) {go : State → State} (h : ∀ t, g (go t) = g t) : g (s.progFirst key go) = g s := by
  unfold State.progFirst
  split
  · rfl
  · dsimp only
    split
    · exact hg.repairAppend s
    · exact (h _).trans (hg.repairAppend s)

theorem lifeNext (key : BitVec 16) : g (s.lifeNext key) = g s := hg.progFirst s key fun _ => hg.progStart ..
theorem lifeVoid (key : BitVec 16) : g (s.lifeVoid key) = g s := hg.progFirst s key fun _ => hg.progStart ..

theorem lifeAdvance (ch : Nat) : g (s.lifeAdvance ch).2 = g s := by
  have hgo (u : State) : g { u with mgmt := { u.mgmt with nonce := none } } = g u := hg.mgmt u _
  unfold State.lifeAdvance
  dsimp only
  split
  · exact hgo s
  · split
    · exact hgo s
    · split
      · exact hgo s
      · generalize hu : (if (s.mbIn ch 0).toNat = 5 then _ else _ : State) = u
        have : g u = g s := by
          rw [← hu]
          split
          · exact (hg.lifeVoid ..).trans (hgo s)
          · exact (hg.lifeNext ..).trans (hgo s)
        split <;> exact this

theorem mbRun (ch op : Nat) (ok : Bool) : g (s.mbRun ch op ok).2.2 = g s :=
  s.mbRun_induction (P := fun r => g r.2.2 = g s) ch op ok (fun _ _ _ _ => rfl) (fun _ _ _ => hg.flashRead ..)
    ((hg.setVerified ..).trans (hg.flashErase ..)) (hg.flashFault s) (fun _ _ => hg.imageWrite ..)
    (fun _ _ _ => (hg.setVerified ..).trans (hg.flashRead ..)) (hg.imagePromote ..) ((hg.mgmt s.drawn _).trans (hg.sec s _))
    (hg.lifeAdvance ..)

end RunBlind

theorem runBlind_mem : RunBlind fun s => (s.dram, s.cache, s.place, s.rd R.MGMT_COMMANDS) :=
  ⟨fun t a v h => by rw [rd_wr_other _ _ _ _ h.symm]; rfl, fun _ _ _ => by simp, fun _ _ => rfl, fun _ _ => rfl, fun _ _ => rfl⟩

namespace State

variable {s t : State} {ok : Bool}

/-- A command answers at most 32 words, and a result of 8 bits. -/
theorem mbRun_bounds (ch op : Nat) : (s.mbRun ch op ok).1 < 256 ∧ (s.mbRun ch op ok).2.1.length ≤ 32 := by
  have h0 : 0 < 256 := by decide
  have h2 : 2 < 256 := by decide
  have h3 : 3 < 256 := by decide
  have h4 : 4 < 256 := by decide
  have h5 : 5 < 256 := by decide
  refine s.mbRun_induction (P := fun r => r.1 < 256 ∧ r.2.1.length ≤ 32) ch op ok (fun _ _ hn hl => ⟨hn, hl⟩)
    (fun _ _ hl => ⟨h0, hl⟩) ⟨h0, Nat.zero_le _⟩ ⟨h5, Nat.zero_le _⟩ (fun a l => ⟨?_, by simp⟩)
    (fun _ _ hl => ⟨h0, hl⟩) ⟨?_, by simp⟩ ⟨h0, ?_⟩ ⟨?_, by simp⟩
  · unfold imageWrite
    refine iteInduction (motive := fun r : Nat × State => r.1 < 256) (fun _ => h2) fun _ => ?_
    refine iteInduction (motive := fun r : Nat × State => r.1 < 256) (fun _ => h5) fun _ => ?_
    exact iteInduction (motive := fun r : Nat × State => r.1 < 256) (fun _ => h0) fun _ => h5
  · unfold imagePromote
    refine iteInduction (motive := fun r : Nat × State => r.1 < 256) (fun _ => h3) fun _ => ?_
    exact iteInduction (motive := fun r : Nat × State => r.1 < 256) (fun _ => h0) fun _ => h5
  · exact (wordsOfBytes_length ..).le.trans (by decide)
  · unfold lifeAdvance
    refine iteInduction (motive := fun r : Nat × State => r.1 < 256) (fun _ => h3) fun _ => ?_
    refine iteInduction (motive := fun r : Nat × State => r.1 < 256) (fun _ => h3) fun _ => ?_
    refine iteInduction (motive := fun r : Nat × State => r.1 < 256) (fun _ => h4) fun _ => ?_
    exact iteInduction (motive := fun r : Nat × State => r.1 < 256) (fun _ => h0) fun _ => h3

theorem mbRun_down (ch : Nat) {op : Nat} (hf : s.fwRunning = false) (hop : op ≠ 1) : s.mbRun ch op ok = (6, [], s) := by
  unfold mbRun
  dsimp only
  rw [if_neg hop, hf]
  rfl

theorem mbRun_info (ch : Nat) : s.mbRun ch 1 ok = (0, s.mbInfo, s) := rfl

theorem mbRun_erase (ch : Nat) (hf : s.fwRunning = true) : s.mbRun ch 4 true = (0, [], s.imageErase) := by
  simp [mbRun, hf]

theorem mbRun_write (ch : Nat) (hf : s.fwRunning = true) : s.mbRun ch 5 ok =
    ((s.imageWrite (s.mbIn ch 0).toNat (wordBytes ((List.range 16).map fun i => s.mbIn ch (1 + i))) ok).1, [],
      (s.imageWrite (s.mbIn ch 0).toNat (wordBytes ((List.range 16).map fun i => s.mbIn ch (1 + i))) ok).2) := by
  simp [mbRun, hf]

theorem mbRun_promote (ch : Nat) (hf : s.fwRunning = true) :
    s.mbRun ch 7 ok = ((s.imagePromote ok).1, [], (s.imagePromote ok).2) := by
  simp [mbRun, hf]

theorem mbRun_challenge (ch : Nat) (hf : s.fwRunning = true) :
    s.mbRun ch 9 ok = (0, s.lifeChallenge.1, s.lifeChallenge.2) := by
  simp [mbRun, hf]

theorem mailboxDone_eq {ch op : Nat} (hg : s.gondolaUp = true) (hr : SMap.get (fun _ => none) s.mgmt.run ch = some op)
    (ho : mbFlash op = false ∨ s.mgmt.order.head? = some ch) :
    s.mailboxDone ch ok = (s.mbRun ch op ok).2.2.mbFinish ch (s.mbRun ch op ok).1 (s.mbRun ch op ok).2.1 := by
  have hgo : (!s.gondolaUp || (mbFlash op && s.mgmt.order.head? != some ch)) = false := by
    rw [hg]
    rcases ho with h | h <;> simp [h]
  unfold mailboxDone
  rw [hr]
  dsimp only
  rw [hgo, if_neg (by decide)]

theorem imageErase_spec (k : Nat) : s.imageErase.flashByte k
      = (if imageSize ≤ k ∧ k < 2 * imageSize then 255 else s.flashByte k) ∧ s.imageErase.mgmt.verified = false := by
  have hbyte : s.imageErase.flashByte k = (s.flashErase imageSize imageSize).flashByte k := flashByte_of rfl k
  rw [hbyte, flashErase_byte, Nat.div_self (by decide), Nat.one_mul, Nat.two_mul]
  exact ⟨rfl, rfl⟩

theorem imageWrite_erased {o : Nat} (l : List Nat) (ha : o % 64 = 0) (ho : o < imageSize)
    (he : ∀ i ∈ List.range 64, s.flashByte (imageSize + o + i) = 255) :
    s.imageWrite o l true = (0, (s.setVerified false).flashProgram (imageSize + o) l) := by
  have hblank : (s.flashBytes (imageSize + o) 64).any (· != 255) = false := by
    refine List.any_eq_false.mpr fun b hb => ?_
    obtain ⟨i, hi, rfl⟩ := List.mem_map.mp hb
    rw [he i hi]
    decide
  unfold imageWrite
  rw [if_neg (by omega), hblank]
  rfl

theorem imageProgram_byte {o j : Nat} {l : List Word} (hl : l.length = 16)
    (he : ∀ i ∈ List.range 64, s.flashByte (imageSize + o + i) = 255) :
    ((s.setVerified false).flashProgram (imageSize + o) (wordBytes l)).flashByte j
      = if imageSize + o ≤ j ∧ j < imageSize + o + 64 then
          (l.getD ((j - imageSize - o) / 4) 0).extractLsb' (8 * ((j - imageSize - o) % 4)) 8 else s.flashByte j := by
  rw [flashProgram_byte, wordBytes_length, hl]
  split
  next h =>
    obtain ⟨i, rfl⟩ : ∃ i, j = imageSize + o + i := ⟨j - (imageSize + o), by omega⟩
    have hi : i < 64 := by omega
    have hbyte : (s.setVerified false).flashByte (imageSize + o + i) = 255#8 := he i (List.mem_range.mpr hi)
    rw [hbyte, Nat.add_sub_cancel_left, wordBytes_getD l (by omega), show imageSize + o + i - imageSize - o = i by omega]
    exact BitVec.allOnes_and
  · rfl

theorem lifeChallenge_spec : s.lifeChallenge.2.mgmt.nonce = some ((Config.random s.sec.draws).extractLsb' 0 256) ∧
    s.lifeChallenge.2.sec.draws = s.sec.draws + 1 ∧ MemKept s s.lifeChallenge.2 :=
  ⟨rfl, rfl, rfl, rfl, rfl, rfl, rfl, rfl⟩

theorem setVerified_verified (b : Bool) : (s.setVerified b).mgmt.verified = b := rfl

theorem flashProgram_verified (a : Nat) (l : List Nat) : (s.flashProgram a l).mgmt.verified = s.mgmt.verified := by
  unfold flashProgram
  rw [inc_mgmt]

theorem mbFinish_mgmt (ch r : Nat) (out : List Word) : (s.mbFinish ch r out).mgmt.verified = s.mgmt.verified ∧
    (s.mbFinish ch r out).mgmt.nonce = s.mgmt.nonce := by
  have h := mailBlind_mgmt.mbFinish s ch r out
  simp only [Prod.mk.injEq] at h
  exact h

/-- The words 0 and 3 of GET_INFO. -/
theorem mbOutput_info (ch : Nat) : (s.mbOutput ch s.mbInfo).rd (R.MGMT_MB_OUT ch 0)
      = (if s.fwRunning then s.mgmt.fwVersion else 0) ∧
    (s.mbOutput ch s.mbInfo).rd (R.MGMT_MB_OUT ch 3) = BitVec.ofNat 32 s.mgmt.flashKiB := by
  unfold mbInfo mbOutput
  simp only [List.zipIdx_cons, List.zipIdx_nil, List.foldl_cons, List.foldl_nil, rd_wr, R.MGMT_MB_OUT]
  constructor
  · simp
  · simp

end State
end Sys2Proof.Machine

namespace Sys2Proof.Machine
open Sys2Proof.Safety State
namespace State

variable {s t : State} {ok : Bool}

/-! ### The event log (R420) -/

/-- The entry is programmed, and the log stands at its next position. -/
def logStored (s : State) (i : LogItem) : State :=
  (s.flashProgram (logAddr s.logNext) (logBytes s.mgmt.logSeq i)).logAdvance

/-- The entry no longer waits. -/
def logTaken (s : State) (i : LogItem) : State :=
  { s with mgmt := { s.mgmt with logSeq := s.mgmt.logSeq + 1, logQ := s.mgmt.logQ.erase i } }

theorem eventLogWrite_eq {i : LogItem} (ho : s.logOpen = true) (hh : s.logHead = some i) (hn : s.logNext % 32 ≠ 0) :
    s.eventLogWrite true = (s.logStored i).logTaken i := by
  have herase : s.logErase = s := if_neg fun h => hn h.1
  unfold eventLogWrite logWrite
  rw [if_pos ho, hh]
  dsimp only
  rw [herase]
  rfl

theorem mgmt_regsKept (m : MgmtState) : RegsKept s { s with mgmt := m } [] [] := fun _ _ _ => rfl

theorem flashProgram_logKept (a : Nat) (l : List Nat) : (s.flashProgram a l).mgmt.logQ = s.mgmt.logQ ∧
    (s.flashProgram a l).mgmt.logAt = s.mgmt.logAt ∧ RegsKept s (s.flashProgram a l) [] [R.SPI_PROGRAMS] := by
  unfold flashProgram
  rw [inc_mgmt]
  exact ⟨rfl, rfl, ((mgmt_regsKept _).mono (fun _ => id) (by simp)).inc _ (by simp)⟩

theorem logAdvance_spec : s.logAdvance.mgmt.logQ = s.mgmt.logQ ∧ s.logAdvance.mgmt.flash = s.mgmt.flash ∧
    s.logAdvance.logNext = (s.mgmt.logAt + 1) % logEntries ∧ RegsKept s s.logAdvance [] [R.SPI_LOG_NEXT] := by
  unfold logAdvance showLogNext
  exact ⟨rfl, rfl, rfl, ((mgmt_regsKept _).mono (fun _ => id) (by simp)).put _ _ (by simp)⟩

theorem logTaken_spec (i : LogItem) : (s.logTaken i).mgmt.logQ = s.mgmt.logQ.erase i ∧
    (s.logTaken i).mgmt.flash = s.mgmt.flash ∧ (s.logTaken i).logNext = s.logNext ∧ (s.logTaken i).regs = s.regs :=
  ⟨rfl, rfl, rfl, rfl⟩

theorem logBytes_length (seq : Nat) (i : LogItem) : (logBytes seq i).length = 128 := by
  simp [logBytes, bytesLE_length]

theorem logStored_spec (i : LogItem) : (s.logStored i).mgmt.logQ = s.mgmt.logQ ∧
    (s.logStored i).logNext = (s.logNext + 1) % logEntries ∧
    RegsKept s (s.logStored i) [] [R.SPI_LOG_NEXT, R.SPI_PROGRAMS] := by
  obtain ⟨hq, hat, hregs⟩ := flashProgram_logKept (s := s) (logAddr s.logNext) (logBytes s.mgmt.logSeq i)
  unfold logStored
  generalize s.flashProgram (logAddr s.logNext) (logBytes s.mgmt.logSeq i) = u at hq hat hregs ⊢
  obtain ⟨aq, -, anext, aregs⟩ := logAdvance_spec (s := u)
  refine ⟨aq.trans hq, anext.trans (by rw [hat]; rfl), ?_⟩
  exact (hregs.mono (fun _ => id) (by simp)).trans (aregs.mono (fun _ => id) (by simp))

theorem logStored_byte (i : LogItem) {a : Nat} (ha : ¬(logAddr s.logNext ≤ a ∧ a < logAddr s.logNext + 128)) :
    (s.logStored i).flashByte a = s.flashByte a := by
  have hb : (s.logStored i).flashByte a
      = (s.flashProgram (logAddr s.logNext) (logBytes s.mgmt.logSeq i)).flashByte a := flashByte_of logAdvance_spec.2.1 a
  rw [hb, flashProgram_byte, logBytes_length, if_neg ha]

/-! ### A message that was pending (R416) -/

/-- The vector is no longer pending. -/
def msixTaken (s : State) (v : Nat) : State := { s with mgmt := { s.mgmt with pend := s.mgmt.pend.erase v } }

theorem msixSend_eq {v : Nat} (hp : v ∈ s.mgmt.pend) (ho : s.msixOpen v = true) :
    s.msixSend v = (s.msixTaken v).inc R.PCIEM_MSIX_SENT := by
  refine if_pos ?_
  rw [ho, List.contains_iff_mem.mpr hp]
  rfl

theorem msixTaken_spec (v : Nat) : (s.msixTaken v).mgmt.pend = s.mgmt.pend.erase v ∧ (s.msixTaken v).regs = s.regs ∧
    MemKept s (s.msixTaken v) := ⟨rfl, rfl, rfl, rfl, rfl, rfl, rfl, rfl⟩

/-! ### The raw path (R421) -/

theorem regSet_raw {w : RegWrite} (ho : Open s w.path R.SPI_RAW_CMD) : ∃ v,
    s.regSet w R.SPI_RAW_CMD F.SPI_RAW_CMD_START = s.rawCmd v ∧ F.SPI_RAW_CMD_START.get v = 1 ∧
      F.SPI_RAW_CMD_OPCODE.get v = F.SPI_RAW_CMD_OPCODE.get w.value ∧
      F.SPI_RAW_CMD_ADDR_EN.get v = F.SPI_RAW_CMD_ADDR_EN.get w.value := by
  refine ⟨F.SPI_RAW_CMD_START.set 1 w.value &&& 0x80FFFFFF#32, ?_, ?_, ?_, ?_⟩
  · unfold regSet
    rw [regCmd_plain (m := 0) (c := 0x80FFFFFF#32) _ ho (by decide) rfl rfl]
    have hoff : offOf R.SPI_RAW_CMD = 0x4C := by decide
    rw [regEffect_spi (by decide) (by decide), hoff, afterWrite_self (by decide)]
    rfl
  · rw [Fld.get_and _ (by decide)]
    exact Fld.get_set _ _ _ (by decide)
  · rw [Fld.get_and _ (by decide)]
    exact Fld.get_set_other _ _ _ _ (by decide)
  · rw [Fld.get_and _ (by decide)]
    exact Fld.get_set_other _ _ _ _ (by decide)

theorem rawCmd_closed (v : Word) (h : s.rawActive = false) : s.rawCmd v = s := by
  unfold rawCmd
  rw [h, Bool.not_false, Bool.or_true, if_pos rfl]

/-- The command shows that it is done. -/
def rawDone (s : State) : State := s.flag R.SPI_SPI_STAT F.SPI_SPI_STAT_RAW_DONE true

theorem rawCmd_erase {v : Word} (hs : F.SPI_RAW_CMD_START.get v = 1) (hr : s.rawActive = true)
    (hop : F.SPI_RAW_CMD_OPCODE.get v = 0x20) (ha : F.SPI_RAW_CMD_ADDR_EN.get v = 1) (hw : s.mgmt.wren = true) :
    s.rawCmd v = ((s.rawDone.flashErase s.rawAddr 4096).touchImage (s.rawAddr / 4096 * 4096) 4096).setWren false := by
  simp [rawCmd, hs, hr, hop, ha, hw, rawDone]

theorem rawCmd_wren {v : Word} (hs : F.SPI_RAW_CMD_START.get v = 1) (hr : s.rawActive = true)
    (hop : F.SPI_RAW_CMD_OPCODE.get v = 6) : s.rawCmd v = s.rawDone.setWren true := by
  simp [rawCmd, hs, hr, hop, rawDone]

theorem touchImage_spec (a n : Nat) : (s.touchImage a n).regs = s.regs ∧ MemKept s (s.touchImage a n) := by
  unfold touchImage
  split
  · exact ⟨rfl, rfl, rfl, rfl, rfl, rfl, rfl⟩
  · exact ⟨rfl, .refl s⟩

theorem setWren_spec (b : Bool) : (s.setWren b).regs = s.regs ∧ (s.setWren b).mgmt.wren = b ∧ MemKept s (s.setWren b) :=
  ⟨rfl, rfl, rfl, rfl, rfl, rfl, rfl, rfl⟩

theorem flashErase_regsKept (a n : Nat) : (s.flashErase a n).dram = s.dram ∧ (s.flashErase a n).otp = s.otp ∧
    RegsKept s (s.flashErase a n) [] [R.SPI_ERASES] := by
  unfold flashErase
  rw [inc_dram, inc_otp]
  exact ⟨rfl, rfl, ((mgmt_regsKept _).mono (fun _ => id) (by simp)).inc _ (by simp)⟩

end State
end Sys2Proof.Machine

namespace Sys2Proof.Safety
open Sys2Proof.Machine Sys2Proof.Machine.State

variable {s : State} {ch : Fin 2} {ok : Bool} {op : Nat}

theorem mailbox_gives {p : State → Prop} {r : Nat} {out : List Word} {u : State} (hg : s.gondolaUp = true)
    (hr : SMap.get (fun _ => none) s.mgmt.run ch.val = some op)
    (ho : mbFlash op = false ∨ s.mgmt.order.head? = some ch.val) (hu : s.mbRun ch op ok = (r, out, u))
    (hp : p (u.mbFinish ch r out)) : Gives (.mailboxDone ch ok) s p :=
  gives_of_eq rfl (by rw [mailboxDone_eq hg hr ho, hu]) hp

theorem mailbox_done (hg : s.gondolaUp = true) (hr : SMap.get (fun _ => none) s.mgmt.run ch.val = some op)
    (ho : mbFlash op = false ∨ s.mgmt.order.head? = some ch.val) : Gives (.mailboxDone ch ok) s fun t =>
      SMap.get (fun _ => none) t.mgmt.run ch.val = none ∧ t.mbBusy ch = false ∧
        t.on (R.MGMT_MB_STAT ch) F.MGMT_MB_STAT_DONE = true ∧ ch.val ∉ t.mgmt.order ∧
        t.rd R.MGMT_COMMANDS = s.rd R.MGMT_COMMANDS + 1 ∧ t.dram = s.dram ∧ t.cache = s.cache ∧ t.place = s.place := by
  have hblind := runBlind_mem.mbRun s ch op ok
  obtain ⟨hres, hlen⟩ := mbRun_bounds (s := s) (ok := ok) ch.val op
  rcases hx : s.mbRun ch op ok with ⟨r, out, u⟩
  rw [hx] at hblind hres hlen
  refine mailbox_gives hg hr ho hx ?_
  simp only [Prod.mk.injEq] at hblind
  obtain ⟨hd, hca, hpl, hcom⟩ := hblind
  obtain ⟨hidle, horder⟩ := mbFinish_idle (s := u) ch r out
  obtain ⟨-, hbusy, hdone⟩ := mbFinish_stat (s := u) ch out hres
  obtain ⟨kd, kca, -, kpl, -⟩ := mbFinish_memKept (s := u) ch r out
  exact ⟨hidle, hbusy, hdone, horder, (mbFinish_commands ch r out hlen).trans (congrArg (· + 1) hcom), kd.trans hd,
    kca.trans hca, kpl.trans hpl⟩

theorem mailbox_info (hg : s.gondolaUp = true) (hr : SMap.get (fun _ => none) s.mgmt.run ch.val = some 1) :
    Gives (.mailboxDone ch ok) s fun t => t.fld (R.MGMT_MB_STAT ch) F.MGMT_MB_STAT_RESULT = 0 ∧
      t.rd (R.MGMT_MB_OUT ch 0) = (if s.fwRunning then s.mgmt.fwVersion else 0) ∧
      t.rd (R.MGMT_MB_OUT ch 3) = BitVec.ofNat 32 s.mgmt.flashKiB ∧ MemKept s t := by
  refine mailbox_gives hg hr (.inl rfl) (mbRun_info ch) ?_
  obtain ⟨h0, h3⟩ := mbOutput_info (s := s) ch
  exact ⟨(mbFinish_stat ch _ (by decide)).1, (mbFinish_out ch 0 _ (by simp [mbInfo]) (by simp [mbInfo])).trans h0,
    (mbFinish_out ch 0 _ (by simp [mbInfo]) (by simp [mbInfo])).trans h3, mbFinish_memKept ch 0 _⟩

theorem mailbox_flash (k : Nat) (r : Nat) (out : List Word) : (s.mbFinish ch r out).flashByte k = s.flashByte k :=
  flashByte_of (mbFinish_memKept ch r out).2.2.2.2.2 k

theorem rawErased_state (a x : Nat) {t : State}
    (h : t = ((s.rawDone.flashErase a 4096).touchImage (a / 4096 * 4096) 4096).setWren false) :
    t.flashByte x = (if a / 4096 * 4096 ≤ x ∧ x < a / 4096 * 4096 + 4096 then 255 else s.flashByte x) ∧
      t.mgmt.wren = false ∧ t.on R.SPI_SPI_STAT F.SPI_SPI_STAT_RAW_DONE = true ∧ t.dram = s.dram ∧ t.otp = s.otp ∧
      RegsKept s t [] [R.SPI_SPI_STAT, R.SPI_ERASES] := by
  subst h
  obtain ⟨hd, hotp, hregs⟩ := flashErase_regsKept (s := s.rawDone) a 4096
  have hbyte := flashErase_byte (s := s.rawDone) a 4096 x
  generalize s.rawDone.flashErase a 4096 = u at hd hotp hregs hbyte ⊢
  obtain ⟨tregs, tmem⟩ := touchImage_spec (s := u) (a / 4096 * 4096) 4096
  generalize u.touchImage (a / 4096 * 4096) 4096 = y at tregs tmem ⊢
  obtain ⟨wregs, wren, wmem⟩ := setWren_spec (s := y) false
  obtain ⟨md, -, -, -, mo, mf⟩ := tmem.trans wmem
  have hall : RegsKept s (y.setWren false) [] [R.SPI_SPI_STAT, R.SPI_ERASES] :=
    (((RegsKept.refl s).flag _ _ (by simp)).trans (hregs.mono (fun _ => id) (by simp))).of_regs (wregs.trans tregs)
  refine ⟨(flashByte_of mf x).trans hbyte, wren, ?_, md.trans hd, mo.trans hotp, hall⟩
  refine (on_eq_of_rd ((rd_eq_of_regs (wregs.trans tregs) _).trans (hregs _ (by simp) (by decide))) _).trans ?_
  exact on_flag_same _ _ _ _ (by decide) rfl

/-- Settles O53: a mailbox command ends with its result shown and counted, and the flash changes as the command says. -/
theorem mailboxAndFlash : Obligations.MailboxAndFlash := by
  unfold Obligations.MailboxAndFlash
  refine ⟨?_, ?_, ?_, ?_, ?_, ?_, ?_, ?_, ?_, ?_, ?_, ?_, ?_⟩
  · exact fun s ch ok op hg hr ho => mailbox_done hg hr ho
  · intro s ch ok op hg hr ho hf hop
    exact mailbox_gives hg hr ho (mbRun_down ch hf hop)
      ⟨(mbFinish_stat ch _ (by decide)).1, (mbFinish_mgmt _ _ _).1, mbFinish_memKept ch 6 _⟩
  · exact fun s ch ok hg hr => mailbox_info hg hr
  · intro s ch a hg hr ho hf
    obtain ⟨hbyte, hver⟩ := imageErase_spec (s := s) a
    exact mailbox_gives hg hr (.inr ho) (mbRun_erase ch hf)
      ⟨(mailbox_flash ..).trans hbyte, (mbFinish_stat ch _ (by decide)).1, (mbFinish_mgmt _ _ _).1.trans hver⟩
  · intro s ch o j hg hr ho hf hin ha hsz he
    have hwrite := imageWrite_erased (s := s) (wordBytes ((List.range 16).map fun i => s.mbIn ch (1 + i))) ha hsz he
    have hrun : s.mbRun ch 5 true = (0, [], (s.setVerified false).flashProgram (imageSize + o)
        (wordBytes ((List.range 16).map fun i => s.mbIn ch (1 + i)))) := by
      rw [mbRun_write ch hf, ← hin, hwrite]
    refine mailbox_gives hg hr (.inr ho) hrun ⟨?_, (mbFinish_stat ch _ (by decide)).1,
      (mbFinish_mgmt _ _ _).1.trans (flashProgram_verified ..)⟩
    rw [mailbox_flash, imageProgram_byte (by simp) he]
    split
    next h =>
      have hi : (j - imageSize - o) / 4 < 16 := by omega
      rw [List.getD_eq_getElem _ _ (by simpa using hi)]
      simp
    · rfl
  · intro s ch ok hg hr ho hf hv
    have hrun : s.mbRun ch 7 ok = (3, [], s) := by
      rw [mbRun_promote ch hf, imagePromote, hv]
      rfl
    exact mailbox_gives hg hr (.inr ho) hrun ⟨(mbFinish_stat ch _ (by decide)).1, mbFinish_memKept ch 3 _⟩
  · intro s ch a hg hr ho hf hv
    have hrun : s.mbRun ch 7 true = (0, [], s.promote) := by
      rw [mbRun_promote ch hf, imagePromote, hv]
      rfl
    exact mailbox_gives hg hr (.inr ho) hrun
      ⟨(mailbox_flash ..).trans (promote_byte a), (mbFinish_stat ch _ (by decide)).1⟩
  · intro s ch ok hg hr hf
    obtain ⟨hnonce, hdraws, hmem⟩ := lifeChallenge_spec (s := s)
    exact mailbox_gives hg hr (.inl rfl) (mbRun_challenge ch hf)
      ⟨(mbFinish_mgmt _ _ _).2.trans hnonce, (congrArg (·.draws) (mailBlind_sec.mbFinish ..)).trans hdraws,
        hmem.trans (mbFinish_memKept ch 0 _)⟩
  · intro s i a ho hh hn
    obtain ⟨hq, hnext, hregs⟩ := logStored_spec (s := s) i
    obtain ⟨kq, kf, knext, kregs⟩ := logTaken_spec (s := s.logStored i) i
    refine gives_of_eq rfl (eventLogWrite_eq ho hh hn) ⟨fun ha => ?_, ?_, knext.trans hnext, hregs.of_regs kregs⟩
    · exact (flashByte_of kf a).trans (logStored_byte i ha)
    · rw [kq, hq]
  · intro s v hp ho
    obtain ⟨hpend, hregs, hmem⟩ := msixTaken_spec (s := s) v.val
    refine gives_of_eq rfl (msixSend_eq hp ho) ⟨?_, ?_, hmem.trans (inc_memKept ..), ?_⟩
    · rw [inc_mgmt, hpend]
    · rw [rd_inc, if_pos rfl, rd_eq_of_regs hregs]
      rfl
    · exact ((RegsKept.refl s).of_regs hregs).inc _ (by simp)
  · intro s w a k x ho hr hop hen hw ha hk
    obtain ⟨v, hcmd, hstart, hopv, haddr⟩ := regSet_raw ho
    subst ha hk
    refine gives_of_eq rfl (hcmd.trans (rawCmd_erase hstart hr (hopv.trans hop) (haddr.trans hen) hw)) ?_
    exact rawErased_state s.rawAddr x rfl
  · intro s w ho hr hop
    obtain ⟨v, hcmd, hstart, hopv, -⟩ := regSet_raw ho
    refine gives_of_eq rfl (hcmd.trans (rawCmd_wren hstart hr (hopv.trans hop))) ?_
    obtain ⟨wregs, wren, wmem⟩ := setWren_spec (s := s.rawDone) true
    refine ⟨wren, ?_, (flag_memKept ..).trans wmem, ((RegsKept.refl s).flag _ _ (by simp)).of_regs wregs⟩
    exact (on_eq_of_rd (rd_eq_of_regs wregs _) _).trans (on_flag_same _ _ _ _ (by decide) rfl)
  · intro s w ho hr
    obtain ⟨v, hcmd, -⟩ := regSet_raw ho
    exact gives_of_eq rfl (hcmd.trans (rawCmd_closed v hr)) ⟨.refl s, .refl s⟩

end Sys2Proof.Safety
end

section
/-! SUPPORT. A write through the memory window to a line whose write queue holds an entry that is no write (R197, R415). -/

namespace Sys2Proof.Safety
open Sys2Proof.Machine Sys2Proof.Machine.State Sys2Proof.Tests

/-- An entry for line 5 of frame 3 that the write queue holds though it is a read: performed, it is looked for in the read
queue, so it stays and is still the newest write queued to the line. -/
def strayRead : DReq := { write := false, f := 3, o := 5, line := Line.zeroed }

/-- The window answers for parcel 3, with the stray entry in the write queue of its pseudo-channel. -/
def strayWindow : State := (winS 0 3).setPch (fPc 3) { wq := [strayRead] }

/-- The offset of the line in the window, the line's index, and 64 enabled bytes. -/
def strayOffset : BitVec 27 := 64 * 3077
def strayLine : Nat := 3077
def strayBytes : List (Option Byte) := List.replicate 64 (some 1)

theorem strayWindow_hyps : strayWindow.place.mig = [] ∧ strayWindow.barOpen = true ∧
    strayLine = strayWindow.winLine strayOffset.toNat ∧ strayOffset.toNat % 64 = 0 ∧ strayBytes.length = 64 ∧
    strayWindow.winHeldUp strayOffset.toNat 64 = false ∧ strayWindow.winAborts strayLine = false ∧
    strayWindow.wdbLine strayLine = none ∧ strayWindow.cached strayLine = none ∧
    eState (strayWindow.entry (strayLine / 1024)) = 0 ∧
    (strayWindow.frameLine (eFrame (strayWindow.entry (strayLine / 1024))) (strayLine % 1024)).poisoned = false := by
  decide +kernel

theorem strayWindow_readable : Readable strayWindow := readable_of (by decide +kernel) (by decide +kernel)

/-- The window's store of one whole line. -/
theorem windowWrite_line {s : State} {off : Nat} {b : List (Option Byte)} {m : LookupIn} (hm : NoErr m)
    (hbar : s.barOpen = true) (hoff : off < 2 ^ 27) (hal : off % 64 = 0) (hlen : b.length = 64)
    (hheld : s.winHeldUp off 64 = false) (habort : s.winAborts (s.winLine off) = false)
    (hst : eState (s.entry (s.winLine off / 1024)) ≠ 3) :
    s.windowWrite off b false m = (s.winMerge m (s.winLine off) 0 b).closeChecks := by
  have htake : b.take (min 256 (2 ^ 27 - off)) = b := List.take_of_length_le (by omega)
  have hone : winCount off 64 = 1 := by
    unfold winCount
    rw [if_neg (by decide)]
    omega
  have hline : s.winWriteLine m (s.winLine off) 0 b = some (s.winMerge m (s.winLine off) 0 b) := by
    unfold winWriteLine
    rw [habort, if_neg (by decide), if_neg hst]
  have hall : b.take 64 = b := List.take_of_length_le (by omega)
  have hloop : winWriteLoop m 1 off b s = some (s.winMerge m (s.winLine off) 0 b) := by
    unfold winWriteLoop
    dsimp only
    rw [hal, Nat.sub_zero, hall, hline]
    rfl
  have hne : b.isEmpty = false := by
    cases b with
    | nil => exact absurd hlen (by decide)
    | cons _ _ => rfl
  unfold windowWrite
  rw [htake]
  dsimp only
  rw [hbar, hne, if_neg (by decide), if_neg (by decide)]
  rw [lostEntries_none hm, hlen, hheld, if_neg (by decide), hone, hloop]

/-- The line's access is charged, before it counts for the parcel's heat. -/
def strayCharged : State := strayWindow.engCharge (strayWindow.winHeader 1 strayLine)

/-- The access counts for the heat, or does not, by a free draw (R142). -/
def strayCold : State := strayCharged.freeWord.2
def strayHot : State := strayCharged.freeWord.2.setHeat 3 (min 255 (strayCharged.frameHeat 3 + 1))

theorem strayWindow_winTouch : strayWindow.winTouch strayLine = strayCold ∨ strayWindow.winTouch strayLine = strayHot := by
  have hheld : eHeld (strayCharged.entry 3) = true := by decide +kernel
  have hframe : eFrame (strayCharged.entry 3) = 3 := by decide +kernel
  have htouch : strayWindow.winTouch strayLine = strayCharged.heatAccess 3 := rfl
  rw [htouch]
  unfold heatAccess
  rw [if_pos hheld, hframe]
  dsimp only
  split
  · exact .inr rfl
  · exact .inl rfl

/-- The store from the state that the charge leaves. -/
def strayStored (u : State) : State :=
  let a := (u.tagLookups noErr [strayLine]).readCurrent noErr strayLine 2
  if a.1.poisoned then a.2.inc R.PCIEM_WIN_POISON_DROP
  else (a.2.updateLine strayLine (a.1.updated (mergeBytes a.1.data 0 strayBytes))).inc R.PCIEM_WIN_WRITES

theorem strayWindow_winMerge :
    strayWindow.winMerge noErr strayLine 0 strayBytes = strayStored (strayWindow.winTouch strayLine) := rfl

/-- The stray entry is still the line's newest data, and no entry of the table has moved. -/
def Unwritten (t : State) : Prop :=
  (t.currentLine strayLine).data.extractLsb' 0 8 ≠ 1 ∧ t.place.mig = [] ∧ t.place.table = strayWindow.place.table

theorem strayStored_unwritten : Unwritten (strayStored strayCold) ∧ Unwritten (strayStored strayHot) := by
  unfold Unwritten
  decide +kernel

theorem strayWindow_write : ∃ t, exec (.windowWrite strayOffset strayBytes false noErr) strayWindow = .next t ∧
    Unwritten t := by
  obtain ⟨hmig, hbar, hli, hal, hlen, hheld, habort, -, -, hst, -⟩ := strayWindow_hyps
  have hone := windowWrite_line (m := noErr) ⟨rfl, rfl, rfl, rfl⟩ hbar strayOffset.isLt hal hlen hheld (hli ▸ habort)
    (by rw [← hli, hst]; decide)
  rw [← hli, strayWindow_winMerge] at hone
  have hun : Unwritten (strayStored (strayWindow.winTouch strayLine)) := by
    rcases strayWindow_winTouch with h | h
    · rw [h]
      exact strayStored_unwritten.1
    · rw [h]
      exact strayStored_unwritten.2
  generalize strayStored (strayWindow.winTouch strayLine) = u at hone hun
  obtain ⟨hdata, hm, ht⟩ := hun
  rw [closeChecks_self hm] at hone
  refine ⟨_, rfl, ?_⟩
  rw [hone]
  unfold afterMove
  rw [if_pos ⟨hm.trans hmig.symm, ht⟩]
  exact ⟨hdata, hm, ht⟩

/-- Refutes O54: the clause on WINDOW_WRITE of a line in DRAM says that the line's newest data has the bytes written; where the
write queue holds an entry for the line that is not marked as a write, the window's store leaves it queued, and it stays the
line's newest data. The clause bounds the queues by no invariant; only such an ill-formed queue, which no step builds, breaks
it. -/
theorem not_windowAndConfig : ¬ Obligations.WindowAndConfig := by
  unfold Obligations.WindowAndConfig
  intro h
  obtain ⟨-, -, hwrite, -⟩ := h
  obtain ⟨hmig, hbar, hli, hal, hlen, hheld, habort, hwdb, hcached, hst, hpois⟩ := strayWindow_hyps
  obtain ⟨t, ht, hbytes, -⟩ := hwrite strayWindow strayOffset strayBytes noErr strayLine _ 0 ⟨rfl, rfl, rfl, rfl⟩
    strayWindow_readable hmig hbar hli hal hlen hheld habort hwdb hcached hst rfl hpois
  obtain ⟨u, hu, hdata, -⟩ := strayWindow_write
  rw [ht] at hu
  cases hu
  exact hdata (hbytes (by decide))

end Sys2Proof.Safety
end

section
/-! SUPPORT. Housekeeping rounds, estimator steps and the thermal trip (R314 to R329). -/

namespace Sys2Proof.Machine
open Sys2Proof.Safety State

/-! ### What rounds and steps show -/

/-- A part of the state that is none of the registers, counters and channels. -/
structure ShownBlind {α : Type} (g : State → α) : Prop where
  wr : ∀ (t : State) a v, g (t.wr a v) = g t
  counted : ∀ (t : State) a n, g (t.counted a n) = g t
  ch : ∀ (t : State) c, g { t with ch := c } = g t

namespace ShownBlind

variable {α : Type} {g : State → α} (hg : ShownBlind g) (s : State)
include hg

theorem put (a : Nat) (f : Fld) (n : Nat) : g (s.put a f n) = g s := hg.wr ..
theorem flag (a : Nat) (f : Fld) (b : Bool) : g (s.flag a f b) = g s := hg.wr ..

theorem inc (a n : Nat) : g (s.inc a n) = g s := by
  unfold State.inc
  split
  · rfl
  · rw [hg.counted, hg.wr]

theorem inc64 (a n : Nat) : g (s.inc64 a n) = g s := by
  unfold State.inc64
  split
  · rfl
  · rw [hg.counted, State.wr64, hg.wr, hg.wr]

theorem showTherm : g s.showTherm = g s := by
  have hstat : ∀ (t : State) (b : Nat × Rat) (p : Bool), g (if p = true then (t.put R.THERM_THERM_STAT F.THERM_THERM_STAT_HOTTEST
      (eighths b.2)).put R.THERM_THERM_STAT F.THERM_THERM_STAT_HOTTEST_NODE b.1 else t) = g t := fun t b p =>
    apply_ite g p _ _ |>.trans (by rw [hg.put, hg.put, ite_self])
  unfold State.showTherm
  dsimp only
  rw [foldl_blind fun t l => (hg.put ..).trans (hg.put ..), hg.put, hg.put]
  exact hstat _ _ _

theorem trainStart (c p : Nat) : g (s.trainStart c p) = g s := by
  unfold State.trainStart
  split
  · split
    · split
      · rfl
      · exact hg.ch s _
    · exact (hg.flag ..).trans (hg.ch s _)
  · rfl

theorem tempTrain : g s.tempTrain = g s := by
  unfold State.tempTrain
  refine foldl_blind (fun t e => ?_) _ _
  split
  · exact hg.trainStart ..
  · rfl

theorem refreshUp : g s.refreshUp = g s := by
  unfold State.refreshUp
  split
  · rfl
  · refine foldl_blind (fun t d => ?_) _ _
    dsimp only
    split
    · exact hg.put ..
    · rfl

theorem showCap : g s.showCap = g s :=
  (hg.put ..).trans ((hg.put ..).trans ((hg.flag ..).trans (hg.put ..)))

end ShownBlind

/-! ### The housekeeping round (R314, R315, R318) -/

/-- A part of the state that a round changes, if at all, by its samples and by K alone. -/
structure HouseBlind {α : Type} (g : State → α) : Prop extends ShownBlind g where
  bist : ∀ (t : State) b, g { t with bist := b } = g t
  model : ∀ (t : State) m, g { t with therm := { t.therm with model := m } } = g t
  tested : ∀ (t : State) a b, g { t with therm := { t.therm with offFor := a, nearFor := b } } = g t
  adc : ∀ (t : State) a, g { t with cal := { t.cal with adc := a } } = g t
  applied : ∀ (t : State) c u, g { t with cal := { t.cal with counts := c, times := u } } = g t
  suspect : ∀ (t : State) l, g { t with therm := { t.therm with suspect := l } } = g t
  wear : ∀ (t : State) w, g { t with therm := { t.therm with wear := w } } = g t
  aged : ∀ (t : State) a p b r, g { t with therm := { t.therm with age := a, peaks := p, sumBase := b, rounds := r } } = g t

namespace State

/-- Rounds in a row in which a sensor disagrees and agrees with the model (R321). -/
def driftCounted (s : State) (n off near : Nat) : State :=
  { s with therm := { s.therm with
      offFor := SMap.set (fun _ => 0) n off s.therm.offFor, nearFor := SMap.set (fun _ => 0) n near s.therm.nearFor } }

/-- A sensor becomes suspect, or no longer is. -/
def suspectJudged (s : State) (n off near dr ar : Nat) : State :=
  if !s.sensorSuspect n && decide (dr ≤ off) then
    { s with therm := { s.therm with suspect := n :: s.therm.suspect } }.inc R.THERM_SUSPECT_ENTRIES
  else if s.sensorSuspect n && decide (ar ≤ near) then
    { s with therm := { s.therm with suspect := s.therm.suspect.filter (· ≠ n) } }
  else s

theorem suspectTest_eq (s : State) (n : Nat) : ∃ off near dr ar, s.suspectTest n
    = if s.sensorBroken n then s else (s.driftCounted n off near).suspectJudged n off near dr ar := ⟨_, _, _, _, rfl⟩

end State

namespace HouseBlind

variable {α : Type} {g : State → α} (hg : HouseBlind g) (s : State)
include hg

theorem modelInit : g s.modelInit = g s := by
  unfold State.modelInit
  exact foldl_blind (fun t i => hg.model t _) _ _

theorem suspectTest (n : Nat) : g (s.suspectTest n) = g s := by
  obtain ⟨off, near, dr, ar, h⟩ := suspectTest_eq s n
  rw [h]
  split
  · rfl
  · have hd : g (s.driftCounted n off near) = g s := hg.tested s _ _
    generalize s.driftCounted n off near = u at hd ⊢
    unfold suspectJudged
    split
    · exact (hg.inc ..).trans ((hg.suspect u _).trans hd)
    · split
      · exact (hg.suspect u _).trans hd
      · exact hd

theorem lidRound : g s.lidRound = g s := by
  unfold State.lidRound
  dsimp only
  split
  · exact (hg.model _ _).trans (hg.flag ..)
  · exact (hg.model _ _).trans (hg.flag ..)

theorem railRound (r : Nat) (v i : BitVec 12) : g (s.railRound r v i) = g s := by
  unfold State.railRound
  split
  · rfl
  · exact (hg.flag ..).trans ((hg.put ..).trans (hg.put ..))

theorem adcRound (bg gnd : BitVec 12) : g (s.adcRound bg gnd) = g s := by
  have hcodes : g ((s.put R.BIST_ADC_CTL F.BIST_ADC_CTL_BG_CODE bg.toNat).put R.BIST_ADC_CTL F.BIST_ADC_CTL_GND_CODE gnd.toNat)
      = g s := (hg.put ..).trans (hg.put ..)
  unfold State.adcRound
  dsimp only
  generalize (s.put R.BIST_ADC_CTL F.BIST_ADC_CTL_BG_CODE bg.toNat).put R.BIST_ADC_CTL F.BIST_ADC_CTL_GND_CODE gnd.toNat = t
    at hcodes ⊢
  split
  · exact hcodes
  · split
    · exact ((hg.bist _ _).trans (hg.inc ..)).trans hcodes
    · exact (hg.bist t _).trans hcodes

theorem calApplied : g (s.calApplied 0x31) = g s := by
  unfold State.calApplied
  rw [if_neg (by decide)]
  dsimp only
  split
  · exact (hg.applied _ _ _).trans (hg.counted ..)
  · exact hg.applied s _ _

theorem adcCorrect (bg gnd : BitVec 12) : g (s.adcCorrect bg gnd) = g s := by
  unfold State.adcCorrect
  dsimp only
  split
  · rfl
  · rw [hg.calApplied]
    exact (hg.adc _ _).trans (hg.adc s _)

theorem wearRound : g s.wearRound = g s := by
  have hshow (t : State) : g t.showWear = g t :=
    ((hg.wr ..).trans (hg.wr ..)).trans ((hg.flag ..).trans ((hg.put ..).trans (hg.put ..)))
  unfold State.wearRound
  split
  · rfl
  · dsimp only
    generalize hu : interfaces.foldl (fun (t : State) i => t.setWear i ((t.wear i).take t.wearHyst t.wearMin (t.ifTemp i))) s = u
    have hwear : g u = g s := by
      rw [← hu]
      exact foldl_blind (fun t i => hg.wear t _) _ _
    rw [hshow, ← hwear]
    exact hg.aged u _ _ _ _

end HouseBlind

namespace State

variable {s : State}

/-! ### The stages of a round -/

/-- The round's sensors, rails, model start, suspects and correction. -/
def sensorsSampled (s : State) (codes : List (BitVec 12)) : State :=
  (List.range 96).foldl (fun (t : State) n => t.sampleSensor n (codes.getD n 0)) s
def railsRead (s : State) (codes : List (BitVec 12)) : State :=
  (List.range 7).foldl (fun (t : State) r => t.railRound r (codes.getD (96 + 2 * r) 0) (codes.getD (97 + 2 * r) 0)) s
def hasSampled (s : State) : State := { s with therm := { s.therm with sampled := true } }
def modelStarted (s : State) (first : Bool) : State := if first then s.hasSampled.modelInit else s
def suspectsTested (s : State) : State :=
  if s.modelReady then (List.range 96).foldl (fun (t : State) n => t.suspectTest n) s else s
def modelMarked (s : State) (first : Bool) : State :=
  if first then s.flag R.THERM_THERM_STAT2 F.THERM_THERM_STAT2_MODEL_READY true else s
def limitCounted (s : State) : State :=
  if s.on R.PWR_CAP_STAT F.PWR_CAP_STAT_LIMITING then s.inc R.PWR_CAP_LIMITED_MS else s

theorem thermRound_eq (codes : List (BitVec 12)) : s.thermRound codes =
    (((((((((s.adcRound (codes.getD 110 0) (codes.getD 111 0)).sensorsSampled codes).adcRefSensors).railsRead
      codes).modelStarted (!s.therm.sampled)).suspectsTested).lidRound.kRound).modelMarked
        (!s.therm.sampled)).limitCounted.showTherm).tempTrain := by
  unfold thermRound sensorsSampled railsRead modelStarted suspectsTested modelMarked limitCounted hasSampled
  with_reducible rfl

/-- The factor K after the round, from the ratio of the rails' power and the model's (R318). -/
def corrected (s : State) (k : Rat) : State :=
  { s with therm := { s.therm with k := k, roundUsed := 0, roundSteps := 0 } }

theorem kRound_eq : ∃ k, s.kRound = (s.corrected k).put R.PWR_MODEL_CORR F.PWR_MODEL_CORR_K (k * 4096).floor.toNat ∧
    (k = s.therm.k ∨ ∃ n, k = max (1 / 2) (min 2 n)) := by
  unfold kRound
  dsimp only
  exact ⟨_, rfl, (ite_eq_or_eq _ _ _).imp id fun h => ⟨_, h⟩⟩

end State
/-- A part of the state that no sample changes. -/
structure TakenBlind {α : Type} (g : State → α) : Prop extends HouseBlind g where
  taken : ∀ (t : State) c d, g { t with therm := { t.therm with codes := c, temps := d } } = g t
  judged : ∀ (t : State) a b c d e, g { t with therm := { t.therm with
    broken := a, suspect := b, goodFor := c, offFor := d, nearFor := e } } = g t

/-- A part of the state that a round changes, if at all, by K alone. -/
structure SampleBlind {α : Type} (g : State → α) : Prop extends TakenBlind g where
  first : ∀ (t : State) b, g { t with therm := { t.therm with sampled := b } } = g t

namespace State

variable {s : State}

/-- A sensor's code and temperature of the round. -/
def sampleTaken (s : State) (n : Nat) (code : BitVec 12) : State :=
  { s with therm := { s.therm with
      codes := SMap.set (fun _ => 0) n code.toNat s.therm.codes, temps := SMap.set (fun _ => 0) n (s.convert n code) s.therm.temps } }

/-- A sensor is broken at once. -/
def sampleBroken (s : State) (n : Nat) : State :=
  if s.sensorBroken n then s
  else { s with therm := { s.therm with broken := n :: s.therm.broken } }.inc R.THERM_BROKEN_ENTRIES

/-- A broken sensor's counts start again. -/
def sampleCleared (s : State) (n : Nat) : State :=
  { s with therm := { s.therm with
      suspect := s.therm.suspect.filter (· ≠ n), goodFor := SMap.set (fun _ => 0) n 0 s.therm.goodFor
      offFor := SMap.set (fun _ => 0) n 0 s.therm.offFor, nearFor := SMap.set (fun _ => 0) n 0 s.therm.nearFor } }

/-- A broken sensor has one more valid round; the thousandth makes it good. -/
def sampleGood (s : State) (n g : Nat) : State :=
  if 1000 ≤ g then { s with therm := { s.therm with
      broken := s.therm.broken.filter (· ≠ n), goodFor := SMap.set (fun _ => 0) n 0 s.therm.goodFor } }
  else { s with therm := { s.therm with goodFor := SMap.set (fun _ => 0) n g s.therm.goodFor } }

theorem sampleSensor_eq (n : Nat) (code : BitVec 12) : ∃ g, s.sampleSensor n code =
    if !codeValid code (s.convert n code) then ((s.sampleTaken n code).sampleBroken n).sampleCleared n
    else if (s.sampleTaken n code).sensorBroken n then (s.sampleTaken n code).sampleGood n g
    else s.sampleTaken n code := ⟨_, rfl⟩

end State

theorem TakenBlind.sampleSensor {α : Type} {g : State → α} (hg : TakenBlind g) (s : State) (n : Nat) (code : BitVec 12) :
    g (s.sampleSensor n code) = g s := by
  have ht : g (s.sampleTaken n code) = g s := hg.taken s _ _
  have hc (t : State) : g (t.sampleCleared n) = g t := hg.judged t t.therm.broken _ _ _ _
  obtain ⟨k, h⟩ := sampleSensor_eq (s := s) n code
  rw [h]
  generalize s.sampleTaken n code = u at ht ⊢
  split
  · rw [hc, ← ht]
    unfold sampleBroken
    split
    · rfl
    · exact (hg.inc ..).trans (hg.judged u _ u.therm.suspect u.therm.goodFor u.therm.offFor u.therm.nearFor)
  · split
    · rw [← ht]
      unfold sampleGood
      split
      · exact hg.judged u _ u.therm.suspect _ u.therm.offFor u.therm.nearFor
      · exact hg.judged u u.therm.broken u.therm.suspect _ u.therm.offFor u.therm.nearFor
    · exact ht

namespace State

variable {s : State}

/-- A sample's temperature, and whether it leaves the sensor broken. -/
theorem sampleSensor_temps (n : Nat) (code : BitVec 12) : (s.sampleSensor n code).therm.temps
    = SMap.set (fun _ => 0) n (s.convert n code) s.therm.temps := by
  have ht : (s.sampleTaken n code).therm.temps = SMap.set (fun _ => 0) n (s.convert n code) s.therm.temps := rfl
  have hb (u : State) : (u.sampleBroken n).therm.temps = u.therm.temps := by
    unfold sampleBroken
    split
    · rfl
    · rw [inc_therm]
  have hg (u : State) (g : Nat) : (u.sampleGood n g).therm.temps = u.therm.temps := by
    unfold sampleGood
    split <;> rfl
  obtain ⟨k, h⟩ := sampleSensor_eq (s := s) n code
  rw [h]
  split
  · exact (hb _).trans ht
  · split
    · exact (hg _ _).trans ht
    · exact ht

theorem sampleBroken_broken (n k : Nat) : k ∈ (s.sampleBroken n).therm.broken ↔ k = n ∨ k ∈ s.therm.broken := by
  unfold sampleBroken
  split
  next h =>
    refine ⟨.inr, fun hk => hk.elim (fun e => ?_) id⟩
    subst e
    exact List.contains_iff_mem.mp h
  · rw [inc_therm]
    exact List.mem_cons

theorem sampleSensor_broken (n : Nat) (code : BitVec 12) {k : Nat} : k ∈ s.therm.broken ∧ k ≠ n ∨
    k = n ∧ codeValid code (s.convert n code) = false → k ∈ (s.sampleSensor n code).therm.broken := by
  have ht : (s.sampleTaken n code).therm.broken = s.therm.broken := rfl
  intro hk
  obtain ⟨c, h⟩ := sampleSensor_eq (s := s) n code
  rw [h]
  split
  · have hc : ∀ u : State, (u.sampleCleared n).therm.broken = u.therm.broken := fun _ => rfl
    rw [hc, sampleBroken_broken]
    rcases hk with ⟨hb, -⟩ | ⟨hn, -⟩
    · exact .inr hb
    · exact .inl hn
  next hv =>
    rcases hk with ⟨hb, hne⟩ | ⟨-, hbad⟩
    · split
      · unfold sampleGood
        split
        · exact List.mem_filter.mpr ⟨hb, decide_eq_true hne⟩
        · exact hb
      · exact hb
    · exact absurd (by rw [hbad]; rfl) hv

end State

theorem sampleBlind_mem : SampleBlind fun s => (s.dram, s.cache, s.wdb, s.place, s.otp, s.mgmt.flash) where
  wr := fun _ _ _ => rfl
  counted := fun _ _ _ => by simp
  ch := fun _ _ => rfl
  bist := fun _ _ => rfl
  model := fun _ _ => rfl
  tested := fun _ _ _ => rfl
  suspect := fun _ _ => rfl
  adc := fun _ _ => rfl
  applied := fun _ _ _ => rfl
  wear := fun _ _ => rfl
  aged := fun _ _ _ _ _ => rfl
  taken := fun _ _ _ => rfl
  judged := fun _ _ _ _ _ _ => rfl
  first := fun _ _ => rfl

theorem sampleBlind_k : SampleBlind (·.therm.k) where
  wr := fun _ _ _ => rfl
  counted := fun _ _ _ => by simp
  ch := fun _ _ => rfl
  bist := fun _ _ => rfl
  model := fun _ _ => rfl
  tested := fun _ _ _ => rfl
  suspect := fun _ _ => rfl
  adc := fun _ _ => rfl
  applied := fun _ _ _ => rfl
  wear := fun _ _ => rfl
  aged := fun _ _ _ _ _ => rfl
  taken := fun _ _ _ => rfl
  judged := fun _ _ _ _ _ _ => rfl
  first := fun _ _ => rfl

theorem takenBlind_sampled : TakenBlind (·.therm.sampled) where
  wr := fun _ _ _ => rfl
  counted := fun _ _ _ => by simp
  ch := fun _ _ => rfl
  bist := fun _ _ => rfl
  model := fun _ _ => rfl
  tested := fun _ _ _ => rfl
  suspect := fun _ _ => rfl
  adc := fun _ _ => rfl
  applied := fun _ _ _ => rfl
  wear := fun _ _ => rfl
  aged := fun _ _ _ _ _ => rfl
  taken := fun _ _ _ => rfl
  judged := fun _ _ _ _ _ _ => rfl

/-- What a conversion rests on (R315). -/
theorem sampleBlind_inputs : SampleBlind fun s => (s.otp, s.cal.sensor) where
  wr := fun _ _ _ => rfl
  counted := fun _ _ _ => by simp
  ch := fun _ _ => rfl
  bist := fun _ _ => rfl
  model := fun _ _ => rfl
  tested := fun _ _ _ => rfl
  suspect := fun _ _ => rfl
  adc := fun _ _ => rfl
  applied := fun _ _ _ => rfl
  wear := fun _ _ => rfl
  aged := fun _ _ _ _ _ => rfl
  taken := fun _ _ _ => rfl
  judged := fun _ _ _ _ _ _ => rfl
  first := fun _ _ => rfl

theorem houseBlind_readings : HouseBlind fun s => (s.therm.temps, s.therm.broken, s.therm.sampled) where
  wr := fun _ _ _ => rfl
  counted := fun _ _ _ => by simp
  ch := fun _ _ => rfl
  bist := fun _ _ => rfl
  model := fun _ _ => rfl
  tested := fun _ _ _ => rfl
  suspect := fun _ _ => rfl
  adc := fun _ _ => rfl
  applied := fun _ _ _ => rfl
  wear := fun _ _ => rfl
  aged := fun _ _ _ _ _ => rfl

theorem convert_congr {s t : State} (h : (t.otp, t.cal.sensor) = (s.otp, s.cal.sensor)) (n : Nat) (code : BitVec 12) :
    t.convert n code = s.convert n code := by
  obtain ⟨hotp, hcal⟩ := Prod.mk.inj h
  unfold convert trimWords slotSel slotWord slotLocked slotComplete slotSel slotLocked slotComplete otpFailed otpShadow
  rw [hotp, hcal]

namespace State

variable {s : State} {codes : List (BitVec 12)}

/-- Sensors sampled in turn, each once. -/
theorem sampleAll_spec (l : List Nat) (hl : l.Nodup) (s : State) (k : Nat) :
    (l.foldl (fun (t : State) n => t.sampleSensor n (codes.getD n 0)) s).sensorT k
      = (if k ∈ l then s.convert k (codes.getD k 0) else s.sensorT k) ∧
    (k ∈ l ∧ codeValid (codes.getD k 0) (s.convert k (codes.getD k 0)) = false ∨ k ∉ l ∧ k ∈ s.therm.broken →
      k ∈ (l.foldl (fun (t : State) n => t.sampleSensor n (codes.getD n 0)) s).therm.broken) := by
  induction l generalizing s with
  | nil => exact ⟨rfl, fun h => h.elim (fun h => absurd h.1 List.not_mem_nil) (·.2)⟩
  | cons n l ih =>
    obtain ⟨hn, hl⟩ := List.nodup_cons.mp hl
    obtain ⟨htemp, hbroken⟩ := ih hl (s.sampleSensor n (codes.getD n 0))
    have hconv := convert_congr (sampleBlind_inputs.sampleSensor s n (codes.getD n 0))
    have htemps := sampleSensor_temps (s := s) n (codes.getD n 0)
    rw [List.foldl_cons]
    rw [hconv] at htemp hbroken
    refine ⟨htemp.trans ?_, fun h => hbroken ?_⟩
    · by_cases hk : k ∈ l
      · rw [if_pos hk, if_pos (List.mem_cons_of_mem _ hk)]
      · rw [if_neg hk]
        unfold sensorT
        rw [htemps]
        by_cases hkn : k = n
        · rw [hkn, if_pos List.mem_cons_self]
          exact Sys2Proof.Laws.SMap.get_set_same _ _ _ _
        · rw [if_neg fun h => (List.mem_cons.mp h).elim hkn hk]
          exact Sys2Proof.Laws.SMap.get_set_other _ hkn _ _
    · rcases h with ⟨hk, hbad⟩ | ⟨hk, hb⟩
      · rcases List.mem_cons.mp hk with rfl | hk
        · exact .inr ⟨hn, sampleSensor_broken _ _ (.inr ⟨rfl, hbad⟩)⟩
        · exact .inl ⟨hk, hbad⟩
      · exact .inr ⟨fun h => hk (List.mem_cons_of_mem _ h), sampleSensor_broken _ _ (.inl ⟨hb, fun e => hk (e ▸ List.mem_cons_self)⟩)⟩

/-- The readings that the samples leave stay through the rest of the round. -/
structure ReadingsKept (s t : State) : Prop where
  temps : t.therm.temps = s.therm.temps
  broken : ∀ n ∈ s.therm.broken, n ∈ t.therm.broken
  sampled : s.therm.sampled = true → t.therm.sampled = true

theorem ReadingsKept.trans {t u : State} (h : ReadingsKept s t) (k : ReadingsKept t u) : ReadingsKept s u :=
  ⟨k.temps.trans h.temps, fun n hn => k.broken n (h.broken n hn), fun hs => k.sampled (h.sampled hs)⟩

theorem ReadingsKept.of_eq {t : State} (h : (t.therm.temps, t.therm.broken, t.therm.sampled)
    = (s.therm.temps, s.therm.broken, s.therm.sampled)) : ReadingsKept s t := by
  obtain ⟨h1, h2, h3⟩ : _ ∧ _ ∧ _ := by simpa only [Prod.mk.injEq] using h
  exact ⟨h1, fun _ hn => h2 ▸ hn, fun hs => h3.trans hs⟩

theorem adcRefSensors_readings : ReadingsKept s s.adcRefSensors := by
  unfold adcRefSensors
  split
  · refine ⟨?_, ?_, ?_⟩ <;> rw [inc_therm]
    · exact fun n hn => List.mem_append_left _ hn
    · exact id
  · exact ⟨rfl, fun _ => id, id⟩

theorem modelStarted_readings (b : Bool) : ReadingsKept s (s.modelStarted b) ∧
    (b = !s.therm.sampled → (s.modelStarted b).therm.sampled = true) := by
  have hfirst : ReadingsKept s s.hasSampled := ⟨rfl, fun _ => id, fun _ => rfl⟩
  have hinit : ReadingsKept s.hasSampled s.hasSampled.modelInit := .of_eq (houseBlind_readings.modelInit _)
  cases b
  · refine ⟨⟨rfl, fun _ => id, id⟩, fun h => ?_⟩
    have hs : s.therm.sampled = true := by simpa using h
    exact hs
  · exact ⟨hfirst.trans hinit, fun _ => hinit.sampled rfl⟩

theorem kRound_readings : ReadingsKept s s.kRound := by
  obtain ⟨k, h, -⟩ := kRound_eq (s := s)
  rw [h]
  exact ⟨rfl, fun _ => id, id⟩

theorem kRound_k (h : (1 / 2 : Rat) ≤ s.therm.k ∧ s.therm.k ≤ 2) : (1 / 2 : Rat) ≤ s.kRound.therm.k ∧ s.kRound.therm.k ≤ 2 := by
  obtain ⟨k, hk, hc⟩ := kRound_eq (s := s)
  have he : s.kRound.therm.k = k := by
    rw [hk]
    rfl
  rw [he]
  rcases hc with rfl | ⟨n, rfl⟩
  · exact h
  · exact ⟨le_max_left _ _, max_le (by norm_num) (min_le_left _ _)⟩

end State

namespace HouseBlind

variable {α : Type} {g : State → α} (hg : HouseBlind g) (s : State)
include hg

theorem railsRead (codes : List (BitVec 12)) : g (s.railsRead codes) = g s := foldl_blind (fun _ _ => hg.railRound ..) _ _

theorem suspectsTested : g s.suspectsTested = g s := by
  unfold State.suspectsTested
  split
  · exact foldl_blind (fun _ _ => hg.suspectTest ..) _ _
  · rfl

theorem modelMarked (b : Bool) : g (s.modelMarked b) = g s := by
  unfold State.modelMarked
  split
  · exact hg.flag ..
  · rfl

theorem limitCounted : g s.limitCounted = g s := by
  unfold State.limitCounted
  split
  · exact hg.inc ..
  · rfl

end HouseBlind

namespace TakenBlind

variable {α : Type} {g : State → α} (hg : TakenBlind g) (s : State)
include hg

theorem sensorsSampled (codes : List (BitVec 12)) : g (s.sensorsSampled codes) = g s :=
  foldl_blind (fun _ _ => hg.sampleSensor ..) _ _

theorem adcRefSensors : g s.adcRefSensors = g s := by
  unfold State.adcRefSensors
  split
  · exact (hg.inc ..).trans (hg.judged s _ _ _ _ _)
  · rfl

end TakenBlind

namespace SampleBlind

variable {α : Type} {g : State → α} (hg : SampleBlind g) (s : State)
include hg

theorem modelStarted (b : Bool) : g (s.modelStarted b) = g s := by
  cases b
  · rfl
  · have h : s.modelStarted true = s.hasSampled.modelInit := if_pos rfl
    have hf : g s.hasSampled = g s := hg.first s true
    rw [h, hg.modelInit, hf]

/-- The round up to the correction, and from there on. -/
theorem beforeK (codes : List (BitVec 12)) (b : Bool) (x y : BitVec 12) :
    g (((((((s.adcRound x y).sensorsSampled codes).adcRefSensors).railsRead codes).modelStarted b).suspectsTested).lidRound)
      = g s :=
  (hg.lidRound _).trans ((hg.suspectsTested _).trans ((hg.modelStarted _ _).trans ((hg.railsRead _ _).trans
    ((hg.adcRefSensors _).trans ((hg.sensorsSampled _ _).trans (hg.adcRound ..))))))

theorem afterK (b : Bool) : g ((s.modelMarked b).limitCounted.showTherm).tempTrain = g s :=
  (hg.tempTrain _).trans ((hg.showTherm _).trans ((hg.limitCounted _).trans (hg.modelMarked ..)))

theorem thermRound (hk : ∀ (t : State) k, g (t.corrected k) = g t) (codes : List (BitVec 12)) :
    g (s.thermRound codes) = g s := by
  have hround (t : State) : g t.kRound = g t := by
    obtain ⟨k, h, -⟩ := kRound_eq (s := t)
    rw [h]
    exact (hg.wr ..).trans (hk t k)
  exact (hg.afterK _ _).trans ((hround _).trans (hg.beforeK ..))

end SampleBlind

namespace State

variable {s : State} {codes : List (BitVec 12)}

theorem thermRound_mem (codes : List (BitVec 12)) : MemKept s (s.thermRound codes) := by
  have h := sampleBlind_mem.thermRound s (fun _ _ => rfl) codes
  obtain ⟨h1, h2, h3, h4, h5, h6⟩ : _ ∧ _ ∧ _ ∧ _ ∧ _ ∧ _ := by simpa only [Prod.mk.injEq] using h
  exact ⟨h1, h2, h3, h4, h5, h6⟩

theorem thermRound_k (h : (1 / 2 : Rat) ≤ s.therm.k ∧ s.therm.k ≤ 2) :
    (1 / 2 : Rat) ≤ (s.thermRound codes).therm.k ∧ (s.thermRound codes).therm.k ≤ 2 := by
  have hb := sampleBlind_k.beforeK s codes (!s.therm.sampled) (codes.getD 110 0) (codes.getD 111 0)
  rw [thermRound_eq, sampleBlind_k.afterK]
  exact kRound_k (by rw [hb]; exact h)

/-- Whether the sensors have been sampled is no sample's to say. -/
theorem sampled_beforeStart (codes : List (BitVec 12)) (x y : BitVec 12) :
    (((((s.adcRound x y).sensorsSampled codes).adcRefSensors).railsRead codes).therm.sampled) = s.therm.sampled :=
  (takenBlind_sampled.railsRead _ _).trans ((takenBlind_sampled.adcRefSensors _).trans
    ((takenBlind_sampled.sensorsSampled _ _).trans (takenBlind_sampled.adcRound ..)))

theorem thermRound_readings : ReadingsKept ((s.adcRound (codes.getD 110 0) (codes.getD 111 0)).sensorsSampled codes)
    (s.thermRound codes) ∧ (s.thermRound codes).therm.sampled = true := by
  have hstart := sampled_beforeStart (s := s) codes (codes.getD 110 0) (codes.getD 111 0)
  rw [thermRound_eq]
  generalize (s.adcRound (codes.getD 110 0) (codes.getD 111 0)).sensorsSampled codes = u at hstart ⊢
  have hrails : ReadingsKept u (u.adcRefSensors.railsRead codes) :=
    adcRefSensors_readings.trans (.of_eq (houseBlind_readings.railsRead ..))
  generalize u.adcRefSensors.railsRead codes = v at hstart hrails ⊢
  obtain ⟨hmodel, hfirst⟩ := modelStarted_readings (s := v) (!s.therm.sampled)
  replace hfirst := hfirst (by rw [hstart])
  generalize v.modelStarted (!s.therm.sampled) = w at hmodel hfirst ⊢
  have hlid : ReadingsKept w w.suspectsTested.lidRound :=
    .of_eq ((houseBlind_readings.lidRound _).trans (houseBlind_readings.suspectsTested _))
  generalize w.suspectsTested.lidRound = x at hlid ⊢
  have hlast : ReadingsKept x.kRound (((x.kRound.modelMarked (!s.therm.sampled)).limitCounted.showTherm).tempTrain) :=
    .of_eq ((houseBlind_readings.tempTrain _).trans ((houseBlind_readings.showTherm _).trans
      ((houseBlind_readings.limitCounted _).trans (houseBlind_readings.modelMarked ..))))
  have hend := hlid.trans (kRound_readings.trans hlast)
  exact ⟨hrails.trans (hmodel.trans hend), hend.sampled hfirst⟩

end State
namespace State

variable {s : State} {codes : List (BitVec 12)}

/-! ### A housekeeping round as a whole -/

theorem otpRound_kept : s.otpRound.therm = s.therm ∧ s.otpRound.dram = s.dram ∧ s.otpRound.cache = s.cache ∧
    s.otpRound.wdb = s.wdb ∧ s.otpRound.place = s.place ∧ s.otpRound.otp.array = s.otp.array ∧
    s.otpRound.mgmt.flash = s.mgmt.flash := by
  unfold otpRound
  split <;> exact ⟨rfl, rfl, rfl, rfl, rfl, rfl, rfl⟩

theorem houseRound_eq (h : s.inReset = false) : s.houseRound codes =
    (((s.adcCorrect (codes.getD 110 0) (codes.getD 111 0)).thermRound codes).wearRound).otpRound := by
  unfold houseRound
  rw [h, if_neg (by decide)]

theorem houseRound_readings (h : s.inReset = false) (n : Fin 96) :
    (s.houseRound codes).sensorT n = s.convert n (codes.getD n 0) ∧
    (codeValid (codes.getD n 0) (s.convert n (codes.getD n 0)) = false → (s.houseRound codes).sensorBroken n = true) ∧
    (s.houseRound codes).therm.sampled = true := by
  rw [houseRound_eq h]
  have hcal := sampleBlind_inputs.adcCorrect s (codes.getD 110 0) (codes.getD 111 0)
  generalize s.adcCorrect (codes.getD 110 0) (codes.getD 111 0) = u at hcal ⊢
  have hadc := sampleBlind_inputs.adcRound u (codes.getD 110 0) (codes.getD 111 0)
  obtain ⟨htherm, hsampled⟩ := thermRound_readings (s := u) (codes := codes)
  obtain ⟨htemp, hbroken⟩ := sampleAll_spec (codes := codes) (List.range 96) List.nodup_range
    (u.adcRound (codes.getD 110 0) (codes.getD 111 0)) n.val
  have hin : n.val ∈ List.range 96 := List.mem_range.mpr n.isLt
  rw [convert_congr (hadc.trans hcal)] at htemp hbroken
  rw [if_pos hin] at htemp
  have hwear : ReadingsKept (u.thermRound codes) (u.thermRound codes).wearRound := .of_eq (houseBlind_readings.wearRound _)
  have hall := htherm.trans hwear
  have hlast := (otpRound_kept (s := (u.thermRound codes).wearRound)).1
  refine ⟨?_, fun hv => ?_, ?_⟩
  · unfold sensorT
    rw [hlast, hall.temps]
    exact htemp
  · unfold sensorBroken
    rw [hlast]
    exact List.contains_iff_mem.mpr (hall.broken _ (hbroken (.inl ⟨hin, hv⟩)))
  · rw [hlast]
    exact hwear.sampled hsampled

theorem houseRound_k (h : s.inReset = false) (hk : (1 / 2 : Rat) ≤ s.therm.k ∧ s.therm.k ≤ 2) :
    (1 / 2 : Rat) ≤ (s.houseRound codes).therm.k ∧ (s.houseRound codes).therm.k ≤ 2 := by
  rw [houseRound_eq h, otpRound_kept.1, sampleBlind_k.wearRound]
  exact thermRound_k (by rw [sampleBlind_k.adcCorrect]; exact hk)

theorem houseRound_mem (h : s.inReset = false) : (s.houseRound codes).dram = s.dram ∧ (s.houseRound codes).cache = s.cache ∧
    (s.houseRound codes).wdb = s.wdb ∧ (s.houseRound codes).place = s.place ∧
    (s.houseRound codes).otp.array = s.otp.array ∧ (s.houseRound codes).mgmt.flash = s.mgmt.flash := by
  rw [houseRound_eq h]
  have hrest := (sampleBlind_mem.wearRound _).trans ((sampleBlind_mem.thermRound _ (fun _ _ => rfl) codes).trans
    (sampleBlind_mem.adcCorrect s (codes.getD 110 0) (codes.getD 111 0)))
  obtain ⟨h1, h2, h3, h4, h5, h6⟩ : _ ∧ _ ∧ _ ∧ _ ∧ _ ∧ _ := by simpa only [Prod.mk.injEq] using hrest
  obtain ⟨-, k1, k2, k3, k4, k5, k6⟩ :=
    otpRound_kept (s := ((s.adcCorrect (codes.getD 110 0) (codes.getD 111 0)).thermRound codes).wearRound)
  exact ⟨k1.trans h1, k2.trans h2, k3.trans h3, k4.trans h4, k5.trans (congrArg (·.array) h5), k6.trans h6⟩

end State
/-! ### An estimator step (R317, R329) -/

/-- A part of the state that is none of what a step counts, throttles, or asks of the sequencer. -/
structure StepBlind {α : Type} (g : State → α) : Prop extends ShownBlind g where
  hot : ∀ (t : State) h, g { t with therm := { t.therm with hotSteps := h } } = g t
  frac : ∀ (t : State) f, g { t with therm := { t.therm with frac := f } } = g t
  wait : ∀ (t : State) b, g { t with therm := { t.therm with upWait := b } } = g t
  transition : ∀ (t : State) x, g { t with therm := { t.therm with trans := x } } = g t

namespace StepBlind

variable {α : Type} {g : State → α} (hg : StepBlind g) (s : State)
include hg

theorem countHot : g s.countHot = g s := hg.hot s _

theorem ventStep : g s.ventStep = g s := by
  unfold State.ventStep
  dsimp only
  split
  · exact (hg.inc64 ..).trans (hg.frac s _)
  · exact hg.frac s _

theorem dvCancel : g s.dvCancel = g s := (hg.put ..).trans ((hg.flag ..).trans (hg.transition s _))

theorem dvBegin (n : Nat) : g (s.dvBegin n) = g s := by
  unfold State.dvBegin
  dsimp only
  split
  · exact (hg.put ..).trans ((hg.flag ..).trans (hg.transition s _))
  · exact (hg.flag ..).trans (hg.transition s _)

theorem dvUpdate : g s.dvUpdate = g s := by
  have hadjust : g s.dvAdjust = g s := by
    unfold dvAdjust
    split
    · split
      · exact hg.dvCancel s
      · split
        · exact hg.transition s _
        · split
          · split
            · exact hg.transition s _
            · exact hg.dvCancel s
          · rfl
    · rfl
  have hstart (t : State) (n : Nat) : g (t.dvStart n) = g t := by
    unfold dvStart
    split
    · rfl
    · split
      · exact hg.dvBegin ..
      · split
        · exact hg.dvBegin ..
        · rfl
  rw [dvUpdate_eq]
  exact (hstart _ _).trans hadjust

theorem ceilingStep : g s.ceilingStep = g s := by
  unfold State.ceilingStep
  dsimp only
  split
  · exact (hg.dvUpdate _).trans ((hg.put ..).trans (hg.wait s _))
  · exact hg.wait s _

/-- What follows the energy's count in a step. -/
theorem afterCap : g ((s.refreshUp.ceilingStep).showTherm).tempTrain = g s :=
  (hg.tempTrain _).trans ((hg.showTherm _).trans ((hg.ceilingStep _).trans (hg.refreshUp _)))

end StepBlind

theorem stepBlind_cap : StepBlind fun s => (s.therm.fp, s.therm.stepsGone) :=
  { wr := fun _ _ _ => rfl, counted := fun _ _ _ => by simp, ch := fun _ _ => rfl, hot := fun _ _ => rfl,
    frac := fun _ _ => rfl, wait := fun _ _ => rfl, transition := fun _ _ => rfl }

theorem stepBlind_model : StepBlind (·.therm.model) :=
  { wr := fun _ _ _ => rfl, counted := fun _ _ _ => by simp, ch := fun _ _ => rfl, hot := fun _ _ => rfl,
    frac := fun _ _ => rfl, wait := fun _ _ => rfl, transition := fun _ _ => rfl }

theorem stepBlind_mem : StepBlind fun s => (s.dram, s.cache, s.wdb, s.place, s.otp, s.mgmt.flash) :=
  { wr := fun _ _ _ => rfl, counted := fun _ _ _ => by simp, ch := fun _ _ => rfl, hot := fun _ _ => rfl,
    frac := fun _ _ => rfl, wait := fun _ _ => rfl, transition := fun _ _ => rfl }

namespace State

variable {s : State}

/-- The step's power and energy are counted. -/
def energyCounted (s : State) (sum lever : Rat) : State :=
  { s with therm := { s.therm with
      pkg := sum * s.therm.k, variable_ := lever * s.therm.k, used := s.therm.used + sum * s.therm.k / 100
      energy := s.therm.energy + sum * s.therm.k / 100
      stepsGone := s.therm.stepsGone + 1, roundUsed := s.therm.roundUsed + sum / 100, roundSteps := s.therm.roundSteps + 1 } }

/-- F_P takes a value. -/
def fractionSet (s : State) (f : Rat) : State := { s with therm := { s.therm with fp := f } }

theorem capStep_eq (sum lever : Rat) : ∃ n, s.capStep sum lever =
    (((s.energyCounted sum lever).inc64 R.PWR_ENERGY_LO n).fractionSet
      (((s.energyCounted sum lever).inc64 R.PWR_ENERGY_LO n).powerFraction (sum * s.therm.k)
        ((s.energyCounted sum lever).inc64 R.PWR_ENERGY_LO n).therm.variable_)).showCap := ⟨_, rfl⟩

theorem powerFraction_bounds (p v : Rat) : (1 / 256 : Rat) ≤ s.powerFraction p v ∧ s.powerFraction p v ≤ 1 :=
  ⟨le_max_right _ _, max_le (min_le_right _ _) (by norm_num)⟩

theorem capStep_spec (sum lever : Rat) : (1 / 256 : Rat) ≤ (s.capStep sum lever).therm.fp ∧
    (s.capStep sum lever).therm.fp ≤ 1 ∧ (s.capStep sum lever).therm.stepsGone = s.therm.stepsGone + 1 ∧
    (s.capStep sum lever).therm.model = s.therm.model ∧ MemKept s (s.capStep sum lever) := by
  obtain ⟨n, h⟩ := capStep_eq (s := s) sum lever
  have hcap := stepBlind_cap.inc64 (s.energyCounted sum lever) R.PWR_ENERGY_LO n
  have hmodel := stepBlind_model.inc64 (s.energyCounted sum lever) R.PWR_ENERGY_LO n
  have hmem := stepBlind_mem.inc64 (s.energyCounted sum lever) R.PWR_ENERGY_LO n
  rw [h]
  generalize (s.energyCounted sum lever).inc64 R.PWR_ENERGY_LO n = u at hcap hmodel hmem ⊢
  obtain ⟨hlow, hhigh⟩ := powerFraction_bounds (s := u) (sum * s.therm.k) u.therm.variable_
  generalize u.powerFraction (sum * s.therm.k) u.therm.variable_ = f at hlow hhigh ⊢
  obtain ⟨kfp, ksteps⟩ := Prod.mk.inj (stepBlind_cap.showCap (u.fractionSet f))
  have kmodel := stepBlind_model.showCap (u.fractionSet f)
  have kmem := stepBlind_mem.showCap (u.fractionSet f)
  obtain ⟨h1, h2, h3, h4, h5, h6⟩ : _ ∧ _ ∧ _ ∧ _ ∧ _ ∧ _ := by simpa only [Prod.mk.injEq] using kmem.trans hmem
  exact ⟨kfp ▸ hlow, kfp ▸ hhigh, ksteps.trans (Prod.mk.inj hcap).2, kmodel.trans hmodel, h1, h2, h3, h4, h5, h6⟩

theorem modelStep_modelT (l : List Activity) (n : Fin 96) :
    (s.modelStep l).modelT n = s.stepNode (fun i => s.dynamicPower l i false + s.staticPower i) n := by
  have hm : (s.modelStep l).therm.model = SMap.setAll (fun _ => 0)
      (coreNodes.map fun i => (i, s.stepNode (fun i => s.dynamicPower l i false + s.staticPower i) i)) s.therm.model := rfl
  unfold modelT
  rw [hm, get_setAll_fun]
  exact if_pos (List.mem_range.mpr n.isLt)

theorem modelStep_spec (l : List Activity) : (s.modelStep l).therm.stepsGone = s.therm.stepsGone ∧ MemKept s (s.modelStep l) :=
  ⟨rfl, rfl, rfl, rfl, rfl, rfl, rfl⟩

theorem estimatorStep_eq (l : List Activity) (hs : s.therm.sampled = true) (hr : s.inReset = false) (ht : s.tripped = false) :
    ∃ sum lever, s.estimatorStep l = (((((s.modelStep l).countHot.ventStep.capStep sum lever).refreshUp).ceilingStep).showTherm).tempTrain := by
  unfold estimatorStep
  rw [hs, hr, ht, if_neg (by decide)]
  exact ⟨_, _, rfl⟩

theorem estimatorStep_unsampled (l : List Activity) (hs : s.therm.sampled = false) : s.estimatorStep l = s := by
  unfold estimatorStep
  rw [hs]
  rfl

theorem estimatorStep_spec (l : List Activity) (n : Fin 96) (hs : s.therm.sampled = true) (hr : s.inReset = false)
    (ht : s.tripped = false) :
    (s.estimatorStep l).modelT n = s.stepNode (fun i => s.dynamicPower l i false + s.staticPower i) n ∧
    (1 / 256 : Rat) ≤ (s.estimatorStep l).therm.fp ∧ (s.estimatorStep l).therm.fp ≤ 1 ∧
    (s.estimatorStep l).therm.stepsGone = s.therm.stepsGone + 1 ∧ MemKept s (s.estimatorStep l) := by
  obtain ⟨sum, lever, h⟩ := estimatorStep_eq l hs hr ht
  have hmodel := modelStep_modelT (s := s) l n
  obtain ⟨hsteps, hmem⟩ := modelStep_spec (s := s) l
  rw [h]
  generalize s.modelStep l = u at hmodel hsteps hmem ⊢
  have vcap := (stepBlind_cap.ventStep _).trans (stepBlind_cap.countHot u)
  have vmodel := (stepBlind_model.ventStep _).trans (stepBlind_model.countHot u)
  have vmem := (stepBlind_mem.ventStep _).trans (stepBlind_mem.countHot u)
  generalize u.countHot.ventStep = v at vcap vmodel vmem ⊢
  obtain ⟨clow, chigh, csteps, cmodel, cmem⟩ := capStep_spec (s := v) sum lever
  generalize v.capStep sum lever = w at clow chigh csteps cmodel cmem ⊢
  obtain ⟨afp, asteps⟩ := Prod.mk.inj (stepBlind_cap.afterCap w)
  have amodel := stepBlind_model.afterCap w
  have amem := stepBlind_mem.afterCap w
  obtain ⟨v1, v2, v3, v4, v5, v6⟩ : _ ∧ _ ∧ _ ∧ _ ∧ _ ∧ _ := by simpa only [Prod.mk.injEq] using vmem
  obtain ⟨a1, a2, a3, a4, a5, a6⟩ : _ ∧ _ ∧ _ ∧ _ ∧ _ ∧ _ := by simpa only [Prod.mk.injEq] using amem
  refine ⟨?_, afp ▸ clow, afp ▸ chigh, ?_, (hmem.trans ⟨v1, v2, v3, v4, v5, v6⟩).trans (cmem.trans ⟨a1, a2, a3, a4, a5, a6⟩)⟩
  · refine Eq.trans ?_ hmodel
    unfold modelT
    rw [amodel, cmodel, vmodel]
  · rw [asteps, csteps, (Prod.mk.inj vcap).2, hsteps]

/-! ### A new window of the power cap (R328) -/

/-- The window's energy and steps start again. -/
def windowBegun (s : State) : State :=
  { s with therm := { s.therm with
      used := 0, stepsGone := 0, window := s.capWindow, budget := ((1000 * (s.capW - s.capGuard) : Nat) : Rat) } }

theorem windowBegun_spec : s.windowBegun.therm.used = 0 ∧ s.windowBegun.therm.stepsGone = 0 ∧
    s.windowBegun.therm.window = s.capWindow ∧ s.windowBegun.therm.fp = s.therm.fp ∧
    s.windowBegun.therm.budget = ((1000 * (s.capW - s.capGuard) : Nat) : Rat) ∧ s.windowBegun.regs = s.regs ∧
    MemKept s s.windowBegun := ⟨rfl, rfl, rfl, rfl, rfl, rfl, rfl, rfl, rfl, rfl, rfl, rfl⟩

theorem capWindowStart_eq : ∃ n, s.capWindowStart = ((s.put R.PWR_PKG_POWER F.PWR_PKG_POWER_LAST_WINDOW n).windowBegun).showCap :=
  ⟨_, rfl⟩

theorem showCap_therm : s.showCap.therm = s.therm := rfl

theorem showCap_kept : MemKept s s.showCap ∧ RegsKept s s.showCap [] [R.PWR_PKG_POWER, R.PWR_CAP_STAT] := by
  refine ⟨⟨rfl, rfl, rfl, rfl, rfl, rfl⟩, ?_⟩
  unfold showCap
  exact ((((RegsKept.refl s).put _ _ (by simp)).flag _ _ (by simp)).put _ _ (by simp)).put _ _ (by simp)

theorem cap_of_rd {t : State} (h : t.rd R.PWR_CAP_CTL = s.rd R.PWR_CAP_CTL) :
    t.capW = s.capW ∧ t.capWindow = s.capWindow ∧ t.capGuard = s.capGuard := by
  unfold capW capWindow capGuard
  rw [fld_eq_of_rd h, fld_eq_of_rd h, fld_eq_of_rd h]
  exact ⟨rfl, rfl, rfl⟩

end State
/-! ### The thermal trip (R326) -/

/-- A part of the state that is none of what the collector of faults and its messages hold. -/
structure FaultBlind {α : Type} (g : State → α) : Prop where
  wr : ∀ (t : State) a v, g (t.wr a v) = g t
  counted : ∀ (t : State) a n, g (t.counted a n) = g t
  fcol : ∀ (t : State) f, g { t with fcol := f } = g t
  xact : ∀ (t : State) x, g { t with xact := x } = g t
  mgmt : ∀ (t : State) m, g { t with mgmt := m } = g t
  perf : ∀ (t : State) p, g { t with perf := p } = g t

theorem ite_blind {α : Type} {g : State → α} {p : Prop} [Decidable p] {s t u : State} (ht : g t = g s) (hu : g u = g s) :
    g (if p then t else u) = g s := by
  split
  · exact ht
  · exact hu

namespace FaultBlind

variable {α : Type} {g : State → α} (hg : FaultBlind g) (s : State)
include hg

theorem put (a : Nat) (f : Fld) (n : Nat) : g (s.put a f n) = g s := hg.wr ..
theorem flag (a : Nat) (f : Fld) (b : Bool) : g (s.flag a f b) = g s := hg.wr ..

theorem inc (a n : Nat) : g (s.inc a n) = g s := by
  unfold State.inc
  split
  · rfl
  · rw [hg.counted, hg.wr]

theorem noteWait : g s.noteWait = g s := hg.xact s _

theorem queueEvent (e : Event) : g (s.queueEvent e) = g s := by
  unfold State.queueEvent
  generalize (if e.nma then 64 else 56) = room
  exact ite_blind rfl (ite_blind ((hg.inc ..).trans (hg.xact s _)) ((hg.noteWait _).trans (hg.xact s _)))

theorem msixRequest (v : Nat) : g (s.msixRequest v) = g s :=
  ite_blind (hg.inc ..) (ite_blind rfl (hg.mgmt s _))

theorem send (e : Event) (v : Nat) : g ((s.queueEvent e).msixRequest v) = g s :=
  (hg.msixRequest _ v).trans (hg.queueEvent s e)

theorem syncFc : g s.syncFc = g s :=
  (hg.wr ..).trans ((hg.wr ..).trans ((hg.flag ..).trans ((hg.flag ..).trans (hg.put ..))))

theorem releaseAlert : g s.releaseAlert = g s :=
  ite_blind ((hg.syncFc _).trans (hg.fcol s _)) (hg.syncFc s)

theorem alert (i : Nat) : g (s.alert i) = g s := (hg.fcol _ _).trans (hg.fcol s _)

theorem react (i : Nat) (shown : Rec) : g (s.react i shown) = g s := by
  have hask (t : State) (p q : Bool) : g (if p = true then { t with fcol := { t.fcol with chipReset := q } } else t) = g t :=
    ite_blind (hg.fcol t _) rfl
  unfold State.react
  dsimp only
  generalize s.reactEntry shown.page shown.source = w
  refine (ite_blind (hg.fcol _ _) rfl).trans ((ite_blind (hg.fcol _ _) rfl).trans ((ite_blind (hg.alert ..) rfl).trans
    ((ite_blind (hg.inc ..) rfl).trans ((ite_blind (hg.send ..) rfl).trans (hg.mgmt s _)))))

theorem mergeRec (i : Nat) (events : Bool) (ts : Word64) : g (s.mergeRec i events ts) = g s := by
  unfold State.mergeRec
  dsimp only
  exact (ite_blind (hg.send ..) rfl).trans ((hg.mgmt _ _).trans ((hg.inc ..).trans (hg.fcol s _)))

theorem raise (c : Rec) : g (s.raise c) = g s := by
  unfold State.raise
  dsimp only
  refine ite_blind rfl ?_
  split
  · exact (hg.releaseAlert _).trans ((hg.react ..).trans ((hg.inc ..).trans (hg.fcol s _)))
  · refine (hg.releaseAlert _).trans ((hg.react ..).trans ((ite_blind (hg.mergeRec ..) ?_).trans (hg.inc ..)))
    exact (hg.inc ..).trans (hg.fcol _ _)

theorem levelTo {pg : Nat} (hpg : firstOf pg ≠ 0x1C0) (bit : Nat) (b : Bool) (evt : Word) : g (s.levelTo pg bit b evt) = g s := by
  unfold State.levelTo
  dsimp only
  refine ite_blind rfl (ite_blind (hg.fcol s _) ?_)
  unfold declareAbsent
  rw [if_neg fun h => hpg h.1]
  split
  · exact (hg.syncFc _).trans ((hg.mergeRec ..).trans (hg.fcol s _))
  · exact (hg.raise ..).trans (hg.fcol s _)

theorem roseEnd (pg bit : Nat) : g (s.roseEnd pg bit) = g s := by
  unfold State.roseEnd
  split
  · rfl
  · exact ite_blind (hg.fcol s _) rfl

theorem perfEdge (pg bit : Nat) : g (s.perfEdge pg bit) = g s :=
  perfEvent_same _ _ _ g (fun t _ _ => hg.perf t _) _

theorem levelChange {pg : Nat} (hpg : firstOf pg ≠ 0x1C0) (bit : Nat) : g (s.levelChange pg bit) = g s := by
  unfold State.levelChange
  dsimp only
  refine Eq.trans ?_ (hg.roseEnd s pg bit)
  generalize s.roseEnd pg bit = t
  exact ite_blind ((hg.levelTo _ hpg ..).trans (hg.perfEdge t pg bit)) (hg.levelTo t hpg ..)

end FaultBlind

theorem faultBlind_otp : FaultBlind (·.otp) :=
  { wr := fun _ _ _ => rfl, counted := fun _ _ _ => by simp, fcol := fun _ _ => rfl, xact := fun _ _ => rfl,
    mgmt := fun _ _ => rfl, perf := fun _ _ => rfl }

/-- A part of the state that is none of the flash, the wear record and the counters of their pages. -/
structure SavedBlind {α : Type} (g : State → α) : Prop where
  wr : ∀ (t : State) a v, a ≠ R.THERM_THERM_STAT2 → g (t.wr a v) = g t
  counted : ∀ (t : State) a n, g (t.counted a n) = g t
  mgmt : ∀ (t : State) m, g { t with mgmt := m } = g t
  therm : ∀ (t : State) h, g { t with therm := h } = g t

namespace SavedBlind

variable {α : Type} {g : State → α} (hg : SavedBlind g) (s : State)
include hg

theorem inc {a : Nat} (n : Nat) (ha : a ≠ R.THERM_THERM_STAT2) : g (s.inc a n) = g s := by
  unfold State.inc
  split
  · rfl
  · rw [hg.counted, hg.wr _ _ _ ha]

theorem flashProgram (a : Nat) (l : List Nat) : g (s.flashProgram a l) = g s :=
  (hg.inc _ _ (by decide)).trans (hg.mgmt s _)

theorem flashErase (a n : Nat) : g (s.flashErase a n) = g s := (hg.inc _ _ (by decide)).trans (hg.mgmt s _)

theorem logAdvance : g s.logAdvance = g s := (hg.wr _ _ _ (by decide)).trans (hg.mgmt s _)

theorem logErase : g s.logErase = g s := by
  unfold State.logErase
  dsimp only
  split
  · exact hg.flashErase ..
  · rfl

theorem eventLogWrite (ok : Bool) : g (s.eventLogWrite ok) = g s := by
  unfold State.eventLogWrite State.logWrite
  dsimp only
  split
  · split
    · rfl
    · split
      · exact (hg.logAdvance _).trans ((hg.inc _ _ (by decide)).trans (hg.logErase s))
      · exact (hg.mgmt _ _).trans ((hg.logAdvance _).trans ((hg.flashProgram ..).trans (hg.logErase s)))
  · rfl

theorem logFlush (n : Nat) : g (State.logFlush n s) = g s := by
  induction n generalizing s with
  | zero => rfl
  | succ n ih => exact (ih _).trans (hg.eventLogWrite s true)

theorem tripSave : g s.tripSave = g s := by
  have hwear (r : List Nat) (q : Nat) : g (s.flashWear q r false) = g s := (hg.flashProgram ..).trans (hg.flashErase ..)
  exact (hg.inc _ _ (by decide)).trans ((hg.therm _ _).trans (hwear _ _))

end SavedBlind

theorem savedBlind_lost : SavedBlind fun s => (s.dram, s.wdb, s.xact.reqs, s.eng.works, s.clk.dramInit, s.otp) :=
  { wr := fun _ _ _ _ => rfl, counted := fun _ _ _ => by simp, mgmt := fun _ _ => rfl, therm := fun _ _ => rfl }

theorem savedBlind_tripped : SavedBlind (·.tripped) :=
  { wr := fun _ _ _ h => on_eq_of_rd (rd_wr_other _ _ _ _ h.symm) _,
    counted := fun _ _ _ => on_eq_of_rd (rd_eq_of_regs (counted_regs ..) _) _,
    mgmt := fun _ _ => rfl, therm := fun _ _ => rfl }

namespace State

variable {s : State}

/-- What is switched off, or lost, by the shut-down of a trip. -/
def poweredOff (s : State) : State :=
  { s with
    regs := SMap.erase (fun a => decide (switchedPages.contains (pageOf a))) s.regs
    shadows := SMap.erase (fun a => decide (switchedPages.contains (pageOf a))) s.shadows
    pairLow := SMap.erase (fun a => decide (switchedPages.contains (pageOf a))) s.pairLow
    perf := {}, link := {}, xact := {}, bridle := {}, place := {}, wdb := [], cache := {}, dram := []
    ch := { selfRefresh := List.range 64 }, eng := {}, bist := {}, cal := { adc := s.cal.adc, sensor := s.cal.sensor }
    clk := { s.clk with dramInit := false, gateWait := [] } }

theorem poweredOff_lost : s.poweredOff.dram = [] ∧ s.poweredOff.wdb = [] ∧ s.poweredOff.xact.reqs = [] ∧
    s.poweredOff.eng.works = [] ∧ s.poweredOff.clk.dramInit = false ∧ s.poweredOff.otp = s.otp :=
  ⟨rfl, rfl, rfl, rfl, rfl, rfl⟩

theorem poweredOff_tripped : s.poweredOff.tripped = s.tripped := by
  refine on_eq_of_rd ?_ _
  exact get_erase_other regReset (fun a => decide (switchedPages.contains (pageOf a))) (k := R.THERM_THERM_STAT2) (by decide) s.regs

theorem tripShut_eq : s.tripShut =
    if (s.flag R.THERM_THERM_STAT2 F.THERM_THERM_STAT2_TRIP_LATCHED true).poweredOff.fwRunning &&
        (s.flag R.THERM_THERM_STAT2 F.THERM_THERM_STAT2_TRIP_LATCHED true).poweredOff.flashPresent then
      (s.flag R.THERM_THERM_STAT2 F.THERM_THERM_STAT2_TRIP_LATCHED true).poweredOff.tripSave.logAll
    else (s.flag R.THERM_THERM_STAT2 F.THERM_THERM_STAT2_TRIP_LATCHED true).poweredOff := rfl

/-- What the Gondola writes after a trip changes nothing else. -/
theorem tripShut_blind {α : Type} {g : State → α} (hg : SavedBlind g) :
    g s.tripShut = g (s.flag R.THERM_THERM_STAT2 F.THERM_THERM_STAT2_TRIP_LATCHED true).poweredOff := by
  rw [tripShut_eq]
  split
  · exact (hg.logFlush _ _).trans (hg.tripSave _)
  · rfl

theorem tripShut_spec : s.tripShut.tripped = true ∧ s.tripShut.dram = [] ∧ s.tripShut.wdb = [] ∧ s.tripShut.xact.reqs = [] ∧
    s.tripShut.eng.works = [] ∧ s.tripShut.clk.dramInit = false ∧ s.tripShut.otp = s.otp := by
  obtain ⟨k1, k2, k3, k4, k5, k6⟩ := poweredOff_lost (s := s.flag R.THERM_THERM_STAT2 F.THERM_THERM_STAT2_TRIP_LATCHED true)
  have hlost := tripShut_blind (s := s) savedBlind_lost
  obtain ⟨h1, h2, h3, h4, h5, h6⟩ : _ ∧ _ ∧ _ ∧ _ ∧ _ ∧ _ := by simpa only [Prod.mk.injEq] using hlost
  refine ⟨?_, h1.trans k1, h2.trans k2, h3.trans k3, h4.trans k4, h5.trans k5, h6.trans k6⟩
  rw [tripShut_blind savedBlind_tripped, poweredOff_tripped]
  exact on_flag_same _ _ _ _ (by decide) rfl

theorem thermalTrip_eq (hr : s.inReset = false) (ht : s.tripped = false) (hc : s.tripCond = true) : s.thermalTrip =
    ((s.flag R.THERM_THERM_STAT2 F.THERM_THERM_STAT2_TRIP_LATCHED true).levelChange 0x005 5).tripShut := by
  unfold thermalTrip
  rw [hr, ht, hc]
  rfl

theorem thermalTrip_self (hc : s.tripCond = false) : s.thermalTrip = s := by
  unfold thermalTrip
  rw [hc, Bool.not_false, Bool.or_true]
  rfl

theorem thermalTrip_otp : ((s.flag R.THERM_THERM_STAT2 F.THERM_THERM_STAT2_TRIP_LATCHED true).levelChange 0x005 5).otp = s.otp :=
  (faultBlind_otp.levelChange _ (by decide) 5).trans (faultBlind_otp.flag ..)

end State
end Sys2Proof.Machine

namespace Sys2Proof.Safety
open Sys2Proof.Machine Sys2Proof.Machine.State Sys2Proof.Laws

/-- Settles O41: the housekeeping round, the estimator's step, the cap's window and the trip, each through the lemma that says
what it leaves. -/
theorem thermalModel : Obligations.ThermalModel := by
  unfold Obligations.ThermalModel
  refine ⟨fun s codes n hr => ?_, fun s l n hs hr ht => ⟨_, rfl, estimatorStep_spec l n hs hr ht⟩,
    fun s l hs => congrArg Host.Outcome.next (estimatorStep_unsampled l hs), fun s => ?_, fun s hr ht hc => ?_,
    fun s hc => congrArg Host.Outcome.next (thermalTrip_self hc)⟩
  · obtain ⟨htemp, hbroken, hsampled⟩ := houseRound_readings (codes := codes) hr n
    exact ⟨_, rfl, htemp, hbroken, hsampled, houseRound_k hr, houseRound_mem hr⟩
  · refine ⟨_, rfl, ?_⟩
    obtain ⟨n, h⟩ := capWindowStart_eq (s := s)
    rw [h]
    have hput : RegsKept s (s.put R.PWR_PKG_POWER F.PWR_PKG_POWER_LAST_WINDOW n) [] [R.PWR_PKG_POWER, R.PWR_CAP_STAT] :=
      (RegsKept.refl s).put _ _ (by simp)
    have hmem := put_memKept s R.PWR_PKG_POWER F.PWR_PKG_POWER_LAST_WINDOW n
    have hfp : (s.put R.PWR_PKG_POWER F.PWR_PKG_POWER_LAST_WINDOW n).therm.fp = s.therm.fp := rfl
    have hcap := cap_of_rd (hput R.PWR_CAP_CTL (by decide) (by decide))
    generalize s.put R.PWR_PKG_POWER F.PWR_PKG_POWER_LAST_WINDOW n = u at hput hmem hfp hcap ⊢
    obtain ⟨hw, hwin, hguard⟩ := hcap
    obtain ⟨bused, bsteps, bwindow, bfp, bbudget, bregs, bmem⟩ := windowBegun_spec (s := u)
    obtain ⟨kmem, kregs⟩ := showCap_kept (s := u.windowBegun)
    rw [showCap_therm]
    exact ⟨bused, bsteps, bwindow.trans hwin, bfp.trans hfp, by rw [bbudget, hw, hguard], hmem.trans (bmem.trans kmem),
      (hput.of_regs bregs).trans kregs⟩
  · refine ⟨_, rfl, ?_⟩
    rw [thermalTrip_eq hr ht hc, ← thermalTrip_otp (s := s)]
    exact tripShut_spec

end Sys2Proof.Safety
end

section
/-! SUPPORT. Power-on and the resets: what a chip reset keeps and shows, and what the orderly reset does before it
(R163, R357 to R362, R454). -/

namespace Sys2Proof.Machine
open Sys2Proof.Safety State Sys2Proof.Laws

namespace State

variable {s t : State}

/-! ### Power -/

theorem cold_flag (v b : Bool) : ((s.cold v).flag R.CLK_CLK_STAT F.CLK_CLK_STAT_REFCLK_PRESENT b).bootStep = 1 := by
  unfold bootStep
  rw [fld_flag_other _ _ _ _ _ _ (.inl (by decide))]
  have h : (s.cold v).rd R.CLK_BOOT_STAT = regReset R.CLK_BOOT_STAT := rfl
  unfold fld
  rw [h]
  decide +kernel

theorem powerOn_eq (h : s.clk.vaux = false) :
    s.powerOn = (s.cold true).flag R.CLK_CLK_STAT F.CLK_CLK_STAT_REFCLK_PRESENT s.refclkPresent :=
  if_neg (by rw [h]; decide)

/-! ### Chip reset (R358, R360) -/

/-- The outage has been closed, and a reset that a fault asked for counted. -/
def outageClosed (s : State) (cause : Nat) : State :=
  (if cause = 4 then s.inc R.FCOL_FAULT_RESETS else s).closeOutage cause

/-- What a chip reset leaves, before its status registers show it. -/
def bareReset (s : State) (cause : Nat) (clean : Bool) : State :=
  { pending := s.pending, free := s.free
    regs := SMap.setAll regReset (keptRegs.map fun a => (a, s.rd a)) []
    clk := { vaux := s.clk.vaux, resetN := s.clk.resetN, held := s.clk.resetN, perstN := s.clk.perstN, xoOn := s.clk.xoOn }
    fcol := { alertN := s.fcol.alertN }
    place := s.keptPlace clean
    dram := if clean then s.dram else []
    ch := { selfRefresh := if clean then List.range 64 else [] }
    therm := if clean then { ring := s.therm.ring, keelSave := s.therm.keelSave, hours := s.therm.hours } else {}
    otp := { array := s.otp.array, partly := s.otp.partly }, sec := { draws := s.sec.draws }
    spare := { outage := s.outageAfter cause, starting := (s.outageAfter cause).isNone,
               planned := decide (cause = 2 ∨ cause = 3) }
    mgmt := { flash := s.mgmt.flash, logSeq := s.mgmt.logSeq, logAt := s.mgmt.logAt } }

/-- The cause shows. -/
def causeShown (s : State) (cause : Nat) (clean : Bool) : State :=
  s.syncSelfRefresh.wr R.CLK_RESET_CAUSE (BitVec.ofNat 32 (2 ^ cause + if clean then 256 else 0))

/-- What else a chip reset carries over shows. -/
def carriedShown (s : State) (refclk tripped scan alert alertN : Bool) : State :=
  ((((s.flag R.CLK_CLK_STAT F.CLK_CLK_STAT_REFCLK_PRESENT refclk).flag R.THERM_THERM_STAT2 F.THERM_THERM_STAT2_TRIP_LATCHED
    tripped).flag R.SEC_SEC_STAT F.SEC_SEC_STAT_SCAN_CLEARED scan).flag R.FCOL_FC_STAT F.FCOL_FC_STAT_PRE_RESET_ALERT
    alert).flag R.FCOL_FC_STAT F.FCOL_FC_STAT_ALERT alertN

theorem chipReset_eq (cause : Nat) (clean : Bool) : ∃ a b c d e, s.chipReset cause clean =
    (((s.outageClosed cause).bareReset cause clean).causeShown cause clean).carriedShown a b c d e := ⟨_, _, _, _, _, rfl⟩

theorem bareReset_spec (cause : Nat) (clean : Bool) :
    (s.bareReset cause clean).clk.vaux = s.clk.vaux ∧ (s.bareReset cause clean).clk.held = s.clk.resetN ∧
    (s.bareReset cause clean).dram = (if clean then s.dram else []) ∧ (s.bareReset cause clean).place = s.keptPlace clean ∧
    (s.bareReset cause clean).ch.selfRefresh = (if clean then List.range 64 else []) ∧
    (s.bareReset cause clean).otp.array = s.otp.array ∧ (s.bareReset cause clean).mgmt.flash = s.mgmt.flash :=
  ⟨rfl, rfl, rfl, rfl, rfl, rfl, rfl⟩

theorem bareReset_rd (cause : Nat) (clean : Bool) (a : Nat) :
    (s.bareReset cause clean).rd a = if a ∈ keptRegs then s.rd a else regReset a :=
  get_setAll_fun regReset s.rd keptRegs [] a

/-- What a chip reset leaves, but for its registers: the clocks' pins, the stores and the parts that are kept. -/
abbrev carried (s : State) := (s.clk, s.dram, s.place, s.ch, s.otp, s.mgmt)

theorem syncSelfRefresh_blind {α : Type} {g : State → α} (hw : ∀ (t : State) a v, g (t.wr a v) = g t) :
    g s.syncSelfRefresh = g s := by
  unfold syncSelfRefresh
  exact foldl_blind (fun t d => hw ..) _ _

theorem causeShown_carried (cause : Nat) (clean : Bool) : (s.causeShown cause clean).carried = s.carried := by
  have hw : ∀ (t : State) a v, (t.wr a v).carried = t.carried := fun _ _ _ => rfl
  unfold causeShown
  rw [hw, syncSelfRefresh_blind hw]

theorem causeShown_rd (cause : Nat) (clean : Bool) {a : Nat} (h : a < 0x1C0000) : (s.causeShown cause clean).rd a =
    if a = R.CLK_RESET_CAUSE then BitVec.ofNat 32 (2 ^ cause + if clean then 256 else 0) else s.rd a := by
  have hsync : s.syncSelfRefresh.rd a = s.rd a := foldl_blind (g := fun t => t.rd a) (fun t d => rd_wr_other _ _ _ _ (by
    unfold R.DDIE_DIE_STAT
    omega)) _ _
  rw [causeShown, rd_wr, hsync]

theorem carriedShown_rd (a b c d e : Bool) {k : Nat}
    (h : k ∉ [R.CLK_CLK_STAT, R.THERM_THERM_STAT2, R.SEC_SEC_STAT, R.FCOL_FC_STAT]) :
    (s.carriedShown a b c d e).rd k = s.rd k := by
  simp only [List.mem_cons, List.not_mem_nil, or_false, not_or] at h
  obtain ⟨h1, h2, h3, h4⟩ := h
  exact (rd_wr_other _ _ _ _ h4).trans ((rd_wr_other _ _ _ _ h4).trans ((rd_wr_other _ _ _ _ h3).trans
    ((rd_wr_other _ _ _ _ h2).trans (rd_wr_other _ _ _ _ h1))))

theorem carriedShown_refSrc (a b c d e : Bool) : (s.carriedShown a b c d e).refSrc = s.refSrc := by
  unfold refSrc carriedShown
  rw [fld_flag_other _ _ _ _ _ _ (.inl (by decide)), fld_flag_other _ _ _ _ _ _ (.inl (by decide)),
    fld_flag_other _ _ _ _ _ _ (.inl (by decide)), fld_flag_other _ _ _ _ _ _ (.inl (by decide)),
    fld_flag_other _ _ _ _ _ _ (.inr (by decide))]

theorem carriedShown_carried (a b c d e : Bool) : (s.carriedShown a b c d e).carried = s.carried := rfl

theorem chipReset_carried (cause : Nat) (clean : Bool) :
    (s.chipReset cause clean).carried = ((s.outageClosed cause).bareReset cause clean).carried := by
  obtain ⟨a, b, c, d, e, h⟩ := chipReset_eq (s := s) cause clean
  rw [h, carriedShown_carried, causeShown_carried]

theorem outageClosed_kept (cause : Nat) : (s.outageClosed cause).carried = s.carried := by
  have hinc : (if cause = 4 then s.inc R.FCOL_FAULT_RESETS else s).carried = s.carried := by
    split <;> simp [carried]
  unfold outageClosed closeOutage
  generalize (if cause = 4 then s.inc R.FCOL_FAULT_RESETS else s) = u at hinc ⊢
  split
  · exact hinc
  · split
    · exact hinc
    · refine Eq.trans ?_ hinc
      simp [carried]

theorem outageClosed_none {cause : Nat} (hc : cause ≠ 4) (h : s.spare.outage = none) : s.outageClosed cause = s := by
  unfold outageClosed
  rw [if_neg hc]
  unfold closeOutage
  rw [h]

/-- What a chip reset leaves. -/
theorem chipReset_spec (cause : Nat) (clean : Bool) :
    (s.chipReset cause clean).inReset = (!s.clk.vaux || s.clk.resetN) ∧
    (s.chipReset cause clean).dram = (if clean then s.dram else []) ∧ (s.chipReset cause clean).place = s.keptPlace clean ∧
    (s.chipReset cause clean).ch.selfRefresh = (if clean then List.range 64 else []) ∧
    (s.chipReset cause clean).otp.array = s.otp.array ∧ (s.chipReset cause clean).mgmt.flash = s.mgmt.flash := by
  have hcar := chipReset_carried (s := s) cause clean
  have hout := outageClosed_kept (s := s) cause
  obtain ⟨b1, b2, b3, b4, b5, b6, b7⟩ := bareReset_spec (s := s.outageClosed cause) cause clean
  simp only [carried, Prod.mk.injEq] at hcar hout
  obtain ⟨c1, c2, c3, c4, c5, c6⟩ := hcar
  obtain ⟨o1, o2, o3, o4, o5, o6⟩ := hout
  unfold inReset
  unfold keptPlace at b4 ⊢
  rw [c1, c2, c3, c4, c5, c6, b1, b2, b3, b4, b5, b6, b7, o1, o2, o3, o5, o6]
  exact ⟨rfl, rfl, rfl, rfl, rfl, rfl⟩

theorem chipReset_cause (cause : Nat) (clean : Bool) :
    (s.chipReset cause clean).rd R.CLK_RESET_CAUSE = BitVec.ofNat 32 (2 ^ cause + if clean then 256 else 0) := by
  obtain ⟨a, b, c, d, e, h⟩ := chipReset_eq (s := s) cause clean
  rw [h, carriedShown_rd _ _ _ _ _ (by decide), causeShown_rd _ _ (by decide), if_pos rfl]

/-- Every other register that a chip reset does not show keeps its word, or takes its reset value. -/
theorem chipReset_rd {cause : Nat} (clean : Bool) (hc : cause ≠ 4) (ho : s.spare.outage = none) {a : Nat} (hp : a < 0x1C0000)
    (h : a ∉ [R.CLK_RESET_CAUSE, R.CLK_CLK_STAT, R.THERM_THERM_STAT2, R.SEC_SEC_STAT, R.FCOL_FC_STAT]) :
    (s.chipReset cause clean).rd a = if a ∈ keptRegs then s.rd a else regReset a := by
  obtain ⟨h0, hrest⟩ := not_or.mp fun k => h (List.mem_cons.mpr k)
  obtain ⟨x1, x2, x3, x4, x5, hx⟩ := chipReset_eq (s := s) cause clean
  rw [hx, carriedShown_rd _ _ _ _ _ hrest, causeShown_rd _ _ hp, if_neg h0, outageClosed_none hc ho, bareReset_rd]

/-- The stack starts without a reference. -/
theorem chipReset_refSrc (cause : Nat) (clean : Bool) : (s.chipReset cause clean).refSrc = 0 := by
  obtain ⟨a, b, c, d, e, h⟩ := chipReset_eq (s := s) cause clean
  rw [h, carriedShown_refSrc]
  have hrd : (((s.outageClosed cause).bareReset cause clean).causeShown cause clean).rd R.CLK_CLK_STAT = regReset R.CLK_CLK_STAT := by
    rw [causeShown_rd _ _ (by decide), if_neg (by decide), bareReset_rd, if_neg (by decide)]
  unfold refSrc fld
  rw [hrd]
  decide +kernel

theorem chipReset_bootStep {cause : Nat} (clean : Bool) (hc : cause ≠ 4) (ho : s.spare.outage = none) :
    (s.chipReset cause clean).bootStep = 1 := by
  unfold bootStep fld
  rw [chipReset_rd clean hc ho (by decide) (by decide), if_neg (by decide)]
  decide +kernel

theorem refCheck_noRef (h : s.refSrc = 0) : s.refCheck = s := by
  unfold refCheck
  rw [h, if_pos (by simp)]

/-! ### The orderly reset begins -/

/-- The orderly reset of a cause runs. -/
def orderlyNoted (s : State) (cause : Nat) : State := s.updClk fun c => { c with orderly := some cause }

theorem orderlyStart_eq {cause : Nat} (h : s.clk.orderly = none) : s.orderlyStart cause =
    s.eng.works.foldl (fun (t : State) w => t.stopWork w 4) (s.orderlyNoted cause) := by
  unfold orderlyStart
  rw [h]
  rfl

end State

theorem WorkBlind.stopWork {α : Type} {g : State → α} (hg : WorkBlind g) (s : State) (w : Work) (n : Nat) :
    g (s.stopWork w n) = g s := by
  unfold State.stopWork
  split
  · rfl
  · split
    · exact hg.abortWork ..
    · split
      · exact (hg.finishWork ..).trans (hg.updWork ..)
      · exact hg.updWork ..

theorem workBlind_clk : WorkBlind State.clk :=
  .of_wr (fun _ _ _ _ _ _ => rfl) (by simp) (fun _ _ => rfl) (fun _ _ => rfl) (fun _ _ => rfl) (fun _ _ => rfl) (fun _ _ => rfl)

namespace State

variable {s t : State}

theorem orderlyStart_blind {α : Type} {g : State → α} (hg : WorkBlind g) {cause : Nat} (h : s.clk.orderly = none) :
    g (s.orderlyStart cause) = g (s.orderlyNoted cause) := by
  rw [orderlyStart_eq h]
  exact foldl_blind (fun t w => hg.stopWork t w 4) _ _

theorem orderlyStart_spec {cause : Nat} (h : s.clk.orderly = none) :
    (s.orderlyStart cause).clk.orderly = some cause ∧ (s.orderlyStart cause).dram = s.dram ∧ (s.orderlyStart cause).otp = s.otp ∧
    ∀ a < 0xA000, (s.orderlyStart cause).rd a = s.rd a := by
  have hclk := orderlyStart_blind workBlind_clk (cause := cause) h
  have hstores := orderlyStart_blind workBlind_stores (cause := cause) h
  simp only [Prod.mk.injEq] at hstores
  obtain ⟨h1, h2, h3, h4, h5⟩ := hstores
  refine ⟨?_, h1, h4, fun a ha => orderlyStart_blind (workBlind_rd (.inr (.inr ha))) h⟩
  rw [hclk]
  rfl

/-! ### RST_CMD -/

theorem rstCmd_open {path : Path} (v : Word) (ho : Open s path R.CLK_RST_CMD) :
    s.regCmd path R.CLK_RST_CMD v = (s.rstCmd (v &&& 0xFFFF0003#32)).refCheck := by
  rw [regCmd_plain (m := 0) (c := 0xFFFF0003#32) v ho (by unfold PlainReg; decide +kernel) rfl (by
    have : (pageOf R.CLK_RST_CMD == 1) = false := by decide
    rw [this, Bool.false_and]), regEffect_clk (by decide) (by decide), afterWrite_clk (by decide)]
  rfl

theorem rstCmd_wrong {v : Word} (h : F.CLK_RST_CMD_KEY.get v ≠ 0x0B7A) : s.rstCmd v = s := if_pos h

/-- An orderly reset that software asked for is planned. -/
def planned (s : State) : State := { s with spare := { s.spare with planned := true } }

theorem rstCmd_orderly {v : Word} (hk : F.CLK_RST_CMD_KEY.get v = 0x0B7A) (hi : F.CLK_RST_CMD_IMMEDIATE.get v ≠ 1)
    (ho : F.CLK_RST_CMD_ORDERLY.get v = 1) : s.rstCmd v = (s.orderlyStart 2).planned := by
  unfold rstCmd
  rw [if_neg fun h => h hk, if_neg hi, if_pos ho]
  rfl

theorem rstCmd_immediate {v : Word} (hk : F.CLK_RST_CMD_KEY.get v = 0x0B7A) (hi : F.CLK_RST_CMD_IMMEDIATE.get v = 1) :
    s.rstCmd v = s.chipReset 3 false := by
  unfold rstCmd
  rw [if_neg fun h => h hk, if_pos hi]

/-! ### RESET_N (R357, R358) -/

/-- RESET_N is asserted. -/
def resetNoted (s : State) : State := s.updClk fun c => { c with resetN := true }

theorem resetNoted_spec : s.resetNoted.clk.vaux = s.clk.vaux ∧ s.resetNoted.clk.resetN = true ∧
    s.resetNoted.clk.orderly = s.clk.orderly ∧ s.resetNoted.dram = s.dram ∧ s.resetNoted.otp = s.otp ∧
    s.resetNoted.regs = s.regs := ⟨rfl, rfl, rfl, rfl, rfl, rfl⟩

theorem resetAssert_eq (hv : s.clk.vaux = true) (hr : s.clk.resetN = false) (ho : s.clk.orderly = none) : s.resetAssert =
    if s.clk.dramInit && !s.drogue && !s.tripped then s.resetNoted.orderlyStart 1 else s.resetNoted.chipReset 1 false := by
  unfold resetAssert
  rw [hv, hr, if_neg (by decide)]
  exact if_neg (by rw [show (s.updClk fun c => { c with resetN := true }).clk.orderly = none from ho]; decide)

theorem resetDeassert_eq (hv : s.clk.vaux = true) (hr : s.clk.resetN = true) : s.resetDeassert =
    s.updClk fun c => { c with resetN := false, held := false, bootFrom := if c.held then c.up else c.bootFrom } := by
  unfold resetDeassert
  rw [hv, hr]
  rfl

/-! ### The endpoint's link (R362) -/

theorem endpointStart_up (hp : s.clk.perstN = false) (hr : s.inReset = false) (hb : 3 ≤ s.bootStep) (hx : s.xoOk = true) :
    s.endpointStart.clk.perstN = false ∧ s.endpointStart.on R.PCIEM_PCIE_STAT F.PCIEM_PCIE_STAT_DL_UP = true ∧
    s.endpointStart.link = s.link ∧ s.endpointStart.dram = s.dram := by
  have hon : ∀ t : State, (t.flag R.PCIEM_PCIE_STAT F.PCIEM_PCIE_STAT_DL_UP true).on R.PCIEM_PCIE_STAT
      F.PCIEM_PCIE_STAT_DL_UP = true := fun t => on_flag_same _ _ _ _ (by decide) rfl
  have hput : ∀ (t : State) f n, (t.put R.CLK_BOOT_TIME f n).on R.PCIEM_PCIE_STAT F.PCIEM_PCIE_STAT_DL_UP =
      t.on R.PCIEM_PCIE_STAT F.PCIEM_PCIE_STAT_DL_UP := fun t f n => on_put_other _ _ _ _ _ _ (.inl (by decide))
  have hx' : s.on R.CLK_CLK_STAT F.CLK_CLK_STAT_XO_OK = true := hx
  cases hup : s.on R.PCIEM_PCIE_STAT F.PCIEM_PCIE_STAT_DL_UP
  case true =>
    have h : s.endpointStart = s := by
      unfold endpointStart
      rw [hup, Bool.or_true, if_pos rfl]
    rw [h]
    exact ⟨hp, hup, rfl, rfl⟩
  case false =>
    unfold endpointStart
    rw [hp, hr, hx', hup, Bool.or_true, if_neg (by simp; omega)]
    dsimp only
    split
    · exact ⟨hp, hon _, rfl, rfl⟩
    · exact ⟨hp, (hput _ _ _).trans (hon _), rfl, rfl⟩

/-! ### The orderly reset ends (R163) -/

theorem orderlyDone_eq {n : Nat} (m : LookupIn) (ho : s.clk.orderly = some n) (hi : s.clk.dramInit = true)
    (hd : s.drogue = false) (ht : s.tripped = false) (hh : s.dramHeld = false) :
    s.orderlyDone m = (s.retain m).chipReset n (s.retain m).place.clean := by
  unfold orderlyDone
  rw [ho, hd, ht, hh]
  dsimp only
  rw [hi]
  rfl

theorem keptPlace_clean (b : Bool) : (s.keptPlace b).clean = b := by
  cases b <;> rfl

theorem keptPlace_table : (s.keptPlace true).table = s.place.table := rfl

theorem putWord_place {f o : Nat} {l : Line} (h : s.place.mig = []) : (s.putWord f o l).place = s.place := by
  have hmark (t : State) (ht : t.place.mig = []) : t.markDirty f o = t := by
    unfold markDirty
    rw [ht]
    rfl
  unfold putWord
  dsimp only
  generalize hu : (s.setPch _ _).dramWrite f o l = u
  have hp : u.place = s.place := by
    rw [← hu]
    rfl
  rw [inc64_place, hmark u (by rw [hp]; exact h), hp]

theorem performQueued_place (r : DReq) (h : s.place.mig = []) : (s.performQueued r).place = s.place := by
  unfold performQueued
  dsimp only
  split
  · exact putWord_place h
  · rw [inc64_place]
    rfl

theorem performAll_place (pc : Nat) (which : DReq → Bool) (h : s.place.mig = []) : (s.performAll pc which).place = s.place := by
  unfold performAll
  generalize sortBy _ _ = l
  induction l generalizing s with
  | nil => rfl
  | cons r l ih =>
    have hr := performQueued_place r h
    exact (ih (by rw [hr]; exact h)).trans hr

theorem rowEffect_ref_place (pc k : Nat) (b : Bool) (x : Refresh) : (s.rowEffect pc k b (.ref x)).place = s.place := by
  unfold rowEffect
  dsimp only
  split
  · split
    · exact inc64_place ..
    · exact inc64_place ..
  · split
    · exact (inc_place ..).trans (inc64_place ..)
    · exact inc64_place ..

theorem selfRefreshIn_place (pc : Nat) (h : s.place.mig = []) : (s.selfRefreshIn pc).place = s.place := by
  unfold selfRefreshIn
  dsimp only
  have hrefs : (((s.pch pc).refs.filter fun x => x.row.isSome).foldl (fun t x =>
      t.rowEffect pc (t.ctrlPage (pc / 2)) false (.ref x)) s).place = s.place :=
    foldl_blind (fun t x => rowEffect_ref_place ..) _ _
  generalize ((s.pch pc).refs.filter fun x => x.row.isSome).foldl (fun t x =>
    t.rowEffect pc (t.ctrlPage (pc / 2)) false (.ref x)) s = u at hrefs ⊢
  exact (performAll_place _ _ (by rw [hrefs]; exact h)).trans hrefs

/-- Every die sleeps. -/
def asleep (s : State) : State := { s with ch := { s.ch with selfRefresh := List.range 64 } }

theorem asleep_place : s.asleep.place = s.place := rfl

theorem syncSelfRefresh_place : s.syncSelfRefresh.place = s.place :=
  syncSelfRefresh_blind (g := State.place) fun _ _ _ => rfl

theorem enterSelfRefresh_eq : s.enterSelfRefresh = ((List.range 64).foldl selfRefreshIn s).asleep.syncSelfRefresh := rfl

theorem enterSelfRefresh_place (h : s.place.mig = []) : s.enterSelfRefresh.place = s.place := by
  have hall (l : List Nat) : (l.foldl selfRefreshIn s).place = s.place := by
    induction l generalizing s with
    | nil => rfl
    | cons pc l ih =>
      have hpc := selfRefreshIn_place pc h
      exact (ih (by rw [hpc]; exact h)).trans hpc
  rw [enterSelfRefresh_eq, syncSelfRefresh_place, asleep_place, hall]

/-- With no work in the table a record is dropped. -/
theorem drainRecords_spec (m : LookupIn) (n : Nat) (hw : s.eng.works = []) :
    ∃ e, drainRecords m n s = { s with eng := e } ∧ e.works = [] := by
  have hone (t : State) (q : Nat) (ht : t.eng.works = []) : ∃ e, t.recordApply q m = { t with eng := e } ∧ e.works = [] := by
    unfold recordApply
    split
    · exact ⟨t.eng, rfl, ht⟩
    · have hnone (r : Nat) : t.workOf r = none := by
        unfold workOf
        rw [ht]
        rfl
      rw [hnone]
      exact ⟨_, rfl, ht⟩
  have hquads (l : List Nat) (t : State) (ht : t.eng.works = []) :
      ∃ e, l.foldl (fun t q => t.recordApply q m) t = { t with eng := e } ∧ e.works = [] := by
    induction l generalizing t with
    | nil => exact ⟨t.eng, rfl, ht⟩
    | cons q l ih =>
      obtain ⟨e, he, hwe⟩ := hone t q ht
      obtain ⟨e', he', hwe'⟩ := ih { t with eng := e } hwe
      rw [List.foldl_cons, he]
      exact ⟨e', he', hwe'⟩
  induction n generalizing s with
  | zero => exact ⟨s.eng, rfl, hw⟩
  | succ n ih =>
    obtain ⟨e, he, hwe⟩ := hquads quads s hw
    obtain ⟨e', he', hwe'⟩ := ih (s := { s with eng := e }) hwe
    rw [drainRecords, he]
    exact ⟨e', he', hwe'⟩

theorem stopAllWorks_spec (m : LookupIn) (hw : s.eng.works = []) : ∃ e, s.stopAllWorks m = { s with eng := e } := by
  obtain ⟨e, he, -⟩ := drainRecords_spec m s.eng.records.length hw
  refine ⟨e, ?_⟩
  unfold stopAllWorks
  rw [hw, List.foldl_nil]
  dsimp only
  rw [hw, List.foldl_nil]
  exact he

theorem flushAll_empty {m : LookupIn} (hm : m.tags = []) (hc : s.cache = {}) : s.flushAll m = s := by
  have htags : s.checkTags m (fun _ _ => true) = s := by
    unfold checkTags
    rw [hm, List.filter_nil, List.foldl_nil, ite_self]
  have hways : s.validWays = [] := by
    unfold validWays
    rw [hc]
    rfl
  unfold flushAll
  dsimp only
  rw [htags, hways, List.foldl_nil]

/-- The write data buffer is empty. -/
def bufferGone (s : State) : State := { s with wdb := [] }

theorem storeBuffer_empty (h : s.wdb = []) : s.storeBuffer = s.bufferGone := by
  unfold storeBuffer
  rw [h]
  rfl

/-- The clean mark. -/
def cleanMarked (s : State) : State :=
  { s with place := { s.place with clean := s.mirrorOk false || s.mirrorOk true } }

/-- The steps of an orderly reset that has nothing to end and nothing to write back. -/
theorem retain_eq {m : LookupIn} (hm : NoErr m) (hw : s.eng.works = []) (hg : s.place.mig = []) (hr : s.place.repair = [])
    (hc : s.cache = {}) (hb : s.wdb = []) : ∃ e, s.retain m =
      (((({ s with eng := e } : State).bufferGone.checkpoint.keelWear
        (({ s with eng := e } : State).bufferGone.checkpoint.therm.savedSeq + 1)
        (({ s with eng := e } : State).bufferGone.checkpoint.wearRecord
          (({ s with eng := e } : State).bufferGone.checkpoint.therm.savedSeq + 1))).journal 7 0 0 0).cleanMarked).enterSelfRefresh := by
  obtain ⟨e, he⟩ := stopAllWorks_spec m hw
  have hend : s.endRepairs = s := by
    unfold endRepairs
    rw [hr]
    rfl
  refine ⟨e, ?_⟩
  unfold retain
  dsimp only
  rw [hend, he]
  dsimp only
  rw [hg, List.map_nil, List.foldl_nil, flushAll_empty hm.2.1 (s := { s with eng := e }) hc,
    storeBuffer_empty (s := { s with eng := e }) hb]
  rfl

theorem journal_mig (ty parcel frame flags : Nat) : (s.journal ty parcel frame flags).place.mig = s.place.mig := by
  unfold journal
  dsimp only
  split
  · rfl
  · rw [inc64_place]

theorem mirrorOk_of_rd (h : t.rd R.PLACE_KEEL_STAT = s.rd R.PLACE_KEEL_STAT) (b : Bool) : t.mirrorOk b = s.mirrorOk b :=
  on_eq_of_rd h _

theorem checkpoint_kept : s.checkpoint.place.table = s.place.table ∧ s.checkpoint.place.mig = s.place.mig ∧
    s.checkpoint.rd R.PLACE_KEEL_STAT = s.rd R.PLACE_KEEL_STAT := by
  rw [checkpoint_eq rfl]
  generalize (if s.slotSeq 0 ≤ s.slotSeq 1 then 0 else 1) = slot
  obtain ⟨htab, -, -, -, -, hrd⟩ := journal_kept (s := s.ckptStored slot) 6 slot 0 0
  have hmig := journal_mig (s := s.ckptStored slot) 6 slot 0 0
  generalize (s.ckptStored slot).journal 6 slot 0 0 = u at htab hrd hmig ⊢
  have hp : (u.inc R.PLACE_CKPTS).place = u.place := inc_place ..
  have hfresh (v : State) : v.ckptFresh.place.table = v.place.table ∧ v.ckptFresh.place.mig = v.place.mig ∧
      v.ckptFresh.regs = v.regs := ⟨rfl, rfl, rfl⟩
  obtain ⟨f1, f2, f3⟩ := hfresh (u.inc R.PLACE_CKPTS)
  refine ⟨by rw [f1, hp, htab]; rfl, by rw [f2, hp, hmig]; rfl, ?_⟩
  rw [rd_eq_of_regs f3, rd_inc, if_neg (by decide), hrd _ (by decide) (by decide)]
  rfl

/-- An orderly reset that has nothing to save marks a valid mirror clean, and the table stands. -/
theorem retain_clean {m : LookupIn} (hm : NoErr m) (hw : s.eng.works = []) (hg : s.place.mig = []) (hr : s.place.repair = [])
    (hc : s.cache = {}) (hb : s.wdb = []) (ha : s.mirrorOk false = true) :
    (s.retain m).place.clean = true ∧ (s.retain m).place.table = s.place.table := by
  obtain ⟨e, h⟩ := retain_eq hm hw hg hr hc hb
  rw [h]
  have hck := checkpoint_kept (s := ({ s with eng := e } : State).bufferGone)
  generalize ({ s with eng := e } : State).bufferGone.checkpoint = u at hck ⊢
  obtain ⟨ktab, kmig, krd⟩ := hck
  have hwear (q : Nat) (r : List Nat) : (u.keelWear q r).place = u.place ∧ (u.keelWear q r).regs = u.regs := ⟨rfl, rfl⟩
  obtain ⟨wp, wr⟩ := hwear (u.therm.savedSeq + 1) (u.wearRecord (u.therm.savedSeq + 1))
  generalize u.keelWear (u.therm.savedSeq + 1) (u.wearRecord (u.therm.savedSeq + 1)) = v at wp wr ⊢
  obtain ⟨jtab, -, -, -, -, jrd⟩ := journal_kept (s := v) 7 0 0 0
  have jmig := journal_mig (s := v) 7 0 0 0
  generalize v.journal 7 0 0 0 = x at jtab jrd jmig ⊢
  have hmark : x.cleanMarked.place.mig = x.place.mig ∧ x.cleanMarked.place.table = x.place.table ∧
      x.cleanMarked.place.clean = (x.mirrorOk false || x.mirrorOk true) := ⟨rfl, rfl, rfl⟩
  obtain ⟨m1, m2, m3⟩ := hmark
  have hmirror : x.mirrorOk false = true := by
    rw [mirrorOk_of_rd ((jrd _ (by decide) (by decide)).trans ((rd_eq_of_regs wr _).trans krd))]
    exact ha
  have hmig0 : x.cleanMarked.place.mig = [] := by
    rw [m1, jmig, wp, kmig]
    exact hg
  rw [enterSelfRefresh_place hmig0]
  refine ⟨by rw [m3, hmirror, Bool.true_or], ?_⟩
  rw [m2, jtab, wp, ktab]
  rfl

theorem orderlyTimeout_eq {n : Nat} (h : s.clk.orderly = some n) : s.orderlyTimeout = s.chipReset n false := by
  unfold orderlyTimeout
  rw [h]

end State
end Sys2Proof.Machine

namespace Sys2Proof.Safety
open Sys2Proof.Machine Sys2Proof.Machine.State

/-- Settles O1: each reset is a chip reset, or the beginning of an orderly one, whose works write no register of CLK; with
nothing to save the orderly reset's steps leave the table and mark a valid mirror clean. -/
theorem powerAndResets : Obligations.PowerAndResets := by
  unfold Obligations.PowerAndResets
  refine ⟨fun s hv => ?_, fun s => ⟨_, rfl, rfl, rfl, rfl, rfl, rfl⟩, fun s hv hr ho hc => ?_,
    fun s hv hr ho hi hd ht _ => ?_, fun s hv hr => ?_, fun s hv hh hb hx => ?_, fun s path ho hx hn => ?_,
    fun s path ho hout => ?_, fun s path key ho hx hk => ?_, fun s n m ho hi hd ht hh hn => ?_,
    fun s n m ho hi hd ht hh hm hw hg hr hc hb ha => ?_, fun s n ho hout hn => ?_⟩
  · exact gives_of_eq rfl (powerOn_eq hv) ⟨rfl, cold_flag _ _, rfl, rfl, rfl⟩
  · have hcond : (s.clk.dramInit && !s.drogue && !s.tripped) = false := by
      rcases hc with h | h | h <;> simp [h]
    have heq : s.resetAssert = s.resetNoted.chipReset 1 false := by
      rw [resetAssert_eq hv hr ho, hcond]
      rfl
    obtain ⟨h1, h2, h3, h4, h5, h6⟩ := chipReset_spec (s := s.resetNoted) 1 false
    refine gives_of_eq rfl heq ⟨?_, chipReset_cause 1 false, h5, h2⟩
    rw [h1]
    exact Bool.or_true _
  · have heq : s.resetAssert = s.resetNoted.orderlyStart 1 := by
      rw [resetAssert_eq hv hr ho, hi, hd, ht]
      rfl
    obtain ⟨h1, h2, h3, h4⟩ := orderlyStart_spec (s := s.resetNoted) (cause := 1) ho
    exact gives_of_eq rfl heq ⟨h1, h4 _ (by decide), h2, h3⟩
  · refine gives_of_eq rfl (resetDeassert_eq hv hr) ⟨?_, rfl, rfl⟩
    have hclk (h : ClkState → ClkState) : (s.updClk h).inReset = (!(h s.clk).vaux || (h s.clk).held) := rfl
    rw [hclk, hv]
    rfl
  · have hr : s.inReset = false := by
      unfold inReset
      rw [hv, hh]
      rfl
    refine gives_of_eq rfl ?_ (endpointStart_up (s := { s with clk := { s.clk with perstN := false } }) rfl hr ?_ hx)
    · unfold pcieClock
      rw [show ({ s with clk := { s.clk with perstN := false } } : State).xoOk = true from hx, Bool.or_true, if_pos rfl]
    · rw [show ({ s with clk := { s.clk with perstN := false } } : State).bootStep = 13 from hb]
      decide
  · obtain ⟨xo, xr, -⟩ := hx
    obtain ⟨h1, h2, h3, h4⟩ := orderlyStart_spec (s := s) (cause := 2) hn
    have hstat : (s.orderlyStart 2).planned.rd R.CLK_CLK_STAT = s.rd R.CLK_CLK_STAT := h4 _ (by decide)
    have heq : s.regCmd path R.CLK_RST_CMD (0x0B7A#16 ++ 1#16) = (s.orderlyStart 2).planned := by
      rw [rstCmd_open _ ho, rstCmd_orderly (by decide) (by decide) (by decide)]
      exact refCheck_onXo ((on_eq_of_rd hstat _).trans xo) ((fld_eq_of_rd hstat _).trans xr)
    exact gives_of_eq rfl heq ⟨h1, h4 _ (by decide), h2, h3⟩
  · have heq : s.regCmd path R.CLK_RST_CMD (0x0B7A#16 ++ 2#16) = s.chipReset 3 false := by
      rw [rstCmd_open _ ho, rstCmd_immediate (by decide) (by decide)]
      exact refCheck_noRef (chipReset_refSrc 3 false)
    obtain ⟨-, h2, -, -, h5, h6⟩ := chipReset_spec (s := s) 3 false
    refine gives_of_eq rfl heq ⟨chipReset_cause 3 false, chipReset_bootStep false (by decide) hout, h2, h5, h6, ?_⟩
    rw [chipReset_rd false (by decide) hout (by decide) (by decide), if_pos (by decide)]
  · obtain ⟨xo, xr, -⟩ := hx
    have hkey (b : BitVec 16) : F.CLK_RST_CMD_KEY.get ((key ++ b) &&& 0xFFFF0003#32) ≠ 0x0B7A := fun h => hk (by
      refine BitVec.eq_of_toNat_eq (Eq.trans ?_ h)
      rw [Fld.get_and _ (by decide)]
      have hshift : ((key ++ b) >>> 16).toNat = key.toNat := by
        rw [BitVec.toNat_ushiftRight, BitVec.toNat_append, Nat.shiftLeft_eq, Nat.mul_comm,
          ← Nat.two_pow_add_eq_or_of_lt b.isLt, Nat.shiftRight_eq_div_pow]
        have := b.isLt
        omega
      have hk := key.isLt
      change key.toNat = ((key ++ b) >>> 16).toNat % 65536
      omega)
    have hself (b : BitVec 16) : s.regCmd path R.CLK_RST_CMD (key ++ b) = s := by
      rw [rstCmd_open _ ho, rstCmd_wrong (hkey b)]
      exact refCheck_onXo xo xr
    exact ⟨gives_of_eq rfl (hself 1) rfl, gives_of_eq rfl (hself 2) rfl⟩
  · obtain ⟨-, -, h3, h4, -, -⟩ := chipReset_spec (s := s.retain m) n (s.retain m).place.clean
    refine gives_of_eq rfl (orderlyDone_eq m ho hi hd ht hh) ?_
    rw [h3, h4, keptPlace_clean, chipReset_cause]
    exact ⟨rfl, rfl⟩
  · obtain ⟨hclean, htab⟩ := retain_clean hm hw hg hr hc hb ha
    obtain ⟨-, -, h3, -⟩ := chipReset_spec (s := s.retain m) n (s.retain m).place.clean
    refine gives_of_eq rfl (orderlyDone_eq m ho hi hd ht hh) ?_
    rw [h3, keptPlace_clean, hclean, keptPlace_table]
    exact ⟨rfl, htab⟩
  · obtain ⟨-, h2, h3, h4, -, -⟩ := chipReset_spec (s := s) n false
    exact gives_of_eq rfl (orderlyTimeout_eq ho) ⟨chipReset_cause n false, h2, h3, h4⟩

end Sys2Proof.Safety
end

section
/-! SUPPORT. Slices of the in-service test (R394 to R399): what starting, fencing and ending one leaves alone, and the slice
that the sequencer holds. -/

namespace Sys2Proof.Machine
open Sys2Proof.Safety State

/-- A part of the state that units in and out of test do not change: none of the works, requests, channels and swaps, and no
register outside the BIST page. -/
structure UnitBlind {α : Type} (g : State → α) : Prop where
  wr : ∀ (t : State) a v, a / 0x1000 ≠ 8 → g (t.wr a v) = g t
  counted : ∀ (t : State) a n, g (t.counted a n) = g t
  eng : ∀ (t : State) e, g { t with eng := e } = g t
  xact : ∀ (t : State) x, g { t with xact := x } = g t
  perf : ∀ (t : State) p, g { t with perf := p } = g t
  link : ∀ (t : State) l, g { t with link := l } = g t
  deliver : ∀ (t : State) d, g (t.deliver d) = g t
  ch : ∀ (t : State) c, g { t with ch := c } = g t
  ctrlOn : ∀ (t : State) l, g { t with spare := { t.spare with ctrlOn := l } } = g t

namespace UnitBlind

variable {α : Type} {g : State → α} (hg : UnitBlind g) (s : State)
include hg

theorem works : WorkBlind g :=
  .of_wr (fun t a v _ _ h => hg.wr t a v (by omega)) hg.counted hg.eng hg.xact hg.perf hg.link hg.deliver

theorem setEngState (e n : Nat) : g (s.setEngState e n) = g s := hg.wr _ _ _ (by unfold R.ENG_ENG_STAT; omega)

theorem unitFlag (engine : Bool) (u : Nat) (f : Fld) (b : Bool) :
    g (s.flag (pgStat (if engine then engPg u else chcPg u)) f b) = g s :=
  hg.wr _ _ _ (by unfold pgStat engPg chcPg; split <;> omega)

theorem chanMap (k : Nat) (f : Fld) (b : Bool) : g (s.flag (R.CHC_CHAN_MAP k) f b) = g s :=
  hg.wr _ _ _ (by unfold R.CHC_CHAN_MAP; omega)

theorem swapBegin (old new : Nat) : g (s.swapBegin old new) = g s := by
  unfold State.swapBegin
  split
  · exact (hg.chanMap ..).trans ((hg.chanMap ..).trans (hg.ch s _))
  · rfl

theorem engPowerUp (e : Nat) : g (s.engPowerUp e) = g s := by
  unfold State.engPowerUp
  split
  · exact (hg.works.adoptWorks _).trans ((hg.works.syncEng ..).trans (hg.setEngState ..))
  · rfl

theorem sliceFence : g s.sliceFence = g s := by
  unfold State.sliceFence
  split
  · rfl
  · split
    · split
      · rfl
      · exact (hg.unitFlag _ true ..).trans ((hg.setEngState ..).trans
          (foldl_blind (fun t w => hg.works.handOver t w _ false) _ s))
    · split
      · exact hg.unitFlag _ false ..
      · rfl

theorem sliceReturn {x : Slice} (hx : x.swapped = false) : g (s.sliceReturn x) = g s := by
  have hstate (t : State) : g (if t.engState x.unit = 6 then t.setEngState x.unit 1 else t) = g t := by
    split
    · exact hg.setEngState ..
    · rfl
  unfold State.sliceReturn
  rw [hx]
  cases x.engine
  · exact hg.unitFlag s false ..
  · exact (hg.works.syncEng ..).trans ((hstate _).trans (hg.unitFlag s true ..))

end UnitBlind

/-- What the tests store nowhere, the clock's time, and what wakes the ladders. -/
abbrev State.untested (s : State) :=
  (s.dram, s.cache, s.wdb, s.place, s.otp, s.mgmt.flash, s.fcol.handed, s.fcol.declared, s.spare.rows, s.ts)

theorem unitBlind_untested : UnitBlind untested :=
  ⟨fun _ _ _ _ => rfl, by simp, fun _ _ => rfl, fun _ _ => rfl, fun _ _ => rfl, fun _ _ => rfl, fun _ _ => rfl, fun _ _ => rfl, fun _ _ => rfl⟩

theorem unitBlind_bist : UnitBlind State.bist :=
  ⟨fun _ _ _ _ => rfl, by simp, fun _ _ => rfl, fun _ _ => rfl, fun _ _ => rfl, fun _ _ => rfl, fun _ _ => rfl, fun _ _ => rfl, fun _ _ => rfl⟩

/-- The registers of the BIST page. -/
theorem unitBlind_rd {a : Nat} (ha : a / 0x1000 = 8) : UnitBlind fun s => s.rd a :=
  ⟨fun t b v h => rd_wr_other _ _ _ _ (by rintro rfl; exact h ha), fun _ _ _ => rd_counted .., fun _ _ => rfl, fun _ _ => rfl,
    fun _ _ => rfl, fun _ _ => rfl, fun _ _ => rfl, fun _ _ => rfl, fun _ _ => rfl⟩

namespace State

variable {s t : State} {x : Slice} {a : Nat}

theorem calm_of_untested (h : t.untested = s.untested) (hc : Calm s) : Calm t := by
  simp only [untested, Prod.mk.injEq] at h
  obtain ⟨-, -, -, hp, -, -, hh, hd, hr, -⟩ := h
  exact hc.of_parts hh hd hr (congrArg PlaceState.retiring hp)

theorem memKept_of_untested (h : t.untested = s.untested) : MemKept s t := by
  simp only [untested, Prod.mk.injEq] at h
  obtain ⟨h1, h2, h3, h4, h5, h6, -⟩ := h
  exact ⟨h1, h2, h3, h4, h5, h6⟩

theorem ts_of_untested (h : t.untested = s.untested) : t.ts = s.ts := by
  simp only [untested, Prod.mk.injEq] at h
  obtain ⟨-, -, -, -, -, -, -, -, -, hts⟩ := h
  exact hts

theorem declared_of_untested (h : t.untested = s.untested) : t.fcol.declared = s.fcol.declared := by
  simp only [untested, Prod.mk.injEq] at h
  obtain ⟨-, -, -, -, -, -, -, hd, -, -⟩ := h
  exact hd

theorem inc_untested (n : Nat) : (s.inc a n).untested = s.untested := by simp [untested]

/-! ### After a unit's step -/

/-- With a slice that runs, or none that waits only for it, the next one does not begin. -/
theorem sliceNext_self (h : s.bist.slice.isSome = true ∨ ∀ x ∈ s.bist.waiting, x.deferred = true) : s.sliceNext = s := by
  unfold sliceNext
  split
  · rfl
  · next hn =>
    have hw : (s.bist.waiting.find? fun x => !x.deferred) = none := List.find?_eq_none.mpr fun x hx => by
      rw [(h.resolve_left hn) x hx]
      decide
    rw [hw]

theorem afterUnit_eq (h : s.bist.slice.isSome = true ∨ ∀ x ∈ s.bist.waiting, x.deferred = true) :
    s.afterUnit = s.sliceFence.settle := by
  unfold afterUnit
  rw [sliceNext_self (by rw [unitBlind_bist.sliceFence]; exact h)]

/-- After a unit's step the sequencer and the stores are as they were. -/
theorem afterUnit_kept (h : s.bist.slice.isSome = true ∨ ∀ x ∈ s.bist.waiting, x.deferred = true) (hc : Calm s) :
    s.afterUnit.bist = s.bist ∧ s.afterUnit.fcol.declared = s.fcol.declared ∧ MemKept s s.afterUnit ∧
    ∀ b, b / 0x1000 = 8 → s.afterUnit.rd b = s.rd b := by
  have hu := unitBlind_untested.sliceFence s
  have hcf := calm_of_untested hu hc
  rw [afterUnit_eq h]
  refine ⟨(settle_bist hcf).trans (unitBlind_bist.sliceFence s), (settle_fcol_declared hcf).trans (declared_of_untested hu),
    (memKept_of_untested hu).trans (.settle hcf), fun b hb => ?_⟩
  exact (settle_rd hcf b (by unfold pageOf; omega)).trans ((unitBlind_rd hb).sliceFence s)

/-- An engine's slice that runs has fenced the engine, when no work is in the table. -/
theorem sliceFence_engine (hx : s.bist.slice = some x) (he : x.engine = true) (hw : s.eng.works = []) :
    s.sliceFence.engState x.unit = 6 := by
  have hq : s.queuedOn x.unit = [] := by
    unfold queuedOn
    rw [hw]
    rfl
  have hr : s.runningOn x.unit = none := by
    unfold runningOn
    rw [hw]
    rfl
  unfold sliceFence
  rw [hx]
  dsimp only
  rw [he, if_pos rfl]
  split
  · next h =>
    rw [hr] at h
    exact h.resolve_right (by decide)
  · rw [hq, List.foldl_nil]
    refine (fld_flag_other _ _ _ _ _ _ (.inl ?_)).trans (setEngState_state ..)
    unfold R.ENG_ENG_STAT pgStat engPg
    omega

theorem sliceFence_self (hx : s.bist.slice = some x) (he : x.engine = true) (h6 : s.engState x.unit = 6) : s.sliceFence = s := by
  unfold sliceFence
  rw [hx]
  dsimp only
  rw [he, if_pos rfl, if_pos (.inl h6)]

/-! ### A slice starts -/

/-- The sequencer runs a slice. -/
def sliceSet (s : State) (x : Slice) : State := { s with bist := { s.bist with slice := some x } }

theorem sliceSet_untested : (s.sliceSet x).untested = s.untested := rfl

theorem sliceActive_kept (e : Bool) (q : Nat) (b : Bool) : (s.sliceActive e q b).bist = s.bist ∧
    (s.sliceActive e q b).untested = s.untested ∧ (s.sliceActive e q b).eng = s.eng := ⟨rfl, rfl, rfl⟩

theorem sliceActive_rd (e : Bool) (q : Nat) (b : Bool) (h : a ≠ R.BIST_ROT_STAT q) : (s.sliceActive e q b).rd a = s.rd a :=
  rd_wr_other _ _ _ _ h

/-- A unit that is tested in place is fenced where it is. -/
theorem sliceStart_place (hp : s.inPlace x.engine x.unit = true) : s.sliceStart x =
    ((s.sliceSet { x with swapped := false, deferred := false }).sliceActive x.engine x.q true).sliceFence := by
  unfold sliceStart
  dsimp only
  rw [hp, if_pos rfl]
  rfl

theorem adoptWorks_none (h : s.eng.works = []) : s.adoptWorks = s := by
  unfold adoptWorks
  rw [h]
  rfl

theorem engPowerUp_works (e : Nat) (h : s.eng.works = []) : (s.engPowerUp e).eng.works = [] := by
  have hs : ((s.setEngState e 1).syncEng e).eng = s.eng :=
    syncEng_blind (g := State.eng) (fun _ _ _ _ _ _ => rfl) (s.setEngState e 1) e
  have hw : ((s.setEngState e 1).syncEng e).eng.works = [] := by rw [hs]; exact h
  unfold engPowerUp
  split
  · rw [adoptWorks_none hw]
    exact hw
  · exact h

/-- The spare engine of a unit's quadrant is powered up for a slice. -/
def spareWoken (s : State) (q : Nat) : State :=
  match (s.engSpareOf q).filter s.engUsable with | some sp => s.engPowerUp sp | none => s

theorem spareWoken_blind {α : Type} {g : State → α} (hg : UnitBlind g) (q : Nat) : g (s.spareWoken q) = g s := by
  unfold spareWoken
  split
  · exact hg.engPowerUp ..
  · rfl

theorem spareWoken_works (q : Nat) (h : s.eng.works = []) : (s.spareWoken q).eng.works = [] := by
  unfold spareWoken
  split
  · exact engPowerUp_works _ h
  · exact h

/-- The works that a slice without a spare takes from its unit are noted in it. -/
def lentTo (s : State) (l : List Nat) : State :=
  { s with bist := { s.bist with slice := s.bist.slice.map fun y => { y with lent := l } } }

theorem lentTo_untested (l : List Nat) : (s.lentTo l).untested = s.untested := rfl

theorem lentTo_bist (hx : s.bist.slice = some x) (hl : x.lent = []) : (s.lentTo []).bist = s.bist := by
  have h : (s.lentTo []).bist = { s.bist with slice := s.bist.slice.map fun y => { y with lent := [] } } := rfl
  rw [h, hx, Option.map_some, ← hl, ← hx]

/-- The unit's role is handed to a spare. -/
def roleGiven (s : State) (x : Slice) : State :=
  if x.engine then
    ((s.spareWoken x.q).lentTo (if (((s.spareWoken x.q).engSpareOf x.q).filter (s.spareWoken x.q).engUsable).isSome then []
      else ((s.spareWoken x.q).worksOn x.unit).map (·.req))).plannedMove x.unit
  else match s.quadSpare x.q with
    | none => s
    | some n => { s with spare := { s.spare with ctrlOn := n :: s.spare.ctrlOn.filter (· ≠ n) } }.swapBegin x.unit n

theorem sliceStart_swap (hp : s.inPlace x.engine x.unit = false) : s.sliceStart x =
    (((s.sliceSet { x with swapped := true, deferred := false }).sliceActive x.engine x.q true).roleGiven x).sliceFence := by
  unfold sliceStart
  dsimp only
  rw [hp, if_neg (by decide)]
  rfl

theorem roleGiven_spec {y : Slice} (hy : s.bist.slice = some y) (hl : y.lent = []) (hw : s.eng.works = []) :
    (s.roleGiven x).bist = s.bist ∧ (s.roleGiven x).untested = s.untested := by
  unfold roleGiven
  split
  · have hb := spareWoken_blind (s := s) unitBlind_bist x.q
    have hu := spareWoken_blind (s := s) unitBlind_untested x.q
    have hwk := spareWoken_works x.q hw
    generalize s.spareWoken x.q = u at hb hu hwk ⊢
    have hon : (u.worksOn x.unit).map (·.req) = [] := by
      unfold worksOn
      rw [hwk]
      rfl
    rw [hon, ite_self, unitBlind_bist.works.plannedMove, unitBlind_untested.works.plannedMove,
      lentTo_bist (by rw [hb]; exact hy) hl, lentTo_untested]
    exact ⟨hb, hu⟩
  · split
    · exact ⟨rfl, rfl⟩
    · exact ⟨(unitBlind_bist.swapBegin ..).trans rfl, (unitBlind_untested.swapBegin ..).trans rfl⟩

/-- A slice that starts is the one that the sequencer runs; works that a slice takes from its unit aside, nothing else of
the sequencer changes. -/
theorem sliceStart_spec (hl : x.lent = []) (hw : s.eng.works = []) :
    (s.sliceStart x).bist =
      { s.bist with slice := some { x with swapped := !s.inPlace x.engine x.unit, deferred := false } } ∧
    (s.sliceStart x).untested = s.untested := by
  cases hp : s.inPlace x.engine x.unit
  case true =>
    rw [sliceStart_place hp, unitBlind_bist.sliceFence, unitBlind_untested.sliceFence]
    exact ⟨rfl, rfl⟩
  case false =>
    have hset : ((s.sliceSet { x with swapped := true, deferred := false }).sliceActive x.engine x.q true).bist.slice =
        some { x with swapped := true, deferred := false } := rfl
    obtain ⟨hb, hu⟩ := roleGiven_spec (x := x) hset hl hw
    rw [sliceStart_swap hp, unitBlind_bist.sliceFence, unitBlind_untested.sliceFence, hb, hu]
    exact ⟨rfl, rfl⟩

theorem sliceTry_start (hs : s.bist.slice = none) (hb : s.sliceBlocked x = false) : s.sliceTry x = s.sliceStart x := by
  unfold sliceTry
  rw [hs, hb]
  rfl

/-- A slice waits behind its conditions. -/
def sliceWaits (s : State) (x : Slice) : State :=
  { s with bist := { s.bist with waiting := s.bist.waiting ++ [{ x with deferred := true }] } }

theorem sliceTry_blocked (hs : s.bist.slice = none) (hb : s.sliceBlocked x = true) :
    s.sliceTry x = (s.sliceWaits x).inc R.BIST_DEFERRED := by
  unfold sliceTry
  rw [hs, hb]
  rfl

/-- A slice that starts runs, and what follows its unit's step leaves it and the stores. -/
theorem sliceStart_afterUnit (hl : x.lent = []) (hw : s.eng.works = []) (hc : Calm s) :
    (s.sliceStart x).afterUnit.bist =
      { s.bist with slice := some { x with swapped := !s.inPlace x.engine x.unit, deferred := false } } ∧
    MemKept s (s.sliceStart x).afterUnit := by
  obtain ⟨hb, hu⟩ := sliceStart_spec hl hw
  obtain ⟨h1, -, h3, -⟩ := afterUnit_kept (s := s.sliceStart x) (.inl (by rw [hb]; rfl)) (calm_of_untested hu hc)
  exact ⟨h1.trans hb, (memKept_of_untested hu).trans h3⟩

/-! ### The rotation -/

theorem sliceDue_eq {e : Bool} {q : Nat} (hn : NoTest s) (hr : s.inReset = false)
    (hen : s.on R.BIST_BIST_CTL F.BIST_BIST_CTL_ROT_EN = true) (hd : s.on R.BIST_BIST_STAT F.BIST_BIST_STAT_BOOT_DONE = true) :
    s.sliceDue e q =
      match s.unitAt e q (s.fld (R.BIST_ROT_STAT q) (if e then F.BIST_ROT_STAT_ENG_SLOT else F.BIST_ROT_STAT_CTRL_SLOT)) with
      | none => (s.inc R.BIST_UNTESTED).slotNext e q
      | some u => s.sliceTry ⟨e, q, s.fld (R.BIST_ROT_STAT q) (if e then F.BIST_ROT_STAT_ENG_SLOT else F.BIST_ROT_STAT_CTRL_SLOT), u,
          s.rotSet, false, false, false, false, false, []⟩ := by
  obtain ⟨hs, hw⟩ := hn
  have hof : (s.sliceOf e q).isSome = false := by
    unfold sliceOf
    rw [hs]
    rfl
  have hdrop : s.dropWaiting e q = s := by
    unfold dropWaiting
    rw [hw]
    rfl
  unfold sliceDue
  rw [hen, hd, hr, hof, if_neg (by decide)]
  dsimp only
  rw [hdrop] <;> rfl

theorem slotNext_fld (e : Bool) (q : Nat) (f : Fld) (hf : f = if e then F.BIST_ROT_STAT_ENG_SLOT else F.BIST_ROT_STAT_CTRL_SLOT) :
    (s.slotNext e q).fld (R.BIST_ROT_STAT q) f = (s.fld (R.BIST_ROT_STAT q) f + 1) % 9 := by
  subst hf
  have hlt : ∀ n : Nat, n % 9 < 16 := fun n => (Nat.mod_lt n (by decide)).trans (by decide)
  unfold slotNext
  cases e
  · exact (fld_put_same _ _ _ _ (by decide)).trans (Nat.mod_eq_of_lt (hlt _))
  · exact (fld_put_same _ _ _ _ (by decide)).trans (Nat.mod_eq_of_lt (hlt _))

/-- A slice of the waiting ones is taken from them. -/
def sliceTaken (s : State) (x : Slice) : State := { s with bist := { s.bist with waiting := s.bist.waiting.erase x } }

theorem sliceRetry_one {e : Bool} {q : Nat} (hw : s.bist.waiting = [x]) (he : x.engine = e) (hq : x.q = q)
    (hd : x.deferred = true) : s.sliceRetry e q = (s.sliceTaken x).sliceTry x := by
  unfold sliceRetry
  rw [hw, List.find?_cons_of_pos (by simp [he, hq, hd])]
  dsimp only
  rw [← hw]
  rfl

theorem sliceTaken_spec (hw : s.bist.waiting = [x]) : (s.sliceTaken x).bist = { s.bist with waiting := [] } ∧
    (s.sliceTaken x).untested = s.untested ∧ (s.sliceTaken x).regs = s.regs ∧ (s.sliceTaken x).eng = s.eng := by
  refine ⟨?_, rfl, rfl, rfl⟩
  have h : (s.sliceTaken x).bist = { s.bist with waiting := s.bist.waiting.erase x } := rfl
  rw [h, hw, List.erase_cons_head]

/-! ### A slice ends -/

theorem sliceOf_some {e : Bool} {q : Nat} (h : s.sliceOf e q = some x) :
    s.bist.slice = some x ∧ x.engine = e ∧ x.q = q := by
  obtain ⟨hs, hp⟩ := Option.filter_eq_some_iff.mp h
  simp only [Bool.and_eq_true, beq_iff_eq] at hp
  obtain ⟨⟨he, hq⟩, -⟩ := hp
  exact ⟨hs, he, hq⟩

/-- No slice runs. -/
def sliceGone (s : State) : State := { s with bist := { s.bist with slice := none } }

/-- A rotation's slice that ends frees the sequencer and moves the slot on. -/
theorem sliceEnd_spec (hx : x.cmd = false) : (s.sliceEnd x).bist = { s.bist with slice := none } ∧
    (s.sliceEnd x).untested = s.untested ∧ ∀ b, b ≠ R.BIST_ROT_STAT x.q → (s.sliceEnd x).rd b = s.rd b := by
  have h : s.sliceEnd x = (s.sliceGone.sliceActive x.engine x.q false).slotNext x.engine x.q := by
    unfold sliceEnd
    rw [hx]
    rfl
  rw [h]
  exact ⟨rfl, rfl, fun b hb => (rd_wr_other _ _ _ _ hb).trans (sliceActive_rd _ _ _ hb)⟩

/-- A slice of a unit that kept its place ends, with what follows. -/
theorem sliceEnded_spec (hx : x.cmd = false) (hp : x.swapped = false) (hw : s.bist.waiting = []) (hc : Calm s) :
    ((s.sliceEnd x).sliceReturn x).afterUnit.bist = { s.bist with slice := none } ∧
    ((s.sliceEnd x).sliceReturn x).afterUnit.fcol.declared = s.fcol.declared ∧
    MemKept s ((s.sliceEnd x).sliceReturn x).afterUnit ∧
    ∀ b, b / 0x1000 = 8 → b ≠ R.BIST_ROT_STAT x.q → ((s.sliceEnd x).sliceReturn x).afterUnit.rd b = s.rd b := by
  obtain ⟨hb, hu, hrd⟩ := sliceEnd_spec (s := s) hx
  have hrb := (unitBlind_bist.sliceReturn (s.sliceEnd x) hp).trans hb
  have hru := (unitBlind_untested.sliceReturn (s.sliceEnd x) hp).trans hu
  obtain ⟨k1, k2, k3, k4⟩ := afterUnit_kept (s := (s.sliceEnd x).sliceReturn x)
    (.inr (by rw [hrb]; intro y hy; rw [hw] at hy; exact absurd hy (by simp))) (calm_of_untested hru hc)
  exact ⟨k1.trans hrb, k2.trans (declared_of_untested hru), (memKept_of_untested hru).trans k3,
    fun b hp8 hn => (k4 b hp8).trans (((unitBlind_rd hp8).sliceReturn _ hp).trans (hrd b hn))⟩

/-- UNIT_RESULT.LAST. -/
theorem setLast_last (e : Bool) (u : Nat) {n : Nat} (hn : n < 4) :
    SMap.get (fun _ => 0) (s.setLast e u n).bist.results (unitKey e u) % 4 = n := by
  have h : (s.setLast e u n).bist.results = SMap.upd (fun _ => 0) (unitKey e u) (fun r => r / 4 * 4 + n) s.bist.results := rfl
  rw [h, get_upd_same]
  omega

theorem setLast_kept (e : Bool) (u n : Nat) : (s.setLast e u n).untested = s.untested ∧ (s.setLast e u n).regs = s.regs ∧
    (s.setLast e u n).bist.slice = s.bist.slice ∧ (s.setLast e u n).bist.waiting = s.bist.waiting ∧
    (s.setLast e u n).eng = s.eng := ⟨rfl, rfl, rfl, rfl, rfl⟩

/-- A pass is recorded with its time. -/
def passNoted (s : State) (x : Slice) : State :=
  { s with bist := { s.bist with
      results := if x.second then SMap.upd (fun _ => 0) (unitKey x.engine x.unit) (fun r => r % 4 + 4) s.bist.results
        else s.bist.results
      passUp := SMap.set (fun _ => 0) (unitKey x.engine x.unit) s.clk.up s.bist.passUp
      passTs := SMap.set (fun _ => 0) (unitKey x.engine x.unit) s.ts s.bist.passTs } }

theorem passNoted_spec : (s.passNoted x).bist.slice = s.bist.slice ∧ (s.passNoted x).bist.waiting = s.bist.waiting ∧
    (s.passNoted x).untested = s.untested ∧ (s.passNoted x).regs = s.regs ∧
    SMap.get (fun _ => 0) (s.passNoted x).bist.passTs (unitKey x.engine x.unit) = s.ts ∧
    SMap.get (fun _ => 0) (s.passNoted x).bist.results (unitKey x.engine x.unit) % 4 =
      SMap.get (fun _ => 0) s.bist.results (unitKey x.engine x.unit) % 4 := by
  refine ⟨rfl, rfl, rfl, rfl, Sys2Proof.Laws.SMap.get_set_same _ _ _ _, ?_⟩
  have h : (s.passNoted x).bist.results = if x.second then
      SMap.upd (fun _ => 0) (unitKey x.engine x.unit) (fun r => r % 4 + 4) s.bist.results else s.bist.results := rfl
  rw [h]
  split
  · rw [get_upd_same]
    omega
  · rfl

theorem slicePass_eq (hx : x.cmd = false) : s.slicePass x =
    (((((s.inc R.BIST_SLICES).setLast x.engine x.unit 1).passNoted x).sliceEnd x).sliceReturn x) := by
  unfold slicePass
  dsimp only
  rw [hx, if_neg (by decide)]
  rfl

theorem sliceDone_eq {e : Bool} {q : Nat} {r : SliceResult} (h : s.sliceOf e q = some x) (hf : s.fenced x = true) :
    s.sliceDone e q r = if !r.memFail ∧ r.sig = Config.bistSig e x.set then s.slicePass x else s.sliceFail x r.sig := by
  unfold sliceDone
  rw [h]
  dsimp only
  rw [hf]
  rfl

theorem sliceFail_first (sig : BitVec 64) (hx : x.second = false) : s.sliceFail x sig =
    ((((s.inc R.BIST_SLICES).inc R.BIST_SLICE_FAILS).setLast x.engine x.unit 2).wr64 R.BIST_SIG_LO sig).sliceSet
      { x with second := true } := by
  unfold sliceFail
  dsimp only
  rw [hx]
  rfl

theorem sliceTimeout_eq {e : Bool} {q : Nat} (h : s.sliceOf e q = some x) (hx : x.cmd = false) (h2 : x.set ≠ 2) :
    s.sliceTimeout e q =
      ((((s.inc R.BIST_ABANDONED).inc R.BIST_UNTESTED).setLast x.engine x.unit 3).sliceEnd x).sliceReturn x := by
  unfold sliceTimeout
  rw [h]
  dsimp only
  rw [if_neg h2, hx, if_neg (by decide)]

/-! ### BIST_CMD (R399) -/

theorem regSet_bistCmd {w : RegWrite} (h : Open s w.path R.BIST_BIST_CMD) : s.regSet w R.BIST_BIST_CMD F.BIST_BIST_CMD_START =
    (s.bistCmd (F.BIST_BIST_CMD_START.set 1 w.value &&& 1023#32)).afterUnit := by
  have hpage : (pageOf R.BIST_BIST_CMD == 1) = false := by decide
  refine (regCmd_plain (m := 0) (c := 1023#32) (F.BIST_BIST_CMD_START.set 1 w.value) h (by unfold PlainReg; decide +kernel) rfl
    (by rw [hpage, Bool.false_and])).trans ?_
  have hafter (t : State) : t.afterWrite (pageOf R.BIST_BIST_CMD) = t.afterUnit := by
    simp [afterWrite, show firstOf (pageOf R.BIST_BIST_CMD) = 0x008 by decide]
  rw [regEffect_bist (by decide) (by decide), hafter]
  rfl

/-- The fields of BIST_CMD as they are written. -/
theorem bistCmd_get (v : Word) {f : Fld} (h1 : f.mask &&& 1023#32 = f.mask)
    (h2 : f.lsb + f.width ≤ F.BIST_BIST_CMD_START.lsb ∨ F.BIST_BIST_CMD_START.lsb + F.BIST_BIST_CMD_START.width ≤ f.lsb) :
    f.get (F.BIST_BIST_CMD_START.set 1 v &&& 1023#32) = f.get v := by
  rw [Fld.get_and _ h1, Fld.get_set_other _ _ _ _ h2]

theorem bistCmd_idle {v : Word} (h : s.on R.BIST_BIST_STAT F.BIST_BIST_STAT_BUSY = true ∨ 36 ≤ F.BIST_BIST_CMD_UNIT.get v) :
    s.bistCmd v = s := if_pos (.inr h)

/-- BIST_STAT shows that a run begins. -/
def runShown (s : State) : State :=
  (((s.flag R.BIST_BIST_STAT F.BIST_BIST_STAT_PASS false).flag R.BIST_BIST_STAT F.BIST_BIST_STAT_FAIL false).flag R.BIST_BIST_STAT
    F.BIST_BIST_STAT_ABANDONED false).flag R.BIST_BIST_STAT F.BIST_BIST_STAT_BUSY true

theorem runShown_rd (h : a ≠ R.BIST_BIST_STAT) : s.runShown.rd a = s.rd a :=
  (rd_wr_other _ _ _ _ h).trans ((rd_wr_other _ _ _ _ h).trans ((rd_wr_other _ _ _ _ h).trans (rd_wr_other _ _ _ _ h)))

theorem runShown_spec : s.runShown.bist = s.bist ∧ s.runShown.untested = s.untested ∧ s.runShown.eng = s.eng ∧
    s.runShown.fcol = s.fcol ∧ s.runShown.clk = s.clk ∧ s.runShown.spare = s.spare ∧ s.runShown.place = s.place ∧
    s.runShown.ch = s.ch := ⟨rfl, rfl, rfl, rfl, rfl, rfl, rfl, rfl⟩

/-- Where a unit is tested rests on no register of the BIST page. -/
theorem inPlace_congr (hr : ∀ a, a / 0x1000 ≠ 8 → t.rd a = s.rd a) : t.inPlace = s.inPlace := by
  have hstat (e : Nat) : t.rd (R.ENG_ENG_STAT e) = s.rd (R.ENG_ENG_STAT e) := hr _ (by unfold R.ENG_ENG_STAT; omega)
  have hctl (e : Nat) : t.rd (R.ENG_ENG_CTL e) = s.rd (R.ENG_ENG_CTL e) := hr _ (by unfold R.ENG_ENG_CTL; omega)
  have hmap (k : Nat) : t.rd (R.CHC_CHAN_MAP k) = s.rd (R.CHC_CHAN_MAP k) := hr _ (by unfold R.CHC_CHAN_MAP; omega)
  have hspare : t.engIsSpare = s.engIsSpare := funext fun n => on_eq_of_rd (hstat n) _
  have hstate : t.engState = s.engState := funext fun n => fld_eq_of_rd (hstat n) _
  have husable : t.engUsable = s.engUsable := funext fun n => by
    unfold engUsable
    rw [on_eq_of_rd (hctl n), hstate]
  funext e u
  unfold inPlace spareInUse engSpareOf
  rw [hspare, husable, hstate, on_eq_of_rd (hmap u)]

/-- The conditions of a slice rest on no register of the BIST page. -/
theorem sliceBlocked_congr (hr : ∀ a, a / 0x1000 ≠ 8 → t.rd a = s.rd a) (hf : t.fcol = s.fcol) (hk : t.clk = s.clk)
    (hs : t.spare = s.spare) (hp : t.place = s.place) (hc : t.ch = s.ch) (x : Slice) : t.sliceBlocked x = s.sliceBlocked x := by
  have hstat (e : Nat) : t.rd (R.ENG_ENG_STAT e) = s.rd (R.ENG_ENG_STAT e) := hr _ (by unfold R.ENG_ENG_STAT; omega)
  have hctl (e : Nat) : t.rd (R.ENG_ENG_CTL e) = s.rd (R.ENG_ENG_CTL e) := hr _ (by unfold R.ENG_ENG_CTL; omega)
  have hmap (k : Nat) : t.rd (R.CHC_CHAN_MAP k) = s.rd (R.CHC_CHAN_MAP k) := hr _ (by unfold R.CHC_CHAN_MAP; omega)
  have husable : t.engUsable = s.engUsable := funext fun n => by
    unfold engUsable engState
    rw [on_eq_of_rd (hctl n), fld_eq_of_rd (hstat n)]
  have hspare : t.ctrlSpare = s.ctrlSpare := funext fun k => by
    unfold ctrlSpare declared
    rw [on_eq_of_rd (hmap k), on_eq_of_rd (hr (0x1000 * (0x100 + k) + 0x0C) (by omega)),
      on_eq_of_rd (hr (0x1000 * (0x100 + k) + 0x10) (by omega)), on_eq_of_rd (hr (0x1000 * (0x100 + k) + 0x10) (by omega)), hf, hc]
  unfold sliceBlocked drogue tripped quadSpare chanRetiring chanOf
  rw [on_eq_of_rd (hr R.CLK_CLK_STAT (by decide)), on_eq_of_rd (hr R.THERM_THERM_STAT2 (by decide)), hf, hk, hs, hp, hspare, husable,
    inPlace_congr hr, fld_eq_of_rd (hmap _)]

theorem bistCmd_engine {v : Word} {u : Nat} (hb : s.on R.BIST_BIST_STAT F.BIST_BIST_STAT_BUSY = false)
    (hs : F.BIST_BIST_CMD_START.get v = 1) (hu : u = F.BIST_BIST_CMD_UNIT.get v) (h36 : u < 36) (hg : s.engGone u = false)
    (hc : F.BIST_BIST_CMD_CLASS.get v = 1) (hp : s.inPlace true u = true) : s.bistCmd v =
      s.runShown.sliceTry ⟨true, u / 9, u % 9, u, bistSet (F.BIST_BIST_CMD_SET.get v), false, true, false, false, false, []⟩ := by
  subst hu
  have hstat (t : State) (f : Fld) (b : Bool) : (t.flag R.BIST_BIST_STAT f b).engGone (F.BIST_BIST_CMD_UNIT.get v) =
      t.engGone (F.BIST_BIST_CMD_UNIT.get v) := by
    unfold engGone engState
    rw [fld_flag_other _ _ _ _ _ _ (.inl (by unfold R.ENG_ENG_STAT; simp only [R.BIST_BIST_STAT]; omega))]
  have hcond : ¬(F.BIST_BIST_CMD_START.get v ≠ 1 ∨ s.on R.BIST_BIST_STAT F.BIST_BIST_STAT_BUSY = true ∨
      36 ≤ F.BIST_BIST_CMD_UNIT.get v) := by
    rw [hb]
    rintro (h | h | h)
    · exact h hs
    · exact absurd h (by decide)
    · omega
  unfold bistCmd
  dsimp only
  rw [if_neg hcond, hc, decide_eq_true rfl, hp, if_pos rfl, hstat, hstat, hstat, hg, if_neg (by decide), Bool.not_true,
    if_neg (fun h => absurd h.2 (by decide))]
  rfl

end State
end Sys2Proof.Machine

namespace Sys2Proof.Safety
open Sys2Proof.Machine Sys2Proof.Machine.State

/-! ### The commands -/

theorem slice_self {x : Slice} (hs : x.swapped = false) (hd : x.deferred = false) :
    { x with swapped := false, deferred := false } = x := by
  cases x
  subst hs hd
  rfl

theorem rotStat_ne (q : Fin 4) : ∀ b ∈ [R.BIST_UNTESTED, R.BIST_SLICES, R.BIST_SLICE_FAILS, R.BIST_ABANDONED],
    b ≠ R.BIST_ROT_STAT q := by
  revert q
  decide

theorem rotStat_page (q : Fin 4) : pageOf (R.BIST_ROT_STAT q) ≠ 0x014 := by
  revert q
  decide

theorem slotNext_untested (s : State) (e : Bool) (q : Nat) : (s.slotNext e q).untested = s.untested := rfl

theorem slotNext_bist (s : State) (e : Bool) (q : Nat) : (s.slotNext e q).bist = s.bist := rfl

theorem sliceDue_skips : ∀ (s : State) e (q : Fin 4), Calm s → NoTest s → s.inReset = false → s.on R.BIST_BIST_CTL F.BIST_BIST_CTL_ROT_EN = true →
    s.on R.BIST_BIST_STAT F.BIST_BIST_STAT_BOOT_DONE = true →
    s.unitAt e q (s.fld (R.BIST_ROT_STAT q) (if e then F.BIST_ROT_STAT_ENG_SLOT else F.BIST_ROT_STAT_CTRL_SLOT)) = none →
    Gives (.rotationSliceDue e q) s fun t =>
    t.bist = s.bist ∧ t.rd R.BIST_UNTESTED = s.rd R.BIST_UNTESTED + 1 ∧
    t.fld (R.BIST_ROT_STAT q) (if e then F.BIST_ROT_STAT_ENG_SLOT else F.BIST_ROT_STAT_CTRL_SLOT) =
    (s.fld (R.BIST_ROT_STAT q) (if e then F.BIST_ROT_STAT_ENG_SLOT else F.BIST_ROT_STAT_CTRL_SLOT) + 1) % 9 ∧
    MemKept s t ∧ RegsKept s t [0x014] [R.BIST_UNTESTED, R.BIST_ROT_STAT q] := by
  intro s e q hc hn hr hen hd hu
  have heq : s.sliceDue e q = (s.inc R.BIST_UNTESTED).slotNext e q := by rw [sliceDue_eq hn hr hen hd, hu]
  have hne := rotStat_ne q R.BIST_UNTESTED (by simp)
  have hcount : (s.inc R.BIST_UNTESTED).rd R.BIST_UNTESTED = s.rd R.BIST_UNTESTED + 1 := (rd_inc ..).trans (if_pos rfl)
  have hrot : (s.inc R.BIST_UNTESTED).rd (R.BIST_ROT_STAT q) = s.rd (R.BIST_ROT_STAT q) := (rd_inc ..).trans (if_neg hne.symm)
  have hb : (s.inc R.BIST_UNTESTED).bist = s.bist := inc_bist ..
  have hu := inc_untested (s := s) (a := R.BIST_UNTESTED) 1
  have hk : RegsKept s (s.inc R.BIST_UNTESTED) [0x014] [R.BIST_UNTESTED, R.BIST_ROT_STAT q] := (RegsKept.refl s).inc _ (by simp)
  generalize s.inc R.BIST_UNTESTED = u at heq hcount hrot hb hu hk
  have hut := (slotNext_untested u e q).trans hu
  have hbt := (slotNext_bist u e q).trans hb
  have hct := calm_of_untested hut hc
  have hnt : NoTest (u.slotNext e q) := by
    unfold NoTest
    rw [hbt]
    exact hn
  have hend : (s.sliceDue e q).afterUnit = (u.slotNext e q).settle := by rw [heq, afterUnit_noTest hnt]
  refine gives_of_eq rfl hend
    ⟨(settle_bist hct).trans hbt, ?_, ?_, (memKept_of_untested hut).trans (.settle hct), ?_⟩
  · exact (settle_rd hct _ (by decide)).trans ((rd_wr_other _ _ _ _ hne).trans hcount)
  · refine (fld_eq_of_rd (settle_rd hct _ (rotStat_page q)) _).trans ((slotNext_fld e q _ rfl).trans ?_)
    rw [fld_eq_of_rd hrot]
  · exact (hk.put _ _ (by simp)).trans (.settle hct (by simp))

theorem sliceDue_starts : ∀ (s : State) e (q : Fin 4) x, Calm s → NoTest s → s.inReset = false → s.eng.works = [] →
    s.on R.BIST_BIST_CTL F.BIST_BIST_CTL_ROT_EN = true → s.on R.BIST_BIST_STAT F.BIST_BIST_STAT_BOOT_DONE = true →
    x = ⟨e, q, s.fld (R.BIST_ROT_STAT q) (if e then F.BIST_ROT_STAT_ENG_SLOT else F.BIST_ROT_STAT_CTRL_SLOT), x.unit,
    s.rotSet, false, false, false, false, false, []⟩ → s.unitAt e q x.slot = some x.unit → s.inPlace e x.unit = true →
    s.sliceBlocked x = false → Gives (.rotationSliceDue e q) s fun t =>
    t.bist = { s.bist with slice := some x } ∧ MemKept s t := by
  intro s e q x hc hn hr hw hen hd hx hu hp hb
  have hxe : x.engine = e := by rw [hx]
  have hsw : x.swapped = false := by rw [hx]
  have hdf : x.deferred = false := by rw [hx]
  have hl : x.lent = [] := by rw [hx]
  have hslot : x.slot = s.fld (R.BIST_ROT_STAT q) (if e then F.BIST_ROT_STAT_ENG_SLOT else F.BIST_ROT_STAT_CTRL_SLOT) := by rw [hx]
  have heq : s.sliceDue e q = s.sliceStart x := by
    rw [sliceDue_eq hn hr hen hd, ← hslot, hu]
    dsimp only
    rw [hslot, ← hx]
    exact sliceTry_start hn.1 hb
  obtain ⟨h1, h2⟩ := sliceStart_afterUnit hl hw hc
  refine gives_of_eq rfl (by rw [heq]) ⟨h1.trans ?_, h2⟩
  have hpl : s.inPlace x.engine x.unit = true := by rw [hxe]; exact hp
  rw [hpl]
  exact congrArg (fun y => { s.bist with slice := some y }) (slice_self hsw hdf)

theorem sliceRetry_defers : ∀ (s : State) e (q : Fin 4) x, Calm s → s.bist.slice = none → s.bist.waiting = [x] → x.engine = e → x.q = q.val →
    s.released = true → x.deferred = true → s.sliceBlocked x = true → Gives (.sliceRetry e q) s fun t =>
    t.bist.slice = none ∧ t.bist.waiting = [x] ∧ t.rd R.BIST_DEFERRED = s.rd R.BIST_DEFERRED + 1 ∧ MemKept s t ∧
    RegsKept s t [0x014] [R.BIST_DEFERRED] := by
  intro s e q x hc hs hw he hq hr hd hb
  have hb' : (s.sliceTaken x).sliceBlocked x = true := hb
  obtain ⟨kb, ku, kr, -⟩ := sliceTaken_spec hw
  have heq : s.sliceRetry e q = ((s.sliceTaken x).sliceWaits x).inc R.BIST_DEFERRED := by
    rw [sliceRetry_one hw he hq hd, sliceTry_blocked (by rw [kb]; exact hs) hb']
  have hbist : (((s.sliceTaken x).sliceWaits x).inc R.BIST_DEFERRED).bist = { s.bist with waiting := [x] } := by
    have hwaits : ((s.sliceTaken x).sliceWaits x).bist =
        { (s.sliceTaken x).bist with waiting := (s.sliceTaken x).bist.waiting ++ [{ x with deferred := true }] } := rfl
    rw [inc_bist, hwaits, kb, ← hd]
    rfl
  have hu : (((s.sliceTaken x).sliceWaits x).inc R.BIST_DEFERRED).untested = s.untested := (inc_untested 1).trans ku
  have hct := calm_of_untested hu hc
  have hafter : (s.sliceRetry e q).afterUnit = (((s.sliceTaken x).sliceWaits x).inc R.BIST_DEFERRED).settle := by
    rw [heq, afterUnit_eq (.inr (by rw [hbist]; intro y hy; rw [List.mem_singleton.mp hy]; exact hd))]
    unfold sliceFence
    rw [hbist]
    dsimp only
    rw [hs]
  refine gives_of_eq rfl ((clocked_eq hr _).trans hafter) ⟨?_, ?_, ?_, (memKept_of_untested hu).trans (.settle hct), ?_⟩
  · rw [settle_bist hct, hbist]
    exact hs
  · rw [settle_bist hct, hbist]
  · exact (settle_rd hct _ (by decide)).trans ((rd_inc ..).trans (if_pos rfl))
  · have hk : RegsKept s ((s.sliceTaken x).sliceWaits x) [0x014] [R.BIST_DEFERRED] := .of_regs (.refl s) rfl
    exact (hk.inc _ (.inl (by simp))).trans (.settle hct (by simp))

theorem sliceRetry_starts : ∀ (s : State) e (q : Fin 4) x, Calm s → s.bist.slice = none → s.bist.waiting = [x] → x.engine = e → x.q = q.val →
    s.released = true → s.eng.works = [] → x.lent = [] → x.deferred = true → s.sliceBlocked x = false →
    Gives (.sliceRetry e q) s fun t =>
    t.bist = { s.bist with
    slice := some { x with swapped := !s.inPlace e x.unit, deferred := false }, waiting := [] } ∧ MemKept s t := by
  intro s e q x hc hs hw he hq hr hwk hl hd hb
  have hb' : (s.sliceTaken x).sliceBlocked x = false := hb
  obtain ⟨kb, ku, -, ke⟩ := sliceTaken_spec hw
  have heq : s.sliceRetry e q = (s.sliceTaken x).sliceStart x := by
    rw [sliceRetry_one hw he hq hd, sliceTry_start (by rw [kb]; exact hs) hb']
  obtain ⟨h1, h2⟩ := sliceStart_afterUnit (s := s.sliceTaken x) hl (by rw [ke]; exact hwk) (calm_of_untested ku hc)
  refine gives_of_eq rfl ((clocked_eq hr _).trans (congrArg afterUnit heq)) ⟨h1.trans ?_, (memKept_of_untested ku).trans h2⟩
  rw [kb, he]
  rfl

theorem sliceDone_passes : ∀ (s : State) e (q : Fin 4) x, Calm s → s.bist.waiting = [] → s.sliceOf e q = some x → x.swapped = false →
    x.cmd = false → s.released = true → s.fenced x = true → Gives (.sliceBistDone e q ⟨Config.bistSig e x.set, false⟩) s fun t =>
    t.bist.slice = none ∧ SMap.get (fun _ => 0) t.bist.results (State.unitKey x.engine x.unit) % 4 = 1 ∧
    SMap.get (fun _ => 0) t.bist.passTs (State.unitKey x.engine x.unit) = s.ts ∧
    t.rd R.BIST_SLICES = s.rd R.BIST_SLICES + 1 ∧ t.rd R.BIST_SLICE_FAILS = s.rd R.BIST_SLICE_FAILS ∧ MemKept s t := by
  intro s e q x hc hw hs hsw hcmd hr hf
  obtain ⟨hsl, he, hq⟩ := sliceOf_some hs
  subst he
  have heq := (sliceDone_eq (r := ⟨Config.bistSig x.engine x.set, false⟩) hs hf).trans ((if_pos ⟨rfl, rfl⟩).trans (slicePass_eq hcmd))
  obtain ⟨lu, lr, -, lw, -⟩ := setLast_kept (s := s.inc R.BIST_SLICES) x.engine x.unit 1
  have hlast := setLast_last (s := s.inc R.BIST_SLICES) x.engine x.unit (n := 1) (by decide)
  generalize hv : (s.inc R.BIST_SLICES).setLast x.engine x.unit 1 = v at lu lr lw hlast heq
  obtain ⟨-, pw, pu, pr, pts, pres⟩ := passNoted_spec (s := v) (x := x)
  have hu := pu.trans (lu.trans (inc_untested 1))
  have hwt : (v.passNoted x).bist.waiting = [] := by rw [pw, lw, inc_bist]; exact hw
  obtain ⟨k1, -, k3, k4⟩ := sliceEnded_spec hcmd hsw hwt (calm_of_untested hu hc)
  have hcount (b : Nat) (h8 : b / 0x1000 = 8) (hb : b ≠ R.BIST_ROT_STAT x.q) :=
    (k4 b h8 hb).trans ((rd_eq_of_regs pr b).trans ((rd_eq_of_regs lr b).trans (rd_inc ..)))
  have hne : R.BIST_SLICES ≠ R.BIST_ROT_STAT x.q ∧ R.BIST_SLICE_FAILS ≠ R.BIST_ROT_STAT x.q := by
    rw [hq]
    exact ⟨rotStat_ne q _ (by simp), rotStat_ne q _ (by simp)⟩
  refine gives_of_eq rfl ((clocked_eq hr _).trans (congrArg afterUnit heq)) ⟨?_, ?_, ?_, ?_, ?_, (memKept_of_untested hu).trans k3⟩
  · rw [k1]
  · rw [k1]
    exact pres.trans hlast
  · rw [k1]
    exact pts.trans (ts_of_untested (lu.trans (inc_untested 1)))
  · exact (hcount _ (by decide) hne.1).trans (if_pos rfl)
  · exact (hcount _ (by decide) hne.2).trans (if_neg (by decide))

theorem sliceDone_repeats : ∀ (s : State) e (q : Fin 4) x (y : SliceResult), Calm s → s.bist.waiting = [] → s.eng.works = [] → s.sliceOf e q = some x →
    x.second = false → s.released = true → s.fenced x = true → y.sig ≠ Config.bistSig e x.set ∨ y.memFail = true →
    Gives (.sliceBistDone e q y) s fun t =>
    t.bist.slice = some { x with second := true } ∧
    SMap.get (fun _ => 0) t.bist.results (State.unitKey x.engine x.unit) % 4 = 2 ∧
    t.rd R.BIST_SLICE_FAILS = s.rd R.BIST_SLICE_FAILS + 1 ∧ t.rd64 R.BIST_SIG_LO = y.sig ∧
    t.fcol.declared = s.fcol.declared ∧ MemKept s t := by
  intro s e q x y hc hw hwk hs hsec hr hf hy
  obtain ⟨hsl, he, -⟩ := sliceOf_some hs
  subst he
  have hno : ¬((!y.memFail) = true ∧ y.sig = Config.bistSig x.engine x.set) := by
    rintro ⟨h1, h2⟩
    rcases hy with h | h
    · exact h h2
    · rw [h] at h1
      exact absurd h1 (by decide)
  have heq := (sliceDone_eq (r := y) hs hf).trans ((if_neg hno).trans (sliceFail_first y.sig hsec))
  have hfails : ((s.inc R.BIST_SLICES).inc R.BIST_SLICE_FAILS).rd R.BIST_SLICE_FAILS = s.rd R.BIST_SLICE_FAILS + 1 := by
    rw [rd_inc, if_pos rfl, rd_inc, if_neg (by decide)]
    rfl
  have hu2 : ((s.inc R.BIST_SLICES).inc R.BIST_SLICE_FAILS).untested = s.untested := (inc_untested 1).trans (inc_untested 1)
  generalize (s.inc R.BIST_SLICES).inc R.BIST_SLICE_FAILS = u at hfails hu2 heq
  obtain ⟨lu, lr, -, -, -⟩ := setLast_kept (s := u) x.engine x.unit 2
  have hlast := setLast_last (s := u) x.engine x.unit (n := 2) (by decide)
  generalize u.setLast x.engine x.unit 2 = v at lu lr hlast heq
  have hset : ((v.wr64 R.BIST_SIG_LO y.sig).sliceSet { x with second := true }).bist.slice = some { x with second := true } ∧
      ((v.wr64 R.BIST_SIG_LO y.sig).sliceSet { x with second := true }).bist.results = v.bist.results ∧
      ((v.wr64 R.BIST_SIG_LO y.sig).sliceSet { x with second := true }).untested = v.untested ∧
      ((v.wr64 R.BIST_SIG_LO y.sig).sliceSet { x with second := true }).regs = (v.wr64 R.BIST_SIG_LO y.sig).regs :=
    ⟨rfl, rfl, rfl, rfl⟩
  generalize (v.wr64 R.BIST_SIG_LO y.sig).sliceSet { x with second := true } = z at hset heq
  obtain ⟨zs, zr, zu, zrg⟩ := hset
  have hu := zu.trans (lu.trans hu2)
  obtain ⟨k1, k2, k3, k4⟩ := afterUnit_kept (s := z) (.inl (by rw [zs]; rfl)) (calm_of_untested hu hc)
  refine gives_of_eq rfl ((clocked_eq hr _).trans (congrArg afterUnit heq)) ⟨by rw [k1, zs], ?_, ?_, ?_,
    k2.trans (declared_of_untested hu), (memKept_of_untested hu).trans k3⟩
  · rw [k1, zr]
    exact hlast
  · rw [k4 _ (by decide), rd_eq_of_regs zrg, State.wr64, rd_wr_other _ _ _ _ (by decide), rd_wr_other _ _ _ _ (by decide),
      rd_eq_of_regs lr, hfails]
  · unfold State.rd64
    rw [k4 _ (by decide), k4 _ (by decide), rd_eq_of_regs zrg, rd_eq_of_regs zrg]
    exact rd64_wr64 ..

theorem sliceTimeout_ends : ∀ (s : State) e (q : Fin 4) x, Calm s → s.bist.waiting = [] → s.sliceOf e q = some x → x.swapped = false →
    x.cmd = false → s.released = true → x.set ≠ 2 → Gives (.sliceTimeout e q) s fun t =>
    t.bist.slice = none ∧ SMap.get (fun _ => 0) t.bist.results (State.unitKey x.engine x.unit) % 4 = 3 ∧
    t.rd R.BIST_ABANDONED = s.rd R.BIST_ABANDONED + 1 ∧ t.rd R.BIST_UNTESTED = s.rd R.BIST_UNTESTED + 1 ∧
    t.fcol.declared = s.fcol.declared ∧ MemKept s t := by
  intro s e q x hc hw hs hsw hcmd hr hset
  obtain ⟨hsl, he, hq⟩ := sliceOf_some hs
  subst he
  have heq := sliceTimeout_eq hs hcmd hset
  have hcount : ((s.inc R.BIST_ABANDONED).inc R.BIST_UNTESTED).rd R.BIST_ABANDONED = s.rd R.BIST_ABANDONED + 1 ∧
      ((s.inc R.BIST_ABANDONED).inc R.BIST_UNTESTED).rd R.BIST_UNTESTED = s.rd R.BIST_UNTESTED + 1 := by
    refine ⟨?_, ?_⟩
    · rw [rd_inc, if_neg (by decide), rd_inc, if_pos rfl]
      rfl
    · rw [rd_inc, if_pos rfl, rd_inc, if_neg (by decide)]
      rfl
  have hu2 : ((s.inc R.BIST_ABANDONED).inc R.BIST_UNTESTED).untested = s.untested := (inc_untested 1).trans (inc_untested 1)
  have hw2 : ((s.inc R.BIST_ABANDONED).inc R.BIST_UNTESTED).bist.waiting = [] := by rw [inc_bist, inc_bist]; exact hw
  generalize (s.inc R.BIST_ABANDONED).inc R.BIST_UNTESTED = u at hcount hu2 hw2 heq
  obtain ⟨lu, lr, -, lw, -⟩ := setLast_kept (s := u) x.engine x.unit 3
  have hlast := setLast_last (s := u) x.engine x.unit (n := 3) (by decide)
  generalize u.setLast x.engine x.unit 3 = v at lu lr lw hlast heq
  have hu := lu.trans hu2
  obtain ⟨k1, k2, k3, k4⟩ := sliceEnded_spec hcmd hsw (lw.trans hw2) (calm_of_untested hu hc)
  have hne : R.BIST_ABANDONED ≠ R.BIST_ROT_STAT x.q ∧ R.BIST_UNTESTED ≠ R.BIST_ROT_STAT x.q := by
    rw [hq]
    exact ⟨rotStat_ne q _ (by simp), rotStat_ne q _ (by simp)⟩
  refine gives_of_eq rfl ((clocked_eq hr _).trans (congrArg afterUnit heq)) ⟨by rw [k1], ?_, ?_, ?_,
    k2.trans (declared_of_untested hu), (memKept_of_untested hu).trans k3⟩
  · rw [k1]
    exact hlast
  · rw [k4 _ (by decide) hne.1, rd_eq_of_regs lr, hcount.1]
  · rw [k4 _ (by decide) hne.2, rd_eq_of_regs lr, hcount.2]

theorem bistCmd_ignored : ∀ (s : State) w, Open s w.path R.BIST_BIST_CMD → Calm s → NoTest s →
    s.on R.BIST_BIST_STAT F.BIST_BIST_STAT_BUSY = true ∨ 36 ≤ F.BIST_BIST_CMD_UNIT.get w.value → Gives (.bistCmd w) s fun t =>
    t.bist = s.bist ∧ MemKept s t ∧ RegsKept s t [0x014] [] := by
  intro s w ho hc hn h
  have hidle : s.bistCmd (F.BIST_BIST_CMD_START.set 1 w.value &&& 1023#32) = s :=
    bistCmd_idle (h.imp id fun h => by rw [bistCmd_get _ (by decide) (by decide)]; exact h)
  have hend : s.regSet w R.BIST_BIST_CMD F.BIST_BIST_CMD_START = s.settle := by
    rw [regSet_bistCmd ho, hidle, afterUnit_noTest hn]
  refine gives_of_eq rfl hend ⟨settle_bist hc, .settle hc, ?_⟩
  exact (RegsKept.refl s).trans (.settle hc (by simp))

theorem bistCmd_starts : ∀ (s : State) w u x, Open s w.path R.BIST_BIST_CMD → Calm s → s.on R.BIST_BIST_STAT F.BIST_BIST_STAT_BUSY = false →
    s.bist.slice = none → s.eng.works = [] → u = F.BIST_BIST_CMD_UNIT.get w.value → u < 36 → s.engGone u = false →
    F.BIST_BIST_CMD_CLASS.get w.value = 1 → s.inPlace true u = true →
    x = ⟨true, u / 9, u % 9, u, bistSet (F.BIST_BIST_CMD_SET.get w.value), false, true, false, false, false, []⟩ →
    s.sliceBlocked x = false → Gives (.bistCmd w) s fun t =>
    t.bist = { s.bist with slice := some x } ∧ t.on R.BIST_BIST_STAT F.BIST_BIST_STAT_BUSY = true ∧ t.engState u = 6 ∧
    MemKept s t := by
  intro s w u x ho hc hb hs hwk hu h36 hg hcl hp hx hbl
  have hget {f : Fld} := bistCmd_get w.value (f := f)
  have hstart : F.BIST_BIST_CMD_START.get (F.BIST_BIST_CMD_START.set 1 w.value &&& 1023#32) = 1 := by
    rw [Fld.get_and _ (by decide), Fld.get_set _ _ _ (by decide)]
    rfl
  have hcmd := bistCmd_engine hb hstart (u := u) (by rw [hget (by decide) (by decide)]; exact hu) h36 hg
    (by rw [hget (by decide) (by decide)]; exact hcl) hp
  rw [hget (by decide) (by decide), ← hx] at hcmd
  obtain ⟨rb, ru, re, rf, rk, rs, rp, rc⟩ := runShown_spec (s := s)
  have hrd : ∀ a, a / 0x1000 ≠ 8 → s.runShown.rd a = s.rd a := fun a ha => runShown_rd (by
    rintro rfl
    exact ha (by decide))
  have hxe : x.engine = true := by rw [hx]
  have hxu : x.unit = u := by rw [hx]
  have hxf : x.swapped = false ∧ x.deferred = false ∧ x.lent = [] := by rw [hx]; exact ⟨rfl, rfl, rfl⟩
  obtain ⟨hsw, hdf, hl⟩ := hxf
  have hpl : s.runShown.inPlace x.engine x.unit = true := by rw [inPlace_congr hrd, hxe, hxu]; exact hp
  have htry : s.runShown.sliceTry x = s.runShown.sliceStart x :=
    sliceTry_start (by rw [rb]; exact hs) ((sliceBlocked_congr hrd rf rk rs rp rc x).trans hbl)
  have hwk' : s.runShown.eng.works = [] := by rw [re]; exact hwk
  obtain ⟨hbist, hun⟩ := sliceStart_spec hl hwk'
  have hself : some { x with swapped := !s.runShown.inPlace x.engine x.unit, deferred := false } = some x := by
    rw [hpl]
    exact congrArg some (slice_self hsw hdf)
  rw [hself, rb] at hbist
  have hslice : (s.runShown.sliceStart x).bist.slice = some x := by rw [hbist]
  have hct := calm_of_untested (hun.trans ru) hc
  obtain ⟨k1, -, k3, k4⟩ := afterUnit_kept (.inl (by rw [hslice]; rfl)) hct
  have hend : s.regSet w R.BIST_BIST_CMD F.BIST_BIST_CMD_START = (s.runShown.sliceStart x).afterUnit := by
    rw [regSet_bistCmd ho, hcmd, htry]
  refine gives_of_eq rfl hend ⟨k1.trans hbist, ?_, ?_,
    (memKept_of_untested (hun.trans ru)).trans k3⟩
  · have hstat : (s.runShown.sliceStart x).rd R.BIST_BIST_STAT = s.runShown.rd R.BIST_BIST_STAT := by
      rw [sliceStart_place hpl, (unitBlind_rd (by decide)).sliceFence, sliceActive_rd _ _ _ (by
        simp only [R.BIST_BIST_STAT, R.BIST_ROT_STAT]
        omega)]
      rfl
    rw [on_eq_of_rd ((k4 _ (by decide)).trans hstat)]
    exact on_flag_same _ _ _ _ (by decide) rfl
  · have hfence : (s.runShown.sliceStart x).engState x.unit = 6 := by
      rw [sliceStart_place hpl]
      exact sliceFence_engine (x := { x with swapped := false, deferred := false }) rfl hxe hwk'
    rw [afterUnit_eq (.inl (by rw [hslice]; rfl)), sliceFence_self hslice hxe hfence, ← hxu]
    refine (fld_eq_of_rd (settle_rd hct _ ?_) _).trans hfence
    simp only [R.ENG_ENG_STAT, pageOf]
    omega

/-- Settles O47: a slice that starts or ends changes the sequencer's slice and the registers of the unit's page, and what
follows its step fences the unit at most. -/
theorem rotationSlices : Obligations.RotationSlices :=
  ⟨sliceDue_skips, sliceDue_starts, sliceRetry_defers, sliceRetry_starts, sliceDone_passes, sliceDone_repeats, sliceTimeout_ends, bistCmd_ignored, bistCmd_starts⟩

end Sys2Proof.Safety
end

section
/-! SUPPORT. Analogue checks and calibration words (R398, R402, R403): what applying a word and ending a commit leave alone,
and where each word of a block stands. -/

namespace Sys2Proof.Machine
open Sys2Proof.Safety State Sys2Proof.Laws

/-! ### What a commit leaves alone -/

/-- A part of the state that is no status of the calibration, none of the channels' pages, and no training of a channel. -/
structure CalBlind {α : Type} (g : State → α) : Prop where
  wr : ∀ (t : State) a v, a / 0x1000 = 9 ∧ a ≠ R.CAL_TOSC_STAT ∨ 0x140000 ≤ a → g (t.wr a v) = g t
  counted : ∀ (t : State) a n, g (t.counted a n) = g t
  ch : ∀ (t : State) c, c.cal = t.ch.cal → g { t with ch := c } = g t
  cal : ∀ (t : State) x, x.adc = t.cal.adc → x.sensor = t.cal.sensor → g { t with cal := x } = g t

namespace State

/-- No word waits. -/
def pendDropped (s : State) : State := { s with cal := { s.cal with pend := [] } }

/-- An application is counted and timed. -/
def appliedNoted (s : State) (code : Nat) : State :=
  { s with cal := { s.cal with
    counts := SMap.upd (fun _ => 0) code (· + 1) s.cal.counts
    times := SMap.set (fun _ => 0) code s.ts s.cal.times } }

/-- The trainings that still wait. -/
def trainLeft (s : State) (l : List Nat) : State := { s with ch := { s.ch with trainQ := l } }

/-- The end of a commit, before the trainings that waited for it. -/
def pendEnded (s : State) : State :=
  (s.pendDropped.flag R.CAL_CAL_STAT F.CAL_CAL_STAT_PENDING false).syncStaged

theorem calEnd_eq (s : State) : s.calEnd =
    (s.pendEnded.ch.trainQ.filter fun pc => pc / 2 + 0x10 == s.cal.pendBlk).foldl (fun t pc => t.trainStart (pc / 2) (pc % 2))
      (s.pendEnded.trainLeft (s.pendEnded.ch.trainQ.filter fun pc => pc / 2 + 0x10 != s.cal.pendBlk)) := rfl

end State

namespace CalBlind

variable {α : Type} {g : State → α} (hg : CalBlind g) (s : State)
include hg

theorem inc {a : Nat} (n : Nat) (ha : a / 0x1000 = 9 ∧ a ≠ R.CAL_TOSC_STAT ∨ 0x140000 ≤ a) : g (s.inc a n) = g s := by
  unfold State.inc
  split
  · rfl
  · rw [hg.counted, hg.wr _ _ _ ha]

theorem flag {a : Nat} (ha : a / 0x1000 = 9 ∧ a ≠ R.CAL_TOSC_STAT ∨ 0x140000 ≤ a) (f : Fld) (b : Bool) : g (s.flag a f b) = g s :=
  hg.wr _ _ _ ha

theorem put {a : Nat} (ha : a / 0x1000 = 9 ∧ a ≠ R.CAL_TOSC_STAT ∨ 0x140000 ≤ a) (f : Fld) (n : Nat) : g (s.put a f n) = g s :=
  hg.wr _ _ _ ha

theorem trainStart (c p : Nat) : g (s.trainStart c p) = g s := by
  unfold State.trainStart
  split
  · split
    · split
      · rfl
      · exact hg.ch s _ rfl
    · exact (hg.flag _ (.inr (by unfold R.CHP_PHY_STAT; omega)) ..).trans (hg.ch s _ rfl)
  · rfl

theorem syncStaged : g s.syncStaged = g s := hg.flag s (.inl (by decide)) ..

theorem setCalError (n : Nat) : g (s.setCalError n) = g s := hg.put s (.inl (by decide)) ..

theorem calEnd : g s.calEnd = g s := by
  have hdrop : g s.pendDropped = g s := hg.cal s _ rfl rfl
  have hleft (t : State) (l : List Nat) : g (t.trainLeft l) = g t := hg.ch t _ rfl
  rw [State.calEnd_eq]
  refine (foldl_blind (fun t pc => hg.trainStart t _ _) _ _).trans ((hleft _ _).trans ?_)
  exact (hg.syncStaged _).trans ((hg.flag _ (.inl (by decide)) ..).trans hdrop)

theorem calApplied (code : Nat) : g (s.calApplied code) = g s := by
  unfold State.calApplied
  split
  · have hcount : g (s.incSat (R.CHP_CAL_COUNT (code - 0x10)) F.CHP_CAL_COUNT_COUNT) = g s := by
      unfold incSat
      dsimp only
      split
      · rfl
      · exact (hg.counted ..).trans (hg.put _ (.inr (by unfold R.CHP_CAL_COUNT; omega)) ..)
    have h1 : 0x140000 ≤ R.CHP_CAL_TIME_LO (code - 0x10) := by unfold R.CHP_CAL_TIME_LO; omega
    exact (hg.wr _ _ _ (.inr (by omega))).trans ((hg.wr _ _ _ (.inr h1)).trans hcount)
  · have hcount : g (if code = s.fld R.CAL_CAL_BLK F.CAL_CAL_BLK_BLOCK then s.counted R.CAL_CAL_COUNT 1 else s) = g s := by
      split
      · exact hg.counted ..
      · rfl
    have hnote (t : State) : g (t.appliedNoted code) = g t := hg.cal t _ rfl rfl
    exact (hnote _).trans hcount

end CalBlind

theorem calBlind_stores : CalBlind fun s => (s.dram, s.cache, s.wdb, s.place, s.otp, s.mgmt.flash) :=
  ⟨fun _ _ _ _ => rfl, by simp, fun _ _ _ => rfl, fun _ _ _ _ => rfl⟩

theorem calBlind_used : CalBlind fun s => (s.ch.cal, s.cal.sensor) :=
  ⟨fun _ _ _ _ => rfl, by simp, fun _ _ h => by rw [h], fun _ _ _ h => by rw [h]⟩

/-- The register of a receive group's word. -/
theorem calReg_rx {c : Nat} (h : c < 8) (i : Nat) : calReg c i = some (0x88108 + 0x1000 * c + 64 * (i / 4) + 4 * (i % 4)) := by
  have h4 := Nat.mod_lt i (y := 4) (by decide)
  unfold calReg
  rw [if_pos h]
  simp only [R.RXG_RXL_CTLE, R.RXG_RXL_DFE_A, R.RXG_RXL_DFE_B, R.RXG_RXL_DFE_C]
  refine congrArg some ?_
  split
  · omega
  · split
    · omega
    · split <;> omega

theorem calReg_tx {c : Nat} (h8 : ¬c < 8) (h : c < 16) (i : Nat) : calReg c i = some (0x80080 + 0x1000 * (c - 8) + 16 * i) := by
  unfold calReg
  rw [if_neg h8, if_pos h]

theorem calReg_none {c : Nat} (h : ¬c < 16) (i : Nat) : calReg c i = none := by
  unfold calReg
  rw [if_neg (by omega), if_neg h]

/-- The register of a lane group's word lies on the group's page. -/
theorem calReg_some {c i : Nat} (h : c < 16) (hi : i < calWords c) :
    ∃ a, calReg c i = some a ∧ a / 0x1000 ≠ 9 ∧ a < 0x140000 := by
  unfold calWords at hi
  by_cases h8 : c < 8
  · rw [if_pos h8] at hi
    exact ⟨_, calReg_rx h8 i, by omega, by omega⟩
  · rw [if_neg h8, if_pos h] at hi
    exact ⟨_, calReg_tx h8 h i, by omega, by omega⟩

/-- Words of a group stand in registers of their own. -/
theorem calReg_inj {c i j a : Nat} (h : c < 16) (hi : calReg c i = some a) (hj : calReg c j = some a) : i = j := by
  by_cases h8 : c < 8
  · rw [calReg_rx h8] at hi hj
    have := Option.some.inj (hi.trans hj.symm)
    omega
  · rw [calReg_tx h8 h] at hi hj
    have := Option.some.inj (hi.trans hj.symm)
    omega

/-- The end of a commit that is discarded. -/
theorem CalBlind.discarded {α : Type} {g : State → α} (hg : CalBlind g) (s : State) (n : Nat) :
    g ((s.setCalError n).inc R.CAL_COMMIT_ERRORS).calEnd = g s :=
  (hg.calEnd _).trans ((hg.inc _ _ (.inl (by decide))).trans (hg.setCalError ..))

namespace State

variable {s t : State} {c i j : Nat} {v : Word}

/-- Where a word of a block stands. -/
theorem calWord_eq (hi : i < calWords c) : s.calWord c i = match calReg c i with
    | some a => s.rd a
    | none =>
      if c < 0x30 then SMap.get (fun _ => 0) s.ch.cal (calKey c i)
      else if c = 0x30 then BitVec.ofNat 32 (s.fld R.CAL_TOSC_STAT F.CAL_TOSC_STAT_TRIM)
      else if c = 0x31 then SMap.get (fun _ => 0) s.cal.adc i
      else SMap.get (fun _ => 0) s.cal.sensor i := if_neg (by omega)

theorem calWord_beyond (hi : ¬i < calWords c) : s.calWord c i = 0 := if_pos (by omega)

/-- What a commit leaves alone, it leaves every word. -/
theorem calBlind_word (c i : Nat) : CalBlind fun s => s.calWord c i := by
  by_cases hi : i < calWords c
  · by_cases h16 : c < 16
    · obtain ⟨a, ha, h9, h14⟩ := calReg_some h16 hi
      have hw (s : State) : s.calWord c i = s.rd a := by rw [calWord_eq hi, ha]
      simp only [hw]
      refine ⟨fun t b v hb => rd_wr_other _ _ _ _ ?_, fun _ _ _ => rd_counted .., fun _ _ _ => rfl, fun _ _ _ _ => rfl⟩
      rintro rfl
      omega
    · have hw (s : State) : s.calWord c i =
          if c < 0x30 then SMap.get (fun _ => 0) s.ch.cal (calKey c i)
          else if c = 0x30 then BitVec.ofNat 32 (s.fld R.CAL_TOSC_STAT F.CAL_TOSC_STAT_TRIM)
          else if c = 0x31 then SMap.get (fun _ => 0) s.cal.adc i
          else SMap.get (fun _ => 0) s.cal.sensor i := by
        rw [calWord_eq hi, calReg_none h16]
      have hfld {s t : State} (h : t.rd R.CAL_TOSC_STAT = s.rd R.CAL_TOSC_STAT) (hc : t.ch.cal = s.ch.cal)
          (ha : t.cal.adc = s.cal.adc) (hs : t.cal.sensor = s.cal.sensor) : t.calWord c i = s.calWord c i := by
        rw [hw, hw, hc, ha, hs, fld_eq_of_rd h]
      refine ⟨fun t b v hb => hfld (rd_wr_other _ _ _ _ ?_) rfl rfl rfl, fun t b n => hfld (rd_counted ..) (by simp) (by simp) (by simp),
        fun _ _ h => hfld rfl h rfl rfl, fun _ _ h k => hfld rfl rfl h k⟩
      rintro rfl
      revert hb
      decide
  · have hw (s : State) : s.calWord c i = 0 := calWord_beyond hi
    simp only [hw]
    exact ⟨fun _ _ _ _ => rfl, fun _ _ _ => rfl, fun _ _ _ => rfl, fun _ _ _ _ => rfl⟩

/-! ### A word goes into use -/

theorem setCalWord_reg {a : Nat} (hi : i < calWords c) (ha : calReg c i = some a) : s.setCalWord c i v = s.wr a v := by
  unfold setCalWord
  rw [if_neg (by omega), ha]

/-- The bits that a block's word has, taken from a word. -/
def calMerge (c i : Nat) (v w : Word) : Word :=
  (w &&& ~~~(BitVec.ofNat 32 (calMask c i))) ||| (v &&& BitVec.ofNat 32 (calMask c i))

/-- A channel's word takes the bits that it has. -/
def chanWord (s : State) (c i : Nat) (v : Word) : State :=
  { s with ch := { s.ch with cal := SMap.upd (fun _ => 0) (calKey c i) (calMerge c i v) s.ch.cal } }

/-- A sensor's correction. -/
def sensorWord (s : State) (i : Nat) (v : Word) : State :=
  { s with cal := { s.cal with sensor := SMap.set (fun _ => 0) i v s.cal.sensor } }

theorem setCalWord_other (hi : i < calWords c) (h16 : ¬c < 16) (h31 : c ≠ 0x31) : s.setCalWord c i v =
    if c < 0x30 then s.chanWord c i v
    else if c = 0x30 then s.put R.CAL_TOSC_STAT F.CAL_TOSC_STAT_TRIM v.toNat else s.sensorWord i v := by
  unfold setCalWord
  rw [if_neg (by omega), calReg_none h16]
  dsimp only
  rw [if_neg h31]
  rfl

theorem trim_word : BitVec.ofNat 32 (v.toNat % 2 ^ 8) = v &&& 0xFF#32 := by
  refine BitVec.eq_of_toNat_eq ?_
  rw [BitVec.toNat_ofNat, BitVec.toNat_and]
  change v.toNat % 2 ^ 8 % 2 ^ 32 = v.toNat &&& (2 ^ 8 - 1)
  rw [Nat.and_two_pow_sub_one_eq_mod]
  omega

/-- The words of a block after one of them is set, and what else stays. -/
theorem setCalWord_spec (hi : i < calWords c) (h31 : c ≠ 0x31) :
    (c < 0x10 ∨ c = 0x32 → (s.setCalWord c i v).calWord c i = v) ∧
    (c = 0x30 → (s.setCalWord c i v).calWord c i = v &&& 0xFF) ∧
    (0x10 ≤ c ∧ c < 0x30 → (s.setCalWord c i v).calWord c i =
      (s.calWord c i &&& ~~~(BitVec.ofNat 32 (calMask c i))) ||| (v &&& BitVec.ofNat 32 (calMask c i))) ∧
    (∀ j, j ≠ i → (s.setCalWord c i v).calWord c j = s.calWord c j) ∧
    (s.setCalWord c i v).rd R.CAL_COMMITS = s.rd R.CAL_COMMITS ∧ MemKept s (s.setCalWord c i v) := by
  by_cases h16 : c < 16
  · obtain ⟨a, ha, h9, -⟩ := calReg_some h16 hi
    rw [setCalWord_reg hi ha]
    have hself : (s.wr a v).calWord c i = v := by
      rw [calWord_eq hi, ha]
      exact rd_wr_same ..
    refine ⟨fun _ => hself, fun h => by omega, fun h => by omega, fun j hj => ?_, rd_wr_other _ _ _ _ ?_, wr_memKept ..⟩
    · by_cases hjw : j < calWords c
      · obtain ⟨b, hb, -⟩ := calReg_some h16 hjw
        rw [calWord_eq hjw, calWord_eq hjw, hb]
        refine rd_wr_other _ _ _ _ ?_
        rintro rfl
        exact hj (calReg_inj h16 hb ha)
      · rw [calWord_beyond hjw, calWord_beyond hjw]
    · rintro rfl
      exact h9 (by decide)
  · rw [setCalWord_other hi h16 h31]
    have hw (t : State) {j : Nat} (hj : j < calWords c) : t.calWord c j =
        if c < 0x30 then SMap.get (fun _ => 0) t.ch.cal (calKey c j)
        else if c = 0x30 then BitVec.ofNat 32 (t.fld R.CAL_TOSC_STAT F.CAL_TOSC_STAT_TRIM)
        else SMap.get (fun _ => 0) t.cal.sensor j := by
      rw [calWord_eq hj, calReg_none h16]
      dsimp only
      rw [if_neg h31]
    by_cases h30 : c < 0x30
    · rw [if_pos h30]
      have hset : (s.chanWord c i v).ch.cal = SMap.upd (fun _ => 0) (calKey c i) (calMerge c i v) s.ch.cal := rfl
      refine ⟨fun h => by omega, fun h => by omega, fun _ => ?_, fun j hj => ?_, rfl, ⟨rfl, rfl, rfl, rfl, rfl, rfl⟩⟩
      · rw [hw _ hi, hw _ hi, if_pos h30, if_pos h30, hset, get_upd_same]
        rfl
      · by_cases hjw : j < calWords c
        · rw [hw _ hjw, hw _ hjw, if_pos h30, if_pos h30, hset]
          refine SMap.get_set_other _ ?_ _ _
          unfold calKey
          omega
        · rw [calWord_beyond hjw, calWord_beyond hjw]
    · rw [if_neg h30]
      by_cases he : c = 0x30
      · rw [if_pos he]
        refine ⟨fun h => by omega, fun _ => ?_, fun h => by omega, fun j hj => ?_, rd_wr_other _ _ _ _ (by decide), put_memKept ..⟩
        · rw [hw _ hi, if_neg h30, if_pos he, fld_put_same _ _ _ _ (by decide)]
          exact trim_word
        · have hone : calWords c = 1 := by rw [he]; rfl
          rw [calWord_beyond (by omega), calWord_beyond (by omega)]
      · rw [if_neg he]
        have hset : (s.sensorWord i v).cal.sensor = SMap.set (fun _ => 0) i v s.cal.sensor := rfl
        refine ⟨fun _ => ?_, fun h => absurd h he, fun h => by omega, fun j hj => ?_, rfl, ⟨rfl, rfl, rfl, rfl, rfl, rfl⟩⟩
        · rw [hw _ hi, if_neg h30, if_neg he, hset]
          exact SMap.get_set_same _ _ _ _
        · by_cases hjw : j < calWords c
          · rw [hw _ hjw, hw _ hjw, if_neg h30, if_neg he, if_neg h30, if_neg he, hset]
            exact SMap.get_set_other _ hj _ _
          · rw [calWord_beyond hjw, calWord_beyond hjw]

/-! ### A commit ends -/

theorem trainStart_rd {a : Nat} (h : a < 0x140000) (d p : Nat) : (s.trainStart d p).rd a = s.rd a := by
  have hset (x : PCh) : ((s.setPch (2 * d + p) x).syncTraining d).rd a = s.rd a := rd_wr_other _ _ _ _ (by
    unfold R.CHP_PHY_STAT
    omega)
  unfold trainStart
  split
  · split
    · split <;> rfl
    · exact hset _
  · rfl

theorem trainStart_cal (d p : Nat) : (s.trainStart d p).cal = s.cal := by
  unfold trainStart
  split
  · split
    · split <;> rfl
    · rfl
  · rfl

theorem calEnd_cal : s.calEnd.cal = { s.cal with pend := [] } := by
  rw [calEnd_eq]
  exact foldl_blind (g := State.cal) (fun t pc => trainStart_cal ..) _ _

theorem calEnd_rd {a : Nat} (h : a < 0x140000) : s.calEnd.rd a = s.pendEnded.rd a := by
  rw [calEnd_eq]
  exact foldl_blind (g := fun t => t.rd a) (fun t pc => trainStart_rd h ..) _ _

theorem pendEnded_rd {a : Nat} (h : a ≠ R.CAL_CAL_STAT) : s.pendEnded.rd a = s.rd a :=
  (rd_wr_other _ _ _ _ h).trans (rd_wr_other _ _ _ _ h)

/-- The end of a commit: nothing waits, and the error stays. -/
theorem calEnd_spec : s.calEnd.cal.pend = [] ∧ s.calEnd.on R.CAL_CAL_STAT F.CAL_CAL_STAT_PENDING = false ∧
    s.calEnd.fld R.CAL_CAL_STAT F.CAL_CAL_STAT_ERROR = s.fld R.CAL_CAL_STAT F.CAL_CAL_STAT_ERROR ∧
    ∀ a, a < 0x140000 → a ≠ R.CAL_CAL_STAT → s.calEnd.rd a = s.rd a := by
  have hstat := calEnd_rd (s := s) (a := R.CAL_CAL_STAT) (by decide)
  refine ⟨by rw [calEnd_cal], (on_eq_of_rd hstat _).trans ?_, (fld_eq_of_rd hstat _).trans ?_, fun a h hn =>
    (calEnd_rd h).trans (pendEnded_rd hn)⟩
  · exact (on_flag_other _ _ _ _ _ _ (.inr (by decide))).trans (on_flag_same _ _ _ _ (by decide) rfl)
  · exact (fld_flag_other _ _ _ _ _ _ (.inr (by decide))).trans (fld_flag_other _ _ _ _ _ _ (.inr (by decide)))

theorem calApplied_rd {a : Nat} (h : a < 0x140000) (code : Nat) : (s.calApplied code).rd a = s.rd a := by
  unfold calApplied
  split
  · have hne : ∀ n, a ≠ R.CHP_CAL_TIME_LO n ∧ a ≠ R.CHP_CAL_TIME_LO n + 4 ∧ a ≠ R.CHP_CAL_COUNT n := fun n => by
      simp only [R.CHP_CAL_TIME_LO, R.CHP_CAL_COUNT]
      omega
    obtain ⟨h1, h2, h3⟩ := hne (code - 0x10)
    exact (rd_wr_other _ _ _ _ h2).trans ((rd_wr_other _ _ _ _ h1).trans (rd_incSat_other _ _ _ _ _ h3))
  · have hcount : (if code = s.fld R.CAL_CAL_BLK F.CAL_CAL_BLK_BLOCK then s.counted R.CAL_CAL_COUNT 1 else s).rd a = s.rd a := by
      split
      · exact rd_counted ..
      · rfl
    exact hcount

/-- The words of a channel's block are restored at boot step 9. -/
def restoredNoted (s : State) (code : Nat) : State :=
  if s.bootStep = 9 ∧ 0x10 ≤ code ∧ code < 0x30 then
    { s with cal := { s.cal with restored := code :: s.cal.restored } } else s

theorem restoredNoted_regs (code : Nat) : (s.restoredNoted code).regs = s.regs := by
  unfold restoredNoted
  split <;> rfl

theorem restoredNoted_blind {α : Type} {g : State → α} (hg : CalBlind g) (s : State) (code : Nat) :
    g (s.restoredNoted code) = g s := by
  unfold State.restoredNoted
  split
  · exact hg.cal s _ rfl rfl
  · rfl

theorem calApply_one (hp : s.on R.CAL_CAL_STAT F.CAL_CAL_STAT_PENDING = true) (hd : s.calBlockDown s.cal.pendBlk = false)
    (hb : s.calBusy s.cal.pendBlk = false) (hw : s.cal.pend = [(i, v)]) : s.calApply =
      ((((s.setCalWord s.cal.pendBlk i v).restoredNoted s.cal.pendBlk).calApplied s.cal.pendBlk).inc R.CAL_COMMITS).calEnd := by
  unfold calApply
  dsimp only
  rw [hp, hd, hb, if_neg (by decide), if_neg (by decide), if_neg (by decide), hw, List.foldl_cons, List.foldl_nil]
  rfl

/-- After a word goes into use: what a commit leaves alone is as the word's own step leaves it. -/
theorem applied_blind {α : Type} {g : State → α} (hg : CalBlind g) (code : Nat) :
    g (((s.restoredNoted code).calApplied code).inc R.CAL_COMMITS).calEnd = g s :=
  (hg.calEnd _).trans ((hg.inc _ _ (.inl (by decide))).trans ((hg.calApplied ..).trans (restoredNoted_blind hg ..)))

theorem applied_spec (code : Nat) :
    (((s.restoredNoted code).calApplied code).inc R.CAL_COMMITS).calEnd.cal.pend = [] ∧
    (((s.restoredNoted code).calApplied code).inc R.CAL_COMMITS).calEnd.on R.CAL_CAL_STAT F.CAL_CAL_STAT_PENDING = false ∧
    (((s.restoredNoted code).calApplied code).inc R.CAL_COMMITS).calEnd.rd R.CAL_COMMITS = s.rd R.CAL_COMMITS + 1 := by
  obtain ⟨h1, h2, -, h4⟩ := calEnd_spec (s := ((s.restoredNoted code).calApplied code).inc R.CAL_COMMITS)
  refine ⟨h1, h2, (h4 _ (by decide) (by decide)).trans ((rd_inc ..).trans ((if_pos rfl).trans ?_))⟩
  rw [calApplied_rd (by decide), rd_eq_of_regs (restoredNoted_regs code)]
  rfl

theorem calApply_down (hp : s.on R.CAL_CAL_STAT F.CAL_CAL_STAT_PENDING = true) (hd : s.calBlockDown s.cal.pendBlk = true) :
    s.calApply = ((s.setCalError 2).inc R.CAL_COMMIT_ERRORS).calEnd := by
  unfold calApply
  dsimp only
  rw [hp, hd, if_neg (by decide), if_pos rfl]

theorem calApply_busy (hp : s.on R.CAL_CAL_STAT F.CAL_CAL_STAT_PENDING = true) (hd : s.calBlockDown s.cal.pendBlk = false)
    (hb : s.calBusy s.cal.pendBlk = true) : s.calApply = s := by
  unfold calApply
  dsimp only
  rw [hp, hd, hb, if_neg (by decide), if_neg (by decide), if_pos rfl]

theorem calApply_none (hp : s.on R.CAL_CAL_STAT F.CAL_CAL_STAT_PENDING = false) : s.calApply = s := by
  unfold calApply
  dsimp only
  rw [hp, if_pos (by decide)]

/-! ### Staging (R402) -/

/-- The selected block and its number of words show. -/
def blockShown (s : State) (c n : Nat) : State :=
  (s.put R.CAL_CAL_BLK F.CAL_CAL_BLK_BLOCK c).put R.CAL_CAL_STAT F.CAL_CAL_STAT_WORDS n

theorem blockShown_spec (n : Nat) (hc : c < 256) : (s.blockShown c n).calBlk = c ∧ (s.blockShown c n).cal = s.cal ∧
    (s.blockShown c n).ch = s.ch ∧ MemKept s (s.blockShown c n) ∧
    RegsKept s (s.blockShown c n) [0x014] [R.CAL_CAL_BLK, R.CAL_CAL_STAT] :=
  ⟨(fld_put_other _ _ _ _ _ _ (.inl (by decide))).trans ((fld_put_same _ _ _ _ (by decide)).trans (Nat.mod_eq_of_lt hc)), rfl, rfl,
    (put_memKept ..).trans (put_memKept ..), ((RegsKept.refl s).put _ _ (by simp)).put _ _ (by simp)⟩

/-- The staged words are dropped for want of their block. -/
def stagedDropped (s : State) : State := (s.clearStaged.setCalError 4).syncStaged

theorem stagedDropped_spec : s.stagedDropped.calBlk = s.calBlk ∧ s.stagedDropped.cal = { s.cal with staged := [] } ∧
    s.stagedDropped.ch = s.ch ∧ MemKept s s.stagedDropped ∧ RegsKept s s.stagedDropped [0x014] [R.CAL_CAL_BLK, R.CAL_CAL_STAT] := by
  have hclear : RegsKept s s.clearStaged [0x014] [R.CAL_CAL_BLK, R.CAL_CAL_STAT] := .of_regs (.refl s) rfl
  exact ⟨(fld_flag_other _ _ _ _ _ _ (.inl (by decide))).trans (fld_put_other _ _ _ _ _ _ (.inl (by decide))), rfl, rfl,
    ⟨rfl, rfl, rfl, rfl, rfl, rfl⟩, (hclear.put _ _ (by simp)).flag _ _ (by simp)⟩

theorem calSelect_eq (c : Nat) : ∃ n, s.calSelect c =
    if (s.blockShown c n).calBlk = s.calBlk ∨ s.cal.staged.isEmpty = true then s.blockShown c n
    else (s.blockShown c n).stagedDropped := ⟨_, rfl⟩

theorem calSelect_spec (hc : c < 256) : (s.calSelect c).calBlk = c ∧
    (s.calSelect c).cal.staged = (if c = s.calBlk then s.cal.staged else []) ∧ (s.calSelect c).cal.pend = s.cal.pend ∧
    (s.calSelect c).ch = s.ch ∧ (s.calSelect c).cal.sensor = s.cal.sensor ∧ MemKept s (s.calSelect c) ∧
    RegsKept s (s.calSelect c) [0x014] [R.CAL_CAL_BLK, R.CAL_CAL_STAT] := by
  obtain ⟨n, h⟩ := calSelect_eq (s := s) c
  obtain ⟨b1, b2, b3, b4, b5⟩ := blockShown_spec (s := s) n hc
  rw [h]
  generalize s.blockShown c n = u at b1 b2 b3 b4 b5 ⊢
  rw [b1]
  split
  · next hk =>
    refine ⟨b1, ?_, by rw [b2], b3, by rw [b2], b4, b5⟩
    rw [b2]
    split
    · rfl
    · next hne => exact List.isEmpty_iff.mp (hk.resolve_left hne)
  · next hk =>
    obtain ⟨d1, d2, d3, d4, d5⟩ := stagedDropped_spec (s := u)
    refine ⟨d1.trans b1, ?_, by rw [d2, b2], d3.trans b3, by rw [d2, b2], b4.trans d4, b5.trans d5⟩
    rw [d2, if_neg fun e => hk (.inl e)]

/-- A word is staged. -/
def wordStaged (s : State) (i : Nat) (v : Word) : State :=
  { s with cal := { s.cal with staged := SMap.set (fun _ => none) i (some v) s.cal.staged } }

theorem calStage_eq (hi : s.fld R.CAL_CAL_IDX F.CAL_CAL_IDX_INDEX = i) (h : i < calWords s.calBlk) :
    s.calStage v = (s.wordStaged i v).syncStaged := by
  subst hi
  exact if_neg (by omega)

theorem wordStaged_spec : SMap.get (fun _ => none) (s.wordStaged i v).syncStaged.cal.staged i = some v ∧
    (∀ j, j ≠ i → SMap.get (fun _ => none) (s.wordStaged i v).syncStaged.cal.staged j = SMap.get (fun _ => none) s.cal.staged j) ∧
    (s.wordStaged i v).syncStaged.cal.pend = s.cal.pend ∧ (s.wordStaged i v).syncStaged.ch = s.ch ∧
    (s.wordStaged i v).syncStaged.cal.sensor = s.cal.sensor ∧ MemKept s (s.wordStaged i v).syncStaged ∧
    RegsKept s (s.wordStaged i v).syncStaged [0x014] [R.CAL_CAL_STAT] := by
  have hset : RegsKept s (s.wordStaged i v) [0x014] [R.CAL_CAL_STAT] := .of_regs (.refl s) rfl
  exact ⟨SMap.get_set_same (fun _ => none) i (some v) s.cal.staged, fun j hj =>
    SMap.get_set_other (fun _ => none) hj (some v) s.cal.staged, rfl, rfl, rfl, ⟨rfl, rfl, rfl, rfl, rfl, rfl⟩,
    hset.flag _ _ (by simp)⟩

/-! ### Commit (R402, R403) -/

theorem calRefusal_lt (c : Nat) : s.calRefusal c < 8 := by
  unfold calRefusal
  repeat' split
  all_goals decide

theorem calCommit_refused (hs : s.cal.staged ≠ []) (hr : s.calRefusal s.calBlk ≠ 0) :
    s.calCommit = (s.setCalError (s.calRefusal s.calBlk)).inc R.CAL_COMMIT_ERRORS := by
  unfold calCommit
  rw [if_neg fun h => hs (List.isEmpty_iff.mp h)]
  exact if_pos hr

/-- The staged words wait for their safe point. -/
def handedOver (s : State) : State :=
  { s with cal := { s.cal with pend := s.stagedWords, pendBlk := s.calBlk, staged := [] } }

theorem calCommit_taken (hs : s.cal.staged ≠ []) (hr : s.calRefusal s.calBlk = 0)
    (hp : s.on R.CAL_CAL_STAT F.CAL_CAL_STAT_PENDING = false) :
    s.calCommit = ((s.handedOver.flag R.CAL_CAL_STAT F.CAL_CAL_STAT_PENDING true).setCalError 0).syncStaged := by
  unfold calCommit
  rw [if_neg fun h => hs (List.isEmpty_iff.mp h)]
  dsimp only
  rw [hr, hp, if_neg (by decide), if_neg (by decide), List.nil_append]
  rfl

/-- CAL_CMD takes its actions; nothing else follows a write of the page. -/
theorem calCmd_open {path : Path} (v : Word) (ho : Open s path R.CAL_CAL_CMD) : s.regCmd path R.CAL_CAL_CMD v =
    (if F.CAL_CAL_CMD_DISCARD.get (v &&& 3#32) = 1 then
      (if F.CAL_CAL_CMD_COMMIT.get (v &&& 3#32) = 1 then s.calCommit else s).calDiscard
    else if F.CAL_CAL_CMD_COMMIT.get (v &&& 3#32) = 1 then s.calCommit else s) := by
  have hpage : (pageOf R.CAL_CAL_CMD == 1) = false := by decide
  rw [regCmd_plain (m := 0) (c := 3#32) v ho (by unfold PlainReg; decide +kernel) rfl (by rw [hpage, Bool.false_and]),
    regEffect_cal (by decide) (by decide), afterWrite_self (by decide)]
  rfl

theorem calBlk_open {path : Path} (v : Word) (ho : Open s path R.CAL_CAL_BLK) : s.regCmd path R.CAL_CAL_BLK v =
    s.calSelect (F.CAL_CAL_BLK_BLOCK.get ((s.cur R.CAL_CAL_BLK &&& ~~~255#32) ||| (v &&& 255#32))) := by
  have hpage : (pageOf R.CAL_CAL_BLK == 1) = false := by decide
  rw [regCmd_plain (m := 255#32) (c := 0) v ho (by unfold PlainReg; decide +kernel) rfl (by rw [hpage, Bool.false_and]),
    regEffect_cal (by decide) (by decide), afterWrite_self (by decide)]
  rfl

theorem calData_open {path : Path} (v : Word) (ho : Open s path R.CAL_CAL_DATA) : s.regCmd path R.CAL_CAL_DATA v = s.calStage v := by
  have hpage : (pageOf R.CAL_CAL_DATA == 1) = false := by decide
  have hfull : (s.cur R.CAL_CAL_DATA &&& ~~~4294967295#32) ||| (v &&& 4294967295#32) = v := merge_full ..
  rw [regCmd_plain (m := 4294967295#32) (c := 0) v ho (by unfold PlainReg; decide +kernel) rfl (by rw [hpage, Bool.false_and]),
    regEffect_cal (by decide) (by decide), afterWrite_self (by decide), hfull]
  rfl

/-! ### Spare lanes and vias (R398) -/

/-- A check of a spare lane is counted. -/
def laneCounted (s : State) (fail : Bool) : State :=
  if fail then (s.inc R.BIST_LOOP_RUNS).inc R.BIST_LOOP_FAILS else s.inc R.BIST_LOOP_RUNS

/-- The counts of failures of a group's spare lanes. -/
def laneNoted (s : State) (g n m : Nat) : State :=
  { s with bist := { s.bist with
      laneBad := SMap.set (fun _ => 0) (2 * g + 1) m (SMap.set (fun _ => 0) (2 * g) n s.bist.laneBad) } }

/-- A receive group's spare lane is retired. -/
def laneOut (s : State) (g : Nat) : State :=
  { s with bist := { s.bist with loopOut := g :: s.bist.loopOut.filter (· ≠ g) } }.put (R.RXG_GRP_STAT g) F.RXG_GRP_STAT_SPARE 15

theorem spareLaneCheck_eq {g : Nat} (rx tx : Bool) (hen : s.on R.BIST_BIST_CTL F.BIST_BIST_CTL_ANA_EN = true)
    (h15 : s.spareLane .rx g ≠ 15) (hl : s.spareLane .rx g = s.spareLane .tx g) (hr : s.sparingRuns .rx g = false)
    (ht : s.sparingRuns .tx g = false) : s.spareLaneCheck g rx tx =
      if (if rx then SMap.get (fun _ => 0) (s.laneCounted (rx || tx)).bist.laneBad (2 * g) + 1 else 0) < 2 then
        (s.laneCounted (rx || tx)).laneNoted g
          (if rx then SMap.get (fun _ => 0) (s.laneCounted (rx || tx)).bist.laneBad (2 * g) + 1 else 0)
          (if tx then SMap.get (fun _ => 0) (s.laneCounted (rx || tx)).bist.laneBad (2 * g + 1) + 1 else 0)
      else ((s.laneCounted (rx || tx)).laneNoted g
          (if rx then SMap.get (fun _ => 0) (s.laneCounted (rx || tx)).bist.laneBad (2 * g) + 1 else 0)
          (if tx then SMap.get (fun _ => 0) (s.laneCounted (rx || tx)).bist.laneBad (2 * g + 1) + 1 else 0)).laneOut g := by
  unfold spareLaneCheck
  rw [hen, if_neg (by decide)]
  dsimp only
  rw [if_neg (by simp [h15, ← hl, hr, ht])]
  rfl

theorem spareLaneCheck_skip {g : Nat} (rx tx : Bool) (hen : s.on R.BIST_BIST_CTL F.BIST_BIST_CTL_ANA_EN = true)
    (h15 : s.spareLane .rx g = 15) : s.spareLaneCheck g rx tx = s.inc R.BIST_LOOP_SKIPPED := by
  unfold spareLaneCheck
  rw [hen, if_neg (by decide)]
  exact if_pos (.inl h15)

theorem laneCounted_spec (fail : Bool) : (s.laneCounted fail).bist = s.bist ∧ (s.laneCounted fail).untested = s.untested ∧
    (s.laneCounted fail).rd R.BIST_LOOP_RUNS = s.rd R.BIST_LOOP_RUNS + 1 ∧
    (fail = true → (s.laneCounted fail).rd R.BIST_LOOP_FAILS = s.rd R.BIST_LOOP_FAILS + 1) ∧
    (fail = false → RegsKept s (s.laneCounted fail) [0x014] [R.BIST_LOOP_RUNS]) ∧
    ∀ b, b ∉ [R.BIST_LOOP_RUNS, R.BIST_LOOP_FAILS] → (s.laneCounted fail).rd b = s.rd b := by
  have hk : RegsKept s (s.inc R.BIST_LOOP_RUNS) [0x014] [R.BIST_LOOP_RUNS] := (RegsKept.refl s).inc _ (by simp)
  have hruns : (s.inc R.BIST_LOOP_RUNS).rd R.BIST_LOOP_RUNS = s.rd R.BIST_LOOP_RUNS + 1 := (rd_inc ..).trans (if_pos rfl)
  have hrest : ∀ b, b ≠ R.BIST_LOOP_RUNS → (s.inc R.BIST_LOOP_RUNS).rd b = s.rd b := fun b h => (rd_inc ..).trans (if_neg h)
  have hb : (s.inc R.BIST_LOOP_RUNS).bist = s.bist := inc_bist ..
  have hu : (s.inc R.BIST_LOOP_RUNS).untested = s.untested := inc_untested 1
  unfold laneCounted
  generalize s.inc R.BIST_LOOP_RUNS = u at hk hruns hrest hb hu ⊢
  cases fail
  · simp only [Bool.false_eq_true, if_false]
    exact ⟨hb, hu, hruns, fun h => h.elim, fun _ => hk, fun b h => hrest b fun e => h (by simp [e])⟩
  · simp only [if_true]
    refine ⟨(inc_bist ..).trans hb, (inc_untested 1).trans hu, ?_, fun _ => ?_, fun h => absurd h (by decide), fun b h => ?_⟩
    · exact (rd_inc ..).trans ((if_neg (by decide)).trans hruns)
    · exact (rd_inc ..).trans ((if_pos rfl).trans (by rw [hrest _ (by decide)]; rfl))
    · exact (rd_inc ..).trans ((if_neg fun e => h (by simp [e])).trans (hrest b fun e => h (by simp [e])))

theorem laneNoted_spec (g n m : Nat) : SMap.get (fun _ => 0) (s.laneNoted g n m).bist.laneBad (2 * g) = n ∧
    SMap.get (fun _ => 0) (s.laneNoted g n m).bist.laneBad (2 * g + 1) = m ∧ (s.laneNoted g n m).untested = s.untested ∧
    (s.laneNoted g n m).regs = s.regs :=
  ⟨(SMap.get_set_other _ (by omega) _ _).trans (SMap.get_set_same _ _ _ _), SMap.get_set_same _ _ _ _, rfl, rfl⟩

theorem laneOut_spec (g : Nat) : (s.laneOut g).bist.laneBad = s.bist.laneBad ∧ g ∈ (s.laneOut g).bist.loopOut ∧
    (s.laneOut g).spareLane .rx g = 15 ∧ (s.laneOut g).untested = s.untested ∧
    ∀ b, b ≠ R.RXG_GRP_STAT g → (s.laneOut g).rd b = s.rd b :=
  ⟨rfl, List.mem_cons_self .., fld_put_same _ _ _ _ (by decide), rfl, fun _ h => rd_wr_other _ _ _ _ h⟩

/-- A check of a spare via is counted. -/
def viaCounted (s : State) (fail : Bool) : State :=
  if fail then (s.inc R.BIST_CONT_RUNS).inc R.BIST_CONT_FAILS else s.inc R.BIST_CONT_RUNS

/-- The count of a spare via's failures. -/
def viaNoted (s : State) (k n : Nat) : State :=
  { s with bist := { s.bist with viaBad := SMap.set (fun _ => 0) k n s.bist.viaBad } }

theorem spareViaCheck_eq {d p : Nat} {x : ViaId} (fail : Bool) (hen : s.on R.BIST_BIST_CTL F.BIST_BIST_CTL_ANA_EN = true)
    (hf : (if x.ca then 14 else 36) ≤ x.via.toNat) (hl : s.pchLive (2 * d + p) = true)
    (hs : s.spareFree (2 * d + p) x.ca (x.via.toNat - if x.ca then 14 else 36) = true) : s.spareViaCheck d p x fail =
      if (if fail then SMap.get (fun _ => 0) s.bist.viaBad (resOfVia d p x).toNat + 1 else 0) < 2 then
        (s.viaCounted fail).viaNoted (resOfVia d p x).toNat
          (if fail then SMap.get (fun _ => 0) s.bist.viaBad (resOfVia d p x).toNat + 1 else 0)
      else ((s.viaCounted fail).viaNoted (resOfVia d p x).toNat
          (if fail then SMap.get (fun _ => 0) s.bist.viaBad (resOfVia d p x).toNat + 1 else 0)).spareViaOut d p x := by
  unfold spareViaCheck
  dsimp only
  rw [hen, hl, hs, if_neg (by simp; omega)]
  rfl

theorem viaCounted_spec (fail : Bool) : (s.viaCounted fail).untested = s.untested ∧ (s.viaCounted fail).spare = s.spare ∧
    (s.viaCounted fail).rd R.BIST_CONT_RUNS = s.rd R.BIST_CONT_RUNS + 1 ∧
    (fail = true → (s.viaCounted fail).rd R.BIST_CONT_FAILS = s.rd R.BIST_CONT_FAILS + 1) ∧
    (fail = false → RegsKept s (s.viaCounted fail) [0x014] [R.BIST_CONT_RUNS]) := by
  have hruns : (s.inc R.BIST_CONT_RUNS).rd R.BIST_CONT_RUNS = s.rd R.BIST_CONT_RUNS + 1 := (rd_inc ..).trans (if_pos rfl)
  have hfails : (s.inc R.BIST_CONT_RUNS).rd R.BIST_CONT_FAILS = s.rd R.BIST_CONT_FAILS := (rd_inc ..).trans (if_neg (by decide))
  have hk : RegsKept s (s.inc R.BIST_CONT_RUNS) [0x014] [R.BIST_CONT_RUNS] := (RegsKept.refl s).inc _ (by simp)
  have hu : (s.inc R.BIST_CONT_RUNS).untested = s.untested := inc_untested 1
  have hs : (s.inc R.BIST_CONT_RUNS).spare = s.spare := inc_spare ..
  unfold viaCounted
  generalize s.inc R.BIST_CONT_RUNS = u at hruns hfails hk hu hs ⊢
  cases fail
  · simp only [Bool.false_eq_true, if_false]
    exact ⟨hu, hs, hruns, fun h => h.elim, fun _ => hk⟩
  · simp only [if_true]
    refine ⟨(inc_untested 1).trans hu, (inc_spare ..).trans hs, (rd_inc ..).trans ((if_neg (by decide)).trans hruns), fun _ => ?_,
      fun h => absurd h (by decide)⟩
    exact (rd_inc ..).trans ((if_pos rfl).trans (by rw [hfails]; rfl))

theorem viaNoted_spec (k n : Nat) : SMap.get (fun _ => 0) (s.viaNoted k n).bist.viaBad k = n ∧
    (s.viaNoted k n).untested = s.untested ∧ (s.viaNoted k n).regs = s.regs ∧ (s.viaNoted k n).spare = s.spare :=
  ⟨SMap.get_set_same _ _ _ _, rfl, rfl, rfl⟩

theorem spareViaOut_spec (d p : Nat) (x : ViaId) : (s.spareViaOut d p x).bist.viaBad = s.bist.viaBad ∧
    (s.spareViaOut d p x).untested = s.untested ∧
    (s.spareViaOut d p x).spare.commits.map Prod.fst = s.spare.commits.map Prod.fst ++ [resOfVia d p x] ∧
    ∀ b, b < 0x140000 → (s.spareViaOut d p x).rd b = s.rd b := by
  refine ⟨rfl, rfl, ?_, fun b hb => rd_wr_other _ _ _ _ ?_⟩
  · exact List.map_append ..
  · unfold R.CHP_PHY_STAT
    omega

end State
end Sys2Proof.Machine

namespace Sys2Proof.Safety
open Sys2Proof.Machine Sys2Proof.Machine.State

theorem released_of_live {s : State} {pc : Nat} (h : s.pchLive pc = true) : s.released = true := by
  unfold pchLive at h
  simp only [Bool.and_eq_true] at h
  obtain ⟨⟨⟨⟨hr, -⟩, -⟩, -⟩, -⟩ := h
  exact hr

theorem grpStat_page (g : Fin 8) : pageOf (R.RXG_GRP_STAT g) ≠ 0x014 ∧ pageOf (R.TXG_GRP_STAT g) ≠ 0x014 ∧
    R.TXG_GRP_STAT g ≠ R.RXG_GRP_STAT g ∧ R.BIST_LOOP_RUNS ≠ R.RXG_GRP_STAT g ∧ R.BIST_LOOP_FAILS ≠ R.RXG_GRP_STAT g ∧
    R.RXG_GRP_STAT g ∉ [R.BIST_LOOP_RUNS, R.BIST_LOOP_FAILS] ∧ R.TXG_GRP_STAT g ∉ [R.BIST_LOOP_RUNS, R.BIST_LOOP_FAILS] := by
  revert g
  decide

theorem laneCheck_passes : ∀ (s : State) (g : Fin 8), Calm s → s.released = true → s.on R.BIST_BIST_CTL F.BIST_BIST_CTL_ANA_EN = true → s.spareLane .rx g ≠ 15 →
    s.spareLane .rx g = s.spareLane .tx g → s.sparingRuns .rx g = false → s.sparingRuns .tx g = false →
    Gives (.spareLaneCheck g false false) s fun t =>
    SMap.get (fun _ => 0) t.bist.laneBad (2 * g) = 0 ∧ SMap.get (fun _ => 0) t.bist.laneBad (2 * g + 1) = 0 ∧
    t.spareLane .rx g = s.spareLane .rx g ∧ t.rd R.BIST_LOOP_RUNS = s.rd R.BIST_LOOP_RUNS + 1 ∧ MemKept s t ∧
    RegsKept s t [0x014] [R.BIST_LOOP_RUNS] := by
  intro s g hc hr hen h15 hl hx ht
  have heq := spareLaneCheck_eq false false hen h15 hl hx ht
  obtain ⟨-, cu, cr, -, ck, co⟩ := laneCounted_spec (s := s) false
  obtain ⟨hpage, -, -, -, -, hreg, -⟩ := grpStat_page g
  obtain ⟨n1, n2, nu, nr⟩ := laneNoted_spec (s := s.laneCounted false) g 0 0
  have hu := nu.trans cu
  have hct := calm_of_untested hu hc
  refine gives_of_eq rfl ((clocked_eq hr _).trans (congrArg settle heq)) ⟨?_, ?_, ?_, ?_, (memKept_of_untested hu).trans (.settle hct), ?_⟩
  · exact (congrArg (fun b => SMap.get (fun _ => 0) b.laneBad (2 * g)) (settle_bist hct)).trans n1
  · exact (congrArg (fun b => SMap.get (fun _ => 0) b.laneBad (2 * g + 1)) (settle_bist hct)).trans n2
  · exact fld_eq_of_rd ((settle_rd hct _ hpage).trans ((rd_eq_of_regs nr _).trans (co _ hreg))) _
  · exact (settle_rd hct _ (by decide)).trans ((rd_eq_of_regs nr _).trans cr)
  · exact ((ck rfl).of_regs nr).trans (.settle hct (by simp))

theorem laneCheck_fails : ∀ (s : State) (g : Fin 8) tx, Calm s → s.released = true → s.on R.BIST_BIST_CTL F.BIST_BIST_CTL_ANA_EN = true → s.spareLane .rx g ≠ 15 →
    s.spareLane .rx g = s.spareLane .tx g → s.sparingRuns .rx g = false → s.sparingRuns .tx g = false →
    SMap.get (fun _ => 0) s.bist.laneBad (2 * g) = 1 → Gives (.spareLaneCheck g true tx) s fun t =>
    SMap.get (fun _ => 0) t.bist.laneBad (2 * g) = 2 ∧ t.spareLane .rx g = 15 ∧ g.val ∈ t.bist.loopOut ∧
    t.spareLane .tx g = s.spareLane .tx g ∧ t.rd R.BIST_LOOP_RUNS = s.rd R.BIST_LOOP_RUNS + 1 ∧
    t.rd R.BIST_LOOP_FAILS = s.rd R.BIST_LOOP_FAILS + 1 ∧ MemKept s t := by
  intro s g tx hc hr hen h15 hl hx ht hb
  have heq := spareLaneCheck_eq true tx hen h15 hl hx ht
  rw [Bool.true_or] at heq
  obtain ⟨cb, cu, cr, cf, -, co⟩ := laneCounted_spec (s := s) true
  generalize s.laneCounted true = u at heq cb cu cr cf co
  obtain ⟨hpr, hpt, hne, hnr, hnf, hrr, htr⟩ := grpStat_page g
  rw [cb, if_pos rfl, hb] at heq
  generalize (if tx = true then SMap.get (fun _ => 0) s.bist.laneBad (2 * g + 1) + 1 else 0) = m at heq
  obtain ⟨n1, -, nu, nr⟩ := laneNoted_spec (s := u) g 2 m
  obtain ⟨o1, o2, o3, o4, o5⟩ := laneOut_spec (s := u.laneNoted g 2 m) g
  have hu := o4.trans (nu.trans cu)
  have hct := calm_of_untested hu hc
  have hbist := settle_bist hct
  refine gives_of_eq rfl ((clocked_eq hr _).trans (congrArg settle (heq.trans (if_neg (by decide)))))
    ⟨?_, ?_, ?_, ?_, ?_, ?_, (memKept_of_untested hu).trans (.settle hct)⟩
  · rw [hbist, o1]
    exact n1
  · exact (fld_eq_of_rd (settle_rd hct _ hpr) _).trans o3
  · rw [hbist]
    exact o2
  · exact fld_eq_of_rd ((settle_rd hct _ hpt).trans ((o5 _ hne).trans ((rd_eq_of_regs nr _).trans (co _ htr)))) _
  · exact (settle_rd hct _ (by decide)).trans ((o5 _ hnr).trans ((rd_eq_of_regs nr _).trans cr))
  · exact (settle_rd hct _ (by decide)).trans ((o5 _ hnf).trans ((rd_eq_of_regs nr _).trans (cf rfl)))

theorem laneCheck_skipped : ∀ (s : State) (g : Fin 8) rx tx, Calm s → s.released = true → s.on R.BIST_BIST_CTL F.BIST_BIST_CTL_ANA_EN = true → s.spareLane .rx g = 15 →
    Gives (.spareLaneCheck g rx tx) s fun t =>
    t.bist = s.bist ∧ t.rd R.BIST_LOOP_SKIPPED = s.rd R.BIST_LOOP_SKIPPED + 1 ∧ MemKept s t ∧
    RegsKept s t [0x014] [R.BIST_LOOP_SKIPPED] := by
  intro s g rx tx hc hr hen h15
  have hct := calm_of_untested (inc_untested (s := s) (a := R.BIST_LOOP_SKIPPED) 1) hc
  refine gives_of_eq rfl ((clocked_eq hr _).trans (congrArg settle (spareLaneCheck_skip rx tx hen h15)))
    ⟨(settle_bist hct).trans (inc_bist ..), ?_, (inc_memKept ..).trans (.settle hct), ?_⟩
  · exact (settle_rd hct _ (by decide)).trans ((rd_inc ..).trans (if_pos rfl))
  · exact ((RegsKept.refl s).inc _ (by simp)).trans (.settle hct (by simp))

theorem viaCheck_passes : ∀ (s : State) (c : Fin 32) (p : Bool) v, Calm s → s.on R.BIST_BIST_CTL F.BIST_BIST_CTL_ANA_EN = true →
    v.ca = false → 36 ≤ v.via.toNat → s.pchLive (2 * c + p.toNat) = true →
    s.spareFree (2 * c + p.toNat) v.ca (v.via.toNat - 36) = true → Gives (.spareViaCheck c p v false) s fun t =>
    SMap.get (fun _ => 0) t.bist.viaBad (State.resOfVia c p.toNat v).toNat = 0 ∧
    t.rd R.BIST_CONT_RUNS = s.rd R.BIST_CONT_RUNS + 1 ∧ t.spare.commits = s.spare.commits ∧ MemKept s t ∧
    RegsKept s t [0x014] [R.BIST_CONT_RUNS] := by
  intro s c p v hc hen hca hv hl hf
  have heq := spareViaCheck_eq (x := v) (p := p.toNat) false hen (by rw [hca]; exact hv) hl (by rw [hca] at hf ⊢; exact hf)
  obtain ⟨cu, cs, cr, -, ck⟩ := viaCounted_spec (s := s) false
  obtain ⟨n1, nu, nr, ns⟩ := viaNoted_spec (s := s.viaCounted false) (resOfVia c p.toNat v).toNat 0
  have hu := nu.trans cu
  have hct := calm_of_untested hu hc
  refine gives_of_eq rfl ((clocked_eq (released_of_live hl) _).trans (congrArg settle heq))
    ⟨?_, ?_, ?_, (memKept_of_untested hu).trans (.settle hct), ((ck rfl).of_regs nr).trans (.settle hct (by simp))⟩
  · exact (congrArg (fun b => SMap.get (fun _ => 0) b.viaBad (resOfVia c p.toNat v).toNat) (settle_bist hct)).trans n1
  · exact (settle_rd hct _ (by decide)).trans ((rd_eq_of_regs nr _).trans cr)
  · exact (settle_records hct).1.trans (by rw [ns, cs])

theorem viaCheck_fails : ∀ (s : State) (c : Fin 32) (p : Bool) v, Calm s → s.on R.BIST_BIST_CTL F.BIST_BIST_CTL_ANA_EN = true →
    v.ca = true → 14 ≤ v.via.toNat → s.pchLive (2 * c + p.toNat) = true →
    s.spareFree (2 * c + p.toNat) v.ca (v.via.toNat - 14) = true →
    SMap.get (fun _ => 0) s.bist.viaBad (State.resOfVia c p.toNat v).toNat = 1 →
    Gives (.spareViaCheck c p v true) s fun t =>
    SMap.get (fun _ => 0) t.bist.viaBad (State.resOfVia c p.toNat v).toNat = 2 ∧
    t.rd R.BIST_CONT_FAILS = s.rd R.BIST_CONT_FAILS + 1 ∧
    t.spare.commits.map Prod.fst = s.spare.commits.map Prod.fst ++ [State.resOfVia c p.toNat v] ∧ MemKept s t := by
  intro s c p v hc hen hca hv hl hf hb
  have heq := spareViaCheck_eq (x := v) (p := p.toNat) true hen (by rw [hca]; exact hv) hl (by rw [hca] at hf ⊢; exact hf)
  rw [if_pos rfl, hb] at heq
  obtain ⟨cu, cs, cr, cf, -⟩ := viaCounted_spec (s := s) true
  generalize s.viaCounted true = u at heq cu cs cr cf
  obtain ⟨n1, nu, nr, ns⟩ := viaNoted_spec (s := u) (resOfVia c p.toNat v).toNat 2
  obtain ⟨o1, o2, o3, o4⟩ := spareViaOut_spec (s := u.viaNoted (resOfVia c p.toNat v).toNat 2) c p.toNat v
  have hu := o2.trans (nu.trans cu)
  have hct := calm_of_untested hu hc
  refine gives_of_eq rfl ((clocked_eq (released_of_live hl) _).trans (congrArg settle (heq.trans (if_neg (by decide)))))
    ⟨?_, ?_, ?_, (memKept_of_untested hu).trans (.settle hct)⟩
  · rw [settle_bist hct, o1]
    exact n1
  · exact (settle_rd hct _ (by decide)).trans ((o4 _ (by decide)).trans ((rd_eq_of_regs nr _).trans (cf rfl)))
  · rw [(settle_records hct).1, o3, ns, cs]

theorem calBlk_selects : ∀ (s : State) w, Open s w.path R.CAL_CAL_BLK → Calm s → Gives (.calBlkWrite w) s fun t =>
    t.calBlk = F.CAL_CAL_BLK_BLOCK.get w.value ∧
    t.cal.staged = (if F.CAL_CAL_BLK_BLOCK.get w.value = s.calBlk then s.cal.staged else []) ∧
    t.cal.pend = s.cal.pend ∧ t.ch = s.ch ∧ t.cal.sensor = s.cal.sensor ∧ MemKept s t ∧
    RegsKept s t [0x014] [R.CAL_CAL_BLK, R.CAL_CAL_STAT] := by
  intro s w ho _
  have hget : F.CAL_CAL_BLK_BLOCK.get ((s.cur R.CAL_CAL_BLK &&& ~~~255#32) ||| (w.value &&& 255#32)) =
      F.CAL_CAL_BLK_BLOCK.get w.value := Fld.get_merge _ _ (by decide)
  exact gives_of_eq rfl ((calBlk_open w.value ho).trans (by rw [hget])) (calSelect_spec (Fld.get_lt _ _))

theorem calData_stages : ∀ (s : State) w i, Open s w.path R.CAL_CAL_DATA → Calm s → i = s.fld R.CAL_CAL_IDX F.CAL_CAL_IDX_INDEX → i < calWords s.calBlk →
    Gives (.calDataWrite w) s fun t =>
    SMap.get (fun _ => none) t.cal.staged i = some w.value ∧
    (∀ j : Fin 128, j.val ≠ i → SMap.get (fun _ => none) t.cal.staged j = SMap.get (fun _ => none) s.cal.staged j) ∧
    t.cal.pend = s.cal.pend ∧ t.ch = s.ch ∧ t.cal.sensor = s.cal.sensor ∧ MemKept s t ∧
    RegsKept s t [0x014] [R.CAL_CAL_STAT] := by
  intro s w i ho _ hi hw
  obtain ⟨h1, h2, h3, h4, h5, h6, h7⟩ := wordStaged_spec (s := s) (i := i) (v := w.value)
  exact gives_of_eq rfl ((calData_open w.value ho).trans (calStage_eq hi.symm hw)) ⟨h1, fun j hj => h2 j hj, h3, h4, h5, h6, h7⟩

theorem commit_refused : ∀ (s : State) path, Open s path R.CAL_CAL_CMD → Calm s → s.cal.staged ≠ [] → s.calRefusal s.calBlk ≠ 0 →
    Gives (.commit path) s fun t =>
    t.fld R.CAL_CAL_STAT F.CAL_CAL_STAT_ERROR = s.calRefusal s.calBlk ∧ t.cal = s.cal ∧ t.ch = s.ch ∧
    t.rd R.CAL_COMMIT_ERRORS = s.rd R.CAL_COMMIT_ERRORS + 1 ∧ MemKept s t ∧
    RegsKept s t [0x014] [R.CAL_CAL_STAT, R.CAL_COMMIT_ERRORS] := by
  intro s path ho _ hs hr
  have hcal : ((s.setCalError (s.calRefusal s.calBlk)).inc R.CAL_COMMIT_ERRORS).cal = s.cal := inc_cal ..
  have hch : ((s.setCalError (s.calRefusal s.calBlk)).inc R.CAL_COMMIT_ERRORS).ch = s.ch := inc_ch ..
  refine gives_of_eq rfl ((calCmd_open _ ho).trans (calCommit_refused hs hr)) ⟨?_, hcal, hch, ?_,
    (put_memKept ..).trans (inc_memKept ..), (((RegsKept.refl s).put _ _ (by simp)).inc _ (by simp))⟩
  · exact (fld_eq_of_rd ((rd_inc ..).trans (if_neg (by decide))) _).trans
      ((fld_put_same _ _ _ _ (by decide)).trans (Nat.mod_eq_of_lt (calRefusal_lt _)))
  · exact (rd_inc ..).trans ((if_pos rfl).trans (congrArg (· + 1) (rd_wr_other _ _ _ _ (by decide))))

theorem commit_taken : ∀ (s : State) path, Open s path R.CAL_CAL_CMD → Calm s → s.cal.staged ≠ [] → s.calRefusal s.calBlk = 0 →
    s.on R.CAL_CAL_STAT F.CAL_CAL_STAT_PENDING = false → Gives (.commit path) s fun t =>
    t.cal = { s.cal with pend := s.stagedWords, pendBlk := s.calBlk, staged := [] } ∧
    t.on R.CAL_CAL_STAT F.CAL_CAL_STAT_PENDING = true ∧ t.fld R.CAL_CAL_STAT F.CAL_CAL_STAT_ERROR = 0 ∧ t.ch = s.ch ∧
    MemKept s t ∧ RegsKept s t [0x014] [R.CAL_CAL_STAT] := by
  intro s path ho _ hs hr hp
  have hk : RegsKept s s.handedOver [0x014] [R.CAL_CAL_STAT] := .of_regs (.refl s) rfl
  refine gives_of_eq rfl ((calCmd_open _ ho).trans (calCommit_taken hs hr hp)) ⟨rfl, ?_, ?_, rfl, ⟨rfl, rfl, rfl, rfl, rfl, rfl⟩,
    ((hk.flag _ _ (by simp)).put _ _ (by simp)).flag _ _ (by simp)⟩
  · exact (on_flag_other _ _ _ _ _ _ (.inr (by decide))).trans ((on_put_other _ _ _ _ _ _ (.inr (by decide))).trans
      (on_flag_same _ _ _ _ (by decide) rfl))
  · exact (fld_flag_other _ _ _ _ _ _ (.inr (by decide))).trans (fld_put_same _ _ _ _ (by decide))

theorem discard_drops : ∀ (s : State) path, Open s path R.CAL_CAL_CMD → Calm s → Gives (.discard path) s fun t =>
    t.cal = { s.cal with staged := [] } ∧ t.ch = s.ch ∧ MemKept s t ∧ RegsKept s t [0x014] [R.CAL_CAL_STAT] := by
  intro s path ho _
  have hk : RegsKept s s.clearStaged [0x014] [R.CAL_CAL_STAT] := .of_regs (.refl s) rfl
  exact gives_of_eq rfl (calCmd_open (F.CAL_CAL_CMD_DISCARD.set 1 0) ho) ⟨rfl, rfl, ⟨rfl, rfl, rfl, rfl, rfl, rfl⟩, hk.flag _ _ (by simp)⟩

theorem calApply_word : ∀ (s : State) c i v, s.cal.pendBlk = c → c ≠ 0x31 → s.on R.CAL_CAL_STAT F.CAL_CAL_STAT_PENDING = true →
    s.calBlockDown c = false → s.calBusy c = false → s.cal.pend = [(i, v)] → i < calWords c → Gives .calApply s fun t =>
    (c < 0x10 ∨ c = 0x32 → t.calWord c i = v) ∧ (c = 0x30 → t.calWord c i = v &&& 0xFF) ∧
    (0x10 ≤ c ∧ c < 0x30 → t.calWord c i =
    (s.calWord c i &&& ~~~(BitVec.ofNat 32 (calMask c i))) ||| (v &&& BitVec.ofNat 32 (calMask c i))) ∧
    (∀ j : Fin 128, j.val ≠ i → t.calWord c j = s.calWord c j) ∧ t.cal.pend = [] ∧
    t.on R.CAL_CAL_STAT F.CAL_CAL_STAT_PENDING = false ∧ t.rd R.CAL_COMMITS = s.rd R.CAL_COMMITS + 1 ∧ MemKept s t := by
  intro s c i v hc h31 hp hd hb hw hi
  subst hc
  obtain ⟨h1, h2, h3, h4, h5, h6⟩ := setCalWord_spec (s := s) (v := v) hi h31
  have heq := calApply_one hp hd hb hw
  generalize s.setCalWord s.cal.pendBlk i v = u at heq h1 h2 h3 h4 h5 h6
  have hword (j : Nat) := applied_blind (s := u) (calBlind_word s.cal.pendBlk j) s.cal.pendBlk
  have hmem := applied_blind (s := u) calBlind_stores s.cal.pendBlk
  obtain ⟨k1, k2, k3⟩ := applied_spec (s := u) s.cal.pendBlk
  refine gives_of_eq rfl heq ⟨fun h => (hword i).trans (h1 h), fun h => (hword i).trans (h2 h), fun h => (hword i).trans (h3 h),
    fun j hj => (hword j).trans (h4 j hj), k1, k2, k3.trans (by rw [h5]), h6.trans ?_⟩
  obtain ⟨m1, m2, m3, m4, m5, m6⟩ : _ ∧ _ ∧ _ ∧ _ ∧ _ ∧ _ := by simpa only [Prod.mk.injEq] using hmem
  exact ⟨m1, m2, m3, m4, m5, m6⟩

theorem calApply_waits : ∀ s : State, s.on R.CAL_CAL_STAT F.CAL_CAL_STAT_PENDING = true → s.calBlockDown s.cal.pendBlk = false →
    s.calBusy s.cal.pendBlk = true → exec .calApply s = .next s := by
  exact fun s hp hd hb => congrArg Host.Outcome.next (calApply_busy hp hd hb)

theorem calApply_discards : ∀ s : State, s.on R.CAL_CAL_STAT F.CAL_CAL_STAT_PENDING = true → s.calBlockDown s.cal.pendBlk = true →
    Gives .calApply s fun t =>
    t.cal.pend = [] ∧ t.on R.CAL_CAL_STAT F.CAL_CAL_STAT_PENDING = false ∧ t.fld R.CAL_CAL_STAT F.CAL_CAL_STAT_ERROR = 2 ∧
    t.rd R.CAL_COMMIT_ERRORS = s.rd R.CAL_COMMIT_ERRORS + 1 ∧ t.ch.cal = s.ch.cal ∧ t.cal.sensor = s.cal.sensor ∧
    MemKept s t := by
  intro s hp hd
  obtain ⟨k1, k2, k3, k4⟩ := calEnd_spec (s := (s.setCalError 2).inc R.CAL_COMMIT_ERRORS)
  obtain ⟨hch, hsensor⟩ := Prod.mk.inj (calBlind_used.discarded s 2)
  obtain ⟨m1, m2, m3, m4, m5, m6⟩ : _ ∧ _ ∧ _ ∧ _ ∧ _ ∧ _ := by simpa only [Prod.mk.injEq] using calBlind_stores.discarded s 2
  refine gives_of_eq rfl (calApply_down hp hd) ⟨k1, k2, k3.trans ?_, ?_, hch, hsensor, m1, m2, m3, m4, m5, m6⟩
  · exact (fld_eq_of_rd ((rd_inc ..).trans (if_neg (by decide))) _).trans (fld_put_same _ _ _ _ (by decide))
  · exact (k4 _ (by decide) (by decide)).trans ((rd_inc ..).trans ((if_pos rfl).trans
      (congrArg (· + 1) (rd_wr_other _ _ _ _ (by decide)))))

theorem calApply_idle : ∀ s : State, s.on R.CAL_CAL_STAT F.CAL_CAL_STAT_PENDING = false → exec .calApply s = .next s := by
  exact fun s hp => congrArg Host.Outcome.next (calApply_none hp)

/-- Settles O48: a check changes its counts and, failing again, its spare; a commit moves words to their places, each in its
own, and its end leaves them all. -/
theorem analogueAndCalibration : Obligations.AnalogueAndCalibration :=
  ⟨laneCheck_passes, laneCheck_fails, laneCheck_skipped, viaCheck_passes, viaCheck_fails, calBlk_selects, calData_stages, commit_refused, commit_taken, discard_drops, calApply_word, calApply_waits, calApply_discards, calApply_idle⟩

end Sys2Proof.Safety
end

section
/-! SUPPORT. An uncorrectable read whose poison write finds the write queue full (R194, R197). -/

namespace Sys2Proof.Safety
open Sys2Proof.Machine Sys2Proof.Machine.State Sys2Proof.Tests

/-- The read of line 3 of frame 37 that is in flight, and the request it belongs to. -/
def lostRead : DReq := fl 37 3 7 false
def lostReq : Req := reading 7 (hdr 1 3 5 4095 0 1 2051)

/-- The write queue holds as many writes as it has room for, all to other lines of the frame. -/
def fullQueue : List DReq := (List.range 64).map fun i => dq true 37 (4 + i)

/-- The read's pseudo-channel has its write queue full; the read is followed by one of another line. -/
def fullState : State :=
  (allDies (parcelAt (reqs [lostReq]) 2 (mkEntry 37 0 true false false false))).setPch 11
    { flight := [lostRead, { write := false, f := 5, o := 9 }], wq := fullQueue }

/-- The bits in error of both bursts: more than the code corrects. -/
def lostBurst : BurstIn := flips 0x0102030405060708090A0B

/-- The word as it came. -/
def lostLine : Line :=
  (decodeRead (fullState.corrMax 37) (fullState.retryEn 37) (1024 * 37 + 3) (fullState.burst 37 3 lostRead.line lostBurst)
    (fullState.burst 37 3 lostRead.line lostBurst)).line

theorem fullState_hyps : NoFills fullState ∧ fullState.place.mig = [] ∧ Quiet fullState ∧
    (fullState.pch 11).flight = lostRead :: [{ write := false, f := 5, o := 9 }] ∧ fullState.unreadable 37 = false ∧
    (fullState.pch 11).rq = [] ∧ fullState.superseded lostRead = false ∧ fullState.cached 2051 = none ∧
    eHeld (fullState.live 2) = true ∧ eFrame (fullState.live 2) = 37 := by
  unfold NoFills Quiet
  decide +kernel

theorem fullState_lost : decodeRead (fullState.corrMax 37) (fullState.retryEn 37) (1024 * 37 + 3)
    (fullState.burst 37 3 lostRead.line lostBurst) (fullState.burst 37 3 lostRead.line lostBurst) =
      { line := lostLine, lost := true } := by
  decide +kernel

theorem fullState_request : fullState.xact.reqs.find? (fun r => decide (r.id = lostRead.req)) = some lostReq ∧
    hAddr lostReq.header = 2051 ∧ Plain lostReq := by
  unfold Plain
  decide +kernel

/-- The poison is written to the DRAM itself. -/
theorem fullState_writes : ∃ t, exec (.readDataReturn 5 true lostBurst lostBurst noErr) fullState = .next t ∧
    t.dramRead 37 3 ≠ fullState.dramRead 37 3 := by
  refine ⟨_, rfl, ?_⟩
  decide +kernel

/-- Refutes O30: the clause on an uncorrectable word says that no store changes, for its poison waits in the write queue. Where
the queue is full (64 writes, R194) the poison is written to the DRAM at once (log 101), as here. -/
theorem not_dramReturns : ¬ Obligations.DramReturns := by
  unfold Obligations.DramReturns
  intro h
  obtain ⟨-, hlost, -⟩ := h
  obtain ⟨hfills, hmig, hquiet, hflight, hread, hrq, hsup, hcached, hheld, hframe⟩ := fullState_hyps
  obtain ⟨hfind, haddr, hplain⟩ := fullState_request
  obtain ⟨t, ht, -, -, -, -, -, hmem⟩ := hlost fullState 5 true lostBurst lostBurst noErr lostRead _ lostReq lostLine
    ⟨rfl, rfl, rfl, rfl⟩ hfills hmig hquiet hflight hread rfl hrq fullState_lost rfl hsup (by rw [haddr]; exact hcached)
    (by rw [haddr]; exact hheld) (by rw [haddr]; exact hframe) hfind rfl hplain rfl rfl
  obtain ⟨u, hu, hne⟩ := fullState_writes
  rw [ht] at hu
  cases hu
  obtain ⟨hdram, -⟩ := hmem
  exact hne (by unfold dramRead dramByte; rw [hdram])

end Sys2Proof.Safety
end

section
/-! SUPPORT. A dirty line of the cache die that is lost while the write queue of its frame holds an entry that is no write
(R179, R197). -/

namespace Sys2Proof.Safety
open Sys2Proof.Machine Sys2Proof.Machine.State Sys2Proof.Tests

/-- A dirty line of parcel 68, whose frame is 68, stands on the cache die. -/
def dirtyState : State := inCache ready 70001 9 3 3 ⟨1, 1⟩
def dirtyKey : Nat := keyOf ready 70001 9
def dirtyBank : Fin 16 := Fin.ofNat 16 (keyBank dirtyKey)

/-- An entry for the line's place that the write queue holds though it is a read: performed, it is looked for in the read
queue, so it stays and is still the newest write queued to the line. -/
def strayEntry : DReq := { write := false, f := 68, o := 369, line := Line.zeroed }

/-- The dirty line, with the stray entry in the write queue of its pseudo-channel. -/
def strayDirty : State := dirtyState.setPch (fPc 68) { wq := [strayEntry] }

theorem strayDirty_hyps : strayDirty.released = true ∧ NoFills strayDirty ∧ strayDirty.place.mig = [] ∧
    strayDirty.cached 70001 = some dirtyKey ∧ keyBank dirtyKey = dirtyBank ∧ strayDirty.wdbLine 70001 = none ∧
    (tDirty (strayDirty.tag dirtyKey)).testBit (70001 % 4) = true ∧ eState (strayDirty.entry (liParcel 70001)) = 0 := by
  unfold NoFills
  decide +kernel

/-- The line's newest data is still the entry's, which is not poisoned. -/
theorem strayDirty_timeout : ∃ t, exec (.cacheBankTimeout dirtyBank .read 70001 true) strayDirty = .next t ∧
    (t.homeLine 70001).poisoned = false := by
  refine ⟨_, rfl, ?_⟩
  decide +kernel

/-- Refutes O28: the clause on the time-out of a dirty line says that the line's newest data in DRAM is poisoned; where the
write queue holds an entry for the line that is not marked as a write, the poison is stored beneath it. The clause bounds the
queues by no invariant; only such an ill-formed queue, which no step builds, breaks it. -/
theorem not_cacheLoss : ¬ Obligations.CacheLoss := by
  unfold Obligations.CacheLoss
  intro h
  obtain ⟨-, -, -, hdirty, -⟩ := h
  obtain ⟨hrel, hfills, hmig, hcached, hbank, hwdb, hbit, hst⟩ := strayDirty_hyps
  obtain ⟨t, ht, -, hpois, -⟩ := hdirty strayDirty dirtyBank .read 70001 dirtyKey hrel hfills hmig hcached hbank hwdb hbit hst
  obtain ⟨u, hu, hnot⟩ := strayDirty_timeout
  rw [ht] at hu
  cases hu
  exact absurd (hpois.symm.trans hnot) (by decide)

end Sys2Proof.Safety
end

section
/-! SUPPORT. A recopy pass while the list of migrations holds its slot twice (R146, R147). -/

namespace Sys2Proof.Safety
open Sys2Proof.Machine Sys2Proof.Machine.State Sys2Proof.Tests

/-- A migration of parcel 5 at the end of a recopy pass over one line. -/
def firstMove : Mig := mig0 .recopy false [] [3]

/-- A migration of parcel 6, whose source is the first one's destination. -/
def secondMove : Mig := { firstMove with parcel := 6, src := 100000, dst := 7 }

/-- Slot 0 is listed twice: a look-up finds the first move; the write to frame 100000 finds the second one, marks its line
dirty and puts it in the first one's place. -/
def twiceListed : State :=
  plc (moving 0 firstMove (mkEntry 5 1 true false true true)) fun p => { p with mig := [(0, some firstMove), (0, some secondMove)] }

theorem twiceListed_hyps : Calm twiceListed ∧ twiceListed.released = true ∧
    SMap.get (fun _ => none) twiceListed.place.mig 0 = some firstMove ∧ (∀ o ∈ firstMove.pass, o < 1024) ∧
    twiceListed.migHeld firstMove firstMove.pass = false ∧ twiceListed.unreadable firstMove.src = false ∧
    twiceListed.wdb.length < 256 := by
  unfold Calm
  decide +kernel

/-- The pass ends for parcel 6, and parcel 5 does not enter Close. -/
theorem twiceListed_pass : ∃ t, exec (.migrationRecopyPassDone 0 noErr) twiceListed = .next t ∧
    eState (t.entry firstMove.parcel) ≠ 2 := by
  refine ⟨_, rfl, ?_⟩
  decide +kernel

/-- Refutes O22: the clause on MIGRATION_RECOPY_PASS_DONE says that the parcel enters Close; where the list of migrations holds
its slot twice, the second time with a migration out of its destination, the writes of the pass put that one in its place. The
clause asks no canonical form of the list; only such an ill-formed list, which no step builds, breaks it. -/
theorem not_epochAndMigration : ¬ Obligations.EpochAndMigration := by
  unfold Obligations.EpochAndMigration
  intro h
  obtain ⟨-, -, -, -, hpass, -⟩ := h
  obtain ⟨hcalm, hrel, hget, hlines, hheld, hread, hwdb⟩ := twiceListed_hyps
  obtain ⟨t, ht, -, hclose, -⟩ := hpass twiceListed 0 firstMove noErr hcalm hrel ⟨rfl, rfl, rfl, rfl⟩ hget rfl (by decide)
    hlines hheld hread hwdb (by decide)
  obtain ⟨u, hu, hnot⟩ := twiceListed_pass
  rw [ht] at hu
  cases hu
  exact hnot hclose

end Sys2Proof.Safety
end

section
/-! SUPPORT. A commit record is applied while another parcel's Close has its full share of the write data buffer (R149). -/

namespace Sys2Proof.Safety
open Sys2Proof.Machine Sys2Proof.Machine.State Sys2Proof.Tests

/-- A work that runs on engine 9, and its one record, which writes line 4096 (parcel 4). -/
def recordWork : Work :=
  { req := 7, header := hdr 7 3 5 4095 0 0 0, quad := 1, engine := some 9, phase := .running
    d := { eop := 2, etype := 8, xtype := 0, subop := 0, rmode := 0, noHeat := true, noAlloc := true, precheck := false,
           ctag := 2748, count := 5, strideA := 0, srcA := 65536, paramB := 0, srcB := 0, strideD := 0, dst := 131072, imm := 0 } }
def lineRecord : CommitRec := ⟨7, 1, [.write 4096 0xFF00 0x1200 true [(3, 262144)]]⟩

/-- A migration of parcel 5 in Close. -/
def closeMove : Mig := mig0 .close false [] []

/-- The buffer holds 256 lines of parcel 5, and the line that the record writes. -/
def sharedBuffer : List WdbEntry := ⟨4096, ⟨0x5555, 0x43⟩, false⟩ :: (List.range 256).map fun i => ⟨5120 + i, ⟨9, 3⟩, false⟩

/-- The record waits, and parcel 5 is in Close with its full share of the buffer. -/
def fullShare : State :=
  let s := plc (engS recordWork 9 2) fun p => { p with mig := [(0, some closeMove)], table := [(5, mkEntry 5 2 true false true true)] }
  { s with eng := { s.eng with records := [lineRecord] }, wdb := sharedBuffer }

theorem fullShare_hyps : fullShare.released = true ∧ fullShare.atomWaits 4096 = false ∧ fullShare.eng.works = [recordWork] ∧
    fullShare.eng.records = [lineRecord] ∧ eState (fullShare.entry (liParcel 4096)) < 2 ∧
    fullShare.migOf (liParcel 4096) = none ∧ fullShare.wdbLine 4096 = some ⟨0x5555, 0x43⟩ := by
  decide +kernel

/-- The migration of parcel 5 aborts, and its entry is taken back. -/
theorem fullShare_apply : ∃ t, exec (.commitRecordApply 1 noErr) fullShare = .next t ∧
    t.entry 5 ≠ fullShare.entry 5 := by
  refine ⟨_, rfl, ?_⟩
  decide +kernel

/-- Refutes O34: the clause on COMMIT_RECORD_APPLY says that no entry of the table changes; where another parcel is in Close
with 256 lines in the write data buffer, what follows the record's writes aborts that migration (R149), and its entry is taken
back. The clause asks nothing of other parcels' migrations. -/
theorem not_workRuns : ¬ Obligations.WorkRuns := by
  unfold Obligations.WorkRuns
  intro h
  obtain ⟨-, -, -, -, -, hrecord⟩ := h
  obtain ⟨hrel, hwait, hworks, hrecs, hst, hmig, hwdb⟩ := fullShare_hyps
  obtain ⟨t, ht, -, -, -, -, -, htable⟩ := hrecord fullShare 1 noErr recordWork lineRecord 4096 0xFF00 0x1200 true [(3, 262144)]
    ⟨0x5555, 0x43⟩ hrel ⟨rfl, rfl, rfl, rfl⟩ hwait hworks hrecs rfl rfl rfl rfl hst hmig hwdb
  obtain ⟨u, hu, hne⟩ := fullShare_apply
  rw [ht] at hu
  cases hu
  exact hne (by unfold entry; rw [htable])

end Sys2Proof.Safety
end

section
/-! SUPPORT. Lines that leave the write data buffer: for the write queue of their frame, or for their way on the cache die
(R171). -/

namespace Sys2Proof.Machine
open Sys2Proof.Laws Sys2Proof.Safety

/-! ### Tag entries -/

theorem tTag_mkTag (t v d a : Nat) : tTag (mkTag t v d a) = t % 32768 := by
  unfold tTag mkTag
  rw [BitVec.toNat_ofNat]
  omega

theorem tValid_mkTag (t v d a : Nat) : tValid (mkTag t v d a) = v % 16 := by
  unfold tValid mkTag
  rw [BitVec.toNat_ofNat]
  omega

theorem tDirty_mkTag (t v d a : Nat) : tDirty (mkTag t v d a) = d % 16 := by
  unfold tDirty mkTag
  rw [BitVec.toNat_ofNat]
  omega

theorem tAge_mkTag (t v d a : Nat) : tAge (mkTag t v d a) = a % 4 := by
  unfold tAge mkTag
  rw [BitVec.toNat_ofNat]
  omega

/-- A line's bit, once set, is set in the four bits that a tag entry keeps. -/
theorem testBit_line (v : Nat) {i : Nat} (hi : i < 4) : ((v ||| 2 ^ i) % 16).testBit i = true := by
  rw [show 16 = 2 ^ 4 from rfl, Nat.testBit_mod_two_pow, Nat.testBit_or, Nat.testBit_two_pow_self]
  simp [hi]

namespace State

variable {s : State}

theorem setTag_tag (s : State) (k : Nat) (v : BitVec 25) (j : Nat) : (s.setTag k v).tag j = if j = k then v else s.tag j := by
  have hput : (s.setTag k v).cache.tags = SMap.set (fun _ => 0) k v s.cache.tags := by
    unfold setTag
    dsimp only
    split <;> simp
  unfold tag
  rw [hput]
  split
  next h =>
    rw [h]
    exact SMap.get_set_same _ _ _ _
  next h => exact SMap.get_set_other _ h _ _

theorem setTag_same {α : Type} {g : State → α} (hp : ∀ (t : State) a f n, g (t.put a f n) = g t)
    (hc : ∀ (t : State) tags hdrs ord, g { t with cache := { t.cache with tags := tags, hdrs := hdrs, order := ord } } = g t)
    (s : State) (k : Nat) (v : BitVec 25) : g (s.setTag k v) = g s := by
  unfold setTag
  dsimp only
  refine (hc _ _ _ _).trans ?_
  split
  · rfl
  · exact hp _ _ _ _

theorem setTag_kept (s : State) (k : Nat) (v : BitVec 25) : (s.setTag k v).dram = s.dram ∧ (s.setTag k v).place = s.place ∧
    (s.setTag k v).wdb = s.wdb ∧ (s.setTag k v).cache.data = s.cache.data ∧ (s.setTag k v).cache.shun = s.cache.shun :=
  ⟨setTag_same (by simp) (fun _ _ _ _ => rfl) s k v, setTag_same (by simp) (fun _ _ _ _ => rfl) s k v,
    setTag_same (by simp) (fun _ _ _ _ => rfl) s k v,
    setTag_same (g := fun t => t.cache.data) (by simp) (fun _ _ _ _ => rfl) s k v,
    setTag_same (g := fun t => t.cache.shun) (by simp) (fun _ _ _ _ => rfl) s k v⟩

/-! ### The write data buffer and the write queue -/

theorem wdbTake_line (s : State) (li k : Nat) : (s.wdbTake li).wdbLine k = if k = li then none else s.wdbLine k := by
  unfold wdbTake wdbLine
  rw [List.find?_filter]
  split
  next h =>
    rw [List.find?_eq_none.mpr fun e _ => by simp [h], Option.map_none]
  next h =>
    refine congrArg (fun p => (s.wdb.find? p).map WdbEntry.line) (funext fun e => ?_)
    by_cases he : e.li = k
    · simp [he, h]
    · simp [he]

theorem sendWrite_kept (s : State) (f o : Nat) (l : Line) : (s.sendWrite f o l).dram = s.dram ∧
    (s.sendWrite f o l).cache = s.cache ∧ (s.sendWrite f o l).place = s.place ∧ (s.sendWrite f o l).regs = s.regs ∧
    (s.sendWrite f o l).wdb = s.wdb := ⟨rfl, rfl, rfl, rfl, rfl⟩

/-- A write that arrives at its controller is the newest there. -/
theorem sendWrite_frameLine (s : State) (f o : Nat) (l : Line) : (s.sendWrite f o l).frameLine f o = l := by
  have hwq : ((s.sendWrite f o l).pch (fPc f)).wq = (s.pch (fPc f)).wq ++ [{ write := true, f := f, o := o, line := l, seq := s.ch.seq }] := by
    have hpch : (s.sendWrite f o l).pch (fPc f) = (s.setPch (fPc f) { s.pch (fPc f) with
        wq := (s.pch (fPc f)).wq ++ [{ write := true, f := f, o := o, line := l, seq := s.ch.seq }] }).pch (fPc f) := rfl
    rw [hpch, pch_setPch, if_pos rfl]
  unfold frameLine queuedWrite
  rw [hwq, List.filter_append]
  simp [DReq.at_]

/-- A drained line that its write queue has room for leaves the buffer for it. -/
theorem drainToDram_eq {li : Nat} (l : Line) (hr : s.writeRoom (eFrame (s.entry (liParcel li))) = true)
    (hu : s.spare.unreadable.contains (fPc (eFrame (s.entry (liParcel li)))) = false) :
    s.drainToDram li l = (s.wdbTake li).sendWrite (eFrame (s.entry (liParcel li))) (liOff li) l := by
  unfold drainToDram
  dsimp only
  rw [hr, hu]
  rfl

theorem unshun_self (h : s.cache.shun = []) (li : Nat) : s.unshun li = s :=
  calc s.unshun li = { s with cache := { s.cache with shun := s.cache.shun } } := by
        unfold unshun
        rw [h]
        rfl
    _ = s := rfl

/-! ### The ways of a drain -/

/-- The look-ups of a drain find nothing wrong: what follows is the cache's, or the write queue's. -/
theorem writeDrain_eq {li : Nat} {m : LookupIn} {l : Line} (hm : NoErr m) (hw : s.wdbLine li = some l)
    (he : eState (s.entry (liParcel li)) < 2) :
    s.writeDrain li m =
      if !s.cacheOn then s.drainToDram li l
      else if s.wdbScanned li && (s.sectorWay (s.liQuad li) li).isNone then (s.drainScanned li l).countDrain li
      else
        let r := s.drainToCache m li l
        let t := (if r.2 then r.1.wdbTake li else r.1.drainToDram li l).closeChecks
        if (s.cached li).isNone then t.countDrain li else t := by
  have hheld : eHeld (s.entry (liParcel li)) = true := decide_eq_true (by omega)
  unfold writeDrain
  rw [hw]
  dsimp only
  rw [lostEntries_none hm, hheld, tagLookups_none hm,
    if_neg (by simp; omega)]

/-- A drain that finds no way for its line goes past the cache. -/
theorem drainToCache_past {li : Nat} (m : LookupIn) (l : Line) (hs : s.cache.shun = [])
    (hway : s.sectorWay (s.liQuad li) li = none) (hel : s.eligible li = false) : s.drainToCache m li l = (s, false) := by
  unfold drainToCache
  dsimp only
  rw [hway]
  unfold leaveBank
  dsimp only
  rw [hel]
  simp [unshun_self hs]

/-- A drain whose sector stands in an active bank is written into its way. -/
theorem drainToCache_way {li w : Nat} (m : LookupIn) (l : Line) (hs : s.cache.shun = [])
    (hway : s.sectorWay (s.liQuad li) li = some w) (hact : s.bankActive (wayBank (s.liQuad li) w) = true) :
    s.drainToCache m li l = (s.writeWay (wayKey (s.liQuad li) (cSet li) w) li l
      (tValid (s.tag (wayKey (s.liQuad li) (cSet li) w))) (tDirty (s.tag (wayKey (s.liQuad li) (cSet li) w))) 0, true) := by
  have hshun (k v d : Nat) : (s.writeWay k li l v d 0).cache.shun = [] := by
    unfold writeWay
    exact (setTag_kept _ _ _).2.2.2.2.trans hs
  unfold drainToCache
  dsimp only
  rw [hway]
  unfold leaveBank
  dsimp only
  rw [hs]
  simp [hact, unshun_self (hshun _ _ _)]

/-- What a line's way holds after the line is written into it. -/
theorem writeWay_spec (s : State) (k li : Nat) (l : Line) (v d : Nat) :
    (s.writeWay k li l v d 0).tag k = mkTag (cTag li) (v ||| 2 ^ (li % 4)) (d ||| 2 ^ (li % 4)) 0 ∧
      (∀ j, j ≠ k → (s.writeWay k li l v d 0).tag j = s.tag j) ∧ (s.writeWay k li l v d 0).cacheData k (li % 4) = l ∧
      (s.writeWay k li l v d 0).dram = s.dram ∧ (s.writeWay k li l v d 0).place = s.place ∧
      (s.writeWay k li l v d 0).wdb = s.wdb := by
  obtain ⟨h1, h2, h3, h4, -⟩ := setTag_kept ((s.setData k (li % 4) l).bankAnswers) k
    (mkTag (cTag li) (v ||| 2 ^ (li % 4)) (d ||| 2 ^ (li % 4)) 0)
  unfold writeWay
  refine ⟨?_, fun j hj => ?_, ?_, h1, h2, h3⟩
  · rw [setTag_tag, if_pos rfl]
  · rw [setTag_tag, if_neg hj]
    rfl
  · unfold cacheData
    rw [h4]
    exact SMap.get_set_same _ _ _ _

theorem countDrain_kept (s : State) (li : Nat) : (s.countDrain li).wdb = s.wdb ∧ (s.countDrain li).cache = s.cache ∧
    (s.countDrain li).dram = s.dram ∧ (s.countDrain li).place = s.place ∧ (s.countDrain li).ch = s.ch := by
  unfold countDrain
  split
  · simp
  · exact ⟨rfl, rfl, rfl, rfl, rfl⟩

theorem countDrain_regsKept (s : State) (li : Nat) : RegsKept s (s.countDrain li) [] [R.CACHE_MISSES_LO, R.CACHE_MISSES_HI] := by
  unfold countDrain
  split
  · intro a _ ha
    refine rd_inc64_other _ _ _ _ (fun h => ha ?_) fun h => ha ?_
    · rw [h]
      exact List.mem_cons_self
    · rw [h]
      exact List.mem_cons_of_mem _ List.mem_cons_self
  · exact RegsKept.refl _

end State
end Sys2Proof.Machine

namespace Sys2Proof.Safety
open Sys2Proof.Machine Sys2Proof.Machine.State

variable {s : State}

theorem writeDrain_exec {li : BitVec 31} {m : LookupIn} {u : State} (hrel : s.released = true)
    (hu : s.writeDrain li.toNat m = u) (hp : u.place = s.place) : exec (.writeDrain li m) s = .next u := by
  have hend : s.clocked (fun s => s.afterMove (s.writeDrain li.toNat m)) = u := by
    rw [clocked_eq hrel, hu]
    exact afterMove_same hp
  exact congrArg Host.Outcome.next hend

/-- The line goes to the write queue of its frame: the cache is off, or neither holds its sector nor is to take it. -/
theorem writeDrain_queued {li : BitVec 31} {m : LookupIn} {l : Line} (hrel : s.released = true) (hf : NoFills s) (hm : NoErr m)
    (hmig : s.place.mig = []) (hw : s.wdbLine li.toNat = some l) (he : eState (s.entry (liParcel li.toNat)) < 2)
    (hscan : s.wdbScanned li.toNat = false)
    (hpast : s.cacheOn = false ∨ (s.sectorWay (s.liQuad li.toNat) li.toNat = none ∧ s.eligible li.toNat = false))
    (hroom : s.writeRoom (eFrame (s.entry (liParcel li.toNat))) = true)
    (hread : s.spare.unreadable.contains (fPc (eFrame (s.entry (liParcel li.toNat)))) = false) :
    Gives (.writeDrain li m) s fun t =>
      t.wdbLine li.toNat = none ∧ WdbKeptBut s t li.toNat ∧
        t.frameLine (eFrame (s.entry (liParcel li.toNat))) (liOff li.toNat) = l ∧ t.dram = s.dram ∧ t.cache = s.cache ∧
        t.place = s.place ∧ RegsKept s t [] [R.CACHE_MISSES_LO, R.CACHE_MISSES_HI] := by
  have hdrain := drainToDram_eq l hroom hread
  generalize hq : (s.wdbTake li.toNat).sendWrite (eFrame (s.entry (liParcel li.toNat))) (liOff li.toNat) l = u at hdrain
  have hqueued : u.wdb = (s.wdbTake li.toNat).wdb ∧ u.frameLine (eFrame (s.entry (liParcel li.toNat))) (liOff li.toNat) = l ∧
      u.dram = s.dram ∧ u.cache = s.cache ∧ u.place = s.place ∧ RegsKept s u [] [] := by
    rw [← hq]
    exact ⟨rfl, sendWrite_frameLine _ _ _ _, rfl, rfl, rfl, fun _ _ _ => rfl⟩
  obtain ⟨hwdb, hline, hdram, hcache, hplace, hregs⟩ := hqueued
  have hend : s.writeDrain li.toNat m = u ∨ s.writeDrain li.toNat m = u.countDrain li.toNat := by
    rw [writeDrain_eq hm hw he]
    cases hon : s.cacheOn with
    | false => exact .inl hdrain
    | true =>
      obtain ⟨hway, hel⟩ := hpast.resolve_left (by rw [hon]; decide)
      have hclose : u.closeChecks = u := closeChecks_self (hplace ▸ hmig)
      rw [hscan, drainToCache_past m l hf.2 hway hel]
      dsimp only
      rw [hdrain]
      simp only [Bool.not_true, Bool.false_and, Bool.false_eq_true, if_false, hclose]
      split
      · exact .inr rfl
      · exact .inl rfl
  have hcount := countDrain_kept u li.toNat
  obtain ⟨cwdb, ccache, cdram, cplace, cch⟩ := hcount
  have hgone (t : State) (ht : t.wdb = u.wdb) (k : Nat) : t.wdbLine k = (s.wdbTake li.toNat).wdbLine k := by
    unfold wdbLine
    rw [ht, hwdb]
  have hlines (t : State) (ht : t.wdb = u.wdb) : t.wdbLine li.toNat = none ∧ WdbKeptBut s t li.toNat :=
    ⟨(hgone t ht _).trans ((wdbTake_line _ _ _).trans (if_pos rfl)),
      fun k hk => (hgone t ht k).trans ((wdbTake_line _ _ _).trans (if_neg hk))⟩
  have hframe (t : State) (hch : t.ch = u.ch) (hd : t.dram = u.dram) (f o : Nat) : t.frameLine f o = u.frameLine f o := by
    unfold frameLine queuedWrite pch dramRead dramByte
    rw [hch, hd]
  rcases hend with hend | hend
  · exact ⟨u, writeDrain_exec hrel hend hplace, (hlines u rfl).1, (hlines u rfl).2, hline, hdram, hcache, hplace,
      hregs.mono (fun _ h => h) fun _ h => absurd h (by simp)⟩
  · refine ⟨_, writeDrain_exec hrel hend (cplace.trans hplace), (hlines _ cwdb).1, (hlines _ cwdb).2,
      (hframe _ cch cdram _ _).trans hline, cdram.trans hdram, ccache.trans hcache, cplace.trans hplace, ?_⟩
    exact (hregs.mono (fun _ h => h) fun _ h => absurd h (by simp)).trans (countDrain_regsKept u li.toNat)

/-- The line goes to its sector's way on the cache die. -/
theorem writeDrain_cached {li : BitVec 31} {m : LookupIn} {l : Line} {w k : Nat} (hrel : s.released = true) (hf : NoFills s)
    (hm : NoErr m) (hmig : s.place.mig = []) (hw : s.wdbLine li.toNat = some l) (he : eState (s.entry (liParcel li.toNat)) < 2)
    (hon : s.cacheOn = true) (hway : s.sectorWay (s.liQuad li.toNat) li.toNat = some w)
    (hact : s.bankActive (wayBank (s.liQuad li.toNat) w) = true) (hk : k = wayKey (s.liQuad li.toNat) (cSet li.toNat) w) :
    Gives (.writeDrain li m) s fun t =>
      t.wdbLine li.toNat = none ∧ WdbKeptBut s t li.toNat ∧ t.cacheData k (li.toNat % 4) = l ∧
        (tValid (t.tag k)).testBit (li.toNat % 4) = true ∧ (tDirty (t.tag k)).testBit (li.toNat % 4) = true ∧
        tAge (t.tag k) = 0 ∧ (∀ j, j ≠ k → t.tag j = s.tag j) ∧ t.dram = s.dram ∧ t.place = s.place := by
  have hspec := writeWay_spec s k li.toNat l (tValid (s.tag k)) (tDirty (s.tag k))
  have hdrain := drainToCache_way m l hf.2 hway hact
  rw [← hk] at hdrain
  generalize s.writeWay k li.toNat l (tValid (s.tag k)) (tDirty (s.tag k)) 0 = u at hspec hdrain
  obtain ⟨htag, hother, hdata, hdram, hplace, hwdb⟩ := hspec
  have hend : s.writeDrain li.toNat m = u.wdbTake li.toNat ∨ s.writeDrain li.toNat m = (u.wdbTake li.toNat).countDrain li.toNat := by
    have hclose : (u.wdbTake li.toNat).closeChecks = u.wdbTake li.toNat := closeChecks_self (show u.place.mig = [] from hplace ▸ hmig)
    rw [writeDrain_eq hm hw he, hon, hway, hdrain]
    dsimp only
    simp only [Bool.not_true, Option.isNone_some, Bool.and_false, Bool.false_eq_true, if_false, if_true, hclose]
    split
    · exact .inr rfl
    · exact .inl rfl
  have hi : li.toNat % 4 < 4 := Nat.mod_lt _ (by decide)
  have hall (t : State) (h1 : t.wdb = (u.wdbTake li.toNat).wdb) (h2 : t.cache = u.cache) (h3 : t.dram = u.dram)
      (h4 : t.place = u.place) : t.wdbLine li.toNat = none ∧ WdbKeptBut s t li.toNat ∧ t.cacheData k (li.toNat % 4) = l ∧
        (tValid (t.tag k)).testBit (li.toNat % 4) = true ∧ (tDirty (t.tag k)).testBit (li.toNat % 4) = true ∧
        tAge (t.tag k) = 0 ∧ (∀ j, j ≠ k → t.tag j = s.tag j) ∧ t.dram = s.dram ∧ t.place = s.place := by
    have hline (j : Nat) : t.wdbLine j = if j = li.toNat then none else s.wdbLine j := by
      have htake : t.wdbLine j = (u.wdbTake li.toNat).wdbLine j := by
        unfold wdbLine
        rw [h1]
      rw [htake, wdbTake_line]
      unfold wdbLine
      rw [hwdb]
    have htags (j : Nat) : t.tag j = u.tag j := by
      unfold tag
      rw [h2]
    refine ⟨(hline _).trans (if_pos rfl), fun j hj => (hline j).trans (if_neg hj), ?_, ?_, ?_, ?_,
      fun j hj => (htags j).trans (hother j hj), h3.trans hdram, h4.trans hplace⟩
    · rw [← hdata]
      unfold cacheData
      rw [h2]
    · rw [htags, htag, tValid_mkTag]
      exact testBit_line _ hi
    · rw [htags, htag, tDirty_mkTag]
      exact testBit_line _ hi
    · rw [htags, htag, tAge_mkTag]
  obtain ⟨cwdb, ccache, cdram, cplace, -⟩ := countDrain_kept (u.wdbTake li.toNat) li.toNat
  rcases hend with hend | hend
  · exact ⟨_, writeDrain_exec hrel hend hplace, hall _ rfl rfl rfl rfl⟩
  · exact ⟨_, writeDrain_exec hrel hend (cplace.trans hplace), hall _ cwdb ccache cdram cplace⟩

/-- Settles O26: the drain's look-up decides between the write queue of the frame and the sector's way. -/
theorem writeDrain : Obligations.WriteDrain :=
  ⟨fun _ _ _ _ hrel hf hm hmig hw he hscan hpast hroom hread => writeDrain_queued hrel hf hm hmig hw he hscan hpast hroom hread,
    fun _ _ _ _ _ _ hrel hf hm hmig hw he hon hway hact hk => writeDrain_cached hrel hf hm hmig hw he hon hway hact hk⟩

end Sys2Proof.Safety
end

section
/-! SUPPORT. The words of the DRAM, and what the rows of a pseudo-channel keep while other banks' rows open and close (R188,
R193, R195). -/

namespace Sys2Proof.Machine
open Sys2Proof.Laws Sys2Proof.Safety

/-! ### Lines and their bytes -/

/-- Byte `i` of a line's 65. -/
def lineByte (l : Line) (i : Nat) : Byte := if i = 64 then l.md else l.data.extractLsb' (8 * i) 8

theorem lineBytes_eq (k : Nat) (l : Line) :
    lineBytes k l = ((List.range 65).map (k + ·)).map fun a => (a, lineByte l (a - k)) := by
  have hlast : List.range 65 = List.range 64 ++ [64] := List.range_succ
  unfold lineBytes
  rw [List.map_map, hlast, List.map_append]
  refine congrArg₂ _ (List.map_congr_left fun i hi => ?_) ?_
  · have hlt : i ≠ 64 := Nat.ne_of_lt (List.mem_range.mp hi)
    simp [lineByte, hlt]
  · simp [lineByte]

theorem dataOf_congr {g h : Nat → Byte} : ∀ n, (∀ i < n, g i = h i) → dataOf g n = dataOf h n
  | 0, _ => rfl
  | n + 1, hi => by
    unfold dataOf
    rw [hi n (Nat.lt_succ_self n), dataOf_congr n fun i h => hi i (Nat.lt_succ_of_lt h)]

theorem ofNat_toNat_mod {w : Nat} (x : BitVec w) : BitVec.ofNat w (x.toNat % 2 ^ w) = x := by
  rw [Nat.mod_eq_of_lt x.isLt, BitVec.ofNat_toNat, BitVec.setWidth_eq]

theorem dataOf_extract (x : LineData) : ∀ n, dataOf (fun i => x.extractLsb' (8 * i) 8) n = x.toNat % 2 ^ (8 * n)
  | 0 => by simp [dataOf, Nat.mod_one]
  | n + 1 => by
    unfold dataOf
    rw [dataOf_extract x n, Nat.mul_succ, Nat.pow_add, Nat.mod_mul, BitVec.extractLsb'_toNat, Nat.shiftRight_eq_div_pow,
      Nat.pow_mul 2 8 n, Nat.mul_comm (256 ^ n)]

namespace State

variable {s : State}

theorem dramWrite_byte (s : State) (f o : Nat) (l : Line) (a : Nat) :
    (s.dramWrite f o l).dramByte a =
      if lineKey f o ≤ a ∧ a ≤ lineKey f o + 64 then lineByte l (a - lineKey f o) else s.dramByte a := by
  have hmem : a ∈ (List.range 65).map (lineKey f o + ·) ↔ lineKey f o ≤ a ∧ a ≤ lineKey f o + 64 := by
    constructor
    · intro h
      obtain ⟨i, hi, rfl⟩ := List.mem_map.mp h
      have := List.mem_range.mp hi
      omega
    · intro h
      exact List.mem_map.mpr ⟨a - lineKey f o, List.mem_range.mpr (by omega), by omega⟩
  unfold dramWrite dramByte
  dsimp only
  rw [lineBytes_eq, get_setAll_fun]
  exact if_congr hmem rfl rfl

/-- A stored line reads back, and no other line of the DRAM changes. -/
theorem dramWrite_read (s : State) (f o : Nat) (l : Line) (g p : Nat) :
    (s.dramWrite f o l).dramRead g p = if 1024 * g + p = 1024 * f + o then l else s.dramRead g p := by
  split
  next h =>
    have hkey : lineKey g p = lineKey f o := by
      unfold lineKey
      rw [h]
    have hbyte (i : Nat) (hi : i ≤ 64) : (s.dramWrite f o l).dramByte (lineKey g p + i) = lineByte l i := by
      rw [dramWrite_byte, hkey, if_pos (by omega), Nat.add_sub_cancel_left]
    unfold dramRead
    rw [hbyte 64 (Nat.le_refl _), dataOf_congr (h := fun i => l.data.extractLsb' (8 * i) 8) 64 fun i hi =>
      (hbyte i (Nat.le_of_lt hi)).trans (if_neg (Nat.ne_of_lt hi)), dataOf_extract]
    rw [show 8 * 64 = 512 from rfl, ofNat_toNat_mod]
    rfl
  next h =>
    have hbyte (i : Nat) (hi : i ≤ 64) : (s.dramWrite f o l).dramByte (lineKey g p + i) = s.dramByte (lineKey g p + i) := by
      rw [dramWrite_byte, if_neg]
      unfold lineKey
      omega
    unfold dramRead
    rw [hbyte 64 (Nat.le_refl _), dataOf_congr 64 fun i hi => hbyte i (Nat.le_of_lt hi)]

/-! ### Words written at a controller -/

/-- A word written marks its line for a migration, and nothing else of the placement changes. -/
theorem markDirty_spec (s : State) (f o : Nat) : (s.markDirty f o).dram = s.dram ∧ (s.markDirty f o).cache = s.cache ∧
    (s.markDirty f o).wdb = s.wdb ∧ (s.markDirty f o).ch = s.ch ∧ (s.markDirty f o).fcol = s.fcol ∧
    (s.markDirty f o).place.table = s.place.table ∧ (s.markDirty f o).place.retiring = s.place.retiring ∧
    RegsKept s (s.markDirty f o) [] [R.PLACE_MIG_ACTIVE] := by
  have hset (k : Nat) (m : Option Mig) : (s.setMig k m).dram = s.dram ∧ (s.setMig k m).cache = s.cache ∧
      (s.setMig k m).wdb = s.wdb ∧ (s.setMig k m).ch = s.ch ∧ (s.setMig k m).fcol = s.fcol ∧
      (s.setMig k m).place.table = s.place.table ∧ (s.setMig k m).place.retiring = s.place.retiring ∧
      RegsKept s (s.setMig k m) [] [R.PLACE_MIG_ACTIVE] := by
    unfold setMig
    dsimp only
    refine ⟨by simp, by simp, by simp, by simp, by simp, by simp, by simp, fun a _ ha => ?_⟩
    refine (rd_put _ _ _ _ _).trans (if_neg fun h => ha ?_)
    rw [h]
    exact List.mem_cons_self
  unfold markDirty
  split
  · split
    · exact ⟨rfl, rfl, rfl, rfl, rfl, rfl, rfl, RegsKept.refl _⟩
    · exact hset _ _
  · exact ⟨rfl, rfl, rfl, rfl, rfl, rfl, rfl, RegsKept.refl _⟩

theorem rd64_congr {t : State} {a : Nat} (h : t.rd a = s.rd a) (h4 : t.rd (a + 4) = s.rd (a + 4)) : t.rd64 a = s.rd64 a := by
  unfold rd64
  rw [h, h4]

/-- A pseudo-channel after a word is written: corrections of the word are dropped, and reads of it in flight are older. -/
def overtaken (f o : Nat) (p : PCh) : PCh :=
  { p with
    corr := p.corr.filter fun r => !DReq.at_ r f o
    flight := p.flight.map fun r => if DReq.at_ r f o then { r with stale := true } else r }

theorem putWord_eq (s : State) (f o : Nat) (l : Line) : s.putWord f o l =
    (((s.setPch (fPc f) (overtaken f o (s.pch (fPc f)))).dramWrite f o l).markDirty f o).inc64
      (R.CHC_WRITES_LO (s.ctrlPage (fChan f))) := rfl

theorem putWord_spec (s : State) (f o : Nat) (l : Line) :
    (s.putWord f o l).pch (fPc f) = overtaken f o (s.pch (fPc f)) ∧
      (∀ g p, (s.putWord f o l).dramRead g p = if 1024 * g + p = 1024 * f + o then l else s.dramRead g p) ∧
      (s.putWord f o l).cache = s.cache ∧ (s.putWord f o l).wdb = s.wdb ∧
      (s.putWord f o l).place.table = s.place.table ∧ (s.putWord f o l).place.retiring = s.place.retiring ∧
      (s.putWord f o l).fcol.handed = s.fcol.handed ∧ (s.putWord f o l).ch.remap = s.ch.remap ∧
      (s.putWord f o l).rd64 (R.CHC_WRITES_LO (s.ctrlPage (fChan f))) = s.rd64 (R.CHC_WRITES_LO (s.ctrlPage (fChan f))) + 1 := by
  have hread (g p : Nat) : ((s.setPch (fPc f) (overtaken f o (s.pch (fPc f)))).dramWrite f o l).dramRead g p =
      if 1024 * g + p = 1024 * f + o then l else s.dramRead g p :=
    dramWrite_read (s.setPch (fPc f) (overtaken f o (s.pch (fPc f)))) f o l g p
  have hpch : ((s.setPch (fPc f) (overtaken f o (s.pch (fPc f)))).dramWrite f o l).pch (fPc f) = overtaken f o (s.pch (fPc f)) :=
    (pch_setPch s _ _ _).trans (if_pos rfl)
  have hsame : ((s.setPch (fPc f) (overtaken f o (s.pch (fPc f)))).dramWrite f o l).cache = s.cache ∧
      ((s.setPch (fPc f) (overtaken f o (s.pch (fPc f)))).dramWrite f o l).wdb = s.wdb ∧
      ((s.setPch (fPc f) (overtaken f o (s.pch (fPc f)))).dramWrite f o l).place = s.place ∧
      ((s.setPch (fPc f) (overtaken f o (s.pch (fPc f)))).dramWrite f o l).fcol = s.fcol ∧
      ((s.setPch (fPc f) (overtaken f o (s.pch (fPc f)))).dramWrite f o l).ch.remap = s.ch.remap ∧
      ((s.setPch (fPc f) (overtaken f o (s.pch (fPc f)))).dramWrite f o l).regs = s.regs := ⟨rfl, rfl, rfl, rfl, rfl, rfl⟩
  rw [putWord_eq]
  generalize (s.setPch (fPc f) (overtaken f o (s.pch (fPc f)))).dramWrite f o l = u at hread hpch hsame
  obtain ⟨ucache, uwdb, uplace, ufcol, uremap, uregs⟩ := hsame
  obtain ⟨mdram, mcache, mwdb, mch, mfcol, mtable, mret, mregs⟩ := markDirty_spec u f o
  have hrd (n : Nat) (b : Nat) (hb : b = 0 ∨ b = 4) :
      (u.markDirty f o).rd (R.CHC_WRITES_LO n + b) = s.rd (R.CHC_WRITES_LO n + b) := by
    refine (mregs _ (by simp) ?_).trans (rd_eq_of_regs uregs _)
    intro h
    have h := List.mem_singleton.mp h
    simp only [R.CHC_WRITES_LO, R.PLACE_MIG_ACTIVE] at h
    omega
  generalize u.markDirty f o = m at mdram mcache mwdb mch mfcol mtable mret hrd
  refine ⟨?_, fun g p => ?_, ?_, ?_, ?_, ?_, ?_, ?_, ?_⟩
  · rw [← hpch]
    unfold pch
    rw [inc64_ch, mch]
  · rw [dramRead_of_dram (s := u) (by rw [inc64_dram, mdram])]
    exact hread g p
  · rw [inc64_cache, mcache, ucache]
  · rw [inc64_wdb, mwdb, uwdb]
  · rw [inc64_place, mtable, uplace]
  · rw [inc64_place, mret, uplace]
  · rw [inc64_fcol_handed, mfcol, ufcol]
  · rw [inc64_ch, mch, uremap]
  · rw [rd64_inc64]
    exact congrArg (· + 1) (rd64_congr (hrd _ 0 (.inl rfl)) (hrd _ 4 (.inr rfl)))

/-! ### The controller of a channel -/

theorem ctrlOf_congr {t : State} {l : List Nat} {c : Nat} (h : RegsKept s t [] l) (hm : ∀ j, R.CHC_CHAN_MAP j ∉ l)
    (hl : R.HEALTH_LEND (c / 8) ∉ l) : t.ctrlOf c = s.ctrlOf c := by
  have hmap (j : Nat) : t.rd (R.CHC_CHAN_MAP j) = s.rd (R.CHC_CHAN_MAP j) := h _ (by simp) (hm j)
  have hlend : t.rd (R.HEALTH_LEND (c / 8)) = s.rd (R.HEALTH_LEND (c / 8)) := h _ (by simp) hl
  unfold ctrlOf
  simp only [on, fld, hmap, hlend] <;> rfl

end State

/-! ### A pseudo-channel's clock -/

namespace PCh

theorem promote_self {q : PCh} (h : q.scrub = []) : q.promote = q := by
  have heta : { q with scrub := [] } = q := congrArg (fun l => { q with scrub := l }) h.symm
  unfold promote
  simp only [h, List.filter_nil, List.take_nil, List.foldl_nil, List.nil_append]
  exact heta

/-- What the ways of a bank's row command keep of a pseudo-channel for a request to another bank. -/
structure KeptFor (r : DReq) (q t : PCh) : Prop where
  bank : t.bank r.bank = q.bank r.bank
  rq : t.rq = q.rq
  wq : t.wq = q.wq
  flight : t.flight = q.flight
  scrub : t.scrub = q.scrub
  now : t.now = q.now
  wake : t.wake = q.wake
  bus : t.bus = q.bus
  colAt : t.colAt = q.colAt
  cols : t.cols = q.cols
  writeMode : t.writeMode = q.writeMode
  sidWrEnd : ∀ i, t.sidWrEnd i = q.sidWrEnd i
  refs : t.refreshWaits r.bank = q.refreshWaits r.bank

variable {q t : PCh} {r : DReq} {tm : Tim} {smax urg : Nat}

theorem bank_setBank (q : PCh) (b : Nat) (x : BankSt) (j : Nat) : (q.setBank b x).bank j = if j = b then x else q.bank j := by
  unfold setBank bank
  dsimp only
  split
  next h =>
    rw [h]
    exact SMap.get_set_same _ _ _ _
  next h => exact SMap.get_set_other _ h _ _

/-- The end of the last write data at a stack ID, over a list of banks. -/
def lastWrite (i : Nat) (l : SMap BankSt) (n : Nat) : Nat := l.foldl (fun n e => if e.1 / 16 = i then max n e.2.wrEnd else n) n

theorem lastWrite_max (i : Nat) (l : SMap BankSt) (n w : Nat) : lastWrite i l (max n w) = max (lastWrite i l n) w := by
  induction l generalizing n with
  | nil => rfl
  | cons e l ih =>
    unfold lastWrite at ih ⊢
    rw [List.foldl_cons, List.foldl_cons]
    split
    · rw [Nat.max_right_comm, ih]
    · exact ih n

theorem get_le_lastWrite {i b : Nat} (h : b / 16 = i) (l : SMap BankSt) (n : Nat) :
    (SMap.get (fun _ => ({} : BankSt)) l b).wrEnd ≤ lastWrite i l n := by
  induction l generalizing n with
  | nil => exact Nat.zero_le _
  | cons e l ih =>
    obtain ⟨j, x⟩ := e
    unfold SMap.get lastWrite
    rw [List.foldl_cons]
    split
    next hj =>
      subst hj
      rw [if_pos h]
      exact (Nat.le_max_right _ _).trans_eq (lastWrite_max i l n x.wrEnd).symm
    next => exact ih _

/-- Another state of a bank whose last write is the same leaves the last write of every stack ID. -/
theorem lastWrite_put (i b : Nat) (x : BankSt) (l : SMap BankSt) (n : Nat)
    (h : x.wrEnd = (SMap.get (fun _ => ({} : BankSt)) l b).wrEnd) : lastWrite i (SMap.put b x l) n = lastWrite i l n := by
  have hfront (l : SMap BankSt) (n : Nat) (h : x.wrEnd = (SMap.get (fun _ => ({} : BankSt)) l b).wrEnd) :
      lastWrite i ((b, x) :: l) n = lastWrite i l n := by
    have hcons : lastWrite i ((b, x) :: l) n = lastWrite i l (if b / 16 = i then max n x.wrEnd else n) := rfl
    rw [hcons]
    split
    next hb => rw [lastWrite_max, h, Nat.max_eq_left (get_le_lastWrite hb l n)]
    next => rfl
  induction l generalizing n with
  | nil => exact hfront [] n h
  | cons e l ih =>
    obtain ⟨j, y⟩ := e
    unfold SMap.put
    split
    next => exact hfront _ n h
    next =>
      split
      next hj =>
        subst hj
        have hy : x.wrEnd = y.wrEnd := h.trans (congrArg BankSt.wrEnd (if_pos rfl))
        unfold lastWrite
        rw [List.foldl_cons, List.foldl_cons, hy]
      next hj => exact ih _ (h.trans (congrArg BankSt.wrEnd (if_neg hj)))

theorem sidWrEnd_setBank {b : Nat} {x : BankSt} (hx : x ≠ {}) (h : x.wrEnd = (q.bank b).wrEnd) (i : Nat) :
    (q.setBank b x).sidWrEnd i = q.sidWrEnd i := by
  have hput : SMap.set (fun _ => ({} : BankSt)) b x q.banks = SMap.put b x q.banks := if_neg hx
  have hset : (q.setBank b x).sidWrEnd i = lastWrite i (SMap.set (fun _ => ({} : BankSt)) b x q.banks) 0 := rfl
  rw [hset, hput]
  exact lastWrite_put i b x q.banks 0 h

/-! ### Row commands of other banks -/

/-- The states of a bank after an activate and after a precharge. -/
def activated (q : PCh) (y : DReq) : BankSt := { q.bank y.bank with st := 1, row := y.row, act := q.now }
def precharged (q : PCh) (b : Nat) : BankSt := { q.bank b with st := 3, pre := q.now, streak := 0 }

theorem afterRow_act_bank (q : PCh) (y : DReq) (j : Nat) :
    (q.afterRow (.act y)).bank j = if j = y.bank then activated q y else q.bank j := bank_setBank q y.bank (activated q y) j

theorem afterRow_pre_bank (q : PCh) (b : Nat) (c : Bool) (j : Nat) :
    (q.afterRow (.pre b c)).bank j = if j = b then precharged q b else q.bank j := bank_setBank q b (precharged q b) j

theorem afterRow_act_kept {y : DReq} (h : y.bank ≠ r.bank) (hq : ∀ x ∈ q.rq ++ q.wq, x = r) (hs : q.scrub = []) :
    KeptFor r q (q.afterRow (.act y)) := by
  have hmark (l : List DReq) (hl : ∀ x ∈ l, x = r) : l.map (fun x => if x = y then { x with acted := true } else x) = l :=
    (List.map_congr_left fun x hx => if_neg fun hxy => h (by rw [← hxy, hl x hx])).trans (List.map_id l)
  have hne : activated q y ≠ {} := fun he => Nat.one_ne_zero (congrArg BankSt.st he)
  have hscrub : (q.afterRow (.act y)).scrub = q.scrub.map fun x => if x = y then { x with acted := true } else x := rfl
  exact {
    bank := (afterRow_act_bank q y _).trans (if_neg h.symm)
    rq := hmark q.rq fun x hx => hq x (List.mem_append_left _ hx)
    wq := hmark q.wq fun x hx => hq x (List.mem_append_right _ hx)
    flight := rfl, scrub := by rw [hscrub, hs, List.map_nil], now := rfl, wake := rfl, bus := rfl, colAt := rfl, cols := rfl
    writeMode := rfl, sidWrEnd := fun i => sidWrEnd_setBank (x := activated q y) hne rfl i, refs := rfl }

theorem afterRow_pre_kept {b : Nat} (c : Bool) (h : b ≠ r.bank) (hq : ∀ x ∈ q.rq ++ q.wq, x = r) :
    KeptFor r q (q.afterRow (.pre b c)) := by
  have hmark (l : List DReq) (hl : ∀ x ∈ l, x = r) :
      l.map (fun x => if c ∧ x.bank = b ∧ x.row ≠ (q.bank b).row then { x with conf := true } else x) = l :=
    (List.map_congr_left fun x hx => if_neg fun hxy => h (by rw [← hxy.2.1, hl x hx])).trans (List.map_id l)
  have hne : precharged q b ≠ {} := fun he => Nat.succ_ne_zero 2 (congrArg BankSt.st he)
  exact {
    bank := (afterRow_pre_bank q b c _).trans (if_neg h.symm)
    rq := hmark q.rq fun x hx => hq x (List.mem_append_left _ hx)
    wq := hmark q.wq fun x hx => hq x (List.mem_append_right _ hx)
    flight := rfl, scrub := rfl, now := rfl, wake := rfl, bus := rfl, colAt := rfl, cols := rfl
    writeMode := rfl, sidWrEnd := fun i => sidWrEnd_setBank (x := precharged q b) hne rfl i, refs := rfl }

/-- The same column commands are allowed to the request. -/
theorem KeptFor.canCol (h : KeptFor r q t) (tm : Tim) : t.canCol tm r = q.canCol tm r := by
  unfold PCh.canCol PCh.canWrite PCh.canRead PCh.busFits PCh.writeSlots PCh.readSlots PCh.colStart PCh.colOpen
  simp only [h.bank, h.now, h.bus, h.colAt, h.cols, h.sidWrEnd, h.refs]

/-! ### The choice among one request -/

theorem pick_one (smax urg : Nat) (q : PCh) (r : DReq) : q.pick smax urg [r] = some r := by
  have hone (p : DReq → Bool) : (if ([r].filter p).isEmpty then [r] else [r].filter p) = [r] := by
    cases hp : p r with
    | false => simp [hp]
    | true => simp [hp]
  unfold pick
  dsimp only
  rw [hone, hone]
  rfl

theorem pick_none (smax urg : Nat) (q : PCh) : q.pick smax urg [] = none := rfl

/-- One request waits in the queues, which work in its mode, and no other access to its line is in flight. -/
structure Only (urg : Nat) (r : DReq) (q : PCh) : Prop where
  queued : q.rq ++ q.wq = [r]
  mode : q.modeAll urg = [r]
  flight : q.flight = []
  scrub : q.scrub = []

theorem Only.behind (h : Only urg r q) : q.behind r = false := by
  unfold PCh.behind
  rw [h.queued, h.flight]
  simp

theorem Only.modeSet (h : Only urg r q) : q.modeSet urg = [r] := by
  unfold PCh.modeSet
  rw [h.mode, List.filter_cons_of_pos (by rw [h.behind]; rfl), List.filter_nil]

theorem Only.cappedOthers (h : Only urg r q) : q.cappedOthers smax [r] = [] := by
  unfold PCh.cappedOthers
  rw [h.queued]
  simp

theorem Only.keptFor (h : Only urg r q) (hk : KeptFor r q t) : Only urg r t where
  queued := by rw [hk.rq, hk.wq, h.queued]
  mode := by
    unfold PCh.modeAll
    rw [hk.writeMode, hk.rq, hk.wq]
    exact h.mode
  flight := hk.flight.trans h.flight
  scrub := hk.scrub.trans h.scrub

/-- The column command that the one request can take is chosen. -/
theorem Only.chooseCol (h : Only urg r q) (hc : q.canCol tm r = true) (hs : (q.bank r.bank).streak < smax) :
    q.chooseCol tm smax urg = some r := by
  have hcap : q.capped smax r.bank = false := decide_eq_false (Nat.not_le.mpr hs)
  unfold PCh.chooseCol
  rw [h.modeSet, List.filter_cons_of_pos (by rw [hc, hcap]; rfl), List.filter_nil, pick_one]

/-- What a pseudo-channel without due refreshes does for its one request comes first. -/
theorem Only.chooseRow_request (h : Only urg r q) (hr : q.refs = []) {c : RowCmd} (hc : q.rowCandidate tm smax [r] r = some c) :
    q.chooseRow tm smax urg = some c := by
  unfold PCh.chooseRow
  rw [hr, List.filter_nil, List.findSome?_nil, h.mode, h.modeSet]
  dsimp only
  rw [h.cappedOthers, List.append_nil, List.filter_cons_of_pos (by rw [hc]; rfl), List.filter_nil, pick_one]
  exact hc

/-- Without a row command for its one request, a pseudo-channel may open or close rows of other banks for its corrections. -/
theorem Only.chooseRow_other (h : Only urg r q) (hr : q.refs = []) (ho : q.colOpen tm r = true)
    (hst : (q.bank r.bank).st = 2) (hrow : (q.bank r.bank).row = r.row) (hs : (q.bank r.bank).streak < smax) {c : RowCmd}
    (hc : q.chooseRow tm smax urg = some c) : (∃ y, c = .act y ∧ y.bank ≠ r.bank) ∨ ∃ b, c = .pre b true ∧ b ≠ r.bank := by
  have hcap : q.capped smax r.bank = false := decide_eq_false (Nat.not_le.mpr hs)
  have hnone : q.rowCandidate tm smax [r] r = none := by
    unfold PCh.rowCandidate
    dsimp only
    rw [ho, hst, hrow]
    simp
  unfold PCh.chooseRow at hc
  rw [hr, List.filter_nil, List.findSome?_nil, h.mode, h.modeSet] at hc
  dsimp only at hc
  rw [h.cappedOthers, List.append_nil, List.filter_cons_of_neg (by rw [hnone]; decide), List.filter_nil, pick_none,
    List.filter_nil, List.findSome?_nil] at hc
  dsimp only at hc
  obtain ⟨y, hy, hyc⟩ := List.exists_of_findSome?_eq_some hc
  unfold PCh.rowCandidate at hyc
  dsimp only at hyc
  split at hyc
  · exact absurd hyc (by simp)
  · split at hyc
    next h0 =>
      split at hyc
      · refine .inl ⟨y, (Option.some.inj hyc).symm, fun hb => ?_⟩
        rw [hb, hst] at h0
        exact absurd h0 (by decide)
      · exact absurd hyc (by simp)
    next h0 =>
      split at hyc
      next h2 =>
        split at hyc
        next hp =>
          refine .inr ⟨y.bank, (Option.some.inj hyc).symm, fun hb => ?_⟩
          rw [hb, hcap, hrow] at hp
          simp at hp
        · exact absurd hyc (by simp)
      · exact absurd hyc (by simp)

end PCh
end Sys2Proof.Machine
end

section
/-! SUPPORT. A clock of a pseudo-channel's scheduler (R193 to R197, R213). -/

namespace Sys2Proof.Machine
open Sys2Proof.Laws Sys2Proof.Safety

namespace PCh

variable {q t u : PCh} {r : DReq} {tm : Tim} {smax urg : Nat}

theorem KeptFor.refl (r : DReq) (q : PCh) : KeptFor r q q :=
  ⟨rfl, rfl, rfl, rfl, rfl, rfl, rfl, rfl, rfl, rfl, rfl, fun _ => rfl, rfl⟩

/-- A pseudo-channel with a targeted refresh of a row's neighbours queued (R217). -/
def tnrQueued (b row : Nat) (q : PCh) : PCh := { q with refs := q.refs ++ [⟨b, true, some row⟩] }

theorem KeptFor.tnr (h : KeptFor r q t) {b : Nat} (hb : b ≠ r.bank) (row : Nat) : KeptFor r q (tnrQueued b row t) :=
  { h with
    refs := by
      rw [← h.refs]
      unfold refreshWaits tnrQueued
      simp [hb] }

/-- A clock leaves a bank's streak and ripens its state. -/
theorem tick_bank (tm : Tim) (q : PCh) (b : Nat) : (q.tick tm).bank b = ripen tm (q.now + 1) (q.bank b) := by
  have hget (l : SMap BankSt) : SMap.get (fun _ => ({} : BankSt)) (l.map fun e => (e.1, ripen tm (q.now + 1) e.2)) b =
      ripen tm (q.now + 1) (SMap.get (fun _ => ({} : BankSt)) l b) := by
    induction l with
    | nil => rfl
    | cons e l ih =>
      rw [List.map_cons]
      unfold SMap.get
      rw [ih]
      split <;> rfl
  exact hget q.banks

theorem ripen_streak (tm : Tim) (n : Nat) (b : BankSt) : (ripen tm n b).streak = b.streak := by
  unfold ripen
  split
  · rfl
  · split
    · rfl
    · split <;> rfl

/-- The state of a bank whose refresh is issued. -/
def refreshed (q : PCh) (b : Nat) : BankSt := { q.bank b with st := 4, ref := q.now }

theorem afterRow_ref_bank (q : PCh) (x : Refresh) : (q.afterRow (.ref x)).bank x.bank = refreshed q x.bank :=
  (bank_setBank q x.bank (refreshed q x.bank) x.bank).trans (if_pos rfl)

/-- Where no request can take a column command, none is chosen. -/
theorem chooseCol_none (h : ∀ x ∈ q.rq ++ q.wq, q.canCol tm x = false) (hs : q.scrub = []) (hc : q.corr = []) :
    q.chooseCol tm smax urg = none := by
  have hmode : ∀ x ∈ q.modeSet urg, x ∈ q.rq ++ q.wq := by
    intro x hx
    have hx := List.mem_of_mem_filter hx
    unfold modeAll at hx
    split at hx
    · rcases List.mem_append.mp hx with hx | hx
      · exact List.mem_append_right _ hx
      · split at hx
        · exact absurd hx (by simp)
        · exact List.mem_append_left _ (List.mem_of_mem_filter hx)
    · exact List.mem_append_left _ hx
  unfold PCh.chooseCol
  rw [List.filter_eq_nil_iff.mpr fun x hx => by rw [h x (hmode x hx)]; exact Bool.false_ne_true, pick_none]
  dsimp only
  unfold background
  rw [hs, hc]
  rfl

end PCh

namespace State

variable {s t u v : State} {l m : List Nat} {pc k c : Nat} {tm : Tim} {r : DReq}

/-! ### What row commands keep -/

/-- A step that touches no store and no register but the listed ones, and neither remaps nor hands anything on. -/
structure Turn (s t : State) (l : List Nat) : Prop where
  mem : MemKept s t
  regs : RegsKept s t [] l
  remap : t.ch.remap = s.ch.remap
  handed : t.fcol.handed = s.fcol.handed

theorem Turn.refl (s : State) : Turn s s l := ⟨MemKept.refl s, RegsKept.refl s, rfl, rfl⟩

theorem Turn.mono (h : Turn s t l) (hl : l ⊆ m) : Turn s t m := ⟨h.mem, h.regs.mono (fun _ h => h) hl, h.remap, h.handed⟩

theorem Turn.trans (h : Turn s t l) (h' : Turn t u l) : Turn s u l :=
  ⟨h.mem.trans h'.mem, h.regs.trans h'.regs, h'.remap.trans h.remap, h'.handed.trans h.handed⟩

theorem Turn.setPch (h : Turn s t l) (i : Nat) (p : PCh) : Turn s (t.setPch i p) l := ⟨h.mem, h.regs, h.remap, h.handed⟩

theorem Turn.setTracker (h : Turn s t l) (i : Nat) (x : Tracker) : Turn s (t.setTracker i x) l :=
  ⟨h.mem, h.regs, h.remap, h.handed⟩

theorem Turn.inc {a : Nat} (h : Turn s t l) (ha : a ∈ l) (n : Nat) : Turn s (t.inc a n) l where
  mem := h.mem.trans (inc_memKept ..)
  regs b hp hb := by
    exact (rd_inc ..).trans ((if_neg fun he => hb (by rw [he]; exact ha)).trans (h.regs b hp hb))
  remap := by rw [inc_ch, h.remap]
  handed := by rw [inc_fcol_handed, h.handed]

theorem Turn.ite {p : Prop} [Decidable p] (ht : Turn s t l) (hu : Turn s u l) : Turn s (if p then t else u) l := by
  split
  · exact ht
  · exact hu

theorem Turn.fld (h : Turn s t l) {a : Nat} (ha : a ∉ l) (f : Fld) : t.fld a f = s.fld a f := fld_eq_of_rd (h.regs a (by simp) ha) f

/-! ### The clock, the mode and the two commands -/

theorem setPch_pch (s : State) (i : Nat) (p : PCh) : (s.setPch i p).pch i = p := (pch_setPch s i i p).trans (if_pos rfl)

theorem inc_pch (s : State) (a n i : Nat) : (s.inc a n).pch i = s.pch i := by
  unfold pch
  rw [inc_ch]

theorem inc64_pch (s : State) (a n i : Nat) : (s.inc64 a n).pch i = s.pch i := by
  unfold pch
  rw [inc64_ch]

/-- A clock begins for a pseudo-channel that is awake and has no scrub reads. -/
theorem dramClock_eq {p : Nat} (bad : Bool) (hc : s.ctrlOf c = some k) (hl : s.pchLive (2 * c + p) = true)
    (hpd : (s.pch (2 * c + p)).pd = false) (hs : (s.pch (2 * c + p)).scrub = []) :
    s.dramClock c p bad = ((s.setPch (2 * c + p) ((s.pch (2 * c + p)).tick (s.timing k c))).chooseMode (2 * c + p) k).issueBoth
      (2 * c + p) k (s.timing k c) bad := by
  have hscrub : ((s.pch (2 * c + p)).tick (s.timing k c)).scrub = [] := hs
  have hawake : (s.setPch (2 * c + p) ((s.pch (2 * c + p)).tick (s.timing k c))).wakePch (2 * c + p) (s.timing k c) =
      s.setPch (2 * c + p) ((s.pch (2 * c + p)).tick (s.timing k c)) := by
    unfold wakePch
    rw [setPch_pch]
    dsimp only
    rw [show ((s.pch (2 * c + p)).tick (s.timing k c)).pd = false from hpd]
    rfl
  unfold dramClock
  dsimp only
  rw [hc]
  dsimp only
  rw [hl, PCh.promote_self hscrub, hawake]
  rfl

/-- The mode of a pseudo-channel in this clock. -/
def modeNow (s : State) (k : Nat) (p : PCh) : Bool :=
  p.nextMode (s.fld (R.CHC_SCHED_CTL k) F.CHC_SCHED_CTL_WR_HIGH)
    (min (s.fld (R.CHC_SCHED_CTL k) F.CHC_SCHED_CTL_WR_HIGH) (s.fld (R.CHC_SCHED_CTL k) F.CHC_SCHED_CTL_WR_LOW))

theorem chooseMode_spec (s : State) (pc k : Nat) :
    (s.chooseMode pc k).pch pc = { s.pch pc with writeMode := s.modeNow k (s.pch pc) } ∧
      Turn s (s.chooseMode pc k) [R.CHC_WRITE_MODES k] := by
  unfold chooseMode
  exact ⟨setPch_pch _ _ _, ((Turn.refl s).inc List.mem_cons_self 1).ite (Turn.refl s) |>.setPch _ _⟩

theorem modeNow_write (s : State) (k : Nat) {q : PCh} (hr : q.rq = []) (hw : q.wq = [r]) : s.modeNow k q = true := by
  unfold modeNow PCh.nextMode
  rw [hr, hw]
  cases q.writeMode with
  | false => simp
  | true => simp

theorem modeNow_read (s : State) (k : Nat) {q : PCh} (hw : q.wq = []) (hm : q.writeMode = false) : s.modeNow k q = false := by
  unfold modeNow PCh.nextMode
  rw [hw, hm]
  simp

/-- The row command of a clock is issued. -/
def rowStep (s : State) (pc k : Nat) (tm : Tim) (bad : Bool) : State :=
  match (s.pch pc).chooseRow tm (s.streakMax k) (s.urgLevel k) with
  | none => s
  | some c => s.issueRow pc k bad c

theorem rowStep_some (bad : Bool) {c : RowCmd} (h : (s.pch pc).chooseRow tm (s.streakMax k) (s.urgLevel k) = some c) :
    s.rowStep pc k tm bad = s.issueRow pc k bad c := by
  unfold rowStep
  rw [h]

theorem issueBoth_form (bad : Bool) (h : (s.pch pc).wake ≤ (s.pch pc).now) :
    s.issueBoth pc k tm bad = if ((s.rowStep pc k tm bad).pch pc).now < ((s.rowStep pc k tm bad).pch pc).wake then s.rowStep pc k tm bad
      else (((s.rowStep pc k tm bad).pch pc).chooseCol tm ((s.rowStep pc k tm bad).streakMax k) ((s.rowStep pc k tm bad).urgLevel k)).elim
        (s.rowStep pc k tm bad) ((s.rowStep pc k tm bad).issueCol pc k tm) := by
  unfold issueBoth
  rw [if_neg (Nat.not_lt.mpr h)]
  dsimp only
  refine if_congr Iff.rfl rfl ?_
  change (match PCh.chooseCol tm ((s.rowStep pc k tm bad).streakMax k) ((s.rowStep pc k tm bad).urgLevel k)
    ((s.rowStep pc k tm bad).pch pc) with | none => s.rowStep pc k tm bad | some r => (s.rowStep pc k tm bad).issueCol pc k tm r) = _
  generalize PCh.chooseCol _ _ _ _ = o
  cases o <;> rfl

/-- Without a column command a clock issues its row command alone. -/
theorem issueBoth_row (bad : Bool) (h : (s.pch pc).wake ≤ (s.pch pc).now)
    (ho : ∀ smax urg, ((s.rowStep pc k tm bad).pch pc).chooseCol tm smax urg = none) :
    s.issueBoth pc k tm bad = s.rowStep pc k tm bad := by
  rw [issueBoth_form bad h, ho]
  exact ite_self _

theorem issueBoth_some (bad : Bool) (h : (s.pch pc).wake ≤ (s.pch pc).now)
    (h' : ((s.rowStep pc k tm bad).pch pc).wake ≤ ((s.rowStep pc k tm bad).pch pc).now)
    (ho : ((s.rowStep pc k tm bad).pch pc).chooseCol tm ((s.rowStep pc k tm bad).streakMax k) ((s.rowStep pc k tm bad).urgLevel k) = some r) :
    s.issueBoth pc k tm bad = (s.rowStep pc k tm bad).issueCol pc k tm r := by
  rw [issueBoth_form bad h, if_neg (Nat.not_lt.mpr h'), ho]
  rfl

/-- An activate is counted by its bank's tracker, which may call for a refresh of the neighbours. -/
theorem trackActivate_spec (s : State) (pc b row : Nat) : Turn s (s.trackActivate pc b row false) [R.RFM_SPILL_WINDOWS] ∧
    ((s.trackActivate pc b row false).pch pc = s.pch pc ∨
      (s.trackActivate pc b row false).pch pc = PCh.tnrQueued b row (s.pch pc)) := by
  have hspill (x : State) (c : Bool) (h : Turn s x [R.RFM_SPILL_WINDOWS]) (hp : x.pch pc = s.pch pc) :
      Turn s (if c then x.inc R.RFM_SPILL_WINDOWS else x) [R.RFM_SPILL_WINDOWS] ∧
        (if c then x.inc R.RFM_SPILL_WINDOWS else x).pch pc = s.pch pc := by
    split
    · exact ⟨h.inc List.mem_cons_self 1, (inc_pch _ _ _ _).trans hp⟩
    · exact ⟨h, hp⟩
  have hend (x : State) (c : Bool) (h : Turn s x [R.RFM_SPILL_WINDOWS] ∧ x.pch pc = s.pch pc) :
      Turn s (if c then x.setPch pc (PCh.tnrQueued b row (x.pch pc)) else x) [R.RFM_SPILL_WINDOWS] ∧
        ((if c then x.setPch pc (PCh.tnrQueued b row (x.pch pc)) else x).pch pc = s.pch pc ∨
          (if c then x.setPch pc (PCh.tnrQueued b row (x.pch pc)) else x).pch pc = PCh.tnrQueued b row (s.pch pc)) := by
    obtain ⟨hturn, hpch⟩ := h
    split
    · refine ⟨hturn.setPch _ _, .inr ((setPch_pch _ _ _).trans ?_)⟩
      rw [hpch]
    · exact ⟨hturn, .inl hpch⟩
  unfold trackActivate
  split
  · exact ⟨Turn.refl s, .inl rfl⟩
  · dsimp only
    simp only [Bool.false_eq_true, if_false]
    exact hend _ _ (hspill _ _ ((Turn.refl s).setTracker _ _) rfl)

/-! ### A row command -/

theorem issueRow_act (s : State) (pc k : Nat) (y : DReq) :
    Turn s (s.issueRow pc k false (.act y)) [R.CHC_ACTIVATES k, R.RFM_SPILL_WINDOWS] ∧
      (s.issueRow pc k false (.act y)).rd (R.CHC_ACTIVATES k) = s.rd (R.CHC_ACTIVATES k) + 1 ∧
      ((s.issueRow pc k false (.act y)).pch pc = (s.pch pc).afterRow (.act y) ∨
        (s.issueRow pc k false (.act y)).pch pc = PCh.tnrQueued y.bank y.row ((s.pch pc).afterRow (.act y))) := by
  have heq : s.issueRow pc k false (.act y) =
      ((s.setPch pc ((s.pch pc).afterRow (.act y))).inc (R.CHC_ACTIVATES k)).trackActivate pc y.bank y.row false := rfl
  have hpch : ((s.setPch pc ((s.pch pc).afterRow (.act y))).inc (R.CHC_ACTIVATES k)).pch pc = (s.pch pc).afterRow (.act y) :=
    (inc_pch _ _ _ _).trans (setPch_pch _ _ _)
  have hrd : ((s.setPch pc ((s.pch pc).afterRow (.act y))).inc (R.CHC_ACTIVATES k)).rd (R.CHC_ACTIVATES k) =
      s.rd (R.CHC_ACTIVATES k) + 1 := (rd_inc ..).trans (if_pos rfl)
  have hinc : Turn s ((s.setPch pc ((s.pch pc).afterRow (.act y))).inc (R.CHC_ACTIVATES k))
      [R.CHC_ACTIVATES k, R.RFM_SPILL_WINDOWS] := ((Turn.refl s).setPch _ _).inc List.mem_cons_self 1
  rw [heq]
  generalize (s.setPch pc ((s.pch pc).afterRow (.act y))).inc (R.CHC_ACTIVATES k) = u at hpch hrd hinc
  obtain ⟨hturn, hcase⟩ := trackActivate_spec u pc y.bank y.row
  have hcol : R.CHC_ACTIVATES k ≠ R.RFM_SPILL_WINDOWS := by
    simp only [R.CHC_ACTIVATES, R.RFM_SPILL_WINDOWS]
    omega
  rw [hpch] at hcase
  refine ⟨hinc.trans (hturn.mono (List.subset_cons_self _ _)), ?_, hcase⟩
  rw [hturn.regs _ (by simp) (fun h => hcol (List.mem_singleton.mp h)), hrd]

theorem issueRow_pre (s : State) (pc k b : Nat) :
    Turn s (s.issueRow pc k false (.pre b true)) [R.CHC_CONFLICTS k] ∧
      (s.issueRow pc k false (.pre b true)).rd (R.CHC_CONFLICTS k) = s.rd (R.CHC_CONFLICTS k) + 1 ∧
      (s.issueRow pc k false (.pre b true)).pch pc = (s.pch pc).afterRow (.pre b true) := by
  have heq : s.issueRow pc k false (.pre b true) =
      (s.setPch pc ((s.pch pc).afterRow (.pre b true))).inc (R.CHC_CONFLICTS k) := rfl
  rw [heq]
  exact ⟨((Turn.refl s).setPch _ _).inc List.mem_cons_self 1, (rd_inc ..).trans (if_pos rfl),
    (inc_pch _ _ _ _).trans (setPch_pch _ _ _)⟩

/-- The counters that row commands of requests add to. -/
abbrev rowCounters (k : Nat) : List Nat := [R.CHC_CONFLICTS k, R.CHC_ACTIVATES k, R.RFM_SPILL_WINDOWS]

/-- A row command of another bank keeps what a request sees of its pseudo-channel. -/
theorem issueRow_other {c : RowCmd} (hq : ∀ x ∈ (s.pch pc).rq ++ (s.pch pc).wq, x = r) (hs : (s.pch pc).scrub = [])
    (hc : (∃ y, c = .act y ∧ y.bank ≠ r.bank) ∨ ∃ b, c = .pre b true ∧ b ≠ r.bank) :
    Turn s (s.issueRow pc k false c) (rowCounters k) ∧ PCh.KeptFor r (s.pch pc) ((s.issueRow pc k false c).pch pc) := by
  obtain ⟨y, rfl, hb⟩ | ⟨b, rfl, hb⟩ := hc
  · obtain ⟨hturn, -, hpch | hpch⟩ := issueRow_act s pc k y
    · exact ⟨hturn.mono (List.subset_cons_self _ _), hpch ▸ PCh.afterRow_act_kept hb hq hs⟩
    · exact ⟨hturn.mono (List.subset_cons_self _ _), hpch ▸ (PCh.afterRow_act_kept hb hq hs).tnr hb y.row⟩
  · obtain ⟨hturn, -, hpch⟩ := issueRow_pre s pc k b
    exact ⟨hturn.mono (by simp), hpch ▸ PCh.afterRow_pre_kept true hb hq⟩

/-! ### A column command -/

/-- A pseudo-channel after a column command, which its die counts. -/
def columned (tm : Tim) (q : PCh) (r : DReq) : PCh := (q.afterCol tm r).countCol r.sid

/-- The counters that a column command may add to. -/
abbrev colCounters (k : Nat) : List Nat := [R.CHC_STREAK_CAPS k, R.CHC_ROW_HITS k, R.CHC_URGENT k]

/-- The counts of a column command: a streak that reaches its cap, a row that stood open, an urgent request. -/
def colCounted (s : State) (pc k : Nat) (tm : Tim) (r : DReq) : State :=
  let p := s.pch pc
  let u := if s.streakMax k = ((columned tm p r).bank r.bank).streak ∧ (p.bank r.bank).streak ≠ s.streakMax k then
    s.inc (R.CHC_STREAK_CAPS k) else s
  let v := if r.acted then u else u.inc (R.CHC_ROW_HITS k)
  if (p.rq ++ p.wq).contains r && decide (v.urgLevel k ≤ r.prio) then v.inc (R.CHC_URGENT k) else v

theorem colCounted_spec (s : State) (pc k : Nat) (tm : Tim) (r : DReq) :
    Turn s (s.colCounted pc k tm r) (colCounters k) ∧ (s.colCounted pc k tm r).pch pc = s.pch pc := by
  have hinc {x : State} {a : Nat} (ha : a ∈ colCounters k) (h : Turn s x (colCounters k) ∧ x.pch pc = s.pch pc) :
      Turn s (x.inc a) (colCounters k) ∧ (x.inc a).pch pc = s.pch pc := ⟨h.1.inc ha 1, (inc_pch _ _ _ _).trans h.2⟩
  have hite {x y : State} (c : Prop) [Decidable c] (hx : Turn s x (colCounters k) ∧ x.pch pc = s.pch pc)
      (hy : Turn s y (colCounters k) ∧ y.pch pc = s.pch pc) :
      Turn s (if c then x else y) (colCounters k) ∧ (if c then x else y).pch pc = s.pch pc := by
    split
    · exact hx
    · exact hy
  have hcap := hite (s.streakMax k = ((columned tm (s.pch pc) r).bank r.bank).streak ∧
    ((s.pch pc).bank r.bank).streak ≠ s.streakMax k) (hinc (a := R.CHC_STREAK_CAPS k) (by simp) ⟨Turn.refl s, rfl⟩) ⟨Turn.refl s, rfl⟩
  have hhit := hite (r.acted = true) hcap (hinc (a := R.CHC_ROW_HITS k) (by simp) hcap)
  exact hite _ (hinc (a := R.CHC_URGENT k) (by simp) hhit) hhit

/-- A column command is counted; then a write is performed, and a read is in flight. -/
theorem issueCol_eq (s : State) (pc k : Nat) (tm : Tim) (r : DReq) : s.issueCol pc k tm r =
    if r.write then ((s.colCounted pc k tm r).setPch pc (columned tm (s.pch pc) r)).putWord r.f r.o r.line
    else ((s.colCounted pc k tm r).setPch pc { columned tm (s.pch pc) r with
      flight := (columned tm (s.pch pc) r).flight ++ [{ r with line := (s.colCounted pc k tm r).dramRead r.f r.o }] }).inc64
        (R.CHC_READS_LO k) := rfl

/-! ### A clock in which the one request takes its column command -/

theorem Turn.streakMax (h : Turn s t l) (hk : R.CHC_SCHED_CTL k ∉ l) : t.streakMax k = s.streakMax k := by
  unfold State.streakMax
  rw [h.fld hk]

theorem Turn.urgLevel (h : Turn s t l) (hk : R.CHC_SCHED_CTL k ∉ l) : t.urgLevel k = s.urgLevel k := by
  unfold State.urgLevel
  rw [h.fld hk]

theorem schedCtl_notMem : R.CHC_SCHED_CTL k ∉ rowCounters k := by
  simp only [rowCounters, List.mem_cons, List.not_mem_nil, or_false, R.CHC_SCHED_CTL, R.CHC_CONFLICTS, R.CHC_ACTIVATES, R.RFM_SPILL_WINDOWS]
  omega

/-- While one request of the mode waits for its open row, its column command is issued in this clock, whatever the row command
of another bank is. -/
theorem issueBoth_col (h : PCh.Only (s.urgLevel k) r (s.pch pc)) (hr : (s.pch pc).refs = []) (hwake : (s.pch pc).wake ≤ (s.pch pc).now)
    (ho : (s.pch pc).colOpen tm r = true) (hst : ((s.pch pc).bank r.bank).st = 2) (hrow : ((s.pch pc).bank r.bank).row = r.row)
    (hs : ((s.pch pc).bank r.bank).streak < s.streakMax k) (hc : (s.pch pc).canCol tm r = true) :
    ∃ w, Turn s w (rowCounters k) ∧ PCh.KeptFor r (s.pch pc) (w.pch pc) ∧ s.issueBoth pc k tm false = w.issueCol pc k tm r := by
  have hstep : Turn s (s.rowStep pc k tm false) (rowCounters k) ∧ PCh.KeptFor r (s.pch pc) ((s.rowStep pc k tm false).pch pc) := by
    cases hrc : (s.pch pc).chooseRow tm (s.streakMax k) (s.urgLevel k) with
    | none =>
      have hnone : s.rowStep pc k tm false = s := by
        unfold rowStep
        rw [hrc]
      rw [hnone]
      exact ⟨Turn.refl s, PCh.KeptFor.refl _ _⟩
    | some c =>
      rw [rowStep_some false hrc]
      refine issueRow_other (fun x hx => ?_) h.scrub (h.chooseRow_other hr ho hst hrow hs hrc)
      rw [h.queued] at hx
      exact List.mem_singleton.mp hx
  obtain ⟨hturn, hkept⟩ := hstep
  refine ⟨_, hturn, hkept, ?_⟩
  refine issueBoth_some false hwake (by rw [hkept.wake, hkept.now]; exact hwake) ?_
  rw [hturn.urgLevel schedCtl_notMem, hturn.streakMax schedCtl_notMem]
  refine (h.keptFor hkept).chooseCol ((hkept.canCol tm).trans hc) ?_
  rw [hkept.bank]
  exact hs

/-! ### The clock of a pseudo-channel that is awake -/

/-- A pseudo-channel is served by its controller, awake, without scrub reads, and nothing retires or is handed on. -/
structure Awake (s : State) (c : Fin 32) (p : Bool) (k : Nat) (x : PCh) : Prop where
  isOpen : s.sliceOpen c = true
  noRepair : s.rowRep c = none
  ctrl : s.ctrlOf c = some k
  live : s.pchLive (2 * c + p.toNat) = true
  quiet : Quiet s
  eq : x = s.pch (2 * c + p.toNat)
  scrub : x.scrub = []
  pd : x.pd = false
  wake : x.wake ≤ x.now

theorem afterClock_self {c : Nat} (hremap : t.ch.remap = s.ch.remap) (hh : t.fcol.handed = []) (hr : t.place.retiring = []) :
    s.afterClock t c = t := by
  have hsame : t.remapOf c = s.remapOf c := by
    unfold remapOf
    rw [hremap]
  unfold afterClock
  rw [if_pos ⟨hsame, by rw [hr]; rfl, by rw [hh]; rfl⟩, if_pos hsame]

variable {ch : Fin 32} {p : Bool} {x : PCh}

/-- A clock begins: time passes and the mode is chosen. -/
theorem Awake.begins (h : Awake s ch p k x) : ∃ u, Turn s u [R.CHC_WRITE_MODES k] ∧
    u.pch (2 * ch + p.toNat) = { x.tick (s.timing k ch) with writeMode := s.modeNow k (x.tick (s.timing k ch)) } ∧
    s.dramClock ch p.toNat false = u.issueBoth (2 * ch + p.toNat) k (s.timing k ch) false := by
  obtain ⟨hpch, hturn⟩ := chooseMode_spec (s.setPch (2 * ch + p.toNat) (x.tick (s.timing k ch))) (2 * ch + p.toNat) k
  have heq := h.eq
  refine ⟨_, ((Turn.refl s).setPch _ _).trans hturn, ?_, ?_⟩
  · rw [hpch, setPch_pch]
    rfl
  · rw [heq]
    exact dramClock_eq false h.ctrl h.live (heq ▸ h.pd) (heq ▸ h.scrub)

theorem Awake.schedule_eq (h : Awake s ch p k x) : s.schedule ch p.toNat false = s.dramSchedule ch p.toNat false := by
  unfold schedule scheduleHeld
  rw [if_pos h.isOpen, h.noRepair]

/-- A clock that puts no read in flight stamps no sample. -/
theorem dramSchedule_eq {c n : Nat} (h : ((s.dramClock c n false).pch (2 * c + n)).flight.length ≤ (s.pch (2 * c + n)).flight.length) :
    s.dramSchedule c n false = s.dramClock c n false := by
  unfold dramSchedule
  dsimp only
  rw [List.drop_eq_nil_of_le h]
  rfl

/-- What a clock without a new read in flight leaves is what the command leaves. -/
theorem Awake.exec_eq (h : Awake s ch p k x) (hf : ((s.dramClock ch p.toNat false).pch (2 * ch + p.toNat)).flight.length ≤ x.flight.length)
    (hremap : (s.dramClock ch p.toNat false).ch.remap = s.ch.remap) (hh : (s.dramClock ch p.toNat false).fcol.handed = s.fcol.handed)
    (hr : (s.dramClock ch p.toNat false).place.retiring = s.place.retiring) :
    s.afterClock (s.schedule ch p.toNat false) ch = s.dramClock ch p.toNat false := by
  rw [h.schedule_eq, dramSchedule_eq (h.eq ▸ hf)]
  exact afterClock_self hremap (hh.trans h.quiet.1) (hr.trans h.quiet.2)

theorem Turn.retiring (h : Turn s t l) : t.place.retiring = s.place.retiring := by rw [h.mem.place_eq]

/-- A clock in which the one request of the mode takes its column command. -/
theorem Awake.column (h : Awake s ch p k x) (hq : x.rq ++ x.wq = [r])
    (hm : s.modeNow k (x.tick (s.timing k ch)) = r.write) (hrw : (if r.write then x.wq else x.rq) = [r]) (hrefs : x.refs = [])
    (hf : x.flight = []) (ho : (x.tick (s.timing k ch)).colOpen (s.timing k ch) r = true)
    (hst : ((x.tick (s.timing k ch)).bank r.bank).st = 2) (hrow : ((x.tick (s.timing k ch)).bank r.bank).row = r.row)
    (hs : (x.bank r.bank).streak < s.streakMax k) (hc : (x.tick (s.timing k ch)).canCol (s.timing k ch) r = true) :
    ∃ w, Turn s w (R.CHC_WRITE_MODES k :: rowCounters k) ∧ PCh.KeptFor r { x.tick (s.timing k ch) with writeMode := r.write } (w.pch (2 * ch + p.toNat)) ∧
      s.dramClock ch p.toNat false = w.issueCol (2 * ch + p.toNat) k (s.timing k ch) r := by
  obtain ⟨u, hturn, hpch, heq⟩ := h.begins
  rw [hm] at hpch
  have hctl : R.CHC_SCHED_CTL k ∉ [R.CHC_WRITE_MODES k] := by
    simp only [List.mem_cons, List.not_mem_nil, or_false, R.CHC_SCHED_CTL, R.CHC_WRITE_MODES]
    omega
  have honly : PCh.Only (u.urgLevel k) r (u.pch (2 * ch + p.toNat)) := by
    rw [hpch]
    refine ⟨hq, ?_, hf, h.scrub⟩
    unfold PCh.modeAll
    dsimp only
    cases hw : r.write with
    | false =>
      rw [hw] at hrw
      exact hrw
    | true =>
      rw [hw] at hrw
      have hwq : x.wq = [r] := hrw
      have hrq : x.rq = [] := by
        rw [hwq] at hq
        exact List.append_left_eq_self.mp hq
      have hrq' : (x.tick (s.timing k ch)).rq = [] := hrq
      have hwq' : (x.tick (s.timing k ch)).wq = [r] := hwq
      rw [hrq', hwq']
      rfl
  have hstreak : ((x.tick (s.timing k ch)).bank r.bank).streak < u.streakMax k := by
    rw [PCh.tick_bank, PCh.ripen_streak, hturn.streakMax hctl]
    exact hs
  obtain ⟨w, hw, hk, hcol⟩ := issueBoth_col (s := u) honly (by rw [hpch]; exact hrefs) (by rw [hpch]; exact Nat.le_succ_of_le h.wake)
    (by rw [hpch]; exact ho) (by rw [hpch]; exact hst) (by rw [hpch]; exact hrow) (by rw [hpch]; exact hstreak) (by rw [hpch]; exact hc)
  rw [hpch] at hk
  exact ⟨w, (hturn.mono (by simp)).trans (hw.mono (List.subset_cons_self _ _)), hk, heq.trans hcol⟩

/-! ### A write and a read of the open row -/

/-- The counters that a clock with a column command may add to, but for the reads and writes. -/
abbrev clockCounters (k : Nat) : List Nat := R.CHC_WRITE_MODES k :: (rowCounters k ++ colCounters k)

theorem Turn.rd64_same (h : Turn s t (clockCounters k)) {a : Nat} (ha : a = R.CHC_READS_LO k ∨ a = R.CHC_WRITES_LO k) :
    t.rd64 a = s.rd64 a := by
  have hout (b : Nat) (hb : b = 0 ∨ b = 4) : a + b ∉ clockCounters k := by
    simp only [clockCounters, rowCounters, colCounters, List.cons_append, List.nil_append, List.mem_cons, List.not_mem_nil, or_false,
      R.CHC_READS_LO, R.CHC_WRITES_LO, R.CHC_WRITE_MODES, R.CHC_CONFLICTS, R.CHC_ACTIVATES, R.RFM_SPILL_WINDOWS,
      R.CHC_STREAK_CAPS, R.CHC_ROW_HITS, R.CHC_URGENT] at ha ⊢
    omega
  exact rd64_congr (h.regs _ (by simp) (hout 0 (.inl rfl))) (h.regs _ (by simp) (hout 4 (.inr rfl)))

theorem Turn.dramRead (h : Turn s t l) (f o : Nat) : t.dramRead f o = s.dramRead f o := dramRead_of_dram h.mem.1 f o

theorem columned_wq (q : PCh) (hr : r.write = true) : (columned tm q r).wq = q.wq.erase r ∧ (columned tm q r).flight = q.flight := by
  unfold columned PCh.countCol PCh.afterCol
  dsimp only
  rw [if_pos hr]
  exact ⟨rfl, rfl⟩

theorem columned_rq (q : PCh) (hr : r.write = false) : (columned tm q r).rq = q.rq.erase r ∧ (columned tm q r).flight = q.flight := by
  unfold columned PCh.countCol PCh.afterCol
  dsimp only
  rw [if_neg (by rw [hr]; exact Bool.false_ne_true)]
  exact ⟨rfl, rfl⟩

/-- A state with the counts of a column command and another state of its pseudo-channel. -/
theorem Turn.column {w : State} (h : Turn s w (R.CHC_WRITE_MODES k :: rowCounters k)) (q : PCh) :
    Turn s ((w.colCounted pc k tm r).setPch pc q) (clockCounters k) :=
  ((h.mono (by simp)).trans ((colCounted_spec w pc k tm r).1.mono (by simp))).setPch _ _

/-- The write of the open row is performed. -/
theorem Awake.write (h : Awake s ch p k x) (hrq : x.rq = []) (hwq : x.wq = [r]) (hrefs : x.refs = []) (hf : x.flight = [])
    (hw : r.write = true) (hpc : fPc r.f = 2 * ch + p.toNat) (hst : ((x.tick (s.timing k ch)).bank r.bank).st = 2)
    (hc : (x.tick (s.timing k ch)).canWrite (s.timing k ch) r = true) (ho : (x.tick (s.timing k ch)).colOpen (s.timing k ch) r = true)
    (hs : (x.bank r.bank).streak < s.streakMax k) :
    ∃ v, Turn s v (clockCounters k) ∧ (v.pch (2 * ch + p.toNat)).wq = [] ∧ (v.pch (2 * ch + p.toNat)).flight = [] ∧
      v.ctrlPage (fChan r.f) = k ∧ s.dramClock ch p.toNat false = v.putWord r.f r.o r.line := by
  have hcol : (x.tick (s.timing k ch)).canCol (s.timing k ch) r = true := by
    unfold PCh.canCol
    rw [if_pos hw, hc, ho]
    rfl
  have hrow : ((x.tick (s.timing k ch)).bank r.bank).row = r.row := by
    unfold PCh.canWrite at hc
    simp only [Bool.and_eq_true, decide_eq_true_eq] at hc
    exact hc.1.1.1.2
  obtain ⟨w, hturn, hkept, heq⟩ := h.column (r := r) (by rw [hrq, hwq]; rfl) (by rw [hw]; exact modeNow_write s k hrq hwq)
    (by rw [if_pos hw, hwq]) hrefs hf ho hst hrow hs hcol
  rw [issueCol_eq, if_pos hw] at heq
  have hv := Turn.column (pc := 2 * ch + p.toNat) (tm := s.timing k ch) (r := r) hturn
    (columned (s.timing k ch) (w.pch (2 * ch + p.toNat)) r)
  obtain ⟨hcwq, hcf⟩ := columned_wq (tm := s.timing k ch) (w.pch (2 * ch + p.toNat)) hw
  refine ⟨_, hv, ?_, ?_, ?_, heq⟩
  · rw [setPch_pch, hcwq, hkept.wq]
    have hq : (x.tick (s.timing k ch)).wq = [r] := hwq
    dsimp only
    rw [hq]
    simp
  · rw [setPch_pch, hcf, hkept.flight]
    exact hf
  · have hchan : fChan r.f = ch := by
      unfold fPc fPch at hpc
      have := p.toNat_lt
      omega
    unfold ctrlPage
    rw [ctrlOf_congr hv.regs, hchan, h.ctrl]
    · rfl
    · intro j
      simp only [clockCounters, rowCounters, colCounters, List.cons_append, List.nil_append, List.mem_cons, List.not_mem_nil, or_false,
        R.CHC_CHAN_MAP, R.CHC_WRITE_MODES, R.CHC_CONFLICTS, R.CHC_ACTIVATES, R.RFM_SPILL_WINDOWS, R.CHC_STREAK_CAPS,
        R.CHC_ROW_HITS, R.CHC_URGENT]
      omega
    · have := ch.isLt
      simp only [clockCounters, rowCounters, colCounters, List.cons_append, List.nil_append, List.mem_cons, List.not_mem_nil, or_false,
        R.HEALTH_LEND, R.CHC_WRITE_MODES, R.CHC_CONFLICTS, R.CHC_ACTIVATES, R.RFM_SPILL_WINDOWS, R.CHC_STREAK_CAPS,
        R.CHC_ROW_HITS, R.CHC_URGENT]
      omega

/-- The read of the open row is in flight with the stored line. -/
theorem Awake.read (h : Awake s ch p k x) (hrq : x.rq = [r]) (hwq : x.wq = []) (hrefs : x.refs = []) (hf : x.flight = [])
    (hw : r.write = false) (hm : x.writeMode = false) (hst : ((x.tick (s.timing k ch)).bank r.bank).st = 2)
    (hc : (x.tick (s.timing k ch)).canRead (s.timing k ch) r = true) (ho : (x.tick (s.timing k ch)).colOpen (s.timing k ch) r = true)
    (hs : (x.bank r.bank).streak < s.streakMax k) :
    ∃ v, Turn s v (clockCounters k) ∧ (v.pch (2 * ch + p.toNat)).rq = [] ∧
      (v.pch (2 * ch + p.toNat)).flight = [{ r with line := s.dramRead r.f r.o }] ∧
      s.dramClock ch p.toNat false = v.inc64 (R.CHC_READS_LO k) := by
  have hw' : ¬ r.write = true := by
    rw [hw]
    exact Bool.false_ne_true
  have hcol : (x.tick (s.timing k ch)).canCol (s.timing k ch) r = true := by
    unfold PCh.canCol
    rw [if_neg hw', hc, ho]
    rfl
  have hrow : ((x.tick (s.timing k ch)).bank r.bank).row = r.row := by
    unfold PCh.canRead at hc
    simp only [Bool.and_eq_true, decide_eq_true_eq] at hc
    exact hc.1.1.1.2.1
  obtain ⟨w, hturn, hkept, heq⟩ := h.column (r := r) (by rw [hrq, hwq]; rfl) (by rw [hw]; exact modeNow_read s k hwq hm)
    (by rw [if_neg hw', hrq]) hrefs hf ho hst hrow hs hcol
  rw [issueCol_eq, if_neg hw'] at heq
  obtain ⟨hcrq, hcf⟩ := columned_rq (tm := s.timing k ch) (w.pch (2 * ch + p.toNat)) hw
  refine ⟨_, Turn.column hturn _, ?_, ?_, heq⟩
  · rw [setPch_pch]
    refine hcrq.trans ?_
    rw [hkept.rq]
    have hq : (x.tick (s.timing k ch)).rq = [r] := hrq
    dsimp only
    rw [hq]
    simp
  · have hq : (x.tick (s.timing k ch)).flight = [] := hf
    have hline : (w.colCounted (2 * ch + p.toNat) k (s.timing k ch) r).dramRead r.f r.o = s.dramRead r.f r.o :=
      ((colCounted_spec w _ k _ r).1.dramRead _ _).trans (hturn.dramRead _ _)
    rw [setPch_pch, hcf, hkept.flight, hline]
    dsimp only
    rw [hq]
    rfl

/-! ### A closed bank, another open row -/

/-- A clock whose row command is known and that has no column command. -/
theorem Awake.row (h : Awake s ch p k x) (hrq : x.rq = [r]) (hwq : x.wq = []) (hrefs : x.refs = []) (hf : x.flight = [])
    (hm : x.writeMode = false) {c : RowCmd}
    (hc : ∀ smax, (x.tick (s.timing k ch)).rowCandidate (s.timing k ch) smax [r] r = some c) :
    ∃ u, Turn s u [R.CHC_WRITE_MODES k] ∧ u.pch (2 * ch + p.toNat) = x.tick (s.timing k ch) ∧
      ((∀ smax urg, ((u.issueRow (2 * ch + p.toNat) k false c).pch (2 * ch + p.toNat)).chooseCol (s.timing k ch) smax urg = none) →
        s.dramClock ch p.toNat false = u.issueRow (2 * ch + p.toNat) k false c) := by
  obtain ⟨u, hturn, hpch, heq⟩ := h.begins
  have hmode : s.modeNow k (x.tick (s.timing k ch)) = (x.tick (s.timing k ch)).writeMode := (modeNow_read s k hwq hm).trans hm.symm
  rw [hmode] at hpch
  have hpch : u.pch (2 * ch + p.toNat) = x.tick (s.timing k ch) := hpch
  have honly : PCh.Only (u.urgLevel k) r (x.tick (s.timing k ch)) := by
    have hrq' : (x.tick (s.timing k ch)).rq = [r] := hrq
    have hwq' : (x.tick (s.timing k ch)).wq = [] := hwq
    have hm' : (x.tick (s.timing k ch)).writeMode = false := hm
    refine ⟨by rw [hrq', hwq']; rfl, ?_, hf, h.scrub⟩
    unfold PCh.modeAll
    rw [hm']
    exact hrq
  have hrow : u.rowStep (2 * ch + p.toNat) k (s.timing k ch) false = u.issueRow (2 * ch + p.toNat) k false c :=
    rowStep_some false (by rw [hpch]; exact honly.chooseRow_request hrefs (hc _))
  refine ⟨u, hturn, hpch, fun hnone => heq.trans ?_⟩
  rw [issueBoth_row false (by rw [hpch]; exact Nat.le_succ_of_le h.wake) (by rw [hrow]; exact hnone), hrow]

/-- No read column command is allowed before its row is open. -/
theorem canCol_closed {q : PCh} {y : DReq} (hw : y.write = false)
    (hb : ((q.bank y.bank).st ≠ 1 ∧ (q.bank y.bank).st ≠ 2) ∨ q.now ≤ (q.bank y.bank).act) : q.canCol tm y = false := by
  have hno : ¬ (((q.bank y.bank).st = 1 ∨ (q.bank y.bank).st = 2) ∧ (q.bank y.bank).row = y.row ∧ (q.bank y.bank).act + 1 ≤ q.now) := by
    rintro ⟨hst, -, hact⟩
    omega
  unfold PCh.canCol
  rw [if_neg (by rw [hw]; exact Bool.false_ne_true)]
  unfold PCh.canRead
  dsimp only
  rw [decide_eq_false hno]
  rfl

theorem afterRow_act_queues {q : PCh} (hrq : q.rq = [r]) (hwq : q.wq = []) :
    (q.afterRow (.act r)).rq = [{ r with acted := true }] ∧ (q.afterRow (.act r)).wq = [] := by
  have hmark (l : List DReq) (h : l = [r]) : l.map (fun y => if y = r then { y with acted := true } else y) = [{ r with acted := true }] := by
    rw [h, List.map_singleton, if_pos rfl]
  exact ⟨hmark q.rq hrq, congrArg (List.map _) hwq⟩

theorem afterRow_pre_queues {q : PCh} (hrq : q.rq = [r]) (hwq : q.wq = []) (hne : (q.bank r.bank).row ≠ r.row) :
    (q.afterRow (.pre r.bank true)).rq = [{ r with conf := true }] ∧ (q.afterRow (.pre r.bank true)).wq = [] := by
  have hmark (l : List DReq) (h : l = [r]) :
      l.map (fun y => if true = true ∧ y.bank = r.bank ∧ y.row ≠ (q.bank r.bank).row then { y with conf := true } else y) =
        [{ r with conf := true }] := by
    rw [h, List.map_singleton, if_pos ⟨rfl, rfl, hne.symm⟩]
  exact ⟨hmark q.rq hrq, congrArg (List.map _) hwq⟩

/-- A closed bank is activated for the request. -/
theorem Awake.activate (h : Awake s ch p k x) (hrq : x.rq = [r]) (hwq : x.wq = []) (hrefs : x.refs = []) (hf : x.flight = [])
    (hcorr : x.corr = []) (hw : r.write = false) (hm : x.writeMode = false)
    (hst : ((x.tick (s.timing k ch)).bank r.bank).st = 0)
    (hc : (x.tick (s.timing k ch)).canAct (s.timing k ch) r = true) (ho : (x.tick (s.timing k ch)).colOpen (s.timing k ch) r = true) :
    Turn s (s.dramClock ch p.toNat false) (R.CHC_WRITE_MODES k :: rowCounters k) ∧
      (s.dramClock ch p.toNat false).rd (R.CHC_ACTIVATES k) = s.rd (R.CHC_ACTIVATES k) + 1 ∧
      ∃ l, (s.dramClock ch p.toNat false).pch (2 * ch + p.toNat) = { (x.tick (s.timing k ch)).afterRow (.act r) with refs := l } := by
  obtain ⟨u, hturn, hpch, heq⟩ := h.row hrq hwq hrefs hf hm (c := .act r) (by
    intro smax
    unfold PCh.rowCandidate
    dsimp only
    rw [ho, hst, hc]
    rfl)
  obtain ⟨hrow, hrd, hcase⟩ := issueRow_act u (2 * ch + p.toNat) k r
  rw [hpch] at hcase
  have hafter : ∃ l, (u.issueRow (2 * ch + p.toNat) k false (.act r)).pch (2 * ch + p.toNat) =
      { (x.tick (s.timing k ch)).afterRow (.act r) with refs := l } := hcase.elim (fun h => ⟨_, h⟩) fun h => ⟨_, h⟩
  obtain ⟨l, hl⟩ := hafter
  have hmodes : R.CHC_ACTIVATES k ≠ R.CHC_WRITE_MODES k := by
    simp only [R.CHC_ACTIVATES, R.CHC_WRITE_MODES]
    omega
  have hlist := afterRow_act_queues (q := x.tick (s.timing k ch)) hrq hwq
  have hclock := heq fun smax urg => by
    rw [hl]
    refine PCh.chooseCol_none (fun y hy => ?_) ?_ ?_
    · have hy : y ∈ ((x.tick (s.timing k ch)).afterRow (.act r)).rq ++ ((x.tick (s.timing k ch)).afterRow (.act r)).wq := hy
      rw [hlist.1, hlist.2] at hy
      rw [List.mem_singleton.mp hy]
      refine canCol_closed hw (.inr ?_)
      have hbank : ((x.tick (s.timing k ch)).afterRow (.act r)).bank r.bank = PCh.activated (x.tick (s.timing k ch)) r :=
        (PCh.afterRow_act_bank _ r _).trans (if_pos rfl)
      exact (congrArg BankSt.act hbank).ge
    · exact congrArg (List.map _) h.scrub
    · exact congrArg (List.map _) hcorr
  rw [hclock]
  refine ⟨(hturn.mono (by simp)).trans (hrow.mono (by simp)), ?_, l, hl⟩
  rw [hrd, hturn.regs _ (by simp) fun h => hmodes (List.mem_singleton.mp h)]

/-- Another open row of the bank is closed for the request. -/
theorem Awake.precharge (h : Awake s ch p k x) (hrq : x.rq = [r]) (hwq : x.wq = []) (hrefs : x.refs = []) (hf : x.flight = [])
    (hcorr : x.corr = []) (hw : r.write = false) (hm : x.writeMode = false)
    (hst : ((x.tick (s.timing k ch)).bank r.bank).st = 2) (hne : ((x.tick (s.timing k ch)).bank r.bank).row ≠ r.row)
    (hc : (x.tick (s.timing k ch)).canPre (s.timing k ch) r.bank = true) (ho : (x.tick (s.timing k ch)).colOpen (s.timing k ch) r = true) :
    Turn s (s.dramClock ch p.toNat false) (R.CHC_WRITE_MODES k :: rowCounters k) ∧
      (s.dramClock ch p.toNat false).rd (R.CHC_CONFLICTS k) = s.rd (R.CHC_CONFLICTS k) + 1 ∧
      (s.dramClock ch p.toNat false).pch (2 * ch + p.toNat) = (x.tick (s.timing k ch)).afterRow (.pre r.bank true) := by
  obtain ⟨u, hturn, hpch, heq⟩ := h.row hrq hwq hrefs hf hm (c := .pre r.bank true) (by
    intro smax
    unfold PCh.rowCandidate
    simp [ho, hst, hc, hne, hne.symm])
  obtain ⟨hrow, hrd, hl⟩ := issueRow_pre u (2 * ch + p.toNat) k r.bank
  rw [hpch] at hl
  have hmodes : R.CHC_CONFLICTS k ≠ R.CHC_WRITE_MODES k := by
    simp only [R.CHC_CONFLICTS, R.CHC_WRITE_MODES]
    omega
  have hbank : ((x.tick (s.timing k ch)).afterRow (.pre r.bank true)).bank r.bank = PCh.precharged (x.tick (s.timing k ch)) r.bank :=
    (PCh.afterRow_pre_bank _ r.bank true _).trans (if_pos rfl)
  have hlist := afterRow_pre_queues (q := x.tick (s.timing k ch)) hrq hwq hne
  have hclock := heq fun smax urg => by
    rw [hl]
    refine PCh.chooseCol_none (fun y hy => ?_) h.scrub hcorr
    rw [hlist.1, hlist.2] at hy
    rw [List.mem_singleton.mp hy]
    refine canCol_closed hw (.inl ?_)
    have hst : (((x.tick (s.timing k ch)).afterRow (.pre r.bank true)).bank r.bank).st = 3 := congrArg BankSt.st hbank
    exact ⟨fun h => absurd (hst.symm.trans h) (by decide), fun h => absurd (hst.symm.trans h) (by decide)⟩
  rw [hclock]
  refine ⟨(hturn.mono (by simp)).trans (hrow.mono (by simp)), ?_, hl⟩
  rw [hrd, hturn.regs _ (by simp) fun h => hmodes (List.mem_singleton.mp h)]

/-! ### A refresh that is due -/

/-- Two states of a pseudo-channel have the same banks, queues and refreshes. -/
structure SameWork (q t : PCh) : Prop where
  banks : t.banks = q.banks
  refs : t.refs = q.refs
  rq : t.rq = q.rq
  wq : t.wq = q.wq
  flight : t.flight = q.flight
  corr : t.corr = q.corr
  scrub : t.scrub = q.scrub

theorem SameWork.refl (q : PCh) : SameWork q q := ⟨rfl, rfl, rfl, rfl, rfl, rfl, rfl⟩

/-- The registers that the end of a refresh may change beside its count: the training values applied in the bus gap. -/
abbrev gapRegs (c : Nat) : List Nat := [R.CHP_CAL_COUNT c, R.CHP_CAL_TIME_LO c, R.CHP_CAL_TIME_LO c + 4]

theorem openGap_spec (s : State) (pc : Nat) : Turn s (s.openGap pc) [] ∧ SameWork (s.pch pc) ((s.openGap pc).pch pc) := by
  have hpch : (s.openGap pc).pch pc = _ := setPch_pch _ _ _
  refine ⟨(Turn.refl s).setPch _ _, ?_⟩
  rw [hpch]
  exact ⟨rfl, rfl, rfl, rfl, rfl, rfl, rfl⟩

/-- The count and the time of a calibration that is applied. -/
theorem calApplied_spec (s : State) (c : Nat) (v : Word64) :
    Turn s ((s.incSat (R.CHP_CAL_COUNT c) F.CHP_CAL_COUNT_COUNT).wr64 (R.CHP_CAL_TIME_LO c) v) (gapRegs c) ∧
      ((s.incSat (R.CHP_CAL_COUNT c) F.CHP_CAL_COUNT_COUNT).wr64 (R.CHP_CAL_TIME_LO c) v).ch = s.ch := by
  refine ⟨⟨by simp [MemKept], fun a _ ha => ?_, by simp, by simp⟩, by simp⟩
  simp only [gapRegs, List.mem_cons, List.not_mem_nil, or_false, not_or] at ha
  obtain ⟨hcount, hlo, hhi⟩ := ha
  refine (rd_wr_other _ _ _ _ hhi).trans ((rd_wr_other _ _ _ _ hlo).trans ?_)
  exact rd_incSat_other _ _ _ _ _ hcount

/-- Calibration words of a pseudo-channel are put into use. -/
def calStored (pc : Nat) (vals : List (Nat × Word)) (s : State) : State :=
  { s with ch := { s.ch with cal := SMap.setAll (fun _ => 0) (vals.map fun (v : Nat × Word) => (58 * pc + v.1, v.2)) s.ch.cal } }

/-- No words of the pseudo-channel wait for the bus gap any more, or no trained set either. -/
def calTaken (q : PCh) : PCh := { q with calVal := [] }
def setTaken (q : PCh) : PCh := { calTaken q with apply := none }

theorem applyTraining_none (h : (s.pch pc).apply = none) :
    s.applyTraining pc = (calStored pc (s.pch pc).calVal s).setPch pc (calTaken (s.pch pc)) := by
  unfold applyTraining
  dsimp only
  split
  next => rfl
  next h' => exact absurd (h.symm.trans h') (by simp)

theorem applyTraining_some {vals : List (Nat × Word)} (h : (s.pch pc).apply = some vals) : s.applyTraining pc =
    ((calStored pc vals (((calStored pc (s.pch pc).calVal s).setPch pc (calTaken (s.pch pc))).setPch pc
      (setTaken (s.pch pc)))).incSat (R.CHP_CAL_COUNT (pc / 2)) F.CHP_CAL_COUNT_COUNT).wr64 (R.CHP_CAL_TIME_LO (pc / 2)) s.ts := by
  unfold applyTraining
  dsimp only
  split
  next h' => exact absurd (h.symm.trans h') (by simp)
  next vals' h' =>
    have hvals : vals = vals' := Option.some.inj (h.symm.trans h')
    rw [hvals]
    rfl

theorem calStored_turn (h : Turn s t l) (pc : Nat) (vals : List (Nat × Word)) : Turn s (calStored pc vals t) l :=
  ⟨h.mem, h.regs, h.remap, h.handed⟩

theorem applyTraining_spec (s : State) (pc : Nat) :
    Turn s (s.applyTraining pc) (gapRegs (pc / 2)) ∧ SameWork (s.pch pc) ((s.applyTraining pc).pch pc) := by
  cases h : (s.pch pc).apply with
  | none =>
    rw [applyTraining_none h, setPch_pch]
    exact ⟨(calStored_turn (Turn.refl s) _ _).setPch _ _, rfl, rfl, rfl, rfl, rfl, rfl, rfl⟩
  | some vals =>
    rw [applyTraining_some h]
    have hpch : (calStored pc vals (((calStored pc (s.pch pc).calVal s).setPch pc (calTaken (s.pch pc))).setPch pc
      (setTaken (s.pch pc)))).pch pc = setTaken (s.pch pc) := setPch_pch _ _ _
    have hturn := calStored_turn (l := gapRegs (pc / 2)) (((calStored_turn (Turn.refl s) pc (s.pch pc).calVal).setPch pc (calTaken (s.pch pc))).setPch pc
      (setTaken (s.pch pc))) pc vals
    generalize calStored pc vals (((calStored pc (s.pch pc).calVal s).setPch pc (calTaken (s.pch pc))).setPch pc
      (setTaken (s.pch pc))) = u at hpch hturn
    obtain ⟨hcal, hch⟩ := calApplied_spec u (pc / 2) s.ts
    refine ⟨hturn.trans hcal, ?_⟩
    have hafter : ((u.incSat (R.CHP_CAL_COUNT (pc / 2)) F.CHP_CAL_COUNT_COUNT).wr64 (R.CHP_CAL_TIME_LO (pc / 2)) s.ts).pch pc =
        setTaken (s.pch pc) := by
      rw [← hpch]
      unfold pch
      rw [hch]
    rw [hafter]
    exact ⟨rfl, rfl, rfl, rfl, rfl, rfl, rfl⟩

theorem applyRemap_none (h : s.remapOf (pc / 2) = none) : s.applyRemap pc = s := by
  unfold remapOf at h
  unfold applyRemap
  rw [h]

theorem SameWork.trans {q t u : PCh} (h : SameWork q t) (h' : SameWork t u) : SameWork q u :=
  ⟨h'.banks.trans h.banks, h'.refs.trans h.refs, h'.rq.trans h.rq, h'.wq.trans h.wq, h'.flight.trans h.flight, h'.corr.trans h.corr,
    h'.scrub.trans h.scrub⟩

/-- The bus gap after a refresh, where values that wait are applied. -/
def gapEnd (s : State) (pc : Nat) : State := if s.gapWaits pc then ((s.openGap pc).applyTraining pc).applyRemap pc else s

theorem gapEnd_spec (h : s.remapOf (pc / 2) = none) :
    Turn s (s.gapEnd pc) (gapRegs (pc / 2)) ∧ SameWork (s.pch pc) ((s.gapEnd pc).pch pc) := by
  unfold gapEnd
  split
  · obtain ⟨hopen, hgap⟩ := openGap_spec s pc
    obtain ⟨htrain, hwork⟩ := applyTraining_spec (s.openGap pc) pc
    have hturn : Turn s ((s.openGap pc).applyTraining pc) (gapRegs (pc / 2)) := (hopen.mono (by simp)).trans htrain
    have hremap : ((s.openGap pc).applyTraining pc).remapOf (pc / 2) = none := by
      unfold remapOf
      rw [hturn.remap]
      exact h
    rw [applyRemap_none hremap]
    exact ⟨hturn, hgap.trans hwork⟩
  · exact ⟨Turn.refl s, SameWork.refl _⟩

/-- A due refresh is counted, and its bank's tracker starts again when its counter wraps. -/
theorem rowEffect_ref {x : Refresh} (h : x.row = none) : ∃ t, s.rowEffect pc k false (.ref x) = t ∧ MemKept s t ∧
    t.ch.remap = s.ch.remap ∧ t.fcol.handed = s.fcol.handed ∧ t.pch pc = s.pch pc ∧ t.rd64 R.RFM_REF_LO = s.rd64 R.RFM_REF_LO + 1 := by
  have hinc : MemKept s (s.inc64 R.RFM_REF_LO) := by simp [MemKept]
  have hpch := inc64_pch s R.RFM_REF_LO 1 pc
  have hrd : (s.inc64 R.RFM_REF_LO).rd64 R.RFM_REF_LO = s.rd64 R.RFM_REF_LO + 1 := rd64_inc64 ..
  have hremap : (s.inc64 R.RFM_REF_LO).ch.remap = s.ch.remap := by simp
  have hhanded : (s.inc64 R.RFM_REF_LO).fcol.handed = s.fcol.handed := by simp
  refine ⟨_, rfl, ?_⟩
  unfold rowEffect
  dsimp only
  rw [h]
  dsimp only
  generalize s.inc64 R.RFM_REF_LO = u at hinc hpch hrd hremap hhanded
  split
  · exact ⟨hinc, hremap, hhanded, hpch, hrd⟩
  · exact ⟨hinc, hremap, hhanded, hpch, hrd⟩

/-- A due refresh is issued. -/
theorem Awake.refresh {r : Refresh} (h : Awake s ch p k x) (hrq : x.rq = []) (hwq : x.wq = []) (hcorr : x.corr = [])
    (hrefs : x.refs = [r]) (hdue : r.due = true) (hrow : r.row = none) (hremap : s.remapOf ch = none)
    (hc : (x.tick (s.timing k ch)).canRef (s.timing k ch) r.bank = true) :
    ∃ t, s.dramClock ch p.toNat false = t ∧ MemKept s t ∧ t.ch.remap = s.ch.remap ∧ t.fcol.handed = s.fcol.handed ∧
      SameWork ((x.tick (s.timing k ch)).afterRow (.ref r)) (t.pch (2 * ch + p.toNat)) ∧
      t.rd64 R.RFM_REF_LO = s.rd64 R.RFM_REF_LO + 1 := by
  obtain ⟨u, hturn, hpch, heq⟩ := h.begins
  generalize s.modeNow k (x.tick (s.timing k ch)) = m at hpch
  have hcand (smax urg : Nat) : (u.pch (2 * ch + p.toNat)).chooseRow (s.timing k ch) smax urg = some (.ref r) := by
    have hfilter : ({ x.tick (s.timing k ch) with writeMode := m } : PCh).refs.filter Refresh.due = [r] := by
      have hr : ({ x.tick (s.timing k ch) with writeMode := m } : PCh).refs = [r] := hrefs
      rw [hr, List.filter_cons_of_pos hdue, List.filter_nil]
    have hfirst : ({ x.tick (s.timing k ch) with writeMode := m } : PCh).refCandidate (s.timing k ch) r = some (.ref r) := if_pos hc
    rw [hpch]
    unfold PCh.chooseRow
    rw [hfilter, List.findSome?_cons, hfirst]
  have hissue : u.rowStep (2 * ch + p.toNat) k (s.timing k ch) false =
      (((u.setPch (2 * ch + p.toNat) ((u.pch (2 * ch + p.toNat)).afterRow (.ref r))).rowEffect (2 * ch + p.toNat) k false (.ref r)).gapEnd
        (2 * ch + p.toNat)) := rowStep_some false (hcand _ _)
  obtain ⟨v, hv, vmem, vremap, vhanded, vpch, vcount⟩ := rowEffect_ref (pc := 2 * ch + p.toNat) (k := k)
    (s := u.setPch (2 * ch + p.toNat) ((u.pch (2 * ch + p.toNat)).afterRow (.ref r))) hrow
  rw [hv] at hissue
  rw [setPch_pch, hpch] at vpch
  have hhalf : (2 * ch.val + p.toNat) / 2 = ch := by
    have := p.toNat_lt
    omega
  have vnone : v.remapOf ((2 * ch + p.toNat) / 2) = none := by
    rw [hhalf]
    unfold remapOf
    rw [vremap]
    exact (congrArg (fun l => SMap.get (fun _ => none) l ch.val) hturn.remap).trans hremap
  obtain ⟨hgap, hwork⟩ := gapEnd_spec vnone
  rw [vpch] at hwork
  have hcount (b : Nat) (hb : b = 0 ∨ b = 4) : (v.gapEnd (2 * ch + p.toNat)).rd (R.RFM_REF_LO + b) = v.rd (R.RFM_REF_LO + b) := by
    refine hgap.regs _ (by simp) ?_
    simp only [gapRegs, List.mem_cons, List.not_mem_nil, or_false, R.CHP_CAL_COUNT, R.CHP_CAL_TIME_LO, R.RFM_REF_LO]
    omega
  have hmodes (b : Nat) (hb : b = 0 ∨ b = 4) : u.rd (R.RFM_REF_LO + b) = s.rd (R.RFM_REF_LO + b) := by
    refine hturn.regs _ (by simp) ?_
    simp only [List.mem_cons, List.not_mem_nil, or_false, R.CHC_WRITE_MODES, R.RFM_REF_LO]
    omega
  refine ⟨v.gapEnd (2 * ch + p.toNat), ?_, (hturn.mem.trans vmem).trans hgap.mem, ?_, ?_,
    ⟨hwork.banks, hwork.refs, hwork.rq, hwork.wq, hwork.flight, hwork.corr, hwork.scrub⟩, ?_⟩
  · rw [heq, issueBoth_row false (by rw [hpch]; exact Nat.le_succ_of_le h.wake), hissue]
    intro smax urg
    rw [hissue]
    refine PCh.chooseCol_none (fun y hy => ?_) (hwork.scrub.trans h.scrub) (hwork.corr.trans hcorr)
    rw [hwork.rq.trans hrq, hwork.wq.trans hwq] at hy
    exact absurd hy List.not_mem_nil
  · exact hgap.remap.trans (vremap.trans hturn.remap)
  · exact hgap.handed.trans (vhanded.trans hturn.handed)
  · rw [rd64_congr (hcount 0 (.inl rfl)) (hcount 4 (.inr rfl)), vcount]
    exact congrArg (· + 1) (rd64_congr (hmodes 0 (.inl rfl)) (hmodes 4 (.inr rfl)))

/-- The stamp and the row bits of a sample change neither stores nor registers nor channels. -/
theorem sampled_spec (s : State) (id n bits : Nat) : Turn s ((s.stamp id n).sampleWhere id bits) [] ∧
    ((s.stamp id n).sampleWhere id bits).ch = s.ch ∧ ((s.stamp id n).sampleWhere id bits).regs = s.regs :=
  ⟨⟨⟨rfl, rfl, rfl, rfl, rfl, rfl⟩, fun _ _ _ => rfl, rfl, rfl⟩, rfl, rfl⟩

/-- A sample taken of a read that is put in flight changes nothing of the DRAM and its channels. -/
theorem dramSchedule_sampled {c n : Nat} {y : DReq} (h : ((s.dramClock c n false).pch (2 * c + n)).flight = [y])
    (hf : (s.pch (2 * c + n)).flight = []) :
    Turn (s.dramClock c n false) (s.dramSchedule c n false) [] ∧ (s.dramSchedule c n false).ch = (s.dramClock c n false).ch ∧
      (s.dramSchedule c n false).regs = (s.dramClock c n false).regs := by
  unfold dramSchedule
  dsimp only
  rw [h, hf]
  simp only [List.length_nil, List.drop_zero, List.head?_cons]
  split
  · exact sampled_spec _ _ _ _
  · exact ⟨Turn.refl _, rfl, rfl⟩

/-- A channel without a controller has no clock. -/
theorem schedule_noCtrl {c n : Nat} {bad : Bool} (h : s.ctrlOf c = none) (hr : s.rowRep c = none) : s.schedule c n bad = s := by
  have hclock : s.dramClock c n bad = s := by
    unfold dramClock
    dsimp only
    rw [h]
  have hsame : s.dramSchedule c n bad = s := by
    unfold dramSchedule
    dsimp only
    rw [hclock, List.drop_length]
    rfl
  unfold schedule scheduleHeld
  rw [hr]
  dsimp only
  rw [hsame, ite_self]

end State
end Sys2Proof.Machine

namespace Sys2Proof.Safety
open Sys2Proof.Machine Sys2Proof.Machine.State

/-- A write of the open row is performed. -/
theorem dramSchedule_write (s : State) (c : Fin 32) (p : Bool) (k : Nat) (x : PCh) (r : DReq) (h : Awake s c p k x) (hrq : x.rq = [])
    (hwq : x.wq = [r]) (hrefs : x.refs = []) (hf : x.flight = []) (hw : r.write = true) (hpc : fPc r.f = 2 * c + p.toNat)
    (hst : ((x.tick (s.timing k c)).bank r.bank).st = 2) (hc : (x.tick (s.timing k c)).canWrite (s.timing k c) r = true)
    (ho : (x.tick (s.timing k c)).colOpen (s.timing k c) r = true) (hs : (x.bank r.bank).streak < s.streakMax k) :
    Gives (.dramSchedule c p false) s fun t =>
      t.dramRead r.f r.o = r.line ∧ (∀ o : Fin 1024, o.val ≠ r.o → t.dramRead r.f o = s.dramRead r.f o) ∧
        (t.pch (2 * c + p.toNat)).wq = [] ∧ (t.pch (2 * c + p.toNat)).corr.all (fun y => !DReq.at_ y r.f r.o) = true ∧
        t.rd64 (R.CHC_WRITES_LO k) = s.rd64 (R.CHC_WRITES_LO k) + 1 ∧
        t.place.table = s.place.table ∧ t.cache = s.cache ∧ t.wdb = s.wdb := by
  obtain ⟨v, hturn, hvwq, hvf, hpage, heq⟩ := h.write hrq hwq hrefs hf hw hpc hst hc ho hs
  obtain ⟨tpch, tread, tcache, twdb, ttable, tret, thanded, tremap, tcount⟩ := putWord_spec v r.f r.o r.line
  rw [hpc] at tpch
  rw [hpage] at tcount
  rw [← heq] at tpch tread tcache twdb ttable tret thanded tremap tcount
  have hafter := h.exec_eq (by rw [tpch]; unfold overtaken; rw [hvf]; simp) (tremap.trans hturn.remap) (thanded.trans hturn.handed)
    (tret.trans hturn.retiring)
  refine gives_of_eq rfl hafter ⟨?_, fun o ho => ?_, ?_, ?_, ?_, ?_, ?_, ?_⟩
  · rw [tread, if_pos rfl]
  · rw [tread, if_neg (by omega), hturn.dramRead]
  · rw [tpch]
    exact hvwq
  · rw [tpch]
    exact List.all_eq_true.mpr fun y hy => (List.mem_filter.mp hy).2
  · rw [tcount, hturn.rd64_same (.inr rfl)]
  · rw [ttable, hturn.mem.place_eq]
  · exact tcache.trans hturn.mem.2.1
  · exact twdb.trans hturn.mem.2.2.1

/-- A read of the open row takes the stored line with it. -/
theorem dramSchedule_read (s : State) (c : Fin 32) (p : Bool) (k : Nat) (x : PCh) (r : DReq) (h : Awake s c p k x) (hrq : x.rq = [r])
    (hwq : x.wq = []) (hrefs : x.refs = []) (hf : x.flight = []) (hw : r.write = false) (hm : x.writeMode = false)
    (hst : ((x.tick (s.timing k c)).bank r.bank).st = 2) (hc : (x.tick (s.timing k c)).canRead (s.timing k c) r = true)
    (ho : (x.tick (s.timing k c)).colOpen (s.timing k c) r = true) (hs : (x.bank r.bank).streak < s.streakMax k) :
    Gives (.dramSchedule c p false) s fun t =>
      (t.pch (2 * c + p.toNat)).flight = [{ r with line := s.dramRead r.f r.o }] ∧ (t.pch (2 * c + p.toNat)).rq = [] ∧
        t.rd64 (R.CHC_READS_LO k) = s.rd64 (R.CHC_READS_LO k) + 1 ∧ MemKept s t := by
  obtain ⟨v, hturn, hvrq, hvf, heq⟩ := h.read hrq hwq hrefs hf hw hm hst hc ho hs
  have hpch : (s.dramClock c p.toNat false).pch (2 * c + p.toNat) = v.pch (2 * c + p.toNat) := by
    rw [heq, inc64_pch]
  obtain ⟨hsample, hch, hregs⟩ := dramSchedule_sampled (hpch ▸ hvf) (h.eq ▸ hf)
  have hafter : s.afterClock (s.schedule c p.toNat false) c = s.dramSchedule c p.toNat false := by
    rw [h.schedule_eq]
    refine afterClock_self ?_ ?_ ?_
    · rw [hch, heq, inc64_ch, hturn.remap]
    · rw [hsample.handed, heq, inc64_fcol_handed, hturn.handed, h.quiet.1]
    · rw [hsample.retiring, heq, inc64_place, hturn.retiring, h.quiet.2]
  have hall : (s.dramSchedule c p.toNat false).pch (2 * c + p.toNat) = v.pch (2 * c + p.toNat) := by
    rw [← hpch]
    unfold pch
    rw [hch]
  refine gives_of_eq rfl hafter ⟨?_, ?_, ?_, ?_⟩
  · rw [hall, hvf]
  · rw [hall, hvrq]
  · rw [rd64_congr (rd_eq_of_regs hregs _) (rd_eq_of_regs hregs _), heq]
    exact (rd64_inc64 ..).trans (congrArg (· + 1) (hturn.rd64_same (.inl rfl)))
  · exact (hturn.mem.trans ⟨by simp [heq], by simp [heq], by simp [heq], by simp [heq], by simp [heq], by simp [heq]⟩).trans hsample.mem

/-- A closed bank is activated for the one read. -/
theorem dramSchedule_activate (s : State) (c : Fin 32) (p : Bool) (k : Nat) (x : PCh) (r : DReq) (h : Awake s c p k x)
    (hrq : x.rq = [r]) (hwq : x.wq = []) (hrefs : x.refs = []) (hf : x.flight = []) (hcorr : x.corr = []) (hw : r.write = false)
    (hm : x.writeMode = false) (hst : ((x.tick (s.timing k c)).bank r.bank).st = 0)
    (hc : (x.tick (s.timing k c)).canAct (s.timing k c) r = true) (ho : (x.tick (s.timing k c)).colOpen (s.timing k c) r = true) :
    Gives (.dramSchedule c p false) s fun t =>
      ((t.pch (2 * c + p.toNat)).bank r.bank).st = 1 ∧ ((t.pch (2 * c + p.toNat)).bank r.bank).row = r.row ∧
        ((t.pch (2 * c + p.toNat)).bank r.bank).act = x.now + 1 ∧ (t.pch (2 * c + p.toNat)).rq = [{ r with acted := true }] ∧
        t.rd (R.CHC_ACTIVATES k) = s.rd (R.CHC_ACTIVATES k) + 1 ∧ MemKept s t := by
  obtain ⟨hturn, hrd, l, hpch⟩ := h.activate hrq hwq hrefs hf hcorr hw hm hst hc ho
  have hbank : (((x.tick (s.timing k c)).afterRow (.act r)).bank r.bank) = PCh.activated (x.tick (s.timing k c)) r :=
    (PCh.afterRow_act_bank _ r _).trans (if_pos rfl)
  refine gives_of_eq rfl (h.exec_eq (by rw [hpch]; exact Nat.le_refl _) hturn.remap hturn.handed hturn.retiring) ?_
  rw [hpch]
  exact ⟨congrArg BankSt.st hbank, congrArg BankSt.row hbank, congrArg BankSt.act hbank, (afterRow_act_queues hrq hwq).1, hrd, hturn.mem⟩

/-- Another open row of the bank is closed for the one read. -/
theorem dramSchedule_precharge (s : State) (c : Fin 32) (p : Bool) (k : Nat) (x : PCh) (r : DReq) (h : Awake s c p k x)
    (hrq : x.rq = [r]) (hwq : x.wq = []) (hrefs : x.refs = []) (hf : x.flight = []) (hcorr : x.corr = []) (hw : r.write = false)
    (hm : x.writeMode = false) (hst : ((x.tick (s.timing k c)).bank r.bank).st = 2)
    (hne : ((x.tick (s.timing k c)).bank r.bank).row ≠ r.row) (hc : (x.tick (s.timing k c)).canPre (s.timing k c) r.bank = true)
    (ho : (x.tick (s.timing k c)).colOpen (s.timing k c) r = true) :
    Gives (.dramSchedule c p false) s fun t =>
      ((t.pch (2 * c + p.toNat)).bank r.bank).st = 3 ∧ ((t.pch (2 * c + p.toNat)).bank r.bank).pre = x.now + 1 ∧
        t.rd (R.CHC_CONFLICTS k) = s.rd (R.CHC_CONFLICTS k) + 1 ∧ MemKept s t := by
  obtain ⟨hturn, hrd, hpch⟩ := h.precharge hrq hwq hrefs hf hcorr hw hm hst hne hc ho
  have hbank : ((x.tick (s.timing k c)).afterRow (.pre r.bank true)).bank r.bank = PCh.precharged (x.tick (s.timing k c)) r.bank :=
    (PCh.afterRow_pre_bank _ r.bank true _).trans (if_pos rfl)
  refine gives_of_eq rfl (h.exec_eq (by rw [hpch]; exact Nat.le_refl _) hturn.remap hturn.handed hturn.retiring) ?_
  rw [hpch]
  exact ⟨congrArg BankSt.st hbank, congrArg BankSt.pre hbank, hrd, hturn.mem⟩

/-- The one refresh, which is due, is issued. -/
theorem dramSchedule_refresh (s : State) (c : Fin 32) (p : Bool) (k : Nat) (x : PCh) (r : Refresh) (h : Awake s c p k x)
    (hrq : x.rq = []) (hwq : x.wq = []) (hcorr : x.corr = []) (hrefs : x.refs = [r]) (hdue : r.due = true) (hrow : r.row = none)
    (hremap : s.remapOf c = none) (hc : (x.tick (s.timing k c)).canRef (s.timing k c) r.bank = true) :
    Gives (.dramSchedule c p false) s fun t =>
      ((t.pch (2 * c + p.toNat)).bank r.bank).st = 4 ∧ ((t.pch (2 * c + p.toNat)).bank r.bank).ref = x.now + 1 ∧
        (t.pch (2 * c + p.toNat)).refs = [] ∧ t.rd64 R.RFM_REF_LO = s.rd64 R.RFM_REF_LO + 1 ∧ MemKept s t := by
  obtain ⟨t, heq, tmem, tremap, thanded, twork, tcount⟩ := h.refresh hrq hwq hcorr hrefs hdue hrow hremap hc
  have hbank : (t.pch (2 * c + p.toNat)).bank r.bank =
      PCh.refreshed (x.tick (s.timing k c)) r.bank :=
    (congrArg (fun l => SMap.get (fun _ => ({} : BankSt)) l r.bank) twork.banks).trans (PCh.afterRow_ref_bank _ r)
  have hrefs' : (t.pch (2 * c + p.toNat)).refs = [] := by
    refine twork.refs.trans ?_
    have herase : ((x.tick (s.timing k c)).afterRow (.ref r)).refs = x.refs.erase r := rfl
    rw [herase, hrefs, List.erase_cons_head]
  have hafter := h.exec_eq (by rw [heq, twork.flight]; exact Nat.le_refl _) (by rw [heq, tremap]) (by rw [heq, thanded])
    (by rw [heq, tmem.place_eq])
  rw [heq] at hafter
  exact gives_of_eq rfl hafter ⟨congrArg BankSt.st hbank, congrArg BankSt.ref hbank, hrefs', tcount, tmem⟩

/-- Without a controller nothing happens. -/
theorem dramSchedule_noCtrl (s : State) (c : Fin 32) (p bad : Bool) (h : s.ctrlOf c = none) (hr : s.rowRep c = none) (hq : Quiet s) :
    exec (.dramSchedule c p bad) s = .next s := by
  refine congrArg Host.Outcome.next ?_
  rw [schedule_noCtrl h hr]
  exact afterClock_self rfl hq.1 hq.2

/-- Settles O29: the clock of a pseudo-channel with one request chooses the same column command whatever row of another bank is
opened for a correction. -/
theorem dramSchedule : Obligations.DramSchedule := by
  refine ⟨?_, ?_, ?_, ?_, ?_, dramSchedule_noCtrl⟩
  · intro s c p k x r q ho hrep hctrl hlive hquiet hx hrq hwq hscrub hrefs hf hpd hwake hw hpc hq hst hc hcol hs
    subst hq
    exact dramSchedule_write s c p k x r ⟨ho, hrep, hctrl, hlive, hquiet, hx, hscrub, hpd, hwake⟩ hrq hwq hrefs hf hw hpc hst hc hcol hs
  · intro s c p k x r q ho hrep hctrl hlive hquiet hx hrq hwq hscrub hrefs hf hpd hwake hw _ hm hq hc hst hcol hs
    subst hq
    exact dramSchedule_read s c p k x r ⟨ho, hrep, hctrl, hlive, hquiet, hx, hscrub, hpd, hwake⟩ hrq hwq hrefs hf hw hm hst hc hcol hs
  · intro s c p k x r q ho hrep hctrl hlive hquiet hx hrq hwq hscrub hcorr hrefs hf hpd hwake hw hm hq hst hc hcol
    subst hq
    exact dramSchedule_activate s c p k x r ⟨ho, hrep, hctrl, hlive, hquiet, hx, hscrub, hpd, hwake⟩ hrq hwq hrefs hf hcorr hw hm hst hc hcol
  · intro s c p k x r q ho hrep hctrl hlive hquiet hx hrq hwq hscrub hcorr hrefs hf hpd hwake hw hm hq hst hne hc hcol
    subst hq
    exact dramSchedule_precharge s c p k x r ⟨ho, hrep, hctrl, hlive, hquiet, hx, hscrub, hpd, hwake⟩ hrq hwq hrefs hf hcorr hw hm hst hne
      hc hcol
  · intro s c p k x r q ho hrep hctrl hlive hquiet hx hrq hwq hscrub hcorr hrefs hpd hwake hdue hrow hremap hq hc
    subst hq
    exact dramSchedule_refresh s c p k x r ⟨ho, hrep, hctrl, hlive, hquiet, hx, hscrub, hpd, hwake⟩ hrq hwq hcorr hrefs hdue hrow hremap hc

end Sys2Proof.Safety
end

section
/-! SUPPORT. Commands of the cache's control register, and its background work (R173, R180, R181). -/

namespace Sys2Proof.Machine
open Sys2Proof.Laws Sys2Proof.Safety

namespace State

variable {s t u : State} {path : Path} {j j' : FlushJob} {v : Word}

/-! ### A flush starts -/

/-- The flush that runs after one more is asked for. -/
def mergedJob (old : Option FlushJob) (j : FlushJob) : FlushJob :=
  match old, j with
  | some .disable, _ => .disable
  | some .invalidate, .flush => .invalidate
  | _, j => j

/-- A state whose cache has a flush that has done no quadrant. -/
def jobSet (s : State) (j : FlushJob) : State := { s with cache := { s.cache with job := some j, jobDone := [] } }

theorem flushStart_on (h : s.cacheOn = true) (j : FlushJob) : s.flushStart j = (s.jobSet (mergedJob s.cache.job j)).setFlushing := by
  unfold flushStart
  rw [h]
  rfl

/-- A flush has started: its job runs, no quadrant is done, and only the status register shows it. -/
structure Started (s t : State) (j : FlushJob) : Prop where
  job : t.cache.job = some j
  jobDone : t.cache.jobDone = []
  flushing : t.on R.CACHE_CACHE_STAT F.CACHE_CACHE_STAT_FLUSHING = true
  cacheOn : t.cacheOn = s.cacheOn
  tags : t.cache.tags = s.cache.tags
  data : t.cache.data = s.cache.data
  place : t.place = s.place
  dram : t.dram = s.dram
  wdb : t.wdb = s.wdb
  otp : t.otp = s.otp

theorem flushStart_started (h : s.cacheOn = true) (j : FlushJob) : Started s (s.flushStart j) (mergedJob s.cache.job j) := by
  rw [flushStart_on h]
  exact {
    job := rfl, jobDone := rfl
    flushing := (on_flag_same _ _ _ _ (by decide) rfl).trans rfl
    cacheOn := on_flag_other _ _ _ _ _ _ (.inr (by decide))
    tags := rfl, data := rfl, place := rfl, dram := rfl, wdb := rfl, otp := rfl }

theorem Started.next (h : Started s t j) (hon : s.cacheOn = true) (j' : FlushJob) :
    Started s (t.flushStart j') (mergedJob (some j) j') := by
  have hnext := flushStart_started (h.cacheOn.trans hon) j'
  rw [h.job] at hnext
  exact {
    job := hnext.job, jobDone := hnext.jobDone, flushing := hnext.flushing, cacheOn := hnext.cacheOn.trans h.cacheOn
    tags := hnext.tags.trans h.tags, data := hnext.data.trans h.data, place := hnext.place.trans h.place
    dram := hnext.dram.trans h.dram, wdb := hnext.wdb.trans h.wdb, otp := hnext.otp.trans h.otp }

theorem flushStart_calm (h : Calm s) (j : FlushJob) : Calm (s.flushStart j) := by
  unfold flushStart
  split
  · exact h
  · exact h.of_parts rfl rfl rfl rfl

theorem cacheEnable_calm (h : Calm s) (b : Bool) : Calm (s.cacheEnable b) := by
  unfold cacheEnable
  split
  · split
    · exact h
    · exact flag_calm (flag_calm h)
  · exact flushStart_calm h .disable

theorem Started.settle (h : Started s t j) (hcalm : Calm t) : Started s t.settle j := by
  have hcache := settle_cache hcalm
  exact {
    job := by rw [hcache, h.job]
    jobDone := by rw [hcache, h.jobDone]
    flushing := (on_eq_of_rd (settle_rd hcalm _ (by decide)) _).trans h.flushing
    cacheOn := (on_eq_of_rd (settle_rd hcalm _ (by decide)) _).trans h.cacheOn
    tags := by rw [hcache, h.tags]
    data := by rw [hcache, h.data]
    place := (settle_place hcalm).trans h.place
    dram := (settle_dram hcalm).trans h.dram
    wdb := (settle_wdb hcalm).trans h.wdb
    otp := (settle_otp hcalm).trans h.otp }

/-! ### A write of the control register -/

/-- What a write of the control register stores. -/
def ctlWord (s : State) (v : Word) : Word := (s.rd R.CACHE_CACHE_CTL &&& ~~~0xFF0F07#32) ||| (v &&& 0xFF0F07#32)

/-- The control register is stored. -/
def ctlStored (s : State) (v : Word) : State := s.wr R.CACHE_CACHE_CTL (s.ctlWord v)

theorem ctlStored_on (s : State) (v : Word) (f : Fld) : (s.ctlStored v).on R.CACHE_CACHE_STAT f = s.on R.CACHE_CACHE_STAT f :=
  on_eq_of_rd (rd_wr_other _ _ _ _ (by decide)) f

/-- The control register is stored, and the flushes that its action bits ask for start. -/
def ctlFlushed (s : State) (v : Word) : State :=
  let t := if F.CACHE_CACHE_CTL_FLUSH.get v = 1 then (s.ctlStored v).flushStart .flush else s.ctlStored v
  if F.CACHE_CACHE_CTL_INVALIDATE.get v = 1 then t.flushStart .invalidate else t

theorem cacheCtl_write (v : Word) (ho : Open s path R.CACHE_CACHE_CTL) : s.regCmd path R.CACHE_CACHE_CTL v =
    ((s.ctlFlushed v).cacheEnable (decide (F.CACHE_CACHE_CTL_ENABLE.get v = 1))).settle := by
  have hflush : F.CACHE_CACHE_CTL_FLUSH.get (v &&& 0x18#32) = F.CACHE_CACHE_CTL_FLUSH.get v := Fld.get_and v (by decide)
  have hinv : F.CACHE_CACHE_CTL_INVALIDATE.get (v &&& 0x18#32) = F.CACHE_CACHE_CTL_INVALIDATE.get v := Fld.get_and v (by decide)
  have hen : F.CACHE_CACHE_CTL_ENABLE.get (s.ctlWord v) = F.CACHE_CACHE_CTL_ENABLE.get v := Fld.get_merge _ _ (by decide)
  have hoff : offOf R.CACHE_CACHE_CTL = 0x40 := by decide
  have hcur : s.cur R.CACHE_CACHE_CTL = s.rd R.CACHE_CACHE_CTL := rfl
  have hword : (s.rd R.CACHE_CACHE_CTL &&& ~~~0xFF0F07#32) ||| (v &&& 0xFF0F07#32) = s.ctlWord v := rfl
  rw [regCmd_plain (m := 0xFF0F07#32) (c := 0x18#32) v ho (by decide) rfl rfl, regEffect_cache (by decide) (by decide),
    afterWrite_settle (by decide), hoff, hcur]
  unfold wrCache
  rw [if_pos rfl, hflush, hinv, hword, hen]
  rfl

theorem ctlFlushed_calm (h : Calm s) (v : Word) : Calm (s.ctlFlushed v) := by
  have hstored : Calm (s.ctlStored v) := h.of_parts rfl rfl rfl rfl
  have hflush : Calm (if F.CACHE_CACHE_CTL_FLUSH.get v = 1 then (s.ctlStored v).flushStart .flush else s.ctlStored v) := by
    split
    · exact flushStart_calm hstored _
    · exact hstored
  unfold ctlFlushed
  dsimp only
  split
  · exact flushStart_calm hflush _
  · exact hflush

/-- The control register's stored bits change nothing that a flush starts from. -/
theorem Started.ofStored (h : Started (s.ctlStored v) t j) : Started s t j := {
  job := h.job, jobDone := h.jobDone, flushing := h.flushing, cacheOn := h.cacheOn.trans (ctlStored_on s v _)
  tags := h.tags, data := h.data, place := h.place, dram := h.dram, wdb := h.wdb, otp := h.otp }

theorem Started.enable (h : Started s t j) (hon : s.cacheOn = true) (b : Bool) :
    Started s (t.cacheEnable b) (if b then j else mergedJob (some j) .disable) := by
  cases b with
  | true =>
    have hsame : t.cacheEnable true = t := by
      unfold cacheEnable
      rw [h.cacheOn.trans hon]
      rfl
    rw [hsame]
    exact h
  | false => exact h.next hon .disable

theorem ctlFlushed_flush (hon : s.cacheOn = true) (hjob : s.cache.job = none) (hf : F.CACHE_CACHE_CTL_FLUSH.get v = 1) :
    Started s (s.ctlFlushed v) (if F.CACHE_CACHE_CTL_INVALIDATE.get v = 1 then .invalidate else .flush) := by
  have hstart := (flushStart_started (s := s.ctlStored v) ((ctlStored_on ..).trans hon) .flush).ofStored
  have hmerged : mergedJob (s.ctlStored v).cache.job .flush = .flush := congrArg (mergedJob · .flush) hjob
  rw [hmerged] at hstart
  unfold ctlFlushed
  rw [if_pos hf]
  dsimp only
  split
  · exact hstart.next hon .invalidate
  · exact hstart

theorem ctlFlushed_invalidate (hon : s.cacheOn = true) (hjob : s.cache.job = none) (hi : F.CACHE_CACHE_CTL_INVALIDATE.get v = 1) :
    Started s (s.ctlFlushed v) .invalidate := by
  unfold ctlFlushed
  rw [if_pos hi]
  split
  · have hstart := (flushStart_started (s := s.ctlStored v) ((ctlStored_on ..).trans hon) .flush).ofStored
    have hmerged : mergedJob (s.ctlStored v).cache.job .flush = .flush := congrArg (mergedJob · .flush) hjob
    rw [hmerged] at hstart
    exact hstart.next hon .invalidate
  · have hstart := (flushStart_started (s := s.ctlStored v) ((ctlStored_on ..).trans hon) .invalidate).ofStored
    have hmerged : mergedJob (s.ctlStored v).cache.job .invalidate = .invalidate := congrArg (mergedJob · .invalidate) hjob
    rw [hmerged] at hstart
    exact hstart

/-- Whatever flushes a write starts, one that clears ENABLE ends in the disabling of the cache. -/
theorem ctlFlushed_disable (hon : s.cacheOn = true) : ∃ j, Started s ((s.ctlFlushed v).cacheEnable false) j ∧ j = .disable := by
  have hany (t : State) (ht : t = s.ctlStored v ∨ ∃ j, Started s t j) (j' : FlushJob) : ∃ j, Started s (t.flushStart j') j := by
    rcases ht with rfl | ⟨j, h⟩
    · exact ⟨_, (flushStart_started ((ctlStored_on ..).trans hon) j').ofStored⟩
    · exact ⟨_, h.next hon j'⟩
  have hcases : s.ctlFlushed v = s.ctlStored v ∨ ∃ j, Started s (s.ctlFlushed v) j := by
    have hflush : ∀ t, t = (if F.CACHE_CACHE_CTL_FLUSH.get v = 1 then (s.ctlStored v).flushStart .flush else s.ctlStored v) →
        t = s.ctlStored v ∨ ∃ j, Started s t j := by
      rintro t rfl
      split
      · exact .inr (hany _ (.inl rfl) _)
      · exact .inl rfl
    unfold ctlFlushed
    dsimp only
    split
    · exact .inr (hany _ (hflush _ rfl) _)
    · exact hflush _ rfl
  have hmerged (old : Option FlushJob) : mergedJob old .disable = .disable := by
    unfold mergedJob
    split <;> simp_all
  have hfalse (t : State) : t.cacheEnable false = t.flushStart .disable := rfl
  rw [hfalse]
  rcases hcases with h | ⟨j, h⟩
  · rw [h]
    exact ⟨_, (flushStart_started ((ctlStored_on ..).trans hon) .disable).ofStored, hmerged _⟩
  · exact ⟨_, h.next hon .disable, hmerged _⟩

/-- The die is powered, and its use enabled. -/
def powered (s : State) : State :=
  (s.flag R.CACHE_CACHE_STAT F.CACHE_CACHE_STAT_ENABLED true).flag R.CACHE_CACHE_STAT F.CACHE_CACHE_STAT_PD_OFF false

theorem powered_cacheOn (s : State) : s.powered.cacheOn = true :=
  (on_flag_other _ _ _ _ _ _ (.inr (by decide))).trans (on_flag_same _ _ _ _ (by decide) rfl)

theorem powered_pdOff (s : State) : s.powered.on R.CACHE_CACHE_STAT F.CACHE_CACHE_STAT_PD_OFF = false :=
  on_flag_same _ _ _ _ (by decide) rfl

theorem powered_regs (h : RegsKept s t [0x014] [R.CACHE_CACHE_CTL, R.CACHE_CACHE_STAT]) :
    RegsKept s t.powered [0x014] [R.CACHE_CACHE_CTL, R.CACHE_CACHE_STAT] := (h.flag _ _ (.inl (by simp))).flag _ _ (.inl (by simp))

theorem powered_kept (s : State) : MemKept s s.powered := ⟨rfl, rfl, rfl, rfl, rfl, rfl⟩

theorem powered_calm (h : Calm s) : Calm s.powered := h.of_parts rfl rfl rfl rfl

theorem cacheEnable_powers (hoff : s.cacheOn = false) (hret : s.on R.CACHE_CACHE_STAT F.CACHE_CACHE_STAT_DIE_RETIRED = false) :
    s.cacheEnable true = s.powered := by
  unfold cacheEnable
  rw [hoff, hret]
  rfl

/-! ### The cache's background work -/

variable {m : LookupIn} {k q : Nat}

theorem runFills_none (h : s.cache.fillQ = []) (m : LookupIn) : s.runFills m = s := by
  unfold runFills
  rw [h]
  rfl

theorem checkTags_none (hm : NoErr m) (s : State) (f : Nat → Nat → Bool) : s.checkTags m f = s := by
  obtain ⟨-, htags, -⟩ := hm
  unfold checkTags
  rw [htags]
  split <;> rfl

theorem flushQuad_none (h : s.cache.job = none) (m : LookupIn) (q : Nat) : s.flushQuad m q = s := by
  unfold flushQuad
  rw [h]

/-- With no parcel to flush, none to prefetch and no migration, the work of a quadrant is its flush and its write-back. -/
theorem bgWork_eq (hfill : s.cache.fillQ = []) (u : State) (hu : bgDown m q ((s.flushQuad m q).cache.order.length + 1) (s.flushQuad m q) = u)
    (hflush : u.cache.flushQ = []) (hpre : u.cache.prefetchQ = []) (hmig : u.place.mig = []) : s.bgWork q m = u := by
  have hn : u.nocacheFlush m = u := by
    unfold nocacheFlush
    rw [hflush]
  have hp : u.prefetchOne m = u := by
    unfold prefetchOne
    rw [hpre]
  unfold bgWork
  rw [runFills_none hfill]
  dsimp only
  rw [hu, hn, hp, ite_self]
  exact closeChecks_self hmig

/-- A quadrant whose write-back runs or rests. -/
def bgSet (s : State) (q : Nat) (b : Bool) : State := { s with cache := { s.cache with bg := SMap.set (fun _ => false) q b s.cache.bg } }

/-- While CLEAN_EN is clear no sector is written back. -/
theorem bgDown_off (h : s.on R.CACHE_CACHE_CTL F.CACHE_CACHE_CTL_CLEAN_EN = false) (m : LookupIn) (q n : Nat) :
    bgDown m q (n + 1) s = s.bgSet q false := by
  have hone : s.bgWriteback m q = s.bgSet q false := by
    unfold bgWriteback
    dsimp only
    rw [h, Bool.and_false]
    rfl
  have hget : SMap.get (fun _ => false) (s.bgSet q false).cache.bg q = false :=
    SMap.get_set_same (fun _ => false) q false s.cache.bg
  unfold bgDown
  dsimp only
  rw [hone, hget]
  rfl

/-! ### A flush of clean sectors -/

theorem bgClean_clean (h : tDirty (s.tag k) = 0) (go : State → Nat → State) : s.bgClean k go = go s k := by
  unfold bgClean
  rw [h]
  rfl

theorem cleanWay_clean (h : tDirty (s.tag k) = 0) (m : LookupIn) : s.cleanWay m k = s := by
  unfold cleanWay
  rw [h]
  rfl

theorem flushWay_clean (h : tDirty (s.tag k) = 0) (m : LookupIn) : s.flushWay m k = s.setTag k 0 := by
  unfold flushWay
  rw [cleanWay_clean h]
  exact if_pos h

/-- Two states differ at most in the tags of the cache die. -/
structure TagsOnly (s t : State) : Prop where
  regs : t.regs = s.regs
  place : t.place = s.place
  dram : t.dram = s.dram
  wdb : t.wdb = s.wdb
  job : t.cache.job = s.cache.job
  jobDone : t.cache.jobDone = s.cache.jobDone
  flushQ : t.cache.flushQ = s.cache.flushQ
  prefetchQ : t.cache.prefetchQ = s.cache.prefetchQ

theorem TagsOnly.refl (s : State) : TagsOnly s s := ⟨rfl, rfl, rfl, rfl, rfl, rfl, rfl, rfl⟩

theorem TagsOnly.trans (h : TagsOnly s t) (h' : TagsOnly t u) : TagsOnly s u :=
  ⟨h'.regs.trans h.regs, h'.place.trans h.place, h'.dram.trans h.dram, h'.wdb.trans h.wdb, h'.job.trans h.job,
    h'.jobDone.trans h.jobDone, h'.flushQ.trans h.flushQ, h'.prefetchQ.trans h.prefetchQ⟩

/-- A clean sector leaves without a count of dirty lines. -/
theorem setTag_dropped (h : tDirty (s.tag k) = 0) : TagsOnly s (s.setTag k 0) := by
  have hdirty : tDirty (0 : BitVec 25) = tDirty (s.tag k) := by
    rw [h]
    rfl
  unfold setTag
  dsimp only
  rw [if_pos hdirty]
  exact ⟨rfl, rfl, rfl, rfl, rfl, rfl, rfl, rfl⟩

/-- Clean sectors that leave the die one after another. -/
def dropAll (l : List Nat) (s : State) : State := l.foldl (fun u k => u.setTag k 0) s

theorem dropAll_spec (l : List Nat) (s : State) (hd : ∀ k ∈ l, tDirty (s.tag k) = 0) :
    TagsOnly s (dropAll l s) ∧ ∀ k, (dropAll l s).tag k = if k ∈ l then 0 else s.tag k := by
  induction l generalizing s with
  | nil => exact ⟨TagsOnly.refl s, fun k => rfl⟩
  | cons j l ih =>
    have hnext : ∀ k ∈ l, tDirty ((s.setTag j 0).tag k) = 0 := by
      intro k hk
      rw [setTag_tag]
      split
      · rfl
      · exact hd k (List.mem_cons_of_mem _ hk)
    obtain ⟨honly, htag⟩ := ih (s.setTag j 0) hnext
    refine ⟨(setTag_dropped (hd j List.mem_cons_self)).trans honly, fun k => (htag k).trans ?_⟩
    rw [setTag_tag]
    by_cases hj : k = j
    · simp [hj]
    · simp [hj]

/-- One step of a flush in a way. -/
def flushStep (j : FlushJob) (m : LookupIn) (v : State) (k : Nat) : State := if j = .flush then v.cleanWay m k else v.flushWay m k

theorem flushSteps_clean (m : LookupIn) (j : FlushJob) (l : List Nat) (s : State) (hd : ∀ k ∈ l, tDirty (s.tag k) = 0) :
    l.foldl (fun u k => u.bgClean k (flushStep j m)) s = if j = .flush then s else dropAll l s := by
  induction l generalizing s with
  | nil => exact (ite_self s).symm
  | cons i l ih =>
    have hi : s.bgClean i (flushStep j m) = if j = .flush then s else s.setTag i 0 := by
      rw [bgClean_clean (hd i List.mem_cons_self)]
      unfold flushStep
      rw [cleanWay_clean (hd i List.mem_cons_self), flushWay_clean (hd i List.mem_cons_self)]
    rw [List.foldl_cons, hi]
    split
    next h => rw [ih s fun k hk => hd k (List.mem_cons_of_mem _ hk), if_pos h]
    next h =>
      rw [ih (s.setTag i 0), if_neg h]
      · rfl
      · intro k hk
        rw [setTag_tag]
        split
        · rfl
        · exact hd k (List.mem_cons_of_mem _ hk)

/-- The ways of a quadrant with a valid line. -/
def quadWays (s : State) (q : Nat) : List Nat := s.validWays.filter fun k => keyQuad k == q

theorem mem_quadWays (hq : keyQuad k = q) (hv : tValid (s.tag k) ≠ 0) : k ∈ s.quadWays q := by
  have hne : s.tag k ≠ 0 := fun h => hv (by rw [h]; rfl)
  have hmem : (k, s.tag k) ∈ s.cache.tags := SMap.mem_of_get hne
  refine List.mem_filter.mpr ⟨List.mem_map.mpr ⟨_, List.mem_filter.mpr ⟨hmem, decide_eq_true hv⟩, rfl⟩, ?_⟩
  rw [hq]
  exact beq_self_eq_true q

theorem quadWays_quad (h : k ∈ s.quadWays q) : keyQuad k = q := eq_of_beq (List.mem_filter.mp h).2

theorem tag_clean (h : ∀ e ∈ s.cache.tags, keyQuad e.1 = q → tDirty e.2 = 0) (hq : keyQuad k = q) : tDirty (s.tag k) = 0 := by
  by_cases hne : s.tag k = 0
  · rw [hne]
    rfl
  · exact h _ (SMap.mem_of_get hne) hq

/-- The quadrant is done. -/
def quadDone (s : State) (q : Nat) : State :=
  { s with cache := { s.cache with jobDone := if s.cache.jobDone.contains q then s.cache.jobDone else q :: s.cache.jobDone } }

/-- The sectors of a quadrant once a flush has gone through it. -/
def flushed (s : State) (j : FlushJob) (q : Nat) : State := if j = .flush then s else dropAll (s.quadWays q) s

theorem flushed_spec (j : FlushJob) (hd : ∀ e ∈ s.cache.tags, keyQuad e.1 = q → tDirty e.2 = 0) : TagsOnly s (s.flushed j q) ∧
    (∀ k, keyQuad k = q → tDirty ((s.flushed j q).tag k) = 0) ∧ (j = .flush → ∀ k, (s.flushed j q).tag k = s.tag k) ∧
    (j ≠ .flush → ∀ k, keyQuad k = q → tValid ((s.flushed j q).tag k) = 0) := by
  have hclean : ∀ k, keyQuad k = q → tDirty (s.tag k) = 0 := fun k hk => tag_clean hd hk
  unfold flushed
  split
  next h => exact ⟨TagsOnly.refl s, hclean, fun _ _ => rfl, fun hne => absurd h hne⟩
  next h =>
    obtain ⟨honly, htag⟩ := dropAll_spec (s.quadWays q) s fun k hk => hclean k (quadWays_quad hk)
    refine ⟨honly, fun k hk => ?_, fun hj => absurd hj h, fun _ k hk => ?_⟩
    · rw [htag]
      split
      · rfl
      · exact hclean k hk
    · rw [htag]
      split
      · rfl
      next hn => exact not_not.mp fun hv => hn (mem_quadWays hk hv)

/-- The flush ends with its last quadrant, whose sectors are clean. -/
theorem flushQuad_last {j : FlushJob} (hm : NoErr m) (hj : s.cache.job = some j) (hothers : ∀ p < 4, p ≠ q → p ∈ s.cache.jobDone)
    (hd : ∀ e ∈ s.cache.tags, keyQuad e.1 = q → tDirty e.2 = 0) : s.flushQuad m q = ((s.flushed j q).quadDone q).flushEnd := by
  obtain ⟨honly, hclean, -, -⟩ := flushed_spec j hd
  have hsteps : (s.quadWays q).foldl (fun u k => u.bgClean k (flushStep j m)) s = s.flushed j q :=
    flushSteps_clean m j (s.quadWays q) s fun k hk => tag_clean hd (quadWays_quad hk)
  have hany : ((s.flushed j q).quadWays q).any (fun k => tDirty ((s.flushed j q).tag k) != 0) = false := by
    refine List.any_eq_false.mpr fun k hk => ?_
    rw [hclean k (quadWays_quad hk)]
    decide
  have hdone : ([0, 1, 2, 3] : List Nat).all ((s.flushed j q).quadDone q).cache.jobDone.contains = true := by
    refine List.all_eq_true.mpr fun p hp => List.contains_iff_mem.mpr ?_
    have hp4 : p < 4 := by
      simp only [List.mem_cons, List.not_mem_nil, or_false] at hp
      omega
    have hset : ((s.flushed j q).quadDone q).cache.jobDone =
        if s.cache.jobDone.contains q then s.cache.jobDone else q :: s.cache.jobDone := by
      rw [← honly.jobDone]
      rfl
    rw [hset]
    by_cases hpq : p = q
    · rw [hpq]
      split
      next h => exact List.contains_iff_mem.mp h
      next => exact List.mem_cons_self
    · split
      · exact hothers p hp4 hpq
      · exact List.mem_cons_of_mem _ (hothers p hp4 hpq)
  have hform : s.flushQuad m q = (let u := (s.quadWays q).foldl (fun u k => u.bgClean k (flushStep j m)) s
      if (u.quadWays q).any fun k => tDirty (u.tag k) != 0 then u
      else if ([0, 1, 2, 3] : List Nat).all (u.quadDone q).cache.jobDone.contains then (u.quadDone q).flushEnd else u.quadDone q) := by
    unfold flushQuad
    rw [hj]
    dsimp only
    rw [checkTags_none hm]
    rfl
  rw [hform]
  dsimp only
  rw [hsteps, hany, hdone]
  rfl

/-- No flush runs. -/
def jobCleared (s : State) : State := { s with cache := { s.cache with job := none, jobDone := [] } }

/-- The use of the cache is disabled and its die powered off. -/
def unpowered (s : State) : State :=
  (s.flag R.CACHE_CACHE_STAT F.CACHE_CACHE_STAT_ENABLED false).flag R.CACHE_CACHE_STAT F.CACHE_CACHE_STAT_PD_OFF true

theorem unpowered_spec (s : State) : s.unpowered.cacheOn = false ∧ s.unpowered.on R.CACHE_CACHE_STAT F.CACHE_CACHE_STAT_PD_OFF = true ∧
    s.unpowered.on R.CACHE_CACHE_STAT F.CACHE_CACHE_STAT_FLUSHING = s.on R.CACHE_CACHE_STAT F.CACHE_CACHE_STAT_FLUSHING ∧
    s.unpowered.rd R.CACHE_CACHE_CTL = s.rd R.CACHE_CACHE_CTL := by
  refine ⟨?_, on_flag_same _ _ _ _ (by decide) rfl, ?_, ?_⟩
  · exact (on_flag_other _ _ _ _ _ _ (.inr (by decide))).trans (on_flag_same _ _ _ _ (by decide) rfl)
  · exact (on_flag_other _ _ _ _ _ _ (.inr (by decide))).trans (on_flag_other _ _ _ _ _ _ (.inr (by decide)))
  · exact (rd_wr_other _ _ _ _ (by decide)).trans (rd_wr_other _ _ _ _ (by decide))

/-- What the end of a flush leaves: no flush, and FLUSHING clear while no bank is scanned. -/
structure FlushOver (s t : State) : Prop where
  job : t.cache.job = none
  flushing : t.on R.CACHE_CACHE_STAT F.CACHE_CACHE_STAT_FLUSHING = false
  ctl : t.rd R.CACHE_CACHE_CTL = s.rd R.CACHE_CACHE_CTL
  tags : t.cache.tags = s.cache.tags
  flushQ : t.cache.flushQ = s.cache.flushQ
  prefetchQ : t.cache.prefetchQ = s.cache.prefetchQ
  place : t.place = s.place
  dram : t.dram = s.dram
  wdb : t.wdb = s.wdb

theorem FlushOver.unpowered (h : FlushOver s t) : FlushOver s t.unpowered := by
  obtain ⟨-, -, hflushing, hctl⟩ := unpowered_spec t
  exact ⟨h.job, hflushing.trans h.flushing, hctl.trans h.ctl, h.tags, h.flushQ, h.prefetchQ, h.place, h.dram, h.wdb⟩

theorem flushOver_cleared (hb : ∀ b : Fin 16, s.bankState b ≠ 1) : FlushOver s s.jobCleared.setFlushing := by
  have hnone : (ways.any fun b => decide (s.bankState b = 1)) = false := by
    refine List.any_eq_false.mpr fun b hb' => ?_
    have hb16 : b < 16 := by
      simp only [ways, List.mem_cons, List.not_mem_nil, or_false] at hb'
      omega
    rw [decide_eq_false (hb ⟨b, hb16⟩)]
    decide
  have hflag : s.jobCleared.setFlushing = s.jobCleared.flag R.CACHE_CACHE_STAT F.CACHE_CACHE_STAT_FLUSHING
      (ways.any fun b => decide (s.bankState b = 1)) := rfl
  rw [hflag, hnone]
  exact ⟨rfl, on_flag_same _ _ _ _ (by decide) rfl, rd_wr_other _ _ _ _ (by decide), rfl, rfl, rfl, rfl, rfl, rfl⟩

theorem flushEnd_spec (hb : ∀ b : Fin 16, s.bankState b ≠ 1) : FlushOver s s.flushEnd ∧
    (s.cache.job = some .disable → s.on R.CACHE_CACHE_CTL F.CACHE_CACHE_CTL_ENABLE = false →
      s.flushEnd.cacheOn = false ∧ s.flushEnd.on R.CACHE_CACHE_STAT F.CACHE_CACHE_STAT_PD_OFF = true) := by
  have hover := flushOver_cleared hb
  have hform : s.flushEnd = if s.disabling && !s.on R.CACHE_CACHE_CTL F.CACHE_CACHE_CTL_ENABLE then s.jobCleared.setFlushing.unpowered
      else s.jobCleared.setFlushing := rfl
  constructor
  · rw [hform]
    split
    · exact hover.unpowered
    · exact hover
  · intro hj he
    obtain ⟨hoff, hpd, -, -⟩ := unpowered_spec s.jobCleared.setFlushing
    have hd : s.disabling = true := decide_eq_true hj
    rw [hform, hd, he]
    exact ⟨hoff, hpd⟩

/-! ### Dirty lines written back -/

/-- What the write-back of a line keeps: the OTP array, the placement while nothing migrates, the tags and the queued work. -/
structure CleanKept (s t : State) : Prop where
  otp : t.otp = s.otp
  place : t.place = s.place
  tags : t.cache.tags = s.cache.tags
  flushQ : t.cache.flushQ = s.cache.flushQ
  prefetchQ : t.cache.prefetchQ = s.cache.prefetchQ

theorem CleanKept.refl (s : State) : CleanKept s s := ⟨rfl, rfl, rfl, rfl, rfl⟩

theorem CleanKept.trans (h : CleanKept s t) (h' : CleanKept t u) : CleanKept s u :=
  ⟨h'.otp.trans h.otp, h'.place.trans h.place, h'.tags.trans h.tags, h'.flushQ.trans h.flushQ, h'.prefetchQ.trans h.prefetchQ⟩

theorem CleanKept.mig (h : CleanKept s t) (hm : s.place.mig = []) : t.place.mig = [] := by rw [h.place, hm]

theorem CleanKept.tag (h : CleanKept s t) (k : Nat) : t.tag k = s.tag k := congrArg (fun l => SMap.get (fun _ => 0) l k) h.tags

theorem inc_cleanKept (s : State) (a n : Nat) : CleanKept s (s.inc a n) := ⟨by simp, by simp, by simp, by simp, by simp⟩

theorem inc64_cleanKept (s : State) (a n : Nat) : CleanKept s (s.inc64 a n) := ⟨by simp, by simp, by simp, by simp, by simp⟩

theorem putWord_cleanKept (hm : s.place.mig = []) (f o : Nat) (l : Line) : CleanKept s (s.putWord f o l) := by
  have hmark (u : State) (hu : u.place.mig = []) : u.markDirty f o = u := by
    unfold markDirty
    rw [hu]
    rfl
  have hwrite : CleanKept s ((s.setPch (fPc f) (overtaken f o (s.pch (fPc f)))).dramWrite f o l) := ⟨rfl, rfl, rfl, rfl, rfl⟩
  rw [putWord_eq, hmark _ (hwrite.mig hm)]
  exact hwrite.trans (inc64_cleanKept ..)

theorem performQueued_cleanKept (hm : s.place.mig = []) (r : DReq) : CleanKept s (s.performQueued r) := by
  have hset (i : Nat) (p : PCh) : CleanKept s (s.setPch i p) := ⟨rfl, rfl, rfl, rfl, rfl⟩
  unfold performQueued
  dsimp only
  split
  · exact (hset _ _).trans (putWord_cleanKept (s := s.setPch _ _) hm _ _ _)
  · exact (hset _ _).trans (inc64_cleanKept ..)

theorem performAll_cleanKept (hm : s.place.mig = []) (pc : Nat) (which : DReq → Bool) : CleanKept s (s.performAll pc which) := by
  unfold performAll
  generalize sortBy _ _ = l
  induction l generalizing s with
  | nil => exact CleanKept.refl s
  | cons r l ih =>
    have hr := performQueued_cleanKept hm r
    exact hr.trans (ih (hr.mig hm))

theorem storeLine_cleanKept (hm : s.place.mig = []) (li : Nat) (l : Line) : CleanKept s (s.storeLine li l) := by
  unfold storeLine
  dsimp only
  split
  · unfold wdbKeep wdbPut
    split
    · exact CleanKept.refl s
    · split
      · exact ⟨rfl, rfl, rfl, rfl, rfl⟩
      · exact ⟨rfl, rfl, rfl, rfl, rfl⟩
  · split
    · have hall := performAll_cleanKept hm (fPc (eFrame (s.live (liParcel li)))) fun r => DReq.at_ r (eFrame (s.live (liParcel li))) (liOff li)
      exact hall.trans (putWord_cleanKept (hall.mig hm) _ _ _)
    · exact CleanKept.refl s

/-- A line that is read without errors comes as it stands. -/
theorem bankGet_none (hm : NoErr m) (s : State) (k li access : Nat) :
    s.bankGet m k li access = (s.cacheData k (li % 4), s.bankAnswers) := by
  obtain ⟨-, -, hcache, -⟩ := hm
  unfold bankGet bankWord bankFlips
  rw [hcache]
  rfl

/-- A dirty line of a way goes to `put`. -/
def cleanLine (s : State) (k i : Nat) : State :=
  if (tDirty (s.tag k)).testBit i then
    (s.bankAnswers.storeLine (sectorLine (keySet k) (tTag (s.tag k)) i)
      (s.cacheData k (sectorLine (keySet k) (tTag (s.tag k)) i % 4))).inc R.CACHE_WRITEBACKS
  else s

theorem cleanLine_cleanKept (hm : s.place.mig = []) (k i : Nat) : CleanKept s (s.cleanLine k i) := by
  have hbank : CleanKept s s.bankAnswers := ⟨rfl, rfl, rfl, rfl, rfl⟩
  unfold cleanLine
  split
  · exact (hbank.trans (storeLine_cleanKept (s := s.bankAnswers) hm _ _)).trans (inc_cleanKept ..)
  · exact CleanKept.refl s

theorem readDirty_cleanKept (he : NoErr m) (hm : s.place.mig = []) (k : Nat) :
    CleanKept s (s.readDirty m k fun li l u => (u.storeLine li l).inc R.CACHE_WRITEBACKS) := by
  have hform : s.readDirty m k (fun li l u => (u.storeLine li l).inc R.CACHE_WRITEBACKS) = lines4.foldl (fun u i => u.cleanLine k i) s := by
    unfold readDirty
    refine congrArg (fun f => lines4.foldl f s) (funext fun u => funext fun i => ?_)
    unfold cleanLine
    split
    next h =>
      dsimp only
      rw [bankGet_none he]
      exact if_pos h
    next => rfl
  rw [hform]
  clear hform
  generalize lines4 = l
  induction l generalizing s with
  | nil => exact CleanKept.refl s
  | cons i l ih =>
    have hi := cleanLine_cleanKept hm k i
    exact hi.trans (ih (hi.mig hm))

/-! ### A write-back of a quadrant -/

/-- What the write-backs of other sectors keep of a sector that was written back. -/
structure BackKept (k : Nat) (s t : State) : Prop where
  otp : t.otp = s.otp
  mig : t.place.mig = s.place.mig
  table : t.place.table = s.place.table
  tag : t.tag k = s.tag k
  flushQ : t.cache.flushQ = s.cache.flushQ
  prefetchQ : t.cache.prefetchQ = s.cache.prefetchQ

theorem BackKept.refl (k : Nat) (s : State) : BackKept k s s := ⟨rfl, rfl, rfl, rfl, rfl, rfl⟩

theorem BackKept.trans (h : BackKept k s t) (h' : BackKept k t u) : BackKept k s u :=
  ⟨h'.otp.trans h.otp, h'.mig.trans h.mig, h'.table.trans h.table, h'.tag.trans h.tag, h'.flushQ.trans h.flushQ,
    h'.prefetchQ.trans h.prefetchQ⟩

theorem CleanKept.back (h : CleanKept s t) (k : Nat) : BackKept k s t :=
  ⟨h.otp, congrArg PlaceState.mig h.place, congrArg PlaceState.table h.place, h.tag k, h.flushQ, h.prefetchQ⟩

theorem setTag_back {i : Nat} (h : k ≠ i) (s : State) (v : BitVec 25) : BackKept k s (s.setTag i v) := by
  have hplace : (s.setTag i v).place = s.place := setTag_same (by simp) (fun _ _ _ _ => rfl) s i v
  exact {
    otp := setTag_same (by simp) (fun _ _ _ _ => rfl) s i v
    mig := congrArg PlaceState.mig hplace
    table := congrArg PlaceState.table hplace
    tag := (setTag_tag s i v k).trans (if_neg h)
    flushQ := setTag_same (g := fun t => t.cache.flushQ) (by simp) (fun _ _ _ _ => rfl) s i v
    prefetchQ := setTag_same (g := fun t => t.cache.prefetchQ) (by simp) (fun _ _ _ _ => rfl) s i v }

/-- The tag of a sector written back. -/
def cleanTag (v : BitVec 25) : BitVec 25 := mkTag (tTag v) (tValid v) 0 (tAge v)

theorem cleanTag_fields (v : BitVec 25) : tDirty (cleanTag v) = 0 ∧ tValid (cleanTag v) = tValid v ∧ tTag (cleanTag v) = tTag v := by
  unfold cleanTag
  rw [tDirty_mkTag, tValid_mkTag, tTag_mkTag]
  refine ⟨rfl, Nat.mod_eq_of_lt ?_, Nat.mod_eq_of_lt ?_⟩
  · exact Nat.mod_lt _ (by decide)
  · exact Nat.mod_lt _ (by decide)

/-- A sector is written back: its lines are stored, and its tag is clean. -/
theorem cleanWay_dirty (he : NoErr m) (hm : s.place.mig = []) (hd : tDirty (s.tag k) ≠ 0) (hh : s.frameHeld (s.wayFrame k) = false) :
    ∃ t, CleanKept s t ∧ s.cleanWay m k = t.setTag k (cleanTag (s.tag k)) := by
  have hread := readDirty_cleanKept he hm k
  refine ⟨_, hread, ?_⟩
  have htag := hread.tag k
  unfold cleanWay
  rw [decide_eq_false hd, hh]
  dsimp only [Bool.or_self, Bool.false_eq_true, if_false]
  rw [htag]
  rfl

theorem cleanWay_back {i : Nat} (he : NoErr m) (hm : s.place.mig = []) (h : k ≠ i) : BackKept k s (s.cleanWay m i) := by
  by_cases hd : tDirty (s.tag i) = 0
  · rw [cleanWay_clean hd]
    exact BackKept.refl k s
  · cases hh : s.frameHeld (s.wayFrame i) with
    | true =>
      have hsame : s.cleanWay m i = s := by
        unfold cleanWay
        rw [hh, Bool.or_true]
        rfl
      rw [hsame]
      exact BackKept.refl k s
    | false =>
      obtain ⟨t, hkept, heq⟩ := cleanWay_dirty he hm hd hh
      rw [heq]
      exact (hkept.back k).trans (setTag_back h t _)

theorem chargeBg_back (h : BackKept k s t) (n : Nat) : BackKept k s (t.chargeBg n) := ⟨h.otp, h.mig, h.table, h.tag, h.flushQ, h.prefetchQ⟩

theorem bgClean_back {i : Nat} (he : NoErr m) (hm : s.place.mig = []) (h : k ≠ i) :
    BackKept k s (s.bgClean i fun u k => u.cleanWay m k) := by
  have hclean := cleanWay_back he hm h
  unfold bgClean
  dsimp only
  split
  · exact hclean
  · split
    · exact BackKept.refl k s
    · split
      · exact chargeBg_back hclean _
      · exact hclean

/-- Write-backs of a quadrant leave a sector that is clean. -/
theorem bgWriteback_back (he : NoErr m) (hm : s.place.mig = []) (hd : tDirty (s.tag k) = 0) : BackKept k s (s.bgWriteback m q) := by
  have hset (b : Bool) : BackKept k s (s.bgSet q b) := ⟨rfl, rfl, rfl, rfl, rfl, rfl⟩
  unfold bgWriteback
  dsimp only
  split
  · split
    · exact hset _
    next i hi =>
      refine (hset _).trans (bgClean_back he hm fun hki => ?_)
      have hfound := List.find?_some hi
      rw [← hki] at hfound
      simp only [Bool.and_eq_true, bne_iff_ne] at hfound
      exact hfound.1.2 hd
  · exact hset _

theorem bgDown_back (he : NoErr m) (n : Nat) (s : State) (hm : s.place.mig = []) (hd : tDirty (s.tag k) = 0) :
    BackKept k s (bgDown m q n s) := by
  induction n generalizing s with
  | zero => exact BackKept.refl k s
  | succ n ih =>
    have hone := bgWriteback_back (q := q) he hm hd
    unfold bgDown
    dsimp only
    split
    · exact hone.trans (ih _ (hone.mig.trans hm) (by rw [hone.tag, hd]))
    · exact hone

/-- A sector just written back, with its clean tag. -/
structure Cleaned (k : Nat) (s t : State) : Prop where
  otp : t.otp = s.otp
  mig : t.place.mig = s.place.mig
  table : t.place.table = s.place.table
  tag : t.tag k = cleanTag (s.tag k)
  flushQ : t.cache.flushQ = s.cache.flushQ
  prefetchQ : t.cache.prefetchQ = s.cache.prefetchQ

theorem Cleaned.back (h : Cleaned k s t) (h' : BackKept k t u) : Cleaned k s u :=
  ⟨h'.otp.trans h.otp, h'.mig.trans h.mig, h'.table.trans h.table, h'.tag.trans h.tag, h'.flushQ.trans h.flushQ,
    h'.prefetchQ.trans h.prefetchQ⟩

theorem Cleaned.charge (h : Cleaned k s t) (n : Nat) : Cleaned k s (t.chargeBg n) := ⟨h.otp, h.mig, h.table, h.tag, h.flushQ, h.prefetchQ⟩

theorem cleanWay_cleaned (he : NoErr m) (hm : s.place.mig = []) (hd : tDirty (s.tag k) ≠ 0) (hh : s.frameHeld (s.wayFrame k) = false) :
    Cleaned k s (s.cleanWay m k) := by
  obtain ⟨t, hkept, heq⟩ := cleanWay_dirty he hm hd hh
  have hset : (t.setTag k (cleanTag (s.tag k))).place = t.place := setTag_same (by simp) (fun _ _ _ _ => rfl) t k _
  rw [heq]
  exact {
    otp := (setTag_same (g := fun t => t.otp) (by simp) (fun _ _ _ _ => rfl) t k _).trans hkept.otp
    mig := (congrArg PlaceState.mig hset).trans (congrArg PlaceState.mig hkept.place)
    table := (congrArg PlaceState.table hset).trans (congrArg PlaceState.table hkept.place)
    tag := (setTag_tag t k _ k).trans (if_pos rfl)
    flushQ := (setTag_same (g := fun t => t.cache.flushQ) (by simp) (fun _ _ _ _ => rfl) t k _).trans hkept.flushQ
    prefetchQ := (setTag_same (g := fun t => t.cache.prefetchQ) (by simp) (fun _ _ _ _ => rfl) t k _).trans hkept.prefetchQ }

/-- The oldest dirty sector of a quadrant above DIRTY_HIGH is written back. -/
theorem bgWriteback_cleaned (he : NoErr m) (hm : s.place.mig = []) (hon : s.cacheOn = true)
    (hclean : s.on R.CACHE_CACHE_CTL F.CACHE_CACHE_CTL_CLEAN_EN = true)
    (hhigh : s.fld R.CACHE_DIRTY_CTL F.CACHE_DIRTY_CTL_DIRTY_HIGH * 1024 < s.fld (R.CACHE_DIRTY_LINES q) F.CACHE_DIRTY_LINES_COUNT)
    (hfind : s.cache.order.find? (fun k => keyQuad k == q && tDirty (s.tag k) != 0 && !s.frameHeld (s.wayFrame k)) = some k)
    (hfits : s.bgFits (64 * popcount4 (tDirty (s.tag k))) = true) : Cleaned k s (s.bgWriteback m q) := by
  have hfound := List.find?_some hfind
  simp only [Bool.and_eq_true, bne_iff_ne, Bool.not_eq_true'] at hfound
  obtain ⟨⟨-, hd⟩, hh⟩ := hfound
  have hset : Cleaned k (s.bgSet q true) ((s.bgSet q true).cleanWay m k) := cleanWay_cleaned (s := s.bgSet q true) he hm hd hh
  have hway : Cleaned k s ((s.bgSet q true).cleanWay m k) := ⟨hset.otp, hset.mig, hset.table, hset.tag, hset.flushQ, hset.prefetchQ⟩
  have hform : s.bgWriteback m q = (s.bgSet q true).bgClean k fun u k => u.cleanWay m k := by
    unfold bgWriteback
    dsimp only
    rw [decide_eq_true hhigh, hon, hclean]
    simp only [Bool.true_or, Bool.true_and, if_true]
    exact (congrArg (fun o : Option Nat => match o with
      | none => s.bgSet q true
      | some k => (s.bgSet q true).bgClean k fun u k => u.cleanWay m k) hfind)
  rw [hform]
  have hfits' : (s.bgSet q true).bgFits (64 * popcount4 (tDirty ((s.bgSet q true).tag k))) = true := hfits
  unfold bgClean
  dsimp only
  rw [hfits']
  split
  · exact hway
  · rw [if_neg (by decide)]
    split
    · exact hway.charge _
    · exact hway

end State
end Sys2Proof.Machine

namespace Sys2Proof.Safety
open Sys2Proof.Machine Sys2Proof.Machine.State

/-- FLUSH starts a flush. -/
theorem flush_starts (s : State) (w : RegWrite) (ho : Open s w.path R.CACHE_CACHE_CTL) (hc : Calm s) (hon : s.cacheOn = true)
    (hjob : s.cache.job = none) (_hen : s.on R.CACHE_CACHE_CTL F.CACHE_CACHE_CTL_ENABLE = true) : Gives (.flush w) s fun t =>
      (F.CACHE_CACHE_CTL_ENABLE.get w.value = 1 → F.CACHE_CACHE_CTL_INVALIDATE.get w.value = 0 → t.cache.job = some .flush) ∧
        t.on R.CACHE_CACHE_STAT F.CACHE_CACHE_STAT_FLUSHING = true ∧ t.cache.jobDone = [] ∧ t.cache.tags = s.cache.tags ∧
        t.cache.data = s.cache.data ∧ t.place = s.place ∧ t.dram = s.dram ∧ t.wdb = s.wdb ∧ t.otp = s.otp := by
  have hf : F.CACHE_CACHE_CTL_FLUSH.get (F.CACHE_CACHE_CTL_FLUSH.set 1 w.value) = 1 := Fld.get_set _ _ _ (by decide)
  have hi : F.CACHE_CACHE_CTL_INVALIDATE.get (F.CACHE_CACHE_CTL_FLUSH.set 1 w.value) = F.CACHE_CACHE_CTL_INVALIDATE.get w.value :=
    Fld.get_set_other _ _ _ _ (by decide)
  have he : F.CACHE_CACHE_CTL_ENABLE.get (F.CACHE_CACHE_CTL_FLUSH.set 1 w.value) = F.CACHE_CACHE_CTL_ENABLE.get w.value :=
    Fld.get_set_other _ _ _ _ (by decide)
  have hstart := ((ctlFlushed_flush hon hjob hf).enable hon (decide (F.CACHE_CACHE_CTL_ENABLE.get (F.CACHE_CACHE_CTL_FLUSH.set 1 w.value) = 1))).settle
    (cacheEnable_calm (ctlFlushed_calm hc _) _)
  refine gives_of_eq rfl (cacheCtl_write _ ho) ⟨fun h1 h0 => ?_, hstart.flushing, hstart.jobDone, hstart.tags, hstart.data, hstart.place,
    hstart.dram, hstart.wdb, hstart.otp⟩
  refine hstart.job.trans ?_
  rw [he, h1, hi, h0]
  rfl

/-- INVALIDATE starts an invalidation. -/
theorem invalidate_starts (s : State) (w : RegWrite) (ho : Open s w.path R.CACHE_CACHE_CTL) (hc : Calm s) (hon : s.cacheOn = true)
    (hjob : s.cache.job = none) (_hen : s.on R.CACHE_CACHE_CTL F.CACHE_CACHE_CTL_ENABLE = true) : Gives (.invalidate w) s fun t =>
      (F.CACHE_CACHE_CTL_ENABLE.get w.value = 1 → t.cache.job = some .invalidate) ∧
        t.on R.CACHE_CACHE_STAT F.CACHE_CACHE_STAT_FLUSHING = true ∧ t.cache.jobDone = [] ∧ t.cache.tags = s.cache.tags ∧
        t.cache.data = s.cache.data ∧ t.place = s.place ∧ t.dram = s.dram ∧ t.wdb = s.wdb ∧ t.otp = s.otp := by
  have hi : F.CACHE_CACHE_CTL_INVALIDATE.get (F.CACHE_CACHE_CTL_INVALIDATE.set 1 w.value) = 1 := Fld.get_set _ _ _ (by decide)
  have he : F.CACHE_CACHE_CTL_ENABLE.get (F.CACHE_CACHE_CTL_INVALIDATE.set 1 w.value) = F.CACHE_CACHE_CTL_ENABLE.get w.value :=
    Fld.get_set_other _ _ _ _ (by decide)
  have hstart := ((ctlFlushed_invalidate hon hjob hi).enable hon
    (decide (F.CACHE_CACHE_CTL_ENABLE.get (F.CACHE_CACHE_CTL_INVALIDATE.set 1 w.value) = 1))).settle (cacheEnable_calm (ctlFlushed_calm hc _) _)
  refine gives_of_eq rfl (cacheCtl_write _ ho) ⟨fun h1 => ?_, hstart.flushing, hstart.jobDone, hstart.tags, hstart.data, hstart.place,
    hstart.dram, hstart.wdb, hstart.otp⟩
  refine hstart.job.trans ?_
  rw [he, h1]
  rfl

/-- A cleared ENABLE starts a flush that disables the cache. -/
theorem cacheEnable_clears (s : State) (w : RegWrite) (ho : Open s w.path R.CACHE_CACHE_CTL) (hc : Calm s) (hon : s.cacheOn = true)
    (he : F.CACHE_CACHE_CTL_ENABLE.get w.value = 0) : Gives (.cacheEnableWrite w) s fun t =>
      t.cache.job = some .disable ∧ t.on R.CACHE_CACHE_STAT F.CACHE_CACHE_STAT_FLUSHING = true ∧
        t.cache.tags = s.cache.tags ∧ t.cache.data = s.cache.data ∧ t.place = s.place ∧ t.dram = s.dram ∧ t.wdb = s.wdb := by
  obtain ⟨j, hj, rfl⟩ := ctlFlushed_disable (v := w.value) hon
  have hstart := hj.settle (cacheEnable_calm (ctlFlushed_calm hc _) _)
  have heq := cacheCtl_write w.value ho
  rw [he] at heq
  exact gives_of_eq rfl heq ⟨hstart.job, hstart.flushing, hstart.tags, hstart.data, hstart.place, hstart.dram, hstart.wdb⟩

/-- ENABLE set again powers the die. -/
theorem cacheEnable_sets (s : State) (w : RegWrite) (ho : Open s w.path R.CACHE_CACHE_CTL) (hc : Calm s) (hoff : s.cacheOn = false)
    (hret : s.on R.CACHE_CACHE_STAT F.CACHE_CACHE_STAT_DIE_RETIRED = false) (he : F.CACHE_CACHE_CTL_ENABLE.get w.value = 1)
    (hf : F.CACHE_CACHE_CTL_FLUSH.get w.value = 0) (hi : F.CACHE_CACHE_CTL_INVALIDATE.get w.value = 0) :
    Gives (.cacheEnableWrite w) s fun t =>
      t.cacheOn = true ∧ t.on R.CACHE_CACHE_STAT F.CACHE_CACHE_STAT_PD_OFF = false ∧ MemKept s t ∧
        RegsKept s t [0x014] [R.CACHE_CACHE_CTL, R.CACHE_CACHE_STAT] := by
  have hflushed : s.ctlFlushed w.value = s.ctlStored w.value := by
    unfold ctlFlushed
    rw [hf, hi]
    rfl
  have hon : (s.ctlStored w.value).cacheEnable true = (s.ctlStored w.value).powered :=
    cacheEnable_powers ((ctlStored_on ..).trans hoff) ((ctlStored_on ..).trans hret)
  have heq := cacheCtl_write w.value ho
  rw [he, hflushed, decide_eq_true rfl, hon] at heq
  have hstored : RegsKept s (s.ctlStored w.value) [0x014] [R.CACHE_CACHE_CTL, R.CACHE_CACHE_STAT] :=
    (RegsKept.refl s).wr _ (.inl (by simp))
  have hmem : MemKept s (s.ctlStored w.value) := ⟨rfl, rfl, rfl, rfl, rfl, rfl⟩
  have hcalm : Calm (s.ctlStored w.value).powered := powered_calm (hc.of_parts rfl rfl rfl rfl)
  refine gives_of_eq rfl heq ⟨?_, ?_, (hmem.trans (powered_kept _)).trans (MemKept.settle hcalm),
    (powered_regs hstored).trans (RegsKept.settle hcalm (by simp))⟩
  · exact (on_eq_of_rd (settle_rd hcalm _ (by decide)) _).trans (powered_cacheOn _)
  · exact (on_eq_of_rd (settle_rd hcalm _ (by decide)) _).trans (powered_pdOff _)

/-- The write-back of the last quadrant, whose sectors are clean, ends the flush. -/
theorem bgWriteback_ends (s : State) (q : Fin 4) (m : LookupIn) (j : FlushJob) (k : Nat) (hrel : s.released = true) (hfill : NoFills s)
    (hm : NoErr m) (hmig : s.place.mig = []) (_hon : s.cacheOn = true) (hj : s.cache.job = some j)
    (hothers : ∀ p : Fin 4, p ≠ q → p.val ∈ s.cache.jobDone) (hd : ∀ e ∈ s.cache.tags, keyQuad e.1 = q.val → tDirty e.2 = 0)
    (hclean : s.on R.CACHE_CACHE_CTL F.CACHE_CACHE_CTL_CLEAN_EN = false) (hflush : s.cache.flushQ = []) (hpre : s.cache.prefetchQ = [])
    (hk : keyQuad k = q.val) (hb : ∀ b : Fin 16, s.bankState b ≠ 1) : Gives (.bgWriteback q m) s fun t =>
      t.cache.job = none ∧ t.on R.CACHE_CACHE_STAT F.CACHE_CACHE_STAT_FLUSHING = false ∧
        (j = .flush → t.tag k = s.tag k) ∧ (j ≠ .flush → tValid (t.tag k) = 0) ∧
        (j = .disable → s.on R.CACHE_CACHE_CTL F.CACHE_CACHE_CTL_ENABLE = false →
          t.cacheOn = false ∧ t.on R.CACHE_CACHE_STAT F.CACHE_CACHE_STAT_PD_OFF = true) ∧
        t.place = s.place ∧ t.dram = s.dram ∧ t.wdb = s.wdb := by
  obtain ⟨honly, -, hkeep, hgone⟩ := flushed_spec (s := s) (q := q) j hd
  have hlast := flushQuad_last hm hj (fun p hp hne => hothers ⟨p, hp⟩ fun h => hne (congrArg Fin.val h)) hd
  have hon (a : Nat) (f : Fld) : ((s.flushed j q).quadDone q).on a f = s.on a f := on_eq_of_rd (rd_eq_of_regs honly.regs a) f
  have hbank (b : Fin 16) : ((s.flushed j q).quadDone q).bankState b ≠ 1 := by
    have hsame : ((s.flushed j q).quadDone q).bankState b = s.bankState b := fld_eq_of_rd (rd_eq_of_regs honly.regs _) _
    rw [hsame]
    exact hb b
  obtain ⟨hover, hoff⟩ := flushEnd_spec hbank
  have hjob : ((s.flushed j q).quadDone q).cache.job = some j := honly.job.trans hj
  have htags (i : Nat) : ((s.flushed j q).quadDone q).flushEnd.tag i = (s.flushed j q).tag i :=
    congrArg (fun l => SMap.get (fun _ => 0) l i) hover.tags
  have hdown := bgDown_off ((on_eq_of_rd hover.ctl _).trans ((hon _ _).trans hclean)) m q
    ((s.flushed j q).quadDone q).flushEnd.cache.order.length
  rw [← hlast] at hdown hover htags
  have hplace : ((s.flushQuad m q).bgSet q false).place = s.place := hover.place.trans honly.place
  have heq := bgWork_eq hfill.1 _ hdown (hover.flushQ.trans (honly.flushQ.trans hflush)) (hover.prefetchQ.trans (honly.prefetchQ.trans hpre))
    ((congrArg PlaceState.mig hplace).trans hmig)
  refine gives_of_eq rfl ((clocked_eq hrel _).trans ((congrArg (afterMove s) heq).trans (afterMove_same hplace))) ⟨hover.job, hover.flushing,
    fun h => (htags k).trans (hkeep h k), fun h => ?_, fun h he => ?_, hplace, hover.dram.trans honly.dram, hover.wdb.trans honly.wdb⟩
  · have htag : ((s.flushQuad m q).bgSet q false).tag k = (s.flushed j q).tag k := htags k
    rw [htag]
    exact hgone h k hk
  · rw [← hlast] at hoff
    exact hoff (h ▸ hjob) ((hon _ _).trans he)

/-- The write-back of a quadrant above DIRTY_HIGH leaves its oldest dirty sector valid and clean. -/
theorem bgWriteback_cleans (s : State) (q : Fin 4) (m : LookupIn) (k : Nat) (hrel : s.released = true) (hfill : NoFills s) (he : NoErr m)
    (hm : s.place.mig = []) (hjob : s.cache.job = none) (hon : s.cacheOn = true)
    (hclean : s.on R.CACHE_CACHE_CTL F.CACHE_CACHE_CTL_CLEAN_EN = true)
    (hhigh : s.fld R.CACHE_DIRTY_CTL F.CACHE_DIRTY_CTL_DIRTY_HIGH * 1024 < s.fld (R.CACHE_DIRTY_LINES q) F.CACHE_DIRTY_LINES_COUNT)
    (hfind : s.cache.order.find? (fun k => keyQuad k == q.val && tDirty (s.tag k) != 0 && !s.frameHeld (s.wayFrame k)) = some k)
    (hfits : s.bgFits (64 * popcount4 (tDirty (s.tag k))) = true) (hflush : s.cache.flushQ = []) (hpre : s.cache.prefetchQ = []) :
    Gives (.bgWriteback q m) s fun t =>
      tDirty (t.tag k) = 0 ∧ tValid (t.tag k) = tValid (s.tag k) ∧ tTag (t.tag k) = tTag (s.tag k) ∧ t.otp = s.otp := by
  obtain ⟨hdirty, hvalid, htag⟩ := cleanTag_fields (s.tag k)
  have hone := bgWriteback_cleaned he hm hon hclean hhigh hfind hfits
  have hstep : Cleaned k s (bgDown m q (s.cache.order.length + 1) s) := by
    unfold bgDown
    dsimp only
    split
    · exact hone.back (bgDown_back he _ _ (hone.mig.trans hm) (by rw [hone.tag, hdirty]))
    · exact hone
  have heq := bgWork_eq (q := q) (m := m) hfill.1 (bgDown m q (s.cache.order.length + 1) s) (by rw [flushQuad_none hjob])
    (hstep.flushQ.trans hflush) (hstep.prefetchQ.trans hpre) (hstep.mig.trans hm)
  refine gives_of_eq rfl ((clocked_eq hrel _).trans ((congrArg (afterMove s) heq).trans (if_pos ⟨hstep.mig, hstep.table⟩))) ?_
  rw [hstep.tag]
  exact ⟨hdirty, hvalid, htag, hstep.otp⟩

/-- Settles O27: once a sector is clean, the write-backs that follow in the same command pass it by. -/
theorem cacheMaintenance : Obligations.CacheMaintenance :=
  ⟨bgWriteback_cleans, flush_starts, invalidate_starts, cacheEnable_clears, bgWriteback_ends, cacheEnable_sets⟩

end Sys2Proof.Safety
end

section
/-! SUPPORT. What the receiver does with a flit (R32, R76, R79, R90). -/

namespace Sys2Proof.Machine
open Sys2Proof.Laws Sys2Proof.Safety

namespace State

variable {s t u : State} {l : List Nat} {flit : BitVec 1920} {b : List Nat} {c : Ctl0} {sl : Nat → Slot}

/-! ### What a flit keeps -/

/-- A step of the receiver that touches no store and no register but the listed ones, and raises no event of the lanes. -/
structure Took (s t : State) (l : List Nat) : Prop where
  mem : MemKept s t
  regs : RegsKept s t [] l
  handed : t.fcol.handed = s.fcol.handed
  declared : t.fcol.declared = s.fcol.declared
  rows : t.spare.rows = s.spare.rows
  fresh : t.link.fresh = s.link.fresh
  raised : t.link.raised = s.link.raised

theorem Took.refl (s : State) : Took s s l := ⟨MemKept.refl s, RegsKept.refl s, rfl, rfl, rfl, rfl, rfl⟩

theorem Took.wr (h : Took s t l) {a : Nat} (ha : a ∈ l) (v : Word) : Took s (t.wr a v) l :=
  ⟨h.mem, h.regs.wr v (.inl ha), h.handed, h.declared, h.rows, h.fresh, h.raised⟩

theorem Took.put (h : Took s t l) {a : Nat} (ha : a ∈ l) (f : Fld) (n : Nat) : Took s (t.put a f n) l := h.wr ha _

theorem Took.inc (h : Took s t l) {a : Nat} (ha : a ∈ l) (n : Nat) : Took s (t.inc a n) l where
  mem := h.mem.trans (by simp [MemKept])
  regs := h.regs.inc n (.inl ha)
  handed := by rw [inc_fcol_handed, h.handed]
  declared := by rw [inc_fcol_declared, h.declared]
  rows := by rw [inc_spare, h.rows]
  fresh := by rw [inc_link, h.fresh]
  raised := by rw [inc_link, h.raised]

theorem Took.inc64 (h : Took s t l) {a : Nat} (ha : a ∈ l) (ha' : a + 4 ∈ l) (n : Nat) : Took s (t.inc64 a n) l where
  mem := h.mem.trans (by simp [MemKept])
  regs b hp hb := (rd_inc64_other _ _ _ _ (fun h => hb (by rw [h]; exact ha)) (fun h => hb (by rw [h]; exact ha'))).trans (h.regs b hp hb)
  handed := by rw [inc64_fcol_handed, h.handed]
  declared := by rw [inc64_fcol_declared, h.declared]
  rows := by rw [inc64_spare, h.rows]
  fresh := by rw [inc64_link, h.fresh]
  raised := by rw [inc64_link, h.raised]

theorem Took.report (h : Took s t l) (k : Nat) (r : Word) (n a : Nat) : Took s (t.report k r n a) l :=
  ⟨h.mem, h.regs, h.handed, h.declared, h.rows, h.fresh, h.raised⟩

theorem Took.link (h : Took s t l) {x : LinkState} (hf : x.fresh = t.link.fresh) (hr : x.raised = t.link.raised) :
    Took s { t with link := x } l :=
  ⟨h.mem, h.regs, h.handed, h.declared, h.rows, hf.trans h.fresh, hr.trans h.raised⟩

theorem Took.calm (h : Took s t l) (hc : Calm s) : Calm t := hc.of_parts h.handed h.declared h.rows (by rw [h.mem.place_eq])

theorem Took.rd (h : Took s t l) {a : Nat} (ha : a ∉ l) : t.rd a = s.rd a := h.regs a (by simp) ha

theorem Took.onXo (h : Took s t l) (ho : OnXo s) (hl : ∀ a ∈ l, pageOf a = 0x00E) : OnXo t := by
  obtain ⟨hx, hr, hb, hf, h0⟩ := ho
  have hclk {a : Nat} (ha : pageOf a ≠ 0x00E) : t.rd a = s.rd a := h.rd fun hm => ha (hl a hm)
  have hboot : t.bootStep = s.bootStep := fld_eq_of_rd (hclk (by decide)) _
  exact ⟨(on_eq_of_rd (hclk (by decide)) _).trans hx, (fld_eq_of_rd (hclk (by decide)) _).trans hr, by rw [hboot]; exact hb,
    h.fresh.trans hf, h.raised.trans h0⟩

/-! ### A flit within a marker period -/

/-- The lanes' descramblers after a flit. -/
def descrambled (s : State) (d : SMap (BitVec 58)) (r : SMap Nat) : State := { s with link := { s.link with descr := d, rxLast := r } }

/-- Undoing what the lanes did to a flit moves their descramblers alone. -/
theorem undoFlit_spec (s : State) (n : Nat) (sym : BitVec 1920) : ∃ d r, (s.undoFlit n sym).2 = s.descrambled d r := by
  have hfold (ks : List Nat) (f : List (Nat × Nat) × State → Nat → List (Nat × Nat) × State)
      (hf : ∀ x k, ∃ d r, (f x k).2 = x.2.descrambled d r) (x : List (Nat × Nat) × State) :
      ∃ d r, (ks.foldl f x).2 = x.2.descrambled d r := by
    induction ks generalizing x with
    | nil => exact ⟨_, _, rfl⟩
    | cons k ks ih =>
      obtain ⟨d, r, hk⟩ := hf x k
      obtain ⟨d', r', hks⟩ := ih (f x k)
      exact ⟨d', r', by rw [List.foldl_cons, hks, hk]; rfl⟩
  unfold undoFlit
  dsimp only
  refine hfold _ _ (fun x k => ?_) ([], s)
  exact ⟨_, _, rfl⟩

/-- A flit of a frame, with the symbols of the frames passed so far. -/
def framed (s : State) (n ui : Nat) : State := { s with link := { s.link with rxFlit := n, rxUi := ui } }

theorem rxFrameEnd_spec (h : s.link.rxSwitch = none) :
    s.rxFrameEnd = { s with link := { s.link with rxUi := (s.link.rxUi + frameUI (s.curStep .rx)) % 10240 } } := by
  unfold rxFrameEnd
  dsimp only
  split
  next => rfl
  next h' => exact absurd (h.symm.trans h') (by simp)

/-- The next flit is due; no switch of width is due with it. -/
theorem nextFlit_spec (h : s.link.rxFlit = 11 → s.link.rxSwitch = none) : ∃ ui, s.nextFlit = s.framed ((s.link.rxFlit + 1) % 12) ui := by
  have hsame : { s with link := { s.link with rxFlit := (s.link.rxFlit + 1) % 12 } } = s.framed ((s.link.rxFlit + 1) % 12) s.link.rxUi := rfl
  unfold nextFlit
  dsimp only
  rw [hsame]
  split
  next h11 =>
    rw [rxFrameEnd_spec (s := s.framed ((s.link.rxFlit + 1) % 12) s.link.rxUi) (h h11)]
    exact ⟨_, rfl⟩
  next => exact ⟨_, rfl⟩

/-- A flit inside a marker period is undone, taken and followed by the next. -/
theorem flitIn_eq (sym : BitVec 1920) (marks : List MarkIn) (ha : s.linkActive = true) (hd : s.drogue = false)
    (hm : s.link.rxFlit ≠ 0 ∨ s.link.rxUi ≠ 0) : s.flitIn sym marks =
      ((s.undoFlit s.link.rxFlit sym).2.takeFlit (s.undoFlit s.link.rxFlit sym).1).nextFlit := by
  have hmid : ¬ (s.link.rxFlit = 0 ∧ s.link.rxUi = 0) := by
    rintro ⟨h0, h1⟩
    exact hm.elim (fun h => h h0) fun h => h h1
  unfold flitIn flitReceive
  rw [ha, hd, decide_eq_false hmid]
  rfl

/-- What FLIT_RECEIVE leaves of the state in which its flit was taken. -/
structure FlitDone (s w t : State) (l : List Nat) : Prop where
  link : ∃ ui, t.link = { w.link with rxFlit := (w.link.rxFlit + 1) % 12, rxUi := ui }
  rd : ∀ a, pageOf a ≠ 0x014 → t.rd a = w.rd a
  mem : MemKept s t
  regs : RegsKept s t [0x014] l

theorem Took.done {w : State} (h : Took s w l) (ho : OnXo s) (hc : Calm s) (hl : ∀ a ∈ l, pageOf a = 0x00E)
    (hs : w.link.rxFlit = 11 → w.link.rxSwitch = none) : FlitDone s w w.nextFlit.afterLink l := by
  obtain ⟨ui, hnext⟩ := nextFlit_spec hs
  have hframed : Took s w.nextFlit l := hnext ▸ h.link rfl rfl
  have hcalm := hframed.calm hc
  rw [afterLink_onXo (hframed.onXo ho hl)]
  refine ⟨⟨ui, ?_⟩, fun a ha => ?_, hframed.mem.trans (MemKept.settle hcalm), ?_⟩
  · rw [settle_link hcalm, hnext]
    rfl
  · rw [settle_rd hcalm a ha, hnext]
    rfl
  · exact (hframed.regs.mono (List.nil_subset _) (fun _ h => h)).trans (RegsKept.settle hcalm (by simp))

/-! ### A bad flit -/

theorem takeFlit_uncorrectable (h : readFlit flit = none) : s.takeFlit flit = (s.inc R.LINK_UNCORR_FLITS).badFlit := by
  unfold takeFlit
  rw [h]

theorem takeFlit_crc (h : readFlit flit = some (b, [], false)) : s.takeFlit flit = (s.inc R.LINK_CRC_FAIL).badFlit := by
  unfold takeFlit
  rw [h]
  rfl

theorem badFlit_normal (h : s.rxState = 0) :
    s.badFlit = ((s.setRxState 1).inc R.LINK_NAK_SENT).report 2 (resLinkDir false) 1 12 := if_pos h

theorem badFlit_waits (h : s.rxState = 1) : s.badFlit = s := if_neg (by rw [h]; decide)

/-! ### A good flit -/

/-- A good flit counts 13 slots, and announces no switch of width. -/
def slotsCounted (s : State) : State := s.countSlots .rx 13 0
def unannounced (s : State) : State := { s with link := { s.link with rxSwitch := none, rxCount := 0 } }

theorem takeFlit_good (h : readFlit flit = some (b, [], true)) (hc : c = ctl0Of (flitSlot (BitVec.ofNat 1920 (natBE b)) 0)) :
    s.takeFlit flit = (if c.kind < 2 then s.slotsCounted.linkFields c else s.slotsCounted).initFlit c
      (flitSlot (BitVec.ofNat 1920 (natBE b))) := by
  unfold takeFlit
  rw [h, hc]
  rfl

theorem linkFields_none (ha : c.ackType = 0) (hw : c.wCount = 0) (hr : c.wReq = none) : s.linkFields c = s.unannounced := by
  unfold linkFields
  rw [ha, hw, hr]
  rfl

theorem initFlit_normal (hs : s.rxState < 2) (hi : c.llInit = false) : s.initFlit c sl = s.goodFlit c sl := by
  unfold initFlit
  rw [if_neg (by omega), hi]
  rfl

/-- A good flit of the null or the sequenced kind, without ACK, NAK or width fields. -/
theorem takeFlit_plain (h : readFlit flit = some (b, [], true)) (hc : c = ctl0Of (flitSlot (BitVec.ofNat 1920 (natBE b)) 0))
    (hs : s.rxState < 2) (hi : c.llInit = false) (hk : c.kind < 2) (ha : c.ackType = 0) (hw : c.wCount = 0) (hr : c.wReq = none) :
    s.takeFlit flit = s.slotsCounted.unannounced.goodFlit c (flitSlot (BitVec.ofNat 1920 (natBE b))) := by
  rw [takeFlit_good h hc, if_pos hk, linkFields_none ha hw hr]
  exact initFlit_normal (s := s.slotsCounted.unannounced) hs hi

theorem goodFlit_null (hs : s.rxState < 2) (hk : c.kind = 0) : s.goodFlit c sl = s := by
  unfold goodFlit
  rw [if_neg (by omega), if_neg (by omega), if_pos hk]

theorem goodFlit_duplicate (hs : s.rxState = 0) (hk : c.kind = 1) (hq : c.seq ≠ s.rxSeq) : s.goodFlit c sl = s.inc R.LINK_DUP_FLITS := by
  unfold goodFlit
  rw [if_neg (by omega), if_neg (by omega), if_neg (by omega), if_neg hq, if_pos hs]

theorem goodFlit_expected (hs : s.rxState < 2) (hk : c.kind = 1) (hq : c.seq = s.rxSeq) : s.goodFlit c sl = s.acceptFlit c sl := by
  unfold goodFlit
  rw [if_neg (by omega), if_neg (by omega), if_neg (by omega), if_pos hq]

theorem goodFlit_reserved (hs : s.rxState < 2) (hk : 2 ≤ c.kind) : s.goodFlit c sl = s.protoError 1 := by
  unfold goodFlit
  rw [if_neg (by omega), if_pos hk]

/-! ### An empty flit accepted -/

theorem takeSlots_empty (hm : c.map = 0) (n i : Nat) : takeSlots c sl n i s = .ok s := by
  have htype (i : Nat) : slotType c.map i = 0 := by
    unfold slotType
    rw [hm]
    simp
  induction n generalizing i with
  | zero => rfl
  | succ n ih =>
    unfold takeSlots
    rw [htype]
    exact ih (i + 1)

theorem takeCredits_none (hc : c.cred = 0) : takeCredits c s = .ok s := by
  have hentry (i : Nat) : takeCredit (c.cred.extractLsb' i 12) s = .ok s := by
    unfold takeCredit
    rw [hc]
    simp
  unfold takeCredits
  simp only [List.foldl_cons, List.foldl_nil, Except.bind, hentry]

/-- The next SEQ is expected. -/
def seqTaken (s : State) (q : BitVec 12) : State := (s.setRxState 0).put R.LINK_LL_STAT F.LINK_LL_STAT_RX_SEQ (q + 1).toNat

/-- A flit has been accepted since the last was sent. -/
def grantTaken (s : State) : State := { s with link := { s.link with accepted := true, grantLeft := s.link.grantLeft - 1 } }

theorem Took.trans (h : Took s t l) (h' : Took t u l) : Took s u l :=
  ⟨h.mem.trans h'.mem, h.regs.trans h'.regs, h'.handed.trans h.handed, h'.declared.trans h.declared, h'.rows.trans h.rows,
    h'.fresh.trans h.fresh, h'.raised.trans h.raised⟩

theorem llStat_put_other (s : State) {f g : Fld} (n : Nat) (h : g.lsb + g.width ≤ f.lsb ∨ f.lsb + f.width ≤ g.lsb) :
    (s.put R.LINK_LL_STAT f n).fld R.LINK_LL_STAT g = s.fld R.LINK_LL_STAT g := fld_put_other _ _ _ _ _ _ (.inr h)

theorem report_rd (s : State) (k : Nat) (r : Word) (n a b : Nat) : (s.report k r n a).rd b = s.rd b := rd_eq_of_regs (report_regs ..) b

/-- The count of the accepted flits' slots, and of the wait for credits, shows in no register. -/
def flitCounted (s : State) (n : Nat) : State := (s.countSlots .rx 0 n).noteWait

theorem flitCounted_rd (s : State) (n a : Nat) : (s.flitCounted n).rd a = s.rd a := rfl

theorem flitCounted_link (s : State) (n : Nat) : (s.flitCounted n).link.accepted = s.link.accepted ∧ (s.flitCounted n).link.rx = s.link.rx ∧
    (s.flitCounted n).link.rxFlit = s.link.rxFlit ∧ (s.flitCounted n).link.rxSwitch = s.link.rxSwitch := ⟨rfl, rfl, rfl, rfl⟩

theorem Took.flitCounted (h : Took s t l) (n : Nat) : Took s (t.flitCounted n) l :=
  ⟨h.mem, h.regs, h.handed, h.declared, h.rows, h.fresh, h.raised⟩

theorem acceptFlit_empty (hm : c.map = 0) (hc : c.cred = 0) : s.acceptFlit c sl =
    ((s.seqTaken c.seq).grantTaken.inc64 R.LINK_FLITS_LO).flitCounted (usedSlots c.map) := by
  unfold acceptFlit
  rw [takeSlots_empty hm]
  dsimp only [Except.bind]
  rw [takeCredits_none hc]
  rfl

/-! ### Each outcome of a flit -/

/-- An uncorrectable flit in NORMAL is counted, and asks for a replay. -/
theorem uncorrectable_spec (hs : s.rxState = 0) : ∃ w, (s.inc R.LINK_UNCORR_FLITS).badFlit = w ∧ w.rxState = 1 ∧
    w.rd R.LINK_UNCORR_FLITS = s.rd R.LINK_UNCORR_FLITS + 1 ∧ w.rd R.LINK_NAK_SENT = s.rd R.LINK_NAK_SENT + 1 ∧ w.rxSeq = s.rxSeq ∧
    w.link = s.link ∧ Took s w [R.LINK_LL_STAT, R.LINK_UNCORR_FLITS, R.LINK_NAK_SENT] := by
  have hstat : (s.inc R.LINK_UNCORR_FLITS).rd R.LINK_LL_STAT = s.rd R.LINK_LL_STAT := (rd_inc ..).trans (if_neg (by decide))
  have hun : (s.inc R.LINK_UNCORR_FLITS).rd R.LINK_UNCORR_FLITS = s.rd R.LINK_UNCORR_FLITS + 1 := (rd_inc ..).trans (if_pos rfl)
  have hnak : (s.inc R.LINK_UNCORR_FLITS).rd R.LINK_NAK_SENT = s.rd R.LINK_NAK_SENT := (rd_inc ..).trans (if_neg (by decide))
  have hlink : (s.inc R.LINK_UNCORR_FLITS).link = s.link := inc_link ..
  have htook : Took s (s.inc R.LINK_UNCORR_FLITS) [R.LINK_LL_STAT, R.LINK_UNCORR_FLITS, R.LINK_NAK_SENT] := (Took.refl s).inc (by simp) 1
  refine ⟨_, badFlit_normal ((fld_eq_of_rd hstat _).trans hs), ?_⟩
  generalize s.inc R.LINK_UNCORR_FLITS = u at hstat hun hnak hlink htook
  have htook' := ((htook.put (a := R.LINK_LL_STAT) (by simp) F.LINK_LL_STAT_RX_STATE 1).inc (a := R.LINK_NAK_SENT) (by simp) 1).report 2 (resLinkDir false) 1 12
  have hrd := report_rd ((u.setRxState 1).inc R.LINK_NAK_SENT) 2 (resLinkDir false) 1 12
  have hl : (((u.setRxState 1).inc R.LINK_NAK_SENT).report 2 (resLinkDir false) 1 12).link = s.link :=
    (report_link ..).trans ((inc_link ..).trans hlink)
  have hinc : ∀ a, ((u.setRxState 1).inc R.LINK_NAK_SENT).rd a = if a = R.LINK_NAK_SENT then (u.setRxState 1).rd a + 1 else (u.setRxState 1).rd a := by
    intro a
    rw [rd_inc]
    split
    next h => rw [h]; rfl
    next => rfl
  change Took s (((u.setRxState 1).inc R.LINK_NAK_SENT).report 2 (resLinkDir false) 1 12) _ at htook'
  generalize ((u.setRxState 1).inc R.LINK_NAK_SENT).report 2 (resLinkDir false) 1 12 = w at htook' hrd hl
  generalize (u.setRxState 1).inc R.LINK_NAK_SENT = x at hrd hinc
  have hput : w.rd R.LINK_LL_STAT = (u.setRxState 1).rd R.LINK_LL_STAT := (hrd _).trans ((hinc _).trans (if_neg (by decide)))
  refine ⟨?_, ?_, ?_, ?_, hl, htook'⟩
  · exact (fld_eq_of_rd hput F.LINK_LL_STAT_RX_STATE).trans (fld_put_same _ _ _ _ (by decide))
  · exact (hrd _).trans ((hinc _).trans ((if_neg (by decide)).trans ((rd_wr_other _ _ _ _ (by decide)).trans hun)))
  · refine (hrd _).trans ((hinc _).trans ((if_pos rfl).trans (congrArg (· + 1) ?_)))
    exact (rd_wr_other _ _ _ _ (by decide)).trans hnak
  · refine congrArg (BitVec.ofNat 12) ((fld_eq_of_rd hput F.LINK_LL_STAT_RX_SEQ).trans ?_)
    exact (llStat_put_other u 1 (by decide)).trans (fld_eq_of_rd hstat _)

/-- A flit whose CRC fails is counted; a replay has been asked for. -/
theorem crcFails_spec (hs : s.rxState = 1) : ∃ w, (s.inc R.LINK_CRC_FAIL).badFlit = w ∧ w.rxState = 1 ∧
    w.rd R.LINK_CRC_FAIL = s.rd R.LINK_CRC_FAIL + 1 ∧ w.rd R.LINK_NAK_SENT = s.rd R.LINK_NAK_SENT ∧ w.link = s.link ∧
    Took s w [R.LINK_CRC_FAIL] := by
  have hstate : (s.inc R.LINK_CRC_FAIL).rxState = 1 := (fld_eq_of_rd ((rd_inc ..).trans (if_neg (by decide))) _).trans hs
  exact ⟨_, badFlit_waits hstate, hstate, (rd_inc ..).trans (if_pos rfl), (rd_inc ..).trans (if_neg (by decide)), inc_link ..,
    (Took.refl s).inc (by simp) 1⟩

/-- The link's own state after a plain flit: the slots are counted, and no switch of width is announced. -/
theorem plain_took {l : List Nat} : Took s s.slotsCounted.unannounced l := ((Took.refl s).link rfl rfl).link rfl rfl

/-- A duplicate is counted. -/
theorem duplicate_spec : ∃ w, s.slotsCounted.unannounced.inc R.LINK_DUP_FLITS = w ∧ w.rd R.LINK_DUP_FLITS = s.rd R.LINK_DUP_FLITS + 1 ∧
    w.rd R.LINK_LL_STAT = s.rd R.LINK_LL_STAT ∧ w.link = s.slotsCounted.unannounced.link ∧ Took s w [R.LINK_DUP_FLITS] :=
  ⟨_, rfl, (rd_inc ..).trans (if_pos rfl), (rd_inc ..).trans (if_neg (by decide)), inc_link .., plain_took.inc (by simp) 1⟩

/-- The next SEQ is expected, in NORMAL. -/
theorem seqTaken_spec (s : State) (q : BitVec 12) : (s.seqTaken q).rxState = 0 ∧ (s.seqTaken q).rxSeq = q + 1 := by
  refine ⟨(llStat_put_other _ _ (by decide)).trans (fld_put_same _ _ _ _ (by decide)), ?_⟩
  have hseq : (s.seqTaken q).fld R.LINK_LL_STAT F.LINK_LL_STAT_RX_SEQ = (q + 1).toNat :=
    (fld_put_same _ _ _ _ (by decide)).trans (Nat.mod_eq_of_lt (q + 1).isLt)
  refine (congrArg (BitVec.ofNat 12) hseq).trans ?_
  rw [BitVec.ofNat_toNat, BitVec.setWidth_eq]

theorem seqTaken_rd (s : State) (q : BitVec 12) {a : Nat} (h : a ≠ R.LINK_LL_STAT) : (s.seqTaken q).rd a = s.rd a :=
  (rd_wr_other _ _ _ _ h).trans (rd_wr_other _ _ _ _ h)

theorem seqTaken_link (s : State) (q : BitVec 12) : (s.seqTaken q).link = s.link := rfl

theorem Took.seqTaken (h : Took s t l) (ha : R.LINK_LL_STAT ∈ l) (q : BitVec 12) : Took s (t.seqTaken q) l := (h.put ha _ 0).put ha _ _

theorem grantTaken_rd (s : State) (a : Nat) : s.grantTaken.rd a = s.rd a := rfl

theorem grantTaken_link (s : State) : s.grantTaken.link = { s.link with accepted := true, grantLeft := s.link.grantLeft - 1 } := rfl

/-- An empty flit accepted: the next one is expected. -/
theorem acceptFlit_spec (hm : c.map = 0) (hc : c.cred = 0) : ∃ w, s.acceptFlit c sl = w ∧
    w.rxState = 0 ∧ w.rxSeq = c.seq + 1 ∧ w.rd64 R.LINK_FLITS_LO = s.rd64 R.LINK_FLITS_LO + 1 ∧ w.link.accepted = true ∧
    w.link.rx = s.link.rx ∧ w.link.rxFlit = s.link.rxFlit ∧ w.link.rxSwitch = s.link.rxSwitch ∧
    Took s w [R.LINK_LL_STAT, R.LINK_FLITS_LO, R.LINK_FLITS_HI] := by
  refine ⟨_, acceptFlit_empty hm hc, ?_⟩
  obtain ⟨qstate, qseq⟩ := seqTaken_spec s c.seq
  have qrd {a : Nat} := seqTaken_rd (a := a) s c.seq
  have qlink := seqTaken_link s c.seq
  have qtook := (Took.refl (l := [R.LINK_LL_STAT, R.LINK_FLITS_LO, R.LINK_FLITS_HI]) s).seqTaken (by simp) c.seq
  generalize s.seqTaken c.seq = q at qstate qseq qrd qlink qtook
  have gtook : Took s q.grantTaken [R.LINK_LL_STAT, R.LINK_FLITS_LO, R.LINK_FLITS_HI] := qtook.link rfl rfl
  have grd := grantTaken_rd q
  have glink := grantTaken_link q
  generalize q.grantTaken = v at gtook grd glink
  have ftook := (gtook.inc64 (a := R.LINK_FLITS_LO) (by simp) (by simp) 1).flitCounted (usedSlots c.map)
  have hcount := rd64_inc64 v R.LINK_FLITS_LO 1
  have hstat : (v.inc64 R.LINK_FLITS_LO).rd R.LINK_LL_STAT = v.rd R.LINK_LL_STAT := rd_inc64_other _ _ _ _ (by decide) (by decide)
  have hlink : (v.inc64 R.LINK_FLITS_LO).link = v.link := inc64_link ..
  obtain ⟨facc, frx, fflit, fswitch⟩ := flitCounted_link (v.inc64 R.LINK_FLITS_LO) (usedSlots c.map)
  have frd := flitCounted_rd (v.inc64 R.LINK_FLITS_LO) (usedSlots c.map)
  generalize (v.inc64 R.LINK_FLITS_LO).flitCounted (usedSlots c.map) = w at ftook facc frx fflit fswitch frd
  generalize v.inc64 R.LINK_FLITS_LO = x at hstat hlink hcount facc frx fflit fswitch frd
  have hstat := (frd R.LINK_LL_STAT).trans (hstat.trans (grd _))
  refine ⟨(fld_eq_of_rd hstat _).trans qstate, (congrArg (BitVec.ofNat 12) (fld_eq_of_rd hstat _)).trans qseq, ?_, ?_, ?_, ?_, ?_, ftook⟩
  · refine (rd64_congr (frd _) (frd _)).trans (hcount.trans ?_)
    exact congrArg (· + 1) (rd64_congr ((grd _).trans (qrd (by decide))) ((grd _).trans (qrd (by decide))))
  · rw [facc, hlink, glink]
  · rw [frx, hlink, glink, qlink]
  · rw [fflit, hlink, glink, qlink]
  · rw [fswitch, hlink, glink, qlink]

/-- The flit that was expected, empty: accepted, and the next one is expected. -/
theorem accepted_spec (hm : c.map = 0) (hc : c.cred = 0) (hq : c.seq = s.rxSeq) : ∃ w, s.slotsCounted.unannounced.acceptFlit c sl = w ∧
    w.rxState = 0 ∧ w.rxSeq = s.rxSeq + 1 ∧ w.rd64 R.LINK_FLITS_LO = s.rd64 R.LINK_FLITS_LO + 1 ∧ w.link.accepted = true ∧
    w.link.rx = s.link.rx ∧ w.link.rxFlit = s.link.rxFlit ∧ w.link.rxSwitch = none ∧
    Took s w [R.LINK_LL_STAT, R.LINK_FLITS_LO, R.LINK_FLITS_HI] := by
  obtain ⟨w, hw, wstate, wseq, wflits, wacc, wrx, wflit, wswitch, wtook⟩ := acceptFlit_spec (s := s.slotsCounted.unannounced) (sl := sl) hm hc
  exact ⟨w, hw, wstate, by rw [wseq, hq], wflits, wacc, wrx, wflit, wswitch, plain_took.trans wtook⟩

/-- A protocol error stops both machines. -/
theorem protoError_spec (s : State) : ∃ w, s.slotsCounted.protoError 1 = w ∧ w.rxState = 2 ∧ w.txState = 3 ∧
    w.fld R.LINK_LL_STAT2 F.LINK_LL_STAT2_ERR_CAUSE = 1 ∧ w.rxSeq = s.rxSeq ∧ w.link = s.slotsCounted.link ∧
    Took s w [R.LINK_LL_STAT, R.LINK_LL_STAT2] := by
  have hplain : Took s s.slotsCounted [R.LINK_LL_STAT, R.LINK_LL_STAT2] := (Took.refl s).link rfl rfl
  have hrd : s.slotsCounted.rd R.LINK_LL_STAT = s.rd R.LINK_LL_STAT := rfl
  refine ⟨_, rfl, ?_⟩
  unfold protoError
  generalize s.slotsCounted = v at hplain hrd
  have htook := ((((hplain.put (a := R.LINK_LL_STAT) (by simp) F.LINK_LL_STAT_RX_STATE 2).put (a := R.LINK_LL_STAT) (by simp)
    F.LINK_LL_STAT_TX_STATE 3).put (a := R.LINK_LL_STAT2) (by simp) F.LINK_LL_STAT2_ERR_CAUSE 1).report 23 (resLinkDir false) 1 12)
  have hrx : ((v.setRxState 2).setTxState 3).rxState = 2 := (llStat_put_other _ _ (by decide)).trans (fld_put_same _ _ _ _ (by decide))
  have htx : ((v.setRxState 2).setTxState 3).txState = 3 := fld_put_same _ _ _ _ (by decide)
  have hseq : ((v.setRxState 2).setTxState 3).fld R.LINK_LL_STAT F.LINK_LL_STAT_RX_SEQ = v.fld R.LINK_LL_STAT F.LINK_LL_STAT_RX_SEQ :=
    (llStat_put_other _ _ (by decide)).trans (llStat_put_other _ _ (by decide))
  have hlink : ((v.setRxState 2).setTxState 3).link = v.link := rfl
  change Took s ((((v.setRxState 2).setTxState 3).put R.LINK_LL_STAT2 F.LINK_LL_STAT2_ERR_CAUSE 1).report 23 (resLinkDir false) 1 12) _ at htook
  generalize (v.setRxState 2).setTxState 3 = x at hrx htx hseq hlink htook
  have hstat : (x.put R.LINK_LL_STAT2 F.LINK_LL_STAT2_ERR_CAUSE 1).rd R.LINK_LL_STAT = x.rd R.LINK_LL_STAT := rd_wr_other _ _ _ _ (by decide)
  have hcause : (x.put R.LINK_LL_STAT2 F.LINK_LL_STAT2_ERR_CAUSE 1).fld R.LINK_LL_STAT2 F.LINK_LL_STAT2_ERR_CAUSE = 1 :=
    fld_put_same _ _ _ _ (by decide)
  have hplink : (x.put R.LINK_LL_STAT2 F.LINK_LL_STAT2_ERR_CAUSE 1).link = x.link := rfl
  generalize x.put R.LINK_LL_STAT2 F.LINK_LL_STAT2_ERR_CAUSE 1 = y at hstat hcause hplink htook
  have hy (b : Nat) := report_rd y 23 (resLinkDir false) 1 12 b
  have hstat := (hy _).trans hstat
  refine ⟨(fld_eq_of_rd hstat _).trans hrx, (fld_eq_of_rd hstat _).trans htx, (fld_eq_of_rd (hy _) _).trans hcause, ?_,
    (report_link ..).trans (hplink.trans hlink), htook⟩
  exact congrArg (BitVec.ofNat 12) ((fld_eq_of_rd hstat _).trans (hseq.trans (fld_eq_of_rd hrd _)))

/-- The state in which a flit is taken: the descramblers have moved. -/
structure Undone (s v : State) : Prop where
  rd : ∀ a, v.rd a = s.rd a
  rxFlit : v.link.rxFlit = s.link.rxFlit
  rxSwitch : v.link.rxSwitch = s.link.rxSwitch
  rx : v.link.rx = s.link.rx
  took : ∀ {l}, Took s v l

theorem undone_descrambled (d : SMap (BitVec 58)) (r : SMap Nat) : Undone s (s.descrambled d r) :=
  ⟨fun _ => rfl, rfl, rfl, rfl, (Took.refl s).link rfl rfl⟩

theorem Undone.fld (h : Undone s t) (a : Nat) (f : Fld) : t.fld a f = s.fld a f := fld_eq_of_rd (h.rd a) f

end State
end Sys2Proof.Machine

namespace Sys2Proof.Safety
open Sys2Proof.Machine Sys2Proof.Machine.State Sys2Proof.Laws

section
variable {s : State} {f : BitVec 1920} {marks : List MarkIn}

/-- A flit inside a marker period: what its taking, after the descramblers have moved, leaves. -/
theorem flitReceive_done (ho : OnXo s) (hc : Calm s) (ha : s.linkActive = true) (hd : s.drogue = false)
    (hm : s.link.rxFlit ≠ 0 ∨ s.link.rxUi ≠ 0) : ∃ v, Undone s v ∧ ∀ w l, v.takeFlit (s.undoFlit s.link.rxFlit f).1 = w → Took v w l →
      (∀ a ∈ l, pageOf a = 0x00E) → (w.link.rxFlit = 11 → w.link.rxSwitch = none) →
      ∃ t, exec (.flitReceive f marks) s = .next t ∧ FlitDone s w t l := by
  obtain ⟨d, r, hv⟩ := undoFlit_spec s s.link.rxFlit f
  refine ⟨s.descrambled d r, undone_descrambled d r, fun w l hw htook hl hs => ⟨w.nextFlit.afterLink, ?_,
    ((undone_descrambled d r).took.trans htook).done ho hc hl hs⟩⟩
  refine congrArg Host.Outcome.next ?_
  rw [flitIn_eq f marks ha hd hm, hv, hw]

/-- An uncorrectable flit asks for a replay. -/
theorem flitReceive_uncorrectable (s : State) (f : BitVec 1920) (marks : List MarkIn) (ho : OnXo s) (hc : Calm s)
    (ha : s.linkActive = true) (hd : s.drogue = false) (hm : s.link.rxFlit ≠ 0 ∨ s.link.rxUi ≠ 0)
    (hsw : s.link.rxFlit = 11 → s.link.rxSwitch = none) (hf : readFlit (s.undoFlit s.link.rxFlit f).1 = none) (hs : s.rxState = 0) :
    Gives (.flitReceive f marks) s fun t =>
      t.rxState = 1 ∧ t.rd R.LINK_UNCORR_FLITS = s.rd R.LINK_UNCORR_FLITS + 1 ∧ t.rd R.LINK_NAK_SENT = s.rd R.LINK_NAK_SENT + 1 ∧
        t.rxSeq = s.rxSeq ∧ t.link.rx = s.link.rx ∧ MemKept s t ∧
        RegsKept s t [0x014] [R.LINK_LL_STAT, R.LINK_UNCORR_FLITS, R.LINK_NAK_SENT] := by
  obtain ⟨v, hv, hdone⟩ := flitReceive_done (f := f) (marks := marks) ho hc ha hd hm
  obtain ⟨w, hw, wstate, wun, wnak, wseq, wlink, wtook⟩ := uncorrectable_spec (s := v) ((hv.fld _ _).trans hs)
  obtain ⟨t, heq, ⟨ui, tlink⟩, trd, tmem, tregs⟩ := hdone w _ ((takeFlit_uncorrectable hf).trans hw) wtook (by decide)
    (by rw [wlink, hv.rxFlit, hv.rxSwitch]; exact hsw)
  refine ⟨t, heq, ?_, ?_, ?_, ?_, ?_, tmem, tregs⟩
  · exact (fld_eq_of_rd (trd _ (by decide)) _).trans wstate
  · rw [trd _ (by decide), wun, hv.rd]
  · rw [trd _ (by decide), wnak, hv.rd]
  · exact (congrArg (BitVec.ofNat 12) (fld_eq_of_rd (trd _ (by decide)) _)).trans (wseq.trans (congrArg (BitVec.ofNat 12) (hv.fld _ _)))
  · rw [tlink]
    exact (congrArg LinkState.rx wlink).trans hv.rx

/-- A flit whose CRC fails is counted. -/
theorem flitReceive_crc (s : State) (f : BitVec 1920) (marks : List MarkIn) (b : List Nat) (ho : OnXo s) (hc : Calm s)
    (ha : s.linkActive = true) (hd : s.drogue = false) (hm : s.link.rxFlit ≠ 0 ∨ s.link.rxUi ≠ 0)
    (hsw : s.link.rxFlit = 11 → s.link.rxSwitch = none) (hf : readFlit (s.undoFlit s.link.rxFlit f).1 = some (b, [], false))
    (hs : s.rxState = 1) : Gives (.flitReceive f marks) s fun t =>
      t.rxState = 1 ∧ t.rd R.LINK_CRC_FAIL = s.rd R.LINK_CRC_FAIL + 1 ∧ t.rd R.LINK_NAK_SENT = s.rd R.LINK_NAK_SENT ∧
        t.link.rx = s.link.rx ∧ MemKept s t ∧ RegsKept s t [0x014] [R.LINK_CRC_FAIL] := by
  obtain ⟨v, hv, hdone⟩ := flitReceive_done (f := f) (marks := marks) ho hc ha hd hm
  obtain ⟨w, hw, wstate, wcrc, wnak, wlink, wtook⟩ := crcFails_spec (s := v) ((hv.fld _ _).trans hs)
  obtain ⟨t, heq, ⟨ui, tlink⟩, trd, tmem, tregs⟩ := hdone w _ ((takeFlit_crc hf).trans hw) wtook (by decide)
    (by rw [wlink, hv.rxFlit, hv.rxSwitch]; exact hsw)
  refine ⟨t, heq, ?_, ?_, ?_, ?_, tmem, tregs⟩
  · exact (fld_eq_of_rd (trd _ (by decide)) _).trans wstate
  · rw [trd _ (by decide), wcrc, hv.rd]
  · rw [trd _ (by decide), wnak, hv.rd]
  · rw [tlink]
    exact (congrArg LinkState.rx wlink).trans hv.rx

/-- A null flit brings nothing. -/
theorem flitReceive_null (s : State) (f : BitVec 1920) (marks : List MarkIn) (b : List Nat) (c : Ctl0) (ho : OnXo s) (hc : Calm s)
    (ha : s.linkActive = true) (hd : s.drogue = false) (hm : s.link.rxFlit ≠ 0 ∨ s.link.rxUi ≠ 0)
    (_hsw : s.link.rxFlit = 11 → s.link.rxSwitch = none) (hf : readFlit (s.undoFlit s.link.rxFlit f).1 = some (b, [], true))
    (hctl : c = ctl0Of (flitSlot (BitVec.ofNat 1920 (natBE b)) 0)) (hs : s.rxState < 2) (hi : c.llInit = false) (hk : c.kind = 0)
    (hack : c.ackType = 0) (hw : c.wCount = 0) (hr : c.wReq = none) : Gives (.flitReceive f marks) s fun t =>
      t.link.rx = s.link.rx ∧ t.link.rxFlit = (s.link.rxFlit + 1) % 12 ∧ t.link.rxSwitch = none ∧ MemKept s t ∧
        RegsKept s t [0x014] [] := by
  obtain ⟨v, hv, hdone⟩ := flitReceive_done (f := f) (marks := marks) ho hc ha hd hm
  have hstate : v.rxState < 2 := (hv.fld _ _).trans_lt hs
  have htake := (takeFlit_plain hf hctl hstate hi (by omega) hack hw hr).trans (goodFlit_null (s := v.slotsCounted.unannounced) hstate hk)
  obtain ⟨t, heq, ⟨ui, tlink⟩, trd, tmem, tregs⟩ := hdone _ [] htake plain_took (by simp) fun _ => rfl
  refine ⟨t, heq, ?_, ?_, ?_, tmem, tregs⟩
  · rw [tlink]
    exact hv.rx
  · rw [tlink, ← hv.rxFlit]
    rfl
  · rw [tlink]
    rfl

/-- A duplicate is counted. -/
theorem flitReceive_duplicate (s : State) (f : BitVec 1920) (marks : List MarkIn) (b : List Nat) (c : Ctl0) (ho : OnXo s) (hc : Calm s)
    (ha : s.linkActive = true) (hd : s.drogue = false) (hm : s.link.rxFlit ≠ 0 ∨ s.link.rxUi ≠ 0)
    (_hsw : s.link.rxFlit = 11 → s.link.rxSwitch = none) (hf : readFlit (s.undoFlit s.link.rxFlit f).1 = some (b, [], true))
    (hctl : c = ctl0Of (flitSlot (BitVec.ofNat 1920 (natBE b)) 0)) (hs : s.rxState = 0) (hi : c.llInit = false) (hk : c.kind = 1)
    (hq : c.seq ≠ s.rxSeq) (hack : c.ackType = 0) (hw : c.wCount = 0) (hr : c.wReq = none) : Gives (.flitReceive f marks) s fun t =>
      t.rd R.LINK_DUP_FLITS = s.rd R.LINK_DUP_FLITS + 1 ∧ t.link.rx = s.link.rx ∧ t.rxSeq = s.rxSeq ∧ MemKept s t ∧
        RegsKept s t [0x014] [R.LINK_DUP_FLITS] := by
  obtain ⟨v, hv, hdone⟩ := flitReceive_done (f := f) (marks := marks) ho hc ha hd hm
  have hstate : v.rxState = 0 := (hv.fld _ _).trans hs
  have hseq : v.rxSeq = s.rxSeq := congrArg (BitVec.ofNat 12) (hv.fld _ _)
  obtain ⟨w, hw', wdup, wstat, wlink, wtook⟩ := duplicate_spec (s := v)
  have htake := (takeFlit_plain hf hctl (by omega) hi (by omega) hack hw hr).trans
    ((goodFlit_duplicate (s := v.slotsCounted.unannounced) hstate hk (fun h => hq (h.trans hseq))).trans hw')
  obtain ⟨t, heq, ⟨ui, tlink⟩, trd, tmem, tregs⟩ := hdone w _ htake wtook (by decide) fun _ => by rw [wlink]; rfl
  refine ⟨t, heq, ?_, ?_, ?_, tmem, tregs⟩
  · rw [trd _ (by decide), wdup, hv.rd]
  · rw [tlink]
    exact (congrArg LinkState.rx wlink).trans hv.rx
  · refine (congrArg (BitVec.ofNat 12) (fld_eq_of_rd ((trd _ (by decide)).trans wstat) _)).trans hseq

/-- The expected flit is accepted. -/
theorem flitReceive_accepted (s : State) (f : BitVec 1920) (marks : List MarkIn) (b : List Nat) (c : Ctl0) (ho : OnXo s) (hc : Calm s)
    (ha : s.linkActive = true) (hd : s.drogue = false) (hm : s.link.rxFlit ≠ 0 ∨ s.link.rxUi ≠ 0)
    (_hsw : s.link.rxFlit = 11 → s.link.rxSwitch = none) (hf : readFlit (s.undoFlit s.link.rxFlit f).1 = some (b, [], true))
    (hctl : c = ctl0Of (flitSlot (BitVec.ofNat 1920 (natBE b)) 0)) (hs : s.rxState < 2) (hi : c.llInit = false) (hk : c.kind = 1)
    (hq : c.seq = s.rxSeq) (hack : c.ackType = 0) (hw : c.wCount = 0) (hr : c.wReq = none) (hmap : c.map = 0) (hcred : c.cred = 0) :
    Gives (.flitReceive f marks) s fun t =>
      t.rxState = 0 ∧ t.rxSeq = s.rxSeq + 1 ∧ t.rd64 R.LINK_FLITS_LO = s.rd64 R.LINK_FLITS_LO + 1 ∧ t.link.accepted = true ∧
        t.link.rx = s.link.rx ∧ MemKept s t ∧ RegsKept s t [0x014] [R.LINK_LL_STAT, R.LINK_FLITS_LO, R.LINK_FLITS_HI] := by
  obtain ⟨v, hv, hdone⟩ := flitReceive_done (f := f) (marks := marks) ho hc ha hd hm
  have hstate : v.rxState < 2 := (hv.fld _ _).trans_lt hs
  have hseq : v.rxSeq = s.rxSeq := congrArg (BitVec.ofNat 12) (hv.fld _ _)
  obtain ⟨w, hw', wstate, wseq, wflits, wacc, wrx, wflit, wswitch, wtook⟩ :=
    accepted_spec (s := v) (sl := flitSlot (BitVec.ofNat 1920 (natBE b))) hmap hcred (hq.trans hseq.symm)
  have htake := (takeFlit_plain hf hctl hstate hi (by omega) hack hw hr).trans
    ((goodFlit_expected (s := v.slotsCounted.unannounced) hstate hk (hq.trans hseq.symm)).trans hw')
  obtain ⟨t, heq, ⟨ui, tlink⟩, trd, tmem, tregs⟩ := hdone w _ htake wtook (by decide) fun _ => wswitch
  refine ⟨t, heq, ?_, ?_, ?_, ?_, ?_, tmem, tregs⟩
  · exact (fld_eq_of_rd (trd _ (by decide)) _).trans wstate
  · refine (congrArg (BitVec.ofNat 12) (fld_eq_of_rd (trd _ (by decide)) _)).trans (wseq.trans ?_)
    rw [hseq]
  · rw [rd64_congr (trd _ (by decide)) (trd _ (by decide)), wflits, rd64_congr (hv.rd _) (hv.rd _)]
  · rw [tlink]
    exact wacc
  · rw [tlink]
    exact wrx.trans hv.rx

/-- A flit of a reserved kind is a protocol error. -/
theorem flitReceive_reserved (s : State) (f : BitVec 1920) (marks : List MarkIn) (b : List Nat) (c : Ctl0) (ho : OnXo s) (hc : Calm s)
    (ha : s.linkActive = true) (hd : s.drogue = false) (hm : s.link.rxFlit ≠ 0 ∨ s.link.rxUi ≠ 0)
    (hsw : s.link.rxFlit = 11 → s.link.rxSwitch = none) (hf : readFlit (s.undoFlit s.link.rxFlit f).1 = some (b, [], true))
    (hctl : c = ctl0Of (flitSlot (BitVec.ofNat 1920 (natBE b)) 0)) (hs : s.rxState < 2) (hi : c.llInit = false) (hk : 2 ≤ c.kind) :
    Gives (.flitReceive f marks) s fun t =>
      t.rxState = 2 ∧ t.txState = 3 ∧ t.fld R.LINK_LL_STAT2 F.LINK_LL_STAT2_ERR_CAUSE = 1 ∧ t.rxSeq = s.rxSeq ∧
        t.link.rx = s.link.rx ∧ MemKept s t ∧ RegsKept s t [0x014] [R.LINK_LL_STAT, R.LINK_LL_STAT2] := by
  obtain ⟨v, hv, hdone⟩ := flitReceive_done (f := f) (marks := marks) ho hc ha hd hm
  have hstate : v.rxState < 2 := (hv.fld _ _).trans_lt hs
  have hseq : v.rxSeq = s.rxSeq := congrArg (BitVec.ofNat 12) (hv.fld _ _)
  obtain ⟨w, hw, wrx, wtx, wcause, wseq, wlink, wtook⟩ := protoError_spec v
  have htake : v.takeFlit (s.undoFlit s.link.rxFlit f).1 = w := by
    rw [takeFlit_good hf hctl, if_neg (by omega), initFlit_normal (s := v.slotsCounted) hstate hi]
    exact (goodFlit_reserved (s := v.slotsCounted) hstate hk).trans hw
  obtain ⟨t, heq, ⟨ui, tlink⟩, trd, tmem, tregs⟩ := hdone w _ htake wtook (by decide) (by
    rw [wlink]
    intro h
    exact hv.rxSwitch.trans (hsw (hv.rxFlit.symm.trans h)))
  refine ⟨t, heq, ?_, ?_, ?_, ?_, ?_, tmem, tregs⟩
  · exact (fld_eq_of_rd (trd _ (by decide)) _).trans wrx
  · exact (fld_eq_of_rd (trd _ (by decide)) _).trans wtx
  · exact (fld_eq_of_rd (trd _ (by decide)) _).trans wcause
  · exact (congrArg (BitVec.ofNat 12) (fld_eq_of_rd (trd _ (by decide)) _)).trans (wseq.trans hseq)
  · rw [tlink]
    exact (congrArg LinkState.rx wlink).trans hv.rx

end

end Sys2Proof.Safety
end

section
/-! SUPPORT. The first flit of a marker period (R32): what a flit leaves of the lanes, and the markers before it. -/

namespace Sys2Proof.Machine
open Sys2Proof.Laws Sys2Proof.Safety State

/-! ### A change of width leaves the place in the frame -/

theorem blockSyms_rxFlit (s : State) (i l c : Nat) (bits : List Bool) : (s.blockSyms i l c bits).2.link.rxFlit = s.link.rxFlit := rfl

theorem burstOut_rxFlit (s : State) (i l : Nat) (syms : List Nat) : ((s.quiet i l).emit i l syms).link.rxFlit = s.link.rxFlit := rfl

theorem markersSet_rxFlit (s : State) (m : SMap Nat) : ({ s with link := { s.link with markers := m } } : State).link.rxFlit = s.link.rxFlit :=
  rfl

theorem laneBurst_rxFlit (s : State) (i code : Nat) : (s.laneBurst i code).link.rxFlit = s.link.rxFlit := by
  have hblocks (l : Nat) (ns : List Nat) : ∀ x : List Nat × State,
      (ns.foldl (fun (x : List Nat × State) n =>
        let y := x.2.blockSyms i l (code * 4096 + (if code = 10 then n else 0)) (List.replicate 960 false)
        (x.1 ++ y.1, y.2)) x).2.link.rxFlit = x.2.link.rxFlit := by
    induction ns with
    | nil => exact fun _ => rfl
    | cons n ns ih => exact fun x => (ih _).trans (blockSyms_rxFlit x.2 i l (code * 4096 + (if code = 10 then n else 0)) _)
  unfold laneBurst
  refine (markersSet_rxFlit _ _).trans (foldl_blind (g := (·.link.rxFlit)) (fun t l => ?_) _ s)
  exact (burstOut_rxFlit _ _ _ _).trans (hblocks l _ ([], t))

theorem startWidth_rxFlit (s : State) (d : Dir) (n : Nat) : (s.startWidth d n).link.rxFlit = s.link.rxFlit := by
  cases d with
  | rx => rfl
  | tx => exact (foldl_blind (g := (·.link.rxFlit)) (fun t i => laneBurst_rxFlit t i 10) _ _).trans rfl

theorem decideWidth_rxFlit (s : State) (d : Dir) : (s.decideWidth d).link.rxFlit = s.link.rxFlit := by
  unfold State.decideWidth
  split
  · rfl
  · split
    · rfl
    · split
      · rfl
      · exact startWidth_rxFlit s d _

/-! ### What a flit leaves of the lanes -/

theorem takeFlit_bad {s : State} {flit : BitVec 1920} {b e : List Nat} (h : readFlit flit = some (b, e, false)) :
    s.takeFlit flit = ((s.countCorr s.link.rxFlit e).inc R.LINK_CRC_FAIL).badFlit := by
  unfold takeFlit
  rw [h]
  rfl

/-- A flit whose CRC holds, its corrected bytes counted. -/
def flitCorrected (s : State) (e : List Nat) : State :=
  if e.isEmpty then s.countCorr s.link.rxFlit e else (s.countCorr s.link.rxFlit e).inc R.LINK_CORR_FLITS

theorem takeFlit_corrected {s : State} {flit : BitVec 1920} {b e : List Nat} (h : readFlit flit = some (b, e, true)) :
    s.takeFlit flit = (if (ctl0Of (flitSlot (BitVec.ofNat 1920 (natBE b)) 0)).kind < 2
      then (flitCorrected s e).slotsCounted.linkFields (ctl0Of (flitSlot (BitVec.ofNat 1920 (natBE b)) 0))
      else (flitCorrected s e).slotsCounted).initFlit (ctl0Of (flitSlot (BitVec.ofNat 1920 (natBE b)) 0))
        (flitSlot (BitVec.ofNat 1920 (natBE b))) := by
  unfold takeFlit
  rw [h]
  rfl

/-- A part of the state that no flit moves: no register of the LINK page, not the number of the next event nor a count of
corrected bytes, no event or delivery, and of the link's own state at most the place in the frame and the training. -/
structure FlitBlind {α : Type} (g : State → α) : Prop where
  wr : ∀ (s : State) a v, pageOf a = 0x00E → g (s.wr a v) = g s
  seq : ∀ (s : State) v, g (s.wr R.XACT_EVT_SEQ v) = g s
  corr : ∀ (s : State) i l v, g (s.wr (R.RXG_RXL_CORR i l) v) = g s
  counted : ∀ (s : State) a n, g (s.counted a n) = g s
  report : ∀ (s : State) k r n a, g (s.report k r n a) = g s
  xact : ∀ (s : State) x, g { s with xact := x } = g s
  link : ∀ (s : State) (l : LinkState), l.fresh = s.link.fresh → l.rxFlit = s.link.rxFlit → g { s with link := l } = g s
  width : ∀ (s : State) d, g (s.decideWidth d) = g s

namespace FlitBlind

variable {α : Type} {g : State → α} (hg : FlitBlind g) (s : State)
include hg

theorem inc_of {a : Nat} (ha : ∀ (t : State) v, g (t.wr a v) = g t) (n : Nat) : g (s.inc a n) = g s := by
  unfold State.inc
  split
  · rfl
  · rw [hg.counted, ha]

theorem inc {a : Nat} (ha : pageOf a = 0x00E) (n : Nat) : g (s.inc a n) = g s := hg.inc_of s (fun t v => hg.wr t a v ha) n
theorem put {a : Nat} (ha : pageOf a = 0x00E) (f : Fld) (n : Nat) : g (s.put a f n) = g s := hg.wr s _ _ ha
theorem flag {a : Nat} (ha : pageOf a = 0x00E) (f : Fld) (b : Bool) : g (s.flag a f b) = g s := hg.wr s _ _ ha

theorem inc64 {a : Nat} (ha : pageOf a = 0x00E) (ha' : pageOf (a + 4) = 0x00E) (n : Nat) : g (s.inc64 a n) = g s := by
  unfold State.inc64 State.wr64
  split
  · rfl
  · rw [hg.counted, hg.wr _ _ _ ha', hg.wr _ _ _ ha]

theorem setRxState (n : Nat) : g (s.setRxState n) = g s := hg.put s rfl _ n
theorem setTxState (n : Nat) : g (s.setTxState n) = g s := hg.put s rfl _ n

theorem noteWait : g s.noteWait = g s := hg.xact s _

/-! #### Acknowledge and replay -/

theorem setStored (l : List Stored) : g (s.setStored l) = g s := (hg.put _ rfl _ _).trans (hg.link s _ rfl rfl)

theorem startReplay (a : BitVec 12) : g (s.startReplay a) = g s := by
  unfold State.startReplay
  dsimp only
  split <;> exact (hg.put _ rfl _ _).trans (hg.link s _ rfl rfl)

theorem freeTo (a : BitVec 12) : g (s.freeTo a) = g s := by
  have hends (t : State) (ht : g t = g s) : g (if t.txState = 2 then t.setTxState 0
      else if t.txState = 1 ∧ t.link.stored.length ≤ t.link.replayAt then t.setTxState 0 else t) = g s := by
    split
    · exact (hg.setTxState t 0).trans ht
    · split
      · exact (hg.setTxState t 0).trans ht
      · exact ht
  unfold State.freeTo
  refine hends _ ?_
  exact (hg.link _ _ (by rfl) (by rfl)).trans (hg.setStored s _)

theorem ackReceived (nak : Bool) (a : BitVec 12) : g (s.ackReceived nak a) = g s := by
  have hreplay (t : State) (ht : g t = g s) : g (if nak && decide (t.txState ≠ 3) && decide (t.link.hold ≠ some (a + 1))
      then t.startReplay (a + 1) else t) = g s := by
    split
    · exact (hg.startReplay t _).trans ht
    · exact ht
  have hput : g (s.put R.LINK_LL_STAT2 F.LINK_LL_STAT2_ACK_SEQ a.toNat) = g s := hg.put s rfl _ _
  unfold State.ackReceived
  generalize s.put R.LINK_LL_STAT2 F.LINK_LL_STAT2_ACK_SEQ a.toNat = t at hput
  dsimp only
  generalize (t.link.stored.any fun f => decide (f.seq = a)) = known
  split
  · exact (hg.inc t rfl 1).trans hput
  · cases known with
    | true => exact hreplay _ ((hg.freeTo t a).trans hput)
    | false => exact hreplay t hput

theorem rxAnnounced (n c : Nat) : g (s.rxAnnounced n c) = g s := by
  unfold State.rxAnnounced
  split
  · exact hg.link s _ rfl rfl
  · split
    · exact hg.link s _ rfl rfl
    · rfl

theorem linkFields (c : Ctl0) : g (s.linkFields c) = g s := by
  have hack : g (if c.ackType = 1 then s.ackReceived false c.ackSeq else if c.ackType = 2 then s.ackReceived true c.ackSeq else s) = g s := by
    split
    · exact hg.ackReceived s _ _
    · split
      · exact hg.ackReceived s _ _
      · rfl
  unfold State.linkFields
  generalize (if c.ackType = 1 then s.ackReceived false c.ackSeq else if c.ackType = 2 then s.ackReceived true c.ackSeq else s) = t at hack
  dsimp only
  have hann := (hg.rxAnnounced t c.wStep c.wCount).trans hack
  split
  · exact hann
  · exact (hg.width _ _).trans ((hg.put _ rfl _ _).trans hann)
  · exact (hg.width _ _).trans ((hg.put _ rfl _ _).trans hann)

/-! #### Initialisation -/

theorem initAdvance : g s.initAdvance = g s := by
  unfold State.initAdvance
  split
  · exact hg.link s _ rfl rfl
  · rfl

theorem returnCredits (c h d : Nat) : g (s.returnCredits c h d) = g s := hg.link s _ rfl rfl

theorem llReady : g s.llReady = g s := by
  unfold State.llReady
  refine (foldl_blind (fun t c => hg.returnCredits t c _ _) _ _).trans ?_
  exact (hg.link _ _ (by rfl) (by rfl)).trans ((hg.flag _ (a := R.LINK_LL_STAT2) rfl _ _).trans (hg.setRxState s 0))

theorem initRegs : g (initRegs s) = g s := by
  have hstat : g (llStatCleared s) = g s :=
    (hg.put _ rfl _ _).trans ((hg.put _ rfl _ _).trans ((hg.setTxState _ 0).trans (hg.setRxState s 3)))
  have hcred (t : State) : g (credCleared t) = g t := by
    refine (foldl_blind_mem groups (fun i hi u => hg.wr u _ _ ?_) _).trans
      ((hg.put _ rfl _ _).trans ((hg.put _ rfl _ _).trans (hg.put t rfl _ _)))
    have := groups_lt i hi
    simp only [pageOf, R.LINK_CRED_TX]
    omega
  exact (hg.inc _ rfl 1).trans ((hg.seq _ _).trans ((hcred _).trans hstat))

theorem llInit : g s.llInit = g s := by
  have hinit (t : State) : g (initState t).noteWait = g t :=
    (hg.xact (initState t) _).trans ((congrArg g (initState_split t)).trans ((hg.xact (initLink t) _).trans (hg.link t _ rfl rfl)))
  rw [llInit_eq, hinit, hg.initRegs]

/-! #### Headers, data and credits -/

theorem takeHeader {h : Word64} {x : Option (BitVec 384)} {t : State} (ht : s.takeHeader h x = some t) : g t = g s := by
  unfold State.takeHeader at ht
  dsimp only at ht
  generalize (if x.isSome = true then 6 else 1) = n, (if x.isSome = true then 0 else reqDataSlots h) = m at ht
  split at ht
  · exact absurd ht (by simp)
  · obtain rfl := Option.some.inj ht
    exact (hg.link { s with xact := { s.xact with nextId := s.xact.nextId + 1 } } _ (by rfl) (by rfl)).trans (hg.xact s _)

theorem takeData {d : Slot} {t : State} (ht : s.takeData d = some t) : g t = g s := by
  unfold State.takeData at ht
  split at ht
  · exact absurd ht (by simp)
  · obtain rfl := Option.some.inj ht
    exact hg.link s _ rfl rfl

/-- The one or two headers of a slot. -/
theorem takeHeaders {hi lo : Word64} {t : State} (ht : ((fun (h : Word64) (u : State) => if h = 0 then some u else u.takeHeader h none) hi s).bind
    ((fun (h : Word64) (u : State) => if h = 0 then some u else u.takeHeader h none) lo) = some t) : g t = g s := by
  have hone (h : Word64) (u v : State) (hv : (if h = 0 then some u else u.takeHeader h none) = some v) : g v = g u := by
    split at hv
    · rw [Option.some.inj hv]
    · exact hg.takeHeader u hv
  obtain ⟨u, hu, ht⟩ := Option.bind_eq_some_iff.mp ht
  exact (hone lo u t ht).trans (hone hi s u hu)

theorem takeSlots (c : Ctl0) (sl : Nat → Slot) (n i : Nat) {t : State} (ht : takeSlots c sl n i s = .ok t) : g t = g s := by
  induction n using Nat.strong_induction_on generalizing i s with
  | _ n ih =>
    cases n with
    | zero => rw [Except.ok.inj ht]
    | succ n =>
      unfold State.takeSlots at ht
      dsimp only at ht
      split at ht
      · exact ih n (Nat.lt_succ_self n) s _ ht
      · split at ht
        · exact absurd ht (by simp)
        next u hu => exact (ih n (Nat.lt_succ_self n) u _ ht).trans (hg.takeHeaders s hu)
      · split at ht
        · exact absurd ht (by simp)
        next u hu => exact (ih n (Nat.lt_succ_self n) u _ ht).trans (hg.takeData s hu)
      · split at ht
        next m =>
          split at ht
          · split at ht
            · exact absurd ht (by simp)
            next u hu => exact (ih m (by omega) u _ ht).trans (hg.takeHeader s hu)
          · exact absurd ht (by simp)
        · exact absurd ht (by simp)

theorem takeCredit {e : BitVec 12} {t : State} (ht : takeCredit e s = .ok t) : g t = g s := by
  have hput (u : State) (f : Fld) (n : Nat) : g (u.put (R.LINK_CRED_TX (e.extractLsb' 8 3).toNat) f n) = g u := by
    refine hg.put u ?_ f n
    have := (e.extractLsb' 8 3).isLt
    simp only [pageOf, R.LINK_CRED_TX]
    omega
  unfold State.takeCredit at ht
  dsimp only at ht
  generalize (if e.getLsbD 7 = true then F.LINK_CRED_TX_DATA else F.LINK_CRED_TX_HDR) = f,
    (if e.getLsbD 7 = true then 1 else 0) = k, (if 0 < s.link.grantLeft then (e.extractLsb' 0 7).toNat else 0) = m at ht
  split at ht
  · rw [Except.ok.inj ht]
  · split at ht
    · exact absurd ht (by simp)
    · rw [← Except.ok.inj ht]
      exact (hput _ _ _).trans (hg.link s _ (by rfl) (by rfl))

theorem takeCredits {c : Ctl0} {t : State} (ht : takeCredits c s = .ok t) : g t = g s := by
  have hfold (l : List Nat) (r : Except Nat State) (hr : ∀ u, r = .ok u → g u = g s)
      (ht : l.foldl (fun r i => r.bind (State.takeCredit (c.cred.extractLsb' (24 - 12 * i) 12))) r = .ok t) : g t = g s := by
    induction l generalizing r with
    | nil => exact hr t ht
    | cons i l ih =>
      refine ih _ (fun u hu => ?_) ht
      cases r with
      | error e => exact absurd hu (by simp [Except.bind])
      | ok v => exact (hg.takeCredit v hu).trans (hr v rfl)
  exact hfold [0, 1, 2] _ (fun u hu => by rw [Except.ok.inj hu]) ht

/-! #### The receiver -/

theorem protoError (n : Nat) : g (s.protoError n) = g s :=
  (hg.report _ _ _ _ _).trans ((hg.put _ (a := R.LINK_LL_STAT2) rfl _ _).trans ((hg.setTxState _ 3).trans (hg.setRxState s 2)))

theorem flitCounted (n : Nat) : g (s.flitCounted n) = g s := (hg.noteWait _).trans (hg.link s _ (by rfl) (by rfl))

theorem seqTaken (q : BitVec 12) : g (s.seqTaken q) = g s := (hg.put _ rfl _ _).trans (hg.setRxState s 0)
theorem grantTaken : g s.grantTaken = g s := hg.link s _ (by rfl) (by rfl)

theorem acceptFlit (c : Ctl0) (sl : Nat → Slot) : g (s.acceptFlit c sl) = g s := by
  have haccepted (t : State) : g (((t.seqTaken c.seq).grantTaken.inc64 R.LINK_FLITS_LO).flitCounted (usedSlots c.map)) = g t := by
    rw [hg.flitCounted, hg.inc64 _ rfl rfl, hg.grantTaken, hg.seqTaken]
  unfold State.acceptFlit
  cases hslots : State.takeSlots c sl 13 1 s with
  | error e => exact hg.protoError s e
  | ok t =>
    cases hcred : State.takeCredits c t with
    | error e =>
      dsimp only [Except.bind]
      rw [hcred]
      exact hg.protoError s e
    | ok u =>
      dsimp only [Except.bind]
      rw [hcred]
      exact (haccepted u).trans ((hg.takeCredits t hcred).trans (hg.takeSlots s c sl 13 1 hslots))

theorem badFlit : g s.badFlit = g s := by
  unfold State.badFlit
  split
  · exact (hg.report _ _ _ _ _).trans ((hg.inc _ rfl 1).trans (hg.setRxState s 1))
  · rfl

theorem goodFlit (c : Ctl0) (sl : Nat → Slot) : g (s.goodFlit c sl) = g s := by
  unfold State.goodFlit
  split
  · rfl
  · split
    · exact hg.protoError s 1
    · split
      · rfl
      · split
        · exact hg.acceptFlit s c sl
        · split
          · exact hg.inc s rfl 1
          · rfl

theorem gotInit : g { s with link := { s.link with gotInit := true } } = g s := hg.link s _ (by rfl) (by rfl)

theorem initFlit (c : Ctl0) (sl : Nat → Slot) : g (s.initFlit c sl) = g s := by
  unfold State.initFlit
  split
  · split
    · exact (hg.initAdvance _).trans (hg.gotInit s)
    · split
      · exact (hg.goodFlit _ c sl).trans (hg.llReady s)
      · rfl
  · split
    · exact (hg.gotInit _).trans (hg.llInit s)
    · exact hg.goodFlit s c sl

theorem countCorr (f : Nat) (bytes : List Nat) : g (s.countCorr f bytes) = g s := by
  refine foldl_blind (fun t i => ?_) bytes s
  split
  · rfl
  · exact (hg.report _ _ _ _ _).trans (hg.inc_of t (fun u v => hg.corr u _ _ v) 1)

/-- The slots of a flit whose CRC holds. -/
theorem slotsTaken (c : Ctl0) (sl : Nat → Slot) :
    g ((if c.kind < 2 then s.slotsCounted.linkFields c else s.slotsCounted).initFlit c sl) = g s := by
  have hcounted : g s.slotsCounted = g s := hg.link s _ (by rfl) (by rfl)
  rw [hg.initFlit]
  split
  · exact (hg.linkFields _ c).trans hcounted
  · exact hcounted

theorem takeFlit (flit : BitVec 1920) : g (s.takeFlit flit) = g s := by
  cases hread : readFlit flit with
  | none =>
    rw [takeFlit_uncorrectable hread]
    exact (hg.badFlit _).trans (hg.inc s rfl 1)
  | some x =>
    obtain ⟨bytes, errs, crcOk⟩ := x
    have hcorr := hg.countCorr s s.link.rxFlit errs
    cases crcOk with
    | false =>
      rw [takeFlit_bad hread]
      exact (hg.badFlit _).trans ((hg.inc _ rfl 1).trans hcorr)
    | true =>
      rw [takeFlit_corrected hread, hg.slotsTaken]
      unfold flitCorrected
      split
      · exact hcorr
      · exact (hg.inc _ rfl 1).trans hcorr

end FlitBlind

theorem flitBlind_mem : FlitBlind fun s => (s.dram, s.cache, s.wdb, s.place, s.otp, s.mgmt.flash) :=
  ⟨fun _ _ _ _ => rfl, fun _ _ => rfl, fun _ _ _ _ => rfl, fun _ _ _ => by simp, fun _ _ _ _ _ => rfl, fun _ _ => rfl,
    fun _ _ _ _ => rfl, linkFree_mem.blind.decideWidth⟩

theorem flitBlind_calm : FlitBlind fun s => (s.fcol.handed, s.fcol.declared, s.spare.rows, s.place.retiring) :=
  ⟨fun _ _ _ _ => rfl, fun _ _ => rfl, fun _ _ _ _ => rfl, fun _ _ _ => by simp, fun _ _ _ _ _ => rfl, fun _ _ => rfl,
    fun _ _ _ _ => rfl, linkFree_calm.blind.decideWidth⟩

theorem flitBlind_rd {a : Nat} (hp : pageOf a ≠ 0x00E) (hs : a ≠ R.XACT_EVT_SEQ) (hc : ∀ i l, a ≠ R.RXG_RXL_CORR i l) :
    FlitBlind (·.rd a) where
  wr s b v hb := rd_wr_other _ _ _ _ (by rintro rfl; exact hp hb)
  seq s v := rd_wr_other _ _ _ _ hs
  corr s i l v := rd_wr_other _ _ _ _ (hc i l)
  counted s b n := rd_eq_of_regs (by simp) a
  report s k r n b := report_rd s k r n b a
  xact _ _ := rfl
  link _ _ _ _ := rfl
  width s d := decideWidth_rd s d (by rintro rfl; exact hp rfl)

theorem flitBlind_fresh : FlitBlind (·.link.fresh) :=
  ⟨fun _ _ _ _ => rfl, fun _ _ => rfl, fun _ _ _ _ => rfl, fun _ _ _ => by simp, fun _ _ _ _ _ => rfl, fun _ _ => rfl,
    fun _ _ h _ => h, fun s d => (linkCore_fields (congrArg Prod.fst (decideWidth_core s d))).2.2.2.2.2.1⟩

theorem flitBlind_rxFlit : FlitBlind (·.link.rxFlit) :=
  ⟨fun _ _ _ _ => rfl, fun _ _ => rfl, fun _ _ _ _ => rfl, fun _ _ _ => by simp, fun _ _ _ _ _ => rfl, fun _ _ => rfl,
    fun _ _ _ h => h, decideWidth_rxFlit⟩

/-- The counts of corrected bytes stand at one place in each lane's registers. -/
theorem corr_ne {a : Nat} (h : a < 0x88120 ∨ a % 64 ≠ 0x20) (i l : Nat) : a ≠ R.RXG_RXL_CORR i l := by
  simp only [R.RXG_RXL_CORR]
  omega

theorem not_linkPage {a : Nat} (h : a < 0x80000) (hp : pageOf a ≠ 0x00E) : ¬ linkPage (pageOf a) := by
  unfold linkPage
  unfold pageOf at *
  omega

/-! ### What the markers of a period leave -/

/-- The memory and the registers outside the link's pages are as they were; no ladder waits, and the link has not been trained anew. -/
structure Marked (s t : State) : Prop where
  mem : MemKept s t
  calm : Calm t
  rd : ∀ a < 0x80000, pageOf a ≠ 0x00E → a ≠ R.XACT_EVT_SEQ → t.rd a = s.rd a
  fresh : t.link.fresh = s.link.fresh

namespace Marked

variable {s t u : State} (h : Marked s t)
include h

theorem only (hu : LinkOnly t u) (hf : u.link.fresh = t.link.fresh) : Marked s u :=
  ⟨h.mem.trans hu.memKept, hu.calm h.calm, fun a ha hp hs => (hu.rd (not_linkPage ha hp)).trans (h.rd a ha hp hs), hf.trans h.fresh⟩

theorem report (k : Nat) (r : Word) (n a : Nat) : Marked s (t.report k r n a) :=
  ⟨h.mem, h.calm, fun b hb hp hs => (report_rd t k r n a b).trans (h.rd b hb hp hs), h.fresh⟩

/-- What follows within the same moment. -/
theorem after (ho : OnXo s) : MemKept s t.afterLink ∧ ∀ a, pageOf a ≠ 0x014 → a ≠ R.XACT_EVT_DROPPED → t.afterLink.rd a = t.rd a := by
  obtain ⟨hx, hr, hb, hf, -⟩ := ho
  have hclk {a : Nat} (ha : a < 0x80000) (hp : pageOf a ≠ 0x00E) (hs : a ≠ R.XACT_EVT_SEQ) := h.rd a ha hp hs
  have hboot : t.bootStep = s.bootStep := fld_eq_of_rd (hclk (by decide) (by decide) (by decide)) _
  obtain ⟨-, hm, hrd⟩ := afterLink_spec h.calm ((on_eq_of_rd (hclk (by decide) (by decide) (by decide)) _).trans hx)
    ((fld_eq_of_rd (hclk (by decide) (by decide) (by decide)) _).trans hr) (.inr ⟨by rw [hboot]; exact hb, h.fresh.trans hf⟩)
  exact ⟨h.mem.trans hm, hrd⟩

/-- The taking of a flit. -/
theorem taken (f : BitVec 1920) : Marked s (t.takeFlit f) := by
  have hmem := flitBlind_mem.takeFlit t f
  have hcalm := flitBlind_calm.takeFlit t f
  simp only [Prod.mk.injEq] at hmem hcalm
  obtain ⟨m1, m2, m3, m4, m5, m6⟩ := hmem
  obtain ⟨c1, c2, c3, c4⟩ := hcalm
  refine ⟨h.mem.trans ⟨m1, m2, m3, m4, m5, m6⟩, h.calm.of_parts c1 c2 c3 c4, fun a ha hp hs => ?_,
    (flitBlind_fresh.takeFlit t f).trans h.fresh⟩
  refine ((flitBlind_rd hp hs (corr_ne (.inl (by omega)))).takeFlit t f).trans (h.rd a ha hp hs)

theorem descrambled (d : SMap (BitVec 58)) (r : SMap Nat) : Marked s (t.descrambled d r) := ⟨h.mem, h.calm, h.rd, h.fresh⟩
theorem framed (n ui : Nat) : Marked s (t.framed n ui) := ⟨h.mem, h.calm, h.rd, h.fresh⟩

/-- The first flit of a frame. -/
theorem flit (h0 : t.linkState ≠ 7 ∨ t.link.rxFlit = 0) (f : BitVec 1920) : Marked s (t.flitReceive f) ∧
    ∀ a, pageOf a ≠ 0x00E → a ≠ R.XACT_EVT_SEQ → a % 64 ≠ 0x20 → (t.flitReceive f).rd a = t.rd a := by
  unfold flitReceive
  split
  · exact ⟨h, fun _ _ _ _ => rfl⟩
  next hn =>
    obtain ⟨ha, -⟩ : t.linkActive = true ∧ t.drogue = false := by simpa using hn
    have hactive : t.linkState = 7 := of_decide_eq_true ha
    obtain ⟨d, r, hu⟩ := undoFlit_spec t t.link.rxFlit f
    dsimp only
    rw [hu]
    generalize (t.undoFlit t.link.rxFlit f).1 = b
    have hflit : ((t.descrambled d r).takeFlit b).link.rxFlit = 0 :=
      (flitBlind_rxFlit.takeFlit (t.descrambled d r) b).trans (h0.resolve_left fun hne => hne hactive)
    obtain ⟨ui, hnext⟩ := nextFlit_spec (s := (t.descrambled d r).takeFlit b) (by rw [hflit]; simp)
    have htaken := (h.descrambled d r).taken b
    have hrd {a : Nat} (hp : pageOf a ≠ 0x00E) (hs : a ≠ R.XACT_EVT_SEQ) (hc : a % 64 ≠ 0x20) :=
      (flitBlind_rd hp hs (corr_ne (.inr hc))).takeFlit (t.descrambled d r) b
    rw [hnext]
    generalize (t.descrambled d r).takeFlit b = w at htaken hrd
    exact ⟨htaken.framed _ _, fun a hp hs hc => hrd hp hs hc⟩

end Marked

/-! ### One marker of a lane -/

/-- The counts of a lane's good and bad markers in a row. -/
def markTaken (s : State) (i l good bad : Nat) : State := s.updLink fun x => { x with
  markGood := SMap.set (fun _ => 0) (10 * i + l) good x.markGood
  markBad := SMap.set (fun _ => 0) (10 * i + l) bad x.markBad
  rxLast := SMap.set (fun _ => 0) (10 * i + l) 0 x.rxLast }

/-- A lane holds marker lock, and its group when all its data lanes do. -/
def laneLocks (s : State) (i l : Nat) : State :=
  (s.laneLocked i l).flag (R.RXG_GRP_STAT i) F.RXG_GRP_STAT_MARKER_LOCK
    (((s.laneLocked i l).dataLanes .rx i).all fun j => (s.laneLocked i l).on (R.RXG_RXL_STAT i j) F.RXG_RXL_STAT_MARK_LOCK)

/-- A missing marker after another loses the lane's lock. -/
theorem laneMarker_missing {s : State} {i l : Nat} (h : SMap.get (fun _ => 0) s.link.markBad (10 * i + l) = 1) :
    s.laneMarker i l none = (markTaken s i l 0 2).markerLost i l := by
  unfold laneMarker
  simp only [h]
  rfl

/-- A good marker in its place shows in its lane's status, in its group's marker lock and in its lane's counts alone. -/
theorem laneMarker_good {α : Type} {g : State → α} {i l : Nat} {m : Int × BitVec 32} (hm : markerGood m.2 = true) (h0 : m.1 = 0)
    (hput : ∀ (t : State) f n, g (t.put (R.RXG_RXL_STAT i l) f n) = g t)
    (hgrp : ∀ (t : State) b, g (t.flag (R.RXG_GRP_STAT i) F.RXG_GRP_STAT_MARKER_LOCK b) = g t)
    (hmark : ∀ (t : State) n, g (markTaken t i l n 0) = g t) (s : State) : g (s.laneMarker i l (some m)) = g s := by
  have hgood : (markerGood m.2 && decide (-1 ≤ m.1 ∧ m.1 ≤ 1)) = true := by
    rw [hm, h0]
    rfl
  have hends (t : State) (n : Nat) (ht : g t = g s) : g (if 3 ≤ n then laneLocks t i l else if 2 ≤ 0 then t.markerLost i l else t) = g s := by
    split
    · exact (hgrp _ _).trans ((hput _ _ _).trans ((hput _ _ _).trans ht))
    · exact ht
  unfold laneMarker
  simp only [hgood]
  refine hends _ _ ?_
  split
  · exact (hput _ _ _).trans (hmark s _)
  · exact hmark s _

/-! ### The marker that a lane is to take -/

theorem foldl_lt {α : Type} {n : Nat} {f : Nat → α → Nat} (h : ∀ r < n, ∀ a, f r a < n) (l : List α) {r : Nat} (hr : r < n) :
    l.foldl f r < n := by
  induction l generalizing r with
  | nil => exact hr
  | cons a l ih => exact ih (h r hr a)

theorem crc8_lt (b : List Nat) : crc8 b < 256 := by
  unfold crc8 crcMsb
  refine foldl_lt (fun r hr a => foldl_lt (fun q _ i => ?_) _ hr) b (by decide)
  dsimp only
  split
  · exact Nat.xor_lt_two_pow (n := 8) (Nat.mod_lt _ (by decide)) (by decide)
  · exact Nat.mod_lt _ (by decide)

theorem markerWord_field (tx : Bool) (i l c : Nat) : markerField (markerWord tx i l c) = c % 2 ^ 16 := by
  have := crc8_lt [tx.toNat * 128 + i * 16 + l, c / 256 % 256, c % 256]
  unfold markerField markerWord
  dsimp only
  rw [BitVec.toNat_ofNat]
  omega

theorem markerWord_id {tx : Bool} {i l : Nat} (hi : i < 8) (hl : l < 16) (c : Nat) :
    markerId (markerWord tx i l c) = tx.toNat * 128 + i * 16 + l := by
  have := crc8_lt [tx.toNat * 128 + i * 16 + l, c / 256 % 256, c % 256]
  have := tx.toNat_le
  unfold markerId markerWord
  dsimp only
  rw [BitVec.toNat_ofNat]
  omega

theorem markerWord_good {tx : Bool} {i l : Nat} (hi : i < 8) (hl : l < 16) (c : Nat) : markerGood (markerWord tx i l c) = true := by
  have hcrc := crc8_lt [tx.toNat * 128 + i * 16 + l, c / 256 % 256, c % 256]
  have hid := markerWord_id (tx := tx) hi hl c
  have hfield := markerWord_field tx i l c
  have hlow : (markerWord tx i l c).toNat % 256 = crc8 [tx.toNat * 128 + i * 16 + l, c / 256 % 256, c % 256] := by
    unfold markerWord
    dsimp only
    rw [BitVec.toNat_ofNat]
    omega
  unfold markerGood
  rw [hlow, hid, hfield, decide_eq_true_eq, show c % 2 ^ 16 / 256 = c / 256 % 256 by omega, show c % 2 ^ 16 % 256 = c % 256 by omega]

/-! ### A lane that loses its marker lock -/

theorem setRef_same {α : Type} {g : State → α}
    (hflag : ∀ (t : State), ∀ i < 8, ∀ b, g (t.flag (R.RXG_GRP_STAT i) F.RXG_GRP_STAT_CLK_REF b) = g t)
    (href : ∀ (t : State) r, g { t with link := { t.link with ref := r } } = g t) (s : State) (r : Option (Nat × Nat)) :
    g (s.setRef r) = g s := by
  unfold setRef
  dsimp only
  rw [foldl_blind_mem groups fun i hi t => hflag t i (groups_lt i hi) _]
  exact href s r

/-- The state beside what a lost reference lane moves: CLK_REF of the groups, the link clock's monitor, and which lane it is. -/
theorem refLost_same {α : Type} {g : State → α}
    (hflag : ∀ (t : State), ∀ i < 8, ∀ b, g (t.flag (R.RXG_GRP_STAT i) F.RXG_GRP_STAT_CLK_REF b) = g t)
    (hhold : ∀ t : State, g { t with clk := { t.clk with holdover := true } }.monStop = g t)
    (href : ∀ (t : State) r, g { t with link := { t.link with ref := r } } = g t) (s : State) (i l : Nat) : g (s.refLost i l) = g s := by
  unfold refLost
  split
  · rfl
  · split
    · exact hhold s
    · exact setRef_same hflag href s _

/-- In a pass over a list without repetition, one element turns what holds before it into what holds from there on. -/
theorem foldl_turns {β : Type} {W L : State → Prop} {f : State → β → State} {l : List β} {x : β} (hn : l.Nodup) (hx : x ∈ l)
    (hturn : ∀ t, W t → L (f t x)) (hwait : ∀ y ∈ l, y ≠ x → ∀ t, W t → W (f t y))
    (hlost : ∀ y ∈ l, y ≠ x → ∀ t, L t → L (f t y)) {s : State} (hs : W s) : L (l.foldl f s) := by
  induction l generalizing s with
  | nil => exact absurd hx (by simp)
  | cons y l ih =>
    obtain ⟨hy, hn⟩ := List.nodup_cons.mp hn
    rw [List.foldl_cons]
    by_cases e : y = x
    · subst e
      exact List.foldlRecOn (motive := L) l f (hturn s hs) fun t ht z hz =>
        hlost z (List.mem_cons_of_mem _ hz) (by rintro rfl; exact hy hz) t ht
    · exact ih hn ((List.mem_cons.mp hx).resolve_left fun h => e h.symm) (fun z hz => hwait z (List.mem_cons_of_mem _ hz))
        (fun z hz => hlost z (List.mem_cons_of_mem _ hz)) (hwait y List.mem_cons_self e s hs)

/-- A lane without marker lock, when locks are dropped. -/
theorem lock_flag_false (s : State) (a j k : Nat) (h : s.on a F.RXG_RXL_STAT_MARK_LOCK = false) :
    (s.flag (R.RXG_RXL_STAT j k) F.RXG_RXL_STAT_MARK_LOCK false).on a F.RXG_RXL_STAT_MARK_LOCK = false := by
  by_cases e : a = R.RXG_RXL_STAT j k
  · rw [e]
    exact on_flag_same _ _ _ _ (by decide) rfl
  · exact (on_flag_other _ _ _ _ _ _ (.inl e)).trans h

theorem lock_ne_grp (i : Nat) (l : Fin 10) (j : Nat) : R.RXG_RXL_STAT i l ≠ R.RXG_GRP_STAT j := by
  simp only [R.RXG_RXL_STAT, R.RXG_GRP_STAT]
  omega

/-- The marker locks of a group's lanes are dropped. -/
def groupUnlocked (s : State) (j : Nat) : State :=
  lanesOfGroup.foldl (fun u l => u.flag (R.RXG_RXL_STAT j l) F.RXG_RXL_STAT_MARK_LOCK false)
    (s.flag (R.RXG_GRP_STAT j) F.RXG_GRP_STAT_MARKER_LOCK false)

theorem groupUnlocked_lock (s : State) (i : Nat) (l : Fin 10) : (groupUnlocked s i).on (R.RXG_RXL_STAT i l) F.RXG_RXL_STAT_MARK_LOCK = false := by
  have hl : ∀ l : Fin 10, l.val ∈ lanesOfGroup := by decide
  unfold groupUnlocked
  generalize s.flag (R.RXG_GRP_STAT i) F.RXG_GRP_STAT_MARKER_LOCK false = t
  exact foldl_turns (W := fun _ => True) (L := fun t => t.on (R.RXG_RXL_STAT i l) F.RXG_RXL_STAT_MARK_LOCK = false) (x := l.val)
    (f := fun u k => u.flag (R.RXG_RXL_STAT i k) F.RXG_RXL_STAT_MARK_LOCK false)
    (by decide) (hl l) (fun u _ => on_flag_same u (R.RXG_RXL_STAT i l) F.RXG_RXL_STAT_MARK_LOCK false (by decide) rfl)
    (fun _ _ _ _ _ => trivial) (fun k _ _ u h => lock_flag_false u _ i k h) trivial

theorem groupUnlocked_keeps {s : State} {i : Nat} {l : Fin 10} (h : s.on (R.RXG_RXL_STAT i l) F.RXG_RXL_STAT_MARK_LOCK = false) (j : Nat) :
    (groupUnlocked s j).on (R.RXG_RXL_STAT i l) F.RXG_RXL_STAT_MARK_LOCK = false := by
  unfold groupUnlocked
  refine List.foldlRecOn (motive := fun t => t.on (R.RXG_RXL_STAT i l) F.RXG_RXL_STAT_MARK_LOCK = false) lanesOfGroup _ ?_
    fun t ht k _ => lock_flag_false t _ j k ht
  exact (on_flag_other _ _ _ _ _ _ (.inl (lock_ne_grp i l j))).trans h

theorem linkOnly_rd (s : State) (x : LinkState) (a : Nat) : ({ s with link := x } : State).rd a = s.rd a := rfl

theorem locksDropped_rd (s : State) (a : Nat) : (locksDropped s).rd a = (groups.foldl groupUnlocked s).rd a := by
  unfold locksDropped groupUnlocked
  exact linkOnly_rd _ _ a

/-- RECOVER has no lane in marker lock. -/
theorem locksDropped_lock (s : State) (i : Fin 8) (l : Fin 10) :
    (locksDropped s).on (R.RXG_RXL_STAT i l) F.RXG_RXL_STAT_MARK_LOCK = false := by
  have hi : ∀ i : Fin 8, i.val ∈ groups := by decide
  refine (on_eq_of_rd (locksDropped_rd s _) _).trans ?_
  exact foldl_turns (W := fun _ => True) (L := fun t => t.on (R.RXG_RXL_STAT i l) F.RXG_RXL_STAT_MARK_LOCK = false)
    (x := i.val) (by decide) (hi i) (fun t _ => groupUnlocked_lock t i l) (fun _ _ _ _ _ => trivial)
    (fun j _ _ t h => groupUnlocked_keeps h j) trivial

/-- A lane has lost its marker lock, and the link is in RECOVER or at the first flit of its frame. -/
structure Lost (s : State) (i l : Nat) (t : State) : Prop extends Marked s t where
  lock : t.on (R.RXG_RXL_STAT i l) F.RXG_RXL_STAT_MARK_LOCK = false
  first : t.linkState ≠ 7 ∨ t.link.rxFlit = 0

section
variable {s t : State} {i : Fin 8} {l : Fin 10}

theorem Lost.report (h : Lost s i l t) (k : Nat) (r : Word) (n a : Nat) : Lost s i l (t.report k r n a) :=
  ⟨h.toMarked.report k r n a, (on_eq_of_rd (report_rd ..) _).trans h.lock,
    h.first.imp (fun hn => by rwa [linkState, fld_eq_of_rd (report_rd ..)]) id⟩

theorem Lost.refLost (h : Lost s i l t) (j k : Nat) : Lost s i l (t.refLost j k) := by
  have hfresh : (t.refLost j k).link.fresh = t.link.fresh :=
    refLost_same (g := (·.link.fresh)) (fun _ _ _ _ => rfl) (fun _ => rfl) (fun _ _ => rfl) t j k
  have hflit : (t.refLost j k).link.rxFlit = t.link.rxFlit :=
    refLost_same (g := (·.link.rxFlit)) (fun _ _ _ _ => rfl) (fun _ => rfl) (fun _ _ => rfl) t j k
  have hlock : (t.refLost j k).on (R.RXG_RXL_STAT i l) F.RXG_RXL_STAT_MARK_LOCK = t.on (R.RXG_RXL_STAT i l) F.RXG_RXL_STAT_MARK_LOCK :=
    refLost_same (g := fun t => t.on (R.RXG_RXL_STAT i l) F.RXG_RXL_STAT_MARK_LOCK)
      (fun t j _ b => on_flag_other _ _ _ _ _ _ (.inl (lock_ne_grp i l j))) (fun _ => rfl) (fun _ _ => rfl) t j k
  have hstate : (t.refLost j k).linkState = t.linkState :=
    refLost_same (g := State.linkState) (fun t j hj b => laneBlind_linkState.flag t (.rx _ hj (.inr (by decide))) b)
      (fun _ => rfl) (fun _ _ => rfl) t j k
  have honly : LinkOnly t (t.refLost j k) := ⟨fun g hg => refLost_same
    (fun t j hj b => hg.blind.flag t (.rx _ hj (.inr (by decide))) b) (fun t => (hg.bad _ 0).trans (hg.hold t true)) (fun t r => hg.link t _) t j k⟩
  exact ⟨h.toMarked.only honly hfresh, hlock.trans h.lock, by rw [hstate, hflit]; exact h.first⟩

theorem Lost.lockBeyond (h : Lost s i l t) (j : Nat) : Lost s i l (t.lockBeyond j) := by
  have hrecover : Lost s i l t.enterRecover := by
    by_cases ha : t.linkActive = true
    · obtain ⟨hstate, -, hcore, -⟩ := enterRecover_spec ha
      obtain ⟨-, -, -, -, -, hfresh, -⟩ := linkCore_fields hcore
      refine ⟨h.toMarked.only ⟨fun _ hg => hg.enterRecover t⟩ hfresh, ?_, .inl (by rw [hstate]; decide)⟩
      rw [enterRecover_eq ha]
      exact locksDropped_lock _ i l
    · have : t.enterRecover = t := if_neg ha
      rwa [this]
  have hends (b : Bool) : Lost s i l (if b = true then t.enterRecover else t) := by
    cases b with
    | true => exact hrecover
    | false => exact h
  exact hends _

/-- A lane without marker lock keeps so; one that holds it loses it. -/
theorem Marked.markerLost (h : Marked s t) (h0 : t.link.rxFlit = 0) : Lost s i l (t.markerLost i l) := by
  by_cases hl : t.on (R.RXG_RXL_STAT i l) F.RXG_RXL_STAT_MARK_LOCK = true
  · obtain ⟨honly, hlock, hlink, -⟩ := lockCleared_spec t i l
    have hcleared : Lost s i l (lockCleared t i l) := ⟨h.only honly (by rw [hlink]), hlock, .inr (by rw [hlink]; exact h0)⟩
    have heq : t.markerLost i l = if (lockCleared t i l).linkActive
        then (((lockCleared t i l).report 1 (resLane false i l) 1 12).refLost i l).lockBeyond i else lockCleared t i l := by
      unfold State.markerLost
      rw [if_pos hl]
      rfl
    rw [heq]
    split
    · exact ((hcleared.report _ _ _ _).refLost _ _).lockBeyond _
    · exact hcleared
  · have heq : t.markerLost i l = t := if_neg hl
    rw [heq]
    exact ⟨h, by simpa using hl, .inr h0⟩

end

/-! ### The markers of a period -/

/-- Before its missing marker is counted, a lane has missed one. -/
structure Waiting (s : State) (i l : Nat) (t : State) : Prop extends Marked s t where
  bad : SMap.get (fun _ => 0) t.link.markBad (10 * i + l) = 1
  lanes : t.dataLanes .rx i = s.dataLanes .rx i
  first : t.link.rxFlit = 0

section
variable {j k : Nat} (hj : j < 8) (hk : k < 10) {m : Int × BitVec 32} (hm : markerGood m.2 = true) (h0 : m.1 = 0)
include hj hk hm h0

theorem laneMarker_only (t : State) : LinkOnly t (t.laneMarker j k (some m)) :=
  ⟨fun _ hg => laneMarker_good hm h0 (fun t f n => hg.put t (LaneFld.lane f hj (by omega)).page f n)
    (fun t b => hg.flag t (LaneFld.rx F.RXG_GRP_STAT_MARKER_LOCK hj (.inl (by decide))).page _ b) (fun t _ => hg.link t _) t⟩

variable {s t : State} {i l : Nat}

theorem Waiting.other (h : Waiting s i l t) (hne : 10 * i + l ≠ 10 * j + k) : Waiting s i l (t.laneMarker j k (some m)) := by
  have same {α : Type} {g : State → α} (hput : ∀ (t : State) a f n, g (t.put a f n) = g t) (hmark : ∀ (t : State) n, g (markTaken t j k n 0) = g t) :
      g (t.laneMarker j k (some m)) = g t := laneMarker_good hm h0 (fun t f n => hput t _ f n) (fun t b => hput t _ _ _) hmark t
  exact ⟨h.toMarked.only (laneMarker_only hj hk hm h0 t) (same (g := (·.link.fresh)) (fun _ _ _ _ => rfl) fun _ _ => rfl),
    (same (g := fun t => SMap.get (fun _ => 0) t.link.markBad (10 * i + l)) (fun _ _ _ _ => rfl)
      fun t _ => SMap.get_set_other (fun _ => 0) hne 0 t.link.markBad).trans h.bad,
    (same (g := (·.dataLanes .rx i)) (fun _ _ _ _ => rfl) fun _ _ => rfl).trans h.lanes,
    (same (g := (·.link.rxFlit)) (fun _ _ _ _ => rfl) fun _ _ => rfl).trans h.first⟩

theorem Lost.other {l : Fin 10} (h : Lost s i l t) (hne : R.RXG_RXL_STAT i l ≠ R.RXG_RXL_STAT j k) :
    Lost s i l (t.laneMarker j k (some m)) := by
  have same {α : Type} {g : State → α} (hput : ∀ (t : State) a f n, g (t.put a f n) = g t) (hmark : ∀ (t : State) n, g (markTaken t j k n 0) = g t) :
      g (t.laneMarker j k (some m)) = g t := laneMarker_good hm h0 (fun t f n => hput t _ f n) (fun t b => hput t _ _ _) hmark t
  have hstate : (t.laneMarker j k (some m)).linkState = t.linkState :=
    laneMarker_good hm h0 (fun t f n => laneBlind_linkState.put t n (.lane f hj (by omega)))
      (fun t b => laneBlind_linkState.flag t (.rx _ hj (.inl (by decide))) b) (fun _ _ => rfl) t
  have hlock : (t.laneMarker j k (some m)).on (R.RXG_RXL_STAT i l) F.RXG_RXL_STAT_MARK_LOCK = t.on (R.RXG_RXL_STAT i l) F.RXG_RXL_STAT_MARK_LOCK :=
    laneMarker_good (g := fun t => t.on (R.RXG_RXL_STAT i l) F.RXG_RXL_STAT_MARK_LOCK) hm h0
      (fun t f n => on_put_other _ _ _ _ _ _ (.inl hne)) (fun t b => on_flag_other _ _ _ _ _ _ (.inl (lock_ne_grp i l j))) (fun _ _ => rfl) t
  have hflit := same (g := (·.link.rxFlit)) (fun _ _ _ _ => rfl) fun _ _ => rfl
  exact ⟨h.toMarked.only (laneMarker_only hj hk hm h0 t) (same (g := (·.link.fresh)) (fun _ _ _ _ => rfl) fun _ _ => rfl),
    hlock.trans h.lock, by rw [hstate, hflit]; exact h.first⟩

end

/-- The missing marker of the lane itself. -/
theorem Waiting.missing {s t : State} {i : Fin 8} {l : Fin 10} (h : Waiting s i l t) : Lost s i l (t.laneMarker i l none) := by
  rw [laneMarker_missing h.bad]
  exact (h.toMarked.only (u := markTaken t i l 0 2) ⟨fun _ hg => hg.link t _⟩ rfl).markerLost h.first

/-! ### What each lane takes -/

section
variable (s : State) (i : Fin 8) (l : Fin 10)

theorem markerIn_missing : s.markerIn [⟨i, l, none⟩] i l = none := by
  unfold markerIn
  simp

theorem markerIn_expected {j k : Nat} (h : ¬ (i.val = j ∧ l.val = k)) :
    s.markerIn [⟨i, l, none⟩] j k = some (0, markerWord false j k (s.spareLane .rx j + 16 * s.curStep .rx)) := by
  unfold markerIn
  simp [h]

theorem majority_mem {xs : List Nat} {c : Nat} (h : majority xs = some c) : c ∈ xs := by
  have hmem : ∀ b, majority xs = some b → b ∈ xs := by
    unfold majority
    refine List.foldlRecOn (motive := fun best => ∀ b, best = some b → b ∈ xs) xs _ (by simp) (fun best hbest v hv b hb => ?_)
    split at hb
    · exact Option.some.inj hb ▸ hv
    · split at hb
      · exact Option.some.inj hb ▸ hv
      · exact hbest b hb
  exact hmem c h

/-- No group's control field asks anything: the markers that come say NORMAL. -/
theorem groupField_normal {j c : Nat} (h : s.groupField [⟨i, l, none⟩] j = some c) : c < 4096 := by
  obtain ⟨k, -, hk⟩ := List.mem_filterMap.mp (majority_mem h)
  by_cases e : i.val = j ∧ l.val = k
  · obtain ⟨rfl, rfl⟩ := e
    rw [markerIn_missing] at hk
    exact absurd hk (by simp)
  · have hspare : s.spareLane .rx j < 16 := Fld.get_lt ..
    have hstep : s.curStep .rx < 4 := Fld.get_lt ..
    rw [markerIn_expected s i l e] at hk
    dsimp only at hk
    split at hk
    · rw [← Option.some.inj hk, markerWord_field]
      omega
    · exact absurd hk (by simp)

theorem fieldSeen_normal {c : Nat} (h : c < 4096) (t : State) (j : Nat) : t.fieldSeen j c = t := by
  unfold fieldSeen
  rw [Nat.div_eq_of_lt h]
  rfl

/-- The markers that the lanes of a group take. -/
def groupMarkers (t : State) (marks : List MarkIn) (j : Nat) : State :=
  (t.markedLanes j).foldl (fun u k => u.laneMarker j k (s.markerIn marks j k)) t

variable {s i l} {t : State}

theorem rxlStat_inj {j k : Nat} (hk : k < 10) (h : R.RXG_RXL_STAT i l = R.RXG_RXL_STAT j k ∨ 10 * i.val + l.val = 10 * j + k) :
    i.val = j ∧ l.val = k := by
  simp only [R.RXG_RXL_STAT] at h
  omega

theorem markedLane_lt {t : State} {j k : Nat} (h : k ∈ t.markedLanes j) : k < 10 :=
  (by decide : ∀ k ∈ lanesOfGroup, k < 10) k (List.mem_of_mem_filter h)

/-- Another lane takes the marker that it expects. -/
theorem Waiting.lane (h : Waiting s i l t) {j k : Nat} (hj : j < 8) (hk : k < 10) (hne : ¬ (i.val = j ∧ l.val = k)) :
    Waiting s i l (t.laneMarker j k (s.markerIn [⟨i, l, none⟩] j k)) := by
  rw [markerIn_expected s i l hne]
  exact h.other hj hk (markerWord_good hj (by omega) _) rfl fun e => hne (rxlStat_inj hk (.inr e))

theorem Lost.lane (h : Lost s i l t) {j k : Nat} (hj : j < 8) (hk : k < 10) (hne : ¬ (i.val = j ∧ l.val = k)) :
    Lost s i l (t.laneMarker j k (s.markerIn [⟨i, l, none⟩] j k)) := by
  rw [markerIn_expected s i l hne]
  exact h.other hj hk (markerWord_good hj (by omega) _) rfl fun e => hne (rxlStat_inj hk (.inl e))

theorem Waiting.group (h : Waiting s i l t) {j : Nat} (hj : j < 8) (hne : j ≠ i) : Waiting s i l (groupMarkers s t [⟨i, l, none⟩] j) :=
  List.foldlRecOn (motive := Waiting s i l) _ _ h fun _ hu _ hk => hu.lane hj (markedLane_lt hk) fun e => hne e.1.symm

theorem Lost.group (h : Lost s i l t) {j : Nat} (hj : j < 8) (hne : j ≠ i) : Lost s i l (groupMarkers s t [⟨i, l, none⟩] j) :=
  List.foldlRecOn (motive := Lost s i l) _ _ h fun _ hu _ hk => hu.lane hj (markedLane_lt hk) fun e => hne e.1.symm

/-- The group of the lane itself. -/
theorem Waiting.own (h : Waiting s i l t) (hl : l.val ∈ s.dataLanes .rx i) : Lost s i l (groupMarkers s t [⟨i, l, none⟩] i) := by
  have hmem : l.val ∈ t.markedLanes i := by
    have hgroup : ∀ l : Fin 10, l.val ∈ lanesOfGroup := by decide
    refine List.mem_filter.mpr ⟨hgroup l, ?_⟩
    rw [h.lanes, List.contains_iff_mem.mpr hl, Bool.true_or]
  have hnodup : (t.markedLanes i).Nodup := List.Nodup.filter _ (by decide)
  refine foldl_turns (W := Waiting s i l) (L := Lost s i l) hnodup hmem (fun u hu => ?_)
    (fun k hk hne u hu => hu.lane i.isLt (markedLane_lt hk) fun e => hne e.2.symm)
    (fun k hk hne u hu => hu.lane i.isLt (markedLane_lt hk) fun e => hne e.2.symm) h
  rw [markerIn_missing]
  exact hu.missing

theorem markersSeen_eq : s.markersSeen [⟨i, l, none⟩] = (s.activeGroups .rx).foldl (fun t j => groupMarkers s t [⟨i, l, none⟩] j) s := by
  unfold markersSeen groupMarkers
  dsimp only
  generalize s.activeGroups .rx = gs
  generalize gs.foldl (fun t j => (t.markedLanes j).foldl (fun u k => u.laneMarker j k (s.markerIn [⟨i, l, none⟩] j k)) t) s = u
  refine List.foldlRecOn (motive := fun v => v = u) gs _ rfl (fun v hv j _ => ?_)
  split
  · exact hv
  · split
    next c hc => rw [fieldSeen_normal (groupField_normal u i l hc), hv]
    · exact hv

/-- The markers of a period in which one lane misses its own for the second time in a row. -/
theorem markersSeen_lost (hc : Calm s) (h0 : s.link.rxFlit = 0) (hi : i.val ∈ s.activeGroups .rx) (hl : l.val ∈ s.dataLanes .rx i)
    (hb : SMap.get (fun _ => 0) s.link.markBad (10 * i.val + l.val) = 1) : Lost s i l (s.markersSeen [⟨i, l, none⟩]) := by
  have hlt {j : Nat} (hj : j ∈ s.activeGroups .rx) : j < 8 := groups_lt j (List.mem_of_mem_filter hj)
  have hs : Waiting s i l s := ⟨⟨MemKept.refl s, hc, fun _ _ _ _ => rfl, rfl⟩, hb, rfl, h0⟩
  have hnodup : (s.activeGroups .rx).Nodup := List.Nodup.filter _ (by decide)
  rw [markersSeen_eq]
  exact foldl_turns (W := Waiting s i l) (L := Lost s i l) hnodup hi (fun u hu => hu.own hl) (fun j hj hne u hu => hu.group (hlt hj) hne)
    (fun j hj hne u hu => hu.group (hlt hj) hne) hs

end

end Sys2Proof.Machine

namespace Sys2Proof.Safety
open Sys2Proof.Machine Sys2Proof.Machine.State Sys2Proof.Laws

/-- The second marker that a lane misses in a row clears its lock. -/
theorem flitReceive_missing (s : State) (f : BitVec 1920) (marks : List MarkIn) (g : Fin 8) (l : Fin 10) (ho : OnXo s) (hc : Calm s)
    (ha : s.linkActive = true) (hd : s.drogue = false) (h0 : s.link.rxFlit = 0 ∧ s.link.rxUi = 0) (hg : g.val ∈ s.activeGroups .rx)
    (hl : l.val ∈ s.dataLanes .rx g) (hm : marks = [⟨g, l, none⟩])
    (hb : SMap.get (fun _ => 0) s.link.markBad (10 * g.val + l.val) = 1) : Gives (.flitReceive f marks) s fun t =>
      t.on (R.RXG_RXL_STAT g l) F.RXG_RXL_STAT_MARK_LOCK = false ∧ MemKept s t := by
  subst hm
  have hlost := markersSeen_lost hc h0.1 hg hl hb
  have heq : s.flitIn f [⟨g, l, none⟩] = (s.markersSeen [⟨g, l, none⟩]).flitReceive f := by
    unfold flitIn
    rw [ha, hd, decide_eq_true h0]
    rfl
  have hpage : pageOf (R.RXG_RXL_STAT g l) ≠ 0x00E ∧ pageOf (R.RXG_RXL_STAT g l) ≠ 0x014 ∧ R.RXG_RXL_STAT g l % 64 ≠ 0x20 ∧
      R.RXG_RXL_STAT g l ≠ R.XACT_EVT_SEQ ∧ R.RXG_RXL_STAT g l ≠ R.XACT_EVT_DROPPED := by
    simp only [pageOf, R.RXG_RXL_STAT, R.XACT_EVT_SEQ, R.XACT_EVT_DROPPED]
    omega
  obtain ⟨hlink, hsettle, hplace, hseq, hdropped⟩ := hpage
  obtain ⟨hmarked, hrd⟩ := hlost.toMarked.flit hlost.first f
  obtain ⟨hmem, hafter⟩ := hmarked.after ho
  refine gives_of_eq rfl (congrArg State.afterLink heq) ⟨?_, hmem⟩
  exact (on_eq_of_rd ((hafter _ hsettle hdropped).trans (hrd _ hlink hseq hplace)) _).trans hlost.lock

/-- Settles O12: a flit inside a marker period is undone on its lanes, taken by what its bytes say, and followed by the next; at the
start of a period the markers come first, and the lane that misses its second keeps its lost lock through all that follows. -/
theorem flitReceiver : Obligations.FlitReceiver :=
  ⟨flitReceive_uncorrectable, flitReceive_crc, flitReceive_null, flitReceive_duplicate, flitReceive_accepted, flitReceive_reserved,
    flitReceive_missing⟩

end Sys2Proof.Safety
end
